-- ==== Sys2Proof/Word.lean ====
section
/-! DEFINITION. The plain data words of the model: register words, flits, Timetable entries and bytes. -/
namespace Sys2Proof

/-- A control-register word, an engine register: 32 bits (R6, R533). -/
abbrev Word := BitVec 32

/-- A byte of memory. -/
abbrev Byte := BitVec 8

/-- A Wengan flit: 256 bits (R98). -/
abbrev Flit := BitVec 256

/-- A Timetable entry: 128 bits (R48). -/
abbrev Entry := BitVec 128

end Sys2Proof
end

