-- ==== Sys2Proof/Syntax.lean ====
section
/-! DEFINITION. The commands: one constructor per row of spec/opcode_table.json, in the table's order, with the
operands the step needs from outside the block (an index, a written value, a received flit, what the physical world
answered). Every operand that numbers a thing is a `Fin`; what a register or a lane carries as bits is a `BitVec`. -/
namespace Sys2Proof

/-- Who performs a register access (R529, R534): the debug port, the Signal Box, the host, or engine `n`. -/
inductive Master where
  | debug
  | signalBox
  | host
  | engine (n : Fin 96)
  deriving DecidableEq, Repr

/-- A unit that drains under R13: a block by its code, or one of the units that have an ENABLE of their own. -/
inductive DrainUnit where
  | ang | tt | dsp | port (p : Fin 4) | engine (n : Fin 96) | fab | ctx | mem | patrol | sch | hwn | ring (k : Fin 16)
  | enc | stk | cfg | pci | sbx | clk | pwr | thm | bst | dbg
  deriving DecidableEq, Repr


/-- What a port of a block memory does on an edge (R203). -/
inductive BmOp where
  | idle
  | read (addr : BitVec 12)
  | write (addr : BitVec 12) (data : BitVec 72)
  deriving DecidableEq, Repr

/-- The pad settings that a region presents for one pin of a bank (R503): banks 0 to 7 user, 8 and 9 legacy. -/
structure PadIn where
  bank  : Fin 10
  pin   : Fin 30
  mode  : BitVec 2
  drive : BitVec 2
  pull  : BitVec 2
  slew  : Bool
  term  : Bool
  ser   : BitVec 2
  deriving DecidableEq, Repr

/-- What a housekeeping round measures (R454): the 20 temperatures in 1/16 °C, none where a sensor gives no conversion,
the VCORE current, the 16 voltage monitors and the VIO of the eight user banks in mV, and the lanes that mismatch in the
health checks. -/
structure RoundIn where
  temps  : List (Option (BitVec 16))
  ivcore : BitVec 9
  volts  : List (BitVec 16)
  vio    : List (BitVec 12)
  fails  : List (Fin 43 × Fin 576)
  deriving DecidableEq, Repr

/-- What a reset sequence of R435 acts on: a block by its code, one engine, or the die at position p + 1. -/
inductive RstUnit where
  | block (code : Fin 33) | engine (n : Fin 96) | die (p : Fin 9)
  deriving DecidableEq, Repr

/-- A reset source whose release is an event of its own: RESET_N, PERST_N, a hot reset, or a HOLD bit. -/
inductive RstSource where
  | pin | perst | hotrst | die (p : Fin 9)
  deriving DecidableEq, Repr

/-- A timed reset source (R428). -/
inductive PulseSource where
  | wdog | swfull | ring | block (code : Fin 33) | engine (n : Fin 96)
  deriving DecidableEq, Repr

/-- The registers of a function's configuration space that the spec gives content to (R370, R372, R376); every other one
reads 0 and ignores writes. -/
inductive CfgReg where
  | vendorDevice | command | revisionClass | headerType
  | bar (k : Fin 6)
  | subsystem | expansionRom | interruptPin | msixControl | msixTable | msixPba | pmCapabilities | pmControl
  | deviceControl | deviceControl2 | linkControl | linkControl2 | ptmCapability | ptmControl | aerUncorrectable | unlisted
  deriving DecidableEq, Repr
/-- What the physical world does to a device access: the bits of a stored memory line and of each transmission that flip, the
BUSY attempts of a memory read and a memory write arbitrated late (R278 to R281), and the collisions and read errors of a
scratchpad (R158, R160). -/
structure AccIn where
  flips   : BitVec 560
  wire    : List (BitVec 560)
  busy    : Fin 5
  late    : Bool
  coll    : BitVec 8
  engW    : BitVec 8
  ecc     : Fin 3
  eccWord : Fin 8
  deriving DecidableEq, Repr


/-- A command of the block: a register access, an arriving flit, an edge, a time-out, or an issued engine
instruction. One constructor per row of the table of operations and events. -/
inductive Instr where
  /-- REGISTER_WRITE (R8). A write to a register field that has no row of its own takes effect according to its access type, lock state and range rules. -/
  | registerWrite (m : Master) (off : BitVec 24) (be : BitVec 4) (value : Word)
  /-- DRAIN_END (R13). A disabled block's work in flight ends, so ENABLE and STATUS.DRAINING both read 0 in the same read. -/
  | drainEnd (block : DrainUnit)
  /-- ENC_COUNT (R30). A quadrature count edge on ENCk_A/B gives a new angle sample, updates the revolution count and feeds the interpolator. -/
  | encCount (k : Fin 4) (up illegal : Bool)
  /-- ENC_Z_EDGE (R30). A rising ENCk_Z edge with ZREQ set zeroes the count and records a slip if the count was more than 4 counts from a multiple of CPR. -/
  | encZEdge (k : Fin 4)
  /-- SSI_FRAME (R31). Every SSIPER the interface reads one SSI frame, checks it, converts it into an angle sample, and takes the axis to LOST after three invalid frames. -/
  | ssiFrame (k : Fin 4) (word : Word) (startHigh endLow : Bool)
  /-- VIRT_COMMIT (R33). A write to the upper word of ANG_AXn_VIRT commits a virtual sample, valid at the ring time of the write. -/
  | virtCommit (m : Master) (n : Fin 16) (upper : Word)
  /-- BEACON (R122). A received BEACON flit gives an angle sample to each axis that follows it, and is forwarded when it arrives on its route port. -/
  | beacon (p : Fin 4) (f : Flit)
  /-- AXIS_TIMEOUT (R36). No beacon or virtual sample arrives within TIMEOUT, so the axis goes to LOST. -/
  | axisTimeout (n : Fin 16)
  /-- AXIS_CFG_WRITE (R36). A write of ANG_AXn_CFG enables or disables an axis, or changes its source and restarts ACQUIRE. -/
  | axisCfgWrite (n : Fin 16) (value : Word)
  /-- ANG_DISABLE (R38). Clearing ANG_CTRL.ENABLE sets every axis to OFF, after any committed virtual sample has been applied. -/
  | angDisable
  /-- ROLE_WRITE (R41). A write of ANG_RTM_ROLE.ROLE stops ring time, then starts it as MASTER from ANG_RT_SET or starts acquisition as FOLLOWER. -/
  | roleWrite (value : Word)
  /-- RING_TIME (R120). A received RING_TIME flit steps, slews or locks ring time on a follower or module, and is forwarded with its correction. -/
  | ringTime (p : Fin 4) (pos : Fin 256) (f : Flit) (late : BitVec 18)
  /-- RCLK_PLL_LOCK (R41). The RCLK PLL locks, taking ring time from ACQ_FREQ to ACQ_PHASE. -/
  | rclkPllLock
  /-- SYNC_TIMEOUT (R41). No ring-time flit arrives within SYNC_TIMEOUT, or the RCLK lane falls, so a LOCKED follower enters HOLDOVER. -/
  | syncTimeout
  /-- HOLDOVER_EXPIRE (R41). The HOLDOVER time elapses; ring time is lost and the follower returns to ACQ_FREQ. -/
  | holdoverExpire
  /-- RING_TIME_SEND (R40). Every 8 µs the device sends ring-time flits on each trunk hop and ring port. -/
  | ringTimeSend
  /-- PTM_CAPTURE (R45). A write of ANG_PTM_CTRL.CAPTURE starts one PTM exchange. -/
  | ptmCapture
  /-- PTM_EXCHANGE_DONE (R45). The PTM exchange ends; host time and ring time are latched and DONE is set. -/
  | ptmExchangeDone (hostTime : BitVec 64)
  /-- BEACON_SEND (R122). Every 1 µs the device sends a beacon for each axis set in WNG_BEACON_EN. -/
  | beaconSend
  /-- FABRIC_INSERT (R64). A fabric insert port hands over an entry on an edge where INS_VALID and INS_READY are both high. -/
  | fabricInsert (port : Fin 24) (tag : BitVec 9) (entry : Entry)
  /-- HOST_INSERT_GO (R61). A write of TT_HIN_GO presents TT_HIN with a tag, or is dropped when no credit is left. -/
  | hostInsertGo (value : Word)
  /-- INSERT_ACCEPTANCE (R59). The Timetable accepts one insertion in its round-robin service and decides it against the walk front. -/
  | insertAcceptance (stored : Bool)
  /-- COMPLETION_RECORD (R63). A completion record is written to its source's queue, or sent to the remote sender, within 8 µs of acceptance. -/
  | completionRecord (k : Nat)
  /-- CQ_RECORD_TAKE (R64). The fabric takes a completion record from its insert port on an edge where CQ_VALID and CQ_READY are both high. -/
  | cqRecordTake (port : Fin 24)
  /-- TT_HCQ_READ (R60). A read of TT_HCQ returns and removes the oldest host completion record, or returns 0xFFFF_FFFF when the queue is empty. -/
  | ttHcqRead
  /-- TT_ENABLE (R53). Setting TT_CTRL.ENABLE starts the Timetable with reservation and initialisation, or resumes it while RESERVED reads 1. -/
  | ttEnable
  /-- TT_INIT_DONE (R53). Initialisation of the link index and directory ends; READY is set and event 0x0801 is raised. -/
  | ttInitDone
  /-- TT_DISABLE (R69). Clearing TT_CTRL.ENABLE refuses new insertions and lets accepted insertions complete. -/
  | ttDisable
  /-- TT_FLUSH_GO (R68). A write of TT_FLUSH.GO starts a flush of the buckets that MODE names. -/
  | ttFlushGo (value : Word)
  /-- FLUSH_BUCKET (R68). The flush removes, in one atomic step, the named revolutions of one bucket number of one axis. -/
  | flushBucket
  /-- DISPATCH_SLOT (R75). Each 4 ns slot the Dispatcher walks the axes, takes buckets, classifies entries, acts on internal entries, rations, and packs and sends consists. -/
  | dispatchSlot
  /-- GROUP_COMMIT_POINT (R87). A group's commit point is reached; the Dispatcher commits it or fails it and sends revoke and fallback flits. -/
  | groupCommitPoint (axis : Fin 16) (rev group : BitVec 8)
  /-- RAIL8_ADMIT (R86). A waiting rail 8 request for a region start, engine wake or plane load is admitted when it fits. -/
  | rail8Admit
  /-- ACK_TIMEOUT (R110). A journal item is not acknowledged within WNG_Pp_ACKTO, so a replay starts, or the port enters RECOVER after 8 replays. -/
  | ackTimeout (p : Fin 4) (seq : BitVec 12)
  /-- BSTOP_REQ (R94). A write of DSP_BSTOP.REQ triggers the buffer stop. -/
  | bstopReq
  /-- BSTOP_STOPPING_TIMEOUT (R94). 100 µs after entry to STOPPING, the buffer stop goes to STOPPED whether or not every port has acknowledged. -/
  | bstopStoppingTimeout
  /-- BSTOP_CLEAR (R94). A write of DSP_BSTOP.CLEAR returns the buffer stop to RUN when no trigger is active, and RESUME is sent. -/
  | bstopClear
  /-- BSTOP_REPEAT (R94). While the buffer stop is not in RUN, the BSTOP flit is repeated on each ring port every 10 µs. -/
  | bstopRepeat
  /-- DSP_DISABLE (R96). Clearing DSP_CTRL.ENABLE stops bucket taking and ends the work in flight as tabulated. -/
  | dspDisable
  /-- CONSIST (R104). A module receives a consist whole, checks it, then stores and acknowledges it, refuses it, or discards a duplicate. -/
  | consist (p : Fin 4) (pos : Fin 256) (flits : List Flit)
  /-- RETIME (R112). A module moves each held consist of the axis with a matching epoch by the retime map, and acknowledges. -/
  | retime (p : Fin 4) (pos : Fin 256) (f : Flit)
  /-- COMMIT (R113). A module makes the staged consists of the named group instance NORMAL and records their last committed updates. -/
  | commit (p : Fin 4) (pos : Fin 256) (f : Flit)
  /-- REVOKE (R113). A module discards the staged consists of the named instance and schedules their fallback. -/
  | revoke (p : Fin 4) (pos : Fin 256) (f : Flit)
  /-- BSTOP (R114). A module discards every consist, applies its safe frame, forwards the flit and refuses consists until RESUME. -/
  | bstop (p : Fin 4) (pos : Fin 256) (f : Flit)
  /-- RESUME (R114). A module ends its stop and accepts consists again. -/
  | resume (p : Fin 4) (pos : Fin 256) (f : Flit)
  /-- SAFE (R114). A quarantined module applies its safe frame. -/
  | safe (p : Fin 4) (pos : Fin 256) (f : Flit)
  /-- MISSED (R115). A module applies the MISSED action of each channel's late rule. -/
  | missed (p : Fin 4) (pos : Fin 256) (f : Flit)
  /-- ACK (R108). An ACK flit frees acknowledged journal items and counts staging and commit acknowledgements. -/
  | ack (p : Fin 4) (pos : Fin 256) (f : Flit)
  /-- NAK (R109). A received NAK starts a replay, or, with reason STOPPED while the buffer stop is in RUN, makes the device send RESUME. -/
  | nak (p : Fin 4) (pos : Fin 256) (f : Flit)
  /-- ENUM (R116). An ENUM flit gives each module its position and delay sum; when it returns, the device sets latency, round trip and module count. -/
  | enumFlit (p : Fin 4) (pos : Fin 256) (f : Flit) (elapsed : BitVec 20 × Bool)
  /-- ID_READ (R117). A module answers a request for 16 bytes of identity memory with ID_DATA. -/
  | idRead (p : Fin 4) (pos : Fin 256) (f : Flit)
  /-- ID_DATA (R117). The device matches identity data to its request, checks the module and sets it OK, QUARANTINED or FAILED. -/
  | idData (p : Fin 4) (f : Flit)
  /-- MAILBOX (R124). A received MAILBOX flit is queued in WNG_MB_RX, or taken as a reset message, or forwarded or dropped by its route. -/
  | mailbox (p : Fin 4) (f : Flit)
  /-- REMOTE_INSERT (R123). A received REMOTE_INSERT is decided under R59 in class TRUNK and answered with INSERT_DONE. -/
  | remoteInsert (p : Fin 4) (f : Flit)
  /-- INSERT_DONE (R123). A returned completion record is placed in WNG_RI_CQ, or discarded if it arrives after the timeout. -/
  | insertDone (p : Fin 4) (f : Flit)
  /-- PROBE (R120). A received PROBE is echoed, or its round trip gives a new hop-delay measurement. -/
  | probe (p : Fin 4) (pos : Fin 256) (down : Bool) (localTime : BitVec 64) (f : Flit)
  /-- CONSIST_EXECUTE (R106). At a NORMAL consist's stamp, the module executes its records in order at its outputs. -/
  | consistExecute (p : Fin 4) (pos : Fin 256) (seq : BitVec 12)
  /-- STAGED_STAMP (R113). A staged consist that is neither committed nor revoked by its stamp is discarded and its fallback applied. -/
  | stagedStamp (p : Fin 4) (pos : Fin 256) (seq : BitVec 12)
  /-- MODULE_SILENCE (R114). A module that receives no valid flit for 1 ms stops as on BSTOP. -/
  | moduleSilence (p : Fin 4) (pos : Fin 256)
  /-- SAFE_REPEAT (R114). Every 1 ms after enumeration the device sends SAFE to each quarantined module. -/
  | safeRepeat (p : Fin 4)
  /-- PROBE_SEND (R120). Every 1 ms each node sends PROBE to measure its downstream hop delay. -/
  | probeSend (p : Fin 4) (pos : Fin 256) (localTime : BitVec 64)
  /-- PORT_ENABLE (R116). Setting WNG_Pp_CTRL.ENABLE takes the port from DISABLED to TRAINING. -/
  | portEnable (p : Fin 4)
  /-- ENUM_WRITE (R116). A write of WNG_Pp_CTRL.ENUM while UP with an empty journal starts enumeration again. -/
  | enumWrite (p : Fin 4)
  /-- ENUM_TIMEOUT (R116). ENUM has not returned within 1 ms; it is sent again, or after four sendings enumeration ends with no modules. -/
  | enumTimeout (p : Fin 4)
  /-- ID_READ_TIMEOUT (R117). An unanswered ID_READ is repeated, or the module becomes FAILED after three repeats. -/
  | idReadTimeout (p : Fin 4) (pos : Fin 256) (off : BitVec 11)
  /-- RECOVER_TIMEOUT (R116). 500 ms in RECOVER send the port back to TRAINING and remove every journal item. -/
  | recoverTimeout (p : Fin 4)
  /-- PORT_DISABLE (R125). Clearing WNG_Pp_CTRL.ENABLE stops new items and drains the journal. -/
  | portDisable (p : Fin 4)
  /-- PORT_IDLE_END (R125). 10 µs of IDLE after draining end; the port stops and its lanes go to OFF. -/
  | portIdleEnd (p : Fin 4)
  /-- TRUNK_ACK_SEND (R121). At least every 1 µs a trunk receiver sends a cumulative ACK. -/
  | trunkAckSend (p : Fin 4)
  /-- WNG_RI_GO (R123). A write of WNG_RI_GO sends the remote insert in WNG_RI_ENTRY, or is refused and counted. -/
  | wngRiGo (value : Word)
  /-- RI_TIMEOUT (R123). No record arrives within WNG_RI_TIMEOUT, so a TIMEOUT record is placed in WNG_RI_CQ. -/
  | riTimeout (k : Nat)
  /-- WNG_RI_CQ_READ (R123). A read of WNG_RI_CQ returns and removes the oldest remote-insert record. -/
  | wngRiCqRead
  /-- WNG_MB_TX_GO (R124). A write of WNG_MB_TX_GO sends a mailbox message to the named node. -/
  | wngMbTxGo (value : Word)
  /-- WNG_MB_RX_READ (R124). A read of the fifth word of WNG_MB_RX removes the oldest message. -/
  | wngMbRxRead
  /-- TRAINING_FRAME (R139). A received training frame drives the lane state machine, the tap requests and the READY handshake. -/
  | trainingFrame (n : Fin 8) (control status : BitVec 64) (inverted fillErr : Bool) (want : BitVec 7) (elapsed : BitVec 16)
  /-- TRAIN_TIMEOUT (R139). A training attempt that lasts 500 ms restarts at DETECT with preset taps and event 0x0E03. -/
  | trainTimeout (n : Fin 8)
  /-- ALIGNMENT_MARKER (R131). A received alignment marker reloads the descrambler and realigns the bonded lanes, or counts as a marker error. -/
  | alignmentMarker (n : Fin 8) (marker : BitVec 256) (missing skew : Bool)
  /-- LOS (R140). The signal stays below the loss-of-signal threshold for 1 µs, so the lane goes down. -/
  | los (n : Fin 8)
  /-- FEC_CODEWORD (R103). A received RS codeword is corrected or its four flits discarded, and the FEC counters are updated. -/
  | fecCodeword (n : Fin 8) (at_ : Fin 256 × Bool) (cw : BitVec 1088)
  /-- LANE_RETRAIN (R140). A write of WLN_LANEn_CTRL.RETRAIN takes the lane down with cause RETRAIN. -/
  | laneRetrain (n : Fin 8)
  /-- LANE_TRAIN_WRITE (R139). Setting or clearing WLN_LANEn_CTRL.TRAIN while the port is DISABLED starts training or returns the lane to OFF. -/
  | laneTrainWrite (n : Fin 8) (on : Bool)
  /-- WAKE_TX (R142). A write of WLN_LANEn_CTRL.WAKE_TX on an OFF lane starts a 200 µs wake tone. -/
  | wakeTx (n : Fin 8)
  /-- WAKE_TONE_END (R142). The wake tone ends after 200 µs, and a port enabled meanwhile starts training. -/
  | wakeToneEnd (n : Fin 8)
  /-- WAKE_TONE_DETECT (R142). After 128 valid tone periods the lane sets WAKE_SEEN and raises event 0x0E06. -/
  | wakeToneDetect (n : Fin 8)
  /-- TEST_PATTERN_WRITE (R143). A write of GEN or CHK selects a test pattern on a lane in LINKUP with its port DISABLED. -/
  | testPatternWrite (n : Fin 8) (value : Word)
  /-- INJECT_SYMBOL (R146). A write of INJECT.SYMBOL alters the next symbol's level index. -/
  | injectSymbol (n : Fin 8)
  /-- INJECT_BURST (R146). A write of INJECT.BURST alters the next BURST_LEN + 1 symbols. -/
  | injectBurst (n : Fin 8)
  /-- INJECT_CRC (R146). A write of INJECT.CRC inverts bit 224 of the next flit, so it fails its CRC. -/
  | injectCrc (n : Fin 8)
  /-- SYMCNT_READ (R144). A read of the lower word of WLN_LANEn_SYMCNT latches the upper word and clears the count. -/
  | symcntRead (n : Fin 8)
  /-- ENG_ENABLE (R153). Setting ENG_n_CTRL.ENABLE starts each thread whose START bit is set. -/
  | engEnable (n : Fin 96)
  /-- ENG_START (R153). A write of START bits starts or stops threads. -/
  | engStart (n : Fin 96) (bits : BitVec 4)
  /-- ENG_DISABLE (R169). Clearing ENG_n_CTRL.ENABLE stops the threads and ends the work in flight as tabulated. -/
  | engDisable (n : Fin 96)
  /-- THREAD_WAKE (R153). An event in a waiting thread's mask becomes pending, so the thread returns to RUN, restarting a gated engine if need be. -/
  | threadWake (n : Fin 96) (t : Fin 4)
  /-- ENGINE_GATE (R156). An engine whose threads all wait or stop requests its clock gate. -/
  | engineGate (n : Fin 96)
  /-- SCRATCHPAD_EXTERNAL (R159). An access to a scratchpad through its external port is performed, with collisions and poison decided. -/
  | scratchpadExternal (n : Fin 96) (line : Fin 1024) (write : Bool) (be : BitVec 64) (data : BitVec 512) (coll : BitVec 8) (engWrites : BitVec 8) (ecc : Fin 3) (eccWord : Fin 8)
  /-- STREAM_TRANSFER (R162). A word crosses a stream port on an edge where VALID and READY are both high. -/
  | streamTransfer (n : Fin 96) (k : Fin 8) (data : BitVec 64) (last : Bool)
  /-- STREAM_TIMEOUT (R163). An SRD or SWR that waits for ENG_n_STREAM_TO µs completes TIMEOUT. -/
  | streamTimeout (n : Fin 96) (t : Fin 4)
  /-- WINDOW_RESPONSE (R165). A window access completes: a load writes its destination and LDSTAT, and a failed store is recorded in ENG_n_WERR. -/
  | windowResponse (n : Fin 96) (k : Fin 16) (x : AccIn)
  /-- WINDOW_TIMEOUT (R165). A window access with no response in 100 µs completes TIMEOUT. -/
  | windowTimeout (n : Fin 96) (k : Fin 16)
  /-- ENG_SIGNAL_SET (R168). A master sets bits of ENG_n_SIGNAL. -/
  | engSignalSet (n : Fin 96) (bits : BitVec 16)
  /-- ENG_SRESET (R170). A write of ENG_n_CTRL.SRESET resets one engine as a BLOCK reset. -/
  | engSreset (n : Fin 96)
  /-- ADD (R177). ADD writes rs1 + rs2 to rd. -/
  | iAdd (n : Fin 96) (t : Fin 4) (rd rs1 rs2 : Fin 16) (f : Bool)
  /-- SUB (R177). SUB writes rs1 − rs2 to rd. -/
  | iSub (n : Fin 96) (t : Fin 4) (rd rs1 rs2 : Fin 16) (f : Bool)
  /-- ADC (R177). ADC adds with carry. -/
  | iAdc (n : Fin 96) (t : Fin 4) (rd rs1 rs2 : Fin 16) (f : Bool)
  /-- SBC (R177). SBC subtracts with borrow. -/
  | iSbc (n : Fin 96) (t : Fin 4) (rd rs1 rs2 : Fin 16) (f : Bool)
  /-- AND (R177). AND writes the bitwise AND. -/
  | iAnd (n : Fin 96) (t : Fin 4) (rd rs1 rs2 : Fin 16) (f : Bool)
  /-- OR (R177). OR writes the bitwise OR. -/
  | iOr (n : Fin 96) (t : Fin 4) (rd rs1 rs2 : Fin 16) (f : Bool)
  /-- XOR (R177). XOR writes the bitwise exclusive-or. -/
  | iXor (n : Fin 96) (t : Fin 4) (rd rs1 rs2 : Fin 16) (f : Bool)
  /-- ANDN (R177). ANDN writes rs1 AND NOT rs2. -/
  | iAndn (n : Fin 96) (t : Fin 4) (rd rs1 rs2 : Fin 16) (f : Bool)
  /-- SHL (R177). SHL shifts left by rs2[4:0]. -/
  | iShl (n : Fin 96) (t : Fin 4) (rd rs1 rs2 : Fin 16) (f : Bool)
  /-- SHR (R177). SHR shifts right with zero fill. -/
  | iShr (n : Fin 96) (t : Fin 4) (rd rs1 rs2 : Fin 16) (f : Bool)
  /-- SAR (R177). SAR shifts right with sign fill. -/
  | iSar (n : Fin 96) (t : Fin 4) (rd rs1 rs2 : Fin 16) (f : Bool)
  /-- ROR (R177). ROR rotates right. -/
  | iRor (n : Fin 96) (t : Fin 4) (rd rs1 rs2 : Fin 16) (f : Bool)
  /-- MIN (R177). MIN writes the signed minimum. -/
  | iMin (n : Fin 96) (t : Fin 4) (rd rs1 rs2 : Fin 16) (f : Bool)
  /-- MAX (R177). MAX writes the signed maximum. -/
  | iMax (n : Fin 96) (t : Fin 4) (rd rs1 rs2 : Fin 16) (f : Bool)
  /-- MINU (R177). MINU writes the unsigned minimum. -/
  | iMinu (n : Fin 96) (t : Fin 4) (rd rs1 rs2 : Fin 16) (f : Bool)
  /-- MAXU (R177). MAXU writes the unsigned maximum. -/
  | iMaxu (n : Fin 96) (t : Fin 4) (rd rs1 rs2 : Fin 16) (f : Bool)
  /-- MUL (R177). MUL writes the low 32 bits of the product. -/
  | iMul (n : Fin 96) (t : Fin 4) (rd rs1 rs2 : Fin 16) (f : Bool)
  /-- MULH (R177). MULH writes the high 32 bits of the signed product. -/
  | iMulh (n : Fin 96) (t : Fin 4) (rd rs1 rs2 : Fin 16) (f : Bool)
  /-- MULHU (R177). MULHU writes the high 32 bits of the unsigned product. -/
  | iMulhu (n : Fin 96) (t : Fin 4) (rd rs1 rs2 : Fin 16) (f : Bool)
  /-- CLZ (R177). CLZ counts the leading zeros of rs1. -/
  | iClz (n : Fin 96) (t : Fin 4) (rd rs1 : Fin 16) (f : Bool)
  /-- POPC (R177). POPC counts the ones in rs1. -/
  | iPopc (n : Fin 96) (t : Fin 4) (rd rs1 : Fin 16) (f : Bool)
  /-- CMP (R177). CMP sets the flags from rs1 − rs2. -/
  | iCmp (n : Fin 96) (t : Fin 4) (rs1 rs2 : Fin 16) (f : Bool)
  /-- TST (R177). TST sets the flags from rs1 AND rs2. -/
  | iTst (n : Fin 96) (t : Fin 4) (rs1 rs2 : Fin 16) (f : Bool)
  /-- ADDI (R174). ADDI adds a sign-extended immediate. -/
  | iAddi (n : Fin 96) (t : Fin 4) (rd rs1 : Fin 16) (imm : BitVec 18)
  /-- ANDI (R174). ANDI ANDs a zero-extended immediate. -/
  | iAndi (n : Fin 96) (t : Fin 4) (rd rs1 : Fin 16) (imm : BitVec 18)
  /-- ORI (R174). ORI ORs a zero-extended immediate. -/
  | iOri (n : Fin 96) (t : Fin 4) (rd rs1 : Fin 16) (imm : BitVec 18)
  /-- XORI (R174). XORI exclusive-ors a zero-extended immediate. -/
  | iXori (n : Fin 96) (t : Fin 4) (rd rs1 : Fin 16) (imm : BitVec 18)
  /-- CMPI (R174). CMPI sets the flags from rs1 minus an immediate. -/
  | iCmpi (n : Fin 96) (t : Fin 4) (rs1 : Fin 16) (imm : BitVec 18)
  /-- MOVI (R174). MOVI loads a sign-extended immediate. -/
  | iMovi (n : Fin 96) (t : Fin 4) (rd : Fin 16) (imm : BitVec 18)
  /-- MOVH (R174). MOVH sets the upper half of rd. -/
  | iMovh (n : Fin 96) (t : Fin 4) (rd : Fin 16) (imm : BitVec 16)
  /-- SHLI (R174). SHLI shifts left by an immediate. -/
  | iShli (n : Fin 96) (t : Fin 4) (rd rs1 : Fin 16) (sh : BitVec 5) (f : Bool)
  /-- SHRI (R174). SHRI shifts right logically by an immediate. -/
  | iShri (n : Fin 96) (t : Fin 4) (rd rs1 : Fin 16) (sh : BitVec 5) (f : Bool)
  /-- SARI (R174). SARI shifts right arithmetically by an immediate. -/
  | iSari (n : Fin 96) (t : Fin 4) (rd rs1 : Fin 16) (sh : BitVec 5) (f : Bool)
  /-- RORI (R174). RORI rotates right by an immediate. -/
  | iRori (n : Fin 96) (t : Fin 4) (rd rs1 : Fin 16) (sh : BitVec 5) (f : Bool)
  /-- SADD (R178). SADD adds with 32-bit saturation. -/
  | iSadd (n : Fin 96) (t : Fin 4) (rd rs1 rs2 : Fin 16) (f : Bool)
  /-- SSUB (R178). SSUB subtracts with 32-bit saturation. -/
  | iSsub (n : Fin 96) (t : Fin 4) (rd rs1 rs2 : Fin 16) (f : Bool)
  /-- SADDH2 (R178). SADDH2 adds halves with saturation. -/
  | iSaddh2 (n : Fin 96) (t : Fin 4) (rd rs1 rs2 : Fin 16) (f : Bool)
  /-- SSUBH2 (R178). SSUBH2 subtracts halves with saturation. -/
  | iSsubh2 (n : Fin 96) (t : Fin 4) (rd rs1 rs2 : Fin 16) (f : Bool)
  /-- FMUL15 (R178). FMUL15 performs a Q15 multiply. -/
  | iFmul15 (n : Fin 96) (t : Fin 4) (rd rs1 rs2 : Fin 16) (f : Bool)
  /-- FMUL31 (R178). FMUL31 performs a Q31 multiply. -/
  | iFmul31 (n : Fin 96) (t : Fin 4) (rd rs1 rs2 : Fin 16) (f : Bool)
  /-- SNEG (R178). SNEG negates with saturation. -/
  | iSneg (n : Fin 96) (t : Fin 4) (rd rs1 : Fin 16) (f : Bool)
  /-- SABS (R178). SABS takes the absolute value with saturation. -/
  | iSabs (n : Fin 96) (t : Fin 4) (rd rs1 : Fin 16) (f : Bool)
  /-- CLAMP (R178). CLAMP limits a value to a signed register-pair range. -/
  | iClamp (n : Fin 96) (t : Fin 4) (rd rs1 rs2 : Fin 16) (f : Bool)
  /-- CLAMPU (R178). CLAMPU limits a value to an unsigned register-pair range. -/
  | iClampu (n : Fin 96) (t : Fin 4) (rd rs1 rs2 : Fin 16) (f : Bool)
  /-- LIMS (R178). LIMS limits a value to a signed N-bit range. -/
  | iLims (n : Fin 96) (t : Fin 4) (rd rs1 rs2 : Fin 16) (f : Bool) (nm1 : BitVec 5)
  /-- LIMU (R178). LIMU limits a value to an unsigned N-bit range. -/
  | iLimu (n : Fin 96) (t : Fin 4) (rd rs1 rs2 : Fin 16) (f : Bool) (nm1 : BitVec 5)
  /-- MAC (R179). MAC adds a signed product to an accumulator. -/
  | iMac (n : Fin 96) (t : Fin 4) (rs1 rs2 : Fin 16) (acc : Fin 4)
  /-- MSU (R179). MSU subtracts a signed product from an accumulator. -/
  | iMsu (n : Fin 96) (t : Fin 4) (rs1 rs2 : Fin 16) (acc : Fin 4)
  /-- MACU (R179). MACU adds an unsigned product to an accumulator. -/
  | iMacu (n : Fin 96) (t : Fin 4) (rs1 rs2 : Fin 16) (acc : Fin 4)
  /-- MZ (R179). MZ sets an accumulator to a signed product. -/
  | iMz (n : Fin 96) (t : Fin 4) (rs1 rs2 : Fin 16) (acc : Fin 4)
  /-- MAC2H (R179). MAC2H adds the two signed half products to an accumulator. -/
  | iMac2h (n : Fin 96) (t : Fin 4) (rs1 rs2 : Fin 16) (acc : Fin 4)
  /-- ACLR (R179). ACLR clears an accumulator. -/
  | iAclr (n : Fin 96) (t : Fin 4) (acc : Fin 4)
  /-- AWL (R179). AWL writes accumulator bits [31:0]. -/
  | iAwl (n : Fin 96) (t : Fin 4) (rs1 rs2 : Fin 16) (acc : Fin 4)
  /-- AWH (R179). AWH writes accumulator bits [63:32]. -/
  | iAwh (n : Fin 96) (t : Fin 4) (rs1 rs2 : Fin 16) (acc : Fin 4)
  /-- AWG (R179). AWG writes the accumulator guard bits. -/
  | iAwg (n : Fin 96) (t : Fin 4) (rs1 rs2 : Fin 16) (acc : Fin 4)
  /-- ARD (R179). ARD reads an accumulator with rounding and saturation. -/
  | iArd (n : Fin 96) (t : Fin 4) (rd rs1 rs2 : Fin 16) (acc : Fin 4) (sh : BitVec 6)
  /-- ARDT (R179). ARDT reads a shifted accumulator, truncated. -/
  | iArdt (n : Fin 96) (t : Fin 4) (rd rs1 rs2 : Fin 16) (acc : Fin 4) (sh : BitVec 6)
  /-- ARG (R179). ARG reads the accumulator guard bits. -/
  | iArg (n : Fin 96) (t : Fin 4) (rd rs1 rs2 : Fin 16) (acc : Fin 4)
  /-- LB (R180). LB loads a sign-extended byte. -/
  | iLb (n : Fin 96) (t : Fin 4) (rd base : Fin 16) (imm : BitVec 18) (ecc : Fin 3)
  /-- LBU (R180). LBU loads a zero-extended byte. -/
  | iLbu (n : Fin 96) (t : Fin 4) (rd base : Fin 16) (imm : BitVec 18) (ecc : Fin 3)
  /-- LH (R180). LH loads a sign-extended halfword. -/
  | iLh (n : Fin 96) (t : Fin 4) (rd base : Fin 16) (imm : BitVec 18) (ecc : Fin 3)
  /-- LHU (R180). LHU loads a zero-extended halfword. -/
  | iLhu (n : Fin 96) (t : Fin 4) (rd base : Fin 16) (imm : BitVec 18) (ecc : Fin 3)
  /-- LW (R180). LW loads a word from the scratchpad, an alias or a window. -/
  | iLw (n : Fin 96) (t : Fin 4) (rd base : Fin 16) (imm : BitVec 18) (ecc : Fin 3)
  /-- LD (R180). LD loads a register pair. -/
  | iLd (n : Fin 96) (t : Fin 4) (rd base : Fin 16) (imm : BitVec 18) (ecc : Fin 3)
  /-- SB (R180). SB stores a byte, performing a bit-set or bit-clear through the aliases. -/
  | iSb (n : Fin 96) (t : Fin 4) (rs base : Fin 16) (imm : BitVec 18) (ecc : Fin 3)
  /-- SH (R180). SH stores a halfword. -/
  | iSh (n : Fin 96) (t : Fin 4) (rs base : Fin 16) (imm : BitVec 18) (ecc : Fin 3)
  /-- SW (R180). SW stores a word. -/
  | iSw (n : Fin 96) (t : Fin 4) (rs base : Fin 16) (imm : BitVec 18) (ecc : Fin 3)
  /-- SD (R180). SD stores a register pair. -/
  | iSd (n : Fin 96) (t : Fin 4) (rs base : Fin 16) (imm : BitVec 18) (ecc : Fin 3)
  /-- B (R182). B(cond) branches when its condition holds. -/
  | iB (n : Fin 96) (t : Fin 4) (cond : BitVec 4) (off : BitVec 22)
  /-- BL (R174). BL branches and writes the return address to g15. -/
  | iBl (n : Fin 96) (t : Fin 4) (off : BitVec 26)
  /-- JR (R174). JR jumps to rs1. -/
  | iJr (n : Fin 96) (t : Fin 4) (rs1 : Fin 16)
  /-- JLR (R182). JLR jumps to rs1 and writes the return address to rd. -/
  | iJlr (n : Fin 96) (t : Fin 4) (rd rs1 : Fin 16)
  /-- CSRR (R187). CSRR reads a CSR into rd, removing a message when the CSR is WAKEMSG. -/
  | iCsrr (n : Fin 96) (t : Fin 4) (rd : Fin 16) (csr : BitVec 12)
  /-- CSRW (R187). CSRW writes a CSR. -/
  | iCsrw (n : Fin 96) (t : Fin 4) (rs1 : Fin 16) (csr : BitVec 12)
  /-- CSRS (R187). CSRS sets CSR bits. -/
  | iCsrs (n : Fin 96) (t : Fin 4) (rd rs1 : Fin 16) (csr : BitVec 12)
  /-- CSRC (R187). CSRC clears CSR bits. -/
  | iCsrc (n : Fin 96) (t : Fin 4) (rd rs1 : Fin 16) (csr : BitVec 12)
  /-- NOP (R186). NOP does nothing. -/
  | iNop (n : Fin 96) (t : Fin 4) (a b : Fin 16) (imm : BitVec 14)
  /-- WAIT (R185). WAIT takes its mask from a register and waits for an event. -/
  | iWait (n : Fin 96) (t : Fin 4) (a b : Fin 16) (imm : BitVec 14)
  /-- WAITI (R185). WAITI takes its mask from an immediate and waits for an event. -/
  | iWaiti (n : Fin 96) (t : Fin 4) (a b : Fin 16) (imm : BitVec 14)
  /-- FENCE (R186). FENCE stalls until earlier window stores have completed. -/
  | iFence (n : Fin 96) (t : Fin 4) (a b : Fin 16) (imm : BitVec 14)
  /-- BRK (R186). BRK faults the thread with cause BRK, or halts it under an attached debugger. -/
  | iBrk (n : Fin 96) (t : Fin 4) (a b : Fin 16) (imm : BitVec 14)
  /-- SRD (R183). SRD takes one word from an inbound stream port. -/
  | iSrd (n : Fin 96) (t : Fin 4) (rd b : Fin 16) (imm : BitVec 14)
  /-- SWR (R183). SWR places one word into an outbound stream port. -/
  | iSwr (n : Fin 96) (t : Fin 4) (rs b : Fin 16) (imm : BitVec 14)
  /-- TTI (R184). TTI presents an entry to the Timetable insert path with an immediate tag. -/
  | iTti (n : Fin 96) (t : Fin 4) (rs b : Fin 16) (imm : BitVec 14)
  /-- TTIR (R184). TTIR presents an entry with a tag taken from a register. -/
  | iTtir (n : Fin 96) (t : Fin 4) (rs b : Fin 16) (imm : BitVec 14)
  /-- TTC (R184). TTC takes the oldest Timetable completion record of the engine. -/
  | iTtc (n : Fin 96) (t : Fin 4) (rd b : Fin 16) (imm : BitVec 14)
  /-- STROBE_PRESENT (R211). A latched strobe pulse is presented on STB[k] for one edge of its region clock. -/
  | strobePresent (r : Fin 72) (k : Fin 8)
  /-- REGION_SLEEP (R210). SLEEP_REQ high for 16 edges of region clock 0 puts the region to sleep. -/
  | regionSleep (r : Fin 72)
  /-- REGION_WAKE_WRITE (R210). A write of FAB_REGr_CTRL.WAKE requests a wake of the region on rail 8. -/
  | regionWakeWrite (r : Fin 72)
  /-- BM_ACCESS (R203). A block-memory port reads or writes a word in RAM mode, with collisions, correction and DBE decided. -/
  | bmAccess (r : Fin 72) (i : Fin 50) (a b : BmOp) (coll : Bool) (upset : BitVec 144)
  /-- QUEUE_PUSH (R204). A PUSH adds an entry to a FIFO, priority queue or mailbox, or pulses ERR when it cannot. -/
  | queuePush (r : Fin 72) (i : Fin 50) (data : BitVec 72 × Bool)
  /-- QUEUE_POP (R204). A POP removes or releases the head entry, or pulses ERR when the queue is empty. -/
  | queuePop (r : Fin 72) (i : Fin 50)
  /-- FAB_DISABLE (R215). Clearing FAB_CTRL.ENABLE discards new strobe pulses and stops strobe wakes. -/
  | fabDisable
  /-- VT_CLAIM_UNCORR (R231). An uncorrectable claim-map word sets its claims to NONE with event 0x0520. -/
  | vtClaimUncorr (k : Fin 4) (w : Fin 19200)
  /-- POINTS_REQUEST_WRITE (R236). A write of CTX_REGr_REQ by an engine or the host makes a points request pending. -/
  | pointsRequestWrite (m : Master) (r : Fin 72) (ctx : Fin 4)
  /-- PTS_REQ (R236). The region's fabric presents a points request on PTS_REQ. -/
  | ptsReq (r : Fin 72) (ctx : Fin 4)
  /-- POINTS_SAMPLE (R238). At a sampling opportunity the region takes its highest-priority pending request and accepts it, starts a switch, or refuses it. -/
  | pointsSample (r : Fin 72)
  /-- SWITCH_INSTANT (R240). Two edges after sampling, the new context takes force and the vertical-track drivers hand over. -/
  | switchInstant (r : Fin 72)
  /-- PLANE_CLEAR (R248). A write of CTX_REGr_CLEAR starts clearing the named planes. -/
  | planeClear (r : Fin 72) (planes : BitVec 4)
  /-- PLANE_CLEAR_DONE (R248). The clear ends; the plane is EMPTY, its claims are removed and its PRIVATE copies read 0. -/
  | planeClearDone (r : Fin 72) (k : Fin 4)
  /-- SCRUB_WORD (R249). The scrubber reads a configuration word, corrects a single-bit error or marks the plane UNCORR. -/
  | scrubWord (r : Fin 72) (k : Fin 4) (kind : Fin 3) (tile : Fin 800) (word : Fin 256) (err : Fin 3) (passMs : BitVec 8)
  /-- CTX_DISABLE (R251). Clearing CTX_CTRL.ENABLE refuses every pending and later points request. -/
  | ctxDisable
  /-- REGION_STOP (R255). A write of FAB_REGr_CTRL.STOP starts the stop sequence. -/
  | regionStop (r : Fin 72)
  /-- STOP_EDGE (R256). At the stop edge the region's clocks close, its cuffs leave PASS and its pins enter their stop state. -/
  | stopEdge (r : Fin 72)
  /-- REGION_START (R255). A write of FAB_REGr_CTRL.START releases a LOADED region or restarts a STOPPED one, or is refused. -/
  | regionStart (r : Fin 72)
  /-- RELEASE_EDGE (R257). The region's first clock edge after admission makes it RELEASED, puts its cuffs in PASS and hands it its pins and functions. -/
  | releaseEdge (r : Fin 72) (pads : List PadIn)
  /-- MEM_READ (R281). A read of a memory line is decoded at the port end and returned, corrected, resent, or completed POISON or INTERNAL. -/
  | memRead (m : BitVec 8) (addr : BitVec 48) (tag : BitVec 6) (flips : BitVec 560) (busy : Fin 5) (mrq : Bool) (wire : List (BitVec 560))
  /-- MEM_WRITE (R280). A full or partial write is stored directly, or as an atomic read-modify-write. -/
  | memWrite (m : BitVec 8) (addr : BitVec 48) (tag : BitVec 6) (mask : BitVec 64) (data : BitVec 512) (flips : BitVec 560) (wire : List (BitVec 560)) (busy mrq : Bool)
  /-- MEM_SET_ALIAS (R280). A set-alias write ORs bytes into a line by read-modify-write. -/
  | memSetAlias (m : BitVec 8) (addr : BitVec 48) (tag : BitVec 6) (mask : BitVec 64) (data : BitVec 512) (flips : BitVec 560) (wire : List (BitVec 560)) (busy mrq : Bool)
  /-- MEM_CLEAR_ALIAS (R280). A clear-alias write clears bits in a line by read-modify-write. -/
  | memClearAlias (m : BitVec 8) (addr : BitVec 48) (tag : BitVec 6) (mask : BitVec 64) (data : BitVec 512) (flips : BitVec 560) (wire : List (BitVec 560)) (busy mrq : Bool)
  /-- MEM_REREAD (R281). Within 1 µs of a corrected read, the die re-reads the line and writes back a correction. -/
  | memReread (flips : BitVec 560)
  /-- PATROL_VISIT (R284). Each patrol interval visits one line, correcting or poisoning it. -/
  | patrolVisit (d : Fin 3) (flips : BitVec 560) (secs : BitVec 32)
  /-- MEM_GROUP_MODE_WRITE (R270). A write of MEM_GRPn_CFG.MODE changes the group's mode, or is refused with event 0x1005. -/
  | memGroupModeWrite (n : Fin 24) (mode : BitVec 2)
  /-- MEM_GROUP_OWNER_WRITE (R269). A write of MEM_GRPn_OWNER sets bank owners, leaving reserved codes and partition banks unchanged. -/
  | memGroupOwnerWrite (n : Fin 24) (upper : Bool) (value : Word)
  /-- MEM_DISABLE (R285). Clearing MEM_CTRL.ENABLE refuses new requests apart from those of exempt masters. -/
  | memDisable
  /-- PATROL_DISABLE (R284). Clearing MEM_PATROL.ENABLE finishes the visit in progress and stops the patrol. -/
  | patrolDisable
  /-- MEM_INIT_DONE (R286). The POR zero-write of all three dies ends and INIT_DONE is set. -/
  | memInitDone
  /-- MAP_LOAD (R289). HWN_MAP_CMD with WRITE = 0 loads a page's map entry into HWN_MAP_DATA. -/
  | mapLoad (p : Fin 32768)
  /-- MAP_WRITE (R289). HWN_MAP_CMD with WRITE = 1 writes a map entry or refuses it, and a new sealed page enters INIT. -/
  | mapWrite (p : Fin 32768)
  /-- SEALED_PAGE_INIT_DONE (R289). All lines of a newly sealed page are written, so the page becomes READY. -/
  | sealedPageInitDone (p : Fin 32768)
  /-- HWN_OWN_GIVE (R292). A write of HWN_OWN_GIVE hands HOST pages to DEVICE, or is refused whole. -/
  | hwnOwnGive (first count : Fin 32768)
  /-- HWN_OWN_RECLAIM (R292). A write of HWN_OWN_RECLAIM starts a reclaim of DEVICE pages. -/
  | hwnOwnReclaim (first count : Fin 32768)
  /-- RECLAIM_DONE (R292). The reclaim's write-backs are issued and its lines invalidated, so the pages return to HOST with event 0x1201. -/
  | reclaimDone
  /-- HOST_WINDOW_READ (R295). A host-window read hits, or allocates a way and starts a fill, writing back a dirty victim. -/
  | hostWindowRead (n : Fin 96) (k : Fin 16) (ecc : Fin 4)
  /-- HOST_WINDOW_WRITE (R295). A host-window write, partial write or alias write is merged into a way, filling first where needed. -/
  | hostWindowWrite (n : Fin 96) (k : Fin 16) (ecc : Fin 4)
  /-- CACHE_FILL_DONE (R301). A fill completes; a sealed line's tag is verified, or the way is poisoned TAGFAIL. -/
  | cacheFillDone (k : Fin 256) (data : BitVec 512) (ctr tag : BitVec 64) (bad : Bool)
  /-- FILL_TIMEOUT (R296). A fill's completion does not arrive within HWN_CPL_TO; the access completes TIMEOUT. -/
  | fillTimeout (k : Fin 256)
  /-- SCH_ENABLE (R293). Setting SCH_CTRL.ENABLE sizes the cache from the CACHE groups, or refuses with event 0x1101. -/
  | schEnable
  /-- SCH_DISABLE (R310). Clearing SCH_CTRL.ENABLE refuses new accesses and writes back every dirty line. -/
  | schDisable
  /-- SCH_ZERO (R298). A write of the upper word of SCH_ZERO writes a whole line of zeros through the stack cache. -/
  | schZero (upper : BitVec 16)
  /-- REKEY_GO (R304). A write of ENC_REKEY.GO draws KEY_NEXT and starts a rekey. -/
  | rekeyGo
  /-- REKEY_VISIT (R304). The rekey re-encrypts one sealed line under KEY_NEXT and moves ENC_BOUND past it. -/
  | rekeyVisit (data : BitVec 512) (ctr tag : BitVec 64) (ok : Bool)
  /-- RING_TAIL_WRITE (R305). A write of HWN_RINGk_TAIL resumes descriptor fetching. -/
  | ringTailWrite (k : Fin 16) (tail : BitVec 12)
  /-- DESCRIPTOR_FETCH (R305). A fetched descriptor is started, or stops fetching if its OWN bit is 0. -/
  | descriptorFetch (k : Fin 16) (desc : BitVec 256)
  /-- TO_DEVICE (R307). A TO_DEVICE descriptor copies bytes from host memory to a device address. -/
  | toDevice (k : Fin 16) (i : Fin 4096) (data : List Byte) (bad : Bool)
  /-- TO_HOST (R307). A TO_HOST descriptor copies bytes from a device address to host memory. -/
  | toHost (k : Fin 16) (i : Fin 4096) (n : BitVec 13)
  /-- RECLAIM (R307). A RECLAIM descriptor reclaims a range of pages. -/
  | reclaim (k : Fin 16) (i : Fin 4096)
  /-- CONFIG (R356). A CONFIG descriptor sends its bytes into the open configuration session. -/
  | config (k : Fin 16) (i : Fin 4096) (data : List Byte) (bad : Bool)
  /-- DESCRIPTOR_COMPLETE (R308). A descriptor completes: DONE and OWN = 0 are written back and its vector may be sent. -/
  | descriptorComplete (k : Fin 16) (i : Fin 4096)
  /-- CPL_TIMEOUT (R308). A host completion misses HWN_CPL_TO, so the request ends TIMEOUT with event 0x1204. -/
  | cplTimeout (k : Fin 16) (i : Fin 4096)
  /-- BME_CLEAR (R309). The host clears Bus Master Enable; rings abort and misses complete DISABLED. -/
  | bmeClear
  /-- BME_SET (R309). The host sets Bus Master Enable again; waiting reclaims, initialisations and rekeys resume. -/
  | bmeSet
  /-- RING_RESET (R309). A write of HWN_RINGk_CTRL.RESET clears HEAD, TAIL, ABORTED and STALLED. -/
  | ringReset (k : Fin 16)
  /-- RING_DISABLE (R310). Clearing a ring's ENABLE stops fetching and cancels fetched descriptors that have not started. -/
  | ringDisable (k : Fin 16)
  /-- HWN_DISABLE (R310). Clearing HWN_CTRL.ENABLE makes doorbells and map writes ineffective and stops the rings. -/
  | hwnDisable
  /-- ENC_DISABLE (R310). Clearing ENC_CTRL.ENABLE refuses sealed accesses. -/
  | encDisable
  /-- ABORT_LOG_READ (R309). A read of HWN_ABORT_LOG returns and removes the oldest abort record. -/
  | abortLogRead
  /-- HOUSEKEEPING_ROUND (R454). Every 1 ms the device reads its sensors, judges link conditions and thermal state, and runs the link health checks. -/
  | housekeepingRound (x : RoundIn)
  /-- RETRAIN_STEP (R319). A retrain step of 20 µs ends, and the carrier moves to the next position or the retrain ends. -/
  | retrainStep (k : Fin 43) (ok : Bool)
  /-- SIDING_SWITCH (R325). A siding trained against a failing lane's traffic takes over that lane and becomes IN_USE. -/
  | sidingSwitch (k : Fin 43) (ok : Bool)
  /-- LINK_FENCE (R327). A write of STK_Lk_CTRL.FENCE fences the link with cause HOST. -/
  | linkFence (k : Fin 43)
  /-- LINK_RETRAIN_WRITE (R318). A write of STK_Lk_CTRL.RETRAIN starts a retrain when a siding is free. -/
  | linkRetrainWrite (k : Fin 43)
  /-- STARTUP_TRAINING_DONE (R317). Start-up training of all 43 links ends and STK_STATUS.TRAINED is set. -/
  | startupTrainingDone (fails : List (Fin 43 × Fin 576))
  /-- STK_DISABLE (R331). Clearing STK_CTRL.ENABLE stops checks and retrains after the current position. -/
  | stkDisable
  /-- SESSION_OPEN (R354). A write of CFG_SESSION.OPEN opens a session from the load window or a ring. -/
  | sessionOpen (ringSrc : Bool) (k : Fin 16)
  /-- LOAD_WINDOW_WRITE (R355). A write to the load window appends stream bytes, or is discarded when no WINDOW session is open. -/
  | loadWindowWrite (data : List Byte)
  /-- SYNC (R335). The controller takes the SYNC command at byte 0. -/
  | bsSync
  /-- HEADER (R337). The controller takes the header and checks it, rejecting the whole stream on the first failing check. -/
  | bsHeader
  /-- SELECT (R338). SELECT names the die, region and context for the frames that follow. -/
  | bsSelect
  /-- FRAME (R344). A frame is checked and written into a plane, block memory or staged cuffs, or rejected. -/
  | bsFrame
  /-- REPEAT (R346). REPEAT writes the last frame's bits at each of N addresses. -/
  | bsRepeat
  /-- INITVEC (R348). INITVEC starts decryption of an encrypted body and checks its GCM tag. -/
  | bsInitvec
  /-- CUFFSET (R345). CUFFSET stages one cuff mode for every tile of the selected region. -/
  | bsCuffset
  /-- RELEASE (R347). RELEASE names a region to be released when the session verifies. -/
  | bsRelease
  /-- END (R347). END closes the body and checks the frame count. -/
  | bsEnd
  /-- SIGNATURE (R349). The last signature byte taken moves the session to VERIFYING. -/
  | bsSignature
  /-- VERIFICATION_DONE (R358). Signature and tag verification ends and the commit or failure sequence runs. -/
  | verificationDone
  /-- FAILURE_SEQUENCE_END (R360). The plane scrubs end, the regions return, and event 0x0502 is raised. -/
  | failureSequenceEnd
  /-- SESSION_FINISH (R359). A write of CFG_SESSION.FINISH ends an OPEN session early. -/
  | sessionFinish
  /-- SESSION_ABORT (R359). A write of CFG_SESSION.ABORT ends an OPEN session early. -/
  | sessionAbort
  /-- SESSION_IDLE_TIMEOUT (R359). No byte arrives for CFG_IDLE_TO, so the session ends early. -/
  | sessionIdleTimeout
  /-- DEADLINE_EXPIRE (R352). The enumeration deadline passes with a named function not visible; DEADLINE_MISS is set and functions are hidden. -/
  | deadlineExpire
  /-- REVEAL (R352). A write of CFG_CTRL.REVEAL ends the hiding of user functions. -/
  | reveal
  /-- READBACK (R366). A write of CFG_RB_CTRL.GO reads a frame into CFG_RB_DATA. -/
  | readback
  /-- CFG_DISABLE (R367). Clearing CFG_CTRL.ENABLE ends an OPEN session early. -/
  | cfgDisable
  /-- LINK_UP (R369). The PCIe link reaches L0 or changes speed or width, with event 0x2001. -/
  | linkUp (speed : Fin 4) (width : Fin 3)
  /-- CONFIG_REQUEST (R370). A configuration request to a function is answered, retried or refused. -/
  | configRequest (fn : Fin 4) (reg : CfgReg) (write : Bool) (value : Word)
  /-- BAR0_READ (R373). A BAR0 read returns register data, clearing RC fields, or completes UR. -/
  | bar0Read (off : BitVec 24) (len : Fin 4097)
  /-- BAR2_READ (R374). A BAR2 read reaches the memory dies and maps each line's status to a completion. -/
  | bar2Read (off : BitVec 28) (len : Fin 4097) (parts : List (BitVec 560 × List (BitVec 560) × Fin 5))
  /-- BAR2_WRITE (R374). A BAR2 write reaches the memory dies and records a failure. -/
  | bar2Write (off : BitVec 28) (len : Fin 513) (be : BitVec 512) (data : BitVec 4096) (ep : Bool) (flips : BitVec 560) (wire : List (BitVec 560)) (busy : Bool)
  /-- UF_REQUEST (R377). A user-function BAR request passes to its owner's fabric interface, or completes as its state dictates. -/
  | ufRequest (f : Fin 3) (bar2 : Bool) (off : BitVec 30) (len : Fin 513) (write : Bool) (be : BitVec 512) (data : BitVec 4096)
  /-- UF_COMPLETION (R378). The fabric returns a read completion through the UC interface. -/
  | ufCompletion (f : Fin 3) (tag : BitVec 6) (ok : Bool) (data : BitVec 4096)
  /-- UF_TIMEOUT (R378). No UC_LAST arrives within PCI_UF_TO, so the read completes Completer Abort. -/
  | ufTimeout (f : Fin 3) (tag : BitVec 6)
  /-- UF_MSIX_REQ (R379). A region's fabric requests a user-function MSI-X vector. -/
  | ufMsixReq (f : Fin 3) (vec : BitVec 6)
  /-- MSIX_SEND (R380). A pending vector is sent once it is enabled and unmasked. -/
  | msixSend (fn : Fin 4) (vec : BitVec 8)
  /-- D3HOT_ENTER (R381). Function 0 enters D3hot, which acts on the host window as a bus master clear. -/
  | d3hotEnter
  /-- D0_RETURN (R381). Function 0 returns to D0 and service resumes. -/
  | d0Return
  /-- L1_ENTRY (R381). The link enters L1 under ASPM when function 0 is idle. -/
  | l1Entry
  /-- PCI_DISABLE (R384). Clearing PCI_CTRL.ENABLE refuses new BAR2 and user-function requests. -/
  | pciDisable
  /-- SBX_DOORBELL (R388). A write of SBX_DOORBELL.RING submits the mailbox request, or is rejected. -/
  | sbxDoorbell
  /-- GET_INFO (R389). GET_INFO returns the summary or the device certificate. -/
  | getInfo
  /-- GET_SENSORS (R390). GET_SENSORS returns the readings of the last housekeeping round. -/
  | getSensors
  /-- READ_LOG (R389). READ_LOG returns event records from SRAM or the flash mirror. -/
  | readLog
  /-- ATTEST (R402). ATTEST returns a signed report of firmware, fuses and planes. -/
  | attest
  /-- FW_UPDATE_BEGIN (R397). FW_UPDATE_BEGIN erases the slot that is not running and opens an update. -/
  | fwUpdateBegin
  /-- FW_UPDATE_CHUNK (R397). FW_UPDATE_CHUNK appends image data at its offset. -/
  | fwUpdateChunk (bad : Bool)
  /-- FW_UPDATE_COMMIT (R397). FW_UPDATE_COMMIT verifies the image, makes its slot preferred in trial, and may restart the Signal Box. -/
  | fwUpdateCommit
  /-- SET_OP (R422). SET_OP requests an operating-point change through the mailbox. -/
  | setOp
  /-- FUSE_PROGRAM (R403). FUSE_PROGRAM programs an armed fuse field and reloads its shadow. -/
  | fuseProgram (good : Bool)
  /-- KEY_SLOT_PROGRAM (R405). KEY_SLOT with ACTION PROGRAM programs an empty customer key slot. -/
  | keySlotProgram (good : Bool)
  /-- KEY_SLOT_REVOKE (R405). KEY_SLOT with ACTION REVOKE revokes a customer key slot. -/
  | keySlotRevoke (good : Bool)
  /-- DEBUG_UNLOCK_NONCE (R406). DEBUG_UNLOCK with ACTION NONCE returns a fresh nonce. -/
  | debugUnlockNonce
  /-- DEBUG_UNLOCK_RESPOND (R406). DEBUG_UNLOCK with ACTION RESPOND verifies a signed nonce and unlocks debug. -/
  | debugUnlockRespond
  /-- SBX_RESPONSE (R388). The firmware writes the response; BUSY clears, DONE sets and vector 3 is sent. -/
  | sbxResponse
  /-- MERGE_WINDOW_END (R539). A 1 ms merge window ends and writes one merged record if it counted occurrences. -/
  | mergeWindowEnd (code : BitVec 16) (scope : BitVec 32)
  /-- MIRROR_COPY (R394). A record is copied to the flash mirror within 100 ms, erasing a sector before reuse. -/
  | mirrorCopy
  /-- SBX_FUSE_ARM (R403). A write of 0x0000_F05E to SBX_FUSE_ARM arms one fuse or key-slot request for 1 s. -/
  | sbxFuseArm (value : Word)
  /-- FUSE_ARM_EXPIRE (R403). An unused arming lapses after 1 s. -/
  | fuseArmExpire
  /-- SBX_BOOT (R398). The Signal Box starts from ROM, verifies a slot and runs it, or stays in recovery. -/
  | sbxBoot
  /-- TRIAL_TIMEOUT (R398). A trial image that has not cleared TRIAL within 10 s makes the next start boot the other slot. -/
  | trialTimeout (cleared : Bool)
  /-- FW_HANG (R399). The internal watchdog is not serviced in 100 ms, so the Signal Box restarts from ROM. -/
  | fwHang
  /-- WDOG_KICK (R400). A write of the expected value to SBX_WDOG_KICK reloads the machine watchdog. -/
  | wdogKick (value : BitVec 16)
  /-- WDOG_WARN (R400). Half of PERIOD remains, so event 0x1C05 is raised. -/
  | wdogWarn
  /-- WDOG_EXPIRE (R400). The count reaches zero; event 0x1C06 is raised and the configured action taken. -/
  | wdogExpire
  /-- NONCE_EXPIRE (R406). A debug nonce expires 60 s after issue. -/
  | nonceExpire
  /-- SBX_DISABLE (R407). Clearing SBX_CTRL.ENABLE rejects doorbells. -/
  | sbxDisable
  /-- SBX_SRESET (R408). A write of SBX_CTRL.SRESET restarts the Signal Box firmware. -/
  | sbxSreset
  /-- OSC_JUDGE_WINDOW (R411). A judgement window ends and an oscillator's count is judged against its tolerance. -/
  | oscJudgeWindow (osc : Fin 3) (count : BitVec 24)
  /-- CLK_MON_TRIP (R416). The clock monitor trips on SYSREF; the device alerts and switches to FRO or freezes. -/
  | clkMonTrip
  /-- FREEZE_TIMEOUT (R417). At 50 µs after a trip with FRO not stable, the buffer stop is triggered and FAULT_N asserted. -/
  | freezeTimeout
  /-- SYSCLK_RETURN (R418). A write of CLK_CTRL.RETURN switches the system clock back to SYSREF once it is stable. -/
  | sysclkReturn
  /-- XO_FAIL (R419). XO fails on a follower; XO_FAIL is set and ALERT_N is asserted. -/
  | xoFail
  /-- FPLL_ENABLE (R414). Setting CLK_FPLLn.EN starts a fabric PLL, or is refused above the fabric maximum. -/
  | fpllEnable (n : Fin 24)
  /-- FPLL_DISABLE (R414). Clearing CLK_FPLLn.EN stops its outputs glitch-free. -/
  | fpllDisable (n : Fin 24)
  /-- PLL_LOCK (R413). A PLL locks and its outputs start. -/
  | pllLock (i : Fin 28)
  /-- OP_REQUEST (R422). A write of CLK_OP.TARGET starts an operating-point change or is refused. -/
  | opRequest (target : BitVec 2)
  /-- AVS_ACK (R421). The regulator acknowledges a voltage step, and the sequence continues or ends with event 0x0204. -/
  | avsAck (mv : BitVec 12)
  /-- AVS_TIMEOUT (R422). No acknowledgement arrives within CLK_AVS.TIMEOUT; event 0x0206 is raised. -/
  | avsTimeout (mv : BitVec 12)
  /-- GATE_ACK (R423). A block acknowledges its gate request and its clock closes. -/
  | gateAck (eng : Bool) (i : Fin 96)
  /-- GATE_TIMEOUT (R423). No acknowledgement arrives within 1,024 cycles, so the gate request is withdrawn with event 0x0205. -/
  | gateTimeout (eng : Bool) (i : Fin 96)
  /-- NMI_CLEAR (R416). A W1C write of GLB_NMI_STATUS clears CLKMON or XOFAIL unless its cause persists, releasing ALERT_N. -/
  | nmiClear (clkmon xofail again : Bool)
  /-- CLK_DISABLE (R425). Clearing CLK_CTRL.ENABLE refuses new operating-point requests. -/
  | clkDisable
  /-- POR (R427). VAUX rises through its threshold, resetting everything. -/
  | por
  /-- PIN (R428). RESET_N held low for 10 µs asserts PIN. -/
  | pin
  /-- SWFULL (R431). A keyed write of GLB_RESET.FULL asserts SWFULL. -/
  | swfull (value : Word)
  /-- PERST (R26). PERST_N low resets the endpoint, window map, rings and sealing key. -/
  | perst
  /-- HOTRST (R383). A hot reset or unrequested link down resets the parts of R26. -/
  | hotrst
  /-- DIE_RESET (R435). Setting a RST_DIE.HOLD bit starts the DIE reset sequence of a die. -/
  | dieReset (p : Fin 9)
  /-- RST_BLOCK_WRITE (R435). Setting an RST_BLOCK bit starts the BLOCK reset sequence of a block. -/
  | rstBlockWrite (mask : BitVec 33)
  /-- IDLE_ACK (R435). A block acknowledges IDLE_REQ and its reset is forced. -/
  | idleAck (u : RstUnit)
  /-- IDLE_TIMEOUT (R435). No IDLE_ACK arrives within the timeout; the reset is forced and counted with event 0x0102. -/
  | idleTimeout (u : RstUnit) (blk : BitVec 8)
  /-- RESET_PULSE_END (R428). A timed reset source (WDOG, SWFULL, RING, BLOCK) ends its assertion. -/
  | resetPulseEnd (x : PulseSource)
  /-- RESET_RELEASE (R433). The last source covering a part is released, and release begins in order. -/
  | resetRelease (x : RstSource)
  /-- RELEASE_STEP (R433). A release step ends, and the next step's parts come out of reset. -/
  | releaseStep (f2f : BitVec 3) (baseif : Bool) (tracks : BitVec 2) (power : Bool) (badReg : BitVec 72)
  /-- FUSE_LOAD_ATTEMPT_END (R438). A fuse load attempt passes and fills the shadows, or fails and retries, entering fuse fault after three failures. -/
  | fuseLoadAttemptEnd (ok : Bool)
  /-- POWER_ENTRY (R443). A write of PWR_CTRL.GO requests a power state, or is refused, or acts as the SOFTWARE wake. -/
  | powerEntry (target : BitVec 3)
  /-- POWER_ENTRY_STEP (R444). An entry step completes, and the next step of the entry runs. -/
  | powerEntryStep (ok eng : Bool)
  /-- WAKE_N (R446). WAKE_N held low for 10 µs wakes the device. -/
  | wakeN
  /-- PCIE_WAKE (R446). PERST_N rising, or the link leaving L1, wakes the device. -/
  | pcieWake (perst : Bool)
  /-- WAKE_TIMER (R446). PWR_WAKE_TIMER LPO periods pass after entry, waking the device. -/
  | wakeTimer
  /-- WAKE_STEP (R447). A wake step's check passes and the next step runs, until RUN is reached. -/
  | wakeStep
  /-- WAKE_STEP_TIMEOUT (R448). A wake step misses its timeout; the wake is undone, and after three failures the device goes to OFF. -/
  | wakeStepTimeout
  /-- RAIL_LOST (R451). A PGOOD falls for 10 µs, so the device asserts FAULT_N and goes to OFF. -/
  | railLost (rail : Fin 4)
  /-- WAKE_REARM (R449). WAKE_N high for 1 ms after entry to OFF re-arms it. -/
  | wakeRearm
  /-- PWR_DISABLE (R452). Clearing PWR_CTRL.ENABLE refuses new power requests. -/
  | pwrDisable
  /-- TRIP_THERM_ASSERT (R458). When the buffer stop reaches STOPPED or 100 µs pass, THERM is asserted and the device goes to OFF. -/
  | tripThermAssert
  /-- SLEEP_TRIP_CHECK (R458). Every 32 LPO periods in SLEEP or DEEP SLEEP, the device judges TRIP and asserts THERM at once. -/
  | sleepTripCheck (temps : List (Option (BitVec 16)))
  /-- THM_DISABLE (R460). Clearing THM_CTRL.ENABLE ends throttling in the next round. -/
  | thmDisable
  /-- BST_GO (R464). A write of BST_Uu_CMD.GO starts a test of a range of banks, or is refused. -/
  | bstGo (u : Fin 9) (alg mode : Bool) (bg : BitVec 2) (first last : BitVec 8)
  /-- COPY_DONE (R466). The bank is copied to the stand-in, which takes its place, and the march starts. -/
  | copyDone (u : Fin 9)
  /-- MARCH_PASS_END (R465). A march pass ends; failures are recorded and repaired. -/
  | marchPassEnd (u : Fin 9) (fails : List (BitVec 8 × BitVec 14 × BitVec 15))
  /-- REMARCH_END (R465). The re-march after repairs ends. -/
  | remarchEnd (u : Fin 9) (fails : List (BitVec 8 × BitVec 14 × BitVec 15))
  /-- RESTORE_DONE (R466). The stand-in is copied back and the bank resumes, and the unit moves on or finishes. -/
  | restoreDone (u : Fin 9)
  /-- BST_RESULT_READ (R468). A read of the upper word of BST_RESULT removes the oldest record. -/
  | bstResultRead
  /-- BST_DISABLE (R475). Clearing BST_CTRL.ENABLE refuses new tests and lets the running units finish. -/
  | bstDisable
  /-- TEST_LOGIC_RESET (R477). TRST_N low or the Test-Logic-Reset state resets the TAP and loads IDCODE. -/
  | testLogicReset
  /-- EXTEST (R479). EXTEST drives the pins from the boundary scan register while the buffer stop is STOPPED. -/
  | extest (data : BitVec 898)
  /-- IDCODE (R478). IDCODE selects the identification register. -/
  | idcode
  /-- SAMPLE_PRELOAD (R478). SAMPLE/PRELOAD samples and preloads the boundary scan register. -/
  | samplePreload (data : BitVec 898)
  /-- JTAG_CLAMP (R479). The TAP's CLAMP instruction holds the pins from the boundary scan register while the buffer stop is STOPPED. -/
  | jtagClamp (data : BitVec 898)
  /-- HIGHZ (R479). HIGHZ puts the covered outputs at high impedance while the buffer stop is STOPPED. -/
  | highz (data : BitVec 898)
  /-- BYPASS (R478). BYPASS selects the one-bit bypass register. -/
  | bypass (code : BitVec 8)
  /-- DBG_SELECT (R482). DBG_SELECT sets the access space, engine and thread. -/
  | dbgSelect (value : BitVec 16)
  /-- DBG_ACCESS (R483). An Update-DR with GO starts one 8-byte device or thread access. -/
  | dbgAccess (data : BitVec 64) (addr : BitVec 48) (be : BitVec 8) (write go : Bool)
  /-- DBG_ACCESS_DONE (R483). A debug access completes with its data and status. -/
  | dbgAccessDone (x : AccIn)
  /-- DBG_ACCESS_TIMEOUT (R483). A debug access with no response within 1 ms completes TIMEOUT. -/
  | dbgAccessTimeout
  /-- DBG_UNLOCK_NONCE (R481). DBG_UNLOCK with ACTION NONCE issues a fresh nonce on the TAP. -/
  | dbgUnlockNonce
  /-- DBG_UNLOCK_RESPOND (R481). DBG_UNLOCK with ACTION RESPOND starts verification of a signed nonce. -/
  | dbgUnlockRespond (keysel : Bool) (signature : BitVec 512) (pubkey : BitVec 256)
  /-- UNLOCK_VERIFY_DONE (R481). Verification of a RESPOND ends, unlocking debug or failing with event 0x1E05. -/
  | unlockVerifyDone
  /-- THREAD_HALT (R485). A HALT write halts a thread at its next instruction boundary. -/
  | threadHalt (n : Fin 96) (t : Fin 4)
  /-- THREAD_STEP (R485). A STEP write issues one instruction of a halted thread. -/
  | threadStep (n : Fin 96) (t : Fin 4)
  /-- THREAD_RESUME (R485). A RESUME write lets a halted thread continue. -/
  | threadResume (n : Fin 96) (t : Fin 4)
  /-- REGION_FREEZE (R488). A write of DBG_REGr_CTRL.FREEZE = 1 starts freezing a RELEASED region. -/
  | regionFreeze (r : Fin 72)
  /-- FREEZE_EDGE (R488). The region's clocks close after the freeze edge, with event 0x1E02. -/
  | freezeEdge (r : Fin 72)
  /-- REGION_UNFREEZE (R488). A write of FREEZE = 0 requests REGION_START on rail 8 to resume the clocks. -/
  | regionUnfreeze (r : Fin 72)
  /-- REGION_PULSE (R489). A write of PULSE = N to a frozen region requests N edges of its clocks. -/
  | regionPulse (r : Fin 72) (edges : BitVec 16)
  /-- PULSE_END (R489). After the N-th edge the frozen region's clocks close again. -/
  | pulseEnd (r : Fin 72)
  /-- REGION_CAPTURE (R490). A write of CAPTURE copies a tile's flip-flops into DBG_CAP_DATA. -/
  | regionCapture (r : Fin 72)
  /-- DBG_FRAME_GO (R492). A write of DBG_FRAME_CTRL.GO checks a debug frame and writes it into a READY plane. -/
  | dbgFrameGo
  /-- DBG_DISABLE (R493). Clearing DBG_CTRL.ENABLE resumes halted threads and unfreezes regions. -/
  | dbgDisable
  /-- BANK_CLOCK_LOCK (R504). A bank clock locks to region clock 3, so serial pins leave their pre-configuration state. -/
  | bankClockLock (b : Fin 8) (khz : BitVec 20)
  /-- BITSLIP (R503). A BITSLIP pulse moves the deserialiser word boundary by one bit. -/
  | bitslip (b : Fin 8) (n : Fin 30)
  /-- END_MODULE (R147). A module's downstream face that receives no training frame within 10 ms of its upstream face reaching LINKUP makes the module the end module. -/
  | endModule (p : Fin 4) (pos : Fin 256)
  /-- IDLE (R99). A received IDLE flit is forwarded, may be replaced on the return path by the module's own flit, and counts as a valid flit for the silence rule. -/
  | idle (p : Fin 4) (pos : Fin 256) (f : Flit)
  /-- FLIT_CRC_ERROR (R109). A received flit that fails its CRC, or carries a reserved TYPE, is discarded; a module forwards IDLE and sends a NAK, a trunk receiver NAKs, and the device counts WNG_Pp_CNT_CRC. -/
  | flitCrcError (p : Fin 4) (pos : Fin 256) (forward : Bool) (f : Flit)
  /-- CHK_LOCK (R144). The lane's pattern checker gains lock after 64 error-free symbols, or loses it after 64 errors within 1,024 symbols, holding or resuming its counters. -/
  | chkLock (n : Fin 8) (gained : Bool) (errs : BitVec 32) (syms : BitVec 48)
  /-- FALLBACK_APPLY (R113). At the stamp of a revoked staged consist, or of a held FALLBACK consist, the module applies the consist's FB to the channels it names. -/
  | fallbackApply (p : Fin 4) (pos : Fin 256)
  /-- MODULE_PULSE_END (R106). The width of a running PULSE elapses at the module and the channel switches off, unless a later record has superseded the pulse. -/
  | modulePulseEnd (p : Fin 4) (pos : Fin 256) (chan : BitVec 10)
  /-- ILLEGAL_INSTRUCTION (R175). A thread that reaches a word with an unlisted major opcode or FN, a non-zero required-zero field or condition code 1111 faults with ILLEGAL. -/
  | illegalInstruction (n : Fin 96) (t : Fin 4)
  /-- FETCH_FAULT (R154). A thread whose PC lies outside the scratchpad, is misaligned, or fetches a poisoned word faults with FETCH or SP_POISON at the fetch. -/
  | fetchFault (n : Fin 96) (t : Fin 4) (ecc : Fin 3)
  /-- ENDPOINT_READY (R351). Function 0 becomes ready after PERST_N deassertion, stops answering with Configuration Request Retry Status, and user functions with RELEASED owners reappear. -/
  | endpointReady
  deriving DecidableEq, Repr

end Sys2Proof
end

