-- ==== Sys2Proof/Decode.lean ====
section
/-! DEFINITION. Commands spelled by table words. No row of spec/opcode_table.json gives bits (its "fields" are all
empty), so no word spells a command. -/
namespace Sys2Proof

/-- The command that a word of `nbits` bits spells by the table's bits: none, since no row of the table gives any. -/
def decodeTableWord (_nbits _w : Nat) : Option Instr := none

end Sys2Proof
end

