-- ==== Sys2Proof/Config.lean ====
section
/-! DEFINITION. What an implementation fixes and what the spec leaves open: free values, as opaque constants that no
proof can evaluate. -/
namespace Sys2Proof.Config

/-- The n-th free value drawn: a value that the spec leaves open and the machine goes on with (log entry 2). -/
opaque freeNat : Nat → Nat

/-- The LPO periods since POR that an event record carries while ring time is not valid, by its sequence number
(R392, log entry 3). -/
opaque lpoTime : Nat → Nat

/-- The cost of a channel that no RATION run of a module's identity memory covers (R118 states none; log entry 5). -/
opaque uncoveredCost : Nat → Nat

/-- The byte at an address of a memory bank whose contents the spec leaves open, by the draw that left them open (log
entry 2). -/
opaque freeByte : Nat → Nat → Byte

/-- What register `i` of an engine holds after a reset that leaves it undefined, by the draw (R170; log entry 2). -/
opaque freeReg : Nat → Nat → Nat

/-- How many consists a module holds beyond the 64 it must hold (R106), by port × 256 + place (log entry 6). -/
opaque moduleStore : Nat → Nat

/-- How many IDLE flits a port sends before the flit that stands at an index of `wire` (R99 gives only the least number; log
entry 137). -/
opaque idleRun : Nat → Nat

/-- Where a generated sequence of a lane starts, by lane, sequence and draw (R134 and R143 give no start; log entry 137). -/
opaque prbsStart : Nat → Nat → Nat → Nat

/-- How many records WNG_RI_CQ holds beyond one; R123 gives no depth (log entry 7). -/
opaque riCqExtra : Nat

/-- The private key of the device, 32 bytes that no command returns (R401; log entry 4). -/
opaque deviceKey : List Byte

/-- The Synaskent firmware key and debug key held in ROM (R396, R406), and the device certificate of 128 bytes, first byte
lowest (R401; log entry 12). -/
opaque firmwareKey : List Byte
opaque debugKey : List Byte
opaque certificate : Nat

/-- The ROM version and the JEDEC ID of the fitted flash that GET_INFO returns (R390; log entry 12). -/
opaque romVersion : Nat
opaque jedecId : Nat

/-- Whether the identity fuses fail their CRC (R389; log entry 12). -/
opaque identityBad : Bool

/-- The speed grade that the fuses hold is 2, else 1 (R420; log entry 12). -/
opaque grade2 : Bool

/-- The fuse shadows as the byte string that ATTEST measures, with the device private key and the customer AES key read as
zero: their layout is not specified. From the shadows by field, FW_SVN and the repair entries (R402; log entry 12). -/
opaque fuseBytes : List (Nat × Nat) → Nat → List Nat → List Byte

/-- The place in the boundary scan register of a pin's input (0), output (1) or output-enable (2) cell, by bank × 96 + pin ×
3 + cell: the BSDL file gives the order (R479; log entry 12). -/
opaque bsdlCell : Nat → Nat

/-- The straps LPULL0 (bit 0) and LPULL1 (bit 1) as the board ties them (R508; log entry 12). -/
opaque legacyStraps : Nat

end Sys2Proof.Config
end

