-- ==== Sys2Proof/Machine/State.lean ====
section
/-! DEFINITION. The state of the block as plain data. Registers live in one sparse map keyed by the bit address of their
field (`regs`); everything else the spec gives the machine stands in one structure per subsystem. -/
namespace Sys2Proof.Machine

/-- A sparse map: a list of key and value pairs, keys strictly rising. -/
abbrev SMap (α : Type) := List (Nat × α)

/-- A field of a control register: the bit address of its lowest bit (8 × BAR0 offset + bit), its width, and its
value under a reset with the reach of PIN (R9). -/
structure Fld where
  key   : Nat
  width : Nat
  reset : Nat
  deriving DecidableEq, Repr

/-- The access types of R8. -/
inductive Acc where
  | rw | ro | wo | w1c | w1s | rc | rwl
  deriving DecidableEq, Repr

/-- What becomes of a written value outside the range a field's description gives (R11). -/
inductive Rng where
  | any
  | within (lo hi : Nat)   -- outside it the field is left unchanged
  | clamp (lo hi : Nat)    -- outside it the value is clamped
  deriving DecidableEq, Repr

/-- One field of the register map with the strides (in bytes) and counts of its indices. -/
structure RegRow where
  f   : Fld
  s1  : Nat
  n1  : Nat
  s2  : Nat
  n2  : Nat
  acc : Acc
  rng : Rng
  own : Bool
  deriving DecidableEq, Repr

/-! ### Event log (chapter 19) -/

/-- One 32-byte event record of R392. `data` is bytes [31:16] read little-endian. -/
structure LogRec where
  seq   : Nat
  code  : Nat
  flags : Nat
  count : Nat
  time  : Nat
  data  : Nat
  deriving DecidableEq, Repr

/-- An open merge window of R539: its code and scope, the occurrences counted, and what the first of them carried. -/
structure MergeWin where
  code  : Nat
  scope : Nat
  count : Nat
  time  : Nat
  items : List (Nat × Nat)
  deriving DecidableEq, Repr

/-- An event raised by the command in progress: its code, the scope of its merge window where its description merges
it (R539), the NMI flag, and its DATA items as (bytes, value) pairs (R538). -/
structure Ev where
  code  : Nat
  scope : Option Nat
  nmi   : Bool
  items : List (Nat × Nat)
  deriving DecidableEq, Repr

/-! ### Angle and ring time (chapter 02) -/

/-- What an axis keeps beside its registers: the fraction of the predicted stamp below one au, the velocity seed flag,
the last sample, the revolution count of an encoder source, and the beacons seen in a row (R32, R34, R36). -/
structure Axis where
  frac     : Nat := 0
  seed     : Bool := false
  hasLast  : Bool := false
  lastTh   : Nat := 0
  lastT    : Nat := 0
  rev      : Nat := 0
  lastAng  : Nat := 0
  beacons  : Nat := 0
  deriving DecidableEq, Repr

/-- An encoder interface: the quadrature count and the invalid SSI frames in a row (R30, R31). -/
structure Enc where
  count : Int := 0
  bad   : Nat := 0
  deriving DecidableEq, Repr

/-- Ring-time acquisition: flits within 5 ns in a row, flits beyond 50 ns in a row, whether ACQ_PHASE has stepped
(R41), the last frequency correction (R42), and the hop count a follower heard. -/
structure RingTime where
  good    : Nat := 0
  bad     : Nat := 0
  stepped : Bool := false
  corr    : Int := 0
  deriving DecidableEq, Repr

/-! ### Timetable (chapter 03) -/

/-- Where an insertion comes from (R60). -/
inductive Src where
  | fabric (port : Nat)
  | engine (n : Nat)
  | host
  | trunk (port node : Nat)
  | requeue
  /-- a source that a reset took away; the record is discarded (R70) -/
  | orphan (cls : Nat)
  deriving DecidableEq, Repr

/-- An insertion handed over and not yet accepted (R61). -/
structure Ins where
  src   : Src
  tag   : Nat
  entry : Nat
  deriving DecidableEq, Repr

/-- A decided insertion whose completion record is not yet written (R63, R65). -/
structure Done where
  src  : Src
  word : Nat
  deriving DecidableEq, Repr

/-- A stored entry with the slot that holds it (R51) and its acceptance number (R67). `lost` is 1 for an entry lost with
its own line and 2 for one lost with a link-index line (R71). -/
structure Slot where
  entry : Nat
  slot  : Nat
  ord   : Nat
  lost  : Nat
  deriving DecidableEq, Repr

/-- A running flush (R68): mode, axis, revolution tag, and the axis and bucket it visits next. -/
structure Flush where
  mode   : Nat
  axis   : Nat
  rev    : Nat
  curAx  : Nat
  curB   : Nat
  count  : Nat
  deriving DecidableEq, Repr

/-- The Timetable beside its registers. Buckets are keyed by axis × 2^36 + revolution × 2^12 + bucket. -/
structure Timetable where
  inflight : List Ins := []
  done     : List Done := []
  buckets  : SMap (List Slot) := []
  retired  : List Nat := []
  ord      : Nat := 1
  rrClass  : Nat := 0
  rrFab    : Nat := 0
  rrEng    : Nat := 0
  hostCq   : List Nat := []
  fabCq    : SMap (List Nat) := []
  engCq    : SMap (List Nat) := []
  flush    : Option Flush := none
  deriving DecidableEq, Repr

/-! ### Dispatcher (chapter 04) -/

/-- A taken entry not yet classified: its full revolution, its place in sorted order, and whether it came from the
late queue (R58, R75). -/
structure Taken where
  entry : Nat
  rev   : Nat
  ord   : Nat
  late  : Bool
  deriving DecidableEq, Repr

/-- A classified entry with its stamp: an internal entry that waits for its slot, or a candidate of the ration
(R77, R85). `t0` is the stamp it first had, `t` the stamp it is now offered at. -/
structure Cand where
  entry : Nat
  rev   : Nat
  ord   : Nat
  late  : Bool
  t0    : Nat
  t     : Nat
  deriving DecidableEq, Repr

/-- A change of a channel's COST in the ledger at a ring time; `start` is the start of the pulse whose end it is
(R83). `key` is port × 2^18 + module × 2^10 + channel. -/
structure Change where
  rail  : Nat
  key   : Nat
  ord   : Nat
  at_   : Nat
  cost  : Nat
  isEnd : Bool
  start : Nat
  deriving DecidableEq, Repr

/-- A step admitted on a rail (R83, R86). -/
structure StepRec where
  rail : Nat
  ord  : Nat
  at_  : Nat
  inc  : Nat
  deriving DecidableEq, Repr

/-- A consist: what its flits carry (R104), the acceptance numbers of the entries it was packed from, and how many of
them count LATE when it is sent (R76). -/
structure Cons where
  port  : Nat
  addr  : Nat
  axis  : Nat
  rev   : Nat
  stamp : Nat
  kind  : Nat
  fb    : Nat
  group : Nat
  epoch : Nat
  upds  : List Nat
  ents  : List Nat
  nlate : Nat
  deriving DecidableEq, Repr

/-- The kinds of journal item (R92). -/
inductive ItemKind where
  | consist | retime | commit | revoke
  deriving DecidableEq, Repr

/-- A sent item that awaits its acknowledgement (R92, R107). -/
structure Item where
  seq      : Nat
  kind     : ItemKind
  addr     : Nat
  deadline : Nat
  cons     : Cons
  payload  : Nat
  deriving DecidableEq, Repr

/-- A sent consist whose stamp has not passed, with the stamp the unclamped, unbounded map gives (R81). -/
structure Outst where
  seq   : Nat
  addr  : Nat
  axis  : Nat
  stamp : Nat
  ideal : Nat
  deriving DecidableEq, Repr

/-- The states of a group instance (R87); `ended` is DONE. -/
inductive GrpSt where
  | opened | closed | staged | committed | failed | ended
  deriving DecidableEq, Repr

/-- A member of a group instance with its execute stamp. -/
structure Memb where
  entry : Nat
  ord   : Nat
  t     : Nat
  deriving DecidableEq, Repr

/-- One staged consist of a group instance: its module, its sequence number once sent (4,096 before), its stamp, the
acceptance numbers of its members, and whether staging and
commit are acknowledged; `lost` is COMMIT_LOST (R87, R90). -/
structure GMod where
  port   : Nat
  addr   : Nat
  seq    : Nat
  stamp  : Nat
  ords   : List Nat
  acked  : Bool
  cacked : Bool
  lost   : Bool
  deriving DecidableEq, Repr

/-- A group instance (R87): the pick (axis and revolution), the group index, its first bucket, its members and, once
staged, its modules. -/
structure Grp where
  axis   : Nat
  rev    : Nat
  group  : Nat
  st     : GrpSt
  first  : Nat
  membs  : List Memb
  mods   : List GMod
  reason : Nat
  deriving DecidableEq, Repr

/-- A request on rail 8 (R86). -/
inductive R8Req where
  | regionStart (r : Nat)
  | regionPulse (r n : Nat)
  | engineWake (n : Nat)
  | planeLoad (r k : Nat)
  deriving DecidableEq, Repr

/-- The Dispatcher beside its registers. -/
structure Dispatch where
  store    : List Taken := []
  lateQ    : List Taken := []
  internal : List Cand := []
  cands    : List Cand := []
  unsent   : List Cons := []
  changes  : List Change := []
  steps    : List StepRec := []
  chRail   : SMap Nat := []
  groups   : List Grp := []
  lastUpd  : SMap Nat := []
  failTimes : List Nat := []
  grpSeq   : Nat := 0
  epochs   : SMap Nat := []
  r8queue  : List R8Req := []
  bstopAck : List Nat := []
  deriving DecidableEq, Repr

/-! ### Wengan ports and modules (chapter 05) -/

/-- What the device knows of an enumerated module: the identity bytes read, the offsets asked for and not yet
answered, and the repeats of the request (R117). -/
structure ModInfo where
  bytes  : SMap Byte := []
  asked  : List Nat := []
  got    : List Nat := []
  tries  : SMap Nat := []
  ended  : Bool := false
  deriving DecidableEq, Repr

/-- A Wengan port beside its registers. `waiting` holds the items that a full journal holds back (R93). -/
structure Port where
  seq       : Nat := 0
  journal   : List Item := []
  outst     : List Outst := []
  waiting   : List Item := []
  replays   : Nat := 0
  enumTries : Nat := 0
  count     : Nat := 0
  infos     : SMap ModInfo := []
  idling    : Bool := false
  hop       : Nat := 0
  txSeq     : Nat := 0
  txBuf     : List Nat := []
  rxSeq     : Nat := 0
  rxHold    : Bool := false
  rxSync    : Bool := false
  deriving DecidableEq, Repr

/-- A remote insert that awaits its record (R123). -/
structure Remote where
  dst   : Nat
  tag   : Nat
  entry : Nat
  deriving DecidableEq, Repr

/-- The node-level part of the Wengan block: remote inserts and mailbox queues (R123, R124). -/
structure Node where
  remotes : List Remote := []
  riCq    : List Nat := []
  mbRx    : List Nat := []
  deriving DecidableEq, Repr

/-- A consist held by a module (R104, R113). -/
structure Held where
  seq   : Nat
  stamp : Nat
  kind  : Nat
  fb    : Nat
  group : Nat
  rev   : Nat
  axis  : Nat
  epoch : Nat
  upds  : List Nat
  deriving DecidableEq, Repr

/-- A fallback that a module applies at a stamp: FB, group index and the channels named (R113). -/
structure PendFb where
  stamp : Nat
  fb    : Nat
  group : Nat
  chans : List Nat
  deriving DecidableEq, Repr

/-- A channel's output: the OP and PAYLOAD in force, 0 for off; `until_` is the end of a running pulse (R106). -/
structure Chan where
  op      : Nat := 0
  payload : Nat := 0
  until_  : Nat := 0
  deriving DecidableEq, Repr

/-- A module on a ring, at its place in the chain. Its identity memory is its own (R118). -/
structure Module where
  ident   : SMap Byte := []
  pos     : Nat := 0
  isEnd   : Bool := false
  stopped : Bool := false
  held    : List Held := []
  pendFb  : List PendFb := []
  chans   : SMap Chan := []
  commits : SMap Nat := []
  lastSeq : Nat := 0
  rtOff   : Int := 0
  hop     : Nat := 0
  hopUp   : Nat := 0
  deriving DecidableEq, Repr

/-- A lane beside its registers (chapter 06): consecutive valid frames in DETECT, clean frames in TRAIN, READY frames in
READY_WAIT, the status reply of the own transmitter, what the far side asks (precoding, loopback), whether the settings
mismatch of this attempt is reported and whether the last control word differed, the last good taps, the descrambler state
and lane index of the last good marker, markers missed in a row, codewords since link-up and the numbers of the uncorrectable
ones. `req` holds the own receiver's requests as the control word carries them, bits [6:0]; `fresh` tells that no marker has
come since link-up, `txPre` that the transmitter is to precode from its first marker on, `since` how long `wire` was at
link-up, `seed` the scrambler state of the first marker, `draw` the number whose free values the line starts from. `inj` holds
the injections since link-up: the symbol that the first alters and how many, and `injCrc` a pending one of a flit. -/
structure Lane where
  frames : Nat := 0
  clean  : Nat := 0
  ready  : Nat := 0
  sts    : Nat := 0
  farPre : Bool := false
  farLb  : Bool := false
  mism   : Bool := false
  differs : Bool := false
  req    : Nat := 0
  fresh  : Bool := false
  txPre  : Bool := false
  since  : Nat := 0
  seed   : Nat := 1
  draw   : Nat := 0
  good   : Nat := 0xF0
  scr    : Nat := 0
  lidx   : Nat := 0
  missed : Nat := 0
  cwN    : Nat := 0
  bad    : List Nat := []
  inj    : List (Nat × Nat) := []
  injCrc : Bool := false
  deriving DecidableEq, Repr

/-- A flit sent on a lane: the port, the sender's place (0 the device), and the flit. -/
structure Sent where
  port : Nat
  pos  : Nat
  flit : Flit
  deriving DecidableEq, Repr

/-! ### Drive Engines (chapters 07 and 08) -/

/-- What a thread in RUN waits for (R152): a window load, an SRD into a pair, an SWR of a pair with LAST, a held TTI,
or the stores before a FENCE. -/
inductive Blk where
  | free
  | load
  | srd (port rd : Nat)
  | swr (port : Nat) (word : Nat)
  | tti
  | fence
  deriving DecidableEq, Repr

/-- A Proster-32 thread beside the engine's registers (R172, R188). `und` is the draw, plus one, whose free values its
unlisted registers and accumulators hold after a reset that leaves them undefined; 0 for none. `go` tells that the
breakpoint at the PC is passed over, `tgtUse` and `tmrUse` are the targets that R155 compares, which follow the committed ones
with each dispatch slot; `step` that the thread halts after one instruction, `watch` that a watchpoint matched the instruction in hand (R485,
R486). -/
structure Thread where
  g       : SMap Word := []
  acc     : SMap (BitVec 72) := []
  und     : Nat := 0
  z       : Bool := false
  n       : Bool := false
  c       : Bool := false
  v       : Bool := false
  pc      : Nat := 0
  blk     : Blk := .free
  go      : Bool := false
  step    : Bool := false
  watch   : Bool := false
  ldLast  : Nat := 0
  ldErr   : Bool := false
  sst     : Nat := 0
  sstLast : Bool := false
  qsat    : Bool := false
  axis    : Nat := 0
  tgt     : Nat := 0
  tgtLo   : Nat := 0
  tmr     : Nat := 0
  tmrLo   : Nat := 0
  tgtUse  : Nat := 0
  tmrUse  : Nat := 0
  deriving DecidableEq, Repr

/-- A window request (R164, R165): its thread, whether it stores, the window and offset, the device address, the status
the engine's own conditions already give it (0 for none), the width in bytes, whether a load extends the sign, the
destination, and the data of a store. -/
structure WinReq where
  thread : Nat
  store  : Bool
  win    : Nat
  off    : Nat
  addr   : Nat
  pre    : Nat
  width  : Nat
  sgn    : Bool
  rd     : Nat
  data   : Nat
  deriving DecidableEq, Repr

/-- A TTI that the insert path holds (R61, R166). -/
structure HeldTti where
  thread : Nat
  tag    : Nat
  entry  : Nat
  deriving DecidableEq, Repr

/-- An engine beside its registers: threads, the RT_HI latch, the wake queue, the scratchpad's 64-bit words with the
draw, plus one, that its unlisted words hold (0 for zeros) and its poison marks, the stream FIFOs (a word carries LAST
in bit 64), window requests and held TTIs, oldest first, a gate request that awaits its acknowledgement, and a wake
owed by the return from IDLE: 1 to be requested, 2 to be charged. -/
structure Engine where
  threads  : SMap Thread := []
  rtHi     : Nat := 0
  wakeq    : List Nat := []
  sp       : SMap Nat := []
  spDraw   : Nat := 0
  spPoison : SMap Nat := []
  fifos    : SMap (List Nat) := []
  win      : List WinReq := []
  ttis     : List HeldTti := []
  gateReq  : Bool := false
  owed     : Nat := 0
  deriving DecidableEq, Repr

/-! ### Power (chapter 22) -/

/-- The power controller beside its registers: the step the entry or wake in progress has reached (0 for none), the
target of an entry, the state a wake started from, whether the clocks of engines and regions are closed by an entry, a
wake source that came during an entry, whether WAKE_N is re-armed, and the rails switched on by the steps taken. -/
structure Power where
  step    : Nat := 0
  target  : Nat := 0
  left    : Nat := 0
  closed  : Bool := false
  late    : Bool := false
  armed   : Bool := false
  deriving DecidableEq, Repr

/-! ### Clocks (chapter 20) -/

/-- A running operating-point change (R421): the target, whether it goes up, whether the voltage step is the one awaited
(else SYSPLL1), and whether SET_OP asked for it. -/
structure OpChange where
  target : Nat
  up     : Bool
  avs    : Bool
  sbx    : Bool
  deriving DecidableEq, Repr

/-- The clock controller beside its registers: the dies whose engine clocks the sequencer has gated (R421), the good
judgement windows in a row of XO, RCLK and FRO, 4 when stable (R411), whether SYSREF has been judged stable since the last
trip (R418), whether a freeze has outlived its 50 µs (R417), the system PLLs that are locked,
whether a trip has not been followed by a return, and the running change. -/
structure Clock where
  engGate : List Nat := []
  xo      : Nat := 0
  rclk    : Nat := 0
  fro     : Nat := 0
  since   : Bool := false
  frozen50 : Bool := false
  plls    : List Nat := []
  trip    : Bool := false
  op      : Option OpChange := none
  deriving DecidableEq, Repr

/-! ### Reset (chapter 21) -/

/-- The reset controller beside its registers: the asserted sources with the reach of PIN (their codes in
GLB_RST_CAUSE), the step of R433 that the release has reached, 0 once every part is released, the self-test units whose
start-up test after POR has not started, the dies, blocks and engines whose reset waits for IDLE_ACK, the blocks and engines in forced reset, and the causes
that hold FAULT_N: 0 a freeze, 1 a fuse fault, 2 a failed wake, 3 a lost rail. -/
structure Rst where
  srcs    : List Nat := []
  step    : Nat := 0
  untested : List Nat := []
  dieWait : List Nat := []
  blkWait : List Nat := []
  engWait : List Nat := []
  blkOn   : List Nat := []
  engOn   : List Nat := []
  fault   : List Nat := []
  deriving DecidableEq, Repr

/-! ### Configuration (chapters 16 and 17) -/

/-- The session of the configuration controller beside its registers. `src` is 0 for the load window and k + 1 for ring k;
`buf` holds the bytes that have arrived and are not taken, `segs` the descriptors they came from with their counts;
`taken` the stream bytes taken, `start` the offset of the command in hand; `phase` is 0 SYNC, 1 HEADER, 2 body, 3 INITVEC,
4 the GCM tag, 5 SIGNATURE; `sel` the selected region and context, `charged` whether this selection has requested
PLANE_LOAD, `bits` the frame bits of the last FRAME, `counted` the frames so far; `loads` the planes taken into LOADING
(4 × region + context), `regs` the regions with an accepted frame, `bms` the block memories written (region × 50 + index),
`taint` the tainted regions, `rels` those to be released; `fail` the outcome and END_CAUSE of a failure sequence that
runs; `off` tells that CFG_CTRL.ENABLE is being cleared. `hdr` holds SHA-512 of the header of the session that made each
plane READY (R402), `expired` that the deadline has passed, `hidden` the user functions held hidden (R352). -/
structure Session where
  src     : Nat := 0
  buf     : List Byte := []
  segs    : List (Nat × Nat) := []
  taken   : List Byte := []
  start   : Nat := 0
  phase   : Nat := 0
  sel     : Option (Nat × Nat) := none
  charged : Bool := false
  bits    : Nat := 0
  counted : Nat := 0
  loads   : List Nat := []
  regs    : List Nat := []
  bms     : List Nat := []
  taint   : List Nat := []
  rels    : List Nat := []
  fail    : Option (Nat × Nat) := none
  off     : Bool := false
  hdr     : SMap Nat := []
  expired : Bool := false
  hidden  : List Nat := []
  deriving DecidableEq, Repr

/-! ### Fabric regions (chapters 09 to 12) -/

/-- A multiplier block (R208): the P register of MAC mode, the results in its pipeline registers, newest first, each with
whether it saturated, and how many edges of its clock its output stays undefined after a switch (R245). -/
structure Mul where
  acc  : Nat := 0
  pipe : List (Nat × Bool) := []
  und  : Nat := 0
  deriving DecidableEq, Repr

/-- A region beside its registers. `run` tells whether its clocks run (released, or loading beside a loaded context);
`stb` holds the strobe inputs whose pulse is latched and not yet presented, `gateReq` a sleep request that awaits its
acknowledgement (R423), `owed` a wake that waits for the return from IDLE: 1 to be requested, 2 to be charged. `shared`
holds the SHARED flip-flops by tile, `priv` the PRIVATE copies by context × 800 + tile: bit 2c + f for flip-flop f of cell c
(R197, R243). `muls` holds the multiplier blocks, `stbOut` the strobe inputs that STB shows high, and `refusedOut` that
PTS_REFUSED is high, each until the next edge of its region clock (R211, R239). `pend` holds the pending points
request of each source as context + 1 (R237), `switches` the targets of sampled switches, `clearing` the planes being
cleared, `starting` that rail 8 has admitted the region's start, `released` that it has reached a release edge since it
last left EMPTY (R263), `hold` the values its cuffs last passed, by tile, bit i for the cuff of index i of FAB_CUFF_QUERY
(R260), `staged` the staged cuff frames by tile, and `patched` the planes that debug frame writes touched (R492). -/
structure Region where
  run        : Bool := false
  stb        : List Nat := []
  gateReq    : Bool := false
  owed       : Nat := 0
  shared     : SMap Nat := []
  priv       : SMap Nat := []
  muls       : SMap Mul := []
  stbOut     : List Nat := []
  refusedOut : Bool := false
  pend       : SMap Nat := []
  switches   : List Nat := []
  clearing   : List Nat := []
  starting   : Bool := false
  released   : Bool := false
  hold       : SMap Nat := []
  staged     : SMap Nat := []
  patched    : List Nat := []
  deriving DecidableEq, Repr

/-- A block memory (R202 to R207): its 36,864 stored bits, the entries of its queue, oldest push first, what each port shows,
the words read and the COLL, SBE and DBE pulses of the last operation, ERR with the region clock, plus one, whose next edge
ends it, the words of POPs with the edges until POP_DATA shows them, and the pushes and the pops that the other side's flags
do not count yet, each with the edges of that side it has waited (R205, R207). -/
structure Bm where
  mem   : Nat := 0
  q     : List Nat := []
  outA  : Nat := 0
  outB  : Nat := 0
  collA : Bool := false
  collB : Bool := false
  sbe   : Bool := false
  dbe   : Bool := false
  err   : Nat := 0
  pops  : List (Nat × Nat) := []
  newW  : List Nat := []
  newR  : List Nat := []
  deriving DecidableEq, Repr

/-- What the fabric as a whole holds: the LOGIC and MODES frame bits of the context planes (keyed by `frameKey`), the
frames with an uncorrectable word, the committed cuff frames (region × 800 + tile), the driver claims (track × 4 +
context: 1 LOWER, 2 UPPER), the values that the keepers of undriven tracks hold (R224), the claims lost to an error, by track ×
4 + context, with the ends whose context has not been cleared since: 1 LOWER, 2 UPPER, 3 both (R231), the block memories
(region × 50 + index), and the last scrub pass of each die in ms. -/
structure Fabric where
  frames : SMap Nat := []
  uncorr : SMap Nat := []
  cuffs  : SMap Nat := []
  claims : SMap Nat := []
  keep   : SMap Nat := []
  lost   : SMap Nat := []
  bms    : SMap Bm := []
  pass   : SMap Nat := []
  deriving DecidableEq, Repr

/-! ### Memory dies (chapter 13) -/

/-- The memory dies' lines. A storage line is die × 2^20 + bank × 2^14 + row, and the byte at storage line `l` and
offset `o` has the address 64 × l + o. `poison` holds 1 for a poisoned line, `owner` the META.OWNER of a line. -/
structure Memory where
  /-- bytes that differ from what an unlisted address reads as, the zero the POR initialisation writes (R286) -/
  cells  : List Host.Cell := []
  poison : SMap Nat := []
  /-- banks whose unlisted bytes are free values, with the number of the draw plus one; keyed by die × 64 + bank -/
  scram  : SMap Nat := []
  owner  : SMap Nat := []
  /-- lines read with a correction, which the die re-reads (R281) -/
  reread : List Nat := []
  deriving DecidableEq, Repr

/-- A completion handed to a master: the master code, its tag, the status and the data of the line. -/
structure Rsp where
  master : Nat
  tag    : Nat
  status : Nat
  data   : Nat
  deriving DecidableEq, Repr

/-! ### The stack's links (chapter 15) -/

/-- A link beside its registers: lanes that have failed, lanes that mismatched in the last check, the bits attributed to
lanes with the round of each, failing lanes that wait for a siding, the lane and siding in training for a sparing, the
carrier of a retrain, its stage (0 the carrier's own training, i + 1 position i), the conditions at its start, and
whether the link is checked outside the rotation in the next round. -/
structure Link where
  failed  : List Nat := []
  missed  : List Nat := []
  synd    : List (Nat × Nat) := []
  queue   : List Nat := []
  spare   : Option (Nat × Nat) := none
  carrier : Option Nat := none
  stage   : Nat := 0
  startI  : Nat := 0
  startT  : Int := 0
  extra   : Bool := false
  deriving DecidableEq, Repr

/-- The stack controller as a whole: the links, the draw of the trims of start-up training plus one, the draw of the trims
that a lane has taken since (by link × 1024 + lane, plus one), and the first link of the next round's checks. -/
structure Stack where
  links : SMap Link := []
  startTrims : Nat := 0
  trims : SMap Nat := []
  rot   : Nat := 0
  deriving DecidableEq, Repr

/-! ### Thermal management (chapter 23) -/

/-- Thermal management beside its registers: the rounds so far, the readings of the last 256 rounds, newest first,
consecutive rounds calm enough to leave WARNING and CRITICAL, rounds at TRIP in a row, good reads in a row of each failed
sensor, and the voltage monitors of the last round. -/
structure Thermal where
  round : Nat := 0
  hist  : List (List Int) := []
  calmW : Nat := 0
  calmC : Nat := 0
  hot   : Nat := 0
  good  : SMap Nat := []
  volts : List Nat := []
  deriving DecidableEq, Repr

/-! ### I/O banks (chapter 26) -/

/-- The sampled setting of a pin (R503): mode, drive, pull, slew, termination, serialiser code, whether it failed under
R505, and the position of the deserialiser's word boundary. -/
structure PadSet where
  mode  : Nat := 0
  drive : Nat := 0
  pull  : Nat := 0
  slew  : Bool := false
  term  : Bool := false
  ser   : Nat := 0
  bad   : Bool := false
  slip  : Nat := 0
  deriving DecidableEq, Repr

/-- The I/O banks beside their registers: the sampled pads by bank × 32 + pin (banks 0 to 7 user, 8 and 9 legacy), and of
each bank the rounds in a row with VIO outside ±10 % and within ±5 %. -/
structure Iob where
  pads : SMap PadSet := []
  low  : SMap Nat := []
  fine : SMap Nat := []
  deriving DecidableEq, Repr

/-! ### Stack cache, host window and sealed pages (chapter 14) -/

/-- The directory entry of a cache way: its window line, the write counter of a sealed line, and when it was found
poisoned (R294, R297). The way's state stands in META.OWNER of its storage line. -/
structure Way where
  line : Nat := 0
  ctr  : Nat := 0
  age  : Nat := 0
  deriving DecidableEq, Repr

/-- Who waits for a host-window access: a window request of an engine, a SCH_ZERO, the debug port, or no one after a
debug access that timed out. -/
inductive Client where
  | engine (n : Nat) (q : WinReq)
  | zero
  | debug
  | gone
  deriving DecidableEq, Repr

/-- A host-window access: its window line, the first byte within it and the width, whether it writes, whether it covers
the whole line, and the byte enables and the data of a write. -/
structure WinAcc where
  client : Client
  line   : Nat
  off    : Nat
  width  : Nat
  write  : Bool
  whole  : Bool
  be     : Nat
  data   : Nat
  deriving DecidableEq, Repr

/-- An outstanding fill: its line, the slot it will take, and the accesses that wait for it. -/
structure Fill where
  line : Nat
  slot : Nat
  accs : List WinAcc
  deriving DecidableEq, Repr

/-- A posted write to host memory: address, length in bytes, and data little-endian. -/
structure HostWr where
  addr : Nat
  len  : Nat
  data : Nat
  deriving DecidableEq, Repr

/-- The stack cache beside its registers: the valid ways by slot, the tree pseudo-LRU bits of each set, the fills, the
number of ways found poisoned so far, and a SCH_ZERO that waits for its page. -/
structure Cache where
  ways  : SMap Way := []
  plru  : SMap Nat := []
  fills : List Fill := []
  age   : Nat := 0
  zero  : Option WinAcc := none
  deriving DecidableEq, Repr

/-- A fetched descriptor: its index, its 32 bytes, whether it has started, the bytes done, and STATUS with CAUSE once it
has ended. -/
structure Desc where
  idx     : Nat
  raw     : Nat
  started : Bool
  count   : Nat
  fin     : Option (Nat × Nat)
  deriving DecidableEq, Repr

/-- A reclaim that runs or waits: its pages, and the ring and index of the descriptor that asked for it. -/
structure Reclaim where
  first : Nat
  count : Nat
  desc  : Option (Nat × Nat)
  deriving DecidableEq, Repr

/-- The host window beside its registers: map entries by page with STATE zero, the sealed pages in INIT, the owners of
CLEAR pages (1 DEVICE, 2 RETURNING), the reclaims in order, the descriptors in flight of each ring, and
HWN_ABORT_LOG. -/
structure HostWin where
  map      : SMap Nat := []
  init     : List Nat := []
  owner    : SMap Nat := []
  reclaims : List Reclaim := []
  rings    : SMap (List Desc) := []
  aborts   : List Nat := []
  deriving DecidableEq, Repr

/-- The sealing keys KEY_CUR and KEY_NEXT, the SEALED_USED bit of each page, and those a running rekey has set. -/
structure Sealing where
  cur      : Nat := 0
  next     : Nat := 0
  used     : SMap Nat := []
  usedNext : SMap Nat := []
  deriving DecidableEq, Repr

/-! ### PCI Express endpoint (chapter 18) -/

/-- What a region's hard identity inputs gave for its user function (R376). -/
structure UfIdent where
  devId : Nat
  cls   : Nat
  subId : Nat
  size0 : Nat
  size2 : Nat
  pf0   : Bool
  pf2   : Bool
  deriving DecidableEq, Repr

/-- The configuration space of a function: Memory Space Enable, Bus Master Enable, MSI-X Enable, Function Mask, D3hot, the
BARs (by number), the other control fields (by the code of `CfgReg`), the MSI-X table and pending bits of a user function,
a logged Poisoned TLP, and its sampled identity. -/
structure PciFn where
  mem    : Bool := false
  bme    : Bool := false
  msix   : Bool := false
  fmask  : Bool := false
  d3     : Bool := false
  bars   : SMap Nat := []
  ctl    : SMap Nat := []
  addr   : SMap Nat := []
  data   : SMap Nat := []
  unmask : List Nat := []
  pend   : List Nat := []
  aer    : Bool := false
  ident  : Option UfIdent := none
  deriving DecidableEq, Repr

/-- How a completion ends: Successful, Unsupported Request, Completer Abort, Configuration Request Retry Status. -/
inductive CplSt where
  | sc | ur | ca | crs
  deriving DecidableEq, Repr

/-- A completion returned to the host: its status, the EP bit, the bytes and the data, little-endian. -/
structure Cpl where
  st   : CplSt
  ep   : Bool
  len  : Nat
  data : Nat
  deriving DecidableEq, Repr

/-- A read that a user function's fabric has accepted: the function, the tag, the length, and whether its completion will be
discarded. -/
structure UfRead where
  fn   : Nat
  tag  : Nat
  len  : Nat
  dead : Bool
  deriving DecidableEq, Repr

/-- A user-function request handed to the owner's fabric: region, function, BAR, byte offset, length, and the data of a
write with its byte enables. -/
structure UfReq where
  region : Nat
  fn     : Nat
  bar    : Nat
  off    : Nat
  len    : Nat
  write  : Bool
  be     : Nat
  data   : Nat
  deriving DecidableEq, Repr

/-- The endpoint beside its registers: PTM enable, whether PERST or HOTRST is asserted, whether function 0 is ready, whether
the link is in L1, the functions, the user-function reads outstanding, what the fabric was handed and the completions
returned, newest first. -/
structure Pci where
  ptmEnable : Bool := false
  perst     : Bool := false
  hot       : Bool := false
  ready     : Bool := false
  l1        : Bool := false
  fns       : SMap PciFn := []
  reads     : List UfRead := []
  handed    : List UfReq := []
  cpls      : List Cpl := []
  deriving DecidableEq, Repr

/-! ### Signal Box (chapter 19) -/

/-- A firmware update in progress: the slot, the length, and the bytes received. -/
structure Update where
  slot : Nat
  len  : Nat
  got  : List Byte
  deriving DecidableEq, Repr

/-- A mailbox response that the firmware has ready: status, detail and payload. -/
structure MbResp where
  st  : Nat
  det : Nat
  pay : List Byte
  deriving DecidableEq, Repr

/-- The Signal Box beside its registers. Flash: whether one is fitted, the slots' images (empty where none is valid), the
directory's PREFERRED, TRIAL and BOOTS, and the mirror, newest first, with the records written to it. Fuses: the two copies
of each write-once field as value plus one (field × 2 + copy), the copies that fail their CRC, FW_SVN, the repair entries
with the numbers of bad ones, and the shadows loaded from them (a key slot k is field 0x10 + k, its revocation 0x20 + k).
Core: a start from ROM that is due, whether it follows POR, whether it must boot the other slot, whether the running slot is
none (ROM recovery), the update, the response in hand, the nonce, an arming, a KEY_SLOT request that waits for a session with its
arming used, the next kick expected, and a mirror record lost and not yet reported. -/
structure Sbx where
  flash    : Bool := true
  slotA    : List Byte := []
  slotB    : List Byte := []
  pref     : Nat := 0
  trial    : Bool := false
  boots    : Nat := 0
  mirror   : List LogRec := []
  mirrored : Nat := 0
  fuses    : SMap Nat := []
  fuseBad  : List Nat := []
  svn      : Nat := 0
  repairs  : List Nat := []
  badRep   : List Nat := []
  shadow   : SMap Nat := []
  shSvn    : Nat := 0
  due      : Bool := false
  porStart : Bool := false
  other    : Bool := false
  update   : Option Update := none
  resp     : Option MbResp := none
  nonce    : Option Nat := none
  armed    : Bool := false
  keyHeld  : Bool := false
  kick     : Bool := false
  lost     : Bool := false
  deriving DecidableEq, Repr

/-! ### Self-test (chapter 24) -/

/-- Self-test beside its registers: the queued records, the soft repairs in force and the fuse entries in force (as
records), the units whose start-up test runs, the units that go IDLE after the RESTORE in hand, of each unit the
records and the repairs of its test, and MODE, FIRST and LAST of the GO that started it. -/
structure Bst where
  queue   : List Nat := []
  soft    : List Nat := []
  fused   : List Nat := []
  startup : List Nat := []
  halted  : List Nat := []
  fails   : SMap Nat := []
  repairs : SMap Nat := []
  cmd     : SMap Nat := []
  deriving DecidableEq, Repr

/-! ### Debug port (chapter 25) -/

/-- The access of DBG_ACCESS: address, byte enables, whether it writes, its data, and its status once it is done. -/
structure DbgAcc where
  addr  : Nat := 0
  be    : Nat := 0
  write : Bool := false
  data  : Nat := 0
  st    : Nat := 0
  done  : Bool := false
  busy  : Bool := false
  deriving DecidableEq, Repr

/-- A RESPOND being verified on the TAP: KEYSEL, the signature, PUBKEY, and the nonce it uses up. -/
structure Respond where
  sel   : Bool
  sig   : Nat
  pub   : Nat
  nonce : Option Nat
  deriving DecidableEq, Repr

/-- The debug port beside its registers: the TAP's instruction register, what its capture and the last data register
captured, the scan instruction in effect (0 none, 1 EXTEST, 2 CLAMP, 3 HIGHZ), DBG_SELECT, the access, DETAIL of the last
RESPOND and the one being verified, the boundary scan register, and the edges that a pulse still owes a region. -/
structure Dbg where
  ir      : Nat := 1
  irOut   : Nat := 0
  tdo     : Nat := 0
  scan    : Nat := 0
  sel     : Nat := 0
  acc     : DbgAcc := {}
  detail  : Nat := 0
  respond : Option Respond := none
  bsr     : Nat := 0
  pulses  : SMap Nat := []
  deriving DecidableEq, Repr

/-- The whole state of the block. -/
structure State where
  /-- every control-register field that differs from its reset value, keyed by bit address -/
  regs : SMap Nat
  /-- the upper words latched by lower-word reads, keyed by register offset -/
  latch : SMap Nat
  /-- the events the command in progress has raised; empty between commands -/
  evq : List Ev
  /-- the event log, newest record first, at most 4,096 records (R393) -/
  log : List LogRec
  /-- the open merge windows (R539) -/
  windows : List MergeWin
  /-- records that wait for the flash mirror, oldest first (R394) -/
  mirrorQ : List LogRec
  axes : SMap Axis
  encs : SMap Enc
  rt : RingTime
  tt : Timetable
  dsp : Dispatch
  ports : SMap Port
  node : Node
  modules : SMap Module
  lanes : SMap Lane
  regions : SMap Region
  fab : Fabric
  engines : SMap Engine
  clk : Clock
  pwr : Power
  /-- the flits sent, newest first -/
  wire : List Sent
  mem : Memory
  cache : Cache
  hwn : HostWin
  enc : Sealing
  stk : Stack
  thm : Thermal
  iob : Iob
  /-- posted writes to host memory, newest first -/
  hostWr : List HostWr
  /-- completions handed to masters, newest first -/
  rsps : List Rsp
  pci : Pci
  rst : Rst
  cfg : Session
  sbx : Sbx
  bst : Bst
  dbg : Dbg
  /-- how many free values have been drawn (the model's own field) -/
  free : Nat
  /-- the commands that wait, first in, first out -/
  pending : List Instr
  deriving DecidableEq, Repr

/-- Why the block stops for good. No rule of the spec stops it: a failure is reported in a status, a counter or an
event. -/
inductive Fault where
  /-- Raised by nothing: the spec gives the block no state it cannot leave by a command. Safe. -/
  | stuck
  deriving DecidableEq, Repr

/-- Why a command has no meaning. -/
inductive Refusal where
  /-- Raised by an arm of `exec` whose command has no meaning yet. Safe: nothing is claimed of it. -/
  | notModelled (mnemonic : String)
  deriving DecidableEq, Repr

/-- The first two records of the log: event 0x1C01 with SEQ 0, and 0x0101 with source POR (R393, R440), newest first. -/
def porLog : List LogRec := [⟨1, 0x0101, 0, 1, Config.lpoTime 1, 0⟩, ⟨0, 0x1C01, 0, 1, Config.lpoTime 0, 0⟩]

/-- The block right after power-on reset (R427): the power-up sequence of R447 is at step 1, and the release of R433 is due
from step 2. -/
def State.reset : State where
  regs := []
  latch := []
  evq := []
  log := porLog
  windows := []
  mirrorQ := porLog.reverse
  axes := []
  encs := []
  rt := {}
  tt := {}
  dsp := {}
  ports := []
  node := {}
  modules := []
  lanes := []
  regions := []
  fab := {}
  engines := []
  clk := {}
  pwr := { step := 1, left := 4 }
  wire := []
  mem := {}
  cache := {}
  hwn := {}
  enc := {}
  stk := {}
  thm := {}
  iob := {}
  hostWr := []
  rsps := []
  pci := {}
  rst := { step := 2, untested := [0, 1, 2, 6, 7, 8] }
  cfg := {}
  sbx := { porStart := true }
  bst := {}
  dbg := {}
  free := 0
  pending := []

end Sys2Proof.Machine
end

