-- ==== Sys2Proof/Machine/RegMap.lean ====
section
/-! DEFINITION. The register map: one `Fld` for every field of every control register the spec tabulates, placed at
its BAR0 offset (R528, R530) with its width and the reset value the spec gives, and one row per field for the generic
read and write of R8 to R12. Written out from the register tables of spec/ 02 to 28; an indexed register takes its
index as argument. -/
namespace Sys2Proof.Machine

/-- GLB_ID.PART, BAR0 offset 0x000000, bits [15:0], RO, reset 0x396. Part number -/
def F.GLB_ID_PART : Fld := ⟨0, 16, 918⟩
/-- GLB_ID.STEPPING, BAR0 offset 0x000000, bits [23:16], RO, reset 0x11. [7:4] letter (1 = A), [3:0] digit; A1 = 0x11 -/
def F.GLB_ID_STEPPING : Fld := ⟨16, 8, 17⟩
/-- GLB_ID.GRADE, BAR0 offset 0x000000, bits [25:24], RO, reset 0x0. 01 grade 1, 10 grade 2, from the fuse shadows; 00 until a shadow load has completed; reset by POR only -/
def F.GLB_ID_GRADE : Fld := ⟨24, 2, 0⟩
/-- GLB_STATUS.BSTOP, BAR0 offset 0x000004, bits [0:0], RO, reset 0x1. 1 while DSP_STATUS.BSTOP is not RUN -/
def F.GLB_STATUS_BSTOP : Fld := ⟨32, 1, 1⟩
/-- GLB_STATUS.RT_VALID, BAR0 offset 0x000004, bits [1:1], RO, reset 0x0. ANG_STATUS.RT_VALID -/
def F.GLB_STATUS_RT_VALID : Fld := ⟨33, 1, 0⟩
/-- GLB_STATUS.TRAINED, BAR0 offset 0x000004, bits [2:2], RO, reset 0x0. STK_STATUS.TRAINED -/
def F.GLB_STATUS_TRAINED : Fld := ⟨34, 1, 0⟩
/-- GLB_STATUS.MEM_INIT, BAR0 offset 0x000004, bits [3:3], RO, reset 0x0. MEM_STATUS.INIT_DONE -/
def F.GLB_STATUS_MEM_INIT : Fld := ⟨35, 1, 0⟩
/-- GLB_STATUS.STARTUP_DONE, BAR0 offset 0x000004, bits [4:4], RO, reset 0x0. BST_STATUS.STARTUP_DONE -/
def F.GLB_STATUS_STARTUP_DONE : Fld := ⟨36, 1, 0⟩
/-- GLB_STATUS.SBX_READY, BAR0 offset 0x000004, bits [5:5], RO, reset 0x0. SBX_STATUS.READY -/
def F.GLB_STATUS_SBX_READY : Fld := ⟨37, 1, 0⟩
/-- GLB_STATUS.FUSE_FAULT, BAR0 offset 0x000004, bits [6:6], RO, reset 0x0. RST_STATUS.FUSE_FAULT -/
def F.GLB_STATUS_FUSE_FAULT : Fld := ⟨38, 1, 0⟩
/-- GLB_STATUS.THM_STATE, BAR0 offset 0x000004, bits [8:7], RO, reset 0x0. THM_STATUS.STATE -/
def F.GLB_STATUS_THM_STATE : Fld := ⟨39, 2, 0⟩
/-- GLB_RST_CAUSE.SOURCE, BAR0 offset 0x000008, bits [3:0], RO, reset 0x0. 0000 POR, 0001 PIN, 0010 WDOG, 0011 SWFULL, 0100 RING, 0101 THERM, 0110 PERST, 0111 HOTRST, 1000 DIE, 1001 BLOCK; reset by POR only -/
def F.GLB_RST_CAUSE_SOURCE : Fld := ⟨64, 4, 0⟩
/-- GLB_RST_CAUSE.QUAL, BAR0 offset 0x000008, bits [15:8], RO, reset 0x0. Die position for DIE; block code for BLOCK -/
def F.GLB_RST_CAUSE_QUAL : Fld := ⟨72, 8, 0⟩
/-- GLB_RST_CAUSE.ENGINE, BAR0 offset 0x000008, bits [22:16], RO, reset 0x0. Engine n for ENG_n_CTRL.SRESET; 0x7F for the ENG bit of RST_BLOCK -/
def F.GLB_RST_CAUSE_ENGINE : Fld := ⟨80, 7, 0⟩
/-- GLB_RESET.FULL, BAR0 offset 0x00000C, bits [0:0], W1S, reset 0x0. Asserts SWFULL under R431; reads 0 -/
def F.GLB_RESET_FULL : Fld := ⟨96, 1, 0⟩
/-- GLB_RESET.KEY, BAR0 offset 0x00000C, bits [31:16], WO, no reset value given (DESIGN CHOICE: 0). Must be 0xC0DE in the same write -/
def F.GLB_RESET_KEY : Fld := ⟨112, 16, 0⟩
/-- GLB_NMI_STATUS.CLKMON, BAR0 offset 0x000010, bits [0:0], W1C, reset 0x0. Under R416 -/
def F.GLB_NMI_STATUS_CLKMON : Fld := ⟨128, 1, 0⟩
/-- GLB_NMI_STATUS.XOFAIL, BAR0 offset 0x000010, bits [1:1], W1C, reset 0x0. Under R419 -/
def F.GLB_NMI_STATUS_XOFAIL : Fld := ⟨129, 1, 0⟩
/-- GLB_NMI_STATUS.FAULT, BAR0 offset 0x000010, bits [2:2], RO, reset 0x0. FAULT_N asserted under R417 -/
def F.GLB_NMI_STATUS_FAULT : Fld := ⟨130, 1, 0⟩
/-- RST_CTRL.RING_EN, BAR0 offset 0x010000, bits [0:0], RWL, reset 0x0. Under R432 -/
def F.RST_CTRL_RING_EN : Fld := ⟨524288, 1, 0⟩
/-- RST_CTRL.LOCK, BAR0 offset 0x010000, bits [31:31], W1S, reset 0x0. Locks the RWL fields of the RST block -/
def F.RST_CTRL_LOCK : Fld := ⟨524319, 1, 0⟩
/-- RST_RING_SRC.NODE, BAR0 offset 0x010004, bits [11:0], RWL, reset 0x0. Node whose reset messages are taken -/
def F.RST_RING_SRC_NODE : Fld := ⟨524320, 12, 0⟩
/-- RST_DIE.HOLD, BAR0 offset 0x010008, bits [9:1], RW, reset 0x0. Bit p: DIE reset of position p held, under R435 -/
def F.RST_DIE_HOLD : Fld := ⟨524353, 9, 0⟩
/-- RST_DIE.IN_RESET, BAR0 offset 0x010008, bits [25:17], RO, reset 0x0. Bit p + 16: die p is held in reset by any source -/
def F.RST_DIE_IN_RESET : Fld := ⟨524369, 9, 0⟩
/-- RST_DIE_TO.TIMEOUT, BAR0 offset 0x01000C, bits [9:0], RW, reset 0x64. µs, 1–1,000; values outside that range are clamped to it -/
def F.RST_DIE_TO_TIMEOUT : Fld := ⟨524384, 10, 100⟩
/-- RST_BLOCK.GO, BAR0 offset 0x010010, bits [32:0], W1S, reset 0x0. Bit b: BLOCK reset of block code b, under R435 and R436; reads 1 until released -/
def F.RST_BLOCK_GO : Fld := ⟨524416, 33, 0⟩
/-- RST_STATUS.FUSE_DONE, BAR0 offset 0x010018, bits [0:0], RO, reset 0x0. Shadows loaded; reset by POR only -/
def F.RST_STATUS_FUSE_DONE : Fld := ⟨524480, 1, 0⟩
/-- RST_STATUS.FUSE_FAULT, BAR0 offset 0x010018, bits [1:1], RO, reset 0x0. Under R438; reset by POR only -/
def F.RST_STATUS_FUSE_FAULT : Fld := ⟨524481, 1, 0⟩
/-- RST_STATUS.FUSE_TRIES, BAR0 offset 0x010018, bits [3:2], RO, reset 0x0. Failed attempts of the current load -/
def F.RST_STATUS_FUSE_TRIES : Fld := ⟨524482, 2, 0⟩
/-- RST_FORCED.COUNT, BAR0 offset 0x010020, bits [15:0], RC, reset 0x0. Forced resets under R435, saturating -/
def F.RST_FORCED_COUNT : Fld := ⟨524544, 16, 0⟩
/-- RST_FORCED.LAST, BAR0 offset 0x010020, bits [23:16], RO, reset 0x0. Block code of the last one -/
def F.RST_FORCED_LAST : Fld := ⟨524560, 8, 0⟩
/-- RST_IDLE_TOb.TIMEOUT, BAR0 offset 0x010100, bits [9:0], RW, reset 0xA. µs, 1–1,000; values outside that range are clamped to it -/
def F.RST_IDLE_TOb_TIMEOUT (b : Nat) : Fld := ⟨526336 + (32 * b), 10, 10⟩
/-- CLK_CTRL.ENABLE, BAR0 offset 0x020000, bits [0:0], RW, reset 0x1. Operating-point requests, under R425 -/
def F.CLK_CTRL_ENABLE : Fld := ⟨1048576, 1, 1⟩
/-- CLK_CTRL.FRO_ON, BAR0 offset 0x020000, bits [1:1], RW, reset 0x0. Keeps FRO running, under R412 -/
def F.CLK_CTRL_FRO_ON : Fld := ⟨1048577, 1, 0⟩
/-- CLK_CTRL.RETURN, BAR0 offset 0x020000, bits [2:2], W1S, reset 0x0. Under R418; reads 0 -/
def F.CLK_CTRL_RETURN : Fld := ⟨1048578, 1, 0⟩
/-- CLK_CTRL.LOCK, BAR0 offset 0x020000, bits [31:31], W1S, reset 0x0. Locks the RWL fields of the CLK block -/
def F.CLK_CTRL_LOCK : Fld := ⟨1048607, 1, 0⟩
/-- CLK_STATUS.DRAINING, BAR0 offset 0x020004, bits [0:0], RO, reset 0x0. Under R425 -/
def F.CLK_STATUS_DRAINING : Fld := ⟨1048608, 1, 0⟩
/-- CLK_STATUS.SYSCLK, BAR0 offset 0x020004, bits [1:1], RO, reset 0x1. 0 REF, 1 FRO -/
def F.CLK_STATUS_SYSCLK : Fld := ⟨1048609, 1, 1⟩
/-- CLK_STATUS.REF_STABLE, BAR0 offset 0x020004, bits [2:2], RO, reset 0x0. SYSREF judged stable -/
def F.CLK_STATUS_REF_STABLE : Fld := ⟨1048610, 1, 0⟩
/-- CLK_STATUS.FRO_STABLE, BAR0 offset 0x020004, bits [3:3], RO, reset 0x0. FRO judged stable -/
def F.CLK_STATUS_FRO_STABLE : Fld := ⟨1048611, 1, 0⟩
/-- CLK_STATUS.XO_FAIL, BAR0 offset 0x020004, bits [4:4], RO, reset 0x0. Under R419 -/
def F.CLK_STATUS_XO_FAIL : Fld := ⟨1048612, 1, 0⟩
/-- CLK_STATUS.FROZEN, BAR0 offset 0x020004, bits [5:5], RO, reset 0x0. A freeze is in force -/
def F.CLK_STATUS_FROZEN : Fld := ⟨1048613, 1, 0⟩
/-- CLK_STATUS.OP_BUSY, BAR0 offset 0x020004, bits [6:6], RO, reset 0x0. A change runs -/
def F.CLK_STATUS_OP_BUSY : Fld := ⟨1048614, 1, 0⟩
/-- CLK_OP.TARGET, BAR0 offset 0x020008, bits [1:0], RW, reset 0x0. Writing requests a change, under R422 -/
def F.CLK_OP_TARGET : Fld := ⟨1048640, 2, 0⟩
/-- CLK_OP.CURRENT, BAR0 offset 0x020008, bits [5:4], RO, reset 0x0. Point in force -/
def F.CLK_OP_CURRENT : Fld := ⟨1048644, 2, 0⟩
/-- CLK_OP.REFUSED, BAR0 offset 0x020008, bits [15:8], RC, reset 0x0. Refused writes, saturating -/
def F.CLK_OP_REFUSED : Fld := ⟨1048648, 8, 0⟩
/-- CLK_AVS.FREQ, BAR0 offset 0x02000C, bits [4:0], RWL, reset 0xA. AVS_CLK in MHz, 1–20 -/
def F.CLK_AVS_FREQ : Fld := ⟨1048672, 5, 10⟩
/-- CLK_AVS.TIMEOUT, BAR0 offset 0x02000C, bits [15:8], RWL, reset 0x2. ms, 1–255 -/
def F.CLK_AVS_TIMEOUT : Fld := ⟨1048680, 8, 2⟩
/-- CLK_AVS.VREAD, BAR0 offset 0x02000C, bits [27:16], RO, reset 0x0. Last Voltage read, mV -/
def F.CLK_AVS_VREAD : Fld := ⟨1048688, 12, 0⟩
/-- CLK_ENGd.DIV, BAR0 offset 0x020020, bits [2:0], RW, reset 0x0. Engine clock of die Ld = engine max / (DIV + 1) -/
def F.CLK_ENGd_DIV (d : Nat) : Fld := ⟨1048832 + (32 * (d - 1)), 3, 0⟩
/-- CLK_GATE_TO.COUNT, BAR0 offset 0x020040, bits [15:0], RC, reset 0x0. Under R423, saturating -/
def F.CLK_GATE_TO_COUNT : Fld := ⟨1049088, 16, 0⟩
/-- CLK_MON_TRIPS.COUNT, BAR0 offset 0x020044, bits [15:0], RC, reset 0x0. Trips since reset, saturating -/
def F.CLK_MON_TRIPS_COUNT : Fld := ⟨1049120, 16, 0⟩
/-- CLK_FPLLn.EN, BAR0 offset 0x020100, bits [0:0], RW, reset 0x0. Under R414 -/
def F.CLK_FPLLn_EN (n : Nat) : Fld := ⟨1050624 + (32 * n), 1, 0⟩
/-- CLK_FPLLn.LOCKED, BAR0 offset 0x020100, bits [1:1], RO, reset 0x0. PLL locked -/
def F.CLK_FPLLn_LOCKED (n : Nat) : Fld := ⟨1050625 + (32 * n), 1, 0⟩
/-- CLK_FPLLn.M, BAR0 offset 0x020100, bits [9:2], RW, reset 0x50. VCO multiplier, 64–128 -/
def F.CLK_FPLLn_M (n : Nat) : Fld := ⟨1050626 + (32 * n), 8, 80⟩
/-- CLK_FPLLn.O0, BAR0 offset 0x020100, bits [16:10], RW, reset 0x8. Output 0 divider, 2–64 -/
def F.CLK_FPLLn_O0 (n : Nat) : Fld := ⟨1050634 + (32 * n), 7, 8⟩
/-- CLK_FPLLn.O1, BAR0 offset 0x020100, bits [23:17], RW, reset 0xA. Output 1 divider, 2–64 -/
def F.CLK_FPLLn_O1 (n : Nat) : Fld := ⟨1050641 + (32 * n), 7, 10⟩
/-- PWR_CTRL.ENABLE, BAR0 offset 0x030000, bits [0:0], RW, reset 0x1. Under R452 -/
def F.PWR_CTRL_ENABLE : Fld := ⟨1572864, 1, 1⟩
/-- PWR_CTRL.TARGET, BAR0 offset 0x030000, bits [3:1], RW, reset 0x0. 000 RUN, 001 IDLE, 010 SLEEP, 011 DEEP SLEEP, 100 OFF -/
def F.PWR_CTRL_TARGET : Fld := ⟨1572865, 3, 0⟩
/-- PWR_CTRL.GO, BAR0 offset 0x030000, bits [4:4], W1S, reset 0x0. Under R443 and R446; reads 0 -/
def F.PWR_CTRL_GO : Fld := ⟨1572868, 1, 0⟩
/-- PWR_CTRL.LOCK, BAR0 offset 0x030000, bits [31:31], W1S, reset 0x0. Locks the RWL fields of the PWR block -/
def F.PWR_CTRL_LOCK : Fld := ⟨1572895, 1, 0⟩
/-- PWR_STATUS.DRAINING, BAR0 offset 0x030004, bits [0:0], RO, reset 0x0. Under R452 -/
def F.PWR_STATUS_DRAINING : Fld := ⟨1572896, 1, 0⟩
/-- PWR_STATUS.STATE, BAR0 offset 0x030004, bits [3:1], RO, reset 0x0. Encoded as TARGET -/
def F.PWR_STATUS_STATE : Fld := ⟨1572897, 3, 0⟩
/-- PWR_STATUS.PHASE, BAR0 offset 0x030004, bits [5:4], RO, reset 0x0. 00 STEADY, 01 ENTERING, 10 WAKING -/
def F.PWR_STATUS_PHASE : Fld := ⟨1572900, 2, 0⟩
/-- PWR_STATUS.REFUSE, BAR0 offset 0x030004, bits [11:8], RO, reset 0x0. Under R443 -/
def F.PWR_STATUS_REFUSE : Fld := ⟨1572904, 4, 0⟩
/-- PWR_WAKE_EN.SOURCES, BAR0 offset 0x030008, bits [5:0], RW, reset 0x3F. Bit per source of R446; bit 0 reads 1 and ignores writes -/
def F.PWR_WAKE_EN_SOURCES : Fld := ⟨1572928, 6, 63⟩
/-- PWR_WAKE_CAUSE.CAUSE, BAR0 offset 0x03000C, bits [5:0], W1C, reset 0x0. Under R446; reset by POR only -/
def F.PWR_WAKE_CAUSE_CAUSE : Fld := ⟨1572960, 6, 0⟩
/-- PWR_WAKE_TIMER.PERIODS, BAR0 offset 0x030010, bits [31:0], RW, reset 0x0. LPO periods; 0 disables TIMER -/
def F.PWR_WAKE_TIMER_PERIODS : Fld := ⟨1572992, 32, 0⟩
/-- PWR_WAKE_FAIL.CONSEC, BAR0 offset 0x030014, bits [1:0], RO, reset 0x0. Under R448; reset by POR only -/
def F.PWR_WAKE_FAIL_CONSEC : Fld := ⟨1573024, 2, 0⟩
/-- PWR_WAKE_FAIL.TOTAL, BAR0 offset 0x030014, bits [15:8], RC, reset 0x0. Failed wakes, saturating; reset by POR only -/
def F.PWR_WAKE_FAIL_TOTAL : Fld := ⟨1573032, 8, 0⟩
/-- PWR_WAKE_FAIL.CAUSE, BAR0 offset 0x030014, bits [18:16], RO, reset 0x0. 000 PGOOD, 001 AVS, 010 OSC, 011 PLL -/
def F.PWR_WAKE_FAIL_CAUSE : Fld := ⟨1573040, 3, 0⟩
/-- PWR_WAKE_FAIL.RAIL, BAR0 offset 0x030014, bits [21:20], RO, reset 0x0. PGOOD index, for CAUSE 000 -/
def F.PWR_WAKE_FAIL_RAIL : Fld := ⟨1573044, 2, 0⟩
/-- PWR_PGOOD_TO.TIMEOUT, BAR0 offset 0x030018, bits [7:0], RWL, reset 0xA. ms, 1–255; 0 is treated as 1 -/
def F.PWR_PGOOD_TO_TIMEOUT : Fld := ⟨1573056, 8, 10⟩
/-- PWR_OSC_TO.TIMEOUT, BAR0 offset 0x03001C, bits [9:0], RWL, reset 0x64. µs, 50–1,000; values outside that range are clamped to it -/
def F.PWR_OSC_TO_TIMEOUT : Fld := ⟨1573088, 10, 100⟩
/-- PWR_RAILS.EN, BAR0 offset 0x030020, bits [3:0], RO, reset 0x0. PWR_EN0–3 as driven -/
def F.PWR_RAILS_EN : Fld := ⟨1573120, 4, 0⟩
/-- PWR_RAILS.PGOOD, BAR0 offset 0x030020, bits [7:4], RO, reset 0x0. PGOOD0–3 as sampled -/
def F.PWR_RAILS_PGOOD : Fld := ⟨1573124, 4, 0⟩
/-- THM_CTRL.ENABLE, BAR0 offset 0x040000, bits [0:0], RW, reset 0x1. Throttling and slow-down, under R460 -/
def F.THM_CTRL_ENABLE : Fld := ⟨2097152, 1, 1⟩
/-- THM_CTRL.LOCK, BAR0 offset 0x040000, bits [31:31], W1S, reset 0x0. Locks the RWL fields of the THM block -/
def F.THM_CTRL_LOCK : Fld := ⟨2097183, 1, 0⟩
/-- THM_STATUS.DRAINING, BAR0 offset 0x040004, bits [0:0], RO, reset 0x0. Under R460 -/
def F.THM_STATUS_DRAINING : Fld := ⟨2097184, 1, 0⟩
/-- THM_STATUS.STATE, BAR0 offset 0x040004, bits [2:1], RO, reset 0x0. 00 NORMAL, 01 WARNING, 10 CRITICAL, 11 TRIP -/
def F.THM_STATUS_STATE : Fld := ⟨2097185, 2, 0⟩
/-- THM_STATUS.SLOWDOWN, BAR0 offset 0x040004, bits [3:3], RO, reset 0x0. Under R457 -/
def F.THM_STATUS_SLOWDOWN : Fld := ⟨2097187, 1, 0⟩
/-- THM_STATUS.HOTTEST, BAR0 offset 0x040004, bits [12:8], RO, reset 0x0. Sensor with the highest reading -/
def F.THM_STATUS_HOTTEST : Fld := ⟨2097192, 5, 0⟩
/-- THM_LIMITS.WARN, BAR0 offset 0x040008, bits [7:0], RWL, reset 0x5F. °C -/
def F.THM_LIMITS_WARN : Fld := ⟨2097216, 8, 95⟩
/-- THM_LIMITS.CRIT, BAR0 offset 0x040008, bits [15:8], RWL, reset 0x6E. °C -/
def F.THM_LIMITS_CRIT : Fld := ⟨2097224, 8, 110⟩
/-- THM_LIMITS.TRIP, BAR0 offset 0x040008, bits [23:16], RWL, reset 0x78. °C, at most 0x78; higher values are taken as 0x78 -/
def F.THM_LIMITS_TRIP : Fld := ⟨2097232, 8, 120⟩
/-- THM_LIMITS.HYST, BAR0 offset 0x040008, bits [27:24], RWL, reset 0x5. °C -/
def F.THM_LIMITS_HYST : Fld := ⟨2097240, 4, 5⟩
/-- THM_RATE.RWARN, BAR0 offset 0x04000C, bits [7:0], RWL, reset 0x5. °C/s -/
def F.THM_RATE_RWARN : Fld := ⟨2097248, 8, 5⟩
/-- THM_RATE.RCRIT, BAR0 offset 0x04000C, bits [15:8], RWL, reset 0x14. °C/s -/
def F.THM_RATE_RCRIT : Fld := ⟨2097256, 8, 20⟩
/-- THM_THROTTLE.BULK_WARN, BAR0 offset 0x040010, bits [7:0], RW, reset 0xA. 100 ns units -/
def F.THM_THROTTLE_BULK_WARN : Fld := ⟨2097280, 8, 10⟩
/-- THM_THROTTLE.BULK_CRIT, BAR0 offset 0x040010, bits [15:8], RW, reset 0x32. 100 ns units -/
def F.THM_THROTTLE_BULK_CRIT : Fld := ⟨2097288, 8, 50⟩
/-- THM_THROTTLE.ENG_WARN, BAR0 offset 0x040010, bits [18:16], RW, reset 0x1. Divisor minus one -/
def F.THM_THROTTLE_ENG_WARN : Fld := ⟨2097296, 3, 1⟩
/-- THM_THROTTLE.ENG_CRIT, BAR0 offset 0x040010, bits [22:20], RW, reset 0x3. Divisor minus one -/
def F.THM_THROTTLE_ENG_CRIT : Fld := ⟨2097300, 3, 3⟩
/-- THM_THROTTLE.SKIP_WARN, BAR0 offset 0x040010, bits [26:24], RW, reset 0x2. Skipped eighths of each 128 ns window: SKIP × 16 ns, 0–112 ns -/
def F.THM_THROTTLE_SKIP_WARN : Fld := ⟨2097304, 3, 2⟩
/-- THM_THROTTLE.SKIP_CRIT, BAR0 offset 0x040010, bits [30:28], RW, reset 0x4. As SKIP_WARN -/
def F.THM_THROTTLE_SKIP_CRIT : Fld := ⟨2097308, 3, 4⟩
/-- THM_EXEMPT.REGIONS, BAR0 offset 0x040018, bits [71:0], RW, reset 0x0. Bit r: region r is not skipped -/
def F.THM_EXEMPT_REGIONS : Fld := ⟨2097344, 72, 0⟩
/-- THM_PEAK.TEMP, BAR0 offset 0x040024, bits [15:0], RC, reset 0x0. Highest reading, 1/16 °C, signed -/
def F.THM_PEAK_TEMP : Fld := ⟨2097440, 16, 0⟩
/-- THM_Sn.TEMP, BAR0 offset 0x040100, bits [15:0], RO, reset 0x0. Last reading, 1/16 °C, signed -/
def F.THM_Sn_TEMP (n : Nat) : Fld := ⟨2099200 + (32 * n), 16, 0⟩
/-- THM_Sn.RATE, BAR0 offset 0x040100, bits [30:16], RO, reset 0x0. Rate of rise, 1/16 °C/s, signed -/
def F.THM_Sn_RATE (n : Nat) : Fld := ⟨2099216 + (32 * n), 15, 0⟩
/-- THM_Sn.FAIL, BAR0 offset 0x040100, bits [31:31], RO, reset 0x0. Under R455 -/
def F.THM_Sn_FAIL (n : Nat) : Fld := ⟨2099231 + (32 * n), 1, 0⟩
/-- CFG_CTRL.ENABLE, BAR0 offset 0x050000, bits [0:0], RW, reset 0x1. Sessions and readback, under R367 -/
def F.CFG_CTRL_ENABLE : Fld := ⟨2621440, 1, 1⟩
/-- CFG_CTRL.READBACK_EN, BAR0 offset 0x050000, bits [1:1], RWL, reset 0x1. Under R366 -/
def F.CFG_CTRL_READBACK_EN : Fld := ⟨2621441, 1, 1⟩
/-- CFG_CTRL.REVEAL, BAR0 offset 0x050000, bits [2:2], W1S, reset 0x0. Ends hiding under R352; reads 0 -/
def F.CFG_CTRL_REVEAL : Fld := ⟨2621442, 1, 0⟩
/-- CFG_CTRL.LOCK, BAR0 offset 0x050000, bits [31:31], W1S, reset 0x0. Locks the RWL fields of the CFG block -/
def F.CFG_CTRL_LOCK : Fld := ⟨2621471, 1, 0⟩
/-- CFG_STATUS.DRAINING, BAR0 offset 0x050004, bits [0:0], RO, reset 0x0. Under R360 and R367 -/
def F.CFG_STATUS_DRAINING : Fld := ⟨2621472, 1, 0⟩
/-- CFG_STATUS.RESULT, BAR0 offset 0x050004, bits [4:1], RO, reset 0x0. Under R358 -/
def F.CFG_STATUS_RESULT : Fld := ⟨2621473, 4, 0⟩
/-- CFG_STATUS.END_CAUSE, BAR0 offset 0x050004, bits [7:5], RO, reset 0x0. Under R359; valid when RESULT is EARLY_END -/
def F.CFG_STATUS_END_CAUSE : Fld := ⟨2621477, 3, 0⟩
/-- CFG_STATUS.DEADLINE_MISS, BAR0 offset 0x050004, bits [8:8], W1C, reset 0x0. Under R352 -/
def F.CFG_STATUS_DEADLINE_MISS : Fld := ⟨2621480, 1, 0⟩
/-- CFG_STATUS.KEY_CAUSE, BAR0 offset 0x050004, bits [11:9], RO, reset 0x0. Under R365; valid when RESULT is KEY -/
def F.CFG_STATUS_KEY_CAUSE : Fld := ⟨2621481, 3, 0⟩
/-- CFG_STATUS.HIDING, BAR0 offset 0x050004, bits [12:12], RO, reset 0x0. User functions held hidden under R352 -/
def F.CFG_STATUS_HIDING : Fld := ⟨2621484, 1, 0⟩
/-- CFG_SESSION.OPEN, BAR0 offset 0x050008, bits [0:0], W1S, reset 0x0. Under R354; reads 0 -/
def F.CFG_SESSION_OPEN : Fld := ⟨2621504, 1, 0⟩
/-- CFG_SESSION.FINISH, BAR0 offset 0x050008, bits [1:1], W1S, reset 0x0. Under R359; reads 0 -/
def F.CFG_SESSION_FINISH : Fld := ⟨2621505, 1, 0⟩
/-- CFG_SESSION.ABORT, BAR0 offset 0x050008, bits [2:2], W1S, reset 0x0. Under R359; reads 0 -/
def F.CFG_SESSION_ABORT : Fld := ⟨2621506, 1, 0⟩
/-- CFG_SESSION.SRC, BAR0 offset 0x050008, bits [3:3], RW, reset 0x0. Under R354 -/
def F.CFG_SESSION_SRC : Fld := ⟨2621507, 1, 0⟩
/-- CFG_SESSION.RING, BAR0 offset 0x050008, bits [7:4], RW, reset 0x0. Ring for SRC = 1 -/
def F.CFG_SESSION_RING : Fld := ⟨2621508, 4, 0⟩
/-- CFG_IDLE_TO.TIMEOUT, BAR0 offset 0x05000C, bits [15:0], RW, reset 0x64. ms, under R359; 0 is treated as 1 -/
def F.CFG_IDLE_TO_TIMEOUT : Fld := ⟨2621536, 16, 100⟩
/-- CFG_PROGRESS.BYTES, BAR0 offset 0x050010, bits [31:0], RO, reset 0x0. Bytes taken by the current or last session -/
def F.CFG_PROGRESS_BYTES : Fld := ⟨2621568, 32, 0⟩
/-- CFG_FAIL_AT.OFFSET, BAR0 offset 0x050014, bits [31:0], RO, reset 0xFFFFFFFF. Under R358 -/
def F.CFG_FAIL_AT_OFFSET : Fld := ⟨2621600, 32, 4294967295⟩
/-- CFG_FRAMES.ACCEPTED, BAR0 offset 0x050018, bits [31:0], RO, reset 0x0. Frames accepted in the session -/
def F.CFG_FRAMES_ACCEPTED : Fld := ⟨2621632, 32, 0⟩
/-- CFG_REJECTS.REJECTED, BAR0 offset 0x05001C, bits [31:0], RO, reset 0x0. Frames and CUFFSETs rejected in the session -/
def F.CFG_REJECTS_REJECTED : Fld := ⟨2621664, 32, 0⟩
/-- CFG_FRAME_ERR.STATUS, BAR0 offset 0x050020, bits [3:0], RO, reset 0x0. Under R361 -/
def F.CFG_FRAME_ERR_STATUS : Fld := ⟨2621696, 4, 0⟩
/-- CFG_FRAME_ERR.VALID, BAR0 offset 0x050020, bits [4:4], W1C, reset 0x0. Record valid; clearing re-arms it -/
def F.CFG_FRAME_ERR_VALID : Fld := ⟨2621700, 1, 0⟩
/-- CFG_FRAME_ERR_ADDR.ADDRESS, BAR0 offset 0x050024, bits [31:0], RO, reset 0x0. Frame address of the first rejection -/
def F.CFG_FRAME_ERR_ADDR_ADDRESS : Fld := ⟨2621728, 32, 0⟩
/-- CFG_DISCARDED.BYTES, BAR0 offset 0x050028, bits [31:0], RC, reset 0x0. Bytes discarded under R355 and R356, saturating -/
def F.CFG_DISCARDED_BYTES : Fld := ⟨2621760, 32, 0⟩
/-- CFG_DEADLINE.MS, BAR0 offset 0x050030, bits [15:0], RW, reset 0x0. Under R352 and R353 -/
def F.CFG_DEADLINE_MS : Fld := ⟨2621824, 16, 0⟩
/-- CFG_DEADLINE.FUNCS, BAR0 offset 0x050030, bits [18:16], RW, reset 0x0. Bit f − 1: user function f expected -/
def F.CFG_DEADLINE_FUNCS : Fld := ⟨2621840, 3, 0⟩
/-- CFG_KEYSLOTS.SLOT0, BAR0 offset 0x050034, bits [1:0], RO, reset 0x0. Under R365, k = 0–3 -/
def F.CFG_KEYSLOTS_SLOT0 : Fld := ⟨2621856, 2, 0⟩
/-- CFG_KEYSLOTS.SLOT1, BAR0 offset 0x050034, bits [3:2], RO, reset 0x0. Under R365, k = 0–3 -/
def F.CFG_KEYSLOTS_SLOT1 : Fld := ⟨2621858, 2, 0⟩
/-- CFG_KEYSLOTS.SLOT2, BAR0 offset 0x050034, bits [5:4], RO, reset 0x0. Under R365, k = 0–3 -/
def F.CFG_KEYSLOTS_SLOT2 : Fld := ⟨2621860, 2, 0⟩
/-- CFG_KEYSLOTS.SLOT3, BAR0 offset 0x050034, bits [7:6], RO, reset 0x0. Under R365, k = 0–3 -/
def F.CFG_KEYSLOTS_SLOT3 : Fld := ⟨2621862, 2, 0⟩
/-- CFG_KEYSLOTS.AES, BAR0 offset 0x050034, bits [8:8], RO, reset 0x0. Customer AES key programmed -/
def F.CFG_KEYSLOTS_AES : Fld := ⟨2621864, 1, 0⟩
/-- CFG_RB_ADDR.ADDRESS, BAR0 offset 0x050040, bits [31:0], RW, reset 0x0. Frame address, under R340 -/
def F.CFG_RB_ADDR_ADDRESS : Fld := ⟨2621952, 32, 0⟩
/-- CFG_RB_CTRL.GO, BAR0 offset 0x050044, bits [0:0], W1S, reset 0x0. Under R366; reads 1 while a readback runs -/
def F.CFG_RB_CTRL_GO : Fld := ⟨2621984, 1, 0⟩
/-- CFG_RB_CTRL.DONE, BAR0 offset 0x050044, bits [1:1], W1C, reset 0x0. Readback complete -/
def F.CFG_RB_CTRL_DONE : Fld := ⟨2621985, 1, 0⟩
/-- CFG_RB_CTRL.STATUS, BAR0 offset 0x050044, bits [5:2], RO, reset 0x0. Shared completion status (R15) -/
def F.CFG_RB_CTRL_STATUS : Fld := ⟨2621986, 4, 0⟩
/-- CFG_ENC_REGIONS.REGIONS, BAR0 offset 0x050050, bits [71:0], RO, reset 0x0. Bit r, under R366 -/
def F.CFG_ENC_REGIONS_REGIONS : Fld := ⟨2622080, 72, 0⟩
/-- CFG_VT_QUERY.TRACK, BAR0 offset 0x050800, bits [19:0], RW, reset 0x0. Track number t; values above 614,399 read back as NONE -/
def F.CFG_VT_QUERY_TRACK : Fld := ⟨2637824, 20, 0⟩
/-- CFG_VT_QUERY.CTX, BAR0 offset 0x050800, bits [21:20], RW, reset 0x0. Context number k -/
def F.CFG_VT_QUERY_CTX : Fld := ⟨2637844, 2, 0⟩
/-- CFG_VT_OWNER.CLAIM, BAR0 offset 0x050804, bits [1:0], RO, reset 0x0. Claim of (TRACK, CTX), under R225 -/
def F.CFG_VT_OWNER_CLAIM : Fld := ⟨2637856, 2, 0⟩
/-- CFG_VT_OWNER.DRIVEN, BAR0 offset 0x050804, bits [2:2], RO, reset 0x0. A driver holds the track now, under R228 -/
def F.CFG_VT_OWNER_DRIVEN : Fld := ⟨2637858, 1, 0⟩
/-- CFG_VT_OWNER.VALUE, BAR0 offset 0x050804, bits [3:3], RO, reset 0x0. Current track value -/
def F.CFG_VT_OWNER_VALUE : Fld := ⟨2637859, 1, 0⟩
/-- CFG_VT_STATS.CLAIMS, BAR0 offset 0x050808, bits [21:0], RO, reset 0x0. Claims not NONE, all contexts -/
def F.CFG_VT_STATS_CLAIMS : Fld := ⟨2637888, 22, 0⟩
/-- CFG_VT_STATS.REJECTS, BAR0 offset 0x05080C, bits [15:0], RC, reset 0x0. Frames rejected under R226, saturating -/
def F.CFG_VT_STATS_REJECTS : Fld := ⟨2637920, 16, 0⟩
/-- CFG_VT_STATS.UNCORR, BAR0 offset 0x05080C, bits [31:16], RC, reset 0x0. Claim-map words lost under R231, saturating -/
def F.CFG_VT_STATS_UNCORR : Fld := ⟨2637936, 16, 0⟩
/-- CFG_RB_DATAi.WORD, BAR0 offset 0x051000, bits [31:0], RO, reset 0x0. Frame read back, bytes as R339 -/
def F.CFG_RB_DATAi_WORD (i : Nat) : Fld := ⟨2654208 + (32 * i), 32, 0⟩
/-- CTX_CTRL.ENABLE, BAR0 offset 0x060000, bits [0:0], RW, reset 0x0. Points requests decided under R238; cleared under R251 -/
def F.CTX_CTRL_ENABLE : Fld := ⟨3145728, 1, 0⟩
/-- CTX_CTRL.UNCORR_STOP, BAR0 offset 0x060000, bits [1:1], RWL, reset 0x1. Under R250 -/
def F.CTX_CTRL_UNCORR_STOP : Fld := ⟨3145729, 1, 1⟩
/-- CTX_CTRL.SCRUB_EN, BAR0 offset 0x060000, bits [2:2], RWL, reset 0x1. Scrubbers run, under R249 -/
def F.CTX_CTRL_SCRUB_EN : Fld := ⟨3145730, 1, 1⟩
/-- CTX_CTRL.LOCK, BAR0 offset 0x060000, bits [31:31], W1S, reset 0x0. Locks the RWL fields of the CTX block -/
def F.CTX_CTRL_LOCK : Fld := ⟨3145759, 1, 0⟩
/-- CTX_STATUS.DRAINING, BAR0 offset 0x060004, bits [0:0], RO, reset 0x0. Under R251 -/
def F.CTX_STATUS_DRAINING : Fld := ⟨3145760, 1, 0⟩
/-- CTX_STATUS.SCRUB_MS, BAR0 offset 0x060004, bits [15:8], RO, reset 0x0. Longest last pass over the three dies, ms -/
def F.CTX_STATUS_SCRUB_MS : Fld := ⟨3145768, 8, 0⟩
/-- CTX_SCRUB_CNT.CORR, BAR0 offset 0x060008, bits [15:0], RC, reset 0x0. Words corrected, saturating -/
def F.CTX_SCRUB_CNT_CORR : Fld := ⟨3145792, 16, 0⟩
/-- CTX_SCRUB_CNT.UNCORR, BAR0 offset 0x060008, bits [31:16], RC, reset 0x0. Uncorrectable words, saturating -/
def F.CTX_SCRUB_CNT_UNCORR : Fld := ⟨3145808, 16, 0⟩
/-- CTX_REFUSED.REFUSED, BAR0 offset 0x06000C, bits [31:0], RC, reset 0x0. Refusals, all regions, saturating -/
def F.CTX_REFUSED_REFUSED : Fld := ⟨3145824, 32, 0⟩
/-- CTX_REGr_ACTIVE.CTX, BAR0 offset 0x061000, bits [1:0], RO, reset 0x0. Context in force, under R240 and R242 -/
def F.CTX_REGr_ACTIVE_CTX (r : Nat) : Fld := ⟨3178496 + (256 * r), 2, 0⟩
/-- CTX_REGr_ACTIVE.SWITCHING, BAR0 offset 0x061000, bits [2:2], RO, reset 0x0. A switch is sampled and has not yet taken effect -/
def F.CTX_REGr_ACTIVE_SWITCHING (r : Nat) : Fld := ⟨3178498 + (256 * r), 1, 0⟩
/-- CTX_REGr_ACTIVE.NEXT, BAR0 offset 0x061000, bits [4:3], RO, reset 0x0. Target of that switch -/
def F.CTX_REGr_ACTIVE_NEXT (r : Nat) : Fld := ⟨3178499 + (256 * r), 2, 0⟩
/-- CTX_REGr_PLANES.PLANES, BAR0 offset 0x061004, bits [7:0], RO, reset 0x0. Two bits per plane, under R235 -/
def F.CTX_REGr_PLANES_PLANES (r : Nat) : Fld := ⟨3178528 + (256 * r), 8, 0⟩
/-- CTX_REGr_REQ.CTX, BAR0 offset 0x061008, bits [1:0], WO, no reset value given (DESIGN CHOICE: 0). Presents a request, under R236 -/
def F.CTX_REGr_REQ_CTX (r : Nat) : Fld := ⟨3178560 + (256 * r), 2, 0⟩
/-- CTX_REGr_CLEAR.PLANES, BAR0 offset 0x06100C, bits [3:0], WO, no reset value given (DESIGN CHOICE: 0). Under R248 -/
def F.CTX_REGr_CLEAR_PLANES (r : Nat) : Fld := ⟨3178592 + (256 * r), 4, 0⟩
/-- CTX_REGr_REFUSED.REFUSED, BAR0 offset 0x061010, bits [15:0], RC, reset 0x0. Under R239, saturating -/
def F.CTX_REGr_REFUSED_REFUSED (r : Nat) : Fld := ⟨3178624 + (256 * r), 16, 0⟩
/-- CTX_REGr_REFUSED.SUPERSEDED, BAR0 offset 0x061010, bits [31:16], RC, reset 0x0. Under R237, saturating -/
def F.CTX_REGr_REFUSED_SUPERSEDED (r : Nat) : Fld := ⟨3178640 + (256 * r), 16, 0⟩
/-- CTX_REGr_SWITCHES.SWITCHES, BAR0 offset 0x061014, bits [31:0], RC, reset 0x0. Switches taken effect, saturating -/
def F.CTX_REGr_SWITCHES_SWITCHES (r : Nat) : Fld := ⟨3178656 + (256 * r), 32, 0⟩
/-- CTX_REGr_LASTREF.REASON, BAR0 offset 0x061018, bits [2:0], RO, reset 0x0. Under R238 -/
def F.CTX_REGr_LASTREF_REASON (r : Nat) : Fld := ⟨3178688 + (256 * r), 3, 0⟩
/-- CTX_REGr_LASTREF.SOURCE, BAR0 offset 0x061018, bits [5:4], RO, reset 0x0. Under R236 -/
def F.CTX_REGr_LASTREF_SOURCE (r : Nat) : Fld := ⟨3178692 + (256 * r), 2, 0⟩
/-- CTX_REGr_LASTREF.CTX, BAR0 offset 0x061018, bits [7:6], RO, reset 0x0. Context requested -/
def F.CTX_REGr_LASTREF_CTX (r : Nat) : Fld := ⟨3178694 + (256 * r), 2, 0⟩
/-- CTX_REGr_LASTREF.VALID, BAR0 offset 0x061018, bits [8:8], W1C, reset 0x0. Record valid; clearing it re-arms the capture -/
def F.CTX_REGr_LASTREF_VALID (r : Nat) : Fld := ⟨3178696 + (256 * r), 1, 0⟩
/-- FAB_CTRL.ENABLE, BAR0 offset 0x070000, bits [0:0], RW, reset 0x0. Strobe delivery and strobe wakes, under R212 and R215 -/
def F.FAB_CTRL_ENABLE : Fld := ⟨3670016, 1, 0⟩
/-- FAB_CTRL.LOCK, BAR0 offset 0x070000, bits [31:31], W1S, reset 0x0. Locks the RWL fields of the FAB block -/
def F.FAB_CTRL_LOCK : Fld := ⟨3670047, 1, 0⟩
/-- FAB_STATUS.DRAINING, BAR0 offset 0x070004, bits [0:0], RO, reset 0x0. Under R215 -/
def F.FAB_STATUS_DRAINING : Fld := ⟨3670048, 1, 0⟩
/-- FAB_STATUS.RUNNING, BAR0 offset 0x070004, bits [22:16], RO, reset 0x0. Regions in RELEASED, 0–72 -/
def F.FAB_STATUS_RUNNING : Fld := ⟨3670064, 7, 0⟩
/-- FAB_STATUS.SLEEPING, BAR0 offset 0x070004, bits [30:24], RO, reset 0x0. Regions asleep, 0–72 -/
def F.FAB_STATUS_SLEEPING : Fld := ⟨3670072, 7, 0⟩
/-- FAB_BANKb_OWN.REGION, BAR0 offset 0x070100, bits [6:0], RO, reset 0x0. Owning region -/
def F.FAB_BANKb_OWN_REGION (b : Nat) : Fld := ⟨3672064 + (32 * b), 7, 0⟩
/-- FAB_BANKb_OWN.VALID, BAR0 offset 0x070100, bits [7:7], RO, reset 0x0. The bank has an owner -/
def F.FAB_BANKb_OWN_VALID (b : Nat) : Fld := ⟨3672071 + (32 * b), 1, 0⟩
/-- FAB_BANKb_OWN.PADSTOP, BAR0 offset 0x070100, bits [8:8], RO, reset 0x0. Under R263 -/
def F.FAB_BANKb_OWN_PADSTOP (b : Nat) : Fld := ⟨3672072 + (32 * b), 1, 0⟩
/-- FAB_FUNCf_OWN.REGION, BAR0 offset 0x070130, bits [6:0], RO, reset 0x0. Owning region -/
def F.FAB_FUNCf_OWN_REGION (f : Nat) : Fld := ⟨3672448 + (32 * (f - 1)), 7, 0⟩
/-- FAB_FUNCf_OWN.VALID, BAR0 offset 0x070130, bits [7:7], RO, reset 0x0. The function has an owner -/
def F.FAB_FUNCf_OWN_VALID (f : Nat) : Fld := ⟨3672455 + (32 * (f - 1)), 1, 0⟩
/-- FAB_CUFF_QUERY.TILE, BAR0 offset 0x070200, bits [9:0], RW, reset 0x0. Tile number within the region -/
def F.FAB_CUFF_QUERY_TILE : Fld := ⟨3674112, 10, 0⟩
/-- FAB_CUFF_QUERY.REGION, BAR0 offset 0x070200, bits [16:10], RW, reset 0x0. Global region -/
def F.FAB_CUFF_QUERY_REGION : Fld := ⟨3674122, 7, 0⟩
/-- FAB_CUFF_QUERY.INDEX, BAR0 offset 0x070200, bits [24:17], RW, reset 0x0. 0–111 wire j; 112–143 endpoint e = INDEX − 112 -/
def F.FAB_CUFF_QUERY_INDEX : Fld := ⟨3674129, 8, 0⟩
/-- FAB_CUFF_RESULT.MODE, BAR0 offset 0x070204, bits [1:0], RO, reset 0x0. Configured mode, under R260 -/
def F.FAB_CUFF_RESULT_MODE : Fld := ⟨3674144, 2, 0⟩
/-- FAB_CUFF_RESULT.EFFECTIVE, BAR0 offset 0x070204, bits [3:2], RO, reset 0x0. Effective mode -/
def F.FAB_CUFF_RESULT_EFFECTIVE : Fld := ⟨3674146, 2, 0⟩
/-- FAB_CUFF_RESULT.VALUE, BAR0 offset 0x070204, bits [4:4], RO, reset 0x0. Value the cuff presents -/
def F.FAB_CUFF_RESULT_VALUE : Fld := ⟨3674148, 1, 0⟩
/-- FAB_CUFF_RESULT.EXISTS, BAR0 offset 0x070204, bits [5:5], RO, reset 0x0. The cuff exists -/
def F.FAB_CUFF_RESULT_EXISTS : Fld := ⟨3674149, 1, 0⟩
/-- FAB_REGr_STATUS.STATE, BAR0 offset 0x071000, bits [2:0], RO, reset 0x0. Under R214 -/
def F.FAB_REGr_STATUS_STATE (r : Nat) : Fld := ⟨3702784 + (512 * r), 3, 0⟩
/-- FAB_REGr_STATUS.SLEEPING, BAR0 offset 0x071000, bits [3:3], RO, reset 0x0. Under R210 -/
def F.FAB_REGr_STATUS_SLEEPING (r : Nat) : Fld := ⟨3702787 + (512 * r), 1, 0⟩
/-- FAB_REGr_STATUS.CLKRUN, BAR0 offset 0x071000, bits [7:4], RO, reset 0x0. Bit n: region clock n is ticking -/
def F.FAB_REGr_STATUS_CLKRUN (r : Nat) : Fld := ⟨3702788 + (512 * r), 4, 0⟩
/-- FAB_REGr_CTRL.AUTO_SLEEP, BAR0 offset 0x071004, bits [0:0], RW, reset 0x0. Under R210 -/
def F.FAB_REGr_CTRL_AUTO_SLEEP (r : Nat) : Fld := ⟨3702816 + (512 * r), 1, 0⟩
/-- FAB_REGr_CTRL.WAKE, BAR0 offset 0x071004, bits [1:1], W1S, reset 0x0. Wakes the region; reads 1 until it wakes -/
def F.FAB_REGr_CTRL_WAKE (r : Nat) : Fld := ⟨3702817 + (512 * r), 1, 0⟩
/-- FAB_REGr_CTRL.STOP, BAR0 offset 0x071004, bits [2:2], W1S, reset 0x0. As Region Reconfiguration and Cuffs sets out -/
def F.FAB_REGr_CTRL_STOP (r : Nat) : Fld := ⟨3702818 + (512 * r), 1, 0⟩
/-- FAB_REGr_CTRL.START, BAR0 offset 0x071004, bits [3:3], W1S, reset 0x0. As Region Reconfiguration and Cuffs sets out -/
def F.FAB_REGr_CTRL_START (r : Nat) : Fld := ⟨3702819 + (512 * r), 1, 0⟩
/-- FAB_REGr_CLK.SEL0, BAR0 offset 0x071008, bits [3:0], RWL, reset 0x0. Global clock of region clock 0, under R209 -/
def F.FAB_REGr_CLK_SEL0 (r : Nat) : Fld := ⟨3702848 + (512 * r), 4, 0⟩
/-- FAB_REGr_CLK.SEL1, BAR0 offset 0x071008, bits [7:4], RWL, reset 0x1. Region clock 1 -/
def F.FAB_REGr_CLK_SEL1 (r : Nat) : Fld := ⟨3702852 + (512 * r), 4, 1⟩
/-- FAB_REGr_CLK.SEL2, BAR0 offset 0x071008, bits [11:8], RWL, reset 0x2. Region clock 2 -/
def F.FAB_REGr_CLK_SEL2 (r : Nat) : Fld := ⟨3702856 + (512 * r), 4, 2⟩
/-- FAB_REGr_CLK.SEL3, BAR0 offset 0x071008, bits [15:12], RWL, reset 0x3. Region clock 3 -/
def F.FAB_REGr_CLK_SEL3 (r : Nat) : Fld := ⟨3702860 + (512 * r), 4, 3⟩
/-- FAB_REGr_CLK.EN, BAR0 offset 0x071008, bits [19:16], RWL, reset 0xF. Bit n enables region clock n -/
def F.FAB_REGr_CLK_EN (r : Nat) : Fld := ⟨3702864 + (512 * r), 4, 15⟩
/-- FAB_REGr_STBk.LINE, BAR0 offset 0x071010, bits [7:0], RW, reset 0x0. Strobe line, under R211 -/
def F.FAB_REGr_STBk_LINE (r : Nat) (k : Nat) : Fld := ⟨3702912 + (512 * r + 32 * k), 8, 0⟩
/-- FAB_REGr_STBk.CLKSEL, BAR0 offset 0x071010, bits [9:8], RW, reset 0x0. Region clock of presentation -/
def F.FAB_REGr_STBk_CLKSEL (r : Nat) (k : Nat) : Fld := ⟨3702920 + (512 * r + 32 * k), 2, 0⟩
/-- FAB_REGr_STBk.EN, BAR0 offset 0x071010, bits [10:10], RW, reset 0x0. Input enabled -/
def F.FAB_REGr_STBk_EN (r : Nat) (k : Nat) : Fld := ⟨3702922 + (512 * r + 32 * k), 1, 0⟩
/-- FAB_REGr_STB_CNT.MERGED, BAR0 offset 0x071030, bits [15:0], RC, reset 0x0. Under R212, saturating -/
def F.FAB_REGr_STB_CNT_MERGED (r : Nat) : Fld := ⟨3703168 + (512 * r), 16, 0⟩
/-- FAB_REGr_STB_CNT.DISC, BAR0 offset 0x071030, bits [31:16], RC, reset 0x0. Under R212, saturating -/
def F.FAB_REGr_STB_CNT_DISC (r : Nat) : Fld := ⟨3703184 + (512 * r), 16, 0⟩
/-- FAB_REGr_BMERR.CORR, BAR0 offset 0x071034, bits [15:0], RC, reset 0x0. Corrected block-memory reads, saturating -/
def F.FAB_REGr_BMERR_CORR (r : Nat) : Fld := ⟨3703200 + (512 * r), 16, 0⟩
/-- FAB_REGr_BMERR.UNCORR, BAR0 offset 0x071034, bits [31:16], RC, reset 0x0. Under R203, saturating -/
def F.FAB_REGr_BMERR_UNCORR (r : Nat) : Fld := ⟨3703216 + (512 * r), 16, 0⟩
/-- FAB_REGr_QERR.QERR, BAR0 offset 0x071038, bits [15:0], RC, reset 0x0. ERR pulses under R204, saturating -/
def F.FAB_REGr_QERR_QERR (r : Nat) : Fld := ⟨3703232 + (512 * r), 16, 0⟩
/-- FAB_REGr_WAKES.WAKES, BAR0 offset 0x07103C, bits [31:0], RC, reset 0x0. Wakes under R210, saturating -/
def F.FAB_REGr_WAKES_WAKES (r : Nat) : Fld := ⟨3703264 + (512 * r), 32, 0⟩
/-- FAB_REGr_RC.RETURN, BAR0 offset 0x074000, bits [2:0], RO, reset 0x0. State encoded as R214; valid while LOADING -/
def F.FAB_REGr_RC_RETURN (r : Nat) : Fld := ⟨3801088 + (128 * r), 3, 0⟩
/-- FAB_REGr_RC.STAGED, BAR0 offset 0x074000, bits [3:3], RO, reset 0x0. Cuff frames are staged under R261 -/
def F.FAB_REGr_RC_STAGED (r : Nat) : Fld := ⟨3801091 + (128 * r), 1, 0⟩
/-- FAB_REGr_RC.REFUSED, BAR0 offset 0x074000, bits [15:8], RC, reset 0x0. Under R258, saturating -/
def F.FAB_REGr_RC_REFUSED (r : Nat) : Fld := ⟨3801096 + (128 * r), 8, 0⟩
/-- TT_CTRL.ENABLE, BAR0 offset 0x080000, bits [0:0], RW, reset 0x0. Under R53 and R69 -/
def F.TT_CTRL_ENABLE : Fld := ⟨4194304, 1, 0⟩
/-- TT_CTRL.SRC_EN, BAR0 offset 0x080000, bits [4:1], RW, reset 0xF. Bit 1 FABRIC, bit 2 ENGINE, bit 3 HOST, bit 4 TRUNK; 0 refuses that class with DISABLED. REQUEUE has no bit and is never refused by SRC_EN -/
def F.TT_CTRL_SRC_EN : Fld := ⟨4194305, 4, 15⟩
/-- TT_CTRL.REMOTE_INT, BAR0 offset 0x080000, bits [5:5], RWL, reset 0x0. 1: remote inserts may carry internal entries -/
def F.TT_CTRL_REMOTE_INT : Fld := ⟨4194309, 1, 0⟩
/-- TT_CTRL.LOCK, BAR0 offset 0x080000, bits [31:31], W1S, reset 0x0. Locks the RWL fields of the TT block -/
def F.TT_CTRL_LOCK : Fld := ⟨4194335, 1, 0⟩
/-- TT_STATUS.DRAINING, BAR0 offset 0x080004, bits [0:0], RO, reset 0x0. Under R13 -/
def F.TT_STATUS_DRAINING : Fld := ⟨4194336, 1, 0⟩
/-- TT_STATUS.READY, BAR0 offset 0x080004, bits [1:1], RO, reset 0x0. Initialisation complete -/
def F.TT_STATUS_READY : Fld := ⟨4194337, 1, 0⟩
/-- TT_STATUS.RESERVED, BAR0 offset 0x080004, bits [2:2], RO, reset 0x0. Partition reserved, under R52 -/
def F.TT_STATUS_RESERVED : Fld := ⟨4194338, 1, 0⟩
/-- TT_STATUS.FLUSHING, BAR0 offset 0x080004, bits [3:3], RO, reset 0x0. A flush is running -/
def F.TT_STATUS_FLUSHING : Fld := ⟨4194339, 1, 0⟩
/-- TT_STATUS.CFG_ERR, BAR0 offset 0x080004, bits [4:4], W1C, reset 0x0. Enable refused under R53 -/
def F.TT_STATUS_CFG_ERR : Fld := ⟨4194340, 1, 0⟩
/-- TT_SIZE.ENTRIES, BAR0 offset 0x080008, bits [1:0], RW, reset 0x0. Under R51 and R54 -/
def F.TT_SIZE_ENTRIES : Fld := ⟨4194368, 2, 0⟩
/-- TT_USED.USED, BAR0 offset 0x08000C, bits [21:0], RO, reset 0x0. Slots holding entries -/
def F.TT_USED_USED : Fld := ⟨4194400, 22, 0⟩
/-- TT_PEAK.PEAK, BAR0 offset 0x080010, bits [21:0], RC, reset 0x0. Highest value USED has reached -/
def F.TT_PEAK_PEAK : Fld := ⟨4194432, 22, 0⟩
/-- TT_RETIRED.RETIRED, BAR0 offset 0x080014, bits [21:0], RO, reset 0x0. Slots retired under R71 -/
def F.TT_RETIRED_RETIRED : Fld := ⟨4194464, 22, 0⟩
/-- TT_HIN.ENTRY, BAR0 offset 0x080020, bits [127:0], WO, no reset value given (DESIGN CHOICE: 0). Entry to insert -/
def F.TT_HIN_ENTRY : Fld := ⟨4194560, 128, 0⟩
/-- TT_HIN_GO.TAG, BAR0 offset 0x080030, bits [8:0], WO, no reset value given (DESIGN CHOICE: 0). Presents TT_HIN with this tag, under R61 -/
def F.TT_HIN_GO_TAG : Fld := ⟨4194688, 9, 0⟩
/-- TT_HCQ_STATUS.COUNT, BAR0 offset 0x080034, bits [9:0], RO, reset 0x0. Unread records, 0–512 -/
def F.TT_HCQ_STATUS_COUNT : Fld := ⟨4194720, 10, 0⟩
/-- TT_HCQ_STATUS.CREDITS, BAR0 offset 0x080034, bits [25:16], RO, reset 0x200. Host insertions that may still be presented -/
def F.TT_HCQ_STATUS_CREDITS : Fld := ⟨4194736, 10, 512⟩
/-- TT_HCQ_DROPS.DROPS, BAR0 offset 0x080038, bits [15:0], RC, reset 0x0. Commits discarded for lack of credit, saturating -/
def F.TT_HCQ_DROPS_DROPS : Fld := ⟨4194752, 16, 0⟩
/-- TT_HCQ.RECORD, BAR0 offset 0x08003C, bits [31:0], RC, reset 0xFFFFFFFF. The oldest unread record, removed by the read; 0xFFFF_FFFF when the queue is empty -/
def F.TT_HCQ_RECORD : Fld := ⟨4194784, 32, 4294967295⟩
/-- TT_FLUSH.AXIS, BAR0 offset 0x080040, bits [3:0], RW, reset 0x0. Axis to flush -/
def F.TT_FLUSH_AXIS : Fld := ⟨4194816, 4, 0⟩
/-- TT_FLUSH.MODE, BAR0 offset 0x080040, bits [5:4], RW, reset 0x0. Under R68 -/
def F.TT_FLUSH_MODE : Fld := ⟨4194820, 2, 0⟩
/-- TT_FLUSH.REV, BAR0 offset 0x080040, bits [15:8], RW, reset 0x0. Revolution tag for AXIS_REV -/
def F.TT_FLUSH_REV : Fld := ⟨4194824, 8, 0⟩
/-- TT_FLUSH.GO, BAR0 offset 0x080040, bits [31:31], W1S, reset 0x0. Starts the flush; reads 1 while FLUSHING -/
def F.TT_FLUSH_GO : Fld := ⟨4194847, 1, 0⟩
/-- TT_FLUSH_CNT.COUNT, BAR0 offset 0x080044, bits [21:0], RC, reset 0x0. Entries removed by the last flush -/
def F.TT_FLUSH_CNT_COUNT : Fld := ⟨4194848, 22, 0⟩
/-- TT_CNT_OK.COUNT, BAR0 offset 0x080050, bits [31:0], RC, reset 0x0. Insertions completed OK -/
def F.TT_CNT_OK_COUNT : Fld := ⟨4194944, 32, 0⟩
/-- TT_CNT_LATE.COUNT, BAR0 offset 0x080054, bits [31:0], RC, reset 0x0. Insertions completed LATE -/
def F.TT_CNT_LATE_COUNT : Fld := ⟨4194976, 32, 0⟩
/-- TT_CNT_FULL.COUNT, BAR0 offset 0x080058, bits [31:0], RC, reset 0x0. Insertions completed FULL -/
def F.TT_CNT_FULL_COUNT : Fld := ⟨4195008, 32, 0⟩
/-- TT_CNT_DECODE.COUNT, BAR0 offset 0x08005C, bits [31:0], RC, reset 0x0. Insertions completed DECODE -/
def F.TT_CNT_DECODE_COUNT : Fld := ⟨4195040, 32, 0⟩
/-- TT_CNT_OTHER.COUNT, BAR0 offset 0x080060, bits [31:0], RC, reset 0x0. Insertions with any other status, and REQUEUE entries lost under R69 -/
def F.TT_CNT_OTHER_COUNT : Fld := ⟨4195072, 32, 0⟩
/-- TT_CNT_LOST.COUNT, BAR0 offset 0x080064, bits [31:0], RC, reset 0x0. Entries lost under R71 -/
def F.TT_CNT_LOST_COUNT : Fld := ⟨4195104, 32, 0⟩
/-- TT_TRAP.ENTRY, BAR0 offset 0x080070, bits [127:0], RO, reset 0x0. First entry trapped since VALID was cleared -/
def F.TT_TRAP_ENTRY : Fld := ⟨4195200, 128, 0⟩
/-- TT_TRAP_INFO.VALID, BAR0 offset 0x080080, bits [0:0], W1C, reset 0x0. ENTRY holds a trapped entry; clearing it re-arms the capture -/
def F.TT_TRAP_INFO_VALID : Fld := ⟨4195328, 1, 0⟩
/-- TT_TRAP_INFO.CLASS, BAR0 offset 0x080080, bits [3:1], RO, reset 0x0. Source class of the entry, by the codes in R60 -/
def F.TT_TRAP_INFO_CLASS : Fld := ⟨4195329, 3, 0⟩
/-- TT_TRAP_INFO.LOST, BAR0 offset 0x080080, bits [15:8], RC, reset 0x0. Traps not captured, saturating -/
def F.TT_TRAP_INFO_LOST : Fld := ⟨4195336, 8, 0⟩
/-- TT_AXn_FRONT.BUCKET, BAR0 offset 0x080200, bits [11:0], RO, reset 0x0. Last bucket taken -/
def F.TT_AXn_FRONT_BUCKET (n : Nat) : Fld := ⟨4198400 + (64 * n), 12, 0⟩
/-- TT_AXn_FRONT.NONE, BAR0 offset 0x080200, bits [12:12], RO, reset 0x1. No bucket of REV taken yet -/
def F.TT_AXn_FRONT_NONE (n : Nat) : Fld := ⟨4198412 + (64 * n), 1, 1⟩
/-- TT_AXn_FRONT.REV, BAR0 offset 0x080200, bits [55:32], RO, reset 0x0. Revolution W; reading the lower word latches the upper -/
def F.TT_AXn_FRONT_REV (n : Nat) : Fld := ⟨4198432 + (64 * n), 24, 0⟩
/-- TT_FPn_CFG.CLKSEL, BAR0 offset 0x080300, bits [3:0], RW, reset 0x0. Global user clock of the port's die used as the port clock -/
def F.TT_FPn_CFG_CLKSEL (n : Nat) : Fld := ⟨4200448 + (32 * n), 4, 0⟩
/-- TT_FPn_CFG.INFLIGHT, BAR0 offset 0x080300, bits [15:8], RO, reset 0x0. Insertions in flight from the port -/
def F.TT_FPn_CFG_INFLIGHT (n : Nat) : Fld := ⟨4200456 + (32 * n), 8, 0⟩
/-- TT_FPn_CFG.UNREAD, BAR0 offset 0x080300, bits [22:16], RO, reset 0x0. Records waiting in the port's completion queue -/
def F.TT_FPn_CFG_UNREAD (n : Nat) : Fld := ⟨4200464 + (32 * n), 7, 0⟩
/-- DSP_CTRL.ENABLE, BAR0 offset 0x090000, bits [0:0], RW, reset 0x0. Under R96 and R13 -/
def F.DSP_CTRL_ENABLE : Fld := ⟨4718592, 1, 0⟩
/-- DSP_CTRL.GRPFAIL_STOP, BAR0 offset 0x090000, bits [1:1], RWL, reset 0x0. 1: R91 applies -/
def F.DSP_CTRL_GRPFAIL_STOP : Fld := ⟨4718593, 1, 0⟩
/-- DSP_CTRL.LOCK, BAR0 offset 0x090000, bits [31:31], W1S, reset 0x0. Locks the RWL fields of the DSP block -/
def F.DSP_CTRL_LOCK : Fld := ⟨4718623, 1, 0⟩
/-- DSP_STATUS.DRAINING, BAR0 offset 0x090004, bits [0:0], RO, reset 0x0. Under R96 -/
def F.DSP_STATUS_DRAINING : Fld := ⟨4718624, 1, 0⟩
/-- DSP_STATUS.BSTOP, BAR0 offset 0x090004, bits [2:1], RO, reset 0x2. 00 RUN, 01 STOPPING, 10 STOPPED -/
def F.DSP_STATUS_BSTOP : Fld := ⟨4718625, 2, 2⟩
/-- DSP_STATUS.STORE_USED, BAR0 offset 0x090004, bits [31:16], RO, reset 0x0. Entries in the sort store -/
def F.DSP_STATUS_STORE_USED : Fld := ⟨4718640, 16, 0⟩
/-- DSP_LEAD.LEAD, BAR0 offset 0x090008, bits [10:0], RWL, reset 0xC8. µs, 20–2,000; values outside that range are clamped to it. A write whose clamped value would be at or below DSP_COMMIT_MARGIN.MARGIN has no effect -/
def F.DSP_LEAD_LEAD : Fld := ⟨4718656, 11, 200⟩
/-- DSP_RETIME_THRESH.THRESH, BAR0 offset 0x09000C, bits [15:0], RW, reset 0x10. ns, under R81 -/
def F.DSP_RETIME_THRESH_THRESH : Fld := ⟨4718688, 16, 16⟩
/-- DSP_COMMIT_MARGIN.MARGIN, BAR0 offset 0x090010, bits [10:0], RWL, reset 0x14. µs; a write of a value at or above DSP_LEAD.LEAD has no effect -/
def F.DSP_COMMIT_MARGIN_MARGIN : Fld := ⟨4718720, 11, 20⟩
/-- DSP_BSTOP.REQ, BAR0 offset 0x090014, bits [0:0], W1S, reset 0x0. Triggers the buffer stop; reads 1 until CLEAR is accepted -/
def F.DSP_BSTOP_REQ : Fld := ⟨4718752, 1, 0⟩
/-- DSP_BSTOP.CLEAR, BAR0 offset 0x090014, bits [1:1], WO, no reset value given (DESIGN CHOICE: 0). Requests exit under R94 -/
def F.DSP_BSTOP_CLEAR : Fld := ⟨4718753, 1, 0⟩
/-- DSP_BSTOP.CAUSE, BAR0 offset 0x090014, bits [8:2], RO, reset 0x40. Bits of active or latched triggers: 2 HOST, 3 THERM, 4 FREEZE, 5 RING_TIME, 6 AXIS_LOST, 7 GROUPS, 8 RESET -/
def F.DSP_BSTOP_CAUSE : Fld := ⟨4718754, 7, 64⟩
/-- DSP_GRPFAIL_LIMIT.COUNT, BAR0 offset 0x090018, bits [7:0], RWL, reset 0x4. Failures, under R91; 0 never triggers -/
def F.DSP_GRPFAIL_LIMIT_COUNT : Fld := ⟨4718784, 8, 4⟩
/-- DSP_GRPFAIL_LIMIT.WINDOW, BAR0 offset 0x090018, bits [23:8], RWL, reset 0x3E8. ms, under R91; 0 is treated as 1 -/
def F.DSP_GRPFAIL_LIMIT_WINDOW : Fld := ⟨4718792, 16, 1000⟩
/-- DSP_RAILr_CFG.ENABLE, BAR0 offset 0x090100, bits [0:0], RWL, reset 0x0. Ration the rail -/
def F.DSP_RAILr_CFG_ENABLE (r : Nat) : Fld := ⟨4720640 + (512 * r), 1, 0⟩
/-- DSP_RAILr_CFG.UNIT, BAR0 offset 0x090100, bits [7:1], RWL, reset 0x1. mA per unit, 1–100 -/
def F.DSP_RAILr_CFG_UNIT (r : Nat) : Fld := ⟨4720641 + (512 * r), 7, 1⟩
/-- DSP_RAILr_CFG.WINDOW, BAR0 offset 0x090100, bits [18:8], RWL, reset 0x1. µs, 1–1,024 -/
def F.DSP_RAILr_CFG_WINDOW (r : Nat) : Fld := ⟨4720648 + (512 * r), 11, 1⟩
/-- DSP_RAILr_CEIL.CEIL, BAR0 offset 0x090104, bits [23:0], RWL, reset 0x0. Level ceiling, units -/
def F.DSP_RAILr_CEIL_CEIL (r : Nat) : Fld := ⟨4720672 + (512 * r), 24, 0⟩
/-- DSP_RAILr_STEP.STEP, BAR0 offset 0x090108, bits [23:0], RWL, reset 0x0. Step limit, units -/
def F.DSP_RAILr_STEP_STEP (r : Nat) : Fld := ⟨4720704 + (512 * r), 24, 0⟩
/-- DSP_RAILr_RESERVE.RESERVE, BAR0 offset 0x09010C, bits [15:0], RWL, reset 0x0. PRIO 3 reserve, units -/
def F.DSP_RAILr_RESERVE_RESERVE (r : Nat) : Fld := ⟨4720736 + (512 * r), 16, 0⟩
/-- DSP_RAILr_LEVEL.LEVEL, BAR0 offset 0x090110, bits [23:0], RO, reset 0x0. Level at the current ring time -/
def F.DSP_RAILr_LEVEL_LEVEL (r : Nat) : Fld := ⟨4720768 + (512 * r), 24, 0⟩
/-- DSP_RAILr_PEAK.PEAK, BAR0 offset 0x090114, bits [23:0], RC, reset 0x0. Highest level admitted -/
def F.DSP_RAILr_PEAK_PEAK (r : Nat) : Fld := ⟨4720800 + (512 * r), 24, 0⟩
/-- DSP_RAILr_DEFER.DEFERRED, BAR0 offset 0x090118, bits [31:0], RC, reset 0x0. Entries deferred at least once -/
def F.DSP_RAILr_DEFER_DEFERRED (r : Nat) : Fld := ⟨4720832 + (512 * r), 32, 0⟩
/-- DSP_RAILr_RATION.RATION, BAR0 offset 0x09011C, bits [31:0], RC, reset 0x0. Entries discarded with RATION -/
def F.DSP_RAILr_RATION_RATION (r : Nat) : Fld := ⟨4720864 + (512 * r), 32, 0⟩
/-- DSP_RAILr_OVERRUN.OVERRUN, BAR0 offset 0x090120, bits [31:0], RC, reset 0x0. PRIO 3 entries admitted within the reserve -/
def F.DSP_RAILr_OVERRUN_OVERRUN (r : Nat) : Fld := ⟨4720896 + (512 * r), 32, 0⟩
/-- DSP_RAIL8_CFG.ENABLE, BAR0 offset 0x090300, bits [0:0], RWL, reset 0x1. Ration VCORE steps -/
def F.DSP_RAIL8_CFG_ENABLE : Fld := ⟨4724736, 1, 1⟩
/-- DSP_RAIL8_CFG.UNIT, BAR0 offset 0x090300, bits [7:1], RWL, reset 0x64. mA of VCORE per unit -/
def F.DSP_RAIL8_CFG_UNIT : Fld := ⟨4724737, 7, 100⟩
/-- DSP_RAIL8_CFG.WINDOW, BAR0 offset 0x090300, bits [18:8], RWL, reset 0xA. µs -/
def F.DSP_RAIL8_CFG_WINDOW : Fld := ⟨4724744, 11, 10⟩
/-- DSP_RAIL8_STEP.STEP, BAR0 offset 0x090304, bits [23:0], RWL, reset 0xC8. Step limit, units -/
def F.DSP_RAIL8_STEP_STEP : Fld := ⟨4724768, 24, 200⟩
/-- DSP_RAIL8_COST.REGION_START, BAR0 offset 0x090308, bits [7:0], RWL, reset 0x8. Units per region clock start -/
def F.DSP_RAIL8_COST_REGION_START : Fld := ⟨4724800, 8, 8⟩
/-- DSP_RAIL8_COST.ENGINE_WAKE, BAR0 offset 0x090308, bits [15:8], RWL, reset 0x2. Units per engine wake-up -/
def F.DSP_RAIL8_COST_ENGINE_WAKE : Fld := ⟨4724808, 8, 2⟩
/-- DSP_RAIL8_COST.PLANE_LOAD, BAR0 offset 0x090308, bits [23:16], RWL, reset 0x4. Units per region-context load start -/
def F.DSP_RAIL8_COST_PLANE_LOAD : Fld := ⟨4724816, 8, 4⟩
/-- DSP_RAIL8_STATUS.WAITING, BAR0 offset 0x09030C, bits [15:0], RO, reset 0x0. Requests waiting -/
def F.DSP_RAIL8_STATUS_WAITING : Fld := ⟨4724832, 16, 0⟩
/-- DSP_RAIL8_STATUS.OVER, BAR0 offset 0x09030C, bits [31:16], RC, reset 0x0. Overruns, saturating -/
def F.DSP_RAIL8_STATUS_OVER : Fld := ⟨4724848, 16, 0⟩
/-- DSP_PORTp_LAT.LAT, BAR0 offset 0x090400, bits [19:0], RO, reset 0x0. Delivery latency, ns -/
def F.DSP_PORTp_LAT_LAT (p : Nat) : Fld := ⟨4726784 + (256 * p), 20, 0⟩
/-- DSP_PORTp_RTT.RTT, BAR0 offset 0x090404, bits [19:0], RO, reset 0x0. Round trip to the farthest module, ns -/
def F.DSP_PORTp_RTT_RTT (p : Nat) : Fld := ⟨4726816 + (256 * p), 20, 0⟩
/-- DSP_PORTp_JOURNAL.USED, BAR0 offset 0x090408, bits [12:0], RO, reset 0x0. Journal items -/
def F.DSP_PORTp_JOURNAL_USED (p : Nat) : Fld := ⟨4726848 + (256 * p), 13, 0⟩
/-- DSP_PORTp_JOURNAL.OUTSTANDING, BAR0 offset 0x090408, bits [28:16], RO, reset 0x0. Outstanding consists -/
def F.DSP_PORTp_JOURNAL_OUTSTANDING (p : Nat) : Fld := ⟨4726864 + (256 * p), 13, 0⟩
/-- DSP_PORTp_REPLAY.REPLAYED, BAR0 offset 0x09040C, bits [31:0], RC, reset 0x0. Items replayed -/
def F.DSP_PORTp_REPLAY_REPLAYED (p : Nat) : Fld := ⟨4726880 + (256 * p), 32, 0⟩
/-- DSP_PORTp_MISSED.MISSED, BAR0 offset 0x090410, bits [31:0], RC, reset 0x0. Missed-consist records -/
def F.DSP_PORTp_MISSED_MISSED (p : Nat) : Fld := ⟨4726912 + (256 * p), 32, 0⟩
/-- DSP_GRP_FB.FB, BAR0 offset 0x090500, bits [255:0], RW, reset 0x0. Bit g: fallback of group g, under R89 -/
def F.DSP_GRP_FB_FB : Fld := ⟨4728832, 256, 0⟩
/-- DSP_GRP_RING.BASE, BAR0 offset 0x090520, bits [47:0], RWL, reset 0x0. Device address of the ring. Bits [18:0] read 0 and ignore writes, so the ring is always 512 KiB aligned. A write that would place any part of the ring outside the plain memory-die range (R266) has no effect. The reset value places the ring at M1 offset 0 -/
def F.DSP_GRP_RING_BASE : Fld := ⟨4729088, 48, 0⟩
/-- DSP_GRP_WP.WP, BAR0 offset 0x090528, bits [5:0], RO, reset 0x0. Next slot to be written -/
def F.DSP_GRP_WP_WP : Fld := ⟨4729152, 6, 0⟩
/-- DSP_GRP_RP.RP, BAR0 offset 0x09052C, bits [5:0], RW, reset 0x0. Next slot the host driver reads -/
def F.DSP_GRP_RP_RP : Fld := ⟨4729184, 6, 0⟩
/-- DSP_GRP_DROPPED.DROPPED, BAR0 offset 0x090530, bits [15:0], RC, reset 0x0. Records not written, saturating -/
def F.DSP_GRP_DROPPED_DROPPED : Fld := ⟨4729216, 16, 0⟩
/-- DSP_TRAP.ENTRY, BAR0 offset 0x090600, bits [127:0], RO, reset 0x0. First entry trapped at dispatch since VALID was cleared -/
def F.DSP_TRAP_ENTRY : Fld := ⟨4730880, 128, 0⟩
/-- DSP_TRAP_INFO.VALID, BAR0 offset 0x090610, bits [0:0], W1C, reset 0x0. ENTRY is valid; clearing it re-arms the capture -/
def F.DSP_TRAP_INFO_VALID : Fld := ⟨4731008, 1, 0⟩
/-- DSP_TRAP_INFO.LOST, BAR0 offset 0x090610, bits [15:8], RC, reset 0x0. Traps not captured, saturating -/
def F.DSP_TRAP_INFO_LOST : Fld := ⟨4731016, 8, 0⟩
/-- DSP_CNT_FIRED.COUNT, BAR0 offset 0x090700, bits [31:0], RC, reset 0x0. Entries ending OK -/
def F.DSP_CNT_FIRED_COUNT : Fld := ⟨4732928, 32, 0⟩
/-- DSP_CNT_LATE.COUNT, BAR0 offset 0x090704, bits [31:0], RC, reset 0x0. Entries ending LATE -/
def F.DSP_CNT_LATE_COUNT : Fld := ⟨4732960, 32, 0⟩
/-- DSP_CNT_DECODE.COUNT, BAR0 offset 0x090708, bits [31:0], RC, reset 0x0. Entries ending DECODE -/
def F.DSP_CNT_DECODE_COUNT : Fld := ⟨4732992, 32, 0⟩
/-- DSP_CNT_DENIED.COUNT, BAR0 offset 0x09070C, bits [31:0], RC, reset 0x0. Entries ending DENIED -/
def F.DSP_CNT_DENIED_COUNT : Fld := ⟨4733024, 32, 0⟩
/-- DSP_CNT_DISABLED.COUNT, BAR0 offset 0x090710, bits [31:0], RC, reset 0x0. Entries ending DISABLED -/
def F.DSP_CNT_DISABLED_COUNT : Fld := ⟨4733056, 32, 0⟩
/-- DSP_CNT_GROUP_FAIL.COUNT, BAR0 offset 0x090714, bits [31:0], RC, reset 0x0. Entries ending GROUP_FAIL -/
def F.DSP_CNT_GROUP_FAIL_COUNT : Fld := ⟨4733088, 32, 0⟩
/-- DSP_CNT_RATION.COUNT, BAR0 offset 0x090718, bits [31:0], RC, reset 0x0. Entries ending RATION, all rails -/
def F.DSP_CNT_RATION_COUNT : Fld := ⟨4733120, 32, 0⟩
/-- DSP_CNT_RETIME_MISS.COUNT, BAR0 offset 0x09071C, bits [31:0], RC, reset 0x0. Consists under R81 -/
def F.DSP_CNT_RETIME_MISS_COUNT : Fld := ⟨4733152, 32, 0⟩
/-- DSP_CNT_REQUEUE_LOST.COUNT, BAR0 offset 0x090720, bits [31:0], RC, reset 0x0. NEXT entries not re-queued -/
def F.DSP_CNT_REQUEUE_LOST_COUNT : Fld := ⟨4733184, 32, 0⟩
/-- DSP_CNT_INT_SLIP.COUNT, BAR0 offset 0x090724, bits [31:0], RC, reset 0x0. Internal entries moved to a later slot -/
def F.DSP_CNT_INT_SLIP_COUNT : Fld := ⟨4733216, 32, 0⟩
/-- ANG_CTRL.ENABLE, BAR0 offset 0x0A0000, bits [0:0], RW, reset 0x0. Enables the axes, under R38 -/
def F.ANG_CTRL_ENABLE : Fld := ⟨5242880, 1, 0⟩
/-- ANG_CTRL.LOST_STOP, BAR0 offset 0x0A0000, bits [1:1], RWL, reset 0x0. 1: an axis entering LOST triggers the buffer stop -/
def F.ANG_CTRL_LOST_STOP : Fld := ⟨5242881, 1, 0⟩
/-- ANG_CTRL.LOCK, BAR0 offset 0x0A0000, bits [31:31], W1S, reset 0x0. Locks the RWL fields of the ANG block -/
def F.ANG_CTRL_LOCK : Fld := ⟨5242911, 1, 0⟩
/-- ANG_STATUS.DRAINING, BAR0 offset 0x0A0004, bits [0:0], RO, reset 0x0. Under R13 -/
def F.ANG_STATUS_DRAINING : Fld := ⟨5242912, 1, 0⟩
/-- ANG_STATUS.RT_VALID, BAR0 offset 0x0A0004, bits [1:1], RO, reset 0x0. Ring time valid -/
def F.ANG_STATUS_RT_VALID : Fld := ⟨5242913, 1, 0⟩
/-- ANG_STATUS.RT_STATE, BAR0 offset 0x0A0004, bits [4:2], RO, reset 0x0. 000 STOPPED, 001 FREE, 010 ACQ_FREQ, 011 ACQ_PHASE, 100 LOCKED, 101 HOLDOVER -/
def F.ANG_STATUS_RT_STATE : Fld := ⟨5242914, 3, 0⟩
/-- ANG_STATUS.HOPS, BAR0 offset 0x0A0004, bits [15:8], RO, reset 0x0. Hops from the master; 0 on the master -/
def F.ANG_STATUS_HOPS : Fld := ⟨5242920, 8, 0⟩
/-- ANG_STATUS.RT_ERR, BAR0 offset 0x0A0004, bits [31:16], RO, reset 0x0. Last phase error, signed, in units of 0.25 ns -/
def F.ANG_STATUS_RT_ERR : Fld := ⟨5242928, 16, 0⟩
/-- ANG_RTM_ROLE.ROLE, BAR0 offset 0x0A0008, bits [1:0], RWL, reset 0x0. Under R39 -/
def F.ANG_RTM_ROLE_ROLE : Fld := ⟨5242944, 2, 0⟩
/-- ANG_RTM_ROLE.RCLK_LANE, BAR0 offset 0x0A0008, bits [6:4], RWL, reset 0x0. Lane 0–7 from which RCLK and ring time are recovered -/
def F.ANG_RTM_ROLE_RCLK_LANE : Fld := ⟨5242948, 3, 0⟩
/-- ANG_RT.TIME, BAR0 offset 0x0A0010, bits [63:0], RO, reset 0x0. Current ring time in ns; reading the lower word latches the upper word -/
def F.ANG_RT_TIME : Fld := ⟨5243008, 64, 0⟩
/-- ANG_RT_SET.START, BAR0 offset 0x0A0018, bits [63:0], RWL, reset 0x0. Loaded into ring time when ROLE is written MASTER -/
def F.ANG_RT_SET_START : Fld := ⟨5243072, 64, 0⟩
/-- ANG_RT_TIMING.SYNC_TIMEOUT, BAR0 offset 0x0A0020, bits [15:0], RWL, reset 0x64. µs without a ring-time flit before HOLDOVER; minimum 16 -/
def F.ANG_RT_TIMING_SYNC_TIMEOUT : Fld := ⟨5243136, 16, 100⟩
/-- ANG_RT_TIMING.HOLDOVER, BAR0 offset 0x0A0020, bits [31:16], RWL, reset 0x3E8. µs of holdover before loss of ring time -/
def F.ANG_RT_TIMING_HOLDOVER : Fld := ⟨5243152, 16, 1000⟩
/-- ANG_PTM_CTRL.CAPTURE, BAR0 offset 0x0A0030, bits [0:0], W1S, reset 0x0. Starts a capture, under R45 -/
def F.ANG_PTM_CTRL_CAPTURE : Fld := ⟨5243264, 1, 0⟩
/-- ANG_PTM_CTRL.DONE, BAR0 offset 0x0A0030, bits [1:1], W1C, reset 0x0. Capture complete -/
def F.ANG_PTM_CTRL_DONE : Fld := ⟨5243265, 1, 0⟩
/-- ANG_PTM_HOST.HOST_TIME, BAR0 offset 0x0A0038, bits [63:0], RO, reset 0x0. Host PTM time -/
def F.ANG_PTM_HOST_HOST_TIME : Fld := ⟨5243328, 64, 0⟩
/-- ANG_PTM_RT.RING_TIME, BAR0 offset 0x0A0040, bits [63:0], RO, reset 0x0. Ring time at the same instant -/
def F.ANG_PTM_RT_RING_TIME : Fld := ⟨5243392, 64, 0⟩
/-- ANG_ENCk_CFG.MODE, BAR0 offset 0x0A0100, bits [0:0], RW, reset 0x0. 0 quadrature, 1 SSI -/
def F.ANG_ENCk_CFG_MODE (k : Nat) : Fld := ⟨5244928 + (128 * k), 1, 0⟩
/-- ANG_ENCk_CFG.ZREQ, BAR0 offset 0x0A0100, bits [1:1], RW, reset 0x1. Z required and used to zero the count -/
def F.ANG_ENCk_CFG_ZREQ (k : Nat) : Fld := ⟨5244929 + (128 * k), 1, 1⟩
/-- ANG_ENCk_CFG.DIR, BAR0 offset 0x0A0100, bits [2:2], RW, reset 0x0. 1 reverses the counting direction -/
def F.ANG_ENCk_CFG_DIR (k : Nat) : Fld := ⟨5244930 + (128 * k), 1, 0⟩
/-- ANG_ENCk_CFG.SSI_BITS, BAR0 offset 0x0A0100, bits [8:3], RW, reset 0xD. Position bits, 10–32 -/
def F.ANG_ENCk_CFG_SSI_BITS (k : Nat) : Fld := ⟨5244931 + (128 * k), 6, 13⟩
/-- ANG_ENCk_CFG.SSI_GRAY, BAR0 offset 0x0A0100, bits [9:9], RW, reset 0x1. Position word is Gray-coded -/
def F.ANG_ENCk_CFG_SSI_GRAY (k : Nat) : Fld := ⟨5244937 + (128 * k), 1, 1⟩
/-- ANG_ENCk_CFG.SSI_DIV, BAR0 offset 0x0A0100, bits [23:16], RW, reset 0x18. SSI clock = 50 MHz / (SSI_DIV + 1) -/
def F.ANG_ENCk_CFG_SSI_DIV (k : Nat) : Fld := ⟨5244944 + (128 * k), 8, 24⟩
/-- ANG_ENCk_CFG.FILTER, BAR0 offset 0x0A0100, bits [27:24], RW, reset 0x2. Glitch filter, in steps of 20 ns -/
def F.ANG_ENCk_CFG_FILTER (k : Nat) : Fld := ⟨5244952 + (128 * k), 4, 2⟩
/-- ANG_ENCk_CPR.CPR, BAR0 offset 0x0A0104, bits [23:0], RW, reset 0x1000. Counts per revolution, 4 to 16,777,215 -/
def F.ANG_ENCk_CPR_CPR (k : Nat) : Fld := ⟨5244960 + (128 * k), 24, 4096⟩
/-- ANG_ENCk_SSIPER.SSIPER, BAR0 offset 0x0A0108, bits [11:0], RW, reset 0x64. SSI period in units of 0.1 us, minimum 0x00A -/
def F.ANG_ENCk_SSIPER_SSIPER (k : Nat) : Fld := ⟨5244992 + (128 * k), 12, 100⟩
/-- ANG_AXn_CFG.ENABLE, BAR0 offset 0x0A1000, bits [0:0], RW, reset 0x0. Axis enable -/
def F.ANG_AXn_CFG_ENABLE (n : Nat) : Fld := ⟨5275648 + (512 * n), 1, 0⟩
/-- ANG_AXn_CFG.SRC, BAR0 offset 0x0A1000, bits [3:1], RW, reset 0x0. Under R29; a change while the axis is enabled acts under R36 -/
def F.ANG_AXn_CFG_SRC (n : Nat) : Fld := ⟨5275649 + (512 * n), 3, 0⟩
/-- ANG_AXn_CFG.BEACON_NODE, BAR0 offset 0x0A1000, bits [15:4], RW, reset 0x0. Node sending the beacons -/
def F.ANG_AXn_CFG_BEACON_NODE (n : Nat) : Fld := ⟨5275652 + (512 * n), 12, 0⟩
/-- ANG_AXn_CFG.BEACON_AXIS, BAR0 offset 0x0A1000, bits [19:16], RW, reset 0x0. Axis of that node -/
def F.ANG_AXn_CFG_BEACON_AXIS (n : Nat) : Fld := ⟨5275664 + (512 * n), 4, 0⟩
/-- ANG_AXn_ZERO.OFFSET, BAR0 offset 0x0A1004, bits [23:0], RW, reset 0x0. au added to the angle of an encoder source, in quadrature mode (R30) and in SSI mode (R31) -/
def F.ANG_AXn_ZERO_OFFSET (n : Nat) : Fld := ⟨5275680 + (512 * n), 24, 0⟩
/-- ANG_AXn_ACCEL.ACCEL, BAR0 offset 0x0A1008, bits [31:0], RW, reset 0x10. Velocity change limit, in ACCEL units -/
def F.ANG_AXn_ACCEL_ACCEL (n : Nat) : Fld := ⟨5275712 + (512 * n), 32, 16⟩
/-- ANG_AXn_LIMITS.ERRLIM, BAR0 offset 0x0A100C, bits [23:0], RW, reset 0x4000. Correction limit in au -/
def F.ANG_AXn_LIMITS_ERRLIM (n : Nat) : Fld := ⟨5275744 + (512 * n), 24, 16384⟩
/-- ANG_AXn_TIMEOUT.TIMEOUT, BAR0 offset 0x0A1010, bits [19:0], RW, reset 0xA. µs; 0 = none -/
def F.ANG_AXn_TIMEOUT_TIMEOUT (n : Nat) : Fld := ⟨5275776 + (512 * n), 20, 10⟩
/-- ANG_AXn_REVSET.REVSET, BAR0 offset 0x0A1014, bits [23:0], RW, reset 0x0. Revolution count at TRACK -/
def F.ANG_AXn_REVSET_REVSET (n : Nat) : Fld := ⟨5275808 + (512 * n), 24, 0⟩
/-- ANG_AXn_STAMP.STAMP, BAR0 offset 0x0A1018, bits [47:0], RO, reset 0x0. Predicted stamp; reading the lower word latches the upper -/
def F.ANG_AXn_STAMP_STAMP (n : Nat) : Fld := ⟨5275840 + (512 * n), 48, 0⟩
/-- ANG_AXn_VEL.VEL, BAR0 offset 0x0A1020, bits [31:0], RO, reset 0x0. Q8.24 au/ns -/
def F.ANG_AXn_VEL_VEL (n : Nat) : Fld := ⟨5275904 + (512 * n), 32, 0⟩
/-- ANG_AXn_STATUS.STATE, BAR0 offset 0x0A1024, bits [1:0], RO, reset 0x0. 00 OFF, 01 ACQUIRE, 10 TRACK, 11 LOST -/
def F.ANG_AXn_STATUS_STATE (n : Nat) : Fld := ⟨5275936 + (512 * n), 2, 0⟩
/-- ANG_AXn_STATUS.REVERSE, BAR0 offset 0x0A1024, bits [2:2], RO, reset 0x0. Held against backward motion -/
def F.ANG_AXn_STATUS_REVERSE (n : Nat) : Fld := ⟨5275938 + (512 * n), 1, 0⟩
/-- ANG_AXn_STATUS.CLAMPS, BAR0 offset 0x0A1024, bits [15:8], RC, reset 0x0. Clamped corrections, saturating -/
def F.ANG_AXn_STATUS_CLAMPS (n : Nat) : Fld := ⟨5275944 + (512 * n), 8, 0⟩
/-- ANG_AXn_STATUS.SLIPS, BAR0 offset 0x0A1024, bits [23:16], RC, reset 0x0. Slips, saturating -/
def F.ANG_AXn_STATUS_SLIPS (n : Nat) : Fld := ⟨5275952 + (512 * n), 8, 0⟩
/-- ANG_AXn_VIRT.STAMP, BAR0 offset 0x0A1028, bits [47:0], WO, no reset value given (DESIGN CHOICE: 0). Virtual sample; the upper-word write commits it -/
def F.ANG_AXn_VIRT_STAMP (n : Nat) : Fld := ⟨5275968 + (512 * n), 48, 0⟩
/-- ANG_AXn_VIRT_VEL.VEL, BAR0 offset 0x0A1030, bits [31:0], WO, no reset value given (DESIGN CHOICE: 0). Q8.24 au/ns of the sample -/
def F.ANG_AXn_VIRT_VEL_VEL (n : Nat) : Fld := ⟨5276032 + (512 * n), 32, 0⟩
/-- WNG_Pp_CTRL.ENABLE, BAR0 offset 0x0C0000, bits [0:0], RW, reset 0x0. Under R116 and R125 -/
def F.WNG_Pp_CTRL_ENABLE (p : Nat) : Fld := ⟨6291456 + (131072 * p), 1, 0⟩
/-- WNG_Pp_CTRL.MODE, BAR0 offset 0x0C0000, bits [1:1], RWL, reset 0x0. 0 ring, 1 trunk -/
def F.WNG_Pp_CTRL_MODE (p : Nat) : Fld := ⟨6291457 + (131072 * p), 1, 0⟩
/-- WNG_Pp_CTRL.LANES, BAR0 offset 0x0C0000, bits [2:2], RWL, reset 0x0. 0 one lane (lane 2p), 1 two lanes -/
def F.WNG_Pp_CTRL_LANES (p : Nat) : Fld := ⟨6291458 + (131072 * p), 1, 0⟩
/-- WNG_Pp_CTRL.ENUM, BAR0 offset 0x0C0000, bits [3:3], W1S, reset 0x0. Re-enumerate under R116 -/
def F.WNG_Pp_CTRL_ENUM (p : Nat) : Fld := ⟨6291459 + (131072 * p), 1, 0⟩
/-- WNG_Pp_CTRL.LOCK, BAR0 offset 0x0C0000, bits [31:31], W1S, reset 0x0. Locks the RWL fields of the port -/
def F.WNG_Pp_CTRL_LOCK (p : Nat) : Fld := ⟨6291487 + (131072 * p), 1, 0⟩
/-- WNG_Pp_STATUS.DRAINING, BAR0 offset 0x0C0004, bits [0:0], RO, reset 0x0. Under R13 -/
def F.WNG_Pp_STATUS_DRAINING (p : Nat) : Fld := ⟨6291488 + (131072 * p), 1, 0⟩
/-- WNG_Pp_STATUS.STATE, BAR0 offset 0x0C0004, bits [3:1], RO, reset 0x0. 000 DISABLED, 001 TRAINING, 010 ENUMERATING, 011 UP, 100 RECOVER -/
def F.WNG_Pp_STATUS_STATE (p : Nat) : Fld := ⟨6291489 + (131072 * p), 3, 0⟩
/-- WNG_Pp_STATUS.MODULES, BAR0 offset 0x0C0004, bits [15:8], RO, reset 0x0. Enumerated modules -/
def F.WNG_Pp_STATUS_MODULES (p : Nat) : Fld := ⟨6291496 + (131072 * p), 8, 0⟩
/-- WNG_Pp_STATUS.QUARANTINED, BAR0 offset 0x0C0004, bits [23:16], RO, reset 0x0. Quarantined modules -/
def F.WNG_Pp_STATUS_QUARANTINED (p : Nat) : Fld := ⟨6291504 + (131072 * p), 8, 0⟩
/-- WNG_Pp_ACKTO.ACKTO, BAR0 offset 0x0C0008, bits [19:0], RWL, reset 0x2710. Acknowledgement timeout, ns -/
def F.WNG_Pp_ACKTO_ACKTO (p : Nat) : Fld := ⟨6291520 + (131072 * p), 20, 10000⟩
/-- WNG_Pp_CNT_CRC.CRC, BAR0 offset 0x0C0010, bits [31:0], RC, reset 0x0. Flits received by the port and discarded under R102 or R103, return-path flits included (R109) -/
def F.WNG_Pp_CNT_CRC_CRC (p : Nat) : Fld := ⟨6291584 + (131072 * p), 32, 0⟩
/-- WNG_Pp_CNT_NAK.NAK, BAR0 offset 0x0C0014, bits [31:0], RC, reset 0x0. NAKs received -/
def F.WNG_Pp_CNT_NAK_NAK (p : Nat) : Fld := ⟨6291616 + (131072 * p), 32, 0⟩
/-- WNG_Pp_CNT_ACKTO.ACKTO, BAR0 offset 0x0C0018, bits [31:0], RC, reset 0x0. Replays under R110 -/
def F.WNG_Pp_CNT_ACKTO_ACKTO (p : Nat) : Fld := ⟨6291648 + (131072 * p), 32, 0⟩
/-- WNG_Pp_MODn.STATE, BAR0 offset 0x0C0100, bits [1:0], RO, reset 0x0. Per R117 -/
def F.WNG_Pp_MODn_STATE (p : Nat) (n : Nat) : Fld := ⟨6293504 + (131072 * p + 32 * n), 2, 0⟩
/-- WNG_Pp_MODn.REASON, BAR0 offset 0x0C0100, bits [3:2], RO, reset 0x0. 00 none, 01 no answer, 10 CRC or format, 11 signature -/
def F.WNG_Pp_MODn_REASON (p : Nat) (n : Nat) : Fld := ⟨6293506 + (131072 * p + 32 * n), 2, 0⟩
/-- WNG_Pp_MODn.MAKER, BAR0 offset 0x0C0100, bits [19:4], RO, reset 0x0. From IDENT -/
def F.WNG_Pp_MODn_MAKER (p : Nat) (n : Nat) : Fld := ⟨6293508 + (131072 * p + 32 * n), 16, 0⟩
/-- WNG_NODE_CTRL.NODE_ID, BAR0 offset 0x0C1000, bits [11:0], RWL, reset 0x0. This device's node ID -/
def F.WNG_NODE_CTRL_NODE_ID : Fld := ⟨6324224, 12, 0⟩
/-- WNG_NODE_CTRL.REQUIRE_SIGNED, BAR0 offset 0x0C1000, bits [12:12], RWL, reset 0x0. Under R119 -/
def F.WNG_NODE_CTRL_REQUIRE_SIGNED : Fld := ⟨6324236, 1, 0⟩
/-- WNG_NODE_CTRL.KEY_VALID, BAR0 offset 0x0C1000, bits [20:13], RWL, reset 0x0. Bit k: WNG_MAKERKEYk is valid -/
def F.WNG_NODE_CTRL_KEY_VALID : Fld := ⟨6324237, 8, 0⟩
/-- WNG_BEACON_EN.AXES, BAR0 offset 0x0C1004, bits [15:0], RWL, reset 0x0. Axes beaconed, under R122 -/
def F.WNG_BEACON_EN_AXES : Fld := ⟨6324256, 16, 0⟩
/-- WNG_RI_ENTRY.ENTRY, BAR0 offset 0x0C1010, bits [127:0], WO, no reset value given (DESIGN CHOICE: 0). Entry for remote insert -/
def F.WNG_RI_ENTRY_ENTRY : Fld := ⟨6324352, 128, 0⟩
/-- WNG_RI_GO.DST, BAR0 offset 0x0C1020, bits [11:0], WO, no reset value given (DESIGN CHOICE: 0). Destination node -/
def F.WNG_RI_GO_DST : Fld := ⟨6324480, 12, 0⟩
/-- WNG_RI_GO.TAG, BAR0 offset 0x0C1020, bits [24:16], WO, no reset value given (DESIGN CHOICE: 0). Tag; the write sends the insert -/
def F.WNG_RI_GO_TAG : Fld := ⟨6324496, 9, 0⟩
/-- WNG_RI_CQ.RECORD, BAR0 offset 0x0C1024, bits [31:0], RC, reset 0xFFFFFFFF. Oldest record (R65); 0xFFFF_FFFF when empty -/
def F.WNG_RI_CQ_RECORD : Fld := ⟨6324512, 32, 4294967295⟩
/-- WNG_RI_TIMEOUT.TIMEOUT, BAR0 offset 0x0C1028, bits [19:0], RW, reset 0x186A0. ns -/
def F.WNG_RI_TIMEOUT_TIMEOUT : Fld := ⟨6324544, 20, 100000⟩
/-- WNG_RI_DROPS.DROPS, BAR0 offset 0x0C102C, bits [15:0], RC, reset 0x0. Refused writes to WNG_RI_GO -/
def F.WNG_RI_DROPS_DROPS : Fld := ⟨6324576, 16, 0⟩
/-- WNG_MB_TX.DATA, BAR0 offset 0x0C1030, bits [127:0], WO, no reset value given (DESIGN CHOICE: 0). Message data -/
def F.WNG_MB_TX_DATA : Fld := ⟨6324608, 128, 0⟩
/-- WNG_MB_TX_GO.DST, BAR0 offset 0x0C1040, bits [11:0], WO, no reset value given (DESIGN CHOICE: 0). Destination node -/
def F.WNG_MB_TX_GO_DST : Fld := ⟨6324736, 12, 0⟩
/-- WNG_MB_TX_GO.CHAN, BAR0 offset 0x0C1040, bits [23:16], WO, no reset value given (DESIGN CHOICE: 0). Channel; the write sends the message -/
def F.WNG_MB_TX_GO_CHAN : Fld := ⟨6324752, 8, 0⟩
/-- WNG_MB_RX.DATA, BAR0 offset 0x0C1050, bits [127:0], RO, reset 0x0. Oldest message -/
def F.WNG_MB_RX_DATA : Fld := ⟨6324864, 128, 0⟩
/-- WNG_MB_RX.SRC, BAR0 offset 0x0C1050, bits [139:128], RO, reset 0x0. Sender -/
def F.WNG_MB_RX_SRC : Fld := ⟨6324992, 12, 0⟩
/-- WNG_MB_RX.CHAN, BAR0 offset 0x0C1050, bits [147:140], RO, reset 0x0. Channel -/
def F.WNG_MB_RX_CHAN : Fld := ⟨6325004, 8, 0⟩
/-- WNG_MB_RX.VALID, BAR0 offset 0x0C1050, bits [156:156], RC, reset 0x0. Reading the fifth word removes the message -/
def F.WNG_MB_RX_VALID : Fld := ⟨6325020, 1, 0⟩
/-- WNG_MB_DROPS.DROPS, BAR0 offset 0x0C1064, bits [15:0], RC, reset 0x0. Messages discarded under R124 -/
def F.WNG_MB_DROPS_DROPS : Fld := ⟨6325024, 16, 0⟩
/-- WNG_MAKERKEYk.KEY, BAR0 offset 0x0C1100, bits [255:0], RWL, reset 0x0. Trusted maker public key -/
def F.WNG_MAKERKEYk_KEY (k : Nat) : Fld := ⟨6326272 + (256 * k), 256, 0⟩
/-- WNG_ROUTEn.PORT, BAR0 offset 0x0C2000, bits [1:0], RW, reset 0x0. Port toward node n -/
def F.WNG_ROUTEn_PORT (n : Nat) : Fld := ⟨6356992 + (8 * n), 2, 0⟩
/-- WNG_ROUTEn.VALID, BAR0 offset 0x0C2000, bits [7:7], RW, reset 0x0. Entry valid -/
def F.WNG_ROUTEn_VALID (n : Nat) : Fld := ⟨6356999 + (8 * n), 1, 0⟩
/-- WLN_LANEn_CFG.RATE, BAR0 offset 0x0E0000, bits [1:0], RWL, reset 0x2. Under R129 -/
def F.WLN_LANEn_CFG_RATE (n : Nat) : Fld := ⟨7340032 + (32768 * n), 2, 2⟩
/-- WLN_LANEn_CFG.FEC, BAR0 offset 0x0E0000, bits [2:2], RWL, reset 0x1. FEC below 6.25 GBd; ignored at 6.25 and 12.5 GBd -/
def F.WLN_LANEn_CFG_FEC (n : Nat) : Fld := ⟨7340034 + (32768 * n), 1, 1⟩
/-- WLN_LANEn_CFG.PRECODE_REQ, BAR0 offset 0x0E0000, bits [3:3], RWL, reset 0x0. The receiver asks the far transmitter to precode -/
def F.WLN_LANEn_CFG_PRECODE_REQ (n : Nat) : Fld := ⟨7340035 + (32768 * n), 1, 0⟩
/-- WLN_LANEn_CFG.WAKE_DET, BAR0 offset 0x0E0000, bits [4:4], RW, reset 0x0. Wake-tone detection under R142 -/
def F.WLN_LANEn_CFG_WAKE_DET (n : Nat) : Fld := ⟨7340036 + (32768 * n), 1, 0⟩
/-- WLN_LANEn_CFG.LOCK, BAR0 offset 0x0E0000, bits [31:31], W1S, reset 0x0. Locks the RWL fields of the lane -/
def F.WLN_LANEn_CFG_LOCK (n : Nat) : Fld := ⟨7340063 + (32768 * n), 1, 0⟩
/-- WLN_LANEn_CTRL.TRAIN, BAR0 offset 0x0E0004, bits [0:0], RW, reset 0x0. Trains the lane while its port is DISABLED -/
def F.WLN_LANEn_CTRL_TRAIN (n : Nat) : Fld := ⟨7340064 + (32768 * n), 1, 0⟩
/-- WLN_LANEn_CTRL.RETRAIN, BAR0 offset 0x0E0004, bits [1:1], W1S, reset 0x0. Lane down with cause RETRAIN; reads 1 until DETECT -/
def F.WLN_LANEn_CTRL_RETRAIN (n : Nat) : Fld := ⟨7340065 + (32768 * n), 1, 0⟩
/-- WLN_LANEn_CTRL.WAKE_TX, BAR0 offset 0x0E0004, bits [2:2], W1S, reset 0x0. Sends the wake tone, under R142; reads 1 while sending -/
def F.WLN_LANEn_CTRL_WAKE_TX (n : Nat) : Fld := ⟨7340066 + (32768 * n), 1, 0⟩
/-- WLN_LANEn_CTRL.LOOPBACK_REQ, BAR0 offset 0x0E0004, bits [3:3], RW, reset 0x0. Asks for far-end loopback at the next training -/
def F.WLN_LANEn_CTRL_LOOPBACK_REQ (n : Nat) : Fld := ⟨7340067 + (32768 * n), 1, 0⟩
/-- WLN_LANEn_CTRL.LOOPBACK_EN, BAR0 offset 0x0E0004, bits [4:4], RW, reset 0x1. Allows this lane to act as far-end loopback -/
def F.WLN_LANEn_CTRL_LOOPBACK_EN (n : Nat) : Fld := ⟨7340068 + (32768 * n), 1, 1⟩
/-- WLN_LANEn_STATUS.STATE, BAR0 offset 0x0E0008, bits [2:0], RO, reset 0x0. 000 OFF, 001 DETECT, 010 TRAIN, 011 READY_WAIT, 100 LINKUP, 101 LOOPBACK -/
def F.WLN_LANEn_STATUS_STATE (n : Nat) : Fld := ⟨7340096 + (32768 * n), 3, 0⟩
/-- WLN_LANEn_STATUS.PRECODE_TX, BAR0 offset 0x0E0008, bits [3:3], RO, reset 0x0. The transmitter precodes -/
def F.WLN_LANEn_STATUS_PRECODE_TX (n : Nat) : Fld := ⟨7340099 + (32768 * n), 1, 0⟩
/-- WLN_LANEn_STATUS.PRECODE_RX, BAR0 offset 0x0E0008, bits [4:4], RO, reset 0x0. The receiver decodes precoding -/
def F.WLN_LANEn_STATUS_PRECODE_RX (n : Nat) : Fld := ⟨7340100 + (32768 * n), 1, 0⟩
/-- WLN_LANEn_STATUS.FEC_ON, BAR0 offset 0x0E0008, bits [5:5], RO, reset 0x0. FEC active -/
def F.WLN_LANEn_STATUS_FEC_ON (n : Nat) : Fld := ⟨7340101 + (32768 * n), 1, 0⟩
/-- WLN_LANEn_STATUS.RX_INVERTED, BAR0 offset 0x0E0008, bits [6:6], RO, reset 0x0. Receive polarity corrected -/
def F.WLN_LANEn_STATUS_RX_INVERTED (n : Nat) : Fld := ⟨7340102 + (32768 * n), 1, 0⟩
/-- WLN_LANEn_STATUS.RATE, BAR0 offset 0x0E0008, bits [8:7], RO, reset 0x0. Rate in use -/
def F.WLN_LANEn_STATUS_RATE (n : Nat) : Fld := ⟨7340103 + (32768 * n), 2, 0⟩
/-- WLN_LANEn_STATUS.CAUSE, BAR0 offset 0x0E0008, bits [11:9], RO, reset 0x0. Cause of the last lane down, under R140 -/
def F.WLN_LANEn_STATUS_CAUSE (n : Nat) : Fld := ⟨7340105 + (32768 * n), 3, 0⟩
/-- WLN_LANEn_STATUS.WAKE_SEEN, BAR0 offset 0x0E0008, bits [12:12], W1C, reset 0x0. Wake tone detected -/
def F.WLN_LANEn_STATUS_WAKE_SEEN (n : Nat) : Fld := ⟨7340108 + (32768 * n), 1, 0⟩
/-- WLN_LANEn_STATUS.PRE, BAR0 offset 0x0E0008, bits [19:16], RO, reset 0x0. Own transmitter's tap steps -/
def F.WLN_LANEn_STATUS_PRE (n : Nat) : Fld := ⟨7340112 + (32768 * n), 4, 0⟩
/-- WLN_LANEn_STATUS.MAIN, BAR0 offset 0x0E0008, bits [23:20], RO, reset 0xF -/
def F.WLN_LANEn_STATUS_MAIN (n : Nat) : Fld := ⟨7340116 + (32768 * n), 4, 15⟩
/-- WLN_LANEn_STATUS.POST, BAR0 offset 0x0E0008, bits [27:24], RO, reset 0x0 -/
def F.WLN_LANEn_STATUS_POST (n : Nat) : Fld := ⟨7340120 + (32768 * n), 4, 0⟩
/-- WLN_LANEn_PRESET.PRE, BAR0 offset 0x0E000C, bits [3:0], RWL, reset 0x0. Preset steps, under R137 -/
def F.WLN_LANEn_PRESET_PRE (n : Nat) : Fld := ⟨7340128 + (32768 * n), 4, 0⟩
/-- WLN_LANEn_PRESET.MAIN, BAR0 offset 0x0E000C, bits [7:4], RWL, reset 0xF -/
def F.WLN_LANEn_PRESET_MAIN (n : Nat) : Fld := ⟨7340132 + (32768 * n), 4, 15⟩
/-- WLN_LANEn_PRESET.POST, BAR0 offset 0x0E000C, bits [11:8], RWL, reset 0x0 -/
def F.WLN_LANEn_PRESET_POST (n : Nat) : Fld := ⟨7340136 + (32768 * n), 4, 0⟩
/-- WLN_LANEn_PRESET.FIXED, BAR0 offset 0x0E000C, bits [12:12], RWL, reset 0x0. Under R138 -/
def F.WLN_LANEn_PRESET_FIXED (n : Nat) : Fld := ⟨7340140 + (32768 * n), 1, 0⟩
/-- WLN_LANEn_TRAIN.TIME, BAR0 offset 0x0E0010, bits [15:0], RO, reset 0x0. µs from leaving OFF or DETECT to the last LINKUP, saturating -/
def F.WLN_LANEn_TRAIN_TIME (n : Nat) : Fld := ⟨7340160 + (32768 * n), 16, 0⟩
/-- WLN_LANEn_TRAIN.ATTEMPTS, BAR0 offset 0x0E0010, bits [23:16], RC, reset 0x0. Timed-out attempts, saturating -/
def F.WLN_LANEn_TRAIN_ATTEMPTS (n : Nat) : Fld := ⟨7340176 + (32768 * n), 8, 0⟩
/-- WLN_LANEn_FEC_CORR.COUNT, BAR0 offset 0x0E0020, bits [31:0], RC, reset 0x0. Symbols corrected by FEC -/
def F.WLN_LANEn_FEC_CORR_COUNT (n : Nat) : Fld := ⟨7340288 + (32768 * n), 32, 0⟩
/-- WLN_LANEn_FEC_UNCORR.COUNT, BAR0 offset 0x0E0024, bits [31:0], RC, reset 0x0. Uncorrectable codewords -/
def F.WLN_LANEn_FEC_UNCORR_COUNT (n : Nat) : Fld := ⟨7340320 + (32768 * n), 32, 0⟩
/-- WLN_LANEn_MARKER_ERR.COUNT, BAR0 offset 0x0E0028, bits [31:0], RC, reset 0x0. Marker errors under R131 -/
def F.WLN_LANEn_MARKER_ERR_COUNT (n : Nat) : Fld := ⟨7340352 + (32768 * n), 32, 0⟩
/-- WLN_LANEn_DOWN.COUNT, BAR0 offset 0x0E002C, bits [31:0], RC, reset 0x0. Lane-down occurrences -/
def F.WLN_LANEn_DOWN_COUNT (n : Nat) : Fld := ⟨7340384 + (32768 * n), 32, 0⟩
/-- WLN_LANEn_TEST.GEN, BAR0 offset 0x0E0040, bits [2:0], RW, reset 0x0. Under R143 -/
def F.WLN_LANEn_TEST_GEN (n : Nat) : Fld := ⟨7340544 + (32768 * n), 3, 0⟩
/-- WLN_LANEn_TEST.CHK, BAR0 offset 0x0E0040, bits [6:4], RW, reset 0x0. Under R143 -/
def F.WLN_LANEn_TEST_CHK (n : Nat) : Fld := ⟨7340548 + (32768 * n), 3, 0⟩
/-- WLN_LANEn_TEST.SQ_HALF, BAR0 offset 0x0E0040, bits [12:8], RW, reset 0x0. Half period minus one, in symbols -/
def F.WLN_LANEn_TEST_SQ_HALF (n : Nat) : Fld := ⟨7340552 + (32768 * n), 5, 0⟩
/-- WLN_LANEn_TEST.CHK_LOCK, BAR0 offset 0x0E0040, bits [16:16], RO, reset 0x0. Under R144 -/
def F.WLN_LANEn_TEST_CHK_LOCK (n : Nat) : Fld := ⟨7340560 + (32768 * n), 1, 0⟩
/-- WLN_LANEn_USER.PATTERN, BAR0 offset 0x0E0044, bits [63:0], RW, reset 0x0. USER pattern, bit 0 first -/
def F.WLN_LANEn_USER_PATTERN (n : Nat) : Fld := ⟨7340576 + (32768 * n), 64, 0⟩
/-- WLN_LANEn_ERRCNT.ERRORS, BAR0 offset 0x0E0050, bits [31:0], RC, reset 0x0. Bits in error -/
def F.WLN_LANEn_ERRCNT_ERRORS (n : Nat) : Fld := ⟨7340672 + (32768 * n), 32, 0⟩
/-- WLN_LANEn_SYMCNT.SYMBOLS, BAR0 offset 0x0E0058, bits [47:0], RC, reset 0x0. Symbols checked; reading the lower word latches the upper and clears the count -/
def F.WLN_LANEn_SYMCNT_SYMBOLS (n : Nat) : Fld := ⟨7340736 + (32768 * n), 48, 0⟩
/-- WLN_LANEn_INJECT.SYMBOL, BAR0 offset 0x0E0060, bits [0:0], W1S, reset 0x0. Under R146 -/
def F.WLN_LANEn_INJECT_SYMBOL (n : Nat) : Fld := ⟨7340800 + (32768 * n), 1, 0⟩
/-- WLN_LANEn_INJECT.BURST, BAR0 offset 0x0E0060, bits [1:1], W1S, reset 0x0 -/
def F.WLN_LANEn_INJECT_BURST (n : Nat) : Fld := ⟨7340801 + (32768 * n), 1, 0⟩
/-- WLN_LANEn_INJECT.CRC, BAR0 offset 0x0E0060, bits [2:2], W1S, reset 0x0 -/
def F.WLN_LANEn_INJECT_CRC (n : Nat) : Fld := ⟨7340802 + (32768 * n), 1, 0⟩
/-- WLN_LANEn_INJECT.BURST_LEN, BAR0 offset 0x0E0060, bits [13:8], RW, reset 0x0. Burst length minus one -/
def F.WLN_LANEn_INJECT_BURST_LEN (n : Nat) : Fld := ⟨7340808 + (32768 * n), 6, 0⟩
/-- MEM_CTRL.ENABLE, BAR0 offset 0x100000, bits [0:0], RW, reset 0x1. Under R285 -/
def F.MEM_CTRL_ENABLE : Fld := ⟨8388608, 1, 1⟩
/-- MEM_CTRL.LOCK, BAR0 offset 0x100000, bits [31:31], W1S, reset 0x0. Locks the RWL fields of the MEM block -/
def F.MEM_CTRL_LOCK : Fld := ⟨8388639, 1, 0⟩
/-- MEM_STATUS.DRAINING, BAR0 offset 0x100004, bits [0:0], RO, reset 0x0. Under R284 and R285 -/
def F.MEM_STATUS_DRAINING : Fld := ⟨8388640, 1, 0⟩
/-- MEM_STATUS.INIT_DONE, BAR0 offset 0x100004, bits [1:1], RO, reset 0x0. Under R286 -/
def F.MEM_STATUS_INIT_DONE : Fld := ⟨8388641, 1, 0⟩
/-- MEM_PATROL.ENABLE, BAR0 offset 0x100008, bits [0:0], RWL, reset 0x1. Under R284 -/
def F.MEM_PATROL_ENABLE : Fld := ⟨8388672, 1, 1⟩
/-- MEM_PATROL.INTERVAL, BAR0 offset 0x100008, bits [17:1], RWL, reset 0x3E8. µs per line, 1–82,000 -/
def F.MEM_PATROL_INTERVAL : Fld := ⟨8388673, 17, 1000⟩
/-- MEM_Md_PATROL.LINE, BAR0 offset 0x100100, bits [19:0], RO, reset 0x0. Next line to visit -/
def F.MEM_Md_PATROL_LINE (d : Nat) : Fld := ⟨8390656 + (512 * (d - 1)), 20, 0⟩
/-- MEM_Md_PATROL.LAST_PASS, BAR0 offset 0x100100, bits [31:20], RO, reset 0x0. Minutes taken by the last full pass, saturating -/
def F.MEM_Md_PATROL_LAST_PASS (d : Nat) : Fld := ⟨8390676 + (512 * (d - 1)), 12, 0⟩
/-- MEM_Md_CORR.CORR, BAR0 offset 0x100104, bits [31:0], RC, reset 0x0. Lines corrected, saturating -/
def F.MEM_Md_CORR_CORR (d : Nat) : Fld := ⟨8390688 + (512 * (d - 1)), 32, 0⟩
/-- MEM_Md_UNCORR.UNCORR, BAR0 offset 0x100108, bits [31:0], RC, reset 0x0. Lines poisoned, saturating -/
def F.MEM_Md_UNCORR_UNCORR (d : Nat) : Fld := ⟨8390720 + (512 * (d - 1)), 32, 0⟩
/-- MEM_Md_POISON_RD.POISON, BAR0 offset 0x10010C, bits [31:0], RC, reset 0x0. Requests completed POISON, saturating -/
def F.MEM_Md_POISON_RD_POISON (d : Nat) : Fld := ⟨8390752 + (512 * (d - 1)), 32, 0⟩
/-- MEM_Md_BUSY.REPEATS, BAR0 offset 0x100110, bits [15:0], RC, reset 0x0. Read repeats under R279, saturating -/
def F.MEM_Md_BUSY_REPEATS (d : Nat) : Fld := ⟨8390784 + (512 * (d - 1)), 16, 0⟩
/-- MEM_Md_BUSY.BUSY, BAR0 offset 0x100110, bits [31:16], RC, reset 0x0. Requests completed BUSY, saturating -/
def F.MEM_Md_BUSY_BUSY (d : Nat) : Fld := ⟨8390800 + (512 * (d - 1)), 16, 0⟩
/-- MEM_Md_XFER_FAIL.FAIL, BAR0 offset 0x100114, bits [15:0], RC, reset 0x0. INTERNAL completions under R281, saturating -/
def F.MEM_Md_XFER_FAIL_FAIL (d : Nat) : Fld := ⟨8390816 + (512 * (d - 1)), 16, 0⟩
/-- MEM_Md_LASTERR.VALID, BAR0 offset 0x100118, bits [0:0], W1C, reset 0x0. Record valid; clearing re-arms it -/
def F.MEM_Md_LASTERR_VALID (d : Nat) : Fld := ⟨8390848 + (512 * (d - 1)), 1, 0⟩
/-- MEM_Md_LASTERR.KIND, BAR0 offset 0x100118, bits [1:1], RO, reset 0x0. 0 patrol, 1 request -/
def F.MEM_Md_LASTERR_KIND (d : Nat) : Fld := ⟨8390849 + (512 * (d - 1)), 1, 0⟩
/-- MEM_Md_LASTERR.LINE, BAR0 offset 0x100118, bits [25:6], RO, reset 0x0. Line poisoned first since VALID was cleared -/
def F.MEM_Md_LASTERR_LINE (d : Nat) : Fld := ⟨8390854 + (512 * (d - 1)), 20, 0⟩
/-- MEM_GRPn_CFG.MODE, BAR0 offset 0x101000, bits [1:0], RW, reset 0x0. Under R268 and R270 -/
def F.MEM_GRPn_CFG_MODE (n : Nat) : Fld := ⟨8421376 + (128 * n), 2, 0⟩
/-- MEM_GRPn_OWNER.OWNERi, BAR0 offset 0x101004, bits [7:0], RW, reset 0xFF. Owner of bank i of the group, under R269 -/
def F.MEM_GRPn_OWNER_OWNERi (n : Nat) (i : Nat) : Fld := ⟨8421408 + (128 * n + 8 * i), 8, 255⟩
/-- MEM_GRPn_STATUS.TT, BAR0 offset 0x10100C, bits [0:0], RO, reset 0x0. The group holds Timetable partition banks -/
def F.MEM_GRPn_STATUS_TT (n : Nat) : Fld := ⟨8421472 + (128 * n), 1, 0⟩
/-- SCH_CTRL.ENABLE, BAR0 offset 0x110000, bits [0:0], RW, reset 0x0. Under R293 and R310 -/
def F.SCH_CTRL_ENABLE : Fld := ⟨8912896, 1, 0⟩
/-- SCH_CTRL.LOCK, BAR0 offset 0x110000, bits [31:31], W1S, reset 0x0. Locks the RWL fields of the SCH block -/
def F.SCH_CTRL_LOCK : Fld := ⟨8912927, 1, 0⟩
/-- SCH_STATUS.DRAINING, BAR0 offset 0x110004, bits [0:0], RO, reset 0x0. Under R310 -/
def F.SCH_STATUS_DRAINING : Fld := ⟨8912928, 1, 0⟩
/-- SCH_STATUS.CFG_ERR, BAR0 offset 0x110004, bits [1:1], W1C, reset 0x0. Under R293 -/
def F.SCH_STATUS_CFG_ERR : Fld := ⟨8912929, 1, 0⟩
/-- SCH_STATUS.GROUPS, BAR0 offset 0x110004, bits [5:2], RO, reset 0x0. G -/
def F.SCH_STATUS_GROUPS : Fld := ⟨8912930, 4, 0⟩
/-- SCH_HITS.HITS, BAR0 offset 0x110010, bits [31:0], RC, reset 0x0. Hits, saturating -/
def F.SCH_HITS_HITS : Fld := ⟨8913024, 32, 0⟩
/-- SCH_MISSES.MISSES, BAR0 offset 0x110014, bits [31:0], RC, reset 0x0. Fills, saturating -/
def F.SCH_MISSES_MISSES : Fld := ⟨8913056, 32, 0⟩
/-- SCH_WB.WB, BAR0 offset 0x110018, bits [31:0], RC, reset 0x0. Write-backs, saturating -/
def F.SCH_WB_WB : Fld := ⟨8913088, 32, 0⟩
/-- SCH_LOST.LOST, BAR0 offset 0x11001C, bits [15:0], RC, reset 0x0. Dirty lines lost under R297 and R311, saturating -/
def F.SCH_LOST_LOST : Fld := ⟨8913120, 16, 0⟩
/-- SCH_POISON_DROP.DROP, BAR0 offset 0x110020, bits [15:0], RC, reset 0x0. Under R297, saturating -/
def F.SCH_POISON_DROP_DROP : Fld := ⟨8913152, 16, 0⟩
/-- SCH_ZERO.LINE, BAR0 offset 0x110030, bits [47:6], WO, no reset value given (DESIGN CHOICE: 0). Device address of the line; the upper-word write performs R298 -/
def F.SCH_ZERO_LINE : Fld := ⟨8913286, 42, 0⟩
/-- SCH_ZERO_RESULT.STATUS, BAR0 offset 0x110038, bits [3:0], RO, reset 0x0. Status of the last SCH_ZERO -/
def F.SCH_ZERO_RESULT_STATUS : Fld := ⟨8913344, 4, 0⟩
/-- SCH_ZERO_RESULT.DONE, BAR0 offset 0x110038, bits [4:4], W1C, reset 0x0. The last SCH_ZERO has completed -/
def F.SCH_ZERO_RESULT_DONE : Fld := ⟨8913348, 1, 0⟩
/-- HWN_CTRL.ENABLE, BAR0 offset 0x120000, bits [0:0], RW, reset 0x0. Under R310 -/
def F.HWN_CTRL_ENABLE : Fld := ⟨9437184, 1, 0⟩
/-- HWN_CTRL.LOCK, BAR0 offset 0x120000, bits [31:31], W1S, reset 0x0. Locks the RWL fields of the HWN block -/
def F.HWN_CTRL_LOCK : Fld := ⟨9437215, 1, 0⟩
/-- HWN_STATUS.DRAINING, BAR0 offset 0x120004, bits [0:0], RO, reset 0x0. Under R310 -/
def F.HWN_STATUS_DRAINING : Fld := ⟨9437216, 1, 0⟩
/-- HWN_STATUS.BME, BAR0 offset 0x120004, bits [1:1], RO, reset 0x0. Bus Master Enable of function 0 -/
def F.HWN_STATUS_BME : Fld := ⟨9437217, 1, 0⟩
/-- HWN_STATUS.ABORTS, BAR0 offset 0x120004, bits [14:8], RO, reset 0x0. Records in HWN_ABORT_LOG -/
def F.HWN_STATUS_ABORTS : Fld := ⟨9437224, 7, 0⟩
/-- HWN_STATUS.ABORT_LOST, BAR0 offset 0x120004, bits [31:16], RC, reset 0x0. Under R309, saturating -/
def F.HWN_STATUS_ABORT_LOST : Fld := ⟨9437232, 16, 0⟩
/-- HWN_CPL_TO.TIMEOUT, BAR0 offset 0x120008, bits [15:0], RWL, reset 0xA. Completion timeout, ms -/
def F.HWN_CPL_TO_TIMEOUT : Fld := ⟨9437248, 16, 10⟩
/-- HWN_MAP_CMD.PAGE, BAR0 offset 0x120010, bits [14:0], WO, no reset value given (DESIGN CHOICE: 0). Page -/
def F.HWN_MAP_CMD_PAGE : Fld := ⟨9437312, 15, 0⟩
/-- HWN_MAP_CMD.WRITE, BAR0 offset 0x120010, bits [16:16], WO, no reset value given (DESIGN CHOICE: 0). 0 loads the entry into HWN_MAP_DATA; 1 writes it, under R289 -/
def F.HWN_MAP_CMD_WRITE : Fld := ⟨9437328, 1, 0⟩
/-- HWN_MAP_RESULT.RESULT, BAR0 offset 0x120014, bits [2:0], RO, reset 0x0. Under R289 -/
def F.HWN_MAP_RESULT_RESULT : Fld := ⟨9437344, 3, 0⟩
/-- HWN_MAP_DATA.ENTRY, BAR0 offset 0x120020, bits [127:0], RW, reset 0x0. Under R288; STATE is ignored on write -/
def F.HWN_MAP_DATA_ENTRY : Fld := ⟨9437440, 128, 0⟩
/-- HWN_OWN_GIVE.FIRST, BAR0 offset 0x120030, bits [14:0], WO, no reset value given (DESIGN CHOICE: 0). Under R292 -/
def F.HWN_OWN_GIVE_FIRST : Fld := ⟨9437568, 15, 0⟩
/-- HWN_OWN_GIVE.COUNT, BAR0 offset 0x120030, bits [30:16], WO, no reset value given (DESIGN CHOICE: 0). Pages minus one -/
def F.HWN_OWN_GIVE_COUNT : Fld := ⟨9437584, 15, 0⟩
/-- HWN_OWN_RECLAIM.RANGE, BAR0 offset 0x120034, bits [30:0], WO, no reset value given (DESIGN CHOICE: 0). Under R292 -/
def F.HWN_OWN_RECLAIM_RANGE : Fld := ⟨9437600, 31, 0⟩
/-- HWN_OWN_RESULT.GIVE_REFUSED, BAR0 offset 0x120038, bits [0:0], W1C, reset 0x0. The last give was refused -/
def F.HWN_OWN_RESULT_GIVE_REFUSED : Fld := ⟨9437632, 1, 0⟩
/-- HWN_OWN_RESULT.RECLAIM_REFUSED, BAR0 offset 0x120038, bits [1:1], W1C, reset 0x0. The last reclaim was refused -/
def F.HWN_OWN_RESULT_RECLAIM_REFUSED : Fld := ⟨9437633, 1, 0⟩
/-- HWN_OWN_RESULT.RECLAIMING, BAR0 offset 0x120038, bits [2:2], RO, reset 0x0. A reclaim runs -/
def F.HWN_OWN_RESULT_RECLAIMING : Fld := ⟨9437634, 1, 0⟩
/-- HWN_OWN_QUERY.PAGE, BAR0 offset 0x12003C, bits [14:0], RW, reset 0x0. Page queried -/
def F.HWN_OWN_QUERY_PAGE : Fld := ⟨9437664, 15, 0⟩
/-- HWN_OWN_QUERY.OWNER, BAR0 offset 0x12003C, bits [17:16], RO, reset 0x0. Its owner -/
def F.HWN_OWN_QUERY_OWNER : Fld := ⟨9437680, 2, 0⟩
/-- HWN_ABORT_LOG.INDEX, BAR0 offset 0x120040, bits [11:0], RC, reset 0x0. Oldest record; the read removes it -/
def F.HWN_ABORT_LOG_INDEX : Fld := ⟨9437696, 12, 0⟩
/-- HWN_ABORT_LOG.RING, BAR0 offset 0x120040, bits [15:12], RC, reset 0x0 -/
def F.HWN_ABORT_LOG_RING : Fld := ⟨9437708, 4, 0⟩
/-- HWN_ABORT_LOG.VALID, BAR0 offset 0x120040, bits [16:16], RC, reset 0x0. 0 when the log is empty -/
def F.HWN_ABORT_LOG_VALID : Fld := ⟨9437712, 1, 0⟩
/-- HWN_RINGk_CTRL.ENABLE, BAR0 offset 0x121000, bits [0:0], RW, reset 0x0. Under R310 -/
def F.HWN_RINGk_CTRL_ENABLE (k : Nat) : Fld := ⟨9469952 + (512 * k), 1, 0⟩
/-- HWN_RINGk_CTRL.RESET, BAR0 offset 0x121000, bits [1:1], W1S, reset 0x0. Under R309 -/
def F.HWN_RINGk_CTRL_RESET (k : Nat) : Fld := ⟨9469953 + (512 * k), 1, 0⟩
/-- HWN_RINGk_STATUS.DRAINING, BAR0 offset 0x121004, bits [0:0], RO, reset 0x0. Under R310 -/
def F.HWN_RINGk_STATUS_DRAINING (k : Nat) : Fld := ⟨9469984 + (512 * k), 1, 0⟩
/-- HWN_RINGk_STATUS.ABORTED, BAR0 offset 0x121004, bits [1:1], RO, reset 0x0. Under R309 -/
def F.HWN_RINGk_STATUS_ABORTED (k : Nat) : Fld := ⟨9469985 + (512 * k), 1, 0⟩
/-- HWN_RINGk_STATUS.STALLED, BAR0 offset 0x121004, bits [2:2], RO, reset 0x0. Under R305 -/
def F.HWN_RINGk_STATUS_STALLED (k : Nat) : Fld := ⟨9469986 + (512 * k), 1, 0⟩
/-- HWN_RINGk_STATUS.INFLIGHT, BAR0 offset 0x121004, bits [13:8], RO, reset 0x0. Descriptors in flight -/
def F.HWN_RINGk_STATUS_INFLIGHT (k : Nat) : Fld := ⟨9469992 + (512 * k), 6, 0⟩
/-- HWN_RINGk_BASE.BASE, BAR0 offset 0x121008, bits [63:12], RW, reset 0x0. Ring address -/
def F.HWN_RINGk_BASE_BASE (k : Nat) : Fld := ⟨9470028 + (512 * k), 52, 0⟩
/-- HWN_RINGk_SIZE.SIZE, BAR0 offset 0x121010, bits [3:0], RW, reset 0x4. log2 of the entries, 4–12 -/
def F.HWN_RINGk_SIZE_SIZE (k : Nat) : Fld := ⟨9470080 + (512 * k), 4, 4⟩
/-- HWN_RINGk_TAIL.TAIL, BAR0 offset 0x121014, bits [11:0], RW, reset 0x0. Under R305 -/
def F.HWN_RINGk_TAIL_TAIL (k : Nat) : Fld := ⟨9470112 + (512 * k), 12, 0⟩
/-- HWN_RINGk_HEAD.HEAD, BAR0 offset 0x121018, bits [11:0], RO, reset 0x0. Next descriptor to fetch -/
def F.HWN_RINGk_HEAD_HEAD (k : Nat) : Fld := ⟨9470144 + (512 * k), 12, 0⟩
/-- HWN_RINGk_VEC.VEC, BAR0 offset 0x12101C, bits [7:0], RW, reset 0x0. MSI-X vector of function 0 -/
def F.HWN_RINGk_VEC_VEC (k : Nat) : Fld := ⟨9470176 + (512 * k), 8, 0⟩
/-- ENC_CTRL.ENABLE, BAR0 offset 0x130000, bits [0:0], RW, reset 0x0. Under R310 -/
def F.ENC_CTRL_ENABLE : Fld := ⟨9961472, 1, 0⟩
/-- ENC_CTRL.LOCK, BAR0 offset 0x130000, bits [31:31], W1S, reset 0x0. Locks the RWL fields of the ENC block -/
def F.ENC_CTRL_LOCK : Fld := ⟨9961503, 1, 0⟩
/-- ENC_STATUS.DRAINING, BAR0 offset 0x130004, bits [0:0], RO, reset 0x0. Under R310 -/
def F.ENC_STATUS_DRAINING : Fld := ⟨9961504, 1, 0⟩
/-- ENC_STATUS.REKEYING, BAR0 offset 0x130004, bits [1:1], RO, reset 0x0. Under R304 -/
def F.ENC_STATUS_REKEYING : Fld := ⟨9961505, 1, 0⟩
/-- ENC_REKEY.GO, BAR0 offset 0x130008, bits [0:0], W1S, reset 0x0. Under R304; reads 1 while REKEYING -/
def F.ENC_REKEY_GO : Fld := ⟨9961536, 1, 0⟩
/-- ENC_BOUND.BOUND, BAR0 offset 0x13000C, bits [30:0], RO, reset 0x0. Window line, under R304 -/
def F.ENC_BOUND_BOUND : Fld := ⟨9961568, 31, 0⟩
/-- ENC_CNT_TAG_FAIL.FAIL, BAR0 offset 0x130010, bits [31:0], RC, reset 0x0. Under R301, saturating -/
def F.ENC_CNT_TAG_FAIL_FAIL : Fld := ⟨9961600, 32, 0⟩
/-- ENC_CNT_EXHAUSTED.EXH, BAR0 offset 0x130014, bits [31:0], RC, reset 0x0. Under R302, saturating -/
def F.ENC_CNT_EXHAUSTED_EXH : Fld := ⟨9961632, 32, 0⟩
/-- ENC_KEYS.KEYS, BAR0 offset 0x130018, bits [15:0], RO, reset 0x0. Keys drawn since POR, saturating -/
def F.ENC_KEYS_KEYS : Fld := ⟨9961664, 16, 0⟩
/-- STK_CTRL.ENABLE, BAR0 offset 0x140000, bits [0:0], RW, reset 0x1. Health checks and retrains, under R331 -/
def F.STK_CTRL_ENABLE : Fld := ⟨10485760, 1, 1⟩
/-- STK_CTRL.LOCK, BAR0 offset 0x140000, bits [31:31], W1S, reset 0x0. Locks the RWL fields of the STK block -/
def F.STK_CTRL_LOCK : Fld := ⟨10485791, 1, 0⟩
/-- STK_STATUS.DRAINING, BAR0 offset 0x140004, bits [0:0], RO, reset 0x0. Under R331 -/
def F.STK_STATUS_DRAINING : Fld := ⟨10485792, 1, 0⟩
/-- STK_STATUS.TRAINED, BAR0 offset 0x140004, bits [1:1], RO, reset 0x0. Start-up training ended -/
def F.STK_STATUS_TRAINED : Fld := ⟨10485793, 1, 0⟩
/-- STK_STATUS.RETRAINING, BAR0 offset 0x140004, bits [4:2], RO, reset 0x0. Links in RETRAIN, 0–4 -/
def F.STK_STATUS_RETRAINING : Fld := ⟨10485794, 3, 0⟩
/-- STK_STATUS.FENCED, BAR0 offset 0x140004, bits [10:5], RO, reset 0x0. Fenced links, 0–43 -/
def F.STK_STATUS_FENCED : Fld := ⟨10485797, 6, 0⟩
/-- STK_IVCORE.CURRENT, BAR0 offset 0x140008, bits [8:0], RO, reset 0x0. VCORE current from the base-die monitor, units of 0.25 A -/
def F.STK_IVCORE_CURRENT : Fld := ⟨10485824, 9, 0⟩
/-- STK_THRESH.COUNT, BAR0 offset 0x14000C, bits [15:0], RWL, reset 0x10. Under R323 -/
def F.STK_THRESH_COUNT : Fld := ⟨10485856, 16, 16⟩
/-- STK_THRESH.WINDOW, BAR0 offset 0x14000C, bits [31:16], RWL, reset 0x3E8. ms, under R323 -/
def F.STK_THRESH_WINDOW : Fld := ⟨10485872, 16, 1000⟩
/-- STK_FENCED.LINKS, BAR0 offset 0x140010, bits [42:0], RO, reset 0x0. Bit k: link k fenced -/
def F.STK_FENCED_LINKS : Fld := ⟨10485888, 43, 0⟩
/-- STK_UNREACH.BANDS, BAR0 offset 0x140018, bits [23:0], RO, reset 0x0. Under R329 -/
def F.STK_UNREACH_BANDS : Fld := ⟨10485952, 24, 0⟩
/-- STK_UNREACH.DIES, BAR0 offset 0x140018, bits [26:24], RO, reset 0x0. Under R329 -/
def F.STK_UNREACH_DIES : Fld := ⟨10485976, 3, 0⟩
/-- STK_TRIM_QUERY.LINK, BAR0 offset 0x140020, bits [5:0], RW, reset 0x0. Link 0–42 -/
def F.STK_TRIM_QUERY_LINK : Fld := ⟨10486016, 6, 0⟩
/-- STK_TRIM_QUERY.LANE, BAR0 offset 0x140020, bits [15:6], RW, reset 0x0. Lane 0–575 -/
def F.STK_TRIM_QUERY_LANE : Fld := ⟨10486022, 10, 0⟩
/-- STK_TRIM_RESULT.LOWER, BAR0 offset 0x140024, bits [5:0], RO, reset 0x0. Trim at the lower end -/
def F.STK_TRIM_RESULT_LOWER : Fld := ⟨10486048, 6, 0⟩
/-- STK_TRIM_RESULT.UPPER, BAR0 offset 0x140024, bits [13:8], RO, reset 0x0. Trim at the upper end -/
def F.STK_TRIM_RESULT_UPPER : Fld := ⟨10486056, 6, 0⟩
/-- STK_TRIM_RESULT.SIDING, BAR0 offset 0x140024, bits [19:16], RO, reset 0x0. Siding carrying the lane, if SPARED -/
def F.STK_TRIM_RESULT_SIDING : Fld := ⟨10486064, 4, 0⟩
/-- STK_TRIM_RESULT.SPARED, BAR0 offset 0x140024, bits [20:20], RO, reset 0x0. The data lane is carried by a siding -/
def F.STK_TRIM_RESULT_SPARED : Fld := ⟨10486068, 1, 0⟩
/-- STK_TRIM_RESULT.FAILED, BAR0 offset 0x140024, bits [21:21], RO, reset 0x0. The lane has failed -/
def F.STK_TRIM_RESULT_FAILED : Fld := ⟨10486069, 1, 0⟩
/-- STK_Lk_CTRL.RETRAIN, BAR0 offset 0x141000, bits [0:0], W1S, reset 0x0. Enters RETRAIN from UP or GUARD when a siding is FREE; otherwise no effect; reads 1 until the retrain ends -/
def F.STK_Lk_CTRL_RETRAIN (k : Nat) : Fld := ⟨10518528 + (512 * k), 1, 0⟩
/-- STK_Lk_CTRL.FENCE, BAR0 offset 0x141000, bits [1:1], W1S, reset 0x0. Under R327 -/
def F.STK_Lk_CTRL_FENCE (k : Nat) : Fld := ⟨10518529 + (512 * k), 1, 0⟩
/-- STK_Lk_STATUS.STATE, BAR0 offset 0x141004, bits [2:0], RO, reset 0x0. 000 UNTRAINED, 001 UP, 010 GUARD, 011 RETRAIN, 100 FENCED -/
def F.STK_Lk_STATUS_STATE (k : Nat) : Fld := ⟨10518560 + (512 * k), 3, 0⟩
/-- STK_Lk_STATUS.GUARD, BAR0 offset 0x141004, bits [3:3], RO, reset 0x0. Guard cycle applied -/
def F.STK_Lk_STATUS_GUARD (k : Nat) : Fld := ⟨10518563 + (512 * k), 1, 0⟩
/-- STK_Lk_STATUS.GUARD_PERM, BAR0 offset 0x141004, bits [4:4], RO, reset 0x0. Under R318 -/
def F.STK_Lk_STATUS_GUARD_PERM (k : Nat) : Fld := ⟨10518564 + (512 * k), 1, 0⟩
/-- STK_Lk_STATUS.FREE, BAR0 offset 0x141004, bits [9:5], RO, reset 0x0. FREE sidings, 0–16 -/
def F.STK_Lk_STATUS_FREE (k : Nat) : Fld := ⟨10518565 + (512 * k), 5, 0⟩
/-- STK_Lk_STATUS.ERASED, BAR0 offset 0x141004, bits [10:10], RO, reset 0x0. Under R326 -/
def F.STK_Lk_STATUS_ERASED (k : Nat) : Fld := ⟨10518570 + (512 * k), 1, 0⟩
/-- STK_Lk_STATUS.ERASED_BYTE, BAR0 offset 0x141004, bits [17:11], RO, reset 0x0. Codeword byte 0–69 -/
def F.STK_Lk_STATUS_ERASED_BYTE (k : Nat) : Fld := ⟨10518571 + (512 * k), 7, 0⟩
/-- STK_Lk_STATUS.RETRAIN_LANE, BAR0 offset 0x141004, bits [27:18], RO, reset 0x0. Under R319 -/
def F.STK_Lk_STATUS_RETRAIN_LANE (k : Nat) : Fld := ⟨10518578 + (512 * k), 10, 0⟩
/-- STK_Lk_TRAINREC.IVCORE, BAR0 offset 0x141008, bits [8:0], RO, reset 0x0. I_t, units of 0.25 A -/
def F.STK_Lk_TRAINREC_IVCORE (k : Nat) : Fld := ⟨10518592 + (512 * k), 9, 0⟩
/-- STK_Lk_TRAINREC.TEMP, BAR0 offset 0x141008, bits [23:16], RO, reset 0x0. T_t, signed °C -/
def F.STK_Lk_TRAINREC_TEMP (k : Nat) : Fld := ⟨10518608 + (512 * k), 8, 0⟩
/-- STK_Lk_SIDs.LANE, BAR0 offset 0x141010, bits [9:0], RO, reset 0x0. Data lane carried -/
def F.STK_Lk_SIDs_LANE (k : Nat) (s : Nat) : Fld := ⟨10518656 + (512 * k + 16 * s), 10, 0⟩
/-- STK_Lk_SIDs.STATE, BAR0 offset 0x141010, bits [11:10], RO, reset 0x0. Under R316 -/
def F.STK_Lk_SIDs_STATE (k : Nat) (s : Nat) : Fld := ⟨10518666 + (512 * k + 16 * s), 2, 0⟩
/-- STK_Lk_SIDs.FUSED, BAR0 offset 0x141010, bits [12:12], RO, reset 0x0. Assigned from the fuse shadows -/
def F.STK_Lk_SIDs_FUSED (k : Nat) (s : Nat) : Fld := ⟨10518668 + (512 * k + 16 * s), 1, 0⟩
/-- STK_Lk_CHECKFAIL.FAILS, BAR0 offset 0x141030, bits [15:0], RC, reset 0x0. Under R321, saturating -/
def F.STK_Lk_CHECKFAIL_FAILS (k : Nat) : Fld := ⟨10518912 + (512 * k), 16, 0⟩
/-- STK_Lk_CORRBITS.BITS, BAR0 offset 0x141034, bits [31:0], RC, reset 0x0. Under R322, saturating -/
def F.STK_Lk_CORRBITS_BITS (k : Nat) : Fld := ⟨10518944 + (512 * k), 32, 0⟩
/-- STK_Lk_RETRAINS.RETRAINS, BAR0 offset 0x141038, bits [15:0], RC, reset 0x0. Retrains ended, saturating -/
def F.STK_Lk_RETRAINS_RETRAINS (k : Nat) : Fld := ⟨10518976 + (512 * k), 16, 0⟩
/-- STK_Lk_LASTFAIL.LANE, BAR0 offset 0x14103C, bits [9:0], RO, reset 0x0. First failed lane since VALID was cleared -/
def F.STK_Lk_LASTFAIL_LANE (k : Nat) : Fld := ⟨10519008 + (512 * k), 10, 0⟩
/-- STK_Lk_LASTFAIL.CAUSE, BAR0 offset 0x14103C, bits [12:10], RO, reset 0x0. Under R323 -/
def F.STK_Lk_LASTFAIL_CAUSE (k : Nat) : Fld := ⟨10519018 + (512 * k), 3, 0⟩
/-- STK_Lk_LASTFAIL.VALID, BAR0 offset 0x14103C, bits [15:15], W1C, reset 0x0. Record valid; clearing it re-arms the capture -/
def F.STK_Lk_LASTFAIL_VALID (k : Nat) : Fld := ⟨10519023 + (512 * k), 1, 0⟩
/-- ENG_n_CTRL.ENABLE, BAR0 offset 0x180000, bits [0:0], RW, reset 0x0. Under R153, R169 and R13 -/
def F.ENG_n_CTRL_ENABLE (n : Nat) : Fld := ⟨12582912 + (8192 * n), 1, 0⟩
/-- ENG_n_CTRL.START, BAR0 offset 0x180000, bits [4:1], RW, reset 0x0. Bit t: thread t runs, under R153 -/
def F.ENG_n_CTRL_START (n : Nat) : Fld := ⟨12582913 + (8192 * n), 4, 0⟩
/-- ENG_n_CTRL.GATE_EN, BAR0 offset 0x180000, bits [5:5], RW, reset 0x1. 0: the engine never gates itself -/
def F.ENG_n_CTRL_GATE_EN (n : Nat) : Fld := ⟨12582917 + (8192 * n), 1, 1⟩
/-- ENG_n_CTRL.HOSTWIN, BAR0 offset 0x180000, bits [6:6], RWL, reset 0x1. Windows may reach the host window -/
def F.ENG_n_CTRL_HOSTWIN (n : Nat) : Fld := ⟨12582918 + (8192 * n), 1, 1⟩
/-- ENG_n_CTRL.REGS, BAR0 offset 0x180000, bits [7:7], RWL, reset 0x0. Windows may reach the control registers -/
def F.ENG_n_CTRL_REGS (n : Nat) : Fld := ⟨12582919 + (8192 * n), 1, 0⟩
/-- ENG_n_CTRL.SRESET, BAR0 offset 0x180000, bits [30:30], W1S, reset 0x0. BLOCK reset of this engine, under Reset -/
def F.ENG_n_CTRL_SRESET (n : Nat) : Fld := ⟨12582942 + (8192 * n), 1, 0⟩
/-- ENG_n_CTRL.LOCK, BAR0 offset 0x180000, bits [31:31], W1S, reset 0x0. Locks the RWL fields of this engine -/
def F.ENG_n_CTRL_LOCK (n : Nat) : Fld := ⟨12582943 + (8192 * n), 1, 0⟩
/-- ENG_n_STATUS.DRAINING, BAR0 offset 0x180004, bits [0:0], RO, reset 0x0. Under R169 -/
def F.ENG_n_STATUS_DRAINING (n : Nat) : Fld := ⟨12582944 + (8192 * n), 1, 0⟩
/-- ENG_n_STATUS.GATED, BAR0 offset 0x180004, bits [1:1], RO, reset 0x0. Engine clock gated -/
def F.ENG_n_STATUS_GATED (n : Nat) : Fld := ⟨12582945 + (8192 * n), 1, 0⟩
/-- ENG_n_STATUS.THREADS, BAR0 offset 0x180004, bits [9:2], RO, reset 0x0. Two bits per thread: 00 STOPPED, 01 RUN, 10 WAIT, 11 FAULT -/
def F.ENG_n_STATUS_THREADS (n : Nat) : Fld := ⟨12582946 + (8192 * n), 8, 0⟩
/-- ENG_n_STATUS.OUTSTANDING, BAR0 offset 0x180004, bits [20:16], RO, reset 0x0. Window requests outstanding, 0–16 -/
def F.ENG_n_STATUS_OUTSTANDING (n : Nat) : Fld := ⟨12582960 + (8192 * n), 5, 0⟩
/-- ENG_n_Tt_PC.PC, BAR0 offset 0x180010, bits [15:0], RW, reset 0x0. Under R153 -/
def F.ENG_n_Tt_PC_PC (n : Nat) (t : Nat) : Fld := ⟨12583040 + (8192 * n + 128 * t), 16, 0⟩
/-- ENG_n_Tt_FAULT.CAUSE, BAR0 offset 0x180014, bits [3:0], RO, reset 0x0. 0000 none; 0001 ILLEGAL; 0010 FETCH; 0011 ALIGN; 0100 SP_POISON; others as The Proster-32 Instruction Set defines -/
def F.ENG_n_Tt_FAULT_CAUSE (n : Nat) (t : Nat) : Fld := ⟨12583072 + (8192 * n + 128 * t), 4, 0⟩
/-- ENG_n_Tt_MASK.MASK, BAR0 offset 0x180018, bits [31:0], RO, reset 0x0. Wait mask of the last WAIT -/
def F.ENG_n_Tt_MASK_MASK (n : Nat) (t : Nat) : Fld := ⟨12583104 + (8192 * n + 128 * t), 32, 0⟩
/-- ENG_n_WINw.VALID, BAR0 offset 0x180050, bits [0:0], RW, reset 0x0. Window in use -/
def F.ENG_n_WINw_VALID (n : Nat) (w : Nat) : Fld := ⟨12583552 + (8192 * n + 64 * w), 1, 0⟩
/-- ENG_n_WINw.BASE, BAR0 offset 0x180050, bits [47:16], RW, reset 0x0. Device address / 0x1_0000 -/
def F.ENG_n_WINw_BASE (n : Nat) (w : Nat) : Fld := ⟨12583568 + (8192 * n + 64 * w), 32, 0⟩
/-- ENG_n_SIGNAL.SIGNAL, BAR0 offset 0x180090, bits [15:0], W1S, reset 0x0. Under R168 -/
def F.ENG_n_SIGNAL_SIGNAL (n : Nat) : Fld := ⟨12584064 + (8192 * n), 16, 0⟩
/-- ENG_n_NOTIFY.NOTIFY, BAR0 offset 0x180094, bits [15:0], W1C, reset 0x0. Under R168 -/
def F.ENG_n_NOTIFY_NOTIFY (n : Nat) : Fld := ⟨12584096 + (8192 * n), 16, 0⟩
/-- ENG_n_SPORT.EN, BAR0 offset 0x180098, bits [7:0], RW, reset 0xFF. Bit k enables stream port k -/
def F.ENG_n_SPORT_EN (n : Nat) : Fld := ⟨12584128 + (8192 * n), 8, 255⟩
/-- ENG_n_SPORT.CLKSEL, BAR0 offset 0x180098, bits [31:16], RW, reset 0x0. Two bits per port: region clock 0–3 -/
def F.ENG_n_SPORT_CLKSEL (n : Nat) : Fld := ⟨12584144 + (8192 * n), 16, 0⟩
/-- ENG_n_STREAM_TO.TIMEOUT, BAR0 offset 0x18009C, bits [15:0], RW, reset 0x0. µs; 0 none -/
def F.ENG_n_STREAM_TO_TIMEOUT (n : Nat) : Fld := ⟨12584160 + (8192 * n), 16, 0⟩
/-- ENG_n_WERR.STATUS, BAR0 offset 0x1800A0, bits [3:0], RO, reset 0x0. Status of the first failed store -/
def F.ENG_n_WERR_STATUS (n : Nat) : Fld := ⟨12584192 + (8192 * n), 4, 0⟩
/-- ENG_n_WERR.VALID, BAR0 offset 0x1800A0, bits [4:4], W1C, reset 0x0. Record valid; clearing re-arms -/
def F.ENG_n_WERR_VALID (n : Nat) : Fld := ⟨12584196 + (8192 * n), 1, 0⟩
/-- ENG_n_WERR.WINDOW, BAR0 offset 0x1800A0, bits [7:5], RO, reset 0x0. Window used -/
def F.ENG_n_WERR_WINDOW (n : Nat) : Fld := ⟨12584197 + (8192 * n), 3, 0⟩
/-- ENG_n_WERR_OFF.OFFSET, BAR0 offset 0x1800A4, bits [27:0], RO, reset 0x0. Window offset of that store -/
def F.ENG_n_WERR_OFF_OFFSET (n : Nat) : Fld := ⟨12584224 + (8192 * n), 28, 0⟩
/-- ENG_n_WAKEQ.COUNT, BAR0 offset 0x1800A8, bits [4:0], RO, reset 0x0. Messages queued, 0–16 -/
def F.ENG_n_WAKEQ_COUNT (n : Nat) : Fld := ⟨12584256 + (8192 * n), 5, 0⟩
/-- ENG_n_WAKEQ.LOST, BAR0 offset 0x1800A8, bits [15:8], RC, reset 0x0. Under R167, saturating -/
def F.ENG_n_WAKEQ_LOST (n : Nat) : Fld := ⟨12584264 + (8192 * n), 8, 0⟩
/-- ENG_n_TTCQ.COUNT, BAR0 offset 0x1800AC, bits [5:0], RO, reset 0x0. Unread records, 0–32 -/
def F.ENG_n_TTCQ_COUNT (n : Nat) : Fld := ⟨12584288 + (8192 * n), 6, 0⟩
/-- ENG_n_TTCQ.INFLIGHT, BAR0 offset 0x1800AC, bits [13:8], RO, reset 0x0. Insertions in flight -/
def F.ENG_n_TTCQ_INFLIGHT (n : Nat) : Fld := ⟨12584296 + (8192 * n), 6, 0⟩
/-- ENG_n_BUSY.ENGINE, BAR0 offset 0x1800B0, bits [15:0], RC, reset 0x0. Repeated engine loads, saturating -/
def F.ENG_n_BUSY_ENGINE (n : Nat) : Fld := ⟨12584320 + (8192 * n), 16, 0⟩
/-- ENG_n_BUSY.EXTERNAL, BAR0 offset 0x1800B0, bits [31:16], RC, reset 0x0. External requests completed BUSY, saturating -/
def F.ENG_n_BUSY_EXTERNAL (n : Nat) : Fld := ⟨12584336 + (8192 * n), 16, 0⟩
/-- ENG_n_SPERR.CORR, BAR0 offset 0x1800B4, bits [15:0], RC, reset 0x0. Corrected words, saturating -/
def F.ENG_n_SPERR_CORR (n : Nat) : Fld := ⟨12584352 + (8192 * n), 16, 0⟩
/-- ENG_n_SPERR.UNCORR, BAR0 offset 0x1800B4, bits [31:16], RC, reset 0x0. Words poisoned, saturating -/
def F.ENG_n_SPERR_UNCORR (n : Nat) : Fld := ⟨12584368 + (8192 * n), 16, 0⟩
/-- ENG_n_SPORT_DISC.DISC, BAR0 offset 0x1800B8, bits [15:0], RC, reset 0x0. Outbound words discarded, saturating -/
def F.ENG_n_SPORT_DISC_DISC (n : Nat) : Fld := ⟨12584384 + (8192 * n), 16, 0⟩
/-- SBX_CTRL.ENABLE, BAR0 offset 0x1C0000, bits [0:0], RW, reset 0x1. Under R407 -/
def F.SBX_CTRL_ENABLE : Fld := ⟨14680064, 1, 1⟩
/-- SBX_CTRL.SRESET, BAR0 offset 0x1C0000, bits [30:30], W1S, reset 0x0. BLOCK reset of SBX, under R408 -/
def F.SBX_CTRL_SRESET : Fld := ⟨14680094, 1, 0⟩
/-- SBX_CTRL.LOCK, BAR0 offset 0x1C0000, bits [31:31], W1S, reset 0x0. Locks the RWL fields of the SBX block -/
def F.SBX_CTRL_LOCK : Fld := ⟨14680095, 1, 0⟩
/-- SBX_STATUS.DRAINING, BAR0 offset 0x1C0004, bits [0:0], RO, reset 0x0. Under R407 -/
def F.SBX_STATUS_DRAINING : Fld := ⟨14680096, 1, 0⟩
/-- SBX_STATUS.READY, BAR0 offset 0x1C0004, bits [1:1], RO, reset 0x0. Under R398 -/
def F.SBX_STATUS_READY : Fld := ⟨14680097, 1, 0⟩
/-- SBX_STATUS.RECOVERY, BAR0 offset 0x1C0004, bits [2:2], RO, reset 0x0. Under R398 -/
def F.SBX_STATUS_RECOVERY : Fld := ⟨14680098, 1, 0⟩
/-- SBX_STATUS.SLOT, BAR0 offset 0x1C0004, bits [3:3], RO, reset 0x0. Running slot: 0 A, 1 B -/
def F.SBX_STATUS_SLOT : Fld := ⟨14680099, 1, 0⟩
/-- SBX_STATUS.TRIAL, BAR0 offset 0x1C0004, bits [4:4], RO, reset 0x0. The running image has not cleared TRIAL -/
def F.SBX_STATUS_TRIAL : Fld := ⟨14680100, 1, 0⟩
/-- SBX_STATUS.UPDATE, BAR0 offset 0x1C0004, bits [5:5], RO, reset 0x0. An update is open -/
def F.SBX_STATUS_UPDATE : Fld := ⟨14680101, 1, 0⟩
/-- SBX_DOORBELL.RING, BAR0 offset 0x1C0008, bits [0:0], W1S, reset 0x0. Under R388; reads 0 -/
def F.SBX_DOORBELL_RING : Fld := ⟨14680128, 1, 0⟩
/-- SBX_MB_STATUS.BUSY, BAR0 offset 0x1C000C, bits [0:0], RO, reset 0x0. Under R388 -/
def F.SBX_MB_STATUS_BUSY : Fld := ⟨14680160, 1, 0⟩
/-- SBX_MB_STATUS.DONE, BAR0 offset 0x1C000C, bits [1:1], W1C, reset 0x0. A response is in the mailbox -/
def F.SBX_MB_STATUS_DONE : Fld := ⟨14680161, 1, 0⟩
/-- SBX_MB_STATUS.REJECTED, BAR0 offset 0x1C000C, bits [31:16], RC, reset 0x0. Rejected doorbells, saturating -/
def F.SBX_MB_STATUS_REJECTED : Fld := ⟨14680176, 16, 0⟩
/-- SBX_WDOG_CFG.ENABLE, BAR0 offset 0x1C0010, bits [0:0], RWL, reset 0x0. Under R400 -/
def F.SBX_WDOG_CFG_ENABLE : Fld := ⟨14680192, 1, 0⟩
/-- SBX_WDOG_CFG.ACTION, BAR0 offset 0x1C0010, bits [2:1], RWL, reset 0x0. Under R400 -/
def F.SBX_WDOG_CFG_ACTION : Fld := ⟨14680193, 2, 0⟩
/-- SBX_WDOG_CFG.PERIOD, BAR0 offset 0x1C0010, bits [31:16], RWL, reset 0x3E8. ms, 10–65,535; lower values are taken as 10 -/
def F.SBX_WDOG_CFG_PERIOD : Fld := ⟨14680208, 16, 1000⟩
/-- SBX_WDOG_KICK.KICK, BAR0 offset 0x1C0014, bits [15:0], WO, no reset value given (DESIGN CHOICE: 0). Under R400 -/
def F.SBX_WDOG_KICK_KICK : Fld := ⟨14680224, 16, 0⟩
/-- SBX_WDOG_STATUS.REMAIN, BAR0 offset 0x1C0018, bits [15:0], RO, reset 0x0. ms remaining -/
def F.SBX_WDOG_STATUS_REMAIN : Fld := ⟨14680256, 16, 0⟩
/-- SBX_WDOG_STATUS.EXPIRED, BAR0 offset 0x1C0018, bits [23:16], RC, reset 0x0. Expiries, saturating -/
def F.SBX_WDOG_STATUS_EXPIRED : Fld := ⟨14680272, 8, 0⟩
/-- SBX_WDOG_STATUS.BADKICK, BAR0 offset 0x1C0018, bits [31:24], RC, reset 0x0. Under R400, saturating -/
def F.SBX_WDOG_STATUS_BADKICK : Fld := ⟨14680280, 8, 0⟩
/-- SBX_LOG_NEWEST.SEQ, BAR0 offset 0x1C0020, bits [31:0], RO, reset 0x0. SEQ of the newest record -/
def F.SBX_LOG_NEWEST_SEQ : Fld := ⟨14680320, 32, 0⟩
/-- SBX_LOG_OLDEST.SEQ, BAR0 offset 0x1C0024, bits [31:0], RO, reset 0x0. SEQ of the oldest record held -/
def F.SBX_LOG_OLDEST_SEQ : Fld := ⟨14680352, 32, 0⟩
/-- SBX_MIRROR.BACKLOG, BAR0 offset 0x1C0028, bits [8:0], RO, reset 0x0. Records waiting, 0–256 -/
def F.SBX_MIRROR_BACKLOG : Fld := ⟨14680384, 9, 0⟩
/-- SBX_MIRROR.LOST, BAR0 offset 0x1C0028, bits [31:16], RC, reset 0x0. Under R394, saturating -/
def F.SBX_MIRROR_LOST : Fld := ⟨14680400, 16, 0⟩
/-- SBX_FUSE_ARM.ARM, BAR0 offset 0x1C0030, bits [31:0], WO, no reset value given (DESIGN CHOICE: 0). Under R403 -/
def F.SBX_FUSE_ARM_ARM : Fld := ⟨14680448, 32, 0⟩
/-- SBX_MAILBOXi.WORD, BAR0 offset 0x1C1000, bits [31:0], RW, no reset value given (DESIGN CHOICE: 0). Word i of the mailbox, under R387 and R388 -/
def F.SBX_MAILBOXi_WORD (i : Nat) : Fld := ⟨14712832 + (32 * i), 32, 0⟩
/-- BST_CTRL.ENABLE, BAR0 offset 0x1D0000, bits [0:0], RW, reset 0x1. Under R475 -/
def F.BST_CTRL_ENABLE : Fld := ⟨15204352, 1, 1⟩
/-- BST_CTRL.AUTO_REPAIR, BAR0 offset 0x1D0000, bits [1:1], RWL, reset 0x1. Under R468; the start-up flow repairs whatever it reads -/
def F.BST_CTRL_AUTO_REPAIR : Fld := ⟨15204353, 1, 1⟩
/-- BST_CTRL.LOCK, BAR0 offset 0x1D0000, bits [31:31], W1S, reset 0x0. Locks the RWL fields of the BST block -/
def F.BST_CTRL_LOCK : Fld := ⟨15204383, 1, 0⟩
/-- BST_STATUS.DRAINING, BAR0 offset 0x1D0004, bits [0:0], RO, reset 0x0. Under R475 -/
def F.BST_STATUS_DRAINING : Fld := ⟨15204384, 1, 0⟩
/-- BST_STATUS.STARTUP_DONE, BAR0 offset 0x1D0004, bits [1:1], RO, reset 0x0. Under R472 -/
def F.BST_STATUS_STARTUP_DONE : Fld := ⟨15204385, 1, 0⟩
/-- BST_STATUS.RUNNING, BAR0 offset 0x1D0004, bits [12:4], RO, reset 0x0. Bit u: unit u is not IDLE -/
def F.BST_STATUS_RUNNING : Fld := ⟨15204388, 9, 0⟩
/-- BST_RESULT.RECORD, BAR0 offset 0x1D0010, bits [62:0], RC, reset 0x0. Oldest record (R468); reading the upper word removes it -/
def F.BST_RESULT_RECORD : Fld := ⟨15204480, 63, 0⟩
/-- BST_RESULT.VALID, BAR0 offset 0x1D0010, bits [63:63], RC, reset 0x0. 0 when the queue is empty -/
def F.BST_RESULT_VALID : Fld := ⟨15204543, 1, 0⟩
/-- BST_RESULT_COUNT.COUNT, BAR0 offset 0x1D0018, bits [8:0], RO, reset 0x0. Records queued, 0–256 -/
def F.BST_RESULT_COUNT_COUNT : Fld := ⟨15204544, 9, 0⟩
/-- BST_RESULT_COUNT.LOST, BAR0 offset 0x1D0018, bits [31:16], RC, reset 0x0. Under R468, saturating -/
def F.BST_RESULT_COUNT_LOST : Fld := ⟨15204560, 16, 0⟩
/-- BST_IC_FAIL.F2F, BAR0 offset 0x1D0020, bits [2:0], RO, reset 0x0. Bit d − 1: bonds of Ld and Cd -/
def F.BST_IC_FAIL_F2F : Fld := ⟨15204608, 3, 0⟩
/-- BST_IC_FAIL.BASEIF, BAR0 offset 0x1D0020, bits [3:3], RO, reset 0x0. Base interface -/
def F.BST_IC_FAIL_BASEIF : Fld := ⟨15204611, 1, 0⟩
/-- BST_IC_FAIL.TRACKS, BAR0 offset 0x1D0020, bits [5:4], RO, reset 0x0. Bit z: tier z -/
def F.BST_IC_FAIL_TRACKS : Fld := ⟨15204612, 2, 0⟩
/-- BST_IC_FAIL.POWER, BAR0 offset 0x1D0020, bits [6:6], RO, reset 0x0. A power-via array -/
def F.BST_IC_FAIL_POWER : Fld := ⟨15204614, 1, 0⟩
/-- BST_IC_BADREG.REGIONS, BAR0 offset 0x1D0024, bits [71:0], RO, reset 0x0. Under R473 -/
def F.BST_IC_BADREG_REGIONS : Fld := ⟨15204640, 72, 0⟩
/-- BST_FUSE.USED, BAR0 offset 0x1D0030, bits [8:0], RO, reset 0x0. Fuse entries written, 0–256 -/
def F.BST_FUSE_USED : Fld := ⟨15204736, 9, 0⟩
/-- BST_FUSE.BAD, BAR0 offset 0x1D0030, bits [24:16], RO, reset 0x0. Entries ignored under R471 -/
def F.BST_FUSE_BAD : Fld := ⟨15204752, 9, 0⟩
/-- BST_SPARE_QUERY.UNIT, BAR0 offset 0x1D0034, bits [3:0], RW, reset 0x0. Unit 0–8 -/
def F.BST_SPARE_QUERY_UNIT : Fld := ⟨15204768, 4, 0⟩
/-- BST_SPARE_QUERY.BANK, BAR0 offset 0x1D0034, bits [15:8], RW, reset 0x0. Bank -/
def F.BST_SPARE_QUERY_BANK : Fld := ⟨15204776, 8, 0⟩
/-- BST_SPARE_RESULT.ROWS_FREE, BAR0 offset 0x1D0038, bits [4:0], RO, reset 0x0. Free spare rows -/
def F.BST_SPARE_RESULT_ROWS_FREE : Fld := ⟨15204800, 5, 0⟩
/-- BST_SPARE_RESULT.COLS_FREE, BAR0 offset 0x1D0038, bits [11:8], RO, reset 0x0. Free spare columns -/
def F.BST_SPARE_RESULT_COLS_FREE : Fld := ⟨15204808, 4, 0⟩
/-- BST_SPARE_RESULT.ROWS_FUSED, BAR0 offset 0x1D0038, bits [20:16], RO, reset 0x0. Spare rows claimed by fuse -/
def F.BST_SPARE_RESULT_ROWS_FUSED : Fld := ⟨15204816, 5, 0⟩
/-- BST_SPARE_RESULT.COLS_FUSED, BAR0 offset 0x1D0038, bits [27:24], RO, reset 0x0. Spare columns claimed by fuse -/
def F.BST_SPARE_RESULT_COLS_FUSED : Fld := ⟨15204824, 4, 0⟩
/-- BST_Uu_CMD.GO, BAR0 offset 0x1D0100, bits [0:0], W1S, reset 0x0. Under R464; reads 1 while the unit is not IDLE -/
def F.BST_Uu_CMD_GO (u : Nat) : Fld := ⟨15206400 + (128 * u), 1, 0⟩
/-- BST_Uu_CMD.ALG, BAR0 offset 0x1D0100, bits [1:1], RW, reset 0x0. Under R463 -/
def F.BST_Uu_CMD_ALG (u : Nat) : Fld := ⟨15206401 + (128 * u), 1, 0⟩
/-- BST_Uu_CMD.MODE, BAR0 offset 0x1D0100, bits [2:2], RW, reset 0x0. 0 preserving, 1 destructive -/
def F.BST_Uu_CMD_MODE (u : Nat) : Fld := ⟨15206402 + (128 * u), 1, 0⟩
/-- BST_Uu_CMD.BG, BAR0 offset 0x1D0100, bits [5:4], RW, reset 0x0. Under R463 -/
def F.BST_Uu_CMD_BG (u : Nat) : Fld := ⟨15206404 + (128 * u), 2, 0⟩
/-- BST_Uu_CMD.FIRST, BAR0 offset 0x1D0100, bits [15:8], RW, reset 0x0. First bank -/
def F.BST_Uu_CMD_FIRST (u : Nat) : Fld := ⟨15206408 + (128 * u), 8, 0⟩
/-- BST_Uu_CMD.LAST, BAR0 offset 0x1D0100, bits [23:16], RW, reset 0x0. Last bank -/
def F.BST_Uu_CMD_LAST (u : Nat) : Fld := ⟨15206416 + (128 * u), 8, 0⟩
/-- BST_Uu_STATUS.STATE, BAR0 offset 0x1D0104, bits [2:0], RO, reset 0x0. 000 IDLE, 001 COPY, 010 MARCH, 011 REMARCH, 100 RESTORE -/
def F.BST_Uu_STATUS_STATE (u : Nat) : Fld := ⟨15206432 + (128 * u), 3, 0⟩
/-- BST_Uu_STATUS.BANK, BAR0 offset 0x1D0104, bits [15:8], RO, reset 0x0. Bank in progress -/
def F.BST_Uu_STATUS_BANK (u : Nat) : Fld := ⟨15206440 + (128 * u), 8, 0⟩
/-- BST_Uu_STATUS.REFUSE, BAR0 offset 0x1D0104, bits [18:16], RO, reset 0x0. Under R464 -/
def F.BST_Uu_STATUS_REFUSE (u : Nat) : Fld := ⟨15206448 + (128 * u), 3, 0⟩
/-- BST_Uu_STATUS.FAILS, BAR0 offset 0x1D0104, bits [31:20], RC, reset 0x0. Records produced, saturating -/
def F.BST_Uu_STATUS_FAILS (u : Nat) : Fld := ⟨15206452 + (128 * u), 12, 0⟩
/-- DBG_CTRL.ENABLE, BAR0 offset 0x1E0000, bits [0:0], RW, reset 0x1. Under R493 -/
def F.DBG_CTRL_ENABLE : Fld := ⟨15728640, 1, 1⟩
/-- DBG_CTRL.LOCK, BAR0 offset 0x1E0000, bits [31:31], W1S, reset 0x0. Locks the RWL fields of the DBG block -/
def F.DBG_CTRL_LOCK : Fld := ⟨15728671, 1, 0⟩
/-- DBG_STATUS.DRAINING, BAR0 offset 0x1E0004, bits [0:0], RO, reset 0x0. Under R493 -/
def F.DBG_STATUS_DRAINING : Fld := ⟨15728672, 1, 0⟩
/-- DBG_STATUS.LOCKSTATE, BAR0 offset 0x1E0004, bits [2:1], RO, reset 0x1. 00 OPEN, 01 LOCKED, 10 UNLOCKED-BY-CHALLENGE -/
def F.DBG_STATUS_LOCKSTATE : Fld := ⟨15728673, 2, 1⟩
/-- DBG_KEYSEL.KEYSEL, BAR0 offset 0x1E0008, bits [0:0], RW, reset 0x0. Under R481 -/
def F.DBG_KEYSEL_KEYSEL : Fld := ⟨15728704, 1, 0⟩
/-- DBG_FRAME_CTRL.GO, BAR0 offset 0x1E000C, bits [0:0], W1S, reset 0x0. Under R492; reads 1 while checking -/
def F.DBG_FRAME_CTRL_GO : Fld := ⟨15728736, 1, 0⟩
/-- DBG_FRAME_CTRL.STATUS, BAR0 offset 0x1E000C, bits [4:1], RO, reset 0x0. Shared status (R15) -/
def F.DBG_FRAME_CTRL_STATUS : Fld := ⟨15728737, 4, 0⟩
/-- DBG_FRAME_CTRL.FSTAT, BAR0 offset 0x1E000C, bits [8:5], RO, reset 0x0. Frame status (R361) -/
def F.DBG_FRAME_CTRL_FSTAT : Fld := ⟨15728741, 4, 0⟩
/-- DBG_FRAME_CTRL.DONE, BAR0 offset 0x1E000C, bits [9:9], W1C, reset 0x0. Write ended -/
def F.DBG_FRAME_CTRL_DONE : Fld := ⟨15728745, 1, 0⟩
/-- DBG_PUBKEY.PUBKEY, BAR0 offset 0x1E0020, bits [255:0], RW, reset 0x0. Customer key for the mailbox path -/
def F.DBG_PUBKEY_PUBKEY : Fld := ⟨15728896, 256, 0⟩
/-- DBG_PATCHED.REGIONS, BAR0 offset 0x1E0040, bits [71:0], RO, reset 0x0. Under R492 -/
def F.DBG_PATCHED_REGIONS : Fld := ⟨15729152, 72, 0⟩
/-- DBG_ENGn_CTRL.HALT, BAR0 offset 0x1E1000, bits [3:0], W1S, reset 0x0. Bit t, under R485 -/
def F.DBG_ENGn_CTRL_HALT (n : Nat) : Fld := ⟨15761408 + (512 * n), 4, 0⟩
/-- DBG_ENGn_CTRL.RESUME, BAR0 offset 0x1E1000, bits [7:4], W1S, reset 0x0 -/
def F.DBG_ENGn_CTRL_RESUME (n : Nat) : Fld := ⟨15761412 + (512 * n), 4, 0⟩
/-- DBG_ENGn_CTRL.STEP, BAR0 offset 0x1E1000, bits [11:8], W1S, reset 0x0 -/
def F.DBG_ENGn_CTRL_STEP (n : Nat) : Fld := ⟨15761416 + (512 * n), 4, 0⟩
/-- DBG_ENGn_CTRL.ATTACH, BAR0 offset 0x1E1000, bits [12:12], RW, reset 0x0 -/
def F.DBG_ENGn_CTRL_ATTACH (n : Nat) : Fld := ⟨15761420 + (512 * n), 1, 0⟩
/-- DBG_ENGn_CTRL.HALT_ALL, BAR0 offset 0x1E1000, bits [13:13], RW, reset 0x0 -/
def F.DBG_ENGn_CTRL_HALT_ALL (n : Nat) : Fld := ⟨15761421 + (512 * n), 1, 0⟩
/-- DBG_ENGn_STATUS.HALTED, BAR0 offset 0x1E1004, bits [3:0], RO, reset 0x0. Bit t -/
def F.DBG_ENGn_STATUS_HALTED (n : Nat) : Fld := ⟨15761440 + (512 * n), 4, 0⟩
/-- DBG_ENGn_STATUS.PENDING, BAR0 offset 0x1E1004, bits [7:4], RO, reset 0x0. Halt awaiting its boundary -/
def F.DBG_ENGn_STATUS_PENDING (n : Nat) : Fld := ⟨15761444 + (512 * n), 4, 0⟩
/-- DBG_ENGn_STATUS.CAUSE, BAR0 offset 0x1E1004, bits [19:8], RO, reset 0x0. Three bits per thread -/
def F.DBG_ENGn_STATUS_CAUSE (n : Nat) : Fld := ⟨15761448 + (512 * n), 12, 0⟩
/-- DBG_ENGn_BPb.PC, BAR0 offset 0x1E1008, bits [15:0], RW, reset 0x0. Under R486 -/
def F.DBG_ENGn_BPb_PC (n : Nat) (b : Nat) : Fld := ⟨15761472 + (512 * n + 32 * b), 16, 0⟩
/-- DBG_ENGn_BPb.THREADS, BAR0 offset 0x1E1008, bits [19:16], RW, reset 0x0 -/
def F.DBG_ENGn_BPb_THREADS (n : Nat) (b : Nat) : Fld := ⟨15761488 + (512 * n + 32 * b), 4, 0⟩
/-- DBG_ENGn_BPb.EN, BAR0 offset 0x1E1008, bits [20:20], RW, reset 0x0 -/
def F.DBG_ENGn_BPb_EN (n : Nat) (b : Nat) : Fld := ⟨15761492 + (512 * n + 32 * b), 1, 0⟩
/-- DBG_ENGn_WPw.ADDR, BAR0 offset 0x1E1018, bits [31:0], RW, reset 0x0. Under R486 -/
def F.DBG_ENGn_WPw_ADDR (n : Nat) (w : Nat) : Fld := ⟨15761600 + (512 * n + 64 * w), 32, 0⟩
/-- DBG_ENGn_WPw.THREADS, BAR0 offset 0x1E1018, bits [35:32], RW, reset 0x0 -/
def F.DBG_ENGn_WPw_THREADS (n : Nat) (w : Nat) : Fld := ⟨15761632 + (512 * n + 64 * w), 4, 0⟩
/-- DBG_ENGn_WPw.KIND, BAR0 offset 0x1E1018, bits [37:36], RW, reset 0x0 -/
def F.DBG_ENGn_WPw_KIND (n : Nat) (w : Nat) : Fld := ⟨15761636 + (512 * n + 64 * w), 2, 0⟩
/-- DBG_ENGn_WPw.EN, BAR0 offset 0x1E1018, bits [38:38], RW, reset 0x0 -/
def F.DBG_ENGn_WPw_EN (n : Nat) (w : Nat) : Fld := ⟨15761638 + (512 * n + 64 * w), 1, 0⟩
/-- DBG_ENGn_WPw.LEN, BAR0 offset 0x1E1018, bits [63:48], RW, reset 0x0. Bytes minus one -/
def F.DBG_ENGn_WPw_LEN (n : Nat) (w : Nat) : Fld := ⟨15761648 + (512 * n + 64 * w), 16, 0⟩
/-- DBG_ENGn_WHIT.ADDR, BAR0 offset 0x1E1028, bits [31:0], RO, reset 0x0. Last watch hit -/
def F.DBG_ENGn_WHIT_ADDR (n : Nat) : Fld := ⟨15761728 + (512 * n), 32, 0⟩
/-- DBG_ENGn_WHIT.WP, BAR0 offset 0x1E1028, bits [32:32], RO, reset 0x0 -/
def F.DBG_ENGn_WHIT_WP (n : Nat) : Fld := ⟨15761760 + (512 * n), 1, 0⟩
/-- DBG_ENGn_WHIT.THREAD, BAR0 offset 0x1E1028, bits [34:33], RO, reset 0x0 -/
def F.DBG_ENGn_WHIT_THREAD (n : Nat) : Fld := ⟨15761761 + (512 * n), 2, 0⟩
/-- DBG_REGr_CTRL.FREEZE, BAR0 offset 0x1E4000, bits [0:0], RW, reset 0x0. Under R488 -/
def F.DBG_REGr_CTRL_FREEZE (r : Nat) : Fld := ⟨15859712 + (256 * r), 1, 0⟩
/-- DBG_REGr_CTRL.CAPTURE, BAR0 offset 0x1E4000, bits [1:1], W1S, reset 0x0. Under R490 -/
def F.DBG_REGr_CTRL_CAPTURE (r : Nat) : Fld := ⟨15859713 + (256 * r), 1, 0⟩
/-- DBG_REGr_CTRL.PULSE, BAR0 offset 0x1E4000, bits [31:16], WO, no reset value given (DESIGN CHOICE: 0). Under R489 -/
def F.DBG_REGr_CTRL_PULSE (r : Nat) : Fld := ⟨15859728 + (256 * r), 16, 0⟩
/-- DBG_REGr_STATUS.FROZEN, BAR0 offset 0x1E4004, bits [0:0], RO, reset 0x0 -/
def F.DBG_REGr_STATUS_FROZEN (r : Nat) : Fld := ⟨15859744 + (256 * r), 1, 0⟩
/-- DBG_REGr_STATUS.PULSING, BAR0 offset 0x1E4004, bits [1:1], RO, reset 0x0 -/
def F.DBG_REGr_STATUS_PULSING (r : Nat) : Fld := ⟨15859745 + (256 * r), 1, 0⟩
/-- DBG_REGr_STATUS.CAPSTAT, BAR0 offset 0x1E4004, bits [5:2], RO, reset 0x0. OK or DENIED -/
def F.DBG_REGr_STATUS_CAPSTAT (r : Nat) : Fld := ⟨15859746 + (256 * r), 4, 0⟩
/-- DBG_REGr_STATUS.EDGES, BAR0 offset 0x1E4004, bits [31:16], RC, reset 0x0. Pulsed edges, saturating -/
def F.DBG_REGr_STATUS_EDGES (r : Nat) : Fld := ⟨15859760 + (256 * r), 16, 0⟩
/-- DBG_REGr_CAP.TILE, BAR0 offset 0x1E4008, bits [9:0], RW, reset 0x0. Tile captured -/
def F.DBG_REGr_CAP_TILE (r : Nat) : Fld := ⟨15859776 + (256 * r), 10, 0⟩
/-- DBG_CAP_DATA.FLOPS, BAR0 offset 0x1E6000, bits [511:0], RO, reset 0x0. Under R490 -/
def F.DBG_CAP_DATA_FLOPS : Fld := ⟨15925248, 512, 0⟩
/-- DBG_FRAMEi.WORD, BAR0 offset 0x1E8000, bits [31:0], RW, no reset value given (DESIGN CHOICE: 0). Word i of the debug frame, bytes as R339 -/
def F.DBG_FRAMEi_WORD (i : Nat) : Fld := ⟨15990784 + (32 * i), 32, 0⟩
/-- IOB_CTRL.LOCK, BAR0 offset 0x1F0000, bits [31:31], W1S, reset 0x0. Locks the RWL fields of the IOB block -/
def F.IOB_CTRL_LOCK : Fld := ⟨16252959, 1, 0⟩
/-- IOB_ENC.EN, BAR0 offset 0x1F0004, bits [3:0], RWL, reset 0x0. Bit k under R509 -/
def F.IOB_ENC_EN : Fld := ⟨16252960, 4, 0⟩
/-- IOB_LG_STATUS.STRAP, BAR0 offset 0x1F0008, bits [1:0], RO, reset 0x0. LPULL0, LPULL1 as read -/
def F.IOB_LG_STATUS_STRAP : Fld := ⟨16252992, 2, 0⟩
/-- IOB_BANKb_CFG.VIO, BAR0 offset 0x1F0100, bits [1:0], RWL, reset 0x3. 00 1.2 V, 01 1.8 V, 10 2.5 V, 11 3.3 V; under R506 -/
def F.IOB_BANKb_CFG_VIO (b : Nat) : Fld := ⟨16254976 + (32 * b), 2, 3⟩
/-- IOB_BANKb_STATUS.VIO_FAULT, BAR0 offset 0x1F0120, bits [0:0], RO, reset 0x0. Under R506 -/
def F.IOB_BANKb_STATUS_VIO_FAULT (b : Nat) : Fld := ⟨16255232 + (32 * b), 1, 0⟩
/-- IOB_BANKb_STATUS.PAD_FAULT, BAR0 offset 0x1F0120, bits [1:1], RO, reset 0x0. Under R505 -/
def F.IOB_BANKb_STATUS_PAD_FAULT (b : Nat) : Fld := ⟨16255233 + (32 * b), 1, 0⟩
/-- IOB_BANKb_STATUS.LOCKED, BAR0 offset 0x1F0120, bits [2:2], RO, reset 0x0. Bank clock locked, under R504 -/
def F.IOB_BANKb_STATUS_LOCKED (b : Nat) : Fld := ⟨16255234 + (32 * b), 1, 0⟩
/-- IOB_BANKb_STATUS.VMEAS, BAR0 offset 0x1F0120, bits [27:16], RO, reset 0x0. VIOb in mV, from the last round -/
def F.IOB_BANKb_STATUS_VMEAS (b : Nat) : Fld := ⟨16255248 + (32 * b), 12, 0⟩
/-- PCI_CTRL.ENABLE, BAR0 offset 0x200000, bits [0:0], RW, reset 0x1. Under R384 -/
def F.PCI_CTRL_ENABLE : Fld := ⟨16777216, 1, 1⟩
/-- PCI_CTRL.LOCK, BAR0 offset 0x200000, bits [31:31], W1S, reset 0x0. Locks the RWL fields of the PCI block -/
def F.PCI_CTRL_LOCK : Fld := ⟨16777247, 1, 0⟩
/-- PCI_STATUS.DRAINING, BAR0 offset 0x200004, bits [0:0], RO, reset 0x0. Under R384 -/
def F.PCI_STATUS_DRAINING : Fld := ⟨16777248, 1, 0⟩
/-- PCI_STATUS.LINK_UP, BAR0 offset 0x200004, bits [1:1], RO, reset 0x0. Link in L0 or L1 -/
def F.PCI_STATUS_LINK_UP : Fld := ⟨16777249, 1, 0⟩
/-- PCI_STATUS.SPEED, BAR0 offset 0x200004, bits [4:2], RO, reset 0x0. 001 2.5, 010 5.0, 011 8.0, 100 16.0 GT/s -/
def F.PCI_STATUS_SPEED : Fld := ⟨16777250, 3, 0⟩
/-- PCI_STATUS.WIDTH, BAR0 offset 0x200004, bits [7:5], RO, reset 0x0. Lanes: 001 ×1, 010 ×2, 100 ×4 -/
def F.PCI_STATUS_WIDTH : Fld := ⟨16777253, 3, 0⟩
/-- PCI_STATUS.BME, BAR0 offset 0x200004, bits [8:8], RO, reset 0x0. Bus Master Enable of function 0 -/
def F.PCI_STATUS_BME : Fld := ⟨16777256, 1, 0⟩
/-- PCI_STATUS.D3HOT, BAR0 offset 0x200004, bits [9:9], RO, reset 0x0. Function 0 in D3hot -/
def F.PCI_STATUS_D3HOT : Fld := ⟨16777257, 1, 0⟩
/-- PCI_EVT_EN.BLOCKS, BAR0 offset 0x200008, bits [32:0], RW, reset 0x1F11F57FF. Bit b: events of block code b send vector 0. Every bit of a code listed in R530 resets to 1; bits of other codes read 0 and ignore writes (R532) -/
def F.PCI_EVT_EN_BLOCKS : Fld := ⟨16777280, 33, 8340330495⟩
/-- PCI_CNT_BAD_WR.BAD_WR, BAR0 offset 0x200010, bits [15:0], RC, reset 0x0. Under R373, saturating -/
def F.PCI_CNT_BAD_WR_BAD_WR : Fld := ⟨16777344, 16, 0⟩
/-- PCI_BAR2_WERR.STATUS, BAR0 offset 0x200014, bits [3:0], RO, reset 0x0. Status of the first failed BAR2 write -/
def F.PCI_BAR2_WERR_STATUS : Fld := ⟨16777376, 4, 0⟩
/-- PCI_BAR2_WERR.VALID, BAR0 offset 0x200014, bits [4:4], W1C, reset 0x0. Record valid; clearing re-arms it -/
def F.PCI_BAR2_WERR_VALID : Fld := ⟨16777380, 1, 0⟩
/-- PCI_BAR2_WERR_OFF.OFFSET, BAR0 offset 0x200018, bits [27:0], RO, reset 0x0. BAR2 offset of that write -/
def F.PCI_BAR2_WERR_OFF_OFFSET : Fld := ⟨16777408, 28, 0⟩
/-- PCI_UF_TO.TIMEOUT, BAR0 offset 0x20001C, bits [15:0], RW, reset 0x3E8. µs, under R378; 0 is treated as 1 -/
def F.PCI_UF_TO_TIMEOUT : Fld := ⟨16777440, 16, 1000⟩
/-- PCI_UF_DISC.DISC, BAR0 offset 0x200020, bits [15:0], RC, reset 0x0. Under R378, saturating -/
def F.PCI_UF_DISC_DISC : Fld := ⟨16777472, 16, 0⟩
/-- PCI_LINK_DOWN.DOWNS, BAR0 offset 0x200024, bits [15:0], RC, reset 0x0. Link-down occurrences, saturating -/
def F.PCI_LINK_DOWN_DOWNS : Fld := ⟨16777504, 16, 0⟩
/-- PCI_MSIXv_ADDR.ADDRESS, BAR0 offset 0x208000, bits [63:0], RW, reset 0x0. Message address; bits [1:0] read 0 -/
def F.PCI_MSIXv_ADDR_ADDRESS (v : Nat) : Fld := ⟨17039360 + (128 * v), 64, 0⟩
/-- PCI_MSIXv_DATA.DATA, BAR0 offset 0x208008, bits [31:0], RW, reset 0x0. Message data -/
def F.PCI_MSIXv_DATA_DATA (v : Nat) : Fld := ⟨17039424 + (128 * v), 32, 0⟩
/-- PCI_MSIXv_CTRL.MASK, BAR0 offset 0x20800C, bits [0:0], RW, reset 0x1. Vector masked -/
def F.PCI_MSIXv_CTRL_MASK (v : Nat) : Fld := ⟨17039456 + (128 * v), 1, 1⟩
/-- PCI_PBA.PENDING, BAR0 offset 0x209000, bits [255:0], RO, reset 0x0. Bit v: vector v pending, under R380 -/
def F.PCI_PBA_PENDING : Fld := ⟨17072128, 256, 0⟩

/-! ### Rows for the generic access

One row per field: the field's first instance, the strides and counts of its indices in bytes, its access type, its
range handling (R11), and whether its write or read has an effect of its own that the generic access leaves alone. -/

/-- Rows of the GLB block (R530), part 0. -/
def rowsGLB0 : List RegRow :=
  [⟨F.GLB_ID_PART, 0, 1, 0, 1, .ro, .any, false⟩,
   ⟨F.GLB_ID_STEPPING, 0, 1, 0, 1, .ro, .any, false⟩,
   ⟨F.GLB_ID_GRADE, 0, 1, 0, 1, .ro, .any, false⟩,
   ⟨F.GLB_STATUS_BSTOP, 0, 1, 0, 1, .ro, .any, false⟩,
   ⟨F.GLB_STATUS_RT_VALID, 0, 1, 0, 1, .ro, .any, false⟩,
   ⟨F.GLB_STATUS_TRAINED, 0, 1, 0, 1, .ro, .any, false⟩,
   ⟨F.GLB_STATUS_MEM_INIT, 0, 1, 0, 1, .ro, .any, false⟩,
   ⟨F.GLB_STATUS_STARTUP_DONE, 0, 1, 0, 1, .ro, .any, false⟩,
   ⟨F.GLB_STATUS_SBX_READY, 0, 1, 0, 1, .ro, .any, false⟩,
   ⟨F.GLB_STATUS_FUSE_FAULT, 0, 1, 0, 1, .ro, .any, false⟩,
   ⟨F.GLB_STATUS_THM_STATE, 0, 1, 0, 1, .ro, .any, false⟩,
   ⟨F.GLB_RST_CAUSE_SOURCE, 0, 1, 0, 1, .ro, .any, false⟩,
   ⟨F.GLB_RST_CAUSE_QUAL, 0, 1, 0, 1, .ro, .any, false⟩,
   ⟨F.GLB_RST_CAUSE_ENGINE, 0, 1, 0, 1, .ro, .any, false⟩,
   ⟨F.GLB_RESET_FULL, 0, 1, 0, 1, .w1s, .any, true⟩,
   ⟨F.GLB_RESET_KEY, 0, 1, 0, 1, .wo, .any, true⟩,
   ⟨F.GLB_NMI_STATUS_CLKMON, 0, 1, 0, 1, .w1c, .any, true⟩,
   ⟨F.GLB_NMI_STATUS_XOFAIL, 0, 1, 0, 1, .w1c, .any, true⟩,
   ⟨F.GLB_NMI_STATUS_FAULT, 0, 1, 0, 1, .ro, .any, false⟩]
/-- Rows of the RST block (R530), part 0. -/
def rowsRST0 : List RegRow :=
  [⟨F.RST_CTRL_RING_EN, 0, 1, 0, 1, .rwl, .any, false⟩,
   ⟨F.RST_CTRL_LOCK, 0, 1, 0, 1, .w1s, .any, false⟩,
   ⟨F.RST_RING_SRC_NODE, 0, 1, 0, 1, .rwl, .any, false⟩,
   ⟨F.RST_DIE_HOLD, 0, 1, 0, 1, .rw, .any, true⟩,
   ⟨F.RST_DIE_IN_RESET, 0, 1, 0, 1, .ro, .any, false⟩,
   ⟨F.RST_DIE_TO_TIMEOUT, 0, 1, 0, 1, .rw, (.clamp 1 1000), false⟩,
   ⟨F.RST_BLOCK_GO, 0, 1, 0, 1, .w1s, .any, true⟩,
   ⟨F.RST_STATUS_FUSE_DONE, 0, 1, 0, 1, .ro, .any, false⟩,
   ⟨F.RST_STATUS_FUSE_FAULT, 0, 1, 0, 1, .ro, .any, false⟩,
   ⟨F.RST_STATUS_FUSE_TRIES, 0, 1, 0, 1, .ro, .any, false⟩,
   ⟨F.RST_FORCED_COUNT, 0, 1, 0, 1, .rc, .any, false⟩,
   ⟨F.RST_FORCED_LAST, 0, 1, 0, 1, .ro, .any, false⟩,
   ⟨(F.RST_IDLE_TOb_TIMEOUT 0), 4, 33, 0, 1, .rw, (.clamp 1 1000), false⟩]
/-- Rows of the CLK block (R530), part 0. -/
def rowsCLK0 : List RegRow :=
  [⟨F.CLK_CTRL_ENABLE, 0, 1, 0, 1, .rw, .any, true⟩,
   ⟨F.CLK_CTRL_FRO_ON, 0, 1, 0, 1, .rw, .any, true⟩,
   ⟨F.CLK_CTRL_RETURN, 0, 1, 0, 1, .w1s, .any, true⟩,
   ⟨F.CLK_CTRL_LOCK, 0, 1, 0, 1, .w1s, .any, false⟩,
   ⟨F.CLK_STATUS_DRAINING, 0, 1, 0, 1, .ro, .any, false⟩,
   ⟨F.CLK_STATUS_SYSCLK, 0, 1, 0, 1, .ro, .any, false⟩,
   ⟨F.CLK_STATUS_REF_STABLE, 0, 1, 0, 1, .ro, .any, false⟩,
   ⟨F.CLK_STATUS_FRO_STABLE, 0, 1, 0, 1, .ro, .any, false⟩,
   ⟨F.CLK_STATUS_XO_FAIL, 0, 1, 0, 1, .ro, .any, false⟩,
   ⟨F.CLK_STATUS_FROZEN, 0, 1, 0, 1, .ro, .any, false⟩,
   ⟨F.CLK_STATUS_OP_BUSY, 0, 1, 0, 1, .ro, .any, false⟩,
   ⟨F.CLK_OP_TARGET, 0, 1, 0, 1, .rw, .any, true⟩,
   ⟨F.CLK_OP_CURRENT, 0, 1, 0, 1, .ro, .any, false⟩,
   ⟨F.CLK_OP_REFUSED, 0, 1, 0, 1, .rc, .any, false⟩,
   ⟨F.CLK_AVS_FREQ, 0, 1, 0, 1, .rwl, (.within 1 20), false⟩,
   ⟨F.CLK_AVS_TIMEOUT, 0, 1, 0, 1, .rwl, (.within 1 255), false⟩,
   ⟨F.CLK_AVS_VREAD, 0, 1, 0, 1, .ro, .any, false⟩,
   ⟨(F.CLK_ENGd_DIV 1), 4, 3, 0, 1, .rw, .any, false⟩,
   ⟨F.CLK_GATE_TO_COUNT, 0, 1, 0, 1, .rc, .any, false⟩,
   ⟨F.CLK_MON_TRIPS_COUNT, 0, 1, 0, 1, .rc, .any, false⟩,
   ⟨(F.CLK_FPLLn_EN 0), 4, 24, 0, 1, .rw, .any, true⟩,
   ⟨(F.CLK_FPLLn_LOCKED 0), 4, 24, 0, 1, .ro, .any, false⟩,
   ⟨(F.CLK_FPLLn_M 0), 4, 24, 0, 1, .rw, (.within 64 128), true⟩,
   ⟨(F.CLK_FPLLn_O0 0), 4, 24, 0, 1, .rw, (.within 2 64), true⟩]
/-- Rows of the CLK block (R530), part 1. -/
def rowsCLK1 : List RegRow :=
  [⟨(F.CLK_FPLLn_O1 0), 4, 24, 0, 1, .rw, (.within 2 64), true⟩]
/-- Rows of the PWR block (R530), part 0. -/
def rowsPWR0 : List RegRow :=
  [⟨F.PWR_CTRL_ENABLE, 0, 1, 0, 1, .rw, .any, true⟩,
   ⟨F.PWR_CTRL_TARGET, 0, 1, 0, 1, .rw, .any, false⟩,
   ⟨F.PWR_CTRL_GO, 0, 1, 0, 1, .w1s, .any, true⟩,
   ⟨F.PWR_CTRL_LOCK, 0, 1, 0, 1, .w1s, .any, false⟩,
   ⟨F.PWR_STATUS_DRAINING, 0, 1, 0, 1, .ro, .any, false⟩,
   ⟨F.PWR_STATUS_STATE, 0, 1, 0, 1, .ro, .any, false⟩,
   ⟨F.PWR_STATUS_PHASE, 0, 1, 0, 1, .ro, .any, false⟩,
   ⟨F.PWR_STATUS_REFUSE, 0, 1, 0, 1, .ro, .any, false⟩,
   ⟨F.PWR_WAKE_EN_SOURCES, 0, 1, 0, 1, .rw, .any, true⟩,
   ⟨F.PWR_WAKE_CAUSE_CAUSE, 0, 1, 0, 1, .w1c, .any, false⟩,
   ⟨F.PWR_WAKE_TIMER_PERIODS, 0, 1, 0, 1, .rw, .any, false⟩,
   ⟨F.PWR_WAKE_FAIL_CONSEC, 0, 1, 0, 1, .ro, .any, false⟩,
   ⟨F.PWR_WAKE_FAIL_TOTAL, 0, 1, 0, 1, .rc, .any, false⟩,
   ⟨F.PWR_WAKE_FAIL_CAUSE, 0, 1, 0, 1, .ro, .any, false⟩,
   ⟨F.PWR_WAKE_FAIL_RAIL, 0, 1, 0, 1, .ro, .any, false⟩,
   ⟨F.PWR_PGOOD_TO_TIMEOUT, 0, 1, 0, 1, .rwl, .any, false⟩,
   ⟨F.PWR_OSC_TO_TIMEOUT, 0, 1, 0, 1, .rwl, (.clamp 50 1000), false⟩,
   ⟨F.PWR_RAILS_EN, 0, 1, 0, 1, .ro, .any, false⟩,
   ⟨F.PWR_RAILS_PGOOD, 0, 1, 0, 1, .ro, .any, false⟩]
/-- Rows of the THM block (R530), part 0. -/
def rowsTHM0 : List RegRow :=
  [⟨F.THM_CTRL_ENABLE, 0, 1, 0, 1, .rw, .any, true⟩,
   ⟨F.THM_CTRL_LOCK, 0, 1, 0, 1, .w1s, .any, false⟩,
   ⟨F.THM_STATUS_DRAINING, 0, 1, 0, 1, .ro, .any, false⟩,
   ⟨F.THM_STATUS_STATE, 0, 1, 0, 1, .ro, .any, false⟩,
   ⟨F.THM_STATUS_SLOWDOWN, 0, 1, 0, 1, .ro, .any, false⟩,
   ⟨F.THM_STATUS_HOTTEST, 0, 1, 0, 1, .ro, .any, false⟩,
   ⟨F.THM_LIMITS_WARN, 0, 1, 0, 1, .rwl, .any, false⟩,
   ⟨F.THM_LIMITS_CRIT, 0, 1, 0, 1, .rwl, .any, false⟩,
   ⟨F.THM_LIMITS_TRIP, 0, 1, 0, 1, .rwl, (.clamp 0 120), false⟩,
   ⟨F.THM_LIMITS_HYST, 0, 1, 0, 1, .rwl, .any, false⟩,
   ⟨F.THM_RATE_RWARN, 0, 1, 0, 1, .rwl, .any, false⟩,
   ⟨F.THM_RATE_RCRIT, 0, 1, 0, 1, .rwl, .any, false⟩,
   ⟨F.THM_THROTTLE_BULK_WARN, 0, 1, 0, 1, .rw, .any, false⟩,
   ⟨F.THM_THROTTLE_BULK_CRIT, 0, 1, 0, 1, .rw, .any, false⟩,
   ⟨F.THM_THROTTLE_ENG_WARN, 0, 1, 0, 1, .rw, .any, false⟩,
   ⟨F.THM_THROTTLE_ENG_CRIT, 0, 1, 0, 1, .rw, .any, false⟩,
   ⟨F.THM_THROTTLE_SKIP_WARN, 0, 1, 0, 1, .rw, .any, false⟩,
   ⟨F.THM_THROTTLE_SKIP_CRIT, 0, 1, 0, 1, .rw, .any, false⟩,
   ⟨F.THM_EXEMPT_REGIONS, 0, 1, 0, 1, .rw, .any, false⟩,
   ⟨F.THM_PEAK_TEMP, 0, 1, 0, 1, .rc, .any, false⟩,
   ⟨(F.THM_Sn_TEMP 0), 4, 20, 0, 1, .ro, .any, false⟩,
   ⟨(F.THM_Sn_RATE 0), 4, 20, 0, 1, .ro, .any, false⟩,
   ⟨(F.THM_Sn_FAIL 0), 4, 20, 0, 1, .ro, .any, false⟩]
/-- Rows of the CFG block (R530), part 0. -/
def rowsCFG0 : List RegRow :=
  [⟨F.CFG_CTRL_ENABLE, 0, 1, 0, 1, .rw, .any, true⟩,
   ⟨F.CFG_CTRL_READBACK_EN, 0, 1, 0, 1, .rwl, .any, false⟩,
   ⟨F.CFG_CTRL_REVEAL, 0, 1, 0, 1, .w1s, .any, true⟩,
   ⟨F.CFG_CTRL_LOCK, 0, 1, 0, 1, .w1s, .any, false⟩,
   ⟨F.CFG_STATUS_DRAINING, 0, 1, 0, 1, .ro, .any, false⟩,
   ⟨F.CFG_STATUS_RESULT, 0, 1, 0, 1, .ro, .any, false⟩,
   ⟨F.CFG_STATUS_END_CAUSE, 0, 1, 0, 1, .ro, .any, false⟩,
   ⟨F.CFG_STATUS_DEADLINE_MISS, 0, 1, 0, 1, .w1c, .any, false⟩,
   ⟨F.CFG_STATUS_KEY_CAUSE, 0, 1, 0, 1, .ro, .any, false⟩,
   ⟨F.CFG_STATUS_HIDING, 0, 1, 0, 1, .ro, .any, false⟩,
   ⟨F.CFG_SESSION_OPEN, 0, 1, 0, 1, .w1s, .any, true⟩,
   ⟨F.CFG_SESSION_FINISH, 0, 1, 0, 1, .w1s, .any, true⟩,
   ⟨F.CFG_SESSION_ABORT, 0, 1, 0, 1, .w1s, .any, true⟩,
   ⟨F.CFG_SESSION_SRC, 0, 1, 0, 1, .rw, .any, false⟩,
   ⟨F.CFG_SESSION_RING, 0, 1, 0, 1, .rw, .any, false⟩,
   ⟨F.CFG_IDLE_TO_TIMEOUT, 0, 1, 0, 1, .rw, .any, false⟩,
   ⟨F.CFG_PROGRESS_BYTES, 0, 1, 0, 1, .ro, .any, false⟩,
   ⟨F.CFG_FAIL_AT_OFFSET, 0, 1, 0, 1, .ro, .any, false⟩,
   ⟨F.CFG_FRAMES_ACCEPTED, 0, 1, 0, 1, .ro, .any, false⟩,
   ⟨F.CFG_REJECTS_REJECTED, 0, 1, 0, 1, .ro, .any, false⟩,
   ⟨F.CFG_FRAME_ERR_STATUS, 0, 1, 0, 1, .ro, .any, false⟩,
   ⟨F.CFG_FRAME_ERR_VALID, 0, 1, 0, 1, .w1c, .any, false⟩,
   ⟨F.CFG_FRAME_ERR_ADDR_ADDRESS, 0, 1, 0, 1, .ro, .any, false⟩,
   ⟨F.CFG_DISCARDED_BYTES, 0, 1, 0, 1, .rc, .any, false⟩]
/-- Rows of the CFG block (R530), part 1. -/
def rowsCFG1 : List RegRow :=
  [⟨F.CFG_DEADLINE_MS, 0, 1, 0, 1, .rw, .any, true⟩,
   ⟨F.CFG_DEADLINE_FUNCS, 0, 1, 0, 1, .rw, .any, true⟩,
   ⟨F.CFG_KEYSLOTS_SLOT0, 0, 1, 0, 1, .ro, .any, false⟩,
   ⟨F.CFG_KEYSLOTS_SLOT1, 0, 1, 0, 1, .ro, .any, false⟩,
   ⟨F.CFG_KEYSLOTS_SLOT2, 0, 1, 0, 1, .ro, .any, false⟩,
   ⟨F.CFG_KEYSLOTS_SLOT3, 0, 1, 0, 1, .ro, .any, false⟩,
   ⟨F.CFG_KEYSLOTS_AES, 0, 1, 0, 1, .ro, .any, false⟩,
   ⟨F.CFG_RB_ADDR_ADDRESS, 0, 1, 0, 1, .rw, .any, false⟩,
   ⟨F.CFG_RB_CTRL_GO, 0, 1, 0, 1, .w1s, .any, true⟩,
   ⟨F.CFG_RB_CTRL_DONE, 0, 1, 0, 1, .w1c, .any, false⟩,
   ⟨F.CFG_RB_CTRL_STATUS, 0, 1, 0, 1, .ro, .any, false⟩,
   ⟨F.CFG_ENC_REGIONS_REGIONS, 0, 1, 0, 1, .ro, .any, false⟩,
   ⟨F.CFG_VT_QUERY_TRACK, 0, 1, 0, 1, .rw, .any, false⟩,
   ⟨F.CFG_VT_QUERY_CTX, 0, 1, 0, 1, .rw, .any, false⟩,
   ⟨F.CFG_VT_OWNER_CLAIM, 0, 1, 0, 1, .ro, .any, false⟩,
   ⟨F.CFG_VT_OWNER_DRIVEN, 0, 1, 0, 1, .ro, .any, false⟩,
   ⟨F.CFG_VT_OWNER_VALUE, 0, 1, 0, 1, .ro, .any, false⟩,
   ⟨F.CFG_VT_STATS_CLAIMS, 0, 1, 0, 1, .ro, .any, false⟩,
   ⟨F.CFG_VT_STATS_REJECTS, 0, 1, 0, 1, .rc, .any, false⟩,
   ⟨F.CFG_VT_STATS_UNCORR, 0, 1, 0, 1, .rc, .any, false⟩,
   ⟨(F.CFG_RB_DATAi_WORD 0), 4, 514, 0, 1, .ro, .any, false⟩]
/-- Rows of the CTX block (R530), part 0. -/
def rowsCTX0 : List RegRow :=
  [⟨F.CTX_CTRL_ENABLE, 0, 1, 0, 1, .rw, .any, true⟩,
   ⟨F.CTX_CTRL_UNCORR_STOP, 0, 1, 0, 1, .rwl, .any, false⟩,
   ⟨F.CTX_CTRL_SCRUB_EN, 0, 1, 0, 1, .rwl, .any, false⟩,
   ⟨F.CTX_CTRL_LOCK, 0, 1, 0, 1, .w1s, .any, false⟩,
   ⟨F.CTX_STATUS_DRAINING, 0, 1, 0, 1, .ro, .any, false⟩,
   ⟨F.CTX_STATUS_SCRUB_MS, 0, 1, 0, 1, .ro, .any, false⟩,
   ⟨F.CTX_SCRUB_CNT_CORR, 0, 1, 0, 1, .rc, .any, false⟩,
   ⟨F.CTX_SCRUB_CNT_UNCORR, 0, 1, 0, 1, .rc, .any, false⟩,
   ⟨F.CTX_REFUSED_REFUSED, 0, 1, 0, 1, .rc, .any, false⟩,
   ⟨(F.CTX_REGr_ACTIVE_CTX 0), 32, 72, 0, 1, .ro, .any, false⟩,
   ⟨(F.CTX_REGr_ACTIVE_SWITCHING 0), 32, 72, 0, 1, .ro, .any, false⟩,
   ⟨(F.CTX_REGr_ACTIVE_NEXT 0), 32, 72, 0, 1, .ro, .any, false⟩,
   ⟨(F.CTX_REGr_PLANES_PLANES 0), 32, 72, 0, 1, .ro, .any, false⟩,
   ⟨(F.CTX_REGr_REQ_CTX 0), 32, 72, 0, 1, .wo, .any, true⟩,
   ⟨(F.CTX_REGr_CLEAR_PLANES 0), 32, 72, 0, 1, .wo, .any, true⟩,
   ⟨(F.CTX_REGr_REFUSED_REFUSED 0), 32, 72, 0, 1, .rc, .any, false⟩,
   ⟨(F.CTX_REGr_REFUSED_SUPERSEDED 0), 32, 72, 0, 1, .rc, .any, false⟩,
   ⟨(F.CTX_REGr_SWITCHES_SWITCHES 0), 32, 72, 0, 1, .rc, .any, false⟩,
   ⟨(F.CTX_REGr_LASTREF_REASON 0), 32, 72, 0, 1, .ro, .any, false⟩,
   ⟨(F.CTX_REGr_LASTREF_SOURCE 0), 32, 72, 0, 1, .ro, .any, false⟩,
   ⟨(F.CTX_REGr_LASTREF_CTX 0), 32, 72, 0, 1, .ro, .any, false⟩,
   ⟨(F.CTX_REGr_LASTREF_VALID 0), 32, 72, 0, 1, .w1c, .any, false⟩]
/-- Rows of the FAB block (R530), part 0. -/
def rowsFAB0 : List RegRow :=
  [⟨F.FAB_CTRL_ENABLE, 0, 1, 0, 1, .rw, .any, true⟩,
   ⟨F.FAB_CTRL_LOCK, 0, 1, 0, 1, .w1s, .any, false⟩,
   ⟨F.FAB_STATUS_DRAINING, 0, 1, 0, 1, .ro, .any, false⟩,
   ⟨F.FAB_STATUS_RUNNING, 0, 1, 0, 1, .ro, .any, false⟩,
   ⟨F.FAB_STATUS_SLEEPING, 0, 1, 0, 1, .ro, .any, false⟩,
   ⟨(F.FAB_BANKb_OWN_REGION 0), 4, 10, 0, 1, .ro, .any, false⟩,
   ⟨(F.FAB_BANKb_OWN_VALID 0), 4, 10, 0, 1, .ro, .any, false⟩,
   ⟨(F.FAB_BANKb_OWN_PADSTOP 0), 4, 10, 0, 1, .ro, .any, false⟩,
   ⟨(F.FAB_FUNCf_OWN_REGION 1), 4, 3, 0, 1, .ro, .any, false⟩,
   ⟨(F.FAB_FUNCf_OWN_VALID 1), 4, 3, 0, 1, .ro, .any, false⟩,
   ⟨F.FAB_CUFF_QUERY_TILE, 0, 1, 0, 1, .rw, .any, false⟩,
   ⟨F.FAB_CUFF_QUERY_REGION, 0, 1, 0, 1, .rw, .any, false⟩,
   ⟨F.FAB_CUFF_QUERY_INDEX, 0, 1, 0, 1, .rw, (.within 0 143), false⟩,
   ⟨F.FAB_CUFF_RESULT_MODE, 0, 1, 0, 1, .ro, .any, false⟩,
   ⟨F.FAB_CUFF_RESULT_EFFECTIVE, 0, 1, 0, 1, .ro, .any, false⟩,
   ⟨F.FAB_CUFF_RESULT_VALUE, 0, 1, 0, 1, .ro, .any, false⟩,
   ⟨F.FAB_CUFF_RESULT_EXISTS, 0, 1, 0, 1, .ro, .any, false⟩,
   ⟨(F.FAB_REGr_STATUS_STATE 0), 64, 72, 0, 1, .ro, .any, false⟩,
   ⟨(F.FAB_REGr_STATUS_SLEEPING 0), 64, 72, 0, 1, .ro, .any, false⟩,
   ⟨(F.FAB_REGr_STATUS_CLKRUN 0), 64, 72, 0, 1, .ro, .any, false⟩,
   ⟨(F.FAB_REGr_CTRL_AUTO_SLEEP 0), 64, 72, 0, 1, .rw, .any, false⟩,
   ⟨(F.FAB_REGr_CTRL_WAKE 0), 64, 72, 0, 1, .w1s, .any, true⟩,
   ⟨(F.FAB_REGr_CTRL_STOP 0), 64, 72, 0, 1, .w1s, .any, true⟩,
   ⟨(F.FAB_REGr_CTRL_START 0), 64, 72, 0, 1, .w1s, .any, true⟩]
/-- Rows of the FAB block (R530), part 1. -/
def rowsFAB1 : List RegRow :=
  [⟨(F.FAB_REGr_CLK_SEL0 0), 64, 72, 0, 1, .rwl, .any, true⟩,
   ⟨(F.FAB_REGr_CLK_SEL1 0), 64, 72, 0, 1, .rwl, .any, true⟩,
   ⟨(F.FAB_REGr_CLK_SEL2 0), 64, 72, 0, 1, .rwl, .any, true⟩,
   ⟨(F.FAB_REGr_CLK_SEL3 0), 64, 72, 0, 1, .rwl, .any, true⟩,
   ⟨(F.FAB_REGr_CLK_EN 0), 64, 72, 0, 1, .rwl, .any, true⟩,
   ⟨(F.FAB_REGr_STBk_LINE 0 0), 64, 72, 4, 8, .rw, .any, false⟩,
   ⟨(F.FAB_REGr_STBk_CLKSEL 0 0), 64, 72, 4, 8, .rw, .any, false⟩,
   ⟨(F.FAB_REGr_STBk_EN 0 0), 64, 72, 4, 8, .rw, .any, false⟩,
   ⟨(F.FAB_REGr_STB_CNT_MERGED 0), 64, 72, 0, 1, .rc, .any, false⟩,
   ⟨(F.FAB_REGr_STB_CNT_DISC 0), 64, 72, 0, 1, .rc, .any, false⟩,
   ⟨(F.FAB_REGr_BMERR_CORR 0), 64, 72, 0, 1, .rc, .any, false⟩,
   ⟨(F.FAB_REGr_BMERR_UNCORR 0), 64, 72, 0, 1, .rc, .any, false⟩,
   ⟨(F.FAB_REGr_QERR_QERR 0), 64, 72, 0, 1, .rc, .any, false⟩,
   ⟨(F.FAB_REGr_WAKES_WAKES 0), 64, 72, 0, 1, .rc, .any, false⟩,
   ⟨(F.FAB_REGr_RC_RETURN 0), 16, 72, 0, 1, .ro, .any, false⟩,
   ⟨(F.FAB_REGr_RC_STAGED 0), 16, 72, 0, 1, .ro, .any, false⟩,
   ⟨(F.FAB_REGr_RC_REFUSED 0), 16, 72, 0, 1, .rc, .any, false⟩]
/-- Rows of the TT block (R530), part 0. -/
def rowsTT0 : List RegRow :=
  [⟨F.TT_CTRL_ENABLE, 0, 1, 0, 1, .rw, .any, true⟩,
   ⟨F.TT_CTRL_SRC_EN, 0, 1, 0, 1, .rw, .any, false⟩,
   ⟨F.TT_CTRL_REMOTE_INT, 0, 1, 0, 1, .rwl, .any, false⟩,
   ⟨F.TT_CTRL_LOCK, 0, 1, 0, 1, .w1s, .any, false⟩,
   ⟨F.TT_STATUS_DRAINING, 0, 1, 0, 1, .ro, .any, false⟩,
   ⟨F.TT_STATUS_READY, 0, 1, 0, 1, .ro, .any, false⟩,
   ⟨F.TT_STATUS_RESERVED, 0, 1, 0, 1, .ro, .any, false⟩,
   ⟨F.TT_STATUS_FLUSHING, 0, 1, 0, 1, .ro, .any, false⟩,
   ⟨F.TT_STATUS_CFG_ERR, 0, 1, 0, 1, .w1c, .any, false⟩,
   ⟨F.TT_SIZE_ENTRIES, 0, 1, 0, 1, .rw, .any, true⟩,
   ⟨F.TT_USED_USED, 0, 1, 0, 1, .ro, .any, false⟩,
   ⟨F.TT_PEAK_PEAK, 0, 1, 0, 1, .rc, .any, false⟩,
   ⟨F.TT_RETIRED_RETIRED, 0, 1, 0, 1, .ro, .any, false⟩,
   ⟨F.TT_HIN_ENTRY, 0, 1, 0, 1, .wo, .any, true⟩,
   ⟨F.TT_HIN_GO_TAG, 0, 1, 0, 1, .wo, .any, true⟩,
   ⟨F.TT_HCQ_STATUS_COUNT, 0, 1, 0, 1, .ro, .any, false⟩,
   ⟨F.TT_HCQ_STATUS_CREDITS, 0, 1, 0, 1, .ro, .any, false⟩,
   ⟨F.TT_HCQ_DROPS_DROPS, 0, 1, 0, 1, .rc, .any, false⟩,
   ⟨F.TT_HCQ_RECORD, 0, 1, 0, 1, .rc, .any, true⟩,
   ⟨F.TT_FLUSH_AXIS, 0, 1, 0, 1, .rw, .any, false⟩,
   ⟨F.TT_FLUSH_MODE, 0, 1, 0, 1, .rw, .any, false⟩,
   ⟨F.TT_FLUSH_REV, 0, 1, 0, 1, .rw, .any, false⟩,
   ⟨F.TT_FLUSH_GO, 0, 1, 0, 1, .w1s, .any, true⟩,
   ⟨F.TT_FLUSH_CNT_COUNT, 0, 1, 0, 1, .rc, .any, false⟩]
/-- Rows of the TT block (R530), part 1. -/
def rowsTT1 : List RegRow :=
  [⟨F.TT_CNT_OK_COUNT, 0, 1, 0, 1, .rc, .any, false⟩,
   ⟨F.TT_CNT_LATE_COUNT, 0, 1, 0, 1, .rc, .any, false⟩,
   ⟨F.TT_CNT_FULL_COUNT, 0, 1, 0, 1, .rc, .any, false⟩,
   ⟨F.TT_CNT_DECODE_COUNT, 0, 1, 0, 1, .rc, .any, false⟩,
   ⟨F.TT_CNT_OTHER_COUNT, 0, 1, 0, 1, .rc, .any, false⟩,
   ⟨F.TT_CNT_LOST_COUNT, 0, 1, 0, 1, .rc, .any, false⟩,
   ⟨F.TT_TRAP_ENTRY, 0, 1, 0, 1, .ro, .any, false⟩,
   ⟨F.TT_TRAP_INFO_VALID, 0, 1, 0, 1, .w1c, .any, false⟩,
   ⟨F.TT_TRAP_INFO_CLASS, 0, 1, 0, 1, .ro, .any, false⟩,
   ⟨F.TT_TRAP_INFO_LOST, 0, 1, 0, 1, .rc, .any, false⟩,
   ⟨(F.TT_AXn_FRONT_BUCKET 0), 8, 16, 0, 1, .ro, .any, false⟩,
   ⟨(F.TT_AXn_FRONT_NONE 0), 8, 16, 0, 1, .ro, .any, false⟩,
   ⟨(F.TT_AXn_FRONT_REV 0), 8, 16, 0, 1, .ro, .any, false⟩,
   ⟨(F.TT_FPn_CFG_CLKSEL 0), 4, 24, 0, 1, .rw, .any, false⟩,
   ⟨(F.TT_FPn_CFG_INFLIGHT 0), 4, 24, 0, 1, .ro, .any, false⟩,
   ⟨(F.TT_FPn_CFG_UNREAD 0), 4, 24, 0, 1, .ro, .any, false⟩]
/-- Rows of the DSP block (R530), part 0. -/
def rowsDSP0 : List RegRow :=
  [⟨F.DSP_CTRL_ENABLE, 0, 1, 0, 1, .rw, .any, true⟩,
   ⟨F.DSP_CTRL_GRPFAIL_STOP, 0, 1, 0, 1, .rwl, .any, false⟩,
   ⟨F.DSP_CTRL_LOCK, 0, 1, 0, 1, .w1s, .any, false⟩,
   ⟨F.DSP_STATUS_DRAINING, 0, 1, 0, 1, .ro, .any, false⟩,
   ⟨F.DSP_STATUS_BSTOP, 0, 1, 0, 1, .ro, .any, false⟩,
   ⟨F.DSP_STATUS_STORE_USED, 0, 1, 0, 1, .ro, .any, false⟩,
   ⟨F.DSP_LEAD_LEAD, 0, 1, 0, 1, .rwl, .any, true⟩,
   ⟨F.DSP_RETIME_THRESH_THRESH, 0, 1, 0, 1, .rw, .any, false⟩,
   ⟨F.DSP_COMMIT_MARGIN_MARGIN, 0, 1, 0, 1, .rwl, .any, true⟩,
   ⟨F.DSP_BSTOP_REQ, 0, 1, 0, 1, .w1s, .any, true⟩,
   ⟨F.DSP_BSTOP_CLEAR, 0, 1, 0, 1, .wo, .any, true⟩,
   ⟨F.DSP_BSTOP_CAUSE, 0, 1, 0, 1, .ro, .any, false⟩,
   ⟨F.DSP_GRPFAIL_LIMIT_COUNT, 0, 1, 0, 1, .rwl, .any, false⟩,
   ⟨F.DSP_GRPFAIL_LIMIT_WINDOW, 0, 1, 0, 1, .rwl, .any, false⟩,
   ⟨(F.DSP_RAILr_CFG_ENABLE 0), 64, 8, 0, 1, .rwl, .any, false⟩,
   ⟨(F.DSP_RAILr_CFG_UNIT 0), 64, 8, 0, 1, .rwl, (.within 1 100), false⟩,
   ⟨(F.DSP_RAILr_CFG_WINDOW 0), 64, 8, 0, 1, .rwl, (.within 1 1024), false⟩,
   ⟨(F.DSP_RAILr_CEIL_CEIL 0), 64, 8, 0, 1, .rwl, .any, false⟩,
   ⟨(F.DSP_RAILr_STEP_STEP 0), 64, 8, 0, 1, .rwl, .any, false⟩,
   ⟨(F.DSP_RAILr_RESERVE_RESERVE 0), 64, 8, 0, 1, .rwl, .any, false⟩,
   ⟨(F.DSP_RAILr_LEVEL_LEVEL 0), 64, 8, 0, 1, .ro, .any, false⟩,
   ⟨(F.DSP_RAILr_PEAK_PEAK 0), 64, 8, 0, 1, .rc, .any, false⟩,
   ⟨(F.DSP_RAILr_DEFER_DEFERRED 0), 64, 8, 0, 1, .rc, .any, false⟩,
   ⟨(F.DSP_RAILr_RATION_RATION 0), 64, 8, 0, 1, .rc, .any, false⟩]
/-- Rows of the DSP block (R530), part 1. -/
def rowsDSP1 : List RegRow :=
  [⟨(F.DSP_RAILr_OVERRUN_OVERRUN 0), 64, 8, 0, 1, .rc, .any, false⟩,
   ⟨F.DSP_RAIL8_CFG_ENABLE, 0, 1, 0, 1, .rwl, .any, false⟩,
   ⟨F.DSP_RAIL8_CFG_UNIT, 0, 1, 0, 1, .rwl, .any, false⟩,
   ⟨F.DSP_RAIL8_CFG_WINDOW, 0, 1, 0, 1, .rwl, .any, false⟩,
   ⟨F.DSP_RAIL8_STEP_STEP, 0, 1, 0, 1, .rwl, .any, false⟩,
   ⟨F.DSP_RAIL8_COST_REGION_START, 0, 1, 0, 1, .rwl, .any, false⟩,
   ⟨F.DSP_RAIL8_COST_ENGINE_WAKE, 0, 1, 0, 1, .rwl, .any, false⟩,
   ⟨F.DSP_RAIL8_COST_PLANE_LOAD, 0, 1, 0, 1, .rwl, .any, false⟩,
   ⟨F.DSP_RAIL8_STATUS_WAITING, 0, 1, 0, 1, .ro, .any, false⟩,
   ⟨F.DSP_RAIL8_STATUS_OVER, 0, 1, 0, 1, .rc, .any, false⟩,
   ⟨(F.DSP_PORTp_LAT_LAT 0), 32, 4, 0, 1, .ro, .any, false⟩,
   ⟨(F.DSP_PORTp_RTT_RTT 0), 32, 4, 0, 1, .ro, .any, false⟩,
   ⟨(F.DSP_PORTp_JOURNAL_USED 0), 32, 4, 0, 1, .ro, .any, false⟩,
   ⟨(F.DSP_PORTp_JOURNAL_OUTSTANDING 0), 32, 4, 0, 1, .ro, .any, false⟩,
   ⟨(F.DSP_PORTp_REPLAY_REPLAYED 0), 32, 4, 0, 1, .rc, .any, false⟩,
   ⟨(F.DSP_PORTp_MISSED_MISSED 0), 32, 4, 0, 1, .rc, .any, false⟩,
   ⟨F.DSP_GRP_FB_FB, 0, 1, 0, 1, .rw, .any, false⟩,
   ⟨F.DSP_GRP_RING_BASE, 0, 1, 0, 1, .rwl, .any, true⟩,
   ⟨F.DSP_GRP_WP_WP, 0, 1, 0, 1, .ro, .any, false⟩,
   ⟨F.DSP_GRP_RP_RP, 0, 1, 0, 1, .rw, .any, false⟩,
   ⟨F.DSP_GRP_DROPPED_DROPPED, 0, 1, 0, 1, .rc, .any, false⟩,
   ⟨F.DSP_TRAP_ENTRY, 0, 1, 0, 1, .ro, .any, false⟩,
   ⟨F.DSP_TRAP_INFO_VALID, 0, 1, 0, 1, .w1c, .any, false⟩,
   ⟨F.DSP_TRAP_INFO_LOST, 0, 1, 0, 1, .rc, .any, false⟩]
/-- Rows of the DSP block (R530), part 2. -/
def rowsDSP2 : List RegRow :=
  [⟨F.DSP_CNT_FIRED_COUNT, 0, 1, 0, 1, .rc, .any, false⟩,
   ⟨F.DSP_CNT_LATE_COUNT, 0, 1, 0, 1, .rc, .any, false⟩,
   ⟨F.DSP_CNT_DECODE_COUNT, 0, 1, 0, 1, .rc, .any, false⟩,
   ⟨F.DSP_CNT_DENIED_COUNT, 0, 1, 0, 1, .rc, .any, false⟩,
   ⟨F.DSP_CNT_DISABLED_COUNT, 0, 1, 0, 1, .rc, .any, false⟩,
   ⟨F.DSP_CNT_GROUP_FAIL_COUNT, 0, 1, 0, 1, .rc, .any, false⟩,
   ⟨F.DSP_CNT_RATION_COUNT, 0, 1, 0, 1, .rc, .any, false⟩,
   ⟨F.DSP_CNT_RETIME_MISS_COUNT, 0, 1, 0, 1, .rc, .any, false⟩,
   ⟨F.DSP_CNT_REQUEUE_LOST_COUNT, 0, 1, 0, 1, .rc, .any, false⟩,
   ⟨F.DSP_CNT_INT_SLIP_COUNT, 0, 1, 0, 1, .rc, .any, false⟩]
/-- Rows of the ANG block (R530), part 0. -/
def rowsANG0 : List RegRow :=
  [⟨F.ANG_CTRL_ENABLE, 0, 1, 0, 1, .rw, .any, true⟩,
   ⟨F.ANG_CTRL_LOST_STOP, 0, 1, 0, 1, .rwl, .any, false⟩,
   ⟨F.ANG_CTRL_LOCK, 0, 1, 0, 1, .w1s, .any, false⟩,
   ⟨F.ANG_STATUS_DRAINING, 0, 1, 0, 1, .ro, .any, false⟩,
   ⟨F.ANG_STATUS_RT_VALID, 0, 1, 0, 1, .ro, .any, false⟩,
   ⟨F.ANG_STATUS_RT_STATE, 0, 1, 0, 1, .ro, .any, false⟩,
   ⟨F.ANG_STATUS_HOPS, 0, 1, 0, 1, .ro, .any, false⟩,
   ⟨F.ANG_STATUS_RT_ERR, 0, 1, 0, 1, .ro, .any, false⟩,
   ⟨F.ANG_RTM_ROLE_ROLE, 0, 1, 0, 1, .rwl, .any, true⟩,
   ⟨F.ANG_RTM_ROLE_RCLK_LANE, 0, 1, 0, 1, .rwl, .any, false⟩,
   ⟨F.ANG_RT_TIME, 0, 1, 0, 1, .ro, .any, false⟩,
   ⟨F.ANG_RT_SET_START, 0, 1, 0, 1, .rwl, .any, false⟩,
   ⟨F.ANG_RT_TIMING_SYNC_TIMEOUT, 0, 1, 0, 1, .rwl, (.within 16 65535), false⟩,
   ⟨F.ANG_RT_TIMING_HOLDOVER, 0, 1, 0, 1, .rwl, .any, false⟩,
   ⟨F.ANG_PTM_CTRL_CAPTURE, 0, 1, 0, 1, .w1s, .any, true⟩,
   ⟨F.ANG_PTM_CTRL_DONE, 0, 1, 0, 1, .w1c, .any, false⟩,
   ⟨F.ANG_PTM_HOST_HOST_TIME, 0, 1, 0, 1, .ro, .any, false⟩,
   ⟨F.ANG_PTM_RT_RING_TIME, 0, 1, 0, 1, .ro, .any, false⟩,
   ⟨(F.ANG_ENCk_CFG_MODE 0), 16, 4, 0, 1, .rw, .any, false⟩,
   ⟨(F.ANG_ENCk_CFG_ZREQ 0), 16, 4, 0, 1, .rw, .any, false⟩,
   ⟨(F.ANG_ENCk_CFG_DIR 0), 16, 4, 0, 1, .rw, .any, false⟩,
   ⟨(F.ANG_ENCk_CFG_SSI_BITS 0), 16, 4, 0, 1, .rw, (.within 10 32), false⟩,
   ⟨(F.ANG_ENCk_CFG_SSI_GRAY 0), 16, 4, 0, 1, .rw, .any, false⟩,
   ⟨(F.ANG_ENCk_CFG_SSI_DIV 0), 16, 4, 0, 1, .rw, .any, false⟩]
/-- Rows of the ANG block (R530), part 1. -/
def rowsANG1 : List RegRow :=
  [⟨(F.ANG_ENCk_CFG_FILTER 0), 16, 4, 0, 1, .rw, .any, false⟩,
   ⟨(F.ANG_ENCk_CPR_CPR 0), 16, 4, 0, 1, .rw, (.within 4 16777215), false⟩,
   ⟨(F.ANG_ENCk_SSIPER_SSIPER 0), 16, 4, 0, 1, .rw, (.within 10 4095), false⟩,
   ⟨(F.ANG_AXn_CFG_ENABLE 0), 64, 16, 0, 1, .rw, .any, true⟩,
   ⟨(F.ANG_AXn_CFG_SRC 0), 64, 16, 0, 1, .rw, .any, true⟩,
   ⟨(F.ANG_AXn_CFG_BEACON_NODE 0), 64, 16, 0, 1, .rw, .any, true⟩,
   ⟨(F.ANG_AXn_CFG_BEACON_AXIS 0), 64, 16, 0, 1, .rw, .any, true⟩,
   ⟨(F.ANG_AXn_ZERO_OFFSET 0), 64, 16, 0, 1, .rw, .any, false⟩,
   ⟨(F.ANG_AXn_ACCEL_ACCEL 0), 64, 16, 0, 1, .rw, .any, false⟩,
   ⟨(F.ANG_AXn_LIMITS_ERRLIM 0), 64, 16, 0, 1, .rw, .any, false⟩,
   ⟨(F.ANG_AXn_TIMEOUT_TIMEOUT 0), 64, 16, 0, 1, .rw, .any, false⟩,
   ⟨(F.ANG_AXn_REVSET_REVSET 0), 64, 16, 0, 1, .rw, .any, false⟩,
   ⟨(F.ANG_AXn_STAMP_STAMP 0), 64, 16, 0, 1, .ro, .any, false⟩,
   ⟨(F.ANG_AXn_VEL_VEL 0), 64, 16, 0, 1, .ro, .any, false⟩,
   ⟨(F.ANG_AXn_STATUS_STATE 0), 64, 16, 0, 1, .ro, .any, false⟩,
   ⟨(F.ANG_AXn_STATUS_REVERSE 0), 64, 16, 0, 1, .ro, .any, false⟩,
   ⟨(F.ANG_AXn_STATUS_CLAMPS 0), 64, 16, 0, 1, .rc, .any, false⟩,
   ⟨(F.ANG_AXn_STATUS_SLIPS 0), 64, 16, 0, 1, .rc, .any, false⟩,
   ⟨(F.ANG_AXn_VIRT_STAMP 0), 64, 16, 0, 1, .wo, .any, true⟩,
   ⟨(F.ANG_AXn_VIRT_VEL_VEL 0), 64, 16, 0, 1, .wo, .any, true⟩]
/-- Rows of the WNG block (R530), part 0. -/
def rowsWNG0 : List RegRow :=
  [⟨(F.WNG_Pp_CTRL_ENABLE 0), 16384, 4, 0, 1, .rw, .any, true⟩,
   ⟨(F.WNG_Pp_CTRL_MODE 0), 16384, 4, 0, 1, .rwl, .any, false⟩,
   ⟨(F.WNG_Pp_CTRL_LANES 0), 16384, 4, 0, 1, .rwl, .any, false⟩,
   ⟨(F.WNG_Pp_CTRL_ENUM 0), 16384, 4, 0, 1, .w1s, .any, true⟩,
   ⟨(F.WNG_Pp_CTRL_LOCK 0), 16384, 4, 0, 1, .w1s, .any, false⟩,
   ⟨(F.WNG_Pp_STATUS_DRAINING 0), 16384, 4, 0, 1, .ro, .any, false⟩,
   ⟨(F.WNG_Pp_STATUS_STATE 0), 16384, 4, 0, 1, .ro, .any, false⟩,
   ⟨(F.WNG_Pp_STATUS_MODULES 0), 16384, 4, 0, 1, .ro, .any, false⟩,
   ⟨(F.WNG_Pp_STATUS_QUARANTINED 0), 16384, 4, 0, 1, .ro, .any, false⟩,
   ⟨(F.WNG_Pp_ACKTO_ACKTO 0), 16384, 4, 0, 1, .rwl, .any, false⟩,
   ⟨(F.WNG_Pp_CNT_CRC_CRC 0), 16384, 4, 0, 1, .rc, .any, false⟩,
   ⟨(F.WNG_Pp_CNT_NAK_NAK 0), 16384, 4, 0, 1, .rc, .any, false⟩,
   ⟨(F.WNG_Pp_CNT_ACKTO_ACKTO 0), 16384, 4, 0, 1, .rc, .any, false⟩,
   ⟨(F.WNG_Pp_MODn_STATE 0 0), 16384, 4, 4, 255, .ro, .any, false⟩,
   ⟨(F.WNG_Pp_MODn_REASON 0 0), 16384, 4, 4, 255, .ro, .any, false⟩,
   ⟨(F.WNG_Pp_MODn_MAKER 0 0), 16384, 4, 4, 255, .ro, .any, false⟩,
   ⟨F.WNG_NODE_CTRL_NODE_ID, 0, 1, 0, 1, .rwl, .any, false⟩,
   ⟨F.WNG_NODE_CTRL_REQUIRE_SIGNED, 0, 1, 0, 1, .rwl, .any, false⟩,
   ⟨F.WNG_NODE_CTRL_KEY_VALID, 0, 1, 0, 1, .rwl, .any, false⟩,
   ⟨F.WNG_BEACON_EN_AXES, 0, 1, 0, 1, .rwl, .any, false⟩,
   ⟨F.WNG_RI_ENTRY_ENTRY, 0, 1, 0, 1, .wo, .any, true⟩,
   ⟨F.WNG_RI_GO_DST, 0, 1, 0, 1, .wo, .any, true⟩,
   ⟨F.WNG_RI_GO_TAG, 0, 1, 0, 1, .wo, .any, true⟩,
   ⟨F.WNG_RI_CQ_RECORD, 0, 1, 0, 1, .rc, .any, true⟩]
/-- Rows of the WNG block (R530), part 1. -/
def rowsWNG1 : List RegRow :=
  [⟨F.WNG_RI_TIMEOUT_TIMEOUT, 0, 1, 0, 1, .rw, .any, false⟩,
   ⟨F.WNG_RI_DROPS_DROPS, 0, 1, 0, 1, .rc, .any, false⟩,
   ⟨F.WNG_MB_TX_DATA, 0, 1, 0, 1, .wo, .any, true⟩,
   ⟨F.WNG_MB_TX_GO_DST, 0, 1, 0, 1, .wo, .any, true⟩,
   ⟨F.WNG_MB_TX_GO_CHAN, 0, 1, 0, 1, .wo, .any, true⟩,
   ⟨F.WNG_MB_RX_DATA, 0, 1, 0, 1, .ro, .any, false⟩,
   ⟨F.WNG_MB_RX_SRC, 0, 1, 0, 1, .ro, .any, false⟩,
   ⟨F.WNG_MB_RX_CHAN, 0, 1, 0, 1, .ro, .any, false⟩,
   ⟨F.WNG_MB_RX_VALID, 0, 1, 0, 1, .rc, .any, true⟩,
   ⟨F.WNG_MB_DROPS_DROPS, 0, 1, 0, 1, .rc, .any, false⟩,
   ⟨(F.WNG_MAKERKEYk_KEY 0), 32, 8, 0, 1, .rwl, .any, false⟩,
   ⟨(F.WNG_ROUTEn_PORT 0), 4, 1024, 0, 1, .rw, .any, false⟩,
   ⟨(F.WNG_ROUTEn_PORT 1), 4, 1024, 0, 1, .rw, .any, false⟩,
   ⟨(F.WNG_ROUTEn_PORT 2), 4, 1024, 0, 1, .rw, .any, false⟩,
   ⟨(F.WNG_ROUTEn_PORT 3), 4, 1024, 0, 1, .rw, .any, false⟩,
   ⟨(F.WNG_ROUTEn_VALID 0), 4, 1024, 0, 1, .rw, .any, false⟩,
   ⟨(F.WNG_ROUTEn_VALID 1), 4, 1024, 0, 1, .rw, .any, false⟩,
   ⟨(F.WNG_ROUTEn_VALID 2), 4, 1024, 0, 1, .rw, .any, false⟩,
   ⟨(F.WNG_ROUTEn_VALID 3), 4, 1024, 0, 1, .rw, .any, false⟩]
/-- Rows of the WLN block (R530), part 0. -/
def rowsWLN0 : List RegRow :=
  [⟨(F.WLN_LANEn_CFG_RATE 0), 4096, 8, 0, 1, .rwl, .any, false⟩,
   ⟨(F.WLN_LANEn_CFG_FEC 0), 4096, 8, 0, 1, .rwl, .any, false⟩,
   ⟨(F.WLN_LANEn_CFG_PRECODE_REQ 0), 4096, 8, 0, 1, .rwl, .any, false⟩,
   ⟨(F.WLN_LANEn_CFG_WAKE_DET 0), 4096, 8, 0, 1, .rw, .any, false⟩,
   ⟨(F.WLN_LANEn_CFG_LOCK 0), 4096, 8, 0, 1, .w1s, .any, false⟩,
   ⟨(F.WLN_LANEn_CTRL_TRAIN 0), 4096, 8, 0, 1, .rw, .any, true⟩,
   ⟨(F.WLN_LANEn_CTRL_RETRAIN 0), 4096, 8, 0, 1, .w1s, .any, true⟩,
   ⟨(F.WLN_LANEn_CTRL_WAKE_TX 0), 4096, 8, 0, 1, .w1s, .any, true⟩,
   ⟨(F.WLN_LANEn_CTRL_LOOPBACK_REQ 0), 4096, 8, 0, 1, .rw, .any, false⟩,
   ⟨(F.WLN_LANEn_CTRL_LOOPBACK_EN 0), 4096, 8, 0, 1, .rw, .any, false⟩,
   ⟨(F.WLN_LANEn_STATUS_STATE 0), 4096, 8, 0, 1, .ro, .any, false⟩,
   ⟨(F.WLN_LANEn_STATUS_PRECODE_TX 0), 4096, 8, 0, 1, .ro, .any, false⟩,
   ⟨(F.WLN_LANEn_STATUS_PRECODE_RX 0), 4096, 8, 0, 1, .ro, .any, false⟩,
   ⟨(F.WLN_LANEn_STATUS_FEC_ON 0), 4096, 8, 0, 1, .ro, .any, false⟩,
   ⟨(F.WLN_LANEn_STATUS_RX_INVERTED 0), 4096, 8, 0, 1, .ro, .any, false⟩,
   ⟨(F.WLN_LANEn_STATUS_RATE 0), 4096, 8, 0, 1, .ro, .any, false⟩,
   ⟨(F.WLN_LANEn_STATUS_CAUSE 0), 4096, 8, 0, 1, .ro, .any, false⟩,
   ⟨(F.WLN_LANEn_STATUS_WAKE_SEEN 0), 4096, 8, 0, 1, .w1c, .any, false⟩,
   ⟨(F.WLN_LANEn_STATUS_PRE 0), 4096, 8, 0, 1, .ro, .any, false⟩,
   ⟨(F.WLN_LANEn_STATUS_MAIN 0), 4096, 8, 0, 1, .ro, .any, false⟩,
   ⟨(F.WLN_LANEn_STATUS_POST 0), 4096, 8, 0, 1, .ro, .any, false⟩,
   ⟨(F.WLN_LANEn_PRESET_PRE 0), 4096, 8, 0, 1, .rwl, .any, false⟩,
   ⟨(F.WLN_LANEn_PRESET_MAIN 0), 4096, 8, 0, 1, .rwl, .any, false⟩,
   ⟨(F.WLN_LANEn_PRESET_POST 0), 4096, 8, 0, 1, .rwl, .any, false⟩]
/-- Rows of the WLN block (R530), part 1. -/
def rowsWLN1 : List RegRow :=
  [⟨(F.WLN_LANEn_PRESET_FIXED 0), 4096, 8, 0, 1, .rwl, .any, false⟩,
   ⟨(F.WLN_LANEn_TRAIN_TIME 0), 4096, 8, 0, 1, .ro, .any, false⟩,
   ⟨(F.WLN_LANEn_TRAIN_ATTEMPTS 0), 4096, 8, 0, 1, .rc, .any, false⟩,
   ⟨(F.WLN_LANEn_FEC_CORR_COUNT 0), 4096, 8, 0, 1, .rc, .any, false⟩,
   ⟨(F.WLN_LANEn_FEC_UNCORR_COUNT 0), 4096, 8, 0, 1, .rc, .any, false⟩,
   ⟨(F.WLN_LANEn_MARKER_ERR_COUNT 0), 4096, 8, 0, 1, .rc, .any, false⟩,
   ⟨(F.WLN_LANEn_DOWN_COUNT 0), 4096, 8, 0, 1, .rc, .any, false⟩,
   ⟨(F.WLN_LANEn_TEST_GEN 0), 4096, 8, 0, 1, .rw, .any, true⟩,
   ⟨(F.WLN_LANEn_TEST_CHK 0), 4096, 8, 0, 1, .rw, .any, true⟩,
   ⟨(F.WLN_LANEn_TEST_SQ_HALF 0), 4096, 8, 0, 1, .rw, .any, false⟩,
   ⟨(F.WLN_LANEn_TEST_CHK_LOCK 0), 4096, 8, 0, 1, .ro, .any, false⟩,
   ⟨(F.WLN_LANEn_USER_PATTERN 0), 4096, 8, 0, 1, .rw, .any, false⟩,
   ⟨(F.WLN_LANEn_ERRCNT_ERRORS 0), 4096, 8, 0, 1, .rc, .any, false⟩,
   ⟨(F.WLN_LANEn_SYMCNT_SYMBOLS 0), 4096, 8, 0, 1, .rc, .any, false⟩,
   ⟨(F.WLN_LANEn_INJECT_SYMBOL 0), 4096, 8, 0, 1, .w1s, .any, true⟩,
   ⟨(F.WLN_LANEn_INJECT_BURST 0), 4096, 8, 0, 1, .w1s, .any, true⟩,
   ⟨(F.WLN_LANEn_INJECT_CRC 0), 4096, 8, 0, 1, .w1s, .any, true⟩,
   ⟨(F.WLN_LANEn_INJECT_BURST_LEN 0), 4096, 8, 0, 1, .rw, .any, false⟩]
/-- Rows of the MEM block (R530), part 0. -/
def rowsMEM0 : List RegRow :=
  [⟨F.MEM_CTRL_ENABLE, 0, 1, 0, 1, .rw, .any, true⟩,
   ⟨F.MEM_CTRL_LOCK, 0, 1, 0, 1, .w1s, .any, false⟩,
   ⟨F.MEM_STATUS_DRAINING, 0, 1, 0, 1, .ro, .any, false⟩,
   ⟨F.MEM_STATUS_INIT_DONE, 0, 1, 0, 1, .ro, .any, false⟩,
   ⟨F.MEM_PATROL_ENABLE, 0, 1, 0, 1, .rwl, .any, true⟩,
   ⟨F.MEM_PATROL_INTERVAL, 0, 1, 0, 1, .rwl, (.clamp 1 82000), false⟩,
   ⟨(F.MEM_Md_PATROL_LINE 1), 64, 3, 0, 1, .ro, .any, false⟩,
   ⟨(F.MEM_Md_PATROL_LAST_PASS 1), 64, 3, 0, 1, .ro, .any, false⟩,
   ⟨(F.MEM_Md_CORR_CORR 1), 64, 3, 0, 1, .rc, .any, false⟩,
   ⟨(F.MEM_Md_UNCORR_UNCORR 1), 64, 3, 0, 1, .rc, .any, false⟩,
   ⟨(F.MEM_Md_POISON_RD_POISON 1), 64, 3, 0, 1, .rc, .any, false⟩,
   ⟨(F.MEM_Md_BUSY_REPEATS 1), 64, 3, 0, 1, .rc, .any, false⟩,
   ⟨(F.MEM_Md_BUSY_BUSY 1), 64, 3, 0, 1, .rc, .any, false⟩,
   ⟨(F.MEM_Md_XFER_FAIL_FAIL 1), 64, 3, 0, 1, .rc, .any, false⟩,
   ⟨(F.MEM_Md_LASTERR_VALID 1), 64, 3, 0, 1, .w1c, .any, false⟩,
   ⟨(F.MEM_Md_LASTERR_KIND 1), 64, 3, 0, 1, .ro, .any, false⟩,
   ⟨(F.MEM_Md_LASTERR_LINE 1), 64, 3, 0, 1, .ro, .any, false⟩,
   ⟨(F.MEM_GRPn_CFG_MODE 0), 16, 24, 0, 1, .rw, .any, true⟩,
   ⟨(F.MEM_GRPn_OWNER_OWNERi 0 0), 16, 24, 4, 2, .rw, .any, true⟩,
   ⟨(F.MEM_GRPn_OWNER_OWNERi 0 1), 16, 24, 4, 2, .rw, .any, true⟩,
   ⟨(F.MEM_GRPn_OWNER_OWNERi 0 2), 16, 24, 4, 2, .rw, .any, true⟩,
   ⟨(F.MEM_GRPn_OWNER_OWNERi 0 3), 16, 24, 4, 2, .rw, .any, true⟩,
   ⟨(F.MEM_GRPn_STATUS_TT 0), 16, 24, 0, 1, .ro, .any, false⟩]
/-- Rows of the SCH block (R530), part 0. -/
def rowsSCH0 : List RegRow :=
  [⟨F.SCH_CTRL_ENABLE, 0, 1, 0, 1, .rw, .any, true⟩,
   ⟨F.SCH_CTRL_LOCK, 0, 1, 0, 1, .w1s, .any, false⟩,
   ⟨F.SCH_STATUS_DRAINING, 0, 1, 0, 1, .ro, .any, false⟩,
   ⟨F.SCH_STATUS_CFG_ERR, 0, 1, 0, 1, .w1c, .any, false⟩,
   ⟨F.SCH_STATUS_GROUPS, 0, 1, 0, 1, .ro, .any, false⟩,
   ⟨F.SCH_HITS_HITS, 0, 1, 0, 1, .rc, .any, false⟩,
   ⟨F.SCH_MISSES_MISSES, 0, 1, 0, 1, .rc, .any, false⟩,
   ⟨F.SCH_WB_WB, 0, 1, 0, 1, .rc, .any, false⟩,
   ⟨F.SCH_LOST_LOST, 0, 1, 0, 1, .rc, .any, false⟩,
   ⟨F.SCH_POISON_DROP_DROP, 0, 1, 0, 1, .rc, .any, false⟩,
   ⟨F.SCH_ZERO_LINE, 0, 1, 0, 1, .wo, .any, true⟩,
   ⟨F.SCH_ZERO_RESULT_STATUS, 0, 1, 0, 1, .ro, .any, false⟩,
   ⟨F.SCH_ZERO_RESULT_DONE, 0, 1, 0, 1, .w1c, .any, false⟩]
/-- Rows of the HWN block (R530), part 0. -/
def rowsHWN0 : List RegRow :=
  [⟨F.HWN_CTRL_ENABLE, 0, 1, 0, 1, .rw, .any, true⟩,
   ⟨F.HWN_CTRL_LOCK, 0, 1, 0, 1, .w1s, .any, false⟩,
   ⟨F.HWN_STATUS_DRAINING, 0, 1, 0, 1, .ro, .any, false⟩,
   ⟨F.HWN_STATUS_BME, 0, 1, 0, 1, .ro, .any, false⟩,
   ⟨F.HWN_STATUS_ABORTS, 0, 1, 0, 1, .ro, .any, false⟩,
   ⟨F.HWN_STATUS_ABORT_LOST, 0, 1, 0, 1, .rc, .any, false⟩,
   ⟨F.HWN_CPL_TO_TIMEOUT, 0, 1, 0, 1, .rwl, .any, false⟩,
   ⟨F.HWN_MAP_CMD_PAGE, 0, 1, 0, 1, .wo, .any, true⟩,
   ⟨F.HWN_MAP_CMD_WRITE, 0, 1, 0, 1, .wo, .any, true⟩,
   ⟨F.HWN_MAP_RESULT_RESULT, 0, 1, 0, 1, .ro, .any, false⟩,
   ⟨F.HWN_MAP_DATA_ENTRY, 0, 1, 0, 1, .rw, .any, false⟩,
   ⟨F.HWN_OWN_GIVE_FIRST, 0, 1, 0, 1, .wo, .any, true⟩,
   ⟨F.HWN_OWN_GIVE_COUNT, 0, 1, 0, 1, .wo, .any, true⟩,
   ⟨F.HWN_OWN_RECLAIM_RANGE, 0, 1, 0, 1, .wo, .any, true⟩,
   ⟨F.HWN_OWN_RESULT_GIVE_REFUSED, 0, 1, 0, 1, .w1c, .any, false⟩,
   ⟨F.HWN_OWN_RESULT_RECLAIM_REFUSED, 0, 1, 0, 1, .w1c, .any, false⟩,
   ⟨F.HWN_OWN_RESULT_RECLAIMING, 0, 1, 0, 1, .ro, .any, false⟩,
   ⟨F.HWN_OWN_QUERY_PAGE, 0, 1, 0, 1, .rw, .any, false⟩,
   ⟨F.HWN_OWN_QUERY_OWNER, 0, 1, 0, 1, .ro, .any, false⟩,
   ⟨F.HWN_ABORT_LOG_INDEX, 0, 1, 0, 1, .rc, .any, true⟩,
   ⟨F.HWN_ABORT_LOG_RING, 0, 1, 0, 1, .rc, .any, true⟩,
   ⟨F.HWN_ABORT_LOG_VALID, 0, 1, 0, 1, .rc, .any, true⟩,
   ⟨(F.HWN_RINGk_CTRL_ENABLE 0), 64, 16, 0, 1, .rw, .any, true⟩,
   ⟨(F.HWN_RINGk_CTRL_RESET 0), 64, 16, 0, 1, .w1s, .any, true⟩]
/-- Rows of the HWN block (R530), part 1. -/
def rowsHWN1 : List RegRow :=
  [⟨(F.HWN_RINGk_STATUS_DRAINING 0), 64, 16, 0, 1, .ro, .any, false⟩,
   ⟨(F.HWN_RINGk_STATUS_ABORTED 0), 64, 16, 0, 1, .ro, .any, false⟩,
   ⟨(F.HWN_RINGk_STATUS_STALLED 0), 64, 16, 0, 1, .ro, .any, false⟩,
   ⟨(F.HWN_RINGk_STATUS_INFLIGHT 0), 64, 16, 0, 1, .ro, .any, false⟩,
   ⟨(F.HWN_RINGk_BASE_BASE 0), 64, 16, 0, 1, .rw, .any, false⟩,
   ⟨(F.HWN_RINGk_SIZE_SIZE 0), 64, 16, 0, 1, .rw, (.within 4 12), false⟩,
   ⟨(F.HWN_RINGk_TAIL_TAIL 0), 64, 16, 0, 1, .rw, .any, true⟩,
   ⟨(F.HWN_RINGk_HEAD_HEAD 0), 64, 16, 0, 1, .ro, .any, false⟩,
   ⟨(F.HWN_RINGk_VEC_VEC 0), 64, 16, 0, 1, .rw, .any, false⟩]
/-- Rows of the ENC block (R530), part 0. -/
def rowsENC0 : List RegRow :=
  [⟨F.ENC_CTRL_ENABLE, 0, 1, 0, 1, .rw, .any, true⟩,
   ⟨F.ENC_CTRL_LOCK, 0, 1, 0, 1, .w1s, .any, false⟩,
   ⟨F.ENC_STATUS_DRAINING, 0, 1, 0, 1, .ro, .any, false⟩,
   ⟨F.ENC_STATUS_REKEYING, 0, 1, 0, 1, .ro, .any, false⟩,
   ⟨F.ENC_REKEY_GO, 0, 1, 0, 1, .w1s, .any, true⟩,
   ⟨F.ENC_BOUND_BOUND, 0, 1, 0, 1, .ro, .any, false⟩,
   ⟨F.ENC_CNT_TAG_FAIL_FAIL, 0, 1, 0, 1, .rc, .any, false⟩,
   ⟨F.ENC_CNT_EXHAUSTED_EXH, 0, 1, 0, 1, .rc, .any, false⟩,
   ⟨F.ENC_KEYS_KEYS, 0, 1, 0, 1, .ro, .any, false⟩]
/-- Rows of the STK block (R530), part 0. -/
def rowsSTK0 : List RegRow :=
  [⟨F.STK_CTRL_ENABLE, 0, 1, 0, 1, .rw, .any, true⟩,
   ⟨F.STK_CTRL_LOCK, 0, 1, 0, 1, .w1s, .any, false⟩,
   ⟨F.STK_STATUS_DRAINING, 0, 1, 0, 1, .ro, .any, false⟩,
   ⟨F.STK_STATUS_TRAINED, 0, 1, 0, 1, .ro, .any, false⟩,
   ⟨F.STK_STATUS_RETRAINING, 0, 1, 0, 1, .ro, .any, false⟩,
   ⟨F.STK_STATUS_FENCED, 0, 1, 0, 1, .ro, .any, false⟩,
   ⟨F.STK_IVCORE_CURRENT, 0, 1, 0, 1, .ro, .any, false⟩,
   ⟨F.STK_THRESH_COUNT, 0, 1, 0, 1, .rwl, .any, false⟩,
   ⟨F.STK_THRESH_WINDOW, 0, 1, 0, 1, .rwl, .any, false⟩,
   ⟨F.STK_FENCED_LINKS, 0, 1, 0, 1, .ro, .any, false⟩,
   ⟨F.STK_UNREACH_BANDS, 0, 1, 0, 1, .ro, .any, false⟩,
   ⟨F.STK_UNREACH_DIES, 0, 1, 0, 1, .ro, .any, false⟩,
   ⟨F.STK_TRIM_QUERY_LINK, 0, 1, 0, 1, .rw, (.within 0 42), false⟩,
   ⟨F.STK_TRIM_QUERY_LANE, 0, 1, 0, 1, .rw, (.within 0 575), false⟩,
   ⟨F.STK_TRIM_RESULT_LOWER, 0, 1, 0, 1, .ro, .any, false⟩,
   ⟨F.STK_TRIM_RESULT_UPPER, 0, 1, 0, 1, .ro, .any, false⟩,
   ⟨F.STK_TRIM_RESULT_SIDING, 0, 1, 0, 1, .ro, .any, false⟩,
   ⟨F.STK_TRIM_RESULT_SPARED, 0, 1, 0, 1, .ro, .any, false⟩,
   ⟨F.STK_TRIM_RESULT_FAILED, 0, 1, 0, 1, .ro, .any, false⟩,
   ⟨(F.STK_Lk_CTRL_RETRAIN 0), 64, 43, 0, 1, .w1s, .any, true⟩,
   ⟨(F.STK_Lk_CTRL_FENCE 0), 64, 43, 0, 1, .w1s, .any, true⟩,
   ⟨(F.STK_Lk_STATUS_STATE 0), 64, 43, 0, 1, .ro, .any, false⟩,
   ⟨(F.STK_Lk_STATUS_GUARD 0), 64, 43, 0, 1, .ro, .any, false⟩,
   ⟨(F.STK_Lk_STATUS_GUARD_PERM 0), 64, 43, 0, 1, .ro, .any, false⟩]
/-- Rows of the STK block (R530), part 1. -/
def rowsSTK1 : List RegRow :=
  [⟨(F.STK_Lk_STATUS_FREE 0), 64, 43, 0, 1, .ro, .any, false⟩,
   ⟨(F.STK_Lk_STATUS_ERASED 0), 64, 43, 0, 1, .ro, .any, false⟩,
   ⟨(F.STK_Lk_STATUS_ERASED_BYTE 0), 64, 43, 0, 1, .ro, .any, false⟩,
   ⟨(F.STK_Lk_STATUS_RETRAIN_LANE 0), 64, 43, 0, 1, .ro, .any, false⟩,
   ⟨(F.STK_Lk_TRAINREC_IVCORE 0), 64, 43, 0, 1, .ro, .any, false⟩,
   ⟨(F.STK_Lk_TRAINREC_TEMP 0), 64, 43, 0, 1, .ro, .any, false⟩,
   ⟨(F.STK_Lk_SIDs_LANE 0 0), 64, 43, 4, 8, .ro, .any, false⟩,
   ⟨(F.STK_Lk_SIDs_LANE 0 1), 64, 43, 4, 8, .ro, .any, false⟩,
   ⟨(F.STK_Lk_SIDs_STATE 0 0), 64, 43, 4, 8, .ro, .any, false⟩,
   ⟨(F.STK_Lk_SIDs_STATE 0 1), 64, 43, 4, 8, .ro, .any, false⟩,
   ⟨(F.STK_Lk_SIDs_FUSED 0 0), 64, 43, 4, 8, .ro, .any, false⟩,
   ⟨(F.STK_Lk_SIDs_FUSED 0 1), 64, 43, 4, 8, .ro, .any, false⟩,
   ⟨(F.STK_Lk_CHECKFAIL_FAILS 0), 64, 43, 0, 1, .rc, .any, false⟩,
   ⟨(F.STK_Lk_CORRBITS_BITS 0), 64, 43, 0, 1, .rc, .any, false⟩,
   ⟨(F.STK_Lk_RETRAINS_RETRAINS 0), 64, 43, 0, 1, .rc, .any, false⟩,
   ⟨(F.STK_Lk_LASTFAIL_LANE 0), 64, 43, 0, 1, .ro, .any, false⟩,
   ⟨(F.STK_Lk_LASTFAIL_CAUSE 0), 64, 43, 0, 1, .ro, .any, false⟩,
   ⟨(F.STK_Lk_LASTFAIL_VALID 0), 64, 43, 0, 1, .w1c, .any, false⟩]
/-- Rows of the ENG block (R530), part 0. -/
def rowsENG0 : List RegRow :=
  [⟨(F.ENG_n_CTRL_ENABLE 0), 1024, 96, 0, 1, .rw, .any, true⟩,
   ⟨(F.ENG_n_CTRL_START 0), 1024, 96, 0, 1, .rw, .any, true⟩,
   ⟨(F.ENG_n_CTRL_GATE_EN 0), 1024, 96, 0, 1, .rw, .any, false⟩,
   ⟨(F.ENG_n_CTRL_HOSTWIN 0), 1024, 96, 0, 1, .rwl, .any, false⟩,
   ⟨(F.ENG_n_CTRL_REGS 0), 1024, 96, 0, 1, .rwl, .any, false⟩,
   ⟨(F.ENG_n_CTRL_SRESET 0), 1024, 96, 0, 1, .w1s, .any, true⟩,
   ⟨(F.ENG_n_CTRL_LOCK 0), 1024, 96, 0, 1, .w1s, .any, false⟩,
   ⟨(F.ENG_n_STATUS_DRAINING 0), 1024, 96, 0, 1, .ro, .any, false⟩,
   ⟨(F.ENG_n_STATUS_GATED 0), 1024, 96, 0, 1, .ro, .any, false⟩,
   ⟨(F.ENG_n_STATUS_THREADS 0), 1024, 96, 0, 1, .ro, .any, false⟩,
   ⟨(F.ENG_n_STATUS_OUTSTANDING 0), 1024, 96, 0, 1, .ro, .any, false⟩,
   ⟨(F.ENG_n_Tt_PC_PC 0 0), 1024, 96, 16, 4, .rw, .any, true⟩,
   ⟨(F.ENG_n_Tt_FAULT_CAUSE 0 0), 1024, 96, 16, 4, .ro, .any, false⟩,
   ⟨(F.ENG_n_Tt_MASK_MASK 0 0), 1024, 96, 16, 4, .ro, .any, false⟩,
   ⟨(F.ENG_n_WINw_VALID 0 0), 1024, 96, 8, 8, .rw, .any, true⟩,
   ⟨(F.ENG_n_WINw_BASE 0 0), 1024, 96, 8, 8, .rw, .any, true⟩,
   ⟨(F.ENG_n_SIGNAL_SIGNAL 0), 1024, 96, 0, 1, .w1s, .any, true⟩,
   ⟨(F.ENG_n_NOTIFY_NOTIFY 0), 1024, 96, 0, 1, .w1c, .any, false⟩,
   ⟨(F.ENG_n_SPORT_EN 0), 1024, 96, 0, 1, .rw, .any, false⟩,
   ⟨(F.ENG_n_SPORT_CLKSEL 0), 1024, 96, 0, 1, .rw, .any, false⟩,
   ⟨(F.ENG_n_STREAM_TO_TIMEOUT 0), 1024, 96, 0, 1, .rw, .any, false⟩,
   ⟨(F.ENG_n_WERR_STATUS 0), 1024, 96, 0, 1, .ro, .any, false⟩,
   ⟨(F.ENG_n_WERR_VALID 0), 1024, 96, 0, 1, .w1c, .any, false⟩,
   ⟨(F.ENG_n_WERR_WINDOW 0), 1024, 96, 0, 1, .ro, .any, false⟩]
/-- Rows of the ENG block (R530), part 1. -/
def rowsENG1 : List RegRow :=
  [⟨(F.ENG_n_WERR_OFF_OFFSET 0), 1024, 96, 0, 1, .ro, .any, false⟩,
   ⟨(F.ENG_n_WAKEQ_COUNT 0), 1024, 96, 0, 1, .ro, .any, false⟩,
   ⟨(F.ENG_n_WAKEQ_LOST 0), 1024, 96, 0, 1, .rc, .any, false⟩,
   ⟨(F.ENG_n_TTCQ_COUNT 0), 1024, 96, 0, 1, .ro, .any, false⟩,
   ⟨(F.ENG_n_TTCQ_INFLIGHT 0), 1024, 96, 0, 1, .ro, .any, false⟩,
   ⟨(F.ENG_n_BUSY_ENGINE 0), 1024, 96, 0, 1, .rc, .any, false⟩,
   ⟨(F.ENG_n_BUSY_EXTERNAL 0), 1024, 96, 0, 1, .rc, .any, false⟩,
   ⟨(F.ENG_n_SPERR_CORR 0), 1024, 96, 0, 1, .rc, .any, false⟩,
   ⟨(F.ENG_n_SPERR_UNCORR 0), 1024, 96, 0, 1, .rc, .any, false⟩,
   ⟨(F.ENG_n_SPORT_DISC_DISC 0), 1024, 96, 0, 1, .rc, .any, false⟩]
/-- Rows of the SBX block (R530), part 0. -/
def rowsSBX0 : List RegRow :=
  [⟨F.SBX_CTRL_ENABLE, 0, 1, 0, 1, .rw, .any, true⟩,
   ⟨F.SBX_CTRL_SRESET, 0, 1, 0, 1, .w1s, .any, true⟩,
   ⟨F.SBX_CTRL_LOCK, 0, 1, 0, 1, .w1s, .any, false⟩,
   ⟨F.SBX_STATUS_DRAINING, 0, 1, 0, 1, .ro, .any, false⟩,
   ⟨F.SBX_STATUS_READY, 0, 1, 0, 1, .ro, .any, false⟩,
   ⟨F.SBX_STATUS_RECOVERY, 0, 1, 0, 1, .ro, .any, false⟩,
   ⟨F.SBX_STATUS_SLOT, 0, 1, 0, 1, .ro, .any, false⟩,
   ⟨F.SBX_STATUS_TRIAL, 0, 1, 0, 1, .ro, .any, false⟩,
   ⟨F.SBX_STATUS_UPDATE, 0, 1, 0, 1, .ro, .any, false⟩,
   ⟨F.SBX_DOORBELL_RING, 0, 1, 0, 1, .w1s, .any, true⟩,
   ⟨F.SBX_MB_STATUS_BUSY, 0, 1, 0, 1, .ro, .any, false⟩,
   ⟨F.SBX_MB_STATUS_DONE, 0, 1, 0, 1, .w1c, .any, true⟩,
   ⟨F.SBX_MB_STATUS_REJECTED, 0, 1, 0, 1, .rc, .any, false⟩,
   ⟨F.SBX_WDOG_CFG_ENABLE, 0, 1, 0, 1, .rwl, .any, true⟩,
   ⟨F.SBX_WDOG_CFG_ACTION, 0, 1, 0, 1, .rwl, .any, true⟩,
   ⟨F.SBX_WDOG_CFG_PERIOD, 0, 1, 0, 1, .rwl, (.clamp 10 65535), true⟩,
   ⟨F.SBX_WDOG_KICK_KICK, 0, 1, 0, 1, .wo, .any, true⟩,
   ⟨F.SBX_WDOG_STATUS_REMAIN, 0, 1, 0, 1, .ro, .any, false⟩,
   ⟨F.SBX_WDOG_STATUS_EXPIRED, 0, 1, 0, 1, .rc, .any, false⟩,
   ⟨F.SBX_WDOG_STATUS_BADKICK, 0, 1, 0, 1, .rc, .any, false⟩,
   ⟨F.SBX_LOG_NEWEST_SEQ, 0, 1, 0, 1, .ro, .any, false⟩,
   ⟨F.SBX_LOG_OLDEST_SEQ, 0, 1, 0, 1, .ro, .any, false⟩,
   ⟨F.SBX_MIRROR_BACKLOG, 0, 1, 0, 1, .ro, .any, false⟩,
   ⟨F.SBX_MIRROR_LOST, 0, 1, 0, 1, .rc, .any, false⟩]
/-- Rows of the SBX block (R530), part 1. -/
def rowsSBX1 : List RegRow :=
  [⟨F.SBX_FUSE_ARM_ARM, 0, 1, 0, 1, .wo, .any, true⟩,
   ⟨(F.SBX_MAILBOXi_WORD 0), 4, 1024, 0, 1, .rw, .any, true⟩]
/-- Rows of the BST block (R530), part 0. -/
def rowsBST0 : List RegRow :=
  [⟨F.BST_CTRL_ENABLE, 0, 1, 0, 1, .rw, .any, true⟩,
   ⟨F.BST_CTRL_AUTO_REPAIR, 0, 1, 0, 1, .rwl, .any, false⟩,
   ⟨F.BST_CTRL_LOCK, 0, 1, 0, 1, .w1s, .any, false⟩,
   ⟨F.BST_STATUS_DRAINING, 0, 1, 0, 1, .ro, .any, false⟩,
   ⟨F.BST_STATUS_STARTUP_DONE, 0, 1, 0, 1, .ro, .any, false⟩,
   ⟨F.BST_STATUS_RUNNING, 0, 1, 0, 1, .ro, .any, false⟩,
   ⟨F.BST_RESULT_RECORD, 0, 1, 0, 1, .rc, .any, true⟩,
   ⟨F.BST_RESULT_VALID, 0, 1, 0, 1, .rc, .any, true⟩,
   ⟨F.BST_RESULT_COUNT_COUNT, 0, 1, 0, 1, .ro, .any, false⟩,
   ⟨F.BST_RESULT_COUNT_LOST, 0, 1, 0, 1, .rc, .any, false⟩,
   ⟨F.BST_IC_FAIL_F2F, 0, 1, 0, 1, .ro, .any, false⟩,
   ⟨F.BST_IC_FAIL_BASEIF, 0, 1, 0, 1, .ro, .any, false⟩,
   ⟨F.BST_IC_FAIL_TRACKS, 0, 1, 0, 1, .ro, .any, false⟩,
   ⟨F.BST_IC_FAIL_POWER, 0, 1, 0, 1, .ro, .any, false⟩,
   ⟨F.BST_IC_BADREG_REGIONS, 0, 1, 0, 1, .ro, .any, false⟩,
   ⟨F.BST_FUSE_USED, 0, 1, 0, 1, .ro, .any, false⟩,
   ⟨F.BST_FUSE_BAD, 0, 1, 0, 1, .ro, .any, false⟩,
   ⟨F.BST_SPARE_QUERY_UNIT, 0, 1, 0, 1, .rw, (.within 0 8), false⟩,
   ⟨F.BST_SPARE_QUERY_BANK, 0, 1, 0, 1, .rw, .any, false⟩,
   ⟨F.BST_SPARE_RESULT_ROWS_FREE, 0, 1, 0, 1, .ro, .any, false⟩,
   ⟨F.BST_SPARE_RESULT_COLS_FREE, 0, 1, 0, 1, .ro, .any, false⟩,
   ⟨F.BST_SPARE_RESULT_ROWS_FUSED, 0, 1, 0, 1, .ro, .any, false⟩,
   ⟨F.BST_SPARE_RESULT_COLS_FUSED, 0, 1, 0, 1, .ro, .any, false⟩,
   ⟨(F.BST_Uu_CMD_GO 0), 16, 9, 0, 1, .w1s, .any, true⟩]
/-- Rows of the BST block (R530), part 1. -/
def rowsBST1 : List RegRow :=
  [⟨(F.BST_Uu_CMD_ALG 0), 16, 9, 0, 1, .rw, .any, false⟩,
   ⟨(F.BST_Uu_CMD_MODE 0), 16, 9, 0, 1, .rw, .any, false⟩,
   ⟨(F.BST_Uu_CMD_BG 0), 16, 9, 0, 1, .rw, .any, false⟩,
   ⟨(F.BST_Uu_CMD_FIRST 0), 16, 9, 0, 1, .rw, .any, false⟩,
   ⟨(F.BST_Uu_CMD_LAST 0), 16, 9, 0, 1, .rw, .any, false⟩,
   ⟨(F.BST_Uu_STATUS_STATE 0), 16, 9, 0, 1, .ro, .any, false⟩,
   ⟨(F.BST_Uu_STATUS_BANK 0), 16, 9, 0, 1, .ro, .any, false⟩,
   ⟨(F.BST_Uu_STATUS_REFUSE 0), 16, 9, 0, 1, .ro, .any, false⟩,
   ⟨(F.BST_Uu_STATUS_FAILS 0), 16, 9, 0, 1, .rc, .any, false⟩]
/-- Rows of the DBG block (R530), part 0. -/
def rowsDBG0 : List RegRow :=
  [⟨F.DBG_CTRL_ENABLE, 0, 1, 0, 1, .rw, .any, true⟩,
   ⟨F.DBG_CTRL_LOCK, 0, 1, 0, 1, .w1s, .any, false⟩,
   ⟨F.DBG_STATUS_DRAINING, 0, 1, 0, 1, .ro, .any, false⟩,
   ⟨F.DBG_STATUS_LOCKSTATE, 0, 1, 0, 1, .ro, .any, false⟩,
   ⟨F.DBG_KEYSEL_KEYSEL, 0, 1, 0, 1, .rw, .any, false⟩,
   ⟨F.DBG_FRAME_CTRL_GO, 0, 1, 0, 1, .w1s, .any, true⟩,
   ⟨F.DBG_FRAME_CTRL_STATUS, 0, 1, 0, 1, .ro, .any, false⟩,
   ⟨F.DBG_FRAME_CTRL_FSTAT, 0, 1, 0, 1, .ro, .any, false⟩,
   ⟨F.DBG_FRAME_CTRL_DONE, 0, 1, 0, 1, .w1c, .any, false⟩,
   ⟨F.DBG_PUBKEY_PUBKEY, 0, 1, 0, 1, .rw, .any, false⟩,
   ⟨F.DBG_PATCHED_REGIONS, 0, 1, 0, 1, .ro, .any, false⟩,
   ⟨(F.DBG_ENGn_CTRL_HALT 0), 64, 96, 0, 1, .w1s, .any, true⟩,
   ⟨(F.DBG_ENGn_CTRL_RESUME 0), 64, 96, 0, 1, .w1s, .any, true⟩,
   ⟨(F.DBG_ENGn_CTRL_STEP 0), 64, 96, 0, 1, .w1s, .any, true⟩,
   ⟨(F.DBG_ENGn_CTRL_ATTACH 0), 64, 96, 0, 1, .rw, .any, true⟩,
   ⟨(F.DBG_ENGn_CTRL_HALT_ALL 0), 64, 96, 0, 1, .rw, .any, true⟩,
   ⟨(F.DBG_ENGn_STATUS_HALTED 0), 64, 96, 0, 1, .ro, .any, false⟩,
   ⟨(F.DBG_ENGn_STATUS_PENDING 0), 64, 96, 0, 1, .ro, .any, false⟩,
   ⟨(F.DBG_ENGn_STATUS_CAUSE 0), 64, 96, 0, 1, .ro, .any, false⟩,
   ⟨(F.DBG_ENGn_BPb_PC 0 0), 64, 96, 4, 4, .rw, .any, false⟩,
   ⟨(F.DBG_ENGn_BPb_THREADS 0 0), 64, 96, 4, 4, .rw, .any, false⟩,
   ⟨(F.DBG_ENGn_BPb_EN 0 0), 64, 96, 4, 4, .rw, .any, false⟩,
   ⟨(F.DBG_ENGn_WPw_ADDR 0 0), 64, 96, 8, 2, .rw, .any, false⟩,
   ⟨(F.DBG_ENGn_WPw_THREADS 0 0), 64, 96, 8, 2, .rw, .any, false⟩]
/-- Rows of the DBG block (R530), part 1. -/
def rowsDBG1 : List RegRow :=
  [⟨(F.DBG_ENGn_WPw_KIND 0 0), 64, 96, 8, 2, .rw, .any, false⟩,
   ⟨(F.DBG_ENGn_WPw_EN 0 0), 64, 96, 8, 2, .rw, .any, false⟩,
   ⟨(F.DBG_ENGn_WPw_LEN 0 0), 64, 96, 8, 2, .rw, .any, false⟩,
   ⟨(F.DBG_ENGn_WHIT_ADDR 0), 64, 96, 0, 1, .ro, .any, false⟩,
   ⟨(F.DBG_ENGn_WHIT_WP 0), 64, 96, 0, 1, .ro, .any, false⟩,
   ⟨(F.DBG_ENGn_WHIT_THREAD 0), 64, 96, 0, 1, .ro, .any, false⟩,
   ⟨(F.DBG_REGr_CTRL_FREEZE 0), 32, 72, 0, 1, .rw, .any, true⟩,
   ⟨(F.DBG_REGr_CTRL_CAPTURE 0), 32, 72, 0, 1, .w1s, .any, true⟩,
   ⟨(F.DBG_REGr_CTRL_PULSE 0), 32, 72, 0, 1, .wo, .any, true⟩,
   ⟨(F.DBG_REGr_STATUS_FROZEN 0), 32, 72, 0, 1, .ro, .any, false⟩,
   ⟨(F.DBG_REGr_STATUS_PULSING 0), 32, 72, 0, 1, .ro, .any, false⟩,
   ⟨(F.DBG_REGr_STATUS_CAPSTAT 0), 32, 72, 0, 1, .ro, .any, false⟩,
   ⟨(F.DBG_REGr_STATUS_EDGES 0), 32, 72, 0, 1, .rc, .any, false⟩,
   ⟨(F.DBG_REGr_CAP_TILE 0), 32, 72, 0, 1, .rw, .any, false⟩,
   ⟨F.DBG_CAP_DATA_FLOPS, 0, 1, 0, 1, .ro, .any, false⟩,
   ⟨(F.DBG_FRAMEi_WORD 0), 4, 514, 0, 1, .rw, .any, false⟩]
/-- Rows of the IOB block (R530), part 0. -/
def rowsIOB0 : List RegRow :=
  [⟨F.IOB_CTRL_LOCK, 0, 1, 0, 1, .w1s, .any, false⟩,
   ⟨F.IOB_ENC_EN, 0, 1, 0, 1, .rwl, .any, false⟩,
   ⟨F.IOB_LG_STATUS_STRAP, 0, 1, 0, 1, .ro, .any, false⟩,
   ⟨(F.IOB_BANKb_CFG_VIO 0), 4, 8, 0, 1, .rwl, .any, true⟩,
   ⟨(F.IOB_BANKb_STATUS_VIO_FAULT 0), 4, 8, 0, 1, .ro, .any, false⟩,
   ⟨(F.IOB_BANKb_STATUS_PAD_FAULT 0), 4, 8, 0, 1, .ro, .any, false⟩,
   ⟨(F.IOB_BANKb_STATUS_LOCKED 0), 4, 8, 0, 1, .ro, .any, false⟩,
   ⟨(F.IOB_BANKb_STATUS_VMEAS 0), 4, 8, 0, 1, .ro, .any, false⟩]
/-- Rows of the PCI block (R530), part 0. -/
def rowsPCI0 : List RegRow :=
  [⟨F.PCI_CTRL_ENABLE, 0, 1, 0, 1, .rw, .any, true⟩,
   ⟨F.PCI_CTRL_LOCK, 0, 1, 0, 1, .w1s, .any, false⟩,
   ⟨F.PCI_STATUS_DRAINING, 0, 1, 0, 1, .ro, .any, false⟩,
   ⟨F.PCI_STATUS_LINK_UP, 0, 1, 0, 1, .ro, .any, false⟩,
   ⟨F.PCI_STATUS_SPEED, 0, 1, 0, 1, .ro, .any, false⟩,
   ⟨F.PCI_STATUS_WIDTH, 0, 1, 0, 1, .ro, .any, false⟩,
   ⟨F.PCI_STATUS_BME, 0, 1, 0, 1, .ro, .any, false⟩,
   ⟨F.PCI_STATUS_D3HOT, 0, 1, 0, 1, .ro, .any, false⟩,
   ⟨F.PCI_EVT_EN_BLOCKS, 0, 1, 0, 1, .rw, .any, true⟩,
   ⟨F.PCI_CNT_BAD_WR_BAD_WR, 0, 1, 0, 1, .rc, .any, false⟩,
   ⟨F.PCI_BAR2_WERR_STATUS, 0, 1, 0, 1, .ro, .any, false⟩,
   ⟨F.PCI_BAR2_WERR_VALID, 0, 1, 0, 1, .w1c, .any, false⟩,
   ⟨F.PCI_BAR2_WERR_OFF_OFFSET, 0, 1, 0, 1, .ro, .any, false⟩,
   ⟨F.PCI_UF_TO_TIMEOUT, 0, 1, 0, 1, .rw, .any, false⟩,
   ⟨F.PCI_UF_DISC_DISC, 0, 1, 0, 1, .rc, .any, false⟩,
   ⟨F.PCI_LINK_DOWN_DOWNS, 0, 1, 0, 1, .rc, .any, false⟩,
   ⟨(F.PCI_MSIXv_ADDR_ADDRESS 0), 16, 256, 0, 1, .rw, .any, true⟩,
   ⟨(F.PCI_MSIXv_DATA_DATA 0), 16, 256, 0, 1, .rw, .any, false⟩,
   ⟨(F.PCI_MSIXv_CTRL_MASK 0), 16, 256, 0, 1, .rw, .any, true⟩,
   ⟨F.PCI_PBA_PENDING, 0, 1, 0, 1, .ro, .any, false⟩]

/-- The rows of block code `b` (R530); the ENG block spans codes 0x18 and 0x19. -/
def blockRows (b : Nat) : List RegRow :=
  match b with
  | 0 => rowsGLB0
  | 1 => rowsRST0
  | 2 => rowsCLK0 ++ rowsCLK1
  | 3 => rowsPWR0
  | 4 => rowsTHM0
  | 5 => rowsCFG0 ++ rowsCFG1
  | 6 => rowsCTX0
  | 7 => rowsFAB0 ++ rowsFAB1
  | 8 => rowsTT0 ++ rowsTT1
  | 9 => rowsDSP0 ++ rowsDSP1 ++ rowsDSP2
  | 10 => rowsANG0 ++ rowsANG1
  | 12 => rowsWNG0 ++ rowsWNG1
  | 14 => rowsWLN0 ++ rowsWLN1
  | 16 => rowsMEM0
  | 17 => rowsSCH0
  | 18 => rowsHWN0 ++ rowsHWN1
  | 19 => rowsENC0
  | 20 => rowsSTK0 ++ rowsSTK1
  | 24 => rowsENG0 ++ rowsENG1
  | 25 => rowsENG0 ++ rowsENG1
  | 28 => rowsSBX0 ++ rowsSBX1
  | 29 => rowsBST0 ++ rowsBST1
  | 30 => rowsDBG0 ++ rowsDBG1
  | 31 => rowsIOB0
  | 32 => rowsPCI0
  | _ => []

end Sys2Proof.Machine
end

