-- ==== Sys2Proof/Machine/Ops.lean ====
section
/-! DEFINITION. The operations every family shares: bit fields of numbers, the sparse maps, the register fields, free
values, and events with their log records. -/
namespace Sys2Proof.Machine

/-! ### Bit fields of numbers -/

/-- Bits [lo + w − 1 : lo] of `x`. -/
def bits (x lo w : Nat) : Nat := (x >>> lo) % 2 ^ w

/-- `x` with bits [lo + w − 1 : lo] replaced by `v`. -/
def putBits (x lo w v : Nat) : Nat := x - (bits x lo w) * 2 ^ lo + (v % 2 ^ w) * 2 ^ lo

/-- Bit `i` of `x`. -/
def bitOf (x i : Nat) : Bool := bits x i 1 == 1

/-- A truth value as a bit. -/
def b2n (b : Bool) : Nat := if b then 1 else 0

/-- `x` read as a two's complement number of `w` bits. -/
def toSigned (w x : Nat) : Int := if x % 2 ^ w < 2 ^ (w - 1) then ((x % 2 ^ w : Nat) : Int) else ((x % 2 ^ w : Nat) : Int) - (2 ^ w : Nat)

/-- The low `w` bits of an integer in two's complement. -/
def ofSigned (w : Nat) (x : Int) : Nat := (x % (2 ^ w : Nat)).toNat

/-- `⌈a / b⌉`, with 0 for `b = 0`. -/
def ceilDiv (a b : Nat) : Nat := if b = 0 then 0 else (a + b - 1) / b

/-! ### Sparse maps -/

/-- The value at key `k`, `d` where none is listed. -/
def smGet {α : Type} (m : SMap α) (k : Nat) (d : α) : α :=
  match m with
  | [] => d
  | (k', v) :: t => if k = k' then v else smGet t k d

/-- The map with key `k` no longer listed. -/
def smDel {α : Type} (m : SMap α) (k : Nat) : SMap α := m.filter fun e => !decide (e.1 = k)

/-- The map with `v` listed at key `k`, before the first higher key. -/
def smPut {α : Type} (m : SMap α) (k : Nat) (v : α) : SMap α :=
  match m with
  | [] => [(k, v)]
  | (k', v') :: t => if k < k' then (k, v) :: (k', v') :: t else (k', v') :: smPut t k v

/-- The map with `v` at key `k`. The keys stay rising, and a value equal to the default `d` is not listed. -/
def smSet {α : Type} [DecidableEq α] (m : SMap α) (k : Nat) (v d : α) : SMap α :=
  if v = d then smDel m k else smPut (smDel m k) k v

/-- The map without the keys in [lo, hi). -/
def smDrop {α : Type} (m : SMap α) (lo hi : Nat) : SMap α :=
  m.filter fun e => !(decide (lo ≤ e.1) && decide (e.1 < hi))

/-- The keys rise strictly, and every key is above `lo`. -/
def smRisingFrom {α : Type} (lo : Option Nat) : SMap α → Bool
  | [] => true
  | (k, _) :: t => (match lo with | none => true | some l => decide (l < k)) && smRisingFrom (some k) t

/-- The canonical form of a sparse map whose unlisted keys read as `d`: keys strictly rising, no value equal to `d`. -/
def smWf {α : Type} [DecidableEq α] (d : α) (m : SMap α) : Bool :=
  smRisingFrom none m && m.all fun e => !decide (e.2 = d)

/-! ### Register fields -/

/-- The value of a register field, of the field's width. -/
def fld (s : State) (f : Fld) : Nat := smGet s.regs f.key f.reset % 2 ^ f.width

/-- A one-bit field as a truth value. -/
def flag (s : State) (f : Fld) : Bool := fld s f != 0

/-- The state with a register field set, cut to the field's width. -/
def setFld (s : State) (f : Fld) (v : Nat) : State :=
  { s with regs := smSet s.regs f.key (v % 2 ^ f.width) f.reset }

/-- The field increased by `n`, saturating at its highest value. -/
def satAdd (s : State) (f : Fld) (n : Nat) : State := setFld s f (min (fld s f + n) (2 ^ f.width - 1))

/-- The field increased by one, saturating. -/
def satInc (s : State) (f : Fld) : State := satAdd s f 1

/-- The field raised to `v` if it is lower: a peak. -/
def peak (s : State) (f : Fld) (v : Nat) : State := if fld s f < v then setFld s f v else s

/-- Every field whose BAR0 offset lies in [lo, hi) at its reset value. -/
def resetOffsets (s : State) (lo hi : Nat) : State := { s with regs := smDrop s.regs (8 * lo) (8 * hi) }

/-- Every field of block code `b` at its reset value (R530). -/
def resetBlockRegs (s : State) (b : Nat) : State := resetOffsets s (b * 0x10000) ((b + 1) * 0x10000)

/-! ### Ring time -/

/-- Ring time in ns. -/
def now (s : State) : Nat := fld s F.ANG_RT_TIME

/-- REF_STABLE follows the judgement of SYSREF: RCLK on a follower, XO otherwise (R411, R413). -/
def showRef (s : State) : State :=
  setFld s F.CLK_STATUS_REF_STABLE (b2n ((if fld s F.ANG_RTM_ROLE_ROLE = 2 then s.clk.rclk else s.clk.xo) == 4))

/-- Whether ring time is valid. -/
def rtValid (s : State) : Bool := flag s F.ANG_STATUS_RT_VALID

/-! ### Free values -/

/-- The next free value. -/
def freeOf (s : State) : Nat := Config.freeNat s.free

/-- One free value drawn. -/
def drawn (s : State) : State := { s with free := s.free + 1 }

/-- The domains built on the system PLLs have their clocks: no freeze, and no SLEEP or deeper (R417, R442). -/
def sysClocks (s : State) : Bool := decide (fld s F.PWR_STATUS_STATE ≤ 1) && !flag s F.CLK_STATUS_FROZEN

/-- The states of PWR_STATUS.STATE (R442). -/
def wRUN := 0
def wIDLE := 1
def wSLEEP := 2
def wDEEP := 3
def wOFF := 4

/-- The device's power state. -/
def pwrState (s : State) : Nat := fld s F.PWR_STATUS_STATE

/-- PHASE: 0 STEADY, 1 ENTERING, 2 WAKING. -/
def pwrPhase (s : State) : Nat := fld s F.PWR_STATUS_PHASE

/-- The clocks of engines and regions are not closed by a power state or its entry (R442, R444). -/
def clocksOn (s : State) : Bool := pwrState s == wRUN && !s.pwr.closed && !flag s F.CLK_STATUS_FROZEN

/-- The fabric PLL n is started and locked, so that its outputs give edges while the clocks run (R414). -/
def fpllOn (s : State) (n : Nat) : Bool := flag s (F.CLK_FPLLn_EN n) && flag s (F.CLK_FPLLn_LOCKED n)

/-- What those domains do of their own accord waits for their clocks. -/
def clocked (s : State) (t : State) : State := if sysClocks s then t else s

/-! ### Interrupt vectors of function 0 -/

/-- The endpoint is held in reset: by PERST or HOTRST, or until the last step of a release (R383, R433). -/
def endpointHeld (s : State) : Bool := s.pci.perst || s.pci.hot || s.rst.step != 0 || !s.rst.srcs.isEmpty

/-- Block code b is between the assertion of its reset and the release (R435). -/
def blkShut (s : State) (b : Nat) : Bool := s.rst.blkWait.contains b || s.rst.blkOn.contains b

/-- Vector `v` of function 0 becomes pending, unless the endpoint is held in reset (R380). -/
def pendVec (s : State) (v : Nat) : State :=
  if endpointHeld s then s else setFld s F.PCI_PBA_PENDING (fld s F.PCI_PBA_PENDING ||| 2 ^ v)

/-! ### Events -/

/-- An event is raised with its DATA items as (bytes, value) pairs (R14, R392, R538). -/
def raise (s : State) (code : Nat) (items : List (Nat × Nat)) : State :=
  { s with evq := s.evq ++ [⟨code, none, false, items⟩] }

/-- An event whose occurrences within 1 ms are merged, per scope (R539). -/
def raiseMerged (s : State) (code scope : Nat) (items : List (Nat × Nat)) : State :=
  { s with evq := s.evq ++ [⟨code, some scope, false, items⟩] }

/-- The bytes of DATA items: their count and their value, little-endian in the order named (R538). -/
def packItems : List (Nat × Nat) → Nat × Nat
  | [] => (0, 0)
  | (n, v) :: t => (n + (packItems t).1, v % 2 ^ (8 * n) + (packItems t).2 * 2 ^ (8 * n))

/-- The sequence number of the next record (R392, R393). -/
def nextSeq (s : State) : Nat :=
  match s.log with
  | [] => 0
  | r :: _ => (r.seq + 1) % 2 ^ 32

/-- The TIME of a record written now (R392). -/
def logTime (s : State) : Nat := if rtValid s then now s else Config.lpoTime (nextSeq s)

/-- A record into the ring of 4,096 (R393). -/
def pushRec (s : State) (r : LogRec) : State := { s with log := (r :: s.log).take 4096 }

/-- A record into the queue of the flash mirror, which holds 256; one lost is counted (R394). -/
def mirrorRec (s : State) (r : LogRec) : State :=
  if s.mirrorQ.length < 256 then { s with mirrorQ := s.mirrorQ ++ [r] }
  else satInc { s with sbx := { s.sbx with lost := true } } F.SBX_MIRROR_LOST

/-- Vector 0 for an event of a block that PCI_EVT_EN names (R379). -/
def vecRec (s : State) (code : Nat) : State := if bitOf (fld s F.PCI_EVT_EN_BLOCKS) (code / 256) then pendVec s 0 else s

/-- The record of an occurrence written now (R392). -/
def newRec (s : State) (code count time data : Nat) (nmi cont : Bool) : LogRec :=
  ⟨nextSeq s, code, b2n (rtValid s) + 2 * b2n nmi + 4 * b2n cont, count, time, data⟩

/-- One record into the log, into the queue of the mirror, and to vector 0 (R379, R393, R394). -/
def writeRec (s : State) (code count time data : Nat) (nmi cont : Bool) : State :=
  let r := newRec s code count time data nmi cont
  vecRec (mirrorRec (pushRec s r) r) code

/-- The further records of an occurrence whose items need more than 16 bytes (R392). -/
def writeCont (s : State) (code time data : Nat) (nmi : Bool) : Nat → State
  | 0 => s
  | n + 1 => writeCont (writeRec s code 1 time (data % 2 ^ 128) nmi true) code time (data / 2 ^ 128) nmi n

/-- The records of one occurrence, or of merged ones: CONT records carry what the first 16 bytes do not hold. -/
def writeEvent (s : State) (code count time : Nat) (items : List (Nat × Nat)) (nmi : Bool) : State :=
  let p := packItems items
  writeCont (writeRec s code count time (p.2 % 2 ^ 128) nmi false) code time (p.2 / 2 ^ 128) nmi ((p.1 - 1) / 16)

/-- Whether a merge window of a code and scope is open. -/
def hasWindow (s : State) (code scope : Nat) : Bool := s.windows.any fun w => w.code == code && w.scope == scope

/-- One more occurrence counted in the open window, whose first keeps its TIME and DATA (R539). -/
def countWindow (s : State) (code scope : Nat) (items : List (Nat × Nat)) : State :=
  { s with windows := s.windows.map fun w =>
      if w.code == code && w.scope == scope then
        (if w.count = 0 then { w with count := 1, time := logTime s, items := items } else { w with count := min (w.count + 1) 255 })
      else w }

/-- An event of the command in progress reaches the log (R392, R539). -/
def logEv (s : State) (e : Ev) : State :=
  match e.scope with
  | none => writeEvent s e.code 1 (logTime s) e.items e.nmi
  | some sc =>
    if hasWindow s e.code sc then countWindow s e.code sc e.items
    else
      let s1 := writeEvent s e.code 1 (logTime s) e.items e.nmi
      { s1 with windows := s1.windows ++ [⟨e.code, sc, 0, 0, []⟩] }

/-- An event put before the first one of a higher code. -/
def insertEv (e : Ev) : List Ev → List Ev
  | [] => [e]
  | x :: t => if e.code < x.code then e :: x :: t else x :: insertEv e t

/-- Events in ascending CODE, those of one code as raised (R393). -/
def sortEvs (l : List Ev) : List Ev := l.foldl (fun acc e => insertEv e acc) []

/-- The end of a command: its events are written in ascending CODE (R393). -/
def finish (s : State) : State := (sortEvs s.evq).foldl logEv { s with evq := [] }

/-- A command's outcome: the next state, with its events written. -/
def done (s : State) : Host.Outcome State Fault Refusal := .next (finish s)

/-! ### Lists -/

/-- `l` with its `i`-th element replaced. -/
def setAt {α : Type} (l : List α) (i : Nat) (v : α) : List α := l.set i v

/-- The element put in order by a key, after those of an equal key. -/
def insertBy {α : Type} (key : α → Nat) (x : α) : List α → List α
  | [] => [x]
  | y :: t => if key x < key y then x :: y :: t else y :: insertBy key x t

/-- A stable sort by a key. -/
def sortBy {α : Type} (key : α → Nat) (l : List α) : List α := l.foldl (fun acc x => insertBy key x acc) []

/-- The state after an operation for each element of a list. -/
def forEach {α : Type} (l : List α) (f : State → α → State) (s : State) : State := l.foldl f s

end Sys2Proof.Machine
end

