-- ==== Sys2Proof/Machine/Crypto.lean ====
section
/-! DEFINITION. The standards' algorithms that the spec names: SHA-512 (FIPS 180-4), AES-256 (FIPS 197), Ed25519 and Ed25519ph
(RFC 8032). Numbers that stand for byte strings have the first byte lowest. -/
namespace Sys2Proof.Machine

/-! ### SHA-512 -/

/-- The round constants K of SHA-512, in four parts. -/
def shaK0 : List Nat :=
  [0x428A2F98D728AE22, 0x7137449123EF65CD, 0xB5C0FBCFEC4D3B2F,
   0xE9B5DBA58189DBBC, 0x3956C25BF348B538, 0x59F111F1B605D019,
   0x923F82A4AF194F9B, 0xAB1C5ED5DA6D8118, 0xD807AA98A3030242,
   0x12835B0145706FBE, 0x243185BE4EE4B28C, 0x550C7DC3D5FFB4E2,
   0x72BE5D74F27B896F, 0x80DEB1FE3B1696B1, 0x9BDC06A725C71235,
   0xC19BF174CF692694, 0xE49B69C19EF14AD2, 0xEFBE4786384F25E3,
   0x0FC19DC68B8CD5B5, 0x240CA1CC77AC9C65]

def shaK1 : List Nat :=
  [0x2DE92C6F592B0275, 0x4A7484AA6EA6E483, 0x5CB0A9DCBD41FBD4,
   0x76F988DA831153B5, 0x983E5152EE66DFAB, 0xA831C66D2DB43210,
   0xB00327C898FB213F, 0xBF597FC7BEEF0EE4, 0xC6E00BF33DA88FC2,
   0xD5A79147930AA725, 0x06CA6351E003826F, 0x142929670A0E6E70,
   0x27B70A8546D22FFC, 0x2E1B21385C26C926, 0x4D2C6DFC5AC42AED,
   0x53380D139D95B3DF, 0x650A73548BAF63DE, 0x766A0ABB3C77B2A8,
   0x81C2C92E47EDAEE6, 0x92722C851482353B]

def shaK2 : List Nat :=
  [0xA2BFE8A14CF10364, 0xA81A664BBC423001, 0xC24B8B70D0F89791,
   0xC76C51A30654BE30, 0xD192E819D6EF5218, 0xD69906245565A910,
   0xF40E35855771202A, 0x106AA07032BBD1B8, 0x19A4C116B8D2D0C8,
   0x1E376C085141AB53, 0x2748774CDF8EEB99, 0x34B0BCB5E19B48A8,
   0x391C0CB3C5C95A63, 0x4ED8AA4AE3418ACB, 0x5B9CCA4F7763E373,
   0x682E6FF3D6B2B8A3, 0x748F82EE5DEFB2FC, 0x78A5636F43172F60,
   0x84C87814A1F0AB72, 0x8CC702081A6439EC]

def shaK3 : List Nat :=
  [0x90BEFFFA23631E28, 0xA4506CEBDE82BDE9, 0xBEF9A3F7B2C67915,
   0xC67178F2E372532B, 0xCA273ECEEA26619C, 0xD186B8C721C0C207,
   0xEADA7DD6CDE0EB1E, 0xF57D4F7FEE6ED178, 0x06F067AA72176FBA,
   0x0A637DC5A2C898A6, 0x113F9804BEF90DAE, 0x1B710B35131C471B,
   0x28DB77F523047D84, 0x32CAAB7B40C72493, 0x3C9EBE0A15C9BEBC,
   0x431D67C49C100D4C, 0x4CC5D4BECB3E42B6, 0x597F299CFC657E2A,
   0x5FCB6FAB3AD6FAEC, 0x6C44198C4A475817]

/-- The initial hash value of SHA-512. -/
def shaH0 : List Nat :=
  [0x6A09E667F3BCC908, 0xBB67AE8584CAA73B, 0x3C6EF372FE94F82B,
   0xA54FF53A5F1D36F1, 0x510E527FADE682D1, 0x9B05688C2B3E6C1F,
   0x1F83D9ABFB41BD6B, 0x5BE0CD19137E2179]

/-- A 64-bit word rotated right by `n`. -/
def rotr64 (n x : Nat) : Nat := x / 2 ^ n + x % 2 ^ n * 2 ^ (64 - n)

/-- A sum of words. -/
def add64 (l : List Nat) : Nat := l.sum % 2 ^ 64

/-- The small sigmas of the message schedule and the large ones of the rounds. -/
def shaS0 (x : Nat) : Nat := rotr64 1 x ^^^ rotr64 8 x ^^^ (x / 2 ^ 7)
def shaS1 (x : Nat) : Nat := rotr64 19 x ^^^ rotr64 61 x ^^^ (x / 2 ^ 6)
def shaE0 (x : Nat) : Nat := rotr64 28 x ^^^ rotr64 34 x ^^^ rotr64 39 x
def shaE1 (x : Nat) : Nat := rotr64 14 x ^^^ rotr64 18 x ^^^ rotr64 41 x

/-- A number of `n` bytes whose first byte is the highest. -/
def bigEndian (l : List Byte) : Nat := l.foldl (fun a b => a * 256 + b.toNat) 0

/-- The next `n` words of the schedule, the last sixteen so far in order. -/
def shaSchedule : Nat → List Nat → List Nat
  | 0, _ => []
  | n + 1, w =>
    let x := add64 [shaS1 (w.getD 14 0), w.getD 9 0, shaS0 (w.getD 1 0), w.getD 0 0]
    x :: shaSchedule n (w.drop 1 ++ [x])

/-- One round over the working variables a to h. -/
def shaRound (v : List Nat) (k w : Nat) : List Nat :=
  match v with
  | [a, b, c, d, e, f, g, h] =>
    let t1 := add64 [h, shaE1 e, (e &&& f) ^^^ ((2 ^ 64 - 1 - e) &&& g), k, w]
    let t2 := add64 [shaE0 a, (a &&& b) ^^^ (a &&& c) ^^^ (b &&& c)]
    [add64 [t1, t2], a, b, c, add64 [d, t1], e, f, g]
  | _ => v

/-- A hash value after one block of 128 bytes. -/
def shaBlock (h : List Nat) (block : List Byte) : List Nat :=
  let w := (List.range 16).map fun i => bigEndian ((block.drop (8 * i)).take 8)
  let ws := w ++ shaSchedule 64 w
  let v := ((shaK0 ++ shaK1 ++ shaK2 ++ shaK3).zip ws).foldl (fun v x => shaRound v x.1 x.2) h
  (h.zip v).map fun x => add64 [x.1, x.2]

/-- A message padded to whole blocks: a 1 bit, zeros, and its length in bits in 16 bytes. -/
def shaPad (m : List Byte) : List Byte :=
  let n := m.length
  m ++ [0x80#8] ++ List.replicate ((239 - n % 128) % 128) 0#8 ++ (List.range 16).map fun i => BitVec.ofNat 8 (8 * n / 256 ^ (15 - i))

/-- A hash value after `n` blocks. -/
def shaBlocks : Nat → List Nat → List Byte → List Nat
  | 0, h, _ => h
  | n + 1, h, m => shaBlocks n (shaBlock h m) (m.drop 128)

/-- The bytes of a digest. -/
def shaBytes (h : List Nat) : List Byte := h.flatMap fun x => (List.range 8).map fun i => BitVec.ofNat 8 (x / 256 ^ (7 - i))

/-- The number of a byte string, first byte lowest. -/
def littleEndian (l : List Byte) : Nat := l.foldr (fun b a => b.toNat + 256 * a) 0

/-- SHA-512 of a byte string. -/
def sha512 (m : List Byte) : Nat :=
  let q := shaPad m
  littleEndian (shaBytes (shaBlocks (q.length / 128) shaH0 q))

/-! ### AES-256 -/

/-- A product in GF(2^8) with polynomial x^8 + x^4 + x^3 + x + 1, over the lowest `n` bits of `b`. -/
def gf8 : Nat → Nat → Nat → Nat
  | 0, _, _ => 0
  | n + 1, a, b => (if b % 2 = 1 then a else 0) ^^^ gf8 n (if 128 ≤ a then (2 * a) ^^^ 0x11B else 2 * a) (b / 2)

/-- The S-box of FIPS 197, entry x at bits [8x + 7:8x]. -/
def aesBox : Nat :=
  0xC072A49CAFA2D4ADF04759FA7DC982CA76ABD7FE2B670130C56F6BF27B777C63
    + 0x75B227EBE28012079A059618C323C7041531D871F1E5A534CCF73F362693FDB7 * 2 ^ 256
    + 0xCF584C4A39BECB6A5BB1FC20ED00D153842FE329B3D63B52A05A6E1B1A2C8309 * 2 ^ 512
    + 0xD2F3FF1021DAB6BCF5389D928F40A351A89F3C507F02F94585334D43FBAAEFD0 * 2 ^ 768
    + 0xDB0B5EDE14B8EE4688902A22DC4F816073195D643D7EA7C41744975FEC130CCD * 2 ^ 1024
    + 0x08AE7A65EAF4566CA94ED58D6D37C8E779E4959162ACD3C25C2406490A3A32E0 * 2 ^ 1280
    + 0x9E1DC186B95735610EF6034866B53E708A8BBD4B1F74DDE8C6B4A61C2E2578BA * 2 ^ 1536
    + 0x16BB54B00F2D99416842E6BF0D89A18CDF2855CEE9871E9B948ED9691198F8E1 * 2 ^ 1792

/-- SubBytes of one byte. -/
def aesSub (x : Nat) : Nat := aesBox / 2 ^ (8 * x) % 256

/-- Bytes of two equal lists added. -/
def xorBytes (a b : List Nat) : List Nat := (a.zip b).map fun x => x.1 ^^^ x.2

/-- `n` further words of the key schedule from word `i` on, the last eight so far in order. -/
def aesExpand : Nat → Nat → List (List Nat) → List (List Nat)
  | 0, _, _ => []
  | n + 1, i, w =>
    let t := w.getD 7 []
    let t1 := if i % 8 = 0 then xorBytes ((t.drop 1 ++ t.take 1).map aesSub) [2 ^ (i / 8 - 1), 0, 0, 0]
      else if i % 8 = 4 then t.map aesSub else t
    let x := xorBytes (w.getD 0 []) t1
    x :: aesExpand n (i + 1) (w.drop 1 ++ [x])

/-- The `n` bytes of a number, the lowest first. -/
def natBytes : Nat → Nat → List Nat
  | 0, _ => []
  | n + 1, x => x % 256 :: natBytes n (x / 256)

/-- The 60 words of the key schedule. -/
def aesKeys (key : Nat) : List (List Nat) :=
  let w := (List.range 8).map fun i => natBytes 4 (key / 2 ^ (32 * i))
  w ++ aesExpand 52 8 w

/-- The round key of round `r`. -/
def aesRoundKey (ks : List (List Nat)) (r : Nat) : List Nat := ((ks.drop (4 * r)).take 4).flatten

/-- ShiftRows over a state of 16 bytes, column by column. -/
def shiftRows (b : List Nat) : List Nat := (List.range 16).map fun i => b.getD ((i + 4 * (i % 4)) % 16) 0

/-- MixColumns of one column. -/
def mixColumn (c : List Nat) : List Nat :=
  (List.range 4).map fun i => gf8 8 (c.getD i 0) 2 ^^^ gf8 8 (c.getD ((i + 1) % 4) 0) 3 ^^^ c.getD ((i + 2) % 4) 0 ^^^ c.getD ((i + 3) % 4) 0

/-- MixColumns of a state. -/
def mixColumns (b : List Nat) : List Nat := (List.range 4).flatMap fun j => mixColumn ((b.drop (4 * j)).take 4)

/-- AES-256 encryption of one 16-byte block. -/
def aes256 (key block : Nat) : Nat :=
  let ks := aesKeys key
  let sub := fun (b : List Nat) => shiftRows (b.map aesSub)
  let b1 := (List.range 13).foldl (fun b r => xorBytes (mixColumns (sub b)) (aesRoundKey ks (r + 1))) (xorBytes (natBytes 16 block) (aesRoundKey ks 0))
  (xorBytes (sub b1) (aesRoundKey ks 14)).foldr (fun x a => x + 256 * a) 0

/-! ### Ed25519 -/

/-- The prime of the field, the order of the group, and d of the curve. -/
def edP : Nat := 2 ^ 255 - 19
def edL : Nat := 2 ^ 252 + 27742317777372353535851937790883648493
def edD : Nat := 0x52036CEE2B6FFE738CC740797779E89800700A4D4141D8AB75EB4DCA135978A3

/-- `b` to a power of `n` bits, modulo `m`. -/
def powMod (m : Nat) : Nat → Nat → Nat → Nat
  | 0, _, _ => 1
  | n + 1, b, e => if e % 2 = 1 then b * powMod m n (b * b % m) (e / 2) % m else powMod m n (b * b % m) (e / 2)

/-- A point in extended coordinates: x = X/Z, y = Y/Z, T = XY/Z. -/
structure EdPoint where
  x : Nat
  y : Nat
  z : Nat
  t : Nat
  deriving DecidableEq, Repr

/-- The neutral element and the base point. -/
def edZero : EdPoint := ⟨0, 1, 1, 0⟩
def edBase : EdPoint :=
  ⟨0x216936D3CD6E53FEC0A4E231FDD6DC5C692CC7609525A7B2C9562D608F25D51A,
   0x6666666666666666666666666666666666666666666666666666666666666658, 1,
   0x67875F0FD78B766566EA4E8E64ABE37D20F09F80775152F56DDE8AB3A5B7DDA3⟩

/-- A sum of points. -/
def edAdd (q r : EdPoint) : EdPoint :=
  let a := (q.y + edP - q.x) * (r.y + edP - r.x) % edP
  let b := (q.y + q.x) * (r.y + r.x) % edP
  let c := q.t * 2 * edD * r.t % edP
  let d := q.z * 2 * r.z % edP
  let e := (b + edP - a) % edP
  let f := (d + edP - c) % edP
  let g := (d + c) % edP
  let h := (b + a) % edP
  ⟨e * f % edP, g * h % edP, f * g % edP, e * h % edP⟩

/-- A multiple of a point by the `n` low bits of `k`. -/
def edMul : Nat → Nat → EdPoint → EdPoint
  | 0, _, _ => edZero
  | n + 1, k, q =>
    let r := edMul n (k / 2) (edAdd q q)
    if k % 2 = 1 then edAdd q r else r

/-- Two points are one. -/
def edEq (q r : EdPoint) : Bool := q.x * r.z % edP == r.x * q.z % edP && q.y * r.z % edP == r.y * q.z % edP

/-- The x of a point from its y and the lowest bit of x, where there is one. -/
def edRecover (y sign : Nat) : Option Nat :=
  let u := (y * y + edP - 1) % edP
  let v := (edD * (y * y % edP) + 1) % edP
  let v3 := v * v % edP * v % edP
  let x := u * v3 % edP * powMod edP 255 (u * (v3 * v3 % edP * v % edP) % edP) ((edP - 5) / 8) % edP
  let x' := if v * (x * x % edP) % edP = u then x else x * powMod edP 255 2 ((edP - 1) / 4) % edP
  if edP ≤ y ∨ v * (x' * x' % edP) % edP ≠ u ∨ (x' = 0 ∧ sign = 1) then none
  else some (if x' % 2 = sign then x' else edP - x')

/-- A point from its 32 bytes. -/
def edDecode (n : Nat) : Option EdPoint :=
  let y := n % 2 ^ 255
  (edRecover y (n / 2 ^ 255 % 2)).map fun x => ⟨x, y, 1, x * y % edP⟩

/-- The 32 bytes of a point. -/
def edEncode (q : EdPoint) : Nat :=
  let zi := powMod edP 255 q.z (edP - 2)
  q.y * zi % edP + q.x * zi % edP % 2 * 2 ^ 255

/-- Bytes of a number. -/
def leBytes (n x : Nat) : List Byte := (natBytes n x).map (BitVec.ofNat 8)

/-- The check of RFC 8032, 5.1.7, for a hash prefix `dom`: the group equation with the cofactor. -/
def edVerify (dom pub msg sig : List Byte) : Bool :=
  let s := littleEndian (sig.drop 32)
  match edDecode (littleEndian pub), edDecode (littleEndian (sig.take 32)) with
  | some a, some r =>
    let k := sha512 (dom ++ sig.take 32 ++ pub ++ msg) % edL
    decide (pub.length = 32 ∧ sig.length = 64 ∧ s < edL)
      && edEq (edMul 4 8 (edMul 253 s edBase)) (edMul 4 8 (edAdd r (edMul 253 k a)))
  | _, _ => false

/-- Whether an Ed25519 signature verifies: public key, message, signature. -/
def ed25519 (pub msg sig : List Byte) : Bool := edVerify [] pub msg sig

/-- The prefix of Ed25519ph with an empty context: "SigEd25519 no Ed25519 collisions", 1, 0. -/
def edDomPh : List Byte :=
  [0x53, 0x69, 0x67, 0x45, 0x64, 0x32, 0x35, 0x35, 0x31, 0x39, 0x20, 0x6e,
   0x6f, 0x20, 0x45, 0x64, 0x32, 0x35, 0x35, 0x31, 0x39, 0x20, 0x63, 0x6f,
   0x6c, 0x6c, 0x69, 0x73, 0x69, 0x6f, 0x6e, 0x73, 1, 0]

/-- Whether an Ed25519ph signature verifies, with an empty context: public key, message, signature. -/
def ed25519ph (pub msg sig : List Byte) : Bool := edVerify edDomPh pub (leBytes 64 (sha512 msg)) sig

/-- The Ed25519 signature of a message under a private key of 32 bytes (RFC 8032, 5.1.6). -/
def edSign (key msg : List Byte) : Nat :=
  let h := sha512 key
  let a := 2 ^ 254 + h % 2 ^ 254 / 8 * 8
  let pub := leBytes 32 (edEncode (edMul 255 a edBase))
  let r := sha512 (leBytes 32 (h / 2 ^ 256) ++ msg) % edL
  let rp := edEncode (edMul 253 r edBase)
  let k := sha512 (leBytes 32 rp ++ pub ++ msg) % edL
  rp + (r + k * a) % edL * 2 ^ 256

/-- The device's own signature (R401). -/
def deviceSign (msg : List Byte) : Nat := edSign Config.deviceKey msg

end Sys2Proof.Machine
end

