-- ==== Sys2Proof/Machine/Codes.lean ====
section
/-! DEFINITION. Reed–Solomon codes over GF(2^8) with field polynomial x^8 + x^4 + x^3 + x^2 + 1 and α = 0x02: the code of the
Wengan lanes (R103) and of the memory lines (R270 to R272). A word is the list of its bytes, the coefficient of the highest
power first; its generator has the roots α^0 to α^(r−1) for r check bytes. Polynomials in between are lists of coefficients,
the lowest power first. -/
namespace Sys2Proof.Machine.RS

/-- A field element times α. -/
def xtime (a : Nat) : Nat := if 128 ≤ a then (2 * a) ^^^ 0x11D else 2 * a

/-- A product in the field, over the lowest `n` bits of `b`. -/
def mulBits : Nat → Nat → Nat → Nat
  | 0, _, _ => 0
  | n + 1, a, b => (if b % 2 = 1 then a else 0) ^^^ mulBits n (xtime a) (b / 2)

/-- A product in the field. -/
def mul (a b : Nat) : Nat := mulBits 8 a b

/-- A power of α. -/
def alpha : Nat → Nat
  | 0 => 1
  | n + 1 => xtime (alpha n)

/-- The product of a, a², a⁴, … of n squarings. -/
def squares : Nat → Nat → Nat
  | 0, _ => 1
  | n + 1, a => mul a (squares n (mul a a))

/-- The inverse of an element other than 0: its power 254 = 2 + 4 + … + 128. -/
def inv (a : Nat) : Nat := squares 7 (mul a a)

/-- A word's value at `x`. -/
def eval (w : List Nat) (x : Nat) : Nat := w.foldl (fun v c => mul v x ^^^ c) 0

/-- A polynomial's value at `x`. -/
def evalLow (p : List Nat) (x : Nat) : Nat := eval p.reverse x

/-- The syndromes of a word: its values at α^0 to α^(r−1). -/
def syndromes (r : Nat) (w : List Nat) : List Nat := (List.range r).map fun j => eval w (alpha j)

/-- A sum of polynomials. -/
def add : List Nat → List Nat → List Nat
  | [], q => q
  | p, [] => p
  | a :: p, b :: q => (a ^^^ b) :: add p q

/-- A polynomial times an element. -/
def scale (c : Nat) (p : List Nat) : List Nat := p.map (mul c)

/-- A product of polynomials. -/
def mulPoly : List Nat → List Nat → List Nat
  | [], _ => []
  | a :: p, q => add (scale a q) (0 :: mulPoly p q)

/-- The generator for r check bytes: the product of x + α^j. -/
def generator : Nat → List Nat
  | 0 => [1]
  | r + 1 => mulPoly [alpha r, 1] (generator r)

/-- One step of the division of a word by the generator `g`, whose coefficients stand highest power first without the leading
1: the remainder so far gives way to the next one. -/
def encodeStep (g rem : List Nat) (c : Nat) : List Nat :=
  let q := c ^^^ rem.headD 0
  (g.zip (rem.drop 1 ++ [0])).map fun y => mul q y.1 ^^^ y.2

/-- The check bytes of a message: the remainder of the message times x^r, highest power first. -/
def checkBytes (r : Nat) (msg : List Nat) : List Nat :=
  let g := (generator r).reverse.drop 1
  msg.foldl (encodeStep g) (List.replicate r 0)

/-- A message with its check bytes after it. -/
def encode (r : Nat) (msg : List Nat) : List Nat := msg ++ checkBytes r msg

/-- The locator of position i of a word of n bytes: α^(n−1−i). -/
def locator (n i : Nat) : Nat := alpha (n - 1 - i)

/-- The Berlekamp–Massey search for the locator polynomial: `lam` the polynomial, `b` the one kept, `len` its length, `f`
erasures, `k` the syndromes used so far, `n` to go. -/
def search (s : List Nat) (f : Nat) : Nat → Nat → Nat → List Nat → List Nat → List Nat
  | 0, _, _, lam, _ => lam
  | n + 1, k, len, lam, b =>
    let d := (lam.zipIdx.map fun c => if c.2 ≤ k then mul c.1 (s.getD (k - c.2) 0) else 0).foldl (· ^^^ ·) 0
    if d = 0 then search s f n (k + 1) len lam (0 :: b)
    else
      let t := add lam (scale d (0 :: b))
      if 2 * len ≤ k + f then search s f n (k + 1) (k + 1 + f - len) t (scale (inv d) lam)
      else search s f n (k + 1) len t (0 :: b)

/-- The coefficients of the odd powers, each one place down: the formal derivative in characteristic 2. -/
def deriv (p : List Nat) : List Nat := (p.drop 1).zipIdx.map fun c => if c.2 % 2 = 0 then c.1 else 0

/-- The error value at position i of a word of n bytes (Forney), for the evaluator and the locator polynomial. -/
def errValue (n : Nat) (omega lam : List Nat) (i : Nat) : Nat :=
  let x := locator n i
  mul x (mul (evalLow omega (inv x)) (inv (evalLow (deriv lam) (inv x))))

/-- What a decoder with r check bytes and erased positions finds: the word corrected and the bytes it changes as (position,
error value), or none where more than it corrects is wrong: it corrects e errors and f erasures where 2e + f ≤ r (R272). -/
def decode (r : Nat) (erased : List Nat) (w : List Nat) : Option (List Nat × List (Nat × Nat)) :=
  let n := w.length
  let s := syndromes r w
  if s.all (· == 0) then some (w, [])
  else
    let f := erased.length
    let gam := erased.foldl (fun p i => mulPoly [1, locator n i] p) [1]
    let lam := search s f (r - f) f f gam gam
    let places := (List.range n).filter fun i => evalLow lam (inv (locator n i)) == 0
    let omega := (mulPoly s lam).take r
    let fixes := (places.map fun i => (i, errValue n omega lam i)).filter fun x => x.2 != 0
    let out := w.zipIdx.map fun c => c.1 ^^^ (match fixes.find? (·.1 == c.2) with | some x => x.2 | none => 0)
    let e := (fixes.filter fun x => !erased.contains x.1).length
    if (syndromes r out).all (· == 0) && decide (2 * e + f ≤ r) then some (out, fixes) else none

/-- The `n` bytes of a number, lowest first, as symbols. -/
def symbols : Nat → Nat → List Nat
  | 0, _ => []
  | n + 1, x => x % 256 :: symbols n (x / 256)

/-- The number of which these are the bytes, lowest first. -/
def number (w : List Nat) : Nat := w.foldr (fun b x => b + 256 * x) 0

end Sys2Proof.Machine.RS
end

