-- ==== Sys2Proof/Machine/Flits.lean ====
section
/-! DEFINITION. Wengan flits (R100 to R105): their fields, their CRC, and sending them. -/
namespace Sys2Proof.Machine

/-! ### CRC-32C (R102) -/

/-- `n` rounds of the reflected Castagnoli division of `c`. -/
def crcRounds : Nat → Nat → Nat
  | 0, c => c
  | n + 1, c => crcRounds n (if c % 2 = 1 then (c / 2) ^^^ 0x82F63B78 else c / 2)

/-- CRC-32C over `n` bytes of `x`, taken in ascending byte order, from the register value `c`. -/
def crc32cFrom : Nat → Nat → Nat → Nat
  | 0, c, _ => c
  | n + 1, c, x => crc32cFrom n (crcRounds 8 (c ^^^ (x % 256))) (x / 256)

/-- CRC-32C of the low `n` bytes of `x`: initial value and final exclusive-or 0xFFFF_FFFF (R102). -/
def crc32c (n x : Nat) : Nat := crc32cFrom n 0xFFFFFFFF x ^^^ 0xFFFFFFFF

/-! ### Fields of a flit (R100) -/

def fType (f : Nat) : Nat := bits f 0 5
def fSeq (f : Nat) : Nat := bits f 5 12
def fAddr (f : Nat) : Nat := bits f 17 8
def fCidx (f : Nat) : Nat := bits f 25 4
def fLast (f : Nat) : Nat := bits f 29 1
/-- The 192-bit payload. -/
def fPayload (f : Nat) : Nat := bits f 32 192
/-- The flit passes its CRC and its TYPE is not reserved (R101, R102). -/
def fGood (f : Nat) : Bool := bits f 224 32 == crc32c 28 (f % 2 ^ 224) && decide (fType f ≤ 0x14)

/-- A flit from its header fields and payload, with its CRC. -/
def mkFlit (type seq addr cidx last payload : Nat) : Flit :=
  let b := type % 32 + (seq % 4096) * 2 ^ 5 + (addr % 256) * 2 ^ 17 + (cidx % 16) * 2 ^ 25 + (last % 2) * 2 ^ 29
    + (payload % 2 ^ 192) * 2 ^ 32
  BitVec.ofNat 256 (b + crc32c 28 b * 2 ^ 224)

namespace FT
def idle := 0x00
def consist := 0x01
def cont := 0x02
def retime := 0x03
def commit := 0x04
def revoke := 0x05
def bstop := 0x06
def resume := 0x07
def safe := 0x08
def missed := 0x09
def ack := 0x0A
def nak := 0x0B
def enum := 0x0C
def idRead := 0x0D
def idData := 0x0E
def ringTime := 0x0F
def beacon := 0x10
def mailbox := 0x11
def remoteInsert := 0x12
def insertDone := 0x13
def probe := 0x14
end FT

/-! ### Ports -/

/-- Port `p` beside its registers. -/
def port (s : State) (p : Nat) : Port := smGet s.ports p {}

/-- The state with port `p` set. -/
def setPort (s : State) (p : Nat) (x : Port) : State := { s with ports := smSet s.ports p x {} }

/-- The port states of WNG_Pp_STATUS.STATE (R116). -/
def pDISABLED := 0
def pTRAINING := 1
def pENUMERATING := 2
def pUP := 3
def pRECOVER := 4

/-- STATE of port `p`. -/
def portState (s : State) (p : Nat) : Nat := fld s (F.WNG_Pp_STATUS_STATE p)

/-- The port is in trunk mode. -/
def isTrunk (s : State) (p : Nat) : Bool := flag s (F.WNG_Pp_CTRL_MODE p)

/-- A trunk port that is UP. -/
def upTrunk (s : State) (p : Nat) : Bool := isTrunk s p && portState s p == pUP

/-- A ring port that is UP. -/
def upRing (s : State) (p : Nat) : Bool := !isTrunk s p && portState s p == pUP

/-- A ring port whose link carries flits: UP or ENUMERATING. -/
def liveRing (s : State) (p : Nat) : Bool := !isTrunk s p && (portState s p == pUP || portState s p == pENUMERATING)

/-- The port is disabled or is being disabled (R125). -/
def portDisabled (s : State) (p : Nat) : Bool := !flag s (F.WNG_Pp_CTRL_ENABLE p) || flag s (F.WNG_Pp_STATUS_DRAINING p)

/-- The port takes new items: it is UP and is not being disabled (R125). -/
def portOpen (s : State) (p : Nat) : Bool := portState s p == pUP && !portDisabled s p

/-- Lane n beside its registers. -/
def lane (s : State) (n : Nat) : Lane := smGet s.lanes n {}

/-- The state with lane n set. -/
def setLane (s : State) (n : Nat) (x : Lane) : State := { s with lanes := smSet s.lanes n x {} }

/-- The lanes of port p: 2p, and 2p + 1 on a two-lane link. -/
def portLanes (s : State) (p : Nat) : List Nat := if flag s (F.WNG_Pp_CTRL_LANES p) then [2 * p, 2 * p + 1] else [2 * p]

/-- A flit of the device with a pending CRC injection of a lane of the port: bit 224 is inverted (R146). -/
def injectInto (s : State) (p : Nat) (f : Flit) : Flit × State :=
  match (portLanes s p).find? fun n => (lane s n).injCrc with
  | some n => (f ^^^ BitVec.ofNat 256 (2 ^ 224), setLane s n { lane s n with injCrc := false })
  | none => (f, s)

/-- A clock-monitor freeze is in force (R417). -/
def frozen (s : State) : Bool := flag s F.CLK_STATUS_FROZEN

/-- A flit leaves on port `p` from place `pos` (0 the device, else a module). During a freeze the device sends none but IDLE
flits (R417). -/
def send (s : State) (p pos : Nat) (f : Flit) : State :=
  if pos = 0 then
    (if frozen s then s else { (injectInto s p f).2 with wire := ⟨p, pos, (injectInto s p f).1⟩ :: s.wire })
  else { s with wire := ⟨p, pos, f⟩ :: s.wire }

/-- A flit of a type has arrived whole at place `pos`; during a freeze the device's port logic has no clock and takes none
(R417). -/
def arrived (s : State) (pos f type : Nat) : Bool := fGood f && fType f == type && (pos != 0 || !frozen s)

/-- A flit of the device that is not an item: it carries the last item sequence sent on the port, and LAST = 0, which marks
the last flit of an item (R100). -/
def sendPlain (s : State) (p type addr cidx payload : Nat) : State :=
  send s p 0 (mkFlit type (port s p).seq addr cidx 0 payload)

/-- The ports 0 to 3. -/
def allPorts : List Nat := [0, 1, 2, 3]

/-- A flit of the device on every port that meets a condition. -/
def sendWhere (s : State) (c : State → Nat → Bool) (type addr payload : Nat) : State :=
  forEach allPorts (fun s p => if c s p then sendPlain s p type addr 0 payload else s) s

/-! ### Update records (R105) -/

/-- The 48-bit update record of a Timetable entry. -/
def updOf (e : Nat) : Nat := bits e 46 10 + bits e 56 6 * 2 ^ 10 + bits e 96 32 * 2 ^ 16

def uChan (u : Nat) : Nat := bits u 0 10
def uOp (u : Nat) : Nat := bits u 10 6
def uPayload (u : Nat) : Nat := bits u 16 32

/-! ### Consists (R104) -/

/-- The payload of a CONSIST flit. -/
def consPayload (c : Cons) : Nat :=
  let n := (c.upds.length + 2) / 4
  c.stamp % 2 ^ 64 + n * 2 ^ 64 + c.kind * 2 ^ 68 + c.fb * 2 ^ 71 + c.group * 2 ^ 72 + c.rev % 256 * 2 ^ 80
    + c.axis * 2 ^ 88 + c.epoch % 2 ^ 16 * 2 ^ 96 + c.upds.length * 2 ^ 112 + c.upds.headD 0 * 2 ^ 144

/-- Four update records side by side. -/
def fourUpds (l : List Nat) : Nat :=
  l.getD 0 0 + l.getD 1 0 * 2 ^ 48 + l.getD 2 0 * 2 ^ 96 + l.getD 3 0 * 2 ^ 144

/-- The CONSIST_CONT flits from index `i` on. -/
def contFlits (seq addr : Nat) : Nat → Nat → List Nat → List Flit
  | 0, _, _ => []
  | n + 1, i, l => mkFlit FT.cont seq addr i (b2n (n == 0)) (fourUpds l) :: contFlits seq addr n (i + 1) (l.drop 4)

/-- The flits of a consist under a sequence number. -/
def consFlits (c : Cons) (seq : Nat) : List Flit :=
  let n := (c.upds.length + 2) / 4
  mkFlit FT.consist seq c.addr 0 (b2n (n == 0)) (consPayload c) :: contFlits seq c.addr n 1 (c.upds.drop 1)

end Sys2Proof.Machine
end

