-- ==== Sys2Proof/Machine/MemOps.lean ====
section
/-! DEFINITION. The memory dies (chapter 13): where a device address lies, who may access it, and reads and writes of
lines. -/
namespace Sys2Proof.Machine

/-! ### The shared completion status (R15) -/
namespace ST
def ok := 0
def busy := 1
def poison := 2
def tagFail := 3
def reset := 4
def disabled := 5
def full := 6
def late := 7
def denied := 8
def decode := 9
def timeout := 10
def exhausted := 11
def ration := 12
def groupFail := 13
def partial_ := 14
def internal := 15
end ST

/-! The master codes of R269. -/
namespace MC
def host := 0xC0
def stackCache := 0xC1
def timetable := 0xC2
def dispatcher := 0xC3
def signalBox := 0xC4
def debug := 0xC5
def descriptor := 0xC6
def none := 0xFF
end MC

/-! ### Addresses -/

/-- The ways into the memory dies (R266). -/
inductive MemWay where
  | plain | setAlias | clearAlias
  deriving DecidableEq, Repr

/-- How a device address reaches the memory dies, and the byte X it names there; none where no row of R266 does. -/
def memWay (a : Nat) : Option (MemWay × Nat) :=
  if a < 0x0C000000 then some (.plain, a)
  else if 0x004000000000 ≤ a ∧ a < 0x00400C000000 then some (.setAlias, a - 0x004000000000)
  else if 0x008000000000 ≤ a ∧ a < 0x00800C000000 then some (.clearAlias, a - 0x008000000000)
  else none

/-- Whether the Timetable partition is reserved (R52). -/
def ttReserved (s : State) : Bool := flag s F.TT_STATUS_RESERVED

/-- The first byte of the Timetable partition, an offset into M1 (R51). -/
def ttBase (s : State) : Nat :=
  match fld s F.TT_SIZE_ENTRIES with
  | 0 => 0x03600000
  | 1 => 0x02C00000
  | _ => 0x01800000

/-- Byte X of the memory dies lies in the reserved partition. -/
def inPartition (s : State) (x : Nat) : Bool := ttReserved s && decide (ttBase s ≤ x) && decide (x < 0x04000000)

/-- Group n (0–23) holds banks of the reserved partition. -/
def groupHasTt (s : State) (n : Nat) : Bool := ttReserved s && decide (n < 8) && decide (ttBase s / 0x100000 ≤ 8 * n + 7)

/-- Bank i of group n is a bank of the reserved partition. -/
def bankIsTt (s : State) (n i : Nat) : Bool := ttReserved s && decide (n < 8) && decide (ttBase s / 0x100000 ≤ 8 * n + i)

/-- The mode a group runs in: CONTIGUOUS while it holds partition banks (R52, R268). -/
def groupMode (s : State) (n : Nat) : Nat := if groupHasTt s n then 1 else fld s (F.MEM_GRPn_CFG_MODE n)

/-- The owner of bank i of group n (R269). -/
def bankOwner (s : State) (n i : Nat) : Nat := if bankIsTt s n i then MC.timetable else fld s (F.MEM_GRPn_OWNER_OWNERi n i)

/-- Group n of byte X (R267). -/
def groupOf (x : Nat) : Nat := x / 0x800000

/-- The bank (0–63 within its die) that holds byte X (R267). -/
def bankOf (s : State) (x : Nat) : Nat :=
  let o := x % 0x04000000
  if groupMode s (groupOf x) = 0 then 8 * (o / 0x800000) + (o / 64) % 8 else o / 0x100000

/-- The row within its bank (R267). -/
def rowOf (s : State) (x : Nat) : Nat :=
  let o := x % 0x04000000
  if groupMode s (groupOf x) = 0 then (o % 0x800000) / 512 else (o % 0x100000) / 64

/-- The storage line that holds byte X: die × 2^20 + bank × 2^14 + row. -/
def storLine (s : State) (x : Nat) : Nat := x / 0x04000000 * 2 ^ 20 + bankOf s x * 2 ^ 14 + rowOf s x

/-! ### Storage -/

/-- What an unlisted byte reads as: 0 (R286), or a free value in a bank whose contents the spec leaves open. -/
def cellDef (m : Memory) (a : Nat) : Byte :=
  match smGet m.scram (a / 2 ^ 20) 0 with
  | 0 => 0
  | k + 1 => Config.freeByte k a

/-- A byte of a storage line. -/
def cell (s : State) (line o : Nat) : Byte := smGet s.mem.cells (64 * line + o) (cellDef s.mem (64 * line + o))

/-- A byte of a storage line written. -/
def setCell (s : State) (line o : Nat) (v : Byte) : State :=
  { s with mem := { s.mem with cells := smSet s.mem.cells (64 * line + o) v (cellDef s.mem (64 * line + o)) } }

/-- The `n` bytes of a storage line from offset `o` on, little-endian. -/
def lineBytes (s : State) (line o : Nat) : Nat → Nat
  | 0 => 0
  | n + 1 => (cell s line o).toNat + lineBytes s line (o + 1) n * 256

/-- `n` bytes of a storage line written from offset `o` on, where the mask has a 1. -/
def setLineBytes (s : State) (line o : Nat) : Nat → Nat → Nat → State
  | 0, _, _ => s
  | n + 1, mask, v =>
    setLineBytes (if mask % 2 = 1 then setCell s line o (BitVec.ofNat 8 v) else s) line (o + 1) n (mask / 2) (v / 256)

/-- The contents of the banks [lo, hi) of a die (0 to 2) become free values. -/
def scramble (s : State) (die lo hi : Nat) : State :=
  let k0 := die * 64 + lo
  let k1 := die * 64 + hi
  { drawn s with mem := { s.mem with
      cells := smDrop s.mem.cells (k0 * 2 ^ 20) (k1 * 2 ^ 20)
      scram := (List.range (hi - lo)).foldl (fun m i => smSet m (k0 + i) (s.free + 1) 0) s.mem.scram } }

/-- The line carries META.POISON (R271). -/
def poisoned (s : State) (line : Nat) : Bool := smGet s.mem.poison line 0 == 1

/-- META.POISON of a line set or cleared. -/
def setPoison (s : State) (line : Nat) (b : Bool) : State :=
  { s with mem := { s.mem with poison := smSet s.mem.poison line (b2n b) 0 } }

/-! ### The line code (R271, R272) -/

/-- META of a line: POISON and OWNER. -/
def metaByte (s : State) (line : Nat) : Nat := b2n (poisoned s line) + 4 * smGet s.mem.owner line 0

/-- The codeword of a line: its data bytes, META and the check symbols. -/
def lineWord (s : State) (line : Nat) : List Nat := RS.encode 5 (RS.symbols 64 (lineBytes s line 0 64) ++ [metaByte s line])

/-- What a decoder finds in a codeword of which the bits in `e` have flipped, with the bytes declared erased: none where the
word is uncorrectable; else the flips that it leaves, and each byte it corrects with its error value. The code is linear, so
that this hangs on the flips alone: a word and the same word without its codeword have the same syndromes. The flips left are
0 wherever 2e + f ≤ 5; a word that more errors have brought near another codeword leaves the difference (R272). -/
def lineDecode (erased : List Nat) (e : Nat) : Option (Nat × List (Nat × Nat)) :=
  (RS.decode 5 erased (RS.symbols 70 e)).map fun r => (RS.number r.1, r.2)

/-- A stored line takes the flips `e` of its codeword's data and META into its contents. -/
def flipLine (s : State) (line e : Nat) : State :=
  if e = 0 then s
  else
    let s1 := setLineBytes s line 0 64 (2 ^ 64 - 1) (lineBytes s line 0 64 ^^^ e % 2 ^ 512)
    let s2 := if bitOf e 512 then setPoison s1 line (!poisoned s line) else s1
    if bits e 514 6 = 0 then s2
    else { s2 with mem := { s2.mem with owner := smSet s2.mem.owner line (smGet s2.mem.owner line 0 ^^^ bits e 514 6) 0 } }

/-! ### Permission -/

/-- The die (1–3) of byte X. -/
def dieOfByte (x : Nat) : Nat := x / 0x04000000 + 1

/-- The stack position of memory die d (R17). -/
def memPos (d : Nat) : Nat := 3 * d

/-- Die position p is held in reset (RST_DIE.IN_RESET). -/
def dieInReset (s : State) (p : Nat) : Bool := bitOf (fld s F.RST_DIE_IN_RESET) (p - 1)

/-- The same, or its reset waits for the die's blocks: requests complete RESET (R435). -/
def dieShut (s : State) (p : Nat) : Bool := dieInReset s p || s.rst.dieWait.contains p

/-- A master that is always served (R285). -/
def exempt (m : Nat) : Bool := m == MC.stackCache || m == MC.timetable || m == MC.dispatcher

/-- MEM_CTRL.ENABLE reads 1 and is not being cleared. -/
def memEnabled (s : State) : Bool := flag s F.MEM_CTRL_ENABLE && !flag s F.MEM_STATUS_DRAINING

/-- Ownership forbids master `m` byte X (R52, R268, R269). -/
def memDenied (s : State) (m x : Nat) : Bool :=
  (inPartition s x && m != MC.timetable) ||
  (match groupMode s (groupOf x) with
   | 0 => false
   | 1 => let w := bankOwner s (groupOf x) (bankOf s x % 8); w != MC.none && w != m
   | _ => m != MC.stackCache)

/-! ### Paths over the links (R314, R328) -/

/-- Link k is fenced. -/
def linkFenced (s : State) (k : Nat) : Bool := bitOf (fld s F.STK_FENCED_LINKS) k

/-- The spine link of memory die t. -/
def spineOf (t : Nat) : Nat := 39 + t

/-- The link of band k of logic die d to memory die t, where the band touches the die. -/
def bandLink (d k t : Nat) : Option Nat :=
  if t = d then some (16 * (d - 1) + k) else if t + 1 = d then some (16 * (t - 1) + 8 + k) else none

/-- The paths of a band to die t in order of preference: the links each crosses, and the memory die that relays it. -/
def bandPaths (d k t : Nat) : List (List Nat × Option Nat) :=
  (match bandLink d k t with | some l => [([l], none)] | none => []) ++
  (if d = 1 then [([spineOf t], none)]
   else ([d, d - 1].filter (· != t)).filterMap fun m => (bandLink d k m).map fun l => ([l, spineOf m, spineOf t], some m))

/-- The paths of a base-die master to die t; where link 40 is fenced, die M1 is reached over a link of L1, the one the
line address names first (R328). That the Timetable controller and the Dispatcher, which reach the partition over the spine
only (R20), take that fallback too is the model's choice (DESIGN CHOICE, log entry 128). -/
def basePaths (t line : Nat) : List (List Nat × Option Nat) :=
  ([spineOf t], none) :: (if t = 1 then (line % 8 :: List.range 8).map fun k => ([k], none) else [])

/-- The logic die and band of a master, none for a master on the base die; `mrq` chooses a region's second interface
(R275). -/
def masterBand (m : Nat) (mrq : Bool) : Option (Nat × Nat) :=
  if m < 0x60 then some (m / 32 + 1, m % 32 / 4)
  else if m ≤ 0xA7 then some ((m - 0x60) / 24 + 1, 2 * ((m - 0x60) % 4) + b2n mrq)
  else none

/-- The paths of a master to byte X that cross no fenced link. -/
def openPaths (s : State) (m x : Nat) (mrq : Bool) : List (List Nat × Option Nat) :=
  let ps := match masterBand m mrq with
    | some (d, k) => bandPaths d k (dieOfByte x)
    | none => basePaths (dieOfByte x) (x / 64)
  ps.filter fun p => !p.1.any (linkFenced s)

/-- The path is open and no memory die in reset relays it (R330). -/
def pathUp (s : State) (p : List Nat × Option Nat) : Bool := match p.2 with | some t => !dieInReset s (memPos t) | none => true

/-- The links that a request crosses: the first path that exists. -/
def pathOf (s : State) (m x : Nat) (mrq : Bool) : List Nat := (((openPaths s m x mrq).filter (pathUp s)).headD ([], none)).1

/-- The status of a request for want of a path: DECODE where none exists, RESET where a die in reset relays each (R329,
R330). -/
def pathStatus (s : State) (m x : Nat) (mrq : Bool) : Nat :=
  let ps := openPaths s m x mrq
  if ps.isEmpty then ST.decode
  else if ps.any (pathUp s) || m == MC.timetable || m == MC.dispatcher then ST.ok
  else ST.reset

/-- MODE, FIRST and LAST of the test in hand of unit u, as its GO gave them. -/
def tstMode (s : State) (u : Nat) : Bool := bitOf (smGet s.bst.cmd u 0) 0
def tstFirst (s : State) (u : Nat) : Nat := bits (smGet s.bst.cmd u 0) 1 8
def tstLast (s : State) (u : Nat) : Nat := bits (smGet s.bst.cmd u 0) 9 8

/-- A destructive self-test holds a bank of unit u (R467). -/
def bankTested (s : State) (u b : Nat) : Bool :=
  fld s (F.BST_Uu_STATUS_STATE u) != 0 && tstMode s u && decide (tstFirst s u ≤ b) && decide (b ≤ tstLast s u)

/-- The status with which an access of master `m` to device address `a` is refused, 0 where it is served. RESET comes
before DISABLED, DECODE and DENIED (R16, R283); the Timetable controller and the Dispatcher are served during a DIE
reset (R286). -/
def memRefusalAt (s : State) (m a : Nat) (mrq : Bool) : Nat :=
  match memWay a with
  | none => if memEnabled s || exempt m then ST.decode else ST.disabled
  | some (_, x) =>
    if blkShut s 0x10 then ST.reset
    else if dieShut s (memPos (dieOfByte x)) && m != MC.timetable && m != MC.dispatcher then ST.reset
    else if pathStatus s m x mrq = ST.reset then ST.reset
    else if (!memEnabled s && !exempt m) || (bankTested s (dieOfByte x - 1) (bankOf s x) && m != MC.timetable && m != MC.dispatcher) then ST.disabled
    else if pathStatus s m x mrq = ST.decode then ST.decode
    else if memDenied s m x then ST.denied
    else ST.ok

/-- The same, for a region over its first interface. -/
def memRefusal (s : State) (m a : Nat) : Nat := memRefusalAt s m a false

/-- The byte X of the memory dies behind a device address, 0 where there is none. -/
def memByte (a : Nat) : Nat := match memWay a with | some (_, x) => x | none => 0

/-! ### Whole accesses without an error in the line -/

/-- A read of `n` bytes within one line by master `m` at device address `a`: status and data (R281, R282). -/
def memLoad (s : State) (m a n : Nat) : Nat × Nat :=
  let r := memRefusal s m a
  if r ≠ 0 then (r, 0)
  else
    let l := storLine s (memByte a)
    (if poisoned s l then ST.poison else ST.ok, lineBytes s l (a % 64) n)

/-- The merged value of a byte under plain, set-alias and clear-alias writes (R280). -/
def mergeBytes (w : MemWay) (old v : Nat) : Nat :=
  match w with
  | .plain => v
  | .setAlias => old ||| v
  | .clearAlias => old - (old &&& v)

/-- The bytes of a write merged into its line, which is then good. -/
def mergeLine (s : State) (a n mask v : Nat) : State :=
  let l := storLine s (memByte a)
  let w := match memWay a with | some (w, _) => w | none => MemWay.plain
  setLineBytes (setPoison s l false) l (a % 64) n mask (mergeBytes w (lineBytes s l (a % 64) n) v)

/-- A write of `n` bytes within one line by master `m`, where the byte mask has a 1. A write that covers all 64 bytes
clears the line's poison; any other write of a poisoned line performs nothing (R280, R282). -/
def memStore (s : State) (m a n mask v : Nat) : Nat × State :=
  let r := memRefusal s m a
  if r ≠ 0 then (r, s)
  else
    let w := match memWay a with | some (w, _) => w | none => MemWay.plain
    let whole := w == .plain && n == 64 && mask % 2 ^ 64 == 2 ^ 64 - 1
    if poisoned s (storLine s (memByte a)) && !whole then (ST.poison, s) else (ST.ok, mergeLine s a n mask v)

/-- Bytes written across lines, byte by byte, by a master: the first status other than OK, with what came before it
written. -/
def memStoreBytes (s : State) (m a : Nat) : List Byte → Nat × State
  | [] => (ST.ok, s)
  | b :: t =>
    let r := memStore s m a 1 1 b.toNat
    if r.1 ≠ 0 then (r.1, s) else memStoreBytes r.2 m (a + 1) t

/-- The low `n` bytes of a number, lowest first. -/
def bytesOf : Nat → Nat → List Byte
  | 0, _ => []
  | n + 1, x => BitVec.ofNat 8 x :: bytesOf n (x / 256)

/-- A completion handed to a master. -/
def respond (s : State) (m tag status data : Nat) : State := { s with rsps := ⟨m, tag, status, data⟩ :: s.rsps }

/-- A line is poisoned by its die: counted, recorded and reported (R282). `kind` is 0 for the patrol, 1 for a request. -/
def poisonLine (s : State) (d line kind : Nat) (addrLine : Nat) : State :=
  let s1 := raise (satInc (setPoison s line true) (F.MEM_Md_UNCORR_UNCORR d)) 0x1002 [(1, d), (4, addrLine)]
  if flag s1 (F.MEM_Md_LASTERR_VALID d) then s1
  else setFld (setFld (setFld s1 (F.MEM_Md_LASTERR_KIND d) kind) (F.MEM_Md_LASTERR_LINE d) addrLine) (F.MEM_Md_LASTERR_VALID d) 1

/-- A correction is counted, with event 0x1001 at most once per 1 ms per die (R280, R287). -/
def countCorr (s : State) (d : Nat) : State := raiseMerged (satInc s (F.MEM_Md_CORR_CORR d)) 0x1001 d [(1, d)]

end Sys2Proof.Machine
end

