-- ==== Sys2Proof/Machine/Identity.lean ====
section
/-! DEFINITION. A module's identity memory (R118): its header, its TLVs and the runs within them. -/
namespace Sys2Proof.Machine

/-- A byte of identity memory. -/
def idByte (m : SMap Byte) (i : Nat) : Nat := (smGet m i 0).toNat

/-- `n` bytes of identity memory from `i` on, little-endian. -/
def idNat (m : SMap Byte) (i : Nat) : Nat → Nat
  | 0 => 0
  | n + 1 => idByte m i + idNat m (i + 1) n * 256

/-- `n` bytes of identity memory from `i` on. -/
def idList (m : SMap Byte) (i : Nat) : Nat → List Byte
  | 0 => []
  | n + 1 => smGet m i 0 :: idList m (i + 1) n

/-- LENGTH of the header. -/
def idLength (m : SMap Byte) : Nat := idNat m 2 2

/-- FLAGS.SIGNED of the header. -/
def idSigned (m : SMap Byte) : Bool := idByte m 4 % 2 == 1

/-- The TLVs from offset `off` on, as (type, offset of the type byte, length), up to and with END. -/
def idTlvs (m : SMap Byte) : Nat → Nat → List (Nat × Nat × Nat)
  | 0, _ => []
  | fuel + 1, off =>
    if idLength m < off + 3 then []
    else if idByte m off = 0 then [(0, off, idNat m (off + 1) 2)]
    else (idByte m off, off, idNat m (off + 1) 2) :: idTlvs m fuel (off + 3 + idNat m (off + 1) 2)

/-- All TLVs of an identity memory. -/
def idAll (m : SMap Byte) : List (Nat × Nat × Nat) := idTlvs m 700 8

/-- The first TLV of a type: offset of its value and its length. -/
def idFind (m : SMap Byte) (t : Nat) : Option (Nat × Nat) :=
  match (idAll m).find? (fun x => x.1 == t) with
  | some (_, o, l) => some (o + 3, l)
  | none => none

/-- The value part of the run of `size` bytes that covers channel `c`, searched over `n` runs from `off` on. -/
def idRun (m : SMap Byte) (c size : Nat) : Nat → Nat → Option Nat
  | 0, _ => none
  | n + 1, off =>
    if idNat m off 2 ≤ c ∧ c < idNat m off 2 + idNat m (off + 2) 2 then some (off + 4) else idRun m c size n (off + size)

/-- The value part of the run that covers channel `c` in the TLV of a type, whose runs start `skip` bytes in. -/
def idLookup (m : SMap Byte) (t skip size c : Nat) : Option Nat :=
  match idFind m t with
  | some (o, l) => idRun m c size ((l - skip) / size) (o + skip)
  | none => none

/-- The counts of `n` runs of `size` bytes added up. -/
def idSum (m : SMap Byte) (size : Nat) : Nat → Nat → Nat
  | 0, _ => 0
  | n + 1, off => idNat m (off + 2) 2 + idSum m size n (off + size)

/-- The channel count: the counts of the CHANNELS runs (R118). -/
def idChannels (m : SMap Byte) : Nat :=
  match idFind m 2 with
  | some (o, l) => idSum m 5 (l / 5) o
  | none => 0

/-- The kind of a channel, 0 where no run covers it: 1 SWITCH, 2 PULSE, 3 LEVEL, 4 WAVE, 5 SERVO. -/
def idKind (m : SMap Byte) (c : Nat) : Nat :=
  match idLookup m 2 0 5 c with
  | some o => idByte m o
  | none => 0

/-- The late rule of a channel; channels not covered take DISCARD (R115, R118). -/
def idLate (m : SMap Byte) (c : Nat) : Nat :=
  match idLookup m 5 0 5 c with
  | some o => idByte m o
  | none => 0

/-- The safe-frame OP and value of a channel; channels not covered take CLEAR (R118). -/
def idSafe (m : SMap Byte) (c : Nat) : Nat × Nat :=
  match idLookup m 4 0 9 c with
  | some o => (idByte m o, idNat m (o + 1) 4)
  | none => (2, 0)

/-- The safe frame holds the channel on. -/
def idSafeOn (m : SMap Byte) (c : Nat) : Bool :=
  (idSafe m c).1 == 1 || ((idSafe m c).1 == 4 && (idSafe m c).2 % 2 ^ 16 != 0)

/-- A channel's cost in the units of the module's RATION TLV. -/
def idCost (m : SMap Byte) (c : Nat) : Nat :=
  match idLookup m 3 4 6 c with
  | some o => idNat m o 2
  | none => Config.uncoveredCost c

/-- UNIT of the RATION TLV, in µA. -/
def idUnit (m : SMap Byte) : Nat :=
  match idFind m 3 with
  | some (o, _) => idNat m o 4
  | none => 0

/-- Whether the OP suits a channel of the kind (R106). -/
def opSuits (kind op : Nat) : Bool :=
  op == 2 ||
  (match kind with
   | 1 => op == 1
   | 2 => op == 3 || op == 1
   | 3 => op == 4
   | 4 => op == 5
   | 5 => op == 6
   | _ => false)

/-! ### The checks of a read identity memory (R118, R119) -/

/-- The `n` runs of `size` bytes from `off` on are ascending and disjoint: each starts at or after `lo`, the end of the one
before. -/
def idAscending (m : SMap Byte) (size : Nat) : Nat → Nat → Nat → Bool
  | 0, _, _ => true
  | n + 1, off, lo => decide (lo ≤ idNat m off 2) && idAscending m size n (off + size) (idNat m off 2 + idNat m (off + 2) 2)

/-- The value of a TLV is `skip` bytes and then whole runs of `size` bytes, ascending and disjoint (R118). -/
def idRunsOk (m : SMap Byte) (t skip size : Nat) : Bool :=
  match idFind m t with
  | some (o, l) => decide (skip ≤ l) && (l - skip) % size == 0 && idAscending m size ((l - skip) / size) (o + skip) 0
  | none => false

/-- A TLV has a value of fixed length where it is present. -/
def idLenOk (m : SMap Byte) (t n : Nat) : Bool := match idFind m t with | some (_, l) => l == n | none => true

/-- A type that must appear once and may appear once only. -/
def idOnce (m : SMap Byte) (t : Nat) : Bool := ((idAll m).filter (fun x => x.1 == t)).length == 1

/-- FORMAT, LENGTH, the zero bytes, every type known, every required TLV present once, whole runs that ascend, and END the
last of the LENGTH bytes with a passing CRC (R118). -/
def idFormatOk (m : SMap Byte) : Bool :=
  let ts := idAll m
  idNat m 0 2 == 1 && decide (8 ≤ idLength m) && decide (idLength m ≤ 2048) && idNat m 5 3 == 0
  && ts.all (fun x => x.1 ≤ 6 || x.1 == 0x0F || (decide (0x80 ≤ x.1) && decide (x.1 ≤ 0xFE)))
  && [1, 2, 3, 4, 5, 6].all (idOnce m)
  && decide (((ts.filter (fun x => x.1 == 0x0F)).length) ≤ 1)
  && idRunsOk m 2 0 5 && idRunsOk m 3 4 6 && idRunsOk m 4 0 9 && idRunsOk m 5 0 5 && idLenOk m 1 14 && idLenOk m 0x0F 96
  && decide (1 ≤ idChannels m) && decide (idChannels m ≤ 1024)
  && (match ts.getLast? with
      | some (0, o, 4) => o + 7 == idLength m && idNat m (o + 3) 4 == crc32c o (idNat m 0 o)
      | _ => false)

/-- SIGNATURE stands immediately before END: the offset of its type byte. -/
def idSigAt (m : SMap Byte) : Option Nat :=
  match (idAll m).reverse with
  | (0, _, _) :: (0x0F, o, _) :: _ => some o
  | _ => none

/-- The signature rules fail, so the module is quarantined (R119). `trusted` holds the valid maker keys. -/
def idQuarantine (m : SMap Byte) (trusted : List Nat) (requireSigned : Bool) : Bool :=
  if idSigned m then
    match idSigAt m with
    | none => true
    | some o => !(trusted.contains (idNat m (o + 3) 32)
        && ed25519 (idList m (o + 3) 32) (idList m 0 o) (idList m (o + 35) 64))
  else requireSigned

end Sys2Proof.Machine
end

