-- ==== Sys2Proof/Machine/DispCore.lean ====
section
/-! DEFINITION. The shared operations of the Dispatcher (chapter 04): the ledger and the ration, journals and replays,
group instances and their records, retime, and the buffer stop. -/
namespace Sys2Proof.Machine

/-! ### Fields of a Timetable entry (R47) -/

def eAngle (e : Nat) : Nat := bits e 0 24
def eBucket (e : Nat) : Nat := bits e 12 12
def eRev (e : Nat) : Nat := bits e 24 8
def eAxis (e : Nat) : Nat := bits e 32 4
def ePort (e : Nat) : Nat := bits e 36 2
def eModule (e : Nat) : Nat := bits e 38 8
def eChan (e : Nat) : Nat := bits e 46 10
def eOp (e : Nat) : Nat := bits e 56 6
def eLate (e : Nat) : Nat := bits e 62 2
def eCost (e : Nat) : Nat := bits e 64 10
def eRail (e : Nat) : Nat := bits e 74 3
def ePrio (e : Nat) : Nat := bits e 77 2
def eGrp (e : Nat) : Bool := bitOf e 79
def eSlack (e : Nat) : Nat := bits e 80 8
def eGroup (e : Nat) : Nat := bits e 88 8
def ePayload (e : Nat) : Nat := bits e 96 32

/-- The Dispatcher's part of the state, replaced. -/
def setDsp (s : State) (d : Dispatch) : State := { s with dsp := d }

/-- LEAD in ns. -/
def leadNs (s : State) : Nat := fld s F.DSP_LEAD_LEAD * 1000

/-- The delivery latency of a port in ns. -/
def lat (s : State) (p : Nat) : Nat := fld s (F.DSP_PORTp_LAT_LAT p)

/-! ### Modules as the device sees them (R117) -/

def modState (s : State) (p n : Nat) : Nat := fld s (F.WNG_Pp_MODn_STATE p n)

/-- The identity bytes the device has read from a module. -/
def modIdent (s : State) (p n : Nat) : SMap Byte := (smGet (port s p).infos n {}).bytes

/-- The positions 1 to n of a port. -/
def positions (s : State) (p : Nat) : List Nat := (List.range (fld s (F.WNG_Pp_STATUS_MODULES p))).map (· + 1)

/-- The enumerated modules of a port that are served. -/
def served (s : State) (p : Nat) : List Nat := (positions s p).filter fun n => modState s p n == 1

/-- The modules that an address on a port names: one, or every served one for 255. -/
def targets (s : State) (p a : Nat) : List Nat := if a = 255 then served s p else [a]

/-- The ledger's key of a channel. -/
def chKey (p n c : Nat) : Nat := p * 2 ^ 18 + n * 2 ^ 10 + c

/-- A channel's cost in the units of rail `r` (R118). -/
def railCost (s : State) (p n c r : Nat) : Nat :=
  ceilDiv (idCost (modIdent s p n) c * idUnit (modIdent s p n)) (1000 * fld s (F.DSP_RAILr_CFG_UNIT r))

/-! ### The ledger (R83) -/

/-- A pulse's end that an update of its channel supersedes: one stamped after the pulse's start and at or before the end,
whichever was admitted first (R83, R106). -/
def superseded (l : List Change) (c : Change) : Bool :=
  c.isEnd && l.any fun x => x.key == c.key && !x.isEnd && decide (c.start < x.at_) && decide (x.at_ ≤ c.at_)

/-- The last change of a channel at or before `t`; the ends of pulses that updates supersede are none. -/
def lastChange (s : State) (key t : Nat) : Option Change :=
  (s.dsp.changes.filter fun c => c.key == key && decide (c.at_ ≤ t) && !superseded s.dsp.changes c).getLast?

/-- The COST of a channel that is on at `t`, 0 if it is off. -/
def costOn (s : State) (key t : Nat) : Nat := match lastChange s key t with | some c => c.cost | none => 0

/-- The keys of channels that the ledger names. -/
def ledgerKeys (s : State) : List Nat := (s.dsp.changes.map (·.key)).eraseDups

/-- The level of a rail at `t`: the COST of its channels that are on. -/
def levelAt (s : State) (r t : Nat) : Nat :=
  ((ledgerKeys s).map fun k =>
    match lastChange s k t with
    | some c => if c.rail = r then c.cost else 0
    | none => 0).sum

/-- The highest of a list of numbers, at least `d`. -/
def maxOf (d : Nat) (l : List Nat) : Nat := l.foldl max d

/-- The highest level of a rail over [t, end), `none` for no end. -/
def maxLevel (s : State) (r t : Nat) (stop : Option Nat) : Nat :=
  maxOf (levelAt s r t)
    ((s.dsp.changes.filter fun c => decide (t < c.at_) && (match stop with | some e => decide (c.at_ < e) | none => true)).map
      fun c => levelAt s r c.at_)

/-- The step count of a rail over (t − w, t]. -/
def stepsIn (s : State) (r w t : Nat) : Nat :=
  ((s.dsp.steps.filter fun x => x.rail == r && decide (t < x.at_ + w) && decide (x.at_ ≤ t)).map (·.inc)).sum

/-- The highest step count of a rail over the windows that end in [t, t + w). -/
def maxSteps (s : State) (r w t : Nat) : Nat :=
  maxOf (stepsIn s r w t)
    ((s.dsp.steps.filter fun x => x.rail == r && decide (t < x.at_) && decide (x.at_ < t + w)).map fun x => stepsIn s r w x.at_)

/-- The change goes after those at or before its time. -/
def putChange (l : List Change) (c : Change) : List Change := insertBy (·.at_) c l

/-- A change is entered in the ledger. -/
def addChange (s : State) (c : Change) : State := setDsp s { s.dsp with changes := putChange s.dsp.changes c }

/-- A step is entered. -/
def addStep (s : State) (x : StepRec) : State := setDsp s { s.dsp with steps := s.dsp.steps ++ [x] }

/-- The charges made by the entries of some acceptance numbers are removed (R82, R94). Acceptance numbers start at 1, and no
reset of the Timetable takes them back; a charge of no entry has number 0. -/
def uncharge (s : State) (ords : List Nat) : State :=
  setDsp s { s.dsp with
    changes := s.dsp.changes.filter fun c => !(ords.contains c.ord)
    steps := s.dsp.steps.filter fun x => !(ords.contains x.ord) }

/-- What is past and superseded leaves the ledger; no count of R83 reads it any more. The longest WINDOW is that of rail 8,
2,047 µs. -/
def pruneLedger (s : State) : State :=
  let t := now s
  setDsp s { s.dsp with
    changes := s.dsp.changes.filter fun c => decide (t < c.at_) || lastChange s c.key t == some c
    steps := s.dsp.steps.filter fun x => decide (t < x.at_ + 2048000) }

/-! ### The ration (R83, R85) -/

/-- The entry leaves its channel off: CLEAR, or LEVEL with setpoint 0. -/
def turnsOff (e : Nat) : Bool := eOp e == 2 || (eOp e == 4 && ePayload e % 2 ^ 16 == 0)

/-- The COST the entry leaves its channel on at. -/
def newCost (e : Nat) : Nat := if turnsOff e then 0 else eCost e

/-- The keys of the channels an entry acts on. -/
def entryKeys (s : State) (e : Nat) : List Nat := (targets s (ePort e) (eModule e)).map fun n => chKey (ePort e) n (eChan e)

/-- The level change of an entry at `t`: per channel COST − c, added up. -/
def levelChange (s : State) (e t : Nat) : Int :=
  ((entryKeys s e).map fun k => (newCost e : Int) - (costOn s k t : Int)).sum

/-- The step charge of an entry at `t`: the increases, channel by channel. -/
def stepCharge (s : State) (e t : Nat) : Nat :=
  if turnsOff e then 0 else ((entryKeys s e).map fun k => newCost e - costOn s k t).sum

/-- The rail of the entry is rationed. -/
def rationed (s : State) (e : Nat) : Bool := flag s (F.DSP_RAILr_CFG_ENABLE (eRail e))

/-- WINDOW of a rail in ns. -/
def windowNs (s : State) (r : Nat) : Nat := fld s (F.DSP_RAILr_CFG_WINDOW r) * 1000

/-- The end of the entry's effect on the level: the pulse's end, or none. -/
def effectEnd (e t : Nat) : Option Nat := if eOp e = 3 then some (t + ePayload e) else none

/-- The entry fits the ration at `t` with `x` units more. CLEAR and entries with COST 0 always fit. -/
def fits (s : State) (e t x : Nat) : Bool :=
  !rationed s e || eOp e == 2 || eCost e == 0 ||
  (let r := eRail e
   let w := windowNs s r
   decide ((maxLevel s r t (effectEnd e t) : Int) + levelChange s e t ≤ (fld s (F.DSP_RAILr_CEIL_CEIL r) + x : Nat)) &&
   decide (maxSteps s r w t + stepCharge s e t ≤ fld s (F.DSP_RAILr_STEP_STEP r) + x))

/-- The changes of an admitted entry enter the ledger: its update, and the end of a pulse. -/
def chargeKeys (s : State) (e ord t : Nat) : List Nat → State
  | [] => s
  | k :: ks =>
    let s1 := addChange s ⟨eRail e, k, ord, t, newCost e, false, t⟩
    let s2 := if eOp e = 3 then addChange s1 ⟨eRail e, k, ord, t + ePayload e, 0, true, t⟩ else s1
    chargeKeys s2 e ord t ks

/-- The rail of the channel's last admitted entry is recorded, as rail + 1 (R83). -/
def recordRail (s : State) (e : Nat) : State :=
  setDsp s { s.dsp with chRail := (entryKeys s e).foldl (fun m k => smSet m k (eRail e + 1) 0) s.dsp.chRail }

/-- An entry is charged at `t`: nothing on a rail that is not rationed. -/
def charge (s : State) (e ord t : Nat) : State :=
  let s1 := recordRail s e
  if rationed s e then
    let s2 := addStep s1 ⟨eRail e, ord, t, stepCharge s e t⟩
    let s3 := chargeKeys s2 e ord t (entryKeys s e)
    peak s3 (F.DSP_RAILr_PEAK_PEAK (eRail e)) (maxLevel s3 (eRail e) t (effectEnd e t))
  else s1

/-! ### Outcomes (R78) -/

/-- The counter of an outcome. -/
def outcomeFld (st : Nat) : Fld :=
  if st = ST.ok then F.DSP_CNT_FIRED_COUNT
  else if st = ST.late then F.DSP_CNT_LATE_COUNT
  else if st = ST.decode then F.DSP_CNT_DECODE_COUNT
  else if st = ST.denied then F.DSP_CNT_DENIED_COUNT
  else if st = ST.disabled then F.DSP_CNT_DISABLED_COUNT
  else if st = ST.groupFail then F.DSP_CNT_GROUP_FAIL_COUNT
  else F.DSP_CNT_RATION_COUNT

/-- An entry ends with an outcome. -/
def outcome (s : State) (st : Nat) : State := satInc s (outcomeFld st)

/-- `n` entries end with an outcome. -/
def outcomes (s : State) (st n : Nat) : State := satAdd s (outcomeFld st) n

/-! ### Items and journals (R92, R107) -/

/-- The sequence value is held by a journal item or an outstanding consist. -/
def seqHeld (x : Port) (q : Nat) : Bool := x.journal.any (fun i => i.seq == q) || x.outst.any (fun o => o.seq == q)

/-- The next sequence value after `q` that nothing holds, among the next `n` values. -/
def freeSeq (x : Port) : Nat → Nat → Option Nat
  | 0, _ => none
  | n + 1, q => if seqHeld x ((q + 1) % 4096) then freeSeq x n (q + 1) else some ((q + 1) % 4096)

/-- The port has room for an item: its journal, its outstanding list for a consist, and a sequence value. -/
def hasRoom (s : State) (p : Nat) (isCons : Bool) : Bool :=
  let x := port s p
  decide (x.journal.length < 4096) && (!isCons || decide (x.outst.length < 4096)) && (freeSeq x 4096 x.seq).isSome

/-- The flit type of an item that is one flit. -/
def itemType : ItemKind → Nat
  | .consist => FT.consist
  | .retime => FT.retime
  | .commit => FT.commit
  | .revoke => FT.revoke

/-- The flits of an item. -/
def itemFlits (i : Item) : List Flit :=
  match i.kind with
  | .consist => consFlits i.cons i.seq
  | k => [mkFlit (itemType k) i.seq i.addr 0 1 i.payload]

/-- The flits of a list leave on a port, in order. -/
def sendAll (s : State) (p : Nat) (l : List Flit) : State := forEach l (fun s f => send s p 0 f) s

/-- The consist is a staged one of the instance. -/
def isStagedOf (g : Grp) (c : Cons) : Bool := c.kind == 1 && c.axis == g.axis && c.rev == g.rev && c.group == g.group

/-- The first staged consist of a place and stamp that has no sequence number takes one. -/
def numberMod (c : Cons) (q : Nat) : List GMod → List GMod
  | [] => []
  | m :: t => if m.port = c.port ∧ m.addr = c.addr ∧ m.stamp = c.stamp ∧ m.seq = 4096 then { m with seq := q } :: t else m :: numberMod c q t

/-- The sequence number of a staged consist that is sent, in its group instance (R87). -/
def numberStaged (s : State) (c : Cons) (q : Nat) : State :=
  let f := fun (g : Grp) => if isStagedOf g c then { g with mods := numberMod c q g.mods } else g
  setDsp s { s.dsp with groups := s.dsp.groups.map f }

/-- An item is numbered, journaled and sent; the entries of an ungrouped consist count OK, or LATE (R76, R78). The
caller has checked that there is room. -/
def emitItem (s : State) (p : Nat) (i : Item) : State :=
  let x := port s p
  let q := (freeSeq x 4096 x.seq).getD 0
  let i' := { i with seq := q, cons := { i.cons with epoch := smGet s.dsp.epochs i.cons.axis 0 } }
  let o := if i.kind = ItemKind.consist then x.outst ++ [⟨q, i.addr, i.cons.axis, i.cons.stamp, i.cons.stamp⟩] else x.outst
  let n := if i.kind = ItemKind.consist ∧ i.cons.kind = 0 then i.cons.ents.length else 0
  let s1 := outcomes (outcomes s ST.late i.cons.nlate) ST.ok (n - i.cons.nlate)
  let s2 := if i.kind = ItemKind.consist ∧ i.cons.kind = 1 then numberStaged s1 i.cons q else s1
  sendAll (setPort s2 p { x with seq := q, journal := x.journal ++ [i'], outst := o }) p (itemFlits i')

/-- An item is sent, or held back by a full journal until there is room (R93). -/
def queueItem (s : State) (p : Nat) (i : Item) : State :=
  if portOpen s p && hasRoom s p (i.kind == ItemKind.consist) && (port s p).waiting.isEmpty then emitItem s p i
  else setPort s p { port s p with waiting := (port s p).waiting ++ [i] }

/-- An empty consist, the filler of items that are none. -/
def noCons : Cons := ⟨0, 0, 0, 0, 0, 0, 0, 0, 0, [], [], 0⟩

/-- A consist as an item. -/
def consItem (c : Cons) : Item := ⟨0, .consist, c.addr, c.stamp, c, 0⟩

/-- The payload of COMMIT and REVOKE: the group instance (R101). -/
def groupPayload (g : Grp) : Nat := g.axis + g.rev % 256 * 2 ^ 4 + g.group * 2 ^ 12

/-! ### Safe frames in the ledger (R89, R94, R115) -/

/-- The channel's state at `t` is set in the ledger, on the rail recorded for it; a channel with no known rail is
charged on none. -/
def ledgerSet (s : State) (key t : Nat) (on : Nat → Nat) : State :=
  match smGet s.dsp.chRail key 0 with
  | 0 => s
  | r + 1 => if flag s (F.DSP_RAILr_CFG_ENABLE r) then addChange s ⟨r, key, 0, t, on r, false, t⟩ else s

/-- A channel takes its safe-frame value at `t`: its identity-memory COST where the frame holds it on, else off. -/
def ledgerSafe (s : State) (p n c t : Nat) : State :=
  ledgerSet s (chKey p n c) t fun r => if idSafeOn (modIdent s p n) c then railCost s p n c r else 0

/-- The channels of a module. -/
def channels (s : State) (p n : Nat) : List Nat := List.range (idChannels (modIdent s p n))

/-- A served module takes its whole safe frame at `t`. -/
def ledgerSafeModule (s : State) (p n t : Nat) : State := forEach (channels s p n) (fun s c => ledgerSafe s p n c t) s

/-- The MISSED action of a module in the ledger: OFF and SAFE channels only (R115). -/
def ledgerMissed (s : State) (p n t : Nat) : State :=
  forEach (channels s p n) (fun s c =>
    match idLate (modIdent s p n) c with
    | 2 => ledgerSet s (chKey p n c) t fun _ => 0
    | 3 => ledgerSafe s p n c t
    | _ => s) s

/-! ### Group instances (R87 to R91) -/

/-- The instance is that of an axis, revolution and group. -/
def isGroup (axis rev group : Nat) (g : Grp) : Bool := g.axis == axis && g.rev == rev && g.group == group

/-- The instance of a pick. -/
def findGroup (s : State) (axis rev group : Nat) : Option Grp := s.dsp.groups.find? (isGroup axis rev group)

/-- An instance written back. -/
def putGroup (s : State) (g : Grp) : State :=
  setDsp s { s.dsp with groups := s.dsp.groups.map fun x => if isGroup g.axis g.rev g.group x then g else x }

/-- The fallback of a group index: 0 REPEAT, 1 SAFE (R89). -/
def groupFb (s : State) (group : Nat) : Nat := bits (fld s F.DSP_GRP_FB_FB) group 1

/-- The least of a list of numbers, `d` for none. -/
def minOf (d : Nat) : List Nat → Nat
  | [] => d
  | x :: t => t.foldl min x

/-- The commit point: the earliest stamp minus the larger of the margin and four round trips (R87). -/
def commitPoint (s : State) (g : Grp) : Nat :=
  let rtt := maxOf 0 (g.membs.map fun m => fld s (F.DSP_PORTp_RTT_RTT (ePort m.entry)))
  minOf 0 (g.membs.map (·.t)) - max (fld s F.DSP_COMMIT_MARGIN_MARGIN * 1000) (4 * rtt)

/-- The (port, module) pairs of an instance's members, each once. -/
def groupPlaces (g : Grp) : List (Nat × Nat) := (g.membs.map fun m => (ePort m.entry, eModule m.entry)).eraseDups

/-- A module record of R90. -/
def moduleRecord (p a out : Nat) : Nat := a + p * 2 ^ 8 + out * 2 ^ 10

/-- The outcome of a module in a record: NOT_STAGED, ACKED_REVOKED, NOT_ACKED, COMMITTED, COMMIT_LOST. -/
def moduleOutcome (g : Grp) (p a : Nat) : Nat :=
  let ms := g.mods.filter fun m => m.port == p && m.addr == a
  if ms.isEmpty then 0
  else if ms.any (·.lost) then 4
  else if g.reason = 0x0B then 3
  else if ms.all (·.acked) then 1 else 2

/-- The words of an instance's group record as bytes: the 64-byte header and one record per module. -/
def groupRecord (s : State) (g : Grp) : List Byte :=
  let ps := groupPlaces g
  let h := s.dsp.grpSeq % 2 ^ 32 + g.axis * 2 ^ 32 + g.rev % 256 * 2 ^ 40 + g.group * 2 ^ 48 + g.reason * 2 ^ 56
    + groupFb s g.group * 2 ^ 64 + commitPoint s g * 2 ^ 128 + ps.length * 2 ^ 192 + g.membs.length * 2 ^ 208
  bytesOf 64 h ++ ps.flatMap fun x => bytesOf 4 (moduleRecord x.1 x.2 (moduleOutcome g x.1 x.2))

/-- A group record is written into the ring with event 0x0905 and vector 7, or counted as dropped (R90). -/
def writeGroupRecord (s : State) (g : Grp) : State :=
  let wp := fld s F.DSP_GRP_WP_WP
  if (wp + 1) % 64 = fld s F.DSP_GRP_RP_RP then satInc s F.DSP_GRP_DROPPED_DROPPED
  else
    let r := memStoreBytes s MC.dispatcher (fld s F.DSP_GRP_RING_BASE + 8192 * wp) (groupRecord s g)
    if r.1 ≠ 0 then satInc r.2 F.DSP_GRP_DROPPED_DROPPED
    else
      let s1 := setDsp r.2 { r.2.dsp with grpSeq := r.2.dsp.grpSeq + 1 }
      setFld (pendVec (raise s1 0x0905 [(1, wp)]) 7) F.DSP_GRP_WP_WP ((wp + 1) % 64)

/-- The FALLBACK consist for members of one port, module and stamp (R89, R113). -/
def fallbackCons (s : State) (g : Grp) (p a t : Nat) (es : List Nat) : Cons :=
  ⟨p, a, g.axis, g.rev, t, 2, groupFb s g.group, g.group, 0, es.map updOf, [], 0⟩

/-- A list cut into pieces of at most 61 elements, `fuel` pieces at most. -/
def chunks61 {α : Type} : Nat → List α → List (List α)
  | 0, _ => []
  | n + 1, l => if l.isEmpty then [] else l.take 61 :: chunks61 n (l.drop 61)

/-- FALLBACK consists for members of an instance that share port, module and stamp. -/
def sendFallbacks (s : State) (g : Grp) (p a t : Nat) (ms : List Memb) : State :=
  forEach (chunks61 128 (ms.map (·.entry))) (fun s es => queueItem s p (consItem (fallbackCons s g p a t es))) s

/-- The key under which the last committed update of a group index on a channel is kept. -/
def lastKey (group key : Nat) : Nat := group * 2 ^ 20 + key

/-- The stamp at which a member acts: that of its staged consist, which retimes move, else its own (R89). -/
def membStamp (g : Grp) (m : Memb) : Nat := match g.mods.find? (fun x => x.ords.contains m.ord) with | some x => x.stamp | none => m.t

/-- The distinct (port, module, stamp) triples of members. -/
def membPlaces (g : Grp) (ms : List Memb) : List (Nat × Nat × Nat) :=
  (ms.map fun m => (ePort m.entry, eModule m.entry, membStamp g m)).eraseDups

/-- The members at one of those places. -/
def membsAt (g : Grp) (ms : List Memb) (x : Nat × Nat × Nat) : List Memb :=
  ms.filter fun m => ePort m.entry == x.1 && eModule m.entry == x.2.1 && membStamp g m == x.2.2

/-- FALLBACK consists to every place of some members of an instance, stamped as their staged consists (R89). -/
def fallbackTo (s : State) (g : Grp) (ms : List Memb) : State :=
  forEach (membPlaces g ms) (fun s x => sendFallbacks s g x.1 x.2.1 x.2.2 (membsAt g ms x)) s

/-- A repeated update on one channel is charged as R83 charges it, level and step. -/
def chargeRepeat (s : State) (e t k : Nat) : State :=
  chargeKeys (addStep s ⟨eRail e, 0, t, newCost e - costOn s k t⟩) e 0 t [k]

/-- A member's fallback in the ledger at `t` (R89): the safe frame, or the last committed update of the group. A SAFE action
takes no step charge: R89 charges the channel on its COST and names none (DEDUCED, log entry 129). -/
def chargeFallback (s : State) (g : Grp) (m : Memb) : State :=
  let t := membStamp g m
  forEach (targets s (ePort m.entry) (eModule m.entry)) (fun s n =>
    let c := eChan m.entry
    let k := chKey (ePort m.entry) n c
    if groupFb s g.group = 1 then
      (if flag s (F.DSP_RAILr_CFG_ENABLE (eRail m.entry)) then
        addChange s ⟨eRail m.entry, k, 0, t,
          (if idSafeOn (modIdent s (ePort m.entry) n) c then railCost s (ePort m.entry) n c (eRail m.entry) else 0), false, t⟩
       else s)
    else
      match smGet s.dsp.lastUpd (lastKey g.group k) 0 with
      | 0 => s
      | e + 1 => if rationed s e then chargeRepeat s e t k else s) s

/-- The fallback of every member of an instance enters the ledger, in place of what its members were charged. -/
def chargeFallbacks (s : State) (g : Grp) : State :=
  forEach g.membs (fun s m => chargeFallback s g m) (uncharge s (g.membs.map (·.ord)))

/-- REVOKE to each module of a staged instance that has acknowledged a staged consist of it. -/
def sendRevokes (s : State) (g : Grp) : State :=
  forEach ((g.mods.filter (·.acked)).map fun m => (m.port, m.addr)).eraseDups (fun s x =>
    let t := minOf 0 ((g.mods.filter fun m => m.port == x.1 && m.addr == x.2).map (·.stamp))
    queueItem s x.1 ⟨0, .revoke, x.2, t, noCons, groupPayload g⟩) s

/-- The staged consists of an instance that are not acknowledged leave journals, waiting lists and the unsent
list. -/
def dropStaged (s : State) (g : Grp) : State :=
  let mine := isStagedOf g
  let s1 := setDsp s { s.dsp with unsent := s.dsp.unsent.filter fun c => !mine c }
  forEach allPorts (fun s p =>
    let x := port s p
    setPort s p { x with
      journal := x.journal.filter fun i => !(i.kind == ItemKind.consist && mine i.cons)
      waiting := x.waiting.filter fun i => !(i.kind == ItemKind.consist && mine i.cons) }) s1

/-- The members of a staged instance whose staged consist no acknowledgement names. -/
def unackedMembs (g : Grp) : List Memb :=
  g.membs.filter fun m => !(g.mods.any fun x => x.acked && x.ords.contains m.ord)

/-- An instance fails: what it sends and charges depends on the reason and on whether it was staged; its record is
written and its members counted GROUP_FAIL, all but the one whose own outcome failed it (R87, R89, R90). -/
def failGroupCore (s : State) (g : Grp) (reason own : Nat) : State :=
  let s1 := outcomes s ST.groupFail (g.membs.length - own)
  let s2 :=
    if reason = 0x07 then s1
    else if g.st = GrpSt.staged then
      chargeFallbacks (fallbackTo (dropStaged (sendRevokes s1 g) g) g (unackedMembs g)) g
    else chargeFallbacks (fallbackTo s1 g g.membs) g
  let g' := { g with st := GrpSt.failed, reason := reason }
  writeGroupRecord (putGroup s2 g') g'

/-- A committed instance ends: its record is written if a commit was lost (R90). -/
def endGroup (s : State) (g : Grp) : State :=
  if g.mods.any (·.lost) then
    let g' := { g with st := GrpSt.ended, reason := 0x0B }
    writeGroupRecord (putGroup s g') g'
  else putGroup s { g with st := GrpSt.ended }

/-- Commits of an instance are lost; event 0x0906 at the first loss (R87, R90). -/
def loseCommits (s : State) (g : Grp) (which : GMod → Bool) : State :=
  let hit := g.mods.filter fun m => which m && !m.cacked && !m.lost
  if hit.isEmpty then s
  else
    let g' := { g with mods := g.mods.map fun m => if which m && !m.cacked then { m with lost := true } else m }
    let m0 := hit.headD ⟨0, 0, 0, 0, [], false, false, false⟩
    let s1 := if g.mods.any (·.lost) then s else raise s 0x0906 [(1, m0.port), (1, m0.addr), (1, g.group)]
    if g'.mods.all (fun m => m.cacked || m.lost) then endGroup s1 g' else putGroup s1 g'

/-! ### The buffer stop (R94) -/

/-- The states of DSP_STATUS.BSTOP. -/
def bRUN := 0
def bSTOPPING := 1
def bSTOPPED := 2

/-- The state of the buffer stop. -/
def bstopState (s : State) : Nat := fld s F.DSP_STATUS_BSTOP

/-! The bits of DSP_BSTOP.CAUSE by the numbers its description gives them. -/
namespace BC
def host := 2
def therm := 3
def freeze := 4
def ringTime := 5
def axisLost := 6
def groups := 7
def reset := 8
end BC

/-- The whole journals and outstanding lists are emptied without replay. -/
def emptyJournals (s : State) : State :=
  forEach allPorts (fun s p => setPort s p { port s p with journal := [], outst := [], waiting := [] }) s

/-- An instance meets the entry of the buffer stop (R87). -/
def stopGroup (s : State) (g : Grp) : State :=
  match g.st with
  | .opened | .closed | .staged => failGroupCore s g 0x07 0
  | .committed => loseCommits s g fun _ => true
  | _ => s

/-- The channels of every served module, each with its port and position, in the ledger's safe state: what was
admitted for later is gone with the consists the modules discard. -/
def ledgerStop (s : State) : State :=
  let t := now s
  let s1 := setDsp s { s.dsp with changes := [] }
  forEach allPorts (fun s p => forEach (served s p) (fun s n => ledgerSafeModule s p n t) s) s1

/-- The consists that are admitted and not sent. -/
def unsentCons (s : State) : List Cons := s.dsp.unsent ++ allPorts.flatMap fun p => (port s p).waiting.map (·.cons)

/-- Every classified entry that is not yet decided, and every admitted entry whose consist is not sent, ends
DISABLED; the charges of the latter are removed, levels and steps (R94). -/
def disableWork (s : State) : State :=
  let cs := unsentCons s
  let n := s.dsp.internal.length + s.dsp.cands.length + (cs.map (fun c => if c.kind = 0 then c.ents.length else 0)).sum
  let s1 := uncharge s (cs.flatMap (·.ents))
  outcomes (setDsp s1 { s1.dsp with internal := [], cands := [], unsent := [] }) ST.disabled n

/-- The ring ports that owe an acknowledgement of BSTOP: those that are not DISABLED, whether or not their link carries flits
now (R94: every ring port). -/
def bstopOwing (s : State) : List Nat :=
  allPorts.filter fun p => !isTrunk s p && portState s p != pDISABLED && !(s.dsp.bstopAck.contains p)

/-- STOPPING ends once every ring port has its flit acknowledged. -/
def bstopCheck (s : State) : State :=
  if bstopState s = bSTOPPING ∧ bstopOwing s = [] then setFld s F.DSP_STATUS_BSTOP bSTOPPED else s

/-- The cause of a trigger is recorded. -/
def addCause (s : State) (c : Nat) : State := setFld s F.DSP_BSTOP_CAUSE (fld s F.DSP_BSTOP_CAUSE ||| 2 ^ (c - 2))

/-- A trigger of the buffer stop (R94). In RUN it enters STOPPING: event 0x0908, BSTOP on every ring port, vector 5, and
the work in hand ends. -/
def bstopTrigger (s : State) (c : Nat) : State :=
  let s1 := addCause s c
  if bstopState s ≠ bRUN then s1
  else
    let s2 := pendVec (raise s1 0x0908 [(1, fld s1 F.DSP_BSTOP_CAUSE)]) 5
    let s3 := setDsp (setFld s2 F.DSP_STATUS_BSTOP bSTOPPING) { s2.dsp with bstopAck := [] }
    let s4 := sendWhere s3 liveRing FT.bstop 255 0
    let s5 := forEach s4.dsp.groups stopGroup (disableWork s4)
    bstopCheck (ledgerStop (emptyJournals s5))

/-- A group fails, and enough failures within the window trigger the buffer stop (R91). -/
def failGroup (s : State) (g : Grp) (reason own : Nat) : State :=
  let s1 := failGroupCore s g reason own
  if reason = 0x07 ∨ reason = 0x08 then s1
  else
    let w := max 1 (fld s F.DSP_GRPFAIL_LIMIT_WINDOW) * 1000000
    let ts := now s :: s1.dsp.failTimes.filter fun t => decide (now s < t + w)
    let s2 := setDsp s1 { s1.dsp with failTimes := ts }
    let lim := fld s F.DSP_GRPFAIL_LIMIT_COUNT
    if flag s F.DSP_CTRL_GRPFAIL_STOP && decide (lim ≠ 0) && decide (lim ≤ ts.length) then bstopTrigger s2 BC.groups else s2

/-- A trigger that is still active: an axis in LOST with LOST_STOP, ring time lost and not valid again, a clock freeze
in force, or the device in the thermal state TRIP (R94). -/
def triggerActive (s : State) : Bool :=
  (flag s F.ANG_CTRL_LOST_STOP && (List.range 16).any fun n => fld s (F.ANG_AXn_STATUS_STATE n) == 3)
  || (bitOf (fld s F.DSP_BSTOP_CAUSE) (BC.ringTime - 2) && !rtValid s)
  || flag s F.CLK_STATUS_FROZEN
  || fld s F.THM_STATUS_STATE == 3

/-! ### Replay (R92) -/

/-- A removed item's missed-consist record, event 0x0904, MISSED flit and ledger changes; a removed COMMIT is lost. -/
def missItem (s : State) (p : Nat) (i : Item) : State :=
  let s1 := raise (satInc s (F.DSP_PORTp_MISSED_MISSED p)) 0x0904 [(1, p), (1, i.addr), (2, i.seq), (8, i.deadline)]
  let s2 := sendPlain s1 p FT.missed i.addr 0 (i.deadline % 2 ^ 64 + i.seq * 2 ^ 64)
  let s3 := forEach (targets s2 p i.addr) (fun s n => ledgerMissed s p n (now s)) s2
  if i.kind = ItemKind.commit then
    match s3.dsp.groups.find? (fun g => g.st == GrpSt.committed && groupPayload g == i.payload) with
    | some g => loseCommits s3 g fun m => m.port == p && m.addr == i.addr
    | none => s3
  else s3

/-- A replayed item carries its axis's current epoch (R112). -/
def freshItem (s : State) (i : Item) : Item := { i with cons := { i.cons with epoch := smGet s.dsp.epochs i.cons.axis 0 } }

/-- A replay of a port's journal: items whose deadline is at least a round trip away are resent in order, the others
removed. It acts on a port that is UP (R92, R110). -/
def replay (s : State) (p : Nat) : State :=
  let lim := now s + fld s (F.DSP_PORTp_RTT_RTT p)
  let j := (port s p).journal
  let keep := (j.filter fun i => decide (lim ≤ i.deadline)).map (freshItem s)
  let gone := j.filter fun i => !decide (lim ≤ i.deadline)
  let s1 := setPort s p { port s p with journal := keep }
  let s2 := forEach gone (fun s i => missItem s p i) s1
  let s3 := forEach keep (fun s i => sendAll s p (itemFlits i)) s2
  satAdd s3 (F.DSP_PORTp_REPLAY_REPLAYED p) keep.length

/-- Every item of a port's journal removed as missed (R116). -/
def missAll (s : State) (p : Nat) : State :=
  let j := (port s p).journal
  forEach j (fun s i => missItem s p i) (setPort s p { port s p with journal := [] })

/-! ### Retime (R81, R112) -/

/-- `a / b` rounded to the nearest integer, halves up. -/
def roundDiv (a b : Int) : Int := if b = 0 then 0 else (2 * a + b) / (2 * b)

/-- A value brought into [lo, hi]. -/
def clampInt (lo hi x : Int) : Int := if x < lo then lo else if hi < x then hi else x

/-- A linear map of stamps: T_R + K × (old − T_R) + OFFSET with K in Q2.30, to the nearest ns. -/
def mapStamp (tr : Nat) (k off : Int) (old : Nat) : Nat :=
  ((tr : Int) + roundDiv (k * ((old : Int) - tr)) (2 ^ 30) + off).toNat

/-- Where a consist with an old stamp ends up at its module (the table of R81). -/
def movedStamp (ta old new : Nat) : Nat := if old < ta then old else if ta ≤ new then new else ta

/-- An item's place in time after a retime of `axis`: a consist's stamp moves, and with it the deadline of a commit or revoke,
which is its module's stamp (R92). -/
def moveItem (axis : Nat) (mv : Nat → Nat) (i : Item) : Item :=
  match i.kind with
  | .consist => if i.cons.axis = axis then { i with deadline := mv i.cons.stamp, cons := { i.cons with stamp := mv i.cons.stamp } } else i
  | .commit | .revoke => if i.payload % 16 = axis then { i with deadline := mv i.deadline } else i
  | .retime => i

/-- The outstanding consists of an axis take their new stamps, in the outstanding list, the journal and the staged groups, and
so do those of the port that are not yet sent, which leave with their current stamps (R112; DEDUCED, log entry 135). -/
def moveOutst (s : State) (p axis ta tr : Nat) (k off kx offx : Int) : State :=
  let x := port s p
  let mv := fun old => movedStamp ta old (mapStamp tr k off old)
  let s1 := setPort s p { x with
    outst := x.outst.map fun o =>
      if o.axis = axis then { o with stamp := mv o.stamp, ideal := mapStamp tr kx offx o.stamp } else o
    journal := x.journal.map (moveItem axis mv)
    waiting := x.waiting.map (moveItem axis mv) }
  setDsp s1 { s1.dsp with
    unsent := s1.dsp.unsent.map fun c => if c.port = p ∧ c.axis = axis then { c with stamp := mv c.stamp } else c
    groups := s1.dsp.groups.map fun g =>
      if g.axis = axis then { g with mods := g.mods.map fun m => if m.port = p then { m with stamp := mv m.stamp } else m } else g }

/-- OFFSET of the map for a T_R at `r` ns from now: the stamp that the new prediction gives to the angle the old one reached
at T_R, minus T_R, to the nearest ns; out of its range where the new velocity is 0 (R81). -/
def retimeOff (th0 v0 th1 v1 r : Int) : Int := if v1 = 0 then 2 ^ 31 else roundDiv (th0 - th1 + v0 * r) v1 - r

/-- OFFSET lies within its signed 32 bits. -/
def offFits (off : Int) : Bool := decide (-(2 ^ 31) ≤ off) && decide (off ≤ 2 ^ 31 - 1)

/-- T_R: a free choice within LEAD of now, unless it brings OFFSET out of range while another one does not. OFFSET is linear
in T_R and moves by less than its range over 2 × LEAD, so an end of the interval then does. -/
def retimeRef (s : State) (th0 v0 th1 v1 : Int) : Nat :=
  let lo := now s - leadNs s
  let hi := now s + leadNs s
  let c := lo + freeOf s % (hi - lo + 1)
  (([c, lo, hi].find? fun (r : Nat) => offFits (retimeOff th0 v0 th1 v1 ((r : Int) - now s))).getD c)

/-- The old prediction `th0`, `v0` of an axis gives way to `th1`, `v1` (stamps in 2^−24 au, velocities in Q8.24): where
an outstanding consist's stamp moves beyond the threshold, one RETIME goes out per port that holds consists of the
axis, and the epoch advances (R81). A frozen Dispatcher sends none (R95), and
an axis that stood and stands has no K and sends none (DESIGN CHOICE, log entry 30). -/
def retimeAxis (s : State) (axis : Nat) (th0 v0 th1 v1 : Int) : State :=
  let t := now s
  let tr := retimeRef s th0 v0 th1 v1
  let kx := if v1 = 0 then 2 ^ 32 else roundDiv (v0 * 2 ^ 30) v1
  let offx := retimeOff th0 v0 th1 v1 ((tr : Int) - t)
  let k := clampInt 0 (2 ^ 32 - 1) kx
  let off := clampInt (-(2 ^ 31)) (2 ^ 31 - 1) offx
  let mine := fun p => (port s p).outst.filter fun o => o.axis == axis
  let moved := allPorts.any fun p => (mine p).any fun o =>
    decide (((mapStamp tr kx offx o.stamp : Int) - o.stamp).natAbs > fld s F.DSP_RETIME_THRESH_THRESH)
  if frozen s || !moved || (v0 == 0 && v1 == 0) then s
  else
    let e := smGet s.dsp.epochs axis 0
    let s1 := forEach (allPorts.filter fun p => !(mine p).isEmpty) (fun s p =>
      let ta := t + lat s p
      let pay := ta % 2 ^ 64 + ofSigned 32 ((tr : Int) - ta) * 2 ^ 64 + k.toNat * 2 ^ 96 + ofSigned 32 off * 2 ^ 128
        + axis * 2 ^ 160 + e * 2 ^ 164
      moveOutst (queueItem s p ⟨0, .retime, 255, ta, noCons, pay⟩) p axis ta tr k off kx offx) (drawn s)
    setDsp s1 { s1.dsp with epochs := smSet s1.dsp.epochs axis ((e + 1) % 65536) 0 }

end Sys2Proof.Machine
end

