-- ==== Sys2Proof/Machine/AngleOps.lean ====
section
/-! DEFINITION. The shared operations of angle and ring time (chapter 02): the interpolator, the axis state machine, the
encoder counts, and the ring-time state machine. Stamps are kept in 2^−24 au, velocities in Q8.24 au/ns, so that a
velocity times a time in ns is a stamp. -/
namespace Sys2Proof.Machine

/-! ### Axes -/

/-- Axis n beside its registers. -/
def axis (s : State) (n : Nat) : Axis := smGet s.axes n {}

/-- The state with axis n set. -/
def setAxis (s : State) (n : Nat) (x : Axis) : State := { s with axes := smSet s.axes n x {} }

/-- The predicted stamp of axis n in 2^−24 au. -/
def theta (s : State) (n : Nat) : Nat := fld s (F.ANG_AXn_STAMP_STAMP n) * 2 ^ 24 + (axis s n).frac

/-- The predicted stamp set; stamps are 48 bits of au (R7). -/
def setTheta (s : State) (n : Nat) (th : Int) : State :=
  let t := ofSigned 72 th
  setFld (setAxis s n { axis s n with frac := t % 2 ^ 24 }) (F.ANG_AXn_STAMP_STAMP n) (t / 2 ^ 24)

/-- VEL of axis n. -/
def vel (s : State) (n : Nat) : Nat := fld s (F.ANG_AXn_VEL_VEL n)

/-- `a − b` of two stamps in 2^−24 au, the shorter way round. -/
def stampDiff (a b : Int) : Int := toSigned 72 (ofSigned 72 (a - b))

/-- The axis states of R36. -/
def aOFF := 0
def aACQUIRE := 1
def aTRACK := 2
def aLOST := 3

def axState (s : State) (n : Nat) : Nat := fld s (F.ANG_AXn_STATUS_STATE n)

/-- ANG_CTRL.ENABLE. -/
def angOn (s : State) : Bool := flag s F.ANG_CTRL_ENABLE

def axSrc (s : State) (n : Nat) : Nat := fld s (F.ANG_AXn_CFG_SRC n)

/-- The source of axis n is an encoder in quadrature mode. -/
def isQuad (s : State) (n : Nat) : Bool := decide (axSrc s n < 4) && !flag s (F.ANG_ENCk_CFG_MODE (axSrc s n))

/-- The 16 axes. -/
def allAxes : List Nat := List.range 16

/-- Encoder interface k. -/
def enc (s : State) (k : Nat) : Enc := smGet s.encs k {}

/-- The state with encoder interface k set. -/
def setEnc (s : State) (k : Nat) (x : Enc) : State := { s with encs := smSet s.encs k x {} }

/-- The angle of count c of encoder k on axis n (R30). -/
def angleOfCount (s : State) (n k : Nat) (c : Int) : Nat :=
  ofSigned 24 (c * 2 ^ 24 / (fld s (F.ANG_ENCk_CPR_CPR k) : Int) + (fld s (F.ANG_AXn_ZERO_OFFSET n) : Int))

/-- A division that the interpolator rounds: exact where it goes up, else the integer below plus a free bit; a free
value where the divisor is 0 (log entries 2 and 10). -/
def divFree (s : State) (a b : Int) : Int :=
  if b = 0 then (freeOf s : Int)
  else if a % b = 0 then a / b
  else a / b + ((freeOf s % 2 : Nat) : Int)

/-- A velocity brought into VEL: not below 0; a value VEL cannot hold is free (log entry 10). -/
def toVel (s : State) (v : Int) : Nat := if v < 0 then 0 else if v < 2 ^ 32 then v.toNat else freeOf s % 2 ^ 32

/-- The stamp of the count after the last one of axis n, in 2^−24 au: the angle of count c + 1 (R34). -/
def nextCount (s : State) (n : Nat) : Nat :=
  let k := axSrc s n
  let c := (enc s k).count
  ((axis s n).lastTh + (angleOfCount s n k (c + 1) + 2 ^ 24 - angleOfCount s n k c) % 2 ^ 24) * 2 ^ 24

/-- One slot of 4 ns of the interpolator: the prediction advances by its velocity, in quadrature mode at most to the
angle of the next count, and it never goes back (R34): a prediction beyond that angle already stays where it is. -/
def interpolate (s : State) (n : Nat) : State :=
  let th := theta s n + vel s n * 4
  if axState s n ≠ aTRACK then s
  else if isQuad s n && (axis s n).hasLast && decide (stampDiff th (nextCount s n) > 0) then
    (if stampDiff (nextCount s n) (theta s n) > 0 then setTheta s n (nextCount s n) else s)
  else setTheta s n th

/-- An axis enters ACQUIRE: what it knew of its source is dropped, the prediction stays (R36). -/
def toAcquire (s : State) (n : Nat) : State :=
  setFld (setAxis s n { axis s n with beacons := 0, hasLast := false, seed := false }) (F.ANG_AXn_STATUS_STATE n) aACQUIRE

/-- An axis enters LOST, with event 0x0A02, and triggers the buffer stop where LOST_STOP is set (R36, R37). -/
def toLost (s : State) (n : Nat) : State :=
  let s1 := setFld (raise s 0x0A02 [(1, n)]) (F.ANG_AXn_STATUS_STATE n) aLOST
  if flag s F.ANG_CTRL_LOST_STOP then bstopTrigger s1 BC.axisLost else s1

/-- A slip of an axis is counted with event 0x0A03 (R30, R34). -/
def slip (s : State) (n : Nat) : State := satInc (raise s 0x0A03 [(1, n)]) (F.ANG_AXn_STATUS_SLIPS n)

/-- A clamped correction is counted; event 0x0A04 when the count reaches 255. -/
def clampCount (s : State) (n : Nat) : State :=
  let s1 := if fld s (F.ANG_AXn_STATUS_CLAMPS n) = 254 then raise s 0x0A04 [(1, n)] else s
  satInc s1 (F.ANG_AXn_STATUS_CLAMPS n)

/-- The sample that completes ACQUIRE: the axis enters TRACK with event 0x0A01, the prediction is set, and the velocity
is the carried one, or 0 with SEED set (R34, R36). `th` is the sample in au, `tm` its ring time. That REVERSE clears here is
the model's choice (DESIGN CHOICE, log entry 117). -/
def enterTrack (s : State) (n th tm : Nat) (v : Option Nat) : State :=
  let vv := v.getD 0
  let s1 := setAxis (raise s 0x0A01 [(1, n)]) n
    { axis s n with seed := v.isNone, hasLast := true, lastTh := th, lastT := tm, rev := th / 2 ^ 24, lastAng := th % 2 ^ 24 }
  let s2 := setTheta (setFld s1 (F.ANG_AXn_VEL_VEL n) vv) n ((th : Int) * 2 ^ 24 + (vv : Int) * ((now s : Int) - tm))
  setFld (setFld s2 (F.ANG_AXn_STATUS_REVERSE n) 0) (F.ANG_AXn_STATUS_STATE n) aTRACK

/-- The velocity a sample measures: the carried one, or the angle difference of the last two samples by their
interval (R34). -/
def measured (s : State) (n th tm : Nat) (v : Option Nat) : Int :=
  match v with
  | some x => (x : Int)
  | none =>
    let a := axis s n
    divFree s (stampDiff ((th : Int) * 2 ^ 24) ((a.lastTh : Int) * 2 ^ 24)) ((tm : Int) - a.lastT)

/-- The velocity after a sample with error `e`: v moved toward v_meas + e / T_ns by at most ACCEL × T_us (R34). -/
def steerVel (s : State) (n : Nat) (vm e : Int) (tns : Int) : State :=
  let v := (vel s n : Int)
  let dv := vm + divFree s e tns - v
  let lim := divFree (drawn s) ((fld s (F.ANG_AXn_ACCEL_ACCEL n) : Int) * tns) 1000
  let d := clampInt (-lim) lim dv
  let s1 := if d = dv then s else clampCount s n
  setFld (drawn (drawn s1)) (F.ANG_AXn_VEL_VEL n) (toVel s (v + d))

/-- A later sample of an axis in TRACK (R34): a forward jump, a hold against backward motion, the seeding of the
velocity, or a correction of the velocity. What the prediction was at a past t_m is the present one less v × (now − t_m), as
R34 moves it when it sets it (DEDUCED, log entry 118). -/
def trackSample (s : State) (n th tm : Nat) (v : Option Nat) : State :=
  let a := axis s n
  let dt := (now s : Int) - tm
  let thm : Int := (th : Int) * 2 ^ 24
  let e := stampDiff thm ((theta s n : Int) - (vel s n : Int) * dt)
  let lim : Int := (fld s (F.ANG_AXn_LIMITS_ERRLIM n) : Int) * 2 ^ 24
  let vm := measured s n th tm v
  let s0 := setAxis (drawn s) n { a with hasLast := true, lastTh := th, lastT := tm, rev := th / 2 ^ 24, lastAng := th % 2 ^ 24 }
  let jump := decide (lim < e)
  let s1 := if jump then slip (setTheta s0 n (thm + (vel s n : Int) * dt)) n else s0
  if e < -lim ∨ (flag s (F.ANG_AXn_STATUS_REVERSE n) = true ∧ e ≤ 0) then
    setFld (setFld s1 (F.ANG_AXn_VEL_VEL n) 0) (F.ANG_AXn_STATUS_REVERSE n) 1
  else
    let s2 := setFld s1 (F.ANG_AXn_STATUS_REVERSE n) 0
    if a.seed then
      setFld (setAxis s2 n { axis s2 n with seed := false }) (F.ANG_AXn_VEL_VEL n) (toVel s2 vm)
    else steerVel s2 n vm (if jump then 0 else e) ((tm : Int) - a.lastT)

/-- A sample of an axis in TRACK, and the retime of its outstanding consists that it may call for (R81). -/
def sampleRetime (s : State) (n th tm : Nat) (v : Option Nat) : State :=
  let s1 := trackSample s n th tm v
  retimeAxis s1 n (theta s n) (vel s n) (theta s1 n) (vel s1 n)

/-- The revolution after a new angle: one on when it falls by more than half a turn, one back when it rises so (R32). -/
def nextRev (rev last ang : Nat) : Nat :=
  if ang + 8388608 < last then (rev + 1) % 2 ^ 24
  else if last + 8388608 < ang then (rev + 2 ^ 24 - 1) % 2 ^ 24
  else rev

/-- An encoder's new angle on an axis: it completes ACQUIRE where `acq` says so, with the revolution count at REVSET,
or is a later sample (R32, R34, R36). -/
def encSample (s : State) (n ang : Nat) (acq : Bool) : State :=
  if axState s n = aACQUIRE ∧ acq = true then
    enterTrack s n (fld s (F.ANG_AXn_REVSET_REVSET n) * 2 ^ 24 + ang) (now s) none
  else if axState s n = aTRACK then
    sampleRetime s n (nextRev (axis s n).rev (axis s n).lastAng ang * 2 ^ 24 + ang) (now s) none
  else s

/-- The axes that follow encoder k. -/
def axesOf (s : State) (k : Nat) : List Nat := allAxes.filter fun n => axSrc s n == k

/-! ### Ring time -/

/-- The ring-time states of R41. -/
def rSTOPPED := 0
def rFREE := 1
def rACQ_FREQ := 2
def rACQ_PHASE := 3
def rLOCKED := 4
def rHOLDOVER := 5

def rtState (s : State) : Nat := fld s F.ANG_STATUS_RT_STATE

/-- RT_STATE set. -/
def setRt (s : State) (x : Nat) : State := setFld s F.ANG_STATUS_RT_STATE x

/-- Ring time runs: it is neither stopped nor still without a frequency. -/
def rtRuns (s : State) : Bool := !(rtState s == rSTOPPED || rtState s == rACQ_FREQ)

/-- Loss of ring time: RT_VALID clears, event 0x0A12, the buffer stop is triggered (R41, R43). -/
def loseRt (s : State) : State := setFld (bstopTrigger (raise s 0x0A12 []) BC.ringTime) F.ANG_STATUS_RT_VALID 0

/-- LOCKED goes to HOLDOVER with event 0x0A11; while XO has failed, ring time is lost instead (R41, R419); that the state
is then ACQ_FREQ, as where HOLDOVER elapses, is the model's choice (DESIGN CHOICE, log entry 119). -/
def enterHoldover (s : State) : State :=
  if flag s F.CLK_STATUS_XO_FAIL then setRt (loseRt s) rACQ_FREQ
  else setRt (raise { s with rt := { s.rt with bad := 0 } } 0x0A11 []) rHOLDOVER

/-- ACQ_PHASE is entered: the next flit steps ring time. -/
def toPhase (s : State) : State := setRt { s with rt := { s.rt with good := 0, bad := 0, stepped := false } } rACQ_PHASE

/-- A trunk or ring flit of ring time now: TIME, CORRECTION 0 (R120), and above them, where R120 names nothing, the hop
count HOPS + 1 of R40 (DESIGN CHOICE, log entry 27). -/
def ringTimePayload (s : State) : Nat := now s % 2 ^ 64 + (fld s F.ANG_STATUS_HOPS + 1) % 2 ^ 8 * 2 ^ 112

/-- The error of a received ring time against the device's, in 2^−16 ns: TIME + CORRECTION + the hop delay − the ring time at
which the flit arrived, `late` after the start of the slot. -/
def rtError (s : State) (p f late : Nat) : Int :=
  (bits (fPayload f) 0 64 : Int) * 65536 + (bits (fPayload f) 64 48 : Int) + ((port s p).hop : Int) - ((now s : Int) * 65536 + late)

/-- RT_ERR of an error: units of 0.25 ns, signed. It is rounded down, and an error beyond 16 bits shows the nearest value
(DESIGN CHOICE, log entry 120). -/
def setRtErr (s : State) (e : Int) : State := setFld s F.ANG_STATUS_RT_ERR (ofSigned 16 (clampInt (-32768) 32767 (e / 16384)))

/-- The correction that the coming interval slews out, at most 8 ns of it, in 2^−16 ns (R42). Ring time does not step: it
goes on by 4 ns a slot (R25), and what the slew changes is how long those slots last (log entry 16). -/
def slewRt (s : State) (e : Int) : State := { s with rt := { s.rt with corr := clampInt (-(8 * 65536)) (8 * 65536) e } }

/-- |error| ≤ `n` ns. -/
def within (e : Int) (n : Nat) : Bool := decide (e.natAbs ≤ n * 65536)

/-- A ring-time flit at a follower (R41, R42). -/
def followFlit (s : State) (e : Int) (p f : Nat) : State :=
  let s0 := setRtErr s e
  if rtState s = rACQ_PHASE then
    if !s.rt.stepped then
      let t := (bits (fPayload f) 0 64 * 65536 + bits (fPayload f) 64 48 + (port s p).hop) / 65536
      setFld { s0 with rt := { s0.rt with stepped := true, good := 0, bad := 0 } } F.ANG_RT_TIME t
    else if within e 5 then
      let s1 := slewRt { s0 with rt := { s0.rt with good := s0.rt.good + 1 } } e
      if s0.rt.good + 1 < 16 then s1
      else setFld (setRt (raise { s1 with rt := { s1.rt with good := 0, bad := 0 } } 0x0A10 []) rLOCKED) F.ANG_STATUS_RT_VALID 1
    else slewRt { s0 with rt := { s0.rt with good := 0 } } e
  else if rtState s = rLOCKED ∨ rtState s = rHOLDOVER then
    if within e 50 then
      let s1 := slewRt { s0 with rt := { s0.rt with bad := 0 } } e
      if rtState s = rLOCKED then s1 else setRt (raise s1 0x0A10 []) rLOCKED
    else if s0.rt.bad + 1 < 4 then
      let s1 := { s0 with rt := { s0.rt with bad := s0.rt.bad + 1 } }
      if rtState s = rLOCKED then slewRt s1 e else s1
    else toPhase (loseRt s0)
  else s0

end Sys2Proof.Machine
end

