-- ==== Sys2Proof/Machine/LaneOps.lean ====
section
/-! DEFINITION. The shared operations of lanes, ports and trunks (chapters 05 and 06): the lane state machine, the port
state machine, enumeration, held-back items, and routed trunk flits. -/
namespace Sys2Proof.Machine

/-! ### Lanes -/

def lnOFF := 0
def lnDETECT := 1
def lnTRAIN := 2
def lnREADY_WAIT := 3
def lnLINKUP := 4
def lnLOOPBACK := 5

/-- STATE of lane n. -/
def laneState (s : State) (n : Nat) : Nat := fld s (F.WLN_LANEn_STATUS_STATE n)

/-- STATE of lane n set. -/
def setLaneState (s : State) (n v : Nat) : State := setFld s (F.WLN_LANEn_STATUS_STATE n) v

/-- The taps of lane n set, PRE in [3:0], MAIN in [7:4], POST in [11:8]. -/
def setTaps (s : State) (n v : Nat) : State :=
  setFld (setFld (setFld s (F.WLN_LANEn_STATUS_PRE n) (bits v 0 4)) (F.WLN_LANEn_STATUS_MAIN n) (bits v 4 4)) (F.WLN_LANEn_STATUS_POST n) (bits v 8 4)

/-- The taps of lane n. -/
def taps (s : State) (n : Nat) : Nat :=
  fld s (F.WLN_LANEn_STATUS_PRE n) + fld s (F.WLN_LANEn_STATUS_MAIN n) * 16 + fld s (F.WLN_LANEn_STATUS_POST n) * 256

/-- The preset taps of lane n. -/
def presetTaps (s : State) (n : Nat) : Nat :=
  fld s (F.WLN_LANEn_PRESET_PRE n) + fld s (F.WLN_LANEn_PRESET_MAIN n) * 16 + fld s (F.WLN_LANEn_PRESET_POST n) * 256

/-- What a lane counts during an attempt starts anew. -/
def freshLane (x : Lane) : Lane := { x with frames := 0, clean := 0, ready := 0, sts := 0, farPre := false, farLb := false, mism := false, differs := false, req := 0 }

/-- A lane enters DETECT: training frames are sent (R139). Where their fill starts is free. -/
def toDetect (s : State) (n : Nat) : State := setLaneState (setLane (drawn s) n { freshLane (lane s n) with draw := s.free }) n lnDETECT

/-- A lane that is OFF starts training with preset taps, unless it sends the wake tone (R139, R142). -/
def laneStart (s : State) (n : Nat) : State :=
  if laneState s n = lnOFF ∧ flag s (F.WLN_LANEn_CTRL_WAKE_TX n) = false then toDetect (setTaps s n (presetTaps s n)) n else s

/-- The lane that carries RCLK leaves LINKUP: a follower in LOCKED goes to HOLDOVER with event 0x0A11 (R41, R129). -/
def rclkLost (s : State) (n : Nat) : State :=
  if fld s F.ANG_RTM_ROLE_ROLE = 2 ∧ fld s F.ANG_RTM_ROLE_RCLK_LANE = n ∧ rtState s = rLOCKED then
    enterHoldover s
  else s

/-- A lane goes to OFF; taps, precoding and FEC settings are kept (R139, R148). -/
def laneOff (s : State) (n : Nat) : State :=
  let s1 := if laneState s n = lnLINKUP then rclkLost s n else s
  setLaneState (setLane s1 n (freshLane (lane s1 n))) n lnOFF

/-- A lane in LINKUP goes down with a cause: DETECT with the last good taps, event 0x0E02 (R139, R140). -/
def laneDownOnly (s : State) (n cause : Nat) : State :=
  let s1 := satInc (raise s 0x0E02 [(1, n), (1, cause)]) (F.WLN_LANEn_DOWN_COUNT n)
  let s2 := rclkLost (setTaps s1 n (lane s n).good) n
  toDetect (setFld s2 (F.WLN_LANEn_STATUS_CAUSE n) cause) n

/-! ### Held-back items (R82, R93) -/

/-- A held-back item that can no longer be sent: a consist's entries count LATE and their charges are removed (R82), a
commit is lost (R87). -/
def expireItem (s : State) (p : Nat) (i : Item) : State :=
  match i.kind with
  | .consist => if i.cons.kind = 0 then outcomes (uncharge s i.cons.ents) ST.late i.cons.ents.length else s
  | .commit =>
    match s.dsp.groups.find? (fun g => g.st == GrpSt.committed && groupPayload g == i.payload) with
    | some g => loseCommits s g fun m => m.port == p && m.addr == i.addr
    | none => s
  | _ => s

/-- A held-back item is too late to be sent. A retime is always sent. -/
def itemLate (s : State) (p : Nat) (i : Item) : Bool :=
  match i.kind with
  | .consist => decide (i.deadline < now s + lat s p)
  | .retime => false
  | _ => decide (i.deadline ≤ now s)

/-- Up to `n` held-back items of a port leave in order while there is room. -/
def drainWaiting (s : State) (p : Nat) : Nat → State
  | 0 => s
  | n + 1 =>
    match (port s p).waiting with
    | [] => s
    | i :: t =>
      if itemLate s p i then drainWaiting (expireItem (setPort s p { port s p with waiting := t }) p i) p n
      else if portOpen s p && hasRoom s p (i.kind == ItemKind.consist) then
        drainWaiting (emitItem (setPort s p { port s p with waiting := t }) p i) p n
      else s

/-- The held-back items of a port, as far as they can leave. -/
def drainPort (s : State) (p : Nat) : State := drainWaiting s p (port s p).waiting.length

/-- The commits of a port's journal that will never be delivered are lost (R87). -/
def loseJournal (s : State) (p : Nat) : State :=
  forEach ((port s p).journal.filter fun i => i.kind == ItemKind.commit) (fun s i => expireItem s p i) s

/-- What a port that is disabled has not sent: consists end DISABLED, commits are lost (R75, R125). -/
def dropUnsent (s : State) (p : Nat) : State :=
  let w := (port s p).waiting
  let mine := s.dsp.unsent.filter fun c => c.port == p
  let s1 := setPort (setDsp s { s.dsp with unsent := s.dsp.unsent.filter fun c => c.port != p }) p { port s p with waiting := [] }
  let cs := (mine ++ (w.filter fun i => i.kind == ItemKind.consist).map (·.cons)).filter fun c => c.kind == 0
  let s2 := outcomes (uncharge s1 (cs.flatMap (·.ents))) ST.disabled (cs.map (·.ents.length)).sum
  forEach (w.filter fun i => i.kind == ItemKind.commit) (fun s i => expireItem s p i) s2

/-! ### Enumeration (R116, R117) -/

/-- STATE of port p set. -/
def setPortState (s : State) (p v : Nat) : State := setFld s (F.WNG_Pp_STATUS_STATE p) v

/-- Every WNG_Pp_MODn of a port reads ABSENT. -/
def clearMods (s : State) (p : Nat) : State :=
  setFld (resetOffsets s (0x0C0104 + 0x4000 * p) (0x0C0100 + 0x4000 * p + 4 * 255)) (F.WNG_Pp_STATUS_QUARANTINED p) 0

/-- A hop delay in units of 0.25 ns, rounded up (R116). -/
def hopQuarters (h : Nat) : Nat := ceilDiv h 16384

/-- ENUM leaves the device: NEXT_POS 1 and ACC at the downstream hop delay. -/
def sendEnum (s : State) (p : Nat) : State :=
  sendPlain s p FT.enum 255 0 (1 + hopQuarters (port s p).hop % 2 ^ 32 * 2 ^ 8)

/-- The ledger's record of the rail of each channel of a port is dropped (R83). -/
def forgetRails (s : State) (p : Nat) : State := setDsp s { s.dsp with chRail := smDrop s.dsp.chRail (p * 2 ^ 18) ((p + 1) * 2 ^ 18) }

/-- Enumeration starts: ENUMERATING, every module ABSENT, ENUM sent. -/
def enumStart (s : State) (p : Nat) : State :=
  let s1 := forgetRails (clearMods s p) p
  setPortState (sendEnum (setPort s1 p { port s1 p with enumTries := 1, count := 0, infos := [] }) p) p pENUMERATING

/-- SAFE to each quarantined module of a port (R114). -/
def sendSafes (s : State) (p : Nat) : State :=
  forEach ((positions s p).filter fun n => modState s p n == 2) (fun s n => sendPlain s p FT.safe n 0 0) s

/-- Enumeration ends: UP, event 0x0C05 with the module count, SAFE to quarantined modules, and BSTOP while the buffer
stop is not in RUN (R114, R116). -/
def enumDone (s : State) (p : Nat) : State :=
  let s1 := setPort s p { port s p with enumTries := 0 }
  let s2 := setFld s1 (F.WNG_Pp_STATUS_QUARANTINED p) ((positions s1 p).filter fun n => modState s1 p n == 2).length
  let s3 := raise s2 0x0C05 [(1, p), (1, fld s2 (F.WNG_Pp_STATUS_MODULES p))]
  let s4 := sendSafes (setPortState s3 p pUP) p
  drainPort (if bstopState s4 ≠ bRUN then sendPlain s4 p FT.bstop 255 0 0 else s4) p

/-- The identity data the device has of module n. -/
def modInfo (s : State) (p n : Nat) : ModInfo := smGet (port s p).infos n {}

/-- The identity data of module n set. -/
def setInfo (s : State) (p n : Nat) (x : ModInfo) : State :=
  setPort s p { port s p with infos := smSet (port s p).infos n x {} }

/-- The 16-byte blocks up to LENGTH. -/
def idBlocks (x : ModInfo) : List Nat := (List.range (ceilDiv (idLength x.bytes) 16)).map (· * 16)

/-- The next offset to read of a module: 0 first, then each block up to LENGTH. -/
def nextOff (x : ModInfo) : Option Nat :=
  if x.ended then none
  else if !x.got.contains 0 then (if x.asked.contains 0 then none else some 0)
  else (idBlocks x).find? fun o => !(x.asked.contains o) && !(x.got.contains o)

/-- The requests outstanding on a port. -/
def asksOf (s : State) (p : Nat) : Nat := ((positions s p).map fun n => (modInfo s p n).asked.length).sum

/-- ID_READ leaves for an offset of module n. -/
def sendIdRead (s : State) (p n off : Nat) : State := sendPlain s p FT.idRead n 0 off

/-- Requests leave while fewer than 8 are outstanding, `fuel` at most (R117). -/
def idPump (s : State) (p : Nat) : Nat → State
  | 0 => s
  | fuel + 1 =>
    if 8 ≤ asksOf s p then s
    else
      match (positions s p).find? fun n => (nextOff (modInfo s p n)).isSome with
      | none => s
      | some n =>
        let x := modInfo s p n
        let o := (nextOff x).getD 0
        idPump (sendIdRead (setInfo s p n { x with asked := x.asked ++ [o] }) p n o) p fuel

/-- Enumeration ends once every module has ended its checks; else reading goes on. -/
def enumProgress (s : State) (p : Nat) : State :=
  if (positions s p).all fun n => (modInfo s p n).ended then enumDone s p else idPump s p 8

/-- A module ends its checks in a state, with a reason and its maker; events 0x0C03 and 0x0C04 (R117). -/
def endModuleChecks (s : State) (p n st reason maker : Nat) : State :=
  let s1 := setInfo s p n { modInfo s p n with ended := true, asked := [] }
  let s2 := setFld (setFld (setFld s1 (F.WNG_Pp_MODn_MAKER p n) maker) (F.WNG_Pp_MODn_REASON p n) reason) (F.WNG_Pp_MODn_STATE p n) st
  let s3 := if st = 2 then raise s2 0x0C03 [(1, p), (1, n)] else if st = 3 then raise s2 0x0C04 [(1, p), (1, n)] else s2
  enumProgress s3 p

/-- The valid keys of WNG_MAKERKEY0–7. -/
def trustedKeys (s : State) : List Nat :=
  ((List.range 8).filter fun k => bitOf (fld s F.WNG_NODE_CTRL_KEY_VALID) k).map fun k => fld s (F.WNG_MAKERKEYk_KEY k)

/-- The checks of a module whose identity memory is read whole (R117 to R119). -/
def judgeModule (s : State) (p n : Nat) : State :=
  let m := (modInfo s p n).bytes
  let maker := match idFind m 1 with | some (o, _) => idNat m o 2 | none => 0
  if !idFormatOk m then endModuleChecks s p n 3 2 0
  else if idQuarantine m (trustedKeys s) (flag s F.WNG_NODE_CTRL_REQUIRE_SIGNED) then endModuleChecks s p n 2 3 maker
  else endModuleChecks s p n 1 0 maker

/-- Enumeration ends with no modules (R116). -/
def enumEmpty (s : State) (p : Nat) : State :=
  let s1 := setFld (setFld (setFld s (F.DSP_PORTp_LAT_LAT p) 0) (F.DSP_PORTp_RTT_RTT p) 0) (F.WNG_Pp_STATUS_MODULES p) 0
  enumDone s1 p

/-! ### The port state machine (R116) -/

/-- Every lane of the port is in LINKUP. -/
def lanesReady (s : State) (p : Nat) : Bool := (portLanes s p).all fun n => laneState s n == lnLINKUP

/-- The port enters RECOVER with event 0x0C02 (R116). -/
def enterRecover (s : State) (p : Nat) : State :=
  let s1 := setPort s p { port s p with replays := 0 }
  setPortState (raise s1 0x0C02 [(1, p)]) p pRECOVER

/-- The lanes of a port go down with cause RETRAIN. -/
def retrainLanes (s : State) (p : Nat) : State :=
  forEach (portLanes s p) (fun s n => if laneState s n = lnLINKUP then laneDownOnly s n 3 else s) s

/-- A replay is due on a port that is UP; after 8 in a row without an acknowledgement the port enters RECOVER instead, and its
lanes retrain with cause RETRAIN (R92, R110, R140). -/
def startReplay (s : State) (p : Nat) : State :=
  if portState s p ≠ pUP ∨ isTrunk s p = true then s
  else if (port s p).replays < 8 then replay (setPort s p { port s p with replays := (port s p).replays + 1 }) p
  else retrainLanes (enterRecover s p) p

/-- A lane of the port went down: UP goes to RECOVER, ENUMERATING back to TRAINING (R116, R141). -/
def portLaneDown (s : State) (p : Nat) : State :=
  if portState s p = pUP then enterRecover s p
  else if portState s p = pENUMERATING then setPortState (setPort s p { port s p with enumTries := 0 }) p pTRAINING
  else s

/-- A lane in LINKUP goes down and its port follows. -/
def laneDown (s : State) (n cause : Nat) : State :=
  if laneState s n = lnLINKUP then portLaneDown (laneDownOnly s n cause) (n / 2) else s

/-- A trunk link starts: both ends number anew. -/
def trunkUp (s : State) (p : Nat) : State :=
  setPortState (setPort s p { port s p with txSeq := 0, txBuf := [], rxSeq := 0, rxHold := false, rxSync := false }) p pUP

/-- The kept flits of a trunk hop are sent again. -/
def resendTrunk (s : State) (p : Nat) : State := forEach (port s p).txBuf (fun s f => send s p 0 (BitVec.ofNat 256 f)) s

/-- Every lane of the port is ready (R116): TRAINING goes on with event 0x0C01, RECOVER to UP with a replay. -/
def portReady (s : State) (p : Nat) : State :=
  if !lanesReady s p || (port s p).idling then s
  else if portState s p = pTRAINING then
    let s1 := raise s 0x0C01 [(1, p)]
    if isTrunk s p then trunkUp s1 p else enumStart s1 p
  else if portState s p = pRECOVER then
    let s1 := setPortState s p pUP
    if isTrunk s p then resendTrunk s1 p else drainPort (replay s1 p) p
  else s

/-- The draining of a disabled port has ended: DISABLED, and 10 µs of IDLE before the lanes stop (R116, R125). One IDLE flit
in `wire` stands for the run of them. -/
def portDrained (s0 : State) (p : Nat) : State :=
  let s := sendPlain s0 p FT.idle 0 0 0
  let s1 := setFld (setFld s (F.WNG_Pp_CTRL_ENABLE p) 0) (F.WNG_Pp_STATUS_DRAINING p) 0
  setPortState (setPort s1 p { port s1 p with idling := true, enumTries := 0 }) p pDISABLED

/-- A port that is being disabled ends its draining once its journal is empty. -/
def portDrainCheck (s : State) (p : Nat) : State :=
  if flag s (F.WNG_Pp_STATUS_DRAINING p) && (port s p).journal.isEmpty then portDrained s p else s

/-! ### Trunks (R121 to R123) -/

/-- SRC, DST and TTL of a routed payload. -/
def rSrc (y : Nat) : Nat := bits y 0 12
def rDst (y : Nat) : Nat := bits y 12 12
def rTtl (y : Nat) : Nat := bits y 24 6

/-- This device's node ID. -/
def nodeId (s : State) : Nat := fld s F.WNG_NODE_CTRL_NODE_ID

/-- The route-table port of a node, where its entry is valid (R121). -/
def routePort (s : State) (node : Nat) : Option Nat :=
  if flag s (F.WNG_ROUTEn_VALID node) then some (fld s (F.WNG_ROUTEn_PORT node)) else none

/-- A routed flit leaves on a trunk hop under the hop's next SEQ and is kept for resending, 512 at most (R121). -/
def sendHop (s : State) (p type payload : Nat) : State :=
  let q := ((port s p).txSeq + 1) % 4096
  let f := mkFlit type q 0 0 0 payload
  let b := (port s p).txBuf ++ [f.toNat]
  send (setPort s p { port s p with txSeq := q, txBuf := b.drop (b.length - 512) }) p 0 f

/-- A routed flit that no trunk takes is dropped with event 0x0C07. -/
def routeDrop (s : State) (y : Nat) : State := raise s 0x0C07 [(2, rDst y)]

/-- A routed flit goes toward its node, or is dropped: true where it left (R121). -/
def route (s : State) (type y : Nat) : Bool × State :=
  match routePort s (rDst y) with
  | none => (false, routeDrop s y)
  | some p => if rTtl y = 0 || !upTrunk s p || portDisabled s p then (false, routeDrop s y) else (true, sendHop s p type y)

/-- A completion record (R65). -/
def mkRecord (tag st detail axis bucket : Nat) : Nat :=
  tag % 512 + st % 16 * 2 ^ 9 + detail % 8 * 2 ^ 13 + axis % 16 * 2 ^ 16 + bucket % 4096 * 2 ^ 20

/-- The record of an insertion: its tag and entry as presented. -/
def insRecord (tag st detail entry : Nat) : Nat := mkRecord tag st detail (eAxis entry) (eBucket entry)

/-- A record reaches WNG_RI_CQ for the oldest matching remote insert, or is discarded (R123). -/
def riRecord (s : State) (node rec_ : Nat) : State :=
  match s.node.remotes.find? (fun r => r.dst == node && r.tag == rec_ % 512) with
  | none => s
  | some r => { s with node := { s.node with remotes := s.node.remotes.erase r, riCq := s.node.riCq ++ [rec_] } }

/-- INSERT_DONE with a record toward a node, or straight into WNG_RI_CQ where the insert was this node's own. -/
def answerInsert (s : State) (node dst rec_ : Nat) : State :=
  if node = nodeId s then riRecord s dst rec_
  else (route s FT.insertDone (nodeId s + node * 2 ^ 12 + 63 * 2 ^ 24 + rec_ % 2 ^ 32 * 2 ^ 30)).2

/-- A REMOTE_INSERT goes toward its node; dropped, it is answered DECODE, DETAIL 111, or DISABLED where the port named is
disabled (R121). -/
def routeInsert (s : State) (y : Nat) : State :=
  let off := match routePort s (rDst y) with | some p => portDisabled s p | none => false
  match route s FT.remoteInsert y with
  | (true, s1) => s1
  | (false, s1) =>
    let e := bits y 39 128
    answerInsert s1 (rSrc y) (rDst y) (if off then insRecord (bits y 30 9) ST.disabled 0 e else insRecord (bits y 30 9) ST.decode 7 e)

/-- A routed flit on a trunk hop is taken in order; out of order it is discarded, and the first gap is answered with a
NAK carrying the last good SEQ (R121). The first flit of a link sets the count, unless a flit before it has failed: then the
flit that the sender numbers first, SEQ 1, is waited for. That only routed flits are numbered and kept, and that both ends
start at 0 as a link comes up, is the model's reading (DEDUCED, log entry 134). -/
def hopTakes (s : State) (p f : Nat) : Bool :=
  (!(port s p).rxSync && !(port s p).rxHold) || fSeq f == ((port s p).rxSeq + 1) % 4096

/-- A NAK of a trunk receiver. -/
def trunkNak (s : State) (p : Nat) : State :=
  let x := port s p
  if x.rxHold then s
  else sendPlain (setPort s p { x with rxHold := true }) p FT.nak 0 0 (x.rxSeq * 2 ^ 8)

/-- The hop's part of receiving a routed flit, and what follows where it is taken. -/
def hopReceive (s : State) (p f : Nat) (k : State → State) : State :=
  if hopTakes s p f then k (setPort s p { port s p with rxSeq := fSeq f, rxSync := true, rxHold := false })
  else trunkNak s p

/-- A payload forwarded: TTL one less. -/
def lessTtl (y : Nat) : Nat := if rTtl y = 0 then y else y - 2 ^ 24

end Sys2Proof.Machine
end

