-- ==== Sys2Proof/Machine/Angle.lean ====
section
/-! DEFINITION. The commands of angle and ring time (chapter 02). -/
namespace Sys2Proof.Machine

/-- An illegal transition takes the axes in TRACK on the encoder to LOST (R30, R36). -/
def encIllegal (s : State) (k : Nat) : State :=
  forEach ((axesOf s k).filter fun n => axState s n == aTRACK) toLost s

/-- A quadrature edge of encoder k: the count moves by one, DIR reversing it, and every axis on it takes a sample. With
ZREQ = 0 the first count completes ACQUIRE (R30, R36). -/
def encEdge (s : State) (k : Nat) (up : Bool) : State :=
  let d : Int := if up != flag s (F.ANG_ENCk_CFG_DIR k) then 1 else -1
  let c := (enc s k).count + d
  let s1 := setEnc s k { enc s k with count := c }
  forEach (axesOf s k) (fun s n => encSample s n (angleOfCount s n k c) (!flag s (F.ANG_ENCk_CFG_ZREQ k))) s1

/-- The encoder interface k has its pins (R509) and is in the mode `m`: 0 quadrature, 1 SSI. -/
def encLive (s : State) (k m : Nat) : Bool := sysClocks s && bitOf (fld s F.IOB_ENC_EN) k && fld s (F.ANG_ENCk_CFG_MODE k) == m

def execEncCount (k : Fin 4) (up illegal : Bool) (s : State) : Host.Outcome State Fault Refusal :=
  done (if encLive s k 0 then (if illegal then encIllegal s k else encEdge s k up) else s)

/-- How far a count lies from the nearest multiple of CPR. -/
def offGrid (c : Int) (cpr : Nat) : Nat := min (c % (cpr : Int)).toNat (cpr - (c % (cpr : Int)).toNat)

/-- A rising Z edge with ZREQ: a count more than 4 from a multiple of CPR is a slip of every axis on the encoder that is
not in OFF; the count is set to 0 and the axes take the sample (R30, R32). -/
def zEdge (s : State) (k : Nat) : State :=
  let bad := decide (4 < offGrid (enc s k).count (fld s (F.ANG_ENCk_CPR_CPR k)))
  let s1 := if bad then forEach ((axesOf s k).filter fun n => axState s n != aOFF) slip s else s
  let s2 := setEnc s1 k { enc s1 k with count := 0 }
  forEach (axesOf s k) (fun s n => encSample s n (angleOfCount s n k 0) true) s2

def execEncZEdge (k : Fin 4) (s : State) : Host.Outcome State Fault Refusal :=
  done (if encLive s k 0 && flag s (F.ANG_ENCk_CFG_ZREQ k) then zEdge s k else s)

/-- Gray code of `n + 1` bits to binary. -/
def fromGray : Nat → Nat → Nat
  | 0, x => x
  | n + 1, x => x ^^^ fromGray n (x / 2)

/-- An SSI position scaled to 24 bits (R31). -/
def ssiScale (b x : Nat) : Nat := if b ≤ 24 then x * 2 ^ (24 - b) else x / 2 ^ (b - 24)

/-- A valid SSI frame: position, Gray conversion, scaling, offset (R31). -/
def ssiValid (s : State) (k word : Nat) : State :=
  let b := fld s (F.ANG_ENCk_CFG_SSI_BITS k)
  let x := word % 2 ^ b
  let y := if flag s (F.ANG_ENCk_CFG_SSI_GRAY k) then fromGray b x else x
  let s1 := setEnc s k { enc s k with bad := 0 }
  forEach (axesOf s k) (fun s n => encSample s n ((ssiScale b y + fld s (F.ANG_AXn_ZERO_OFFSET n)) % 2 ^ 24) true) s1

/-- An invalid SSI frame; the third in a row takes the axes to LOST (R31). -/
def ssiInvalid (s : State) (k : Nat) : State :=
  let s1 := setEnc s k { enc s k with bad := (enc s k).bad + 1 }
  if (enc s k).bad + 1 < 3 then s1 else encIllegal s1 k

def execSsiFrame (k : Fin 4) (word : Word) (startHigh endLow : Bool) (s : State) : Host.Outcome State Fault Refusal :=
  done (if encLive s k 1 then (if startHigh && endLow then ssiValid s k word.toNat else ssiInvalid s k) else s)

/-- A sample that carries its own velocity, on an axis whose source is a beacon or virtual (R33, R36). Beacons are
consecutive here whatever time lies between them: only a new ACQUIRE starts their count anew (DESIGN CHOICE, log entry
121). -/
def carriedSample (s : State) (n th tm v need : Nat) : State :=
  let a := axis s n
  if axState s n = aACQUIRE then
    if need ≤ a.beacons + 1 then enterTrack s n th tm (some v) else setAxis s n { a with beacons := a.beacons + 1 }
  else if axState s n = aTRACK then sampleRetime s n th tm (some v)
  else s

/-- The write of the upper word of ANG_AXn_VIRT commits the sample at the ring time of the write (R33, R38). -/
def virtCommit (s : State) (n upper : Nat) : State :=
  if angOn s then
    let st := fld s (F.ANG_AXn_VIRT_STAMP n) % 2 ^ 32 + upper % 2 ^ 16 * 2 ^ 32
    let s1 := setFld s (F.ANG_AXn_VIRT_STAMP n) st
    if axSrc s n = 5 then carriedSample s1 n st (now s) (fld s (F.ANG_AXn_VIRT_VEL_VEL n)) 1 else s1
  else s

def execVirtCommit (_m : Master) (n : Fin 16) (upper : Word) (s : State) : Host.Outcome State Fault Refusal :=
  done (virtCommit s n upper.toNat)

/-- The axes that follow the beacons of an axis of a node. -/
def beaconAxes (s : State) (node ax : Nat) : List Nat := allAxes.filter fun n =>
  axSrc s n == 4 && fld s (F.ANG_AXn_CFG_BEACON_NODE n) == node && fld s (F.ANG_AXn_CFG_BEACON_AXIS n) == ax

/-- A BEACON received on a trunk: a sample for each axis that follows it, and forwarded on the other trunk ports when it
arrived on the port the route table names for its sender (R122). -/
def beaconRx (s : State) (p : Nat) (f : Flit) : State :=
  let y := fPayload f.toNat
  let src := bits y 0 12
  let s1 := forEach (beaconAxes s src (bits y 12 4))
    (fun s n => carriedSample s n (bits y 16 48) (bits y 96 64) (bits y 64 32) 3) s
  if routePort s src = some p then
    forEach (allPorts.filter fun q => q != p && upTrunk s q) (fun s q => send s q 0 f) s1
  else s1

def execBeacon (p : Fin 4) (f : Flit) (s : State) : Host.Outcome State Fault Refusal :=
  done (if upTrunk s p && arrived s 0 f.toNat FT.beacon then beaconRx s p f else s)

/-- No beacon or virtual sample within TIMEOUT: an axis in TRACK goes to LOST. TIMEOUT 0 and encoder sources have no
time-out (R36). -/
def execAxisTimeout (n : Fin 16) (s : State) : Host.Outcome State Fault Refusal :=
  done (if axState s n = aTRACK ∧ (axSrc s n = 4 ∨ axSrc s n = 5) ∧ fld s (F.ANG_AXn_TIMEOUT_TIMEOUT n) ≠ 0 then toLost s n else s)

/-- The axis state after its enables and source are as the registers now say; `chg` tells whether source or beacon
fields changed (R29, R36). -/
def axisEnables (s : State) (n : Nat) (chg : Bool) : State :=
  if !flag s (F.ANG_AXn_CFG_ENABLE n) || !angOn s || decide (6 ≤ axSrc s n) then setFld s (F.ANG_AXn_STATUS_STATE n) aOFF
  else if axState s n = aOFF ∨ chg then toAcquire s n
  else s

/-- A write of ANG_AXn_CFG (R36). -/
def axisCfgWrite (s : State) (n w : Nat) : State :=
  let chg := !(bits w 1 3 == axSrc s n && bits w 4 12 == fld s (F.ANG_AXn_CFG_BEACON_NODE n)
    && bits w 16 4 == fld s (F.ANG_AXn_CFG_BEACON_AXIS n))
  let s1 := setFld (setFld s (F.ANG_AXn_CFG_ENABLE n) (bits w 0 1)) (F.ANG_AXn_CFG_SRC n) (bits w 1 3)
  let s2 := setFld (setFld s1 (F.ANG_AXn_CFG_BEACON_NODE n) (bits w 4 12)) (F.ANG_AXn_CFG_BEACON_AXIS n) (bits w 16 4)
  axisEnables s2 n chg

def execAxisCfgWrite (n : Fin 16) (value : Word) (s : State) : Host.Outcome State Fault Refusal :=
  done (axisCfgWrite s n value.toNat)

/-- Setting ANG_CTRL.ENABLE: every enabled axis starts to acquire (R36). -/
def angEnable (s : State) : State :=
  if angOn s then s else forEach allAxes (fun s n => axisEnables s n false) (setFld s F.ANG_CTRL_ENABLE 1)

/-- Clearing ANG_CTRL.ENABLE sets every axis to OFF; a committed virtual sample has been applied (R38). -/
def angDisable (s : State) : State :=
  forEach allAxes (fun s n => setFld s (F.ANG_AXn_STATUS_STATE n) aOFF) (setFld s F.ANG_CTRL_ENABLE 0)

def execAngDisable (s : State) : Host.Outcome State Fault Refusal := done (angDisable s)

/-- The STOPPED row that matches a role (R39, R41). -/
def startRole (s : State) (role : Nat) : State :=
  if role = 1 then
    setFld (setRt (setFld (setFld s F.ANG_STATUS_HOPS 0) F.ANG_RT_TIME (fld s F.ANG_RT_SET_START)) rFREE) F.ANG_STATUS_RT_VALID 1
  else if role = 2 then setRt s rACQ_FREQ
  else s

/-- A write of ANG_RTM_ROLE. A role of 11 has no effect, the same role none on ring time; LOCK holds both fields (R8,
R39, R41). -/
def roleWrite (s : State) (w : Nat) : State :=
  if flag s F.ANG_CTRL_LOCK then s
  else
    let s1 := setFld s F.ANG_RTM_ROLE_RCLK_LANE (bits w 4 3)
    let r := bits w 0 2
    if r = 3 ∨ r = fld s F.ANG_RTM_ROLE_ROLE then s1
    else
      let s2 := setRt (if rtValid s1 then loseRt s1 else s1) rSTOPPED
      startRole (showRef (setFld s2 F.ANG_RTM_ROLE_ROLE r)) r

def execRoleWrite (value : Word) (s : State) : Host.Outcome State Fault Refusal := done (roleWrite s value.toNat)

/-- A module's share of a RING_TIME flit: its ring time is slewed toward TIME + CORRECTION by at most 8 ns, and the flit
goes on with its upstream hop delay and its own residence time, which is free up to 400 ns (R99, R120). -/
def moduleRingTime (s : State) (p pos f late : Nat) : State :=
  let k := p * 256 + pos
  let m : Module := smGet s.modules k {}
  let corr := bits (fPayload f) 64 48 + m.hopUp
  let e := (bits (fPayload f) 0 64 : Int) * 65536 + corr - (((now s : Int) + m.rtOff) * 65536 + late)
  let s1 := { drawn s with modules := smSet s.modules k { m with rtOff := m.rtOff + clampInt (-8) 8 (roundDiv e 65536) } {} }
  let y := putBits (fPayload f) 64 48 (corr + freeOf s % (400 * 65536 + 1))
  if m.isEnd then s1 else send s1 p pos (mkFlit FT.ringTime (fSeq f) (fAddr f) 0 0 y)

/-- The trunk port of a follower that faces the master (R40). -/
def masterPort (s : State) (p : Nat) : Bool :=
  fld s F.ANG_RTM_ROLE_ROLE == 2 && fld s F.ANG_RTM_ROLE_RCLK_LANE / 2 == p && isTrunk s p

/-- A RING_TIME flit at the device: only a follower takes it, only on the port of RCLK_LANE; HOPS is the count it carries,
and the follower passes ring time on to its other trunk ports with HOPS + 1 (R40, R41). -/
def deviceRingTime (s : State) (p f late : Nat) : State :=
  if masterPort s p then
    let s1 := setFld (followFlit s (rtError s p f late) p f) F.ANG_STATUS_HOPS (bits (fPayload f) 112 8)
    sendWhere s1 (fun s q => q != p && upTrunk s q && rtValid s) FT.ringTime 0 (ringTimePayload s1)
  else s

/-- `late` is how long after the slot's start the flit's first bit came, in 2^−16 ns. -/
def execRingTime (p : Fin 4) (pos : Fin 256) (f : Flit) (late : BitVec 18) (s : State) : Host.Outcome State Fault Refusal :=
  done (if arrived s pos f.toNat FT.ringTime then
    (if pos.val = 0 then deviceRingTime s p f.toNat late.toNat else moduleRingTime s p pos f.toNat late.toNat) else s)

/-- The RCLK PLL locks; RCLK is there only while its lane is in LINKUP (R129). -/
def execRclkPllLock (s : State) : Host.Outcome State Fault Refusal :=
  done (if rtState s = rACQ_FREQ ∧ laneState s (fld s F.ANG_RTM_ROLE_RCLK_LANE) = lnLINKUP then toPhase s else s)

/-- LOCKED goes to HOLDOVER with event 0x0A11 (R41). -/
def execSyncTimeout (s : State) : Host.Outcome State Fault Refusal :=
  done (if rtState s = rLOCKED then enterHoldover s else s)

def execHoldoverExpire (s : State) : Host.Outcome State Fault Refusal :=
  done (if rtState s = rHOLDOVER then setRt (loseRt s) rACQ_FREQ else s)

/-- The ports on which the device sends ring time: while it is valid all of them, and a follower always the one that faces
the master, so that its hop is exchanged in both directions (R40). That no flit with a time that is not valid goes down a
hop or a ring is the model's reading (DEDUCED, log entry 122). -/
def rtPort (s : State) (p : Nat) : Bool := upTrunk s p && (rtValid s || masterPort s p)

/-- Ring time on every trunk hop and ring port (R40, R120). -/
def execRingTimeSend (s : State) : Host.Outcome State Fault Refusal :=
  done (sendWhere (sendWhere s rtPort FT.ringTime 0 (ringTimePayload s)) (fun s p => liveRing s p && rtValid s) FT.ringTime 255
    (ringTimePayload s))

/-- A capture starts unless one runs; with PTM Enable 0 it does not start (R45, R382). -/
def ptmCapture (s : State) : State :=
  if flag s F.ANG_PTM_CTRL_CAPTURE || !s.pci.ptmEnable then s else setFld s F.ANG_PTM_CTRL_CAPTURE 1

def execPtmCapture (s : State) : Host.Outcome State Fault Refusal := done (ptmCapture s)

def execPtmExchangeDone (hostTime : BitVec 64) (s : State) : Host.Outcome State Fault Refusal :=
  done (if flag s F.ANG_PTM_CTRL_CAPTURE then
    setFld (setFld (setFld (setFld s F.ANG_PTM_HOST_HOST_TIME hostTime.toNat) F.ANG_PTM_RT_RING_TIME (now s))
      F.ANG_PTM_CTRL_CAPTURE 0) F.ANG_PTM_CTRL_DONE 1 else s)

/-- The payload of a beacon of axis n (R122). -/
def beaconPayload (s : State) (n : Nat) : Nat :=
  fld s F.WNG_NODE_CTRL_NODE_ID + n * 2 ^ 12 + fld s (F.ANG_AXn_STAMP_STAMP n) * 2 ^ 16 + vel s n * 2 ^ 64 + now s * 2 ^ 96

def execBeaconSend (s : State) : Host.Outcome State Fault Refusal :=
  done (forEach (allAxes.filter fun n => bitOf (fld s F.WNG_BEACON_EN_AXES) n)
    (fun s n => sendWhere s upTrunk FT.beacon 0 (beaconPayload s n)) s)

end Sys2Proof.Machine
end

