-- ==== Sys2Proof/Machine/LaneLine.lean ====
section
/-! DEFINITION. What a lane puts out on its line (R103, R127 to R137, R142 to R146): the control and status words of its
training frames, scrambled and Gray-mapped flits with their check bytes and markers, precoding, test patterns, the wake tone
and the transmit equaliser. The line is a function of the state: of the flits sent since link-up (`wire`), the lane's registers
and the free values that the lane drew. -/
namespace Sys2Proof.Machine

/-! ### Line coding -/

/-- The level index of a pair of bits, bit 2i and bit 2i + 1 (R127). -/
def grayLevel (b0 b1 : Nat) : Nat := if b1 = 0 then b0 else 3 - b0

/-- The level of an index, −3 to +3 (R127). -/
def levelOf (g : Nat) : Int := 2 * (g : Int) - 3

/-- The pair of bits of a level index, bit 2i first (R127). -/
def grayPair (g : Nat) : List Nat := if g < 2 then [g, 0] else [3 - g, 1]

/-- The transmitted level index with precoding on, after the previous one (R128). -/
def precode (g prev : Nat) : Nat := (g + 4 - prev % 4) % 4

/-- The recovered level index (R128). -/
def unprecode (p prev : Nat) : Nat := (p + prev) % 4

/-- Level indices precoded, the first after P(−1) = `prev`. -/
def precodeAll : Nat → List Nat → List Nat
  | _, [] => []
  | prev, g :: t => precode g prev :: precodeAll (precode g prev) t

/-- Received level indices decoded, the first after P(−1) = `prev`. -/
def unprecodeAll : Nat → List Nat → List Nat
  | _, [] => []
  | prev, p :: t => unprecode p prev :: unprecodeAll p t

/-- The level indices of a run of bits, two bits each. -/
def grayAll : List Nat → List Nat
  | b0 :: b1 :: t => grayLevel b0 b1 :: grayAll t
  | _ => []

/-- The `n` low bits of a number, bit 0 first. -/
def bitsUp : Nat → Nat → List Nat
  | 0, _ => []
  | n + 1, x => x % 2 :: bitsUp n (x / 2)

/-- One step of the scrambler: the bit of the sequence and the next state (R130). -/
def scramblerStep (st : Nat) : Nat × Nat :=
  let b := (bits st 57 1 + bits st 38 1) % 2
  (b, (st * 2 + b) % 2 ^ 58)

/-- Bits scrambled, or descrambled, from a state, and the state after them (R130). -/
def scrambleBits : Nat → List Nat → List Nat × Nat
  | st, [] => ([], st)
  | st, b :: t =>
    let q := scramblerStep st
    let r := scrambleBits q.2 t
    ((b + q.1) % 2 :: r.1, r.2)

/-- One step of a generator whose bit is the sum of the state's bits at `tps`, of `w` state bits with the most recent at
bit 0. -/
def prbsStep (w : Nat) (tps : List Nat) (st : Nat) : Nat × Nat :=
  let b := (tps.map fun k => bits st (k - 1) 1).sum % 2
  (b, (st * 2 + b) % 2 ^ w)

/-- The state of a generator after `n` steps. -/
def prbsState (w : Nat) (tps : List Nat) : Nat → Nat → Nat
  | 0, st => st
  | n + 1, st => prbsState w tps n (prbsStep w tps st).2

/-- The bit `n` of a generator's sequence. -/
def prbsBit (w : Nat) (tps : List Nat) (st n : Nat) : Nat := (prbsStep w tps (prbsState w tps n st)).1

/-- The level index `j` of a sequence of bits mapped under R127. -/
def prbsLevel (w : Nat) (tps : List Nat) (st j : Nat) : Nat := grayLevel (prbsBit w tps st (2 * j)) (prbsBit w tps st (2 * j + 1))

/-- A start of a generator of `w` bits, never zero. -/
def nonZero (w v : Nat) : Nat := if v % 2 ^ w = 0 then 1 else v % 2 ^ w

/-! ### Training frames (R133 to R136) -/

/-- CRC-16 of polynomial 0x1021 over one byte, most significant bit first. -/
def crc16Bits : Nat → Nat → Nat
  | 0, c => c
  | n + 1, c => crc16Bits n (if bitOf c 15 then (c * 2 % 65536) ^^^ 0x1021 else c * 2 % 65536)

/-- CRC-16 over `n` bytes of `x` in ascending order, from the register value `c`. -/
def crc16From : Nat → Nat → Nat → Nat
  | 0, c, _ => c
  | n + 1, c, x => crc16From n (crc16Bits 8 (c ^^^ (x % 256 * 256))) (x / 256)

/-- A word with its check: CRC-16 over its low six bytes (R134). -/
def withCheck (w : Nat) : Nat := w % 2 ^ 48 + crc16From 6 0xFFFF w * 2 ^ 48

/-- The check of a control or status word. -/
def wordOk (w : Nat) : Bool := bits w 48 16 == crc16From 6 0xFFFF w

/-- The control word that lane n sends: its receiver's requests, READY from READY_WAIT on, and the settings; the device leads
its ring ports (R133, R135). -/
def ownControl (s : State) (n : Nat) : Nat :=
  withCheck (bits (lane s n).req 0 7 + b2n (decide (lnREADY_WAIT ≤ laneState s n)) * 2 ^ 7
    + fld s (F.WLN_LANEn_CFG_RATE n) * 2 ^ 8 + fld s (F.WLN_LANEn_CFG_FEC n) * 2 ^ 10
    + fld s (F.WLN_LANEn_CFG_PRECODE_REQ n) * 2 ^ 11 + fld s (F.WLN_LANEn_CTRL_LOOPBACK_REQ n) * 2 ^ 12
    + fld s (F.WNG_Pp_CTRL_LANES (n / 2)) * 2 ^ 13 + b2n (!isTrunk s (n / 2)) * 2 ^ 14)

/-- The status word that lane n sends: its transmitter's replies, its taps and whether precoding starts at the first marker
(R136). -/
def ownStatus (s : State) (n : Nat) : Nat :=
  withCheck (bits (lane s n).sts 0 6 + taps s n * 2 ^ 6 + b2n (lane s n).farPre * 2 ^ 18)

/-- PRBS13 (R134). -/
def prbs13 : List Nat := [13, 12, 2, 1]

/-- Symbol `j` of the training frames that lane n sends, counted over frames of 1,024: +3, −3, the words, and the fill, which
runs on from frame to frame (R134). -/
def trainingSymbol (s : State) (n j : Nat) : Nat :=
  let i := j % 1024
  if i < 16 then 3
  else if i < 32 then 0
  else if i < 96 then 3 * bits (ownControl s n) (i - 32) 1
  else if i < 160 then 3 * bits (ownStatus s n) (i - 96) 1
  else prbsLevel 13 prbs13 (nonZero 13 (Config.prbsStart n 2 (lane s n).draw)) (j / 1024 * 864 + (i - 160))

/-! ### Mission traffic (R99, R103, R130 to R132) -/

/-- An IDLE flit that carries the sequence number of the item sent last. -/
def idleFlit (seq : Nat) : Nat := (mkFlit FT.idle seq 0 0 0 0).toNat

/-- The flits of a port with the IDLE flits between them: before the flit at index k of `wire` a free number of them, and at
least one after seven others on a ring port, so that one flit in every 8 is IDLE (R99). The list gives each flit with its
index; `run` counts the others since the last IDLE, `seq` is the item sequence sent last. -/
def withIdles (ring : Bool) : List (Nat × Nat) → Nat → Nat → List Nat
  | [], _, _ => []
  | (k, f) :: t, run, seq =>
    let free := Config.idleRun k
    let m := if ring ∧ 7 ≤ run ∧ free = 0 ∧ fType f ≠ FT.idle then 1 else free
    let run' := if fType f = FT.idle then 0 else if m = 0 then run + 1 else 1
    List.replicate m (idleFlit seq) ++ f :: withIdles ring t run' (fSeq f)

/-- The flits of the device on a port from index `k` of `wire` on, oldest first, each with its index. -/
def portFlits (s : State) (p k : Nat) : List (Nat × Nat) :=
  ((s.wire.reverse.zipIdx.drop k).filter fun x => x.1.port == p && x.1.pos == 0).map fun x => (x.2, x.1.flit.toNat)

/-- The item sequence that the port sent last before index `k` of `wire`. -/
def seqBefore (s : State) (p k : Nat) : Nat :=
  (((s.wire.reverse.take k).filter fun x => x.port == p && x.pos == 0).getLast?.map fun x => fSeq x.flit.toNat).getD 0

/-- The flits that go over a port's lanes since the last of them came up. -/
def lineFlits (s : State) (p : Nat) : List Nat :=
  let k := (portLanes s p).foldl (fun m n => max m (lane s n).since) 0
  withIdles (!isTrunk s p) (portFlits s p k) 0 (seqBefore s p k)

/-- The whole groups of four. -/
def fours : List Nat → List (List Nat)
  | a :: b :: c :: d :: t => [a, b, c, d] :: fours t
  | _ => []

/-- The bits of a codeword: four flits and the 8 check bytes after them (R103). -/
def codewordBits (fs : List Nat) : List Nat :=
  let msg := fs.flatMap (RS.symbols 32)
  (RS.encode 8 msg).flatMap (bitsUp 8)

/-- What the lanes of a port carry, in order: codewords, or flits with FEC off. -/
def lineUnits (s : State) (p : Nat) (fec : Bool) : List (List Nat) :=
  if fec then (fours (lineFlits s p)).map codewordBits else (lineFlits s p).map (bitsUp 256)

/-- The units of lane n: all of them, or on a two-lane link every other, the lower lane first. A lane has 4,096 flits
between markers, so that the alternation starts on the lower lane after each pair of markers of itself (R103, R132). -/
def laneUnits (s : State) (n : Nat) : List (List Nat) :=
  let u := lineUnits s (n / 2) (flag s (F.WLN_LANEn_STATUS_FEC_ON n))
  if flag s (F.WNG_Pp_CTRL_LANES (n / 2)) then (u.zipIdx.filter fun x => x.2 % 2 == n % 2).map (·.1) else u

/-- The alignment marker of lane n: its number since link-up and the scrambler state after it (R131). -/
def markerOf (s : State) (n k st : Nat) : Nat :=
  let b := 0x7A5C3E91C4B21F68 + st * 2 ^ 64 + n % 2 * 2 ^ 122 + fld s (F.WLN_LANEn_STATUS_FEC_ON n) * 2 ^ 123
    + b2n (lane s n).txPre * 2 ^ 124 + k % 65536 * 2 ^ 128
  b + crc32c 28 b * 2 ^ 224

/-- Marker `k` and the units after it, up to the next marker: markers are neither scrambled nor precoded, and precoding
starts anew after each (R128, R130). `per` units make 4,096 flits. -/
def lineSections (s : State) (n per : Nat) : Nat → Nat → Nat → List (List Nat) → List Nat
  | 0, _, _, _ => []
  | fuel + 1, k, st, us =>
    let q := scrambleBits st (us.take per).flatten
    let g := grayAll q.1
    grayAll (bitsUp 256 (markerOf s n k st)) ++ (if (lane s n).txPre then precodeAll 0 g else g)
      ++ (if per ≤ us.length then lineSections s n per fuel (k + 1) q.2 (us.drop per) else [])

/-- The symbols of the markers and the traffic that lane n has sent since it came up. -/
def trafficLine (s : State) (n : Nat) : List Nat :=
  let us := laneUnits s n
  let per := if flag s (F.WLN_LANEn_STATUS_FEC_ON n) then 1024 else 4096
  lineSections s n per (us.length + 1) 0 (lane s n).seed us

/-- The symbols of the training frames that a lane still sends in LINKUP, before its first marker: 8 frames (R131, R139). -/
def lastFrames : Nat := 8 * 1024

/-- Symbol `j` that lane n has sent since it came up: 8 more training frames, then markers and traffic. -/
def linkSymbol (s : State) (n j : Nat) : Option Nat :=
  if j < lastFrames then some (trainingSymbol s n j) else (trafficLine s n)[j - lastFrames]?

/-! ### Test patterns, loopback and the wake tone (R142, R143, R145) -/

/-- A pattern number that is OFF: 000, or 110 and 111 (R143). -/
def patternOff (v : Nat) : Bool := v == 0 || decide (6 ≤ v)

/-- Symbol `j` of a test pattern of lane n (R143). -/
def patternSymbol (s : State) (n v j : Nat) : Nat :=
  let st := fun w => nonZero w (Config.prbsStart n v (lane s n).draw)
  if v = 1 then prbsLevel 7 [7, 6] (st 7) j
  else if v = 2 then prbsLevel 13 prbs13 (st 13) j
  else if v = 3 then prbsLevel 31 [31, 28] (st 31) j
  else if v = 4 then (if j / (fld s (F.WLN_LANEn_TEST_SQ_HALF n) + 1) % 2 = 0 then 3 else 0)
  else
    let u := fld s (F.WLN_LANEn_USER_PATTERN n)
    grayLevel (bits u (2 * (j % 32)) 1) (bits u (2 * (j % 32) + 1) 1)

/-- The lane sends a pattern in place of traffic. -/
def patternOn (s : State) (n : Nat) : Bool := laneState s n == lnLINKUP && !patternOff (fld s (F.WLN_LANEn_TEST_GEN n))

/-- The level index after the injections of the lane (R146). -/
def injected (s : State) (n j g : Nat) : Nat :=
  if ((lane s n).inj.filter fun x => decide (x.1 ≤ j ∧ j < x.1 + x.2)).length % 2 = 1 then g ^^^ 1 else g

/-- The level index that lane n holds for symbol `j`, counted since it entered its state; none while its transmitter is
idle or has not come so far. `rx` gives the level indices that it receives, which a lane in LOOPBACK returns. While the lane is
OFF and sends the wake tone, `j` counts the 32 ns of each level (R142). -/
def laneOut (s : State) (n : Nat) (rx : Nat → Nat) (j : Nat) : Option Nat :=
  let st := laneState s n
  if st = lnOFF then (if flag s (F.WLN_LANEn_CTRL_WAKE_TX n) then some (if j % 2 = 0 then 3 else 0) else none)
  else if st = lnLOOPBACK then some (injected s n j (rx j))
  else if st = lnLINKUP then
    (if patternOn s n then some (injected s n j (patternSymbol s n (fld s (F.WLN_LANEn_TEST_GEN n)) j))
     else (linkSymbol s n j).map (injected s n j))
  else some (trainingSymbol s n j)

/-- The place of the next symbol to send: after what has been sent, or a free place in a pattern or in what is returned. -/
def nextSymbol (s : State) (n : Nat) : Nat :=
  if patternOn s n || laneState s n == lnLOOPBACK then freeOf s else lastFrames + (trafficLine s n).length

/-! ### The transmit equaliser (R137) -/

/-- The coefficients c(−1), c(0) and c(+1) of lane n, in units of 0.025 of the full swing. -/
def ffe (s : State) (n : Nat) : Int × Int × Int :=
  (-(fld s (F.WLN_LANEn_STATUS_PRE n) : Int), 25 + (fld s (F.WLN_LANEn_STATUS_MAIN n) : Int), -(fld s (F.WLN_LANEn_STATUS_POST n) : Int))

/-- The driven level at symbol `j`, in units of 1/120 of the full swing: the levels after, at and before it, weighted. -/
def drivenLevel (s : State) (n : Nat) (line : Nat → Nat) (j : Nat) : Int :=
  let c := ffe s n
  c.1 * levelOf (line (j + 1)) + c.2.1 * levelOf (line j) + c.2.2 * (if j = 0 then 0 else levelOf (line (j - 1)))

/-- The preset taps of a module's transmitter: PRE 0, MAIN 15, POST 0. -/
def modulePreset : Nat := 0 + 15 * 2 ^ 4 + 0 * 2 ^ 8

end Sys2Proof.Machine
end

