-- ==== Sys2Proof/Machine/RegFile.lean ====
section
/-! DEFINITION. The register file as words: which fields a 4-byte word holds, and the generic read and write of R8 to R12
and R530 to R533. -/
namespace Sys2Proof.Machine

/-- The instance of a row's field that has bits in the word at offset `off`. -/
def rowHit (r : RegRow) (off : Nat) : Option Fld :=
  let top := 8 * off + 31
  if top < r.f.key then none
  else
    let i := if r.n1 ≤ 1 then 0 else min ((top - r.f.key) / (8 * r.s1)) (r.n1 - 1)
    let k1 := r.f.key + 8 * (i * r.s1)
    let j := if r.n2 ≤ 1 then 0 else min ((top - k1) / (8 * r.s2)) (r.n2 - 1)
    let f : Fld := { r.f with key := k1 + 8 * (j * r.s2) }
    if 8 * off < f.key + f.width then some f else none

/-- The rows of the block whose code an offset carries. -/
def rowsAt (off : Nat) : List RegRow := blockRows (off / 0x10000)

/-- The bits of a field's value that stand in the word. -/
def inWord (f : Fld) (off v : Nat) : Nat :=
  (if f.key ≤ 8 * off then v >>> (8 * off - f.key) else v <<< (f.key - 8 * off)) % 2 ^ 32

/-- What a written word brings to a field, at the places of the field's own bits. -/
def inField (f : Fld) (off w : Nat) : Nat :=
  (if f.key ≤ 8 * off then (w % 2 ^ 32) <<< (8 * off - f.key) else (w % 2 ^ 32) >>> (f.key - 8 * off)) % 2 ^ f.width

/-- A field's value with the bits that stand in the word replaced. -/
def fieldNew (f : Fld) (off w old : Nat) : Nat := old - inField f off (inWord f off old) + inField f off w

/-- The LOCK bit over a register (R531); none in GLB. -/
def lockOf (off : Nat) : Option Fld :=
  match off / 0x10000 with
  | 0 => none
  | 0x0C => some (F.WNG_Pp_CTRL_LOCK (off % 0x10000 / 0x4000))
  | 0x0E => some (F.WLN_LANEn_CFG_LOCK (off % 0x10000 / 0x1000))
  | 0x18 => some (F.ENG_n_CTRL_LOCK ((off - 0x180000) / 0x400))
  | 0x19 => some (F.ENG_n_CTRL_LOCK ((off - 0x180000) / 0x400))
  | b => some ⟨8 * (b * 0x10000) + 31, 1, 0⟩

/-- The LOCK over a register reads 1. -/
def lockedAt (s : State) (off : Nat) : Bool := match lockOf off with | none => false | some f => flag s f

/-- A field set where the value lies in its range, clamped where the field clamps (R11). -/
def setRanged (s : State) (f : Fld) (r : Rng) (v : Nat) : State :=
  match r with
  | .any => setFld s f v
  | .within lo hi => if lo ≤ v ∧ v ≤ hi then setFld s f v else s
  | .clamp lo hi => setFld s f (max lo (min v hi))

/-- What a written word does to one row's field by its access type (R8). -/
def writeRow (locked : Bool) (off w : Nat) (s : State) (r : RegRow) : State :=
  match rowHit r off with
  | none => s
  | some f =>
    if r.own then s
    else match r.acc with
      | .rw => setRanged s f r.rng (fieldNew f off w (fld s f))
      | .rwl => if locked then s else setRanged s f r.rng (fieldNew f off w (fld s f))
      | .w1c => setFld s f (fld s f - (fld s f &&& inField f off w))
      | .w1s => setFld s f (fld s f ||| inField f off w)
      | .ro | .wo | .rc => s

/-- The generic part of a register write. LOCK counts as it stood before the write (R531). -/
def plainWrite (s : State) (off w : Nat) : State := forEach (rowsAt off) (writeRow (lockedAt s off) off w) s

/-- What one row's field adds to a word read: WO reads 0. -/
def readRow (v : Fld → Nat) (off : Nat) (r : RegRow) : Nat :=
  match rowHit r off with
  | none => 0
  | some f => if r.acc = .wo then 0 else inWord f off (v f)

/-- The word at an offset, given what each field reads. -/
def readWord (v : Fld → Nat) (off : Nat) : Nat := ((rowsAt off).map (readRow v off)).sum

/-- A read clears the RC fields of its word that have no removal rule of their own. -/
def clearRow (off : Nat) (s : State) (r : RegRow) : State :=
  match rowHit r off with
  | none => s
  | some f => if r.acc = .rc ∧ r.own = false then setFld s f 0 else s

/-- The RC fields of a word cleared (R8). -/
def clearWord (s : State) (off : Nat) : State := forEach (rowsAt off) (clearRow off) s

/-- A lower-word read latches the upper word at `off` (R533). -/
def latchUpper (s : State) (off v : Nat) : State := { s with latch := smSet s.latch off (v % 2 ^ 32 + 1) 0 }

/-- What an upper word reads: the value latched, or the value `v` where nothing has latched one. -/
def latched (s : State) (off v : Nat) : Nat := match smGet s.latch off 0 with | 0 => v | x + 1 => x

end Sys2Proof.Machine
end

