-- ==== Sys2Proof/Machine/Timetable.lean ====
section
/-! DEFINITION. The Timetable (chapter 03): insertion, decision, records, flush, enable and disable. -/
namespace Sys2Proof.Machine

/-! ### Regions, as the insert ports see them -/

/-- Region r beside its registers. -/
def region (s : State) (r : Nat) : Region := smGet s.regions r {}

/-- The state with region r set. -/
def setRegion (s : State) (r : Nat) (x : Region) : State := { s with regions := smSet s.regions r x {} }

/-- The region states of R214. -/
def gEMPTY := 0
def gLOADING := 1
def gLOADED := 2
def gRELEASED := 3
def gSTOPPED := 4

/-- STATE of region r. -/
def regState (s : State) (r : Nat) : Nat := fld s (F.FAB_REGr_STATUS_STATE r)

/-- The region's clocks run and it is awake. -/
def regServed (s : State) (r : Nat) : Bool := (region s r).run && !flag s (F.FAB_REGr_STATUS_SLEEPING r)

/-- The region that insert port k (0 to 23) enters (R213). -/
def insRegion (k : Nat) : Nat := 24 * (k / 8) + 8 + k % 8

/-! ### The Timetable's part of the state -/

/-- The Timetable replaced. -/
def setTt (s : State) (x : Timetable) : State := { s with tt := x }

/-- TT_CTRL.ENABLE reads 1 and is not being cleared. -/
def ttOn (s : State) : Bool := flag s F.TT_CTRL_ENABLE && !flag s F.TT_STATUS_DRAINING

/-- DSP_CTRL.ENABLE reads 1 and is not being cleared. -/
def dspOn (s : State) : Bool := flag s F.DSP_CTRL_ENABLE && !flag s F.DSP_STATUS_DRAINING

/-- The number of slots (R51). -/
def ttSlots (s : State) : Nat := 524288 * 2 ^ fld s F.TT_SIZE_ENTRIES

/-- The key of a bucket: axis, full revolution, bucket number. -/
def bucketKey (axis rev b : Nat) : Nat := axis * 2 ^ 36 + rev % 2 ^ 24 * 2 ^ 12 + b

/-- The slots of a bucket. -/
def bucketAt (s : State) (key : Nat) : List Slot := smGet s.tt.buckets key []

/-- Every slot that holds an entry. -/
def usedSlots (s : State) : List Nat := s.tt.buckets.flatMap fun b => b.2.map (·.slot)

/-- How many slots hold entries. -/
def usedCount (s : State) : Nat := (s.tt.buckets.map fun b => b.2.length).sum

/-- TT_USED follows the slots in use, and TT_PEAK its highest value. -/
def countUsed (s : State) : State := peak (setFld s F.TT_USED_USED (usedCount s)) F.TT_PEAK_PEAK (usedCount s)

/-- RESERVED and READY clear once the disabled Timetable holds nothing (R53, R69). -/
def ttRelease (s : State) : State :=
  if !flag s F.TT_CTRL_ENABLE && flag s F.TT_STATUS_RESERVED && usedCount s == 0 then
    setFld (setFld s F.TT_STATUS_READY 0) F.TT_STATUS_RESERVED 0
  else s

/-- The first slot from `k` on, of `size` slots taken round, that is neither used nor retired, among `n + 1` tried. -/
def nextSlot (busy : List Nat) (size : Nat) : Nat → Nat → Nat
  | 0, k => k
  | n + 1, k => if busy.contains k then nextSlot busy size n ((k + 1) % size) else k

/-- A free slot. Which one the controller takes is not specified; a free value chooses. -/
def freeSlot (s : State) : Nat :=
  let busy := usedSlots s ++ s.tt.retired
  nextSlot busy (ttSlots s) busy.length (freeOf s % ttSlots s)

/-- The 16 bytes of slot `k`, at the partition's base + 16 × k, hold the entry little-endian (R47, R51). What a link word
holds is not specified: the bytes of the link index stay the free values that enabling the Timetable gives them (log entry
23). -/
def slotBytes (s : State) (k e : Nat) : State :=
  let x := ttBase s + 16 * k
  setLineBytes s (storLine s x) (x % 64) 16 (2 ^ 16 - 1) e

/-- An entry is stored for revolution `r` (R57). -/
def storeEntry (s : State) (e r : Nat) : State :=
  let k := bucketKey (eAxis e) r (eBucket e)
  let x : Slot := ⟨e, freeSlot s, s.tt.ord, 0⟩
  let s1 := slotBytes (setTt (drawn s) { s.tt with buckets := smSet s.tt.buckets k (bucketAt s k ++ [x]) [], ord := s.tt.ord + 1 }) x.slot e
  countUsed s1

/-! ### The checks and the decision (R50, R57 to R59) -/

/-- OP is one of R49. -/
def opKnown (op : Nat) : Bool := decide (op ≤ 6) || op == 8 || op == 9 || op == 0x0A || op == 0x10

/-- The OP names an internal target. -/
def opInternal (op : Nat) : Bool := op == 8 || op == 9 || op == 0x0A || op == 0x10

/-- The DETAIL of the first check an entry fails (R50). -/
def insCheck (e : Nat) : Option Nat :=
  let op := eOp e
  if op = 0 then none
  else if !opKnown op then some 0
  else if opInternal op != (eModule e == 0) then some 1
  else if (op == 8 && decide (71 < eChan e)) || (op == 9 && decide (95 < eChan e)) || (op == 0x0A && decide (255 < eChan e)) then some 2
  else if op == 3 && ePayload e == 0 then some 3
  else if eModule e == 0 && eGrp e then some 4
  else none

/-- The code of a source's class (R60). -/
def srcClass : Src → Nat
  | .fabric _ => 0
  | .engine _ => 1
  | .host => 2
  | .trunk _ _ => 3
  | .requeue => 4
  | .orphan c => c

/-- Revolution W of the walk front of an axis. -/
def frontRev (s : State) (a : Nat) : Nat := fld s (F.TT_AXn_FRONT_REV a)

/-- The last bucket taken in W plus one, 0 for NONE. -/
def frontNext (s : State) (a : Nat) : Nat :=
  if flag s (F.TT_AXn_FRONT_NONE a) then 0 else fld s (F.TT_AXn_FRONT_BUCKET a) + 1

/-- REV less W, modulo 256 (R57). -/
def revAhead (s : State) (e : Nat) : Nat := (eRev e + 256 - frontRev s (eAxis e) % 256) % 256

/-- The insertion is late against the front of its axis (R57). -/
def insLate (s : State) (e : Nat) : Bool :=
  let d := revAhead s e
  decide (128 ≤ d) || (d == 0 && decide (eBucket e < frontNext s (eAxis e)))

/-- The entry with REV rewritten. -/
def withRev (e r : Nat) : Nat := putBits e 24 8 (r % 256)

/-- A trapped entry (R58): captured, or counted; event 0x0803. That its record carries the class as DATA is the model's
choice (DESIGN CHOICE, log entry 127). -/
def ttTrap (s : State) (e cls : Nat) : State :=
  let s1 := raise s 0x0803 [(1, cls)]
  if flag s1 F.TT_TRAP_INFO_VALID then satInc s1 F.TT_TRAP_INFO_LOST
  else setFld (setFld (setFld s1 F.TT_TRAP_INFO_CLASS cls) F.TT_TRAP_INFO_VALID 1) F.TT_TRAP_ENTRY e

/-- A late FIRE entry goes to the late queue with the revolution R58 names; a disabled Dispatcher ends it DISABLED. -/
def passLate (s : State) (e : Nat) : State :=
  let d := revAhead s e
  let w := frontRev s (eAxis e)
  let r := if 128 ≤ d then (w + 2 ^ 24 - (256 - d)) % 2 ^ 24 else w
  if dspOn s then
    setDsp (setTt s { s.tt with ord := s.tt.ord + 1 }) { s.dsp with lateQ := s.dsp.lateQ ++ [⟨e, r, s.tt.ord, true⟩] }
  else outcome s ST.disabled

/-- A store into the partition: OK where it succeeds within two attempts, else INTERNAL with event 0x0806 (R66). -/
def tryStore (s : State) (e r : Nat) (stored : Bool) (st detail : Nat) : Nat × Nat × State :=
  if stored then (st, detail, storeEntry s e r) else (ST.internal, 0, raise s 0x0806 [])

/-- The Timetable has no free slot. A retired slot is not free (R71), so it counts as `used` does in the test of R59
(DEDUCED, log entry 123). -/
def ttFull (s : State) : Bool := decide (ttSlots s ≤ usedCount s + s.tt.retired.length)

/-- An insertion found late (R58, R59). -/
def decideLate (s : State) (e cls : Nat) (stored : Bool) : Nat × Nat × State :=
  match eLate e with
  | 0 => (ST.late, 0, s)
  | 1 => if 256 ≤ s.dsp.lateQ.length then (ST.late, 4, s) else (ST.late, 1, passLate s e)
  | 3 => (ST.late, 3, ttTrap s e cls)
  | _ =>
    let w := frontRev s (eAxis e)
    let r := if frontNext s (eAxis e) ≤ eBucket e then w else (w + 1) % 2 ^ 24
    if ttFull s || (bucketAt s (bucketKey (eAxis e) r (eBucket e))).length == 1024 then (ST.full, 2, s)
    else tryStore s (withRev e r) r stored ST.late 2

/-- The decision of an accepted insertion of a class: status, DETAIL and the state it leaves (R59). -/
def decideIns (s : State) (e cls : Nat) (stored : Bool) : Nat × Nat × State :=
  if blkShut s 8 then (ST.reset, 0, s)
  else if !ttOn s || !flag s F.TT_STATUS_READY then (ST.disabled, 0, s)
  else if cls ≠ 4 ∧ bitOf (fld s F.TT_CTRL_SRC_EN) cls = false then (ST.disabled, 1, s)
  else match insCheck e with
    | some k => (ST.decode, k, s)
    | none =>
      if cls = 3 ∧ rtValid s = false then (ST.denied, 1, s)
      else if cls = 3 ∧ eModule e = 0 ∧ flag s F.TT_CTRL_REMOTE_INT = false then (ST.denied, 2, s)
      else if insLate s e then decideLate s e cls stored
      else
        let r := (frontRev s (eAxis e) + revAhead s e) % 2 ^ 24
        if ttFull s then (ST.full, 1, s)
        else if (bucketAt s (bucketKey (eAxis e) r (eBucket e))).length = 1024 then (ST.full, 0, s)
        else tryStore s e r stored ST.ok 0

/-- The counter of an insertion's status. -/
def insCounter (st : Nat) : Fld :=
  if st = ST.ok then F.TT_CNT_OK_COUNT
  else if st = ST.late then F.TT_CNT_LATE_COUNT
  else if st = ST.full then F.TT_CNT_FULL_COUNT
  else if st = ST.decode then F.TT_CNT_DECODE_COUNT
  else F.TT_CNT_OTHER_COUNT

/-- A completed insertion is counted; FULL raises 0x0802 at most once per 1 ms (R72). -/
def countIns (s : State) (st : Nat) : State :=
  satInc (if st = ST.full then raiseMerged s 0x0802 0 [] else s) (insCounter st)

/-- A re-queued entry that is not stored is lost (R69, R76). -/
def requeueLost (s : State) (e : Nat) : State := satInc (raise s 0x090C [(1, eAxis e)]) F.DSP_CNT_REQUEUE_LOST_COUNT

/-- A decided insertion awaits its record; the REQUEUE class has none (R60). -/
def decided (s : State) (i : Ins) (st detail : Nat) : State :=
  let s1 := countIns s st
  match i.src with
  | .requeue => if st = ST.ok ∨ (st = ST.late ∧ detail = 2) then s1 else requeueLost s1 i.entry
  | .orphan _ => s1
  | src => setTt s1 { s1.tt with done := s1.tt.done ++ [⟨src, insRecord i.tag st detail i.entry⟩] }

/-- The Timetable decides an insertion. -/
def acceptIns (s : State) (i : Ins) (stored : Bool) : State :=
  let d := decideIns s i.entry (srcClass i.src) stored
  decided d.2.2 i d.1 d.2.1

/-! ### Handing over and holding (R61) -/

/-- An insertion or a record of one belongs to the class. -/
def classInFlight (s : State) (c : Nat) : Nat :=
  (s.tt.inflight.filter fun i => srcClass i.src == c).length + (s.tt.done.filter fun d => srcClass d.src == c).length

/-- The insertions in flight of one source. -/
def srcInFlight (s : State) (x : Src) : Nat :=
  (s.tt.inflight.filter fun i => i.src == x).length + (s.tt.done.filter fun d => d.src == x).length

/-- The unread records of a fabric port and of an engine. -/
def fabCqOf (s : State) (k : Nat) : List Nat := smGet s.tt.fabCq k []
def engCqOf (s : State) (n : Nat) : List Nat := smGet s.tt.engCq n []

/-- A fabric port is held (R61). -/
def fabHeld (s : State) (k : Nat) : Bool :=
  decide (64 ≤ srcInFlight s (.fabric k) + (fabCqOf s k).length) || decide (512 ≤ classInFlight s 0)

/-- An engine's insert path is held (R61). -/
def engHeld (s : State) (n : Nat) : Bool :=
  decide (32 ≤ srcInFlight s (.engine n) + (engCqOf s n).length) || decide (512 ≤ classInFlight s 1)

/-- Host insertions that may still be presented. -/
def hostCredits (s : State) : Nat := 512 - (srcInFlight s .host + s.tt.hostCq.length)

/-- An insertion is handed over (R61). -/
def handOver (s : State) (i : Ins) : State := setTt s { s.tt with inflight := s.tt.inflight ++ [i] }

/-- INFLIGHT and UNREAD of a fabric port, and COUNT and CREDITS of the host, follow the queues. -/
def fabCounts (s : State) (k : Nat) : State :=
  setFld (setFld s (F.TT_FPn_CFG_INFLIGHT k) (srcInFlight s (.fabric k))) (F.TT_FPn_CFG_UNREAD k) (fabCqOf s k).length

def hostCounts (s : State) : State :=
  setFld (setFld s F.TT_HCQ_STATUS_CREDITS (hostCredits s)) F.TT_HCQ_STATUS_COUNT s.tt.hostCq.length

/-- The counts that follow a source's queues. -/
def srcCounts (s : State) : Src → State
  | .fabric k => fabCounts s k
  | .host => hostCounts s
  | _ => s

/-- The port clock of insert port k gives edges: the global user clock of its die that TT_FPk_CFG.CLKSEL selects (R64). -/
def portClock (s : State) (k : Nat) : Bool :=
  fpllOn s (8 * (k / 8) + fld s (F.TT_FPn_CFG_CLKSEL k) / 2) && clocksOn s && regServed s (insRegion k)

/-- A fabric port takes an entry on an edge of its clock with INS_VALID and INS_READY high: its region is served and it is
not held (R64, R213). -/
def fabricInsert (s : State) (k tag e : Nat) : State :=
  if portClock s k && !fabHeld s k then fabCounts (handOver s ⟨.fabric k, tag, e⟩) k else s

def execFabricInsert (port : Fin 24) (tag : BitVec 9) (entry : Entry) (s : State) : Host.Outcome State Fault Refusal :=
  done (fabricInsert s port tag.toNat entry.toNat)

/-- A write of TT_HIN_GO: TT_HIN is presented, or discarded where no credit is left (R61). -/
def hostInsertGo (s : State) (w : Nat) : State :=
  if hostCredits s = 0 then satInc s F.TT_HCQ_DROPS_DROPS
  else hostCounts (handOver s ⟨.host, bits w 0 9, fld s F.TT_HIN_ENTRY⟩)

def execHostInsertGo (value : Word) (s : State) : Host.Outcome State Fault Refusal := done (hostInsertGo s value.toNat)

/-! ### Acceptance (R63) -/

/-- The number of a source within its class. -/
def srcNum : Src → Nat
  | .fabric k => k
  | .engine n => n
  | _ => 0

/-- The distance of `x` past the last one served, round `n`; at least 1. -/
def afterLast (last x n : Nat) : Nat := (x + n - last % n - 1) % n + 1

/-- The class to serve next: REQUEUE first, else the next class with work (R63). -/
def nextClass (s : State) : Option Nat :=
  if s.tt.inflight.any fun i => srcClass i.src == 4 then some 4
  else (sortBy (fun c => afterLast s.tt.rrClass c 4) ([0, 1, 2, 3].filter fun c => s.tt.inflight.any fun i => srcClass i.src == c)).head?

/-- The insertion of a class to serve next: the sources of FABRIC and ENGINE in turn, each in the order presented. -/
def nextIns (s : State) (c : Nat) : Option Ins :=
  let l := s.tt.inflight.filter fun i => srcClass i.src == c
  let key := fun (i : Ins) => if c = 0 then afterLast s.tt.rrFab (srcNum i.src) 24 else if c = 1 then afterLast s.tt.rrEng (srcNum i.src) 96 else 0
  (sortBy key l).head?

/-- The insertion to accept next. -/
def nextAccepted (s : State) : Option Ins := (nextClass s).bind (nextIns s)

/-- An insertion leaves the waiting list and its class and source have had their turn. -/
def servedIns (s : State) (i : Ins) : State :=
  let c := srcClass i.src
  setTt s { s.tt with
    inflight := s.tt.inflight.erase i
    rrClass := if c = 4 then s.tt.rrClass else c
    rrFab := if c = 0 then srcNum i.src else s.tt.rrFab
    rrEng := if c = 1 then srcNum i.src else s.tt.rrEng }

/-- One acceptance. -/
def insertAcceptance (s : State) (stored : Bool) : State :=
  match nextAccepted s with
  | none => s
  | some i => srcCounts (acceptIns (servedIns s i) i stored) i.src

def execInsertAcceptance (stored : Bool) (s : State) : Host.Outcome State Fault Refusal := done (clocked s (insertAcceptance s stored))

/-! ### Completion records (R60, R63 to R65) -/

/-- A record reaches its source's queue, or the sending node; the host's queue leaving 0 pends vector 6 (R379). -/
def deliver (s : State) (d : Done) : State :=
  match d.src with
  | .fabric k => setTt s { s.tt with fabCq := smSet s.tt.fabCq k (fabCqOf s k ++ [d.word]) [] }
  | .engine n => setTt s { s.tt with engCq := smSet s.tt.engCq n (engCqOf s n ++ [d.word]) [] }
  | .host =>
    let s1 := if s.tt.hostCq.isEmpty then pendVec s 6 else s
    setTt s1 { s1.tt with hostCq := s1.tt.hostCq ++ [d.word] }
  | .trunk _ node => answerInsert s node (nodeId s) d.word
  | _ => s

/-- The k-th decided insertion's record is written. Draining of the Timetable ends by DRAIN_END. -/
def completionRecord (s : State) (k : Nat) : State :=
  match s.tt.done[k]? with
  | none => s
  | some d => srcCounts (deliver (setTt s { s.tt with done := s.tt.done.eraseIdx k }) d) d.src

/-- The fabric takes the oldest record of its port on an edge of the port clock with CQ_VALID and CQ_READY high (R64, R213). -/
def cqTake (s : State) (k : Nat) : State :=
  if portClock s k then
    fabCounts (setTt s { s.tt with fabCq := smSet s.tt.fabCq k (fabCqOf s k).tail [] }) k
  else s

def execCqRecordTake (port : Fin 24) (s : State) : Host.Outcome State Fault Refusal := done (cqTake s port)

/-- What a read of TT_HCQ returns. -/
def hcqHead (s : State) : Nat := s.tt.hostCq.headD 0xFFFFFFFF

/-- A read of TT_HCQ removes the oldest record (R60). -/
def hcqPop (s : State) : State := hostCounts (setTt s { s.tt with hostCq := s.tt.hostCq.tail })

def execTtHcqRead (s : State) : Host.Outcome State Fault Refusal := done (hcqPop s)

/-! ### Enable, disable and flush (R53, R68, R69) -/

/-- A partition bank lies in a group assigned to the stack cache (R53, R268). -/
def partitionCached (s : State) : Bool :=
  (List.range 8).any fun n => decide (ttBase s / 0x100000 ≤ 8 * n + 7) && decide (2 ≤ fld s (F.MEM_GRPn_CFG_MODE n))

/-- The front of each axis at its predicted stamp's revolution, with NONE (R56). -/
def resetFronts (s : State) : State :=
  forEach allAxes (fun s a => setFld (setFld (setFld s (F.TT_AXn_FRONT_BUCKET a) 0) (F.TT_AXn_FRONT_NONE a) 1)
    (F.TT_AXn_FRONT_REV a) (fld s (F.ANG_AXn_STAMP_STAMP a) / 2 ^ 24)) s

/-- Setting TT_CTRL.ENABLE (R53): refused beside the stack cache, a start that reserves the partition, or a resume. A resume
keeps the link index and the directory, so it is not the enable that ends the retirement of slots (R71; DEDUCED, log entry
126). -/
def ttEnable (s : State) : State :=
  if flag s F.TT_CTRL_ENABLE then s
  else if flag s F.TT_STATUS_RESERVED then setFld s F.TT_CTRL_ENABLE 1
  else if partitionCached s then setFld (raise s 0x0805 []) F.TT_STATUS_CFG_ERR 1
  else
    let s1 := scramble s 0 (ttBase s / 0x100000) 64
    let s2 := setTt s1 { s1.tt with buckets := [], retired := [] }
    let s3 := setFld (setFld (resetFronts s2) F.TT_RETIRED_RETIRED 0) F.TT_USED_USED 0
    setFld (setFld s3 F.TT_STATUS_RESERVED 1) F.TT_CTRL_ENABLE 1

def execTtEnable (s : State) : Host.Outcome State Fault Refusal := done (ttEnable s)

/-- Initialisation ends: READY and event 0x0801 (R53). -/
def ttInitDone (s : State) : State :=
  if flag s F.TT_STATUS_RESERVED && !flag s F.TT_STATUS_READY then setFld (raise s 0x0801 []) F.TT_STATUS_READY 1 else s

def execTtInitDone (s : State) : Host.Outcome State Fault Refusal := done (clocked s (ttInitDone s))

/-- The Timetable has no record left to write. -/
def ttDrained (s : State) : Bool := s.tt.done.isEmpty

/-- Draining has ended (R13, R69). -/
def ttDrainEnd (s : State) : State := ttRelease (setFld (setFld s F.TT_CTRL_ENABLE 0) F.TT_STATUS_DRAINING 0)

/-- Clearing TT_CTRL.ENABLE (R69). -/
def ttDisable (s : State) : State :=
  if !flag s F.TT_CTRL_ENABLE then s
  else if ttDrained s then ttDrainEnd s
  else setFld s F.TT_STATUS_DRAINING 1

def execTtDisable (s : State) : Host.Outcome State Fault Refusal := done (ttDisable s)

/-- The axis and bucket a flush visits after (a, b): the next bucket, then the next axis it names; none at its end. -/
def flushNext (f : Flush) : Option Flush :=
  if f.curB + 1 < 4096 then some { f with curB := f.curB + 1 }
  else if f.mode = 2 ∧ f.curAx + 1 < 16 then some { f with curAx := f.curAx + 1, curB := 0 }
  else none

/-- A write of TT_FLUSH with GO = 1 (R68). The fields of the same write act first; mode 11 and a running flush leave GO
without effect. -/
def flushGo (s : State) (w : Nat) : State :=
  let s1 := setFld (setFld (setFld s F.TT_FLUSH_AXIS (bits w 0 4)) F.TT_FLUSH_MODE (bits w 4 2)) F.TT_FLUSH_REV (bits w 8 8)
  if bitOf w 31 = false ∨ flag s F.TT_STATUS_FLUSHING = true ∨ bits w 4 2 = 3 then s1
  else
    let a := if bits w 4 2 = 2 then 0 else bits w 0 4
    setFld (setFld (setTt s1 { s1.tt with flush := some ⟨bits w 4 2, bits w 0 4, bits w 8 8, a, 0, 0⟩ }) F.TT_FLUSH_GO 1) F.TT_STATUS_FLUSHING 1

def execTtFlushGo (value : Word) (s : State) : Host.Outcome State Fault Refusal := done (flushGo s value.toNat)

/-- A stored bucket lies on the bucket number the flush visits, in a revolution that MODE names. -/
def flushHits (f : Flush) (key : Nat) : Bool :=
  key / 2 ^ 36 == f.curAx && key % 2 ^ 12 == f.curB && (f.mode != 1 || key / 2 ^ 12 % 256 == f.rev)

/-- One bucket number is flushed in one atomic step; at the end TT_FLUSH_CNT is set and event 0x0807 raised (R68). Entries
lost under R71 are found by the walk only, so until then TT_USED counts them, and a flush that comes first removes and counts
them as any others, in TT_FLUSH_CNT and never in TT_CNT_LOST (DEDUCED, log entry 124). That the record of 0x0807 carries the
count as DATA is the model's choice (DESIGN CHOICE, log entry 127). -/
def flushBucket (s : State) : State :=
  match s.tt.flush with
  | none => s
  | some f =>
    let gone := s.tt.buckets.filter fun b => flushHits f b.1
    let n := f.count + (gone.map fun b => b.2.length).sum
    let s1 := setTt s { s.tt with buckets := s.tt.buckets.filter (fun b => !flushHits f b.1), flush := (flushNext f).map fun g => { g with count := n } }
    let s2 := ttRelease (setFld s1 F.TT_USED_USED (usedCount s1))
    if (flushNext f).isSome then s2
    else setFld (setFld (setFld (raise s2 0x0807 [(3, n)]) F.TT_FLUSH_CNT_COUNT n) F.TT_FLUSH_GO 0) F.TT_STATUS_FLUSHING 0

def execFlushBucket (s : State) : Host.Outcome State Fault Refusal := done (clocked s (flushBucket s))

/-! ### Errors in the partition (R71) -/

/-- Stored entries for which the condition holds are marked lost. -/
def loseSlots (s : State) (kind : Nat) (hit : Slot → Bool) : State :=
  setTt s { s.tt with buckets := s.tt.buckets.map fun b => (b.1, b.2.map fun x => if hit x then { x with lost := kind } else x) }

/-- Every entry of each bucket with a slot for which the condition holds is marked lost. -/
def loseChains (s : State) (hit : Slot → Bool) : State :=
  setTt s { s.tt with buckets := s.tt.buckets.map fun b => if b.2.any hit then (b.1, b.2.map fun x => { x with lost := 2 }) else b }

/-- Slots become retired until the next enable; TT_RETIRED counts them. -/
def retire (s : State) (l : List Nat) : State :=
  let r := s.tt.retired ++ l.filter fun x => !(s.tt.retired.contains x)
  setFld (setTt s { s.tt with retired := r }) F.TT_RETIRED_RETIRED r.length

/-- An uncorrectable error in the line at byte `o` of the partition (R71). A line of the entry area that has both free slots
and slots in use loses its entries and retires its free slots only (DEDUCED, log entry 125). -/
def partitionError (s : State) (o : Nat) : State :=
  let area := 16 * ttSlots s
  if o < area then
    let mine := (List.range 4).map (· + o / 64 * 4)
    let used := usedSlots s
    retire (loseSlots s 1 fun x => mine.contains x.slot) (mine.filter fun x => !(used.contains x))
  else
    let lo := (o - area) / 64 * 16
    loseChains s fun x => decide (lo ≤ x.slot) && decide (x.slot < lo + 16)

/-! ### Reset of the Timetable (R70) -/

/-- Insertions in flight end RESET; their records follow those already queued. REQUEUE entries are lost. -/
def resetInflight (s : State) : State :=
  let s1 := setTt s { s.tt with inflight := [], done := [] }
  let s2 := forEach s.tt.inflight (fun s i =>
    match i.src with
    | .requeue => requeueLost s i.entry
    | .orphan _ => s
    | src => deliver s ⟨src, insRecord i.tag ST.reset 0 i.entry⟩) s1
  forEach s.tt.done (fun s d => deliver s ⟨d.src, putBits (putBits d.word 9 4 ST.reset) 13 3 0⟩) s2

/-- A BLOCK reset of TT. -/
def ttBlockReset (s : State) : State :=
  let s1 := resetInflight s
  let s2 := outcomes (setDsp s1 { s1.dsp with lateQ := [] }) ST.disabled s1.dsp.lateQ.length
  let t : Timetable := { ord := s2.tt.ord, hostCq := s2.tt.hostCq, fabCq := s2.tt.fabCq, engCq := s2.tt.engCq }
  hostCounts (forEach (List.range 24) fabCounts (resetBlockRegs (setTt s2 t) 0x08))

/-- The insertions of the sources that a condition names have no taker for their records any more; they still complete
(R70). -/
def orphanSources (s : State) (mine : Src → Bool) : State :=
  setTt s { s.tt with
    inflight := s.tt.inflight.map fun i => if mine i.src then { i with src := .orphan (srcClass i.src) } else i
    done := s.tt.done.filter fun d => !mine d.src }

end Sys2Proof.Machine
end

