-- ==== Sys2Proof/Machine/Modules.lean ====
section
/-! DEFINITION. What a module on a ring does with the flits that reach it (R98 to R120). A module is named by its port
and its place in the chain; place 0 is the device. -/
namespace Sys2Proof.Machine

/-! ### A module and its channels -/

/-- The module at a place. -/
def module (s : State) (p pos : Nat) : Module := smGet s.modules (p * 256 + pos) {}

/-- The module at a place set. -/
def setModule (s : State) (p pos : Nat) (m : Module) : State := { s with modules := smSet s.modules (p * 256 + pos) m {} }

/-- The ring time of a module in ns. -/
def modTime (s : State) (m : Module) : Nat := ((now s : Int) + m.rtOff).toNat

/-- The state of a channel. -/
def chan (m : Module) (c : Nat) : Chan := smGet m.chans c {}

/-- A channel's state set. -/
def setChan (m : Module) (c : Nat) (x : Chan) : Module := { m with chans := smSet m.chans c x {} }

/-- The channel's output after an update at `t` (R106): CLEAR switches off, a PULSE runs for its width. -/
def chanAfter (op payload t : Nat) : Chan :=
  if op = 2 then {} else ⟨op, payload, if op = 3 then t + payload else 0⟩

/-- A record acts: its channel exists and its OP suits the channel's kind (R106). -/
def updSuits (m : Module) (u : Nat) : Bool := decide (uChan u < idChannels m.ident) && opSuits (idKind m.ident (uChan u)) (uOp u)

/-- An update record at `t`; one that does not suit is ignored (R106). -/
def applyUpd (m : Module) (u t : Nat) : Module :=
  if updSuits m u then setChan m (uChan u) (chanAfter (uOp u) (uPayload u) t) else m

/-- The records of a consist in order. -/
def applyUpds (m : Module) (us : List Nat) (t : Nat) : Module := us.foldl (fun m u => applyUpd m u t) m

/-- A channel takes its safe-frame value (R118). -/
def applySafe (m : Module) (c t : Nat) : Module :=
  if c < idChannels m.ident then setChan m c (chanAfter (idSafe m.ident c).1 (idSafe m.ident c).2 t) else m

/-- Every channel takes its safe-frame value. -/
def safeFrame (m : Module) (t : Nat) : Module := (List.range (idChannels m.ident)).foldl (fun m c => applySafe m c t) m

/-- The fallback of a group for some channels (R113): SAFE, or the last committed updates. -/
def applyFb (m : Module) (fb group : Nat) (cs : List Nat) (t : Nat) : Module :=
  cs.foldl (fun m c =>
    if fb = 1 then applySafe m c t
    else match smGet m.commits (group * 1024 + c) 0 with
      | 0 => m
      | u + 1 => applyUpd m u t) m

/-- The MISSED action, or the late action of one channel (R115): OFF switches off, SAFE applies the safe frame. -/
def lateAction (m : Module) (c t : Nat) : Module :=
  if c < idChannels m.ident then
    match idLate m.ident c with
    | 2 => setChan m c {}
    | 3 => applySafe m c t
    | _ => m
  else m

/-- A record that arrives after its stamp (R115); one that does not suit is ignored (R106). -/
def lateRecord (m : Module) (u t : Nat) : Module :=
  if updSuits m u then (if idLate m.ident (uChan u) = 1 then applyUpd m u t else lateAction m (uChan u) t) else m

/-! ### Sending and forwarding -/

/-- A flit of the module's own on the return path. -/
def modSend (s : State) (p pos type cidx payload : Nat) : State :=
  let m := module s p pos
  send s p pos (mkFlit type m.lastSeq m.pos cidx 0 payload)

/-- A flit forwarded on the forward path; the end module forwards none. -/
def forward (s : State) (p pos : Nat) (f : Flit) : State := if (module s p pos).isEnd then s else send s p pos f

/-- The IDLE flit that takes a consumed flit's place. -/
def forwardIdle (s : State) (p pos f : Nat) : State := forward s p pos (mkFlit FT.idle (fSeq f) 0 0 0 0)

/-- ACK of one record. -/
def modAck (s : State) (p pos addr seq res : Nat) : State := modSend s p pos FT.ack 0 (addr + seq * 2 ^ 8 + res * 2 ^ 20)

/-- NAK with a reason: 0 CRC, 1 STORE_FULL, 2 STOPPED (R109). -/
def modNak (s : State) (p pos reason : Nat) : State :=
  let m := module s p pos
  modSend s p pos FT.nak 0 (m.pos + m.lastSeq * 2 ^ 8 + reason * 2 ^ 20)

/-- The flit is addressed to the module, or broadcast. -/
def addressed (m : Module) (f : Nat) : Bool := fAddr f == 255 || (fAddr f == m.pos && m.pos != 0)

/-- An item's acknowledgement: for a broadcast item only the end module's (R108). -/
def ackItem (s : State) (p pos f res : Nat) : State :=
  let m := module s p pos
  if fAddr f ≠ 255 ∨ m.isEnd = true then modAck s p pos m.pos (fSeq f) res else s

/-- What becomes of a flit that a module takes: a broadcast is forwarded, any other replaced by IDLE (R99). -/
def passOn (s : State) (p pos : Nat) (f : Flit) : State :=
  if fAddr f.toNat = 255 then forward s p pos f else forwardIdle s p pos f.toNat

/-- A good flit of a type at a module: taken where addressed, else forwarded. -/
def atModule (s : State) (p pos : Nat) (f : Flit) (type : Nat) (take : State → State) : State :=
  if pos = 0 || !fGood f.toNat || fType f.toNat != type then s
  else if addressed (module s p pos) f.toNat then passOn (take s) p pos f
  else forward s p pos f

/-- The module remembers the last item it received whole. -/
def tookItem (s : State) (p pos f : Nat) : State := setModule s p pos { module s p pos with lastSeq := fSeq f }

/-! ### Consists (R104, R106, R108, R111, R113) -/

/-- The update records of a continuation flit. -/
def contUpds (f : Nat) : List Nat := [bits (fPayload f) 0 48, bits (fPayload f) 48 48, bits (fPayload f) 96 48, bits (fPayload f) 144 48]

/-- The first flit's fields. -/
def cStamp (f : Nat) : Nat := bits (fPayload f) 0 64
def cNflit (f : Nat) : Nat := bits (fPayload f) 64 4
def cKind (f : Nat) : Nat := bits (fPayload f) 68 3
def cNupd (f : Nat) : Nat := bits (fPayload f) 112 10

/-- CIDX counts up from `i` and every flit after the first is a CONSIST_CONT of the same SEQ and ADDR. -/
def contsOk (seq addr : Nat) : Nat → List Nat → Bool
  | _, [] => true
  | i, f :: t => fType f == FT.cont && fSeq f == seq && fAddr f == addr && fCidx f == i && contsOk seq addr (i + 1) t

/-- The checks of a consist (R104). -/
def consistOk (l : List Nat) : Bool :=
  match l with
  | [] => false
  | f :: t =>
    fType f == FT.consist && fCidx f == 0 && contsOk (fSeq f) (fAddr f) 1 t && l.length == cNflit f + 1
    && cNupd f != 0 && decide (cNupd f ≤ 4 * cNflit f + 1) && decide (cKind f ≤ 2)
    && fLast (l.getLastD 0) == 1 && (l.dropLast.all fun x => fLast x == 0)

/-- A consist as the module holds it. -/
def heldOf (l : List Nat) : Held :=
  let f := l.headD 0
  let y := fPayload f
  { seq := fSeq f, stamp := cStamp f, kind := cKind f, fb := bits y 71 1, group := bits y 72 8, rev := bits y 80 8,
    axis := bits y 88 4, epoch := bits y 96 16,
    upds := (bits y 144 48 :: (l.drop 1).flatMap contUpds).take (cNupd f) }

/-- A consist that arrives after its stamp: the late rules for a NORMAL one, its fallback at once for the others. -/
def lateConsist (m : Module) (h : Held) (t : Nat) : Module :=
  if h.kind = 0 then h.upds.foldl (fun m u => lateRecord m u t) m else applyFb m h.fb h.group (h.upds.map uChan) t

/-- The number of consists the module holds at most. -/
def storeSize (p pos : Nat) : Nat := 64 + Config.moduleStore (p * 256 + pos)

/-- Every flit of a consist passed on as the first one is. -/
def passAll (s : State) (p pos : Nat) (l : List Flit) : State := forEach l (fun s f => passOn s p pos f) s

/-- Every flit of a consist forwarded. -/
def forwardAll (s : State) (p pos : Nat) (l : List Flit) : State := forEach l (fun s f => forward s p pos f) s

/-- IDLE for every flit of a refused consist. -/
def idleAll (s : State) (p pos : Nat) (l : List Flit) : State := forEach l (fun s f => forwardIdle s p pos f.toNat) s

/-- A whole consist that passes its checks at a module it is addressed to. -/
def takeConsist (s : State) (p pos : Nat) (l : List Flit) (h : Held) (f : Nat) : State :=
  let s1 := tookItem s p pos f
  let m := module s1 p pos
  if m.stopped then idleAll (modNak s1 p pos 2) p pos l
  else if m.held.any fun x => x.seq == h.seq then passAll (ackItem s1 p pos f 1) p pos l
  else if h.stamp ≤ modTime s1 m then
    passAll (ackItem (setModule s1 p pos (lateConsist m h (modTime s1 m))) p pos f 0) p pos l
  else if storeSize p pos ≤ m.held.length then idleAll (modNak s1 p pos 1) p pos l
  else passAll (ackItem (setModule s1 p pos { m with held := m.held ++ [h] }) p pos f 0) p pos l

/-- The flits of a consist at a module: NAK with reason CRC where they do not make a consist. -/
def consist (s : State) (p pos : Nat) (l : List Flit) : State :=
  let ns := l.map (·.toNat)
  let f := ns.headD 0
  if pos = 0 || !(ns.all fGood) then s
  else if !addressed (module s p pos) f then forwardAll s p pos l
  else if !consistOk ns then idleAll (modNak s p pos 0) p pos l
  else takeConsist s p pos l (heldOf ns) f

def execConsist (p : Fin 4) (pos : Fin 256) (flits : List Flit) (s : State) : Host.Outcome State Fault Refusal :=
  done (consist s p pos flits)

/-- A NORMAL consist at its stamp: its records act in order (R106). -/
def consistExecute (s : State) (p pos seq : Nat) : State :=
  let m := module s p pos
  match m.held.find? fun h => h.seq == seq && h.kind == 0 && decide (h.stamp ≤ modTime s m) with
  | none => s
  | some h => setModule s p pos (applyUpds { m with held := m.held.erase h } h.upds h.stamp)

def execConsistExecute (p : Fin 4) (pos : Fin 256) (seq : BitVec 12) (s : State) : Host.Outcome State Fault Refusal :=
  done (consistExecute s p pos seq.toNat)

/-- A STAGED consist still held at its stamp: discarded, its fallback applied (R113). -/
def stagedStamp (s : State) (p pos seq : Nat) : State :=
  let m := module s p pos
  match m.held.find? fun h => h.seq == seq && h.kind == 1 && decide (h.stamp ≤ modTime s m) with
  | none => s
  | some h => setModule s p pos (applyFb { m with held := m.held.erase h } h.fb h.group (h.upds.map uChan) h.stamp)

def execStagedStamp (p : Fin 4) (pos : Fin 256) (seq : BitVec 12) (s : State) : Host.Outcome State Fault Refusal :=
  done (stagedStamp s p pos seq.toNat)

/-- The fallbacks that are due: those of revoked consists and of held FALLBACK consists, in stamp order (R113). -/
def fallbackApply (s : State) (p pos : Nat) : State :=
  let m := module s p pos
  let t := modTime s m
  let dueH := m.held.filter fun h => h.kind == 2 && decide (h.stamp ≤ t)
  let dueP := m.pendFb.filter fun x => decide (x.stamp ≤ t)
  let fbs : List PendFb := dueP ++ dueH.map fun h => ⟨h.stamp, h.fb, h.group, h.upds.map uChan⟩
  let m1 := { m with held := m.held.filter fun h => !(h.kind == 2 && decide (h.stamp ≤ t)),
                     pendFb := m.pendFb.filter fun x => !decide (x.stamp ≤ t) }
  setModule s p pos ((sortBy (·.stamp) fbs).foldl (fun m x => applyFb m x.fb x.group x.chans x.stamp) m1)

def execFallbackApply (p : Fin 4) (pos : Fin 256) (s : State) : Host.Outcome State Fault Refusal := done (fallbackApply s p pos)

/-- A running pulse ends (R106). -/
def pulseEnd (s : State) (p pos c : Nat) : State :=
  let m := module s p pos
  if (chan m c).op = 3 ∧ (chan m c).until_ ≤ modTime s m then setModule s p pos (setChan m c {}) else s

def execModulePulseEnd (p : Fin 4) (pos : Fin 256) (chan : BitVec 10) (s : State) : Host.Outcome State Fault Refusal :=
  done (pulseEnd s p pos chan.toNat)

/-! ### Retime, commit and revoke (R112, R113) -/

/-- A consist moved by a retime (R81, R112). -/
def retimeHeld (h : Held) (ta tr k : Nat) (off : Int) (e : Nat) : Held :=
  { h with stamp := movedStamp ta h.stamp (mapStamp tr k off h.stamp), epoch := (e + 1) % 65536 }

/-- A RETIME at a module: RESULT 00 where a consist moved, one at or past T_A, and 10 otherwise (R112). -/
def takeRetime (s : State) (p pos f : Nat) : State :=
  let y := fPayload f
  let m := module s p pos
  let ta := max (bits y 0 64) (modTime s m)
  let tr := ((bits y 0 64 : Int) + toSigned 32 (bits y 64 32)).toNat
  let mine := fun (h : Held) => h.axis == bits y 160 4 && h.epoch == bits y 164 16
  let mv := fun (h : Held) => if mine h then retimeHeld h ta tr (bits y 96 32) (toSigned 32 (bits y 128 32)) (bits y 164 16) else h
  ackItem (setModule (tookItem s p pos f) p pos { module (tookItem s p pos f) p pos with held := m.held.map mv }) p pos f
    (if m.held.any fun h => mine h && decide (ta ≤ h.stamp) then 0 else 2)

def execRetime (p : Fin 4) (pos : Fin 256) (f : Flit) (s : State) : Host.Outcome State Fault Refusal :=
  done (atModule s p pos f FT.retime fun s => takeRetime s p pos f.toNat)

/-- A held consist is a STAGED one of the instance that a COMMIT or REVOKE names. -/
def namesHeld (f : Nat) (h : Held) : Bool :=
  h.kind == 1 && h.axis == bits (fPayload f) 0 4 && h.rev == bits (fPayload f) 4 8 && h.group == bits (fPayload f) 12 8

/-- The updates of a committed consist become the group's last committed ones, but for records that do not suit (R106). -/
def recordCommit (m : Module) (h : Held) : Module :=
  { m with commits := (h.upds.filter (updSuits m)).foldl (fun c u => smSet c (h.group * 1024 + uChan u) (u + 1) 0) m.commits }

/-- COMMIT at a module. -/
def takeCommit (s : State) (p pos f : Nat) : State :=
  let m := module (tookItem s p pos f) p pos
  let hit := m.held.filter (namesHeld f)
  let m1 := { m with held := m.held.map fun h => if namesHeld f h then { h with kind := 0 } else h }
  ackItem (setModule s p pos (hit.foldl recordCommit m1)) p pos f (if hit.isEmpty then 2 else 0)

def execCommit (p : Fin 4) (pos : Fin 256) (f : Flit) (s : State) : Host.Outcome State Fault Refusal :=
  done (atModule s p pos f FT.commit fun s => takeCommit s p pos f.toNat)

/-- REVOKE at a module: the consists are discarded and their fallback waits for their stamps. -/
def takeRevoke (s : State) (p pos f : Nat) : State :=
  let m := module (tookItem s p pos f) p pos
  let hit := m.held.filter (namesHeld f)
  let m1 := { m with held := m.held.filter fun h => !namesHeld f h,
                     pendFb := m.pendFb ++ hit.map fun h => ⟨h.stamp, h.fb, h.group, h.upds.map uChan⟩ }
  ackItem (setModule s p pos m1) p pos f (if hit.isEmpty then 2 else 0)

def execRevoke (p : Fin 4) (pos : Fin 256) (f : Flit) (s : State) : Host.Outcome State Fault Refusal :=
  done (atModule s p pos f FT.revoke fun s => takeRevoke s p pos f.toNat)

/-! ### Stop, safe frame, missed consists, silence (R114, R115) -/

/-- The module stops: every held consist is discarded and the safe frame applied. -/
def stopModule (s : State) (p pos : Nat) : State :=
  let m := module s p pos
  setModule s p pos { safeFrame { m with held := [], pendFb := [] } (modTime s m) with stopped := true }

/-- BSTOP at a module; the end module acknowledges with ADDR 255 and SEQ 0xFFF. -/
def takeBstop (s : State) (p pos : Nat) : State :=
  let s1 := stopModule s p pos
  if (module s1 p pos).isEnd then modAck s1 p pos 255 0xFFF 0 else s1

def execBstop (p : Fin 4) (pos : Fin 256) (f : Flit) (s : State) : Host.Outcome State Fault Refusal :=
  done (atModule s p pos f FT.bstop fun s => takeBstop s p pos)

def takeResume (s : State) (p pos : Nat) : State := setModule s p pos { module s p pos with stopped := false }

def execResume (p : Fin 4) (pos : Fin 256) (f : Flit) (s : State) : Host.Outcome State Fault Refusal :=
  done (atModule s p pos f FT.resume fun s => takeResume s p pos)

def takeSafe (s : State) (p pos : Nat) : State :=
  setModule s p pos (safeFrame (module s p pos) (modTime s (module s p pos)))

def execSafe (p : Fin 4) (pos : Fin 256) (f : Flit) (s : State) : Host.Outcome State Fault Refusal :=
  done (atModule s p pos f FT.safe fun s => takeSafe s p pos)

/-- MISSED: the action of every channel's late rule. -/
def takeMissed (s : State) (p pos : Nat) : State :=
  let m := module s p pos
  setModule s p pos ((List.range (idChannels m.ident)).foldl (fun m' c => lateAction m' c (modTime s m)) m)

def execMissed (p : Fin 4) (pos : Fin 256) (f : Flit) (s : State) : Host.Outcome State Fault Refusal :=
  done (atModule s p pos f FT.missed fun s => takeMissed s p pos)

/-- 1 ms without a good flit: the module acts as on BSTOP. Place 0 is the device, which does not. -/
def execModuleSilence (p : Fin 4) (pos : Fin 256) (s : State) : Host.Outcome State Fault Refusal :=
  done (if pos.val = 0 then s else stopModule s p pos)

/-- A downstream face without a training frame for 10 ms makes the module the end module (R147). -/
def execEndModule (p : Fin 4) (pos : Fin 256) (s : State) : Host.Outcome State Fault Refusal :=
  done (if pos.val = 0 then s else setModule s p pos { module s p pos with isEnd := true })

/-- A good IDLE flit at a module: forwarded; the end module, which then has nothing to send, sends IDLE on the return path
(R99, R102). -/
def moduleIdle (s : State) (p pos : Nat) (f : Flit) : State :=
  if (module s p pos).isEnd then modSend s p pos FT.idle 0 0 else send s p pos f

/-- A received IDLE flit passes on at a module and ends at the device (R99). -/
def execIdle (p : Fin 4) (pos : Fin 256) (f : Flit) (s : State) : Host.Outcome State Fault Refusal :=
  done (if pos.val = 0 || !fGood f.toNat || fType f.toNat != FT.idle then s else moduleIdle s p pos f)

/-! ### ENUM, identity memory and probes at a module (R116, R117, R120) -/

/-- ENUM at a module on the forward path: it takes NEXT_POS, drops what it held, applies its safe frame, ends a stop and
adds its delays to ACC; at NEXT_POS 255 it only sets OVER. The end module sets CLOSED and returns the flit. Its
residence time is free up to 400 ns (R99). -/
def takeEnum (s : State) (p pos f : Nat) : State :=
  let y := fPayload f
  let n := bits y 0 8
  let m := module s p pos
  let closed := if m.isEnd then 2 ^ 40 else 0
  let m0 := { safeFrame { m with held := [], pendFb := [] } (modTime s m) with stopped := false }
  if n = 255 then
    send (setModule s p pos { m0 with pos := 0 }) p pos
      (mkFlit FT.enum (fSeq f) 255 0 0 (putBits y 41 1 1 ||| closed))
  else
    let m1 := { m0 with pos := n }
    let acc := bits y 8 32 + freeOf s % 1601 + hopQuarters m.hop
    send (setModule (drawn s) p pos m1) p pos
      (mkFlit FT.enum (fSeq f) 255 0 0 (putBits (putBits y 0 8 (n + 1)) 8 32 acc ||| closed))

/-- A partner that came up later joins the ring with this ENUM: the module is the end module no more (R147). -/
def joined (s : State) (p pos : Nat) : State := setModule s p pos { module s p pos with isEnd := false }

/-- ENUM at a module: changed on the forward path, unchanged on the return path (R99). -/
def moduleEnum (s : State) (p pos : Nat) (f : Flit) : State :=
  if bitOf (fPayload f.toNat) 40 then send s p pos f else takeEnum s p pos f.toNat

/-- ID_READ: 16 bytes of identity memory in ID_DATA. -/
def takeIdRead (s : State) (p pos f : Nat) : State :=
  let o := bits (fPayload f) 0 11
  modSend s p pos FT.idData 0 (o + idNat (module s p pos).ident o 16 * 2 ^ 16)

def execIdRead (p : Fin 4) (pos : Fin 256) (f : Flit) (s : State) : Host.Outcome State Fault Refusal :=
  done (atModule s p pos f FT.idRead fun s => takeIdRead s p pos f.toNat)

/-- A hop delay measured from a PROBE exchange: half of the round trip, in 2^−16 ns (R120). -/
def hopOf (t echoed : Nat) : Nat := (t - echoed) * 32768

/-- The downstream hop delay of a node is set; it is the upstream hop delay of the next module. -/
def setHop (s : State) (p pos h : Nat) : State :=
  let s1 := setModule s p (pos + 1) { module s p (pos + 1) with hopUp := h }
  if pos = 0 then setPort s1 p { port s1 p with hop := h } else setModule s1 p pos { module s1 p pos with hop := h }

/-- A PROBE with no echo is echoed with the receiver's own time; one that echoes a time ends an exchange. -/
def probe (s : State) (p pos : Nat) (down : Bool) (t f : Nat) : State :=
  let y := fPayload f
  if bits y 64 64 = 0 then send s p pos (mkFlit FT.probe (fSeq f) (fAddr f) 0 0 (t % 2 ^ 64 + bits y 0 64 * 2 ^ 64))
  else if down then setHop s p pos (hopOf t (bits y 64 64))
  else s

def execProbe (p : Fin 4) (pos : Fin 256) (down : Bool) (localTime : BitVec 64) (f : Flit) (s : State) :
    Host.Outcome State Fault Refusal :=
  done (if fGood f.toNat && fType f.toNat == FT.probe then probe s p pos down localTime.toNat f.toNat else s)

/-- Every 1 ms a node probes its downstream neighbour (R120). While a lane of its link is down the other carries nothing but IDLE
(R141). -/
def execProbeSend (p : Fin 4) (pos : Fin 256) (localTime : BitVec 64) (s : State) : Host.Outcome State Fault Refusal :=
  done (if pos.val = 0 then
      (if portState s p = pDISABLED ∨ lanesReady s p = false then s else sendPlain s p FT.probe 0 0 localTime.toNat)
    else forward s p pos (mkFlit FT.probe (module s p pos).lastSeq 0 0 0 localTime.toNat))

end Sys2Proof.Machine
end

