-- ==== Sys2Proof/Machine/Wengan.lean ====
section
/-! DEFINITION. The device's side of the Wengan protocol (chapter 05): acknowledgements and refusals, enumeration, port
enable and disable, remote inserts and trunk hops. -/
namespace Sys2Proof.Machine

/-! ### Acknowledgements (R87, R108) -/

/-- COMMIT to each module of an instance. -/
def sendCommits (s : State) (g : Grp) : State :=
  forEach (g.mods.map fun m => (m.port, m.addr)).eraseDups (fun s x =>
    let t := minOf 0 ((g.mods.filter fun m => m.port == x.1 && m.addr == x.2).map (·.stamp))
    queueItem s x.1 ⟨0, .commit, x.2, t, noCons, groupPayload g⟩) s

/-- A committed member becomes the last committed update of its channels for REPEAT (R89). -/
def recordLast (s : State) (g : Grp) (m : Memb) : State :=
  forEach (targets s (ePort m.entry) (eModule m.entry)) (fun s n =>
    setDsp s { s.dsp with lastUpd := smSet s.dsp.lastUpd (lastKey g.group (chKey (ePort m.entry) n (eChan m.entry))) (m.entry + 1) 0 }) s

/-- A staged instance whose every module has acknowledged enters COMMITTED: its members count OK (R78, R87). -/
def commitGroup (s : State) (g : Grp) : State :=
  let s1 := forEach g.membs (fun s m => recordLast s g m) (outcomes s ST.ok g.membs.length)
  sendCommits (putGroup s1 { g with st := GrpSt.committed }) g

/-- The acknowledgement of a staged consist. Only one that comes before the commit point commits the instance (R87). -/
def ackStaged (s : State) (p : Nat) (i : Item) : State :=
  match s.dsp.groups.find? (fun g => isStagedOf g i.cons && g.st == GrpSt.staged) with
  | none => s
  | some g =>
    let g' := { g with mods := g.mods.map fun m => if m.port = p ∧ m.seq = i.seq then { m with acked := true } else m }
    if g'.mods.all (·.acked) && decide (now s < commitPoint s g') then commitGroup (putGroup s g') g' else putGroup s g'

/-- The acknowledgement of a commit; RESULT 10 is a lost commit. -/
def ackCommit (s : State) (p : Nat) (i : Item) (res : Nat) : State :=
  match s.dsp.groups.find? (fun g => g.st == GrpSt.committed && groupPayload g == i.payload) with
  | none => s
  | some g =>
    if res = 2 then loseCommits s g fun m => m.port == p && m.addr == i.addr
    else
      let g' := { g with mods := g.mods.map fun m => if m.port = p ∧ m.addr = i.addr then { m with cacked := true } else m }
      if g'.mods.all (fun m => m.cacked || m.lost) then endGroup s g' else putGroup s g'

/-- One record of an ACK flit: the item leaves the journal. -/
def ackRecord (s : State) (p r : Nat) : State :=
  if bits r 0 8 = 255 ∧ bits r 8 12 = 0xFFF then
    bstopCheck (setDsp s { s.dsp with bstopAck := (s.dsp.bstopAck.filter (· != p)) ++ [p] })
  else
    match (port s p).journal.find? (fun i => i.seq == bits r 8 12 && (i.addr == bits r 0 8 || i.addr == 255)) with
    | none => s
    | some i =>
      let s1 := setPort s p { port s p with journal := (port s p).journal.erase i }
      match i.kind with
      | .consist => if i.cons.kind = 1 then ackStaged s1 p i else s1
      | .commit => ackCommit s1 p i (bits r 20 2)
      | _ => s1

/-- The records of an ACK flit. -/
def ackRecords (f : Nat) : List Nat := (List.range (min 8 (fCidx f + 1))).map fun i => bits (fPayload f) (24 * i) 24

/-- An ACK at a ring port: journal items are freed, held-back items follow, and a disabled port may have drained. -/
def ringAck (s : State) (p f : Nat) : State :=
  let s1 := forEach (ackRecords f) (fun s r => ackRecord s p r) (setPort s p { port s p with replays := 0 })
  portDrainCheck (drainPort s1 p) p

/-- The kept flits after the one with a SEQ; all of them where none has it. -/
def afterSeq (q : Nat) (l : List Nat) : List Nat := if l.any (fun f => fSeq f == q) then (l.dropWhile fun f => fSeq f != q).tail else l

/-- A cumulative ACK on a trunk hop (R121). -/
def trunkAck (s : State) (p f : Nat) : State :=
  setPort s p { port s p with txBuf := afterSeq (bits (fPayload f) 0 12) (port s p).txBuf }

def ackFlit (s : State) (p pos : Nat) (f : Flit) : State :=
  if pos ≠ 0 then send s p pos f
  else if upTrunk s p then trunkAck s p f.toNat
  else if liveRing s p then ringAck s p f.toNat
  else s

def execAck (p : Fin 4) (pos : Fin 256) (f : Flit) (s : State) : Host.Outcome State Fault Refusal :=
  done (if arrived s pos f.toNat FT.ack then ackFlit s p pos f else s)

/-- A NAK is counted, with event 0x0C09 at most once per 1 ms per port (R126). -/
def countNak (s : State) (p : Nat) : State := satInc (raiseMerged s 0x0C09 p [(1, p)]) (F.WNG_Pp_CNT_NAK_NAK p)

/-- A NAK at a ring port: RESUME where its reason is STOPPED and the buffer stop is in RUN, and a replay (R92, R114). -/
def ringNak (s : State) (p f : Nat) : State :=
  let s1 := countNak s p
  let s2 := if bits (fPayload f) 20 2 = 2 ∧ bstopState s1 = bRUN then sendPlain s1 p FT.resume 255 0 0 else s1
  startReplay s2 p

/-- A NAK on a trunk hop: the flits after the last good one are sent again (R121). -/
def trunkNakRx (s : State) (p f : Nat) : State :=
  let s1 := countNak s p
  resendTrunk (setPort s1 p { port s1 p with txBuf := afterSeq (bits (fPayload f) 8 12) (port s1 p).txBuf }) p

def nakFlit (s : State) (p pos : Nat) (f : Flit) : State :=
  if pos ≠ 0 then send s p pos f
  else if upTrunk s p then trunkNakRx s p f.toNat
  else if liveRing s p then ringNak s p f.toNat
  else s

def execNak (p : Fin 4) (pos : Fin 256) (f : Flit) (s : State) : Host.Outcome State Fault Refusal :=
  done (if arrived s pos f.toNat FT.nak then nakFlit s p pos f else s)

/-- An item that is not acknowledged in time starts a replay (R110). -/
def ackTimeout (s : State) (p seq : Nat) : State :=
  if portState s p = pUP ∧ (port s p).journal.any (fun i => i.seq == seq) = true then
    startReplay (satInc s (F.WNG_Pp_CNT_ACKTO_ACKTO p)) p
  else s

def execAckTimeout (p : Fin 4) (seq : BitVec 12) (s : State) : Host.Outcome State Fault Refusal :=
  done (clocked s (ackTimeout s p seq.toNat))

/-! ### Enumeration (R116, R117) -/

/-- ENUM returned to the device: latency, round trip and module count are set, and the identity reads start. -/
def enumReturned (s : State) (p f elapsed : Nat) : State :=
  let y := fPayload f
  let n := min 254 (bits y 0 8 - 1)
  let s1 := setPort s p { port s p with enumTries := 0, count := n }
  let s2 := if bitOf y 41 then raise s1 0x0C06 [(1, p)] else s1
  let s3 := setFld (setFld s2 (F.DSP_PORTp_LAT_LAT p) (ceilDiv (bits y 8 32) 4 + 400)) (F.DSP_PORTp_RTT_RTT p) elapsed
  enumProgress (setFld s3 (F.WNG_Pp_STATUS_MODULES p) n) p

def enumFlit (s : State) (p pos : Nat) (f : Flit) (elapsed : Nat) (partner : Bool) : State :=
  if pos ≠ 0 then moduleEnum (if partner then joined s p pos else s) p pos f
  else if portState s p = pENUMERATING ∧ (port s p).enumTries ≠ 0 ∧ bitOf (fPayload f.toNat) 40 = true then enumReturned s p f.toNat elapsed
  else s

/-- `elapsed` is the round trip of ENUM and, at a module, whether a partner has reached LINKUP on its downstream face. -/
def execEnumFlit (p : Fin 4) (pos : Fin 256) (f : Flit) (elapsed : BitVec 20 × Bool) (s : State) : Host.Outcome State Fault Refusal :=
  done (if arrived s pos f.toNat FT.enum then enumFlit s p pos f elapsed.1.toNat elapsed.2 else s)

/-- ENUM has not returned within 1 ms: it is sent again, up to 3 times, or enumeration ends with no modules (R116). -/
def enumTimeout (s : State) (p : Nat) : State :=
  let x := port s p
  if portState s p ≠ pENUMERATING ∨ x.enumTries = 0 then s
  else if x.enumTries < 4 then sendEnum (setPort s p { x with enumTries := x.enumTries + 1 }) p
  else enumEmpty s p

def execEnumTimeout (p : Fin 4) (s : State) : Host.Outcome State Fault Refusal := done (enumTimeout s p)

/-- WNG_Pp_CTRL.ENUM written: enumeration runs again where the port is an UP ring with an empty journal (R116). -/
def enumWrite (s : State) (p : Nat) : State :=
  if upRing s p && (port s p).journal.isEmpty && !portDisabled s p then enumStart s p else s

def execEnumWrite (p : Fin 4) (s : State) : Host.Outcome State Fault Refusal := done (enumWrite s p)

/-- Sixteen bytes of identity memory stored at an offset. -/
def storeId (m : SMap Byte) (off : Nat) : Nat → Nat → SMap Byte
  | 0, _ => m
  | n + 1, v => storeId (smSet m off (BitVec.ofNat 8 v) 0) (off + 1) n (v / 256)

/-- Every block of the module is read. -/
def idComplete (x : ModInfo) : Bool := x.got.contains 0 && (idBlocks x).all fun o => x.got.contains o

/-- An answered request: a bad LENGTH ends the module, the last block has it judged, else reading goes on (R117). -/
def idTake (s : State) (p n off data : Nat) : State :=
  let x := modInfo s p n
  let x1 := { x with bytes := storeId x.bytes off 16 data, asked := x.asked.filter (· != off), got := x.got ++ [off] }
  let s1 := setInfo s p n x1
  if off = 0 ∧ (idLength x1.bytes < 8 ∨ 2048 < idLength x1.bytes) then endModuleChecks s1 p n 3 2 0
  else if idComplete x1 then judgeModule s1 p n
  else idPump s1 p 8

/-- ID_DATA at the device, matched to its request by ADDR and byte offset (R117). -/
def idData (s : State) (p f : Nat) : State :=
  let off := bits (fPayload f) 0 11
  if portState s p = pENUMERATING ∧ (modInfo s p (fAddr f)).asked.contains off = true ∧ (modInfo s p (fAddr f)).ended = false then
    idTake s p (fAddr f) off (bits (fPayload f) 16 128)
  else s

def execIdData (p : Fin 4) (f : Flit) (s : State) : Host.Outcome State Fault Refusal :=
  done (if arrived s 0 f.toNat FT.idData then idData s p f.toNat else s)

/-- A request not answered within ACKTO is repeated, up to 3 times, or the module is FAILED with no answer (R117). -/
def idReadTimeout (s : State) (p n off : Nat) : State :=
  let x := modInfo s p n
  if portState s p ≠ pENUMERATING ∨ x.asked.contains off = false ∨ x.ended = true then s
  else if smGet x.tries off 0 < 3 then
    sendIdRead (setInfo s p n { x with tries := smSet x.tries off (smGet x.tries off 0 + 1) 0 }) p n off
  else endModuleChecks s p n 3 1 0

def execIdReadTimeout (p : Fin 4) (pos : Fin 256) (off : BitVec 11) (s : State) : Host.Outcome State Fault Refusal :=
  done (idReadTimeout s p pos off.toNat)

/-- Every 1 ms SAFE goes to each quarantined module (R114). -/
def execSafeRepeat (p : Fin 4) (s : State) : Host.Outcome State Fault Refusal := done (if upRing s p then sendSafes s p else s)

/-! ### Ports (R116, R125) -/

/-- Setting WNG_Pp_CTRL.ENABLE takes the port to TRAINING and its lanes to DETECT; lanes that still send IDLE start when
they have stopped. -/
def portEnable (s : State) (p : Nat) : State :=
  if flag s (F.WNG_Pp_CTRL_ENABLE p) then s
  else
    let s1 := if (port s p).idling then s else forEach (portLanes s p) laneStart s
    portReady (setPortState (setFld s1 (F.WNG_Pp_CTRL_ENABLE p) 1) p pTRAINING) p

def execPortEnable (p : Fin 4) (s : State) : Host.Outcome State Fault Refusal := done (portEnable s p)

/-- Clearing WNG_Pp_CTRL.ENABLE: no new item leaves, and the journal drains (R125). -/
def portDisable (s : State) (p : Nat) : State :=
  if portDisabled s p then s
  else portDrainCheck (setFld (dropUnsent s p) (F.WNG_Pp_STATUS_DRAINING p) 1) p

def execPortDisable (p : Fin 4) (s : State) : Host.Outcome State Fault Refusal := done (portDisable s p)

/-- 10 µs of IDLE end: the lanes go to OFF (R148); a port enabled meanwhile starts to train, and with the port
DISABLED the lanes whose TRAIN reads 1 (R139). -/
def portIdleEnd (s : State) (p : Nat) : State :=
  if (port s p).idling then
    let s1 := forEach [2 * p, 2 * p + 1] laneOff (setPort s p { port s p with idling := false })
    if portState s1 p = pTRAINING then forEach (portLanes s1 p) laneStart s1
    else forEach ([2 * p, 2 * p + 1].filter fun n => flag s1 (F.WLN_LANEn_CTRL_TRAIN n)) laneStart s1
  else s

def execPortIdleEnd (p : Fin 4) (s : State) : Host.Outcome State Fault Refusal := done (portIdleEnd s p)

/-- 500 ms in RECOVER: back to TRAINING, every journal item removed as missed (R116). -/
def recoverTimeout (s : State) (p : Nat) : State :=
  if portState s p = pRECOVER then portDrainCheck (setPortState (missAll s p) p pTRAINING) p else s

def execRecoverTimeout (p : Fin 4) (s : State) : Host.Outcome State Fault Refusal := done (recoverTimeout s p)

/-! ### Trunks (R121, R123, R124) -/

/-- The cumulative ACK of a trunk receiver. -/
def execTrunkAckSend (p : Fin 4) (s : State) : Host.Outcome State Fault Refusal :=
  done (if upTrunk s p then sendPlain s p FT.ack 0 0 (port s p).rxSeq else s)

/-- A remote insert for this node is handed to the Timetable, or completes FULL with no TRUNK slot free (R61, R123). -/
def takeRemote (s : State) (p y : Nat) : State :=
  let e := bits y 39 128
  if 512 ≤ classInFlight s 3 then answerInsert (countIns s ST.full) (rSrc y) (nodeId s) (insRecord (bits y 30 9) ST.full 3 e)
  else handOver s ⟨.trunk p (rSrc y), bits y 30 9, e⟩

/-- A routed flit at a trunk: for this node, or forwarded with TTL one less. -/
def routed (s : State) (p : Nat) (f : Flit) (type : Nat) (mine onward : State → State) : State :=
  if upTrunk s p && arrived s 0 f.toNat type then
    hopReceive s p f.toNat (if rDst (fPayload f.toNat) = nodeId s then mine else onward)
  else s

def execRemoteInsert (p : Fin 4) (f : Flit) (s : State) : Host.Outcome State Fault Refusal :=
  done (routed s p f FT.remoteInsert (fun s => takeRemote s p (fPayload f.toNat)) (fun s => routeInsert s (lessTtl (fPayload f.toNat))))

def execInsertDone (p : Fin 4) (f : Flit) (s : State) : Host.Outcome State Fault Refusal :=
  done (routed s p f FT.insertDone (fun s => riRecord s (rSrc (fPayload f.toNat)) (bits (fPayload f.toNat) 30 32))
    (fun s => (route s FT.insertDone (lessTtl (fPayload f.toNat))).2))

/-- WNG_RI_CQ has no room for another record. -/
def riFull (s : State) : Bool := decide (1 + Config.riCqExtra ≤ s.node.riCq.length)

/-- A write of WNG_RI_GO (R123). -/
def riGo (s : State) (w : Nat) : State :=
  if 32 ≤ s.node.remotes.length ∨ riFull s = true then satInc s F.WNG_RI_DROPS_DROPS
  else
    let e := fld s F.WNG_RI_ENTRY_ENTRY
    let y := nodeId s + bits w 0 12 * 2 ^ 12 + 63 * 2 ^ 24 + bits w 16 9 * 2 ^ 30 + e * 2 ^ 39
    routeInsert { s with node := { s.node with remotes := s.node.remotes ++ [⟨bits w 0 12, bits w 16 9, e⟩] } } y

def execWngRiGo (value : Word) (s : State) : Host.Outcome State Fault Refusal := done (riGo s value.toNat)

/-- The k-th outstanding remote insert times out: a TIMEOUT record (R123). -/
def riTimeout (s : State) (k : Nat) : State :=
  match s.node.remotes[k]? with
  | none => s
  | some r => { s with node := { s.node with remotes := s.node.remotes.eraseIdx k, riCq := s.node.riCq ++ [insRecord r.tag ST.timeout 0 r.entry] } }

def execRiTimeout (k : Nat) (s : State) : Host.Outcome State Fault Refusal := done (riTimeout s k)

/-- What a read of WNG_RI_CQ returns, and the removal it makes. -/
def riCqHead (s : State) : Nat := s.node.riCq.headD 0xFFFFFFFF
def riCqPop (s : State) : State := { s with node := { s.node with riCq := s.node.riCq.tail } }

def execWngRiCqRead (s : State) : Host.Outcome State Fault Refusal := done (riCqPop s)

/-- A write of WNG_MB_TX_GO sends WNG_MB_TX to a node (R124). -/
def mbTxGo (s : State) (w : Nat) : State :=
  (route s FT.mailbox (nodeId s + bits w 0 12 * 2 ^ 12 + 63 * 2 ^ 24 + bits w 16 8 * 2 ^ 30 + fld s F.WNG_MB_TX_DATA * 2 ^ 38)).2

def execWngMbTxGo (value : Word) (s : State) : Host.Outcome State Fault Refusal := done (mbTxGo s value.toNat)

/-- A message is queued with event 0x0C08, or discarded and counted where 64 wait (R124). A message is its data, SRC at
128 and CHAN at 140, as WNG_MB_RX lays it out. -/
def mbQueue (s : State) (y : Nat) : State :=
  if 64 ≤ s.node.mbRx.length then satInc s F.WNG_MB_DROPS_DROPS
  else
    let m := bits y 38 128 + rSrc y * 2 ^ 128 + bits y 30 8 * 2 ^ 140
    let s1 := raise s 0x0C08 []
    { s1 with node := { s1.node with mbRx := s1.node.mbRx ++ [m] } }

/-- What a read of WNG_MB_RX shows: the oldest message with VALID at bit 156, or zero. -/
def mbRxHead (s : State) : Nat := match s.node.mbRx with | [] => 0 | m :: _ => m + 2 ^ 156
/-- Reading the fifth word removes the message. -/
def mbRxPop (s : State) : State := { s with node := { s.node with mbRx := s.node.mbRx.tail } }

def execWngMbRxRead (s : State) : Host.Outcome State Fault Refusal := done (mbRxPop s)

/-! ### Flits that fail their check (R101, R102, R109) -/

/-- A flit that fails its CRC or has a reserved TYPE: a module puts IDLE in its place and, on the forward path, sends
NAK; the device counts it, and a trunk receiver sends NAK. -/
def crcError (s : State) (p pos : Nat) (fwd : Bool) (f : Nat) : State :=
  if pos ≠ 0 then
    (if fwd then modNak (forwardIdle s p pos f) p pos 0 else send s p pos (mkFlit FT.idle (fSeq f) 0 0 0 0))
  else
    let s1 := satInc s (F.WNG_Pp_CNT_CRC_CRC p)
    if upTrunk s1 p then trunkNak s1 p else s1

def execFlitCrcError (p : Fin 4) (pos : Fin 256) (forward : Bool) (f : Flit) (s : State) : Host.Outcome State Fault Refusal :=
  done (if fGood f.toNat then s else crcError s p pos forward f.toNat)

/-! ### Reset of the WNG block (R125) -/

/-- Every port goes to DISABLED at once without replay, so commits not acknowledged are lost (R87); outstanding remote inserts
complete with RESET. -/
def wngReset (s : State) : State :=
  let s1 := forEach allPorts (fun s p => dropUnsent (loseJournal s p) p) s
  let recs := s1.node.remotes.map fun r => insRecord r.tag ST.reset 0 r.entry
  let s2 := forEach (List.range 8) laneOff { s1 with ports := [], node := { s1.node with remotes := [], mbRx := [], riCq := s1.node.riCq ++ recs } }
  resetOffsets s2 0x0C0000 0x0D0000

end Sys2Proof.Machine
end

