-- ==== Sys2Proof/Machine/Lanes.lean ====
section
/-! DEFINITION. The commands of Wengan lanes (chapter 06). -/
namespace Sys2Proof.Machine

/-! ### Training (R133 to R139) -/

/-- Taps that R137 refuses. -/
def tapsBad (pre main post : Int) : Bool :=
  decide (pre < 0 ∨ 15 < pre ∨ main < 0 ∨ 15 < main ∨ post < 0 ∨ 15 < post ∨ 15 < pre + main + post ∨ 15 < pre + post - main)

/-- A tap request: 1 increases, 2 decreases, else none. -/
def reqStep (r : Nat) : Int := if r = 1 then 1 else if r = 2 then -1 else 0

/-- The request of tap `i` (0 PRE, 1 MAIN, 2 POST): the new taps and the status reply, 1 UPDATED or 2 AT_LIMIT. -/
def tapRequest (t i r : Nat) (fixed : Bool) : Nat × Nat :=
  let v := fun (j : Nat) => (bits t (4 * j) 4 : Int) + (if i = j then reqStep r else 0)
  if fixed || tapsBad (v 0) (v 1) (v 2) then (t, 2) else (putBits t (4 * i) 4 (v i).toNat, 1)

/-- The transmitter acts on the request of one tap, once until it sees HOLD (R138). -/
def actTap (s : State) (n c i : Nat) : State :=
  let x := lane s n
  let r := bits c (2 * i) 2
  if r = 0 ∨ r = 3 then setLane s n { x with sts := putBits x.sts (2 * i) 2 0 }
  else if bits x.sts (2 * i) 2 ≠ 0 then s
  else
    let q := tapRequest (taps s n) i r (flag s (F.WLN_LANEn_PRESET_FIXED n))
    setTaps (setLane s n { x with sts := putBits x.sts (2 * i) 2 q.2 }) n q.1

/-- On a trunk the received settings differ from the lane's own (R133). -/
def cfgMismatch (s : State) (n c : Nat) : Bool :=
  isTrunk s (n / 2) && !(bits c 8 2 == fld s (F.WLN_LANEn_CFG_RATE n)
    && (decide (2 ≤ bits c 8 2) || bits c 10 1 == fld s (F.WLN_LANEn_CFG_FEC n))
    && bits c 13 1 == fld s (F.WNG_Pp_CTRL_LANES (n / 2)))

/-- A control word that passes its check: mismatch, precoding and loopback requests, preset and taps. -/
def takeControl (s : State) (n c : Nat) : State :=
  let bad := cfgMismatch s n c
  let s1 := if bad && !(lane s n).mism then raise s 0x0E04 [(1, n)] else s
  let s2 := setLane s1 n { lane s1 n with mism := (lane s1 n).mism || bad, differs := bad, farPre := bitOf c 11, farLb := bitOf c 12 }
  let s3 := if bitOf c 6 then setTaps s2 n (presetTaps s2 n) else s2
  forEach [0, 1, 2] (fun s i => actTap s n c i) s3

/-- The lane enters LINKUP, or LOOPBACK where the far side asked for it and it is allowed; event 0x0E01 (R139, R145). What it
sends starts from here, with a scrambler state that is free but not zero (R130). Precoding changes at the first marker (R128). -/
def laneUp (s : State) (n elapsed : Nat) : State :=
  let x := lane s n
  let lb := x.farLb && flag s (F.WLN_LANEn_CTRL_LOOPBACK_EN n)
  let up : Lane := { freshLane x with
    good := taps s n
    missed := 0
    cwN := 0
    bad := []
    inj := []
    fresh := true
    txPre := x.farPre
    since := s.wire.length
    seed := nonZero 58 (freeOf s)
    draw := s.free }
  let s1 := setLane (raise (drawn s) 0x0E01 [(1, n)]) n up
  let rate := fld s (F.WLN_LANEn_CFG_RATE n)
  let s2 := setFld (setFld s1 (F.WLN_LANEn_STATUS_RATE n) rate) (F.WLN_LANEn_STATUS_FEC_ON n)
    (b2n (decide (2 ≤ rate) || flag s (F.WLN_LANEn_CFG_FEC n)))
  portReady (setLaneState (setFld s2 (F.WLN_LANEn_TRAIN_TIME n) elapsed) n (if lb then lnLOOPBACK else lnLINKUP)) (n / 2)

/-- The receiver's own requests after a frame with the far status word `st`: a request is kept until its reply reads other than
NOT_UPDATED and then returns to HOLD; with none standing, the receiver may ask for one step of one tap, and for the preset, as
`want` names them (R138). -/
def nextReq (req st want : Nat) : Nat :=
  let held := [0, 1, 2].find? fun i => bits req (2 * i) 2 != 0
  let asked := [0, 1, 2].find? fun i => bits want (2 * i) 2 == 1 || bits want (2 * i) 2 == 2
  let pre := bits want 6 1 * 2 ^ 6
  match held with
  | some i => pre + (if bits st (2 * i) 2 = 0 then bits req (2 * i) 2 * 2 ^ (2 * i) else 0)
  | none => pre + (match asked with | some i => bits want (2 * i) 2 * 2 ^ (2 * i) | none => 0)

/-- The lane's receiver acts on a far status word that passes its check. -/
def takeStatus (s : State) (n st want : Nat) : State := setLane s n { lane s n with req := nextReq (lane s n).req st want }

/-- One training frame's step of the lane state machine (R139). -/
def trainStep (s : State) (n c : Nat) (valid fillErr : Bool) (elapsed : Nat) : State :=
  let x := lane s n
  let pending := bits x.req 0 6 != 0
  if laneState s n = lnDETECT then
    (if !valid then setLane s n { x with frames := 0 }
     else if x.frames + 1 < 2 then setLane s n { x with frames := x.frames + 1 }
     else setLaneState (setLane s n { x with frames := 0, clean := 0 }) n lnTRAIN)
  else if laneState s n = lnTRAIN then
    (if fillErr || pending then setLane s n { x with clean := 0 }
     else if x.clean + 1 < 4096 || x.differs then setLane s n { x with clean := x.clean + 1 }
     else setLaneState (setLane s n { x with clean := 0, ready := 0 }) n lnREADY_WAIT)
  else
    (if fillErr || x.differs then setLaneState (setLane s n { x with clean := 0, ready := 0 }) n lnTRAIN
     else if !(valid && bitOf c 7) then setLane s n { x with ready := 0 }
     else if x.ready + 1 < 8 then setLane s n { x with ready := x.ready + 1 }
     else laneUp s n elapsed)

/-- A training frame at a lane. In LINKUP it takes the lane down, in LOOPBACK back to DETECT (R140, R145). `inverted` tells that
the marker symbols came as −3 and then +3, `c0` and `st0` are the words as their levels spell them: with every level inverted
they read as their complements (R134). -/
def trainingFrame (s : State) (n c0 st0 : Nat) (inverted fillErr : Bool) (want elapsed : Nat) : State :=
  let c := if inverted then 2 ^ 64 - 1 - c0 else c0
  let st := if inverted then 2 ^ 64 - 1 - st0 else st0
  let valid := wordOk c && wordOk st
  let x := laneState s n
  if x = lnOFF then s
  else if x = lnLINKUP then (if valid then laneDown s n 3 else s)
  else if x = lnLOOPBACK then (if valid then toDetect (setTaps s n (lane s n).good) n else s)
  else
    let s1 := setFld s (F.WLN_LANEn_STATUS_RX_INVERTED n) (b2n inverted)
    let s2 := if wordOk c then takeControl s1 n c else s1
    let s3 := if wordOk st then takeStatus s2 n st want else s2
    trainStep s3 n c valid fillErr elapsed

def execTrainingFrame (n : Fin 8) (control status : BitVec 64) (inverted fillErr : Bool) (want : BitVec 7) (elapsed : BitVec 16)
    (s : State) : Host.Outcome State Fault Refusal :=
  done (trainingFrame s n control.toNat status.toNat inverted fillErr want.toNat elapsed.toNat)

/-- An attempt of 500 ms ends: DETECT with preset taps, event 0x0E03 (R139). -/
def trainTimeout (s : State) (n : Nat) : State :=
  if laneState s n = lnDETECT ∨ laneState s n = lnTRAIN ∨ laneState s n = lnREADY_WAIT then
    toDetect (setTaps (satInc (raise s 0x0E03 [(1, n)]) (F.WLN_LANEn_TRAIN_ATTEMPTS n)) n (presetTaps s n)) n
  else s

def execTrainTimeout (n : Fin 8) (s : State) : Host.Outcome State Fault Refusal := done (trainTimeout s n)

/-- TRAIN set or cleared; it acts while the port is DISABLED (R139). -/
def laneTrainWrite (s : State) (n : Nat) (on : Bool) : State :=
  let s1 := setFld s (F.WLN_LANEn_CTRL_TRAIN n) (b2n on)
  if portState s (n / 2) ≠ pDISABLED ∨ (port s (n / 2)).idling = true then s1
  else if on then laneStart s1 n else laneOff s1 n

def execLaneTrainWrite (n : Fin 8) (on : Bool) (s : State) : Host.Outcome State Fault Refusal := done (laneTrainWrite s n on)

/-! ### Markers, FEC, lane down (R103, R131, R132, R140) -/

/-- Both lanes of a two-lane link go down with cause SKEW. -/
def skewDown (s : State) (n : Nat) : State :=
  if flag s (F.WNG_Pp_CTRL_LANES (n / 2)) then forEach (portLanes s (n / 2)) (fun s m => laneDown s m 4) s else s

/-- An expected marker is missing or in error; the second in a row takes the lane down. -/
def markerBad (s : State) (n : Nat) : State :=
  let s1 := setLane s n { lane s n with missed := (lane s n).missed + 1 }
  if (lane s n).missed + 1 < 2 then s1 else laneDown s1 n 1

/-- A marker passes: MAGIC, CRC over its low 28 bytes and a SEED other than zero (R131). -/
def markerOk (m : Nat) : Bool :=
  bits m 0 64 == 0x7A5C3E91C4B21F68 && bits m 224 32 == crc32c 28 (m % 2 ^ 224) && bits m 64 58 != 0

/-- An alignment marker at a lane in LINKUP: its SEED is loaded and its LIDX kept, by which the lanes of a link are put in order.
At the first one since link-up precoding takes effect, each direction's as its own transmitter has it; that the own first marker
leaves as the far one comes is the model's choice (DESIGN CHOICE, log entry 137). -/
def alignMarker (s : State) (n m : Nat) (missing skew : Bool) : State :=
  if laneState s n ≠ lnLINKUP then s
  else if skew then skewDown s n
  else if missing then markerBad s n
  else if markerOk m then
    let s1 := setLane s n { lane s n with scr := bits m 64 58, lidx := bits m 122 1, missed := 0, fresh := false }
    let s2 := if (lane s n).fresh then setFld s1 (F.WLN_LANEn_STATUS_PRECODE_TX n) (b2n (lane s n).txPre) else s1
    setFld s2 (F.WLN_LANEn_STATUS_PRECODE_RX n) (bits m 124 1)
  else markerBad (satInc s (F.WLN_LANEn_MARKER_ERR_COUNT n)) n

def execAlignmentMarker (n : Fin 8) (marker : BitVec 256) (missing skew : Bool) (s : State) : Host.Outcome State Fault Refusal :=
  done (alignMarker s n marker.toNat missing skew)

def execLos (n : Fin 8) (s : State) : Host.Outcome State Fault Refusal := done (laneDown s n 0)

/-- The order of a link's two lanes as their markers tell it: the lanes of port p by LIDX, not by their place (R132). -/
def lanesInOrder (s : State) (p : Nat) : List Nat :=
  (portLanes s p).filter (fun n => (lane s n).lidx == 0) ++ (portLanes s p).filter (fun n => (lane s n).lidx != 0)

/-- A received lane's bits in the clear: level indices decoded from precoding where the receiver decodes it, and descrambled
from the state that the last marker left (R127, R128, R130). -/
def received (s : State) (n : Nat) (line : List Nat) : List Nat :=
  let g := if flag s (F.WLN_LANEn_STATUS_PRECODE_RX n) then unprecodeAll 0 line else line
  (scrambleBits (lane s n).scr (g.flatMap grayPair)).1

/-- An uncorrectable codeword: its four flits are discarded and counted, and the eighth among 1,024 takes the lane down
(R103, R140); a trunk receiver sends NAK (R121). -/
def fecBad (s : State) (n : Nat) : State :=
  let x := lane s n
  let b := x.cwN :: x.bad.filter fun k => decide (x.cwN < k + 1024)
  let s1 := satInc (raiseMerged s 0x0E05 n [(1, n)]) (F.WLN_LANEn_FEC_UNCORR_COUNT n)
  let s2 := satAdd (setLane s1 n { x with cwN := x.cwN + 1, bad := b }) (F.WNG_Pp_CNT_CRC_CRC (n / 2)) 4
  let s3 := if upTrunk s2 (n / 2) then trunkNak s2 (n / 2) else s2
  if b.length < 8 then s3 else laneDown s3 n 2

/-- The symbols of a codeword, the first byte on the line first (R103; log entry 137). -/
def cwSymbols (cw : Nat) : List Nat := RS.symbols 136 cw

/-- The four flits of a codeword as its bytes stand. -/
def cwFlits (cw : Nat) : List Nat := (List.range 4).map fun i => bits cw (256 * i) 256

/-- A codeword at a lane of the device: corrected symbols are counted, or its flits are discarded. -/
def deviceCodeword (s : State) (n cw : Nat) : State :=
  if laneState s n ≠ lnLINKUP ∨ flag s (F.WLN_LANEn_STATUS_FEC_ON n) = false then s
  else
    match RS.decode 8 [] (cwSymbols cw) with
    | none => fecBad s n
    | some r => satAdd (setLane s n { lane s n with cwN := (lane s n).cwN + 1 }) (F.WLN_LANEn_FEC_CORR_COUNT n) r.2.length

/-- A codeword at a module of lane n's ring: one that cannot be corrected discards its four flits, and each is met as one that
fails its CRC (R103, R109). -/
def moduleCodeword (s : State) (n pos : Nat) (fwd : Bool) (cw : Nat) : State :=
  match RS.decode 8 [] (cwSymbols cw) with
  | none => forEach (cwFlits cw) (fun s f => crcError s (n / 2) pos fwd f) s
  | some _ => s

/-- A codeword at place `pos` of lane n's ring, 0 for the device, on the forward or the return path. The flits of a corrected
codeword come as commands of their own. -/
def fecCodeword (s : State) (n pos : Nat) (fwd : Bool) (cw : Nat) : State :=
  if pos = 0 then deviceCodeword s n cw else moduleCodeword s n pos fwd cw

def execFecCodeword (n : Fin 8) (at_ : Fin 256 × Bool) (cw : BitVec 1088) (s : State) : Host.Outcome State Fault Refusal :=
  done (fecCodeword s n at_.1 at_.2 cw.toNat)

def execLaneRetrain (n : Fin 8) (s : State) : Host.Outcome State Fault Refusal := done (laneDown s n 3)

/-! ### Wake tone, test patterns, injection (R142 to R146) -/

/-- WAKE_TX on a lane that is OFF sends the tone. -/
def wakeTx (s : State) (n : Nat) : State := if laneState s n = lnOFF then setFld s (F.WLN_LANEn_CTRL_WAKE_TX n) 1 else s

def execWakeTx (n : Fin 8) (s : State) : Host.Outcome State Fault Refusal := done (wakeTx s n)

/-- The tone ends; a port enabled meanwhile starts training its lane. -/
def wakeToneEnd (s : State) (n : Nat) : State :=
  let s1 := setFld s (F.WLN_LANEn_CTRL_WAKE_TX n) 0
  if flag s (F.WLN_LANEn_CTRL_WAKE_TX n) && (portState s (n / 2) == pTRAINING && (portLanes s (n / 2)).contains n || flag s (F.WLN_LANEn_CTRL_TRAIN n)) then
    laneStart s1 n else s1

def execWakeToneEnd (n : Fin 8) (s : State) : Host.Outcome State Fault Refusal := done (wakeToneEnd s n)

/-- A write of WLN_LANEn_TEST: a pattern other than OFF takes effect only in LINKUP with the port DISABLED. A changed
checker pattern loses lock, and a changed generator starts anew. -/
def testWrite (s : State) (n w : Nat) : State :=
  let ok := laneState s n == lnLINKUP && portState s (n / 2) == pDISABLED
  let s0 := setFld s (F.WLN_LANEn_TEST_SQ_HALF n) (bits w 8 5)
  let s1 := if bits w 0 3 = fld s (F.WLN_LANEn_TEST_GEN n) then s0 else setLane (drawn s0) n { lane s n with draw := s.free }
  let s2 := if ok || patternOff (bits w 0 3) then setFld s1 (F.WLN_LANEn_TEST_GEN n) (bits w 0 3) else s1
  if (ok || patternOff (bits w 4 3)) && bits w 4 3 != fld s2 (F.WLN_LANEn_TEST_CHK n) then
    setFld (setFld s2 (F.WLN_LANEn_TEST_CHK_LOCK n) 0) (F.WLN_LANEn_TEST_CHK n) (bits w 4 3)
  else s2

def execTestPatternWrite (n : Fin 8) (value : Word) (s : State) : Host.Outcome State Fault Refusal := done (testWrite s n value.toNat)

/-- The checker's lock: what it counted while in lock is added, then CHK_LOCK shows whether it is in lock (R144). -/
def chkLock (s : State) (n : Nat) (gained : Bool) (errs syms : Nat) : State :=
  if patternOff (fld s (F.WLN_LANEn_TEST_CHK n)) then s
  else
    let s1 := if flag s (F.WLN_LANEn_TEST_CHK_LOCK n) then
        satAdd (satAdd s (F.WLN_LANEn_ERRCNT_ERRORS n) errs) (F.WLN_LANEn_SYMCNT_SYMBOLS n) syms else s
    setFld s1 (F.WLN_LANEn_TEST_CHK_LOCK n) (b2n gained)

def execChkLock (n : Fin 8) (gained : Bool) (errs : BitVec 32) (syms : BitVec 48) (s : State) : Host.Outcome State Fault Refusal :=
  done (chkLock s n gained errs.toNat syms.toNat)

/-- The lane sends what an injection alters. -/
def injectable (s : State) (n : Nat) : Bool := laneState s n == lnLINKUP || laneState s n == lnLOOPBACK

/-- The next `k` symbols' level indices are exclusive-ored with 1. -/
def injectSymbols (s : State) (n k : Nat) : State :=
  if injectable s n then setLane (drawn s) n { lane s n with inj := (lane s n).inj ++ [(nextSymbol s n, k)] } else s

def execInjectSymbol (n : Fin 8) (s : State) : Host.Outcome State Fault Refusal := done (injectSymbols s n 1)

def execInjectBurst (n : Fin 8) (s : State) : Host.Outcome State Fault Refusal :=
  done (injectSymbols s n (fld s (F.WLN_LANEn_INJECT_BURST_LEN n) + 1))

/-- Bit 224 of the next flit is inverted. -/
def injectCrc (s : State) (n : Nat) : State := if injectable s n then setLane s n { lane s n with injCrc := true } else s

def execInjectCrc (n : Fin 8) (s : State) : Host.Outcome State Fault Refusal := done (injectCrc s n)

/-- A read of the lower word of WLN_LANEn_SYMCNT latches the upper word and clears the count. -/
def symcntRead (s : State) (n : Nat) : State :=
  setFld (latchUpper s (0x0E005C + 0x1000 * n) (fld s (F.WLN_LANEn_SYMCNT_SYMBOLS n) / 2 ^ 32)) (F.WLN_LANEn_SYMCNT_SYMBOLS n) 0

def execSymcntRead (n : Fin 8) (s : State) : Host.Outcome State Fault Refusal := done (symcntRead s n)

/-- A BLOCK reset of WLN: every lane OFF at once, taps at the preset, test and injection cleared (R149). The port of a
lane that leaves LINKUP follows (R116). -/
def wlnReset (s : State) : State :=
  let up := (List.range 8).filter fun n => laneState s n == lnLINKUP
  let s1 := forEach up (fun s n => portLaneDown (rclkLost s n) (n / 2)) s
  resetBlockRegs { s1 with lanes := [] } 0x0E

end Sys2Proof.Machine
end

