-- ==== Sys2Proof/Machine/Rail8.lean ====
section
/-! DEFINITION. Rail 8 (R86), and the start of a device wake (R445, R446), which the engines and regions share. -/
namespace Sys2Proof.Machine

/-! ### Wakes -/

/-- The first step of R447 that applies to a state left. -/
def firstWakeStep (st : Nat) : Nat :=
  if st = wIDLE then 11 else if st = wSLEEP then 8 else if st = wDEEP then 7 else 1

/-- The source is listened to in the power state (R446): WAKE_N 0, TONE 1, PCIE 2, TIMER 3, INTERNAL 4, SOFTWARE 5. -/
def sourceListens (st src : Nat) : Bool :=
  if st = wRUN then false
  else if st = wOFF then src == 0
  else if src = 4 ∨ src = 5 then st == wIDLE
  else true

/-- The gates of an entry are withdrawn: it is refused with GATE (R443, R424). -/
def entryWithdrawn (s : State) : State :=
  let s1 := setFld (setFld (raise s 0x0302 [(1, 8)]) F.PWR_STATUS_REFUSE 8) F.PWR_STATUS_PHASE 0
  { s1 with pwr := { s1.pwr with step := 0, closed := false } }

/-- FRO starts (R447). -/
def froStart (s : State) : State := setFld (setFld { s with clk := { s.clk with fro := 0 } } F.CLK_STATUS_FRO_STABLE 0) F.CLK_STATUS_SYSCLK 1

/-- A wake starts: PHASE reads WAKING and the first step is due. -/
def wakeStart (s : State) : State :=
  let st := pwrState s
  let s1 := setFld (if st = wSLEEP then froStart s else s) F.PWR_STATUS_PHASE 2
  { s1 with pwr := { left := st, step := firstWakeStep st } }

/-- A wake source occurs (R446, R450). During step 1 of an entry it withdraws the entry's gates, and the entry is refused
with GATE; during a later step it is kept for the end of the entry; during a wake it is only recorded. -/
def wakeSource (s : State) (src : Nat) : State :=
  if bitOf (fld s F.PWR_WAKE_EN_SOURCES) src = false ∧ src ≠ 0 then s
  else
    let cause := setFld s F.PWR_WAKE_CAUSE_CAUSE (fld s F.PWR_WAKE_CAUSE_CAUSE ||| 2 ^ src)
    if pwrPhase s = 1 then
      (if sourceListens s.pwr.target src = false then s
       else if s.pwr.step = 1 then
         entryWithdrawn cause
       else { cause with pwr := { cause.pwr with late := true } })
    else if sourceListens (pwrState s) src = false then s
    else if pwrPhase s = 2 then cause
    else wakeStart cause

/-- An engine or a region is woken while an entry closes the gates: the entry gives way (R424, R450). -/
def entryWake (s : State) : State :=
  if pwrPhase s = 1 ∧ s.pwr.step = 1 then
    let s1 := wakeSource s 4
    if pwrPhase s1 = 1 then entryWithdrawn s1 else s1
  else s

/-! ### Rail 8 -/

/-- WINDOW of rail 8 in ns. -/
def r8Window (s : State) : Nat := fld s F.DSP_RAIL8_CFG_WINDOW * 1000

/-- The step count of rail 8 over its window. -/
def r8Count (s : State) : Nat := stepsIn s 8 (r8Window s) (now s)

/-- The kind of a request: 0 REGION_START, 1 ENGINE_WAKE, 2 PLANE_LOAD (R538). -/
def r8Kind : R8Req → Nat
  | .regionStart _ => 0
  | .regionPulse _ _ => 0
  | .engineWake _ => 1
  | .planeLoad _ _ => 2

/-- The charge of a kind of request (DSP_RAIL8_COST). -/
def r8CostOf (s : State) (kind : Nat) : Nat :=
  match kind with
  | 0 => fld s F.DSP_RAIL8_COST_REGION_START
  | 1 => fld s F.DSP_RAIL8_COST_ENGINE_WAKE
  | _ => fld s F.DSP_RAIL8_COST_PLANE_LOAD

/-- The step limit is overrun: OVER counts it, with event 0x090A. -/
def r8Over (s : State) (kind : Nat) : State := satInc (raise s 0x090A [(1, kind)]) F.DSP_RAIL8_STATUS_OVER

/-- A step on rail 8 now; none while the rail is not rationed. -/
def r8Step (s : State) (c : Nat) : State := if flag s F.DSP_RAIL8_CFG_ENABLE then addStep s ⟨8, 0, now s, c⟩ else s

/-- A request driven by an internal Timetable entry: charged in its slot and never held (R86). -/
def r8Charge (s : State) (kind : Nat) : State :=
  let c := r8CostOf s kind
  let s1 := r8Step s c
  if flag s F.DSP_RAIL8_CFG_ENABLE && decide (fld s F.DSP_RAIL8_STEP_STEP < r8Count s + c) then r8Over s1 kind else s1

/-- WAITING shows how many requests wait. -/
def r8Waiting (s : State) : State := setFld s F.DSP_RAIL8_STATUS_WAITING s.dsp.r8queue.length

/-- A request waits on rail 8; one that waits already is not put in twice. -/
def r8Request (s : State) (r : R8Req) : State :=
  if s.dsp.r8queue.contains r then s else r8Waiting (setDsp s { s.dsp with r8queue := s.dsp.r8queue ++ [r] })

/-- Requests that a condition names are withdrawn. -/
def r8Withdraw (s : State) (c : R8Req → Bool) : State :=
  r8Waiting (setDsp s { s.dsp with r8queue := s.dsp.r8queue.filter fun r => !c r })

/-- The head of the queue can be admitted: it fits, or its charge alone exceeds STEP and the window is empty. -/
def r8Fits (s : State) (r : R8Req) : Bool :=
  let c := r8CostOf s (r8Kind r)
  let lim := fld s F.DSP_RAIL8_STEP_STEP
  !flag s F.DSP_RAIL8_CFG_ENABLE || decide (r8Count s + c ≤ lim) || (decide (lim < c) && r8Count s == 0)

/-- The head's admission: its charge, and an overrun where its charge alone exceeds STEP. -/
def r8Admit (s : State) (r : R8Req) : State :=
  let c := r8CostOf s (r8Kind r)
  let s1 := r8Waiting (r8Step (setDsp s { s.dsp with r8queue := s.dsp.r8queue.tail }) c)
  if flag s F.DSP_RAIL8_CFG_ENABLE && decide (fld s F.DSP_RAIL8_STEP_STEP < c) then r8Over s1 (r8Kind r) else s1

end Sys2Proof.Machine
end

