-- ==== Sys2Proof/Machine/FabOps.lean ====
section
/-! DEFINITION. The fabric regions (chapters 09 to 12): their clocks, waking and stopping, planes, vertical-track
claims, cuffs, and the frames that configure them. -/
namespace Sys2Proof.Machine

/-- The clocks of engines and regions are closed by a power state or its entry (R444). -/
def pwrClosed (s : State) : Bool := pwrState s != wRUN || s.pwr.closed

/-- The stack position of logic die d and of configuration die d (R17). -/
def logicPos (d : Nat) : Nat := 3 * d - 2
def confPos (d : Nat) : Nat := 3 * d - 1

/-- The die (1–3) of region r. -/
def regDie (r : Nat) : Nat := r / 24 + 1

/-- The region sleeps (R210), or is frozen by the debugger (R488). -/
def regAsleep (s : State) (r : Nat) : Bool := flag s (F.FAB_REGr_STATUS_SLEEPING r)
def regFrozen (s : State) (r : Nat) : Bool := flag s (F.DBG_REGr_STATUS_FROZEN r)

/-- The region runs (R238): RELEASED, or LOADING with its clocks running; asleep or not. -/
def regRuns (s : State) (r : Nat) : Bool := regState s r == gRELEASED || (regState s r == gLOADING && (region s r).run)

/-- Thermal cycle skipping suppresses the region's edges now: the first SKIP × 16 ns of each 128 ns window of ring time
(R457). -/
def regSkipped (s : State) (r : Nat) : Bool :=
  let st := fld s F.THM_STATUS_STATE
  let k := if st = 1 then fld s F.THM_THROTTLE_SKIP_WARN else if 2 ≤ st then fld s F.THM_THROTTLE_SKIP_CRIT else 0
  flag s F.THM_CTRL_ENABLE && !bitOf (fld s F.THM_EXEMPT_REGIONS) r && decide (now s % 128 < 16 * k)

/-- The region's clocks tick. -/
def regTicks (s : State) (r : Nat) : Bool :=
  regRuns s r && !regSkipped s r && (region s r).run && !regAsleep s r && clocksOn s && !dieInReset s (logicPos (regDie r))
  && (!regFrozen s r || flag s (F.DBG_REGr_STATUS_PULSING r))

/-- The global clock that region clock n takes, and the fabric PLL that drives it (R209, R413). -/
def regClkSel (s : State) (r n : Nat) : Nat :=
  match n with
  | 0 => fld s (F.FAB_REGr_CLK_SEL0 r)
  | 1 => fld s (F.FAB_REGr_CLK_SEL1 r)
  | 2 => fld s (F.FAB_REGr_CLK_SEL2 r)
  | _ => fld s (F.FAB_REGr_CLK_SEL3 r)
def regPll (s : State) (r n : Nat) : Nat := 8 * (r / 24) + regClkSel s r n / 2

/-- Region clock n of the region is enabled, and the fabric PLL behind it gives edges (R209, R414). -/
def regClkEn (s : State) (r n : Nat) : Bool :=
  bitOf (fld s (F.FAB_REGr_CLK_EN r)) n && fpllOn s (regPll s r n)

/-! ### Waking (R210) -/

/-- A sleeping region's clocks restart: its wake is counted. -/
def regionRestart (s : State) (r : Nat) : State :=
  if regAsleep s r then
    let s1 := setFld (setFld s (F.FAB_REGr_STATUS_SLEEPING r) 0) (F.FAB_REGr_CTRL_WAKE r) 0
    setRegion (satInc s1 (F.FAB_REGr_WAKES_WAKES r)) r { region s1 r with owed := 0 }
  else setFld s (F.FAB_REGr_CTRL_WAKE r) 0

/-- A wake cause of a region (R210, R424, R445): `charged` for one in the slot of an internal entry, else requested on
rail 8. A sleep request that awaits its acknowledgement is withdrawn without a charge; a device whose clocks a power
state has closed first returns to RUN. -/
def regionWake (s0 : State) (r : Nat) (charged : Bool) : State :=
  let s := if regRuns s0 r then entryWake s0 else s0
  if !regRuns s r then s
  else if (region s r).gateReq then setFld (setRegion s r { region s r with gateReq := false }) (F.FAB_REGr_CTRL_WAKE r) 0
  else if pwrClosed s then
    let s1 := wakeSource s 4
    if regAsleep s1 r then setRegion s1 r { region s1 r with owed := max (region s1 r).owed (if charged then 2 else 1) } else s1
  else if !regAsleep s r then setFld s (F.FAB_REGr_CTRL_WAKE r) 0
  else if charged then regionRestart (r8Charge (r8Withdraw s fun x => x == R8Req.regionStart r) 0) r
  else r8Request s (.regionStart r)

/-! ### States and flip-flops -/

/-- A region's state changes, with event 0x0701 (R217). -/
def setRegState (s : State) (r x : Nat) : State :=
  if regState s r = x then s
  else setFld (raise s 0x0701 [(1, r), (1, regState s r), (1, x)]) (F.FAB_REGr_STATUS_STATE r) x

/-- The context in force, the target of a sampled switch, and whether one is sampled. -/
def ctxOf (s : State) (r : Nat) : Nat := fld s (F.CTX_REGr_ACTIVE_CTX r)
def switching (s : State) (r : Nat) : Bool := flag s (F.CTX_REGr_ACTIVE_SWITCHING r)

/-- The state of plane k (R235): 0 EMPTY, 1 LOADING, 2 READY, 3 UNCORR. -/
def planeState (s : State) (r k : Nat) : Nat := bits (fld s (F.CTX_REGr_PLANES_PLANES r)) (2 * k) 2

/-- The state of plane k set. -/
def setPlane (s : State) (r k x : Nat) : State :=
  setFld s (F.CTX_REGr_PLANES_PLANES r) (putBits (fld s (F.CTX_REGr_PLANES_PLANES r)) (2 * k) 2 x)

/-- The plane can become the running context: READY and not being cleared. -/
def planeReady (s : State) (r k : Nat) : Bool := planeState s r k == 2 && !(region s r).clearing.contains k

/-- Every plane of the region is EMPTY. -/
def planesEmpty (s : State) (r : Nat) : Bool := fld s (F.CTX_REGr_PLANES_PLANES r) == 0

/-- The PRIVATE copies of context k are 0. -/
def clearPriv (s : State) (r k : Nat) : State :=
  setRegion s r { region s r with priv := smDrop (region s r).priv (800 * k) (800 * k + 800) }

/-- Plane k counts as active for writes and clears: in force in a running region, or the target of a sampled switch
(R247, R248). -/
def planeActive (s : State) (r k : Nat) : Bool := regRuns s r && (ctxOf s r == k || (region s r).switches.contains k)

/-! ### Frames (R339 to R344) -/

/-- The kinds of frame. -/
def kLOGIC := 0
def kBMINIT := 1
def kCUFF := 2
def kMODES := 3

/-- The kind of a configuration word that the scrubber reads: LOGIC, MODES or CUFF (R249). -/
def scrubKind (x : Nat) : Nat := match x with | 0 => kLOGIC | 1 => kMODES | _ => kCUFF

/-- The key of a LOGIC or MODES frame. -/
def frameKey (kind r k tile : Nat) : Nat := ((kind * 72 + r) * 4 + k) * 800 + tile

/-- The 16,384 bits of a frame as the plane holds them. -/
def frameAt (s : State) (kind r k tile : Nat) : Nat := smGet s.fab.frames (frameKey kind r k tile) 0

/-- The fabric replaced. -/
def setFab (s : State) (x : Fabric) : State := { s with fab := x }

/-- A frame written into a plane. -/
def putFrame (s : State) (kind r k tile v : Nat) : State :=
  let key := frameKey kind r k tile
  setFab s { s.fab with frames := smSet s.fab.frames key (v % 2 ^ 16384) 0, uncorr := smSet s.fab.uncorr key 0 0 }

/-- A plane written to zero. -/
def zeroPlane (s : State) (r k : Nat) : State :=
  let cut := fun (m : SMap Nat) (kind : Nat) => smDrop m (frameKey kind r k 0) (frameKey kind r k 800)
  setFab s { s.fab with
    frames := cut (cut s.fab.frames kLOGIC) kMODES
    uncorr := cut (cut s.fab.uncorr kLOGIC) kMODES }

/-- A tile anchors a block memory or a multiplier block (R202, R208). -/
def anchorsBm (tile : Nat) : Bool := tile % 40 % 4 == 0 && tile / 40 % 4 == 0
def anchorsMul (tile : Nat) : Bool := tile % 40 % 4 == 0 && tile / 40 % 5 == 0

/-- The anchor tile of block memory i. -/
def bmTile (i : Nat) : Nat := 40 * (4 * (i / 10)) + 4 * (i % 10)

/-- The index of the block memory that a tile anchors. -/
def bmIndex (tile : Nat) : Nat := 10 * (tile / 160) + tile % 40 / 4

/-! ### Vertical tracks (R223 to R231) -/

/-- The die column and row of a tile of a region (R194). -/
def tileCol (r tile : Nat) : Nat := 40 * (r % 24 % 4) + tile % 40
def tileRow (r tile : Nat) : Nat := 20 * (r % 24 / 4) + tile / 40

/-- Endpoint e exists on the die. -/
def epExists (d e : Nat) : Bool := if e < 16 then d == 1 || d == 2 else d == 2 || d == 3

/-- The track of endpoint e of a tile. -/
def trackOf (r tile e : Nat) : Nat := 307200 * (e / 16) + 16 * (160 * tileRow r tile + tileCol r tile) + e % 16

/-- The end of a region's endpoint e as a claim value: 1 LOWER, 2 UPPER. -/
def endOf (r e : Nat) : Nat := if regDie r = e / 16 + 1 then 1 else 2

/-- Routing-word bit w as a frame bit (R222). -/
def routeBit (w : Nat) : Nat := 256 * (w / 108) + 148 + w % 108

/-- VDENe of a LOGIC frame. -/
def vden (f e : Nat) : Bool := bitOf f (routeBit (1584 + 10 * e + 9))

/-- The claim of track t in context k. -/
def claimOf (s : State) (t k : Nat) : Nat := smGet s.fab.claims (4 * t + k) 0

/-- The endpoints of a region's tile that a LOGIC frame enables. -/
def enabledEps (r f : Nat) : List Nat := (List.range 32).filter fun e => epExists (regDie r) e && vden f e

/-- The frame would add a second driver (R226). -/
def contends (s : State) (r k tile f : Nat) : Bool :=
  (enabledEps r f).any fun e => let c := claimOf s (trackOf r tile e) k; c != 0 && c != endOf r e

/-- The claims of an accepted frame. A claim lost to an error does not return before both contexts have been cleared (R231). -/
def makeClaims (s : State) (r k tile f : Nat) : State :=
  forEach (enabledEps r f) (fun s e =>
    let c := 4 * trackOf r tile e + k
    if smGet s.fab.lost c 0 = 0 then setFab s { s.fab with claims := smSet s.fab.claims c (endOf r e) 0 } else s) s

/-- The region that holds the lower end of a track, and the one that holds the upper end (R223). -/
def homeRegion (t : Nat) : Nat :=
  let xy := t % 307200 / 16
  24 * (t / 307200) + (xy % 160) / 40 + 4 * (xy / 160 / 20)
def endRegion (t x : Nat) : Nat := if x = 1 then homeRegion t else homeRegion t + 24

/-- The tile number, within its region, of the tile a track joins. -/
def trackTile (t : Nat) : Nat := let xy := t % 307200 / 16; 40 * (xy / 160 % 20) + xy % 160 % 40

/-- What a lost claim still waits for once context k of region r is cleared: 1 LOWER, 2 UPPER, 3 both. -/
def lostAfter (r k : Nat) (c : Nat × Nat) : Nat :=
  if c.1 % 4 ≠ k then c.2
  else if homeRegion (c.1 / 4) = r then c.2 / 2 * 2
  else if homeRegion (c.1 / 4) + 24 = r then c.2 % 2
  else c.2

/-- Every claim (t, k) held by the region's end is removed (R227), and claims lost to an error no longer wait for it (R231). -/
def dropClaims (s : State) (r k : Nat) : State :=
  setFab s { s.fab with
    claims := s.fab.claims.filter fun c => !(c.1 % 4 == k && endRegion (c.1 / 4) c.2 == r)
    lost := (s.fab.lost.map fun c => (c.1, lostAfter r k c)).filter fun c => c.2 != 0 }

/-- The end that drives track t now: 0 none, 1 LOWER, 2 UPPER (R228). -/
def driverOf (s : State) (t : Nat) : Nat :=
  let k := ctxOf s (homeRegion t)
  let x := claimOf s t k
  let e := 16 * (t / 307200) + t % 16
  if x ≠ 0 ∧ vden (frameAt s kLOGIC (endRegion t x) k (trackTile t)) e = true then x else 0

/-! ### Cuffs (R218, R259 to R261) -/

/-- Outgoing wire j of a tile crosses a border of its region within the die. -/
def wireCrosses (r tile j : Nat) : Bool :=
  let k := j % 28
  let len := if k < 16 then 1 else if k < 24 then 4 else 16
  let x := tileCol r tile
  let y := tileRow r tile
  match j / 28 with
  | 0 => decide (y + len < 120) && decide (19 < tile / 40 + len)
  | 1 => decide (x + len < 160) && decide (39 < tile % 40 + len)
  | 2 => decide (len ≤ y) && decide (tile / 40 < len)
  | _ => decide (len ≤ x) && decide (tile % 40 < len)

/-- The cuff of an index of FAB_CUFF_QUERY exists: a wire that crosses a border, or an endpoint of the die. -/
def cuffExists (r tile i : Nat) : Bool :=
  decide (r < 72) && decide (tile < 800) &&
  (if i < 112 then wireCrosses r tile i else decide (i < 144) && epExists (regDie r) (i - 112))

/-- The committed cuff frame of a tile. -/
def cuffFrame (s : State) (r tile : Nat) : Nat := smGet s.fab.cuffs (r * 800 + tile) 0

/-- The configured mode of a cuff. -/
def cuffMode (s : State) (r tile i : Nat) : Nat := bits (cuffFrame s r tile) (2 * i) 2

/-- Every cuff of the region is in PASS (R260): it is RELEASED, and its die is not in reset, nor has been without a release edge
since. -/
def cuffsPass (s : State) (r : Nat) : Bool := regState s r == gRELEASED && (region s r).run && !dieInReset s (logicPos (regDie r))

/-- The effective mode: PASS while the region is RELEASED; else the configured mode, where PASS acts as HOLD. -/
def cuffEff (s : State) (r tile i : Nat) : Nat :=
  if cuffsPass s r then 3 else if cuffMode s r tile i = 3 then 2 else cuffMode s r tile i

/-! ### Ownership (R262, R263) -/

/-- Function f of the endpoint beside its registers. -/
def pciFn (s : State) (f : Nat) : PciFn := smGet s.pci.fns f {}
def setPciFn (s : State) (f : Nat) (x : PciFn) : State := { s with pci := { s.pci with fns := smSet s.pci.fns f x {} } }

/-- Bank b, or user function f, is owned by region r. -/
def ownsBank (s : State) (r b : Nat) : Bool := flag s (F.FAB_BANKb_OWN_VALID b) && fld s (F.FAB_BANKb_OWN_REGION b) == r
def ownsFunc (s : State) (r f : Nat) : Bool := flag s (F.FAB_FUNCf_OWN_VALID f) && fld s (F.FAB_FUNCf_OWN_REGION f) == r

/-- What the hard identity inputs of a fabric give for function f: values of the fabric's own design, free here (R376). -/
def identOf (d f : Nat) : UfIdent :=
  let v := fun i => Config.freeReg d (16 * f + i)
  let size := fun i => let n := v i % 32; if 13 ≤ n ∧ n ≤ 30 then n else 0
  ⟨v 0 % 2 ^ 16, v 1 % 2 ^ 24, v 2 % 2 ^ 16, size 3, size 4, v 5 % 2 == 1, v 6 % 2 == 1⟩

/-- The identities of the region's functions are sampled at its first release edge since it left EMPTY (R376). -/
def sampleIdents (s : State) (r : Nat) : State :=
  let fs := [1, 2, 3].filter fun f => ownsFunc s r f && (!(region s r).released || (pciFn s f).ident.isNone)
  if fs.isEmpty then s else forEach fs (fun s' f => setPciFn s' f { pciFn s' f with ident := some (identOf s.free f) }) (drawn s)

/-- A function whose owner changes begins anew. -/
def forgetFunc (s : State) (f : Nat) : State := setPciFn s f {}

/-- The region's ownership of banks and functions ends. -/
def dropOwnership (s : State) (r : Nat) : State :=
  let s1 := forEach ((List.range 10).filter (ownsBank s r)) (fun s b =>
    setFld (setFld (setFld s (F.FAB_BANKb_OWN_VALID b) 0) (F.FAB_BANKb_OWN_REGION b) 0) (F.FAB_BANKb_OWN_PADSTOP b) 0) s
  forEach ([1, 2, 3].filter (ownsFunc s1 r)) (fun s f => setFld (setFld s (F.FAB_FUNCf_OWN_VALID f) 0) (F.FAB_FUNCf_OWN_REGION f) 0) s1

/-- The BANKS and FUNCS fields of a tile-0 cuff frame. -/
def frameBanks (f : Nat) : List Nat := (List.range 10).filter fun b => bitOf f (288 + b)
def frameFuncs (f : Nat) : List Nat := [1, 2, 3].filter fun i => bitOf f (307 + i)

/-- A tile-0 cuff frame names a bank or function that another region owns (R262). -/
def ownedElsewhere (s : State) (r f : Nat) : Bool :=
  (frameBanks f).any (fun b => flag s (F.FAB_BANKb_OWN_VALID b) && !ownsBank s r b)
  || (frameFuncs f).any fun i => flag s (F.FAB_FUNCf_OWN_VALID i) && !ownsFunc s r i

/-- A committed tile-0 cuff frame makes the region the owner of what it names, and of nothing else; what another region
owns stays with it. -/
def takeOwnership (s : State) (r f : Nat) : State :=
  let s1 := dropOwnership s r
  let s2 := forEach ((frameBanks f).filter fun b => !flag s1 (F.FAB_BANKb_OWN_VALID b)) (fun s b =>
    setFld (setFld (setFld s (F.FAB_BANKb_OWN_VALID b) 1) (F.FAB_BANKb_OWN_REGION b) r) (F.FAB_BANKb_OWN_PADSTOP b) (bits f (298 + b) 1)) s1
  let s3 := forEach ((frameFuncs f).filter fun i => !flag s1 (F.FAB_FUNCf_OWN_VALID i)) (fun s i => setFld (setFld s (F.FAB_FUNCf_OWN_VALID i) 1) (F.FAB_FUNCf_OWN_REGION i) r) s2
  forEach ([1, 2, 3].filter fun i => ownsFunc s r i != ownsFunc s3 r i) forgetFunc s3

/-- A region becomes EMPTY: its ownership ends, and its functions are hidden (R254, R262, R264). -/
def regionEmpty (s : State) (r : Nat) : State :=
  let s0 := forEach ([1, 2, 3].filter (ownsFunc s r)) forgetFunc s
  let s1 := dropOwnership (setRegState s0 r gEMPTY) r
  setRegion s1 r { region s1 r with released := false }

/-! ### Planes emptied (R227, R248, R360, R366, R492) -/

/-- The region's bit of CFG_ENC_REGIONS clears once all its planes are EMPTY, and that of DBG_PATCHED once no READY
plane that a debug write touched remains. -/
def planeMarks (s : State) (r : Nat) : State :=
  let keep := (region s r).patched.filter fun k => planeState s r k == 2
  let s1 := setRegion s r { region s r with patched := keep }
  let s2 := if planesEmpty s1 r then setFld s1 F.CFG_ENC_REGIONS_REGIONS (putBits (fld s1 F.CFG_ENC_REGIONS_REGIONS) r 1 0) else s1
  if keep.isEmpty then setFld s2 F.DBG_PATCHED_REGIONS (putBits (fld s2 F.DBG_PATCHED_REGIONS) r 1 0) else s2

/-! ### Block memories -/

/-- Block memory i of region r. -/
def bm (s : State) (r i : Nat) : Bm := smGet s.fab.bms (r * 50 + i) {}

/-- A block memory replaced. -/
def setBm (s : State) (r i : Nat) (x : Bm) : State := setFab s { s.fab with bms := smSet s.fab.bms (r * 50 + i) x {} }

/-- A release or START whose active plane is not READY is refused (R258, R265): `src` 0 a session, 1 START. -/
def releaseRefused (s : State) (r src : Nat) : State :=
  satInc (raise s 0x0705 [(1, r), (1, src), (1, 0)]) (F.FAB_REGr_RC_REFUSED r)

/-- Rail 8 has admitted a region's start: a sleeping region wakes, a frozen one resumes, any other awaits its release
edge. -/
def startAdmitted (s : State) (r : Nat) : State :=
  if regAsleep s r then regionRestart s r
  else if regFrozen s r then setFld (setFld s (F.DBG_REGr_STATUS_FROZEN r) 0) (F.DBG_REGr_CTRL_FREEZE r) 0
  else if regRuns s r && (region s r).run then s
  else setRegion s r { region s r with starting := true }

end Sys2Proof.Machine
end

