-- ==== Sys2Proof/Machine/FabLogic.lean ====
section
/-! DEFINITION. The fabric's logic (chapters 09 to 11): cells, local lines, wires, cuffs and vertical tracks as the planes
in force configure them, and what flip-flops, multiplier blocks and block memories do on an edge of a region clock. -/
namespace Sys2Proof.Machine

/-! ### Configuration fields (R200, R222) -/

/-- The LOGIC frame of a tile in the context in force. -/
def liveFrame (s : State) (r tile : Nat) : Nat := frameAt s kLOGIC r (ctxOf s r) tile

/-- A field of `n` bits at bit w of a tile's routing word (R222). -/
def routeField (f w n : Nat) : Nat := (List.range n).foldr (fun i v => b2n (bitOf f (routeBit (w + i))) + 2 * v) 0

/-- LSELi, WSELj, VSRCe and CSELc (R222). -/
def lsel (f i : Nat) : Nat := routeField f (9 * i) 9
def wsel (f j : Nat) : Nat := routeField f (576 + 9 * j) 9
def vsrc (f e : Nat) : Nat := routeField f (1584 + 10 * e) 9
def csel (f c : Nat) : Nat := routeField f (1904 + 8 * c) 8

/-- The LUT mode of cell c, its CINIT, and the select of its input k. -/
def lutMode (f c : Nat) : Nat := bits f (256 * c + 64) 2
def cinit (f c : Nat) : Bool := bitOf f (256 * c + 66)
def inSel (f c k : Nat) : Nat := bits f (256 * c + 68 + 8 * k) 8

/-- The 16 bits of flip-flop i = 2c + f, FFA or FFB of cell c. -/
def ffFields (f i : Nat) : Nat := bits f (256 * (i / 2) + (if i % 2 = 0 then 116 else 132)) 16
def ffDsel (x : Nat) : Nat := bits x 0 2
def ffClk (x : Nat) : Nat := bits x 2 2
def ffCe (x : Nat) : Nat := bits x 4 2
def ffSr (x : Nat) : Nat := bits x 6 2
def ffAsync (x : Nat) : Bool := bitOf x 8
def ffSrval (x : Nat) : Bool := bitOf x 9
def ffInit (x : Nat) : Bool := bitOf x 10
def ffPriv (x : Nat) : Bool := bitOf x 11

/-- A 128-bit word of the tile's flip-flops, bit i by a rule. -/
def ffWord (b : Nat → Bool) : Nat := (List.range 128).foldr (fun i v => b2n (b i) + 2 * v) 0

/-- The flip-flops of a tile that a frame marks PRIVATE. -/
def privMask (f : Nat) : Nat := ffWord fun i => ffPriv (ffFields f i)

/-! ### Wires (R218) -/

/-- The length of outgoing wire j. -/
def wireLen (j : Nat) : Nat := if j % 28 < 16 then 1 else if j % 28 < 24 then 4 else 16

/-- The region and tile at a die column and row of the die of region r. -/
def tileAt (r x y : Nat) : Nat × Nat := (24 * (r / 24) + 4 * (y / 20) + x / 40, 40 * (y % 20) + x % 40)

/-- The region and tile whose outgoing wire j ends in a tile; none where the wire does not exist. -/
def wireFrom (r tile j : Nat) : Option (Nat × Nat) :=
  let x := tileCol r tile
  let y := tileRow r tile
  let n := wireLen j
  match j / 28 with
  | 0 => if n ≤ y then some (tileAt r x (y - n)) else none
  | 1 => if n ≤ x then some (tileAt r (x - n) y) else none
  | 2 => if y + n < 120 then some (tileAt r x (y + n)) else none
  | _ => if x + n < 160 then some (tileAt r (x + n) y) else none

/-! ### Signals -/

/-- A signal of the fabric: local line Li of a tile, output o of cell c as 4c + o (R220), COUT of cell c, outgoing wire j at its
source and as it arrives in a tile, what a cuff presents, and a vertical track. -/
inductive Signal where
  | line (r tile i : Nat)
  | cell (r tile o : Nat)
  | cout (r tile c : Nat)
  | wire (r tile j : Nat)
  | arrives (r tile j : Nat)
  | cuff (r tile i : Nat)
  | track (t : Nat)
  deriving DecidableEq, Repr

/-- A signal to which the spec gives no value: free, one for each place. -/
def openSignal (s : State) (r tile i : Nat) : Bool := Config.freeReg s.free (2048 * (800 * r + tile) + i) % 2 == 1

/-- The free value of a signal in a loop of combinational logic, which settles to none that the spec gives. -/
def loopSignal (s : State) : Signal → Bool
  | .line r tile i => openSignal s r tile i
  | .cell r tile o => openSignal s r tile (256 + o)
  | .cout r tile c => openSignal s r tile (768 + c)
  | .arrives r tile j => openSignal s r tile (832 + j)
  | .wire r tile j => openSignal s r tile (1024 + j)
  | .cuff r tile i => openSignal s r tile (1152 + i)
  | .track t => openSignal s 72 0 t

/-- The tile source space (R220). -/
def tileSource (s : State) (ev : Signal → Bool) (r tile v : Nat) : Bool :=
  if v < 0x10 then v == 1
  else if v < 0x80 then ev (.arrives r tile (v - 0x10))
  else if v < 0xA0 then (if epExists (regDie r) (v - 0x80) then ev (.track (trackOf r tile (v - 0x80))) else openSignal s r tile v)
  else if v < 0x100 then false
  else ev (.cell r tile (v - 0x100))

/-- The cell input space (R221). -/
def cellSource (ev : Signal → Bool) (r tile v : Nat) : Bool :=
  if v < 0x40 then v == 1
  else if v < 0x80 then ev (.line r tile (v - 0x40))
  else ev (.cell r tile (4 * ((v - 0x80) / 2) + 2 + v % 2))

/-- Input k of cell c. -/
def cellIn (s : State) (ev : Signal → Bool) (r tile c k : Nat) : Bool := cellSource ev r tile (inSel (liveFrame s r tile) c k)

/-- Tile control line n, 1 to 3. -/
def ctlLine (s : State) (ev : Signal → Bool) (r tile n : Nat) : Bool := cellSource ev r tile (csel (liveFrame s r tile) (n - 1))

/-- The index that the first n inputs of cell c form. -/
def lutIndex (s : State) (ev : Signal → Bool) (r tile c n : Nat) : Nat :=
  (List.range n).foldr (fun k v => b2n (cellIn s ev r tile c k) + 2 * v) 0

/-- CIN of cell c: COUT of the cell below it in its column, or CINIT on the region's bottom row (R196). -/
def cellCin (s : State) (ev : Signal → Bool) (r tile c : Nat) : Bool :=
  if 8 ≤ c then ev (.cout r tile (c - 8))
  else if tile < 40 then cinit (liveFrame s r tile) c
  else ev (.cout r (tile - 40) (c + 56))

/-- The carry stage of cell c: S0, S1 and COUT (R196). The halves are read at the index of I0 to I3. -/
def carryStage (s : State) (ev : Signal → Bool) (r tile c : Nat) : Bool × Bool × Bool :=
  let f := liveFrame s r tile
  let i := lutIndex s ev r tile c 4
  let p0 := bitOf f (256 * c + i)
  let p1 := bitOf f (256 * c + 32 + i)
  let c0 := cellCin s ev r tile c
  let c1 := if p0 then c0 else cellIn s ev r tile c 4
  (p0 != c0, p1 != c1, if p1 then c1 else cellIn s ev r tile c 5)

/-- The LUT output for FFA (h = 0) and FFB (h = 1): O6, or O5A and O5B. In CARRY mode the spec names none (R195, R197). -/
def lutOut (s : State) (ev : Signal → Bool) (r tile c h : Nat) : Bool :=
  let f := liveFrame s r tile
  match lutMode f c with
  | 0 => bitOf f (256 * c + lutIndex s ev r tile c 6)
  | 1 => bitOf f (256 * c + 32 * h + lutIndex s ev r tile c 5)
  | 2 => openSignal s r tile (512 + 2 * c + h)
  | _ => false

/-- The carry sum S0 (h = 0) or S1 (h = 1), which only CARRY mode gives. -/
def sumOut (s : State) (ev : Signal → Bool) (r tile c h : Nat) : Bool :=
  match lutMode (liveFrame s r tile) c with
  | 2 => let x := carryStage s ev r tile c; if h = 0 then x.1 else x.2.1
  | 3 => false
  | _ => openSignal s r tile (640 + 2 * c + h)

/-- What flip-flop i of a tile has stored: its SHARED value, or its copy of the context in force (R243). -/
def ffStored (s : State) (r tile i : Nat) : Bool :=
  if ffPriv (ffFields (liveFrame s r tile) i) then bitOf (smGet (region s r).priv (800 * ctxOf s r + tile) 0) i
  else bitOf (smGet (region s r).shared tile 0) i

/-- The region's flip-flops act: it runs, is awake, and its die is not in reset. -/
def regLive (s : State) (r : Nat) : Bool := regRuns s r && !regAsleep s r && !dieInReset s (logicPos (regDie r))

/-- SR of a flip-flop with the fields x is asserted. -/
def srOn (s : State) (ev : Signal → Bool) (r tile x : Nat) : Bool := ffSr x != 0 && ctlLine s ev r tile (ffSr x)

/-- An asynchronous SR holds flip-flop i (R197). -/
def ffHeld (s : State) (ev : Signal → Bool) (r tile i : Nat) : Bool :=
  let x := ffFields (liveFrame s r tile) i
  regLive s r && ffAsync x && srOn s ev r tile x

/-- The output of flip-flop i. -/
def ffOut (s : State) (ev : Signal → Bool) (r tile i : Nat) : Bool :=
  if ffHeld s ev r tile i then ffSrval (ffFields (liveFrame s r tile) i) else ffStored s r tile i

/-- Output 4c + o of a tile's cells: LA, LB, QA, QB (R220). -/
def cellOut (s : State) (ev : Signal → Bool) (r tile n : Nat) : Bool :=
  let c := n / 4
  let o := n % 4
  if 2 ≤ o then ffOut s ev r tile (2 * c + o - 2)
  else match lutMode (liveFrame s r tile) c with
    | 0 => lutOut s ev r tile c 0
    | 2 => sumOut s ev r tile c o
    | _ => lutOut s ev r tile c o

/-- What endpoint e of a tile would drive: VSRCe of the plane whose number is the track's context (R228). -/
def endpointSource (s : State) (ev : Signal → Bool) (r tile e : Nat) : Bool :=
  tileSource s ev r tile (vsrc (frameAt s kLOGIC r (ctxOf s (homeRegion (trackOf r tile e))) tile) e)

/-- A signal, from the signals it depends on. -/
def signalOf (s : State) (ev : Signal → Bool) : Signal → Bool
  | .line r tile i => tileSource s ev r tile (lsel (liveFrame s r tile) i)
  | .cell r tile n => cellOut s ev r tile n
  | .cout r tile c =>
    match lutMode (liveFrame s r tile) c with
    | 2 => (carryStage s ev r tile c).2.2
    | 3 => false
    | _ => openSignal s r tile (768 + c)
  | .wire r tile j => tileSource s ev r tile (wsel (liveFrame s r tile) j)
  | .arrives r tile j =>
    match wireFrom r tile j with
    | none => openSignal s r tile (832 + j)
    | some (r', t') => if wireCrosses r' t' j then ev (.cuff r' t' j) else ev (.wire r' t' j)
  | .cuff r tile i =>
    match cuffEff s r tile i with
    | 0 => false
    | 1 => true
    | 2 => bitOf (smGet (region s r).hold tile 0) i
    | _ => if i < 112 then ev (.wire r tile i) else endpointSource s ev r tile (i - 112)
  | .track t =>
    match driverOf s t with
    | 0 => smGet s.fab.keep t 0 == 1
    | x => ev (.cuff (endRegion t x) (trackTile t) (112 + 16 * (t / 307200) + t % 16))

/-- A signal followed through at most n steps. -/
def signalIn (s : State) : Nat → Signal → Bool
  | 0, x => loopSignal s x
  | n + 1, x => signalOf s (signalIn s n) x

/-- More steps than the device has signals, so that only a loop is cut short. -/
def signalSteps : Nat := 2 ^ 27

/-- The value of a signal. -/
def signal (s : State) (x : Signal) : Bool := signalIn s signalSteps x

/-- The value a cuff presents (R260), and the value of a track (R224, R229). -/
def cuffValue (s : State) (r tile i : Nat) : Nat := b2n (signal s (.cuff r tile i))
def trackValue (s : State) (t : Nat) : Nat := b2n (signal s (.track t))

/-! ### What is held when a driver stops (R224, R256, R260) -/

/-- The tiles of which plane k holds a LOGIC frame. -/
def frameTiles (s : State) (r k : Nat) : List Nat :=
  let b := frameKey kLOGIC r k 0
  (s.fab.frames.filter fun e => decide (b ≤ e.1) && decide (e.1 < b + 800)).map (·.1 - b)

/-- The tiles of which some plane holds one. -/
def framedTiles (s : State) (r : Nat) : List Nat := ([0, 1, 2, 3].flatMap (frameTiles s r)).eraseDups

/-- What the cuffs of a tile present, bit i for the cuff of index i. -/
def cuffWord (s : State) (r tile : Nat) : Nat :=
  (List.range 144).foldr (fun i v => b2n (cuffExists r tile i && signal s (.cuff r tile i)) + 2 * v) 0

/-- The cuffs of the region leave PASS in `t`: HOLD takes what passes at that moment, in `s`; those of a tile without frames pass
0. -/
def holdCuffsAs (s t : State) (r : Nat) : State :=
  if cuffsPass s r then setRegion t r { region t r with hold := (framedTiles s r).foldl (fun m n => smSet m n (cuffWord s r n) 0) [] }
  else t
def holdCuffs (s : State) (r : Nat) : State := holdCuffsAs s s r

/-- The change of `s` to `t` as the keepers see it: each track whose driver turns off keeps the value it had (R224, R230). -/
def keepTracks (s t : State) : State :=
  setFab t { t.fab with keep := s.fab.claims.foldl (fun m c =>
    let n := c.1 / 4
    if driverOf s n ≠ 0 ∧ driverOf t n = 0 then smSet m n (trackValue s n) 0 else m) t.fab.keep }

/-- A region's context changes, and with it the drivers of the tracks whose home it is (R228, R242). -/
def setCtx (s : State) (r k : Nat) : State := keepTracks s (setFld s (F.CTX_REGr_ACTIVE_CTX r) k)

/-- A frame written into a plane; a driver that it disables leaves its track to the keeper. -/
def writeFrame (s : State) (kind r k tile v : Nat) : State := keepTracks s (putFrame s kind r k tile v)

/-- Plane k becomes EMPTY: zero, its claims removed, its PRIVATE copies 0. -/
def emptyPlane (s : State) (r k : Nat) : State :=
  planeMarks (clearPriv (keepTracks s (dropClaims (setPlane (zeroPlane s r k) r k 0) r k)) r k) r

/-! ### Flip-flops (R197, R199, R243) -/

/-- The INIT bits of a frame, of the flip-flops it marks PRIVATE or of the others. -/
def initWord (f : Nat) (priv : Bool) : Nat := ffWord fun i => ffInit (ffFields f i) && ffPriv (ffFields f i) == priv

/-- The PRIVATE copies of context k take INIT. -/
def initPriv (s : State) (r k : Nat) : State :=
  forEach (framedTiles s r) (fun s' t =>
    setRegion s' r { region s' r with priv := smSet (region s' r).priv (800 * k + t) (initWord (frameAt s kLOGIC r k t) true) 0 }) (clearPriv s r k)

/-- The SHARED flip-flops take the INIT of the context in force. -/
def initShared (s : State) (r : Nat) : State :=
  setRegion s r { region s r with shared := (framedTiles s r).foldl (fun m t => smSet m t (initWord (liveFrame s r t) false) 0) [] }

/-- Context k is loaded. -/
def ctxLoaded (s : State) (r k : Nat) : Bool := planeState s r k == 2 || planeState s r k == 3

/-- The flip-flops take INIT at a release: SHARED ones that of the context in force, each PRIVATE copy that of its own loaded
plane (R199). -/
def takeInit (s : State) (r : Nat) : State := initShared (forEach ((List.range 4).filter (ctxLoaded s r)) (fun s k => initPriv s r k) s) r

/-- The tiles whose flip-flops can change: those with a LOGIC frame in the context in force, and those that store a value. -/
def liveTiles (s : State) (r : Nat) : List Nat := (frameTiles s r (ctxOf s r) ++ (region s r).shared.map (·.1)).eraseDups

/-- What a flip-flop captures as D (R197). -/
def ffData (s : State) (ev : Signal → Bool) (r tile i : Nat) : Bool :=
  let h := i % 2
  match ffDsel (ffFields (liveFrame s r tile) i) with
  | 0 => lutOut s ev r tile (i / 2) h
  | 1 => sumOut s ev r tile (i / 2) h
  | 2 => cellIn s ev r tile (i / 2) (5 - h)
  | _ => false

/-- What flip-flop i stores after an edge of the region clocks `ns`: SR takes precedence over CE (R197). -/
def ffNext (s : State) (ev : Signal → Bool) (r tile : Nat) (ns : List Nat) (i : Nat) : Bool :=
  let x := ffFields (liveFrame s r tile) i
  if ffHeld s ev r tile i then ffSrval x
  else if !ns.contains (ffClk x) then ffStored s r tile i
  else if srOn s ev r tile x then ffSrval x
  else if ffCe x != 0 && !ctlLine s ev r tile (ffCe x) then ffStored s r tile i
  else ffData s ev r tile i

/-- The flip-flops of a region after an edge of its clocks `ns`, as the signals of the state `s` give them, put into `t`. -/
def captureRegion (s t : State) (r : Nat) (ns : List Nat) : State :=
  forEach (liveTiles s r) (fun t tile =>
    let m := privMask (liveFrame s r tile)
    let w := ffWord (ffNext s (signal s) r tile ns)
    let k := 800 * ctxOf s r + tile
    let p := smGet (region s r).priv k 0
    setRegion t r { region t r with
      shared := smSet (region t r).shared tile ((smGet (region s r).shared tile 0 &&& m) + (w - (w &&& m))) 0
      priv := smSet (region t r).priv k ((p - (p &&& m)) + (w &&& m)) 0 }) t

/-! ### Multiplier blocks (R208, R245) -/

/-- The modes of multiplier block i in context k. -/
def mulModes (s : State) (r i k : Nat) : Nat := bits (frameAt s kMODES r k (40 * (5 * (i / 10)) + 4 * (i % 10))) 32 9
def mulMode (m : Nat) : Nat := bits m 0 2
def mulSigned (m : Nat) : Bool := bitOf m 2
def mulSat (m : Nat) : Bool := bitOf m 3
def mulPipe (m : Nat) : Nat := bits m 4 2
def mulClk (m : Nat) : Nat := bits m 6 2
def mulSatf (m : Nat) : Bool := bitOf m 8

/-- Multiplier block i of a region. -/
def mul (s : State) (r i : Nat) : Mul := smGet (region s r).muls i {}
def setMul (s : State) (r i : Nat) (x : Mul) : State := setRegion s r { region s r with muls := smSet (region s r).muls i x {} }

/-- The inputs of a multiplier block. -/
structure MulIn where
  a    : Nat
  b    : Nat
  c    : Nat
  load : Bool
  deriving DecidableEq, Repr

/-- The exact product. -/
def mulProduct (m : Nat) (x : MulIn) : Int :=
  if mulSigned m then toSigned 27 x.a * toSigned 27 x.b else ((x.a % 2 ^ 27 * (x.b % 2 ^ 27) : Nat) : Int)

/-- A sum as the block gives it: saturated to the signed 64-bit range, or wrapped; and whether it saturated. -/
def mulSum (m : Nat) (v : Int) : Nat × Bool :=
  if mulSat m && decide (v < -(2 ^ 63 : Int)) then (2 ^ 63, true)
  else if mulSat m && decide ((2 ^ 63 : Int) ≤ v) then (2 ^ 63 - 1, true)
  else (ofSigned 64 v, false)

/-- The result of a block with the modes m whose P register holds acc: P, and whether it saturated. -/
def mulResult (m acc : Nat) (x : MulIn) : Nat × Bool :=
  match mulMode m with
  | 0 => (ofSigned 64 (mulProduct m x), false)
  | 1 => mulSum m (mulProduct m x + toSigned 64 x.c)
  | 2 => mulSum m (toSigned 64 (if x.load then x.c else acc) + mulProduct m x)
  | _ => (0, false)

/-- An edge of the block's clock: the result enters the pipeline, and in MAC mode the P register. -/
def mulEdge (m : Nat) (y : Mul) (x : MulIn) : Mul :=
  let v := mulResult m y.acc x
  { acc := if mulMode m = 2 then v.1 else y.acc
    pipe := (v :: y.pipe).take (mulPipe m)
    und := y.und - 1 }

/-- P and OVF of a block with the modes m, while its inputs are x: PIPE edges after its inputs, at once with PIPE 0. Undefined
outputs are free values. -/
def mulOut (s : State) (m : Nat) (y : Mul) (x : MulIn) : Nat × Bool :=
  let v := if mulPipe m = 0 then mulResult m y.acc x else y.pipe.getD (mulPipe m - 1) (0, false)
  if y.und = 0 then (v.1, mulSatf m && v.2) else (freeOf s % 2 ^ 64, freeOf s / 2 ^ 64 % 2 == 1)

/-- The inputs on an edge: the spec gives the routing no way to them, so that they are free values. -/
def mulInputs (d r i : Nat) : MulIn :=
  let v := fun k => Config.freeReg d (4 * (40 * r + i) + k)
  ⟨v 0 % 2 ^ 27, v 1 % 2 ^ 27, v 2 % 2 ^ 64, v 3 % 2 == 1⟩

/-- The blocks of a region that have registers on one of the clocks `ns`. -/
def clockedMuls (s : State) (r : Nat) (ns : List Nat) : List Nat :=
  (List.range 40).filter fun i =>
    let m := mulModes s r i (ctxOf s r)
    ns.contains (mulClk m) && (mulPipe m != 0 || mulMode m == 2)

/-- The multiplier blocks of a region after an edge; draw d gives their inputs. -/
def mulEdges (s : State) (d r : Nat) (ns : List Nat) : State :=
  forEach (clockedMuls s r ns) (fun s i => setMul s r i (mulEdge (mulModes s r i (ctxOf s r)) (mul s r i) (mulInputs d r i))) s

/-- A switch: a block whose PIPE changes gives undefined outputs for as many edges as its new PIPE (R245). -/
def switchMuls (s : State) (r k k' : Nat) : State :=
  forEach ((List.range 40).filter fun i => mulPipe (mulModes s r i k) != mulPipe (mulModes s r i k')) (fun s i =>
    setMul s r i { mul s r i with und := mulPipe (mulModes s r i k') }) s

/-! ### Block memories on an edge (R203 to R207) -/

/-- The modes of block memory i in a context (R202, R343). -/
def bmModes (s : State) (r i k : Nat) : Nat := frameAt s kMODES r k (bmTile i) % 2 ^ 32

/-- QMODE, CLKA and CLKB. -/
def bmQmode (m : Nat) : Nat := bits m 0 3
def bmClkA (m : Nat) : Nat := bits m 10 2
def bmClkB (m : Nat) : Nat := bits m 12 2

/-- The mode is a queue mode, and one with two clock domains. -/
def isQueue (m : Nat) : Bool := decide (1 ≤ bmQmode m) && decide (bmQmode m ≤ 4)
def dualQueue (m : Nat) : Bool := bmQmode m == 2 || bmQmode m == 4

/-- The region clock of a queue's consumer. -/
def popClk (m : Nat) : Nat := if dualQueue m then bmClkB m else bmClkA m

/-- Updates that a flag has waited for on an edge of its clock: all of them arrive, or those that have waited three edges. -/
def flagEdge (arrive : Bool) (l : List Nat) : List Nat := if arrive then [] else (l.map (· + 1)).filter (· < 3)

/-- Words of POPs on an edge: POP_DATA shows a word on the second edge after its POP (R205). -/
def popsEdge (x : Bm) : Bm :=
  let due := x.pops.filter fun p => p.2 ≤ 1
  { x with
    outB := (due.getLast?.map (·.1)).getD x.outB
    pops := (x.pops.filter fun p => decide (1 < p.2)).map fun p => (p.1, p.2 - 1) }

/-- A block memory on an edge of the region clocks `ns`: its pulses end, POP_DATA follows, and the flags of the two domains of a
queue may take up what the other side did. -/
def bmEdge (m : Nat) (ns : List Nat) (arriveA arriveB : Bool) (x : Bm) : Bm :=
  let onA := ns.contains (bmClkA m)
  let onB := ns.contains (bmClkB m)
  let y := if isQueue m && ns.contains (popClk m) then popsEdge x else x
  { y with
    collA := x.collA && !onA
    collB := x.collB && !onB
    sbe := x.sbe && !(onA || onB)
    dbe := x.dbe && !(onA || onB)
    err := if x.err != 0 && ns.contains (x.err - 1) then 0 else x.err
    newR := if onA then flagEdge arriveA x.newR else x.newR
    newW := if onB then flagEdge arriveB x.newW else x.newW }

/-- The block memories of a region after an edge. -/
def bmEdges (s : State) (d r : Nat) (ns : List Nat) : State :=
  forEach ((s.fab.bms.map (·.1)).filter fun e => e / 50 == r) (fun s e =>
    let i := e % 50
    let v := fun k => Config.freeReg d (2 * e + k) % 2 == 1
    setBm s r i (bmEdge (bmModes s r i (ctxOf s r)) ns (v 0) (v 1) (bm s r i))) s

/-- Queue pointers and multiplier registers of the region clear (R216, R257). -/
def clearBlocks (s : State) (r : Nat) : State :=
  setFab (setRegion s r { region s r with muls := [] }) { s.fab with
    bms := s.fab.bms.map fun e => if e.1 / 50 = r then (e.1, { e.2 with q := [], pops := [], newW := [], newR := [] }) else e }

/-- Steps 2 and 3 of a release: INIT, queue pointers and P registers cleared, and REGION_START requested. -/
def releaseInit (s : State) (r : Nat) : State := clearBlocks (takeInit s r) r
def releaseRequest (s : State) (r : Nat) : State := r8Request s (.regionStart r)

/-! ### Edges -/

/-- The hard outputs of a region after an edge: STB and PTS_REFUSED last for one edge (R211, R239). -/
def outputsEdge (s : State) (r : Nat) (ns : List Nat) : State :=
  setRegion s r { region s r with
    stbOut := (region s r).stbOut.filter fun k => !ns.contains (fld s (F.FAB_REGr_STBk_CLKSEL r k))
    refusedOut := (region s r).refusedOut && !ns.contains 0 }

/-- Asynchronous SR acts within the cycle: what it holds keeps SRVAL after it (R197). -/
def settle (s : State) : State := forEach ((s.regions.map (·.1)).filter (regLive s)) (fun t r => captureRegion s t r []) s

/-- One edge of some region clocks, each region with those of its clocks that have it: every element on them captures what the
period before it gave, under the contexts in force then (R240). -/
def clockEdge (s0 : State) (l : List (Nat × List Nat)) : State :=
  let s := settle s0
  let s1 := forEach l (fun t x => captureRegion s t x.1 x.2) s
  let s2 := forEach l (fun t x => outputsEdge (bmEdges (mulEdges t (s0.free + 1) x.1 x.2) (s0.free + 2) x.1 x.2) x.1 x.2) s1
  { s2 with free := s0.free + 3 }

/-- An edge of region clock 0 of one region, which a command names. -/
def clock0Edge (s : State) (r : Nat) : State := clockEdge s [(r, [0])]

/-- The clocks of a region that an edge of global clock g of its die reaches. A pulse leaves its last edge of region clock 0 to its
end (R489). -/
def edgeClocks (s : State) (r g : Nat) : List Nat :=
  if !regTicks s r || (flag s (F.DBG_REGr_STATUS_PULSING r) && decide (smGet s.dbg.pulses r 0 ≤ 1)) then []
  else (List.range 4).filter fun n => regClkEn s r n && regClkSel s r n == g

/-- The edges of a pulse that an edge of global clocks gives are counted (R489). -/
def pulseCount (s : State) (r : Nat) : State :=
  if flag s (F.DBG_REGr_STATUS_PULSING r) then
    satInc { s with dbg := { s.dbg with pulses := smSet s.dbg.pulses r (smGet s.dbg.pulses r 0 - 1) 0 } } (F.DBG_REGr_STATUS_EDGES r)
  else s

/-- The regions of logic die d with an edge of global clock g. -/
def edgeRegions (s : State) (d g : Nat) : List (Nat × List Nat) :=
  (((List.range 24).map (24 * d + ·)).map fun r => (r, edgeClocks s r g)).filter fun x => !x.2.isEmpty

/-- What the block does while no command comes: one of the 48 global user clocks, which a free value names, gives an edge to the
region clocks that select it (R209; DESIGN CHOICE, log 1). -/
def tick (s : State) : State :=
  let x := Config.freeReg s.free 0 % 48
  match edgeRegions s (x / 16) (x % 16) with
  | [] => s
  | l => forEach ((l.filter fun x => x.2.contains 0).map (·.1)) pulseCount (clockEdge (drawn s) l)

end Sys2Proof.Machine
end

