-- ==== Sys2Proof/Machine/Flags.lean ====
section
/-! DEFINITION. The flags of Proster-32 (R176) and the arithmetic that sets them: additions and subtractions with
carry, shifts and rotates, and saturation (R177, R178). -/
namespace Sys2Proof.Machine

/-- The four flags. -/
structure Flg where
  z : Bool
  n : Bool
  c : Bool
  v : Bool
  deriving DecidableEq, Repr

/-- Z and N of a result. -/
def flagsZN (old : Flg) (r : Word) : Flg := ⟨r == 0, r.msb, old.c, old.v⟩

/-- ADD and ADC: result and flags for an incoming carry. -/
def addFl (a b : Word) (cin : Bool) : Word × Flg :=
  let x := a.toNat + b.toNat + cin.toNat
  let r := BitVec.ofNat 32 x
  let e := a.toInt + b.toInt + (cin.toNat : Int)
  (r, ⟨r == 0, r.msb, decide (2 ^ 32 ≤ x), decide (e ≠ r.toInt)⟩)

/-- SUB, SBC, CMP and CMPI: result and flags for an incoming borrow; C is 1 when a borrow occurs. -/
def subFl (a b : Word) (bin : Bool) : Word × Flg :=
  let r := a - b - BitVec.ofNat 32 bin.toNat
  let e := a.toInt - b.toInt - (bin.toNat : Int)
  (r, ⟨r == 0, r.msb, decide (a.toNat < b.toNat + bin.toNat), decide (e ≠ r.toInt)⟩)

/-- The kinds of shift. -/
inductive ShKind where
  | shl | shr | sar | ror
  deriving DecidableEq, Repr

/-- A shift by `k` (0 to 31). -/
def shiftBy (kind : ShKind) (a : Word) (k : Nat) : Word :=
  match kind with
  | .shl => a <<< k
  | .shr => a >>> k
  | .sar => a.sshiftRight k
  | .ror => a.rotateRight k

/-- The last bit shifted out; the incoming C for a shift of 0. -/
def shiftOut (kind : ShKind) (a : Word) (k : Nat) (c : Bool) : Bool :=
  if k = 0 then c
  else match kind with
    | .shl => a.getLsbD (32 - k)
    | _ => a.getLsbD (k - 1)

/-- The flags of a shift: V unchanged. -/
def flagsShift (old : Flg) (kind : ShKind) (a : Word) (k : Nat) : Flg :=
  let r := shiftBy kind a k
  ⟨r == 0, r.msb, shiftOut kind a k old.c, old.v⟩

/-- The flags of a Q operation: V tells whether the result was saturated or clamped. -/
def flagsQ (old : Flg) (r : Word) (sat : Bool) : Flg := ⟨r == 0, r.msb, old.c, sat⟩

/-- An integer limited to [lo, hi]. -/
def limit (lo hi x : Int) : Int := if x < lo then lo else if hi < x then hi else x

/-- The signed range of `w` bits, as an integer limit. -/
def satTo (w : Nat) (x : Int) : Int := limit (-(2 ^ (w - 1) : Nat)) ((2 ^ (w - 1) : Nat) - 1) x

/-- An exact result cut to 32 bits by saturation, with whether it was limited (R178). -/
def sat32 (x : Int) : Word × Bool := (BitVec.ofInt 32 (satTo 32 x), decide (satTo 32 x ≠ x))

/-- Two halves, each from an exact result limited to 16 bits. -/
def satHalves (lo hi : Int) : Word × Bool :=
  (BitVec.ofInt 16 (satTo 16 hi) ++ BitVec.ofInt 16 (satTo 16 lo), decide (satTo 16 lo ≠ lo ∨ satTo 16 hi ≠ hi))

/-- The signed value of the lower and of the upper half of a word. -/
def loHalf (a : Word) : Int := (a.extractLsb' 0 16).toInt
def hiHalf (a : Word) : Int := (a.extractLsb' 16 16).toInt

/-- A value of 32 bits and whether it differs from the operand it limits. -/
def limited (a r : Word) : Word × Bool := (r, a != r)

/-- The leading zeros of a word. -/
def leadingZeros (a : Word) : Nat := 32 - (if a.toNat = 0 then 0 else Nat.log2 a.toNat + 1)

/-- The ones in a word. -/
def onesIn (a : Word) : Nat := ((List.range 32).filter fun i => a.getLsbD i).length

end Sys2Proof.Machine
end

