-- ==== Sys2Proof/Machine/Operands.lean ====
section
/-! DEFINITION. Engines and threads (chapters 07 and 08): their state, the encodings of R173 and R174 with what is
legal under R175, registers, and the local address space (R180). -/
namespace Sys2Proof.Machine

/-! ### Engines and threads -/

/-- Engine n beside its registers. -/
def engine (s : State) (n : Nat) : Engine := smGet s.engines n {}

/-- The state with engine n set. -/
def setEngine (s : State) (n : Nat) (x : Engine) : State := { s with engines := smSet s.engines n x {} }

/-- Thread t of engine n. -/
def thread (s : State) (n t : Nat) : Thread := smGet (engine s n).threads t {}

/-- The state with a thread set. -/
def setThread (s : State) (n t : Nat) (x : Thread) : State :=
  setEngine s n { engine s n with threads := smSet (engine s n).threads t x {} }

/-- The states of ENG_n_STATUS.THREADS. -/
def tSTOPPED := 0
def tRUN := 1
def tWAIT := 2
def tFAULT := 3

/-- The state of a thread. -/
def thrState (s : State) (n t : Nat) : Nat := bits (fld s (F.ENG_n_STATUS_THREADS n)) (2 * t) 2

/-- The state of a thread set. -/
def setThrState (s : State) (n t x : Nat) : State :=
  setFld s (F.ENG_n_STATUS_THREADS n) (putBits (fld s (F.ENG_n_STATUS_THREADS n)) (2 * t) 2 x)

/-- ENABLE reads 1 and is not being cleared. -/
def engOn (s : State) (n : Nat) : Bool := flag s (F.ENG_n_CTRL_ENABLE n) && !flag s (F.ENG_n_STATUS_DRAINING n)

/-- START bit t is 1 and the engine is on. -/
def thrWanted (s : State) (n t : Nat) : Bool := engOn s n && bitOf (fld s (F.ENG_n_CTRL_START n)) t

/-- The die (1–3) of engine n (R151). -/
def engDie (n : Nat) : Nat := n / 32 + 1

/-- The region that the stream ports of engine n enter (R151). -/
def engRegion (n : Nat) : Nat := 24 * (n / 32) + n % 32 / 8

/-- The engine's clock runs. -/
def engClock (s : State) (n : Nat) : Bool :=
  !flag s (F.ENG_n_STATUS_GATED n) && clocksOn s && !dieInReset s (logicPos (engDie n)) && !(s.clk.engGate.contains (engDie n))

/-- Thread t is halted, or a halt of it awaits its boundary (R485). -/
def halted (s : State) (n t : Nat) : Bool := bitOf (fld s (F.DBG_ENGn_STATUS_HALTED n)) t
def haltPending (s : State) (n t : Nat) : Bool := bitOf (fld s (F.DBG_ENGn_STATUS_PENDING n)) t

/-! ### Registers (R172) -/

/-- What an unlisted register holds: 0, or a free value after a reset that leaves it undefined. -/
def gDef (x : Thread) (t i : Nat) : Word :=
  match x.und with
  | 0 => 0
  | k + 1 => BitVec.ofNat 32 (Config.freeReg k (32 * t + i))

/-- What an unlisted accumulator holds. -/
def accDef (x : Thread) (t i : Nat) : BitVec 72 :=
  match x.und with
  | 0 => 0
  | k + 1 => BitVec.ofNat 72 (Config.freeReg k (32 * t + 16 + i))

/-- General register i of thread t. -/
def gReg (s : State) (n t i : Nat) : Word := smGet (thread s n t).g i (gDef (thread s n t) t i)

/-- A general register written. -/
def setG (s : State) (n t i : Nat) (v : Word) : State :=
  let x := thread s n t
  setThread s n t { x with g := smSet x.g i v (gDef x t i) }

/-- Accumulator i of thread t. -/
def aReg (s : State) (n t i : Nat) : BitVec 72 := smGet (thread s n t).acc i (accDef (thread s n t) t i)

/-- An accumulator written. -/
def setA (s : State) (n t i : Nat) (v : BitVec 72) : State :=
  let x := thread s n t
  setThread s n t { x with acc := smSet x.acc i v (accDef x t i) }

/-- The pair at an even register, the even register in bits [31:0] (R172). -/
def gPair (s : State) (n t i : Nat) : Nat := (gReg s n t i).toNat + (gReg s n t (i + 1)).toNat * 2 ^ 32

/-- A pair written. -/
def setPair (s : State) (n t i v : Nat) : State :=
  setG (setG s n t i (BitVec.ofNat 32 v)) n t (i + 1) (BitVec.ofNat 32 (v / 2 ^ 32))

/-- The flags of a thread. -/
def flg (s : State) (n t : Nat) : Flg := ⟨(thread s n t).z, (thread s n t).n, (thread s n t).c, (thread s n t).v⟩

/-- The flags written. -/
def setFlg (s : State) (n t : Nat) (f : Flg) : State :=
  setThread s n t { thread s n t with z := f.z, n := f.n, c := f.c, v := f.v }

/-! ### Encodings (R173, R174) -/

/-- The R format: major, rd, rs1, rs2, F, FN, bits [7:0]. -/
def encR (major rd rs1 rs2 : Nat) (f : Bool) (fn low : Nat) : Nat :=
  major * 2 ^ 26 + rd * 2 ^ 22 + rs1 * 2 ^ 18 + rs2 * 2 ^ 14 + b2n f * 2 ^ 13 + fn * 2 ^ 8 + low

/-- The I and M formats: major, two registers, imm18. -/
def encI (major a b imm : Nat) : Nat := major * 2 ^ 26 + a * 2 ^ 22 + b * 2 ^ 18 + imm

/-- The SH format. -/
def encSH (rd rs1 kind : Nat) (f : Bool) (sh : Nat) : Nat :=
  0x06 * 2 ^ 26 + rd * 2 ^ 22 + rs1 * 2 ^ 18 + kind * 2 ^ 16 + b2n f * 2 ^ 13 + sh * 2 ^ 8

/-- The B format. -/
def encB (cond off : Nat) : Nat := 0x20 * 2 ^ 26 + cond * 2 ^ 22 + off

/-- The L format. -/
def encL (off : Nat) : Nat := 0x21 * 2 ^ 26 + off

/-- The A format. -/
def encA (rd rs1 rs2 acc fn sh : Nat) : Nat :=
  0x0D * 2 ^ 26 + rd * 2 ^ 22 + rs1 * 2 ^ 18 + rs2 * 2 ^ 14 + acc * 2 ^ 12 + fn * 2 ^ 6 + sh

/-- The C format. -/
def encC (rd rs1 fn csr : Nat) : Nat := 0x28 * 2 ^ 26 + rd * 2 ^ 22 + rs1 * 2 ^ 18 + fn * 2 ^ 14 + csr

/-- The S format. -/
def encS (major a b fn imm : Nat) : Nat := major * 2 ^ 26 + a * 2 ^ 22 + b * 2 ^ 18 + fn * 2 ^ 14 + imm

/-- The R-format operations of the ALU table are legal. -/
def legalAlu (w : Nat) : Bool :=
  let fn := bits w 8 5
  decide (1 ≤ fn) && decide (fn ≤ 23) && bits w 0 8 == 0
  && (if fn = 20 ∨ fn = 21 then bits w 14 4 == 0 else true) && (if fn = 22 ∨ fn = 23 then bits w 22 4 == 0 else true)

/-- The operations of the Q table are legal. -/
def legalQ (w : Nat) : Bool :=
  let fn := bits w 8 5
  decide (1 ≤ fn) && decide (fn ≤ 12) && (if fn = 11 ∨ fn = 12 then bits w 5 3 == 0 else bits w 0 8 == 0)
  && (if fn = 7 ∨ fn = 8 then bits w 14 4 == 0 else true) && (if fn = 9 ∨ fn = 10 then bits w 14 1 == 0 else true)

/-- The operations of the MAC table are legal. -/
def legalA (w : Nat) : Bool :=
  let fn := bits w 6 6
  decide (1 ≤ fn) && decide (fn ≤ 13) && fn != 6
  && (if fn = 11 ∨ fn = 12 then true else bits w 0 6 == 0)
  && (if 11 ≤ fn then true else bits w 22 4 == 0)
  && (if fn = 7 then bits w 14 8 == 0 else true)

/-- The C format is legal. -/
def legalC (w : Nat) : Bool :=
  let fn := bits w 14 4
  decide (fn ≤ 3) && bits w 12 2 == 0 && (if fn = 0 then bits w 18 4 == 0 else true) && (if fn = 1 then bits w 22 4 == 0 else true)

/-- The stream operations are legal (R183). -/
def legalStream (w : Nat) : Bool :=
  match bits w 14 4 with
  | 0 => bits w 22 1 == 0 && bits w 2 1 == 1 && bits w 3 11 == 0
  | 1 => bits w 22 1 == 0 && bits w 2 1 == 0 && bits w 4 10 == 0
  | _ => false

/-- The Timetable operations are legal (R184). -/
def legalTt (w : Nat) : Bool :=
  match bits w 14 4 with
  | 0 => bits w 22 2 == 0 && bits w 9 5 == 0
  | 1 => bits w 22 2 == 0
  | 2 => true
  | _ => false

/-- The word is an instruction under R175, R180, R183, R184 and R185; WAIT's mask is judged when it executes. -/
def legalWord (w : Nat) : Bool :=
  match bits w 26 6 with
  | 0x00 => legalAlu w
  | 0x01 | 0x02 | 0x03 | 0x04 => true
  | 0x05 => bits w 22 4 == 0
  | 0x06 => bits w 14 2 == 0 && bits w 0 8 == 0
  | 0x07 => bits w 18 4 == 0
  | 0x08 => bits w 16 6 == 0
  | 0x0C => legalQ w
  | 0x0D => legalA w
  | 0x10 | 0x11 | 0x12 | 0x13 | 0x14 | 0x18 | 0x19 | 0x1A => true
  | 0x15 | 0x1B => bits w 22 1 == 0
  | 0x20 => bits w 22 4 != 15
  | 0x21 => true
  | 0x22 => bits w 22 4 == 0 && bits w 0 18 == 0
  | 0x23 => bits w 0 18 == 0
  | 0x28 => legalC w
  | 0x30 => decide (bits w 14 4 ≤ 4) && (if bits w 14 4 = 2 then bits w 0 12 != 0 && bits w 12 2 == 0 else true)
  | 0x31 => legalStream w
  | 0x32 => legalTt w
  | _ => false

/-! ### The scratchpad (R158, R160, R161) -/

/-- What an unlisted scratchpad word holds: zeros, or free values. -/
def spDef (e : Engine) (n i : Nat) : Nat :=
  match e.spDraw with
  | 0 => 0
  | k + 1 => (List.range 8).foldr (fun j x => (Config.freeByte k (2 ^ 40 + n * 65536 + 8 * i + j)).toNat + 256 * x) 0

/-- 64-bit word i of a scratchpad. -/
def spWord (s : State) (n i : Nat) : Nat := smGet (engine s n).sp i (spDef (engine s n) n i)

/-- A scratchpad word written. -/
def setSpWord (s : State) (n i v : Nat) : State :=
  let e := engine s n
  setEngine s n { e with sp := smSet e.sp i (v % 2 ^ 64) (spDef e n i) }

/-- The word is poisoned. -/
def spPoisoned (s : State) (n i : Nat) : Bool := smGet (engine s n).spPoison i 0 == 1

/-- A poison mark set or cleared. -/
def setSpPoison (s : State) (n i : Nat) (b : Bool) : State :=
  let e := engine s n
  setEngine s n { e with spPoison := smSet e.spPoison i (b2n b) 0 }

/-- A word found uncorrectable: poisoned, counted, event 0x1804 (R160). -/
def spUncorr (s : State) (n i : Nat) : State :=
  satInc (raise (setSpPoison s n i true) 0x1804 [(1, n)]) (F.ENG_n_SPERR_UNCORR n)

/-- What a read of a word finds: 0 nothing, 1 a single-bit error, corrected and counted, 2 an uncorrectable one. A word
already poisoned stays as it is. -/
def spCheck (s : State) (n i ecc : Nat) : State :=
  if spPoisoned s n i then s
  else if ecc = 1 then satInc s (F.ENG_n_SPERR_CORR n)
  else if ecc = 2 then spUncorr s n i
  else s

/-- The bytes of a plain, bit-set or bit-clear store merged into the old ones. -/
def spMerge (mode old v : Nat) : Nat :=
  match mode with
  | 0 => v
  | 1 => old ||| v
  | _ => old - (old &&& v)

/-- A store of `w` bytes at byte address `a` of the scratchpad: plain (0), bit-set (1) or bit-clear (2). -/
def spStore (s : State) (n a w mode v : Nat) : State :=
  let old := spWord s n (a / 8)
  let new := spMerge mode (bits old (8 * (a % 8)) (8 * w)) (v % 2 ^ (8 * w))
  setSpWord (if mode = 0 ∧ w = 8 then setSpPoison s n (a / 8) false else s) n (a / 8) (putBits old (8 * (a % 8)) (8 * w) new)

/-- A load of `w` bytes at byte address `a` of the scratchpad. -/
def spLoad (s : State) (n a w : Nat) : Nat := bits (spWord s n (a / 8)) (8 * (a % 8)) (8 * w)

/-! ### The local address space (R180) -/

/-- Where a local address leads: the scratchpad plainly or through an alias, a window, or nowhere. -/
inductive Local where
  | sp (mode a : Nat)
  | win (w off : Nat)
  | none
  deriving DecidableEq, Repr

/-- The range of a local address. -/
def localOf (a : Nat) : Local :=
  if a < 0x10000 then .sp 0 a
  else if 0x20000 ≤ a ∧ a < 0x30000 then .sp 1 (a - 0x20000)
  else if 0x40000 ≤ a ∧ a < 0x50000 then .sp 2 (a - 0x40000)
  else if 0x80000000 ≤ a then .win ((a - 0x80000000) / 0x10000000) (a % 0x10000000)
  else .none

/-- A device address lies in a mapped range (R528). -/
def devMapped (a : Nat) : Bool :=
  (memWay a).isSome || (decide (0x000100000000 ≤ a) && decide (a < 0x000101000000))
  || (decide (0x000200000000 ≤ a) && decide (a < 0x000200600000))
  || (decide (0x100000000000 ≤ a) && decide (a < 0x101000000000))

/-- The device address is a control register, or lies in the host window. -/
def devIsReg (a : Nat) : Bool := decide (0x000100000000 ≤ a) && decide (a < 0x000101000000)
def devIsHost (a : Nat) : Bool := decide (0x100000000000 ≤ a) && decide (a < 0x101000000000)
def devIsSp (a : Nat) : Bool := decide (0x000200000000 ≤ a) && decide (a < 0x000200600000)

/-- The device address a window access reaches (R164). -/
def winAddr (s : State) (n w off : Nat) : Nat := fld s (F.ENG_n_WINw_BASE n w) * 0x10000 + off

/-- The device address that a request keeps while it waits; 0 through an invalid window, which reaches nothing. -/
def winTarget (s : State) (n w off : Nat) : Nat := if flag s (F.ENG_n_WINw_VALID n w) then winAddr s n w off else 0

end Sys2Proof.Machine
end

