-- ==== Sys2Proof/Machine/EngineOps.lean ====
section
/-! DEFINITION. What every engine instruction shares (chapters 07, 08 and R485 to R487): issue, retirement, faults,
halts, wait events, window requests, stream ports and the insert path. -/
namespace Sys2Proof.Machine

/-! ### Halts (R485, R486) -/

/-- The HALTED, PENDING and CAUSE fields of a thread. -/
def setHalted (s : State) (n t : Nat) (b : Bool) : State :=
  setFld s (F.DBG_ENGn_STATUS_HALTED n) (putBits (fld s (F.DBG_ENGn_STATUS_HALTED n)) t 1 (b2n b))
def setHaltPending (s : State) (n t : Nat) (b : Bool) : State :=
  setFld s (F.DBG_ENGn_STATUS_PENDING n) (putBits (fld s (F.DBG_ENGn_STATUS_PENDING n)) t 1 (b2n b))

/-- The cause of a thread's last halt: 0 REQUEST, 1 STEP, 2 BREAK, 3 WATCH, 4 BRK. -/
def haltCause (s : State) (n t : Nat) : Nat := bits (fld s (F.DBG_ENGn_STATUS_CAUSE n)) (3 * t) 3

/-- One thread halts with a cause, and event 0x1E01. -/
def haltOne (s : State) (n t cause : Nat) : State :=
  let s1 := setThread s n t { thread s n t with step := false, watch := false }
  let s2 := setFld s1 (F.DBG_ENGn_STATUS_CAUSE n) (putBits (fld s1 (F.DBG_ENGn_STATUS_CAUSE n)) (3 * t) 3 cause)
  raise (setHaltPending (setHalted s2 n t true) n t false) 0x1E01 [(1, cause)]

/-- A halt is asked of a thread: at once between instructions or in WAIT, at its boundary for a stalled one, nothing
for a stopped, faulted or halted one. -/
def haltRequest (s : State) (n t : Nat) : State :=
  if halted s n t || (thrState s n t != tRUN && thrState s n t != tWAIT) then s
  else if (thread s n t).blk = Blk.free ∨ thrState s n t = tWAIT then haltOne s n t 0
  else setHaltPending s n t true

/-- A thread halts; with HALT_ALL a break, a watch hit or a BRK halts the other three. -/
def halt (s : State) (n t cause : Nat) : State :=
  let s1 := haltOne s n t cause
  if flag s (F.DBG_ENGn_CTRL_HALT_ALL n) && decide (2 ≤ cause) then
    forEach ([0, 1, 2, 3].filter (· != t)) (fun s u => haltRequest s n u) s1
  else s1

/-- A breakpoint of the thread lies at its PC. -/
def bpHit (s : State) (n t : Nat) : Bool :=
  [0, 1, 2, 3].any fun b => flag s (F.DBG_ENGn_BPb_EN n b) && bitOf (fld s (F.DBG_ENGn_BPb_THREADS n b)) t
    && fld s (F.DBG_ENGn_BPb_PC n b) == (thread s n t).pc

/-- Watchpoint w matches an access of `k` bytes at local address `a`. -/
def wpHit (s : State) (n t w a k : Nat) (store : Bool) : Bool :=
  flag s (F.DBG_ENGn_WPw_EN n w) && bitOf (fld s (F.DBG_ENGn_WPw_THREADS n w)) t
  && bitOf (fld s (F.DBG_ENGn_WPw_KIND n w)) (b2n store)
  && decide (fld s (F.DBG_ENGn_WPw_ADDR n w) < a + k) && decide (a ≤ fld s (F.DBG_ENGn_WPw_ADDR n w) + fld s (F.DBG_ENGn_WPw_LEN n w))

/-- A watch hit is recorded, and the thread halts at the end of the instruction. -/
def watchAccess (s : State) (n t a k : Nat) (store : Bool) : State :=
  match [0, 1].find? fun w => wpHit s n t w a k store with
  | none => s
  | some w =>
    let s1 := setFld (setFld (setFld s (F.DBG_ENGn_WHIT_ADDR n) a) (F.DBG_ENGn_WHIT_WP n) w) (F.DBG_ENGn_WHIT_THREAD n) t
    setThread s1 n t { thread s1 n t with watch := true }

/-! ### Issue, retirement and faults (R152, R153, R190) -/

/-- A thread goes to STOPPED; a halt of it ends (R487). -/
def stopThread (s : State) (n t : Nat) : State :=
  let s1 := setThread s n t { thread s n t with blk := .free, go := false, step := false, watch := false }
  setThrState (setHaltPending (setHalted s1 n t false) n t false) n t tSTOPPED

/-- The boundary after an instruction: the thread stops, halts or goes on. -/
def boundary (s : State) (n t : Nat) : State :=
  if !thrWanted s n t then stopThread s n t
  else if (thread s n t).watch then halt s n t 3
  else if (thread s n t).step then halt s n t 1
  else if haltPending s n t then halt s n t 0
  else s

/-- An instruction completes and the thread goes on at `pc`. -/
def retireAt (s : State) (n t pc : Nat) : State :=
  boundary (setThread s n t { thread s n t with pc := pc % 2 ^ 32, blk := .free, go := false }) n t

/-- An instruction completes and the thread goes on at the next word. -/
def nextInstr (s : State) (n t : Nat) : State := retireAt s n t ((thread s n t).pc + 4)

/-- A thread enters FAULT with a cause: START bit cleared, event 0x1801 (R153, R190). -/
def faultThread (s : State) (n t cause : Nat) : State :=
  let s1 := setThread s n t { thread s n t with blk := .free, go := false, step := false, watch := false }
  let s2 := setThrState (setHaltPending (setHalted s1 n t false) n t false) n t tFAULT
  let s3 := setFld (setFld s2 (F.ENG_n_Tt_FAULT_CAUSE n t) cause) (F.ENG_n_CTRL_START n) (putBits (fld s2 (F.ENG_n_CTRL_START n)) t 1 0)
  raise s3 0x1801 [(1, n), (1, t), (1, cause)]

/-! The causes of R190. -/
namespace FC
def illegal := 1
def fetch := 2
def align := 3
def poison := 4
def addr := 5
def csr := 6
def brk := 7
end FC

/-- The thread could issue an instruction: it is in RUN, waits for nothing, is not halted, and the clock runs. -/
def thrReady (s : State) (n t : Nat) : Bool :=
  thrState s n t == tRUN && (thread s n t).blk == Blk.free && !halted s n t && engClock s n

/-- The PC is one that can be fetched (R154). -/
def pcOk (s : State) (n t : Nat) : Bool := decide ((thread s n t).pc < 0x10000) && (thread s n t).pc % 4 == 0

/-- The word at the PC. -/
def fetched (s : State) (n t : Nat) : Nat := spLoad s n (thread s n t).pc 4

/-- The thread issues the instruction encoded as `w`: it is ready, and the word at its PC is that legal instruction. -/
def canIssue (s : State) (n t w : Nat) : Bool :=
  thrReady s n t && pcOk s n t && !spPoisoned s n ((thread s n t).pc / 8) && fetched s n t == w && legalWord w

/-- An instruction issues with effect `k`, unless it cannot (no effect) or a breakpoint halts the thread before it. -/
def issue (s : State) (n t w : Nat) (k : State → State) : State :=
  if canIssue s n t w then
    if bpHit s n t && !(thread s n t).go then halt s n t 2
    else k s
  else s

/-- A result in rd, with the flags if F asks for them. -/
def writeRes (s : State) (n t rd : Nat) (f : Bool) (r : Word) (fl : Flg) : State :=
  let s1 := setG s n t rd r
  nextInstr (if f then setFlg s1 n t fl else s1) n t

/-- A Q result: QSAT.STICKY is set by a saturation whatever F is (R178). -/
def writeQ (s : State) (n t rd : Nat) (f : Bool) (x : Word × Bool) : State :=
  let s1 := if x.2 then setThread s n t { thread s n t with qsat := true } else s
  writeRes s1 n t rd f x.1 (flagsQ (flg s n t) x.1 x.2)

/-! ### Wait events (R155) -/

/-- The FIFO of stream port k: words with LAST in bit 64. -/
def fifo (s : State) (n k : Nat) : List Nat := smGet (engine s n).fifos k []

/-- The FIFO of a stream port replaced. -/
def setFifo (s : State) (n k : Nat) (l : List Nat) : State :=
  setEngine s n { engine s n with fifos := smSet (engine s n).fifos k l [] }

/-- The next dispatch slot has come: the committed targets are compared from now on (R188). -/
def latchTargets (s : State) : State :=
  forEach (s.engines.flatMap fun e => [0, 1, 2, 3].map fun t => (e.1, t)) (fun s x =>
    let y := thread s x.1 x.2
    if y.tgtUse = y.tgt ∧ y.tmrUse = y.tmr then s else setThread s x.1 x.2 { y with tgtUse := y.tgt, tmrUse := y.tmr }) s

/-- The pending events of a thread, in the layout of R155. -/
def eventsOf (s : State) (n t : Nat) : Nat :=
  let x := thread s n t
  let so := (List.range 4).map fun k => b2n (decide ((fifo s n k).length < 8)) * 2 ^ (2 + k)
  let si := (List.range 4).map fun k => b2n (!(fifo s n (4 + k)).isEmpty) * 2 ^ (6 + k)
  b2n (!(engine s n).wakeq.isEmpty) + b2n (!(engCqOf s n).isEmpty) * 2 + so.sum + si.sum
  + b2n (axState s x.axis == aTRACK && decide (x.tgtUse ≤ fld s (F.ANG_AXn_STAMP_STAMP x.axis))) * 2 ^ 10
  + b2n (rtValid s && decide (x.tmrUse ≤ now s)) * 2 ^ 11
  + fld s (F.ENG_n_SIGNAL_SIGNAL n) * 2 ^ 16

/-- The wait mask of the last WAIT. -/
def waitMask (s : State) (n t : Nat) : Nat := fld s (F.ENG_n_Tt_MASK_MASK n t)

/-- A thread in WAIT has an event of its mask pending. -/
def wakeable (s : State) (n t : Nat) : Bool := thrState s n t == tWAIT && (eventsOf s n t &&& waitMask s n t) != 0

/-- A thread leaves WAIT for the instruction after it; it halts where it was stepped (R153, R485). -/
def wakeThread (s : State) (n t : Nat) : State :=
  let s1 := setThrState s n t tRUN
  if halted s n t then s1 else boundary s1 n t

/-- Every thread whose event is pending leaves WAIT. -/
def wakeThreads (s : State) (n : Nat) : State :=
  forEach [0, 1, 2, 3] (fun s t => if wakeable s n t then wakeThread s n t else s) s

/-- A gated engine restarts (R156). -/
def engRestart (s : State) (n : Nat) : State :=
  let s1 := setFld s (F.ENG_n_STATUS_GATED n) 0
  wakeThreads (setEngine s1 n { engine s1 n with owed := 0 }) n

/-- A cause to restart engine n, charged in the slot of an internal entry or else requested on rail 8 (R156, R424,
R445). -/
def engWake (s0 : State) (n : Nat) (charged : Bool) : State :=
  let s := entryWake s0
  if (engine s n).gateReq then wakeThreads (setEngine s n { engine s n with gateReq := false }) n
  else if pwrClosed s then
    let s1 := wakeSource s 4
    if flag s1 (F.ENG_n_STATUS_GATED n) then
      setEngine s1 n { engine s1 n with owed := max (engine s1 n).owed (if charged then 2 else 1) }
    else s1
  else if !flag s (F.ENG_n_STATUS_GATED n) then wakeThreads s n
  else if charged then engRestart (r8Charge (r8Withdraw s fun x => x == R8Req.engineWake n) 1) n
  else r8Request s (.engineWake n)

/-- A message of an ENGINE_WAKE entry (R167): queued, or lost with event 0x1802. -/
def wakeMessage (s : State) (n msg : Nat) : State :=
  if !engOn s n || decide (16 ≤ (engine s n).wakeq.length) then
    raise (satInc s (F.ENG_n_WAKEQ_LOST n)) 0x1802 [(1, n)]
  else engWake (setEngine s n { engine s n with wakeq := (engine s n).wakeq ++ [msg] }) n true

/-! ### The insert path (R61, R166) -/

/-- Held TTIs are handed over while the path takes them, oldest first; their threads go on. -/
def pumpTtis (n : Nat) : Nat → State → State
  | 0, s => s
  | k + 1, s =>
    match (engine s n).ttis with
    | [] => s
    | h :: r =>
      if engHeld s n then s
      else pumpTtis n k (nextInstr (handOver (setEngine s n { engine s n with ttis := r }) ⟨.engine n, h.tag, h.entry⟩) n h.thread)

/-- The insert path of engine n takes what it can. -/
def engPump (s : State) (n : Nat) : State := pumpTtis n (engine s n).ttis.length s

/-- Every engine's insert path takes what it can: the class bound of R61 is shared. -/
def pumpAll (s : State) : State :=
  forEach ((s.engines.filter fun e => !e.2.ttis.isEmpty).map (·.1)) engPump s

/-- A TTI presents an entry: accepted at once, or held (R166, R184). -/
def presentTti (s : State) (n t tag entry : Nat) : State :=
  if (engine s n).ttis.isEmpty && !engHeld s n then nextInstr (handOver s ⟨.engine n, tag, entry⟩) n t
  else
    let s1 := setEngine s n { engine s n with ttis := (engine s n).ttis ++ [⟨t, tag, entry⟩] }
    setThread s1 n t { thread s1 n t with blk := .tti }

/-! ### Stream ports (R163, R183) -/

/-- Port k completes DISABLED: its EN bit is 0, or the adjacent region is not RELEASED (R163, R214). -/
def portOff (s : State) (n k : Nat) : Bool := !bitOf (fld s (F.ENG_n_SPORT_EN n)) k || regState s (engRegion n) != gRELEASED

/-- The region clock that the fabric side of port k runs on has edges (R162). -/
def portTicks (s : State) (n k : Nat) : Bool :=
  regTicks s (engRegion n) && regClkEn s (engRegion n) (bits (fld s (F.ENG_n_SPORT_CLKSEL n)) (2 * k) 2)

/-- An SRD or SWR completes with a status: SSTAT and Z; C and SSTAT.LAST for an SRD, whose pair takes the word. -/
def endStream (s : State) (n t st : Nat) (dest : Option (Nat × Nat)) : State :=
  let s1 := setThread s n t { thread s n t with sst := st }
  let f := flg s1 n t
  match dest with
  | none => nextInstr (setFlg s1 n t { f with z := st == 0 }) n t
  | some (rd, w) =>
    let s2 := setThread s1 n t { thread s1 n t with sstLast := bitOf w 64 }
    nextInstr (setPair (setFlg s2 n t { f with z := st == 0, c := bitOf w 64 }) n t rd (w % 2 ^ 64)) n t

/-- An SRD takes the oldest word of its FIFO. -/
def takeWord (s : State) (n t k rd : Nat) : State :=
  match fifo s n k with
  | [] => s
  | w :: r => endStream (setFifo s n k r) n t ST.ok (some (rd, w))

/-- An SWR's word enters its FIFO; a word in an outbound port wakes the region (R210). -/
def giveWord (s : State) (n t k w : Nat) : State :=
  regionWake (endStream (setFifo s n k (fifo s n k ++ [w])) n t ST.ok none) (engRegion n) false

/-- A waiting SRD or SWR of thread t completes with a status other than OK. -/
def failStream (s : State) (n t st : Nat) : State :=
  match (thread s n t).blk with
  | .srd _ rd => endStream s n t st (some (rd, 0))
  | .swr _ _ => endStream s n t st none
  | _ => s

/-- The threads that wait on port k. -/
def waitersOn (s : State) (n k : Nat) : List Nat :=
  [0, 1, 2, 3].filter fun t =>
    match (thread s n t).blk with
    | .srd p _ => p == k
    | .swr p _ => p == k
    | _ => false

/-- One of the threads that wait on port k goes on; which of several the spec leaves open, a free value chooses. -/
def serveWaiter (s : State) (n k : Nat) : State :=
  match waitersOn s n k with
  | [] => s
  | t0 :: ts =>
    let l := t0 :: ts
    let t := l.getD (freeOf s % l.length) t0
    let s1 := if ts.isEmpty then s else drawn s
    match (thread s n t).blk with
    | .srd _ rd => if (fifo s n k).isEmpty then s else takeWord s1 n t k rd
    | .swr _ w => if 8 ≤ (fifo s n k).length then s else giveWord s1 n t k w
    | _ => s

/-- A write of ENG_n_SPORT has turned ports off: what waits on them completes DISABLED (R163). -/
def portsOff (s : State) (n : Nat) : State :=
  forEach (List.range 8) (fun s k => if bitOf (fld s (F.ENG_n_SPORT_EN n)) k then s else forEach (waitersOn s n k) (fun s t => failStream s n t ST.disabled) s) s

/-- The adjacent region leaves RELEASED (R163): waiting transfers complete DISABLED, outbound words are discarded. -/
def streamsOff (s : State) (n : Nat) : State :=
  let s1 := forEach [0, 1, 2, 3] (fun s t => failStream s n t ST.disabled) s
  let lost := ((List.range 4).map fun k => (fifo s1 n k).length).sum
  if lost = 0 then s1
  else
    let s2 := forEach (List.range 4) (fun s k => setFifo s n k []) s1
    raise (satAdd s2 (F.ENG_n_SPORT_DISC_DISC n) lost) 0x1806 [(1, n)]

/-- The engines whose stream ports enter region r. -/
def regionEngines (r : Nat) : List Nat := if r % 24 < 4 then (List.range 8).map (fun i => r / 24 * 32 + r % 24 * 8 + i) else []

/-! ### Window requests (R164, R165) -/

/-- A window request is queued. -/
def pushWin (s : State) (n : Nat) (q : WinReq) : State := setEngine s n { engine s n with win := (engine s n).win ++ [q] }

/-- The thread has window stores outstanding. -/
def storesOut (s : State) (n t : Nat) : Bool := (engine s n).win.any fun q => q.store && q.thread == t

/-- A failed posted store is recorded if no record is valid, with event 0x1803. -/
def storeError (s : State) (n : Nat) (q : WinReq) (st : Nat) : State :=
  let s1 := raise s 0x1803 [(1, n)]
  if flag s (F.ENG_n_WERR_VALID n) then s1
  else setFld (setFld (setFld (setFld s1 (F.ENG_n_WERR_STATUS n) st) (F.ENG_n_WERR_WINDOW n) q.win)
    (F.ENG_n_WERR_OFF_OFFSET n) q.off) (F.ENG_n_WERR_VALID n) 1

/-- A value loaded, extended to 32 bits. -/
def extend (v w : Nat) (sgn : Bool) : Word :=
  if sgn then BitVec.ofInt 32 (toSigned (8 * w) v) else BitVec.ofNat 32 v

/-- A loaded value in its destination. -/
def writeLoad (s : State) (n t rd w : Nat) (sgn : Bool) (v : Nat) : State :=
  if w = 8 then setPair s n t rd v else setG s n t rd (extend v w sgn)

/-- A window access ends with a status: a load writes its destination and LDSTAT and its thread goes on; a store that
failed is recorded, and a FENCE that waited for it goes on (R165, R181, R186). -/
def endWin (s : State) (n : Nat) (q : WinReq) (st data : Nat) : State :=
  let s1 := setEngine s n { engine s n with win := (engine s n).win.erase q }
  if q.store then
    let s2 := if st = ST.ok then s1 else storeError s1 n q st
    if (thread s2 n q.thread).blk = Blk.fence ∧ storesOut s2 n q.thread = false then nextInstr s2 n q.thread else s2
  else
    let x := thread s1 n q.thread
    let s2 := setThread s1 n q.thread { x with ldLast := st, ldErr := x.ldErr || st != 0 }
    nextInstr (writeLoad s2 n q.thread q.rd q.width q.sgn (if st = 0 then data else 0)) n q.thread

/-! ### Signals and notifications (R168) -/

/-- NOTIFY bits are set; each 0-to-1 change raises event 0x1805. -/
def setNotify (s : State) (n v : Nat) : State :=
  let old := fld s (F.ENG_n_NOTIFY_NOTIFY n)
  forEach ((List.range 16).filter fun i => bitOf v i && !bitOf old i) (fun s i => raise s 0x1805 [(1, n), (1, i)])
    (setFld s (F.ENG_n_NOTIFY_NOTIFY n) (old ||| v))

/-! ### Draining (R169) -/

/-- Nothing of the engine is in flight. -/
def engDrained (s : State) (n : Nat) : Bool := (engine s n).win.isEmpty && srcInFlight s (.engine n) == 0

/-- A disabled engine's draining ends. -/
def engDrainEnd (s : State) (n : Nat) : State := setFld (setFld s (F.ENG_n_CTRL_ENABLE n) 0) (F.ENG_n_STATUS_DRAINING n) 0

end Sys2Proof.Machine
end

