-- ==== Sys2Proof/Machine/Engines.lean ====
section
/-! DEFINITION. The Drive Engines' own commands (chapter 07): enabling, starting, stopping, waking, gating, the
scratchpad's external port, stream transfers, window time-outs, signals and reset. -/
namespace Sys2Proof.Machine

/-! ### Enabling, starting and stopping (R153, R169) -/

/-- A thread starts from ENG_n_Tt_PC; a gated engine is woken by it (R153, R156). -/
def startThread (s : State) (n t : Nat) : State :=
  let x := thread s n t
  engWake (setThrState (setThread s n t { x with pc := x.pc % 2 ^ 16, go := false }) n t tRUN) n false

/-- A thread whose START bit is 1 starts where it is stopped or faulted. -/
def startWanted (s : State) (n t : Nat) : State :=
  if thrWanted s n t && (thrState s n t == tSTOPPED || thrState s n t == tFAULT) then startThread s n t else s

/-- Engine n may be enabled: no destructive test of its scratchpad is running (R467). -/
def engMayEnable (s : State) (n : Nat) : Bool := !((List.range 8).any fun k => bankTested s (6 + n / 32) (8 * (n % 32) + k))

/-- Setting ENG_n_CTRL.ENABLE: each thread whose START bit is set starts; no effect while DRAINING. -/
def engEnable (s : State) (n : Nat) : State :=
  if flag s (F.ENG_n_STATUS_DRAINING n) || !engMayEnable s n then s
  else forEach [0, 1, 2, 3] (fun s t => startWanted s n t) (setFld s (F.ENG_n_CTRL_ENABLE n) 1)

def execEngEnable (n : Fin 96) (s : State) : Host.Outcome State Fault Refusal := done (engEnable s n)

/-- A thread that is no longer wanted stops at once between instructions and in WAIT, else at its boundary. -/
def stopUnwanted (s : State) (n t : Nat) : State :=
  if thrWanted s n t then s
  else if thrState s n t = tWAIT ∨ (thrState s n t = tRUN ∧ (thread s n t).blk = Blk.free) then stopThread s n t
  else s

/-- A write of the START bits (R153). -/
def engStart (s : State) (n v : Nat) : State :=
  let s1 := setFld s (F.ENG_n_CTRL_START n) v
  let s2 := forEach [0, 1, 2, 3] (fun s t => stopUnwanted s n t) s1
  forEach ([0, 1, 2, 3].filter fun t => bitOf v t) (fun s t => startWanted s n t) s2

def execEngStart (n : Fin 96) (bits : BitVec 4) (s : State) : Host.Outcome State Fault Refusal := done (engStart s n bits.toNat)

/-- A held TTI is cancelled with a DISABLED record (R169). -/
def cancelTti (s : State) (n : Nat) (h : HeldTti) : State :=
  let s1 := setTt s { s.tt with engCq := smSet s.tt.engCq n (engCqOf s n ++ [insRecord h.tag ST.disabled 0 h.entry]) [] }
  nextInstr s1 n h.thread

/-- Clearing ENG_n_CTRL.ENABLE (R169): threads stop, waiting stream transfers end DISABLED, held TTIs are cancelled; the
engine drains while a window request or an insertion is in flight. -/
def engDisable (s : State) (n : Nat) : State :=
  if !flag s (F.ENG_n_CTRL_ENABLE n) || flag s (F.ENG_n_STATUS_DRAINING n) then s
  else
    let s1 := setFld s (F.ENG_n_STATUS_DRAINING n) 1
    let s2 := forEach [0, 1, 2, 3] (fun s t => failStream s n t ST.disabled) s1
    let s3 := forEach (engine s2 n).ttis (fun s h => cancelTti s n h) (setEngine s2 n { engine s2 n with ttis := [] })
    let s4 := forEach [0, 1, 2, 3] (fun s t => stopUnwanted s n t) s3
    if engDrained s4 n then engDrainEnd s4 n else s4

def execEngDisable (n : Fin 96) (s : State) : Host.Outcome State Fault Refusal := done (engDisable s n)

/-! ### Waking and gating (R153, R156) -/

/-- A pending event of a waiting thread: the thread goes on, or the gated engine's restart is asked for. -/
def threadWake (s : State) (n t : Nat) : State :=
  if !wakeable s n t then s
  else if flag s (F.ENG_n_STATUS_GATED n) || (engine s n).gateReq || !engClock s n then engWake s n false
  else wakeThread s n t

def execThreadWake (n : Fin 96) (t : Fin 4) (s : State) : Host.Outcome State Fault Refusal := done (threadWake s n t)

/-- The engine may gate its clock: GATE_EN, no thread in RUN or wakeable, nothing outstanding (R156, R485). -/
def mayGate (s : State) (n : Nat) : Bool :=
  flag s (F.ENG_n_CTRL_GATE_EN n) && engClock s n && (engine s n).win.isEmpty
  && [0, 1, 2, 3].all fun t => thrState s n t != tRUN && !wakeable s n t

/-- The engine asks for its gate; GATE_ACK closes it (R423). -/
def engineGate (s : State) (n : Nat) : State :=
  if mayGate s n then setEngine s n { engine s n with gateReq := true } else s

def execEngineGate (n : Fin 96) (s : State) : Host.Outcome State Fault Refusal := done (engineGate s n)

/-! ### The external port (R158 to R160) -/

/-- What an external access finds at one word: its status, and the state it leaves. `coll` tells a collision with an
engine access to the word, `engW` that this one writes. -/
def extWord (s : State) (n i : Nat) (write coll engW : Bool) (be v ecc : Nat) : Nat × State :=
  if be = 0 then (ST.ok, s)
  else if write then
    if spPoisoned s n i && be != 255 then (ST.poison, s)
    else
      let mask := (List.range 8).foldr (fun j m => (if bitOf be j then 255 else 0) + 256 * m) 0
      let old := spWord s n i
      let s1 := setSpWord (if be = 255 then setSpPoison s n i false else s) n i ((old - (old &&& mask)) + (v &&& mask))
      if coll && engW then (ST.busy, s1)
      else if coll then (ST.ok, satInc s1 (F.ENG_n_BUSY_ENGINE n))
      else (ST.ok, s1)
  else if coll && engW then (ST.busy, s)
  else
    let s1 := spCheck s n i ecc
    (if spPoisoned s1 n i then ST.poison else ST.ok, s1)

/-- The words 0 to 7 of a line in turn: the statuses, newest first, and the state. -/
def extWords (s : State) (n line : Nat) (write : Bool) (be data coll engW ecc eccWord : Nat) : List Nat × State :=
  (List.range 8).foldl (fun (x : List Nat × State) j =>
    let r := extWord x.2 n (8 * line + j) write (bitOf coll j) (bitOf engW j) (bits be (8 * j) 8) (bits data (64 * j) 64) (if j = eccWord then ecc else 0)
    (r.1 :: x.1, r.2)) ([], s)

/-- The data an external read returns: the words asked for; a BUSY word returns undefined data, a free value. -/
def extData (s : State) (n line be coll engW : Nat) : Nat :=
  (List.range 8).foldr (fun j x =>
    (if bits be (8 * j) 8 = 0 then 0
     else if bitOf coll j && bitOf engW j then bits (freeOf s) (64 * j) 64
     else spWord s n (8 * line + j)) + 2 ^ 64 * x) 0

/-- An external access to one line of a scratchpad: BUSY if any of its words received BUSY, else POISON if any did. -/
def extAccess (s : State) (n line : Nat) (write : Bool) (be data coll engW ecc eccWord : Nat) : Nat × Nat × State :=
  if dieShut s (logicPos (engDie n)) || blkShut s 0x18 || s.rst.engWait.contains n || s.rst.engOn.contains n then (ST.reset, 0, s)
  else if (List.range 8).any fun k => bits be (8 * k) 8 != 0 && bankTested s (6 + n / 32) (8 * (n % 32) + k) then (ST.disabled, 0, s)
  else
    let r := extWords s n line write be data coll engW ecc eccWord
    let st := if r.1.contains ST.busy then ST.busy else if r.1.contains ST.poison then ST.poison else ST.ok
    let s1 := if st = ST.busy then satInc r.2 (F.ENG_n_BUSY_EXTERNAL n) else r.2
    let s2 := if st = ST.busy ∧ write = false then drawn s1 else s1
    (st, if write then 0 else extData s n line be coll engW, s2)

def execScratchpadExternal (n : Fin 96) (line : Fin 1024) (write : Bool) (be : BitVec 64) (data : BitVec 512) (coll : BitVec 8)
    (engWrites : BitVec 8) (ecc : Fin 3) (eccWord : Fin 8) (s : State) : Host.Outcome State Fault Refusal :=
  let r := extAccess s n line write be.toNat data.toNat coll.toNat engWrites.toNat ecc eccWord
  done (respond r.2.2 MC.none n r.1 r.2.1)

/-! ### Streams and windows (R162, R163, R165) -/

/-- A word crosses stream port k on an edge with VALID and READY high: outbound the fabric takes the oldest word,
inbound the word enters the FIFO. A waiting thread goes on. -/
def streamTransfer (s : State) (n k data : Nat) (last : Bool) : State :=
  if portOff s n k || !portTicks s n k then s
  else if k < 4 then
    (if (fifo s n k).isEmpty then s else serveWaiter (setFifo s n k (fifo s n k).tail) n k)
  else if !engOn s n || decide (8 ≤ (fifo s n k).length) then s
  else serveWaiter (setFifo s n k (fifo s n k ++ [data + b2n last * 2 ^ 64])) n k

def execStreamTransfer (n : Fin 96) (k : Fin 8) (data : BitVec 64) (last : Bool) (s : State) : Host.Outcome State Fault Refusal :=
  done (streamTransfer s n k data.toNat last)

/-- ENG_n_STREAM_TO has passed for a waiting SRD or SWR; 0 waits without limit. -/
def execStreamTimeout (n : Fin 96) (t : Fin 4) (s : State) : Host.Outcome State Fault Refusal :=
  done (if fld s (F.ENG_n_STREAM_TO_TIMEOUT n) = 0 then s else failStream s n t ST.timeout)

/-- Window request k of engine n has had no response in 100 µs; the conditions checked before come first (R165). -/
def execWindowTimeout (n : Fin 96) (k : Fin 16) (s : State) : Host.Outcome State Fault Refusal :=
  done (match (engine s n).win[k.val]? with | some q => endWin s n q (if q.pre = 0 then ST.timeout else q.pre) 0 | none => s)

/-- A master sets SIGNAL bits (R168). -/
def execEngSignalSet (n : Fin 96) (bits : BitVec 16) (s : State) : Host.Outcome State Fault Refusal :=
  done (setFld s (F.ENG_n_SIGNAL_SIGNAL n) (fld s (F.ENG_n_SIGNAL_SIGNAL n) ||| bits.toNat))

/-! ### Completion records (R63, R210) -/

/-- A record is written: a fabric port's wakes its region, an engine's may let a held TTI go on. -/
def recordWritten (s : State) (k : Nat) : State :=
  match s.tt.done[k]? with
  | none => s
  | some d =>
    let s1 := pumpAll (completionRecord s k)
    match d.src with
    | .fabric p => regionWake s1 (insRegion p) false
    | _ => s1

def execCompletionRecord (k : Nat) (s : State) : Host.Outcome State Fault Refusal := done (clocked s (recordWritten s k))

/-! ### Exceptions at the fetch (R154, R160, R175, R190) -/

/-- The word at the PC is no legal instruction: the thread faults with ILLEGAL. -/
def illegalInstruction (s : State) (n t : Nat) : State :=
  if thrReady s n t && pcOk s n t && !spPoisoned s n ((thread s n t).pc / 8) && !legalWord (fetched s n t) then
    faultThread s n t FC.illegal
  else s

def execIllegalInstruction (n : Fin 96) (t : Fin 4) (s : State) : Host.Outcome State Fault Refusal := done (illegalInstruction s n t)

/-- A fetch at a PC that cannot be fetched, or of a word found poisoned; `ecc` is what the fetch's read finds. -/
def fetchFault (s : State) (n t ecc : Nat) : State :=
  if !thrReady s n t then s
  else if !pcOk s n t then faultThread s n t FC.fetch
  else
    let s1 := spCheck s n ((thread s n t).pc / 8) ecc
    if spPoisoned s1 n ((thread s n t).pc / 8) then faultThread s1 n t FC.poison else s1

def execFetchFault (n : Fin 96) (t : Fin 4) (ecc : Fin 3) (s : State) : Host.Outcome State Fault Refusal := done (fetchFault s n t ecc)

/-! ### Reset (R170, R487) -/

/-- An engine with its threads stopped, its registers undefined by draw d, and its scratchpad kept. -/
def freshEngine (s : State) (n d : Nat) : Engine :=
  let e := engine s n
  let hit := fun t => match (thread s n t).blk with | .srd _ _ => true | .swr _ _ => true | _ => false
  { threads := [0, 1, 2, 3].map fun t => (t, { und := d + 1, sst := if hit t then ST.reset else 0 })
    sp := e.sp, spDraw := e.spDraw, spPoison := e.spPoison }

/-- A BLOCK reset of engine n: threads stopped, registers undefined, window responses discarded, the insert path as R70
says, wake queue and FIFOs emptied; scratchpad and ENG registers other than START and the PCs kept. -/
def engineReset (s : State) (n : Nat) : State :=
  let s1 := drawn (setEngine s n (freshEngine s n s.free))
  let s2 := orphanSources s1 fun x => x == Src.engine n
  let s3 := setTt s2 { s2.tt with engCq := smSet s2.tt.engCq n [] [] }
  let s4 := setFld (setFld (setFld s3 (F.ENG_n_CTRL_START n) 0) (F.ENG_n_STATUS_THREADS n) 0) (F.ENG_n_STATUS_GATED n) 0
  let s5 := setFld (setFld s4 (F.DBG_ENGn_STATUS_HALTED n) 0) (F.DBG_ENGn_STATUS_PENDING n) 0
  let s6 := resetOffsets s5 (0x1E1008 + 0x40 * n) (0x1E1028 + 0x40 * n)
  let s7 := r8Withdraw s6 fun x => x == R8Req.engineWake n
  if flag s7 (F.ENG_n_STATUS_DRAINING n) then engDrainEnd s7 n else s7

end Sys2Proof.Machine
end

