-- ==== Sys2Proof/Machine/Fabric.lean ====
section
/-! DEFINITION. Strobes, sleep, block memories and vertical-track claims of the fabric (chapters 09 and 10). -/
namespace Sys2Proof.Machine

/-! ### Strobes (R211, R212) -/

/-- FAB_CTRL.ENABLE reads 1 and is not being cleared. -/
def fabOn (s : State) : Bool := flag s F.FAB_CTRL_ENABLE && !flag s F.FAB_STATUS_DRAINING

/-- The strobe inputs of region r that take a line. -/
def strobeInputs (s : State) (r line : Nat) : List Nat :=
  (List.range 8).filter fun k => flag s (F.FAB_REGr_STBk_EN r k) && fld s (F.FAB_REGr_STBk_LINE r k) == line

/-- A pulse at input k of region r: latched, merged with one not yet presented, or discarded. -/
def strobeInput (s : State) (r k : Nat) : State :=
  if !regRuns s r || !fabOn s then raiseMerged (satInc s (F.FAB_REGr_STB_CNT_DISC r)) 0x0703 r [(1, r)]
  else if (region s r).stb.contains k then raiseMerged (satInc s (F.FAB_REGr_STB_CNT_MERGED r)) 0x0702 r [(1, r)]
  else setRegion s r { region s r with stb := (region s r).stb ++ [k] }

/-- A pulse reaches a region; a strobe it latches wakes a sleeping one, charged in the slot. -/
def strobeRegion (s : State) (line r : Nat) : State :=
  let ks := strobeInputs s r line
  let s1 := forEach ks (fun s k => strobeInput s r k) s
  if !ks.isEmpty && fabOn s then regionWake s1 r true else s1

/-- A pulse on a strobe line (R211). -/
def strobeLine (s : State) (line : Nat) : State := forEach (List.range 72) (fun s r => strobeRegion s line r) s

/-- A latched pulse is presented: STB[k] is high until the next edge of its region clock. -/
def strobePresent (s : State) (r k : Nat) : State :=
  if (region s r).stb.contains k && regTicks s r && regClkEn s r (fld s (F.FAB_REGr_STBk_CLKSEL r k)) then
    setRegion s r { region s r with
      stb := (region s r).stb.filter (· != k)
      stbOut := (region s r).stbOut.filter (· != k) ++ [k] }
  else s

def execStrobePresent (r : Fin 72) (k : Fin 8) (s : State) : Host.Outcome State Fault Refusal := done (strobePresent s r k)

/-! ### Sleep and wake (R210) -/

/-- SLEEP_REQ has been high on 16 edges: the gate of the region's clocks is requested. -/
def regionSleep (s : State) (r : Nat) : State :=
  if regState s r == gRELEASED && flag s (F.FAB_REGr_CTRL_AUTO_SLEEP r) && regTicks s r && regClkEn s r 0 && !regFrozen s r then
    setRegion s r { region s r with gateReq := true }
  else s

def execRegionSleep (r : Fin 72) (s : State) : Host.Outcome State Fault Refusal := done (regionSleep s r)

/-- FAB_REGr_CTRL.WAKE written 1: it reads 1 until the region wakes. -/
def regionWakeWrite (s : State) (r : Nat) : State :=
  if regAsleep s r && regRuns s r then regionWake (setFld s (F.FAB_REGr_CTRL_WAKE r) 1) r false
  else regionWake s r false

def execRegionWakeWrite (r : Fin 72) (s : State) : Host.Outcome State Fault Refusal := done (regionWakeWrite s r)

/-! ### Disabling (R215) -/

/-- Every latched strobe is presented and no wake waits on rail 8. -/
def fabDrained (s : State) : Bool :=
  s.regions.all (fun e => e.2.stb.isEmpty && e.2.owed == 0)
  && !(s.dsp.r8queue.any fun x => match x with | .regionStart r => regAsleep s r | _ => false)

/-- Draining has ended. -/
def fabDrainEnd (s : State) : State := setFld (setFld s F.FAB_CTRL_ENABLE 0) F.FAB_STATUS_DRAINING 0

def fabDisable (s : State) : State :=
  if !flag s F.FAB_CTRL_ENABLE then s
  else if fabDrained s then fabDrainEnd s
  else setFld s F.FAB_STATUS_DRAINING 1

def execFabDisable (s : State) : Host.Outcome State Fault Refusal := done (fabDisable s)

/-! ### Block memories (R202 to R207, R342) -/

/-- The word width and depth that WIDTH gives. -/
def bmWidth (m : Nat) : Nat := match bits m 3 3 with | 0 => 9 | 1 => 18 | 3 => 72 | 4 => 72 | _ => 36
def bmEcc (m : Nat) : Bool := bits m 3 3 == 4
def bmDepth (m : Nat) : Nat := 36864 / bmWidth m

/-- The positions p(j) of the 64 data bits: the integers above 2 that are no power of two. -/
def eccPos : List Nat := (List.range 72).filter fun x => decide (2 < x) && !([4, 8, 16, 32, 64].contains x)

/-- The exclusive-or of the low `n` bits. -/
def parity (n x : Nat) : Bool := (List.range n).foldl (fun p i => p != bitOf x i) false

/-- Check bit i (0 to 6) of 64 data bits. -/
def eccBit (d i : Nat) : Bool := (List.range 64).foldl (fun p j => p != (bitOf d j && bitOf (eccPos.getD j 0) i)) false

/-- The check byte of 64 data bits (R342). -/
def eccByte (d : Nat) : Nat :=
  let c := (List.range 7).foldr (fun i x => b2n (eccBit d i) + 2 * x) 0
  c + 128 * b2n (parity 64 d != parity 7 c)

/-- A stored 72-bit word as read: the data, whether a single-bit error was corrected, whether a double one remains. -/
def eccRead (w : Nat) : Nat × Bool × Bool :=
  let d := w % 2 ^ 64
  let syn := (bits w 64 7) ^^^ (eccByte d % 128)
  if parity 72 w then
    (match eccPos.idxOf? syn with
     | some j => (d ^^^ 2 ^ j, true, false)
     | none => if syn = 0 ∨ [1, 2, 4, 8, 16, 32, 64].contains syn then (d, true, false) else (d, false, true))
  else if syn = 0 then (d, false, false)
  else (d, false, true)

/-- The word an address names, of the modes m. -/
def bmWord (x : Bm) (m a : Nat) : Nat := bits x.mem (bmWidth m * (a % bmDepth m)) (bmWidth m)

/-- A word stored. -/
def bmPut (x : Bm) (m a v : Nat) : Bm := { x with mem := putBits x.mem (bmWidth m * (a % bmDepth m)) (bmWidth m) v }

/-- What is stored for written data: with WIDTH 100 the data and its check byte. -/
def bmStored (m v : Nat) : Nat := if bmEcc m then v % 2 ^ 64 + eccByte (v % 2 ^ 64) * 2 ^ 64 else v % 2 ^ bmWidth m

/-- What a port shows of a stored word. -/
def bmShown (m w : Nat) : Nat := if bmEcc m then (eccRead w).1 else w

/-- The address an operation names. -/
def bmOpAt : BmOp → Option Nat
  | .idle => none
  | .read a => some a.toNat
  | .write a _ => some a.toNat

/-- The operation writes. -/
def bmOpWrites : BmOp → Bool
  | .write _ _ => true
  | _ => false

/-- The stores of an operation; modes 101 to 111 ignore writes (R204). -/
def bmApply (x : Bm) (m : Nat) : BmOp → Bm
  | .write a d => if 5 ≤ bmQmode m then x else bmPut x m a.toNat (bmStored m d.toNat)
  | _ => x

/-- A port's output after an operation: a read's word, or by WMODE the old word, the new one, or what it showed. -/
def bmOut (x : Bm) (m wmode old : Nat) (op : BmOp) : Nat :=
  match op with
  | .idle => old
  | .read a => bmShown m (bmWord x m a.toNat)
  | .write a d => if wmode = 1 then bmShown m (bmStored m d.toNat) else if wmode = 2 then old else bmShown m (bmWord x m a.toNat)

/-- Both ports run on one clock: on one region clock, or on one global clock (R203). -/
def sharedClock (s : State) (r m : Nat) : Bool := regClkSel s r (bmClkA m) == regClkSel s r (bmClkB m)

/-- The two operations of one edge, or of edges within the window of R203, collide: on one word, and not both reads. -/
def bmCollide (m : Nat) (a b : BmOp) (near : Bool) : Bool :=
  near && (bmOpWrites a || bmOpWrites b) &&
  (match bmOpAt a, bmOpAt b with | some p, some q => p % bmDepth m == q % bmDepth m | _, _ => false)

/-- SBE and DBE of a read operation. -/
def bmErrs (x : Bm) (m : Nat) : BmOp → Bool × Bool
  | .read a => if bmEcc m then (eccRead (bmWord x m a.toNat)).2 else (false, false)
  | _ => (false, false)

/-- A read with an error is counted; a double-bit one raises event 0x0704. -/
def bmCount (s : State) (r i : Nat) (e : Bool × Bool) : State :=
  if e.2 then raise (satInc s (F.FAB_REGr_BMERR_UNCORR r)) 0x0704 [(1, r), (1, i)]
  else if e.1 then satInc s (F.FAB_REGr_BMERR_CORR r) else s

/-- An operation as its port performs it: none without an edge of the port's region clock. -/
def portOp (s : State) (r clk : Nat) (op : BmOp) : BmOp := if regClkEn s r clk then op else .idle

/-- Bits of the word an operation names have flipped since it was stored. -/
def bmFlip (x : Bm) (m : Nat) (op : BmOp) (e : Nat) : Bm :=
  match bmOpAt op with
  | some p => bmPut x m p (bmWord x m p ^^^ e)
  | none => x

/-- The operations of both ports in RAM mode. `upset` holds the bits that have flipped in the words they name, port A's in
[71:0]; a read that collides with a write returns undefined data, a free value. -/
def bmAccess (s : State) (r i : Nat) (a0 b0 : BmOp) (coll : Bool) (upset : Nat) : State :=
  let m := bmModes s r i (ctxOf s r)
  if !regTicks s r || isQueue m then s
  else
    let a := portOp s r (bmClkA m) a0
    let b := portOp s r (bmClkB m) b0
    let x := bmFlip (bmFlip (bm s r i) m a (bits upset 0 72)) m b (bits upset 72 72)
    let hit := bmCollide m a b (coll || sharedClock s r m)
    let ea := if hit then (false, false) else bmErrs x m a
    let eb := if hit then (false, false) else bmErrs x m b
    let y := bmApply (bmApply x m a) m b
    let z : Bm := { y with
      outA := if hit && !bmOpWrites a then freeOf s % 2 ^ 72 else bmOut x m (bits m 6 2) x.outA a
      outB := if hit && !bmOpWrites b then freeOf s % 2 ^ 72 else bmOut x m (bits m 8 2) x.outB b
      collA := hit && !bmOpWrites a, collB := hit && (bmOpWrites a || !bmOpWrites b)
      sbe := ea.1 || eb.1, dbe := ea.2 || eb.2 }
    let s1 := setBm (if hit then drawn s else s) r i z
    bmCount (bmCount s1 r i ea) r i eb

def execBmAccess (r : Fin 72) (i : Fin 50) (a b : BmOp) (coll : Bool) (upset : BitVec 144) (s : State) : Host.Outcome State Fault Refusal :=
  done (bmAccess s r i a b coll upset.toNat)

/-! ### Queues (R204 to R207) -/

/-- How many entries a queue of the modes m holds. -/
def qDepth (m : Nat) : Nat :=
  match bmQmode m with
  | 1 | 2 => if bits m 3 3 = 3 then 512 else 1024
  | 3 => 1023
  | _ => if bits m 16 9 = 0 then 511 else bits m 16 9

/-- The width of an entry. -/
def qWidth (m : Nat) : Nat :=
  match bmQmode m with
  | 1 | 2 => if bits m 3 3 = 3 then 72 else 36
  | 3 => 36
  | _ => 72

/-- The key of a PQUEUE entry. -/
def qKey (m e : Nat) : Nat := e / 2 ^ (36 - (match bits m 14 2 with | 0 => 8 | 1 => 12 | 2 => 16 | _ => 24))

/-- The entry at the head: the oldest, or in a PQUEUE the oldest of those with the smallest key. -/
def queueHead (m : Nat) (q : List Nat) : Option Nat :=
  if bmQmode m = 3 then (sortBy (qKey m) q).head? else q.head?

/-- What a queue shows its producer: COUNT and FULL, or in a MAILBOX CREDIT. Of a dual-clock queue, pops that have not reached the
producer still count (R205, R207). -/
def pushCount (x : Bm) : Nat := x.q.length + x.newR.length
def queueFull (m : Nat) (x : Bm) : Bool := decide (qDepth m ≤ pushCount x)
def queueCredit (m : Nat) (x : Bm) : Nat := qDepth m - pushCount x

/-- What it shows its consumer: COUNT, EMPTY, HEAD and VALID. Of a DCFIFO, pushes that have not reached the consumer do not count
yet. -/
def popCount (x : Bm) : Nat := x.q.length - x.newW.length
def queueEmpty (x : Bm) : Bool := popCount x == 0
def queueShown (m : Nat) (x : Bm) : Option Nat := if queueEmpty x then none else queueHead m x.q

/-- An operation that a queue cannot perform: ERR pulses until the next edge of the operation's clock n, and is counted. -/
def queueErr (s : State) (r i n : Nat) : State :=
  satInc (setBm s r i { bm s r i with err := n + 1 }) (F.FAB_REGr_QERR_QERR r)

/-- A word enters a queue. The words a queue uses in its memory are not specified; its stored bits become the value given. -/
def pushWord (m : Nat) (x : Bm) (v mem : Nat) : Bm :=
  { x with q := x.q ++ [v % 2 ^ qWidth m], mem := mem % 2 ^ 36864, newW := if bmQmode m = 2 then x.newW ++ [0] else x.newW }

/-- The head leaves a queue; POP_DATA shows it on the second edge after. -/
def popWord (m : Nat) (x : Bm) (e : Nat) : Bm :=
  { x with q := x.q.erase e, pops := x.pops ++ [(e, 2)], newR := if dualQueue m then x.newR ++ [0] else x.newR }

/-- A POP, or a release. -/
def queuePop (s : State) (r i : Nat) : State :=
  let m := bmModes s r i (ctxOf s r)
  if !regTicks s r || !isQueue m || !regClkEn s r (popClk m) then s
  else match queueShown m (bm s r i) with
    | none => queueErr s r i (popClk m)
    | some e => setBm s r i (popWord m (bm s r i) e)

def execQueuePop (r : Fin 72) (i : Fin 50) (s : State) : Host.Outcome State Fault Refusal := done (queuePop s r i)

/-- A PUSH; with `pop` a POP on the same edge, which takes the entry present before it, so that both are performed (R205, R206). -/
def queuePush (s : State) (r i v : Nat) (pop : Bool) : State :=
  let m := bmModes s r i (ctxOf s r)
  if !regTicks s r || !isQueue m || !regClkEn s r (bmClkA m) then s
  else
    let s1 := if pop then queuePop s r i else s
    let x := bm s1 r i
    if queueFull m x then queueErr s1 r i (bmClkA m)
    else setBm (drawn s1) r i (pushWord m x v (freeOf s1))

def execQueuePush (r : Fin 72) (i : Fin 50) (data : BitVec 72 × Bool) (s : State) : Host.Outcome State Fault Refusal :=
  done (queuePush s r i data.1.toNat data.2)

/-! ### The claim map (R225, R231) -/

/-- An uncorrectable claim-map word: the claims of 32 tracks in one context become NONE, and the keepers hold what they drove. Each
lost claim waits for the context to be cleared at both ends. -/
def claimUncorr (s : State) (k w : Nat) : State :=
  let ts := (List.range 32).map (32 * w + ·)
  let gone := s.fab.claims.filter fun c => c.1 % 4 == k && c.1 / 4 / 32 == w
  let s1 := setFab s { s.fab with
    claims := s.fab.claims.filter fun c => !(c.1 % 4 == k && c.1 / 4 / 32 == w)
    lost := gone.foldl (fun m c => smSet m c.1 3 0) s.fab.lost }
  satInc (raise (keepTracks s s1) 0x0520 (ts.map (fun t => (4, t)) ++ [(1, k)])) F.CFG_VT_STATS_UNCORR

def execVtClaimUncorr (k : Fin 4) (w : Fin 19200) (s : State) : Host.Outcome State Fault Refusal := done (claimUncorr s k w)

end Sys2Proof.Machine
end

