-- ==== Sys2Proof/Machine/Contexts.lean ====
section
/-! DEFINITION. Contexts, points requests and switches, plane clears and the scrubber (chapter 11), and stopping,
starting and releasing regions (chapter 12). -/
namespace Sys2Proof.Machine

/-! ### Stopping and starting (R255 to R258) -/

/-- Pulses latched and not yet presented when the clocks close are discarded (R212). -/
def dropStrobes (s : State) (r : Nat) : State :=
  forEach (region s r).stb (fun s _ => raiseMerged (satInc s (F.FAB_REGr_STB_CNT_DISC r)) 0x0703 r [(1, r)])
    (setRegion s r { region s r with stb := [] })

/-- Queues whose modes differ in two contexts are emptied at the switch instant (R244). -/
def sameQueue (s : State) (r i k k' : Nat) : Bool :=
  let f := fun m => (bits m 0 6, bits m 14 2, bits m 16 9)
  f (bmModes s r i k) == f (bmModes s r i k')
def switchQueues (s : State) (r k k' : Nat) : State :=
  forEach (List.range 50) (fun s i =>
    if sameQueue s r i k k' then s else setBm s r i { bm s r i with q := [], newW := [], newR := [] }) s

/-- A sampled switch takes effect: the new context is in force (R240, R244, R245). -/
def takeSwitch (s : State) (r : Nat) : State :=
  match (region s r).switches with
  | [] => s
  | k :: rest =>
    let s1 := switchMuls (switchQueues (setRegion s r { region s r with switches := rest }) r (ctxOf s r) k) r (ctxOf s r) k
    satInc (setFld (setCtx s1 r k) (F.CTX_REGr_ACTIVE_SWITCHING r) (b2n (!rest.isEmpty))) (F.CTX_REGr_SWITCHES_SWITCHES r)

/-- The region's clocks close for good: cuffs leave PASS, stream ports go, pending wakes and a freeze end (R256, R491). A switch
sampled in a region that a freeze has stopped takes effect before (log 141). -/
def closeRegion (s0 : State) (r : Nat) : State :=
  let s := forEach (region s0 r).switches (fun s _ => takeSwitch s r) s0
  let s1 := dropStrobes (holdCuffs s r) r
  let s2 := setRegion s1 r { region s1 r with run := false, gateReq := false, owed := 0, starting := false, stbOut := [], refusedOut := false }
  let s3 := setFld (setFld (setFld s2 (F.FAB_REGr_STATUS_SLEEPING r) 0) (F.FAB_REGr_CTRL_WAKE r) 0) (F.DBG_REGr_STATUS_FROZEN r) 0
  let s4 := setFld (setFld s3 (F.DBG_REGr_STATUS_PULSING r) 0) (F.DBG_REGr_CTRL_FREEZE r) 0
  r8Withdraw s4 fun x => match x with | .regionStart q => q == r | .regionPulse q _ => q == r | _ => false

/-- The stop takes effect: STOPPED, or LOADING with RETURN = STOPPED (R254, R256). -/
def stopEffect (s : State) (r : Nat) : State :=
  let s1 := setFld (closeRegion s r) (F.FAB_REGr_CTRL_STOP r) 0
  let s2 := if regState s r = gLOADING then setFld s1 (F.FAB_REGr_RC_RETURN r) gSTOPPED else setRegState s1 r gSTOPPED
  forEach (regionEngines r) streamsOff s2

/-- The stop sequence starts in a running region; a frozen one stops at once (R255, R491). -/
def regionStop (s : State) (r : Nat) : State :=
  if !regRuns s r || flag s (F.FAB_REGr_CTRL_STOP r) then s
  else if regFrozen s r then stopEffect s r
  else setFld s (F.FAB_REGr_CTRL_STOP r) 1

def execRegionStop (r : Fin 72) (s : State) : Host.Outcome State Fault Refusal := done (regionStop s r)

/-- The stop edge, the last one on which the region's elements capture; a sampled switch takes effect before it. A sleeping region
stops at the start of a slot (R256). -/
def stopEdge (s : State) (r : Nat) : State :=
  if !flag s (F.FAB_REGr_CTRL_STOP r) || switching s r then s
  else if regAsleep s r then (if sysClocks s then stopEffect s r else s)
  else if regTicks s r && regClkEn s r 0 then stopEffect (clock0Edge s r) r
  else s

def execStopEdge (r : Fin 72) (s : State) : Host.Outcome State Fault Refusal := done (stopEdge s r)

/-- A write of START: a LOADED region is released, a STOPPED one restarted, unless its active plane is not READY. -/
def regionStart (s : State) (r : Nat) : State :=
  if regState s r ≠ gLOADED ∧ regState s r ≠ gSTOPPED then s
  else if !planeReady s r (ctxOf s r) then releaseRefused s r 1
  else if regState s r = gLOADED then releaseRequest (releaseInit s r) r
  else releaseRequest s r

def execRegionStart (r : Fin 72) (s : State) : Host.Outcome State Fault Refusal := done (regionStart s r)

/-- The release edge (R257): the first edge of region clock 0 after admission. A region that a DIE reset met while it was being
loaded beside a running context runs again and stays LOADING (R216). -/
def releaseEdge (s : State) (r : Nat) : State :=
  if (region s r).starting && regClkEn s r 0 && clocksOn s && !dieInReset s (logicPos (regDie r)) then
    let s0 := sampleIdents s r
    let s1 := if regState s r = gLOADING ∧ fld s (F.FAB_REGr_RC_RETURN r) = gRELEASED then s0 else setRegState s0 r gRELEASED
    clock0Edge (setRegion s1 r { region s1 r with run := true, starting := false, released := true }) r
  else s

/-! ### Points requests (R236 to R239, R242) -/

/-- A request of a source becomes pending; one still pending is replaced, counted and reported (R237). -/
def pointsPend (s : State) (r src ctx : Nat) : State :=
  let x := region s r
  let s1 := setRegion s r { x with pend := smSet x.pend src (ctx + 1) 0 }
  if smGet x.pend src 0 = 0 then s1 else raiseMerged (satInc s1 (F.CTX_REGr_REFUSED_SUPERSEDED r)) 0x0602 r [(1, r)]

/-- The source code of a master's write. -/
def pointsSource : Master → Nat
  | .engine _ => 2
  | _ => 3

/-- A write of CTX_REGr_REQ; it wakes a sleeping region (R210, R236). -/
def pointsWrite (s : State) (m : Master) (r ctx : Nat) : State := regionWake (pointsPend s r (pointsSource m) ctx) r false

/-- A master's write of CTX_REGr_REQ; an engine reaches the registers only with REGS = 1 (R165, R236). -/
def execPointsRequestWrite (m : Master) (r : Fin 72) (ctx : Fin 4) (s : State) : Host.Outcome State Fault Refusal :=
  done (match m with
    | .engine n => if flag s (F.ENG_n_CTRL_REGS n) then pointsWrite s m r ctx else s
    | _ => pointsWrite s m r ctx)

/-- The fabric presents a request on an edge of region clock 0. -/
def ptsReq (s : State) (r ctx : Nat) : State := if regTicks s r && regClkEn s r 0 then pointsPend s r 1 ctx else s

def execPtsReq (r : Fin 72) (ctx : Fin 4) (s : State) : Host.Outcome State Fault Refusal := done (ptsReq s r ctx)

/-- A POINTS entry acts in its slot; it wakes a sleeping region, charged there. -/
def pointsEntry (s : State) (r ctx : Nat) : State := regionWake (pointsPend s r 0 ctx) r true

/-- A request is refused (R239). While the region runs, PTS_REFUSED is high until the next edge of region clock 0. -/
def pointsRefuse (s0 : State) (r src ctx reason : Nat) : State :=
  let s := if regRuns s0 r then setRegion s0 r { region s0 r with refusedOut := true } else s0
  let s1 := raise (satInc (satInc s (F.CTX_REGr_REFUSED_REFUSED r)) F.CTX_REFUSED_REFUSED) 0x0601 [(1, r), (1, src), (1, ctx), (1, reason)]
  if flag s1 (F.CTX_REGr_LASTREF_VALID r) then s1
  else setFld (setFld (setFld (setFld s1 (F.CTX_REGr_LASTREF_REASON r) reason) (F.CTX_REGr_LASTREF_SOURCE r) src)
    (F.CTX_REGr_LASTREF_CTX r) ctx) (F.CTX_REGr_LASTREF_VALID r) 1

/-- CTX_CTRL.ENABLE reads 1 and is not being cleared. -/
def ctxOn (s : State) : Bool := flag s F.CTX_CTRL_ENABLE && !flag s F.CTX_STATUS_DRAINING

/-- The decision on a taken request (R238). -/
def pointsDecide (s : State) (r src ctx : Nat) : State :=
  if !ctxOn s then pointsRefuse s r src ctx 1
  else if dieInReset s (logicPos (regDie r)) then pointsRefuse s r src ctx 3
  else if regRuns s r && !bitOf (fld s (F.FAB_REGr_CLK_EN r)) 0 then pointsRefuse s r src ctx 2
  else
    let cur := if switching s r then fld s (F.CTX_REGr_ACTIVE_NEXT r) else ctxOf s r
    if !planeReady s r ctx then pointsRefuse s r src ctx 0
    else if ctx = cur then s
    else if regRuns s r then
      let s1 := setRegion s r { region s r with switches := (region s r).switches ++ [ctx] }
      setFld (setFld s1 (F.CTX_REGr_ACTIVE_SWITCHING r) 1) (F.CTX_REGr_ACTIVE_NEXT r) ctx
    else setCtx s r ctx

/-- The region has a sampling opportunity (R238, R489): an edge of region clock 0 while it runs with that clock enabled, none
while it is asleep, or frozen but for the edges of a pulse; else the start of a slot. -/
def canSample (s : State) (r : Nat) : Bool :=
  if !regRuns s r || dieInReset s (logicPos (regDie r)) then sysClocks s
  else if regAsleep s r then false
  else if bitOf (fld s (F.FAB_REGr_CLK_EN r)) 0 then regTicks s r && regClkEn s r 0
  else sysClocks s && !(regFrozen s r && !flag s (F.DBG_REGr_STATUS_PULSING r))

/-- A sampling opportunity: the pending request of the highest priority is taken and decided. -/
def pointsSample (s : State) (r : Nat) : State :=
  if !canSample s r then s
  else match [0, 1, 2, 3].find? fun k => smGet (region s r).pend k 0 != 0 with
    | none => s
    | some src =>
      let ctx := smGet (region s r).pend src 0 - 1
      pointsDecide (setRegion s r { region s r with pend := smSet (region s r).pend src 0 0 }) r src ctx

def execPointsSample (r : Fin 72) (s : State) : Host.Outcome State Fault Refusal := done (pointsSample s r)

/-! ### The switch (R240, R244) -/

/-- The switch instant, edge n + 2 of region clock 0: its elements capture the last old result, and the new context takes
force. -/
def switchInstant (s : State) (r : Nat) : State :=
  if (region s r).switches.isEmpty || !regTicks s r || !regClkEn s r 0 then s else takeSwitch (clock0Edge s r) r

def execSwitchInstant (r : Fin 72) (s : State) : Host.Outcome State Fault Refusal := done (switchInstant s r)

/-! ### Clearing planes (R248) -/

/-- A write of CTX_REGr_CLEAR: planes that are active in a running region, targets of a switch, or LOADING are left. -/
def planeClear (s : State) (r v : Nat) : State :=
  let ks := (List.range 4).filter fun k => bitOf v k && !planeActive s r k && planeState s r k != 1 && !(region s r).clearing.contains k
  setRegion s r { region s r with clearing := (region s r).clearing ++ ks }

def execPlaneClear (r : Fin 72) (planes : BitVec 4) (s : State) : Host.Outcome State Fault Refusal := done (planeClear s r planes.toNat)

/-- A LOADED or STOPPED region all of whose planes are EMPTY becomes EMPTY (R254). -/
def emptiedRegion (s : State) (r : Nat) : State :=
  if planesEmpty s r && (regState s r == gLOADED || regState s r == gSTOPPED) then
    regionEmpty (r8Withdraw (setRegion s r { region s r with starting := false }) fun x => x == R8Req.regionStart r) r
  else s

/-- The clear of plane k ends. -/
def planeClearDone (s : State) (r k : Nat) : State :=
  if (region s r).clearing.contains k then
    emptiedRegion (emptyPlane (setRegion s r { region s r with clearing := (region s r).clearing.filter (· != k) }) r k) r
  else s

def execPlaneClearDone (r : Fin 72) (k : Fin 4) (s : State) : Host.Outcome State Fault Refusal := done (clocked s (planeClearDone s r k))

/-! ### The scrubber (R249, R250) -/

/-- The longest last pass over the three dies. -/
def scrubMs (s : State) : Nat := maxOf 0 (s.fab.pass.map (·.2))

/-- A pass of a die ends: CTX_STATUS.SCRUB_MS follows, and a pass longer than 50 ms raises event 0x0605. -/
def passEnds (s : State) (d ms : Nat) : State :=
  if ms = 0 then s
  else
    let s1 := setFab s { s.fab with pass := smSet s.fab.pass d ms 0 }
    let s2 := setFld s1 F.CTX_STATUS_SCRUB_MS (scrubMs s1)
    if 50 < ms then raise s2 0x0605 [] else s2

/-- An uncorrectable configuration word (R250). A cuff frame is one for the four planes; the scrubber names the plane it reads. -/
def cfgUncorr (s : State) (r k kind tile word : Nat) : State :=
  let s1 := raise (satInc s F.CTX_SCRUB_CNT_UNCORR) 0x0604 [(1, r), (1, k), (2, tile), (2, word)]
  let s2 := setFab s1 { s1.fab with uncorr := smSet s1.fab.uncorr (frameKey kind r (if kind = kCUFF then 0 else k) tile) 1 0 }
  let s3 := if planeState s2 r k = 2 then planeMarks (setPlane s2 r k 3) r else s2
  if regRuns s r && ctxOf s r == k && flag s F.CTX_CTRL_UNCORR_STOP then regionStop s3 r else s3

/-- The scrubber reads a word: `err` is 0 for none, 1 for a corrected bit, 2 for an uncorrectable error. -/
def scrubWord (s : State) (r k kind tile word err ms : Nat) : State :=
  if !flag s F.CTX_CTRL_SCRUB_EN || dieInReset s (confPos (regDie r)) then s
  else
    let s1 := match err with
      | 0 => s
      | 1 => raiseMerged (satInc s F.CTX_SCRUB_CNT_CORR) 0x0603 0 []
      | _ => cfgUncorr s r k kind tile word
    passEnds s1 (regDie r) ms

def execScrubWord (r : Fin 72) (k : Fin 4) (kind : Fin 3) (tile : Fin 800) (word : Fin 256) (err : Fin 3) (passMs : BitVec 8)
    (s : State) : Host.Outcome State Fault Refusal :=
  done (clocked s (scrubWord s r k (scrubKind kind) tile word err passMs.toNat))

/-! ### Disabling (R251) -/

/-- No region has a switch sampled. -/
def ctxDrained (s : State) : Bool := (List.range 72).all fun r => !switching s r

/-- Draining has ended. -/
def ctxDrainEnd (s : State) : State := setFld (setFld s F.CTX_CTRL_ENABLE 0) F.CTX_STATUS_DRAINING 0

/-- Every pending request is refused with DISABLED. -/
def refuseAll (s : State) : State :=
  forEach (s.regions.map (·.1)) (fun s r =>
    forEach ([0, 1, 2, 3].filter fun k => smGet (region s r).pend k 0 != 0) (fun s k =>
      let ctx := smGet (region s r).pend k 0 - 1
      pointsRefuse (setRegion s r { region s r with pend := smSet (region s r).pend k 0 0 }) r k ctx 1) s) s

def ctxDisable (s : State) : State :=
  if !flag s F.CTX_CTRL_ENABLE then s
  else
    let s1 := refuseAll s
    if ctxDrained s1 then ctxDrainEnd s1 else setFld s1 F.CTX_STATUS_DRAINING 1

def execCtxDisable (s : State) : Host.Outcome State Fault Refusal := done (ctxDisable s)

end Sys2Proof.Machine
end

