-- ==== Sys2Proof/Machine/Slot.lean ====
section
/-! DEFINITION. The Dispatcher's slot (chapter 04): the walk, classification, internal entries, the ration, groups,
packing and sending; the buffer stop's own commands; disabling and resetting the Dispatcher. -/
namespace Sys2Proof.Machine

/-! ### Execute stamps (R74) -/

/-- The full stamp of an angle in a revolution, in 2^−24 au. -/
def fullStamp (rev ang : Nat) : Nat := (rev % 2 ^ 24 * 2 ^ 24 + ang) * 2 ^ 24

/-- The ring time at which the prediction of axis `a` reaches a stamp, rounded up; none while the axis is not in TRACK
or its velocity is 0. -/
def execStamp (s : State) (a stamp : Nat) : Option Nat :=
  if axState s a ≠ aTRACK ∨ vel s a = 0 then none
  else some ((now s : Int) - (-(stampDiff stamp (theta s a))) / (vel s a : Int)).toNat

/-- A taken entry's stamp. -/
def takenStamp (s : State) (x : Taken) : Option Nat := execStamp s (eAxis x.entry) (fullStamp x.rev (eAngle x.entry))

/-! ### The walk (R73, R71) -/

/-- Lost entries of a bucket that the walk reaches: counted, with event 0x0804. -/
def reportLost (s : State) (a rev b : Nat) (gone : List Slot) : State :=
  if gone.isEmpty then s
  else raise (satAdd s F.TT_CNT_LOST_COUNT gone.length) 0x0804 [(1, a), (2, b), (3, rev), (1, b2n (gone.any fun x => x.lost == 2))]

/-- The front of an axis after a bucket is taken: (W + 1, NONE) after bucket 4,095 (R56). -/
def moveFront (s : State) (a rev b : Nat) : State :=
  let last := b == 4095
  setFld (setFld (setFld s (F.TT_AXn_FRONT_REV a) (if last then (rev + 1) % 2 ^ 24 else rev)) (F.TT_AXn_FRONT_BUCKET a) (if last then 0 else b))
    (F.TT_AXn_FRONT_NONE a) (b2n last)

/-- A bucket is taken: its slots are freed, its entries reach the sort store, and the front moves. -/
def takeBucket (s : State) (a rev b : Nat) : State :=
  let k := bucketKey a rev b
  let l := bucketAt s k
  let s1 := setTt s { s.tt with buckets := smSet s.tt.buckets k [] [] }
  let s2 := reportLost s1 a rev b (l.filter fun x => x.lost != 0)
  let mine : List Taken := (l.filter fun x => x.lost == 0).map fun x => ⟨x.entry, rev, x.ord, false⟩
  let s3 := setDsp s2 { s2.dsp with store := s2.dsp.store ++ mine }
  let s4 := moveFront s3 a rev b
  if l.isEmpty then s4 else ttRelease (setFld s4 F.TT_USED_USED (usedCount s4))

/-- The bucket after the walk front of an axis: revolution and number. -/
def nextBucket (s : State) (a : Nat) : Nat × Nat := (frontRev s a, frontNext s a)

/-- The prediction of axis `a` a lead window ahead. -/
def leadTheta (s : State) (a : Nat) : Nat := theta s a + vel s a * leadNs s

/-- The next bucket of axis `a` may be taken. -/
def canTake (s : State) (a : Nat) : Bool :=
  let x := nextBucket s a
  let n := ((bucketAt s (bucketKey a x.1 x.2)).filter fun y => y.lost == 0).length
  decide (s.dsp.store.length + n ≤ 32768) && decide (stampDiff (fullStamp x.1 (x.2 * 4096)) (leadTheta s a) ≤ 0)

/-- The walk of one axis, at most `n` buckets. -/
def walkAxis (s : State) (a : Nat) : Nat → State
  | 0 => s
  | n + 1 => if canTake s a then walkAxis (takeBucket s a (nextBucket s a).1 (nextBucket s a).2) a n else s

/-- How many buckets of axis `a` have come within the lead window. -/
def bucketsDue (s : State) (a : Nat) : Nat :=
  let x := nextBucket s a
  (stampDiff (leadTheta s a) (fullStamp x.1 (x.2 * 4096)) / 2 ^ 36 + 1).toNat

/-- The walk of every axis in TRACK. -/
def walkAll (s : State) : State :=
  forEach (allAxes.filter fun a => axState s a == aTRACK) (fun s a => walkAxis s a (bucketsDue s a)) s

/-! ### Groups: opening and members (R87) -/

/-- The last bucket in which a member of the instance may lie. -/
def lastBucket (g : Grp) : Nat := min (g.first + 7) 4095

/-- The instance is neither FAILED nor DONE. -/
def groupOpen (g : Grp) : Bool := g.st != GrpSt.failed && g.st != GrpSt.ended

/-- The instance takes members: OPEN or CLOSED. -/
def groupTakes (g : Grp) : Bool := g.st == GrpSt.opened || g.st == GrpSt.closed

/-- The instance of a pick, opened where there is none; beyond 512 open ones it fails at once with NO_SLOT and its first
member at `t`, and the answer is none. `own` tells that the member's own outcome is counted already. -/
def openGroup (s : State) (x : Taken) (t own : Nat) : State × Option Grp :=
  match findGroup s (eAxis x.entry) x.rev (eGroup x.entry) with
  | some g => (s, some g)
  | none =>
    let g : Grp := ⟨eAxis x.entry, x.rev, eGroup x.entry, .opened, eBucket x.entry, [], [], 0⟩
    let full := decide (512 ≤ (s.dsp.groups.filter groupOpen).length)
    let s1 := setDsp s { s.dsp with groups := s.dsp.groups ++ [g] }
    if full then
      let g' := { g with membs := [⟨x.entry, x.ord, t⟩] }
      (failGroup (putGroup s1 g') g' 0x09 own, none)
    else (s1, some g)

/-- A member that its own condition ends fails the instance it belongs to with that reason (R87, R89). -/
def groupMemberFails (s : State) (x : Taken) (t st reason : Nat) : State :=
  let y := openGroup (outcome s st) x t 1
  match y.2 with
  | none => y.1
  | some g =>
    if groupTakes g then
      let g' := { g with membs := g.membs ++ [⟨x.entry, x.ord, t⟩] }
      failGroup (putGroup y.1 g') g' reason 1
    else y.1

/-- A member classified after its instance has left CLOSED: GROUP_FAIL, and a FALLBACK consist where it has FAILED. -/
def groupStray (s : State) (g : Grp) (m : Memb) : State :=
  let s1 := outcome s ST.groupFail
  if g.st = GrpSt.failed ∧ g.reason ≠ 0x07 then chargeFallback (fallbackTo s1 g [m]) g m else s1

/-- A member entry joins an instance. -/
def groupJoin (s : State) (g : Grp) (x : Taken) (t : Nat) : State :=
  let m : Memb := ⟨x.entry, x.ord, t⟩
  if !groupTakes g then groupStray s g m
  else if g.first + 7 < eBucket x.entry then outcome s ST.groupFail
  else
    let g' := { g with membs := g.membs ++ [m] }
    let s1 := putGroup s g'
    if t < now s + lat s (ePort x.entry) then failGroup (outcome s1 ST.late) g' 0x04 1
    else if 4096 < g'.membs.length then failGroup s1 g' 0x0A 0
    else s1

/-- A member entry is classified. -/
def groupAdd (s : State) (x : Taken) (t : Nat) : State :=
  match openGroup s x t 0 with
  | (s1, some g) => groupJoin s1 g x t
  | (s1, none) => s1

/-! ### Classification (R75, R76) -/

/-- A trapped entry is captured, or counted; event 0x0903. -/
def dspTrap (s : State) (e : Nat) : State :=
  let s1 := raise s 0x0903 [(1, eAxis e)]
  if flag s1 F.DSP_TRAP_INFO_VALID then satInc s1 F.DSP_TRAP_INFO_LOST
  else setFld (setFld s1 F.DSP_TRAP_INFO_VALID 1) F.DSP_TRAP_ENTRY e

/-- A classified entry waits for its slot or for the ration. -/
def offer (s : State) (x : Taken) (t : Nat) (late : Bool) : State :=
  let c : Cand := ⟨x.entry, x.rev, x.ord, late, t, t⟩
  if eModule x.entry = 0 then setDsp s { s.dsp with internal := s.dsp.internal ++ [c] }
  else setDsp s { s.dsp with cands := s.dsp.cands ++ [c] }

/-- A NEXT entry is handed over to the REQUEUE class. While 512 insertions of that class are in flight (R61) it stays in the
sort store, and is found late again in a later slot (DEDUCED, log entry 130). -/
def requeue (s : State) (x : Taken) : State :=
  if 512 ≤ classInFlight s 4 then setDsp s { s.dsp with store := s.dsp.store ++ [x] }
  else handOver (outcome s ST.late) ⟨.requeue, 0, withRev x.entry (x.rev + 1)⟩

/-- A late entry at dispatch (R76); `t` is when FIRE acts. -/
def lateEntry (s : State) (x : Taken) (t : Nat) : State :=
  match eLate x.entry with
  | 0 => outcome s ST.late
  | 1 => offer s x t true
  | 2 => requeue s x
  | _ => dspTrap (outcome s ST.late) x.entry

/-- The entry's target on its port is not enumerated; a broadcast has no target while enumeration runs (R116; log entry 43). -/
def absent (s : State) (p n : Nat) : Bool :=
  isTrunk s p || (if n = 255 then fld s (F.WNG_Pp_STATUS_MODULES p) == 0 || portState s p == pENUMERATING else modState s p n == 0 || modState s p n == 3)

/-- Classification of an entry whose stamp has come within LEAD. -/
def classify (s : State) (x : Taken) (t : Nat) : State :=
  let e := x.entry
  let p := ePort e
  let n := eModule e
  if bstopState s ≠ bRUN ∨ dspOn s = false then outcome s ST.disabled
  else if eOp e = 0 then outcome s ST.ok
  else if n = 0 then (if t < now s then lateEntry s x (now s + 4) else offer s x t x.late)
  else if portDisabled s p then outcome s ST.disabled
  else if absent s p n then (if eGrp e then groupMemberFails s x t ST.decode 0x05 else outcome s ST.decode)
  else if n ≠ 255 ∧ modState s p n = 2 then (if eGrp e then groupMemberFails s x t ST.denied 0x06 else outcome s ST.denied)
  else if eGrp e then groupAdd s x t
  else if t < now s + lat s p then lateEntry s x (now s + lat s p)
  else offer s x t x.late

/-- The entries whose stamp has come within LEAD, with their stamps, in the order of classification. -/
def dueEntries (s : State) (l : List Taken) : List (Nat × Taken) :=
  let d := l.filterMap fun x =>
    match takenStamp s x with
    | some t => if t ≤ now s + leadNs s then some (t, x) else none
    | none => none
  sortBy (·.1) (sortBy (fun y => eAxis y.2.entry) (sortBy (fun y => fullStamp y.2.rev (eAngle y.2.entry)) (sortBy (fun y => y.2.ord) d)))

/-- The late queue ends DISABLED while the Dispatcher does not serve it (R76). -/
def lateQueueOff (s : State) : State :=
  if bstopState s ≠ bRUN ∨ dspOn s = false then
    outcomes (setDsp s { s.dsp with lateQ := [] }) ST.disabled s.dsp.lateQ.length
  else s

/-- Everything due is classified, the late queue first. -/
def classifyDue (s : State) : State :=
  let s0 := lateQueueOff s
  let late := dueEntries s0 s0.dsp.lateQ
  let due := dueEntries s0 s0.dsp.store
  let s1 := setDsp s0 { s0.dsp with
    lateQ := s0.dsp.lateQ.filter fun x => !(late.any fun y => y.2 == x)
    store := s0.dsp.store.filter fun x => !(due.any fun y => y.2 == x) }
  forEach (late ++ due) (fun s y => classify s y.2 y.1) s1

/-! ### Internal entries (R77) -/

/-- What an internal entry does; `t` is the T of R77. -/
def actInternal (s : State) (e t : Nat) : State :=
  if eOp e = 8 then pointsEntry s (eChan e) (ePayload e % 4)
  else if eOp e = 9 then wakeMessage s (eChan e) (ePayload e)
  else if eOp e = 0x0A then strobeLine s (eChan e)
  else raise s 0x090B [(1, eAxis e), (1, eRev e), (3, eAngle e), (8, t), (4, ePayload e)]

/-- An internal entry acts and ends OK, or LATE. -/
def fireInternal (s : State) (c : Cand) : State := outcome (actInternal s c.entry c.t0) (if c.late then ST.late else ST.ok)

/-- Candidates in the order of classification. -/
def sortCands (l : List Cand) : List Cand :=
  sortBy (·.t0) (sortBy (fun c => eAxis c.entry) (sortBy (fun c => fullStamp c.rev (eAngle c.entry)) (sortBy (·.ord) l)))

/-- Internal entries whose slot has passed while the Dispatcher did not act, in a freeze: they are late (R95). -/
def missedInternals (s : State) : State :=
  let gone := sortCands (s.dsp.internal.filter fun c => decide (c.t / 4 < now s / 4))
  let s1 := setDsp s { s.dsp with internal := s.dsp.internal.filter fun c => decide (now s / 4 ≤ c.t / 4) }
  forEach gone (fun s c => lateEntry s ⟨c.entry, c.rev, c.ord, c.late⟩ (now s + 4)) s1

/-- The internal entries of the slot act, at most 16; the others move to the next slot and are counted once. -/
def actInternals (s : State) : State :=
  let due := sortCands (s.dsp.internal.filter fun c => decide (c.t / 4 ≤ now s / 4))
  let more := due.drop 16
  let moved := more.map fun c => { c with t := now s / 4 * 4 + 4 }
  let s1 := setDsp s { s.dsp with internal := (s.dsp.internal.filter fun c => decide (now s / 4 < c.t / 4)) ++ moved }
  let s2 := satAdd s1 F.DSP_CNT_INT_SLIP_COUNT (more.filter fun c => c.t == c.t0).length
  forEach (due.take 16) fireInternal s2

/-! ### The ration (R85) -/

/-- Admission within the reserve: counted, with event 0x0902. -/
def overrun (s : State) (r : Nat) : State := raiseMerged (satInc s (F.DSP_RAILr_OVERRUN_OVERRUN r)) 0x0902 r [(1, r)]

/-- An entry discarded with RATION: counted, with event 0x0901. -/
def rationDiscard (s : State) (r : Nat) : State :=
  outcome (raiseMerged (satInc s (F.DSP_RAILr_RATION_RATION r)) 0x0901 r [(1, r)]) ST.ration

/-- A candidate moves to the next slot; the first move is counted. -/
def deferCand (s : State) (c : Cand) : State :=
  let s1 := if c.t = c.t0 then satInc s (F.DSP_RAILr_DEFER_DEFERRED (eRail c.entry)) else s
  setDsp s1 { s1.dsp with cands := s1.dsp.cands ++ [{ c with t := c.t + 4 }] }

/-- The reserve of a rail. -/
def reserve (s : State) (r : Nat) : Nat := fld s (F.DSP_RAILr_RESERVE_RESERVE r)

/-- The decision on one candidate; the admitted ones are collected. -/
def decideCand (x : State × List Cand) (c : Cand) : State × List Cand :=
  let s := x.1
  let e := c.entry
  if fits s e c.t 0 then (charge s e c.ord c.t, x.2 ++ [c])
  else if c.t + 4 ≤ c.t0 + eSlack e * 500 then (deferCand s c, x.2)
  else if ePrio e = 3 ∧ fits s e c.t (reserve s (eRail e)) = true then (overrun (charge s e c.ord c.t) (eRail e), x.2 ++ [c])
  else (rationDiscard s (eRail e), x.2)

/-- The order of decision in a slot: PRIO descending, original stamp, acceptance. -/
def rationOrder (l : List Cand) : List Cand := sortBy (fun c => 3 - ePrio c.entry) (sortBy (·.t0) (sortBy (·.ord) l))

/-- The slots before slot `lim` are decided in order, at most `n` of them. -/
def rationLoop (lim : Nat) : Nat → State × List Cand → State × List Cand
  | 0, x => x
  | n + 1, x =>
    let ks := (x.1.dsp.cands.map fun c => c.t / 4).filter fun k => decide (k < lim)
    if ks.isEmpty then x
    else
      let k := minOf 0 ks
      let mine := rationOrder (x.1.dsp.cands.filter fun c => c.t / 4 == k)
      let s1 := setDsp x.1 { x.1.dsp with cands := x.1.dsp.cands.filter fun c => c.t / 4 != k }
      rationLoop lim n (mine.foldl decideCand (s1, x.2))

/-! ### Packing and sending (R80 to R82) -/

/-- What the entries of a consist share: port, module, axis and stamp. -/
def packKey (c : Cand) : Nat × Nat × Nat × Nat := (ePort c.entry, eModule c.entry, eAxis c.entry, c.t)

/-- One consist of entries that share those. -/
def packOne (kind fb group : Nat) (l : List Cand) : List Cons :=
  match l with
  | [] => []
  | c :: _ => [⟨ePort c.entry, eModule c.entry, eAxis c.entry, c.rev, c.t, kind, fb, group, 0, l.map fun x => updOf x.entry,
      l.map (·.ord), (l.filter (·.late)).length⟩]

/-- Updates in sorted order: by angle, then acceptance. -/
def sortUpds (l : List Cand) : List Cand := sortBy (fun c => fullStamp c.rev (eAngle c.entry)) (sortBy (·.ord) l)

/-- Admitted entries packed into consists of at most 61 updates; a broadcast entry travels alone. -/
def pack (kind fb group : Nat) (l : List Cand) : List Cons :=
  (l.map packKey).eraseDups.flatMap fun k =>
    let mine := sortUpds (l.filter fun c => packKey c == k)
    let parts := if k.2.1 = 255 then mine.map fun c => [c] else chunks61 mine.length mine
    parts.flatMap (packOne kind fb group)

/-- Consists wait to be sent. -/
def addUnsent (s : State) (l : List Cons) : State := setDsp s { s.dsp with unsent := s.dsp.unsent ++ l }

/-- The ration decides every slot before the one that lies LEAD ahead, and what it admits is packed. R85 gives no time of
decision: an entry that is offered later for a slot already decided is decided then, after that slot's other candidates
(DESIGN CHOICE, log entry 131). -/
def ration (s : State) : State :=
  let lim := (now s + leadNs s) / 4
  let x := rationLoop lim (31876 * s.dsp.cands.length + 1) (s, [])
  addUnsent x.1 (pack 0 0 0 x.2)

/-- A consist is sent, is held back, or is too late to be sent. -/
def sendCons (s : State) (c : Cons) : State :=
  let p := c.port
  let s1 := setDsp s { s.dsp with unsent := s.dsp.unsent.erase c }
  if c.stamp < now s + lat s p then expireItem s1 p (consItem c)
  else if portOpen s p && !isTrunk s p && hasRoom s p true && (port s p).waiting.isEmpty && decide (c.stamp ≤ now s + leadNs s) then
    emitItem s1 p (consItem c)
  else s

/-- Each port's consists in ascending stamp order. -/
def sendUnsent (s : State) : State := forEach (sortBy (·.stamp) s.dsp.unsent) sendCons s

/-- A sent consist whose stamp has passed executed beyond the threshold from its recomputed stamp (R81). -/
def retimeMissed (s : State) (o : Outst) : Bool :=
  decide (((o.stamp : Int) - o.ideal).natAbs > fld s F.DSP_RETIME_THRESH_THRESH)

/-- Consists whose stamps have passed leave the outstanding list. -/
def passOutst (s : State) (p : Nat) : State :=
  let x := port s p
  let gone := x.outst.filter fun o => decide (o.stamp < now s)
  let n := (gone.filter (retimeMissed s)).length
  let s1 := if gone.isEmpty then s else setPort s p { x with outst := x.outst.filter fun o => !decide (o.stamp < now s) }
  if n = 0 then s1 else satAdd (raiseMerged s1 0x0907 0 []) F.DSP_CNT_RETIME_MISS_COUNT n

/-! ### Groups: closing, judging and the commit point (R87, R88) -/

/-- The walk has taken a bucket. -/
def walkedPast (s : State) (a rev b : Nat) : Bool :=
  let d := toSigned 24 (ofSigned 24 ((frontRev s a : Int) - (rev : Int)))
  decide (0 < d) || (d == 0 && decide (b < frontNext s a))

/-- Members in the order of R85. -/
def membOrder (l : List Memb) : List Memb := sortBy (fun m => 3 - ePrio m.entry) (sortBy (·.t) (sortBy (·.ord) l))

/-- Members admitted in one pass at a deferral of `d` ns; `none` where one does not fit. -/
def admitMembs (d : Nat) (res : Bool) : List Memb → State → Option State
  | [], s => some s
  | m :: l, s =>
    let t := m.t + d
    let r := eRail m.entry
    if fits s m.entry t 0 then admitMembs d res l (charge s m.entry m.ord t)
    else if res && fits s m.entry t (reserve s r) then admitMembs d res l (overrun (charge s m.entry m.ord t) r)
    else none

/-- The first common deferral that fits, from `d` on in steps of 4 ns, `n` tried. -/
def groupFits (s : State) (g : Grp) : Nat → Nat → Option (Nat × State)
  | 0, _ => none
  | n + 1, d =>
    match admitMembs d (g.membs.all fun m => ePrio m.entry == 3) (membOrder g.membs) s with
    | some s1 => some (d, s1)
    | none => groupFits s g n (d + 4)

/-- The members as candidates at their stamps. -/
def membCands (g : Grp) : List Cand := g.membs.map fun m => ⟨m.entry, g.rev, m.ord, false, m.t, m.t⟩

/-- A group that fits is staged: its consists go out, each awaiting an acknowledgement. -/
def stageGroup (s : State) (g : Grp) (d : Nat) : State :=
  let s1 := if d = 0 then s else forEach g.membs (fun s m => satInc s (F.DSP_RAILr_DEFER_DEFERRED (eRail m.entry))) s
  let g1 := { g with st := GrpSt.staged, membs := g.membs.map fun m => { m with t := m.t + d } }
  let cs := pack 1 (groupFb s g.group) g.group (membCands g1)
  let g2 := { g1 with mods := cs.map fun c => ⟨c.port, c.addr, 4096, c.stamp, c.ents, false, false, false⟩ }
  addUnsent (putGroup s1 g2) cs

/-- A CLOSED instance whose every member has been classified is staged, or fails with RATION, with event 0x0901 for each
member (R85). -/
def judgeGroup (s : State) (g : Grp) : State :=
  let sl := minOf 0 (g.membs.map fun m => eSlack m.entry)
  match groupFits s g (125 * sl + 1) 0 with
  | some x => stageGroup x.2 g x.1
  | none => failGroup (forEach g.membs (fun s m => raiseMerged s 0x0901 (eRail m.entry) [(1, eRail m.entry)]) s) g 0x02 0

/-- The last angle in which a member may lie has come within LEAD. -/
def spanDue (s : State) (g : Grp) : Bool :=
  match execStamp s g.axis (fullStamp g.rev (lastBucket g * 4096 + 4095)) with
  | some t => decide (t ≤ now s + leadNs s)
  | none => false

/-- An instance at the end of classification in a slot: OPEN becomes CLOSED, and a CLOSED one may be judged. -/
def advanceGroup (s : State) (g : Grp) : State :=
  if !groupTakes g then s
  else if !walkedPast s g.axis g.rev (lastBucket g) then s
  else
    let g1 := { g with st := GrpSt.closed }
    let s1 := putGroup s g1
    if spanDue s g then judgeGroup s1 g1 else s1

/-- Instances that have ended are forgotten once no late-queue entry can name their revolution (R58). -/
def pruneGroups (s : State) : State :=
  let keep := fun (g : Grp) =>
    let d := (frontRev s g.axis + 2 ^ 24 - g.rev) % 2 ^ 24
    groupOpen g || decide (d ≤ 128) || decide (2 ^ 23 ≤ d)
  setDsp s { s.dsp with groups := s.dsp.groups.filter keep }

/-- Every instance, one after another, as the last one left it. -/
def advanceGroups (s : State) : State :=
  forEach (s.dsp.groups.map fun g => (g.axis, g.rev, g.group)) (fun s k =>
    match findGroup s k.1 k.2.1 k.2.2 with
    | some g => advanceGroup s g
    | none => s) s

/-- The commit point of an instance is reached (R87). -/
def groupCommitPoint (s : State) (a rev group : Nat) : State :=
  match s.dsp.groups.find? (fun g => g.axis == a && g.rev % 256 == rev && g.group == group && (groupTakes g || g.st == GrpSt.staged)) with
  | none => s
  | some g =>
    if now s < commitPoint s g then s
    else if groupTakes g then failGroup s g 0x01 0
    else failGroup s g 0x03 0

def execGroupCommitPoint (axis : Fin 16) (rev group : BitVec 8) (s : State) : Host.Outcome State Fault Refusal :=
  done (clocked s (groupCommitPoint s axis rev.toNat group.toNat))

/-! ### The slot (R75) -/

/-- What the Dispatcher does in a slot once ring time has reached it. -/
def dispatch (s : State) : State :=
  let s1 := if dspOn s then walkAll s else s
  let s2 := actInternals (missedInternals (classifyDue s1))
  let s3 := sendUnsent (ration (advanceGroups s2))
  let s4 := forEach allPorts (fun s p => drainPort (passOutst s p) p) s3
  pruneGroups (pruneLedger s4)

/-- One slot of 4 ns: ring time and the predictions of the axes advance, and the Dispatcher acts unless the clocks are
frozen or ring time is not valid (R25, R34, R43, R95). -/
def dispatchSlot (s : State) : State :=
  if !rtRuns s then s
  else
    let s1 := latchTargets (setFld (forEach allAxes interpolate s) F.ANG_RT_TIME (now s / 4 * 4 + 4))
    if flag s F.CLK_STATUS_FROZEN || !rtValid s then s1 else dispatch s1

def execDispatchSlot (s : State) : Host.Outcome State Fault Refusal := done (dispatchSlot s)

/-! ### The buffer stop's own commands (R94, R114) -/

/-- A write of DSP_BSTOP.REQ. -/
def bstopReq (s : State) : State := bstopTrigger (setFld s F.DSP_BSTOP_REQ 1) BC.host

def execBstopReq (s : State) : Host.Outcome State Fault Refusal := done (bstopReq s)

/-- 100 µs after entry to STOPPING. -/
def bstopTimeout (s : State) : State := if bstopState s = bSTOPPING then setFld s F.DSP_STATUS_BSTOP bSTOPPED else s

def execBstopStoppingTimeout (s : State) : Host.Outcome State Fault Refusal := done (bstopTimeout s)

/-- A write of DSP_BSTOP.CLEAR: back to RUN with event 0x0909 and RESUME on every ring port. -/
def bstopClear (s : State) : State :=
  if bstopState s ≠ bSTOPPED ∨ triggerActive s = true then s
  else
    let s1 := setFld (raise s 0x0909 []) F.DSP_STATUS_BSTOP bRUN
    let s2 := setFld (setFld s1 F.DSP_BSTOP_REQ 0) F.DSP_BSTOP_CAUSE 0
    sendWhere (setDsp s2 { s2.dsp with bstopAck := [] }) liveRing FT.resume 255 0

def execBstopClear (s : State) : Host.Outcome State Fault Refusal := done (bstopClear s)

/-- The BSTOP flit is repeated on each ring port while the buffer stop is not in RUN. -/
def bstopRepeat (s : State) : State := if bstopState s = bRUN then s else sendWhere s liveRing FT.bstop 255 0

def execBstopRepeat (s : State) : Host.Outcome State Fault Refusal := done (clocked s (bstopRepeat s))

/-! ### Disabling and reset (R96) -/

/-- Every journal and outstanding list is empty, nothing waits to be sent, and no group awaits a decision. -/
def dspDrained (s : State) : Bool :=
  allPorts.all (fun p => (port s p).journal.isEmpty && (port s p).outst.isEmpty && (port s p).waiting.isEmpty)
  && s.dsp.unsent.isEmpty && s.dsp.cands.isEmpty && !(s.dsp.groups.any groupOpen)

/-- Draining has ended. -/
def dspDrainEnd (s : State) : State := setFld (setFld s F.DSP_CTRL_ENABLE 0) F.DSP_STATUS_DRAINING 0

/-- Clearing DSP_CTRL.ENABLE. -/
def dspDisable (s : State) : State :=
  if !flag s F.DSP_CTRL_ENABLE || flag s F.DSP_STATUS_DRAINING then s
  else
    let n := s.dsp.store.length + s.dsp.lateQ.length
    let s1 := outcomes (setDsp s { s.dsp with store := [], lateQ := [] }) ST.disabled n
    let s2 := forEach (s1.dsp.groups.filter groupTakes) (fun s g => failGroup s g 0x08 0) s1
    if dspDrained s2 then dspDrainEnd s2 else setFld s2 F.DSP_STATUS_DRAINING 1

def execDspDisable (s : State) : Host.Outcome State Fault Refusal := done (dspDisable s)

/-- A reset of DSP in RUN is a trigger of the buffer stop: event 0x0908 with its cause, vector 5, and BSTOP on every ring
port (R94). -/
def resetStops (s : State) : State :=
  if bstopState s = bRUN then sendWhere (pendVec (raise s 0x0908 [(1, 2 ^ (BC.reset - 2))]) 5) liveRing FT.bstop 255 0 else s

/-- A BLOCK reset of DSP: everything is emptied, the buffer stop is STOPPED with cause RESET, and requests that wait on
rail 8 are kept (R96). -/
def dspReset (s0 : State) : State :=
  let s := resetStops s0
  let s1 := setDsp (emptyJournals s) { r8queue := s.dsp.r8queue }
  r8Waiting (resetBlockRegs s1 0x09)

end Sys2Proof.Machine
end

