-- ==== Sys2Proof/Machine/Seal.lean ====
section
/-! DEFINITION. AES-256 in counter mode with GHASH tags: sealed lines (R299) and, with the same operations, encrypted
bitstreams (R348). Byte strings are numbers, first byte lowest; GHASH works on them with the first byte highest. -/
namespace Sys2Proof.Machine

/-- The `n` bytes of a number in reverse order. -/
def revBytes : Nat → Nat → Nat
  | 0, _ => 0
  | n + 1, x => x % 256 * 256 ^ n + revBytes n (x / 256)

/-- E_K of a 16-byte block. -/
def aesEnc (key block : Nat) : Nat := aes256 key block % 2 ^ 128

/-- `n` steps of the product of GF(2^128): bits of `x` from its highest, `v` the running multiple, `z` the sum. -/
def gmulSteps : Nat → Nat → Nat → Nat → Nat
  | 0, _, _, z => z
  | n + 1, x, v, z =>
    gmulSteps n x (if v % 2 = 1 then (v / 2) ^^^ (0xE1 * 2 ^ 120) else v / 2) (if x / 2 ^ n % 2 = 1 then z ^^^ v else z)

/-- The product of two elements of GF(2^128), each with its first byte highest. -/
def gmul (x y : Nat) : Nat := gmulSteps 128 x y 0

/-- The `n` 16-byte blocks of a byte string folded into a GHASH value. -/
def ghashBlocks (h : Nat) : Nat → Nat → Nat → Nat
  | 0, _, y => y
  | n + 1, x, y => ghashBlocks h n (x / 2 ^ 128) (gmul (y ^^^ revBytes 16 (x % 2 ^ 128)) h)

/-- GHASH over additional data of `na` bytes and ciphertext of `nc` bytes, each padded with zeros to whole blocks. -/
def ghash (h na a nc c : Nat) : Nat :=
  let y := ghashBlocks h ((nc + 15) / 16) c (ghashBlocks h ((na + 15) / 16) a 0)
  gmul (y ^^^ (8 * na * 2 ^ 64 + 8 * nc)) h

/-- H of a key, first byte highest. -/
def hashKey (key : Nat) : Nat := revBytes 16 (aesEnc key 0)

/-! ### Sealed lines (R299) -/

/-- The counter block of window line `l`: device line address, write counter, block index. -/
def ctrBlock (l ctr idx : Nat) : Nat := 0x4000000000 + l + ctr % 2 ^ 64 * 2 ^ 48 + idx * 2 ^ 112

/-- The keystream over a line's 64 bytes. -/
def sealStream (key l ctr : Nat) : Nat :=
  aesEnc key (ctrBlock l ctr 1) + aesEnc key (ctrBlock l ctr 2) * 2 ^ 128 + aesEnc key (ctrBlock l ctr 3) * 2 ^ 256
    + aesEnc key (ctrBlock l ctr 4) * 2 ^ 384

/-- The data of a line encrypted, or decrypted. -/
def sealData (key l ctr data : Nat) : Nat := data ^^^ sealStream key l ctr

/-- The tag of a ciphertext. -/
def sealTag (key l ctr cipher : Nat) : Nat :=
  let g := ghash (hashKey key) 16 (ctrBlock l ctr 0) 64 cipher
  (revBytes 16 g ^^^ aesEnc key (ctrBlock l ctr 0)) % 2 ^ 64

end Sys2Proof.Machine
end

