-- ==== Sys2Proof/Machine/CacheOps.lean ====
section
/-! DEFINITION. The window map and the stack cache (R288 to R302): pages, ways, fills, write-backs and accesses. -/
namespace Sys2Proof.Machine

/-- The cache, the host window and the sealing part of the state, replaced. -/
def setCache (s : State) (x : Cache) : State := { s with cache := x }
def setHwn (s : State) (x : HostWin) : State := { s with hwn := x }
def setSeal (s : State) (x : Sealing) : State := { s with enc := x }

/-! ### Pages (R288 to R290) -/

/-- The map entry of a page, STATE zero. -/
def pageEntry (s : State) (p : Nat) : Nat := smGet s.hwn.map p 0
def pageValid (s : State) (p : Nat) : Bool := bitOf (pageEntry s p) 0
def pageSealed (s : State) (p : Nat) : Bool := pageValid s p && bitOf (pageEntry s p) 1

/-- The owner of a page: 0 HOST, 1 DEVICE, 2 RETURNING. -/
def pageOwner (s : State) (p : Nat) : Nat := if pageSealed s p then 1 else smGet s.hwn.owner p 0

/-- STATE of a page: READY, INIT or RETURNING. -/
def pageState (s : State) (p : Nat) : Nat := if s.hwn.init.contains p then 1 else if pageOwner s p = 2 then 2 else 0

/-- The host physical address of a window line. -/
def hostAddr (s : State) (l : Nat) : Nat := bits (pageEntry s (l / 32768)) 21 43 * 2 ^ 21 + l % 32768 * 64

/-- The host physical address of a sealed line's tag entry. -/
def tagAddr (s : State) (l : Nat) : Nat := bits (pageEntry s (l / 32768)) 83 45 * 2 ^ 19 + l % 32768 * 16

/-- SCH_CTRL.ENABLE, ENC_CTRL.ENABLE and HWN_CTRL.ENABLE read 1 and are not being cleared. -/
def schOn (s : State) : Bool := flag s F.SCH_CTRL_ENABLE && !flag s F.SCH_STATUS_DRAINING
def encOn (s : State) : Bool := flag s F.ENC_CTRL_ENABLE && !flag s F.ENC_STATUS_DRAINING
def hwnOn (s : State) : Bool := flag s F.HWN_CTRL_ENABLE && !flag s F.HWN_STATUS_DRAINING

/-- Bus Master Enable of function 0. -/
def bme (s : State) : Bool := flag s F.HWN_STATUS_BME

/-- PERST or HOTRST is asserted (R27). -/
def hostInReset (s : State) : Bool := s.pci.perst || s.pci.hot

/-- A rekey runs. -/
def rekeying (s : State) : Bool := flag s F.ENC_STATUS_REKEYING

/-- The key of a line (R299, R304). -/
def keyOf (s : State) (l : Nat) : Nat := if rekeying s && decide (l < fld s F.ENC_BOUND_BOUND) then s.enc.next else s.enc.cur

/-- A posted write to host memory. -/
def postHost (s : State) (addr len data : Nat) : State := { s with hostWr := ⟨addr, len, data % 2 ^ (8 * len)⟩ :: s.hostWr }

/-- A sealed line written to host memory under a key and counter: the data, then the tag entry (R299, R300). -/
def postSealed (s : State) (key l ctr data : Nat) : State :=
  let c := sealData key l ctr data
  postHost (postHost s (hostAddr s l) 64 c) (tagAddr s l) 16 (sealTag key l ctr c + ctr * 2 ^ 64)

/-! ### Ways (R293, R294) -/

/-- The CACHE groups, ascending. -/
def cacheGroups (s : State) : List Nat := (List.range 24).filter fun n => groupMode s n == 2

/-- The number of sets while the cache is enabled. -/
def cacheSets (s : State) : Nat := 8192 * fld s F.SCH_STATUS_GROUPS

/-- The storage line of a slot. -/
def slotLine (s : State) (k : Nat) : Nat :=
  storLine s ((cacheGroups s).getD (k / 131072) 0 * 0x800000 + k % 131072 * 64)

/-- The slot whose storage is byte X of the memory dies, if its group is a CACHE group. -/
def slotOfByte (s : State) (x : Nat) : Option Nat :=
  ((cacheGroups s).idxOf? (groupOf x)).map fun i => i * 131072 + x % 0x800000 / 64

/-- The bits of META.OWNER (R294). -/
def oVALID := 0
def oDIRTY := 1
def oSEALED := 2
def oTAGFAIL := 3
def oEXHAUSTED := 4

/-- META.OWNER of a slot, one of its bits, and its bits written. -/
def owner (s : State) (k : Nat) : Nat := smGet s.mem.owner (slotLine s k) 0
def ownerBit (s : State) (k b : Nat) : Bool := bitOf (owner s k) b
def setOwner (s : State) (k v : Nat) : State := { s with mem := { s.mem with owner := smSet s.mem.owner (slotLine s k) v 0 } }
def setOwnerBit (s : State) (k b : Nat) (on : Bool) : State := setOwner s k (putBits (owner s k) b 1 (b2n on))

/-- META.POISON of a slot. -/
def slotPoison (s : State) (k : Nat) : Bool := poisoned s (slotLine s k)

/-- The directory entry of a slot. -/
def way (s : State) (k : Nat) : Way := smGet s.cache.ways k {}

/-- The directory lists the slot. -/
def wayValid (s : State) (k : Nat) : Bool := s.cache.ways.any fun e => e.1 == k

/-- The slot that holds a window line. -/
def wayOf (s : State) (l : Nat) : Option Nat := (s.cache.ways.find? fun e => e.2.line == l).map (·.1)

/-- A slot listed in the directory; the key is shown plus one so that every entry differs from the default. -/
def putWay (s : State) (k : Nat) (w : Way) : State :=
  setCache s { s.cache with ways := insertBy (·.1) (k, w) (s.cache.ways.filter fun e => e.1 != k) }

/-- The way becomes invalid, and its contents are dropped. -/
def invalidate (s : State) (k : Nat) : State :=
  let s1 := setPoison (setOwner s k 0) (slotLine s k) false
  setCache s1 { s1.cache with ways := s1.cache.ways.filter fun e => e.1 != k }

/-- The 64 data bytes of a slot. -/
def slotData (s : State) (k : Nat) : Nat := lineBytes s (slotLine s k) 0 64
def setSlotData (s : State) (k v : Nat) : State := setLineBytes s (slotLine s k) 0 64 (2 ^ 64 - 1) v

/-- Held poisoned: dirty and poisoned, and not TAGFAIL (R297, R301). -/
def heldPoison (s : State) (k : Nat) : Bool := slotPoison s k && ownerBit s k oDIRTY && !ownerBit s k oTAGFAIL

/-- A dirty way is written back (R295, R300): a sealed line with its counter plus one. A poisoned one never is. -/
def writeBack (s : State) (k : Nat) : State :=
  let w := way s k
  if !ownerBit s k oDIRTY || slotPoison s k then s
  else
    let s1 := satInc (setOwnerBit s k oDIRTY false) F.SCH_WB_WB
    if ownerBit s k oSEALED then
      let c := w.ctr + 1
      let s2 := putWay (postSealed s1 (keyOf s w.line) w.line c (slotData s k)) k { w with ctr := c }
      if c = 2 ^ 64 - 1 then setOwnerBit s2 k oEXHAUSTED true else s2
    else postHost s1 (hostAddr s w.line) 64 (slotData s k)

/-- Every way that a condition on its window line names is written back and invalidated. -/
def flushWays (s : State) (c : Nat → Bool) : State :=
  forEach ((s.cache.ways.filter fun e => c e.2.line).map (·.1)) (fun s k => invalidate (writeBack s k) k) s

/-- Every way that a condition names is invalidated without write-back. -/
def dropWays (s : State) (c : Nat → Bool) : State :=
  forEach ((s.cache.ways.filter fun e => c e.2.line).map (·.1)) invalidate s

/-- How many dirty lines a condition names. -/
def dirtyCount (s : State) (c : Nat → Bool) : Nat := (s.cache.ways.filter fun e => c e.2.line && ownerBit s e.1 oDIRTY).length

/-! ### Allocation (R295) -/

/-- The PLRU tree of a set: bit i of node i, 1 to 15; a 1 points to the upper half. -/
def plru (s : State) (set : Nat) : Nat := smGet s.cache.plru set 0

/-- The path to way w points away from it at every node. -/
def plruTouch (t w : Nat) : Nat :=
  let n1 := 1
  let n2 := 2 * n1 + bits w 3 1
  let n3 := 2 * n2 + bits w 2 1
  let n4 := 2 * n3 + bits w 1 1
  putBits (putBits (putBits (putBits t n1 1 (1 - bits w 3 1)) n2 1 (1 - bits w 2 1)) n3 1 (1 - bits w 1 1)) n4 1 (1 - bits w 0 1)

/-- A way of a set has been used. -/
def touch (s : State) (k : Nat) : State :=
  setCache s { s.cache with plru := smSet s.cache.plru (k / 16) (plruTouch (plru s (k / 16)) (k % 16)) 0 }

/-- The way the tree points to among those allowed: at each node the half it names, or the other where that half has no
allowed way. `lo` is the first way of the subtree, `n` its depth. -/
def plruPick (t : Nat) (ok : Nat → Bool) : Nat → Nat → Nat → Option Nat
  | 0, _, lo => if ok lo then some lo else none
  | d + 1, node, lo =>
    let half := 2 ^ d
    let up := bitOf t node
    let a := if up then plruPick t ok d (2 * node + 1) (lo + half) else plruPick t ok d (2 * node) lo
    let b := if up then plruPick t ok d (2 * node) lo else plruPick t ok d (2 * node + 1) (lo + half)
    match a with
    | some w => some w
    | none => b

/-- A slot reserved by a fill. -/
def slotBusy (s : State) (k : Nat) : Bool := s.cache.fills.any fun f => f.slot == k

/-- The way to allocate in a set: an invalid one, else the pseudo-LRU victim among ways not held poisoned. -/
def chooseSlot (s : State) (set : Nat) : Option Nat :=
  match (List.range 16).find? fun w => !wayValid s (16 * set + w) && !slotBusy s (16 * set + w) with
  | some w => some (16 * set + w)
  | none => (plruPick (plru s set) (fun w => !slotBusy s (16 * set + w) && !heldPoison s (16 * set + w)) 4 1 0).map (16 * set + ·)

/-- A slot made free for another line, a dirty victim written back first. -/
def vacate (s : State) (k : Nat) : State := if wayValid s k then invalidate (writeBack s k) k else s

/-- A line takes a slot: its state, data and counter. -/
def install (s : State) (k l ctr data st : Nat) : State :=
  touch (setOwner (setPoison (setSlotData (putWay s k ⟨l, ctr, 0⟩) k data) (slotLine s k) false) k st) k

/-! ### Errors in cached lines (R297) -/

/-- The oldest held poisoned way of a set beyond 8 is evicted without write-back. -/
def evictPoison (s : State) (set : Nat) : State :=
  let held := ((List.range 16).map (16 * set + ·)).filter fun k => wayValid s k && heldPoison s k
  if held.length ≤ 8 then s
  else match (sortBy (fun k => (way s k).age) held).head? with
    | some k => satInc (raise (invalidate s k) 0x1103 []) F.SCH_POISON_DROP_DROP
    | none => s

/-- An uncorrectable error in a way's line: a clean way is invalidated, a dirty one held poisoned. -/
def cacheLineError (s : State) (k : Nat) : State :=
  if !wayValid s k then s
  else if !ownerBit s k oDIRTY then invalidate s k
  else
    let w := way s k
    let s1 := setPoison s (slotLine s k) true
    let s2 := putWay (setCache s1 { s1.cache with age := s1.cache.age + 1 }) k { w with age := s1.cache.age }
    evictPoison (satInc (raise s2 0x1102 [(4, w.line)]) F.SCH_LOST_LOST) (k / 16)

/-! ### Accesses (R295, R296, R302) -/

/-- The access of DBG_ACCESS ends with its status; a read that ends OK brings its data (R483). -/
def dbgEnd (s : State) (st data : Nat) : State :=
  let a := s.dbg.acc
  let x := { a with
    st := st
    data := if a.write then a.data else data % 2 ^ 64
    done := true
    busy := false }
  if a.busy then { s with dbg := { s.dbg with acc := x } } else s

/-- An access ends with a status. -/
def accDone (s : State) (a : WinAcc) (st data : Nat) : State :=
  match a.client with
  | .engine n q => if (engine s n).win.contains q then endWin s n q st data else s
  | .zero => setFld (setFld s F.SCH_ZERO_RESULT_STATUS st) F.SCH_ZERO_RESULT_DONE 1
  | .debug => dbgEnd s st data
  | .gone => s

/-- The status that the state of the device and of the page gives an access, 0 where it is served. -/
def winStatus (s : State) (l : Nat) : Nat :=
  let p := l / 32768
  if hostInReset s || blkShut s 0x11 || blkShut s 0x12 || (pageSealed s p && blkShut s 0x13) then ST.reset
  else if !schOn s || (pageSealed s p && !encOn s) then ST.disabled
  else if !pageValid s p then ST.decode
  else if !pageSealed s p && pageOwner s p != 1 then ST.denied
  else ST.ok

/-- A read of a valid way: status and data. -/
def readWay (s : State) (k : Nat) (a : WinAcc) : Nat × Nat :=
  if ownerBit s k oTAGFAIL then (ST.tagFail, 0)
  else if ownerBit s k oEXHAUSTED || slotPoison s k then (ST.poison, 0)
  else (ST.ok, lineBytes s (slotLine s k) a.off a.width)

/-- A write of a valid way: status and the state it leaves. -/
def writeWay (s : State) (k : Nat) (a : WinAcc) : Nat × State :=
  if ownerBit s k oEXHAUSTED then (ST.exhausted, satInc (raise s 0x1302 [(4, a.line)]) F.ENC_CNT_EXHAUSTED_EXH)
  else if a.whole then
    (ST.ok, setOwnerBit (setOwnerBit (setPoison (setSlotData s k a.data) (slotLine s k) false) k oTAGFAIL false) k oDIRTY true)
  else if ownerBit s k oTAGFAIL then (ST.tagFail, s)
  else if slotPoison s k then (ST.poison, s)
  else (ST.ok, setOwnerBit (setLineBytes s (slotLine s k) a.off a.width a.be a.data) k oDIRTY true)

/-- An access to a valid way. -/
def serveWay (s : State) (k : Nat) (a : WinAcc) : State :=
  let s1 := touch s k
  if a.write then accDone (writeWay s1 k a).2 a (writeWay s1 k a).1 0
  else accDone s1 a (readWay s1 k a).1 (readWay s1 k a).2

/-- A miss: DISABLED while bus mastering is off; else a way is allocated, for a whole-line write at once, else for a
fill. With no way or no fill to be had the access waits. -/
def missLine (s : State) (a : WinAcc) : State :=
  let p := a.line / 32768
  if !bme s then accDone s a ST.disabled 0
  else match chooseSlot s (a.line % cacheSets s) with
    | none => s
    | some k =>
      if a.whole then
        let s1 := vacate s k
        let sealed := pageSealed s p
        let s2 := install (if sealed then drawn s1 else s1) k a.line (if sealed then freeOf s % 2 ^ 64 else 0) a.data (3 + b2n sealed * 4)
        accDone s2 a ST.ok 0
      else if 256 ≤ s.cache.fills.length then s
      else
        let s1 := vacate s k
        satInc (setCache s1 { s1.cache with fills := s1.cache.fills ++ [⟨a.line, k, [a]⟩] }) F.SCH_MISSES_MISSES

/-- An access waits for the fill of its line already under way. -/
def joinFill (s : State) (a : WinAcc) : State :=
  setCache s { s.cache with fills := s.cache.fills.map fun f =>
    if f.line = a.line ∧ f.accs.contains a = false then { f with accs := f.accs ++ [a] } else f }

/-- The status an access would end with at a valid way. -/
def wayStatus (s : State) (k : Nat) (a : WinAcc) : Nat := if a.write then (writeWay s k a).1 else (readWay s k a).1

/-- What the read of the way's line finds: 0 nothing, 1 a corrected error, 2 an uncorrectable one, which the die poisons. 3, a
line that stays uncorrectable over two resends, is the access's (R281). -/
def wayCheck (s : State) (k ecc : Nat) : State :=
  let d := slotLine s k / 2 ^ 20 + 1
  if ecc = 1 then countCorr s d
  else if ecc = 2 ∧ slotPoison s k = false then cacheLineError s k
  else s

/-- The die that holds the ways of a window line's set, all in one group (R293). -/
def setDie (s : State) (l : Nat) : Nat := slotLine s (16 * (l % cacheSets s)) / 2 ^ 20 + 1

/-- An access to a way whose line stays uncorrectable over two resends: INTERNAL, where no other status comes first, with event
0x1003 (R281, R296). -/
def wayInternal (s : State) (k : Nat) (a : WinAcc) : State :=
  if wayStatus s k a ≠ 0 then serveWay s k a
  else accDone (satInc (raise s 0x1003 []) (F.MEM_Md_XFER_FAIL_FAIL (slotLine s k / 2 ^ 20 + 1))) a ST.internal 0

/-- A host-window access reaches the stack cache. An access to a page in INIT waits. One to a set whose die is in reset ends
RESET, and one whose die the base die can no longer reach ends DECODE (R329, R435). -/
def cacheAccess (s : State) (a : WinAcc) (ecc : Nat) : State :=
  let st := winStatus s a.line
  if st ≠ 0 then accDone s a st 0
  else if s.hwn.init.contains (a.line / 32768) then (if a.client = Client.zero then setCache s { s.cache with zero := some a } else s)
  else if s.cache.fills.any (fun f => f.line == a.line) then joinFill s a
  else if dieShut s (memPos (setDie s a.line)) then accDone s a ST.reset 0
  else if bitOf (fld s F.STK_UNREACH_DIES) (setDie s a.line - 1) then accDone s a ST.decode 0
  else match wayOf s a.line with
    | none => missLine s a
    | some k =>
      let s1 := if a.whole then s else wayCheck s k ecc
      if !wayValid s1 k then missLine s1 a
      else satInc (if ecc = 3 ∧ a.whole = false then wayInternal s1 k a else serveWay s1 k a) F.SCH_HITS_HITS

/-! ### Fills (R296, R301) -/

/-- The accesses of a fill go on, in order. -/
def fillServe (s : State) (k : Nat) (l : List WinAcc) : State :=
  forEach l (fun s a =>
    if wayOf s a.line = some k then serveWay s k a else accDone s a ST.reset 0) s

/-- A fill ends with a status and nothing allocated. -/
def fillFail (s : State) (f : Fill) (st : Nat) : State :=
  forEach f.accs (fun s a => accDone s a st 0) (setCache s { s.cache with fills := s.cache.fills.erase f })

/-- The tag entry of a sealed fill verifies. -/
def sealOk (s : State) (l data ctr tag : Nat) : Bool := sealTag (keyOf s l) l ctr data == tag

/-- A sealed line's tag fails: counted, event 0x1301; the way is poisoned TAGFAIL with the counter that R301 names. -/
def tagFailed (s : State) (l : Nat) : State := satInc (raise s 0x1301 [(4, l)]) F.ENC_CNT_TAG_FAIL_FAIL

/-- A fill's data have come. -/
def fillDone (s : State) (f : Fill) (data ctr tag : Nat) : State :=
  let s1 := setCache s { s.cache with fills := s.cache.fills.erase f }
  let l := f.line
  if !pageSealed s (l / 32768) then fillServe (install s1 f.slot l 0 data 1) f.slot f.accs
  else if sealOk s l data ctr tag then
    let own := 5 + b2n (ctr == 2 ^ 64 - 1) * 16
    fillServe (install s1 f.slot l ctr (sealData (keyOf s l) l ctr data) own) f.slot f.accs
  else
    let c := if ctr = 2 ^ 64 - 1 then 0 else ctr
    let s2 := install (tagFailed s1 l) f.slot l c 0 (5 + 8)
    fillServe (setPoison s2 (slotLine s2 f.slot) true) f.slot f.accs

/-- Every fill's accesses, and every window request of an engine to the host window, end RESET (R27, R311). -/
def resetWindow (s : State) : State :=
  let s1 := forEach s.cache.fills (fun s f => fillFail s f ST.reset) s
  let s2 := match s1.cache.zero with
    | some a => accDone (setCache s1 { s1.cache with zero := none }) a ST.reset 0
    | none => s1
  forEach (List.range 96) (fun s n =>
    forEach ((engine s n).win.filter fun q => devIsHost q.addr) (fun s q => endWin s n q ST.reset 0) s) s2

/-- The requests of engines and the access of the debug port that are in flight to device addresses of a condition complete
RESET, as their target is reset (R170, R286, R435, R483). -/
def inflightReset (s : State) (c : Nat → Bool) : State :=
  let s1 := forEach (List.range 96) (fun s n =>
    forEach ((engine s n).win.filter fun q => q.pre == 0 && c q.addr) (fun s q => endWin s n q ST.reset 0) s) s
  if s1.dbg.acc.busy && bits s1.dbg.sel 0 2 == 0 && c s1.dbg.acc.addr then dbgEnd s1 ST.reset 0 else s1

/-! ### Keys (R304) -/

/-- A new sealing key is drawn: SEALED_USED cleared, event 0x1304, ENC_KEYS. -/
def drawKey (s : State) : State :=
  let s1 := setSeal (drawn s) { s.enc with cur := freeOf s % 2 ^ 256, used := [], usedNext := [], next := 0 }
  satInc (raise s1 0x1304 []) F.ENC_KEYS_KEYS

/-- A rekey is abandoned. -/
def dropRekey (s : State) : State :=
  setFld (setFld (setFld s F.ENC_STATUS_REKEYING 0) F.ENC_REKEY_GO 0) F.ENC_BOUND_BOUND 0

end Sys2Proof.Machine
end

