-- ==== Sys2Proof/Machine/Iob.lean ====
section
/-! DEFINITION. User and legacy I/O banks (chapter 26): pad settings sampled at a release, bank clocks, VIO faults, and
the states of the pins (R263). -/
namespace Sys2Proof.Machine

/-- The I/O banks replaced. -/
def setIob (s : State) (x : Iob) : State := { s with iob := x }

/-- The setting of a pin. -/
def pad (s : State) (b n : Nat) : PadSet := smGet s.iob.pads (b * 32 + n) {}
def setPad (s : State) (b n : Nat) (x : PadSet) : State := setIob s { s.iob with pads := smSet s.iob.pads (b * 32 + n) x {} }

/-- The pin whose setting rules pin n: the P pin of an LVDS pair (R503). -/
def ruling (s : State) (b n : Nat) : Nat := if (pad s b (n / 2 * 2)).mode = 1 then n / 2 * 2 else n

/-- The setting fails under R505 as it is sampled: LVDS at 1.2 V or 3.3 V, 16 mA at 1.2 V; on a legacy bank LVDS or a
serialiser ratio other than 1 (R508). -/
def padBad (s : State) (b : Nat) (x : PadSet) : Bool :=
  if 8 ≤ b then x.mode == 1 || x.ser != 0
  else
    let v := fld s (F.IOB_BANKb_CFG_VIO b)
    (x.mode == 1 && (v == 0 || v == 3)) || (x.drive == 3 && v == 0)

/-- A pin fails: it keeps its pre-configuration state; PAD_FAULT and event 0x1F01 with cause PAD. -/
def padFail (s : State) (b n : Nat) : State :=
  let s1 := raise (setPad s b n { pad s b n with bad := true }) 0x1F01 [(1, b), (1, n), (1, 0)]
  if b < 8 then setFld s1 (F.IOB_BANKb_STATUS_PAD_FAULT b) 1 else s1

/-- One pin's setting is sampled. -/
def samplePad (s : State) (x : PadIn) : State :=
  setPad s x.bank x.pin { mode := x.mode.toNat, drive := x.drive.toNat, pull := x.pull.toNat, slew := x.slew, term := x.term, ser := x.ser.toNat }

/-- A sampled pin is judged by the setting that rules it, so that both pins of an LVDS pair pass or fail (R505). -/
def judgePad (s : State) (x : PadIn) : State :=
  if padBad s x.bank (pad s x.bank (ruling s x.bank x.pin)) then padFail s x.bank x.pin else s

/-- The banks of a region sample their pads on a release edge of the release sequence, and await the bank clock. -/
def samplePads (s : State) (r : Nat) (l : List PadIn) : State :=
  let banks := (List.range 10).filter (ownsBank s r)
  let s1 := forEach (banks.filter (· < 8)) (fun s b => setFld s (F.IOB_BANKb_STATUS_LOCKED b) 0) s
  let mine := l.filter fun x => banks.contains x.bank.val
  forEach mine judgePad (forEach mine samplePad s1)

/-- The release edge, with the pads the region's hard inputs present; a restart takes no new sample. -/
def releaseWith (s : State) (r : Nat) (l : List PadIn) : State :=
  let s1 := releaseEdge s r
  if (region s r).starting && !(region s1 r).starting && regState s r != gSTOPPED then samplePads s1 r l else s1

def execReleaseEdge (r : Fin 72) (pads : List PadIn) (s : State) : Host.Outcome State Fault Refusal := done (releaseWith s r pads)

/-- The region that owns a bank. -/
def bankRegion (s : State) (b : Nat) : Option Nat := if flag s (F.FAB_BANKb_OWN_VALID b) then some (fld s (F.FAB_BANKb_OWN_REGION b)) else none

/-- Region clock 3 runs, apart from the cycles that thermal skipping takes from it. -/
def clock3Runs (s : State) (r : Nat) : Bool := regRuns s r && regClkEn s r 3 && !regAsleep s r && !regFrozen s r

/-- The bank clock locks to region clock 3 of frequency `khz`: the pins whose rate is too high fail (R504, R505). -/
def bankLock (s : State) (b khz : Nat) : State :=
  match bankRegion s b with
  | none => s
  | some r =>
    if !(clock3Runs s r) then s
    else
      let s1 := setFld s (F.IOB_BANKb_STATUS_LOCKED b) 1
      forEach ((List.range 30).filter fun n =>
        let x := pad s b (ruling s b n)
        !x.bad && decide ((if x.mode = 1 then 1600000 else 400000) < 2 ^ x.ser * khz)) (fun s n => padFail s b n) s1

def execBankClockLock (b : Fin 8) (khz : BitVec 20) (s : State) : Host.Outcome State Fault Refusal := done (bankLock s b khz.toNat)

/-- A BITSLIP pulse moves the word boundary of a pin by one bit. -/
def bitslip (s : State) (b n : Nat) : State :=
  match bankRegion s b with
  | none => s
  | some r => if regTicks s r && regClkEn s r 3 then setPad s b n { pad s b n with slip := ((pad s b n).slip + 1) % 2 ^ (pad s b n).ser } else s

def execBitslip (b : Fin 8) (n : Fin 30) (s : State) : Host.Outcome State Fault Refusal := done (bitslip s b n)

/-! ### VIO (R506) -/

/-- The nominal VIO of a bank in mV. -/
def vioNominal (s : State) (b : Nat) : Nat :=
  match fld s (F.IOB_BANKb_CFG_VIO b) with | 0 => 1200 | 1 => 1800 | 2 => 2500 | _ => 3300

/-- One round's judgement of a bank's VIO. No pin is named for a fault of the whole bank; that item is a free value. -/
def judgeVio (s : State) (b mv : Nat) : State :=
  let n := vioNominal s b
  let d := ((mv : Int) - n).natAbs
  let low := if n < 10 * d then smGet s.iob.low b 0 + 1 else 0
  let fine := if 20 * d ≤ n then smGet s.iob.fine b 0 + 1 else 0
  let s1 := setFld (setIob s { s.iob with low := smSet s.iob.low b low 0, fine := smSet s.iob.fine b fine 0 }) (F.IOB_BANKb_STATUS_VMEAS b) mv
  if flag s (F.IOB_BANKb_STATUS_VIO_FAULT b) then
    (if 16 ≤ fine then setFld (raise s1 0x1F02 [(1, b)]) (F.IOB_BANKb_STATUS_VIO_FAULT b) 0 else s1)
  else if 2 ≤ low then setFld (raise (drawn s1) 0x1F01 [(1, b), (1, freeOf s), (1, 1)]) (F.IOB_BANKb_STATUS_VIO_FAULT b) 1
  else s1

/-! ### The state of a pin (R263, R502 to R509) -/

/-- The states of a user or legacy pin. -/
inductive PinState where
  /-- the pre-configuration state: high impedance with a weak pull -/
  | preconf
  /-- as the fabric drives it -/
  | driven
  /-- output and output enable hold the values of the stop edge -/
  | held
  /-- served by an encoder interface -/
  | encoder
  deriving DecidableEq, Repr

/-- A pin of a legacy bank serves an encoder interface (R509). -/
def encoderPin (s : State) (b n : Nat) : Bool := decide (8 ≤ b) && decide (n < 10) && bitOf (fld s F.IOB_ENC_EN) (2 * (b - 8) + n / 5)

/-- The state of pin n of bank b, apart from boundary scan. -/
def pinState (s : State) (b n : Nat) : PinState :=
  if encoderPin s b n then .encoder
  else match bankRegion s b with
    | none => .preconf
    | some r =>
      let x := pad s b (ruling s b n)
      if !(region s r).released || (b < 8 && flag s (F.IOB_BANKb_STATUS_VIO_FAULT b)) || x.bad then .preconf
      else if 8 ≤ b ∧ bstopState s ≠ bRUN then .preconf
      else if b < 8 ∧ x.ser ≠ 0 ∧ flag s (F.IOB_BANKb_STATUS_LOCKED b) = false then .preconf
      else if regRuns s r = true ∧ (region s r).run = true ∧ dieInReset s (logicPos (regDie r)) = false then .driven
      else if flag s (F.FAB_BANKb_OWN_PADSTOP b) then .held else .preconf

/-- A BLOCK reset of IOB: the fault latches clear (R514). -/
def iobReset (s : State) : State :=
  let s1 := forEach (List.range 8) (fun s b => setFld (setFld s (F.IOB_BANKb_STATUS_VIO_FAULT b) 0) (F.IOB_BANKb_STATUS_PAD_FAULT b) 0) s
  setIob s1 { s1.iob with low := [], fine := [] }

end Sys2Proof.Machine
end

