-- ==== Sys2Proof/Machine/StackOps.lean ====
section
/-! DEFINITION. The links of the stack (chapter 15): training, guards and retrains, health checks, failing lanes, sparing,
erasure and fences. -/
namespace Sys2Proof.Machine

/-- The stack controller's part of the state, and a link of it. -/
def setStk (s : State) (x : Stack) : State := { s with stk := x }
def link (s : State) (k : Nat) : Link := smGet s.stk.links k {}
def setLink (s : State) (k : Nat) (x : Link) : State := setStk s { s.stk with links := smSet s.stk.links k x {} }

/-- The states of R318. -/
def kUNTRAINED := 0
def kUP := 1
def kGUARD := 2
def kRETRAIN := 3
def kFENCED := 4

def lkState (s : State) (k : Nat) : Nat := fld s (F.STK_Lk_STATUS_STATE k)

/-- The siding states of R316. -/
def sFREE := 0
def sIN_USE := 1
def sFAILED := 2
def sCARRIER := 3

def sidState (s : State) (k i : Nat) : Nat := fld s (F.STK_Lk_SIDs_STATE k i)

/-- The siding is FREE and not being trained for a sparing. -/
def sidFree (s : State) (k i : Nat) : Bool := sidState s k i == sFREE && (match (link s k).spare with | some x => x.2 != i | none => true)

/-- The lowest-numbered FREE siding. -/
def freeSiding (s : State) (k : Nat) : Option Nat := (List.range 16).find? (sidFree s k)

/-- FREE, RETRAINING and the guard of a link follow its state. -/
def linkCounts (s : State) (k : Nat) : State :=
  let n := ((List.range 16).filter fun i => sidState s k i == sFREE).length
  let g := lkState s k == kGUARD || lkState s k == kRETRAIN || lkState s k == kFENCED
  let s1 := setFld (setFld s (F.STK_Lk_STATUS_FREE k) n) (F.STK_Lk_STATUS_GUARD k) (b2n g)
  setFld s1 F.STK_STATUS_RETRAINING ((List.range 43).filter fun j => lkState s1 j == kRETRAIN).length

def setLkState (s : State) (k v : Nat) : State := linkCounts (setFld s (F.STK_Lk_STATUS_STATE k) v) k
def setSid (s : State) (k i st lane : Nat) : State :=
  linkCounts (setFld (setFld s (F.STK_Lk_SIDs_STATE k i) st) (F.STK_Lk_SIDs_LANE k i) lane) k

/-- The siding that carries a lane for good. -/
def carrierOf (s : State) (k lane : Nat) : Option Nat :=
  (List.range 16).find? fun i => sidState s k i == sIN_USE && fld s (F.STK_Lk_SIDs_LANE k i) == lane

/-- Trims chosen anew for a lane: the centre of a window the physical world gives, a free value. -/
def trimLane (s : State) (k lane : Nat) : State :=
  setStk (drawn s) { s.stk with trims := smSet s.stk.trims (k * 1024 + lane) (s.free + 1) s.stk.startTrims }

/-- A trim of a lane's end, 0 before it is trained: end 0 the lower, 1 the upper. -/
def trimOf (s : State) (k lane e : Nat) : Nat :=
  match smGet s.stk.trims (k * 1024 + lane) s.stk.startTrims with
  | 0 => 0
  | d + 1 => Config.freeReg d (2048 * k + 2 * lane + e) % 64

/-! ### Conditions (R317, R318) -/

/-- The stack positions of the two dies a link joins. -/
def linkDies (k : Nat) : Nat × Nat :=
  match k / 8 with | 0 => (1, 3) | 1 => (3, 4) | 2 => (4, 6) | 3 => (6, 7) | 4 => (7, 9) | _ => (0, 3 * (k - 39))

/-- A sensor's last reading in 1/16 °C. -/
def sensor (s : State) (n : Nat) : Int := toSigned 16 (fld s (F.THM_Sn_TEMP n))

/-- The higher temperature of a link's two dies. -/
def linkTemp (s : State) (k : Nat) : Int :=
  let d := linkDies k
  max (max (sensor s (2 * d.1)) (sensor s (2 * d.1 + 1))) (max (sensor s (2 * d.2)) (sensor s (2 * d.2 + 1)))

/-- Conditions are out against a current (0.25 A) and a temperature (1/16 °C). -/
def condOut (s : State) (k i0 : Nat) (t0 : Int) : Bool :=
  decide (3 * max i0 32 < 10 * ((fld s F.STK_IVCORE_CURRENT : Int) - i0).natAbs) || decide (400 < (linkTemp s k - t0).natAbs)

/-- TRAINREC takes the present conditions; how the temperature is rounded to °C is not specified. -/
def trainRec (s : State) (k : Nat) : State :=
  let t := divFree s (linkTemp s k) 16
  setFld (setFld (drawn s) (F.STK_Lk_TRAINREC_IVCORE k) (fld s F.STK_IVCORE_CURRENT)) (F.STK_Lk_TRAINREC_TEMP k) (ofSigned 8 t)

/-! ### Fences and lost paths (R327 to R329) -/

/-- No path of a band, or of the base-die masters, to die t is left. -/
def bandLost (s : State) (d k t : Nat) : Bool := (bandPaths d k t).all fun p => p.1.any (linkFenced s)
def baseLost (s : State) (t : Nat) : Bool := (basePaths t 0).all fun p => p.1.any (linkFenced s)

/-- What the base-die masters lose with die t: the cache ways there, and with M1 every Timetable entry. -/
def loseDie (s : State) (t : Nat) : State :=
  let mine := fun (e : Nat × Way) => slotLine s e.1 / 2 ^ 20 + 1 == t
  let n := (s.cache.ways.filter fun e => mine e && ownerBit s e.1 oDIRTY).length
  let s1 := satAdd (forEach ((s.cache.ways.filter mine).map (·.1)) invalidate s) F.SCH_LOST_LOST n
  if t = 1 && ttReserved s then
    let used := usedSlots s1
    retire (loseSlots s1 1 fun _ => true) ((List.range (ttSlots s1)).filter fun x => !(used.contains x))
  else s1

/-- STK_UNREACH gains the bits of paths now lost, with event 0x1406 for each. -/
def updateUnreach (s : State) (k : Nat) : State :=
  let s1 := forEach ([1, 2, 3].flatMap fun d => (List.range 8).map fun b => (d, b)) (fun s x =>
    let bit := 8 * (x.1 - 1) + x.2
    if !bitOf (fld s F.STK_UNREACH_BANDS) bit && [1, 2, 3].any (bandLost s x.1 x.2) then
      setFld (raise s 0x1406 [(1, k)]) F.STK_UNREACH_BANDS (fld s F.STK_UNREACH_BANDS ||| 2 ^ bit)
    else s) s
  forEach [1, 2, 3] (fun s t =>
    if !bitOf (fld s F.STK_UNREACH_DIES) (t - 1) && baseLost s t then
      loseDie (setFld (raise s 0x1406 [(1, k)]) F.STK_UNREACH_DIES (fld s F.STK_UNREACH_DIES ||| 2 ^ (t - 1))) t
    else s) s1

/-- A retrain is over, whatever it came to: the carrier is FREE again unless it was given a lane. -/
def dropCarrier (s : State) (k : Nat) : State :=
  let x := link s k
  let s1 := setLink s k { x with carrier := none, stage := 0 }
  let s2 := match x.carrier with
    | some i => if sidState s1 k i = sCARRIER then setSid s1 k i sFREE 0 else s1
    | none => s1
  setFld (setFld s2 (F.STK_Lk_CTRL_RETRAIN k) 0) (F.STK_Lk_STATUS_RETRAIN_LANE k) 0

/-- Link k is fenced: cause 0 LANE, 1 HOST. -/
def fence (s : State) (k cause : Nat) : State :=
  if lkState s k = kFENCED then s
  else
    let s1 := dropCarrier s k
    let s2 := setLink s1 k { link s1 k with queue := [], spare := none }
    let s3 := setFld (setLkState s2 k kFENCED) F.STK_FENCED_LINKS (fld s F.STK_FENCED_LINKS ||| 2 ^ k)
    let s4 := setFld s3 F.STK_STATUS_FENCED ((List.range 43).filter fun j => linkFenced s3 j).length
    updateUnreach (raise s4 0x1403 [(1, k), (1, cause)]) k

def execLinkFence (k : Fin 43) (s : State) : Host.Outcome State Fault Refusal := done (fence (setFld s (F.STK_Lk_CTRL_FENCE k) 1) k 1)

/-! ### Retrains (R318 to R320) -/

/-- STK_CTRL.ENABLE reads 1 and is not being cleared. -/
def stkOn (s : State) : Bool := flag s F.STK_CTRL_ENABLE && !flag s F.STK_STATUS_DRAINING

/-- A die of the link is in DIE reset. -/
def linkDieReset (s : State) (k : Nat) : Bool :=
  let d := linkDies k
  (d.1 != 0 && dieInReset s d.1) || dieInReset s d.2

/-- RETRAIN is entered on a siding. -/
def retrainStart (s : State) (k i : Nat) : State :=
  let s1 := setLkState (setSid s k i sCARRIER 0) k kRETRAIN
  setLink s1 k { link s1 k with carrier := some i, stage := 0, startI := fld s F.STK_IVCORE_CURRENT, startT := linkTemp s k }

/-- A link that waits: in GUARD, or asked by the host, it enters RETRAIN where it may; with no FREE siding a guard is
permanent. -/
def guardOne (s : State) (k : Nat) : State :=
  let waits := lkState s k == kGUARD || (lkState s k == kUP && flag s (F.STK_Lk_CTRL_RETRAIN k))
  if !waits || linkDieReset s k then s
  else match freeSiding s k with
    | some i => if stkOn s && decide (fld s F.STK_STATUS_RETRAINING < 4) && (link s k).spare.isNone then retrainStart s k i else s
    | none =>
      if lkState s k = kGUARD ∧ flag s (F.STK_Lk_STATUS_GUARD_PERM k) = false then
        setFld (raise s 0x1404 [(1, k), (1, 1)]) (F.STK_Lk_STATUS_GUARD_PERM k) 1
      else s

/-- Waiting links enter RETRAIN in ascending order. -/
def guardAll (s : State) : State := forEach (List.range 43) guardOne s

/-- A write of STK_Lk_CTRL.RETRAIN; with no FREE siding, or with the controller disabled, it has no effect (R331). -/
def linkRetrain (s : State) (k : Nat) : State :=
  if (lkState s k = kUP ∨ lkState s k = kGUARD) ∧ (freeSiding s k).isSome = true ∧ stkOn s = true then
    guardOne (setFld s (F.STK_Lk_CTRL_RETRAIN k) 1) k
  else s

def execLinkRetrainWrite (k : Fin 43) (s : State) : Host.Outcome State Fault Refusal := done (linkRetrain s k)

/-! ### Failing lanes (R323 to R327) -/

/-- The first failed lane since VALID was cleared. -/
def lastFail (s : State) (k lane cause : Nat) : State :=
  if flag s (F.STK_Lk_LASTFAIL_VALID k) then s
  else setFld (setFld (setFld s (F.STK_Lk_LASTFAIL_LANE k) lane) (F.STK_Lk_LASTFAIL_CAUSE k) cause) (F.STK_Lk_LASTFAIL_VALID k) 1

/-- A siding fails, with event 0x1407. -/
def sidFail (s : State) (k i : Nat) : State := raise (setSid s k i sFAILED 0) 0x1407 [(1, k)]

/-- A siding carries a lane for good, with event 0x1401. -/
def spareLane (s : State) (k lane i : Nat) : State := raise (setSid s k i sIN_USE lane) 0x1401 [(1, k), (2, lane), (1, i)]

/-- No siding is FREE: the lane's byte is erased, or a second byte fences the link (R326). -/
def eraseLane (s : State) (k lane : Nat) : State :=
  if !flag s (F.STK_Lk_STATUS_ERASED k) then
    setFld (setFld (raise s 0x1402 [(1, k), (2, lane)]) (F.STK_Lk_STATUS_ERASED k) 1) (F.STK_Lk_STATUS_ERASED_BYTE k) (lane / 8)
  else if fld s (F.STK_Lk_STATUS_ERASED_BYTE k) = lane / 8 then raise s 0x1402 [(1, k), (2, lane)]
  else fence s k 0

/-- The failing lanes that wait are handled, one at a time: a siding starts training, or the lane is erased. -/
def spareNext (k : Nat) : Nat → State → State
  | 0, s => s
  | n + 1, s =>
    match (link s k).spare, (link s k).queue with
    | none, lane :: t =>
      (match freeSiding s k with
       | some i => setLink s k { link s k with queue := t, spare := some (lane, i) }
       | none => spareNext k n (eraseLane (setLink s k { link s k with queue := t }) k lane))
    | _, _ => s

/-- A data lane fails with a cause. A retrain of its link is abandoned; where its carrier holds the lane, the carrier
keeps it. A lane that a siding carries cannot fail: that siding fails instead. -/
def laneFail (s : State) (k lane cause : Nat) : State :=
  if lkState s k = kFENCED then s
  else
    let x := link s k
    let own := (carrierOf s k lane).isNone
    if own && x.failed.contains lane then s
    else
      let s1 := lastFail s k lane cause
      let s2 := match carrierOf s k lane with
        | some i => sidFail s1 k i
        | none => setLink s1 k { link s1 k with failed := x.failed ++ [lane], missed := x.missed.filter (· != lane) }
      match (if lkState s k = kRETRAIN then x.carrier else none) with
      | some i =>
        if x.stage = lane + 1 then guardAll (setLkState (dropCarrier (spareLane s2 k lane i) k) k kGUARD)
        else
          let s3 := setLkState (dropCarrier s2 k) k kGUARD
          guardAll (spareNext k 600 (setLink s3 k { link s3 k with queue := (link s3 k).queue ++ [lane] }))
      | none => guardAll (spareNext k 600 (setLink s2 k { link s2 k with queue := (link s2 k).queue ++ [lane] }))

/-- The siding trained against a failing lane's traffic takes it over, or fails and the next one is tried (R325). -/
def sidingSwitch (s : State) (k : Nat) (ok : Bool) : State :=
  match (link s k).spare with
  | none => s
  | some (lane, i) =>
    let s1 := setLink s k { link s k with spare := none }
    if ok then guardAll (spareNext k 600 (spareLane (trimLane s1 k (560 + i)) k lane i))
    else
      let s2 := sidFail (lastFail s1 k (560 + i) 3) k i
      guardAll (spareNext k 600 (setLink s2 k { link s2 k with queue := lane :: (link s2 k).queue }))

def execSidingSwitch (k : Fin 43) (ok : Bool) (s : State) : Host.Outcome State Fault Refusal := done (sidingSwitch s k ok)

/-- Draining of the stack controller has ended. -/
def stkDrained (s : State) : Bool := fld s F.STK_STATUS_RETRAINING == 0
def stkDrainEnd (s : State) : State := setFld (setFld s F.STK_CTRL_ENABLE 0) F.STK_STATUS_DRAINING 0

/-- The last position of a retrain is done: UP with TRAINREC and event 0x1405 where the conditions held, else RETRAIN
from its first step. -/
def retrainEnd (s : State) (k i : Nat) : State :=
  let x := link s k
  let s1 := trainRec (satInc s (F.STK_Lk_RETRAINS_RETRAINS k)) k
  if condOut s k x.startI x.startT then retrainStart (dropCarrier s1 k) k i
  else guardAll (raise (setLkState (dropCarrier s1 k) k kUP) 0x1405 [(1, k)])

/-- One step of a retrain ends: the carrier's own training, or one position's. `ok` tells that the window found is wide
enough. A step of a controller that is being disabled is the last. -/
def retrainStep (s : State) (k : Nat) (ok : Bool) : State :=
  let x := link s k
  match x.carrier with
  | none => s
  | some i =>
    if lkState s k ≠ kRETRAIN ∨ linkDieReset s k = true then s
    else if x.stage = 0 then
      (if !ok then guardAll (setLkState (dropCarrier (sidFail (lastFail s k (560 + i) 3) k i) k) k kGUARD)
       else if stkOn s = false then setLkState (dropCarrier s k) k kGUARD
       else
        let s1 := trimLane s k (560 + i)
        setFld (setLink (setSid s1 k i sCARRIER 0) k { link s1 k with stage := 1 }) (F.STK_Lk_STATUS_RETRAIN_LANE k) 0)
    else if !ok then laneFail s k (x.stage - 1) 0
    else
      let s1 := trimLane s k (match carrierOf s k (x.stage - 1) with | some j => 560 + j | none => x.stage - 1)
      if stkOn s = false then setLkState (dropCarrier s1 k) k kGUARD
      else if x.stage < 560 then
        setFld (setLink (setSid s1 k i sCARRIER x.stage) k { link s1 k with stage := x.stage + 1 }) (F.STK_Lk_STATUS_RETRAIN_LANE k) x.stage
      else retrainEnd s1 k i

def execRetrainStep (k : Fin 43) (ok : Bool) (s : State) : Host.Outcome State Fault Refusal := done (retrainStep s k ok)

/-- Clearing STK_CTRL.ENABLE. -/
def stkDisable (s : State) : State :=
  if !flag s F.STK_CTRL_ENABLE then s
  else if stkDrained s then stkDrainEnd s
  else setFld s F.STK_STATUS_DRAINING 1

def execStkDisable (s : State) : Host.Outcome State Fault Refusal := done (stkDisable s)

/-- A repair record of a link lane (R468): its link, and its lane. -/
def recLink (r : Nat) : Nat := bits r 3 7
def recLane (r : Nat) : Nat := bits r 32 15

/-- A lane that the fuse shadows list as repaired is given a siding of its link, the lowest not yet given (R317, R471). -/
def fuseSiding (s : State) (r : Nat) : State :=
  let k := recLink r
  match (List.range 16).find? fun i => !flag s (F.STK_Lk_SIDs_FUSED k i) with
  | some i =>
    let s1 := setFld (setSid s k i sIN_USE (recLane r)) (F.STK_Lk_SIDs_FUSED k i) 1
    setLink s1 k { link s1 k with failed := (link s1 k).failed ++ [recLane r] }
  | none => s

/-- A lane of the 576 fails with a cause: a siding IN_USE fails for the lane it carries, a FREE one becomes FAILED, and a lane
that a siding has replaced cannot fail (R323). -/
def positionFail (s : State) (k l cause : Nat) : State :=
  if l < 560 then (if (carrierOf s k l).isSome then s else laneFail s k l cause)
  else if sidState s k (l - 560) = sIN_USE then laneFail s k (fld s (F.STK_Lk_SIDs_LANE k (l - 560))) cause
  else if sidState s k (l - 560) = sFREE then sidFail (lastFail s k l cause) k (l - 560)
  else s

/-- A lane or siding whose widest window is too narrow. -/
def trainFail (s : State) (x : Fin 43 × Fin 576) : State := positionFail s x.1 x.2 0

/-- One link at the end of start-up training. -/
def trainLink (s : State) (k : Nat) : State := trainRec (setLkState s k kUP) k

/-- Start-up training chooses every lane's trims. -/
def trimAll (s : State) : State :=
  setStk (drawn s) { s.stk with
    startTrims := s.free + 1
    trims := [] }

/-- Start-up training of all 43 links ends: the repairs of the fuse shadows, and the lanes that failed. -/
def startupTraining (s : State) (fails : List (Fin 43 × Fin 576)) : State :=
  if flag s F.STK_STATUS_TRAINED then s
  else
    let s1 := forEach (List.range 43) trainLink (forEach (s.bst.fused.filter fun r => bits r 0 3 == 3) fuseSiding (trimAll s))
    setFld (forEach fails trainFail s1) F.STK_STATUS_TRAINED 1

def execStartupTrainingDone (fails : List (Fin 43 × Fin 576)) (s : State) : Host.Outcome State Fault Refusal :=
  done (startupTraining s fails)

/-! ### Health checks and attributed bits (R321, R322) -/

/-- The links that a round checks. -/
def checkedLinks (s : State) : List Nat :=
  let l := ((List.range 40).map fun i => (s.stk.rot + i) % 43) ++ ((List.range 43).filter fun k => (link s k).extra)
  l.eraseDups.filter fun k => lkState s k != kFENCED && lkState s k != kUNTRAINED && !linkDieReset s k

/-- One link's check: lanes that mismatch twice in a row fail. -/
def checkLink (s : State) (k : Nat) (bad : List Nat) : State :=
  let x := link s k
  let s1 := setLink s k { x with missed := bad, extra := false }
  let s2 := if bad.isEmpty then s1 else satInc s1 (F.STK_Lk_CHECKFAIL_FAILS k)
  forEach (bad.filter fun l => x.missed.contains l) (fun s l => positionFail s k l 1) s2

/-- The checks of a round. -/
def healthChecks (s : State) (fails : List (Fin 43 × Fin 576)) : State :=
  if !stkOn s then s
  else
    let s1 := forEach (checkedLinks s) (fun s k => checkLink s k ((fails.filter fun x => x.1.val == k).map (·.2.val))) s
    setStk s1 { s1.stk with rot := (s.stk.rot + 40) % 43 }

/-- A link whose conditions are out enters GUARD, with event 0x1404. -/
def judgeLink (s : State) (k : Nat) : State :=
  let t0 := toSigned 8 (fld s (F.STK_Lk_TRAINREC_TEMP k)) * 16
  if lkState s k = kUP ∧ condOut s k (fld s (F.STK_Lk_TRAINREC_IVCORE k)) t0 = true then
    setLkState (raise s 0x1404 [(1, k), (1, 0)]) k kGUARD
  else s

/-- Corrected bits are attributed to lanes; STK_THRESH.COUNT of them within WINDOW ms fail a lane (R322, R323). -/
def attribLane (s : State) (k lane : Nat) : State :=
  if flag s (F.STK_Lk_STATUS_ERASED k) && fld s (F.STK_Lk_STATUS_ERASED_BYTE k) == lane / 8 then s
  else
    let r := s.thm.round
    let w := fld s F.STK_THRESH_WINDOW
    let keep := ((link s k).synd.filter fun x => decide (r < x.2 + w)) ++ [(lane, r)]
    let s1 := satInc (setLink s k { link s k with synd := keep }) (F.STK_Lk_CORRBITS_BITS k)
    if fld s F.STK_THRESH_COUNT ≤ (keep.filter fun x => x.1 == lane).length then laneFail s1 k lane 2 else s1

/-- A BLOCK reset of STK: every register but those of the link state, the training and the monitor (R9, R330). -/
def stkReset (s : State) : State :=
  let s1 := setFld (resetOffsets (resetOffsets (resetOffsets s 0x140000 0x140004) 0x14000C 0x140010) 0x140020 0x140024) F.STK_STATUS_DRAINING 0
  forEach (List.range 43) (fun s k => resetOffsets s (0x141030 + 0x40 * k) (0x141040 + 0x40 * k)) s1

end Sys2Proof.Machine
end

