-- ==== Sys2Proof/Machine/MemDies.lean ====
section
/-! DEFINITION. The memory dies' own commands (chapter 13): reads and writes at a port, re-reads, the patrol, group modes
and owners. What the physical world did to a line or a transfer is an operand of the command. -/
namespace Sys2Proof.Machine

/-- A request of this master reaches a port: none without clocks or before the dies are initialised and the links trained (R286, R317), and a fabric's only while its
region runs and is awake, on an edge of region clock 0 (R275). -/
def mayIssue (s : State) (m : Nat) : Bool :=
  sysClocks s && flag s F.MEM_STATUS_INIT_DONE && flag s F.STK_STATUS_TRAINED &&
  if 0x60 ≤ m ∧ m ≤ 0xA7 then regServed s (m - 0x60) && regTicks s (m - 0x60) && regClkEn s (m - 0x60) 0 else true

/-- An uncorrectable line: poisoned, with the Timetable's or the stack cache's own consequences (R71, R282, R297). -/
def lineLost (s : State) (x kind : Nat) : State :=
  let s1 := poisonLine s (dieOfByte x) (storLine s x) kind (x % 0x04000000 / 64)
  if inPartition s x then partitionError s1 (x - ttBase s)
  else match slotOfByte s1 x with
    | some k => cacheLineError s1 k
    | none => s1

/-- A completion is counted by its status in its die's registers and handed to the master. -/
def memDone (s : State) (m tag x st data : Nat) : State :=
  let d := dieOfByte x
  let s1 := if st = ST.poison then satInc s (F.MEM_Md_POISON_RD_POISON d)
    else if st = ST.internal then satInc (raise s 0x1003 []) (F.MEM_Md_XFER_FAIL_FAIL d)
    else if st = ST.busy then satInc s (F.MEM_Md_BUSY_BUSY d)
    else s
  respond s1 m tag st data

/-- The bytes declared erased on a link (R273, R326). -/
def erasedOn (s : State) (k : Option Nat) : List Nat :=
  match k with
  | some k => if flag s (F.STK_Lk_STATUS_ERASED k) then [fld s (F.STK_Lk_STATUS_ERASED_BYTE k)] else []
  | none => []

/-- The corrections of a decoder at an end of a link count against their lanes (R322). -/
def attribFixes (s : State) (k : Option Nat) (fixes : List (Nat × Nat)) : State :=
  match k with
  | some k => forEach fixes (fun s x => forEach ((List.range 8).filter (bitOf x.2)) (fun s b => attribLane s k (8 * x.1 + b)) s) s
  | none => s

/-- The link of a transfer that stayed uncorrectable gets a further health check (R323). -/
def markRead (s : State) (k : Option Nat) : State :=
  match k with
  | some k => setLink s k { link s k with extra := true }
  | none => s

/-- A die decodes a stored line of which the bits in `e` have flipped: a corrected line is counted and written back, an
uncorrectable one poisoned with its bytes as read (R280 to R282, R284). `kind` is 0 for the patrol, 1 for a request. -/
def dieDecode (s : State) (x e kind : Nat) : State :=
  let l := storLine s x
  match lineDecode [] e with
  | some (left, fixes) => let s1 := flipLine s l left; if fixes.isEmpty then s1 else countCorr s1 (dieOfByte x)
  | none => lineLost (flipLine s l (e % 2 ^ 512)) x kind

/-- A transmission of a line decoded at the requester's port end, on link k, with the flips `e`: none where it is
uncorrectable; else the completion, with a corrected line put up for its die's re-read (R281). -/
def portDecode (s : State) (m tag x : Nat) (k : Option Nat) (e : Nat) : Option State :=
  (lineDecode (erasedOn s k) e).map fun r =>
    let l := storLine s x
    let s1 := attribFixes s k r.2
    let s2 := if r.2.isEmpty then s1 else { s1 with mem := { s1.mem with reread := s1.mem.reread ++ [l] } }
    memDone s2 m tag x (if poisoned s l != bitOf r.1 512 then ST.poison else ST.ok) (lineBytes s l 0 64 ^^^ r.1 % 2 ^ 512)

/-- The transmissions that are left of a read, one flipped word each: the first that decodes completes it, and where none does
it ends INTERNAL, or POISON where the line is poisoned (R281, R283). -/
def resendRead (s : State) (m tag x : Nat) (k : Option Nat) : List Nat → State
  | [] =>
    if poisoned s (storLine s x) then memDone s m tag x ST.poison (lineBytes s (storLine s x) 0 64)
    else memDone (markRead s k) m tag x ST.internal 0
  | e :: t => (portDecode s m tag x k e).getD (resendRead s m tag x k t)

/-- A read of a line (R279, R281, R283). `flips` are the bits of the stored codeword that have flipped, and `wire` those that
flip on the way in each of its up to three transmissions. `busy` attempts of up to four received BUSY; `mrq` tells a region's
second interface. -/
def memRead (s : State) (m a tag flips busy : Nat) (mrq : Bool) (wire : List Nat) : State :=
  let r := memRefusalAt s m a mrq
  let x := memByte a
  let d := dieOfByte x
  let k := (pathOf s m x mrq).head?
  if !mayIssue s m then s
  else if r ≠ 0 then respond s m tag r 0
  else
    let s1 := satAdd s (F.MEM_Md_BUSY_REPEATS d) (min busy 3)
    if busy = 4 ∧ poisoned s (storLine s x) = false then memDone (drawn s1) m tag x ST.busy (freeOf s % 2 ^ 512)
    else (portDecode s1 m tag x k (flips ^^^ wire.getD 0 0)).getD
      (resendRead (dieDecode s1 x flips 1) m tag x k [wire.getD 1 0, wire.getD 2 0])

def execMemRead (m : BitVec 8) (addr : BitVec 48) (tag : BitVec 6) (flips : BitVec 560) (busy : Fin 5) (mrq : Bool)
    (wire : List (BitVec 560)) (s : State) : Host.Outcome State Fault Refusal :=
  done (memRead s m.toNat (addr.toNat / 64 * 64) tag.toNat flips.toNat busy mrq (wire.map (·.toNat)))

/-- The transmissions of a write's codeword in turn, decoded at the die: the flips that the first good one leaves, with its
corrections; none where all three are uncorrectable (R281). -/
def arrives (erased : List Nat) (wire : List Nat) : Option (Nat × List (Nat × Nat)) :=
  [wire.getD 0 0, wire.getD 1 0, wire.getD 2 0].findSome? (lineDecode erased)

/-- A write of a line, plain or through an alias (R278, R280, R282). `flips` are the bits of the stored codeword that have
flipped, as a read-modify-write finds them, and `wire` those that flip in each transmission of the write; `busy` tells that
the write was arbitrated later than another, `mrq` a region's second interface. -/
def memWrite (s : State) (m a tag mask data flips : Nat) (wire : List Nat) (busy mrq : Bool) : State :=
  let r := memRefusalAt s m a mrq
  let x := memByte a
  let l := storLine s x
  let k := (pathOf s m x mrq).getLast?
  let whole := memWay a == some (MemWay.plain, x) && mask == 2 ^ 64 - 1
  if !mayIssue s m then s
  else if r ≠ 0 then respond s m tag r 0
  else if !whole && poisoned s l then memDone s m tag x ST.poison 0
  else match arrives (erasedOn s k) wire with
    | none => memDone (markRead s k) m tag x ST.internal 0
    | some (left, fixes) =>
      let s1 := attribFixes s k fixes
      let s2 := if whole then s1 else dieDecode s1 x flips 1
      if !whole && poisoned s2 l then memDone s2 m tag x ST.poison 0
      else memDone (mergeLine s2 a 64 mask (data ^^^ left % 2 ^ 512)) m tag x (if busy then ST.busy else ST.ok) 0

def execMemWrite (m : BitVec 8) (addr : BitVec 48) (tag : BitVec 6) (mask : BitVec 64) (data : BitVec 512)
    (flips : BitVec 560) (wire : List (BitVec 560)) (busy mrq : Bool) (s : State) : Host.Outcome State Fault Refusal :=
  done (memWrite s m.toNat (addr.toNat / 64 * 64) tag.toNat mask.toNat data.toNat flips.toNat (wire.map (·.toNat)) busy mrq)

/-- The address of an alias operation: an address of the plain range names the same byte in the alias (R266, R275). -/
def aliasOf (base a : Nat) : Nat := if a < 0x0C000000 then base + a else a

def execMemSetAlias (m : BitVec 8) (addr : BitVec 48) (tag : BitVec 6) (mask : BitVec 64) (data : BitVec 512)
    (flips : BitVec 560) (wire : List (BitVec 560)) (busy mrq : Bool) (s : State) : Host.Outcome State Fault Refusal :=
  done (memWrite s m.toNat (aliasOf 0x004000000000 (addr.toNat / 64 * 64)) tag.toNat mask.toNat data.toNat flips.toNat (wire.map (·.toNat)) busy mrq)

def execMemClearAlias (m : BitVec 8) (addr : BitVec 48) (tag : BitVec 6) (mask : BitVec 64) (data : BitVec 512)
    (flips : BitVec 560) (wire : List (BitVec 560)) (busy mrq : Bool) (s : State) : Host.Outcome State Fault Refusal :=
  done (memWrite s m.toNat (aliasOf 0x008000000000 (addr.toNat / 64 * 64)) tag.toNat mask.toNat data.toNat flips.toNat (wire.map (·.toNat)) busy mrq)

/-- The byte X of the memory dies that a storage line holds: the inverse of R267 in the group's present mode. -/
def byteOfLine (s : State) (l : Nat) : Nat :=
  let die := l / 2 ^ 20
  let bank := l / 2 ^ 14 % 64
  let row := l % 2 ^ 14
  let g := bank / 8
  die * 0x04000000 + g * 0x800000 +
    (if groupMode s (8 * die + g) = 0 then (row * 8 + bank % 8) * 64 else bank % 8 * 0x100000 + row * 64)

/-- The die re-reads a line that was read with a correction (R281). `flips` are the bits of the stored line that have flipped. -/
def memReread (s : State) (flips : Nat) : State :=
  match s.mem.reread with
  | [] => s
  | l :: t =>
    let s1 := { s with mem := { s.mem with reread := t } }
    if poisoned s l then s1 else dieDecode s1 (byteOfLine s l) flips 1

def execMemReread (flips : BitVec 560) (s : State) : Host.Outcome State Fault Refusal := done (clocked s (memReread s flips.toNat))

/-! ### The patrol (R284) -/

/-- The end of a pass: the minutes it took, and event 0x1004 beyond 24 hours. -/
def patrolPass (s : State) (d secs : Nat) : State :=
  let s1 := setFld s (F.MEM_Md_PATROL_LAST_PASS d) (min (secs / 60) 4095)
  if 86400 < secs then raise s1 0x1004 [] else s1

/-- A visit of die d: the next line is decoded, and written back corrected or poisoned. -/
def patrolVisit (s : State) (d flips secs : Nat) : State :=
  if !flag s F.MEM_PATROL_ENABLE || dieInReset s (memPos d) then s
  else
    let n := fld s (F.MEM_Md_PATROL_LINE d)
    let x := (d - 1) * 0x04000000 + n * 64
    let s1 := if poisoned s (storLine s x) then s else dieDecode s x flips 0
    let s2 := setFld s1 (F.MEM_Md_PATROL_LINE d) ((n + 1) % 2 ^ 20)
    if n = 2 ^ 20 - 1 then patrolPass s2 d secs else s2

def execPatrolVisit (d : Fin 3) (flips : BitVec 560) (secs : BitVec 32) (s : State) : Host.Outcome State Fault Refusal :=
  done (clocked s (patrolVisit s (d + 1) flips.toNat secs.toNat))

/-- Clearing MEM_PATROL.ENABLE; a visit in progress has finished. -/
def execPatrolDisable (s : State) : Host.Outcome State Fault Refusal := done (setFld s F.MEM_PATROL_ENABLE 0)

/-! ### Modes and owners (R268 to R270) -/

/-- A change of a group's mode is refused. -/
def modeRefused (s : State) (n mode : Nat) : Bool :=
  let old := groupMode s n
  (groupHasTt s n && mode != 1)
  || (old != mode && (old == 2 || mode == 2) && flag s F.SCH_CTRL_ENABLE)
  || (mode == 2 && old != 2 && decide (12 ≤ (cacheGroups s).length))

/-- A write of MEM_GRPn_CFG.MODE. -/
def groupModeWrite (s : State) (n mode : Nat) : State :=
  if mode = 3 then s
  else if modeRefused s n mode then raise s 0x1005 [(1, n)]
  else setFld s (F.MEM_GRPn_CFG_MODE n) mode

def execMemGroupModeWrite (n : Fin 24) (mode : BitVec 2) (s : State) : Host.Outcome State Fault Refusal :=
  done (groupModeWrite s n mode.toNat)

/-- A master code that R269 lists. -/
def codeKnown (c : Nat) : Bool := decide (c ≤ 0xA7) || (decide (0xC0 ≤ c) && decide (c ≤ 0xC6)) || c == 0xFF

/-- One owner byte written: reserved codes and partition banks leave it unchanged. -/
def ownerByte (s : State) (n i v : Nat) : State := if !codeKnown v || bankIsTt s n i then s else setFld s (F.MEM_GRPn_OWNER_OWNERi n i) v

/-- A write of a word of MEM_GRPn_OWNER. -/
def groupOwnerWrite (s : State) (n word v : Nat) : State :=
  forEach (List.range 4) (fun s i => ownerByte s n (4 * word + i) (bits v (8 * i) 8)) s

def execMemGroupOwnerWrite (n : Fin 24) (upper : Bool) (value : Word) (s : State) : Host.Outcome State Fault Refusal :=
  done (groupOwnerWrite s n (b2n upper) value.toNat)

/-! ### Disabling, initialisation and reset (R285, R286) -/

/-- No window request of an engine to the memory dies is in flight. -/
def memDrained (s : State) : Bool := s.engines.all fun e => !(e.2.win.any fun q => q.pre == 0 && (memWay q.addr).isSome)

/-- Draining has ended. -/
def memDrainEnd (s : State) : State := setFld (setFld s F.MEM_CTRL_ENABLE 0) F.MEM_STATUS_DRAINING 0

def memDisable (s : State) : State :=
  if !flag s F.MEM_CTRL_ENABLE then s
  else if memDrained s then memDrainEnd s
  else setFld s F.MEM_STATUS_DRAINING 1

def execMemDisable (s : State) : Host.Outcome State Fault Refusal := done (memDisable s)

/-- Each die has written every line to zero, the end of its start-up test (R472). -/
def execMemInitDone (s : State) : Host.Outcome State Fault Refusal :=
  done (if s.bst.startup.any (· < 3) then s else setFld s F.MEM_STATUS_INIT_DONE 1)

/-- Requests to the memory dies, of a condition on their byte, end RESET. -/
def memInflightReset (s : State) (c : Nat → Bool) : State :=
  inflightReset s fun a => match memWay a with | some w => c w.2 | none => false

/-- A BLOCK reset of MEM (R9, R286): every register but the groups' modes and owners, and INIT_DONE, which tells of contents
that are kept (log 139); contents and poison are kept. -/
def memBlockReset (s : State) : State :=
  let s1 := setFld (resetOffsets (memInflightReset s fun _ => true) 0x100000 0x100004) F.MEM_STATUS_DRAINING 0
  resetOffsets s1 0x100008 0x1001C0

end Sys2Proof.Machine
end

