-- ==== Sys2Proof/Machine/HostWin.lean ====
section
/-! DEFINITION. Host window, stack cache, sealed pages and descriptor rings: their commands (chapter 14). -/
namespace Sys2Proof.Machine

/-! ### The map (R289) -/

/-- HWN_MAP_CMD with WRITE = 0. -/
def mapLoad (s : State) (p : Nat) : State := setFld s F.HWN_MAP_DATA_ENTRY (pageEntry s p + pageState s p * 4)

def execMapLoad (p : Fin 32768) (s : State) : Host.Outcome State Fault Refusal := done (mapLoad s p)

/-- The bits of a map entry that are kept: VALID, KIND, HOST and TAG. -/
def entryBits (e : Nat) : Nat := e % 4 + bits e 21 43 * 2 ^ 21 + bits e 83 45 * 2 ^ 83

/-- The outcome of a map write: the first row of R289 that applies. -/
def mapResult (s : State) (p e : Nat) : Nat :=
  let sealed := bitOf e 0 && bitOf e 1
  if pageValid s p && !pageSealed s p && pageOwner s p != 0 then 1
  else if sealed && smGet s.enc.used p 0 == 1 then 2
  else if sealed && rekeying s then 3
  else if sealed && !encOn s then 4
  else 0

/-- The cached lines and the fills of a sealed page that loses its mapping (R289). -/
def unsealPage (s : State) (p : Nat) : State :=
  let s1 := forEach (s.cache.fills.filter fun f => f.line / 32768 == p) (fun s f => fillFail s f ST.decode) s
  dropWays s1 fun l => l / 32768 == p

/-- A SCH_ZERO that waits for its page goes on. -/
def zeroAgain (s : State) : State :=
  match s.cache.zero with
  | some a => cacheAccess (setCache s { s.cache with zero := none }) a 0
  | none => s

/-- HWN_MAP_CMD with WRITE = 1. -/
def mapWrite (s : State) (p : Nat) : State :=
  let e := entryBits (fld s F.HWN_MAP_DATA_ENTRY)
  let r := mapResult s p e
  let sealed := bitOf e 0 && bitOf e 1
  if !hwnOn s then s
  else if r ≠ 0 then setFld (raise s 0x1203 []) F.HWN_MAP_RESULT_RESULT r
  else
    let s1 := if pageSealed s p then unsealPage s p else s
    let s2 := setHwn s1 { s1.hwn with
      map := smSet s1.hwn.map p e 0
      owner := smSet s1.hwn.owner p 0 0
      init := s1.hwn.init.filter (· != p) ++ (if sealed then [p] else []) }
    let s3 := if sealed then setSeal s2 { s2.enc with used := smSet s2.enc.used p 1 0 } else s2
    setFld (zeroAgain s3) F.HWN_MAP_RESULT_RESULT 0

def execMapWrite (p : Fin 32768) (s : State) : Host.Outcome State Fault Refusal := done (mapWrite s p)

/-- Every line of a newly sealed page is written as encrypted zeros with counter 0; the page becomes READY. While bus
mastering is off this waits (R309). -/
def pageInitDone (s : State) (p : Nat) : State :=
  if !s.hwn.init.contains p || !bme s then s
  else
    let s1 := forEach (List.range 32768) (fun s j => postSealed s (keyOf s (p * 32768 + j)) (p * 32768 + j) 0 0) s
    zeroAgain (setHwn s1 { s1.hwn with init := s1.hwn.init.filter (· != p) })

def execSealedPageInitDone (p : Fin 32768) (s : State) : Host.Outcome State Fault Refusal := done (pageInitDone s p)

/-! ### Ownership (R292) -/

/-- Every page of FIRST to FIRST + COUNT is mapped, CLEAR and has the owner. -/
def pagesHave (s : State) (first count own : Nat) : Bool :=
  decide (first + count < 32768) &&
  (List.range (count + 1)).all fun i => pageValid s (first + i) && !pageSealed s (first + i) && pageOwner s (first + i) == own

/-- The owner of a range of pages set. -/
def setOwners (s : State) (first count own : Nat) : State :=
  setHwn s { s.hwn with owner := (List.range (count + 1)).foldl (fun m i => smSet m (first + i) own 0) s.hwn.owner }

/-- A write of HWN_OWN_GIVE. -/
def ownGive (s : State) (first count : Nat) : State :=
  if !hwnOn s then s
  else if pagesHave s first count 0 then setFld (setOwners s first count 1) F.HWN_OWN_RESULT_GIVE_REFUSED 0
  else setFld s F.HWN_OWN_RESULT_GIVE_REFUSED 1

def execHwnOwnGive (first count : Fin 32768) (s : State) : Host.Outcome State Fault Refusal := done (ownGive s first count)

/-- A reclaim starts, or waits behind others. -/
def startReclaim (s : State) (first count : Nat) (desc : Option (Nat × Nat)) : State :=
  let s1 := setOwners s first count 2
  setFld (setHwn s1 { s1.hwn with reclaims := s1.hwn.reclaims ++ [⟨first, count, desc⟩] }) F.HWN_OWN_RESULT_RECLAIMING 1

/-- A write of HWN_OWN_RECLAIM. -/
def ownReclaim (s : State) (first count : Nat) : State :=
  if !hwnOn s then s
  else if pagesHave s first count 1 then setFld (startReclaim s first count none) F.HWN_OWN_RESULT_RECLAIM_REFUSED 0
  else setFld s F.HWN_OWN_RESULT_RECLAIM_REFUSED 1

def execHwnOwnReclaim (first count : Fin 32768) (s : State) : Host.Outcome State Fault Refusal := done (ownReclaim s first count)

/-! ### Descriptors in flight (R305 to R309) -/

/-- The descriptors in flight of ring k. -/
def ring (s : State) (k : Nat) : List Desc := smGet s.hwn.rings k []

/-- The descriptors in flight of ring k set; INFLIGHT follows. -/
def setRing (s : State) (k : Nat) (l : List Desc) : State :=
  setFld (setHwn s { s.hwn with rings := smSet s.hwn.rings k l [] }) (F.HWN_RINGk_STATUS_INFLIGHT k) l.length

/-- One descriptor in flight replaced. -/
def putDesc (s : State) (k : Nat) (d : Desc) : State := setRing s k ((ring s k).map fun x => if x.idx = d.idx then d else x)

/-- The descriptor of an index. -/
def descAt (s : State) (k i : Nat) : Option Desc := (ring s k).find? fun d => d.idx == i

def dOp (d : Desc) : Nat := bits d.raw 8 8
def dLen (d : Desc) : Nat := bits d.raw 32 32
def dHost (d : Desc) : Nat := bits d.raw 64 64
def dDev (d : Desc) : Nat := bits d.raw 128 48

/-- A descriptor ends with a status: that status where nothing is done, else PARTIAL with it as CAUSE (R308). -/
def endDesc (d : Desc) (st : Nat) : Desc :=
  if st = 0 ∨ d.count = 0 then { d with started := true, fin := some (st, 0) }
  else { d with started := true, fin := some (ST.partial_, st) }

/-- A reclaim's descriptor ends. -/
def endReclaimDesc (s : State) (x : Option (Nat × Nat)) : State :=
  match x with
  | some (k, i) => (match descAt s k i with | some d => putDesc s k (endDesc { d with count := dLen d } 0) | none => s)
  | none => s

/-- The first reclaim ends: its pages' lines are written back and invalidated, and they return to HOST (R292). It waits
for accesses already accepted, and while bus mastering is off. -/
def reclaimDone (s : State) : State :=
  match s.hwn.reclaims with
  | [] => s
  | x :: t =>
    let mine := fun l => decide (x.first ≤ l / 32768) && decide (l / 32768 ≤ x.first + x.count)
    if !bme s || s.cache.fills.any (fun f => mine f.line) then s
    else
      let s1 := setOwners (flushWays s mine) x.first x.count 0
      let s2 := raise (setHwn s1 { s1.hwn with reclaims := t }) 0x1201 []
      endReclaimDesc (setFld s2 F.HWN_OWN_RESULT_RECLAIMING (b2n (!t.isEmpty))) x.desc

def execReclaimDone (s : State) : Host.Outcome State Fault Refusal := done (reclaimDone s)

/-! ### Accesses (R295, R296) -/

/-- Window request k of an engine, where it is one to the host window that is not yet with the cache. -/
def hostReq (s : State) (n k : Nat) (store : Bool) : Option WinReq :=
  match (engine s n).win[k]? with
  | none => none
  | some q =>
    let waits := s.cache.fills.any fun f => f.accs.any fun a => a.client == Client.engine n q
    let older := ((engine s n).win.take k).any fun p => p.pre == 0 && p.addr / 64 == q.addr / 64
    if q.pre = 0 ∧ devIsHost q.addr = true ∧ q.store = store ∧ waits = false ∧ older = false then some q else none

/-- Window request k of an engine reaches the stack cache. -/
def hostAccess (s : State) (n k ecc : Nat) (store : Bool) : State :=
  match hostReq s n k store with
  | none => s
  | some q =>
    cacheAccess s ⟨.engine n q, (q.addr - 0x100000000000) / 64, q.addr % 64, q.width, store, false, 2 ^ q.width - 1, q.data⟩ ecc

def execHostWindowRead (n : Fin 96) (k : Fin 16) (ecc : Fin 4) (s : State) : Host.Outcome State Fault Refusal :=
  done (hostAccess s n k ecc false)

def execHostWindowWrite (n : Fin 96) (k : Fin 16) (ecc : Fin 4) (s : State) : Host.Outcome State Fault Refusal :=
  done (hostAccess s n k ecc true)

/-- The completion of fill k: the line's data and, for a sealed line, its tag entry; or Unsupported Request or Completer
Abort. -/
def cacheFillDone (s : State) (k data ctr tag : Nat) (bad : Bool) : State :=
  match s.cache.fills[k]? with
  | none => s
  | some f => if bad then fillFail s f ST.decode else fillDone s f data ctr tag

def execCacheFillDone (k : Fin 256) (data : BitVec 512) (ctr tag : BitVec 64) (bad : Bool) (s : State) :
    Host.Outcome State Fault Refusal := done (cacheFillDone s k data.toNat ctr.toNat tag.toNat bad)

/-- The completion of fill k does not arrive within HWN_CPL_TO. -/
def fillTimeout (s : State) (k : Nat) : State :=
  match s.cache.fills[k]? with
  | none => s
  | some f => fillFail (raiseMerged s 0x1204 0 []) f ST.timeout

def execFillTimeout (k : Fin 256) (s : State) : Host.Outcome State Fault Refusal := done (fillTimeout s k)

/-- SCH_CTRL.ENABLE written 1 (R293). -/
def schEnable (s : State) : State :=
  let g := (cacheGroups s).length
  if flag s F.SCH_CTRL_ENABLE then s
  else if g = 0 then setFld (raise s 0x1101 []) F.SCH_STATUS_CFG_ERR 1
  else setFld (setFld (dropWays s fun _ => true) F.SCH_STATUS_GROUPS g) F.SCH_CTRL_ENABLE 1

def execSchEnable (s : State) : Host.Outcome State Fault Refusal := done (schEnable s)

/-- Every way is invalid, no fill is outstanding and no reclaim runs (R310). -/
def schDrained (s : State) : Bool := s.cache.ways.isEmpty && s.cache.fills.isEmpty && s.hwn.reclaims.isEmpty

/-- A draining cache writes its dirty lines back while bus mastering is on. -/
def schFlush (s : State) : State := if flag s F.SCH_STATUS_DRAINING && bme s then flushWays s fun _ => true else s

/-- Draining has ended. -/
def schDrainEnd (s : State) : State := setFld (setFld s F.SCH_CTRL_ENABLE 0) F.SCH_STATUS_DRAINING 0

/-- Clearing SCH_CTRL.ENABLE. -/
def schDisable (s : State) : State :=
  if !flag s F.SCH_CTRL_ENABLE then s
  else
    let s1 := schFlush (setFld s F.SCH_STATUS_DRAINING 1)
    if schDrained s1 then schDrainEnd s1 else s1

def execSchDisable (s : State) : Host.Outcome State Fault Refusal := done (schDisable s)

/-- A write of the upper word of SCH_ZERO: a whole line of zeros (R298). -/
def schZero (s : State) (hi : Nat) : State :=
  let a := fld s F.SCH_ZERO_LINE % 2 ^ 26 * 64 + hi % 2 ^ 16 * 2 ^ 32
  let s1 := setFld (setFld s F.SCH_ZERO_LINE (a / 64)) F.SCH_ZERO_RESULT_DONE 0
  if devIsHost a then cacheAccess s1 ⟨.zero, (a - 0x100000000000) / 64, 0, 64, true, true, 2 ^ 64 - 1, 0⟩ 0
  else setFld (setFld s1 F.SCH_ZERO_RESULT_STATUS ST.decode) F.SCH_ZERO_RESULT_DONE 1

def execSchZero (upper : BitVec 16) (s : State) : Host.Outcome State Fault Refusal := done (schZero s upper.toNat)

/-! ### Rekey (R304) -/

/-- A write of ENC_REKEY.GO. -/
def rekeyGo (s : State) : State :=
  if rekeying s then s
  else
    let s1 := setSeal (drawn s) { s.enc with next := freeOf s % 2 ^ 256, usedNext := [] }
    setFld (setFld (setFld s1 F.ENC_BOUND_BOUND 0) F.ENC_STATUS_REKEYING 1) F.ENC_REKEY_GO 1

def execRekeyGo (s : State) : Host.Outcome State Fault Refusal := done (rekeyGo s)

/-- ENC_BOUND has reached 2^30: KEY_NEXT replaces KEY_CUR, with event 0x1303. -/
def rekeyEnd (s : State) : State :=
  dropRekey (raise (setSeal s { s.enc with cur := s.enc.next, next := 0, used := s.enc.usedNext, usedNext := [] }) 0x1303 [])

/-- ENC_BOUND moves to a line. -/
def rekeyMove (s : State) (l : Nat) : State := if 2 ^ 30 ≤ l then rekeyEnd s else setFld s F.ENC_BOUND_BOUND l

/-- A cached sealed line is encrypted from its plaintext and becomes clean, EXHAUSTED cleared; one without valid
plaintext is left. -/
def rekeyCached (s : State) (k l : Nat) : State :=
  if slotPoison s k then s
  else
    let s1 := setOwnerBit (setOwnerBit (postSealed s s.enc.next l 0 (slotData s k)) k oDIRTY false) k oEXHAUSTED false
    putWay s1 k { way s1 k with ctr := 0 }

/-- An uncached sealed line is filled under KEY_CUR, verified and rewritten with counter 0. -/
def rekeyUncached (s : State) (l data ctr tag : Nat) (ok : Bool) : State :=
  if !ok then s
  else if sealTag s.enc.cur l ctr data == tag then postSealed s s.enc.next l 0 (sealData s.enc.cur l ctr data)
  else tagFailed s l

/-- The rekey visits the line at ENC_BOUND; pages that are not sealed are passed over whole. -/
def rekeyVisit (s : State) (data ctr tag : Nat) (ok : Bool) : State :=
  let l := fld s F.ENC_BOUND_BOUND
  let p := l / 32768
  if !rekeying s || !bme s then s
  else if !pageSealed s p || s.hwn.init.contains p then
    rekeyMove (if pageSealed s p then setSeal s { s.enc with usedNext := smSet s.enc.usedNext p 1 0 } else s) ((p + 1) * 32768)
  else
    let s1 := setSeal s { s.enc with usedNext := smSet s.enc.usedNext p 1 0 }
    let s2 := match wayOf s1 l with
      | some k => rekeyCached s1 k l
      | none => rekeyUncached s1 l data ctr tag ok
    rekeyMove s2 (l + 1)

def execRekeyVisit (data : BitVec 512) (ctr tag : BitVec 64) (ok : Bool) (s : State) : Host.Outcome State Fault Refusal :=
  done (rekeyVisit s data.toNat ctr.toNat tag.toNat ok)

/-- Clearing ENC_CTRL.ENABLE; a rekey that runs goes on to its end. -/
def encDrained (s : State) : Bool := !rekeying s
def encDrainEnd (s : State) : State := setFld (setFld s F.ENC_CTRL_ENABLE 0) F.ENC_STATUS_DRAINING 0
def encDisable (s : State) : State :=
  if !flag s F.ENC_CTRL_ENABLE then s
  else if encDrained s then encDrainEnd s
  else setFld s F.ENC_STATUS_DRAINING 1

def execEncDisable (s : State) : Host.Outcome State Fault Refusal := done (encDisable s)

/-! ### Descriptor rings (R305 to R310) -/

/-- The ring is enabled and is not being disabled, and the host window is on. -/
def ringOn (s : State) (k : Nat) : Bool :=
  flag s (F.HWN_RINGk_CTRL_ENABLE k) && !flag s (F.HWN_RINGk_STATUS_DRAINING k) && hwnOn s && bme s

/-- A write of HWN_RINGk_TAIL. -/
def ringTail (s : State) (k v : Nat) : State := setFld (setFld s (F.HWN_RINGk_TAIL_TAIL k) v) (F.HWN_RINGk_STATUS_STALLED k) 0

def execRingTailWrite (k : Fin 16) (tail : BitVec 12) (s : State) : Host.Outcome State Fault Refusal := done (ringTail s k tail.toNat)

/-- The descriptor at HEAD has been fetched: it joins those in flight, or stalls the ring where OWN is 0. -/
def descFetch (s : State) (k raw : Nat) : State :=
  let h := fld s (F.HWN_RINGk_HEAD_HEAD k)
  let n := 2 ^ fld s (F.HWN_RINGk_SIZE_SIZE k)
  if !ringOn s k || flag s (F.HWN_RINGk_STATUS_STALLED k) || flag s (F.HWN_RINGk_STATUS_ABORTED k)
    || h == fld s (F.HWN_RINGk_TAIL_TAIL k) % n || decide (32 ≤ (ring s k).length) then s
  else if bitOf raw 0 = false then setFld s (F.HWN_RINGk_STATUS_STALLED k) 1
  else setRing (setFld s (F.HWN_RINGk_HEAD_HEAD k) ((h + 1) % n)) k (ring s k ++ [⟨h, raw, false, 0, none⟩])

def execDescriptorFetch (k : Fin 16) (desc : BitVec 256) (s : State) : Host.Outcome State Fault Refusal := done (descFetch s k desc.toNat)

/-- A copy's range is whole within the plain memory-die range or one scratchpad (R307). -/
def copyOk (d : Desc) : Bool :=
  let a := dDev d
  let n := dLen d
  decide (0 < n) && decide (n ≤ 16777216) &&
  (decide (a + n ≤ 0x0C000000) || (devIsSp a && decide (a % 0x10000 + n ≤ 0x10000)))

/-- A piece of a copy at a scratchpad may collide with the engine's accesses while a thread of it runs: it is repeated until it
receives no BUSY, each time counted, how often is free (R159). -/
def copyCollides (s : State) (a : Nat) : State :=
  let n := (a - 0x000200000000) / 0x10000
  if [0, 1, 2, 3].any fun t => thrState s n t == tRUN then satAdd (drawn s) (F.ENG_n_BUSY_EXTERNAL n) (freeOf s) else s

/-- One piece of a copy to the device, within one line: its status. -/
def putPiece (s : State) (a n v : Nat) : Nat × State :=
  if devIsSp a then
    let r := extAccess s ((a - 0x000200000000) / 0x10000) (a % 0x10000 / 64) true ((2 ^ n - 1) * 2 ^ (a % 64)) (v * 2 ^ (8 * (a % 64))) 0 0 0 0
    (r.1, copyCollides r.2.2 a)
  else memStore s MC.descriptor a n (2 ^ n - 1) v

/-- One piece read from the device, within one line. -/
def getPiece (s : State) (a n : Nat) : Nat × Nat × State :=
  if devIsSp a then
    let r := extAccess s ((a - 0x000200000000) / 0x10000) (a % 0x10000 / 64) false ((2 ^ n - 1) * 2 ^ (a % 64)) 0 0 0 0 0
    (r.1, r.2.1 / 2 ^ (8 * (a % 64)) % 2 ^ (8 * n), copyCollides r.2.2 a)
  else
    let r := memLoad s MC.descriptor a n
    (r.1, r.2, s)

/-- The value of a byte string, first byte lowest. -/
def bytesNat (l : List Byte) : Nat := l.foldr (fun b x => b.toNat + 256 * x) 0

/-- Bytes that arrived from host memory go to the device, line by line, up to the first failing access. -/
def copyIn (k : Nat) : Nat → State → Desc → List Byte → State
  | 0, s, d, _ => putDesc s k d
  | fuel + 1, s, d, l =>
    let a := dDev d + d.count
    let n := min (min l.length (64 - a % 64)) (dLen d - d.count)
    if n = 0 then putDesc s k (if d.count = dLen d then endDesc d 0 else d)
    else
      let r := putPiece s a n (bytesNat (l.take n))
      if r.1 ≠ 0 ∧ r.1 ≠ ST.busy then putDesc r.2 k (endDesc d r.1)
      else copyIn k fuel r.2 { d with count := d.count + n } (l.drop n)

/-- Bytes of the device go to host memory, line by line, up to the first failing access. -/
def copyOut (k : Nat) : Nat → State → Desc → Nat → State
  | 0, s, d, _ => putDesc s k d
  | fuel + 1, s, d, m =>
    let a := dDev d + d.count
    let n := min (min m (64 - a % 64)) (dLen d - d.count)
    if n = 0 then putDesc s k (if d.count = dLen d then endDesc d 0 else d)
    else
      let r := getPiece s a n
      if r.1 ≠ 0 then putDesc r.2.2 k (endDesc d r.1)
      else copyOut k fuel (postHost r.2.2 (dHost d + d.count) n r.2.1) { d with count := d.count + n } (m - n)

/-- A ring whose draining has nothing left in flight reads ENABLE = 0. -/
def ringDrained (s : State) (k : Nat) : Bool := (ring s k).isEmpty
def ringDrainEnd (s : State) (k : Nat) : State := setFld (setFld s (F.HWN_RINGk_CTRL_ENABLE k) 0) (F.HWN_RINGk_STATUS_DRAINING k) 0

/-- A descriptor whose read of host memory is outstanding: a copy to the device or a CONFIG that has not ended. -/
def readOpen (d : Desc) : Bool := d.fin.isNone && (dOp d == 1 || dOp d == 0x10)

/-- The ring has been aborted and not reset since (R309). -/
def ringAborted (s : State) (k : Nat) : Bool := flag s (F.HWN_RINGk_STATUS_ABORTED k)

/-- The read of an aborted ring's descriptor has ended: nothing is written back, and after the last one ENABLE reads 0
(R309). -/
def readEnds (s : State) (k i : Nat) : State :=
  let s1 := setRing s k ((ring s k).filter fun y => y.idx != i)
  if ringDrained s1 k then ringDrainEnd s1 k else s1

/-- An operation of a descriptor in flight that has not ended, while bus mastering is on; on an aborted ring it ends the
descriptor's read. -/
def withDesc (s : State) (k i op : Nat) (f : Desc → State) : State :=
  match descAt s k i with
  | none => s
  | some d =>
    if d.fin.isSome ∨ dOp d ≠ op then s
    else if ringAborted s k then readEnds s k i
    else if bme s = false then s
    else f { d with started := true }

/-- Bytes of a TO_DEVICE descriptor arrive, or its read completes with Unsupported Request or Completer Abort. -/
def toDevice (s : State) (k i : Nat) (l : List Byte) (bad : Bool) : State :=
  withDesc s k i 1 fun d =>
    if !copyOk d || bad then putDesc s k (endDesc d ST.decode) else copyIn k (l.length + 1) s d l

def execToDevice (k : Fin 16) (i : Fin 4096) (data : List Byte) (bad : Bool) (s : State) : Host.Outcome State Fault Refusal :=
  done (toDevice s k i data bad)

/-- The next `n` bytes of a TO_HOST descriptor are copied. -/
def toHost (s : State) (k i n : Nat) : State :=
  withDesc s k i 2 fun d => if !copyOk d then putDesc s k (endDesc d ST.decode) else copyOut k (n + 1) s d n

def execToHost (k : Fin 16) (i : Fin 4096) (n : BitVec 13) (s : State) : Host.Outcome State Fault Refusal := done (toHost s k i n.toNat)

/-- A RECLAIM descriptor. The status of one that R292 refuses is not specified: a free value. -/
def reclaimDesc (s : State) (k i : Nat) : State :=
  withDesc s k i 3 fun d =>
    let first := dDev d % 32768
    let n := dLen d
    if n = 0 ∨ 32768 < n ∨ 32768 < first + n then putDesc s k (endDesc d ST.decode)
    else if s.hwn.reclaims.any fun x => x.desc == some (k, i) then s
    else if pagesHave s first (n - 1) 1 then setFld (startReclaim (putDesc s k d) first (n - 1) (some (k, i))) F.HWN_OWN_RESULT_RECLAIM_REFUSED 0
    else setFld (putDesc (drawn s) k (endDesc d (freeOf s % 16))) F.HWN_OWN_RESULT_RECLAIM_REFUSED 1

def execReclaim (k : Fin 16) (i : Fin 4096) (s : State) : Host.Outcome State Fault Refusal := done (reclaimDesc s k i)

/-- An OP that R307 does not list ends its descriptor with DECODE. -/
def opUnknown (d : Desc) : Bool := !([1, 2, 3, 0x10].contains (dOp d))

/-- What the device writes back: DONE, then bytes [3:0] with OWN = 0 (R308). -/
def writeDesc (s : State) (k : Nat) (d : Desc) (st : Nat × Nat) : State :=
  let a := fld s (F.HWN_RINGk_BASE_BASE k) * 4096 + 32 * d.idx
  let b0 := putBits (putBits (bits d.raw 0 8) 0 1 0) 4 4 st.1
  postHost (postHost s (a + 24) 4 d.count) a 4 (b0 + dOp d * 2 ^ 8 + st.2 * 2 ^ 16)

/-- A descriptor that has ended is written back; with IRQ its vector is sent. On an aborted ring nothing is written back. -/
def descComplete (s : State) (k i : Nat) : State :=
  match descAt s k i with
  | none => s
  | some d =>
    let st := if d.fin.isNone && opUnknown d then some (ST.decode, 0) else d.fin
    match st with
    | none => s
    | some x =>
      if ringAborted s k then readEnds s k i
      else if !bme s then s
      else
        let s1 := setRing (writeDesc s k d x) k ((ring s k).filter fun y => y.idx != i)
        if bitOf d.raw 1 then pendVec s1 (fld s (F.HWN_RINGk_VEC_VEC k)) else s1

def execDescriptorComplete (k : Fin 16) (i : Fin 4096) (s : State) : Host.Outcome State Fault Refusal := done (descComplete s k i)

/-- A host completion of a descriptor that reads host memory misses HWN_CPL_TO. -/
def cplTimeout (s : State) (k i : Nat) : State :=
  match descAt s k i with
  | none => s
  | some d =>
    let s1 := raiseMerged s 0x1204 0 []
    if !readOpen d then s else if ringAborted s k then readEnds s1 k i else putDesc s1 k (endDesc d ST.timeout)

def execCplTimeout (k : Fin 16) (i : Fin 4096) (s : State) : Host.Outcome State Fault Refusal := done (cplTimeout s k i)

/-! ### Bus mastering (R309) -/

/-- A record into HWN_ABORT_LOG, or counted as lost. -/
def abortRec (s : State) (k i : Nat) : State :=
  if 64 ≤ s.hwn.aborts.length then satInc s F.HWN_STATUS_ABORT_LOST
  else
    let s1 := setHwn s { s.hwn with aborts := s.hwn.aborts ++ [i + k * 2 ^ 12 + 2 ^ 16] }
    setFld s1 F.HWN_STATUS_ABORTS s1.hwn.aborts.length

/-- A ring with descriptors in flight is aborted; those whose read of host memory is outstanding stay until it has ended. -/
def abortRing (s : State) (k : Nat) : State :=
  if (ring s k).isEmpty || ringAborted s k then s
  else
    let s1 := setRing (forEach (ring s k) (fun s d => abortRec s k d.idx) (raise s 0x1202 [])) k ((ring s k).filter readOpen)
    let s2 := setHwn s1 { s1.hwn with reclaims := s1.hwn.reclaims.map fun x =>
      match x.desc with | some (j, _) => if j = k then { x with desc := none } else x | none => x }
    let s3 := setFld s2 (F.HWN_RINGk_STATUS_ABORTED k) 1
    if ringDrained s3 k then ringDrainEnd s3 k else s3

/-- Bus Master Enable is cleared as the host window sees it. -/
def bmeClear (s : State) : State := if !bme s then s else forEach (List.range 16) abortRing (setFld s F.HWN_STATUS_BME 0)

/-- The host sets Bus Master Enable: what waited goes on. -/
def bmeSet (s : State) : State := if bme s then s else schFlush (setFld s F.HWN_STATUS_BME 1)

/-- Bus Master Enable of function 0 written by the host; in D3hot the host window stays as after a clear (R309, R381). -/
def hostBme (s : State) (b : Bool) : State :=
  let s1 := setFld (setPciFn s 0 { pciFn s 0 with bme := b }) F.PCI_STATUS_BME (b2n b)
  if b && !(pciFn s 0).d3 then bmeSet s1 else bmeClear s1

def execBmeClear (s : State) : Host.Outcome State Fault Refusal := done (hostBme s false)
def execBmeSet (s : State) : Host.Outcome State Fault Refusal := done (hostBme s true)

/-- A write of HWN_RINGk_CTRL.RESET. -/
def ringReset (s : State) (k : Nat) : State :=
  if flag s (F.HWN_RINGk_CTRL_ENABLE k) || flag s (F.HWN_RINGk_STATUS_DRAINING k) then s
  else
    let s1 := setFld (setFld s (F.HWN_RINGk_HEAD_HEAD k) 0) (F.HWN_RINGk_TAIL_TAIL k) 0
    setFld (setFld s1 (F.HWN_RINGk_STATUS_ABORTED k) 0) (F.HWN_RINGk_STATUS_STALLED k) 0

def execRingReset (k : Fin 16) (s : State) : Host.Outcome State Fault Refusal := done (ringReset s k)

/-- Fetched descriptors not started end DISABLED. -/
def cancelDescs (s : State) (k : Nat) : State :=
  setRing s k ((ring s k).map fun d => if d.started || d.fin.isSome then d else endDesc d ST.disabled)

/-- Clearing a ring's ENABLE (R310). -/
def ringDisable (s : State) (k : Nat) : State :=
  if !flag s (F.HWN_RINGk_CTRL_ENABLE k) then s
  else
    let s1 := cancelDescs s k
    if ringDrained s1 k then ringDrainEnd s1 k else setFld s1 (F.HWN_RINGk_STATUS_DRAINING k) 1

def execRingDisable (k : Fin 16) (s : State) : Host.Outcome State Fault Refusal := done (ringDisable s k)

/-- Every ring has stopped and no reclaim runs. -/
def hwnDrained (s : State) : Bool := (List.range 16).all (fun k => (ring s k).isEmpty) && s.hwn.reclaims.isEmpty
def hwnDrainEnd (s : State) : State :=
  let s1 := setFld (setFld s F.HWN_CTRL_ENABLE 0) F.HWN_STATUS_DRAINING 0
  forEach (List.range 16) ringDrainEnd s1

/-- Clearing HWN_CTRL.ENABLE: every ring stops. -/
def hwnDisable (s : State) : State :=
  if !flag s F.HWN_CTRL_ENABLE then s
  else
    let s1 := forEach (List.range 16) ringDisable s
    if hwnDrained s1 then setFld (setFld s1 F.HWN_CTRL_ENABLE 0) F.HWN_STATUS_DRAINING 0 else setFld s1 F.HWN_STATUS_DRAINING 1

def execHwnDisable (s : State) : Host.Outcome State Fault Refusal := done (hwnDisable s)

/-- What a read of HWN_ABORT_LOG returns, and its removal. -/
def abortHead (s : State) : Nat := s.hwn.aborts.headD 0
def abortPop (s : State) : State :=
  let s1 := setHwn s { s.hwn with aborts := s.hwn.aborts.tail }
  setFld s1 F.HWN_STATUS_ABORTS s1.hwn.aborts.length

def execAbortLogRead (s : State) : Host.Outcome State Fault Refusal := done (abortPop s)

/-! ### Resets (R311) -/

/-- The map, the ownership table and the rings as PERST leaves them. -/
def hwnClear (s : State) : State :=
  let s1 := setHwn s {}
  let s2 := setFld (setFld s1 F.HWN_STATUS_ABORTS 0) F.HWN_OWN_RESULT_RECLAIMING 0
  forEach (List.range 16) (fun s k =>
    let s1 := ringDrainEnd (setFld s (F.HWN_RINGk_STATUS_INFLIGHT k) 0) k
    setFld (setFld s1 (F.HWN_RINGk_HEAD_HEAD k) 0) (F.HWN_RINGk_TAIL_TAIL k) 0) s2

/-- PERST or HOTRST as these blocks see it. -/
def hostSideReset (s : State) : State :=
  let s1 := resetWindow s
  let n := dirtyCount s1 fun _ => true
  let s2 := satAdd (raise s1 0x1104 []) F.SCH_LOST_LOST n
  drawKey (dropRekey (hwnClear (dropWays s2 fun _ => true)))

/-- A BLOCK reset of SCH. -/
def schReset (s : State) : State := resetBlockRegs (setCache (dropWays (resetWindow s) fun _ => true) {}) 0x11

/-- A BLOCK reset of HWN: cached lines of pages no longer mapped are discarded. -/
def hwnReset (s : State) : State :=
  let b := fld s F.HWN_STATUS_BME
  let s1 := hwnClear (dropWays (resetWindow s) fun _ => true)
  setFld (resetBlockRegs s1 0x12) F.HWN_STATUS_BME b

/-- A BLOCK reset of ENC: accesses to sealed lines in flight end RESET, cached sealed lines are discarded, a rekey is abandoned,
a new key is drawn. -/
def encReset (s : State) : State :=
  let k := fld s F.ENC_KEYS_KEYS
  let sealed := fun l => pageSealed s (l / 32768)
  let s1 := dropWays (forEach (s.cache.fills.filter fun f => sealed f.line) (fun s f => fillFail s f ST.reset) s) sealed
  drawKey (setFld (resetBlockRegs s1 0x13) F.ENC_KEYS_KEYS k)

end Sys2Proof.Machine
end

