-- ==== Sys2Proof/Machine/Thermal.lean ====
section
/-! DEFINITION. The housekeeping round (R454 to R460): sensors, thermal states, link conditions and checks, VIO. -/
namespace Sys2Proof.Machine

/-- Thermal management replaced. -/
def setThm (s : State) (x : Thermal) : State := { s with thm := x }

/-- The thermal states. -/
def tNORMAL := 0
def tWARNING := 1
def tCRITICAL := 2
def tTRIP := 3

/-- The sensor has failed. -/
def sensorBad (s : State) (n : Nat) : Bool := flag s (F.THM_Sn_FAIL n)

/-- One sensor's conversion (R455): a reading in range is recorded, anything else fails the sensor with event 0x0405; a
failed sensor needs 16 good reads in a row. -/
def readSensor (s : State) (n : Nat) (v : Option (BitVec 16)) : State :=
  match v.map (·.toInt) with
  | some t =>
    if -880 ≤ t ∧ t ≤ 2400 then
      let s1 := setFld s (F.THM_Sn_TEMP n) (ofSigned 16 t)
      if !sensorBad s n then s1
      else
        let g := smGet s.thm.good n 0 + 1
        if 16 ≤ g then setFld (setThm s1 { s1.thm with good := smSet s1.thm.good n 0 0 }) (F.THM_Sn_FAIL n) 0
        else setThm s1 { s1.thm with good := smSet s1.thm.good n g 0 }
    else sensorFail s n
  | none => sensorFail s n
where
  /-- The sensor has failed in this round. -/
  sensorFail (s : State) (n : Nat) : State :=
    let s1 := setThm s { s.thm with good := smSet s.thm.good n 0 0 }
    if sensorBad s n then s1 else setFld (raise s1 0x0405 [(1, n)]) (F.THM_Sn_FAIL n) 1

/-- The rise of a sensor in 1/16 °C since the round 256 rounds earlier; 0 until there is one. -/
def rise (s : State) (n : Nat) : Int := match s.thm.hist[255]? with | some l => sensor s n - l.getD n 0 | none => 0

/-- The rates of rise follow; how they are rounded to 1/16 °C/s is not specified. -/
def setRate (s : State) (n : Nat) : State := setFld (drawn s) (F.THM_Sn_RATE n) (ofSigned 15 (divFree s (rise s n * 1000) 256))

/-- The sensors that count. -/
def goodSensors (s : State) : List Nat := (List.range 20).filter fun n => !sensorBad s n

/-- Some counting sensor is at or above `t` °C, or rises at or above `r` °C/s. -/
def anyHot (s : State) (t : Int) : Option Nat := (goodSensors s).find? fun n => decide (16 * t ≤ sensor s n)
def anyFast (s : State) (r : Int) : Option Nat := (goodSensors s).find? fun n => decide (16 * 256 * r ≤ rise s n * 1000)

/-- A die both of whose sensors have failed. -/
def blindDie (s : State) : Option Nat := (List.range 10).find? fun p => sensorBad s (2 * p) && sensorBad s (2 * p + 1)

/-- The limits in °C. -/
def limWarn (s : State) : Int := fld s F.THM_LIMITS_WARN
def limCrit (s : State) : Int := fld s F.THM_LIMITS_CRIT
def limTrip (s : State) : Int := min (fld s F.THM_LIMITS_TRIP) 120
def limHyst (s : State) : Int := fld s F.THM_LIMITS_HYST

/-- The condition that enters CRITICAL: the sensor and the cause, 0 temperature, 1 rate, 2 failed sensors. -/
def critCause (s : State) : Option (Nat × Nat) :=
  match anyHot s (limCrit s), anyFast s (fld s F.THM_RATE_RCRIT), blindDie s with
  | some n, _, _ => some (n, 0)
  | none, some n, _ => some (n, 1)
  | none, none, some p => some (2 * p, 2)
  | none, none, none => none

/-- The rounds in a row that satisfy the conditions for leaving WARNING and CRITICAL, and those at TRIP. -/
def countRounds (s : State) : State :=
  let slow := fun (r : Int) => (anyFast s r).isNone
  let w := (anyHot s (limWarn s - limHyst s)).isNone && slow (fld s F.THM_RATE_RWARN)
  let c := (anyHot s (limCrit s - limHyst s)).isNone && slow (fld s F.THM_RATE_RCRIT) && (blindDie s).isNone
  setThm s { s.thm with
    calmW := if w then min (s.thm.calmW + 1) 100 else 0
    calmC := if c then min (s.thm.calmC + 1) 100 else 0
    hot := if (anyHot s (limTrip s)).isSome then min (s.thm.hot + 1) 2 else 0 }

/-- The highest applicable state. -/
def nextThermal (s : State) : Nat :=
  let st := fld s F.THM_STATUS_STATE
  if st = tTRIP ∨ 2 ≤ s.thm.hot then tTRIP
  else if (critCause s).isSome || (st == tCRITICAL && decide (s.thm.calmC < 100)) then tCRITICAL
  else if (anyHot s (limWarn s)).isSome || (anyFast s (fld s F.THM_RATE_RWARN)).isSome
    || (decide (tWARNING ≤ st) && decide (s.thm.calmW < 100)) then tWARNING
  else tNORMAL

/-- The thermal state is judged, with its events; TRIP triggers the buffer stop (R456, R458). -/
def judgeThermal (s : State) : State :=
  let s0 := countRounds s
  let old := fld s0 F.THM_STATUS_STATE
  let st := nextThermal s0
  let s1 := setFld s0 F.THM_STATUS_STATE st
  if st = old then s1
  else if st = tWARNING then raise s1 0x0401 []
  else if st = tCRITICAL then
    let c := (critCause s0).getD (0, 0)
    raise s1 0x0402 [(1, c.1), (1, c.2)]
  else if st = tTRIP then bstopTrigger (raise s1 0x0404 []) BC.therm
  else raise s1 0x0403 []

/-- SLOWDOWN follows the state while throttling is enabled; its setting pends vector 4 (R457, R460). -/
def slowdown (s : State) : State :=
  let s1 := if flag s F.THM_STATUS_DRAINING then setFld (setFld s F.THM_CTRL_ENABLE 0) F.THM_STATUS_DRAINING 0 else s
  let on := flag s1 F.THM_CTRL_ENABLE && decide (tCRITICAL ≤ fld s1 F.THM_STATUS_STATE)
  let s2 := setFld s1 F.THM_STATUS_SLOWDOWN (b2n on)
  if on && !flag s F.THM_STATUS_SLOWDOWN then pendVec s2 4 else s2

/-- The hottest sensor, and the peak. -/
def hottest (s : State) : State :=
  match goodSensors s with
  | [] => s
  | n :: t =>
    let h := t.foldl (fun m k => if sensor s m < sensor s k then k else m) n
    let s1 := setFld s F.THM_STATUS_HOTTEST h
    if toSigned 16 (fld s F.THM_PEAK_TEMP) < sensor s h then setFld s1 F.THM_PEAK_TEMP (ofSigned 16 (sensor s h)) else s1

/-- A round and its voltage and current readings are recorded. -/
def recordRound (s : State) (x : RoundIn) : State :=
  let s1 := setThm s { s.thm with
    round := (s.thm.round + 1) % 2 ^ 32
    volts := x.volts.map (·.toNat) }
  setFld s1 F.STK_IVCORE_CURRENT x.ivcore.toNat

/-- The readings of a round enter the history of 256 rounds. -/
def remember (s : State) : State := setThm s { s.thm with hist := (((List.range 20).map (sensor s)) :: s.thm.hist).take 256 }

/-- The rounds run in RUN and IDLE, not in a freeze (R454, R459). -/
def roundsRun (s : State) : Bool := (pwrState s == wRUN || pwrState s == wIDLE) && !flag s F.CLK_STATUS_FROZEN

/-- One housekeeping round. -/
def housekeeping (s : State) (x : RoundIn) : State :=
  if !roundsRun s then s
  else
    let s1 := recordRound s x
    let s2 := forEach (List.range 20) (fun s n => readSensor s n (x.temps.getD n none)) s1
    let s3 := remember (slowdown (judgeThermal (hottest (forEach (List.range 20) setRate s2))))
    let s4 := forEach (List.range 8) (fun s b => judgeVio s b (x.vio.getD b 0).toNat) s3
    guardAll (healthChecks (forEach (List.range 43) judgeLink s4) x.fails)

def execHousekeepingRound (x : RoundIn) (s : State) : Host.Outcome State Fault Refusal := done (housekeeping s x)

/-- Clearing THM_CTRL.ENABLE: throttling ends in the next round. -/
def thmDisable (s : State) : State := if flag s F.THM_CTRL_ENABLE then setFld s F.THM_STATUS_DRAINING 1 else s

def execThmDisable (s : State) : Host.Outcome State Fault Refusal := done (thmDisable s)

end Sys2Proof.Machine
end

