-- ==== Sys2Proof/Machine/Bitstream.lean ====
section
/-! DEFINITION. The bitstream (chapter 16): the session's bytes, where a stream is malformed, the cipher of an encrypted
body, and the checks and effects of a frame. -/
namespace Sys2Proof.Machine

/-! ### The session (R354, R358) -/

/-- The values of CFG_STATUS.RESULT. -/
def sOPEN := 1
def sVERIFYING := 2
def sOK := 3
def sREJECTS := 4
def sBADHEADER := 5
def sWRONGDEV := 6
def sKEY := 7
def sMALFORMED := 8
def sEARLY := 9
def sBADSIG := 10
def sBADTAG := 11

/-- The session replaced. -/
def setCfg (s : State) (x : Session) : State := { s with cfg := x }

/-- A session takes bytes: RESULT reads OPEN, and no failure sequence runs. -/
def sessOpen (s : State) : Bool := fld s F.CFG_STATUS_RESULT == sOPEN && s.cfg.fail.isNone

/-- Byte i of the stream as taken. -/
def streamByte (x : Session) (i : Nat) : Nat := (x.taken.getD i 0).toNat

/-- `n` bytes of the header from header byte `h`, as a number (R336). -/
def headField (x : Session) (h n : Nat) : Nat := bytesNat ((x.taken.drop (8 + h)).take n)

def hLength (x : Session) : Nat := headField x 12 4
def hFrames (x : Session) : Nat := headField x 16 4
def hCompressed (x : Session) : Bool := bitOf (headField x 11 1) 0
def hEncrypted (x : Session) : Bool := bitOf (headField x 11 1) 1
def hTarget (x : Session) (i : Nat) : Bool := bitOf (headField x 24 36) i
def hPubkey (x : Session) : List Byte := (x.taken.drop 72).take 32

/-! ### The cipher (R348) -/

/-- The fuse shadow of a field, 0 where it is blank (R403, R438). -/
def shadowOf (s : State) (f : Nat) : Nat := smGet s.sbx.shadow f 0 - 1

/-- IV, CLEN, and the stream offset just behind the ciphertext. -/
def cIv (x : Session) : Nat := bytesNat ((x.taken.drop 140).take 12)
def cLen (x : Session) : Nat := bytesNat ((x.taken.drop 152).take 4)
def cEnd (x : Session) : Nat := 156 + cLen x

/-- Byte j of the keystream: counter mode from the block after the first. -/
def streamKey (key iv j : Nat) : Nat := bits (aesEnc key (iv + revBytes 4 (2 + j / 16) * 2 ^ 96)) (8 * (j % 16)) 8

/-- The plaintext of ciphertext bytes that begin at ciphertext offset j. -/
def decrypt (key iv : Nat) : Nat → List Byte → List Byte
  | _, [] => []
  | j, b :: t => (b ^^^ BitVec.ofNat 8 (streamKey key iv j)) :: decrypt key iv (j + 1) t

/-- The tag of the ciphertext taken: additional data are stream bytes 0 to 155. -/
def streamTag (s : State) : Nat :=
  let x := s.cfg
  let key := shadowOf s 1
  let g := ghash (hashKey key) 156 (bytesNat (x.taken.take 156)) (cLen x) (bytesNat ((x.taken.drop 156).take (cLen x)))
  revBytes 16 g ^^^ aesEnc key (cIv x + revBytes 4 1 * 2 ^ 96)

/-- The bytes of the command in hand, in plaintext. -/
def cmdBytes (s : State) : List Byte :=
  let c := s.cfg.taken.drop s.cfg.start
  if s.cfg.phase = 2 ∧ hEncrypted s.cfg = true then decrypt (shadowOf s 1) (cIv s.cfg) (s.cfg.start - 156) c else c

/-! ### Where a stream is malformed (R350) -/

def opSYNC := 0x5A
def opHEADER := 1
def opSELECT := 2
def opFRAME := 3
def opREPEAT := 4
def opINITVEC := 5
def opCUFFSET := 6
def opRELEASE := 7
def opEND := 14
def opSIGNATURE := 15

/-- An OP that cannot stand here: reserved, out of the order of R334, or ruled out by what came before. -/
def opBad (x : Session) (op : Nat) : Bool :=
  match x.phase with
  | 0 => op != opSYNC
  | 1 => op != opHEADER
  | 3 => op != opINITVEC
  | 5 => op != opSIGNATURE || x.start + 68 != hLength x
  | _ =>
    if op = opSELECT ∨ op = opRELEASE then false
    else if op = opFRAME ∨ op = opCUFFSET then x.sel.isNone
    else if op = opREPEAT then x.sel.isNone || !hCompressed x
    else if op = opEND then x.counted != hFrames x || (hEncrypted x && x.start + 4 != cEnd x)
    else true

/-- Byte i (1 to 3) of a command word cannot be what it is. -/
def argBad (x : Session) (op i b1 b : Nat) : Bool :=
  if op = opSYNC then b != (if i = 1 then 0xC3 else if i = 2 then 0x3C else 0xA5)
  else if op = opHEADER then b != (if i = 1 then 0x80 else 0)
  else if op = opSELECT then
    (if i = 1 then b % 4 == 0 || decide (23 < b / 4 % 32)
     else if i = 2 then b / 2 != 0 || !hTarget x (4 * (24 * (b1 % 4 - 1) + b1 / 4 % 32) + b1 / 128 + 2 * (b % 2))
     else b != 0)
  else if op = opREPEAT then (if i = 2 then b1 + 256 * b == 0 else i == 3 && b != 0)
  else if op = opCUFFSET then (if i = 1 then b / 4 != 0 else b != 0)
  else if op = opRELEASE then
    (if i = 1 then decide (71 < b) || (List.range 4).all (fun k => !hTarget x (4 * b + k)) else b != 0)
  else b != 0

/-- The length in bytes of a command with its word `c`. -/
def cmdLen (op n : Nat) : Nat :=
  if op = opHEADER then 132
  else if op = opFRAME then 2060
  else if op = opREPEAT then 8 + 4 * n
  else if op = opINITVEC then 20
  else if op = opSIGNATURE then 68
  else 4

/-- What the bytes of the command in hand say: malformed at a stream offset, complete, or more bytes needed. -/
inductive Verdict where
  | bad (off : Nat)
  | full
  | more (n : Nat)
  deriving DecidableEq, Repr

/-- The first malformed byte of the command word among those taken. -/
def wordBad (x : Session) (c : List Byte) : Option Nat :=
  let b := fun i => (c.getD i 0).toNat
  (List.range (min c.length 4)).find? fun i => if i = 0 then opBad x (b 0) else argBad x (b 0) i (b 1) (b i)

/-- A complete command whose last bytes make it malformed: the CRC of REPEAT, the CLEN of INITVEC. -/
def tailBad (op n : Nat) (c : List Byte) : Bool :=
  if op = opREPEAT then bytesNat (c.drop (4 + 4 * n)) != crc32c (4 + 4 * n) (bytesNat (c.take (4 + 4 * n)))
  else if op = opINITVEC then
    let l := bytesNat (c.drop 16)
    l % 4 != 0 || l == 0
  else false

/-- The verdict on the command in hand, within the ciphertext and within LENGTH. -/
def verdict (s : State) : Verdict :=
  let x := s.cfg
  let c := cmdBytes s
  let n := c.length
  let op := (c.getD 0 0).toNat
  let reps := (c.getD 1 0).toNat + 256 * (c.getD 2 0).toNat
  let whole := if x.phase = 4 then 16 else cmdLen op reps
  let want := if x.phase = 4 then 16 - n else if n < 4 then 1 else whole - n
  let cut := if x.phase = 2 ∧ hEncrypted x = true then min (cEnd x) (hLength x) else hLength x
  match (if x.phase = 4 then none else wordBad x c) with
  | some j => .bad (x.start + j)
  | none =>
    if whole ≤ n ∧ 4 ≤ n then (if tailBad op reps c then .bad (x.start + n - 1) else .full)
    else if 2 ≤ x.phase ∧ hLength x ≤ x.start + n then .bad (hLength x - 1)
    else if 2 ≤ x.phase ∧ cut ≤ x.start + n then .bad cut
    else .more (if 2 ≤ x.phase then min want (cut - (x.start + n)) else want)

/-! ### Taking bytes (R356, R357) -/

/-- Bytes taken are credited to the descriptors they came from; one whose every byte is taken ends OK. -/
def credit (k : Nat) : State → List (Nat × Nat) → Nat → State × List (Nat × Nat)
  | s, [], _ => (s, [])
  | s, (i, m) :: t, n =>
    let u := min m n
    let s1 := match descAt s k i with
      | some d =>
        let e := { d with count := d.count + u }
        putDesc s k (if e.count = dLen d then endDesc e 0 else e)
      | none => s
    if u = m then credit k s1 t (n - u) else (s1, (i, m - u) :: t)

/-- `n` bytes of the buffer are taken into the session. -/
def takeBytes (s : State) (n : Nat) : State :=
  let x := s.cfg
  let r := if x.src = 0 then (s, []) else credit (x.src - 1) s x.segs n
  let y := { x with taken := x.taken ++ x.buf.take n, buf := x.buf.drop n, segs := r.2 }
  setFld (setCfg r.1 y) F.CFG_PROGRESS_BYTES y.taken.length

/-- A PLANE_LOAD of the session waits on rail 8. -/
def loadWaits (s : State) : Bool := s.dsp.r8queue.any fun q => match q with | .planeLoad _ _ => true | _ => false

/-- Bytes are taken up to the end of the command in hand, or to its first malformed byte. -/
def pull : Nat → State → State
  | 0, s => s
  | fuel + 1, s =>
    match verdict s with
    | .more n => if s.cfg.buf.isEmpty then s else pull fuel (takeBytes s (min n s.cfg.buf.length))
    | _ => s

/-- The controller takes what it may. -/
def feed (s : State) : State := if sessOpen s && !loadWaits s then pull 10 s else s

/-- The next command begins behind the bytes taken. -/
def nextCmd (s : State) : State := feed (setCfg s { s.cfg with start := s.cfg.taken.length })

/-- The session takes no more: bytes that have arrived are discarded and counted, and a descriptor that it has begun ends
PARTIAL with CAUSE DENIED (R355, R356). -/
def endSource (s : State) : State :=
  let x := s.cfg
  let s1 := setCfg s { x with buf := [], segs := [] }
  if x.src = 0 then satAdd s1 F.CFG_DISCARDED_BYTES x.buf.length
  else
    let k := x.src - 1
    forEach ((ring s1 k).filter fun d => dOp d == 0x10 && d.started && d.fin.isNone) (fun s d =>
      satAdd (putDesc s k { d with fin := some (ST.partial_, ST.denied) }) F.CFG_DISCARDED_BYTES (dLen d - d.count)) s1

/-- A session that has passed its header fails: the failure sequence starts (R360). -/
def sessFail (s : State) (result cause off : Nat) : State :=
  let s1 := r8Withdraw (endSource s) fun q => match q with | .planeLoad _ _ => true | _ => false
  let s2 := setFld (setFld s1 F.CFG_FAIL_AT_OFFSET off) F.CFG_STATUS_DRAINING 1
  setCfg s2 { s2.cfg with fail := some (result, cause) }

/-! ### Frames (R340 to R346) -/

/-- The fields of a frame address. -/
def fDie (a : Nat) : Nat := bits a 0 2
def fReg (a : Nat) : Nat := bits a 2 5
def fTile (a : Nat) : Nat := bits a 7 10
def fCtx (a : Nat) : Nat := bits a 17 2
def fKind (a : Nat) : Nat := bits a 19 3
/-- The global region of an address. -/
def fRegion (a : Nat) : Nat := 24 * (fDie a - 1) + fReg a

/-- The address breaks R340, R341, or the selection (row 2 of R344). -/
def addrBad (a : Nat) : Bool :=
  a / 2 ^ 22 != 0 || fDie a == 0 || decide (23 < fReg a) || decide (799 < fTile a) || decide (3 < fKind a)
  || (fKind a == kBMINIT && (fCtx a == 3 || !anchorsBm (fTile a)))
  || (fKind a == kCUFF && fCtx a != 0)
  || (fKind a == kMODES && !(anchorsBm (fTile a) || anchorsMul (fTile a)))
def selBad (sel : Nat × Nat) (a : Nat) : Bool :=
  fRegion a != sel.1 || ((fKind a == kLOGIC || fKind a == kMODES) && fCtx a != sel.2)

/-- The SHARING bits differ from those of the tile in another plane that holds a loaded context (R198). -/
def sharingBad (s : State) (r k tile f : Nat) : Bool :=
  (List.range 4).any fun j => j != k && ctxLoaded s r j && privMask (frameAt s kLOGIC r j tile) != privMask f

/-- The status of a frame by rows 2 to 7 of R344; 0 accepted. -/
def frameStatus (s : State) (sel : Nat × Nat) (a f : Nat) : Nat :=
  let r := fRegion a
  let kind := fKind a
  if addrBad a || selBad sel a then 2
  else if (kind == kLOGIC || kind == kMODES) && (planeActive s r (fCtx a) || (region s r).clearing.contains (fCtx a)) then 3
  else if kind == kLOGIC && sharingBad s r (fCtx a) (fTile a) f then 4
  else if kind == kLOGIC && contends s r (fCtx a) (fTile a) f then 5
  else if (kind == kCUFF || kind == kBMINIT) && regRuns s r then 6
  else if kind == kCUFF && fTile a == 0 && ownedElsewhere s r f then 7
  else 0

/-- A frame or CUFFSET is rejected: counted, the first recorded, and the selected region tainted (R361). -/
def rejectFrame (s : State) (st a : Nat) : State :=
  let s0 := setCfg s { s.cfg with taint := match s.cfg.sel with | some x => (if s.cfg.taint.contains x.1 then s.cfg.taint else s.cfg.taint ++ [x.1]) | none => s.cfg.taint }
  let s1 := raiseMerged (satInc s0 F.CFG_REJECTS_REJECTED) 0x0504 0 []
  let s2 := if st = 5 then satInc s1 F.CFG_VT_STATS_REJECTS else s1
  if !flag s2 F.CFG_FRAME_ERR_VALID then
    setFld (setFld (setFld s2 F.CFG_FRAME_ERR_STATUS st) F.CFG_FRAME_ERR_ADDR_ADDRESS a) F.CFG_FRAME_ERR_VALID 1
  else s2

/-- The region of an accepted frame goes to LOADING and remembers where it came from (R254); its cuffs are in PASS no longer (R260). -/
def regionLoading (s : State) (r : Nat) : State :=
  let s1 := setCfg s { s.cfg with regs := if s.cfg.regs.contains r then s.cfg.regs else s.cfg.regs ++ [r] }
  if regState s1 r = gLOADING then s1
  else setRegState (setFld (holdCuffs s1 r) (F.FAB_REGr_RC_RETURN r) (regState s1 r)) r gLOADING

/-- The plane of an accepted LOGIC or MODES frame goes to LOADING; the first such frame of a selection requests PLANE_LOAD
(R235, R338). -/
def planeLoading (s : State) (r k : Nat) : State :=
  let s1 := if planeState s r k = 1 then s else planeMarks (setPlane s r k 1) r
  let x := s1.cfg
  let s2 := setCfg s1 { x with loads := (if x.loads.contains (4 * r + k) then x.loads else x.loads ++ [4 * r + k]), charged := true }
  if x.charged then s2 else r8Request s2 (.planeLoad r k)

/-- One part of a block memory's contents (R342). -/
def bmInit (s : State) (r tile part f : Nat) : State :=
  let i := bmIndex tile
  let w := if part = 2 then 4096 else 16384
  let s1 := setBm s r i { bm s r i with mem := putBits (bm s r i).mem (16384 * part) w f }
  setCfg s1 { s1.cfg with bms := if s1.cfg.bms.contains (50 * r + i) then s1.cfg.bms else s1.cfg.bms ++ [50 * r + i] }

/-- The frame is accepted and written, or staged. -/
def acceptFrame (s : State) (a f : Nat) : State :=
  let r := fRegion a
  let s1 := regionLoading (satInc s F.CFG_FRAMES_ACCEPTED) r
  if fKind a = kBMINIT then bmInit s1 r (fTile a) (fCtx a) f
  else if fKind a = kCUFF then setRegion s1 r { region s1 r with staged := smSet (region s1 r).staged (fTile a) (f % 2 ^ 16384 + 1) 0 }
  else
    let s2 := if fKind a = kLOGIC then makeClaims s1 r (fCtx a) (fTile a) f else s1
    writeFrame (planeLoading s2 r (fCtx a)) (fKind a) r (fCtx a) (fTile a) f

/-- One frame of the session with frame bits `f`: checked, then written or rejected. -/
def takeFrame (s : State) (crcOk : Bool) (a f : Nat) : State :=
  let s0 := setCfg s { s.cfg with counted := s.cfg.counted + 1 }
  match s0.cfg.sel with
  | none => s0
  | some sel =>
    let st := if crcOk then frameStatus s0 sel a f else 1
    if st = 0 then acceptFrame s0 a f else rejectFrame s0 st a

/-- A frame waits: its configuration die is in DIE reset, or its bank is under test (R357, R466, R467). -/
def frameWaits (s : State) (a : Nat) : Bool :=
  let u := fDie a + 2
  dieInReset s (confPos (fDie a)) || s.bst.startup.contains u ||
  (fld s (F.BST_Uu_STATUS_STATE u) != 0 &&
   (if tstMode s u then decide (tstFirst s u ≤ fReg a) && decide (fReg a ≤ tstLast s u)
    else fld s (F.BST_Uu_STATUS_BANK u) == fReg a))

/-- CUFFSET stages one mode for every tile of the selected region (R345). -/
def cuffSet (s : State) (r mode : Nat) : State :=
  let one := fun tile : Nat =>
    let base := match smGet (region s r).staged tile 0 with | 0 => cuffFrame s r tile | v + 1 => v
    let modes := (List.range 144).foldl (fun v i => if cuffExists r tile i then v + mode * 2 ^ (2 * i) else v) 0
    modes + (if tile = 0 then base / 2 ^ 288 * 2 ^ 288 else 0)
  setRegion s r { region s r with staged := (List.range 800).map fun tile => (tile, one tile + 1) }

end Sys2Proof.Machine
end

