-- ==== Sys2Proof/Machine/Session.lean ====
section
/-! DEFINITION. Load sessions (chapter 17): opening, taking commands, ending, the failure and commit sequences, the
enumeration deadline, readback and disabling. -/
namespace Sys2Proof.Machine

/-! ### Opening a session and its sources (R354 to R356) -/

/-- A write of CFG_SESSION.OPEN with its source. -/
def sessionOpen (s : State) (ringSrc : Bool) (k : Nat) : State :=
  let s0 := setFld (setFld s F.CFG_SESSION_SRC (b2n ringSrc)) F.CFG_SESSION_RING k
  let r := fld s F.CFG_STATUS_RESULT
  if r = sOPEN ∨ r = sVERIFYING ∨ flag s F.CFG_STATUS_DRAINING = true ∨ flag s F.CFG_CTRL_ENABLE = false then s0
  else
    let s1 := setFld (setFld (setFld s0 F.CFG_PROGRESS_BYTES 0) F.CFG_FRAMES_ACCEPTED 0) F.CFG_REJECTS_REJECTED 0
    let s2 := setFld (setFld (setFld s1 F.CFG_FAIL_AT_OFFSET 0xFFFFFFFF) F.CFG_FRAME_ERR_STATUS 0) F.CFG_FRAME_ERR_VALID 0
    let x : Session := { src := if ringSrc then k + 1 else 0, hdr := s.cfg.hdr, expired := s.cfg.expired, hidden := s.cfg.hidden }
    setFld (setCfg s2 x) F.CFG_STATUS_RESULT sOPEN

def execSessionOpen (ringSrc : Bool) (k : Fin 16) (s : State) : Host.Outcome State Fault Refusal := done (sessionOpen s ringSrc k)

/-- Bytes written to the load window. Those beyond the 16 KiB of the input buffer stand for writes that the endpoint holds
back. -/
def loadWindow (s : State) (l : List Byte) : State :=
  if sessOpen s && s.cfg.src == 0 then feed (setCfg s { s.cfg with buf := s.cfg.buf ++ l })
  else satAdd s F.CFG_DISCARDED_BYTES l.length

def execLoadWindowWrite (data : List Byte) (s : State) : Host.Outcome State Fault Refusal := done (loadWindow s data)

/-- Bytes of a CONFIG descriptor arrive, or its read completes with Unsupported Request or Completer Abort. -/
def configDesc (s : State) (k i : Nat) (l : List Byte) (bad : Bool) : State :=
  withDesc s k i 0x10 fun d =>
    let first := (ring s k).find? fun e => dOp e == 0x10 && e.fin.isNone
    if dLen d = 0 ∨ 16777216 < dLen d then putDesc s k (endDesc d ST.decode)
    else if !sessOpen s || s.cfg.src != k + 1 then putDesc s k (endDesc d ST.denied)
    else if bad then putDesc s k (endDesc d ST.decode)
    else if (match first with | some e => e.idx != i | none => true) then s
    else
      let got := (s.cfg.segs.map (·.2)).foldl (· + ·) 0
      let m := l.take (dLen d - d.count - got)
      feed (setCfg (putDesc s k d) { s.cfg with buf := s.cfg.buf ++ m, segs := s.cfg.segs ++ [(i, m.length)] })

def execConfig (k : Fin 16) (i : Fin 4096) (data : List Byte) (bad : Bool) (s : State) : Host.Outcome State Fault Refusal :=
  done (configDesc s k i data bad)

/-! ### Regions and planes when a session ends (R254, R360, R362) -/

/-- Steps 1 to 4 of R360 for one region. -/
def undoRegion (s : State) (r : Nat) : State :=
  let ks := (s.cfg.loads.filter fun p => p / 4 == r).map (· % 4)
  let s1 := forEach ks (fun s k => emptyPlane s r k) s
  let s2 := forEach ((s.cfg.bms.filter fun b => b / 50 == r).map (· % 50)) (fun s i => setBm s r i { bm s r i with mem := 0 }) s1
  let s3 := setRegion s2 r { region s2 r with staged := [] }
  if !s.cfg.regs.contains r || regState s3 r != gLOADING then s3
  else if planesEmpty s3 r then regionEmpty s3 r
  else setRegState s3 r (fld s3 (F.FAB_REGr_RC_RETURN r))

/-- The regions that a session touched. -/
def sessRegions (s : State) : List Nat := (List.range 72).filter fun r => s.cfg.regs.contains r || (region s r).staged != []

/-- A scrub of the session's planes waits for the release of their configuration die (R368). -/
def scrubWaits (s : State) (rs : List Nat) : Bool :=
  s.cfg.loads.any fun p => rs.contains (p / 4) && dieInReset s (confPos (regDie (p / 4)))

/-- The session is over: a disable that waited for it ends. -/
def sessEnd (s : State) (result : Nat) : State :=
  let s1 := if s.cfg.off then setFld (setCfg s { s.cfg with off := false }) F.CFG_CTRL_ENABLE 0 else s
  setFld (setFld s1 F.CFG_STATUS_DRAINING 0) F.CFG_STATUS_RESULT result

/-- Event 0x0502 with RESULT, END_CAUSE and CFG_FAIL_AT. -/
def sessFailed (s : State) (result cause : Nat) : State := raise s 0x0502 [(1, result), (1, cause), (4, fld s F.CFG_FAIL_AT_OFFSET)]

/-- The failure sequence ends: everything the session did is undone. -/
def failEnd (s : State) : State :=
  match s.cfg.fail with
  | none => s
  | some (result, cause) =>
    let s1 := forEach (sessRegions s) undoRegion s
    let s2 := setFld (setCfg s1 { s1.cfg with fail := none, loads := [], regs := [], bms := [] }) F.CFG_STATUS_END_CAUSE cause
    sessEnd (sessFailed s2 result cause) result

def execFailureSequenceEnd (s : State) : Host.Outcome State Fault Refusal :=
  done (if scrubWaits s (sessRegions s) then s else failEnd s)

/-- Step 2 of R362: a plane becomes READY; in a running region its PRIVATE copies take INIT (R199). -/
def planeVerified (s : State) (p : Nat) : State :=
  let r := p / 4
  let k := p % 4
  let s0 := setPlane s r k 2
  let s1 := if regRuns s r then initPriv s0 r k else s0
  let s2 := setCfg s1 { s1.cfg with hdr := smSet s1.cfg.hdr p (sha512 ((s.cfg.taken.drop 8).take 128)) 0 }
  planeMarks (if hEncrypted s.cfg then setFld s2 F.CFG_ENC_REGIONS_REGIONS (putBits (fld s2 F.CFG_ENC_REGIONS_REGIONS) r 1 1) else s2) r

/-- Step 3: the staged cuff frames of a region are committed, and its ownership takes effect. -/
def commitCuffs (s : State) (r : Nat) : State :=
  let st := (region s r).staged
  let s1 := forEach st (fun s e => setFab s { s.fab with
    cuffs := smSet s.fab.cuffs (r * 800 + e.1) (e.2 - 1) 0
    uncorr := smSet s.fab.uncorr (frameKey kCUFF r 0 e.1) 0 0 }) s
  let s2 := setRegion s1 r { region s1 r with staged := [] }
  match smGet st 0 0 with
  | 0 => s2
  | v + 1 => takeOwnership s2 r v

/-- A region that RELEASE names and that does not run is released, or refused where its active plane is not READY. -/
def releasable (s : State) (r : Nat) : Bool := !regRuns s r && planeReady s r (ctxOf s r)

/-- Step 5: a region in LOADING that is not being released goes to RETURN, EMPTY becoming LOADED. -/
def regionReturn (s : State) (r : Nat) : State :=
  if regState s r = gLOADING then
    let x := fld s (F.FAB_REGr_RC_RETURN r)
    setRegState s r (if x = gEMPTY then gLOADED else x)
  else s

/-- The commit sequence (R362). -/
def commit (s : State) : State :=
  let rs := sessRegions s
  let bad := s.cfg.taint
  let good := rs.filter fun r => !bad.contains r
  let s1 := forEach bad undoRegion s
  let s2 := forEach (s.cfg.loads.filter fun p => !bad.contains (p / 4)) planeVerified s1
  let s3 := forEach good commitCuffs s2
  let named := (List.range 72).filter fun r => s.cfg.rels.contains r && !bad.contains r && !regRuns s3 r
  let s4 := forEach (named.filter fun r => !releasable s3 r) (fun s r => releaseRefused s r 0) s3
  let go := named.filter (releasable s3)
  let s5 := forEach go releaseRequest (forEach go releaseInit s4)
  let s6 := forEach (good.filter fun r => !go.contains r) regionReturn s5
  let s7 := setCfg s6 { s6.cfg with loads := [], regs := [], bms := [] }
  sessEnd (raise s7 0x0501 []) (if fld s7 F.CFG_REJECTS_REJECTED = 0 then sOK else sREJECTS)

/-! ### Commands of the stream (R335) -/

/-- A header check fails: nothing in the device changes (R337). -/
def headFail (s : State) (result cause off : Nat) : State :=
  let s1 := setFld (setFld (endSource s) F.CFG_FAIL_AT_OFFSET off) F.CFG_STATUS_KEY_CAUSE cause
  let s2 := if result = sBADHEADER then sessFailed s1 result (fld s1 F.CFG_STATUS_END_CAUSE)
    else if result = sWRONGDEV then raise s1 0x0503 []
    else raise s1 0x0506 []
  sessEnd s2 result

/-- A malformed byte at an offset (R350). -/
def malformed (s : State) (off : Nat) : State :=
  if s.cfg.phase < 2 then headFail s sBADHEADER (fld s F.CFG_STATUS_KEY_CAUSE) off else sessFail s sMALFORMED 0 off

/-- The command in hand acts where it is complete and its OP is the one named; a malformed one ends the session. -/
def withCmd (s : State) (op : Nat) (f : List Byte → State) : State :=
  if !sessOpen s || loadWaits s then s
  else match verdict s with
    | .bad off => malformed s off
    | .more _ => s
    | .full =>
      let c := cmdBytes s
      if s.cfg.phase ≠ 4 ∧ (c.getD 0 0).toNat = op then f c else s

def bsSync (s : State) : State := withCmd s opSYNC fun _ => nextCmd (setCfg s { s.cfg with phase := 1 })

def execBsSync (s : State) : Host.Outcome State Fault Refusal := done (bsSync s)

/-- Row 1 of R337. -/
def headerGood (x : Session) : Bool :=
  headField x 0 4 == 0x4B53524B && headField x 4 2 == 1 && headField x 11 1 / 4 == 0 && headField x 20 4 == 0
  && headField x 60 4 == 0 && headField x 96 28 == 0 && decide (208 ≤ hLength x)
  && headField x 124 4 == crc32c 124 (headField x 0 124)

/-- Row 2 of R337. -/
def deviceGood (s : State) (x : Session) : Bool :=
  let st := fld s F.GLB_ID_STEPPING
  headField x 6 2 == fld s F.GLB_ID_PART && bitOf (headField x 8 2) (4 * (st / 16 - 1) + (st % 16 - 1))

/-- The state of key slot k: 0 EMPTY, 1 VALID, 2 REVOKED (R365). -/
def keySlot (s : State) (k : Nat) : Nat :=
  if smGet s.sbx.shadow (0x20 + k) 0 ≠ 0 then 2 else if smGet s.sbx.shadow (0x10 + k) 0 ≠ 0 then 1 else 0

/-- CFG_KEYSLOTS shows the slots and the customer AES key as the fuse shadows have them. -/
def showKeys (s : State) : State :=
  let s1 := setFld (setFld s F.CFG_KEYSLOTS_SLOT0 (keySlot s 0)) F.CFG_KEYSLOTS_SLOT1 (keySlot s 1)
  let s2 := setFld (setFld s1 F.CFG_KEYSLOTS_SLOT2 (keySlot s 2)) F.CFG_KEYSLOTS_SLOT3 (keySlot s 3)
  setFld s2 F.CFG_KEYSLOTS_AES (b2n (smGet s.sbx.shadow 1 0 != 0))

/-- Rows 3 and 4 of R337: KEY_CAUSE, or none. -/
def keyCause (s : State) (x : Session) : Option Nat :=
  let k := headField x 10 1
  if 3 < k then some 0
  else if keySlot s k = 0 then some 1
  else if keySlot s k = 2 then some 2
  else if sha512 (hPubkey x) % 2 ^ 256 ≠ shadowOf s (0x10 + k) then some 3
  else if hEncrypted x = true ∧ smGet s.sbx.shadow 1 0 = 0 then some 4
  else none

/-- The header is complete: its checks, in order (R337). -/
def bsHeader (s : State) : State :=
  withCmd s opHEADER fun _ =>
    let x := s.cfg
    let kc := fld s F.CFG_STATUS_KEY_CAUSE
    if !headerGood x then headFail s sBADHEADER kc 135
    else if !deviceGood s x then headFail s sWRONGDEV kc 135
    else match keyCause s x with
      | some c => headFail s sKEY c 135
      | none => nextCmd (setCfg s { x with phase := if hEncrypted x then 3 else 2 })

def execBsHeader (s : State) : Host.Outcome State Fault Refusal := done (bsHeader s)

/-- ARG of a command word. -/
def cmdArg (c : List Byte) : Nat := bytesNat ((c.drop 1).take 3)

def bsSelect (s : State) : State :=
  withCmd s opSELECT fun c =>
    let a := cmdArg c
    nextCmd (setCfg s { s.cfg with sel := some (24 * (bits a 0 2 - 1) + bits a 2 5, bits a 7 2), charged := false })

def execBsSelect (s : State) : Host.Outcome State Fault Refusal := done (bsSelect s)

/-- FRAME: 4 address bytes, 2,048 bytes of frame bits, and a CRC over both (R339). -/
def bsFrame (s : State) : State :=
  withCmd s opFRAME fun c =>
    let v := bytesNat (c.drop 4)
    let a := v % 2 ^ 32
    if frameWaits s a then s
    else
      let f := bits v 32 16384
      nextCmd (takeFrame (setCfg s { s.cfg with bits := f }) (bits v 16416 32 == crc32c 2052 (v % 2 ^ 16416)) a f)

def execBsFrame (s : State) : Host.Outcome State Fault Refusal := done (bsFrame s)

/-- The addresses of a REPEAT. -/
def repeatAddrs (c : List Byte) : List Nat :=
  let v := bytesNat (c.drop 4)
  (List.range (cmdArg c % 65536)).map fun i => bits v (32 * i) 32

def bsRepeat (s : State) : State :=
  withCmd s opREPEAT fun c =>
    let l := repeatAddrs c
    if l.any (frameWaits s) then s else nextCmd (forEach l (fun s a => takeFrame s true a s.cfg.bits) s)

def execBsRepeat (s : State) : Host.Outcome State Fault Refusal := done (bsRepeat s)

/-- INITVEC: the cipher starts; behind the ciphertext, the GCM tag is checked as it arrives (R348, R358). -/
def bsInitvec (s : State) : State :=
  if sessOpen s && s.cfg.phase == 4 && verdict s == .full then
    (if bytesNat (cmdBytes s) = streamTag s then nextCmd (setCfg s { s.cfg with phase := 5 })
     else sessFail s sBADTAG 0 (s.cfg.taken.length - 1))
  else withCmd s opINITVEC fun _ => nextCmd (setCfg s { s.cfg with phase := 2 })

def execBsInitvec (s : State) : Host.Outcome State Fault Refusal := done (bsInitvec s)

/-- CUFFSET: rejected while the region runs (R345). -/
def bsCuffset (s : State) : State :=
  withCmd s opCUFFSET fun c =>
    match s.cfg.sel with
    | none => s
    | some sel =>
      if regRuns s sel.1 then nextCmd (rejectFrame s 6 (regDie sel.1 + sel.1 % 24 * 4 + 2 * 2 ^ 19))
      else nextCmd (cuffSet s sel.1 (cmdArg c % 4))

def execBsCuffset (s : State) : Host.Outcome State Fault Refusal := done (bsCuffset s)

def bsRelease (s : State) : State :=
  withCmd s opRELEASE fun c =>
    let r := cmdArg c
    nextCmd (setCfg s { s.cfg with rels := if s.cfg.rels.contains r then s.cfg.rels else s.cfg.rels ++ [r] })

def execBsRelease (s : State) : Host.Outcome State Fault Refusal := done (bsRelease s)

def bsEnd (s : State) : State := withCmd s opEND fun _ => nextCmd (setCfg s { s.cfg with phase := if hEncrypted s.cfg then 4 else 5 })

def execBsEnd (s : State) : Host.Outcome State Fault Refusal := done (bsEnd s)

/-- The last signature byte is taken: VERIFYING; what comes behind it is discarded. -/
def bsSignature (s : State) : State := withCmd s opSIGNATURE fun _ => setFld (endSource s) F.CFG_STATUS_RESULT sVERIFYING

def execBsSignature (s : State) : Host.Outcome State Fault Refusal := done (bsSignature s)

/-- Verification ends: commit, or the failure sequence with FAIL_AT = LENGTH − 1 (R349, R358). -/
def verifyDone (s : State) : State :=
  let x := s.cfg
  if fld s F.CFG_STATUS_RESULT ≠ sVERIFYING ∨ x.fail.isSome = true ∨ scrubWaits s x.taint = true then s
  else if ed25519ph (hPubkey x) (x.taken.take (hLength x - 64)) (x.taken.drop (hLength x - 64)) then commit s
  else sessFail s sBADSIG 0 (hLength x - 1)

def execVerificationDone (s : State) : Host.Outcome State Fault Refusal := done (verifyDone s)

/-! ### Early ends (R359) -/

/-- An OPEN session ends early. FAIL_AT names the byte that was not taken. -/
def endEarly (s : State) (cause : Nat) : State := if sessOpen s then sessFail s sEARLY cause s.cfg.taken.length else s

def execSessionFinish (s : State) : Host.Outcome State Fault Refusal := done (endEarly s 0)
def execSessionAbort (s : State) : Host.Outcome State Fault Refusal := done (endEarly s 2)

/-- No byte for CFG_IDLE_TO while the controller waits for one; the timer does not run during the waits of R357. -/
def idleTimeout (s : State) : State :=
  match verdict s with
  | .more _ => if loadWaits s then s else endEarly s 1
  | _ => s

def execSessionIdleTimeout (s : State) : Host.Outcome State Fault Refusal := done (idleTimeout s)

/-! ### The enumeration deadline (R352, R264) -/

/-- User function f is visible: its owner has had a release edge since it left EMPTY, and it is not held hidden. -/
def ufOwned (s : State) (f : Nat) : Bool := flag s (F.FAB_FUNCf_OWN_VALID f) && (pciFn s f).ident.isSome
def ufVisible (s : State) (f : Nat) : Bool := ufOwned s f && !s.cfg.hidden.contains f

/-- The deadline passes. -/
def deadlineExpire (s : State) : State :=
  let named := [1, 2, 3].filter fun f => bitOf (fld s F.CFG_DEADLINE_FUNCS) (f - 1)
  if fld s F.CFG_DEADLINE_MS = 0 ∨ s.cfg.expired = true then s
  else
    let s1 := setCfg s { s.cfg with expired := true }
    if named.all (ufVisible s) then s1
    else
      let s2 := pendVec (raise (setCfg s1 { s1.cfg with hidden := [1, 2, 3].filter fun f => !ufVisible s f }) 0x0505 []) 2
      setFld (setFld s2 F.CFG_STATUS_DEADLINE_MISS 1) F.CFG_STATUS_HIDING 1

def execDeadlineExpire (s : State) : Host.Outcome State Fault Refusal := done (deadlineExpire s)

/-- A write of CFG_CTRL.REVEAL ends the hiding. -/
def reveal (s : State) : State := setFld (setCfg s { s.cfg with hidden := [] }) F.CFG_STATUS_HIDING 0

def execReveal (s : State) : Host.Outcome State Fault Refusal := done (reveal s)

/-- The deadline and the hiding cleared (R353). -/
def deadlineClear (s : State) : State :=
  let s1 := setFld (setFld s F.CFG_DEADLINE_MS 0) F.CFG_DEADLINE_FUNCS 0
  setFld (reveal (setCfg s1 { s1.cfg with expired := false })) F.CFG_STATUS_DEADLINE_MISS 0

/-- PERST and HOTRST clear the deadline and the hiding, and end an OPEN session (R353, R359). -/
def cfgHostReset (s : State) : State := deadlineClear (endEarly s 3)

/-! ### Readback (R366) -/

/-- What a frame of an address reads as. -/
def frameRead (s : State) (a : Nat) : Nat :=
  let r := fRegion a
  if fKind a = kBMINIT then bits (bm s r (bmIndex (fTile a))).mem (16384 * fCtx a) (if fCtx a = 2 then 4096 else 16384)
  else if fKind a = kCUFF then
    cuffFrame s r (fTile a) % 2 ^ 288 + (if fTile a ≠ 0 then 0
      else ((List.range 10).foldl (fun v b => if ownsBank s r b then v + 2 ^ (288 + b) + fld s (F.FAB_BANKb_OWN_PADSTOP b) * 2 ^ (298 + b) else v) 0)
        + ([1, 2, 3].foldl (fun v f => if ownsFunc s r f then v + 2 ^ (307 + f) else v) 0))
  else frameAt s (fKind a) r (fCtx a) (fTile a)

/-- The status of a readback: the first row that applies. -/
def readbackStatus (s : State) (a : Nat) : Nat :=
  let r := fRegion a
  let plane := fKind a == kLOGIC || fKind a == kMODES
  if !flag s F.CFG_CTRL_ENABLE then ST.disabled
  else if addrBad a then ST.decode
  else if !flag s F.CFG_CTRL_READBACK_EN || bitOf (fld s F.CFG_ENC_REGIONS_REGIONS) r || (plane && planeState s r (fCtx a) == 1)
    || (fKind a == kBMINIT && regRuns s r) then ST.denied
  else if smGet s.fab.uncorr (frameKey (fKind a) r (fCtx a) (fTile a)) 0 != 0 then ST.poison
  else ST.ok

/-- A frame's 2,056 bytes in the readback buffer. -/
def putReadback (s : State) (a : Nat) : State :=
  let v := a + frameRead s a * 2 ^ 32
  let w := v + crc32c 2052 v * 2 ^ 16416
  forEach (List.range 514) (fun s i => setFld s (F.CFG_RB_DATAi_WORD i) (bits w (32 * i) 32)) s

/-- A write of CFG_RB_CTRL.GO; it waits while the frame's configuration die is in DIE reset (R368). -/
def readback (s : State) : State :=
  let a := fld s F.CFG_RB_ADDR_ADDRESS
  let st := readbackStatus s a
  if st ≠ ST.disabled ∧ st ≠ ST.decode ∧ dieInReset s (confPos (fDie a)) = true then setFld s F.CFG_RB_CTRL_GO 1
  else
    let s1 := if st = ST.ok ∨ st = ST.poison then putReadback s a else s
    setFld (setFld (setFld s1 F.CFG_RB_CTRL_GO 0) F.CFG_RB_CTRL_DONE 1) F.CFG_RB_CTRL_STATUS st

def execReadback (s : State) : Host.Outcome State Fault Refusal := done (readback s)

/-! ### Disabling and reset (R367, R368) -/

/-- No session, failure sequence or verification runs. -/
def cfgDrained (s : State) : Bool := fld s F.CFG_STATUS_RESULT != sOPEN && fld s F.CFG_STATUS_RESULT != sVERIFYING && s.cfg.fail.isNone

/-- Clearing CFG_CTRL.ENABLE. -/
def cfgDisable (s : State) : State :=
  if !flag s F.CFG_CTRL_ENABLE then s
  else if cfgDrained s then setFld s F.CFG_CTRL_ENABLE 0
  else
    let s1 := setFld (endEarly s 4) F.CFG_STATUS_DRAINING 1
    setCfg s1 { s1.cfg with off := true }

def execCfgDisable (s : State) : Host.Outcome State Fault Refusal := done (cfgDisable s)

/-- A BLOCK reset of CFG: a session fails with RESET, its failure sequence runs to completion, and the registers take their
reset values, apart from the endpoint's; the claim map is kept. -/
def cfgReset (s : State) : State :=
  let s1 := if cfgDrained s then s else failEnd (sessFail s sEARLY 5 s.cfg.taken.length)
  let ms := fld s F.CFG_DEADLINE_MS
  let fn := fld s F.CFG_DEADLINE_FUNCS
  let s2 := resetBlockRegs s1 5
  let s3 := setFld (setFld (setFld (setFld s2 F.CFG_DEADLINE_MS ms) F.CFG_DEADLINE_FUNCS fn)
    F.CFG_STATUS_DEADLINE_MISS (fld s F.CFG_STATUS_DEADLINE_MISS)) F.CFG_STATUS_HIDING (fld s F.CFG_STATUS_HIDING)
  showKeys (setCfg s3 { hdr := s3.cfg.hdr, expired := s3.cfg.expired, hidden := s3.cfg.hidden })

/-! ### Admissions on rail 8 (R86) -/

/-- What an admission does: a region starts or pulses, an engine wakes, the session goes on. -/
def r8Effect (s : State) (q : R8Req) : State :=
  match q with
  | .regionStart r => startAdmitted s r
  | .regionPulse r n =>
    let s1 := { s with dbg := { s.dbg with pulses := smSet s.dbg.pulses r n 0 } }
    setFld s1 (F.DBG_REGr_STATUS_PULSING r) 1
  | .engineWake n => engRestart s n
  | .planeLoad _ _ => feed s

/-- The head of rail 8 is admitted where it fits. -/
def rail8Admit (s : State) : State :=
  match s.dsp.r8queue with
  | [] => s
  | q :: _ => if r8Fits s q then r8Effect (r8Admit s q) q else s

def execRail8Admit (s : State) : Host.Outcome State Fault Refusal := done (clocked s (rail8Admit s))

end Sys2Proof.Machine
end

