-- ==== Sys2Proof/Machine/Clocks.lean ====
section
/-! DEFINITION. Clocks (chapter 20): judging oscillators, the clock monitor, freezes, PLLs, operating points and clock
gating. -/
namespace Sys2Proof.Machine

/-- The clock controller replaced. -/
def setClk (s : State) (x : Clock) : State := { s with clk := x }

/-- The device is a follower: SYSREF is RCLK (R413). -/
def isFollower (s : State) : Bool := fld s F.ANG_RTM_ROLE_ROLE == 2

/-- An event of the non-maskable kind (R416). -/
def raiseNmi (s : State) (code : Nat) : State := { s with evq := s.evq ++ [⟨code, none, true, []⟩] }

/-! ### Judgement (R411, R412) -/

/-- FRO runs. -/
def froRuns (s : State) : Bool := flag s F.CLK_CTRL_FRO_ON || flag s F.CLK_STATUS_SYSCLK || flag s F.CLK_STATUS_FROZEN

/-- XO is judged stable and has not failed, so FRO is judged against it. -/
def xoGood (s : State) : Bool := s.clk.xo == 4 && !flag s F.CLK_STATUS_XO_FAIL

/-- A window's count lies within its tolerance: XO ±0.5 % of 781,250, RCLK ±0.5 % of 4,882,812.5 and FRO ±3 % of
6,250,000 per 1,024 LPO periods; FRO 1,987 to 2,109 per 256 XO periods. -/
def windowGood (s : State) (osc n : Nat) : Bool :=
  match osc with
  | 0 => decide (777344 ≤ n) && decide (n ≤ 785156)
  | 1 => decide (4858399 ≤ n) && decide (n ≤ 4907226)
  | _ => if xoGood s then decide (1987 ≤ n) && decide (n ≤ 2109) else decide (6062500 ≤ n) && decide (n ≤ 6437500)

/-- The good windows in a row of an oscillator: 0 XO, 1 RCLK, 2 FRO. -/
def goodWindows (s : State) (osc : Nat) : Nat := match osc with | 0 => s.clk.xo | 1 => s.clk.rclk | _ => s.clk.fro

/-- The number of good windows set, with the status bits that follow it. -/
def setWindows (s : State) (osc n : Nat) : State :=
  let s1 := setClk s (match osc with
    | 0 => { s.clk with xo := n }
    | 1 => { s.clk with rclk := n }
    | _ => { s.clk with fro := n })
  setFld (showRef s1) F.CLK_STATUS_FRO_STABLE (b2n (s1.clk.fro == 4))

/-- FRO loses its judgement where it stops: R411 judges it from the point where it starts again (R412). -/
def froRest (s : State) : State := if froRuns s then s else setWindows s 2 0

/-- The system clock goes to SYSREF, and FRO stops unless FRO_ON keeps it running. -/
def sysclkRef (s : State) : State := froRest (setFld s F.CLK_STATUS_SYSCLK 0)

/-- The frozen domains resume on FRO; within the 50 µs with event 0x0202, later with the buffer stop in STOPPED (R417). -/
def freezeResume (s : State) : State :=
  let s1 := setFld (setFld s F.CLK_STATUS_SYSCLK 1) F.CLK_STATUS_FROZEN 0
  if s.clk.frozen50 then (if bstopState s1 = bSTOPPING then setFld s1 F.DSP_STATUS_BSTOP bSTOPPED else s1) else raise s1 0x0202 []

/-- What an oscillator newly judged stable brings: XO_FAIL clears; a start-up moves to SYSREF; a freeze ends. -/
def becomeStable (s : State) (osc : Nat) : State :=
  let isRef := osc == (if isFollower s then 1 else 0)
  let s1 := if osc = 0 then setFld s F.CLK_STATUS_XO_FAIL 0 else s
  let s2 := if isRef then setClk s1 { s1.clk with since := true } else s1
  if isRef && !s2.clk.trip && flag s2 F.CLK_STATUS_SYSCLK then sysclkRef s2
  else if osc = 2 ∧ flag s2 F.CLK_STATUS_FROZEN = true then freezeResume s2
  else s2

/-- A judgement window of an oscillator ends. -/
def judgeWindow (s : State) (osc n : Nat) : State :=
  if osc = 2 ∧ froRuns s = false then setWindows s 2 0
  else if !windowGood s osc n then setWindows s osc 0
  else if goodWindows s osc = 3 then becomeStable (setWindows s osc 4) osc
  else setWindows s osc (min 4 (goodWindows s osc + 1))

def execOscJudgeWindow (osc : Fin 3) (count : BitVec 24) (s : State) : Host.Outcome State Fault Refusal := done (judgeWindow s osc count.toNat)

/-! ### The clock monitor (R415 to R419) -/

/-- A trip of SYSREF. -/
def monTrip (s : State) : State :=
  if flag s F.CLK_STATUS_SYSCLK || flag s F.CLK_STATUS_FROZEN then s
  else
    let s1 := raiseNmi (satInc (setFld s F.GLB_NMI_STATUS_CLKMON 1) F.CLK_MON_TRIPS_COUNT) 0x0201
    let s2 := setWindows (pendVec s1 1) (if isFollower s then 1 else 0) 0
    let s3 := setClk s2 { s2.clk with trip := true, since := false, frozen50 := false }
    let s4 := if fld s F.ANG_STATUS_RT_STATE = rFREE then setRt (loseRt s3) rSTOPPED else s3
    if flag s4 F.CLK_STATUS_FRO_STABLE && !(isFollower s && flag s F.CLK_STATUS_XO_FAIL) then setFld s4 F.CLK_STATUS_SYSCLK 1
    else setFld (if flag s F.CLK_STATUS_XO_FAIL then setWindows s4 2 0 else s4) F.CLK_STATUS_FROZEN 1

def execClkMonTrip (s : State) : Host.Outcome State Fault Refusal := done (monTrip s)

/-- A cause holds FAULT_N, and GLB_NMI_STATUS.FAULT shows it. -/
def assertFault (s : State) (c : Nat) : State :=
  setFld { s with rst := { s.rst with fault := if s.rst.fault.contains c then s.rst.fault else s.rst.fault ++ [c] } } F.GLB_NMI_STATUS_FAULT 1

/-- A cause lets FAULT_N go. -/
def releaseFault (s : State) (c : Nat) : State :=
  let l := s.rst.fault.filter (· != c)
  setFld { s with rst := { s.rst with fault := l } } F.GLB_NMI_STATUS_FAULT (b2n (!l.isEmpty))

/-- 50 µs after a trip with FRO not stable: the buffer stop with cause FREEZE, of which the frozen Dispatcher sends nothing,
FAULT_N, and event 0x0203. -/
def freezeTimeout (s : State) : State :=
  if !flag s F.CLK_STATUS_FROZEN || s.clk.frozen50 then s
  else
    let s1 := bstopTrigger s BC.freeze
    assertFault (raise (setClk s1 { s1.clk with frozen50 := true }) 0x0203 []) 0

def execFreezeTimeout (s : State) : Host.Outcome State Fault Refusal := done (freezeTimeout s)

/-- A write of CLK_CTRL.RETURN. -/
def sysclkReturn (s : State) : State :=
  if flag s F.CLK_STATUS_SYSCLK && s.clk.trip && s.clk.since && flag s F.CLK_STATUS_REF_STABLE then
    raise (sysclkRef (setClk s { s.clk with trip := false })) 0x0208 []
  else s

def execSysclkReturn (s : State) : Host.Outcome State Fault Refusal := done (sysclkReturn s)

/-- XO fails on a follower. -/
def xoFail (s : State) : State :=
  if !isFollower s || flag s F.CLK_STATUS_SYSCLK || flag s F.CLK_STATUS_XO_FAIL then s
  else setFld (setFld (raise (setWindows s 0 0) 0x0207 []) F.CLK_STATUS_XO_FAIL 1) F.GLB_NMI_STATUS_XOFAIL 1

def execXoFail (s : State) : Host.Outcome State Fault Refusal := done (xoFail s)

/-- ALERT_N is asserted (R416). -/
def alertN (s : State) : Bool := flag s F.GLB_NMI_STATUS_CLKMON || flag s F.GLB_NMI_STATUS_XOFAIL

/-- A W1C write of GLB_NMI_STATUS; `again` tells that the monitor would trip again. -/
def nmiClear (s : State) (clkmon xofail again : Bool) : State :=
  let s1 := if clkmon && !again then setFld s F.GLB_NMI_STATUS_CLKMON 0 else s
  if xofail && !flag s F.CLK_STATUS_XO_FAIL then setFld s1 F.GLB_NMI_STATUS_XOFAIL 0 else s1

def execNmiClear (clkmon xofail again : Bool) (s : State) : Host.Outcome State Fault Refusal := done (nmiClear s clkmon xofail again)

/-! ### PLLs (R413, R414) -/

/-- The fabric maximum in MHz of an operating point and the device's grade (R420). -/
def fabricMax (s : State) (op : Nat) : Nat :=
  if fld s F.GLB_ID_GRADE = 2 then (match op with | 0 => 200 | 1 => 320 | 2 => 450 | _ => 600)
  else (match op with | 0 => 200 | 1 => 280 | 2 => 360 | _ => 450)

/-- The engine maximum in MHz. -/
def engineMax (s : State) (op : Nat) : Nat :=
  if fld s F.GLB_ID_GRADE = 2 then (match op with | 0 => 400 | 1 => 600 | 2 => 800 | _ => 1000)
  else (match op with | 0 => 400 | 1 => 500 | 2 => 650 | _ => 800)

/-- An output of fabric PLL n would exceed the maximum of an operating point: 25 MHz × M / O. -/
def pllAbove (s : State) (n op : Nat) : Bool :=
  let v := 25 * fld s (F.CLK_FPLLn_M n)
  decide (fabricMax s op * fld s (F.CLK_FPLLn_O0 n) < v) || decide (fabricMax s op * fld s (F.CLK_FPLLn_O1 n) < v)

/-- EN set: the PLL starts, or is refused. -/
def fpllEnable (s : State) (n : Nat) : State :=
  if flag s (F.CLK_FPLLn_EN n) then s
  else if pllAbove s n (fld s F.CLK_OP_CURRENT) then raise s 0x0209 []
  else setFld s (F.CLK_FPLLn_EN n) 1

def execFpllEnable (n : Fin 24) (s : State) : Host.Outcome State Fault Refusal := done (fpllEnable s n)

/-- EN cleared: the outputs stop. -/
def fpllDisable (s : State) (n : Nat) : State := setFld (setFld s (F.CLK_FPLLn_EN n) 0) (F.CLK_FPLLn_LOCKED n) 0

def execFpllDisable (n : Fin 24) (s : State) : Host.Outcome State Fault Refusal := done (fpllDisable s n)

/-! ### Operating points (R421, R422) -/

/-- The response of SET_OP is ready (R388). -/
def sbxReply (s : State) (st det : Nat) (pay : List Byte) : State := { s with sbx := { s.sbx with resp := some ⟨st, det, pay⟩ } }

/-- The change is over: a SET_OP is answered, and a disable that waited for it ends. -/
def opEnd (s : State) (sbx : Bool) (st : Nat) : State :=
  let s1 := setFld (setClk s { s.clk with op := none, engGate := [] }) F.CLK_STATUS_OP_BUSY 0
  let s2 := if flag s1 F.CLK_STATUS_DRAINING then setFld (setFld s1 F.CLK_CTRL_ENABLE 0) F.CLK_STATUS_DRAINING 0 else s1
  if sbx then sbxReply s2 st 0 (if st = 0 then [BitVec.ofNat 8 (fld s2 F.CLK_OP_CURRENT)] else []) else s2

/-- The last step has ended. -/
def opDone (s : State) (x : OpChange) : State :=
  opEnd (setFld (raise s 0x0204 []) F.CLK_OP_CURRENT x.target) x.sbx 0

/-- A change starts: upward with the voltage, downward with SYSPLL1 behind closed engine gates. -/
def opBegin (s : State) (t : Nat) (sbx : Bool) : State :=
  let up := decide (fld s F.CLK_OP_CURRENT < t)
  setFld (setClk s { s.clk with op := some ⟨t, up, up, sbx⟩, engGate := if up then [] else [1, 2, 3] }) F.CLK_STATUS_OP_BUSY 1

/-- An enabled fabric PLL exceeds a point's maximum. -/
def pllBlocks (s : State) (t : Nat) : Bool := (List.range 24).any fun n => flag s (F.CLK_FPLLn_EN n) && pllAbove s n t

/-- A write of CLK_OP.TARGET. -/
def opRequest (s : State) (t : Nat) : State :=
  if !flag s F.CLK_CTRL_ENABLE || flag s F.CLK_STATUS_DRAINING then s
  else if s.clk.op.isSome || pllBlocks s t then satInc s F.CLK_OP_REFUSED
  else if t = fld s F.CLK_OP_CURRENT then setFld s F.CLK_OP_TARGET t
  else opBegin (setFld s F.CLK_OP_TARGET t) t false

def execOpRequest (target : BitVec 2) (s : State) : Host.Outcome State Fault Refusal := done (opRequest s target.toNat)

/-- The regulator acknowledges the voltage step. -/
def avsAck (s : State) (mv : Nat) : State :=
  match s.clk.op with
  | some x =>
    if x.avs then
      let s1 := setFld s F.CLK_AVS_VREAD mv
      if x.up then setClk s1 { s1.clk with op := some { x with avs := false }, engGate := [1, 2, 3] } else opDone s1 x
    else s
  | none => s

def execAvsAck (mv : BitVec 12) (s : State) : Host.Outcome State Fault Refusal := done (avsAck s mv.toNat)

/-- No acknowledgement in time: upward the old point stays; downward the new one is in force. -/
def avsTimeout (s : State) (mv : Nat) : State :=
  match s.clk.op with
  | some x =>
    if x.avs then
      let s1 := raise (setFld s F.CLK_AVS_VREAD mv) 0x0206 []
      opEnd (if x.up then s1 else setFld s1 F.CLK_OP_CURRENT x.target) x.sbx ST.timeout
    else s
  | none => s

def execAvsTimeout (mv : BitVec 12) (s : State) : Host.Outcome State Fault Refusal := done (avsTimeout s mv.toNat)

/-- A PLL locks: system PLLs 0 to 3, fabric PLL n as 4 + n. SYSPLL1 at its new frequency lets a change go on. -/
def pllLock (s : State) (i : Nat) : State :=
  if 4 ≤ i then (if flag s (F.CLK_FPLLn_EN (i - 4)) then setFld s (F.CLK_FPLLn_LOCKED (i - 4)) 1 else s)
  else
    let s1 := setClk s { s.clk with plls := if s.clk.plls.contains i then s.clk.plls else s.clk.plls ++ [i] }
    match s1.clk.op with
    | some x =>
      if i ≠ 1 ∨ x.avs = true then s1
      else if x.up then opDone s1 x
      else setClk s1 { s1.clk with op := some { x with avs := true }, engGate := [] }
    | none => s1

def execPllLock (i : Fin 28) (s : State) : Host.Outcome State Fault Refusal := done (pllLock s i)

/-! ### Gating (R423, R424) -/

/-- A block acknowledges its gate request and its clock closes; during a freeze the request is held. -/
def gateAck (s : State) (eng : Bool) (i : Nat) : State :=
  if flag s F.CLK_STATUS_FROZEN then s
  else if eng then
    (if (engine s i).gateReq then setFld (setEngine s i { engine s i with gateReq := false }) (F.ENG_n_STATUS_GATED i) 1 else s)
  else if i < 72 ∧ (region s i).gateReq = true then
    let s1 := setRegion s i { region s i with gateReq := false }
    if regState s i = gRELEASED then setFld s1 (F.FAB_REGr_STATUS_SLEEPING i) 1 else s1
  else s

def execGateAck (eng : Bool) (i : Fin 96) (s : State) : Host.Outcome State Fault Refusal := done (gateAck s eng i)

/-- No acknowledgement within 1,024 cycles: the request is withdrawn and counted, with the block code in event 0x0205. -/
def gateTimeout (s : State) (eng : Bool) (i : Nat) : State :=
  if flag s F.CLK_STATUS_FROZEN then s
  else
    let note := fun s : State => raise (satInc s F.CLK_GATE_TO_COUNT) 0x0205 [(1, if eng then 0x18 else 7)]
    if eng then (if (engine s i).gateReq then note (setEngine s i { engine s i with gateReq := false }) else s)
    else if i < 72 ∧ (region s i).gateReq = true then note (setRegion s i { region s i with gateReq := false })
    else s

def execGateTimeout (eng : Bool) (i : Fin 96) (s : State) : Host.Outcome State Fault Refusal := done (gateTimeout s eng i)

/-! ### Disabling and reset (R425) -/

/-- Clearing CLK_CTRL.ENABLE. -/
def clkDisable (s : State) : State :=
  if !flag s F.CLK_CTRL_ENABLE then s
  else if s.clk.op.isSome then setFld s F.CLK_STATUS_DRAINING 1
  else setFld s F.CLK_CTRL_ENABLE 0

def execClkDisable (s : State) : Host.Outcome State Fault Refusal := done (clkDisable s)

/-- A BLOCK reset of CLK (R9, R425): every register but those that show or set what it leaves running, SYSCLK, the point in
force and the PLLs (log 139); a running change goes on to its end. -/
def clkReset (s : State) : State :=
  let s1 := setFld (setFld (resetOffsets s 0x020000 0x020004) F.CLK_OP_REFUSED 0) F.CLK_STATUS_DRAINING 0
  froRest (resetOffsets (resetOffsets (setFld s1 F.CLK_OP_TARGET 0) 0x02000C 0x020010) 0x020020 0x020048)

end Sys2Proof.Machine
end

