-- ==== Sys2Proof/Machine/Bist.lean ====
section
/-! DEFINITION. Self-test and repair (chapter 24): the march engines, result records, soft and fuse repairs. -/
namespace Sys2Proof.Machine

/-- Self-test replaced. -/
def setBst (s : State) (x : Bst) : State := { s with bst := x }

/-! ### Units (R462) -/

/-- The states of a unit (R465). -/
def uIDLE := 0
def uCOPY := 1
def uMARCH := 2
def uREMARCH := 3
def uRESTORE := 4

/-- The kind of a unit, its die number, and its banks. -/
def unitKind (u : Nat) : Nat := u / 3
def unitDie (u : Nat) : Nat := u % 3 + 1
def unitBanks (u : Nat) : Nat := match unitKind u with | 0 => 64 | 1 => 24 | _ => 256

/-- The rows and BIT positions of a bank of a kind, and its spares. -/
def kindRows (k : Nat) : Nat := match k with | 0 => 16384 | 1 => 3200 | _ => 1024
def kindBits (k : Nat) : Nat := match k with | 0 => 560 | 1 => 18432 | _ => 72
def spareRows (k : Nat) : Nat := match k with | 0 => 16 | 1 => 8 | _ => 4
def spareCols (k : Nat) : Nat := match k with | 0 => 8 | 1 => 4 | _ => 2

/-- The stack position of a unit's die. -/
def unitPos (u : Nat) : Nat := match unitKind u with | 0 => memPos (unitDie u) | 1 => confPos (unitDie u) | _ => logicPos (unitDie u)

/-- The unit's state. -/
def unitState (s : State) (u : Nat) : Nat := fld s (F.BST_Uu_STATUS_STATE u)

/-- A unit changes its state; GO and RUNNING follow. -/
def setUnit (s : State) (u st : Nat) : State :=
  let s1 := setFld (setFld s (F.BST_Uu_CMD_GO u) (b2n (st != uIDLE))) F.BST_STATUS_RUNNING (putBits (fld s F.BST_STATUS_RUNNING) u 1 (b2n (st != uIDLE)))
  setFld s1 (F.BST_Uu_STATUS_STATE u) st

/-! ### Records and spares (R468, R469) -/

/-- A result record. -/
def mkRec (u bank row bit outcome col : Nat) : Nat :=
  unitKind u + unitDie u * 2 ^ 3 + bank * 2 ^ 10 + row * 2 ^ 18 + bit * 2 ^ 32 + outcome * 2 ^ 47 + col * 2 ^ 50

def recKind (r : Nat) : Nat := bits r 0 3
def recUnit (r : Nat) : Nat := bits r 3 7
def recBank (r : Nat) : Nat := bits r 10 8
def recRow (r : Nat) : Nat := bits r 18 14
def recBit (r : Nat) : Nat := bits r 32 15
def recOutcome (r : Nat) : Nat := bits r 47 3
def recCol (r : Nat) : Nat := bits r 50 1

/-- The bank a record is about. -/
def recAt (r kind die bank : Nat) : Bool := recKind r == kind && recUnit r == die && recBank r == bank

/-- The repairs that use a spare of a bank: fuse entries in force, and soft repairs that no entry matches. -/
def repairsAt (s : State) (kind die bank outcome : Nat) : List Nat :=
  (s.bst.fused ++ s.bst.soft.filter fun r => !s.bst.fused.contains r).filter fun r => recAt r kind die bank && recOutcome r == outcome

/-- Free spare rows and columns of a bank, and those claimed by fuse. -/
def rowsFree (s : State) (kind die bank : Nat) : Nat := spareRows kind - (repairsAt s kind die bank 1).length
def colsFree (s : State) (kind die bank : Nat) : Nat := spareCols kind - (repairsAt s kind die bank 2).length
def fusedAt (s : State) (kind die bank outcome : Nat) : Nat := (s.bst.fused.filter fun r => recAt r kind die bank && recOutcome r == outcome).length

/-- A record enters the queue, or is lost. -/
def queueRec (s : State) (u r : Nat) : State :=
  let s1 := satInc (setBst s { s.bst with fails := smSet s.bst.fails u (smGet s.bst.fails u 0 + 1) 0 }) (F.BST_Uu_STATUS_FAILS u)
  if s1.bst.queue.length < 256 then
    setFld (setBst s1 { s1.bst with queue := s1.bst.queue ++ [r] }) F.BST_RESULT_COUNT_COUNT (s1.bst.queue.length + 1)
  else satInc s1 F.BST_RESULT_COUNT_LOST

/-- A failure of a pass: repaired with a free spare where `auto`, and recorded. -/
def failure (s : State) (u bank row bit : Nat) (col auto : Bool) : State :=
  let k := unitKind u
  let d := unitDie u
  let rec0 := fun o => mkRec u bank (if col then 0 else row) bit o (b2n col)
  let fix := fun o =>
    queueRec (setBst s { s.bst with soft := s.bst.soft ++ [rec0 o], repairs := smSet s.bst.repairs u (smGet s.bst.repairs u 0 + 1) 0 }) u (rec0 o)
  if !auto then queueRec s u (rec0 3)
  else if !col && decide (0 < rowsFree s k d bank) then fix 1
  else if 0 < colsFree s k d bank then fix 2
  else raise (queueRec s u (rec0 0)) 0x1D02 []

/-- The failures of a bank in a pass, as the march found them: columns first, then each row's first failing BIT. -/
def bankFailures (s : State) (u bank : Nat) (l : List (Nat × Nat)) (auto : Bool) : State :=
  let cols := ((l.map (·.2)).eraseDups).filter fun b => decide (4 ≤ (((l.filter fun x => x.2 == b).map (·.1)).eraseDups).length)
  let rest := l.filter fun x => !cols.contains x.2
  let rows := (rest.map (·.1)).eraseDups
  let s1 := forEach cols (fun s b => failure s u bank 0 b true auto) s
  forEach rows (fun s r => match rest.find? (fun x => x.1 == r) with | some x => failure s u bank r x.2 false auto | none => s) s1

/-! ### Zero writes (R467) -/

/-- A bank of a unit is written with zeros. -/
def zeroBank (s : State) (u bank : Nat) : State :=
  let d := unitDie u
  match unitKind u with
  | 0 =>
    let k := (d - 1) * 64 + bank
    let l0 := k * 2 ^ 14
    let l1 := (k + 1) * 2 ^ 14
    { s with mem := { s.mem with
        cells := smDrop s.mem.cells (64 * l0) (64 * l1)
        poison := smDrop s.mem.poison l0 l1
        owner := smDrop s.mem.owner l0 l1
        scram := smDrop s.mem.scram k (k + 1) } }
  | 1 => forEach [0, 1, 2, 3] (fun s k => emptyPlane s (24 * (d - 1) + bank) k) s
  | _ =>
    let n := 32 * (d - 1) + bank / 8
    let e := engine s n
    let mine := fun i : Nat => i % 8 == bank % 8
    let base : SMap Nat := if e.spDraw = 0 then e.sp
      else (List.range 8192).foldl (fun m i => if mine i then smSet m i 0 (Config.freeReg (e.spDraw - 1) i) else m) e.sp
    setEngine s n { e with
      sp := if e.spDraw = 0 then base.filter (fun x => !mine x.1) else base
      spPoison := e.spPoison.filter fun x => !mine x.1 }

/-! ### Running a test (R464 to R466) -/

/-- A condition of R467 fails for a bank in range. -/
def inUse (s : State) (u b : Nat) : Bool :=
  let d := unitDie u
  match unitKind u with
  | 0 => bankIsTt s (8 * (d - 1) + b / 8) (b % 8) || (groupMode s (8 * (d - 1) + b / 8) == 2 && flag s F.SCH_CTRL_ENABLE)
  | 1 => regState s (24 * (d - 1) + b) != gEMPTY
  | _ => flag s (F.ENG_n_CTRL_ENABLE (32 * (d - 1) + b / 8)) || flag s (F.ENG_n_STATUS_DRAINING (32 * (d - 1) + b / 8))

/-- Every unit is IDLE. -/
def bstDrained (s : State) : Bool := (List.range 9).all fun u => unitState s u == uIDLE
def bstDrainEnd (s : State) : State := setFld (setFld s F.BST_CTRL_ENABLE 0) F.BST_STATUS_DRAINING 0

/-- The unit goes IDLE; a disable that waits for it ends. -/
def unitIdle (s : State) (u : Nat) : State :=
  let s1 := setUnit (setBst s { s.bst with halted := s.bst.halted.filter (· != u) }) u uIDLE
  if flag s1 F.BST_STATUS_DRAINING && bstDrained s1 then bstDrainEnd s1 else s1

/-- The last bank is done: event 0x1D01 with the unit, its failures and its repairs. -/
def unitDone (s : State) (u : Nat) : State :=
  unitIdle (raise s 0x1D01 [(1, u), (2, smGet s.bst.fails u 0), (2, smGet s.bst.repairs u 0)]) u

/-- The unit turns to bank b, or past running configuration banks to the next; beyond LAST the test is over. -/
def startBank (u : Nat) : Nat → State → Nat → State
  | 0, s, _ => unitDone s u
  | n + 1, s, b =>
    if tstLast s u < b then unitDone s u
    else if tstMode s u then setUnit (setFld s (F.BST_Uu_STATUS_BANK u) b) u uMARCH
    else if unitKind u = 1 ∧ regRuns s (24 * (unitDie u - 1) + b) = true then startBank u n (queueRec s u (mkRec u b 0 0 4 0)) (b + 1)
    else setUnit (setFld s (F.BST_Uu_STATUS_BANK u) b) u uCOPY

/-- A write of BST_Uu_CMD.GO: why it is refused, 0 where it is not. -/
def goRefused (s : State) (u : Nat) (mode : Bool) (first last : Nat) : Nat :=
  if !flag s F.BST_CTRL_ENABLE || flag s F.BST_STATUS_DRAINING then 1
  else if unitState s u ≠ uIDLE then 2
  else if !flag s F.BST_STATUS_STARTUP_DONE then 3
  else if last < first ∨ unitBanks u ≤ last then 4
  else if mode && ((List.range (last + 1 - first)).any fun i => inUse s u (first + i)) then 5
  else 0

/-- GO with its fields: ALG and BG choose the march, which finds what the command MARCH_PASS_END reports. -/
def bstGo (s : State) (u : Nat) (alg mode : Bool) (bg first last : Nat) : State :=
  let r := goRefused s u mode first last
  if r ≠ 0 then raise (setFld s (F.BST_Uu_STATUS_REFUSE u) r) 0x1D03 []
  else
    let s1 := setFld (setFld (setFld s (F.BST_Uu_CMD_ALG u) (b2n alg)) (F.BST_Uu_CMD_MODE u) (b2n mode)) (F.BST_Uu_CMD_BG u) bg
    let s2 := setFld (setFld s1 (F.BST_Uu_CMD_FIRST u) first) (F.BST_Uu_CMD_LAST u) last
    startBank u 257 (setBst s2 { s2.bst with
      fails := smSet s2.bst.fails u 0 0
      repairs := smSet s2.bst.repairs u 0 0
      cmd := smSet s2.bst.cmd u (b2n mode + 2 * first + 512 * last) 0 }) first

def execBstGo (u : Fin 9) (alg mode : Bool) (bg : BitVec 2) (first last : BitVec 8) (s : State) : Host.Outcome State Fault Refusal :=
  done (bstGo s u alg mode bg.toNat first.toNat last.toNat)

/-- The bank is copied: the stand-in, with the same stored bits, takes its place. -/
def copyDone (s : State) (u : Nat) : State := if unitState s u = uCOPY then setUnit s u uMARCH else s

def execCopyDone (u : Fin 9) (s : State) : Host.Outcome State Fault Refusal := done (clocked s (copyDone s u))

/-- The unit is told to stop after its bank: self-test is being disabled, or SLEEP, DEEP SLEEP or OFF is being entered
(R474, R475). -/
def unitStops (s : State) (u : Nat) : Bool :=
  flag s F.BST_STATUS_DRAINING || s.bst.halted.contains u || (pwrPhase s == 1 && decide (wSLEEP ≤ s.pwr.target))

/-- The bank in hand is finished with. -/
def bankDone (s : State) (u : Nat) : State :=
  if unitStops s u then unitIdle s u else startBank u 257 s (fld s (F.BST_Uu_STATUS_BANK u) + 1)

/-- The passes over a bank are over: RESTORE, or the zero writes of a destructive test. -/
def passesDone (s : State) (u : Nat) : State :=
  if tstMode s u then bankDone (zeroBank s u (fld s (F.BST_Uu_STATUS_BANK u))) u else setUnit s u uRESTORE

/-- What a pass found, of the bank in hand; in a start-up test, of every bank (R472). -/
def passFails (s : State) (u : Nat) (l : List (BitVec 8 × BitVec 14 × BitVec 15)) : State :=
  let of_ := fun b : Nat => (l.filter fun x => x.1.toNat == b).map fun x => (x.2.1.toNat, x.2.2.toNat)
  if s.bst.startup.contains u then forEach (List.range (unitBanks u)) (fun s b => bankFailures s u b (of_ b) true) s
  else bankFailures s u (fld s (F.BST_Uu_STATUS_BANK u)) (of_ (fld s (F.BST_Uu_STATUS_BANK u))) (flag s F.BST_CTRL_AUTO_REPAIR)

/-- STARTUP_DONE is set when the last test of the flow ends (R472). -/
def startupCheck (s : State) : State :=
  if s.bst.startup.isEmpty && (s.rst.step == 0 || decide (8 ≤ s.rst.step)) then setFld s F.BST_STATUS_STARTUP_DONE 1 else s

/-- A start-up test ends: its arrays hold zeros. -/
def startupEnd (s : State) (u : Nat) : State :=
  let s1 := forEach (List.range (unitBanks u)) (fun s b => zeroBank s u b) s
  startupCheck (unitDone (setBst s1 { s1.bst with startup := s1.bst.startup.filter (· != u) }) u)

/-- The march, or the re-march, of a unit ends. -/
def marchEnd (s : State) (u : Nat) : State := if s.bst.startup.contains u then startupEnd s u else passesDone s u

/-- A march pass ends: REMARCH where it made repairs. -/
def marchPassEnd (s : State) (u : Nat) (l : List (BitVec 8 × BitVec 14 × BitVec 15)) : State :=
  if unitState s u ≠ uMARCH then s
  else
    let s1 := passFails s u l
    if smGet s.bst.repairs u 0 < smGet s1.bst.repairs u 0 then setUnit s1 u uREMARCH else marchEnd s1 u

def execMarchPassEnd (u : Fin 9) (fails : List (BitVec 8 × BitVec 14 × BitVec 15)) (s : State) : Host.Outcome State Fault Refusal :=
  done (clocked s (marchPassEnd s u fails))

def remarchEnd (s : State) (u : Nat) (l : List (BitVec 8 × BitVec 14 × BitVec 15)) : State :=
  if unitState s u = uREMARCH then marchEnd (passFails s u l) u else s

def execRemarchEnd (u : Fin 9) (fails : List (BitVec 8 × BitVec 14 × BitVec 15)) (s : State) : Host.Outcome State Fault Refusal :=
  done (clocked s (remarchEnd s u fails))

/-- The stand-in is copied back; it waits while the unit's die is in reset (R474). -/
def restoreDone (s : State) (u : Nat) : State :=
  if unitState s u = uRESTORE ∧ dieInReset s (unitPos u) = false then bankDone s u else s

def execRestoreDone (u : Fin 9) (s : State) : Host.Outcome State Fault Refusal := done (clocked s (restoreDone s u))

/-- The oldest record leaves the queue. -/
def resultRead (s : State) : State :=
  setFld (setBst s { s.bst with queue := s.bst.queue.tail }) F.BST_RESULT_COUNT_COUNT s.bst.queue.tail.length

def execBstResultRead (s : State) : Host.Outcome State Fault Refusal := done (resultRead s)

/-- Clearing BST_CTRL.ENABLE. -/
def bstDisable (s : State) : State :=
  if !flag s F.BST_CTRL_ENABLE then s else if bstDrained s then setFld s F.BST_CTRL_ENABLE 0 else setFld s F.BST_STATUS_DRAINING 1

def execBstDisable (s : State) : Host.Outcome State Fault Refusal := done (bstDisable s)

/-! ### Resets and fuse entries (R470, R471, R474, R475) -/

/-- A start-up test that a reset stops: its arrays are written with zeros. -/
def startupStop (s : State) (u : Nat) : State :=
  let s1 := forEach (List.range (unitBanks u)) (fun s b => zeroBank s u b) s
  startupCheck (unitIdle (setBst s1 { s1.bst with startup := s1.bst.startup.filter (· != u) }) u)

/-- A reset meets a running test: a preserving march stops and RESTORE is due; a destructive one stops, and its range is
written with zeros. -/
def unitHalt (s : State) (u : Nat) : State :=
  if unitState s u = uIDLE then s
  else if s.bst.startup.contains u then startupStop s u
  else if tstMode s u then
    let f := tstFirst s u
    unitIdle (forEach (List.range (tstLast s u + 1 - f)) (fun s i => zeroBank s u (f + i)) s) u
  else setUnit (setBst s { s.bst with halted := if s.bst.halted.contains u then s.bst.halted else s.bst.halted ++ [u] }) u uRESTORE

/-- A BLOCK reset of BST: the registers take their reset values; soft repairs and STARTUP_DONE are kept, and a stopped
preserving test still has its RESTORE to run. -/
def bstReset (s : State) : State :=
  let s1 := forEach (List.range 9) unitHalt s
  let busy := (List.range 9).filter fun u => unitState s1 u != uIDLE
  let banks := busy.map fun u => (u, fld s1 (F.BST_Uu_STATUS_BANK u))
  let s2 := resetBlockRegs s1 0x1D
  let s3 := forEach banks (fun s x => setUnit (setFld s (F.BST_Uu_STATUS_BANK x.1) x.2) x.1 uRESTORE) s2
  let s4 := setFld (setFld s3 F.BST_FUSE_USED (fld s F.BST_FUSE_USED)) F.BST_FUSE_BAD (fld s F.BST_FUSE_BAD)
  setFld (setBst s4 { s4.bst with queue := [] }) F.BST_STATUS_STARTUP_DONE (fld s F.BST_STATUS_STARTUP_DONE)

/-- A fuse repair record is out of range (R470). -/
def recBad (r : Nat) : Bool :=
  let k := recKind r
  let col := recCol r == 1
  decide (3 < k) || r / 2 ^ 51 != 0 || !(recOutcome r == 1 || recOutcome r == 2) || (col != (recOutcome r == 2)) ||
  (if k = 3 then decide (42 < recUnit r) || recBank r != 0 || recRow r != 0 || decide (559 < recBit r) || col
   else recUnit r == 0 || decide (3 < recUnit r) || decide (unitBanks (3 * k) ≤ recBank r) || decide (kindRows k ≤ recRow r)
     || decide (kindBits k ≤ recBit r) || (col && recRow r != 0))

/-- A spare of the kind is unclaimed by fuse entries: a siding of the link, or a row or column of the bank. -/
def spareUnclaimed (s : State) (r : Nat) : Bool :=
  let k := recKind r
  if k = 3 then decide ((s.bst.fused.filter fun x => recKind x == 3 && recUnit x == recUnit r).length < 16)
  else decide (fusedAt s k (recUnit r) (recBank r) (recOutcome r) < (if recOutcome r = 1 then spareRows k else spareCols k))

/-- The fuse entries of a shadow load claim their spares in order; those whose CRC fails, or whose spare is claimed, are
counted in BAD with event 0x1D05. -/
def claimEntries (s : State) : State :=
  let s0 := setFld (setFld (setBst s { s.bst with fused := [] }) F.BST_FUSE_BAD 0) F.BST_FUSE_USED s.sbx.repairs.length
  forEach (List.range s.sbx.repairs.length) (fun s i =>
    let r := s.sbx.repairs.getD i 0
    if s.sbx.badRep.contains i || s.bst.fused.contains r || !spareUnclaimed s r then satInc (raise s 0x1D05 []) F.BST_FUSE_BAD
    else setBst s { s.bst with fused := s.bst.fused ++ [r] }) s0

/-- A written fuse entry is in force, and applied at once as a soft repair where a spare is free (R470). -/
def applyEntry (s : State) (r : Nat) : State :=
  let k := recKind r
  let s1 := if k ≠ 3 ∧ s.bst.soft.contains r = false ∧ 0 < (if recOutcome r = 1 then rowsFree s k (recUnit r) (recBank r) else colsFree s k (recUnit r) (recBank r)) then
    setBst s { s.bst with soft := s.bst.soft ++ [r] } else s
  setBst s1 { s1.bst with fused := s1.bst.fused ++ [r] }

end Sys2Proof.Machine
end

