-- ==== Sys2Proof/Machine/IsaSys.lean ====
section
/-! DEFINITION. The control registers, waits, streams and Timetable instructions of Proster-32 (R183 to R188). -/
namespace Sys2Proof.Machine

/-! ### Control registers (R187, R188) -/

/-- The window of a WINw_BASE (even) or WINw_CTL (odd) CSR. -/
def csrWin (c : Nat) : Option (Nat × Bool) := if 0x030 ≤ c ∧ c < 0x040 then some ((c - 0x030) / 2, c % 2 == 1) else none

/-- The CSR number is listed. -/
def csrListed (c : Nat) : Bool :=
  [0x000, 0x001, 0x004, 0x005, 0x008, 0x009, 0x00A, 0x010, 0x011, 0x018, 0x019, 0x020, 0x021, 0x022, 0x024, 0x025, 0x028].contains c
  || (csrWin c).isSome

/-- The CSR is RO. -/
def csrRo (c : Nat) : Bool := [0x001, 0x004, 0x005, 0x009, 0x011, 0x028].contains c

/-- What a read of a CSR returns. -/
def csrGet (s : State) (n t c : Nat) : Nat :=
  let x := thread s n t
  match c with
  | 0x000 => b2n x.z + 2 * b2n x.n + 4 * b2n x.c + 8 * b2n x.v
  | 0x001 => t + 4 * n
  | 0x004 => if rtValid s then now s % 2 ^ 32 else 0
  | 0x005 => (engine s n).rtHi
  | 0x008 => x.ldLast + 16 * b2n x.ldErr
  | 0x009 => x.sst + 16 * b2n x.sstLast
  | 0x00A => b2n x.qsat
  | 0x010 => (engine s n).wakeq.headD 0
  | 0x011 => (engine s n).wakeq.length
  | 0x018 => fld s (F.ENG_n_SIGNAL_SIGNAL n)
  | 0x019 => fld s (F.ENG_n_NOTIFY_NOTIFY n)
  | 0x020 => x.axis
  | 0x021 => x.tgt % 2 ^ 32
  | 0x022 => x.tgt / 2 ^ 32
  | 0x024 => x.tmr % 2 ^ 32
  | 0x025 => x.tmr / 2 ^ 32
  | 0x028 => eventsOf s n t
  | _ =>
    match csrWin c with
    | some (w, false) => fld s (F.ENG_n_WINw_BASE n w)
    | some (w, true) => fld s (F.ENG_n_WINw_VALID n w)
    | none => 0

/-- What a read of a CSR does beside returning its value: RT_LO latches RT_HI, WAKEMSG removes a message and sets Z. -/
def csrSide (s : State) (n t c : Nat) : State :=
  match c with
  | 0x004 => setEngine s n { engine s n with rtHi := if rtValid s then now s / 2 ^ 32 else 0 }
  | 0x010 =>
    let e := (engine s n).wakeq.isEmpty
    setFlg (setEngine s n { engine s n with wakeq := (engine s n).wakeq.tail }) n t { flg s n t with z := e }
  | _ => s

/-- The new value of a plain CSR: written (1), bits set (2) or bits cleared (3). -/
def csrMerge (fn old v : Nat) : Nat := if fn = 1 then v else if fn = 2 then old ||| v else old - (old &&& v)

/-- A write of a CSR by CSRW (1), CSRS (2) or CSRC (3). A W1C field ignores CSRC; so does NOTIFY, which CSRW and CSRS set;
WAKEMSG ignores CSRW. The low word of a target is staged, and the write of the high word commits it. -/
def csrSet (s : State) (n t c fn v : Nat) : State :=
  let x := thread s n t
  let m := csrMerge fn (csrGet s n t c) v
  match c with
  | 0x000 => setFlg s n t ⟨bitOf m 0, bitOf m 1, bitOf m 2, bitOf m 3⟩
  | 0x008 => if fn ≠ 3 ∧ bitOf v 4 = true then setThread s n t { x with ldErr := false } else s
  | 0x00A => if fn ≠ 3 ∧ bitOf v 0 = true then setThread s n t { x with qsat := false } else s
  | 0x018 => setFld s (F.ENG_n_SIGNAL_SIGNAL n) m
  | 0x019 => if fn = 3 then s else setNotify s n (v % 2 ^ 16)
  | 0x020 => setThread s n t { x with axis := m % 16 }
  | 0x021 => setThread s n t { x with tgtLo := m % 2 ^ 32 }
  | 0x022 => setThread s n t { x with tgt := m % 2 ^ 16 * 2 ^ 32 + x.tgtLo }
  | 0x024 => setThread s n t { x with tmrLo := m % 2 ^ 32 }
  | 0x025 => setThread s n t { x with tmr := m % 2 ^ 32 * 2 ^ 32 + x.tmrLo }
  | _ =>
    match csrWin c with
    | some (w, false) => setFld s (F.ENG_n_WINw_BASE n w) m
    | some (w, true) => setFld s (F.ENG_n_WINw_VALID n w) m
    | none => s

/-- The write faults with CSR: a number not listed, an RO CSR, or CSRS or CSRC of WAKEMSG. -/
def csrWriteBad (c fn : Nat) : Bool := !csrListed c || csrRo c || (c == 0x010 && fn != 1)

/-- CSRR. The value is read before the read's side effect. -/
def csrRead (n t rd c : Nat) (s : State) : State :=
  issue s n t (encC rd 0 0 c) fun s =>
    if csrListed c then nextInstr (setG (csrSide s n t c) n t rd (BitVec.ofNat 32 (csrGet s n t c))) n t
    else faultThread s n t FC.csr

def execICsrr (n : Fin 96) (t : Fin 4) (rd : Fin 16) (csr : BitVec 12) (s : State) : Host.Outcome State Fault Refusal :=
  done (csrRead n t rd csr.toNat s)

/-- CSRW, CSRS and CSRC. -/
def csrWrite (n t rd rs1 fn c : Nat) (s : State) : State :=
  issue s n t (encC rd rs1 fn c) fun s =>
    if csrWriteBad c fn then faultThread s n t FC.csr
    else nextInstr (csrSet s n t c fn (gReg s n t rs1).toNat) n t

def execICsrw (n : Fin 96) (t : Fin 4) (rs1 : Fin 16) (csr : BitVec 12) (s : State) : Host.Outcome State Fault Refusal :=
  done (csrWrite n t 0 rs1 1 csr.toNat s)

def execICsrs (n : Fin 96) (t : Fin 4) (rd rs1 : Fin 16) (csr : BitVec 12) (s : State) : Host.Outcome State Fault Refusal :=
  done (csrWrite n t rd rs1 2 csr.toNat s)

def execICsrc (n : Fin 96) (t : Fin 4) (rd rs1 : Fin 16) (csr : BitVec 12) (s : State) : Host.Outcome State Fault Refusal :=
  done (csrWrite n t rd rs1 3 csr.toNat s)

/-! ### NOP, waits, FENCE and BRK (R185, R186) -/

def execINop (n : Fin 96) (t : Fin 4) (a b : Fin 16) (imm : BitVec 14) (s : State) : Host.Outcome State Fault Refusal :=
  done (issue s n t (encS 0x30 a b 0 imm.toNat) fun s => nextInstr s n t)

/-- A wait under a mask: a mask of 0 or with a bit of [15:12] is ILLEGAL; a pending event completes it at once; else the
thread waits, its PC at the instruction after. -/
def waitFor (s : State) (n t mask : Nat) : State :=
  if mask = 0 ∨ bits mask 12 4 ≠ 0 then faultThread s n t FC.illegal
  else
    let s1 := setFld s (F.ENG_n_Tt_MASK_MASK n t) mask
    if (eventsOf s1 n t &&& mask) ≠ 0 then nextInstr s1 n t
    else setThrState (setThread s1 n t { thread s1 n t with pc := (thread s1 n t).pc + 4, go := false }) n t tWAIT

def execIWait (n : Fin 96) (t : Fin 4) (a b : Fin 16) (imm : BitVec 14) (s : State) : Host.Outcome State Fault Refusal :=
  done (issue s n t (encS 0x30 a b 1 imm.toNat) fun s => waitFor s n t (gReg s n t b).toNat)

def execIWaiti (n : Fin 96) (t : Fin 4) (a b : Fin 16) (imm : BitVec 14) (s : State) : Host.Outcome State Fault Refusal :=
  done (issue s n t (encS 0x30 a b 2 imm.toNat) fun s => waitFor s n t imm.toNat)

/-- FENCE: the thread stalls until its window stores have completed. -/
def fenceOp (s : State) (n t : Nat) : State :=
  if storesOut s n t then setThread s n t { thread s n t with blk := .fence } else nextInstr s n t

def execIFence (n : Fin 96) (t : Fin 4) (a b : Fin 16) (imm : BitVec 14) (s : State) : Host.Outcome State Fault Refusal :=
  done (issue s n t (encS 0x30 a b 3 imm.toNat) fun s => fenceOp s n t)

/-- BRK: a fault, or a halt at the BRK while a debugger is attached (R186, R485). -/
def brkOp (s : State) (n t : Nat) : State :=
  if flag s (F.DBG_ENGn_CTRL_ATTACH n) then halt s n t 4 else faultThread s n t FC.brk

def execIBrk (n : Fin 96) (t : Fin 4) (a b : Fin 16) (imm : BitVec 14) (s : State) : Host.Outcome State Fault Refusal :=
  done (issue s n t (encS 0x30 a b 4 imm.toNat) fun s => brkOp s n t)

/-! ### Streams (R163, R183) -/

/-- SRD from port k into the pair at rd. -/
def srdOp (s : State) (n t rd k : Nat) : State :=
  if portOff s n k && (!bitOf (fld s (F.ENG_n_SPORT_EN n)) k || (fifo s n k).isEmpty) then endStream s n t ST.disabled (some (rd, 0))
  else if (fifo s n k).isEmpty then setThread s n t { thread s n t with blk := .srd k rd }
  else takeWord s n t k rd

def execISrd (n : Fin 96) (t : Fin 4) (rd b : Fin 16) (imm : BitVec 14) (s : State) : Host.Outcome State Fault Refusal :=
  done (issue s n t (encS 0x31 rd b 0 imm.toNat) fun s => srdOp s n t rd (imm.toNat % 8))

/-- SWR of a word with LAST to port k. -/
def swrOp (s : State) (n t k w : Nat) : State :=
  if portOff s n k then endStream s n t ST.disabled none
  else if 8 ≤ (fifo s n k).length then setThread s n t { thread s n t with blk := .swr k w }
  else giveWord s n t k w

def execISwr (n : Fin 96) (t : Fin 4) (rs b : Fin 16) (imm : BitVec 14) (s : State) : Host.Outcome State Fault Refusal :=
  done (issue s n t (encS 0x31 rs b 1 imm.toNat) fun s =>
    swrOp s n t (imm.toNat % 8) (gPair s n t rs + bits imm.toNat 3 1 * 2 ^ 64))

/-! ### The Timetable (R184) -/

/-- The entry in four registers. -/
def entryAt (s : State) (n t i : Nat) : Nat := gPair s n t i + gPair s n t (i + 2) * 2 ^ 64

def execITti (n : Fin 96) (t : Fin 4) (rs b : Fin 16) (imm : BitVec 14) (s : State) : Host.Outcome State Fault Refusal :=
  done (issue s n t (encS 0x32 rs b 0 imm.toNat) fun s => presentTti s n t (imm.toNat % 512) (entryAt s n t rs))

def execITtir (n : Fin 96) (t : Fin 4) (rs b : Fin 16) (imm : BitVec 14) (s : State) : Host.Outcome State Fault Refusal :=
  done (issue s n t (encS 0x32 rs b 1 imm.toNat) fun s => presentTti s n t ((gReg s n t b).toNat % 512) (entryAt s n t rs))

/-- TTC: the oldest record, or all ones; Z tells an empty queue. Room in the queue lets held TTIs go on. -/
def ttcOp (s : State) (n t rd : Nat) : State :=
  let q := engCqOf s n
  let s1 := setTt s { s.tt with engCq := smSet s.tt.engCq n q.tail [] }
  let s2 := setFlg (setG s1 n t rd (BitVec.ofNat 32 (q.headD 0xFFFFFFFF))) n t { flg s n t with z := q.isEmpty }
  engPump (nextInstr s2 n t) n

def execITtc (n : Fin 96) (t : Fin 4) (rd b : Fin 16) (imm : BitVec 14) (s : State) : Host.Outcome State Fault Refusal :=
  done (issue s n t (encS 0x32 rd b 2 imm.toNat) fun s => ttcOp s n t rd)

end Sys2Proof.Machine
end

