-- ==== Sys2Proof/Machine/SignalBox.lean ====
section
/-! DEFINITION. The Signal Box (chapter 19): mailbox commands, firmware images and updates, fuses and key slots, debug
unlocking, the log mirror, merge windows and starts from ROM. -/
namespace Sys2Proof.Machine

/-- The Signal Box replaced. -/
def setSbx (s : State) (x : Sbx) : State := { s with sbx := x }

/-! ### Mailbox (R387, R388) -/

/-- Byte i of the mailbox, and `n` bytes from byte i. -/
def mbByte (s : State) (i : Nat) : Nat := bits (fld s (F.SBX_MAILBOXi_WORD (i / 4))) (8 * (i % 4)) 8
def mbNat (s : State) (i : Nat) : Nat → Nat
  | 0 => 0
  | n + 1 => mbByte s i + 256 * mbNat s (i + 1) n

def mbCmd (s : State) : Nat := mbNat s 0 2
def mbLen (s : State) : Nat := mbNat s 2 2
/-- `n` bytes of the payload from payload byte i. -/
def payNat (s : State) (i n : Nat) : Nat := mbNat s (16 + i) n

/-- A byte of the mailbox written. -/
def putMb (s : State) (i v : Nat) : State :=
  let f := F.SBX_MAILBOXi_WORD (i / 4)
  setFld s f (putBits (fld s f) (8 * (i % 4)) 8 v)

/-- The Signal Box serves requests: it has started, and its core is not stopped by a power state (R442). -/
def sbxReady (s : State) : Bool := flag s F.SBX_STATUS_READY && decide (pwrState s ≤ wIDLE)

/-- Its firmware runs from a slot, not from ROM. -/
def fwRuns (s : State) : Bool := sbxReady s && !flag s F.SBX_STATUS_RECOVERY

/-- A write of SBX_DOORBELL.RING. -/
def doorbell (s : State) : State :=
  if flag s F.SBX_MB_STATUS_BUSY || !flag s F.SBX_CTRL_ENABLE || flag s F.SBX_STATUS_DRAINING || !sbxReady s then
    satInc s F.SBX_MB_STATUS_REJECTED
  else setFld s F.SBX_MB_STATUS_BUSY 1

def execSbxDoorbell (s : State) : Host.Outcome State Fault Refusal := done (doorbell s)

/-- LEN that R389 lists for a command, none for an unlisted one. -/
def lenGood (s : State) : Bool :=
  let n := mbLen s
  match mbCmd s with
  | 0x0001 => n == 4
  | 0x0002 => n == 0
  | 0x0003 => n == 8
  | 0x0004 => n == 32
  | 0x0010 => n == 4
  | 0x0011 => decide (8 ≤ n) && decide (n ≤ 4080) && n % 4 == 0
  | 0x0012 => n == 4
  | 0x0020 => n == 4
  | 0x0030 => n == 4 + payNat s 2 2
  | 0x0031 => n == 36
  | 0x0040 => (payNat s 0 1 == 0 && n == 4) || (payNat s 0 1 == 1 && n == 68)
  | _ => false

/-- The zero fields of the request are zero: header bytes [15:10], and the payload bytes that no field uses. -/
def zerosGood (s : State) : Bool :=
  mbNat s 10 6 == 0 &&
  match mbCmd s with
  | 0x0001 => payNat s 1 3 == 0
  | 0x0003 => payNat s 6 2 == 0 && decide (payNat s 4 1 ≤ 1)
  | 0x0012 => payNat s 1 3 == 0 && decide (payNat s 0 1 ≤ 1)
  | 0x0020 => payNat s 1 3 == 0
  | 0x0030 => payNat s 1 1 == 0
  | 0x0031 => payNat s 2 2 == 0
  | 0x0040 => payNat s 1 3 == 0
  | _ => true

/-- The commands that ROM recovery serves (R391). -/
def inRecovery (s : State) : Bool :=
  match mbCmd s with
  | 0x0001 | 0x0010 | 0x0011 | 0x0012 => true
  | 0x0003 => payNat s 4 1 == 0
  | _ => false

/-- How a request ends that no command serves, with its STATUS and DETAIL: one that ROM recovery does not serve (R391) before one
that is not listed or malformed (R389), by the order of R16. -/
def reqRefused (s : State) : Option (Nat × Nat) :=
  if flag s F.SBX_STATUS_RECOVERY && !inRecovery s then some (ST.disabled, 3)
  else if !lenGood s || !zerosGood s then some (ST.decode, 0)
  else none

/-- The firmware takes up the request in the mailbox where it is the command named, and none is answered yet. -/
def withReq (s : State) (cmd : Nat) (f : State) : State :=
  if !flag s F.SBX_MB_STATUS_BUSY || s.sbx.resp.isSome || mbCmd s != cmd then s
  else match reqRefused s with
    | some x => sbxReply s x.1 x.2 []
    | none => f

/-! ### Images (R390, R396) -/

/-- The image of a slot. -/
def slotImage (s : State) (k : Nat) : List Byte := if k = 0 then s.sbx.slotA else s.sbx.slotB

/-- `n` bytes of an image from byte i. -/
def imgNat (l : List Byte) (i n : Nat) : Nat := bytesNat ((l.drop i).take n)

/-- The first item of R396 that fails, as its DETAIL: 0 none, 1 format, 2 part, 3 security version, 4 signature. -/
def imageFault (l : List Byte) (svn : Nat) : Nat :=
  if imgNat l 0 4 ≠ 0x57464253 ∨ imgNat l 4 2 ≠ 1 then 1
  else if imgNat l 6 2 ≠ 0x0396 then 2
  else if imgNat l 12 4 ≠ l.length ∨ l.length < 132 ∨ 458752 < l.length ∨ imgNat l 20 44 ≠ 0 then 1
  else if imgNat l 16 4 < svn then 3
  else if !ed25519ph Config.firmwareKey (l.take (l.length - 64)) (l.drop (l.length - 64)) then 4
  else 0

def imageGood (s : State) (k : Nat) : Bool := s.sbx.flash && imageFault (slotImage s k) s.sbx.shSvn == 0

/-- VERSION of a slot, 0 without a valid image. -/
def slotVersion (s : State) (k : Nat) : Nat := if imageGood s k then imgNat (slotImage s k) 8 4 else 0

/-- RUNNING as GET_INFO codes it. -/
def runningCode (s : State) : Nat := if flag s F.SBX_STATUS_RECOVERY then 0xFF else fld s F.SBX_STATUS_SLOT

/-- SERIAL of the certificate. -/
def serial : Nat := bits Config.certificate 64 64

/-! ### Information, sensors, log, attestation (R389 to R391, R402) -/

/-- The GET_INFO summary: 36 bytes. -/
def infoBytes (s : State) : List Byte :=
  bytesOf 2 0x0396 ++ bytesOf 1 (fld s F.GLB_ID_STEPPING) ++ bytesOf 1 (runningCode s) ++ bytesOf 4 (slotVersion s 0)
  ++ bytesOf 4 (slotVersion s 1) ++ bytesOf 4 Config.romVersion ++ bytesOf 4 s.sbx.shSvn ++ bytesOf 4 s.sbx.boots
  ++ bytesOf 3 (if s.sbx.flash then Config.jedecId else 0) ++ bytesOf 1 0 ++ bytesOf 8 serial

def getInfo (s : State) : State :=
  withReq s 0x0001 (
    match payNat s 0 1 with
    | 0 => sbxReply s ST.ok 0 (infoBytes s)
    | 1 => sbxReply s ST.ok 0 (bytesOf 128 Config.certificate)
    | _ => sbxReply s ST.decode 1 [])

def execGetInfo (s : State) : Host.Outcome State Fault Refusal := done (getInfo s)

/-- The readings of the last housekeeping round: 80 bytes. -/
def sensorBytes (s : State) : List Byte :=
  ((List.range 20).flatMap fun n => bytesOf 2 (fld s (F.THM_Sn_TEMP n))) ++ ((List.range 16).flatMap fun n => bytesOf 2 (s.thm.volts.getD n 0))
  ++ bytesOf 2 (fld s F.STK_IVCORE_CURRENT) ++ bytesOf 4 s.thm.round ++ bytesOf 2 0

def getSensors (s : State) : State := withReq s 0x0002 (sbxReply s ST.ok 0 (sensorBytes s))

def execGetSensors (s : State) : Host.Outcome State Fault Refusal := done (getSensors s)

/-- A record's 32 bytes (R392). -/
def recBytes (r : LogRec) : List Byte :=
  bytesOf 4 r.seq ++ bytesOf 2 r.code ++ bytesOf 1 r.flags ++ bytesOf 1 r.count ++ bytesOf 8 r.time ++ bytesOf 16 r.data

/-- READ_LOG's response: FIRST, the records, and GAP. -/
def logReply (s : State) (first : Nat) (l : List LogRec) (gap : Bool) : State :=
  sbxReply s ST.ok 0 (bytesOf 4 first ++ bytesOf 2 l.length ++ bytesOf 1 (b2n gap) ++ bytesOf 9 0 ++ l.flatMap recBytes)

/-- Records of the SRAM log from SEQ `from_` on, at most `m`; older ones than are held begin at the oldest held. -/
def readSram (s : State) (from_ m : Nat) : State :=
  match s.log with
  | [] => logReply s from_ [] false
  | newest :: _ =>
    let age := (newest.seq + 2 ^ 32 - from_) % 2 ^ 32
    let n := s.log.length
    let start := if age < n then age else n - 1
    if 2 ^ 31 ≤ age then logReply s from_ [] false
    else logReply s ((newest.seq + 2 ^ 32 - start) % 2 ^ 32) ((((s.log.take (start + 1)).reverse).take m)) (decide (n ≤ age))

/-- Records of the mirror from the index `from_` counted back from the newest. -/
def readMirror (s : State) (from_ m : Nat) : State :=
  let n := s.sbx.mirror.length
  let start := if from_ < n then from_ else n - 1
  logReply s start ((s.sbx.mirror.drop start).take m) (decide (n ≤ from_))

def readLog (s : State) : State :=
  withReq s 0x0003 (
    let m := payNat s 5 1
    if payNat s 4 1 = 1 ∧ s.sbx.flash = false then sbxReply s ST.disabled 1 []
    else if m = 0 ∨ 127 < m then sbxReply s ST.decode 1 []
    else if payNat s 4 1 = 0 then readSram s (payNat s 0 4) m
    else readMirror s (payNat s 0 4) m)

def execReadLog (s : State) : Host.Outcome State Fault Refusal := done (readLog s)

/-- What CFG_MEAS is taken over: the state of each plane, and the header hash of the session that made it READY. -/
def planeBytes (s : State) : List Byte :=
  (List.range 288).flatMap fun p =>
    let st := planeState s (p / 4) (p % 4)
    bytesOf 1 st ++ bytesOf 64 (if st = 2 ∨ st = 3 then smGet s.cfg.hdr p 0 else 0)

/-- The report without its signature: 256 bytes (R402). -/
def reportBytes (s : State) : List Byte :=
  bytesOf 2 1 ++ bytesOf 2 0x0396 ++ bytesOf 1 (fld s F.GLB_ID_STEPPING) ++ bytesOf 1 (runningCode s) ++ bytesOf 2 0
  ++ bytesOf 8 serial ++ bytesOf 32 (payNat s 0 32) ++ bytesOf 8 (if rtValid s then now s else 0) ++ bytesOf 4 s.sbx.boots
  ++ bytesOf 4 0 ++ bytesOf 64 (sha512 (slotImage s (fld s F.SBX_STATUS_SLOT)))
  ++ bytesOf 64 (sha512 (Config.fuseBytes (s.sbx.shadow.filter fun e => e.1 != 1) s.sbx.shSvn s.sbx.repairs))
  ++ bytesOf 64 (sha512 (planeBytes s))

def attest (s : State) : State :=
  withReq s 0x0004 (
    if Config.identityBad then sbxReply s ST.internal 1 []
    else sbxReply s ST.ok 0 (reportBytes s ++ bytesOf 64 (deviceSign (reportBytes s))))

def execAttest (s : State) : Host.Outcome State Fault Refusal := done (attest s)

/-! ### Firmware updates (R397) -/

/-- A slot's image replaced. -/
def setSlot (s : State) (k : Nat) (l : List Byte) : State := setSbx s (if k = 0 then { s.sbx with slotA := l } else { s.sbx with slotB := l })

/-- The update opened, changed or closed; UPDATE shows it. -/
def setUpdate (s : State) (u : Option Update) : State := setFld (setSbx s { s.sbx with update := u }) F.SBX_STATUS_UPDATE (b2n u.isSome)

/-- BEGIN: the slot that does not run is marked invalid and erased. -/
def updateBegin (s : State) : State :=
  withReq s 0x0010 (
    let n := payNat s 0 4
    let k := 1 - fld s F.SBX_STATUS_SLOT
    if !s.sbx.flash then sbxReply s ST.disabled 2 []
    else if n < 132 ∨ 458752 < n then sbxReply s ST.decode 2 []
    else sbxReply (setUpdate (setSlot s k []) (some ⟨k, n, []⟩)) ST.ok 0 (bytesOf 1 k))

def execFwUpdateBegin (s : State) : Host.Outcome State Fault Refusal := done (updateBegin s)

/-- CHUNK: data at OFFSET; `bad` tells that programming the flash failed. -/
def updateChunk (s : State) (bad : Bool) : State :=
  withReq s 0x0011 (
    let n := mbLen s - 4
    match s.sbx.update with
    | none => sbxReply s ST.decode 3 []
    | some u =>
      if payNat s 0 4 ≠ u.got.length ∨ u.len < u.got.length + n then sbxReply s ST.decode 3 []
      else if bad then sbxReply s ST.internal 2 []
      else
        let got := u.got ++ bytesOf n (payNat s 4 n)
        sbxReply (setUpdate s (some { u with got := got })) ST.ok 0 (bytesOf 4 got.length))

def execFwUpdateChunk (bad : Bool) (s : State) : Host.Outcome State Fault Refusal := done (updateChunk s bad)

/-- COMMIT: a verified image becomes PREFERRED in trial; with ACTIVATE the Signal Box restarts once it has answered. -/
def updateCommit (s : State) : State :=
  withReq s 0x0012 (
    match s.sbx.update with
    | none => sbxReply s ST.decode 3 []
    | some u =>
      if u.got.length ≠ u.len then sbxReply s ST.decode 3 []
      else
        let f := imageFault u.got s.sbx.shSvn
        if f ≠ 0 then sbxReply (setUpdate s none) ST.denied f []
        else
          let s1 := setUpdate (setSlot (raise s 0x1C0B []) u.slot u.got) none
          let s2 := setSbx s1 { s1.sbx with pref := u.slot, trial := true, due := s1.sbx.due || payNat s 0 1 == 1 }
          sbxReply s2 ST.ok 0 (bytesOf 4 (imgNat u.got 8 4)))

def execFwUpdateCommit (s : State) : Host.Outcome State Fault Refusal := done (updateCommit s)

/-! ### Operating point (R422) -/

def setOp (s : State) : State :=
  withReq s 0x0020 (
    let t := payNat s 0 1
    if !flag s F.CLK_CTRL_ENABLE || flag s F.CLK_STATUS_DRAINING then sbxReply s ST.disabled 0 []
    else if 3 < t then sbxReply s ST.decode 1 []
    else if s.clk.op.isSome then (if (s.clk.op.map (·.sbx)).getD false then s else sbxReply s ST.denied 1 [])
    else if pllBlocks s t then sbxReply s ST.denied 2 []
    else if t = fld s F.CLK_OP_CURRENT then sbxReply s ST.ok 0 (bytesOf 1 t)
    else opBegin s t true)

def execSetOp (s : State) : Host.Outcome State Fault Refusal := done (setOp s)

/-! ### Fuses (R403 to R405) -/

/-- A copy of a write-once field: what it holds, plus one; 0 for blank. -/
def fuseCopy (s : State) (f c : Nat) : Nat := smGet s.sbx.fuses (2 * f + c) 0

/-- A field's shadow as a load takes it: the second copy if it is programmed and good, then the first, else blank (R404). -/
def loadField (s : State) (f : Nat) : Nat :=
  let good := fun c => fuseCopy s f c != 0 && !s.sbx.fuseBad.contains (2 * f + c)
  if good 1 then fuseCopy s f 1 else if good 0 then fuseCopy s f 0 else 0

def setShadow (s : State) (f v : Nat) : State := setSbx s { s.sbx with shadow := smSet s.sbx.shadow f v 0 }

/-- The copy that a write of the field goes into: none where both are used. -/
def blankCopy (s : State) (f : Nat) : Option Nat := if fuseCopy s f 0 = 0 then some 0 else if fuseCopy s f 1 = 0 then some 1 else none

/-- A field programmed into a copy; `good` tells that it reads back as written. -/
def burn (s : State) (f c v : Nat) (good : Bool) : State :=
  let k := 2 * f + c
  let s1 := setSbx s { s.sbx with fuses := smSet s.sbx.fuses k (v + 1) 0, fuseBad := if good then s.sbx.fuseBad else s.sbx.fuseBad ++ [k] }
  setShadow s1 f (loadField s1 f)

/-- The debug lock state (R480): 0 OPEN, 1 LOCKED, 2 UNLOCKED-BY-CHALLENGE. -/
def lockState (s : State) : Nat := fld s F.DBG_STATUS_LOCKSTATE

/-- What follows a field's new shadow. -/
def fieldEffect (s : State) (f : Nat) : State :=
  let s1 := showKeys s
  if f = 3 ∧ smGet s.sbx.shadow 3 0 ≠ 0 ∧ lockState s = 0 then setFld s1 F.DBG_STATUS_LOCKSTATE 1 else s1

/-- An arming serves one request. -/
def disarm (s : State) : State := setSbx s { s.sbx with armed := false }

/-- A write-once field is programmed and answered with [FIELD] and [copy]; event 0x1C07 names the field. -/
def programField (s : State) (f v : Nat) (good : Bool) : State :=
  match (if smGet s.sbx.shadow f 0 ≠ 0 then none else blankCopy s f) with
  | none => sbxReply s ST.denied 2 []
  | some c =>
    let s1 := fieldEffect (burn s f c v good) f
    if good then sbxReply (raise s1 0x1C07 [(1, f)]) ST.ok 0 (bytesOf 1 f ++ bytesOf 1 c) else sbxReply s1 ST.internal 1 []

/-- FW_SVN: a 64-bit thermometer. -/
def programSvn (s : State) (v : Nat) (good : Bool) : State :=
  if v < s.sbx.shSvn then sbxReply s ST.denied 3 []
  else if v = s.sbx.shSvn then sbxReply s ST.ok 0 (bytesOf 1 5 ++ bytesOf 1 0)
  else if good && decide (v ≤ 64) then
    sbxReply (raise (setSbx s { s.sbx with svn := v, shSvn := v }) 0x1C07 [(1, 5)]) ST.ok 0 (bytesOf 1 5 ++ bytesOf 1 0)
  else sbxReply (if v ≤ 64 then s else setSbx s { s.sbx with svn := 64, shSvn := 64 }) ST.internal 1 []

/-- REPAIR (R470). -/
def programRepair (s : State) (r : Nat) (good : Bool) : State :=
  if 256 ≤ s.sbx.repairs.length then sbxReply s ST.denied 2 []
  else if !spareUnclaimed s r then sbxReply s ST.denied 4 []
  else
    let i := s.sbx.repairs.length
    let s1 := setSbx s { s.sbx with repairs := s.sbx.repairs ++ [r], badRep := if good then s.sbx.badRep else s.sbx.badRep ++ [i] }
    let s2 := setFld s1 F.BST_FUSE_USED (i + 1)
    if good then sbxReply (raise (applyEntry s2 r) 0x1C07 [(1, 6)]) ST.ok 0 (bytesOf 1 6 ++ bytesOf 1 0) else sbxReply s2 ST.internal 1 []

/-- VLEN that a field has; 0 for a field that FUSE_PROGRAM does not reach. -/
def fieldLen (f : Nat) : Nat := match f with | 1 => 32 | 2 => 4 | 3 => 4 | 4 => 32 | 5 => 4 | 6 => 8 | _ => 0

/-- FUSE_PROGRAM; `good` tells that the fuses read back as written. DECODE comes before DENIED (R16), and an arming is used only by a
request that reaches it. -/
def fuseProgram (s : State) (good : Bool) : State :=
  withReq s 0x0030 (
    let f := payNat s 0 1
    let n := fieldLen f
    let v := payNat s 4 n
    if n = 0 then sbxReply s ST.decode 2 []
    else if payNat s 2 2 ≠ n ∨ (f = 3 ∧ v ≠ 1) then sbxReply s ST.decode 0 []
    else if f = 6 ∧ recBad v = true then sbxReply s ST.decode 4 []
    else if !s.sbx.armed then sbxReply s ST.denied 1 []
    else if f = 5 then programSvn (disarm s) v good
    else if f = 6 then programRepair (disarm s) v good
    else programField (disarm s) f v good)

def execFuseProgram (good : Bool) (s : State) : Host.Outcome State Fault Refusal := done (fuseProgram s good)

/-- A key-slot change waits while a session is OPEN or VERIFYING (R365). -/
def slotsHeld (s : State) : Bool := fld s F.CFG_STATUS_RESULT == sOPEN || fld s F.CFG_STATUS_RESULT == sVERIFYING

/-- CFG_KEYSLOTS as a word. -/
def keySlotsWord (s : State) : Nat :=
  keySlot s 0 + keySlot s 1 * 4 + keySlot s 2 * 16 + keySlot s 3 * 64 + b2n (smGet s.sbx.shadow 1 0 != 0) * 256

/-- A key-slot field is programmed, shown, reported and answered. -/
def slotChange (s : State) (k act f v : Nat) (good : Bool) : State :=
  let s0 := setSbx s { s.sbx with keyHeld := false }
  match blankCopy s0 f with
  | none => sbxReply s0 ST.denied 2 []
  | some c =>
    let s1 := showKeys (burn s0 f c v good)
    if good then sbxReply (raise s1 0x1C08 [(1, k), (1, act)]) ST.ok 0 (bytesOf 4 (keySlotsWord s1)) else sbxReply s1 ST.internal 1 []

/-- KEY_SLOT with an ACTION. Any other SLOT, ACTION or state of the slot is DENIED (R405). Arming and the slot are judged when the
request comes, which uses the arming; a change then waits for the session (R365). -/
def keySlotReq (s : State) (act : Nat) (good : Bool) : State :=
  withReq s 0x0031 (
    let k := payNat s 0 1
    let a := payNat s 1 1
    if a = (3 - act) then s
    else if !s.sbx.armed && !s.sbx.keyHeld then sbxReply s ST.denied 1 []
    else if 3 < k ∨ a ≠ act ∨ (if act = 1 then keySlot s k ≠ 0 else keySlot s k = 2) then sbxReply (disarm s) ST.denied 2 []
    else if slotsHeld s then setSbx s { s.sbx with armed := s.sbx.armed && s.sbx.keyHeld, keyHeld := true }
    else if act = 1 then slotChange (keyDisarm s) k 1 (0x10 + k) (payNat s 4 32) good
    else slotChange (keyDisarm s) k 2 (0x20 + k) 1 good)
where
  /-- A request that has waited has used its arming already. -/
  keyDisarm (s : State) : State := if s.sbx.keyHeld then s else disarm s

def execKeySlotProgram (good : Bool) (s : State) : Host.Outcome State Fault Refusal := done (keySlotReq s 1 good)
def execKeySlotRevoke (good : Bool) (s : State) : Host.Outcome State Fault Refusal := done (keySlotReq s 2 good)

/-- A write of SBX_FUSE_ARM. -/
def fuseArm (s : State) (v : Nat) : State := if v = 0xF05E then setSbx s { s.sbx with armed := true } else s

def execSbxFuseArm (value : Word) (s : State) : Host.Outcome State Fault Refusal := done (fuseArm s value.toNat)
def execFuseArmExpire (s : State) : Host.Outcome State Fault Refusal := done (disarm s)

/-! ### Debug unlocking (R406, R481) -/

/-- A fresh nonce replaces any earlier one. -/
def newNonce (s : State) : State := setSbx (drawn s) { s.sbx with nonce := some (freeOf s % 2 ^ 256) }

/-- The key of a RESPOND: the ROM key, or PUBKEY where its hash matches DEBUG_KEY. -/
def respondKey (s : State) (sel : Bool) (pub : Nat) : Option (List Byte) :=
  if !sel then some Config.debugKey
  else if smGet s.sbx.shadow 4 0 ≠ 0 ∧ sha512 (bytesOf 32 pub) % 2 ^ 256 = shadowOf s 4 then some (bytesOf 32 pub)
  else none

/-- A RESPOND is judged: its STATUS and DETAIL, and the state it leaves. A nonce serves one RESPOND. -/
def respond0 (s : State) (sel : Bool) (sig pub : Nat) : Nat × Nat × State :=
  if lockState s = 0 then (ST.ok, 0, s)
  else match s.sbx.nonce with
    | none => (ST.denied, 1, raise s 0x1E05 [])
    | some n =>
      let s1 := setSbx s { s.sbx with nonce := none }
      match respondKey s sel pub with
      | some k =>
        if ed25519 k (bytesOf 32 n ++ bytesOf 8 serial) (bytesOf 64 sig) then (ST.ok, 0, setFld (raise s1 0x1C09 []) F.DBG_STATUS_LOCKSTATE 2)
        else (ST.denied, 2, raise s1 0x1E05 [])
      | none => (ST.denied, 2, raise s1 0x1E05 [])

def unlockNonce (s : State) : State :=
  withReq s 0x0040 (
    if payNat s 0 1 ≠ 0 then s
    else
      let s1 := newNonce s
      sbxReply s1 ST.ok 0 (bytesOf 32 (s1.sbx.nonce.getD 0)))

def execDebugUnlockNonce (s : State) : Host.Outcome State Fault Refusal := done (unlockNonce s)

def unlockRespond (s : State) : State :=
  withReq s 0x0040 (
    if payNat s 0 1 ≠ 1 then s
    else
      let r := respond0 s (flag s F.DBG_KEYSEL_KEYSEL) (payNat s 4 64) (fld s F.DBG_PUBKEY_PUBKEY)
      sbxReply r.2.2 r.1 r.2.1 [])

def execDebugUnlockRespond (s : State) : Host.Outcome State Fault Refusal := done (unlockRespond s)

def execNonceExpire (s : State) : Host.Outcome State Fault Refusal := done (setSbx s { s.sbx with nonce := none })

/-! ### Responses, starts and the mirror (R388, R394, R398, R399, R407, R408) -/

/-- BUSY clears and DONE sets, vector 3 pends; a disable that waited ends. -/
def mbDone (s : State) : State :=
  let s1 := if flag s F.SBX_STATUS_DRAINING then setFld (setFld s F.SBX_CTRL_ENABLE 0) F.SBX_STATUS_DRAINING 0 else s
  setFld (setFld (pendVec (setSbx s1 { s1.sbx with resp := none }) 3) F.SBX_MB_STATUS_DONE 1) F.SBX_MB_STATUS_BUSY 0

/-- The response over the request: CMD and TAG stay, LEN, STATUS, DETAIL and the payload are the response's. -/
def writeResp (s : State) (r : MbResp) : State :=
  let s1 := putMb (putMb (putMb (putMb s 2 (r.pay.length % 256)) 3 (r.pay.length / 256)) 8 r.st) 9 r.det
  (List.range r.pay.length).foldl (fun s i => putMb s (16 + i) (r.pay.getD i 0).toNat) s1

/-- A start from ROM begins: the firmware has stopped. -/
def startFromRom (s : State) : State :=
  let s1 := setUpdate (setSbx s { s.sbx with due := true, nonce := none, resp := none, keyHeld := false }) none
  setFld (setFld (setFld s1 F.SBX_STATUS_READY 0) F.SBX_STATUS_RECOVERY 0) F.SBX_STATUS_TRIAL 0

/-- The firmware writes the response; a request that no command serves is answered at once. -/
def sbxResponse (s : State) : State :=
  if !flag s F.SBX_MB_STATUS_BUSY || !sbxReady s then s
  else
    let due := s.sbx.due
    match s.sbx.resp with
    | some r =>
      let s1 := mbDone (writeResp s r)
      if due then startFromRom s1 else s1
    | none => match reqRefused s with
      | some x => mbDone (writeResp s ⟨x.1, x.2, []⟩)
      | none => s

def execSbxResponse (s : State) : Host.Outcome State Fault Refusal := done (sbxResponse s)

/-- The Signal Box alone restarts: a request in progress completes with RESET (R399, R408). -/
def sbxRestart (s : State) : State :=
  let s1 := if flag s F.SBX_MB_STATUS_BUSY then mbDone (writeResp s ⟨ST.reset, 0, []⟩) else s
  startFromRom s1

/-- A BLOCK reset of SBX: the restart, an arming dropped, and its registers at their reset values (R9) but those of the log writer and
the machine watchdog and the response in the mailbox (R408). -/
def sbxBlockReset (s : State) : State :=
  let s1 := disarm (sbxRestart s)
  let s2 := setFld (setFld (setFld s1 F.SBX_CTRL_ENABLE 1) F.SBX_CTRL_LOCK 0) F.SBX_STATUS_DRAINING 0
  setFld (setFld s2 F.SBX_MB_STATUS_REJECTED 0) F.SBX_MIRROR_LOST 0

/-- A slot's image runs. -/
def runSlot (s : State) (k : Nat) (fallback : Bool) : State :=
  let s0 := if fallback then raise (setSbx s { s.sbx with pref := k, trial := false }) 0x1C03 [] else s
  let s1 := raise s0 0x1C02 [(1, k), (4, slotVersion s k), (4, s0.sbx.boots)]
  setFld (setFld (setFld s1 F.SBX_STATUS_SLOT k) F.SBX_STATUS_TRIAL (b2n s1.sbx.trial)) F.SBX_STATUS_READY 1

/-- The start from ROM (R398). -/
def sbxBoot (s : State) : State :=
  if !s.sbx.due || sbxReady s then s
  else
    let x := { s.sbx with due := false, porStart := false, other := false, boots := if s.sbx.porStart && s.sbx.flash then s.sbx.boots + 1 else s.sbx.boots }
    let s1 := setSbx s x
    let p := s.sbx.pref
    if !s.sbx.other && imageGood s p then runSlot s1 p false
    else if imageGood s (1 - p) then runSlot s1 (1 - p) true
    else if imageGood s p then runSlot s1 p false
    else setFld (setFld (setFld (raise s1 0x1C03 []) F.SBX_STATUS_SLOT 0) F.SBX_STATUS_RECOVERY 1) F.SBX_STATUS_READY 1

def execSbxBoot (s : State) : Host.Outcome State Fault Refusal := done (sbxBoot s)

/-- 10 s after the start of a trial image: it has cleared TRIAL, or the next start boots the other slot. -/
def trialTimeout (s : State) (cleared : Bool) : State :=
  if !flag s F.SBX_STATUS_TRIAL then s
  else if cleared then setFld (setSbx s { s.sbx with trial := false }) F.SBX_STATUS_TRIAL 0
  else setSbx s { s.sbx with other := true }

def execTrialTimeout (cleared : Bool) (s : State) : Host.Outcome State Fault Refusal := done (trialTimeout s cleared)

/-- The internal watchdog is not serviced. -/
def fwHang (s : State) : State :=
  if !fwRuns s then s
  else
    let s1 := if flag s F.SBX_STATUS_TRIAL then setSbx s { s.sbx with other := true } else s
    sbxBlockReset (raise s1 0x1C04 [])

def execFwHang (s : State) : Host.Outcome State Fault Refusal := done (fwHang s)

/-- A record reaches the mirror; a sector is erased before it is reused (R394). -/
def mirrorCopy (s : State) : State :=
  if !s.sbx.flash || !fwRuns s then s
  else match s.mirrorQ with
    | [] => s
    | r :: t =>
      let x := s.sbx
      let old := if x.mirrored % 127 = 0 ∧ 65024 ≤ x.mirror.length then x.mirror.take (511 * 127) else x.mirror
      let s1 := setSbx { s with mirrorQ := t } { x with mirror := r :: old, mirrored := x.mirrored + 1, lost := false }
      if x.lost then raise s1 0x1C0A [] else s1

def execMirrorCopy (s : State) : Host.Outcome State Fault Refusal := done (mirrorCopy s)

/-- A merge window of an event ends (R539). -/
def mergeWindowEnd (s : State) (code scope : Nat) : State :=
  match s.windows.find? fun w => w.code == code && w.scope == scope with
  | none => s
  | some w =>
    if w.count = 0 then { s with windows := s.windows.filter fun v => !(v.code == code && v.scope == scope) }
    else
      let s1 := writeEvent s code w.count w.time w.items false
      { s1 with windows := s1.windows.map fun v => if v.code == code && v.scope == scope then { v with count := 0, time := 0, items := [] } else v }

def execMergeWindowEnd (code : BitVec 16) (scope : BitVec 32) (s : State) : Host.Outcome State Fault Refusal :=
  done (mergeWindowEnd s code.toNat scope.toNat)

/-- Clearing SBX_CTRL.ENABLE. -/
def sbxDisable (s : State) : State :=
  if !flag s F.SBX_CTRL_ENABLE then s
  else if flag s F.SBX_MB_STATUS_BUSY then setFld s F.SBX_STATUS_DRAINING 1
  else setFld s F.SBX_CTRL_ENABLE 0

def execSbxDisable (s : State) : Host.Outcome State Fault Refusal := done (sbxDisable s)

/-! ### The machine watchdog (R400) -/

/-- PERIOD in ms; lower values are taken as 10. -/
def wdogPeriod (s : State) : Nat := max 10 (fld s F.SBX_WDOG_CFG_PERIOD)

/-- The watchdog counts: it is enabled, and not paused by a power state. -/
def wdogRuns (s : State) : Bool := flag s F.SBX_WDOG_CFG_ENABLE && decide (pwrState s ≤ wIDLE)

/-- A kick. -/
def wdogKick (s : State) (v : Nat) : State :=
  if !flag s F.SBX_WDOG_CFG_ENABLE then s
  else if v = (if s.sbx.kick then 0xA5A5 else 0x5A5A) then
    setFld (setSbx s { s.sbx with kick := !s.sbx.kick }) F.SBX_WDOG_STATUS_REMAIN (wdogPeriod s)
  else satInc s F.SBX_WDOG_STATUS_BADKICK

def execWdogKick (value : BitVec 16) (s : State) : Host.Outcome State Fault Refusal := done (wdogKick s value.toNat)

/-- Half of PERIOD remains. -/
def wdogWarn (s : State) : State := if wdogRuns s then setFld (raise s 0x1C05 []) F.SBX_WDOG_STATUS_REMAIN (wdogPeriod s / 2) else s

def execWdogWarn (s : State) : Host.Outcome State Fault Refusal := done (wdogWarn s)

end Sys2Proof.Machine
end

