-- ==== Sys2Proof/Machine/Debug.lean ====
section
/-! DEFINITION. The debug port (chapter 25): the TAP, unlocking, thread and region controls, captures, frame writes and
disabling. The access of DBG_ACCESS itself stands with the bus. -/
namespace Sys2Proof.Machine

/-- The debug port replaced. -/
def setDbg (s : State) (x : Dbg) : State := { s with dbg := x }

/-- DBG_CTRL.ENABLE reads 1, and is not being cleared (R493). -/
def dbgOn (s : State) : Bool := flag s F.DBG_CTRL_ENABLE && !flag s F.DBG_STATUS_DRAINING

/-- The controls of the DBG registers act: the block is on, and the lock state lets them be written (R480, R493). -/
def dbgOpen (s : State) : Bool := dbgOn s && lockState s != 1

/-! ### The TAP (R477 to R479) -/

/-- What Capture-IR loads: 0b0000_BL01. -/
def irCapture (s : State) : Nat := 1 + 4 * b2n (lockState s == 1) + 8 * b2n s.dbg.acc.busy

/-- EXTEST, CLAMP and HIGHZ may take effect. -/
def scanAllowed (s : State) : Bool := bstopState s == bSTOPPED

/-- An instruction is loaded; `k` is the scan instruction it is (0 none). -/
def loadIr (s : State) (code k : Nat) : State :=
  let s1 := setDbg s { s.dbg with irOut := irCapture s, ir := code, scan := if scanAllowed s then k else 0 }
  if k ≠ 0 ∧ scanAllowed s = false then raise s1 0x1E04 [] else s1

/-- A scan of the boundary scan register: the levels at the pins are inputs of the device, free values here. -/
def scanBoundary (s : State) (data : Nat) : State :=
  setDbg (drawn s) { s.dbg with tdo := freeOf s % 2 ^ 898, bsr := data % 2 ^ 898 }

/-- A scan of the bypass register, which captures 0. -/
def scanBypass (s : State) : State := setDbg s { s.dbg with tdo := 0 }

/-- The TAP is reset: IDCODE, and every data register at its reset state. An access or a RESPOND in progress goes on. -/
def tapReset (s : State) : State :=
  setDbg s { s.dbg with ir := 1, irOut := 0, tdo := 0, scan := 0, sel := 0, detail := 0, bsr := 0, acc := if s.dbg.acc.busy then s.dbg.acc else {} }

def execTestLogicReset (s : State) : Host.Outcome State Fault Refusal := done (tapReset s)

def execExtest (data : BitVec 898) (s : State) : Host.Outcome State Fault Refusal := done (scanBoundary (loadIr s 0 1) data.toNat)
def execIdcode (s : State) : Host.Outcome State Fault Refusal :=
  done (let s1 := loadIr s 1 0; setDbg s1 { s1.dbg with tdo := 0x23960E65 })
def execSamplePreload (data : BitVec 898) (s : State) : Host.Outcome State Fault Refusal := done (scanBoundary (loadIr s 2 0) data.toNat)

/-- CLAMP and HIGHZ select the bypass register, or act as SAMPLE/PRELOAD. -/
def scanHold (s : State) (code k data : Nat) : State :=
  let s1 := loadIr s code k
  if scanAllowed s then scanBypass s1 else scanBoundary s1 data

def execJtagClamp (data : BitVec 898) (s : State) : Host.Outcome State Fault Refusal := done (scanHold s 3 2 data.toNat)
def execHighz (data : BitVec 898) (s : State) : Host.Outcome State Fault Refusal := done (scanHold s 4 3 data.toNat)

/-- The codes of R478 that name another instruction than BYPASS. -/
def tapCodes : List Nat := [0x00, 0x01, 0x02, 0x03, 0x04, 0x10, 0x11, 0x12]

/-- BYPASS, by its own code or by any code that R478 does not list. -/
def execBypass (code : BitVec 8) (s : State) : Host.Outcome State Fault Refusal :=
  done (scanBypass (loadIr s (if tapCodes.contains code.toNat then 0xFF else code.toNat) 0))

/-- What a scan instruction makes of a pin of a bank: its output and whether it drives; none where no scan instruction
holds the pins. -/
def scanPin (s : State) (b n : Nat) : Option (Bool × Bool) :=
  let cell := fun k => bitOf s.dbg.bsr (Config.bsdlCell (96 * b + 3 * n + k) % 898)
  if !scanAllowed s then none
  else match s.dbg.scan with
    | 0 => none
    | 3 => some (false, false)
    | _ => some (cell 1, cell 2)

/-! ### DBG_SELECT, DBG_ACCESS and DBG_UNLOCK (R481 to R483) -/

/-- SPACE, ENGINE and THREAD of DBG_SELECT. -/
def selSpace (s : State) : Nat := bits s.dbg.sel 0 2
def selEngine (s : State) : Nat := bits s.dbg.sel 2 7
def selThread (s : State) : Nat := bits s.dbg.sel 9 2

def execDbgSelect (value : BitVec 16) (s : State) : Host.Outcome State Fault Refusal :=
  done (let s1 := loadIr s 0x10 0; setDbg s1 { s1.dbg with tdo := s.dbg.sel, sel := value.toNat % 2 ^ 11 })

/-- What Capture-DR of DBG_ACCESS returns. -/
def accCapture (a : DbgAcc) : Nat :=
  a.data + a.addr * 2 ^ 64 + a.st * 2 ^ 112 + b2n a.done * 2 ^ 116 + b2n a.busy * 2 ^ 117

/-- A scan of DBG_ACCESS. With GO an access starts: denied while LOCKED; a GO while one is in progress, or while the block
is disabled, has no effect. -/
def dbgAccess (s : State) (data addr be : Nat) (write go : Bool) : State :=
  let s1 := loadIr s 0x11 0
  let s2 := setDbg s1 { s1.dbg with tdo := accCapture s.dbg.acc }
  if !go || s.dbg.acc.busy || !dbgOn s then s2
  else if lockState s = 1 then setDbg s2 { s2.dbg with acc := ⟨addr, be, write, data, ST.denied, true, false⟩ }
  else setDbg s2 { s2.dbg with acc := ⟨addr, be, write, data, 0, false, true⟩ }

def execDbgAccess (data : BitVec 64) (addr : BitVec 48) (be : BitVec 8) (write go : Bool) (s : State) : Host.Outcome State Fault Refusal :=
  done (dbgAccess s data.toNat addr.toNat be.toNat write go)

/-- The debug port's access that waits for a fill is no longer awaited. -/
def dropDebug (s : State) : State :=
  { s with cache := { s.cache with fills := s.cache.fills.map fun f =>
      { f with accs := f.accs.map fun c => if c.client = .debug then { c with client := .gone } else c } } }

/-- No response within 1 ms. -/
def execDbgAccessTimeout (s : State) : Host.Outcome State Fault Refusal :=
  done (if s.dbg.acc.busy then dropDebug (dbgEnd s ST.timeout 0) else s)

/-- What Capture-DR of DBG_UNLOCK returns. -/
def unlockCapture (s : State) : Nat :=
  (s.sbx.nonce.getD 0) % 2 ^ 256 + lockState s * 2 ^ 256 + s.dbg.detail % 256 * 2 ^ 258 + b2n s.dbg.respond.isSome * 2 ^ 266

/-- A scan of DBG_UNLOCK: the capture comes before the action of Update-DR. -/
def unlockScan (s : State) : State := let s1 := loadIr s 0x12 0; setDbg s1 { s1.dbg with tdo := unlockCapture s }

def execDbgUnlockNonce (s : State) : Host.Outcome State Fault Refusal := done (newNonce (unlockScan s))

/-- RESPOND takes the live nonce with it, since a nonce serves one RESPOND; where the lock state is OPEN it changes nothing (R406). -/
def tapRespond (s : State) (sel : Bool) (sig pub : Nat) : State :=
  let s1 := unlockScan s
  if s.dbg.respond.isSome then s1
  else setSbx (setDbg s1 { s1.dbg with respond := some ⟨sel, sig, pub, s.sbx.nonce⟩ }) { s1.sbx with nonce := if lockState s = 0 then s.sbx.nonce else none }

def execDbgUnlockRespond (keysel : Bool) (signature : BitVec 512) (pubkey : BitVec 256) (s : State) : Host.Outcome State Fault Refusal :=
  done (tapRespond s keysel signature.toNat pubkey.toNat)

/-- The verification of a RESPOND on the TAP ends. -/
def unlockVerified (s : State) : State :=
  match s.dbg.respond with
  | none => s
  | some x =>
    let r := respond0 (setSbx s { s.sbx with nonce := x.nonce }) x.sel x.sig x.pub
    let s1 := setSbx r.2.2 { r.2.2.sbx with nonce := s.sbx.nonce }
    setDbg s1 { s1.dbg with respond := none, detail := r.2.1 }

def execUnlockVerifyDone (s : State) : Host.Outcome State Fault Refusal := done (unlockVerified s)

/-! ### Threads (R485, R487) -/

def execThreadHalt (n : Fin 96) (t : Fin 4) (s : State) : Host.Outcome State Fault Refusal :=
  done (if dbgOpen s then haltRequest s n t else s)

/-- A halted thread goes on. After a halt at a BRK a RESUME continues behind it. -/
def resumeThread (s : State) (n t : Nat) : State :=
  if halted s n t then
    let x := thread s n t
    let skip := haltCause s n t == 4 && thrState s n t == tRUN && decide (fetched s n t / 2 ^ 26 = 0x30) && bits (fetched s n t) 14 4 == 4
    setHalted (setThread s n t { x with go := true, pc := if skip then x.pc + 4 else x.pc }) n t false
  else s

/-- One instruction of a halted thread issues. -/
def stepThread (s : State) (n t : Nat) : State :=
  if halted s n t then setHalted (setThread s n t { thread s n t with go := true, step := true }) n t false else s

def execThreadStep (n : Fin 96) (t : Fin 4) (s : State) : Host.Outcome State Fault Refusal :=
  done (if dbgOpen s then stepThread s n t else s)
def execThreadResume (n : Fin 96) (t : Fin 4) (s : State) : Host.Outcome State Fault Refusal :=
  done (if dbgOpen s then resumeThread s n t else s)

/-! ### Regions (R488 to R491) -/

/-- The region becomes frozen. -/
def freezeNow (s : State) (r : Nat) : State := raise (setFld s (F.DBG_REGr_STATUS_FROZEN r) 1) 0x1E02 []

/-- The requests of a region's start that wait on rail 8 are withdrawn. -/
def dropStart (s : State) (r : Nat) : State := r8Withdraw s fun x => x == R8Req.regionStart r

/-- A sleeping region freezes at once, with no edge, and is no longer asleep. -/
def freezeAsleep (s : State) (r : Nat) : State :=
  let s1 := setFld (setFld s (F.FAB_REGr_STATUS_SLEEPING r) 0) (F.FAB_REGr_CTRL_WAKE r) 0
  freezeNow (dropStart (setRegion s1 r { region s1 r with owed := 0 }) r) r

/-- A write of FREEZE = 1; a frozen region about to resume stays frozen. -/
def regionFreeze (s : State) (r : Nat) : State :=
  if regState s r ≠ gRELEASED then s
  else
    let s1 := setFld s (F.DBG_REGr_CTRL_FREEZE r) 1
    if regFrozen s1 r then dropStart s1 r
    else if regAsleep s1 r then freezeAsleep s1 r
    else setRegion s1 r { region s1 r with gateReq := false }

def execRegionFreeze (r : Fin 72) (s : State) : Host.Outcome State Fault Refusal := done (if dbgOpen s then regionFreeze s r else s)

/-- The freeze edge, the last edge given; a region that fell asleep meanwhile has none. -/
def freezeEdge (s : State) (r : Nat) : State :=
  if !flag s (F.DBG_REGr_CTRL_FREEZE r) || regFrozen s r then s
  else if regAsleep s r && regRuns s r then freezeAsleep s r
  else if regTicks s r && regClkEn s r 0 then freezeNow (clock0Edge s r) r
  else s

def execFreezeEdge (r : Fin 72) (s : State) : Host.Outcome State Fault Refusal := done (freezeEdge s r)

/-- A write of FREEZE = 0: a frozen region requests its start on rail 8. -/
def regionUnfreeze (s : State) (r : Nat) : State :=
  let s1 := setFld s (F.DBG_REGr_CTRL_FREEZE r) 0
  if regFrozen s r then r8Request s1 (.regionStart r) else s1

def execRegionUnfreeze (r : Fin 72) (s : State) : Host.Outcome State Fault Refusal := done (if dbgOpen s then regionUnfreeze s r else s)

/-- A pulse of the region waits on rail 8. -/
def pulseWaits (s : State) (r : Nat) : Bool := s.dsp.r8queue.any fun x => match x with | .regionPulse q _ => q == r | _ => false

/-- A write of PULSE. -/
def regionPulse (s : State) (r n : Nat) : State :=
  if n = 0 ∨ regFrozen s r = false ∨ flag s (F.DBG_REGr_STATUS_PULSING r) = true ∨ pulseWaits s r = true then s
  else r8Request s (.regionPulse r n)

def execRegionPulse (r : Fin 72) (edges : BitVec 16) (s : State) : Host.Outcome State Fault Refusal :=
  done (if dbgOpen s then regionPulse s r edges.toNat else s)

/-- The last edge of a pulse, with those of its N edges of region clock 0 that have not come yet. -/
def edgesDone (s : State) (r : Nat) : State :=
  if flag s (F.DBG_REGr_STATUS_PULSING r) && regTicks s r && regClkEn s r 0 then
    let n := smGet s.dbg.pulses r 0
    let s1 := forEach (List.range n) (fun s _ => clock0Edge s r) s
    let s2 := satAdd (setFld s1 (F.DBG_REGr_STATUS_PULSING r) 0) (F.DBG_REGr_STATUS_EDGES r) n
    setDbg s2 { s2.dbg with pulses := smSet s2.dbg.pulses r 0 0 }
  else s

def execPulseEnd (r : Fin 72) (s : State) : Host.Outcome State Fault Refusal := done (edgesDone s r)

/-- The flip-flops of a tile as DBG_CAP_DATA shows them: bit 8c + 4f + k. -/
def captureBits (s : State) (r tile : Nat) : Nat :=
  let pv := (List.range 4).map fun k => if ctxLoaded s r k then smGet (region s r).priv (800 * k + tile) 0 else 0
  (List.range 128).foldr (fun i v =>
    let own := ffPriv (ffFields (liveFrame s r tile) i)
    (List.range 4).foldr (fun k w =>
      b2n (if own && k != ctxOf s r then bitOf (pv.getD k 0) i else ffOut s (signal s) r tile i) + 2 * w) (16 * v)) 0

/-- A write of CAPTURE. -/
def regionCapture (s : State) (r : Nat) : State :=
  if regFrozen s r && !flag s (F.DBG_REGr_STATUS_PULSING r) then
    setFld (setFld s F.DBG_CAP_DATA_FLOPS (captureBits s r (fld s (F.DBG_REGr_CAP_TILE r)))) (F.DBG_REGr_STATUS_CAPSTAT r) ST.ok
  else setFld s (F.DBG_REGr_STATUS_CAPSTAT r) ST.denied

def execRegionCapture (r : Fin 72) (s : State) : Host.Outcome State Fault Refusal := done (if dbgOpen s then regionCapture s r else s)

/-! ### Frame writes (R492) -/

/-- The 2,056 bytes placed at DBG_FRAME. -/
def dbgFrame (s : State) : Nat := (List.range 514).foldr (fun i v => fld s (F.DBG_FRAMEi_WORD i) + v * 2 ^ 32) 0

/-- The conditions under which a frame may be written. -/
def frameMay (s : State) (a : Nat) : Bool :=
  let r := fRegion a
  (fKind a == kLOGIC || fKind a == kMODES) && fDie a != 0 && decide (fReg a < 24)
  && planeReady s r (fCtx a) && !planeActive s r (fCtx a) && !bitOf (fld s F.CFG_ENC_REGIONS_REGIONS) r

/-- Rows 1, 2, 4 and 5 of R344; 0 where the frame passes. -/
def frameCheck (s : State) (v : Nat) : Nat :=
  let a := bits v 0 32
  let f := bits v 32 16384
  let logic := fKind a == kLOGIC
  if bits v 16416 32 != crc32c 2052 (v % 2 ^ 16416) then 1
  else if addrBad a then 2
  else if logic && sharingBad s (fRegion a) (fCtx a) (fTile a) f then 4
  else if logic && contends s (fRegion a) (fCtx a) (fTile a) f then 5
  else 0

/-- A debug frame is written; its plane stays READY. -/
def frameWrite (s : State) (a f : Nat) : State :=
  let r := fRegion a
  let k := fCtx a
  let s1 := if fKind a = kLOGIC then makeClaims s r k (fTile a) f else s
  let s2 := writeFrame s1 (fKind a) r k (fTile a) f
  let p := (region s2 r).patched
  let s3 := setRegion s2 r { region s2 r with patched := if p.contains k then p else p ++ [k] }
  raise (setFld s3 F.DBG_PATCHED_REGIONS (putBits (fld s3 F.DBG_PATCHED_REGIONS) r 1 1)) 0x1E03 []

/-- The write ends with its statuses. -/
def frameEnd (s : State) (st fst_ : Nat) : State :=
  setFld (setFld (setFld (setFld s F.DBG_FRAME_CTRL_GO 0) F.DBG_FRAME_CTRL_STATUS st) F.DBG_FRAME_CTRL_FSTAT fst_) F.DBG_FRAME_CTRL_DONE 1

/-- A write of DBG_FRAME_CTRL.GO; it waits while the frame's configuration die is in DIE reset. -/
def frameGo (s : State) : State :=
  let v := dbgFrame s
  let a := bits v 0 32
  if !frameMay s a then frameEnd s ST.denied 0
  else if dieInReset s (confPos (fDie a)) then setFld s F.DBG_FRAME_CTRL_GO 1
  else
    let c := frameCheck s v
    if c ≠ 0 then frameEnd (if c = 5 then satInc s F.CFG_VT_STATS_REJECTS else s) ST.decode c else frameEnd (frameWrite s a (bits v 32 16384)) ST.ok 0

def execDbgFrameGo (s : State) : Host.Outcome State Fault Refusal := done (if dbgOpen s then frameGo s else s)

/-! ### Disabling and reset (R493) -/

/-- Every halted thread resumes, and halts that wait are dropped. -/
def resumeAll (s : State) : State :=
  forEach (List.range 96) (fun s n => forEach [0, 1, 2, 3] (fun s t => setHaltPending (resumeThread s n t) n t false) s) s

/-- Every frozen region asks to resume, and freezes that have not taken effect are dropped. -/
def unfreezeAll (s : State) : State :=
  forEach (List.range 72) (fun s r => if regFrozen s r || flag s (F.DBG_REGr_CTRL_FREEZE r) then regionUnfreeze s r else s) s

/-- No access or pulse is in flight and no region is frozen. -/
def dbgDrained (s : State) : Bool :=
  !s.dbg.acc.busy && (List.range 72).all fun r => !regFrozen s r && !flag s (F.DBG_REGr_STATUS_PULSING r)

/-- Draining has ended. -/
def dbgDrainEnd (s : State) : State := setFld (setFld s F.DBG_CTRL_ENABLE 0) F.DBG_STATUS_DRAINING 0

/-- Clearing DBG_CTRL.ENABLE. -/
def dbgDisable (s : State) : State :=
  if !flag s F.DBG_CTRL_ENABLE then s
  else
    let s1 := unfreezeAll (resumeAll s)
    if dbgDrained s1 then dbgDrainEnd s1 else setFld s1 F.DBG_STATUS_DRAINING 1

def execDbgDisable (s : State) : Host.Outcome State Fault Refusal := done (dbgDisable s)

/-- A BLOCK reset of DBG: as a disable, and its registers then take their reset values, apart from the lock state and the
status of regions still to resume. -/
def dbgReset (s : State) : State :=
  let s1 := unfreezeAll (resumeAll s)
  let s2 := setFld (resetBlockRegs s1 0x1E) F.DBG_STATUS_LOCKSTATE (lockState s1)
  forEach (List.range 72) (fun s r =>
    setFld (setFld s (F.DBG_REGr_STATUS_FROZEN r) (fld s1 (F.DBG_REGr_STATUS_FROZEN r))) (F.DBG_REGr_STATUS_PULSING r)
      (fld s1 (F.DBG_REGr_STATUS_PULSING r))) s2

end Sys2Proof.Machine
end

