-- ==== Sys2Proof/Machine/Pcie.lean ====
section
/-! DEFINITION. The PCI Express endpoint (chapter 18): configuration space, BAR2, user functions, MSI-X, power states and
host resets. BAR0 stands with the bus. -/
namespace Sys2Proof.Machine

/-- The endpoint replaced. -/
def setPci (s : State) (x : Pci) : State := { s with pci := x }

/-- The link is in L0 or L1. -/
def linkUp (s : State) : Bool := flag s F.PCI_STATUS_LINK_UP

/-- A completion is returned to the host. -/
def complete (s : State) (st : CplSt) (ep : Bool) (len data : Nat) : State := setPci s { s.pci with cpls := ⟨st, ep, len, data⟩ :: s.pci.cpls }

/-- A completion without data. -/
def refuse (s : State) (st : CplSt) : State := complete s st false 0 0

/-- PCI_CTRL.ENABLE reads 1 and is not being cleared. -/
def pciOn (s : State) : Bool := flag s F.PCI_CTRL_ENABLE && !flag s F.PCI_STATUS_DRAINING

/-- User function f answers the host: it is visible, and function 0 is ready (R264, R351, R383). -/
def ufShown (s : State) (f : Nat) : Bool := s.pci.ready && ufVisible s f

/-! ### The link and power (R369, R381) -/

/-- The link reaches L0, or its speed or width changes. -/
def pciLink (s : State) (speed width : Nat) : State :=
  if s.pci.perst || s.pci.hot then s
  else
    let same := linkUp s && !s.pci.l1 && fld s F.PCI_STATUS_SPEED == speed && fld s F.PCI_STATUS_WIDTH == width
    let s1 := setFld (setFld (setFld s F.PCI_STATUS_LINK_UP 1) F.PCI_STATUS_SPEED speed) F.PCI_STATUS_WIDTH width
    let s2 := setPci s1 { s1.pci with l1 := false }
    if same then s2 else raise s2 0x2001 []

def execLinkUp (speed : Fin 4) (width : Fin 3) (s : State) : Host.Outcome State Fault Refusal :=
  done (pciLink s (speed + 1) (2 ^ width.val))

/-- Function 0 has no request outstanding. -/
def hostIdle (s : State) : Bool :=
  s.cache.fills.isEmpty && (List.range 16).all fun k => (ring s k).all fun d => !d.started || d.fin.isSome

/-- The codes under which a function's plain control registers are kept. -/
def cDEV := 1
def cDEV2 := 2
def cLINK := 3
def cLINK2 := 4

/-- What such a register holds at reset. -/
def ctlReset (c : Nat) : Nat := if c = cDEV then 0x2010 else if c = cLINK2 then 4 else 0

/-- A plain control register of a function. -/
def ctlOf (s : State) (f c : Nat) : Nat := smGet (pciFn s f).ctl c (ctlReset c)

/-- The link enters L1 under ASPM. -/
def l1Entry (s : State) : State :=
  if linkUp s && hostIdle s && bitOf (ctlOf s 0 cLINK) 1 then setPci s { s.pci with l1 := true } else s

def execL1Entry (s : State) : Host.Outcome State Fault Refusal := done (l1Entry s)

/-- Function 0 enters D3hot. -/
def d3Enter (s : State) : State :=
  if (pciFn s 0).d3 then s
  else bmeClear (setFld (setPciFn (raise s 0x2005 []) 0 { pciFn s 0 with d3 := true }) F.PCI_STATUS_D3HOT 1)

def execD3hotEnter (s : State) : Host.Outcome State Fault Refusal := done (d3Enter s)

/-- Function 0 returns to D0. -/
def d0Return (s : State) : State :=
  if !(pciFn s 0).d3 then s
  else
    let s1 := setFld (setPciFn s 0 { pciFn s 0 with d3 := false }) F.PCI_STATUS_D3HOT 0
    if (pciFn s 0).bme then bmeSet s1 else s1

def execD0Return (s : State) : Host.Outcome State Fault Refusal := done (d0Return s)

/-! ### Configuration space (R370, R372, R376) -/

/-- The identity of a user function. -/
def ufId (s : State) (f : Nat) : UfIdent := (pciFn s f).ident.getD ⟨0, 0, 0, 0, 0, false, false⟩

/-- log2 of the size of a function's BAR (0 or 2); 0 for a BAR that is absent. -/
def barSize (s : State) (f k : Nat) : Nat :=
  if f = 0 then (if k = 0 then 24 else 28)
  else if k = 0 then (if (ufId s f).size0 = 0 then 13 else (ufId s f).size0)
  else (ufId s f).size2

/-- The BAR is prefetchable. -/
def barPf (s : State) (f k : Nat) : Bool := if f = 0 then k == 2 else if k = 0 then (ufId s f).pf0 else (ufId s f).pf2

/-- What a BAR register reads: 64-bit memory BARs at 0 and 2, and nothing above. -/
def barRead (s : State) (f k : Nat) : Nat :=
  let v := smGet (pciFn s f).bars k 0
  if 4 ≤ k then 0
  else
    let n := barSize s f (k / 2 * 2)
    if n = 0 then 0
    else if k % 2 = 1 then v
    else v / 2 ^ n * 2 ^ n + 4 + 8 * b2n (barPf s f k)

/-- The last vector of a function. -/
def lastVec (f : Nat) : Nat := if f = 0 then 255 else 63

/-- What a configuration register reads. The Revision ID of a user function is not specified: a free value. -/
def cfgRead (s : State) (f : Nat) : CfgReg → Nat
  | .vendorDevice => 0x1F6B + (if f = 0 then 0x0396 else (ufId s f).devId) * 2 ^ 16
  | .command => 2 * b2n (pciFn s f).mem + 4 * b2n (pciFn s f).bme
  | .revisionClass =>
    (if f = 0 then fld s F.GLB_ID_STEPPING + 0x118000 * 256 else Config.freeReg 0 (1024 + f) % 256 + (ufId s f).cls * 256)
  | .headerType => if f = 0 then 0x80 else 0
  | .bar k => barRead s f k
  | .subsystem =>
    (if f = 0 then (if smGet s.sbx.shadow 2 0 = 0 then 0x1F6B + 0x0396 * 2 ^ 16 else shadowOf s 2) else 0x1F6B + (ufId s f).subId * 2 ^ 16)
  | .expansionRom => 0
  | .interruptPin => 0
  | .msixControl => lastVec f + b2n (pciFn s f).fmask * 2 ^ 14 + b2n (pciFn s f).msix * 2 ^ 15
  | .msixTable => if f = 0 then 0x208000 else 2 ^ barSize s f 0 - 0x1000
  | .msixPba => if f = 0 then 0x209000 else 2 ^ barSize s f 0 - 0x800
  | .pmCapabilities => 3
  | .pmControl => 3 * b2n (pciFn s f).d3 + 8
  | .deviceControl => ctlOf s f cDEV
  | .deviceControl2 => ctlOf s f cDEV2
  | .linkControl => ctlOf s f cLINK
  | .linkControl2 => ctlOf s f cLINK2
  | .ptmCapability => if f = 0 then 1 + 4 * 256 else 0
  | .ptmControl => if f = 0 then b2n s.pci.ptmEnable else 0
  | .aerUncorrectable => b2n (pciFn s f).aer * 2 ^ 12
  | .unlisted => 0

/-- A plain control register written. -/
def ctlWrite (s : State) (f c v : Nat) : State := setPciFn s f { pciFn s f with ctl := smSet (pciFn s f).ctl c v (ctlReset c) }

/-- A BAR written: the bits below its size do not exist. -/
def barWrite (s : State) (f k v : Nat) : State :=
  let n := barSize s f (k / 2 * 2)
  if 4 ≤ k ∨ n = 0 then s
  else setPciFn s f { pciFn s f with bars := smSet (pciFn s f).bars k (if k % 2 = 1 then v else v / 2 ^ n * 2 ^ n) 0 }

/-- PTM Enable cleared stops a capture (R382). -/
def ptmWrite (s : State) (b : Bool) : State :=
  let s1 := setPci s { s.pci with ptmEnable := b }
  if b then s1 else setFld s1 F.ANG_PTM_CTRL_CAPTURE 0

/-- A configuration write. -/
def cfgWrite (s : State) (f v : Nat) : CfgReg → State
  | .command =>
    let s1 := setPciFn s f { pciFn s f with mem := bitOf v 1 }
    if f = 0 then hostBme s1 (bitOf v 2) else setPciFn s1 f { pciFn s1 f with bme := bitOf v 2 }
  | .bar k => barWrite s f k v
  | .msixControl => setPciFn s f { pciFn s f with fmask := bitOf v 14, msix := bitOf v 15 }
  | .pmControl =>
    if v % 4 = 1 ∨ v % 4 = 2 then s
    else if f ≠ 0 then setPciFn s f { pciFn s f with d3 := v % 4 == 3 }
    else if v % 4 = 3 then d3Enter s else d0Return s
  | .deviceControl => ctlWrite s f cDEV (v % 2 ^ 16 &&& 0x71FF)
  | .deviceControl2 => ctlWrite s f cDEV2 (if f = 0 then v % 2 ^ 16 &&& 0x1000 else 0)
  | .linkControl => if f = 0 then ctlWrite s f cLINK (v % 4) else s
  | .linkControl2 => if f = 0 then ctlWrite s f cLINK2 (v % 16) else s
  | .ptmControl => if f = 0 then ptmWrite s (bitOf v 0) else s
  | .aerUncorrectable => if bitOf v 12 then setPciFn s f { pciFn s f with aer := false } else s
  | _ => s

/-- A configuration request: retried until function 0 is ready and while the device wakes (R446), refused for a hidden function, else served. -/
def configRequest (s : State) (f : Nat) (reg : CfgReg) (write : Bool) (v : Nat) : State :=
  if !linkUp s then s
  else if (f = 0 ∧ s.pci.ready = false) ∨ wSLEEP ≤ pwrState s then refuse s .crs
  else if f ≠ 0 ∧ ufShown s f = false then refuse s .ur
  else if write then refuse (cfgWrite s f v reg) .sc
  else complete s .sc false 4 (cfgRead s f reg)

def execConfigRequest (fn : Fin 4) (reg : CfgReg) (write : Bool) (value : Word) (s : State) : Host.Outcome State Fault Refusal :=
  done (configRequest s fn reg write value.toNat)

/-- Function 0 becomes ready. -/
def endpointReady (s : State) : State :=
  if s.pci.perst || s.pci.hot || s.rst.step != 0 then s else setPci s { s.pci with ready := true }

def execEndpointReady (s : State) : Host.Outcome State Fault Refusal := done (endpointReady s)

/-! ### BAR2 (R374) -/

/-- How a memory status completes a read: the completion status and the EP bit. -/
def memCpl (st : Nat) : CplSt × Bool :=
  if st = ST.ok then (.sc, false)
  else if st = ST.poison then (.sc, true)
  else if st = ST.decode ∨ st = ST.denied then (.ur, false)
  else (.ca, false)

/-- The parts of `n` bytes from offset `o`, split at 64-byte boundaries: offset and length. -/
def lineParts : Nat → Nat → Nat → List (Nat × Nat)
  | 0, _, _ => []
  | fuel + 1, o, n => if n = 0 then [] else let m := min n (64 - o % 64); (o, m) :: lineParts fuel (o + m) (n - m)

/-- Master code 0xC0. -/
def mBAR2 := 0xC0

/-- One part of a BAR2 read with its own line's status. `x` is what flips in the stored line and on the way, and its
attempts that received BUSY. -/
def bar2Part (s : State) (o n : Nat) (x : BitVec 560 × List (BitVec 560) × Fin 5) : State :=
  let s1 := memRead s mBAR2 (o / 64 * 64) 0 x.1.toNat x.2.2 false (x.2.1.map (·.toNat))
  match s1.rsps with
  | [] => s1
  | q :: _ => let c := memCpl q.status; complete s1 c.1 c.2 (if c.1 = .sc then n else 0) (if c.1 = .sc then bits q.data (8 * (o % 64)) (8 * n) else 0)

/-- The memory dies serve the host: requests wait until they are initialised and the links are trained. -/
def bar2Ready (s : State) : Bool := linkUp s && mayIssue s mBAR2 && decide (pwrState s ≤ wIDLE)

def bar2Read (s : State) (o n : Nat) (xs : List (BitVec 560 × List (BitVec 560) × Fin 5)) : State :=
  if !linkUp s then s
  else if (pciFn s 0).d3 then refuse s .ur
  else if !pciOn s then refuse s .ca
  else if !bar2Ready s then s
  else forEach ((lineParts 66 o n).zipIdx) (fun s p => bar2Part s p.1.1 p.1.2 (xs.getD p.2 (0, [], 0))) s

def execBar2Read (off : BitVec 28) (len : Fin 4097) (parts : List (BitVec 560 × List (BitVec 560) × Fin 5)) (s : State) :
    Host.Outcome State Fault Refusal :=
  done (bar2Read s off.toNat len parts)

/-- A failed BAR2 write is recorded and reported. -/
def bar2Err (s : State) (o st : Nat) : State :=
  let s1 := raise s 0x2003 []
  if flag s F.PCI_BAR2_WERR_VALID then s1
  else setFld (setFld (setFld s1 F.PCI_BAR2_WERR_STATUS st) F.PCI_BAR2_WERR_OFF_OFFSET o) F.PCI_BAR2_WERR_VALID 1

/-- One part of a BAR2 write: its status and the state it leaves. -/
def bar2Store (s : State) (o n be data flips : Nat) (wire : List Nat) (busy : Bool) : Nat × State :=
  let s1 := memWrite s mBAR2 (o / 64 * 64) 0 ((be % 2 ^ n) * 2 ^ (o % 64)) ((data % 2 ^ (8 * n)) * 2 ^ (8 * (o % 64))) flips wire busy false
  ((s1.rsps.head?.map (·.status)).getD 0, s1)

/-- The parts of a BAR2 write in address order, with the first failing status. -/
def bar2Stores (be data flips : Nat) (wire : List Nat) (busy : Bool) (o0 : Nat) : List (Nat × Nat) → Nat → State → Nat × State
  | [], st, s => (st, s)
  | (o, n) :: t, st, s =>
    let r := bar2Store s o n (be >>> (o - o0)) (data >>> (8 * (o - o0))) flips wire busy
    bar2Stores be data flips wire busy o0 t (if st = 0 then r.1 else st) r.2

/-- A BAR2 write of `n` bytes; a poisoned one is discarded and logged by AER. -/
def bar2Write (s : State) (o n be data : Nat) (ep : Bool) (flips : Nat) (wire : List Nat) (busy : Bool) : State :=
  if !linkUp s || (pciFn s 0).d3 then s
  else if ep then setPciFn s 0 { pciFn s 0 with aer := true }
  else if !pciOn s then bar2Err s o ST.disabled
  else if !bar2Ready s then s
  else
    let r := bar2Stores be data flips wire busy o (lineParts 10 o n) 0 s
    if r.1 = 0 then r.2 else bar2Err r.2 o r.1

def execBar2Write (off : BitVec 28) (len : Fin 513) (be : BitVec 512) (data : BitVec 4096) (ep : Bool) (flips : BitVec 560)
    (wire : List (BitVec 560)) (busy : Bool) (s : State) : Host.Outcome State Fault Refusal :=
  done (bar2Write s off.toNat len be.toNat data.toNat ep flips.toNat (wire.map (·.toNat)) busy)

/-! ### User functions (R377, R378) -/

/-- A discarded write, or a Completer Abort of the third and fourth rows of R378. -/
def ufDisc (s : State) : State := raiseMerged (satInc s F.PCI_UF_DISC_DISC) 0x2004 0 []

/-- A user-function request that its state refuses: `st` for a read, discarded for a write. -/
def ufRefuse (s : State) (write : Bool) (st : CplSt) : State := ufDisc (if write then s else refuse s st)

/-- The region that owns function f. -/
def ufRegion (s : State) (f : Nat) : Nat := fld s (F.FAB_FUNCf_OWN_REGION f)

/-- The owner's request interface transfers now: it runs, and an edge of region clock 0 is given. -/
def ufTicks (s : State) (f : Nat) : Bool := regTicks s (ufRegion s f) && regClkEn s (ufRegion s f) 0 && !regFrozen s (ufRegion s f)

/-- The bytes of an MSI-X table entry: ADDRESS, DATA and the mask. -/
def msixEntry (x : PciFn) (v : Nat) : Nat :=
  smGet x.addr v 0 + smGet x.data v 0 * 2 ^ 64 + b2n (!x.unmask.contains v) * 2 ^ 96

/-- An MSI-X table entry replaced. -/
def setMsixEntry (x : PciFn) (v e : Nat) : PciFn :=
  { x with
    addr := smSet x.addr v (bits e 2 62 * 4) 0
    data := smSet x.data v (bits e 64 32) 0
    unmask := if bitOf e 96 then x.unmask.filter (· != v) else if x.unmask.contains v then x.unmask else x.unmask ++ [v] }

/-- A byte of the table or of the Pending Bit Array that the endpoint serves in BAR0 of a user function. -/
def msixByte (x : PciFn) (size o : Nat) : Nat :=
  if size - 0x1000 ≤ o ∧ o < size - 0xC00 then bits (msixEntry x ((o - (size - 0x1000)) / 16)) (8 * (o % 16)) 8
  else ((List.range 8).foldl (fun v i => v + b2n (x.pend.contains (8 * (o - (size - 0x800)) + i)) * 2 ^ i) 0)

/-- A byte of the table written; the Pending Bit Array ignores writes. -/
def msixPut (x : PciFn) (size o b : Nat) : PciFn :=
  if size - 0x1000 ≤ o ∧ o < size - 0xC00 then
    let v := (o - (size - 0x1000)) / 16
    setMsixEntry x v (putBits (msixEntry x v) (8 * (o % 16)) 8 b)
  else x

/-- The endpoint serves this range of BAR0 itself. -/
def msixRange (size o n : Nat) : Bool :=
  (decide (size - 0x1000 ≤ o) && decide (o + n ≤ size - 0xC00)) || (decide (size - 0x800 ≤ o) && decide (o + n ≤ size - 0x7F8))

/-- The MSI-X structures of a user function accessed. -/
def msixAccess (s : State) (f size o n : Nat) (write : Bool) (be data : Nat) : State :=
  if write then
    setPciFn s f ((List.range n).foldl (fun x i => if bitOf be i then msixPut x size (o + i) (bits data (8 * i) 8) else x) (pciFn s f))
  else complete s .sc false n ((List.range n).foldr (fun i v => msixByte (pciFn s f) size (o + i) + 256 * v) 0)

/-- The reads that function f's owner has accepted, ended ones whose completion is still awaited included. -/
def ufReads (s : State) (f : Nat) : List UfRead := s.pci.reads.filter fun x => x.fn == f

/-- The reads outstanding on the interface of a region. -/
def regionReads (s : State) (r : Nat) : Nat := (s.pci.reads.filter fun x => ufRegion s x.fn == r).length

/-- The lowest tag that no accepted read of the owner holds. -/
def freeTag (s : State) (r : Nat) : Option Nat :=
  (List.range 64).find? fun t => !s.pci.reads.any fun x => ufRegion s x.fn == r && x.tag == t

/-- A BAR request of a user function. One that its owner's interface cannot take now waits. -/
def ufRequest (s : State) (f : Nat) (bar2 : Bool) (o n : Nat) (write : Bool) (be data : Nat) : State :=
  let size := 2 ^ barSize s f 0
  let r := ufRegion s f
  if !linkUp s then s
  else if !ufShown s f then (if write then ufDisc s else refuse s .ur)
  else if (pciFn s f).d3 then (if write then s else refuse s .ur)
  else if !bar2 && msixRange size o n then msixAccess s f size o n write be data
  else if !pciOn s || regState s r != gRELEASED then ufRefuse s write .ca
  else if !ufTicks s f then s
  else
    let q : UfReq := ⟨r, f, if bar2 then 1 else 0, o, n, write, be, data⟩
    if write then setPci s { s.pci with handed := q :: s.pci.handed }
    else match freeTag s r with
      | none => s
      | some t => setPci s { s.pci with handed := q :: s.pci.handed, reads := s.pci.reads ++ [⟨f, t, n, false⟩] }

def execUfRequest (f : Fin 3) (bar2 : Bool) (off : BitVec 30) (len : Fin 513) (write : Bool) (be : BitVec 512) (data : BitVec 4096)
    (s : State) : Host.Outcome State Fault Refusal :=
  done (ufRequest s (f + 1) bar2 off.toNat len write be.toNat data.toNat)

/-- Draining of a disabled endpoint: no accepted request is still to complete. -/
def pciDrained (s : State) : Bool := s.pci.reads.all (·.dead)
def pciDrainEnd (s : State) : State := setFld (setFld s F.PCI_CTRL_ENABLE 0) F.PCI_STATUS_DRAINING 0

/-- The fabric completes a read with UC_LAST; `ok` tells that every beat was OK. -/
def ufCompletion (s : State) (f tag : Nat) (ok : Bool) (data : Nat) : State :=
  match (ufReads s f).find? fun x => x.tag == tag with
  | none => s
  | some x =>
    if !ufTicks s f then s
    else
      let s1 := setPci s { s.pci with reads := s.pci.reads.erase x }
      if x.dead then s1
      else if ok then complete s1 .sc false x.len (data % 2 ^ (8 * x.len)) else refuse s1 .ca

def execUfCompletion (f : Fin 3) (tag : BitVec 6) (ok : Bool) (data : BitVec 4096) (s : State) : Host.Outcome State Fault Refusal :=
  done (ufCompletion s (f + 1) tag.toNat ok data.toNat)

/-- No UC_LAST within PCI_UF_TO; a later completion for the tag is discarded. -/
def ufTimeout (s : State) (f tag : Nat) : State :=
  match (ufReads s f).find? fun x => x.tag == tag && !x.dead with
  | none => s
  | some x => ufDisc (refuse (setPci s { s.pci with reads := s.pci.reads.map fun y => if y = x then { y with dead := true } else y }) .ca)

def execUfTimeout (f : Fin 3) (tag : BitVec 6) (s : State) : Host.Outcome State Fault Refusal := done (ufTimeout s (f + 1) tag.toNat)

/-! ### MSI-X (R379, R380) -/

/-- The fabric of a function's owner requests a vector; a function in D3hot discards it. -/
def ufMsix (s : State) (f v : Nat) : State :=
  let x := pciFn s f
  if !ufOwned s f || !ufTicks s f || x.d3 || x.pend.contains v then s else setPciFn s f { x with pend := x.pend ++ [v] }

def execUfMsixReq (f : Fin 3) (vec : BitVec 6) (s : State) : Host.Outcome State Fault Refusal := done (ufMsix s (f + 1) vec.toNat)

/-- A pending vector of function 0 is sent. -/
def sendVec0 (s : State) (v : Nat) : State :=
  let x := pciFn s 0
  if bitOf (fld s F.PCI_PBA_PENDING) v && x.msix && x.bme && !x.fmask && !x.d3 && !flag s (F.PCI_MSIXv_CTRL_MASK v) then
    let s1 := setFld s F.PCI_PBA_PENDING (putBits (fld s F.PCI_PBA_PENDING) v 1 0)
    postHost s1 (fld s (F.PCI_MSIXv_ADDR_ADDRESS v)) 4 (fld s (F.PCI_MSIXv_DATA_DATA v))
  else s

/-- A pending vector of a user function is sent. -/
def sendVecUf (s : State) (f v : Nat) : State :=
  let x := pciFn s f
  if x.pend.contains v && x.msix && x.bme && !x.fmask && !x.d3 && x.unmask.contains v then
    postHost (setPciFn s f { x with pend := x.pend.filter (· != v) }) (smGet x.addr v 0) 4 (smGet x.data v 0)
  else s

def execMsixSend (fn : Fin 4) (vec : BitVec 8) (s : State) : Host.Outcome State Fault Refusal :=
  done (if !linkUp s then s else if fn = 0 then sendVec0 s vec.toNat else sendVecUf s fn vec.toNat)

/-! ### Disabling and host resets (R383, R384) -/

/-- Clearing PCI_CTRL.ENABLE. -/
def pciDisable (s : State) : State :=
  if !flag s F.PCI_CTRL_ENABLE then s else if pciDrained s then pciDrainEnd s else setFld s F.PCI_STATUS_DRAINING 1

def execPciDisable (s : State) : Host.Outcome State Fault Refusal := done (pciDisable s)

/-- The endpoint's registers and configuration spaces at reset values, apart from the counters. -/
def pciRegsReset (s : State) : State :=
  let keep := fun (f : Fld) (s' : State) => setFld s' f (fld s f)
  let s1 := keep F.PCI_CNT_BAD_WR_BAD_WR (keep F.PCI_UF_DISC_DISC (keep F.PCI_LINK_DOWN_DOWNS (resetBlockRegs s 0x20)))
  let s2 := forEach [0, 1, 2, 3] (fun s' f => setPciFn s' f { ident := (pciFn s f).ident }) s1
  setPci s2 { s2.pci with ptmEnable := false, reads := s2.pci.reads.map fun x => { x with dead := true } }

/-- A BLOCK reset of PCI leaves the link up; the deadline and the hiding belong to the endpoint (R353). -/
def pciReset (s : State) : State :=
  let keep := fun (f : Fld) (s' : State) => setFld s' f (fld s f)
  keep F.PCI_STATUS_LINK_UP (keep F.PCI_STATUS_SPEED (keep F.PCI_STATUS_WIDTH (deadlineClear (pciRegsReset (bmeClear s)))))

/-- PERST (1) or HOTRST (0) as every part of R26 sees it at its assertion. -/
def hostReset (s : State) (kind : Nat) : State :=
  let s1 := raise (satInc (pciRegsReset s) F.PCI_LINK_DOWN_DOWNS) 0x2002 [(1, kind)]
  let s2 := setPci s1 { s1.pci with ready := false, l1 := false }
  let s3 := setFld (hostSideReset s2) F.HWN_STATUS_BME 0
  let s4 := setFld (setFld (setFld s3 F.ANG_PTM_HOST_HOST_TIME 0) F.ANG_PTM_RT_RING_TIME 0) F.ANG_PTM_CTRL_DONE 0
  cfgHostReset (setFld s4 F.ANG_PTM_CTRL_CAPTURE 0)

end Sys2Proof.Machine
end

