-- ==== Sys2Proof/Machine/Reset.lean ====
section
/-! DEFINITION. Reset (chapter 21): sources and their reach, the release order, BLOCK and DIE resets, and the fuse load; with
the machine watchdog's expiry, reset messages, and the end of a wake, which a release brings about. -/
namespace Sys2Proof.Machine

/-- The reset controller replaced. -/
def setRst (s : State) (x : Rst) : State := { s with rst := x }

/-! ### Causes (R440) -/

/-- The codes of the sources in GLB_RST_CAUSE. -/
def cPOR := 0
def cPIN := 1
def cWDOG := 2
def cSWFULL := 3
def cRING := 4
def cTHERM := 5
def cPERST := 6
def cHOTRST := 7
def cDIE := 8
def cBLOCK := 9

/-- GLB_RST_CAUSE takes a source and its qualifiers. -/
def setCause (s : State) (src qual eng : Nat) : State :=
  setFld (setFld (setFld s F.GLB_RST_CAUSE_SOURCE src) F.GLB_RST_CAUSE_QUAL qual) F.GLB_RST_CAUSE_ENGINE eng

/-- Event 0x0101. -/
def raiseCause (s : State) (src qual eng : Nat) : State := raise s 0x0101 [(1, src), (1, qual), (1, eng)]

/-- A source is asserted: GLB_RST_CAUSE and event 0x0101. -/
def assertCause (s : State) (src qual eng : Nat) : State := setCause (raiseCause s src qual eng) src qual eng

/-! ### The end of a wake (R445, R447) -/

/-- A wake owed to an engine, or to a region, is asked for. -/
def serveEngine (s : State) (n : Nat) : State :=
  let o := (engine s n).owed
  if o = 0 then s else engWake (setEngine s n { engine s n with owed := 0 }) n (o == 2)
def serveRegion (s : State) (r : Nat) : State :=
  let o := (region s r).owed
  if o = 0 then s else regionWake (setRegion s r { region s r with owed := 0 }) r (o == 2)

/-- The last step of a wake ends: RUN with event 0x0303; what waited for the return goes on. -/
def wakeDone (s : State) : State :=
  let left := s.pwr.left
  let s1 := setFld (setFld (setFld s F.PWR_STATUS_STATE wRUN) F.PWR_STATUS_PHASE 0) F.PWR_WAKE_FAIL_CONSEC 0
  let s2 := raise { s1 with pwr := {} } 0x0303 [(1, fld s F.PWR_WAKE_CAUSE_CAUSE)]
  let s3 := if left < wSLEEP then s2 else setThm s2 { s2.thm with hist := [] }
  let s4 := if wSLEEP ≤ left ∧ flag s F.SBX_WDOG_CFG_ENABLE = true then setFld s3 F.SBX_WDOG_STATUS_REMAIN (wdogPeriod s) else s3
  forEach (s4.regions.map (·.1)) serveRegion (forEach (s4.engines.map (·.1)) serveEngine s4)

/-! ### The reach of PIN (R427 to R430, R434) -/

/-- The fields that a reset with the reach of PIN leaves: those that only POR resets, what the fuses gave, and the rails as
driven. -/
def porFields : List Fld :=
  [F.GLB_RST_CAUSE_SOURCE, F.GLB_RST_CAUSE_QUAL, F.GLB_RST_CAUSE_ENGINE, F.RST_STATUS_FUSE_DONE, F.RST_STATUS_FUSE_FAULT, F.RST_STATUS_FUSE_TRIES,
   F.GLB_ID_GRADE, F.PWR_WAKE_CAUSE_CAUSE, F.PWR_WAKE_FAIL_CONSEC, F.PWR_WAKE_FAIL_TOTAL, F.BST_FUSE_USED, F.BST_FUSE_BAD,
   F.PWR_RAILS_EN, F.PWR_RAILS_PGOOD]

/-- Fields of one state carried into another. -/
def carry (s : State) (fs : List Fld) (t : State) : State := fs.foldl (fun t f => setFld t f (fld s f)) t

/-- LOCKSTATE as the fuse shadows give it; LOCKED until they are loaded (R438, R480). -/
def lockFromFuses (s : State) : State :=
  setFld s F.DBG_STATUS_LOCKSTATE (if flag s F.RST_STATUS_FUSE_DONE && smGet s.sbx.shadow 3 0 == 0 then 0 else 1)

/-- What stays of the Signal Box: the flash, the fuses and their shadows, and a start after POR not yet counted. -/
def sbxKept (x : Sbx) : Sbx :=
  { x with due := false, other := false, update := none, resp := none, nonce := none, armed := false, keyHeld := false, kick := false }

/-- What stays of the debug port: the TAP, on which an access in flight completes RESET. -/
def dbgKept (x : Dbg) : Dbg :=
  { x with respond := none, pulses := [], acc := if x.acc.busy then { x.acc with busy := false, done := true, st := ST.reset } else x.acc }

/-- What stays of the fabric: the stored bits of block memories. -/
def fabKept (x : Fabric) : Fabric := { bms := (x.bms.map fun e => (e.1, ({ mem := e.2.mem } : Bm))).filter fun e => e.2 != {} }

/-- The engines: stopped, each with its registers undefined by a draw of its own, and its scratchpad kept. -/
def freshEngines (s : State) : SMap Engine := (List.range 96).map fun n => (n, freshEngine s n (s.free + n))

/-- The units whose start-up test after POR is still to run. -/
def stillUntested (s : State) : List Nat :=
  [0, 1, 2, 6, 7, 8].filter fun u => s.rst.untested.contains u || s.bst.startup.contains u

/-- A power-up runs: steps 1 to 6 of R447. -/
def poweringUp (s : State) : Bool := pwrPhase s != 1 && decide (1 ≤ s.pwr.step) && decide (s.pwr.step ≤ 6)

/-- Every part at its reset state, but for what the reach of PIN leaves. -/
def pinBase (s : State) : State :=
  { State.reset with
    evq := s.evq, log := s.log, windows := s.windows, mirrorQ := s.mirrorQ, free := s.free + 96, pending := s.pending
    wire := s.wire, hostWr := s.hostWr, rsps := s.rsps, modules := s.modules
    mem := { s.mem with reread := [] }
    engines := freshEngines s
    fab := fabKept s.fab
    pci := { perst := s.pci.perst, hot := s.pci.hot, handed := s.pci.handed, cpls := s.pci.cpls }
    sbx := sbxKept s.sbx
    dbg := dbgKept s.dbg
    bst := { soft := s.bst.soft, fused := s.bst.fused }
    pwr := if poweringUp s then { step := s.pwr.step, left := s.pwr.left } else {}
    rst := { srcs := s.rst.srcs, step := 2, untested := stillUntested s, fault := s.rst.fault.filter (· == 1) } }

/-- The memory and scratchpad units whose preserving test the reset stopped: their RESTORE is still to run (R474). -/
def carryTests (s t : State) : State :=
  let us := [0, 1, 2, 6, 7, 8].filter fun u => unitState s u == uRESTORE && !s.bst.startup.contains u
  forEach us (fun t u => setUnit (setFld (setBst t { t.bst with halted := t.bst.halted ++ [u] }) (F.BST_Uu_STATUS_BANK u)
    (fld s (F.BST_Uu_STATUS_BANK u))) u uRESTORE) t

/-- A reset with the reach of PIN takes effect; its source is in `rst.srcs` while it is asserted. Every region goes to EMPTY, with
event 0x0701 (R217, R254). -/
def pinReset (s : State) : State :=
  let s1 := forEach ([0, 1, 2, 6, 7, 8].filter fun u => !s.bst.startup.contains u) unitHalt s
  let s0 := forEach ((List.range 72).filter fun r => regState s r != gEMPTY) (fun s r => raise s 0x0701 [(1, r), (1, regState s r), (1, gEMPTY)]) s1
  let s2 := showKeys (carryTests s1 (carry s1 porFields (pinBase s0)))
  lockFromFuses (setFld s2 F.GLB_NMI_STATUS_FAULT (b2n (s2.rst.fault.contains 1)))

/-- The device is in OFF with no wake running: only WAKE_N and POR act on it (R449). -/
def isOff (s : State) : Bool := pwrState s == wOFF && pwrPhase s != 2

/-- A source with the reach of PIN is asserted. -/
def assertPin (s : State) (src : Nat) : State :=
  if isOff s then s
  else
    let s1 := pinReset (assertCause s src 0 0)
    setRst s1 { s1.rst with srcs := if s.rst.srcs.contains src then s.rst.srcs else s.rst.srcs ++ [src] }

def execPin (s : State) : Host.Outcome State Fault Refusal := done (assertPin s cPIN)

/-- A write of GLB_RESET (R431). -/
def execSwfull (value : Word) (s : State) : Host.Outcome State Fault Refusal :=
  done (if bitOf value.toNat 0 && bits value.toNat 16 16 == 0xC0DE then assertPin s cSWFULL else s)

/-- POR: everything, with memory, scratchpads and engine registers undefined; the log begins anew (R393). What the device
does not contain, the flash and the fuses stay. -/
def porReset (s : State) : State :=
  let d := s.free
  { State.reset with
    free := d + 97, pending := s.pending, wire := s.wire, hostWr := s.hostWr, rsps := s.rsps, modules := s.modules
    mem := { scram := (List.range 192).map fun k => (k, d + 97) }
    engines := (List.range 96).map fun n => (n, { freshEngine {s with engines := []} n (d + n) with spDraw := d + n + 1 })
    pci := { perst := s.pci.perst, hot := s.pci.hot, handed := s.pci.handed, cpls := s.pci.cpls }
    sbx := { sbxKept s.sbx with shadow := [], shSvn := 0, porStart := true, lost := false } }

def execPor (s : State) : Host.Outcome State Fault Refusal := done (porReset s)

/-! ### Release (R433) -/

/-- The power is up: a release may run (R433, R447). -/
def powerUp (s : State) : Bool := if poweringUp s then s.pwr.step == 6 else pwrState s != wOFF

/-- The release has reached a step. -/
def setStep (s : State) (k : Nat) : State := setRst s { s.rst with step := k }

/-- The start-up tests of units begin (R472). -/
def startTests (s : State) (us : List Nat) : State :=
  forEach us (fun s u =>
    let x := { s.bst with
      startup := s.bst.startup ++ [u]
      fails := smSet s.bst.fails u 0 0
      repairs := smSet s.bst.repairs u 0 0
      cmd := smSet s.bst.cmd u 0 0 }
    setUnit (setBst { s with rst := { s.rst with untested := s.rst.untested.filter (· != u) } } x) u uMARCH) s

/-- The start-up tests of step 5 or step 8 that POR still owes. -/
def owedTests (s : State) (lo : Nat) : List Nat := s.rst.untested.filter fun u => decide (lo ≤ u) && decide (u < lo + 3)

/-- Step 2: a fuse load starts, with no failed attempt, unless the shadows are complete (R433, R438). -/
def beginRelease (s : State) : State :=
  if flag s F.RST_STATUS_FUSE_DONE then setStep s 3 else setStep (setFld s F.RST_STATUS_FUSE_TRIES 0) 2

/-- Step 4: the interconnect test before link training, whose failures are reported (R473). -/
def icTest (s : State) (f2f baseif tracks power badReg : Nat) : State :=
  let s1 := setFld (setFld s F.BST_IC_FAIL_F2F f2f) F.BST_IC_FAIL_BASEIF baseif
  let s2 := setFld (setFld s1 F.BST_IC_FAIL_TRACKS tracks) F.BST_IC_FAIL_POWER power
  let s3 := if f2f = 0 ∧ tracks = 0 then s2 else setFld s2 F.BST_IC_BADREG_REGIONS badReg
  if f2f + baseif + tracks + power = 0 then s3 else raise s3 0x1D04 []

/-- Step 5: the memory dies, initialised by their start-up test after POR. -/
def releaseMem (s : State) : State :=
  let us := owedTests s 0
  if us.isEmpty then setFld s F.MEM_STATUS_INIT_DONE 1 else startTests s us

/-- Step 6: the other base-die blocks; the Signal Box starts, the sealing key is drawn, and FAULT_N of a failed wake or a lost
rail is released (R449). -/
def releaseBase (s : State) : State := drawKey (startFromRom (releaseFault (releaseFault s 2) 3))

/-- Step 8: the logic dies, with the scratchpads' test after POR. -/
def releaseLogic (s : State) : State := startupCheck (startTests s (owedTests s 6))

/-- A step's end, and the parts of the next step. -/
def releaseStep (s : State) (ic : State → State) : State :=
  if !s.rst.srcs.isEmpty || !powerUp s then s
  else match s.rst.step with
    | 3 => if s.clk.plls.contains 0 then setStep (ic s) 4 else s
    | 4 => if flag s F.STK_STATUS_TRAINED then releaseMem (setStep s 5) else s
    | 5 => releaseBase (setStep s 6)
    | 6 => startTests (setStep s 7) [3, 4, 5]
    | 7 => releaseLogic (setStep s 8)
    | 8 => if s.pwr.step = 6 then wakeDone (setStep s 9) else setStep s 9
    | 9 => if s.pci.perst || s.pci.hot then s else setStep s 0
    | _ => s

def execReleaseStep (f2f : BitVec 3) (baseif : Bool) (tracks : BitVec 2) (power : Bool) (badReg : BitVec 72) (s : State) :
    Host.Outcome State Fault Refusal :=
  done (releaseStep s fun s => icTest s f2f.toNat (b2n baseif) tracks.toNat (b2n power) badReg.toNat)

/-- A source with the reach of PIN is released; the last one starts the release, unless a power-up has yet to reach it. -/
def releasePin (s : State) (src : Nat) : State :=
  if !s.rst.srcs.contains src then s
  else
    let s1 := setRst s { s.rst with srcs := s.rst.srcs.filter (· != src) }
    if !s1.rst.srcs.isEmpty || !powerUp s1 then s1 else beginRelease s1

/-! ### Fuse load (R438) -/

/-- A load passes: the shadows, and what follows from them. -/
def fusesLoaded (s : State) : State :=
  let s1 := forEach [1, 2, 3, 4, 0x10, 0x11, 0x12, 0x13, 0x20, 0x21, 0x22, 0x23] (fun s f => setShadow s f (loadField s f)) s
  let s2 := showKeys (claimEntries (setSbx s1 { s1.sbx with shSvn := s1.sbx.svn }))
  let s3 := setFld (setFld s2 F.GLB_ID_GRADE (if Config.grade2 then 2 else 1)) F.RST_STATUS_FUSE_DONE 1
  setStep (lockFromFuses s3) 3

/-- A load attempt fails; the third is a fuse fault. -/
def fuseFailed (s : State) : State :=
  let n := fld s F.RST_STATUS_FUSE_TRIES + 1
  let s1 := raise (setFld s F.RST_STATUS_FUSE_TRIES n) 0x0103 []
  if n < 3 then s1 else raise (assertFault (setFld s1 F.RST_STATUS_FUSE_FAULT 1) 1) 0x0104 []

/-- A load runs: step 2 is reached, its power-up is over, and it is not given up. -/
def loadRuns (s : State) : Bool :=
  s.rst.step == 2 && s.rst.srcs.isEmpty && !flag s F.RST_STATUS_FUSE_DONE && decide (fld s F.RST_STATUS_FUSE_TRIES < 3) && powerUp s

def execFuseLoadAttemptEnd (ok : Bool) (s : State) : Host.Outcome State Fault Refusal :=
  done (if !loadRuns s then s else if ok then fusesLoaded s else fuseFailed s)

/-! ### BLOCK resets (R435, R436) -/

/-- The block codes that a BLOCK reset reaches (R436, R530). -/
def blockCodes : List Nat :=
  [0x02, 0x05, 0x06, 0x07, 0x08, 0x09, 0x0C, 0x0E, 0x10, 0x11, 0x12, 0x13, 0x14, 0x18, 0x1C, 0x1D, 0x1E, 0x1F, 0x20]

/-- A BLOCK reset of CTX (R9, R252): pending requests discarded; every register at its reset value but the contexts in force,
the sampled switches, which complete, and the states of the planes. -/
def ctxReset (s : State) : State :=
  let s1 := forEach (s.regions.map (·.1)) (fun s r => setRegion s r { region s r with pend := [] }) s
  let s2 := resetOffsets s1 0x060000 0x060010
  forEach (List.range 72) (fun s r => resetOffsets s (0x061010 + 0x20 * r) (0x06101C + 0x20 * r)) s2

/-- The registers of FAB that tell a region's state, which a BLOCK reset of FAB leaves. -/
def fabStateFields (r : Nat) : List Fld :=
  [F.FAB_REGr_STATUS_STATE r, F.FAB_REGr_STATUS_SLEEPING r, F.FAB_REGr_RC_RETURN r, F.FAB_REGr_RC_STAGED r]
def ownFields : List Fld :=
  ((List.range 10).flatMap fun b => [F.FAB_BANKb_OWN_REGION b, F.FAB_BANKb_OWN_VALID b, F.FAB_BANKb_OWN_PADSTOP b])
  ++ [1, 2, 3].flatMap fun f => [F.FAB_FUNCf_OWN_REGION f, F.FAB_FUNCf_OWN_VALID f]

/-- A BLOCK reset of FAB (R216): its registers; strobe latches emptied; every sleeping region wakes. -/
def fabReset (s : State) : State :=
  let s1 := forEach (s.regions.map (·.1)) (fun s r => setRegion s r { region s r with stb := [] }) s
  let s2 := carry s (ownFields ++ (List.range 72).flatMap fabStateFields) (resetBlockRegs s1 7)
  forEach ((List.range 72).filter (regAsleep s2)) (fun s r => regionWake s r false) s2

/-- The device address lies in engine n: in its scratchpad or its registers. -/
def atEngine (n a : Nat) : Bool :=
  (devIsSp a && a % 0x1000000 / 0x10000 == n)
  || (devIsReg a && decide (0x180000 ≤ a % 0x1000000) && (a % 0x1000000 - 0x180000) / 0x400 == n)

/-- What is in flight to engines of a condition completes RESET (R170). -/
def engInflightReset (s : State) (c : Nat → Bool) : State := inflightReset s fun a => (List.range 96).any fun n => c n && atEngine n a

/-- Engines of a condition are reset; their own requests go with them. -/
def enginesReset (s : State) (c : Nat → Bool) : State :=
  engInflightReset (forEach ((List.range 96).filter c) engineReset s) c

/-- What is in flight to a block's registers completes RESET. -/
def blkInflightReset (s : State) (b : Nat) : State := inflightReset s fun a => devIsReg a && a % 0x1000000 / 0x10000 == b

/-- What a BLOCK reset of each block does, as its chapter says. -/
def blockEffect (s : State) (b : Nat) : State :=
  match b with
  | 0x02 => clkReset s
  | 0x05 => cfgReset s
  | 0x06 => ctxReset s
  | 0x07 => fabReset s
  | 0x08 => ttBlockReset s
  | 0x09 => dspReset s
  | 0x0C => wngReset s
  | 0x0E => wlnReset s
  | 0x10 => memBlockReset s
  | 0x11 => schReset s
  | 0x12 => hwnReset s
  | 0x13 => encReset s
  | 0x14 => stkReset s
  | 0x18 => enginesReset s fun _ => true
  | 0x1C => sbxBlockReset s
  | 0x1D => bstReset s
  | 0x1E => dbgReset s
  | 0x1F => iobReset s
  | 0x20 => pciReset s
  | _ => s

/-- A BLOCK reset is asserted: its bit reads 1 and IDLE_REQ is raised; ENGINE of the record is 0x7F for the ENG bit. -/
def blockAssert (s : State) (b : Nat) : State :=
  let s1 := raiseCause s cBLOCK b (if b = 0x18 then 0x7F else 0)
  setFld (setRst s1 { s1.rst with blkWait := s1.rst.blkWait ++ [b] }) F.RST_BLOCK_GO (putBits (fld s1 F.RST_BLOCK_GO) b 1 1)

/-- A write of RST_BLOCK: the bits that are set and not already in force; the lowest block is the cause recorded. -/
def rstBlockWrite (s : State) (mask : Nat) : State :=
  let l := blockCodes.filter fun b => bitOf mask b && !blkShut s b
  match l with
  | [] => s
  | b :: _ => setCause (forEach l blockAssert s) cBLOCK b (if b = 0x18 then 0x7F else 0)

def execRstBlockWrite (mask : BitVec 33) (s : State) : Host.Outcome State Fault Refusal := done (rstBlockWrite s mask.toNat)

/-- A write of SBX_CTRL.SRESET (R408). -/
def sbxSreset (s : State) : State :=
  if blkShut s 0x1C then s
  else
    let s1 := setFld (assertCause s cBLOCK 0x1C 0) F.SBX_CTRL_SRESET 1
    setRst s1 { s1.rst with blkWait := s1.rst.blkWait ++ [0x1C] }

def execSbxSreset (s : State) : Host.Outcome State Fault Refusal := done (sbxSreset s)

/-- A write of ENG_n_CTRL.SRESET. -/
def engSreset (s : State) (n : Nat) : State :=
  if s.rst.engWait.contains n || s.rst.engOn.contains n then s
  else
    let s1 := setFld (assertCause s cBLOCK 0x18 n) (F.ENG_n_CTRL_SRESET n) 1
    setRst s1 { s1.rst with engWait := s1.rst.engWait ++ [n] }

def execEngSreset (n : Fin 96) (s : State) : Host.Outcome State Fault Refusal := done (engSreset s n)

/-! ### DIE resets (R435, R437) -/

/-- A region as a DIE reset of its die leaves it, its cuffs being held (R216, R252, R254, R491): clocks stopped, flip-flops zero,
queue pointers and multiplier registers clear, pending requests and switches discarded, a freeze over. Its state stays, and a stop
that has begun goes on once its clocks run again. -/
def regionDieReset (s1 : State) (r : Nat) : State :=
  let s2 := setRegion (dropStrobes s1 r) r { region (dropStrobes s1 r) r with
    run := false
    gateReq := false
    owed := 0
    starting := false
    switches := []
    pend := []
    shared := []
    priv := []
    stbOut := []
    refusedOut := false }
  let s3 := setFld (setFld (setFld s2 (F.CTX_REGr_ACTIVE_SWITCHING r) 0) (F.CTX_REGr_ACTIVE_NEXT r) 0) (F.FAB_REGr_STATUS_SLEEPING r) 0
  let s4 := setFld (setFld s3 (F.FAB_REGr_CTRL_WAKE r) 0) (F.DBG_REGr_STATUS_FROZEN r) 0
  let s5 := setFld (setFld s4 (F.DBG_REGr_STATUS_PULSING r) 0) (F.DBG_REGr_CTRL_FREEZE r) 0
  let s6 := r8Withdraw s5 fun x => match x with | .regionStart q => q == r | .regionPulse q _ => q == r | _ => false
  clearBlocks { s6 with dbg := { s6.dbg with pulses := smSet s6.dbg.pulses r 0 0 } } r

/-- The regions of a die are reset; every cuff takes what passes at that moment first (R260). -/
def regionsDieReset (s : State) (rs : List Nat) : State := forEach rs regionDieReset (forEach rs (holdCuffsAs s) s)

/-- The fabric ports of logic die d: their accepted insertions stay, their records are discarded and their queues emptied
(R70). -/
def portsDieReset (s : State) (d : Nat) : State :=
  let mine := fun k : Nat => decide (8 * (d - 1) ≤ k) && decide (k < 8 * d)
  let s1 := orphanSources s fun x => match x with | .fabric k => mine k | _ => false
  let s2 := setTt s1 { s1.tt with fabCq := s1.tt.fabCq.filter fun e => !mine e.1 }
  forEach ((List.range 24).filter mine) fabCounts s2

/-- The forced reset of the die at a position. -/
def dieEffect (s : State) (p : Nat) : State :=
  let d := (p + 2) / 3
  match p % 3 with
  | 0 => unitHalt (setFld (memInflightReset s fun x => dieOfByte x == d) (F.MEM_Md_PATROL_LINE d) 0) (d - 1)
  | 2 => unitHalt s (3 + (d - 1))
  | _ =>
    let s1 := enginesReset s fun n => n / 32 == d - 1
    let s2 := regionsDieReset s1 ((List.range 24).map (24 * (d - 1) + ·))
    unitHalt (portsDieReset s2 d) (6 + (d - 1))

/-- RST_DIE.HOLD bit p set. -/
def dieAssert (s : State) (p : Nat) : State :=
  if bitOf (fld s F.RST_DIE_HOLD) (p - 1) then s
  else
    let s1 := setFld (assertCause s cDIE p 0) F.RST_DIE_HOLD (putBits (fld s F.RST_DIE_HOLD) (p - 1) 1 1)
    setRst s1 { s1.rst with dieWait := s1.rst.dieWait ++ [p] }

def execDieReset (p : Fin 9) (s : State) : Host.Outcome State Fault Refusal := done (dieAssert s (p + 1))

/-- A RELEASED region of a die that leaves reset takes INIT and asks to restart (R199, R216). -/
def regionRestarts (s : State) (r : Nat) : State :=
  if regState s r = gRELEASED ∨ (regState s r = gLOADING ∧ fld s (F.FAB_REGr_RC_RETURN r) = gRELEASED) then releaseRequest (releaseInit s r) r
  else s

/-- RST_DIE.HOLD bit p cleared: a reset that still waits is dropped, a forced one ends, and a readback or a debug frame
write that waited for the configuration die goes on (R368). -/
def dieRelease (s : State) (p : Nat) : State :=
  let s1 := setFld s F.RST_DIE_HOLD (putBits (fld s F.RST_DIE_HOLD) (p - 1) 1 0)
  let s2 := setRst s1 { s1.rst with dieWait := s1.rst.dieWait.filter (· != p) }
  if !dieInReset s p then s2
  else
    let s3 := setFld s2 F.RST_DIE_IN_RESET (putBits (fld s F.RST_DIE_IN_RESET) (p - 1) 1 0)
    match p % 3 with
    | 1 => forEach (List.range 24) (fun s i => regionRestarts s (24 * (p / 3) + i)) s3
    | 2 =>
      let s4 := if flag s3 F.CFG_RB_CTRL_GO then readback s3 else s3
      if flag s4 F.DBG_FRAME_CTRL_GO then frameGo s4 else s4
    | _ => s3

/-! ### IDLE_REQ and the forced reset (R435) -/

/-- The reset of a unit waits for IDLE_ACK. -/
def waits (s : State) : RstUnit → Bool
  | .block b => s.rst.blkWait.contains b.val
  | .engine n => s.rst.engWait.contains n.val
  | .die p => s.rst.dieWait.contains (p + 1)

/-- The reset of a unit is forced. -/
def force (s : State) (u : RstUnit) : State :=
  match u with
  | .block b =>
    let s1 := setRst s { s.rst with blkWait := s.rst.blkWait.filter (· != b.val), blkOn := s.rst.blkOn ++ [b.val] }
    blockEffect (if b = 0x18 then s1 else blkInflightReset s1 b) b
  | .engine n =>
    let s1 := setRst s { s.rst with engWait := s.rst.engWait.filter (· != n.val), engOn := s.rst.engOn ++ [n.val] }
    enginesReset s1 fun m => m == n.val
  | .die p =>
    let s1 := setRst s { s.rst with dieWait := s.rst.dieWait.filter (· != p + 1) }
    dieEffect (setFld s1 F.RST_DIE_IN_RESET (putBits (fld s1 F.RST_DIE_IN_RESET) p 1 1)) (p + 1)

def execIdleAck (u : RstUnit) (s : State) : Host.Outcome State Fault Refusal := done (if waits s u then force s u else s)

/-- The block code that a forced reset without an acknowledgement names: of a die, the block that did not acknowledge. -/
def forcedCode (u : RstUnit) (blk : Nat) : Nat :=
  match u with
  | .block b => b
  | .engine _ => 0x18
  | .die _ => blk

def execIdleTimeout (u : RstUnit) (blk : BitVec 8) (s : State) : Host.Outcome State Fault Refusal :=
  done (if waits s u then
    let c := forcedCode u blk.toNat
    force (raise (setFld (satInc s F.RST_FORCED_COUNT) F.RST_FORCED_LAST c) 0x0102 [(1, c)]) u
  else s)

/-- A timed source ends (R428). -/
def pulseOver (s : State) (x : PulseSource) : State :=
  match x with
  | .wdog => releasePin s cWDOG
  | .swfull => releasePin s cSWFULL
  | .ring => releasePin s cRING
  | .block b =>
    if s.rst.blkOn.contains b.val then
      let s1 := setRst s { s.rst with blkOn := s.rst.blkOn.filter (· != b.val) }
      let s2 := if b = 0x1C then setFld s1 F.SBX_CTRL_SRESET 0 else s1
      setFld s2 F.RST_BLOCK_GO (putBits (fld s F.RST_BLOCK_GO) b 1 0)
    else s
  | .engine n =>
    if s.rst.engOn.contains n.val then
      setFld (setRst s { s.rst with engOn := s.rst.engOn.filter (· != n.val) }) (F.ENG_n_CTRL_SRESET n) 0
    else s

def execResetPulseEnd (x : PulseSource) (s : State) : Host.Outcome State Fault Refusal := done (pulseOver s x)

/-! ### Host resets (R26, R383) -/

/-- PERST_N low. In OFF nothing answers. -/
def execPerst (s : State) : Host.Outcome State Fault Refusal :=
  done (if s.pci.perst then s
    else
      let s1 := { s with pci := { s.pci with perst := true } }
      if isOff s then s1 else hostReset (assertCause s1 cPERST 0 0) 1)

/-- A hot reset, or a link down that was not requested. -/
def execHotrst (s : State) : Host.Outcome State Fault Refusal :=
  done (if s.pci.hot || isOff s then s else hostReset (assertCause { s with pci := { s.pci with hot := true } } cHOTRST 0 0) 0)

/-- A source is released. PERST_N rising is a wake source (R446). -/
def resetRelease (s : State) (x : RstSource) : State :=
  match x with
  | .pin => releasePin s cPIN
  | .perst => if s.pci.perst then wakeSource { s with pci := { s.pci with perst := false } } 2 else s
  | .hotrst => { s with pci := { s.pci with hot := false } }
  | .die p => dieRelease s (p + 1)

def execResetRelease (x : RstSource) (s : State) : Host.Outcome State Fault Refusal := done (resetRelease s x)

/-! ### The machine watchdog and reset messages (R400, R432) -/

/-- The watchdog's count reaches zero. -/
def wdogExpire (s : State) : State :=
  if !wdogRuns s then s
  else
    let a := fld s F.SBX_WDOG_CFG_ACTION
    let s1 := raise (satInc s F.SBX_WDOG_STATUS_EXPIRED) 0x1C06 [(1, a)]
    let reload := setFld s1 F.SBX_WDOG_STATUS_REMAIN (wdogPeriod s)
    if a = 2 then assertPin s1 cWDOG else if a = 1 then bstopReq reload else reload

def execWdogExpire (s : State) : Host.Outcome State Fault Refusal := done (wdogExpire s)

/-- A mailbox payload is a reset message that this node takes. -/
def isResetMsg (s : State) (y : Nat) : Bool :=
  flag s F.RST_CTRL_RING_EN && rSrc y == fld s F.RST_RING_SRC_NODE && bits y 30 8 == 0xFF
  && bits y 38 128 == 0x54455352 + nodeId s * 2 ^ 32

/-- A received MAILBOX flit: taken as a reset message, queued, or forwarded. -/
def mailbox (s : State) (p y : Nat) (f : Flit) : State :=
  routed s p f FT.mailbox (fun s => if isResetMsg s y then assertPin s cRING else mbQueue s y) fun s => (route s FT.mailbox (lessTtl y)).2

def execMailbox (p : Fin 4) (f : Flit) (s : State) : Host.Outcome State Fault Refusal := done (mailbox s p (fPayload f.toNat) f)

end Sys2Proof.Machine
end

