-- ==== Sys2Proof/Machine/Power.lean ====
section
/-! DEFINITION. Power states (chapter 22): entries, wakes, wake failures, lost rails; with the thermal trip's way to OFF and the
wake tone. -/
namespace Sys2Proof.Machine

/-- The power controller replaced. -/
def setPwr (s : State) (x : Power) : State := { s with pwr := x }

/-! ### Entering a state (R443, R444) -/

/-- Some descriptor ring is enabled, a reclaim or rekey runs, or a session is OPEN or VERIFYING. -/
def hostBusy (s : State) : Bool :=
  ((List.range 16).any fun k => flag s (F.HWN_RINGk_CTRL_ENABLE k)) || !s.hwn.reclaims.isEmpty || rekeying s || slotsHeld s

/-- The first reason of R443 that applies, 0 for none. -/
def entryRefusal (s : State) (t : Nat) : Nat :=
  if !flag s F.PWR_CTRL_ENABLE || flag s F.PWR_STATUS_DRAINING then 1
  else if pwrPhase s ≠ 0 ∨ s.pwr.step ≠ 0 ∨ pwrState s ≠ wRUN then 2
  else if t < wSLEEP then 0
  else if flag s F.DSP_CTRL_ENABLE || flag s F.DSP_STATUS_DRAINING then 3
  else if flag s F.ANG_CTRL_ENABLE || fld s F.ANG_STATUS_RT_STATE != rSTOPPED then 4
  else if allPorts.any fun p => portState s p != pDISABLED then 5
  else if hostBusy s then 6
  else if t ≠ wOFF ∧ ((List.range 43).any fun k => lkState s k == kRETRAIN) = true then 7
  else 0

/-- A write of PWR_CTRL.GO with its TARGET. -/
def powerEntry (s : State) (t : Nat) : State :=
  let s1 := setFld s F.PWR_CTRL_TARGET t
  let r := entryRefusal s t
  if wOFF < t then s1
  else if t = wRUN then (if pwrState s = wIDLE then wakeSource s1 5 else s1)
  else if r ≠ 0 then raise (setFld s1 F.PWR_STATUS_REFUSE r) 0x0302 [(1, r)]
  else setPwr (setFld (setFld s1 F.PWR_STATUS_REFUSE 0) F.PWR_STATUS_PHASE 1) { step := 1, target := t }

def execPowerEntry (target : BitVec 3) (s : State) : Host.Outcome State Fault Refusal := done (powerEntry s target.toNat)

/-- SYSPLL1 and the fabric PLLs stop. -/
def pllsOff (s : State) : State :=
  forEach (List.range 24) (fun s n => setFld s (F.CLK_FPLLn_LOCKED n) 0) (setClk s { s.clk with plls := s.clk.plls.filter (· != 1) })

/-- What OFF loses beyond the reach of PIN: memory and scratchpad contents, the fuse shadows, and the rails. -/
def offBase (s : State) : State :=
  let s1 := { s with
    mem := { scram := (List.range 192).map fun k => (k, s.free + 1) }
    free := s.free + 97
    engines := s.engines.map fun e => (e.1, { e.2 with sp := [], spPoison := [], spDraw := s.free + 2 + e.1 })
    sbx := { s.sbx with shadow := [], shSvn := 0 }
    bst := { s.bst with fused := [] } }
  let s2 := setFld (setFld (setFld s1 F.RST_STATUS_FUSE_DONE 0) F.GLB_ID_GRADE 0) F.PWR_RAILS_EN 0
  lockFromFuses (showKeys (setFld (setFld (setFld s2 F.PWR_RAILS_PGOOD 0) F.BST_FUSE_USED 0) F.BST_FUSE_BAD 0))

/-- The device is in OFF. What holds FAULT_N stays, but for a freeze; WAKE_N has yet to be re-armed (R448, R449). -/
def enterOff (s : State) : State :=
  let fault := s.rst.fault.filter (· != 0)
  let s1 := carry s [F.PWR_WAKE_FAIL_CAUSE, F.PWR_WAKE_FAIL_RAIL] (offBase (pinReset s))
  let s2 := setFld (setFld s1 F.PWR_STATUS_STATE wOFF) F.GLB_NMI_STATUS_FAULT (b2n (!fault.isEmpty))
  { s2 with pwr := {}, rst := { s2.rst with srcs := [], fault := fault } }

/-- The entry ends: the state reads the target, with event 0x0301; a disable that waited for it ends, and a wake source that
came meanwhile starts its wake (R450, R452). -/
def entryEnd (s : State) : State :=
  let t := s.pwr.target
  let late := s.pwr.late
  let s1 := raise s 0x0301 [(1, wRUN), (1, t)]
  let s2 := if t = wOFF then enterOff s1
    else setPwr (setFld (setFld s1 F.PWR_STATUS_STATE t) F.PWR_STATUS_PHASE 0) {}
  let s3 := if flag s F.PWR_STATUS_DRAINING && t != wOFF then setFld (setFld s2 F.PWR_CTRL_ENABLE 0) F.PWR_STATUS_DRAINING 0 else s2
  if late then wakeStart s3 else s3

/-- The entry goes to step k. -/
def entryStep (s : State) (k : Nat) : State := setPwr s { s.pwr with step := k }

/-- What step 3 waits for: no mailbox request, no record for the mirror, and self-test idle (R444, R474). -/
def mayStop (s : State) : Bool :=
  !flag s F.SBX_MB_STATUS_BUSY && (s.mirrorQ.isEmpty || !s.sbx.flash || !fwRuns s) && bstDrained s

/-- A step of an entry completes. `ok` is false where a gate is not acknowledged in step 1, of an engine or else of a region, or
the voltage in step 3. -/
def powerEntryStep (s : State) (ok eng : Bool) : State :=
  if pwrPhase s ≠ 1 then s
  else
    let t := s.pwr.target
    match s.pwr.step with
    | 1 =>
      if ok then setPwr s { s.pwr with step := 2, closed := true }
      else entryWithdrawn (raise (satInc s F.CLK_GATE_TO_COUNT) 0x0205 [(1, if eng then 0x18 else 7)])
    | 2 => if t = wIDLE then entryEnd (pllsOff s) else entryStep (pllsOff s) 3
    | 3 =>
      if !mayStop s then s
      else
        let s1 := if ok then s else raise s 0x0206 []
        let s2 := setClk s1 { s1.clk with plls := [] }
        if t = wSLEEP then entryEnd s2 else entryStep s2 (if t = wDEEP then 4 else 5)
    | 4 => entryEnd s
    | 5 => entryEnd s
    | _ => s

def execPowerEntryStep (ok eng : Bool) (s : State) : Host.Outcome State Fault Refusal := done (powerEntryStep s ok eng)

/-- Clearing PWR_CTRL.ENABLE (R452). -/
def pwrDisable (s : State) : State :=
  if !flag s F.PWR_CTRL_ENABLE then s
  else if pwrPhase s = 1 then setFld s F.PWR_STATUS_DRAINING 1
  else setFld s F.PWR_CTRL_ENABLE 0

def execPwrDisable (s : State) : Host.Outcome State Fault Refusal := done (pwrDisable s)

/-! ### Wake sources (R446, R449) -/

/-- WAKE_N low for 10 µs; from OFF only when it is re-armed. -/
def execWakeN (s : State) : Host.Outcome State Fault Refusal :=
  done (if isOff s && !s.pwr.armed then s else wakeSource s 0)

/-- WAKE_N high for 1 ms in OFF. -/
def execWakeRearm (s : State) : Host.Outcome State Fault Refusal :=
  done (if isOff s then setPwr s { s.pwr with armed := true } else s)

/-- PERST_N rises, or the link leaves L1 or electrical idle. -/
def execPcieWake (perst : Bool) (s : State) : Host.Outcome State Fault Refusal :=
  done (if perst then resetRelease s .perst else wakeSource s 2)

/-- PWR_WAKE_TIMER periods have passed; 0 disables TIMER. -/
def execWakeTimer (s : State) : Host.Outcome State Fault Refusal :=
  done (if fld s F.PWR_WAKE_TIMER_PERIODS = 0 then s else wakeSource s 3)

/-- A lane that is OFF detects the wake tone (R142). -/
def wakeTone (s : State) (n : Nat) : State :=
  if laneState s n = lnOFF ∧ flag s (F.WLN_LANEn_CFG_WAKE_DET n) = true ∧ pwrState s ≠ wOFF then
    wakeSource (setFld (raise s 0x0E06 [(1, n)]) (F.WLN_LANEn_STATUS_WAKE_SEEN n) 1) 1
  else s

def execWakeToneDetect (n : Fin 8) (s : State) : Host.Outcome State Fault Refusal := done (wakeTone s n)

/-! ### Wakes (R447, R448) -/

/-- A rail is on. -/
def railOn (s : State) (i : Nat) : State :=
  setFld (setFld s F.PWR_RAILS_EN (putBits (fld s F.PWR_RAILS_EN) i 1 1)) F.PWR_RAILS_PGOOD (putBits (fld s F.PWR_RAILS_PGOOD) i 1 1)

/-- SYSPLL1 and every enabled fabric PLL are locked. -/
def pllsLocked (s : State) : Bool :=
  s.clk.plls.contains 1 && (List.range 24).all fun n => !flag s (F.CLK_FPLLn_EN n) || flag s (F.CLK_FPLLn_LOCKED n)

/-- The wake goes to step k. -/
def wakeTo (s : State) (k : Nat) : State := setPwr s { s.pwr with step := k }

/-- The check of a step passes, and the next step runs. -/
def wakeStep (s : State) : State :=
  if pwrPhase s = 1 then s
  else match s.pwr.step with
    | 1 => wakeTo (railOn s 0) 2
    | 2 => wakeTo (railOn s 1) 3
    | 3 => wakeTo (railOn s 2) 4
    | 4 => wakeTo s 5
    | 5 =>
      let s1 := wakeTo (railOn s 3) 6
      if s1.rst.srcs.isEmpty then beginRelease s1 else s1
    | 7 => wakeTo (froStart s) 8
    | 8 => if flag s F.CLK_STATUS_FRO_STABLE then wakeTo s 9 else s
    | 9 =>
      if !s.clk.plls.contains 0 then s
      else wakeTo (if flag s F.CLK_STATUS_REF_STABLE && !s.clk.trip then sysclkRef s else s) 10
    | 10 => wakeTo s 11
    | 11 => if pllsLocked s then wakeDone s else s
    | _ => s

def execWakeStep (s : State) : Host.Outcome State Fault Refusal := done (wakeStep s)

/-- The check of the step in hand can still fail. -/
def stepFails (s : State) : Bool :=
  pwrPhase s != 1 &&
  match s.pwr.step with
  | 1 | 2 | 3 | 4 | 5 | 10 => true
  | 8 => !flag s F.CLK_STATUS_FRO_STABLE
  | 9 => !s.clk.plls.contains 0
  | 11 => !pllsLocked s
  | _ => false

/-- CAUSE and RAIL of a failure at a step: PGOOD 0, AVS 1, OSC 2, PLL 3. -/
def failCause (k : Nat) : Nat × Nat :=
  match k with
  | 1 => (0, 0)
  | 2 => (0, 1)
  | 3 => (0, 2)
  | 5 => (0, 3)
  | 4 => (1, 0)
  | 10 => (1, 0)
  | 8 => (2, 0)
  | _ => (3, 0)

/-- The steps taken are undone and the state left is entered again. -/
def wakeUndone (s : State) : State :=
  let s1 := pllsOff s
  let s2 := if s.pwr.left = wIDLE then s1 else setWindows (setClk s1 { s1.clk with plls := [] }) 2 0
  setPwr (setFld s2 F.PWR_STATUS_PHASE 0) {}

/-- A wake fails; the third failure in a row is a fault, and the device goes to OFF. -/
def wakeFail (s : State) : State :=
  let c := failCause s.pwr.step
  let s1 := setFld (setFld (raise s 0x0304 []) F.PWR_WAKE_FAIL_CAUSE c.1) F.PWR_WAKE_FAIL_RAIL c.2
  let s2 := satInc (satInc s1 F.PWR_WAKE_FAIL_CONSEC) F.PWR_WAKE_FAIL_TOTAL
  if fld s2 F.PWR_WAKE_FAIL_CONSEC = 3 then enterOff (raise (assertFault s2 2) 0x0305 [])
  else if s.pwr.left = wOFF then enterOff s2
  else wakeUndone s2

def execWakeStepTimeout (s : State) : Host.Outcome State Fault Refusal := done (if stepFails s then wakeFail s else s)

/-! ### Lost rails and thermal trips (R451, R458) -/

/-- The PGOOD of a rail that is on falls. -/
def railLost (s : State) (i : Nat) : State :=
  if pwrState s = wOFF ∨ bitOf (fld s F.PWR_RAILS_EN) i = false then s
  else enterOff (assertFault (raise s 0x0306 [(1, i)]) 3)

def execRailLost (rail : Fin 4) (s : State) : Host.Outcome State Fault Refusal := done (railLost s rail)

/-- THERM: the reach of PIN, and then OFF. -/
def assertTherm (s : State) : State := enterOff (assertCause s cTHERM 0 0)

def execTripThermAssert (s : State) : Host.Outcome State Fault Refusal :=
  done (if fld s F.THM_STATUS_STATE = tTRIP ∧ isOff s = false then assertTherm s else s)

/-- The trip check of SLEEP and DEEP SLEEP: TRIP as the rounds judge it, and THERM at once. -/
def sleepTrip (s : State) (temps : List (Option (BitVec 16))) : State :=
  if pwrState s ≠ wSLEEP ∧ pwrState s ≠ wDEEP then s
  else
    let s1 := forEach (List.range 20) (fun s n => readSensor s n (temps.getD n none)) s
    let s2 := setThm s1 { s1.thm with hot := if (anyHot s1 (limTrip s1)).isSome then min (s1.thm.hot + 1) 2 else 0 }
    if s2.thm.hot = 2 then assertTherm (raise s2 0x0404 []) else s2

def execSleepTripCheck (temps : List (Option (BitVec 16))) (s : State) : Host.Outcome State Fault Refusal := done (sleepTrip s temps)

end Sys2Proof.Machine
end

