-- ==== Sys2Proof/Machine/RegViews.lean ====
section
/-! DEFINITION. Register reads: the fields whose value is that of another part of the state at the moment of the read,
the reads with an effect of their own, and the word a read returns (R8, R533, R535). -/
namespace Sys2Proof.Machine

/-! ### Fields computed at the read -/

/-- GLB_STATUS (R535), by the field's lowest bit. -/
def viewGlb (s : State) (b : Nat) : Nat :=
  match b with
  | 0 => b2n (bstopState s != bRUN)
  | 1 => b2n (rtValid s)
  | 2 => fld s F.STK_STATUS_TRAINED
  | 3 => fld s F.MEM_STATUS_INIT_DONE
  | 4 => fld s F.BST_STATUS_STARTUP_DONE
  | 5 => fld s F.SBX_STATUS_READY
  | 6 => fld s F.RST_STATUS_FUSE_FAULT
  | _ => fld s F.THM_STATUS_STATE

/-- CFG_VT_OWNER (R225, R228): a track above 614,399 reads NONE. -/
def viewTrack (s : State) (b : Nat) : Nat :=
  let t := fld s F.CFG_VT_QUERY_TRACK
  if 614399 < t then 0
  else match b with
    | 0 => claimOf s t (fld s F.CFG_VT_QUERY_CTX)
    | 2 => b2n (driverOf s t != 0)
    | _ => trackValue s t

/-- FAB_CUFF_RESULT (R260): a cuff that does not exist reads zeros. -/
def viewCuff (s : State) (b : Nat) : Nat :=
  let r := fld s F.FAB_CUFF_QUERY_REGION
  let t := fld s F.FAB_CUFF_QUERY_TILE
  let i := fld s F.FAB_CUFF_QUERY_INDEX
  if !cuffExists r t i then 0
  else match b with
    | 0 => cuffMode s r t i
    | 2 => cuffEff s r t i
    | 4 => cuffValue s r t i
    | _ => 1

/-- STK_TRIM_RESULT (R321). -/
def viewTrim (s : State) (b : Nat) : Nat :=
  let k := fld s F.STK_TRIM_QUERY_LINK
  let l := fld s F.STK_TRIM_QUERY_LANE
  match b with
  | 0 => trimOf s k l 0
  | 8 => trimOf s k l 1
  | 16 => (carrierOf s k l).getD 0
  | 20 => b2n (carrierOf s k l).isSome
  | _ => b2n ((link s k).failed.contains l)

/-- BST_SPARE_RESULT (R465). -/
def viewSpare (s : State) (b : Nat) : Nat :=
  let u := fld s F.BST_SPARE_QUERY_UNIT
  let k := fld s F.BST_SPARE_QUERY_BANK
  if unitBanks u ≤ k then 0
  else match b with
    | 0 => rowsFree s (unitKind u) (unitDie u) k
    | 8 => colsFree s (unitKind u) (unitDie u) k
    | 16 => fusedAt s (unitKind u) (unitDie u) k 1
    | _ => fusedAt s (unitKind u) (unitDie u) k 2

/-- FAB: counts of regions, clocks that tick, staged cuffs. -/
def viewFab (s : State) (f : Fld) (o b : Nat) : Nat :=
  if o = 0x70004 ∧ b = 16 then ((List.range 72).filter fun r => regState s r == gRELEASED).length
  else if o = 0x70004 ∧ b = 24 then ((List.range 72).filter fun r => regAsleep s r).length
  else if o = 0x70204 then viewCuff s b
  else if 0x71000 ≤ o ∧ o < 0x74000 ∧ o % 0x40 = 0 ∧ b = 4 then
    let r := (o - 0x71000) / 0x40
    (List.range 4).foldr (fun n x => b2n (regTicks s r && regClkEn s r n) + 2 * x) 0
  else if 0x74000 ≤ o ∧ o % 0x10 = 0 ∧ b = 3 then b2n ((region s ((o - 0x74000) / 0x10)).staged != [])
  else fld s f

/-- DSP: the sort store, the rails' levels, the journals. -/
def viewDsp (s : State) (f : Fld) (o b : Nat) : Nat :=
  if o = 0x90004 ∧ b = 16 then s.dsp.store.length
  else if 0x90100 ≤ o ∧ o < 0x90300 ∧ o % 0x40 = 0x10 then levelAt s ((o - 0x90100) / 0x40) (now s)
  else if 0x90400 ≤ o ∧ o < 0x90480 ∧ o % 0x20 = 8 then
    let p := (o - 0x90400) / 0x20
    if b = 0 then (port s p).journal.length else (port s p).outst.length
  else fld s f

/-- MEM: a group that holds banks of the Timetable partition shows it (R52, R268). -/
def viewMem (s : State) (f : Fld) (o b : Nat) : Nat :=
  if o < 0x101000 then fld s f
  else
    let n := (o - 0x101000) / 0x10
    match o % 0x10 with
    | 0 => groupMode s n
    | 4 => bankOwner s n (b / 8)
    | 8 => bankOwner s n (4 + b / 8)
    | _ => b2n (groupHasTt s n)

/-- ENG: the threads' PCs, requests outstanding, wake messages, completion records. -/
def viewEng (s : State) (f : Fld) (o b : Nat) : Nat :=
  let n := (o - 0x180000) / 0x400
  if 0x10 ≤ o % 0x400 ∧ o % 0x400 < 0x50 ∧ o % 0x10 = 0 then (thread s n ((o % 0x400 - 0x10) / 0x10)).pc % 2 ^ 16
  else if o % 0x400 = 4 ∧ b = 16 then (engine s n).win.length
  else if o % 0x400 = 0xA8 ∧ b = 0 then (engine s n).wakeq.length
  else if o % 0x400 = 0xAC then (if b = 0 then (engCqOf s n).length else srcInFlight s (.engine n))
  else fld s f

/-- SBX: the log, the mirror, and the time the watchdog has left, a free value of at most what it was loaded with. -/
def viewSbx (s : State) (f : Fld) (o b : Nat) : Nat :=
  if o = 0x1C0018 ∧ b = 0 ∧ wdogRuns s = true then freeOf s % (fld s f + 1)
  else if o = 0x1C0020 then (s.log.head?.map (·.seq)).getD 0
  else if o = 0x1C0024 then (s.log.getLast?.map (·.seq)).getD 0
  else if o = 0x1C0028 ∧ b = 0 then s.mirrorQ.length
  else fld s f

/-- The oldest BST record with VALID (R468). -/
def viewResult (s : State) (b : Nat) : Nat :=
  match s.bst.queue with
  | [] => 0
  | r :: _ => if b = 0 then r else 1

/-- What a read of a field gives. -/
def view (s : State) (f : Fld) : Nat :=
  let o := f.key / 32 * 4
  let b := f.key % 32
  match o / 0x10000 with
  | 0x00 => if o = 4 then viewGlb s b else fld s f
  | 0x05 => if o = 0x50034 then bits (keySlotsWord s) b f.width
      else if o = 0x50804 then viewTrack s b
      else if o = 0x50808 then s.fab.claims.length
      else fld s f
  | 0x07 => viewFab s f o b
  | 0x08 => if o = 0x8003C then hcqHead s else fld s f
  | 0x09 => viewDsp s f o b
  | 0x0C => if o = 0xC1024 then riCqHead s
      else if 0xC1050 ≤ o ∧ o < 0xC1064 then bits (mbRxHead s) (f.key - 8 * 0xC1050) f.width
      else fld s f
  | 0x10 => viewMem s f o b
  | 0x12 => if o = 0x12003C ∧ b = 16 then pageOwner s (fld s F.HWN_OWN_QUERY_PAGE)
      else if o = 0x120040 then bits (abortHead s) b f.width
      else fld s f
  | 0x14 => if o = 0x140024 then viewTrim s b else fld s f
  | 0x18 => viewEng s f o b
  | 0x19 => viewEng s f o b
  | 0x1C => viewSbx s f o b
  | 0x1D => if o = 0x1D0010 ∨ o = 0x1D0014 then viewResult s (if f.width = 1 then 1 else 0)
      else if o = 0x1D0038 then viewSpare s b
      else fld s f
  | 0x1F => if o = 0x1F0008 then Config.legacyStraps % 4 else fld s f
  | _ => fld s f

/-- The value of a word, before latching: a field is read whole, so that a field of two words shows both. -/
def wordNow (s : State) (off : Nat) : Nat := readWord (view s) off % 2 ^ 32

/-! ### Reads with an effect of their own (R533) -/

/-- The upper word of a pair whose lower word's read latches it: ANG_RT, ANG_AXn_STAMP, TT_AXn_FRONT and
WLN_LANEn_SYMCNT. -/
def latchPair (off : Nat) : Bool :=
  off / 4 * 4 == 0xA0010
  || (decide (0xA1000 ≤ off) && decide (off < 0xA1400) && off % 0x40 == 0x18)
  || (decide (0x80200 ≤ off) && decide (off < 0x80280) && off % 8 == 0)
  || (decide (0xE0000 ≤ off) && decide (off < 0xE8000) && off % 0x1000 == 0x58)

/-- The words whose fields hold free values at a read: each read draws anew. -/
def readsFree (off : Nat) : Bool := [0x50804, 0x70204, 0x1C0018].contains off

/-- What a read of a word does: latches, removals, RC fields. -/
def readEffect (s : State) (off : Nat) : State :=
  let s1 := if readsFree off then drawn s else s
  if latchPair off then
    let s2 := latchUpper s1 (off + 4) (wordNow s (off + 4))
    if off / 0x10000 = 0x0E then clearWord s2 off else s2
  else if latchPair (off - 4) && decide (4 ≤ off) then s1
  else match off with
    | 0x8003C => hcqPop s1
    | 0xC1024 => riCqPop s1
    | 0xC1060 => mbRxPop s1
    | 0x120040 => abortPop s1
    | 0x1D0014 => resultRead s1
    | _ => clearWord s1 off

/-- The word a read returns. -/
def readValue (s : State) (off : Nat) : Nat :=
  if latchPair (off - 4) && decide (4 ≤ off) then latched s off (wordNow s off) else wordNow s off

end Sys2Proof.Machine
end

