-- ==== Sys2Proof/Machine/RegWrites.lean ====
section
/-! DEFINITION. Register writes with an effect of their own: each leads to the operation that its chapter gives it. What
every other field does stands in `plainWrite`. -/
namespace Sys2Proof.Machine

/-- A write to an ENABLE field: a 1 enables what is off, a 0 disables what is on, and while draining neither acts (R13). -/
def enableWrite (s : State) (en dr : Fld) (b : Bool) (on off : State → State) : State :=
  if flag s dr then s
  else if b then (if flag s en then s else on s)
  else if flag s en then off s
  else s

/-- An ENABLE in bit 0 that only takes its value when set. -/
def plainEnable (s : State) (en dr : Fld) (w : Nat) (off : State → State) : State :=
  enableWrite s en dr (bitOf w 0) (fun s => setFld s en 1) off

/-- The operation follows where a bit of the word is 1. -/
def whenBit (w i : Nat) (f : State → State) (s : State) : State := if bitOf w i then f s else s

/-- A WO field holds its word for the operation that uses it. -/
def storeWord (s : State) (f : Fld) (off w : Nat) : State := setFld s f (fieldNew f off w (fld s f))

/-! ### By block -/

/-- GLB_RESET and GLB_NMI_STATUS; whether the monitor would trip again is a free value (R416). -/
def ownGlb (s : State) (off w : Nat) : State :=
  match off with
  | 0x0C => if bitOf w 0 && bits w 16 16 == 0xC0DE then assertPin s cSWFULL else s
  | 0x10 => if bitOf w 0 then nmiClear (drawn s) true (bitOf w 1) (freeOf s % 2 == 1) else nmiClear s false (bitOf w 1) false
  | _ => s

/-- RST_DIE.HOLD bit by bit, and RST_BLOCK. -/
def ownRst (s : State) (off w : Nat) : State :=
  match off with
  | 0x10008 => forEach (List.range 9) (fun s i => if bitOf w (i + 1) then dieAssert s (i + 1) else if bitOf (fld s F.RST_DIE_HOLD) i then dieRelease s (i + 1) else s) s
  | 0x10010 => rstBlockWrite s (w % 2 ^ 32)
  | 0x10014 => rstBlockWrite s (w % 2 * 2 ^ 32)
  | _ => s

/-- A write of CLK_FPLLn: M, O0 and O1 take it only while EN reads 0 (R414). -/
def fpllWrite (s : State) (n w : Nat) : State :=
  if flag s (F.CLK_FPLLn_EN n) then (if bitOf w 0 then s else fpllDisable s n)
  else
    let s1 := setRanged s (F.CLK_FPLLn_M n) (.within 64 128) (bits w 2 8)
    let s2 := setRanged (setRanged s1 (F.CLK_FPLLn_O0 n) (.within 2 64) (bits w 10 7)) (F.CLK_FPLLn_O1 n) (.within 2 64) (bits w 17 7)
    whenBit w 0 (fun s => fpllEnable s n) s2

def ownClk (s : State) (off w : Nat) : State :=
  if off = 0x20000 then
    let s1 := plainEnable s F.CLK_CTRL_ENABLE F.CLK_STATUS_DRAINING w clkDisable
    whenBit w 2 sysclkReturn (froRest (setFld s1 F.CLK_CTRL_FRO_ON (bits w 1 1)))
  else if off = 0x20008 then opRequest s (w % 4)
  else if 0x20100 ≤ off ∧ off < 0x20160 then fpllWrite s ((off - 0x20100) / 4) w
  else s

/-- PWR_CTRL; bit 0 of PWR_WAKE_EN reads 1 and ignores writes. -/
def ownPwr (s : State) (off w : Nat) : State :=
  match off with
  | 0x30000 =>
    let s1 := plainEnable s F.PWR_CTRL_ENABLE F.PWR_STATUS_DRAINING w pwrDisable
    whenBit w 4 (fun s => powerEntry s (bits w 1 3)) s1
  | 0x30008 => setFld s F.PWR_WAKE_EN_SOURCES (w ||| 1)
  | _ => s

/-- CFG: the session's controls act in bit order; CFG_DEADLINE takes no write after its time has passed (R352). -/
def ownCfg (s : State) (off w : Nat) : State :=
  if 0x58000 ≤ off then loadWindow s (bytesOf 4 w)
  else match off with
  | 0x50000 => whenBit w 2 reveal (plainEnable s F.CFG_CTRL_ENABLE F.CFG_STATUS_DRAINING w cfgDisable)
  | 0x50008 =>
    whenBit w 2 (fun s => endEarly s 2) (whenBit w 1 (fun s => endEarly s 0) (whenBit w 0 (fun s => sessionOpen s (bitOf w 3) (bits w 4 4)) s))
  | 0x50030 => if s.cfg.expired then s else setFld (setFld s F.CFG_DEADLINE_MS (bits w 0 16)) F.CFG_DEADLINE_FUNCS (bits w 16 3)
  | 0x50044 => whenBit w 0 readback s
  | _ => s

def ownCtx (s : State) (m : Master) (off w : Nat) : State :=
  if off = 0x60000 then plainEnable s F.CTX_CTRL_ENABLE F.CTX_STATUS_DRAINING w ctxDisable
  else if off < 0x61000 ∨ 0x61900 ≤ off then s
  else
    let r := (off - 0x61000) / 0x20
    if off % 0x20 = 8 then pointsWrite s m r (w % 4)
    else if off % 0x20 = 0xC then planeClear s r (w % 16)
    else s

/-- FAB_REGr_CTRL, and FAB_REGr_CLK, which takes writes only while the region is not RELEASED (R209). STOP and START set in
one write have no effect (R255). -/
def ownFab (s : State) (off w : Nat) : State :=
  if off = 0x70000 then plainEnable s F.FAB_CTRL_ENABLE F.FAB_STATUS_DRAINING w fabDisable
  else if off < 0x71000 ∨ 0x72200 ≤ off then s
  else
    let r := (off - 0x71000) / 0x40
    if off % 0x40 = 4 then
      let s1 := whenBit w 1 (fun s => regionWakeWrite s r) s
      if bitOf w 2 && bitOf w 3 then s1
      else whenBit w 3 (fun s => regionStart s r) (whenBit w 2 (fun s => regionStop s r) s1)
    else if off % 0x40 = 8 then
      if lockedAt s off || regState s r == gRELEASED then s
      else
        let s1 := setFld (setFld s (F.FAB_REGr_CLK_SEL0 r) (bits w 0 4)) (F.FAB_REGr_CLK_SEL1 r) (bits w 4 4)
        setFld (setFld (setFld s1 (F.FAB_REGr_CLK_SEL2 r) (bits w 8 4)) (F.FAB_REGr_CLK_SEL3 r) (bits w 12 4)) (F.FAB_REGr_CLK_EN r) (bits w 16 4)
    else s

/-- TT: TT_SIZE takes 00 to 10 while nothing is reserved (R51, R54). -/
def ownTt (s : State) (off w : Nat) : State :=
  match off with
  | 0x80000 => enableWrite s F.TT_CTRL_ENABLE F.TT_STATUS_DRAINING (bitOf w 0) ttEnable ttDisable
  | 0x80008 => if ttReserved s || w % 4 == 3 then s else setFld s F.TT_SIZE_ENTRIES (w % 4)
  | 0x80020 => storeWord s F.TT_HIN_ENTRY off w
  | 0x80024 => storeWord s F.TT_HIN_ENTRY off w
  | 0x80028 => storeWord s F.TT_HIN_ENTRY off w
  | 0x8002C => storeWord s F.TT_HIN_ENTRY off w
  | 0x80030 => hostInsertGo s w
  | 0x80040 => flushGo s w
  | _ => s

/-- The group-record ring's place: 512 KiB aligned, whole within the plain range of the memory dies. -/
def grpRingWrite (s : State) (off w : Nat) : State :=
  let v := fieldNew F.DSP_GRP_RING_BASE off w (fld s F.DSP_GRP_RING_BASE) / 2 ^ 19 * 2 ^ 19
  if lockedAt s off || decide (0x0C000000 < v + 0x80000) then s else setFld s F.DSP_GRP_RING_BASE v

/-- DSP: LEAD stays above MARGIN and MARGIN below LEAD. -/
def ownDsp (s : State) (off w : Nat) : State :=
  match off with
  | 0x90000 => plainEnable s F.DSP_CTRL_ENABLE F.DSP_STATUS_DRAINING w dspDisable
  | 0x90008 =>
    let v := max 20 (min (bits w 0 11) 2000)
    if lockedAt s off || decide (v ≤ fld s F.DSP_COMMIT_MARGIN_MARGIN) then s else setFld s F.DSP_LEAD_LEAD v
  | 0x90010 => if lockedAt s off || decide (fld s F.DSP_LEAD_LEAD ≤ bits w 0 11) then s else setFld s F.DSP_COMMIT_MARGIN_MARGIN (bits w 0 11)
  | 0x90014 => whenBit w 1 bstopClear (whenBit w 0 bstopReq s)
  | 0x90520 => grpRingWrite s off w
  | 0x90524 => grpRingWrite s off w
  | _ => s

def ownAng (s : State) (off w : Nat) : State :=
  if off = 0xA0000 then enableWrite s F.ANG_CTRL_ENABLE F.ANG_STATUS_DRAINING (bitOf w 0) angEnable angDisable
  else if off = 0xA0008 then roleWrite s w
  else if off = 0xA0030 then whenBit w 0 ptmCapture s
  else if off < 0xA1000 ∨ 0xA1400 ≤ off then s
  else
    let n := (off - 0xA1000) / 0x40
    match off % 0x40 with
    | 0 => axisCfgWrite s n w
    | 0x28 => if angOn s then storeWord s (F.ANG_AXn_VIRT_STAMP n) off w else s
    | 0x2C => virtCommit s n w
    | 0x30 => storeWord s (F.ANG_AXn_VIRT_VEL_VEL n) off w
    | _ => s

/-- WNG: the ports' CTRL, and the node's remote inserts and messages. -/
def ownWng (s : State) (off w : Nat) : State :=
  let p := (off - 0xC0000) / 0x4000
  if off % 0x4000 = 0 then
    whenBit w 3 (fun s => enumWrite s p)
      (enableWrite s (F.WNG_Pp_CTRL_ENABLE p) (F.WNG_Pp_STATUS_DRAINING p) (bitOf w 0) (fun s => portEnable s p) (fun s => portDisable s p))
  else if 0xC1010 ≤ off ∧ off < 0xC1020 then storeWord s F.WNG_RI_ENTRY_ENTRY off w
  else if off = 0xC1020 then riGo s w
  else if 0xC1030 ≤ off ∧ off < 0xC1040 then storeWord s F.WNG_MB_TX_DATA off w
  else if off = 0xC1040 then mbTxGo s w
  else s

/-- WLN: CTRL, TEST and INJECT of lane n. A write that leaves TRAIN as it is does not train anew. -/
def ownWln (s : State) (off w : Nat) : State :=
  let n := (off - 0xE0000) / 0x1000
  if 0xE8000 ≤ off then s
  else match off % 0x1000 with
  | 4 =>
    let s1 := if bitOf w 0 == flag s (F.WLN_LANEn_CTRL_TRAIN n) then s else laneTrainWrite s n (bitOf w 0)
    whenBit w 2 (fun s => wakeTx s n) (whenBit w 1 (fun s => laneDown s n 3) s1)
  | 0x40 => testWrite s n w
  | 0x60 =>
    let s1 := whenBit w 1 (fun s => injectSymbols s n (fld s (F.WLN_LANEn_INJECT_BURST_LEN n) + 1)) (whenBit w 0 (fun s => injectSymbols s n 1) s)
    whenBit w 2 (fun s => injectCrc s n) s1
  | _ => s

def ownMem (s : State) (off w : Nat) : State :=
  if off = 0x100000 then plainEnable s F.MEM_CTRL_ENABLE F.MEM_STATUS_DRAINING w memDisable
  else if off = 0x100008 then (if lockedAt s off then s else setFld s F.MEM_PATROL_ENABLE (w % 2))
  else if off < 0x101000 ∨ 0x101180 ≤ off then s
  else
    let n := (off - 0x101000) / 0x10
    match off % 0x10 with
    | 0 => groupModeWrite s n (w % 4)
    | 4 => groupOwnerWrite s n 0 w
    | 8 => groupOwnerWrite s n 1 w
    | _ => s

def ownSch (s : State) (off w : Nat) : State :=
  match off with
  | 0x110000 => enableWrite s F.SCH_CTRL_ENABLE F.SCH_STATUS_DRAINING (bitOf w 0) schEnable schDisable
  | 0x110030 => storeWord s F.SCH_ZERO_LINE off w
  | 0x110034 => schZero s (w % 2 ^ 16)
  | _ => s

/-- HWN: map, ownership, and the rings' CTRL and TAIL. RESET acts before ENABLE. -/
def ownHwn (s : State) (off w : Nat) : State :=
  match off with
  | 0x120000 => plainEnable s F.HWN_CTRL_ENABLE F.HWN_STATUS_DRAINING w hwnDisable
  | 0x120010 => if bitOf w 16 then mapWrite s (bits w 0 15) else mapLoad s (bits w 0 15)
  | 0x120030 => ownGive s (bits w 0 15) (bits w 16 15)
  | 0x120034 => ownReclaim s (bits w 0 15) (bits w 16 15)
  | _ =>
    if off < 0x121000 ∨ 0x121400 ≤ off then s
    else
      let k := (off - 0x121000) / 0x40
      if off % 0x40 = 0 then
        plainEnable (whenBit w 1 (fun s => ringReset s k) s) (F.HWN_RINGk_CTRL_ENABLE k) (F.HWN_RINGk_STATUS_DRAINING k) w fun s => ringDisable s k
      else if off % 0x40 = 0x14 then ringTail s k (bits w 0 12)
      else s

def ownEnc (s : State) (off w : Nat) : State :=
  match off with
  | 0x130000 => plainEnable s F.ENC_CTRL_ENABLE F.ENC_STATUS_DRAINING w encDisable
  | 0x130008 => whenBit w 0 rekeyGo s
  | _ => s

def ownStk (s : State) (off w : Nat) : State :=
  if off = 0x140000 then plainEnable s F.STK_CTRL_ENABLE F.STK_STATUS_DRAINING w stkDisable
  else if off < 0x141000 ∨ 0x141AC0 ≤ off ∨ off % 0x40 ≠ 0 then s
  else
    let k := (off - 0x141000) / 0x40
    whenBit w 1 (fun s => fence (setFld s (F.STK_Lk_CTRL_FENCE k) 1) k 1) (whenBit w 0 (fun s => linkRetrain s k) s)

/-- ENG_n_CTRL: START with ENABLE, in the order in which nothing starts that the write stops. -/
def engCtrlWrite (s : State) (n w : Nat) : State :=
  let en := fun s => enableWrite s (F.ENG_n_CTRL_ENABLE n) (F.ENG_n_STATUS_DRAINING n) (bitOf w 0)
    (fun s => engEnable s n) (fun s => engDisable s n)
  let s1 := if bitOf w 0 then en (engStart s n (bits w 1 4)) else engStart (en s) n (bits w 1 4)
  whenBit w 30 (fun s => engSreset s n) s1

/-- ENG_n_Tt_PC takes writes only in STOPPED and FAULT (R153). -/
def pcWrite (s : State) (n t w : Nat) : State :=
  if thrState s n t = tSTOPPED ∨ thrState s n t = tFAULT then setThread s n t { thread s n t with pc := w % 2 ^ 16 } else s

def ownEng (s : State) (off w : Nat) : State :=
  let n := (off - 0x180000) / 0x400
  let o := off % 0x400
  if 96 ≤ n then s
  else if o = 0 then engCtrlWrite s n w
  else if 0x10 ≤ o ∧ o < 0x50 ∧ o % 0x10 = 0 then pcWrite s n ((o - 0x10) / 0x10) w
  else if 0x50 ≤ o ∧ o < 0x90 then
    let k := (o - 0x50) / 8
    if o % 8 = 0 then storeWord (setFld s (F.ENG_n_WINw_VALID n k) (w % 2)) (F.ENG_n_WINw_BASE n k) off w
    else storeWord s (F.ENG_n_WINw_BASE n k) off w
  else if o = 0x98 then portsOff s n
  else if o = 0x90 then setFld s (F.ENG_n_SIGNAL_SIGNAL n) (fld s (F.ENG_n_SIGNAL_SIGNAL n) ||| w % 2 ^ 16)
  else s

/-- SBX_WDOG_CFG: an ENABLE set anew expects 0x5A5A first and loads PERIOD (R400). -/
def wdogWrite (s : State) (w : Nat) : State :=
  if lockedAt s 0x1C0010 then s
  else
    let s1 := setFld (setFld (setFld s F.SBX_WDOG_CFG_ENABLE (w % 2)) F.SBX_WDOG_CFG_ACTION (bits w 1 2)) F.SBX_WDOG_CFG_PERIOD (max 10 (bits w 16 16))
    if bitOf w 0 && !flag s F.SBX_WDOG_CFG_ENABLE then
      setFld (setSbx s1 { s1.sbx with kick := false }) F.SBX_WDOG_STATUS_REMAIN (wdogPeriod s1)
    else s1

/-- SBX; mailbox words written while BUSY reads 1 are discarded (R388). -/
def ownSbx (s : State) (off w : Nat) : State :=
  if 0x1C1000 ≤ off then
    (if off < 0x1C2000 ∧ flag s F.SBX_MB_STATUS_BUSY = false then setFld s (F.SBX_MAILBOXi_WORD ((off - 0x1C1000) / 4)) w else s)
  else match off with
  | 0x1C0000 => whenBit w 30 sbxSreset (plainEnable s F.SBX_CTRL_ENABLE F.SBX_STATUS_DRAINING w sbxDisable)
  | 0x1C0008 => whenBit w 0 doorbell s
  | 0x1C000C => whenBit w 1 (fun s => setFld s F.SBX_MB_STATUS_DONE 0) s
  | 0x1C0010 => wdogWrite s w
  | 0x1C0014 => wdogKick s (w % 2 ^ 16)
  | 0x1C0030 => fuseArm s w
  | _ => s

/-- BST_CTRL and BST_Uu_CMD.GO. -/
def ownBst (s : State) (off w : Nat) : State :=
  if off = 0x1D0000 then plainEnable s F.BST_CTRL_ENABLE F.BST_STATUS_DRAINING w bstDisable
  else if 0x1D0100 ≤ off ∧ off < 0x1D0190 ∧ off % 0x10 = 0 ∧ bitOf w 0 = true then
    bstGo s ((off - 0x1D0100) / 0x10) (bitOf w 1) (bitOf w 2) (bits w 4 2) (bits w 8 8) (bits w 16 8)
  else s

/-- DBG_ENGn_CTRL: the bits of each thread in the order HALT, RESUME, STEP; ATTACH and HALT_ALL take their values. -/
def dbgEngWrite (s : State) (n w : Nat) : State :=
  let s1 := setFld (setFld s (F.DBG_ENGn_CTRL_ATTACH n) (bits w 12 1)) (F.DBG_ENGn_CTRL_HALT_ALL n) (bits w 13 1)
  if !dbgOn s1 then s1
  else
    let s2 := forEach (List.range 4) (fun s t => whenBit w t (fun s => haltRequest s n t) s) s1
    let s3 := forEach (List.range 4) (fun s t => whenBit w (4 + t) (fun s => resumeThread s n t) s) s2
    forEach (List.range 4) (fun s t => whenBit w (8 + t) (fun s => stepThread s n t) s) s3

/-- DBG_REGr_CTRL: FREEZE, then CAPTURE and PULSE. -/
def dbgRegWrite (s : State) (r w : Nat) : State :=
  if !dbgOn s then s
  else
    let s1 := if bitOf w 0 then regionFreeze s r else if flag s (F.DBG_REGr_CTRL_FREEZE r) then regionUnfreeze s r else s
    let s2 := whenBit w 1 (fun s => regionCapture s r) s1
    if bits w 16 16 = 0 then s2 else regionPulse s2 r (bits w 16 16)

def ownDbg (s : State) (off w : Nat) : State :=
  if off = 0x1E0000 then plainEnable s F.DBG_CTRL_ENABLE F.DBG_STATUS_DRAINING w dbgDisable
  else if off = 0x1E000C then whenBit w 0 (fun s => if dbgOn s then frameGo s else s) s
  else if 0x1E1000 ≤ off ∧ off < 0x1E2800 ∧ off % 0x40 = 0 then dbgEngWrite s ((off - 0x1E1000) / 0x40) w
  else if 0x1E4000 ≤ off ∧ off < 0x1E4900 ∧ off % 0x20 = 0 then dbgRegWrite s ((off - 0x1E4000) / 0x20) w
  else s

/-- IOB_BANKb_CFG.VIO takes no write while the bank has an owner (R506). -/
def ownIob (s : State) (off w : Nat) : State :=
  let b := (off - 0x1F0100) / 4
  if 0x1F0100 ≤ off ∧ off < 0x1F0120 ∧ lockedAt s off = false ∧ flag s (F.FAB_BANKb_OWN_VALID b) = false then
    setFld s (F.IOB_BANKb_CFG_VIO b) (w % 4)
  else s

/-- The bits of PCI_EVT_EN that act: the codes listed in R530 (R532). -/
def listedCodes : Nat := ([0, 1, 2, 3, 4, 5, 6, 7, 8, 9, 10, 12, 14, 16, 17, 18, 19, 20, 24, 28, 29, 30, 31, 32].map fun b => 2 ^ b).sum

/-- PCI_CTRL, PCI_EVT_EN, and the message addresses and masks of function 0. -/
def ownPci (s : State) (off w : Nat) : State :=
  if off = 0x200000 then plainEnable s F.PCI_CTRL_ENABLE F.PCI_STATUS_DRAINING w pciDisable
  else if off = 0x200008 ∨ off = 0x20000C then
    setFld s F.PCI_EVT_EN_BLOCKS (fieldNew F.PCI_EVT_EN_BLOCKS off w (fld s F.PCI_EVT_EN_BLOCKS) &&& listedCodes)
  else if off < 0x208000 ∨ 0x209000 ≤ off then s
  else
    let v := (off - 0x208000) / 0x10
    match off % 0x10 with
    | 0 => storeWord s (F.PCI_MSIXv_ADDR_ADDRESS v) off (w / 4 * 4)
    | 4 => storeWord s (F.PCI_MSIXv_ADDR_ADDRESS v) off w
    | 0xC => setFld s (F.PCI_MSIXv_CTRL_MASK v) (w % 2)
    | _ => s

/-- The effects of a written word that have a rule of their own. -/
def ownWrite (s : State) (m : Master) (off w : Nat) : State :=
  match off / 0x10000 with
  | 0x00 => ownGlb s off w
  | 0x01 => ownRst s off w
  | 0x02 => ownClk s off w
  | 0x03 => ownPwr s off w
  | 0x04 => if off = 0x40000 then plainEnable s F.THM_CTRL_ENABLE F.THM_STATUS_DRAINING w thmDisable else s
  | 0x05 => ownCfg s off w
  | 0x06 => ownCtx s m off w
  | 0x07 => ownFab s off w
  | 0x08 => ownTt s off w
  | 0x09 => ownDsp s off w
  | 0x0A => ownAng s off w
  | 0x0C => ownWng s off w
  | 0x0E => ownWln s off w
  | 0x10 => ownMem s off w
  | 0x11 => ownSch s off w
  | 0x12 => ownHwn s off w
  | 0x13 => ownEnc s off w
  | 0x14 => ownStk s off w
  | 0x18 => ownEng s off w
  | 0x19 => ownEng s off w
  | 0x1C => ownSbx s off w
  | 0x1D => ownBst s off w
  | 0x1E => ownDbg s off w
  | 0x1F => ownIob s off w
  | 0x20 => ownPci s off w
  | _ => s

/-- A self-test GO that is refused changes nothing, so its word is not taken field by field (R464). -/
def goWord (off w : Nat) : Bool := decide (0x1D0100 ≤ off) && decide (off < 0x1D0190) && off % 0x10 == 0 && bitOf w 0

/-- A register of DBG that the lock state withholds (R480). -/
def dbgHidden (s : State) (off : Nat) : Bool :=
  off / 0x10000 == 0x1E && lockState s == 1
  && !(off == 0x1E0004 || off == 0x1E0008 || (decide (0x1E0020 ≤ off) && decide (off < 0x1E0040)))

/-- A whole 4-byte register write: the plain fields first, then the effects of their own. -/
def regWrite (s : State) (m : Master) (off w : Nat) : State :=
  if dbgHidden s off then s
  else if goWord off w then ownWrite s m off w
  else ownWrite (plainWrite s off w) m off w

/-- A register read: the word and the state it leaves. -/
def regRead (s : State) (off : Nat) : Nat × State :=
  if dbgHidden s off then (0, s) else (readValue s off, readEffect s off)

end Sys2Proof.Machine
end

