-- ==== Sys2Proof/Machine/Bus.lean ====
section
/-! DEFINITION. Accesses that name an address: registers by the host, the Signal Box, engines and the debug port (R8,
R373, R483, R484, R529), window requests (R165), and the end of draining (R13). -/
namespace Sys2Proof.Machine

/-! ### Registers that cannot be reached -/

/-- The step of R433 that releases the block with code b; 0 for the always-on domain. -/
def blkStep (b : Nat) : Nat :=
  match b with
  | 0x00 | 0x01 | 0x02 | 0x03 | 0x04 => 3
  | 0x14 => 4
  | 0x10 => 5
  | 0x18 | 0x19 => 8
  | 0x20 => 9
  | _ => 6

/-- Engine n is in reset: its own, its block's or its die's. -/
def engineShut (s : State) (n : Nat) : Bool :=
  s.rst.engWait.contains n || s.rst.engOn.contains n || blkShut s 0x18 || dieShut s (logicPos (engDie n))

/-- The register lies in a part that is held in reset, so that an access completes RESET (R433, R435). -/
def regHeld (s : State) (off : Nat) : Bool :=
  let b := off / 0x10000
  !s.rst.srcs.isEmpty || (s.rst.step != 0 && decide (s.rst.step < blkStep b))
  || (if b = 0x18 ∨ b = 0x19 then decide ((off - 0x180000) / 0x400 < 96) && engineShut s ((off - 0x180000) / 0x400) else blkShut s b)

/-- The register waits for the clocks of its block: in SLEEP and deeper, and for frozen blocks in a freeze (R417, R442). -/
def regWaits (s : State) (off : Nat) : Bool :=
  decide (1 < fld s F.PWR_STATUS_STATE) || (flag s F.CLK_STATUS_FROZEN && !([0x00, 0x01, 0x02, 0x03, 0x1C, 0x20].contains (off / 0x10000)))

/-! ### Register writes (R8, R373) -/

/-- The bits of 4 byte enables. -/
def beMask (be : Nat) : Nat := (List.range 4).foldr (fun i m => (if bitOf be i then 255 else 0) + 256 * m) 0

/-- What a byte that is not enabled writes to a row's field: the value it has, and 0 where a 1 would act. -/
def neutralRow (s : State) (off : Nat) (r : RegRow) : Nat :=
  match rowHit r off with
  | none => 0
  | some f => if r.acc = .rw ∨ r.acc = .rwl then inWord f off (fld s f) else 0

/-- The neutral word at an offset. -/
def neutralWord (s : State) (off : Nat) : Nat := ((rowsAt off).map (neutralRow s off)).sum

/-- The enabled bytes of a word, in ascending order. -/
def enabledBytes (be w : Nat) : List Byte := ((List.range 4).filter (bitOf be ·)).map fun i => BitVec.ofNat 8 (bits w (8 * i) 8)

/-- The load window, and the mailbox of the Signal Box: their bytes are taken one by one (R373). -/
def inLoadWindow (off : Nat) : Bool := decide (0x58000 ≤ off) && decide (off < 0x60000)
def inMailbox (off : Nat) : Bool := decide (0x1C1000 ≤ off) && decide (off < 0x1C2000)

/-- Mailbox bytes written; they are discarded while BUSY reads 1 (R388). -/
def mailboxWrite (s : State) (o be w : Nat) : State :=
  if flag s F.SBX_MB_STATUS_BUSY then s
  else forEach ((List.range 4).filter (bitOf be ·)) (fun s i => putMb s (o - 0x1C1000 + i) (bits w (8 * i) 8)) s

/-- A write of some bytes of the word at `o`. -/
def partWrite (s : State) (m : Master) (o be w : Nat) : State :=
  if be = 0 then s
  else if inLoadWindow o then loadWindow s (enabledBytes be w)
  else if inMailbox o then mailboxWrite s o be w
  else if be = 15 then regWrite s m o w
  else
    let k := beMask be
    let v := neutralWord s o
    regWrite s m o ((v - (v &&& k)) + (w &&& k))

/-- A write through BAR0: whole words with every byte enabled, or bytes of the load window or the mailbox; any other is
discarded and counted (R373). -/
def hostWrite (s : State) (off be w : Nat) : State :=
  let o := off / 4 * 4
  if off % 4 = 0 ∧ be = 15 ∨ inLoadWindow o = true ∨ inMailbox o = true then partWrite s .host o be w
  else satInc s F.PCI_CNT_BAD_WR_BAD_WR

/-- The master reaches the registers (R165, R483, R529). -/
def mayReach (s : State) (m : Master) : Bool :=
  match m with
  | .host => linkUp s && !(pciFn s 0).d3
  | .engine n => flag s (F.ENG_n_CTRL_REGS n)
  | .debug => dbgOpen s
  | .signalBox => fwRuns s

/-- A register write by a master. One to a part in reset is lost with status RESET, and one to a part without clocks has
not happened yet. -/
def registerWrite (s : State) (m : Master) (off be w : Nat) : State :=
  if !mayReach s m || regHeld s off || regWaits s off then s
  else match m with
    | .host => hostWrite s off be w
    | _ => partWrite s m (off / 4 * 4) be w

def execRegisterWrite (m : Master) (off : BitVec 24) (be : BitVec 4) (value : Word) (s : State) : Host.Outcome State Fault Refusal :=
  done (registerWrite s m off.toNat be.toNat value.toNat)

/-! ### BAR0 reads (R373) -/

/-- Words read in ascending order: their value, and the state they leave (R533). -/
def readWords : Nat → Nat → State → Nat × State
  | 0, _, s => (0, s)
  | n + 1, off, s =>
    let r := regRead s off
    let t := readWords n (off + 4) r.2
    (r.1 + 2 ^ 32 * t.1, t.2)

/-- A BAR0 read of 4 or 8 aligned bytes; any other completes UR. -/
def bar0Read (s : State) (off len : Nat) : State :=
  if !linkUp s then s
  else if (pciFn s 0).d3 || !((len == 4 || len == 8) && off % len == 0) then refuse s .ur
  else if regHeld s off then refuse s .ca
  else if regWaits s off then s
  else
    let r := readWords (len / 4) off s
    complete r.2 .sc false len r.1

def execBar0Read (off : BitVec 24) (len : Fin 4097) (s : State) : Host.Outcome State Fault Refusal := done (bar0Read s off.toNat len)

/-! ### Device accesses -/

/-- An access by a master to `n` aligned bytes at a device address outside the host window. -/
structure DevAcc where
  who   : Master
  code  : Nat
  addr  : Nat
  n     : Nat
  write : Bool
  be    : Nat
  data  : Nat
  deriving DecidableEq, Repr

/-- How an access ends: it waits, or it has a status, the data read and the state it leaves. -/
abbrev AccEnd := Option (Nat × Nat × State)

/-- The completion that the memory dies have just handed out is the access's own. -/
def takeRsp (a : DevAcc) (s : State) : AccEnd :=
  match s.rsps with
  | [] => none
  | q :: r => some (q.status, bits q.data (8 * (a.addr % 64)) (8 * a.n), { s with rsps := r })

/-- An access to the memory dies. -/
def memAccess (s : State) (a : DevAcc) (x : AccIn) : AccEnd :=
  if !mayIssue s a.code then none
  else if a.write then
    takeRsp a (memWrite s a.code (a.addr / 64 * 64) 0 (a.be * 2 ^ (a.addr % 64)) (a.data * 2 ^ (8 * (a.addr % 64))) x.flips.toNat (x.wire.map (·.toNat)) x.late false)
  else takeRsp a (memRead s a.code (a.addr / 64 * 64) 0 x.flips.toNat x.busy false (x.wire.map (·.toNat)))

/-- An access to a scratchpad, at its external port. -/
def spAccess (s : State) (a : DevAcc) (x : AccIn) : AccEnd :=
  let o := a.addr - 0x000200000000
  let sh := a.addr % 64
  if !sysClocks s then none
  else
    let be := if a.write then a.be else 2 ^ a.n - 1
    let r := extAccess s (o / 0x10000) (o % 0x10000 / 64) a.write (be * 2 ^ sh) (a.data * 2 ^ (8 * sh)) x.coll.toNat x.engW.toNat x.ecc x.eccWord
    some (r.1, bits r.2.1 (8 * sh) (8 * a.n), r.2.2)

/-- An access to registers: word by word in ascending order (R533). -/
def regAccess (s : State) (a : DevAcc) : AccEnd :=
  let off := a.addr - 0x000100000000
  let o := off / 4 * 4
  if regHeld s off then some (ST.reset, 0, s)
  else if regWaits s off then none
  else if a.write then
    let be := a.be * 2 ^ (off % 4)
    let w := a.data * 2 ^ (8 * (off % 4))
    let s1 := partWrite s a.who o (be % 16) (w % 2 ^ 32)
    some (ST.ok, 0, if a.n = 8 then partWrite s1 a.who (o + 4) (be / 16 % 16) (w / 2 ^ 32 % 2 ^ 32) else s1)
  else
    let r := readWords (if a.n = 8 then 2 else 1) o s
    some (ST.ok, bits r.1 (8 * (off % 4)) (8 * a.n), r.2)

/-- A device access outside the host window. -/
def devAccess (s : State) (a : DevAcc) (x : AccIn) : AccEnd :=
  if (memWay a.addr).isSome then memAccess s a x
  else if devIsReg a.addr then regAccess s a
  else if devIsSp a.addr then spAccess s a x
  else some (ST.decode, 0, s)

/-! ### Window requests (R164, R165) -/

/-- The status that the target of an address gives before an access is looked at: RESET, DISABLED or DECODE (R16), else OK. -/
def targetStatus (s : State) (a : Nat) : Nat :=
  if devIsHost a then (let st := winStatus s ((a - 0x100000000000) / 64); if st = ST.denied then ST.ok else st)
  else if devIsReg a then (if regHeld s (a - 0x000100000000) then ST.reset else ST.ok)
  else ST.ok

/-- The status the engine's own conditions give a window access as it is issued, 0 for none (R165). The target's RESET, DISABLED
and DECODE come before DENIED (R16), and an access to the host window that is issued during PERST or HOTRST ends RESET (R27). -/
def winPre (s : State) (n w off : Nat) : Nat :=
  let a := winAddr s n w off
  if !flag s (F.ENG_n_WINw_VALID n w) || !devMapped a then ST.decode
  else if devIsHost a && hostInReset s then ST.reset
  else if (memWay a).isSome && flag s F.MEM_STATUS_DRAINING then ST.disabled
  else if (devIsHost a && !flag s (F.ENG_n_CTRL_HOSTWIN n)) || (devIsReg a && !flag s (F.ENG_n_CTRL_REGS n)) then
    (if targetStatus s a = ST.ok then ST.denied else targetStatus s a)
  else ST.ok

/-- An access the memory dies accepted before they were disabled is served while they drain (R285). -/
def beforeDisable (s : State) (f : State → AccEnd) : AccEnd :=
  if flag s F.MEM_STATUS_DRAINING then
    (f (setFld s F.MEM_STATUS_DRAINING 0)).map fun r => (r.1, r.2.1, setFld r.2.2 F.MEM_STATUS_DRAINING 1)
  else f s

/-- An older request of the engine to the same line has not completed. -/
def olderWaits (s : State) (n k : Nat) (q : WinReq) : Bool := ((engine s n).win.take k).any fun p => p.pre == 0 && p.addr / 64 == q.addr / 64

/-- A request to a scratchpad that received BUSY is repeated by its master, so that it stays outstanding (R159). A BUSY of the
memory dies has had its repeats and is passed on (R279). -/
def repeats (addr st : Nat) : Bool := devIsSp addr && st == ST.busy

/-- Window request k of engine n completes; one to the host window completes by its own commands. -/
def windowResponse (s : State) (n k : Nat) (x : AccIn) : State :=
  match (engine s n).win[k]? with
  | none => s
  | some q =>
    if q.pre ≠ 0 then endWin s n q q.pre 0
    else if olderWaits s n k q || devIsHost q.addr then s
    else
      match beforeDisable s fun s => devAccess s ⟨.engine (Fin.ofNat 96 n), n, q.addr, q.width, q.store, 2 ^ q.width - 1, q.data⟩ x with
      | none => s
      | some (st, data, s1) => if repeats q.addr st then s1 else endWin s1 n q st data

def execWindowResponse (n : Fin 96) (k : Fin 16) (x : AccIn) (s : State) : Host.Outcome State Fault Refusal :=
  done (windowResponse s n k x)

/-! ### DBG_ACCESS (R483, R484) -/

/-- What a register of thread space holds; none where the index names none. -/
def dbgThreadGet (s : State) (n t i : Nat) : Option Nat :=
  let x := thread s n t
  if i < 0x10 then some (gReg s n t i).toNat
  else if i < 0x14 then some (bits (aReg s n t (i - 0x10)).toNat 0 64)
  else if i < 0x18 then some (bits (aReg s n t (i - 0x14)).toNat 64 8)
  else if i = 0x18 then some (csrGet s n t 0)
  else if i = 0x19 then some (x.pc % 2 ^ 16)
  else if 0x800 ≤ i ∧ csrListed (i - 0x800) = true then some (csrGet s n t (i - 0x800))
  else none

/-- What a read of thread space does beside returning its value: RT_LO latches RT_HI; nothing is removed. -/
def dbgThreadSide (s : State) (n t i : Nat) : State := if i = 0x804 then csrSide s n t 4 else s

/-- A register of thread space written. -/
def dbgThreadSet (s : State) (n t i v : Nat) : State :=
  if i < 0x10 then setG s n t i (BitVec.ofNat 32 v)
  else if i < 0x14 then setA s n t (i - 0x10) (BitVec.ofNat 72 (putBits (aReg s n t (i - 0x10)).toNat 0 64 v))
  else if i < 0x18 then setA s n t (i - 0x14) (BitVec.ofNat 72 (putBits (aReg s n t (i - 0x14)).toNat 64 8 v))
  else if i = 0x18 then csrSet s n t 0 1 (v % 16)
  else if i = 0x19 then setThread s n t { thread s n t with pc := v % 2 ^ 16 }
  else csrSet s n t (i - 0x800) 1 (v % 2 ^ 32)

/-- The status of an access to thread space. -/
def dbgThreadStatus (s : State) (n t i : Nat) (write : Bool) : Nat :=
  if 96 ≤ n then ST.decode
  else if engineShut s n then ST.reset
  else if (dbgThreadGet s n t i).isNone then ST.decode
  else if !halted s n t || (write && decide (0x800 ≤ i) && csrRo (i - 0x800)) then ST.denied
  else ST.ok

/-- An access to thread space completes; it uses the scratchpads' clock. -/
def dbgThreadAccess (s : State) : State :=
  let a := s.dbg.acc
  let n := selEngine s
  let t := selThread s
  let i := a.addr % 2 ^ 12
  let st := dbgThreadStatus s n t i a.write
  if !sysClocks s then s
  else if st ≠ 0 then dbgEnd s st 0
  else if a.write then dbgEnd (dbgThreadSet s n t i a.data) ST.ok 0
  else dbgEnd (dbgThreadSide s n t i) ST.ok ((dbgThreadGet s n t i).getD 0)

/-- The access of the debug port to the host window, as the stack cache takes it: 8 bytes of which `be` are written. -/
def dbgHostAccess (s : State) (ecc : Nat) : State :=
  let a := s.dbg.acc
  if s.cache.fills.any fun f => f.accs.any fun c => c.client == Client.debug then s
  else cacheAccess s ⟨.debug, (a.addr - 0x100000000000) / 64, a.addr % 64, 8, a.write, false, a.be, a.data⟩ ecc

/-- An access of DBG_ACCESS completes. -/
def dbgAccessDone (s : State) (x : AccIn) : State :=
  let a := s.dbg.acc
  if !a.busy then s
  else match selSpace s with
    | 0 =>
      if a.addr % 8 ≠ 0 ∨ devMapped a.addr = false then dbgEnd s ST.decode 0
      else if devIsHost a.addr then dbgHostAccess s x.ecc
      else match devAccess s ⟨.debug, MC.debug, a.addr, 8, a.write, a.be, a.data⟩ x with
        | none => s
        | some (st, data, s1) => if repeats a.addr st then s1 else dbgEnd s1 st data
    | 1 => dbgThreadAccess s
    | _ => dbgEnd s ST.decode 0

def execDbgAccessDone (x : AccIn) (s : State) : Host.Outcome State Fault Refusal := done (dbgAccessDone s x)

/-! ### The end of draining (R13) -/

/-- A block that is draining and has drained ends its draining. -/
def endIf (s : State) (dr : Fld) (drained : Bool) (f : State → State) : State := if flag s dr && drained then f s else s

/-- A unit whose draining only ends with an ENABLE of its own. -/
def plainEnd (en dr : Fld) (s : State) : State := setFld (setFld s en 0) dr 0

/-- The draining of a unit ends where nothing of it is in flight any more. -/
def drainEnd (s : State) : DrainUnit → State
  | .ang => endIf s F.ANG_STATUS_DRAINING true (plainEnd F.ANG_CTRL_ENABLE F.ANG_STATUS_DRAINING)
  | .tt => endIf s F.TT_STATUS_DRAINING (ttDrained s) ttDrainEnd
  | .dsp => endIf s F.DSP_STATUS_DRAINING (dspDrained s) dspDrainEnd
  | .port p => portDrainCheck s p
  | .engine n => endIf s (F.ENG_n_STATUS_DRAINING n) (engDrained s n) fun s => engDrainEnd s n
  | .fab => endIf s F.FAB_STATUS_DRAINING (fabDrained s) fabDrainEnd
  | .ctx => endIf s F.CTX_STATUS_DRAINING (ctxDrained s) ctxDrainEnd
  | .mem => endIf s F.MEM_STATUS_DRAINING (memDrained s) memDrainEnd
  | .patrol => s
  | .sch => endIf s F.SCH_STATUS_DRAINING (schDrained s) schDrainEnd
  | .hwn => endIf s F.HWN_STATUS_DRAINING (hwnDrained s) hwnDrainEnd
  | .ring k => endIf s (F.HWN_RINGk_STATUS_DRAINING k) (ringDrained s k) fun s => ringDrainEnd s k
  | .enc => endIf s F.ENC_STATUS_DRAINING (encDrained s) encDrainEnd
  | .stk => endIf s F.STK_STATUS_DRAINING (stkDrained s) stkDrainEnd
  | .cfg => endIf s F.CFG_STATUS_DRAINING (cfgDrained s) fun s =>
      plainEnd F.CFG_CTRL_ENABLE F.CFG_STATUS_DRAINING (setCfg s { s.cfg with off := false })
  | .pci => endIf s F.PCI_STATUS_DRAINING (pciDrained s) pciDrainEnd
  | .sbx => endIf s F.SBX_STATUS_DRAINING (!flag s F.SBX_MB_STATUS_BUSY) (plainEnd F.SBX_CTRL_ENABLE F.SBX_STATUS_DRAINING)
  | .clk => endIf s F.CLK_STATUS_DRAINING s.clk.op.isNone (plainEnd F.CLK_CTRL_ENABLE F.CLK_STATUS_DRAINING)
  | .pwr => endIf s F.PWR_STATUS_DRAINING (pwrPhase s != 1) (plainEnd F.PWR_CTRL_ENABLE F.PWR_STATUS_DRAINING)
  | .thm => s
  | .bst => endIf s F.BST_STATUS_DRAINING (bstDrained s) bstDrainEnd
  | .dbg => endIf s F.DBG_STATUS_DRAINING (dbgDrained s) dbgDrainEnd

def execDrainEnd (block : DrainUnit) (s : State) : Host.Outcome State Fault Refusal := done (drainEnd s block)

end Sys2Proof.Machine
end

