-- ==== Sys2Proof/Machine/IsaAcc.lean ====
section
/-! DEFINITION. The accumulator instructions of Proster-32 (R179). Arithmetic wraps modulo 2^72. -/
namespace Sys2Proof.Machine

/-- The full signed product, extended to 72 bits. -/
def prod (a b : Word) : BitVec 72 := BitVec.ofInt 72 (a.toInt * b.toInt)

/-! ### Operations on an accumulator and two registers -/

def mAdd (x : BitVec 72) (a b : Word) : BitVec 72 := x + prod a b
def mSub (x : BitVec 72) (a b : Word) : BitVec 72 := x - prod a b
def mAddU (x : BitVec 72) (a b : Word) : BitVec 72 := x + BitVec.ofNat 72 (a.toNat * b.toNat)
def mSet (_ : BitVec 72) (a b : Word) : BitVec 72 := prod a b
def mAdd2h (x : BitVec 72) (a b : Word) : BitVec 72 := x + BitVec.ofInt 72 (loHalf a * loHalf b + hiHalf a * hiHalf b)
def mClear (_ : BitVec 72) (_ _ : Word) : BitVec 72 := 0
def mLow (x : BitVec 72) (a _ : Word) : BitVec 72 := x.extractLsb' 32 40 ++ a
def mHigh (x : BitVec 72) (a _ : Word) : BitVec 72 := (x.extractLsb' 64 8 ++ a) ++ x.extractLsb' 0 32
def mGuard (x : BitVec 72) (a _ : Word) : BitVec 72 := a.extractLsb' 0 8 ++ x.extractLsb' 0 64

/-! ### Reads of an accumulator -/

/-- ARD: rounded, shifted and saturated. -/
def roundAcc (sh : Nat) (x : BitVec 72) : Word × Bool :=
  if sh = 0 then sat32 x.toInt else sat32 ((x.toInt + 2 ^ (sh - 1)) / 2 ^ sh)

/-- ARDT: shifted and cut. -/
def cutAcc (sh : Nat) (x : BitVec 72) : Word × Bool := ((x.sshiftRight sh).extractLsb' 0 32, false)

/-- ARG: the guard bits, sign-extended. -/
def guardAcc (x : BitVec 72) : Word × Bool := ((x.extractLsb' 64 8).signExtend 32, false)

/-- An operation that writes an accumulator (major 0x0D); the flags are left alone. -/
def accOp (n t rs1 rs2 acc fn : Nat) (op : BitVec 72 → Word → Word → BitVec 72) (s : State) : State :=
  issue s n t (encA 0 rs1 rs2 acc fn 0) fun s =>
    nextInstr (setA s n t acc (op (aReg s n t acc) (gReg s n t rs1) (gReg s n t rs2))) n t

/-- An operation that reads an accumulator into rd; a saturation sets QSAT.STICKY. -/
def accRead (n t rd rs1 rs2 acc fn sh : Nat) (op : BitVec 72 → Word × Bool) (s : State) : State :=
  issue s n t (encA rd rs1 rs2 acc fn sh) fun s =>
    let x := op (aReg s n t acc)
    let s1 := if x.2 then setThread s n t { thread s n t with qsat := true } else s
    nextInstr (setG s1 n t rd x.1) n t

/-! ### The instructions -/

def execIMac (n : Fin 96) (t : Fin 4) (rs1 rs2 : Fin 16) (acc : Fin 4) (s : State) : Host.Outcome State Fault Refusal :=
  done (accOp n t rs1 rs2 acc 1 mAdd s)

def execIMsu (n : Fin 96) (t : Fin 4) (rs1 rs2 : Fin 16) (acc : Fin 4) (s : State) : Host.Outcome State Fault Refusal :=
  done (accOp n t rs1 rs2 acc 2 mSub s)

def execIMacu (n : Fin 96) (t : Fin 4) (rs1 rs2 : Fin 16) (acc : Fin 4) (s : State) : Host.Outcome State Fault Refusal :=
  done (accOp n t rs1 rs2 acc 3 mAddU s)

def execIMz (n : Fin 96) (t : Fin 4) (rs1 rs2 : Fin 16) (acc : Fin 4) (s : State) : Host.Outcome State Fault Refusal :=
  done (accOp n t rs1 rs2 acc 4 mSet s)

def execIMac2h (n : Fin 96) (t : Fin 4) (rs1 rs2 : Fin 16) (acc : Fin 4) (s : State) : Host.Outcome State Fault Refusal :=
  done (accOp n t rs1 rs2 acc 5 mAdd2h s)

def execIAclr (n : Fin 96) (t : Fin 4) (acc : Fin 4) (s : State) : Host.Outcome State Fault Refusal :=
  done (accOp n t 0 0 acc 7 mClear s)

def execIAwl (n : Fin 96) (t : Fin 4) (rs1 rs2 : Fin 16) (acc : Fin 4) (s : State) : Host.Outcome State Fault Refusal :=
  done (accOp n t rs1 rs2 acc 8 mLow s)

def execIAwh (n : Fin 96) (t : Fin 4) (rs1 rs2 : Fin 16) (acc : Fin 4) (s : State) : Host.Outcome State Fault Refusal :=
  done (accOp n t rs1 rs2 acc 9 mHigh s)

def execIAwg (n : Fin 96) (t : Fin 4) (rs1 rs2 : Fin 16) (acc : Fin 4) (s : State) : Host.Outcome State Fault Refusal :=
  done (accOp n t rs1 rs2 acc 10 mGuard s)

def execIArd (n : Fin 96) (t : Fin 4) (rd rs1 rs2 : Fin 16) (acc : Fin 4) (sh : BitVec 6) (s : State) : Host.Outcome State Fault Refusal :=
  done (accRead n t rd rs1 rs2 acc 11 sh.toNat (roundAcc sh.toNat) s)

def execIArdt (n : Fin 96) (t : Fin 4) (rd rs1 rs2 : Fin 16) (acc : Fin 4) (sh : BitVec 6) (s : State) : Host.Outcome State Fault Refusal :=
  done (accRead n t rd rs1 rs2 acc 12 sh.toNat (cutAcc sh.toNat) s)

def execIArg (n : Fin 96) (t : Fin 4) (rd rs1 rs2 : Fin 16) (acc : Fin 4) (s : State) : Host.Outcome State Fault Refusal :=
  done (accRead n t rd rs1 rs2 acc 13 0 guardAcc s)

end Sys2Proof.Machine
end

