-- ==== Sys2Proof/Machine/IsaAlu.lean ====
section
/-! DEFINITION. The register, immediate and shift instructions of Proster-32 (R174, R176, R177). -/
namespace Sys2Proof.Machine

/-! ### Operations: a result and the flags it gives, from the old flags and two operands -/

def opAdd (_ : Flg) (a b : Word) : Word × Flg := addFl a b false
def opAdc (f : Flg) (a b : Word) : Word × Flg := addFl a b f.c
def opSub (_ : Flg) (a b : Word) : Word × Flg := subFl a b false
def opSbc (f : Flg) (a b : Word) : Word × Flg := subFl a b f.c

/-- A result that sets Z and N and leaves C and V. -/
def plainOp (f : Flg) (r : Word) : Word × Flg := (r, flagsZN f r)

def opAnd (f : Flg) (a b : Word) : Word × Flg := plainOp f (a &&& b)
def opOr (f : Flg) (a b : Word) : Word × Flg := plainOp f (a ||| b)
def opXor (f : Flg) (a b : Word) : Word × Flg := plainOp f (a ^^^ b)
def opAndn (f : Flg) (a b : Word) : Word × Flg := plainOp f (a &&& ~~~b)
def opMin (f : Flg) (a b : Word) : Word × Flg := plainOp f (if a.toInt ≤ b.toInt then a else b)
def opMax (f : Flg) (a b : Word) : Word × Flg := plainOp f (if a.toInt ≤ b.toInt then b else a)
def opMinu (f : Flg) (a b : Word) : Word × Flg := plainOp f (if a.toNat ≤ b.toNat then a else b)
def opMaxu (f : Flg) (a b : Word) : Word × Flg := plainOp f (if a.toNat ≤ b.toNat then b else a)
def opMul (f : Flg) (a b : Word) : Word × Flg := plainOp f (a * b)
def opMulh (f : Flg) (a b : Word) : Word × Flg := plainOp f (BitVec.ofInt 32 (a.toInt * b.toInt / 2 ^ 32))
def opMulhu (f : Flg) (a b : Word) : Word × Flg := plainOp f (BitVec.ofNat 32 (a.toNat * b.toNat / 2 ^ 32))
def opClz (f : Flg) (a _ : Word) : Word × Flg := plainOp f (BitVec.ofNat 32 (leadingZeros a))
def opPopc (f : Flg) (a _ : Word) : Word × Flg := plainOp f (BitVec.ofNat 32 (onesIn a))

/-- A shift by the low five bits of the second operand. -/
def opShift (kind : ShKind) (f : Flg) (a b : Word) : Word × Flg :=
  (shiftBy kind a (b.toNat % 32), flagsShift f kind a (b.toNat % 32))

/-- An ALU register operation (major 0x00). -/
def alu (n t rd rs1 rs2 : Nat) (f : Bool) (fn : Nat) (op : Flg → Word → Word → Word × Flg) (s : State) : State :=
  issue s n t (encR 0x00 rd rs1 rs2 f fn 0) fun s =>
    let x := op (flg s n t) (gReg s n t rs1) (gReg s n t rs2)
    writeRes s n t rd f x.1 x.2

/-- CMP and TST: the flags alone, whatever F is (R176, R177). -/
def aluFlags (n t rs1 rs2 : Nat) (f : Bool) (fn : Nat) (op : Flg → Word → Word → Word × Flg) (s : State) : State :=
  issue s n t (encR 0x00 0 rs1 rs2 f fn 0) fun s =>
    nextInstr (setFlg s n t (op (flg s n t) (gReg s n t rs1) (gReg s n t rs2)).2) n t

/-- The I-format operations of a register and an immediate. -/
def immAdd (a : Word) (i : BitVec 18) : Word := a + i.signExtend 32
def immAnd (a : Word) (i : BitVec 18) : Word := a &&& i.zeroExtend 32
def immOr (a : Word) (i : BitVec 18) : Word := a ||| i.zeroExtend 32
def immXor (a : Word) (i : BitVec 18) : Word := a ^^^ i.zeroExtend 32
def immMov (_ : Word) (i : BitVec 18) : Word := i.signExtend 32

/-- An I-format instruction: the flags are left alone. -/
def aluImm (n t rd rs1 : Nat) (imm : BitVec 18) (major : Nat) (op : Word → BitVec 18 → Word) (s : State) : State :=
  issue s n t (encI major rd rs1 imm.toNat) fun s => nextInstr (setG s n t rd (op (gReg s n t rs1) imm)) n t

/-- CMPI: the flags of a subtraction. -/
def cmpImm (n t rs1 : Nat) (imm : BitVec 18) (s : State) : State :=
  issue s n t (encI 0x05 0 rs1 imm.toNat) fun s =>
    nextInstr (setFlg s n t (subFl (gReg s n t rs1) (imm.signExtend 32) false).2) n t

/-- MOVH: the upper half of rd, the lower kept. -/
def movHigh (n t rd : Nat) (imm : BitVec 16) (s : State) : State :=
  issue s n t (encI 0x08 rd 0 imm.toNat) fun s =>
    nextInstr (setG s n t rd (imm ++ (gReg s n t rd).extractLsb' 0 16)) n t

/-- A shift by an immediate (major 0x06). -/
def shiftImm (n t rd rs1 : Nat) (sh : BitVec 5) (f : Bool) (k : Nat) (kind : ShKind) (s : State) : State :=
  issue s n t (encSH rd rs1 k f sh.toNat) fun s =>
    writeRes s n t rd f (shiftBy kind (gReg s n t rs1) sh.toNat) (flagsShift (flg s n t) kind (gReg s n t rs1) sh.toNat)

/-! ### The instructions -/

def execIAdd (n : Fin 96) (t : Fin 4) (rd rs1 rs2 : Fin 16) (f : Bool) (s : State) : Host.Outcome State Fault Refusal :=
  done (alu n t rd rs1 rs2 f 1 opAdd s)

def execISub (n : Fin 96) (t : Fin 4) (rd rs1 rs2 : Fin 16) (f : Bool) (s : State) : Host.Outcome State Fault Refusal :=
  done (alu n t rd rs1 rs2 f 2 opSub s)

def execIAdc (n : Fin 96) (t : Fin 4) (rd rs1 rs2 : Fin 16) (f : Bool) (s : State) : Host.Outcome State Fault Refusal :=
  done (alu n t rd rs1 rs2 f 3 opAdc s)

def execISbc (n : Fin 96) (t : Fin 4) (rd rs1 rs2 : Fin 16) (f : Bool) (s : State) : Host.Outcome State Fault Refusal :=
  done (alu n t rd rs1 rs2 f 4 opSbc s)

def execIAnd (n : Fin 96) (t : Fin 4) (rd rs1 rs2 : Fin 16) (f : Bool) (s : State) : Host.Outcome State Fault Refusal :=
  done (alu n t rd rs1 rs2 f 5 opAnd s)

def execIOr (n : Fin 96) (t : Fin 4) (rd rs1 rs2 : Fin 16) (f : Bool) (s : State) : Host.Outcome State Fault Refusal :=
  done (alu n t rd rs1 rs2 f 6 opOr s)

def execIXor (n : Fin 96) (t : Fin 4) (rd rs1 rs2 : Fin 16) (f : Bool) (s : State) : Host.Outcome State Fault Refusal :=
  done (alu n t rd rs1 rs2 f 7 opXor s)

def execIAndn (n : Fin 96) (t : Fin 4) (rd rs1 rs2 : Fin 16) (f : Bool) (s : State) : Host.Outcome State Fault Refusal :=
  done (alu n t rd rs1 rs2 f 8 opAndn s)

def execIShl (n : Fin 96) (t : Fin 4) (rd rs1 rs2 : Fin 16) (f : Bool) (s : State) : Host.Outcome State Fault Refusal :=
  done (alu n t rd rs1 rs2 f 9 (opShift .shl) s)

def execIShr (n : Fin 96) (t : Fin 4) (rd rs1 rs2 : Fin 16) (f : Bool) (s : State) : Host.Outcome State Fault Refusal :=
  done (alu n t rd rs1 rs2 f 10 (opShift .shr) s)

def execISar (n : Fin 96) (t : Fin 4) (rd rs1 rs2 : Fin 16) (f : Bool) (s : State) : Host.Outcome State Fault Refusal :=
  done (alu n t rd rs1 rs2 f 11 (opShift .sar) s)

def execIRor (n : Fin 96) (t : Fin 4) (rd rs1 rs2 : Fin 16) (f : Bool) (s : State) : Host.Outcome State Fault Refusal :=
  done (alu n t rd rs1 rs2 f 12 (opShift .ror) s)

def execIMin (n : Fin 96) (t : Fin 4) (rd rs1 rs2 : Fin 16) (f : Bool) (s : State) : Host.Outcome State Fault Refusal :=
  done (alu n t rd rs1 rs2 f 13 opMin s)

def execIMax (n : Fin 96) (t : Fin 4) (rd rs1 rs2 : Fin 16) (f : Bool) (s : State) : Host.Outcome State Fault Refusal :=
  done (alu n t rd rs1 rs2 f 14 opMax s)

def execIMinu (n : Fin 96) (t : Fin 4) (rd rs1 rs2 : Fin 16) (f : Bool) (s : State) : Host.Outcome State Fault Refusal :=
  done (alu n t rd rs1 rs2 f 15 opMinu s)

def execIMaxu (n : Fin 96) (t : Fin 4) (rd rs1 rs2 : Fin 16) (f : Bool) (s : State) : Host.Outcome State Fault Refusal :=
  done (alu n t rd rs1 rs2 f 16 opMaxu s)

def execIMul (n : Fin 96) (t : Fin 4) (rd rs1 rs2 : Fin 16) (f : Bool) (s : State) : Host.Outcome State Fault Refusal :=
  done (alu n t rd rs1 rs2 f 17 opMul s)

def execIMulh (n : Fin 96) (t : Fin 4) (rd rs1 rs2 : Fin 16) (f : Bool) (s : State) : Host.Outcome State Fault Refusal :=
  done (alu n t rd rs1 rs2 f 18 opMulh s)

def execIMulhu (n : Fin 96) (t : Fin 4) (rd rs1 rs2 : Fin 16) (f : Bool) (s : State) : Host.Outcome State Fault Refusal :=
  done (alu n t rd rs1 rs2 f 19 opMulhu s)

def execIClz (n : Fin 96) (t : Fin 4) (rd rs1 : Fin 16) (f : Bool) (s : State) : Host.Outcome State Fault Refusal :=
  done (alu n t rd rs1 0 f 20 opClz s)

def execIPopc (n : Fin 96) (t : Fin 4) (rd rs1 : Fin 16) (f : Bool) (s : State) : Host.Outcome State Fault Refusal :=
  done (alu n t rd rs1 0 f 21 opPopc s)

def execICmp (n : Fin 96) (t : Fin 4) (rs1 rs2 : Fin 16) (f : Bool) (s : State) : Host.Outcome State Fault Refusal :=
  done (aluFlags n t rs1 rs2 f 22 opSub s)

def execITst (n : Fin 96) (t : Fin 4) (rs1 rs2 : Fin 16) (f : Bool) (s : State) : Host.Outcome State Fault Refusal :=
  done (aluFlags n t rs1 rs2 f 23 opAnd s)

def execIAddi (n : Fin 96) (t : Fin 4) (rd rs1 : Fin 16) (imm : BitVec 18) (s : State) : Host.Outcome State Fault Refusal :=
  done (aluImm n t rd rs1 imm 1 immAdd s)

def execIAndi (n : Fin 96) (t : Fin 4) (rd rs1 : Fin 16) (imm : BitVec 18) (s : State) : Host.Outcome State Fault Refusal :=
  done (aluImm n t rd rs1 imm 2 immAnd s)

def execIOri (n : Fin 96) (t : Fin 4) (rd rs1 : Fin 16) (imm : BitVec 18) (s : State) : Host.Outcome State Fault Refusal :=
  done (aluImm n t rd rs1 imm 3 immOr s)

def execIXori (n : Fin 96) (t : Fin 4) (rd rs1 : Fin 16) (imm : BitVec 18) (s : State) : Host.Outcome State Fault Refusal :=
  done (aluImm n t rd rs1 imm 4 immXor s)

def execICmpi (n : Fin 96) (t : Fin 4) (rs1 : Fin 16) (imm : BitVec 18) (s : State) : Host.Outcome State Fault Refusal :=
  done (cmpImm n t rs1 imm s)

def execIMovi (n : Fin 96) (t : Fin 4) (rd : Fin 16) (imm : BitVec 18) (s : State) : Host.Outcome State Fault Refusal :=
  done (aluImm n t rd 0 imm 7 immMov s)

def execIMovh (n : Fin 96) (t : Fin 4) (rd : Fin 16) (imm : BitVec 16) (s : State) : Host.Outcome State Fault Refusal :=
  done (movHigh n t rd imm s)

def execIShli (n : Fin 96) (t : Fin 4) (rd rs1 : Fin 16) (sh : BitVec 5) (f : Bool) (s : State) : Host.Outcome State Fault Refusal :=
  done (shiftImm n t rd rs1 sh f 0 .shl s)

def execIShri (n : Fin 96) (t : Fin 4) (rd rs1 : Fin 16) (sh : BitVec 5) (f : Bool) (s : State) : Host.Outcome State Fault Refusal :=
  done (shiftImm n t rd rs1 sh f 1 .shr s)

def execISari (n : Fin 96) (t : Fin 4) (rd rs1 : Fin 16) (sh : BitVec 5) (f : Bool) (s : State) : Host.Outcome State Fault Refusal :=
  done (shiftImm n t rd rs1 sh f 2 .sar s)

def execIRori (n : Fin 96) (t : Fin 4) (rd rs1 : Fin 16) (sh : BitVec 5) (f : Bool) (s : State) : Host.Outcome State Fault Refusal :=
  done (shiftImm n t rd rs1 sh f 3 .ror s)

end Sys2Proof.Machine
end

