-- ==== Sys2Proof/Machine/IsaFixed.lean ====
section
/-! DEFINITION. The saturating, fixed-point and clamp instructions of Proster-32 (R178). -/
namespace Sys2Proof.Machine

/-! ### Operations: a result and whether it was saturated or clamped -/

def qAdd (a b : Word) : Word × Bool := sat32 (a.toInt + b.toInt)
def qSub (a b : Word) : Word × Bool := sat32 (a.toInt - b.toInt)
def qAddHalves (a b : Word) : Word × Bool := satHalves (loHalf a + loHalf b) (hiHalf a + hiHalf b)
def qSubHalves (a b : Word) : Word × Bool := satHalves (loHalf a - loHalf b) (hiHalf a - hiHalf b)
def qMul31 (a b : Word) : Word × Bool := sat32 ((a.toInt * b.toInt + 2 ^ 30) / 2 ^ 31)
def qNeg (a _ : Word) : Word × Bool := sat32 (-a.toInt)
def qAbs (a _ : Word) : Word × Bool := sat32 a.toInt.natAbs

def qMul15 (a b : Word) : Word × Bool :=
  let x := (loHalf a * loHalf b + 0x4000) / 2 ^ 15
  (BitVec.ofInt 32 (satTo 16 x), decide (satTo 16 x ≠ x))

/-- LIMS and LIMU: rs1 limited to N bits, signed, or to 0 to 2^N − 1. -/
def qLims (k : Nat) (a _ : Word) : Word × Bool := limited a (BitVec.ofInt 32 (satTo k a.toInt))
def qLimu (k : Nat) (a _ : Word) : Word × Bool := limited a (BitVec.ofInt 32 (limit 0 (2 ^ k - 1) a.toInt))

/-- CLAMP and CLAMPU: to [lo, hi], or to hi where lo is above it. -/
def clampS (a lo hi : Word) : Word :=
  if hi.toInt < lo.toInt then hi else if a.toInt < lo.toInt then lo else if hi.toInt < a.toInt then hi else a
def clampU (a lo hi : Word) : Word :=
  if hi.toNat < lo.toNat then hi else if a.toNat < lo.toNat then lo else if hi.toNat < a.toNat then hi else a

/-- A Q operation (major 0x0C). -/
def qOp (n t rd rs1 rs2 : Nat) (f : Bool) (fn low : Nat) (op : Word → Word → Word × Bool) (s : State) : State :=
  issue s n t (encR 0x0C rd rs1 rs2 f fn low) fun s => writeQ s n t rd f (op (gReg s n t rs1) (gReg s n t rs2))

/-- A clamp to the pair at rs2. -/
def qClamp (n t rd rs1 rs2 : Nat) (f : Bool) (fn : Nat) (op : Word → Word → Word → Word) (s : State) : State :=
  issue s n t (encR 0x0C rd rs1 rs2 f fn 0) fun s =>
    let a := gReg s n t rs1
    writeQ s n t rd f (limited a (op a (gReg s n t rs2) (gReg s n t (rs2 + 1))))

/-! ### The instructions -/

def execISadd (n : Fin 96) (t : Fin 4) (rd rs1 rs2 : Fin 16) (f : Bool) (s : State) : Host.Outcome State Fault Refusal :=
  done (qOp n t rd rs1 rs2 f 1 0 qAdd s)

def execISsub (n : Fin 96) (t : Fin 4) (rd rs1 rs2 : Fin 16) (f : Bool) (s : State) : Host.Outcome State Fault Refusal :=
  done (qOp n t rd rs1 rs2 f 2 0 qSub s)

def execISaddh2 (n : Fin 96) (t : Fin 4) (rd rs1 rs2 : Fin 16) (f : Bool) (s : State) : Host.Outcome State Fault Refusal :=
  done (qOp n t rd rs1 rs2 f 3 0 qAddHalves s)

def execISsubh2 (n : Fin 96) (t : Fin 4) (rd rs1 rs2 : Fin 16) (f : Bool) (s : State) : Host.Outcome State Fault Refusal :=
  done (qOp n t rd rs1 rs2 f 4 0 qSubHalves s)

def execIFmul15 (n : Fin 96) (t : Fin 4) (rd rs1 rs2 : Fin 16) (f : Bool) (s : State) : Host.Outcome State Fault Refusal :=
  done (qOp n t rd rs1 rs2 f 5 0 qMul15 s)

def execIFmul31 (n : Fin 96) (t : Fin 4) (rd rs1 rs2 : Fin 16) (f : Bool) (s : State) : Host.Outcome State Fault Refusal :=
  done (qOp n t rd rs1 rs2 f 6 0 qMul31 s)

def execISneg (n : Fin 96) (t : Fin 4) (rd rs1 : Fin 16) (f : Bool) (s : State) : Host.Outcome State Fault Refusal :=
  done (qOp n t rd rs1 0 f 7 0 qNeg s)

def execISabs (n : Fin 96) (t : Fin 4) (rd rs1 : Fin 16) (f : Bool) (s : State) : Host.Outcome State Fault Refusal :=
  done (qOp n t rd rs1 0 f 8 0 qAbs s)

def execIClamp (n : Fin 96) (t : Fin 4) (rd rs1 rs2 : Fin 16) (f : Bool) (s : State) : Host.Outcome State Fault Refusal :=
  done (qClamp n t rd rs1 rs2 f 9 clampS s)

def execIClampu (n : Fin 96) (t : Fin 4) (rd rs1 rs2 : Fin 16) (f : Bool) (s : State) : Host.Outcome State Fault Refusal :=
  done (qClamp n t rd rs1 rs2 f 10 clampU s)

def execILims (n : Fin 96) (t : Fin 4) (rd rs1 rs2 : Fin 16) (f : Bool) (nm1 : BitVec 5) (s : State) : Host.Outcome State Fault Refusal :=
  done (qOp n t rd rs1 rs2 f 11 nm1.toNat (qLims (nm1.toNat + 1)) s)

def execILimu (n : Fin 96) (t : Fin 4) (rd rs1 rs2 : Fin 16) (f : Bool) (nm1 : BitVec 5) (s : State) : Host.Outcome State Fault Refusal :=
  done (qOp n t rd rs1 rs2 f 12 nm1.toNat (qLimu (nm1.toNat + 1)) s)

end Sys2Proof.Machine
end

