-- ==== Sys2Proof/Machine/IsaMem.lean ====
section
/-! DEFINITION. The loads, stores, branches and jumps of Proster-32 (R180 to R182). -/
namespace Sys2Proof.Machine

/-- The local address of an access: base plus the sign-extended offset, modulo 2^32. -/
def effAddr (s : State) (n t base : Nat) (imm : BitVec 18) : Nat := (gReg s n t base + imm.signExtend 32).toNat

/-- A load from the scratchpad: the word is checked, and a poisoned one faults the thread (R160). -/
def spLoadOp (s : State) (n t rd b w a : Nat) (sgn : Bool) (ecc : Nat) : State :=
  let s1 := spCheck s n (b / 8) ecc
  if spPoisoned s1 n (b / 8) then faultThread s1 n t FC.poison
  else nextInstr (writeLoad (watchAccess s1 n t a w false) n t rd w sgn (spLoad s1 n b w)) n t

/-- A window load is requested and blocks its thread; the seventeenth request stalls (R164). -/
def winLoadOp (s : State) (n t rd k off w a : Nat) (sgn : Bool) : State :=
  if 16 ≤ (engine s n).win.length then s
  else
    let s1 := pushWin (watchAccess s n t a w false) n ⟨t, false, k, off, winTarget s n k off, winPre s n k off, w, sgn, rd, 0⟩
    setThread s1 n t { thread s1 n t with blk := .load }

/-- A load of `w` bytes. -/
def loadOp (n t rd base : Nat) (imm : BitVec 18) (major w : Nat) (sgn : Bool) (ecc : Nat) (s : State) : State :=
  issue s n t (encI major rd base imm.toNat) fun s =>
    let a := effAddr s n t base imm
    if a % w ≠ 0 then faultThread s n t FC.align
    else match localOf a with
      | .none => faultThread s n t FC.addr
      | .sp _ b => spLoadOp s n t rd b w a sgn ecc
      | .win k off => winLoadOp s n t rd k off w a sgn

/-- The value a store of `w` bytes stores: a register, or a pair. -/
def storeVal (s : State) (n t rs w : Nat) : Nat := if w = 8 then gPair s n t rs else (gReg s n t rs).toNat % 2 ^ (8 * w)

/-- A store to the scratchpad, plainly or through an alias: an alias store reads the word first, and one narrower than
8 bytes or through an alias to a poisoned word faults (R160, R161). -/
def spStoreOp (s : State) (n t rs mode b w a : Nat) (ecc : Nat) : State :=
  let s1 := if mode = 0 then s else spCheck s n (b / 8) ecc
  if spPoisoned s1 n (b / 8) && !(mode == 0 && w == 8) then faultThread s1 n t FC.poison
  else nextInstr (spStore (watchAccess s1 n t a w true) n b w mode (storeVal s n t rs w)) n t

/-- A window store is posted (R164). -/
def winStoreOp (s : State) (n t rs k off w a : Nat) : State :=
  if 16 ≤ (engine s n).win.length then s
  else
    nextInstr (pushWin (watchAccess s n t a w true) n
      ⟨t, true, k, off, winTarget s n k off, winPre s n k off, w, false, rs, storeVal s n t rs w⟩) n t

/-- A store of `w` bytes. -/
def storeOp (n t rs base : Nat) (imm : BitVec 18) (major w ecc : Nat) (s : State) : State :=
  issue s n t (encI major rs base imm.toNat) fun s =>
    let a := effAddr s n t base imm
    if a % w ≠ 0 then faultThread s n t FC.align
    else match localOf a with
      | .none => faultThread s n t FC.addr
      | .sp mode b => spStoreOp s n t rs mode b w a ecc
      | .win k off => winStoreOp s n t rs k off w a

/-- The condition holds (R182); 1111 never does. -/
def condHolds (f : Flg) (c : Nat) : Bool :=
  let base := match c % 8 with
    | 0 => f.z
    | 1 => f.n
    | 2 => f.c
    | 3 => f.v
    | 4 => f.c || f.z
    | 5 => f.n != f.v
    | 6 => f.z || f.n != f.v
    | _ => true
  base != decide (8 ≤ c)

/-- The target of a branch: PC + 4 × the signed offset. -/
def target {k : Nat} (pc : Nat) (off : BitVec k) : Nat := ((pc : Int) + 4 * off.toInt).emod (2 ^ 32) |>.toNat

/-- B{cond}. -/
def branchOp (n t : Nat) (cond : BitVec 4) (off : BitVec 22) (s : State) : State :=
  issue s n t (encB cond.toNat off.toNat) fun s =>
    if condHolds (flg s n t) cond.toNat then retireAt s n t (target (thread s n t).pc off) else nextInstr s n t

/-- BL: the return address goes to g15. -/
def linkOp (n t : Nat) (off : BitVec 26) (s : State) : State :=
  issue s n t (encL off.toNat) fun s =>
    retireAt (setG s n t 15 (BitVec.ofNat 32 ((thread s n t).pc + 4))) n t (target (thread s n t).pc off)

/-- JR. -/
def jumpOp (n t rs1 : Nat) (s : State) : State :=
  issue s n t (encR 0x22 0 rs1 0 false 0 0) fun s => retireAt s n t (gReg s n t rs1).toNat

/-- JLR: rs1 is read before rd is written. -/
def jumpLinkOp (n t rd rs1 : Nat) (s : State) : State :=
  issue s n t (encR 0x23 rd rs1 0 false 0 0) fun s =>
    retireAt (setG s n t rd (BitVec.ofNat 32 ((thread s n t).pc + 4))) n t (gReg s n t rs1).toNat

/-! ### The instructions -/

def execILb (n : Fin 96) (t : Fin 4) (rd base : Fin 16) (imm : BitVec 18) (ecc : Fin 3) (s : State) : Host.Outcome State Fault Refusal :=
  done (loadOp n t rd base imm 16 1 true ecc s)

def execILbu (n : Fin 96) (t : Fin 4) (rd base : Fin 16) (imm : BitVec 18) (ecc : Fin 3) (s : State) : Host.Outcome State Fault Refusal :=
  done (loadOp n t rd base imm 17 1 false ecc s)

def execILh (n : Fin 96) (t : Fin 4) (rd base : Fin 16) (imm : BitVec 18) (ecc : Fin 3) (s : State) : Host.Outcome State Fault Refusal :=
  done (loadOp n t rd base imm 18 2 true ecc s)

def execILhu (n : Fin 96) (t : Fin 4) (rd base : Fin 16) (imm : BitVec 18) (ecc : Fin 3) (s : State) : Host.Outcome State Fault Refusal :=
  done (loadOp n t rd base imm 19 2 false ecc s)

def execILw (n : Fin 96) (t : Fin 4) (rd base : Fin 16) (imm : BitVec 18) (ecc : Fin 3) (s : State) : Host.Outcome State Fault Refusal :=
  done (loadOp n t rd base imm 20 4 false ecc s)

def execILd (n : Fin 96) (t : Fin 4) (rd base : Fin 16) (imm : BitVec 18) (ecc : Fin 3) (s : State) : Host.Outcome State Fault Refusal :=
  done (loadOp n t rd base imm 21 8 false ecc s)

def execISb (n : Fin 96) (t : Fin 4) (rs base : Fin 16) (imm : BitVec 18) (ecc : Fin 3) (s : State) : Host.Outcome State Fault Refusal :=
  done (storeOp n t rs base imm 24 1 ecc s)

def execISh (n : Fin 96) (t : Fin 4) (rs base : Fin 16) (imm : BitVec 18) (ecc : Fin 3) (s : State) : Host.Outcome State Fault Refusal :=
  done (storeOp n t rs base imm 25 2 ecc s)

def execISw (n : Fin 96) (t : Fin 4) (rs base : Fin 16) (imm : BitVec 18) (ecc : Fin 3) (s : State) : Host.Outcome State Fault Refusal :=
  done (storeOp n t rs base imm 26 4 ecc s)

def execISd (n : Fin 96) (t : Fin 4) (rs base : Fin 16) (imm : BitVec 18) (ecc : Fin 3) (s : State) : Host.Outcome State Fault Refusal :=
  done (storeOp n t rs base imm 27 8 ecc s)

def execIB (n : Fin 96) (t : Fin 4) (cond : BitVec 4) (off : BitVec 22) (s : State) : Host.Outcome State Fault Refusal :=
  done (branchOp n t cond off s)

def execIBl (n : Fin 96) (t : Fin 4) (off : BitVec 26) (s : State) : Host.Outcome State Fault Refusal :=
  done (linkOp n t off s)

def execIJr (n : Fin 96) (t : Fin 4) (rs1 : Fin 16) (s : State) : Host.Outcome State Fault Refusal :=
  done (jumpOp n t rs1 s)

def execIJlr (n : Fin 96) (t : Fin 4) (rd rs1 : Fin 16) (s : State) : Host.Outcome State Fault Refusal :=
  done (jumpLinkOp n t rd rs1 s)

end Sys2Proof.Machine
end

