-- ==== Sys2Proof/Machine/Dispatch.lean ====
section
/-! DEFINITION. One arm per command: the call of its meaning, or its refusal by name. -/
namespace Sys2Proof.Machine

def exec (i : Instr) (s : State) : Host.Outcome State Fault Refusal :=
  match i with
  | .registerWrite m off be value => Sys2Proof.Machine.execRegisterWrite m off be value s
  | .drainEnd block => Sys2Proof.Machine.execDrainEnd block s
  | .encCount k up illegal => Sys2Proof.Machine.execEncCount k up illegal s
  | .encZEdge k => Sys2Proof.Machine.execEncZEdge k s
  | .ssiFrame k word startHigh endLow => Sys2Proof.Machine.execSsiFrame k word startHigh endLow s
  | .virtCommit m n upper => Sys2Proof.Machine.execVirtCommit m n upper s
  | .beacon p f => Sys2Proof.Machine.execBeacon p f s
  | .axisTimeout n => Sys2Proof.Machine.execAxisTimeout n s
  | .axisCfgWrite n value => Sys2Proof.Machine.execAxisCfgWrite n value s
  | .angDisable => Sys2Proof.Machine.execAngDisable s
  | .roleWrite value => Sys2Proof.Machine.execRoleWrite value s
  | .ringTime p pos f late => Sys2Proof.Machine.execRingTime p pos f late s
  | .rclkPllLock => Sys2Proof.Machine.execRclkPllLock s
  | .syncTimeout => Sys2Proof.Machine.execSyncTimeout s
  | .holdoverExpire => Sys2Proof.Machine.execHoldoverExpire s
  | .ringTimeSend => Sys2Proof.Machine.execRingTimeSend s
  | .ptmCapture => Sys2Proof.Machine.execPtmCapture s
  | .ptmExchangeDone hostTime => Sys2Proof.Machine.execPtmExchangeDone hostTime s
  | .beaconSend => Sys2Proof.Machine.execBeaconSend s
  | .fabricInsert port tag entry => Sys2Proof.Machine.execFabricInsert port tag entry s
  | .hostInsertGo value => Sys2Proof.Machine.execHostInsertGo value s
  | .insertAcceptance stored => Sys2Proof.Machine.execInsertAcceptance stored s
  | .completionRecord k => Sys2Proof.Machine.execCompletionRecord k s
  | .cqRecordTake port => Sys2Proof.Machine.execCqRecordTake port s
  | .ttHcqRead => Sys2Proof.Machine.execTtHcqRead s
  | .ttEnable => Sys2Proof.Machine.execTtEnable s
  | .ttInitDone => Sys2Proof.Machine.execTtInitDone s
  | .ttDisable => Sys2Proof.Machine.execTtDisable s
  | .ttFlushGo value => Sys2Proof.Machine.execTtFlushGo value s
  | .flushBucket => Sys2Proof.Machine.execFlushBucket s
  | .dispatchSlot => Sys2Proof.Machine.execDispatchSlot s
  | .groupCommitPoint axis rev group => Sys2Proof.Machine.execGroupCommitPoint axis rev group s
  | .rail8Admit => Sys2Proof.Machine.execRail8Admit s
  | .ackTimeout p seq => Sys2Proof.Machine.execAckTimeout p seq s
  | .bstopReq => Sys2Proof.Machine.execBstopReq s
  | .bstopStoppingTimeout => Sys2Proof.Machine.execBstopStoppingTimeout s
  | .bstopClear => Sys2Proof.Machine.execBstopClear s
  | .bstopRepeat => Sys2Proof.Machine.execBstopRepeat s
  | .dspDisable => Sys2Proof.Machine.execDspDisable s
  | .consist p pos flits => Sys2Proof.Machine.execConsist p pos flits s
  | .retime p pos f => Sys2Proof.Machine.execRetime p pos f s
  | .commit p pos f => Sys2Proof.Machine.execCommit p pos f s
  | .revoke p pos f => Sys2Proof.Machine.execRevoke p pos f s
  | .bstop p pos f => Sys2Proof.Machine.execBstop p pos f s
  | .resume p pos f => Sys2Proof.Machine.execResume p pos f s
  | .safe p pos f => Sys2Proof.Machine.execSafe p pos f s
  | .missed p pos f => Sys2Proof.Machine.execMissed p pos f s
  | .ack p pos f => Sys2Proof.Machine.execAck p pos f s
  | .nak p pos f => Sys2Proof.Machine.execNak p pos f s
  | .enumFlit p pos f elapsed => Sys2Proof.Machine.execEnumFlit p pos f elapsed s
  | .idRead p pos f => Sys2Proof.Machine.execIdRead p pos f s
  | .idData p f => Sys2Proof.Machine.execIdData p f s
  | .mailbox p f => Sys2Proof.Machine.execMailbox p f s
  | .remoteInsert p f => Sys2Proof.Machine.execRemoteInsert p f s
  | .insertDone p f => Sys2Proof.Machine.execInsertDone p f s
  | .probe p pos down localTime f => Sys2Proof.Machine.execProbe p pos down localTime f s
  | .consistExecute p pos seq => Sys2Proof.Machine.execConsistExecute p pos seq s
  | .stagedStamp p pos seq => Sys2Proof.Machine.execStagedStamp p pos seq s
  | .moduleSilence p pos => Sys2Proof.Machine.execModuleSilence p pos s
  | .safeRepeat p => Sys2Proof.Machine.execSafeRepeat p s
  | .probeSend p pos localTime => Sys2Proof.Machine.execProbeSend p pos localTime s
  | .portEnable p => Sys2Proof.Machine.execPortEnable p s
  | .enumWrite p => Sys2Proof.Machine.execEnumWrite p s
  | .enumTimeout p => Sys2Proof.Machine.execEnumTimeout p s
  | .idReadTimeout p pos off => Sys2Proof.Machine.execIdReadTimeout p pos off s
  | .recoverTimeout p => Sys2Proof.Machine.execRecoverTimeout p s
  | .portDisable p => Sys2Proof.Machine.execPortDisable p s
  | .portIdleEnd p => Sys2Proof.Machine.execPortIdleEnd p s
  | .trunkAckSend p => Sys2Proof.Machine.execTrunkAckSend p s
  | .wngRiGo value => Sys2Proof.Machine.execWngRiGo value s
  | .riTimeout k => Sys2Proof.Machine.execRiTimeout k s
  | .wngRiCqRead => Sys2Proof.Machine.execWngRiCqRead s
  | .wngMbTxGo value => Sys2Proof.Machine.execWngMbTxGo value s
  | .wngMbRxRead => Sys2Proof.Machine.execWngMbRxRead s
  | .trainingFrame n control status inverted fillErr want elapsed => Sys2Proof.Machine.execTrainingFrame n control status inverted fillErr want elapsed s
  | .trainTimeout n => Sys2Proof.Machine.execTrainTimeout n s
  | .alignmentMarker n marker missing skew => Sys2Proof.Machine.execAlignmentMarker n marker missing skew s
  | .los n => Sys2Proof.Machine.execLos n s
  | .fecCodeword n at_ cw => Sys2Proof.Machine.execFecCodeword n at_ cw s
  | .laneRetrain n => Sys2Proof.Machine.execLaneRetrain n s
  | .laneTrainWrite n on => Sys2Proof.Machine.execLaneTrainWrite n on s
  | .wakeTx n => Sys2Proof.Machine.execWakeTx n s
  | .wakeToneEnd n => Sys2Proof.Machine.execWakeToneEnd n s
  | .wakeToneDetect n => Sys2Proof.Machine.execWakeToneDetect n s
  | .testPatternWrite n value => Sys2Proof.Machine.execTestPatternWrite n value s
  | .injectSymbol n => Sys2Proof.Machine.execInjectSymbol n s
  | .injectBurst n => Sys2Proof.Machine.execInjectBurst n s
  | .injectCrc n => Sys2Proof.Machine.execInjectCrc n s
  | .symcntRead n => Sys2Proof.Machine.execSymcntRead n s
  | .engEnable n => Sys2Proof.Machine.execEngEnable n s
  | .engStart n bits => Sys2Proof.Machine.execEngStart n bits s
  | .engDisable n => Sys2Proof.Machine.execEngDisable n s
  | .threadWake n t => Sys2Proof.Machine.execThreadWake n t s
  | .engineGate n => Sys2Proof.Machine.execEngineGate n s
  | .scratchpadExternal n line write be data coll engWrites ecc eccWord => Sys2Proof.Machine.execScratchpadExternal n line write be data coll engWrites ecc eccWord s
  | .streamTransfer n k data last => Sys2Proof.Machine.execStreamTransfer n k data last s
  | .streamTimeout n t => Sys2Proof.Machine.execStreamTimeout n t s
  | .windowResponse n k x => Sys2Proof.Machine.execWindowResponse n k x s
  | .windowTimeout n k => Sys2Proof.Machine.execWindowTimeout n k s
  | .engSignalSet n bits => Sys2Proof.Machine.execEngSignalSet n bits s
  | .engSreset n => Sys2Proof.Machine.execEngSreset n s
  | .iAdd n t rd rs1 rs2 f => Sys2Proof.Machine.execIAdd n t rd rs1 rs2 f s
  | .iSub n t rd rs1 rs2 f => Sys2Proof.Machine.execISub n t rd rs1 rs2 f s
  | .iAdc n t rd rs1 rs2 f => Sys2Proof.Machine.execIAdc n t rd rs1 rs2 f s
  | .iSbc n t rd rs1 rs2 f => Sys2Proof.Machine.execISbc n t rd rs1 rs2 f s
  | .iAnd n t rd rs1 rs2 f => Sys2Proof.Machine.execIAnd n t rd rs1 rs2 f s
  | .iOr n t rd rs1 rs2 f => Sys2Proof.Machine.execIOr n t rd rs1 rs2 f s
  | .iXor n t rd rs1 rs2 f => Sys2Proof.Machine.execIXor n t rd rs1 rs2 f s
  | .iAndn n t rd rs1 rs2 f => Sys2Proof.Machine.execIAndn n t rd rs1 rs2 f s
  | .iShl n t rd rs1 rs2 f => Sys2Proof.Machine.execIShl n t rd rs1 rs2 f s
  | .iShr n t rd rs1 rs2 f => Sys2Proof.Machine.execIShr n t rd rs1 rs2 f s
  | .iSar n t rd rs1 rs2 f => Sys2Proof.Machine.execISar n t rd rs1 rs2 f s
  | .iRor n t rd rs1 rs2 f => Sys2Proof.Machine.execIRor n t rd rs1 rs2 f s
  | .iMin n t rd rs1 rs2 f => Sys2Proof.Machine.execIMin n t rd rs1 rs2 f s
  | .iMax n t rd rs1 rs2 f => Sys2Proof.Machine.execIMax n t rd rs1 rs2 f s
  | .iMinu n t rd rs1 rs2 f => Sys2Proof.Machine.execIMinu n t rd rs1 rs2 f s
  | .iMaxu n t rd rs1 rs2 f => Sys2Proof.Machine.execIMaxu n t rd rs1 rs2 f s
  | .iMul n t rd rs1 rs2 f => Sys2Proof.Machine.execIMul n t rd rs1 rs2 f s
  | .iMulh n t rd rs1 rs2 f => Sys2Proof.Machine.execIMulh n t rd rs1 rs2 f s
  | .iMulhu n t rd rs1 rs2 f => Sys2Proof.Machine.execIMulhu n t rd rs1 rs2 f s
  | .iClz n t rd rs1 f => Sys2Proof.Machine.execIClz n t rd rs1 f s
  | .iPopc n t rd rs1 f => Sys2Proof.Machine.execIPopc n t rd rs1 f s
  | .iCmp n t rs1 rs2 f => Sys2Proof.Machine.execICmp n t rs1 rs2 f s
  | .iTst n t rs1 rs2 f => Sys2Proof.Machine.execITst n t rs1 rs2 f s
  | .iAddi n t rd rs1 imm => Sys2Proof.Machine.execIAddi n t rd rs1 imm s
  | .iAndi n t rd rs1 imm => Sys2Proof.Machine.execIAndi n t rd rs1 imm s
  | .iOri n t rd rs1 imm => Sys2Proof.Machine.execIOri n t rd rs1 imm s
  | .iXori n t rd rs1 imm => Sys2Proof.Machine.execIXori n t rd rs1 imm s
  | .iCmpi n t rs1 imm => Sys2Proof.Machine.execICmpi n t rs1 imm s
  | .iMovi n t rd imm => Sys2Proof.Machine.execIMovi n t rd imm s
  | .iMovh n t rd imm => Sys2Proof.Machine.execIMovh n t rd imm s
  | .iShli n t rd rs1 sh f => Sys2Proof.Machine.execIShli n t rd rs1 sh f s
  | .iShri n t rd rs1 sh f => Sys2Proof.Machine.execIShri n t rd rs1 sh f s
  | .iSari n t rd rs1 sh f => Sys2Proof.Machine.execISari n t rd rs1 sh f s
  | .iRori n t rd rs1 sh f => Sys2Proof.Machine.execIRori n t rd rs1 sh f s
  | .iSadd n t rd rs1 rs2 f => Sys2Proof.Machine.execISadd n t rd rs1 rs2 f s
  | .iSsub n t rd rs1 rs2 f => Sys2Proof.Machine.execISsub n t rd rs1 rs2 f s
  | .iSaddh2 n t rd rs1 rs2 f => Sys2Proof.Machine.execISaddh2 n t rd rs1 rs2 f s
  | .iSsubh2 n t rd rs1 rs2 f => Sys2Proof.Machine.execISsubh2 n t rd rs1 rs2 f s
  | .iFmul15 n t rd rs1 rs2 f => Sys2Proof.Machine.execIFmul15 n t rd rs1 rs2 f s
  | .iFmul31 n t rd rs1 rs2 f => Sys2Proof.Machine.execIFmul31 n t rd rs1 rs2 f s
  | .iSneg n t rd rs1 f => Sys2Proof.Machine.execISneg n t rd rs1 f s
  | .iSabs n t rd rs1 f => Sys2Proof.Machine.execISabs n t rd rs1 f s
  | .iClamp n t rd rs1 rs2 f => Sys2Proof.Machine.execIClamp n t rd rs1 rs2 f s
  | .iClampu n t rd rs1 rs2 f => Sys2Proof.Machine.execIClampu n t rd rs1 rs2 f s
  | .iLims n t rd rs1 rs2 f nm1 => Sys2Proof.Machine.execILims n t rd rs1 rs2 f nm1 s
  | .iLimu n t rd rs1 rs2 f nm1 => Sys2Proof.Machine.execILimu n t rd rs1 rs2 f nm1 s
  | .iMac n t rs1 rs2 acc => Sys2Proof.Machine.execIMac n t rs1 rs2 acc s
  | .iMsu n t rs1 rs2 acc => Sys2Proof.Machine.execIMsu n t rs1 rs2 acc s
  | .iMacu n t rs1 rs2 acc => Sys2Proof.Machine.execIMacu n t rs1 rs2 acc s
  | .iMz n t rs1 rs2 acc => Sys2Proof.Machine.execIMz n t rs1 rs2 acc s
  | .iMac2h n t rs1 rs2 acc => Sys2Proof.Machine.execIMac2h n t rs1 rs2 acc s
  | .iAclr n t acc => Sys2Proof.Machine.execIAclr n t acc s
  | .iAwl n t rs1 rs2 acc => Sys2Proof.Machine.execIAwl n t rs1 rs2 acc s
  | .iAwh n t rs1 rs2 acc => Sys2Proof.Machine.execIAwh n t rs1 rs2 acc s
  | .iAwg n t rs1 rs2 acc => Sys2Proof.Machine.execIAwg n t rs1 rs2 acc s
  | .iArd n t rd rs1 rs2 acc sh => Sys2Proof.Machine.execIArd n t rd rs1 rs2 acc sh s
  | .iArdt n t rd rs1 rs2 acc sh => Sys2Proof.Machine.execIArdt n t rd rs1 rs2 acc sh s
  | .iArg n t rd rs1 rs2 acc => Sys2Proof.Machine.execIArg n t rd rs1 rs2 acc s
  | .iLb n t rd base imm ecc => Sys2Proof.Machine.execILb n t rd base imm ecc s
  | .iLbu n t rd base imm ecc => Sys2Proof.Machine.execILbu n t rd base imm ecc s
  | .iLh n t rd base imm ecc => Sys2Proof.Machine.execILh n t rd base imm ecc s
  | .iLhu n t rd base imm ecc => Sys2Proof.Machine.execILhu n t rd base imm ecc s
  | .iLw n t rd base imm ecc => Sys2Proof.Machine.execILw n t rd base imm ecc s
  | .iLd n t rd base imm ecc => Sys2Proof.Machine.execILd n t rd base imm ecc s
  | .iSb n t rs base imm ecc => Sys2Proof.Machine.execISb n t rs base imm ecc s
  | .iSh n t rs base imm ecc => Sys2Proof.Machine.execISh n t rs base imm ecc s
  | .iSw n t rs base imm ecc => Sys2Proof.Machine.execISw n t rs base imm ecc s
  | .iSd n t rs base imm ecc => Sys2Proof.Machine.execISd n t rs base imm ecc s
  | .iB n t cond off => Sys2Proof.Machine.execIB n t cond off s
  | .iBl n t off => Sys2Proof.Machine.execIBl n t off s
  | .iJr n t rs1 => Sys2Proof.Machine.execIJr n t rs1 s
  | .iJlr n t rd rs1 => Sys2Proof.Machine.execIJlr n t rd rs1 s
  | .iCsrr n t rd csr => Sys2Proof.Machine.execICsrr n t rd csr s
  | .iCsrw n t rs1 csr => Sys2Proof.Machine.execICsrw n t rs1 csr s
  | .iCsrs n t rd rs1 csr => Sys2Proof.Machine.execICsrs n t rd rs1 csr s
  | .iCsrc n t rd rs1 csr => Sys2Proof.Machine.execICsrc n t rd rs1 csr s
  | .iNop n t a b imm => Sys2Proof.Machine.execINop n t a b imm s
  | .iWait n t a b imm => Sys2Proof.Machine.execIWait n t a b imm s
  | .iWaiti n t a b imm => Sys2Proof.Machine.execIWaiti n t a b imm s
  | .iFence n t a b imm => Sys2Proof.Machine.execIFence n t a b imm s
  | .iBrk n t a b imm => Sys2Proof.Machine.execIBrk n t a b imm s
  | .iSrd n t rd b imm => Sys2Proof.Machine.execISrd n t rd b imm s
  | .iSwr n t rs b imm => Sys2Proof.Machine.execISwr n t rs b imm s
  | .iTti n t rs b imm => Sys2Proof.Machine.execITti n t rs b imm s
  | .iTtir n t rs b imm => Sys2Proof.Machine.execITtir n t rs b imm s
  | .iTtc n t rd b imm => Sys2Proof.Machine.execITtc n t rd b imm s
  | .strobePresent r k => Sys2Proof.Machine.execStrobePresent r k s
  | .regionSleep r => Sys2Proof.Machine.execRegionSleep r s
  | .regionWakeWrite r => Sys2Proof.Machine.execRegionWakeWrite r s
  | .bmAccess r idx a b coll upset => Sys2Proof.Machine.execBmAccess r idx a b coll upset s
  | .queuePush r idx data => Sys2Proof.Machine.execQueuePush r idx data s
  | .queuePop r idx => Sys2Proof.Machine.execQueuePop r idx s
  | .fabDisable => Sys2Proof.Machine.execFabDisable s
  | .vtClaimUncorr k w => Sys2Proof.Machine.execVtClaimUncorr k w s
  | .pointsRequestWrite m r ctx => Sys2Proof.Machine.execPointsRequestWrite m r ctx s
  | .ptsReq r ctx => Sys2Proof.Machine.execPtsReq r ctx s
  | .pointsSample r => Sys2Proof.Machine.execPointsSample r s
  | .switchInstant r => Sys2Proof.Machine.execSwitchInstant r s
  | .planeClear r planes => Sys2Proof.Machine.execPlaneClear r planes s
  | .planeClearDone r k => Sys2Proof.Machine.execPlaneClearDone r k s
  | .scrubWord r k kind tile word err passMs => Sys2Proof.Machine.execScrubWord r k kind tile word err passMs s
  | .ctxDisable => Sys2Proof.Machine.execCtxDisable s
  | .regionStop r => Sys2Proof.Machine.execRegionStop r s
  | .stopEdge r => Sys2Proof.Machine.execStopEdge r s
  | .regionStart r => Sys2Proof.Machine.execRegionStart r s
  | .releaseEdge r pads => Sys2Proof.Machine.execReleaseEdge r pads s
  | .memRead m addr tag flips busy mrq wire => Sys2Proof.Machine.execMemRead m addr tag flips busy mrq wire s
  | .memWrite m addr tag mask data flips wire busy mrq => Sys2Proof.Machine.execMemWrite m addr tag mask data flips wire busy mrq s
  | .memSetAlias m addr tag mask data flips wire busy mrq => Sys2Proof.Machine.execMemSetAlias m addr tag mask data flips wire busy mrq s
  | .memClearAlias m addr tag mask data flips wire busy mrq => Sys2Proof.Machine.execMemClearAlias m addr tag mask data flips wire busy mrq s
  | .memReread flips => Sys2Proof.Machine.execMemReread flips s
  | .patrolVisit d flips secs => Sys2Proof.Machine.execPatrolVisit d flips secs s
  | .memGroupModeWrite n mode => Sys2Proof.Machine.execMemGroupModeWrite n mode s
  | .memGroupOwnerWrite n upper value => Sys2Proof.Machine.execMemGroupOwnerWrite n upper value s
  | .memDisable => Sys2Proof.Machine.execMemDisable s
  | .patrolDisable => Sys2Proof.Machine.execPatrolDisable s
  | .memInitDone => Sys2Proof.Machine.execMemInitDone s
  | .mapLoad p => Sys2Proof.Machine.execMapLoad p s
  | .mapWrite p => Sys2Proof.Machine.execMapWrite p s
  | .sealedPageInitDone p => Sys2Proof.Machine.execSealedPageInitDone p s
  | .hwnOwnGive first count => Sys2Proof.Machine.execHwnOwnGive first count s
  | .hwnOwnReclaim first count => Sys2Proof.Machine.execHwnOwnReclaim first count s
  | .reclaimDone => Sys2Proof.Machine.execReclaimDone s
  | .hostWindowRead n k ecc => Sys2Proof.Machine.execHostWindowRead n k ecc s
  | .hostWindowWrite n k ecc => Sys2Proof.Machine.execHostWindowWrite n k ecc s
  | .cacheFillDone k data ctr tag bad => Sys2Proof.Machine.execCacheFillDone k data ctr tag bad s
  | .fillTimeout k => Sys2Proof.Machine.execFillTimeout k s
  | .schEnable => Sys2Proof.Machine.execSchEnable s
  | .schDisable => Sys2Proof.Machine.execSchDisable s
  | .schZero upper => Sys2Proof.Machine.execSchZero upper s
  | .rekeyGo => Sys2Proof.Machine.execRekeyGo s
  | .rekeyVisit data ctr tag ok => Sys2Proof.Machine.execRekeyVisit data ctr tag ok s
  | .ringTailWrite k tail => Sys2Proof.Machine.execRingTailWrite k tail s
  | .descriptorFetch k desc => Sys2Proof.Machine.execDescriptorFetch k desc s
  | .toDevice k idx data bad => Sys2Proof.Machine.execToDevice k idx data bad s
  | .toHost k idx n => Sys2Proof.Machine.execToHost k idx n s
  | .reclaim k idx => Sys2Proof.Machine.execReclaim k idx s
  | .config k idx data bad => Sys2Proof.Machine.execConfig k idx data bad s
  | .descriptorComplete k idx => Sys2Proof.Machine.execDescriptorComplete k idx s
  | .cplTimeout k idx => Sys2Proof.Machine.execCplTimeout k idx s
  | .bmeClear => Sys2Proof.Machine.execBmeClear s
  | .bmeSet => Sys2Proof.Machine.execBmeSet s
  | .ringReset k => Sys2Proof.Machine.execRingReset k s
  | .ringDisable k => Sys2Proof.Machine.execRingDisable k s
  | .hwnDisable => Sys2Proof.Machine.execHwnDisable s
  | .encDisable => Sys2Proof.Machine.execEncDisable s
  | .abortLogRead => Sys2Proof.Machine.execAbortLogRead s
  | .housekeepingRound x => Sys2Proof.Machine.execHousekeepingRound x s
  | .retrainStep k ok => Sys2Proof.Machine.execRetrainStep k ok s
  | .sidingSwitch k ok => Sys2Proof.Machine.execSidingSwitch k ok s
  | .linkFence k => Sys2Proof.Machine.execLinkFence k s
  | .linkRetrainWrite k => Sys2Proof.Machine.execLinkRetrainWrite k s
  | .startupTrainingDone fails => Sys2Proof.Machine.execStartupTrainingDone fails s
  | .stkDisable => Sys2Proof.Machine.execStkDisable s
  | .sessionOpen ringSrc k => Sys2Proof.Machine.execSessionOpen ringSrc k s
  | .loadWindowWrite data => Sys2Proof.Machine.execLoadWindowWrite data s
  | .bsSync => Sys2Proof.Machine.execBsSync s
  | .bsHeader => Sys2Proof.Machine.execBsHeader s
  | .bsSelect => Sys2Proof.Machine.execBsSelect s
  | .bsFrame => Sys2Proof.Machine.execBsFrame s
  | .bsRepeat => Sys2Proof.Machine.execBsRepeat s
  | .bsInitvec => Sys2Proof.Machine.execBsInitvec s
  | .bsCuffset => Sys2Proof.Machine.execBsCuffset s
  | .bsRelease => Sys2Proof.Machine.execBsRelease s
  | .bsEnd => Sys2Proof.Machine.execBsEnd s
  | .bsSignature => Sys2Proof.Machine.execBsSignature s
  | .verificationDone => Sys2Proof.Machine.execVerificationDone s
  | .failureSequenceEnd => Sys2Proof.Machine.execFailureSequenceEnd s
  | .sessionFinish => Sys2Proof.Machine.execSessionFinish s
  | .sessionAbort => Sys2Proof.Machine.execSessionAbort s
  | .sessionIdleTimeout => Sys2Proof.Machine.execSessionIdleTimeout s
  | .deadlineExpire => Sys2Proof.Machine.execDeadlineExpire s
  | .reveal => Sys2Proof.Machine.execReveal s
  | .readback => Sys2Proof.Machine.execReadback s
  | .cfgDisable => Sys2Proof.Machine.execCfgDisable s
  | .linkUp speed width => Sys2Proof.Machine.execLinkUp speed width s
  | .configRequest fn reg write value => Sys2Proof.Machine.execConfigRequest fn reg write value s
  | .bar0Read off len => Sys2Proof.Machine.execBar0Read off len s
  | .bar2Read off len parts => Sys2Proof.Machine.execBar2Read off len parts s
  | .bar2Write off len be data ep flips wire busy => Sys2Proof.Machine.execBar2Write off len be data ep flips wire busy s
  | .ufRequest f bar2 off len write be data => Sys2Proof.Machine.execUfRequest f bar2 off len write be data s
  | .ufCompletion f tag ok data => Sys2Proof.Machine.execUfCompletion f tag ok data s
  | .ufTimeout f tag => Sys2Proof.Machine.execUfTimeout f tag s
  | .ufMsixReq f vec => Sys2Proof.Machine.execUfMsixReq f vec s
  | .msixSend fn vec => Sys2Proof.Machine.execMsixSend fn vec s
  | .d3hotEnter => Sys2Proof.Machine.execD3hotEnter s
  | .d0Return => Sys2Proof.Machine.execD0Return s
  | .l1Entry => Sys2Proof.Machine.execL1Entry s
  | .pciDisable => Sys2Proof.Machine.execPciDisable s
  | .sbxDoorbell => Sys2Proof.Machine.execSbxDoorbell s
  | .getInfo => Sys2Proof.Machine.execGetInfo s
  | .getSensors => Sys2Proof.Machine.execGetSensors s
  | .readLog => Sys2Proof.Machine.execReadLog s
  | .attest => Sys2Proof.Machine.execAttest s
  | .fwUpdateBegin => Sys2Proof.Machine.execFwUpdateBegin s
  | .fwUpdateChunk bad => Sys2Proof.Machine.execFwUpdateChunk bad s
  | .fwUpdateCommit => Sys2Proof.Machine.execFwUpdateCommit s
  | .setOp => Sys2Proof.Machine.execSetOp s
  | .fuseProgram good => Sys2Proof.Machine.execFuseProgram good s
  | .keySlotProgram good => Sys2Proof.Machine.execKeySlotProgram good s
  | .keySlotRevoke good => Sys2Proof.Machine.execKeySlotRevoke good s
  | .debugUnlockNonce => Sys2Proof.Machine.execDebugUnlockNonce s
  | .debugUnlockRespond => Sys2Proof.Machine.execDebugUnlockRespond s
  | .sbxResponse => Sys2Proof.Machine.execSbxResponse s
  | .mergeWindowEnd code scope => Sys2Proof.Machine.execMergeWindowEnd code scope s
  | .mirrorCopy => Sys2Proof.Machine.execMirrorCopy s
  | .sbxFuseArm value => Sys2Proof.Machine.execSbxFuseArm value s
  | .fuseArmExpire => Sys2Proof.Machine.execFuseArmExpire s
  | .sbxBoot => Sys2Proof.Machine.execSbxBoot s
  | .trialTimeout cleared => Sys2Proof.Machine.execTrialTimeout cleared s
  | .fwHang => Sys2Proof.Machine.execFwHang s
  | .wdogKick value => Sys2Proof.Machine.execWdogKick value s
  | .wdogWarn => Sys2Proof.Machine.execWdogWarn s
  | .wdogExpire => Sys2Proof.Machine.execWdogExpire s
  | .nonceExpire => Sys2Proof.Machine.execNonceExpire s
  | .sbxDisable => Sys2Proof.Machine.execSbxDisable s
  | .sbxSreset => Sys2Proof.Machine.execSbxSreset s
  | .oscJudgeWindow osc count => Sys2Proof.Machine.execOscJudgeWindow osc count s
  | .clkMonTrip => Sys2Proof.Machine.execClkMonTrip s
  | .freezeTimeout => Sys2Proof.Machine.execFreezeTimeout s
  | .sysclkReturn => Sys2Proof.Machine.execSysclkReturn s
  | .xoFail => Sys2Proof.Machine.execXoFail s
  | .fpllEnable n => Sys2Proof.Machine.execFpllEnable n s
  | .fpllDisable n => Sys2Proof.Machine.execFpllDisable n s
  | .pllLock idx => Sys2Proof.Machine.execPllLock idx s
  | .opRequest target => Sys2Proof.Machine.execOpRequest target s
  | .avsAck mv => Sys2Proof.Machine.execAvsAck mv s
  | .avsTimeout mv => Sys2Proof.Machine.execAvsTimeout mv s
  | .gateAck eng idx => Sys2Proof.Machine.execGateAck eng idx s
  | .gateTimeout eng idx => Sys2Proof.Machine.execGateTimeout eng idx s
  | .nmiClear clkmon xofail again => Sys2Proof.Machine.execNmiClear clkmon xofail again s
  | .clkDisable => Sys2Proof.Machine.execClkDisable s
  | .por => Sys2Proof.Machine.execPor s
  | .pin => Sys2Proof.Machine.execPin s
  | .swfull value => Sys2Proof.Machine.execSwfull value s
  | .perst => Sys2Proof.Machine.execPerst s
  | .hotrst => Sys2Proof.Machine.execHotrst s
  | .dieReset p => Sys2Proof.Machine.execDieReset p s
  | .rstBlockWrite mask => Sys2Proof.Machine.execRstBlockWrite mask s
  | .idleAck u => Sys2Proof.Machine.execIdleAck u s
  | .idleTimeout u blk => Sys2Proof.Machine.execIdleTimeout u blk s
  | .resetPulseEnd x => Sys2Proof.Machine.execResetPulseEnd x s
  | .resetRelease x => Sys2Proof.Machine.execResetRelease x s
  | .releaseStep f2f baseif tracks power badReg => Sys2Proof.Machine.execReleaseStep f2f baseif tracks power badReg s
  | .fuseLoadAttemptEnd ok => Sys2Proof.Machine.execFuseLoadAttemptEnd ok s
  | .powerEntry target => Sys2Proof.Machine.execPowerEntry target s
  | .powerEntryStep ok eng => Sys2Proof.Machine.execPowerEntryStep ok eng s
  | .wakeN => Sys2Proof.Machine.execWakeN s
  | .pcieWake perst => Sys2Proof.Machine.execPcieWake perst s
  | .wakeTimer => Sys2Proof.Machine.execWakeTimer s
  | .wakeStep => Sys2Proof.Machine.execWakeStep s
  | .wakeStepTimeout => Sys2Proof.Machine.execWakeStepTimeout s
  | .railLost rail => Sys2Proof.Machine.execRailLost rail s
  | .wakeRearm => Sys2Proof.Machine.execWakeRearm s
  | .pwrDisable => Sys2Proof.Machine.execPwrDisable s
  | .tripThermAssert => Sys2Proof.Machine.execTripThermAssert s
  | .sleepTripCheck temps => Sys2Proof.Machine.execSleepTripCheck temps s
  | .thmDisable => Sys2Proof.Machine.execThmDisable s
  | .bstGo u alg mode bg first last => Sys2Proof.Machine.execBstGo u alg mode bg first last s
  | .copyDone u => Sys2Proof.Machine.execCopyDone u s
  | .marchPassEnd u fails => Sys2Proof.Machine.execMarchPassEnd u fails s
  | .remarchEnd u fails => Sys2Proof.Machine.execRemarchEnd u fails s
  | .restoreDone u => Sys2Proof.Machine.execRestoreDone u s
  | .bstResultRead => Sys2Proof.Machine.execBstResultRead s
  | .bstDisable => Sys2Proof.Machine.execBstDisable s
  | .testLogicReset => Sys2Proof.Machine.execTestLogicReset s
  | .extest data => Sys2Proof.Machine.execExtest data s
  | .idcode => Sys2Proof.Machine.execIdcode s
  | .samplePreload data => Sys2Proof.Machine.execSamplePreload data s
  | .jtagClamp data => Sys2Proof.Machine.execJtagClamp data s
  | .highz data => Sys2Proof.Machine.execHighz data s
  | .bypass code => Sys2Proof.Machine.execBypass code s
  | .dbgSelect value => Sys2Proof.Machine.execDbgSelect value s
  | .dbgAccess data addr be write go => Sys2Proof.Machine.execDbgAccess data addr be write go s
  | .dbgAccessDone x => Sys2Proof.Machine.execDbgAccessDone x s
  | .dbgAccessTimeout => Sys2Proof.Machine.execDbgAccessTimeout s
  | .dbgUnlockNonce => Sys2Proof.Machine.execDbgUnlockNonce s
  | .dbgUnlockRespond keysel signature pubkey => Sys2Proof.Machine.execDbgUnlockRespond keysel signature pubkey s
  | .unlockVerifyDone => Sys2Proof.Machine.execUnlockVerifyDone s
  | .threadHalt n t => Sys2Proof.Machine.execThreadHalt n t s
  | .threadStep n t => Sys2Proof.Machine.execThreadStep n t s
  | .threadResume n t => Sys2Proof.Machine.execThreadResume n t s
  | .regionFreeze r => Sys2Proof.Machine.execRegionFreeze r s
  | .freezeEdge r => Sys2Proof.Machine.execFreezeEdge r s
  | .regionUnfreeze r => Sys2Proof.Machine.execRegionUnfreeze r s
  | .regionPulse r edges => Sys2Proof.Machine.execRegionPulse r edges s
  | .pulseEnd r => Sys2Proof.Machine.execPulseEnd r s
  | .regionCapture r => Sys2Proof.Machine.execRegionCapture r s
  | .dbgFrameGo => Sys2Proof.Machine.execDbgFrameGo s
  | .dbgDisable => Sys2Proof.Machine.execDbgDisable s
  | .bankClockLock b khz => Sys2Proof.Machine.execBankClockLock b khz s
  | .bitslip b n => Sys2Proof.Machine.execBitslip b n s
  | .endModule p pos => Sys2Proof.Machine.execEndModule p pos s
  | .idle p pos f => Sys2Proof.Machine.execIdle p pos f s
  | .flitCrcError p pos forward f => Sys2Proof.Machine.execFlitCrcError p pos forward f s
  | .chkLock n gained errs syms => Sys2Proof.Machine.execChkLock n gained errs syms s
  | .fallbackApply p pos => Sys2Proof.Machine.execFallbackApply p pos s
  | .modulePulseEnd p pos chan => Sys2Proof.Machine.execModulePulseEnd p pos chan s
  | .illegalInstruction n t => Sys2Proof.Machine.execIllegalInstruction n t s
  | .fetchFault n t ecc => Sys2Proof.Machine.execFetchFault n t ecc s
  | .endpointReady => Sys2Proof.Machine.execEndpointReady s

end Sys2Proof.Machine
end

