-- ==== Sys2Proof/Machine/Pins.lean ====
section
/-! DEFINITION. The package (chapter 26): what every ball of the grid is (R495 to R501), the states of the dedicated pins
(R502), and what a pin of a bank does outside the fabric's hands (R263, R508, R509). -/
namespace Sys2Proof.Machine

/-! ### The ball grid (R495 to R501) -/

/-- The dedicated pins, and the reference clock's pair. -/
inductive DedPin where
  | xoIn | xoOut | resetN | wakeN | alertN | faultN
  | tck | tms | tdi | tdo | trstN
  | qspiClk | qspiCsN
  | qspiIo (k : Nat)
  | avsClk | avsMdata | avsSdata
  | pwrEn (k : Nat)
  | pgood (k : Nat)
  | lpull (k : Nat)
  | perstN
  | refclk (positive : Bool)
  deriving DecidableEq, Repr

/-- The supply rails of the grid; `vio` is the rail of one user bank. -/
inductive Rail where
  | vaux | vleg | vcore | vbase | vmem | vwng085 | vwng12
  | vio (bank : Nat)
  deriving DecidableEq, Repr

/-- What a ball is. -/
inductive Ball where
  | vss
  | rail (r : Rail)
  /-- pin n of user bank b -/
  | user (b n : Nat)
  /-- pin n of legacy bank b -/
  | legacy (b n : Nat)
  /-- a side of a Wengan lane's transmitter or receiver -/
  | wengan (lane : Nat) (tx positive : Bool)
  /-- a side of a PCI Express lane's transmitter or receiver -/
  | pcie (lane : Nat) (tx positive : Bool)
  | dedicated (p : DedPin)
  deriving DecidableEq, Repr

/-- Banks B0 to B7 (R497): `r` is the signal row, 3 the inner row; `c` the column within the block of 11. -/
def userBall (b r c : Nat) : Ball :=
  if r = 3 then (if c % 2 = 0 then .vss else .rail (.vio b))
  else if c = 10 then .rail (.vio b)
  else .user b (10 * r + c)

/-- The Wengan lanes (R498). -/
def wenganBall (i j : Nat) : Ball :=
  let p := (i - 6) / 5
  let o := (i - 6) % 5
  if i < 6 ∨ 25 ≤ i ∨ o = 4 then
    (if j = 2 then .rail .vwng085 else if j = 4 then .rail .vwng12 else .vss)
  else if j = 1 ∨ j = 3 then .wengan (2 * p + o / 2) (j == 1) (o % 2 == 0)
  else .vss

/-- The PCI Express lanes and their row W (R498). -/
def pcieBall (i j : Nat) : Ball :=
  let n := (i - 6) / 3
  let o := (i - 6) % 3
  if i = 18 then
    (if j = 44 then .dedicated (.refclk true) else if j = 43 then .dedicated (.refclk false)
     else if j = 42 then .dedicated .perstN else .vss)
  else if i < 6 ∨ o = 2 then
    (if j = 42 then .rail .vwng085 else if j = 43 then .rail .vwng12 else .vss)
  else if j = 44 ∨ j = 42 then .pcie n (j == 44) (o == 0)
  else .vss

/-- The always-on and system block (R499), row by row from AH on. -/
def systemRows : List (List Ball) :=
  let d := Ball.dedicated
  let g := Ball.vss
  let v := Ball.rail .vaux
  [[d .xoIn, g, d .xoOut, g],
   [g, g, g, v],
   [d .resetN, d .wakeN, v, g],
   [d .alertN, d .faultN, g, v],
   [d .tck, d .tms, g, g],
   [d .tdi, d .tdo, d .trstN, v],
   [d .qspiClk, g, d .qspiCsN, g],
   [d (.qspiIo 0), d (.qspiIo 1), v, g],
   [d (.qspiIo 2), d (.qspiIo 3), g, v],
   [d .avsClk, d .avsMdata, d .avsSdata, g],
   [d (.pwrEn 0), d (.pwrEn 1), g, v],
   [d (.pwrEn 2), d (.pwrEn 3), g, g],
   [d (.pgood 0), d (.pgood 1), d (.pgood 2), d (.pgood 3)],
   [d (.lpull 0), d (.lpull 1), g, v]]

/-- The legacy banks (R500): `r` is the row within the block of 11. -/
def legacyBall (b r j : Nat) : Ball :=
  if j = 41 then (if r % 2 = 0 then .rail .vleg else .vss)
  else if r < 8 then .legacy b (3 * r + (44 - j))
  else if r = 9 then .rail .vleg
  else .vss

/-- Core power (R501). -/
def coreBall (i j : Nat) : Ball :=
  if (i + j) % 2 = 0 then .vss
  else if j ≤ 10 then .rail .vbase
  else if 35 ≤ j then .rail .vmem
  else .rail .vcore

/-- The ball in row index i and column j, both from 1 to 44; none outside the grid (R495, R496). -/
def ball (i j : Nat) : Option Ball :=
  if i = 0 ∨ 44 < i ∨ j = 0 ∨ 44 < j then none
  else if i ≤ 4 then some (userBall ((j - 1) / 11) (i - 1) ((j - 1) % 11))
  else if 41 ≤ i then some (userBall (4 + (j - 1) / 11) (44 - i) ((j - 1) % 11))
  else if 5 ≤ j ∧ j ≤ 40 then some (coreBall i j)
  else if j ≤ 4 then (if i ≤ 26 then some (wenganBall i j) else (systemRows[i - 27]?).bind fun r => r[j - 1]?)
  else if i ≤ 18 then some (pcieBall i j)
  else some (legacyBall ((i - 19) / 11) ((i - 19) % 11) j)

/-! ### The dedicated pins (R502) -/

/-- What a dedicated pin does: an output's level or release, or how an input is taken. -/
inductive DedState where
  /-- not powered, or the oscillator off -/
  | off
  /-- the crystal oscillates -/
  | oscillates
  /-- an input that is taken -/
  | taken
  /-- an input that is ignored -/
  | ignored
  /-- an open-drain output that is released -/
  | released
  /-- driven low -/
  | low
  /-- driven high -/
  | high
  /-- high impedance -/
  | highZ
  /-- high impedance with a weak pull-up -/
  | pullUp
  /-- in the hands of the block that serves it -/
  | served
  deriving DecidableEq, Repr

/-- The Signal Box serves the QSPI port: after step 6 of R433. -/
def qspiServed (s : State) : Bool := !isOff s && s.rst.srcs.isEmpty && (s.rst.step == 0 || decide (6 ≤ s.rst.step))

/-- PWR_ENk is asserted: its rail is on, or its step of R447 is in hand. -/
def pwrEnOn (s : State) (k : Nat) : Bool :=
  bitOf (fld s F.PWR_RAILS_EN) k || (poweringUp s && s.pwr.step == (if k = 3 then 5 else k + 1))

/-- The AVSBus outputs are driven: outside OFF, and in a power-up from step 3 of R447, the VCORE regulator's. -/
def avsDriven (s : State) : Bool := !isOff s && (!poweringUp s || decide (3 ≤ s.pwr.step))

/-- The state of a dedicated pin. -/
def dedState (s : State) : DedPin → DedState
  | .xoIn | .xoOut => if isOff s then .off else .oscillates
  | .resetN | .avsSdata | .perstN => if isOff s then .ignored else .taken
  | .pgood _ => if isOff s then .ignored else .taken
  | .wakeN => if isOff s && !s.pwr.armed then .ignored else .taken
  | .alertN => if alertN s then .low else .released
  | .faultN => if s.rst.fault.isEmpty then .released else .low
  | .tck | .tms | .tdi | .trstN => .taken
  | .tdo => .highZ
  | .qspiClk => if qspiServed s then .served else .highZ
  | .qspiIo k => if qspiServed s then .served else if k < 2 ∨ isOff s = true then .highZ else .pullUp
  | .qspiCsN => if qspiServed s then .served else .pullUp
  | .avsClk | .avsMdata => if avsDriven s then .high else .highZ
  | .pwrEn k => if pwrEnOn s k then .high else .low
  | .lpull _ => if pwrEnOn s 3 then .taken else .off
  | .refclk _ => if isOff s then .off else .taken

/-! ### Pulls and encoder clocks (R508, R509) -/

/-- The weak pull of a bank's pre-configuration state is a pull-up: never on a user bank, as the strap on a legacy bank. -/
def preconfUp (b : Nat) : Bool := decide (8 ≤ b) && bitOf Config.legacyStraps (b - 8)

/-- The encoder interface drives ENCk_CLK, which idles high; else that pin is high impedance with the strap's pull. -/
def encClkDriven (s : State) (k : Nat) : Bool := bitOf (fld s F.IOB_ENC_EN) k && fld s (F.ANG_ENCk_CFG_MODE k) == 1

/-- The pin of a bank as boundary scan, the encoder interfaces and the owner leave it: its output and whether it drives, where
a scan instruction holds it, else its state. -/
def bankPin (s : State) (b n : Nat) : (Bool × Bool) ⊕ PinState :=
  match scanPin s b n with
  | some x => .inl x
  | none => .inr (pinState s b n)

end Sys2Proof.Machine
end

