-- ==== Sys2Proof/Safety.lean ====
section
/-! DEFINITION. The terms that claims use: what it is for a command to complete with events and a state, which parts of
the state and which register fields a command leaves alone, and the canonical form of the state. -/
namespace Sys2Proof.Machine

/-- Between commands no event waits to be logged: every command ends with its events logged (R393). -/
abbrev Quiet (s : State) : Prop := s.evq = []

/-- The parts of the state. -/
inductive Part where
  | regs | latch | evq | log | windows | mirrorQ | axes | encs | rt | tt | dsp | ports | node | modules | lanes | regions | fab | engines | clk
  | pwr | wire | mem | cache | hwn | enc | stk | thm | iob | hostWr | rsps | pci | rst | cfg | sbx | bst | dbg | free | pending
  deriving DecidableEq, Repr

/-- The part of the state is the same in `u` as in `s`. -/
def samePart (s u : State) : Part → Prop
  | .regs => u.regs = s.regs
  | .latch => u.latch = s.latch
  | .evq => u.evq = s.evq
  | .log => u.log = s.log
  | .windows => u.windows = s.windows
  | .mirrorQ => u.mirrorQ = s.mirrorQ
  | .axes => u.axes = s.axes
  | .encs => u.encs = s.encs
  | .rt => u.rt = s.rt
  | .tt => u.tt = s.tt
  | .dsp => u.dsp = s.dsp
  | .ports => u.ports = s.ports
  | .node => u.node = s.node
  | .modules => u.modules = s.modules
  | .lanes => u.lanes = s.lanes
  | .regions => u.regions = s.regions
  | .fab => u.fab = s.fab
  | .engines => u.engines = s.engines
  | .clk => u.clk = s.clk
  | .pwr => u.pwr = s.pwr
  | .wire => u.wire = s.wire
  | .mem => u.mem = s.mem
  | .cache => u.cache = s.cache
  | .hwn => u.hwn = s.hwn
  | .enc => u.enc = s.enc
  | .stk => u.stk = s.stk
  | .thm => u.thm = s.thm
  | .iob => u.iob = s.iob
  | .hostWr => u.hostWr = s.hostWr
  | .rsps => u.rsps = s.rsps
  | .pci => u.pci = s.pci
  | .rst => u.rst = s.rst
  | .cfg => u.cfg = s.cfg
  | .sbx => u.sbx = s.sbx
  | .bst => u.bst = s.bst
  | .dbg => u.dbg = s.dbg
  | .free => u.free = s.free
  | .pending => u.pending = s.pending

/-- Every part of the state but those named is unchanged: special registers, accumulators, memory, queues, all of it. -/
def OnlyParts (ps : List Part) (s u : State) : Prop := ∀ p, p ∉ ps → samePart s u p

/-- Every register field but those named is unchanged. -/
def OnlyFlds (fs : List Fld) (s u : State) : Prop := ∀ f : Fld, f.key ∉ fs.map Fld.key → fld u f = fld s f

/-- Only register fields change, and of them only those named. -/
def OnlyRegs (fs : List Fld) (s u : State) : Prop := OnlyParts [.regs] s u ∧ OnlyFlds fs s u

/-- Only the parts named change, and of the register fields only those named. -/
def Only (ps : List Part) (fs : List Fld) (s u : State) : Prop := OnlyParts (.regs :: ps) s u ∧ OnlyFlds fs s u

/-- An event that is not merged, with its items as (bytes, value). -/
def ev (code : Nat) (items : List (Nat × Nat)) : Ev := ⟨code, none, false, items⟩

/-- An event that is merged per scope (R539). -/
def evMerged (code scope : Nat) (items : List (Nat × Nat)) : Ev := ⟨code, some scope, false, items⟩

/-- The state with no event waiting. -/
def hush (s : State) : State := { s with evq := [] }

/-- A state with the records of the events `es` written: in ascending CODE, into the log, the queue of the flash mirror, and
to vector 0 where PCI_EVT_EN says so (R379, R392, R393, R394). -/
def withEvents (es : List Ev) (u : State) : State := finish { u with evq := es }

/-- The command completes in `s`: its next state is `u` with the records of the events `es` written. -/
def CompletesTo (c : Instr) (s : State) (es : List Ev) (u : State) : Prop := u.evq = [] ∧ exec c s = .next (withEvents es u)

/-- The command completes in `s` with events `es`, in a state of which `P` says what it holds. -/
def Completes (c : Instr) (s : State) (es : List Ev) (P : State → Prop) : Prop := ∃ u, CompletesTo c s es u ∧ P u

/-- The same, where the events are not named. -/
def Runs (c : Instr) (s : State) (P : State → Prop) : Prop := ∃ es, Completes c s es P

/-! ### The canonical form -/

/-- The memory dies hold their data in one canonical form: addresses strictly rising, nothing listed that an unlisted
address reads as. -/
def Memory.wf (m : Memory) : Bool :=
  smRisingFrom none m.cells && m.cells.all (fun e => !decide (e.2 = cellDef m e.1)) && smWf 0 m.poison && smWf 0 m.scram
  && smWf 0 m.owner

/-- The maps of the state that hold registers, latches and memory are in canonical form. -/
abbrev Canonical (s : State) : Prop := smRisingFrom none s.regs = true ∧ smWf 0 s.latch = true ∧ s.mem.wf = true

end Sys2Proof.Machine
end

