-- ==== Sys2Proof/Certificates/Slice0/Obligations.lean ====
section
/-! DEFINITION. The statements for the provers: what each command of the block does, by the numbered rules of the spec. -/
open Sys2Proof Sys2Proof.Machine

/-! ### The Proster-32 instruction set (chapter 08) -/

/-- Thread t of engine n issues the instruction encoded as `w` and goes on after it: it could issue, the word at its PC is
`w` and legal, no breakpoint lies there, and no stop or halt of it is asked for. -/
abbrev Issues (s : State) (n t w : Nat) : Prop :=
  Quiet s ∧ canIssue s n t w = true ∧ (bpHit s n t && !(thread s n t).go) = false ∧ thrWanted s n t = true
  ∧ (thread s n t).watch = false ∧ (thread s n t).step = false ∧ haltPending s n t = false

/-- Nothing changes but thread t of engine n: no register of the block, no other thread, no scratchpad word, no queue. -/
def OnlyThread (n t : Nat) (s u : State) : Prop :=
  OnlyParts [.engines] s u ∧ (∀ m, m ≠ n → engine u m = engine s m)
  ∧ engine u n = { engine s n with threads := (engine u n).threads } ∧ ∀ j, j ≠ t → thread u n j = thread s n j

/-- Of the general registers of the thread only those in `rds` differ, and the rest of the thread is as `x` says. -/
def OnlyGs (n t : Nat) (rds : List Nat) (x : Thread) (s u : State) : Prop :=
  OnlyThread n t s u ∧ thread u n t = { x with g := (thread u n t).g } ∧ ∀ i, i ∉ rds → gReg u n t i = gReg s n t i

/-- The thread goes on at `pc`, with the flags `fl`. -/
def goesOn (x : Thread) (fl : Flg) (pc : Nat) : Thread :=
  { x with
    z := fl.z
    n := fl.n
    c := fl.c
    v := fl.v
    pc := pc % 2 ^ 32
    blk := .free
    go := false }

/-- The address of the next word. -/
def pc4 (s : State) (n t : Nat) : Nat := (thread s n t).pc + 4

/-- The register rd takes `r`, the flags become `fl`, and the thread goes on at the next word. -/
def WritesReg (n t rd : Nat) (r : Word) (fl : Flg) (s u : State) : Prop :=
  gReg u n t rd = r ∧ OnlyGs n t [rd] (goesOn (thread s n t) fl (pc4 s n t)) s u

/-- Only the flags change, and the thread goes on at the next word. -/
def WritesFlags (n t : Nat) (fl : Flg) (s u : State) : Prop :=
  OnlyThread n t s u ∧ thread u n t = goesOn (thread s n t) fl (pc4 s n t)

/-- The flags of a result: Z and N from it, C and V as given (R176). -/
def fl4 (r : Word) (c v : Bool) : Flg := ⟨r == 0, r.msb, c, v⟩

/-- The thread faults with a cause (R153, R190): it enters FAULT with its START bit cleared and event 0x1801 raised, and nothing
else of it changes: no register, flag, accumulator, control register or memory byte. -/
def Faults (c : Instr) (n t cause : Nat) (s : State) : Prop :=
  Completes c s [ev 0x1801 [(1, n), (1, t), (1, cause)]] fun u =>
    thrState u n t = tFAULT ∧ fld u (F.ENG_n_Tt_FAULT_CAUSE n t) = cause ∧ bitOf (fld u (F.ENG_n_CTRL_START n)) t = false
    ∧ thread u n t = { thread s n t with go := false }
    ∧ engine u n = { engine s n with threads := (engine u n).threads } ∧ (∀ j, j ≠ t → thread u n j = thread s n j)
    ∧ (∀ j, j < 4 → j ≠ t → thrState u n j = thrState s n j ∧ bitOf (fld u (F.ENG_n_CTRL_START n)) j = bitOf (fld s (F.ENG_n_CTRL_START n)) j)
    ∧ Only [.engines] [F.ENG_n_STATUS_THREADS n, F.ENG_n_Tt_FAULT_CAUSE n t, F.ENG_n_CTRL_START n, F.DBG_ENGn_STATUS_HALTED n,
        F.DBG_ENGn_STATUS_PENDING n] s u

/-- A byte of a scratchpad. -/
def spByte (s : State) (n a : Nat) : Nat := bits (spWord s n (a / 8)) (8 * (a % 8)) 8

/-- Thread t of engine n wants to run and nothing makes it stop or halt at its next boundary. -/
abbrev Calm (s : State) (n t : Nat) : Prop :=
  Quiet s ∧ thrWanted s n t = true ∧ (thread s n t).watch = false ∧ (thread s n t).step = false ∧ haltPending s n t = false

/-- A window load of an engine ends with a status: its destination takes the value, LDSTAT the status, and the thread goes on. -/
def LoadEnds (n : Nat) (q : WinReq) (st : Nat) (v : Word) (s u : State) : Prop :=
  gReg u n q.thread q.rd = v ∧ (∀ i, i ≠ q.rd → gReg u n q.thread i = gReg s n q.thread i)
  ∧ thread u n q.thread = { goesOn (thread s n q.thread) (flg s n q.thread) (pc4 s n q.thread) with
      g := (thread u n q.thread).g
      ldLast := st
      ldErr := (thread s n q.thread).ldErr || st != 0 }
  ∧ (engine u n).win = (engine s n).win.erase q ∧ (∀ m, m ≠ n → engine u m = engine s m)

/-- A saturating counter of `n` more. -/
def Counts (f : Fld) (n : Nat) (s u : State) : Prop := fld u f = min (fld s f + n) (2 ^ f.width - 1)

/-- The line that a device address names, as the memory commands take it. -/
def lineAt (s : State) (a : Nat) : Nat := storLine s (memByte (a / 64 * 64))

/-- The die (1 to 3) of a device address. -/
def dieAt (a : Nat) : Nat := dieOfByte (memByte (a / 64 * 64))

/-- Descriptor i of ring k is in flight, with this operation, has not ended, and bus mastering is on. -/
abbrev InFlight (s : State) (k i : Nat) (d : Desc) (op : Nat) : Prop :=
  Quiet s ∧ descAt s k i = some d ∧ d.fin = none ∧ dOp d = op ∧ bme s = true ∧ ringAborted s k = false

/-- The read of descriptor i of an aborted ring k has ended: it leaves the ring and nothing is written back; ENABLE reads 0 once
no other one is left. -/
def ReadEnds (k i : Nat) (s u : State) : Prop :=
  ring u k = (ring s k).filter (fun y => y.idx != i) ∧ (∀ j, j ≠ k → ring u j = ring s j)
  ∧ u.hwn.map = s.hwn.map ∧ u.hwn.init = s.hwn.init ∧ u.hwn.aborts = s.hwn.aborts ∧ u.hwn.owner = s.hwn.owner
  ∧ (ring u k = [] → flag u (F.HWN_RINGk_CTRL_ENABLE k) = false)
  ∧ (ring u k ≠ [] → flag u (F.HWN_RINGk_CTRL_ENABLE k) = flag s (F.HWN_RINGk_CTRL_ENABLE k))
  ∧ Only [.hwn] [F.HWN_RINGk_STATUS_INFLIGHT k, F.HWN_RINGk_CTRL_ENABLE k, F.HWN_RINGk_STATUS_DRAINING k] s u

/-- Of the rings only ring k changes, and of its descriptors only number i, which becomes d. -/
def PutsDesc (k i : Nat) (d : Desc) (s u : State) : Prop :=
  ring u k = (ring s k).map (fun x => if x.idx = i then d else x) ∧ (∀ j, j ≠ k → ring u j = ring s j)
  ∧ u.hwn.map = s.hwn.map ∧ u.hwn.init = s.hwn.init ∧ u.hwn.aborts = s.hwn.aborts

/-- The 64 bytes of a line as a number, byte 0 lowest. -/
def lineNum (s : State) (l : Nat) : Nat := lineBytes s l 0 64

/-- Master m reads the line of address a, and is served. -/
abbrev ServedAt (s : State) (m a : Nat) (mrq : Bool) : Prop :=
  Quiet s ∧ mayIssue s m = true ∧ memRefusalAt s m (a / 64 * 64) mrq = 0

/-- The registers that show key slots. -/
def keyFlds : List Fld := [F.CFG_KEYSLOTS_SLOT0, F.CFG_KEYSLOTS_SLOT1, F.CFG_KEYSLOTS_SLOT2, F.CFG_KEYSLOTS_SLOT3, F.CFG_KEYSLOTS_AES]

/-- Every self-test unit is idle. -/
abbrev UnitsIdle (s : State) : Prop := ∀ u : Fin 9, unitState s u = 0

/-- GLB_RST_CAUSE reads a source with its qualifiers. -/
def CauseIs (src qual eng : Nat) (u : State) : Prop :=
  fld u F.GLB_RST_CAUSE_SOURCE = src ∧ fld u F.GLB_RST_CAUSE_QUAL = qual ∧ fld u F.GLB_RST_CAUSE_ENGINE = eng

/-- The device is in OFF: rails off, the fuse shadows and the memory contents lost, FAULT_N as its causes hold it (R442, R449, R451). -/
def InOff (fault : List Nat) (u : State) : Prop :=
  fld u F.PWR_STATUS_STATE = 4 ∧ fld u F.PWR_STATUS_PHASE = 0 ∧ u.pwr = {} ∧ fld u F.PWR_RAILS_EN = 0 ∧ fld u F.PWR_RAILS_PGOOD = 0
  ∧ flag u F.RST_STATUS_FUSE_DONE = false ∧ u.sbx.shadow = [] ∧ u.mem.cells = [] ∧ (∀ k : Fin 192, smGet u.mem.scram k 0 ≠ 0)
  ∧ (∀ n : Fin 96, (engine u n).sp = []) ∧ u.regions = [] ∧ u.rst.srcs = [] ∧ u.rst.fault = fault
  ∧ flag u F.GLB_NMI_STATUS_FAULT = !fault.isEmpty

/-- The one new completion. -/
def Completed (c : Cpl) (s u : State) : Prop := u.pci = { s.pci with cpls := c :: s.pci.cpls }

/-- What the device sends leaves as it is: no freeze holds it, and no CRC injection waits (R146, R417). -/
abbrev SendsPlainly (s : State) : Prop := frozen s = false ∧ ∀ n : Fin 8, (lane s n).injCrc = false

/-- Event 0x0701 of every region that the loss of its configuration takes to EMPTY (R217, R254). -/
def regionGone (s : State) : List Ev :=
  ((List.range 72).filter fun r => regState s r != 0).map fun r => ev 0x0701 [(1, r), (1, regState s r), (1, 0)]

/-- The other regions keep everything but what an asynchronous SR of theirs holds. -/
abbrev OthersKeep (r : Nat) (s u : State) : Prop :=
  ∀ q, q ≠ r → region u q = { region s q with shared := (region u q).shared, priv := (region u q).priv }

/-- The device's own flit on port p (R100). -/
def ownFlit (s : State) (p : Fin 4) (type addr payload : Nat) : Sent := ⟨p, 0, mkFlit type (port s p).seq addr 0 0 payload⟩
/-! ### The whole machine -/

/-- A step takes the command at the front of the queue and runs it on the state with the queue's rest; with an empty queue a
fabric clock may give its edge, whose choice is free (the model's choice, log entry 1). -/
def Obligations.StepRunsTheFrontCommand : Prop :=
  (∀ (c : Instr) (r : List Instr) (s : State), s.pending = c :: r → step s = exec c { s with pending := r }) ∧
  (∀ (s : State), s.pending = [] → step s = .next (tick s))

/-- No command stops the block: in every state each command of the table answers a next state, with every event it raised
already written (R14, R393). -/
def Obligations.EveryCommandCompletes : Prop := ∀ (c : Instr) (s : State), ∃ t, exec c s = .next t ∧ t.evq = []

/-- Every step keeps the canonical form: the register fields and the latches listed by strictly rising key, no latch that is
empty, and the memory dies with strictly rising addresses and no entry that an unlisted byte already reads as; and no event
waits between steps. -/
def Obligations.EveryStepKeepsTheCanonicalForm : Prop :=
  ∀ (s t : State), Canonical s → Quiet s → step s = .next t → Canonical t ∧ Quiet t

/-- What R393 and R394 say of the log at any time: it holds at most 4,096 records, newest first, with consecutive sequence numbers
that wrap after 0xFFFF_FFFF, and at most 256 records wait for the flash mirror. -/
abbrev LogHolds (s : State) : Prop :=
  s.log.length ≤ 4096 ∧ s.mirrorQ.length ≤ 256
  ∧ ∀ (i : Nat) (a b : LogRec), s.log[i]? = some a → s.log[i + 1]? = some b → a.seq = (b.seq + 1) % 2 ^ 32

/-- Every step keeps the event log a ring of at most 4,096 records with consecutive sequence numbers, and the queue of its mirror
within 256 records (R392, R393, R394). -/
def Obligations.EveryStepKeepsTheLog : Prop := ∀ (s t : State), LogHolds s → step s = .next t → LogHolds t

/-- What the reset leaves: every register field at its reset value, the canonical form, no event waiting, a log of two records
whose first is event 0x1C01 with SEQ 0 (R393), no command waiting, and memory of which no byte is listed or poisoned and every byte
reads 0 (the model's choice, log entry 15). -/
def Obligations.ResetIsCanonical : Prop :=
  Canonical State.reset ∧ Quiet State.reset ∧ LogHolds State.reset ∧ State.reset.pending = []
  ∧ (State.reset.log.map fun r => (r.seq, r.code, r.flags, r.count, r.data)) = [(1, 0x0101, 0, 1, 0), (0, 0x1C01, 0, 1, 0)]
  ∧ (∀ f : Fld, fld State.reset f = f.reset % 2 ^ f.width) ∧ (∀ l o : Nat, cell State.reset l o = 0) ∧ (∀ l : Nat, poisoned State.reset l = false)

/-- What the log writer does with the records of one occurrence of at most 16 bytes: `r` becomes the newest record of the ring, waits
for the mirror or is counted lost, and vector 0 pends where PCI_EVT_EN names the block. -/
def Records (r : LogRec) (w : List MergeWin) (s u : State) : Prop :=
  u.log = (r :: s.log).take 4096 ∧ u.windows = w
  ∧ (if s.mirrorQ.length < 256 then u.mirrorQ = s.mirrorQ ++ [r] ∧ u.sbx = s.sbx ∧ fld u F.SBX_MIRROR_LOST = fld s F.SBX_MIRROR_LOST
     else u.mirrorQ = s.mirrorQ ∧ u.sbx = { s.sbx with lost := true } ∧ Counts F.SBX_MIRROR_LOST 1 s u)
  ∧ fld u F.PCI_PBA_PENDING = (if bitOf (fld s F.PCI_EVT_EN_BLOCKS) (r.code / 256) = true ∧ endpointHeld s = false
      then (fld s F.PCI_PBA_PENDING ||| 1) % 2 ^ F.PCI_PBA_PENDING.width else fld s F.PCI_PBA_PENDING)
  ∧ Only [.log, .windows, .mirrorQ, .sbx] [F.SBX_MIRROR_LOST, F.PCI_PBA_PENDING] s u

/-- The window of a code and scope is the one at this place of the list. -/
abbrev WindowAt (s : State) (code scope : Nat) (a : List MergeWin) (w : MergeWin) (b : List MergeWin) : Prop :=
  s.windows = a ++ w :: b ∧ w.code = code ∧ w.scope = scope ∧ ∀ v ∈ a ++ b, ¬(v.code = code ∧ v.scope = scope)

/-- Events and the log (R379, R392, R393, R394, R539): an event writes one record of SEQ, CODE, FLAGS, COUNT 1, TIME and DATA where its
items need at most 16 bytes; a merged event writes one and opens its window, and while the window is open it is only counted; the
end of a window that counted writes one record with the count and begins it anew, that of one that did not closes it; events of one
command are written in ascending CODE. -/
def Obligations.EventsAreRecorded : Prop :=
  (∀ (code : Nat) (items : List (Nat × Nat)) (u : State), Quiet u → (items.map Prod.fst).sum ≤ 16 →
    Records ⟨nextSeq u, code, b2n (rtValid u), 1, logTime u, (packItems items).2⟩ u.windows u (withEvents [ev code items] u)) ∧
  (∀ (code scope : Nat) (items : List (Nat × Nat)) (u : State), Quiet u → (items.map Prod.fst).sum ≤ 16 →
    (∀ w ∈ u.windows, ¬(w.code = code ∧ w.scope = scope)) →
    Records ⟨nextSeq u, code, b2n (rtValid u), 1, logTime u, (packItems items).2⟩ (u.windows ++ [⟨code, scope, 0, 0, []⟩]) u
      (withEvents [evMerged code scope items] u)) ∧
  (∀ (code scope : Nat) (items : List (Nat × Nat)) (a b : List MergeWin) (w : MergeWin) (u : State), Quiet u →
    WindowAt u code scope a w b →
    withEvents [evMerged code scope items] u = { u with
      windows := a ++ (if w.count = 0 then ⟨code, scope, 1, logTime u, items⟩ else ⟨code, scope, min (w.count + 1) 255, w.time, w.items⟩) :: b }) ∧
  (∀ (code : BitVec 16) (scope : BitVec 32) (a b : List MergeWin) (w : MergeWin) (s : State), Quiet s →
    WindowAt s code.toNat scope.toNat a w b → w.count = 0 →
    Completes (.mergeWindowEnd code scope) s [] fun u => u = { s with windows := a ++ b }) ∧
  (∀ (code : BitVec 16) (scope : BitVec 32) (a b : List MergeWin) (w : MergeWin) (s : State), Quiet s →
    WindowAt s code.toNat scope.toNat a w b → w.count ≠ 0 → (w.items.map Prod.fst).sum ≤ 16 →
    Completes (.mergeWindowEnd code scope) s [] fun u =>
      Records ⟨nextSeq s, code.toNat, b2n (rtValid s), w.count, w.time, (packItems w.items).2⟩
        (a ++ ⟨code.toNat, scope.toNat, 0, 0, []⟩ :: b) s u) ∧
  (∀ (x y : Ev) (u : State), y.code < x.code → withEvents [x, y] u = withEvents [y, x] u) ∧
  (∀ (es : List Ev) (u : State), OnlyFlds [F.SBX_MIRROR_LOST, F.PCI_PBA_PENDING] u (withEvents es u)
    ∧ OnlyParts [.regs, .evq, .log, .windows, .mirrorQ, .sbx] u (withEvents es u)
    ∧ (withEvents es u).sbx = { u.sbx with lost := (withEvents es u).sbx.lost } ∧ (withEvents es u).evq = [])

/-- Quadrature encoders (R30, R36, R37): an edge moves the count of its interface by one and no other count; the first edge
(or, with ZREQ, the first Z edge) takes an axis from ACQUIRE to TRACK at REVSET and the angle of the count, with velocity 0
and event 0x0A01; a Z edge sets the count to 0; an illegal transition takes exactly the axes in TRACK on the encoder to
LOST with event 0x0A02 (stated with LOST_STOP = 0).
SSI encoders (R31, R36): a valid frame clears the count of invalid ones and, in ACQUIRE, takes the axis to TRACK at its
scaled position plus OFFSET; the first two invalid frames in a row only count; the third takes the axes in TRACK to LOST
(stated with LOST_STOP = 0). -/
def Obligations.EncoderSamples : Prop :=
  (∀ (k : Fin 4) (up : Bool) (s : State), Quiet s → encLive s k 0 = true →
    Runs (.encCount k up false) s fun u =>
      (enc u k).count = (enc s k).count + (if up != flag s (F.ANG_ENCk_CFG_DIR k) then 1 else -1)
      ∧ (∀ j, j ≠ k.val → enc u j = enc s j)
      ∧ OnlyParts [.regs, .encs, .axes, .dsp, .ports, .lanes, .wire, .free] s u) ∧
  (∀ (k : Fin 4) (up : Bool) (n : Nat) (s : State), Quiet s → encLive s k 0 = true →
    flag s (F.ANG_ENCk_CFG_ZREQ k) = false → axesOf s k = [n] → axState s n = aACQUIRE →
    Completes (.encCount k up false) s [ev 0x0A01 [(1, n)]] fun u =>
      axState u n = aTRACK ∧ vel u n = 0 ∧ (axis u n).seed = true
      ∧ theta u n = (fld s (F.ANG_AXn_REVSET_REVSET n) * 2 ^ 24
          + angleOfCount s n k ((enc s k).count + (if up != flag s (F.ANG_ENCk_CFG_DIR k) then 1 else -1))) * 2 ^ 24 % 2 ^ 72
      ∧ Only [.encs, .axes] [F.ANG_AXn_STATUS_STATE n, F.ANG_AXn_STATUS_REVERSE n, F.ANG_AXn_VEL_VEL n, F.ANG_AXn_STAMP_STAMP n] s u) ∧
  (∀ (k : Fin 4) (up : Bool) (s : State), Quiet s → encLive s k 0 = true → flag s F.ANG_CTRL_LOST_STOP = false →
    Completes (.encCount k up true) s (((axesOf s k).filter fun n => axState s n == aTRACK).map fun n => ev 0x0A02 [(1, n)]) fun u =>
      (∀ n, n < 16 → axState u n = if axSrc s n = k.val ∧ axState s n = aTRACK then aLOST else axState s n)
      ∧ OnlyRegs (allAxes.map F.ANG_AXn_STATUS_STATE) s u) ∧
  (∀ (k : Fin 4) (n : Nat) (s : State), Quiet s → encLive s k 0 = true → flag s (F.ANG_ENCk_CFG_ZREQ k) = true →
    axesOf s k = [n] → axState s n = aACQUIRE →
    Completes (.encZEdge k) s [ev 0x0A01 [(1, n)]] fun u =>
      (enc u k).count = 0 ∧ axState u n = aTRACK ∧ vel u n = 0
      ∧ theta u n = (fld s (F.ANG_AXn_REVSET_REVSET n) * 2 ^ 24 + angleOfCount s n k 0) * 2 ^ 24 % 2 ^ 72
      ∧ Only [.encs, .axes] [F.ANG_AXn_STATUS_STATE n, F.ANG_AXn_STATUS_REVERSE n, F.ANG_AXn_VEL_VEL n, F.ANG_AXn_STAMP_STAMP n] s u) ∧
  (∀ (k : Fin 4) (s : State), Quiet s → encLive s k 0 = true → flag s (F.ANG_ENCk_CFG_ZREQ k) = true → axesOf s k = [] →
    Completes (.encZEdge k) s [] fun u => u = setEnc s k { enc s k with count := 0 }) ∧
  (∀ (k : Fin 4) (w : Word) (n : Nat) (s : State), Quiet s → encLive s k 1 = true → axesOf s k = [n] → axState s n = aACQUIRE →
    Completes (.ssiFrame k w true true) s [ev 0x0A01 [(1, n)]] fun u =>
      (enc u k).bad = 0 ∧ axState u n = aTRACK ∧ vel u n = 0
      ∧ theta u n = (fld s (F.ANG_AXn_REVSET_REVSET n) * 2 ^ 24
          + (ssiScale (fld s (F.ANG_ENCk_CFG_SSI_BITS k))
              (let x := w.toNat % 2 ^ fld s (F.ANG_ENCk_CFG_SSI_BITS k)
               if flag s (F.ANG_ENCk_CFG_SSI_GRAY k) then fromGray (fld s (F.ANG_ENCk_CFG_SSI_BITS k)) x else x)
             + fld s (F.ANG_AXn_ZERO_OFFSET n)) % 2 ^ 24) * 2 ^ 24 % 2 ^ 72
      ∧ Only [.encs, .axes] [F.ANG_AXn_STATUS_STATE n, F.ANG_AXn_STATUS_REVERSE n, F.ANG_AXn_VEL_VEL n, F.ANG_AXn_STAMP_STAMP n] s u) ∧
  (∀ (k : Fin 4) (w : Word) (a b : Bool) (s : State), Quiet s → encLive s k 1 = true → (a && b) = false → (enc s k).bad < 2 →
    Completes (.ssiFrame k w a b) s [] fun u => u = setEnc s k { enc s k with bad := (enc s k).bad + 1 }) ∧
  (∀ (k : Fin 4) (w : Word) (a b : Bool) (s : State), Quiet s → encLive s k 1 = true → (a && b) = false → 2 ≤ (enc s k).bad →
    flag s F.ANG_CTRL_LOST_STOP = false →
    Completes (.ssiFrame k w a b) s (((axesOf s k).filter fun n => axState s n == aTRACK).map fun n => ev 0x0A02 [(1, n)]) fun u =>
      (∀ n, n < 16 → axState u n = if axSrc s n = k.val ∧ axState s n = aTRACK then aLOST else axState s n)
      ∧ Only [.encs] (allAxes.map F.ANG_AXn_STATUS_STATE) s u)

/-- Samples that carry their own velocity (R33, R36, R38, R122): the first virtual sample takes an axis to TRACK with its
stamp and velocity and no seeding; with ANG_CTRL.ENABLE = 0 the write has no effect; the third beacon in a row takes an axis
to TRACK, the first two are only counted; a beacon from the port that the route table names is sent on to the other trunks
that are up.
The axis controls (R36, R38): a source without samples for TIMEOUT takes an axis in TRACK to LOST with event 0x0A02, and
encoder sources never; a write of ANG_AXn_CFG sets its fields, starts to acquire when it enables the axis or changes its
source, and takes it to OFF when it clears ENABLE; clearing ANG_CTRL.ENABLE takes every axis to OFF and leaves ring time
alone. -/
def Obligations.SamplesAndAxisControls : Prop :=
  (∀ (m : Master) (n : Fin 16) (w : Word) (s : State), Quiet s → angOn s = true → axSrc s n = 5 → axState s n = aACQUIRE →
    Completes (.virtCommit m n w) s [ev 0x0A01 [(1, n)]] fun u =>
      axState u n = aTRACK ∧ vel u n = fld s (F.ANG_AXn_VIRT_VEL_VEL n) % 2 ^ 32 ∧ (axis u n).seed = false
      ∧ theta u n = (fld s (F.ANG_AXn_VIRT_STAMP n) % 2 ^ 32 + w.toNat % 2 ^ 16 * 2 ^ 32) * 2 ^ 24 % 2 ^ 72
      ∧ Only [.axes] [F.ANG_AXn_STATUS_STATE n, F.ANG_AXn_STATUS_REVERSE n, F.ANG_AXn_VEL_VEL n, F.ANG_AXn_STAMP_STAMP n,
          F.ANG_AXn_VIRT_STAMP n] s u) ∧
  (∀ (m : Master) (n : Fin 16) (w : Word) (s : State), Quiet s → angOn s = false →
    Completes (.virtCommit m n w) s [] fun u => u = s) ∧
  (∀ (p : Fin 4) (f : Flit) (n : Nat) (s : State), Quiet s → frozen s = false → upTrunk s p = true → fGood f.toNat = true → fType f.toNat = FT.beacon →
    beaconAxes s (bits (fPayload f.toNat) 0 12) (bits (fPayload f.toNat) 12 4) = [n] → axState s n = aACQUIRE →
    routePort s (bits (fPayload f.toNat) 0 12) ≠ some p.val →
    ((axis s n).beacons < 2 →
      Completes (.beacon p f) s [] fun u => u = setAxis s n { axis s n with beacons := (axis s n).beacons + 1 })
    ∧ (2 ≤ (axis s n).beacons →
      Completes (.beacon p f) s [ev 0x0A01 [(1, n)]] fun u =>
        axState u n = aTRACK ∧ vel u n = bits (fPayload f.toNat) 64 32
        ∧ theta u n = ofSigned 72 ((bits (fPayload f.toNat) 16 48 : Int) * 2 ^ 24
            + (bits (fPayload f.toNat) 64 32 : Int) * ((now s : Int) - bits (fPayload f.toNat) 96 64))
        ∧ Only [.axes] [F.ANG_AXn_STATUS_STATE n, F.ANG_AXn_STATUS_REVERSE n, F.ANG_AXn_VEL_VEL n, F.ANG_AXn_STAMP_STAMP n] s u)) ∧
  (∀ (p q : Fin 4) (f : Flit) (s : State), Quiet s → upTrunk s p = true → fGood f.toNat = true → fType f.toNat = FT.beacon →
    beaconAxes s (bits (fPayload f.toNat) 0 12) (bits (fPayload f.toNat) 12 4) = [] →
    routePort s (bits (fPayload f.toNat) 0 12) = some p.val → q ≠ p → upTrunk s q = true →
    (∀ r, r < 4 → r ≠ q.val → r ≠ p.val → upTrunk s r = false) →
    Completes (.beacon p f) s [] fun u => u = send s q 0 f) ∧
  (∀ (n : Fin 16) (s : State), Quiet s → axState s n = aTRACK → axSrc s n = 4 ∨ axSrc s n = 5 →
    fld s (F.ANG_AXn_TIMEOUT_TIMEOUT n) ≠ 0 → flag s F.ANG_CTRL_LOST_STOP = false →
    Completes (.axisTimeout n) s [ev 0x0A02 [(1, n)]] fun u =>
      axState u n = aLOST ∧ OnlyRegs [F.ANG_AXn_STATUS_STATE n] s u) ∧
  (∀ (n : Fin 16) (s : State), Quiet s → axSrc s n < 4 → Completes (.axisTimeout n) s [] fun u => u = s) ∧
  (∀ (n : Fin 16) (w : Word) (s : State), Quiet s → angOn s = true → bits w.toNat 0 1 = 1 → bits w.toNat 1 3 < 6 →
    axState s n = aOFF ∨ bits w.toNat 1 3 ≠ axSrc s n →
    Completes (.axisCfgWrite n w) s [] fun u =>
      axState u n = aACQUIRE ∧ axSrc u n = bits w.toNat 1 3 ∧ flag u (F.ANG_AXn_CFG_ENABLE n) = true
      ∧ fld u (F.ANG_AXn_CFG_BEACON_NODE n) = bits w.toNat 4 12 ∧ fld u (F.ANG_AXn_CFG_BEACON_AXIS n) = bits w.toNat 16 4
      ∧ theta u n = theta s n
      ∧ Only [.axes] [F.ANG_AXn_STATUS_STATE n, F.ANG_AXn_CFG_ENABLE n, F.ANG_AXn_CFG_SRC n, F.ANG_AXn_CFG_BEACON_NODE n,
          F.ANG_AXn_CFG_BEACON_AXIS n] s u) ∧
  (∀ (n : Fin 16) (w : Word) (s : State), Quiet s → bits w.toNat 0 1 = 0 →
    Completes (.axisCfgWrite n w) s [] fun u =>
      axState u n = aOFF ∧ flag u (F.ANG_AXn_CFG_ENABLE n) = false
      ∧ OnlyRegs [F.ANG_AXn_STATUS_STATE n, F.ANG_AXn_CFG_ENABLE n, F.ANG_AXn_CFG_SRC n, F.ANG_AXn_CFG_BEACON_NODE n,
          F.ANG_AXn_CFG_BEACON_AXIS n] s u) ∧
  (∀ s : State, Quiet s →
    Completes .angDisable s [] fun u =>
      (∀ n, n < 16 → axState u n = aOFF) ∧ angOn u = false ∧ now u = now s ∧ rtValid u = rtValid s
      ∧ OnlyRegs (F.ANG_CTRL_ENABLE :: allAxes.map F.ANG_AXn_STATUS_STATE) s u)

/-- A follower's ring time (R40, R41, R42), for a ring-time flit on the port of RCLK_LANE with no other trunk up: the first flit
in ACQ_PHASE steps ring time to the received value; in LOCKED and HOLDOVER an error of at most 50 ns is
corrected by a slew of at most 8 ns that is spread over the slots that follow, leaves it LOCKED, and from HOLDOVER raises 0x0A10; a larger one in HOLDOVER, before the fourth in a row, does not correct ring time; the fourth in a row
loses ring time; a flit on another port changes nothing. -/
def Obligations.FollowerRingTime : Prop :=
  (∀ (p : Fin 4) (f : Flit) (late : BitVec 18) (s : State), Quiet s → frozen s = false → fGood f.toNat = true →
    fType f.toNat = FT.ringTime → fld s F.ANG_RTM_ROLE_ROLE = 2 → fld s F.ANG_RTM_ROLE_RCLK_LANE / 2 = p.val → isTrunk s p = true →
    (∀ q, q < 4 → q ≠ p.val → upTrunk s q = false) → rtState s = rACQ_PHASE → s.rt.stepped = false →
    Completes (.ringTime p 0 f late) s [] fun u =>
      now u = (bits (fPayload f.toNat) 0 64 * 65536 + bits (fPayload f.toNat) 64 48 + (port s p).hop) / 65536 % 2 ^ 64
      ∧ rtState u = rACQ_PHASE ∧ fld u F.ANG_STATUS_HOPS = bits (fPayload f.toNat) 112 8
      ∧ Only [.rt] [F.ANG_RT_TIME, F.ANG_STATUS_RT_ERR, F.ANG_STATUS_HOPS] s u) ∧
  (∀ (p : Fin 4) (f : Flit) (late : BitVec 18) (s : State), Quiet s → frozen s = false → fGood f.toNat = true →
    fType f.toNat = FT.ringTime → fld s F.ANG_RTM_ROLE_ROLE = 2 → fld s F.ANG_RTM_ROLE_RCLK_LANE / 2 = p.val → isTrunk s p = true →
    (∀ q, q < 4 → q ≠ p.val → upTrunk s q = false) → rtState s = rLOCKED ∨ rtState s = rHOLDOVER →
    (rtError s p f.toNat late.toNat).natAbs ≤ 50 * 65536 →
    Completes (.ringTime p 0 f late) s (if rtState s = rHOLDOVER then [ev 0x0A10 []] else []) fun u =>
      rtState u = rLOCKED ∧ now u = now s ∧ u.rt.bad = 0
      ∧ u.rt.corr = clampInt (-(8 * 65536)) (8 * 65536) (rtError s p f.toNat late.toNat)
      ∧ Only [.rt] [F.ANG_STATUS_RT_ERR, F.ANG_STATUS_RT_STATE, F.ANG_STATUS_HOPS] s u) ∧
  (∀ (p : Fin 4) (f : Flit) (late : BitVec 18) (s : State), Quiet s → frozen s = false → fGood f.toNat = true →
    fType f.toNat = FT.ringTime → fld s F.ANG_RTM_ROLE_ROLE = 2 → fld s F.ANG_RTM_ROLE_RCLK_LANE / 2 = p.val → isTrunk s p = true →
    (∀ q, q < 4 → q ≠ p.val → upTrunk s q = false) → rtState s = rHOLDOVER →
    50 * 65536 < (rtError s p f.toNat late.toNat).natAbs → s.rt.bad < 3 →
    Completes (.ringTime p 0 f late) s [] fun u =>
      now u = now s ∧ rtState u = rHOLDOVER ∧ u.rt.bad = s.rt.bad + 1
      ∧ Only [.rt] [F.ANG_STATUS_RT_ERR, F.ANG_STATUS_HOPS] s u) ∧
  (∀ (p : Fin 4) (f : Flit) (late : BitVec 18) (s : State), Quiet s → frozen s = false → fGood f.toNat = true →
    fType f.toNat = FT.ringTime → fld s F.ANG_RTM_ROLE_ROLE = 2 → fld s F.ANG_RTM_ROLE_RCLK_LANE / 2 = p.val → isTrunk s p = true →
    rtState s = rLOCKED ∨ rtState s = rHOLDOVER →
    50 * 65536 < (rtError s p f.toNat late.toNat).natAbs → 3 ≤ s.rt.bad →
    Runs (.ringTime p 0 f late) s fun u => rtState u = rACQ_PHASE ∧ rtValid u = false ∧ now u = now s) ∧
  (∀ (p : Fin 4) (f : Flit) (late : BitVec 18) (s : State), Quiet s →
    fld s F.ANG_RTM_ROLE_ROLE ≠ 2 ∨ fld s F.ANG_RTM_ROLE_RCLK_LANE / 2 ≠ p.val →
    Completes (.ringTime p 0 f late) s [] fun u => u = s) ∧
  (∀ (p : Fin 4) (pos : Fin 256) (f : Flit) (late : BitVec 18) (s : State), Quiet s → fGood f.toNat = true →
    fType f.toNat = FT.ringTime → pos ≠ 0 →
    Completes (.ringTime p pos f late) s [] fun u =>
      (∀ k, k ≠ p.val * 256 + pos.val → smGet u.modules k ({} : Module) = smGet s.modules k {})
      ∧ ((smGet u.modules (p.val * 256 + pos.val) ({} : Module)).rtOff - (smGet s.modules (p.val * 256 + pos.val) ({} : Module)).rtOff).natAbs ≤ 8
      ∧ ((smGet s.modules (p.val * 256 + pos.val) ({} : Module)).isEnd = true → u.wire = s.wire)
      ∧ OnlyParts [.modules, .free, .wire] s u)

/-- The role of ring time (R39, R41): UNSET to MASTER starts ring time at ANG_RT_SET in FREE with RT_VALID = 1; UNSET to
FOLLOWER starts acquisition; a reserved role, the role it has, and a locked field leave ring time alone; a lock of the RCLK
PLL takes ACQ_FREQ to ACQ_PHASE and nothing else.
Time-outs of ring time (R41, R43, R45): LOCKED without flits goes to HOLDOVER with event 0x0A11 (while XO has not failed);
HOLDOVER that elapses goes to ACQ_FREQ and loses ring time, which triggers the buffer stop; each has no effect in any other
state. A capture starts one exchange and a second request has no effect; the exchange latches the host's time and ring time and
sets DONE.
What the device sends of its own accord (R33, R40, R120, R122): ring time goes out on each trunk that is up and each ring
that carries flits, only while it is valid; a beacon goes out on the trunks for each axis that WNG_BEACON_EN names. Stated on a
device with one port in use and no injection pending, and for any device without valid ring time or named axis. -/
def Obligations.RingTimeStartsTimesOutAndSends : Prop :=
  (∀ (w : Word) (s : State), Quiet s → flag s F.ANG_CTRL_LOCK = false → bits w.toNat 0 2 = 1 → fld s F.ANG_RTM_ROLE_ROLE = 0 →
    rtValid s = false →
    Completes (.roleWrite w) s [] fun u =>
      fld u F.ANG_RTM_ROLE_ROLE = 1 ∧ fld u F.ANG_RTM_ROLE_RCLK_LANE = bits w.toNat 4 3 ∧ rtState u = rFREE
      ∧ rtValid u = true ∧ now u = fld s F.ANG_RT_SET_START % 2 ^ 64 ∧ fld u F.ANG_STATUS_HOPS = 0
      ∧ flag u F.CLK_STATUS_REF_STABLE = decide (s.clk.xo = 4)
      ∧ OnlyRegs [F.ANG_RTM_ROLE_ROLE, F.ANG_RTM_ROLE_RCLK_LANE, F.ANG_STATUS_RT_STATE, F.ANG_STATUS_RT_VALID, F.ANG_RT_TIME,
          F.ANG_STATUS_HOPS, F.CLK_STATUS_REF_STABLE] s u) ∧
  (∀ (w : Word) (s : State), Quiet s → flag s F.ANG_CTRL_LOCK = false → bits w.toNat 0 2 = 2 → fld s F.ANG_RTM_ROLE_ROLE = 0 →
    rtValid s = false →
    Completes (.roleWrite w) s [] fun u =>
      fld u F.ANG_RTM_ROLE_ROLE = 2 ∧ rtState u = rACQ_FREQ ∧ rtValid u = false ∧ now u = now s
      ∧ flag u F.CLK_STATUS_REF_STABLE = decide (s.clk.rclk = 4)
      ∧ OnlyRegs [F.ANG_RTM_ROLE_ROLE, F.ANG_RTM_ROLE_RCLK_LANE, F.ANG_STATUS_RT_STATE, F.CLK_STATUS_REF_STABLE] s u) ∧
  (∀ (w : Word) (s : State), Quiet s → flag s F.ANG_CTRL_LOCK = false →
    bits w.toNat 0 2 = 3 ∨ bits w.toNat 0 2 = fld s F.ANG_RTM_ROLE_ROLE →
    Completes (.roleWrite w) s [] fun u =>
      fld u F.ANG_RTM_ROLE_RCLK_LANE = bits w.toNat 4 3 ∧ OnlyRegs [F.ANG_RTM_ROLE_RCLK_LANE] s u) ∧
  (∀ (w : Word) (s : State), Quiet s → flag s F.ANG_CTRL_LOCK = true → Completes (.roleWrite w) s [] fun u => u = s) ∧
  (∀ s : State, Quiet s → rtState s = rACQ_FREQ → laneState s (fld s F.ANG_RTM_ROLE_RCLK_LANE) = lnLINKUP →
    Completes .rclkPllLock s [] fun u =>
      rtState u = rACQ_PHASE ∧ now u = now s ∧ u.rt.stepped = false ∧ Only [.rt] [F.ANG_STATUS_RT_STATE] s u) ∧
  (∀ s : State, Quiet s → rtState s ≠ rACQ_FREQ ∨ laneState s (fld s F.ANG_RTM_ROLE_RCLK_LANE) ≠ lnLINKUP →
    Completes .rclkPllLock s [] fun u => u = s) ∧
  (∀ s : State, Quiet s → rtState s = rLOCKED → flag s F.CLK_STATUS_XO_FAIL = false →
    Completes .syncTimeout s [ev 0x0A11 []] fun u =>
      rtState u = rHOLDOVER ∧ rtValid u = rtValid s ∧ now u = now s ∧ Only [.rt] [F.ANG_STATUS_RT_STATE] s u) ∧
  (∀ s : State, Quiet s → rtState s ≠ rLOCKED → Completes .syncTimeout s [] fun u => u = s) ∧
  (∀ s : State, Quiet s → rtState s = rHOLDOVER →
    Runs .holdoverExpire s fun u =>
      rtState u = rACQ_FREQ ∧ rtValid u = false ∧ now u = now s ∧ bstopState u ≠ bRUN) ∧
  (∀ s : State, Quiet s → rtState s ≠ rHOLDOVER → Completes .holdoverExpire s [] fun u => u = s) ∧
  (∀ s : State, Quiet s → s.pci.ptmEnable = true →
    Completes .ptmCapture s [] fun u =>
      flag u F.ANG_PTM_CTRL_CAPTURE = true ∧ OnlyRegs [F.ANG_PTM_CTRL_CAPTURE] s u) ∧
  (∀ s : State, Quiet s → flag s F.ANG_PTM_CTRL_CAPTURE = true → Completes .ptmCapture s [] fun u => u = s) ∧
  (∀ (t : BitVec 64) (s : State), Quiet s → flag s F.ANG_PTM_CTRL_CAPTURE = true →
    Completes (.ptmExchangeDone t) s [] fun u =>
      fld u F.ANG_PTM_HOST_HOST_TIME = t.toNat ∧ fld u F.ANG_PTM_RT_RING_TIME = now s % 2 ^ 64
      ∧ flag u F.ANG_PTM_CTRL_CAPTURE = false ∧ flag u F.ANG_PTM_CTRL_DONE = true
      ∧ OnlyRegs [F.ANG_PTM_HOST_HOST_TIME, F.ANG_PTM_RT_RING_TIME, F.ANG_PTM_CTRL_CAPTURE, F.ANG_PTM_CTRL_DONE] s u) ∧
  (∀ s : State, Quiet s → rtValid s = false → fld s F.ANG_RTM_ROLE_ROLE ≠ 2 → Completes .ringTimeSend s [] fun u => u = s) ∧
  (∀ (p : Fin 4) (s : State), Quiet s → rtValid s = true → upTrunk s p = true →
    (∀ q, q < 4 → q ≠ p.val → upTrunk s q = false ∧ liveRing s q = false) → SendsPlainly s →
    Completes .ringTimeSend s [] fun u =>
      u.wire = ⟨p, 0, mkFlit FT.ringTime (port s p).seq 0 0 0 (ringTimePayload s)⟩ :: s.wire ∧ OnlyParts [.wire] s u) ∧
  (∀ (p : Fin 4) (s : State), Quiet s → rtValid s = true → liveRing s p = true →
    (∀ q, q < 4 → q ≠ p.val → upTrunk s q = false ∧ liveRing s q = false) → SendsPlainly s →
    Completes .ringTimeSend s [] fun u =>
      u.wire = ⟨p, 0, mkFlit FT.ringTime (port s p).seq 255 0 0 (ringTimePayload s)⟩ :: s.wire ∧ OnlyParts [.wire] s u) ∧
  (∀ (p : Fin 4) (n : Fin 16) (s : State), Quiet s → fld s F.WNG_BEACON_EN_AXES = 2 ^ n.val → upTrunk s p = true →
    (∀ q, q < 4 → q ≠ p.val → upTrunk s q = false) → SendsPlainly s →
    Completes .beaconSend s [] fun u =>
      u.wire = ⟨p, 0, mkFlit FT.beacon (port s p).seq 0 0 0 (beaconPayload s n)⟩ :: s.wire ∧ OnlyParts [.wire] s u) ∧
  (∀ s : State, Quiet s → fld s F.WNG_BEACON_EN_AXES = 0 → Completes .beaconSend s [] fun u => u = s)

/-- Where the 16 bytes of the slot that a stored entry takes begin (R51). -/
def newSlotAt (s : State) : Nat := ttBase s + 16 * freeSlot s

/-- Handing insertions over (R61, R64): a fabric port whose clock runs and that is not held hands its entry over behind
those in flight, and one that is held or has no clock takes nothing; a write of TT_HIN_GO presents TT_HIN while a credit is left, and without one it is
discarded and counted.
The decision of an accepted insertion of the host (R50, R57, R59, R72): DISABLED while the Timetable is off, DISABLED with
DETAIL 1 where SRC_EN is 0, DECODE with the DETAIL of the first check that fails, LATE where REV names the past and the LATE field
says reject, FULL without a free slot, else the entry is stored in its bucket with status OK; a free slot's 16 bytes
in memory take the entry and no other byte changes; the record waits to be written and the status is counted. -/
def Obligations.InsertionsAreDecided : Prop :=
  (∀ (k : Fin 24) (tag : BitVec 9) (e : Entry) (s : State), Quiet s → portClock s k = true → fabHeld s k = false →
    Completes (.fabricInsert k tag e) s [] fun u =>
      u.tt = { s.tt with inflight := s.tt.inflight ++ [⟨.fabric k, tag.toNat, e.toNat⟩] }
      ∧ Only [.tt] [F.TT_FPn_CFG_INFLIGHT k, F.TT_FPn_CFG_UNREAD k] s u) ∧
  (∀ (k : Fin 24) (tag : BitVec 9) (e : Entry) (s : State), Quiet s → portClock s k = false ∨ fabHeld s k = true →
    Completes (.fabricInsert k tag e) s [] fun u => u = s) ∧
  (∀ (w : Word) (s : State), Quiet s → hostCredits s ≠ 0 →
    Completes (.hostInsertGo w) s [] fun u =>
      u.tt = { s.tt with inflight := s.tt.inflight ++ [⟨.host, bits w.toNat 0 9, fld s F.TT_HIN_ENTRY⟩] }
      ∧ Only [.tt] [F.TT_HCQ_STATUS_CREDITS, F.TT_HCQ_STATUS_COUNT] s u) ∧
  (∀ (w : Word) (s : State), Quiet s → hostCredits s = 0 →
    Completes (.hostInsertGo w) s [] fun u =>
      fld u F.TT_HCQ_DROPS_DROPS = min (fld s F.TT_HCQ_DROPS_DROPS + 1) 65535 ∧ OnlyRegs [F.TT_HCQ_DROPS_DROPS] s u) ∧
  (∀ (i : Ins) (s : State), Quiet s → sysClocks s = true → nextAccepted s = some i → i.src = .host →
    blkShut s 8 = false → ttOn s = false →
    Completes (.insertAcceptance true) s [] fun u =>
      u.tt.done = s.tt.done ++ [⟨.host, insRecord i.tag ST.disabled 0 i.entry⟩] ∧ u.tt.inflight = s.tt.inflight.erase i
      ∧ u.tt.buckets = s.tt.buckets
      ∧ Only [.tt] [F.TT_CNT_OTHER_COUNT, F.TT_HCQ_STATUS_CREDITS, F.TT_HCQ_STATUS_COUNT] s u) ∧
  (∀ (i : Ins) (s : State), Quiet s → sysClocks s = true → nextAccepted s = some i → i.src = .host →
    blkShut s 8 = false → ttOn s = true → flag s F.TT_STATUS_READY = true → bitOf (fld s F.TT_CTRL_SRC_EN) 2 = false →
    Completes (.insertAcceptance true) s [] fun u =>
      u.tt.done = s.tt.done ++ [⟨.host, insRecord i.tag ST.disabled 1 i.entry⟩] ∧ u.tt.buckets = s.tt.buckets
      ∧ Only [.tt] [F.TT_CNT_OTHER_COUNT, F.TT_HCQ_STATUS_CREDITS, F.TT_HCQ_STATUS_COUNT] s u) ∧
  (∀ (i : Ins) (k : Nat) (s : State), Quiet s → sysClocks s = true → nextAccepted s = some i → i.src = .host →
    blkShut s 8 = false → ttOn s = true → flag s F.TT_STATUS_READY = true → bitOf (fld s F.TT_CTRL_SRC_EN) 2 = true →
    insCheck i.entry = some k →
    Completes (.insertAcceptance true) s [] fun u =>
      u.tt.done = s.tt.done ++ [⟨.host, insRecord i.tag ST.decode k i.entry⟩] ∧ u.tt.buckets = s.tt.buckets
      ∧ Only [.tt] [F.TT_CNT_DECODE_COUNT, F.TT_HCQ_STATUS_CREDITS, F.TT_HCQ_STATUS_COUNT] s u) ∧
  (∀ (i : Ins) (s : State), Quiet s → sysClocks s = true → nextAccepted s = some i → i.src = .host →
    blkShut s 8 = false → ttOn s = true → flag s F.TT_STATUS_READY = true → bitOf (fld s F.TT_CTRL_SRC_EN) 2 = true →
    insCheck i.entry = none → insLate s i.entry = true → eLate i.entry = 0 →
    Completes (.insertAcceptance true) s [] fun u =>
      u.tt.done = s.tt.done ++ [⟨.host, insRecord i.tag ST.late 0 i.entry⟩] ∧ u.tt.buckets = s.tt.buckets
      ∧ Only [.tt] [F.TT_CNT_LATE_COUNT, F.TT_HCQ_STATUS_CREDITS, F.TT_HCQ_STATUS_COUNT] s u) ∧
  (∀ (i : Ins) (s : State), Quiet s → sysClocks s = true → nextAccepted s = some i → i.src = .host →
    blkShut s 8 = false → ttOn s = true → flag s F.TT_STATUS_READY = true → bitOf (fld s F.TT_CTRL_SRC_EN) 2 = true →
    insCheck i.entry = none → insLate s i.entry = false → ttFull s = true →
    Completes (.insertAcceptance true) s [evMerged 0x0802 0 []] fun u =>
      u.tt.done = s.tt.done ++ [⟨.host, insRecord i.tag ST.full 1 i.entry⟩] ∧ u.tt.buckets = s.tt.buckets
      ∧ Only [.tt] [F.TT_CNT_FULL_COUNT, F.TT_HCQ_STATUS_CREDITS, F.TT_HCQ_STATUS_COUNT] s u) ∧
  (∀ (i : Ins) (s : State), Quiet s → sysClocks s = true → nextAccepted s = some i → i.src = .host →
    blkShut s 8 = false → ttOn s = true → flag s F.TT_STATUS_READY = true → bitOf (fld s F.TT_CTRL_SRC_EN) 2 = true →
    insCheck i.entry = none → insLate s i.entry = false → ttFull s = false →
    (bucketAt s (bucketKey (eAxis i.entry) ((frontRev s (eAxis i.entry) + revAhead s i.entry) % 2 ^ 24) (eBucket i.entry))).length ≠ 1024 →
    Completes (.insertAcceptance true) s [] fun u =>
      u.tt.done = s.tt.done ++ [⟨.host, insRecord i.tag ST.ok 0 i.entry⟩]
      ∧ (bucketAt u (bucketKey (eAxis i.entry) ((frontRev s (eAxis i.entry) + revAhead s i.entry) % 2 ^ 24) (eBucket i.entry))).map (·.entry)
          = (bucketAt s (bucketKey (eAxis i.entry) ((frontRev s (eAxis i.entry) + revAhead s i.entry) % 2 ^ 24) (eBucket i.entry))).map (·.entry)
            ++ [i.entry]
      ∧ fld u F.TT_CNT_OK_COUNT = min (fld s F.TT_CNT_OK_COUNT + 1) (2 ^ 32 - 1)
      ∧ freeSlot s ∉ usedSlots s
      ∧ lineBytes u (storLine s (newSlotAt s)) (newSlotAt s % 64) 16 = i.entry % 2 ^ 128
      ∧ (∀ j o, o < 64 → j ≠ storLine s (newSlotAt s) ∨ o < newSlotAt s % 64 ∨ newSlotAt s % 64 + 16 ≤ o → cell u j o = cell s j o)
      ∧ u.mem = { s.mem with cells := u.mem.cells }
      ∧ Only [.tt, .free, .mem] [F.TT_CNT_OK_COUNT, F.TT_USED_USED, F.TT_PEAK_PEAK, F.TT_HCQ_STATUS_CREDITS, F.TT_HCQ_STATUS_COUNT] s u) ∧
  (∀ (b : Bool) (s : State), Quiet s → s.tt.inflight = [] → Completes (.insertAcceptance b) s [] fun u => u = s)

/-- Completion records (R60, R64, R65): a decided insertion of a fabric port or of the host reaches the end of its source's queue
and leaves the list of those decided (where no TTI is held); the fabric takes the oldest record of its port while the port clock runs; a read of
TT_HCQ removes the oldest record of the host.
Starting, stopping and flushing the Timetable (R53, R56, R68, R69): an enable reserves the partition, empties it and sets the
walk fronts; beside the stack cache it is refused with CFG_ERR and event 0x0805; a resume keeps what is stored; the end of
initialisation sets READY with event 0x0801; a disable with no record owed clears ENABLE at once; a flush visits every bucket
number of its axis and drops what is stored there, and its last bucket raises event 0x0807 with the count. -/
def Obligations.RecordsAndTimetableControls : Prop :=
  (∀ (k : Nat) (p : Fin 24) (w : Nat) (s : State), Quiet s → sysClocks s = true → (∀ m, m < 96 → (engine s m).ttis = []) →
    s.tt.done[k]? = some ⟨.fabric p, w⟩ →
    Runs (.completionRecord k) s fun u =>
      fabCqOf u p = fabCqOf s p ++ [w] ∧ u.tt.done = s.tt.done.eraseIdx k ∧ (∀ q, q ≠ p.val → fabCqOf u q = fabCqOf s q)
      ∧ OnlyParts [.regs, .tt, .pwr, .regions, .dsp, .clk] s u) ∧
  (∀ (k : Nat) (n : Fin 96) (w : Nat) (s : State), Quiet s → sysClocks s = true → (∀ m, m < 96 → (engine s m).ttis = []) → s.tt.done[k]? = some ⟨.engine n, w⟩ →
    Completes (.completionRecord k) s [] fun u =>
      engCqOf u n = engCqOf s n ++ [w] ∧ u.tt.done = s.tt.done.eraseIdx k ∧ OnlyParts [.tt] s u) ∧
  (∀ (k : Nat) (w : Nat) (s : State), Quiet s → sysClocks s = true → (∀ m, m < 96 → (engine s m).ttis = []) → s.tt.done[k]? = some ⟨.host, w⟩ →
    Completes (.completionRecord k) s [] fun u =>
      u.tt.hostCq = s.tt.hostCq ++ [w] ∧ u.tt.done = s.tt.done.eraseIdx k
      ∧ Only [.tt] [F.TT_HCQ_STATUS_CREDITS, F.TT_HCQ_STATUS_COUNT, F.PCI_PBA_PENDING] s u) ∧
  (∀ (p : Fin 24) (s : State), Quiet s → portClock s p = true →
    Completes (.cqRecordTake p) s [] fun u =>
      fabCqOf u p = (fabCqOf s p).tail ∧ (∀ q, q ≠ p.val → fabCqOf u q = fabCqOf s q)
      ∧ Only [.tt] [F.TT_FPn_CFG_INFLIGHT p, F.TT_FPn_CFG_UNREAD p] s u) ∧
  (∀ (p : Fin 24) (s : State), Quiet s → portClock s p = false → Completes (.cqRecordTake p) s [] fun u => u = s) ∧
  (∀ s : State, Quiet s →
    Completes .ttHcqRead s [] fun u =>
      u.tt = { s.tt with hostCq := s.tt.hostCq.tail } ∧ Only [.tt] [F.TT_HCQ_STATUS_CREDITS, F.TT_HCQ_STATUS_COUNT] s u) ∧
  (∀ s : State, Quiet s → flag s F.TT_CTRL_ENABLE = false → flag s F.TT_STATUS_RESERVED = false → partitionCached s = false →
    Completes .ttEnable s [] fun u =>
      flag u F.TT_CTRL_ENABLE = true ∧ ttReserved u = true ∧ u.tt.buckets = [] ∧ u.tt.retired = [] ∧ fld u F.TT_USED_USED = 0
      ∧ (∀ a, a < 16 → frontRev u a = fld s (F.ANG_AXn_STAMP_STAMP a) / 2 ^ 24 % 2 ^ 24 ∧ frontNext u a = 0)
      ∧ OnlyParts [.regs, .tt, .mem, .free] s u) ∧
  (∀ s : State, Quiet s → flag s F.TT_CTRL_ENABLE = false → flag s F.TT_STATUS_RESERVED = false → partitionCached s = true →
    Completes .ttEnable s [ev 0x0805 []] fun u =>
      flag u F.TT_STATUS_CFG_ERR = true ∧ OnlyRegs [F.TT_STATUS_CFG_ERR] s u) ∧
  (∀ s : State, Quiet s → flag s F.TT_CTRL_ENABLE = false → flag s F.TT_STATUS_RESERVED = true →
    Completes .ttEnable s [] fun u => flag u F.TT_CTRL_ENABLE = true ∧ OnlyRegs [F.TT_CTRL_ENABLE] s u) ∧
  (∀ s : State, Quiet s → sysClocks s = true → flag s F.TT_STATUS_RESERVED = true → flag s F.TT_STATUS_READY = false →
    Completes .ttInitDone s [ev 0x0801 []] fun u => flag u F.TT_STATUS_READY = true ∧ OnlyRegs [F.TT_STATUS_READY] s u) ∧
  (∀ s : State, Quiet s → flag s F.TT_CTRL_ENABLE = true → s.tt.done = [] →
    Completes .ttDisable s [] fun u =>
      flag u F.TT_CTRL_ENABLE = false ∧ (flag s F.TT_STATUS_RESERVED = true → (ttReserved u = true ↔ usedCount s ≠ 0)) ∧ u.tt = s.tt
      ∧ OnlyRegs [F.TT_CTRL_ENABLE, F.TT_STATUS_DRAINING, F.TT_STATUS_READY, F.TT_STATUS_RESERVED] s u) ∧
  (∀ s : State, Quiet s → flag s F.TT_CTRL_ENABLE = true → s.tt.done ≠ [] →
    Completes .ttDisable s [] fun u => flag u F.TT_STATUS_DRAINING = true ∧ OnlyRegs [F.TT_STATUS_DRAINING] s u) ∧
  (∀ (w : Word) (s : State), Quiet s → bitOf w.toNat 31 = true → flag s F.TT_STATUS_FLUSHING = false → bits w.toNat 4 2 < 3 →
    Completes (.ttFlushGo w) s [] fun u =>
      flag u F.TT_STATUS_FLUSHING = true
      ∧ u.tt = { s.tt with flush := some ⟨bits w.toNat 4 2, bits w.toNat 0 4, bits w.toNat 8 8,
          if bits w.toNat 4 2 = 2 then 0 else bits w.toNat 0 4, 0, 0⟩ }
      ∧ Only [.tt] [F.TT_FLUSH_AXIS, F.TT_FLUSH_MODE, F.TT_FLUSH_REV, F.TT_FLUSH_GO, F.TT_STATUS_FLUSHING] s u) ∧
  (∀ (w : Word) (s : State), Quiet s → flag s F.TT_STATUS_FLUSHING = true ∨ bits w.toNat 4 2 = 3 →
    Completes (.ttFlushGo w) s [] fun u => OnlyRegs [F.TT_FLUSH_AXIS, F.TT_FLUSH_MODE, F.TT_FLUSH_REV] s u) ∧
  (∀ (f : Flush) (s : State), Quiet s → sysClocks s = true → s.tt.flush = some f → f.curB < 4095 →
    Completes .flushBucket s [] fun u =>
      u.tt.buckets = s.tt.buckets.filter (fun b => !flushHits f b.1)
      ∧ u.tt.flush = some { f with
          curB := f.curB + 1
          count := f.count + ((s.tt.buckets.filter fun b => flushHits f b.1).map fun b => b.2.length).sum }
      ∧ Only [.tt] [F.TT_USED_USED, F.TT_STATUS_READY, F.TT_STATUS_RESERVED] s u) ∧
  (∀ (f : Flush) (s : State), Quiet s → sysClocks s = true → s.tt.flush = some f → f.curB = 4095 → f.mode ≠ 2 →
    Completes .flushBucket s
        [ev 0x0807 [(3, f.count + ((s.tt.buckets.filter fun b => flushHits f b.1).map fun b => b.2.length).sum)]] fun u =>
      u.tt.buckets = s.tt.buckets.filter (fun b => !flushHits f b.1) ∧ u.tt.flush = none ∧ flag u F.TT_STATUS_FLUSHING = false
      ∧ Only [.tt] [F.TT_USED_USED, F.TT_STATUS_READY, F.TT_STATUS_RESERVED, F.TT_FLUSH_CNT_COUNT, F.TT_FLUSH_GO,
          F.TT_STATUS_FLUSHING] s u)

/-- The commit point of a group (R87, R90, R91; stated with GRPFAIL_STOP = 0): before it nothing happens; at it an instance that
is OPEN or CLOSED fails with reason 1, and a STAGED one with a module missing fails with reason 3; the acknowledgement of the
last module that comes before it commits a STAGED instance, whose members count FIRED.
Rail 8 (R86): the head of the queue is admitted only where it fits, and its charge enters the window of rail 8; an engine that
is admitted with no wake to make only leaves the queue; a head that does not fit waits. -/
def Obligations.GroupsAndRailEight : Prop :=
  (∀ (a : Fin 16) (rev grp : BitVec 8) (g : Grp) (s : State), Quiet s →
    s.dsp.groups.find? (fun g => g.axis == a.val && g.rev % 256 == rev.toNat && g.group == grp.toNat
      && (groupTakes g || g.st == GrpSt.staged)) = some g → now s < commitPoint s g →
    Completes (.groupCommitPoint a rev grp) s [] fun u => u = s) ∧
  (∀ (a : Fin 16) (rev grp : BitVec 8) (g : Grp) (s : State), Quiet s → sysClocks s = true → flag s F.DSP_CTRL_GRPFAIL_STOP = false →
    s.dsp.groups.find? (fun g => g.axis == a.val && g.rev % 256 == rev.toNat && g.group == grp.toNat
      && (groupTakes g || g.st == GrpSt.staged)) = some g → commitPoint s g ≤ now s → groupTakes g = true →
    Runs (.groupCommitPoint a rev grp) s fun u =>
      (findGroup u g.axis g.rev g.group).map (fun x => (x.st, x.reason)) = some (GrpSt.failed, 1)
      ∧ OnlyParts [.regs, .dsp, .ports, .lanes, .wire, .mem] s u) ∧
  (∀ (p : Fin 4) (f : Flit) (x : Item) (g : Grp) (m : GMod) (s : State), Quiet s → frozen s = false → fGood f.toNat = true →
    fType f.toNat = FT.ack → upRing s p = true → portOpen s p = true → fCidx f.toNat = 0 → (port s p).journal = [x] →
    (port s p).waiting = [] → x.kind = .consist → x.cons.kind = 1 → bits (fPayload f.toNat) 8 12 = x.seq →
    bits (fPayload f.toNat) 0 8 = x.addr → x.addr ≠ 255 → s.dsp.groups = [g] → isStagedOf g x.cons = true → g.st = GrpSt.staged →
    g.mods = [m] → m.port = p.val → m.seq = x.seq → now s < commitPoint s g →
    Runs (.ack p 0 f) s fun u =>
      (findGroup u g.axis g.rev g.group).map (·.st) = some GrpSt.committed
      ∧ fld u F.DSP_CNT_FIRED_COUNT = min (fld s F.DSP_CNT_FIRED_COUNT + g.membs.length) (2 ^ 32 - 1)
      ∧ OnlyParts [.regs, .dsp, .ports, .lanes, .wire] s u) ∧
  (∀ (a : Fin 16) (rev grp : BitVec 8) (g : Grp) (s : State), Quiet s → sysClocks s = true → flag s F.DSP_CTRL_GRPFAIL_STOP = false →
    s.dsp.groups.find? (fun g => g.axis == a.val && g.rev % 256 == rev.toNat && g.group == grp.toNat
      && (groupTakes g || g.st == GrpSt.staged)) = some g → commitPoint s g ≤ now s → g.st = GrpSt.staged →
    (g.mods.all fun m => m.acked) = false →
    Runs (.groupCommitPoint a rev grp) s fun u =>
      (findGroup u g.axis g.rev g.group).map (fun x => (x.st, x.reason)) = some (GrpSt.failed, 3)
      ∧ OnlyParts [.regs, .dsp, .ports, .lanes, .wire, .mem] s u) ∧
  (∀ (r : R8Req) (q : List R8Req) (s : State), Quiet s → sysClocks s = true → s.dsp.r8queue = r :: q → r8Fits s r = false →
    Completes .rail8Admit s [] fun u => u = s) ∧
  (∀ s : State, Quiet s → s.dsp.r8queue = [] → Completes .rail8Admit s [] fun u => u = s) ∧
  (∀ (r : R8Req) (q : List R8Req) (s : State), Quiet s → sysClocks s = true → s.dsp.r8queue = r :: q → r8Fits s r = true →
    Runs .rail8Admit s fun u =>
      u.dsp.r8queue = q ∧ fld u F.DSP_RAIL8_STATUS_WAITING = q.length % 2 ^ 16
      ∧ (flag s F.DSP_RAIL8_CFG_ENABLE = true → u.dsp.steps = s.dsp.steps ++ [⟨8, 0, now s, r8CostOf s (r8Kind r)⟩])
      ∧ (flag s F.DSP_RAIL8_CFG_ENABLE = false → u.dsp.steps = s.dsp.steps)
      ∧ OnlyParts [.regs, .dsp, .engines, .regions, .dbg, .hwn, .cfg] s u)

/-- One slot (R25, R34, R41, R43, R77, R78): without a running ring time nothing moves; while ring time is not valid, or the clocks
are frozen, ring time and the predictions of the axes in TRACK advance and nothing is dispatched; a due internal EVENT entry
acts with event 0x090B and counts FIRED, on a device with no axis in TRACK and nothing else in hand. That ring time advances by
slots of 4 ns is the model's choice.
The buffer stop (R87, R94, R114), with no ring up and no group in hand: a request in RUN records cause HOST, raises 0x0908 and
reaches STOPPED at once, with every journal emptied; 100 µs end STOPPING; CLEAR in STOPPED with no trigger active returns to RUN
with event 0x0909 and clears the causes; with a trigger active, or outside STOPPED, it has no effect; BSTOP is repeated on the
rings only outside RUN. -/
def Obligations.SlotsAndBufferStop : Prop :=
  (∀ s : State, Quiet s → rtState s = rSTOPPED ∨ rtState s = rACQ_FREQ → Completes .dispatchSlot s [] fun u => u = s) ∧
  (∀ s : State, Quiet s → rtRuns s = true → flag s F.CLK_STATUS_FROZEN = true ∨ rtValid s = false →
    Completes .dispatchSlot s [] fun u =>
      now u = (now s / 4 * 4 + 4) % 2 ^ 64
      ∧ (∀ a, a < 16 → axState s a = aTRACK → isQuad s a = false → theta u a = (theta s a + vel s a * 4) % 2 ^ 72)
      ∧ (∀ a, a < 16 → axState s a ≠ aTRACK → theta u a = theta s a)
      ∧ Only [.axes] (F.ANG_RT_TIME :: allAxes.map F.ANG_AXn_STAMP_STAMP) s u) ∧
  (∀ (c : Cand) (s : State), Quiet s → rtRuns s = true → flag s F.CLK_STATUS_FROZEN = false → rtValid s = true →
    (∀ a, a < 16 → axState s a ≠ aTRACK) → s.dsp = { internal := [c] } → s.ports = [] → s.tt.buckets = [] →
    c.t / 4 = now s / 4 + 1 → eOp c.entry = 0x10 → c.late = false → now s < 2 ^ 63 →
    Completes .dispatchSlot s
        [ev 0x090B [(1, eAxis c.entry), (1, eRev c.entry), (3, eAngle c.entry), (8, c.t), (4, ePayload c.entry)]] fun u =>
      u.dsp.internal = [] ∧ fld u F.DSP_CNT_FIRED_COUNT = min (fld s F.DSP_CNT_FIRED_COUNT + 1) (2 ^ 32 - 1)
      ∧ Only [.dsp] [F.ANG_RT_TIME, F.DSP_CNT_FIRED_COUNT] s u) ∧
  (∀ s : State, Quiet s → bstopState s = bRUN → fld s F.DSP_BSTOP_CAUSE = 0 → (∀ p, p < 4 → liveRing s p = false) → s.dsp.groups = [] →
    Completes .bstopReq s [ev 0x0908 [(1, 1)]] fun u =>
      bstopState u = bSTOPPED ∧ fld u F.DSP_BSTOP_CAUSE = 1 ∧ flag u F.DSP_BSTOP_REQ = true
      ∧ (∀ p, p < 4 → (port u p).journal = [] ∧ (port u p).outst = [] ∧ (port u p).waiting = [])
      ∧ u.dsp.cands = [] ∧ u.dsp.internal = [] ∧ u.dsp.unsent = []
      ∧ Only [.dsp, .ports] [F.DSP_BSTOP_REQ, F.DSP_BSTOP_CAUSE, F.DSP_STATUS_BSTOP, F.PCI_PBA_PENDING, F.DSP_CNT_DISABLED_COUNT] s u) ∧
  (∀ s : State, Quiet s → bstopState s ≠ bRUN →
    Completes .bstopReq s [] fun u =>
      fld u F.DSP_BSTOP_CAUSE = (fld s F.DSP_BSTOP_CAUSE ||| 1) % 2 ^ 7 ∧ bstopState u = bstopState s
      ∧ OnlyRegs [F.DSP_BSTOP_REQ, F.DSP_BSTOP_CAUSE] s u) ∧
  (∀ s : State, Quiet s → bstopState s = bSTOPPING →
    Completes .bstopStoppingTimeout s [] fun u => bstopState u = bSTOPPED ∧ OnlyRegs [F.DSP_STATUS_BSTOP] s u) ∧
  (∀ s : State, Quiet s → bstopState s ≠ bSTOPPING → Completes .bstopStoppingTimeout s [] fun u => u = s) ∧
  (∀ s : State, Quiet s → bstopState s = bSTOPPED → triggerActive s = false → (∀ p, p < 4 → liveRing s p = false) →
    Completes .bstopClear s [ev 0x0909 []] fun u =>
      bstopState u = bRUN ∧ fld u F.DSP_BSTOP_CAUSE = 0 ∧ flag u F.DSP_BSTOP_REQ = false
      ∧ Only [.dsp] [F.DSP_BSTOP_REQ, F.DSP_BSTOP_CAUSE, F.DSP_STATUS_BSTOP] s u) ∧
  (∀ s : State, Quiet s → bstopState s ≠ bSTOPPED ∨ triggerActive s = true → Completes .bstopClear s [] fun u => u = s) ∧
  (∀ s : State, Quiet s → bstopState s = bRUN → Completes .bstopRepeat s [] fun u => u = s) ∧
  (∀ (p : Fin 4) (s : State), Quiet s → bstopState s ≠ bRUN → liveRing s p = true → (∀ q, q < 4 → q ≠ p.val → liveRing s q = false) →
    SendsPlainly s →
    Completes .bstopRepeat s [] fun u =>
      u.wire = ⟨p, 0, mkFlit FT.bstop (port s p).seq 255 0 0 0⟩ :: s.wire ∧ OnlyParts [.wire] s u)

/-- Disabling the Dispatcher (R96; stated with no group in hand): taken entries and the late queue end DISABLED and are counted; with
nothing left to drain ENABLE clears at once, else DRAINING reads 1.
An item that is not acknowledged in time (R92, R110): on a port that is UP the time-out is counted and a replay resends the items
with a round trip left and removes the others as missed (stated for a port whose items are all in time and whose replays have not
run out); for an item no longer in the journal, or a port that is not UP, nothing happens. -/
def Obligations.DispatcherDisablesAndReplays : Prop :=
  (∀ s : State, Quiet s → flag s F.DSP_CTRL_ENABLE = true → flag s F.DSP_STATUS_DRAINING = false → s.dsp.groups = [] →
    Completes .dspDisable s [] fun u =>
      u.dsp = { s.dsp with store := [], lateQ := [] }
      ∧ fld u F.DSP_CNT_DISABLED_COUNT = min (fld s F.DSP_CNT_DISABLED_COUNT + (s.dsp.store.length + s.dsp.lateQ.length)) (2 ^ 32 - 1)
      ∧ (flag u F.DSP_CTRL_ENABLE = !dspDrained s) ∧ (flag u F.DSP_STATUS_DRAINING = !dspDrained s)
      ∧ Only [.dsp] [F.DSP_CNT_DISABLED_COUNT, F.DSP_CTRL_ENABLE, F.DSP_STATUS_DRAINING] s u) ∧
  (∀ s : State, Quiet s → flag s F.DSP_CTRL_ENABLE = false ∨ flag s F.DSP_STATUS_DRAINING = true →
    Completes .dspDisable s [] fun u => u = s) ∧
  (∀ (p : Fin 4) (q : BitVec 12) (s : State), Quiet s → portState s p ≠ pUP ∨ (∀ i ∈ (port s p).journal, i.seq ≠ q.toNat) →
    Completes (.ackTimeout p q) s [] fun u => u = s) ∧
  (∀ (p : Fin 4) (q : BitVec 12) (i : Item) (s : State), Quiet s → portState s p = pUP → isTrunk s p = false → (port s p).journal = [i] → i.seq = q.toNat →
    now s + fld s (F.DSP_PORTp_RTT_RTT p) ≤ i.deadline → (port s p).replays = 0 → SendsPlainly s →
    Completes (.ackTimeout p q) s [] fun u =>
      (port u p).journal = [freshItem s i] ∧ (port u p).replays = 1
      ∧ u.wire = ((itemFlits (freshItem s i)).map fun f => ⟨p, 0, f⟩).reverse ++ s.wire
      ∧ fld u (F.DSP_PORTp_REPLAY_REPLAYED p) = min (fld s (F.DSP_PORTp_REPLAY_REPLAYED p) + 1) (2 ^ 32 - 1)
      ∧ Only [.ports, .wire] [F.WNG_Pp_CNT_ACKTO_ACKTO p, F.DSP_PORTp_REPLAY_REPLAYED p] s u)

/-- A good flit of a type has arrived at module `pos` of port p, addressed to it alone. -/
abbrev Reaches (s : State) (p pos : Nat) (f : Flit) (type : Nat) : Prop :=
  Quiet s ∧ pos ≠ 0 ∧ fGood f.toNat = true ∧ fType f.toNat = type ∧ fAddr f.toNat = (module s p pos).pos
  ∧ (module s p pos).pos ≠ 0 ∧ (module s p pos).pos ≠ 255

/-- Module `pos` of port p becomes `m`, and the flits `fs` leave it, the first of them last; no other module and nothing else
changes. -/
def ModuleTurns (p pos : Nat) (m : Module) (fs : List Flit) (s u : State) : Prop :=
  module u p pos = m ∧ (∀ k, k ≠ p * 256 + pos → smGet u.modules k ({} : Module) = smGet s.modules k {})
  ∧ u.wire = (fs.map fun f => (⟨p, pos, f⟩ : Sent)) ++ s.wire ∧ OnlyParts [.modules, .wire] s u

/-- The IDLE flit in the place of a taken flit, which an end module does not forward (R99). -/
def idleFor (m : Module) (f : Nat) : List Flit := if m.isEnd then [] else [mkFlit FT.idle (fSeq f) 0 0 0 0]

/-- The ACK of a module for an item (R108), and its NAK (R109). -/
def ackOf (m : Module) (f res : Nat) : Flit := mkFlit FT.ack (fSeq f) m.pos 0 0 (m.pos + fSeq f * 2 ^ 8 + res * 2 ^ 20)
def nakOf (m : Module) (reason : Nat) : Flit := mkFlit FT.nak m.lastSeq m.pos 0 0 (m.pos + m.lastSeq * 2 ^ 8 + reason * 2 ^ 20)

/-- The item flits of one flit, by type. -/
def modFlit (k : Fin 8) (p : Fin 4) (pos : Fin 256) (f : Flit) : Instr :=
  match k with
  | 0 => .retime p pos f
  | 1 => .commit p pos f
  | 2 => .revoke p pos f
  | 3 => .bstop p pos f
  | 4 => .resume p pos f
  | 5 => .safe p pos f
  | 6 => .missed p pos f
  | 7 => .idRead p pos f

/-- Their TYPE codes (R101). -/
def modType (k : Fin 8) : Nat := [FT.retime, FT.commit, FT.revoke, FT.bstop, FT.resume, FT.safe, FT.missed, FT.idRead].getD k 0

/-- A consist of good flits, its first flit `f`, has arrived at a module. -/
abbrev ConsistReaches (s : State) (p pos : Nat) (f : Flit) (l : List Flit) : Prop :=
  Quiet s ∧ pos ≠ 0 ∧ ((f :: l).all fun x => fGood x.toNat) = true ∧ fAddr f.toNat = (module s p pos).pos
  ∧ (module s p pos).pos ≠ 0 ∧ (module s p pos).pos ≠ 255

/-- Consists at a module (R99, R104, R106, R108, R109, R113): one that is whole and in time is stored and acknowledged, and IDLE takes
its place; one already stored is acknowledged with RESULT 01 and not stored again; a stopped module answers NAK STOPPED, and
flits that do not make a consist are answered NAK CRC, each storing nothing.
The other flits at a module (R99, R112 to R115, R117): RETIME moves the stamps of the consists of its axis and epoch, none of
them answering RESULT 10; COMMIT makes the staged consists of its instance normal, REVOKE discards them and their fallback waits
for their stamps; BSTOP empties and stops the module in its safe frame, RESUME ends a stop, SAFE applies the safe frame, MISSED
the late action of every channel; ID_READ is answered with 16 bytes of identity memory; a flit for another module is forwarded
unchanged. -/
def Obligations.ModulesStoreAndAct : Prop :=
  (∀ (p : Fin 4) (pos : Fin 256) (f : Flit) (l : List Flit) (s : State), ConsistReaches s p pos f l →
    consistOk ((f :: l).map (·.toNat)) = true → (module s p pos).stopped = false →
    (∀ h ∈ (module s p pos).held, h.seq ≠ fSeq f.toNat) → modTime s (module s p pos) < bits (fPayload f.toNat) 0 64 →
    (module s p pos).held.length < 64 →
    Completes (.consist p pos (f :: l)) s [] (ModuleTurns p pos { module s p pos with
        lastSeq := fSeq f.toNat
        held := (module s p pos).held ++ [heldOf ((f :: l).map (·.toNat))] }
      (((f :: l).flatMap fun x => idleFor (module s p pos) x.toNat).reverse ++ [ackOf (module s p pos) f.toNat 0]) s)) ∧
  (∀ (p : Fin 4) (pos : Fin 256) (f : Flit) (l : List Flit) (h : Held) (s : State), ConsistReaches s p pos f l →
    consistOk ((f :: l).map (·.toNat)) = true → (module s p pos).stopped = false → h ∈ (module s p pos).held →
    h.seq = fSeq f.toNat →
    Completes (.consist p pos (f :: l)) s [] (ModuleTurns p pos { module s p pos with lastSeq := fSeq f.toNat }
      (((f :: l).flatMap fun x => idleFor (module s p pos) x.toNat).reverse ++ [ackOf (module s p pos) f.toNat 1]) s)) ∧
  (∀ (p : Fin 4) (pos : Fin 256) (f : Flit) (l : List Flit) (s : State), ConsistReaches s p pos f l →
    consistOk ((f :: l).map (·.toNat)) = true → (module s p pos).stopped = true →
    Completes (.consist p pos (f :: l)) s [] (ModuleTurns p pos { module s p pos with lastSeq := fSeq f.toNat }
      (((f :: l).flatMap fun x => idleFor (module s p pos) x.toNat).reverse
        ++ [nakOf { module s p pos with lastSeq := fSeq f.toNat } 2]) s)) ∧
  (∀ (p : Fin 4) (pos : Fin 256) (f : Flit) (l : List Flit) (s : State), ConsistReaches s p pos f l →
    consistOk ((f :: l).map (·.toNat)) = false →
    Completes (.consist p pos (f :: l)) s [] (ModuleTurns p pos (module s p pos)
      (((f :: l).flatMap fun x => idleFor (module s p pos) x.toNat).reverse ++ [nakOf (module s p pos) 0]) s)) ∧
  (∀ (p : Fin 4) (pos : Fin 256) (f : Flit) (s : State), Reaches s p pos f FT.retime →
    (∀ h ∈ (module s p pos).held, h.axis ≠ bits (fPayload f.toNat) 160 4 ∨ h.epoch ≠ bits (fPayload f.toNat) 164 16) →
    Completes (.retime p pos f) s [] (ModuleTurns p pos { module s p pos with lastSeq := fSeq f.toNat }
      (idleFor (module s p pos) f.toNat ++ [ackOf (module s p pos) f.toNat 2]) s)) ∧
  (∀ (p : Fin 4) (pos : Fin 256) (f : Flit) (h : Held) (s : State), Reaches s p pos f FT.retime →
    (module s p pos).held = [h] → h.axis = bits (fPayload f.toNat) 160 4 → h.epoch = bits (fPayload f.toNat) 164 16 →
    Completes (.retime p pos f) s [] (ModuleTurns p pos { module s p pos with
        lastSeq := fSeq f.toNat
        held := [{ h with
          stamp := movedStamp (max (bits (fPayload f.toNat) 0 64) (modTime s (module s p pos))) h.stamp
            (mapStamp ((bits (fPayload f.toNat) 0 64 : Int) + toSigned 32 (bits (fPayload f.toNat) 64 32)).toNat
              (bits (fPayload f.toNat) 96 32) (toSigned 32 (bits (fPayload f.toNat) 128 32)) h.stamp)
          epoch := (h.epoch + 1) % 65536 }] }
      (idleFor (module s p pos) f.toNat ++ [ackOf (module s p pos) f.toNat 0]) s)) ∧
  (∀ (p : Fin 4) (pos : Fin 256) (f : Flit) (h : Held) (s : State), Reaches s p pos f FT.commit →
    (module s p pos).held = [h] → h.kind = 1 → h.axis = bits (fPayload f.toNat) 0 4 → h.rev = bits (fPayload f.toNat) 4 8 →
    h.group = bits (fPayload f.toNat) 12 8 →
    Completes (.commit p pos f) s [] fun u => ModuleTurns p pos { module s p pos with
        lastSeq := fSeq f.toNat
        held := [{ h with kind := 0 }]
        commits := (module u p pos).commits }
      (idleFor (module s p pos) f.toNat ++ [ackOf (module s p pos) f.toNat 0]) s u) ∧
  (∀ (p : Fin 4) (pos : Fin 256) (f : Flit) (h : Held) (s : State), Reaches s p pos f FT.revoke →
    (module s p pos).held = [h] → h.kind = 1 → h.axis = bits (fPayload f.toNat) 0 4 → h.rev = bits (fPayload f.toNat) 4 8 →
    h.group = bits (fPayload f.toNat) 12 8 →
    Completes (.revoke p pos f) s [] (ModuleTurns p pos { module s p pos with
        lastSeq := fSeq f.toNat
        held := []
        pendFb := (module s p pos).pendFb ++ [⟨h.stamp, h.fb, h.group, h.upds.map uChan⟩] }
      (idleFor (module s p pos) f.toNat ++ [ackOf (module s p pos) f.toNat 0]) s)) ∧
  (∀ (k : Fin 2) (p : Fin 4) (pos : Fin 256) (f : Flit) (s : State), Reaches s p pos f (modType (if k = 0 then 1 else 2)) →
    (∀ h ∈ (module s p pos).held, h.kind ≠ 1) →
    Completes (modFlit (if k = 0 then 1 else 2) p pos f) s [] (ModuleTurns p pos { module s p pos with lastSeq := fSeq f.toNat }
      (idleFor (module s p pos) f.toNat ++ [ackOf (module s p pos) f.toNat 2]) s)) ∧
  (∀ (p : Fin 4) (pos : Fin 256) (f : Flit) (s : State), Reaches s p pos f FT.bstop →
    Completes (.bstop p pos f) s [] (ModuleTurns p pos
      { safeFrame { module s p pos with held := [], pendFb := [] } (modTime s (module s p pos)) with stopped := true }
      (if (module s p pos).isEnd
       then [mkFlit FT.ack (module s p pos).lastSeq (module s p pos).pos 0 0 (255 + 0xFFF * 2 ^ 8)]
       else [mkFlit FT.idle (fSeq f.toNat) 0 0 0 0]) s)) ∧
  (∀ (p : Fin 4) (pos : Fin 256) (f : Flit) (s : State), Reaches s p pos f FT.resume →
    Completes (.resume p pos f) s [] (ModuleTurns p pos { module s p pos with stopped := false }
      (idleFor (module s p pos) f.toNat) s)) ∧
  (∀ (p : Fin 4) (pos : Fin 256) (f : Flit) (s : State), Reaches s p pos f FT.safe →
    Completes (.safe p pos f) s [] fun u =>
      (∀ c, c < idChannels (module s p pos).ident → chan (module u p pos) c
        = chanAfter (idSafe (module s p pos).ident c).1 (idSafe (module s p pos).ident c).2 (modTime s (module s p pos)))
      ∧ ModuleTurns p pos { module s p pos with chans := (module u p pos).chans } (idleFor (module s p pos) f.toNat) s u) ∧
  (∀ (p : Fin 4) (pos : Fin 256) (f : Flit) (s : State), Reaches s p pos f FT.missed →
    Completes (.missed p pos f) s [] fun u =>
      (∀ c, c < idChannels (module s p pos).ident → chan (module u p pos) c =
        if idLate (module s p pos).ident c = 2 then {}
        else if idLate (module s p pos).ident c = 3 then
          chanAfter (idSafe (module s p pos).ident c).1 (idSafe (module s p pos).ident c).2 (modTime s (module s p pos))
        else chan (module s p pos) c)
      ∧ ModuleTurns p pos { module s p pos with chans := (module u p pos).chans } (idleFor (module s p pos) f.toNat) s u) ∧
  (∀ (p : Fin 4) (pos : Fin 256) (f : Flit) (s : State), Reaches s p pos f FT.idRead →
    Completes (.idRead p pos f) s [] (ModuleTurns p pos (module s p pos) (idleFor (module s p pos) f.toNat
      ++ [mkFlit FT.idData (module s p pos).lastSeq (module s p pos).pos 0 0
          (bits (fPayload f.toNat) 0 11 + idNat (module s p pos).ident (bits (fPayload f.toNat) 0 11) 16 * 2 ^ 16)]) s)) ∧
  (∀ (k : Fin 8) (p : Fin 4) (pos : Fin 256) (f : Flit) (s : State), Quiet s → pos ≠ 0 → fGood f.toNat = true →
    fType f.toNat = modType k → fAddr f.toNat ≠ 255 → fAddr f.toNat ≠ (module s p pos).pos → (module s p pos).isEnd = false →
    Completes (modFlit k p pos f) s [] fun u => u = { s with wire := ⟨p, pos, f⟩ :: s.wire })

/-- What a module does by itself, and the flits of the chain (R99, R106, R113, R114, R116, R117, R120, R147): a normal consist acts at its
stamp; a staged one still held at its stamp is discarded and its fallback applied; a fallback that waits is applied at its stamp;
a pulse ends; 1 ms of silence acts as BSTOP; a face without training makes the end module; IDLE is forwarded; ENUM numbers the
module; a PROBE is echoed, and an echoed one sets the hop delay; a bad flit is replaced by IDLE and answered with NAK. -/
def Obligations.ModulesActAlone : Prop :=
  (∀ (p : Fin 4) (pos : Fin 256) (seq : BitVec 12) (h : Held) (u0 : Nat) (s : State), Quiet s → (module s p pos).held = [h] →
    h.seq = seq.toNat → h.kind = 0 → h.stamp ≤ modTime s (module s p pos) → h.upds = [u0] →
    Completes (.consistExecute p pos seq) s [] fun u =>
      (uChan u0 < idChannels (module s p pos).ident → opSuits (idKind (module s p pos).ident (uChan u0)) (uOp u0) = true →
        chan (module u p pos) (uChan u0) = chanAfter (uOp u0) (uPayload u0) h.stamp)
      ∧ (∀ c, c ≠ uChan u0 → chan (module u p pos) c = chan (module s p pos) c)
      ∧ ModuleTurns p pos { module s p pos with held := [], chans := (module u p pos).chans } [] s u) ∧
  (∀ (p : Fin 4) (pos : Fin 256) (seq : BitVec 12) (s : State), Quiet s →
    (∀ h ∈ (module s p pos).held, h.seq = seq.toNat → modTime s (module s p pos) < h.stamp) →
    Completes (.consistExecute p pos seq) s [] fun u => u = s) ∧
  (∀ (p : Fin 4) (pos : Fin 256) (seq : BitVec 12) (h : Held) (u0 : Nat) (s : State), Quiet s → (module s p pos).held = [h] →
    h.seq = seq.toNat → h.kind = 1 → h.fb = 1 → h.stamp ≤ modTime s (module s p pos) → h.upds = [u0] →
    uChan u0 < idChannels (module s p pos).ident →
    Completes (.stagedStamp p pos seq) s [] fun u =>
      chan (module u p pos) (uChan u0)
        = chanAfter (idSafe (module s p pos).ident (uChan u0)).1 (idSafe (module s p pos).ident (uChan u0)).2 h.stamp
      ∧ (∀ c, c ≠ uChan u0 → chan (module u p pos) c = chan (module s p pos) c)
      ∧ ModuleTurns p pos { module s p pos with held := [], chans := (module u p pos).chans } [] s u) ∧
  (∀ (p : Fin 4) (pos : Fin 256) (x : PendFb) (c0 : Nat) (s : State), Quiet s → (module s p pos).held = [] →
    (module s p pos).pendFb = [x] → x.stamp ≤ modTime s (module s p pos) → x.fb = 1 → x.chans = [c0] →
    c0 < idChannels (module s p pos).ident →
    Completes (.fallbackApply p pos) s [] fun u =>
      chan (module u p pos) c0 = chanAfter (idSafe (module s p pos).ident c0).1 (idSafe (module s p pos).ident c0).2 x.stamp
      ∧ (∀ c, c ≠ c0 → chan (module u p pos) c = chan (module s p pos) c)
      ∧ ModuleTurns p pos { module s p pos with pendFb := [], chans := (module u p pos).chans } [] s u) ∧
  (∀ (p : Fin 4) (pos : Fin 256) (c : BitVec 10) (s : State), Quiet s → (chan (module s p pos) c.toNat).op = 3 →
    (chan (module s p pos) c.toNat).until_ ≤ modTime s (module s p pos) →
    Completes (.modulePulseEnd p pos c) s [] fun u =>
      chan (module u p pos) c.toNat = {} ∧ (∀ j, j ≠ c.toNat → chan (module u p pos) j = chan (module s p pos) j)
      ∧ ModuleTurns p pos { module s p pos with chans := (module u p pos).chans } [] s u) ∧
  (∀ (p : Fin 4) (pos : Fin 256) (s : State), Quiet s → pos ≠ 0 →
    Completes (.moduleSilence p pos) s [] (ModuleTurns p pos
      { safeFrame { module s p pos with held := [], pendFb := [] } (modTime s (module s p pos)) with stopped := true } [] s)) ∧
  (∀ (p : Fin 4) (pos : Fin 256) (s : State), Quiet s → pos ≠ 0 →
    Completes (.endModule p pos) s [] (ModuleTurns p pos { module s p pos with isEnd := true } [] s)) ∧
  (∀ (p : Fin 4) (pos : Fin 256) (f : Flit) (s : State), Quiet s → pos ≠ 0 → fGood f.toNat = true → fType f.toNat = FT.idle →
    (module s p pos).isEnd = false →
    Completes (.idle p pos f) s [] fun u => u = { s with wire := ⟨p, pos, f⟩ :: s.wire }) ∧
  (∀ (p : Fin 4) (pos : Fin 256) (f : Flit) (s : State), Quiet s → pos ≠ 0 → fGood f.toNat = true → fType f.toNat = FT.idle →
    (module s p pos).isEnd = true →
    Completes (.idle p pos f) s [] fun u =>
      (∃ x ∈ u.wire.head?.toList, x.pos = pos.val ∧ fType x.flit.toNat = FT.idle) ∧ u.wire.tail = s.wire ∧ OnlyParts [.wire] s u) ∧
  (∀ (p : Fin 4) (pos : Fin 256) (f : Flit) (s : State), Quiet s → fGood f.toNat = false →
    Completes (.idle p pos f) s [] fun u => u = s) ∧
  (∀ (p : Fin 4) (f : Flit) (s : State), Quiet s → Completes (.idle p 0 f) s [] fun u => u = s) ∧
  (∀ (p : Fin 4) (pos : Fin 256) (f : Flit) (el : BitVec 20 × Bool) (s : State), Quiet s → pos ≠ 0 → fGood f.toNat = true →
    fType f.toNat = FT.enum → (fPayload f.toNat).testBit 40 = false → bits (fPayload f.toNat) 0 8 ≠ 255 →
    Completes (.enumFlit p pos f el) s [] fun u =>
      (module u p pos).pos = bits (fPayload f.toNat) 0 8 ∧ (module u p pos).held = [] ∧ (module u p pos).stopped = false
      ∧ (∃ x ∈ u.wire.head?.toList, bits (fPayload x.flit.toNat) 0 8 = bits (fPayload f.toNat) 0 8 + 1
          ∧ (fPayload x.flit.toNat).testBit 40 = ((module s p pos).isEnd && !el.2))
      ∧ u.wire.tail = s.wire ∧ OnlyParts [.modules, .wire, .free] s u) ∧
  (∀ (p : Fin 4) (pos : Fin 256) (f : Flit) (el : BitVec 20 × Bool) (s : State), Quiet s → pos ≠ 0 → fGood f.toNat = true →
    fType f.toNat = FT.enum → (fPayload f.toNat).testBit 40 = true → el.2 = false →
    Completes (.enumFlit p pos f el) s [] fun u => u = { s with wire := ⟨p, pos, f⟩ :: s.wire }) ∧
  (∀ (p : Fin 4) (pos : Fin 256) (down : Bool) (t : BitVec 64) (f : Flit) (s : State), Quiet s → pos ≠ 0 → fGood f.toNat = true →
    fType f.toNat = FT.probe → bits (fPayload f.toNat) 64 64 = 0 →
    Completes (.probe p pos down t f) s [] fun u => u = { s with
      wire := ⟨p, pos, mkFlit FT.probe (fSeq f.toNat) (fAddr f.toNat) 0 0 (t.toNat + bits (fPayload f.toNat) 0 64 * 2 ^ 64)⟩ :: s.wire }) ∧
  (∀ (p : Fin 4) (t : BitVec 64) (f : Flit) (s : State), Quiet s → fGood f.toNat = true → fType f.toNat = FT.probe →
    bits (fPayload f.toNat) 64 64 ≠ 0 →
    Completes (.probe p 0 true t f) s [] fun u =>
      (port u p).hop = (t.toNat - bits (fPayload f.toNat) 64 64) * 32768
      ∧ (module u p 1).hopUp = (t.toNat - bits (fPayload f.toNat) 64 64) * 32768 ∧ OnlyParts [.modules, .ports] s u) ∧
  (∀ (p : Fin 4) (pos : Fin 256) (f : Flit) (s : State), Quiet s → pos ≠ 0 → fGood f.toNat = false →
    Completes (.flitCrcError p pos true f) s [] (ModuleTurns p pos (module s p pos)
      (nakOf (module s p pos) 0 :: idleFor (module s p pos) f.toNat) s)) ∧
  (∀ (p : Fin 4) (pos : Fin 256) (t : BitVec 64) (s : State), Quiet s → pos ≠ 0 → (module s p pos).isEnd = false →
    Completes (.probeSend p pos t) s [] fun u => u = { s with
      wire := ⟨p, pos, mkFlit FT.probe (module s p pos).lastSeq 0 0 0 t.toNat⟩ :: s.wire })

/-- A good flit of a type has arrived at the device, whose clocks are not frozen. -/
abbrev Arrives (s : State) (f : Flit) (type : Nat) : Prop :=
  Quiet s ∧ frozen s = false ∧ fGood f.toNat = true ∧ fType f.toNat = type

/-- Acknowledgements, refusals and enumeration at the device (R87, R92, R108, R110, R114, R116, R117, R126): an ACK of a retime takes it from the
journal and ends the count of replays; a NAK is counted with event 0x0C09, and one that says STOPPED in RUN is answered with
RESUME; ENUM returned sets the port's latency, round trip and module count, and with no modules the port goes UP with event
0x0C05; a time-out sends ENUM or ID_READ again; ENUM written on an UP ring with an empty journal enumerates anew; SAFE goes to
each quarantined module; flits for the device are passed on by modules on the return path. -/
def Obligations.DeviceEnumeratesAndAcknowledges : Prop :=
  (∀ (p : Fin 4) (f : Flit) (i : Item) (s : State), Arrives s f FT.ack → liveRing s p = true → fCidx f.toNat = 0 →
    (port s p).journal = [i] → i.kind = .retime → (port s p).waiting = [] → bits (fPayload f.toNat) 8 12 = i.seq →
    bits (fPayload f.toNat) 0 8 = i.addr → i.addr ≠ 255 → flag s (F.WNG_Pp_STATUS_DRAINING p) = false →
    Completes (.ack p 0 f) s [] fun u =>
      port u p = { port s p with journal := [], replays := 0 } ∧ (∀ q, q ≠ p.val → port u q = port s q) ∧ OnlyParts [.ports] s u) ∧
  (∀ (p : Fin 4) (f : Flit) (s : State), Arrives s f FT.ack → liveRing s p = true → fCidx f.toNat = 0 →
    (port s p).journal = [] → (port s p).waiting = [] → bits (fPayload f.toNat) 0 20 = 255 + 0xFFF * 256 →
    bstopState s = bRUN → flag s (F.WNG_Pp_STATUS_DRAINING p) = false →
    Completes (.ack p 0 f) s [] fun u => p.val ∈ u.dsp.bstopAck ∧ OnlyParts [.ports, .dsp] s u) ∧
  (∀ (p : Fin 4) (pos : Fin 256) (f : Flit) (s : State), Quiet s → fGood f.toNat = true →
    fType f.toNat = FT.ack → pos ≠ 0 →
    Completes (.ack p pos f) s [] fun u => u = { s with wire := ⟨p, pos, f⟩ :: s.wire }) ∧
  (∀ (p : Fin 4) (f : Flit) (s : State), Arrives s f FT.nak → liveRing s p = true → portState s p = pENUMERATING →
    bits (fPayload f.toNat) 20 2 = 2 → bstopState s = bRUN → SendsPlainly s →
    Completes (.nak p 0 f) s [evMerged 0x0C09 p [(1, p)]] fun u =>
      fld u (F.WNG_Pp_CNT_NAK_NAK p) = min (fld s (F.WNG_Pp_CNT_NAK_NAK p) + 1) (2 ^ 32 - 1)
      ∧ u.wire = ownFlit s p FT.resume 255 0 :: s.wire ∧ Only [.wire] [F.WNG_Pp_CNT_NAK_NAK p] s u) ∧
  (∀ (p : Fin 4) (pos : Fin 256) (f : Flit) (s : State), Quiet s → fGood f.toNat = true →
    fType f.toNat = FT.nak → pos ≠ 0 →
    Completes (.nak p pos f) s [] fun u => u = { s with wire := ⟨p, pos, f⟩ :: s.wire }) ∧
  (∀ (p : Fin 4) (f : Flit) (el : BitVec 20 × Bool) (s : State), Arrives s f FT.enum → portState s p = pENUMERATING →
    (port s p).enumTries ≠ 0 → (fPayload f.toNat).testBit 40 = true → (fPayload f.toNat).testBit 41 = false →
    bits (fPayload f.toNat) 0 8 = 1 → (port s p).waiting = [] → bstopState s = bRUN →
    Completes (.enumFlit p 0 f el) s [ev 0x0C05 [(1, p), (1, 0)]] fun u =>
      portState u p = pUP ∧ fld u (F.WNG_Pp_STATUS_MODULES p) = 0
      ∧ fld u (F.DSP_PORTp_LAT_LAT p) = ((bits (fPayload f.toNat) 8 32 + 3) / 4 + 400) % 2 ^ 20
      ∧ fld u (F.DSP_PORTp_RTT_RTT p) = el.1.toNat
      ∧ Only [.ports] [F.WNG_Pp_STATUS_STATE p, F.WNG_Pp_STATUS_MODULES p, F.WNG_Pp_STATUS_QUARANTINED p, F.DSP_PORTp_LAT_LAT p,
          F.DSP_PORTp_RTT_RTT p] s u) ∧
  (∀ (p : Fin 4) (f : Flit) (el : BitVec 20 × Bool) (s : State), Arrives s f FT.enum →
    portState s p ≠ pENUMERATING ∨ (port s p).enumTries = 0 →
    Completes (.enumFlit p 0 f el) s [] fun u => u = s) ∧
  (∀ (p : Fin 4) (s : State), Quiet s → portState s p = pENUMERATING → 0 < (port s p).enumTries → (port s p).enumTries < 4 →
    SendsPlainly s →
    Completes (.enumTimeout p) s [] fun u =>
      port u p = { port s p with enumTries := (port s p).enumTries + 1 }
      ∧ u.wire = ownFlit s p FT.enum 255 (1 + ((port s p).hop + 16383) / 16384 % 2 ^ 32 * 2 ^ 8) :: s.wire
      ∧ OnlyParts [.ports, .wire] s u) ∧
  (∀ (p : Fin 4) (s : State), Quiet s → portState s p = pENUMERATING → 4 ≤ (port s p).enumTries → (port s p).waiting = [] →
    bstopState s = bRUN → (port s p).count = 0 →
    Completes (.enumTimeout p) s [ev 0x0C05 [(1, p), (1, 0)]] fun u =>
      portState u p = pUP ∧ fld u (F.WNG_Pp_STATUS_MODULES p) = 0 ∧ fld u (F.DSP_PORTp_LAT_LAT p) = 0
      ∧ fld u (F.DSP_PORTp_RTT_RTT p) = 0
      ∧ Only [.ports] [F.WNG_Pp_STATUS_STATE p, F.WNG_Pp_STATUS_MODULES p, F.WNG_Pp_STATUS_QUARANTINED p, F.DSP_PORTp_LAT_LAT p,
          F.DSP_PORTp_RTT_RTT p] s u) ∧
  (∀ (p : Fin 4) (f : Flit) (n : Nat) (s : State), Arrives s f FT.idData → portState s p = pENUMERATING → fAddr f.toNat = n →
    (modInfo s p n).asked = [0] → bits (fPayload f.toNat) 0 11 = 0 → (modInfo s p n).ended = false → (modInfo s p n).got = [] →
    (modInfo s p n).bytes = [] → bits (fPayload f.toNat) 32 16 = 40 → fld s (F.WNG_Pp_STATUS_MODULES p) = 1 → n = 1 → SendsPlainly s →
    Completes (.idData p f) s [] fun u =>
      (∀ j, j < 16 → smGet (modInfo u p n).bytes j 0 = BitVec.ofNat 8 (bits (fPayload f.toNat) (16 + 8 * j) 8))
      ∧ (modInfo u p n).got = [0] ∧ (modInfo u p n).asked = [16, 32]
      ∧ u.wire = ownFlit s p FT.idRead n 32 :: ownFlit s p FT.idRead n 16 :: s.wire ∧ OnlyParts [.ports, .wire] s u) ∧
  (∀ (p : Fin 4) (f : Flit) (s : State), Arrives s f FT.idData →
    bits (fPayload f.toNat) 0 11 ∉ (modInfo s p (fAddr f.toNat)).asked →
    Completes (.idData p f) s [] fun u => u = s) ∧
  (∀ (p : Fin 4) (n : Fin 256) (off : BitVec 11) (s : State), Quiet s → portState s p = pENUMERATING →
    off.toNat ∈ (modInfo s p n).asked → (modInfo s p n).ended = false → smGet (modInfo s p n).tries off.toNat 0 < 3 →
    SendsPlainly s →
    Completes (.idReadTimeout p n off) s [] fun u =>
      smGet (modInfo u p n).tries off.toNat 0 = smGet (modInfo s p n).tries off.toNat 0 + 1
      ∧ u.wire = ownFlit s p FT.idRead n off.toNat :: s.wire ∧ OnlyParts [.ports, .wire] s u) ∧
  (∀ (p : Fin 4) (off : BitVec 11) (s : State), Quiet s → portState s p = pENUMERATING →
    off.toNat ∈ (modInfo s p 1).asked → (modInfo s p 1).ended = false → 3 ≤ smGet (modInfo s p 1).tries off.toNat 0 →
    (port s p).waiting = [] → bstopState s = bRUN → fld s (F.WNG_Pp_STATUS_MODULES p) = 1 →
    Completes (.idReadTimeout p 1 off) s [ev 0x0C04 [(1, p), (1, 1)], ev 0x0C05 [(1, p), (1, 1)]] fun u =>
      fld u (F.WNG_Pp_MODn_STATE p 1) = 3 ∧ fld u (F.WNG_Pp_MODn_REASON p 1) = 1 ∧ portState u p = pUP
      ∧ Only [.ports] [F.WNG_Pp_MODn_STATE p 1, F.WNG_Pp_MODn_REASON p 1, F.WNG_Pp_MODn_MAKER p 1, F.WNG_Pp_STATUS_STATE p,
          F.WNG_Pp_STATUS_QUARANTINED p] s u) ∧
  (∀ (p : Fin 4) (s : State), Quiet s → upRing s p = true → portDisabled s p = false → (port s p).journal = [] → SendsPlainly s →
    Completes (.enumWrite p) s [] fun u =>
      portState u p = pENUMERATING ∧ (∀ n, 1 ≤ n → n < 255 → fld u (F.WNG_Pp_MODn_STATE p n) = 0)
      ∧ port u p = { port s p with enumTries := 1, count := 0, infos := [] }
      ∧ u.wire = ownFlit s p FT.enum 255 (1 + ((port s p).hop + 16383) / 16384 % 2 ^ 32 * 2 ^ 8) :: s.wire
      ∧ OnlyParts [.regs, .ports, .wire, .dsp] s u) ∧
  (∀ (p : Fin 4) (s : State), Quiet s → upRing s p = false ∨ portDisabled s p = true ∨ (port s p).journal ≠ [] →
    Completes (.enumWrite p) s [] fun u => u = s) ∧
  (∀ (p : Fin 4) (s : State), Quiet s → upRing s p = true → fld s (F.WNG_Pp_MODn_STATE p 1) = 2 →
    fld s (F.WNG_Pp_STATUS_MODULES p) = 1 → SendsPlainly s →
    Completes (.safeRepeat p) s [] fun u => u = { s with wire := ownFlit s p FT.safe 1 0 :: s.wire }) ∧
  (∀ (p : Fin 4) (t : BitVec 64) (s : State), Quiet s → portState s p ≠ pDISABLED → lanesReady s p = true → SendsPlainly s →
    Completes (.probeSend p 0 t) s [] fun u => u = { s with wire := ownFlit s p FT.probe 0 t.toNat :: s.wire }) ∧
  (∀ (p : Fin 4) (t : BitVec 64) (s : State), Quiet s → portState s p = pDISABLED ∨ lanesReady s p = false →
    Completes (.probeSend p 0 t) s [] fun u => u = s) ∧
  (∀ (p : Fin 4) (fwd : Bool) (f : Flit) (s : State), Quiet s → fGood f.toNat = false → upTrunk s p = false →
    Completes (.flitCrcError p 0 fwd f) s [] fun u =>
      fld u (F.WNG_Pp_CNT_CRC_CRC p) = min (fld s (F.WNG_Pp_CNT_CRC_CRC p) + 1) (2 ^ 32 - 1)
      ∧ OnlyRegs [F.WNG_Pp_CNT_CRC_CRC p] s u)

/-- Ports (R116, R125, R148): enabling takes a port to TRAINING and its lanes from OFF to DETECT with preset taps; disabling a ring port
with nothing waiting clears ENABLE and goes DISABLED at once where the journal is empty, else DRAINING reads 1; when the IDLE ends
both lanes go to OFF; 500 ms in RECOVER go back to TRAINING, and each has no effect in another state. -/
def Obligations.PortsEnableAndDisable : Prop :=
  (∀ (p : Fin 4) (s : State), Quiet s → flag s (F.WNG_Pp_CTRL_ENABLE p) = false → (port s p).idling = false →
    (∀ n ∈ portLanes s p, laneState s n = 0 ∧ flag s (F.WLN_LANEn_CTRL_WAKE_TX n) = false) →
    Completes (.portEnable p) s [] fun u =>
      flag u (F.WNG_Pp_CTRL_ENABLE p) = true ∧ portState u p = pTRAINING
      ∧ (∀ n ∈ portLanes s p, laneState u n = 1 ∧ fld u (F.WLN_LANEn_STATUS_MAIN n) = fld s (F.WLN_LANEn_PRESET_MAIN n)
          ∧ fld u (F.WLN_LANEn_STATUS_PRE n) = fld s (F.WLN_LANEn_PRESET_PRE n)
          ∧ fld u (F.WLN_LANEn_STATUS_POST n) = fld s (F.WLN_LANEn_PRESET_POST n))
      ∧ (∀ n, n < 8 → n ∉ portLanes s p → laneState u n = laneState s n) ∧ OnlyParts [.regs, .lanes, .free] s u) ∧
  (∀ (p : Fin 4) (s : State), Quiet s → flag s (F.WNG_Pp_CTRL_ENABLE p) = true →
    Completes (.portEnable p) s [] fun u => u = s) ∧
  (∀ (p : Fin 4) (s : State), Quiet s → portDisabled s p = false → (port s p).waiting = [] → (∀ c ∈ s.dsp.unsent, c.port ≠ p.val) →
    (port s p).journal = [] → SendsPlainly s →
    Completes (.portDisable p) s [] fun u =>
      flag u (F.WNG_Pp_CTRL_ENABLE p) = false ∧ flag u (F.WNG_Pp_STATUS_DRAINING p) = false ∧ portState u p = pDISABLED
      ∧ (port u p).idling = true
      ∧ u.wire = ownFlit s p FT.idle 0 0 :: s.wire ∧ Only [.ports, .dsp, .wire] [F.WNG_Pp_CTRL_ENABLE p, F.WNG_Pp_STATUS_DRAINING p, F.WNG_Pp_STATUS_STATE p] s u) ∧
  (∀ (p : Fin 4) (s : State), Quiet s → portDisabled s p = false → (port s p).waiting = [] → (∀ c ∈ s.dsp.unsent, c.port ≠ p.val) →
    (port s p).journal ≠ [] →
    Completes (.portDisable p) s [] fun u =>
      flag u (F.WNG_Pp_STATUS_DRAINING p) = true ∧ port u p = port s p ∧ Only [.ports, .dsp] [F.WNG_Pp_STATUS_DRAINING p] s u) ∧
  (∀ (p : Fin 4) (s : State), Quiet s → (port s p).idling = true → portState s p ≠ pTRAINING →
    flag s (F.WLN_LANEn_CTRL_TRAIN (2 * p)) = false → flag s (F.WLN_LANEn_CTRL_TRAIN (2 * p + 1)) = false →
    (rtState s ≠ rLOCKED ∨ fld s F.ANG_RTM_ROLE_ROLE ≠ 2) →
    Completes (.portIdleEnd p) s [] fun u =>
      laneState u (2 * p) = 0 ∧ laneState u (2 * p + 1) = 0 ∧ port u p = { port s p with idling := false }
      ∧ Only [.ports, .lanes] [F.WLN_LANEn_STATUS_STATE (2 * p), F.WLN_LANEn_STATUS_STATE (2 * p + 1)] s u) ∧
  (∀ (p : Fin 4) (s : State), Quiet s → (port s p).idling = false → Completes (.portIdleEnd p) s [] fun u => u = s) ∧
  (∀ (p : Fin 4) (s : State), Quiet s → portState s p = pRECOVER → (port s p).journal = [] →
    flag s (F.WNG_Pp_STATUS_DRAINING p) = false →
    Completes (.recoverTimeout p) s [] fun u => portState u p = pTRAINING ∧ Only [.ports] [F.WNG_Pp_STATUS_STATE p] s u) ∧
  (∀ (p : Fin 4) (s : State), Quiet s → portState s p ≠ pRECOVER →
    Completes (.recoverTimeout p) s [] fun u => u = s)

/-- A routed payload from SRC to DST with a TTL. -/
abbrev Routed (f : Flit) (src dst ttl : Nat) : Prop :=
  bits (fPayload f.toNat) 0 12 = src ∧ bits (fPayload f.toNat) 12 12 = dst ∧ bits (fPayload f.toNat) 24 6 = ttl

/-- A routed flit is the next in order on a trunk that is UP. -/
abbrev NextOnTrunk (s : State) (p : Fin 4) (f : Flit) (type : Nat) : Prop :=
  Arrives s f type ∧ upTrunk s p = true ∧ ((port s p).rxSync = false ∨ fSeq f.toNat = ((port s p).rxSeq + 1) % 4096)

/-- Trunks (R121, R123, R124): a remote insert for this node is handed to the Timetable; a record for one of this node's inserts enters
WNG_RI_CQ; a message for this node is queued with event 0x0C08, or counted where 64 wait; a flit out of order is discarded with
one NAK; WNG_RI_GO sends the staged entry, and is refused and counted while 32 are out; a remote insert that times out leaves a
TIMEOUT record; reads take the oldest record or message; the trunk receiver's ACK names the last SEQ taken. -/
def Obligations.TrunksCarryInsertsAndMessages : Prop :=
  (∀ (p : Fin 4) (f : Flit) (src ttl : Nat) (s : State), NextOnTrunk s p f FT.remoteInsert → Routed f src (nodeId s) ttl →
    classInFlight s 3 < 512 →
    Completes (.remoteInsert p f) s [] fun u =>
      u.tt = { s.tt with inflight := s.tt.inflight ++ [⟨.trunk p src, bits (fPayload f.toNat) 30 9, bits (fPayload f.toNat) 39 128⟩] }
      ∧ (port u p).rxSeq = fSeq f.toNat ∧ OnlyParts [.tt, .ports] s u) ∧
  (∀ (p q : Fin 4) (f : Flit) (src dst ttl : Nat) (s : State), NextOnTrunk s p f FT.remoteInsert → Routed f src dst ttl → dst ≠ nodeId s →
    1 < ttl → routePort s dst = some q.val → upTrunk s q = true → portDisabled s q = false → q ≠ p → SendsPlainly s →
    Completes (.remoteInsert p f) s [] fun u =>
      (∃ x ∈ u.wire.head?.toList, x.port = q.val ∧ fType x.flit.toNat = FT.remoteInsert
        ∧ fPayload x.flit.toNat = fPayload f.toNat - 2 ^ 24 ∧ fSeq x.flit.toNat = ((port s q).txSeq + 1) % 4096)
      ∧ u.wire.tail = s.wire ∧ (port u q).txSeq = ((port s q).txSeq + 1) % 4096 ∧ OnlyParts [.ports, .wire] s u) ∧
  (∀ (p : Fin 4) (f : Flit) (s : State), Arrives s f FT.remoteInsert → upTrunk s p = true → (port s p).rxSync = true →
    fSeq f.toNat ≠ ((port s p).rxSeq + 1) % 4096 → (port s p).rxHold = false → SendsPlainly s →
    Completes (.remoteInsert p f) s [] fun u =>
      u.wire = ownFlit s p FT.nak 0 ((port s p).rxSeq * 2 ^ 8) :: s.wire ∧ port u p = { port s p with rxHold := true }
      ∧ OnlyParts [.ports, .wire] s u) ∧
  (∀ (p : Fin 4) (f : Flit) (src ttl : Nat) (r : Remote) (s : State), NextOnTrunk s p f FT.insertDone → Routed f src (nodeId s) ttl →
    s.node.remotes = [r] → r.dst = src → r.tag = bits (fPayload f.toNat) 30 9 →
    Completes (.insertDone p f) s [] fun u =>
      u.node = { s.node with remotes := [], riCq := s.node.riCq ++ [bits (fPayload f.toNat) 30 32] } ∧ OnlyParts [.node, .ports] s u) ∧
  (∀ (p : Fin 4) (f : Flit) (src ttl : Nat) (s : State), NextOnTrunk s p f FT.mailbox → Routed f src (nodeId s) ttl →
    bits (fPayload f.toNat) 30 8 ≠ 255 → s.node.mbRx.length < 64 →
    Completes (.mailbox p f) s [ev 0x0C08 []] fun u =>
      u.node = { s.node with mbRx := s.node.mbRx ++ [bits (fPayload f.toNat) 38 128 + src * 2 ^ 128 + bits (fPayload f.toNat) 30 8 * 2 ^ 140] }
      ∧ OnlyParts [.node, .ports] s u) ∧
  (∀ (p : Fin 4) (f : Flit) (src ttl : Nat) (s : State), NextOnTrunk s p f FT.mailbox → Routed f src (nodeId s) ttl →
    bits (fPayload f.toNat) 30 8 ≠ 255 → 64 ≤ s.node.mbRx.length →
    Completes (.mailbox p f) s [] fun u =>
      fld u F.WNG_MB_DROPS_DROPS = min (fld s F.WNG_MB_DROPS_DROPS + 1) (2 ^ F.WNG_MB_DROPS_DROPS.width - 1) ∧ u.node = s.node
      ∧ Only [.ports] [F.WNG_MB_DROPS_DROPS] s u) ∧
  (∀ (w : Word) (q : Fin 4) (s : State), Quiet s → s.node.remotes.length < 32 → riFull s = false →
    routePort s (bits w.toNat 0 12) = some q.val → upTrunk s q = true → portDisabled s q = false → SendsPlainly s →
    Completes (.wngRiGo w) s [] fun u =>
      u.node = { s.node with remotes := s.node.remotes ++ [⟨bits w.toNat 0 12, bits w.toNat 16 9, fld s F.WNG_RI_ENTRY_ENTRY⟩] }
      ∧ (∃ x ∈ u.wire.head?.toList, x.port = q.val ∧ fType x.flit.toNat = FT.remoteInsert
          ∧ bits (fPayload x.flit.toNat) 0 12 = nodeId s ∧ bits (fPayload x.flit.toNat) 12 12 = bits w.toNat 0 12
          ∧ bits (fPayload x.flit.toNat) 30 9 = bits w.toNat 16 9 ∧ bits (fPayload x.flit.toNat) 39 128 = fld s F.WNG_RI_ENTRY_ENTRY)
      ∧ u.wire.tail = s.wire ∧ OnlyParts [.node, .ports, .wire] s u) ∧
  (∀ (w : Word) (s : State), Quiet s → 32 ≤ s.node.remotes.length →
    Completes (.wngRiGo w) s [] fun u =>
      fld u F.WNG_RI_DROPS_DROPS = min (fld s F.WNG_RI_DROPS_DROPS + 1) (2 ^ F.WNG_RI_DROPS_DROPS.width - 1)
      ∧ OnlyRegs [F.WNG_RI_DROPS_DROPS] s u) ∧
  (∀ (k : Nat) (r : Remote) (s : State), Quiet s → s.node.remotes[k]? = some r →
    Completes (.riTimeout k) s [] fun u => u = { s with node := { s.node with
      remotes := s.node.remotes.eraseIdx k
      riCq := s.node.riCq ++ [insRecord r.tag ST.timeout 0 r.entry] } }) ∧
  (∀ (x : Nat) (q : List Nat) (s : State), Quiet s → s.node.riCq = x :: q →
    Completes .wngRiCqRead s [] fun u => u = { s with node := { s.node with riCq := q } }) ∧
  (∀ (x : Nat) (q : List Nat) (s : State), Quiet s → s.node.mbRx = x :: q →
    Completes .wngMbRxRead s [] fun u => u = { s with node := { s.node with mbRx := q } }) ∧
  (∀ (w : Word) (q : Fin 4) (s : State), Quiet s → routePort s (bits w.toNat 0 12) = some q.val → upTrunk s q = true →
    portDisabled s q = false → SendsPlainly s →
    Completes (.wngMbTxGo w) s [] fun u =>
      (∃ x ∈ u.wire.head?.toList, x.port = q.val ∧ fType x.flit.toNat = FT.mailbox
        ∧ bits (fPayload x.flit.toNat) 12 12 = bits w.toNat 0 12 ∧ bits (fPayload x.flit.toNat) 30 8 = bits w.toNat 16 8
        ∧ bits (fPayload x.flit.toNat) 38 128 = fld s F.WNG_MB_TX_DATA)
      ∧ u.wire.tail = s.wire ∧ OnlyParts [.ports, .wire] s u) ∧
  (∀ (w : Word) (s : State), Quiet s → routePort s (bits w.toNat 0 12) = none →
    Completes (.wngMbTxGo w) s [ev 0x0C07 [(2, bits w.toNat 0 12)]] fun u => u = s) ∧
  (∀ (p : Fin 4) (s : State), Quiet s → upTrunk s p = true → SendsPlainly s →
    Completes (.trunkAckSend p) s [] fun u => u = { s with wire := ownFlit s p FT.ack 0 (port s p).rxSeq :: s.wire })

/-- An R-format instruction of two source registers: its result, and the C and V it gives with F = 1 (R174, R176). -/
def AluRule (fn : Nat) (mk : Fin 96 → Fin 4 → Fin 16 → Fin 16 → Fin 16 → Bool → Instr)
    (r : Word → Word → Bool → Word) (c v : Word → Word → Flg → Bool) : Prop :=
  ∀ (n : Fin 96) (t : Fin 4) (rd rs1 rs2 : Fin 16) (f : Bool) (s : State), Issues s n t (encR 0 rd rs1 rs2 f fn 0) →
    Completes (mk n t rd rs1 rs2 f) s [] (WritesReg n t rd (r (gReg s n t rs1) (gReg s n t rs2) (flg s n t).c)
      (if f then fl4 (r (gReg s n t rs1) (gReg s n t rs2) (flg s n t).c)
         (c (gReg s n t rs1) (gReg s n t rs2) (flg s n t)) (v (gReg s n t rs1) (gReg s n t rs2) (flg s n t))
       else flg s n t) s)

/-- An R-format instruction of one source register. -/
def UnaryRule (fn : Nat) (mk : Fin 96 → Fin 4 → Fin 16 → Fin 16 → Bool → Instr) (r : Word → Word) : Prop :=
  ∀ (n : Fin 96) (t : Fin 4) (rd rs1 : Fin 16) (f : Bool) (s : State), Issues s n t (encR 0 rd rs1 0 f fn 0) →
    Completes (mk n t rd rs1 f) s [] (WritesReg n t rd (r (gReg s n t rs1))
      (if f then fl4 (r (gReg s n t rs1)) (flg s n t).c (flg s n t).v else flg s n t) s)

/-- C and V left as they are. -/
def keepC (_ _ : Word) (f : Flg) : Bool := f.c
def keepV (_ _ : Word) (f : Flg) : Bool := f.v

/-- An I-format instruction: a result in rd, the flags unchanged. -/
def ImmRule (major : Nat) (mk : Fin 96 → Fin 4 → Fin 16 → Fin 16 → BitVec 18 → Instr) (r : Word → BitVec 18 → Word) : Prop :=
  ∀ (n : Fin 96) (t : Fin 4) (rd rs1 : Fin 16) (imm : BitVec 18) (s : State), Issues s n t (encI major rd rs1 imm.toNat) →
    Completes (mk n t rd rs1 imm) s [] (WritesReg n t rd (r (gReg s n t rs1) imm) (flg s n t) s)

/-- A shift: by a register's low five bits, or by an immediate; the last bit shifted out in C, unchanged for a shift of 0. -/
def ShiftRule (fn kind : Nat) (mk : Fin 96 → Fin 4 → Fin 16 → Fin 16 → Fin 16 → Bool → Instr)
    (mkI : Fin 96 → Fin 4 → Fin 16 → Fin 16 → BitVec 5 → Bool → Instr) (r : Word → Nat → Word) (out : Word → Nat → Bool) :
    Prop :=
  ∀ (n : Fin 96) (t : Fin 4) (rd rs1 rs2 : Fin 16) (sh : BitVec 5) (f : Bool) (s : State),
    (Issues s n t (encR 0 rd rs1 rs2 f fn 0) → (gReg s n t rs2).toNat % 32 = sh.toNat →
      Completes (mk n t rd rs1 rs2 f) s [] (WritesReg n t rd (r (gReg s n t rs1) sh.toNat)
        (if f then fl4 (r (gReg s n t rs1) sh.toNat) (if sh = 0 then (flg s n t).c else out (gReg s n t rs1) sh.toNat)
           (flg s n t).v
         else flg s n t) s)) ∧
    (Issues s n t (encSH rd rs1 kind f sh.toNat) →
      Completes (mkI n t rd rs1 sh f) s [] (WritesReg n t rd (r (gReg s n t rs1) sh.toNat)
        (if f then fl4 (r (gReg s n t rs1) sh.toNat) (if sh = 0 then (flg s n t).c else out (gReg s n t rs1) sh.toNat)
           (flg s n t).v
         else flg s n t) s))

/-- Integer arithmetic (R176, R177): sums and differences modulo 2^32 with carry, borrow and signed overflow, minima and maxima,
products, leading zeros and ones; CMP and CMPI write the flags of a difference and no register. With F = 0 the flags are
unchanged, but for CMP and CMPI.
Logic, moves and shifts (R174, R176, R177): the bitwise results, the immediates extended as stated, the shifts and rotates by
five bits with the last bit shifted out in C; TST writes the flags of an AND and no register. -/
def Obligations.IntegerAndLogicOperations : Prop :=
  AluRule 1 .iAdd (fun a b _ => a + b) (fun a b _ => decide (2 ^ 32 ≤ a.toNat + b.toNat))
    (fun a b _ => a.msb == b.msb && (a + b).msb != a.msb) ∧
  AluRule 2 .iSub (fun a b _ => a - b) (fun a b _ => decide (a.toNat < b.toNat))
    (fun a b _ => a.msb != b.msb && (a - b).msb != a.msb) ∧
  AluRule 3 .iAdc (fun a b c => a + b + (if c then 1 else 0)) (fun a b f => decide (2 ^ 32 ≤ a.toNat + b.toNat + f.c.toNat))
    (fun a b f => a.msb == b.msb && (a + b + (if f.c then 1 else 0)).msb != a.msb) ∧
  AluRule 4 .iSbc (fun a b c => a - b - (if c then 1 else 0)) (fun a b f => decide (a.toNat < b.toNat + f.c.toNat))
    (fun a b f => a.msb != b.msb && (a - b - (if f.c then 1 else 0)).msb != a.msb) ∧
  AluRule 13 .iMin (fun a b _ => if a.slt b then a else b) keepC keepV ∧
  AluRule 14 .iMax (fun a b _ => if a.slt b then b else a) keepC keepV ∧
  AluRule 15 .iMinu (fun a b _ => if a < b then a else b) keepC keepV ∧
  AluRule 16 .iMaxu (fun a b _ => if a < b then b else a) keepC keepV ∧
  AluRule 17 .iMul (fun a b _ => a * b) keepC keepV ∧
  AluRule 18 .iMulh (fun a b _ => ((a.signExtend 64 * b.signExtend 64) >>> 32).setWidth 32) keepC keepV ∧
  AluRule 19 .iMulhu (fun a b _ => ((a.zeroExtend 64 * b.zeroExtend 64) >>> 32).setWidth 32) keepC keepV ∧
  UnaryRule 20 .iClz (fun a => a.clz) ∧
  UnaryRule 21 .iPopc (fun a => BitVec.ofNat 32 ((List.finRange 32).countP fun i => a[i])) ∧
  (∀ (n : Fin 96) (t : Fin 4) (rs1 rs2 : Fin 16) (f : Bool) (s : State), Issues s n t (encR 0 0 rs1 rs2 f 22 0) →
    Completes (.iCmp n t rs1 rs2 f) s [] (WritesFlags n t (fl4 (gReg s n t rs1 - gReg s n t rs2)
      (decide ((gReg s n t rs1).toNat < (gReg s n t rs2).toNat))
      ((gReg s n t rs1).msb != (gReg s n t rs2).msb && (gReg s n t rs1 - gReg s n t rs2).msb != (gReg s n t rs1).msb)) s)) ∧
  (∀ (n : Fin 96) (t : Fin 4) (rs1 : Fin 16) (imm : BitVec 18) (s : State), Issues s n t (encI 5 0 rs1 imm.toNat) →
    Completes (.iCmpi n t rs1 imm) s [] (WritesFlags n t (fl4 (gReg s n t rs1 - imm.signExtend 32)
      (decide ((gReg s n t rs1).toNat < (imm.signExtend 32).toNat))
      ((gReg s n t rs1).msb != imm.msb && (gReg s n t rs1 - imm.signExtend 32).msb != (gReg s n t rs1).msb)) s)) ∧
  ImmRule 1 .iAddi (fun a i => a + i.signExtend 32) ∧
  AluRule 5 .iAnd (fun a b _ => a &&& b) keepC keepV ∧
  AluRule 6 .iOr (fun a b _ => a ||| b) keepC keepV ∧
  AluRule 7 .iXor (fun a b _ => a ^^^ b) keepC keepV ∧
  AluRule 8 .iAndn (fun a b _ => a &&& ~~~b) keepC keepV ∧
  (∀ (n : Fin 96) (t : Fin 4) (rs1 rs2 : Fin 16) (f : Bool) (s : State), Issues s n t (encR 0 0 rs1 rs2 f 23 0) →
    Completes (.iTst n t rs1 rs2 f) s []
      (WritesFlags n t (fl4 (gReg s n t rs1 &&& gReg s n t rs2) (flg s n t).c (flg s n t).v) s)) ∧
  ImmRule 2 .iAndi (fun a i => a &&& i.zeroExtend 32) ∧
  ImmRule 3 .iOri (fun a i => a ||| i.zeroExtend 32) ∧
  ImmRule 4 .iXori (fun a i => a ^^^ i.zeroExtend 32) ∧
  (∀ (n : Fin 96) (t : Fin 4) (rd : Fin 16) (imm : BitVec 18) (s : State), Issues s n t (encI 7 rd 0 imm.toNat) →
    Completes (.iMovi n t rd imm) s [] (WritesReg n t rd (imm.signExtend 32) (flg s n t) s)) ∧
  (∀ (n : Fin 96) (t : Fin 4) (rd : Fin 16) (imm : BitVec 16) (s : State), Issues s n t (encI 8 rd 0 imm.toNat) →
    Completes (.iMovh n t rd imm) s []
      (WritesReg n t rd (BitVec.ofNat 32 (imm.toNat * 2 ^ 16 + (gReg s n t rd).toNat % 2 ^ 16)) (flg s n t) s)) ∧
  ShiftRule 9 0 .iShl .iShli (fun a k => a * BitVec.ofNat 32 (2 ^ k)) (fun a k => a.getLsbD (32 - k)) ∧
  ShiftRule 10 1 .iShr .iShri (fun a k => BitVec.ofNat 32 (a.toNat / 2 ^ k)) (fun a k => a.getLsbD (k - 1)) ∧
  ShiftRule 11 2 .iSar .iSari (fun a k => BitVec.ofInt 32 (a.toInt / 2 ^ k)) (fun a k => a.getLsbD (k - 1)) ∧
  ShiftRule 12 3 .iRor .iRori (fun a k => BitVec.ofNat 32 (a.toNat / 2 ^ k + a.toNat * 2 ^ (32 - k)))
    (fun a k => a.getLsbD (k - 1))

/-- x limited to the signed range of w bits. -/
def satW (w : Nat) (x : Int) : Int := max (-(2 ^ (w - 1))) (min (2 ^ (w - 1) - 1) x)

/-- A Q operation: the result of limiting exact values, V and QSAT.STICKY telling whether one was limited (R176, R178). -/
def QRule (fn low : Nat) (mk : Fin 96 → Fin 4 → Fin 16 → Fin 16 → Fin 16 → Bool → Instr) (even : Bool)
    (r : Word → Word → Word → Word) (lim : Word → Word → Word → Bool) : Prop :=
  ∀ (n : Fin 96) (t : Fin 4) (rd rs1 rs2 : Fin 16) (f : Bool) (s : State), Issues s n t (encR 12 rd rs1 rs2 f fn low) →
    (even = true → rs2.val % 2 = 0) →
    Completes (mk n t rd rs1 rs2 f) s [] fun u =>
      gReg u n t rd = r (gReg s n t rs1) (gReg s n t rs2) (gReg s n t (rs2 + 1))
      ∧ OnlyGs n t [rd] { goesOn (thread s n t)
            (if f then fl4 (r (gReg s n t rs1) (gReg s n t rs2) (gReg s n t (rs2 + 1))) (flg s n t).c
                (lim (gReg s n t rs1) (gReg s n t rs2) (gReg s n t (rs2 + 1)))
             else flg s n t) (pc4 s n t) with
          qsat := (thread s n t).qsat || lim (gReg s n t rs1) (gReg s n t rs2) (gReg s n t (rs2 + 1)) } s u

/-- The signed lower and upper half of a word. -/
def half0 (a : Word) : Int := (a.setWidth 16).toInt
def half1 (a : Word) : Int := ((a >>> 16).setWidth 16).toInt

/-- A word from two signed halves. -/
def fromHalves (lo hi : Int) : Word := BitVec.ofInt 32 (hi * 65536 + lo % 65536)

/-- Saturating, fixed-point and clamp operations (R178): each computes exactly and limits to 16 or 32 bits, to [lo, hi] or to N
bits; a limited result sets QSAT.STICKY whatever F is, and V where F = 1. A word with rs2 other than 0000 for SNEG or SABS, or with
an odd rs2 for CLAMP or CLAMPU, is not legal and never issues. -/
def Obligations.SaturatingArithmetic : Prop :=
  QRule 1 0 .iSadd false (fun a b _ => BitVec.ofInt 32 (satW 32 (a.toInt + b.toInt)))
    (fun a b _ => satW 32 (a.toInt + b.toInt) != a.toInt + b.toInt) ∧
  QRule 2 0 .iSsub false (fun a b _ => BitVec.ofInt 32 (satW 32 (a.toInt - b.toInt)))
    (fun a b _ => satW 32 (a.toInt - b.toInt) != a.toInt - b.toInt) ∧
  QRule 3 0 .iSaddh2 false (fun a b _ => fromHalves (satW 16 (half0 a + half0 b)) (satW 16 (half1 a + half1 b)))
    (fun a b _ => satW 16 (half0 a + half0 b) != half0 a + half0 b || satW 16 (half1 a + half1 b) != half1 a + half1 b) ∧
  QRule 4 0 .iSsubh2 false (fun a b _ => fromHalves (satW 16 (half0 a - half0 b)) (satW 16 (half1 a - half1 b)))
    (fun a b _ => satW 16 (half0 a - half0 b) != half0 a - half0 b || satW 16 (half1 a - half1 b) != half1 a - half1 b) ∧
  QRule 5 0 .iFmul15 false (fun a b _ => BitVec.ofInt 32 (satW 16 ((half0 a * half0 b + 0x4000) / 2 ^ 15)))
    (fun a b _ => satW 16 ((half0 a * half0 b + 0x4000) / 2 ^ 15) != (half0 a * half0 b + 0x4000) / 2 ^ 15) ∧
  QRule 6 0 .iFmul31 false (fun a b _ => BitVec.ofInt 32 (satW 32 ((a.toInt * b.toInt + 2 ^ 30) / 2 ^ 31)))
    (fun a b _ => satW 32 ((a.toInt * b.toInt + 2 ^ 30) / 2 ^ 31) != (a.toInt * b.toInt + 2 ^ 30) / 2 ^ 31) ∧
  QRule 7 0 (fun n t rd rs1 _ f => .iSneg n t rd rs1 f) false (fun a _ _ => BitVec.ofInt 32 (satW 32 (-a.toInt)))
    (fun a _ _ => satW 32 (-a.toInt) != -a.toInt) ∧
  QRule 8 0 (fun n t rd rs1 _ f => .iSabs n t rd rs1 f) false (fun a _ _ => BitVec.ofInt 32 (satW 32 a.toInt.natAbs))
    (fun a _ _ => satW 32 a.toInt.natAbs != a.toInt.natAbs) ∧
  QRule 9 0 .iClamp true
    (fun a lo hi => if hi.slt lo then hi else BitVec.ofInt 32 (min (max a.toInt lo.toInt) hi.toInt))
    (fun a lo hi => a != (if hi.slt lo then hi else BitVec.ofInt 32 (min (max a.toInt lo.toInt) hi.toInt))) ∧
  QRule 10 0 .iClampu true
    (fun a lo hi => if hi < lo then hi else BitVec.ofNat 32 (min (max a.toNat lo.toNat) hi.toNat))
    (fun a lo hi => a != (if hi < lo then hi else BitVec.ofNat 32 (min (max a.toNat lo.toNat) hi.toNat))) ∧
  (∀ m : BitVec 5, QRule 11 m.toNat (fun n t rd rs1 rs2 f => .iLims n t rd rs1 rs2 f m) false
    (fun a _ _ => BitVec.ofInt 32 (satW (m.toNat + 1) a.toInt)) (fun a _ _ => satW (m.toNat + 1) a.toInt != a.toInt)) ∧
  (∀ m : BitVec 5, QRule 12 m.toNat (fun n t rd rs1 rs2 f => .iLimu n t rd rs1 rs2 f m) false
    (fun a _ _ => BitVec.ofInt 32 (max 0 (min (2 ^ (m.toNat + 1) - 1) a.toInt)))
    (fun a _ _ => max 0 (min (2 ^ (m.toNat + 1) - 1) a.toInt) != a.toInt)) ∧
  (∀ (fn : Nat) (rd rs1 rs2 : Fin 16) (f : Bool) (n : Fin 96) (t : Fin 4) (s : State), fn = 7 ∨ fn = 8 → rs2 ≠ 0 →
    legalWord (encR 12 rd rs1 rs2 f fn 0) = false ∧ canIssue s n t (encR 12 rd rs1 rs2 f fn 0) = false) ∧
  (∀ (fn : Nat) (rd rs1 rs2 : Fin 16) (f : Bool) (n : Fin 96) (t : Fin 4) (s : State), fn = 9 ∨ fn = 10 → rs2.val % 2 = 1 →
    legalWord (encR 12 rd rs1 rs2 f fn 0) = false ∧ canIssue s n t (encR 12 rd rs1 rs2 f fn 0) = false)

/-- An accumulator operation: the signed value of the accumulator as a function of the old one and two registers. -/
def MacRule (fn : Nat) (mk : Fin 96 → Fin 4 → Fin 16 → Fin 16 → Fin 4 → Instr) (r : BitVec 72 → Word → Word → BitVec 72) : Prop :=
  ∀ (n : Fin 96) (t : Fin 4) (rs1 rs2 : Fin 16) (acc : Fin 4) (s : State), Issues s n t (encA 0 rs1 rs2 acc fn 0) →
    Completes (mk n t rs1 rs2 acc) s [] fun u =>
      aReg u n t acc = r (aReg s n t acc) (gReg s n t rs1) (gReg s n t rs2)
      ∧ (∀ j, j ≠ acc.val → aReg u n t j = aReg s n t j) ∧ OnlyThread n t s u
      ∧ thread u n t = { goesOn (thread s n t) (flg s n t) (pc4 s n t) with acc := (thread u n t).acc }

/-- A read of an accumulator into rd; a saturation sets QSAT.STICKY; flags unchanged. -/
def AccReadRule (fn : Nat) (mk : Fin 96 → Fin 4 → Fin 16 → Fin 16 → Fin 16 → Fin 4 → BitVec 6 → Instr)
    (r : BitVec 72 → Nat → Word) (lim : BitVec 72 → Nat → Bool) : Prop :=
  ∀ (n : Fin 96) (t : Fin 4) (rd rs1 rs2 : Fin 16) (acc : Fin 4) (sh : BitVec 6) (s : State),
    Issues s n t (encA rd rs1 rs2 acc fn sh.toNat) →
    Completes (mk n t rd rs1 rs2 acc sh) s [] fun u =>
      gReg u n t rd = r (aReg s n t acc) sh.toNat
      ∧ OnlyGs n t [rd] { goesOn (thread s n t) (flg s n t) (pc4 s n t) with
          qsat := (thread s n t).qsat || lim (aReg s n t acc) sh.toNat } s u

/-- a + 2^(SH − 1) >> SH, or a for SH 0. -/
def ardRound (a : BitVec 72) (sh : Nat) : Int := if sh = 0 then a.toInt else (a.toInt + 2 ^ (sh - 1)) / 2 ^ sh

/-- Accumulator operations (R179): products added, subtracted or set modulo 2^72, parts written, and reads rounded, cut or of the
guard bits; flags unchanged; ARD sets QSAT.STICKY when it saturates. A word with a non-zero SH for any but ARD and ARDT, or with rs1
or rs2 other than 0000 for ACLR, is not legal and never issues. -/
def Obligations.AccumulatorOperations : Prop :=
  MacRule 1 .iMac (fun x a b => x + a.signExtend 72 * b.signExtend 72) ∧
  MacRule 2 .iMsu (fun x a b => x - a.signExtend 72 * b.signExtend 72) ∧
  MacRule 3 .iMacu (fun x a b => x + a.zeroExtend 72 * b.zeroExtend 72) ∧
  MacRule 4 .iMz (fun _ a b => a.signExtend 72 * b.signExtend 72) ∧
  MacRule 5 .iMac2h (fun x a b => x + BitVec.ofInt 72 (half0 a * half0 b + half1 a * half1 b)) ∧
  (∀ (n : Fin 96) (t : Fin 4) (acc : Fin 4) (s : State), Issues s n t (encA 0 0 0 acc 7 0) →
    Completes (.iAclr n t acc) s [] fun u =>
      aReg u n t acc = 0 ∧ (∀ j, j ≠ acc.val → aReg u n t j = aReg s n t j) ∧ OnlyThread n t s u
      ∧ thread u n t = { goesOn (thread s n t) (flg s n t) (pc4 s n t) with acc := (thread u n t).acc }) ∧
  MacRule 8 .iAwl (fun x a _ => BitVec.ofNat 72 (x.toNat / 2 ^ 32 * 2 ^ 32 + a.toNat)) ∧
  MacRule 9 .iAwh (fun x a _ => BitVec.ofNat 72 (x.toNat / 2 ^ 64 * 2 ^ 64 + a.toNat * 2 ^ 32 + x.toNat % 2 ^ 32)) ∧
  MacRule 10 .iAwg (fun x a _ => BitVec.ofNat 72 (a.toNat % 2 ^ 8 * 2 ^ 64 + x.toNat % 2 ^ 64)) ∧
  AccReadRule 11 .iArd (fun x k => BitVec.ofInt 32 (satW 32 (ardRound x k))) (fun x k => satW 32 (ardRound x k) != ardRound x k) ∧
  AccReadRule 12 .iArdt (fun x k => BitVec.ofInt 32 (x.toInt / 2 ^ k)) (fun _ _ => false) ∧
  (∀ (n : Fin 96) (t : Fin 4) (rd rs1 rs2 : Fin 16) (acc : Fin 4) (s : State), Issues s n t (encA rd rs1 rs2 acc 13 0) →
    Completes (.iArg n t rd rs1 rs2 acc) s []
      (WritesReg n t rd (BitVec.ofInt 32 ((aReg s n t acc).toInt / 2 ^ 64)) (flg s n t) s)) ∧
  (∀ (fn : Fin 14) (rd rs1 rs2 : Fin 16) (acc : Fin 4) (sh : BitVec 6) (n : Fin 96) (t : Fin 4) (s : State),
    fn.val ≠ 11 ∧ fn.val ≠ 12 ∧ sh ≠ 0 ∨ fn = 7 ∧ (rs1 ≠ 0 ∨ rs2 ≠ 0) →
    legalWord (encA rd rs1 rs2 acc fn sh.toNat) = false ∧ canIssue s n t (encA rd rs1 rs2 acc fn sh.toNat) = false)

/-- The loads LB, LBU, LH, LHU, LW and LD, in the order of their majors from 0x10. -/
def loadOf (l : Fin 6) (n : Fin 96) (t : Fin 4) (rd base : Fin 16) (imm : BitVec 18) (ecc : Fin 3) : Instr :=
  match l with
  | 0 => .iLb n t rd base imm ecc
  | 1 => .iLbu n t rd base imm ecc
  | 2 => .iLh n t rd base imm ecc
  | 3 => .iLhu n t rd base imm ecc
  | 4 => .iLw n t rd base imm ecc
  | 5 => .iLd n t rd base imm ecc

/-- Their widths in bytes. -/
def loadWidth (l : Fin 6) : Nat := [1, 1, 2, 2, 4, 8].getD l 8

/-- What the loads of one register make of the bytes at the address: sign-extended or zero-extended. -/
def loadValue (l : Fin 6) (v : Nat) : Word :=
  match l with
  | 0 => (BitVec.ofNat 8 v).signExtend 32
  | 2 => (BitVec.ofNat 16 v).signExtend 32
  | _ => BitVec.ofNat 32 v

/-- The stores SB, SH, SW and SD, in the order of their majors from 0x18; their width is 2 to the power of their place. -/
def storeOf (l : Fin 4) (n : Fin 96) (t : Fin 4) (rs base : Fin 16) (imm : BitVec 18) (ecc : Fin 3) : Instr :=
  match l with
  | 0 => .iSb n t rs base imm ecc
  | 1 => .iSh n t rs base imm ecc
  | 2 => .iSw n t rs base imm ecc
  | 3 => .iSd n t rs base imm ecc

/-- The value of `w` bytes at byte address `b` of a scratchpad, the lowest byte at the lowest address. -/
def spBytes (s : State) (n b w : Nat) : Nat := ((List.range w).map fun i => spByte s n (b + i) * 256 ^ i).sum

/-- The local address of an access (R180). -/
def localAddr (s : State) (n t base : Nat) (imm : BitVec 18) : Nat := (gReg s n t base + imm.signExtend 32).toNat

/-- No watchpoint matches the access. -/
abbrev Unwatched (s : State) (n t a w : Nat) (store : Bool) : Prop := ∀ i, i < 2 → wpHit s n t i a w store = false

/-- Byte i of what a store writes: of one register, or of a pair. -/
def storeByte (s : State) (n t rs i : Nat) : Nat := bits (gReg s n t (rs + i / 4)).toNat (8 * (i % 4)) 8

/-- A byte merged by a plain store, a bit-set one or a bit-clear one (R161). -/
def aliasByte (mode : Fin 3) (old new : Nat) : Nat :=
  match mode with
  | 0 => new
  | 1 => old ||| new
  | 2 => old &&& (255 - new)

/-- Loads and stores (R160, R161, R164, R180, R190): a load of the scratchpad, plainly or through an alias, writes what its bytes
say; a store changes the bytes it covers and no other, an alias store setting or clearing bits, and a full plain store clears
the poison mark of its word; a window access is queued, at most 16 of them, a load blocking its thread; a misaligned address
faults with ALIGN, one in no range with ADDR, a load or a narrow or alias store of a poisoned word with SP_POISON. -/
def Obligations.LoadsAndStores : Prop :=
  (∀ (l : Fin 6) (n : Fin 96) (t : Fin 4) (rd base : Fin 16) (imm : BitVec 18) (mode : Fin 3) (b : Nat) (s : State),
    Issues s n t (encI (16 + l) rd base imm.toNat) → l ≠ 5 → b < 65536 → localAddr s n t base imm = mode * 0x20000 + b →
    b % loadWidth l = 0 → spPoisoned s n (b / 8) = false → Unwatched s n t (mode * 0x20000 + b) (loadWidth l) false →
    Completes (loadOf l n t rd base imm 0) s []
      (WritesReg n t rd (loadValue l (spBytes s n b (loadWidth l))) (flg s n t) s)) ∧
  (∀ (n : Fin 96) (t : Fin 4) (rd base : Fin 16) (imm : BitVec 18) (mode : Fin 3) (b : Nat) (s : State),
    Issues s n t (encI 21 rd base imm.toNat) → b < 65536 → localAddr s n t base imm = mode * 0x20000 + b →
    b % 8 = 0 → spPoisoned s n (b / 8) = false → Unwatched s n t (mode * 0x20000 + b) 8 false →
    Completes (.iLd n t rd base imm 0) s [] fun u =>
      gReg u n t rd = BitVec.ofNat 32 (spBytes s n b 4) ∧ gReg u n t (rd + 1) = BitVec.ofNat 32 (spBytes s n (b + 4) 4)
      ∧ OnlyGs n t [rd, rd + 1] (goesOn (thread s n t) (flg s n t) (pc4 s n t)) s u) ∧
  (∀ (l : Fin 4) (n : Fin 96) (t : Fin 4) (rs base : Fin 16) (imm : BitVec 18) (mode : Fin 3) (b : Nat) (s : State),
    Issues s n t (encI (24 + l) rs base imm.toNat) → b < 65536 → localAddr s n t base imm = mode * 0x20000 + b →
    b % 2 ^ l.val = 0 → (spPoisoned s n (b / 8) = false ∨ (mode = 0 ∧ l = 3)) →
    Unwatched s n t (mode * 0x20000 + b) (2 ^ l.val) true →
    Completes (storeOf l n t rs base imm 0) s [] fun u =>
      (∀ j, j < 65536 → spByte u n j =
        if b ≤ j ∧ j < b + 2 ^ l.val then aliasByte mode (spByte s n j) (storeByte s n t rs (j - b)) else spByte s n j)
      ∧ (∀ j, j < 8192 → spPoisoned u n j = if mode = 0 ∧ l = 3 ∧ j = b / 8 then false else spPoisoned s n j)
      ∧ thread u n t = goesOn (thread s n t) (flg s n t) (pc4 s n t) ∧ (∀ j, j ≠ t.val → thread u n j = thread s n j)
      ∧ engine u n = { engine s n with threads := (engine u n).threads, sp := (engine u n).sp, spPoison := (engine u n).spPoison }
      ∧ (∀ m, m ≠ n.val → engine u m = engine s m) ∧ OnlyParts [.engines] s u) ∧
  (∀ (l : Fin 6) (n : Fin 96) (t : Fin 4) (rd base : Fin 16) (imm : BitVec 18) (ecc : Fin 3) (s : State),
    Issues s n t (encI (16 + l) rd base imm.toNat) → localAddr s n t base imm % loadWidth l ≠ 0 →
    Faults (loadOf l n t rd base imm ecc) n t 3 s) ∧
  (∀ (l : Fin 4) (n : Fin 96) (t : Fin 4) (rs base : Fin 16) (imm : BitVec 18) (ecc : Fin 3) (s : State),
    Issues s n t (encI (24 + l) rs base imm.toNat) → localAddr s n t base imm % 2 ^ l.val ≠ 0 →
    Faults (storeOf l n t rs base imm ecc) n t 3 s) ∧
  (∀ (l : Fin 6) (n : Fin 96) (t : Fin 4) (rd base : Fin 16) (imm : BitVec 18) (ecc : Fin 3) (s : State),
    Issues s n t (encI (16 + l) rd base imm.toNat) → localAddr s n t base imm % loadWidth l = 0 →
    localAddr s n t base imm < 0x80000000 → localAddr s n t base imm / 0x10000 ∉ [0, 2, 4] →
    Faults (loadOf l n t rd base imm ecc) n t 5 s) ∧
  (∀ (l : Fin 4) (n : Fin 96) (t : Fin 4) (rs base : Fin 16) (imm : BitVec 18) (ecc : Fin 3) (s : State),
    Issues s n t (encI (24 + l) rs base imm.toNat) → localAddr s n t base imm % 2 ^ l.val = 0 →
    localAddr s n t base imm < 0x80000000 → localAddr s n t base imm / 0x10000 ∉ [0, 2, 4] →
    Faults (storeOf l n t rs base imm ecc) n t 5 s) ∧
  (∀ (l : Fin 6) (n : Fin 96) (t : Fin 4) (rd base : Fin 16) (imm : BitVec 18) (ecc : Fin 3) (mode : Fin 3) (b : Nat) (s : State),
    Issues s n t (encI (16 + l) rd base imm.toNat) → b < 65536 → localAddr s n t base imm = mode * 0x20000 + b →
    b % loadWidth l = 0 → spPoisoned s n (b / 8) = true → Faults (loadOf l n t rd base imm ecc) n t 4 s) ∧
  (∀ (l : Fin 4) (n : Fin 96) (t : Fin 4) (rs base : Fin 16) (imm : BitVec 18) (ecc : Fin 3) (mode : Fin 3) (b : Nat) (s : State),
    Issues s n t (encI (24 + l) rs base imm.toNat) → b < 65536 → localAddr s n t base imm = mode * 0x20000 + b →
    b % 2 ^ l.val = 0 → spPoisoned s n (b / 8) = true → ¬(mode = 0 ∧ l = 3) →
    Faults (storeOf l n t rs base imm ecc) n t 4 s) ∧
  (∀ (l : Fin 6) (n : Fin 96) (t : Fin 4) (rd base : Fin 16) (imm : BitVec 18) (ecc : Fin 3) (w : Fin 8) (off : BitVec 28)
      (s : State), Issues s n t (encI (16 + l) rd base imm.toNat) →
    localAddr s n t base imm = 0x80000000 + w * 0x10000000 + off.toNat → off.toNat % loadWidth l = 0 →
    Unwatched s n t (0x80000000 + w * 0x10000000 + off.toNat) (loadWidth l) false →
    ((engine s n).win.length < 16 → Completes (loadOf l n t rd base imm ecc) s [] fun u =>
      (engine u n).win = (engine s n).win ++ [⟨t, false, w, off.toNat, fld s (F.ENG_n_WINw_BASE n w) * 0x10000 + off.toNat,
          winPre s n w off.toNat, loadWidth l, l == 0 || l == 2, rd, 0⟩]
      ∧ thread u n t = { thread s n t with blk := .load } ∧ (∀ j, j ≠ t.val → thread u n j = thread s n j)
      ∧ engine u n = { engine s n with threads := (engine u n).threads, win := (engine u n).win }
      ∧ (∀ m, m ≠ n.val → engine u m = engine s m) ∧ OnlyParts [.engines] s u)
    ∧ (16 ≤ (engine s n).win.length → Completes (loadOf l n t rd base imm ecc) s [] fun u => u = s)) ∧
  (∀ (l : Fin 4) (n : Fin 96) (t : Fin 4) (rs base : Fin 16) (imm : BitVec 18) (ecc : Fin 3) (w : Fin 8) (off : BitVec 28)
      (s : State), Issues s n t (encI (24 + l) rs base imm.toNat) →
    localAddr s n t base imm = 0x80000000 + w * 0x10000000 + off.toNat → off.toNat % 2 ^ l.val = 0 →
    Unwatched s n t (0x80000000 + w * 0x10000000 + off.toNat) (2 ^ l.val) true →
    ((engine s n).win.length < 16 → Completes (storeOf l n t rs base imm ecc) s [] fun u =>
      (engine u n).win = (engine s n).win ++ [⟨t, true, w, off.toNat, fld s (F.ENG_n_WINw_BASE n w) * 0x10000 + off.toNat,
          winPre s n w off.toNat, 2 ^ l.val, false, rs, ((List.range (2 ^ l.val)).map fun i => storeByte s n t rs i * 256 ^ i).sum⟩]
      ∧ thread u n t = goesOn (thread s n t) (flg s n t) (pc4 s n t) ∧ (∀ j, j ≠ t.val → thread u n j = thread s n j)
      ∧ engine u n = { engine s n with threads := (engine u n).threads, win := (engine u n).win }
      ∧ (∀ m, m ≠ n.val → engine u m = engine s m) ∧ OnlyParts [.engines] s u)
    ∧ (16 ≤ (engine s n).win.length → Completes (storeOf l n t rs base imm ecc) s [] fun u => u = s))

/-- The test that bits [2:0] of a condition name (R182). -/
def condTest (f : Flg) (c : Nat) : Bool := [f.z, f.n, f.c, f.v, f.c || f.z, f.n != f.v, f.z || f.n != f.v, true].getD c true

/-- PC + 4 times a signed offset in words, modulo 2^32. -/
def branchTarget (s : State) (n t : Nat) (off : Int) : Nat := (((thread s n t).pc : Int) + 4 * off).toNat % 2 ^ 32

/-- Control registers (R187, R188): CSRR returns the register, RT_LO latching RT_HI and WAKEMSG removing the oldest message; CSRW
writes, CSRS sets and CSRC clears bits; the high word of a target commits the staged low one; NOTIFY is set only, with event
0x1805 for each bit that rises; a register not listed, a write of an RO one, and CSRS or CSRC of WAKEMSG fault with CSR. -/
def Obligations.ControlRegisters : Prop :=
  (∀ (n : Fin 96) (t : Fin 4) (rd : Fin 16) (s : State), Issues s n t (encC rd 0 0 0x001) →
    Completes (.iCsrr n t rd 0x001) s [] (WritesReg n t rd (BitVec.ofNat 32 (t.val + 4 * n.val)) (flg s n t) s)) ∧
  (∀ (n : Fin 96) (t : Fin 4) (rd : Fin 16) (s : State), Issues s n t (encC rd 0 0 0x000) →
    Completes (.iCsrr n t rd 0x000) s [] (WritesReg n t rd (BitVec.ofBool (flg s n t).v ++ BitVec.ofBool (flg s n t).c
      ++ BitVec.ofBool (flg s n t).n ++ BitVec.ofBool (flg s n t).z |>.setWidth 32) (flg s n t) s)) ∧
  (∀ (n : Fin 96) (t : Fin 4) (rd : Fin 16) (s : State), Issues s n t (encC rd 0 0 0x004) →
    Completes (.iCsrr n t rd 0x004) s [] fun u =>
      gReg u n t rd = BitVec.ofNat 32 (if rtValid s then now s else 0)
      ∧ (engine u n).rtHi = (if rtValid s then now s / 2 ^ 32 else 0)
      ∧ (∀ i, i ≠ rd.val → gReg u n t i = gReg s n t i) ∧ thread u n t = { goesOn (thread s n t) (flg s n t) (pc4 s n t) with g := (thread u n t).g }
      ∧ engine u n = { engine s n with threads := (engine u n).threads, rtHi := (engine u n).rtHi } ∧ OnlyParts [.engines] s u) ∧
  (∀ (n : Fin 96) (t : Fin 4) (rd : Fin 16) (m : Nat) (q : List Nat) (s : State), Issues s n t (encC rd 0 0 0x010) →
    (engine s n).wakeq = m :: q →
    Completes (.iCsrr n t rd 0x010) s [] fun u =>
      gReg u n t rd = BitVec.ofNat 32 m ∧ (engine u n).wakeq = q ∧ (flg u n t) = { flg s n t with z := false }
      ∧ engine u n = { engine s n with threads := (engine u n).threads, wakeq := q } ∧ OnlyParts [.engines] s u) ∧
  (∀ (n : Fin 96) (t : Fin 4) (rd : Fin 16) (s : State), Issues s n t (encC rd 0 0 0x010) → (engine s n).wakeq = [] →
    Completes (.iCsrr n t rd 0x010) s [] (WritesReg n t rd 0 { flg s n t with z := true } s)) ∧
  (∀ (n : Fin 96) (t : Fin 4) (rd : Fin 16) (c : BitVec 12) (s : State), Issues s n t (encC rd 0 0 c.toNat) →
    c.toNat ∉ [0x000, 0x001, 0x004, 0x005, 0x008, 0x009, 0x00A, 0x010, 0x011, 0x018, 0x019, 0x020, 0x021, 0x022, 0x024, 0x025, 0x028] →
    (c.toNat < 0x030 ∨ 0x040 ≤ c.toNat) → Faults (.iCsrr n t rd c) n t 6 s) ∧
  (∀ (n : Fin 96) (t : Fin 4) (rs1 : Fin 16) (s : State), Issues s n t (encC 0 rs1 1 0x022) →
    Completes (.iCsrw n t rs1 0x022) s [] fun u => OnlyThread n t s u
      ∧ thread u n t = { goesOn (thread s n t) (flg s n t) (pc4 s n t) with
          tgt := (gReg s n t rs1).toNat % 2 ^ 16 * 2 ^ 32 + (thread s n t).tgtLo }) ∧
  (∀ (n : Fin 96) (t : Fin 4) (rs1 : Fin 16) (s : State), Issues s n t (encC 0 rs1 1 0x021) →
    Completes (.iCsrw n t rs1 0x021) s [] fun u => OnlyThread n t s u
      ∧ thread u n t = { goesOn (thread s n t) (flg s n t) (pc4 s n t) with tgtLo := (gReg s n t rs1).toNat }) ∧
  (∀ (n : Fin 96) (t : Fin 4) (rs1 : Fin 16) (s : State), Issues s n t (encC 0 rs1 1 0x000) →
    Completes (.iCsrw n t rs1 0x000) s [] (WritesFlags n t ⟨(gReg s n t rs1)[0], (gReg s n t rs1)[1], (gReg s n t rs1)[2],
      (gReg s n t rs1)[3]⟩ s)) ∧
  (∀ (n : Fin 96) (t : Fin 4) (rs1 : Fin 16) (w : Fin 8) (s : State), Issues s n t (encC 0 rs1 1 (0x030 + 2 * w)) →
    Completes (.iCsrw n t rs1 (BitVec.ofNat 12 (0x030 + 2 * w))) s [] fun u =>
      fld u (F.ENG_n_WINw_BASE n w) = (gReg s n t rs1).toNat
      ∧ thread u n t = goesOn (thread s n t) (flg s n t) (pc4 s n t) ∧ (∀ j, j ≠ t.val → thread u n j = thread s n j)
      ∧ Only [.engines] [F.ENG_n_WINw_BASE n w] s u) ∧
  (∀ (n : Fin 96) (t : Fin 4) (rd rs1 : Fin 16) (s : State), Issues s n t (encC rd rs1 2 0x018) →
    Completes (.iCsrs n t rd rs1 0x018) s [] fun u =>
      fld u (F.ENG_n_SIGNAL_SIGNAL n) = (fld s (F.ENG_n_SIGNAL_SIGNAL n) ||| (gReg s n t rs1).toNat) % 2 ^ 16
      ∧ thread u n t = goesOn (thread s n t) (flg s n t) (pc4 s n t) ∧ (∀ j, j ≠ t.val → thread u n j = thread s n j)
      ∧ Only [.engines] [F.ENG_n_SIGNAL_SIGNAL n] s u) ∧
  (∀ (n : Fin 96) (t : Fin 4) (rd rs1 : Fin 16) (s : State), Issues s n t (encC rd rs1 2 0x019) →
    Completes (.iCsrs n t rd rs1 0x019) s
        (((List.range 16).filter fun i => (gReg s n t rs1).getLsbD i && !(fld s (F.ENG_n_NOTIFY_NOTIFY n)).testBit i).map
          fun i => ev 0x1805 [(1, n), (1, i)]) fun u =>
      fld u (F.ENG_n_NOTIFY_NOTIFY n) = (fld s (F.ENG_n_NOTIFY_NOTIFY n) ||| (gReg s n t rs1).toNat) % 2 ^ 16
      ∧ thread u n t = goesOn (thread s n t) (flg s n t) (pc4 s n t) ∧ (∀ j, j ≠ t.val → thread u n j = thread s n j)
      ∧ Only [.engines] [F.ENG_n_NOTIFY_NOTIFY n] s u) ∧
  (∀ (n : Fin 96) (t : Fin 4) (rd rs1 : Fin 16) (s : State), Issues s n t (encC rd rs1 3 0x018) →
    Completes (.iCsrc n t rd rs1 0x018) s [] fun u =>
      (∀ i, i < 16 → (fld u (F.ENG_n_SIGNAL_SIGNAL n)).testBit i
          = ((fld s (F.ENG_n_SIGNAL_SIGNAL n)).testBit i && !(gReg s n t rs1).getLsbD i))
      ∧ thread u n t = goesOn (thread s n t) (flg s n t) (pc4 s n t) ∧ (∀ j, j ≠ t.val → thread u n j = thread s n j)
      ∧ Only [.engines] [F.ENG_n_SIGNAL_SIGNAL n] s u) ∧
  (∀ (n : Fin 96) (t : Fin 4) (rd rs1 : Fin 16) (c : BitVec 12) (s : State), Issues s n t (encC rd rs1 3 c.toNat) →
    c.toNat ∈ [0x001, 0x004, 0x005, 0x009, 0x010, 0x011, 0x028] → Faults (.iCsrc n t rd rs1 c) n t 6 s) ∧
  (∀ (n : Fin 96) (t : Fin 4) (rs1 : Fin 16) (c : BitVec 12) (s : State), Issues s n t (encC 0 rs1 1 c.toNat) →
    c.toNat ∈ [0x001, 0x004, 0x005, 0x009, 0x011, 0x028] → Faults (.iCsrw n t rs1 c) n t 6 s)

/-- Branches and jumps (R174, R182): B goes to its target when the test of cond[2:0], inverted by cond[3], holds, else to the next
word; BL leaves the return address in g15; JR goes to rs1; JLR reads rs1 before it writes the return address. Flags unchanged.
Stated for targets of B and BL that do not lie below address 0.
Waits (R185, R153): a wait with an event of its mask pending goes on, else the thread waits, in both cases the mask recorded; a mask
of WAIT that is zero or has a reserved bit is ILLEGAL. -/
def Obligations.BranchesJumpsAndWaits : Prop :=
  (∀ (n : Fin 96) (t : Fin 4) (cond : BitVec 4) (off : BitVec 22) (s : State), Issues s n t (encB cond.toNat off.toNat) →
    0 ≤ ((thread s n t).pc : Int) + 4 * off.toInt →
    Completes (.iB n t cond off) s [] fun u => OnlyThread n t s u
      ∧ thread u n t = goesOn (thread s n t) (flg s n t)
          (if condTest (flg s n t) (cond.toNat % 8) != cond.getLsbD 3 then branchTarget s n t off.toInt else pc4 s n t)) ∧
  (∀ (n : Fin 96) (t : Fin 4) (off : BitVec 26) (s : State), Issues s n t (encL off.toNat) →
    0 ≤ ((thread s n t).pc : Int) + 4 * off.toInt →
    Completes (.iBl n t off) s [] fun u => gReg u n t 15 = BitVec.ofNat 32 (pc4 s n t)
      ∧ OnlyGs n t [15] (goesOn (thread s n t) (flg s n t) (branchTarget s n t off.toInt)) s u) ∧
  (∀ (n : Fin 96) (t : Fin 4) (rs1 : Fin 16) (s : State), Issues s n t (encR 0x22 0 rs1 0 false 0 0) →
    Completes (.iJr n t rs1) s [] fun u => OnlyThread n t s u
      ∧ thread u n t = goesOn (thread s n t) (flg s n t) (gReg s n t rs1).toNat) ∧
  (∀ (n : Fin 96) (t : Fin 4) (rd rs1 : Fin 16) (s : State), Issues s n t (encR 0x23 rd rs1 0 false 0 0) →
    Completes (.iJlr n t rd rs1) s [] fun u => gReg u n t rd = BitVec.ofNat 32 (pc4 s n t)
      ∧ OnlyGs n t [rd] (goesOn (thread s n t) (flg s n t) (gReg s n t rs1).toNat) s u) ∧
  (∀ (n : Fin 96) (t : Fin 4) (a b : Fin 16) (imm : BitVec 14) (s : State), Issues s n t (encS 0x30 a b 1 imm.toNat) →
    gReg s n t b ≠ 0 → bits (gReg s n t b).toNat 12 4 = 0 → (eventsOf s n t &&& (gReg s n t b).toNat) ≠ 0 →
    Completes (.iWait n t a b imm) s [] fun u =>
      fld u (F.ENG_n_Tt_MASK_MASK n t) = (gReg s n t b).toNat ∧ thread u n t = goesOn (thread s n t) (flg s n t) (pc4 s n t)
      ∧ (∀ j, j ≠ t.val → thread u n j = thread s n j) ∧ Only [.engines] [F.ENG_n_Tt_MASK_MASK n t] s u) ∧
  (∀ (n : Fin 96) (t : Fin 4) (a b : Fin 16) (imm : BitVec 14) (s : State), Issues s n t (encS 0x30 a b 1 imm.toNat) →
    gReg s n t b ≠ 0 → bits (gReg s n t b).toNat 12 4 = 0 → (eventsOf s n t &&& (gReg s n t b).toNat) = 0 →
    Completes (.iWait n t a b imm) s [] fun u =>
      fld u (F.ENG_n_Tt_MASK_MASK n t) = (gReg s n t b).toNat ∧ thrState u n t = tWAIT
      ∧ thread u n t = { thread s n t with pc := pc4 s n t, go := false }
      ∧ (∀ j, j ≠ t.val → thread u n j = thread s n j) ∧ (∀ j, j < 4 → j ≠ t.val → thrState u n j = thrState s n j)
      ∧ Only [.engines] [F.ENG_n_Tt_MASK_MASK n t, F.ENG_n_STATUS_THREADS n] s u) ∧
  (∀ (n : Fin 96) (t : Fin 4) (a b : Fin 16) (imm : BitVec 14) (s : State), Issues s n t (encS 0x30 a b 1 imm.toNat) →
    gReg s n t b = 0 ∨ bits (gReg s n t b).toNat 12 4 ≠ 0 → Faults (.iWait n t a b imm) n t 1 s) ∧
  (∀ (n : Fin 96) (t : Fin 4) (a b : Fin 16) (imm : BitVec 14) (s : State), Issues s n t (encS 0x30 a b 2 imm.toNat) →
    (eventsOf s n t &&& imm.toNat) ≠ 0 →
    Completes (.iWaiti n t a b imm) s [] fun u =>
      fld u (F.ENG_n_Tt_MASK_MASK n t) = imm.toNat ∧ thread u n t = goesOn (thread s n t) (flg s n t) (pc4 s n t)
      ∧ (∀ j, j ≠ t.val → thread u n j = thread s n j) ∧ Only [.engines] [F.ENG_n_Tt_MASK_MASK n t] s u) ∧
  (∀ (n : Fin 96) (t : Fin 4) (a b : Fin 16) (imm : BitVec 14) (s : State), Issues s n t (encS 0x30 a b 2 imm.toNat) →
    (eventsOf s n t &&& imm.toNat) = 0 →
    Completes (.iWaiti n t a b imm) s [] fun u =>
      fld u (F.ENG_n_Tt_MASK_MASK n t) = imm.toNat ∧ thrState u n t = tWAIT
      ∧ thread u n t = { thread s n t with pc := pc4 s n t, go := false }
      ∧ (∀ j, j ≠ t.val → thread u n j = thread s n j) ∧ Only [.engines] [F.ENG_n_Tt_MASK_MASK n t, F.ENG_n_STATUS_THREADS n] s u)

/-- FENCE, NOP and BRK (R186, R485, R487): FENCE holds the thread while a window store that it issued is outstanding, and lets it go on
once none is, every failure then standing in ENG_n_WERR, as the answer of a store writes it in the same command; NOP does nothing but
go on; BRK faults the thread with cause BRK, its PC and the word there with IMM unchanged, or halts it while a debugger is attached. -/
def Obligations.FenceNopBrk : Prop :=
  (∀ (n : Fin 96) (t : Fin 4) (a b : Fin 16) (imm : BitVec 14) (s : State), Issues s n t (encS 0x30 a b 0 imm.toNat) →
    Completes (.iNop n t a b imm) s [] fun u => OnlyThread n t s u ∧ thread u n t = goesOn (thread s n t) (flg s n t) (pc4 s n t)) ∧
  (∀ (n : Fin 96) (t : Fin 4) (a b : Fin 16) (imm : BitVec 14) (s : State), Issues s n t (encS 0x30 a b 3 imm.toNat) →
    (∀ q ∈ (engine s n).win, q.store = true → q.thread ≠ t.val) →
    Completes (.iFence n t a b imm) s [] fun u => OnlyThread n t s u ∧ thread u n t = goesOn (thread s n t) (flg s n t) (pc4 s n t)) ∧
  (∀ (n : Fin 96) (t : Fin 4) (a b : Fin 16) (imm : BitVec 14) (q : WinReq) (s : State), Issues s n t (encS 0x30 a b 3 imm.toNat) →
    q ∈ (engine s n).win → q.store = true → q.thread = t.val →
    Completes (.iFence n t a b imm) s [] fun u => OnlyThread n t s u ∧ thread u n t = { thread s n t with blk := .fence }) ∧
  (∀ (n : Fin 96) (t : Fin 4) (a b : Fin 16) (imm : BitVec 14) (s : State), Issues s n t (encS 0x30 a b 4 imm.toNat) →
    flag s (F.DBG_ENGn_CTRL_ATTACH n) = true → flag s (F.DBG_ENGn_CTRL_HALT_ALL n) = false →
    Completes (.iBrk n t a b imm) s [ev 0x1E01 [(1, 4)]] fun u =>
      halted u n t = true ∧ haltCause u n t = 4 ∧ OnlyThread n t { s with regs := u.regs } u ∧ thread u n t = thread s n t
      ∧ Only [.engines] [F.DBG_ENGn_STATUS_HALTED n, F.DBG_ENGn_STATUS_CAUSE n, F.DBG_ENGn_STATUS_PENDING n] s u) ∧
  (∀ (n : Fin 96) (t : Fin 4) (a b : Fin 16) (imm : BitVec 14) (s : State), Issues s n t (encS 0x30 a b 4 imm.toNat) →
    flag s (F.DBG_ENGn_CTRL_ATTACH n) = false → Faults (.iBrk n t a b imm) n t 7 s) ∧
  (∀ (n : Fin 96) (k : Fin 16) (x : AccIn) (q : WinReq) (s : State), Calm s n q.thread → (engine s n).win[k.val]? = some q →
    q.store = true → q.pre ≠ 0 → q.thread < 4 → (thread s n q.thread).blk = .fence → flag s (F.ENG_n_WERR_VALID n) = false →
    Completes (.windowResponse n k x) s [ev 0x1803 [(1, n)]] fun u =>
      fld u (F.ENG_n_WERR_STATUS n) = q.pre % 16 ∧ fld u (F.ENG_n_WERR_WINDOW n) = q.win % 8
      ∧ fld u (F.ENG_n_WERR_OFF_OFFSET n) = q.off % 2 ^ 28 ∧ flag u (F.ENG_n_WERR_VALID n) = true
      ∧ (engine u n).win = (engine s n).win.erase q
      ∧ thread u n q.thread = (if ((engine s n).win.erase q).any (fun p => p.store && p.thread == q.thread) then thread s n q.thread
          else goesOn (thread s n q.thread) (flg s n q.thread) (pc4 s n q.thread))
      ∧ Only [.engines] [F.ENG_n_WERR_STATUS n, F.ENG_n_WERR_WINDOW n, F.ENG_n_WERR_OFF_OFFSET n, F.ENG_n_WERR_VALID n] s u)

/-- Streams and the Timetable (R163, R166, R183, R184): SRD takes the oldest word of its port with its LAST, and waits where there is
none; SWR puts the pair into its port, and waits where it is full; both end DISABLED where the port is off, an SRD writing 0; TTI
and TTIR hand the entry over, or hold the thread while the insert path is held; TTC takes the oldest record, or all ones. -/
def Obligations.StreamsAndInsertion : Prop :=
  (∀ (n : Fin 96) (t : Fin 4) (rd b : Fin 16) (k : Fin 4) (w : Nat) (r : List Nat) (s : State),
    Issues s n t (encS 0x31 rd b 0 (4 + k)) → portOff s n (4 + k) = false → fifo s n (4 + k) = w :: r →
    Completes (.iSrd n t rd b (BitVec.ofNat 14 (4 + k))) s [] fun u =>
      gReg u n t rd = BitVec.ofNat 32 w ∧ gReg u n t (rd + 1) = BitVec.ofNat 32 (w / 2 ^ 32)
      ∧ fifo u n (4 + k) = r ∧ (∀ j, j ≠ 4 + k.val → fifo u n j = fifo s n j)
      ∧ thread u n t = { goesOn (thread s n t) { flg s n t with z := true, c := w.testBit 64 } (pc4 s n t) with
          g := (thread u n t).g, sst := 0, sstLast := w.testBit 64 }
      ∧ (∀ i, i ≠ rd.val → i ≠ rd.val + 1 → gReg u n t i = gReg s n t i) ∧ (∀ j, j ≠ t.val → thread u n j = thread s n j)
      ∧ OnlyParts [.engines] s u) ∧
  (∀ (n : Fin 96) (t : Fin 4) (rd b : Fin 16) (k : Fin 4) (s : State),
    Issues s n t (encS 0x31 rd b 0 (4 + k)) → portOff s n (4 + k) = false → fifo s n (4 + k) = [] →
    Completes (.iSrd n t rd b (BitVec.ofNat 14 (4 + k))) s [] fun u => OnlyThread n t s u
      ∧ thread u n t = { thread s n t with blk := .srd (4 + k) rd }) ∧
  (∀ (n : Fin 96) (t : Fin 4) (rd b : Fin 16) (k : Fin 4) (s : State),
    Issues s n t (encS 0x31 rd b 0 (4 + k)) → portOff s n (4 + k) = true →
    Completes (.iSrd n t rd b (BitVec.ofNat 14 (4 + k))) s [] fun u =>
      gReg u n t rd = 0 ∧ gReg u n t (rd + 1) = 0
      ∧ OnlyGs n t [rd, rd + 1] { goesOn (thread s n t) { flg s n t with z := false, c := false } (pc4 s n t) with
          sst := ST.disabled, sstLast := false } s u) ∧
  (∀ (n : Fin 96) (t : Fin 4) (rs b : Fin 16) (k : Fin 4) (last : Bool) (s : State),
    Issues s n t (encS 0x31 rs b 1 (k + 8 * b2n last)) → portOff s n k = false → (fifo s n k).length < 8 →
    Runs (.iSwr n t rs b (BitVec.ofNat 14 (k + 8 * b2n last))) s fun u =>
      fifo u n k = fifo s n k ++ [(gReg s n t rs).toNat + (gReg s n t (rs + 1)).toNat * 2 ^ 32 + b2n last * 2 ^ 64]
      ∧ (∀ j, j ≠ k.val → fifo u n j = fifo s n j)
      ∧ thread u n t = { goesOn (thread s n t) { flg s n t with z := true } (pc4 s n t) with sst := 0 }
      ∧ (∀ j, j ≠ t.val → thread u n j = thread s n j) ∧ OnlyParts [.engines, .regs, .regions, .dsp, .clk, .pwr] s u) ∧
  (∀ (n : Fin 96) (t : Fin 4) (rs b : Fin 16) (k : Fin 4) (last : Bool) (s : State),
    Issues s n t (encS 0x31 rs b 1 (k + 8 * b2n last)) → portOff s n k = false → 8 ≤ (fifo s n k).length →
    Completes (.iSwr n t rs b (BitVec.ofNat 14 (k + 8 * b2n last))) s [] fun u => OnlyThread n t s u
      ∧ thread u n t = { thread s n t with
          blk := .swr k ((gReg s n t rs).toNat + (gReg s n t (rs + 1)).toNat * 2 ^ 32 + b2n last * 2 ^ 64) }) ∧
  (∀ (n : Fin 96) (t : Fin 4) (rs b : Fin 16) (tag : BitVec 9) (s : State), Issues s n t (encS 0x32 rs b 0 tag.toNat) →
    (engine s n).ttis = [] → engHeld s n = false →
    Completes (.iTti n t rs b (tag.zeroExtend 14)) s [] fun u =>
      u.tt = { s.tt with inflight := s.tt.inflight ++ [⟨.engine n, tag.toNat, (gReg s n t rs).toNat
          + (gReg s n t (rs + 1)).toNat * 2 ^ 32 + (gReg s n t (rs + 2)).toNat * 2 ^ 64 + (gReg s n t (rs + 3)).toNat * 2 ^ 96⟩] }
      ∧ thread u n t = goesOn (thread s n t) (flg s n t) (pc4 s n t) ∧ (∀ j, j ≠ t.val → thread u n j = thread s n j)
      ∧ OnlyParts [.engines, .tt] s u) ∧
  (∀ (n : Fin 96) (t : Fin 4) (rs b : Fin 16) (tag : BitVec 9) (s : State), Issues s n t (encS 0x32 rs b 0 tag.toNat) →
    (engine s n).ttis ≠ [] ∨ engHeld s n = true →
    Completes (.iTti n t rs b (tag.zeroExtend 14)) s [] fun u =>
      (engine u n).ttis = (engine s n).ttis ++ [⟨t, tag.toNat, (gReg s n t rs).toNat
          + (gReg s n t (rs + 1)).toNat * 2 ^ 32 + (gReg s n t (rs + 2)).toNat * 2 ^ 64 + (gReg s n t (rs + 3)).toNat * 2 ^ 96⟩]
      ∧ thread u n t = { thread s n t with blk := .tti } ∧ (∀ j, j ≠ t.val → thread u n j = thread s n j)
      ∧ OnlyParts [.engines] s u) ∧
  (∀ (n : Fin 96) (t : Fin 4) (rs b : Fin 16) (imm : BitVec 14) (s : State), Issues s n t (encS 0x32 rs b 1 imm.toNat) →
    (engine s n).ttis = [] → engHeld s n = false →
    Completes (.iTtir n t rs b imm) s [] fun u =>
      u.tt = { s.tt with inflight := s.tt.inflight ++ [⟨.engine n, (gReg s n t b).toNat % 2 ^ 9, (gReg s n t rs).toNat
          + (gReg s n t (rs + 1)).toNat * 2 ^ 32 + (gReg s n t (rs + 2)).toNat * 2 ^ 64 + (gReg s n t (rs + 3)).toNat * 2 ^ 96⟩] }
      ∧ thread u n t = goesOn (thread s n t) (flg s n t) (pc4 s n t) ∧ (∀ j, j ≠ t.val → thread u n j = thread s n j)
      ∧ OnlyParts [.engines, .tt] s u) ∧
  (∀ (n : Fin 96) (t : Fin 4) (rd b : Fin 16) (imm : BitVec 14) (x : Nat) (q : List Nat) (s : State),
    Issues s n t (encS 0x32 rd b 2 imm.toNat) → engCqOf s n = x :: q → (engine s n).ttis = [] →
    Completes (.iTtc n t rd b imm) s [] fun u =>
      gReg u n t rd = BitVec.ofNat 32 x ∧ engCqOf u n = q ∧ (∀ m, m ≠ n.val → engCqOf u m = engCqOf s m)
      ∧ u.tt = { s.tt with engCq := u.tt.engCq }
      ∧ thread u n t = { goesOn (thread s n t) { flg s n t with z := false } (pc4 s n t) with g := (thread u n t).g }
      ∧ (∀ i, i ≠ rd.val → gReg u n t i = gReg s n t i) ∧ OnlyParts [.engines, .tt] s u) ∧
  (∀ (n : Fin 96) (t : Fin 4) (rd b : Fin 16) (imm : BitVec 14) (s : State),
    Issues s n t (encS 0x32 rd b 2 imm.toNat) → engCqOf s n = [] → (engine s n).ttis = [] →
    Completes (.iTtc n t rd b imm) s [] fun u =>
      gReg u n t rd = 0xFFFFFFFF ∧ (∀ m, engCqOf u m = engCqOf s m)
      ∧ thread u n t = { goesOn (thread s n t) { flg s n t with z := true } (pc4 s n t) with g := (thread u n t).g }
      ∧ (∀ i, i ≠ rd.val → gReg u n t i = gReg s n t i) ∧ OnlyParts [.engines, .tt] s u)

/-- No power entry or wake is in progress, and the clocks of engines and regions are not closed. -/
abbrev PowerSteady (s : State) : Prop := pwrPhase s = 0 ∧ pwrState s = 0 ∧ s.pwr.closed = false

/-- Enabling, starting, waking, gating, stopping and resetting engines (R153, R156, R169, R170): ENABLE starts the threads whose
START bit is set, and has no effect while DRAINING; a START write starts stopped threads and stops running ones at their
boundary; clearing ENABLE stops every thread, and DRAINING reads 1 while a window request is in flight; a pending event takes a
waiting thread to RUN, or asks rail 8 for a gated engine's restart; an engine with nothing to do asks for its gate; SRESET
reads 1 and its reset is asserted with event 0x0101 and recorded.
Exceptions at the fetch (R154, R160, R175, R190): a PC outside the scratchpad or misaligned faults with FETCH, a poisoned word
with SP_POISON, a word that is no instruction with ILLEGAL. -/
def Obligations.EnginesStartStopAndFetch : Prop :=
  (∀ (n : Fin 96) (s : State), Quiet s → PowerSteady s → fld s (F.ENG_n_STATUS_THREADS n) = 0 →
    flag s (F.ENG_n_STATUS_GATED n) = false → (engine s n).gateReq = false → flag s (F.ENG_n_STATUS_DRAINING n) = false →
    engMayEnable s n = true →
    Completes (.engEnable n) s [] fun u =>
      flag u (F.ENG_n_CTRL_ENABLE n) = true
      ∧ (∀ t, t < 4 → thrState u n t = if bitOf (fld s (F.ENG_n_CTRL_START n)) t then tRUN else tSTOPPED)
      ∧ (∀ t i, gReg u n t i = gReg s n t i) ∧ Only [.engines] [F.ENG_n_CTRL_ENABLE n, F.ENG_n_STATUS_THREADS n] s u) ∧
  (∀ (n : Fin 96) (s : State), Quiet s → flag s (F.ENG_n_STATUS_DRAINING n) = true →
    Completes (.engEnable n) s [] fun u => u = s) ∧
  (∀ (n : Fin 96) (v : BitVec 4) (s : State), Quiet s → PowerSteady s → fld s (F.ENG_n_STATUS_THREADS n) = 0 → engOn s n = true →
    flag s (F.ENG_n_STATUS_GATED n) = false → (engine s n).gateReq = false →
    Completes (.engStart n v) s [] fun u =>
      fld u (F.ENG_n_CTRL_START n) = v.toNat ∧ (∀ t, t < 4 → thrState u n t = if bitOf v.toNat t then tRUN else tSTOPPED)
      ∧ (∀ t i, gReg u n t i = gReg s n t i) ∧ Only [.engines] [F.ENG_n_CTRL_START n, F.ENG_n_STATUS_THREADS n] s u) ∧
  (∀ (n : Fin 96) (v : BitVec 4) (s : State), Quiet s → fld s (F.ENG_n_STATUS_THREADS n) = 0x55 → engOn s n = true →
    (∀ t, t < 4 → (thread s n t).blk = Blk.free) →
    Completes (.engStart n v) s [] fun u =>
      fld u (F.ENG_n_CTRL_START n) = v.toNat ∧ (∀ t, t < 4 → thrState u n t = if bitOf v.toNat t then tRUN else tSTOPPED)
      ∧ (∀ t i, gReg u n t i = gReg s n t i) ∧ (∀ t, (thread u n t).pc = (thread s n t).pc)
      ∧ Only [.engines] [F.ENG_n_CTRL_START n, F.ENG_n_STATUS_THREADS n, F.DBG_ENGn_STATUS_HALTED n, F.DBG_ENGn_STATUS_PENDING n] s u) ∧
  (∀ (n : Fin 96) (s : State), Quiet s → engOn s n = true → (∀ t, t < 4 → (thread s n t).blk = Blk.free) →
    (engine s n).ttis = [] →
    Completes (.engDisable n) s [] fun u =>
      (∀ t, t < 4 → thrState u n t = if thrState s n t = tFAULT then tFAULT else tSTOPPED)
      ∧ flag u (F.ENG_n_CTRL_ENABLE n) = !engDrained s n ∧ flag u (F.ENG_n_STATUS_DRAINING n) = !engDrained s n
      ∧ (∀ t i, gReg u n t i = gReg s n t i) ∧ (∀ t, (thread u n t).pc = (thread s n t).pc)
      ∧ (engine u n).win = (engine s n).win ∧ (engine u n).wakeq = (engine s n).wakeq ∧ (engine u n).fifos = (engine s n).fifos
      ∧ Only [.engines] [F.ENG_n_CTRL_ENABLE n, F.ENG_n_STATUS_DRAINING n, F.ENG_n_STATUS_THREADS n, F.DBG_ENGn_STATUS_HALTED n,
          F.DBG_ENGn_STATUS_PENDING n] s u) ∧
  (∀ (n : Fin 96) (t : Fin 4) (s : State), Calm s n t → thrState s n t = tWAIT →
    (eventsOf s n t &&& fld s (F.ENG_n_Tt_MASK_MASK n t)) ≠ 0 → engClock s n = true → (engine s n).gateReq = false →
    halted s n t = false →
    Completes (.threadWake n t) s [] fun u => thrState u n t = tRUN ∧ u.engines = s.engines
      ∧ (∀ j, j < 4 → j ≠ t.val → thrState u n j = thrState s n j) ∧ OnlyRegs [F.ENG_n_STATUS_THREADS n] s u) ∧
  (∀ (n : Fin 96) (t : Fin 4) (s : State), Quiet s →
    thrState s n t ≠ tWAIT ∨ (eventsOf s n t &&& fld s (F.ENG_n_Tt_MASK_MASK n t)) = 0 →
    Completes (.threadWake n t) s [] fun u => u = s) ∧
  (∀ (n : Fin 96) (t : Fin 4) (s : State), Quiet s → PowerSteady s → thrState s n t = tWAIT →
    (eventsOf s n t &&& fld s (F.ENG_n_Tt_MASK_MASK n t)) ≠ 0 → flag s (F.ENG_n_STATUS_GATED n) = true →
    (engine s n).gateReq = false → R8Req.engineWake n ∉ s.dsp.r8queue →
    Completes (.threadWake n t) s [] fun u =>
      u.dsp = { s.dsp with r8queue := s.dsp.r8queue ++ [.engineWake n] } ∧ thrState u n t = tWAIT
      ∧ Only [.dsp] [F.DSP_RAIL8_STATUS_WAITING] s u) ∧
  (∀ (n : Fin 96) (s : State), Quiet s → flag s (F.ENG_n_CTRL_GATE_EN n) = true → engClock s n = true → (engine s n).win = [] →
    (∀ t, t < 4 → thrState s n t ≠ tRUN ∧ (thrState s n t = tWAIT → (eventsOf s n t &&& fld s (F.ENG_n_Tt_MASK_MASK n t)) = 0)) →
    Completes (.engineGate n) s [] fun u => u = setEngine s n { engine s n with gateReq := true }) ∧
  (∀ (n : Fin 96) (t : Fin 4) (s : State), Quiet s → thrState s n t = tRUN →
    Completes (.engineGate n) s [] fun u => u = s) ∧
  (∀ (n : Fin 96) (b : BitVec 16) (s : State), Quiet s →
    Completes (.engSignalSet n b) s [] fun u =>
      fld u (F.ENG_n_SIGNAL_SIGNAL n) = (fld s (F.ENG_n_SIGNAL_SIGNAL n) ||| b.toNat) ∧ OnlyRegs [F.ENG_n_SIGNAL_SIGNAL n] s u) ∧
  (∀ (n : Fin 96) (s : State), Quiet s → n.val ∉ s.rst.engWait → n.val ∉ s.rst.engOn →
    Runs (.engSreset n) s fun u =>
      u.rst = { s.rst with engWait := s.rst.engWait ++ [n.val] } ∧ flag u (F.ENG_n_CTRL_SRESET n) = true
      ∧ Only [.rst] [F.ENG_n_CTRL_SRESET n, F.GLB_RST_CAUSE_SOURCE, F.GLB_RST_CAUSE_QUAL, F.GLB_RST_CAUSE_ENGINE] s u) ∧
  (∀ (n : Fin 96) (t : Fin 4) (ecc : Fin 3) (s : State), Calm s n t → thrReady s n t = true →
    0x10000 ≤ (thread s n t).pc ∨ (thread s n t).pc % 4 ≠ 0 → Faults (.fetchFault n t ecc) n t 2 s) ∧
  (∀ (n : Fin 96) (t : Fin 4) (ecc : Fin 3) (s : State), Calm s n t → thrReady s n t = true →
    (thread s n t).pc < 0x10000 → (thread s n t).pc % 4 = 0 → spPoisoned s n ((thread s n t).pc / 8) = true →
    Faults (.fetchFault n t ecc) n t 4 s) ∧
  (∀ (n : Fin 96) (t : Fin 4) (s : State), Calm s n t → thrReady s n t = true →
    (thread s n t).pc < 0x10000 → (thread s n t).pc % 4 = 0 → spPoisoned s n ((thread s n t).pc / 8) = false →
    Completes (.fetchFault n t 1) s [] fun u =>
      fld u (F.ENG_n_SPERR_CORR n) = min (fld s (F.ENG_n_SPERR_CORR n) + 1) 65535 ∧ OnlyRegs [F.ENG_n_SPERR_CORR n] s u) ∧
  (∀ (n : Fin 96) (t : Fin 4) (s : State), Calm s n t → thrReady s n t = true →
    (thread s n t).pc < 0x10000 → (thread s n t).pc % 4 = 0 → spPoisoned s n ((thread s n t).pc / 8) = false →
    Completes (.fetchFault n t 2) s [ev 0x1804 [(1, n)], ev 0x1801 [(1, n), (1, t), (1, 4)]] fun u =>
      fld u (F.ENG_n_SPERR_UNCORR n) = min (fld s (F.ENG_n_SPERR_UNCORR n) + 1) 65535 ∧ thrState u n t = tFAULT
      ∧ spPoisoned u n ((thread s n t).pc / 8) = true ∧ OnlyParts [.engines, .regs] s u) ∧
  (∀ (n : Fin 96) (t : Fin 4) (s : State), Calm s n t → thrReady s n t = true →
    (thread s n t).pc < 0x10000 → (thread s n t).pc % 4 = 0 → spPoisoned s n ((thread s n t).pc / 8) = false →
    legalWord (fetched s n t) = false → Faults (.illegalInstruction n t) n t 1 s) ∧
  (∀ (n : Fin 96) (t : Fin 4) (s : State), Quiet s → legalWord (fetched s n t) = true →
    Completes (.illegalInstruction n t) s [] fun u => u = s)

/-- An engine's scratchpad can be reached from outside: it is in no reset, and no test holds a bank of it. -/
abbrev PadServed (s : State) (n : Nat) : Prop :=
  dieShut s (logicPos (engDie n)) = false ∧ blkShut s 0x18 = false ∧ s.rst.engWait.contains n = false
  ∧ s.rst.engOn.contains n = false ∧ ∀ k, k < 8 → bankTested s (6 + n / 32) (8 * (n % 32) + k) = false

/-- The ports of an engine (R158, R159, R160, R162, R163, R165): an external read returns the words of its line; an external write
changes the enabled bytes and no others; a read that collides with an engine's write completes BUSY and is counted; a word
leaves an outbound FIFO or enters an inbound one on an edge, and a waiting SRD takes it; a stream transfer that times out ends
TIMEOUT; a window load that fails writes 0 and LDSTAT, a store that fails is recorded with event 0x1803. -/
def Obligations.EnginePorts : Prop :=
  (∀ (n : Fin 96) (line : Fin 1024) (data : BitVec 512) (engW : BitVec 8) (w : Fin 8) (s : State), Quiet s → PadServed s n →
    (∀ j, j < 8 → spPoisoned s n (8 * line + j) = false) →
    Completes (.scratchpadExternal n line false (BitVec.allOnes 64) data 0 engW 0 w) s [] fun u =>
      (∃ r, u.rsps = r :: s.rsps ∧ r.status = ST.ok ∧ ∀ j, j < 8 → bits r.data (64 * j) 64 = spWord s n (8 * line + j))
      ∧ OnlyParts [.rsps] s u) ∧
  (∀ (n : Fin 96) (line : Fin 1024) (be : BitVec 64) (data : BitVec 512) (engW : BitVec 8) (ecc : Fin 3) (w : Fin 8) (s : State),
    Quiet s → PadServed s n → (∀ j, j < 8 → spPoisoned s n (8 * line + j) = false) →
    Completes (.scratchpadExternal n line true be data 0 engW ecc w) s [] fun u =>
      (∀ a, a < 65536 → spByte u n a = if 64 * line ≤ a ∧ a < 64 * line + 64 ∧ be.toNat.testBit (a - 64 * line)
        then bits data.toNat (8 * (a - 64 * line)) 8 else spByte s n a)
      ∧ (u.rsps.head?.map (·.status)) = some ST.ok ∧ u.rsps.tail = s.rsps
      ∧ (∀ m, m ≠ n.val → engine u m = engine s m) ∧ (∀ t, thread u n t = thread s n t) ∧ OnlyParts [.engines, .rsps] s u) ∧
  (∀ (n : Fin 96) (line : Fin 1024) (data : BitVec 512) (w : Fin 8) (s : State), Quiet s → PadServed s n →
    (∀ j, j < 8 → spPoisoned s n (8 * line + j) = false) →
    Completes (.scratchpadExternal n line false (BitVec.allOnes 64) data 1 1 0 w) s [] fun u =>
      (u.rsps.head?.map (·.status)) = some ST.busy
      ∧ fld u (F.ENG_n_BUSY_EXTERNAL n) = min (fld s (F.ENG_n_BUSY_EXTERNAL n) + 1) 65535
      ∧ Only [.rsps, .free] [F.ENG_n_BUSY_EXTERNAL n] s u) ∧
  (∀ (n : Fin 96) (k : Fin 4) (data : BitVec 64) (last : Bool) (w : Nat) (r : List Nat) (s : State), Quiet s →
    portOff s n k = false → portTicks s n k = true → fifo s n k = w :: r → waitersOn s n k = [] →
    Completes (.streamTransfer n (Fin.castLE (by decide) k) data last) s [] fun u =>
      fifo u n k = r ∧ (∀ j, j ≠ k.val → fifo u n j = fifo s n j) ∧ (∀ t, thread u n t = thread s n t) ∧ OnlyParts [.engines] s u) ∧
  (∀ (n : Fin 96) (k : Fin 8) (data : BitVec 64) (last : Bool) (s : State), Quiet s → 4 ≤ k.val →
    portOff s n k = false → portTicks s n k = true → engOn s n = true → (fifo s n k).length < 8 → waitersOn s n k = [] →
    Completes (.streamTransfer n k data last) s [] fun u =>
      fifo u n k = fifo s n k ++ [data.toNat + b2n last * 2 ^ 64] ∧ (∀ j, j ≠ k.val → fifo u n j = fifo s n j)
      ∧ (∀ t, thread u n t = thread s n t) ∧ OnlyParts [.engines] s u) ∧
  (∀ (n : Fin 96) (t : Fin 4) (k : Fin 8) (rd : Nat) (data : BitVec 64) (last : Bool) (s : State), Calm s n t → 4 ≤ k.val →
    portOff s n k = false → portTicks s n k = true → fifo s n k = [] → (thread s n t).blk = .srd k rd →
    waitersOn s n k = [t.val] →
    Completes (.streamTransfer n k data last) s [] fun u =>
      fifo u n k = [] ∧ gReg u n t rd = BitVec.ofNat 32 data.toNat ∧ gReg u n t (rd + 1) = BitVec.ofNat 32 (data.toNat / 2 ^ 32)
      ∧ thread u n t = { goesOn (thread s n t) { flg s n t with z := true, c := last } (pc4 s n t) with
          g := (thread u n t).g, sst := ST.ok, sstLast := last }
      ∧ (∀ i, i ≠ rd → i ≠ rd + 1 → gReg u n t i = gReg s n t i) ∧ OnlyParts [.engines] s u) ∧
  (∀ (n : Fin 96) (t : Fin 4) (p rd : Nat) (s : State), Calm s n t → fld s (F.ENG_n_STREAM_TO_TIMEOUT n) ≠ 0 →
    (thread s n t).blk = .srd p rd →
    Completes (.streamTimeout n t) s [] fun u =>
      gReg u n t rd = 0 ∧ gReg u n t (rd + 1) = 0
      ∧ OnlyGs n t [rd, rd + 1] { goesOn (thread s n t) { flg s n t with z := false, c := false } (pc4 s n t) with
          sst := ST.timeout, sstLast := false } s u) ∧
  (∀ (n : Fin 96) (t : Fin 4) (s : State), Quiet s → fld s (F.ENG_n_STREAM_TO_TIMEOUT n) = 0 →
    Completes (.streamTimeout n t) s [] fun u => u = s) ∧
  (∀ (n : Fin 96) (k : Fin 16) (q : WinReq) (s : State), Calm s n q.thread → (engine s n).win[k.val]? = some q → q.store = false →
    q.width < 8 → q.thread < 4 →
    Completes (.windowTimeout n k) s [] fun u =>
      gReg u n q.thread q.rd = 0 ∧ (∀ i, i ≠ q.rd → gReg u n q.thread i = gReg s n q.thread i)
      ∧ thread u n q.thread = { goesOn (thread s n q.thread) (flg s n q.thread) (pc4 s n q.thread) with
          g := (thread u n q.thread).g, ldLast := (if q.pre = 0 then ST.timeout else q.pre), ldErr := true }
      ∧ (engine u n).win = (engine s n).win.erase q ∧ OnlyParts [.engines] s u) ∧
  (∀ (n : Fin 96) (k : Fin 16) (q : WinReq) (s : State), Quiet s → (engine s n).win[k.val]? = some q → q.store = true →
    (thread s n q.thread).blk ≠ Blk.fence → flag s (F.ENG_n_WERR_VALID n) = false →
    Completes (.windowTimeout n k) s [ev 0x1803 [(1, n)]] fun u =>
      fld u (F.ENG_n_WERR_STATUS n) = (if q.pre = 0 then ST.timeout else q.pre) % 16 ∧ fld u (F.ENG_n_WERR_WINDOW n) = q.win % 8
      ∧ fld u (F.ENG_n_WERR_OFF_OFFSET n) = q.off % 2 ^ 28 ∧ flag u (F.ENG_n_WERR_VALID n) = true
      ∧ u.engines = (setEngine s n { engine s n with win := (engine s n).win.erase q }).engines
      ∧ Only [.engines] [F.ENG_n_WERR_STATUS n, F.ENG_n_WERR_WINDOW n, F.ENG_n_WERR_OFF_OFFSET n, F.ENG_n_WERR_VALID n] s u) ∧
  (∀ (n : Fin 96) (k : Fin 16) (x : AccIn) (q : WinReq) (s : State), Calm s n q.thread → (engine s n).win[k.val]? = some q →
    q.store = false → q.pre ≠ 0 → q.width < 8 → q.thread < 4 →
    Completes (.windowResponse n k x) s [] fun u =>
      gReg u n q.thread q.rd = 0 ∧ (∀ i, i ≠ q.rd → gReg u n q.thread i = gReg s n q.thread i)
      ∧ thread u n q.thread = { goesOn (thread s n q.thread) (flg s n q.thread) (pc4 s n q.thread) with
          g := (thread u n q.thread).g, ldLast := q.pre, ldErr := true }
      ∧ (engine u n).win = (engine s n).win.erase q ∧ OnlyParts [.engines] s u) ∧
  (∀ (n m : Fin 96) (k : Fin 16) (x : AccIn) (q : WinReq) (s : State), Calm s n q.thread → (engine s n).win[k.val]? = some q →
    q.store = false → q.pre = 0 → q.width = 4 → q.thread < 4 → q.addr / 0x10000 = 0x20000 + m → q.addr % 4 = 0 →
    olderWaits s n k q = false → sysClocks s = true → flag s F.MEM_STATUS_DRAINING = false → PadServed s m → x.coll = 0 →
    x.ecc = 0 → spPoisoned s m (q.addr % 0x10000 / 8) = false →
    Completes (.windowResponse n k x) s [] fun u =>
      gReg u n q.thread q.rd = BitVec.ofNat 32 (bits (spWord s m (q.addr % 0x10000 / 8)) (8 * (q.addr % 8)) 32)
      ∧ (∀ i, i ≠ q.rd → gReg u n q.thread i = gReg s n q.thread i)
      ∧ thread u n q.thread = { goesOn (thread s n q.thread) (flg s n q.thread) (pc4 s n q.thread) with
          g := (thread u n q.thread).g, ldLast := ST.ok }
      ∧ (engine u n).win = (engine s n).win.erase q ∧ OnlyParts [.engines] s u)

/-- A lane takes its preset taps. -/
def PresetTaps (n : Nat) (s u : State) : Prop :=
  fld u (F.WLN_LANEn_STATUS_PRE n) = fld s (F.WLN_LANEn_PRESET_PRE n) ∧ fld u (F.WLN_LANEn_STATUS_MAIN n) = fld s (F.WLN_LANEn_PRESET_MAIN n)
  ∧ fld u (F.WLN_LANEn_STATUS_POST n) = fld s (F.WLN_LANEn_PRESET_POST n)

/-- A word of a training frame as the receiver takes it: its complement where every level came inverted (R134). -/
abbrev rx (inv : Bool) (w : BitVec 64) : Nat := if inv then 2 ^ 64 - 1 - w.toNat else w.toNat

/-- The fields of a lane's state and taps. -/
def laneFlds (n : Nat) : List Fld :=
  [F.WLN_LANEn_STATUS_STATE n, F.WLN_LANEn_STATUS_PRE n, F.WLN_LANEn_STATUS_MAIN n, F.WLN_LANEn_STATUS_POST n]

/-- The lane state machine (R131, R132, R138, R139, R140): the second valid training frame in a row takes DETECT to TRAIN; the eighth READY
frame takes READY_WAIT to LINKUP with event 0x0E01, and the taps in force are kept as the last good ones; an attempt of 500 ms
ends in DETECT with preset taps and event 0x0E03; a good marker sets the descrambler, a bad one is counted, and the second in a
row, a loss of signal, a retrain or a training frame takes a lane in LINKUP to DETECT with its last good taps, event 0x0E02 and the
cause; at the device corrected symbols and uncorrectable codewords are counted, and a module puts IDLE in the place of the flits of an
uncorrectable codeword on the return path (stated for ports in TRAINING or DISABLED, so that no port
follows, and a lane that carries no RCLK). -/
def Obligations.LaneStateMachine : Prop :=
  (∀ (n : Fin 8) (c st : BitVec 64) (inv fe : Bool) (want : BitVec 7) (el : BitVec 16) (s : State), Quiet s → laneState s n = 1 →
    wordOk (rx inv c) = true → wordOk (rx inv st) = true → isTrunk s (n / 2) = false → bits (rx inv c) 0 7 = 0 →
    (lane s n).frames = 1 →
    Completes (.trainingFrame n c st inv fe want el) s [] fun u =>
      laneState u n = 2 ∧ flag u (F.WLN_LANEn_STATUS_RX_INVERTED n) = inv
      ∧ (lane u n).req = nextReq (lane s n).req (rx inv st) want.toNat
      ∧ (∀ m, m ≠ n.val → lane u m = lane s m)
      ∧ Only [.lanes] [F.WLN_LANEn_STATUS_STATE n, F.WLN_LANEn_STATUS_RX_INVERTED n] s u) ∧
  (∀ (n : Fin 8) (c st : BitVec 64) (inv fe : Bool) (want : BitVec 7) (el : BitVec 16) (s : State), Quiet s → laneState s n = 1 →
    wordOk (rx inv c) = false → wordOk (rx inv st) = false →
    Completes (.trainingFrame n c st inv fe want el) s [] fun u =>
      laneState u n = 1 ∧ (lane u n) = { lane s n with frames := 0 } ∧ flag u (F.WLN_LANEn_STATUS_RX_INVERTED n) = inv
      ∧ Only [.lanes] [F.WLN_LANEn_STATUS_RX_INVERTED n] s u) ∧
  (∀ (n : Fin 8) (c st : BitVec 64) (inv : Bool) (want : BitVec 7) (el : BitVec 16) (s : State), Quiet s → laneState s n = 3 →
    wordOk (rx inv c) = true → wordOk (rx inv st) = true → isTrunk s (n / 2) = false → bits (rx inv c) 0 7 = 0 →
    (rx inv c).testBit 7 = true → (rx inv c).testBit 12 = false → (lane s n).ready = 7 → portState s (n / 2) = pDISABLED →
    Completes (.trainingFrame n c st inv false want el) s [ev 0x0E01 [(1, n)]] fun u =>
      laneState u n = 4 ∧ fld u (F.WLN_LANEn_TRAIN_TIME n) = el.toNat ∧ fld u (F.WLN_LANEn_STATUS_RATE n) = fld s (F.WLN_LANEn_CFG_RATE n)
      ∧ (lane u n).txPre = (rx inv c).testBit 11 ∧ (lane u n).good = taps s n ∧ (lane u n).since = s.wire.length ∧ (lane u n).seed ≠ 0
      ∧ Only [.lanes, .free] [F.WLN_LANEn_STATUS_STATE n, F.WLN_LANEn_STATUS_RX_INVERTED n, F.WLN_LANEn_TRAIN_TIME n, F.WLN_LANEn_STATUS_RATE n,
          F.WLN_LANEn_STATUS_FEC_ON n] s u) ∧
  (∀ (n : Fin 8) (s : State), Quiet s → laneState s n = 1 ∨ laneState s n = 2 ∨ laneState s n = 3 →
    Completes (.trainTimeout n) s [ev 0x0E03 [(1, n)]] fun u =>
      laneState u n = 1 ∧ PresetTaps n s u
      ∧ fld u (F.WLN_LANEn_TRAIN_ATTEMPTS n)
          = min (fld s (F.WLN_LANEn_TRAIN_ATTEMPTS n) + 1) (2 ^ (F.WLN_LANEn_TRAIN_ATTEMPTS n).width - 1)
      ∧ Only [.lanes, .free] (F.WLN_LANEn_TRAIN_ATTEMPTS n :: laneFlds n) s u) ∧
  (∀ (n : Fin 8) (s : State), Quiet s → laneState s n = 0 ∨ 4 ≤ laneState s n →
    Completes (.trainTimeout n) s [] fun u => u = s) ∧
  (∀ (n : Fin 8) (m : BitVec 256) (s : State), Quiet s → laneState s n = 4 → markerOk m.toNat = true →
    Completes (.alignmentMarker n m false false) s [] fun u =>
      lane u n = { lane s n with scr := bits m.toNat 64 58, lidx := bits m.toNat 122 1, missed := 0, fresh := false }
      ∧ fld u (F.WLN_LANEn_STATUS_PRECODE_RX n) = bits m.toNat 124 1
      ∧ flag u (F.WLN_LANEn_STATUS_PRECODE_TX n) = (if (lane s n).fresh then (lane s n).txPre else flag s (F.WLN_LANEn_STATUS_PRECODE_TX n))
      ∧ Only [.lanes] [F.WLN_LANEn_STATUS_PRECODE_RX n, F.WLN_LANEn_STATUS_PRECODE_TX n] s u) ∧
  (∀ (n : Fin 8) (m : BitVec 256) (s : State), Quiet s → laneState s n = 4 → markerOk m.toNat = false → (lane s n).missed = 0 →
    Completes (.alignmentMarker n m false false) s [] fun u =>
      fld u (F.WLN_LANEn_MARKER_ERR_COUNT n) = min (fld s (F.WLN_LANEn_MARKER_ERR_COUNT n) + 1) (2 ^ (F.WLN_LANEn_MARKER_ERR_COUNT n).width - 1)
      ∧ (lane u n).missed = 1 ∧ laneState u n = 4 ∧ Only [.lanes] [F.WLN_LANEn_MARKER_ERR_COUNT n] s u) ∧
  (∀ (n : Fin 8) (m : BitVec 256) (s : State), Quiet s → laneState s n = 4 → (lane s n).missed = 1 →
    portState s (n / 2) = pTRAINING ∨ portState s (n / 2) = pDISABLED → fld s F.ANG_RTM_ROLE_ROLE ≠ 2 →
    Completes (.alignmentMarker n m true false) s [ev 0x0E02 [(1, n), (1, 1)]] fun u =>
      laneState u n = 1 ∧ fld u (F.WLN_LANEn_STATUS_CAUSE n) = 1 ∧ taps u n = (lane s n).good % 2 ^ 12
      ∧ Only [.lanes, .free] ([F.WLN_LANEn_STATUS_CAUSE n, F.WLN_LANEn_DOWN_COUNT n] ++ laneFlds n) s u) ∧
  (∀ (k : Fin 2) (n : Fin 8) (s : State), Quiet s → laneState s n = 4 →
    portState s (n / 2) = pTRAINING ∨ portState s (n / 2) = pDISABLED → fld s F.ANG_RTM_ROLE_ROLE ≠ 2 →
    Completes (if k = 0 then .los n else .laneRetrain n) s [ev 0x0E02 [(1, n), (1, 3 * k)]] fun u =>
      laneState u n = 1 ∧ fld u (F.WLN_LANEn_STATUS_CAUSE n) = 3 * k ∧ taps u n = (lane s n).good % 2 ^ 12
      ∧ fld u (F.WLN_LANEn_DOWN_COUNT n) = min (fld s (F.WLN_LANEn_DOWN_COUNT n) + 1) (2 ^ (F.WLN_LANEn_DOWN_COUNT n).width - 1)
      ∧ Only [.lanes, .free] ([F.WLN_LANEn_STATUS_CAUSE n, F.WLN_LANEn_DOWN_COUNT n] ++ laneFlds n) s u) ∧
  (∀ (k : Fin 2) (n : Fin 8) (s : State), Quiet s → laneState s n ≠ 4 →
    Completes (if k = 0 then .los n else .laneRetrain n) s [] fun u => u = s) ∧
  (∀ (n : Fin 8) (s : State), Quiet s → laneState s n = 4 → flag s (F.ANG_STATUS_RT_VALID) = true →
    fld s F.ANG_RTM_ROLE_ROLE = 2 → fld s F.ANG_RTM_ROLE_RCLK_LANE = n → rtState s = rLOCKED →
    portState s (n / 2) = pTRAINING ∨ portState s (n / 2) = pDISABLED →
    Runs (.los n) s fun u => laneState u n = 1 ∧ rtState u = rHOLDOVER) ∧
  (∀ (n : Fin 8) (fwd : Bool) (cw : BitVec 1088) (out : List Nat) (fixes : List (Nat × Nat)) (s : State), Quiet s →
    laneState s n = 4 → flag s (F.WLN_LANEn_STATUS_FEC_ON n) = true → RS.decode 8 [] (cwSymbols cw.toNat) = some (out, fixes) →
    Completes (.fecCodeword n (0, fwd) cw) s [] fun u =>
      fld u (F.WLN_LANEn_FEC_CORR_COUNT n)
        = min (fld s (F.WLN_LANEn_FEC_CORR_COUNT n) + fixes.length) (2 ^ (F.WLN_LANEn_FEC_CORR_COUNT n).width - 1)
      ∧ Only [.lanes] [F.WLN_LANEn_FEC_CORR_COUNT n] s u) ∧
  (∀ (n : Fin 8) (fwd : Bool) (cw : BitVec 1088) (s : State), Quiet s → laneState s n = 4 → flag s (F.WLN_LANEn_STATUS_FEC_ON n) = true →
    RS.decode 8 [] (cwSymbols cw.toNat) = none → upTrunk s (n / 2) = false → (lane s n).bad.length < 7 →
    Completes (.fecCodeword n (0, fwd) cw) s [evMerged 0x0E05 n [(1, n)]] fun u =>
      fld u (F.WLN_LANEn_FEC_UNCORR_COUNT n) = min (fld s (F.WLN_LANEn_FEC_UNCORR_COUNT n) + 1) (2 ^ (F.WLN_LANEn_FEC_UNCORR_COUNT n).width - 1)
      ∧ fld u (F.WNG_Pp_CNT_CRC_CRC (n / 2)) = min (fld s (F.WNG_Pp_CNT_CRC_CRC (n / 2)) + 4) (2 ^ 32 - 1) ∧ laneState u n = 4
      ∧ Only [.lanes] [F.WLN_LANEn_FEC_UNCORR_COUNT n, F.WNG_Pp_CNT_CRC_CRC (n / 2)] s u) ∧
  (∀ (n : Fin 8) (fwd : Bool) (cw : BitVec 1088) (s : State), Quiet s →
    laneState s n ≠ 4 ∨ flag s (F.WLN_LANEn_STATUS_FEC_ON n) = false →
    Completes (.fecCodeword n (0, fwd) cw) s [] fun u => u = s) ∧
  (∀ (n : Fin 8) (pos : Fin 256) (fwd : Bool) (cw : BitVec 1088) (s : State), Quiet s → pos ≠ 0 →
    (RS.decode 8 [] (cwSymbols cw.toNat)).isSome = true →
    Completes (.fecCodeword n (pos, fwd) cw) s [] fun u => u = s) ∧
  (∀ (n : Fin 8) (pos : Fin 256) (cw : BitVec 1088) (s : State), Quiet s → pos ≠ 0 →
    RS.decode 8 [] (cwSymbols cw.toNat) = none →
    Completes (.fecCodeword n (pos, false) cw) s [] fun u =>
      u = { s with wire := (cwFlits cw.toNat).reverse.map (fun f => ⟨n / 2, pos, mkFlit FT.idle (fSeq f) 0 0 0 0⟩) ++ s.wire })

/-- Lanes apart from their port (R142 to R146, R533): TRAIN starts and stops a lane while its port is DISABLED; the wake tone is sent from OFF
only, and its detection is shown; a test pattern takes effect only in LINKUP with the port DISABLED, and a changed checker pattern
loses lock; the checker counts while it is in lock; injections wait in LINKUP; reading SYMCNT latches its upper word and clears it. -/
def Obligations.LaneTests : Prop :=
  (∀ (n : Fin 8) (s : State), Quiet s → portState s (n / 2) = pDISABLED → (port s (n / 2)).idling = false → laneState s n = 0 →
    flag s (F.WLN_LANEn_CTRL_WAKE_TX n) = false →
    Completes (.laneTrainWrite n true) s [] fun u =>
      flag u (F.WLN_LANEn_CTRL_TRAIN n) = true ∧ laneState u n = 1 ∧ PresetTaps n s u
      ∧ Only [.lanes, .free] (F.WLN_LANEn_CTRL_TRAIN n :: laneFlds n) s u) ∧
  (∀ (n : Fin 8) (s : State), Quiet s → portState s (n / 2) = pDISABLED → (port s (n / 2)).idling = false →
    Completes (.laneTrainWrite n false) s [] fun u =>
      flag u (F.WLN_LANEn_CTRL_TRAIN n) = false ∧ laneState u n = 0
      ∧ Only [.lanes] [F.WLN_LANEn_CTRL_TRAIN n, F.WLN_LANEn_STATUS_STATE n] s u) ∧
  (∀ (n : Fin 8) (on : Bool) (s : State), Quiet s → portState s (n / 2) ≠ pDISABLED →
    Completes (.laneTrainWrite n on) s [] fun u =>
      flag u (F.WLN_LANEn_CTRL_TRAIN n) = on ∧ OnlyRegs [F.WLN_LANEn_CTRL_TRAIN n] s u) ∧
  (∀ (n : Fin 8) (s : State), Quiet s →
    (laneState s n = 0 → Completes (.wakeTx n) s [] fun u =>
      flag u (F.WLN_LANEn_CTRL_WAKE_TX n) = true ∧ OnlyRegs [F.WLN_LANEn_CTRL_WAKE_TX n] s u)
    ∧ (laneState s n ≠ 0 → Completes (.wakeTx n) s [] fun u => u = s)) ∧
  (∀ (n : Fin 8) (s : State), Quiet s → portState s (n / 2) ≠ pTRAINING → flag s (F.WLN_LANEn_CTRL_TRAIN n) = false →
    Completes (.wakeToneEnd n) s [] fun u =>
      flag u (F.WLN_LANEn_CTRL_WAKE_TX n) = false ∧ OnlyRegs [F.WLN_LANEn_CTRL_WAKE_TX n] s u) ∧
  (∀ (n : Fin 8) (s : State), Quiet s → pwrPhase s = 0 → pwrState s = 0 → laneState s n = 0 →
    flag s (F.WLN_LANEn_CFG_WAKE_DET n) = true →
    Completes (.wakeToneDetect n) s [ev 0x0E06 [(1, n)]] fun u => flag u (F.WLN_LANEn_STATUS_WAKE_SEEN n) = true
      ∧ OnlyRegs [F.WLN_LANEn_STATUS_WAKE_SEEN n] s u) ∧
  (∀ (n : Fin 8) (w : Word) (s : State), Quiet s → laneState s n = 4 → portState s (n / 2) = pDISABLED →
    Completes (.testPatternWrite n w) s [] fun u =>
      fld u (F.WLN_LANEn_TEST_GEN n) = bits w.toNat 0 3 ∧ fld u (F.WLN_LANEn_TEST_CHK n) = bits w.toNat 4 3
      ∧ fld u (F.WLN_LANEn_TEST_SQ_HALF n) = bits w.toNat 8 5
      ∧ (bits w.toNat 4 3 ≠ fld s (F.WLN_LANEn_TEST_CHK n) → flag u (F.WLN_LANEn_TEST_CHK_LOCK n) = false)
      ∧ Only [.lanes, .free] [F.WLN_LANEn_TEST_GEN n, F.WLN_LANEn_TEST_CHK n, F.WLN_LANEn_TEST_SQ_HALF n, F.WLN_LANEn_TEST_CHK_LOCK n] s u) ∧
  (∀ (n : Fin 8) (w : Word) (s : State), Quiet s → laneState s n ≠ 4 ∨ portState s (n / 2) ≠ pDISABLED →
    bits w.toNat 0 3 = 1 → bits w.toNat 4 3 = 1 →
    Completes (.testPatternWrite n w) s [] fun u =>
      fld u (F.WLN_LANEn_TEST_SQ_HALF n) = bits w.toNat 8 5 ∧ Only [.lanes, .free] [F.WLN_LANEn_TEST_SQ_HALF n] s u) ∧
  (∀ (n : Fin 8) (g : Bool) (e : BitVec 32) (y : BitVec 48) (s : State), Quiet s → fld s (F.WLN_LANEn_TEST_CHK n) = 1 →
    flag s (F.WLN_LANEn_TEST_CHK_LOCK n) = true →
    Completes (.chkLock n g e y) s [] fun u =>
      fld u (F.WLN_LANEn_ERRCNT_ERRORS n) = min (fld s (F.WLN_LANEn_ERRCNT_ERRORS n) + e.toNat) (2 ^ (F.WLN_LANEn_ERRCNT_ERRORS n).width - 1)
      ∧ fld u (F.WLN_LANEn_SYMCNT_SYMBOLS n) = min (fld s (F.WLN_LANEn_SYMCNT_SYMBOLS n) + y.toNat) (2 ^ (F.WLN_LANEn_SYMCNT_SYMBOLS n).width - 1)
      ∧ flag u (F.WLN_LANEn_TEST_CHK_LOCK n) = g
      ∧ OnlyRegs [F.WLN_LANEn_ERRCNT_ERRORS n, F.WLN_LANEn_SYMCNT_SYMBOLS n, F.WLN_LANEn_TEST_CHK_LOCK n] s u) ∧
  (∀ (n : Fin 8) (s : State), Quiet s → laneState s n = 4 →
    Completes (.injectSymbol n) s [] (fun u =>
      (lane u n).inj = (lane s n).inj ++ [(nextSymbol s n, 1)] ∧ OnlyParts [.lanes, .free] s u)
    ∧ Completes (.injectBurst n) s [] (fun u =>
      (lane u n).inj = (lane s n).inj ++ [(nextSymbol s n, fld s (F.WLN_LANEn_INJECT_BURST_LEN n) + 1)] ∧ OnlyParts [.lanes, .free] s u)
    ∧ Completes (.injectCrc n) s [] (fun u => u = setLane s n { lane s n with injCrc := true })) ∧
  (∀ (n : Fin 8) (s : State), Quiet s → laneState s n < 4 →
    Completes (.injectSymbol n) s [] (fun u => u = s) ∧ Completes (.injectBurst n) s [] (fun u => u = s)
    ∧ Completes (.injectCrc n) s [] (fun u => u = s)) ∧
  (∀ (n : Fin 8) (s : State), Quiet s →
    Completes (.symcntRead n) s [] fun u =>
      fld u (F.WLN_LANEn_SYMCNT_SYMBOLS n) = 0
      ∧ latched u (0x0E005C + 0x1000 * n) 0 = fld s (F.WLN_LANEn_SYMCNT_SYMBOLS n) / 2 ^ 32
      ∧ Only [.latch] [F.WLN_LANEn_SYMCNT_SYMBOLS n] s u)

/-- What a lane puts out on its line (R127, R131, R134, R142, R143, R145, R146): nothing while it is OFF, but levels +3 and −3 in turn
while it sends the wake tone; in training 16 symbols +3, 16 symbols −3, then the bits of the own control and status words as +3 and
−3, repeated every 1,024 symbols; after link-up 8 such frames, and then the first alignment marker's bits two by two; USER and SQUARE
patterns as written; in LOOPBACK what it receives; each with the index of an injected symbol exclusive-ored with 1. -/
def Obligations.LaneLineCarries : Prop :=
  (∀ (n : Fin 8) (rx : Nat → Nat) (j : Nat) (s : State), laneState s n = 0 →
    laneOut s n rx j = if flag s (F.WLN_LANEn_CTRL_WAKE_TX n) then some (if j % 2 = 0 then 3 else 0) else none) ∧
  (∀ (n : Fin 8) (rx : Nat → Nat) (k : Nat) (i : Fin 160) (s : State), 1 ≤ laneState s n → laneState s n ≤ 3 →
    laneOut s n rx (1024 * k + i) = some (if i.val < 16 then 3 else if i.val < 32 then 0
      else if i.val < 96 then (if (ownControl s n).testBit (i - 32) then 3 else 0)
      else (if (ownStatus s n).testBit (i - 96) then 3 else 0))) ∧
  (∀ (n : Fin 8) (s : State), wordOk (ownControl s n) = true ∧ wordOk (ownStatus s n) = true
    ∧ bits (ownControl s n) 8 2 = fld s (F.WLN_LANEn_CFG_RATE n) ∧ (ownControl s n).testBit 7 = decide (3 ≤ laneState s n)
    ∧ bits (ownStatus s n) 6 4 = fld s (F.WLN_LANEn_STATUS_PRE n) ∧ bits (ownStatus s n) 10 4 = fld s (F.WLN_LANEn_STATUS_MAIN n)
    ∧ bits (ownStatus s n) 14 4 = fld s (F.WLN_LANEn_STATUS_POST n)) ∧
  (∀ (n : Fin 8) (rx : Nat → Nat) (i : Fin 128) (s : State), laneState s n = 4 → patternOn s n = false → (lane s n).inj = [] →
    laneOut s n rx (8192 + i)
      = some (grayLevel (bits (markerOf s n 0 (lane s n).seed) (2 * i) 1) (bits (markerOf s n 0 (lane s n).seed) (2 * i + 1) 1))) ∧
  (∀ (n : Fin 8) (rx : Nat → Nat) (j : Nat) (s : State), laneState s n = 4 → fld s (F.WLN_LANEn_TEST_GEN n) = 5 →
    laneOut s n rx j = some (injected s n j (grayLevel (bits (fld s (F.WLN_LANEn_USER_PATTERN n)) (2 * (j % 32)) 1)
      (bits (fld s (F.WLN_LANEn_USER_PATTERN n)) (2 * (j % 32) + 1) 1)))) ∧
  (∀ (n : Fin 8) (rx : Nat → Nat) (j : Nat) (s : State), laneState s n = 4 → fld s (F.WLN_LANEn_TEST_GEN n) = 4 →
    laneOut s n rx j = some (injected s n j (if j / (fld s (F.WLN_LANEn_TEST_SQ_HALF n) + 1) % 2 = 0 then 3 else 0))) ∧
  (∀ (n : Fin 8) (rx : Nat → Nat) (j a k : Nat) (s : State), laneState s n = 5 → (lane s n).inj = [(a, k)] →
    laneOut s n rx j = some (if a ≤ j ∧ j < a + k then rx j ^^^ 1 else rx j)) ∧
  (∀ (l : List Nat) (prev : Nat), (∀ g ∈ l, g < 4) → prev < 4 → unprecodeAll prev (precodeAll prev l) = l) ∧
  (∀ (l : List Nat) (st : Nat), (∀ b ∈ l, b < 2) → (scrambleBits st (scrambleBits st l).1).1 = l)

/-- Region r runs with its clocks ticking. -/
abbrev Ticks (s : State) (r : Nat) : Prop := Quiet s ∧ regTicks s r = true

/-- Only region r of the regions differs in `u`, and it is `x`. -/
def RegionTurns (r : Nat) (x : Region) (s u : State) : Prop := region u r = x ∧ ∀ q, q ≠ r → region u q = region s q

/-- The modes in force of block memory i. -/
abbrev Modes (s : State) (r : Fin 72) (i : Fin 50) : Nat := bmModes s r i (ctxOf s r)

/-- Strobes, sleep, block memories and queues (R202 to R207, R210, R211, R215): a latched strobe is presented on an edge of its enabled clock;
a region with AUTO_SLEEP asks for its gate, and WAKE asks rail 8 for a sleeping region's restart; a RAM write stores its word
where no bit has flipped and changes no other block memory; a push appends, a pop takes the oldest, and a push to a full queue or
a pop of an empty one counts QERR; an uncorrectable claim-map word removes the 32 claims it holds, with event 0x0520, and
the tracks they drove keep their values. -/
def Obligations.StrobesSleepAndBlockMemories : Prop :=
  (∀ (r : Fin 72) (k : Fin 8) (s : State), Ticks s r → regClkEn s r (fld s (F.FAB_REGr_STBk_CLKSEL r k)) = true → k.val ∈ (region s r).stb →
    Completes (.strobePresent r k) s [] fun u =>
      k.val ∈ (region u r).stbOut ∧ (∀ j, j ≠ k.val → (j ∈ (region u r).stbOut ↔ j ∈ (region s r).stbOut))
      ∧ RegionTurns r { region s r with stb := (region s r).stb.filter (· != k.val), stbOut := (region u r).stbOut } s u
      ∧ OnlyParts [.regions] s u) ∧
  (∀ (r : Fin 72) (k : Fin 8) (s : State), Quiet s → regTicks s r = false ∨ k.val ∉ (region s r).stb →
    Completes (.strobePresent r k) s [] fun u => u = s) ∧
  (∀ (r : Fin 72) (s : State), Ticks s r → regState s r = 3 → flag s (F.FAB_REGr_CTRL_AUTO_SLEEP r) = true → regClkEn s r 0 = true →
    regFrozen s r = false →
    Completes (.regionSleep r) s [] fun u => RegionTurns r { region s r with gateReq := true } s u ∧ OnlyParts [.regions] s u) ∧
  (∀ (r : Fin 72) (s : State), Quiet s → flag s (F.FAB_REGr_CTRL_AUTO_SLEEP r) = false →
    Completes (.regionSleep r) s [] fun u => u = s) ∧
  (∀ (r : Fin 72) (s : State), Quiet s → pwrPhase s = 0 → pwrState s = 0 → s.pwr.closed = false → regRuns s r = true → regAsleep s r = true →
    (region s r).gateReq = false → R8Req.regionStart r ∉ s.dsp.r8queue →
    Completes (.regionWakeWrite r) s [] fun u =>
      flag u (F.FAB_REGr_CTRL_WAKE r) = true ∧ u.dsp = { s.dsp with r8queue := s.dsp.r8queue ++ [.regionStart r] }
      ∧ Only [.dsp] [F.FAB_REGr_CTRL_WAKE r, F.DSP_RAIL8_STATUS_WAITING] s u) ∧
  (∀ (r : Fin 72) (i : Fin 50) (a : BitVec 12) (d : BitVec 72) (s : State), Ticks s r → bmQmode (Modes s r i) = 0 →
    bits (Modes s r i) 3 3 = 3 → regClkEn s r (bmClkA (Modes s r i)) = true →
    Completes (.bmAccess r i (.write a d) .idle false 0) s [] fun u =>
      (∀ w, w < 512 → bits (bm u r i).mem (72 * w) 72 = if w = a.toNat % 512 then d.toNat else bits (bm s r i).mem (72 * w) 72)
      ∧ (∀ k, k ≠ r * 50 + i.val → smGet u.fab.bms k ({} : Bm) = smGet s.fab.bms k {}) ∧ OnlyParts [.fab] s u) ∧
  (∀ (r : Fin 72) (i : Fin 50) (a : BitVec 12) (s : State), Ticks s r → bmQmode (Modes s r i) = 0 →
    bits (Modes s r i) 3 3 = 3 → regClkEn s r (bmClkB (Modes s r i)) = true →
    Completes (.bmAccess r i .idle (.read a) false 0) s [] fun u =>
      (bm u r i).outB = bits (bm s r i).mem (72 * (a.toNat % 512)) 72 ∧ (bm u r i).mem = (bm s r i).mem ∧ OnlyParts [.fab] s u) ∧
  (∀ (r : Fin 72) (i : Fin 50) (d : BitVec 72) (s : State), Ticks s r → isQueue (Modes s r i) = true →
    regClkEn s r (bmClkA (Modes s r i)) = true → queueFull (Modes s r i) (bm s r i) = false →
    Completes (.queuePush r i (d, false)) s [] fun u =>
      (bm u r i).q = (bm s r i).q ++ [d.toNat % 2 ^ qWidth (Modes s r i)]
      ∧ (∀ k, k ≠ r * 50 + i.val → smGet u.fab.bms k ({} : Bm) = smGet s.fab.bms k {}) ∧ OnlyParts [.fab, .free] s u) ∧
  (∀ (r : Fin 72) (i : Fin 50) (d : BitVec 72) (s : State), Ticks s r → isQueue (Modes s r i) = true →
    regClkEn s r (bmClkA (Modes s r i)) = true → queueFull (Modes s r i) (bm s r i) = true →
    Completes (.queuePush r i (d, false)) s [] fun u =>
      (bm u r i) = { bm s r i with err := bmClkA (Modes s r i) + 1 }
      ∧ fld u (F.FAB_REGr_QERR_QERR r) = min (fld s (F.FAB_REGr_QERR_QERR r) + 1) (2 ^ (F.FAB_REGr_QERR_QERR r).width - 1)
      ∧ Only [.fab] [F.FAB_REGr_QERR_QERR r] s u) ∧
  (∀ (r : Fin 72) (i : Fin 50) (d : BitVec 72) (x : Nat) (q : List Nat) (s : State), Ticks s r → bmQmode (Modes s r i) = 1 →
    regClkEn s r (bmClkA (Modes s r i)) = true → (bm s r i).q = x :: q → (bm s r i).newW = [] → (bm s r i).newR = [] →
    q.length < qDepth (Modes s r i) →
    Completes (.queuePush r i (d, true)) s [] fun u =>
      (bm u r i).q = q ++ [d.toNat % 2 ^ qWidth (Modes s r i)] ∧ (bm u r i).pops = (bm s r i).pops ++ [(x, 2)]
      ∧ (bm u r i).err = (bm s r i).err ∧ OnlyParts [.fab, .free] s u) ∧
  (∀ (r : Fin 72) (i : Fin 50) (x : Nat) (q : List Nat) (s : State), Ticks s r → isQueue (Modes s r i) = true →
    regClkEn s r (popClk (Modes s r i)) = true → bmQmode (Modes s r i) ≠ 3 → (bm s r i).q = x :: q → queueEmpty (bm s r i) = false →
    Completes (.queuePop r i) s [] fun u =>
      bm u r i = { bm s r i with
        q := q, pops := (bm s r i).pops ++ [(x, 2)]
        newR := if dualQueue (Modes s r i) then (bm s r i).newR ++ [0] else (bm s r i).newR } ∧ OnlyParts [.fab] s u) ∧
  (∀ (r : Fin 72) (i : Fin 50) (s : State), Ticks s r → bmQmode (Modes s r i) = 3 → regClkEn s r (bmClkA (Modes s r i)) = true →
    queueEmpty (bm s r i) = false →
    Completes (.queuePop r i) s [] fun u => ∃ x, x ∈ (bm s r i).q ∧ (∀ y ∈ (bm s r i).q, qKey (Modes s r i) x ≤ qKey (Modes s r i) y)
      ∧ (bm u r i).q = (bm s r i).q.erase x ∧ (bm u r i).pops = (bm s r i).pops ++ [(x, 2)] ∧ OnlyParts [.fab] s u) ∧
  (∀ (r : Fin 72) (i : Fin 50) (s : State), Ticks s r → isQueue (Modes s r i) = true → regClkEn s r (popClk (Modes s r i)) = true →
    queueEmpty (bm s r i) = true →
    Completes (.queuePop r i) s [] fun u =>
      (bm u r i) = { bm s r i with err := popClk (Modes s r i) + 1 }
      ∧ fld u (F.FAB_REGr_QERR_QERR r) = min (fld s (F.FAB_REGr_QERR_QERR r) + 1) (2 ^ (F.FAB_REGr_QERR_QERR r).width - 1)
      ∧ Only [.fab] [F.FAB_REGr_QERR_QERR r] s u) ∧
  (∀ s : State, Quiet s → flag s F.FAB_CTRL_ENABLE = true →
    Completes .fabDisable s [] fun u =>
      (fabDrained s = true → flag u F.FAB_CTRL_ENABLE = false ∧ flag u F.FAB_STATUS_DRAINING = false)
      ∧ (fabDrained s = false → flag u F.FAB_CTRL_ENABLE = true ∧ flag u F.FAB_STATUS_DRAINING = true)
      ∧ OnlyRegs [F.FAB_CTRL_ENABLE, F.FAB_STATUS_DRAINING] s u) ∧
  (∀ (k : Fin 4) (w : Fin 19200) (s : State), Quiet s →
    Completes (.vtClaimUncorr k w) s [ev 0x0520 ((List.range 32).map (fun t => (4, 32 * w.val + t)) ++ [(1, k.val)])] fun u =>
      u.fab = { s.fab with
        claims := s.fab.claims.filter fun c => !(c.1 % 4 == k.val && c.1 / 4 / 32 == w.val)
        keep := u.fab.keep
        lost := u.fab.lost }
      ∧ (∀ t, t / 32 = w.val → claimOf s t k ≠ 0 → smGet u.fab.lost (4 * t + k) 0 = 3)
      ∧ (∀ t, driverOf s t ≠ 0 → driverOf u t = 0 → trackValue u t = trackValue s t)
      ∧ fld u F.CFG_VT_STATS_UNCORR = min (fld s F.CFG_VT_STATS_UNCORR + 1) (2 ^ F.CFG_VT_STATS_UNCORR.width - 1)
      ∧ Only [.fab] [F.CFG_VT_STATS_UNCORR] s u)

/-- Points requests, switches and planes (R236 to R240, R247, R248, R250, R251): a request of a source becomes pending, and one still pending is replaced and
counted; the pending request of the highest priority is decided at a sampling opportunity: refused while contexts are off or its
plane is not READY, no effect for the context in force, a switch in a running region, and at once in a region that does not run;
the switch takes force at its instant; a clear of a plane that is not in force empties it; a scrubbed word with an uncorrectable
error takes its READY plane to UNCORR with event 0x0604; disabling refuses what is pending. -/
def Obligations.PointsAndPlanes : Prop :=
  (∀ (m : Master) (r : Fin 72) (k : Fin 4) (s : State), Quiet s → pwrPhase s = 0 → regRuns s r = false →
    (∀ n, m = .engine n → flag s (F.ENG_n_CTRL_REGS n) = true) →
    smGet (region s r).pend (match m with | .engine _ => 2 | _ => 3) 0 = 0 →
    Completes (.pointsRequestWrite m r k) s [] fun u =>
      smGet (region u r).pend (match m with | .engine _ => 2 | _ => 3) 0 = k + 1
      ∧ (∀ j, j ≠ (match m with | .engine _ => 2 | _ => 3) → smGet (region u r).pend j 0 = smGet (region s r).pend j 0)
      ∧ RegionTurns r { region s r with pend := (region u r).pend } s u ∧ OnlyParts [.regions] s u) ∧
  (∀ (r : Fin 72) (k : Fin 4) (s : State), Ticks s r → regClkEn s r 0 = true → smGet (region s r).pend 1 0 ≠ 0 →
    Completes (.ptsReq r k) s [evMerged 0x0602 r [(1, r)]] fun u =>
      smGet (region u r).pend 1 0 = k + 1
      ∧ fld u (F.CTX_REGr_REFUSED_SUPERSEDED r)
          = min (fld s (F.CTX_REGr_REFUSED_SUPERSEDED r) + 1) (2 ^ (F.CTX_REGr_REFUSED_SUPERSEDED r).width - 1)
      ∧ RegionTurns r { region s r with pend := (region u r).pend } s u ∧ Only [.regions] [F.CTX_REGr_REFUSED_SUPERSEDED r] s u) ∧
  (∀ (r : Fin 72) (k : Fin 4) (s : State), Ticks s r → regClkEn s r 0 = true → smGet (region s r).pend 1 0 = 0 →
    Completes (.ptsReq r k) s [] fun u =>
      smGet (region u r).pend 1 0 = k + 1 ∧ RegionTurns r { region s r with pend := (region u r).pend } s u ∧ OnlyParts [.regions] s u) ∧
  (∀ (r : Fin 72) (src : Fin 4) (k : Fin 4) (s : State), Quiet s → sysClocks s = true → regRuns s r = false →
    dieInReset s (logicPos (regDie r)) = false → ctxOn s = true → smGet (region s r).pend src 0 = k + 1 →
    (∀ j, j < src.val → smGet (region s r).pend j 0 = 0) → planeReady s r k = true → switching s r = false →
    Completes (.pointsSample r) s [] fun u =>
      ctxOf u r = k ∧ smGet (region u r).pend src 0 = 0 ∧ RegionTurns r { region s r with pend := (region u r).pend } s u
      ∧ u.fab = { s.fab with keep := u.fab.keep } ∧ (∀ t, driverOf s t ≠ 0 → driverOf u t = 0 → trackValue u t = trackValue s t)
      ∧ Only [.regions, .fab] [F.CTX_REGr_ACTIVE_CTX r] s u) ∧
  (∀ (r : Fin 72) (src : Fin 4) (k : Fin 4) (s : State), Quiet s → sysClocks s = true → regRuns s r = false →
    dieInReset s (logicPos (regDie r)) = false → smGet (region s r).pend src 0 = k + 1 →
    (∀ j, j < src.val → smGet (region s r).pend j 0 = 0) → ctxOn s = false ∨ planeReady s r k = false →
    Completes (.pointsSample r) s [ev 0x0601 [(1, r), (1, src), (1, k), (1, if ctxOn s then 0 else 1)]] fun u =>
      ctxOf u r = ctxOf s r ∧ smGet (region u r).pend src 0 = 0
      ∧ fld u (F.CTX_REGr_REFUSED_REFUSED r) = min (fld s (F.CTX_REGr_REFUSED_REFUSED r) + 1) (2 ^ (F.CTX_REGr_REFUSED_REFUSED r).width - 1)
      ∧ fld u F.CTX_REFUSED_REFUSED = min (fld s F.CTX_REFUSED_REFUSED + 1) (2 ^ F.CTX_REFUSED_REFUSED.width - 1)
      ∧ (flag s (F.CTX_REGr_LASTREF_VALID r) = false →
          fld u (F.CTX_REGr_LASTREF_REASON r) = (if ctxOn s then 0 else 1) ∧ fld u (F.CTX_REGr_LASTREF_SOURCE r) = src
          ∧ fld u (F.CTX_REGr_LASTREF_CTX r) = k ∧ flag u (F.CTX_REGr_LASTREF_VALID r) = true)
      ∧ Only [.regions] [F.CTX_REGr_REFUSED_REFUSED r, F.CTX_REFUSED_REFUSED, F.CTX_REGr_LASTREF_REASON r, F.CTX_REGr_LASTREF_SOURCE r,
          F.CTX_REGr_LASTREF_CTX r, F.CTX_REGr_LASTREF_VALID r] s u) ∧
  (∀ (r : Fin 72) (src : Fin 4) (k : Fin 4) (s : State), Ticks s r → regClkEn s r 0 = true → ctxOn s = true →
    dieInReset s (logicPos (regDie r)) = false → smGet (region s r).pend src 0 = k + 1 →
    (∀ j, j < src.val → smGet (region s r).pend j 0 = 0) → planeReady s r k = true → switching s r = false → ctxOf s r ≠ k →
    Completes (.pointsSample r) s [] fun u =>
      switching u r = true ∧ fld u (F.CTX_REGr_ACTIVE_NEXT r) = k ∧ ctxOf u r = ctxOf s r
      ∧ (region u r).switches = (region s r).switches ++ [k.val] ∧ smGet (region u r).pend src 0 = 0
      ∧ Only [.regions] [F.CTX_REGr_ACTIVE_SWITCHING r, F.CTX_REGr_ACTIVE_NEXT r] s u) ∧
  (∀ (r : Fin 72) (k : Nat) (s : State), Ticks s r → regClkEn s r 0 = true → (region s r).switches = [k] → k < 4 →
    Completes (.switchInstant r) s [] fun u =>
      ctxOf u r = k ∧ switching u r = false ∧ (region u r).switches = []
      ∧ fld u (F.CTX_REGr_SWITCHES_SWITCHES r) = min (fld s (F.CTX_REGr_SWITCHES_SWITCHES r) + 1) (2 ^ (F.CTX_REGr_SWITCHES_SWITCHES r).width - 1)
      ∧ (∀ j, j / 800 ≠ ctxOf s r → smGet (region u r).priv j 0 = smGet (region s r).priv j 0) ∧ OthersKeep r s u
      ∧ (∀ i, i < 50 → (bm u r i).mem = (bm s r i).mem) ∧ u.fab.frames = s.fab.frames ∧ u.fab.claims = s.fab.claims
      ∧ Only [.regions, .fab, .free] [F.CTX_REGr_ACTIVE_CTX r, F.CTX_REGr_ACTIVE_SWITCHING r, F.CTX_REGr_SWITCHES_SWITCHES r] s u) ∧
  (∀ (r : Fin 72) (v : BitVec 4) (s : State), Quiet s → regRuns s r = false → (region s r).clearing = [] →
    Completes (.planeClear r v) s [] fun u =>
      (∀ k, k < 4 → (k ∈ (region u r).clearing ↔ v.toNat.testBit k = true ∧ planeState s r k ≠ 1))
      ∧ RegionTurns r { region s r with clearing := (region u r).clearing } s u ∧ OnlyParts [.regions] s u) ∧
  (∀ (r : Fin 72) (k : Fin 4) (s : State), Quiet s → sysClocks s = true → k.val ∈ (region s r).clearing → regState s r ≠ 2 → regState s r ≠ 4 →
    Completes (.planeClearDone r k) s [] fun u =>
      planeState u r k = 0 ∧ (∀ j, j < 4 → j ≠ k.val → planeState u r j = planeState s r j) ∧ k.val ∉ (region u r).clearing
      ∧ (∀ tile, tile < 800 → frameAt u kLOGIC r k tile = 0) ∧ (∀ tile, tile < 800 → smGet (region u r).priv (800 * k + tile) 0 = 0)
      ∧ Only [.regions, .fab] [F.CTX_REGr_PLANES_PLANES r, F.CFG_ENC_REGIONS_REGIONS, F.DBG_PATCHED_REGIONS] s u) ∧
  (∀ (r : Fin 72) (k : Fin 4) (s : State), Quiet s → k.val ∉ (region s r).clearing →
    Completes (.planeClearDone r k) s [] fun u => u = s) ∧
  (∀ (r : Fin 72) (k : Fin 4) (kd : Fin 3) (tile : Fin 800) (w : Fin 256) (s : State), Quiet s → sysClocks s = true →
    flag s F.CTX_CTRL_SCRUB_EN = true → dieInReset s (confPos (regDie r)) = false → planeState s r k = 2 → regRuns s r = false →
    Completes (.scrubWord r k kd tile w 2 0) s [ev 0x0604 [(1, r), (1, k), (2, tile), (2, w)]] fun u =>
      planeState u r k = 3 ∧ fld u F.CTX_SCRUB_CNT_UNCORR = min (fld s F.CTX_SCRUB_CNT_UNCORR + 1) (2 ^ F.CTX_SCRUB_CNT_UNCORR.width - 1)
      ∧ u.fab.frames = s.fab.frames
      ∧ Only [.fab, .regions] [F.CTX_REGr_PLANES_PLANES r, F.CTX_SCRUB_CNT_UNCORR, F.CFG_ENC_REGIONS_REGIONS, F.DBG_PATCHED_REGIONS] s u) ∧
  (∀ (r : Fin 72) (k : Fin 4) (kd : Fin 3) (tile : Fin 800) (w : Fin 256) (s : State), Quiet s → sysClocks s = true →
    flag s F.CTX_CTRL_SCRUB_EN = true → dieInReset s (confPos (regDie r)) = false →
    Completes (.scrubWord r k kd tile w 1 0) s [evMerged 0x0603 0 []] fun u =>
      fld u F.CTX_SCRUB_CNT_CORR = min (fld s F.CTX_SCRUB_CNT_CORR + 1) (2 ^ F.CTX_SCRUB_CNT_CORR.width - 1)
      ∧ OnlyRegs [F.CTX_SCRUB_CNT_CORR] s u) ∧
  (∀ s : State, Quiet s → flag s F.CTX_CTRL_ENABLE = true → (∀ e ∈ s.regions, ∀ j, j < 4 → smGet (region s e.1).pend j 0 = 0) →
    Completes .ctxDisable s [] fun u =>
      flag u F.CTX_CTRL_ENABLE = !ctxDrained s ∧ (ctxDrained s = false → flag u F.CTX_STATUS_DRAINING = true)
      ∧ OnlyRegs [F.CTX_CTRL_ENABLE, F.CTX_STATUS_DRAINING] s u)

/-- Stopping, starting and releasing regions, and their pins (R210, R254 to R258, R263, R491, R497 to R509): STOP is set in a running region and takes effect at its
stop edge, or at the start of a slot while it sleeps, which closes its clocks, withdraws its request on rail 8 and makes it STOPPED with event 0x0701; START releases a
LOADED region through rail 8 and is refused with event 0x0705 where its plane is not READY; the release edge makes it RELEASED;
the bank clock locks, and pins whose rate is too high fail with event 0x1F01; BITSLIP moves a pin's word boundary;
a pin of a bank is in the state of R263, and the balls of R497 to R501 are what they name. -/
def Obligations.RegionsStopAndStart : Prop :=
  (∀ (r : Fin 72) (s : State), Quiet s → regRuns s r = true → regFrozen s r = false →
    Completes (.regionStop r) s [] fun u => flag u (F.FAB_REGr_CTRL_STOP r) = true ∧ OnlyRegs [F.FAB_REGr_CTRL_STOP r] s u) ∧
  (∀ (r : Fin 72) (s : State), Quiet s → regRuns s r = false → Completes (.regionStop r) s [] fun u => u = s) ∧
  (∀ (r : Fin 72) (s : State), Ticks s r → regClkEn s r 0 = true → flag s (F.FAB_REGr_CTRL_STOP r) = true → switching s r = false →
    (region s r).switches = [] → regState s r = 3 → (region s r).stb = [] → 4 ≤ r.val % 24 →
    Completes (.stopEdge r) s [ev 0x0701 [(1, r), (1, 3), (1, 4)]] fun u =>
      regState u r = 4 ∧ (region u r).run = false ∧ flag u (F.FAB_REGr_CTRL_STOP r) = false ∧ regRuns u r = false
      ∧ R8Req.regionStart r ∉ u.dsp.r8queue ∧ OthersKeep r s u ∧ u.fab.frames = s.fab.frames ∧ u.fab.cuffs = s.fab.cuffs
      ∧ u.fab.claims = s.fab.claims ∧ (∀ i, i < 50 → (bm u r i).mem = (bm s r i).mem ∧ (bm u r i).q = (bm s r i).q)
      ∧ Only [.regions, .fab, .dsp, .free] [F.FAB_REGr_CTRL_STOP r, F.FAB_REGr_STATUS_STATE r, F.FAB_REGr_STATUS_SLEEPING r, F.FAB_REGr_CTRL_WAKE r,
          F.DBG_REGr_STATUS_FROZEN r, F.DBG_REGr_STATUS_PULSING r, F.DBG_REGr_CTRL_FREEZE r, F.DSP_RAIL8_STATUS_WAITING] s u) ∧
  (∀ (r : Fin 72) (s : State), Quiet s → sysClocks s = true → flag s (F.FAB_REGr_CTRL_STOP r) = true → switching s r = false →
    (region s r).switches = [] → regState s r = 3 → regAsleep s r = true → (region s r).stb = [] → 4 ≤ r.val % 24 →
    Completes (.stopEdge r) s [ev 0x0701 [(1, r), (1, 3), (1, 4)]] fun u =>
      regState u r = 4 ∧ (region u r).shared = (region s r).shared ∧ (region u r).priv = (region s r).priv ∧ u.fab = s.fab
      ∧ (∀ q, q ≠ r.val → region u q = region s q)) ∧
  (∀ (r : Fin 72) (s : State), Quiet s → flag s (F.FAB_REGr_CTRL_STOP r) = false ∨ switching s r = true →
    Completes (.stopEdge r) s [] fun u => u = s) ∧
  (∀ (r : Fin 72) (s : State), Quiet s → regState s r = 2 → planeReady s r (ctxOf s r) = true → R8Req.regionStart r ∉ s.dsp.r8queue →
    Completes (.regionStart r) s [] fun u =>
      u.dsp = { s.dsp with r8queue := s.dsp.r8queue ++ [.regionStart r] } ∧ regState u r = 2
      ∧ (∀ i, i < 50 → (bm u r i).mem = (bm s r i).mem)
      ∧ Only [.dsp, .regions, .fab] [F.DSP_RAIL8_STATUS_WAITING] s u) ∧
  (∀ (r : Fin 72) (s : State), Quiet s → regState s r = 4 → planeReady s r (ctxOf s r) = true → R8Req.regionStart r ∉ s.dsp.r8queue →
    Completes (.regionStart r) s [] fun u =>
      u.dsp = { s.dsp with r8queue := s.dsp.r8queue ++ [.regionStart r] } ∧ Only [.dsp] [F.DSP_RAIL8_STATUS_WAITING] s u) ∧
  (∀ (r : Fin 72) (s : State), Quiet s → regState s r = 2 ∨ regState s r = 4 → planeReady s r (ctxOf s r) = false →
    Completes (.regionStart r) s [ev 0x0705 [(1, r), (1, 1), (1, 0)]] fun u =>
      fld u (F.FAB_REGr_RC_REFUSED r) = min (fld s (F.FAB_REGr_RC_REFUSED r) + 1) (2 ^ (F.FAB_REGr_RC_REFUSED r).width - 1)
      ∧ OnlyRegs [F.FAB_REGr_RC_REFUSED r] s u) ∧
  (∀ (r : Fin 72) (s : State), Quiet s → regState s r ≠ 2 → regState s r ≠ 4 →
    Completes (.regionStart r) s [] fun u => u = s) ∧
  (∀ (r : Fin 72) (s : State), Quiet s → (region s r).starting = true → regClkEn s r 0 = true → clocksOn s = true →
    dieInReset s (logicPos (regDie r)) = false → regState s r = 2 ∨ regState s r = 4 →
    (∀ f, f ∈ [1, 2, 3] → ownsFunc s r f = false) → (∀ b, b < 10 → ownsBank s r b = false) →
    Completes (.releaseEdge r []) s [ev 0x0701 [(1, r), (1, regState s r), (1, 3)]] fun u =>
      regState u r = 3 ∧ (region u r).run = true ∧ (region u r).starting = false ∧ (region u r).released = true
      ∧ OthersKeep r s u ∧ (∀ i, i < 50 → (bm u r i).mem = (bm s r i).mem) ∧ u.fab.frames = s.fab.frames ∧ u.fab.claims = s.fab.claims
      ∧ Only [.regions, .fab, .free] [F.FAB_REGr_STATUS_STATE r] s u) ∧
  (∀ (r : Fin 72) (l : List PadIn) (s : State), Quiet s → (region s r).starting = false →
    Completes (.releaseEdge r l) s [] fun u => u = s) ∧
  (∀ (b : Fin 8) (khz : BitVec 20) (r : Nat) (s : State), Quiet s → bankRegion s b = some r → clock3Runs s r = true →
    (∀ n, n < 30 → (pad s b n).mode = 0 ∧ (pad s b n).ser = 0) → khz.toNat ≤ 400000 →
    Completes (.bankClockLock b khz) s [] fun u =>
      flag u (F.IOB_BANKb_STATUS_LOCKED b) = true ∧ OnlyRegs [F.IOB_BANKb_STATUS_LOCKED b] s u) ∧
  (∀ (b : Fin 8) (khz : BitVec 20) (r : Nat) (n0 : Fin 30) (s : State), Quiet s → bankRegion s b = some r → clock3Runs s r = true →
    (∀ n, n < 30 → (pad s b n).mode = 0 ∧ (pad s b n).ser = if n = n0.val then 1 else 0) → (pad s b n0).bad = false →
    khz.toNat ≤ 400000 → 200000 < khz.toNat →
    Completes (.bankClockLock b khz) s [ev 0x1F01 [(1, b), (1, n0), (1, 0)]] fun u =>
      flag u (F.IOB_BANKb_STATUS_LOCKED b) = true ∧ flag u (F.IOB_BANKb_STATUS_PAD_FAULT b) = true
      ∧ pad u b n0 = { pad s b n0 with bad := true } ∧ (∀ n, n < 30 → n ≠ n0.val → pad u b n = pad s b n)
      ∧ Only [.iob] [F.IOB_BANKb_STATUS_LOCKED b, F.IOB_BANKb_STATUS_PAD_FAULT b] s u) ∧
  (∀ (b : Fin 8) (n : Fin 30) (r : Nat) (s : State), Quiet s → bankRegion s b = some r → regTicks s r = true → regClkEn s r 3 = true →
    Completes (.bitslip b n) s [] fun u =>
      pad u b n = { pad s b n with slip := ((pad s b n).slip + 1) % 2 ^ (pad s b n).ser }
      ∧ (∀ c m, m < 32 → c * 32 + m ≠ b * 32 + n.val → pad u c m = pad s c m) ∧ OnlyParts [.iob] s u) ∧
  (∀ (b : Fin 8) (n : Fin 30) (khz : BitVec 20) (s : State), Quiet s → bankRegion s b = none →
    Completes (.bitslip b n) s [] (fun u => u = s) ∧ Completes (.bankClockLock b khz) s [] fun u => u = s) ∧
  (∀ (b : Fin 8) (r : Nat) (khz : BitVec 20) (s : State), Quiet s → bankRegion s b = some r → clock3Runs s r = false →
    Completes (.bankClockLock b khz) s [] fun u => u = s) ∧
  (∀ (b n : Nat) (s : State), encoderPin s b n = true → pinState s b n = .encoder) ∧
  (∀ (b n : Nat) (s : State), encoderPin s b n = false → bankRegion s b = none → pinState s b n = .preconf) ∧
  (∀ (b n r : Nat) (s : State), encoderPin s b n = false → bankRegion s b = some r →
    (region s r).released = false ∨ (pad s b (ruling s b n)).bad = true ∨ (b < 8 ∧ flag s (F.IOB_BANKb_STATUS_VIO_FAULT b) = true)
      ∨ (8 ≤ b ∧ bstopState s ≠ bRUN) → pinState s b n = .preconf) ∧
  (∀ (b n r : Nat) (s : State), b < 8 → encoderPin s b n = false → bankRegion s b = some r → (region s r).released = true →
    (pad s b (ruling s b n)).bad = false → flag s (F.IOB_BANKb_STATUS_VIO_FAULT b) = false →
    (pad s b (ruling s b n)).ser = 0 ∨ flag s (F.IOB_BANKb_STATUS_LOCKED b) = true →
    regRuns s r = true → (region s r).run = true → dieInReset s (logicPos (regDie r)) = false → pinState s b n = .driven) ∧
  (∀ (b n r : Nat) (s : State), b < 8 → encoderPin s b n = false → bankRegion s b = some r → (region s r).released = true →
    (pad s b (ruling s b n)).bad = false → flag s (F.IOB_BANKb_STATUS_VIO_FAULT b) = false →
    (pad s b (ruling s b n)).ser = 0 ∨ flag s (F.IOB_BANKb_STATUS_LOCKED b) = true → regState s r = gSTOPPED →
    pinState s b n = if flag s (F.FAB_BANKb_OWN_PADSTOP b) then .held else .preconf) ∧
  (∀ b n, b < 4 → n < 30 → ball (1 + n / 10) (11 * b + 1 + n % 10) = some (.user b n)
    ∧ ball (44 - n / 10) (11 * b + 1 + n % 10) = some (.user (4 + b) n)) ∧
  (∀ b n, b < 2 → n < 24 → ball (19 + 11 * b + n / 3) (44 - n % 3) = some (.legacy b n)) ∧
  (∀ p h, p < 4 → h < 2 → ball (6 + 5 * p + 2 * h) 1 = some (.wengan (2 * p + h) true true)
    ∧ ball (7 + 5 * p + 2 * h) 1 = some (.wengan (2 * p + h) true false)
    ∧ ball (6 + 5 * p + 2 * h) 3 = some (.wengan (2 * p + h) false true)
    ∧ ball (7 + 5 * p + 2 * h) 3 = some (.wengan (2 * p + h) false false)) ∧
  (∀ n, n < 4 → ball (6 + 3 * n) 44 = some (.pcie n true true) ∧ ball (7 + 3 * n) 44 = some (.pcie n true false)
    ∧ ball (6 + 3 * n) 42 = some (.pcie n false true) ∧ ball (7 + 3 * n) 42 = some (.pcie n false false)) ∧
  (∀ i j, 5 ≤ i → i ≤ 40 → 5 ≤ j → j ≤ 40 → ball i j = some (if (i + j) % 2 = 0 then .vss
    else if j ≤ 10 then .rail .vbase else if j ≤ 34 then .rail .vcore else .rail .vmem)) ∧
  (∀ (k : Nat) (s : State), dedState s (.pwrEn k) = if pwrEnOn s k then .high else .low) ∧
  (∀ s : State, isOff s = true → s.rst.fault = [] → dedState s .faultN = .released ∧ dedState s .qspiCsN = .pullUp
    ∧ dedState s .qspiClk = .highZ ∧ dedState s .avsClk = .highZ ∧ dedState s .resetN = .ignored ∧ dedState s .xoIn = .off)

/-! ### Memory dies (chapter 13) -/

/-- Line l of storage takes new bytes, and every other byte of the memory dies is unchanged, with every mode, owner and poison
mark but the line's own. -/
def WritesLine (s u : State) (l : Nat) (b : Nat → Byte) : Prop :=
  (∀ i, i < 64 → cell u l i = b i) ∧ (∀ k o, o < 64 → k ≠ l → cell u k o = cell s k o)
  ∧ u.mem.scram = s.mem.scram ∧ u.mem.owner = s.mem.owner ∧ u.mem.reread = s.mem.reread
  ∧ poisoned u l = false ∧ ∀ k, k ≠ l → poisoned u k = poisoned s k

/-- A line is poisoned: marked, counted, recorded unless a record stands, its bytes as read, with the flips `e` of the stored
codeword. -/
def Poisons (s u : State) (a e kind : Nat) : Prop :=
  poisoned u (lineAt s a) = true ∧ (∀ k, k ≠ lineAt s a → poisoned u k = poisoned s k)
  ∧ (∀ i, i < 64 → cell u (lineAt s a) i = cell s (lineAt s a) i ^^^ BitVec.ofNat 8 (bits e (8 * i) 8))
  ∧ (∀ k o, o < 64 → k ≠ lineAt s a → cell u k o = cell s k o)
  ∧ u.mem = { s.mem with poison := u.mem.poison, cells := u.mem.cells } ∧ Counts (F.MEM_Md_UNCORR_UNCORR (dieAt a)) 1 s u
  ∧ flag u (F.MEM_Md_LASTERR_VALID (dieAt a)) = true
  ∧ (flag s (F.MEM_Md_LASTERR_VALID (dieAt a)) = false → fld u (F.MEM_Md_LASTERR_KIND (dieAt a)) = kind
      ∧ fld u (F.MEM_Md_LASTERR_LINE (dieAt a)) = memByte (a / 64 * 64) % 0x04000000 / 64)
  ∧ (flag s (F.MEM_Md_LASTERR_VALID (dieAt a)) = true → fld u (F.MEM_Md_LASTERR_KIND (dieAt a)) = fld s (F.MEM_Md_LASTERR_KIND (dieAt a))
      ∧ fld u (F.MEM_Md_LASTERR_LINE (dieAt a)) = fld s (F.MEM_Md_LASTERR_LINE (dieAt a)))

/-- The registers that poisoning a line of die d may write. -/
def poisonFlds (d : Nat) : List Fld :=
  [F.MEM_Md_UNCORR_UNCORR d, F.MEM_Md_LASTERR_VALID d, F.MEM_Md_LASTERR_KIND d, F.MEM_Md_LASTERR_LINE d]

/-- The event of a poisoned line (R282). -/
def poisonEv (a : Nat) : Ev := ev 0x1002 [(1, dieAt a), (4, memByte (a / 64 * 64) % 0x04000000 / 64)]

/-- The line lies in neither the Timetable partition nor a way of the stack cache. -/
abbrev PlainLine (s : State) (a : Nat) : Prop :=
  inPartition s (memByte (a / 64 * 64)) = false ∧ slotOfByte s (memByte (a / 64 * 64)) = none

/-- The links of the path of master m to a line at its two ends. -/
abbrev nearLink (s : State) (m a : Nat) (mrq : Bool) : Option Nat := (pathOf s m (memByte (a / 64 * 64)) mrq).head?
abbrev farLink (s : State) (m a : Nat) (mrq : Bool) : Option Nat := (pathOf s m (memByte (a / 64 * 64)) mrq).getLast?

/-- A decoder finds an error in a codeword with these flips and corrects it wholly. -/
abbrev Corrects (er : List Nat) (e : Nat) : Prop := (lineDecode er e).any (fun x => x.1 == 0 && !x.2.isEmpty) = true

/-- Reads of a line (R272, R276, R279, R281, R282, R283, R285): a request reaches the port, and completes OK with the line's bytes where no bit has flipped, or
the port end's decoder corrects it (it is put on the re-read list), or the die does and the line is resent (counted); POISON with
the data where the line is poisoned or found uncorrectable in the die; INTERNAL with event 0x1003 and a health check of the path's
first link where the read and two resends are uncorrectable; a decoder answers a codeword that differs in the bytes it names, no
more than its code corrects; BUSY where four attempts were; and the refusal's status in R283's order, with nothing else done.
Writes of a line, plain and through an alias (R266, R278, R280, R282): a write stores the bytes its mask names, a set-alias
write ORs them in and a clear-alias write clears their ones, and no other byte changes; a write of all 64 bytes clears poison,
any other write of a poisoned line performs nothing and completes POISON; a read-modify-write counts a correction of the stored
line and poisons an uncorrectable one; a codeword corrected on arrival stores what was sent, and one uncorrectable in all three
transmissions completes INTERNAL with nothing stored; a write that completes BUSY was performed;
a refused write performs nothing. -/
def Obligations.MemoryReadsAndWrites : Prop :=
  (∀ (m : BitVec 8) (a : BitVec 48) (t : BitVec 6) (busy : Fin 5) (mrq : Bool) (s : State),
    ServedAt s m.toNat a.toNat mrq → poisoned s (lineAt s a.toNat) = false → busy.val < 4 →
    Completes (.memRead m a t 0 busy mrq []) s [] fun u =>
      u.rsps = ⟨m.toNat, t.toNat, ST.ok, lineNum s (lineAt s a.toNat)⟩ :: s.rsps
      ∧ Counts (F.MEM_Md_BUSY_REPEATS (dieAt a.toNat)) busy s u ∧ Only [.rsps] [F.MEM_Md_BUSY_REPEATS (dieAt a.toNat)] s u) ∧
  (∀ (m : BitVec 8) (a : BitVec 48) (t : BitVec 6) (e w : BitVec 560) (busy : Fin 5) (mrq : Bool) (s : State),
    ServedAt s m.toNat a.toNat mrq → poisoned s (lineAt s a.toNat) = false → busy.val < 4 →
    Corrects (erasedOn s (nearLink s m.toNat a.toNat mrq)) (e.toNat ^^^ w.toNat) →
    Runs (.memRead m a t e busy mrq [w]) s fun u =>
      u.rsps = ⟨m.toNat, t.toNat, ST.ok, lineNum s (lineAt s a.toNat)⟩ :: s.rsps
      ∧ u.mem = { s.mem with reread := s.mem.reread ++ [lineAt s a.toNat] }
      ∧ Counts (F.MEM_Md_BUSY_REPEATS (dieAt a.toNat)) busy s u ∧ OnlyParts [.regs, .mem, .stk, .rsps] s u) ∧
  (∀ (m : BitVec 8) (a : BitVec 48) (t : BitVec 6) (e w : BitVec 560) (mrq : Bool) (s : State),
    ServedAt s m.toNat a.toNat mrq → poisoned s (lineAt s a.toNat) = false →
    lineDecode (erasedOn s (nearLink s m.toNat a.toNat mrq)) (e.toNat ^^^ w.toNat) = none → Corrects [] e.toNat →
    Completes (.memRead m a t e 0 mrq [w]) s [evMerged 0x1001 (dieAt a.toNat) [(1, dieAt a.toNat)]] fun u =>
      u.rsps = ⟨m.toNat, t.toNat, ST.ok, lineNum s (lineAt s a.toNat)⟩ :: s.rsps
      ∧ Counts (F.MEM_Md_CORR_CORR (dieAt a.toNat)) 1 s u
      ∧ Only [.rsps] [F.MEM_Md_CORR_CORR (dieAt a.toNat), F.MEM_Md_BUSY_REPEATS (dieAt a.toNat)] s u) ∧
  (∀ (m : BitVec 8) (a : BitVec 48) (t : BitVec 6) (busy : Fin 5) (mrq : Bool) (s : State),
    ServedAt s m.toNat a.toNat mrq → poisoned s (lineAt s a.toNat) = true →
    Completes (.memRead m a t 0 busy mrq []) s [] fun u =>
      u.rsps = ⟨m.toNat, t.toNat, ST.poison, lineNum s (lineAt s a.toNat)⟩ :: s.rsps
      ∧ Counts (F.MEM_Md_POISON_RD_POISON (dieAt a.toNat)) 1 s u
      ∧ Only [.rsps] [F.MEM_Md_POISON_RD_POISON (dieAt a.toNat), F.MEM_Md_BUSY_REPEATS (dieAt a.toNat)] s u) ∧
  (∀ (m : BitVec 8) (a : BitVec 48) (t : BitVec 6) (e : BitVec 560) (mrq : Bool) (ws : List (BitVec 560)) (s : State),
    ServedAt s m.toNat a.toNat mrq → poisoned s (lineAt s a.toNat) = false →
    Completes (.memRead m a t e 4 mrq ws) s [] fun u =>
      (∃ r ∈ u.rsps.head?, r.master = m.toNat ∧ r.tag = t.toNat ∧ r.status = ST.busy) ∧ u.rsps.tail = s.rsps
      ∧ Counts (F.MEM_Md_BUSY_BUSY (dieAt a.toNat)) 1 s u ∧ Counts (F.MEM_Md_BUSY_REPEATS (dieAt a.toNat)) 3 s u
      ∧ Only [.rsps, .free] [F.MEM_Md_BUSY_BUSY (dieAt a.toNat), F.MEM_Md_BUSY_REPEATS (dieAt a.toNat)] s u) ∧
  (∀ (m : BitVec 8) (a : BitVec 48) (t : BitVec 6) (e w : BitVec 560) (mrq : Bool) (s : State),
    ServedAt s m.toNat a.toNat mrq → poisoned s (lineAt s a.toNat) = false → PlainLine s a.toNat →
    lineDecode (erasedOn s (nearLink s m.toNat a.toNat mrq)) (e.toNat ^^^ w.toNat) = none → lineDecode [] e.toNat = none →
    Completes (.memRead m a t e 0 mrq [w]) s [poisonEv a.toNat] fun u =>
      u.rsps = ⟨m.toNat, t.toNat, ST.poison, lineNum u (lineAt s a.toNat)⟩ :: s.rsps ∧ Poisons s u a.toNat e.toNat 1
      ∧ Counts (F.MEM_Md_POISON_RD_POISON (dieAt a.toNat)) 1 s u
      ∧ Only [.rsps, .mem] (F.MEM_Md_POISON_RD_POISON (dieAt a.toNat) :: F.MEM_Md_BUSY_REPEATS (dieAt a.toNat) :: poisonFlds (dieAt a.toNat)) s u) ∧
  (∀ (m : BitVec 8) (a : BitVec 48) (t : BitVec 6) (w w1 w2 : BitVec 560) (mrq : Bool) (s : State),
    ServedAt s m.toNat a.toNat mrq → poisoned s (lineAt s a.toNat) = false →
    lineDecode (erasedOn s (nearLink s m.toNat a.toNat mrq)) w.toNat = none →
    lineDecode (erasedOn s (nearLink s m.toNat a.toNat mrq)) w1.toNat = none → lineDecode (erasedOn s (nearLink s m.toNat a.toNat mrq)) w2.toNat = none →
    Completes (.memRead m a t 0 0 mrq [w, w1, w2]) s [ev 0x1003 []] fun u =>
      u.rsps = ⟨m.toNat, t.toNat, ST.internal, 0⟩ :: s.rsps ∧ Counts (F.MEM_Md_XFER_FAIL_FAIL (dieAt a.toNat)) 1 s u
      ∧ (∀ k ∈ nearLink s m.toNat a.toNat mrq, link u k = { link s k with extra := true })
      ∧ (∀ j, some j ≠ nearLink s m.toNat a.toNat mrq → link u j = link s j)
      ∧ Only [.rsps, .stk] [F.MEM_Md_XFER_FAIL_FAIL (dieAt a.toNat), F.MEM_Md_BUSY_REPEATS (dieAt a.toNat)] s u) ∧
  (∀ (m : BitVec 8) (a : BitVec 48) (t : BitVec 6) (e : BitVec 560) (busy : Fin 5) (mrq : Bool) (ws : List (BitVec 560)) (s : State), Quiet s →
    mayIssue s m.toNat = true → memRefusalAt s m.toNat (a.toNat / 64 * 64) mrq ≠ 0 →
    Completes (.memRead m a t e busy mrq ws) s [] fun u =>
      u.rsps = ⟨m.toNat, t.toNat, memRefusalAt s m.toNat (a.toNat / 64 * 64) mrq, 0⟩ :: s.rsps ∧ OnlyParts [.rsps] s u) ∧
  (∀ (m : BitVec 8) (a : BitVec 48) (t : BitVec 6) (e : BitVec 560) (busy : Fin 5) (mrq : Bool) (ws : List (BitVec 560)) (s : State), Quiet s →
    mayIssue s m.toNat = false → Completes (.memRead m a t e busy mrq ws) s [] fun u => u = s) ∧
  (∀ (m a : Nat) (mrq : Bool) (s : State), memWay a = none →
    memRefusalAt s m a mrq = if memEnabled s || exempt m then ST.decode else ST.disabled) ∧
  (∀ (m a : Nat) (mrq : Bool) (s : State), memWay a ≠ none → blkShut s 0x10 = true → memRefusalAt s m a mrq = ST.reset) ∧
  (∀ (m a : Nat) (mrq : Bool) (s : State), memWay a ≠ none → blkShut s 0x10 = false → (∀ d, d < 4 → dieShut s (memPos d) = false) →
    pathStatus s m (memByte a) mrq = ST.ok → memEnabled s = false → exempt m = false → memRefusalAt s m a mrq = ST.disabled) ∧
  (∀ (m a : Nat) (mrq : Bool) (s : State), memWay a ≠ none → blkShut s 0x10 = false → (∀ d, d < 4 → dieShut s (memPos d) = false) →
    pathStatus s m (memByte a) mrq = ST.ok → memEnabled s = true → bankTested s (dieOfByte (memByte a) - 1) (bankOf s (memByte a)) = false →
    memRefusalAt s m a mrq =
      if (inPartition s (memByte a) = true ∧ m ≠ MC.timetable)
        ∨ (groupMode s (groupOf (memByte a)) = 1 ∧ bankOwner s (groupOf (memByte a)) (bankOf s (memByte a) % 8) ≠ MC.none
            ∧ bankOwner s (groupOf (memByte a)) (bankOf s (memByte a) % 8) ≠ m)
        ∨ (2 ≤ groupMode s (groupOf (memByte a)) ∧ m ≠ MC.stackCache) then ST.denied else ST.ok) ∧
  (∀ (l : Nat) (i : Nat) (s : State), i < 64 → bits (lineNum s l) (8 * i) 8 = (cell s l i).toNat) ∧
  (∀ (r : Nat) (er w out : List Nat) (fixes : List (Nat × Nat)), RS.decode r er w = some (out, fixes) →
    (RS.syndromes r out).all (· == 0) = true ∧ out.length = w.length
    ∧ (∀ i, i < w.length → (∀ v, (i, v) ∉ fixes) → out[i]? = w[i]?)
    ∧ (fixes = [] ∨ 2 * (fixes.filter fun x => !er.contains x.1).length + er.length ≤ r)) ∧
  (∀ (m : BitVec 8) (a : BitVec 48) (t : BitVec 6) (d : BitVec 512) (e : BitVec 560) (busy mrq : Bool) (s : State),
    ServedAt s m.toNat a.toNat mrq → a.toNat < 0x0C000000 → busy = false →
    Completes (.memWrite m a t (BitVec.allOnes 64) d e [] busy mrq) s [] fun u =>
      u.rsps = ⟨m.toNat, t.toNat, ST.ok, 0⟩ :: s.rsps
      ∧ WritesLine s u (lineAt s a.toNat) (fun i => BitVec.ofNat 8 (bits d.toNat (8 * i) 8)) ∧ OnlyParts [.mem, .rsps] s u) ∧
  (∀ (m : BitVec 8) (a : BitVec 48) (t : BitVec 6) (mask : BitVec 64) (d : BitVec 512) (mrq : Bool) (s : State),
    ServedAt s m.toNat a.toNat mrq → a.toNat < 0x0C000000 → poisoned s (lineAt s a.toNat) = false →
    Completes (.memWrite m a t mask d 0 [] false mrq) s [] fun u =>
      u.rsps = ⟨m.toNat, t.toNat, ST.ok, 0⟩ :: s.rsps
      ∧ WritesLine s u (lineAt s a.toNat) (fun i =>
          if mask.getLsbD i then BitVec.ofNat 8 (bits d.toNat (8 * i) 8) else cell s (lineAt s a.toNat) i) ∧ OnlyParts [.mem, .rsps] s u) ∧
  (∀ (m : BitVec 8) (a : BitVec 48) (t : BitVec 6) (mask : BitVec 64) (d : BitVec 512) (mrq : Bool) (s : State),
    ServedAt s m.toNat (0x004000000000 + a.toNat) mrq → a.toNat < 0x0C000000 → poisoned s (lineAt s a.toNat) = false →
    Completes (.memSetAlias m a t mask d 0 [] false mrq) s [] fun u =>
      u.rsps = ⟨m.toNat, t.toNat, ST.ok, 0⟩ :: s.rsps
      ∧ WritesLine s u (lineAt s a.toNat) (fun i =>
          if mask.getLsbD i then cell s (lineAt s a.toNat) i ||| BitVec.ofNat 8 (bits d.toNat (8 * i) 8) else cell s (lineAt s a.toNat) i)
      ∧ OnlyParts [.mem, .rsps] s u) ∧
  (∀ (m : BitVec 8) (a : BitVec 48) (t : BitVec 6) (mask : BitVec 64) (d : BitVec 512) (mrq : Bool) (s : State),
    ServedAt s m.toNat (0x008000000000 + a.toNat) mrq → a.toNat < 0x0C000000 → poisoned s (lineAt s a.toNat) = false →
    Completes (.memClearAlias m a t mask d 0 [] false mrq) s [] fun u =>
      u.rsps = ⟨m.toNat, t.toNat, ST.ok, 0⟩ :: s.rsps
      ∧ WritesLine s u (lineAt s a.toNat) (fun i =>
          if mask.getLsbD i then cell s (lineAt s a.toNat) i &&& ~~~ BitVec.ofNat 8 (bits d.toNat (8 * i) 8) else cell s (lineAt s a.toNat) i)
      ∧ OnlyParts [.mem, .rsps] s u) ∧
  (∀ (m : BitVec 8) (a : BitVec 48) (t : BitVec 6) (mask : BitVec 64) (d : BitVec 512) (e : BitVec 560) (mrq : Bool) (s : State),
    ServedAt s m.toNat a.toNat mrq → a.toNat < 0x0C000000 → poisoned s (lineAt s a.toNat) = false → mask ≠ BitVec.allOnes 64 →
    Corrects [] e.toNat →
    Completes (.memWrite m a t mask d e [] false mrq) s [evMerged 0x1001 (dieAt a.toNat) [(1, dieAt a.toNat)]] fun u =>
      u.rsps = ⟨m.toNat, t.toNat, ST.ok, 0⟩ :: s.rsps ∧ Counts (F.MEM_Md_CORR_CORR (dieAt a.toNat)) 1 s u
      ∧ WritesLine s u (lineAt s a.toNat) (fun i =>
          if mask.getLsbD i then BitVec.ofNat 8 (bits d.toNat (8 * i) 8) else cell s (lineAt s a.toNat) i)
      ∧ Only [.mem, .rsps] [F.MEM_Md_CORR_CORR (dieAt a.toNat)] s u) ∧
  (∀ (m : BitVec 8) (a : BitVec 48) (t : BitVec 6) (mask : BitVec 64) (d : BitVec 512) (e : BitVec 560) (busy mrq : Bool) (s : State),
    ServedAt s m.toNat a.toNat mrq → poisoned s (lineAt s a.toNat) = false → PlainLine s a.toNat → mask ≠ BitVec.allOnes 64 →
    lineDecode [] e.toNat = none →
    Completes (.memWrite m a t mask d e [] busy mrq) s [poisonEv a.toNat] fun u =>
      u.rsps = ⟨m.toNat, t.toNat, ST.poison, 0⟩ :: s.rsps ∧ Poisons s u a.toNat e.toNat 1
      ∧ Only [.mem, .rsps] (F.MEM_Md_POISON_RD_POISON (dieAt a.toNat) :: poisonFlds (dieAt a.toNat)) s u) ∧
  (∀ (m : BitVec 8) (a : BitVec 48) (t : BitVec 6) (mask : BitVec 64) (d : BitVec 512) (e : BitVec 560) (ws : List (BitVec 560)) (busy mrq : Bool) (s : State),
    ServedAt s m.toNat a.toNat mrq → poisoned s (lineAt s a.toNat) = true → mask ≠ BitVec.allOnes 64 →
    Completes (.memWrite m a t mask d e ws busy mrq) s [] fun u =>
      u.rsps = ⟨m.toNat, t.toNat, ST.poison, 0⟩ :: s.rsps
      ∧ Only [.rsps] [F.MEM_Md_POISON_RD_POISON (dieAt a.toNat)] s u) ∧
  (∀ (m : BitVec 8) (a : BitVec 48) (t : BitVec 6) (mask : BitVec 64) (d : BitVec 512) (e w w1 w2 : BitVec 560) (busy mrq : Bool) (s : State),
    ServedAt s m.toNat a.toNat mrq →
    poisoned s (lineAt s a.toNat) = false ∨ (mask = BitVec.allOnes 64 ∧ a.toNat < 0x0C000000) →
    lineDecode (erasedOn s (farLink s m.toNat a.toNat mrq)) w.toNat = none →
    lineDecode (erasedOn s (farLink s m.toNat a.toNat mrq)) w1.toNat = none → lineDecode (erasedOn s (farLink s m.toNat a.toNat mrq)) w2.toNat = none →
    Completes (.memWrite m a t mask d e [w, w1, w2] busy mrq) s [ev 0x1003 []] fun u =>
      u.rsps = ⟨m.toNat, t.toNat, ST.internal, 0⟩ :: s.rsps ∧ Counts (F.MEM_Md_XFER_FAIL_FAIL (dieAt a.toNat)) 1 s u
      ∧ Only [.rsps, .stk] [F.MEM_Md_XFER_FAIL_FAIL (dieAt a.toNat)] s u) ∧
  (∀ (m : BitVec 8) (a : BitVec 48) (t : BitVec 6) (d : BitVec 512) (e w : BitVec 560) (mrq : Bool) (s : State),
    ServedAt s m.toNat a.toNat mrq → a.toNat < 0x0C000000 →
    Corrects (erasedOn s (farLink s m.toNat a.toNat mrq)) w.toNat →
    Runs (.memWrite m a t (BitVec.allOnes 64) d e [w] false mrq) s fun u =>
      u.rsps = ⟨m.toNat, t.toNat, ST.ok, 0⟩ :: s.rsps
      ∧ WritesLine s u (lineAt s a.toNat) (fun i => BitVec.ofNat 8 (bits d.toNat (8 * i) 8)) ∧ OnlyParts [.regs, .mem, .stk, .rsps] s u) ∧
  (∀ (m : BitVec 8) (a : BitVec 48) (t : BitVec 6) (d : BitVec 512) (e : BitVec 560) (mrq : Bool) (s : State),
    ServedAt s m.toNat a.toNat mrq → a.toNat < 0x0C000000 →
    Completes (.memWrite m a t (BitVec.allOnes 64) d e [] true mrq) s [] fun u =>
      u.rsps = ⟨m.toNat, t.toNat, ST.busy, 0⟩ :: s.rsps ∧ Counts (F.MEM_Md_BUSY_BUSY (dieAt a.toNat)) 1 s u
      ∧ WritesLine s u (lineAt s a.toNat) (fun i => BitVec.ofNat 8 (bits d.toNat (8 * i) 8))
      ∧ Only [.mem, .rsps] [F.MEM_Md_BUSY_BUSY (dieAt a.toNat)] s u) ∧
  (∀ (m : BitVec 8) (a : BitVec 48) (t : BitVec 6) (mask : BitVec 64) (d : BitVec 512) (e : BitVec 560) (ws : List (BitVec 560)) (busy mrq : Bool) (s : State), Quiet s →
    mayIssue s m.toNat = true → memRefusalAt s m.toNat (a.toNat / 64 * 64) mrq ≠ 0 →
    Completes (.memWrite m a t mask d e ws busy mrq) s [] fun u =>
      u.rsps = ⟨m.toNat, t.toNat, memRefusalAt s m.toNat (a.toNat / 64 * 64) mrq, 0⟩ :: s.rsps ∧ OnlyParts [.rsps] s u) ∧
  (∀ (m : BitVec 8) (a : BitVec 48) (t : BitVec 6) (mask : BitVec 64) (d : BitVec 512) (e : BitVec 560) (ws : List (BitVec 560)) (busy mrq : Bool) (s : State), Quiet s →
    mayIssue s m.toNat = false →
    Completes (.memWrite m a t mask d e ws busy mrq) s [] (fun u => u = s)
    ∧ Completes (.memSetAlias m a t mask d e ws busy mrq) s [] (fun u => u = s)
    ∧ Completes (.memClearAlias m a t mask d e ws busy mrq) s [] fun u => u = s)

/-- Patrol, re-reads, modes, owners and disabling (R268 to R270, R281, R284 to R286): a patrol visit counts a correction or poisons the line and goes
to the next, and a pass of more than 24 hours raises event 0x1004; a re-read does the same for a line read with a correction; a
group takes a mode unless it is refused with event 0x1005; an owner byte takes a listed code, in a bank outside the partition;
disabling refuses new requests at once where none is in flight; initialisation sets INIT_DONE. -/
def Obligations.PatrolModesAndOwners : Prop :=
  (∀ (d : Fin 3) (secs : BitVec 32) (s : State), Quiet s → sysClocks s = true → flag s F.MEM_PATROL_ENABLE = true →
    dieInReset s (memPos (d + 1)) = false → fld s (F.MEM_Md_PATROL_LINE (d + 1)) ≠ 2 ^ 20 - 1 →
    Completes (.patrolVisit d 0 secs) s [] fun u =>
      fld u (F.MEM_Md_PATROL_LINE (d + 1)) = fld s (F.MEM_Md_PATROL_LINE (d + 1)) + 1 ∧ OnlyRegs [F.MEM_Md_PATROL_LINE (d + 1)] s u) ∧
  (∀ (d : Fin 3) (secs : BitVec 32) (s : State), Quiet s → sysClocks s = true → flag s F.MEM_PATROL_ENABLE = true →
    dieInReset s (memPos (d + 1)) = false → fld s (F.MEM_Md_PATROL_LINE (d + 1)) = 2 ^ 20 - 1 →
    Completes (.patrolVisit d 0 secs) s (if 86400 < secs.toNat then [ev 0x1004 []] else []) fun u =>
      fld u (F.MEM_Md_PATROL_LINE (d + 1)) = 0 ∧ fld u (F.MEM_Md_PATROL_LAST_PASS (d + 1)) = min (secs.toNat / 60) 4095
      ∧ OnlyRegs [F.MEM_Md_PATROL_LINE (d + 1), F.MEM_Md_PATROL_LAST_PASS (d + 1)] s u) ∧
  (∀ (d : Fin 3) (e : BitVec 560) (secs : BitVec 32) (s : State), Quiet s → sysClocks s = true → flag s F.MEM_PATROL_ENABLE = true →
    dieInReset s (memPos (d + 1)) = false → fld s (F.MEM_Md_PATROL_LINE (d + 1)) ≠ 2 ^ 20 - 1 →
    poisoned s (lineAt s (d * 0x04000000 + 64 * fld s (F.MEM_Md_PATROL_LINE (d + 1)))) = false → Corrects [] e.toNat →
    Completes (.patrolVisit d e secs) s [evMerged 0x1001 (d + 1) [(1, d + 1)]] fun u =>
      fld u (F.MEM_Md_PATROL_LINE (d + 1)) = fld s (F.MEM_Md_PATROL_LINE (d + 1)) + 1 ∧ Counts (F.MEM_Md_CORR_CORR (d + 1)) 1 s u
      ∧ OnlyRegs [F.MEM_Md_PATROL_LINE (d + 1), F.MEM_Md_CORR_CORR (d + 1)] s u) ∧
  (∀ (d : Fin 3) (e : BitVec 560) (secs : BitVec 32) (s : State), Quiet s → sysClocks s = true → flag s F.MEM_PATROL_ENABLE = true →
    dieInReset s (memPos (d + 1)) = false → fld s (F.MEM_Md_PATROL_LINE (d + 1)) ≠ 2 ^ 20 - 1 → lineDecode [] e.toNat = none →
    poisoned s (lineAt s (d * 0x04000000 + 64 * fld s (F.MEM_Md_PATROL_LINE (d + 1)))) = false →
    PlainLine s (d * 0x04000000 + 64 * fld s (F.MEM_Md_PATROL_LINE (d + 1))) →
    Completes (.patrolVisit d e secs) s [poisonEv (d * 0x04000000 + 64 * fld s (F.MEM_Md_PATROL_LINE (d + 1)))] fun u =>
      fld u (F.MEM_Md_PATROL_LINE (d + 1)) = fld s (F.MEM_Md_PATROL_LINE (d + 1)) + 1
      ∧ Poisons s u (d * 0x04000000 + 64 * fld s (F.MEM_Md_PATROL_LINE (d + 1))) e.toNat 0
      ∧ Only [.mem] (F.MEM_Md_PATROL_LINE (d + 1) :: poisonFlds (d + 1)) s u) ∧
  (∀ (d : Fin 3) (k : BitVec 560) (secs : BitVec 32) (s : State), Quiet s → flag s F.MEM_PATROL_ENABLE = false →
    Completes (.patrolVisit d k secs) s [] fun u => u = s) ∧
  (∀ (l : Nat) (rest : List Nat) (e : BitVec 560) (s : State), Quiet s → sysClocks s = true → s.mem.reread = l :: rest →
    Completes (.memReread 0) s [] (fun u => u.mem = { s.mem with reread := rest } ∧ OnlyParts [.mem] s u)
    ∧ (poisoned s l = true → Completes (.memReread e) s [] fun u => u.mem = { s.mem with reread := rest } ∧ OnlyParts [.mem] s u)
    ∧ (poisoned s l = false → Corrects [] e.toNat → Completes (.memReread e) s [evMerged 0x1001 (l / 2 ^ 20 + 1) [(1, l / 2 ^ 20 + 1)]] fun u =>
        u.mem = { s.mem with reread := rest } ∧ Counts (F.MEM_Md_CORR_CORR (l / 2 ^ 20 + 1)) 1 s u
        ∧ Only [.mem] [F.MEM_Md_CORR_CORR (l / 2 ^ 20 + 1)] s u)) ∧
  (∀ (k : BitVec 560) (s : State), Quiet s → s.mem.reread = [] → Completes (.memReread k) s [] fun u => u = s) ∧
  (∀ (n : Fin 24) (mode : BitVec 2) (s : State), Quiet s → mode.toNat < 3 → (groupHasTt s n = true → mode = 1) →
    (flag s F.SCH_CTRL_ENABLE = true → (mode = 2 ↔ groupMode s n = 2)) → (cacheGroups s).length < 12 →
    Completes (.memGroupModeWrite n mode) s [] fun u =>
      fld u (F.MEM_GRPn_CFG_MODE n) = mode.toNat ∧ OnlyRegs [F.MEM_GRPn_CFG_MODE n] s u) ∧
  (∀ (n : Fin 24) (mode : BitVec 2) (s : State), Quiet s → mode ≠ 3 →
    (groupHasTt s n = true ∧ mode ≠ 1)
      ∨ (flag s F.SCH_CTRL_ENABLE = true ∧ (mode = 2 ↔ groupMode s n ≠ 2) )
      ∨ (mode = 2 ∧ groupMode s n ≠ 2 ∧ 12 ≤ (cacheGroups s).length) →
    Completes (.memGroupModeWrite n mode) s [ev 0x1005 [(1, n)]] fun u => u = s) ∧
  (∀ (n : Fin 24) (s : State), Quiet s → Completes (.memGroupModeWrite n 3) s [] fun u => u = s) ∧
  (∀ (n : Fin 24) (upper : Bool) (v : Word) (s : State), Quiet s →
    Completes (.memGroupOwnerWrite n upper v) s [] fun u =>
      (∀ i, i < 4 → fld u (F.MEM_GRPn_OWNER_OWNERi n (4 * (if upper then 1 else 0) + i))
        = if codeKnown (bits v.toNat (8 * i) 8) = true ∧ bankIsTt s n (4 * (if upper then 1 else 0) + i) = false then bits v.toNat (8 * i) 8
          else fld s (F.MEM_GRPn_OWNER_OWNERi n (4 * (if upper then 1 else 0) + i)))
      ∧ OnlyRegs ((List.range 4).map fun i => F.MEM_GRPn_OWNER_OWNERi n (4 * (if upper then 1 else 0) + i)) s u) ∧
  (∀ (s : State), Quiet s → flag s F.MEM_CTRL_ENABLE = true →
    Completes .memDisable s [] fun u =>
      memEnabled u = false ∧ flag u F.MEM_CTRL_ENABLE = !memDrained s ∧ OnlyRegs [F.MEM_CTRL_ENABLE, F.MEM_STATUS_DRAINING] s u) ∧
  (∀ (s : State), Quiet s → flag s F.MEM_CTRL_ENABLE = false → Completes .memDisable s [] fun u => u = s) ∧
  (∀ (s : State), Quiet s →
    Completes .patrolDisable s [] fun u => flag u F.MEM_PATROL_ENABLE = false ∧ OnlyRegs [F.MEM_PATROL_ENABLE] s u) ∧
  (∀ (s : State), Quiet s → s.bst.startup.any (· < 3) = false →
    Completes .memInitDone s [] fun u => flag u F.MEM_STATUS_INIT_DONE = true ∧ OnlyRegs [F.MEM_STATUS_INIT_DONE] s u) ∧
  (∀ (s : State), Quiet s → s.bst.startup.any (· < 3) = true → Completes .memInitDone s [] fun u => u = s)

/-! ### Stack cache, host window and sealed pages (chapter 14) -/

/-- The ways of the directory have storage of their own. -/
abbrev WaysApart (s : State) : Prop := (s.cache.ways.map fun e => slotLine s e.1).Nodup

/-- Every page of a range has an owner. -/
def OwnersAre (first count own : Nat) (s u : State) : Prop :=
  (∀ i, i ≤ count → smGet u.hwn.owner (first + i) 0 = own)
  ∧ (∀ p, p < first ∨ first + count < p → smGet u.hwn.owner p 0 = smGet s.hwn.owner p 0)
  ∧ u.hwn.map = s.hwn.map ∧ u.hwn.init = s.hwn.init ∧ u.hwn.rings = s.hwn.rings ∧ u.hwn.aborts = s.hwn.aborts

/-- Page maps, sealed pages and ownership (R288 to R292, R309, R310): an entry is read with its STATE; a write maps a page and gives it
to the host, or seals it, and is refused with event 0x1203 in the four cases of R289; a page that is no longer sealed loses its
cached lines without write-back; a newly sealed page is written as encrypted zeros; pages are given at once, refused as a whole,
and reclaimed by writing back and invalidating their lines, with event 0x1201. -/
def Obligations.PagesAndOwnership : Prop :=
  (∀ (p : Fin 32768) (s : State), Quiet s →
    Completes (.mapLoad p) s [] fun u =>
      fld u F.HWN_MAP_DATA_ENTRY = (pageEntry s p + 4 * pageState s p) % 2 ^ 128 ∧ OnlyRegs [F.HWN_MAP_DATA_ENTRY] s u) ∧
  (∀ (p : Fin 32768) (e : Nat) (s : State), Quiet s → hwnOn s = true → entryBits (fld s F.HWN_MAP_DATA_ENTRY) = e →
    (bitOf e 0 && bitOf e 1) = false → pageSealed s p = false → (pageValid s p = true → pageOwner s p = 0) →
    Completes (.mapWrite p) s [] fun u =>
      pageEntry u p = e ∧ pageOwner u p = 0 ∧ pageState u p = 0 ∧ (∀ q, q ≠ p.val → pageEntry u q = pageEntry s q ∧ pageOwner u q = pageOwner s q)
      ∧ (∀ q, q ≠ p.val → (q ∈ u.hwn.init ↔ q ∈ s.hwn.init)) ∧ fld u F.HWN_MAP_RESULT_RESULT = 0
      ∧ Only [.hwn] [F.HWN_MAP_RESULT_RESULT] s u) ∧
  (∀ (p : Fin 32768) (e : Nat) (s : State), Quiet s → hwnOn s = true → entryBits (fld s F.HWN_MAP_DATA_ENTRY) = e →
    bitOf e 0 = true → bitOf e 1 = true → pageSealed s p = false → (pageValid s p = true → pageOwner s p = 0) →
    smGet s.enc.used p 0 ≠ 1 → rekeying s = false → encOn s = true →
    Completes (.mapWrite p) s [] fun u =>
      pageEntry u p = e ∧ pageOwner u p = 1 ∧ pageState u p = 1 ∧ (∀ q, q ≠ p.val → pageEntry u q = pageEntry s q ∧ pageOwner u q = pageOwner s q)
      ∧ (∀ q, q ≠ p.val → (q ∈ u.hwn.init ↔ q ∈ s.hwn.init)) ∧ smGet u.enc.used p 0 = 1 ∧ fld u F.HWN_MAP_RESULT_RESULT = 0
      ∧ Only [.hwn, .enc] [F.HWN_MAP_RESULT_RESULT] s u) ∧
  (∀ (p : Fin 32768) (s : State), Quiet s → hwnOn s = true → (bitOf (fld s F.HWN_MAP_DATA_ENTRY) 0 && bitOf (fld s F.HWN_MAP_DATA_ENTRY) 1) = false →
    pageSealed s p = true → (∀ f ∈ s.cache.fills, f.line / 32768 ≠ p.val) →
    Completes (.mapWrite p) s [] fun u =>
      pageSealed u p = false ∧ (∀ e ∈ u.cache.ways, e.2.line / 32768 ≠ p.val)
      ∧ (∀ e ∈ s.cache.ways, e.2.line / 32768 ≠ p.val → (∀ e2 ∈ s.cache.ways, e2.2.line / 32768 = p.val → e2.1 ≠ e.1) → e ∈ u.cache.ways)
      ∧ u.hostWr = s.hostWr ∧ u.mem.cells = s.mem.cells ∧ fld u F.HWN_MAP_RESULT_RESULT = 0
      ∧ Only [.hwn, .cache, .mem] [F.HWN_MAP_RESULT_RESULT] s u) ∧
  (∀ (p : Fin 32768) (n : Fin 5) (s : State), Quiet s → hwnOn s = true → n ≠ 0 →
    n.val = (if pageValid s p = true ∧ pageSealed s p = false ∧ pageOwner s p ≠ 0 then 1
      else if bitOf (fld s F.HWN_MAP_DATA_ENTRY) 0 = false ∨ bitOf (fld s F.HWN_MAP_DATA_ENTRY) 1 = false then 0
      else if smGet s.enc.used p 0 = 1 then 2 else if rekeying s = true then 3 else if encOn s = false then 4 else 0) →
    Completes (.mapWrite p) s [ev 0x1203 []] fun u => fld u F.HWN_MAP_RESULT_RESULT = n ∧ OnlyRegs [F.HWN_MAP_RESULT_RESULT] s u) ∧
  (∀ (p q : Fin 32768) (s : State), Quiet s → hwnOn s = false →
    Completes (.mapWrite p) s [] (fun u => u = s) ∧ Completes (.hwnOwnGive p q) s [] (fun u => u = s)
    ∧ Completes (.hwnOwnReclaim p q) s [] fun u => u = s) ∧
  (∀ (p : Fin 32768) (s : State), Quiet s → p.val ∈ s.hwn.init → bme s = true → s.cache.zero = none →
    Completes (.sealedPageInitDone p) s [] fun u =>
      u.hwn = { s.hwn with init := s.hwn.init.filter (· != p.val) }
      ∧ u.hostWr.length = s.hostWr.length + 65536 ∧ u.hostWr.drop 65536 = s.hostWr
      ∧ (∀ j, j < 32768 → u.hostWr[65535 - 2 * j]? = some ⟨hostAddr s (p * 32768 + j), 64,
            sealData (keyOf s (p * 32768 + j)) (p * 32768 + j) 0 0 % 2 ^ 512⟩
          ∧ u.hostWr[65534 - 2 * j]? = some ⟨tagAddr s (p * 32768 + j), 16,
            sealTag (keyOf s (p * 32768 + j)) (p * 32768 + j) 0 (sealData (keyOf s (p * 32768 + j)) (p * 32768 + j) 0 0)⟩)
      ∧ OnlyParts [.hwn, .hostWr] s u) ∧
  (∀ (p : Fin 32768) (s : State), Quiet s → p.val ∉ s.hwn.init ∨ bme s = false →
    Completes (.sealedPageInitDone p) s [] fun u => u = s) ∧
  (∀ (p q : Fin 32768) (s : State), Quiet s → hwnOn s = true → pagesHave s p q 0 = true →
    Completes (.hwnOwnGive p q) s [] fun u =>
      OwnersAre p q 1 s u ∧ flag u F.HWN_OWN_RESULT_GIVE_REFUSED = false ∧ Only [.hwn] [F.HWN_OWN_RESULT_GIVE_REFUSED] s u) ∧
  (∀ (p q i : Fin 32768) (s : State), Quiet s → hwnOn s = true → i ≤ q →
    p.val + q.val ≥ 32768 ∨ pageValid s (p + i.val) = false ∨ pageSealed s (p + i.val) = true ∨ pageOwner s (p + i.val) = 2 →
    Completes (.hwnOwnGive p q) s [] (fun u => flag u F.HWN_OWN_RESULT_GIVE_REFUSED = true ∧ OnlyRegs [F.HWN_OWN_RESULT_GIVE_REFUSED] s u)
    ∧ Completes (.hwnOwnReclaim p q) s [] fun u =>
        flag u F.HWN_OWN_RESULT_RECLAIM_REFUSED = true ∧ OnlyRegs [F.HWN_OWN_RESULT_RECLAIM_REFUSED] s u) ∧
  (∀ (p q : Fin 32768) (s : State), Quiet s → hwnOn s = true → pagesHave s p q 1 = true →
    Completes (.hwnOwnReclaim p q) s [] fun u =>
      OwnersAre p q 2 s u ∧ u.hwn.reclaims = s.hwn.reclaims ++ [⟨p, q, none⟩] ∧ flag u F.HWN_OWN_RESULT_RECLAIM_REFUSED = false
      ∧ flag u F.HWN_OWN_RESULT_RECLAIMING = true
      ∧ Only [.hwn] [F.HWN_OWN_RESULT_RECLAIM_REFUSED, F.HWN_OWN_RESULT_RECLAIMING] s u) ∧
  (∀ (p q : Nat) (r : List Reclaim) (s : State), Quiet s → bme s = true → s.hwn.reclaims = ⟨p, q, none⟩ :: r → WaysApart s →
    (∀ f ∈ s.cache.fills, f.line / 32768 < p ∨ p + q < f.line / 32768) →
    Completes .reclaimDone s [ev 0x1201 []] fun u =>
      OwnersAre p q 0 s u ∧ u.hwn.reclaims = r ∧ flag u F.HWN_OWN_RESULT_RECLAIMING = !r.isEmpty
      ∧ (∀ e ∈ s.cache.ways, p ≤ e.2.line / 32768 → e.2.line / 32768 ≤ p + q → ownerBit s e.1 oDIRTY = true → slotPoison s e.1 = false →
          ownerBit s e.1 oSEALED = false → ⟨hostAddr s e.2.line, 64, slotData s e.1 % 2 ^ 512⟩ ∈ u.hostWr)
      ∧ u.cache.ways = s.cache.ways.filter (fun e => decide (e.2.line / 32768 < p) || decide (p + q < e.2.line / 32768))
      ∧ u.mem.cells = s.mem.cells
      ∧ Only [.hwn, .cache, .mem, .hostWr] [F.HWN_OWN_RESULT_RECLAIMING, F.SCH_WB_WB] s u) ∧
  (∀ (s : State), Quiet s → s.hwn.reclaims = [] ∨ bme s = false → Completes .reclaimDone s [] fun u => u = s)

/-- A window access of engine n, its k-th request q, is at the stack cache, and its page serves it: no reset, the cache on, the
page mapped, owned by the device, and not waiting; no fill of the line is under way, and the die of its set answers. -/
abbrev AtCache (s : State) (n k : Nat) (q : WinReq) (l : Nat) : Prop :=
  Quiet s ∧ hostReq s n k q.store = some q ∧ (q.addr - 0x100000000000) / 64 = l ∧ winStatus s l = 0
  ∧ l / 32768 ∉ s.hwn.init ∧ (∀ f ∈ s.cache.fills, f.line ≠ l) ∧ dieShut s (memPos (setDie s l)) = false
  ∧ bitOf (fld s F.STK_UNREACH_DIES) (setDie s l - 1) = false

/-- The way has the line, and its die is not in reset. -/
abbrev Holds (s : State) (l w : Nat) : Prop := wayOf s l = some w ∧ dieShut s (memPos (slotLine s w / 2 ^ 20 + 1)) = false

/-- The stack cache (R293 to R302, R304, R309, R310): a read hit returns the way's bytes, a partial write hit merges and makes the way
DIRTY; a read of an EXHAUSTED or held poisoned way completes POISON, of a TAGFAIL way TAG_FAIL, and a write of an EXHAUSTED way
COUNTER_EXHAUSTED with event 0x1302; a miss reserves the way that allocation names and a fill; a fill installs the line, a sealed
one decrypted if its tag verifies and with POISON, TAGFAIL and event 0x1301 if not; a fill that fails ends its accesses; the state
of device and page refuses an access in R296's order, and a die in reset with RESET; a line that stays uncorrectable ends the access INTERNAL; enabling, disabling, whole-line zeros and the rekey as their rules say.
Enabling and disabling the stack cache, whole-line zeros, and the rekey (R293, R296, R298, R301, R304, R310): an enable without CACHE groups sets CFG_ERR
with event 0x1101, any other empties every way; a disable writes every dirty line back while bus mastering is on and waits
otherwise; SCH_ZERO makes a line zeros and DIRTY; a rekey draws a key, moves ENC_BOUND line by line or over a page that is not
sealed, rewrites what verifies with counter 0, and at the end takes the new key with event 0x1303. -/
def Obligations.StackCacheServesAndStops : Prop :=
  (∀ (n : Fin 96) (k : Fin 16) (q : WinReq) (l w : Nat) (s : State), AtCache s n k q l → Calm s n q.thread → q.store = false → q.width < 8 →
    q.thread < 4 → Holds s l w → ownerBit s w oEXHAUSTED = false → ownerBit s w oTAGFAIL = false → slotPoison s w = false →
    Completes (.hostWindowRead n k 0) s [] fun u =>
      LoadEnds n q ST.ok (extend (lineBytes s (slotLine s w) (q.addr % 64) q.width) q.width q.sgn) s u
      ∧ u.cache = { s.cache with plru := u.cache.plru } ∧ Counts F.SCH_HITS_HITS 1 s u ∧ Only [.engines, .cache] [F.SCH_HITS_HITS] s u) ∧
  (∀ (n : Fin 96) (k : Fin 16) (q : WinReq) (l w : Nat) (s : State), AtCache s n k q l → q.store = true → q.addr % 64 + q.width ≤ 64 →
    (thread s n q.thread).blk ≠ Blk.fence → Holds s l w → ownerBit s w oEXHAUSTED = false → ownerBit s w oTAGFAIL = false →
    slotPoison s w = false →
    Completes (.hostWindowWrite n k 0) s [] fun u =>
      (engine u n).win = (engine s n).win.erase q ∧ owner u w = owner s w ||| 2
      ∧ (∀ i, i < 64 → cell u (slotLine s w) i = if q.addr % 64 ≤ i ∧ i < q.addr % 64 + q.width
          then BitVec.ofNat 8 (bits q.data (8 * (i - q.addr % 64)) 8) else cell s (slotLine s w) i)
      ∧ (∀ j o, o < 64 → j ≠ slotLine s w → cell u j o = cell s j o)
      ∧ u.cache = { s.cache with plru := u.cache.plru } ∧ Only [.engines, .cache, .mem] [F.SCH_HITS_HITS] s u) ∧
  (∀ (n : Fin 96) (k : Fin 16) (q : WinReq) (l w : Nat) (s : State), AtCache s n k q l → Calm s n q.thread → q.store = false → q.width < 8 →
    q.thread < 4 → Holds s l w → ownerBit s w oEXHAUSTED = true ∨ ownerBit s w oTAGFAIL = true ∨ slotPoison s w = true →
    Completes (.hostWindowRead n k 0) s [] fun u =>
      LoadEnds n q (if ownerBit s w oTAGFAIL then ST.tagFail else ST.poison) 0 s u
      ∧ Only [.engines, .cache] [F.SCH_HITS_HITS] s u) ∧
  (∀ (n : Fin 96) (k : Fin 16) (q : WinReq) (l w : Nat) (s : State), AtCache s n k q l → q.store = true →
    (thread s n q.thread).blk ≠ Blk.fence → Holds s l w → ownerBit s w oEXHAUSTED = true →
    Completes (.hostWindowWrite n k 0) s [ev 0x1302 [(4, l)], ev 0x1803 [(1, n)]] fun u =>
      (engine u n).win = (engine s n).win.erase q ∧ Counts F.ENC_CNT_EXHAUSTED_EXH 1 s u ∧ u.mem = s.mem
      ∧ (flag s (F.ENG_n_WERR_VALID n) = false → fld u (F.ENG_n_WERR_STATUS n) = ST.exhausted)
      ∧ Only [.engines, .cache] [F.SCH_HITS_HITS, F.ENC_CNT_EXHAUSTED_EXH, F.ENG_n_WERR_STATUS n, F.ENG_n_WERR_WINDOW n,
          F.ENG_n_WERR_OFF_OFFSET n, F.ENG_n_WERR_VALID n] s u) ∧
  (∀ (n : Fin 96) (k : Fin 16) (q : WinReq) (l w : Nat) (s : State), AtCache s n k q l → wayOf s l = none → bme s = true →
    s.cache.fills.length < 256 → chooseSlot s (l % cacheSets s) = some w → wayValid s w = false →
    Completes (if q.store then .hostWindowWrite n k 0 else .hostWindowRead n k 0) s [] fun u =>
      (u.cache.fills.drop s.cache.fills.length).map (fun x => (x.line, x.slot)) = [(l, w)]
      ∧ u.cache.fills.take s.cache.fills.length = s.cache.fills ∧ u.cache.ways = s.cache.ways ∧ Counts F.SCH_MISSES_MISSES 1 s u
      ∧ Only [.cache] [F.SCH_MISSES_MISSES] s u) ∧
  (∀ (n : Fin 96) (k : Fin 16) (q : WinReq) (l w : Nat) (s : State), AtCache s n k q l → wayOf s l = none → bme s = true →
    s.cache.fills.length < 256 → chooseSlot s (l % cacheSets s) = some w → wayValid s w = true → ownerBit s w oDIRTY = true →
    slotPoison s w = false → ownerBit s w oSEALED = false →
    Completes (if q.store then .hostWindowWrite n k 0 else .hostWindowRead n k 0) s [] fun u =>
      u.hostWr = ⟨hostAddr s (way s w).line, 64, slotData s w % 2 ^ 512⟩ :: s.hostWr ∧ wayValid u w = false ∧ owner u w = 0
      ∧ u.cache.ways = s.cache.ways.filter (fun e => e.1 != w) ∧ u.mem.cells = s.mem.cells ∧ Counts F.SCH_WB_WB 1 s u
      ∧ Only [.cache, .mem, .hostWr] [F.SCH_WB_WB, F.SCH_MISSES_MISSES] s u) ∧
  (∀ (n : Fin 96) (k : Fin 16) (q : WinReq) (st : Nat) (s : State), Calm s n q.thread → hostReq s n k false = some q → q.width < 8 → q.thread < 4 →
    q.store = false → st ≠ 0 →
    blkShut s 0x11 = false → blkShut s 0x12 = false → blkShut s 0x13 = false →
    st = (if hostInReset s then ST.reset else if schOn s = false ∨ (pageSealed s ((q.addr - 0x100000000000) / 2097152) = true ∧ encOn s = false)
        then ST.disabled else if pageValid s ((q.addr - 0x100000000000) / 2097152) = false then ST.decode
        else if pageSealed s ((q.addr - 0x100000000000) / 2097152) = false ∧ pageOwner s ((q.addr - 0x100000000000) / 2097152) ≠ 1
        then ST.denied else 0) →
    Completes (.hostWindowRead n k 0) s [] fun u => LoadEnds n q st 0 s u ∧ OnlyParts [.engines] s u) ∧
  (∀ (n : Fin 96) (k : Fin 16) (ecc : Fin 4) (s : State), Quiet s → (engine s n).win[k.val]? = none →
    Completes (.hostWindowRead n k ecc) s [] (fun u => u = s) ∧ Completes (.hostWindowWrite n k ecc) s [] fun u => u = s) ∧
  (∀ (k : Fin 256) (d : BitVec 512) (ctr tag : BitVec 64) (n : Nat) (q : WinReq) (l w : Nat) (s : State), Calm s n q.thread →
    s.cache.fills[k.val]? = some ⟨l, w, [⟨.engine n q, l, q.addr % 64, q.width, false, false, 2 ^ q.width - 1, q.data⟩]⟩ →
    q ∈ (engine s n).win → q.store = false → q.width < 8 → q.thread < 4 → q.addr % 64 + q.width ≤ 64 →
    pageSealed s (l / 32768) = false → wayOf s l = none → wayValid s w = false →
    Completes (.cacheFillDone k d ctr tag false) s [] fun u =>
      LoadEnds n q ST.ok (extend (bits d.toNat (8 * (q.addr % 64)) (8 * q.width)) q.width q.sgn) s u
      ∧ wayOf u l = some w ∧ owner u w = 1 ∧ slotPoison u w = false ∧ (∀ i, i < 64 → cell u (slotLine s w) i = BitVec.ofNat 8 (bits d.toNat (8 * i) 8))
      ∧ (∀ j o, o < 64 → j ≠ slotLine s w → cell u j o = cell s j o)
      ∧ (∀ e ∈ s.cache.ways, e.1 ≠ w → e ∈ u.cache.ways) ∧ (∀ e ∈ u.cache.ways, e.1 ≠ w → e ∈ s.cache.ways) ∧ u.cache.fills = s.cache.fills.eraseIdx k ∧ OnlyParts [.engines, .cache, .mem] s u) ∧
  (∀ (k : Fin 256) (d : BitVec 512) (ctr tag : BitVec 64) (l w : Nat) (s : State), Quiet s → s.cache.fills[k.val]? = some ⟨l, w, []⟩ →
    (∀ f ∈ s.cache.fills.take k.val, f ≠ ⟨l, w, []⟩) →
    pageSealed s (l / 32768) = true → wayOf s l = none → wayValid s w = false →
    sealTag (keyOf s l) l ctr.toNat d.toNat = tag.toNat →
    Completes (.cacheFillDone k d ctr tag false) s [] fun u =>
      wayOf u l = some w ∧ (way u w).ctr = ctr.toNat
      ∧ owner u w = (if ctr = BitVec.allOnes 64 then 0x15 else 5) ∧ slotPoison u w = false
      ∧ (∀ i, i < 64 → cell u (slotLine s w) i = BitVec.ofNat 8 (bits (sealData (keyOf s l) l ctr.toNat d.toNat) (8 * i) 8))
      ∧ u.cache.fills = s.cache.fills.eraseIdx k ∧ OnlyParts [.cache, .mem] s u) ∧
  (∀ (k : Fin 256) (d : BitVec 512) (ctr tag : BitVec 64) (l w : Nat) (s : State), Quiet s → s.cache.fills[k.val]? = some ⟨l, w, []⟩ →
    (∀ f ∈ s.cache.fills.take k.val, f ≠ ⟨l, w, []⟩) →
    pageSealed s (l / 32768) = true → wayOf s l = none → wayValid s w = false →
    sealTag (keyOf s l) l ctr.toNat d.toNat ≠ tag.toNat →
    Completes (.cacheFillDone k d ctr tag false) s [ev 0x1301 [(4, l)]] fun u =>
      wayOf u l = some w ∧ (way u w).ctr = (if ctr = BitVec.allOnes 64 then 0 else ctr.toNat) ∧ ownerBit u w oTAGFAIL = true
      ∧ slotPoison u w = true ∧ Counts F.ENC_CNT_TAG_FAIL_FAIL 1 s u ∧ u.cache.fills = s.cache.fills.eraseIdx k
      ∧ Only [.cache, .mem] [F.ENC_CNT_TAG_FAIL_FAIL] s u) ∧
  (∀ (k : Fin 256) (d : BitVec 512) (ctr tag : BitVec 64) (n : Nat) (q : WinReq) (l w : Nat) (s : State), Calm s n q.thread →
    s.cache.fills[k.val]? = some ⟨l, w, [⟨.engine n q, l, q.addr % 64, q.width, false, false, 2 ^ q.width - 1, q.data⟩]⟩ →
    q ∈ (engine s n).win → q.store = false → q.width < 8 → q.thread < 4 →
    Completes (.cacheFillDone k d ctr tag true) s [] (fun u =>
      LoadEnds n q ST.decode 0 s u ∧ u.cache.ways = s.cache.ways ∧ OnlyParts [.engines, .cache] s u)
    ∧ Completes (.fillTimeout k) s [evMerged 0x1204 0 []] fun u =>
      LoadEnds n q ST.timeout 0 s u ∧ u.cache.ways = s.cache.ways ∧ OnlyParts [.engines, .cache] s u) ∧
  (∀ (k : Fin 256) (d : BitVec 512) (ctr tag : BitVec 64) (b : Bool) (s : State), Quiet s → s.cache.fills[k.val]? = none →
    Completes (.cacheFillDone k d ctr tag b) s [] (fun u => u = s) ∧ Completes (.fillTimeout k) s [] fun u => u = s) ∧
  (∀ (n : Fin 96) (k : Fin 16) (q : WinReq) (l w : Nat) (s : State), AtCache s n k q l → Calm s n q.thread → q.store = false → q.width < 8 →
    q.thread < 4 → Holds s l w → ownerBit s w oEXHAUSTED = false → ownerBit s w oTAGFAIL = false → slotPoison s w = false →
    Completes (.hostWindowRead n k 3) s [ev 0x1003 []] fun u =>
      LoadEnds n q ST.internal 0 s u ∧ Counts (F.MEM_Md_XFER_FAIL_FAIL (slotLine s w / 2 ^ 20 + 1)) 1 s u
      ∧ Only [.engines, .cache] [F.SCH_HITS_HITS, F.MEM_Md_XFER_FAIL_FAIL (slotLine s w / 2 ^ 20 + 1)] s u) ∧
  (∀ (n : Fin 96) (k : Fin 16) (q : WinReq) (l : Nat) (s : State), Calm s n q.thread → hostReq s n k false = some q →
    (q.addr - 0x100000000000) / 64 = l → q.store = false → q.width < 8 → q.thread < 4 → winStatus s l = 0 → l / 32768 ∉ s.hwn.init →
    (∀ f ∈ s.cache.fills, f.line ≠ l) → dieShut s (memPos (setDie s l)) = true →
    Completes (.hostWindowRead n k 0) s [] fun u => LoadEnds n q ST.reset 0 s u ∧ OnlyParts [.engines] s u) ∧
  (∀ (s : State), Quiet s → flag s F.SCH_CTRL_ENABLE = false → cacheGroups s = [] →
    Completes .schEnable s [ev 0x1101 []] fun u => flag u F.SCH_STATUS_CFG_ERR = true ∧ OnlyRegs [F.SCH_STATUS_CFG_ERR] s u) ∧
  (∀ (s : State), Quiet s → flag s F.SCH_CTRL_ENABLE = false → cacheGroups s ≠ [] →
    Completes .schEnable s [] fun u =>
      flag u F.SCH_CTRL_ENABLE = true ∧ fld u F.SCH_STATUS_GROUPS = (cacheGroups s).length % 16 ∧ u.cache.ways = []
      ∧ u.mem.cells = s.mem.cells ∧ u.hostWr = s.hostWr ∧ Only [.cache, .mem] [F.SCH_CTRL_ENABLE, F.SCH_STATUS_GROUPS] s u) ∧
  (∀ (s : State), Quiet s → flag s F.SCH_CTRL_ENABLE = true → Completes .schEnable s [] fun u => u = s) ∧
  (∀ (s : State), Quiet s → flag s F.SCH_CTRL_ENABLE = true → bme s = true → WaysApart s → s.cache.fills = [] → s.hwn.reclaims = [] →
    Completes .schDisable s [] fun u =>
      flag u F.SCH_CTRL_ENABLE = false ∧ flag u F.SCH_STATUS_DRAINING = false ∧ u.cache.ways = []
      ∧ (∀ e ∈ s.cache.ways, ownerBit s e.1 oDIRTY = true → slotPoison s e.1 = false → ownerBit s e.1 oSEALED = false →
          ⟨hostAddr s e.2.line, 64, slotData s e.1 % 2 ^ 512⟩ ∈ u.hostWr)
      ∧ Only [.cache, .mem, .hostWr] [F.SCH_CTRL_ENABLE, F.SCH_STATUS_DRAINING, F.SCH_WB_WB] s u) ∧
  (∀ (s : State), Quiet s → flag s F.SCH_CTRL_ENABLE = true → bme s = false → s.cache.ways ≠ [] →
    Completes .schDisable s [] fun u =>
      flag u F.SCH_STATUS_DRAINING = true ∧ schOn u = false ∧ OnlyRegs [F.SCH_STATUS_DRAINING] s u) ∧
  (∀ (s : State), Quiet s → flag s F.SCH_CTRL_ENABLE = false → Completes .schDisable s [] fun u => u = s) ∧
  (∀ (h : BitVec 16) (a w : Nat) (s : State), Quiet s → fld s F.SCH_ZERO_LINE % 2 ^ 26 * 64 + h.toNat * 2 ^ 32 = a → devIsHost a = true →
    winStatus s ((a - 0x100000000000) / 64) = 0 → (a - 0x100000000000) / 64 / 32768 ∉ s.hwn.init →
    (∀ f ∈ s.cache.fills, f.line ≠ (a - 0x100000000000) / 64) → Holds s ((a - 0x100000000000) / 64) w → ownerBit s w oEXHAUSTED = false →
    Completes (.schZero h) s [] fun u =>
      fld u F.SCH_ZERO_RESULT_STATUS = ST.ok ∧ flag u F.SCH_ZERO_RESULT_DONE = true
      ∧ (∀ i, i < 64 → cell u (slotLine s w) i = 0) ∧ ownerBit u w oDIRTY = true ∧ ownerBit u w oTAGFAIL = false ∧ slotPoison u w = false
      ∧ (∀ j o, o < 64 → j ≠ slotLine s w → cell u j o = cell s j o)
      ∧ Only [.cache, .mem] [F.SCH_ZERO_LINE, F.SCH_ZERO_RESULT_STATUS, F.SCH_ZERO_RESULT_DONE, F.SCH_HITS_HITS] s u) ∧
  (∀ (h : BitVec 16) (s : State), Quiet s → devIsHost (fld s F.SCH_ZERO_LINE % 2 ^ 26 * 64 + h.toNat * 2 ^ 32) = false →
    Completes (.schZero h) s [] fun u =>
      fld u F.SCH_ZERO_RESULT_STATUS = ST.decode ∧ flag u F.SCH_ZERO_RESULT_DONE = true
      ∧ OnlyRegs [F.SCH_ZERO_LINE, F.SCH_ZERO_RESULT_STATUS, F.SCH_ZERO_RESULT_DONE] s u) ∧
  (∀ (s : State), Quiet s → rekeying s = false →
    Completes .rekeyGo s [] fun u =>
      rekeying u = true ∧ flag u F.ENC_REKEY_GO = true ∧ fld u F.ENC_BOUND_BOUND = 0 ∧ u.enc.cur = s.enc.cur ∧ u.enc.used = s.enc.used
      ∧ u.enc.usedNext = [] ∧ Only [.enc, .free] [F.ENC_STATUS_REKEYING, F.ENC_REKEY_GO, F.ENC_BOUND_BOUND] s u) ∧
  (∀ (s : State), Quiet s → rekeying s = true → Completes .rekeyGo s [] fun u => u = s) ∧
  (∀ (d : BitVec 512) (ctr tag : BitVec 64) (ok : Bool) (l : Nat) (s : State), Quiet s → rekeying s = true → bme s = true →
    fld s F.ENC_BOUND_BOUND = l → pageSealed s (l / 32768) = false → l / 32768 + 1 < 32768 →
    Completes (.rekeyVisit d ctr tag ok) s [] fun u => fld u F.ENC_BOUND_BOUND = (l / 32768 + 1) * 32768 ∧ OnlyRegs [F.ENC_BOUND_BOUND] s u) ∧
  (∀ (d : BitVec 512) (ctr tag : BitVec 64) (ok : Bool) (l : Nat) (s : State), Quiet s → rekeying s = true → bme s = true →
    fld s F.ENC_BOUND_BOUND = l → pageSealed s (l / 32768) = false → l / 32768 = 32767 →
    Completes (.rekeyVisit d ctr tag ok) s [ev 0x1303 []] fun u =>
      fld u F.ENC_BOUND_BOUND = 0 ∧ rekeying u = false ∧ flag u F.ENC_REKEY_GO = false ∧ u.enc.cur = s.enc.next ∧ u.enc.used = s.enc.usedNext
      ∧ Only [.enc] [F.ENC_BOUND_BOUND, F.ENC_STATUS_REKEYING, F.ENC_REKEY_GO, F.ENC_CTRL_ENABLE, F.ENC_STATUS_DRAINING] s u) ∧
  (∀ (d : BitVec 512) (ctr tag : BitVec 64) (l : Nat) (s : State), Quiet s → rekeying s = true → bme s = true →
    fld s F.ENC_BOUND_BOUND = l → l + 1 < 2 ^ 30 → pageSealed s (l / 32768) = true → l / 32768 ∉ s.hwn.init → wayOf s l = none →
    sealTag s.enc.cur l ctr.toNat d.toNat = tag.toNat →
    Completes (.rekeyVisit d ctr tag true) s [] fun u =>
      fld u F.ENC_BOUND_BOUND = l + 1 ∧ smGet u.enc.usedNext (l / 32768) 0 = 1 ∧ u.enc.cur = s.enc.cur
      ∧ u.hostWr = (postSealed s s.enc.next l 0 (sealData s.enc.cur l ctr.toNat d.toNat)).hostWr
      ∧ Only [.enc, .hostWr] [F.ENC_BOUND_BOUND] s u) ∧
  (∀ (d : BitVec 512) (ctr tag : BitVec 64) (l : Nat) (s : State), Quiet s → rekeying s = true → bme s = true →
    fld s F.ENC_BOUND_BOUND = l → l + 1 < 2 ^ 30 → pageSealed s (l / 32768) = true → l / 32768 ∉ s.hwn.init → wayOf s l = none →
    sealTag s.enc.cur l ctr.toNat d.toNat ≠ tag.toNat →
    Completes (.rekeyVisit d ctr tag true) s [ev 0x1301 [(4, l)]] fun u =>
      fld u F.ENC_BOUND_BOUND = l + 1 ∧ u.hostWr = s.hostWr ∧ Counts F.ENC_CNT_TAG_FAIL_FAIL 1 s u
      ∧ Only [.enc] [F.ENC_BOUND_BOUND, F.ENC_CNT_TAG_FAIL_FAIL] s u) ∧
  (∀ (d : BitVec 512) (ctr tag : BitVec 64) (ok : Bool) (s : State), Quiet s → rekeying s = false ∨ bme s = false →
    Completes (.rekeyVisit d ctr tag ok) s [] fun u => u = s) ∧
  (∀ (s : State), Quiet s → flag s F.ENC_CTRL_ENABLE = true →
    Completes .encDisable s [] fun u =>
      encOn u = false ∧ flag u F.ENC_CTRL_ENABLE = rekeying s ∧ rekeying u = rekeying s
      ∧ OnlyRegs [F.ENC_CTRL_ENABLE, F.ENC_STATUS_DRAINING] s u) ∧
  (∀ (s : State), Quiet s → flag s F.ENC_CTRL_ENABLE = false → Completes .encDisable s [] fun u => u = s)

/-- Descriptor rings and bus mastering (R305 to R310): TAIL clears a stall; a fetched descriptor joins those in flight, or stalls the
ring where OWN is 0; copies move bytes and stop at the first failing access; RECLAIM and CONFIG descriptors do their work; an ended
descriptor is written back with OWN = 0 and its vector sent; a missing completion ends it TIMEOUT with event 0x1204; clearing Bus
Master Enable aborts rings with descriptors in flight with event 0x1202, and an aborted ring's ENABLE reads 0 once the reads of
its descriptors have ended, with nothing written back; RESET, disabling and reads of the abort log as stated. -/
def Obligations.RingsAndBusMastering : Prop :=
  (∀ (k : Fin 16) (t : BitVec 12) (s : State), Quiet s →
    Completes (.ringTailWrite k t) s [] fun u =>
      fld u (F.HWN_RINGk_TAIL_TAIL k) = t.toNat ∧ flag u (F.HWN_RINGk_STATUS_STALLED k) = false
      ∧ OnlyRegs [F.HWN_RINGk_TAIL_TAIL k, F.HWN_RINGk_STATUS_STALLED k] s u) ∧
  (∀ (k : Fin 16) (d : BitVec 256) (s : State), Quiet s → ringOn s k = true → flag s (F.HWN_RINGk_STATUS_STALLED k) = false →
    flag s (F.HWN_RINGk_STATUS_ABORTED k) = false → (ring s k).length < 32 →
    fld s (F.HWN_RINGk_HEAD_HEAD k) ≠ fld s (F.HWN_RINGk_TAIL_TAIL k) % 2 ^ fld s (F.HWN_RINGk_SIZE_SIZE k) →
    fld s (F.HWN_RINGk_SIZE_SIZE k) ≤ 12 →
    Completes (.descriptorFetch k d) s [] fun u =>
      (d.getLsbD 0 = true → ring u k = ring s k ++ [⟨fld s (F.HWN_RINGk_HEAD_HEAD k), d.toNat, false, 0, none⟩]
        ∧ fld u (F.HWN_RINGk_HEAD_HEAD k) = (fld s (F.HWN_RINGk_HEAD_HEAD k) + 1) % 2 ^ fld s (F.HWN_RINGk_SIZE_SIZE k)
        ∧ fld u (F.HWN_RINGk_STATUS_INFLIGHT k) = (ring s k).length + 1 ∧ flag u (F.HWN_RINGk_STATUS_STALLED k) = false)
      ∧ (d.getLsbD 0 = false → flag u (F.HWN_RINGk_STATUS_STALLED k) = true ∧ u.hwn = s.hwn
          ∧ fld u (F.HWN_RINGk_HEAD_HEAD k) = fld s (F.HWN_RINGk_HEAD_HEAD k))
      ∧ (∀ j, j ≠ k.val → ring u j = ring s j)
      ∧ Only [.hwn] [F.HWN_RINGk_HEAD_HEAD k, F.HWN_RINGk_STATUS_INFLIGHT k, F.HWN_RINGk_STATUS_STALLED k] s u) ∧
  (∀ (k : Fin 16) (d : BitVec 256) (s : State), Quiet s → ringOn s k = false ∨ flag s (F.HWN_RINGk_STATUS_STALLED k) = true
      ∨ flag s (F.HWN_RINGk_STATUS_ABORTED k) = true ∨ 32 ≤ (ring s k).length →
    Completes (.descriptorFetch k d) s [] fun u => u = s) ∧
  (∀ (k : Fin 16) (i : Fin 4096) (l : List Byte) (d : Desc) (s : State), InFlight s k i d 1 → d.idx = i → copyOk d = true →
    dDev d + dLen d ≤ 0x0C000000 → l.length + d.count < dLen d → 0 < l.length → (dDev d + d.count) % 64 + l.length ≤ 64 →
    memRefusal s MC.descriptor (dDev d + d.count) = 0 → poisoned s (lineAt s (dDev d + d.count)) = false →
    Completes (.toDevice k i l false) s [] fun u =>
      PutsDesc k i { d with started := true, count := d.count + l.length } s u ∧ u.hwn.owner = s.hwn.owner ∧ u.hwn.reclaims = s.hwn.reclaims
      ∧ (∀ x, x < 64 → cell u (lineAt s (dDev d + d.count)) x = if (dDev d + d.count) % 64 ≤ x ∧ x < (dDev d + d.count) % 64 + l.length
          then l.getD (x - (dDev d + d.count) % 64) 0 else cell s (lineAt s (dDev d + d.count)) x)
      ∧ (∀ j o, o < 64 → j ≠ lineAt s (dDev d + d.count) → cell u j o = cell s j o)
      ∧ Only [.hwn, .mem] [F.HWN_RINGk_STATUS_INFLIGHT k] s u) ∧
  (∀ (k : Fin 16) (i : Fin 4096) (l : List Byte) (d : Desc) (s : State), InFlight s k i d 1 → d.idx = i → copyOk d = true →
    dDev d + dLen d ≤ 0x0C000000 → l.length + d.count ≤ dLen d → 0 < l.length → memRefusal s MC.descriptor (dDev d + d.count) ≠ 0 →
    Completes (.toDevice k i l false) s [] fun u =>
      PutsDesc k i { d with
        started := true
        fin := some (if d.count = 0 then (memRefusal s MC.descriptor (dDev d + d.count), 0) else (ST.partial_, memRefusal s MC.descriptor (dDev d + d.count))) } s u
      ∧ Only [.hwn] [F.HWN_RINGk_STATUS_INFLIGHT k] s u) ∧
  (∀ (k : Fin 16) (i : Fin 4096) (l : List Byte) (n : BitVec 13) (d : Desc) (s : State), InFlight s k i d (if n = 0 then 1 else 2) → d.idx = i →
    copyOk d = false → d.count = 0 →
    Completes (if n = 0 then .toDevice k i l false else .toHost k i n) s [] fun u =>
      PutsDesc k i { d with started := true, fin := some (ST.decode, 0) } s u ∧ Only [.hwn] [F.HWN_RINGk_STATUS_INFLIGHT k] s u) ∧
  (∀ (k : Fin 16) (i : Fin 4096) (n : BitVec 13) (d : Desc) (s : State), InFlight s k i d 2 → d.idx = i → copyOk d = true →
    dDev d + dLen d ≤ 0x0C000000 → n.toNat + d.count = dLen d → 0 < n.toNat → (dDev d + d.count) % 64 + n.toNat ≤ 64 →
    memRefusal s MC.descriptor (dDev d + d.count) = 0 → poisoned s (lineAt s (dDev d + d.count)) = false →
    Completes (.toHost k i n) s [] fun u =>
      PutsDesc k i { d with
        started := true
        count := dLen d
        fin := some (ST.ok, 0) } s u
      ∧ u.hostWr = ⟨dHost d + d.count, n.toNat, lineBytes s (lineAt s (dDev d + d.count)) ((dDev d + d.count) % 64) n.toNat⟩ :: s.hostWr
      ∧ Only [.hwn, .hostWr] [F.HWN_RINGk_STATUS_INFLIGHT k] s u) ∧
  (∀ (k : Fin 16) (i : Fin 4096) (d : Desc) (s : State), InFlight s k i d 3 → d.idx = i → 0 < dLen d → dLen d ≤ 32768 →
    dDev d % 32768 + dLen d ≤ 32768 → (∀ x ∈ s.hwn.reclaims, x.desc ≠ some (k.val, i.val)) → pagesHave s (dDev d % 32768) (dLen d - 1) 1 = true →
    Completes (.reclaim k i) s [] fun u =>
      PutsDesc k i { d with started := true } s u ∧ u.hwn.reclaims = s.hwn.reclaims ++ [⟨dDev d % 32768, dLen d - 1, some (k, i)⟩]
      ∧ (∀ x, x ≤ dLen d - 1 → smGet u.hwn.owner (dDev d % 32768 + x) 0 = 2) ∧ flag u F.HWN_OWN_RESULT_RECLAIMING = true
      ∧ Only [.hwn] [F.HWN_RINGk_STATUS_INFLIGHT k, F.HWN_OWN_RESULT_RECLAIMING, F.HWN_OWN_RESULT_RECLAIM_REFUSED] s u) ∧
  (∀ (k : Fin 16) (i : Fin 4096) (d : Desc) (s : State), InFlight s k i d 3 → d.idx = i → d.count = 0 →
    dLen d = 0 ∨ 32768 < dLen d ∨ 32768 < dDev d % 32768 + dLen d →
    Completes (.reclaim k i) s [] fun u =>
      PutsDesc k i { d with started := true, fin := some (ST.decode, 0) } s u ∧ Only [.hwn] [F.HWN_RINGk_STATUS_INFLIGHT k] s u) ∧
  (∀ (k : Fin 16) (i : Fin 4096) (l : List Byte) (b : Bool) (d : Desc) (s : State), InFlight s k i d 0x10 → d.idx = i → d.count = 0 →
    sessOpen s = false ∨ s.cfg.src ≠ k + 1 →
    Completes (.config k i l b) s [] fun u =>
      PutsDesc k i { d with started := true, fin := some (ST.denied, 0) } s u ∧ Only [.hwn] [F.HWN_RINGk_STATUS_INFLIGHT k] s u) ∧
  (∀ (k : Fin 16) (i : Fin 4096) (d : Desc) (x : Nat × Nat) (s : State), Quiet s → descAt s k i = some d → d.fin = some x → bme s = true →
    ringAborted s k = false →
    d.raw < 2 ^ 256 → x.1 < 16 → x.2 < 16 →
    Completes (.descriptorComplete k i) s [] fun u =>
      ring u k = (ring s k).filter (fun y => y.idx != i.val) ∧ (∀ j, j ≠ k.val → ring u j = ring s j)
      ∧ u.hostWr = ⟨fld s (F.HWN_RINGk_BASE_BASE k) * 4096 + 32 * d.idx, 4,
            bits d.raw 1 1 * 2 + bits d.raw 2 2 * 4 + x.1 * 16 + dOp d * 256 + x.2 * 65536⟩
          :: ⟨fld s (F.HWN_RINGk_BASE_BASE k) * 4096 + 32 * d.idx + 24, 4, d.count % 2 ^ 32⟩ :: s.hostWr
      ∧ (bitOf d.raw 1 = true → endpointHeld s = false → fld s (F.HWN_RINGk_VEC_VEC k) < F.PCI_PBA_PENDING.width →
          bitOf (fld u F.PCI_PBA_PENDING) (fld s (F.HWN_RINGk_VEC_VEC k)) = true)
      ∧ (bitOf d.raw 1 = false → fld u F.PCI_PBA_PENDING = fld s F.PCI_PBA_PENDING)
      ∧ Only [.hwn, .hostWr] [F.HWN_RINGk_STATUS_INFLIGHT k, F.PCI_PBA_PENDING] s u) ∧
  (∀ (k : Fin 16) (i : Fin 4096) (d : Desc) (s : State), Quiet s → descAt s k i = some d → d.fin = none → d.idx = i → dOp d = 1 ∨ dOp d = 0x10 →
    ringAborted s k = false → Completes (.cplTimeout k i) s [evMerged 0x1204 0 []] fun u =>
      PutsDesc k i { d with
        started := true
        fin := some (if d.count = 0 then (ST.timeout, 0) else (ST.partial_, ST.timeout)) } s u
      ∧ Only [.hwn] [F.HWN_RINGk_STATUS_INFLIGHT k] s u) ∧
  (∀ (k : Fin 16) (i : Fin 4096) (d : Desc) (s : State), Quiet s → descAt s k i = some d → d.fin ≠ none ∨ (dOp d ≠ 1 ∧ dOp d ≠ 0x10) →
    Completes (.cplTimeout k i) s [] fun u => u = s) ∧
  (∀ (k : Fin 16) (i : Fin 4096) (l : List Byte) (b : Bool) (n : BitVec 13) (s : State), Quiet s → descAt s k i = none →
    Completes (.cplTimeout k i) s [] (fun u => u = s) ∧ Completes (.descriptorComplete k i) s [] (fun u => u = s)
    ∧ Completes (.toDevice k i l b) s [] (fun u => u = s) ∧ Completes (.toHost k i n) s [] (fun u => u = s)
    ∧ Completes (.reclaim k i) s [] (fun u => u = s) ∧ Completes (.config k i l b) s [] fun u => u = s) ∧
  (∀ (k : Fin 16) (d : Desc) (s : State), Quiet s → bme s = true → (∀ j, j < 16 → ring s j = if j = k.val then [d] else []) →
    s.hwn.aborts.length < 64 → s.hwn.reclaims = [] → readOpen d = false → ringAborted s k = false →
    Completes .bmeClear s [ev 0x1202 []] fun u =>
      bme u = false ∧ flag u F.PCI_STATUS_BME = false ∧ u.hwn.aborts = s.hwn.aborts ++ [d.idx + k * 2 ^ 12 + 2 ^ 16]
      ∧ fld u F.HWN_STATUS_ABORTS = (s.hwn.aborts.length + 1) % 128 ∧ ring u k = [] ∧ flag u (F.HWN_RINGk_STATUS_ABORTED k) = true
      ∧ flag u (F.HWN_RINGk_CTRL_ENABLE k) = false ∧ u.hostWr = s.hostWr ∧ u.cache = s.cache
      ∧ Only [.hwn, .pci] [F.HWN_STATUS_BME, F.PCI_STATUS_BME, F.HWN_STATUS_ABORTS, F.HWN_RINGk_STATUS_ABORTED k, F.HWN_RINGk_CTRL_ENABLE k,
          F.HWN_RINGk_STATUS_DRAINING k, F.HWN_RINGk_STATUS_INFLIGHT k] s u) ∧
  (∀ (k : Fin 16) (d : Desc) (s : State), Quiet s → bme s = true → (∀ j, j < 16 → ring s j = if j = k.val then [d] else []) →
    s.hwn.aborts.length < 64 → s.hwn.reclaims = [] → readOpen d = true → ringAborted s k = false →
    Completes .bmeClear s [ev 0x1202 []] fun u =>
      bme u = false ∧ u.hwn.aborts = s.hwn.aborts ++ [d.idx + k * 2 ^ 12 + 2 ^ 16] ∧ ring u k = [d] ∧ ringAborted u k = true
      ∧ flag u (F.HWN_RINGk_CTRL_ENABLE k) = flag s (F.HWN_RINGk_CTRL_ENABLE k) ∧ u.hostWr = s.hostWr ∧ u.cache = s.cache
      ∧ Only [.hwn, .pci] [F.HWN_STATUS_BME, F.PCI_STATUS_BME, F.HWN_STATUS_ABORTS, F.HWN_RINGk_STATUS_ABORTED k,
          F.HWN_RINGk_STATUS_INFLIGHT k] s u) ∧
  (∀ (k : Fin 16) (i : Fin 4096) (l : List Byte) (b : Bool) (d : Desc) (s : State), Quiet s → descAt s k i = some d → ringAborted s k = true →
    d.fin = none → dOp d = 1 ∨ dOp d = 0x10 →
    Completes (if dOp d = 1 then .toDevice k i l b else .config k i l b) s [] fun u => ReadEnds k i s u) ∧
  (∀ (k : Fin 16) (i : Fin 4096) (d : Desc) (s : State), Quiet s → descAt s k i = some d → ringAborted s k = true →
    d.fin = none → dOp d = 1 ∨ dOp d = 0x10 →
    Completes (.cplTimeout k i) s [evMerged 0x1204 0 []] fun u => ReadEnds k i s u) ∧
  (∀ (k : Fin 16) (i : Fin 4096) (d : Desc) (s : State), Quiet s → descAt s k i = some d → ringAborted s k = true → d.fin ≠ none →
    Completes (.descriptorComplete k i) s [] fun u => ReadEnds k i s u) ∧
  (∀ (s : State), Quiet s → (∀ j, j < 16 → ring s j = []) →
    Completes .bmeClear s [] fun u =>
      bme u = false ∧ flag u F.PCI_STATUS_BME = false ∧ (pciFn u 0).bme = false ∧ Only [.pci] [F.HWN_STATUS_BME, F.PCI_STATUS_BME] s u) ∧
  (∀ (s : State), Quiet s → (pciFn s 0).d3 = false → flag s F.SCH_STATUS_DRAINING = false →
    Completes .bmeSet s [] fun u =>
      bme u = true ∧ flag u F.PCI_STATUS_BME = true ∧ (pciFn u 0).bme = true ∧ Only [.pci] [F.HWN_STATUS_BME, F.PCI_STATUS_BME] s u) ∧
  (∀ (k : Fin 16) (s : State), Quiet s → flag s (F.HWN_RINGk_CTRL_ENABLE k) = false → flag s (F.HWN_RINGk_STATUS_DRAINING k) = false →
    Completes (.ringReset k) s [] fun u =>
      fld u (F.HWN_RINGk_HEAD_HEAD k) = 0 ∧ fld u (F.HWN_RINGk_TAIL_TAIL k) = 0 ∧ flag u (F.HWN_RINGk_STATUS_ABORTED k) = false
      ∧ flag u (F.HWN_RINGk_STATUS_STALLED k) = false
      ∧ OnlyRegs [F.HWN_RINGk_HEAD_HEAD k, F.HWN_RINGk_TAIL_TAIL k, F.HWN_RINGk_STATUS_ABORTED k, F.HWN_RINGk_STATUS_STALLED k] s u) ∧
  (∀ (k : Fin 16) (s : State), Quiet s → flag s (F.HWN_RINGk_CTRL_ENABLE k) = true ∨ flag s (F.HWN_RINGk_STATUS_DRAINING k) = true →
    Completes (.ringReset k) s [] fun u => u = s) ∧
  (∀ (k : Fin 16) (s : State), Quiet s → flag s (F.HWN_RINGk_CTRL_ENABLE k) = true → (∀ d ∈ ring s k, d.count = 0) →
    Completes (.ringDisable k) s [] fun u =>
      flag u (F.HWN_RINGk_CTRL_ENABLE k) = !(ring s k).isEmpty ∧ ringOn u k = false
      ∧ ring u k = (ring s k).map (fun d => if d.started || d.fin.isSome then d else { d with started := true, fin := some (ST.disabled, 0) })
      ∧ (∀ j, j ≠ k.val → ring u j = ring s j)
      ∧ Only [.hwn] [F.HWN_RINGk_CTRL_ENABLE k, F.HWN_RINGk_STATUS_DRAINING k, F.HWN_RINGk_STATUS_INFLIGHT k] s u) ∧
  (∀ (k : Fin 16) (s : State), Quiet s → flag s (F.HWN_RINGk_CTRL_ENABLE k) = false → Completes (.ringDisable k) s [] fun u => u = s) ∧
  (∀ (s : State), Quiet s → flag s F.HWN_CTRL_ENABLE = true → (∀ j, j < 16 → flag s (F.HWN_RINGk_CTRL_ENABLE j) = false ∧ ring s j = []) →
    Completes .hwnDisable s [] fun u =>
      hwnOn u = false ∧ flag u F.HWN_CTRL_ENABLE = !s.hwn.reclaims.isEmpty ∧ OnlyRegs [F.HWN_CTRL_ENABLE, F.HWN_STATUS_DRAINING] s u) ∧
  (∀ (k : Fin 16) (s : State), Quiet s → flag s F.HWN_CTRL_ENABLE = true → flag s (F.HWN_RINGk_CTRL_ENABLE k) = true →
    Completes .hwnDisable s [] fun u => hwnOn u = false ∧ ringOn u k = false ∧ OnlyParts [.hwn, .regs] s u) ∧
  (∀ (s : State), Quiet s → flag s F.HWN_CTRL_ENABLE = false → Completes .hwnDisable s [] fun u => u = s) ∧
  (∀ (s : State), Quiet s →
    Completes .abortLogRead s [] fun u =>
      u.hwn = { s.hwn with aborts := s.hwn.aborts.tail } ∧ fld u F.HWN_STATUS_ABORTS = s.hwn.aborts.tail.length % 128
      ∧ Only [.hwn] [F.HWN_STATUS_ABORTS] s u)

/-! ### The stack's links (chapter 15) -/

/-- No link waits to enter RETRAIN. -/
abbrev NoneWaits (s : State) : Prop := ∀ j, j < 43 → lkState s j ≠ 2 ∧ flag s (F.STK_Lk_CTRL_RETRAIN j) = false

/-- The registers that show a link's state, and the count of links in RETRAIN. -/
def linkFlds (k : Nat) : List Fld :=
  [F.STK_Lk_STATUS_STATE k, F.STK_Lk_STATUS_FREE k, F.STK_Lk_STATUS_GUARD k, F.STK_STATUS_RETRAINING, F.STK_Lk_CTRL_RETRAIN k,
    F.STK_Lk_STATUS_RETRAIN_LANE k]

/-- The registers of siding i. -/
def sidFlds (k i : Nat) : List Fld := [F.STK_Lk_SIDs_STATE k i, F.STK_Lk_SIDs_LANE k i]

/-- Retrain step: link k is in RETRAIN on siding i at a stage, and no die of it is in reset. -/
abbrev Retrains (s : State) (k i stage : Nat) : Prop :=
  Quiet s ∧ lkState s k = 3 ∧ (link s k).carrier = some i ∧ (link s k).stage = stage ∧ linkDieReset s k = false ∧ i < 16
  ∧ sidState s k i = 3

/-- Links, sidings, erasures and fences (R316 to R320, R323 to R329, R331): start-up training brings every link UP; a retrain takes the
lowest FREE siding as carrier, goes position by position, and ends UP with event 0x1405 where the conditions held, else begins
anew; a lane that fails in the carrier's hand is kept by the carrier; a siding trained for a lane takes it with event 0x1401, one
that fails its training is FAILED with event 0x1407 and the next is tried, and with none left the lane's byte is erased with event
0x1402; a fence stops the link with event 0x1403 and each path lost with it raises event 0x1406; a disable ends a retrain in GUARD. -/
def Obligations.LinksTrainAndFence : Prop :=
  (∀ (s : State), Quiet s → flag s F.STK_STATUS_TRAINED = false → s.bst.fused = [] → (∀ k, k < 43 → ∀ i, i < 16 → sidState s k i = 0) →
    Completes (.startupTrainingDone []) s [] fun u =>
      flag u F.STK_STATUS_TRAINED = true
      ∧ (∀ k, k < 43 → lkState u k = 1 ∧ fld u (F.STK_Lk_STATUS_FREE k) = 16 ∧ flag u (F.STK_Lk_STATUS_GUARD k) = false
          ∧ fld u (F.STK_Lk_TRAINREC_IVCORE k) = fld s F.STK_IVCORE_CURRENT ∧ link u k = link s k)
      ∧ OnlyParts [.regs, .stk, .free] s u) ∧
  (∀ (f : List (Fin 43 × Fin 576)) (s : State), Quiet s → flag s F.STK_STATUS_TRAINED = true →
    Completes (.startupTrainingDone f) s [] fun u => u = s) ∧
  (∀ (k : Fin 43) (i : Nat) (s : State), Quiet s → lkState s k = 1 ∨ lkState s k = 2 → freeSiding s k = some i → stkOn s = true →
    fld s F.STK_STATUS_RETRAINING < 4 → (link s k).spare = none → linkDieReset s k = false →
    Completes (.linkRetrainWrite k) s [] fun u =>
      lkState u k = 3 ∧ sidState u k i = 3 ∧ flag u (F.STK_Lk_STATUS_GUARD k) = true ∧ flag u (F.STK_Lk_CTRL_RETRAIN k) = true
      ∧ link u k = { link s k with
          carrier := some i
          stage := 0
          startI := fld s F.STK_IVCORE_CURRENT
          startT := linkTemp s k }
      ∧ (∀ j, j ≠ k.val → link u j = link s j) ∧ Only [.stk] (linkFlds k ++ sidFlds k i) s u) ∧
  (∀ (k : Fin 43) (s : State), Quiet s → freeSiding s k = none ∨ stkOn s = false ∨ (lkState s k ≠ 1 ∧ lkState s k ≠ 2) →
    Completes (.linkRetrainWrite k) s [] fun u => u = s) ∧
  (∀ (k : Fin 43) (i : Nat) (s : State), Retrains s k i 0 → stkOn s = true →
    Completes (.retrainStep k true) s [] fun u =>
      link u k = { link s k with stage := 1 } ∧ (∀ j, j ≠ k.val → link u j = link s j)
      ∧ fld u (F.STK_Lk_STATUS_RETRAIN_LANE k) = 0 ∧ sidState u k i = 3 ∧ Only [.stk, .free] (linkFlds k ++ sidFlds k i) s u) ∧
  (∀ (k : Fin 43) (i n : Nat) (s : State), Retrains s k i n → stkOn s = true → 0 < n → n < 560 →
    Completes (.retrainStep k true) s [] fun u =>
      link u k = { link s k with stage := n + 1 } ∧ (∀ j, j ≠ k.val → link u j = link s j)
      ∧ fld u (F.STK_Lk_STATUS_RETRAIN_LANE k) = n ∧ fld u (F.STK_Lk_SIDs_LANE k i) = n ∧ sidState u k i = 3
      ∧ Only [.stk, .free] (linkFlds k ++ sidFlds k i) s u) ∧
  (∀ (k : Fin 43) (i : Nat) (s : State), Retrains s k i 560 → stkOn s = true → condOut s k (link s k).startI (link s k).startT = false →
    (∀ j, j < 43 → j ≠ k.val → lkState s j ≠ 2 ∧ flag s (F.STK_Lk_CTRL_RETRAIN j) = false) →
    Completes (.retrainStep k true) s [ev 0x1405 [(1, k)]] fun u =>
      lkState u k = 1 ∧ sidState u k i = 0 ∧ flag u (F.STK_Lk_STATUS_GUARD k) = false ∧ flag u (F.STK_Lk_CTRL_RETRAIN k) = false
      ∧ (link u k).carrier = none ∧ Counts (F.STK_Lk_RETRAINS_RETRAINS k) 1 s u
      ∧ fld u (F.STK_Lk_TRAINREC_IVCORE k) = fld s F.STK_IVCORE_CURRENT
      ∧ Only [.stk, .free] (linkFlds k ++ sidFlds k i ++ [F.STK_Lk_RETRAINS_RETRAINS k, F.STK_Lk_TRAINREC_IVCORE k, F.STK_Lk_TRAINREC_TEMP k]) s u) ∧
  (∀ (k : Fin 43) (i : Nat) (s : State), Retrains s k i 560 → stkOn s = true → condOut s k (link s k).startI (link s k).startT = true →
    Completes (.retrainStep k true) s [] fun u =>
      lkState u k = 3 ∧ sidState u k i = 3 ∧ (link u k).carrier = some i ∧ (link u k).stage = 0
      ∧ (link u k).startI = fld s F.STK_IVCORE_CURRENT ∧ Counts (F.STK_Lk_RETRAINS_RETRAINS k) 1 s u
      ∧ Only [.stk, .free] (linkFlds k ++ sidFlds k i ++ [F.STK_Lk_RETRAINS_RETRAINS k, F.STK_Lk_TRAINREC_IVCORE k, F.STK_Lk_TRAINREC_TEMP k]) s u) ∧
  (∀ (k : Fin 43) (i n : Nat) (s : State), Retrains s k i n → stkOn s = false → n ≤ 560 → n ≠ 560 →
    Completes (.retrainStep k true) s [] fun u =>
      lkState u k = 2 ∧ sidState u k i = 0 ∧ (link u k).carrier = none ∧ Only [.stk, .free] (linkFlds k ++ sidFlds k i) s u) ∧
  (∀ (k : Fin 43) (i j n : Nat) (s : State), Retrains s k i (n + 1) → n < 560 → stkOn s = false → carrierOf s k n = none →
    (link s k).failed.contains n = false → j < 16 → j ≠ i → sidFree s k j = true →
    (∀ m, m < 43 → m ≠ k.val → lkState s m ≠ 2 ∧ flag s (F.STK_Lk_CTRL_RETRAIN m) = false) →
    Completes (.retrainStep k false) s [ev 0x1401 [(1, k), (2, n), (1, i)]] fun u =>
      lkState u k = 2 ∧ sidState u k i = 1 ∧ fld u (F.STK_Lk_SIDs_LANE k i) = n ∧ (link u k).failed = (link s k).failed ++ [n]
      ∧ (link u k).carrier = none
      ∧ (flag s (F.STK_Lk_LASTFAIL_VALID k) = false → fld u (F.STK_Lk_LASTFAIL_LANE k) = n ∧ fld u (F.STK_Lk_LASTFAIL_CAUSE k) = 0)
      ∧ Only [.stk] (linkFlds k ++ sidFlds k i ++ [F.STK_Lk_LASTFAIL_LANE k, F.STK_Lk_LASTFAIL_CAUSE k, F.STK_Lk_LASTFAIL_VALID k]) s u) ∧
  (∀ (k : Fin 43) (ok : Bool) (s : State), Quiet s → (link s k).carrier = none → Completes (.retrainStep k ok) s [] fun u => u = s) ∧
  (∀ (k : Fin 43) (lane i : Nat) (s : State), Quiet s → NoneWaits s → (link s k).spare = some (lane, i) → (link s k).queue = [] → lane < 560 → i < 16 →
    Completes (.sidingSwitch k true) s [ev 0x1401 [(1, k), (2, lane), (1, i)]] fun u =>
      sidState u k i = 1 ∧ fld u (F.STK_Lk_SIDs_LANE k i) = lane ∧ link u k = { link s k with spare := none }
      ∧ (∀ j, j ≠ k.val → link u j = link s j)
      ∧ Only [.stk, .free] ([F.STK_Lk_STATUS_FREE k, F.STK_Lk_STATUS_GUARD k, F.STK_STATUS_RETRAINING] ++ sidFlds k i) s u) ∧
  (∀ (k : Fin 43) (lane i j : Nat) (s : State), Quiet s → NoneWaits s → (link s k).spare = some (lane, i) → i < 16 →
    (∀ n, n < 16 → (sidState s k n = 0 ∧ n ≠ i → j ≤ n)) → sidState s k j = 0 → j ≠ i → j < 16 →
    Completes (.sidingSwitch k false) s [ev 0x1407 [(1, k)]] fun u =>
      sidState u k i = 2 ∧ (link u k).spare = some (lane, j) ∧ (link u k).queue = (link s k).queue
      ∧ (flag s (F.STK_Lk_LASTFAIL_VALID k) = false → fld u (F.STK_Lk_LASTFAIL_LANE k) = 560 + i ∧ fld u (F.STK_Lk_LASTFAIL_CAUSE k) = 3)
      ∧ Only [.stk] ([F.STK_Lk_STATUS_FREE k, F.STK_Lk_STATUS_GUARD k, F.STK_STATUS_RETRAINING, F.STK_Lk_LASTFAIL_LANE k,
          F.STK_Lk_LASTFAIL_CAUSE k, F.STK_Lk_LASTFAIL_VALID k] ++ sidFlds k i) s u) ∧
  (∀ (k : Fin 43) (lane i : Nat) (s : State), Quiet s → NoneWaits s → (link s k).spare = some (lane, i) → (link s k).queue = [] → i < 16 → lane < 560 →
    (∀ n, n < 16 → n ≠ i → sidState s k n ≠ 0) → flag s (F.STK_Lk_STATUS_ERASED k) = false →
    Completes (.sidingSwitch k false) s [ev 0x1407 [(1, k)], ev 0x1402 [(1, k), (2, lane)]] fun u =>
      sidState u k i = 2 ∧ (link u k).spare = none ∧ flag u (F.STK_Lk_STATUS_ERASED k) = true
      ∧ fld u (F.STK_Lk_STATUS_ERASED_BYTE k) = lane / 8
      ∧ Only [.stk] ([F.STK_Lk_STATUS_FREE k, F.STK_Lk_STATUS_GUARD k, F.STK_STATUS_RETRAINING, F.STK_Lk_LASTFAIL_LANE k,
          F.STK_Lk_LASTFAIL_CAUSE k, F.STK_Lk_LASTFAIL_VALID k, F.STK_Lk_STATUS_ERASED k, F.STK_Lk_STATUS_ERASED_BYTE k] ++ sidFlds k i) s u) ∧
  (∀ (k : Fin 43) (ok : Bool) (s : State), Quiet s → (link s k).spare = none → Completes (.sidingSwitch k ok) s [] fun u => u = s) ∧
  (∀ (k : Fin 43) (s : State), Quiet s → k.val < 40 → lkState s k ≠ 4 → fld s F.STK_FENCED_LINKS = 0 → (link s k).carrier = none →
    Completes (.linkFence k) s [ev 0x1403 [(1, k), (1, 1)]] fun u =>
      lkState u k = 4 ∧ fld u F.STK_FENCED_LINKS = 2 ^ k.val ∧ fld u F.STK_STATUS_FENCED = 1 ∧ flag u (F.STK_Lk_CTRL_FENCE k) = true
      ∧ (link u k).spare = none ∧ (link u k).queue = [] ∧ (∀ j, j ≠ k.val → link u j = link s j)
      ∧ Only [.stk] ([F.STK_Lk_CTRL_FENCE k, F.STK_FENCED_LINKS, F.STK_STATUS_FENCED] ++ linkFlds k) s u) ∧
  (∀ (s : State), Quiet s → lkState s 41 ≠ 4 → fld s F.STK_FENCED_LINKS = 0 → (link s 41).carrier = none → s.cache.ways = [] →
    fld s F.STK_UNREACH_BANDS = 0 → fld s F.STK_UNREACH_DIES = 0 →
    Completes (.linkFence 41) s (ev 0x1403 [(1, 41), (1, 1)] :: List.replicate 9 (ev 0x1406 [(1, 41)])) fun u =>
      lkState u 41 = 4 ∧ fld u F.STK_UNREACH_BANDS = 0xFF ∧ fld u F.STK_UNREACH_DIES = 2
      ∧ (∀ m, m < 256 → m ≠ 0xC2 → m ≠ 0xC3 → 0xA7 < m → pathStatus u m 0x04000000 false = ST.decode)
      ∧ OnlyParts [.stk, .regs] s u) ∧
  (∀ (k : Fin 43) (s : State), Quiet s → lkState s k = 4 →
    Completes (.linkFence k) s [] fun u => flag u (F.STK_Lk_CTRL_FENCE k) = true ∧ OnlyRegs [F.STK_Lk_CTRL_FENCE k] s u) ∧
  (∀ (s : State), Quiet s → flag s F.STK_CTRL_ENABLE = true →
    Completes .stkDisable s [] fun u =>
      stkOn u = false ∧ flag u F.STK_CTRL_ENABLE = decide (fld s F.STK_STATUS_RETRAINING ≠ 0)
      ∧ OnlyRegs [F.STK_CTRL_ENABLE, F.STK_STATUS_DRAINING] s u) ∧
  (∀ (s : State), Quiet s → flag s F.STK_CTRL_ENABLE = false → Completes .stkDisable s [] fun u => u = s)

/-! ### Bitstreams and load sessions (chapters 16 and 17) -/

/-- A session is open and holds the whole command `c`, at a phase of the stream; nothing behind it has arrived. -/
abbrev InHand (s : State) (phase : Nat) (c : List Byte) : Prop :=
  Quiet s ∧ fld s F.CFG_STATUS_RESULT = 1 ∧ s.cfg.fail = none ∧ loadWaits s = false ∧ s.cfg.phase = phase ∧ s.cfg.buf = []
  ∧ s.cfg.taken.drop s.cfg.start = c

/-- The same, within a body that is not encrypted. -/
abbrev InBody (s : State) (c : List Byte) : Prop := InHand s 2 c ∧ hEncrypted s.cfg = false

/-- The session stands behind the command, as `x` says. -/
def behind (x : Session) : Session := { x with start := x.taken.length }

/-- R337, row 1. -/
abbrev HeaderRight (x : Session) : Prop :=
  headField x 0 4 = 0x4B53524B ∧ headField x 4 2 = 1 ∧ headField x 11 1 < 4 ∧ headField x 20 4 = 0 ∧ headField x 60 4 = 0
  ∧ headField x 96 28 = 0 ∧ 208 ≤ headField x 12 4 ∧ headField x 124 4 = crc32c 124 (headField x 0 124)

/-- A frame of the selected region is rejected with a status (R344, R361): it is counted and the region tainted, event 0x0504 is
raised, and the first rejection of the session is recorded; no frame, plane, region, claim or block memory changes. -/
def FrameRejected (r st a : Nat) (s u : State) : Prop :=
  Counts F.CFG_REJECTS_REJECTED 1 s u ∧ r ∈ u.cfg.taint
  ∧ (flag s F.CFG_FRAME_ERR_VALID = false → fld u F.CFG_FRAME_ERR_STATUS = st ∧ fld u F.CFG_FRAME_ERR_ADDR_ADDRESS = a
      ∧ flag u F.CFG_FRAME_ERR_VALID = true)
  ∧ Only [.cfg] [F.CFG_REJECTS_REJECTED, F.CFG_FRAME_ERR_STATUS, F.CFG_FRAME_ERR_ADDR_ADDRESS, F.CFG_FRAME_ERR_VALID,
      F.CFG_VT_STATS_REJECTS] s u

/-- A LOGIC frame is accepted (R235, R254, R338): its bits stand in the plane, the plane and its region are LOADING, and the first
such frame of the selection asks rail 8 for PLANE_LOAD. -/
def LogicAccepted (r k tile f : Nat) (s u : State) : Prop :=
  frameAt u kLOGIC r k tile = f ∧ planeState u r k = 1 ∧ regState u r = 1 ∧ Counts F.CFG_FRAMES_ACCEPTED 1 s u
  ∧ u.cfg.counted = s.cfg.counted + 1 ∧ u.cfg.charged = true ∧ 4 * r + k ∈ u.cfg.loads ∧ r ∈ u.cfg.regs
  ∧ (s.cfg.charged = false → R8Req.planeLoad r k ∈ u.dsp.r8queue) ∧ (s.cfg.charged = true → u.dsp.r8queue = s.dsp.r8queue)
  ∧ (∀ j i, j ≠ k → i < 800 → frameAt u kLOGIC r j i = frameAt s kLOGIC r j i)
  ∧ Only [.cfg, .fab, .dsp, .regions] [F.CFG_FRAMES_ACCEPTED, F.CTX_REGr_PLANES_PLANES r, F.FAB_REGr_STATUS_STATE r,
      F.FAB_REGr_RC_RETURN r, F.DBG_PATCHED_REGIONS, F.CFG_ENC_REGIONS_REGIONS, F.DSP_RAIL8_STATUS_WAITING] s u

/-- Address and frame bits of a FRAME command. -/
def frameAdr (c : List Byte) : Nat := bytesNat (c.drop 4) % 2 ^ 32
def frameBits (c : List Byte) : Nat := bits (bytesNat (c.drop 4)) 32 16384
abbrev IsFrame (c : List Byte) : Prop := c.take 4 = [3, 0, 0, 0] ∧ c.length = 2060

/-- The CRC of a FRAME command (R339). -/
abbrev CrcRight (c : List Byte) : Prop := bits (bytesNat (c.drop 4)) 16416 32 = crc32c 2052 (bytesNat (c.drop 4) % 2 ^ 16416)

/-- R337, row 3's last check: the SHA-512 prefix of PUBKEY equals the slot's. -/
abbrev KeyRight (s : State) : Prop := sha512 (hPubkey s.cfg) % 2 ^ 256 = shadowOf s (0x10 + headField s.cfg 10 1)

/-- Row 4: an encrypted stream needs the customer AES key. -/
abbrev AesThere (s : State) : Prop := hEncrypted s.cfg = false ∨ smGet s.sbx.shadow 1 0 ≠ 0

/-- The signature verifies over the stream up to it (R349). -/
abbrev SignatureRight (s : State) : Prop :=
  ed25519ph (hPubkey s.cfg) (s.cfg.taken.take (hLength s.cfg - 64)) (s.cfg.taken.drop (hLength s.cfg - 64)) = true

/-- Sessions take a stream (R333 to R349, R354 to R358, R361, R362): OPEN clears the counters and starts a session; bytes of the
window are taken to the end of the command in hand, and discarded and counted where no session takes them; SYNC, HEADER, INITVEC, END
and SIGNATURE move the session through the stream; the header's checks end it BAD_HEADER, WRONG_DEVICE or KEY with their events and
nothing else changed; SELECT selects; a frame is accepted or rejected by R344, REPEAT does the same for each address, CUFFSET
stages a mode or is rejected in a running region; RELEASE only remembers; a failing tag and a failing signature start the failure
sequence; a signature that verifies ends the session OK or OK_REJECTS with event 0x0501, its planes READY. -/
def Obligations.SessionsTakeStreams : Prop :=
  (∀ (b : Bool) (k : Fin 16) (s : State), Quiet s → fld s F.CFG_STATUS_RESULT ≠ 1 → fld s F.CFG_STATUS_RESULT ≠ 2 →
    flag s F.CFG_STATUS_DRAINING = false → flag s F.CFG_CTRL_ENABLE = true →
    Completes (.sessionOpen b k) s [] fun u =>
      fld u F.CFG_STATUS_RESULT = 1 ∧ flag u F.CFG_SESSION_SRC = b ∧ fld u F.CFG_SESSION_RING = k
      ∧ fld u F.CFG_PROGRESS_BYTES = 0 ∧ fld u F.CFG_FRAMES_ACCEPTED = 0 ∧ fld u F.CFG_REJECTS_REJECTED = 0
      ∧ fld u F.CFG_FAIL_AT_OFFSET = 0xFFFFFFFF ∧ fld u F.CFG_FRAME_ERR_STATUS = 0 ∧ flag u F.CFG_FRAME_ERR_VALID = false
      ∧ u.cfg.taken = [] ∧ u.cfg.phase = 0 ∧ u.cfg.fail = none
      ∧ Only [.cfg] [F.CFG_STATUS_RESULT, F.CFG_SESSION_SRC, F.CFG_SESSION_RING, F.CFG_PROGRESS_BYTES, F.CFG_FRAMES_ACCEPTED,
          F.CFG_REJECTS_REJECTED, F.CFG_FAIL_AT_OFFSET, F.CFG_FRAME_ERR_STATUS, F.CFG_FRAME_ERR_VALID] s u) ∧
  (∀ (b : Bool) (k : Fin 16) (s : State), Quiet s → fld s F.CFG_STATUS_RESULT = 1 ∨ fld s F.CFG_STATUS_RESULT = 2 ∨
    flag s F.CFG_STATUS_DRAINING = true ∨ flag s F.CFG_CTRL_ENABLE = false →
    Completes (.sessionOpen b k) s [] fun u => OnlyRegs [F.CFG_SESSION_SRC, F.CFG_SESSION_RING] s u) ∧
  (∀ (l : List Byte) (s : State), Quiet s → fld s F.CFG_STATUS_RESULT = 1 → s.cfg.fail = none → loadWaits s = false → s.cfg.src = 0 →
    s.cfg.phase = 1 → s.cfg.start = 4 → s.cfg.buf = [] → s.cfg.taken.take 8 = [0x5A, 0xC3, 0x3C, 0xA5, 1, 0x80, 0, 0] →
    8 ≤ s.cfg.taken.length → s.cfg.taken.length < 136 → l ≠ [] →
    Completes (.loadWindowWrite l) s [] fun u =>
      u.cfg = { s.cfg with
        taken := s.cfg.taken ++ l.take (136 - s.cfg.taken.length)
        buf := l.drop (136 - s.cfg.taken.length) }
      ∧ fld u F.CFG_PROGRESS_BYTES = u.cfg.taken.length ∧ Only [.cfg] [F.CFG_PROGRESS_BYTES] s u) ∧
  (∀ (l : List Byte) (s : State), Quiet s → fld s F.CFG_STATUS_RESULT ≠ 1 ∨ s.cfg.src ≠ 0 →
    Completes (.loadWindowWrite l) s [] fun u =>
      Counts F.CFG_DISCARDED_BYTES l.length s u ∧ OnlyRegs [F.CFG_DISCARDED_BYTES] s u) ∧
  (∀ (k : Fin 16) (i : Fin 4096) (l : List Byte) (d : Desc) (s : State), InFlight s k i d 0x10 → d.idx = i → 0 < dLen d → dLen d ≤ 16777216 →
    ((ring s k).find? fun e => dOp e == 0x10 && e.fin.isNone) = some d → d.count + l.length ≤ dLen d → s.cfg.segs = [] →
    fld s F.CFG_STATUS_RESULT = 1 → s.cfg.fail = none → loadWaits s = false → s.cfg.src = k + 1 → s.cfg.phase = 1 → s.cfg.start = 4 →
    s.cfg.buf = [] → s.cfg.taken.take 8 = [0x5A, 0xC3, 0x3C, 0xA5, 1, 0x80, 0, 0] → 8 ≤ s.cfg.taken.length →
    s.cfg.taken.length + l.length ≤ 136 → l ≠ [] →
    Completes (.config k i l false) s [] fun u =>
      PutsDesc k i { d with
        started := true
        count := d.count + l.length
        fin := if d.count + l.length = dLen d then some (0, 0) else none } s u
      ∧ u.cfg = { s.cfg with taken := s.cfg.taken ++ l } ∧ fld u F.CFG_PROGRESS_BYTES = u.cfg.taken.length
      ∧ Only [.cfg, .hwn] [F.CFG_PROGRESS_BYTES, F.HWN_RINGk_STATUS_INFLIGHT k] s u) ∧
  (∀ (s : State), InHand s 0 [0x5A, 0xC3, 0x3C, 0xA5] →
    Completes .bsSync s [] fun u => u = setCfg s (behind { s.cfg with phase := 1 })) ∧
  (∀ (s : State), InHand s 1 (s.cfg.taken.drop 4) → s.cfg.taken.take 8 = [0x5A, 0xC3, 0x3C, 0xA5, 1, 0x80, 0, 0] →
    s.cfg.taken.length = 136 → s.cfg.start = 4 → s.cfg.src = 0 → s.cfg.off = false → HeaderRight s.cfg → deviceGood s s.cfg = true →
    headField s.cfg 10 1 ≤ 3 → keySlot s (headField s.cfg 10 1) = 1 →
    Completes .bsHeader s (if KeyRight s ∧ AesThere s then [] else [ev 0x0506 []]) fun u =>
      (KeyRight s → AesThere s → u = setCfg s (behind { s.cfg with phase := if hEncrypted s.cfg then 3 else 2 }))
      ∧ (¬ (KeyRight s ∧ AesThere s) → fld u F.CFG_STATUS_RESULT = 7 ∧ fld u F.CFG_STATUS_KEY_CAUSE = (if KeyRight s then 4 else 3)
          ∧ OnlyRegs [F.CFG_STATUS_RESULT, F.CFG_FAIL_AT_OFFSET, F.CFG_STATUS_DRAINING, F.CFG_STATUS_KEY_CAUSE] s u)) ∧
  (∀ (s : State), InHand s 1 (s.cfg.taken.drop 4) → s.cfg.taken.take 8 = [0x5A, 0xC3, 0x3C, 0xA5, 1, 0x80, 0, 0] →
    s.cfg.taken.length = 136 → s.cfg.start = 4 → s.cfg.src = 0 → s.cfg.off = false → ¬ HeaderRight s.cfg →
    Completes .bsHeader s [ev 0x0502 [(1, 5), (1, fld s F.CFG_STATUS_END_CAUSE), (4, 135)]] fun u =>
      fld u F.CFG_STATUS_RESULT = 5 ∧ fld u F.CFG_FAIL_AT_OFFSET = 135
      ∧ OnlyRegs [F.CFG_STATUS_RESULT, F.CFG_FAIL_AT_OFFSET, F.CFG_STATUS_DRAINING] s u) ∧
  (∀ (s : State), InHand s 1 (s.cfg.taken.drop 4) → s.cfg.taken.take 8 = [0x5A, 0xC3, 0x3C, 0xA5, 1, 0x80, 0, 0] →
    s.cfg.taken.length = 136 → s.cfg.start = 4 → s.cfg.src = 0 → s.cfg.off = false → HeaderRight s.cfg →
    headField s.cfg 6 2 ≠ fld s F.GLB_ID_PART →
    Completes .bsHeader s [ev 0x0503 []] fun u =>
      fld u F.CFG_STATUS_RESULT = 6 ∧ OnlyRegs [F.CFG_STATUS_RESULT, F.CFG_FAIL_AT_OFFSET, F.CFG_STATUS_DRAINING] s u) ∧
  (∀ (s : State), InHand s 1 (s.cfg.taken.drop 4) → s.cfg.taken.take 8 = [0x5A, 0xC3, 0x3C, 0xA5, 1, 0x80, 0, 0] →
    s.cfg.taken.length = 136 → s.cfg.start = 4 → s.cfg.src = 0 → s.cfg.off = false → HeaderRight s.cfg → deviceGood s s.cfg = true →
    keySlot s (headField s.cfg 10 1) ≠ 1 →
    Completes .bsHeader s [ev 0x0506 []] fun u =>
      fld u F.CFG_STATUS_RESULT = 7
      ∧ fld u F.CFG_STATUS_KEY_CAUSE
        = (if 3 < headField s.cfg 10 1 then 0 else if keySlot s (headField s.cfg 10 1) = 0 then 1 else 2)
      ∧ OnlyRegs [F.CFG_STATUS_RESULT, F.CFG_FAIL_AT_OFFSET, F.CFG_STATUS_DRAINING, F.CFG_STATUS_KEY_CAUSE] s u) ∧
  (∀ (b1 b2 : Byte) (s : State), InBody s [2, b1, b2, 0] → b1.toNat % 4 ≠ 0 → b1.toNat / 4 % 32 ≤ 23 → b2.toNat < 2 →
    hTarget s.cfg (4 * (24 * (b1.toNat % 4 - 1) + b1.toNat / 4 % 32) + b1.toNat / 128 + 2 * b2.toNat) = true →
    Completes .bsSelect s [] fun u =>
      u = setCfg s (behind { s.cfg with
        sel := some (24 * (b1.toNat % 4 - 1) + b1.toNat / 4 % 32, b1.toNat / 128 + 2 * b2.toNat)
        charged := false })) ∧
  (∀ (b1 b2 : Byte) (s : State), InBody s [2, b1, b2, 0] → s.cfg.src = 0 → b1.toNat % 4 = 0 ∨ 23 < b1.toNat / 4 % 32 →
    Completes .bsSelect s [] fun u =>
      u.cfg.fail = some (8, 0) ∧ fld u F.CFG_FAIL_AT_OFFSET = (s.cfg.start + 1) % 2 ^ 32 ∧ flag u F.CFG_STATUS_DRAINING = true
      ∧ u.cfg = { s.cfg with fail := u.cfg.fail }
      ∧ Only [.cfg, .dsp] [F.CFG_FAIL_AT_OFFSET, F.CFG_STATUS_DRAINING, F.CFG_DISCARDED_BYTES, F.DSP_RAIL8_STATUS_WAITING] s u) ∧
  (∀ (c : List Byte) (sel : Nat × Nat) (s : State), InBody s c → IsFrame c → CrcRight c → s.cfg.sel = some sel →
    frameWaits s (frameAdr c) = false → fKind (frameAdr c) = kLOGIC → frameStatus s sel (frameAdr c) (frameBits c) = 0 → sel.1 < 72 →
    regState s sel.1 ≠ 1 →
    Completes .bsFrame s [ev 0x0701 [(1, sel.1), (1, regState s sel.1), (1, 1)]] fun u =>
      LogicAccepted sel.1 sel.2 (fTile (frameAdr c)) (frameBits c) s u ∧ fld u (F.FAB_REGr_RC_RETURN sel.1) = regState s sel.1) ∧
  (∀ (c : List Byte) (sel : Nat × Nat) (s : State), InBody s c → IsFrame c → CrcRight c → s.cfg.sel = some sel →
    frameWaits s (frameAdr c) = false → frameStatus s sel (frameAdr c) (frameBits c) ≠ 0 →
    Completes .bsFrame s [evMerged 0x0504 0 []] fun u =>
      FrameRejected sel.1 (frameStatus s sel (frameAdr c) (frameBits c)) (frameAdr c) s u
      ∧ u.cfg.counted = s.cfg.counted + 1 ∧ u.cfg.start = s.cfg.taken.length) ∧
  (∀ (c : List Byte) (sel : Nat × Nat) (s : State), InBody s c → IsFrame c → ¬ CrcRight c → s.cfg.sel = some sel →
    frameWaits s (frameAdr c) = false →
    Completes .bsFrame s [evMerged 0x0504 0 []] fun u =>
      FrameRejected sel.1 1 (frameAdr c) s u ∧ u.cfg.counted = s.cfg.counted + 1 ∧ u.cfg.start = s.cfg.taken.length) ∧
  (∀ (r k a f : Nat) (s : State), r < 72 → k < 4 → a < 2 ^ 32 →
    ((a / 2 ^ 22 ≠ 0 ∨ a % 4 = 0 ∨ 23 < a / 4 % 32 ∨ 799 < a / 128 % 1024 ∨ 3 < a / 2 ^ 19 % 8 ∨ 24 * (a % 4 - 1) + a / 4 % 32 ≠ r
        ∨ (a / 2 ^ 19 % 8 < 2 ∧ a / 2 ^ 17 % 4 ≠ k)) → frameStatus s (r, k) a f = 2) ∧
    (frameStatus s (r, k) a f ≠ 2 → a / 2 ^ 19 % 8 < 2 → planeActive s r k = true → frameStatus s (r, k) a f = 3) ∧
    (frameStatus s (r, k) a f ≠ 2 → 2 ≤ a / 2 ^ 19 % 8 → regRuns s r = true → frameStatus s (r, k) a f = 6)) ∧
  (∀ (b1 b2 b3 b4 : Byte) (crc : List Byte) (sel : Nat × Nat) (s : State), InBody s ([4, 1, 0, 0, b1, b2, b3, b4] ++ crc) →
    hCompressed s.cfg = true → crc.length = 4 → bytesNat crc = crc32c 8 (bytesNat [4, 1, 0, 0, b1, b2, b3, b4]) →
    s.cfg.sel = some sel → frameWaits s (bytesNat [b1, b2, b3, b4]) = false → fKind (bytesNat [b1, b2, b3, b4]) = kLOGIC →
    s.cfg.bits < 2 ^ 16384 → sel.1 < 72 →
    frameStatus s sel (bytesNat [b1, b2, b3, b4]) s.cfg.bits = 0 → regState s sel.1 ≠ 1 →
    Completes .bsRepeat s [ev 0x0701 [(1, sel.1), (1, regState s sel.1), (1, 1)]] fun u =>
      LogicAccepted sel.1 sel.2 (fTile (bytesNat [b1, b2, b3, b4])) s.cfg.bits s u ∧ u.cfg.bits = s.cfg.bits) ∧
  (∀ (c : List Byte) (s : State), InHand s 3 c → c.take 4 = [5, 0, 0, 0] → c.length = 20 → bytesNat (c.drop 16) % 4 = 0 →
    bytesNat (c.drop 16) ≠ 0 →
    Completes .bsInitvec s [] fun u => u = setCfg s (behind { s.cfg with phase := 2 })) ∧
  (∀ (c : List Byte) (s : State), InHand s 4 c → c.length = 16 → s.cfg.src = 0 →
    Completes .bsInitvec s [] fun u =>
      if bytesNat c = streamTag s then u = setCfg s (behind { s.cfg with phase := 5 })
      else u.cfg.fail = some (11, 0) ∧ fld u F.CFG_FAIL_AT_OFFSET = (s.cfg.taken.length - 1) % 2 ^ 32
        ∧ flag u F.CFG_STATUS_DRAINING = true ∧ u.cfg = { s.cfg with fail := u.cfg.fail }
        ∧ Only [.cfg, .dsp] [F.CFG_FAIL_AT_OFFSET, F.CFG_STATUS_DRAINING, F.CFG_DISCARDED_BYTES, F.DSP_RAIL8_STATUS_WAITING] s u) ∧
  (∀ (mode : Fin 4) (sel : Nat × Nat) (s : State), InBody s [6, BitVec.ofNat 8 mode, 0, 0] → s.cfg.sel = some sel → regRuns s sel.1 = false →
    Completes .bsCuffset s [] fun u =>
      ((region u sel.1).staged.map (·.1) = List.range 800) ∧ u.cfg = behind s.cfg ∧ (∀ r, r ≠ sel.1 → region u r = region s r)
      ∧ OnlyParts [.cfg, .regions] s u) ∧
  (∀ (mode : Fin 4) (sel : Nat × Nat) (s : State), InBody s [6, BitVec.ofNat 8 mode, 0, 0] → s.cfg.sel = some sel → regRuns s sel.1 = true →
    sel.1 < 72 →
    Completes .bsCuffset s [evMerged 0x0504 0 []] fun u =>
      FrameRejected sel.1 6 (sel.1 / 24 + 1 + sel.1 % 24 * 4 + 2 * 2 ^ 19) s u) ∧
  (∀ (r : Fin 72) (s : State), InBody s [7, BitVec.ofNat 8 r, 0, 0] → hTarget s.cfg (4 * r) = true →
    Completes .bsRelease s [] fun u =>
      u = setCfg s (behind { s.cfg with rels := if r.val ∈ s.cfg.rels then s.cfg.rels else s.cfg.rels ++ [r.val] })) ∧
  (∀ (s : State), InBody s [14, 0, 0, 0] → s.cfg.counted = hFrames s.cfg →
    Completes .bsEnd s [] fun u => u = setCfg s (behind { s.cfg with phase := 5 })) ∧
  (∀ (s : State), InBody s [14, 0, 0, 0] → s.cfg.counted ≠ hFrames s.cfg → s.cfg.src = 0 →
    Completes .bsEnd s [] fun u =>
      u.cfg = { s.cfg with fail := some (8, 0) } ∧ fld u F.CFG_FAIL_AT_OFFSET = s.cfg.start % 2 ^ 32 ∧ flag u F.CFG_STATUS_DRAINING = true
      ∧ Only [.cfg, .dsp] [F.CFG_FAIL_AT_OFFSET, F.CFG_STATUS_DRAINING, F.CFG_DISCARDED_BYTES, F.DSP_RAIL8_STATUS_WAITING] s u) ∧
  (∀ (c : List Byte) (s : State), InHand s 5 c → c.take 4 = [15, 0, 0, 0] → c.length = 68 → s.cfg.start + 68 = hLength s.cfg → s.cfg.src = 0 →
    Completes .bsSignature s [] fun u =>
      fld u F.CFG_STATUS_RESULT = 2 ∧ u.cfg = { s.cfg with segs := [] } ∧ Only [.cfg] [F.CFG_STATUS_RESULT, F.CFG_DISCARDED_BYTES] s u) ∧
  (∀ (r : Fin 72) (k : Fin 4) (s : State), Quiet s → fld s F.CFG_STATUS_RESULT = 2 → s.cfg.fail = none → s.cfg.taint = [] → s.cfg.rels = [] →
    s.cfg.src = 0 → s.cfg.regs = [r.val] → s.cfg.loads = [4 * r.val + k.val] → (∀ i, i < 72 → (region s i).staged = []) → s.cfg.off = false →
    fld s F.CFG_REJECTS_REJECTED = 0 → regState s r = 1 → fld s (F.FAB_REGr_RC_RETURN r) = 0 → hEncrypted s.cfg = false → planeState s r k = 1 →
    Completes .verificationDone s (if SignatureRight s then [ev 0x0701 [(1, r), (1, 1), (1, 2)], ev 0x0501 []] else []) fun u =>
      if SignatureRight s then
        fld u F.CFG_STATUS_RESULT = 3 ∧ planeState u r k = 2 ∧ regState u r = 2 ∧ u.cfg.loads = [] ∧ u.cfg.regs = []
        ∧ (∀ j, j < 4 → j ≠ k.val → planeState u r j = planeState s r j) ∧ u.fab = s.fab
        ∧ Only [.cfg, .regions] [F.CFG_STATUS_RESULT, F.CFG_STATUS_DRAINING, F.CTX_REGr_PLANES_PLANES r, F.FAB_REGr_STATUS_STATE r,
            F.DBG_PATCHED_REGIONS, F.CFG_ENC_REGIONS_REGIONS] s u
      else
        u.cfg.fail = some (10, 0) ∧ fld u F.CFG_FAIL_AT_OFFSET = (hLength s.cfg - 1) % 2 ^ 32 ∧ flag u F.CFG_STATUS_DRAINING = true
        ∧ Only [.cfg, .dsp] [F.CFG_FAIL_AT_OFFSET, F.CFG_STATUS_DRAINING, F.CFG_DISCARDED_BYTES, F.DSP_RAIL8_STATUS_WAITING] s u) ∧
  (∀ (s : State), Quiet s → fld s F.CFG_STATUS_RESULT = 2 → s.cfg.fail = none → s.cfg.taint = [] → s.cfg.rels = [] → s.cfg.bms = [] →
    s.cfg.src = 0 → s.cfg.regs = [] → s.cfg.loads = [] → (∀ i, i < 72 → (region s i).staged = []) → s.cfg.off = false →
    Completes .verificationDone s (if SignatureRight s then [ev 0x0501 []] else []) fun u =>
      SignatureRight s → fld u F.CFG_STATUS_RESULT = (if fld s F.CFG_REJECTS_REJECTED = 0 then 3 else 4)
        ∧ OnlyRegs [F.CFG_STATUS_RESULT, F.CFG_STATUS_DRAINING] s u) ∧
  (∀ (s : State), Quiet s → fld s F.CFG_STATUS_RESULT ≠ 2 → Completes .verificationDone s [] fun u => u = s)

/-- How sessions end early, the enumeration deadline, readback and disabling (R352, R358 to R360, R366, R367): FINISH, ABORT, the idle
timer and a cleared ENABLE start the failure sequence of an open session with their cause, and the sequence's end undoes the
session and raises event 0x0502; the deadline passes with event 0x0505 and hides what is not visible, REVEAL ends the hiding;
a readback takes the first status that applies, and its frame with its CRC where it is OK. -/
def Obligations.SessionsEndAndReadBack : Prop :=
  (∀ (s : State), Quiet s → fld s F.CFG_STATUS_RESULT = 1 → s.cfg.fail = none → s.cfg.src = 0 →
    (Completes .sessionFinish s [] fun u =>
      u.cfg = { s.cfg with buf := [], segs := [], fail := some (9, 0) } ∧ fld u F.CFG_FAIL_AT_OFFSET = s.cfg.taken.length % 2 ^ 32
      ∧ flag u F.CFG_STATUS_DRAINING = true ∧ Counts F.CFG_DISCARDED_BYTES s.cfg.buf.length s u ∧ loadWaits u = false
      ∧ Only [.cfg, .dsp] [F.CFG_FAIL_AT_OFFSET, F.CFG_STATUS_DRAINING, F.CFG_DISCARDED_BYTES, F.DSP_RAIL8_STATUS_WAITING] s u) ∧
    (Completes .sessionAbort s [] fun u =>
      u.cfg = { s.cfg with buf := [], segs := [], fail := some (9, 2) } ∧ fld u F.CFG_FAIL_AT_OFFSET = s.cfg.taken.length % 2 ^ 32
      ∧ flag u F.CFG_STATUS_DRAINING = true ∧ Counts F.CFG_DISCARDED_BYTES s.cfg.buf.length s u ∧ loadWaits u = false
      ∧ Only [.cfg, .dsp] [F.CFG_FAIL_AT_OFFSET, F.CFG_STATUS_DRAINING, F.CFG_DISCARDED_BYTES, F.DSP_RAIL8_STATUS_WAITING] s u)) ∧
  (∀ (s : State), Quiet s → fld s F.CFG_STATUS_RESULT ≠ 1 ∨ s.cfg.fail ≠ none →
    (Completes .sessionFinish s [] fun u => u = s) ∧ (Completes .sessionAbort s [] fun u => u = s)
    ∧ (Completes .sessionIdleTimeout s [] fun u => u = s)) ∧
  (∀ (s : State), Quiet s → fld s F.CFG_STATUS_RESULT = 1 → s.cfg.fail = none → s.cfg.src = 0 → s.cfg.taken = [] → s.cfg.start = 0 →
    s.cfg.phase = 0 → loadWaits s = false →
    Completes .sessionIdleTimeout s [] fun u =>
      u.cfg = { s.cfg with buf := [], segs := [], fail := some (9, 1) } ∧ flag u F.CFG_STATUS_DRAINING = true
      ∧ Only [.cfg, .dsp] [F.CFG_FAIL_AT_OFFSET, F.CFG_STATUS_DRAINING, F.CFG_DISCARDED_BYTES, F.DSP_RAIL8_STATUS_WAITING] s u) ∧
  (∀ (result cause : Nat) (r : Fin 72) (k : Fin 4) (s : State), Quiet s → s.cfg.fail = some (result, cause) → result < 16 → cause < 8 →
    s.cfg.regs = [r.val] → s.cfg.loads = [4 * r.val + k.val] → s.cfg.bms = [] → (∀ i, i < 72 → i ≠ r.val → (region s i).staged = []) →
    s.cfg.off = false → scrubWaits s [r.val] = false → regState s r = 1 → fld s (F.FAB_REGr_RC_RETURN r) = 4 →
    (∀ j, j < 4 → j = (k.val + 1) % 4 → planeState s r j = 2) →
    Completes .failureSequenceEnd s [ev 0x0701 [(1, r), (1, 1), (1, 4)], ev 0x0502 [(1, result), (1, cause), (4, fld s F.CFG_FAIL_AT_OFFSET)]] fun u =>
      fld u F.CFG_STATUS_RESULT = result ∧ fld u F.CFG_STATUS_END_CAUSE = cause ∧ flag u F.CFG_STATUS_DRAINING = false
      ∧ u.cfg.fail = none ∧ u.cfg.loads = [] ∧ planeState u r k = 0 ∧ regState u r = 4 ∧ (region u r).staged = []
      ∧ (∀ t, t < 800 → frameAt u kLOGIC r k t = 0 ∧ frameAt u kMODES r k t = 0)
      ∧ (∀ j t, j < 4 → j ≠ k.val → t < 800 → planeState u r j = planeState s r j ∧ frameAt u kLOGIC r j t = frameAt s kLOGIC r j t)
      ∧ Only [.cfg, .fab, .regions] [F.CFG_STATUS_RESULT, F.CFG_STATUS_END_CAUSE, F.CFG_STATUS_DRAINING, F.CTX_REGr_PLANES_PLANES r,
          F.FAB_REGr_STATUS_STATE r, F.DBG_PATCHED_REGIONS, F.CFG_ENC_REGIONS_REGIONS] s u) ∧
  (∀ (s : State), Quiet s → s.cfg.fail = none → s.cfg.loads = [] → Completes .failureSequenceEnd s [] fun u => u = s) ∧
  (∀ (s : State), Quiet s → fld s F.CFG_DEADLINE_MS ≠ 0 → s.cfg.expired = false →
    (∀ f, f < 4 → 0 < f → bitOf (fld s F.CFG_DEADLINE_FUNCS) (f - 1) = true → ufVisible s f = true) →
    Completes .deadlineExpire s [] fun u => u = setCfg s { s.cfg with expired := true }) ∧
  (∀ (f : Nat) (s : State), Quiet s → fld s F.CFG_DEADLINE_MS ≠ 0 → s.cfg.expired = false → 1 ≤ f → f ≤ 3 →
    bitOf (fld s F.CFG_DEADLINE_FUNCS) (f - 1) = true → ufVisible s f = false → endpointHeld s = false →
    Completes .deadlineExpire s [ev 0x0505 []] fun u =>
      flag u F.CFG_STATUS_DEADLINE_MISS = true ∧ flag u F.CFG_STATUS_HIDING = true ∧ u.cfg.expired = true
      ∧ u.cfg.hidden = [1, 2, 3].filter (fun g => !ufVisible s g) ∧ bitOf (fld u F.PCI_PBA_PENDING) 2 = true
      ∧ Only [.cfg] [F.CFG_STATUS_DEADLINE_MISS, F.CFG_STATUS_HIDING, F.PCI_PBA_PENDING] s u) ∧
  (∀ (s : State), Quiet s → fld s F.CFG_DEADLINE_MS = 0 ∨ s.cfg.expired = true → Completes .deadlineExpire s [] fun u => u = s) ∧
  (∀ (s : State), Quiet s →
    Completes .reveal s [] fun u =>
      u.cfg = { s.cfg with hidden := [] } ∧ flag u F.CFG_STATUS_HIDING = false ∧ Only [.cfg] [F.CFG_STATUS_HIDING] s u) ∧
  (∀ (a : Nat) (s : State), Quiet s → fld s F.CFG_RB_ADDR_ADDRESS = a → flag s F.CFG_CTRL_ENABLE = true → addrBad a = false →
    flag s F.CFG_CTRL_READBACK_EN = true → bitOf (fld s F.CFG_ENC_REGIONS_REGIONS) (fRegion a) = false → fKind a = kLOGIC →
    planeState s (fRegion a) (fCtx a) ≠ 1 → smGet s.fab.uncorr (frameKey kLOGIC (fRegion a) (fCtx a) (fTile a)) 0 = 0 →
    dieInReset s (confPos (fDie a)) = false → a < 2 ^ 32 →
    Completes .readback s [] fun u =>
      flag u F.CFG_RB_CTRL_DONE = true ∧ fld u F.CFG_RB_CTRL_STATUS = 0 ∧ fld u (F.CFG_RB_DATAi_WORD 0) = a
      ∧ (∀ i, i < 512 → fld u (F.CFG_RB_DATAi_WORD (1 + i)) = bits (frameAt s kLOGIC (fRegion a) (fCtx a) (fTile a)) (32 * i) 32)
      ∧ fld u (F.CFG_RB_DATAi_WORD 513)
          = crc32c 2052 (a + bits (frameAt s kLOGIC (fRegion a) (fCtx a) (fTile a)) 0 16384 * 2 ^ 32) % 2 ^ 32
      ∧ OnlyRegs ([F.CFG_RB_CTRL_GO, F.CFG_RB_CTRL_DONE, F.CFG_RB_CTRL_STATUS] ++ (List.range 514).map F.CFG_RB_DATAi_WORD) s u) ∧
  (∀ (s : State), Quiet s → flag s F.CFG_CTRL_ENABLE = false →
    Completes .readback s [] fun u =>
      flag u F.CFG_RB_CTRL_DONE = true ∧ fld u F.CFG_RB_CTRL_STATUS = ST.disabled
      ∧ OnlyRegs [F.CFG_RB_CTRL_GO, F.CFG_RB_CTRL_DONE, F.CFG_RB_CTRL_STATUS] s u) ∧
  (∀ (s : State), Quiet s → flag s F.CFG_CTRL_ENABLE = true → addrBad (fld s F.CFG_RB_ADDR_ADDRESS) = true →
    Completes .readback s [] fun u =>
      flag u F.CFG_RB_CTRL_DONE = true ∧ fld u F.CFG_RB_CTRL_STATUS = ST.decode
      ∧ OnlyRegs [F.CFG_RB_CTRL_GO, F.CFG_RB_CTRL_DONE, F.CFG_RB_CTRL_STATUS] s u) ∧
  (∀ (s : State), Quiet s → flag s F.CFG_CTRL_ENABLE = true → fld s F.CFG_STATUS_RESULT ≠ 1 → fld s F.CFG_STATUS_RESULT ≠ 2 →
    s.cfg.fail = none →
    Completes .cfgDisable s [] fun u => flag u F.CFG_CTRL_ENABLE = false ∧ OnlyRegs [F.CFG_CTRL_ENABLE] s u) ∧
  (∀ (s : State), Quiet s → flag s F.CFG_CTRL_ENABLE = true → fld s F.CFG_STATUS_RESULT = 1 → s.cfg.fail = none → s.cfg.src = 0 →
    Completes .cfgDisable s [] fun u =>
      u.cfg = { s.cfg with buf := [], segs := [], fail := some (9, 4), off := true } ∧ flag u F.CFG_STATUS_DRAINING = true
      ∧ flag u F.CFG_CTRL_ENABLE = true
      ∧ Only [.cfg, .dsp] [F.CFG_FAIL_AT_OFFSET, F.CFG_STATUS_DRAINING, F.CFG_DISCARDED_BYTES, F.DSP_RAIL8_STATUS_WAITING] s u) ∧
  (∀ (s : State), Quiet s → flag s F.CFG_CTRL_ENABLE = false → Completes .cfgDisable s [] fun u => u = s)

/-! ### The PCI Express endpoint (chapter 18) -/

/-- Function f's configuration state replaced. -/
def withFn (s : State) (f : Nat) (x : PciFn) : Pci := { s.pci with fns := smSet s.pci.fns f x {} }

/-- User function f is visible and its owner's region is RELEASED and takes an edge of region clock 0. -/
abbrev FnServed (s : State) (f : Nat) : Prop :=
  Quiet s ∧ linkUp s = true ∧ s.pci.ready = true ∧ ufVisible s f = true ∧ (pciFn s f).d3 = false ∧ pciOn s = true
  ∧ regState s (fld s (F.FAB_FUNCf_OWN_REGION f)) = 3 ∧ ufTicks s f = true

/-- The link, configuration space and BAR2 (R264, R351, R369, R370, R372, R374, R381, R384): LINK_UP shows speed and width with event
0x2001; function 0 becomes ready; configuration requests are retried before that, refused for a hidden function, and otherwise read
and write the registers; function 0 enters and leaves D3hot; the link enters L1 while nothing is outstanding; a BAR2 read within a
line completes with the line's bytes, in D3hot UR and while disabled CA; a BAR2 write stores its bytes, a poisoned one is discarded
and logged, and a failing one is recorded with event 0x2003; a disable drains the reads accepted. -/
def Obligations.EndpointServesHost : Prop :=
  (∀ (speed : Fin 4) (width : Fin 3) (s : State), Quiet s → s.pci.perst = false → s.pci.hot = false →
    linkUp s = false ∨ s.pci.l1 = true ∨ fld s F.PCI_STATUS_SPEED ≠ speed + 1 ∨ fld s F.PCI_STATUS_WIDTH ≠ 2 ^ width.val →
    Completes (.linkUp speed width) s [ev 0x2001 []] fun u =>
      linkUp u = true ∧ fld u F.PCI_STATUS_SPEED = speed + 1 ∧ fld u F.PCI_STATUS_WIDTH = 2 ^ width.val
      ∧ u.pci = { s.pci with l1 := false }
      ∧ Only [.pci] [F.PCI_STATUS_LINK_UP, F.PCI_STATUS_SPEED, F.PCI_STATUS_WIDTH] s u) ∧
  (∀ (speed : Fin 4) (width : Fin 3) (s : State), Quiet s → s.pci.perst = true ∨ s.pci.hot = true →
    Completes (.linkUp speed width) s [] fun u => u = s) ∧
  (∀ (s : State), Quiet s → s.pci.perst = false → s.pci.hot = false → s.rst.step = 0 →
    Completes .endpointReady s [] fun u => u = setPci s { s.pci with ready := true }) ∧
  (∀ (s : State), Quiet s → s.pci.perst = true ∨ s.pci.hot = true ∨ s.rst.step ≠ 0 → Completes .endpointReady s [] fun u => u = s) ∧
  (∀ (reg : CfgReg) (w : Bool) (v : Word) (s : State), Quiet s → linkUp s = true → s.pci.ready = false →
    Completes (.configRequest 0 reg w v) s [] fun u => Completed ⟨.crs, false, 0, 0⟩ s u ∧ OnlyParts [.pci] s u) ∧
  (∀ (f : Fin 4) (reg : CfgReg) (w : Bool) (v : Word) (s : State), Quiet s → linkUp s = true → f ≠ 0 → ufVisible s f = false →
    fld s F.PWR_STATUS_STATE < 2 →
    Completes (.configRequest f reg w v) s [] fun u => Completed ⟨.ur, false, 0, 0⟩ s u ∧ OnlyParts [.pci] s u) ∧
  (∀ (v : Word) (s : State), Quiet s → linkUp s = true → s.pci.ready = true → fld s F.PWR_STATUS_STATE < 2 →
    Completes (.configRequest 0 .vendorDevice false v) s [] (fun u => Completed ⟨.sc, false, 4, 0x03961F6B⟩ s u ∧ OnlyParts [.pci] s u)
    ∧ Completes (.configRequest 0 .revisionClass false v) s [] (fun u =>
        Completed ⟨.sc, false, 4, fld s F.GLB_ID_STEPPING + 0x11800000⟩ s u ∧ OnlyParts [.pci] s u)
    ∧ Completes (.configRequest 0 (.bar 4) false v) s [] (fun u => Completed ⟨.sc, false, 4, 0⟩ s u ∧ OnlyParts [.pci] s u)
    ∧ Completes (.configRequest 0 .headerType false v) s [] (fun u => Completed ⟨.sc, false, 4, 0x80⟩ s u ∧ OnlyParts [.pci] s u)
    ∧ Completes (.configRequest 0 .msixControl false v) s [] (fun u =>
        Completed ⟨.sc, false, 4, 255 + (if (pciFn s 0).fmask then 2 ^ 14 else 0) + (if (pciFn s 0).msix then 2 ^ 15 else 0)⟩ s u
        ∧ OnlyParts [.pci] s u)) ∧
  (∀ (f : Fin 4) (v : Word) (s : State), Quiet s → linkUp s = true → s.pci.ready = true → f ≠ 0 → ufVisible s f = true →
    fld s F.PWR_STATUS_STATE < 2 →
    Completes (.configRequest f .vendorDevice false v) s [] (fun u =>
        Completed ⟨.sc, false, 4, 0x1F6B + (ufId s f).devId * 2 ^ 16⟩ s u ∧ OnlyParts [.pci] s u)
    ∧ Completes (.configRequest f .command true v) s [] (fun u =>
        u.pci = { withFn s f { pciFn s f with mem := v.toNat.testBit 1, bme := v.toNat.testBit 2 } with cpls := ⟨.sc, false, 0, 0⟩ :: s.pci.cpls }
        ∧ OnlyParts [.pci] s u)) ∧
  (∀ (f : Fin 4) (v : Word) (s : State), Quiet s → linkUp s = true → s.pci.ready = true → f = 0 ∨ ufVisible s f = true →
    fld s F.PWR_STATUS_STATE < 2 →
    Completes (.configRequest f .msixControl true v) s [] fun u =>
      u.pci = { withFn s f { pciFn s f with fmask := v.toNat.testBit 14, msix := v.toNat.testBit 15 } with
        cpls := ⟨.sc, false, 0, 0⟩ :: s.pci.cpls } ∧ OnlyParts [.pci] s u) ∧
  (∀ (s : State), Quiet s → (pciFn s 0).d3 = false → bme s = false →
    Completes .d3hotEnter s [ev 0x2005 []] fun u =>
      u.pci = withFn s 0 { pciFn s 0 with d3 := true } ∧ flag u F.PCI_STATUS_D3HOT = true ∧ Only [.pci] [F.PCI_STATUS_D3HOT] s u) ∧
  (∀ (s : State), Quiet s → (pciFn s 0).d3 = true → (pciFn s 0).bme = false →
    Completes .d0Return s [] fun u =>
      u.pci = withFn s 0 { pciFn s 0 with d3 := false } ∧ flag u F.PCI_STATUS_D3HOT = false ∧ Only [.pci] [F.PCI_STATUS_D3HOT] s u) ∧
  (∀ (s : State), Quiet s → (pciFn s 0).d3 = true → Completes .d3hotEnter s [] fun u => u = s) ∧
  (∀ (s : State), Quiet s → (pciFn s 0).d3 = false → Completes .d0Return s [] fun u => u = s) ∧
  (∀ (s : State), Quiet s → linkUp s = true → s.cache.fills = [] → (∀ k, k < 16 → ring s k = []) → bitOf (ctlOf s 0 cLINK) 1 = true →
    Completes .l1Entry s [] fun u => u = setPci s { s.pci with l1 := true }) ∧
  (∀ (s : State), Quiet s → linkUp s = false ∨ s.cache.fills ≠ [] → Completes .l1Entry s [] fun u => u = s) ∧
  (∀ (off : BitVec 28) (len : Fin 4097) (b : Fin 5) (s : State), Quiet s → linkUp s = true → (pciFn s 0).d3 = false → pciOn s = true →
    fld s F.PWR_STATUS_STATE < 2 → 0 < len.val → off.toNat % 64 + len.val ≤ 64 → ServedAt s 0xC0 (off.toNat / 64 * 64) false →
    poisoned s (lineAt s off.toNat) = false → b.val < 4 →
    Completes (.bar2Read off len [(0, [], b)]) s [] fun u =>
      Completed ⟨.sc, false, len, bits (lineNum s (lineAt s off.toNat)) (8 * (off.toNat % 64)) (8 * len)⟩ s u
      ∧ Only [.pci, .rsps] [F.MEM_Md_BUSY_REPEATS (dieAt off.toNat)] s u) ∧
  (∀ (off : BitVec 28) (len : Fin 4097) (b : Fin 5) (s : State), Quiet s → linkUp s = true → (pciFn s 0).d3 = false → pciOn s = true →
    fld s F.PWR_STATUS_STATE < 2 → 0 < len.val → off.toNat % 64 + len.val ≤ 64 → ServedAt s 0xC0 (off.toNat / 64 * 64) false →
    poisoned s (lineAt s off.toNat) = true →
    Completes (.bar2Read off len [(0, [], b)]) s [] fun u =>
      Completed ⟨.sc, true, len, bits (lineNum s (lineAt s off.toNat)) (8 * (off.toNat % 64)) (8 * len)⟩ s u
      ∧ Counts (F.MEM_Md_POISON_RD_POISON (dieAt off.toNat)) 1 s u
      ∧ Only [.pci, .rsps] [F.MEM_Md_BUSY_REPEATS (dieAt off.toNat), F.MEM_Md_POISON_RD_POISON (dieAt off.toNat)] s u) ∧
  (∀ (off : BitVec 28) (len : Fin 4097) (xs : List (BitVec 560 × List (BitVec 560) × Fin 5)) (s : State), Quiet s → linkUp s = true →
    (pciFn s 0).d3 = true ∨ pciOn s = false →
    Completes (.bar2Read off len xs) s [] fun u =>
      Completed ⟨if (pciFn s 0).d3 then .ur else .ca, false, 0, 0⟩ s u ∧ OnlyParts [.pci] s u) ∧
  (∀ (off : BitVec 28) (len : Fin 513) (be : BitVec 512) (data : BitVec 4096) (s : State), Quiet s → linkUp s = true →
    (pciFn s 0).d3 = false → pciOn s = true → fld s F.PWR_STATUS_STATE < 2 → 0 < len.val → off.toNat % 64 + len.val ≤ 64 →
    ServedAt s 0xC0 (off.toNat / 64 * 64) false → poisoned s (lineAt s off.toNat) = false →
    Completes (.bar2Write off len be data false 0 [] false) s [] fun u =>
      (∀ i, i < 64 → cell u (lineAt s off.toNat) i
        = if off.toNat % 64 ≤ i ∧ i < off.toNat % 64 + len.val ∧ be.toNat.testBit (i - off.toNat % 64) then
            BitVec.ofNat 8 (bits data.toNat (8 * (i - off.toNat % 64)) 8)
          else cell s (lineAt s off.toNat) i)
      ∧ (∀ k o, o < 64 → k ≠ lineAt s off.toNat → cell u k o = cell s k o) ∧ u.pci = s.pci ∧ OnlyParts [.mem, .rsps, .regs] s u) ∧
  (∀ (off : BitVec 28) (len : Fin 513) (be : BitVec 512) (data : BitVec 4096) (st : BitVec 560) (ws : List (BitVec 560)) (b : Bool) (s : State), Quiet s →
    linkUp s = true → (pciFn s 0).d3 = false →
    Completes (.bar2Write off len be data true st ws b) s [] fun u => u.pci = withFn s 0 { pciFn s 0 with aer := true } ∧ OnlyParts [.pci] s u) ∧
  (∀ (off : BitVec 28) (len : Fin 513) (be : BitVec 512) (data : BitVec 4096) (st : BitVec 560) (ws : List (BitVec 560)) (b : Bool) (s : State), Quiet s →
    linkUp s = true → (pciFn s 0).d3 = false → pciOn s = false →
    Completes (.bar2Write off len be data false st ws b) s [ev 0x2003 []] fun u =>
      flag u F.PCI_BAR2_WERR_VALID = true
      ∧ (flag s F.PCI_BAR2_WERR_VALID = false → fld u F.PCI_BAR2_WERR_STATUS = ST.disabled ∧ fld u F.PCI_BAR2_WERR_OFF_OFFSET = off.toNat)
      ∧ (flag s F.PCI_BAR2_WERR_VALID = true → u = s)
      ∧ OnlyRegs [F.PCI_BAR2_WERR_VALID, F.PCI_BAR2_WERR_STATUS, F.PCI_BAR2_WERR_OFF_OFFSET] s u) ∧
  (∀ (s : State), Quiet s → flag s F.PCI_CTRL_ENABLE = true →
    Completes .pciDisable s [] fun u =>
      pciOn u = false ∧ (s.pci.reads = [] → flag u F.PCI_CTRL_ENABLE = false ∧ flag u F.PCI_STATUS_DRAINING = false)
      ∧ (s.pci.reads.any (fun x => !x.dead) = true → flag u F.PCI_STATUS_DRAINING = true)
      ∧ OnlyRegs [F.PCI_CTRL_ENABLE, F.PCI_STATUS_DRAINING] s u) ∧
  (∀ (s : State), Quiet s → flag s F.PCI_CTRL_ENABLE = false → Completes .pciDisable s [] fun u => u = s)

/-- User functions and MSI-X (R376 to R381): a request of a visible function is handed to its owner's fabric, a read under a free
tag; the MSI-X table is served by the endpoint; a hidden function answers UR and discards writes; one whose owner does not run, or
of a disabled endpoint, answers CA and counts; a completion, a time-out and a late completion end a read as R378 says; a request of
a vector pends once, and a pending vector is sent to its address unless it is masked. -/
def Obligations.UserFunctionsAndVectors : Prop :=
  (∀ (f : Fin 3) (b2 : Bool) (off : BitVec 30) (len : Fin 513) (be : BitVec 512) (data : BitVec 4096) (s : State), FnServed s (f + 1) →
    b2 = true ∨ msixRange (2 ^ barSize s (f + 1) 0) off.toNat len = false →
    Completes (.ufRequest f b2 off len true be data) s [] fun u =>
      u.pci = { s.pci with
        handed := ⟨fld s (F.FAB_FUNCf_OWN_REGION (f + 1)), f + 1, if b2 then 1 else 0, off.toNat, len, true, be.toNat, data.toNat⟩ :: s.pci.handed }
      ∧ OnlyParts [.pci] s u) ∧
  (∀ (f : Fin 3) (b2 : Bool) (off : BitVec 30) (len : Fin 513) (be : BitVec 512) (data : BitVec 4096) (s : State), FnServed s (f + 1) →
    b2 = true ∨ msixRange (2 ^ barSize s (f + 1) 0) off.toNat len = false → s.pci.reads.length < 64 →
    Completes (.ufRequest f b2 off len false be data) s [] fun u =>
      u.pci.reads.length = s.pci.reads.length + 1
      ∧ (∀ x ∈ u.pci.reads.getLast?, x.fn = f + 1 ∧ x.tag < 64 ∧ x.len = len ∧ x.dead = false
          ∧ ∀ y ∈ s.pci.reads, y.fn = f + 1 → y.tag ≠ x.tag)
      ∧ u.pci.reads.dropLast = s.pci.reads ∧ u.pci.handed.length = s.pci.handed.length + 1
      ∧ u.pci = { s.pci with reads := u.pci.reads, handed := u.pci.handed } ∧ OnlyParts [.pci] s u) ∧
  (∀ (f : Fin 3) (b2 : Bool) (off : BitVec 30) (len : Fin 513) (w : Bool) (be : BitVec 512) (data : BitVec 4096) (s : State), Quiet s →
    linkUp s = true → (s.pci.ready = true → ufVisible s (f + 1) = true → (pciFn s (f + 1)).d3 = true) →
      (w = true → s.pci.ready = true ∧ ufVisible s (f + 1) = true) →
    Completes (.ufRequest f b2 off len w be data) s [] fun u =>
      if w then u = s else Completed ⟨.ur, false, 0, 0⟩ s u ∧ OnlyParts [.pci] s u) ∧
  (∀ (f : Fin 3) (b2 : Bool) (off : BitVec 30) (len : Fin 513) (be : BitVec 512) (data : BitVec 4096) (s : State), Quiet s →
    linkUp s = true → s.pci.ready = false ∨ ufVisible s (f + 1) = false →
    Completes (.ufRequest f b2 off len true be data) s [evMerged 0x2004 0 []] fun u =>
      Counts F.PCI_UF_DISC_DISC 1 s u ∧ u.pci = s.pci ∧ Only [] [F.PCI_UF_DISC_DISC] s u) ∧
  (∀ (f : Fin 3) (b2 : Bool) (off : BitVec 30) (len : Fin 513) (w : Bool) (be : BitVec 512) (data : BitVec 4096) (s : State), Quiet s →
    linkUp s = true → s.pci.ready = true → ufVisible s (f + 1) = true → (pciFn s (f + 1)).d3 = false →
    b2 = true ∨ msixRange (2 ^ barSize s (f + 1) 0) off.toNat len = false →
    pciOn s = false ∨ regState s (fld s (F.FAB_FUNCf_OWN_REGION (f + 1))) ≠ 3 →
    Completes (.ufRequest f b2 off len w be data) s [evMerged 0x2004 0 []] fun u =>
      Counts F.PCI_UF_DISC_DISC 1 s u ∧ (if w then u.pci = s.pci else Completed ⟨.ca, false, 0, 0⟩ s u)
      ∧ Only [.pci] [F.PCI_UF_DISC_DISC] s u) ∧
  (∀ (f : Fin 3) (v : Fin 64) (be : BitVec 512) (data : BitVec 4096) (s : State), Quiet s → linkUp s = true → s.pci.ready = true →
    ufVisible s (f + 1) = true → (pciFn s (f + 1)).d3 = false → 13 ≤ barSize s (f + 1) 0 → barSize s (f + 1) 0 ≤ 30 →
    Completes (.ufRequest f false (BitVec.ofNat 30 (2 ^ barSize s (f + 1) 0 - 0x1000 + 16 * v)) 8 false be data) s [] fun u =>
      Completed ⟨.sc, false, 8, smGet (pciFn s (f + 1)).addr v 0 % 2 ^ 64⟩ s u ∧ OnlyParts [.pci] s u) ∧
  (∀ (f : Fin 3) (tag : BitVec 6) (ok : Bool) (data : BitVec 4096) (x : UfRead) (s : State), Quiet s → s.pci.reads = [x] →
    x.fn = f + 1 → x.tag = tag.toNat → ufTicks s (f + 1) = true →
    Completes (.ufCompletion f tag ok data) s [] fun u =>
      u.pci = { s.pci with
        reads := []
        cpls := if x.dead then s.pci.cpls
          else if ok then ⟨.sc, false, x.len, data.toNat % 2 ^ (8 * x.len)⟩ :: s.pci.cpls else ⟨.ca, false, 0, 0⟩ :: s.pci.cpls }
      ∧ OnlyParts [.pci] s u) ∧
  (∀ (f : Fin 3) (tag : BitVec 6) (x : UfRead) (s : State), Quiet s → s.pci.reads = [x] → x.fn = f + 1 → x.tag = tag.toNat → x.dead = false →
    Completes (.ufTimeout f tag) s [evMerged 0x2004 0 []] fun u =>
      u.pci = { s.pci with reads := [{ x with dead := true }], cpls := ⟨.ca, false, 0, 0⟩ :: s.pci.cpls }
      ∧ Counts F.PCI_UF_DISC_DISC 1 s u ∧ Only [.pci] [F.PCI_UF_DISC_DISC] s u) ∧
  (∀ (f : Fin 3) (tag : BitVec 6) (ok : Bool) (data : BitVec 4096) (s : State), Quiet s → (∀ x ∈ s.pci.reads, x.tag ≠ tag.toNat) →
    Completes (.ufTimeout f tag) s [] (fun u => u = s) ∧ Completes (.ufCompletion f tag ok data) s [] fun u => u = s) ∧
  (∀ (f : Fin 3) (v : BitVec 6) (s : State), Quiet s → ufOwned s (f + 1) = true → ufTicks s (f + 1) = true → (pciFn s (f + 1)).d3 = false →
    Completes (.ufMsixReq f v) s [] fun u =>
      u.pci = withFn s (f + 1) { pciFn s (f + 1) with
        pend := if v.toNat ∈ (pciFn s (f + 1)).pend then (pciFn s (f + 1)).pend else (pciFn s (f + 1)).pend ++ [v.toNat] }
      ∧ OnlyParts [.pci] s u) ∧
  (∀ (f : Fin 3) (v : BitVec 6) (s : State), Quiet s → (pciFn s (f + 1)).d3 = true → Completes (.ufMsixReq f v) s [] fun u => u = s) ∧
  (∀ (v : BitVec 8) (s : State), Quiet s → linkUp s = true → bitOf (fld s F.PCI_PBA_PENDING) v.toNat = true → (pciFn s 0).msix = true →
    (pciFn s 0).bme = true → (pciFn s 0).fmask = false → (pciFn s 0).d3 = false → flag s (F.PCI_MSIXv_CTRL_MASK v.toNat) = false →
    Completes (.msixSend 0 v) s [] fun u =>
      u.hostWr = ⟨fld s (F.PCI_MSIXv_ADDR_ADDRESS v.toNat), 4, fld s (F.PCI_MSIXv_DATA_DATA v.toNat) % 2 ^ 32⟩ :: s.hostWr
      ∧ bitOf (fld u F.PCI_PBA_PENDING) v.toNat = false
      ∧ (∀ i, i < 256 → i ≠ v.toNat → bitOf (fld u F.PCI_PBA_PENDING) i = bitOf (fld s F.PCI_PBA_PENDING) i)
      ∧ Only [.hostWr] [F.PCI_PBA_PENDING] s u) ∧
  (∀ (f : Fin 4) (v : BitVec 8) (s : State), Quiet s → f ≠ 0 → linkUp s = true → v.toNat ∈ (pciFn s f).pend → (pciFn s f).msix = true →
    (pciFn s f).bme = true → (pciFn s f).fmask = false → (pciFn s f).d3 = false → v.toNat ∈ (pciFn s f).unmask →
    Completes (.msixSend f v) s [] fun u =>
      u.hostWr = ⟨smGet (pciFn s f).addr v.toNat 0, 4, smGet (pciFn s f).data v.toNat 0 % 2 ^ 32⟩ :: s.hostWr
      ∧ u.pci = withFn s f { pciFn s f with pend := (pciFn s f).pend.filter fun i => decide (i ≠ v.toNat) }
      ∧ OnlyParts [.pci, .hostWr] s u) ∧
  (∀ (v : BitVec 8) (s : State), Quiet s → flag s (F.PCI_MSIXv_CTRL_MASK v.toNat) = true ∨ (pciFn s 0).fmask = true ∨ (pciFn s 0).msix = false
      ∨ (pciFn s 0).bme = false ∨ (pciFn s 0).d3 = true ∨ bitOf (fld s F.PCI_PBA_PENDING) v.toNat = false →
    Completes (.msixSend 0 v) s [] fun u => u = s)

/-! ### The Signal Box (chapter 19) -/

/-- Mailbox bytes. -/
def mbBytes (s : State) (i n : Nat) : List Byte := (List.range n).map fun j => BitVec.ofNat 8 (mbByte s (i + j))

/-- The mailbox holds an unanswered request with its command and payload, the zero fields of its header zero, and the firmware runs
from a slot (R387, R388). -/
abbrev Asked (s : State) (cmd : Nat) (pay : List Byte) : Prop :=
  Quiet s ∧ flag s F.SBX_MB_STATUS_BUSY = true ∧ s.sbx.resp = none ∧ mbBytes s 0 2 = bytesOf 2 cmd
  ∧ mbBytes s 2 2 = bytesOf 2 pay.length ∧ mbBytes s 10 6 = bytesOf 6 0 ∧ mbBytes s 16 pay.length = pay
  ∧ flag s F.SBX_STATUS_RECOVERY = false

/-- The response is ready, and nothing else happens. -/
def Answers (st det : Nat) (pay : List Byte) (s u : State) : Prop :=
  u.sbx = { s.sbx with resp := some ⟨st, det, pay⟩ } ∧ OnlyParts [.sbx] s u

/-- Every word of the mailbox. -/
def mbFlds : List Fld := (List.range 1024).map F.SBX_MAILBOXi_WORD

/-- Requests and responses (R387 to R394, R402, R407, R408, R539): a doorbell makes BUSY read 1 or is counted REJECTED; GET_INFO,
GET_SENSORS, READ_LOG, ATTEST, SET_OP answer as R389 and R390 lay out; a request with a wrong LEN completes DECODE, one that recovery
does not serve DISABLED; the response stands over the request, BUSY clears, DONE sets and vector 3 pends; SRESET asserts the
block's reset with event 0x0101; a disable waits for a request in progress; a merge window that counted writes one record; the mirror
takes the oldest waiting record. -/
def Obligations.MailboxServesRequests : Prop :=
  (∀ (s : State), Quiet s → flag s F.SBX_MB_STATUS_BUSY = false → flag s F.SBX_CTRL_ENABLE = true → flag s F.SBX_STATUS_DRAINING = false →
    flag s F.SBX_STATUS_READY = true → fld s F.PWR_STATUS_STATE ≤ 1 →
    Completes .sbxDoorbell s [] fun u => flag u F.SBX_MB_STATUS_BUSY = true ∧ OnlyRegs [F.SBX_MB_STATUS_BUSY] s u) ∧
  (∀ (s : State), Quiet s → flag s F.SBX_MB_STATUS_BUSY = true ∨ flag s F.SBX_CTRL_ENABLE = false ∨ flag s F.SBX_STATUS_READY = false →
    Completes .sbxDoorbell s [] fun u => Counts F.SBX_MB_STATUS_REJECTED 1 s u ∧ OnlyRegs [F.SBX_MB_STATUS_REJECTED] s u) ∧
  (∀ (s : State), Asked s 1 [0, 0, 0, 0] →
    Completes .getInfo s [] fun u =>
      (∃ r ∈ u.sbx.resp, r.st = ST.ok ∧ r.det = 0 ∧ r.pay.length = 36 ∧ bytesNat (r.pay.take 2) = 0x0396
        ∧ bytesNat ((r.pay.drop 2).take 1) = fld s F.GLB_ID_STEPPING ∧ bytesNat ((r.pay.drop 3).take 1) = fld s F.SBX_STATUS_SLOT
        ∧ bytesNat ((r.pay.drop 16).take 4) = s.sbx.shSvn % 2 ^ 32 ∧ bytesNat ((r.pay.drop 20).take 4) = s.sbx.boots % 2 ^ 32
        ∧ u.sbx = { s.sbx with resp := some r })
      ∧ OnlyParts [.sbx] s u) ∧
  (∀ (p : Byte) (s : State), Asked s 1 [p, 0, 0, 0] → 2 ≤ p.toNat → Completes .getInfo s [] fun u => Answers ST.decode 1 [] s u) ∧
  (∀ (s : State), Asked s 2 [] →
    Completes .getSensors s [] fun u =>
      (∃ r ∈ u.sbx.resp, r.st = ST.ok ∧ r.pay.length = 80
        ∧ (∀ n, n < 20 → bytesNat ((r.pay.drop (2 * n)).take 2) = fld s (F.THM_Sn_TEMP n))
        ∧ (∀ n, n < 16 → bytesNat ((r.pay.drop (40 + 2 * n)).take 2) = s.thm.volts.getD n 0 % 2 ^ 16)
        ∧ bytesNat ((r.pay.drop 72).take 2) = fld s F.STK_IVCORE_CURRENT ∧ bytesNat ((r.pay.drop 74).take 4) = s.thm.round % 2 ^ 32
        ∧ u.sbx = { s.sbx with resp := some r })
      ∧ OnlyParts [.sbx] s u) ∧
  (∀ (from_ : BitVec 32) (m : Byte) (r : LogRec) (t : List LogRec) (s : State), Asked s 3 (bytesOf 4 from_.toNat ++ [0, m, 0, 0]) →
    1 ≤ m.toNat → m.toNat ≤ 127 → s.log = r :: t → r.seq < 2 ^ 32 → (r.seq + 2 ^ 32 - from_.toNat) % 2 ^ 32 ≤ t.length → t.length < 4096 →
    Completes .readLog s [] fun u =>
      Answers ST.ok 0 (bytesOf 4 from_.toNat ++ bytesOf 2 (min m.toNat ((r.seq + 2 ^ 32 - from_.toNat) % 2 ^ 32 + 1)) ++ bytesOf 10 0
        ++ (((s.log.take ((r.seq + 2 ^ 32 - from_.toNat) % 2 ^ 32 + 1)).reverse.take m.toNat).flatMap recBytes)) s u) ∧
  (∀ (from_ : BitVec 32) (m : Byte) (s : State), Asked s 3 (bytesOf 4 from_.toNat ++ [0, m, 0, 0]) → m = 0 ∨ 127 < m.toNat →
    Completes .readLog s [] fun u => Answers ST.decode 1 [] s u) ∧
  (∀ (nonce : List Byte) (s : State), Asked s 4 nonce → nonce.length = 32 →
    Completes .attest s [] fun u =>
      (∃ r ∈ u.sbx.resp, (if Config.identityBad then r.st = ST.internal ∧ r.det = 1
          else r.st = ST.ok ∧ r.pay.length = 320 ∧ bytesNat (r.pay.take 2) = 1 ∧ bytesNat ((r.pay.drop 2).take 2) = 0x0396
            ∧ (r.pay.drop 16).take 32 = nonce ∧ bytesNat ((r.pay.drop 56).take 4) = s.sbx.boots % 2 ^ 32
            ∧ bytesNat (r.pay.drop 256) = deviceSign (r.pay.take 256) % 2 ^ 512)
        ∧ u.sbx = { s.sbx with resp := some r })
      ∧ OnlyParts [.sbx] s u) ∧
  (∀ (t : Byte) (s : State), Asked s 0x20 [t, 0, 0, 0] → 3 < t.toNat → Completes .setOp s [] fun u => Answers ST.decode 1 [] s u) ∧
  (∀ (t : Byte) (s : State), Asked s 0x20 [t, 0, 0, 0] → t.toNat ≤ 3 → flag s F.CLK_CTRL_ENABLE = true → flag s F.CLK_STATUS_DRAINING = false →
    s.clk.op = none → pllBlocks s t.toNat = false →
    Completes .setOp s [] fun u =>
      if t.toNat = fld s F.CLK_OP_CURRENT then Answers ST.ok 0 [t] s u
      else flag u F.CLK_STATUS_OP_BUSY = true ∧ (u.clk.op.map (·.target) = some t.toNat) ∧ Only [.clk] [F.CLK_STATUS_OP_BUSY] s u) ∧
  (∀ (cmd : Nat) (p : Byte) (pay : List Byte) (s : State), Asked s cmd (p :: pay) → cmd = 1 → pay.length ≠ 3 → pay.length < 4080 →
    Completes .getInfo s [] fun u => Answers ST.decode 0 [] s u) ∧
  (∀ (s : State), Quiet s → flag s F.SBX_MB_STATUS_BUSY = true → s.sbx.resp = none → mbBytes s 0 2 = bytesOf 2 2 → mbBytes s 2 2 = [0, 0] →
    mbBytes s 10 6 = bytesOf 6 0 → flag s F.SBX_STATUS_RECOVERY = true →
    Completes .getSensors s [] fun u => Answers ST.disabled 3 [] s u) ∧
  (∀ (s : State), Quiet s → flag s F.SBX_MB_STATUS_BUSY = false →
    (Completes .getInfo s [] fun u => u = s) ∧ (Completes .getSensors s [] fun u => u = s) ∧ (Completes .readLog s [] fun u => u = s)
    ∧ (Completes .attest s [] fun u => u = s) ∧ (Completes .setOp s [] fun u => u = s) ∧ (Completes .sbxResponse s [] fun u => u = s)) ∧
  (∀ (r : MbResp) (s : State), Quiet s → flag s F.SBX_MB_STATUS_BUSY = true → flag s F.SBX_STATUS_READY = true → fld s F.PWR_STATUS_STATE ≤ 1 →
    s.sbx.resp = some r → s.sbx.due = false → r.st < 256 → r.det < 256 → r.pay.length ≤ 4080 → endpointHeld s = false →
    Completes .sbxResponse s [] fun u =>
      flag u F.SBX_MB_STATUS_BUSY = false ∧ flag u F.SBX_MB_STATUS_DONE = true ∧ bitOf (fld u F.PCI_PBA_PENDING) 3 = true
      ∧ u.sbx = { s.sbx with resp := none }
      ∧ mbBytes u 0 2 = mbBytes s 0 2 ∧ mbBytes u 2 2 = bytesOf 2 r.pay.length ∧ mbBytes u 4 4 = mbBytes s 4 4
      ∧ mbBytes u 8 2 = [BitVec.ofNat 8 r.st, BitVec.ofNat 8 r.det] ∧ mbBytes u 16 r.pay.length = r.pay
      ∧ (flag s F.SBX_STATUS_DRAINING = true → flag u F.SBX_CTRL_ENABLE = false ∧ flag u F.SBX_STATUS_DRAINING = false)
      ∧ Only [.sbx] ([F.SBX_MB_STATUS_BUSY, F.SBX_MB_STATUS_DONE, F.PCI_PBA_PENDING, F.SBX_CTRL_ENABLE, F.SBX_STATUS_DRAINING] ++ mbFlds) s u) ∧
  (∀ (s : State), Quiet s → blkShut s 0x1C = false → s.rst.srcs = [] →
    Runs .sbxSreset s fun u =>
      flag u F.SBX_CTRL_SRESET = true ∧ 0x1C ∈ u.rst.blkWait ∧ u.sbx = s.sbx
      ∧ Only [.rst, .evq] [F.SBX_CTRL_SRESET, F.GLB_RST_CAUSE_SOURCE, F.GLB_RST_CAUSE_QUAL, F.GLB_RST_CAUSE_ENGINE] s u) ∧
  (∀ (s : State), Quiet s → blkShut s 0x1C = true → Completes .sbxSreset s [] fun u => u = s) ∧
  (∀ (s : State), Quiet s → flag s F.SBX_CTRL_ENABLE = true →
    Completes .sbxDisable s [] fun u =>
      (if flag s F.SBX_MB_STATUS_BUSY then flag u F.SBX_STATUS_DRAINING = true ∧ flag u F.SBX_CTRL_ENABLE = true
       else flag u F.SBX_CTRL_ENABLE = false)
      ∧ OnlyRegs [F.SBX_CTRL_ENABLE, F.SBX_STATUS_DRAINING] s u) ∧
  (∀ (s : State), Quiet s → flag s F.SBX_CTRL_ENABLE = false → Completes .sbxDisable s [] fun u => u = s) ∧
  (∀ (code : BitVec 16) (scope : BitVec 32) (w : MergeWin) (s : State), Quiet s → s.windows = [w] → w.code = code.toNat → w.scope = scope.toNat →
    0 < w.count → (packItems w.items).1 ≤ 16 →
    Completes (.mergeWindowEnd code scope) s [] fun u =>
      u.log = (⟨nextSeq s, code.toNat, if rtValid s then 1 else 0, w.count, w.time, (packItems w.items).2 % 2 ^ 128⟩ :: s.log).take 4096
      ∧ u.windows = [{ w with count := 0, time := 0, items := [] }]
      ∧ Only [.log, .windows, .mirrorQ, .sbx] [F.SBX_MIRROR_LOST, F.PCI_PBA_PENDING] s u) ∧
  (∀ (code : BitVec 16) (scope : BitVec 32) (w : MergeWin) (s : State), Quiet s → s.windows = [w] → w.code = code.toNat → w.scope = scope.toNat →
    w.count = 0 →
    Completes (.mergeWindowEnd code scope) s [] fun u => u = { s with windows := [] }) ∧
  (∀ (r : LogRec) (t : List LogRec) (s : State), Quiet s → s.mirrorQ = r :: t → s.sbx.flash = true → s.sbx.lost = false → fwRuns s = true →
    s.sbx.mirror.length < 65024 →
    Completes .mirrorCopy s [] fun u =>
      u.mirrorQ = t ∧ u.sbx = { s.sbx with mirror := r :: s.sbx.mirror, mirrored := s.sbx.mirrored + 1 } ∧ OnlyParts [.mirrorQ, .sbx] s u) ∧
  (∀ (r : LogRec) (t : List LogRec) (s : State), Quiet s → s.mirrorQ = r :: t → s.sbx.flash = true → s.sbx.lost = true → fwRuns s = true →
    Completes .mirrorCopy s [ev 0x1C0A []] fun u => u.mirrorQ = t ∧ u.sbx.lost = false ∧ OnlyParts [.mirrorQ, .sbx] s u) ∧
  (∀ (s : State), Quiet s → s.mirrorQ = [] ∨ s.sbx.flash = false → Completes .mirrorCopy s [] fun u => u = s)

/-- Where a program request goes: the copies of the field, and the nonce, arming and the rest unchanged. -/
def Programs (f c v : Nat) (pay : List Byte) (s u : State) : Prop :=
  u.sbx = { s.sbx with
    armed := false
    resp := some ⟨ST.ok, 0, pay⟩
    fuses := smSet s.sbx.fuses (2 * f + c) (v + 1) 0
    shadow := smSet s.sbx.shadow f (v + 1) 0 }

/-- BOOTS after a start from ROM: one more after a POR, where there is a flash (R398). -/
def bootsNow (s : State) : Nat := if s.sbx.porStart && s.sbx.flash then s.sbx.boots + 1 else s.sbx.boots

/-- Firmware updates, fuses, key slots, debug unlocking, starts and the machine watchdog (R396 to R400, R403 to R406): BEGIN erases the
slot that does not run, CHUNK appends, COMMIT puts a verified image in trial with event 0x1C0B and refuses others by their first
failing item; FUSE_PROGRAM and KEY_SLOT need an arming, write the first blank copy, and raise 0x1C07 and 0x1C08; a nonce serves one
RESPOND; a start from ROM runs the first slot that verifies, or recovery; a hang restarts the Signal Box with event 0x1C04; kicks
alternate, and the watchdog warns with 0x1C05 and expires with 0x1C06. -/
def Obligations.FirmwareFusesAndWatchdog : Prop :=
  (∀ (n : BitVec 32) (s : State), Asked s 0x10 (bytesOf 4 n.toNat) → 132 ≤ n.toNat → n.toNat ≤ 458752 → s.sbx.flash = true →
    Completes .fwUpdateBegin s [] fun u =>
      flag u F.SBX_STATUS_UPDATE = true
      ∧ u.sbx = { s.sbx with
          slotA := if fld s F.SBX_STATUS_SLOT = 1 then [] else s.sbx.slotA
          slotB := if fld s F.SBX_STATUS_SLOT = 0 then [] else s.sbx.slotB
          update := some ⟨1 - fld s F.SBX_STATUS_SLOT, n.toNat, []⟩
          resp := some ⟨ST.ok, 0, [BitVec.ofNat 8 (1 - fld s F.SBX_STATUS_SLOT)]⟩ }
      ∧ Only [.sbx] [F.SBX_STATUS_UPDATE] s u) ∧
  (∀ (n : BitVec 32) (s : State), Asked s 0x10 (bytesOf 4 n.toNat) → n.toNat < 132 ∨ 458752 < n.toNat →
    Completes .fwUpdateBegin s [] fun u => Answers ST.decode 2 [] s u) ∧
  (∀ (x : Update) (l : List Byte) (s : State), Asked s 0x11 (bytesOf 4 x.got.length ++ l) → s.sbx.update = some x →
    4 ≤ l.length → l.length ≤ 4076 → l.length % 4 = 0 → x.got.length + l.length ≤ x.len → x.len ≤ 458752 →
    Completes (.fwUpdateChunk false) s [] fun u =>
      u.sbx = { s.sbx with
        update := some { x with got := x.got ++ l }
        resp := some ⟨ST.ok, 0, bytesOf 4 (x.got.length + l.length)⟩ }
      ∧ Only [.sbx] [F.SBX_STATUS_UPDATE] s u) ∧
  (∀ (x : Update) (l : List Byte) (s : State), Asked s 0x11 (bytesOf 4 x.got.length ++ l) → s.sbx.update = some x →
    4 ≤ l.length → l.length ≤ 4076 → l.length % 4 = 0 → x.got.length + l.length ≤ x.len → x.len ≤ 458752 →
    Completes (.fwUpdateChunk true) s [] fun u => Answers ST.internal 2 [] s u) ∧
  (∀ (a : Fin 2) (x : Update) (s : State), Asked s 0x12 [BitVec.ofNat 8 a, 0, 0, 0] → s.sbx.update = some x → x.got.length = x.len →
    imgNat x.got 0 4 = 0x57464253 → imgNat x.got 4 2 = 1 → imgNat x.got 6 2 = 0x0396 → imgNat x.got 12 4 = x.len → 132 ≤ x.len →
    x.len ≤ 458752 → imgNat x.got 20 44 = 0 → s.sbx.shSvn ≤ imgNat x.got 16 4 → x.slot < 2 → s.sbx.due = false →
    Completes .fwUpdateCommit s
      (if ed25519ph Config.firmwareKey (x.got.take (x.len - 64)) (x.got.drop (x.len - 64)) then [ev 0x1C0B []] else []) fun u =>
      flag u F.SBX_STATUS_UPDATE = false ∧ u.sbx.update = none
      ∧ (if ed25519ph Config.firmwareKey (x.got.take (x.len - 64)) (x.got.drop (x.len - 64)) then
          u.sbx = { s.sbx with
            slotA := if x.slot = 0 then x.got else s.sbx.slotA
            slotB := if x.slot = 1 then x.got else s.sbx.slotB
            update := none
            pref := x.slot
            trial := true
            due := decide (a = 1)
            resp := some ⟨ST.ok, 0, bytesOf 4 (imgNat x.got 8 4)⟩ }
        else u.sbx = { s.sbx with update := none, resp := some ⟨ST.denied, 4, []⟩ })
      ∧ Only [.sbx] [F.SBX_STATUS_UPDATE] s u) ∧
  (∀ (a : Fin 2) (x : Update) (s : State), Asked s 0x12 [BitVec.ofNat 8 a, 0, 0, 0] → s.sbx.update = some x → x.got.length = x.len →
    imgNat x.got 0 4 ≠ 0x57464253 ∨ (imgNat x.got 0 4 = 0x57464253 ∧ imgNat x.got 4 2 = 1 ∧ imgNat x.got 6 2 ≠ 0x0396) →
    Completes .fwUpdateCommit s [] fun u =>
      flag u F.SBX_STATUS_UPDATE = false
      ∧ u.sbx = { s.sbx with
          update := none
          resp := some ⟨ST.denied, if imgNat x.got 0 4 ≠ 0x57464253 then 1 else 2, []⟩ }
      ∧ Only [.sbx] [F.SBX_STATUS_UPDATE] s u) ∧
  (∀ (s : State), Quiet s → flag s F.SBX_MB_STATUS_BUSY = false →
    (Completes .fwUpdateBegin s [] fun u => u = s) ∧ (Completes (.fwUpdateChunk false) s [] fun u => u = s)
    ∧ (Completes .fwUpdateCommit s [] fun u => u = s) ∧ (Completes (.fuseProgram true) s [] fun u => u = s)
    ∧ (Completes (.keySlotProgram true) s [] fun u => u = s) ∧ (Completes (.keySlotRevoke true) s [] fun u => u = s)
    ∧ (Completes .debugUnlockNonce s [] fun u => u = s) ∧ Completes .debugUnlockRespond s [] fun u => u = s) ∧
  (∀ (v : Word) (s : State), Quiet s →
    Completes (.sbxFuseArm v) s [] fun u =>
      u.sbx = { s.sbx with armed := if v = 0xF05E then true else s.sbx.armed } ∧ OnlyParts [.sbx] s u) ∧
  (∀ (s : State), Quiet s → Completes .fuseArmExpire s [] fun u => u.sbx = { s.sbx with armed := false } ∧ OnlyParts [.sbx] s u) ∧
  (∀ (v : BitVec 32) (s : State), Asked s 0x30 ([2, 0, 4, 0] ++ bytesOf 4 v.toNat) → s.sbx.armed = true → smGet s.sbx.shadow 2 0 = 0 →
    smGet s.sbx.fuses 4 0 = 0 → smGet s.sbx.fuses 5 0 = 0 → s.sbx.fuseBad = [] →
    Completes (.fuseProgram true) s [ev 0x1C07 [(1, 2)]] fun u =>
      Programs 2 0 v.toNat [2, 0] s u ∧ Only [.sbx] keyFlds s u) ∧
  (∀ (s : State), Asked s 0x30 [3, 0, 4, 0, 1, 0, 0, 0] → s.sbx.armed = true → smGet s.sbx.shadow 3 0 = 0 →
    smGet s.sbx.fuses 6 0 = 0 → smGet s.sbx.fuses 7 0 = 0 → s.sbx.fuseBad = [] → fld s F.DBG_STATUS_LOCKSTATE = 0 →
    Completes (.fuseProgram true) s [ev 0x1C07 [(1, 3)]] fun u =>
      fld u F.DBG_STATUS_LOCKSTATE = 1 ∧ Programs 3 0 1 [3, 0] s u ∧ Only [.sbx] (F.DBG_STATUS_LOCKSTATE :: keyFlds) s u) ∧
  (∀ (f : Fin 5) (l : List Byte) (s : State), Asked s 0x30 ([BitVec.ofNat 8 f, 0, BitVec.ofNat 8 (fieldLen f), 0] ++ l) → l.length = fieldLen f →
    0 < f.val → f.val ≠ 3 → s.sbx.armed = true → smGet s.sbx.shadow f 0 ≠ 0 →
    Completes (.fuseProgram true) s [] fun u =>
      u.sbx = { s.sbx with armed := false, resp := some ⟨ST.denied, 2, []⟩ } ∧ OnlyParts [.sbx] s u) ∧
  (∀ (v : BitVec 32) (b : Bool) (s : State), Asked s 0x30 ([2, 0, 4, 0] ++ bytesOf 4 v.toNat) → s.sbx.armed = false →
    Completes (.fuseProgram b) s [] fun u => Answers ST.denied 1 [] s u) ∧
  (∀ (v : BitVec 32) (s : State), Asked s 0x30 ([5, 0, 4, 0] ++ bytesOf 4 v.toNat) → s.sbx.armed = true → v.toNat ≤ 64 →
    Completes (.fuseProgram true) s (if s.sbx.shSvn < v.toNat then [ev 0x1C07 [(1, 5)]] else []) fun u =>
      u.sbx = { s.sbx with
        armed := false
        svn := if s.sbx.shSvn < v.toNat then v.toNat else s.sbx.svn
        shSvn := if s.sbx.shSvn < v.toNat then v.toNat else s.sbx.shSvn
        resp := some (if v.toNat < s.sbx.shSvn then ⟨ST.denied, 3, []⟩ else ⟨ST.ok, 0, [5, 0]⟩) }
      ∧ OnlyParts [.sbx] s u) ∧
  (∀ (k : Fin 4) (h : BitVec 256) (s : State), Asked s 0x31 ([BitVec.ofNat 8 k, 1, 0, 0] ++ bytesOf 32 h.toNat) → s.sbx.armed = true →
    slotsHeld s = false → s.sbx.keyHeld = false → keySlot s k = 0 → smGet s.sbx.fuses (2 * (0x10 + k)) 0 = 0 → smGet s.sbx.fuses (2 * (0x10 + k) + 1) 0 = 0 →
    s.sbx.fuseBad = [] →
    Completes (.keySlotProgram true) s [ev 0x1C08 [(1, k), (1, 1)]] fun u =>
      keySlot u k = 1 ∧ (∀ j, j < 4 → j ≠ k.val → keySlot u j = keySlot s j)
      ∧ Programs (0x10 + k) 0 h.toNat (bytesOf 4 (keySlotsWord u)) s u ∧ Only [.sbx] keyFlds s u) ∧
  (∀ (k : Fin 4) (h : BitVec 256) (s : State), Asked s 0x31 ([BitVec.ofNat 8 k, 2, 0, 0] ++ bytesOf 32 h.toNat) → s.sbx.armed = true →
    slotsHeld s = false → s.sbx.keyHeld = false → keySlot s k ≠ 2 → smGet s.sbx.fuses (2 * (0x20 + k)) 0 = 0 → smGet s.sbx.fuses (2 * (0x20 + k) + 1) 0 = 0 →
    s.sbx.fuseBad = [] →
    Completes (.keySlotRevoke true) s [ev 0x1C08 [(1, k), (1, 2)]] fun u =>
      keySlot u k = 2 ∧ (∀ j, j < 4 → j ≠ k.val → keySlot u j = keySlot s j)
      ∧ Programs (0x20 + k) 0 1 (bytesOf 4 (keySlotsWord u)) s u ∧ Only [.sbx] keyFlds s u) ∧
  (∀ (k : Fin 4) (h : BitVec 256) (b : Bool) (s : State), Asked s 0x31 ([BitVec.ofNat 8 k, 1, 0, 0] ++ bytesOf 32 h.toNat) → s.sbx.armed = true →
    keySlot s k ≠ 0 →
    Completes (.keySlotProgram b) s [] fun u =>
      u.sbx = { s.sbx with armed := false, resp := some ⟨ST.denied, 2, []⟩ } ∧ OnlyParts [.sbx] s u) ∧
  (∀ (k : Fin 4) (h : BitVec 256) (b : Bool) (s : State), Asked s 0x31 ([BitVec.ofNat 8 k, 1, 0, 0] ++ bytesOf 32 h.toNat) →
    s.sbx.armed = true → s.sbx.keyHeld = false → keySlot s k = 0 → fld s F.CFG_STATUS_RESULT = 1 ∨ fld s F.CFG_STATUS_RESULT = 2 →
    Completes (.keySlotProgram b) s [] fun u =>
      u.sbx = { s.sbx with
        armed := false
        keyHeld := true }
      ∧ OnlyParts [.sbx] s u) ∧
  (∀ (k : Fin 4) (h : BitVec 256) (s : State), Asked s 0x31 ([BitVec.ofNat 8 k, 1, 0, 0] ++ bytesOf 32 h.toNat) →
    s.sbx.keyHeld = true → keySlot s k = 0 → slotsHeld s = false →
    smGet s.sbx.fuses (2 * (0x10 + k)) 0 = 0 → smGet s.sbx.fuses (2 * (0x10 + k) + 1) 0 = 0 → s.sbx.fuseBad = [] →
    Completes (.keySlotProgram true) s [ev 0x1C08 [(1, k), (1, 1)]] fun u =>
      keySlot u k = 1 ∧ u.sbx.keyHeld = false ∧ u.sbx.armed = s.sbx.armed ∧ Only [.sbx] keyFlds s u) ∧
  (∀ (s : State), Asked s 0x40 [0, 0, 0, 0] →
    Completes .debugUnlockNonce s [] fun u =>
      (∃ n ∈ u.sbx.nonce, n < 2 ^ 256 ∧ u.sbx = { s.sbx with nonce := some n, resp := some ⟨ST.ok, 0, bytesOf 32 n⟩ })
      ∧ OnlyParts [.sbx, .free] s u) ∧
  (∀ (sig : List Byte) (s : State), Asked s 0x40 ([1, 0, 0, 0] ++ sig) → sig.length = 64 → lockState s ≠ 0 → s.sbx.nonce = none →
    Completes .debugUnlockRespond s [ev 0x1E05 []] fun u => Answers ST.denied 1 [] s u) ∧
  (∀ (sig : List Byte) (s : State), Asked s 0x40 ([1, 0, 0, 0] ++ sig) → sig.length = 64 → lockState s = 0 →
    Completes .debugUnlockRespond s [] fun u => Answers ST.ok 0 [] s u) ∧
  (∀ (sig : List Byte) (n : Nat) (s : State), Asked s 0x40 ([1, 0, 0, 0] ++ sig) → sig.length = 64 → lockState s ≠ 0 → s.sbx.nonce = some n →
    flag s F.DBG_KEYSEL_KEYSEL = false →
    Completes .debugUnlockRespond s
      (if ed25519 Config.debugKey (bytesOf 32 n ++ bytesOf 8 serial) sig then [ev 0x1C09 []] else [ev 0x1E05 []]) fun u =>
      if ed25519 Config.debugKey (bytesOf 32 n ++ bytesOf 8 serial) sig then
        lockState u = 2 ∧ u.sbx = { s.sbx with nonce := none, resp := some ⟨ST.ok, 0, []⟩ } ∧ Only [.sbx] [F.DBG_STATUS_LOCKSTATE] s u
      else u.sbx = { s.sbx with nonce := none, resp := some ⟨ST.denied, 2, []⟩ } ∧ OnlyParts [.sbx] s u) ∧
  (∀ (s : State), Quiet s → Completes .nonceExpire s [] fun u => u.sbx = { s.sbx with nonce := none } ∧ OnlyParts [.sbx] s u) ∧
  (∀ (s : State), Quiet s → s.sbx.due = true → flag s F.SBX_STATUS_READY = false → s.sbx.other = false → s.sbx.pref < 2 →
    Completes .sbxBoot s
      (if imageGood s s.sbx.pref then
        [ev 0x1C02 [(1, s.sbx.pref), (4, slotVersion s s.sbx.pref), (4, bootsNow s)]]
       else if imageGood s (1 - s.sbx.pref) then
        [ev 0x1C03 [], ev 0x1C02 [(1, 1 - s.sbx.pref), (4, slotVersion s (1 - s.sbx.pref)), (4, bootsNow s)]]
       else [ev 0x1C03 []]) fun u =>
      flag u F.SBX_STATUS_READY = true ∧ u.sbx.boots = bootsNow s ∧ u.sbx.due = false
      ∧ (imageGood s s.sbx.pref = true → fld u F.SBX_STATUS_SLOT = s.sbx.pref ∧ flag u F.SBX_STATUS_TRIAL = s.sbx.trial
          ∧ u.sbx.pref = s.sbx.pref)
      ∧ (imageGood s s.sbx.pref = false → imageGood s (1 - s.sbx.pref) = true →
          fld u F.SBX_STATUS_SLOT = 1 - s.sbx.pref ∧ u.sbx.pref = 1 - s.sbx.pref ∧ u.sbx.trial = false)
      ∧ (imageGood s s.sbx.pref = false → imageGood s (1 - s.sbx.pref) = false → flag u F.SBX_STATUS_RECOVERY = true)
      ∧ Only [.sbx] [F.SBX_STATUS_READY, F.SBX_STATUS_SLOT, F.SBX_STATUS_TRIAL, F.SBX_STATUS_RECOVERY] s u) ∧
  (∀ (s : State), Quiet s → s.sbx.due = false → Completes .sbxBoot s [] fun u => u = s) ∧
  (∀ (b : Bool) (s : State), Quiet s → flag s F.SBX_STATUS_TRIAL = true →
    Completes (.trialTimeout b) s [] fun u =>
      (if b then flag u F.SBX_STATUS_TRIAL = false ∧ u.sbx = { s.sbx with trial := false }
       else flag u F.SBX_STATUS_TRIAL = true ∧ u.sbx = { s.sbx with other := true }) ∧ Only [.sbx] [F.SBX_STATUS_TRIAL] s u) ∧
  (∀ (s : State), Quiet s → fwRuns s = true → flag s F.SBX_MB_STATUS_BUSY = false →
    Completes .fwHang s [ev 0x1C04 []] fun u =>
      flag u F.SBX_STATUS_READY = false ∧ flag u F.SBX_STATUS_UPDATE = false ∧ u.sbx.due = true ∧ u.sbx.nonce = none ∧ u.sbx.update = none
      ∧ (flag s F.SBX_STATUS_TRIAL = true → u.sbx.other = true)
      ∧ u.sbx.armed = false ∧ flag u F.SBX_CTRL_ENABLE = true ∧ flag u F.SBX_CTRL_LOCK = false ∧ fld u F.SBX_MB_STATUS_REJECTED = 0
      ∧ Only [.sbx] [F.SBX_STATUS_READY, F.SBX_STATUS_UPDATE, F.SBX_STATUS_RECOVERY, F.SBX_STATUS_TRIAL, F.SBX_CTRL_ENABLE, F.SBX_CTRL_LOCK,
          F.SBX_STATUS_DRAINING, F.SBX_MB_STATUS_REJECTED, F.SBX_MIRROR_LOST] s u) ∧
  (∀ (v : BitVec 16) (s : State), Quiet s → flag s F.SBX_WDOG_CFG_ENABLE = true → v = (if s.sbx.kick then 0xA5A5 else 0x5A5A) →
    Completes (.wdogKick v) s [] fun u =>
      fld u F.SBX_WDOG_STATUS_REMAIN = max 10 (fld s F.SBX_WDOG_CFG_PERIOD) ∧ u.sbx = { s.sbx with kick := !s.sbx.kick }
      ∧ Only [.sbx] [F.SBX_WDOG_STATUS_REMAIN] s u) ∧
  (∀ (v : BitVec 16) (s : State), Quiet s → flag s F.SBX_WDOG_CFG_ENABLE = true → v ≠ (if s.sbx.kick then 0xA5A5 else 0x5A5A) →
    Completes (.wdogKick v) s [] fun u => Counts F.SBX_WDOG_STATUS_BADKICK 1 s u ∧ OnlyRegs [F.SBX_WDOG_STATUS_BADKICK] s u) ∧
  (∀ (s : State), Quiet s → flag s F.SBX_WDOG_CFG_ENABLE = true → fld s F.PWR_STATUS_STATE ≤ 1 →
    Completes .wdogWarn s [ev 0x1C05 []] fun u =>
      fld u F.SBX_WDOG_STATUS_REMAIN = max 10 (fld s F.SBX_WDOG_CFG_PERIOD) / 2 ∧ OnlyRegs [F.SBX_WDOG_STATUS_REMAIN] s u) ∧
  (∀ (s : State), Quiet s → flag s F.SBX_WDOG_CFG_ENABLE = true → fld s F.PWR_STATUS_STATE ≤ 1 →
    fld s F.SBX_WDOG_CFG_ACTION = 0 ∨ fld s F.SBX_WDOG_CFG_ACTION = 3 →
    Completes .wdogExpire s [ev 0x1C06 [(1, fld s F.SBX_WDOG_CFG_ACTION)]] fun u =>
      fld u F.SBX_WDOG_STATUS_REMAIN = max 10 (fld s F.SBX_WDOG_CFG_PERIOD) ∧ Counts F.SBX_WDOG_STATUS_EXPIRED 1 s u
      ∧ OnlyRegs [F.SBX_WDOG_STATUS_REMAIN, F.SBX_WDOG_STATUS_EXPIRED] s u) ∧
  (∀ (s : State), Quiet s → flag s F.SBX_WDOG_CFG_ENABLE = false ∨ 2 ≤ fld s F.PWR_STATUS_STATE →
    Completes .wdogWarn s [] (fun u => u = s) ∧ Completes .wdogExpire s [] fun u => u = s)

/-- The mailbox holds an unanswered request with its zero fields zero, while the Signal Box runs from ROM in recovery. -/
abbrev AskedInRecovery (s : State) (cmd : Nat) (pay : List Byte) : Prop :=
  Quiet s ∧ flag s F.SBX_MB_STATUS_BUSY = true ∧ s.sbx.resp = none ∧ mbBytes s 0 2 = bytesOf 2 cmd
  ∧ mbBytes s 2 2 = bytesOf 2 pay.length ∧ mbBytes s 10 6 = bytesOf 6 0 ∧ mbBytes s 16 pay.length = pay
  ∧ flag s F.SBX_STATUS_RECOVERY = true

/-- The command answers, and not as a command that recovery turns away. -/
def Served (c : Instr) (s : State) : Prop :=
  Runs c s fun u => ∃ r ∈ u.sbx.resp, ¬(r.st = ST.disabled ∧ r.det = 3)

/-- Recovery (R391): GET_INFO, READ_LOG with SOURCE 0 and the three FW_UPDATE commands are served, GET_INFO answering with OK and with
0xFF for the running slot; GET_SENSORS, READ_LOG with SOURCE 1, ATTEST, SET_OP, FUSE_PROGRAM, KEY_SLOT and DEBUG_UNLOCK complete
DISABLED with DETAIL 0x03 and change nothing else. Stated for requests whose LEN and zero fields are as R389 lists them. -/
def Obligations.RecoveryServesFew : Prop :=
  (∀ (p : Byte) (s : State), AskedInRecovery s 1 [p, 0, 0, 0] → Served .getInfo s) ∧
  (∀ (s : State), AskedInRecovery s 1 [0, 0, 0, 0] →
    Completes .getInfo s [] fun u => ∃ r ∈ u.sbx.resp, r.st = ST.ok ∧ bytesNat ((r.pay.drop 3).take 1) = 0xFF) ∧
  (∀ (f : BitVec 32) (m : Byte) (s : State), AskedInRecovery s 3 (bytesOf 4 f.toNat ++ [0, m, 0, 0]) → Served .readLog s) ∧
  (∀ (n : BitVec 32) (s : State), AskedInRecovery s 0x10 (bytesOf 4 n.toNat) → Served .fwUpdateBegin s) ∧
  (∀ (pay : List Byte) (bad : Bool) (s : State), AskedInRecovery s 0x11 pay → 8 ≤ pay.length → pay.length ≤ 4080 → pay.length % 4 = 0 →
    Served (.fwUpdateChunk bad) s) ∧
  (∀ (a : Byte) (s : State), AskedInRecovery s 0x12 [a, 0, 0, 0] → a.toNat ≤ 1 → Served .fwUpdateCommit s) ∧
  (∀ (s : State), AskedInRecovery s 2 [] → Completes .getSensors s [] fun u => Answers ST.disabled 3 [] s u) ∧
  (∀ (f : BitVec 32) (m : Byte) (s : State), AskedInRecovery s 3 (bytesOf 4 f.toNat ++ [1, m, 0, 0]) →
    Completes .readLog s [] fun u => Answers ST.disabled 3 [] s u) ∧
  (∀ (pay : List Byte) (s : State), AskedInRecovery s 4 pay → pay.length = 32 →
    Completes .attest s [] fun u => Answers ST.disabled 3 [] s u) ∧
  (∀ (op : Byte) (s : State), AskedInRecovery s 0x20 [op, 0, 0, 0] → Completes .setOp s [] fun u => Answers ST.disabled 3 [] s u) ∧
  (∀ (f : Byte) (d : List Byte) (good : Bool) (s : State), AskedInRecovery s 0x30 ([f, 0] ++ bytesOf 2 d.length ++ d) → d.length < 4076 →
    Completes (.fuseProgram good) s [] fun u => Answers ST.disabled 3 [] s u) ∧
  (∀ (k a : Byte) (h : List Byte) (good : Bool) (s : State), AskedInRecovery s 0x31 ([k, a, 0, 0] ++ h) → h.length = 32 →
    (Completes (.keySlotProgram good) s [] fun u => Answers ST.disabled 3 [] s u)
    ∧ Completes (.keySlotRevoke good) s [] fun u => Answers ST.disabled 3 [] s u) ∧
  (∀ (s : State), AskedInRecovery s 0x40 [0, 0, 0, 0] → Completes .debugUnlockNonce s [] fun u => Answers ST.disabled 3 [] s u) ∧
  (∀ (sig : List Byte) (s : State), AskedInRecovery s 0x40 ([1, 0, 0, 0] ++ sig) → sig.length = 64 →
    Completes .debugUnlockRespond s [] fun u => Answers ST.disabled 3 [] s u)

/-! ### Clocks (chapter 20) -/

/-- The registers that show the oscillators' judgement. -/
def judgeFlds : List Fld := [F.CLK_STATUS_REF_STABLE, F.CLK_STATUS_FRO_STABLE]

/-- The count of a judgement window lies within the tolerance of R411. -/
abbrev InTolerance (s : State) (osc count : Nat) : Prop :=
  if osc = 0 then 781250 * 995 ≤ count * 1000 ∧ count * 1000 ≤ 781250 * 1005
  else if osc = 1 then 48828125 * 995 ≤ count * 10000 ∧ count * 10000 ≤ 48828125 * 1005
  else if s.clk.xo = 4 ∧ flag s F.CLK_STATUS_XO_FAIL = false then 1987 ≤ count ∧ count ≤ 2109
  else 6250000 * 97 ≤ count * 100 ∧ count * 100 ≤ 6250000 * 103

/-- Clocks (R411, R413 to R419, R421 to R425): a window within tolerance counts towards the four of the judgement, one outside begins it
anew, and the fourth makes the oscillator stable; a trip of SYSREF records the non-maskable event 0x0201, pends vector 1, and switches
to FRO or freezes; 50 µs of a freeze end with FAULT_N and event 0x0203; RETURN switches back once SYSREF is stable again; an XO
failure on a follower raises 0x0207; fabric PLLs start, stop and lock, or are refused with 0x0209; operating points change up and
down in R421's order with 0x0204, or time out with 0x0206; gates close at their acknowledgement, or are withdrawn with 0x0205. -/
def Obligations.ClocksAreJudgedAndChanged : Prop :=
  (∀ (osc : Fin 3) (n : BitVec 24) (s : State), Quiet s → InTolerance s osc n.toNat → goodWindows s osc < 3 →
    (osc = 2 → flag s F.CLK_CTRL_FRO_ON = true) →
    Completes (.oscJudgeWindow osc n) s [] fun u =>
      goodWindows u osc = goodWindows s osc + 1 ∧ (∀ j, j < 3 → j ≠ osc.val → goodWindows u j = goodWindows s j) ∧ Only [.clk] judgeFlds s u) ∧
  (∀ (osc : Fin 3) (n : BitVec 24) (s : State), Quiet s → ¬ InTolerance s osc n.toNat → (osc = 2 → flag s F.CLK_CTRL_FRO_ON = true) →
    Completes (.oscJudgeWindow osc n) s [] fun u =>
      goodWindows u osc = 0 ∧ (osc = 2 → flag u F.CLK_STATUS_FRO_STABLE = false) ∧ Only [.clk] judgeFlds s u) ∧
  (∀ (n : BitVec 24) (s : State), Quiet s → InTolerance s 0 n.toNat → s.clk.xo = 3 → isFollower s = false → s.clk.trip = false →
    flag s F.CLK_STATUS_FROZEN = false → flag s F.CLK_STATUS_SYSCLK = true →
    Completes (.oscJudgeWindow 0 n) s [] fun u =>
      u.clk = { s.clk with
        xo := 4
        since := true
        fro := if flag s F.CLK_CTRL_FRO_ON then s.clk.fro else 0 } ∧ flag u F.CLK_STATUS_REF_STABLE = true ∧ flag u F.CLK_STATUS_SYSCLK = false
      ∧ flag u F.CLK_STATUS_XO_FAIL = false ∧ Only [.clk] ([F.CLK_STATUS_SYSCLK, F.CLK_STATUS_XO_FAIL] ++ judgeFlds) s u) ∧
  (∀ (n : BitVec 24) (s : State), Quiet s → InTolerance s 2 n.toNat → s.clk.fro = 3 → flag s F.CLK_STATUS_FROZEN = true →
    s.clk.frozen50 = false → flag s F.CLK_STATUS_SYSCLK = false →
    Completes (.oscJudgeWindow 2 n) s [ev 0x0202 []] fun u =>
      u.clk = { s.clk with fro := 4 } ∧ flag u F.CLK_STATUS_FROZEN = false ∧ flag u F.CLK_STATUS_SYSCLK = true
      ∧ Only [.clk] ([F.CLK_STATUS_SYSCLK, F.CLK_STATUS_FROZEN] ++ judgeFlds) s u) ∧
  (∀ (s : State), Quiet s → flag s F.CLK_STATUS_SYSCLK = false → flag s F.CLK_STATUS_FROZEN = false → fld s F.ANG_STATUS_RT_STATE ≠ 1 →
    isFollower s = false → endpointHeld s = false → flag s F.CLK_STATUS_XO_FAIL = false →
    Completes .clkMonTrip s [⟨0x0201, none, true, []⟩] fun u =>
      flag u F.GLB_NMI_STATUS_CLKMON = true ∧ bitOf (fld u F.PCI_PBA_PENDING) 1 = true ∧ Counts F.CLK_MON_TRIPS_COUNT 1 s u
      ∧ (if s.clk.fro = 4 then flag u F.CLK_STATUS_SYSCLK = true ∧ flag u F.CLK_STATUS_FROZEN = false
         else flag u F.CLK_STATUS_SYSCLK = false ∧ flag u F.CLK_STATUS_FROZEN = true)
      ∧ u.clk = { s.clk with xo := 0, trip := true, since := false, frozen50 := false }
      ∧ Only [.clk] ([F.GLB_NMI_STATUS_CLKMON, F.PCI_PBA_PENDING, F.CLK_MON_TRIPS_COUNT, F.CLK_STATUS_SYSCLK, F.CLK_STATUS_FROZEN] ++ judgeFlds) s u) ∧
  (∀ (s : State), Quiet s → flag s F.CLK_STATUS_SYSCLK = true ∨ flag s F.CLK_STATUS_FROZEN = true → Completes .clkMonTrip s [] fun u => u = s) ∧
  (∀ (s : State), Quiet s → flag s F.CLK_STATUS_FROZEN = true → s.clk.frozen50 = false →
    Runs .freezeTimeout s fun u =>
      u.clk.frozen50 = true ∧ flag u F.GLB_NMI_STATUS_FAULT = true ∧ 0 ∈ u.rst.fault ∧ u.wire = s.wire ∧ flag u F.CLK_STATUS_FROZEN = true
      ∧ fld u F.DSP_STATUS_BSTOP ≠ 0
      ∧ OnlyParts [.regs, .clk, .rst, .dsp, .evq, .ports, .lanes, .mem] s u) ∧
  (∀ (s : State), Quiet s → flag s F.CLK_STATUS_FROZEN = false ∨ s.clk.frozen50 = true → Completes .freezeTimeout s [] fun u => u = s) ∧
  (∀ (s : State), Quiet s → flag s F.CLK_STATUS_SYSCLK = true → s.clk.trip = true → s.clk.since = true → flag s F.CLK_STATUS_REF_STABLE = true →
    flag s F.CLK_STATUS_FROZEN = false →
    Completes .sysclkReturn s [ev 0x0208 []] fun u =>
      flag u F.CLK_STATUS_SYSCLK = false
      ∧ u.clk = { s.clk with
          trip := false
          fro := if flag s F.CLK_CTRL_FRO_ON then s.clk.fro else 0 }
      ∧ Only [.clk] (F.CLK_STATUS_SYSCLK :: judgeFlds) s u) ∧
  (∀ (s : State), Quiet s → s.clk.since = false ∨ flag s F.CLK_STATUS_REF_STABLE = false → Completes .sysclkReturn s [] fun u => u = s) ∧
  (∀ (s : State), Quiet s → isFollower s = true → flag s F.CLK_STATUS_SYSCLK = false → flag s F.CLK_STATUS_XO_FAIL = false →
    Completes .xoFail s [ev 0x0207 []] fun u =>
      flag u F.CLK_STATUS_XO_FAIL = true ∧ flag u F.GLB_NMI_STATUS_XOFAIL = true ∧ u.clk = { s.clk with xo := 0 }
      ∧ flag u F.CLK_STATUS_SYSCLK = false ∧ Only [.clk] ([F.CLK_STATUS_XO_FAIL, F.GLB_NMI_STATUS_XOFAIL] ++ judgeFlds) s u) ∧
  (∀ (s : State), Quiet s → isFollower s = false → Completes .xoFail s [] fun u => u = s) ∧
  (∀ (a b again : Bool) (s : State), Quiet s →
    Completes (.nmiClear a b again) s [] fun u =>
      flag u F.GLB_NMI_STATUS_CLKMON = (flag s F.GLB_NMI_STATUS_CLKMON && !(a && !again))
      ∧ flag u F.GLB_NMI_STATUS_XOFAIL = (flag s F.GLB_NMI_STATUS_XOFAIL && !(b && !flag s F.CLK_STATUS_XO_FAIL))
      ∧ OnlyRegs [F.GLB_NMI_STATUS_CLKMON, F.GLB_NMI_STATUS_XOFAIL] s u) ∧
  (∀ (n : Fin 24) (s : State), Quiet s → flag s (F.CLK_FPLLn_EN n) = false → pllAbove s n (fld s F.CLK_OP_CURRENT) = false →
    Completes (.fpllEnable n) s [] fun u => flag u (F.CLK_FPLLn_EN n) = true ∧ OnlyRegs [F.CLK_FPLLn_EN n] s u) ∧
  (∀ (n : Fin 24) (s : State), Quiet s → flag s (F.CLK_FPLLn_EN n) = false → fld s F.CLK_OP_CURRENT = 0 →
    200 * fld s (F.CLK_FPLLn_O0 n) < 25 * fld s (F.CLK_FPLLn_M n) →
    Completes (.fpllEnable n) s [ev 0x0209 []] fun u => u = s) ∧
  (∀ (n : Fin 24) (s : State), Quiet s →
    Completes (.fpllDisable n) s [] fun u =>
      flag u (F.CLK_FPLLn_EN n) = false ∧ flag u (F.CLK_FPLLn_LOCKED n) = false ∧ OnlyRegs [F.CLK_FPLLn_EN n, F.CLK_FPLLn_LOCKED n] s u) ∧
  (∀ (n : Fin 24) (i : Fin 28) (s : State), Quiet s → i.val = 4 + n.val → flag s (F.CLK_FPLLn_EN n) = true →
    Completes (.pllLock i) s [] fun u => flag u (F.CLK_FPLLn_LOCKED n) = true ∧ OnlyRegs [F.CLK_FPLLn_LOCKED n] s u) ∧
  (∀ (i : Fin 28) (s : State), Quiet s → i.val < 4 → s.clk.op = none →
    Completes (.pllLock i) s [] fun u => i.val ∈ u.clk.plls ∧ u.clk = { s.clk with plls := u.clk.plls } ∧ OnlyParts [.clk] s u) ∧
  (∀ (t : BitVec 2) (s : State), Quiet s → flag s F.CLK_CTRL_ENABLE = true → flag s F.CLK_STATUS_DRAINING = false → s.clk.op = none →
    pllBlocks s t.toNat = false → t.toNat ≠ fld s F.CLK_OP_CURRENT →
    Completes (.opRequest t) s [] fun u =>
      fld u F.CLK_OP_TARGET = t.toNat ∧ flag u F.CLK_STATUS_OP_BUSY = true ∧ fld u F.CLK_OP_CURRENT = fld s F.CLK_OP_CURRENT
      ∧ u.clk = { s.clk with
          op := some ⟨t.toNat, decide (fld s F.CLK_OP_CURRENT < t.toNat), decide (fld s F.CLK_OP_CURRENT < t.toNat), false⟩
          engGate := if fld s F.CLK_OP_CURRENT < t.toNat then [] else [1, 2, 3] }
      ∧ Only [.clk] [F.CLK_OP_TARGET, F.CLK_STATUS_OP_BUSY] s u) ∧
  (∀ (t : BitVec 2) (s : State), Quiet s → flag s F.CLK_CTRL_ENABLE = true → flag s F.CLK_STATUS_DRAINING = false →
    s.clk.op ≠ none ∨ pllBlocks s t.toNat = true →
    Completes (.opRequest t) s [] fun u => Counts F.CLK_OP_REFUSED 1 s u ∧ OnlyRegs [F.CLK_OP_REFUSED] s u) ∧
  (∀ (t : BitVec 2) (s : State), Quiet s → flag s F.CLK_CTRL_ENABLE = false → Completes (.opRequest t) s [] fun u => u = s) ∧
  (∀ (mv : BitVec 12) (t : Nat) (s : State), Quiet s → s.clk.op = some ⟨t, true, true, false⟩ →
    Completes (.avsAck mv) s [] fun u =>
      fld u F.CLK_AVS_VREAD = mv.toNat ∧ u.clk = { s.clk with op := some ⟨t, true, false, false⟩, engGate := [1, 2, 3] }
      ∧ Only [.clk] [F.CLK_AVS_VREAD] s u) ∧
  (∀ (t : Nat) (s : State), Quiet s → s.clk.op = some ⟨t, true, false, false⟩ → t < 4 → flag s F.CLK_STATUS_DRAINING = false →
    Completes (.pllLock 1) s [ev 0x0204 []] fun u =>
      fld u F.CLK_OP_CURRENT = t ∧ flag u F.CLK_STATUS_OP_BUSY = false ∧ u.clk.op = none ∧ u.clk.engGate = []
      ∧ Only [.clk] [F.CLK_OP_CURRENT, F.CLK_STATUS_OP_BUSY] s u) ∧
  (∀ (t : Nat) (s : State), Quiet s → s.clk.op = some ⟨t, false, false, false⟩ →
    Completes (.pllLock 1) s [] fun u =>
      u.clk.op = some ⟨t, false, true, false⟩ ∧ u.clk.engGate = [] ∧ OnlyParts [.clk] s u) ∧
  (∀ (mv : BitVec 12) (t : Nat) (s : State), Quiet s → s.clk.op = some ⟨t, false, true, false⟩ → t < 4 →
    Completes (.avsAck mv) s [ev 0x0204 []] fun u =>
      fld u F.CLK_OP_CURRENT = t ∧ fld u F.CLK_AVS_VREAD = mv.toNat ∧ flag u F.CLK_STATUS_OP_BUSY = false ∧ u.clk.op = none
      ∧ (flag s F.CLK_STATUS_DRAINING = true → flag u F.CLK_CTRL_ENABLE = false)
      ∧ Only [.clk] [F.CLK_OP_CURRENT, F.CLK_AVS_VREAD, F.CLK_STATUS_OP_BUSY, F.CLK_CTRL_ENABLE, F.CLK_STATUS_DRAINING] s u) ∧
  (∀ (mv : BitVec 12) (t : Nat) (up : Bool) (s : State), Quiet s → s.clk.op = some ⟨t, up, true, false⟩ → t < 4 →
    flag s F.CLK_STATUS_DRAINING = false →
    Completes (.avsTimeout mv) s [ev 0x0206 []] fun u =>
      fld u F.CLK_OP_CURRENT = (if up then fld s F.CLK_OP_CURRENT else t) ∧ fld u F.CLK_AVS_VREAD = mv.toNat ∧ u.clk.op = none
      ∧ Only [.clk] [F.CLK_OP_CURRENT, F.CLK_AVS_VREAD, F.CLK_STATUS_OP_BUSY] s u) ∧
  (∀ (mv : BitVec 12) (s : State), Quiet s → s.clk.op = none →
    Completes (.avsTimeout mv) s [] (fun u => u = s) ∧ Completes (.avsAck mv) s [] fun u => u = s) ∧
  (∀ (i : Fin 96) (s : State), Quiet s → flag s F.CLK_STATUS_FROZEN = false → (engine s i).gateReq = true →
    Completes (.gateAck true i) s [] (fun u =>
      flag u (F.ENG_n_STATUS_GATED i) = true ∧ engine u i = { engine s i with gateReq := false } ∧ (∀ j, j ≠ i.val → engine u j = engine s j)
      ∧ Only [.engines] [F.ENG_n_STATUS_GATED i] s u)
    ∧ Completes (.gateTimeout true i) s [ev 0x0205 [(1, 0x18)]] (fun u =>
      Counts F.CLK_GATE_TO_COUNT 1 s u ∧ engine u i = { engine s i with gateReq := false } ∧ (∀ j, j ≠ i.val → engine u j = engine s j)
      ∧ Only [.engines] [F.CLK_GATE_TO_COUNT] s u)) ∧
  (∀ (i : Fin 96) (s : State), Quiet s → flag s F.CLK_STATUS_FROZEN = false → i.val < 72 → (region s i).gateReq = true →
    Completes (.gateAck false i) s [] (fun u =>
      flag u (F.FAB_REGr_STATUS_SLEEPING i) = (regState s i == 3 || flag s (F.FAB_REGr_STATUS_SLEEPING i)) ∧ region u i = { region s i with gateReq := false }
      ∧ (∀ j, j ≠ i.val → region u j = region s j) ∧ Only [.regions] [F.FAB_REGr_STATUS_SLEEPING i] s u)
    ∧ Completes (.gateTimeout false i) s [ev 0x0205 [(1, 7)]] (fun u =>
      Counts F.CLK_GATE_TO_COUNT 1 s u ∧ region u i = { region s i with gateReq := false } ∧ (∀ j, j ≠ i.val → region u j = region s j)
      ∧ Only [.regions] [F.CLK_GATE_TO_COUNT] s u)) ∧
  (∀ (e : Bool) (i : Fin 96) (s : State), Quiet s → flag s F.CLK_STATUS_FROZEN = true →
    Completes (.gateAck e i) s [] (fun u => u = s) ∧ Completes (.gateTimeout e i) s [] fun u => u = s) ∧
  (∀ (s : State), Quiet s → flag s F.CLK_CTRL_ENABLE = true →
    Completes .clkDisable s [] fun u =>
      (if s.clk.op = none then flag u F.CLK_CTRL_ENABLE = false else flag u F.CLK_STATUS_DRAINING = true ∧ u.clk = s.clk)
      ∧ OnlyRegs [F.CLK_CTRL_ENABLE, F.CLK_STATUS_DRAINING] s u) ∧
  (∀ (s : State), Quiet s → flag s F.CLK_CTRL_ENABLE = false → Completes .clkDisable s [] fun u => u = s)

/-! ### Resets (chapter 21) -/

/-- The fields of which only POR is a reset, and those that follow the fuses and the causes of FAULT_N (R430, R438). -/
def keptFlds : List Fld :=
  [F.RST_STATUS_FUSE_DONE, F.RST_STATUS_FUSE_FAULT, F.RST_STATUS_FUSE_TRIES, F.GLB_ID_GRADE, F.PWR_WAKE_CAUSE_CAUSE, F.PWR_WAKE_FAIL_CONSEC,
   F.PWR_WAKE_FAIL_TOTAL, F.BST_FUSE_USED, F.BST_FUSE_BAD, F.PWR_RAILS_EN, F.PWR_RAILS_PGOOD]

/-- GLB_RST_CAUSE. -/
def causeFlds : List Fld := [F.GLB_RST_CAUSE_SOURCE, F.GLB_RST_CAUSE_QUAL, F.GLB_RST_CAUSE_ENGINE]

/-- What the reach of PIN leaves (R9, R429, R430, R434): every part and every register as after reset, but for the log and its mirror,
the contents of memory dies, scratchpads and block memories, flash and fuses, the TAP, the link's reset lines, what lies outside the
device, and the fields named; RST_DIE and RST_BLOCK resets are over, and the release begins at step 2 once its source ends. -/
def PinReach (src : Nat) (s u : State) : Prop :=
  OnlyFlds (causeFlds ++ keptFlds ++ keyFlds ++ [F.DBG_STATUS_LOCKSTATE, F.GLB_NMI_STATUS_FAULT]) State.reset u
  ∧ CauseIs src 0 0 u ∧ (∀ f ∈ keptFlds, fld u f = fld s f % 2 ^ f.width)
  ∧ fld u F.DBG_STATUS_LOCKSTATE = (if flag s F.RST_STATUS_FUSE_DONE = true ∧ smGet s.sbx.shadow 3 0 = 0 then 0 else 1)
  ∧ flag u F.GLB_NMI_STATUS_FAULT = s.rst.fault.contains 1
  ∧ OnlyParts [.regs, .evq, .log, .windows, .mirrorQ, .free, .pending, .wire, .hostWr, .rsps, .modules, .mem, .engines, .fab, .pci,
      .sbx, .dbg, .bst, .pwr, .rst] State.reset u
  ∧ (∀ p ∈ [Part.log, .windows, .mirrorQ, .pending, .wire, .hostWr, .rsps, .modules], samePart s u p)
  ∧ u.mem = { s.mem with reread := [] }
  ∧ (∀ n : Fin 96, (engine u n).sp = (engine s n).sp ∧ (engine u n).spPoison = (engine s n).spPoison
      ∧ (engine u n).win = [] ∧ (engine u n).fifos = [] ∧ (engine u n).wakeq = [])
  ∧ (∀ r : Fin 72, ∀ i : Fin 50, bm u r i = { mem := (bm s r i).mem })
  ∧ u.sbx.slotA = s.sbx.slotA ∧ u.sbx.slotB = s.sbx.slotB ∧ u.sbx.mirror = s.sbx.mirror ∧ u.sbx.shadow = s.sbx.shadow
  ∧ u.sbx.nonce = none ∧ u.sbx.resp = none ∧ u.sbx.armed = false ∧ u.pci.perst = s.pci.perst ∧ u.pci.hot = s.pci.hot
  ∧ u.rst = { srcs := if s.rst.srcs.contains src then s.rst.srcs else s.rst.srcs ++ [src], step := 2, untested := u.rst.untested,
              fault := s.rst.fault.filter (· == 1) }

/-- No access of a host window is in flight, and no session is open. -/
abbrev HostQuiet (s : State) : Prop :=
  s.cache.fills = [] ∧ s.cache.zero = none ∧ (∀ n : Fin 96, (engine s n).win = []) ∧ sessOpen s = false

/-- What PERST and HOTRST do (R26, R304, R309, R353, R359, R371, R383). -/
def HostReset (src : Nat) (s u : State) : Prop :=
  CauseIs src 0 0 u ∧ flag u F.PCI_STATUS_LINK_UP = false ∧ u.pci.ready = false ∧ u.pci.l1 = false ∧ Counts F.PCI_LINK_DOWN_DOWNS 1 s u
  ∧ flag u F.HWN_STATUS_BME = false ∧ u.hwn = {} ∧ u.cache.ways = [] ∧ flag u F.ENC_STATUS_REKEYING = false
  ∧ Counts F.ENC_KEYS_KEYS 1 s u ∧ u.enc.cur = Config.freeNat s.free % 2 ^ 256 ∧ u.enc.next = 0
  ∧ fld u F.ANG_PTM_HOST_HOST_TIME = 0 ∧ fld u F.ANG_PTM_RT_RING_TIME = 0 ∧ flag u F.ANG_PTM_CTRL_DONE = false
  ∧ fld u F.CFG_DEADLINE_MS = 0 ∧ u.cfg.hidden = [] ∧ u.mem.cells = s.mem.cells
  ∧ OnlyParts [.regs, .evq, .pci, .hwn, .cache, .enc, .cfg, .mem, .free] s u

/-- Nothing that another master asked of engine n is in flight. -/
abbrev NoneInFlightTo (n : Nat) (s : State) : Prop :=
  s.dbg.acc.busy = false ∧ ∀ m : Fin 96, ∀ q ∈ (engine s m).win, atEngine n q.addr = false

/-- The reset of a die or block is asked for: the cause, the bit of its register, and nothing forced yet. -/
def AsksFor (src qual eng : Nat) (fs : List Fld) (x : Rst) (s u : State) : Prop :=
  CauseIs src qual eng u ∧ u.rst = x ∧ Only [.rst] (causeFlds ++ fs) s u

/-- Reset sources (R26, R427 to R431, R434, R435, R437, R440): POR leaves the reset state with memory, scratchpads and engine registers
undefined; PIN and a keyed SWFULL have the reach of PIN with event 0x0101, and do nothing in OFF; any other write of GLB_RESET does
nothing; PERST and HOTRST reset the endpoint, the host window, the cache and the sealing key; DIE and BLOCK resets are asked for, and
forced at IDLE_ACK, or at the time-out with event 0x0102. -/
def Obligations.ResetSourcesReach : Prop :=
  (∀ (s : State),
    Completes .por s [] fun u =>
      OnlyFlds [] State.reset u
      ∧ OnlyParts [.free, .pending, .wire, .hostWr, .rsps, .modules, .mem, .engines, .pci, .sbx] State.reset u
      ∧ (∀ p ∈ [Part.wire, .hostWr, .rsps, .modules, .pending], samePart s u p)
      ∧ u.mem.cells = [] ∧ u.mem.poison = [] ∧ (∀ k : Fin 192, smGet u.mem.scram k 0 ≠ 0)
      ∧ (∀ n : Fin 96, (engine u n).spDraw ≠ 0 ∧ (engine u n).sp = [] ∧ (thread u n 0).und ≠ 0)
      ∧ u.sbx.slotA = s.sbx.slotA ∧ u.sbx.slotB = s.sbx.slotB ∧ u.sbx.mirror = s.sbx.mirror ∧ u.sbx.shadow = []
      ∧ u.pci.perst = s.pci.perst ∧ u.pci.hot = s.pci.hot) ∧
  (∀ (s : State), Quiet s → isOff s = false → UnitsIdle s → poweringUp s = false →
    Completes .pin s (ev 0x0101 [(1, 1), (1, 0), (1, 0)] :: regionGone s) (PinReach 1 s)) ∧
  (∀ (v : Word) (s : State), Quiet s → isOff s = false → UnitsIdle s → poweringUp s = false → v.getLsbD 0 = true → v.toNat / 2 ^ 16 = 0xC0DE →
    Completes (.swfull v) s (ev 0x0101 [(1, 3), (1, 0), (1, 0)] :: regionGone s) (PinReach 3 s)) ∧
  (∀ (v : Word) (s : State), Quiet s → v.getLsbD 0 = false ∨ v.toNat / 2 ^ 16 ≠ 0xC0DE → Completes (.swfull v) s [] fun u => u = s) ∧
  (∀ (s : State), Quiet s → isOff s = true → Completes .pin s [] fun u => u = s) ∧
  (∀ (s : State), Quiet s → HostQuiet s → s.pci.perst = false → isOff s = false →
    Completes .perst s [ev 0x0101 [(1, 6), (1, 0), (1, 0)], ev 0x2002 [(1, 1)], ev 0x1104 [], ev 0x1304 []] fun u =>
      u.pci.perst = true ∧ u.pci.hot = s.pci.hot ∧ HostReset 6 s u) ∧
  (∀ (s : State), Quiet s → HostQuiet s → s.pci.hot = false → isOff s = false →
    Completes .hotrst s [ev 0x0101 [(1, 7), (1, 0), (1, 0)], ev 0x2002 [(1, 0)], ev 0x1104 [], ev 0x1304 []] fun u =>
      u.pci.hot = true ∧ u.pci.perst = s.pci.perst ∧ HostReset 7 s u) ∧
  (∀ (p : Fin 9) (s : State), Quiet s → bitOf (fld s F.RST_DIE_HOLD) p = false →
    Completes (.dieReset p) s [ev 0x0101 [(1, 8), (1, p + 1), (1, 0)]] fun u =>
      AsksFor 8 (p + 1) 0 [F.RST_DIE_HOLD] { s.rst with dieWait := s.rst.dieWait ++ [p.val + 1] } s u
      ∧ ∀ i : Fin 9, bitOf (fld u F.RST_DIE_HOLD) i = (bitOf (fld s F.RST_DIE_HOLD) i || i == p)) ∧
  (∀ (p : Fin 9) (s : State), Quiet s → bitOf (fld s F.RST_DIE_HOLD) p = true → Completes (.dieReset p) s [] fun u => u = s) ∧
  (∀ (b : Fin 33) (s : State), Quiet s → b.val ∈ [0x02, 0x05, 0x06, 0x07, 0x08, 0x09, 0x0C, 0x0E, 0x10, 0x11, 0x12, 0x13, 0x14, 0x18, 0x1C, 0x1D, 0x1E, 0x1F, 0x20] →
    b.val ∉ s.rst.blkWait → b.val ∉ s.rst.blkOn →
    Completes (.rstBlockWrite (BitVec.ofNat 33 (2 ^ b.val))) s [ev 0x0101 [(1, 9), (1, b), (1, if b.val = 0x18 then 0x7F else 0)]] fun u =>
      AsksFor 9 b (if b.val = 0x18 then 0x7F else 0) [F.RST_BLOCK_GO] { s.rst with blkWait := s.rst.blkWait ++ [b.val] } s u
      ∧ ∀ i : Fin 33, bitOf (fld u F.RST_BLOCK_GO) i = (bitOf (fld s F.RST_BLOCK_GO) i || i == b)) ∧
  (∀ (x : RstUnit) (k : BitVec 8) (s : State), Quiet s → waits s x = false →
    (Completes (.idleAck x) s [] fun u => u = s) ∧ Completes (.idleTimeout x k) s [] fun u => u = s) ∧
  (∀ (n : Fin 96) (s : State), Quiet s → n.val ∈ s.rst.engWait → NoneInFlightTo n s →
    Completes (.idleAck (.engine n)) s [] fun u =>
      u.rst = { s.rst with engWait := s.rst.engWait.filter (· != n.val), engOn := s.rst.engOn ++ [n.val] }
      ∧ (∀ t : Fin 4, thrState u n t = 0 ∧ (thread u n t).und = s.free + 1) ∧ fld u (F.ENG_n_CTRL_START n) = 0
      ∧ (engine u n).win = [] ∧ (engine u n).fifos = [] ∧ (engine u n).sp = (engine s n).sp
      ∧ (∀ m : Fin 96, m ≠ n → engine u m = engine s m) ∧ u.mem = s.mem ∧ u.axes = s.axes ∧ u.ports = s.ports) ∧
  (∀ (n : Fin 96) (k : BitVec 8) (s : State), Quiet s → n.val ∈ s.rst.engWait → NoneInFlightTo n s →
    Completes (.idleTimeout (.engine n) k) s [ev 0x0102 [(1, 0x18)]] fun u =>
      Counts F.RST_FORCED_COUNT 1 s u ∧ fld u F.RST_FORCED_LAST = 0x18 ∧ n.val ∈ u.rst.engOn ∧ n.val ∉ u.rst.engWait
      ∧ (∀ t : Fin 4, thrState u n t = 0)) ∧
  (∀ (n m : Fin 96) (q : WinReq) (s : State), Quiet s → n.val ∈ s.rst.engWait → m ≠ n → q ∈ (engine s m).win → q.pre = 0 →
    atEngine n q.addr = true → Runs (.idleAck (.engine n)) s fun u => q ∉ (engine u m).win) ∧
  (∀ (d : Fin 3) (s : State), Quiet s → 3 * d.val + 1 ∈ s.rst.dieWait → UnitsIdle s →
    Runs (.idleAck (.die ⟨3 * d.val, by omega⟩)) s fun u =>
      bitOf (fld u F.RST_DIE_IN_RESET) (3 * d) = true ∧ 3 * d.val + 1 ∉ u.rst.dieWait
      ∧ (∀ i : Fin 32, ∀ t : Fin 4, thrState u (32 * d + i) t = 0 ∧ (thread u (32 * d + i) t).und ≠ 0)
      ∧ (∀ i : Fin 24, (region u (24 * d + i)).run = false ∧ (region u (24 * d + i)).pend = [])
      ∧ u.mem = s.mem) ∧
  (∀ (s : State), Quiet s → 0x10 ∈ s.rst.blkWait →
    Runs (.idleAck (.block 0x10)) s fun u =>
      0x10 ∈ u.rst.blkOn ∧ 0x10 ∉ u.rst.blkWait ∧ u.mem.cells = s.mem.cells ∧ u.mem.poison = s.mem.poison
      ∧ (∀ d : Fin 3, fld u (F.MEM_Md_PATROL_LINE (d + 1)) = 0 ∧ fld u (F.MEM_Md_CORR_CORR (d + 1)) = 0) ∧ flag u F.MEM_STATUS_DRAINING = false) ∧
  (∀ (b : Fin 33) (s : State), Quiet s → b.val ∈ s.rst.blkWait →
    Runs (.idleAck (.block b)) s fun u => b.val ∈ u.rst.blkOn ∧ b.val ∉ u.rst.blkWait)

/-- The device's power is up, so that a release may run. -/
abbrev Powered (s : State) : Prop := powerUp s = true

/-- The release goes from one step to another, and nothing else changes but the fields and parts named. -/
def StepsTo (k : Nat) (ps : List Part) (fs : List Fld) (s u : State) : Prop := u.rst.step = k ∧ Only (.rst :: ps) fs s u

/-- The fields of the interconnect test. -/
def icFlds : List Fld := [F.BST_IC_FAIL_F2F, F.BST_IC_FAIL_BASEIF, F.BST_IC_FAIL_TRACKS, F.BST_IC_FAIL_POWER, F.BST_IC_BADREG_REGIONS]

/-- The end of a timed reset, of a held one and of the last one, the release and the fuse load (R428, R433, R438, R447): a BLOCK or
engine reset ends and its bit reads 0; the last source with the reach of PIN starts the release at step 2, or at step 3 where the
shadows are complete; steps 3 to 9 follow one another as each ends, the interconnect test reporting its failures with event 0x1D04,
step 6 drawing the sealing key, step 8 ending a wake with event 0x0303; a passed load sets FUSE_DONE, a failed one counts with
event 0x0103, and the third is a fuse fault with event 0x0104. -/
def Obligations.ReleaseFollowsItsOrder : Prop :=
  (∀ (b : Fin 33) (s : State), Quiet s → b.val ∈ s.rst.blkOn → b ≠ 0x1C →
    Completes (.resetPulseEnd (.block b)) s [] fun u =>
      u.rst = { s.rst with blkOn := s.rst.blkOn.filter (· != b.val) }
      ∧ (∀ i : Fin 33, bitOf (fld u F.RST_BLOCK_GO) i = (bitOf (fld s F.RST_BLOCK_GO) i && i != b)) ∧ Only [.rst] [F.RST_BLOCK_GO] s u) ∧
  (∀ (n : Fin 96) (s : State), Quiet s → n.val ∈ s.rst.engOn →
    Completes (.resetPulseEnd (.engine n)) s [] fun u =>
      u.rst = { s.rst with engOn := s.rst.engOn.filter (· != n.val) } ∧ flag u (F.ENG_n_CTRL_SRESET n) = false
      ∧ Only [.rst] [F.ENG_n_CTRL_SRESET n] s u) ∧
  (∀ (x : PulseSource) (k : Nat) (s : State), Quiet s → (x, k) ∈ [(.wdog, 2), (.swfull, 3), (.ring, 4)] → s.rst.srcs = [k] → Powered s →
    Completes (.resetPulseEnd x) s [] fun u =>
      u.rst = { s.rst with srcs := [], step := if flag s F.RST_STATUS_FUSE_DONE then 3 else 2 } ∧ fld u F.RST_STATUS_FUSE_TRIES = (if flag s F.RST_STATUS_FUSE_DONE then fld s F.RST_STATUS_FUSE_TRIES else 0)
      ∧ Only [.rst] [F.RST_STATUS_FUSE_TRIES] s u) ∧
  (∀ (x : PulseSource) (k j : Nat) (s : State), Quiet s → (x, k) ∈ [(.wdog, 2), (.swfull, 3), (.ring, 4)] → s.rst.srcs = [k, j] → j ≠ k →
    Completes (.resetPulseEnd x) s [] fun u => u = { s with rst := { s.rst with srcs := [j] } }) ∧
  (∀ (s : State), Quiet s → s.rst.srcs = [1] → Powered s →
    Completes (.resetRelease .pin) s [] fun u =>
      u.rst = { s.rst with srcs := [], step := if flag s F.RST_STATUS_FUSE_DONE then 3 else 2 } ∧ fld u F.RST_STATUS_FUSE_TRIES = (if flag s F.RST_STATUS_FUSE_DONE then fld s F.RST_STATUS_FUSE_TRIES else 0)
      ∧ Only [.rst] [F.RST_STATUS_FUSE_TRIES] s u) ∧
  (∀ (s : State), Quiet s → Completes (.resetRelease .hotrst) s [] fun u => u = setPci s { s.pci with hot := false }) ∧
  (∀ (p : Fin 9) (s : State), Quiet s → bitOf (fld s F.RST_DIE_IN_RESET) p = true → p.val % 3 ≠ 0 →
    Completes (.resetRelease (.die p)) s [] fun u =>
      (∀ i : Fin 9, bitOf (fld u F.RST_DIE_HOLD) i = (bitOf (fld s F.RST_DIE_HOLD) i && i != p)
        ∧ bitOf (fld u F.RST_DIE_IN_RESET) i = (bitOf (fld s F.RST_DIE_IN_RESET) i && i != p))
      ∧ u.rst = { s.rst with dieWait := s.rst.dieWait.filter (· != p.val + 1) } ∧ Only [.rst] [F.RST_DIE_HOLD, F.RST_DIE_IN_RESET] s u) ∧
  (∀ (f : BitVec 3) (b : Bool) (k : BitVec 2) (p : Bool) (r : BitVec 72) (s : State), Quiet s → s.rst.srcs ≠ [] ∨ powerUp s = false →
    Completes (.releaseStep f b k p r) s [] fun u => u = s) ∧
  (∀ (f : BitVec 3) (b : Bool) (k : BitVec 2) (p : Bool) (r : BitVec 72) (s : State), Quiet s → s.rst.srcs = [] → Powered s → s.rst.step = 3 →
    0 ∈ s.clk.plls →
    Completes (.releaseStep f b k p r) s (if f = 0 ∧ b = false ∧ k = 0 ∧ p = false then [] else [ev 0x1D04 []]) fun u =>
      fld u F.BST_IC_FAIL_F2F = f.toNat ∧ flag u F.BST_IC_FAIL_BASEIF = b ∧ fld u F.BST_IC_FAIL_TRACKS = k.toNat
      ∧ flag u F.BST_IC_FAIL_POWER = p ∧ (f = 0 ∧ k = 0 ∨ fld u F.BST_IC_BADREG_REGIONS = r.toNat) ∧ StepsTo 4 [] icFlds s u) ∧
  (∀ (f : BitVec 3) (b : Bool) (k : BitVec 2) (p : Bool) (r : BitVec 72) (s : State), Quiet s → s.rst.srcs = [] → Powered s → s.rst.step = 4 →
    flag s F.STK_STATUS_TRAINED = true → (∀ u ∈ s.rst.untested, 3 ≤ u) →
    Completes (.releaseStep f b k p r) s [] fun u => flag u F.MEM_STATUS_INIT_DONE = true ∧ StepsTo 5 [] [F.MEM_STATUS_INIT_DONE] s u) ∧
  (∀ (f : BitVec 3) (b : Bool) (k : BitVec 2) (p : Bool) (r : BitVec 72) (s : State), Quiet s → s.rst.srcs = [] → Powered s → s.rst.step = 5 →
    Completes (.releaseStep f b k p r) s [ev 0x1304 []] fun u =>
      u.enc.cur = Config.freeNat s.free % 2 ^ 256 ∧ Counts F.ENC_KEYS_KEYS 1 s u ∧ u.sbx.due = true ∧ flag u F.SBX_STATUS_READY = false
      ∧ u.rst.fault = (s.rst.fault.filter (· != 2)).filter (· != 3)
      ∧ StepsTo 6 [.sbx, .enc, .free] [F.ENC_KEYS_KEYS, F.SBX_STATUS_READY, F.SBX_STATUS_RECOVERY, F.SBX_STATUS_TRIAL, F.SBX_STATUS_UPDATE,
          F.GLB_NMI_STATUS_FAULT] s u) ∧
  (∀ (f : BitVec 3) (b : Bool) (k : BitVec 2) (p : Bool) (r : BitVec 72) (s : State), Quiet s → s.rst.srcs = [] → Powered s → s.rst.step = 6 →
    Completes (.releaseStep f b k p r) s [] fun u =>
      u.bst.startup = s.bst.startup ++ [3, 4, 5] ∧ (∀ c ∈ [3, 4, 5], unitState u c = 2)
      ∧ StepsTo 7 [.bst] ((List.range 9).flatMap (fun c => [F.BST_Uu_CMD_GO c, F.BST_Uu_STATUS_STATE c]) ++ [F.BST_STATUS_RUNNING]) s u) ∧
  (∀ (f : BitVec 3) (b : Bool) (k : BitVec 2) (p : Bool) (r : BitVec 72) (s : State), Quiet s → s.rst.srcs = [] → Powered s → s.rst.step = 7 →
    (∀ u ∈ s.rst.untested, u < 6) → s.bst.startup = [] →
    Completes (.releaseStep f b k p r) s [] fun u => flag u F.BST_STATUS_STARTUP_DONE = true ∧ StepsTo 8 [] [F.BST_STATUS_STARTUP_DONE] s u) ∧
  (∀ (f : BitVec 3) (b : Bool) (k : BitVec 2) (p : Bool) (r : BitVec 72) (s : State), Quiet s → s.rst.srcs = [] → Powered s → s.rst.step = 8 →
    s.pwr.step ≠ 6 →
    Completes (.releaseStep f b k p r) s [] fun u => u = setRst s { s.rst with step := 9 }) ∧
  (∀ (f : BitVec 3) (b : Bool) (k : BitVec 2) (p : Bool) (r : BitVec 72) (s : State), Quiet s → s.rst.srcs = [] → s.rst.step = 8 →
    s.pwr = { step := 6, left := 4 } → fld s F.PWR_STATUS_PHASE = 2 → s.engines = [] → s.regions = [] →
    Completes (.releaseStep f b k p r) s [ev 0x0303 [(1, fld s F.PWR_WAKE_CAUSE_CAUSE)]] fun u =>
      fld u F.PWR_STATUS_STATE = 0 ∧ fld u F.PWR_STATUS_PHASE = 0 ∧ fld u F.PWR_WAKE_FAIL_CONSEC = 0 ∧ u.pwr = {}
      ∧ StepsTo 9 [.pwr, .thm] [F.PWR_STATUS_STATE, F.PWR_STATUS_PHASE, F.PWR_WAKE_FAIL_CONSEC, F.SBX_WDOG_STATUS_REMAIN] s u) ∧
  (∀ (f : BitVec 3) (b : Bool) (k : BitVec 2) (p : Bool) (r : BitVec 72) (s : State), Quiet s → s.rst.srcs = [] → Powered s → s.rst.step = 9 →
    Completes (.releaseStep f b k p r) s [] fun u =>
      u = if s.pci.perst || s.pci.hot then s else setRst s { s.rst with step := 0 }) ∧
  (∀ (s : State), Quiet s → loadRuns s = true →
    Runs (.fuseLoadAttemptEnd true) s fun u =>
      flag u F.RST_STATUS_FUSE_DONE = true ∧ fld u F.GLB_ID_GRADE = (if Config.grade2 = true then 2 else 1)
      ∧ u.rst = { s.rst with step := 3 } ∧ u.sbx.shSvn = s.sbx.svn
      ∧ fld u F.DBG_STATUS_LOCKSTATE = (if smGet u.sbx.shadow 3 0 = 0 then 0 else 1)
      ∧ Only [.rst, .sbx, .bst] ([F.RST_STATUS_FUSE_DONE, F.GLB_ID_GRADE, F.DBG_STATUS_LOCKSTATE, F.BST_FUSE_USED, F.BST_FUSE_BAD] ++ keyFlds) s u) ∧
  (∀ (s : State), Quiet s → loadRuns s = true →
    Completes (.fuseLoadAttemptEnd false) s (if fld s F.RST_STATUS_FUSE_TRIES < 2 then [ev 0x0103 []] else [ev 0x0103 [], ev 0x0104 []]) fun u =>
      fld u F.RST_STATUS_FUSE_TRIES = fld s F.RST_STATUS_FUSE_TRIES + 1
      ∧ (if fld s F.RST_STATUS_FUSE_TRIES < 2 then OnlyRegs [F.RST_STATUS_FUSE_TRIES] s u
         else flag u F.RST_STATUS_FUSE_FAULT = true ∧ flag u F.GLB_NMI_STATUS_FAULT = true ∧ 1 ∈ u.rst.fault
           ∧ Only [.rst] [F.RST_STATUS_FUSE_TRIES, F.RST_STATUS_FUSE_FAULT, F.GLB_NMI_STATUS_FAULT] s u)) ∧
  (∀ (ok : Bool) (s : State), Quiet s → loadRuns s = false → Completes (.fuseLoadAttemptEnd ok) s [] fun u => u = s)

/-! ### Power states (chapter 22) -/

/-- The device is in a power state, and no entry and no wake runs. -/
abbrev Steady (s : State) (st : Nat) : Prop := Quiet s ∧ fld s F.PWR_STATUS_STATE = st ∧ fld s F.PWR_STATUS_PHASE = 0 ∧ s.pwr.step = 0

/-- An entry is at a step. -/
abbrev Entering (s : State) (target k : Nat) : Prop :=
  Quiet s ∧ fld s F.PWR_STATUS_PHASE = 1 ∧ s.pwr.target = target ∧ s.pwr.step = k ∧ s.pwr.late = false

/-- A wake from a power state is at a step. -/
abbrev Waking (s : State) (left k : Nat) : Prop :=
  Quiet s ∧ fld s F.PWR_STATUS_PHASE = 2 ∧ s.pwr.left = left ∧ s.pwr.step = k

/-- Nothing keeps the device from SLEEP or deeper (R443). -/
abbrev MayRest (s : State) : Prop :=
  flag s F.DSP_CTRL_ENABLE = false ∧ flag s F.DSP_STATUS_DRAINING = false ∧ flag s F.ANG_CTRL_ENABLE = false
  ∧ fld s F.ANG_STATUS_RT_STATE = 0 ∧ (∀ p : Fin 4, fld s (F.WNG_Pp_STATUS_STATE p) = 0)
  ∧ (∀ k : Fin 16, flag s (F.HWN_RINGk_CTRL_ENABLE k) = false) ∧ s.hwn.reclaims = [] ∧ flag s F.ENC_STATUS_REKEYING = false
  ∧ fld s F.CFG_STATUS_RESULT ≠ 1 ∧ fld s F.CFG_STATUS_RESULT ≠ 2 ∧ ∀ k : Fin 43, fld s (F.STK_Lk_STATUS_STATE k) ≠ 3

/-- The entry is refused with a reason, and nothing else happens (R443). -/
def EntryRefused (t : BitVec 3) (r : Nat) (s : State) : Prop :=
  Completes (.powerEntry t) s [ev 0x0302 [(1, r)]] fun u =>
    fld u F.PWR_STATUS_REFUSE = r ∧ fld u F.PWR_CTRL_TARGET = t.toNat ∧ OnlyRegs [F.PWR_STATUS_REFUSE, F.PWR_CTRL_TARGET] s u

/-- The entry is accepted and begins with step 1 (R443, R444). -/
def EntryBegins (t : BitVec 3) (s : State) : Prop :=
  Completes (.powerEntry t) s [] fun u =>
    fld u F.PWR_STATUS_PHASE = 1 ∧ fld u F.PWR_STATUS_REFUSE = 0 ∧ fld u F.PWR_CTRL_TARGET = t.toNat
    ∧ u.pwr = { step := 1, target := t.toNat } ∧ Only [.pwr] [F.PWR_STATUS_PHASE, F.PWR_STATUS_REFUSE, F.PWR_CTRL_TARGET] s u

/-- A wake from a state begins at the first step of R447 that applies to it, with the bit of its source recorded (R446). -/
def WakeBegins (src left k : Nat) (fs : List Fld) (s u : State) : Prop :=
  fld u F.PWR_STATUS_PHASE = 2 ∧ u.pwr = { left := left, step := k }
  ∧ fld u F.PWR_WAKE_CAUSE_CAUSE = (fld s F.PWR_WAKE_CAUSE_CAUSE ||| 2 ^ src) % 64
  ∧ Only ([.pwr] ++ (if left = 2 then [.clk] else [])) ([F.PWR_STATUS_PHASE, F.PWR_WAKE_CAUSE_CAUSE] ++ fs) s u

/-- The fields that show FRO started. -/
def froFlds : List Fld := [F.CLK_STATUS_FRO_STABLE, F.CLK_STATUS_SYSCLK]

/-- The fields of the fabric PLLs' locks. -/
def lockFlds : List Fld := (List.range 24).map F.CLK_FPLLn_LOCKED

/-- Entries (R442 to R444, R449, R450, R452): a request is refused with the first reason that applies and event 0x0302, or begins step 1;
a gate not acknowledged withdraws it; its steps stop SYSPLL1 and the fabric PLLs, then SYSPLL0, and end in IDLE, SLEEP, DEEP SLEEP or
OFF with event 0x0301, a late wake source starting its wake at once; a disable takes effect at once or with the end of the entry. -/
def Obligations.PowerStatesAreEntered : Prop :=
  (∀ (t : BitVec 3) (s : State), Quiet s → 1 ≤ t.toNat → t.toNat ≤ 4 → flag s F.PWR_CTRL_ENABLE = false → EntryRefused t 1 s) ∧
  (∀ (t : BitVec 3) (s : State), Quiet s → 1 ≤ t.toNat → t.toNat ≤ 4 → flag s F.PWR_CTRL_ENABLE = true → flag s F.PWR_STATUS_DRAINING = false →
    fld s F.PWR_STATUS_STATE ≠ 0 ∨ fld s F.PWR_STATUS_PHASE ≠ 0 → EntryRefused t 2 s) ∧
  (∀ (t : BitVec 3) (s : State), Steady s 0 → 2 ≤ t.toNat → t.toNat ≤ 4 → flag s F.PWR_CTRL_ENABLE = true → flag s F.PWR_STATUS_DRAINING = false →
    flag s F.DSP_CTRL_ENABLE = true ∨ flag s F.DSP_STATUS_DRAINING = true → EntryRefused t 3 s) ∧
  (∀ (t : BitVec 3) (s : State), Steady s 0 → 2 ≤ t.toNat → t.toNat ≤ 4 → flag s F.PWR_CTRL_ENABLE = true → flag s F.PWR_STATUS_DRAINING = false →
    flag s F.DSP_CTRL_ENABLE = false → flag s F.DSP_STATUS_DRAINING = false →
    flag s F.ANG_CTRL_ENABLE = true ∨ fld s F.ANG_STATUS_RT_STATE ≠ 0 → EntryRefused t 4 s) ∧
  (∀ (t : BitVec 3) (p : Fin 4) (s : State), Steady s 0 → 2 ≤ t.toNat → t.toNat ≤ 4 → flag s F.PWR_CTRL_ENABLE = true →
    flag s F.PWR_STATUS_DRAINING = false → flag s F.DSP_CTRL_ENABLE = false → flag s F.DSP_STATUS_DRAINING = false →
    flag s F.ANG_CTRL_ENABLE = false → fld s F.ANG_STATUS_RT_STATE = 0 → fld s (F.WNG_Pp_STATUS_STATE p) ≠ 0 → EntryRefused t 5 s) ∧
  (∀ (t : BitVec 3) (k : Fin 16) (s : State), Steady s 0 → 2 ≤ t.toNat → t.toNat ≤ 4 → flag s F.PWR_CTRL_ENABLE = true →
    flag s F.PWR_STATUS_DRAINING = false → flag s F.DSP_CTRL_ENABLE = false → flag s F.DSP_STATUS_DRAINING = false →
    flag s F.ANG_CTRL_ENABLE = false → fld s F.ANG_STATUS_RT_STATE = 0 → (∀ p : Fin 4, fld s (F.WNG_Pp_STATUS_STATE p) = 0) →
    flag s (F.HWN_RINGk_CTRL_ENABLE k) = true → EntryRefused t 6 s) ∧
  (∀ (s : State), Steady s 0 → flag s F.PWR_CTRL_ENABLE = true → flag s F.PWR_STATUS_DRAINING = false → EntryBegins 1 s) ∧
  (∀ (t : BitVec 3) (s : State), Steady s 0 → 2 ≤ t.toNat → t.toNat ≤ 4 → flag s F.PWR_CTRL_ENABLE = true → flag s F.PWR_STATUS_DRAINING = false →
    MayRest s → EntryBegins t s) ∧
  (∀ (s : State), Steady s 0 →
    Completes (.powerEntry 0) s [] fun u => fld u F.PWR_CTRL_TARGET = 0 ∧ OnlyRegs [F.PWR_CTRL_TARGET] s u) ∧
  (∀ (s : State), Steady s 1 → bitOf (fld s F.PWR_WAKE_EN_SOURCES) 5 = true →
    Completes (.powerEntry 0) s [] (WakeBegins 5 1 11 [F.PWR_CTRL_TARGET] s)) ∧
  (∀ (ok eng : Bool) (s : State), Quiet s → fld s F.PWR_STATUS_PHASE ≠ 1 → Completes (.powerEntryStep ok eng) s [] fun u => u = s) ∧
  (∀ (t : Nat) (eng : Bool) (s : State), Entering s t 1 →
    (Completes (.powerEntryStep true eng) s [] fun u => u = { s with pwr := { s.pwr with step := 2, closed := true } })
    ∧ Completes (.powerEntryStep false eng) s [ev 0x0205 [(1, if eng then 0x18 else 7)], ev 0x0302 [(1, 8)]] fun u =>
      fld u F.PWR_STATUS_REFUSE = 8 ∧ fld u F.PWR_STATUS_PHASE = 0 ∧ Counts F.CLK_GATE_TO_COUNT 1 s u
      ∧ u.pwr = { s.pwr with step := 0, closed := false }
      ∧ Only [.pwr] [F.PWR_STATUS_REFUSE, F.PWR_STATUS_PHASE, F.CLK_GATE_TO_COUNT] s u) ∧
  (∀ (ok eng : Bool) (s : State), Entering s 1 2 → flag s F.PWR_STATUS_DRAINING = false →
    Completes (.powerEntryStep ok eng) s [ev 0x0301 [(1, 0), (1, 1)]] fun u =>
      fld u F.PWR_STATUS_STATE = 1 ∧ fld u F.PWR_STATUS_PHASE = 0 ∧ u.pwr = {} ∧ 1 ∉ u.clk.plls ∧ (∀ f ∈ lockFlds, flag u f = false)
      ∧ u.clk = { s.clk with plls := u.clk.plls }
      ∧ Only [.pwr, .clk] ([F.PWR_STATUS_STATE, F.PWR_STATUS_PHASE] ++ lockFlds) s u) ∧
  (∀ (ok eng : Bool) (t : Nat) (s : State), Entering s t 2 → 2 ≤ t →
    Completes (.powerEntryStep ok eng) s [] fun u =>
      u.pwr = { s.pwr with step := 3 } ∧ 1 ∉ u.clk.plls ∧ (∀ f ∈ lockFlds, flag u f = false) ∧ Only [.pwr, .clk] lockFlds s u) ∧
  (∀ (ok eng : Bool) (s : State), Entering s 2 3 → flag s F.PWR_STATUS_DRAINING = false → mayStop s = true →
    Completes (.powerEntryStep ok eng) s ((if ok then [] else [ev 0x0206 []]) ++ [ev 0x0301 [(1, 0), (1, 2)]]) fun u =>
      fld u F.PWR_STATUS_STATE = 2 ∧ fld u F.PWR_STATUS_PHASE = 0 ∧ u.pwr = {} ∧ u.clk = { s.clk with plls := [] }
      ∧ Only [.pwr, .clk] [F.PWR_STATUS_STATE, F.PWR_STATUS_PHASE] s u) ∧
  (∀ (ok eng : Bool) (t : Nat) (s : State), Entering s t 3 → mayStop s = false → Completes (.powerEntryStep ok eng) s [] fun u => u = s) ∧
  (∀ (ok eng : Bool) (t : Nat) (s : State), Entering s t 3 → t = 3 ∨ t = 4 → mayStop s = true →
    Completes (.powerEntryStep ok eng) s (if ok then [] else [ev 0x0206 []]) fun u =>
      u.pwr = { s.pwr with step := if t = 3 then 4 else 5 } ∧ u.clk = { s.clk with plls := [] } ∧ OnlyParts [.pwr, .clk] s u) ∧
  (∀ (ok eng : Bool) (s : State), Entering s 3 4 → flag s F.PWR_STATUS_DRAINING = true →
    Completes (.powerEntryStep ok eng) s [ev 0x0301 [(1, 0), (1, 3)]] fun u =>
      fld u F.PWR_STATUS_STATE = 3 ∧ fld u F.PWR_STATUS_PHASE = 0 ∧ u.pwr = {} ∧ flag u F.PWR_CTRL_ENABLE = false
      ∧ flag u F.PWR_STATUS_DRAINING = false
      ∧ Only [.pwr] [F.PWR_STATUS_STATE, F.PWR_STATUS_PHASE, F.PWR_CTRL_ENABLE, F.PWR_STATUS_DRAINING] s u) ∧
  (∀ (ok eng : Bool) (s : State), Entering s 4 5 → UnitsIdle s →
    Completes (.powerEntryStep ok eng) s (ev 0x0301 [(1, 0), (1, 4)] :: regionGone s) (InOff (s.rst.fault.filter (· != 0)))) ∧
  (∀ (ok eng : Bool) (s : State), Quiet s → fld s F.PWR_STATUS_PHASE = 1 → s.pwr = { target := 3, step := 4, late := true, closed := true } →
    flag s F.PWR_STATUS_DRAINING = false →
    Completes (.powerEntryStep ok eng) s [ev 0x0301 [(1, 0), (1, 3)]] fun u =>
      fld u F.PWR_STATUS_STATE = 3 ∧ fld u F.PWR_STATUS_PHASE = 2 ∧ u.pwr = { left := 3, step := 7 }) ∧
  (∀ (s : State), Quiet s → flag s F.PWR_CTRL_ENABLE = true → fld s F.PWR_STATUS_PHASE ≠ 1 →
    Completes .pwrDisable s [] fun u => flag u F.PWR_CTRL_ENABLE = false ∧ OnlyRegs [F.PWR_CTRL_ENABLE] s u) ∧
  (∀ (s : State), Quiet s → flag s F.PWR_CTRL_ENABLE = true → fld s F.PWR_STATUS_PHASE = 1 →
    Completes .pwrDisable s [] fun u => flag u F.PWR_STATUS_DRAINING = true ∧ OnlyRegs [F.PWR_STATUS_DRAINING] s u)

/-- Wakes (R443, R446 to R449, R451): WAKE_N, PCIE and TIMER wake the device from IDLE, SLEEP and DEEP SLEEP where their bit of
PWR_WAKE_EN allows, and WAKE_N alone from OFF once re-armed; a second source is only recorded, and one during step 1 of an entry
withdraws it; the steps of a wake follow one another and end in RUN with event 0x0303; a missed time-out is a failure with event
0x0304, and the third in a row brings OFF with FAULT_N and event 0x0305; a lost rail brings OFF with event 0x0306. -/
def Obligations.WakesRunAndFail : Prop :=
  (∀ (s : State), Steady s 1 → Completes .wakeN s [] (WakeBegins 0 1 11 [] s)) ∧
  (∀ (s : State), Steady s 2 → Completes .wakeN s [] (WakeBegins 0 2 8 froFlds s)) ∧
  (∀ (s : State), Steady s 3 → Completes .wakeN s [] (WakeBegins 0 3 7 [] s)) ∧
  (∀ (s : State), Steady s 4 → s.pwr.armed = true → Completes .wakeN s [] (WakeBegins 0 4 1 [] s)) ∧
  (∀ (s : State), Steady s 4 → s.pwr.armed = false → Completes .wakeN s [] fun u => u = s) ∧
  (∀ (s : State), Steady s 4 → Completes .wakeRearm s [] fun u => u = { s with pwr := { s.pwr with armed := true } }) ∧
  (∀ (s : State), Quiet s → fld s F.PWR_STATUS_STATE ≠ 4 → Completes .wakeRearm s [] fun u => u = s) ∧
  (∀ (s : State), Steady s 0 →
    (Completes .wakeN s [] fun u => u = s) ∧ (Completes (.pcieWake false) s [] fun u => u = s) ∧ Completes .wakeTimer s [] fun u => u = s) ∧
  (∀ (s : State), Steady s 3 → bitOf (fld s F.PWR_WAKE_EN_SOURCES) 2 = true → Completes (.pcieWake false) s [] (WakeBegins 2 3 7 [] s)) ∧
  (∀ (s : State), Steady s 3 → bitOf (fld s F.PWR_WAKE_EN_SOURCES) 2 = true → s.pci.perst = true →
    Completes (.pcieWake true) s [] (fun u => u.pci = { s.pci with perst := false } ∧ fld u F.PWR_STATUS_PHASE = 2 ∧ u.pwr = { left := 3, step := 7 }
      ∧ Only [.pci, .pwr] [F.PWR_STATUS_PHASE, F.PWR_WAKE_CAUSE_CAUSE] s u)
    ∧ Completes (.resetRelease .perst) s [] fun u => u.pci = { s.pci with perst := false } ∧ fld u F.PWR_STATUS_PHASE = 2) ∧
  (∀ (s : State), Steady s 1 → bitOf (fld s F.PWR_WAKE_EN_SOURCES) 3 = true → fld s F.PWR_WAKE_TIMER_PERIODS ≠ 0 →
    Completes .wakeTimer s [] (WakeBegins 3 1 11 [] s)) ∧
  (∀ (s : State), Quiet s → fld s F.PWR_WAKE_TIMER_PERIODS = 0 ∨ bitOf (fld s F.PWR_WAKE_EN_SOURCES) 3 = false →
    Completes .wakeTimer s [] fun u => u = s) ∧
  (∀ (left k : Nat) (s : State), Waking s left k → 1 ≤ left → left ≤ 3 → fld s F.PWR_STATUS_STATE = left →
    Completes .wakeN s [] fun u =>
      fld u F.PWR_WAKE_CAUSE_CAUSE = (fld s F.PWR_WAKE_CAUSE_CAUSE ||| 1) % 64 ∧ OnlyRegs [F.PWR_WAKE_CAUSE_CAUSE] s u) ∧
  (∀ (t : Nat) (s : State), Entering s t 1 → 1 ≤ t → t ≤ 4 → fld s F.PWR_STATUS_STATE = 0 →
    Completes .wakeN s [ev 0x0302 [(1, 8)]] fun u =>
      fld u F.PWR_STATUS_REFUSE = 8 ∧ fld u F.PWR_STATUS_PHASE = 0 ∧ u.pwr = { s.pwr with step := 0, closed := false }
      ∧ Only [.pwr] [F.PWR_STATUS_REFUSE, F.PWR_STATUS_PHASE, F.PWR_WAKE_CAUSE_CAUSE] s u) ∧
  (∀ (k : Fin 3) (s : State), Waking s 4 (k + 1) →
    Completes .wakeStep s [] fun u =>
      u.pwr = { s.pwr with step := k + 2 }
      ∧ (∀ i : Fin 4, bitOf (fld u F.PWR_RAILS_EN) i = (bitOf (fld s F.PWR_RAILS_EN) i || i.val == k.val)
          ∧ bitOf (fld u F.PWR_RAILS_PGOOD) i = (bitOf (fld s F.PWR_RAILS_PGOOD) i || i.val == k.val))
      ∧ Only [.pwr] [F.PWR_RAILS_EN, F.PWR_RAILS_PGOOD] s u) ∧
  (∀ (s : State), Waking s 4 4 → Completes .wakeStep s [] fun u => u = { s with pwr := { s.pwr with step := 5 } }) ∧
  (∀ (s : State), Waking s 4 5 → s.rst.srcs = [] → flag s F.RST_STATUS_FUSE_DONE = false →
    Completes .wakeStep s [] fun u =>
      u.pwr = { s.pwr with step := 6 } ∧ u.rst = { s.rst with step := 2 } ∧ bitOf (fld u F.PWR_RAILS_EN) 3 = true
      ∧ Only [.pwr, .rst] [F.PWR_RAILS_EN, F.PWR_RAILS_PGOOD, F.RST_STATUS_FUSE_TRIES] s u) ∧
  (∀ (s : State), Waking s 3 7 →
    Completes .wakeStep s [] fun u =>
      u.pwr = { s.pwr with step := 8 } ∧ u.clk = { s.clk with fro := 0 } ∧ flag u F.CLK_STATUS_SYSCLK = true
      ∧ flag u F.CLK_STATUS_FRO_STABLE = false ∧ Only [.pwr, .clk] froFlds s u) ∧
  (∀ (left : Nat) (s : State), Waking s left 8 →
    Completes .wakeStep s [] fun u => u = if flag s F.CLK_STATUS_FRO_STABLE then { s with pwr := { s.pwr with step := 9 } } else s) ∧
  (∀ (left : Nat) (s : State), Waking s left 9 → 0 ∈ s.clk.plls →
    Completes .wakeStep s [] fun u =>
      u.pwr = { s.pwr with step := 10 }
      ∧ flag u F.CLK_STATUS_SYSCLK = (if flag s F.CLK_STATUS_REF_STABLE = true ∧ s.clk.trip = false then false else flag s F.CLK_STATUS_SYSCLK)
      ∧ u.clk = { s.clk with fro := u.clk.fro } ∧ Only [.pwr, .clk] (F.CLK_STATUS_REF_STABLE :: froFlds) s u) ∧
  (∀ (left : Nat) (s : State), Waking s left 10 → Completes .wakeStep s [] fun u => u = { s with pwr := { s.pwr with step := 11 } }) ∧
  (∀ (left : Nat) (s : State), Waking s left 11 → 1 ∈ s.clk.plls → (∀ n : Fin 24, flag s (F.CLK_FPLLn_EN n) = true → flag s (F.CLK_FPLLn_LOCKED n) = true) →
    s.engines = [] → s.regions = [] →
    Completes .wakeStep s [ev 0x0303 [(1, fld s F.PWR_WAKE_CAUSE_CAUSE)]] fun u =>
      fld u F.PWR_STATUS_STATE = 0 ∧ fld u F.PWR_STATUS_PHASE = 0 ∧ fld u F.PWR_WAKE_FAIL_CONSEC = 0 ∧ u.pwr = {}
      ∧ Only [.pwr, .thm] [F.PWR_STATUS_STATE, F.PWR_STATUS_PHASE, F.PWR_WAKE_FAIL_CONSEC, F.SBX_WDOG_STATUS_REMAIN] s u) ∧
  (∀ (k : Fin 3) (s : State), Waking s 4 (k + 1) → UnitsIdle s → fld s F.PWR_WAKE_FAIL_CONSEC < 2 →
    Completes .wakeStepTimeout s (ev 0x0304 [] :: regionGone s) fun u =>
      fld u F.PWR_WAKE_FAIL_CAUSE = 0 ∧ fld u F.PWR_WAKE_FAIL_RAIL = k ∧ fld u F.PWR_WAKE_FAIL_CONSEC = fld s F.PWR_WAKE_FAIL_CONSEC + 1
      ∧ InOff (s.rst.fault.filter (· != 0)) u) ∧
  (∀ (s : State), Waking s 1 11 → 1 ∉ s.clk.plls → fld s F.PWR_WAKE_FAIL_CONSEC < 2 →
    Completes .wakeStepTimeout s [ev 0x0304 []] fun u =>
      fld u F.PWR_STATUS_STATE = fld s F.PWR_STATUS_STATE ∧ fld u F.PWR_STATUS_PHASE = 0 ∧ u.pwr = {}
      ∧ fld u F.PWR_WAKE_FAIL_CAUSE = 3 ∧ fld u F.PWR_WAKE_FAIL_CONSEC = fld s F.PWR_WAKE_FAIL_CONSEC + 1
      ∧ Counts F.PWR_WAKE_FAIL_TOTAL 1 s u
      ∧ Only [.pwr, .clk] ([F.PWR_STATUS_PHASE, F.PWR_WAKE_FAIL_CAUSE, F.PWR_WAKE_FAIL_RAIL, F.PWR_WAKE_FAIL_CONSEC, F.PWR_WAKE_FAIL_TOTAL] ++ lockFlds) s u) ∧
  (∀ (left : Nat) (s : State), Waking s left 8 → flag s F.CLK_STATUS_FRO_STABLE = false → fld s F.PWR_WAKE_FAIL_CONSEC = 2 → UnitsIdle s →
    fld s F.PWR_STATUS_STATE ≠ 4 →
    Completes .wakeStepTimeout s ([ev 0x0304 [], ev 0x0305 []] ++ regionGone s) fun u =>
      InOff ((if s.rst.fault.contains 2 then s.rst.fault else s.rst.fault ++ [2]).filter (· != 0)) u ∧ fld u F.PWR_WAKE_FAIL_CAUSE = 2
      ∧ fld u F.PWR_WAKE_FAIL_CONSEC = 3) ∧
  (∀ (i : Fin 4) (s : State), Quiet s → fld s F.PWR_STATUS_STATE ≠ 4 → bitOf (fld s F.PWR_RAILS_EN) i = true → UnitsIdle s →
    Completes (.railLost i) s (ev 0x0306 [(1, i)] :: regionGone s)
      (InOff ((if s.rst.fault.contains 3 then s.rst.fault else s.rst.fault ++ [3]).filter (· != 0)))) ∧
  (∀ (i : Fin 4) (s : State), Quiet s → fld s F.PWR_STATUS_STATE = 4 ∨ bitOf (fld s F.PWR_RAILS_EN) i = false →
    Completes (.railLost i) s [] fun u => u = s)

/-! ### Thermal management and self-test (chapters 23 and 24) -/

/-- A round's readings: every sensor converts. -/
def roundOf (t : Fin 20 → BitVec 16) (iv : BitVec 9) (v : List (BitVec 16)) (vio : List (BitVec 12)) : RoundIn :=
  ⟨(List.finRange 20).map fun n => some (t n), iv, v, vio, []⟩

/-- The readings lie within −55 to 150 °C, and no sensor has failed. -/
abbrev GoodSensors (t : Fin 20 → BitVec 16) (s : State) : Prop :=
  (∀ n : Fin 20, -880 ≤ (t n).toInt ∧ (t n).toInt ≤ 2400) ∧ ∀ n : Fin 20, flag s (F.THM_Sn_FAIL n) = false

/-- Housekeeping rounds run. -/
abbrev RoundsRun (s : State) : Prop := Quiet s ∧ fld s F.PWR_STATUS_STATE ≤ 1 ∧ flag s F.CLK_STATUS_FROZEN = false

/-- No rate of rise is known yet. -/
abbrev NoRates (s : State) : Prop := s.thm.hist.length < 256 ∧ 0 < fld s F.THM_RATE_RWARN ∧ 0 < fld s F.THM_RATE_RCRIT

/-- Thermal management (R454 to R460, R427): a round records its readings, enters CRITICAL where a sensor reaches the limit, TRIP with
event 0x0404 and the buffer stop where one is at TRIP in two rounds running, and holds NORMAL below WARN; SLOWDOWN follows while
throttling is enabled; THERM brings OFF from TRIP, and from SLEEP and DEEP SLEEP after two checks at TRIP; a disable ends with the
next round. -/
def Obligations.ThermalRoundsAndTrips : Prop :=
  (∀ (t : Fin 20 → BitVec 16) (iv : BitVec 9) (v : List (BitVec 16)) (vio : List (BitVec 12)) (s : State), RoundsRun s → GoodSensors t s →
    Runs (.housekeepingRound (roundOf t iv v vio)) s fun u =>
      (∀ n : Fin 20, fld u (F.THM_Sn_TEMP n) = (t n).toNat ∧ flag u (F.THM_Sn_FAIL n) = false) ∧ u.thm.round = (s.thm.round + 1) % 2 ^ 32
      ∧ u.thm.volts = v.map (·.toNat) ∧ fld u F.STK_IVCORE_CURRENT = iv.toNat
      ∧ u.thm.hist = (((List.range 20).map fun n => if h : n < 20 then (t ⟨n, h⟩).toInt else 0) :: s.thm.hist).take 256
      ∧ OnlyParts [.regs, .evq, .thm, .stk, .iob, .free, .wire, .mem, .cache, .lanes, .dsp, .ports, .tt] s u) ∧
  (∀ (t : Fin 20 → BitVec 16) (k : Fin 20) (iv : BitVec 9) (v : List (BitVec 16)) (vio : List (BitVec 12)) (s : State), RoundsRun s → GoodSensors t s →
    NoRates s → (fld s F.THM_LIMITS_CRIT * 16 : Int) ≤ (t k).toInt → (∀ n : Fin 20, (t n).toInt < 16 * min (fld s F.THM_LIMITS_TRIP : Int) 120) →
    fld s F.THM_STATUS_STATE ≠ 3 → flag s F.THM_STATUS_DRAINING = false →
    Runs (.housekeepingRound (roundOf t iv v vio)) s fun u =>
      fld u F.THM_STATUS_STATE = 2 ∧ flag u F.THM_STATUS_SLOWDOWN = flag s F.THM_CTRL_ENABLE ∧ u.thm.hot = 0) ∧
  (∀ (t : Fin 20 → BitVec 16) (iv : BitVec 9) (v : List (BitVec 16)) (vio : List (BitVec 12)) (s : State), RoundsRun s → GoodSensors t s →
    NoRates s → (∀ n : Fin 20, (t n).toInt < 16 * (fld s F.THM_LIMITS_WARN : Int) ∧ (t n).toInt < 16 * (fld s F.THM_LIMITS_CRIT : Int)
      ∧ (t n).toInt < 16 * min (fld s F.THM_LIMITS_TRIP : Int) 120) → fld s F.THM_STATUS_STATE = 0 → s.thm.hot < 2 →
    Runs (.housekeepingRound (roundOf t iv v vio)) s fun u => fld u F.THM_STATUS_STATE = 0 ∧ flag u F.THM_STATUS_SLOWDOWN = false) ∧
  (∀ (t : Fin 20 → BitVec 16) (k : Fin 20) (iv : BitVec 9) (v : List (BitVec 16)) (vio : List (BitVec 12)) (s : State), RoundsRun s → GoodSensors t s →
    16 * min (fld s F.THM_LIMITS_TRIP : Int) 120 ≤ (t k).toInt → 1 ≤ s.thm.hot → fld s F.THM_STATUS_STATE ≠ 3 → fld s F.DSP_STATUS_BSTOP = 0 →
    Runs (.housekeepingRound (roundOf t iv v vio)) s fun u => fld u F.THM_STATUS_STATE = 3 ∧ fld u F.DSP_STATUS_BSTOP ≠ 0) ∧
  (∀ (x : RoundIn) (s : State), Quiet s → 2 ≤ fld s F.PWR_STATUS_STATE ∨ flag s F.CLK_STATUS_FROZEN = true →
    Completes (.housekeepingRound x) s [] fun u => u = s) ∧
  (∀ (s : State), Quiet s → flag s F.THM_CTRL_ENABLE = true →
    Completes .thmDisable s [] fun u => flag u F.THM_STATUS_DRAINING = true ∧ OnlyRegs [F.THM_STATUS_DRAINING] s u) ∧
  (∀ (t : Fin 20 → BitVec 16) (iv : BitVec 9) (v : List (BitVec 16)) (vio : List (BitVec 12)) (s : State), RoundsRun s → flag s F.THM_STATUS_DRAINING = true →
    Runs (.housekeepingRound (roundOf t iv v vio)) s fun u =>
      flag u F.THM_CTRL_ENABLE = false ∧ flag u F.THM_STATUS_DRAINING = false ∧ flag u F.THM_STATUS_SLOWDOWN = false) ∧
  (∀ (s : State), Quiet s → UnitsIdle s → fld s F.THM_STATUS_STATE = 3 → fld s F.PWR_STATUS_STATE ≠ 4 →
    Completes .tripThermAssert s (ev 0x0101 [(1, 5), (1, 0), (1, 0)] :: regionGone s) fun u =>
      CauseIs 5 0 0 u ∧ InOff (s.rst.fault.filter (· != 0)) u) ∧
  (∀ (s : State), Quiet s → fld s F.THM_STATUS_STATE ≠ 3 → Completes .tripThermAssert s [] fun u => u = s) ∧
  (∀ (l : List (Option (BitVec 16))) (s : State), Quiet s → fld s F.PWR_STATUS_STATE ≠ 2 → fld s F.PWR_STATUS_STATE ≠ 3 →
    Completes (.sleepTripCheck l) s [] fun u => u = s) ∧
  (∀ (t : Fin 20 → BitVec 16) (k : Fin 20) (s : State), Quiet s → fld s F.PWR_STATUS_STATE = 2 ∨ fld s F.PWR_STATUS_STATE = 3 → GoodSensors t s →
    16 * min (fld s F.THM_LIMITS_TRIP : Int) 120 ≤ (t k).toInt → s.thm.hot = 0 →
    Completes (.sleepTripCheck ((List.finRange 20).map fun n => some (t n))) s [] fun u =>
      u.thm = { s.thm with hot := 1 } ∧ (∀ n : Fin 20, fld u (F.THM_Sn_TEMP n) = (t n).toNat)
      ∧ Only [.thm] ((List.range 20).map F.THM_Sn_TEMP) s u) ∧
  (∀ (t : Fin 20 → BitVec 16) (k : Fin 20) (s : State), Quiet s → UnitsIdle s → fld s F.PWR_STATUS_STATE = 2 ∨ fld s F.PWR_STATUS_STATE = 3 →
    GoodSensors t s → 16 * min (fld s F.THM_LIMITS_TRIP : Int) 120 ≤ (t k).toInt → 1 ≤ s.thm.hot →
    Completes (.sleepTripCheck ((List.finRange 20).map fun n => some (t n))) s ([ev 0x0404 [], ev 0x0101 [(1, 5), (1, 0), (1, 0)]] ++ regionGone s) fun u =>
      CauseIs 5 0 0 u ∧ InOff (s.rst.fault.filter (· != 0)) u)

/-- The fields of a unit's command and state. -/
def unitFlds (u : Nat) : List Fld :=
  [F.BST_Uu_CMD_GO u, F.BST_Uu_CMD_ALG u, F.BST_Uu_CMD_MODE u, F.BST_Uu_CMD_BG u, F.BST_Uu_CMD_FIRST u, F.BST_Uu_CMD_LAST u,
   F.BST_Uu_STATUS_STATE u, F.BST_Uu_STATUS_BANK u, F.BST_Uu_STATUS_FAILS u, F.BST_STATUS_RUNNING]

/-- The unit is in a state, with GO and its bit of RUNNING as they follow (R465). -/
def UnitIn (u : Fin 9) (st : Nat) (t : State) : Prop :=
  unitState t u = st ∧ flag t (F.BST_Uu_CMD_GO u) = (st != 0) ∧ bitOf (fld t F.BST_STATUS_RUNNING) u = (st != 0)

/-- The unit tests a bank, not at start-up; nothing stops it after the bank, and the clocks of the block run. -/
abbrev Testing (s : State) (u : Fin 9) (st : Nat) (mode : Bool) (first last : Nat) : Prop :=
  Quiet s ∧ unitState s u = st ∧ u.val ∉ s.bst.startup ∧ smGet s.bst.cmd u 0 = b2n mode + 2 * first + 512 * last ∧ first < 256 ∧ last < 256
  ∧ flag s F.BST_STATUS_DRAINING = false ∧ u.val ∉ s.bst.halted ∧ fld s F.PWR_STATUS_PHASE ≠ 1
  ∧ fld s F.PWR_STATUS_STATE ≤ 1 ∧ flag s F.CLK_STATUS_FROZEN = false

/-- Self-test (R462 to R469, R474, R475): GO is refused with a reason and event 0x1D03, or starts at FIRST with COPY, or with MARCH in a
destructive test; a pass without failures goes on to RESTORE or the zero writes and the next bank, and the last bank ends with event
0x1D01; a failure is recorded, and repaired with a spare and marched again where AUTO_REPAIR says so; the host takes the records
oldest first; a disable waits for the units. -/
def Obligations.SelfTestsRun : Prop :=
  (∀ (u : Fin 9) (alg mode : Bool) (bg : BitVec 2) (first last : BitVec 8) (r : Nat) (s : State), Quiet s →
    r = (if flag s F.BST_CTRL_ENABLE = false ∨ flag s F.BST_STATUS_DRAINING = true then 1
         else if unitState s u ≠ 0 then 2 else if flag s F.BST_STATUS_STARTUP_DONE = false then 3
         else if last.toNat < first.toNat ∨ [64, 64, 64, 24, 24, 24, 256, 256, 256][u] ≤ last.toNat then 4 else 0) → r ≠ 0 →
    Completes (.bstGo u alg mode bg first last) s [ev 0x1D03 []] fun t =>
      fld t (F.BST_Uu_STATUS_REFUSE u) = r ∧ OnlyRegs [F.BST_Uu_STATUS_REFUSE u] s t) ∧
  (∀ (u : Fin 9) (e : Fin 32) (alg : Bool) (bg : BitVec 2) (s : State), Quiet s → 6 ≤ u.val → flag s F.BST_CTRL_ENABLE = true →
    flag s F.BST_STATUS_DRAINING = false → unitState s u = 0 → flag s F.BST_STATUS_STARTUP_DONE = true →
    flag s (F.ENG_n_CTRL_ENABLE (32 * (u.val - 6) + e.val)) = true →
    Completes (.bstGo u alg true bg 0 255) s [ev 0x1D03 []] fun t =>
      fld t (F.BST_Uu_STATUS_REFUSE u) = 5 ∧ OnlyRegs [F.BST_Uu_STATUS_REFUSE u] s t) ∧
  (∀ (u : Fin 9) (alg : Bool) (bg : BitVec 2) (first last : BitVec 8) (s : State), Quiet s → u.val / 3 ≠ 1 → flag s F.BST_CTRL_ENABLE = true →
    flag s F.BST_STATUS_DRAINING = false → unitState s u = 0 → flag s F.BST_STATUS_STARTUP_DONE = true → first.toNat ≤ last.toNat → last.toNat < 64 →
    Completes (.bstGo u alg false bg first last) s [] fun t =>
      UnitIn u 1 t ∧ fld t (F.BST_Uu_STATUS_BANK u) = first.toNat ∧ fld t (F.BST_Uu_CMD_FIRST u) = first.toNat
      ∧ fld t (F.BST_Uu_CMD_LAST u) = last.toNat ∧ flag t (F.BST_Uu_CMD_ALG u) = alg ∧ flag t (F.BST_Uu_CMD_MODE u) = false
      ∧ fld t (F.BST_Uu_CMD_BG u) = bg.toNat ∧ smGet t.bst.fails u 0 = 0 ∧ smGet t.bst.repairs u 0 = 0
      ∧ Only [.bst] (unitFlds u) s t) ∧
  (∀ (u : Fin 9) (alg : Bool) (bg : BitVec 2) (b : BitVec 8) (s : State), Quiet s → u.val / 3 = 1 → flag s F.BST_CTRL_ENABLE = true →
    flag s F.BST_STATUS_DRAINING = false → unitState s u = 0 → flag s F.BST_STATUS_STARTUP_DONE = true → b.toNat < 24 →
    fld s (F.FAB_REGr_STATUS_STATE (24 * (u.val - 3) + b.toNat)) = 0 →
    Completes (.bstGo u alg true bg b b) s [] fun t =>
      UnitIn u 2 t ∧ fld t (F.BST_Uu_STATUS_BANK u) = b.toNat ∧ flag t (F.BST_Uu_CMD_MODE u) = true ∧ Only [.bst] (unitFlds u) s t) ∧
  (∀ (u : Fin 9) (mode : Bool) (a b : Nat) (s : State), Testing s u 1 mode a b →
    Completes (.copyDone u) s [] fun t =>
      UnitIn u 2 t ∧ OnlyRegs [F.BST_Uu_CMD_GO u, F.BST_Uu_STATUS_STATE u, F.BST_STATUS_RUNNING] s t) ∧
  (∀ (u : Fin 9) (a b : Nat) (s : State), Testing s u 2 false a b →
    Completes (.marchPassEnd u []) s [] fun t =>
      UnitIn u 4 t ∧ OnlyRegs [F.BST_Uu_CMD_GO u, F.BST_Uu_STATUS_STATE u, F.BST_STATUS_RUNNING] s t) ∧
  (∀ (u : Fin 9) (a b : Nat) (s : State), Testing s u 2 true a b → u.val < 3 → b < 64 → fld s (F.BST_Uu_STATUS_BANK u) = b →
    Completes (.marchPassEnd u []) s [ev 0x1D01 [(1, u), (2, smGet s.bst.fails u 0), (2, smGet s.bst.repairs u 0)]] fun t =>
      UnitIn u 0 t ∧ (∀ o : Fin 64, cell t ((64 * u + b) * 2 ^ 14) o = 0 ∧ cell t ((64 * u + b) * 2 ^ 14 + 16383) o = 0)
      ∧ poisoned t ((64 * u + b) * 2 ^ 14) = false
      ∧ Only [.mem, .bst] [F.BST_Uu_CMD_GO u, F.BST_Uu_STATUS_STATE u, F.BST_STATUS_RUNNING] s t) ∧
  (∀ (u : Fin 9) (k : BitVec 8) (row : BitVec 14) (bit : BitVec 15) (a b : Nat) (s : State), Testing s u 2 false a b →
    fld s (F.BST_Uu_STATUS_BANK u) = k.toNat → flag s F.BST_CTRL_AUTO_REPAIR = false → s.bst.queue.length < 256 →
    Completes (.marchPassEnd u [(k, row, bit)]) s [] fun t =>
      UnitIn u 4 t ∧ t.bst.queue = s.bst.queue ++ [u.val / 3 + (u.val % 3 + 1) * 8 + k.toNat * 2 ^ 10 + row.toNat * 2 ^ 18 + bit.toNat * 2 ^ 32 + 3 * 2 ^ 47]
      ∧ fld t F.BST_RESULT_COUNT_COUNT = (s.bst.queue.length + 1) % 2 ^ F.BST_RESULT_COUNT_COUNT.width
      ∧ Counts (F.BST_Uu_STATUS_FAILS u) 1 s t ∧ smGet t.bst.fails u 0 = smGet s.bst.fails u 0 + 1 ∧ t.bst.soft = s.bst.soft
      ∧ Only [.bst] [F.BST_Uu_CMD_GO u, F.BST_Uu_STATUS_STATE u, F.BST_STATUS_RUNNING, F.BST_Uu_STATUS_FAILS u, F.BST_RESULT_COUNT_COUNT] s t) ∧
  (∀ (u : Fin 9) (k : BitVec 8) (row : BitVec 14) (bit : BitVec 15) (a b : Nat) (s : State), Testing s u 2 false a b →
    fld s (F.BST_Uu_STATUS_BANK u) = k.toNat → flag s F.BST_CTRL_AUTO_REPAIR = true → s.bst.queue.length < 256 → s.bst.soft = [] → s.bst.fused = [] →
    Completes (.marchPassEnd u [(k, row, bit)]) s [] fun t =>
      UnitIn u 3 t ∧ t.bst.soft = [u.val / 3 + (u.val % 3 + 1) * 8 + k.toNat * 2 ^ 10 + row.toNat * 2 ^ 18 + bit.toNat * 2 ^ 32 + 1 * 2 ^ 47]
      ∧ t.bst.queue = s.bst.queue ++ t.bst.soft ∧ smGet t.bst.repairs u 0 = smGet s.bst.repairs u 0 + 1) ∧
  (∀ (u : Fin 9) (a b : Nat) (s : State), Testing s u 3 false a b →
    Completes (.remarchEnd u []) s [] fun t =>
      UnitIn u 4 t ∧ OnlyRegs [F.BST_Uu_CMD_GO u, F.BST_Uu_STATUS_STATE u, F.BST_STATUS_RUNNING] s t) ∧
  (∀ (u : Fin 9) (a b : Nat) (s : State), Testing s u 4 false a b → u.val / 3 ≠ 1 → fld s (F.BST_Uu_STATUS_BANK u) < b → dieInReset s (unitPos u) = false →
    Completes (.restoreDone u) s [] fun t =>
      UnitIn u 1 t ∧ fld t (F.BST_Uu_STATUS_BANK u) = fld s (F.BST_Uu_STATUS_BANK u) + 1
      ∧ OnlyRegs [F.BST_Uu_CMD_GO u, F.BST_Uu_STATUS_STATE u, F.BST_STATUS_RUNNING, F.BST_Uu_STATUS_BANK u] s t) ∧
  (∀ (u : Fin 9) (a b : Nat) (s : State), Testing s u 4 false a b → fld s (F.BST_Uu_STATUS_BANK u) = b → dieInReset s (unitPos u) = false →
    Completes (.restoreDone u) s [ev 0x1D01 [(1, u), (2, smGet s.bst.fails u 0), (2, smGet s.bst.repairs u 0)]] fun t =>
      UnitIn u 0 t ∧ Only [.bst] [F.BST_Uu_CMD_GO u, F.BST_Uu_STATUS_STATE u, F.BST_STATUS_RUNNING] s t) ∧
  (∀ (u : Fin 9) (l : List (BitVec 8 × BitVec 14 × BitVec 15)) (s : State), Quiet s → unitState s u = 0 →
    (Completes (.copyDone u) s [] fun t => t = s) ∧ (Completes (.marchPassEnd u l) s [] fun t => t = s)
    ∧ (Completes (.remarchEnd u l) s [] fun t => t = s) ∧ Completes (.restoreDone u) s [] fun t => t = s) ∧
  (∀ (s : State), Quiet s → s.bst.queue.length ≤ 256 →
    Completes .bstResultRead s [] fun t =>
      t.bst = { s.bst with queue := s.bst.queue.tail } ∧ fld t F.BST_RESULT_COUNT_COUNT = (s.bst.queue.length - 1) % 2 ^ F.BST_RESULT_COUNT_COUNT.width
      ∧ Only [.bst] [F.BST_RESULT_COUNT_COUNT] s t) ∧
  (∀ (s : State), Quiet s → flag s F.BST_CTRL_ENABLE = true →
    (UnitsIdle s → Completes .bstDisable s [] fun t => flag t F.BST_CTRL_ENABLE = false ∧ OnlyRegs [F.BST_CTRL_ENABLE] s t)
    ∧ ((∃ u : Fin 9, unitState s u ≠ 0) →
        Completes .bstDisable s [] fun t => flag t F.BST_STATUS_DRAINING = true ∧ OnlyRegs [F.BST_STATUS_DRAINING] s t))

/-! ### The debug port (chapter 25) -/

/-- The value that Capture-IR gives (R478): 1, with the lock state in bit 2 and the access in progress in bit 3. -/
def irBits (s : State) : Nat := 1 + 4 * b2n (fld s F.DBG_STATUS_LOCKSTATE == 1) + 8 * b2n s.dbg.acc.busy

/-- The buffer stop holds, so that scan instructions may act (R479). -/
abbrev MayScan (s : State) : Prop := fld s F.DSP_STATUS_BSTOP = 2

/-- The controls of the block act (R480, R493). -/
abbrev Open (s : State) : Prop :=
  Quiet s ∧ flag s F.DBG_CTRL_ENABLE = true ∧ flag s F.DBG_STATUS_DRAINING = false ∧ fld s F.DBG_STATUS_LOCKSTATE ≠ 1

/-- The TAP (R477 to R484): its reset loads IDCODE and takes every data register to its reset state; IDCODE captures 0x2396_0E65; a
boundary scan captures free values and shifts its cells in; EXTEST drives them, HIGHZ releases the pins and CLAMP holds them while the
buffer stop holds, and raise event 0x1E04 and do nothing to the pins otherwise; DBG_ACCESS starts an access, is DENIED while LOCKED,
and completes with its status and data; a fresh nonce serves one RESPOND, and a RESPOND without one is DENIED with event 0x1E05. -/
def Obligations.TapScansAndAccesses : Prop :=
  (∀ (s : State), Quiet s →
    Completes .testLogicReset s [] fun u =>
      u.dbg = { s.dbg with ir := 1, irOut := 0, tdo := 0, scan := 0, sel := 0, detail := 0, bsr := 0, acc := if s.dbg.acc.busy then s.dbg.acc else {} }
      ∧ (∀ b : Fin 10, ∀ n : Fin 24, scanPin u b n = none) ∧ OnlyParts [.dbg] s u) ∧
  (∀ (s : State), Quiet s →
    Completes .idcode s [] fun u => u.dbg = { s.dbg with ir := 1, irOut := irBits s, scan := 0, tdo := 0x23960E65 } ∧ OnlyParts [.dbg] s u) ∧
  (∀ (d : BitVec 898) (s : State), Quiet s →
    Completes (.samplePreload d) s [] fun u =>
      u.dbg = { s.dbg with ir := 2, irOut := irBits s, scan := 0, tdo := Config.freeNat s.free % 2 ^ 898, bsr := d.toNat }
      ∧ u.free = s.free + 1 ∧ OnlyParts [.dbg, .free] s u) ∧
  (∀ (d : BitVec 898) (s : State), Quiet s → MayScan s →
    (Completes (.extest d) s [] fun u =>
      u.dbg = { s.dbg with ir := 0, irOut := irBits s, scan := 1, tdo := Config.freeNat s.free % 2 ^ 898, bsr := d.toNat } ∧ OnlyParts [.dbg, .free] s u)
    ∧ (Completes (.jtagClamp d) s [] fun u =>
      u.dbg = { s.dbg with ir := 3, irOut := irBits s, scan := 2, tdo := 0 } ∧ OnlyParts [.dbg] s u)
    ∧ Completes (.highz d) s [] fun u =>
      u.dbg = { s.dbg with ir := 4, irOut := irBits s, scan := 3, tdo := 0 } ∧ (∀ b : Fin 10, ∀ n : Fin 24, scanPin u b n = some (false, false))
      ∧ OnlyParts [.dbg] s u) ∧
  (∀ (d : BitVec 898) (s : State), Quiet s → ¬ MayScan s →
    (Completes (.extest d) s [ev 0x1E04 []] fun u =>
      u.dbg = { s.dbg with ir := 0, irOut := irBits s, scan := 0, tdo := Config.freeNat s.free % 2 ^ 898, bsr := d.toNat } ∧ OnlyParts [.dbg, .free] s u)
    ∧ (Completes (.jtagClamp d) s [ev 0x1E04 []] fun u =>
      u.dbg = { s.dbg with ir := 3, irOut := irBits s, scan := 0, tdo := Config.freeNat s.free % 2 ^ 898, bsr := d.toNat } ∧ OnlyParts [.dbg, .free] s u)
    ∧ Completes (.highz d) s [ev 0x1E04 []] fun u =>
      u.dbg = { s.dbg with ir := 4, irOut := irBits s, scan := 0, tdo := Config.freeNat s.free % 2 ^ 898, bsr := d.toNat } ∧ OnlyParts [.dbg, .free] s u) ∧
  (∀ (c : BitVec 8) (s : State), Quiet s → c.toNat ∉ [0x00, 0x01, 0x02, 0x03, 0x04, 0x10, 0x11, 0x12] →
    Completes (.bypass c) s [] fun u => u.dbg = { s.dbg with ir := c.toNat, irOut := irBits s, scan := 0, tdo := 0 } ∧ OnlyParts [.dbg] s u) ∧
  (∀ (v : BitVec 16) (s : State), Quiet s →
    Completes (.dbgSelect v) s [] fun u =>
      u.dbg = { s.dbg with ir := 0x10, irOut := irBits s, scan := 0, tdo := s.dbg.sel, sel := v.toNat % 2 ^ 11 } ∧ OnlyParts [.dbg] s u) ∧
  (∀ (d : BitVec 64) (a : BitVec 48) (be : BitVec 8) (w : Bool) (s : State), Open s → s.dbg.acc.busy = false →
    Completes (.dbgAccess d a be w true) s [] fun u =>
      u.dbg.acc = ⟨a.toNat, be.toNat, w, d.toNat, 0, false, true⟩
      ∧ u.dbg.tdo = s.dbg.acc.data + s.dbg.acc.addr * 2 ^ 64 + s.dbg.acc.st * 2 ^ 112 + b2n s.dbg.acc.done * 2 ^ 116 ∧ OnlyParts [.dbg] s u) ∧
  (∀ (d : BitVec 64) (a : BitVec 48) (be : BitVec 8) (w : Bool) (s : State), Quiet s → flag s F.DBG_CTRL_ENABLE = true →
    flag s F.DBG_STATUS_DRAINING = false → fld s F.DBG_STATUS_LOCKSTATE = 1 → s.dbg.acc.busy = false →
    Completes (.dbgAccess d a be w true) s [] fun u => u.dbg.acc = ⟨a.toNat, be.toNat, w, d.toNat, ST.denied, true, false⟩ ∧ OnlyParts [.dbg] s u) ∧
  (∀ (d : BitVec 64) (a : BitVec 48) (be : BitVec 8) (w go : Bool) (s : State), Quiet s → go = false ∨ s.dbg.acc.busy = true ∨ flag s F.DBG_CTRL_ENABLE = false →
    Completes (.dbgAccess d a be w go) s [] fun u => u.dbg.acc = s.dbg.acc ∧ u.dbg.sel = s.dbg.sel ∧ OnlyParts [.dbg] s u) ∧
  (∀ (x : AccIn) (s : State), Quiet s → s.dbg.acc.busy = true → s.dbg.sel % 4 = 0 → s.dbg.acc.addr % 8 ≠ 0 →
    Completes (.dbgAccessDone x) s [] fun u =>
      u.dbg.acc.st = ST.decode ∧ u.dbg.acc.done = true ∧ u.dbg.acc.busy = false ∧ OnlyParts [.dbg] s u) ∧
  (∀ (x : AccIn) (n : Fin 96) (t : Fin 4) (i : Fin 16) (s : State), Quiet s → s.dbg.acc.busy = true → s.dbg.acc.write = false →
    s.dbg.sel = 1 + 4 * n + 512 * t → s.dbg.acc.addr % 2 ^ 12 = i → halted s n t = true → engineShut s n = false → sysClocks s = true →
    Completes (.dbgAccessDone x) s [] fun u =>
      u.dbg.acc = { s.dbg.acc with st := ST.ok, data := (gReg s n t i).toNat, done := true, busy := false } ∧ OnlyParts [.dbg] s u) ∧
  (∀ (x : AccIn) (n : Fin 96) (t : Fin 4) (i : Fin 16) (s : State), Quiet s → s.dbg.acc.busy = true → s.dbg.acc.write = true →
    s.dbg.sel = 1 + 4 * n + 512 * t → s.dbg.acc.addr % 2 ^ 12 = i → halted s n t = true → engineShut s n = false → sysClocks s = true →
    Completes (.dbgAccessDone x) s [] fun u =>
      u.dbg.acc = { s.dbg.acc with st := ST.ok, done := true, busy := false } ∧ gReg u n t i = BitVec.ofNat 32 s.dbg.acc.data
      ∧ (∀ j, j ≠ i.val → gReg u n t j = gReg s n t j) ∧ (∀ m : Fin 96, m ≠ n → engine u m = engine s m) ∧ OnlyParts [.dbg, .engines] s u) ∧
  (∀ (x : AccIn) (n : Fin 96) (t : Fin 4) (i : Fin 16) (s : State), Quiet s → s.dbg.acc.busy = true →
    s.dbg.sel = 1 + 4 * n + 512 * t → s.dbg.acc.addr % 2 ^ 12 = i → halted s n t = false → engineShut s n = false → sysClocks s = true →
    Completes (.dbgAccessDone x) s [] fun u => u.dbg.acc.st = ST.denied ∧ u.dbg.acc.done = true ∧ u.dbg.acc.busy = false ∧ OnlyParts [.dbg] s u) ∧
  (∀ (x : AccIn) (s : State), Quiet s → s.dbg.acc.busy = false →
    (Completes (.dbgAccessDone x) s [] fun u => u = s) ∧ Completes .dbgAccessTimeout s [] fun u => u = s) ∧
  (∀ (s : State), Quiet s → s.dbg.acc.busy = true →
    Completes .dbgAccessTimeout s [] fun u => u.dbg.acc.st = ST.timeout ∧ u.dbg.acc.done = true ∧ u.dbg.acc.busy = false ∧ OnlyParts [.dbg, .cache] s u) ∧
  (∀ (s : State), Quiet s →
    Completes .dbgUnlockNonce s [] fun u =>
      u.sbx = { s.sbx with nonce := some (Config.freeNat s.free % 2 ^ 256) } ∧ u.free = s.free + 1 ∧ u.dbg.ir = 0x12
      ∧ u.dbg.tdo = s.sbx.nonce.getD 0 % 2 ^ 256 + fld s F.DBG_STATUS_LOCKSTATE * 2 ^ 256 + s.dbg.detail % 256 * 2 ^ 258 + b2n s.dbg.respond.isSome * 2 ^ 266
      ∧ OnlyParts [.dbg, .sbx, .free] s u) ∧
  (∀ (k : Bool) (g : BitVec 512) (p : BitVec 256) (s : State), Quiet s → s.dbg.respond = none →
    Completes (.dbgUnlockRespond k g p) s [] fun u =>
      u.dbg.respond = some ⟨k, g.toNat, p.toNat, s.sbx.nonce⟩ ∧ u.sbx = { s.sbx with nonce := if lockState s = 0 then s.sbx.nonce else none } ∧ OnlyParts [.dbg, .sbx] s u) ∧
  (∀ (x : Respond) (s : State), Quiet s → s.dbg.respond = some x → fld s F.DBG_STATUS_LOCKSTATE = 0 →
    Completes .unlockVerifyDone s [] fun u => u.dbg = { s.dbg with respond := none, detail := 0 } ∧ OnlyParts [.dbg] s u) ∧
  (∀ (x : Respond) (s : State), Quiet s → s.dbg.respond = some x → fld s F.DBG_STATUS_LOCKSTATE ≠ 0 → x.nonce = none →
    Completes .unlockVerifyDone s [ev 0x1E05 []] fun u => u.dbg = { s.dbg with respond := none, detail := 1 } ∧ OnlyParts [.dbg] s u) ∧
  (∀ (x : Respond) (n : Nat) (s : State), Quiet s → s.dbg.respond = some x → fld s F.DBG_STATUS_LOCKSTATE = 1 → x.nonce = some n → x.sel = false →
    Completes .unlockVerifyDone s [if ed25519 Config.debugKey (bytesOf 32 n ++ bytesOf 8 serial) (bytesOf 64 x.sig) then ev 0x1C09 [] else ev 0x1E05 []] fun u =>
      (if ed25519 Config.debugKey (bytesOf 32 n ++ bytesOf 8 serial) (bytesOf 64 x.sig) then
         fld u F.DBG_STATUS_LOCKSTATE = 2 ∧ u.dbg = { s.dbg with respond := none, detail := 0 }
       else fld u F.DBG_STATUS_LOCKSTATE = 1 ∧ u.dbg = { s.dbg with respond := none, detail := 2 })
      ∧ Only [.dbg] [F.DBG_STATUS_LOCKSTATE] s u)

/-- A thread that has not halted runs or waits. -/
abbrev Live (s : State) (n t : Nat) : Prop := halted s n t = false ∧ (thrState s n t = tRUN ∨ thrState s n t = tWAIT)

/-- Only region r of the regions differs. -/
def OnlyRegion (r : Nat) (s u : State) : Prop := ∀ q, q ≠ r → region u q = region s q

/-- The frame that the debugger placed, with its address and content (R492). -/
def placed (s : State) : Nat := dbgFrame s

/-- What the debugger does to threads, regions and frames (R480, R485, R487 to R493): a halt takes a thread between instructions or in
WAIT at once with event 0x1E01, and a stalled one at its boundary; STEP lets one instruction issue, RESUME all, behind a BRK that
halted it; FREEZE takes a sleeping region at once and a running one at the freeze edge with event 0x1E02, and ends through rail 8, as
does a pulse; CAPTURE reads a frozen region; a frame is DENIED, fails its check with DECODE, or is written with event 0x1E03; a
disable ends every halt and freeze; a control written while the block is locked or disabled does nothing. -/
def Obligations.DebuggerControlsTargets : Prop :=
  (∀ (n : Fin 96) (t : Fin 4) (s : State), Open s → Live s n t → (thread s n t).blk = .free ∨ thrState s n t = tWAIT →
    Completes (.threadHalt n t) s [ev 0x1E01 [(1, 0)]] fun u =>
      halted u n t = true ∧ haltCause u n t = 0 ∧ haltPending u n t = false
      ∧ thread u n t = { thread s n t with step := false, watch := false } ∧ OnlyThread n t { s with regs := u.regs } u
      ∧ Only [.engines] [F.DBG_ENGn_STATUS_HALTED n, F.DBG_ENGn_STATUS_CAUSE n, F.DBG_ENGn_STATUS_PENDING n] s u) ∧
  (∀ (n : Fin 96) (t : Fin 4) (s : State), Open s → halted s n t = false → thrState s n t = tRUN → (thread s n t).blk ≠ .free →
    Completes (.threadHalt n t) s [] fun u => haltPending u n t = true ∧ OnlyRegs [F.DBG_ENGn_STATUS_PENDING n] s u) ∧
  (∀ (n : Fin 96) (t : Fin 4) (s : State), Open s → halted s n t = true →
    Completes (.threadStep n t) s [] fun u =>
      halted u n t = false ∧ thread u n t = { thread s n t with go := true, step := true } ∧ OnlyThread n t { s with regs := u.regs } u
      ∧ Only [.engines] [F.DBG_ENGn_STATUS_HALTED n] s u) ∧
  (∀ (n : Fin 96) (t : Fin 4) (s : State), Open s → halted s n t = true → haltCause s n t ≠ 4 →
    Completes (.threadResume n t) s [] fun u =>
      halted u n t = false ∧ thread u n t = { thread s n t with go := true } ∧ OnlyThread n t { s with regs := u.regs } u
      ∧ Only [.engines] [F.DBG_ENGn_STATUS_HALTED n] s u) ∧
  (∀ (n : Fin 96) (t : Fin 4) (s : State), Open s → halted s n t = true → haltCause s n t = 4 → thrState s n t = tRUN →
    fetched s n t / 2 ^ 26 = 0x30 → fetched s n t / 2 ^ 14 % 16 = 4 →
    Completes (.threadResume n t) s [] fun u => halted u n t = false ∧ thread u n t = { thread s n t with go := true, pc := (thread s n t).pc + 4 }) ∧
  (∀ (n : Fin 96) (t : Fin 4) (s : State), Open s → halted s n t = false →
    (Completes (.threadStep n t) s [] fun u => u = s) ∧ Completes (.threadResume n t) s [] fun u => u = s) ∧
  (∀ (n : Fin 96) (t : Fin 4) (r : Fin 72) (k : BitVec 16) (s : State), Quiet s →
    flag s F.DBG_CTRL_ENABLE = false ∨ flag s F.DBG_STATUS_DRAINING = true ∨ fld s F.DBG_STATUS_LOCKSTATE = 1 →
    (Completes (.threadHalt n t) s [] fun u => u = s) ∧ (Completes (.threadStep n t) s [] fun u => u = s)
    ∧ (Completes (.threadResume n t) s [] fun u => u = s) ∧ (Completes (.regionFreeze r) s [] fun u => u = s)
    ∧ (Completes (.regionUnfreeze r) s [] fun u => u = s) ∧ (Completes (.regionPulse r k) s [] fun u => u = s)
    ∧ (Completes (.regionCapture r) s [] fun u => u = s) ∧ Completes .dbgFrameGo s [] fun u => u = s) ∧
  (∀ (r : Fin 72) (s : State), Open s → fld s (F.FAB_REGr_STATUS_STATE r) = 3 → regFrozen s r = false → regAsleep s r = false →
    Completes (.regionFreeze r) s [] fun u =>
      flag u (F.DBG_REGr_CTRL_FREEZE r) = true ∧ region u r = { region s r with gateReq := false } ∧ OnlyRegion r s u
      ∧ Only [.regions] [F.DBG_REGr_CTRL_FREEZE r] s u) ∧
  (∀ (r : Fin 72) (s : State), Open s → fld s (F.FAB_REGr_STATUS_STATE r) = 3 → regFrozen s r = false → regAsleep s r = true →
    Completes (.regionFreeze r) s [ev 0x1E02 []] fun u =>
      flag u (F.DBG_REGr_CTRL_FREEZE r) = true ∧ regFrozen u r = true ∧ regAsleep u r = false ∧ flag u (F.FAB_REGr_CTRL_WAKE r) = false
      ∧ region u r = { region s r with owed := 0 } ∧ OnlyRegion r s u ∧ R8Req.regionStart r ∉ u.dsp.r8queue
      ∧ Only [.regions, .dsp] [F.DBG_REGr_CTRL_FREEZE r, F.DBG_REGr_STATUS_FROZEN r, F.FAB_REGr_STATUS_SLEEPING r, F.FAB_REGr_CTRL_WAKE r,
          F.DSP_RAIL8_STATUS_WAITING] s u) ∧
  (∀ (r : Fin 72) (s : State), Open s → fld s (F.FAB_REGr_STATUS_STATE r) ≠ 3 → Completes (.regionFreeze r) s [] fun u => u = s) ∧
  (∀ (r : Fin 72) (s : State), Quiet s → flag s (F.DBG_REGr_CTRL_FREEZE r) = true → regFrozen s r = false → regTicks s r = true → regClkEn s r 0 = true →
    Completes (.freezeEdge r) s [ev 0x1E02 []] fun u =>
      regFrozen u r = true ∧ OthersKeep r s u ∧ (∀ j, j / 800 ≠ ctxOf s r → smGet (region u r).priv j 0 = smGet (region s r).priv j 0)
      ∧ Only [.regions, .fab, .free] [F.DBG_REGr_STATUS_FROZEN r] s u) ∧
  (∀ (r : Fin 72) (s : State), Quiet s → flag s (F.DBG_REGr_CTRL_FREEZE r) = false ∨ regFrozen s r = true →
    Completes (.freezeEdge r) s [] fun u => u = s) ∧
  (∀ (r : Fin 72) (s : State), Quiet s → flag s (F.DBG_REGr_CTRL_FREEZE r) = true → regFrozen s r = false → regAsleep s r = true →
    regRuns s r = true →
    Completes (.freezeEdge r) s [ev 0x1E02 []] fun u =>
      regFrozen u r = true ∧ regAsleep u r = false ∧ flag u (F.FAB_REGr_CTRL_WAKE r) = false
      ∧ region u r = { region s r with owed := 0 } ∧ OnlyRegion r s u ∧ R8Req.regionStart r ∉ u.dsp.r8queue
      ∧ Only [.regions, .dsp] [F.DBG_REGr_STATUS_FROZEN r, F.FAB_REGr_STATUS_SLEEPING r, F.FAB_REGr_CTRL_WAKE r,
          F.DSP_RAIL8_STATUS_WAITING] s u) ∧
  (∀ (r : Fin 72) (s : State), Open s → regFrozen s r = true → R8Req.regionStart r ∉ s.dsp.r8queue →
    Completes (.regionUnfreeze r) s [] fun u =>
      flag u (F.DBG_REGr_CTRL_FREEZE r) = false ∧ u.dsp = { s.dsp with r8queue := s.dsp.r8queue ++ [.regionStart r] }
      ∧ Only [.dsp] [F.DBG_REGr_CTRL_FREEZE r, F.DSP_RAIL8_STATUS_WAITING] s u) ∧
  (∀ (r : Fin 72) (k : BitVec 16) (s : State), Open s → regFrozen s r = true → k ≠ 0 → flag s (F.DBG_REGr_STATUS_PULSING r) = false →
    (∀ x ∈ s.dsp.r8queue, x = .engineWake 0) →
    Completes (.regionPulse r k) s [] fun u =>
      u.dsp = { s.dsp with r8queue := s.dsp.r8queue ++ [.regionPulse r k.toNat] } ∧ Only [.dsp] [F.DSP_RAIL8_STATUS_WAITING] s u) ∧
  (∀ (r : Fin 72) (k : BitVec 16) (s : State), Open s → regFrozen s r = false ∨ k = 0 ∨ flag s (F.DBG_REGr_STATUS_PULSING r) = true →
    Completes (.regionPulse r k) s [] fun u => u = s) ∧
  (∀ (r : Fin 72) (s : State), Quiet s → flag s (F.DBG_REGr_STATUS_PULSING r) = true → regTicks s r = true → regClkEn s r 0 = true →
    Completes (.pulseEnd r) s [] fun u =>
      flag u (F.DBG_REGr_STATUS_PULSING r) = false ∧ Counts (F.DBG_REGr_STATUS_EDGES r) (smGet s.dbg.pulses r 0) s u ∧ smGet u.dbg.pulses r 0 = 0
      ∧ OthersKeep r s u ∧ (∀ j, j / 800 ≠ ctxOf s r → smGet (region u r).priv j 0 = smGet (region s r).priv j 0)
      ∧ Only [.regions, .fab, .free, .dbg] [F.DBG_REGr_STATUS_PULSING r, F.DBG_REGr_STATUS_EDGES r] s u) ∧
  (∀ (r : Fin 72) (s : State), Open s → regFrozen s r = true → flag s (F.DBG_REGr_STATUS_PULSING r) = false →
    Completes (.regionCapture r) s [] fun u =>
      fld u F.DBG_CAP_DATA_FLOPS = captureBits s r (fld s (F.DBG_REGr_CAP_TILE r)) % 2 ^ F.DBG_CAP_DATA_FLOPS.width
      ∧ fld u (F.DBG_REGr_STATUS_CAPSTAT r) = ST.ok ∧ OnlyRegs [F.DBG_CAP_DATA_FLOPS, F.DBG_REGr_STATUS_CAPSTAT r] s u) ∧
  (∀ (r : Fin 72) (s : State), Open s → regFrozen s r = false →
    Completes (.regionCapture r) s [] fun u => fld u (F.DBG_REGr_STATUS_CAPSTAT r) = ST.denied ∧ OnlyRegs [F.DBG_REGr_STATUS_CAPSTAT r] s u) ∧
  (∀ (s : State), Open s → frameMay s (placed s % 2 ^ 32) = false →
    Completes .dbgFrameGo s [] fun u =>
      fld u F.DBG_FRAME_CTRL_STATUS = ST.denied ∧ fld u F.DBG_FRAME_CTRL_FSTAT = 0 ∧ flag u F.DBG_FRAME_CTRL_DONE = true ∧ flag u F.DBG_FRAME_CTRL_GO = false
      ∧ OnlyRegs [F.DBG_FRAME_CTRL_STATUS, F.DBG_FRAME_CTRL_FSTAT, F.DBG_FRAME_CTRL_DONE, F.DBG_FRAME_CTRL_GO] s u) ∧
  (∀ (s : State), Open s → frameMay s (placed s % 2 ^ 32) = true → (∀ p : Fin 9, bitOf (fld s F.RST_DIE_IN_RESET) p = false) →
    bits (placed s) 16416 32 ≠ crc32c 2052 (placed s % 2 ^ 16416) →
    Completes .dbgFrameGo s [] fun u =>
      fld u F.DBG_FRAME_CTRL_STATUS = ST.decode ∧ fld u F.DBG_FRAME_CTRL_FSTAT = 1 ∧ flag u F.DBG_FRAME_CTRL_DONE = true
      ∧ OnlyRegs [F.DBG_FRAME_CTRL_STATUS, F.DBG_FRAME_CTRL_FSTAT, F.DBG_FRAME_CTRL_DONE, F.DBG_FRAME_CTRL_GO] s u) ∧
  (∀ (s : State), Open s → frameMay s (placed s % 2 ^ 32) = true → (∀ p : Fin 9, bitOf (fld s F.RST_DIE_IN_RESET) p = false) →
    frameCheck s (placed s) = 0 →
    Completes .dbgFrameGo s [ev 0x1E03 []] fun u =>
      fld u F.DBG_FRAME_CTRL_STATUS = ST.ok ∧ fld u F.DBG_FRAME_CTRL_FSTAT = 0 ∧ flag u F.DBG_FRAME_CTRL_DONE = true
      ∧ frameAt u (fKind (placed s % 2 ^ 32)) (fRegion (placed s % 2 ^ 32)) (fCtx (placed s % 2 ^ 32)) (fTile (placed s % 2 ^ 32)) = bits (placed s) 32 16384
      ∧ bitOf (fld u F.DBG_PATCHED_REGIONS) (fRegion (placed s % 2 ^ 32)) = true) ∧
  (∀ (s : State), Quiet s → flag s F.DBG_CTRL_ENABLE = true → (∀ r : Fin 72, regFrozen s r = false ∧ flag s (F.DBG_REGr_STATUS_PULSING r) = false) →
    s.dbg.acc.busy = false →
    Completes .dbgDisable s [] fun u =>
      flag u F.DBG_CTRL_ENABLE = false ∧ flag u F.DBG_STATUS_DRAINING = false
      ∧ (∀ n : Fin 96, ∀ t : Fin 4, halted u n t = false ∧ haltPending u n t = false) ∧ (∀ r : Fin 72, flag u (F.DBG_REGr_CTRL_FREEZE r) = false)
      ∧ OnlyParts [.regs, .engines] s u) ∧
  (∀ (r : Fin 72) (s : State), Quiet s → flag s F.DBG_CTRL_ENABLE = true → regFrozen s r = true →
    Completes .dbgDisable s [] fun u =>
      flag u F.DBG_STATUS_DRAINING = true ∧ R8Req.regionStart r ∈ u.dsp.r8queue ∧ flag u (F.DBG_REGr_CTRL_FREEZE r) = false)

/-! ### Registers and their accesses (chapters 00, 18 and 28) -/

/-- No reset holds a block and every block has its clock, so that registers are reached at once. -/
abbrev Up (s : State) : Prop :=
  Quiet s ∧ s.rst.srcs = [] ∧ s.rst.step = 0 ∧ s.rst.blkWait = [] ∧ s.rst.blkOn = [] ∧ fld s F.PWR_STATUS_STATE ≤ 1 ∧ flag s F.CLK_STATUS_FROZEN = false

/-- The master may write registers, and they are reached at once. -/
abbrev Writes (s : State) (m : Master) : Prop := Up s ∧ mayReach s m = true

/-- The host may read registers, and they are reached at once. -/
abbrev Reads (s : State) : Prop := Up s ∧ linkUp s = true ∧ (pciFn s 0).d3 = false

/-- The offset lies in the load window or in the mailbox, whose bytes are taken one by one. -/
abbrev ByBytes (off : Nat) : Prop := (0x58000 ≤ off ∧ off < 0x60000) ∨ (0x1C1000 ≤ off ∧ off < 0x1C2000)

/-- Register accesses (R8, R11, R373, R435, R442, R483, R529, R531, R533), each shown on a register of its kind: RW and RWL fields take
the value written, RWL fields not under a LOCK; a W1C bit is cleared by a 1, a W1S bit set; RO fields and unlisted offsets take
nothing and unlisted offsets and WO fields read 0; a range clamps; a BAR0 write of less than a whole aligned register is counted and
discarded, while another master's byte enables hold the other bytes; an access to a part in reset is lost, one without clocks waits;
a read of an RC field clears it; a lower word read latches its upper word; any BAR0 read but 4 or 8 aligned bytes is refused. -/
def Obligations.RegistersReadAndWrite : Prop :=
  (∀ (m : Master) (w : Word) (s : State), Writes s m →
    Completes (.registerWrite m 0x030010 15 w) s [] fun u =>
      fld u F.PWR_WAKE_TIMER_PERIODS = w.toNat ∧ OnlyRegs [F.PWR_WAKE_TIMER_PERIODS] s u) ∧
  (∀ (m : Master) (w : Word) (s : State), Writes s m → flag s F.THM_CTRL_LOCK = false →
    Completes (.registerWrite m 0x04000C 15 w) s [] fun u =>
      fld u F.THM_RATE_RWARN = w.toNat % 2 ^ 8 ∧ fld u F.THM_RATE_RCRIT = w.toNat / 2 ^ 8 % 2 ^ 8 ∧ OnlyRegs [F.THM_RATE_RWARN, F.THM_RATE_RCRIT] s u) ∧
  (∀ (m : Master) (w : Word) (s : State), Writes s m → flag s F.THM_CTRL_LOCK = true →
    Completes (.registerWrite m 0x04000C 15 w) s [] fun u => u = s) ∧
  (∀ (m : Master) (w : Word) (s : State), Writes s m →
    Completes (.registerWrite m 0x03000C 15 w) s [] fun u =>
      (∀ i : Fin 6, bitOf (fld u F.PWR_WAKE_CAUSE_CAUSE) i = (bitOf (fld s F.PWR_WAKE_CAUSE_CAUSE) i && !w.toNat.testBit i))
      ∧ OnlyRegs [F.PWR_WAKE_CAUSE_CAUSE] s u) ∧
  (∀ (m : Master) (w : Word) (s : State), Writes s m → Completes (.registerWrite m 0x030020 15 w) s [] fun u => u = s) ∧
  (∀ (m : Master) (s : State), Writes s m → flag s F.THM_CTRL_ENABLE = true → flag s F.THM_STATUS_DRAINING = false →
    Completes (.registerWrite m 0x040000 15 0x80000001) s [] (fun u => flag u F.THM_CTRL_LOCK = true ∧ OnlyRegs [F.THM_CTRL_LOCK] s u)
    ∧ Completes (.registerWrite m 0x040000 15 0) s [] fun u => flag u F.THM_STATUS_DRAINING = true ∧ OnlyRegs [F.THM_STATUS_DRAINING] s u) ∧
  (∀ (m : Master) (w : Word) (s : State), Writes s m → flag s F.THM_STATUS_DRAINING = true → w.toNat < 2 ^ 31 →
    Completes (.registerWrite m 0x040000 15 w) s [] fun u => fld u F.THM_CTRL_ENABLE = fld s F.THM_CTRL_ENABLE ∧ OnlyRegs [F.THM_CTRL_LOCK] s u) ∧
  (∀ (m : Master) (w : Word) (s : State), Writes s m → flag s F.PWR_CTRL_LOCK = false →
    Completes (.registerWrite m 0x03001C 15 w) s [] fun u =>
      fld u F.PWR_OSC_TO_TIMEOUT = max 50 (min (w.toNat % 2 ^ 10) 1000) ∧ OnlyRegs [F.PWR_OSC_TO_TIMEOUT] s u) ∧
  (∀ (m : Master) (w : Word) (s : State), Writes s m → Completes (.registerWrite m 0x030FFC 15 w) s [] fun u => u = s) ∧
  (∀ (off : BitVec 24) (be : BitVec 4) (w : Word) (s : State), Writes s .host → off.toNat < 0x180000 → off.toNat % 4 ≠ 0 ∨ be ≠ 15 →
    ¬ ByBytes (off.toNat / 4 * 4) →
    Completes (.registerWrite .host off be w) s [] fun u =>
      Counts F.PCI_CNT_BAD_WR_BAD_WR 1 s u ∧ OnlyRegs [F.PCI_CNT_BAD_WR_BAD_WR] s u) ∧
  (∀ (m : Master) (w : Word) (s : State), Writes s m → m ≠ .host → flag s F.THM_CTRL_LOCK = false →
    Completes (.registerWrite m 0x04000C 2 w) s [] fun u =>
      fld u F.THM_RATE_RWARN = fld s F.THM_RATE_RWARN % 2 ^ 8 ∧ fld u F.THM_RATE_RCRIT = w.toNat / 2 ^ 8 % 2 ^ 8
      ∧ OnlyRegs [F.THM_RATE_RWARN, F.THM_RATE_RCRIT] s u) ∧
  (∀ (m : Master) (off : BitVec 24) (be : BitVec 4) (w : Word) (s : State), Quiet s →
    mayReach s m = false ∨ s.rst.srcs ≠ [] ∨ 1 < fld s F.PWR_STATUS_STATE →
    Completes (.registerWrite m off be w) s [] fun u => u = s) ∧
  (∀ (s : State), Reads s →
    Completes (.bar0Read 0x030010 4) s [] fun u => Completed ⟨.sc, false, 4, fld s F.PWR_WAKE_TIMER_PERIODS % 2 ^ 32⟩ s u ∧ OnlyParts [.pci] s u) ∧
  (∀ (s : State), Reads s →
    Completes (.bar0Read 0x030014 4) s [] fun u =>
      Completed ⟨.sc, false, 4, (fld s F.PWR_WAKE_FAIL_CONSEC % 2 ^ 32 + fld s F.PWR_WAKE_FAIL_TOTAL * 2 ^ 8 % 2 ^ 32
        + fld s F.PWR_WAKE_FAIL_CAUSE * 2 ^ 16 % 2 ^ 32 + fld s F.PWR_WAKE_FAIL_RAIL * 2 ^ 20 % 2 ^ 32) % 2 ^ 32⟩ s u
      ∧ fld u F.PWR_WAKE_FAIL_TOTAL = 0 ∧ Only [.pci] [F.PWR_WAKE_FAIL_TOTAL] s u) ∧
  (∀ (s : State), Reads s →
    (Completes (.bar0Read 0x00000C 4) s [] fun u => Completed ⟨.sc, false, 4, 0⟩ s u ∧ OnlyParts [.pci] s u)
    ∧ Completes (.bar0Read 0x030FFC 4) s [] fun u => Completed ⟨.sc, false, 4, 0⟩ s u ∧ OnlyParts [.pci] s u) ∧
  (∀ (s : State), Reads s →
    Completes (.bar0Read 0x0A0010 8) s [] fun u =>
      Completed ⟨.sc, false, 8, fld s F.ANG_RT_TIME % 2 ^ 64⟩ s u ∧ smGet u.latch 0x0A0014 0 = fld s F.ANG_RT_TIME / 2 ^ 32 % 2 ^ 32 + 1
      ∧ OnlyParts [.pci, .latch] s u) ∧
  (∀ (v : Nat) (s : State), Reads s → smGet s.latch 0x0A0014 0 = v + 1 →
    Completes (.bar0Read 0x0A0014 4) s [] fun u => Completed ⟨.sc, false, 4, v⟩ s u ∧ OnlyParts [.pci] s u) ∧
  (∀ (off : BitVec 24) (n : Fin 4097) (s : State), Quiet s → linkUp s = true →
    (pciFn s 0).d3 = true ∨ (n.val ≠ 4 ∧ n.val ≠ 8) ∨ off.toNat % n.val ≠ 0 →
    Completes (.bar0Read off n) s [] fun u => Completed ⟨.ur, false, 0, 0⟩ s u ∧ OnlyParts [.pci] s u) ∧
  (∀ (off : BitVec 24) (s : State), Quiet s → linkUp s = true → (pciFn s 0).d3 = false → s.rst.srcs ≠ [] → off.toNat % 4 = 0 →
    Completes (.bar0Read off 4) s [] fun u => Completed ⟨.ca, false, 0, 0⟩ s u ∧ OnlyParts [.pci] s u) ∧
  (∀ (off : BitVec 24) (n : Fin 4097) (s : State), Quiet s → linkUp s = false → Completes (.bar0Read off n) s [] fun u => u = s) ∧
  (∀ (off : BitVec 24) (s : State), Quiet s → linkUp s = true → (pciFn s 0).d3 = false → off.toNat < 0x180000 → off.toNat % 4 = 0 →
    s.rst.srcs = [] → s.rst.step = 0 → s.rst.blkWait = [] → s.rst.blkOn = [] → 1 < fld s F.PWR_STATUS_STATE →
    Completes (.bar0Read off 4) s [] fun u => u = s)

/-- The draining of a unit ends: ENABLE and DRAINING read 0, and nothing else changes. -/
def Drains (b : DrainUnit) (en dr : Fld) (s : State) : Prop :=
  Completes (.drainEnd b) s [] fun u => flag u en = false ∧ flag u dr = false ∧ OnlyRegs [en, dr] s u

/-- The DRAINING field of a unit that can be seen draining. -/
def drainFld : DrainUnit → Option Fld
  | .ang => some F.ANG_STATUS_DRAINING
  | .tt => some F.TT_STATUS_DRAINING
  | .dsp => some F.DSP_STATUS_DRAINING
  | .port p => some (F.WNG_Pp_STATUS_DRAINING p)
  | .engine n => some (F.ENG_n_STATUS_DRAINING n)
  | .fab => some F.FAB_STATUS_DRAINING
  | .ctx => some F.CTX_STATUS_DRAINING
  | .mem => some F.MEM_STATUS_DRAINING
  | .sch => some F.SCH_STATUS_DRAINING
  | .hwn => some F.HWN_STATUS_DRAINING
  | .ring k => some (F.HWN_RINGk_STATUS_DRAINING k)
  | .enc => some F.ENC_STATUS_DRAINING
  | .stk => some F.STK_STATUS_DRAINING
  | .cfg => some F.CFG_STATUS_DRAINING
  | .pci => some F.PCI_STATUS_DRAINING
  | .sbx => some F.SBX_STATUS_DRAINING
  | .clk => some F.CLK_STATUS_DRAINING
  | .pwr => some F.PWR_STATUS_DRAINING
  | .bst => some F.BST_STATUS_DRAINING
  | .dbg => some F.DBG_STATUS_DRAINING
  | .patrol | .thm => none

/-- The end of draining (R13), per unit: where nothing of the unit is in flight any more, as its chapter tabulates, ENABLE and DRAINING
read 0; the Timetable also gives up its reservation where it holds no entry, the rings end with the host window, and a port goes
DISABLED and sends IDLE. A unit that is not draining, or still has something in flight, keeps all. The draining of the patrol and of
the thermal block ends by commands of their own. -/
def Obligations.DrainingEnds : Prop :=
  (∀ (b : DrainUnit) (s : State), Quiet s → ((drainFld b).map (flag s)).getD false = false → Completes (.drainEnd b) s [] fun u => u = s) ∧
  (∀ (s : State), Quiet s → flag s F.SBX_MB_STATUS_BUSY = true → Completes (.drainEnd .sbx) s [] fun u => u = s) ∧
  (∀ (s : State), Quiet s → s.clk.op ≠ none → Completes (.drainEnd .clk) s [] fun u => u = s) ∧
  (∀ (n : Fin 96) (s : State), Quiet s → (engine s n).win ≠ [] → Completes (.drainEnd (.engine n)) s [] fun u => u = s) ∧
  (∀ (k : Fin 16) (s : State), Quiet s → ring s k ≠ [] →
    (Completes (.drainEnd (.ring k)) s [] fun u => u = s) ∧ Completes (.drainEnd .hwn) s [] fun u => u = s) ∧
  (∀ (p : Fin 4) (s : State), Quiet s → (port s p).journal ≠ [] → Completes (.drainEnd (.port p)) s [] fun u => u = s) ∧
  (∀ (s : State), Quiet s → flag s F.ANG_STATUS_DRAINING = true → 
    Drains .ang F.ANG_CTRL_ENABLE F.ANG_STATUS_DRAINING s) ∧
  (∀ (s : State), Quiet s → flag s F.DSP_STATUS_DRAINING = true → dspDrained s = true → 
    Drains .dsp F.DSP_CTRL_ENABLE F.DSP_STATUS_DRAINING s) ∧
  (∀ (s : State), Quiet s → flag s F.FAB_STATUS_DRAINING = true → fabDrained s = true → 
    Drains .fab F.FAB_CTRL_ENABLE F.FAB_STATUS_DRAINING s) ∧
  (∀ (s : State), Quiet s → flag s F.CTX_STATUS_DRAINING = true → (∀ r : Fin 72, switching s r = false) → 
    Drains .ctx F.CTX_CTRL_ENABLE F.CTX_STATUS_DRAINING s) ∧
  (∀ (s : State), Quiet s → flag s F.MEM_STATUS_DRAINING = true → memDrained s = true → 
    Drains .mem F.MEM_CTRL_ENABLE F.MEM_STATUS_DRAINING s) ∧
  (∀ (s : State), Quiet s → flag s F.SCH_STATUS_DRAINING = true → s.cache.ways = [] → s.cache.fills = [] → s.hwn.reclaims = [] → 
    Drains .sch F.SCH_CTRL_ENABLE F.SCH_STATUS_DRAINING s) ∧
  (∀ (s : State), Quiet s → flag s F.ENC_STATUS_DRAINING = true → rekeying s = false → 
    Drains .enc F.ENC_CTRL_ENABLE F.ENC_STATUS_DRAINING s) ∧
  (∀ (s : State), Quiet s → flag s F.STK_STATUS_DRAINING = true → fld s F.STK_STATUS_RETRAINING = 0 → 
    Drains .stk F.STK_CTRL_ENABLE F.STK_STATUS_DRAINING s) ∧
  (∀ (s : State), Quiet s → flag s F.PCI_STATUS_DRAINING = true → (∀ r ∈ s.pci.reads, r.dead = true) → 
    Drains .pci F.PCI_CTRL_ENABLE F.PCI_STATUS_DRAINING s) ∧
  (∀ (s : State), Quiet s → flag s F.SBX_STATUS_DRAINING = true → flag s F.SBX_MB_STATUS_BUSY = false → 
    Drains .sbx F.SBX_CTRL_ENABLE F.SBX_STATUS_DRAINING s) ∧
  (∀ (s : State), Quiet s → flag s F.CLK_STATUS_DRAINING = true → s.clk.op = none → 
    Drains .clk F.CLK_CTRL_ENABLE F.CLK_STATUS_DRAINING s) ∧
  (∀ (s : State), Quiet s → flag s F.PWR_STATUS_DRAINING = true → fld s F.PWR_STATUS_PHASE ≠ 1 → 
    Drains .pwr F.PWR_CTRL_ENABLE F.PWR_STATUS_DRAINING s) ∧
  (∀ (s : State), Quiet s → flag s F.BST_STATUS_DRAINING = true → UnitsIdle s → 
    Drains .bst F.BST_CTRL_ENABLE F.BST_STATUS_DRAINING s) ∧
  (∀ (s : State), Quiet s → flag s F.DBG_STATUS_DRAINING = true → s.dbg.acc.busy = false → (∀ r : Fin 72, regFrozen s r = false ∧ flag s (F.DBG_REGr_STATUS_PULSING r) = false) → 
    Drains .dbg F.DBG_CTRL_ENABLE F.DBG_STATUS_DRAINING s) ∧
  (∀ (s : State), Quiet s → flag s F.CFG_STATUS_DRAINING = true → fld s F.CFG_STATUS_RESULT ≠ 1 → fld s F.CFG_STATUS_RESULT ≠ 2 → s.cfg.fail = none →
    Completes (.drainEnd .cfg) s [] fun u =>
      flag u F.CFG_CTRL_ENABLE = false ∧ flag u F.CFG_STATUS_DRAINING = false ∧ u.cfg = { s.cfg with off := false }
      ∧ Only [.cfg] [F.CFG_CTRL_ENABLE, F.CFG_STATUS_DRAINING] s u) ∧
  (∀ (n : Fin 96) (s : State), Quiet s → flag s (F.ENG_n_STATUS_DRAINING n) = true → (engine s n).win = [] → srcInFlight s (.engine n) = 0 →
    Drains (.engine n) (F.ENG_n_CTRL_ENABLE n) (F.ENG_n_STATUS_DRAINING n) s) ∧
  (∀ (k : Fin 16) (s : State), Quiet s → flag s (F.HWN_RINGk_STATUS_DRAINING k) = true → ring s k = [] →
    Drains (.ring k) (F.HWN_RINGk_CTRL_ENABLE k) (F.HWN_RINGk_STATUS_DRAINING k) s) ∧
  (∀ (s : State), Quiet s → flag s F.HWN_STATUS_DRAINING = true → (∀ k : Fin 16, ring s k = []) → s.hwn.reclaims = [] →
    Completes (.drainEnd .hwn) s [] fun u =>
      flag u F.HWN_CTRL_ENABLE = false ∧ flag u F.HWN_STATUS_DRAINING = false
      ∧ (∀ k : Fin 16, flag u (F.HWN_RINGk_CTRL_ENABLE k) = false ∧ flag u (F.HWN_RINGk_STATUS_DRAINING k) = false)
      ∧ OnlyRegs (F.HWN_CTRL_ENABLE :: F.HWN_STATUS_DRAINING :: (List.range 16).map F.HWN_RINGk_CTRL_ENABLE
          ++ (List.range 16).map F.HWN_RINGk_STATUS_DRAINING) s u) ∧
  (∀ (s : State), Quiet s → flag s F.TT_STATUS_DRAINING = true → s.tt.done = [] →
    Completes (.drainEnd .tt) s [] fun u =>
      flag u F.TT_CTRL_ENABLE = false ∧ flag u F.TT_STATUS_DRAINING = false
      ∧ (usedCount s = 0 → flag u F.TT_STATUS_RESERVED = false) ∧ (usedCount s ≠ 0 → fld u F.TT_STATUS_RESERVED = fld s F.TT_STATUS_RESERVED)
      ∧ OnlyRegs [F.TT_CTRL_ENABLE, F.TT_STATUS_DRAINING, F.TT_STATUS_READY, F.TT_STATUS_RESERVED] s u) ∧
  (∀ (p : Fin 4) (s : State), Quiet s → SendsPlainly s → flag s (F.WNG_Pp_STATUS_DRAINING p) = true → (port s p).journal = [] →
    Completes (.drainEnd (.port p)) s [] fun u =>
      flag u (F.WNG_Pp_CTRL_ENABLE p) = false ∧ flag u (F.WNG_Pp_STATUS_DRAINING p) = false ∧ portState u p = pDISABLED
      ∧ port u p = { port s p with idling := true, enumTries := 0 } ∧ (∀ q, q ≠ p.val → port u q = port s q)
      ∧ u.wire = ownFlit s p FT.idle 0 0 :: s.wire
      ∧ Only [.ports, .wire] [F.WNG_Pp_CTRL_ENABLE p, F.WNG_Pp_STATUS_DRAINING p, F.WNG_Pp_STATUS_STATE p] s u)
end

