-- ==== Sys2Proof/Laws/Maps.lean ====
section
/-! SUPPORT. The laws of the sparse maps: a read after a write, what a write leaves alone, and the canonical form. -/
namespace Sys2Proof.Machine

variable {α : Type}

/-- What a deleted key reads as, and every other one. -/
theorem smGet_smDel (m : SMap α) (k j : Nat) (d : α) : smGet (smDel m k) j d = if j = k then d else smGet m j d := by
  induction m with
  | nil => simp [smDel, smGet]
  | cons e t ih =>
    obtain ⟨k', v⟩ := e
    unfold smDel at ih ⊢
    by_cases hk : k' = k
    · simp only [List.filter_cons, hk, decide_true, Bool.not_true, Bool.false_eq_true, if_false, ih, smGet]
      split <;> rfl
    · simp only [List.filter_cons, hk, decide_false, Bool.not_false, if_true, smGet, ih]
      by_cases hj : j = k'
      · simp [hj, hk]
      · simp [hj]

theorem mem_smDel {m : SMap α} {k : Nat} {e : Nat × α} (h : e ∈ smDel m k) : e ∈ m ∧ e.1 ≠ k := by
  unfold smDel at h
  rw [List.mem_filter] at h
  exact ⟨h.1, by simpa using h.2⟩

theorem mem_smPut {m : SMap α} {k : Nat} {v : α} {e : Nat × α} (h : e ∈ smPut m k v) : e = (k, v) ∨ e ∈ m := by
  induction m with
  | nil => simpa [smPut] using h
  | cons x t ih =>
    unfold smPut at h
    split at h
    · simpa using h
    · rcases List.mem_cons.1 h with rfl | h
      · exact .inr List.mem_cons_self
      · exact (ih h).imp id (List.mem_cons_of_mem _)

/-- A put of a key that is not listed. -/
theorem smGet_smPut {m : SMap α} {k : Nat} (hk : ∀ e ∈ m, e.1 ≠ k) (v : α) (j : Nat) (d : α) :
    smGet (smPut m k v) j d = if j = k then v else smGet m j d := by
  induction m with
  | nil => simp [smPut, smGet]
  | cons x t ih =>
    obtain ⟨k', v'⟩ := x
    have hne : k' ≠ k := hk _ List.mem_cons_self
    unfold smPut
    split
    · simp [smGet]
    · have := ih fun e he => hk e (List.mem_cons_of_mem _ he)
      simp only [smGet, this]
      by_cases hj : j = k'
      · simp [hj, hne]
      · simp [hj]

section
variable [DecidableEq α]

/-- A read after a write, of the same key and of any other. -/
theorem smGet_smSet (m : SMap α) (k j : Nat) (v d : α) : smGet (smSet m k v d) j d = if j = k then v else smGet m j d := by
  unfold smSet
  split
  · rename_i h
    rw [smGet_smDel, h]
  · rw [smGet_smPut fun e he => (mem_smDel he).2, smGet_smDel]
    split <;> rfl

theorem smGet_smSet_same (m : SMap α) (k : Nat) (v d : α) : smGet (smSet m k v d) k d = v := by simp [smGet_smSet]

/-- A write leaves every other key alone. -/
theorem smGet_smSet_ne (m : SMap α) {k j : Nat} (hne : j ≠ k) (v d d' : α) :
    smGet (smSet m k v d) j d' = smGet m j d' := by
  unfold smSet
  split
  · rw [smGet_smDel, if_neg hne]
  · rw [smGet_smPut (fun e he => (mem_smDel he).2), smGet_smDel, if_neg hne, if_neg hne]

end

/-! ### The canonical form -/

theorem smRisingFrom_cons {lo : Option Nat} {k : Nat} {v : α} {t : SMap α} :
    smRisingFrom lo ((k, v) :: t) = true ↔ (∀ l, lo = some l → l < k) ∧ smRisingFrom (some k) t = true := by
  cases lo <;> simp [smRisingFrom]

theorem smRisingFrom_weaken {t : SMap α} {a : Nat} {lo : Option Nat} (h : smRisingFrom (some a) t = true)
    (hl : ∀ l, lo = some l → l ≤ a) : smRisingFrom lo t = true := by
  cases t with
  | nil => rfl
  | cons e t =>
    rw [smRisingFrom_cons] at h ⊢
    exact ⟨fun l hl' => lt_of_le_of_lt (hl l hl') (h.1 a rfl), h.2⟩

/-- A filtered map keeps its keys rising. -/
theorem smFilter_rising {m : SMap α} {lo : Option Nat} (h : smRisingFrom lo m = true) (p : Nat × α → Bool) :
    smRisingFrom lo (m.filter p) = true := by
  induction m generalizing lo with
  | nil => rfl
  | cons e t ih =>
    obtain ⟨k, v⟩ := e
    have h0 := smRisingFrom_cons.1 h
    rw [List.filter_cons]
    split
    · exact smRisingFrom_cons.2 ⟨h0.1, ih h0.2⟩
    · exact smRisingFrom_weaken (ih h0.2) fun l e => Nat.le_of_lt (h0.1 l e)

theorem smPut_rising {m : SMap α} {lo : Option Nat} (h : smRisingFrom lo m = true) {k : Nat} (hk : ∀ e ∈ m, e.1 ≠ k)
    (hl : ∀ l, lo = some l → l < k) (v : α) : smRisingFrom lo (smPut m k v) = true := by
  induction m generalizing lo with
  | nil => exact smRisingFrom_cons.2 ⟨hl, rfl⟩
  | cons e t ih =>
    obtain ⟨k', v'⟩ := e
    have h0 := smRisingFrom_cons.1 h
    have hne : k' ≠ k := hk _ List.mem_cons_self
    unfold smPut
    split
    · rename_i hlt
      exact smRisingFrom_cons.2 ⟨hl, smRisingFrom_cons.2 ⟨fun l e => by cases e; exact hlt, h0.2⟩⟩
    · exact smRisingFrom_cons.2 ⟨h0.1, ih h0.2 (fun e he => hk e (List.mem_cons_of_mem _ he)) fun l e => by cases e; omega⟩

section
variable [DecidableEq α]

theorem smWf_filter {m : SMap α} {d : α} (h : smWf d m = true) (p : Nat × α → Bool) : smWf d (m.filter p) = true := by
  unfold smWf at h ⊢
  rw [Bool.and_eq_true, List.all_eq_true] at h ⊢
  exact ⟨smFilter_rising h.1 p, fun x hx => h.2 x (List.mem_of_mem_filter hx)⟩

/-- A map whose keys were dropped keeps the canonical form. -/
theorem smDrop_wf {m : SMap α} {d : α} (h : smWf d m = true) (lo hi : Nat) : smWf d (smDrop m lo hi) = true :=
  smWf_filter h _

theorem smSet_rising {m : SMap α} (h : smRisingFrom none m = true) (k : Nat) (v d : α) :
    smRisingFrom none (smSet m k v d) = true := by
  unfold smSet
  split
  · exact smFilter_rising h _
  · exact smPut_rising (smFilter_rising h _) (fun e he => (mem_smDel he).2) (by simp) v

/-- A write keeps the canonical form. -/
theorem smSet_wf {m : SMap α} {d : α} (h : smWf d m = true) (k : Nat) (v : α) : smWf d (smSet m k v d) = true := by
  have hw := smWf_filter h fun e => !decide (e.1 = k)
  unfold smSet
  split
  · exact hw
  · rename_i hv
    unfold smWf at hw ⊢
    rw [Bool.and_eq_true, List.all_eq_true] at hw ⊢
    refine ⟨smPut_rising hw.1 (fun e he => (mem_smDel he).2) (by simp) v, fun x hx => ?_⟩
    rcases mem_smPut hx with rfl | hx
    · simpa using hv
    · exact hw.2 x hx

end

/-- A dropped key reads as the default, every other key as before. -/
theorem smGet_smDrop (m : SMap α) (lo hi k : Nat) (d : α) :
    smGet (smDrop m lo hi) k d = if lo ≤ k ∧ k < hi then d else smGet m k d := by
  induction m with
  | nil => simp [smDrop, smGet]
  | cons e t ih =>
    obtain ⟨k', v⟩ := e
    unfold smDrop at ih ⊢
    rw [List.filter_cons]
    split
    · rename_i hb
      simp only [smGet]
      split
      · rename_i he
        subst he
        have : ¬(lo ≤ k ∧ k < hi) := by simp at hb; omega
        simp [this]
      · exact ih
    · rename_i hb
      rw [ih]
      have hb' : lo ≤ k' ∧ k' < hi := by simpa using hb
      by_cases he : k = k'
      · subst he
        simp [hb']
      · simp [smGet, he]

end Sys2Proof.Machine
end

