-- ==== Sys2Proof/Laws/State.lean ====
section
/-! SUPPORT. One lemma per field of the state for each operation that sets one component: what it leaves alone. True by
unfolding, and part of the simp set, so that no later proof unfolds a record update. -/
namespace Sys2Proof.Machine

variable (s : State)

/-! ### setFld -/
@[simp] theorem setFld_latch (f : Fld) (v : Nat) : (setFld s f v).latch = s.latch := rfl
@[simp] theorem setFld_evq (f : Fld) (v : Nat) : (setFld s f v).evq = s.evq := rfl
@[simp] theorem setFld_log (f : Fld) (v : Nat) : (setFld s f v).log = s.log := rfl
@[simp] theorem setFld_windows (f : Fld) (v : Nat) : (setFld s f v).windows = s.windows := rfl
@[simp] theorem setFld_mirrorQ (f : Fld) (v : Nat) : (setFld s f v).mirrorQ = s.mirrorQ := rfl
@[simp] theorem setFld_axes (f : Fld) (v : Nat) : (setFld s f v).axes = s.axes := rfl
@[simp] theorem setFld_encs (f : Fld) (v : Nat) : (setFld s f v).encs = s.encs := rfl
@[simp] theorem setFld_rt (f : Fld) (v : Nat) : (setFld s f v).rt = s.rt := rfl
@[simp] theorem setFld_tt (f : Fld) (v : Nat) : (setFld s f v).tt = s.tt := rfl
@[simp] theorem setFld_dsp (f : Fld) (v : Nat) : (setFld s f v).dsp = s.dsp := rfl
@[simp] theorem setFld_ports (f : Fld) (v : Nat) : (setFld s f v).ports = s.ports := rfl
@[simp] theorem setFld_node (f : Fld) (v : Nat) : (setFld s f v).node = s.node := rfl
@[simp] theorem setFld_modules (f : Fld) (v : Nat) : (setFld s f v).modules = s.modules := rfl
@[simp] theorem setFld_lanes (f : Fld) (v : Nat) : (setFld s f v).lanes = s.lanes := rfl
@[simp] theorem setFld_regions (f : Fld) (v : Nat) : (setFld s f v).regions = s.regions := rfl
@[simp] theorem setFld_fab (f : Fld) (v : Nat) : (setFld s f v).fab = s.fab := rfl
@[simp] theorem setFld_engines (f : Fld) (v : Nat) : (setFld s f v).engines = s.engines := rfl
@[simp] theorem setFld_clk (f : Fld) (v : Nat) : (setFld s f v).clk = s.clk := rfl
@[simp] theorem setFld_pwr (f : Fld) (v : Nat) : (setFld s f v).pwr = s.pwr := rfl
@[simp] theorem setFld_wire (f : Fld) (v : Nat) : (setFld s f v).wire = s.wire := rfl
@[simp] theorem setFld_mem (f : Fld) (v : Nat) : (setFld s f v).mem = s.mem := rfl
@[simp] theorem setFld_cache (f : Fld) (v : Nat) : (setFld s f v).cache = s.cache := rfl
@[simp] theorem setFld_hwn (f : Fld) (v : Nat) : (setFld s f v).hwn = s.hwn := rfl
@[simp] theorem setFld_enc (f : Fld) (v : Nat) : (setFld s f v).enc = s.enc := rfl
@[simp] theorem setFld_stk (f : Fld) (v : Nat) : (setFld s f v).stk = s.stk := rfl
@[simp] theorem setFld_thm (f : Fld) (v : Nat) : (setFld s f v).thm = s.thm := rfl
@[simp] theorem setFld_iob (f : Fld) (v : Nat) : (setFld s f v).iob = s.iob := rfl
@[simp] theorem setFld_hostWr (f : Fld) (v : Nat) : (setFld s f v).hostWr = s.hostWr := rfl
@[simp] theorem setFld_rsps (f : Fld) (v : Nat) : (setFld s f v).rsps = s.rsps := rfl
@[simp] theorem setFld_pci (f : Fld) (v : Nat) : (setFld s f v).pci = s.pci := rfl
@[simp] theorem setFld_rst (f : Fld) (v : Nat) : (setFld s f v).rst = s.rst := rfl
@[simp] theorem setFld_cfg (f : Fld) (v : Nat) : (setFld s f v).cfg = s.cfg := rfl
@[simp] theorem setFld_sbx (f : Fld) (v : Nat) : (setFld s f v).sbx = s.sbx := rfl
@[simp] theorem setFld_bst (f : Fld) (v : Nat) : (setFld s f v).bst = s.bst := rfl
@[simp] theorem setFld_dbg (f : Fld) (v : Nat) : (setFld s f v).dbg = s.dbg := rfl
@[simp] theorem setFld_free (f : Fld) (v : Nat) : (setFld s f v).free = s.free := rfl
@[simp] theorem setFld_pending (f : Fld) (v : Nat) : (setFld s f v).pending = s.pending := rfl

/-! ### resetOffsets -/
@[simp] theorem resetOffsets_latch (lo hi : Nat) : (resetOffsets s lo hi).latch = s.latch := rfl
@[simp] theorem resetOffsets_evq (lo hi : Nat) : (resetOffsets s lo hi).evq = s.evq := rfl
@[simp] theorem resetOffsets_log (lo hi : Nat) : (resetOffsets s lo hi).log = s.log := rfl
@[simp] theorem resetOffsets_windows (lo hi : Nat) : (resetOffsets s lo hi).windows = s.windows := rfl
@[simp] theorem resetOffsets_mirrorQ (lo hi : Nat) : (resetOffsets s lo hi).mirrorQ = s.mirrorQ := rfl
@[simp] theorem resetOffsets_axes (lo hi : Nat) : (resetOffsets s lo hi).axes = s.axes := rfl
@[simp] theorem resetOffsets_encs (lo hi : Nat) : (resetOffsets s lo hi).encs = s.encs := rfl
@[simp] theorem resetOffsets_rt (lo hi : Nat) : (resetOffsets s lo hi).rt = s.rt := rfl
@[simp] theorem resetOffsets_tt (lo hi : Nat) : (resetOffsets s lo hi).tt = s.tt := rfl
@[simp] theorem resetOffsets_dsp (lo hi : Nat) : (resetOffsets s lo hi).dsp = s.dsp := rfl
@[simp] theorem resetOffsets_ports (lo hi : Nat) : (resetOffsets s lo hi).ports = s.ports := rfl
@[simp] theorem resetOffsets_node (lo hi : Nat) : (resetOffsets s lo hi).node = s.node := rfl
@[simp] theorem resetOffsets_modules (lo hi : Nat) : (resetOffsets s lo hi).modules = s.modules := rfl
@[simp] theorem resetOffsets_lanes (lo hi : Nat) : (resetOffsets s lo hi).lanes = s.lanes := rfl
@[simp] theorem resetOffsets_regions (lo hi : Nat) : (resetOffsets s lo hi).regions = s.regions := rfl
@[simp] theorem resetOffsets_fab (lo hi : Nat) : (resetOffsets s lo hi).fab = s.fab := rfl
@[simp] theorem resetOffsets_engines (lo hi : Nat) : (resetOffsets s lo hi).engines = s.engines := rfl
@[simp] theorem resetOffsets_clk (lo hi : Nat) : (resetOffsets s lo hi).clk = s.clk := rfl
@[simp] theorem resetOffsets_pwr (lo hi : Nat) : (resetOffsets s lo hi).pwr = s.pwr := rfl
@[simp] theorem resetOffsets_wire (lo hi : Nat) : (resetOffsets s lo hi).wire = s.wire := rfl
@[simp] theorem resetOffsets_mem (lo hi : Nat) : (resetOffsets s lo hi).mem = s.mem := rfl
@[simp] theorem resetOffsets_cache (lo hi : Nat) : (resetOffsets s lo hi).cache = s.cache := rfl
@[simp] theorem resetOffsets_hwn (lo hi : Nat) : (resetOffsets s lo hi).hwn = s.hwn := rfl
@[simp] theorem resetOffsets_enc (lo hi : Nat) : (resetOffsets s lo hi).enc = s.enc := rfl
@[simp] theorem resetOffsets_stk (lo hi : Nat) : (resetOffsets s lo hi).stk = s.stk := rfl
@[simp] theorem resetOffsets_thm (lo hi : Nat) : (resetOffsets s lo hi).thm = s.thm := rfl
@[simp] theorem resetOffsets_iob (lo hi : Nat) : (resetOffsets s lo hi).iob = s.iob := rfl
@[simp] theorem resetOffsets_hostWr (lo hi : Nat) : (resetOffsets s lo hi).hostWr = s.hostWr := rfl
@[simp] theorem resetOffsets_rsps (lo hi : Nat) : (resetOffsets s lo hi).rsps = s.rsps := rfl
@[simp] theorem resetOffsets_pci (lo hi : Nat) : (resetOffsets s lo hi).pci = s.pci := rfl
@[simp] theorem resetOffsets_rst (lo hi : Nat) : (resetOffsets s lo hi).rst = s.rst := rfl
@[simp] theorem resetOffsets_cfg (lo hi : Nat) : (resetOffsets s lo hi).cfg = s.cfg := rfl
@[simp] theorem resetOffsets_sbx (lo hi : Nat) : (resetOffsets s lo hi).sbx = s.sbx := rfl
@[simp] theorem resetOffsets_bst (lo hi : Nat) : (resetOffsets s lo hi).bst = s.bst := rfl
@[simp] theorem resetOffsets_dbg (lo hi : Nat) : (resetOffsets s lo hi).dbg = s.dbg := rfl
@[simp] theorem resetOffsets_free (lo hi : Nat) : (resetOffsets s lo hi).free = s.free := rfl
@[simp] theorem resetOffsets_pending (lo hi : Nat) : (resetOffsets s lo hi).pending = s.pending := rfl

/-! ### drawn -/
@[simp] theorem drawn_regs : (drawn s).regs = s.regs := rfl
@[simp] theorem drawn_latch : (drawn s).latch = s.latch := rfl
@[simp] theorem drawn_evq : (drawn s).evq = s.evq := rfl
@[simp] theorem drawn_log : (drawn s).log = s.log := rfl
@[simp] theorem drawn_windows : (drawn s).windows = s.windows := rfl
@[simp] theorem drawn_mirrorQ : (drawn s).mirrorQ = s.mirrorQ := rfl
@[simp] theorem drawn_axes : (drawn s).axes = s.axes := rfl
@[simp] theorem drawn_encs : (drawn s).encs = s.encs := rfl
@[simp] theorem drawn_rt : (drawn s).rt = s.rt := rfl
@[simp] theorem drawn_tt : (drawn s).tt = s.tt := rfl
@[simp] theorem drawn_dsp : (drawn s).dsp = s.dsp := rfl
@[simp] theorem drawn_ports : (drawn s).ports = s.ports := rfl
@[simp] theorem drawn_node : (drawn s).node = s.node := rfl
@[simp] theorem drawn_modules : (drawn s).modules = s.modules := rfl
@[simp] theorem drawn_lanes : (drawn s).lanes = s.lanes := rfl
@[simp] theorem drawn_regions : (drawn s).regions = s.regions := rfl
@[simp] theorem drawn_fab : (drawn s).fab = s.fab := rfl
@[simp] theorem drawn_engines : (drawn s).engines = s.engines := rfl
@[simp] theorem drawn_clk : (drawn s).clk = s.clk := rfl
@[simp] theorem drawn_pwr : (drawn s).pwr = s.pwr := rfl
@[simp] theorem drawn_wire : (drawn s).wire = s.wire := rfl
@[simp] theorem drawn_mem : (drawn s).mem = s.mem := rfl
@[simp] theorem drawn_cache : (drawn s).cache = s.cache := rfl
@[simp] theorem drawn_hwn : (drawn s).hwn = s.hwn := rfl
@[simp] theorem drawn_enc : (drawn s).enc = s.enc := rfl
@[simp] theorem drawn_stk : (drawn s).stk = s.stk := rfl
@[simp] theorem drawn_thm : (drawn s).thm = s.thm := rfl
@[simp] theorem drawn_iob : (drawn s).iob = s.iob := rfl
@[simp] theorem drawn_hostWr : (drawn s).hostWr = s.hostWr := rfl
@[simp] theorem drawn_rsps : (drawn s).rsps = s.rsps := rfl
@[simp] theorem drawn_pci : (drawn s).pci = s.pci := rfl
@[simp] theorem drawn_rst : (drawn s).rst = s.rst := rfl
@[simp] theorem drawn_cfg : (drawn s).cfg = s.cfg := rfl
@[simp] theorem drawn_sbx : (drawn s).sbx = s.sbx := rfl
@[simp] theorem drawn_bst : (drawn s).bst = s.bst := rfl
@[simp] theorem drawn_dbg : (drawn s).dbg = s.dbg := rfl
@[simp] theorem drawn_pending : (drawn s).pending = s.pending := rfl
@[simp] theorem fld_drawn (g : Fld) : fld (drawn s) g = fld s g := rfl

/-! ### raise -/
@[simp] theorem raise_regs (code : Nat) (items : List (Nat × Nat)) : (raise s code items).regs = s.regs := rfl
@[simp] theorem raise_latch (code : Nat) (items : List (Nat × Nat)) : (raise s code items).latch = s.latch := rfl
@[simp] theorem raise_log (code : Nat) (items : List (Nat × Nat)) : (raise s code items).log = s.log := rfl
@[simp] theorem raise_windows (code : Nat) (items : List (Nat × Nat)) : (raise s code items).windows = s.windows := rfl
@[simp] theorem raise_mirrorQ (code : Nat) (items : List (Nat × Nat)) : (raise s code items).mirrorQ = s.mirrorQ := rfl
@[simp] theorem raise_axes (code : Nat) (items : List (Nat × Nat)) : (raise s code items).axes = s.axes := rfl
@[simp] theorem raise_encs (code : Nat) (items : List (Nat × Nat)) : (raise s code items).encs = s.encs := rfl
@[simp] theorem raise_rt (code : Nat) (items : List (Nat × Nat)) : (raise s code items).rt = s.rt := rfl
@[simp] theorem raise_tt (code : Nat) (items : List (Nat × Nat)) : (raise s code items).tt = s.tt := rfl
@[simp] theorem raise_dsp (code : Nat) (items : List (Nat × Nat)) : (raise s code items).dsp = s.dsp := rfl
@[simp] theorem raise_ports (code : Nat) (items : List (Nat × Nat)) : (raise s code items).ports = s.ports := rfl
@[simp] theorem raise_node (code : Nat) (items : List (Nat × Nat)) : (raise s code items).node = s.node := rfl
@[simp] theorem raise_modules (code : Nat) (items : List (Nat × Nat)) : (raise s code items).modules = s.modules := rfl
@[simp] theorem raise_lanes (code : Nat) (items : List (Nat × Nat)) : (raise s code items).lanes = s.lanes := rfl
@[simp] theorem raise_regions (code : Nat) (items : List (Nat × Nat)) : (raise s code items).regions = s.regions := rfl
@[simp] theorem raise_fab (code : Nat) (items : List (Nat × Nat)) : (raise s code items).fab = s.fab := rfl
@[simp] theorem raise_engines (code : Nat) (items : List (Nat × Nat)) : (raise s code items).engines = s.engines := rfl
@[simp] theorem raise_clk (code : Nat) (items : List (Nat × Nat)) : (raise s code items).clk = s.clk := rfl
@[simp] theorem raise_pwr (code : Nat) (items : List (Nat × Nat)) : (raise s code items).pwr = s.pwr := rfl
@[simp] theorem raise_wire (code : Nat) (items : List (Nat × Nat)) : (raise s code items).wire = s.wire := rfl
@[simp] theorem raise_mem (code : Nat) (items : List (Nat × Nat)) : (raise s code items).mem = s.mem := rfl
@[simp] theorem raise_cache (code : Nat) (items : List (Nat × Nat)) : (raise s code items).cache = s.cache := rfl
@[simp] theorem raise_hwn (code : Nat) (items : List (Nat × Nat)) : (raise s code items).hwn = s.hwn := rfl
@[simp] theorem raise_enc (code : Nat) (items : List (Nat × Nat)) : (raise s code items).enc = s.enc := rfl
@[simp] theorem raise_stk (code : Nat) (items : List (Nat × Nat)) : (raise s code items).stk = s.stk := rfl
@[simp] theorem raise_thm (code : Nat) (items : List (Nat × Nat)) : (raise s code items).thm = s.thm := rfl
@[simp] theorem raise_iob (code : Nat) (items : List (Nat × Nat)) : (raise s code items).iob = s.iob := rfl
@[simp] theorem raise_hostWr (code : Nat) (items : List (Nat × Nat)) : (raise s code items).hostWr = s.hostWr := rfl
@[simp] theorem raise_rsps (code : Nat) (items : List (Nat × Nat)) : (raise s code items).rsps = s.rsps := rfl
@[simp] theorem raise_pci (code : Nat) (items : List (Nat × Nat)) : (raise s code items).pci = s.pci := rfl
@[simp] theorem raise_rst (code : Nat) (items : List (Nat × Nat)) : (raise s code items).rst = s.rst := rfl
@[simp] theorem raise_cfg (code : Nat) (items : List (Nat × Nat)) : (raise s code items).cfg = s.cfg := rfl
@[simp] theorem raise_sbx (code : Nat) (items : List (Nat × Nat)) : (raise s code items).sbx = s.sbx := rfl
@[simp] theorem raise_bst (code : Nat) (items : List (Nat × Nat)) : (raise s code items).bst = s.bst := rfl
@[simp] theorem raise_dbg (code : Nat) (items : List (Nat × Nat)) : (raise s code items).dbg = s.dbg := rfl
@[simp] theorem raise_free (code : Nat) (items : List (Nat × Nat)) : (raise s code items).free = s.free := rfl
@[simp] theorem raise_pending (code : Nat) (items : List (Nat × Nat)) : (raise s code items).pending = s.pending := rfl
@[simp] theorem fld_raise (code : Nat) (items : List (Nat × Nat)) (g : Fld) : fld (raise s code items) g = fld s g := rfl

/-! ### raiseMerged -/
@[simp] theorem raiseMerged_regs (code scope : Nat) (items : List (Nat × Nat)) : (raiseMerged s code scope items).regs = s.regs := rfl
@[simp] theorem raiseMerged_latch (code scope : Nat) (items : List (Nat × Nat)) : (raiseMerged s code scope items).latch = s.latch := rfl
@[simp] theorem raiseMerged_log (code scope : Nat) (items : List (Nat × Nat)) : (raiseMerged s code scope items).log = s.log := rfl
@[simp] theorem raiseMerged_windows (code scope : Nat) (items : List (Nat × Nat)) : (raiseMerged s code scope items).windows = s.windows := rfl
@[simp] theorem raiseMerged_mirrorQ (code scope : Nat) (items : List (Nat × Nat)) : (raiseMerged s code scope items).mirrorQ = s.mirrorQ := rfl
@[simp] theorem raiseMerged_axes (code scope : Nat) (items : List (Nat × Nat)) : (raiseMerged s code scope items).axes = s.axes := rfl
@[simp] theorem raiseMerged_encs (code scope : Nat) (items : List (Nat × Nat)) : (raiseMerged s code scope items).encs = s.encs := rfl
@[simp] theorem raiseMerged_rt (code scope : Nat) (items : List (Nat × Nat)) : (raiseMerged s code scope items).rt = s.rt := rfl
@[simp] theorem raiseMerged_tt (code scope : Nat) (items : List (Nat × Nat)) : (raiseMerged s code scope items).tt = s.tt := rfl
@[simp] theorem raiseMerged_dsp (code scope : Nat) (items : List (Nat × Nat)) : (raiseMerged s code scope items).dsp = s.dsp := rfl
@[simp] theorem raiseMerged_ports (code scope : Nat) (items : List (Nat × Nat)) : (raiseMerged s code scope items).ports = s.ports := rfl
@[simp] theorem raiseMerged_node (code scope : Nat) (items : List (Nat × Nat)) : (raiseMerged s code scope items).node = s.node := rfl
@[simp] theorem raiseMerged_modules (code scope : Nat) (items : List (Nat × Nat)) : (raiseMerged s code scope items).modules = s.modules := rfl
@[simp] theorem raiseMerged_lanes (code scope : Nat) (items : List (Nat × Nat)) : (raiseMerged s code scope items).lanes = s.lanes := rfl
@[simp] theorem raiseMerged_regions (code scope : Nat) (items : List (Nat × Nat)) : (raiseMerged s code scope items).regions = s.regions := rfl
@[simp] theorem raiseMerged_fab (code scope : Nat) (items : List (Nat × Nat)) : (raiseMerged s code scope items).fab = s.fab := rfl
@[simp] theorem raiseMerged_engines (code scope : Nat) (items : List (Nat × Nat)) : (raiseMerged s code scope items).engines = s.engines := rfl
@[simp] theorem raiseMerged_clk (code scope : Nat) (items : List (Nat × Nat)) : (raiseMerged s code scope items).clk = s.clk := rfl
@[simp] theorem raiseMerged_pwr (code scope : Nat) (items : List (Nat × Nat)) : (raiseMerged s code scope items).pwr = s.pwr := rfl
@[simp] theorem raiseMerged_wire (code scope : Nat) (items : List (Nat × Nat)) : (raiseMerged s code scope items).wire = s.wire := rfl
@[simp] theorem raiseMerged_mem (code scope : Nat) (items : List (Nat × Nat)) : (raiseMerged s code scope items).mem = s.mem := rfl
@[simp] theorem raiseMerged_cache (code scope : Nat) (items : List (Nat × Nat)) : (raiseMerged s code scope items).cache = s.cache := rfl
@[simp] theorem raiseMerged_hwn (code scope : Nat) (items : List (Nat × Nat)) : (raiseMerged s code scope items).hwn = s.hwn := rfl
@[simp] theorem raiseMerged_enc (code scope : Nat) (items : List (Nat × Nat)) : (raiseMerged s code scope items).enc = s.enc := rfl
@[simp] theorem raiseMerged_stk (code scope : Nat) (items : List (Nat × Nat)) : (raiseMerged s code scope items).stk = s.stk := rfl
@[simp] theorem raiseMerged_thm (code scope : Nat) (items : List (Nat × Nat)) : (raiseMerged s code scope items).thm = s.thm := rfl
@[simp] theorem raiseMerged_iob (code scope : Nat) (items : List (Nat × Nat)) : (raiseMerged s code scope items).iob = s.iob := rfl
@[simp] theorem raiseMerged_hostWr (code scope : Nat) (items : List (Nat × Nat)) : (raiseMerged s code scope items).hostWr = s.hostWr := rfl
@[simp] theorem raiseMerged_rsps (code scope : Nat) (items : List (Nat × Nat)) : (raiseMerged s code scope items).rsps = s.rsps := rfl
@[simp] theorem raiseMerged_pci (code scope : Nat) (items : List (Nat × Nat)) : (raiseMerged s code scope items).pci = s.pci := rfl
@[simp] theorem raiseMerged_rst (code scope : Nat) (items : List (Nat × Nat)) : (raiseMerged s code scope items).rst = s.rst := rfl
@[simp] theorem raiseMerged_cfg (code scope : Nat) (items : List (Nat × Nat)) : (raiseMerged s code scope items).cfg = s.cfg := rfl
@[simp] theorem raiseMerged_sbx (code scope : Nat) (items : List (Nat × Nat)) : (raiseMerged s code scope items).sbx = s.sbx := rfl
@[simp] theorem raiseMerged_bst (code scope : Nat) (items : List (Nat × Nat)) : (raiseMerged s code scope items).bst = s.bst := rfl
@[simp] theorem raiseMerged_dbg (code scope : Nat) (items : List (Nat × Nat)) : (raiseMerged s code scope items).dbg = s.dbg := rfl
@[simp] theorem raiseMerged_free (code scope : Nat) (items : List (Nat × Nat)) : (raiseMerged s code scope items).free = s.free := rfl
@[simp] theorem raiseMerged_pending (code scope : Nat) (items : List (Nat × Nat)) : (raiseMerged s code scope items).pending = s.pending := rfl
@[simp] theorem fld_raiseMerged (code scope : Nat) (items : List (Nat × Nat)) (g : Fld) : fld (raiseMerged s code scope items) g = fld s g := rfl

/-! ### raiseNmi -/
@[simp] theorem raiseNmi_regs (code : Nat) : (raiseNmi s code).regs = s.regs := rfl
@[simp] theorem raiseNmi_latch (code : Nat) : (raiseNmi s code).latch = s.latch := rfl
@[simp] theorem raiseNmi_log (code : Nat) : (raiseNmi s code).log = s.log := rfl
@[simp] theorem raiseNmi_windows (code : Nat) : (raiseNmi s code).windows = s.windows := rfl
@[simp] theorem raiseNmi_mirrorQ (code : Nat) : (raiseNmi s code).mirrorQ = s.mirrorQ := rfl
@[simp] theorem raiseNmi_axes (code : Nat) : (raiseNmi s code).axes = s.axes := rfl
@[simp] theorem raiseNmi_encs (code : Nat) : (raiseNmi s code).encs = s.encs := rfl
@[simp] theorem raiseNmi_rt (code : Nat) : (raiseNmi s code).rt = s.rt := rfl
@[simp] theorem raiseNmi_tt (code : Nat) : (raiseNmi s code).tt = s.tt := rfl
@[simp] theorem raiseNmi_dsp (code : Nat) : (raiseNmi s code).dsp = s.dsp := rfl
@[simp] theorem raiseNmi_ports (code : Nat) : (raiseNmi s code).ports = s.ports := rfl
@[simp] theorem raiseNmi_node (code : Nat) : (raiseNmi s code).node = s.node := rfl
@[simp] theorem raiseNmi_modules (code : Nat) : (raiseNmi s code).modules = s.modules := rfl
@[simp] theorem raiseNmi_lanes (code : Nat) : (raiseNmi s code).lanes = s.lanes := rfl
@[simp] theorem raiseNmi_regions (code : Nat) : (raiseNmi s code).regions = s.regions := rfl
@[simp] theorem raiseNmi_fab (code : Nat) : (raiseNmi s code).fab = s.fab := rfl
@[simp] theorem raiseNmi_engines (code : Nat) : (raiseNmi s code).engines = s.engines := rfl
@[simp] theorem raiseNmi_clk (code : Nat) : (raiseNmi s code).clk = s.clk := rfl
@[simp] theorem raiseNmi_pwr (code : Nat) : (raiseNmi s code).pwr = s.pwr := rfl
@[simp] theorem raiseNmi_wire (code : Nat) : (raiseNmi s code).wire = s.wire := rfl
@[simp] theorem raiseNmi_mem (code : Nat) : (raiseNmi s code).mem = s.mem := rfl
@[simp] theorem raiseNmi_cache (code : Nat) : (raiseNmi s code).cache = s.cache := rfl
@[simp] theorem raiseNmi_hwn (code : Nat) : (raiseNmi s code).hwn = s.hwn := rfl
@[simp] theorem raiseNmi_enc (code : Nat) : (raiseNmi s code).enc = s.enc := rfl
@[simp] theorem raiseNmi_stk (code : Nat) : (raiseNmi s code).stk = s.stk := rfl
@[simp] theorem raiseNmi_thm (code : Nat) : (raiseNmi s code).thm = s.thm := rfl
@[simp] theorem raiseNmi_iob (code : Nat) : (raiseNmi s code).iob = s.iob := rfl
@[simp] theorem raiseNmi_hostWr (code : Nat) : (raiseNmi s code).hostWr = s.hostWr := rfl
@[simp] theorem raiseNmi_rsps (code : Nat) : (raiseNmi s code).rsps = s.rsps := rfl
@[simp] theorem raiseNmi_pci (code : Nat) : (raiseNmi s code).pci = s.pci := rfl
@[simp] theorem raiseNmi_rst (code : Nat) : (raiseNmi s code).rst = s.rst := rfl
@[simp] theorem raiseNmi_cfg (code : Nat) : (raiseNmi s code).cfg = s.cfg := rfl
@[simp] theorem raiseNmi_sbx (code : Nat) : (raiseNmi s code).sbx = s.sbx := rfl
@[simp] theorem raiseNmi_bst (code : Nat) : (raiseNmi s code).bst = s.bst := rfl
@[simp] theorem raiseNmi_dbg (code : Nat) : (raiseNmi s code).dbg = s.dbg := rfl
@[simp] theorem raiseNmi_free (code : Nat) : (raiseNmi s code).free = s.free := rfl
@[simp] theorem raiseNmi_pending (code : Nat) : (raiseNmi s code).pending = s.pending := rfl
@[simp] theorem fld_raiseNmi (code : Nat) (g : Fld) : fld (raiseNmi s code) g = fld s g := rfl

/-! ### latchUpper -/
@[simp] theorem latchUpper_regs (off v : Nat) : (latchUpper s off v).regs = s.regs := rfl
@[simp] theorem latchUpper_evq (off v : Nat) : (latchUpper s off v).evq = s.evq := rfl
@[simp] theorem latchUpper_log (off v : Nat) : (latchUpper s off v).log = s.log := rfl
@[simp] theorem latchUpper_windows (off v : Nat) : (latchUpper s off v).windows = s.windows := rfl
@[simp] theorem latchUpper_mirrorQ (off v : Nat) : (latchUpper s off v).mirrorQ = s.mirrorQ := rfl
@[simp] theorem latchUpper_axes (off v : Nat) : (latchUpper s off v).axes = s.axes := rfl
@[simp] theorem latchUpper_encs (off v : Nat) : (latchUpper s off v).encs = s.encs := rfl
@[simp] theorem latchUpper_rt (off v : Nat) : (latchUpper s off v).rt = s.rt := rfl
@[simp] theorem latchUpper_tt (off v : Nat) : (latchUpper s off v).tt = s.tt := rfl
@[simp] theorem latchUpper_dsp (off v : Nat) : (latchUpper s off v).dsp = s.dsp := rfl
@[simp] theorem latchUpper_ports (off v : Nat) : (latchUpper s off v).ports = s.ports := rfl
@[simp] theorem latchUpper_node (off v : Nat) : (latchUpper s off v).node = s.node := rfl
@[simp] theorem latchUpper_modules (off v : Nat) : (latchUpper s off v).modules = s.modules := rfl
@[simp] theorem latchUpper_lanes (off v : Nat) : (latchUpper s off v).lanes = s.lanes := rfl
@[simp] theorem latchUpper_regions (off v : Nat) : (latchUpper s off v).regions = s.regions := rfl
@[simp] theorem latchUpper_fab (off v : Nat) : (latchUpper s off v).fab = s.fab := rfl
@[simp] theorem latchUpper_engines (off v : Nat) : (latchUpper s off v).engines = s.engines := rfl
@[simp] theorem latchUpper_clk (off v : Nat) : (latchUpper s off v).clk = s.clk := rfl
@[simp] theorem latchUpper_pwr (off v : Nat) : (latchUpper s off v).pwr = s.pwr := rfl
@[simp] theorem latchUpper_wire (off v : Nat) : (latchUpper s off v).wire = s.wire := rfl
@[simp] theorem latchUpper_mem (off v : Nat) : (latchUpper s off v).mem = s.mem := rfl
@[simp] theorem latchUpper_cache (off v : Nat) : (latchUpper s off v).cache = s.cache := rfl
@[simp] theorem latchUpper_hwn (off v : Nat) : (latchUpper s off v).hwn = s.hwn := rfl
@[simp] theorem latchUpper_enc (off v : Nat) : (latchUpper s off v).enc = s.enc := rfl
@[simp] theorem latchUpper_stk (off v : Nat) : (latchUpper s off v).stk = s.stk := rfl
@[simp] theorem latchUpper_thm (off v : Nat) : (latchUpper s off v).thm = s.thm := rfl
@[simp] theorem latchUpper_iob (off v : Nat) : (latchUpper s off v).iob = s.iob := rfl
@[simp] theorem latchUpper_hostWr (off v : Nat) : (latchUpper s off v).hostWr = s.hostWr := rfl
@[simp] theorem latchUpper_rsps (off v : Nat) : (latchUpper s off v).rsps = s.rsps := rfl
@[simp] theorem latchUpper_pci (off v : Nat) : (latchUpper s off v).pci = s.pci := rfl
@[simp] theorem latchUpper_rst (off v : Nat) : (latchUpper s off v).rst = s.rst := rfl
@[simp] theorem latchUpper_cfg (off v : Nat) : (latchUpper s off v).cfg = s.cfg := rfl
@[simp] theorem latchUpper_sbx (off v : Nat) : (latchUpper s off v).sbx = s.sbx := rfl
@[simp] theorem latchUpper_bst (off v : Nat) : (latchUpper s off v).bst = s.bst := rfl
@[simp] theorem latchUpper_dbg (off v : Nat) : (latchUpper s off v).dbg = s.dbg := rfl
@[simp] theorem latchUpper_free (off v : Nat) : (latchUpper s off v).free = s.free := rfl
@[simp] theorem latchUpper_pending (off v : Nat) : (latchUpper s off v).pending = s.pending := rfl
@[simp] theorem fld_latchUpper (off v : Nat) (g : Fld) : fld (latchUpper s off v) g = fld s g := rfl

/-! ### setAxis -/
@[simp] theorem setAxis_regs (n : Nat) (x : Axis) : (setAxis s n x).regs = s.regs := rfl
@[simp] theorem setAxis_latch (n : Nat) (x : Axis) : (setAxis s n x).latch = s.latch := rfl
@[simp] theorem setAxis_evq (n : Nat) (x : Axis) : (setAxis s n x).evq = s.evq := rfl
@[simp] theorem setAxis_log (n : Nat) (x : Axis) : (setAxis s n x).log = s.log := rfl
@[simp] theorem setAxis_windows (n : Nat) (x : Axis) : (setAxis s n x).windows = s.windows := rfl
@[simp] theorem setAxis_mirrorQ (n : Nat) (x : Axis) : (setAxis s n x).mirrorQ = s.mirrorQ := rfl
@[simp] theorem setAxis_encs (n : Nat) (x : Axis) : (setAxis s n x).encs = s.encs := rfl
@[simp] theorem setAxis_rt (n : Nat) (x : Axis) : (setAxis s n x).rt = s.rt := rfl
@[simp] theorem setAxis_tt (n : Nat) (x : Axis) : (setAxis s n x).tt = s.tt := rfl
@[simp] theorem setAxis_dsp (n : Nat) (x : Axis) : (setAxis s n x).dsp = s.dsp := rfl
@[simp] theorem setAxis_ports (n : Nat) (x : Axis) : (setAxis s n x).ports = s.ports := rfl
@[simp] theorem setAxis_node (n : Nat) (x : Axis) : (setAxis s n x).node = s.node := rfl
@[simp] theorem setAxis_modules (n : Nat) (x : Axis) : (setAxis s n x).modules = s.modules := rfl
@[simp] theorem setAxis_lanes (n : Nat) (x : Axis) : (setAxis s n x).lanes = s.lanes := rfl
@[simp] theorem setAxis_regions (n : Nat) (x : Axis) : (setAxis s n x).regions = s.regions := rfl
@[simp] theorem setAxis_fab (n : Nat) (x : Axis) : (setAxis s n x).fab = s.fab := rfl
@[simp] theorem setAxis_engines (n : Nat) (x : Axis) : (setAxis s n x).engines = s.engines := rfl
@[simp] theorem setAxis_clk (n : Nat) (x : Axis) : (setAxis s n x).clk = s.clk := rfl
@[simp] theorem setAxis_pwr (n : Nat) (x : Axis) : (setAxis s n x).pwr = s.pwr := rfl
@[simp] theorem setAxis_wire (n : Nat) (x : Axis) : (setAxis s n x).wire = s.wire := rfl
@[simp] theorem setAxis_mem (n : Nat) (x : Axis) : (setAxis s n x).mem = s.mem := rfl
@[simp] theorem setAxis_cache (n : Nat) (x : Axis) : (setAxis s n x).cache = s.cache := rfl
@[simp] theorem setAxis_hwn (n : Nat) (x : Axis) : (setAxis s n x).hwn = s.hwn := rfl
@[simp] theorem setAxis_enc (n : Nat) (x : Axis) : (setAxis s n x).enc = s.enc := rfl
@[simp] theorem setAxis_stk (n : Nat) (x : Axis) : (setAxis s n x).stk = s.stk := rfl
@[simp] theorem setAxis_thm (n : Nat) (x : Axis) : (setAxis s n x).thm = s.thm := rfl
@[simp] theorem setAxis_iob (n : Nat) (x : Axis) : (setAxis s n x).iob = s.iob := rfl
@[simp] theorem setAxis_hostWr (n : Nat) (x : Axis) : (setAxis s n x).hostWr = s.hostWr := rfl
@[simp] theorem setAxis_rsps (n : Nat) (x : Axis) : (setAxis s n x).rsps = s.rsps := rfl
@[simp] theorem setAxis_pci (n : Nat) (x : Axis) : (setAxis s n x).pci = s.pci := rfl
@[simp] theorem setAxis_rst (n : Nat) (x : Axis) : (setAxis s n x).rst = s.rst := rfl
@[simp] theorem setAxis_cfg (n : Nat) (x : Axis) : (setAxis s n x).cfg = s.cfg := rfl
@[simp] theorem setAxis_sbx (n : Nat) (x : Axis) : (setAxis s n x).sbx = s.sbx := rfl
@[simp] theorem setAxis_bst (n : Nat) (x : Axis) : (setAxis s n x).bst = s.bst := rfl
@[simp] theorem setAxis_dbg (n : Nat) (x : Axis) : (setAxis s n x).dbg = s.dbg := rfl
@[simp] theorem setAxis_free (n : Nat) (x : Axis) : (setAxis s n x).free = s.free := rfl
@[simp] theorem setAxis_pending (n : Nat) (x : Axis) : (setAxis s n x).pending = s.pending := rfl
@[simp] theorem fld_setAxis (n : Nat) (x : Axis) (g : Fld) : fld (setAxis s n x) g = fld s g := rfl

/-! ### setEnc -/
@[simp] theorem setEnc_regs (k : Nat) (x : Enc) : (setEnc s k x).regs = s.regs := rfl
@[simp] theorem setEnc_latch (k : Nat) (x : Enc) : (setEnc s k x).latch = s.latch := rfl
@[simp] theorem setEnc_evq (k : Nat) (x : Enc) : (setEnc s k x).evq = s.evq := rfl
@[simp] theorem setEnc_log (k : Nat) (x : Enc) : (setEnc s k x).log = s.log := rfl
@[simp] theorem setEnc_windows (k : Nat) (x : Enc) : (setEnc s k x).windows = s.windows := rfl
@[simp] theorem setEnc_mirrorQ (k : Nat) (x : Enc) : (setEnc s k x).mirrorQ = s.mirrorQ := rfl
@[simp] theorem setEnc_axes (k : Nat) (x : Enc) : (setEnc s k x).axes = s.axes := rfl
@[simp] theorem setEnc_rt (k : Nat) (x : Enc) : (setEnc s k x).rt = s.rt := rfl
@[simp] theorem setEnc_tt (k : Nat) (x : Enc) : (setEnc s k x).tt = s.tt := rfl
@[simp] theorem setEnc_dsp (k : Nat) (x : Enc) : (setEnc s k x).dsp = s.dsp := rfl
@[simp] theorem setEnc_ports (k : Nat) (x : Enc) : (setEnc s k x).ports = s.ports := rfl
@[simp] theorem setEnc_node (k : Nat) (x : Enc) : (setEnc s k x).node = s.node := rfl
@[simp] theorem setEnc_modules (k : Nat) (x : Enc) : (setEnc s k x).modules = s.modules := rfl
@[simp] theorem setEnc_lanes (k : Nat) (x : Enc) : (setEnc s k x).lanes = s.lanes := rfl
@[simp] theorem setEnc_regions (k : Nat) (x : Enc) : (setEnc s k x).regions = s.regions := rfl
@[simp] theorem setEnc_fab (k : Nat) (x : Enc) : (setEnc s k x).fab = s.fab := rfl
@[simp] theorem setEnc_engines (k : Nat) (x : Enc) : (setEnc s k x).engines = s.engines := rfl
@[simp] theorem setEnc_clk (k : Nat) (x : Enc) : (setEnc s k x).clk = s.clk := rfl
@[simp] theorem setEnc_pwr (k : Nat) (x : Enc) : (setEnc s k x).pwr = s.pwr := rfl
@[simp] theorem setEnc_wire (k : Nat) (x : Enc) : (setEnc s k x).wire = s.wire := rfl
@[simp] theorem setEnc_mem (k : Nat) (x : Enc) : (setEnc s k x).mem = s.mem := rfl
@[simp] theorem setEnc_cache (k : Nat) (x : Enc) : (setEnc s k x).cache = s.cache := rfl
@[simp] theorem setEnc_hwn (k : Nat) (x : Enc) : (setEnc s k x).hwn = s.hwn := rfl
@[simp] theorem setEnc_enc (k : Nat) (x : Enc) : (setEnc s k x).enc = s.enc := rfl
@[simp] theorem setEnc_stk (k : Nat) (x : Enc) : (setEnc s k x).stk = s.stk := rfl
@[simp] theorem setEnc_thm (k : Nat) (x : Enc) : (setEnc s k x).thm = s.thm := rfl
@[simp] theorem setEnc_iob (k : Nat) (x : Enc) : (setEnc s k x).iob = s.iob := rfl
@[simp] theorem setEnc_hostWr (k : Nat) (x : Enc) : (setEnc s k x).hostWr = s.hostWr := rfl
@[simp] theorem setEnc_rsps (k : Nat) (x : Enc) : (setEnc s k x).rsps = s.rsps := rfl
@[simp] theorem setEnc_pci (k : Nat) (x : Enc) : (setEnc s k x).pci = s.pci := rfl
@[simp] theorem setEnc_rst (k : Nat) (x : Enc) : (setEnc s k x).rst = s.rst := rfl
@[simp] theorem setEnc_cfg (k : Nat) (x : Enc) : (setEnc s k x).cfg = s.cfg := rfl
@[simp] theorem setEnc_sbx (k : Nat) (x : Enc) : (setEnc s k x).sbx = s.sbx := rfl
@[simp] theorem setEnc_bst (k : Nat) (x : Enc) : (setEnc s k x).bst = s.bst := rfl
@[simp] theorem setEnc_dbg (k : Nat) (x : Enc) : (setEnc s k x).dbg = s.dbg := rfl
@[simp] theorem setEnc_free (k : Nat) (x : Enc) : (setEnc s k x).free = s.free := rfl
@[simp] theorem setEnc_pending (k : Nat) (x : Enc) : (setEnc s k x).pending = s.pending := rfl
@[simp] theorem fld_setEnc (k : Nat) (x : Enc) (g : Fld) : fld (setEnc s k x) g = fld s g := rfl

/-! ### setTt -/
@[simp] theorem setTt_regs (x : Timetable) : (setTt s x).regs = s.regs := rfl
@[simp] theorem setTt_latch (x : Timetable) : (setTt s x).latch = s.latch := rfl
@[simp] theorem setTt_evq (x : Timetable) : (setTt s x).evq = s.evq := rfl
@[simp] theorem setTt_log (x : Timetable) : (setTt s x).log = s.log := rfl
@[simp] theorem setTt_windows (x : Timetable) : (setTt s x).windows = s.windows := rfl
@[simp] theorem setTt_mirrorQ (x : Timetable) : (setTt s x).mirrorQ = s.mirrorQ := rfl
@[simp] theorem setTt_axes (x : Timetable) : (setTt s x).axes = s.axes := rfl
@[simp] theorem setTt_encs (x : Timetable) : (setTt s x).encs = s.encs := rfl
@[simp] theorem setTt_rt (x : Timetable) : (setTt s x).rt = s.rt := rfl
@[simp] theorem setTt_dsp (x : Timetable) : (setTt s x).dsp = s.dsp := rfl
@[simp] theorem setTt_ports (x : Timetable) : (setTt s x).ports = s.ports := rfl
@[simp] theorem setTt_node (x : Timetable) : (setTt s x).node = s.node := rfl
@[simp] theorem setTt_modules (x : Timetable) : (setTt s x).modules = s.modules := rfl
@[simp] theorem setTt_lanes (x : Timetable) : (setTt s x).lanes = s.lanes := rfl
@[simp] theorem setTt_regions (x : Timetable) : (setTt s x).regions = s.regions := rfl
@[simp] theorem setTt_fab (x : Timetable) : (setTt s x).fab = s.fab := rfl
@[simp] theorem setTt_engines (x : Timetable) : (setTt s x).engines = s.engines := rfl
@[simp] theorem setTt_clk (x : Timetable) : (setTt s x).clk = s.clk := rfl
@[simp] theorem setTt_pwr (x : Timetable) : (setTt s x).pwr = s.pwr := rfl
@[simp] theorem setTt_wire (x : Timetable) : (setTt s x).wire = s.wire := rfl
@[simp] theorem setTt_mem (x : Timetable) : (setTt s x).mem = s.mem := rfl
@[simp] theorem setTt_cache (x : Timetable) : (setTt s x).cache = s.cache := rfl
@[simp] theorem setTt_hwn (x : Timetable) : (setTt s x).hwn = s.hwn := rfl
@[simp] theorem setTt_enc (x : Timetable) : (setTt s x).enc = s.enc := rfl
@[simp] theorem setTt_stk (x : Timetable) : (setTt s x).stk = s.stk := rfl
@[simp] theorem setTt_thm (x : Timetable) : (setTt s x).thm = s.thm := rfl
@[simp] theorem setTt_iob (x : Timetable) : (setTt s x).iob = s.iob := rfl
@[simp] theorem setTt_hostWr (x : Timetable) : (setTt s x).hostWr = s.hostWr := rfl
@[simp] theorem setTt_rsps (x : Timetable) : (setTt s x).rsps = s.rsps := rfl
@[simp] theorem setTt_pci (x : Timetable) : (setTt s x).pci = s.pci := rfl
@[simp] theorem setTt_rst (x : Timetable) : (setTt s x).rst = s.rst := rfl
@[simp] theorem setTt_cfg (x : Timetable) : (setTt s x).cfg = s.cfg := rfl
@[simp] theorem setTt_sbx (x : Timetable) : (setTt s x).sbx = s.sbx := rfl
@[simp] theorem setTt_bst (x : Timetable) : (setTt s x).bst = s.bst := rfl
@[simp] theorem setTt_dbg (x : Timetable) : (setTt s x).dbg = s.dbg := rfl
@[simp] theorem setTt_free (x : Timetable) : (setTt s x).free = s.free := rfl
@[simp] theorem setTt_pending (x : Timetable) : (setTt s x).pending = s.pending := rfl
@[simp] theorem fld_setTt (x : Timetable) (g : Fld) : fld (setTt s x) g = fld s g := rfl

/-! ### setDsp -/
@[simp] theorem setDsp_regs (x : Dispatch) : (setDsp s x).regs = s.regs := rfl
@[simp] theorem setDsp_latch (x : Dispatch) : (setDsp s x).latch = s.latch := rfl
@[simp] theorem setDsp_evq (x : Dispatch) : (setDsp s x).evq = s.evq := rfl
@[simp] theorem setDsp_log (x : Dispatch) : (setDsp s x).log = s.log := rfl
@[simp] theorem setDsp_windows (x : Dispatch) : (setDsp s x).windows = s.windows := rfl
@[simp] theorem setDsp_mirrorQ (x : Dispatch) : (setDsp s x).mirrorQ = s.mirrorQ := rfl
@[simp] theorem setDsp_axes (x : Dispatch) : (setDsp s x).axes = s.axes := rfl
@[simp] theorem setDsp_encs (x : Dispatch) : (setDsp s x).encs = s.encs := rfl
@[simp] theorem setDsp_rt (x : Dispatch) : (setDsp s x).rt = s.rt := rfl
@[simp] theorem setDsp_tt (x : Dispatch) : (setDsp s x).tt = s.tt := rfl
@[simp] theorem setDsp_ports (x : Dispatch) : (setDsp s x).ports = s.ports := rfl
@[simp] theorem setDsp_node (x : Dispatch) : (setDsp s x).node = s.node := rfl
@[simp] theorem setDsp_modules (x : Dispatch) : (setDsp s x).modules = s.modules := rfl
@[simp] theorem setDsp_lanes (x : Dispatch) : (setDsp s x).lanes = s.lanes := rfl
@[simp] theorem setDsp_regions (x : Dispatch) : (setDsp s x).regions = s.regions := rfl
@[simp] theorem setDsp_fab (x : Dispatch) : (setDsp s x).fab = s.fab := rfl
@[simp] theorem setDsp_engines (x : Dispatch) : (setDsp s x).engines = s.engines := rfl
@[simp] theorem setDsp_clk (x : Dispatch) : (setDsp s x).clk = s.clk := rfl
@[simp] theorem setDsp_pwr (x : Dispatch) : (setDsp s x).pwr = s.pwr := rfl
@[simp] theorem setDsp_wire (x : Dispatch) : (setDsp s x).wire = s.wire := rfl
@[simp] theorem setDsp_mem (x : Dispatch) : (setDsp s x).mem = s.mem := rfl
@[simp] theorem setDsp_cache (x : Dispatch) : (setDsp s x).cache = s.cache := rfl
@[simp] theorem setDsp_hwn (x : Dispatch) : (setDsp s x).hwn = s.hwn := rfl
@[simp] theorem setDsp_enc (x : Dispatch) : (setDsp s x).enc = s.enc := rfl
@[simp] theorem setDsp_stk (x : Dispatch) : (setDsp s x).stk = s.stk := rfl
@[simp] theorem setDsp_thm (x : Dispatch) : (setDsp s x).thm = s.thm := rfl
@[simp] theorem setDsp_iob (x : Dispatch) : (setDsp s x).iob = s.iob := rfl
@[simp] theorem setDsp_hostWr (x : Dispatch) : (setDsp s x).hostWr = s.hostWr := rfl
@[simp] theorem setDsp_rsps (x : Dispatch) : (setDsp s x).rsps = s.rsps := rfl
@[simp] theorem setDsp_pci (x : Dispatch) : (setDsp s x).pci = s.pci := rfl
@[simp] theorem setDsp_rst (x : Dispatch) : (setDsp s x).rst = s.rst := rfl
@[simp] theorem setDsp_cfg (x : Dispatch) : (setDsp s x).cfg = s.cfg := rfl
@[simp] theorem setDsp_sbx (x : Dispatch) : (setDsp s x).sbx = s.sbx := rfl
@[simp] theorem setDsp_bst (x : Dispatch) : (setDsp s x).bst = s.bst := rfl
@[simp] theorem setDsp_dbg (x : Dispatch) : (setDsp s x).dbg = s.dbg := rfl
@[simp] theorem setDsp_free (x : Dispatch) : (setDsp s x).free = s.free := rfl
@[simp] theorem setDsp_pending (x : Dispatch) : (setDsp s x).pending = s.pending := rfl
@[simp] theorem fld_setDsp (x : Dispatch) (g : Fld) : fld (setDsp s x) g = fld s g := rfl

/-! ### setPort -/
@[simp] theorem setPort_regs (p : Nat) (x : Port) : (setPort s p x).regs = s.regs := rfl
@[simp] theorem setPort_latch (p : Nat) (x : Port) : (setPort s p x).latch = s.latch := rfl
@[simp] theorem setPort_evq (p : Nat) (x : Port) : (setPort s p x).evq = s.evq := rfl
@[simp] theorem setPort_log (p : Nat) (x : Port) : (setPort s p x).log = s.log := rfl
@[simp] theorem setPort_windows (p : Nat) (x : Port) : (setPort s p x).windows = s.windows := rfl
@[simp] theorem setPort_mirrorQ (p : Nat) (x : Port) : (setPort s p x).mirrorQ = s.mirrorQ := rfl
@[simp] theorem setPort_axes (p : Nat) (x : Port) : (setPort s p x).axes = s.axes := rfl
@[simp] theorem setPort_encs (p : Nat) (x : Port) : (setPort s p x).encs = s.encs := rfl
@[simp] theorem setPort_rt (p : Nat) (x : Port) : (setPort s p x).rt = s.rt := rfl
@[simp] theorem setPort_tt (p : Nat) (x : Port) : (setPort s p x).tt = s.tt := rfl
@[simp] theorem setPort_dsp (p : Nat) (x : Port) : (setPort s p x).dsp = s.dsp := rfl
@[simp] theorem setPort_node (p : Nat) (x : Port) : (setPort s p x).node = s.node := rfl
@[simp] theorem setPort_modules (p : Nat) (x : Port) : (setPort s p x).modules = s.modules := rfl
@[simp] theorem setPort_lanes (p : Nat) (x : Port) : (setPort s p x).lanes = s.lanes := rfl
@[simp] theorem setPort_regions (p : Nat) (x : Port) : (setPort s p x).regions = s.regions := rfl
@[simp] theorem setPort_fab (p : Nat) (x : Port) : (setPort s p x).fab = s.fab := rfl
@[simp] theorem setPort_engines (p : Nat) (x : Port) : (setPort s p x).engines = s.engines := rfl
@[simp] theorem setPort_clk (p : Nat) (x : Port) : (setPort s p x).clk = s.clk := rfl
@[simp] theorem setPort_pwr (p : Nat) (x : Port) : (setPort s p x).pwr = s.pwr := rfl
@[simp] theorem setPort_wire (p : Nat) (x : Port) : (setPort s p x).wire = s.wire := rfl
@[simp] theorem setPort_mem (p : Nat) (x : Port) : (setPort s p x).mem = s.mem := rfl
@[simp] theorem setPort_cache (p : Nat) (x : Port) : (setPort s p x).cache = s.cache := rfl
@[simp] theorem setPort_hwn (p : Nat) (x : Port) : (setPort s p x).hwn = s.hwn := rfl
@[simp] theorem setPort_enc (p : Nat) (x : Port) : (setPort s p x).enc = s.enc := rfl
@[simp] theorem setPort_stk (p : Nat) (x : Port) : (setPort s p x).stk = s.stk := rfl
@[simp] theorem setPort_thm (p : Nat) (x : Port) : (setPort s p x).thm = s.thm := rfl
@[simp] theorem setPort_iob (p : Nat) (x : Port) : (setPort s p x).iob = s.iob := rfl
@[simp] theorem setPort_hostWr (p : Nat) (x : Port) : (setPort s p x).hostWr = s.hostWr := rfl
@[simp] theorem setPort_rsps (p : Nat) (x : Port) : (setPort s p x).rsps = s.rsps := rfl
@[simp] theorem setPort_pci (p : Nat) (x : Port) : (setPort s p x).pci = s.pci := rfl
@[simp] theorem setPort_rst (p : Nat) (x : Port) : (setPort s p x).rst = s.rst := rfl
@[simp] theorem setPort_cfg (p : Nat) (x : Port) : (setPort s p x).cfg = s.cfg := rfl
@[simp] theorem setPort_sbx (p : Nat) (x : Port) : (setPort s p x).sbx = s.sbx := rfl
@[simp] theorem setPort_bst (p : Nat) (x : Port) : (setPort s p x).bst = s.bst := rfl
@[simp] theorem setPort_dbg (p : Nat) (x : Port) : (setPort s p x).dbg = s.dbg := rfl
@[simp] theorem setPort_free (p : Nat) (x : Port) : (setPort s p x).free = s.free := rfl
@[simp] theorem setPort_pending (p : Nat) (x : Port) : (setPort s p x).pending = s.pending := rfl
@[simp] theorem fld_setPort (p : Nat) (x : Port) (g : Fld) : fld (setPort s p x) g = fld s g := rfl

/-! ### setModule -/
@[simp] theorem setModule_regs (p pos : Nat) (x : Module) : (setModule s p pos x).regs = s.regs := rfl
@[simp] theorem setModule_latch (p pos : Nat) (x : Module) : (setModule s p pos x).latch = s.latch := rfl
@[simp] theorem setModule_evq (p pos : Nat) (x : Module) : (setModule s p pos x).evq = s.evq := rfl
@[simp] theorem setModule_log (p pos : Nat) (x : Module) : (setModule s p pos x).log = s.log := rfl
@[simp] theorem setModule_windows (p pos : Nat) (x : Module) : (setModule s p pos x).windows = s.windows := rfl
@[simp] theorem setModule_mirrorQ (p pos : Nat) (x : Module) : (setModule s p pos x).mirrorQ = s.mirrorQ := rfl
@[simp] theorem setModule_axes (p pos : Nat) (x : Module) : (setModule s p pos x).axes = s.axes := rfl
@[simp] theorem setModule_encs (p pos : Nat) (x : Module) : (setModule s p pos x).encs = s.encs := rfl
@[simp] theorem setModule_rt (p pos : Nat) (x : Module) : (setModule s p pos x).rt = s.rt := rfl
@[simp] theorem setModule_tt (p pos : Nat) (x : Module) : (setModule s p pos x).tt = s.tt := rfl
@[simp] theorem setModule_dsp (p pos : Nat) (x : Module) : (setModule s p pos x).dsp = s.dsp := rfl
@[simp] theorem setModule_ports (p pos : Nat) (x : Module) : (setModule s p pos x).ports = s.ports := rfl
@[simp] theorem setModule_node (p pos : Nat) (x : Module) : (setModule s p pos x).node = s.node := rfl
@[simp] theorem setModule_lanes (p pos : Nat) (x : Module) : (setModule s p pos x).lanes = s.lanes := rfl
@[simp] theorem setModule_regions (p pos : Nat) (x : Module) : (setModule s p pos x).regions = s.regions := rfl
@[simp] theorem setModule_fab (p pos : Nat) (x : Module) : (setModule s p pos x).fab = s.fab := rfl
@[simp] theorem setModule_engines (p pos : Nat) (x : Module) : (setModule s p pos x).engines = s.engines := rfl
@[simp] theorem setModule_clk (p pos : Nat) (x : Module) : (setModule s p pos x).clk = s.clk := rfl
@[simp] theorem setModule_pwr (p pos : Nat) (x : Module) : (setModule s p pos x).pwr = s.pwr := rfl
@[simp] theorem setModule_wire (p pos : Nat) (x : Module) : (setModule s p pos x).wire = s.wire := rfl
@[simp] theorem setModule_mem (p pos : Nat) (x : Module) : (setModule s p pos x).mem = s.mem := rfl
@[simp] theorem setModule_cache (p pos : Nat) (x : Module) : (setModule s p pos x).cache = s.cache := rfl
@[simp] theorem setModule_hwn (p pos : Nat) (x : Module) : (setModule s p pos x).hwn = s.hwn := rfl
@[simp] theorem setModule_enc (p pos : Nat) (x : Module) : (setModule s p pos x).enc = s.enc := rfl
@[simp] theorem setModule_stk (p pos : Nat) (x : Module) : (setModule s p pos x).stk = s.stk := rfl
@[simp] theorem setModule_thm (p pos : Nat) (x : Module) : (setModule s p pos x).thm = s.thm := rfl
@[simp] theorem setModule_iob (p pos : Nat) (x : Module) : (setModule s p pos x).iob = s.iob := rfl
@[simp] theorem setModule_hostWr (p pos : Nat) (x : Module) : (setModule s p pos x).hostWr = s.hostWr := rfl
@[simp] theorem setModule_rsps (p pos : Nat) (x : Module) : (setModule s p pos x).rsps = s.rsps := rfl
@[simp] theorem setModule_pci (p pos : Nat) (x : Module) : (setModule s p pos x).pci = s.pci := rfl
@[simp] theorem setModule_rst (p pos : Nat) (x : Module) : (setModule s p pos x).rst = s.rst := rfl
@[simp] theorem setModule_cfg (p pos : Nat) (x : Module) : (setModule s p pos x).cfg = s.cfg := rfl
@[simp] theorem setModule_sbx (p pos : Nat) (x : Module) : (setModule s p pos x).sbx = s.sbx := rfl
@[simp] theorem setModule_bst (p pos : Nat) (x : Module) : (setModule s p pos x).bst = s.bst := rfl
@[simp] theorem setModule_dbg (p pos : Nat) (x : Module) : (setModule s p pos x).dbg = s.dbg := rfl
@[simp] theorem setModule_free (p pos : Nat) (x : Module) : (setModule s p pos x).free = s.free := rfl
@[simp] theorem setModule_pending (p pos : Nat) (x : Module) : (setModule s p pos x).pending = s.pending := rfl
@[simp] theorem fld_setModule (p pos : Nat) (x : Module) (g : Fld) : fld (setModule s p pos x) g = fld s g := rfl

/-! ### setLane -/
@[simp] theorem setLane_regs (n : Nat) (x : Lane) : (setLane s n x).regs = s.regs := rfl
@[simp] theorem setLane_latch (n : Nat) (x : Lane) : (setLane s n x).latch = s.latch := rfl
@[simp] theorem setLane_evq (n : Nat) (x : Lane) : (setLane s n x).evq = s.evq := rfl
@[simp] theorem setLane_log (n : Nat) (x : Lane) : (setLane s n x).log = s.log := rfl
@[simp] theorem setLane_windows (n : Nat) (x : Lane) : (setLane s n x).windows = s.windows := rfl
@[simp] theorem setLane_mirrorQ (n : Nat) (x : Lane) : (setLane s n x).mirrorQ = s.mirrorQ := rfl
@[simp] theorem setLane_axes (n : Nat) (x : Lane) : (setLane s n x).axes = s.axes := rfl
@[simp] theorem setLane_encs (n : Nat) (x : Lane) : (setLane s n x).encs = s.encs := rfl
@[simp] theorem setLane_rt (n : Nat) (x : Lane) : (setLane s n x).rt = s.rt := rfl
@[simp] theorem setLane_tt (n : Nat) (x : Lane) : (setLane s n x).tt = s.tt := rfl
@[simp] theorem setLane_dsp (n : Nat) (x : Lane) : (setLane s n x).dsp = s.dsp := rfl
@[simp] theorem setLane_ports (n : Nat) (x : Lane) : (setLane s n x).ports = s.ports := rfl
@[simp] theorem setLane_node (n : Nat) (x : Lane) : (setLane s n x).node = s.node := rfl
@[simp] theorem setLane_modules (n : Nat) (x : Lane) : (setLane s n x).modules = s.modules := rfl
@[simp] theorem setLane_regions (n : Nat) (x : Lane) : (setLane s n x).regions = s.regions := rfl
@[simp] theorem setLane_fab (n : Nat) (x : Lane) : (setLane s n x).fab = s.fab := rfl
@[simp] theorem setLane_engines (n : Nat) (x : Lane) : (setLane s n x).engines = s.engines := rfl
@[simp] theorem setLane_clk (n : Nat) (x : Lane) : (setLane s n x).clk = s.clk := rfl
@[simp] theorem setLane_pwr (n : Nat) (x : Lane) : (setLane s n x).pwr = s.pwr := rfl
@[simp] theorem setLane_wire (n : Nat) (x : Lane) : (setLane s n x).wire = s.wire := rfl
@[simp] theorem setLane_mem (n : Nat) (x : Lane) : (setLane s n x).mem = s.mem := rfl
@[simp] theorem setLane_cache (n : Nat) (x : Lane) : (setLane s n x).cache = s.cache := rfl
@[simp] theorem setLane_hwn (n : Nat) (x : Lane) : (setLane s n x).hwn = s.hwn := rfl
@[simp] theorem setLane_enc (n : Nat) (x : Lane) : (setLane s n x).enc = s.enc := rfl
@[simp] theorem setLane_stk (n : Nat) (x : Lane) : (setLane s n x).stk = s.stk := rfl
@[simp] theorem setLane_thm (n : Nat) (x : Lane) : (setLane s n x).thm = s.thm := rfl
@[simp] theorem setLane_iob (n : Nat) (x : Lane) : (setLane s n x).iob = s.iob := rfl
@[simp] theorem setLane_hostWr (n : Nat) (x : Lane) : (setLane s n x).hostWr = s.hostWr := rfl
@[simp] theorem setLane_rsps (n : Nat) (x : Lane) : (setLane s n x).rsps = s.rsps := rfl
@[simp] theorem setLane_pci (n : Nat) (x : Lane) : (setLane s n x).pci = s.pci := rfl
@[simp] theorem setLane_rst (n : Nat) (x : Lane) : (setLane s n x).rst = s.rst := rfl
@[simp] theorem setLane_cfg (n : Nat) (x : Lane) : (setLane s n x).cfg = s.cfg := rfl
@[simp] theorem setLane_sbx (n : Nat) (x : Lane) : (setLane s n x).sbx = s.sbx := rfl
@[simp] theorem setLane_bst (n : Nat) (x : Lane) : (setLane s n x).bst = s.bst := rfl
@[simp] theorem setLane_dbg (n : Nat) (x : Lane) : (setLane s n x).dbg = s.dbg := rfl
@[simp] theorem setLane_free (n : Nat) (x : Lane) : (setLane s n x).free = s.free := rfl
@[simp] theorem setLane_pending (n : Nat) (x : Lane) : (setLane s n x).pending = s.pending := rfl
@[simp] theorem fld_setLane (n : Nat) (x : Lane) (g : Fld) : fld (setLane s n x) g = fld s g := rfl

/-! ### setRegion -/
@[simp] theorem setRegion_regs (r : Nat) (x : Region) : (setRegion s r x).regs = s.regs := rfl
@[simp] theorem setRegion_latch (r : Nat) (x : Region) : (setRegion s r x).latch = s.latch := rfl
@[simp] theorem setRegion_evq (r : Nat) (x : Region) : (setRegion s r x).evq = s.evq := rfl
@[simp] theorem setRegion_log (r : Nat) (x : Region) : (setRegion s r x).log = s.log := rfl
@[simp] theorem setRegion_windows (r : Nat) (x : Region) : (setRegion s r x).windows = s.windows := rfl
@[simp] theorem setRegion_mirrorQ (r : Nat) (x : Region) : (setRegion s r x).mirrorQ = s.mirrorQ := rfl
@[simp] theorem setRegion_axes (r : Nat) (x : Region) : (setRegion s r x).axes = s.axes := rfl
@[simp] theorem setRegion_encs (r : Nat) (x : Region) : (setRegion s r x).encs = s.encs := rfl
@[simp] theorem setRegion_rt (r : Nat) (x : Region) : (setRegion s r x).rt = s.rt := rfl
@[simp] theorem setRegion_tt (r : Nat) (x : Region) : (setRegion s r x).tt = s.tt := rfl
@[simp] theorem setRegion_dsp (r : Nat) (x : Region) : (setRegion s r x).dsp = s.dsp := rfl
@[simp] theorem setRegion_ports (r : Nat) (x : Region) : (setRegion s r x).ports = s.ports := rfl
@[simp] theorem setRegion_node (r : Nat) (x : Region) : (setRegion s r x).node = s.node := rfl
@[simp] theorem setRegion_modules (r : Nat) (x : Region) : (setRegion s r x).modules = s.modules := rfl
@[simp] theorem setRegion_lanes (r : Nat) (x : Region) : (setRegion s r x).lanes = s.lanes := rfl
@[simp] theorem setRegion_fab (r : Nat) (x : Region) : (setRegion s r x).fab = s.fab := rfl
@[simp] theorem setRegion_engines (r : Nat) (x : Region) : (setRegion s r x).engines = s.engines := rfl
@[simp] theorem setRegion_clk (r : Nat) (x : Region) : (setRegion s r x).clk = s.clk := rfl
@[simp] theorem setRegion_pwr (r : Nat) (x : Region) : (setRegion s r x).pwr = s.pwr := rfl
@[simp] theorem setRegion_wire (r : Nat) (x : Region) : (setRegion s r x).wire = s.wire := rfl
@[simp] theorem setRegion_mem (r : Nat) (x : Region) : (setRegion s r x).mem = s.mem := rfl
@[simp] theorem setRegion_cache (r : Nat) (x : Region) : (setRegion s r x).cache = s.cache := rfl
@[simp] theorem setRegion_hwn (r : Nat) (x : Region) : (setRegion s r x).hwn = s.hwn := rfl
@[simp] theorem setRegion_enc (r : Nat) (x : Region) : (setRegion s r x).enc = s.enc := rfl
@[simp] theorem setRegion_stk (r : Nat) (x : Region) : (setRegion s r x).stk = s.stk := rfl
@[simp] theorem setRegion_thm (r : Nat) (x : Region) : (setRegion s r x).thm = s.thm := rfl
@[simp] theorem setRegion_iob (r : Nat) (x : Region) : (setRegion s r x).iob = s.iob := rfl
@[simp] theorem setRegion_hostWr (r : Nat) (x : Region) : (setRegion s r x).hostWr = s.hostWr := rfl
@[simp] theorem setRegion_rsps (r : Nat) (x : Region) : (setRegion s r x).rsps = s.rsps := rfl
@[simp] theorem setRegion_pci (r : Nat) (x : Region) : (setRegion s r x).pci = s.pci := rfl
@[simp] theorem setRegion_rst (r : Nat) (x : Region) : (setRegion s r x).rst = s.rst := rfl
@[simp] theorem setRegion_cfg (r : Nat) (x : Region) : (setRegion s r x).cfg = s.cfg := rfl
@[simp] theorem setRegion_sbx (r : Nat) (x : Region) : (setRegion s r x).sbx = s.sbx := rfl
@[simp] theorem setRegion_bst (r : Nat) (x : Region) : (setRegion s r x).bst = s.bst := rfl
@[simp] theorem setRegion_dbg (r : Nat) (x : Region) : (setRegion s r x).dbg = s.dbg := rfl
@[simp] theorem setRegion_free (r : Nat) (x : Region) : (setRegion s r x).free = s.free := rfl
@[simp] theorem setRegion_pending (r : Nat) (x : Region) : (setRegion s r x).pending = s.pending := rfl
@[simp] theorem fld_setRegion (r : Nat) (x : Region) (g : Fld) : fld (setRegion s r x) g = fld s g := rfl

/-! ### setFab -/
@[simp] theorem setFab_regs (x : Fabric) : (setFab s x).regs = s.regs := rfl
@[simp] theorem setFab_latch (x : Fabric) : (setFab s x).latch = s.latch := rfl
@[simp] theorem setFab_evq (x : Fabric) : (setFab s x).evq = s.evq := rfl
@[simp] theorem setFab_log (x : Fabric) : (setFab s x).log = s.log := rfl
@[simp] theorem setFab_windows (x : Fabric) : (setFab s x).windows = s.windows := rfl
@[simp] theorem setFab_mirrorQ (x : Fabric) : (setFab s x).mirrorQ = s.mirrorQ := rfl
@[simp] theorem setFab_axes (x : Fabric) : (setFab s x).axes = s.axes := rfl
@[simp] theorem setFab_encs (x : Fabric) : (setFab s x).encs = s.encs := rfl
@[simp] theorem setFab_rt (x : Fabric) : (setFab s x).rt = s.rt := rfl
@[simp] theorem setFab_tt (x : Fabric) : (setFab s x).tt = s.tt := rfl
@[simp] theorem setFab_dsp (x : Fabric) : (setFab s x).dsp = s.dsp := rfl
@[simp] theorem setFab_ports (x : Fabric) : (setFab s x).ports = s.ports := rfl
@[simp] theorem setFab_node (x : Fabric) : (setFab s x).node = s.node := rfl
@[simp] theorem setFab_modules (x : Fabric) : (setFab s x).modules = s.modules := rfl
@[simp] theorem setFab_lanes (x : Fabric) : (setFab s x).lanes = s.lanes := rfl
@[simp] theorem setFab_regions (x : Fabric) : (setFab s x).regions = s.regions := rfl
@[simp] theorem setFab_engines (x : Fabric) : (setFab s x).engines = s.engines := rfl
@[simp] theorem setFab_clk (x : Fabric) : (setFab s x).clk = s.clk := rfl
@[simp] theorem setFab_pwr (x : Fabric) : (setFab s x).pwr = s.pwr := rfl
@[simp] theorem setFab_wire (x : Fabric) : (setFab s x).wire = s.wire := rfl
@[simp] theorem setFab_mem (x : Fabric) : (setFab s x).mem = s.mem := rfl
@[simp] theorem setFab_cache (x : Fabric) : (setFab s x).cache = s.cache := rfl
@[simp] theorem setFab_hwn (x : Fabric) : (setFab s x).hwn = s.hwn := rfl
@[simp] theorem setFab_enc (x : Fabric) : (setFab s x).enc = s.enc := rfl
@[simp] theorem setFab_stk (x : Fabric) : (setFab s x).stk = s.stk := rfl
@[simp] theorem setFab_thm (x : Fabric) : (setFab s x).thm = s.thm := rfl
@[simp] theorem setFab_iob (x : Fabric) : (setFab s x).iob = s.iob := rfl
@[simp] theorem setFab_hostWr (x : Fabric) : (setFab s x).hostWr = s.hostWr := rfl
@[simp] theorem setFab_rsps (x : Fabric) : (setFab s x).rsps = s.rsps := rfl
@[simp] theorem setFab_pci (x : Fabric) : (setFab s x).pci = s.pci := rfl
@[simp] theorem setFab_rst (x : Fabric) : (setFab s x).rst = s.rst := rfl
@[simp] theorem setFab_cfg (x : Fabric) : (setFab s x).cfg = s.cfg := rfl
@[simp] theorem setFab_sbx (x : Fabric) : (setFab s x).sbx = s.sbx := rfl
@[simp] theorem setFab_bst (x : Fabric) : (setFab s x).bst = s.bst := rfl
@[simp] theorem setFab_dbg (x : Fabric) : (setFab s x).dbg = s.dbg := rfl
@[simp] theorem setFab_free (x : Fabric) : (setFab s x).free = s.free := rfl
@[simp] theorem setFab_pending (x : Fabric) : (setFab s x).pending = s.pending := rfl
@[simp] theorem fld_setFab (x : Fabric) (g : Fld) : fld (setFab s x) g = fld s g := rfl

/-! ### setEngine -/
@[simp] theorem setEngine_regs (n : Nat) (x : Engine) : (setEngine s n x).regs = s.regs := rfl
@[simp] theorem setEngine_latch (n : Nat) (x : Engine) : (setEngine s n x).latch = s.latch := rfl
@[simp] theorem setEngine_evq (n : Nat) (x : Engine) : (setEngine s n x).evq = s.evq := rfl
@[simp] theorem setEngine_log (n : Nat) (x : Engine) : (setEngine s n x).log = s.log := rfl
@[simp] theorem setEngine_windows (n : Nat) (x : Engine) : (setEngine s n x).windows = s.windows := rfl
@[simp] theorem setEngine_mirrorQ (n : Nat) (x : Engine) : (setEngine s n x).mirrorQ = s.mirrorQ := rfl
@[simp] theorem setEngine_axes (n : Nat) (x : Engine) : (setEngine s n x).axes = s.axes := rfl
@[simp] theorem setEngine_encs (n : Nat) (x : Engine) : (setEngine s n x).encs = s.encs := rfl
@[simp] theorem setEngine_rt (n : Nat) (x : Engine) : (setEngine s n x).rt = s.rt := rfl
@[simp] theorem setEngine_tt (n : Nat) (x : Engine) : (setEngine s n x).tt = s.tt := rfl
@[simp] theorem setEngine_dsp (n : Nat) (x : Engine) : (setEngine s n x).dsp = s.dsp := rfl
@[simp] theorem setEngine_ports (n : Nat) (x : Engine) : (setEngine s n x).ports = s.ports := rfl
@[simp] theorem setEngine_node (n : Nat) (x : Engine) : (setEngine s n x).node = s.node := rfl
@[simp] theorem setEngine_modules (n : Nat) (x : Engine) : (setEngine s n x).modules = s.modules := rfl
@[simp] theorem setEngine_lanes (n : Nat) (x : Engine) : (setEngine s n x).lanes = s.lanes := rfl
@[simp] theorem setEngine_regions (n : Nat) (x : Engine) : (setEngine s n x).regions = s.regions := rfl
@[simp] theorem setEngine_fab (n : Nat) (x : Engine) : (setEngine s n x).fab = s.fab := rfl
@[simp] theorem setEngine_clk (n : Nat) (x : Engine) : (setEngine s n x).clk = s.clk := rfl
@[simp] theorem setEngine_pwr (n : Nat) (x : Engine) : (setEngine s n x).pwr = s.pwr := rfl
@[simp] theorem setEngine_wire (n : Nat) (x : Engine) : (setEngine s n x).wire = s.wire := rfl
@[simp] theorem setEngine_mem (n : Nat) (x : Engine) : (setEngine s n x).mem = s.mem := rfl
@[simp] theorem setEngine_cache (n : Nat) (x : Engine) : (setEngine s n x).cache = s.cache := rfl
@[simp] theorem setEngine_hwn (n : Nat) (x : Engine) : (setEngine s n x).hwn = s.hwn := rfl
@[simp] theorem setEngine_enc (n : Nat) (x : Engine) : (setEngine s n x).enc = s.enc := rfl
@[simp] theorem setEngine_stk (n : Nat) (x : Engine) : (setEngine s n x).stk = s.stk := rfl
@[simp] theorem setEngine_thm (n : Nat) (x : Engine) : (setEngine s n x).thm = s.thm := rfl
@[simp] theorem setEngine_iob (n : Nat) (x : Engine) : (setEngine s n x).iob = s.iob := rfl
@[simp] theorem setEngine_hostWr (n : Nat) (x : Engine) : (setEngine s n x).hostWr = s.hostWr := rfl
@[simp] theorem setEngine_rsps (n : Nat) (x : Engine) : (setEngine s n x).rsps = s.rsps := rfl
@[simp] theorem setEngine_pci (n : Nat) (x : Engine) : (setEngine s n x).pci = s.pci := rfl
@[simp] theorem setEngine_rst (n : Nat) (x : Engine) : (setEngine s n x).rst = s.rst := rfl
@[simp] theorem setEngine_cfg (n : Nat) (x : Engine) : (setEngine s n x).cfg = s.cfg := rfl
@[simp] theorem setEngine_sbx (n : Nat) (x : Engine) : (setEngine s n x).sbx = s.sbx := rfl
@[simp] theorem setEngine_bst (n : Nat) (x : Engine) : (setEngine s n x).bst = s.bst := rfl
@[simp] theorem setEngine_dbg (n : Nat) (x : Engine) : (setEngine s n x).dbg = s.dbg := rfl
@[simp] theorem setEngine_free (n : Nat) (x : Engine) : (setEngine s n x).free = s.free := rfl
@[simp] theorem setEngine_pending (n : Nat) (x : Engine) : (setEngine s n x).pending = s.pending := rfl
@[simp] theorem fld_setEngine (n : Nat) (x : Engine) (g : Fld) : fld (setEngine s n x) g = fld s g := rfl

/-! ### setClk -/
@[simp] theorem setClk_regs (x : Clock) : (setClk s x).regs = s.regs := rfl
@[simp] theorem setClk_latch (x : Clock) : (setClk s x).latch = s.latch := rfl
@[simp] theorem setClk_evq (x : Clock) : (setClk s x).evq = s.evq := rfl
@[simp] theorem setClk_log (x : Clock) : (setClk s x).log = s.log := rfl
@[simp] theorem setClk_windows (x : Clock) : (setClk s x).windows = s.windows := rfl
@[simp] theorem setClk_mirrorQ (x : Clock) : (setClk s x).mirrorQ = s.mirrorQ := rfl
@[simp] theorem setClk_axes (x : Clock) : (setClk s x).axes = s.axes := rfl
@[simp] theorem setClk_encs (x : Clock) : (setClk s x).encs = s.encs := rfl
@[simp] theorem setClk_rt (x : Clock) : (setClk s x).rt = s.rt := rfl
@[simp] theorem setClk_tt (x : Clock) : (setClk s x).tt = s.tt := rfl
@[simp] theorem setClk_dsp (x : Clock) : (setClk s x).dsp = s.dsp := rfl
@[simp] theorem setClk_ports (x : Clock) : (setClk s x).ports = s.ports := rfl
@[simp] theorem setClk_node (x : Clock) : (setClk s x).node = s.node := rfl
@[simp] theorem setClk_modules (x : Clock) : (setClk s x).modules = s.modules := rfl
@[simp] theorem setClk_lanes (x : Clock) : (setClk s x).lanes = s.lanes := rfl
@[simp] theorem setClk_regions (x : Clock) : (setClk s x).regions = s.regions := rfl
@[simp] theorem setClk_fab (x : Clock) : (setClk s x).fab = s.fab := rfl
@[simp] theorem setClk_engines (x : Clock) : (setClk s x).engines = s.engines := rfl
@[simp] theorem setClk_pwr (x : Clock) : (setClk s x).pwr = s.pwr := rfl
@[simp] theorem setClk_wire (x : Clock) : (setClk s x).wire = s.wire := rfl
@[simp] theorem setClk_mem (x : Clock) : (setClk s x).mem = s.mem := rfl
@[simp] theorem setClk_cache (x : Clock) : (setClk s x).cache = s.cache := rfl
@[simp] theorem setClk_hwn (x : Clock) : (setClk s x).hwn = s.hwn := rfl
@[simp] theorem setClk_enc (x : Clock) : (setClk s x).enc = s.enc := rfl
@[simp] theorem setClk_stk (x : Clock) : (setClk s x).stk = s.stk := rfl
@[simp] theorem setClk_thm (x : Clock) : (setClk s x).thm = s.thm := rfl
@[simp] theorem setClk_iob (x : Clock) : (setClk s x).iob = s.iob := rfl
@[simp] theorem setClk_hostWr (x : Clock) : (setClk s x).hostWr = s.hostWr := rfl
@[simp] theorem setClk_rsps (x : Clock) : (setClk s x).rsps = s.rsps := rfl
@[simp] theorem setClk_pci (x : Clock) : (setClk s x).pci = s.pci := rfl
@[simp] theorem setClk_rst (x : Clock) : (setClk s x).rst = s.rst := rfl
@[simp] theorem setClk_cfg (x : Clock) : (setClk s x).cfg = s.cfg := rfl
@[simp] theorem setClk_sbx (x : Clock) : (setClk s x).sbx = s.sbx := rfl
@[simp] theorem setClk_bst (x : Clock) : (setClk s x).bst = s.bst := rfl
@[simp] theorem setClk_dbg (x : Clock) : (setClk s x).dbg = s.dbg := rfl
@[simp] theorem setClk_free (x : Clock) : (setClk s x).free = s.free := rfl
@[simp] theorem setClk_pending (x : Clock) : (setClk s x).pending = s.pending := rfl
@[simp] theorem fld_setClk (x : Clock) (g : Fld) : fld (setClk s x) g = fld s g := rfl

/-! ### setPwr -/
@[simp] theorem setPwr_regs (x : Power) : (setPwr s x).regs = s.regs := rfl
@[simp] theorem setPwr_latch (x : Power) : (setPwr s x).latch = s.latch := rfl
@[simp] theorem setPwr_evq (x : Power) : (setPwr s x).evq = s.evq := rfl
@[simp] theorem setPwr_log (x : Power) : (setPwr s x).log = s.log := rfl
@[simp] theorem setPwr_windows (x : Power) : (setPwr s x).windows = s.windows := rfl
@[simp] theorem setPwr_mirrorQ (x : Power) : (setPwr s x).mirrorQ = s.mirrorQ := rfl
@[simp] theorem setPwr_axes (x : Power) : (setPwr s x).axes = s.axes := rfl
@[simp] theorem setPwr_encs (x : Power) : (setPwr s x).encs = s.encs := rfl
@[simp] theorem setPwr_rt (x : Power) : (setPwr s x).rt = s.rt := rfl
@[simp] theorem setPwr_tt (x : Power) : (setPwr s x).tt = s.tt := rfl
@[simp] theorem setPwr_dsp (x : Power) : (setPwr s x).dsp = s.dsp := rfl
@[simp] theorem setPwr_ports (x : Power) : (setPwr s x).ports = s.ports := rfl
@[simp] theorem setPwr_node (x : Power) : (setPwr s x).node = s.node := rfl
@[simp] theorem setPwr_modules (x : Power) : (setPwr s x).modules = s.modules := rfl
@[simp] theorem setPwr_lanes (x : Power) : (setPwr s x).lanes = s.lanes := rfl
@[simp] theorem setPwr_regions (x : Power) : (setPwr s x).regions = s.regions := rfl
@[simp] theorem setPwr_fab (x : Power) : (setPwr s x).fab = s.fab := rfl
@[simp] theorem setPwr_engines (x : Power) : (setPwr s x).engines = s.engines := rfl
@[simp] theorem setPwr_clk (x : Power) : (setPwr s x).clk = s.clk := rfl
@[simp] theorem setPwr_wire (x : Power) : (setPwr s x).wire = s.wire := rfl
@[simp] theorem setPwr_mem (x : Power) : (setPwr s x).mem = s.mem := rfl
@[simp] theorem setPwr_cache (x : Power) : (setPwr s x).cache = s.cache := rfl
@[simp] theorem setPwr_hwn (x : Power) : (setPwr s x).hwn = s.hwn := rfl
@[simp] theorem setPwr_enc (x : Power) : (setPwr s x).enc = s.enc := rfl
@[simp] theorem setPwr_stk (x : Power) : (setPwr s x).stk = s.stk := rfl
@[simp] theorem setPwr_thm (x : Power) : (setPwr s x).thm = s.thm := rfl
@[simp] theorem setPwr_iob (x : Power) : (setPwr s x).iob = s.iob := rfl
@[simp] theorem setPwr_hostWr (x : Power) : (setPwr s x).hostWr = s.hostWr := rfl
@[simp] theorem setPwr_rsps (x : Power) : (setPwr s x).rsps = s.rsps := rfl
@[simp] theorem setPwr_pci (x : Power) : (setPwr s x).pci = s.pci := rfl
@[simp] theorem setPwr_rst (x : Power) : (setPwr s x).rst = s.rst := rfl
@[simp] theorem setPwr_cfg (x : Power) : (setPwr s x).cfg = s.cfg := rfl
@[simp] theorem setPwr_sbx (x : Power) : (setPwr s x).sbx = s.sbx := rfl
@[simp] theorem setPwr_bst (x : Power) : (setPwr s x).bst = s.bst := rfl
@[simp] theorem setPwr_dbg (x : Power) : (setPwr s x).dbg = s.dbg := rfl
@[simp] theorem setPwr_free (x : Power) : (setPwr s x).free = s.free := rfl
@[simp] theorem setPwr_pending (x : Power) : (setPwr s x).pending = s.pending := rfl
@[simp] theorem fld_setPwr (x : Power) (g : Fld) : fld (setPwr s x) g = fld s g := rfl

/-! ### setCell -/
@[simp] theorem setCell_regs (l o : Nat) (v : Byte) : (setCell s l o v).regs = s.regs := rfl
@[simp] theorem setCell_latch (l o : Nat) (v : Byte) : (setCell s l o v).latch = s.latch := rfl
@[simp] theorem setCell_evq (l o : Nat) (v : Byte) : (setCell s l o v).evq = s.evq := rfl
@[simp] theorem setCell_log (l o : Nat) (v : Byte) : (setCell s l o v).log = s.log := rfl
@[simp] theorem setCell_windows (l o : Nat) (v : Byte) : (setCell s l o v).windows = s.windows := rfl
@[simp] theorem setCell_mirrorQ (l o : Nat) (v : Byte) : (setCell s l o v).mirrorQ = s.mirrorQ := rfl
@[simp] theorem setCell_axes (l o : Nat) (v : Byte) : (setCell s l o v).axes = s.axes := rfl
@[simp] theorem setCell_encs (l o : Nat) (v : Byte) : (setCell s l o v).encs = s.encs := rfl
@[simp] theorem setCell_rt (l o : Nat) (v : Byte) : (setCell s l o v).rt = s.rt := rfl
@[simp] theorem setCell_tt (l o : Nat) (v : Byte) : (setCell s l o v).tt = s.tt := rfl
@[simp] theorem setCell_dsp (l o : Nat) (v : Byte) : (setCell s l o v).dsp = s.dsp := rfl
@[simp] theorem setCell_ports (l o : Nat) (v : Byte) : (setCell s l o v).ports = s.ports := rfl
@[simp] theorem setCell_node (l o : Nat) (v : Byte) : (setCell s l o v).node = s.node := rfl
@[simp] theorem setCell_modules (l o : Nat) (v : Byte) : (setCell s l o v).modules = s.modules := rfl
@[simp] theorem setCell_lanes (l o : Nat) (v : Byte) : (setCell s l o v).lanes = s.lanes := rfl
@[simp] theorem setCell_regions (l o : Nat) (v : Byte) : (setCell s l o v).regions = s.regions := rfl
@[simp] theorem setCell_fab (l o : Nat) (v : Byte) : (setCell s l o v).fab = s.fab := rfl
@[simp] theorem setCell_engines (l o : Nat) (v : Byte) : (setCell s l o v).engines = s.engines := rfl
@[simp] theorem setCell_clk (l o : Nat) (v : Byte) : (setCell s l o v).clk = s.clk := rfl
@[simp] theorem setCell_pwr (l o : Nat) (v : Byte) : (setCell s l o v).pwr = s.pwr := rfl
@[simp] theorem setCell_wire (l o : Nat) (v : Byte) : (setCell s l o v).wire = s.wire := rfl
@[simp] theorem setCell_cache (l o : Nat) (v : Byte) : (setCell s l o v).cache = s.cache := rfl
@[simp] theorem setCell_hwn (l o : Nat) (v : Byte) : (setCell s l o v).hwn = s.hwn := rfl
@[simp] theorem setCell_enc (l o : Nat) (v : Byte) : (setCell s l o v).enc = s.enc := rfl
@[simp] theorem setCell_stk (l o : Nat) (v : Byte) : (setCell s l o v).stk = s.stk := rfl
@[simp] theorem setCell_thm (l o : Nat) (v : Byte) : (setCell s l o v).thm = s.thm := rfl
@[simp] theorem setCell_iob (l o : Nat) (v : Byte) : (setCell s l o v).iob = s.iob := rfl
@[simp] theorem setCell_hostWr (l o : Nat) (v : Byte) : (setCell s l o v).hostWr = s.hostWr := rfl
@[simp] theorem setCell_rsps (l o : Nat) (v : Byte) : (setCell s l o v).rsps = s.rsps := rfl
@[simp] theorem setCell_pci (l o : Nat) (v : Byte) : (setCell s l o v).pci = s.pci := rfl
@[simp] theorem setCell_rst (l o : Nat) (v : Byte) : (setCell s l o v).rst = s.rst := rfl
@[simp] theorem setCell_cfg (l o : Nat) (v : Byte) : (setCell s l o v).cfg = s.cfg := rfl
@[simp] theorem setCell_sbx (l o : Nat) (v : Byte) : (setCell s l o v).sbx = s.sbx := rfl
@[simp] theorem setCell_bst (l o : Nat) (v : Byte) : (setCell s l o v).bst = s.bst := rfl
@[simp] theorem setCell_dbg (l o : Nat) (v : Byte) : (setCell s l o v).dbg = s.dbg := rfl
@[simp] theorem setCell_free (l o : Nat) (v : Byte) : (setCell s l o v).free = s.free := rfl
@[simp] theorem setCell_pending (l o : Nat) (v : Byte) : (setCell s l o v).pending = s.pending := rfl
@[simp] theorem fld_setCell (l o : Nat) (v : Byte) (g : Fld) : fld (setCell s l o v) g = fld s g := rfl

/-! ### setPoison -/
@[simp] theorem setPoison_regs (l : Nat) (b : Bool) : (setPoison s l b).regs = s.regs := rfl
@[simp] theorem setPoison_latch (l : Nat) (b : Bool) : (setPoison s l b).latch = s.latch := rfl
@[simp] theorem setPoison_evq (l : Nat) (b : Bool) : (setPoison s l b).evq = s.evq := rfl
@[simp] theorem setPoison_log (l : Nat) (b : Bool) : (setPoison s l b).log = s.log := rfl
@[simp] theorem setPoison_windows (l : Nat) (b : Bool) : (setPoison s l b).windows = s.windows := rfl
@[simp] theorem setPoison_mirrorQ (l : Nat) (b : Bool) : (setPoison s l b).mirrorQ = s.mirrorQ := rfl
@[simp] theorem setPoison_axes (l : Nat) (b : Bool) : (setPoison s l b).axes = s.axes := rfl
@[simp] theorem setPoison_encs (l : Nat) (b : Bool) : (setPoison s l b).encs = s.encs := rfl
@[simp] theorem setPoison_rt (l : Nat) (b : Bool) : (setPoison s l b).rt = s.rt := rfl
@[simp] theorem setPoison_tt (l : Nat) (b : Bool) : (setPoison s l b).tt = s.tt := rfl
@[simp] theorem setPoison_dsp (l : Nat) (b : Bool) : (setPoison s l b).dsp = s.dsp := rfl
@[simp] theorem setPoison_ports (l : Nat) (b : Bool) : (setPoison s l b).ports = s.ports := rfl
@[simp] theorem setPoison_node (l : Nat) (b : Bool) : (setPoison s l b).node = s.node := rfl
@[simp] theorem setPoison_modules (l : Nat) (b : Bool) : (setPoison s l b).modules = s.modules := rfl
@[simp] theorem setPoison_lanes (l : Nat) (b : Bool) : (setPoison s l b).lanes = s.lanes := rfl
@[simp] theorem setPoison_regions (l : Nat) (b : Bool) : (setPoison s l b).regions = s.regions := rfl
@[simp] theorem setPoison_fab (l : Nat) (b : Bool) : (setPoison s l b).fab = s.fab := rfl
@[simp] theorem setPoison_engines (l : Nat) (b : Bool) : (setPoison s l b).engines = s.engines := rfl
@[simp] theorem setPoison_clk (l : Nat) (b : Bool) : (setPoison s l b).clk = s.clk := rfl
@[simp] theorem setPoison_pwr (l : Nat) (b : Bool) : (setPoison s l b).pwr = s.pwr := rfl
@[simp] theorem setPoison_wire (l : Nat) (b : Bool) : (setPoison s l b).wire = s.wire := rfl
@[simp] theorem setPoison_cache (l : Nat) (b : Bool) : (setPoison s l b).cache = s.cache := rfl
@[simp] theorem setPoison_hwn (l : Nat) (b : Bool) : (setPoison s l b).hwn = s.hwn := rfl
@[simp] theorem setPoison_enc (l : Nat) (b : Bool) : (setPoison s l b).enc = s.enc := rfl
@[simp] theorem setPoison_stk (l : Nat) (b : Bool) : (setPoison s l b).stk = s.stk := rfl
@[simp] theorem setPoison_thm (l : Nat) (b : Bool) : (setPoison s l b).thm = s.thm := rfl
@[simp] theorem setPoison_iob (l : Nat) (b : Bool) : (setPoison s l b).iob = s.iob := rfl
@[simp] theorem setPoison_hostWr (l : Nat) (b : Bool) : (setPoison s l b).hostWr = s.hostWr := rfl
@[simp] theorem setPoison_rsps (l : Nat) (b : Bool) : (setPoison s l b).rsps = s.rsps := rfl
@[simp] theorem setPoison_pci (l : Nat) (b : Bool) : (setPoison s l b).pci = s.pci := rfl
@[simp] theorem setPoison_rst (l : Nat) (b : Bool) : (setPoison s l b).rst = s.rst := rfl
@[simp] theorem setPoison_cfg (l : Nat) (b : Bool) : (setPoison s l b).cfg = s.cfg := rfl
@[simp] theorem setPoison_sbx (l : Nat) (b : Bool) : (setPoison s l b).sbx = s.sbx := rfl
@[simp] theorem setPoison_bst (l : Nat) (b : Bool) : (setPoison s l b).bst = s.bst := rfl
@[simp] theorem setPoison_dbg (l : Nat) (b : Bool) : (setPoison s l b).dbg = s.dbg := rfl
@[simp] theorem setPoison_free (l : Nat) (b : Bool) : (setPoison s l b).free = s.free := rfl
@[simp] theorem setPoison_pending (l : Nat) (b : Bool) : (setPoison s l b).pending = s.pending := rfl
@[simp] theorem fld_setPoison (l : Nat) (b : Bool) (g : Fld) : fld (setPoison s l b) g = fld s g := rfl

/-! ### setOwner -/
@[simp] theorem setOwner_regs (k v : Nat) : (setOwner s k v).regs = s.regs := rfl
@[simp] theorem setOwner_latch (k v : Nat) : (setOwner s k v).latch = s.latch := rfl
@[simp] theorem setOwner_evq (k v : Nat) : (setOwner s k v).evq = s.evq := rfl
@[simp] theorem setOwner_log (k v : Nat) : (setOwner s k v).log = s.log := rfl
@[simp] theorem setOwner_windows (k v : Nat) : (setOwner s k v).windows = s.windows := rfl
@[simp] theorem setOwner_mirrorQ (k v : Nat) : (setOwner s k v).mirrorQ = s.mirrorQ := rfl
@[simp] theorem setOwner_axes (k v : Nat) : (setOwner s k v).axes = s.axes := rfl
@[simp] theorem setOwner_encs (k v : Nat) : (setOwner s k v).encs = s.encs := rfl
@[simp] theorem setOwner_rt (k v : Nat) : (setOwner s k v).rt = s.rt := rfl
@[simp] theorem setOwner_tt (k v : Nat) : (setOwner s k v).tt = s.tt := rfl
@[simp] theorem setOwner_dsp (k v : Nat) : (setOwner s k v).dsp = s.dsp := rfl
@[simp] theorem setOwner_ports (k v : Nat) : (setOwner s k v).ports = s.ports := rfl
@[simp] theorem setOwner_node (k v : Nat) : (setOwner s k v).node = s.node := rfl
@[simp] theorem setOwner_modules (k v : Nat) : (setOwner s k v).modules = s.modules := rfl
@[simp] theorem setOwner_lanes (k v : Nat) : (setOwner s k v).lanes = s.lanes := rfl
@[simp] theorem setOwner_regions (k v : Nat) : (setOwner s k v).regions = s.regions := rfl
@[simp] theorem setOwner_fab (k v : Nat) : (setOwner s k v).fab = s.fab := rfl
@[simp] theorem setOwner_engines (k v : Nat) : (setOwner s k v).engines = s.engines := rfl
@[simp] theorem setOwner_clk (k v : Nat) : (setOwner s k v).clk = s.clk := rfl
@[simp] theorem setOwner_pwr (k v : Nat) : (setOwner s k v).pwr = s.pwr := rfl
@[simp] theorem setOwner_wire (k v : Nat) : (setOwner s k v).wire = s.wire := rfl
@[simp] theorem setOwner_cache (k v : Nat) : (setOwner s k v).cache = s.cache := rfl
@[simp] theorem setOwner_hwn (k v : Nat) : (setOwner s k v).hwn = s.hwn := rfl
@[simp] theorem setOwner_enc (k v : Nat) : (setOwner s k v).enc = s.enc := rfl
@[simp] theorem setOwner_stk (k v : Nat) : (setOwner s k v).stk = s.stk := rfl
@[simp] theorem setOwner_thm (k v : Nat) : (setOwner s k v).thm = s.thm := rfl
@[simp] theorem setOwner_iob (k v : Nat) : (setOwner s k v).iob = s.iob := rfl
@[simp] theorem setOwner_hostWr (k v : Nat) : (setOwner s k v).hostWr = s.hostWr := rfl
@[simp] theorem setOwner_rsps (k v : Nat) : (setOwner s k v).rsps = s.rsps := rfl
@[simp] theorem setOwner_pci (k v : Nat) : (setOwner s k v).pci = s.pci := rfl
@[simp] theorem setOwner_rst (k v : Nat) : (setOwner s k v).rst = s.rst := rfl
@[simp] theorem setOwner_cfg (k v : Nat) : (setOwner s k v).cfg = s.cfg := rfl
@[simp] theorem setOwner_sbx (k v : Nat) : (setOwner s k v).sbx = s.sbx := rfl
@[simp] theorem setOwner_bst (k v : Nat) : (setOwner s k v).bst = s.bst := rfl
@[simp] theorem setOwner_dbg (k v : Nat) : (setOwner s k v).dbg = s.dbg := rfl
@[simp] theorem setOwner_free (k v : Nat) : (setOwner s k v).free = s.free := rfl
@[simp] theorem setOwner_pending (k v : Nat) : (setOwner s k v).pending = s.pending := rfl
@[simp] theorem fld_setOwner (k v : Nat) (g : Fld) : fld (setOwner s k v) g = fld s g := rfl

/-! ### setCache -/
@[simp] theorem setCache_regs (x : Cache) : (setCache s x).regs = s.regs := rfl
@[simp] theorem setCache_latch (x : Cache) : (setCache s x).latch = s.latch := rfl
@[simp] theorem setCache_evq (x : Cache) : (setCache s x).evq = s.evq := rfl
@[simp] theorem setCache_log (x : Cache) : (setCache s x).log = s.log := rfl
@[simp] theorem setCache_windows (x : Cache) : (setCache s x).windows = s.windows := rfl
@[simp] theorem setCache_mirrorQ (x : Cache) : (setCache s x).mirrorQ = s.mirrorQ := rfl
@[simp] theorem setCache_axes (x : Cache) : (setCache s x).axes = s.axes := rfl
@[simp] theorem setCache_encs (x : Cache) : (setCache s x).encs = s.encs := rfl
@[simp] theorem setCache_rt (x : Cache) : (setCache s x).rt = s.rt := rfl
@[simp] theorem setCache_tt (x : Cache) : (setCache s x).tt = s.tt := rfl
@[simp] theorem setCache_dsp (x : Cache) : (setCache s x).dsp = s.dsp := rfl
@[simp] theorem setCache_ports (x : Cache) : (setCache s x).ports = s.ports := rfl
@[simp] theorem setCache_node (x : Cache) : (setCache s x).node = s.node := rfl
@[simp] theorem setCache_modules (x : Cache) : (setCache s x).modules = s.modules := rfl
@[simp] theorem setCache_lanes (x : Cache) : (setCache s x).lanes = s.lanes := rfl
@[simp] theorem setCache_regions (x : Cache) : (setCache s x).regions = s.regions := rfl
@[simp] theorem setCache_fab (x : Cache) : (setCache s x).fab = s.fab := rfl
@[simp] theorem setCache_engines (x : Cache) : (setCache s x).engines = s.engines := rfl
@[simp] theorem setCache_clk (x : Cache) : (setCache s x).clk = s.clk := rfl
@[simp] theorem setCache_pwr (x : Cache) : (setCache s x).pwr = s.pwr := rfl
@[simp] theorem setCache_wire (x : Cache) : (setCache s x).wire = s.wire := rfl
@[simp] theorem setCache_mem (x : Cache) : (setCache s x).mem = s.mem := rfl
@[simp] theorem setCache_hwn (x : Cache) : (setCache s x).hwn = s.hwn := rfl
@[simp] theorem setCache_enc (x : Cache) : (setCache s x).enc = s.enc := rfl
@[simp] theorem setCache_stk (x : Cache) : (setCache s x).stk = s.stk := rfl
@[simp] theorem setCache_thm (x : Cache) : (setCache s x).thm = s.thm := rfl
@[simp] theorem setCache_iob (x : Cache) : (setCache s x).iob = s.iob := rfl
@[simp] theorem setCache_hostWr (x : Cache) : (setCache s x).hostWr = s.hostWr := rfl
@[simp] theorem setCache_rsps (x : Cache) : (setCache s x).rsps = s.rsps := rfl
@[simp] theorem setCache_pci (x : Cache) : (setCache s x).pci = s.pci := rfl
@[simp] theorem setCache_rst (x : Cache) : (setCache s x).rst = s.rst := rfl
@[simp] theorem setCache_cfg (x : Cache) : (setCache s x).cfg = s.cfg := rfl
@[simp] theorem setCache_sbx (x : Cache) : (setCache s x).sbx = s.sbx := rfl
@[simp] theorem setCache_bst (x : Cache) : (setCache s x).bst = s.bst := rfl
@[simp] theorem setCache_dbg (x : Cache) : (setCache s x).dbg = s.dbg := rfl
@[simp] theorem setCache_free (x : Cache) : (setCache s x).free = s.free := rfl
@[simp] theorem setCache_pending (x : Cache) : (setCache s x).pending = s.pending := rfl
@[simp] theorem fld_setCache (x : Cache) (g : Fld) : fld (setCache s x) g = fld s g := rfl

/-! ### setHwn -/
@[simp] theorem setHwn_regs (x : HostWin) : (setHwn s x).regs = s.regs := rfl
@[simp] theorem setHwn_latch (x : HostWin) : (setHwn s x).latch = s.latch := rfl
@[simp] theorem setHwn_evq (x : HostWin) : (setHwn s x).evq = s.evq := rfl
@[simp] theorem setHwn_log (x : HostWin) : (setHwn s x).log = s.log := rfl
@[simp] theorem setHwn_windows (x : HostWin) : (setHwn s x).windows = s.windows := rfl
@[simp] theorem setHwn_mirrorQ (x : HostWin) : (setHwn s x).mirrorQ = s.mirrorQ := rfl
@[simp] theorem setHwn_axes (x : HostWin) : (setHwn s x).axes = s.axes := rfl
@[simp] theorem setHwn_encs (x : HostWin) : (setHwn s x).encs = s.encs := rfl
@[simp] theorem setHwn_rt (x : HostWin) : (setHwn s x).rt = s.rt := rfl
@[simp] theorem setHwn_tt (x : HostWin) : (setHwn s x).tt = s.tt := rfl
@[simp] theorem setHwn_dsp (x : HostWin) : (setHwn s x).dsp = s.dsp := rfl
@[simp] theorem setHwn_ports (x : HostWin) : (setHwn s x).ports = s.ports := rfl
@[simp] theorem setHwn_node (x : HostWin) : (setHwn s x).node = s.node := rfl
@[simp] theorem setHwn_modules (x : HostWin) : (setHwn s x).modules = s.modules := rfl
@[simp] theorem setHwn_lanes (x : HostWin) : (setHwn s x).lanes = s.lanes := rfl
@[simp] theorem setHwn_regions (x : HostWin) : (setHwn s x).regions = s.regions := rfl
@[simp] theorem setHwn_fab (x : HostWin) : (setHwn s x).fab = s.fab := rfl
@[simp] theorem setHwn_engines (x : HostWin) : (setHwn s x).engines = s.engines := rfl
@[simp] theorem setHwn_clk (x : HostWin) : (setHwn s x).clk = s.clk := rfl
@[simp] theorem setHwn_pwr (x : HostWin) : (setHwn s x).pwr = s.pwr := rfl
@[simp] theorem setHwn_wire (x : HostWin) : (setHwn s x).wire = s.wire := rfl
@[simp] theorem setHwn_mem (x : HostWin) : (setHwn s x).mem = s.mem := rfl
@[simp] theorem setHwn_cache (x : HostWin) : (setHwn s x).cache = s.cache := rfl
@[simp] theorem setHwn_enc (x : HostWin) : (setHwn s x).enc = s.enc := rfl
@[simp] theorem setHwn_stk (x : HostWin) : (setHwn s x).stk = s.stk := rfl
@[simp] theorem setHwn_thm (x : HostWin) : (setHwn s x).thm = s.thm := rfl
@[simp] theorem setHwn_iob (x : HostWin) : (setHwn s x).iob = s.iob := rfl
@[simp] theorem setHwn_hostWr (x : HostWin) : (setHwn s x).hostWr = s.hostWr := rfl
@[simp] theorem setHwn_rsps (x : HostWin) : (setHwn s x).rsps = s.rsps := rfl
@[simp] theorem setHwn_pci (x : HostWin) : (setHwn s x).pci = s.pci := rfl
@[simp] theorem setHwn_rst (x : HostWin) : (setHwn s x).rst = s.rst := rfl
@[simp] theorem setHwn_cfg (x : HostWin) : (setHwn s x).cfg = s.cfg := rfl
@[simp] theorem setHwn_sbx (x : HostWin) : (setHwn s x).sbx = s.sbx := rfl
@[simp] theorem setHwn_bst (x : HostWin) : (setHwn s x).bst = s.bst := rfl
@[simp] theorem setHwn_dbg (x : HostWin) : (setHwn s x).dbg = s.dbg := rfl
@[simp] theorem setHwn_free (x : HostWin) : (setHwn s x).free = s.free := rfl
@[simp] theorem setHwn_pending (x : HostWin) : (setHwn s x).pending = s.pending := rfl
@[simp] theorem fld_setHwn (x : HostWin) (g : Fld) : fld (setHwn s x) g = fld s g := rfl

/-! ### setSeal -/
@[simp] theorem setSeal_regs (x : Sealing) : (setSeal s x).regs = s.regs := rfl
@[simp] theorem setSeal_latch (x : Sealing) : (setSeal s x).latch = s.latch := rfl
@[simp] theorem setSeal_evq (x : Sealing) : (setSeal s x).evq = s.evq := rfl
@[simp] theorem setSeal_log (x : Sealing) : (setSeal s x).log = s.log := rfl
@[simp] theorem setSeal_windows (x : Sealing) : (setSeal s x).windows = s.windows := rfl
@[simp] theorem setSeal_mirrorQ (x : Sealing) : (setSeal s x).mirrorQ = s.mirrorQ := rfl
@[simp] theorem setSeal_axes (x : Sealing) : (setSeal s x).axes = s.axes := rfl
@[simp] theorem setSeal_encs (x : Sealing) : (setSeal s x).encs = s.encs := rfl
@[simp] theorem setSeal_rt (x : Sealing) : (setSeal s x).rt = s.rt := rfl
@[simp] theorem setSeal_tt (x : Sealing) : (setSeal s x).tt = s.tt := rfl
@[simp] theorem setSeal_dsp (x : Sealing) : (setSeal s x).dsp = s.dsp := rfl
@[simp] theorem setSeal_ports (x : Sealing) : (setSeal s x).ports = s.ports := rfl
@[simp] theorem setSeal_node (x : Sealing) : (setSeal s x).node = s.node := rfl
@[simp] theorem setSeal_modules (x : Sealing) : (setSeal s x).modules = s.modules := rfl
@[simp] theorem setSeal_lanes (x : Sealing) : (setSeal s x).lanes = s.lanes := rfl
@[simp] theorem setSeal_regions (x : Sealing) : (setSeal s x).regions = s.regions := rfl
@[simp] theorem setSeal_fab (x : Sealing) : (setSeal s x).fab = s.fab := rfl
@[simp] theorem setSeal_engines (x : Sealing) : (setSeal s x).engines = s.engines := rfl
@[simp] theorem setSeal_clk (x : Sealing) : (setSeal s x).clk = s.clk := rfl
@[simp] theorem setSeal_pwr (x : Sealing) : (setSeal s x).pwr = s.pwr := rfl
@[simp] theorem setSeal_wire (x : Sealing) : (setSeal s x).wire = s.wire := rfl
@[simp] theorem setSeal_mem (x : Sealing) : (setSeal s x).mem = s.mem := rfl
@[simp] theorem setSeal_cache (x : Sealing) : (setSeal s x).cache = s.cache := rfl
@[simp] theorem setSeal_hwn (x : Sealing) : (setSeal s x).hwn = s.hwn := rfl
@[simp] theorem setSeal_stk (x : Sealing) : (setSeal s x).stk = s.stk := rfl
@[simp] theorem setSeal_thm (x : Sealing) : (setSeal s x).thm = s.thm := rfl
@[simp] theorem setSeal_iob (x : Sealing) : (setSeal s x).iob = s.iob := rfl
@[simp] theorem setSeal_hostWr (x : Sealing) : (setSeal s x).hostWr = s.hostWr := rfl
@[simp] theorem setSeal_rsps (x : Sealing) : (setSeal s x).rsps = s.rsps := rfl
@[simp] theorem setSeal_pci (x : Sealing) : (setSeal s x).pci = s.pci := rfl
@[simp] theorem setSeal_rst (x : Sealing) : (setSeal s x).rst = s.rst := rfl
@[simp] theorem setSeal_cfg (x : Sealing) : (setSeal s x).cfg = s.cfg := rfl
@[simp] theorem setSeal_sbx (x : Sealing) : (setSeal s x).sbx = s.sbx := rfl
@[simp] theorem setSeal_bst (x : Sealing) : (setSeal s x).bst = s.bst := rfl
@[simp] theorem setSeal_dbg (x : Sealing) : (setSeal s x).dbg = s.dbg := rfl
@[simp] theorem setSeal_free (x : Sealing) : (setSeal s x).free = s.free := rfl
@[simp] theorem setSeal_pending (x : Sealing) : (setSeal s x).pending = s.pending := rfl
@[simp] theorem fld_setSeal (x : Sealing) (g : Fld) : fld (setSeal s x) g = fld s g := rfl

/-! ### setStk -/
@[simp] theorem setStk_regs (x : Stack) : (setStk s x).regs = s.regs := rfl
@[simp] theorem setStk_latch (x : Stack) : (setStk s x).latch = s.latch := rfl
@[simp] theorem setStk_evq (x : Stack) : (setStk s x).evq = s.evq := rfl
@[simp] theorem setStk_log (x : Stack) : (setStk s x).log = s.log := rfl
@[simp] theorem setStk_windows (x : Stack) : (setStk s x).windows = s.windows := rfl
@[simp] theorem setStk_mirrorQ (x : Stack) : (setStk s x).mirrorQ = s.mirrorQ := rfl
@[simp] theorem setStk_axes (x : Stack) : (setStk s x).axes = s.axes := rfl
@[simp] theorem setStk_encs (x : Stack) : (setStk s x).encs = s.encs := rfl
@[simp] theorem setStk_rt (x : Stack) : (setStk s x).rt = s.rt := rfl
@[simp] theorem setStk_tt (x : Stack) : (setStk s x).tt = s.tt := rfl
@[simp] theorem setStk_dsp (x : Stack) : (setStk s x).dsp = s.dsp := rfl
@[simp] theorem setStk_ports (x : Stack) : (setStk s x).ports = s.ports := rfl
@[simp] theorem setStk_node (x : Stack) : (setStk s x).node = s.node := rfl
@[simp] theorem setStk_modules (x : Stack) : (setStk s x).modules = s.modules := rfl
@[simp] theorem setStk_lanes (x : Stack) : (setStk s x).lanes = s.lanes := rfl
@[simp] theorem setStk_regions (x : Stack) : (setStk s x).regions = s.regions := rfl
@[simp] theorem setStk_fab (x : Stack) : (setStk s x).fab = s.fab := rfl
@[simp] theorem setStk_engines (x : Stack) : (setStk s x).engines = s.engines := rfl
@[simp] theorem setStk_clk (x : Stack) : (setStk s x).clk = s.clk := rfl
@[simp] theorem setStk_pwr (x : Stack) : (setStk s x).pwr = s.pwr := rfl
@[simp] theorem setStk_wire (x : Stack) : (setStk s x).wire = s.wire := rfl
@[simp] theorem setStk_mem (x : Stack) : (setStk s x).mem = s.mem := rfl
@[simp] theorem setStk_cache (x : Stack) : (setStk s x).cache = s.cache := rfl
@[simp] theorem setStk_hwn (x : Stack) : (setStk s x).hwn = s.hwn := rfl
@[simp] theorem setStk_enc (x : Stack) : (setStk s x).enc = s.enc := rfl
@[simp] theorem setStk_thm (x : Stack) : (setStk s x).thm = s.thm := rfl
@[simp] theorem setStk_iob (x : Stack) : (setStk s x).iob = s.iob := rfl
@[simp] theorem setStk_hostWr (x : Stack) : (setStk s x).hostWr = s.hostWr := rfl
@[simp] theorem setStk_rsps (x : Stack) : (setStk s x).rsps = s.rsps := rfl
@[simp] theorem setStk_pci (x : Stack) : (setStk s x).pci = s.pci := rfl
@[simp] theorem setStk_rst (x : Stack) : (setStk s x).rst = s.rst := rfl
@[simp] theorem setStk_cfg (x : Stack) : (setStk s x).cfg = s.cfg := rfl
@[simp] theorem setStk_sbx (x : Stack) : (setStk s x).sbx = s.sbx := rfl
@[simp] theorem setStk_bst (x : Stack) : (setStk s x).bst = s.bst := rfl
@[simp] theorem setStk_dbg (x : Stack) : (setStk s x).dbg = s.dbg := rfl
@[simp] theorem setStk_free (x : Stack) : (setStk s x).free = s.free := rfl
@[simp] theorem setStk_pending (x : Stack) : (setStk s x).pending = s.pending := rfl
@[simp] theorem fld_setStk (x : Stack) (g : Fld) : fld (setStk s x) g = fld s g := rfl

/-! ### setThm -/
@[simp] theorem setThm_regs (x : Thermal) : (setThm s x).regs = s.regs := rfl
@[simp] theorem setThm_latch (x : Thermal) : (setThm s x).latch = s.latch := rfl
@[simp] theorem setThm_evq (x : Thermal) : (setThm s x).evq = s.evq := rfl
@[simp] theorem setThm_log (x : Thermal) : (setThm s x).log = s.log := rfl
@[simp] theorem setThm_windows (x : Thermal) : (setThm s x).windows = s.windows := rfl
@[simp] theorem setThm_mirrorQ (x : Thermal) : (setThm s x).mirrorQ = s.mirrorQ := rfl
@[simp] theorem setThm_axes (x : Thermal) : (setThm s x).axes = s.axes := rfl
@[simp] theorem setThm_encs (x : Thermal) : (setThm s x).encs = s.encs := rfl
@[simp] theorem setThm_rt (x : Thermal) : (setThm s x).rt = s.rt := rfl
@[simp] theorem setThm_tt (x : Thermal) : (setThm s x).tt = s.tt := rfl
@[simp] theorem setThm_dsp (x : Thermal) : (setThm s x).dsp = s.dsp := rfl
@[simp] theorem setThm_ports (x : Thermal) : (setThm s x).ports = s.ports := rfl
@[simp] theorem setThm_node (x : Thermal) : (setThm s x).node = s.node := rfl
@[simp] theorem setThm_modules (x : Thermal) : (setThm s x).modules = s.modules := rfl
@[simp] theorem setThm_lanes (x : Thermal) : (setThm s x).lanes = s.lanes := rfl
@[simp] theorem setThm_regions (x : Thermal) : (setThm s x).regions = s.regions := rfl
@[simp] theorem setThm_fab (x : Thermal) : (setThm s x).fab = s.fab := rfl
@[simp] theorem setThm_engines (x : Thermal) : (setThm s x).engines = s.engines := rfl
@[simp] theorem setThm_clk (x : Thermal) : (setThm s x).clk = s.clk := rfl
@[simp] theorem setThm_pwr (x : Thermal) : (setThm s x).pwr = s.pwr := rfl
@[simp] theorem setThm_wire (x : Thermal) : (setThm s x).wire = s.wire := rfl
@[simp] theorem setThm_mem (x : Thermal) : (setThm s x).mem = s.mem := rfl
@[simp] theorem setThm_cache (x : Thermal) : (setThm s x).cache = s.cache := rfl
@[simp] theorem setThm_hwn (x : Thermal) : (setThm s x).hwn = s.hwn := rfl
@[simp] theorem setThm_enc (x : Thermal) : (setThm s x).enc = s.enc := rfl
@[simp] theorem setThm_stk (x : Thermal) : (setThm s x).stk = s.stk := rfl
@[simp] theorem setThm_iob (x : Thermal) : (setThm s x).iob = s.iob := rfl
@[simp] theorem setThm_hostWr (x : Thermal) : (setThm s x).hostWr = s.hostWr := rfl
@[simp] theorem setThm_rsps (x : Thermal) : (setThm s x).rsps = s.rsps := rfl
@[simp] theorem setThm_pci (x : Thermal) : (setThm s x).pci = s.pci := rfl
@[simp] theorem setThm_rst (x : Thermal) : (setThm s x).rst = s.rst := rfl
@[simp] theorem setThm_cfg (x : Thermal) : (setThm s x).cfg = s.cfg := rfl
@[simp] theorem setThm_sbx (x : Thermal) : (setThm s x).sbx = s.sbx := rfl
@[simp] theorem setThm_bst (x : Thermal) : (setThm s x).bst = s.bst := rfl
@[simp] theorem setThm_dbg (x : Thermal) : (setThm s x).dbg = s.dbg := rfl
@[simp] theorem setThm_free (x : Thermal) : (setThm s x).free = s.free := rfl
@[simp] theorem setThm_pending (x : Thermal) : (setThm s x).pending = s.pending := rfl
@[simp] theorem fld_setThm (x : Thermal) (g : Fld) : fld (setThm s x) g = fld s g := rfl

/-! ### setIob -/
@[simp] theorem setIob_regs (x : Iob) : (setIob s x).regs = s.regs := rfl
@[simp] theorem setIob_latch (x : Iob) : (setIob s x).latch = s.latch := rfl
@[simp] theorem setIob_evq (x : Iob) : (setIob s x).evq = s.evq := rfl
@[simp] theorem setIob_log (x : Iob) : (setIob s x).log = s.log := rfl
@[simp] theorem setIob_windows (x : Iob) : (setIob s x).windows = s.windows := rfl
@[simp] theorem setIob_mirrorQ (x : Iob) : (setIob s x).mirrorQ = s.mirrorQ := rfl
@[simp] theorem setIob_axes (x : Iob) : (setIob s x).axes = s.axes := rfl
@[simp] theorem setIob_encs (x : Iob) : (setIob s x).encs = s.encs := rfl
@[simp] theorem setIob_rt (x : Iob) : (setIob s x).rt = s.rt := rfl
@[simp] theorem setIob_tt (x : Iob) : (setIob s x).tt = s.tt := rfl
@[simp] theorem setIob_dsp (x : Iob) : (setIob s x).dsp = s.dsp := rfl
@[simp] theorem setIob_ports (x : Iob) : (setIob s x).ports = s.ports := rfl
@[simp] theorem setIob_node (x : Iob) : (setIob s x).node = s.node := rfl
@[simp] theorem setIob_modules (x : Iob) : (setIob s x).modules = s.modules := rfl
@[simp] theorem setIob_lanes (x : Iob) : (setIob s x).lanes = s.lanes := rfl
@[simp] theorem setIob_regions (x : Iob) : (setIob s x).regions = s.regions := rfl
@[simp] theorem setIob_fab (x : Iob) : (setIob s x).fab = s.fab := rfl
@[simp] theorem setIob_engines (x : Iob) : (setIob s x).engines = s.engines := rfl
@[simp] theorem setIob_clk (x : Iob) : (setIob s x).clk = s.clk := rfl
@[simp] theorem setIob_pwr (x : Iob) : (setIob s x).pwr = s.pwr := rfl
@[simp] theorem setIob_wire (x : Iob) : (setIob s x).wire = s.wire := rfl
@[simp] theorem setIob_mem (x : Iob) : (setIob s x).mem = s.mem := rfl
@[simp] theorem setIob_cache (x : Iob) : (setIob s x).cache = s.cache := rfl
@[simp] theorem setIob_hwn (x : Iob) : (setIob s x).hwn = s.hwn := rfl
@[simp] theorem setIob_enc (x : Iob) : (setIob s x).enc = s.enc := rfl
@[simp] theorem setIob_stk (x : Iob) : (setIob s x).stk = s.stk := rfl
@[simp] theorem setIob_thm (x : Iob) : (setIob s x).thm = s.thm := rfl
@[simp] theorem setIob_hostWr (x : Iob) : (setIob s x).hostWr = s.hostWr := rfl
@[simp] theorem setIob_rsps (x : Iob) : (setIob s x).rsps = s.rsps := rfl
@[simp] theorem setIob_pci (x : Iob) : (setIob s x).pci = s.pci := rfl
@[simp] theorem setIob_rst (x : Iob) : (setIob s x).rst = s.rst := rfl
@[simp] theorem setIob_cfg (x : Iob) : (setIob s x).cfg = s.cfg := rfl
@[simp] theorem setIob_sbx (x : Iob) : (setIob s x).sbx = s.sbx := rfl
@[simp] theorem setIob_bst (x : Iob) : (setIob s x).bst = s.bst := rfl
@[simp] theorem setIob_dbg (x : Iob) : (setIob s x).dbg = s.dbg := rfl
@[simp] theorem setIob_free (x : Iob) : (setIob s x).free = s.free := rfl
@[simp] theorem setIob_pending (x : Iob) : (setIob s x).pending = s.pending := rfl
@[simp] theorem fld_setIob (x : Iob) (g : Fld) : fld (setIob s x) g = fld s g := rfl

/-! ### postHost -/
@[simp] theorem postHost_regs (addr len data : Nat) : (postHost s addr len data).regs = s.regs := rfl
@[simp] theorem postHost_latch (addr len data : Nat) : (postHost s addr len data).latch = s.latch := rfl
@[simp] theorem postHost_evq (addr len data : Nat) : (postHost s addr len data).evq = s.evq := rfl
@[simp] theorem postHost_log (addr len data : Nat) : (postHost s addr len data).log = s.log := rfl
@[simp] theorem postHost_windows (addr len data : Nat) : (postHost s addr len data).windows = s.windows := rfl
@[simp] theorem postHost_mirrorQ (addr len data : Nat) : (postHost s addr len data).mirrorQ = s.mirrorQ := rfl
@[simp] theorem postHost_axes (addr len data : Nat) : (postHost s addr len data).axes = s.axes := rfl
@[simp] theorem postHost_encs (addr len data : Nat) : (postHost s addr len data).encs = s.encs := rfl
@[simp] theorem postHost_rt (addr len data : Nat) : (postHost s addr len data).rt = s.rt := rfl
@[simp] theorem postHost_tt (addr len data : Nat) : (postHost s addr len data).tt = s.tt := rfl
@[simp] theorem postHost_dsp (addr len data : Nat) : (postHost s addr len data).dsp = s.dsp := rfl
@[simp] theorem postHost_ports (addr len data : Nat) : (postHost s addr len data).ports = s.ports := rfl
@[simp] theorem postHost_node (addr len data : Nat) : (postHost s addr len data).node = s.node := rfl
@[simp] theorem postHost_modules (addr len data : Nat) : (postHost s addr len data).modules = s.modules := rfl
@[simp] theorem postHost_lanes (addr len data : Nat) : (postHost s addr len data).lanes = s.lanes := rfl
@[simp] theorem postHost_regions (addr len data : Nat) : (postHost s addr len data).regions = s.regions := rfl
@[simp] theorem postHost_fab (addr len data : Nat) : (postHost s addr len data).fab = s.fab := rfl
@[simp] theorem postHost_engines (addr len data : Nat) : (postHost s addr len data).engines = s.engines := rfl
@[simp] theorem postHost_clk (addr len data : Nat) : (postHost s addr len data).clk = s.clk := rfl
@[simp] theorem postHost_pwr (addr len data : Nat) : (postHost s addr len data).pwr = s.pwr := rfl
@[simp] theorem postHost_wire (addr len data : Nat) : (postHost s addr len data).wire = s.wire := rfl
@[simp] theorem postHost_mem (addr len data : Nat) : (postHost s addr len data).mem = s.mem := rfl
@[simp] theorem postHost_cache (addr len data : Nat) : (postHost s addr len data).cache = s.cache := rfl
@[simp] theorem postHost_hwn (addr len data : Nat) : (postHost s addr len data).hwn = s.hwn := rfl
@[simp] theorem postHost_enc (addr len data : Nat) : (postHost s addr len data).enc = s.enc := rfl
@[simp] theorem postHost_stk (addr len data : Nat) : (postHost s addr len data).stk = s.stk := rfl
@[simp] theorem postHost_thm (addr len data : Nat) : (postHost s addr len data).thm = s.thm := rfl
@[simp] theorem postHost_iob (addr len data : Nat) : (postHost s addr len data).iob = s.iob := rfl
@[simp] theorem postHost_rsps (addr len data : Nat) : (postHost s addr len data).rsps = s.rsps := rfl
@[simp] theorem postHost_pci (addr len data : Nat) : (postHost s addr len data).pci = s.pci := rfl
@[simp] theorem postHost_rst (addr len data : Nat) : (postHost s addr len data).rst = s.rst := rfl
@[simp] theorem postHost_cfg (addr len data : Nat) : (postHost s addr len data).cfg = s.cfg := rfl
@[simp] theorem postHost_sbx (addr len data : Nat) : (postHost s addr len data).sbx = s.sbx := rfl
@[simp] theorem postHost_bst (addr len data : Nat) : (postHost s addr len data).bst = s.bst := rfl
@[simp] theorem postHost_dbg (addr len data : Nat) : (postHost s addr len data).dbg = s.dbg := rfl
@[simp] theorem postHost_free (addr len data : Nat) : (postHost s addr len data).free = s.free := rfl
@[simp] theorem postHost_pending (addr len data : Nat) : (postHost s addr len data).pending = s.pending := rfl
@[simp] theorem fld_postHost (addr len data : Nat) (g : Fld) : fld (postHost s addr len data) g = fld s g := rfl

/-! ### respond -/
@[simp] theorem respond_regs (m tag status data : Nat) : (respond s m tag status data).regs = s.regs := rfl
@[simp] theorem respond_latch (m tag status data : Nat) : (respond s m tag status data).latch = s.latch := rfl
@[simp] theorem respond_evq (m tag status data : Nat) : (respond s m tag status data).evq = s.evq := rfl
@[simp] theorem respond_log (m tag status data : Nat) : (respond s m tag status data).log = s.log := rfl
@[simp] theorem respond_windows (m tag status data : Nat) : (respond s m tag status data).windows = s.windows := rfl
@[simp] theorem respond_mirrorQ (m tag status data : Nat) : (respond s m tag status data).mirrorQ = s.mirrorQ := rfl
@[simp] theorem respond_axes (m tag status data : Nat) : (respond s m tag status data).axes = s.axes := rfl
@[simp] theorem respond_encs (m tag status data : Nat) : (respond s m tag status data).encs = s.encs := rfl
@[simp] theorem respond_rt (m tag status data : Nat) : (respond s m tag status data).rt = s.rt := rfl
@[simp] theorem respond_tt (m tag status data : Nat) : (respond s m tag status data).tt = s.tt := rfl
@[simp] theorem respond_dsp (m tag status data : Nat) : (respond s m tag status data).dsp = s.dsp := rfl
@[simp] theorem respond_ports (m tag status data : Nat) : (respond s m tag status data).ports = s.ports := rfl
@[simp] theorem respond_node (m tag status data : Nat) : (respond s m tag status data).node = s.node := rfl
@[simp] theorem respond_modules (m tag status data : Nat) : (respond s m tag status data).modules = s.modules := rfl
@[simp] theorem respond_lanes (m tag status data : Nat) : (respond s m tag status data).lanes = s.lanes := rfl
@[simp] theorem respond_regions (m tag status data : Nat) : (respond s m tag status data).regions = s.regions := rfl
@[simp] theorem respond_fab (m tag status data : Nat) : (respond s m tag status data).fab = s.fab := rfl
@[simp] theorem respond_engines (m tag status data : Nat) : (respond s m tag status data).engines = s.engines := rfl
@[simp] theorem respond_clk (m tag status data : Nat) : (respond s m tag status data).clk = s.clk := rfl
@[simp] theorem respond_pwr (m tag status data : Nat) : (respond s m tag status data).pwr = s.pwr := rfl
@[simp] theorem respond_wire (m tag status data : Nat) : (respond s m tag status data).wire = s.wire := rfl
@[simp] theorem respond_mem (m tag status data : Nat) : (respond s m tag status data).mem = s.mem := rfl
@[simp] theorem respond_cache (m tag status data : Nat) : (respond s m tag status data).cache = s.cache := rfl
@[simp] theorem respond_hwn (m tag status data : Nat) : (respond s m tag status data).hwn = s.hwn := rfl
@[simp] theorem respond_enc (m tag status data : Nat) : (respond s m tag status data).enc = s.enc := rfl
@[simp] theorem respond_stk (m tag status data : Nat) : (respond s m tag status data).stk = s.stk := rfl
@[simp] theorem respond_thm (m tag status data : Nat) : (respond s m tag status data).thm = s.thm := rfl
@[simp] theorem respond_iob (m tag status data : Nat) : (respond s m tag status data).iob = s.iob := rfl
@[simp] theorem respond_hostWr (m tag status data : Nat) : (respond s m tag status data).hostWr = s.hostWr := rfl
@[simp] theorem respond_pci (m tag status data : Nat) : (respond s m tag status data).pci = s.pci := rfl
@[simp] theorem respond_rst (m tag status data : Nat) : (respond s m tag status data).rst = s.rst := rfl
@[simp] theorem respond_cfg (m tag status data : Nat) : (respond s m tag status data).cfg = s.cfg := rfl
@[simp] theorem respond_sbx (m tag status data : Nat) : (respond s m tag status data).sbx = s.sbx := rfl
@[simp] theorem respond_bst (m tag status data : Nat) : (respond s m tag status data).bst = s.bst := rfl
@[simp] theorem respond_dbg (m tag status data : Nat) : (respond s m tag status data).dbg = s.dbg := rfl
@[simp] theorem respond_free (m tag status data : Nat) : (respond s m tag status data).free = s.free := rfl
@[simp] theorem respond_pending (m tag status data : Nat) : (respond s m tag status data).pending = s.pending := rfl
@[simp] theorem fld_respond (m tag status data : Nat) (g : Fld) : fld (respond s m tag status data) g = fld s g := rfl

/-! ### setPci -/
@[simp] theorem setPci_regs (x : Pci) : (setPci s x).regs = s.regs := rfl
@[simp] theorem setPci_latch (x : Pci) : (setPci s x).latch = s.latch := rfl
@[simp] theorem setPci_evq (x : Pci) : (setPci s x).evq = s.evq := rfl
@[simp] theorem setPci_log (x : Pci) : (setPci s x).log = s.log := rfl
@[simp] theorem setPci_windows (x : Pci) : (setPci s x).windows = s.windows := rfl
@[simp] theorem setPci_mirrorQ (x : Pci) : (setPci s x).mirrorQ = s.mirrorQ := rfl
@[simp] theorem setPci_axes (x : Pci) : (setPci s x).axes = s.axes := rfl
@[simp] theorem setPci_encs (x : Pci) : (setPci s x).encs = s.encs := rfl
@[simp] theorem setPci_rt (x : Pci) : (setPci s x).rt = s.rt := rfl
@[simp] theorem setPci_tt (x : Pci) : (setPci s x).tt = s.tt := rfl
@[simp] theorem setPci_dsp (x : Pci) : (setPci s x).dsp = s.dsp := rfl
@[simp] theorem setPci_ports (x : Pci) : (setPci s x).ports = s.ports := rfl
@[simp] theorem setPci_node (x : Pci) : (setPci s x).node = s.node := rfl
@[simp] theorem setPci_modules (x : Pci) : (setPci s x).modules = s.modules := rfl
@[simp] theorem setPci_lanes (x : Pci) : (setPci s x).lanes = s.lanes := rfl
@[simp] theorem setPci_regions (x : Pci) : (setPci s x).regions = s.regions := rfl
@[simp] theorem setPci_fab (x : Pci) : (setPci s x).fab = s.fab := rfl
@[simp] theorem setPci_engines (x : Pci) : (setPci s x).engines = s.engines := rfl
@[simp] theorem setPci_clk (x : Pci) : (setPci s x).clk = s.clk := rfl
@[simp] theorem setPci_pwr (x : Pci) : (setPci s x).pwr = s.pwr := rfl
@[simp] theorem setPci_wire (x : Pci) : (setPci s x).wire = s.wire := rfl
@[simp] theorem setPci_mem (x : Pci) : (setPci s x).mem = s.mem := rfl
@[simp] theorem setPci_cache (x : Pci) : (setPci s x).cache = s.cache := rfl
@[simp] theorem setPci_hwn (x : Pci) : (setPci s x).hwn = s.hwn := rfl
@[simp] theorem setPci_enc (x : Pci) : (setPci s x).enc = s.enc := rfl
@[simp] theorem setPci_stk (x : Pci) : (setPci s x).stk = s.stk := rfl
@[simp] theorem setPci_thm (x : Pci) : (setPci s x).thm = s.thm := rfl
@[simp] theorem setPci_iob (x : Pci) : (setPci s x).iob = s.iob := rfl
@[simp] theorem setPci_hostWr (x : Pci) : (setPci s x).hostWr = s.hostWr := rfl
@[simp] theorem setPci_rsps (x : Pci) : (setPci s x).rsps = s.rsps := rfl
@[simp] theorem setPci_rst (x : Pci) : (setPci s x).rst = s.rst := rfl
@[simp] theorem setPci_cfg (x : Pci) : (setPci s x).cfg = s.cfg := rfl
@[simp] theorem setPci_sbx (x : Pci) : (setPci s x).sbx = s.sbx := rfl
@[simp] theorem setPci_bst (x : Pci) : (setPci s x).bst = s.bst := rfl
@[simp] theorem setPci_dbg (x : Pci) : (setPci s x).dbg = s.dbg := rfl
@[simp] theorem setPci_free (x : Pci) : (setPci s x).free = s.free := rfl
@[simp] theorem setPci_pending (x : Pci) : (setPci s x).pending = s.pending := rfl
@[simp] theorem fld_setPci (x : Pci) (g : Fld) : fld (setPci s x) g = fld s g := rfl

/-! ### setPciFn -/
@[simp] theorem setPciFn_regs (f : Nat) (x : PciFn) : (setPciFn s f x).regs = s.regs := rfl
@[simp] theorem setPciFn_latch (f : Nat) (x : PciFn) : (setPciFn s f x).latch = s.latch := rfl
@[simp] theorem setPciFn_evq (f : Nat) (x : PciFn) : (setPciFn s f x).evq = s.evq := rfl
@[simp] theorem setPciFn_log (f : Nat) (x : PciFn) : (setPciFn s f x).log = s.log := rfl
@[simp] theorem setPciFn_windows (f : Nat) (x : PciFn) : (setPciFn s f x).windows = s.windows := rfl
@[simp] theorem setPciFn_mirrorQ (f : Nat) (x : PciFn) : (setPciFn s f x).mirrorQ = s.mirrorQ := rfl
@[simp] theorem setPciFn_axes (f : Nat) (x : PciFn) : (setPciFn s f x).axes = s.axes := rfl
@[simp] theorem setPciFn_encs (f : Nat) (x : PciFn) : (setPciFn s f x).encs = s.encs := rfl
@[simp] theorem setPciFn_rt (f : Nat) (x : PciFn) : (setPciFn s f x).rt = s.rt := rfl
@[simp] theorem setPciFn_tt (f : Nat) (x : PciFn) : (setPciFn s f x).tt = s.tt := rfl
@[simp] theorem setPciFn_dsp (f : Nat) (x : PciFn) : (setPciFn s f x).dsp = s.dsp := rfl
@[simp] theorem setPciFn_ports (f : Nat) (x : PciFn) : (setPciFn s f x).ports = s.ports := rfl
@[simp] theorem setPciFn_node (f : Nat) (x : PciFn) : (setPciFn s f x).node = s.node := rfl
@[simp] theorem setPciFn_modules (f : Nat) (x : PciFn) : (setPciFn s f x).modules = s.modules := rfl
@[simp] theorem setPciFn_lanes (f : Nat) (x : PciFn) : (setPciFn s f x).lanes = s.lanes := rfl
@[simp] theorem setPciFn_regions (f : Nat) (x : PciFn) : (setPciFn s f x).regions = s.regions := rfl
@[simp] theorem setPciFn_fab (f : Nat) (x : PciFn) : (setPciFn s f x).fab = s.fab := rfl
@[simp] theorem setPciFn_engines (f : Nat) (x : PciFn) : (setPciFn s f x).engines = s.engines := rfl
@[simp] theorem setPciFn_clk (f : Nat) (x : PciFn) : (setPciFn s f x).clk = s.clk := rfl
@[simp] theorem setPciFn_pwr (f : Nat) (x : PciFn) : (setPciFn s f x).pwr = s.pwr := rfl
@[simp] theorem setPciFn_wire (f : Nat) (x : PciFn) : (setPciFn s f x).wire = s.wire := rfl
@[simp] theorem setPciFn_mem (f : Nat) (x : PciFn) : (setPciFn s f x).mem = s.mem := rfl
@[simp] theorem setPciFn_cache (f : Nat) (x : PciFn) : (setPciFn s f x).cache = s.cache := rfl
@[simp] theorem setPciFn_hwn (f : Nat) (x : PciFn) : (setPciFn s f x).hwn = s.hwn := rfl
@[simp] theorem setPciFn_enc (f : Nat) (x : PciFn) : (setPciFn s f x).enc = s.enc := rfl
@[simp] theorem setPciFn_stk (f : Nat) (x : PciFn) : (setPciFn s f x).stk = s.stk := rfl
@[simp] theorem setPciFn_thm (f : Nat) (x : PciFn) : (setPciFn s f x).thm = s.thm := rfl
@[simp] theorem setPciFn_iob (f : Nat) (x : PciFn) : (setPciFn s f x).iob = s.iob := rfl
@[simp] theorem setPciFn_hostWr (f : Nat) (x : PciFn) : (setPciFn s f x).hostWr = s.hostWr := rfl
@[simp] theorem setPciFn_rsps (f : Nat) (x : PciFn) : (setPciFn s f x).rsps = s.rsps := rfl
@[simp] theorem setPciFn_rst (f : Nat) (x : PciFn) : (setPciFn s f x).rst = s.rst := rfl
@[simp] theorem setPciFn_cfg (f : Nat) (x : PciFn) : (setPciFn s f x).cfg = s.cfg := rfl
@[simp] theorem setPciFn_sbx (f : Nat) (x : PciFn) : (setPciFn s f x).sbx = s.sbx := rfl
@[simp] theorem setPciFn_bst (f : Nat) (x : PciFn) : (setPciFn s f x).bst = s.bst := rfl
@[simp] theorem setPciFn_dbg (f : Nat) (x : PciFn) : (setPciFn s f x).dbg = s.dbg := rfl
@[simp] theorem setPciFn_free (f : Nat) (x : PciFn) : (setPciFn s f x).free = s.free := rfl
@[simp] theorem setPciFn_pending (f : Nat) (x : PciFn) : (setPciFn s f x).pending = s.pending := rfl
@[simp] theorem fld_setPciFn (f : Nat) (x : PciFn) (g : Fld) : fld (setPciFn s f x) g = fld s g := rfl

/-! ### setRst -/
@[simp] theorem setRst_regs (x : Rst) : (setRst s x).regs = s.regs := rfl
@[simp] theorem setRst_latch (x : Rst) : (setRst s x).latch = s.latch := rfl
@[simp] theorem setRst_evq (x : Rst) : (setRst s x).evq = s.evq := rfl
@[simp] theorem setRst_log (x : Rst) : (setRst s x).log = s.log := rfl
@[simp] theorem setRst_windows (x : Rst) : (setRst s x).windows = s.windows := rfl
@[simp] theorem setRst_mirrorQ (x : Rst) : (setRst s x).mirrorQ = s.mirrorQ := rfl
@[simp] theorem setRst_axes (x : Rst) : (setRst s x).axes = s.axes := rfl
@[simp] theorem setRst_encs (x : Rst) : (setRst s x).encs = s.encs := rfl
@[simp] theorem setRst_rt (x : Rst) : (setRst s x).rt = s.rt := rfl
@[simp] theorem setRst_tt (x : Rst) : (setRst s x).tt = s.tt := rfl
@[simp] theorem setRst_dsp (x : Rst) : (setRst s x).dsp = s.dsp := rfl
@[simp] theorem setRst_ports (x : Rst) : (setRst s x).ports = s.ports := rfl
@[simp] theorem setRst_node (x : Rst) : (setRst s x).node = s.node := rfl
@[simp] theorem setRst_modules (x : Rst) : (setRst s x).modules = s.modules := rfl
@[simp] theorem setRst_lanes (x : Rst) : (setRst s x).lanes = s.lanes := rfl
@[simp] theorem setRst_regions (x : Rst) : (setRst s x).regions = s.regions := rfl
@[simp] theorem setRst_fab (x : Rst) : (setRst s x).fab = s.fab := rfl
@[simp] theorem setRst_engines (x : Rst) : (setRst s x).engines = s.engines := rfl
@[simp] theorem setRst_clk (x : Rst) : (setRst s x).clk = s.clk := rfl
@[simp] theorem setRst_pwr (x : Rst) : (setRst s x).pwr = s.pwr := rfl
@[simp] theorem setRst_wire (x : Rst) : (setRst s x).wire = s.wire := rfl
@[simp] theorem setRst_mem (x : Rst) : (setRst s x).mem = s.mem := rfl
@[simp] theorem setRst_cache (x : Rst) : (setRst s x).cache = s.cache := rfl
@[simp] theorem setRst_hwn (x : Rst) : (setRst s x).hwn = s.hwn := rfl
@[simp] theorem setRst_enc (x : Rst) : (setRst s x).enc = s.enc := rfl
@[simp] theorem setRst_stk (x : Rst) : (setRst s x).stk = s.stk := rfl
@[simp] theorem setRst_thm (x : Rst) : (setRst s x).thm = s.thm := rfl
@[simp] theorem setRst_iob (x : Rst) : (setRst s x).iob = s.iob := rfl
@[simp] theorem setRst_hostWr (x : Rst) : (setRst s x).hostWr = s.hostWr := rfl
@[simp] theorem setRst_rsps (x : Rst) : (setRst s x).rsps = s.rsps := rfl
@[simp] theorem setRst_pci (x : Rst) : (setRst s x).pci = s.pci := rfl
@[simp] theorem setRst_cfg (x : Rst) : (setRst s x).cfg = s.cfg := rfl
@[simp] theorem setRst_sbx (x : Rst) : (setRst s x).sbx = s.sbx := rfl
@[simp] theorem setRst_bst (x : Rst) : (setRst s x).bst = s.bst := rfl
@[simp] theorem setRst_dbg (x : Rst) : (setRst s x).dbg = s.dbg := rfl
@[simp] theorem setRst_free (x : Rst) : (setRst s x).free = s.free := rfl
@[simp] theorem setRst_pending (x : Rst) : (setRst s x).pending = s.pending := rfl
@[simp] theorem fld_setRst (x : Rst) (g : Fld) : fld (setRst s x) g = fld s g := rfl

/-! ### setCfg -/
@[simp] theorem setCfg_regs (x : Session) : (setCfg s x).regs = s.regs := rfl
@[simp] theorem setCfg_latch (x : Session) : (setCfg s x).latch = s.latch := rfl
@[simp] theorem setCfg_evq (x : Session) : (setCfg s x).evq = s.evq := rfl
@[simp] theorem setCfg_log (x : Session) : (setCfg s x).log = s.log := rfl
@[simp] theorem setCfg_windows (x : Session) : (setCfg s x).windows = s.windows := rfl
@[simp] theorem setCfg_mirrorQ (x : Session) : (setCfg s x).mirrorQ = s.mirrorQ := rfl
@[simp] theorem setCfg_axes (x : Session) : (setCfg s x).axes = s.axes := rfl
@[simp] theorem setCfg_encs (x : Session) : (setCfg s x).encs = s.encs := rfl
@[simp] theorem setCfg_rt (x : Session) : (setCfg s x).rt = s.rt := rfl
@[simp] theorem setCfg_tt (x : Session) : (setCfg s x).tt = s.tt := rfl
@[simp] theorem setCfg_dsp (x : Session) : (setCfg s x).dsp = s.dsp := rfl
@[simp] theorem setCfg_ports (x : Session) : (setCfg s x).ports = s.ports := rfl
@[simp] theorem setCfg_node (x : Session) : (setCfg s x).node = s.node := rfl
@[simp] theorem setCfg_modules (x : Session) : (setCfg s x).modules = s.modules := rfl
@[simp] theorem setCfg_lanes (x : Session) : (setCfg s x).lanes = s.lanes := rfl
@[simp] theorem setCfg_regions (x : Session) : (setCfg s x).regions = s.regions := rfl
@[simp] theorem setCfg_fab (x : Session) : (setCfg s x).fab = s.fab := rfl
@[simp] theorem setCfg_engines (x : Session) : (setCfg s x).engines = s.engines := rfl
@[simp] theorem setCfg_clk (x : Session) : (setCfg s x).clk = s.clk := rfl
@[simp] theorem setCfg_pwr (x : Session) : (setCfg s x).pwr = s.pwr := rfl
@[simp] theorem setCfg_wire (x : Session) : (setCfg s x).wire = s.wire := rfl
@[simp] theorem setCfg_mem (x : Session) : (setCfg s x).mem = s.mem := rfl
@[simp] theorem setCfg_cache (x : Session) : (setCfg s x).cache = s.cache := rfl
@[simp] theorem setCfg_hwn (x : Session) : (setCfg s x).hwn = s.hwn := rfl
@[simp] theorem setCfg_enc (x : Session) : (setCfg s x).enc = s.enc := rfl
@[simp] theorem setCfg_stk (x : Session) : (setCfg s x).stk = s.stk := rfl
@[simp] theorem setCfg_thm (x : Session) : (setCfg s x).thm = s.thm := rfl
@[simp] theorem setCfg_iob (x : Session) : (setCfg s x).iob = s.iob := rfl
@[simp] theorem setCfg_hostWr (x : Session) : (setCfg s x).hostWr = s.hostWr := rfl
@[simp] theorem setCfg_rsps (x : Session) : (setCfg s x).rsps = s.rsps := rfl
@[simp] theorem setCfg_pci (x : Session) : (setCfg s x).pci = s.pci := rfl
@[simp] theorem setCfg_rst (x : Session) : (setCfg s x).rst = s.rst := rfl
@[simp] theorem setCfg_sbx (x : Session) : (setCfg s x).sbx = s.sbx := rfl
@[simp] theorem setCfg_bst (x : Session) : (setCfg s x).bst = s.bst := rfl
@[simp] theorem setCfg_dbg (x : Session) : (setCfg s x).dbg = s.dbg := rfl
@[simp] theorem setCfg_free (x : Session) : (setCfg s x).free = s.free := rfl
@[simp] theorem setCfg_pending (x : Session) : (setCfg s x).pending = s.pending := rfl
@[simp] theorem fld_setCfg (x : Session) (g : Fld) : fld (setCfg s x) g = fld s g := rfl

/-! ### setSbx -/
@[simp] theorem setSbx_regs (x : Sbx) : (setSbx s x).regs = s.regs := rfl
@[simp] theorem setSbx_latch (x : Sbx) : (setSbx s x).latch = s.latch := rfl
@[simp] theorem setSbx_evq (x : Sbx) : (setSbx s x).evq = s.evq := rfl
@[simp] theorem setSbx_log (x : Sbx) : (setSbx s x).log = s.log := rfl
@[simp] theorem setSbx_windows (x : Sbx) : (setSbx s x).windows = s.windows := rfl
@[simp] theorem setSbx_mirrorQ (x : Sbx) : (setSbx s x).mirrorQ = s.mirrorQ := rfl
@[simp] theorem setSbx_axes (x : Sbx) : (setSbx s x).axes = s.axes := rfl
@[simp] theorem setSbx_encs (x : Sbx) : (setSbx s x).encs = s.encs := rfl
@[simp] theorem setSbx_rt (x : Sbx) : (setSbx s x).rt = s.rt := rfl
@[simp] theorem setSbx_tt (x : Sbx) : (setSbx s x).tt = s.tt := rfl
@[simp] theorem setSbx_dsp (x : Sbx) : (setSbx s x).dsp = s.dsp := rfl
@[simp] theorem setSbx_ports (x : Sbx) : (setSbx s x).ports = s.ports := rfl
@[simp] theorem setSbx_node (x : Sbx) : (setSbx s x).node = s.node := rfl
@[simp] theorem setSbx_modules (x : Sbx) : (setSbx s x).modules = s.modules := rfl
@[simp] theorem setSbx_lanes (x : Sbx) : (setSbx s x).lanes = s.lanes := rfl
@[simp] theorem setSbx_regions (x : Sbx) : (setSbx s x).regions = s.regions := rfl
@[simp] theorem setSbx_fab (x : Sbx) : (setSbx s x).fab = s.fab := rfl
@[simp] theorem setSbx_engines (x : Sbx) : (setSbx s x).engines = s.engines := rfl
@[simp] theorem setSbx_clk (x : Sbx) : (setSbx s x).clk = s.clk := rfl
@[simp] theorem setSbx_pwr (x : Sbx) : (setSbx s x).pwr = s.pwr := rfl
@[simp] theorem setSbx_wire (x : Sbx) : (setSbx s x).wire = s.wire := rfl
@[simp] theorem setSbx_mem (x : Sbx) : (setSbx s x).mem = s.mem := rfl
@[simp] theorem setSbx_cache (x : Sbx) : (setSbx s x).cache = s.cache := rfl
@[simp] theorem setSbx_hwn (x : Sbx) : (setSbx s x).hwn = s.hwn := rfl
@[simp] theorem setSbx_enc (x : Sbx) : (setSbx s x).enc = s.enc := rfl
@[simp] theorem setSbx_stk (x : Sbx) : (setSbx s x).stk = s.stk := rfl
@[simp] theorem setSbx_thm (x : Sbx) : (setSbx s x).thm = s.thm := rfl
@[simp] theorem setSbx_iob (x : Sbx) : (setSbx s x).iob = s.iob := rfl
@[simp] theorem setSbx_hostWr (x : Sbx) : (setSbx s x).hostWr = s.hostWr := rfl
@[simp] theorem setSbx_rsps (x : Sbx) : (setSbx s x).rsps = s.rsps := rfl
@[simp] theorem setSbx_pci (x : Sbx) : (setSbx s x).pci = s.pci := rfl
@[simp] theorem setSbx_rst (x : Sbx) : (setSbx s x).rst = s.rst := rfl
@[simp] theorem setSbx_cfg (x : Sbx) : (setSbx s x).cfg = s.cfg := rfl
@[simp] theorem setSbx_bst (x : Sbx) : (setSbx s x).bst = s.bst := rfl
@[simp] theorem setSbx_dbg (x : Sbx) : (setSbx s x).dbg = s.dbg := rfl
@[simp] theorem setSbx_free (x : Sbx) : (setSbx s x).free = s.free := rfl
@[simp] theorem setSbx_pending (x : Sbx) : (setSbx s x).pending = s.pending := rfl
@[simp] theorem fld_setSbx (x : Sbx) (g : Fld) : fld (setSbx s x) g = fld s g := rfl

/-! ### setBst -/
@[simp] theorem setBst_regs (x : Bst) : (setBst s x).regs = s.regs := rfl
@[simp] theorem setBst_latch (x : Bst) : (setBst s x).latch = s.latch := rfl
@[simp] theorem setBst_evq (x : Bst) : (setBst s x).evq = s.evq := rfl
@[simp] theorem setBst_log (x : Bst) : (setBst s x).log = s.log := rfl
@[simp] theorem setBst_windows (x : Bst) : (setBst s x).windows = s.windows := rfl
@[simp] theorem setBst_mirrorQ (x : Bst) : (setBst s x).mirrorQ = s.mirrorQ := rfl
@[simp] theorem setBst_axes (x : Bst) : (setBst s x).axes = s.axes := rfl
@[simp] theorem setBst_encs (x : Bst) : (setBst s x).encs = s.encs := rfl
@[simp] theorem setBst_rt (x : Bst) : (setBst s x).rt = s.rt := rfl
@[simp] theorem setBst_tt (x : Bst) : (setBst s x).tt = s.tt := rfl
@[simp] theorem setBst_dsp (x : Bst) : (setBst s x).dsp = s.dsp := rfl
@[simp] theorem setBst_ports (x : Bst) : (setBst s x).ports = s.ports := rfl
@[simp] theorem setBst_node (x : Bst) : (setBst s x).node = s.node := rfl
@[simp] theorem setBst_modules (x : Bst) : (setBst s x).modules = s.modules := rfl
@[simp] theorem setBst_lanes (x : Bst) : (setBst s x).lanes = s.lanes := rfl
@[simp] theorem setBst_regions (x : Bst) : (setBst s x).regions = s.regions := rfl
@[simp] theorem setBst_fab (x : Bst) : (setBst s x).fab = s.fab := rfl
@[simp] theorem setBst_engines (x : Bst) : (setBst s x).engines = s.engines := rfl
@[simp] theorem setBst_clk (x : Bst) : (setBst s x).clk = s.clk := rfl
@[simp] theorem setBst_pwr (x : Bst) : (setBst s x).pwr = s.pwr := rfl
@[simp] theorem setBst_wire (x : Bst) : (setBst s x).wire = s.wire := rfl
@[simp] theorem setBst_mem (x : Bst) : (setBst s x).mem = s.mem := rfl
@[simp] theorem setBst_cache (x : Bst) : (setBst s x).cache = s.cache := rfl
@[simp] theorem setBst_hwn (x : Bst) : (setBst s x).hwn = s.hwn := rfl
@[simp] theorem setBst_enc (x : Bst) : (setBst s x).enc = s.enc := rfl
@[simp] theorem setBst_stk (x : Bst) : (setBst s x).stk = s.stk := rfl
@[simp] theorem setBst_thm (x : Bst) : (setBst s x).thm = s.thm := rfl
@[simp] theorem setBst_iob (x : Bst) : (setBst s x).iob = s.iob := rfl
@[simp] theorem setBst_hostWr (x : Bst) : (setBst s x).hostWr = s.hostWr := rfl
@[simp] theorem setBst_rsps (x : Bst) : (setBst s x).rsps = s.rsps := rfl
@[simp] theorem setBst_pci (x : Bst) : (setBst s x).pci = s.pci := rfl
@[simp] theorem setBst_rst (x : Bst) : (setBst s x).rst = s.rst := rfl
@[simp] theorem setBst_cfg (x : Bst) : (setBst s x).cfg = s.cfg := rfl
@[simp] theorem setBst_sbx (x : Bst) : (setBst s x).sbx = s.sbx := rfl
@[simp] theorem setBst_dbg (x : Bst) : (setBst s x).dbg = s.dbg := rfl
@[simp] theorem setBst_free (x : Bst) : (setBst s x).free = s.free := rfl
@[simp] theorem setBst_pending (x : Bst) : (setBst s x).pending = s.pending := rfl
@[simp] theorem fld_setBst (x : Bst) (g : Fld) : fld (setBst s x) g = fld s g := rfl

/-! ### setDbg -/
@[simp] theorem setDbg_regs (x : Dbg) : (setDbg s x).regs = s.regs := rfl
@[simp] theorem setDbg_latch (x : Dbg) : (setDbg s x).latch = s.latch := rfl
@[simp] theorem setDbg_evq (x : Dbg) : (setDbg s x).evq = s.evq := rfl
@[simp] theorem setDbg_log (x : Dbg) : (setDbg s x).log = s.log := rfl
@[simp] theorem setDbg_windows (x : Dbg) : (setDbg s x).windows = s.windows := rfl
@[simp] theorem setDbg_mirrorQ (x : Dbg) : (setDbg s x).mirrorQ = s.mirrorQ := rfl
@[simp] theorem setDbg_axes (x : Dbg) : (setDbg s x).axes = s.axes := rfl
@[simp] theorem setDbg_encs (x : Dbg) : (setDbg s x).encs = s.encs := rfl
@[simp] theorem setDbg_rt (x : Dbg) : (setDbg s x).rt = s.rt := rfl
@[simp] theorem setDbg_tt (x : Dbg) : (setDbg s x).tt = s.tt := rfl
@[simp] theorem setDbg_dsp (x : Dbg) : (setDbg s x).dsp = s.dsp := rfl
@[simp] theorem setDbg_ports (x : Dbg) : (setDbg s x).ports = s.ports := rfl
@[simp] theorem setDbg_node (x : Dbg) : (setDbg s x).node = s.node := rfl
@[simp] theorem setDbg_modules (x : Dbg) : (setDbg s x).modules = s.modules := rfl
@[simp] theorem setDbg_lanes (x : Dbg) : (setDbg s x).lanes = s.lanes := rfl
@[simp] theorem setDbg_regions (x : Dbg) : (setDbg s x).regions = s.regions := rfl
@[simp] theorem setDbg_fab (x : Dbg) : (setDbg s x).fab = s.fab := rfl
@[simp] theorem setDbg_engines (x : Dbg) : (setDbg s x).engines = s.engines := rfl
@[simp] theorem setDbg_clk (x : Dbg) : (setDbg s x).clk = s.clk := rfl
@[simp] theorem setDbg_pwr (x : Dbg) : (setDbg s x).pwr = s.pwr := rfl
@[simp] theorem setDbg_wire (x : Dbg) : (setDbg s x).wire = s.wire := rfl
@[simp] theorem setDbg_mem (x : Dbg) : (setDbg s x).mem = s.mem := rfl
@[simp] theorem setDbg_cache (x : Dbg) : (setDbg s x).cache = s.cache := rfl
@[simp] theorem setDbg_hwn (x : Dbg) : (setDbg s x).hwn = s.hwn := rfl
@[simp] theorem setDbg_enc (x : Dbg) : (setDbg s x).enc = s.enc := rfl
@[simp] theorem setDbg_stk (x : Dbg) : (setDbg s x).stk = s.stk := rfl
@[simp] theorem setDbg_thm (x : Dbg) : (setDbg s x).thm = s.thm := rfl
@[simp] theorem setDbg_iob (x : Dbg) : (setDbg s x).iob = s.iob := rfl
@[simp] theorem setDbg_hostWr (x : Dbg) : (setDbg s x).hostWr = s.hostWr := rfl
@[simp] theorem setDbg_rsps (x : Dbg) : (setDbg s x).rsps = s.rsps := rfl
@[simp] theorem setDbg_pci (x : Dbg) : (setDbg s x).pci = s.pci := rfl
@[simp] theorem setDbg_rst (x : Dbg) : (setDbg s x).rst = s.rst := rfl
@[simp] theorem setDbg_cfg (x : Dbg) : (setDbg s x).cfg = s.cfg := rfl
@[simp] theorem setDbg_sbx (x : Dbg) : (setDbg s x).sbx = s.sbx := rfl
@[simp] theorem setDbg_bst (x : Dbg) : (setDbg s x).bst = s.bst := rfl
@[simp] theorem setDbg_free (x : Dbg) : (setDbg s x).free = s.free := rfl
@[simp] theorem setDbg_pending (x : Dbg) : (setDbg s x).pending = s.pending := rfl
@[simp] theorem fld_setDbg (x : Dbg) (g : Fld) : fld (setDbg s x) g = fld s g := rfl

@[simp] theorem setTt_tt (x : Timetable) : (setTt s x).tt = x := rfl
@[simp] theorem setDsp_dsp (x : Dispatch) : (setDsp s x).dsp = x := rfl
@[simp] theorem setFab_fab (x : Fabric) : (setFab s x).fab = x := rfl
@[simp] theorem setClk_clk (x : Clock) : (setClk s x).clk = x := rfl
@[simp] theorem setPwr_pwr (x : Power) : (setPwr s x).pwr = x := rfl
@[simp] theorem setCache_cache (x : Cache) : (setCache s x).cache = x := rfl
@[simp] theorem setHwn_hwn (x : HostWin) : (setHwn s x).hwn = x := rfl
@[simp] theorem setSeal_enc (x : Sealing) : (setSeal s x).enc = x := rfl
@[simp] theorem setStk_stk (x : Stack) : (setStk s x).stk = x := rfl
@[simp] theorem setThm_thm (x : Thermal) : (setThm s x).thm = x := rfl
@[simp] theorem setIob_iob (x : Iob) : (setIob s x).iob = x := rfl
@[simp] theorem setPci_pci (x : Pci) : (setPci s x).pci = x := rfl
@[simp] theorem setRst_rst (x : Rst) : (setRst s x).rst = x := rfl
@[simp] theorem setCfg_cfg (x : Session) : (setCfg s x).cfg = x := rfl
@[simp] theorem setSbx_sbx (x : Sbx) : (setSbx s x).sbx = x := rfl
@[simp] theorem setBst_bst (x : Bst) : (setBst s x).bst = x := rfl
@[simp] theorem setDbg_dbg (x : Dbg) : (setDbg s x).dbg = x := rfl
@[simp] theorem drawn_free : (drawn s).free = s.free + 1 := rfl
@[simp] theorem raise_evq (code : Nat) (items : List (Nat × Nat)) : (raise s code items).evq = s.evq ++ [⟨code, none, false, items⟩] := rfl
@[simp] theorem raiseMerged_evq (code scope : Nat) (items : List (Nat × Nat)) : (raiseMerged s code scope items).evq = s.evq ++ [⟨code, some scope, false, items⟩] := rfl
@[simp] theorem raiseNmi_evq (code : Nat) : (raiseNmi s code).evq = s.evq ++ [⟨code, none, true, []⟩] := rfl
@[simp] theorem postHost_hostWr (addr len data : Nat) : (postHost s addr len data).hostWr = ⟨addr, len, data % 2 ^ (8 * len)⟩ :: s.hostWr := rfl
@[simp] theorem respond_rsps (m tag status data : Nat) : (respond s m tag status data).rsps = ⟨m, tag, status, data⟩ :: s.rsps := rfl

end Sys2Proof.Machine
end

