-- ==== Sys2Proof/Laws/Registers.lean ====
section
/-! SUPPORT. What the register operations do: the field written, every other field, and the order of the register map. -/
namespace Sys2Proof.Machine

/-- A field reads what was written to it, cut to its width. -/
@[simp] theorem fld_setFld_same (s : State) (f : Fld) (v : Nat) : fld (setFld s f v) f = v % 2 ^ f.width :=
  (congrArg (· % 2 ^ f.width) (smGet_smSet_same ..)).trans (Nat.mod_mod ..)

/-- A field's value fits its width, in every state. -/
theorem fld_lt (s : State) (f : Fld) : fld s f < 2 ^ f.width := Nat.mod_lt _ (Nat.two_pow_pos _)

@[simp] theorem fld_mod (s : State) (f : Fld) : fld s f % 2 ^ f.width = fld s f := Nat.mod_mod ..

/-- A write to one field leaves every other one alone. -/
theorem fld_setFld_ne (s : State) {f g : Fld} (h : g.key ≠ f.key) (v : Nat) : fld (setFld s f v) g = fld s g :=
  congrArg (· % 2 ^ g.width) (smGet_smSet_ne _ h ..)

@[simp] theorem setFld_rising {s : State} (h : smRisingFrom none s.regs = true) (f : Fld) (v : Nat) :
    smRisingFrom none (setFld s f v).regs = true := smSet_rising h ..

@[simp] theorem resetOffsets_rising {s : State} (h : smRisingFrom none s.regs = true) (lo hi : Nat) :
    smRisingFrom none (resetOffsets s lo hi).regs = true := smFilter_rising h _

/-- A saturating addition writes the sum or the highest value. -/
theorem fld_satAdd_same (s : State) (f : Fld) (n : Nat) :
    fld (satAdd s f n) f = min (fld s f + n) (2 ^ f.width - 1) := by
  have hw : 0 < 2 ^ f.width := Nat.two_pow_pos _
  rw [satAdd, fld_setFld_same, Nat.mod_eq_of_lt (by omega)]

theorem fld_satAdd_ne (s : State) {f g : Fld} (h : g.key ≠ f.key) (n : Nat) : fld (satAdd s f n) g = fld s g :=
  fld_setFld_ne s h _

@[simp] theorem satAdd_rising {s : State} (h : smRisingFrom none s.regs = true) (f : Fld) (n : Nat) :
    smRisingFrom none (satAdd s f n).regs = true := setFld_rising h ..

@[simp] theorem satInc_rising {s : State} (h : smRisingFrom none s.regs = true) (f : Fld) :
    smRisingFrom none (satInc s f).regs = true := satAdd_rising h ..

theorem fld_satInc_same (s : State) (f : Fld) :
    fld (satInc s f) f = min (fld s f + 1) (2 ^ f.width - 1) := fld_satAdd_same s f 1

theorem fld_satInc_ne (s : State) {f g : Fld} (h : g.key ≠ f.key) : fld (satInc s f) g = fld s g := fld_satAdd_ne s h 1

/-- A peak field takes a higher value only. -/
theorem fld_peak_same (s : State) (f : Fld) (v : Nat) :
    fld (peak s f v) f = if fld s f < v then v % 2 ^ f.width else fld s f := by
  unfold peak
  split
  · exact fld_setFld_same s f v
  · rfl

theorem fld_peak_ne (s : State) {f g : Fld} (h : g.key ≠ f.key) (v : Nat) : fld (peak s f v) g = fld s g := by
  unfold peak
  split
  · exact fld_setFld_ne s h v
  · rfl

@[simp] theorem peak_rising {s : State} (h : smRisingFrom none s.regs = true) (f : Fld) (v : Nat) :
    smRisingFrom none (peak s f v).regs = true := by
  unfold peak
  split
  · exact setFld_rising h f v
  · exact h

/-- Every field of a reset range reads its reset value, every other field is as before. -/
theorem fld_resetOffsets (s : State) (lo hi : Nat) (f : Fld) :
    fld (resetOffsets s lo hi) f = if 8 * lo ≤ f.key ∧ f.key < 8 * hi then f.reset % 2 ^ f.width else fld s f := by
  unfold fld resetOffsets
  rw [smGet_smDrop, apply_ite (· % 2 ^ f.width)]

/-- An operation for each element keeps what every single one keeps. -/
theorem forEach_keeps {α : Type} {P : State → Prop} {f : State → α → State} (hf : ∀ s x, P s → P (f s x)) (l : List α)
    {s : State} (h : P s) : P (forEach l f s) := by
  induction l generalizing s with
  | nil => exact h
  | cons x t ih => exact ih (hf s x h)

end Sys2Proof.Machine
end

