-- ==== Sys2Proof/Laws/Events.lean ====
section
/-! SUPPORT. What logging the events of a command does: it changes the log, the merge windows, the queue of the flash
mirror and its count of losses, and the pending vector of function 0; nothing else. -/
namespace Sys2Proof.Machine

/-- Where the log alone may change: every part of the state and every field but these. -/
structure LogOnly (s t : State) : Prop where
  parts : t = { s with
    regs := t.regs
    evq := t.evq
    log := t.log
    windows := t.windows
    mirrorQ := t.mirrorQ
    sbx := { s.sbx with lost := t.sbx.lost } }
  flds : ∀ f : Fld, f.key ≠ F.SBX_MIRROR_LOST.key → f.key ≠ F.PCI_PBA_PENDING.key → fld t f = fld s f
  rises : smRisingFrom none s.regs = true → smRisingFrom none t.regs = true
  evs : t.evq = s.evq

theorem LogOnly.same (s : State) : LogOnly s s := ⟨rfl, fun _ _ _ => rfl, id, rfl⟩

theorem LogOnly.trans {s t u : State} (h : LogOnly s t) (k : LogOnly t u) : LogOnly s u := by
  obtain ⟨h1, h2, h3, h4⟩ := h
  obtain ⟨k1, k2, k3, k4⟩ := k
  refine ⟨?_, fun f a b => (k2 f a b).trans (h2 f a b), fun r => k3 (h3 r), k4.trans h4⟩
  rw [k1, h1]

theorem logOnly_setLost (s : State) (v : Nat) : LogOnly s (setFld s F.SBX_MIRROR_LOST v) :=
  ⟨rfl, fun _ a _ => fld_setFld_ne s a v, fun h => setFld_rising h .., rfl⟩

theorem logOnly_pendVec (s : State) (v : Nat) : LogOnly s (pendVec s v) := by
  unfold pendVec
  split
  · exact .same s
  · exact ⟨rfl, fun _ _ b => fld_setFld_ne s b _, fun h => setFld_rising h .., rfl⟩

theorem logOnly_mirrorRec (s : State) (r : LogRec) : LogOnly s (mirrorRec s r) := by
  unfold mirrorRec
  split
  · exact ⟨rfl, fun _ _ _ => rfl, id, rfl⟩
  · exact LogOnly.trans (t := { s with sbx := { s.sbx with lost := true } }) ⟨rfl, fun _ _ _ => rfl, id, rfl⟩
      (logOnly_setLost _ _)

theorem logOnly_vecRec (s : State) (code : Nat) : LogOnly s (vecRec s code) := by
  unfold vecRec
  split
  · exact logOnly_pendVec s 0
  · exact .same s

theorem logOnly_writeRec (s : State) (code count time data : Nat) (nmi cont : Bool) :
    LogOnly s (writeRec s code count time data nmi cont) :=
  LogOnly.trans (t := pushRec s (newRec s code count time data nmi cont)) ⟨rfl, fun _ _ _ => rfl, id, rfl⟩
    ((logOnly_mirrorRec ..).trans (logOnly_vecRec ..))

theorem logOnly_writeCont (s : State) (code time data : Nat) (nmi : Bool) (n : Nat) :
    LogOnly s (writeCont s code time data nmi n) := by
  induction n generalizing s data with
  | zero => exact .same s
  | succ n ih => exact (logOnly_writeRec ..).trans (ih ..)

theorem logOnly_logEv (s : State) (e : Ev) : LogOnly s (logEv s e) := by
  unfold logEv
  split
  · exact (logOnly_writeRec ..).trans (logOnly_writeCont ..)
  · split
    · exact ⟨rfl, fun _ _ _ => rfl, id, rfl⟩
    · exact ((logOnly_writeRec ..).trans (logOnly_writeCont ..)).trans ⟨rfl, fun _ _ _ => rfl, id, rfl⟩

theorem logOnly_foldl (l : List Ev) (s : State) : LogOnly s (l.foldl logEv s) := by
  induction l generalizing s with
  | nil => exact .same s
  | cons e t ih => exact (logOnly_logEv s e).trans (ih _)

/-- The end of a command leaves everything but the log and what hangs on it alone. -/
theorem logOnly_finish (s : State) : LogOnly { s with evq := [] } (finish s) := logOnly_foldl ..

@[simp] theorem finish_evq (s : State) : (finish s).evq = [] := (logOnly_finish s).evs

/-- A command that raised nothing ends as it is. -/
theorem finish_quiet {s : State} (h : s.evq = []) : finish s = s := by
  cases s
  simp_all [finish, sortEvs]

theorem fld_finish (s : State) {f : Fld} (a : f.key ≠ F.SBX_MIRROR_LOST.key) (b : f.key ≠ F.PCI_PBA_PENDING.key) :
    fld (finish s) f = fld s f := (logOnly_finish s).flds f a b

end Sys2Proof.Machine
end

