-- ==== Sys2Proof/Laws/Claims.lean ====
section
/-! SUPPORT. How a command completes: the lemmas that turn an unfolded meaning into the form that claims use. -/
namespace Sys2Proof.Machine

variable (s : State)

@[simp] theorem hush_regs : (hush s).regs = s.regs := rfl
@[simp] theorem hush_latch : (hush s).latch = s.latch := rfl
@[simp] theorem hush_log : (hush s).log = s.log := rfl
@[simp] theorem hush_windows : (hush s).windows = s.windows := rfl
@[simp] theorem hush_mirrorQ : (hush s).mirrorQ = s.mirrorQ := rfl
@[simp] theorem hush_axes : (hush s).axes = s.axes := rfl
@[simp] theorem hush_encs : (hush s).encs = s.encs := rfl
@[simp] theorem hush_rt : (hush s).rt = s.rt := rfl
@[simp] theorem hush_tt : (hush s).tt = s.tt := rfl
@[simp] theorem hush_dsp : (hush s).dsp = s.dsp := rfl
@[simp] theorem hush_ports : (hush s).ports = s.ports := rfl
@[simp] theorem hush_node : (hush s).node = s.node := rfl
@[simp] theorem hush_modules : (hush s).modules = s.modules := rfl
@[simp] theorem hush_lanes : (hush s).lanes = s.lanes := rfl
@[simp] theorem hush_regions : (hush s).regions = s.regions := rfl
@[simp] theorem hush_fab : (hush s).fab = s.fab := rfl
@[simp] theorem hush_engines : (hush s).engines = s.engines := rfl
@[simp] theorem hush_clk : (hush s).clk = s.clk := rfl
@[simp] theorem hush_pwr : (hush s).pwr = s.pwr := rfl
@[simp] theorem hush_wire : (hush s).wire = s.wire := rfl
@[simp] theorem hush_mem : (hush s).mem = s.mem := rfl
@[simp] theorem hush_cache : (hush s).cache = s.cache := rfl
@[simp] theorem hush_hwn : (hush s).hwn = s.hwn := rfl
@[simp] theorem hush_enc : (hush s).enc = s.enc := rfl
@[simp] theorem hush_stk : (hush s).stk = s.stk := rfl
@[simp] theorem hush_thm : (hush s).thm = s.thm := rfl
@[simp] theorem hush_iob : (hush s).iob = s.iob := rfl
@[simp] theorem hush_hostWr : (hush s).hostWr = s.hostWr := rfl
@[simp] theorem hush_rsps : (hush s).rsps = s.rsps := rfl
@[simp] theorem hush_pci : (hush s).pci = s.pci := rfl
@[simp] theorem hush_rst : (hush s).rst = s.rst := rfl
@[simp] theorem hush_cfg : (hush s).cfg = s.cfg := rfl
@[simp] theorem hush_sbx : (hush s).sbx = s.sbx := rfl
@[simp] theorem hush_bst : (hush s).bst = s.bst := rfl
@[simp] theorem hush_dbg : (hush s).dbg = s.dbg := rfl
@[simp] theorem hush_free : (hush s).free = s.free := rfl
@[simp] theorem hush_pending : (hush s).pending = s.pending := rfl
@[simp] theorem hush_evq : (hush s).evq = [] := rfl
@[simp] theorem fld_hush (f : Fld) : fld (hush s) f = fld s f := rfl

/-- Nothing waits: nothing to drop. -/
theorem hush_quiet {s : State} (h : s.evq = []) : hush s = s := by
  cases s
  simp only at h
  subst h
  rfl

/-- A command whose meaning ends in the state `w` completes to `w` with the events it raised. -/
theorem completes_of {c : Instr} {s w : State} {es : List Ev} {P : State → Prop} (h : exec c s = done w) (he : w.evq = es)
    (hP : P (hush w)) : Completes c s es P := by
  refine ⟨hush w, ⟨rfl, ?_⟩, hP⟩
  subst he
  exact h

theorem runs_of {c : Instr} {s w : State} {P : State → Prop} (h : exec c s = done w) (hP : P (hush w)) : Runs c s P :=
  ⟨w.evq, completes_of h rfl hP⟩

/-- A command that raises nothing completes to the state its meaning ends in. -/
theorem completes_quiet {c : Instr} {s w : State} {P : State → Prop} (h : exec c s = done w) (he : w.evq = []) (hP : P w) :
    Completes c s [] P := by
  refine completes_of h he ?_
  rw [hush_quiet he]
  exact hP

theorem OnlyParts.refl (ps : List Part) (s : State) : OnlyParts ps s s := fun p _ => by cases p <;> rfl

theorem OnlyParts.trans {ps : List Part} {s t u : State} (h : OnlyParts ps s t) (k : OnlyParts ps t u) : OnlyParts ps s u := by
  intro p hp
  have h1 := h p hp
  have h2 := k p hp
  cases p <;> exact h2.trans h1

theorem OnlyParts.mono {ps qs : List Part} {s t : State} (h : OnlyParts ps s t) (hs : ∀ p, p ∈ ps → p ∈ qs) : OnlyParts qs s t :=
  fun p hp => h p fun hm => hp (hs p hm)

theorem OnlyFlds.refl (fs : List Fld) (s : State) : OnlyFlds fs s s := fun _ _ => rfl

theorem OnlyFlds.trans {fs : List Fld} {s t u : State} (h : OnlyFlds fs s t) (k : OnlyFlds fs t u) : OnlyFlds fs s u :=
  fun f hf => (k f hf).trans (h f hf)

theorem onlyFlds_setFld {fs : List Fld} (s : State) {f : Fld} (h : f ∈ fs) (v : Nat) : OnlyFlds fs s (setFld s f v) := by
  intro g hg
  refine fld_setFld_ne s (fun e => hg ?_) v
  rw [e]
  exact List.mem_map_of_mem h

end Sys2Proof.Machine
end

