-- ==== Sys2Proof/Laws/Memory.lean ====
section
/-! SUPPORT. The memory operations keep the canonical form `Memory.wf`, and what one byte reads after a write. -/
namespace Sys2Proof.Machine

theorem Memory.wf_iff (m : Memory) : m.wf = true ↔ smRisingFrom none m.cells = true ∧ (∀ e ∈ m.cells, e.2 ≠ cellDef m e.1)
    ∧ smWf 0 m.poison = true ∧ smWf 0 m.scram = true ∧ smWf 0 m.owner = true := by
  simp [Memory.wf, and_assoc]

/-- What an unlisted byte reads depends on `scram` alone. -/
theorem cellDef_congr {m n : Memory} (h : m.scram = n.scram) (a : Nat) : cellDef m a = cellDef n a := by simp [cellDef, h]

/-- A byte reads what was written to it. -/
theorem cell_setCell_same (s : State) (l o : Nat) (v : Byte) : cell (setCell s l o v) l o = v := smGet_smSet_same ..

/-- A write of one byte leaves every other byte alone. -/
theorem cell_setCell_ne (s : State) {l o l' o' : Nat} (h : 64 * l' + o' ≠ 64 * l + o) (v : Byte) :
    cell (setCell s l o v) l' o' = cell s l' o' := smGet_smSet_ne _ h ..

theorem mem_smSet_val {α : Type} [DecidableEq α] {m : SMap α} {k : Nat} {v d : α} {e : Nat × α} (h : e ∈ smSet m k v d) :
    (e.1 = k ∧ e.2 = v ∧ v ≠ d) ∨ e ∈ m := by
  unfold smSet at h
  split at h
  · exact .inr (mem_smDel h).1
  · rename_i hv
    rcases mem_smPut h with rfl | h
    · exact .inl ⟨rfl, rfl, hv⟩
    · exact .inr (mem_smDel h).1

theorem setCell_wf {s : State} (h : s.mem.wf = true) (l o : Nat) (v : Byte) : (setCell s l o v).mem.wf = true := by
  rw [Memory.wf_iff] at h ⊢
  obtain ⟨h1, h2, h3⟩ := h
  refine ⟨smSet_rising h1 .., fun e he => ?_, h3⟩
  have hc : cellDef (setCell s l o v).mem e.1 = cellDef s.mem e.1 := cellDef_congr rfl _
  rw [hc]
  rcases mem_smSet_val he with ⟨hk, hv, hne⟩ | he
  · rw [hk, hv]; exact hne
  · exact h2 e he

theorem setLineBytes_wf {s : State} (h : s.mem.wf = true) (l o n mask v : Nat) : (setLineBytes s l o n mask v).mem.wf = true := by
  induction n generalizing s o mask v with
  | zero => exact h
  | succ n ih =>
    unfold setLineBytes
    split
    · exact ih (setCell_wf h ..) ..
    · exact ih h ..

theorem setPoison_wf {s : State} (h : s.mem.wf = true) (l : Nat) (b : Bool) : (setPoison s l b).mem.wf = true := by
  rw [Memory.wf_iff] at h ⊢
  exact ⟨h.1, fun e he => by rw [cellDef_congr (m := (setPoison s l b).mem) (n := s.mem) rfl]; exact h.2.1 e he, smSet_wf h.2.2.1 .., h.2.2.2⟩

theorem setOwner_wf {s : State} (h : s.mem.wf = true) (k v : Nat) : (setOwner s k v).mem.wf = true := by
  rw [Memory.wf_iff] at h ⊢
  exact ⟨h.1, fun e he => by rw [cellDef_congr (m := (setOwner s k v).mem) (n := s.mem) rfl]; exact h.2.1 e he, h.2.2.1, h.2.2.2.1,
    smSet_wf h.2.2.2.2 ..⟩

/-- A write of a line, whatever it covers and whether it is served. -/
theorem memStore_wf {s : State} (h : s.mem.wf = true) (m a n mask v : Nat) : (memStore s m a n mask v).2.mem.wf = true := by
  unfold memStore
  dsimp only
  split
  · exact h
  · split <;> split <;> first | exact h | exact setLineBytes_wf (setPoison_wf h ..) ..

theorem memStoreBytes_wf {s : State} (h : s.mem.wf = true) (m a : Nat) (l : List Byte) : (memStoreBytes s m a l).2.mem.wf = true := by
  induction l generalizing s a with
  | nil => exact h
  | cons b t ih =>
    unfold memStoreBytes
    dsimp only
    split
    · exact h
    · exact ih (memStore_wf h ..) _

/-- A map of several keys set to one value other than the default. -/
theorem smGet_foldl_ne {m : SMap Nat} {v j : Nat} (k0 : Nat) (l : List Nat) (h : ∀ i ∈ l, k0 + i ≠ j) :
    smGet (l.foldl (fun m i => smSet m (k0 + i) v 0) m) j 0 = smGet m j 0 := by
  induction l generalizing m with
  | nil => rfl
  | cons i t ih =>
    rw [List.foldl_cons, ih fun x hx => h x (List.mem_cons_of_mem _ hx)]
    exact smGet_smSet_ne _ (fun e => h i List.mem_cons_self e.symm) ..

theorem foldl_wf {m : SMap Nat} (h : smWf 0 m = true) (k0 v : Nat) (l : List Nat) :
    smWf 0 (l.foldl (fun m i => smSet m (k0 + i) v 0) m) = true := by
  induction l generalizing m with
  | nil => exact h
  | cons i t ih => exact ih (smSet_wf h ..)

/-- Banks whose contents are left undefined. -/
theorem scramble_wf {s : State} (h : s.mem.wf = true) (die lo hi : Nat) : (scramble s die lo hi).mem.wf = true := by
  rw [Memory.wf_iff] at h ⊢
  obtain ⟨h1, h2, h3, h4, h5⟩ := h
  refine ⟨smFilter_rising h1 _, fun e he => ?_, h3, foldl_wf h4 .., h5⟩
  rw [scramble, smDrop, List.mem_filter] at he
  have hc : cellDef (scramble s die lo hi).mem e.1 = cellDef s.mem e.1 := by
    unfold cellDef scramble
    dsimp only
    rw [smGet_foldl_ne]
    intro i hi'
    have := List.mem_range.1 hi'
    have hb := he.2
    simp only [Bool.not_eq_true', Bool.and_eq_false_iff, decide_eq_false_iff_not, not_le, not_lt] at hb
    omega
  rw [hc]
  exact h2 e he.1

theorem reset_wf : State.reset.mem.wf = true := rfl

end Sys2Proof.Machine
end

