-- ==== Sys2Proof/WellFormed.lean ====
section
/-! DEFINITION. Which commands are well formed: operands that a command of the block can carry. `exec` is total and asks
nothing of them; the checks say which terms stand for something that can reach the block. -/
namespace Sys2Proof

/-- A master code that R269 lists. -/
def masterKnown (m : BitVec 8) : Bool :=
  decide (m.toNat ≤ 0xA7) || (decide (0xC0 ≤ m.toNat) && decide (m.toNat ≤ 0xC6))

/-- Each pin of each bank is presented at most once (R503). -/
def padsApart (l : List PadIn) : Bool := decide (l.map fun p => (p.bank, p.pin)).Nodup

/-- A housekeeping round measures 20 sensors, 16 voltage monitors and 8 bank supplies (R454). -/
def roundWhole (x : RoundIn) : Bool := x.temps.length == 20 && x.volts.length == 16 && x.vio.length == 8

/-- The command is well formed: its offset is a word's (R9), its lists have the lengths that their rules give, its master
is one that R269 lists. -/
def Instr.wf : Instr → Bool
  | .registerWrite _ off _ _ => off.toNat % 4 == 0
  | .drainEnd .. => true
  | .encCount .. => true
  | .encZEdge .. => true
  | .ssiFrame .. => true
  | .virtCommit .. => true
  | .beacon .. => true
  | .axisTimeout .. => true
  | .axisCfgWrite .. => true
  | .angDisable => true
  | .roleWrite .. => true
  | .ringTime .. => true
  | .rclkPllLock => true
  | .syncTimeout => true
  | .holdoverExpire => true
  | .ringTimeSend => true
  | .ptmCapture => true
  | .ptmExchangeDone .. => true
  | .beaconSend => true
  | .fabricInsert .. => true
  | .hostInsertGo .. => true
  | .insertAcceptance .. => true
  | .completionRecord .. => true
  | .cqRecordTake .. => true
  | .ttHcqRead => true
  | .ttEnable => true
  | .ttInitDone => true
  | .ttDisable => true
  | .ttFlushGo .. => true
  | .flushBucket => true
  | .dispatchSlot => true
  | .groupCommitPoint .. => true
  | .rail8Admit => true
  | .ackTimeout .. => true
  | .bstopReq => true
  | .bstopStoppingTimeout => true
  | .bstopClear => true
  | .bstopRepeat => true
  | .dspDisable => true
  | .consist _ _ flits => !flits.isEmpty && decide (flits.length ≤ 16)
  | .retime .. => true
  | .commit .. => true
  | .revoke .. => true
  | .bstop .. => true
  | .resume .. => true
  | .safe .. => true
  | .missed .. => true
  | .ack .. => true
  | .nak .. => true
  | .enumFlit .. => true
  | .idRead .. => true
  | .idData .. => true
  | .mailbox .. => true
  | .remoteInsert .. => true
  | .insertDone .. => true
  | .probe .. => true
  | .consistExecute .. => true
  | .stagedStamp .. => true
  | .moduleSilence .. => true
  | .safeRepeat .. => true
  | .probeSend .. => true
  | .portEnable .. => true
  | .enumWrite .. => true
  | .enumTimeout .. => true
  | .idReadTimeout _ _ off => off.toNat % 16 == 0
  | .recoverTimeout .. => true
  | .portDisable .. => true
  | .portIdleEnd .. => true
  | .trunkAckSend .. => true
  | .wngRiGo .. => true
  | .riTimeout .. => true
  | .wngRiCqRead => true
  | .wngMbTxGo .. => true
  | .wngMbRxRead => true
  | .trainingFrame .. => true
  | .trainTimeout .. => true
  | .alignmentMarker .. => true
  | .los .. => true
  | .fecCodeword .. => true
  | .laneRetrain .. => true
  | .laneTrainWrite .. => true
  | .wakeTx .. => true
  | .wakeToneEnd .. => true
  | .wakeToneDetect .. => true
  | .testPatternWrite .. => true
  | .injectSymbol .. => true
  | .injectBurst .. => true
  | .injectCrc .. => true
  | .symcntRead .. => true
  | .engEnable .. => true
  | .engStart .. => true
  | .engDisable .. => true
  | .threadWake .. => true
  | .engineGate .. => true
  | .scratchpadExternal .. => true
  | .streamTransfer .. => true
  | .streamTimeout .. => true
  | .windowResponse .. => true
  | .windowTimeout .. => true
  | .engSignalSet .. => true
  | .engSreset .. => true
  | .iAdd .. => true
  | .iSub .. => true
  | .iAdc .. => true
  | .iSbc .. => true
  | .iAnd .. => true
  | .iOr .. => true
  | .iXor .. => true
  | .iAndn .. => true
  | .iShl .. => true
  | .iShr .. => true
  | .iSar .. => true
  | .iRor .. => true
  | .iMin .. => true
  | .iMax .. => true
  | .iMinu .. => true
  | .iMaxu .. => true
  | .iMul .. => true
  | .iMulh .. => true
  | .iMulhu .. => true
  | .iClz .. => true
  | .iPopc .. => true
  | .iCmp .. => true
  | .iTst .. => true
  | .iAddi .. => true
  | .iAndi .. => true
  | .iOri .. => true
  | .iXori .. => true
  | .iCmpi .. => true
  | .iMovi .. => true
  | .iMovh .. => true
  | .iShli .. => true
  | .iShri .. => true
  | .iSari .. => true
  | .iRori .. => true
  | .iSadd .. => true
  | .iSsub .. => true
  | .iSaddh2 .. => true
  | .iSsubh2 .. => true
  | .iFmul15 .. => true
  | .iFmul31 .. => true
  | .iSneg .. => true
  | .iSabs .. => true
  | .iClamp .. => true
  | .iClampu .. => true
  | .iLims .. => true
  | .iLimu .. => true
  | .iMac .. => true
  | .iMsu .. => true
  | .iMacu .. => true
  | .iMz .. => true
  | .iMac2h .. => true
  | .iAclr .. => true
  | .iAwl .. => true
  | .iAwh .. => true
  | .iAwg .. => true
  | .iArd .. => true
  | .iArdt .. => true
  | .iArg .. => true
  | .iLb .. => true
  | .iLbu .. => true
  | .iLh .. => true
  | .iLhu .. => true
  | .iLw .. => true
  | .iLd .. => true
  | .iSb .. => true
  | .iSh .. => true
  | .iSw .. => true
  | .iSd .. => true
  | .iB .. => true
  | .iBl .. => true
  | .iJr .. => true
  | .iJlr .. => true
  | .iCsrr .. => true
  | .iCsrw .. => true
  | .iCsrs .. => true
  | .iCsrc .. => true
  | .iNop .. => true
  | .iWait .. => true
  | .iWaiti .. => true
  | .iFence .. => true
  | .iBrk .. => true
  | .iSrd .. => true
  | .iSwr .. => true
  | .iTti .. => true
  | .iTtir .. => true
  | .iTtc .. => true
  | .strobePresent .. => true
  | .regionSleep .. => true
  | .regionWakeWrite .. => true
  | .bmAccess .. => true
  | .queuePush .. => true
  | .queuePop .. => true
  | .fabDisable => true
  | .vtClaimUncorr .. => true
  | .pointsRequestWrite .. => true
  | .ptsReq .. => true
  | .pointsSample .. => true
  | .switchInstant .. => true
  | .planeClear .. => true
  | .planeClearDone .. => true
  | .scrubWord .. => true
  | .ctxDisable => true
  | .regionStop .. => true
  | .stopEdge .. => true
  | .regionStart .. => true
  | .releaseEdge _ pads => padsApart pads
  | .memRead m _ _ _ _ _ wire => masterKnown m && decide (wire.length ≤ 3)
  | .memWrite m _ _ _ _ _ wire _ _ => masterKnown m && decide (wire.length ≤ 3)
  | .memSetAlias m _ _ _ _ _ wire _ _ => masterKnown m && decide (wire.length ≤ 3)
  | .memClearAlias m _ _ _ _ _ wire _ _ => masterKnown m && decide (wire.length ≤ 3)
  | .memReread .. => true
  | .patrolVisit .. => true
  | .memGroupModeWrite .. => true
  | .memGroupOwnerWrite .. => true
  | .memDisable => true
  | .patrolDisable => true
  | .memInitDone => true
  | .mapLoad .. => true
  | .mapWrite .. => true
  | .sealedPageInitDone .. => true
  | .hwnOwnGive .. => true
  | .hwnOwnReclaim .. => true
  | .reclaimDone => true
  | .hostWindowRead .. => true
  | .hostWindowWrite .. => true
  | .cacheFillDone .. => true
  | .fillTimeout .. => true
  | .schEnable => true
  | .schDisable => true
  | .schZero .. => true
  | .rekeyGo => true
  | .rekeyVisit .. => true
  | .ringTailWrite .. => true
  | .descriptorFetch .. => true
  | .toDevice _ _ data bad => decide (data.length ≤ 4096) && (bad || !data.isEmpty)
  | .toHost .. => true
  | .reclaim .. => true
  | .config _ _ data bad => decide (data.length ≤ 4096) && (bad || !data.isEmpty)
  | .descriptorComplete .. => true
  | .cplTimeout .. => true
  | .bmeClear => true
  | .bmeSet => true
  | .ringReset .. => true
  | .ringDisable .. => true
  | .hwnDisable => true
  | .encDisable => true
  | .abortLogRead => true
  | .housekeepingRound x => roundWhole x
  | .retrainStep .. => true
  | .sidingSwitch .. => true
  | .linkFence .. => true
  | .linkRetrainWrite .. => true
  | .startupTrainingDone fails => decide fails.Nodup
  | .stkDisable => true
  | .sessionOpen .. => true
  | .loadWindowWrite data => !data.isEmpty && decide (data.length ≤ 4096)
  | .bsSync => true
  | .bsHeader => true
  | .bsSelect => true
  | .bsFrame => true
  | .bsRepeat => true
  | .bsInitvec => true
  | .bsCuffset => true
  | .bsRelease => true
  | .bsEnd => true
  | .bsSignature => true
  | .verificationDone => true
  | .failureSequenceEnd => true
  | .sessionFinish => true
  | .sessionAbort => true
  | .sessionIdleTimeout => true
  | .deadlineExpire => true
  | .reveal => true
  | .readback => true
  | .cfgDisable => true
  | .linkUp .. => true
  | .configRequest .. => true
  | .bar0Read off len => off.toNat % 4 == 0 && len.val % 4 == 0 && len.val != 0
  | .bar2Read _ len _ => len.val != 0
  | .bar2Write _ len _ _ _ _ _ _ => len.val != 0
  | .ufRequest _ _ _ len _ _ _ => len.val != 0
  | .ufCompletion .. => true
  | .ufTimeout .. => true
  | .ufMsixReq .. => true
  | .msixSend .. => true
  | .d3hotEnter => true
  | .d0Return => true
  | .l1Entry => true
  | .pciDisable => true
  | .sbxDoorbell => true
  | .getInfo => true
  | .getSensors => true
  | .readLog => true
  | .attest => true
  | .fwUpdateBegin => true
  | .fwUpdateChunk .. => true
  | .fwUpdateCommit => true
  | .setOp => true
  | .fuseProgram .. => true
  | .keySlotProgram .. => true
  | .keySlotRevoke .. => true
  | .debugUnlockNonce => true
  | .debugUnlockRespond => true
  | .sbxResponse => true
  | .mergeWindowEnd .. => true
  | .mirrorCopy => true
  | .sbxFuseArm .. => true
  | .fuseArmExpire => true
  | .sbxBoot => true
  | .trialTimeout .. => true
  | .fwHang => true
  | .wdogKick .. => true
  | .wdogWarn => true
  | .wdogExpire => true
  | .nonceExpire => true
  | .sbxDisable => true
  | .sbxSreset => true
  | .oscJudgeWindow .. => true
  | .clkMonTrip => true
  | .freezeTimeout => true
  | .sysclkReturn => true
  | .xoFail => true
  | .fpllEnable .. => true
  | .fpllDisable .. => true
  | .pllLock .. => true
  | .opRequest .. => true
  | .avsAck .. => true
  | .avsTimeout .. => true
  | .gateAck .. => true
  | .gateTimeout .. => true
  | .nmiClear .. => true
  | .clkDisable => true
  | .por => true
  | .pin => true
  | .swfull .. => true
  | .perst => true
  | .hotrst => true
  | .dieReset .. => true
  | .rstBlockWrite .. => true
  | .idleAck .. => true
  | .idleTimeout .. => true
  | .resetPulseEnd .. => true
  | .resetRelease .. => true
  | .releaseStep .. => true
  | .fuseLoadAttemptEnd .. => true
  | .powerEntry .. => true
  | .powerEntryStep .. => true
  | .wakeN => true
  | .pcieWake .. => true
  | .wakeTimer => true
  | .wakeStep => true
  | .wakeStepTimeout => true
  | .railLost .. => true
  | .wakeRearm => true
  | .pwrDisable => true
  | .tripThermAssert => true
  | .sleepTripCheck temps => temps.length == 20
  | .thmDisable => true
  | .bstGo .. => true
  | .copyDone .. => true
  | .marchPassEnd .. => true
  | .remarchEnd .. => true
  | .restoreDone .. => true
  | .bstResultRead => true
  | .bstDisable => true
  | .testLogicReset => true
  | .extest .. => true
  | .idcode => true
  | .samplePreload .. => true
  | .jtagClamp .. => true
  | .highz .. => true
  | .bypass .. => true
  | .dbgSelect .. => true
  | .dbgAccess .. => true
  | .dbgAccessDone .. => true
  | .dbgAccessTimeout => true
  | .dbgUnlockNonce => true
  | .dbgUnlockRespond .. => true
  | .unlockVerifyDone => true
  | .threadHalt .. => true
  | .threadStep .. => true
  | .threadResume .. => true
  | .regionFreeze .. => true
  | .freezeEdge .. => true
  | .regionUnfreeze .. => true
  | .regionPulse .. => true
  | .pulseEnd .. => true
  | .regionCapture .. => true
  | .dbgFrameGo => true
  | .dbgDisable => true
  | .bankClockLock .. => true
  | .bitslip .. => true
  | .endModule .. => true
  | .idle .. => true
  | .flitCrcError .. => true
  | .chkLock .. => true
  | .fallbackApply .. => true
  | .modulePulseEnd .. => true
  | .illegalInstruction .. => true
  | .fetchFault .. => true
  | .endpointReady => true

end Sys2Proof
end

