-- ==== Sys2Proof/Tests/Slice0.lean ====
section
/-! SUPPORT. Tests: ill-formed commands that each check of `Instr.wf` refuses, single steps and codes on small states, and
states and operands that meet the hypotheses of each clause of each statement. Expected values are the spec's, or worked out
from it by hand. -/
namespace Sys2Proof.Tests
open Sys2Proof Sys2Proof.Machine
set_option maxRecDepth 8000
set_option linter.unusedVariables false
set_option Elab.async false

/-- the state after reset with fields set -/

def base (l : List (Fld × Nat)) : State := l.foldl (fun s e => setFld s e.1 e.2) State.reset

/-- engine 37, thread 2 ready at PC 0x100 with word w, registers given -/

def isa (w : Nat) (g : List (Nat × Word)) : State :=
  let s := base [(F.ENG_n_CTRL_ENABLE 37, 1), (F.ENG_n_CTRL_START 37, 15), (F.ENG_n_STATUS_THREADS 37, 0x11)]
  setEngine s 37 { threads := [(2, { pc := 0x104, g := g, acc := [(1, 0x123456789ABCDEF012#72)], c := true, v := true })], sp := [(32, w * 2 ^ 32 + 0xC0000000)] }

/-! ### Ill-formed commands, one for each check of `Instr.wf` -/

theorem wf_offset_is_a_word : Instr.wf (.registerWrite .host 0x030001 15 0) = false := by decide
theorem wf_consist_has_flits : Instr.wf (.consist 1 2 []) = false ∧ Instr.wf (.consist 1 2 (List.replicate 17 0)) = false := by decide
theorem wf_identity_offset : Instr.wf (.idReadTimeout 1 2 8) = false := by decide
theorem wf_pads_apart : Instr.wf (.releaseEdge 3 [⟨1, 2, 0, 0, 0, false, false, 0⟩, ⟨1, 2, 1, 0, 0, false, false, 0⟩]) = false := by decide
theorem wf_master_is_listed : Instr.wf (.memRead 0xB0 0 0 0 0 false []) = false := by decide
theorem wf_write_master : Instr.wf (.memWrite 0xC7 0 0 0 0 0 [] false false) = false
    ∧ Instr.wf (.memSetAlias 0xC7 0 0 0 0 0 [] false false) = false
    ∧ Instr.wf (.memClearAlias 0xC7 0 0 0 0 0 [] false false) = false := by decide
theorem wf_three_transfers : Instr.wf (.memRead 5 0 0 0 0 false [0, 0, 0, 0]) = false
    ∧ Instr.wf (.memWrite 5 0 0 0 0 0 [0, 0, 0, 0] false false) = false := by decide
theorem wf_copy_has_data : Instr.wf (.toDevice 1 2 [] false) = false ∧ Instr.wf (.config 1 2 [] false) = false := by decide
theorem wf_round_is_whole : Instr.wf (.housekeepingRound ⟨[], 0, [], [], []⟩) = false := by decide
theorem wf_lanes_fail_once : Instr.wf (.startupTrainingDone [(1, 2), (1, 2)]) = false := by decide
theorem wf_window_has_data : Instr.wf (.loadWindowWrite []) = false := by decide
theorem wf_register_read : Instr.wf (.bar0Read 2 4) = false ∧ Instr.wf (.bar0Read 4 2) = false ∧ Instr.wf (.bar0Read 4 0) = false := by decide
theorem wf_window_lengths : Instr.wf (.bar2Read 0 0 []) = false ∧ Instr.wf (.bar2Write 0 0 0 0 false 0 [] false) = false
    ∧ Instr.wf (.ufRequest 0 false 0 0 false 0 0) = false := by decide
theorem wf_twenty_sensors : Instr.wf (.sleepTripCheck []) = false := by decide

/-! ### Small steps and codes -/

theorem test_reset_idles : step State.reset = .next State.reset := rfl

/-- The check value of CRC-32C over the digits 1 to 9. -/
theorem test_crc32c : crc32c 9 0x393837363534333231 = 0xE3069283 := by decide +kernel

/-- The table of R127: 00, 01, 11 and 10, written (bit 2i + 1, bit 2i), are the indices 0 to 3. -/
theorem test_gray : (grayLevel 0 0, grayLevel 1 0, grayLevel 1 1, grayLevel 0 1) = (0, 1, 2, 3) := rfl

/-- A codeword with its check bytes has no syndrome; two wrong symbols are found where they are, three are not corrected. -/
theorem test_rs_checks : RS.syndromes 5 (RS.encode 5 [0x12, 0, 0xFF, 7]) = [0, 0, 0, 0, 0] := by decide +kernel
theorem test_rs_two : RS.decode 5 [] [0, 7, 0, 0, 9, 0, 0, 0, 0, 0] = some (List.replicate 10 0, [(1, 7), (4, 9)]) := by decide +kernel
theorem test_rs_three : RS.decode 5 [] [0, 7, 0, 0, 9, 0, 3, 0, 0, 0] = none := by decide +kernel

/-- Region 3 with one frame in tile 45 of context 0. -/
def oneFrame (f : Nat) : State := putFrame State.reset kLOGIC 3 0 45 f

/-- Cell 2 in LUT6 mode, bit 63 of its table set, all six inputs at constant 1 (source 1 of R221), then I0 at constant 0. -/
theorem test_lut6 : lutOut (oneFrame (2 ^ 512 * (2 ^ 63 + 0x010101010101 * 2 ^ 68))) (fun _ => false) 3 45 2 0 = true
    ∧ lutOut (oneFrame (2 ^ 512 * (2 ^ 63 + 0x010101010100 * 2 ^ 68))) (fun _ => false) 3 45 2 0 = false := by decide +kernel

/-- The reserved mode 11 gives 0 (R195). -/
theorem test_lut_reserved : lutOut (oneFrame (2 ^ 512 * (2 ^ 64 - 1 + 3 * 2 ^ 64))) (fun _ => false) 3 45 2 0 = false := by decide +kernel

/-- CARRY mode with both propagates 0: S0 = CIN, S1 = G0, COUT = G1 (R196). -/
theorem test_carry : carryStage (oneFrame (2 ^ 512 * (2 * 2 ^ 64 + 1 * 2 ^ 100))) (fun _ => false) 3 45 2 = (false, true, false) := by
  decide +kernel

/-- Engine 37, thread 2: 0xFFFFFFFF + 1 wraps to 0 with carry (R176). -/
theorem test_add_wraps :
    (match exec (.iAdd 37 2 3 1 2 true) (isa (encR 0 3 1 2 true 1 0) [(1, 0xFFFFFFFF), (2, 1)]) with
     | .next u => some (gReg u 37 2 3, (flg u 37 2).c, (flg u 37 2).z)
     | _ => none) = some (0, true, true) := by decide +kernel

namespace W01

def noIrq : Ev := ev 0x0205 [(1, 7)]
def opened : State := { State.reset with windows := [⟨0x0802, 3, 0, 0, []⟩] }
def counted : State := { State.reset with windows := [⟨0x0701, 5, 0, 0, []⟩, ⟨0x0802, 3, 2, 77, [(1, 9)]⟩] }

theorem reset_logHolds : LogHolds State.reset := by
  refine ⟨by decide, by decide, ?_⟩
  intro i a b ha hb
  rcases i with _ | i
  · obtain rfl := Option.some.inj ha
    obtain rfl := Option.some.inj hb
    rfl
  · simp [State.reset, porLog] at hb

/-- A command in front, and an empty queue. -/
theorem witness_StepRunsTheFrontCommand :
    (∃ (c : Instr) (r : List Instr) (s : State), s.pending = c :: r) ∧ (∃ s : State, s.pending = []) :=
  ⟨⟨.por, [.pin], { State.reset with pending := [.por, .pin] }, rfl⟩, ⟨State.reset, rfl⟩⟩

/-- The state after reset is canonical, and a step leads on from it. -/
theorem witness_EveryStepKeepsTheCanonicalForm : ∃ s t : State, Canonical s ∧ Quiet s ∧ step s = .next t :=
  ⟨State.reset, State.reset, by decide +kernel, rfl, rfl⟩

/-- The log of the state after reset, and a step from it. -/
theorem witness_EveryStepKeepsTheLog : ∃ s t : State, LogHolds s ∧ step s = .next t :=
  ⟨State.reset, State.reset, reset_logHolds, rfl⟩

/-- States and operands that meet the hypotheses of each clause of EventsAreRecorded. -/
theorem witness_EventsAreRecorded :
    (∃ (items : List (Nat × Nat)) (u : State), Quiet u ∧ (items.map Prod.fst).sum ≤ 16) ∧
    (∃ (code scope : Nat) (items : List (Nat × Nat)) (u : State), Quiet u ∧ (items.map Prod.fst).sum ≤ 16 ∧
      ∀ w ∈ u.windows, ¬(w.code = code ∧ w.scope = scope)) ∧
    (∃ (code scope : Nat) (a b : List MergeWin) (w : MergeWin) (u : State), Quiet u ∧ WindowAt u code scope a w b) ∧
    (∃ (code : BitVec 16) (scope : BitVec 32) (a b : List MergeWin) (w : MergeWin) (s : State), Quiet s
      ∧ WindowAt s code.toNat scope.toNat a w b ∧ w.count = 0) ∧
    (∃ (code : BitVec 16) (scope : BitVec 32) (a b : List MergeWin) (w : MergeWin) (s : State), Quiet s
      ∧ WindowAt s code.toNat scope.toNat a w b ∧ w.count ≠ 0 ∧ (w.items.map Prod.fst).sum ≤ 16) ∧
    (∃ x y : Ev, y.code < x.code) :=
  ⟨⟨[(16, 5)], State.reset, by decide +kernel⟩,
   ⟨0x0802, 4, [(16, 5)], opened, by decide +kernel⟩,
   ⟨0x0802, 3, [⟨0x0701, 5, 0, 0, []⟩], [], ⟨0x0802, 3, 2, 77, [(1, 9)]⟩, counted, by decide +kernel⟩,
   ⟨0x0802, 3, [], [], ⟨0x0802, 3, 0, 0, []⟩, opened, by decide +kernel⟩,
   ⟨0x0802, 3, [⟨0x0701, 5, 0, 0, []⟩], [], ⟨0x0802, 3, 2, 77, [(1, 9)]⟩, counted, by decide +kernel⟩,
   ⟨noIrq, ev 0x0101 [], by decide +kernel⟩⟩

end W01

namespace W02

def encB : State := base [(F.IOB_ENC_EN, 15)]
def ax0 (st : Nat) (l : List (Fld × Nat)) : State :=
  (List.range 15).foldl (fun s i => setFld s (F.ANG_AXn_CFG_SRC (i + 1)) 5) (base ([(F.IOB_ENC_EN, 15), (F.ANG_AXn_STATUS_STATE 0, st), (F.ANG_AXn_REVSET_REVSET 0, 7)] ++ l))
def bflit : Flit := mkFlit FT.beacon 5 0 0 1 (3 + 2 * 2 ^ 12 + 12345678 * 2 ^ 16 + 7654 * 2 ^ 64 + 99 * 2 ^ 96)
def bst (k rt : Nat) : State := setAxis (setFld (base [(F.WNG_Pp_CTRL_MODE 1, 1), (F.WNG_Pp_STATUS_STATE 1, 3), (F.ANG_AXn_CFG_SRC 6, 4),
  (F.ANG_AXn_CFG_BEACON_NODE 6, 3), (F.ANG_AXn_CFG_BEACON_AXIS 6, 2), (F.ANG_AXn_STATUS_STATE 6, 1), (F.ANG_RT_TIME, 5000)]) (F.WNG_ROUTEn_PORT 3) rt) 6 { beacons := k }
def rtf (t : Nat) : Flit := mkFlit FT.ringTime 5 0 0 0 (t + 3 * 2 ^ 112)
def fol (l : List (Fld × Nat)) : State := base ([(F.ANG_RTM_ROLE_ROLE, 2), (F.WNG_Pp_CTRL_MODE 0, 1), (F.ANG_RT_TIME, 1000)] ++ l)

/-- States and operands that meet the hypotheses of each clause of EncoderSamples. -/
theorem witness_EncoderSamples :
    (∃ (k : Fin 4) (up : Bool) (s : State), Quiet s ∧ (encLive s k 0 = true)) ∧
    (∃ (k : Fin 4) (up : Bool) (n : Nat) (s : State), Quiet s ∧ (encLive s k 0 = true) ∧ (flag s (F.ANG_ENCk_CFG_ZREQ k) = false) ∧ (axesOf s k = [n]) ∧ (axState s n = aACQUIRE)) ∧
    (∃ (k : Fin 4) (up : Bool) (s : State), Quiet s ∧ (encLive s k 0 = true) ∧ (flag s F.ANG_CTRL_LOST_STOP = false)) ∧
    (∃ (k : Fin 4) (n : Nat) (s : State), Quiet s ∧ (encLive s k 0 = true) ∧ (flag s (F.ANG_ENCk_CFG_ZREQ k) = true) ∧ (axesOf s k = [n]) ∧ (axState s n = aACQUIRE)) ∧
    (∃ (k : Fin 4) (s : State), Quiet s ∧ (encLive s k 0 = true) ∧ (flag s (F.ANG_ENCk_CFG_ZREQ k) = true) ∧ (axesOf s k = [])) ∧
    (∃ (k : Fin 4) (w : Word) (n : Nat) (s : State), Quiet s ∧ (encLive s k 1 = true) ∧ (axesOf s k = [n]) ∧ (axState s n = aACQUIRE)) ∧
    (∃ (k : Fin 4) (w : Word) (a b : Bool) (s : State), Quiet s ∧ (encLive s k 1 = true) ∧ ((a && b) = false) ∧ ((enc s k).bad < 2)) ∧
    (∃ (k : Fin 4) (w : Word) (a b : Bool) (s : State), Quiet s ∧ (encLive s k 1 = true) ∧ ((a && b) = false) ∧ (2 ≤ (enc s k).bad) ∧ (flag s F.ANG_CTRL_LOST_STOP = false)) :=
  ⟨⟨0, true, encB, by decide +kernel⟩,
   ⟨0, true, 0, ax0 1 [(F.ANG_ENCk_CFG_ZREQ 0, 0)], by decide +kernel⟩,
   ⟨0, true, ax0 2 [], by decide +kernel⟩,
   ⟨0, 0, ax0 1 [], by decide +kernel⟩,
   ⟨1, ax0 1 [], by decide +kernel⟩,
   ⟨0, 0x1234, 0, ax0 1 [(F.ANG_ENCk_CFG_MODE 0, 1)], by decide +kernel⟩,
   ⟨0, 0x1234, true, false, ax0 1 [(F.ANG_ENCk_CFG_MODE 0, 1)], by decide +kernel⟩,
   ⟨0, 0x1234, true, false, setEnc (ax0 2 [(F.ANG_ENCk_CFG_MODE 0, 1)]) 0 { bad := 2 }, by decide +kernel⟩⟩

/-- States and operands that meet the hypotheses of each clause of SamplesAndAxisControls. -/
theorem witness_SamplesAndAxisControls :
    (∃ (m : Master) (n : Fin 16) (w : Word) (s : State), Quiet s ∧ (angOn s = true) ∧ (axSrc s n = 5) ∧ (axState s n = aACQUIRE)) ∧
    (∃ (m : Master) (n : Fin 16) (w : Word) (s : State), Quiet s ∧ (angOn s = false)) ∧
    (∃ (p : Fin 4) (f : Flit) (n : Nat) (s : State), Quiet s ∧ (frozen s = false) ∧ (upTrunk s p = true) ∧ (fGood f.toNat = true) ∧ (fType f.toNat = FT.beacon) ∧ (beaconAxes s (bits
        (fPayload f.toNat) 0 12) (bits (fPayload f.toNat) 12 4) = [n]) ∧ (axState s n = aACQUIRE) ∧ (routePort s (bits (fPayload f.toNat) 0 12) ≠ some p.val)) ∧
    (∃ (p q : Fin 4) (f : Flit) (s : State), Quiet s ∧ (upTrunk s p = true) ∧ (fGood f.toNat = true) ∧ (fType f.toNat = FT.beacon) ∧ (beaconAxes s (bits (fPayload f.toNat) 0 12)
        (bits (fPayload f.toNat) 12 4) = []) ∧ (routePort s (bits (fPayload f.toNat) 0 12) = some p.val) ∧ (q ≠ p) ∧ (upTrunk s q = true) ∧ (∀ r, r < 4 → r ≠ q.val → r ≠ p.val →
        upTrunk s r = false)) ∧
    (∃ (n : Fin 16) (s : State), Quiet s ∧ (axState s n = aTRACK) ∧ (axSrc s n = 4 ∨ axSrc s n = 5) ∧ (fld s (F.ANG_AXn_TIMEOUT_TIMEOUT n) ≠ 0) ∧ (flag s F.ANG_CTRL_LOST_STOP =
        false)) ∧
    (∃ (n : Fin 16) (s : State), Quiet s ∧ (axSrc s n < 4)) ∧
    (∃ (n : Fin 16) (w : Word) (s : State), Quiet s ∧ (angOn s = true) ∧ (bits w.toNat 0 1 = 1) ∧ (bits w.toNat 1 3 < 6) ∧ (axState s n = aOFF ∨ bits w.toNat 1 3 ≠ axSrc s n)) ∧
    (∃ (n : Fin 16) (w : Word) (s : State), Quiet s ∧ (bits w.toNat 0 1 = 0)) ∧
    (∃ s : State, Quiet s) :=
  ⟨⟨.host, 1, 0x12345678, ax0 2 [(F.ANG_CTRL_ENABLE, 1), (F.ANG_AXn_STATUS_STATE 1, 1), (F.ANG_AXn_VIRT_STAMP 1, 77)], by decide +kernel⟩,
   ⟨.host, 1, 0x12345678, ax0 2 [], by decide +kernel⟩,
   ⟨1, bflit, 6, bst 1 0, by decide +kernel⟩,
   ⟨1, 2, bflit, base [(F.WNG_Pp_CTRL_MODE 1, 1), (F.WNG_Pp_STATUS_STATE 1, 3), (F.WNG_Pp_CTRL_MODE 2, 1), (F.WNG_Pp_STATUS_STATE 2, 3), (F.WNG_ROUTEn_PORT 3, 1),
        (F.WNG_ROUTEn_VALID 3, 1)], by decide +kernel⟩,
   ⟨3, base [(F.ANG_AXn_STATUS_STATE 3, 2), (F.ANG_AXn_CFG_SRC 3, 5)], by decide +kernel⟩,
   ⟨3, base [], by decide +kernel⟩,
   ⟨3, 0xB, base [(F.ANG_CTRL_ENABLE, 1)], by decide +kernel⟩,
   ⟨3, 0xA, base [(F.ANG_CTRL_ENABLE, 1)], by decide +kernel⟩,
   ⟨base [(F.ANG_CTRL_ENABLE, 1)], by decide +kernel⟩⟩

/-- States and operands that meet the hypotheses of each clause of RingTimeStartsTimesOutAndSends. -/
theorem witness_RingTimeStartsTimesOutAndSends :
    (∃ (w : Word) (s : State), Quiet s ∧ (flag s F.ANG_CTRL_LOCK = false) ∧ (bits w.toNat 0 2 = 1) ∧ (fld s F.ANG_RTM_ROLE_ROLE = 0) ∧ (rtValid s = false)) ∧
    (∃ (w : Word) (s : State), Quiet s ∧ (flag s F.ANG_CTRL_LOCK = false) ∧ (bits w.toNat 0 2 = 2) ∧ (fld s F.ANG_RTM_ROLE_ROLE = 0) ∧ (rtValid s = false)) ∧
    (∃ (w : Word) (s : State), Quiet s ∧ (flag s F.ANG_CTRL_LOCK = false) ∧ (bits w.toNat 0 2 = 3 ∨ bits w.toNat 0 2 = fld s F.ANG_RTM_ROLE_ROLE)) ∧
    (∃ (w : Word) (s : State), Quiet s ∧ (flag s F.ANG_CTRL_LOCK = true)) ∧
    (∃ s : State, Quiet s ∧ (rtState s = rACQ_FREQ) ∧ (laneState s (fld s F.ANG_RTM_ROLE_RCLK_LANE) = lnLINKUP)) ∧
    (∃ s : State, Quiet s ∧ (rtState s ≠ rACQ_FREQ ∨ laneState s (fld s F.ANG_RTM_ROLE_RCLK_LANE) ≠ lnLINKUP)) ∧
    (∃ s : State, Quiet s ∧ (rtState s = rLOCKED) ∧ (flag s F.CLK_STATUS_XO_FAIL = false)) ∧
    (∃ s : State, Quiet s ∧ (rtState s ≠ rLOCKED)) ∧
    (∃ s : State, Quiet s ∧ (rtState s = rHOLDOVER)) ∧
    (∃ s : State, Quiet s ∧ (rtState s ≠ rHOLDOVER)) ∧
    (∃ s : State, Quiet s ∧ (s.pci.ptmEnable = true)) ∧
    (∃ s : State, Quiet s ∧ (flag s F.ANG_PTM_CTRL_CAPTURE = true)) ∧
    (∃ (t : BitVec 64) (s : State), Quiet s ∧ (flag s F.ANG_PTM_CTRL_CAPTURE = true)) ∧
    (∃ s : State, Quiet s ∧ (rtValid s = false) ∧ (fld s F.ANG_RTM_ROLE_ROLE ≠ 2)) ∧
    (∃ (p : Fin 4) (s : State), Quiet s ∧ (rtValid s = true) ∧ (upTrunk s p = true) ∧ (∀ q, q < 4 → q ≠ p.val → upTrunk s q = false ∧ liveRing s q = false) ∧ SendsPlainly s) ∧
    (∃ (p : Fin 4) (s : State), Quiet s ∧ (rtValid s = true) ∧ (liveRing s p = true) ∧ (∀ q, q < 4 → q ≠ p.val → upTrunk s q = false ∧ liveRing s q = false) ∧ SendsPlainly s) ∧
    (∃ (p : Fin 4) (n : Fin 16) (s : State), Quiet s ∧ (fld s F.WNG_BEACON_EN_AXES = 2 ^ n.val) ∧ (upTrunk s p = true) ∧ (∀ q, q < 4 → q ≠ p.val → upTrunk s q = false) ∧
        SendsPlainly s) ∧
    (∃ s : State, Quiet s ∧ (fld s F.WNG_BEACON_EN_AXES = 0)) :=
  ⟨⟨0x31, base [(F.ANG_RT_SET_START, 777)], by decide +kernel⟩,
   ⟨0x32, base [(F.ANG_RT_SET_START, 777)], by decide +kernel⟩,
   ⟨0x33, base [(F.ANG_RT_SET_START, 777)], by decide +kernel⟩,
   ⟨0x31, base [(F.ANG_CTRL_LOCK, 1)], by decide +kernel⟩,
   ⟨base [(F.ANG_STATUS_RT_STATE, 2), (F.WLN_LANEn_STATUS_STATE 0, lnLINKUP)], by decide +kernel⟩,
   ⟨base [], by decide +kernel⟩,
   ⟨base [(F.ANG_STATUS_RT_STATE, 4)], by decide +kernel⟩,
   ⟨base [(F.ANG_STATUS_RT_STATE, 3)], by decide +kernel⟩,
   ⟨base [(F.ANG_STATUS_RT_STATE, 5), (F.DSP_STATUS_BSTOP, 0)], by decide +kernel⟩,
   ⟨base [(F.ANG_STATUS_RT_STATE, 4)], by decide +kernel⟩,
   ⟨setPci (base []) { ptmEnable := true }, by decide +kernel⟩,
   ⟨base [(F.ANG_PTM_CTRL_CAPTURE, 1)], by decide +kernel⟩,
   ⟨0x123456789ABCDEF0, base [(F.ANG_PTM_CTRL_CAPTURE, 1)], by decide +kernel⟩,
   ⟨base [], by decide +kernel⟩,
   ⟨2, base [(F.ANG_STATUS_RT_VALID, 1), (F.WNG_Pp_CTRL_MODE 2, 1), (F.WNG_Pp_STATUS_STATE 2, 3)], by decide +kernel⟩,
   ⟨2, base [(F.ANG_STATUS_RT_VALID, 1), (F.WNG_Pp_STATUS_STATE 2, 2)], by decide +kernel⟩,
   ⟨2, 7, base [(F.WNG_BEACON_EN_AXES, 128), (F.WNG_Pp_CTRL_MODE 2, 1), (F.WNG_Pp_STATUS_STATE 2, 3)], by decide +kernel⟩,
   ⟨base [], by decide +kernel⟩⟩

/-- States and operands that meet the hypotheses of each clause of FollowerRingTime. -/
theorem witness_FollowerRingTime :
    (∃ (p : Fin 4) (f : Flit) (late : BitVec 18) (s : State), Quiet s ∧ (frozen s = false) ∧ (fGood f.toNat = true) ∧ (fType f.toNat = FT.ringTime) ∧ (fld s F.ANG_RTM_ROLE_ROLE = 2)
        ∧ (fld s F.ANG_RTM_ROLE_RCLK_LANE / 2 = p.val) ∧ (isTrunk s p = true) ∧ (∀ q, q < 4 → q ≠ p.val → upTrunk s q = false) ∧ (rtState s = rACQ_PHASE) ∧ (s.rt.stepped = false)) ∧
    (∃ (p : Fin 4) (f : Flit) (late : BitVec 18) (s : State), Quiet s ∧ (frozen s = false) ∧ (fGood f.toNat = true) ∧ (fType f.toNat = FT.ringTime) ∧ (fld s F.ANG_RTM_ROLE_ROLE = 2)
        ∧ (fld s F.ANG_RTM_ROLE_RCLK_LANE / 2 = p.val) ∧ (isTrunk s p = true) ∧ (∀ q, q < 4 → q ≠ p.val → upTrunk s q = false) ∧ (rtState s = rLOCKED ∨ rtState s = rHOLDOVER) ∧
        ((rtError s p f.toNat late.toNat).natAbs ≤ 50 * 65536)) ∧
    (∃ (p : Fin 4) (f : Flit) (late : BitVec 18) (s : State), Quiet s ∧ (frozen s = false) ∧ (fGood f.toNat = true) ∧ (fType f.toNat = FT.ringTime) ∧ (fld s F.ANG_RTM_ROLE_ROLE = 2)
        ∧ (fld s F.ANG_RTM_ROLE_RCLK_LANE / 2 = p.val) ∧ (isTrunk s p = true) ∧ (∀ q, q < 4 → q ≠ p.val → upTrunk s q = false) ∧ (rtState s = rHOLDOVER) ∧ (50 * 65536 < (rtError s
        p f.toNat late.toNat).natAbs) ∧ (s.rt.bad < 3)) ∧
    (∃ (p : Fin 4) (f : Flit) (late : BitVec 18) (s : State), Quiet s ∧ (frozen s = false) ∧ (fGood f.toNat = true) ∧ (fType f.toNat = FT.ringTime) ∧ (fld s F.ANG_RTM_ROLE_ROLE = 2)
        ∧ (fld s F.ANG_RTM_ROLE_RCLK_LANE / 2 = p.val) ∧ (isTrunk s p = true) ∧ (rtState s = rLOCKED ∨ rtState s = rHOLDOVER) ∧ (50 * 65536 < (rtError s p f.toNat
        late.toNat).natAbs) ∧ (3 ≤ s.rt.bad)) ∧
    (∃ (p : Fin 4) (f : Flit) (late : BitVec 18) (s : State), Quiet s ∧ (fld s F.ANG_RTM_ROLE_ROLE ≠ 2 ∨ fld s F.ANG_RTM_ROLE_RCLK_LANE / 2 ≠ p.val)) ∧
    (∃ (p : Fin 4) (pos : Fin 256) (f : Flit) (late : BitVec 18) (s : State), Quiet s ∧ (fGood f.toNat = true) ∧ (fType f.toNat = FT.ringTime) ∧ (pos ≠ 0)) :=
  ⟨⟨0, rtf 5000, 777, fol [(F.ANG_STATUS_RT_STATE, 3)], by decide +kernel⟩,
   ⟨0, rtf 1030, 777, fol [(F.ANG_STATUS_RT_STATE, 4)], by decide +kernel⟩,
   ⟨0, rtf 1130, 777, fol [(F.ANG_STATUS_RT_STATE, 5)], by decide +kernel⟩,
   ⟨0, rtf 1130, 777, { fol [(F.ANG_STATUS_RT_STATE, 5)] with rt := { bad := 3 } }, by decide +kernel⟩,
   ⟨0, rtf 1130, 777, base [], by decide +kernel⟩,
   ⟨0, 7, rtf 1130, 777, base [], by decide +kernel⟩⟩

end W02

namespace W03

def ttOnB : List (Fld × Nat) := [(F.TT_CTRL_ENABLE, 1), (F.TT_CTRL_SRC_EN, 15), (F.TT_STATUS_READY, 1), (F.TT_STATUS_RESERVED, 1)]
def regRun (r : Nat) (s : State) : State := setRegion s r { run := true }
def full512 : Timetable := { hostCq := List.replicate 512 7 }
def insHost (e : Nat) (l : List (Fld × Nat)) : State := setTt (base l) { inflight := [⟨.host, 9, e⟩] }
def okE : Nat := 3 * 2 ^ 12 + 5 * 2 ^ 24 + 1 * 2 ^ 38 + 2 * 2 ^ 46 + 1 * 2 ^ 56 + 77 * 2 ^ 96
def lateE : Nat := 3 * 2 ^ 12 + 200 * 2 ^ 24 + 1 * 2 ^ 38 + 2 * 2 ^ 46 + 1 * 2 ^ 56
def badE : Nat := 3 * 2 ^ 12 + 5 * 2 ^ 24 + 1 * 2 ^ 38 + 2 * 2 ^ 46 + 7 * 2 ^ 56
def dn (x : Src) : State := setTt (base []) { done := [⟨.engine 4, 3⟩, ⟨x, 0x77⟩] }
def flS (f : Flush) : State := setTt (base ttOnB) { flush := some f, buckets := [(bucketKey 1 2 3, [⟨0, 1, 2, 0⟩]), (bucketKey 1 9 3, [⟨0, 7, 2, 0⟩, ⟨0, 8, 2, 0⟩]), (bucketKey 1 9 4095, [⟨0, 9, 2, 0⟩])] }

theorem full_of_replicate (s : State) (i : Ins) (k n : Nat) (x : Slot) (h : ttSlots s ≤ n) :
    ttFull (setTt s { inflight := [i], buckets := [(k, List.replicate n x)] }) = true := by
  have hs : ttSlots (setTt s { inflight := [i], buckets := [(k, List.replicate n x)] }) = ttSlots s := rfl
  unfold ttFull
  rw [hs]
  simp [usedCount, setTt, h]

/-- States and operands that meet the hypotheses of each clause of InsertionsAreDecided. -/
theorem witness_InsertionsAreDecided :
    (∃ (k : Fin 24) (tag : BitVec 9) (e : Entry) (s : State), Quiet s ∧ (portClock s k = true) ∧ (fabHeld s k = false)) ∧
    (∃ (k : Fin 24) (tag : BitVec 9) (e : Entry) (s : State), Quiet s ∧ (portClock s k = false ∨ fabHeld s k = true)) ∧
    (∃ (w : Word) (s : State), Quiet s ∧ (hostCredits s ≠ 0)) ∧
    (∃ (w : Word) (s : State), Quiet s ∧ (hostCredits s = 0)) ∧
    (∃ (i : Ins) (s : State), Quiet s ∧ (sysClocks s = true) ∧ (nextAccepted s = some i) ∧ (i.src = .host) ∧ (blkShut s 8 = false) ∧ (ttOn s = false)) ∧
    (∃ (i : Ins) (s : State), Quiet s ∧ (sysClocks s = true) ∧ (nextAccepted s = some i) ∧ (i.src = .host) ∧ (blkShut s 8 = false) ∧ (ttOn s = true) ∧ (flag s F.TT_STATUS_READY =
        true) ∧ (bitOf (fld s F.TT_CTRL_SRC_EN) 2 = false)) ∧
    (∃ (i : Ins) (k : Nat) (s : State), Quiet s ∧ (sysClocks s = true) ∧ (nextAccepted s = some i) ∧ (i.src = .host) ∧ (blkShut s 8 = false) ∧ (ttOn s = true) ∧ (flag s
        F.TT_STATUS_READY = true) ∧ (bitOf (fld s F.TT_CTRL_SRC_EN) 2 = true) ∧ (insCheck i.entry = some k)) ∧
    (∃ (i : Ins) (s : State), Quiet s ∧ (sysClocks s = true) ∧ (nextAccepted s = some i) ∧ (i.src = .host) ∧ (blkShut s 8 = false) ∧ (ttOn s = true) ∧ (flag s F.TT_STATUS_READY =
        true) ∧ (bitOf (fld s F.TT_CTRL_SRC_EN) 2 = true) ∧ (insCheck i.entry = none) ∧ (insLate s i.entry = true) ∧ (eLate i.entry = 0)) ∧
    (∃ (i : Ins) (s : State), Quiet s ∧ (sysClocks s = true) ∧ (nextAccepted s = some i) ∧ (i.src = .host) ∧ (blkShut s 8 = false) ∧ (ttOn s = true) ∧ (flag s F.TT_STATUS_READY =
        true) ∧ (bitOf (fld s F.TT_CTRL_SRC_EN) 2 = true) ∧ (insCheck i.entry = none) ∧ (insLate s i.entry = false) ∧ (ttFull s = true)) ∧
    (∃ (i : Ins) (s : State), Quiet s ∧ (sysClocks s = true) ∧ (nextAccepted s = some i) ∧ (i.src = .host) ∧ (blkShut s 8 = false) ∧ (ttOn s = true) ∧ (flag s F.TT_STATUS_READY =
        true) ∧ (bitOf (fld s F.TT_CTRL_SRC_EN) 2 = true) ∧ (insCheck i.entry = none) ∧ (insLate s i.entry = false) ∧ (ttFull s = false) ∧ ((bucketAt s (bucketKey (eAxis i.entry)
        ((frontRev s (eAxis i.entry) + revAhead s i.entry) % 2 ^ 24) (eBucket i.entry))).length ≠ 1024)) ∧
    (∃ (b : Bool) (s : State), Quiet s ∧ (s.tt.inflight = [])) :=
  ⟨⟨3, 5, 0x1234, regRun 11 (base [(F.CLK_FPLLn_EN 0, 1), (F.CLK_FPLLn_LOCKED 0, 1)]), by decide +kernel⟩,
   ⟨3, 5, 0x1234, base [], by decide +kernel⟩,
   ⟨0x1234, base [], by decide +kernel⟩,
   ⟨0x1234, setTt (base []) full512, by decide +kernel⟩,
   ⟨⟨.host, 9, okE⟩, insHost okE [], by decide +kernel⟩,
   ⟨⟨.host, 9, okE⟩, insHost okE (ttOnB ++ [(F.TT_CTRL_SRC_EN, 11)]), by decide +kernel⟩,
   ⟨⟨.host, 9, badE⟩, 0, insHost badE ttOnB, by decide +kernel⟩,
   ⟨⟨.host, 9, lateE⟩, insHost lateE ttOnB, by decide +kernel⟩,
   ⟨⟨.host, 9, okE⟩, setTt (insHost okE ttOnB) { inflight := [⟨.host, 9, okE⟩], buckets := [(bucketKey 1 2 3, List.replicate 524288 ⟨0, 1, 2, 0⟩)] }, by decide +kernel, by
        decide +kernel, by decide +kernel, by decide +kernel, by decide +kernel, by decide +kernel, by decide +kernel, by decide +kernel, by decide +kernel, by decide +kernel,
        full_of_replicate _ _ _ _ _ (by decide +kernel)⟩,
   ⟨⟨.host, 9, okE⟩, insHost okE ttOnB, by decide +kernel⟩,
   ⟨true, base [], by decide +kernel⟩⟩

/-- States and operands that meet the hypotheses of each clause of RecordsAndTimetableControls. -/
theorem witness_RecordsAndTimetableControls :
    (∃ (k : Nat) (p : Fin 24) (w : Nat) (s : State), Quiet s ∧ (sysClocks s = true) ∧ (∀ m, m < 96 → (engine s m).ttis = []) ∧ (s.tt.done[k]? = some ⟨.fabric p, w⟩)) ∧
    (∃ (k : Nat) (n : Fin 96) (w : Nat) (s : State), Quiet s ∧ (sysClocks s = true) ∧ (∀ m, m < 96 → (engine s m).ttis = []) ∧ (s.tt.done[k]? = some ⟨.engine n, w⟩)) ∧
    (∃ (k : Nat) (w : Nat) (s : State), Quiet s ∧ (sysClocks s = true) ∧ (∀ m, m < 96 → (engine s m).ttis = []) ∧ (s.tt.done[k]? = some ⟨.host, w⟩)) ∧
    (∃ (p : Fin 24) (s : State), Quiet s ∧ (portClock s p = true)) ∧
    (∃ (p : Fin 24) (s : State), Quiet s ∧ (portClock s p = false)) ∧
    (∃ s : State, Quiet s) ∧
    (∃ s : State, Quiet s ∧ (flag s F.TT_CTRL_ENABLE = false) ∧ (flag s F.TT_STATUS_RESERVED = false) ∧ (partitionCached s = false)) ∧
    (∃ s : State, Quiet s ∧ (flag s F.TT_CTRL_ENABLE = false) ∧ (flag s F.TT_STATUS_RESERVED = false) ∧ (partitionCached s = true)) ∧
    (∃ s : State, Quiet s ∧ (flag s F.TT_CTRL_ENABLE = false) ∧ (flag s F.TT_STATUS_RESERVED = true)) ∧
    (∃ s : State, Quiet s ∧ (sysClocks s = true) ∧ (flag s F.TT_STATUS_RESERVED = true) ∧ (flag s F.TT_STATUS_READY = false)) ∧
    (∃ s : State, Quiet s ∧ (flag s F.TT_CTRL_ENABLE = true) ∧ (s.tt.done = [])) ∧
    (∃ s : State, Quiet s ∧ (flag s F.TT_CTRL_ENABLE = true) ∧ (s.tt.done ≠ [])) ∧
    (∃ (w : Word) (s : State), Quiet s ∧ (bitOf w.toNat 31 = true) ∧ (flag s F.TT_STATUS_FLUSHING = false) ∧ (bits w.toNat 4 2 < 3)) ∧
    (∃ (w : Word) (s : State), Quiet s ∧ (flag s F.TT_STATUS_FLUSHING = true ∨ bits w.toNat 4 2 = 3)) ∧
    (∃ (f : Flush) (s : State), Quiet s ∧ (sysClocks s = true) ∧ (s.tt.flush = some f) ∧ (f.curB < 4095)) ∧
    (∃ (f : Flush) (s : State), Quiet s ∧ (sysClocks s = true) ∧ (s.tt.flush = some f) ∧ (f.curB = 4095) ∧ (f.mode ≠ 2)) :=
  ⟨⟨1, 5, 0x77, dn (.fabric 5), by decide +kernel⟩,
   ⟨1, 5, 0x77, dn (.engine 5), by decide +kernel⟩,
   ⟨1, 0x77, dn .host, by decide +kernel⟩,
   ⟨5, regRun 13 (setTt (base [(F.CLK_FPLLn_EN 0, 1), (F.CLK_FPLLn_LOCKED 0, 1)]) { fabCq := [(5, [1,2,3]), (6, [4])] }), by decide +kernel⟩,
   ⟨5, (setTt (base []) { fabCq := [(5, [1,2,3]), (6, [4])] }), by decide +kernel⟩,
   ⟨(setTt (base []) { hostCq := [1,2,3] }), by decide +kernel⟩,
   ⟨(setTt (base [(F.ANG_AXn_STAMP_STAMP 3, 0x123456789)]) { hostCq := [1,2,3] }), by decide +kernel⟩,
   ⟨base [(F.MEM_GRPn_CFG_MODE 7, 2)], by decide +kernel⟩,
   ⟨base [(F.TT_STATUS_RESERVED, 1)], by decide +kernel⟩,
   ⟨base [(F.TT_STATUS_RESERVED, 1)], by decide +kernel⟩,
   ⟨base ttOnB, by decide +kernel⟩,
   ⟨setTt (base ttOnB) { done := [⟨.host, 7⟩] }, by decide +kernel⟩,
   ⟨0x80001215, base ttOnB, by decide +kernel⟩,
   ⟨0x80001235, base ttOnB, by decide +kernel⟩,
   ⟨⟨0, 1, 0, 1, 3, 4⟩, flS ⟨0, 1, 0, 1, 3, 4⟩, by decide +kernel⟩,
   ⟨⟨1, 1, 9, 1, 4095, 4⟩, flS ⟨1, 1, 9, 1, 4095, 4⟩, by decide +kernel⟩⟩

end W03

namespace W04

def slotS (l : List (Fld × Nat)) : State := base ([(F.ANG_STATUS_RT_STATE, 1), (F.ANG_RT_TIME, 1001), (F.ANG_AXn_STATUS_STATE 2, 2), (F.ANG_AXn_CFG_SRC 2, 5), (F.ANG_AXn_VEL_VEL 2, 1234567), (F.ANG_AXn_STAMP_STAMP 2, 99)] ++ l)
def evE : Nat := 77 + 5 * 2 ^ 24 + 3 * 2 ^ 32 + 0x10 * 2 ^ 56 + 99 * 2 ^ 96
def evC : Cand := ⟨evE, 0, 4, false, 1006, 1006⟩
def grpG (st : GrpSt) (ack : Bool) : Grp := ⟨3, 0x105, 7, st, 2, [⟨5 * 2 ^ 24 + 3 * 2 ^ 32 + 1 * 2 ^ 38 + 2 ^ 46 + 2 ^ 56 + 2 ^ 79 + 7 * 2 ^ 88, 4, 500000⟩], [⟨0, 1, 9, 500000, [4], ack, false, false⟩], 0⟩
def grpS (g : Grp) (l : List (Fld × Nat)) : State := setDsp (base ([(F.ANG_RT_TIME, 490000), (F.DSP_GRP_RING_BASE, 0x80000)] ++ l)) { groups := [g] }
def stC : Cons := ⟨0, 1, 3, 0x105, 500000, 1, 0, 7, 0, [], [], 0⟩
def stI : Item := ⟨9, .consist, 1, 500000, stC, 0⟩
def r8S (l : List (Fld × Nat)) (q : List R8Req) : State := setDsp (base l) { r8queue := q }
def it1 : Item := ⟨9, .retime, 4, 5000, noCons, 0x1234⟩

/-- States and operands that meet the hypotheses of each clause of SlotsAndBufferStop. -/
theorem witness_SlotsAndBufferStop :
    (∃ s : State, Quiet s ∧ (rtState s = rSTOPPED ∨ rtState s = rACQ_FREQ)) ∧
    (∃ s : State, Quiet s ∧ (rtRuns s = true) ∧ (flag s F.CLK_STATUS_FROZEN = true ∨ rtValid s = false)) ∧
    (∃ (c : Cand) (s : State), Quiet s ∧ (rtRuns s = true) ∧ (flag s F.CLK_STATUS_FROZEN = false) ∧ (rtValid s = true) ∧ (∀ a, a < 16 → axState s a ≠ aTRACK) ∧ (s.dsp =
        { internal := [c] }) ∧ (s.ports = []) ∧ (s.tt.buckets = []) ∧ (c.t / 4 = now s / 4 + 1) ∧ (eOp c.entry = 0x10) ∧ (c.late = false) ∧ (now s < 2 ^ 63)) ∧
    (∃ s : State, Quiet s ∧ (bstopState s = bRUN) ∧ (fld s F.DSP_BSTOP_CAUSE = 0) ∧ (∀ p, p < 4 → liveRing s p = false) ∧ (s.dsp.groups = [])) ∧
    (∃ s : State, Quiet s ∧ (bstopState s ≠ bRUN)) ∧
    (∃ s : State, Quiet s ∧ (bstopState s = bSTOPPING)) ∧
    (∃ s : State, Quiet s ∧ (bstopState s ≠ bSTOPPING)) ∧
    (∃ s : State, Quiet s ∧ (bstopState s = bSTOPPED) ∧ (triggerActive s = false) ∧ (∀ p, p < 4 → liveRing s p = false)) ∧
    (∃ s : State, Quiet s ∧ (bstopState s ≠ bSTOPPED ∨ triggerActive s = true)) ∧
    (∃ s : State, Quiet s ∧ (bstopState s = bRUN)) ∧
    (∃ (p : Fin 4) (s : State), Quiet s ∧ (bstopState s ≠ bRUN) ∧ (liveRing s p = true) ∧ (∀ q, q < 4 → q ≠ p.val → liveRing s q = false) ∧ SendsPlainly s) :=
  ⟨⟨base [], by decide +kernel⟩,
   ⟨slotS [], by decide +kernel⟩,
   ⟨evC, setDsp (base [(F.ANG_STATUS_RT_STATE, 1), (F.ANG_STATUS_RT_VALID, 1), (F.ANG_RT_TIME, 1001)]) { internal := [evC] }, by decide +kernel⟩,
   ⟨setDsp (base [(F.DSP_STATUS_BSTOP, 0), (F.DSP_BSTOP_CAUSE, 0)]) { internal := [evC] }, by decide +kernel⟩,
   ⟨base [], by decide +kernel⟩,
   ⟨base [(F.DSP_STATUS_BSTOP, 1)], by decide +kernel⟩,
   ⟨base [(F.DSP_STATUS_BSTOP, 2)], by decide +kernel⟩,
   ⟨base [(F.DSP_STATUS_BSTOP, 2), (F.DSP_BSTOP_REQ, 1)], by decide +kernel⟩,
   ⟨base [(F.DSP_STATUS_BSTOP, 2), (F.CLK_STATUS_FROZEN, 1)], by decide +kernel⟩,
   ⟨base [(F.DSP_STATUS_BSTOP, 0)], by decide +kernel⟩,
   ⟨1, base [(F.DSP_STATUS_BSTOP, 2), (F.WNG_Pp_STATUS_STATE 1, 3)], by decide +kernel⟩⟩

/-- States and operands that meet the hypotheses of each clause of GroupsAndRailEight. -/
theorem witness_GroupsAndRailEight :
    (∃ (a : Fin 16) (rev grp : BitVec 8) (g : Grp) (s : State), Quiet s ∧ (s.dsp.groups.find? (fun g => g.axis == a.val && g.rev % 256 == rev.toNat && g.group == grp.toNat &&
        (groupTakes g || g.st == GrpSt.staged)) = some g) ∧ (now s < commitPoint s g)) ∧
    (∃ (a : Fin 16) (rev grp : BitVec 8) (g : Grp) (s : State), Quiet s ∧ (sysClocks s = true) ∧ (flag s F.DSP_CTRL_GRPFAIL_STOP = false) ∧ (s.dsp.groups.find? (fun g => g.axis ==
        a.val && g.rev % 256 == rev.toNat && g.group == grp.toNat && (groupTakes g || g.st == GrpSt.staged)) = some g) ∧ (commitPoint s g ≤ now s) ∧ (groupTakes g = true)) ∧
    (∃ (p : Fin 4) (f : Flit) (x : Item) (g : Grp) (m : GMod) (s : State), Quiet s ∧ (frozen s = false) ∧ (fGood f.toNat = true) ∧ (fType f.toNat = FT.ack) ∧ (upRing s p = true) ∧
        (portOpen s p = true) ∧ (fCidx f.toNat = 0) ∧ ((port s p).journal = [x]) ∧ ((port s p).waiting = []) ∧ (x.kind = .consist) ∧ (x.cons.kind = 1) ∧ (bits (fPayload f.toNat) 8
        12 = x.seq) ∧ (bits (fPayload f.toNat) 0 8 = x.addr) ∧ (x.addr ≠ 255) ∧ (s.dsp.groups = [g]) ∧ (isStagedOf g x.cons = true) ∧ (g.st = GrpSt.staged) ∧ (g.mods = [m]) ∧
        (m.port = p.val) ∧ (m.seq = x.seq) ∧ (now s < commitPoint s g)) ∧
    (∃ (a : Fin 16) (rev grp : BitVec 8) (g : Grp) (s : State), Quiet s ∧ (sysClocks s = true) ∧ (flag s F.DSP_CTRL_GRPFAIL_STOP = false) ∧ (s.dsp.groups.find? (fun g => g.axis ==
        a.val && g.rev % 256 == rev.toNat && g.group == grp.toNat && (groupTakes g || g.st == GrpSt.staged)) = some g) ∧ (commitPoint s g ≤ now s) ∧ (g.st = GrpSt.staged) ∧
        ((g.mods.all fun m => m.acked) = false)) ∧
    (∃ (r : R8Req) (q : List R8Req) (s : State), Quiet s ∧ (sysClocks s = true) ∧ (s.dsp.r8queue = r :: q) ∧ (r8Fits s r = false)) ∧
    (∃ s : State, Quiet s ∧ (s.dsp.r8queue = [])) ∧
    (∃ (r : R8Req) (q : List R8Req) (s : State), Quiet s ∧ (sysClocks s = true) ∧ (s.dsp.r8queue = r :: q) ∧ (r8Fits s r = true)) :=
  ⟨⟨3, 5, 7, grpG .closed false, grpS (grpG .closed false) [(F.ANG_RT_TIME, 100)], by decide +kernel⟩,
   ⟨3, 5, 7, grpG .closed false, grpS (grpG .closed false) [], by decide +kernel⟩,
   ⟨0, mkFlit 10 34 1 0 1 (1 + 9 * 256), stI, grpG .staged false, ⟨0, 1, 9, 500000, [4], false, false, false⟩, setPort (grpS (grpG .staged false) [(F.ANG_RT_TIME, 100000),
        (F.WNG_Pp_CTRL_ENABLE 0, 1), (F.WNG_Pp_STATUS_STATE 0, 3)]) 0 { journal := [stI] }, by decide +kernel⟩,
   ⟨3, 5, 7, grpG .staged false, grpS (grpG .staged false) [], by decide +kernel⟩,
   ⟨.engineWake 3, [.regionStart 5], setDsp (base [(F.DSP_RAIL8_CFG_ENABLE, 1), (F.DSP_RAIL8_CFG_WINDOW, 5), (F.DSP_RAIL8_STEP_STEP, 10), (F.DSP_RAIL8_COST_ENGINE_WAKE, 8)])
        { r8queue := [.engineWake 3, .regionStart 5], steps := [⟨8, 0, 0, 5⟩] }, by decide +kernel⟩,
   ⟨base [], by decide +kernel⟩,
   ⟨.engineWake 3, [.regionStart 5], r8S [] [.engineWake 3, .regionStart 5], by decide +kernel⟩⟩

/-- States and operands that meet the hypotheses of each clause of DispatcherDisablesAndReplays. -/
theorem witness_DispatcherDisablesAndReplays :
    (∃ s : State, Quiet s ∧ (flag s F.DSP_CTRL_ENABLE = true) ∧ (flag s F.DSP_STATUS_DRAINING = false) ∧ (s.dsp.groups = [])) ∧
    (∃ s : State, Quiet s ∧ (flag s F.DSP_CTRL_ENABLE = false ∨ flag s F.DSP_STATUS_DRAINING = true)) ∧
    (∃ (p : Fin 4) (q : BitVec 12) (s : State), Quiet s ∧ (portState s p ≠ pUP ∨ (∀ i ∈ (port s p).journal, i.seq ≠ q.toNat))) ∧
    (∃ (p : Fin 4) (q : BitVec 12) (i : Item) (s : State), Quiet s ∧ (portState s p = pUP) ∧ (isTrunk s p = false) ∧ ((port s p).journal = [i]) ∧ (i.seq = q.toNat) ∧ (now s + fld s
        (F.DSP_PORTp_RTT_RTT p) ≤ i.deadline) ∧ ((port s p).replays = 0) ∧ SendsPlainly s) :=
  ⟨⟨setDsp (base [(F.DSP_CTRL_ENABLE, 1)]) { store := [⟨evE, 0, 4, false⟩] }, by decide +kernel⟩,
   ⟨base [], by decide +kernel⟩,
   ⟨1, 9, base [], by decide +kernel⟩,
   ⟨1, 9, it1, setPort (base [(F.WNG_Pp_STATUS_STATE 1, 3), (F.ANG_RT_TIME, 100)]) 1 { journal := [it1] }, by decide +kernel⟩⟩

end W04

namespace W05

def cb : List (Nat × Byte) := [(0, 1), (2, 40), (8, 2), (9, 5), (11, 0), (13, 4), (15, 2), (16, 4), (17, 9), (19, 0), (21, 3), (23, 3), (24, 77), (28, 5), (29, 5), (31, 1), (33, 1), (35, 2), (36, 5), (37, 5), (39, 0), (40, 1)]
def mod0 : Module := { ident := cb, pos := 5, lastSeq := 17, rtOff := 3, chans := [(0, ⟨1, 1, 0⟩), (1, ⟨3, 9, 500⟩), (9, ⟨3, 9, 500⟩)] }
def ms (m : Module) (l : List (Fld × Nat)) : State := setModule (base ([(F.ANG_RT_TIME, 1000)] ++ l)) 2 7 m
def hh (k st : Nat) : Held := { seq := 33, stamp := st, kind := k, fb := 1, group := 4, rev := 6, axis := 2, epoch := 9, upds := [1 + 3 * 2 ^ 10 + 55 * 2 ^ 16] }
def cfl (st : Nat) : Flit := mkFlit FT.consist 33 5 0 0 (st + 2 ^ 64 + 3 * 2 ^ 112 + (1 + 3 * 2 ^ 10) * 2 ^ 144)
def cf2 : Flit := mkFlit FT.cont 33 5 1 1 77
def ity (t y : Nat) : Flit := mkFlit t 34 5 0 1 y

/-- States and operands that meet the hypotheses of each clause of ModulesStoreAndAct. -/
theorem witness_ModulesStoreAndAct :
    (∃ (p : Fin 4) (pos : Fin 256) (f : Flit) (l : List Flit) (s : State), ConsistReaches s p pos f l ∧ (consistOk ((f :: l).map (·.toNat)) = true) ∧ ((module s p pos).stopped =
        false) ∧ (∀ h ∈ (module s p pos).held, h.seq ≠ fSeq f.toNat) ∧ (modTime s (module s p pos) < bits (fPayload f.toNat) 0 64) ∧ ((module s p pos).held.length < 64)) ∧
    (∃ (p : Fin 4) (pos : Fin 256) (f : Flit) (l : List Flit) (h : Held) (s : State), ConsistReaches s p pos f l ∧ (consistOk ((f :: l).map (·.toNat)) = true) ∧ ((module s p
        pos).stopped = false) ∧ (h ∈ (module s p pos).held) ∧ (h.seq = fSeq f.toNat)) ∧
    (∃ (p : Fin 4) (pos : Fin 256) (f : Flit) (l : List Flit) (s : State), ConsistReaches s p pos f l ∧ (consistOk ((f :: l).map (·.toNat)) = true) ∧ ((module s p pos).stopped =
        true)) ∧
    (∃ (p : Fin 4) (pos : Fin 256) (f : Flit) (l : List Flit) (s : State), ConsistReaches s p pos f l ∧ (consistOk ((f :: l).map (·.toNat)) = false)) ∧
    (∃ (p : Fin 4) (pos : Fin 256) (f : Flit) (s : State), Reaches s p pos f FT.retime ∧ (∀ h ∈ (module s p pos).held, h.axis ≠ bits (fPayload f.toNat) 160 4 ∨ h.epoch ≠ bits
        (fPayload f.toNat) 164 16)) ∧
    (∃ (p : Fin 4) (pos : Fin 256) (f : Flit) (h : Held) (s : State), Reaches s p pos f FT.retime ∧ ((module s p pos).held = [h]) ∧ (h.axis = bits (fPayload f.toNat) 160 4) ∧
        (h.epoch = bits (fPayload f.toNat) 164 16)) ∧
    (∃ (p : Fin 4) (pos : Fin 256) (f : Flit) (h : Held) (s : State), Reaches s p pos f FT.commit ∧ ((module s p pos).held = [h]) ∧ (h.kind = 1) ∧ (h.axis = bits (fPayload f.toNat)
        0 4) ∧ (h.rev = bits (fPayload f.toNat) 4 8) ∧ (h.group = bits (fPayload f.toNat) 12 8)) ∧
    (∃ (p : Fin 4) (pos : Fin 256) (f : Flit) (h : Held) (s : State), Reaches s p pos f FT.revoke ∧ ((module s p pos).held = [h]) ∧ (h.kind = 1) ∧ (h.axis = bits (fPayload f.toNat)
        0 4) ∧ (h.rev = bits (fPayload f.toNat) 4 8) ∧ (h.group = bits (fPayload f.toNat) 12 8)) ∧
    (∃ (k : Fin 2) (p : Fin 4) (pos : Fin 256) (f : Flit) (s : State), (Reaches s p pos f (modType (if k = 0 then 1 else 2))) ∧ (∀ h ∈ (module s p pos).held, h.kind ≠ 1)) ∧
    (∃ (p : Fin 4) (pos : Fin 256) (f : Flit) (s : State), Reaches s p pos f FT.bstop) ∧
    (∃ (p : Fin 4) (pos : Fin 256) (f : Flit) (s : State), Reaches s p pos f FT.resume) ∧
    (∃ (p : Fin 4) (pos : Fin 256) (f : Flit) (s : State), Reaches s p pos f FT.safe) ∧
    (∃ (p : Fin 4) (pos : Fin 256) (f : Flit) (s : State), Reaches s p pos f FT.missed) ∧
    (∃ (p : Fin 4) (pos : Fin 256) (f : Flit) (s : State), Reaches s p pos f FT.idRead) ∧
    (∃ (k : Fin 8) (p : Fin 4) (pos : Fin 256) (f : Flit) (s : State), Quiet s ∧ (pos ≠ 0) ∧ (fGood f.toNat = true) ∧ (fType f.toNat = modType k) ∧ (fAddr f.toNat ≠ 255) ∧ (fAddr
        f.toNat ≠ (module s p pos).pos) ∧ ((module s p pos).isEnd = false)) :=
  ⟨⟨2, 7, cfl 2000, [cf2], ms mod0 [], by decide +kernel⟩,
   ⟨2, 7, cfl 2000, [cf2], hh 0 5, ms { mod0 with held := [hh 0 5] } [], by decide +kernel⟩,
   ⟨2, 7, cfl 2000, [cf2], ms { mod0 with stopped := true } [], by decide +kernel⟩,
   ⟨2, 7, cfl 2000, [], ms { mod0 with isEnd := true } [], by decide +kernel⟩,
   ⟨2, 7, ity 3 7, ms { mod0 with held := [hh 0 5000] } [], by decide +kernel⟩,
   ⟨2, 7, ity 3 (2000 + 100 * 2 ^ 64 + 2 ^ 30 * 2 ^ 96 + 2 * 2 ^ 160 + 9 * 2 ^ 164), hh 0 5000, ms { mod0 with held := [hh 0 5000] } [], by decide +kernel⟩,
   ⟨2, 7, ity 4 (2 + 6 * 16 + 4 * 4096), hh 1 5000, ms { mod0 with held := [hh 1 5000] } [], by decide +kernel⟩,
   ⟨2, 7, ity 5 (2 + 6 * 16 + 4 * 4096), hh 1 5000, ms { mod0 with held := [hh 1 5000] } [], by decide +kernel⟩,
   ⟨0, 2, 7, ity 4 (2 + 6 * 16 + 4 * 4096), ms { mod0 with held := [hh 0 5000] } [], by decide +kernel⟩,
   ⟨2, 7, ity 6 0, ms { mod0 with held := [hh 0 5000] } [], by decide +kernel⟩,
   ⟨2, 7, ity 7 0, ms { mod0 with stopped := true } [], by decide +kernel⟩,
   ⟨2, 7, ity 8 0, ms { mod0 with stopped := true } [], by decide +kernel⟩,
   ⟨2, 7, ity 9 0, ms { mod0 with stopped := true } [], by decide +kernel⟩,
   ⟨2, 7, ity 13 3, ms mod0 [], by decide +kernel⟩,
   ⟨5, 2, 7, mkFlit 8 3 6 0 1 0, ms mod0 [], by decide +kernel⟩⟩

/-- States and operands that meet the hypotheses of each clause of ModulesActAlone. -/
theorem witness_ModulesActAlone :
    (∃ (p : Fin 4) (pos : Fin 256) (seq : BitVec 12) (h : Held) (u0 : Nat) (s : State), Quiet s ∧ ((module s p pos).held = [h]) ∧ (h.seq = seq.toNat) ∧ (h.kind = 0) ∧ (h.stamp ≤
        modTime s (module s p pos)) ∧ (h.upds = [u0])) ∧
    (∃ (p : Fin 4) (pos : Fin 256) (seq : BitVec 12) (s : State), Quiet s ∧ (∀ h ∈ (module s p pos).held, h.seq = seq.toNat → modTime s (module s p pos) < h.stamp)) ∧
    (∃ (p : Fin 4) (pos : Fin 256) (seq : BitVec 12) (h : Held) (u0 : Nat) (s : State), Quiet s ∧ ((module s p pos).held = [h]) ∧ (h.seq = seq.toNat) ∧ (h.kind = 1) ∧ (h.fb = 1) ∧
        (h.stamp ≤ modTime s (module s p pos)) ∧ (h.upds = [u0]) ∧ (uChan u0 < idChannels (module s p pos).ident)) ∧
    (∃ (p : Fin 4) (pos : Fin 256) (x : PendFb) (c0 : Nat) (s : State), Quiet s ∧ ((module s p pos).held = []) ∧ ((module s p pos).pendFb = [x]) ∧ (x.stamp ≤ modTime s (module s p
        pos)) ∧ (x.fb = 1) ∧ (x.chans = [c0]) ∧ (c0 < idChannels (module s p pos).ident)) ∧
    (∃ (p : Fin 4) (pos : Fin 256) (c : BitVec 10) (s : State), Quiet s ∧ ((chan (module s p pos) c.toNat).op = 3) ∧ ((chan (module s p pos) c.toNat).until_ ≤ modTime s (module s p
        pos))) ∧
    (∃ (p : Fin 4) (pos : Fin 256) (s : State), Quiet s ∧ (pos ≠ 0)) ∧
    (∃ (p : Fin 4) (pos : Fin 256) (s : State), Quiet s ∧ (pos ≠ 0)) ∧
    (∃ (p : Fin 4) (pos : Fin 256) (f : Flit) (s : State), Quiet s ∧ (pos ≠ 0) ∧ (fGood f.toNat = true) ∧ (fType f.toNat = FT.idle) ∧ ((module s p pos).isEnd = false)) ∧
    (∃ (p : Fin 4) (pos : Fin 256) (f : Flit) (s : State), Quiet s ∧ (pos ≠ 0) ∧ (fGood f.toNat = true) ∧ (fType f.toNat = FT.idle) ∧ ((module s p pos).isEnd = true)) ∧
    (∃ (p : Fin 4) (pos : Fin 256) (f : Flit) (s : State), Quiet s ∧ (fGood f.toNat = false)) ∧
    (∃ (p : Fin 4) (f : Flit) (s : State), Quiet s) ∧
    (∃ (p : Fin 4) (pos : Fin 256) (f : Flit) (el : BitVec 20 × Bool) (s : State), Quiet s ∧ (pos ≠ 0) ∧ (fGood f.toNat = true) ∧ (fType f.toNat = FT.enum) ∧ ((fPayload
        f.toNat).testBit 40 = false) ∧ (bits (fPayload f.toNat) 0 8 ≠ 255)) ∧
    (∃ (p : Fin 4) (pos : Fin 256) (f : Flit) (el : BitVec 20 × Bool) (s : State), Quiet s ∧ (pos ≠ 0) ∧ (fGood f.toNat = true) ∧ (fType f.toNat = FT.enum) ∧ ((fPayload
        f.toNat).testBit 40 = true) ∧ (el.2 = false)) ∧
    (∃ (p : Fin 4) (pos : Fin 256) (down : Bool) (t : BitVec 64) (f : Flit) (s : State), Quiet s ∧ (pos ≠ 0) ∧ (fGood f.toNat = true) ∧ (fType f.toNat = FT.probe) ∧ (bits (fPayload
        f.toNat) 64 64 = 0)) ∧
    (∃ (p : Fin 4) (t : BitVec 64) (f : Flit) (s : State), Quiet s ∧ (fGood f.toNat = true) ∧ (fType f.toNat = FT.probe) ∧ (bits (fPayload f.toNat) 64 64 ≠ 0)) ∧
    (∃ (p : Fin 4) (pos : Fin 256) (f : Flit) (s : State), Quiet s ∧ (pos ≠ 0) ∧ (fGood f.toNat = false)) ∧
    (∃ (p : Fin 4) (pos : Fin 256) (t : BitVec 64) (s : State), Quiet s ∧ (pos ≠ 0) ∧ ((module s p pos).isEnd = false)) :=
  ⟨⟨2, 7, 33, hh 0 900, 1 + 3 * 2 ^ 10 + 55 * 2 ^ 16, ms { mod0 with held := [hh 0 900] } [], by decide +kernel⟩,
   ⟨2, 7, 33, ms { mod0 with held := [hh 0 9000] } [], by decide +kernel⟩,
   ⟨2, 7, 33, hh 1 900, 1 + 3 * 2 ^ 10 + 55 * 2 ^ 16, ms { mod0 with held := [hh 1 900] } [], by decide +kernel⟩,
   ⟨2, 7, ⟨900, 1, 4, [1]⟩, 1, ms { mod0 with pendFb := [⟨900, 1, 4, [1]⟩] } [], by decide +kernel⟩,
   ⟨2, 7, 9, ms mod0 [], by decide +kernel⟩,
   ⟨2, 7, ms { mod0 with held := [hh 0 900] } [], by decide +kernel⟩,
   ⟨2, 7, ms mod0 [], by decide +kernel⟩,
   ⟨2, 7, ity 0 0, ms mod0 [], by decide +kernel⟩,
   ⟨2, 7, ity 0 0, ms { mod0 with isEnd := true } [], by decide +kernel⟩,
   ⟨2, 7, ity 0 0 ^^^ 1, ms mod0 [], by decide +kernel⟩,
   ⟨2, ity 0 0, ms mod0 [], by decide +kernel⟩,
   ⟨2, 7, ity 12 9, (5, false), ms { mod0 with isEnd := true } [], by decide +kernel⟩,
   ⟨2, 7, ity 12 (9 + 2 ^ 40), (5, false), ms { mod0 with isEnd := true } [], by decide +kernel⟩,
   ⟨2, 7, true, 555, ity 20 7, ms mod0 [], by decide +kernel⟩,
   ⟨2, 5555, ity 20 (7 + 90 * 2 ^ 64), ms mod0 [], by decide +kernel⟩,
   ⟨2, 7, ity 20 7 ^^^ 1, ms mod0 [], by decide +kernel⟩,
   ⟨2, 7, 4455, ms mod0 [], by decide +kernel⟩⟩

end W05

namespace W06

def fl (t addr y : Nat) : Flit := mkFlit t 34 addr 0 1 y
def wp (x : Port) (l : List (Fld × Nat)) : State := setPort (base ([(F.WNG_Pp_CTRL_ENABLE 1, 1), (F.WNG_Pp_STATUS_STATE 1, 3), (F.DSP_STATUS_BSTOP, 0)] ++ l)) 1 x
def itr : Item := ⟨9, .retime, 4, 5000, noCons, 0x1234⟩
def enu : List (Fld × Nat) := [(F.WNG_Pp_STATUS_STATE 1, 2)]
def tr : List (Fld × Nat) := [(F.WNG_Pp_CTRL_MODE 1, 1), (F.WNG_Pp_CTRL_MODE 2, 1), (F.WNG_Pp_CTRL_ENABLE 2, 1), (F.WNG_Pp_STATUS_STATE 2, 3), (F.WNG_NODE_CTRL_NODE_ID, 7), (F.WNG_ROUTEn_VALID 9, 1), (F.WNG_ROUTEn_PORT 9, 2)]
def ry (dst : Nat) (x : Nat) : Nat := 5 + dst * 4096 + 60 * 2 ^ 24 + x * 2 ^ 30
def rem1 : Remote := ⟨5, 0x33, 77⟩

/-- States and operands that meet the hypotheses of each clause of DeviceEnumeratesAndAcknowledges. -/
theorem witness_DeviceEnumeratesAndAcknowledges :
    (∃ (p : Fin 4) (f : Flit) (i : Item) (s : State), Arrives s f FT.ack ∧ (liveRing s p = true) ∧ (fCidx f.toNat = 0) ∧ ((port s p).journal = [i]) ∧ (i.kind = .retime) ∧ ((port s
        p).waiting = []) ∧ (bits (fPayload f.toNat) 8 12 = i.seq) ∧ (bits (fPayload f.toNat) 0 8 = i.addr) ∧ (i.addr ≠ 255) ∧ (flag s (F.WNG_Pp_STATUS_DRAINING p) = false)) ∧
    (∃ (p : Fin 4) (f : Flit) (s : State), Arrives s f FT.ack ∧ (liveRing s p = true) ∧ (fCidx f.toNat = 0) ∧ ((port s p).journal = []) ∧ ((port s p).waiting = []) ∧ (bits (fPayload
        f.toNat) 0 20 = 255 + 0xFFF * 256) ∧ (bstopState s = bRUN) ∧ (flag s (F.WNG_Pp_STATUS_DRAINING p) = false)) ∧
    (∃ (p : Fin 4) (pos : Fin 256) (f : Flit) (s : State), Quiet s ∧ (fGood f.toNat = true) ∧ (fType f.toNat = FT.ack) ∧ (pos ≠ 0)) ∧
    (∃ (p : Fin 4) (f : Flit) (s : State), Arrives s f FT.nak ∧ (liveRing s p = true) ∧ (portState s p = pENUMERATING) ∧ (bits (fPayload f.toNat) 20 2 = 2) ∧ (bstopState s = bRUN) ∧
        SendsPlainly s) ∧
    (∃ (p : Fin 4) (pos : Fin 256) (f : Flit) (s : State), Quiet s ∧ (fGood f.toNat = true) ∧ (fType f.toNat = FT.nak) ∧ (pos ≠ 0)) ∧
    (∃ (p : Fin 4) (f : Flit) (el : BitVec 20 × Bool) (s : State), Arrives s f FT.enum ∧ (portState s p = pENUMERATING) ∧ ((port s p).enumTries ≠ 0) ∧ ((fPayload f.toNat).testBit 40
        = true) ∧ ((fPayload f.toNat).testBit 41 = false) ∧ (bits (fPayload f.toNat) 0 8 = 1) ∧ ((port s p).waiting = []) ∧ (bstopState s = bRUN)) ∧
    (∃ (p : Fin 4) (f : Flit) (el : BitVec 20 × Bool) (s : State), Arrives s f FT.enum ∧ (portState s p ≠ pENUMERATING ∨ (port s p).enumTries = 0)) ∧
    (∃ (p : Fin 4) (s : State), Quiet s ∧ (portState s p = pENUMERATING) ∧ (0 < (port s p).enumTries) ∧ ((port s p).enumTries < 4) ∧ SendsPlainly s) ∧
    (∃ (p : Fin 4) (s : State), Quiet s ∧ (portState s p = pENUMERATING) ∧ (4 ≤ (port s p).enumTries) ∧ ((port s p).waiting = []) ∧ (bstopState s = bRUN) ∧ ((port s p).count = 0)) ∧
    (∃ (p : Fin 4) (f : Flit) (n : Nat) (s : State), Arrives s f FT.idData ∧ (portState s p = pENUMERATING) ∧ (fAddr f.toNat = n) ∧ ((modInfo s p n).asked = [0]) ∧ (bits (fPayload
        f.toNat) 0 11 = 0) ∧ ((modInfo s p n).ended = false) ∧ ((modInfo s p n).got = []) ∧ ((modInfo s p n).bytes = []) ∧ (bits (fPayload f.toNat) 32 16 = 40) ∧ (fld s
        (F.WNG_Pp_STATUS_MODULES p) = 1) ∧ (n = 1) ∧ SendsPlainly s) ∧
    (∃ (p : Fin 4) (f : Flit) (s : State), Arrives s f FT.idData ∧ (bits (fPayload f.toNat) 0 11 ∉ (modInfo s p (fAddr f.toNat)).asked)) ∧
    (∃ (p : Fin 4) (n : Fin 256) (off : BitVec 11) (s : State), Quiet s ∧ (portState s p = pENUMERATING) ∧ (off.toNat ∈ (modInfo s p n).asked) ∧ ((modInfo s p n).ended = false) ∧
        (smGet (modInfo s p n).tries off.toNat 0 < 3) ∧ SendsPlainly s) ∧
    (∃ (p : Fin 4) (off : BitVec 11) (s : State), Quiet s ∧ (portState s p = pENUMERATING) ∧ (off.toNat ∈ (modInfo s p 1).asked) ∧ ((modInfo s p 1).ended = false) ∧ (3 ≤ smGet
        (modInfo s p 1).tries off.toNat 0) ∧ ((port s p).waiting = []) ∧ (bstopState s = bRUN) ∧ (fld s (F.WNG_Pp_STATUS_MODULES p) = 1)) ∧
    (∃ (p : Fin 4) (s : State), Quiet s ∧ (upRing s p = true) ∧ (portDisabled s p = false) ∧ ((port s p).journal = []) ∧ SendsPlainly s) ∧
    (∃ (p : Fin 4) (s : State), Quiet s ∧ (upRing s p = false ∨ portDisabled s p = true ∨ (port s p).journal ≠ [])) ∧
    (∃ (p : Fin 4) (s : State), Quiet s ∧ (upRing s p = true) ∧ (fld s (F.WNG_Pp_MODn_STATE p 1) = 2) ∧ (fld s (F.WNG_Pp_STATUS_MODULES p) = 1) ∧ SendsPlainly s) ∧
    (∃ (p : Fin 4) (t : BitVec 64) (s : State), Quiet s ∧ (portState s p ≠ pDISABLED) ∧ (lanesReady s p = true) ∧ SendsPlainly s) ∧
    (∃ (p : Fin 4) (t : BitVec 64) (s : State), Quiet s ∧ (portState s p = pDISABLED ∨ lanesReady s p = false)) ∧
    (∃ (p : Fin 4) (fwd : Bool) (f : Flit) (s : State), Quiet s ∧ (fGood f.toNat = false) ∧ (upTrunk s p = false)) :=
  ⟨⟨1, fl 10 4 (4 + 9 * 256), itr, wp { journal := [itr], replays := 3 } [], by decide +kernel⟩,
   ⟨1, fl 10 4 (255 + 0xFFF * 256), wp { replays := 3 } [], by decide +kernel⟩,
   ⟨1, 6, fl 10 4 (255 + 0xFFF * 256), wp { replays := 3 } [], by decide +kernel⟩,
   ⟨1, fl 11 4 (2 * 2 ^ 20), wp { seq := 44 } enu, by decide +kernel⟩,
   ⟨1, 6, fl 11 4 (2 * 2 ^ 20), wp { seq := 44 } enu, by decide +kernel⟩,
   ⟨1, fl 12 4 (1 + 4321 * 256 + 2 ^ 40), 7654, wp { seq := 44, enumTries := 1 } enu, by decide +kernel⟩,
   ⟨1, fl 12 4 (1 + 4321 * 256 + 2 ^ 40), 7654, wp { seq := 44, enumTries := 1 } [], by decide +kernel⟩,
   ⟨1, wp { seq := 44, enumTries := 1, hop := 99999 } enu, by decide +kernel⟩,
   ⟨1, wp { seq := 44, enumTries := 4, hop := 99999 } enu, by decide +kernel⟩,
   ⟨1, fl 14 1 (0x28000100280001 * 2 ^ 16), 1, wp { seq := 44, count := 1, infos := [(1, { asked := [0] })] } ([(F.WNG_Pp_STATUS_MODULES 1, 1)] ++ enu), by decide +kernel⟩,
   ⟨1, fl 14 1 (3 + 0x28000100280001 * 2 ^ 16), wp { seq := 44, count := 1, infos := [(1, { asked := [0] })] } enu, by decide +kernel⟩,
   ⟨1, 1, 16, wp { seq := 44, count := 1, infos := [(1, { asked := [16, 32], tries := [(16, 2)] })] } enu, by decide +kernel⟩,
   ⟨1, 16, wp { seq := 44, count := 1, infos := [(1, { asked := [16, 32], tries := [(16, 3)] })] } ([(F.WNG_Pp_STATUS_MODULES 1, 1)] ++ enu), by decide +kernel⟩,
   ⟨1, wp { seq := 44, hop := 77777 } [(F.WNG_Pp_MODn_STATE 1 200, 3)], by decide +kernel⟩,
   ⟨1, wp { seq := 44, journal := [itr] } [(F.WNG_Pp_MODn_STATE 1 200, 3)], by decide +kernel⟩,
   ⟨1, wp { seq := 44, count := 1 } [(F.WNG_Pp_STATUS_MODULES 1, 1), (F.WNG_Pp_MODn_STATE 1 1, 2)], by decide +kernel⟩,
   ⟨1, 12345, wp { seq := 44 } [(F.WLN_LANEn_STATUS_STATE 2, lnLINKUP)], by decide +kernel⟩,
   ⟨2, 12345, wp { seq := 44 } [], by decide +kernel⟩,
   ⟨1, true, fl 14 1 3 ^^^ 1, wp { seq := 44 } [], by decide +kernel⟩⟩

/-- States and operands that meet the hypotheses of each clause of PortsEnableAndDisable. -/
theorem witness_PortsEnableAndDisable :
    (∃ (p : Fin 4) (s : State), Quiet s ∧ (flag s (F.WNG_Pp_CTRL_ENABLE p) = false) ∧ ((port s p).idling = false) ∧ (∀ n ∈ portLanes s p, laneState s n = 0 ∧ flag s
        (F.WLN_LANEn_CTRL_WAKE_TX n) = false)) ∧
    (∃ (p : Fin 4) (s : State), Quiet s ∧ (flag s (F.WNG_Pp_CTRL_ENABLE p) = true)) ∧
    (∃ (p : Fin 4) (s : State), Quiet s ∧ (portDisabled s p = false) ∧ ((port s p).waiting = []) ∧ (∀ c ∈ s.dsp.unsent, c.port ≠ p.val) ∧ ((port s p).journal = []) ∧ SendsPlainly s) ∧
    (∃ (p : Fin 4) (s : State), Quiet s ∧ (portDisabled s p = false) ∧ ((port s p).waiting = []) ∧ (∀ c ∈ s.dsp.unsent, c.port ≠ p.val) ∧ ((port s p).journal ≠ [])) ∧
    (∃ (p : Fin 4) (s : State), Quiet s ∧ ((port s p).idling = true) ∧ (portState s p ≠ pTRAINING) ∧ (flag s (F.WLN_LANEn_CTRL_TRAIN (2 * p)) = false) ∧ (flag s
        (F.WLN_LANEn_CTRL_TRAIN (2 * p + 1)) = false) ∧ (rtState s ≠ rLOCKED ∨ fld s F.ANG_RTM_ROLE_ROLE ≠ 2)) ∧
    (∃ (p : Fin 4) (s : State), Quiet s ∧ ((port s p).idling = false)) ∧
    (∃ (p : Fin 4) (s : State), Quiet s ∧ (portState s p = pRECOVER) ∧ ((port s p).journal = []) ∧ (flag s (F.WNG_Pp_STATUS_DRAINING p) = false)) ∧
    (∃ (p : Fin 4) (s : State), Quiet s ∧ (portState s p ≠ pRECOVER)) :=
  ⟨⟨2, base [], by decide +kernel⟩,
   ⟨1, wp {} [], by decide +kernel⟩,
   ⟨1, wp {} [], by decide +kernel⟩,
   ⟨1, wp { journal := [itr] } [], by decide +kernel⟩,
   ⟨1, wp { idling := true } [(F.WLN_LANEn_STATUS_STATE 2, 4)], by decide +kernel⟩,
   ⟨1, wp { } [(F.WLN_LANEn_STATUS_STATE 2, 4)], by decide +kernel⟩,
   ⟨1, wp { } [(F.WNG_Pp_STATUS_STATE 1, 4)], by decide +kernel⟩,
   ⟨1, wp { } [], by decide +kernel⟩⟩

/-- States and operands that meet the hypotheses of each clause of TrunksCarryInsertsAndMessages. -/
theorem witness_TrunksCarryInsertsAndMessages :
    (∃ (p : Fin 4) (f : Flit) (src ttl : Nat) (s : State), NextOnTrunk s p f FT.remoteInsert ∧ (Routed f src (nodeId s) ttl) ∧ (classInFlight s 3 < 512)) ∧
    (∃ (p q : Fin 4) (f : Flit) (src dst ttl : Nat) (s : State), NextOnTrunk s p f FT.remoteInsert ∧ Routed f src dst ttl ∧ (dst ≠ nodeId s) ∧ (1 < ttl) ∧ (routePort s dst = some
        q.val) ∧ (upTrunk s q = true) ∧ (portDisabled s q = false) ∧ (q ≠ p) ∧ SendsPlainly s) ∧
    (∃ (p : Fin 4) (f : Flit) (s : State), Arrives s f FT.remoteInsert ∧ (upTrunk s p = true) ∧ ((port s p).rxSync = true) ∧ (fSeq f.toNat ≠ ((port s p).rxSeq + 1) % 4096) ∧ ((port
        s p).rxHold = false) ∧ SendsPlainly s) ∧
    (∃ (p : Fin 4) (f : Flit) (src ttl : Nat) (r : Remote) (s : State), NextOnTrunk s p f FT.insertDone ∧ (Routed f src (nodeId s) ttl) ∧ (s.node.remotes = [r]) ∧ (r.dst = src) ∧
        (r.tag = bits (fPayload f.toNat) 30 9)) ∧
    (∃ (p : Fin 4) (f : Flit) (src ttl : Nat) (s : State), NextOnTrunk s p f FT.mailbox ∧ (Routed f src (nodeId s) ttl) ∧ (bits (fPayload f.toNat) 30 8 ≠ 255) ∧ (s.node.mbRx.length
        < 64)) ∧
    (∃ (p : Fin 4) (f : Flit) (src ttl : Nat) (s : State), NextOnTrunk s p f FT.mailbox ∧ (Routed f src (nodeId s) ttl) ∧ (bits (fPayload f.toNat) 30 8 ≠ 255) ∧ (64 ≤
        s.node.mbRx.length)) ∧
    (∃ (w : Word) (q : Fin 4) (s : State), Quiet s ∧ (s.node.remotes.length < 32) ∧ (riFull s = false) ∧ (routePort s (bits w.toNat 0 12) = some q.val) ∧ (upTrunk s q = true) ∧
        (portDisabled s q = false) ∧ SendsPlainly s) ∧
    (∃ (w : Word) (s : State), Quiet s ∧ (32 ≤ s.node.remotes.length)) ∧
    (∃ (k : Nat) (r : Remote) (s : State), Quiet s ∧ (s.node.remotes[k]? = some r)) ∧
    (∃ (x : Nat) (q : List Nat) (s : State), Quiet s ∧ (s.node.riCq = x :: q)) ∧
    (∃ (x : Nat) (q : List Nat) (s : State), Quiet s ∧ (s.node.mbRx = x :: q)) ∧
    (∃ (w : Word) (q : Fin 4) (s : State), Quiet s ∧ (routePort s (bits w.toNat 0 12) = some q.val) ∧ (upTrunk s q = true) ∧ (portDisabled s q = false) ∧ SendsPlainly s) ∧
    (∃ (w : Word) (s : State), Quiet s ∧ (routePort s (bits w.toNat 0 12) = none)) ∧
    (∃ (p : Fin 4) (s : State), Quiet s ∧ (upTrunk s p = true) ∧ SendsPlainly s) :=
  ⟨⟨1, fl 18 0 (ry 7 (33 + 99 * 512)), 5, 60, wp { rxSync := true, rxSeq := 33 } tr, by decide +kernel⟩,
   ⟨1, 2, fl 18 0 (ry 9 (33 + 99 * 512)), 5, 9, 60, wp { } tr, by decide +kernel⟩,
   ⟨1, fl 18 0 (ry 9 (33 + 99 * 512)), wp { rxSync := true, rxSeq := 32 } tr, by decide +kernel⟩,
   ⟨1, fl 19 0 (ry 7 0x10033), 5, 60, rem1, { wp { } tr with node := { remotes := [rem1] } }, by decide +kernel⟩,
   ⟨1, fl 17 0 (ry 7 0x10033), 5, 60, { wp { } tr with node := { remotes := [rem1] } }, by decide +kernel⟩,
   ⟨1, fl 17 0 (ry 7 0x10033), 5, 60, { wp { } tr with node := { mbRx := List.replicate 64 8 } }, by decide +kernel⟩,
   ⟨9 + 0x77 * 2 ^ 16, 2, { wp { } ([(F.WNG_RI_ENTRY_ENTRY, 123456)] ++ tr) with node := { remotes := [rem1] } }, by decide +kernel, by decide +kernel, decide_eq_false
        (Nat.not_le_of_lt (Nat.lt_add_right _ Nat.one_pos)), by decide +kernel⟩,
   ⟨9 + 0x77 * 2 ^ 16, { wp { } tr with node := { remotes := List.replicate 32 rem1 } }, by decide +kernel⟩,
   ⟨0, rem1, { wp { } tr with node := { remotes := [rem1] } }, by decide +kernel⟩,
   ⟨7, [8], { wp { } tr with node := { riCq := [7, 8] } }, by decide +kernel⟩,
   ⟨7, [8], { wp { } tr with node := { mbRx := [7, 8] } }, by decide +kernel⟩,
   ⟨9 + 0x77 * 2 ^ 16, 2, wp { } tr, by decide +kernel⟩,
   ⟨10 + 0x77 * 2 ^ 16, wp { } tr, by decide +kernel⟩,
   ⟨1, wp { rxSeq := 8 } tr, by decide +kernel⟩⟩

end W06

namespace W08

/-- States and operands that meet the hypotheses of each clause of IntegerAndLogicOperations. -/
theorem witness_IntegerAndLogicOperations :
    (∃ (n : Fin 96) (t : Fin 4) (rd rs1 rs2 : Fin 16) (f : Bool) (s : State), (Issues s n t (encR 0 rd rs1 rs2 f 1 0))) ∧
    (∃ (n : Fin 96) (t : Fin 4) (rd rs1 rs2 : Fin 16) (f : Bool) (s : State), (Issues s n t (encR 0 rd rs1 rs2 f 2 0))) ∧
    (∃ (n : Fin 96) (t : Fin 4) (rd rs1 rs2 : Fin 16) (f : Bool) (s : State), (Issues s n t (encR 0 rd rs1 rs2 f 3 0))) ∧
    (∃ (n : Fin 96) (t : Fin 4) (rd rs1 rs2 : Fin 16) (f : Bool) (s : State), (Issues s n t (encR 0 rd rs1 rs2 f 4 0))) ∧
    (∃ (n : Fin 96) (t : Fin 4) (rd rs1 rs2 : Fin 16) (f : Bool) (s : State), (Issues s n t (encR 0 rd rs1 rs2 f 13 0))) ∧
    (∃ (n : Fin 96) (t : Fin 4) (rd rs1 rs2 : Fin 16) (f : Bool) (s : State), (Issues s n t (encR 0 rd rs1 rs2 f 14 0))) ∧
    (∃ (n : Fin 96) (t : Fin 4) (rd rs1 rs2 : Fin 16) (f : Bool) (s : State), (Issues s n t (encR 0 rd rs1 rs2 f 15 0))) ∧
    (∃ (n : Fin 96) (t : Fin 4) (rd rs1 rs2 : Fin 16) (f : Bool) (s : State), (Issues s n t (encR 0 rd rs1 rs2 f 16 0))) ∧
    (∃ (n : Fin 96) (t : Fin 4) (rd rs1 rs2 : Fin 16) (f : Bool) (s : State), (Issues s n t (encR 0 rd rs1 rs2 f 17 0))) ∧
    (∃ (n : Fin 96) (t : Fin 4) (rd rs1 rs2 : Fin 16) (f : Bool) (s : State), (Issues s n t (encR 0 rd rs1 rs2 f 18 0))) ∧
    (∃ (n : Fin 96) (t : Fin 4) (rd rs1 rs2 : Fin 16) (f : Bool) (s : State), (Issues s n t (encR 0 rd rs1 rs2 f 19 0))) ∧
    (∃ (n : Fin 96) (t : Fin 4) (rd rs1 : Fin 16) (f : Bool) (s : State), (Issues s n t (encR 0 rd rs1 0 f 20 0))) ∧
    (∃ (n : Fin 96) (t : Fin 4) (rd rs1 : Fin 16) (f : Bool) (s : State), (Issues s n t (encR 0 rd rs1 0 f 21 0))) ∧
    (∃ (n : Fin 96) (t : Fin 4) (rs1 rs2 : Fin 16) (f : Bool) (s : State), (Issues s n t (encR 0 0 rs1 rs2 f 22 0))) ∧
    (∃ (n : Fin 96) (t : Fin 4) (rs1 : Fin 16) (imm : BitVec 18) (s : State), (Issues s n t (encI 5 0 rs1 imm.toNat))) ∧
    (∃ (n : Fin 96) (t : Fin 4) (rd rs1 : Fin 16) (imm : BitVec 18) (s : State), (Issues s n t (encI 1 rd rs1 imm.toNat))) ∧
    (∃ (n : Fin 96) (t : Fin 4) (rd rs1 rs2 : Fin 16) (f : Bool) (s : State), (Issues s n t (encR 0 rd rs1 rs2 f 5 0))) ∧
    (∃ (n : Fin 96) (t : Fin 4) (rd rs1 rs2 : Fin 16) (f : Bool) (s : State), (Issues s n t (encR 0 rd rs1 rs2 f 6 0))) ∧
    (∃ (n : Fin 96) (t : Fin 4) (rd rs1 rs2 : Fin 16) (f : Bool) (s : State), (Issues s n t (encR 0 rd rs1 rs2 f 7 0))) ∧
    (∃ (n : Fin 96) (t : Fin 4) (rd rs1 rs2 : Fin 16) (f : Bool) (s : State), (Issues s n t (encR 0 rd rs1 rs2 f 8 0))) ∧
    (∃ (n : Fin 96) (t : Fin 4) (rs1 rs2 : Fin 16) (f : Bool) (s : State), (Issues s n t (encR 0 0 rs1 rs2 f 23 0))) ∧
    (∃ (n : Fin 96) (t : Fin 4) (rd rs1 : Fin 16) (imm : BitVec 18) (s : State), (Issues s n t (encI 2 rd rs1 imm.toNat))) ∧
    (∃ (n : Fin 96) (t : Fin 4) (rd rs1 : Fin 16) (imm : BitVec 18) (s : State), (Issues s n t (encI 3 rd rs1 imm.toNat))) ∧
    (∃ (n : Fin 96) (t : Fin 4) (rd rs1 : Fin 16) (imm : BitVec 18) (s : State), (Issues s n t (encI 4 rd rs1 imm.toNat))) ∧
    (∃ (n : Fin 96) (t : Fin 4) (rd : Fin 16) (imm : BitVec 18) (s : State), (Issues s n t (encI 7 rd 0 imm.toNat))) ∧
    (∃ (n : Fin 96) (t : Fin 4) (rd : Fin 16) (imm : BitVec 16) (s : State), (Issues s n t (encI 8 rd 0 imm.toNat))) ∧
    (∃ (n : Fin 96) (t : Fin 4) (rd rs1 rs2 : Fin 16) (sh : BitVec 5) (f : Bool) (s : State), (Issues s n t (encR 0 rd rs1 rs2 f 9 0)) ∧ ((gReg s n t rs2).toNat % 32 = sh.toNat)) ∧
    (∃ (n : Fin 96) (t : Fin 4) (rd rs1 rs2 : Fin 16) (sh : BitVec 5) (f : Bool) (s : State), (Issues s n t (encSH rd rs1 0 f sh.toNat))) ∧
    (∃ (n : Fin 96) (t : Fin 4) (rd rs1 rs2 : Fin 16) (sh : BitVec 5) (f : Bool) (s : State), (Issues s n t (encR 0 rd rs1 rs2 f 10 0)) ∧ ((gReg s n t rs2).toNat % 32 = sh.toNat)) ∧
    (∃ (n : Fin 96) (t : Fin 4) (rd rs1 rs2 : Fin 16) (sh : BitVec 5) (f : Bool) (s : State), (Issues s n t (encSH rd rs1 1 f sh.toNat))) ∧
    (∃ (n : Fin 96) (t : Fin 4) (rd rs1 rs2 : Fin 16) (sh : BitVec 5) (f : Bool) (s : State), (Issues s n t (encR 0 rd rs1 rs2 f 11 0)) ∧ ((gReg s n t rs2).toNat % 32 = sh.toNat)) ∧
    (∃ (n : Fin 96) (t : Fin 4) (rd rs1 rs2 : Fin 16) (sh : BitVec 5) (f : Bool) (s : State), (Issues s n t (encSH rd rs1 2 f sh.toNat))) ∧
    (∃ (n : Fin 96) (t : Fin 4) (rd rs1 rs2 : Fin 16) (sh : BitVec 5) (f : Bool) (s : State), (Issues s n t (encR 0 rd rs1 rs2 f 12 0)) ∧ ((gReg s n t rs2).toNat % 32 = sh.toNat)) ∧
    (∃ (n : Fin 96) (t : Fin 4) (rd rs1 rs2 : Fin 16) (sh : BitVec 5) (f : Bool) (s : State), (Issues s n t (encSH rd rs1 3 f sh.toNat))) :=
  ⟨⟨37, 2, 3, 1, 2, true, isa (encR 0 3 1 2 true 1 0) [(1, 0x7FFFFFFF), (2, 1)], by decide +kernel⟩,
   ⟨37, 2, 3, 1, 2, true, isa (encR 0 3 1 2 true 2 0) [(1, 0x7FFFFFFF), (2, 1)], by decide +kernel⟩,
   ⟨37, 2, 3, 1, 2, true, isa (encR 0 3 1 2 true 3 0) [(1, 0x7FFFFFFF), (2, 1)], by decide +kernel⟩,
   ⟨37, 2, 3, 1, 2, true, isa (encR 0 3 1 2 true 4 0) [(1, 0x7FFFFFFF), (2, 1)], by decide +kernel⟩,
   ⟨37, 2, 3, 1, 2, true, isa (encR 0 3 1 2 true 13 0) [(1, 0x7FFFFFFF), (2, 1)], by decide +kernel⟩,
   ⟨37, 2, 3, 1, 2, true, isa (encR 0 3 1 2 true 14 0) [(1, 0x7FFFFFFF), (2, 1)], by decide +kernel⟩,
   ⟨37, 2, 3, 1, 2, true, isa (encR 0 3 1 2 true 15 0) [(1, 0x7FFFFFFF), (2, 1)], by decide +kernel⟩,
   ⟨37, 2, 3, 1, 2, true, isa (encR 0 3 1 2 true 16 0) [(1, 0x7FFFFFFF), (2, 1)], by decide +kernel⟩,
   ⟨37, 2, 3, 1, 2, true, isa (encR 0 3 1 2 true 17 0) [(1, 0x7FFFFFFF), (2, 1)], by decide +kernel⟩,
   ⟨37, 2, 3, 1, 2, true, isa (encR 0 3 1 2 true 18 0) [(1, 0x7FFFFFFF), (2, 1)], by decide +kernel⟩,
   ⟨37, 2, 3, 1, 2, true, isa (encR 0 3 1 2 true 19 0) [(1, 0x7FFFFFFF), (2, 1)], by decide +kernel⟩,
   ⟨37, 2, 3, 1, true, isa (encR 0 3 1 0 true 20 0) [(1, 0x00F10007)], by decide +kernel⟩,
   ⟨37, 2, 3, 1, true, isa (encR 0 3 1 0 true 21 0) [(1, 0x00F10007)], by decide +kernel⟩,
   ⟨37, 2, 1, 2, false, isa (encR 0 0 1 2 false 22 0) [(1, 0x7FFFFFFF), (2, 1)], by decide +kernel⟩,
   ⟨37, 2, 1, 0x3FFFF, isa (encI 5 0 1 0x3FFFF) [(1, 0x7FFFFFFF)], by decide +kernel⟩,
   ⟨37, 2, 1, 1, 0x3FFFF, isa (encI 1 1 1 0x3FFFF) [(1, 0x7FFFFFFF)], by decide +kernel⟩,
   ⟨37, 2, 3, 1, 2, true, isa (encR 0 3 1 2 true 5 0) [(1, 0xF0F01234), (2, 0xFF00FF00)], by decide +kernel⟩,
   ⟨37, 2, 3, 1, 2, true, isa (encR 0 3 1 2 true 6 0) [(1, 0xF0F01234), (2, 0xFF00FF00)], by decide +kernel⟩,
   ⟨37, 2, 3, 1, 2, true, isa (encR 0 3 1 2 true 7 0) [(1, 0xF0F01234), (2, 0xFF00FF00)], by decide +kernel⟩,
   ⟨37, 2, 3, 1, 2, true, isa (encR 0 3 1 2 true 8 0) [(1, 0xF0F01234), (2, 0xFF00FF00)], by decide +kernel⟩,
   ⟨37, 2, 1, 2, false, isa (encR 0 0 1 2 false 23 0) [(1, 0xF0F01234), (2, 0xFF00FF00)], by decide +kernel⟩,
   ⟨37, 2, 3, 1, 0x2F00F, isa (encI 2 3 1 0x2F00F) [(1, 0xF0F01234)], by decide +kernel⟩,
   ⟨37, 2, 3, 1, 0x2F00F, isa (encI 3 3 1 0x2F00F) [(1, 0xF0F01234)], by decide +kernel⟩,
   ⟨37, 2, 3, 1, 0x2F00F, isa (encI 4 3 1 0x2F00F) [(1, 0xF0F01234)], by decide +kernel⟩,
   ⟨37, 2, 3, 0x2F00F, isa (encI 7 3 0 0x2F00F) [(1, 0xF0F01234)], by decide +kernel⟩,
   ⟨37, 2, 3, 0xF00F, isa (encI 8 3 0 0xF00F) [(3, 0xF0F01234)], by decide +kernel⟩,
   ⟨37, 2, 3, 1, 2, 0, true, isa (encR 0 3 1 2 true 9 0) [(1, 0xF0F01235), (2, 4294967264)], by decide +kernel⟩,
   ⟨37, 2, 3, 1, 2, 0, true, isa (encSH 3 1 0 true 0) [(1, 0xF0F01235), (2, 4294967264)], by decide +kernel⟩,
   ⟨37, 2, 3, 1, 2, 0, true, isa (encR 0 3 1 2 true 10 0) [(1, 0xF0F01235), (2, 4294967264)], by decide +kernel⟩,
   ⟨37, 2, 3, 1, 2, 0, true, isa (encSH 3 1 1 true 0) [(1, 0xF0F01235), (2, 4294967264)], by decide +kernel⟩,
   ⟨37, 2, 3, 1, 2, 0, true, isa (encR 0 3 1 2 true 11 0) [(1, 0xF0F01235), (2, 4294967264)], by decide +kernel⟩,
   ⟨37, 2, 3, 1, 2, 0, true, isa (encSH 3 1 2 true 0) [(1, 0xF0F01235), (2, 4294967264)], by decide +kernel⟩,
   ⟨37, 2, 3, 1, 2, 0, true, isa (encR 0 3 1 2 true 12 0) [(1, 0xF0F01235), (2, 4294967264)], by decide +kernel⟩,
   ⟨37, 2, 3, 1, 2, 0, true, isa (encSH 3 1 3 true 0) [(1, 0xF0F01235), (2, 4294967264)], by decide +kernel⟩⟩

/-- States and operands that meet the hypotheses of each clause of SaturatingArithmetic. -/
theorem witness_SaturatingArithmetic :
    (∃ (n : Fin 96) (t : Fin 4) (rd rs1 rs2 : Fin 16) (f : Bool) (s : State), (Issues s n t (encR 12 rd rs1 rs2 f 1 0)) ∧ (false = true → rs2.val % 2 = 0)) ∧
    (∃ (n : Fin 96) (t : Fin 4) (rd rs1 rs2 : Fin 16) (f : Bool) (s : State), (Issues s n t (encR 12 rd rs1 rs2 f 2 0)) ∧ (false = true → rs2.val % 2 = 0)) ∧
    (∃ (n : Fin 96) (t : Fin 4) (rd rs1 rs2 : Fin 16) (f : Bool) (s : State), (Issues s n t (encR 12 rd rs1 rs2 f 3 0)) ∧ (false = true → rs2.val % 2 = 0)) ∧
    (∃ (n : Fin 96) (t : Fin 4) (rd rs1 rs2 : Fin 16) (f : Bool) (s : State), (Issues s n t (encR 12 rd rs1 rs2 f 4 0)) ∧ (false = true → rs2.val % 2 = 0)) ∧
    (∃ (n : Fin 96) (t : Fin 4) (rd rs1 rs2 : Fin 16) (f : Bool) (s : State), (Issues s n t (encR 12 rd rs1 rs2 f 5 0)) ∧ (false = true → rs2.val % 2 = 0)) ∧
    (∃ (n : Fin 96) (t : Fin 4) (rd rs1 rs2 : Fin 16) (f : Bool) (s : State), (Issues s n t (encR 12 rd rs1 rs2 f 6 0)) ∧ (false = true → rs2.val % 2 = 0)) ∧
    (∃ (n : Fin 96) (t : Fin 4) (rd rs1 rs2 : Fin 16) (f : Bool) (s : State), (Issues s n t (encR 12 rd rs1 rs2 f 7 0)) ∧ (false = true → rs2.val % 2 = 0)) ∧
    (∃ (n : Fin 96) (t : Fin 4) (rd rs1 rs2 : Fin 16) (f : Bool) (s : State), (Issues s n t (encR 12 rd rs1 rs2 f 8 0)) ∧ (false = true → rs2.val % 2 = 0)) ∧
    (∃ (n : Fin 96) (t : Fin 4) (rd rs1 rs2 : Fin 16) (f : Bool) (s : State), (Issues s n t (encR 12 rd rs1 rs2 f 9 0)) ∧ (true = true → rs2.val % 2 = 0)) ∧
    (∃ (n : Fin 96) (t : Fin 4) (rd rs1 rs2 : Fin 16) (f : Bool) (s : State), (Issues s n t (encR 12 rd rs1 rs2 f 10 0)) ∧ (true = true → rs2.val % 2 = 0)) ∧
    (∃ (m : BitVec 5) (n : Fin 96) (t : Fin 4) (rd rs1 rs2 : Fin 16) (f : Bool) (s : State), (Issues s n t (encR 12 rd rs1 rs2 f 11 m.toNat)) ∧ (false = true → rs2.val % 2 = 0)) ∧
    (∃ (m : BitVec 5) (n : Fin 96) (t : Fin 4) (rd rs1 rs2 : Fin 16) (f : Bool) (s : State), (Issues s n t (encR 12 rd rs1 rs2 f 12 m.toNat)) ∧ (false = true → rs2.val % 2 = 0)) ∧
    (∃ (fn : Nat) (rd rs1 rs2 : Fin 16) (f : Bool) (n : Fin 96) (t : Fin 4) (s : State), (fn = 7 ∨ fn = 8) ∧ (rs2 ≠ 0)) ∧
    (∃ (fn : Nat) (rd rs1 rs2 : Fin 16) (f : Bool) (n : Fin 96) (t : Fin 4) (s : State), (fn = 9 ∨ fn = 10) ∧ (rs2.val % 2 = 1)) :=
  ⟨⟨37, 2, 3, 1, 2, true, isa (encR 12 3 1 2 true 1 0) [(1, 0x7FFFFFFF), (2, 0x7FFF8001)], by decide +kernel⟩,
   ⟨37, 2, 3, 1, 2, true, isa (encR 12 3 1 2 true 2 0) [(1, 0x7FFFFFFF), (2, 0x7FFF8001)], by decide +kernel⟩,
   ⟨37, 2, 3, 1, 2, true, isa (encR 12 3 1 2 true 3 0) [(1, 0x7FFFFFFF), (2, 0x7FFF8001)], by decide +kernel⟩,
   ⟨37, 2, 3, 1, 2, true, isa (encR 12 3 1 2 true 4 0) [(1, 0x7FFFFFFF), (2, 0x7FFF8001)], by decide +kernel⟩,
   ⟨37, 2, 3, 1, 2, true, isa (encR 12 3 1 2 true 5 0) [(1, 0x7FFFFFFF), (2, 0x7FFF8001)], by decide +kernel⟩,
   ⟨37, 2, 3, 1, 2, true, isa (encR 12 3 1 2 true 6 0) [(1, 0x7FFFFFFF), (2, 0x7FFF8001)], by decide +kernel⟩,
   ⟨37, 2, 1, 1, 0, true, isa (encR 12 1 1 0 true 7 0) [(1, 0x80000000)], by decide +kernel⟩,
   ⟨37, 2, 1, 1, 0, true, isa (encR 12 1 1 0 true 8 0) [(1, 0x80000000)], by decide +kernel⟩,
   ⟨37, 2, 3, 1, 4, true, isa (encR 12 3 1 4 true 9 0) [(1, 0x80000000), (4, 0xFFFFFFF0), (5, 5)], by decide +kernel⟩,
   ⟨37, 2, 3, 1, 4, true, isa (encR 12 3 1 4 true 10 0) [(1, 0x80000000), (4, 0xFFFFFFF0), (5, 5)], by decide +kernel⟩,
   ⟨0, 37, 2, 3, 1, 2, true, isa (encR 12 3 1 2 true 11 0) [(1, 0x80000000)], by decide +kernel⟩,
   ⟨0, 37, 2, 3, 1, 2, true, isa (encR 12 3 1 2 true 12 0) [(1, 0x80000000)], by decide +kernel⟩,
   ⟨7, 3, 1, 1, true, 37, 2, isa (encR 12 3 1 1 true 7 0) [], by decide +kernel⟩,
   ⟨9, 3, 1, 1, true, 37, 2, isa (encR 12 3 1 1 true 9 0) [], by decide +kernel⟩⟩

/-- States and operands that meet the hypotheses of each clause of AccumulatorOperations. -/
theorem witness_AccumulatorOperations :
    (∃ (n : Fin 96) (t : Fin 4) (rs1 rs2 : Fin 16) (acc : Fin 4) (s : State), (Issues s n t (encA 0 rs1 rs2 acc 1 0))) ∧
    (∃ (n : Fin 96) (t : Fin 4) (rs1 rs2 : Fin 16) (acc : Fin 4) (s : State), (Issues s n t (encA 0 rs1 rs2 acc 2 0))) ∧
    (∃ (n : Fin 96) (t : Fin 4) (rs1 rs2 : Fin 16) (acc : Fin 4) (s : State), (Issues s n t (encA 0 rs1 rs2 acc 3 0))) ∧
    (∃ (n : Fin 96) (t : Fin 4) (rs1 rs2 : Fin 16) (acc : Fin 4) (s : State), (Issues s n t (encA 0 rs1 rs2 acc 4 0))) ∧
    (∃ (n : Fin 96) (t : Fin 4) (rs1 rs2 : Fin 16) (acc : Fin 4) (s : State), (Issues s n t (encA 0 rs1 rs2 acc 5 0))) ∧
    (∃ (n : Fin 96) (t : Fin 4) (acc : Fin 4) (s : State), (Issues s n t (encA 0 0 0 acc 7 0))) ∧
    (∃ (n : Fin 96) (t : Fin 4) (rs1 rs2 : Fin 16) (acc : Fin 4) (s : State), (Issues s n t (encA 0 rs1 rs2 acc 8 0))) ∧
    (∃ (n : Fin 96) (t : Fin 4) (rs1 rs2 : Fin 16) (acc : Fin 4) (s : State), (Issues s n t (encA 0 rs1 rs2 acc 9 0))) ∧
    (∃ (n : Fin 96) (t : Fin 4) (rs1 rs2 : Fin 16) (acc : Fin 4) (s : State), (Issues s n t (encA 0 rs1 rs2 acc 10 0))) ∧
    (∃ (n : Fin 96) (t : Fin 4) (rd rs1 rs2 : Fin 16) (acc : Fin 4) (sh : BitVec 6) (s : State), (Issues s n t (encA rd rs1 rs2 acc 11 sh.toNat))) ∧
    (∃ (n : Fin 96) (t : Fin 4) (rd rs1 rs2 : Fin 16) (acc : Fin 4) (sh : BitVec 6) (s : State), (Issues s n t (encA rd rs1 rs2 acc 12 sh.toNat))) ∧
    (∃ (n : Fin 96) (t : Fin 4) (rd rs1 rs2 : Fin 16) (acc : Fin 4) (s : State), (Issues s n t (encA rd rs1 rs2 acc 13 0))) ∧
    (∃ (fn : Fin 14) (rd rs1 rs2 : Fin 16) (acc : Fin 4) (sh : BitVec 6) (n : Fin 96) (t : Fin 4) (s : State), (fn.val ≠ 11 ∧ fn.val ≠ 12 ∧ sh ≠ 0 ∨ fn = 7 ∧ (rs1 ≠ 0 ∨ rs2 ≠ 0))) :=
  ⟨⟨37, 2, 1, 2, 1, isa (encA 0 1 2 1 1 0) [(1, 0x7FFFFFFF), (2, 0x7FFF8001)], by decide +kernel⟩,
   ⟨37, 2, 1, 2, 1, isa (encA 0 1 2 1 2 0) [(1, 0x7FFFFFFF), (2, 0x7FFF8001)], by decide +kernel⟩,
   ⟨37, 2, 1, 2, 1, isa (encA 0 1 2 1 3 0) [(1, 0x7FFFFFFF), (2, 0x7FFF8001)], by decide +kernel⟩,
   ⟨37, 2, 1, 2, 1, isa (encA 0 1 2 1 4 0) [(1, 0x7FFFFFFF), (2, 0x7FFF8001)], by decide +kernel⟩,
   ⟨37, 2, 1, 2, 1, isa (encA 0 1 2 1 5 0) [(1, 0x7FFFFFFF), (2, 0x7FFF8001)], by decide +kernel⟩,
   ⟨37, 2, 1, isa (encA 0 0 0 1 7 0) [], by decide +kernel⟩,
   ⟨37, 2, 1, 2, 1, isa (encA 0 1 2 1 8 0) [(1, 0x7FFFFFFF), (2, 0x7FFF8001)], by decide +kernel⟩,
   ⟨37, 2, 1, 2, 1, isa (encA 0 1 2 1 9 0) [(1, 0x7FFFFFFF), (2, 0x7FFF8001)], by decide +kernel⟩,
   ⟨37, 2, 1, 2, 1, isa (encA 0 1 2 1 10 0) [(1, 0x7FFFFFFF), (2, 0x7FFF8001)], by decide +kernel⟩,
   ⟨37, 2, 3, 1, 2, 1, 0, isa (encA 3 1 2 1 11 0) [], by decide +kernel⟩,
   ⟨37, 2, 3, 1, 2, 1, 0, isa (encA 3 1 2 1 12 0) [], by decide +kernel⟩,
   ⟨37, 2, 3, 1, 2, 1, isa (encA 3 1 2 1 13 0) [], by decide +kernel⟩,
   ⟨1, 0, 1, 2, 3, 63, 37, 2, isa (encA 0 1 2 3 1 63) [], by decide +kernel⟩⟩

end W08

namespace W09

def isa2 (w : Nat) (g : List (Nat × Word)) (f : Engine → Engine) (l : List (Fld × Nat)) : State :=
  let s := l.foldl (fun s e => setFld s e.1 e.2) (isa w g)
  setEngine s 37 (f (engine s 37))
def y0 : AccIn := ⟨0, [], 0, false, 0, 0, 0, 0⟩

/-- States and operands that meet the hypotheses of each clause of LoadsAndStores. -/
theorem witness_LoadsAndStores :
    (∃ (l : Fin 6) (n : Fin 96) (t : Fin 4) (rd base : Fin 16) (imm : BitVec 18) (mode : Fin 3) (b : Nat) (s : State), (Issues s n t (encI (16 + l) rd base imm.toNat)) ∧ (l ≠ 5) ∧
        (b < 65536) ∧ (localAddr s n t base imm = mode * 0x20000 + b) ∧ (b % loadWidth l = 0) ∧ (spPoisoned s n (b / 8) = false) ∧ (Unwatched s n t (mode * 0x20000 + b) (loadWidth
        l) false)) ∧
    (∃ (n : Fin 96) (t : Fin 4) (rd base : Fin 16) (imm : BitVec 18) (mode : Fin 3) (b : Nat) (s : State), (Issues s n t (encI 21 rd base imm.toNat)) ∧ (b < 65536) ∧ (localAddr s n
        t base imm = mode * 0x20000 + b) ∧ (b % 8 = 0) ∧ (spPoisoned s n (b / 8) = false) ∧ (Unwatched s n t (mode * 0x20000 + b) 8 false)) ∧
    (∃ (l : Fin 4) (n : Fin 96) (t : Fin 4) (rs base : Fin 16) (imm : BitVec 18) (mode : Fin 3) (b : Nat) (s : State), (Issues s n t (encI (24 + l) rs base imm.toNat)) ∧ (b < 65536)
        ∧ (localAddr s n t base imm = mode * 0x20000 + b) ∧ (b % 2 ^ l.val = 0) ∧ (spPoisoned s n (b / 8) = false ∨ (mode = 0 ∧ l = 3)) ∧ (Unwatched s n t (mode * 0x20000 + b) (2 ^
        l.val) true)) ∧
    (∃ (l : Fin 6) (n : Fin 96) (t : Fin 4) (rd base : Fin 16) (imm : BitVec 18) (ecc : Fin 3) (s : State), (Issues s n t (encI (16 + l) rd base imm.toNat)) ∧ (localAddr s n t base
        imm % loadWidth l ≠ 0)) ∧
    (∃ (l : Fin 4) (n : Fin 96) (t : Fin 4) (rs base : Fin 16) (imm : BitVec 18) (ecc : Fin 3) (s : State), (Issues s n t (encI (24 + l) rs base imm.toNat)) ∧ (localAddr s n t base
        imm % 2 ^ l.val ≠ 0)) ∧
    (∃ (l : Fin 6) (n : Fin 96) (t : Fin 4) (rd base : Fin 16) (imm : BitVec 18) (ecc : Fin 3) (s : State), (Issues s n t (encI (16 + l) rd base imm.toNat)) ∧ (localAddr s n t base
        imm % loadWidth l = 0) ∧ (localAddr s n t base imm < 0x80000000) ∧ (localAddr s n t base imm / 0x10000 ∉ [0, 2, 4])) ∧
    (∃ (l : Fin 4) (n : Fin 96) (t : Fin 4) (rs base : Fin 16) (imm : BitVec 18) (ecc : Fin 3) (s : State), (Issues s n t (encI (24 + l) rs base imm.toNat)) ∧ (localAddr s n t base
        imm % 2 ^ l.val = 0) ∧ (localAddr s n t base imm < 0x80000000) ∧ (localAddr s n t base imm / 0x10000 ∉ [0, 2, 4])) ∧
    (∃ (l : Fin 6) (n : Fin 96) (t : Fin 4) (rd base : Fin 16) (imm : BitVec 18) (ecc : Fin 3) (mode : Fin 3) (b : Nat) (s : State), (Issues s n t (encI (16 + l) rd base imm.toNat))
        ∧ (b < 65536) ∧ (localAddr s n t base imm = mode * 0x20000 + b) ∧ (b % loadWidth l = 0) ∧ (spPoisoned s n (b / 8) = true)) ∧
    (∃ (l : Fin 4) (n : Fin 96) (t : Fin 4) (rs base : Fin 16) (imm : BitVec 18) (ecc : Fin 3) (mode : Fin 3) (b : Nat) (s : State), (Issues s n t (encI (24 + l) rs base imm.toNat))
        ∧ (b < 65536) ∧ (localAddr s n t base imm = mode * 0x20000 + b) ∧ (b % 2 ^ l.val = 0) ∧ (spPoisoned s n (b / 8) = true) ∧ (¬(mode = 0 ∧ l = 3))) ∧
    (∃ (l : Fin 6) (n : Fin 96) (t : Fin 4) (rd base : Fin 16) (imm : BitVec 18) (ecc : Fin 3) (w : Fin 8) (off : BitVec 28) (s : State), (Issues s n t (encI (16 + l) rd base
        imm.toNat)) ∧ (localAddr s n t base imm = 0x80000000 + w * 0x10000000 + off.toNat) ∧ (off.toNat % loadWidth l = 0) ∧ (Unwatched s n t (0x80000000 + w * 0x10000000 +
        off.toNat) (loadWidth l) false)) ∧
    (∃ (l : Fin 4) (n : Fin 96) (t : Fin 4) (rs base : Fin 16) (imm : BitVec 18) (ecc : Fin 3) (w : Fin 8) (off : BitVec 28) (s : State), (Issues s n t (encI (24 + l) rs base
        imm.toNat)) ∧ (localAddr s n t base imm = 0x80000000 + w * 0x10000000 + off.toNat) ∧ (off.toNat % 2 ^ l.val = 0) ∧ (Unwatched s n t (0x80000000 + w * 0x10000000 +
        off.toNat) (2 ^ l.val) true)) :=
  ⟨⟨0, 37, 2, 3, 1, 4, 0, 84, isa2 (encI 16 3 1 4) [(1, 80)] (fun e => { e with sp := [(10, 0xF1E2D3C4B5A69788), (32, e.sp.head!.2)] }) [], by decide +kernel⟩,
   ⟨37, 2, 4, 1, 0x3FFFC, 1, 80, isa2 (encI 21 4 1 262140) [(1, 131156)] (fun e => { e with sp := [(10, 0xF1E2D3C4B5A69788), (32, e.sp.head!.2)] }) [], by decide +kernel⟩,
   ⟨0, 37, 2, 4, 1, 4, 0, 80, isa2 (encI 24 4 1 4) [(1, 76), (4, 0x12345678), (5, 0x9ABCDEF0)] (fun e => { e with sp := [(10, 0xF1E2D3C4B5A69788), (32, e.sp.head!.2)] }) [], by
        decide +kernel⟩,
   ⟨2, 37, 2, 4, 1, 1, 1, isa2 (encI 18 4 1 1) [(1, 80)] (id) [], by decide +kernel⟩,
   ⟨1, 37, 2, 4, 1, 1, 1, isa2 (encI 25 4 1 1) [(1, 80)] (id) [], by decide +kernel⟩,
   ⟨0, 37, 2, 4, 1, 0, 1, isa2 (encI 16 4 1 0) [(1, 0x10000)] (id) [], by decide +kernel⟩,
   ⟨0, 37, 2, 4, 1, 0, 1, isa2 (encI 24 4 1 0) [(1, 0x7FFFFFF8)] (id) [], by decide +kernel⟩,
   ⟨0, 37, 2, 4, 1, 0, 1, 1, 80, isa2 (encI 16 4 1 0) [(1, 0x20050)] (fun e => { e with spPoison := [(10, 1)] }) [], by decide +kernel⟩,
   ⟨0, 37, 2, 4, 1, 0, 1, 0, 80, isa2 (encI 24 4 1 0) [(1, 80)] (fun e => { e with spPoison := [(10, 1)] }) [], by decide +kernel⟩,
   ⟨0, 37, 2, 4, 1, 8, 0, 2, 0x123450, isa2 (encI 16 4 1 8) [(1, 2685547592)] (id) [(F.ENG_n_WINw_BASE 37 2, 0x40), (F.ENG_n_WINw_VALID 37 2, 1)], by decide +kernel⟩,
   ⟨0, 37, 2, 4, 1, 8, 0, 2, 0x123450, isa2 (encI 24 4 1 8) [(1, 2685547592), (4, 0x12345678), (5, 0x9ABCDEF0)] (id) [(F.ENG_n_WINw_BASE 37 2, 0x40), (F.ENG_n_WINw_VALID 37 2,
        1)], by decide +kernel⟩⟩

/-- States and operands that meet the hypotheses of each clause of BranchesJumpsAndWaits. -/
theorem witness_BranchesJumpsAndWaits :
    (∃ (n : Fin 96) (t : Fin 4) (cond : BitVec 4) (off : BitVec 22) (s : State), (Issues s n t (encB cond.toNat off.toNat)) ∧ (0 ≤ ((thread s n t).pc : Int) + 4 * off.toInt)) ∧
    (∃ (n : Fin 96) (t : Fin 4) (off : BitVec 26) (s : State), (Issues s n t (encL off.toNat)) ∧ (0 ≤ ((thread s n t).pc : Int) + 4 * off.toInt)) ∧
    (∃ (n : Fin 96) (t : Fin 4) (rs1 : Fin 16) (s : State), (Issues s n t (encR 0x22 0 rs1 0 false 0 0))) ∧
    (∃ (n : Fin 96) (t : Fin 4) (rd rs1 : Fin 16) (s : State), (Issues s n t (encR 0x23 rd rs1 0 false 0 0))) ∧
    (∃ (n : Fin 96) (t : Fin 4) (a b : Fin 16) (imm : BitVec 14) (s : State), (Issues s n t (encS 0x30 a b 1 imm.toNat)) ∧ (gReg s n t b ≠ 0) ∧ (bits (gReg s n t b).toNat 12 4 = 0)
        ∧ ((eventsOf s n t &&& (gReg s n t b).toNat) ≠ 0)) ∧
    (∃ (n : Fin 96) (t : Fin 4) (a b : Fin 16) (imm : BitVec 14) (s : State), (Issues s n t (encS 0x30 a b 1 imm.toNat)) ∧ (gReg s n t b ≠ 0) ∧ (bits (gReg s n t b).toNat 12 4 = 0)
        ∧ ((eventsOf s n t &&& (gReg s n t b).toNat) = 0)) ∧
    (∃ (n : Fin 96) (t : Fin 4) (a b : Fin 16) (imm : BitVec 14) (s : State), (Issues s n t (encS 0x30 a b 1 imm.toNat)) ∧ (gReg s n t b = 0 ∨ bits (gReg s n t b).toNat 12 4 ≠ 0)) ∧
    (∃ (n : Fin 96) (t : Fin 4) (a b : Fin 16) (imm : BitVec 14) (s : State), (Issues s n t (encS 0x30 a b 2 imm.toNat)) ∧ ((eventsOf s n t &&& imm.toNat) ≠ 0)) ∧
    (∃ (n : Fin 96) (t : Fin 4) (a b : Fin 16) (imm : BitVec 14) (s : State), (Issues s n t (encS 0x30 a b 2 imm.toNat)) ∧ ((eventsOf s n t &&& imm.toNat) = 0)) :=
  ⟨⟨37, 2, 0, 0x3FFFF6, isa2 (encB 0 0x3FFFF6) [] id [], by decide +kernel⟩,
   ⟨37, 2, 0x123, isa2 (encL 0x123) [] id [], by decide +kernel⟩,
   ⟨37, 2, 1, isa2 (encR 0x22 0 1 0 false 0 0) [(1, 0x1234)] id [], by decide +kernel⟩,
   ⟨37, 2, 1, 1, isa2 (encR 0x23 1 1 0 false 0 0) [(1, 0x1234)] id [], by decide +kernel⟩,
   ⟨37, 2, 1, 5, 7, isa2 (encS 48 1 5 1 7) [(5, 0x20001)] id [(F.ENG_n_SIGNAL_SIGNAL 37, 2)], by decide +kernel⟩,
   ⟨37, 2, 1, 5, 7, isa2 (encS 48 1 5 1 7) [(5, 0x20001)] id [], by decide +kernel⟩,
   ⟨37, 2, 1, 5, 7, isa2 (encS 48 1 5 1 7) [(5, 0x21001)] id [], by decide +kernel⟩,
   ⟨37, 2, 1, 5, 4, isa2 (encS 48 1 5 2 4) [] id [], by decide +kernel⟩,
   ⟨37, 2, 1, 5, 1, isa2 (encS 48 1 5 2 1) [] id [], by decide +kernel⟩⟩

/-- States and operands that meet the hypotheses of each clause of ControlRegisters. -/
theorem witness_ControlRegisters :
    (∃ (n : Fin 96) (t : Fin 4) (rd : Fin 16) (s : State), (Issues s n t (encC rd 0 0 0x001))) ∧
    (∃ (n : Fin 96) (t : Fin 4) (rd : Fin 16) (s : State), (Issues s n t (encC rd 0 0 0x000))) ∧
    (∃ (n : Fin 96) (t : Fin 4) (rd : Fin 16) (s : State), (Issues s n t (encC rd 0 0 0x004))) ∧
    (∃ (n : Fin 96) (t : Fin 4) (rd : Fin 16) (m : Nat) (q : List Nat) (s : State), (Issues s n t (encC rd 0 0 0x010)) ∧ ((engine s n).wakeq = m :: q)) ∧
    (∃ (n : Fin 96) (t : Fin 4) (rd : Fin 16) (s : State), (Issues s n t (encC rd 0 0 0x010)) ∧ ((engine s n).wakeq = [])) ∧
    (∃ (n : Fin 96) (t : Fin 4) (rd : Fin 16) (c : BitVec 12) (s : State), (Issues s n t (encC rd 0 0 c.toNat)) ∧ (c.toNat ∉ [0x000, 0x001, 0x004, 0x005, 0x008, 0x009, 0x00A, 0x010,
        0x011, 0x018, 0x019, 0x020, 0x021, 0x022, 0x024, 0x025, 0x028]) ∧ (c.toNat < 0x030 ∨ 0x040 ≤ c.toNat)) ∧
    (∃ (n : Fin 96) (t : Fin 4) (rs1 : Fin 16) (s : State), (Issues s n t (encC 0 rs1 1 0x022))) ∧
    (∃ (n : Fin 96) (t : Fin 4) (rs1 : Fin 16) (s : State), (Issues s n t (encC 0 rs1 1 0x021))) ∧
    (∃ (n : Fin 96) (t : Fin 4) (rs1 : Fin 16) (s : State), (Issues s n t (encC 0 rs1 1 0x000))) ∧
    (∃ (n : Fin 96) (t : Fin 4) (rs1 : Fin 16) (w : Fin 8) (s : State), (Issues s n t (encC 0 rs1 1 (0x030 + 2 * w)))) ∧
    (∃ (n : Fin 96) (t : Fin 4) (rd rs1 : Fin 16) (s : State), (Issues s n t (encC rd rs1 2 0x018))) ∧
    (∃ (n : Fin 96) (t : Fin 4) (rd rs1 : Fin 16) (s : State), (Issues s n t (encC rd rs1 2 0x019))) ∧
    (∃ (n : Fin 96) (t : Fin 4) (rd rs1 : Fin 16) (s : State), (Issues s n t (encC rd rs1 3 0x018))) ∧
    (∃ (n : Fin 96) (t : Fin 4) (rd rs1 : Fin 16) (c : BitVec 12) (s : State), (Issues s n t (encC rd rs1 3 c.toNat)) ∧ (c.toNat ∈ [0x001, 0x004, 0x005, 0x009, 0x010, 0x011, 0x028])) ∧
    (∃ (n : Fin 96) (t : Fin 4) (rs1 : Fin 16) (c : BitVec 12) (s : State), (Issues s n t (encC 0 rs1 1 c.toNat)) ∧ (c.toNat ∈ [0x001, 0x004, 0x005, 0x009, 0x011, 0x028])) :=
  ⟨⟨37, 2, 3, isa2 (encC 3 0 0 1) [] id [], by decide +kernel⟩,
   ⟨37, 2, 3, isa2 (encC 3 0 0 0) [] id [], by decide +kernel⟩,
   ⟨37, 2, 3, isa2 (encC 3 0 0 4) [] id [(F.ANG_STATUS_RT_VALID, 1), (F.ANG_RT_TIME, 0x123456789ABC)], by decide +kernel⟩,
   ⟨37, 2, 3, 7, [8], isa2 (encC 3 0 0 16) [] (fun e => { e with wakeq := [7, 8] }) [], by decide +kernel⟩,
   ⟨37, 2, 3, isa2 (encC 3 0 0 16) [] id [], by decide +kernel⟩,
   ⟨37, 2, 3, 0x040, isa2 (encC 3 0 0 64) [] id [], by decide +kernel⟩,
   ⟨37, 2, 3, isa2 (encC 0 3 1 34) [(3, 0x9ABCDEF0)] id [], by decide +kernel⟩,
   ⟨37, 2, 3, isa2 (encC 0 3 1 33) [(3, 0x9ABCDEF0)] id [], by decide +kernel⟩,
   ⟨37, 2, 3, isa2 (encC 0 3 1 0) [(3, 0x9ABCDEF5)] id [], by decide +kernel⟩,
   ⟨37, 2, 3, 2, isa2 (encC 0 3 1 52) [(3, 0x9ABCDEF5)] id [], by decide +kernel⟩,
   ⟨37, 2, 4, 3, isa2 (encC 4 3 2 24) [(3, 0x9ABCDEF5)] id [], by decide +kernel⟩,
   ⟨37, 2, 4, 3, isa2 (encC 4 3 2 25) [(3, 0x9ABCDEF5)] id [(F.ENG_n_NOTIFY_NOTIFY 37, 0xF)], by decide +kernel⟩,
   ⟨37, 2, 4, 3, isa2 (encC 4 3 3 24) [(3, 0x9ABCDEF5)] id [(F.ENG_n_SIGNAL_SIGNAL 37, 0xFF)], by decide +kernel⟩,
   ⟨37, 2, 4, 3, 0x10, isa2 (encC 4 3 3 16) [(3, 0x9ABCDEF5)] id [], by decide +kernel⟩,
   ⟨37, 2, 3, 0x28, isa2 (encC 0 3 1 40) [(3, 0x9ABCDEF5)] id [], by decide +kernel⟩⟩

/-- States and operands that meet the hypotheses of each clause of FenceNopBrk. -/
theorem witness_FenceNopBrk :
    (∃ (n : Fin 96) (t : Fin 4) (a b : Fin 16) (imm : BitVec 14) (s : State), (Issues s n t (encS 0x30 a b 0 imm.toNat))) ∧
    (∃ (n : Fin 96) (t : Fin 4) (a b : Fin 16) (imm : BitVec 14) (s : State), (Issues s n t (encS 0x30 a b 3 imm.toNat)) ∧ (∀ q ∈ (engine s n).win, q.store = true → q.thread ≠
        t.val)) ∧
    (∃ (n : Fin 96) (t : Fin 4) (a b : Fin 16) (imm : BitVec 14) (q : WinReq) (s : State), (Issues s n t (encS 0x30 a b 3 imm.toNat)) ∧ (q ∈ (engine s n).win) ∧ (q.store = true) ∧
        (q.thread = t.val)) ∧
    (∃ (n : Fin 96) (t : Fin 4) (a b : Fin 16) (imm : BitVec 14) (s : State), (Issues s n t (encS 0x30 a b 4 imm.toNat)) ∧ (flag s (F.DBG_ENGn_CTRL_ATTACH n) = true) ∧ (flag s
        (F.DBG_ENGn_CTRL_HALT_ALL n) = false)) ∧
    (∃ (n : Fin 96) (t : Fin 4) (a b : Fin 16) (imm : BitVec 14) (s : State), (Issues s n t (encS 0x30 a b 4 imm.toNat)) ∧ (flag s (F.DBG_ENGn_CTRL_ATTACH n) = false)) ∧
    (∃ (n : Fin 96) (k : Fin 16) (x : AccIn) (q : WinReq) (s : State), Calm s n q.thread ∧ ((engine s n).win[k.val]? = some q) ∧ (q.store = true) ∧ (q.pre ≠ 0) ∧ (q.thread < 4) ∧
        ((thread s n q.thread).blk = .fence) ∧ (flag s (F.ENG_n_WERR_VALID n) = false)) :=
  ⟨⟨37, 2, 1, 5, 7, isa2 (encS 48 1 5 0 7) [] id [], by decide +kernel⟩,
   ⟨37, 2, 1, 5, 1, isa2 (encS 48 1 5 3 1) [] (fun e => { e with win := List.replicate 16 ⟨1, true, 0, 0, 0, 0, 4, false, 0, 0⟩ }) [], by decide +kernel⟩,
   ⟨37, 2, 1, 5, 1, ⟨2, true, 0, 0, 0, 0, 4, false, 0, 0⟩, isa2 (encS 48 1 5 3 1) [] (fun e => { e with win := [⟨2, true, 0, 0, 0, 0, 4, false, 0, 0⟩] }) [], by decide +kernel⟩,
   ⟨37, 2, 1, 5, 1, isa2 (encS 48 1 5 4 1) [] id [(F.DBG_ENGn_CTRL_ATTACH 37, 1)], by decide +kernel⟩,
   ⟨37, 2, 1, 5, 1, isa2 (encS 48 1 5 4 1) [] id [], by decide +kernel⟩,
   ⟨37, 0, y0, ⟨2, true, 1, 0x40, 0x123450, 9, 4, true, 3, 0⟩, isa2 (encS 48 1 5 3 1) [] (fun e =>
        { e with win := [⟨2, true, 1, 0x40, 0x123450, 9, 4, true, 3, 0⟩], threads := [(2, { pc := 0x104, blk := .fence, go := true })] }) [], by decide +kernel⟩⟩

/-- States and operands that meet the hypotheses of each clause of StreamsAndInsertion. -/
theorem witness_StreamsAndInsertion :
    (∃ (n : Fin 96) (t : Fin 4) (rd b : Fin 16) (k : Fin 4) (w : Nat) (r : List Nat) (s : State), (Issues s n t (encS 0x31 rd b 0 (4 + k))) ∧ (portOff s n (4 + k) = false) ∧ (fifo s
        n (4 + k) = w :: r)) ∧
    (∃ (n : Fin 96) (t : Fin 4) (rd b : Fin 16) (k : Fin 4) (s : State), (Issues s n t (encS 0x31 rd b 0 (4 + k))) ∧ (portOff s n (4 + k) = false) ∧ (fifo s n (4 + k) = [])) ∧
    (∃ (n : Fin 96) (t : Fin 4) (rd b : Fin 16) (k : Fin 4) (s : State), (Issues s n t (encS 0x31 rd b 0 (4 + k))) ∧ (portOff s n (4 + k) = true)) ∧
    (∃ (n : Fin 96) (t : Fin 4) (rs b : Fin 16) (k : Fin 4) (last : Bool) (s : State), (Issues s n t (encS 0x31 rs b 1 (k + 8 * b2n last))) ∧ (portOff s n k = false) ∧ ((fifo s n
        k).length < 8)) ∧
    (∃ (n : Fin 96) (t : Fin 4) (rs b : Fin 16) (k : Fin 4) (last : Bool) (s : State), (Issues s n t (encS 0x31 rs b 1 (k + 8 * b2n last))) ∧ (portOff s n k = false) ∧ (8 ≤ (fifo s
        n k).length)) ∧
    (∃ (n : Fin 96) (t : Fin 4) (rs b : Fin 16) (tag : BitVec 9) (s : State), (Issues s n t (encS 0x32 rs b 0 tag.toNat)) ∧ ((engine s n).ttis = []) ∧ (engHeld s n = false)) ∧
    (∃ (n : Fin 96) (t : Fin 4) (rs b : Fin 16) (tag : BitVec 9) (s : State), (Issues s n t (encS 0x32 rs b 0 tag.toNat)) ∧ ((engine s n).ttis ≠ [] ∨ engHeld s n = true)) ∧
    (∃ (n : Fin 96) (t : Fin 4) (rs b : Fin 16) (imm : BitVec 14) (s : State), (Issues s n t (encS 0x32 rs b 1 imm.toNat)) ∧ ((engine s n).ttis = []) ∧ (engHeld s n = false)) ∧
    (∃ (n : Fin 96) (t : Fin 4) (rd b : Fin 16) (imm : BitVec 14) (x : Nat) (q : List Nat) (s : State), (Issues s n t (encS 0x32 rd b 2 imm.toNat)) ∧ (engCqOf s n = x :: q) ∧
        ((engine s n).ttis = [])) ∧
    (∃ (n : Fin 96) (t : Fin 4) (rd b : Fin 16) (imm : BitVec 14) (s : State), (Issues s n t (encS 0x32 rd b 2 imm.toNat)) ∧ (engCqOf s n = []) ∧ ((engine s n).ttis = [])) :=
  ⟨⟨37, 2, 4, 9, 1, 2 ^ 64 + 0x123456789ABCDEF0, [7], isa2 (encS 49 4 9 0 5) [] (fun e => { e with fifos := [(1, List.replicate 8 9), (5, [2 ^ 64 + 0x123456789ABCDEF0, 7])] })
        [(F.FAB_REGr_STATUS_STATE 24, 3)], by decide +kernel⟩,
   ⟨37, 2, 4, 9, 2, isa2 (encS 49 4 9 0 6) [] (fun e => { e with fifos := [(1, List.replicate 8 9), (5, [2 ^ 64 + 0x123456789ABCDEF0, 7])] }) [(F.FAB_REGr_STATUS_STATE 24, 3)], by
        decide +kernel⟩,
   ⟨37, 2, 4, 9, 2, isa2 (encS 49 4 9 0 6) [] (fun e => { e with fifos := [(1, List.replicate 8 9), (5, [2 ^ 64 + 0x123456789ABCDEF0, 7])] }) [], by decide +kernel⟩,
   ⟨37, 2, 4, 9, 2, true, isa2 (encS 49 4 9 1 10) [(4, 7), (5, 8)] (fun e => { e with fifos := [(1, List.replicate 8 9), (5, [2 ^ 64 + 0x123456789ABCDEF0, 7])] })
        [(F.FAB_REGr_STATUS_STATE 24, 3)], by decide +kernel⟩,
   ⟨37, 2, 4, 9, 1, true, isa2 (encS 49 4 9 1 9) [(4, 7), (5, 8)] (fun e => { e with fifos := [(1, List.replicate 8 9), (5, [2 ^ 64 + 0x123456789ABCDEF0, 7])] })
        [(F.FAB_REGr_STATUS_STATE 24, 3)], by decide +kernel⟩,
   ⟨37, 2, 4, 9, 0x140, isa2 (encS 50 4 9 0 320) [(4, 7), (5, 8)] id [], by decide +kernel⟩,
   ⟨37, 2, 4, 9, 0x140, isa2 (encS 50 4 9 0 320) [(4, 7), (5, 8)] (fun e => { e with ttis := [⟨1, 2, 3⟩] }) [], by decide +kernel⟩,
   ⟨37, 2, 4, 9, 0x140, isa2 (encS 50 4 9 1 320) [(4, 7), (5, 8), (9, 0x1234567)] id [], by decide +kernel⟩,
   ⟨37, 2, 4, 9, 0x140, 77, [78], let s := isa2 (encS 50 4 9 2 320) [] id []; setTt s { s.tt with engCq := [(37, [77, 78])] }, by decide +kernel⟩,
   ⟨37, 2, 4, 9, 0x140, isa2 (encS 50 4 9 2 320) [] id [], by decide +kernel⟩⟩

end W09

namespace W10

def en (l : List (Fld × Nat)) (f : Engine → Engine) : State :=
  let s := base ([(F.ENG_n_CTRL_ENABLE 37, 1), (F.FAB_REGr_STATUS_STATE 24, 3), (F.FAB_REGr_CLK_EN 24, 15), (F.CLK_FPLLn_EN 8, 1), (F.CLK_FPLLn_LOCKED 8, 1)] ++ l)
  setRegion (setEngine s 37 (f (engine s 37))) 24 { region s 24 with run := true }
def g4 : Engine → Engine := fun e => { e with threads := [(0, { pc := 0x40, g := [(3, 7), (4, 9)] }), (2, { pc := 0x104, g := [(1, 5)], c := true })], sp := [(80, 0x1122334455667788), (81, 5), (127, 99)] }
def wld : WinReq := ⟨2, false, 1, 0x40, 0x123450, 9, 4, true, 3, 0⟩
def wls : WinReq := ⟨2, true, 1, 0x40, 0x123450, 9, 4, true, 3, 0⟩
def wsp : WinReq := ⟨2, false, 1, 0x40, 0x200250284, 0, 4, false, 3, 0⟩
def x0 : AccIn := ⟨0, [], 0, false, 0, 0, 0, 0⟩
def enr (l : List (Fld × Nat)) (f : Engine → Engine) : State := en ([(F.ENG_n_CTRL_START 37, 15), (F.ENG_n_STATUS_THREADS 37, 0x55)] ++ l) f

/-- States and operands that meet the hypotheses of each clause of EnginesStartStopAndFetch. -/
theorem witness_EnginesStartStopAndFetch :
    (∃ (n : Fin 96) (s : State), Quiet s ∧ PowerSteady s ∧ (fld s (F.ENG_n_STATUS_THREADS n) = 0) ∧ (flag s (F.ENG_n_STATUS_GATED n) = false) ∧ ((engine s n).gateReq = false) ∧
        (flag s (F.ENG_n_STATUS_DRAINING n) = false) ∧ (engMayEnable s n = true)) ∧
    (∃ (n : Fin 96) (s : State), Quiet s ∧ (flag s (F.ENG_n_STATUS_DRAINING n) = true)) ∧
    (∃ (n : Fin 96) (v : BitVec 4) (s : State), Quiet s ∧ PowerSteady s ∧ (fld s (F.ENG_n_STATUS_THREADS n) = 0) ∧ (engOn s n = true) ∧ (flag s (F.ENG_n_STATUS_GATED n) = false) ∧
        ((engine s n).gateReq = false)) ∧
    (∃ (n : Fin 96) (v : BitVec 4) (s : State), Quiet s ∧ (fld s (F.ENG_n_STATUS_THREADS n) = 0x55) ∧ (engOn s n = true) ∧ (∀ t, t < 4 → (thread s n t).blk = Blk.free)) ∧
    (∃ (n : Fin 96) (s : State), Quiet s ∧ (engOn s n = true) ∧ (∀ t, t < 4 → (thread s n t).blk = Blk.free) ∧ ((engine s n).ttis = [])) ∧
    (∃ (n : Fin 96) (t : Fin 4) (s : State), Calm s n t ∧ (thrState s n t = tWAIT) ∧ ((eventsOf s n t &&& fld s (F.ENG_n_Tt_MASK_MASK n t)) ≠ 0) ∧ (engClock s n = true) ∧ ((engine s
        n).gateReq = false) ∧ (halted s n t = false)) ∧
    (∃ (n : Fin 96) (t : Fin 4) (s : State), Quiet s ∧ (thrState s n t ≠ tWAIT ∨ (eventsOf s n t &&& fld s (F.ENG_n_Tt_MASK_MASK n t)) = 0)) ∧
    (∃ (n : Fin 96) (t : Fin 4) (s : State), Quiet s ∧ PowerSteady s ∧ (thrState s n t = tWAIT) ∧ ((eventsOf s n t &&& fld s (F.ENG_n_Tt_MASK_MASK n t)) ≠ 0) ∧ (flag s
        (F.ENG_n_STATUS_GATED n) = true) ∧ ((engine s n).gateReq = false) ∧ (R8Req.engineWake n ∉ s.dsp.r8queue)) ∧
    (∃ (n : Fin 96) (s : State), Quiet s ∧ (flag s (F.ENG_n_CTRL_GATE_EN n) = true) ∧ (engClock s n = true) ∧ ((engine s n).win = []) ∧ (∀ t, t < 4 → thrState s n t ≠ tRUN ∧
        (thrState s n t = tWAIT → (eventsOf s n t &&& fld s (F.ENG_n_Tt_MASK_MASK n t)) = 0))) ∧
    (∃ (n : Fin 96) (t : Fin 4) (s : State), Quiet s ∧ (thrState s n t = tRUN)) ∧
    (∃ (n : Fin 96) (b : BitVec 16) (s : State), Quiet s) ∧
    (∃ (n : Fin 96) (s : State), Quiet s ∧ (n.val ∉ s.rst.engWait) ∧ (n.val ∉ s.rst.engOn)) ∧
    (∃ (n : Fin 96) (t : Fin 4) (ecc : Fin 3) (s : State), Calm s n t ∧ (thrReady s n t = true) ∧ (0x10000 ≤ (thread s n t).pc ∨ (thread s n t).pc % 4 ≠ 0)) ∧
    (∃ (n : Fin 96) (t : Fin 4) (ecc : Fin 3) (s : State), Calm s n t ∧ (thrReady s n t = true) ∧ ((thread s n t).pc < 0x10000) ∧ ((thread s n t).pc % 4 = 0) ∧ (spPoisoned s n
        ((thread s n t).pc / 8) = true)) ∧
    (∃ (n : Fin 96) (t : Fin 4) (s : State), Calm s n t ∧ (thrReady s n t = true) ∧ ((thread s n t).pc < 0x10000) ∧ ((thread s n t).pc % 4 = 0) ∧ (spPoisoned s n ((thread s n t).pc
        / 8) = false)) ∧
    (∃ (n : Fin 96) (t : Fin 4) (s : State), Calm s n t ∧ (thrReady s n t = true) ∧ ((thread s n t).pc < 0x10000) ∧ ((thread s n t).pc % 4 = 0) ∧ (spPoisoned s n ((thread s n t).pc
        / 8) = false)) ∧
    (∃ (n : Fin 96) (t : Fin 4) (s : State), Calm s n t ∧ (thrReady s n t = true) ∧ ((thread s n t).pc < 0x10000) ∧ ((thread s n t).pc % 4 = 0) ∧ (spPoisoned s n ((thread s n t).pc
        / 8) = false) ∧ (legalWord (fetched s n t) = false)) ∧
    (∃ (n : Fin 96) (t : Fin 4) (s : State), Quiet s ∧ (legalWord (fetched s n t) = true)) :=
  ⟨⟨37, en [(F.ENG_n_CTRL_ENABLE 37, 0), (F.ENG_n_CTRL_START 37, 5)] g4, by decide +kernel⟩,
   ⟨37, en [(F.ENG_n_STATUS_DRAINING 37, 1), (F.ENG_n_CTRL_START 37, 5)] g4, by decide +kernel⟩,
   ⟨37, 6, en [(F.ENG_n_CTRL_START 37, 1)] g4, by decide +kernel⟩,
   ⟨37, 6, en [(F.ENG_n_CTRL_START 37, 15), (F.ENG_n_STATUS_THREADS 37, 0x55)] g4, by decide +kernel⟩,
   ⟨37, en [(F.ENG_n_CTRL_START 37, 15), (F.ENG_n_STATUS_THREADS 37, 0xE5)] g4, by decide +kernel⟩,
   ⟨37, 2, en [(F.ENG_n_CTRL_START 37, 15), (F.ENG_n_STATUS_THREADS 37, 0x65), (F.ENG_n_SIGNAL_SIGNAL 37, 2), (F.ENG_n_Tt_MASK_MASK 37 2, 0x20000)] g4, by decide +kernel⟩,
   ⟨37, 2, en [(F.ENG_n_CTRL_START 37, 15), (F.ENG_n_STATUS_THREADS 37, 0x65), (F.ENG_n_Tt_MASK_MASK 37 2, 0x20000)] g4, by decide +kernel⟩,
   ⟨37, 2, en [(F.ENG_n_CTRL_START 37, 15), (F.ENG_n_STATUS_THREADS 37, 0x65), (F.ENG_n_STATUS_GATED 37, 1), (F.ENG_n_SIGNAL_SIGNAL 37, 2), (F.ENG_n_Tt_MASK_MASK 37 2, 0x20000)]
        g4, by decide +kernel⟩,
   ⟨37, en [(F.ENG_n_CTRL_START 37, 15), (F.ENG_n_STATUS_THREADS 37, 0x20), (F.ENG_n_Tt_MASK_MASK 37 2, 0x20000)] g4, by decide +kernel⟩,
   ⟨37, 2, en [(F.ENG_n_CTRL_START 37, 15), (F.ENG_n_STATUS_THREADS 37, 0x10), (F.ENG_n_Tt_MASK_MASK 37 2, 0x20000)] g4, by decide +kernel⟩,
   ⟨37, 0x8001, en [(F.ENG_n_SIGNAL_SIGNAL 37, 2)] g4, by decide +kernel⟩,
   ⟨37, en [] g4, by decide +kernel⟩,
   ⟨37, 2, 1, enr [] (fun e => { e with threads := [(2, { pc := 0x10000 })] }), by decide +kernel⟩,
   ⟨37, 2, 1, enr [] (fun e => { g4 e with spPoison := [(32, 1)] }), by decide +kernel⟩,
   ⟨37, 2, enr [(F.ENG_n_SPERR_CORR 37, 65535)] g4, by decide +kernel⟩,
   ⟨37, 2, enr [] g4, by decide +kernel⟩,
   ⟨37, 2, enr [] g4, by decide +kernel⟩,
   ⟨37, 2, enr [] (fun e => { g4 e with sp := [(32, 0xC000000000000000)] }), by decide +kernel⟩⟩

/-- States and operands that meet the hypotheses of each clause of EnginePorts. -/
theorem witness_EnginePorts :
    (∃ (n : Fin 96) (line : Fin 1024) (data : BitVec 512) (engW : BitVec 8) (w : Fin 8) (s : State), Quiet s ∧ PadServed s n ∧ (∀ j, j < 8 → spPoisoned s n (8 * line + j) = false)) ∧
    (∃ (n : Fin 96) (line : Fin 1024) (be : BitVec 64) (data : BitVec 512) (engW : BitVec 8) (ecc : Fin 3) (w : Fin 8) (s : State), Quiet s ∧ PadServed s n ∧ (∀ j, j < 8 →
        spPoisoned s n (8 * line + j) = false)) ∧
    (∃ (n : Fin 96) (line : Fin 1024) (data : BitVec 512) (w : Fin 8) (s : State), Quiet s ∧ PadServed s n ∧ (∀ j, j < 8 → spPoisoned s n (8 * line + j) = false)) ∧
    (∃ (n : Fin 96) (k : Fin 4) (data : BitVec 64) (last : Bool) (w : Nat) (r : List Nat) (s : State), Quiet s ∧ (portOff s n k = false) ∧ (portTicks s n k = true) ∧ (fifo s n k = w
        :: r) ∧ (waitersOn s n k = [])) ∧
    (∃ (n : Fin 96) (k : Fin 8) (data : BitVec 64) (last : Bool) (s : State), Quiet s ∧ (4 ≤ k.val) ∧ (portOff s n k = false) ∧ (portTicks s n k = true) ∧ (engOn s n = true) ∧
        ((fifo s n k).length < 8) ∧ (waitersOn s n k = [])) ∧
    (∃ (n : Fin 96) (t : Fin 4) (k : Fin 8) (rd : Nat) (data : BitVec 64) (last : Bool) (s : State), Calm s n t ∧ (4 ≤ k.val) ∧ (portOff s n k = false) ∧ (portTicks s n k = true) ∧
        (fifo s n k = []) ∧ ((thread s n t).blk = .srd k rd) ∧ (waitersOn s n k = [t.val])) ∧
    (∃ (n : Fin 96) (t : Fin 4) (p rd : Nat) (s : State), Calm s n t ∧ (fld s (F.ENG_n_STREAM_TO_TIMEOUT n) ≠ 0) ∧ ((thread s n t).blk = .srd p rd)) ∧
    (∃ (n : Fin 96) (t : Fin 4) (s : State), Quiet s ∧ (fld s (F.ENG_n_STREAM_TO_TIMEOUT n) = 0)) ∧
    (∃ (n : Fin 96) (k : Fin 16) (q : WinReq) (s : State), Calm s n q.thread ∧ ((engine s n).win[k.val]? = some q) ∧ (q.store = false) ∧ (q.width < 8) ∧ (q.thread < 4)) ∧
    (∃ (n : Fin 96) (k : Fin 16) (q : WinReq) (s : State), Quiet s ∧ ((engine s n).win[k.val]? = some q) ∧ (q.store = true) ∧ ((thread s n q.thread).blk ≠ Blk.fence) ∧ (flag s
        (F.ENG_n_WERR_VALID n) = false)) ∧
    (∃ (n : Fin 96) (k : Fin 16) (x : AccIn) (q : WinReq) (s : State), Calm s n q.thread ∧ ((engine s n).win[k.val]? = some q) ∧ (q.store = false) ∧ (q.pre ≠ 0) ∧ (q.width < 8) ∧
        (q.thread < 4)) ∧
    (∃ (n m : Fin 96) (k : Fin 16) (x : AccIn) (q : WinReq) (s : State), Calm s n q.thread ∧ ((engine s n).win[k.val]? = some q) ∧ (q.store = false) ∧ (q.pre = 0) ∧ (q.width = 4) ∧
        (q.thread < 4) ∧ (q.addr / 0x10000 = 0x20000 + m) ∧ (q.addr % 4 = 0) ∧ (olderWaits s n k q = false) ∧ (sysClocks s = true) ∧ (flag s F.MEM_STATUS_DRAINING = false) ∧
        PadServed s m ∧ (x.coll = 0) ∧ (x.ecc = 0) ∧ (spPoisoned s m (q.addr % 0x10000 / 8) = false)) :=
  ⟨⟨37, 10, 0, 0xFF, 0, en [] g4, by decide +kernel⟩,
   ⟨37, 1, 0xFF000000000000F7, 0x123456789ABCDEF, 0xFF, 2, 0, en [] g4, by decide +kernel⟩,
   ⟨37, 10, 0, 0, en [] g4, by decide +kernel⟩,
   ⟨37, 1, 7, false, 9, [8], en [] fun e => { g4 e with fifos := [(1, [9, 8]), (5, [3])] }, by decide +kernel⟩,
   ⟨37, 5, 7, true, en [] fun e => { g4 e with fifos := [(1, [9, 8]), (5, [3])] }, by decide +kernel⟩,
   ⟨37, 2, 5, 4, 0x123456789ABCDEF0, true, enr [] fun e => { e with threads := [(2, { pc := 0x104, blk := .srd 5 4 })] }, by decide +kernel⟩,
   ⟨37, 2, 5, 4, enr [(F.ENG_n_STREAM_TO_TIMEOUT 37, 4)] fun e => { e with threads := [(2, { pc := 0x104, blk := .srd 5 4, g := [(4, 8)] })] }, by decide +kernel⟩,
   ⟨37, 2, enr [] fun e => { e with threads := [(2, { pc := 0x104, blk := .srd 5 4, g := [(4, 8)] })] }, by decide +kernel⟩,
   ⟨37, 1, wld, enr [] fun e => { e with threads := [(2, { pc := 0x104, blk := .load, g := [(3, 8)] })], win := [wls, wld] }, by decide +kernel⟩,
   ⟨37, 0, wls, enr [] fun e => { e with threads := [(2, { pc := 0x104, blk := .load, g := [(3, 8)] })], win := [wls, wld] }, by decide +kernel⟩,
   ⟨37, 1, x0, wld, enr [] fun e => { e with threads := [(2, { pc := 0x104, blk := .load, g := [(3, 8)] })], win := [wls, wld] }, by decide +kernel⟩,
   ⟨37, 37, 1, x0, wsp, enr [] fun e => { e with sp := [(80, 0x1122334455667788)], threads := [(2, { pc := 0x104, blk := .load, g := [(3, 8)] })], win := [wls, wsp] }, by
        decide +kernel⟩⟩

end W10

namespace W11

def crcW (w : Nat) : BitVec 64 := BitVec.ofNat 64 (w + crc16From 6 0xFFFF w * 2 ^ 48)
def ls (x : Lane) (l : List (Fld × Nat)) : State := setLane (base ([(F.WLN_LANEn_PRESET_POST 3, 5), (F.WLN_LANEn_STATUS_MAIN 3, 11)] ++ l)) 3 x
def mk0 : Nat := 0x7A5C3E91C4B21F68 + 12345 * 2 ^ 64 + 2 ^ 124
def mkr : BitVec 256 := BitVec.ofNat 256 (mk0 + crc32c 28 mk0 * 2 ^ 224)
def lt0 (st : Nat) (l : List (Fld × Nat)) (x : Lane) : State := ls x ([(F.WLN_LANEn_STATUS_STATE 3, st), (F.WLN_LANEn_CFG_RATE 3, 2), (F.WLN_LANEn_STATUS_PRE 3, 9), (F.WLN_LANEn_USER_PATTERN 3, 0x123456789ABCDEF), (F.WLN_LANEn_TEST_SQ_HALF 3, 4)] ++ l)
def rx0 (j : Nat) : Nat := j * j % 4

/-- States and operands that meet the hypotheses of each clause of LaneStateMachine. -/
theorem witness_LaneStateMachine :
    (∃ (n : Fin 8) (c st : BitVec 64) (inv fe : Bool) (want : BitVec 7) (el : BitVec 16) (s : State), Quiet s ∧ (laneState s n = 1) ∧ (wordOk (rx inv c) = true) ∧ (wordOk (rx inv
        st) = true) ∧ (isTrunk s (n / 2) = false) ∧ (bits (rx inv c) 0 7 = 0) ∧ ((lane s n).frames = 1)) ∧
    (∃ (n : Fin 8) (c st : BitVec 64) (inv fe : Bool) (want : BitVec 7) (el : BitVec 16) (s : State), Quiet s ∧ (laneState s n = 1) ∧ (wordOk (rx inv c) = false) ∧ (wordOk (rx inv
        st) = false)) ∧
    (∃ (n : Fin 8) (c st : BitVec 64) (inv : Bool) (want : BitVec 7) (el : BitVec 16) (s : State), Quiet s ∧ (laneState s n = 3) ∧ (wordOk (rx inv c) = true) ∧ (wordOk (rx inv st) =
        true) ∧ (isTrunk s (n / 2) = false) ∧ (bits (rx inv c) 0 7 = 0) ∧ ((rx inv c).testBit 7 = true) ∧ ((rx inv c).testBit 12 = false) ∧ ((lane s n).ready = 7) ∧ (portState s (n
        / 2) = pDISABLED)) ∧
    (∃ (n : Fin 8) (s : State), Quiet s ∧ (laneState s n = 1 ∨ laneState s n = 2 ∨ laneState s n = 3)) ∧
    (∃ (n : Fin 8) (s : State), Quiet s ∧ (laneState s n = 0 ∨ 4 ≤ laneState s n)) ∧
    (∃ (n : Fin 8) (m : BitVec 256) (s : State), Quiet s ∧ (laneState s n = 4) ∧ (markerOk m.toNat = true)) ∧
    (∃ (n : Fin 8) (m : BitVec 256) (s : State), Quiet s ∧ (laneState s n = 4) ∧ (markerOk m.toNat = false) ∧ ((lane s n).missed = 0)) ∧
    (∃ (n : Fin 8) (m : BitVec 256) (s : State), Quiet s ∧ (laneState s n = 4) ∧ ((lane s n).missed = 1) ∧ (portState s (n / 2) = pTRAINING ∨ portState s (n / 2) = pDISABLED) ∧ (fld
        s F.ANG_RTM_ROLE_ROLE ≠ 2)) ∧
    (∃ (k : Fin 2) (n : Fin 8) (s : State), Quiet s ∧ (laneState s n = 4) ∧ (portState s (n / 2) = pTRAINING ∨ portState s (n / 2) = pDISABLED) ∧ (fld s F.ANG_RTM_ROLE_ROLE ≠ 2)) ∧
    (∃ (k : Fin 2) (n : Fin 8) (s : State), Quiet s ∧ (laneState s n ≠ 4)) ∧
    (∃ (n : Fin 8) (s : State), Quiet s ∧ (laneState s n = 4) ∧ (flag s (F.ANG_STATUS_RT_VALID) = true) ∧ (fld s F.ANG_RTM_ROLE_ROLE = 2) ∧ (fld s F.ANG_RTM_ROLE_RCLK_LANE = n) ∧
        (rtState s = rLOCKED) ∧ (portState s (n / 2) = pTRAINING ∨ portState s (n / 2) = pDISABLED)) ∧
    (∃ (n : Fin 8) (fwd : Bool) (cw : BitVec 1088) (out : List Nat) (fixes : List (Nat × Nat)) (s : State), Quiet s ∧ (laneState s n = 4) ∧ (flag s (F.WLN_LANEn_STATUS_FEC_ON n) =
        true) ∧ (RS.decode 8 [] (cwSymbols cw.toNat) = some (out, fixes))) ∧
    (∃ (n : Fin 8) (fwd : Bool) (cw : BitVec 1088) (s : State), Quiet s ∧ (laneState s n = 4) ∧ (flag s (F.WLN_LANEn_STATUS_FEC_ON n) = true) ∧ (RS.decode 8 [] (cwSymbols cw.toNat)
        = none) ∧ (upTrunk s (n / 2) = false) ∧ ((lane s n).bad.length < 7)) ∧
    (∃ (n : Fin 8) (fwd : Bool) (cw : BitVec 1088) (s : State), Quiet s ∧ (laneState s n ≠ 4 ∨ flag s (F.WLN_LANEn_STATUS_FEC_ON n) = false)) ∧
    (∃ (n : Fin 8) (pos : Fin 256) (fwd : Bool) (cw : BitVec 1088) (s : State), Quiet s ∧ (pos ≠ 0) ∧ ((RS.decode 8 [] (cwSymbols cw.toNat)).isSome = true)) ∧
    (∃ (n : Fin 8) (pos : Fin 256) (cw : BitVec 1088) (s : State), Quiet s ∧ (pos ≠ 0) ∧ (RS.decode 8 [] (cwSymbols cw.toNat) = none)) :=
  ⟨⟨3, ~~~crcW 0, ~~~crcW 0, true, false, 0x12, 9, ls { frames := 1 } [(F.WLN_LANEn_STATUS_STATE 3, 1)], by decide +kernel⟩,
   ⟨3, crcW 0 ^^^ 1, crcW 0 ^^^ 1, false, false, 3, 9, ls { frames := 1 } [(F.WLN_LANEn_STATUS_STATE 3, 1)], by decide +kernel⟩,
   ⟨3, crcW 0x880, crcW 0, false, 3, 9, ls { ready := 7 } [(F.WLN_LANEn_STATUS_STATE 3, 3)], by decide +kernel⟩,
   ⟨3, ls { ready := 7 } [(F.WLN_LANEn_STATUS_STATE 3, 3)], by decide +kernel⟩,
   ⟨3, ls { ready := 7 } [(F.WLN_LANEn_STATUS_STATE 3, 4)], by decide +kernel⟩,
   ⟨3, mkr, ls { missed := 1 } [(F.WLN_LANEn_STATUS_STATE 3, 4)], by decide +kernel⟩,
   ⟨3, mkr ^^^ 1, ls { missed := 0 } [(F.WLN_LANEn_STATUS_STATE 3, 4)], by decide +kernel⟩,
   ⟨3, mkr, ls { missed := 1, good := 0x123 } [(F.WLN_LANEn_STATUS_STATE 3, 4)], by decide +kernel⟩,
   ⟨0, 3, ls { missed := 1, good := 0x123 } [(F.WLN_LANEn_STATUS_STATE 3, 4)], by decide +kernel⟩,
   ⟨0, 3, ls { missed := 1, good := 0x123 } [(F.WLN_LANEn_STATUS_STATE 3, 5)], by decide +kernel⟩,
   ⟨3, ls { missed := 1, good := 0x123 } [(F.WLN_LANEn_STATUS_STATE 3, 4), (F.ANG_STATUS_RT_VALID, 1), (F.ANG_RTM_ROLE_ROLE, 2), (F.ANG_RTM_ROLE_RCLK_LANE, 3),
        (F.ANG_STATUS_RT_STATE, rLOCKED)], by decide +kernel⟩,
   ⟨3, true, 1, List.replicate 136 0, [(0, 1)], ls { missed := 1, good := 0x123 } [(F.WLN_LANEn_STATUS_STATE 3, 4), (F.WLN_LANEn_STATUS_FEC_ON 3, 1)], by decide +kernel⟩,
   ⟨3, true, 0x12345678000000000000091A2B3C4D5E6F7, ls { missed := 1, good := 0x123, bad := [3] } [(F.WLN_LANEn_STATUS_STATE 3, 4), (F.WLN_LANEn_STATUS_FEC_ON 3, 1)], by
        decide +kernel⟩,
   ⟨3, true, 7, ls { missed := 1, good := 0x123 } [(F.WLN_LANEn_STATUS_STATE 3, 4)], by decide +kernel⟩,
   ⟨3, 2, true, 7, ls {} [], by decide +kernel⟩,
   ⟨3, 2, 0x12345678000000000000091A2B3C4D5E6F7, ls {} [], by decide +kernel⟩⟩

/-- States and operands that meet the hypotheses of each clause of LaneTests. -/
theorem witness_LaneTests :
    (∃ (n : Fin 8) (s : State), Quiet s ∧ (portState s (n / 2) = pDISABLED) ∧ ((port s (n / 2)).idling = false) ∧ (laneState s n = 0) ∧ (flag s (F.WLN_LANEn_CTRL_WAKE_TX n) = false)) ∧
    (∃ (n : Fin 8) (s : State), Quiet s ∧ (portState s (n / 2) = pDISABLED) ∧ ((port s (n / 2)).idling = false)) ∧
    (∃ (n : Fin 8) (on : Bool) (s : State), Quiet s ∧ (portState s (n / 2) ≠ pDISABLED)) ∧
    (∃ (n : Fin 8) (s : State), Quiet s) ∧
    (∃ (n : Fin 8) (s : State), Quiet s ∧ (portState s (n / 2) ≠ pTRAINING) ∧ (flag s (F.WLN_LANEn_CTRL_TRAIN n) = false)) ∧
    (∃ (n : Fin 8) (s : State), Quiet s ∧ (pwrPhase s = 0) ∧ (pwrState s = 0) ∧ (laneState s n = 0) ∧ (flag s (F.WLN_LANEn_CFG_WAKE_DET n) = true)) ∧
    (∃ (n : Fin 8) (w : Word) (s : State), Quiet s ∧ (laneState s n = 4) ∧ (portState s (n / 2) = pDISABLED)) ∧
    (∃ (n : Fin 8) (w : Word) (s : State), Quiet s ∧ (laneState s n ≠ 4 ∨ portState s (n / 2) ≠ pDISABLED) ∧ (bits w.toNat 0 3 = 1) ∧ (bits w.toNat 4 3 = 1)) ∧
    (∃ (n : Fin 8) (g : Bool) (e : BitVec 32) (y : BitVec 48) (s : State), Quiet s ∧ (fld s (F.WLN_LANEn_TEST_CHK n) = 1) ∧ (flag s (F.WLN_LANEn_TEST_CHK_LOCK n) = true)) ∧
    (∃ (n : Fin 8) (s : State), Quiet s ∧ (laneState s n = 4)) ∧
    (∃ (n : Fin 8) (s : State), Quiet s ∧ (laneState s n < 4)) ∧
    (∃ (n : Fin 8) (s : State), Quiet s) :=
  ⟨⟨3, ls {} [], by decide +kernel⟩,
   ⟨3, ls { good := 3 } [(F.WLN_LANEn_STATUS_STATE 3, 4), (F.WLN_LANEn_CTRL_TRAIN 3, 1)], by decide +kernel⟩,
   ⟨3, true, ls {} [(F.WNG_Pp_STATUS_STATE 1, 3)], by decide +kernel⟩,
   ⟨3, ls {} [], by decide +kernel⟩,
   ⟨3, ls {} [(F.WLN_LANEn_CTRL_WAKE_TX 3, 1)], by decide +kernel⟩,
   ⟨3, ls {} [(F.WLN_LANEn_CFG_WAKE_DET 3, 1)], by decide +kernel⟩,
   ⟨3, 0x512, ls {} [(F.WLN_LANEn_STATUS_STATE 3, 4), (F.WLN_LANEn_TEST_CHK_LOCK 3, 1)], by decide +kernel⟩,
   ⟨3, 0x511, ls {} [(F.WLN_LANEn_STATUS_STATE 3, 3), (F.WLN_LANEn_TEST_CHK_LOCK 3, 1)], by decide +kernel⟩,
   ⟨3, false, 7, 99, ls {} [(F.WLN_LANEn_TEST_CHK 3, 1), (F.WLN_LANEn_ERRCNT_ERRORS 3, 0xFFFFFFFE), (F.WLN_LANEn_TEST_CHK_LOCK 3, 1)], by decide +kernel⟩,
   ⟨3, ls {} [(F.WLN_LANEn_STATUS_STATE 3, 4), (F.WLN_LANEn_INJECT_BURST_LEN 3, 7)], by decide +kernel⟩,
   ⟨3, ls {} [(F.WLN_LANEn_STATUS_STATE 3, 3), (F.WLN_LANEn_INJECT_BURST_LEN 3, 7)], by decide +kernel⟩,
   ⟨3, ls {} [(F.WLN_LANEn_SYMCNT_SYMBOLS 3, 0x1234567890)], by decide +kernel⟩⟩

/-- States and operands that meet the hypotheses of each clause of LaneLineCarries. -/
theorem witness_LaneLineCarries :
    (∃ (n : Fin 8) (rx : Nat → Nat) (j : Nat) (s : State), (laneState s n = 0)) ∧
    (∃ (n : Fin 8) (rx : Nat → Nat) (k : Nat) (i : Fin 160) (s : State), (1 ≤ laneState s n) ∧ (laneState s n ≤ 3)) ∧
    (∃ (n : Fin 8) (rx : Nat → Nat) (i : Fin 128) (s : State), (laneState s n = 4) ∧ (patternOn s n = false) ∧ ((lane s n).inj = [])) ∧
    (∃ (n : Fin 8) (rx : Nat → Nat) (j : Nat) (s : State), (laneState s n = 4) ∧ (fld s (F.WLN_LANEn_TEST_GEN n) = 5)) ∧
    (∃ (n : Fin 8) (rx : Nat → Nat) (j : Nat) (s : State), (laneState s n = 4) ∧ (fld s (F.WLN_LANEn_TEST_GEN n) = 4)) ∧
    (∃ (n : Fin 8) (rx : Nat → Nat) (j a k : Nat) (s : State), (laneState s n = 5) ∧ ((lane s n).inj = [(a, k)])) ∧
    (∃ (l : List Nat) (prev : Nat), (∀ g ∈ l, g < 4) ∧ (prev < 4)) ∧
    (∃ (l : List Nat) (st : Nat), (∀ b ∈ l, b < 2)) :=
  ⟨⟨3, rx0, 6, lt0 0 [(F.WLN_LANEn_CTRL_WAKE_TX 3, 1)] {}, by decide +kernel⟩,
   ⟨3, rx0, 5, 37, lt0 2 [] { req := 0x55 }, by decide +kernel⟩,
   ⟨3, rx0, 40, lt0 4 [] { seed := 0x123456789 }, by decide +kernel⟩,
   ⟨3, rx0, 77, lt0 4 [(F.WLN_LANEn_TEST_GEN 3, 5)] { inj := [(70, 9)] }, by decide +kernel⟩,
   ⟨3, rx0, 77, lt0 4 [(F.WLN_LANEn_TEST_GEN 3, 4)] { inj := [] }, by decide +kernel⟩,
   ⟨3, rx0, 77, 70, 8, lt0 5 [] { inj := [(70, 8)] }, by decide +kernel⟩,
   ⟨[1, 3, 0, 2, 2, 1], 3, by decide +kernel⟩,
   ⟨[1, 1, 0, 0, 1, 0], 0x123456789ABCDE, by decide +kernel⟩⟩

end W11

namespace W12

def rs (x : Region) (l : List (Fld × Nat)) : State := setRegion (base ([(F.FAB_REGr_STATUS_STATE 29, 3), (F.FAB_REGr_CLK_EN 29, 15), (F.CLK_FPLLn_EN 8, 1), (F.CLK_FPLLn_LOCKED 8, 1)] ++ l)) 29 x
def rrun : Region := { run := true, stb := [3, 5], pend := [(2, 3)], priv := [(0, 3), (1, 7), (2, 8)] }
def bms (m : Nat) (x : Bm) : State := let s := rs rrun []; let s := setFab s { s.fab with frames := [(frameKey kMODES 29 0 (bmTile 7), m)] }; setBm s 29 7 x
def cs (x : Region) (l : List (Fld × Nat)) : State := rs x ([(F.CTX_CTRL_ENABLE, 1), (F.CTX_REGr_PLANES_PLANES 29, 0x2A)] ++ l)
def st4 : List (Fld × Nat) := [(F.FAB_REGr_STATUS_STATE 29, 4)]
def st2 : List (Fld × Nat) := [(F.FAB_REGr_STATUS_STATE 29, 2)]
def ow : List (Fld × Nat) := [(F.FAB_BANKb_OWN_VALID 2, 1), (F.FAB_BANKb_OWN_REGION 2, 29)]

/-- States and operands that meet the hypotheses of each clause of StrobesSleepAndBlockMemories. -/
theorem witness_StrobesSleepAndBlockMemories :
    (∃ (r : Fin 72) (k : Fin 8) (s : State), Ticks s r ∧ (regClkEn s r (fld s (F.FAB_REGr_STBk_CLKSEL r k)) = true) ∧ (k.val ∈ (region s r).stb)) ∧
    (∃ (r : Fin 72) (k : Fin 8) (s : State), Quiet s ∧ (regTicks s r = false ∨ k.val ∉ (region s r).stb)) ∧
    (∃ (r : Fin 72) (s : State), Ticks s r ∧ (regState s r = 3) ∧ (flag s (F.FAB_REGr_CTRL_AUTO_SLEEP r) = true) ∧ (regClkEn s r 0 = true) ∧ (regFrozen s r = false)) ∧
    (∃ (r : Fin 72) (s : State), Quiet s ∧ (flag s (F.FAB_REGr_CTRL_AUTO_SLEEP r) = false)) ∧
    (∃ (r : Fin 72) (s : State), Quiet s ∧ (pwrPhase s = 0) ∧ (pwrState s = 0) ∧ (s.pwr.closed = false) ∧ (regRuns s r = true) ∧ (regAsleep s r = true) ∧ ((region s r).gateReq =
        false) ∧ (R8Req.regionStart r ∉ s.dsp.r8queue)) ∧
    (∃ (r : Fin 72) (i : Fin 50) (a : BitVec 12) (d : BitVec 72) (s : State), Ticks s r ∧ (bmQmode (Modes s r i) = 0) ∧ (bits (Modes s r i) 3 3 = 3) ∧ (regClkEn s r (bmClkA (Modes s
        r i)) = true)) ∧
    (∃ (r : Fin 72) (i : Fin 50) (a : BitVec 12) (s : State), Ticks s r ∧ (bmQmode (Modes s r i) = 0) ∧ (bits (Modes s r i) 3 3 = 3) ∧ (regClkEn s r (bmClkB (Modes s r i)) = true)) ∧
    (∃ (r : Fin 72) (i : Fin 50) (d : BitVec 72) (s : State), Ticks s r ∧ (isQueue (Modes s r i) = true) ∧ (regClkEn s r (bmClkA (Modes s r i)) = true) ∧ (queueFull (Modes s r i)
        (bm s r i) = false)) ∧
    (∃ (r : Fin 72) (i : Fin 50) (d : BitVec 72) (s : State), Ticks s r ∧ (isQueue (Modes s r i) = true) ∧ (regClkEn s r (bmClkA (Modes s r i)) = true) ∧ (queueFull (Modes s r i)
        (bm s r i) = true)) ∧
    (∃ (r : Fin 72) (i : Fin 50) (d : BitVec 72) (x : Nat) (q : List Nat) (s : State), Ticks s r ∧ (bmQmode (Modes s r i) = 1) ∧ (regClkEn s r (bmClkA (Modes s r i)) = true) ∧ ((bm
        s r i).q = x :: q) ∧ ((bm s r i).newW = []) ∧ ((bm s r i).newR = []) ∧ (q.length < qDepth (Modes s r i))) ∧
    (∃ (r : Fin 72) (i : Fin 50) (x : Nat) (q : List Nat) (s : State), Ticks s r ∧ (isQueue (Modes s r i) = true) ∧ (regClkEn s r (popClk (Modes s r i)) = true) ∧ (bmQmode (Modes s
        r i) ≠ 3) ∧ ((bm s r i).q = x :: q) ∧ (queueEmpty (bm s r i) = false)) ∧
    (∃ (r : Fin 72) (i : Fin 50) (s : State), Ticks s r ∧ (bmQmode (Modes s r i) = 3) ∧ (regClkEn s r (bmClkA (Modes s r i)) = true) ∧ (queueEmpty (bm s r i) = false)) ∧
    (∃ (r : Fin 72) (i : Fin 50) (s : State), Ticks s r ∧ (isQueue (Modes s r i) = true) ∧ (regClkEn s r (popClk (Modes s r i)) = true) ∧ (queueEmpty (bm s r i) = true)) ∧
    (∃ s : State, Quiet s ∧ (flag s F.FAB_CTRL_ENABLE = true)) ∧
    (∃ (k : Fin 4) (w : Fin 19200) (s : State), Quiet s) :=
  ⟨⟨29, 3, rs rrun [], by decide +kernel⟩,
   ⟨29, 3, rs {rrun with run := false} [], by decide +kernel⟩,
   ⟨29, rs rrun [(F.FAB_REGr_CTRL_AUTO_SLEEP 29, 1)], by decide +kernel⟩,
   ⟨29, rs rrun [(F.FAB_REGr_CTRL_AUTO_SLEEP 29, 0)], by decide +kernel⟩,
   ⟨29, rs rrun [(F.FAB_REGr_STATUS_SLEEPING 29, 1)], by decide +kernel⟩,
   ⟨29, 7, 0x203, 0x123456789ABCDEF012, bms 0x18 { mem := 0x112233445566778899AABBCC * 2 ^ 180 }, by decide +kernel⟩,
   ⟨29, 7, 0x203, bms 0x18 { mem := 0x112233445566778899AABBCC * 2 ^ 180 }, by decide +kernel⟩,
   ⟨29, 7, 0x123456789ABCDEF012, bms 0x19 { q := [1, 2] }, by decide +kernel⟩,
   ⟨29, 7, 0x123456789ABCDEF012, bms (4 + 2 * 65536) { q := [1, 2] }, by decide +kernel⟩,
   ⟨29, 7, 0x123456789ABCDEF012, 1, [2], bms 0x19 { q := [1, 2] }, by decide +kernel⟩,
   ⟨29, 7, 1, [2], bms 0x19 { q := [1, 2] }, by decide +kernel⟩,
   ⟨29, 7, bms 0x40003 { q := [9, 2, 5, 2] }, by decide +kernel⟩,
   ⟨29, 7, bms 0x19 { }, by decide +kernel⟩,
   ⟨rs {} [(F.FAB_CTRL_ENABLE, 1)], by decide +kernel⟩,
   ⟨1, 77, let s := base []; setFab s { s.fab with claims := [(4 * (77 * 32 + 5) + 1, 2), (4 * (77 * 32 + 5) + 2, 2), (4 * (78 * 32) + 1, 1)] }, by decide +kernel⟩⟩

/-- States and operands that meet the hypotheses of each clause of PointsAndPlanes. -/
theorem witness_PointsAndPlanes :
    (∃ (m : Master) (r : Fin 72) (k : Fin 4) (s : State), Quiet s ∧ (pwrPhase s = 0) ∧ (regRuns s r = false) ∧ (∀ n, m = .engine n → flag s (F.ENG_n_CTRL_REGS n) = true) ∧ (smGet
        (region s r).pend (match m with | .engine _ => 2 | _ => 3) 0 = 0)) ∧
    (∃ (r : Fin 72) (k : Fin 4) (s : State), Ticks s r ∧ (regClkEn s r 0 = true) ∧ (smGet (region s r).pend 1 0 ≠ 0)) ∧
    (∃ (r : Fin 72) (k : Fin 4) (s : State), Ticks s r ∧ (regClkEn s r 0 = true) ∧ (smGet (region s r).pend 1 0 = 0)) ∧
    (∃ (r : Fin 72) (src : Fin 4) (k : Fin 4) (s : State), Quiet s ∧ (sysClocks s = true) ∧ (regRuns s r = false) ∧ (dieInReset s (logicPos (regDie r)) = false) ∧ (ctxOn s = true) ∧
        (smGet (region s r).pend src 0 = k + 1) ∧ (∀ j, j < src.val → smGet (region s r).pend j 0 = 0) ∧ (planeReady s r k = true) ∧ (switching s r = false)) ∧
    (∃ (r : Fin 72) (src : Fin 4) (k : Fin 4) (s : State), Quiet s ∧ (sysClocks s = true) ∧ (regRuns s r = false) ∧ (dieInReset s (logicPos (regDie r)) = false) ∧ (smGet (region s
        r).pend src 0 = k + 1) ∧ (∀ j, j < src.val → smGet (region s r).pend j 0 = 0) ∧ (ctxOn s = false ∨ planeReady s r k = false)) ∧
    (∃ (r : Fin 72) (src : Fin 4) (k : Fin 4) (s : State), Ticks s r ∧ (regClkEn s r 0 = true) ∧ (ctxOn s = true) ∧ (dieInReset s (logicPos (regDie r)) = false) ∧ (smGet (region s
        r).pend src 0 = k + 1) ∧ (∀ j, j < src.val → smGet (region s r).pend j 0 = 0) ∧ (planeReady s r k = true) ∧ (switching s r = false) ∧ (ctxOf s r ≠ k)) ∧
    (∃ (r : Fin 72) (k : Nat) (s : State), Ticks s r ∧ (regClkEn s r 0 = true) ∧ ((region s r).switches = [k]) ∧ (k < 4)) ∧
    (∃ (r : Fin 72) (v : BitVec 4) (s : State), Quiet s ∧ (regRuns s r = false) ∧ ((region s r).clearing = [])) ∧
    (∃ (r : Fin 72) (k : Fin 4) (s : State), Quiet s ∧ (sysClocks s = true) ∧ (k.val ∈ (region s r).clearing) ∧ (regState s r ≠ 2) ∧ (regState s r ≠ 4)) ∧
    (∃ (r : Fin 72) (k : Fin 4) (s : State), Quiet s ∧ (k.val ∉ (region s r).clearing)) ∧
    (∃ (r : Fin 72) (k : Fin 4) (kd : Fin 3) (tile : Fin 800) (w : Fin 256) (s : State), Quiet s ∧ (sysClocks s = true) ∧ (flag s F.CTX_CTRL_SCRUB_EN = true) ∧ (dieInReset s
        (confPos (regDie r)) = false) ∧ (planeState s r k = 2) ∧ (regRuns s r = false)) ∧
    (∃ (r : Fin 72) (k : Fin 4) (kd : Fin 3) (tile : Fin 800) (w : Fin 256) (s : State), Quiet s ∧ (sysClocks s = true) ∧ (flag s F.CTX_CTRL_SCRUB_EN = true) ∧ (dieInReset s
        (confPos (regDie r)) = false)) ∧
    (∃ s : State, Quiet s ∧ (flag s F.CTX_CTRL_ENABLE = true) ∧ (∀ e ∈ s.regions, ∀ j, j < 4 → smGet (region s e.1).pend j 0 = 0)) :=
  ⟨⟨.host, 29, 2, cs {} st4, by decide +kernel⟩,
   ⟨29, 2, cs { rrun with pend := [(1, 1)] } [], by decide +kernel⟩,
   ⟨29, 2, cs { rrun with pend := [(2, 1)] } [], by decide +kernel⟩,
   ⟨29, 1, 2, cs { pend := [(1, 3), (2, 1)] } st4, by decide +kernel⟩,
   ⟨29, 1, 3, cs { pend := [(1, 4), (2, 1)] } st4, by decide +kernel⟩,
   ⟨29, 1, 2, cs { rrun with pend := [(1, 3), (2, 1)] } [], by decide +kernel⟩,
   ⟨29, 2, cs { rrun with switches := [2] } [(F.CTX_REGr_ACTIVE_SWITCHING 29, 1)], by decide +kernel⟩,
   ⟨29, 0xE, cs {} ([(F.CTX_REGr_PLANES_PLANES 29, 0x6A)] ++ st4), by decide +kernel⟩,
   ⟨29, 2, let s := cs { rrun with clearing := [1, 2] } []; setFab s { s.fab with frames := [(frameKey 0 29 2 7, 5), (frameKey 0 29 1 7, 5)] }, by decide +kernel⟩,
   ⟨29, 2, cs { rrun with clearing := [1] } [], by decide +kernel⟩,
   ⟨29, 1, 2, 7, 8, cs { } ([(F.CTX_CTRL_SCRUB_EN, 1)] ++ st4), by decide +kernel⟩,
   ⟨29, 1, 1, 7, 8, cs { } ([(F.CTX_CTRL_SCRUB_EN, 1)] ++ st4), by decide +kernel⟩,
   ⟨cs { } ([(F.CTX_CTRL_SCRUB_EN, 1)] ++ st4), by decide +kernel⟩⟩

/-- States and operands that meet the hypotheses of each clause of RegionsStopAndStart. -/
theorem witness_RegionsStopAndStart :
    (∃ (r : Fin 72) (s : State), Quiet s ∧ (regRuns s r = true) ∧ (regFrozen s r = false)) ∧
    (∃ (r : Fin 72) (s : State), Quiet s ∧ (regRuns s r = false)) ∧
    (∃ (r : Fin 72) (s : State), Ticks s r ∧ (regClkEn s r 0 = true) ∧ (flag s (F.FAB_REGr_CTRL_STOP r) = true) ∧ (switching s r = false) ∧ ((region s r).switches = []) ∧ (regState
        s r = 3) ∧ ((region s r).stb = []) ∧ (4 ≤ r.val % 24)) ∧
    (∃ (r : Fin 72) (s : State), Quiet s ∧ (sysClocks s = true) ∧ (flag s (F.FAB_REGr_CTRL_STOP r) = true) ∧ (switching s r = false) ∧ ((region s r).switches = []) ∧ (regState s r =
        3) ∧ (regAsleep s r = true) ∧ ((region s r).stb = []) ∧ (4 ≤ r.val % 24)) ∧
    (∃ (r : Fin 72) (s : State), Quiet s ∧ (flag s (F.FAB_REGr_CTRL_STOP r) = false ∨ switching s r = true)) ∧
    (∃ (r : Fin 72) (s : State), Quiet s ∧ (regState s r = 2) ∧ (planeReady s r (ctxOf s r) = true) ∧ (R8Req.regionStart r ∉ s.dsp.r8queue)) ∧
    (∃ (r : Fin 72) (s : State), Quiet s ∧ (regState s r = 4) ∧ (planeReady s r (ctxOf s r) = true) ∧ (R8Req.regionStart r ∉ s.dsp.r8queue)) ∧
    (∃ (r : Fin 72) (s : State), Quiet s ∧ (regState s r = 2 ∨ regState s r = 4) ∧ (planeReady s r (ctxOf s r) = false)) ∧
    (∃ (r : Fin 72) (s : State), Quiet s ∧ (regState s r ≠ 2) ∧ (regState s r ≠ 4)) ∧
    (∃ (r : Fin 72) (s : State), Quiet s ∧ ((region s r).starting = true) ∧ (regClkEn s r 0 = true) ∧ (clocksOn s = true) ∧ (dieInReset s (logicPos (regDie r)) = false) ∧ (regState
        s r = 2 ∨ regState s r = 4) ∧ (∀ f, f ∈ [1, 2, 3] → ownsFunc s r f = false) ∧ (∀ b, b < 10 → ownsBank s r b = false)) ∧
    (∃ (r : Fin 72) (l : List PadIn) (s : State), Quiet s ∧ ((region s r).starting = false)) ∧
    (∃ (b : Fin 8) (khz : BitVec 20) (r : Nat) (s : State), Quiet s ∧ (bankRegion s b = some r) ∧ (clock3Runs s r = true) ∧ (∀ n, n < 30 → (pad s b n).mode = 0 ∧ (pad s b n).ser =
        0) ∧ (khz.toNat ≤ 400000)) ∧
    (∃ (b : Fin 8) (khz : BitVec 20) (r : Nat) (n0 : Fin 30) (s : State), Quiet s ∧ (bankRegion s b = some r) ∧ (clock3Runs s r = true) ∧ (∀ n, n < 30 → (pad s b n).mode = 0 ∧ (pad
        s b n).ser = if n = n0.val then 1 else 0) ∧ ((pad s b n0).bad = false) ∧ (khz.toNat ≤ 400000) ∧ (200000 < khz.toNat)) ∧
    (∃ (b : Fin 8) (n : Fin 30) (r : Nat) (s : State), Quiet s ∧ (bankRegion s b = some r) ∧ (regTicks s r = true) ∧ (regClkEn s r 3 = true)) ∧
    (∃ (b : Fin 8) (n : Fin 30) (khz : BitVec 20) (s : State), Quiet s ∧ (bankRegion s b = none)) ∧
    (∃ (b : Fin 8) (r : Nat) (khz : BitVec 20) (s : State), Quiet s ∧ (bankRegion s b = some r) ∧ (clock3Runs s r = false)) ∧
    (∃ (b n : Nat) (s : State), (encoderPin s b n = true)) ∧
    (∃ (b n : Nat) (s : State), (encoderPin s b n = false) ∧ (bankRegion s b = none)) ∧
    (∃ (b n r : Nat) (s : State), (encoderPin s b n = false) ∧ (bankRegion s b = some r) ∧ ((region s r).released = false ∨ (pad s b (ruling s b n)).bad = true ∨ (b < 8 ∧ flag s
        (F.IOB_BANKb_STATUS_VIO_FAULT b) = true) ∨ (8 ≤ b ∧ bstopState s ≠ bRUN))) ∧
    (∃ (b n r : Nat) (s : State), (b < 8) ∧ (encoderPin s b n = false) ∧ (bankRegion s b = some r) ∧ ((region s r).released = true) ∧ ((pad s b (ruling s b n)).bad = false) ∧ (flag
        s (F.IOB_BANKb_STATUS_VIO_FAULT b) = false) ∧ ((pad s b (ruling s b n)).ser = 0 ∨ flag s (F.IOB_BANKb_STATUS_LOCKED b) = true) ∧ (regRuns s r = true) ∧ ((region s r).run =
        true) ∧ (dieInReset s (logicPos (regDie r)) = false)) ∧
    (∃ (b n r : Nat) (s : State), (b < 8) ∧ (encoderPin s b n = false) ∧ (bankRegion s b = some r) ∧ ((region s r).released = true) ∧ ((pad s b (ruling s b n)).bad = false) ∧ (flag
        s (F.IOB_BANKb_STATUS_VIO_FAULT b) = false) ∧ ((pad s b (ruling s b n)).ser = 0 ∨ flag s (F.IOB_BANKb_STATUS_LOCKED b) = true) ∧ (regState s r = gSTOPPED)) ∧
    (∃ b n, (b < 4) ∧ (n < 30)) ∧
    (∃ b n, (b < 2) ∧ (n < 24)) ∧
    (∃ p h, (p < 4) ∧ (h < 2)) ∧
    (∃ n, (n < 4)) ∧
    (∃ i j, (5 ≤ i) ∧ (i ≤ 40) ∧ (5 ≤ j) ∧ (j ≤ 40)) ∧
    (∃ s : State, (isOff s = true) ∧ (s.rst.fault = [])) :=
  ⟨⟨29, cs rrun [], by decide +kernel⟩,
   ⟨29, cs rrun st4, by decide +kernel⟩,
   ⟨29, setDsp (cs { rrun with stb := [] } [(F.FAB_REGr_CTRL_STOP 29, 1)]) { r8queue := [.regionStart 29, .engineWake 4] }, by decide +kernel⟩,
   ⟨29, cs { rrun with stb := [] } [(F.FAB_REGr_CTRL_STOP 29, 1), (F.FAB_REGr_STATUS_SLEEPING 29, 1)], by decide +kernel⟩,
   ⟨29, cs rrun [], by decide +kernel⟩,
   ⟨29, let s := cs {} st2; setBm s 29 7 { mem := 77, q := [3] }, by decide +kernel⟩,
   ⟨29, cs {} st4, by decide +kernel⟩,
   ⟨29, cs {} ([(F.CTX_REGr_ACTIVE_CTX 29, 3)] ++ st4), by decide +kernel⟩,
   ⟨29, cs {} [], by decide +kernel⟩,
   ⟨29, cs { starting := true } st2, by decide +kernel⟩,
   ⟨29, [], cs { } st2, by decide +kernel⟩,
   ⟨2, 400000, 29, cs rrun ((F.FAB_REGr_CLK_SEL3 29, 0) :: ow), by decide +kernel⟩,
   ⟨2, 400000, 29, 7, setPad (cs rrun ((F.FAB_REGr_CLK_SEL3 29, 0) :: ow)) 2 7 { ser := 1 }, by decide +kernel⟩,
   ⟨2, 7, 29, setPad (cs rrun ((F.FAB_REGr_CLK_SEL3 29, 0) :: ow)) 2 7 { ser := 2, slip := 3 }, by decide +kernel⟩,
   ⟨2, 7, 9, setPad (cs rrun []) 2 7 { ser := 2, slip := 3 }, by decide +kernel⟩,
   ⟨2, 29, 400000, cs rrun ([(F.FAB_REGr_CLK_SEL3 29, 0), (F.FAB_REGr_STATUS_SLEEPING 29, 1)] ++ ow), by decide +kernel⟩,
   ⟨9, 7, cs rrun [(F.IOB_ENC_EN, 8)], by decide +kernel⟩,
   ⟨9, 7, cs rrun [(F.IOB_ENC_EN, 7)], by decide +kernel⟩,
   ⟨2, 7, 29, cs rrun ow, by decide +kernel⟩,
   ⟨2, 7, 29, cs {rrun with released := true} ow, by decide +kernel⟩,
   ⟨2, 7, 29, cs {rrun with released := true, run := false} ((F.FAB_BANKb_OWN_PADSTOP 2, 1) :: (st4 ++ ow)), by decide +kernel⟩,
   ⟨3, 29, by decide +kernel⟩,
   ⟨1, 23, by decide +kernel⟩,
   ⟨3, 1, by decide +kernel⟩,
   ⟨3, by decide +kernel⟩,
   ⟨40, 40, by decide +kernel⟩,
   ⟨base [(F.PWR_STATUS_STATE, 4)], by decide +kernel⟩⟩

end W12

namespace W13

def up : List (Fld × Nat) := [(F.MEM_STATUS_INIT_DONE, 1), (F.STK_STATUS_TRAINED, 1)]
/-- die 2, address 0x4000840; line 0x100000 + … -/
def ms (l : List (Fld × Nat)) (cells : List (Nat × Nat)) : State :=
  let s := base (up ++ l)
  cells.foldl (fun s c => setCell s (lineAt s 0x4000840) c.1 (BitVec.ofNat 8 c.2)) s
def pz (s : State) : State := setPoison s (lineAt s 0x4000840) true
def bys : List (Nat × Nat) := [(0, 0x11), (1, 0x22), (9, 0xF7), (63, 0x9A)]
def dat : BitVec 512 := BitVec.ofNat 512 (0x0102030405060708F0F1F2F3F4F5F6F7 + 0xAB * 2 ^ 504)

/-- States and operands that meet the hypotheses of each clause of MemoryReadsAndWrites. -/
theorem witness_MemoryReadsAndWrites :
    (∃ (m : BitVec 8) (a : BitVec 48) (t : BitVec 6) (busy : Fin 5) (mrq : Bool) (s : State), ServedAt s m.toNat a.toNat mrq ∧ (poisoned s (lineAt s a.toNat) = false) ∧ (busy.val <
        4)) ∧
    (∃ (m : BitVec 8) (a : BitVec 48) (t : BitVec 6) (e w : BitVec 560) (busy : Fin 5) (mrq : Bool) (s : State), ServedAt s m.toNat a.toNat mrq ∧ (poisoned s (lineAt s a.toNat) =
        false) ∧ (busy.val < 4) ∧ (Corrects (erasedOn s (nearLink s m.toNat a.toNat mrq)) (e.toNat ^^^ w.toNat))) ∧
    (∃ (m : BitVec 8) (a : BitVec 48) (t : BitVec 6) (e w : BitVec 560) (mrq : Bool) (s : State), ServedAt s m.toNat a.toNat mrq ∧ (poisoned s (lineAt s a.toNat) = false) ∧
        (lineDecode (erasedOn s (nearLink s m.toNat a.toNat mrq)) (e.toNat ^^^ w.toNat) = none) ∧ (Corrects [] e.toNat)) ∧
    (∃ (m : BitVec 8) (a : BitVec 48) (t : BitVec 6) (busy : Fin 5) (mrq : Bool) (s : State), ServedAt s m.toNat a.toNat mrq ∧ (poisoned s (lineAt s a.toNat) = true)) ∧
    (∃ (m : BitVec 8) (a : BitVec 48) (t : BitVec 6) (e : BitVec 560) (mrq : Bool) (ws : List (BitVec 560)) (s : State), ServedAt s m.toNat a.toNat mrq ∧ (poisoned s (lineAt s
        a.toNat) = false)) ∧
    (∃ (m : BitVec 8) (a : BitVec 48) (t : BitVec 6) (e w : BitVec 560) (mrq : Bool) (s : State), ServedAt s m.toNat a.toNat mrq ∧ (poisoned s (lineAt s a.toNat) = false) ∧
        PlainLine s a.toNat ∧ (lineDecode (erasedOn s (nearLink s m.toNat a.toNat mrq)) (e.toNat ^^^ w.toNat) = none) ∧ (lineDecode [] e.toNat = none)) ∧
    (∃ (m : BitVec 8) (a : BitVec 48) (t : BitVec 6) (w w1 w2 : BitVec 560) (mrq : Bool) (s : State), ServedAt s m.toNat a.toNat mrq ∧ (poisoned s (lineAt s a.toNat) = false) ∧
        (lineDecode (erasedOn s (nearLink s m.toNat a.toNat mrq)) w.toNat = none) ∧ (lineDecode (erasedOn s (nearLink s m.toNat a.toNat mrq)) w1.toNat = none) ∧ (lineDecode
        (erasedOn s (nearLink s m.toNat a.toNat mrq)) w2.toNat = none)) ∧
    (∃ (m : BitVec 8) (a : BitVec 48) (t : BitVec 6) (e : BitVec 560) (busy : Fin 5) (mrq : Bool) (ws : List (BitVec 560)) (s : State), Quiet s ∧ (mayIssue s m.toNat = true) ∧
        (memRefusalAt s m.toNat (a.toNat / 64 * 64) mrq ≠ 0)) ∧
    (∃ (m : BitVec 8) (a : BitVec 48) (t : BitVec 6) (e : BitVec 560) (busy : Fin 5) (mrq : Bool) (ws : List (BitVec 560)) (s : State), Quiet s ∧ (mayIssue s m.toNat = false)) ∧
    (∃ (m a : Nat) (mrq : Bool) (s : State), (memWay a = none)) ∧
    (∃ (m a : Nat) (mrq : Bool) (s : State), (memWay a ≠ none) ∧ (blkShut s 0x10 = true)) ∧
    (∃ (m a : Nat) (mrq : Bool) (s : State), (memWay a ≠ none) ∧ (blkShut s 0x10 = false) ∧ (∀ d, d < 4 → dieShut s (memPos d) = false) ∧ (pathStatus s m (memByte a) mrq = ST.ok) ∧
        (memEnabled s = false) ∧ (exempt m = false)) ∧
    (∃ (m a : Nat) (mrq : Bool) (s : State), (memWay a ≠ none) ∧ (blkShut s 0x10 = false) ∧ (∀ d, d < 4 → dieShut s (memPos d) = false) ∧ (pathStatus s m (memByte a) mrq = ST.ok) ∧
        (memEnabled s = true) ∧ (bankTested s (dieOfByte (memByte a) - 1) (bankOf s (memByte a)) = false)) ∧
    (∃ (l : Nat) (i : Nat) (s : State), (i < 64)) ∧
    (∃ (r : Nat) (er w out : List Nat) (fixes : List (Nat × Nat)), (RS.decode r er w = some (out, fixes))) ∧
    (∃ (m : BitVec 8) (a : BitVec 48) (t : BitVec 6) (d : BitVec 512) (e : BitVec 560) (busy mrq : Bool) (s : State), ServedAt s m.toNat a.toNat mrq ∧ (a.toNat < 0x0C000000) ∧ (busy
        = false)) ∧
    (∃ (m : BitVec 8) (a : BitVec 48) (t : BitVec 6) (mask : BitVec 64) (d : BitVec 512) (mrq : Bool) (s : State), ServedAt s m.toNat a.toNat mrq ∧ (a.toNat < 0x0C000000) ∧
        (poisoned s (lineAt s a.toNat) = false)) ∧
    (∃ (m : BitVec 8) (a : BitVec 48) (t : BitVec 6) (mask : BitVec 64) (d : BitVec 512) (mrq : Bool) (s : State), (ServedAt s m.toNat (0x004000000000 + a.toNat) mrq) ∧ (a.toNat <
        0x0C000000) ∧ (poisoned s (lineAt s a.toNat) = false)) ∧
    (∃ (m : BitVec 8) (a : BitVec 48) (t : BitVec 6) (mask : BitVec 64) (d : BitVec 512) (mrq : Bool) (s : State), (ServedAt s m.toNat (0x008000000000 + a.toNat) mrq) ∧ (a.toNat <
        0x0C000000) ∧ (poisoned s (lineAt s a.toNat) = false)) ∧
    (∃ (m : BitVec 8) (a : BitVec 48) (t : BitVec 6) (mask : BitVec 64) (d : BitVec 512) (e : BitVec 560) (mrq : Bool) (s : State), ServedAt s m.toNat a.toNat mrq ∧ (a.toNat <
        0x0C000000) ∧ (poisoned s (lineAt s a.toNat) = false) ∧ (mask ≠ BitVec.allOnes 64) ∧ (Corrects [] e.toNat)) ∧
    (∃ (m : BitVec 8) (a : BitVec 48) (t : BitVec 6) (mask : BitVec 64) (d : BitVec 512) (e : BitVec 560) (busy mrq : Bool) (s : State), ServedAt s m.toNat a.toNat mrq ∧ (poisoned s
        (lineAt s a.toNat) = false) ∧ PlainLine s a.toNat ∧ (mask ≠ BitVec.allOnes 64) ∧ (lineDecode [] e.toNat = none)) ∧
    (∃ (m : BitVec 8) (a : BitVec 48) (t : BitVec 6) (mask : BitVec 64) (d : BitVec 512) (e : BitVec 560) (ws : List (BitVec 560)) (busy mrq : Bool) (s : State), ServedAt s m.toNat
        a.toNat mrq ∧ (poisoned s (lineAt s a.toNat) = true) ∧ (mask ≠ BitVec.allOnes 64)) ∧
    (∃ (m : BitVec 8) (a : BitVec 48) (t : BitVec 6) (mask : BitVec 64) (d : BitVec 512) (e w w1 w2 : BitVec 560) (busy mrq : Bool) (s : State), ServedAt s m.toNat a.toNat mrq ∧
        (poisoned s (lineAt s a.toNat) = false ∨ (mask = BitVec.allOnes 64 ∧ a.toNat < 0x0C000000)) ∧ (lineDecode (erasedOn s (farLink s m.toNat a.toNat mrq)) w.toNat = none) ∧
        (lineDecode (erasedOn s (farLink s m.toNat a.toNat mrq)) w1.toNat = none) ∧ (lineDecode (erasedOn s (farLink s m.toNat a.toNat mrq)) w2.toNat = none)) ∧
    (∃ (m : BitVec 8) (a : BitVec 48) (t : BitVec 6) (d : BitVec 512) (e w : BitVec 560) (mrq : Bool) (s : State), ServedAt s m.toNat a.toNat mrq ∧ (a.toNat < 0x0C000000) ∧
        (Corrects (erasedOn s (farLink s m.toNat a.toNat mrq)) w.toNat)) ∧
    (∃ (m : BitVec 8) (a : BitVec 48) (t : BitVec 6) (d : BitVec 512) (e : BitVec 560) (mrq : Bool) (s : State), ServedAt s m.toNat a.toNat mrq ∧ (a.toNat < 0x0C000000)) ∧
    (∃ (m : BitVec 8) (a : BitVec 48) (t : BitVec 6) (mask : BitVec 64) (d : BitVec 512) (e : BitVec 560) (ws : List (BitVec 560)) (busy mrq : Bool) (s : State), Quiet s ∧ (mayIssue
        s m.toNat = true) ∧ (memRefusalAt s m.toNat (a.toNat / 64 * 64) mrq ≠ 0)) ∧
    (∃ (m : BitVec 8) (a : BitVec 48) (t : BitVec 6) (mask : BitVec 64) (d : BitVec 512) (e : BitVec 560) (ws : List (BitVec 560)) (busy mrq : Bool) (s : State), Quiet s ∧ (mayIssue
        s m.toNat = false)) :=
  ⟨⟨0xC0, 0x4000840, 17, 3, true, ms [] bys, by decide +kernel⟩,
   ⟨0xC0, 0x4000840, 17, 1, 0, 2, true, ms [] bys, by decide +kernel⟩,
   ⟨0xC0, 0x4000840, 17, 0x11, 0x2200330000, true, ms [] bys, by decide +kernel⟩,
   ⟨0xC0, 0x4000840, 17, 2, true, pz (ms [] bys), by decide +kernel⟩,
   ⟨0xC0, 0x4000840, 17, 1, true, [7], ms [] bys, by decide +kernel⟩,
   ⟨0xC0, 0x4000840, 17, 0x1122330000, 0, true, ms [] bys, by decide +kernel⟩,
   ⟨0xC0, 0x4000840, 17, 0x1122330000, 0x778899, 0x1100220033, true, ms [] bys, by decide +kernel⟩,
   ⟨0xC0, 0x4000840, 17, 7, 0, true, [7], ms [(F.MEM_GRPn_CFG_MODE 8, 2)] bys, by decide +kernel⟩,
   ⟨0xC0, 0x4000840, 17, 4, 0, true, [7], ms [(F.MEM_STATUS_INIT_DONE, 0)] bys, by decide +kernel⟩,
   ⟨0xC0, 0xD000000, true, ms [] [], by decide +kernel⟩,
   ⟨0xC0, 0x4000840, true, let s := ms [] []; { s with rst := { s.rst with blkOn := [0x10] } }, by decide +kernel⟩,
   ⟨0xC0, 0x4000840, true, ms [(F.MEM_CTRL_ENABLE, 0)] [], by decide +kernel⟩,
   ⟨0xC0, 0x4000840, true, ms [(F.MEM_GRPn_CFG_MODE 8, 1), (F.MEM_GRPn_OWNER_OWNERi 8 0, 0xC1)] [], by decide +kernel⟩,
   ⟨0x100009, 1, let s := ms [] bys; s, by decide +kernel⟩,
   ⟨5, [], (List.range 70).map (fun i => if i = 3 then 7 else if i = 40 then 9 else 0), List.replicate 70 0, [(3, 7), (40, 9)], by decide +kernel⟩,
   ⟨0xC0, 0x4000840, 17, dat, 2, false, true, pz (ms [] bys), by decide +kernel⟩,
   ⟨0xC0, 0x4000840, 17, 0x8000000000000203, dat, true, ms [] bys, by decide +kernel⟩,
   ⟨0xC0, 0x4000840, 17, 0x8000000000000203, dat, true, ms [] bys, by decide +kernel⟩,
   ⟨0xC0, 0x4000840, 17, 0x8000000000000203, dat, true, ms [] bys, by decide +kernel⟩,
   ⟨0xC0, 0x4000840, 17, 0x8000000000000203, dat, 0x41, true, ms [] bys, by decide +kernel⟩,
   ⟨0xC0, 0x4000840, 17, 0x8000000000000203, dat, 0x1122330000, false, true, ms [] bys, by decide +kernel⟩,
   ⟨0xC0, 0x4000840, 17, 0x8000000000000203, dat, 1, [3], false, true, pz (ms [] bys), by decide +kernel⟩,
   ⟨0xC0, 0x4000840, 17, 0x8000000000000203, dat, 1, 0x1122330000, 0x778899, 0x1100220033, false, true, ms [] bys, by decide +kernel⟩,
   ⟨0xC0, 0x4000840, 17, dat, 2, 0x500, true, pz (ms [] bys), by decide +kernel⟩,
   ⟨0xC0, 0x4000840, 17, dat, 2, true, pz (ms [] bys), by decide +kernel⟩,
   ⟨0xC0, 0x4000840, 17, 1, dat, 2, [], true, true, ms [(F.MEM_GRPn_CFG_MODE 8, 2)] bys, by decide +kernel⟩,
   ⟨0xC0, 0x4000840, 17, 1, dat, 2, [], true, true, ms [(F.STK_STATUS_TRAINED, 0)] bys, by decide +kernel⟩⟩

/-- States and operands that meet the hypotheses of each clause of PatrolModesAndOwners. -/
theorem witness_PatrolModesAndOwners :
    (∃ (d : Fin 3) (secs : BitVec 32) (s : State), Quiet s ∧ (sysClocks s = true) ∧ (flag s F.MEM_PATROL_ENABLE = true) ∧ (dieInReset s (memPos (d + 1)) = false) ∧ (fld s
        (F.MEM_Md_PATROL_LINE (d + 1)) ≠ 2 ^ 20 - 1)) ∧
    (∃ (d : Fin 3) (secs : BitVec 32) (s : State), Quiet s ∧ (sysClocks s = true) ∧ (flag s F.MEM_PATROL_ENABLE = true) ∧ (dieInReset s (memPos (d + 1)) = false) ∧ (fld s
        (F.MEM_Md_PATROL_LINE (d + 1)) = 2 ^ 20 - 1)) ∧
    (∃ (d : Fin 3) (e : BitVec 560) (secs : BitVec 32) (s : State), Quiet s ∧ (sysClocks s = true) ∧ (flag s F.MEM_PATROL_ENABLE = true) ∧ (dieInReset s (memPos (d + 1)) = false) ∧
        (fld s (F.MEM_Md_PATROL_LINE (d + 1)) ≠ 2 ^ 20 - 1) ∧ (poisoned s (lineAt s (d * 0x04000000 + 64 * fld s (F.MEM_Md_PATROL_LINE (d + 1)))) = false) ∧ (Corrects [] e.toNat)) ∧
    (∃ (d : Fin 3) (e : BitVec 560) (secs : BitVec 32) (s : State), Quiet s ∧ (sysClocks s = true) ∧ (flag s F.MEM_PATROL_ENABLE = true) ∧ (dieInReset s (memPos (d + 1)) = false) ∧
        (fld s (F.MEM_Md_PATROL_LINE (d + 1)) ≠ 2 ^ 20 - 1) ∧ (lineDecode [] e.toNat = none) ∧ (poisoned s (lineAt s (d * 0x04000000 + 64 * fld s (F.MEM_Md_PATROL_LINE (d + 1)))) =
        false) ∧ (PlainLine s (d * 0x04000000 + 64 * fld s (F.MEM_Md_PATROL_LINE (d + 1))))) ∧
    (∃ (d : Fin 3) (k : BitVec 560) (secs : BitVec 32) (s : State), Quiet s ∧ (flag s F.MEM_PATROL_ENABLE = false)) ∧
    (∃ (l : Nat) (rest : List Nat) (e : BitVec 560) (s : State), Quiet s ∧ (sysClocks s = true) ∧ (s.mem.reread = l :: rest)) ∧
    (∃ (k : BitVec 560) (s : State), Quiet s ∧ (s.mem.reread = [])) ∧
    (∃ (n : Fin 24) (mode : BitVec 2) (s : State), Quiet s ∧ (mode.toNat < 3) ∧ (groupHasTt s n = true → mode = 1) ∧ (flag s F.SCH_CTRL_ENABLE = true → (mode = 2 ↔ groupMode s n =
        2)) ∧ ((cacheGroups s).length < 12)) ∧
    (∃ (n : Fin 24) (mode : BitVec 2) (s : State), Quiet s ∧ (mode ≠ 3) ∧ ((groupHasTt s n = true ∧ mode ≠ 1) ∨ (flag s F.SCH_CTRL_ENABLE = true ∧ (mode = 2 ↔ groupMode s n ≠ 2) ) ∨
        (mode = 2 ∧ groupMode s n ≠ 2 ∧ 12 ≤ (cacheGroups s).length))) ∧
    (∃ (n : Fin 24) (s : State), Quiet s) ∧
    (∃ (n : Fin 24) (upper : Bool) (v : Word) (s : State), Quiet s) ∧
    (∃ (s : State), Quiet s ∧ (flag s F.MEM_CTRL_ENABLE = true)) ∧
    (∃ (s : State), Quiet s ∧ (flag s F.MEM_CTRL_ENABLE = false)) ∧
    (∃ (s : State), Quiet s) ∧
    (∃ (s : State), Quiet s ∧ (s.bst.startup.any (· < 3) = false)) ∧
    (∃ (s : State), Quiet s ∧ (s.bst.startup.any (· < 3) = true)) :=
  ⟨⟨1, 7, ms [(F.MEM_PATROL_ENABLE, 1), (F.MEM_Md_PATROL_LINE 2, 33)] bys, by decide +kernel⟩,
   ⟨1, 86401, ms [(F.MEM_PATROL_ENABLE, 1), (F.MEM_Md_PATROL_LINE 2, 2 ^ 20 - 1)] bys, by decide +kernel⟩,
   ⟨1, 0x41, 7, ms [(F.MEM_PATROL_ENABLE, 1), (F.MEM_Md_PATROL_LINE 2, 33)] bys, by decide +kernel⟩,
   ⟨1, 0x1122330000, 7, ms [(F.MEM_PATROL_ENABLE, 1), (F.MEM_Md_PATROL_LINE 2, 33)] bys, by decide +kernel⟩,
   ⟨1, 1, 7, ms [(F.MEM_PATROL_ENABLE, 0), (F.MEM_Md_PATROL_LINE 2, 33)] bys, by decide +kernel⟩,
   ⟨1000000, [5], 0x41, let s := ms [] bys; { s with mem := { s.mem with reread := [1000000, 5] } }, by decide +kernel⟩,
   ⟨1, ms [] bys, by decide +kernel⟩,
   ⟨8, 2, ms [] bys, by decide +kernel⟩,
   ⟨7, 0, ms [(F.TT_STATUS_RESERVED, 1)] bys, by decide +kernel⟩,
   ⟨9, ms [] bys, by decide +kernel⟩,
   ⟨9, true, 0xB0FFC605, ms [] bys, by decide +kernel⟩,
   ⟨ms [] bys, by decide +kernel⟩,
   ⟨ms [(F.MEM_CTRL_ENABLE, 0)] bys, by decide +kernel⟩,
   ⟨ms [(F.MEM_PATROL_ENABLE, 1)] bys, by decide +kernel⟩,
   ⟨ms [(F.MEM_STATUS_INIT_DONE, 0)] [], by decide +kernel⟩,
   ⟨let s := ms [] []; { s with bst := { s.bst with startup := [2, 4] } }, by decide +kernel⟩⟩

end W13

namespace W14

def hw (l : List (Fld × Nat)) (h : HostWin) : State :=
  setHwn (base ([(F.HWN_CTRL_ENABLE, 1), (F.SCH_CTRL_ENABLE, 1), (F.SCH_STATUS_GROUPS, 1), (F.MEM_GRPn_CFG_MODE 12, 2), (F.HWN_STATUS_BME, 1), (F.ENC_CTRL_ENABLE, 1)] ++ l)) h
def e1 : Nat := 1 + 7 * 2 ^ 21 + 9 * 2 ^ 83
def se : Nat := 3 + 7 * 2 ^ 21 + 9 * 2 ^ 83
/-- page 1 clear and the device's, page 2 sealed, page 3 clear and the host's -/
def hp : HostWin := { map := [(1, e1), (2, se), (3, e1)], owner := [(1, 1)] }
def mp (e : Nat) : List (Fld × Nat) := [(F.HWN_MAP_DATA_ENTRY, e)]
def wy (l : List (Nat × Way)) (s : State) : State := setCache s { s.cache with ways := l }
def line1 : Nat := 32769
def line2 : Nat := 65537
--slow chk Obligations.PagesAndOwnership 6 [2] (hw [] { hp with init := [1, 2] }) [0x12]
def rq : WinReq := ⟨2, false, 1, 0x40, 0x100000200044, 0, 4, true, 3, 0⟩
def wq : WinReq := ⟨2, true, 1, 0x40, 0x100000200044, 0, 2, true, 3, 0xBEEF⟩
def eng (q : WinReq) (s : State) : State := setEngine (setFld (setFld s (F.ENG_n_CTRL_ENABLE 37) 1) (F.ENG_n_CTRL_START 37) 15) 37 { threads := [(2, { pc := 0x104, g := [(3, 8)], blk := .load })], win := [q] }
def hit (o : Nat) (q : WinReq) : State := setOwner (setSlotData (eng q (wy [(17, ⟨line2, 5, 0⟩), (18, ⟨line1, 0, 0⟩)] (hw [] hp))) 18 0x1122334455667788F0A0B0C0D0) 18 o
def miss (q : WinReq) : State := eng q (wy [(17, ⟨line2, 5, 0⟩)] (hw [] hp))
def full (q : WinReq) : State := setSlotData (setOwner (eng q (wy ((List.range 16).map fun i => (16 + i, ⟨32769 + 8192 * (i + 1), 0, 0⟩)) (hw [] hp))) 16 3) 16 0x998877
def st (s : State) (l : List (Fld × Nat)) : State := l.foldl (fun s e => setFld s e.1 e.2) s
def fl (l : Nat) (w : Nat) (a : List WinAcc) (q : WinReq) : State := let s := miss q; setCache s { s.cache with fills := [⟨77, 999, []⟩, ⟨l, w, a⟩] }
def ra (q : WinReq) : WinAcc := ⟨.engine 37 q, line1, q.addr % 64, q.width, false, false, 2 ^ q.width - 1, q.data⟩
def dd : BitVec 512 := BitVec.ofNat 512 0x1122334455667788F0A0B0C0D0
def rk (b : Nat) : State := let s := st (hit 0xB rq) [(F.ENC_BOUND_BOUND, b), (F.ENC_STATUS_REKEYING, 1), (F.ENC_REKEY_GO, 1)]; setSeal s { s.enc with next := 55, usedNext := [(2, 1)], used := [(2, 1), (9, 1)] }
def dsc (op len host dev fl : Nat) : Nat := fl + op * 2 ^ 8 + len * 2 ^ 32 + host * 2 ^ 64 + dev * 2 ^ 128 + 0xC00C1E * 2 ^ 224
def rg (d : List Desc) (l : List (Fld × Nat)) : State := st (hw ([(F.HWN_RINGk_CTRL_ENABLE 5, 1), (F.HWN_RINGk_TAIL_TAIL 5, 9), (F.HWN_RINGk_HEAD_HEAD 5, 7), (F.HWN_RINGk_BASE_BASE 5, 0x1234), (F.HWN_RINGk_VEC_VEC 5, 77), (F.HWN_RINGk_STATUS_INFLIGHT 5, d.length)] ++ l) { hp with rings := [(5, d)] }) []
def d0 (op len host dev : Nat) : Desc := ⟨6, dsc op len host dev 3, true, 16, none⟩
def dx : Desc := ⟨5, dsc 2 64 0x9000 0x4000000 1, false, 0, none⟩

/-- States and operands that meet the hypotheses of each clause of PagesAndOwnership. -/
theorem witness_PagesAndOwnership :
    (∃ (p : Fin 32768) (s : State), Quiet s) ∧
    (∃ (p : Fin 32768) (e : Nat) (s : State), Quiet s ∧ (hwnOn s = true) ∧ (entryBits (fld s F.HWN_MAP_DATA_ENTRY) = e) ∧ ((bitOf e 0 && bitOf e 1) = false) ∧ (pageSealed s p =
        false) ∧ (pageValid s p = true → pageOwner s p = 0)) ∧
    (∃ (p : Fin 32768) (e : Nat) (s : State), Quiet s ∧ (hwnOn s = true) ∧ (entryBits (fld s F.HWN_MAP_DATA_ENTRY) = e) ∧ (bitOf e 0 = true) ∧ (bitOf e 1 = true) ∧ (pageSealed s p =
        false) ∧ (pageValid s p = true → pageOwner s p = 0) ∧ (smGet s.enc.used p 0 ≠ 1) ∧ (rekeying s = false) ∧ (encOn s = true)) ∧
    (∃ (p : Fin 32768) (s : State), Quiet s ∧ (hwnOn s = true) ∧ ((bitOf (fld s F.HWN_MAP_DATA_ENTRY) 0 && bitOf (fld s F.HWN_MAP_DATA_ENTRY) 1) = false) ∧ (pageSealed s p = true) ∧
        (∀ f ∈ s.cache.fills, f.line / 32768 ≠ p.val)) ∧
    (∃ (p : Fin 32768) (n : Fin 5) (s : State), Quiet s ∧ (hwnOn s = true) ∧ (n ≠ 0) ∧ (n.val = (if pageValid s p = true ∧ pageSealed s p = false ∧ pageOwner s p ≠ 0 then 1 else if
        bitOf (fld s F.HWN_MAP_DATA_ENTRY) 0 = false ∨ bitOf (fld s F.HWN_MAP_DATA_ENTRY) 1 = false then 0 else if smGet s.enc.used p 0 = 1 then 2 else if rekeying s = true then 3
        else if encOn s = false then 4 else 0))) ∧
    (∃ (p q : Fin 32768) (s : State), Quiet s ∧ (hwnOn s = false)) ∧
    (∃ (p : Fin 32768) (s : State), Quiet s ∧ (p.val ∈ s.hwn.init) ∧ (bme s = true) ∧ (s.cache.zero = none)) ∧
    (∃ (p : Fin 32768) (s : State), Quiet s ∧ (p.val ∉ s.hwn.init ∨ bme s = false)) ∧
    (∃ (p q : Fin 32768) (s : State), Quiet s ∧ (hwnOn s = true) ∧ (pagesHave s p q 0 = true)) ∧
    (∃ (p q i : Fin 32768) (s : State), Quiet s ∧ (hwnOn s = true) ∧ (i ≤ q) ∧ (p.val + q.val ≥ 32768 ∨ pageValid s (p + i.val) = false ∨ pageSealed s (p + i.val) = true ∨ pageOwner
        s (p + i.val) = 2)) ∧
    (∃ (p q : Fin 32768) (s : State), Quiet s ∧ (hwnOn s = true) ∧ (pagesHave s p q 1 = true)) ∧
    (∃ (p q : Nat) (r : List Reclaim) (s : State), Quiet s ∧ (bme s = true) ∧ (s.hwn.reclaims = ⟨p, q, none⟩ :: r) ∧ WaysApart s ∧ (∀ f ∈ s.cache.fills, f.line / 32768 < p ∨ p + q <
        f.line / 32768)) ∧
    (∃ (s : State), Quiet s ∧ (s.hwn.reclaims = [] ∨ bme s = false)) :=
  ⟨⟨2, hw [] { hp with init := [2] }, by decide +kernel⟩,
   ⟨3, e1 + 2 ^ 30, hw (mp (e1 + 2 ^ 30 + 12)) hp, by decide +kernel⟩,
   ⟨3, se + 2 ^ 30, hw (mp (se + 2 ^ 30 + 12)) hp, by decide +kernel⟩,
   ⟨2, setOwner (wy [(17, ⟨line2, 5, 0⟩), (18, ⟨line1, 0, 0⟩)] (hw (mp 0) hp)) 17 7, by decide +kernel⟩,
   ⟨1, 1, hw (mp e1) hp, by decide +kernel⟩,
   ⟨3, 4, hw ([(F.HWN_CTRL_ENABLE, 0)] ++ mp se) hp, by decide +kernel⟩,
   ⟨2, hw [] { hp with init := [1, 2] }, by decide +kernel⟩,
   ⟨3, hw [] { hp with init := [1, 2] }, by decide +kernel⟩,
   ⟨3, 0, hw [] hp, by decide +kernel⟩,
   ⟨1, 2, 1, hw [] hp, by decide +kernel⟩,
   ⟨1, 0, hw [] hp, by decide +kernel⟩,
   ⟨1, 0, [], setOwner (setSlotData (setOwner (wy [(17, ⟨line2, 5, 0⟩), (18, ⟨line1, 0, 0⟩)] (hw [] { hp with owner := [(1, 2)], reclaims := [⟨1, 0, none⟩] })) 18 3) 18
        0x1234567890) 17 7, by decide +kernel⟩,
   ⟨hw [] { hp with owner := [(1, 2)] }, by decide +kernel⟩⟩

/-- States and operands that meet the hypotheses of each clause of StackCacheServesAndStops. -/
theorem witness_StackCacheServesAndStops :
    (∃ (n : Fin 96) (k : Fin 16) (q : WinReq) (l w : Nat) (s : State), AtCache s n k q l ∧ Calm s n q.thread ∧ (q.store = false) ∧ (q.width < 8) ∧ (q.thread < 4) ∧ Holds s l w ∧
        (ownerBit s w oEXHAUSTED = false) ∧ (ownerBit s w oTAGFAIL = false) ∧ (slotPoison s w = false)) ∧
    (∃ (n : Fin 96) (k : Fin 16) (q : WinReq) (l w : Nat) (s : State), AtCache s n k q l ∧ (q.store = true) ∧ (q.addr % 64 + q.width ≤ 64) ∧ ((thread s n q.thread).blk ≠ Blk.fence)
        ∧ Holds s l w ∧ (ownerBit s w oEXHAUSTED = false) ∧ (ownerBit s w oTAGFAIL = false) ∧ (slotPoison s w = false)) ∧
    (∃ (n : Fin 96) (k : Fin 16) (q : WinReq) (l w : Nat) (s : State), AtCache s n k q l ∧ Calm s n q.thread ∧ (q.store = false) ∧ (q.width < 8) ∧ (q.thread < 4) ∧ Holds s l w ∧
        (ownerBit s w oEXHAUSTED = true ∨ ownerBit s w oTAGFAIL = true ∨ slotPoison s w = true)) ∧
    (∃ (n : Fin 96) (k : Fin 16) (q : WinReq) (l w : Nat) (s : State), AtCache s n k q l ∧ (q.store = true) ∧ ((thread s n q.thread).blk ≠ Blk.fence) ∧ Holds s l w ∧ (ownerBit s w
        oEXHAUSTED = true)) ∧
    (∃ (n : Fin 96) (k : Fin 16) (q : WinReq) (l w : Nat) (s : State), AtCache s n k q l ∧ (wayOf s l = none) ∧ (bme s = true) ∧ (s.cache.fills.length < 256) ∧ (chooseSlot s (l %
        cacheSets s) = some w) ∧ (wayValid s w = false)) ∧
    (∃ (n : Fin 96) (k : Fin 16) (q : WinReq) (l w : Nat) (s : State), AtCache s n k q l ∧ (wayOf s l = none) ∧ (bme s = true) ∧ (s.cache.fills.length < 256) ∧ (chooseSlot s (l %
        cacheSets s) = some w) ∧ (wayValid s w = true) ∧ (ownerBit s w oDIRTY = true) ∧ (slotPoison s w = false) ∧ (ownerBit s w oSEALED = false)) ∧
    (∃ (n : Fin 96) (k : Fin 16) (q : WinReq) (st : Nat) (s : State), Calm s n q.thread ∧ (hostReq s n k false = some q) ∧ (q.width < 8) ∧ (q.thread < 4) ∧ (q.store = false) ∧ (st ≠
        0) ∧ (blkShut s 0x11 = false) ∧ (blkShut s 0x12 = false) ∧ (blkShut s 0x13 = false) ∧ (st = (if hostInReset s then ST.reset else if schOn s = false ∨ (pageSealed s ((q.addr
        - 0x100000000000) / 2097152) = true ∧ encOn s = false) then ST.disabled else if pageValid s ((q.addr - 0x100000000000) / 2097152) = false then ST.decode else if pageSealed
        s ((q.addr - 0x100000000000) / 2097152) = false ∧ pageOwner s ((q.addr - 0x100000000000) / 2097152) ≠ 1 then ST.denied else 0))) ∧
    (∃ (n : Fin 96) (k : Fin 16) (ecc : Fin 4) (s : State), Quiet s ∧ ((engine s n).win[k.val]? = none)) ∧
    (∃ (k : Fin 256) (d : BitVec 512) (ctr tag : BitVec 64) (n : Nat) (q : WinReq) (l w : Nat) (s : State), Calm s n q.thread ∧ (s.cache.fills[k.val]? = some ⟨l, w, [⟨.engine n q,
        l, q.addr % 64, q.width, false, false, 2 ^ q.width - 1, q.data⟩]⟩) ∧ (q ∈ (engine s n).win) ∧ (q.store = false) ∧ (q.width < 8) ∧ (q.thread < 4) ∧ (q.addr % 64 + q.width ≤
        64) ∧ (pageSealed s (l / 32768) = false) ∧ (wayOf s l = none) ∧ (wayValid s w = false)) ∧
    (∃ (k : Fin 256) (d : BitVec 512) (ctr tag : BitVec 64) (l w : Nat) (s : State), Quiet s ∧ (s.cache.fills[k.val]? = some ⟨l, w, []⟩) ∧ (∀ f ∈ s.cache.fills.take k.val, f ≠ ⟨l,
        w, []⟩) ∧ (pageSealed s (l / 32768) = true) ∧ (wayOf s l = none) ∧ (wayValid s w = false) ∧ (sealTag (keyOf s l) l ctr.toNat d.toNat = tag.toNat)) ∧
    (∃ (k : Fin 256) (d : BitVec 512) (ctr tag : BitVec 64) (l w : Nat) (s : State), Quiet s ∧ (s.cache.fills[k.val]? = some ⟨l, w, []⟩) ∧ (∀ f ∈ s.cache.fills.take k.val, f ≠ ⟨l,
        w, []⟩) ∧ (pageSealed s (l / 32768) = true) ∧ (wayOf s l = none) ∧ (wayValid s w = false) ∧ (sealTag (keyOf s l) l ctr.toNat d.toNat ≠ tag.toNat)) ∧
    (∃ (k : Fin 256) (d : BitVec 512) (ctr tag : BitVec 64) (n : Nat) (q : WinReq) (l w : Nat) (s : State), Calm s n q.thread ∧ (s.cache.fills[k.val]? = some ⟨l, w, [⟨.engine n q,
        l, q.addr % 64, q.width, false, false, 2 ^ q.width - 1, q.data⟩]⟩) ∧ (q ∈ (engine s n).win) ∧ (q.store = false) ∧ (q.width < 8) ∧ (q.thread < 4)) ∧
    (∃ (k : Fin 256) (d : BitVec 512) (ctr tag : BitVec 64) (b : Bool) (s : State), Quiet s ∧ (s.cache.fills[k.val]? = none)) ∧
    (∃ (n : Fin 96) (k : Fin 16) (q : WinReq) (l w : Nat) (s : State), AtCache s n k q l ∧ Calm s n q.thread ∧ (q.store = false) ∧ (q.width < 8) ∧ (q.thread < 4) ∧ Holds s l w ∧
        (ownerBit s w oEXHAUSTED = false) ∧ (ownerBit s w oTAGFAIL = false) ∧ (slotPoison s w = false)) ∧
    (∃ (n : Fin 96) (k : Fin 16) (q : WinReq) (l : Nat) (s : State), Calm s n q.thread ∧ (hostReq s n k false = some q) ∧ ((q.addr - 0x100000000000) / 64 = l) ∧ (q.store = false) ∧
        (q.width < 8) ∧ (q.thread < 4) ∧ (winStatus s l = 0) ∧ (l / 32768 ∉ s.hwn.init) ∧ (∀ f ∈ s.cache.fills, f.line ≠ l) ∧ (dieShut s (memPos (setDie s l)) = true)) ∧
    (∃ (s : State), Quiet s ∧ (flag s F.SCH_CTRL_ENABLE = false) ∧ (cacheGroups s = [])) ∧
    (∃ (s : State), Quiet s ∧ (flag s F.SCH_CTRL_ENABLE = false) ∧ (cacheGroups s ≠ [])) ∧
    (∃ (s : State), Quiet s ∧ (flag s F.SCH_CTRL_ENABLE = true)) ∧
    (∃ (s : State), Quiet s ∧ (flag s F.SCH_CTRL_ENABLE = true) ∧ (bme s = true) ∧ WaysApart s ∧ (s.cache.fills = []) ∧ (s.hwn.reclaims = [])) ∧
    (∃ (s : State), Quiet s ∧ (flag s F.SCH_CTRL_ENABLE = true) ∧ (bme s = false) ∧ (s.cache.ways ≠ [])) ∧
    (∃ (s : State), Quiet s ∧ (flag s F.SCH_CTRL_ENABLE = false)) ∧
    (∃ (h : BitVec 16) (a w : Nat) (s : State), Quiet s ∧ (fld s F.SCH_ZERO_LINE % 2 ^ 26 * 64 + h.toNat * 2 ^ 32 = a) ∧ (devIsHost a = true) ∧ (winStatus s ((a - 0x100000000000) /
        64) = 0) ∧ ((a - 0x100000000000) / 64 / 32768 ∉ s.hwn.init) ∧ (∀ f ∈ s.cache.fills, f.line ≠ (a - 0x100000000000) / 64) ∧ (Holds s ((a - 0x100000000000) / 64) w) ∧
        (ownerBit s w oEXHAUSTED = false)) ∧
    (∃ (h : BitVec 16) (s : State), Quiet s ∧ (devIsHost (fld s F.SCH_ZERO_LINE % 2 ^ 26 * 64 + h.toNat * 2 ^ 32) = false)) ∧
    (∃ (s : State), Quiet s ∧ (rekeying s = false)) ∧
    (∃ (s : State), Quiet s ∧ (rekeying s = true)) ∧
    (∃ (d : BitVec 512) (ctr tag : BitVec 64) (ok : Bool) (l : Nat) (s : State), Quiet s ∧ (rekeying s = true) ∧ (bme s = true) ∧ (fld s F.ENC_BOUND_BOUND = l) ∧ (pageSealed s (l /
        32768) = false) ∧ (l / 32768 + 1 < 32768)) ∧
    (∃ (d : BitVec 512) (ctr tag : BitVec 64) (ok : Bool) (l : Nat) (s : State), Quiet s ∧ (rekeying s = true) ∧ (bme s = true) ∧ (fld s F.ENC_BOUND_BOUND = l) ∧ (pageSealed s (l /
        32768) = false) ∧ (l / 32768 = 32767)) ∧
    (∃ (d : BitVec 512) (ctr tag : BitVec 64) (l : Nat) (s : State), Quiet s ∧ (rekeying s = true) ∧ (bme s = true) ∧ (fld s F.ENC_BOUND_BOUND = l) ∧ (l + 1 < 2 ^ 30) ∧ (pageSealed
        s (l / 32768) = true) ∧ (l / 32768 ∉ s.hwn.init) ∧ (wayOf s l = none) ∧ (sealTag s.enc.cur l ctr.toNat d.toNat = tag.toNat)) ∧
    (∃ (d : BitVec 512) (ctr tag : BitVec 64) (l : Nat) (s : State), Quiet s ∧ (rekeying s = true) ∧ (bme s = true) ∧ (fld s F.ENC_BOUND_BOUND = l) ∧ (l + 1 < 2 ^ 30) ∧ (pageSealed
        s (l / 32768) = true) ∧ (l / 32768 ∉ s.hwn.init) ∧ (wayOf s l = none) ∧ (sealTag s.enc.cur l ctr.toNat d.toNat ≠ tag.toNat)) ∧
    (∃ (d : BitVec 512) (ctr tag : BitVec 64) (ok : Bool) (s : State), Quiet s ∧ (rekeying s = false ∨ bme s = false)) ∧
    (∃ (s : State), Quiet s ∧ (flag s F.ENC_CTRL_ENABLE = true)) ∧
    (∃ (s : State), Quiet s ∧ (flag s F.ENC_CTRL_ENABLE = false)) :=
  ⟨⟨37, 0, rq, line1, 18, hit 1 rq, by decide +kernel⟩,
   ⟨37, 0, wq, line1, 18, hit 1 wq, by decide +kernel⟩,
   ⟨37, 0, rq, line1, 18, setPoison (hit 9 rq) (slotLine (hit 1 rq) 18) true, by decide +kernel⟩,
   ⟨37, 0, wq, line1, 18, hit 0x15 wq, by decide +kernel⟩,
   ⟨37, 0, rq, line1, 16, miss rq, by decide +kernel⟩,
   ⟨37, 0, rq, line1, 16, full rq, by decide +kernel⟩,
   ⟨37, 0, rq, 4, let s := miss rq; { s with pci := { s.pci with perst := true } }, by decide +kernel⟩,
   ⟨37, 1, 2, miss rq, by decide +kernel⟩,
   ⟨1, dd, 4, 5, 37, rq, line1, 19, fl line1 19 [ra rq] rq, by decide +kernel⟩,
   ⟨1, dd, 4, BitVec.ofNat 64 (sealTag 0 (line2 + 1) 4 dd.toNat), line2 + 1, 19, fl (line2 + 1) 19 [] rq, by decide +kernel⟩,
   ⟨1, dd, 4, 55, line2 + 1, 19, fl (line2 + 1) 19 [] rq, by decide +kernel⟩,
   ⟨1, dd, 4, 5, 37, rq, line1, 19, fl line1 19 [ra rq] rq, by decide +kernel⟩,
   ⟨2, dd, 4, 5, true, fl line1 19 [ra rq] rq, by decide +kernel⟩,
   ⟨37, 0, rq, line1, 18, hit 1 rq, by decide +kernel⟩,
   ⟨37, 0, rq, line1, let s := hit 1 rq; { s with rst := { s.rst with dieWait := [memPos (setDie s line1)] } }, by decide +kernel⟩,
   ⟨st (hw [] hp) [(F.SCH_CTRL_ENABLE, 0), (F.MEM_GRPn_CFG_MODE 12, 0)], by decide +kernel⟩,
   ⟨st (full rq) [(F.SCH_CTRL_ENABLE, 0), (F.MEM_GRPn_CFG_MODE 13, 2)], by decide +kernel⟩,
   ⟨st (full rq) [], by decide +kernel⟩,
   ⟨st (full rq) [], by decide +kernel⟩,
   ⟨st (full rq) [(F.HWN_STATUS_BME, 0)], by decide +kernel⟩,
   ⟨st (full rq) [(F.SCH_CTRL_ENABLE, 0)], by decide +kernel⟩,
   ⟨0x1000, 0x100000200040, 18, setPoison (st (hit 0xB rq) [(F.SCH_ZERO_LINE, 0x200040 / 64)]) (slotLine (hit 0xB rq) 18) true, by decide +kernel⟩,
   ⟨0x1020, st (hit 0xB rq) [(F.SCH_ZERO_LINE, 0x200040 / 64)], by decide +kernel⟩,
   ⟨st (hit 0xB rq) [(F.ENC_BOUND_BOUND, 7)], by decide +kernel⟩,
   ⟨st (hit 0xB rq) [(F.ENC_BOUND_BOUND, 7), (F.ENC_STATUS_REKEYING, 1)], by decide +kernel⟩,
   ⟨dd, 4, 5, true, 100, rk 100, by decide +kernel⟩,
   ⟨dd, 4, 5, true, 2 ^ 30 - 5, rk (2 ^ 30 - 5), by decide +kernel⟩,
   ⟨dd, 4, BitVec.ofNat 64 (sealTag 0 (line2 + 1) 4 dd.toNat), line2 + 1, rk (line2 + 1), by decide +kernel⟩,
   ⟨dd, 4, 77, line2 + 1, rk (line2 + 1), by decide +kernel⟩,
   ⟨dd, 4, 77, true, hit 3 rq, by decide +kernel⟩,
   ⟨hit 3 rq, by decide +kernel⟩,
   ⟨st (rk 9) [(F.ENC_CTRL_ENABLE, 0)], by decide +kernel⟩⟩

/-- States and operands that meet the hypotheses of each clause of RingsAndBusMastering. -/
theorem witness_RingsAndBusMastering :
    (∃ (k : Fin 16) (t : BitVec 12) (s : State), Quiet s) ∧
    (∃ (k : Fin 16) (d : BitVec 256) (s : State), Quiet s ∧ (ringOn s k = true) ∧ (flag s (F.HWN_RINGk_STATUS_STALLED k) = false) ∧ (flag s (F.HWN_RINGk_STATUS_ABORTED k) = false) ∧
        ((ring s k).length < 32) ∧ (fld s (F.HWN_RINGk_HEAD_HEAD k) ≠ fld s (F.HWN_RINGk_TAIL_TAIL k) % 2 ^ fld s (F.HWN_RINGk_SIZE_SIZE k)) ∧ (fld s (F.HWN_RINGk_SIZE_SIZE k) ≤
        12)) ∧
    (∃ (k : Fin 16) (d : BitVec 256) (s : State), Quiet s ∧ (ringOn s k = false ∨ flag s (F.HWN_RINGk_STATUS_STALLED k) = true ∨ flag s (F.HWN_RINGk_STATUS_ABORTED k) = true ∨ 32 ≤
        (ring s k).length)) ∧
    (∃ (k : Fin 16) (i : Fin 4096) (l : List Byte) (d : Desc) (s : State), InFlight s k i d 1 ∧ (d.idx = i) ∧ (copyOk d = true) ∧ (dDev d + dLen d ≤ 0x0C000000) ∧ (l.length +
        d.count < dLen d) ∧ (0 < l.length) ∧ ((dDev d + d.count) % 64 + l.length ≤ 64) ∧ (memRefusal s MC.descriptor (dDev d + d.count) = 0) ∧ (poisoned s (lineAt s (dDev d +
        d.count)) = false)) ∧
    (∃ (k : Fin 16) (i : Fin 4096) (l : List Byte) (d : Desc) (s : State), InFlight s k i d 1 ∧ (d.idx = i) ∧ (copyOk d = true) ∧ (dDev d + dLen d ≤ 0x0C000000) ∧ (l.length +
        d.count ≤ dLen d) ∧ (0 < l.length) ∧ (memRefusal s MC.descriptor (dDev d + d.count) ≠ 0)) ∧
    (∃ (k : Fin 16) (i : Fin 4096) (l : List Byte) (n : BitVec 13) (d : Desc) (s : State), (InFlight s k i d (if n = 0 then 1 else 2)) ∧ (d.idx = i) ∧ (copyOk d = false) ∧ (d.count
        = 0)) ∧
    (∃ (k : Fin 16) (i : Fin 4096) (n : BitVec 13) (d : Desc) (s : State), InFlight s k i d 2 ∧ (d.idx = i) ∧ (copyOk d = true) ∧ (dDev d + dLen d ≤ 0x0C000000) ∧ (n.toNat + d.count
        = dLen d) ∧ (0 < n.toNat) ∧ ((dDev d + d.count) % 64 + n.toNat ≤ 64) ∧ (memRefusal s MC.descriptor (dDev d + d.count) = 0) ∧ (poisoned s (lineAt s (dDev d + d.count)) =
        false)) ∧
    (∃ (k : Fin 16) (i : Fin 4096) (d : Desc) (s : State), InFlight s k i d 3 ∧ (d.idx = i) ∧ (0 < dLen d) ∧ (dLen d ≤ 32768) ∧ (dDev d % 32768 + dLen d ≤ 32768) ∧ (∀ x ∈
        s.hwn.reclaims, x.desc ≠ some (k.val, i.val)) ∧ (pagesHave s (dDev d % 32768) (dLen d - 1) 1 = true)) ∧
    (∃ (k : Fin 16) (i : Fin 4096) (d : Desc) (s : State), InFlight s k i d 3 ∧ (d.idx = i) ∧ (d.count = 0) ∧ (dLen d = 0 ∨ 32768 < dLen d ∨ 32768 < dDev d % 32768 + dLen d)) ∧
    (∃ (k : Fin 16) (i : Fin 4096) (l : List Byte) (b : Bool) (d : Desc) (s : State), InFlight s k i d 0x10 ∧ (d.idx = i) ∧ (d.count = 0) ∧ (sessOpen s = false ∨ s.cfg.src ≠ k + 1)) ∧
    (∃ (k : Fin 16) (i : Fin 4096) (d : Desc) (x : Nat × Nat) (s : State), Quiet s ∧ (descAt s k i = some d) ∧ (d.fin = some x) ∧ (bme s = true) ∧ (ringAborted s k = false) ∧ (d.raw
        < 2 ^ 256) ∧ (x.1 < 16) ∧ (x.2 < 16)) ∧
    (∃ (k : Fin 16) (i : Fin 4096) (d : Desc) (s : State), Quiet s ∧ (descAt s k i = some d) ∧ (d.fin = none) ∧ (d.idx = i) ∧ (dOp d = 1 ∨ dOp d = 0x10) ∧ (ringAborted s k = false)) ∧
    (∃ (k : Fin 16) (i : Fin 4096) (d : Desc) (s : State), Quiet s ∧ (descAt s k i = some d) ∧ (d.fin ≠ none ∨ (dOp d ≠ 1 ∧ dOp d ≠ 0x10))) ∧
    (∃ (k : Fin 16) (i : Fin 4096) (l : List Byte) (b : Bool) (n : BitVec 13) (s : State), Quiet s ∧ (descAt s k i = none)) ∧
    (∃ (k : Fin 16) (d : Desc) (s : State), Quiet s ∧ (bme s = true) ∧ (∀ j, j < 16 → ring s j = if j = k.val then [d] else []) ∧ (s.hwn.aborts.length < 64) ∧ (s.hwn.reclaims = [])
        ∧ (readOpen d = false) ∧ (ringAborted s k = false)) ∧
    (∃ (k : Fin 16) (d : Desc) (s : State), Quiet s ∧ (bme s = true) ∧ (∀ j, j < 16 → ring s j = if j = k.val then [d] else []) ∧ (s.hwn.aborts.length < 64) ∧ (s.hwn.reclaims = [])
        ∧ (readOpen d = true) ∧ (ringAborted s k = false)) ∧
    (∃ (k : Fin 16) (i : Fin 4096) (l : List Byte) (b : Bool) (d : Desc) (s : State), Quiet s ∧ (descAt s k i = some d) ∧ (ringAborted s k = true) ∧ (d.fin = none) ∧ (dOp d = 1 ∨
        dOp d = 0x10)) ∧
    (∃ (k : Fin 16) (i : Fin 4096) (d : Desc) (s : State), Quiet s ∧ (descAt s k i = some d) ∧ (ringAborted s k = true) ∧ (d.fin = none) ∧ (dOp d = 1 ∨ dOp d = 0x10)) ∧
    (∃ (k : Fin 16) (i : Fin 4096) (d : Desc) (s : State), Quiet s ∧ (descAt s k i = some d) ∧ (ringAborted s k = true) ∧ (d.fin ≠ none)) ∧
    (∃ (s : State), Quiet s ∧ (∀ j, j < 16 → ring s j = [])) ∧
    (∃ (s : State), Quiet s ∧ ((pciFn s 0).d3 = false) ∧ (flag s F.SCH_STATUS_DRAINING = false)) ∧
    (∃ (k : Fin 16) (s : State), Quiet s ∧ (flag s (F.HWN_RINGk_CTRL_ENABLE k) = false) ∧ (flag s (F.HWN_RINGk_STATUS_DRAINING k) = false)) ∧
    (∃ (k : Fin 16) (s : State), Quiet s ∧ (flag s (F.HWN_RINGk_CTRL_ENABLE k) = true ∨ flag s (F.HWN_RINGk_STATUS_DRAINING k) = true)) ∧
    (∃ (k : Fin 16) (s : State), Quiet s ∧ (flag s (F.HWN_RINGk_CTRL_ENABLE k) = true) ∧ (∀ d ∈ ring s k, d.count = 0)) ∧
    (∃ (k : Fin 16) (s : State), Quiet s ∧ (flag s (F.HWN_RINGk_CTRL_ENABLE k) = false)) ∧
    (∃ (s : State), Quiet s ∧ (flag s F.HWN_CTRL_ENABLE = true) ∧ (∀ j, j < 16 → flag s (F.HWN_RINGk_CTRL_ENABLE j) = false ∧ ring s j = [])) ∧
    (∃ (k : Fin 16) (s : State), Quiet s ∧ (flag s F.HWN_CTRL_ENABLE = true) ∧ (flag s (F.HWN_RINGk_CTRL_ENABLE k) = true)) ∧
    (∃ (s : State), Quiet s ∧ (flag s F.HWN_CTRL_ENABLE = false)) ∧
    (∃ (s : State), Quiet s) :=
  ⟨⟨5, 11, rg [] [(F.HWN_RINGk_STATUS_STALLED 5, 1)], by decide +kernel⟩,
   ⟨5, BitVec.ofNat 256 (dsc 1 64 0x9000 0x100 3), rg [dx] [], by decide +kernel⟩,
   ⟨5, BitVec.ofNat 256 (dsc 1 64 0x9000 0x100 3), rg [dx] [(F.HWN_RINGk_STATUS_STALLED 5, 1)], by decide +kernel⟩,
   ⟨5, 6, [1, 2, 3], d0 1 64 0x9000 0x4000840, rg [dx, d0 1 64 0x9000 0x4000840] [], by decide +kernel⟩,
   ⟨5, 6, [1, 2, 3], d0 1 64 0x9000 0x6000840, rg [dx, d0 1 64 0x9000 0x6000840] [], by decide +kernel⟩,
   ⟨5, 6, [1, 2, 3], 0, { d0 1 64 0x9000 0xBFFFFF0 with count := 0 }, rg [dx, { d0 1 64 0x9000 0xBFFFFF0 with count := 0 }] [], by decide +kernel⟩,
   ⟨5, 6, 48, d0 2 64 0x9000 0x4000840, let s := rg [dx, d0 2 64 0x9000 0x4000840] []; setCell s (lineAt s 0x4000850) 17 9, by decide +kernel⟩,
   ⟨5, 6, d0 3 1 0x9000 1, rg [dx, d0 3 1 0x9000 1] [], by decide +kernel⟩,
   ⟨5, 6, { d0 3 2 0x9000 32767 with count := 0 }, rg [dx, { d0 3 2 0x9000 32767 with count := 0 }] [], by decide +kernel⟩,
   ⟨5, 6, [1, 2], false, { d0 0x10 2 0x9000 32767 with count := 0 }, rg [dx, { d0 0x10 2 0x9000 32767 with count := 0 }] [], by decide +kernel⟩,
   ⟨5, 6, { d0 2 64 0x9000 0x4000840 with fin := some (14, 9) }, (14, 9), rg [dx, { d0 2 64 0x9000 0x4000840 with fin := some (14, 9) }] [], by decide +kernel⟩,
   ⟨5, 6, d0 1 64 0x9000 0x4000840, rg [dx, d0 1 64 0x9000 0x4000840] [], by decide +kernel⟩,
   ⟨5, 6, d0 2 64 0x9000 0x4000840, rg [dx, d0 2 64 0x9000 0x4000840] [], by decide +kernel⟩,
   ⟨5, 7, [3], true, 9, rg [dx, d0 2 64 0x9000 0x4000840] [], by decide +kernel⟩,
   ⟨5, d0 2 64 0x9000 0x4000840, rg [d0 2 64 0x9000 0x4000840] [], by decide +kernel⟩,
   ⟨5, d0 1 64 0x9000 0x4000840, rg [d0 1 64 0x9000 0x4000840] [], by decide +kernel⟩,
   ⟨5, 6, [3], false, d0 1 64 0x9000 0x4000840, rg [d0 1 64 0x9000 0x4000840] [(F.HWN_RINGk_STATUS_ABORTED 5, 1), (F.HWN_STATUS_BME, 0)], by decide +kernel⟩,
   ⟨5, 6, d0 0x10 64 0x9000 0x4000840, rg [dx, d0 0x10 64 0x9000 0x4000840] [(F.HWN_RINGk_STATUS_ABORTED 5, 1)], by decide +kernel⟩,
   ⟨5, 6, { d0 1 64 0x9000 0x4000840 with fin := some (7, 9) }, rg [{ d0 1 64 0x9000 0x4000840 with fin := some (7, 9) }] [(F.HWN_RINGk_STATUS_ABORTED 5, 1), (F.HWN_STATUS_BME,
        0)], by decide +kernel⟩,
   ⟨rg [] [], by decide +kernel⟩,
   ⟨rg [dx] [(F.HWN_STATUS_BME, 0)], by decide +kernel⟩,
   ⟨5, rg [dx] [(F.HWN_RINGk_CTRL_ENABLE 5, 0), (F.HWN_RINGk_STATUS_ABORTED 5, 1)], by decide +kernel⟩,
   ⟨5, rg [dx] [], by decide +kernel⟩,
   ⟨5, rg [dx, { d0 2 64 0x9000 0x4000840 with count := 0 }] [], by decide +kernel⟩,
   ⟨6, rg [] [], by decide +kernel⟩,
   ⟨rg [] [(F.HWN_RINGk_CTRL_ENABLE 5, 0)], by decide +kernel⟩,
   ⟨5, rg [dx] [], by decide +kernel⟩,
   ⟨rg [dx] [(F.HWN_CTRL_ENABLE, 0)], by decide +kernel⟩,
   ⟨let s := rg [dx] []; setHwn s { s.hwn with aborts := [8, 9, 10] }, by decide +kernel⟩⟩

end W14

namespace W15

def sk (l : List (Fld × Nat)) (x : Link) : State := setLink (base ([(F.STK_CTRL_ENABLE, 1), (F.STK_STATUS_TRAINED, 1), (F.STK_IVCORE_CURRENT, 120), (F.STK_Lk_STATUS_STATE 9, 1), (F.STK_Lk_STATUS_FREE 9, 16)] ++ l)) 9 x
def rt (n : Nat) (l : List (Fld × Nat)) : State := sk ([(F.STK_Lk_STATUS_STATE 9, 3), (F.STK_Lk_SIDs_STATE 9 4, 3), (F.STK_STATUS_RETRAINING, 1), (F.STK_Lk_STATUS_GUARD 9, 1), (F.STK_Lk_CTRL_RETRAIN 9, 1)] ++ l) { carrier := some 4, stage := n, startI := 115 }

/-- States and operands that meet the hypotheses of each clause of LinksTrainAndFence. -/
theorem witness_LinksTrainAndFence :
    (∃ (s : State), Quiet s ∧ (flag s F.STK_STATUS_TRAINED = false) ∧ (s.bst.fused = []) ∧ (∀ k, k < 43 → ∀ i, i < 16 → sidState s k i = 0)) ∧
    (∃ (f : List (Fin 43 × Fin 576)) (s : State), Quiet s ∧ (flag s F.STK_STATUS_TRAINED = true)) ∧
    (∃ (k : Fin 43) (i : Nat) (s : State), Quiet s ∧ (lkState s k = 1 ∨ lkState s k = 2) ∧ (freeSiding s k = some i) ∧ (stkOn s = true) ∧ (fld s F.STK_STATUS_RETRAINING < 4) ∧
        ((link s k).spare = none) ∧ (linkDieReset s k = false)) ∧
    (∃ (k : Fin 43) (s : State), Quiet s ∧ (freeSiding s k = none ∨ stkOn s = false ∨ (lkState s k ≠ 1 ∧ lkState s k ≠ 2))) ∧
    (∃ (k : Fin 43) (i : Nat) (s : State), Retrains s k i 0 ∧ (stkOn s = true)) ∧
    (∃ (k : Fin 43) (i n : Nat) (s : State), Retrains s k i n ∧ (stkOn s = true) ∧ (0 < n) ∧ (n < 560)) ∧
    (∃ (k : Fin 43) (i : Nat) (s : State), Retrains s k i 560 ∧ (stkOn s = true) ∧ (condOut s k (link s k).startI (link s k).startT = false) ∧ (∀ j, j < 43 → j ≠ k.val → lkState s j
        ≠ 2 ∧ flag s (F.STK_Lk_CTRL_RETRAIN j) = false)) ∧
    (∃ (k : Fin 43) (i : Nat) (s : State), Retrains s k i 560 ∧ (stkOn s = true) ∧ (condOut s k (link s k).startI (link s k).startT = true)) ∧
    (∃ (k : Fin 43) (i n : Nat) (s : State), Retrains s k i n ∧ (stkOn s = false) ∧ (n ≤ 560) ∧ (n ≠ 560)) ∧
    (∃ (k : Fin 43) (i j n : Nat) (s : State), (Retrains s k i (n + 1)) ∧ (n < 560) ∧ (stkOn s = false) ∧ (carrierOf s k n = none) ∧ ((link s k).failed.contains n = false) ∧ (j <
        16) ∧ (j ≠ i) ∧ (sidFree s k j = true) ∧ (∀ m, m < 43 → m ≠ k.val → lkState s m ≠ 2 ∧ flag s (F.STK_Lk_CTRL_RETRAIN m) = false)) ∧
    (∃ (k : Fin 43) (ok : Bool) (s : State), Quiet s ∧ ((link s k).carrier = none)) ∧
    (∃ (k : Fin 43) (lane i : Nat) (s : State), Quiet s ∧ NoneWaits s ∧ ((link s k).spare = some (lane, i)) ∧ ((link s k).queue = []) ∧ (lane < 560) ∧ (i < 16)) ∧
    (∃ (k : Fin 43) (lane i j : Nat) (s : State), Quiet s ∧ NoneWaits s ∧ ((link s k).spare = some (lane, i)) ∧ (i < 16) ∧ (∀ n, n < 16 → (sidState s k n = 0 ∧ n ≠ i → j ≤ n)) ∧
        (sidState s k j = 0) ∧ (j ≠ i) ∧ (j < 16)) ∧
    (∃ (k : Fin 43) (lane i : Nat) (s : State), Quiet s ∧ NoneWaits s ∧ ((link s k).spare = some (lane, i)) ∧ ((link s k).queue = []) ∧ (i < 16) ∧ (lane < 560) ∧ (∀ n, n < 16 → n ≠
        i → sidState s k n ≠ 0) ∧ (flag s (F.STK_Lk_STATUS_ERASED k) = false)) ∧
    (∃ (k : Fin 43) (ok : Bool) (s : State), Quiet s ∧ ((link s k).spare = none)) ∧
    (∃ (k : Fin 43) (s : State), Quiet s ∧ (k.val < 40) ∧ (lkState s k ≠ 4) ∧ (fld s F.STK_FENCED_LINKS = 0) ∧ ((link s k).carrier = none)) ∧
    (∃ (s : State), Quiet s ∧ (lkState s 41 ≠ 4) ∧ (fld s F.STK_FENCED_LINKS = 0) ∧ ((link s 41).carrier = none) ∧ (s.cache.ways = []) ∧ (fld s F.STK_UNREACH_BANDS = 0) ∧ (fld s
        F.STK_UNREACH_DIES = 0)) ∧
    (∃ (k : Fin 43) (s : State), Quiet s ∧ (lkState s k = 4)) ∧
    (∃ (s : State), Quiet s ∧ (flag s F.STK_CTRL_ENABLE = true)) ∧
    (∃ (s : State), Quiet s ∧ (flag s F.STK_CTRL_ENABLE = false)) :=
  ⟨⟨sk [(F.STK_STATUS_TRAINED, 0)] { failed := [8] }, by decide +kernel⟩,
   ⟨[(3, 4)], sk [] {}, by decide +kernel⟩,
   ⟨9, 1, sk [(F.STK_Lk_SIDs_STATE 9 0, 1)] {}, by decide +kernel⟩,
   ⟨10, sk [] {}, by decide +kernel⟩,
   ⟨9, 4, rt 0 [], by decide +kernel⟩,
   ⟨9, 4, 559, rt 559 [], by decide +kernel⟩,
   ⟨9, 4, rt 560 [], by decide +kernel⟩,
   ⟨9, 4, rt 560 [(F.STK_IVCORE_CURRENT, 200)], by decide +kernel⟩,
   ⟨9, 4, 7, rt 7 [(F.STK_STATUS_DRAINING, 1)], by decide +kernel⟩,
   ⟨9, 4, 2, 77, rt 78 [(F.STK_STATUS_DRAINING, 1)], by decide +kernel⟩,
   ⟨9, true, sk [] {}, by decide +kernel⟩,
   ⟨9, 77, 4, sk [] { spare := some (77, 4) }, by decide +kernel⟩,
   ⟨9, 77, 4, 0, sk [] { spare := some (77, 4), queue := [8] }, by decide +kernel⟩,
   ⟨9, 77, 4, sk ((List.range 16).map fun i => (F.STK_Lk_SIDs_STATE 9 i, if i = 4 then 0 else 1)) { spare := some (77, 4) }, by decide +kernel⟩,
   ⟨9, true, sk [] {}, by decide +kernel⟩,
   ⟨9, sk [] { queue := [8], spare := some (77, 4) }, by decide +kernel⟩,
   ⟨sk [] { }, by decide +kernel⟩,
   ⟨9, sk [(F.STK_Lk_STATUS_STATE 9, 4)] { }, by decide +kernel⟩,
   ⟨sk [] { }, by decide +kernel⟩,
   ⟨sk [(F.STK_CTRL_ENABLE, 0)] { }, by decide +kernel⟩⟩

end W15

namespace W16

def natB (n v : Nat) : List Byte := (List.range n).map fun i => BitVec.ofNat 8 (v / 256 ^ i)
/-- a header: LENGTH, FRAMES, FLAGS, KEYSLOT, and the targets -/
def hdr (len frames flags slot tgt part : Nat) : List Byte :=
  let b := natB 4 0x4B53524B ++ natB 2 1 ++ natB 2 part ++ natB 2 0xFFFF ++ natB 1 slot ++ natB 1 flags ++ natB 4 len ++ natB 4 frames ++ natB 4 0 ++ natB 36 tgt ++ natB 4 0 ++ natB 32 77 ++ natB 28 0
  b ++ natB 4 (crc32c 124 (bytesNat b))
def pre (h : List Byte) : List Byte := [0x5A, 0xC3, 0x3C, 0xA5, 1, 0x80, 0, 0] ++ h
def sess (l : List (Fld × Nat)) (x : Session) : State := setCfg (base ([(F.CFG_CTRL_ENABLE, 1), (F.CFG_STATUS_RESULT, 1), (F.GLB_ID_STEPPING, 0x11)] ++ l)) x
/-- in the body behind the header, command c in hand, region 30 context 1 selected -/
def body (flags : Nat) (c : List Byte) (l : List (Fld × Nat)) (sel : Option (Nat × Nat)) : State :=
  sess l { taken := pre (hdr 5000 1 flags 1 (2 ^ 288 - 1) 0x396) ++ c, start := 136, phase := 2, sel := sel }
def frm (a f : Nat) (bad : Nat) : List Byte :=
  let v := a + f * 2 ^ 32
  [3, 0, 0, 0] ++ natB 2052 v ++ natB 4 (crc32c 2052 v + bad)
def hb (h : List Byte) (l : List (Fld × Nat)) : State := sess l { taken := pre h, start := 4, phase := 1 }
def cd : Desc := ⟨6, 3 + 0x10 * 256 + 200 * 2 ^ 32, false, 10, none⟩
def cs (x : Desc) : State := let s := sess [(F.HWN_STATUS_BME, 1), (F.CFG_SESSION_SRC, 1)] { taken := pre [1, 2], phase := 1, start := 4, src := 6 }; setHwn s { s.hwn with rings := [(5, [x])] }

/-- States and operands that meet the hypotheses of each clause of SessionsTakeStreams. -/
theorem witness_SessionsTakeStreams :
    (∃ (b : Bool) (k : Fin 16) (s : State), Quiet s ∧ (fld s F.CFG_STATUS_RESULT ≠ 1) ∧ (fld s F.CFG_STATUS_RESULT ≠ 2) ∧ (flag s F.CFG_STATUS_DRAINING = false) ∧ (flag s
        F.CFG_CTRL_ENABLE = true)) ∧
    (∃ (b : Bool) (k : Fin 16) (s : State), Quiet s ∧ (fld s F.CFG_STATUS_RESULT = 1 ∨ fld s F.CFG_STATUS_RESULT = 2 ∨ flag s F.CFG_STATUS_DRAINING = true ∨ flag s F.CFG_CTRL_ENABLE
        = false)) ∧
    (∃ (l : List Byte) (s : State), Quiet s ∧ (fld s F.CFG_STATUS_RESULT = 1) ∧ (s.cfg.fail = none) ∧ (loadWaits s = false) ∧ (s.cfg.src = 0) ∧ (s.cfg.phase = 1) ∧ (s.cfg.start = 4)
        ∧ (s.cfg.buf = []) ∧ (s.cfg.taken.take 8 = [0x5A, 0xC3, 0x3C, 0xA5, 1, 0x80, 0, 0]) ∧ (8 ≤ s.cfg.taken.length) ∧ (s.cfg.taken.length < 136) ∧ (l ≠ [])) ∧
    (∃ (l : List Byte) (s : State), Quiet s ∧ (fld s F.CFG_STATUS_RESULT ≠ 1 ∨ s.cfg.src ≠ 0)) ∧
    (∃ (k : Fin 16) (i : Fin 4096) (l : List Byte) (d : Desc) (s : State), InFlight s k i d 0x10 ∧ (d.idx = i) ∧ (0 < dLen d) ∧ (dLen d ≤ 16777216) ∧ (((ring s k).find? fun e => dOp
        e == 0x10 && e.fin.isNone) = some d) ∧ (d.count + l.length ≤ dLen d) ∧ (s.cfg.segs = []) ∧ (fld s F.CFG_STATUS_RESULT = 1) ∧ (s.cfg.fail = none) ∧ (loadWaits s = false) ∧
        (s.cfg.src = k + 1) ∧ (s.cfg.phase = 1) ∧ (s.cfg.start = 4) ∧ (s.cfg.buf = []) ∧ (s.cfg.taken.take 8 = [0x5A, 0xC3, 0x3C, 0xA5, 1, 0x80, 0, 0]) ∧ (8 ≤ s.cfg.taken.length) ∧
        (s.cfg.taken.length + l.length ≤ 136) ∧ (l ≠ [])) ∧
    (∃ (s : State), (InHand s 0 [0x5A, 0xC3, 0x3C, 0xA5])) ∧
    (∃ (s : State), (InHand s 1 (s.cfg.taken.drop 4)) ∧ (s.cfg.taken.take 8 = [0x5A, 0xC3, 0x3C, 0xA5, 1, 0x80, 0, 0]) ∧ (s.cfg.taken.length = 136) ∧ (s.cfg.start = 4) ∧ (s.cfg.src
        = 0) ∧ (s.cfg.off = false) ∧ HeaderRight s.cfg ∧ (deviceGood s s.cfg = true) ∧ (headField s.cfg 10 1 ≤ 3) ∧ (keySlot s (headField s.cfg 10 1) = 1)) ∧
    (∃ (s : State), (InHand s 1 (s.cfg.taken.drop 4)) ∧ (s.cfg.taken.take 8 = [0x5A, 0xC3, 0x3C, 0xA5, 1, 0x80, 0, 0]) ∧ (s.cfg.taken.length = 136) ∧ (s.cfg.start = 4) ∧ (s.cfg.src
        = 0) ∧ (s.cfg.off = false) ∧ (¬ HeaderRight s.cfg)) ∧
    (∃ (s : State), (InHand s 1 (s.cfg.taken.drop 4)) ∧ (s.cfg.taken.take 8 = [0x5A, 0xC3, 0x3C, 0xA5, 1, 0x80, 0, 0]) ∧ (s.cfg.taken.length = 136) ∧ (s.cfg.start = 4) ∧ (s.cfg.src
        = 0) ∧ (s.cfg.off = false) ∧ HeaderRight s.cfg ∧ (headField s.cfg 6 2 ≠ fld s F.GLB_ID_PART)) ∧
    (∃ (s : State), (InHand s 1 (s.cfg.taken.drop 4)) ∧ (s.cfg.taken.take 8 = [0x5A, 0xC3, 0x3C, 0xA5, 1, 0x80, 0, 0]) ∧ (s.cfg.taken.length = 136) ∧ (s.cfg.start = 4) ∧ (s.cfg.src
        = 0) ∧ (s.cfg.off = false) ∧ HeaderRight s.cfg ∧ (deviceGood s s.cfg = true) ∧ (keySlot s (headField s.cfg 10 1) ≠ 1)) ∧
    (∃ (b1 b2 : Byte) (s : State), (InBody s [2, b1, b2, 0]) ∧ (b1.toNat % 4 ≠ 0) ∧ (b1.toNat / 4 % 32 ≤ 23) ∧ (b2.toNat < 2) ∧ (hTarget s.cfg (4 * (24 * (b1.toNat % 4 - 1) +
        b1.toNat / 4 % 32) + b1.toNat / 128 + 2 * b2.toNat) = true)) ∧
    (∃ (b1 b2 : Byte) (s : State), (InBody s [2, b1, b2, 0]) ∧ (s.cfg.src = 0) ∧ (b1.toNat % 4 = 0 ∨ 23 < b1.toNat / 4 % 32)) ∧
    (∃ (c : List Byte) (sel : Nat × Nat) (s : State), InBody s c ∧ IsFrame c ∧ CrcRight c ∧ (s.cfg.sel = some sel) ∧ (frameWaits s (frameAdr c) = false) ∧ (fKind (frameAdr c) =
        kLOGIC) ∧ (frameStatus s sel (frameAdr c) (frameBits c) = 0) ∧ (sel.1 < 72) ∧ (regState s sel.1 ≠ 1)) ∧
    (∃ (c : List Byte) (sel : Nat × Nat) (s : State), InBody s c ∧ IsFrame c ∧ CrcRight c ∧ (s.cfg.sel = some sel) ∧ (frameWaits s (frameAdr c) = false) ∧ (frameStatus s sel
        (frameAdr c) (frameBits c) ≠ 0)) ∧
    (∃ (c : List Byte) (sel : Nat × Nat) (s : State), InBody s c ∧ IsFrame c ∧ (¬ CrcRight c) ∧ (s.cfg.sel = some sel) ∧ (frameWaits s (frameAdr c) = false)) ∧
    (∃ (r k a f : Nat) (s : State), (r < 72) ∧ (k < 4) ∧ (a < 2 ^ 32)) ∧
    (∃ (b1 b2 b3 b4 : Byte) (crc : List Byte) (sel : Nat × Nat) (s : State), (InBody s ([4, 1, 0, 0, b1, b2, b3, b4] ++ crc)) ∧ (hCompressed s.cfg = true) ∧ (crc.length = 4) ∧
        (bytesNat crc = crc32c 8 (bytesNat [4, 1, 0, 0, b1, b2, b3, b4])) ∧ (s.cfg.sel = some sel) ∧ (frameWaits s (bytesNat [b1, b2, b3, b4]) = false) ∧ (fKind (bytesNat [b1, b2,
        b3, b4]) = kLOGIC) ∧ (s.cfg.bits < 2 ^ 16384) ∧ (sel.1 < 72) ∧ (frameStatus s sel (bytesNat [b1, b2, b3, b4]) s.cfg.bits = 0) ∧ (regState s sel.1 ≠ 1)) ∧
    (∃ (c : List Byte) (s : State), InHand s 3 c ∧ (c.take 4 = [5, 0, 0, 0]) ∧ (c.length = 20) ∧ (bytesNat (c.drop 16) % 4 = 0) ∧ (bytesNat (c.drop 16) ≠ 0)) ∧
    (∃ (c : List Byte) (s : State), InHand s 4 c ∧ (c.length = 16) ∧ (s.cfg.src = 0)) ∧
    (∃ (mode : Fin 4) (sel : Nat × Nat) (s : State), (InBody s [6, BitVec.ofNat 8 mode, 0, 0]) ∧ (s.cfg.sel = some sel) ∧ (regRuns s sel.1 = false)) ∧
    (∃ (mode : Fin 4) (sel : Nat × Nat) (s : State), (InBody s [6, BitVec.ofNat 8 mode, 0, 0]) ∧ (s.cfg.sel = some sel) ∧ (regRuns s sel.1 = true) ∧ (sel.1 < 72)) ∧
    (∃ (r : Fin 72) (s : State), (InBody s [7, BitVec.ofNat 8 r, 0, 0]) ∧ (hTarget s.cfg (4 * r) = true)) ∧
    (∃ (s : State), (InBody s [14, 0, 0, 0]) ∧ (s.cfg.counted = hFrames s.cfg)) ∧
    (∃ (s : State), (InBody s [14, 0, 0, 0]) ∧ (s.cfg.counted ≠ hFrames s.cfg) ∧ (s.cfg.src = 0)) ∧
    (∃ (c : List Byte) (s : State), InHand s 5 c ∧ (c.take 4 = [15, 0, 0, 0]) ∧ (c.length = 68) ∧ (s.cfg.start + 68 = hLength s.cfg) ∧ (s.cfg.src = 0)) ∧
    (∃ (r : Fin 72) (k : Fin 4) (s : State), Quiet s ∧ (fld s F.CFG_STATUS_RESULT = 2) ∧ (s.cfg.fail = none) ∧ (s.cfg.taint = []) ∧ (s.cfg.rels = []) ∧ (s.cfg.src = 0) ∧ (s.cfg.regs
        = [r.val]) ∧ (s.cfg.loads = [4 * r.val + k.val]) ∧ (∀ i, i < 72 → (region s i).staged = []) ∧ (s.cfg.off = false) ∧ (fld s F.CFG_REJECTS_REJECTED = 0) ∧ (regState s r = 1)
        ∧ (fld s (F.FAB_REGr_RC_RETURN r) = 0) ∧ (hEncrypted s.cfg = false) ∧ (planeState s r k = 1)) ∧
    (∃ (s : State), Quiet s ∧ (fld s F.CFG_STATUS_RESULT = 2) ∧ (s.cfg.fail = none) ∧ (s.cfg.taint = []) ∧ (s.cfg.rels = []) ∧ (s.cfg.bms = []) ∧ (s.cfg.src = 0) ∧ (s.cfg.regs = [])
        ∧ (s.cfg.loads = []) ∧ (∀ i, i < 72 → (region s i).staged = []) ∧ (s.cfg.off = false)) ∧
    (∃ (s : State), Quiet s ∧ (fld s F.CFG_STATUS_RESULT ≠ 2)) :=
  ⟨⟨true, 7, sess [(F.CFG_STATUS_RESULT, 9), (F.CFG_REJECTS_REJECTED, 3)] { taken := [1], phase := 5 }, by decide +kernel⟩,
   ⟨true, 7, sess [(F.CFG_REJECTS_REJECTED, 3)] { taken := [1], phase := 5 }, by decide +kernel⟩,
   ⟨(natB 200 0x123456789), sess [] { taken := (pre []), phase := 1, start := 4 }, by decide +kernel⟩,
   ⟨[1, 2], sess [(F.CFG_STATUS_RESULT, 3)] {}, by decide +kernel⟩,
   ⟨5, 6, [7, 8, 9], cd, cs cd, by decide +kernel⟩,
   ⟨sess [] { taken := [0x5A, 0xC3, 0x3C, 0xA5] }, by decide +kernel⟩,
   ⟨(fun s => { s with sbx := { s.sbx with shadow := smSet s.sbx.shadow 0x11 (1 + sha512 (hPubkey s.cfg) % 2 ^ 256) 0 } }) (hb (hdr 5000 1 0 1 0 0x396) []), by decide +kernel⟩,
   ⟨hb (hdr 100 1 0 1 0 0x396) [], by decide +kernel⟩,
   ⟨hb (hdr 5000 1 0 1 0 0x397) [], by decide +kernel⟩,
   ⟨hb (hdr 5000 1 0 1 0 0x396) [], by decide +kernel⟩,
   ⟨0x9A, 0, body 0 [2, 0x9A, 0, 0] [] none, by decide +kernel⟩,
   ⟨0x98, 0, body 0 [2, 0x98, 0, 0] [] none, by decide +kernel⟩,
   ⟨(frm 0x2929A 0x1234 0), (30, 1), body 0 (frm 0x2929A 0x1234 0) [] (some (30, 1)), by decide +kernel⟩,
   ⟨(frm 0x2929B 0x1234 0), (30, 1), body 0 (frm 0x2929B 0x1234 0) [] (some (30, 1)), by decide +kernel⟩,
   ⟨(frm 0x2929A 0x1234 1), (30, 1), body 0 (frm 0x2929A 0x1234 1) [] (some (30, 1)), by decide +kernel⟩,
   ⟨30, 1, 0x2929B, 5, body 0 [] [] none, by decide +kernel⟩,
   ⟨0x1A, 0x93, 2, 0, (natB 4 (crc32c 8 (bytesNat [4, 1, 0, 0, 0x1A, 0x93, 2, 0]))), (30, 1), body 1 ([4, 1, 0, 0, 0x1A, 0x93, 2, 0] ++ natB 4 (crc32c 8 (bytesNat [4, 1, 0, 0,
        0x1A, 0x93, 2, 0]))) [] (some (30, 1)), by decide +kernel⟩,
   ⟨([5, 0, 0, 0] ++ natB 12 7 ++ natB 4 8), sess [] { taken := pre (hdr 5000 1 2 1 0 0x396) ++ ([5, 0, 0, 0] ++ natB 12 7 ++ natB 4 8), start := 136, phase := 3 }, by
        decide +kernel⟩,
   ⟨(natB 16 77), sess [] { taken := pre (hdr 5000 1 2 1 0 0x396) ++ ([5, 0, 0, 0] ++ natB 12 7 ++ natB 4 8) ++ natB 8 3 ++ natB 16 77, start := 164, phase := 4 }, by
        decide +kernel⟩,
   ⟨2, (30, 1), body 0 [6, 2, 0, 0] [] (some (30, 1)), by decide +kernel⟩,
   ⟨2, (30, 1), setRegion (body 0 [6, 2, 0, 0] [(F.FAB_REGr_STATUS_STATE 30, 3)] (some (30, 1))) 30 { run := true }, by decide +kernel⟩,
   ⟨30, body 0 [7, 30, 0, 0] [] none, by decide +kernel⟩,
   ⟨sess [] { taken := pre (hdr 5000 0 0 1 0 0x396) ++ [14, 0, 0, 0], start := 136, phase := 2 }, by decide +kernel⟩,
   ⟨body 0 [14, 0, 0, 0] [] none, by decide +kernel⟩,
   ⟨([15, 0, 0, 0] ++ natB 64 3), sess [] { taken := pre (hdr 208 0 0 1 0 0x396) ++ [14, 0, 0, 0] ++ [15, 0, 0, 0] ++ natB 64 3, start := 140, phase := 5 }, by decide +kernel⟩,
   ⟨30, 1, sess [(F.CFG_STATUS_RESULT, 2), (F.FAB_REGr_STATUS_STATE 30, 1), (F.CTX_REGr_PLANES_PLANES 30, 0x26)]
        { taken := pre (hdr 208 0 0 1 0 0x396) ++ [14, 0, 0, 0] ++ [15, 0, 0, 0] ++ natB 64 3, regs := [30], loads := [121] }, by decide +kernel⟩,
   ⟨sess [(F.CFG_STATUS_RESULT, 2), (F.CFG_REJECTS_REJECTED, 4)] { taken := pre (hdr 208 0 0 1 0 0x396) ++ [14, 0, 0, 0] ++ [15, 0, 0, 0] ++ natB 64 3 }, by decide +kernel⟩,
   ⟨sess [] { }, by decide +kernel⟩⟩

/-- States and operands that meet the hypotheses of each clause of SessionsEndAndReadBack. -/
theorem witness_SessionsEndAndReadBack :
    (∃ (s : State), Quiet s ∧ (fld s F.CFG_STATUS_RESULT = 1) ∧ (s.cfg.fail = none) ∧ (s.cfg.src = 0)) ∧
    (∃ (s : State), Quiet s ∧ (fld s F.CFG_STATUS_RESULT ≠ 1 ∨ s.cfg.fail ≠ none)) ∧
    (∃ (s : State), Quiet s ∧ (fld s F.CFG_STATUS_RESULT = 1) ∧ (s.cfg.fail = none) ∧ (s.cfg.src = 0) ∧ (s.cfg.taken = []) ∧ (s.cfg.start = 0) ∧ (s.cfg.phase = 0) ∧ (loadWaits s =
        false)) ∧
    (∃ (result cause : Nat) (r : Fin 72) (k : Fin 4) (s : State), Quiet s ∧ (s.cfg.fail = some (result, cause)) ∧ (result < 16) ∧ (cause < 8) ∧ (s.cfg.regs = [r.val]) ∧ (s.cfg.loads
        = [4 * r.val + k.val]) ∧ (s.cfg.bms = []) ∧ (∀ i, i < 72 → i ≠ r.val → (region s i).staged = []) ∧ (s.cfg.off = false) ∧ (scrubWaits s [r.val] = false) ∧ (regState s r = 1)
        ∧ (fld s (F.FAB_REGr_RC_RETURN r) = 4) ∧ (∀ j, j < 4 → j = (k.val + 1) % 4 → planeState s r j = 2)) ∧
    (∃ (s : State), Quiet s ∧ (s.cfg.fail = none) ∧ (s.cfg.loads = [])) ∧
    (∃ (s : State), Quiet s ∧ (fld s F.CFG_DEADLINE_MS ≠ 0) ∧ (s.cfg.expired = false) ∧ (∀ f, f < 4 → 0 < f → bitOf (fld s F.CFG_DEADLINE_FUNCS) (f - 1) = true → ufVisible s f =
        true)) ∧
    (∃ (f : Nat) (s : State), Quiet s ∧ (fld s F.CFG_DEADLINE_MS ≠ 0) ∧ (s.cfg.expired = false) ∧ (1 ≤ f) ∧ (f ≤ 3) ∧ (bitOf (fld s F.CFG_DEADLINE_FUNCS) (f - 1) = true) ∧
        (ufVisible s f = false) ∧ (endpointHeld s = false)) ∧
    (∃ (s : State), Quiet s ∧ (fld s F.CFG_DEADLINE_MS = 0 ∨ s.cfg.expired = true)) ∧
    (∃ (s : State), Quiet s) ∧
    (∃ (a : Nat) (s : State), Quiet s ∧ (fld s F.CFG_RB_ADDR_ADDRESS = a) ∧ (flag s F.CFG_CTRL_ENABLE = true) ∧ (addrBad a = false) ∧ (flag s F.CFG_CTRL_READBACK_EN = true) ∧ (bitOf
        (fld s F.CFG_ENC_REGIONS_REGIONS) (fRegion a) = false) ∧ (fKind a = kLOGIC) ∧ (planeState s (fRegion a) (fCtx a) ≠ 1) ∧ (smGet s.fab.uncorr (frameKey kLOGIC (fRegion a)
        (fCtx a) (fTile a)) 0 = 0) ∧ (dieInReset s (confPos (fDie a)) = false) ∧ (a < 2 ^ 32)) ∧
    (∃ (s : State), Quiet s ∧ (flag s F.CFG_CTRL_ENABLE = false)) ∧
    (∃ (s : State), Quiet s ∧ (flag s F.CFG_CTRL_ENABLE = true) ∧ (addrBad (fld s F.CFG_RB_ADDR_ADDRESS) = true)) ∧
    (∃ (s : State), Quiet s ∧ (flag s F.CFG_CTRL_ENABLE = true) ∧ (fld s F.CFG_STATUS_RESULT ≠ 1) ∧ (fld s F.CFG_STATUS_RESULT ≠ 2) ∧ (s.cfg.fail = none)) ∧
    (∃ (s : State), Quiet s ∧ (flag s F.CFG_CTRL_ENABLE = true) ∧ (fld s F.CFG_STATUS_RESULT = 1) ∧ (s.cfg.fail = none) ∧ (s.cfg.src = 0)) ∧
    (∃ (s : State), Quiet s ∧ (flag s F.CFG_CTRL_ENABLE = false)) :=
  ⟨⟨sess [] { buf := [1, 2] }, by decide +kernel⟩,
   ⟨sess [(F.CFG_STATUS_RESULT, 3)] { }, by decide +kernel⟩,
   ⟨sess [] { }, by decide +kernel⟩,
   ⟨9, 1, 30, 1, setFab (sess [(F.FAB_REGr_STATUS_STATE 30, 1), (F.FAB_REGr_RC_RETURN 30, 4), (F.CTX_REGr_PLANES_PLANES 30, 0x24)]
        { regs := [30], loads := [121], fail := some (9, 1) }) { frames := [(frameKey kLOGIC 30 1 5, 77)] }, by decide +kernel⟩,
   ⟨sess [] { }, by decide +kernel⟩,
   ⟨sess [(F.CFG_DEADLINE_MS, 5)] { }, by decide +kernel⟩,
   ⟨2, sess [(F.CFG_DEADLINE_MS, 5), (F.CFG_DEADLINE_FUNCS, 2)] { } |> fun s => { s with pci := { s.pci with perst := false, hot := false }, rst := {} }, by decide +kernel⟩,
   ⟨sess [] { }, by decide +kernel⟩,
   ⟨sess [(F.CFG_STATUS_HIDING, 1)] { hidden := [1] }, by decide +kernel⟩,
   ⟨0x2929A, setFab (sess [(F.CFG_RB_ADDR_ADDRESS, 0x2929A), (F.CFG_CTRL_READBACK_EN, 1)] { }) { frames := [(frameKey kLOGIC 30 1 293, 77)] }, by decide +kernel⟩,
   ⟨sess [(F.CFG_CTRL_ENABLE, 0)] { }, by decide +kernel⟩,
   ⟨sess [] { }, by decide +kernel⟩,
   ⟨sess [(F.CFG_STATUS_RESULT, 3)] { }, by decide +kernel⟩,
   ⟨sess [] { }, by decide +kernel⟩,
   ⟨sess [(F.CFG_CTRL_ENABLE, 0)] { }, by decide +kernel⟩⟩

end W16

namespace W18

def pc (l : List (Fld × Nat)) (x : Pci) : State := { base ([(F.PCI_STATUS_LINK_UP, 1), (F.PCI_CTRL_ENABLE, 1), (F.MEM_STATUS_INIT_DONE, 1), (F.STK_STATUS_TRAINED, 1)] ++ l) with pci := x, rst := {} }
def idn : UfIdent := ⟨0x1234, 0x020000, 0x77, 14, 0, true, false⟩
/-- function 2 owned by region 36, which runs -/
def uf (l : List (Fld × Nat)) (x : PciFn) (p : Pci) : State :=
  setRegion (pc ([(F.FAB_FUNCf_OWN_VALID 2, 1), (F.FAB_FUNCf_OWN_REGION 2, 36), (F.FAB_REGr_STATUS_STATE 36, 3), (F.FAB_REGr_CLK_EN 36, 15)]
    ++ ((List.range 24).map fun i => (F.CLK_FPLLn_EN i, 1)) ++ ((List.range 24).map fun i => (F.CLK_FPLLn_LOCKED i, 1)) ++ l)
    { p with ready := true, fns := [(2, { x with ident := some idn })] }) 36 { run := true }
def b2 (l : List (Fld × Nat)) : State := let s := pc l { ready := true }; setCell (setCell s (lineAt s 0x4000840) 9 0xF7) (lineAt s 0x4000840) 20 0x11

/-- States and operands that meet the hypotheses of each clause of EndpointServesHost. -/
theorem witness_EndpointServesHost :
    (∃ (speed : Fin 4) (width : Fin 3) (s : State), Quiet s ∧ (s.pci.perst = false) ∧ (s.pci.hot = false) ∧ (linkUp s = false ∨ s.pci.l1 = true ∨ fld s F.PCI_STATUS_SPEED ≠ speed +
        1 ∨ fld s F.PCI_STATUS_WIDTH ≠ 2 ^ width.val)) ∧
    (∃ (speed : Fin 4) (width : Fin 3) (s : State), Quiet s ∧ (s.pci.perst = true ∨ s.pci.hot = true)) ∧
    (∃ (s : State), Quiet s ∧ (s.pci.perst = false) ∧ (s.pci.hot = false) ∧ (s.rst.step = 0)) ∧
    (∃ (s : State), Quiet s ∧ (s.pci.perst = true ∨ s.pci.hot = true ∨ s.rst.step ≠ 0)) ∧
    (∃ (reg : CfgReg) (w : Bool) (v : Word) (s : State), Quiet s ∧ (linkUp s = true) ∧ (s.pci.ready = false)) ∧
    (∃ (f : Fin 4) (reg : CfgReg) (w : Bool) (v : Word) (s : State), Quiet s ∧ (linkUp s = true) ∧ (f ≠ 0) ∧ (ufVisible s f = false) ∧ (fld s F.PWR_STATUS_STATE < 2)) ∧
    (∃ (v : Word) (s : State), Quiet s ∧ (linkUp s = true) ∧ (s.pci.ready = true) ∧ (fld s F.PWR_STATUS_STATE < 2)) ∧
    (∃ (f : Fin 4) (v : Word) (s : State), Quiet s ∧ (linkUp s = true) ∧ (s.pci.ready = true) ∧ (f ≠ 0) ∧ (ufVisible s f = true) ∧ (fld s F.PWR_STATUS_STATE < 2)) ∧
    (∃ (f : Fin 4) (v : Word) (s : State), Quiet s ∧ (linkUp s = true) ∧ (s.pci.ready = true) ∧ (f = 0 ∨ ufVisible s f = true) ∧ (fld s F.PWR_STATUS_STATE < 2)) ∧
    (∃ (s : State), Quiet s ∧ ((pciFn s 0).d3 = false) ∧ (bme s = false)) ∧
    (∃ (s : State), Quiet s ∧ ((pciFn s 0).d3 = true) ∧ ((pciFn s 0).bme = false)) ∧
    (∃ (s : State), Quiet s ∧ ((pciFn s 0).d3 = true)) ∧
    (∃ (s : State), Quiet s ∧ ((pciFn s 0).d3 = false)) ∧
    (∃ (s : State), Quiet s ∧ (linkUp s = true) ∧ (s.cache.fills = []) ∧ (∀ k, k < 16 → ring s k = []) ∧ (bitOf (ctlOf s 0 cLINK) 1 = true)) ∧
    (∃ (s : State), Quiet s ∧ (linkUp s = false ∨ s.cache.fills ≠ [])) ∧
    (∃ (off : BitVec 28) (len : Fin 4097) (b : Fin 5) (s : State), Quiet s ∧ (linkUp s = true) ∧ ((pciFn s 0).d3 = false) ∧ (pciOn s = true) ∧ (fld s F.PWR_STATUS_STATE < 2) ∧ (0 <
        len.val) ∧ (off.toNat % 64 + len.val ≤ 64) ∧ (ServedAt s 0xC0 (off.toNat / 64 * 64) false) ∧ (poisoned s (lineAt s off.toNat) = false) ∧ (b.val < 4)) ∧
    (∃ (off : BitVec 28) (len : Fin 4097) (b : Fin 5) (s : State), Quiet s ∧ (linkUp s = true) ∧ ((pciFn s 0).d3 = false) ∧ (pciOn s = true) ∧ (fld s F.PWR_STATUS_STATE < 2) ∧ (0 <
        len.val) ∧ (off.toNat % 64 + len.val ≤ 64) ∧ (ServedAt s 0xC0 (off.toNat / 64 * 64) false) ∧ (poisoned s (lineAt s off.toNat) = true)) ∧
    (∃ (off : BitVec 28) (len : Fin 4097) (xs : List (BitVec 560 × List (BitVec 560) × Fin 5)) (s : State), Quiet s ∧ (linkUp s = true) ∧ ((pciFn s 0).d3 = true ∨ pciOn s = false)) ∧
    (∃ (off : BitVec 28) (len : Fin 513) (be : BitVec 512) (data : BitVec 4096) (s : State), Quiet s ∧ (linkUp s = true) ∧ ((pciFn s 0).d3 = false) ∧ (pciOn s = true) ∧ (fld s
        F.PWR_STATUS_STATE < 2) ∧ (0 < len.val) ∧ (off.toNat % 64 + len.val ≤ 64) ∧ (ServedAt s 0xC0 (off.toNat / 64 * 64) false) ∧ (poisoned s (lineAt s off.toNat) = false)) ∧
    (∃ (off : BitVec 28) (len : Fin 513) (be : BitVec 512) (data : BitVec 4096) (st : BitVec 560) (ws : List (BitVec 560)) (b : Bool) (s : State), Quiet s ∧ (linkUp s = true) ∧
        ((pciFn s 0).d3 = false)) ∧
    (∃ (off : BitVec 28) (len : Fin 513) (be : BitVec 512) (data : BitVec 4096) (st : BitVec 560) (ws : List (BitVec 560)) (b : Bool) (s : State), Quiet s ∧ (linkUp s = true) ∧
        ((pciFn s 0).d3 = false) ∧ (pciOn s = false)) ∧
    (∃ (s : State), Quiet s ∧ (flag s F.PCI_CTRL_ENABLE = true)) ∧
    (∃ (s : State), Quiet s ∧ (flag s F.PCI_CTRL_ENABLE = false)) :=
  ⟨⟨3, 2, pc [(F.PCI_STATUS_LINK_UP, 0)] {}, by decide +kernel⟩,
   ⟨3, 2, pc [] { perst := true }, by decide +kernel⟩,
   ⟨pc [] {}, by decide +kernel⟩,
   ⟨pc [] { hot := true }, by decide +kernel⟩,
   ⟨.command, true, 7, pc [] {}, by decide +kernel⟩,
   ⟨2, .command, true, 7, pc [] { ready := true }, by decide +kernel⟩,
   ⟨0, pc [] { ready := true, fns := [(0, { msix := true })] }, by decide +kernel⟩,
   ⟨2, 6, uf [] {} {}, by decide +kernel⟩,
   ⟨2, 0xC000, uf [] {} {}, by decide +kernel⟩,
   ⟨pc [] {}, by decide +kernel⟩,
   ⟨pc [] { fns := [(0, { d3 := true })] }, by decide +kernel⟩,
   ⟨pc [] { fns := [(0, { d3 := true })] }, by decide +kernel⟩,
   ⟨pc [] {}, by decide +kernel⟩,
   ⟨pc [] { fns := [(0, { ctl := [(3, 2)] })] }, by decide +kernel⟩,
   ⟨pc [(F.PCI_STATUS_LINK_UP, 0)] {}, by decide +kernel⟩,
   ⟨0x4000848, 30, 3, b2 [], by decide +kernel⟩,
   ⟨0x4000848, 30, 3, let s := b2 []; setPoison s (lineAt s 0x4000840) true, by decide +kernel⟩,
   ⟨0x4000848, 30, [], pc [(F.PCI_CTRL_ENABLE, 0)] { }, by decide +kernel⟩,
   ⟨0x4000848, 30, 0x2FF0FF5, BitVec.ofNat 4096 0x112233445566778899AABBCCDD, b2 [], by decide +kernel⟩,
   ⟨0x4000848, 30, 0x2FF0FF5, 7, 0, [], true, b2 [], by decide +kernel⟩,
   ⟨0x4000848, 30, 0x2FF0FF5, 7, 0, [], true, b2 [(F.PCI_CTRL_ENABLE, 0)], by decide +kernel⟩,
   ⟨pc [] {}, by decide +kernel⟩,
   ⟨pc [(F.PCI_CTRL_ENABLE, 0)] {}, by decide +kernel⟩⟩

/-- States and operands that meet the hypotheses of each clause of UserFunctionsAndVectors. -/
theorem witness_UserFunctionsAndVectors :
    (∃ (f : Fin 3) (b2 : Bool) (off : BitVec 30) (len : Fin 513) (be : BitVec 512) (data : BitVec 4096) (s : State), (FnServed s (f + 1)) ∧ (b2 = true ∨ msixRange (2 ^ barSize s (f
        + 1) 0) off.toNat len = false)) ∧
    (∃ (f : Fin 3) (b2 : Bool) (off : BitVec 30) (len : Fin 513) (be : BitVec 512) (data : BitVec 4096) (s : State), (FnServed s (f + 1)) ∧ (b2 = true ∨ msixRange (2 ^ barSize s (f
        + 1) 0) off.toNat len = false) ∧ (s.pci.reads.length < 64)) ∧
    (∃ (f : Fin 3) (b2 : Bool) (off : BitVec 30) (len : Fin 513) (w : Bool) (be : BitVec 512) (data : BitVec 4096) (s : State), Quiet s ∧ (linkUp s = true) ∧ (s.pci.ready = true →
        ufVisible s (f + 1) = true → (pciFn s (f + 1)).d3 = true) ∧ (w = true → s.pci.ready = true ∧ ufVisible s (f + 1) = true)) ∧
    (∃ (f : Fin 3) (b2 : Bool) (off : BitVec 30) (len : Fin 513) (be : BitVec 512) (data : BitVec 4096) (s : State), Quiet s ∧ (linkUp s = true) ∧ (s.pci.ready = false ∨ ufVisible s
        (f + 1) = false)) ∧
    (∃ (f : Fin 3) (b2 : Bool) (off : BitVec 30) (len : Fin 513) (w : Bool) (be : BitVec 512) (data : BitVec 4096) (s : State), Quiet s ∧ (linkUp s = true) ∧ (s.pci.ready = true) ∧
        (ufVisible s (f + 1) = true) ∧ ((pciFn s (f + 1)).d3 = false) ∧ (b2 = true ∨ msixRange (2 ^ barSize s (f + 1) 0) off.toNat len = false) ∧ (pciOn s = false ∨ regState s (fld
        s (F.FAB_FUNCf_OWN_REGION (f + 1))) ≠ 3)) ∧
    (∃ (f : Fin 3) (v : Fin 64) (be : BitVec 512) (data : BitVec 4096) (s : State), Quiet s ∧ (linkUp s = true) ∧ (s.pci.ready = true) ∧ (ufVisible s (f + 1) = true) ∧ ((pciFn s (f
        + 1)).d3 = false) ∧ (13 ≤ barSize s (f + 1) 0) ∧ (barSize s (f + 1) 0 ≤ 30)) ∧
    (∃ (f : Fin 3) (tag : BitVec 6) (ok : Bool) (data : BitVec 4096) (x : UfRead) (s : State), Quiet s ∧ (s.pci.reads = [x]) ∧ (x.fn = f + 1) ∧ (x.tag = tag.toNat) ∧ (ufTicks s (f +
        1) = true)) ∧
    (∃ (f : Fin 3) (tag : BitVec 6) (x : UfRead) (s : State), Quiet s ∧ (s.pci.reads = [x]) ∧ (x.fn = f + 1) ∧ (x.tag = tag.toNat) ∧ (x.dead = false)) ∧
    (∃ (f : Fin 3) (tag : BitVec 6) (ok : Bool) (data : BitVec 4096) (s : State), Quiet s ∧ (∀ x ∈ s.pci.reads, x.tag ≠ tag.toNat)) ∧
    (∃ (f : Fin 3) (v : BitVec 6) (s : State), Quiet s ∧ (ufOwned s (f + 1) = true) ∧ (ufTicks s (f + 1) = true) ∧ ((pciFn s (f + 1)).d3 = false)) ∧
    (∃ (f : Fin 3) (v : BitVec 6) (s : State), Quiet s ∧ ((pciFn s (f + 1)).d3 = true)) ∧
    (∃ (v : BitVec 8) (s : State), Quiet s ∧ (linkUp s = true) ∧ (bitOf (fld s F.PCI_PBA_PENDING) v.toNat = true) ∧ ((pciFn s 0).msix = true) ∧ ((pciFn s 0).bme = true) ∧ ((pciFn s
        0).fmask = false) ∧ ((pciFn s 0).d3 = false) ∧ (flag s (F.PCI_MSIXv_CTRL_MASK v.toNat) = false)) ∧
    (∃ (f : Fin 4) (v : BitVec 8) (s : State), Quiet s ∧ (f ≠ 0) ∧ (linkUp s = true) ∧ (v.toNat ∈ (pciFn s f).pend) ∧ ((pciFn s f).msix = true) ∧ ((pciFn s f).bme = true) ∧ ((pciFn
        s f).fmask = false) ∧ ((pciFn s f).d3 = false) ∧ (v.toNat ∈ (pciFn s f).unmask)) ∧
    (∃ (v : BitVec 8) (s : State), Quiet s ∧ (flag s (F.PCI_MSIXv_CTRL_MASK v.toNat) = true ∨ (pciFn s 0).fmask = true ∨ (pciFn s 0).msix = false ∨ (pciFn s 0).bme = false ∨ (pciFn
        s 0).d3 = true ∨ bitOf (fld s F.PCI_PBA_PENDING) v.toNat = false)) :=
  ⟨⟨1, false, 0x40, 8, 0xFF, 0x1234, uf [] {} {}, by decide +kernel⟩,
   ⟨1, true, 0x3040, 8, 0xFF, 0x1234, uf [] {} { reads := [⟨2, 0, 8, false⟩, ⟨2, 2, 8, true⟩] }, by decide +kernel⟩,
   ⟨1, true, 0x3040, 8, false, 0xFF, 0x1234, pc [] {}, by decide +kernel⟩,
   ⟨1, true, 0x3040, 8, 0xFF, 0x1234, pc [] {}, by decide +kernel⟩,
   ⟨1, true, 0x3040, 8, false, 0xFF, 0x1234, uf [(F.PCI_CTRL_ENABLE, 0)] {} {}, by decide +kernel⟩,
   ⟨1, 63, 0xFF, 0x1234, uf [] { addr := [(63, 0x123456789A0)] } {}, by decide +kernel⟩,
   ⟨1, 5, false, 0x1234567890, ⟨2, 5, 4, false⟩, uf [] {} { reads := [⟨2, 5, 4, false⟩] }, by decide +kernel⟩,
   ⟨1, 5, ⟨2, 5, 4, false⟩, uf [] {} { reads := [⟨2, 5, 4, false⟩] }, by decide +kernel⟩,
   ⟨1, 6, true, 9, uf [] {} { reads := [⟨2, 5, 4, false⟩] }, by decide +kernel⟩,
   ⟨1, 5, uf [] { pend := [4] } { }, by decide +kernel⟩,
   ⟨1, 5, uf [] { d3 := true } { }, by decide +kernel⟩,
   ⟨77, pc [(F.PCI_PBA_PENDING, 3 * 2 ^ 76), (F.PCI_MSIXv_CTRL_MASK 77, 0), (F.PCI_MSIXv_ADDR_ADDRESS 77, 0x12345678), (F.PCI_MSIXv_DATA_DATA 77, 9)]
        { fns := [(0, { msix := true, bme := true })] }, by decide +kernel⟩,
   ⟨2, 5, uf [] { pend := [5, 6], unmask := [5], msix := true, bme := true, addr := [(5, 0x44)], data := [(5, 8)] } { }, by decide +kernel⟩,
   ⟨77, pc [(F.PCI_PBA_PENDING, 3 * 2 ^ 76)] { fns := [(0, { msix := true, bme := true })] }, by decide +kernel⟩⟩

end W18

namespace W19

def sb (l : List (Fld × Nat)) (x : Sbx) : State := { base ([(F.SBX_CTRL_ENABLE, 1), (F.SBX_STATUS_READY, 1), (F.GLB_ID_STEPPING, 0x11)] ++ l) with sbx := x, rst := {} }
def rqb (cmd : Nat) (pay : List Byte) : List Byte := bytesOf 2 cmd ++ bytesOf 2 pay.length ++ [1, 2, 3, 4, 7, 9] ++ bytesOf 6 0 ++ pay
def rq (cmd : Nat) (pay : List Byte) (l : List (Fld × Nat)) (x : Sbx) : State :=
  let b := rqb cmd pay
  sb ([(F.SBX_MB_STATUS_BUSY, 1)] ++ ((List.range ((b.length + 3) / 4)).map fun i => (F.SBX_MAILBOXi_WORD i, bytesNat ((b.drop (4 * i)).take 4))) ++ l) x
def lg (n k : Nat) : List LogRec := (List.range k).map fun i => ⟨n - i, 0x0805 + i, 1, 1, 77 + i, 99⟩
def img (len svn : Nat) (magic part : Nat) : List Byte := bytesOf 4 magic ++ bytesOf 2 1 ++ bytesOf 2 part ++ bytesOf 4 0x20300 ++ bytesOf 4 len ++ bytesOf 4 svn ++ bytesOf 44 0 ++ bytesOf (len - 64) 7

/-- States and operands that meet the hypotheses of each clause of MailboxServesRequests. -/
theorem witness_MailboxServesRequests :
    (∃ (s : State), Quiet s ∧ (flag s F.SBX_MB_STATUS_BUSY = false) ∧ (flag s F.SBX_CTRL_ENABLE = true) ∧ (flag s F.SBX_STATUS_DRAINING = false) ∧ (flag s F.SBX_STATUS_READY = true)
        ∧ (fld s F.PWR_STATUS_STATE ≤ 1)) ∧
    (∃ (s : State), Quiet s ∧ (flag s F.SBX_MB_STATUS_BUSY = true ∨ flag s F.SBX_CTRL_ENABLE = false ∨ flag s F.SBX_STATUS_READY = false)) ∧
    (∃ (s : State), (Asked s 1 [0, 0, 0, 0])) ∧
    (∃ (p : Byte) (s : State), (Asked s 1 [p, 0, 0, 0]) ∧ (2 ≤ p.toNat)) ∧
    (∃ (s : State), (Asked s 2 [])) ∧
    (∃ (from_ : BitVec 32) (m : Byte) (r : LogRec) (t : List LogRec) (s : State), (Asked s 3 (bytesOf 4 from_.toNat ++ [0, m, 0, 0])) ∧ (1 ≤ m.toNat) ∧ (m.toNat ≤ 127) ∧ (s.log = r
        :: t) ∧ (r.seq < 2 ^ 32) ∧ ((r.seq + 2 ^ 32 - from_.toNat) % 2 ^ 32 ≤ t.length) ∧ (t.length < 4096)) ∧
    (∃ (from_ : BitVec 32) (m : Byte) (s : State), (Asked s 3 (bytesOf 4 from_.toNat ++ [0, m, 0, 0])) ∧ (m = 0 ∨ 127 < m.toNat)) ∧
    (∃ (nonce : List Byte) (s : State), Asked s 4 nonce ∧ (nonce.length = 32)) ∧
    (∃ (t : Byte) (s : State), (Asked s 0x20 [t, 0, 0, 0]) ∧ (3 < t.toNat)) ∧
    (∃ (t : Byte) (s : State), (Asked s 0x20 [t, 0, 0, 0]) ∧ (t.toNat ≤ 3) ∧ (flag s F.CLK_CTRL_ENABLE = true) ∧ (flag s F.CLK_STATUS_DRAINING = false) ∧ (s.clk.op = none) ∧
        (pllBlocks s t.toNat = false)) ∧
    (∃ (cmd : Nat) (p : Byte) (pay : List Byte) (s : State), (Asked s cmd (p :: pay)) ∧ (cmd = 1) ∧ (pay.length ≠ 3) ∧ (pay.length < 4080)) ∧
    (∃ (s : State), Quiet s ∧ (flag s F.SBX_MB_STATUS_BUSY = true) ∧ (s.sbx.resp = none) ∧ (mbBytes s 0 2 = bytesOf 2 2) ∧ (mbBytes s 2 2 = [0, 0]) ∧ (mbBytes s 10 6 = bytesOf 6 0)
        ∧ (flag s F.SBX_STATUS_RECOVERY = true)) ∧
    (∃ (s : State), Quiet s ∧ (flag s F.SBX_MB_STATUS_BUSY = false)) ∧
    (∃ (r : MbResp) (s : State), Quiet s ∧ (flag s F.SBX_MB_STATUS_BUSY = true) ∧ (flag s F.SBX_STATUS_READY = true) ∧ (fld s F.PWR_STATUS_STATE ≤ 1) ∧ (s.sbx.resp = some r) ∧
        (s.sbx.due = false) ∧ (r.st < 256) ∧ (r.det < 256) ∧ (r.pay.length ≤ 4080) ∧ (endpointHeld s = false)) ∧
    (∃ (s : State), Quiet s ∧ (blkShut s 0x1C = false) ∧ (s.rst.srcs = [])) ∧
    (∃ (s : State), Quiet s ∧ (blkShut s 0x1C = true)) ∧
    (∃ (s : State), Quiet s ∧ (flag s F.SBX_CTRL_ENABLE = true)) ∧
    (∃ (s : State), Quiet s ∧ (flag s F.SBX_CTRL_ENABLE = false)) ∧
    (∃ (code : BitVec 16) (scope : BitVec 32) (w : MergeWin) (s : State), Quiet s ∧ (s.windows = [w]) ∧ (w.code = code.toNat) ∧ (w.scope = scope.toNat) ∧ (0 < w.count) ∧ ((packItems
        w.items).1 ≤ 16)) ∧
    (∃ (code : BitVec 16) (scope : BitVec 32) (w : MergeWin) (s : State), Quiet s ∧ (s.windows = [w]) ∧ (w.code = code.toNat) ∧ (w.scope = scope.toNat) ∧ (w.count = 0)) ∧
    (∃ (r : LogRec) (t : List LogRec) (s : State), Quiet s ∧ (s.mirrorQ = r :: t) ∧ (s.sbx.flash = true) ∧ (s.sbx.lost = false) ∧ (fwRuns s = true) ∧ (s.sbx.mirror.length < 65024)) ∧
    (∃ (r : LogRec) (t : List LogRec) (s : State), Quiet s ∧ (s.mirrorQ = r :: t) ∧ (s.sbx.flash = true) ∧ (s.sbx.lost = true) ∧ (fwRuns s = true)) ∧
    (∃ (s : State), Quiet s ∧ (s.mirrorQ = [] ∨ s.sbx.flash = false)) :=
  ⟨⟨sb [] {}, by decide +kernel⟩,
   ⟨sb [(F.SBX_MB_STATUS_BUSY, 1)] {}, by decide +kernel⟩,
   ⟨rq 1 [0, 0, 0, 0] [(F.SBX_STATUS_SLOT, 1)] { boots := 9, shSvn := 3 }, by decide +kernel⟩,
   ⟨7, rq 1 [7, 0, 0, 0] [] {}, by decide +kernel⟩,
   ⟨rq 2 [] [(F.THM_Sn_TEMP 3, 0x190)] {}, by decide +kernel⟩,
   ⟨97, 2, ⟨100, 0x0805, 1, 1, 77, 99⟩, (lg 99 9), { rq 3 (bytesOf 4 97 ++ [0, 2, 0, 0]) [] {} with log := ⟨100, 0x0805, 1, 1, 77, 99⟩ :: lg 99 9 }, by decide +kernel⟩,
   ⟨97, 200, rq 3 (bytesOf 4 97 ++ [0, 200, 0, 0]) [] {}, by decide +kernel⟩,
   ⟨bytesOf 32 0x123456789, rq 4 (bytesOf 32 0x123456789) [] { boots := 5 }, by decide +kernel⟩,
   ⟨4, rq 0x20 [4, 0, 0, 0] [] {}, by decide +kernel⟩,
   ⟨2, rq 0x20 [2, 0, 0, 0] [(F.CLK_CTRL_ENABLE, 1)] {}, by decide +kernel⟩,
   ⟨1, 0, [5], rq 1 [0, 5] [] {}, by decide +kernel⟩,
   ⟨rq 2 [] [(F.SBX_STATUS_RECOVERY, 1)] {}, by decide +kernel⟩,
   ⟨sb [] {}, by decide +kernel⟩,
   ⟨⟨4, 5, [1, 2, 3, 4, 5]⟩, rq 2 [] [(F.SBX_STATUS_DRAINING, 1)] { resp := some ⟨4, 5, [1, 2, 3, 4, 5]⟩ }, by decide +kernel⟩,
   ⟨sb [] {}, by decide +kernel⟩,
   ⟨{ sb [] {} with rst := { blkWait := [0x1C] } }, by decide +kernel⟩,
   ⟨sb [] {}, by decide +kernel⟩,
   ⟨sb [(F.SBX_CTRL_ENABLE, 0)] {}, by decide +kernel⟩,
   ⟨0x0802, 3, ⟨0x0802, 3, 8, 1234, [(1, 5)]⟩, { sb [] {} with windows := [⟨0x0802, 3, 8, 1234, [(1, 5)]⟩], log := lg 5 2 }, by decide +kernel⟩,
   ⟨0x0802, 3, ⟨0x0802, 3, 0, 1234, [(1, 5)]⟩, { sb [] {} with windows := [⟨0x0802, 3, 0, 1234, [(1, 5)]⟩], log := lg 5 2 }, by decide +kernel⟩,
   ⟨⟨100, 0x0805, 1, 1, 77, 99⟩, (lg 99 9), { sb [] { mirror := lg 5 4 } with mirrorQ := ⟨100, 0x0805, 1, 1, 77, 99⟩ :: lg 99 9 }, by decide +kernel⟩,
   ⟨⟨100, 0x0805, 1, 1, 77, 99⟩, (lg 99 9), { sb [] { lost := true } with mirrorQ := ⟨100, 0x0805, 1, 1, 77, 99⟩ :: lg 99 9 }, by decide +kernel⟩,
   ⟨sb [] { flash := false }, by decide +kernel⟩⟩

/-- States and operands that meet the hypotheses of each clause of FirmwareFusesAndWatchdog. -/
theorem witness_FirmwareFusesAndWatchdog :
    (∃ (n : BitVec 32) (s : State), (Asked s 0x10 (bytesOf 4 n.toNat)) ∧ (132 ≤ n.toNat) ∧ (n.toNat ≤ 458752) ∧ (s.sbx.flash = true)) ∧
    (∃ (n : BitVec 32) (s : State), (Asked s 0x10 (bytesOf 4 n.toNat)) ∧ (n.toNat < 132 ∨ 458752 < n.toNat)) ∧
    (∃ (x : Update) (l : List Byte) (s : State), (Asked s 0x11 (bytesOf 4 x.got.length ++ l)) ∧ (s.sbx.update = some x) ∧ (4 ≤ l.length) ∧ (l.length ≤ 4076) ∧ (l.length % 4 = 0) ∧
        (x.got.length + l.length ≤ x.len) ∧ (x.len ≤ 458752)) ∧
    (∃ (x : Update) (l : List Byte) (s : State), (Asked s 0x11 (bytesOf 4 x.got.length ++ l)) ∧ (s.sbx.update = some x) ∧ (4 ≤ l.length) ∧ (l.length ≤ 4076) ∧ (l.length % 4 = 0) ∧
        (x.got.length + l.length ≤ x.len) ∧ (x.len ≤ 458752)) ∧
    (∃ (a : Fin 2) (x : Update) (s : State), (Asked s 0x12 [BitVec.ofNat 8 a, 0, 0, 0]) ∧ (s.sbx.update = some x) ∧ (x.got.length = x.len) ∧ (imgNat x.got 0 4 = 0x57464253) ∧
        (imgNat x.got 4 2 = 1) ∧ (imgNat x.got 6 2 = 0x0396) ∧ (imgNat x.got 12 4 = x.len) ∧ (132 ≤ x.len) ∧ (x.len ≤ 458752) ∧ (imgNat x.got 20 44 = 0) ∧ (s.sbx.shSvn ≤ imgNat
        x.got 16 4) ∧ (x.slot < 2) ∧ (s.sbx.due = false)) ∧
    (∃ (a : Fin 2) (x : Update) (s : State), (Asked s 0x12 [BitVec.ofNat 8 a, 0, 0, 0]) ∧ (s.sbx.update = some x) ∧ (x.got.length = x.len) ∧ (imgNat x.got 0 4 ≠ 0x57464253 ∨ (imgNat
        x.got 0 4 = 0x57464253 ∧ imgNat x.got 4 2 = 1 ∧ imgNat x.got 6 2 ≠ 0x0396))) ∧
    (∃ (s : State), Quiet s ∧ (flag s F.SBX_MB_STATUS_BUSY = false)) ∧
    (∃ (v : Word) (s : State), Quiet s) ∧
    (∃ (s : State), Quiet s) ∧
    (∃ (v : BitVec 32) (s : State), (Asked s 0x30 ([2, 0, 4, 0] ++ bytesOf 4 v.toNat)) ∧ (s.sbx.armed = true) ∧ (smGet s.sbx.shadow 2 0 = 0) ∧ (smGet s.sbx.fuses 4 0 = 0) ∧ (smGet
        s.sbx.fuses 5 0 = 0) ∧ (s.sbx.fuseBad = [])) ∧
    (∃ (s : State), (Asked s 0x30 [3, 0, 4, 0, 1, 0, 0, 0]) ∧ (s.sbx.armed = true) ∧ (smGet s.sbx.shadow 3 0 = 0) ∧ (smGet s.sbx.fuses 6 0 = 0) ∧ (smGet s.sbx.fuses 7 0 = 0) ∧
        (s.sbx.fuseBad = []) ∧ (fld s F.DBG_STATUS_LOCKSTATE = 0)) ∧
    (∃ (f : Fin 5) (l : List Byte) (s : State), (Asked s 0x30 ([BitVec.ofNat 8 f, 0, BitVec.ofNat 8 (fieldLen f), 0] ++ l)) ∧ (l.length = fieldLen f) ∧ (0 < f.val) ∧ (f.val ≠ 3) ∧
        (s.sbx.armed = true) ∧ (smGet s.sbx.shadow f 0 ≠ 0)) ∧
    (∃ (v : BitVec 32) (b : Bool) (s : State), (Asked s 0x30 ([2, 0, 4, 0] ++ bytesOf 4 v.toNat)) ∧ (s.sbx.armed = false)) ∧
    (∃ (v : BitVec 32) (s : State), (Asked s 0x30 ([5, 0, 4, 0] ++ bytesOf 4 v.toNat)) ∧ (s.sbx.armed = true) ∧ (v.toNat ≤ 64)) ∧
    (∃ (k : Fin 4) (h : BitVec 256) (s : State), (Asked s 0x31 ([BitVec.ofNat 8 k, 1, 0, 0] ++ bytesOf 32 h.toNat)) ∧ (s.sbx.armed = true) ∧ (slotsHeld s = false) ∧ (s.sbx.keyHeld =
        false) ∧ (keySlot s k = 0) ∧ (smGet s.sbx.fuses (2 * (0x10 + k)) 0 = 0) ∧ (smGet s.sbx.fuses (2 * (0x10 + k) + 1) 0 = 0) ∧ (s.sbx.fuseBad = [])) ∧
    (∃ (k : Fin 4) (h : BitVec 256) (s : State), (Asked s 0x31 ([BitVec.ofNat 8 k, 2, 0, 0] ++ bytesOf 32 h.toNat)) ∧ (s.sbx.armed = true) ∧ (slotsHeld s = false) ∧ (s.sbx.keyHeld =
        false) ∧ (keySlot s k ≠ 2) ∧ (smGet s.sbx.fuses (2 * (0x20 + k)) 0 = 0) ∧ (smGet s.sbx.fuses (2 * (0x20 + k) + 1) 0 = 0) ∧ (s.sbx.fuseBad = [])) ∧
    (∃ (k : Fin 4) (h : BitVec 256) (b : Bool) (s : State), (Asked s 0x31 ([BitVec.ofNat 8 k, 1, 0, 0] ++ bytesOf 32 h.toNat)) ∧ (s.sbx.armed = true) ∧ (keySlot s k ≠ 0)) ∧
    (∃ (k : Fin 4) (h : BitVec 256) (b : Bool) (s : State), (Asked s 0x31 ([BitVec.ofNat 8 k, 1, 0, 0] ++ bytesOf 32 h.toNat)) ∧ (s.sbx.armed = true) ∧ (s.sbx.keyHeld = false) ∧
        (keySlot s k = 0) ∧ (fld s F.CFG_STATUS_RESULT = 1 ∨ fld s F.CFG_STATUS_RESULT = 2)) ∧
    (∃ (k : Fin 4) (h : BitVec 256) (s : State), (Asked s 0x31 ([BitVec.ofNat 8 k, 1, 0, 0] ++ bytesOf 32 h.toNat)) ∧ (s.sbx.keyHeld = true) ∧ (keySlot s k = 0) ∧ (slotsHeld s =
        false) ∧ (smGet s.sbx.fuses (2 * (0x10 + k)) 0 = 0) ∧ (smGet s.sbx.fuses (2 * (0x10 + k) + 1) 0 = 0) ∧ (s.sbx.fuseBad = [])) ∧
    (∃ (s : State), (Asked s 0x40 [0, 0, 0, 0])) ∧
    (∃ (sig : List Byte) (s : State), (Asked s 0x40 ([1, 0, 0, 0] ++ sig)) ∧ (sig.length = 64) ∧ (lockState s ≠ 0) ∧ (s.sbx.nonce = none)) ∧
    (∃ (sig : List Byte) (s : State), (Asked s 0x40 ([1, 0, 0, 0] ++ sig)) ∧ (sig.length = 64) ∧ (lockState s = 0)) ∧
    (∃ (sig : List Byte) (n : Nat) (s : State), (Asked s 0x40 ([1, 0, 0, 0] ++ sig)) ∧ (sig.length = 64) ∧ (lockState s ≠ 0) ∧ (s.sbx.nonce = some n) ∧ (flag s F.DBG_KEYSEL_KEYSEL =
        false)) ∧
    (∃ (s : State), Quiet s) ∧
    (∃ (s : State), Quiet s ∧ (s.sbx.due = true) ∧ (flag s F.SBX_STATUS_READY = false) ∧ (s.sbx.other = false) ∧ (s.sbx.pref < 2)) ∧
    (∃ (s : State), Quiet s ∧ (s.sbx.due = false)) ∧
    (∃ (b : Bool) (s : State), Quiet s ∧ (flag s F.SBX_STATUS_TRIAL = true)) ∧
    (∃ (s : State), Quiet s ∧ (fwRuns s = true) ∧ (flag s F.SBX_MB_STATUS_BUSY = false)) ∧
    (∃ (v : BitVec 16) (s : State), Quiet s ∧ (flag s F.SBX_WDOG_CFG_ENABLE = true) ∧ (v = (if s.sbx.kick then 0xA5A5 else 0x5A5A))) ∧
    (∃ (v : BitVec 16) (s : State), Quiet s ∧ (flag s F.SBX_WDOG_CFG_ENABLE = true) ∧ (v ≠ (if s.sbx.kick then 0xA5A5 else 0x5A5A))) ∧
    (∃ (s : State), Quiet s ∧ (flag s F.SBX_WDOG_CFG_ENABLE = true) ∧ (fld s F.PWR_STATUS_STATE ≤ 1)) ∧
    (∃ (s : State), Quiet s ∧ (flag s F.SBX_WDOG_CFG_ENABLE = true) ∧ (fld s F.PWR_STATUS_STATE ≤ 1) ∧ (fld s F.SBX_WDOG_CFG_ACTION = 0 ∨ fld s F.SBX_WDOG_CFG_ACTION = 3)) ∧
    (∃ (s : State), Quiet s ∧ (flag s F.SBX_WDOG_CFG_ENABLE = false ∨ 2 ≤ fld s F.PWR_STATUS_STATE)) :=
  ⟨⟨300000, rq 0x10 (bytesOf 4 300000) [] { slotA := [1], slotB := [2] }, by decide +kernel⟩,
   ⟨131, rq 0x10 (bytesOf 4 131) [] {}, by decide +kernel⟩,
   ⟨⟨1, 300, [9, 9, 9, 9]⟩, [1, 2, 3, 4], rq 0x11 (bytesOf 4 4 ++ [1, 2, 3, 4]) [(F.SBX_STATUS_UPDATE, 1)] { update := some ⟨1, 300, [9, 9, 9, 9]⟩ }, by decide +kernel⟩,
   ⟨⟨1, 300, [9, 9, 9, 9]⟩, [1, 2, 3, 4], rq 0x11 (bytesOf 4 4 ++ [1, 2, 3, 4]) [(F.SBX_STATUS_UPDATE, 1)] { update := some ⟨1, 300, [9, 9, 9, 9]⟩ }, by decide +kernel⟩,
   ⟨1, ⟨1, 200, img 200 3 0x57464253 0x0396⟩, rq 0x12 [1, 0, 0, 0] [(F.SBX_STATUS_UPDATE, 1)] { shSvn := 3, update := some ⟨1, 200, img 200 3 0x57464253 0x0396⟩ }, by
        decide +kernel⟩,
   ⟨1, ⟨1, 200, img 200 3 0x57464253 0x0397⟩, rq 0x12 [1, 0, 0, 0] [(F.SBX_STATUS_UPDATE, 1)] { update := some ⟨1, 200, img 200 3 0x57464253 0x0397⟩ }, by decide +kernel⟩,
   ⟨sb [] {}, by decide +kernel⟩,
   ⟨0xF05E, sb [] {}, by decide +kernel⟩,
   ⟨sb [] { armed := true }, by decide +kernel⟩,
   ⟨0x12345678, rq 0x30 ([2, 0, 4, 0] ++ bytesOf 4 0x12345678) [] { armed := true }, by decide +kernel⟩,
   ⟨rq 0x30 [3, 0, 4, 0, 1, 0, 0, 0] [(F.DBG_STATUS_LOCKSTATE, 0)] { armed := true }, by decide +kernel⟩,
   ⟨4, bytesOf 32 5, rq 0x30 ([4, 0, 32, 0] ++ bytesOf 32 5) [] { armed := true, shadow := [(4, 9)] }, by decide +kernel⟩,
   ⟨7, true, rq 0x30 ([2, 0, 4, 0] ++ bytesOf 4 7) [] { }, by decide +kernel⟩,
   ⟨7, rq 0x30 ([5, 0, 4, 0] ++ bytesOf 4 7) [] { armed := true, shSvn := 3, svn := 3 }, by decide +kernel⟩,
   ⟨2, 0x77, rq 0x31 ([2, 1, 0, 0] ++ bytesOf 32 0x77) [] { armed := true }, by decide +kernel⟩,
   ⟨2, 0x77, rq 0x31 ([2, 2, 0, 0] ++ bytesOf 32 0x77) [] { armed := true, shadow := [(0x12, 6)] }, by decide +kernel⟩,
   ⟨2, 0x77, true, rq 0x31 ([2, 1, 0, 0] ++ bytesOf 32 0x77) [] { armed := true, shadow := [(0x12, 6)] }, by decide +kernel⟩,
   ⟨2, 0x77, true, rq 0x31 ([2, 1, 0, 0] ++ bytesOf 32 0x77) [(F.CFG_STATUS_RESULT, 1)] { armed := true }, by decide +kernel⟩,
   ⟨2, 0x77, rq 0x31 ([2, 1, 0, 0] ++ bytesOf 32 0x77) [] { keyHeld := true }, by decide +kernel⟩,
   ⟨rq 0x40 [0, 0, 0, 0] [] {}, by decide +kernel⟩,
   ⟨bytesOf 64 5, rq 0x40 ([1, 0, 0, 0] ++ bytesOf 64 5) [(F.DBG_STATUS_LOCKSTATE, 1)] {}, by decide +kernel⟩,
   ⟨bytesOf 64 5, rq 0x40 ([1, 0, 0, 0] ++ bytesOf 64 5) [(F.DBG_STATUS_LOCKSTATE, 0)] {}, by decide +kernel⟩,
   ⟨bytesOf 64 5, 88, rq 0x40 ([1, 0, 0, 0] ++ bytesOf 64 5) [(F.DBG_STATUS_LOCKSTATE, 1)] { nonce := some 88 }, by decide +kernel⟩,
   ⟨sb [] { nonce := some 7 }, by decide +kernel⟩,
   ⟨sb [(F.SBX_STATUS_READY, 0)] { due := true, porStart := true, slotA := img 200 3 0x57464253 0x0396 }, by decide +kernel⟩,
   ⟨sb [(F.SBX_STATUS_READY, 0)] {  }, by decide +kernel⟩,
   ⟨true, sb [(F.SBX_STATUS_TRIAL, 1)] { trial := true }, by decide +kernel⟩,
   ⟨sb [(F.SBX_STATUS_TRIAL, 1)] { trial := true, nonce := some 8 }, by decide +kernel⟩,
   ⟨0x5A5A, sb [(F.SBX_WDOG_CFG_ENABLE, 1)] { }, by decide +kernel⟩,
   ⟨0x5A5A, sb [(F.SBX_WDOG_CFG_ENABLE, 1)] { kick := true }, by decide +kernel⟩,
   ⟨sb [(F.SBX_WDOG_CFG_ENABLE, 1)] { kick := true }, by decide +kernel⟩,
   ⟨sb [(F.SBX_WDOG_CFG_ENABLE, 1)] { kick := true }, by decide +kernel⟩,
   ⟨sb [] { kick := true }, by decide +kernel⟩⟩

/-- States and operands that meet the hypotheses of each clause of RecoveryServesFew. -/
theorem witness_RecoveryServesFew :
    (∃ (p : Byte) (s : State), (AskedInRecovery s 1 [p, 0, 0, 0])) ∧
    (∃ (s : State), (AskedInRecovery s 1 [0, 0, 0, 0])) ∧
    (∃ (f : BitVec 32) (m : Byte) (s : State), (AskedInRecovery s 3 (bytesOf 4 f.toNat ++ [0, m, 0, 0]))) ∧
    (∃ (n : BitVec 32) (s : State), (AskedInRecovery s 0x10 (bytesOf 4 n.toNat))) ∧
    (∃ (pay : List Byte) (bad : Bool) (s : State), AskedInRecovery s 0x11 pay ∧ (8 ≤ pay.length) ∧ (pay.length ≤ 4080) ∧ (pay.length % 4 = 0)) ∧
    (∃ (a : Byte) (s : State), (AskedInRecovery s 0x12 [a, 0, 0, 0]) ∧ (a.toNat ≤ 1)) ∧
    (∃ (s : State), (AskedInRecovery s 2 [])) ∧
    (∃ (f : BitVec 32) (m : Byte) (s : State), (AskedInRecovery s 3 (bytesOf 4 f.toNat ++ [1, m, 0, 0]))) ∧
    (∃ (pay : List Byte) (s : State), AskedInRecovery s 4 pay ∧ (pay.length = 32)) ∧
    (∃ (op : Byte) (s : State), (AskedInRecovery s 0x20 [op, 0, 0, 0])) ∧
    (∃ (f : Byte) (d : List Byte) (good : Bool) (s : State), (AskedInRecovery s 0x30 ([f, 0] ++ bytesOf 2 d.length ++ d)) ∧ (d.length < 4076)) ∧
    (∃ (k a : Byte) (h : List Byte) (good : Bool) (s : State), (AskedInRecovery s 0x31 ([k, a, 0, 0] ++ h)) ∧ (h.length = 32)) ∧
    (∃ (s : State), (AskedInRecovery s 0x40 [0, 0, 0, 0])) ∧
    (∃ (sig : List Byte) (s : State), (AskedInRecovery s 0x40 ([1, 0, 0, 0] ++ sig)) ∧ (sig.length = 64)) :=
  ⟨⟨1, rq 1 [1, 0, 0, 0] [(F.SBX_STATUS_RECOVERY, 1)] {}, by decide +kernel⟩,
   ⟨rq 1 [0, 0, 0, 0] [(F.SBX_STATUS_RECOVERY, 1)] {}, by decide +kernel⟩,
   ⟨97, 2, rq 3 (bytesOf 4 97 ++ [0, 2, 0, 0]) [(F.SBX_STATUS_RECOVERY, 1)] {}, by decide +kernel⟩,
   ⟨1000, rq 0x10 (bytesOf 4 1000) [(F.SBX_STATUS_RECOVERY, 1)] {}, by decide +kernel⟩,
   ⟨bytesOf 12 99, true, rq 0x11 (bytesOf 12 99) [(F.SBX_STATUS_RECOVERY, 1)] {}, by decide +kernel⟩,
   ⟨1, rq 0x12 [1, 0, 0, 0] [(F.SBX_STATUS_RECOVERY, 1)] {}, by decide +kernel⟩,
   ⟨rq 2 [] [(F.SBX_STATUS_RECOVERY, 1)] {}, by decide +kernel⟩,
   ⟨97, 2, rq 3 (bytesOf 4 97 ++ [1, 2, 0, 0]) [(F.SBX_STATUS_RECOVERY, 1)] {}, by decide +kernel⟩,
   ⟨bytesOf 32 7, rq 4 (bytesOf 32 7) [(F.SBX_STATUS_RECOVERY, 1)] {}, by decide +kernel⟩,
   ⟨1, rq 0x20 [1, 0, 0, 0] [(F.SBX_STATUS_RECOVERY, 1)] {}, by decide +kernel⟩,
   ⟨3, bytesOf 8 5, true, rq 0x30 ([3, 0] ++ bytesOf 2 8 ++ bytesOf 8 5) [(F.SBX_STATUS_RECOVERY, 1)] {}, by decide +kernel⟩,
   ⟨1, 2, bytesOf 32 5, true, rq 0x31 ([1, 2, 0, 0] ++ bytesOf 32 5) [(F.SBX_STATUS_RECOVERY, 1)] {}, by decide +kernel⟩,
   ⟨rq 0x40 [0, 0, 0, 0] [(F.SBX_STATUS_RECOVERY, 1)] {}, by decide +kernel⟩,
   ⟨bytesOf 64 5, rq 0x40 ([1, 0, 0, 0] ++ bytesOf 64 5) [(F.SBX_STATUS_RECOVERY, 1)] {}, by decide +kernel⟩⟩

end W19

namespace W20

def ck (l : List (Fld × Nat)) (x : Clock) : State := { base ([(F.CLK_CTRL_ENABLE, 1), (F.CLK_CTRL_FRO_ON, 1), (F.CLK_STATUS_SYSCLK, 0), (F.CLK_STATUS_FROZEN, 0)] ++ l) with clk := x, rst := {} }
def k1 : Clock := { xo := 2, rclk := 1, fro := 0 }

/-- States and operands that meet the hypotheses of each clause of ClocksAreJudgedAndChanged. -/
theorem witness_ClocksAreJudgedAndChanged :
    (∃ (osc : Fin 3) (n : BitVec 24) (s : State), Quiet s ∧ InTolerance s osc n.toNat ∧ (goodWindows s osc < 3) ∧ (osc = 2 → flag s F.CLK_CTRL_FRO_ON = true)) ∧
    (∃ (osc : Fin 3) (n : BitVec 24) (s : State), Quiet s ∧ (¬ InTolerance s osc n.toNat) ∧ (osc = 2 → flag s F.CLK_CTRL_FRO_ON = true)) ∧
    (∃ (n : BitVec 24) (s : State), Quiet s ∧ InTolerance s 0 n.toNat ∧ (s.clk.xo = 3) ∧ (isFollower s = false) ∧ (s.clk.trip = false) ∧ (flag s F.CLK_STATUS_FROZEN = false) ∧ (flag
        s F.CLK_STATUS_SYSCLK = true)) ∧
    (∃ (n : BitVec 24) (s : State), Quiet s ∧ InTolerance s 2 n.toNat ∧ (s.clk.fro = 3) ∧ (flag s F.CLK_STATUS_FROZEN = true) ∧ (s.clk.frozen50 = false) ∧ (flag s
        F.CLK_STATUS_SYSCLK = false)) ∧
    (∃ (s : State), Quiet s ∧ (flag s F.CLK_STATUS_SYSCLK = false) ∧ (flag s F.CLK_STATUS_FROZEN = false) ∧ (fld s F.ANG_STATUS_RT_STATE ≠ 1) ∧ (isFollower s = false) ∧
        (endpointHeld s = false) ∧ (flag s F.CLK_STATUS_XO_FAIL = false)) ∧
    (∃ (s : State), Quiet s ∧ (flag s F.CLK_STATUS_SYSCLK = true ∨ flag s F.CLK_STATUS_FROZEN = true)) ∧
    (∃ (s : State), Quiet s ∧ (flag s F.CLK_STATUS_FROZEN = true) ∧ (s.clk.frozen50 = false)) ∧
    (∃ (s : State), Quiet s ∧ (flag s F.CLK_STATUS_FROZEN = false ∨ s.clk.frozen50 = true)) ∧
    (∃ (s : State), Quiet s ∧ (flag s F.CLK_STATUS_SYSCLK = true) ∧ (s.clk.trip = true) ∧ (s.clk.since = true) ∧ (flag s F.CLK_STATUS_REF_STABLE = true) ∧ (flag s
        F.CLK_STATUS_FROZEN = false)) ∧
    (∃ (s : State), Quiet s ∧ (s.clk.since = false ∨ flag s F.CLK_STATUS_REF_STABLE = false)) ∧
    (∃ (s : State), Quiet s ∧ (isFollower s = true) ∧ (flag s F.CLK_STATUS_SYSCLK = false) ∧ (flag s F.CLK_STATUS_XO_FAIL = false)) ∧
    (∃ (s : State), Quiet s ∧ (isFollower s = false)) ∧
    (∃ (a b again : Bool) (s : State), Quiet s) ∧
    (∃ (n : Fin 24) (s : State), Quiet s ∧ (flag s (F.CLK_FPLLn_EN n) = false) ∧ (pllAbove s n (fld s F.CLK_OP_CURRENT) = false)) ∧
    (∃ (n : Fin 24) (s : State), Quiet s ∧ (flag s (F.CLK_FPLLn_EN n) = false) ∧ (fld s F.CLK_OP_CURRENT = 0) ∧ (200 * fld s (F.CLK_FPLLn_O0 n) < 25 * fld s (F.CLK_FPLLn_M n))) ∧
    (∃ (n : Fin 24) (s : State), Quiet s) ∧
    (∃ (n : Fin 24) (i : Fin 28) (s : State), Quiet s ∧ (i.val = 4 + n.val) ∧ (flag s (F.CLK_FPLLn_EN n) = true)) ∧
    (∃ (i : Fin 28) (s : State), Quiet s ∧ (i.val < 4) ∧ (s.clk.op = none)) ∧
    (∃ (t : BitVec 2) (s : State), Quiet s ∧ (flag s F.CLK_CTRL_ENABLE = true) ∧ (flag s F.CLK_STATUS_DRAINING = false) ∧ (s.clk.op = none) ∧ (pllBlocks s t.toNat = false) ∧
        (t.toNat ≠ fld s F.CLK_OP_CURRENT)) ∧
    (∃ (t : BitVec 2) (s : State), Quiet s ∧ (flag s F.CLK_CTRL_ENABLE = true) ∧ (flag s F.CLK_STATUS_DRAINING = false) ∧ (s.clk.op ≠ none ∨ pllBlocks s t.toNat = true)) ∧
    (∃ (t : BitVec 2) (s : State), Quiet s ∧ (flag s F.CLK_CTRL_ENABLE = false)) ∧
    (∃ (mv : BitVec 12) (t : Nat) (s : State), Quiet s ∧ (s.clk.op = some ⟨t, true, true, false⟩)) ∧
    (∃ (t : Nat) (s : State), Quiet s ∧ (s.clk.op = some ⟨t, true, false, false⟩) ∧ (t < 4) ∧ (flag s F.CLK_STATUS_DRAINING = false)) ∧
    (∃ (t : Nat) (s : State), Quiet s ∧ (s.clk.op = some ⟨t, false, false, false⟩)) ∧
    (∃ (mv : BitVec 12) (t : Nat) (s : State), Quiet s ∧ (s.clk.op = some ⟨t, false, true, false⟩) ∧ (t < 4)) ∧
    (∃ (mv : BitVec 12) (t : Nat) (up : Bool) (s : State), Quiet s ∧ (s.clk.op = some ⟨t, up, true, false⟩) ∧ (t < 4) ∧ (flag s F.CLK_STATUS_DRAINING = false)) ∧
    (∃ (mv : BitVec 12) (s : State), Quiet s ∧ (s.clk.op = none)) ∧
    (∃ (i : Fin 96) (s : State), Quiet s ∧ (flag s F.CLK_STATUS_FROZEN = false) ∧ ((engine s i).gateReq = true)) ∧
    (∃ (i : Fin 96) (s : State), Quiet s ∧ (flag s F.CLK_STATUS_FROZEN = false) ∧ (i.val < 72) ∧ ((region s i).gateReq = true)) ∧
    (∃ (e : Bool) (i : Fin 96) (s : State), Quiet s ∧ (flag s F.CLK_STATUS_FROZEN = true)) ∧
    (∃ (s : State), Quiet s ∧ (flag s F.CLK_CTRL_ENABLE = true)) ∧
    (∃ (s : State), Quiet s ∧ (flag s F.CLK_CTRL_ENABLE = false)) :=
  ⟨⟨0, 777344, ck [] k1, by decide +kernel⟩,
   ⟨0, 777343, ck [] k1, by decide +kernel⟩,
   ⟨781250, ck [(F.CLK_STATUS_SYSCLK, 1), (F.CLK_STATUS_XO_FAIL, 1)] { k1 with xo := 3 }, by decide +kernel⟩,
   ⟨2000, ck [(F.CLK_STATUS_FROZEN, 1)] { k1 with fro := 3, xo := 4, trip := true }, by decide +kernel⟩,
   ⟨ck [(F.CLK_STATUS_FRO_STABLE, 1)] { k1 with fro := 4, xo := 4 }, by decide +kernel⟩,
   ⟨ck [(F.CLK_STATUS_FROZEN, 1)] { k1 with fro := 1, xo := 4 }, by decide +kernel⟩,
   ⟨ck [(F.CLK_STATUS_FROZEN, 1)] { k1 with fro := 1, xo := 4 }, by decide +kernel⟩,
   ⟨ck [] { k1 with fro := 1, xo := 4 }, by decide +kernel⟩,
   ⟨ck [(F.CLK_STATUS_SYSCLK, 1), (F.CLK_STATUS_REF_STABLE, 1)] { k1 with trip := true, since := true }, by decide +kernel⟩,
   ⟨ck [(F.CLK_STATUS_SYSCLK, 1), (F.CLK_STATUS_REF_STABLE, 1)] { k1 with trip := true, since := false }, by decide +kernel⟩,
   ⟨ck [(F.ANG_RTM_ROLE_ROLE, 2)] { k1 with xo := 4 }, by decide +kernel⟩,
   ⟨ck [(F.ANG_RTM_ROLE_ROLE, 1)] { k1 with xo := 4 }, by decide +kernel⟩,
   ⟨true, true, false, ck [(F.GLB_NMI_STATUS_CLKMON, 1), (F.GLB_NMI_STATUS_XOFAIL, 1)] { k1 with xo := 4 }, by decide +kernel⟩,
   ⟨7, ck [(F.CLK_FPLLn_M 7, 64), (F.CLK_FPLLn_O0 7, 8), (F.CLK_FPLLn_O1 7, 8)] k1, by decide +kernel⟩,
   ⟨7, ck [(F.CLK_FPLLn_M 7, 65), (F.CLK_FPLLn_O0 7, 8), (F.CLK_FPLLn_O1 7, 9)] k1, by decide +kernel⟩,
   ⟨7, ck [(F.CLK_FPLLn_EN 7, 1)] k1, by decide +kernel⟩,
   ⟨7, 11, ck [(F.CLK_FPLLn_EN 7, 1)] k1, by decide +kernel⟩,
   ⟨3, ck [(F.CLK_FPLLn_EN 7, 1)] k1, by decide +kernel⟩,
   ⟨3, ck [(F.CLK_OP_CURRENT, 1)] k1, by decide +kernel⟩,
   ⟨0, ck [(F.CLK_OP_CURRENT, 1)] { k1 with op := some ⟨1, true, true, false⟩ }, by decide +kernel⟩,
   ⟨0, ck [(F.CLK_CTRL_ENABLE, 0)] { k1 with op := some ⟨1, true, true, false⟩ }, by decide +kernel⟩,
   ⟨700, 2, ck [] { k1 with op := some ⟨2, true, true, false⟩ }, by decide +kernel⟩,
   ⟨2, ck [] { k1 with op := some ⟨2, true, false, false⟩ }, by decide +kernel⟩,
   ⟨2, ck [(F.CLK_OP_CURRENT, 3)] { k1 with op := some ⟨2, false, false, false⟩ }, by decide +kernel⟩,
   ⟨700, 2, ck [(F.CLK_OP_CURRENT, 3), (F.CLK_STATUS_DRAINING, 1)] { k1 with op := some ⟨2, false, true, false⟩ }, by decide +kernel⟩,
   ⟨700, 2, false, ck [(F.CLK_OP_CURRENT, 3)] { k1 with op := some ⟨2, false, true, false⟩ }, by decide +kernel⟩,
   ⟨700, ck [(F.CLK_OP_CURRENT, 1)] k1, by decide +kernel⟩,
   ⟨77, setEngine (ck [] k1) 77 { gateReq := true }, by decide +kernel⟩,
   ⟨71, setRegion (ck [] k1) 71 { gateReq := true }, by decide +kernel⟩,
   ⟨true, 77, setEngine (ck [(F.CLK_STATUS_FROZEN, 1)] k1) 77 { gateReq := true }, by decide +kernel⟩,
   ⟨ck [] k1, by decide +kernel⟩,
   ⟨ck [(F.CLK_CTRL_ENABLE, 0)] k1, by decide +kernel⟩⟩

end W20

namespace W21

def r0 (x : Rst) (l : List (Fld × Nat)) : State := { base l with rst := x, pwr := {}, sbx := {}, bst := {} }
def rful : State := { setBm (setEngine (r0 { fault := [1, 2] } [(F.MEM_Md_CORR_CORR 2, 5), (F.RST_DIE_HOLD, 3)]) 37 { sp := [(3, 77)], threads := [(2, { pc := 8, g := [(1, 5)] })], win := [⟨2, true, 1, 0x40, 0x123450, 9, 4, true, 3, 0⟩] }) 3 7 { mem := 99, q := [5] } with mem := { cells := [(64, 5)], poison := [(3, 1)] }, sbx := { slotA := [1, 2], shadow := [(4, 7)], nonce := some 5, armed := true } }
def fs0 : Rst := { step := 2 }

/-- States and operands that meet the hypotheses of each clause of ResetSourcesReach. -/
theorem witness_ResetSourcesReach :
    (∃ (s : State), Quiet s ∧ (isOff s = false) ∧ UnitsIdle s ∧ (poweringUp s = false)) ∧
    (∃ (v : Word) (s : State), Quiet s ∧ (isOff s = false) ∧ UnitsIdle s ∧ (poweringUp s = false) ∧ (v.getLsbD 0 = true) ∧ (v.toNat / 2 ^ 16 = 0xC0DE)) ∧
    (∃ (v : Word) (s : State), Quiet s ∧ (v.getLsbD 0 = false ∨ v.toNat / 2 ^ 16 ≠ 0xC0DE)) ∧
    (∃ (s : State), Quiet s ∧ (isOff s = true)) ∧
    (∃ (s : State), Quiet s ∧ HostQuiet s ∧ (s.pci.perst = false) ∧ (isOff s = false)) ∧
    (∃ (s : State), Quiet s ∧ HostQuiet s ∧ (s.pci.hot = false) ∧ (isOff s = false)) ∧
    (∃ (p : Fin 9) (s : State), Quiet s ∧ (bitOf (fld s F.RST_DIE_HOLD) p = false)) ∧
    (∃ (p : Fin 9) (s : State), Quiet s ∧ (bitOf (fld s F.RST_DIE_HOLD) p = true)) ∧
    (∃ (b : Fin 33) (s : State), Quiet s ∧ (b.val ∈ [0x02, 0x05, 0x06, 0x07, 0x08, 0x09, 0x0C, 0x0E, 0x10, 0x11, 0x12, 0x13, 0x14, 0x18, 0x1C, 0x1D, 0x1E, 0x1F, 0x20]) ∧ (b.val ∉
        s.rst.blkWait) ∧ (b.val ∉ s.rst.blkOn)) ∧
    (∃ (x : RstUnit) (k : BitVec 8) (s : State), Quiet s ∧ (waits s x = false)) ∧
    (∃ (n : Fin 96) (s : State), Quiet s ∧ (n.val ∈ s.rst.engWait) ∧ NoneInFlightTo n s) ∧
    (∃ (n : Fin 96) (k : BitVec 8) (s : State), Quiet s ∧ (n.val ∈ s.rst.engWait) ∧ NoneInFlightTo n s) ∧
    (∃ (n m : Fin 96) (q : WinReq) (s : State), Quiet s ∧ (n.val ∈ s.rst.engWait) ∧ (m ≠ n) ∧ (q ∈ (engine s m).win) ∧ (q.pre = 0) ∧ (atEngine n q.addr = true)) ∧
    (∃ (d : Fin 3) (s : State), Quiet s ∧ (3 * d.val + 1 ∈ s.rst.dieWait) ∧ UnitsIdle s) ∧
    (∃ (s : State), Quiet s ∧ (0x10 ∈ s.rst.blkWait)) ∧
    (∃ (b : Fin 33) (s : State), Quiet s ∧ (b.val ∈ s.rst.blkWait)) :=
  ⟨⟨rful, by decide +kernel⟩,
   ⟨0xC0DE0001, rful, by decide +kernel⟩,
   ⟨0xC0DE0002, rful, by decide +kernel⟩,
   ⟨r0 {} [(F.PWR_STATUS_STATE, 4)], by decide +kernel⟩,
   ⟨{ r0 {} [(F.PCI_STATUS_LINK_UP, 1)] with pci := { ready := true, l1 := true }, mem := { cells := [(64, 5)] } }, by decide +kernel⟩,
   ⟨{ r0 {} [(F.PCI_STATUS_LINK_UP, 1)] with pci := { ready := true } }, by decide +kernel⟩,
   ⟨4, r0 {} [(F.RST_DIE_HOLD, 3)], by decide +kernel⟩,
   ⟨4, r0 {} [(F.RST_DIE_HOLD, 0x10)], by decide +kernel⟩,
   ⟨0x18, r0 {} [], by decide +kernel⟩,
   ⟨.engine 5, 7, r0 { engWait := [6] } [], by decide +kernel⟩,
   ⟨37, { rful with rst := { engWait := [37, 3] } }, by decide +kernel⟩,
   ⟨37, 7, { rful with rst := { engWait := [37, 3] } }, by decide +kernel⟩,
   ⟨37, 40, ⟨2, true, 1, 0x40, 0x200250008, 0, 4, true, 3, 0⟩, setEngine { rful with rst := { engWait := [37, 3] } } 40
        { win := [⟨2, true, 1, 0x40, 0x200250008, 0, 4, true, 3, 0⟩] }, by decide +kernel⟩,
   ⟨1, { rful with rst := { dieWait := [4, 3] } }, by decide +kernel⟩,
   ⟨{ rful with rst := { blkWait := [0x10] } }, by decide +kernel⟩,
   ⟨2, r0 { blkWait := [2] } [], by decide +kernel⟩⟩

/-- States and operands that meet the hypotheses of each clause of ReleaseFollowsItsOrder. -/
theorem witness_ReleaseFollowsItsOrder :
    (∃ (b : Fin 33) (s : State), Quiet s ∧ (b.val ∈ s.rst.blkOn) ∧ (b ≠ 0x1C)) ∧
    (∃ (n : Fin 96) (s : State), Quiet s ∧ (n.val ∈ s.rst.engOn)) ∧
    (∃ (x : PulseSource) (k : Nat) (s : State), Quiet s ∧ ((x, k) ∈ [(.wdog, 2), (.swfull, 3), (.ring, 4)]) ∧ (s.rst.srcs = [k]) ∧ Powered s) ∧
    (∃ (x : PulseSource) (k j : Nat) (s : State), Quiet s ∧ ((x, k) ∈ [(.wdog, 2), (.swfull, 3), (.ring, 4)]) ∧ (s.rst.srcs = [k, j]) ∧ (j ≠ k)) ∧
    (∃ (s : State), Quiet s ∧ (s.rst.srcs = [1]) ∧ Powered s) ∧
    (∃ (s : State), Quiet s) ∧
    (∃ (p : Fin 9) (s : State), Quiet s ∧ (bitOf (fld s F.RST_DIE_IN_RESET) p = true) ∧ (p.val % 3 ≠ 0)) ∧
    (∃ (f : BitVec 3) (b : Bool) (k : BitVec 2) (p : Bool) (r : BitVec 72) (s : State), Quiet s ∧ (s.rst.srcs ≠ [] ∨ powerUp s = false)) ∧
    (∃ (f : BitVec 3) (b : Bool) (k : BitVec 2) (p : Bool) (r : BitVec 72) (s : State), Quiet s ∧ (s.rst.srcs = []) ∧ Powered s ∧ (s.rst.step = 3) ∧ (0 ∈ s.clk.plls)) ∧
    (∃ (f : BitVec 3) (b : Bool) (k : BitVec 2) (p : Bool) (r : BitVec 72) (s : State), Quiet s ∧ (s.rst.srcs = []) ∧ Powered s ∧ (s.rst.step = 4) ∧ (flag s F.STK_STATUS_TRAINED =
        true) ∧ (∀ u ∈ s.rst.untested, 3 ≤ u)) ∧
    (∃ (f : BitVec 3) (b : Bool) (k : BitVec 2) (p : Bool) (r : BitVec 72) (s : State), Quiet s ∧ (s.rst.srcs = []) ∧ Powered s ∧ (s.rst.step = 5)) ∧
    (∃ (f : BitVec 3) (b : Bool) (k : BitVec 2) (p : Bool) (r : BitVec 72) (s : State), Quiet s ∧ (s.rst.srcs = []) ∧ Powered s ∧ (s.rst.step = 6)) ∧
    (∃ (f : BitVec 3) (b : Bool) (k : BitVec 2) (p : Bool) (r : BitVec 72) (s : State), Quiet s ∧ (s.rst.srcs = []) ∧ Powered s ∧ (s.rst.step = 7) ∧ (∀ u ∈ s.rst.untested, u < 6) ∧
        (s.bst.startup = [])) ∧
    (∃ (f : BitVec 3) (b : Bool) (k : BitVec 2) (p : Bool) (r : BitVec 72) (s : State), Quiet s ∧ (s.rst.srcs = []) ∧ Powered s ∧ (s.rst.step = 8) ∧ (s.pwr.step ≠ 6)) ∧
    (∃ (f : BitVec 3) (b : Bool) (k : BitVec 2) (p : Bool) (r : BitVec 72) (s : State), Quiet s ∧ (s.rst.srcs = []) ∧ (s.rst.step = 8) ∧ (s.pwr = { step := 6, left := 4 }) ∧ (fld s
        F.PWR_STATUS_PHASE = 2) ∧ (s.engines = []) ∧ (s.regions = [])) ∧
    (∃ (f : BitVec 3) (b : Bool) (k : BitVec 2) (p : Bool) (r : BitVec 72) (s : State), Quiet s ∧ (s.rst.srcs = []) ∧ Powered s ∧ (s.rst.step = 9)) ∧
    (∃ (s : State), Quiet s ∧ (loadRuns s = true)) ∧
    (∃ (s : State), Quiet s ∧ (loadRuns s = true)) ∧
    (∃ (ok : Bool) (s : State), Quiet s ∧ (loadRuns s = false)) :=
  ⟨⟨7, r0 { blkOn := [7, 8] } [(F.RST_BLOCK_GO, 0x180)], by decide +kernel⟩,
   ⟨37, r0 { engOn := [37, 8] } [(F.ENG_n_CTRL_SRESET 37, 1)], by decide +kernel⟩,
   ⟨.wdog, 2, r0 { srcs := [2] } [], by decide +kernel⟩,
   ⟨.wdog, 2, 1, r0 { srcs := [2, 1] } [], by decide +kernel⟩,
   ⟨r0 { srcs := [1] } [], by decide +kernel⟩,
   ⟨{ r0 {} [] with pci := { hot := true } }, by decide +kernel⟩,
   ⟨4, r0 { dieWait := [5] } [(F.RST_DIE_IN_RESET, 0x30), (F.RST_DIE_HOLD, 0x10)], by decide +kernel⟩,
   ⟨1, true, 2, false, 9, r0 { srcs := [1], step := 3 } [], by decide +kernel⟩,
   ⟨1, true, 2, false, 9, { r0 { step := 3 } [] with clk := { plls := [0] } }, by decide +kernel⟩,
   ⟨1, true, 2, false, 9, r0 { step := 4 } [(F.STK_STATUS_TRAINED, 1)], by decide +kernel⟩,
   ⟨1, true, 2, false, 9, r0 { step := 5, fault := [1, 2, 3] } [(F.SBX_STATUS_READY, 1)], by decide +kernel⟩,
   ⟨1, true, 2, false, 9, r0 { step := 6 } [], by decide +kernel⟩,
   ⟨1, true, 2, false, 9, r0 { step := 7 } [], by decide +kernel⟩,
   ⟨1, true, 2, false, 9, r0 { step := 8 } [], by decide +kernel⟩,
   ⟨1, true, 2, false, 9, { r0 { step := 8 } [(F.PWR_STATUS_PHASE, 2), (F.PWR_WAKE_FAIL_CONSEC, 1)] with pwr := { step := 6, left := 4 } }, by decide +kernel⟩,
   ⟨1, true, 2, false, 9, r0 { step := 9 } [], by decide +kernel⟩,
   ⟨{ r0 fs0 [] with sbx := { svn := 5 } }, by decide +kernel⟩,
   ⟨r0 fs0 [], by decide +kernel⟩,
   ⟨true, r0 fs0 [(F.RST_STATUS_FUSE_TRIES, 3)], by decide +kernel⟩⟩

end W21

namespace W22

def pw (l : List (Fld × Nat)) (p : Power) : State := { base ([(F.PWR_CTRL_ENABLE, 1)] ++ l) with pwr := p, rst := {}, sbx := {}, bst := {} }
def pst (n : Nat) : Fld × Nat := (F.PWR_STATUS_STATE, n)
def pph (n : Nat) : Fld × Nat := (F.PWR_STATUS_PHASE, n)

/-- States and operands that meet the hypotheses of each clause of PowerStatesAreEntered. -/
theorem witness_PowerStatesAreEntered :
    (∃ (t : BitVec 3) (s : State), Quiet s ∧ (1 ≤ t.toNat) ∧ (t.toNat ≤ 4) ∧ (flag s F.PWR_CTRL_ENABLE = false)) ∧
    (∃ (t : BitVec 3) (s : State), Quiet s ∧ (1 ≤ t.toNat) ∧ (t.toNat ≤ 4) ∧ (flag s F.PWR_CTRL_ENABLE = true) ∧ (flag s F.PWR_STATUS_DRAINING = false) ∧ (fld s F.PWR_STATUS_STATE ≠
        0 ∨ fld s F.PWR_STATUS_PHASE ≠ 0)) ∧
    (∃ (t : BitVec 3) (s : State), Steady s 0 ∧ (2 ≤ t.toNat) ∧ (t.toNat ≤ 4) ∧ (flag s F.PWR_CTRL_ENABLE = true) ∧ (flag s F.PWR_STATUS_DRAINING = false) ∧ (flag s
        F.DSP_CTRL_ENABLE = true ∨ flag s F.DSP_STATUS_DRAINING = true)) ∧
    (∃ (t : BitVec 3) (s : State), Steady s 0 ∧ (2 ≤ t.toNat) ∧ (t.toNat ≤ 4) ∧ (flag s F.PWR_CTRL_ENABLE = true) ∧ (flag s F.PWR_STATUS_DRAINING = false) ∧ (flag s
        F.DSP_CTRL_ENABLE = false) ∧ (flag s F.DSP_STATUS_DRAINING = false) ∧ (flag s F.ANG_CTRL_ENABLE = true ∨ fld s F.ANG_STATUS_RT_STATE ≠ 0)) ∧
    (∃ (t : BitVec 3) (p : Fin 4) (s : State), Steady s 0 ∧ (2 ≤ t.toNat) ∧ (t.toNat ≤ 4) ∧ (flag s F.PWR_CTRL_ENABLE = true) ∧ (flag s F.PWR_STATUS_DRAINING = false) ∧ (flag s
        F.DSP_CTRL_ENABLE = false) ∧ (flag s F.DSP_STATUS_DRAINING = false) ∧ (flag s F.ANG_CTRL_ENABLE = false) ∧ (fld s F.ANG_STATUS_RT_STATE = 0) ∧ (fld s (F.WNG_Pp_STATUS_STATE
        p) ≠ 0)) ∧
    (∃ (t : BitVec 3) (k : Fin 16) (s : State), Steady s 0 ∧ (2 ≤ t.toNat) ∧ (t.toNat ≤ 4) ∧ (flag s F.PWR_CTRL_ENABLE = true) ∧ (flag s F.PWR_STATUS_DRAINING = false) ∧ (flag s
        F.DSP_CTRL_ENABLE = false) ∧ (flag s F.DSP_STATUS_DRAINING = false) ∧ (flag s F.ANG_CTRL_ENABLE = false) ∧ (fld s F.ANG_STATUS_RT_STATE = 0) ∧ (∀ p : Fin 4, fld s
        (F.WNG_Pp_STATUS_STATE p) = 0) ∧ (flag s (F.HWN_RINGk_CTRL_ENABLE k) = true)) ∧
    (∃ (s : State), Steady s 0 ∧ (flag s F.PWR_CTRL_ENABLE = true) ∧ (flag s F.PWR_STATUS_DRAINING = false)) ∧
    (∃ (t : BitVec 3) (s : State), Steady s 0 ∧ (2 ≤ t.toNat) ∧ (t.toNat ≤ 4) ∧ (flag s F.PWR_CTRL_ENABLE = true) ∧ (flag s F.PWR_STATUS_DRAINING = false) ∧ MayRest s) ∧
    (∃ (s : State), Steady s 0) ∧
    (∃ (s : State), Steady s 1 ∧ (bitOf (fld s F.PWR_WAKE_EN_SOURCES) 5 = true)) ∧
    (∃ (ok eng : Bool) (s : State), Quiet s ∧ (fld s F.PWR_STATUS_PHASE ≠ 1)) ∧
    (∃ (t : Nat) (eng : Bool) (s : State), Entering s t 1) ∧
    (∃ (ok eng : Bool) (s : State), Entering s 1 2 ∧ (flag s F.PWR_STATUS_DRAINING = false)) ∧
    (∃ (ok eng : Bool) (t : Nat) (s : State), Entering s t 2 ∧ (2 ≤ t)) ∧
    (∃ (ok eng : Bool) (s : State), Entering s 2 3 ∧ (flag s F.PWR_STATUS_DRAINING = false) ∧ (mayStop s = true)) ∧
    (∃ (ok eng : Bool) (t : Nat) (s : State), Entering s t 3 ∧ (mayStop s = false)) ∧
    (∃ (ok eng : Bool) (t : Nat) (s : State), Entering s t 3 ∧ (t = 3 ∨ t = 4) ∧ (mayStop s = true)) ∧
    (∃ (ok eng : Bool) (s : State), Entering s 3 4 ∧ (flag s F.PWR_STATUS_DRAINING = true)) ∧
    (∃ (ok eng : Bool) (s : State), Entering s 4 5 ∧ UnitsIdle s) ∧
    (∃ (ok eng : Bool) (s : State), Quiet s ∧ (fld s F.PWR_STATUS_PHASE = 1) ∧ (s.pwr = { target := 3, step := 4, late := true, closed := true }) ∧ (flag s F.PWR_STATUS_DRAINING =
        false)) ∧
    (∃ (s : State), Quiet s ∧ (flag s F.PWR_CTRL_ENABLE = true) ∧ (fld s F.PWR_STATUS_PHASE ≠ 1)) ∧
    (∃ (s : State), Quiet s ∧ (flag s F.PWR_CTRL_ENABLE = true) ∧ (fld s F.PWR_STATUS_PHASE = 1)) :=
  ⟨⟨1, pw [(F.PWR_CTRL_ENABLE, 0)] {}, by decide +kernel⟩,
   ⟨2, pw [pst 1] {}, by decide +kernel⟩,
   ⟨2, pw [(F.DSP_CTRL_ENABLE, 1)] {}, by decide +kernel⟩,
   ⟨3, pw [(F.ANG_STATUS_RT_STATE, 2)] {}, by decide +kernel⟩,
   ⟨4, 2, pw [(F.WNG_Pp_STATUS_STATE 2, 3)] {}, by decide +kernel⟩,
   ⟨4, 9, pw [(F.HWN_RINGk_CTRL_ENABLE 9, 1)] {}, by decide +kernel⟩,
   ⟨pw [(F.DSP_CTRL_ENABLE, 1)] {}, by decide +kernel⟩,
   ⟨2, pw [] {}, by decide +kernel⟩,
   ⟨pw [] {}, by decide +kernel⟩,
   ⟨pw [pst 1] {}, by decide +kernel⟩,
   ⟨true, false, pw [pst 1] {}, by decide +kernel⟩,
   ⟨3, true, pw [pph 1] { target := 3, step := 1 }, by decide +kernel⟩,
   ⟨true, false, { pw [pph 1, (F.CLK_FPLLn_LOCKED 5, 1)] { target := 1, step := 2, closed := true } with clk := { plls := [0, 1] } }, by decide +kernel⟩,
   ⟨true, false, 3, { pw [pph 1, (F.CLK_FPLLn_LOCKED 5, 1)] { target := 3, step := 2, closed := true } with clk := { plls := [0, 1] } }, by decide +kernel⟩,
   ⟨true, false, { pw [pph 1, (F.CLK_FPLLn_LOCKED 5, 1)] { target := 2, step := 3, closed := true } with clk := { plls := [0, 1] } }, by decide +kernel⟩,
   ⟨true, false, 3, pw [pph 1, (F.SBX_MB_STATUS_BUSY, 1)] { target := 3, step := 3 }, by decide +kernel⟩,
   ⟨true, false, 3, { pw [pph 1, (F.CLK_FPLLn_LOCKED 5, 1)] { target := 3, step := 3, closed := true } with clk := { plls := [0, 1] } }, by decide +kernel⟩,
   ⟨true, false, pw [pph 1, (F.PWR_STATUS_DRAINING, 1)] { target := 3, step := 4 }, by decide +kernel⟩,
   ⟨true, false, { pw [pph 1, (F.PWR_RAILS_EN, 15)] { target := 4, step := 5 } with rst := { fault := [0, 3] } }, by decide +kernel⟩,
   ⟨true, false, pw [pph 1] { target := 3, step := 4, late := true, closed := true }, by decide +kernel⟩,
   ⟨pw [] {}, by decide +kernel⟩,
   ⟨pw [pph 1] {}, by decide +kernel⟩⟩

/-- States and operands that meet the hypotheses of each clause of WakesRunAndFail. -/
theorem witness_WakesRunAndFail :
    (∃ (s : State), Steady s 1) ∧
    (∃ (s : State), Steady s 2) ∧
    (∃ (s : State), Steady s 3) ∧
    (∃ (s : State), Steady s 4 ∧ (s.pwr.armed = true)) ∧
    (∃ (s : State), Steady s 4 ∧ (s.pwr.armed = false)) ∧
    (∃ (s : State), Steady s 4) ∧
    (∃ (s : State), Quiet s ∧ (fld s F.PWR_STATUS_STATE ≠ 4)) ∧
    (∃ (s : State), Steady s 0) ∧
    (∃ (s : State), Steady s 3 ∧ (bitOf (fld s F.PWR_WAKE_EN_SOURCES) 2 = true)) ∧
    (∃ (s : State), Steady s 3 ∧ (bitOf (fld s F.PWR_WAKE_EN_SOURCES) 2 = true) ∧ (s.pci.perst = true)) ∧
    (∃ (s : State), Steady s 1 ∧ (bitOf (fld s F.PWR_WAKE_EN_SOURCES) 3 = true) ∧ (fld s F.PWR_WAKE_TIMER_PERIODS ≠ 0)) ∧
    (∃ (s : State), Quiet s ∧ (fld s F.PWR_WAKE_TIMER_PERIODS = 0 ∨ bitOf (fld s F.PWR_WAKE_EN_SOURCES) 3 = false)) ∧
    (∃ (left k : Nat) (s : State), Waking s left k ∧ (1 ≤ left) ∧ (left ≤ 3) ∧ (fld s F.PWR_STATUS_STATE = left)) ∧
    (∃ (t : Nat) (s : State), Entering s t 1 ∧ (1 ≤ t) ∧ (t ≤ 4) ∧ (fld s F.PWR_STATUS_STATE = 0)) ∧
    (∃ (k : Fin 3) (s : State), (Waking s 4 (k + 1))) ∧
    (∃ (s : State), Waking s 4 4) ∧
    (∃ (s : State), Waking s 4 5 ∧ (s.rst.srcs = []) ∧ (flag s F.RST_STATUS_FUSE_DONE = false)) ∧
    (∃ (s : State), Waking s 3 7) ∧
    (∃ (left : Nat) (s : State), Waking s left 8) ∧
    (∃ (left : Nat) (s : State), Waking s left 9 ∧ (0 ∈ s.clk.plls)) ∧
    (∃ (left : Nat) (s : State), Waking s left 10) ∧
    (∃ (left : Nat) (s : State), Waking s left 11 ∧ (1 ∈ s.clk.plls) ∧ (∀ n : Fin 24, flag s (F.CLK_FPLLn_EN n) = true → flag s (F.CLK_FPLLn_LOCKED n) = true) ∧ (s.engines = []) ∧
        (s.regions = [])) ∧
    (∃ (k : Fin 3) (s : State), (Waking s 4 (k + 1)) ∧ UnitsIdle s ∧ (fld s F.PWR_WAKE_FAIL_CONSEC < 2)) ∧
    (∃ (s : State), Waking s 1 11 ∧ (1 ∉ s.clk.plls) ∧ (fld s F.PWR_WAKE_FAIL_CONSEC < 2)) ∧
    (∃ (left : Nat) (s : State), Waking s left 8 ∧ (flag s F.CLK_STATUS_FRO_STABLE = false) ∧ (fld s F.PWR_WAKE_FAIL_CONSEC = 2) ∧ UnitsIdle s ∧ (fld s F.PWR_STATUS_STATE ≠ 4)) ∧
    (∃ (i : Fin 4) (s : State), Quiet s ∧ (fld s F.PWR_STATUS_STATE ≠ 4) ∧ (bitOf (fld s F.PWR_RAILS_EN) i = true) ∧ UnitsIdle s) ∧
    (∃ (i : Fin 4) (s : State), Quiet s ∧ (fld s F.PWR_STATUS_STATE = 4 ∨ bitOf (fld s F.PWR_RAILS_EN) i = false)) :=
  ⟨⟨pw [pst 1] {}, by decide +kernel⟩,
   ⟨pw [pst 2] {}, by decide +kernel⟩,
   ⟨pw [pst 3] {}, by decide +kernel⟩,
   ⟨pw [pst 4] { armed := true }, by decide +kernel⟩,
   ⟨pw [pst 4] {}, by decide +kernel⟩,
   ⟨pw [pst 4] {}, by decide +kernel⟩,
   ⟨pw [pst 3] {}, by decide +kernel⟩,
   ⟨pw [(F.PWR_WAKE_TIMER_PERIODS, 5)] {}, by decide +kernel⟩,
   ⟨pw [pst 3] {}, by decide +kernel⟩,
   ⟨{ pw [pst 3] {} with pci := { perst := true } }, by decide +kernel⟩,
   ⟨pw [pst 1, (F.PWR_WAKE_TIMER_PERIODS, 5)] {}, by decide +kernel⟩,
   ⟨pw [pst 1] {}, by decide +kernel⟩,
   ⟨2, 8, pw [pst 2, pph 2] { left := 2, step := 8 }, by decide +kernel⟩,
   ⟨3, pw [pph 1] { target := 3, step := 1, closed := true }, by decide +kernel⟩,
   ⟨0, pw [pst 4, pph 2, (F.PWR_RAILS_EN, 1)] { left := 4, step := 1 }, by decide +kernel⟩,
   ⟨pw [pst 4, pph 2] { left := 4, step := 4 }, by decide +kernel⟩,
   ⟨pw [pst 4, pph 2] { left := 4, step := 5 }, by decide +kernel⟩,
   ⟨{ pw [pst 3, pph 2] { left := 3, step := 7 } with clk := { fro := 4 } }, by decide +kernel⟩,
   ⟨2, pw [pst 2, pph 2, (F.CLK_STATUS_FRO_STABLE, 1)] { left := 2, step := 8 }, by decide +kernel⟩,
   ⟨2, { pw [pst 2, pph 2, (F.CLK_STATUS_SYSCLK, 1), (F.CLK_STATUS_REF_STABLE, 1)] { left := 2, step := 9 } with clk := { plls := [0] } }, by decide +kernel⟩,
   ⟨2, pw [pst 2, pph 2] { left := 2, step := 10 }, by decide +kernel⟩,
   ⟨1, { pw [pst 1, pph 2, (F.CLK_FPLLn_EN 5, 1), (F.CLK_FPLLn_LOCKED 5, 1)] { left := 1, step := 11 } with clk := { plls := [1] } }, by decide +kernel⟩,
   ⟨0, pw [pst 4, pph 2, (F.PWR_RAILS_EN, 1)] { left := 4, step := 1 }, by decide +kernel⟩,
   ⟨{ pw [pst 1, pph 2, (F.CLK_FPLLn_LOCKED 5, 1)] { left := 1, step := 11 } with clk := { plls := [0] } }, by decide +kernel⟩,
   ⟨2, { pw [pst 2, pph 2, (F.PWR_WAKE_FAIL_CONSEC, 2)] { left := 2, step := 8 } with rst := { fault := [0, 1] } }, by decide +kernel⟩,
   ⟨2, pw [(F.PWR_RAILS_EN, 15)] {}, by decide +kernel⟩,
   ⟨2, pw [(F.PWR_RAILS_EN, 11)] {}, by decide +kernel⟩⟩

end W22

namespace W23

def pw (l : List (Fld × Nat)) : State := { base l with pwr := {}, rst := {}, sbx := {}, bst := {} }
def tst (u st : Nat) (mode : Bool) (a b bank : Nat) (l : List (Fld × Nat)) : State :=
  { pw ([(F.BST_CTRL_ENABLE, 1), (F.BST_STATUS_STARTUP_DONE, 1), (F.BST_Uu_STATUS_STATE u, st), (F.BST_Uu_CMD_GO u, 1), (F.BST_STATUS_RUNNING, 2 ^ u), (F.BST_Uu_STATUS_BANK u, bank)] ++ l) with bst := { cmd := [(u, b2n mode + 2 * a + 512 * b)], fails := [(u, 3)] } }

/-- States and operands that meet the hypotheses of each clause of ThermalRoundsAndTrips. -/
theorem witness_ThermalRoundsAndTrips :
    (∃ (t : Fin 20 → BitVec 16) (iv : BitVec 9) (v : List (BitVec 16)) (vio : List (BitVec 12)) (s : State), RoundsRun s ∧ GoodSensors t s) ∧
    (∃ (t : Fin 20 → BitVec 16) (k : Fin 20) (iv : BitVec 9) (v : List (BitVec 16)) (vio : List (BitVec 12)) (s : State), RoundsRun s ∧ GoodSensors t s ∧ NoRates s ∧ ((fld s
        F.THM_LIMITS_CRIT * 16 : Int) ≤ (t k).toInt) ∧ (∀ n : Fin 20, (t n).toInt < 16 * min (fld s F.THM_LIMITS_TRIP : Int) 120) ∧ (fld s F.THM_STATUS_STATE ≠ 3) ∧ (flag s
        F.THM_STATUS_DRAINING = false)) ∧
    (∃ (t : Fin 20 → BitVec 16) (iv : BitVec 9) (v : List (BitVec 16)) (vio : List (BitVec 12)) (s : State), RoundsRun s ∧ GoodSensors t s ∧ NoRates s ∧ (∀ n : Fin 20, (t n).toInt <
        16 * (fld s F.THM_LIMITS_WARN : Int) ∧ (t n).toInt < 16 * (fld s F.THM_LIMITS_CRIT : Int) ∧ (t n).toInt < 16 * min (fld s F.THM_LIMITS_TRIP : Int) 120) ∧ (fld s
        F.THM_STATUS_STATE = 0) ∧ (s.thm.hot < 2)) ∧
    (∃ (t : Fin 20 → BitVec 16) (k : Fin 20) (iv : BitVec 9) (v : List (BitVec 16)) (vio : List (BitVec 12)) (s : State), RoundsRun s ∧ GoodSensors t s ∧ (16 * min (fld s
        F.THM_LIMITS_TRIP : Int) 120 ≤ (t k).toInt) ∧ (1 ≤ s.thm.hot) ∧ (fld s F.THM_STATUS_STATE ≠ 3) ∧ (fld s F.DSP_STATUS_BSTOP = 0)) ∧
    (∃ (x : RoundIn) (s : State), Quiet s ∧ (2 ≤ fld s F.PWR_STATUS_STATE ∨ flag s F.CLK_STATUS_FROZEN = true)) ∧
    (∃ (s : State), Quiet s ∧ (flag s F.THM_CTRL_ENABLE = true)) ∧
    (∃ (t : Fin 20 → BitVec 16) (iv : BitVec 9) (v : List (BitVec 16)) (vio : List (BitVec 12)) (s : State), RoundsRun s ∧ (flag s F.THM_STATUS_DRAINING = true)) ∧
    (∃ (s : State), Quiet s ∧ UnitsIdle s ∧ (fld s F.THM_STATUS_STATE = 3) ∧ (fld s F.PWR_STATUS_STATE ≠ 4)) ∧
    (∃ (s : State), Quiet s ∧ (fld s F.THM_STATUS_STATE ≠ 3)) ∧
    (∃ (l : List (Option (BitVec 16))) (s : State), Quiet s ∧ (fld s F.PWR_STATUS_STATE ≠ 2) ∧ (fld s F.PWR_STATUS_STATE ≠ 3)) ∧
    (∃ (t : Fin 20 → BitVec 16) (k : Fin 20) (s : State), Quiet s ∧ (fld s F.PWR_STATUS_STATE = 2 ∨ fld s F.PWR_STATUS_STATE = 3) ∧ GoodSensors t s ∧ (16 * min (fld s
        F.THM_LIMITS_TRIP : Int) 120 ≤ (t k).toInt) ∧ (s.thm.hot = 0)) ∧
    (∃ (t : Fin 20 → BitVec 16) (k : Fin 20) (s : State), Quiet s ∧ UnitsIdle s ∧ (fld s F.PWR_STATUS_STATE = 2 ∨ fld s F.PWR_STATUS_STATE = 3) ∧ GoodSensors t s ∧ (16 * min (fld s
        F.THM_LIMITS_TRIP : Int) 120 ≤ (t k).toInt) ∧ (1 ≤ s.thm.hot)) :=
  ⟨⟨(fun n => BitVec.ofNat 16 (400 + 8 * n.val)), 77, [5, 6], [], pw [], by decide +kernel⟩,
   ⟨(fun n => if n.val = 7 then 1700 else 400), 7, 77, [5, 6], [], pw [(F.THM_LIMITS_WARN, 95), (F.THM_LIMITS_CRIT, 105), (F.THM_LIMITS_TRIP, 115), (F.THM_CTRL_ENABLE, 1)], by
        decide +kernel⟩,
   ⟨(fun n => BitVec.ofNat 16 (400 + 8 * n.val)), 77, [5, 6], [], pw [(F.THM_LIMITS_WARN, 95), (F.THM_LIMITS_CRIT, 105), (F.THM_LIMITS_TRIP, 115), (F.THM_CTRL_ENABLE, 1)], by
        decide +kernel⟩,
   ⟨(fun n => if n.val = 7 then 1900 else 400), 7, 77, [5, 6], [],
        { pw [(F.DSP_STATUS_BSTOP, 0), (F.THM_LIMITS_WARN, 95), (F.THM_LIMITS_CRIT, 105), (F.THM_LIMITS_TRIP, 115)] with thm := { hot := 1 } }, by decide +kernel⟩,
   ⟨⟨[], 0, [], [], []⟩, pw [(F.PWR_STATUS_STATE, 2)], by decide +kernel⟩,
   ⟨pw [(F.THM_CTRL_ENABLE, 1)], by decide +kernel⟩,
   ⟨(fun n => if n.val = 7 then 1700 else 400), 77, [5, 6], [], pw [(F.THM_LIMITS_WARN, 95), (F.THM_LIMITS_CRIT, 105), (F.THM_LIMITS_TRIP, 115), (F.THM_CTRL_ENABLE, 1),
        (F.THM_STATUS_DRAINING, 1)], by decide +kernel⟩,
   ⟨{ pw [(F.THM_STATUS_STATE, 3)] with rst := { fault := [0, 1] } }, by decide +kernel⟩,
   ⟨pw [], by decide +kernel⟩,
   ⟨[], pw [], by decide +kernel⟩,
   ⟨(fun n => if n.val = 7 then 1900 else 400), 7, pw [(F.THM_LIMITS_WARN, 95), (F.THM_LIMITS_CRIT, 105), (F.THM_LIMITS_TRIP, 115), (F.PWR_STATUS_STATE, 2)], by decide +kernel⟩,
   ⟨(fun n => if n.val = 7 then 1900 else 400), 7,
        { pw [(F.THM_LIMITS_WARN, 95), (F.THM_LIMITS_CRIT, 105), (F.THM_LIMITS_TRIP, 115), (F.PWR_STATUS_STATE, 3)] with thm := { hot := 1 } }, by decide +kernel⟩⟩

/-- States and operands that meet the hypotheses of each clause of SelfTestsRun. -/
theorem witness_SelfTestsRun :
    (∃ (u : Fin 9) (alg mode : Bool) (bg : BitVec 2) (first last : BitVec 8) (r : Nat) (s : State), Quiet s ∧ (r = (if flag s F.BST_CTRL_ENABLE = false ∨ flag s
        F.BST_STATUS_DRAINING = true then 1 else if unitState s u ≠ 0 then 2 else if flag s F.BST_STATUS_STARTUP_DONE = false then 3 else if last.toNat < first.toNat ∨ [64, 64, 64,
        24, 24, 24, 256, 256, 256][u] ≤ last.toNat then 4 else 0)) ∧ (r ≠ 0)) ∧
    (∃ (u : Fin 9) (e : Fin 32) (alg : Bool) (bg : BitVec 2) (s : State), Quiet s ∧ (6 ≤ u.val) ∧ (flag s F.BST_CTRL_ENABLE = true) ∧ (flag s F.BST_STATUS_DRAINING = false) ∧
        (unitState s u = 0) ∧ (flag s F.BST_STATUS_STARTUP_DONE = true) ∧ (flag s (F.ENG_n_CTRL_ENABLE (32 * (u.val - 6) + e.val)) = true)) ∧
    (∃ (u : Fin 9) (alg : Bool) (bg : BitVec 2) (first last : BitVec 8) (s : State), Quiet s ∧ (u.val / 3 ≠ 1) ∧ (flag s F.BST_CTRL_ENABLE = true) ∧ (flag s F.BST_STATUS_DRAINING =
        false) ∧ (unitState s u = 0) ∧ (flag s F.BST_STATUS_STARTUP_DONE = true) ∧ (first.toNat ≤ last.toNat) ∧ (last.toNat < 64)) ∧
    (∃ (u : Fin 9) (alg : Bool) (bg : BitVec 2) (b : BitVec 8) (s : State), Quiet s ∧ (u.val / 3 = 1) ∧ (flag s F.BST_CTRL_ENABLE = true) ∧ (flag s F.BST_STATUS_DRAINING = false) ∧
        (unitState s u = 0) ∧ (flag s F.BST_STATUS_STARTUP_DONE = true) ∧ (b.toNat < 24) ∧ (fld s (F.FAB_REGr_STATUS_STATE (24 * (u.val - 3) + b.toNat)) = 0)) ∧
    (∃ (u : Fin 9) (mode : Bool) (a b : Nat) (s : State), Testing s u 1 mode a b) ∧
    (∃ (u : Fin 9) (a b : Nat) (s : State), Testing s u 2 false a b) ∧
    (∃ (u : Fin 9) (a b : Nat) (s : State), Testing s u 2 true a b ∧ (u.val < 3) ∧ (b < 64) ∧ (fld s (F.BST_Uu_STATUS_BANK u) = b)) ∧
    (∃ (u : Fin 9) (k : BitVec 8) (row : BitVec 14) (bit : BitVec 15) (a b : Nat) (s : State), Testing s u 2 false a b ∧ (fld s (F.BST_Uu_STATUS_BANK u) = k.toNat) ∧ (flag s
        F.BST_CTRL_AUTO_REPAIR = false) ∧ (s.bst.queue.length < 256)) ∧
    (∃ (u : Fin 9) (k : BitVec 8) (row : BitVec 14) (bit : BitVec 15) (a b : Nat) (s : State), Testing s u 2 false a b ∧ (fld s (F.BST_Uu_STATUS_BANK u) = k.toNat) ∧ (flag s
        F.BST_CTRL_AUTO_REPAIR = true) ∧ (s.bst.queue.length < 256) ∧ (s.bst.soft = []) ∧ (s.bst.fused = [])) ∧
    (∃ (u : Fin 9) (a b : Nat) (s : State), Testing s u 3 false a b) ∧
    (∃ (u : Fin 9) (a b : Nat) (s : State), Testing s u 4 false a b ∧ (u.val / 3 ≠ 1) ∧ (fld s (F.BST_Uu_STATUS_BANK u) < b) ∧ (dieInReset s (unitPos u) = false)) ∧
    (∃ (u : Fin 9) (a b : Nat) (s : State), Testing s u 4 false a b ∧ (fld s (F.BST_Uu_STATUS_BANK u) = b) ∧ (dieInReset s (unitPos u) = false)) ∧
    (∃ (u : Fin 9) (l : List (BitVec 8 × BitVec 14 × BitVec 15)) (s : State), Quiet s ∧ (unitState s u = 0)) ∧
    (∃ (s : State), Quiet s ∧ (s.bst.queue.length ≤ 256)) ∧
    (∃ (s : State), Quiet s ∧ (flag s F.BST_CTRL_ENABLE = true)) :=
  ⟨⟨4, true, false, 1, 2, 3, 1, pw [(F.BST_CTRL_ENABLE, 0)], by decide +kernel⟩,
   ⟨7, 5, true, 1, pw [(F.BST_CTRL_ENABLE, 1), (F.BST_STATUS_STARTUP_DONE, 1), (F.ENG_n_CTRL_ENABLE 37, 1)], by decide +kernel⟩,
   ⟨1, true, 2, 3, 9, pw [(F.BST_CTRL_ENABLE, 1), (F.BST_STATUS_STARTUP_DONE, 1)], by decide +kernel⟩,
   ⟨4, true, 1, 7, pw [(F.BST_CTRL_ENABLE, 1), (F.BST_STATUS_STARTUP_DONE, 1)], by decide +kernel⟩,
   ⟨4, true, 3, 9, tst 4 1 true 3 9 5 [], by decide +kernel⟩,
   ⟨1, 3, 9, tst 1 2 false 3 9 5 [], by decide +kernel⟩,
   ⟨1, 3, 9, { tst 1 2 true 3 9 9 [] with mem := { cells := [(64 * (73 * 2 ^ 14) + 5, 7)], poison := [(73 * 2 ^ 14, 1)] } }, by decide +kernel⟩,
   ⟨7, 9, 77, 5, 3, 9, tst 7 2 false 3 9 9 [(F.BST_CTRL_AUTO_REPAIR, 0)], by decide +kernel⟩,
   ⟨7, 9, 77, 5, 3, 9, tst 7 2 false 3 9 9 [(F.BST_CTRL_AUTO_REPAIR, 1)], by decide +kernel⟩,
   ⟨7, 3, 9, tst 7 3 false 3 9 9 [], by decide +kernel⟩,
   ⟨7, 3, 9, tst 7 4 false 3 9 5 [], by decide +kernel⟩,
   ⟨7, 3, 9, tst 7 4 false 3 9 9 [], by decide +kernel⟩,
   ⟨7, [], pw [], by decide +kernel⟩,
   ⟨{ pw [(F.BST_RESULT_COUNT_COUNT, 2)] with bst := { queue := [5, 6] } }, by decide +kernel⟩,
   ⟨pw [(F.BST_CTRL_ENABLE, 1)], by decide +kernel⟩⟩

end W23

namespace W24

def db (l : List (Fld × Nat)) (d : Dbg) : State := { base ([(F.DBG_CTRL_ENABLE, 1), (F.DBG_STATUS_LOCKSTATE, 0)] ++ l) with dbg := d, pwr := {}, rst := {}, sbx := {} }
def acc0 : DbgAcc := ⟨0x123, 255, false, 7, 0, false, true⟩
def dth (l : List (Fld × Nat)) (x : Thread) : State := setEngine (db ([(F.ENG_n_STATUS_THREADS 37, 0x10)] ++ l) {}) 37 { threads := [(2, x)], sp := [(32, (0xC0000000 + 4 * 2 ^ 14) * 2 ^ 32 + 7)] }
def drg (l : List (Fld × Nat)) (x : Region) : State := setRegion (db ([(F.FAB_REGr_STATUS_STATE 29, 3), (F.FAB_REGr_CLK_EN 29, 15), (F.CLK_FPLLn_EN 8, 1), (F.CLK_FPLLn_LOCKED 8, 1)] ++ l) {}) 29 x
def frv (a f : Nat) (bad : Nat) : Nat := let v := a + f * 2 ^ 32; v + (crc32c 2052 v + bad) % 2 ^ 32 * 2 ^ 16416
def drf (v : Nat) (l : List (Fld × Nat)) : State := db (((List.range 514).map fun i => (F.DBG_FRAMEi_WORD i, v / 2 ^ (32 * i) % 2 ^ 32)) ++ l) {}
def xa : AccIn := ⟨0, [], 0, false, 0, 0, 0, 0⟩

/-- States and operands that meet the hypotheses of each clause of TapScansAndAccesses. -/
theorem witness_TapScansAndAccesses :
    (∃ (s : State), Quiet s) ∧
    (∃ (s : State), Quiet s) ∧
    (∃ (d : BitVec 898) (s : State), Quiet s) ∧
    (∃ (d : BitVec 898) (s : State), Quiet s ∧ MayScan s) ∧
    (∃ (d : BitVec 898) (s : State), Quiet s ∧ (¬ MayScan s)) ∧
    (∃ (c : BitVec 8) (s : State), Quiet s ∧ (c.toNat ∉ [0x00, 0x01, 0x02, 0x03, 0x04, 0x10, 0x11, 0x12])) ∧
    (∃ (v : BitVec 16) (s : State), Quiet s) ∧
    (∃ (d : BitVec 64) (a : BitVec 48) (be : BitVec 8) (w : Bool) (s : State), Open s ∧ (s.dbg.acc.busy = false)) ∧
    (∃ (d : BitVec 64) (a : BitVec 48) (be : BitVec 8) (w : Bool) (s : State), Quiet s ∧ (flag s F.DBG_CTRL_ENABLE = true) ∧ (flag s F.DBG_STATUS_DRAINING = false) ∧ (fld s
        F.DBG_STATUS_LOCKSTATE = 1) ∧ (s.dbg.acc.busy = false)) ∧
    (∃ (d : BitVec 64) (a : BitVec 48) (be : BitVec 8) (w go : Bool) (s : State), Quiet s ∧ (go = false ∨ s.dbg.acc.busy = true ∨ flag s F.DBG_CTRL_ENABLE = false)) ∧
    (∃ (x : AccIn) (s : State), Quiet s ∧ (s.dbg.acc.busy = true) ∧ (s.dbg.sel % 4 = 0) ∧ (s.dbg.acc.addr % 8 ≠ 0)) ∧
    (∃ (x : AccIn) (n : Fin 96) (t : Fin 4) (i : Fin 16) (s : State), Quiet s ∧ (s.dbg.acc.busy = true) ∧ (s.dbg.acc.write = false) ∧ (s.dbg.sel = 1 + 4 * n + 512 * t) ∧
        (s.dbg.acc.addr % 2 ^ 12 = i) ∧ (halted s n t = true) ∧ (engineShut s n = false) ∧ (sysClocks s = true)) ∧
    (∃ (x : AccIn) (n : Fin 96) (t : Fin 4) (i : Fin 16) (s : State), Quiet s ∧ (s.dbg.acc.busy = true) ∧ (s.dbg.acc.write = true) ∧ (s.dbg.sel = 1 + 4 * n + 512 * t) ∧
        (s.dbg.acc.addr % 2 ^ 12 = i) ∧ (halted s n t = true) ∧ (engineShut s n = false) ∧ (sysClocks s = true)) ∧
    (∃ (x : AccIn) (n : Fin 96) (t : Fin 4) (i : Fin 16) (s : State), Quiet s ∧ (s.dbg.acc.busy = true) ∧ (s.dbg.sel = 1 + 4 * n + 512 * t) ∧ (s.dbg.acc.addr % 2 ^ 12 = i) ∧ (halted
        s n t = false) ∧ (engineShut s n = false) ∧ (sysClocks s = true)) ∧
    (∃ (x : AccIn) (s : State), Quiet s ∧ (s.dbg.acc.busy = false)) ∧
    (∃ (s : State), Quiet s ∧ (s.dbg.acc.busy = true)) ∧
    (∃ (s : State), Quiet s) ∧
    (∃ (k : Bool) (g : BitVec 512) (p : BitVec 256) (s : State), Quiet s ∧ (s.dbg.respond = none)) ∧
    (∃ (x : Respond) (s : State), Quiet s ∧ (s.dbg.respond = some x) ∧ (fld s F.DBG_STATUS_LOCKSTATE = 0)) ∧
    (∃ (x : Respond) (s : State), Quiet s ∧ (s.dbg.respond = some x) ∧ (fld s F.DBG_STATUS_LOCKSTATE ≠ 0) ∧ (x.nonce = none)) ∧
    (∃ (x : Respond) (n : Nat) (s : State), Quiet s ∧ (s.dbg.respond = some x) ∧ (fld s F.DBG_STATUS_LOCKSTATE = 1) ∧ (x.nonce = some n) ∧ (x.sel = false)) :=
  ⟨⟨db [] { ir := 5, sel := 7, acc := acc0, detail := 3 }, by decide +kernel⟩,
   ⟨db [(F.DBG_STATUS_LOCKSTATE, 1)] { acc := acc0 }, by decide +kernel⟩,
   ⟨0x123456789, db [] {}, by decide +kernel⟩,
   ⟨0x123456789, db [] {}, by decide +kernel⟩,
   ⟨0x123456789, db [(F.DSP_STATUS_BSTOP, 0)] { bsr := 5 }, by decide +kernel⟩,
   ⟨0x7F, db [] {}, by decide +kernel⟩,
   ⟨0xFFFF, db [] { sel := 9 }, by decide +kernel⟩,
   ⟨0x1234, 0x5678, 0xF, true, db [] { acc := { acc0 with busy := false, done := true, st := 3 } }, by decide +kernel⟩,
   ⟨0x1234, 0x5678, 0xF, true, db [(F.DBG_STATUS_LOCKSTATE, 1)] {}, by decide +kernel⟩,
   ⟨0x1234, 0x5678, 0xF, true, true, db [] { acc := acc0 }, by decide +kernel⟩,
   ⟨xa, db [] { acc := acc0 }, by decide +kernel⟩,
   ⟨xa, 37, 2, 3,
        { dth [(F.DBG_ENGn_STATUS_HALTED 37, 4)] { g := [(3, 0x89ABCDEF), (5, 1)] } with dbg := { sel := 1 + 4 * 37 + 512 * 2, acc := { acc0 with addr := 3, write := false, data := 0x77 } } },
        by decide +kernel⟩,
   ⟨xa, 37, 2, 3,
        { dth [(F.DBG_ENGn_STATUS_HALTED 37, 4)] { g := [(3, 0x89ABCDEF), (5, 1)] } with dbg := { sel := 1 + 4 * 37 + 512 * 2, acc := { acc0 with addr := 3, write := true, data := 0x77 } } },
        by decide +kernel⟩,
   ⟨xa, 37, 2, 3,
        { dth [(F.DBG_ENGn_STATUS_HALTED 37, 0)] { g := [(3, 0x89ABCDEF), (5, 1)] } with dbg := { sel := 1 + 4 * 37 + 512 * 2, acc := { acc0 with addr := 3, write := true, data := 0x77 } } },
        by decide +kernel⟩,
   ⟨xa, db [] {}, by decide +kernel⟩,
   ⟨db [] { acc := acc0 }, by decide +kernel⟩,
   ⟨{ db [(F.DBG_STATUS_LOCKSTATE, 1)] { detail := 5 } with sbx := { nonce := some 77 } }, by decide +kernel⟩,
   ⟨true, 0x55, 0x66, { db [] {} with sbx := { nonce := some 77 } }, by decide +kernel⟩,
   ⟨⟨false, 5, 6, none⟩, db [] { respond := some ⟨false, 5, 6, none⟩, detail := 9 }, by decide +kernel⟩,
   ⟨⟨false, 5, 6, none⟩, { db [(F.DBG_STATUS_LOCKSTATE, 1)] { respond := some ⟨false, 5, 6, none⟩, detail := 9 } with sbx := { nonce := some 77 } }, by decide +kernel⟩,
   ⟨⟨false, 5, 6, some 9⟩, 9, { db [(F.DBG_STATUS_LOCKSTATE, 1)] { respond := some ⟨false, 5, 6, some 9⟩, detail := 9 } with sbx := { nonce := some 77 } }, by decide +kernel⟩⟩

/-- States and operands that meet the hypotheses of each clause of DebuggerControlsTargets. -/
theorem witness_DebuggerControlsTargets :
    (∃ (n : Fin 96) (t : Fin 4) (s : State), Open s ∧ Live s n t ∧ ((thread s n t).blk = .free ∨ thrState s n t = tWAIT)) ∧
    (∃ (n : Fin 96) (t : Fin 4) (s : State), Open s ∧ (halted s n t = false) ∧ (thrState s n t = tRUN) ∧ ((thread s n t).blk ≠ .free)) ∧
    (∃ (n : Fin 96) (t : Fin 4) (s : State), Open s ∧ (halted s n t = true)) ∧
    (∃ (n : Fin 96) (t : Fin 4) (s : State), Open s ∧ (halted s n t = true) ∧ (haltCause s n t ≠ 4)) ∧
    (∃ (n : Fin 96) (t : Fin 4) (s : State), Open s ∧ (halted s n t = true) ∧ (haltCause s n t = 4) ∧ (thrState s n t = tRUN) ∧ (fetched s n t / 2 ^ 26 = 0x30) ∧ (fetched s n t / 2
        ^ 14 % 16 = 4)) ∧
    (∃ (n : Fin 96) (t : Fin 4) (s : State), Open s ∧ (halted s n t = false)) ∧
    (∃ (n : Fin 96) (t : Fin 4) (r : Fin 72) (k : BitVec 16) (s : State), Quiet s ∧ (flag s F.DBG_CTRL_ENABLE = false ∨ flag s F.DBG_STATUS_DRAINING = true ∨ fld s
        F.DBG_STATUS_LOCKSTATE = 1)) ∧
    (∃ (r : Fin 72) (s : State), Open s ∧ (fld s (F.FAB_REGr_STATUS_STATE r) = 3) ∧ (regFrozen s r = false) ∧ (regAsleep s r = false)) ∧
    (∃ (r : Fin 72) (s : State), Open s ∧ (fld s (F.FAB_REGr_STATUS_STATE r) = 3) ∧ (regFrozen s r = false) ∧ (regAsleep s r = true)) ∧
    (∃ (r : Fin 72) (s : State), Open s ∧ (fld s (F.FAB_REGr_STATUS_STATE r) ≠ 3)) ∧
    (∃ (r : Fin 72) (s : State), Quiet s ∧ (flag s (F.DBG_REGr_CTRL_FREEZE r) = true) ∧ (regFrozen s r = false) ∧ (regTicks s r = true) ∧ (regClkEn s r 0 = true)) ∧
    (∃ (r : Fin 72) (s : State), Quiet s ∧ (flag s (F.DBG_REGr_CTRL_FREEZE r) = false ∨ regFrozen s r = true)) ∧
    (∃ (r : Fin 72) (s : State), Quiet s ∧ (flag s (F.DBG_REGr_CTRL_FREEZE r) = true) ∧ (regFrozen s r = false) ∧ (regAsleep s r = true) ∧ (regRuns s r = true)) ∧
    (∃ (r : Fin 72) (s : State), Open s ∧ (regFrozen s r = true) ∧ (R8Req.regionStart r ∉ s.dsp.r8queue)) ∧
    (∃ (r : Fin 72) (k : BitVec 16) (s : State), Open s ∧ (regFrozen s r = true) ∧ (k ≠ 0) ∧ (flag s (F.DBG_REGr_STATUS_PULSING r) = false) ∧ (∀ x ∈ s.dsp.r8queue, x = .engineWake
        0)) ∧
    (∃ (r : Fin 72) (k : BitVec 16) (s : State), Open s ∧ (regFrozen s r = false ∨ k = 0 ∨ flag s (F.DBG_REGr_STATUS_PULSING r) = true)) ∧
    (∃ (r : Fin 72) (s : State), Quiet s ∧ (flag s (F.DBG_REGr_STATUS_PULSING r) = true) ∧ (regTicks s r = true) ∧ (regClkEn s r 0 = true)) ∧
    (∃ (r : Fin 72) (s : State), Open s ∧ (regFrozen s r = true) ∧ (flag s (F.DBG_REGr_STATUS_PULSING r) = false)) ∧
    (∃ (r : Fin 72) (s : State), Open s ∧ (regFrozen s r = false)) ∧
    (∃ (s : State), Open s ∧ (frameMay s (placed s % 2 ^ 32) = false)) ∧
    (∃ (s : State), Open s ∧ (frameMay s (placed s % 2 ^ 32) = true) ∧ (∀ p : Fin 9, bitOf (fld s F.RST_DIE_IN_RESET) p = false) ∧ (bits (placed s) 16416 32 ≠ crc32c 2052 (placed s
        % 2 ^ 16416))) ∧
    (∃ (s : State), Open s ∧ (frameMay s (placed s % 2 ^ 32) = true) ∧ (∀ p : Fin 9, bitOf (fld s F.RST_DIE_IN_RESET) p = false) ∧ (frameCheck s (placed s) = 0)) ∧
    (∃ (s : State), Quiet s ∧ (flag s F.DBG_CTRL_ENABLE = true) ∧ (∀ r : Fin 72, regFrozen s r = false ∧ flag s (F.DBG_REGr_STATUS_PULSING r) = false) ∧ (s.dbg.acc.busy = false)) ∧
    (∃ (r : Fin 72) (s : State), Quiet s ∧ (flag s F.DBG_CTRL_ENABLE = true) ∧ (regFrozen s r = true)) :=
  ⟨⟨37, 2, dth [] { pc := 0x104, watch := true }, by decide +kernel⟩,
   ⟨37, 2, dth [] { pc := 0x104, blk := .load }, by decide +kernel⟩,
   ⟨37, 2, dth [(F.DBG_ENGn_STATUS_HALTED 37, 12)] { pc := 0x104 }, by decide +kernel⟩,
   ⟨37, 2, dth [(F.DBG_ENGn_STATUS_HALTED 37, 12)] { pc := 0x104 }, by decide +kernel⟩,
   ⟨37, 2, dth [(F.DBG_ENGn_STATUS_HALTED 37, 12), (F.DBG_ENGn_STATUS_CAUSE 37, 4 * 64)] { pc := 0x104 }, by decide +kernel⟩,
   ⟨37, 2, dth [] { pc := 0x104 }, by decide +kernel⟩,
   ⟨37, 2, 29, 7, drg [(F.DBG_STATUS_LOCKSTATE, 1)] {}, by decide +kernel⟩,
   ⟨29, drg [] { run := true, gateReq := true }, by decide +kernel⟩,
   ⟨29, let s := drg [(F.FAB_REGr_STATUS_SLEEPING 29, 1), (F.FAB_REGr_CTRL_WAKE 29, 1)] { run := true, owed := 1 };
        { s with dsp := { s.dsp with r8queue := [.regionStart 29, .regionStart 5] } }, by decide +kernel⟩,
   ⟨29, drg [(F.FAB_REGr_STATUS_STATE 29, 2)] {}, by decide +kernel⟩,
   ⟨29, drg [(F.DBG_REGr_CTRL_FREEZE 29, 1)] { run := true }, by decide +kernel⟩,
   ⟨29, drg [] { run := true }, by decide +kernel⟩,
   ⟨29, let s := drg [(F.DBG_REGr_CTRL_FREEZE 29, 1), (F.FAB_REGr_STATUS_SLEEPING 29, 1), (F.FAB_REGr_CTRL_WAKE 29, 1)] { run := true, owed := 1 };
        { s with dsp := { s.dsp with r8queue := [.regionStart 29, .engineWake 4] } }, by decide +kernel⟩,
   ⟨29, drg [(F.DBG_REGr_STATUS_FROZEN 29, 1), (F.DBG_REGr_CTRL_FREEZE 29, 1)] { run := true }, by decide +kernel⟩,
   ⟨29, 7, drg [(F.DBG_REGr_STATUS_FROZEN 29, 1)] { run := true }, by decide +kernel⟩,
   ⟨29, 7, drg [] { run := true }, by decide +kernel⟩,
   ⟨29, { drg [(F.DBG_REGr_STATUS_FROZEN 29, 1), (F.DBG_REGr_STATUS_PULSING 29, 1)] { run := true } with dbg := { pulses := [(29, 9)] } }, by decide +kernel⟩,
   ⟨29, drg [(F.DBG_REGr_STATUS_FROZEN 29, 1), (F.DBG_REGr_CAP_TILE 29, 5)] { run := true, shared := [(5, 3)] }, by decide +kernel⟩,
   ⟨29, drg [] {}, by decide +kernel⟩,
   ⟨drf (frv 0 99 0) [], by decide +kernel⟩,
   ⟨drf (frv 131478 0 1) [(F.CTX_REGr_PLANES_PLANES 29, 8)], by decide +kernel⟩,
   ⟨drf (frv 131478 0 0) [(F.CTX_REGr_PLANES_PLANES 29, 8)], by decide +kernel⟩,
   ⟨dth [(F.DBG_ENGn_STATUS_HALTED 37, 4), (F.DBG_ENGn_STATUS_PENDING 37, 2), (F.DBG_REGr_CTRL_FREEZE 5, 1)] { pc := 0x104 }, by decide +kernel⟩,
   ⟨29, drg [(F.DBG_REGr_STATUS_FROZEN 29, 1), (F.DBG_REGr_CTRL_FREEZE 29, 1)] { run := true }, by decide +kernel⟩⟩

end W24

namespace W25

def itr : Item := ⟨9, .retime, 4, 5000, noCons, 0x1234⟩
def dx : Desc := ⟨5, 0x77, false, 0, none⟩
def rg (l : List (Fld × Nat)) : State := { base ([(F.PCI_STATUS_LINK_UP, 1), (F.ENG_n_CTRL_REGS 41, 1), (F.DBG_CTRL_ENABLE, 1), (F.DBG_STATUS_LOCKSTATE, 0), (F.SBX_STATUS_READY, 1)] ++ l) with rst := {}, pwr := {}, cache := {}, cfg := {}, clk := {}, dbg := {} }

/-- States and operands that meet the hypotheses of each clause of RegistersReadAndWrite. -/
theorem witness_RegistersReadAndWrite :
    (∃ (m : Master) (w : Word) (s : State), Writes s m) ∧
    (∃ (m : Master) (w : Word) (s : State), Writes s m ∧ (flag s F.THM_CTRL_LOCK = false)) ∧
    (∃ (m : Master) (w : Word) (s : State), Writes s m ∧ (flag s F.THM_CTRL_LOCK = true)) ∧
    (∃ (m : Master) (w : Word) (s : State), Writes s m) ∧
    (∃ (m : Master) (w : Word) (s : State), Writes s m) ∧
    (∃ (m : Master) (s : State), Writes s m ∧ (flag s F.THM_CTRL_ENABLE = true) ∧ (flag s F.THM_STATUS_DRAINING = false)) ∧
    (∃ (m : Master) (w : Word) (s : State), Writes s m ∧ (flag s F.THM_STATUS_DRAINING = true) ∧ (w.toNat < 2 ^ 31)) ∧
    (∃ (m : Master) (w : Word) (s : State), Writes s m ∧ (flag s F.PWR_CTRL_LOCK = false)) ∧
    (∃ (m : Master) (w : Word) (s : State), Writes s m) ∧
    (∃ (off : BitVec 24) (be : BitVec 4) (w : Word) (s : State), Writes s .host ∧ (off.toNat < 0x180000) ∧ (off.toNat % 4 ≠ 0 ∨ be ≠ 15) ∧ (¬ ByBytes (off.toNat / 4 * 4))) ∧
    (∃ (m : Master) (w : Word) (s : State), Writes s m ∧ (m ≠ .host) ∧ (flag s F.THM_CTRL_LOCK = false)) ∧
    (∃ (m : Master) (off : BitVec 24) (be : BitVec 4) (w : Word) (s : State), Quiet s ∧ (mayReach s m = false ∨ s.rst.srcs ≠ [] ∨ 1 < fld s F.PWR_STATUS_STATE)) ∧
    (∃ (s : State), Reads s) ∧
    (∃ (s : State), Reads s) ∧
    (∃ (s : State), Reads s) ∧
    (∃ (s : State), Reads s) ∧
    (∃ (v : Nat) (s : State), Reads s ∧ (smGet s.latch 0x0A0014 0 = v + 1)) ∧
    (∃ (off : BitVec 24) (n : Fin 4097) (s : State), Quiet s ∧ (linkUp s = true) ∧ ((pciFn s 0).d3 = true ∨ (n.val ≠ 4 ∧ n.val ≠ 8) ∨ off.toNat % n.val ≠ 0)) ∧
    (∃ (off : BitVec 24) (s : State), Quiet s ∧ (linkUp s = true) ∧ ((pciFn s 0).d3 = false) ∧ (s.rst.srcs ≠ []) ∧ (off.toNat % 4 = 0)) ∧
    (∃ (off : BitVec 24) (n : Fin 4097) (s : State), Quiet s ∧ (linkUp s = false)) ∧
    (∃ (off : BitVec 24) (s : State), Quiet s ∧ (linkUp s = true) ∧ ((pciFn s 0).d3 = false) ∧ (off.toNat < 0x180000) ∧ (off.toNat % 4 = 0) ∧ (s.rst.srcs = []) ∧ (s.rst.step = 0) ∧
        (s.rst.blkWait = []) ∧ (s.rst.blkOn = []) ∧ (1 < fld s F.PWR_STATUS_STATE)) :=
  ⟨⟨.host, 0xFEDCBA98, rg [], by decide +kernel⟩,
   ⟨.host, 0xFEDCBA98, rg [], by decide +kernel⟩,
   ⟨.engine 41, 0xFEDCBA98, rg [(F.THM_CTRL_LOCK, 1)], by decide +kernel⟩,
   ⟨.host, 0xFFFFFFEA, rg [(F.PWR_WAKE_CAUSE_CAUSE, 0x33)], by decide +kernel⟩,
   ⟨.host, 0xFFFFFFEA, rg [(F.PWR_RAILS_EN, 5)], by decide +kernel⟩,
   ⟨.host, rg [], by decide +kernel⟩,
   ⟨.debug, 1, rg [(F.THM_STATUS_DRAINING, 1)], by decide +kernel⟩,
   ⟨.host, 10, rg [], by decide +kernel⟩,
   ⟨.host, 7, rg [], by decide +kernel⟩,
   ⟨0x04000C, 7, 9, rg [], by decide +kernel⟩,
   ⟨.engine 41, 0xFEDCBA98, rg [], by decide +kernel⟩,
   ⟨.engine 40, 0x04000C, 15, 0xFEDCBA98, rg [], by decide +kernel⟩,
   ⟨rg [(F.PWR_WAKE_TIMER_PERIODS, 0x12345678)], by decide +kernel⟩,
   ⟨rg [(F.PWR_WAKE_FAIL_CONSEC, 2), (F.PWR_WAKE_FAIL_TOTAL, 0x81), (F.PWR_WAKE_FAIL_CAUSE, 5), (F.PWR_WAKE_FAIL_RAIL, 3)], by decide +kernel⟩,
   ⟨rg [], by decide +kernel⟩,
   ⟨rg [(F.ANG_RT_TIME, 0x123456789ABCDEF0)], by decide +kernel⟩,
   ⟨0xFFFFFFFF, { rg [(F.ANG_RT_TIME, 0x123456789ABCDEF0)] with latch := [(0x0A0014, 2 ^ 32)] }, by decide +kernel⟩,
   ⟨0x030010, 0, rg [], by decide +kernel⟩,
   ⟨0x030010, { rg [] with rst := { srcs := [4] } }, by decide +kernel⟩,
   ⟨0x030010, 4, rg [(F.PCI_STATUS_LINK_UP, 0)], by decide +kernel⟩,
   ⟨0x030010, rg [(F.PWR_STATUS_STATE, 3)], by decide +kernel⟩⟩

/-- States and operands that meet the hypotheses of each clause of DrainingEnds. -/
theorem witness_DrainingEnds :
    (∃ (b : DrainUnit) (s : State), Quiet s ∧ (((drainFld b).map (flag s)).getD false = false)) ∧
    (∃ (s : State), Quiet s ∧ (flag s F.SBX_MB_STATUS_BUSY = true)) ∧
    (∃ (s : State), Quiet s ∧ (s.clk.op ≠ none)) ∧
    (∃ (n : Fin 96) (s : State), Quiet s ∧ ((engine s n).win ≠ [])) ∧
    (∃ (k : Fin 16) (s : State), Quiet s ∧ (ring s k ≠ [])) ∧
    (∃ (p : Fin 4) (s : State), Quiet s ∧ ((port s p).journal ≠ [])) ∧
    (∃ (s : State), Quiet s ∧ (flag s F.ANG_STATUS_DRAINING = true)) ∧
    (∃ (s : State), Quiet s ∧ (flag s F.DSP_STATUS_DRAINING = true) ∧ (dspDrained s = true)) ∧
    (∃ (s : State), Quiet s ∧ (flag s F.FAB_STATUS_DRAINING = true) ∧ (fabDrained s = true)) ∧
    (∃ (s : State), Quiet s ∧ (flag s F.CTX_STATUS_DRAINING = true) ∧ (∀ r : Fin 72, switching s r = false)) ∧
    (∃ (s : State), Quiet s ∧ (flag s F.MEM_STATUS_DRAINING = true) ∧ (memDrained s = true)) ∧
    (∃ (s : State), Quiet s ∧ (flag s F.SCH_STATUS_DRAINING = true) ∧ (s.cache.ways = []) ∧ (s.cache.fills = []) ∧ (s.hwn.reclaims = [])) ∧
    (∃ (s : State), Quiet s ∧ (flag s F.ENC_STATUS_DRAINING = true) ∧ (rekeying s = false)) ∧
    (∃ (s : State), Quiet s ∧ (flag s F.STK_STATUS_DRAINING = true) ∧ (fld s F.STK_STATUS_RETRAINING = 0)) ∧
    (∃ (s : State), Quiet s ∧ (flag s F.PCI_STATUS_DRAINING = true) ∧ (∀ r ∈ s.pci.reads, r.dead = true)) ∧
    (∃ (s : State), Quiet s ∧ (flag s F.SBX_STATUS_DRAINING = true) ∧ (flag s F.SBX_MB_STATUS_BUSY = false)) ∧
    (∃ (s : State), Quiet s ∧ (flag s F.CLK_STATUS_DRAINING = true) ∧ (s.clk.op = none)) ∧
    (∃ (s : State), Quiet s ∧ (flag s F.PWR_STATUS_DRAINING = true) ∧ (fld s F.PWR_STATUS_PHASE ≠ 1)) ∧
    (∃ (s : State), Quiet s ∧ (flag s F.BST_STATUS_DRAINING = true) ∧ UnitsIdle s) ∧
    (∃ (s : State), Quiet s ∧ (flag s F.DBG_STATUS_DRAINING = true) ∧ (s.dbg.acc.busy = false) ∧ (∀ r : Fin 72, regFrozen s r = false ∧ flag s (F.DBG_REGr_STATUS_PULSING r) = false)) ∧
    (∃ (s : State), Quiet s ∧ (flag s F.CFG_STATUS_DRAINING = true) ∧ (fld s F.CFG_STATUS_RESULT ≠ 1) ∧ (fld s F.CFG_STATUS_RESULT ≠ 2) ∧ (s.cfg.fail = none)) ∧
    (∃ (n : Fin 96) (s : State), Quiet s ∧ (flag s (F.ENG_n_STATUS_DRAINING n) = true) ∧ ((engine s n).win = []) ∧ (srcInFlight s (.engine n) = 0)) ∧
    (∃ (k : Fin 16) (s : State), Quiet s ∧ (flag s (F.HWN_RINGk_STATUS_DRAINING k) = true) ∧ (ring s k = [])) ∧
    (∃ (s : State), Quiet s ∧ (flag s F.HWN_STATUS_DRAINING = true) ∧ (∀ k : Fin 16, ring s k = []) ∧ (s.hwn.reclaims = [])) ∧
    (∃ (s : State), Quiet s ∧ (flag s F.TT_STATUS_DRAINING = true) ∧ (s.tt.done = [])) ∧
    (∃ (p : Fin 4) (s : State), Quiet s ∧ SendsPlainly s ∧ (flag s (F.WNG_Pp_STATUS_DRAINING p) = true) ∧ ((port s p).journal = [])) :=
  ⟨⟨.ang, rg [], by decide +kernel⟩,
   ⟨rg [(F.SBX_STATUS_DRAINING, 1), (F.SBX_MB_STATUS_BUSY, 1)], by decide +kernel⟩,
   ⟨{ rg [(F.CLK_STATUS_DRAINING, 1)] with clk := { op := some ⟨1, true, true, false⟩ } }, by decide +kernel⟩,
   ⟨40, setEngine (rg [(F.ENG_n_STATUS_DRAINING 40, 1)]) 40 { win := [⟨2, true, 0, 0, 0, 0, 4, false, 0, 0⟩] }, by decide +kernel⟩,
   ⟨3, { rg [(F.HWN_STATUS_DRAINING, 1), (F.HWN_RINGk_STATUS_DRAINING 3, 1)] with hwn := { rings := [(3, [dx])] } }, by decide +kernel⟩,
   ⟨2, setPort (rg [(F.WNG_Pp_STATUS_DRAINING 2, 1)]) 2 { journal := [itr] }, by decide +kernel⟩,
   ⟨rg [(F.ANG_CTRL_ENABLE, 1), (F.ANG_STATUS_DRAINING, 1)], by decide +kernel⟩,
   ⟨rg [(F.DSP_CTRL_ENABLE, 1), (F.DSP_STATUS_DRAINING, 1)], by decide +kernel⟩,
   ⟨rg [(F.FAB_CTRL_ENABLE, 1), (F.FAB_STATUS_DRAINING, 1)], by decide +kernel⟩,
   ⟨rg [(F.CTX_CTRL_ENABLE, 1), (F.CTX_STATUS_DRAINING, 1)], by decide +kernel⟩,
   ⟨rg [(F.MEM_CTRL_ENABLE, 1), (F.MEM_STATUS_DRAINING, 1)], by decide +kernel⟩,
   ⟨rg [(F.SCH_CTRL_ENABLE, 1), (F.SCH_STATUS_DRAINING, 1)], by decide +kernel⟩,
   ⟨rg [(F.ENC_CTRL_ENABLE, 1), (F.ENC_STATUS_DRAINING, 1)], by decide +kernel⟩,
   ⟨rg [(F.STK_CTRL_ENABLE, 1), (F.STK_STATUS_DRAINING, 1)], by decide +kernel⟩,
   ⟨rg [(F.PCI_CTRL_ENABLE, 1), (F.PCI_STATUS_DRAINING, 1)], by decide +kernel⟩,
   ⟨rg [(F.SBX_CTRL_ENABLE, 1), (F.SBX_STATUS_DRAINING, 1)], by decide +kernel⟩,
   ⟨rg [(F.CLK_CTRL_ENABLE, 1), (F.CLK_STATUS_DRAINING, 1)], by decide +kernel⟩,
   ⟨rg [(F.PWR_CTRL_ENABLE, 1), (F.PWR_STATUS_DRAINING, 1)], by decide +kernel⟩,
   ⟨rg [(F.BST_CTRL_ENABLE, 1), (F.BST_STATUS_DRAINING, 1)], by decide +kernel⟩,
   ⟨rg [(F.DBG_CTRL_ENABLE, 1), (F.DBG_STATUS_DRAINING, 1)], by decide +kernel⟩,
   ⟨rg [(F.CFG_CTRL_ENABLE, 1), (F.CFG_STATUS_DRAINING, 1)], by decide +kernel⟩,
   ⟨40, rg [(F.ENG_n_CTRL_ENABLE 40, 1), (F.ENG_n_STATUS_DRAINING 40, 1)], by decide +kernel⟩,
   ⟨3, rg [(F.HWN_RINGk_CTRL_ENABLE 3, 1), (F.HWN_RINGk_STATUS_DRAINING 3, 1)], by decide +kernel⟩,
   ⟨rg [(F.HWN_CTRL_ENABLE, 1), (F.HWN_STATUS_DRAINING, 1), (F.HWN_RINGk_CTRL_ENABLE 3, 1), (F.HWN_RINGk_STATUS_DRAINING 3, 1)], by decide +kernel⟩,
   ⟨rg [(F.TT_CTRL_ENABLE, 1), (F.TT_STATUS_DRAINING, 1), (F.TT_STATUS_READY, 1), (F.TT_STATUS_RESERVED, 1)], by decide +kernel⟩,
   ⟨2, setPort (rg [(F.WNG_Pp_CTRL_ENABLE 2, 1), (F.WNG_Pp_STATUS_DRAINING 2, 1), (F.WNG_Pp_STATUS_STATE 2, 3)]) 2 { enumTries := 2 }, by decide +kernel⟩⟩

end W25

end Sys2Proof.Tests
end

section
/-! SUPPORT. The rules of the engines' state: what is read of a thread after a write of it, what the write of a thread leaves
alone, and how an instruction that can issue completes. -/
namespace Sys2Proof.Machine

/-! ### Maps written twice -/

theorem smDel_of_not_listed {α : Type} {m : SMap α} {k : Nat} (h : ∀ e ∈ m, e.1 ≠ k) : smDel m k = m :=
  List.filter_eq_self.2 fun e he => by simp [h e he]

theorem smDel_smPut {α : Type} {m : SMap α} {k : Nat} (h : ∀ e ∈ m, e.1 ≠ k) (v : α) : smDel (smPut m k v) k = m := by
  induction m with
  | nil => simp [smPut, smDel]
  | cons e m ih =>
    have hm : ∀ e ∈ m, e.1 ≠ k := fun x hx => h x (List.mem_cons_of_mem _ hx)
    have hd := smDel_of_not_listed h
    unfold smPut
    split
    · simpa [smDel] using hd
    · have := ih hm
      simp_all [smDel]

/-- Of two writes of one key the second one counts. -/
@[simp] theorem smSet_smSet {α : Type} [DecidableEq α] (m : SMap α) (k : Nat) (v w d : α) :
    smSet (smSet m k v d) k w d = smSet m k w d := by
  have hn : ∀ e ∈ smDel m k, e.1 ≠ k := fun e he => (mem_smDel he).2
  have hd : smDel (smSet m k v d) k = smDel m k := by
    unfold smSet
    split
    · exact smDel_of_not_listed hn
    · exact smDel_smPut hn v
  simp only [smSet] at hd ⊢
  rw [hd]

/-! ### Engines and threads -/

@[simp] theorem engine_setEngine_same (s : State) (n : Nat) (x : Engine) : engine (setEngine s n x) n = x := smGet_smSet_same ..

theorem engine_setEngine_ne (s : State) {n m : Nat} (h : m ≠ n) (x : Engine) : engine (setEngine s n x) m = engine s m :=
  smGet_smSet_ne _ h ..

@[simp] theorem setEngine_setEngine (s : State) (n : Nat) (x y : Engine) : setEngine (setEngine s n x) n y = setEngine s n y := by
  simp [setEngine]

@[simp] theorem engine_setFld (s : State) (f : Fld) (v n : Nat) : engine (setFld s f v) n = engine s n := rfl
@[simp] theorem engine_raise (s : State) (c : Nat) (l : List (Nat × Nat)) (n : Nat) : engine (raise s c l) n = engine s n := rfl
@[simp] theorem engine_hush (s : State) (n : Nat) : engine (hush s) n = engine s n := rfl
@[simp] theorem thread_setFld (s : State) (f : Fld) (v n t : Nat) : thread (setFld s f v) n t = thread s n t := rfl
@[simp] theorem thread_raise (s : State) (c : Nat) (l : List (Nat × Nat)) (n t : Nat) :
    thread (raise s c l) n t = thread s n t := rfl
@[simp] theorem thread_hush (s : State) (n t : Nat) : thread (hush s) n t = thread s n t := rfl

@[simp] theorem fld_setThread (s : State) (n t : Nat) (x : Thread) (f : Fld) : fld (setThread s n t x) f = fld s f := rfl
@[simp] theorem flag_setThread (s : State) (n t : Nat) (x : Thread) (f : Fld) : flag (setThread s n t x) f = flag s f := rfl
@[simp] theorem setThread_evq (s : State) (n t : Nat) (x : Thread) : (setThread s n t x).evq = s.evq := rfl

@[simp] theorem engine_setThread_same (s : State) (n t : Nat) (x : Thread) :
    engine (setThread s n t x) n = { engine s n with threads := smSet (engine s n).threads t x {} } := engine_setEngine_same ..

theorem engine_setThread_ne (s : State) {n m : Nat} (h : m ≠ n) (t : Nat) (x : Thread) :
    engine (setThread s n t x) m = engine s m := engine_setEngine_ne s h _

@[simp] theorem thread_setThread_same (s : State) (n t : Nat) (x : Thread) : thread (setThread s n t x) n t = x := by
  simp [thread, smGet_smSet_same]

theorem thread_setThread_ne (s : State) (n : Nat) {t j : Nat} (h : j ≠ t) (x : Thread) :
    thread (setThread s n t x) n j = thread s n j := by
  simp [thread, smGet_smSet_ne _ h]

/-- Of two writes of one thread the second one counts. -/
@[simp] theorem setThread_setThread (s : State) (n t : Nat) (x y : Thread) :
    setThread (setThread s n t x) n t y = setThread s n t y := by
  simp [setThread]

@[simp] theorem gReg_setThread (s : State) (n t i : Nat) (x : Thread) :
    gReg (setThread s n t x) n t i = smGet x.g i (gDef x t i) := by simp [gReg]

@[simp] theorem aReg_setThread (s : State) (n t i : Nat) (x : Thread) :
    aReg (setThread s n t x) n t i = smGet x.acc i (accDef x t i) := by simp [aReg]

/-! ### What is left alone -/

theorem onlyParts_setEngine (s : State) (n : Nat) (x : Engine) : OnlyParts [.engines] s (setEngine s n x) := by
  intro p hp
  cases p
  case engines => exact absurd List.mem_cons_self hp
  all_goals rfl

theorem onlyParts_setFld (s : State) (f : Fld) (v : Nat) : OnlyParts [.regs] s (setFld s f v) := by
  intro p hp
  cases p
  case regs => exact absurd List.mem_cons_self hp
  all_goals rfl

theorem onlyParts_raise (s : State) (c : Nat) (l : List (Nat × Nat)) : OnlyParts [.evq] s (raise s c l) := by
  intro p hp
  cases p
  case evq => exact absurd List.mem_cons_self hp
  all_goals rfl

/-- The events of a command are no part of what it leaves behind. -/
theorem OnlyParts.hush {ps : List Part} {s u : State} (h : OnlyParts (.evq :: ps) s u) (hq : Quiet s) : OnlyParts ps s (hush u) := by
  intro p hp
  cases p
  case evq => exact hq.symm
  all_goals exact h _ fun hm => hp (List.mem_of_ne_of_mem (by decide) hm)

/-- Where a frame allows the registers, it says of every other part what it says against the same registers. -/
theorem OnlyParts.with_regs {ps : List Part} {s u : State} (h : OnlyParts (.regs :: ps) s u) :
    OnlyParts ps { s with regs := u.regs } u := by
  intro p hp
  cases p
  case regs => rfl
  all_goals exact h _ fun hm => hp (List.mem_of_ne_of_mem (by decide) hm)

theorem Only.refl (ps : List Part) (fs : List Fld) (s : State) : Only ps fs s s := ⟨.refl _ s, .refl _ s⟩

section
variable {ps : List Part} {fs : List Fld} {s u : State}

theorem Only.setFld (h : Only ps fs s u) {f : Fld} (hf : f ∈ fs) (v : Nat) : Only ps fs s (setFld u f v) :=
  ⟨h.1.trans ((onlyParts_setFld u f v).mono (by simp)), h.2.trans (onlyFlds_setFld u hf v)⟩

theorem Only.setEngine (h : Only ps fs s u) (he : .engines ∈ ps) (n : Nat) (x : Engine) : Only ps fs s (setEngine u n x) :=
  ⟨h.1.trans ((onlyParts_setEngine u n x).mono (by simp [he])), h.2⟩

theorem Only.setThread (h : Only ps fs s u) (he : .engines ∈ ps) (n t : Nat) (x : Thread) : Only ps fs s (setThread u n t x) :=
  h.setEngine he n _

theorem Only.raise (h : Only ps fs s u) (he : .evq ∈ ps) (c : Nat) (l : List (Nat × Nat)) : Only ps fs s (raise u c l) :=
  ⟨h.1.trans ((onlyParts_raise u c l).mono (by simp [he])), h.2⟩

theorem Only.hush (h : Only (.evq :: ps) fs s u) (hq : Quiet s) : Only ps fs s (hush u) :=
  ⟨(h.1.mono fun p hp => by simp_all [or_left_comm]).hush hq, h.2⟩

end

section
variable {s u : State} {n t : Nat} {x : Thread} (he : u.engines = (setThread s n t x).engines)
include he

/-- A state whose engines are those of `s` but for one thread. -/
theorem engine_of_engines (m : Nat) : engine u m = engine (setThread s n t x) m := by simp only [engine, he]

theorem thread_of_engines (j : Nat) : thread u n j = thread (setThread s n t x) n j := by
  simp only [thread, engine_of_engines he]

theorem onlyThread_of_engines (hp : OnlyParts [.engines] s u) : OnlyThread n t s u := by
  refine ⟨hp, fun m hm => ?_, ?_, fun j hj => ?_⟩
  · rw [engine_of_engines he, engine_setThread_ne s hm]
  · rw [engine_of_engines he, engine_setThread_same]
  · rw [thread_of_engines he, thread_setThread_ne s n hj]

end

theorem onlyThread_setThread (s : State) (n t : Nat) (x : Thread) : OnlyThread n t s (setThread s n t x) :=
  onlyThread_of_engines rfl (onlyParts_setEngine s n _)

/-! ### A thread that goes on -/

/-- Thread t of engine n is wanted, and nothing makes it stop or halt at its next boundary. -/
def KeepsGoing (s : State) (n t : Nat) : Prop :=
  thrWanted s n t = true ∧ (thread s n t).watch = false ∧ (thread s n t).step = false ∧ haltPending s n t = false

theorem keepsGoing_of_calm {s : State} {n t : Nat} (h : Calm s n t) : KeepsGoing s n t := h.2

theorem keepsGoing_of_issues {s : State} {n t w : Nat} (h : Issues s n t w) : KeepsGoing s n t := h.2.2.2

theorem KeepsGoing.setThread {s : State} {n t : Nat} (h : KeepsGoing s n t) {x : Thread} (hw : x.watch = (thread s n t).watch)
    (hs : x.step = (thread s n t).step) : KeepsGoing (setThread s n t x) n t := by
  obtain ⟨hwant, hwatch, hstep, hpend⟩ := h
  exact ⟨hwant, by simp [hw, hwatch], by simp [hs, hstep], hpend⟩

/-- Only the thread itself and the START, ENABLE, DRAINING and PENDING fields decide that. -/
theorem KeepsGoing.congr {s u : State} {n t : Nat} (h : KeepsGoing s n t) (ht : thread u n t = thread s n t)
    (hf : ∀ f ∈ [F.ENG_n_CTRL_ENABLE n, F.ENG_n_STATUS_DRAINING n, F.ENG_n_CTRL_START n, F.DBG_ENGn_STATUS_PENDING n],
      fld u f = fld s f) : KeepsGoing u n t := by
  simp only [List.forall_mem_cons] at hf
  obtain ⟨henable, hdrain, hstart, hpend, -⟩ := hf
  simpa only [KeepsGoing, thrWanted, engOn, flag, haltPending, ht, henable, hdrain, hstart, hpend] using h

/-- Such a thread goes on at `pc`, and nothing else changes. -/
theorem KeepsGoing.retireAt {s : State} {n t : Nat} (h : KeepsGoing s n t) (pc : Nat) :
    retireAt s n t pc = Machine.setThread s n t (goesOn (thread s n t) (flg s n t) pc) := by
  obtain ⟨hwant, hwatch, hstep, hpend⟩ := h.setThread (x := { thread s n t with pc := pc % 2 ^ 32, blk := .free, go := false }) rfl rfl
  simp only [Machine.retireAt, boundary, hwant, hwatch, hstep, hpend]
  rfl

theorem KeepsGoing.nextInstr {s : State} {n t : Nat} (h : KeepsGoing s n t) :
    nextInstr s n t = Machine.setThread s n t (goesOn (thread s n t) (flg s n t) (pc4 s n t)) := h.retireAt _

/-- An instruction that has made thread t into `x` goes on from there. -/
theorem KeepsGoing.nextInstr_setThread {s : State} {n t : Nat} (h : KeepsGoing s n t) {x : Thread}
    (hw : x.watch = (thread s n t).watch) (hs : x.step = (thread s n t).step) :
    Machine.nextInstr (Machine.setThread s n t x) n t = Machine.setThread s n t (goesOn x ⟨x.z, x.n, x.c, x.v⟩ (x.pc + 4)) := by
  rw [(h.setThread hw hs).nextInstr, setThread_setThread]
  simp [flg, pc4]

/-! ### Issue -/

theorem issue_of_issues {s : State} {n t w : Nat} (h : Issues s n t w) (k : State → State) : issue s n t w k = k s := by
  obtain ⟨-, hcan, hbreak, -⟩ := h
  simp [issue, hcan, hbreak]

theorem legalWord_of_issues {s : State} {n t w : Nat} (h : Issues s n t w) : legalWord w = true := by
  obtain ⟨-, hcan, -⟩ := h
  simp only [canIssue, Bool.and_eq_true] at hcan
  exact hcan.2

theorem blk_of_issues {s : State} {n t w : Nat} (h : Issues s n t w) : (thread s n t).blk = .free := by
  obtain ⟨-, hcan, -⟩ := h
  simp only [canIssue, thrReady, Bool.and_eq_true, beq_iff_eq] at hcan
  obtain ⟨⟨⟨⟨⟨⟨⟨-, hblk⟩, -⟩, -⟩, -⟩, -⟩, -⟩, -⟩ := hcan
  exact hblk

theorem canIssue_of_not_legal {w : Nat} (h : legalWord w = false) (s : State) (n t : Nat) : canIssue s n t w = false := by
  simp [canIssue, h]

/-- An instruction that issues completes in the state that its effect leaves, with the events its effect raised. -/
theorem completes_of_issues {c : Instr} {s : State} {n t w : Nat} {k : State → State} {es : List Ev} {P : State → Prop}
    (h : Issues s n t w) (hc : exec c s = done (issue s n t w k)) (he : (k s).evq = es) (hP : P (hush (k s))) :
    Completes c s es P := by
  rw [issue_of_issues h] at hc
  exact completes_of hc he hP

/-- An instruction whose effect is on its thread alone raises nothing. -/
theorem completes_thread_of_issues {c : Instr} {s : State} {n t w : Nat} {k : State → State} {x : Thread} {P : State → Prop}
    (h : Issues s n t w) (hc : exec c s = done (issue s n t w k)) (hk : k s = setThread s n t x) (hP : P (setThread s n t x)) :
    Completes c s [] P := by
  have hq : (setThread s n t x).evq = [] := h.1
  refine completes_of_issues h hc (hk ▸ hq) ?_
  rw [hk, hush_quiet hq]
  exact hP

end Sys2Proof.Machine
end

section
/-! SUPPORT. The encodings read back, and the Q instructions (R178): their results in plain arithmetic, and one rule for all of
them. -/
namespace Sys2Proof.Machine

/-! ### Fields of an encoded word (R174) -/

theorem bits_eq_div_mod (x lo w : Nat) : bits x lo w = x / 2 ^ lo % 2 ^ w := by simp [bits, Nat.shiftRight_eq_div_pow]

theorem b2n_lt_two (b : Bool) : b2n b < 2 := by cases b <;> decide

section
variable {major rd rs1 rs2 fn low : Nat} (f : Bool) (hrd : rd < 16) (hrs1 : rs1 < 16) (hrs2 : rs2 < 16) (hfn : fn < 32)
  (hlow : low < 256)
include hfn hlow

theorem bits_encR_fn : bits (encR major rd rs1 rs2 f fn low) 8 5 = fn := by
  have := b2n_lt_two f
  rw [bits_eq_div_mod, encR]
  omega

theorem bits_encR_rs2_low : bits (encR major rd rs1 rs2 f fn low) 14 1 = rs2 % 2 := by
  have := b2n_lt_two f
  rw [bits_eq_div_mod, encR]
  omega

include hrs2

theorem bits_encR_rs2 : bits (encR major rd rs1 rs2 f fn low) 14 4 = rs2 := by
  have := b2n_lt_two f
  rw [bits_eq_div_mod, encR]
  omega

include hrd hrs1

theorem bits_encR_major (hm : major < 64) : bits (encR major rd rs1 rs2 f fn low) 26 6 = major := by
  have := b2n_lt_two f
  rw [bits_eq_div_mod, encR]
  omega

end

/-- A word of major 0x0C is judged by the Q table. -/
theorem legalWord_encR_q (rd rs1 rs2 : Fin 16) (f : Bool) {fn low : Nat} (hfn : fn < 32) (hlow : low < 256) :
    legalWord (encR 12 rd rs1 rs2 f fn low) = legalQ (encR 12 rd rs1 rs2 f fn low) := by
  have hmajor := bits_encR_major (major := 12) f rd.isLt rs1.isLt rs2.isLt hfn hlow (by decide)
  simp only [legalWord, hmajor]

/-- SNEG and SABS name no second register. -/
theorem not_legalWord_unaryQ (rd rs1 rs2 : Fin 16) (f : Bool) {fn : Nat} (hfn : fn = 7 ∨ fn = 8) (h : rs2 ≠ 0) :
    legalWord (encR 12 rd rs1 rs2 f fn 0) = false := by
  have hlt : fn < 32 := by omega
  have hrs2 : rs2.val ≠ 0 := fun e => h (Fin.ext e)
  rw [legalWord_encR_q _ _ _ _ hlt (by decide)]
  simp [legalQ, bits_encR_fn f hlt, bits_encR_rs2 f rs2.isLt hlt, hfn, hrs2]

theorem rs2_eq_zero_of_legal {rd rs1 rs2 : Fin 16} {f : Bool} {fn : Nat} (hfn : fn = 7 ∨ fn = 8)
    (h : legalWord (encR 12 rd rs1 rs2 f fn 0) = true) : rs2 = 0 := by
  by_contra hne
  rw [not_legalWord_unaryQ rd rs1 rs2 f hfn hne] at h
  exact Bool.false_ne_true h

/-- CLAMP and CLAMPU take an even pair. -/
theorem not_legalWord_clamp (rd rs1 rs2 : Fin 16) (f : Bool) {fn : Nat} (hfn : fn = 9 ∨ fn = 10) (h : rs2.val % 2 = 1) :
    legalWord (encR 12 rd rs1 rs2 f fn 0) = false := by
  have hlt : fn < 32 := by omega
  rw [legalWord_encR_q _ _ _ _ hlt (by decide)]
  simp [legalQ, bits_encR_fn f hlt, bits_encR_rs2_low f hlt, hfn, h]

/-! ### Limits in plain arithmetic -/

theorem bne_eq_decide_ne {α : Type} [BEq α] [LawfulBEq α] [DecidableEq α] (x y : α) : (x != y) = decide (x ≠ y) :=
  Bool.eq_iff_iff.2 (by simp)

theorem limit_eq_max_min {lo hi : Int} (h : lo ≤ hi) (x : Int) : limit lo hi x = max lo (min hi x) := by
  unfold limit
  split
  · omega
  · split <;> omega

theorem satTo_eq_satW (w : Nat) (x : Int) : satTo w x = satW w x := by
  have hp : (0 : Int) < 2 ^ (w - 1) := by positivity
  rw [satTo, satW, limit_eq_max_min]
  · push_cast
    rfl
  · push_cast
    omega

theorem sat32_eq (x : Int) : sat32 x = (BitVec.ofInt 32 (satW 32 x), satW 32 x != x) := by
  simp [sat32, satTo_eq_satW, bne_eq_decide_ne]

theorem loHalf_eq_half0 (a : Word) : loHalf a = half0 a := by
  rw [loHalf, half0, BitVec.setWidth_eq_extractLsb' (by decide)]

theorem hiHalf_eq_half1 (a : Word) : hiHalf a = half1 a := rfl

theorem append_eq_fromHalves (lo hi : Int) : BitVec.ofInt 16 hi ++ BitVec.ofInt 16 lo = fromHalves lo hi := by
  apply BitVec.eq_of_toNat_eq
  rw [BitVec.toNat_append, ← Nat.shiftLeft_add_eq_or_of_lt (BitVec.isLt _), Nat.shiftLeft_eq]
  simp only [fromHalves, BitVec.toNat_ofInt]
  omega

theorem satHalves_eq (lo hi : Int) :
    satHalves lo hi = (fromHalves (satW 16 lo) (satW 16 hi), satW 16 lo != lo || satW 16 hi != hi) := by
  simp [satHalves, satTo_eq_satW, append_eq_fromHalves, bne_eq_decide_ne]

theorem qMul15_eq (a b : Word) : qMul15 a b =
    (BitVec.ofInt 32 (satW 16 ((half0 a * half0 b + 0x4000) / 2 ^ 15)),
      satW 16 ((half0 a * half0 b + 0x4000) / 2 ^ 15) != (half0 a * half0 b + 0x4000) / 2 ^ 15) := by
  simp only [qMul15, satTo_eq_satW, loHalf_eq_half0, bne_eq_decide_ne]

/-- A limit that holds 0 leaves a word's value between it and 0, so that the limited value fits a word. -/
theorem limited_ofInt_limit (a : Word) {lo hi : Int} (hlo : lo ≤ 0) (hhi : 0 ≤ hi) :
    limited a (BitVec.ofInt 32 (max lo (min hi a.toInt))) =
      (BitVec.ofInt 32 (max lo (min hi a.toInt)), max lo (min hi a.toInt) != a.toInt) := by
  have hge := BitVec.le_two_mul_toInt (x := a)
  have hlt := BitVec.two_mul_toInt_lt (x := a)
  have hval : (BitVec.ofInt 32 (max lo (min hi a.toInt))).toInt = max lo (min hi a.toInt) :=
    BitVec.toInt_ofInt_eq_self (by decide) (by omega) (by omega)
  have hiff : a = BitVec.ofInt 32 (max lo (min hi a.toInt)) ↔ max lo (min hi a.toInt) = a.toInt := by
    rw [← BitVec.toInt_inj, hval, eq_comm]
  simp only [limited, bne_eq_decide_ne, ne_eq, hiff]

theorem qLims_eq (k : Nat) (a b : Word) :
    qLims k a b = (BitVec.ofInt 32 (satW k a.toInt), satW k a.toInt != a.toInt) := by
  have hp : (0 : Int) < 2 ^ (k - 1) := by positivity
  rw [qLims, satTo_eq_satW]
  exact limited_ofInt_limit a (by omega) (by omega)

theorem qLimu_eq (k : Nat) (a b : Word) :
    qLimu k a b = (BitVec.ofInt 32 (max 0 (min (2 ^ k - 1) a.toInt)), max 0 (min (2 ^ k - 1) a.toInt) != a.toInt) := by
  have hp : (0 : Int) < 2 ^ k := by positivity
  rw [qLimu, limit_eq_max_min (by omega)]
  exact limited_ofInt_limit a le_rfl (by omega)

theorem clampS_eq (a lo hi : Word) :
    clampS a lo hi = if hi.slt lo then hi else BitVec.ofInt 32 (min (max a.toInt lo.toInt) hi.toInt) := by
  simp only [clampS, BitVec.slt_iff_toInt_lt]
  split
  · rfl
  · split
    · rw [show min (max a.toInt lo.toInt) hi.toInt = lo.toInt by omega, BitVec.ofInt_toInt]
    · split
      · rw [show min (max a.toInt lo.toInt) hi.toInt = hi.toInt by omega, BitVec.ofInt_toInt]
      · rw [show min (max a.toInt lo.toInt) hi.toInt = a.toInt by omega, BitVec.ofInt_toInt]

theorem clampU_eq (a lo hi : Word) :
    clampU a lo hi = if hi < lo then hi else BitVec.ofNat 32 (min (max a.toNat lo.toNat) hi.toNat) := by
  simp only [clampU, BitVec.lt_def]
  split
  · rfl
  · split
    · rw [show min (max a.toNat lo.toNat) hi.toNat = lo.toNat by omega, BitVec.ofNat_toNat, BitVec.setWidth_eq]
    · split
      · rw [show min (max a.toNat lo.toNat) hi.toNat = hi.toNat by omega, BitVec.ofNat_toNat, BitVec.setWidth_eq]
      · rw [show min (max a.toNat lo.toNat) hi.toNat = a.toNat by omega, BitVec.ofNat_toNat, BitVec.setWidth_eq]

/-! ### Results in a register -/

/-- The thread with `r` in register rd. -/
def withReg (x : Thread) (t rd : Nat) (r : Word) : Thread := { x with g := smSet x.g rd r (gDef x t rd) }

theorem KeepsGoing.writeRes {s : State} {n t : Nat} (h : KeepsGoing s n t) (rd : Nat) (f : Bool) (r : Word) (fl : Flg) :
    writeRes s n t rd f r fl =
      Machine.setThread s n t (withReg (goesOn (thread s n t) (if f then fl else flg s n t) (pc4 s n t)) t rd r) := by
  cases f <;> simp [Machine.writeRes, setG, setFlg, h.nextInstr_setThread, withReg, goesOn, flg, pc4, gDef]

/-- A Q operation leaves its result and flags in the thread, and its saturation in QSAT.STICKY whatever F is. -/
theorem KeepsGoing.writeQ {s : State} {n t : Nat} (h : KeepsGoing s n t) (rd : Nat) (f : Bool) (r : Word) (sat : Bool) :
    writeQ s n t rd f (r, sat) = Machine.setThread s n t (withReg
      { goesOn (thread s n t) (if f then fl4 r (flg s n t).c sat else flg s n t) (pc4 s n t) with
        qsat := (thread s n t).qsat || sat } t rd r) := by
  cases sat
  · simp [Machine.writeQ, h.writeRes, withReg, goesOn, flagsQ, fl4, gDef]
  · have hs : KeepsGoing (Machine.setThread s n t { thread s n t with qsat := true }) n t := h.setThread rfl rfl
    simp [Machine.writeQ, hs.writeRes, withReg, goesOn, flagsQ, fl4, flg, gDef, pc4]

/-- Of the registers of the thread only rd differs, and the rest of it is as `x` says. -/
theorem onlyGs_withReg (s : State) (n t rd : Nat) (r : Word) {x : Thread} (hg : x.g = (thread s n t).g)
    (hu : x.und = (thread s n t).und) :
    gReg (setThread s n t (withReg x t rd r)) n t rd = r ∧ OnlyGs n t [rd] x s (setThread s n t (withReg x t rd r)) := by
  refine ⟨by simp [withReg, gDef, smGet_smSet_same], onlyThread_setThread .., by simp [withReg], fun i hi => ?_⟩
  have hne : i ≠ rd := by simpa using hi
  simp [withReg, gDef, gReg, smGet_smSet_ne _ hne, hg, hu]

/-- A Q instruction whose operation is `op`, with the result `r` and saturation `lim`. -/
theorem qRule_of_exec {fn low : Nat} {mk : Fin 96 → Fin 4 → Fin 16 → Fin 16 → Fin 16 → Bool → Instr} {even : Bool}
    {r : Word → Word → Word → Word} {lim : Word → Word → Word → Bool} (op : Word → Word → Word → Word × Bool)
    (hop : ∀ a b c, op a b c = (r a b c, lim a b c))
    (hexec : ∀ n t rd rs1 rs2 f s, legalWord (encR 12 rd.val rs1.val rs2.val f fn low) = true →
      exec (mk n t rd rs1 rs2 f) s = done (issue s n t (encR 12 rd rs1 rs2 f fn low) fun s =>
        writeQ s n t rd f (op (gReg s n t rs1) (gReg s n t rs2) (gReg s n t (rs2 + 1))))) :
    QRule fn low mk even r lim := by
  intro n t rd rs1 rs2 f s h _
  have hend := (keepsGoing_of_issues h).writeQ rd f (r (gReg s n t rs1) (gReg s n t rs2) (gReg s n t (rs2 + 1)))
    (lim (gReg s n t rs1) (gReg s n t rs2) (gReg s n t (rs2 + 1)))
  rw [← hop] at hend
  exact completes_thread_of_issues h (hexec n t rd rs1 rs2 f s (legalWord_of_issues h)) hend
    (onlyGs_withReg s n t rd _ rfl rfl)

end Sys2Proof.Machine
end

section
open Sys2Proof Sys2Proof.Machine

/-- Settles O22: every Q instruction follows the one rule `qRule_of_exec`, its operation brought to plain arithmetic. -/
theorem saturatingArithmetic : Obligations.SaturatingArithmetic := by
  refine ⟨?sadd, ?ssub, ?saddh2, ?ssubh2, ?fmul15, ?fmul31, ?sneg, ?sabs, ?clamp, ?clampu, fun m => ?lims, fun m => ?limu, ?_, ?_⟩
  case sadd => exact qRule_of_exec (fun a b _ => qAdd a b) (fun a b _ => sat32_eq _) (by intros; rfl)
  case ssub => exact qRule_of_exec (fun a b _ => qSub a b) (fun a b _ => sat32_eq _) (by intros; rfl)
  case saddh2 =>
    refine qRule_of_exec (fun a b _ => qAddHalves a b) (fun a b _ => ?_) (by intros; rfl)
    simp only [qAddHalves, satHalves_eq, loHalf_eq_half0, hiHalf_eq_half1]
  case ssubh2 =>
    refine qRule_of_exec (fun a b _ => qSubHalves a b) (fun a b _ => ?_) (by intros; rfl)
    simp only [qSubHalves, satHalves_eq, loHalf_eq_half0, hiHalf_eq_half1]
  case fmul15 => exact qRule_of_exec (fun a b _ => qMul15 a b) (fun a b _ => qMul15_eq a b) (by intros; rfl)
  case fmul31 => exact qRule_of_exec (fun a b _ => qMul31 a b) (fun a b _ => sat32_eq _) (by intros; rfl)
  case sneg =>
    refine qRule_of_exec (fun a b _ => qNeg a b) (fun a _ _ => sat32_eq _) fun n t rd rs1 rs2 f s h => ?_
    rw [rs2_eq_zero_of_legal (.inl rfl) h]
    rfl
  case sabs =>
    refine qRule_of_exec (fun a b _ => qAbs a b) (fun a _ _ => sat32_eq _) fun n t rd rs1 rs2 f s h => ?_
    rw [rs2_eq_zero_of_legal (.inr rfl) h]
    rfl
  case clamp =>
    refine qRule_of_exec (fun a lo hi => limited a (clampS a lo hi)) (fun a lo hi => ?_) (by intros; rfl)
    rw [clampS_eq, limited]
  case clampu =>
    refine qRule_of_exec (fun a lo hi => limited a (clampU a lo hi)) (fun a lo hi => ?_) (by intros; rfl)
    rw [clampU_eq, limited]
  case lims => exact qRule_of_exec (fun a b _ => qLims (m.toNat + 1) a b) (fun a b _ => qLims_eq _ a b) (by intros; rfl)
  case limu => exact qRule_of_exec (fun a b _ => qLimu (m.toNat + 1) a b) (fun a b _ => qLimu_eq _ a b) (by intros; rfl)
  · intro fn rd rs1 rs2 f n t s hfn hrs2
    have hill := not_legalWord_unaryQ rd rs1 rs2 f hfn hrs2
    exact ⟨hill, canIssue_of_not_legal hill s n t⟩
  · intro fn rd rs1 rs2 f n t s hfn hodd
    have hill := not_legalWord_clamp rd rs1 rs2 f hfn hodd
    exact ⟨hill, canIssue_of_not_legal hill s n t⟩

end

section
/-! SUPPORT. The accumulator instructions (R179): their results in plain arithmetic, and one rule for those that write an
accumulator and one for those that read it. -/
namespace Sys2Proof.Machine

/-! ### Words that are not legal -/

section
variable {rd rs1 rs2 acc fn sh : Nat} (hsh : sh < 64)
include hsh

theorem bits_encA_sh : bits (encA rd rs1 rs2 acc fn sh) 0 6 = sh := by
  rw [bits_eq_div_mod, encA]
  omega

variable (hfn : fn < 64)
include hfn

theorem bits_encA_fn : bits (encA rd rs1 rs2 acc fn sh) 6 6 = fn := by
  rw [bits_eq_div_mod, encA]
  omega

variable (hrs1 : rs1 < 16) (hrs2 : rs2 < 16) (hacc : acc < 4)
include hrs1 hrs2 hacc

theorem bits_encA_rs12 : bits (encA rd rs1 rs2 acc fn sh) 14 8 = rs2 + 16 * rs1 := by
  rw [bits_eq_div_mod, encA]
  omega

variable (hrd : rd < 16)
include hrd

theorem bits_encA_major : bits (encA rd rs1 rs2 acc fn sh) 26 6 = 13 := by
  rw [bits_eq_div_mod, encA]
  omega

end

/-- SH belongs to ARD and ARDT alone, and ACLR names no register. -/
theorem not_legalWord_encA (fn : Fin 14) (rd rs1 rs2 : Fin 16) (acc : Fin 4) (sh : BitVec 6)
    (h : fn.val ≠ 11 ∧ fn.val ≠ 12 ∧ sh ≠ 0 ∨ fn = 7 ∧ (rs1 ≠ 0 ∨ rs2 ≠ 0)) :
    legalWord (encA rd rs1 rs2 acc fn sh.toNat) = false := by
  have hsh : sh.toNat < 64 := sh.isLt
  have hfn : fn.val < 64 := by omega
  have hmajor := bits_encA_major hsh hfn rs1.isLt rs2.isLt acc.isLt rd.isLt
  simp only [legalWord, hmajor, legalA, bits_encA_fn hsh hfn]
  rcases h with ⟨h11, h12, hne⟩ | ⟨rfl, hne⟩
  · have hsh0 : bits (encA rd rs1 rs2 acc fn sh.toNat) 0 6 ≠ 0 := by
      rw [bits_encA_sh hsh]
      exact fun e => hne (BitVec.eq_of_toNat_eq e)
    simp [h11, h12, hsh0]
  · have hrs : bits (encA rd rs1 rs2 acc 7 sh.toNat) 14 8 ≠ 0 := by
      rw [bits_encA_rs12 hsh (by decide) rs1.isLt rs2.isLt acc.isLt]
      have : rs1.val ≠ 0 ∨ rs2.val ≠ 0 := hne.imp (fun h e => h (Fin.ext e)) fun h e => h (Fin.ext e)
      omega
    simp [hrs]

/-! ### Results in plain arithmetic -/

theorem prod_eq (a b : Word) : prod a b = a.signExtend 72 * b.signExtend 72 := by
  rw [prod, BitVec.ofInt_mul]
  rfl

theorem mAddU_eq (x : BitVec 72) (a b : Word) : mAddU x a b = x + a.zeroExtend 72 * b.zeroExtend 72 := by
  rw [mAddU, BitVec.ofNat_mul, BitVec.ofNat_toNat, BitVec.ofNat_toNat]

theorem mLow_eq (x : BitVec 72) (a b : Word) : mLow x a b = BitVec.ofNat 72 (x.toNat / 2 ^ 32 * 2 ^ 32 + a.toNat) := by
  apply BitVec.eq_of_toNat_eq
  rw [mLow, BitVec.toNat_append, ← Nat.shiftLeft_add_eq_or_of_lt a.isLt, Nat.shiftLeft_eq]
  simp only [BitVec.extractLsb'_toNat, BitVec.toNat_ofNat, Nat.shiftRight_eq_div_pow]
  omega

theorem mHigh_eq (x : BitVec 72) (a b : Word) :
    mHigh x a b = BitVec.ofNat 72 (x.toNat / 2 ^ 64 * 2 ^ 64 + a.toNat * 2 ^ 32 + x.toNat % 2 ^ 32) := by
  apply BitVec.eq_of_toNat_eq
  rw [mHigh, BitVec.toNat_append, ← Nat.shiftLeft_add_eq_or_of_lt (BitVec.isLt _), BitVec.toNat_append,
    ← Nat.shiftLeft_add_eq_or_of_lt a.isLt, Nat.shiftLeft_eq, Nat.shiftLeft_eq]
  simp only [BitVec.extractLsb'_toNat, BitVec.toNat_ofNat, Nat.shiftRight_eq_div_pow]
  omega

theorem mGuard_eq (x : BitVec 72) (a b : Word) :
    mGuard x a b = BitVec.ofNat 72 (a.toNat % 2 ^ 8 * 2 ^ 64 + x.toNat % 2 ^ 64) := by
  apply BitVec.eq_of_toNat_eq
  rw [mGuard, BitVec.toNat_append, ← Nat.shiftLeft_add_eq_or_of_lt (BitVec.isLt _), Nat.shiftLeft_eq]
  simp only [BitVec.extractLsb'_toNat, BitVec.toNat_ofNat, Nat.shiftRight_eq_div_pow]
  omega

theorem roundAcc_eq (k : Nat) (x : BitVec 72) :
    roundAcc k x = (BitVec.ofInt 32 (satW 32 (ardRound x k)), satW 32 (ardRound x k) != ardRound x k) := by
  unfold roundAcc ardRound
  split <;> exact sat32_eq _

theorem cutAcc_eq (k : Nat) (x : BitVec 72) : cutAcc k x = (BitVec.ofInt 32 (x.toInt / 2 ^ k), false) := by
  have hlow (i : Int) : (BitVec.ofInt 72 i).setWidth 32 = BitVec.ofInt 32 i := by
    apply BitVec.eq_of_toNat_eq
    simp only [BitVec.toNat_setWidth, BitVec.toNat_ofInt]
    omega
  rw [cutAcc, BitVec.sshiftRight_eq, Int.shiftRight_eq_div_pow, ← BitVec.setWidth_eq_extractLsb' (by decide), hlow]
  push_cast
  rfl

theorem guardAcc_eq (x : BitVec 72) : guardAcc x = (BitVec.ofInt 32 (x.toInt / 2 ^ 64), false) := by
  have hguard : (x.extractLsb' 64 8).toInt = x.toInt / 2 ^ 64 := by
    simp only [BitVec.toInt_eq_toNat_cond, BitVec.extractLsb'_toNat, Nat.shiftRight_eq_div_pow]
    omega
  rw [guardAcc, ← hguard]
  rfl

/-! ### The rules -/

/-- The thread with `v` in an accumulator. -/
def withAcc (x : Thread) (t i : Nat) (v : BitVec 72) : Thread := { x with acc := smSet x.acc i v (accDef x t i) }

theorem KeepsGoing.nextInstr_setA {s : State} {n t : Nat} (h : KeepsGoing s n t) (i : Nat) (v : BitVec 72) :
    Machine.nextInstr (setA s n t i v) n t =
      Machine.setThread s n t (withAcc (goesOn (thread s n t) (flg s n t) (pc4 s n t)) t i v) := by
  simp [setA, h.nextInstr_setThread, withAcc, goesOn, flg, pc4, accDef]

/-- Of the accumulators only one differs, and the rest of the thread is as `x` says. -/
theorem onlyAcc_withAcc (s : State) (n t i : Nat) (v : BitVec 72) {x : Thread} (ha : x.acc = (thread s n t).acc)
    (hu : x.und = (thread s n t).und) :
    aReg (setThread s n t (withAcc x t i v)) n t i = v
    ∧ (∀ j, j ≠ i → aReg (setThread s n t (withAcc x t i v)) n t j = aReg s n t j)
    ∧ OnlyThread n t s (setThread s n t (withAcc x t i v))
    ∧ thread (setThread s n t (withAcc x t i v)) n t =
      { x with acc := (thread (setThread s n t (withAcc x t i v)) n t).acc } := by
  refine ⟨by simp [withAcc, accDef, smGet_smSet_same], fun j hj => ?_, onlyThread_setThread .., by simp [withAcc]⟩
  simp [withAcc, accDef, aReg, smGet_smSet_ne _ hj, ha, hu]

/-- An instruction that writes an accumulator, in the terms of the claims. -/
theorem accOp_completes {c : Instr} {n : Fin 96} {t : Fin 4} {rs1 rs2 : Nat} {acc : Fin 4} {fn : Nat}
    {op : BitVec 72 → Word → Word → BitVec 72} {s : State} (h : Issues s n t (encA 0 rs1 rs2 acc fn 0))
    (hc : exec c s = done (accOp n t rs1 rs2 acc fn op s)) :
    Completes c s [] fun u =>
      aReg u n t acc = op (aReg s n t acc) (gReg s n t rs1) (gReg s n t rs2)
      ∧ (∀ j, j ≠ acc.val → aReg u n t j = aReg s n t j) ∧ OnlyThread n t s u
      ∧ thread u n t = { goesOn (thread s n t) (flg s n t) (pc4 s n t) with acc := (thread u n t).acc } :=
  completes_thread_of_issues h hc ((keepsGoing_of_issues h).nextInstr_setA ..) (onlyAcc_withAcc s n t acc _ rfl rfl)

theorem macRule_of_exec {fn : Nat} {mk : Fin 96 → Fin 4 → Fin 16 → Fin 16 → Fin 4 → Instr}
    {r : BitVec 72 → Word → Word → BitVec 72} (op : BitVec 72 → Word → Word → BitVec 72) (hop : ∀ x a b, op x a b = r x a b)
    (hexec : ∀ n t rs1 rs2 acc s, exec (mk n t rs1 rs2 acc) s = done (accOp n t rs1 rs2 acc fn op s)) :
    MacRule fn mk r := by
  intro n t rs1 rs2 acc s h
  rw [← hop]
  exact accOp_completes h (hexec ..)

/-- An instruction that reads an accumulator into rd, in the terms of the claims. -/
theorem accRead_completes {c : Instr} {n : Fin 96} {t : Fin 4} {rd rs1 rs2 : Fin 16} {acc : Fin 4} {fn sh : Nat}
    {op : BitVec 72 → Word × Bool} {r : Word} {lim : Bool} {s : State} (h : Issues s n t (encA rd rs1 rs2 acc fn sh))
    (hop : op (aReg s n t acc) = (r, lim)) (hc : exec c s = done (accRead n t rd rs1 rs2 acc fn sh op s)) :
    Completes c s [] fun u => gReg u n t rd = r
      ∧ OnlyGs n t [rd] { goesOn (thread s n t) (flg s n t) (pc4 s n t) with qsat := (thread s n t).qsat || lim } s u := by
  have hgo := keepsGoing_of_issues h
  refine completes_thread_of_issues h hc (x := withReg { goesOn (thread s n t) (flg s n t) (pc4 s n t) with
    qsat := (thread s n t).qsat || lim } t rd r) ?_ (onlyGs_withReg s n t rd _ rfl rfl)
  cases lim <;> simp [hop, setG, hgo.nextInstr_setThread, withReg, goesOn, flg, pc4, gDef]

theorem accReadRule_of_exec {fn : Nat} {mk : Fin 96 → Fin 4 → Fin 16 → Fin 16 → Fin 16 → Fin 4 → BitVec 6 → Instr}
    {r : BitVec 72 → Nat → Word} {lim : BitVec 72 → Nat → Bool} (op : Nat → BitVec 72 → Word × Bool)
    (hop : ∀ k x, op k x = (r x k, lim x k))
    (hexec : ∀ n t rd rs1 rs2 acc sh s,
      exec (mk n t rd rs1 rs2 acc sh) s = done (accRead n t rd rs1 rs2 acc fn sh.toNat (op sh.toNat) s)) :
    AccReadRule fn mk r lim :=
  fun _ _ _ _ _ _ _ _ h => accRead_completes h (hop ..) (hexec ..)

end Sys2Proof.Machine
end

section
open Sys2Proof Sys2Proof.Machine

/-- Settles O23: the instructions that write an accumulator follow `macRule_of_exec`, those that read one `accRead_completes`. -/
theorem accumulatorOperations : Obligations.AccumulatorOperations := by
  refine ⟨?mac, ?msu, ?macu, ?mz, ?mac2h, ?aclr, ?awl, ?awh, ?awg, ?ard, ?ardt, ?arg, ?illegal⟩
  case mac => exact macRule_of_exec mAdd (fun x a b => congrArg (x + ·) (prod_eq a b)) (by intros; rfl)
  case msu => exact macRule_of_exec mSub (fun x a b => congrArg (x - ·) (prod_eq a b)) (by intros; rfl)
  case macu => exact macRule_of_exec mAddU mAddU_eq (by intros; rfl)
  case mz => exact macRule_of_exec mSet (fun _ => prod_eq) (by intros; rfl)
  case mac2h => exact macRule_of_exec mAdd2h (fun _ _ _ => rfl) (by intros; rfl)
  case aclr => exact fun n t acc s h => accOp_completes (op := mClear) h rfl
  case awl => exact macRule_of_exec mLow mLow_eq (by intros; rfl)
  case awh => exact macRule_of_exec mHigh mHigh_eq (by intros; rfl)
  case awg => exact macRule_of_exec mGuard mGuard_eq (by intros; rfl)
  case ard => exact accReadRule_of_exec roundAcc roundAcc_eq (by intros; rfl)
  case ardt => exact accReadRule_of_exec cutAcc cutAcc_eq (by intros; rfl)
  case arg =>
    intro n t rd rs1 rs2 acc s h
    have hrule := accRead_completes (c := .iArg n t rd rs1 rs2 acc) h (guardAcc_eq _) rfl
    simp only [Bool.or_false] at hrule
    exact hrule
  case illegal =>
    intro fn rd rs1 rs2 acc sh n t s h
    have hill := not_legalWord_encA fn rd rs1 rs2 acc sh h
    exact ⟨hill, canIssue_of_not_legal hill s n t⟩

end

section
/-! SUPPORT. Bits of a field written one by one, and what a halt, a fault and the recording of a failed store do (R153, R165,
R186, R485). -/
namespace Sys2Proof.Machine

/-! ### Bits of a field -/

theorem testBit_bits (x lo w i : Nat) : (bits x lo w).testBit i = (decide (i < w) && x.testBit (lo + i)) := by
  rw [bits, Nat.testBit_mod_two_pow, Nat.testBit_shiftRight]

theorem testBit_putBits (x lo w v i : Nat) :
    (putBits x lo w v).testBit i = if lo ≤ i ∧ i < lo + w then v.testBit (i - lo) else x.testBit i := by
  have hlow : x % 2 ^ lo < 2 ^ lo := Nat.mod_lt _ (Nat.two_pow_pos _)
  have hput : v % 2 ^ w < 2 ^ w := Nat.mod_lt _ (Nat.two_pow_pos _)
  have hsplit : putBits x lo w v = 2 ^ lo * (2 ^ w * (x / 2 ^ lo / 2 ^ w) + v % 2 ^ w) + x % 2 ^ lo := by
    have hx : x = 2 ^ lo * (2 ^ w * (x / 2 ^ lo / 2 ^ w) + x / 2 ^ lo % 2 ^ w) + x % 2 ^ lo := by
      rw [Nat.div_add_mod, Nat.div_add_mod]
    rw [putBits, bits_eq_div_mod]
    conv_lhs => enter [1, 1]; rw [hx]
    simp only [Nat.mul_add, Nat.mul_comm _ (2 ^ lo)]
    omega
  rw [hsplit, Nat.testBit_two_pow_mul_add _ hlow]
  by_cases hbelow : i < lo
  · rw [if_pos hbelow, if_neg (by omega), Nat.testBit_mod_two_pow, decide_eq_true hbelow, Bool.true_and]
  · rw [if_neg hbelow, Nat.testBit_two_pow_mul_add _ hput]
    by_cases hin : i - lo < w
    · rw [if_pos hin, if_pos (by omega), Nat.testBit_mod_two_pow, decide_eq_true hin, Bool.true_and]
    · rw [if_neg hin, if_neg (by omega), Nat.testBit_div_two_pow, Nat.testBit_div_two_pow,
        show i - lo - w + w + lo = i by omega]

/-- Bits that were put into a field are read from it. -/
theorem bits_putBits_same {x lo w v W : Nat} (h : lo + w ≤ W) : bits (putBits x lo w v % 2 ^ W) lo w = v % 2 ^ w := by
  apply Nat.eq_of_testBit_eq
  intro i
  rw [testBit_bits, Nat.testBit_mod_two_pow, Nat.testBit_mod_two_pow, testBit_putBits]
  by_cases hi : i < w
  · have hW : lo + i < W := by omega
    simp [hi, hW]
  · simp [hi]

/-- Bits beside those that were put into a field are as before. -/
theorem bits_putBits_other {x lo w v W lo' w' : Nat} (hW : lo' + w' ≤ W) (h : lo' + w' ≤ lo ∨ lo + w ≤ lo') :
    bits (putBits x lo w v % 2 ^ W) lo' w' = bits x lo' w' := by
  apply Nat.eq_of_testBit_eq
  intro i
  rw [testBit_bits, testBit_bits, Nat.testBit_mod_two_pow, testBit_putBits]
  by_cases hi : i < w'
  · have hlt : lo' + i < W := by omega
    have hout : ¬(lo ≤ lo' + i ∧ lo' + i < lo + w) := by omega
    simp [hlt, hout]
  · simp [hi]

theorem bitOf_putBits_same {x i v W : Nat} (h : i < W) : bitOf (putBits x i 1 v % 2 ^ W) i = (v % 2 == 1) := by
  rw [bitOf, bits_putBits_same (by omega), pow_one]

theorem bitOf_putBits_other {x i v W j : Nat} (hW : j < W) (h : j ≠ i) : bitOf (putBits x i 1 v % 2 ^ W) j = bitOf x j := by
  rw [bitOf, bits_putBits_other (by omega) (by omega), bitOf]

/-! ### The state, the halt and the START bit of a thread -/

section
variable (s : State) (n : Nat) {t j : Nat}

@[simp] theorem thrState_raise (c : Nat) (l : List (Nat × Nat)) : thrState (raise s c l) n t = thrState s n t := rfl
@[simp] theorem thrState_hush : thrState (hush s) n t = thrState s n t := rfl
@[simp] theorem thrState_setThread (x : Thread) : thrState (setThread s n t x) n j = thrState s n j := rfl
@[simp] theorem halted_raise (c : Nat) (l : List (Nat × Nat)) : halted (raise s c l) n t = halted s n t := rfl
@[simp] theorem halted_hush : halted (hush s) n t = halted s n t := rfl
@[simp] theorem haltCause_raise (c : Nat) (l : List (Nat × Nat)) : haltCause (raise s c l) n t = haltCause s n t := rfl
@[simp] theorem haltCause_hush : haltCause (hush s) n t = haltCause s n t := rfl

theorem thrState_setThrState_same (ht : t < 4) (x : Nat) : thrState (setThrState s n t x) n t = x % 4 := by
  rw [thrState, setThrState, fld_setFld_same]
  exact bits_putBits_same (by change _ ≤ 8; omega)

theorem thrState_setThrState_other (hj : j < 4) (h : j ≠ t) (x : Nat) :
    thrState (setThrState s n t x) n j = thrState s n j := by
  rw [thrState, setThrState, fld_setFld_same]
  exact bits_putBits_other (by change _ ≤ 8; omega) (by omega)

theorem halted_setHalted_same (ht : t < 4) (b : Bool) : halted (setHalted s n t b) n t = b := by
  rw [halted, setHalted, fld_setFld_same]
  exact (bitOf_putBits_same ht).trans (by cases b <;> rfl)

theorem haltCause_setFld_same (ht : t < 4) (x : Nat) :
    haltCause (setFld s (F.DBG_ENGn_STATUS_CAUSE n) (putBits (fld s (F.DBG_ENGn_STATUS_CAUSE n)) (3 * t) 3 x)) n t = x % 8 := by
  rw [haltCause, fld_setFld_same]
  exact bits_putBits_same (by change _ ≤ 12; omega)

theorem thrState_setFld_ne {f : Fld} (h : (F.ENG_n_STATUS_THREADS n).key ≠ f.key) (v : Nat) :
    thrState (setFld s f v) n t = thrState s n t := by simp only [thrState, fld_setFld_ne _ h]

theorem halted_setFld_ne {f : Fld} (h : (F.DBG_ENGn_STATUS_HALTED n).key ≠ f.key) (v : Nat) :
    halted (setFld s f v) n t = halted s n t := by simp only [halted, fld_setFld_ne _ h]

theorem haltCause_setFld_ne {f : Fld} (h : (F.DBG_ENGn_STATUS_CAUSE n).key ≠ f.key) (v : Nat) :
    haltCause (setFld s f v) n t = haltCause s n t := by simp only [haltCause, fld_setFld_ne _ h]

/-! ### A halt -/

theorem Thread.neither_step_nor_watch {x : Thread} (hs : x.step = false) (hw : x.watch = false) :
    { x with step := false, watch := false } = x := by
  cases x
  cases hs
  cases hw
  rfl

theorem haltOne_engines (c : Nat) :
    (haltOne s n t c).engines = (setThread s n t { thread s n t with step := false, watch := false }).engines := rfl

theorem haltOne_evq (c : Nat) : (haltOne s n t c).evq = s.evq ++ [ev 0x1E01 [(1, c)]] := rfl

theorem only_haltOne (t c : Nat) : Only [.evq, .engines]
    [F.DBG_ENGn_STATUS_HALTED n, F.DBG_ENGn_STATUS_CAUSE n, F.DBG_ENGn_STATUS_PENDING n] s (haltOne s n t c) :=
  (((((Only.refl _ _ s).setThread (by decide) n t _).setFld (by simp) _).setFld (by simp) _).setFld (by simp) _).raise
    (by decide) _ _

theorem halted_haltOne (ht : t < 4) (c : Nat) : halted (haltOne s n t c) n t = true := by
  have hkey : (F.DBG_ENGn_STATUS_HALTED n).key ≠ (F.DBG_ENGn_STATUS_PENDING n).key := by
    simp [F.DBG_ENGn_STATUS_HALTED, F.DBG_ENGn_STATUS_PENDING]
  rw [haltOne, halted_raise, setHaltPending, halted_setFld_ne _ n hkey, halted_setHalted_same _ n ht]

theorem haltCause_haltOne (ht : t < 4) (c : Nat) : haltCause (haltOne s n t c) n t = c % 8 := by
  have hpend : (F.DBG_ENGn_STATUS_CAUSE n).key ≠ (F.DBG_ENGn_STATUS_PENDING n).key := by
    simp [F.DBG_ENGn_STATUS_CAUSE, F.DBG_ENGn_STATUS_PENDING]
  have hhalt : (F.DBG_ENGn_STATUS_CAUSE n).key ≠ (F.DBG_ENGn_STATUS_HALTED n).key := by
    simp [F.DBG_ENGn_STATUS_CAUSE, F.DBG_ENGn_STATUS_HALTED]
  rw [haltOne, haltCause_raise, setHaltPending, haltCause_setFld_ne _ n hpend, setHalted, haltCause_setFld_ne _ n hhalt,
    haltCause_setFld_same _ n ht]

/-! ### A fault -/

theorem faultThread_engines (c : Nat) : (faultThread s n t c).engines =
    (setThread s n t { thread s n t with blk := .free, go := false, step := false, watch := false }).engines := rfl

theorem faultThread_evq (c : Nat) : (faultThread s n t c).evq = s.evq ++ [ev 0x1801 [(1, n), (1, t), (1, c)]] := rfl

theorem only_faultThread (t c : Nat) : Only [.evq, .engines] [F.ENG_n_STATUS_THREADS n, F.ENG_n_Tt_FAULT_CAUSE n t,
    F.ENG_n_CTRL_START n, F.DBG_ENGn_STATUS_HALTED n, F.DBG_ENGn_STATUS_PENDING n] s (faultThread s n t c) :=
  (((((((Only.refl _ _ s).setThread (by decide) n t _).setFld (by simp) _).setFld (by simp) _).setFld (by simp) _).setFld
    (by simp) _).setFld (by simp) _).raise (by decide) _ _

/-- Of the state of the threads a fault writes only its own thread's. -/
theorem thrState_faultThread (hj : j < 4) (ht : t < 4) (c : Nat) :
    thrState (faultThread s n t c) n j = if j = t then tFAULT else thrState s n j := by
  have hstart : (F.ENG_n_STATUS_THREADS n).key ≠ (F.ENG_n_CTRL_START n).key := by
    simp [F.ENG_n_STATUS_THREADS, F.ENG_n_CTRL_START]
  have hcause : (F.ENG_n_STATUS_THREADS n).key ≠ (F.ENG_n_Tt_FAULT_CAUSE n t).key := by
    simp only [F.ENG_n_STATUS_THREADS, F.ENG_n_Tt_FAULT_CAUSE]
    omega
  have hpend : (F.ENG_n_STATUS_THREADS n).key ≠ (F.DBG_ENGn_STATUS_PENDING n).key := by
    simp only [F.ENG_n_STATUS_THREADS, F.DBG_ENGn_STATUS_PENDING]
    omega
  have hhalt : (F.ENG_n_STATUS_THREADS n).key ≠ (F.DBG_ENGn_STATUS_HALTED n).key := by
    simp only [F.ENG_n_STATUS_THREADS, F.DBG_ENGn_STATUS_HALTED]
    omega
  rw [faultThread, thrState_raise, thrState_setFld_ne _ n hstart, thrState_setFld_ne _ n hcause]
  by_cases h : j = t
  · rw [if_pos h, h, thrState_setThrState_same _ n ht]
    rfl
  · rw [if_neg h, thrState_setThrState_other _ n hj h, setHaltPending, thrState_setFld_ne _ n hpend, setHalted,
      thrState_setFld_ne _ n hhalt, thrState_setThread]

/-- Of the START bits a fault clears only its own thread's. -/
theorem start_faultThread (hj : j < 4) (ht : t < 4) (c : Nat) : bitOf (fld (faultThread s n t c) (F.ENG_n_CTRL_START n)) j =
    if j = t then false else bitOf (fld s (F.ENG_n_CTRL_START n)) j := by
  have hthreads : (F.ENG_n_CTRL_START n).key ≠ (F.ENG_n_STATUS_THREADS n).key := by
    simp [F.ENG_n_STATUS_THREADS, F.ENG_n_CTRL_START]
  have hcause : (F.ENG_n_CTRL_START n).key ≠ (F.ENG_n_Tt_FAULT_CAUSE n t).key := by
    simp only [F.ENG_n_CTRL_START, F.ENG_n_Tt_FAULT_CAUSE]
    omega
  have hpend : (F.ENG_n_CTRL_START n).key ≠ (F.DBG_ENGn_STATUS_PENDING n).key := by
    simp only [F.ENG_n_CTRL_START, F.DBG_ENGn_STATUS_PENDING]
    omega
  have hhalt : (F.ENG_n_CTRL_START n).key ≠ (F.DBG_ENGn_STATUS_HALTED n).key := by
    simp only [F.ENG_n_CTRL_START, F.DBG_ENGn_STATUS_HALTED]
    omega
  rw [faultThread, fld_raise, fld_setFld_same, setThrState, fld_setFld_ne _ hthreads, setHaltPending, fld_setFld_ne _ hpend,
    setHalted, fld_setFld_ne _ hhalt, fld_setThread]
  by_cases h : j = t
  · rw [if_pos h, h]
    exact bitOf_putBits_same ht
  · rw [if_neg h]
    exact bitOf_putBits_other hj h

theorem fld_faultThread_cause {c : Nat} (hc : c < 16) : fld (faultThread s n t c) (F.ENG_n_Tt_FAULT_CAUSE n t) = c := by
  have hkey : (F.ENG_n_Tt_FAULT_CAUSE n t).key ≠ (F.ENG_n_CTRL_START n).key := by
    simp only [F.ENG_n_CTRL_START, F.ENG_n_Tt_FAULT_CAUSE]
    omega
  rw [faultThread, fld_raise, fld_setFld_ne _ hkey, fld_setFld_same]
  exact Nat.mod_eq_of_lt hc

end

/-- An instruction whose effect is a fault of its thread faults in the terms of the claims. -/
theorem faults_of_issues {c : Instr} {s : State} {n t w cause : Nat} {k : State → State} (ht : t < 4) (hcause : cause < 16)
    (h : Issues s n t w) (hc : exec c s = done (issue s n t w k)) (hk : k s = faultThread s n t cause) : Faults c n t cause s := by
  have hquiet : Quiet s := h.1
  obtain ⟨-, hwatch, hstep, -⟩ := keepsGoing_of_issues h
  have honly := (only_faultThread s n t cause).hush hquiet
  have hengines := (hush_engines (faultThread s n t cause)).trans (faultThread_engines s n cause)
  obtain ⟨-, -, hengine, hothers⟩ := onlyThread_of_engines (s := { s with regs := (hush (faultThread s n t cause)).regs })
    hengines honly.1.with_regs
  refine completes_of_issues h hc (by rw [hk, faultThread_evq, hquiet, List.nil_append]) ?_
  rw [hk]
  refine ⟨?_, (fld_hush ..).trans (fld_faultThread_cause s n hcause), ?_, ?_, hengine, hothers, fun j hj hne => ⟨?_, ?_⟩, honly⟩
  · rw [thrState_hush, thrState_faultThread s n ht ht, if_pos rfl]
  · rw [fld_hush, start_faultThread s n ht ht, if_pos rfl]
  · rw [thread_of_engines hengines, thread_setThread_same]
    simp [hwatch, hstep, blk_of_issues h]
  · rw [thrState_hush, thrState_faultThread s n hj ht, if_neg hne]
  · rw [fld_hush, start_faultThread s n hj ht, if_neg hne]

/-! ### A window store that fails while a FENCE waits for it -/

theorem storesOut_eq_true_iff (s : State) (n t : Nat) :
    storesOut s n t = true ↔ ∃ q ∈ (engine s n).win, q.store = true ∧ q.thread = t := by
  simp [storesOut]

section
variable (s : State) (n : Nat) (q : WinReq) (st : Nat)

theorem only_storeError : Only [.evq] [F.ENG_n_WERR_STATUS n, F.ENG_n_WERR_WINDOW n, F.ENG_n_WERR_OFF_OFFSET n,
    F.ENG_n_WERR_VALID n] s (storeError s n q st) := by
  have hraised := (Only.refl [.evq] [F.ENG_n_WERR_STATUS n, F.ENG_n_WERR_WINDOW n, F.ENG_n_WERR_OFF_OFFSET n,
    F.ENG_n_WERR_VALID n] s).raise (by decide) 0x1803 [(1, n)]
  unfold storeError
  dsimp only
  split
  · exact hraised
  · exact (((hraised.setFld (by simp) _).setFld (by simp) _).setFld (by simp) _).setFld (by simp) _

theorem storeError_evq : (storeError s n q st).evq = s.evq ++ [ev 0x1803 [(1, n)]] := by
  unfold storeError
  dsimp only
  split <;> rfl

theorem storeError_engines : (storeError s n q st).engines = s.engines := by
  unfold storeError
  dsimp only
  split <;> rfl

/-- The record of a failed store, where none was valid (R165). -/
theorem fld_storeError (h : flag s (F.ENG_n_WERR_VALID n) = false) :
    fld (storeError s n q st) (F.ENG_n_WERR_STATUS n) = st % 16
    ∧ fld (storeError s n q st) (F.ENG_n_WERR_WINDOW n) = q.win % 8
    ∧ fld (storeError s n q st) (F.ENG_n_WERR_OFF_OFFSET n) = q.off % 2 ^ 28
    ∧ flag (storeError s n q st) (F.ENG_n_WERR_VALID n) = true := by
  have hse : storeError s n q st = setFld (setFld (setFld (setFld (raise s 0x1803 [(1, n)]) (F.ENG_n_WERR_STATUS n) st)
      (F.ENG_n_WERR_WINDOW n) q.win) (F.ENG_n_WERR_OFF_OFFSET n) q.off) (F.ENG_n_WERR_VALID n) 1 := by
    unfold storeError
    exact if_neg (by simpa [flag] using h)
  have hsv : (F.ENG_n_WERR_STATUS n).key ≠ (F.ENG_n_WERR_VALID n).key := by simp [F.ENG_n_WERR_STATUS, F.ENG_n_WERR_VALID]
  have hso : (F.ENG_n_WERR_STATUS n).key ≠ (F.ENG_n_WERR_OFF_OFFSET n).key := by
    simp [F.ENG_n_WERR_STATUS, F.ENG_n_WERR_OFF_OFFSET]
  have hsw : (F.ENG_n_WERR_STATUS n).key ≠ (F.ENG_n_WERR_WINDOW n).key := by simp [F.ENG_n_WERR_STATUS, F.ENG_n_WERR_WINDOW]
  have hwv : (F.ENG_n_WERR_WINDOW n).key ≠ (F.ENG_n_WERR_VALID n).key := by simp [F.ENG_n_WERR_WINDOW, F.ENG_n_WERR_VALID]
  have hwo : (F.ENG_n_WERR_WINDOW n).key ≠ (F.ENG_n_WERR_OFF_OFFSET n).key := by
    simp [F.ENG_n_WERR_WINDOW, F.ENG_n_WERR_OFF_OFFSET]
  have hov : (F.ENG_n_WERR_OFF_OFFSET n).key ≠ (F.ENG_n_WERR_VALID n).key := by
    simp [F.ENG_n_WERR_OFF_OFFSET, F.ENG_n_WERR_VALID]
  rw [hse, flag, fld_setFld_same, fld_setFld_ne _ hsv, fld_setFld_ne _ hso, fld_setFld_ne _ hsw, fld_setFld_same,
    fld_setFld_ne _ hwv, fld_setFld_ne _ hwo, fld_setFld_same, fld_setFld_ne _ hov, fld_setFld_same]
  exact ⟨rfl, rfl, rfl, rfl⟩

end

/-- The state once the failed store `q` has left the queue and is recorded. -/
def storeFailed (s : State) (n : Nat) (q : WinReq) : State :=
  storeError (setEngine s n { engine s n with win := (engine s n).win.erase q }) n q q.pre

section
variable {s : State} {n : Nat} {q : WinReq}

theorem storeFailed_engines :
    (storeFailed s n q).engines = (setEngine s n { engine s n with win := (engine s n).win.erase q }).engines :=
  storeError_engines ..

theorem engine_storeFailed : engine (storeFailed s n q) n = { engine s n with win := (engine s n).win.erase q } := by
  rw [engine, storeFailed_engines]
  exact engine_setEngine_same s n _

theorem thread_storeFailed (t : Nat) : thread (storeFailed s n q) n t = thread s n t := by
  rw [thread, engine_storeFailed]
  rfl

theorem only_storeFailed : Only [.evq, .engines] [F.ENG_n_WERR_STATUS n, F.ENG_n_WERR_WINDOW n, F.ENG_n_WERR_OFF_OFFSET n,
    F.ENG_n_WERR_VALID n] s (storeFailed s n q) := by
  have hengine := onlyParts_setEngine s n { engine s n with win := (engine s n).win.erase q }
  obtain ⟨hparts, hflds⟩ := only_storeError (setEngine s n { engine s n with win := (engine s n).win.erase q }) n q q.pre
  exact ⟨(hengine.mono (by simp)).trans (hparts.mono (by simp)), hflds⟩

theorem keepsGoing_storeFailed {t : Nat} (h : KeepsGoing s n t) : KeepsGoing (storeFailed s n q) n t := by
  refine h.congr (thread_storeFailed t) fun f hf => only_storeFailed.2 f ?_
  simp only [List.mem_cons, List.not_mem_nil, or_false] at hf
  simp only [List.map, List.mem_cons, List.not_mem_nil, or_false, F.ENG_n_WERR_STATUS, F.ENG_n_WERR_WINDOW,
    F.ENG_n_WERR_OFF_OFFSET, F.ENG_n_WERR_VALID]
  rcases hf with rfl | rfl | rfl | rfl
  · simp only [F.ENG_n_CTRL_ENABLE]
    omega
  · simp only [F.ENG_n_STATUS_DRAINING]
    omega
  · simp only [F.ENG_n_CTRL_START]
    omega
  · simp only [F.DBG_ENGn_STATUS_PENDING]
    omega

section
variable {k : Nat} (x : AccIn) (hq : (engine s n).win[k]? = some q) (hstore : q.store = true) (hpre : q.pre ≠ 0)
  (hfence : (thread s n q.thread).blk = .fence) (hgo : KeepsGoing s n q.thread)
include hq hstore hpre hfence hgo

/-- A store that had failed as it was issued is recorded, and the FENCE that waits goes on if it was the thread's last one. -/
theorem windowResponse_storeFailed :
    windowResponse s n k x =
      if ((engine s n).win.erase q).any fun p => p.store && p.thread == q.thread then storeFailed s n q
      else setThread (storeFailed s n q) n q.thread (goesOn (thread s n q.thread) (flg s n q.thread) (pc4 s n q.thread)) := by
  have hok : q.pre ≠ ST.ok := hpre
  have hend : windowResponse s n k x = if (thread (storeFailed s n q) n q.thread).blk = .fence ∧
      storesOut (storeFailed s n q) n q.thread = false then nextInstr (storeFailed s n q) n q.thread else storeFailed s n q := by
    simp only [windowResponse, hq]
    rw [if_pos hpre, endWin, if_pos hstore, if_neg hok]
    rfl
  have hout : storesOut (storeFailed s n q) n q.thread =
      ((engine s n).win.erase q).any fun p => p.store && p.thread == q.thread := by rw [storesOut, engine_storeFailed]
  rw [hend, (keepsGoing_storeFailed hgo).nextInstr, hout]
  simp only [thread_storeFailed, hfence, true_and, flg, pc4]
  cases ((engine s n).win.erase q).any fun p => p.store && p.thread == q.thread <;> rfl

theorem fld_windowResponse_storeFailed (f : Fld) : fld (windowResponse s n k x) f = fld (storeFailed s n q) f := by
  rw [windowResponse_storeFailed x hq hstore hpre hfence hgo]
  split <;> rfl

theorem evq_windowResponse_storeFailed : (windowResponse s n k x).evq = s.evq ++ [ev 0x1803 [(1, n)]] := by
  rw [windowResponse_storeFailed x hq hstore hpre hfence hgo]
  split <;> exact storeError_evq ..

theorem win_windowResponse_storeFailed : (engine (windowResponse s n k x) n).win = (engine s n).win.erase q := by
  rw [windowResponse_storeFailed x hq hstore hpre hfence hgo]
  split
  · rw [engine_storeFailed]
  · rw [engine_setThread_same, engine_storeFailed]

theorem thread_windowResponse_storeFailed : thread (windowResponse s n k x) n q.thread =
    if ((engine s n).win.erase q).any fun p => p.store && p.thread == q.thread then thread s n q.thread
    else goesOn (thread s n q.thread) (flg s n q.thread) (pc4 s n q.thread) := by
  rw [windowResponse_storeFailed x hq hstore hpre hfence hgo]
  split
  · exact thread_storeFailed _
  · exact thread_setThread_same ..

theorem only_windowResponse_storeFailed : Only [.evq, .engines] [F.ENG_n_WERR_STATUS n, F.ENG_n_WERR_WINDOW n,
    F.ENG_n_WERR_OFF_OFFSET n, F.ENG_n_WERR_VALID n] s (windowResponse s n k x) := by
  rw [windowResponse_storeFailed x hq hstore hpre hfence hgo]
  split
  · exact only_storeFailed
  · exact only_storeFailed.setThread (by decide) ..

end

end

/-! ### NOP, FENCE and BRK -/

/-- NOP goes on, and so does a FENCE whose thread has no window store outstanding. -/
theorem goesOn_of_issues {c : Instr} {s : State} {n t w : Nat} {k : State → State} (h : Issues s n t w)
    (hc : exec c s = done (issue s n t w k)) (hk : k s = nextInstr s n t) :
    Completes c s [] fun u => OnlyThread n t s u ∧ thread u n t = goesOn (thread s n t) (flg s n t) (pc4 s n t) :=
  completes_thread_of_issues h hc (hk.trans (keepsGoing_of_issues h).nextInstr)
    ⟨onlyThread_setThread .., thread_setThread_same ..⟩

/-- A BRK with a debugger attached halts its thread and nothing else (R485). -/
theorem iBrk_halts {n : Fin 96} {t : Fin 4} {a b : Fin 16} {imm : BitVec 14} {s : State}
    (h : Issues s n t (encS 0x30 a b 4 imm.toNat)) (hattach : flag s (F.DBG_ENGn_CTRL_ATTACH n) = true)
    (hall : flag s (F.DBG_ENGn_CTRL_HALT_ALL n) = false) :
    Completes (.iBrk n t a b imm) s [ev 0x1E01 [(1, 4)]] fun u =>
      halted u n t = true ∧ haltCause u n t = 4 ∧ OnlyThread n t { s with regs := u.regs } u ∧ thread u n t = thread s n t
      ∧ Only [.engines] [F.DBG_ENGn_STATUS_HALTED n, F.DBG_ENGn_STATUS_CAUSE n, F.DBG_ENGn_STATUS_PENDING n] s u := by
  have hquiet : Quiet s := h.1
  obtain ⟨-, hwatch, hstep, -⟩ := keepsGoing_of_issues h
  have hbrk : brkOp s n t = haltOne s n t 4 := by simp [brkOp, hattach, halt, hall]
  have honly := (only_haltOne s n t 4).hush hquiet
  have hengines := (hush_engines (haltOne s n t 4)).trans (haltOne_engines s n 4)
  refine completes_of_issues h rfl (by rw [hbrk, haltOne_evq, hquiet, List.nil_append]) ?_
  rw [hbrk]
  refine ⟨?_, ?_, onlyThread_of_engines hengines honly.1.with_regs, ?_, honly⟩
  · rw [halted_hush, halted_haltOne s n t.isLt]
  · rw [haltCause_hush, haltCause_haltOne s n t.isLt]
  · rw [thread_of_engines hengines, thread_setThread_same, Thread.neither_step_nor_watch hstep hwatch]

end Sys2Proof.Machine
end

section
open Sys2Proof Sys2Proof.Machine

/-- Settles O27: NOP and FENCE by `goesOn_of_issues`, BRK by `iBrk_halts` and `faults_of_issues`, and the store that a FENCE waits
for by `windowResponse_storeFailed`. -/
theorem fenceNopBrk : Obligations.FenceNopBrk := by
  refine ⟨?nop, ?fenceOn, ?fenceHeld, ?brkHalts, ?brkFaults, ?answer⟩
  case nop => exact fun n t a b imm s h => goesOn_of_issues h rfl rfl
  case fenceOn =>
    intro n t a b imm s h hnone
    have hout : storesOut s n t = false := by
      rw [Bool.eq_false_iff, Ne, storesOut_eq_true_iff]
      exact fun ⟨q, hq, hstore, hthread⟩ => hnone q hq hstore hthread
    exact goesOn_of_issues h rfl (by simp [fenceOp, hout])
  case fenceHeld =>
    intro n t a b imm q s h hq hstore hthread
    have hout : storesOut s n t = true := (storesOut_eq_true_iff s n t).2 ⟨q, hq, hstore, hthread⟩
    exact completes_thread_of_issues h rfl (by simp only [fenceOp, hout, if_true])
      ⟨onlyThread_setThread .., thread_setThread_same ..⟩
  case brkHalts => exact fun n t a b imm s h hattach hall => iBrk_halts h hattach hall
  case brkFaults =>
    intro n t a b imm s h hattach
    exact faults_of_issues t.isLt (by decide) h rfl (by simp [brkOp, hattach, FC.brk])
  case answer =>
    intro n k x q s hcalm hq hstore hpre _ hfence hvalid
    have hquiet : Quiet s := hcalm.1
    have hgo := keepsGoing_of_calm hcalm
    obtain ⟨hstatus, hwindow, hoff, hset⟩ :=
      fld_storeError (setEngine s n { engine s n with win := (engine s n).win.erase q }) n q q.pre hvalid
    have hfld (f : Fld) : fld (hush (windowResponse s n k x)) f = fld (storeFailed s n q) f :=
      (fld_hush ..).trans (fld_windowResponse_storeFailed x hq hstore hpre hfence hgo f)
    refine completes_of rfl ?_ ⟨(hfld _).trans hstatus, (hfld _).trans hwindow, (hfld _).trans hoff, ?_, ?_, ?_, ?_⟩
    · rw [evq_windowResponse_storeFailed x hq hstore hpre hfence hgo, hquiet, List.nil_append]
    · rw [flag, hfld]
      exact hset
    · rw [engine_hush, win_windowResponse_storeFailed x hq hstore hpre hfence hgo]
    · rw [thread_hush, thread_windowResponse_storeFailed x hq hstore hpre hfence hgo]
    · exact (only_windowResponse_storeFailed x hq hstore hpre hfence hgo).hush hquiet

end

section
/-! SUPPORT. Requests in the mailbox of the Signal Box (R388, R389): what its bytes say to the accessors that the firmware reads it
with, when the firmware takes a request up, and when ROM recovery turns it away (R391). -/
namespace Sys2Proof.Machine

/-! ### Bytes -/

@[simp] theorem length_bytesOf (n x : Nat) : (bytesOf n x).length = n := by
  induction n generalizing x with
  | zero => rfl
  | succ n ih => simp [bytesOf, ih]

theorem bytesNat_bytesOf (n x : Nat) : bytesNat (bytesOf n x) = x % 256 ^ n := by
  induction n generalizing x with
  | zero => simp [bytesOf, bytesNat, Nat.mod_one]
  | succ n ih =>
    have htail := ih (x / 256)
    simp only [bytesNat] at htail
    simp only [bytesOf, bytesNat, List.foldr_cons, htail, BitVec.toNat_ofNat]
    rw [pow_succ' 256 n, Nat.mod_mul]

theorem mbNat_eq_bytesNat (s : State) (i n : Nat) : mbNat s i n = bytesNat (mbBytes s i n) := by
  induction n generalizing i with
  | zero => rfl
  | succ n ih =>
    have hbyte : mbByte s i % 2 ^ 8 = mbByte s i := Nat.mod_mod ..
    have hhead : mbBytes s i (n + 1) = BitVec.ofNat 8 (mbByte s i) :: mbBytes s (i + 1) n := by
      simp [mbBytes, List.range_succ_eq_map, Nat.add_comm, Nat.add_left_comm]
    rw [mbNat, ih, hhead]
    simp only [bytesNat, List.foldr_cons, BitVec.toNat_ofNat, hbyte]

theorem mbNat_of_mbBytes {s : State} {i n x : Nat} (h : mbBytes s i n = bytesOf n x) (hx : x < 256 ^ n) : mbNat s i n = x := by
  rw [mbNat_eq_bytesNat, h, bytesNat_bytesOf, Nat.mod_eq_of_lt hx]

theorem take_drop_mbBytes (s : State) (k : Nat) {i n m : Nat} (h : i + n ≤ m) :
    ((mbBytes s k m).drop i).take n = mbBytes s (k + i) n := by
  refine List.ext_getElem (by simp [mbBytes]; omega) fun j _ _ => ?_
  simp [mbBytes, Nat.add_assoc]

/-! ### A request, and who takes it up -/

/-- The mailbox holds an unanswered request, as the model's accessors read it: its command, its length, the zeros of its header, and
what each part of its payload says. -/
structure MbRequest (s : State) (cmd : Nat) (pay : List Byte) : Prop where
  busy : flag s F.SBX_MB_STATUS_BUSY = true
  unanswered : s.sbx.resp = none
  cmd_eq : mbCmd s = cmd
  len_eq : mbLen s = pay.length
  header : mbNat s 10 6 = 0
  payload : ∀ i n, i + n ≤ pay.length → payNat s i n = imgNat pay i n

theorem mbRequest_of_askedInRecovery {s : State} {cmd : Nat} {pay : List Byte} (h : AskedInRecovery s cmd pay) (hcmd : cmd < 256 ^ 2)
    (hlen : pay.length < 256 ^ 2) : MbRequest s cmd pay := by
  obtain ⟨-, hbusy, hresp, hcmdBytes, hlenBytes, hzeros, hpay, -⟩ := h
  refine ⟨hbusy, hresp, mbNat_of_mbBytes hcmdBytes hcmd, mbNat_of_mbBytes hlenBytes hlen, mbNat_of_mbBytes hzeros (by decide),
    fun i n hin => ?_⟩
  rw [payNat, mbNat_eq_bytesNat, ← take_drop_mbBytes s 16 hin, hpay, imgNat]

theorem answers_sbxReply (s : State) (st det : Nat) (pay : List Byte) : Answers st det pay s (sbxReply s st det pay) := by
  refine ⟨rfl, fun p hp => ?_⟩
  cases p
  case sbx => exact absurd List.mem_cons_self hp
  all_goals rfl

section
variable {s : State} {cmd : Nat} {pay : List Byte}

/-- A request that is not refused reaches its command. -/
theorem MbRequest.withReq_accepted (r : MbRequest s cmd pay) (h : reqRefused s = none) (w : State) : withReq s cmd w = w := by
  simp [withReq, r.busy, r.unanswered, r.cmd_eq, h]

/-- A request that is refused is answered as `reqRefused` says, whatever its command would do. -/
theorem MbRequest.withReq_refused (r : MbRequest s cmd pay) {st det : Nat} (h : reqRefused s = some (st, det)) (w : State) :
    withReq s cmd w = sbxReply s st det [] := by
  simp [withReq, r.busy, r.unanswered, r.cmd_eq, h]

theorem reqRefused_eq_none (hin : inRecovery s = true) (hlen : lenGood s = true) (hzero : zerosGood s = true) :
    reqRefused s = none := by
  simp [reqRefused, hin, hlen, hzero]

theorem reqRefused_of_not_inRecovery (hrec : flag s F.SBX_STATUS_RECOVERY = true) (h : inRecovery s = false) :
    reqRefused s = some (ST.disabled, 3) := by
  simp [reqRefused, hrec, h]

/-- A command whose request recovery turns away completes DISABLED with DETAIL 0x03 and changes nothing else (R391). -/
theorem completes_turnedAway {c : Instr} {w : State} (h : AskedInRecovery s cmd pay) (hcmd : cmd < 256 ^ 2)
    (hlen : pay.length < 256 ^ 2) (hno : inRecovery s = false) (hc : exec c s = done (withReq s cmd w)) :
    Completes c s [] fun u => Answers ST.disabled 3 [] s u := by
  have r := mbRequest_of_askedInRecovery h hcmd hlen
  obtain ⟨hquiet, -, -, -, -, -, -, hrec⟩ := h
  rw [r.withReq_refused (reqRefused_of_not_inRecovery hrec hno)] at hc
  exact completes_quiet hc hquiet (answers_sbxReply ..)

/-- Recovery serves none of the other commands, whatever stands in their requests. -/
theorem MbRequest.not_inRecovery (r : MbRequest s cmd pay) (h : cmd ∉ [1, 3, 0x10, 0x11, 0x12]) : inRecovery s = false := by
  simp only [List.mem_cons, List.not_mem_nil, or_false, not_or] at h
  obtain ⟨h1, h3, h10, h11, h12⟩ := h
  rw [inRecovery, r.cmd_eq]
  split <;> simp_all

/-- A command outside R391's list completes DISABLED with DETAIL 0x03 in recovery. -/
theorem completes_notListed {c : Instr} {w : State} (h : AskedInRecovery s cmd pay) (hc : exec c s = done (withReq s cmd w))
    (hlist : cmd ∉ [1, 3, 0x10, 0x11, 0x12]) (hcmd : cmd < 256 ^ 2) (hlen : pay.length < 256 ^ 2) :
    Completes c s [] fun u => Answers ST.disabled 3 [] s u :=
  completes_turnedAway h hcmd hlen ((mbRequest_of_askedInRecovery h hcmd hlen).not_inRecovery hlist) hc

end

/-! ### The requests that recovery serves are accepted -/

section
variable {s : State}

theorem MbRequest.accepted_getInfo {p : Byte} (r : MbRequest s 1 [p, 0, 0, 0]) : reqRefused s = none := by
  have hzero : payNat s 1 3 = 0 := r.payload 1 3 (by simp)
  apply reqRefused_eq_none
  · rw [inRecovery, r.cmd_eq]
    rfl
  · rw [lenGood, r.cmd_eq, r.len_eq]
    rfl
  · rw [zerosGood, r.cmd_eq, r.header, hzero]
    rfl

/-- SOURCE of a READ_LOG request. -/
theorem MbRequest.readLog_source {f : BitVec 32} {k m : Byte} (r : MbRequest s 3 (bytesOf 4 f.toNat ++ [k, m, 0, 0])) :
    payNat s 4 1 = k.toNat := r.payload 4 1 (by simp)

theorem MbRequest.accepted_readLog {f : BitVec 32} {m : Byte} (r : MbRequest s 3 (bytesOf 4 f.toNat ++ [0, m, 0, 0])) :
    reqRefused s = none := by
  have hzero : payNat s 6 2 = 0 := r.payload 6 2 (by simp)
  have hsource : payNat s 4 1 = 0 := r.readLog_source
  apply reqRefused_eq_none
  · rw [inRecovery, r.cmd_eq, hsource]
    rfl
  · rw [lenGood, r.cmd_eq, r.len_eq]
    rfl
  · rw [zerosGood, r.cmd_eq, r.header, hzero, hsource]
    rfl

theorem MbRequest.accepted_updateBegin {n : Nat} (r : MbRequest s 0x10 (bytesOf 4 n)) : reqRefused s = none := by
  apply reqRefused_eq_none
  · rw [inRecovery, r.cmd_eq]
    rfl
  · rw [lenGood, r.cmd_eq, r.len_eq]
    rfl
  · rw [zerosGood, r.cmd_eq, r.header]
    rfl

theorem MbRequest.accepted_updateChunk {pay : List Byte} (r : MbRequest s 0x11 pay) (hmin : 8 ≤ pay.length) (hmax : pay.length ≤ 4080)
    (hmod : pay.length % 4 = 0) : reqRefused s = none := by
  apply reqRefused_eq_none
  · rw [inRecovery, r.cmd_eq]
    rfl
  · rw [lenGood, r.cmd_eq, r.len_eq]
    simp [hmin, hmax, hmod]
  · rw [zerosGood, r.cmd_eq, r.header]
    rfl

theorem MbRequest.accepted_updateCommit {a : Byte} (r : MbRequest s 0x12 [a, 0, 0, 0]) (ha : a.toNat ≤ 1) : reqRefused s = none := by
  have hzero : payNat s 1 3 = 0 := r.payload 1 3 (by simp)
  have hact : payNat s 0 1 = a.toNat := r.payload 0 1 (by simp)
  apply reqRefused_eq_none
  · rw [inRecovery, r.cmd_eq]
    rfl
  · rw [lenGood, r.cmd_eq, r.len_eq]
    rfl
  · rw [zerosGood, r.cmd_eq, r.header, hzero, hact]
    simp [ha]

end

/-! ### What the served commands answer -/

/-- The firmware has a response ready, and it is not the one of a command that recovery turns away. -/
def AnswersOwn (w : State) : Prop := ∃ r ∈ w.sbx.resp, ¬(r.st = ST.disabled ∧ r.det = 3)

theorem answersOwn_sbxReply (s : State) {st det : Nat} (pay : List Byte) (h : ¬(st = ST.disabled ∧ det = 3)) :
    AnswersOwn (sbxReply s st det pay) := ⟨_, rfl, h⟩

/-- An accepted request is served where its command answers on its own account. -/
theorem MbRequest.served {s w : State} {cmd : Nat} {pay : List Byte} {c : Instr} (r : MbRequest s cmd pay) (h : reqRefused s = none)
    (hc : exec c s = done (withReq s cmd w)) (hw : AnswersOwn w) : Served c s := by
  rw [r.withReq_accepted h] at hc
  exact runs_of hc hw

theorem answersOwn_readSram (s : State) (k m : Nat) : AnswersOwn (readSram s k m) := by
  have hreply (first : Nat) (l : List LogRec) (gap : Bool) : AnswersOwn (logReply s first l gap) := answersOwn_sbxReply s _ (by decide)
  unfold readSram
  split
  · exact hreply ..
  · dsimp only
    split <;> exact hreply ..

theorem served_getInfo {s : State} {p : Byte} (r : MbRequest s 1 [p, 0, 0, 0]) : Served .getInfo s := by
  refine r.served r.accepted_getInfo rfl ?_
  split <;> exact answersOwn_sbxReply s _ (by decide)

theorem served_readLog {s : State} {f : BitVec 32} {m : Byte} (r : MbRequest s 3 (bytesOf 4 f.toNat ++ [0, m, 0, 0])) :
    Served .readLog s := by
  have hsource : payNat s 4 1 = 0 := r.readLog_source
  refine r.served r.accepted_readLog rfl ?_
  rw [if_neg (by simp [hsource]), if_pos hsource]
  split
  · exact answersOwn_sbxReply s _ (by decide)
  · exact answersOwn_readSram ..

theorem served_updateBegin {s : State} {n : Nat} (r : MbRequest s 0x10 (bytesOf 4 n)) : Served .fwUpdateBegin s := by
  refine r.served r.accepted_updateBegin rfl ?_
  dsimp only
  split
  · exact answersOwn_sbxReply s _ (by decide)
  · split <;> exact answersOwn_sbxReply _ _ (by decide)

theorem served_updateChunk {s : State} {pay : List Byte} {bad : Bool} (r : MbRequest s 0x11 pay) (hmin : 8 ≤ pay.length)
    (hmax : pay.length ≤ 4080) (hmod : pay.length % 4 = 0) : Served (.fwUpdateChunk bad) s := by
  refine r.served (r.accepted_updateChunk hmin hmax hmod) rfl ?_
  dsimp only
  split
  case h_1 => exact answersOwn_sbxReply s _ (by decide)
  case h_2 =>
    split
    · exact answersOwn_sbxReply s _ (by decide)
    · split <;> exact answersOwn_sbxReply _ _ (by decide)

theorem served_updateCommit {s : State} {a : Byte} (r : MbRequest s 0x12 [a, 0, 0, 0]) (ha : a.toNat ≤ 1) : Served .fwUpdateCommit s := by
  refine r.served (r.accepted_updateCommit ha) rfl ?_
  dsimp only
  split
  case h_1 => exact answersOwn_sbxReply s _ (by decide)
  case h_2 =>
    split
    · exact answersOwn_sbxReply s _ (by decide)
    · split <;> exact answersOwn_sbxReply _ _ (by simp [ST.denied, ST.disabled, ST.ok])

/-- GET_INFO of page 0 answers OK with the summary. -/
theorem completes_getInfo_summary {s : State} (hquiet : Quiet s) (r : MbRequest s 1 [0, 0, 0, 0]) :
    Completes .getInfo s [] fun u => Answers ST.ok 0 (infoBytes s) s u := by
  have hpage : payNat s 0 1 = 0 := r.payload 0 1 (by simp)
  have hend : getInfo s = sbxReply s ST.ok 0 (infoBytes s) := by
    rw [getInfo, r.withReq_accepted r.accepted_getInfo, hpage]
    rfl
  exact completes_quiet (congrArg done hend) hquiet (answers_sbxReply ..)

/-- Byte 3 of the summary is RUNNING (R390). -/
theorem infoBytes_running (s : State) : ((infoBytes s).drop 3).take 1 = bytesOf 1 (runningCode s) := rfl

end Sys2Proof.Machine
end

section
open Sys2Proof Sys2Proof.Machine

/-- Settles O49: what R391 lists is accepted and answers on its own account (the `served_` lemmas and `completes_getInfo_summary`);
everything else is turned away before its command is looked at (`completes_notListed`, and `completes_turnedAway` for the mirror). -/
theorem recoveryServesFew : Obligations.RecoveryServesFew := by
  refine ⟨?getInfo, ?running, ?readLog, ?updateBegin, ?updateChunk, ?updateCommit, ?getSensors, ?readMirror, ?attest, ?setOp,
    ?fuseProgram, ?keySlot, ?unlockNonce, ?unlockRespond⟩
  case getInfo => exact fun p s h => served_getInfo (mbRequest_of_askedInRecovery h (by decide) (by simp))
  case running =>
    intro s h
    have r := mbRequest_of_askedInRecovery h (by decide) (by decide)
    obtain ⟨hquiet, -, -, -, -, -, -, hrec⟩ := h
    obtain ⟨u, hu, hsbx, -⟩ := completes_getInfo_summary hquiet r
    have hcode : runningCode s = 0xFF := by simp [runningCode, hrec]
    refine ⟨u, hu, ⟨ST.ok, 0, infoBytes s⟩, by simp [hsbx], rfl, ?_⟩
    rw [infoBytes_running, hcode]
    rfl
  case readLog => exact fun f m s h => served_readLog (mbRequest_of_askedInRecovery h (by decide) (by simp))
  case updateBegin => exact fun n s h => served_updateBegin (mbRequest_of_askedInRecovery h (by decide) (by simp))
  case updateChunk =>
    exact fun pay bad s h hmin hmax hmod =>
      served_updateChunk (mbRequest_of_askedInRecovery h (by decide) (by omega)) hmin hmax hmod
  case updateCommit =>
    exact fun a s h ha => served_updateCommit (mbRequest_of_askedInRecovery h (by decide) (by simp)) ha
  case getSensors => exact fun s h => completes_notListed h rfl (by decide) (by decide) (by decide)
  case readMirror =>
    intro f m s h
    have r := mbRequest_of_askedInRecovery h (by decide) (by simp)
    have hsource : payNat s 4 1 = 1 := r.readLog_source
    have hno : inRecovery s = false := by rw [inRecovery, r.cmd_eq, hsource]; rfl
    exact completes_turnedAway h (by decide) (by simp) hno rfl
  case attest => exact fun pay s h hlen => completes_notListed h rfl (by decide) (by decide) (by omega)
  case setOp => exact fun op s h => completes_notListed h rfl (by decide) (by decide) (by simp)
  case fuseProgram =>
    intro f d good s h hlen
    refine completes_notListed h rfl (by decide) (by decide) ?_
    simp only [List.length_append, List.length_cons, List.length_nil, length_bytesOf]
    omega
  case keySlot =>
    intro k a hash good s h hlen
    have hpay : ([k, a, 0, 0] ++ hash).length < 256 ^ 2 := by simp [hlen]
    exact ⟨completes_notListed h rfl (by decide) (by decide) hpay, completes_notListed h rfl (by decide) (by decide) hpay⟩
  case unlockNonce => exact fun s h => completes_notListed h rfl (by decide) (by decide) (by decide)
  case unlockRespond => exact fun sig s h hlen => completes_notListed h rfl (by decide) (by decide) (by simp [hlen])

end

section
/-! SUPPORT. What every operation of the model keeps: the canonical form of the registers, latches and memory dies, and the log as
R393 and R394 have it. `Keeps o s` says that `s` has both where `o` has them; each lemma carries it through one operation, in the
order in which the model defines them. -/
namespace Sys2Proof.Machine

/-- Of two states: the second is canonical if the first is, and its log holds if that of the first does. -/
def Keeps (o s : State) : Prop := (Canonical o → Canonical s) ∧ (LogHolds o → LogHolds s)

/-- The same of the state in which an access ends, if it ends. -/
def KeepsAcc (o : State) (r : AccEnd) : Prop := ∀ x ∈ r, Keeps o x.2.2

variable {o s : State}

/-! ### How operations are put together -/

theorem Keeps.refl (s : State) : Keeps s s := ⟨id, id⟩

/-- Nothing but the registers, the latches, the memory, the log and the queue of its mirror matters. -/
theorem Keeps.congr {t : State} (h : Keeps o s) (hregs : t.regs = s.regs) (hlatch : t.latch = s.latch) (hmem : t.mem = s.mem)
    (hlog : t.log = s.log) (hmirror : t.mirrorQ = s.mirrorQ) : Keeps o t := by
  simpa only [Keeps, Canonical, LogHolds, hregs, hlatch, hmem, hlog, hmirror] using h

/-- A state with the registers, latches, memory and log of `s`. -/
theorem Keeps.other (h : Keeps o s) {evq} {windows} {axes} {encs} {rt} {tt} {dsp} {ports} {node} {modules} {lanes} {regions} {fab} {engines} {clk} {pwr} {wire} {cache} {hwn} {enc} {stk} {thm} {iob} {hostWr} {rsps} {pci} {rst} {cfg} {sbx} {bst} {dbg} {free} {pending} :
    Keeps o (.mk s.regs s.latch evq s.log windows s.mirrorQ axes encs rt tt dsp ports node modules lanes regions fab engines clk pwr wire s.mem cache hwn enc stk thm iob hostWr rsps pci rst cfg sbx bst dbg free pending) := h

/-- An operation on the registers, latches and memory that keeps the canonical form. -/
theorem Keeps.of_canonical {t : State} (h : Keeps o s) (hc : Canonical s → Canonical t) (hlog : t.log = s.log)
    (hmirror : t.mirrorQ = s.mirrorQ) : Keeps o t :=
  ⟨fun ho => hc (h.1 ho), fun ho => by simpa only [LogHolds, hlog, hmirror] using h.2 ho⟩

/-- An operation on the memory that keeps its canonical form. -/
theorem Keeps.of_mem {t : State} (h : Keeps o s) (hmem : s.mem.wf = true → t.mem.wf = true) (hregs : t.regs = s.regs)
    (hlatch : t.latch = s.latch) (hlog : t.log = s.log) (hmirror : t.mirrorQ = s.mirrorQ) : Keeps o t := by
  refine h.of_canonical (fun hs => ?_) hlog hmirror
  obtain ⟨h1, h2, h3⟩ := hs
  exact ⟨hregs ▸ h1, hlatch ▸ h2, hmem h3⟩

section
variable {α β : Type} {c : Prop} [Decidable c]

theorem Keeps.ite {a b : State} (ha : Keeps o a) (hb : Keeps o b) : Keeps o (if c then a else b) := by
  split
  · exact ha
  · exact hb

theorem Keeps.iteFst {a b : State × β} (ha : Keeps o a.1) (hb : Keeps o b.1) : Keeps o (if c then a else b).1 := by
  split
  · exact ha
  · exact hb

theorem Keeps.iteSnd {a b : α × State} (ha : Keeps o a.2) (hb : Keeps o b.2) : Keeps o (if c then a else b).2 := by
  split
  · exact ha
  · exact hb

theorem Keeps.iteSnd2 {a b : α × β × State} (ha : Keeps o a.2.2) (hb : Keeps o b.2.2) : Keeps o (if c then a else b).2.2 := by
  split
  · exact ha
  · exact hb

theorem KeepsAcc.ite {a b : AccEnd} (ha : KeepsAcc o a) (hb : KeepsAcc o b) : KeepsAcc o (if c then a else b) := by
  split
  · exact ha
  · exact hb

theorem KeepsAcc.none : KeepsAcc o none := fun _ hx => nomatch hx

theorem KeepsAcc.some (h : Keeps o s) (st data : Nat) : KeepsAcc o (Option.some (st, data, s)) := by
  intro y hy
  cases hy
  exact h

/-- A fold of operations over a list, for what the fold carries along with the state. -/
theorem foldl_keeps (g : β → State) {f : β → α → β} (hf : ∀ x a, Keeps o (g x) → Keeps o (g (f x a))) {x : β} (h : Keeps o (g x))
    (l : List α) : Keeps o (g (l.foldl f x)) := by
  induction l generalizing x with
  | nil => exact h
  | cons a t ih => exact ih (hf x a h)

theorem Keeps.foldl {f : State → α → State} (hf : ∀ s x, Keeps o s → Keeps o (f s x)) (h : Keeps o s) (l : List α) :
    Keeps o (l.foldl f s) := foldl_keeps id hf h l

end

/-! ### Ops -/

theorem Keeps.setFld (h : Keeps o s) (f : Fld) (v : Nat) : Keeps o (Machine.setFld s f v) :=
  h.of_canonical (fun ⟨hregs, hrest⟩ => ⟨setFld_rising hregs f v, hrest⟩) rfl rfl

theorem Keeps.satAdd (h : Keeps o s) (f : Fld) (n : Nat) : Keeps o (Machine.satAdd s f n) := .setFld h ..

theorem Keeps.satInc (h : Keeps o s) (f : Fld) : Keeps o (Machine.satInc s f) := .satAdd h ..

theorem Keeps.peak (h : Keeps o s) (f : Fld) (v : Nat) : Keeps o (Machine.peak s f v) := .ite (.setFld h ..) h

theorem Keeps.resetOffsets (h : Keeps o s) (lo hi : Nat) : Keeps o (Machine.resetOffsets s lo hi) :=
  h.of_canonical (fun ⟨hregs, hrest⟩ => ⟨smFilter_rising hregs _, hrest⟩) rfl rfl

theorem Keeps.resetBlockRegs (h : Keeps o s) (b : Nat) : Keeps o (Machine.resetBlockRegs s b) := .resetOffsets h ..

theorem Keeps.showRef (h : Keeps o s) : Keeps o (Machine.showRef s) := .setFld h ..

theorem Keeps.drawn (h : Keeps o s) : Keeps o (Machine.drawn s) := .other h

theorem Keeps.clocked {s t : State} (h : Keeps o s) (h'1 : Keeps o t) : Keeps o (Machine.clocked s t) := .ite h'1 h

theorem Keeps.pendVec (h : Keeps o s) (v : Nat) : Keeps o (Machine.pendVec s v) := .ite h (.setFld h ..)

theorem Keeps.raise (h : Keeps o s) (code : Nat) (items : List (Nat × Nat)) : Keeps o (Machine.raise s code items) := .other h

theorem Keeps.raiseMerged (h : Keeps o s) (code scope : Nat) (items : List (Nat × Nat)) : Keeps o (Machine.raiseMerged s code scope
    items) :=
  .other h

theorem getElem?_of_take {α : Type} {l : List α} {n i : Nat} {a : α} (h : (l.take n)[i]? = some a) : l[i]? = some a := by
  rw [List.getElem?_take] at h
  split at h
  · exact h
  · cases h

/-- The newest record carries the number after that of the one before it (R393). -/
theorem logHolds_pushRec (h : LogHolds s) {r : LogRec} (hr : r.seq = nextSeq s) : LogHolds (pushRec s r) := by
  obtain ⟨-, hmirror, hseq⟩ := h
  refine ⟨List.length_take_le .., hmirror, fun i a b ha hb => ?_⟩
  have ha' : (r :: s.log)[i]? = some a := getElem?_of_take ha
  have hb' : s.log[i]? = some b := getElem?_of_take hb
  cases i with
  | zero =>
    obtain rfl : r = a := by simpa using ha'
    obtain ⟨t, ht⟩ : ∃ t, s.log = b :: t := by
      cases hlog : s.log with
      | nil => simp [hlog] at hb'
      | cons x t => exact ⟨t, by simpa [hlog] using hb'⟩
    rw [hr, nextSeq, ht]
  | succ i => exact hseq i a b (by simpa using ha') hb'

theorem Keeps.mirrorRec (h : Keeps o s) (r : LogRec) : Keeps o (Machine.mirrorRec s r) := by
  unfold Machine.mirrorRec
  split
  next hroom =>
    refine ⟨h.1, fun ho => ?_⟩
    obtain ⟨hlen, -, hseq⟩ := h.2 ho
    exact ⟨hlen, by simp; omega, hseq⟩
  next => exact Keeps.satInc (h.congr rfl rfl rfl rfl rfl) _

theorem Keeps.vecRec (h : Keeps o s) (code : Nat) : Keeps o (Machine.vecRec s code) := .ite (.pendVec h ..) h

theorem Keeps.writeRec (h : Keeps o s) (code count time data : Nat) (nmi cont : Bool) :
    Keeps o (Machine.writeRec s code count time data nmi cont) :=
  have hpush : Keeps o (pushRec s (newRec s code count time data nmi cont)) := ⟨h.1, fun ho => logHolds_pushRec (h.2 ho) rfl⟩
  .vecRec (hpush.mirrorRec _) code

theorem Keeps.writeCont (h : Keeps o s) (code time data : Nat) (nmi : Bool) (n : Nat) :
    Keeps o (Machine.writeCont s code time data nmi n) := by
  induction n generalizing s data with
  | zero => exact h
  | succ n ih => exact ih (h.writeRec ..) _

theorem Keeps.writeEvent (h : Keeps o s) (code count time : Nat) (items : List (Nat × Nat)) (nmi : Bool) : Keeps o (Machine.writeEvent s
    code count time items nmi) :=
  .writeCont (.writeRec h ..) ..

theorem Keeps.countWindow (h : Keeps o s) (code scope : Nat) (items : List (Nat × Nat)) : Keeps o (Machine.countWindow s code scope
    items) :=
  .other h

theorem Keeps.logEv (h : Keeps o s) (e : Ev) : Keeps o (Machine.logEv s e) := by
  unfold Machine.logEv
  split
  · exact h.writeEvent ..
  · exact .ite (.countWindow h ..) (h.writeEvent ..)

/-- The end of a command. -/
theorem Keeps.finish (h : Keeps o s) : Keeps o (Machine.finish s) :=
  foldl_keeps id (fun _ e h => Keeps.logEv h e) (x := { s with evq := [] }) h (sortEvs s.evq)

theorem Keeps.forEach {α : Type} {f : State → α → State} (hf : ∀ s x, Keeps o s → Keeps o (f s x)) (h : Keeps o s) (l : List α) :
    Keeps o (Machine.forEach l f s) := .foldl hf h l

/-! ### Flits -/

theorem Keeps.setPort (h : Keeps o s) (p : Nat) (x : Port) : Keeps o (Machine.setPort s p x) := .other h

theorem Keeps.setLane (h : Keeps o s) (n : Nat) (x : Lane) : Keeps o (Machine.setLane s n x) := .other h

theorem Keeps.injectInto (h : Keeps o s) (p : Nat) (f : Flit) : Keeps o (Machine.injectInto s p f).2 := by
  unfold Machine.injectInto
  split
  exacts [(.setLane h ..), h]

theorem Keeps.send (h : Keeps o s) (p pos : Nat) (f : Flit) : Keeps o (Machine.send s p pos f) :=
  .ite (.ite h (.other (.injectInto h ..))) (.other h)

theorem Keeps.sendPlain (h : Keeps o s) (p type addr cidx payload : Nat) : Keeps o (Machine.sendPlain s p type addr cidx payload) :=
  .send h ..

theorem Keeps.sendWhere (h : Keeps o s) (c : State → Nat → Bool) (type addr payload : Nat) :
    Keeps o (Machine.sendWhere s c type addr payload) := .forEach (fun _ _ h1 => .ite (h1.sendPlain ..) h1) h _

/-! ### MemOps -/

theorem Keeps.setCell (h : Keeps o s) (l a : Nat) (v : Byte) : Keeps o (Machine.setCell s l a v) :=
  h.of_mem (setCell_wf · l a v) rfl rfl rfl rfl

theorem Keeps.setLineBytes (h : Keeps o s) (l a n mask v : Nat) : Keeps o (Machine.setLineBytes s l a n mask v) := by
  induction n generalizing s a mask v with
  | zero => exact h
  | succ n ih => exact ih (.ite (h.setCell ..) h) ..

theorem Keeps.scramble (h : Keeps o s) (die lo hi : Nat) : Keeps o (Machine.scramble s die lo hi) :=
  h.of_mem (scramble_wf · die lo hi) rfl rfl rfl rfl

theorem Keeps.setPoison (h : Keeps o s) (l : Nat) (b : Bool) : Keeps o (Machine.setPoison s l b) :=
  h.of_mem (setPoison_wf · l b) rfl rfl rfl rfl

/-- What an unlisted byte reads, and so the canonical form of the bytes, does not hang on the owners of lines. -/
theorem Memory.wf_owner {m : Memory} (h : m.wf = true) {w : SMap Nat} (hw : smWf 0 w = true) : { m with owner := w }.wf = true := by
  rw [Memory.wf_iff] at h ⊢
  obtain ⟨hrising, hlisted, hpoison, hscram, -⟩ := h
  exact ⟨hrising, hlisted, hpoison, hscram, hw⟩

theorem Memory.owner_wf {m : Memory} (h : m.wf = true) : smWf 0 m.owner = true := ((Memory.wf_iff m).1 h).2.2.2.2

theorem Keeps.flipLine (h : Keeps o s) (l e : Nat) : Keeps o (Machine.flipLine s l e) := by
  have hbytes : Keeps o (Machine.setLineBytes s l 0 64 (2 ^ 64 - 1) (lineBytes s l 0 64 ^^^ e % 2 ^ 512)) := h.setLineBytes ..
  unfold Machine.flipLine
  refine .ite h ?_
  extract_lets s1 s2
  have h2 : Keeps o s2 := .ite (.setPoison hbytes ..) hbytes
  refine .ite h2 (h2.of_mem (fun hm => ?_) rfl rfl rfl rfl)
  exact Memory.wf_owner hm (smSet_wf (Memory.owner_wf hm) ..)

theorem Keeps.mergeLine (h : Keeps o s) (a n mask v : Nat) : Keeps o (Machine.mergeLine s a n mask v) :=
  .setLineBytes (.setPoison h ..) ..

theorem Keeps.memStore (h : Keeps o s) (m a n mask v : Nat) : Keeps o (Machine.memStore s m a n mask v).2 :=
  .iteSnd h (.iteSnd h (.mergeLine h ..))

theorem Keeps.memStoreBytes (h : Keeps o s) (m a : Nat) (l : List Byte) : Keeps o (Machine.memStoreBytes s m a l).2 := by
  induction l generalizing s a with
  | nil => exact h
  | cons b t ih => exact .iteSnd h (ih (h.memStore ..) _)

theorem Keeps.respond (h : Keeps o s) (m tag status data : Nat) : Keeps o (Machine.respond s m tag status data) := .other h

theorem Keeps.poisonLine (h : Keeps o s) (d line kind addrLine : Nat) : Keeps o (Machine.poisonLine s d line kind addrLine) :=
  .ite (.raise (.satInc (.setPoison h ..) ..) ..) (.setFld (.setFld (.setFld (.raise (.satInc (.setPoison h ..) ..) ..) ..) ..) ..)

theorem Keeps.countCorr (h : Keeps o s) (d : Nat) : Keeps o (Machine.countCorr s d) := .raiseMerged (.satInc h ..) ..

/-! ### DispCore -/

theorem Keeps.setDsp (h : Keeps o s) (d : Dispatch) : Keeps o (Machine.setDsp s d) := .other h

theorem Keeps.addChange (h : Keeps o s) (c : Change) : Keeps o (Machine.addChange s c) := .setDsp h ..

theorem Keeps.addStep (h : Keeps o s) (x : StepRec) : Keeps o (Machine.addStep s x) := .setDsp h ..

theorem Keeps.uncharge (h : Keeps o s) (ords : List Nat) : Keeps o (Machine.uncharge s ords) := .setDsp h ..

theorem Keeps.pruneLedger (h : Keeps o s) : Keeps o (Machine.pruneLedger s) := .setDsp h ..

theorem Keeps.chargeKeys (h : Keeps o s) (e ord t : Nat) (l : List Nat) : Keeps o (Machine.chargeKeys s e ord t l) := by
  induction l generalizing s with
  | nil => exact h
  | cons k ks ih => exact ih (.ite (.addChange (.addChange h ..) ..) (.addChange h ..))

theorem Keeps.recordRail (h : Keeps o s) (e : Nat) : Keeps o (Machine.recordRail s e) := .setDsp h ..

theorem Keeps.charge (h : Keeps o s) (e ord t : Nat) : Keeps o (Machine.charge s e ord t) :=
  .ite (.peak (.chargeKeys (.addStep (.recordRail h ..) ..) ..) ..) (.recordRail h ..)

theorem Keeps.outcome (h : Keeps o s) (st : Nat) : Keeps o (Machine.outcome s st) := .satInc h ..

theorem Keeps.outcomes (h : Keeps o s) (st n : Nat) : Keeps o (Machine.outcomes s st n) := .satAdd h ..

theorem Keeps.sendAll (h : Keeps o s) (p : Nat) (l : List Flit) : Keeps o (Machine.sendAll s p l) :=
  .forEach (fun _ _ h1 => (.send h1 ..)) h ..

theorem Keeps.numberStaged (h : Keeps o s) (c : Cons) (q : Nat) : Keeps o (Machine.numberStaged s c q) := .setDsp h ..

theorem Keeps.emitItem (h : Keeps o s) (p : Nat) (i : Item) : Keeps o (Machine.emitItem s p i) :=
  .sendAll (.setPort (.ite (.numberStaged (.outcomes (.outcomes h ..) ..) ..) (.outcomes (.outcomes h ..) ..)) ..) ..

theorem Keeps.queueItem (h : Keeps o s) (p : Nat) (i : Item) : Keeps o (Machine.queueItem s p i) :=
  .ite (.emitItem h ..) (.setPort h ..)

theorem Keeps.ledgerSet (h : Keeps o s) (key t : Nat) (on : Nat → Nat) : Keeps o (Machine.ledgerSet s key t on) := by
  unfold Machine.ledgerSet
  split
  exacts [h, (.ite (.addChange h ..) h)]

theorem Keeps.ledgerSafe (h : Keeps o s) (p n c t : Nat) : Keeps o (Machine.ledgerSafe s p n c t) := .ledgerSet h ..

theorem Keeps.ledgerSafeModule (h : Keeps o s) (p n t : Nat) : Keeps o (Machine.ledgerSafeModule s p n t) :=
  .forEach (fun _ _ h1 => (.ledgerSafe h1 ..)) h ..

theorem Keeps.ledgerMissed (h : Keeps o s) (p n t : Nat) : Keeps o (Machine.ledgerMissed s p n t) :=
  .forEach (fun _ _ h1 => (by split; exacts [(.ledgerSet h1 ..), (.ledgerSafe h1 ..), h1])) h ..

theorem Keeps.putGroup (h : Keeps o s) (g : Grp) : Keeps o (Machine.putGroup s g) := .setDsp h ..

theorem Keeps.writeGroupRecord (h : Keeps o s) (g : Grp) : Keeps o (Machine.writeGroupRecord s g) :=
  .ite (.satInc h ..) (.ite (.satInc (.memStoreBytes h ..) ..) (.setFld (.pendVec (.raise (.setDsp (.memStoreBytes h ..) ..) ..) ..)
    ..))

theorem Keeps.sendFallbacks (h : Keeps o s) (g : Grp) (p a t : Nat) (ms : List Memb) : Keeps o (Machine.sendFallbacks s g p a t ms) :=
  .forEach (fun _ _ h1 => (.queueItem h1 ..)) h ..

theorem Keeps.fallbackTo (h : Keeps o s) (g : Grp) (ms : List Memb) : Keeps o (Machine.fallbackTo s g ms) :=
  .forEach (fun _ _ h1 => (.sendFallbacks h1 ..)) h ..

theorem Keeps.chargeRepeat (h : Keeps o s) (e t k : Nat) : Keeps o (Machine.chargeRepeat s e t k) :=
  .chargeKeys (.addStep h ..) ..

theorem Keeps.chargeFallback (h : Keeps o s) (g : Grp) (m : Memb) : Keeps o (Machine.chargeFallback s g m) :=
  .forEach (fun _ _ h1 => (.ite (.ite (.addChange h1 ..) h1) (by split; exacts [h1, (.ite (.chargeRepeat h1 ..) h1)]))) h ..

theorem Keeps.chargeFallbacks (h : Keeps o s) (g : Grp) : Keeps o (Machine.chargeFallbacks s g) :=
  .forEach (fun _ _ h1 => (.chargeFallback h1 ..)) (.uncharge h ..) ..

theorem Keeps.sendRevokes (h : Keeps o s) (g : Grp) : Keeps o (Machine.sendRevokes s g) :=
  .forEach (fun _ _ h1 => (.queueItem h1 ..)) h ..

theorem Keeps.dropStaged (h : Keeps o s) (g : Grp) : Keeps o (Machine.dropStaged s g) :=
  .forEach (fun _ _ h1 => (.setPort h1 ..)) (.setDsp h ..) ..

theorem Keeps.failGroupCore (h : Keeps o s) (g : Grp) (reason own : Nat) : Keeps o (Machine.failGroupCore s g reason own) :=
  .writeGroupRecord (.putGroup (.ite (.outcomes h ..) (.ite (.chargeFallbacks (.fallbackTo (.dropStaged (.sendRevokes (.outcomes h ..)
    ..) ..) ..) ..) (.chargeFallbacks (.fallbackTo (.outcomes h ..) ..) ..))) ..) ..

theorem Keeps.endGroup (h : Keeps o s) (g : Grp) : Keeps o (Machine.endGroup s g) :=
  .ite (.writeGroupRecord (.putGroup h ..) ..) (.putGroup h ..)

theorem Keeps.loseCommits (h : Keeps o s) (g : Grp) (which : GMod → Bool) : Keeps o (Machine.loseCommits s g which) :=
  .ite h (.ite (.endGroup (.ite h (.raise h ..)) ..) (.putGroup (.ite h (.raise h ..)) ..))

theorem Keeps.emptyJournals (h : Keeps o s) : Keeps o (Machine.emptyJournals s) := .forEach (fun _ _ h1 => (.setPort h1 ..)) h ..

theorem Keeps.stopGroup (h : Keeps o s) (g : Grp) : Keeps o (Machine.stopGroup s g) := by
  unfold Machine.stopGroup
  split
  exacts [(.failGroupCore h ..), (.failGroupCore h ..), (.failGroupCore h ..), (.loseCommits h ..), h]

theorem Keeps.ledgerStop (h : Keeps o s) : Keeps o (Machine.ledgerStop s) :=
  .forEach (fun _ _ h1 => (.forEach (fun _ _ h2 => (.ledgerSafeModule h2 ..)) h1 ..)) (.setDsp h ..) ..

theorem Keeps.disableWork (h : Keeps o s) : Keeps o (Machine.disableWork s) := .outcomes (.setDsp (.uncharge h ..) ..) ..

theorem Keeps.bstopCheck (h : Keeps o s) : Keeps o (Machine.bstopCheck s) := .ite (.setFld h ..) h

theorem Keeps.addCause (h : Keeps o s) (c : Nat) : Keeps o (Machine.addCause s c) := .setFld h ..

theorem Keeps.bstopTrigger (h : Keeps o s) (c : Nat) : Keeps o (Machine.bstopTrigger s c) :=
  .ite (.addCause h ..) (.bstopCheck (.ledgerStop (.emptyJournals (.forEach (fun _ _ h1 => (.stopGroup h1 ..)) (.disableWork (.sendWhere
    (.setDsp (.setFld (.pendVec (.raise (.addCause h ..) ..) ..) ..) ..) ..) ..) ..) ..) ..) ..)

theorem Keeps.failGroup (h : Keeps o s) (g : Grp) (reason own : Nat) : Keeps o (Machine.failGroup s g reason own) :=
  .ite (.failGroupCore h ..) (.ite (.bstopTrigger (.setDsp (.failGroupCore h ..) ..) ..) (.setDsp (.failGroupCore h ..) ..))

theorem Keeps.missItem (h : Keeps o s) (p : Nat) (i : Item) : Keeps o (Machine.missItem s p i) :=
  .ite
    (by split; exacts [(.loseCommits (.forEach (fun _ _ h1 => (.ledgerMissed h1 ..)) (.sendPlain (.raise (.satInc h ..) ..) ..) ..) ..), (.forEach (fun _ _ h1 => (.ledgerMissed h1 ..)) (.sendPlain (.raise (.satInc h ..) ..) ..) ..)])
    (.forEach (fun _ _ h1 => (.ledgerMissed h1 ..)) (.sendPlain (.raise (.satInc h ..) ..) ..) ..)

theorem Keeps.replay (h : Keeps o s) (p : Nat) : Keeps o (Machine.replay s p) :=
  .satAdd (.forEach (fun _ _ h1 => (.sendAll h1 ..)) (.forEach (fun _ _ h1 => (.missItem h1 ..)) (.setPort h ..) ..) ..) ..

theorem Keeps.missAll (h : Keeps o s) (p : Nat) : Keeps o (Machine.missAll s p) :=
  .forEach (fun _ _ h1 => (.missItem h1 ..)) (.setPort h ..) ..

theorem Keeps.moveOutst (h : Keeps o s) (p axis ta tr : Nat) (k off kx offx : Int) : Keeps o (Machine.moveOutst s p axis ta tr k off kx
    offx) :=
  .setDsp (.setPort h ..) ..

theorem Keeps.retimeAxis (h : Keeps o s) (axis : Nat) (th0 v0 th1 v1 : Int) : Keeps o (Machine.retimeAxis s axis th0 v0 th1 v1) :=
  .ite h (.setDsp (.forEach (fun _ _ h1 => (.moveOutst (.queueItem h1 ..) ..)) (.drawn h ..) ..) ..)

/-! ### AngleOps -/

theorem Keeps.setAxis (h : Keeps o s) (n : Nat) (x : Axis) : Keeps o (Machine.setAxis s n x) := .other h

theorem Keeps.setTheta (h : Keeps o s) (n : Nat) (th : Int) : Keeps o (Machine.setTheta s n th) := .setFld (.setAxis h ..) ..

theorem Keeps.setEnc (h : Keeps o s) (k : Nat) (x : Enc) : Keeps o (Machine.setEnc s k x) := .other h

theorem Keeps.interpolate (h : Keeps o s) (n : Nat) : Keeps o (Machine.interpolate s n) :=
  .ite h (.ite (.ite (.setTheta h ..) h) (.setTheta h ..))

theorem Keeps.toAcquire (h : Keeps o s) (n : Nat) : Keeps o (Machine.toAcquire s n) := .setFld (.setAxis h ..) ..

theorem Keeps.toLost (h : Keeps o s) (n : Nat) : Keeps o (Machine.toLost s n) :=
  .ite (.bstopTrigger (.setFld (.raise h ..) ..) ..) (.setFld (.raise h ..) ..)

theorem Keeps.slip (h : Keeps o s) (n : Nat) : Keeps o (Machine.slip s n) := .satInc (.raise h ..) ..

theorem Keeps.clampCount (h : Keeps o s) (n : Nat) : Keeps o (Machine.clampCount s n) := .satInc (.ite (.raise h ..) h) ..

theorem Keeps.enterTrack (h : Keeps o s) (n th tm : Nat) (v : Option Nat) : Keeps o (Machine.enterTrack s n th tm v) :=
  .setFld (.setFld (.setTheta (.setFld (.setAxis (.raise h ..) ..) ..) ..) ..) ..

theorem Keeps.steerVel (h : Keeps o s) (n : Nat) (vm e tns : Int) : Keeps o (Machine.steerVel s n vm e tns) :=
  .setFld (.drawn (.drawn (.ite h (.clampCount h ..)) ..) ..) ..

theorem Keeps.trackSample (h : Keeps o s) (n th tm : Nat) (v : Option Nat) : Keeps o (Machine.trackSample s n th tm v) :=
  .ite (.setFld (.setFld (.ite (.slip (.setTheta (.setAxis (.drawn h ..) ..) ..) ..) (.setAxis (.drawn h ..) ..)) ..) ..) (.ite (.setFld
    (.setAxis (.setFld (.ite (.slip (.setTheta (.setAxis (.drawn h ..) ..) ..) ..) (.setAxis (.drawn h ..) ..)) ..) ..) ..) (.steerVel
    (.setFld (.ite (.slip (.setTheta (.setAxis (.drawn h ..) ..) ..) ..) (.setAxis (.drawn h ..) ..)) ..) ..))

theorem Keeps.sampleRetime (h : Keeps o s) (n th tm : Nat) (v : Option Nat) : Keeps o (Machine.sampleRetime s n th tm v) :=
  .retimeAxis (.trackSample h ..) ..

theorem Keeps.encSample (h : Keeps o s) (n ang : Nat) (acq : Bool) : Keeps o (Machine.encSample s n ang acq) :=
  .ite (.enterTrack h ..) (.ite (.sampleRetime h ..) h)

theorem Keeps.setRt (h : Keeps o s) (x : Nat) : Keeps o (Machine.setRt s x) := .setFld h ..

theorem Keeps.loseRt (h : Keeps o s) : Keeps o (Machine.loseRt s) := .setFld (.bstopTrigger (.raise h ..) ..) ..

theorem Keeps.enterHoldover (h : Keeps o s) : Keeps o (Machine.enterHoldover s) :=
  .ite (.setRt (.loseRt h ..) ..) (.setRt (.raise (.other h) ..) ..)

theorem Keeps.toPhase (h : Keeps o s) : Keeps o (Machine.toPhase s) := .setRt (.other h) ..

theorem Keeps.setRtErr (h : Keeps o s) (e : Int) : Keeps o (Machine.setRtErr s e) := .setFld h ..

theorem Keeps.slewRt (h : Keeps o s) (e : Int) : Keeps o (Machine.slewRt s e) := .other h

theorem Keeps.followFlit (h : Keeps o s) (e : Int) (p f : Nat) : Keeps o (Machine.followFlit s e p f) :=
  .ite (.ite (.setFld (.other (.setRtErr h ..)) ..) (.ite (.ite (.slewRt (.other (.setRtErr h ..)) ..) (.setFld (.setRt (.raise (.other
    (.slewRt (.other (.setRtErr h ..)) ..)) ..) ..) ..)) (.slewRt (.other (.setRtErr h ..)) ..))) (.ite (.ite (.ite (.slewRt (.other
    (.setRtErr h ..)) ..) (.setRt (.raise (.slewRt (.other (.setRtErr h ..)) ..) ..) ..)) (.ite (.ite (.slewRt (.other (.setRtErr h ..))
    ..) (.other (.setRtErr h ..))) (.toPhase (.loseRt (.setRtErr h ..) ..) ..))) (.setRtErr h ..))

/-! ### LaneOps -/

theorem Keeps.setLaneState (h : Keeps o s) (n v : Nat) : Keeps o (Machine.setLaneState s n v) := .setFld h ..

theorem Keeps.setTaps (h : Keeps o s) (n v : Nat) : Keeps o (Machine.setTaps s n v) := .setFld (.setFld (.setFld h ..) ..) ..

theorem Keeps.toDetect (h : Keeps o s) (n : Nat) : Keeps o (Machine.toDetect s n) := .setLaneState (.setLane (.drawn h ..) ..) ..

theorem Keeps.laneStart (h : Keeps o s) (n : Nat) : Keeps o (Machine.laneStart s n) := .ite (.toDetect (.setTaps h ..) ..) h

theorem Keeps.rclkLost (h : Keeps o s) (n : Nat) : Keeps o (Machine.rclkLost s n) := .ite (.enterHoldover h ..) h

theorem Keeps.laneOff (h : Keeps o s) (n : Nat) : Keeps o (Machine.laneOff s n) :=
  .setLaneState (.setLane (.ite (.rclkLost h ..) h) ..) ..

theorem Keeps.laneDownOnly (h : Keeps o s) (n cause : Nat) : Keeps o (Machine.laneDownOnly s n cause) :=
  .toDetect (.setFld (.rclkLost (.setTaps (.satInc (.raise h ..) ..) ..) ..) ..) ..

theorem Keeps.expireItem (h : Keeps o s) (p : Nat) (i : Item) : Keeps o (Machine.expireItem s p i) := by
  unfold Machine.expireItem
  split
  exacts [(.ite (.outcomes (.uncharge h ..) ..) h), (by split; exacts [(.loseCommits h ..), h]), h]

theorem Keeps.drainWaiting (h : Keeps o s) (p n : Nat) : Keeps o (Machine.drainWaiting s p n) := by
  induction n generalizing s with
  | zero => exact h
  | succ n ih =>
    unfold Machine.drainWaiting
    split
    · exact h
    · exact .ite (ih (.expireItem (h.setPort ..) ..)) (.ite (ih (.emitItem (h.setPort ..) ..)) h)

theorem Keeps.drainPort (h : Keeps o s) (p : Nat) : Keeps o (Machine.drainPort s p) := .drainWaiting h ..

theorem Keeps.loseJournal (h : Keeps o s) (p : Nat) : Keeps o (Machine.loseJournal s p) :=
  .forEach (fun _ _ h1 => (.expireItem h1 ..)) h ..

theorem Keeps.dropUnsent (h : Keeps o s) (p : Nat) : Keeps o (Machine.dropUnsent s p) :=
  .forEach (fun _ _ h1 => (.expireItem h1 ..)) (.outcomes (.uncharge (.setPort (.setDsp h ..) ..) ..) ..) ..

theorem Keeps.setPortState (h : Keeps o s) (p v : Nat) : Keeps o (Machine.setPortState s p v) := .setFld h ..

theorem Keeps.clearMods (h : Keeps o s) (p : Nat) : Keeps o (Machine.clearMods s p) := .setFld (.resetOffsets h ..) ..

theorem Keeps.sendEnum (h : Keeps o s) (p : Nat) : Keeps o (Machine.sendEnum s p) := .sendPlain h ..

theorem Keeps.forgetRails (h : Keeps o s) (p : Nat) : Keeps o (Machine.forgetRails s p) := .setDsp h ..

theorem Keeps.enumStart (h : Keeps o s) (p : Nat) : Keeps o (Machine.enumStart s p) :=
  .setPortState (.sendEnum (.setPort (.forgetRails (.clearMods h ..) ..) ..) ..) ..

theorem Keeps.sendSafes (h : Keeps o s) (p : Nat) : Keeps o (Machine.sendSafes s p) :=
  .forEach (fun _ _ h1 => (.sendPlain h1 ..)) h ..

theorem Keeps.enumDone (h : Keeps o s) (p : Nat) : Keeps o (Machine.enumDone s p) :=
  .drainPort (.ite (.sendPlain (.sendSafes (.setPortState (.raise (.setFld (.setPort h ..) ..) ..) ..) ..) ..) (.sendSafes
    (.setPortState (.raise (.setFld (.setPort h ..) ..) ..) ..) ..)) ..

theorem Keeps.setInfo (h : Keeps o s) (p n : Nat) (x : ModInfo) : Keeps o (Machine.setInfo s p n x) := .setPort h ..

theorem Keeps.sendIdRead (h : Keeps o s) (p n off : Nat) : Keeps o (Machine.sendIdRead s p n off) := .sendPlain h ..

theorem Keeps.idPump (h : Keeps o s) (p n : Nat) : Keeps o (Machine.idPump s p n) := by
  induction n generalizing s with
  | zero => exact h
  | succ n ih =>
    unfold Machine.idPump
    refine .ite h ?_
    split
    · exact h
    · exact ih (.sendIdRead (h.setInfo ..) ..)

theorem Keeps.enumProgress (h : Keeps o s) (p : Nat) : Keeps o (Machine.enumProgress s p) := .ite (.enumDone h ..) (.idPump h ..)

theorem Keeps.endModuleChecks (h : Keeps o s) (p n st reason maker : Nat) : Keeps o (Machine.endModuleChecks s p n st reason maker) :=
  .enumProgress (.ite (.raise (.setFld (.setFld (.setFld (.setInfo h ..) ..) ..) ..) ..) (.ite (.raise (.setFld (.setFld (.setFld
    (.setInfo h ..) ..) ..) ..) ..) (.setFld (.setFld (.setFld (.setInfo h ..) ..) ..) ..))) ..

theorem Keeps.judgeModule (h : Keeps o s) (p n : Nat) : Keeps o (Machine.judgeModule s p n) := by
  unfold Machine.judgeModule
  dsimp only
  exact .ite (.endModuleChecks h ..) (.ite (.endModuleChecks h ..) (.endModuleChecks h ..))

theorem Keeps.enumEmpty (h : Keeps o s) (p : Nat) : Keeps o (Machine.enumEmpty s p) :=
  .enumDone (.setFld (.setFld (.setFld h ..) ..) ..) ..

theorem Keeps.enterRecover (h : Keeps o s) (p : Nat) : Keeps o (Machine.enterRecover s p) :=
  .setPortState (.raise (.setPort h ..) ..) ..

theorem Keeps.retrainLanes (h : Keeps o s) (p : Nat) : Keeps o (Machine.retrainLanes s p) :=
  .forEach (fun _ _ h1 => (.ite (.laneDownOnly h1 ..) h1)) h ..

theorem Keeps.startReplay (h : Keeps o s) (p : Nat) : Keeps o (Machine.startReplay s p) :=
  .ite h (.ite (.replay (.setPort h ..) ..) (.retrainLanes (.enterRecover h ..) ..))

theorem Keeps.portLaneDown (h : Keeps o s) (p : Nat) : Keeps o (Machine.portLaneDown s p) :=
  .ite (.enterRecover h ..) (.ite (.setPortState (.setPort h ..) ..) h)

theorem Keeps.laneDown (h : Keeps o s) (n cause : Nat) : Keeps o (Machine.laneDown s n cause) :=
  .ite (.portLaneDown (.laneDownOnly h ..) ..) h

theorem Keeps.trunkUp (h : Keeps o s) (p : Nat) : Keeps o (Machine.trunkUp s p) := .setPortState (.setPort h ..) ..

theorem Keeps.resendTrunk (h : Keeps o s) (p : Nat) : Keeps o (Machine.resendTrunk s p) :=
  .forEach (fun _ _ h1 => (.send h1 ..)) h ..

theorem Keeps.portReady (h : Keeps o s) (p : Nat) : Keeps o (Machine.portReady s p) :=
  .ite h (.ite (.ite (.trunkUp (.raise h ..) ..) (.enumStart (.raise h ..) ..)) (.ite (.ite (.resendTrunk (.setPortState h ..) ..)
    (.drainPort (.replay (.setPortState h ..) ..) ..)) h))

theorem Keeps.portDrained {s0 : State} (h : Keeps o s0) (p : Nat) : Keeps o (Machine.portDrained s0 p) :=
  .setPortState (.setPort (.setFld (.setFld (.sendPlain h ..) ..) ..) ..) ..

theorem Keeps.portDrainCheck (h : Keeps o s) (p : Nat) : Keeps o (Machine.portDrainCheck s p) := .ite (.portDrained h ..) h

theorem Keeps.sendHop (h : Keeps o s) (p type payload : Nat) : Keeps o (Machine.sendHop s p type payload) :=
  .send (.setPort h ..) ..

theorem Keeps.routeDrop (h : Keeps o s) (y : Nat) : Keeps o (Machine.routeDrop s y) := .raise h ..

theorem Keeps.route (h : Keeps o s) (type y : Nat) : Keeps o (Machine.route s type y).2 := by
  unfold Machine.route
  split
  exacts [(.routeDrop h ..), (.iteSnd (.routeDrop h ..) (.sendHop h ..))]

theorem Keeps.riRecord (h : Keeps o s) (node rec_ : Nat) : Keeps o (Machine.riRecord s node rec_) := by
  unfold Machine.riRecord
  split
  exacts [h, (.other h)]

theorem Keeps.answerInsert (h : Keeps o s) (node dst rec_ : Nat) : Keeps o (Machine.answerInsert s node dst rec_) :=
  .ite (.riRecord h ..) (.route h ..)

theorem Keeps.routeInsert (h : Keeps o s) (y : Nat) : Keeps o (Machine.routeInsert s y) := by
  have hroute : Keeps o (Machine.route s FT.remoteInsert y).2 := h.route ..
  unfold Machine.routeInsert
  extract_lets off
  split
  next heq =>
    rw [heq] at hroute
    exact hroute
  next heq =>
    rw [heq] at hroute
    exact hroute.answerInsert ..

theorem Keeps.trunkNak (h : Keeps o s) (p : Nat) : Keeps o (Machine.trunkNak s p) := .ite h (.sendPlain (.setPort h ..) ..)

theorem Keeps.hopReceive {k : State → State} (h : Keeps o s) (hk : ∀ s, Keeps o s → Keeps o (k s)) (p f : Nat) : Keeps o
    (Machine.hopReceive s p f k) :=
  .ite (hk _ (.setPort h ..)) (.trunkNak h ..)

/-! ### Angle -/

theorem Keeps.encIllegal (h : Keeps o s) (k : Nat) : Keeps o (Machine.encIllegal s k) :=
  .forEach (fun _ _ h1 => (.toLost h1 ..)) h ..

theorem Keeps.encEdge (h : Keeps o s) (k : Nat) (up : Bool) : Keeps o (Machine.encEdge s k up) :=
  .forEach (fun _ _ h1 => (.encSample h1 ..)) (.setEnc h ..) ..

theorem Keeps.zEdge (h : Keeps o s) (k : Nat) : Keeps o (Machine.zEdge s k) :=
  .forEach (fun _ _ h1 => (.encSample h1 ..)) (.setEnc (.ite (.forEach (fun _ _ h1 => (.slip h1 ..)) h ..) h) ..) ..

theorem Keeps.ssiValid (h : Keeps o s) (k word : Nat) : Keeps o (Machine.ssiValid s k word) :=
  .forEach (fun _ _ h1 => (.encSample h1 ..)) (.setEnc h ..) ..

theorem Keeps.ssiInvalid (h : Keeps o s) (k : Nat) : Keeps o (Machine.ssiInvalid s k) :=
  .ite (.setEnc h ..) (.encIllegal (.setEnc h ..) ..)

theorem Keeps.carriedSample (h : Keeps o s) (n th tm v need : Nat) : Keeps o (Machine.carriedSample s n th tm v need) :=
  .ite (.ite (.enterTrack h ..) (.setAxis h ..)) (.ite (.sampleRetime h ..) h)

theorem Keeps.virtCommit (h : Keeps o s) (n upper : Nat) : Keeps o (Machine.virtCommit s n upper) :=
  .ite (.ite (.carriedSample (.setFld h ..) ..) (.setFld h ..)) h

theorem Keeps.beaconRx (h : Keeps o s) (p : Nat) (f : Flit) : Keeps o (Machine.beaconRx s p f) :=
  .ite (.forEach (fun _ _ h1 => (.send h1 ..)) (.forEach (fun _ _ h1 => (.carriedSample h1 ..)) h ..) ..) (.forEach (fun _ _ h1 =>
    (.carriedSample h1 ..)) h ..)

theorem Keeps.axisEnables (h : Keeps o s) (n : Nat) (chg : Bool) : Keeps o (Machine.axisEnables s n chg) :=
  .ite (.setFld h ..) (.ite (.toAcquire h ..) h)

theorem Keeps.axisCfgWrite (h : Keeps o s) (n w : Nat) : Keeps o (Machine.axisCfgWrite s n w) :=
  .axisEnables (.setFld (.setFld (.setFld (.setFld h ..) ..) ..) ..) ..

theorem Keeps.angEnable (h : Keeps o s) : Keeps o (Machine.angEnable s) :=
  .ite h (.forEach (fun _ _ h1 => (.axisEnables h1 ..)) (.setFld h ..) ..)

theorem Keeps.angDisable (h : Keeps o s) : Keeps o (Machine.angDisable s) :=
  .forEach (fun _ _ h1 => (.setFld h1 ..)) (.setFld h ..) ..

theorem Keeps.startRole (h : Keeps o s) (role : Nat) : Keeps o (Machine.startRole s role) :=
  .ite (.setFld (.setRt (.setFld (.setFld h ..) ..) ..) ..) (.ite (.setRt h ..) h)

theorem Keeps.roleWrite (h : Keeps o s) (w : Nat) : Keeps o (Machine.roleWrite s w) :=
  .ite h (.ite (.setFld h ..) (.startRole (.showRef (.setFld (.setRt (.ite (.loseRt (.setFld h ..) ..) (.setFld h ..)) ..) ..) ..) ..))

theorem Keeps.moduleRingTime (h : Keeps o s) (p pos f late : Nat) : Keeps o (Machine.moduleRingTime s p pos f late) :=
  .ite (.other (.drawn h ..)) (.send (.other (.drawn h ..)) ..)

theorem Keeps.deviceRingTime (h : Keeps o s) (p f late : Nat) : Keeps o (Machine.deviceRingTime s p f late) :=
  .ite (.sendWhere (.setFld (.followFlit h ..) ..) ..) h

theorem Keeps.ptmCapture (h : Keeps o s) : Keeps o (Machine.ptmCapture s) := .ite h (.setFld h ..)

/-! ### RegFile -/

theorem Keeps.setRanged (h : Keeps o s) (f : Fld) (r : Rng) (v : Nat) : Keeps o (Machine.setRanged s f r v) := by
  unfold Machine.setRanged
  split
  exacts [(.setFld h ..), (.ite (.setFld h ..) h), (.setFld h ..)]

theorem Keeps.writeRow (h : Keeps o s) (locked : Bool) (off w : Nat) (r : RegRow) : Keeps o (Machine.writeRow locked off w s r) := by
  unfold Machine.writeRow
  split
  exacts [h, (.ite h (by split; exacts [(.setRanged h ..), (.ite h (.setRanged h ..)), (.setFld h ..), (.setFld h ..), h, h, h]))]

theorem Keeps.plainWrite (h : Keeps o s) (off w : Nat) : Keeps o (Machine.plainWrite s off w) :=
  .forEach (fun _ _ h1 => (.writeRow h1 ..)) h ..

theorem Keeps.clearRow (h : Keeps o s) (off : Nat) (r : RegRow) : Keeps o (Machine.clearRow off s r) := by
  unfold Machine.clearRow
  split
  exacts [h, (.ite (.setFld h ..) h)]

theorem Keeps.clearWord (h : Keeps o s) (off : Nat) : Keeps o (Machine.clearWord s off) :=
  .forEach (fun _ _ h1 => (.clearRow h1 ..)) h ..

theorem Keeps.latchUpper (h : Keeps o s) (off v : Nat) : Keeps o (Machine.latchUpper s off v) := by
  refine h.of_canonical (fun hs => ?_) rfl rfl
  obtain ⟨hregs, hlatch, hmem⟩ := hs
  have hset := smSet_wf hlatch off (v % 2 ^ 32 + 1)
  exact ⟨hregs, hset, hmem⟩

/-! ### Timetable -/

theorem Keeps.setRegion (h : Keeps o s) (r : Nat) (x : Region) : Keeps o (Machine.setRegion s r x) := .other h

theorem Keeps.setTt (h : Keeps o s) (x : Timetable) : Keeps o (Machine.setTt s x) := .other h

theorem Keeps.countUsed (h : Keeps o s) : Keeps o (Machine.countUsed s) := .peak (.setFld h ..) ..

theorem Keeps.ttRelease (h : Keeps o s) : Keeps o (Machine.ttRelease s) := .ite (.setFld (.setFld h ..) ..) h

theorem Keeps.slotBytes (h : Keeps o s) (k e : Nat) : Keeps o (Machine.slotBytes s k e) := .setLineBytes h ..

theorem Keeps.storeEntry (h : Keeps o s) (e r : Nat) : Keeps o (Machine.storeEntry s e r) :=
  .countUsed (.slotBytes (.setTt (.drawn h ..) ..) ..) ..

theorem Keeps.ttTrap (h : Keeps o s) (e cls : Nat) : Keeps o (Machine.ttTrap s e cls) :=
  .ite (.satInc (.raise h ..) ..) (.setFld (.setFld (.setFld (.raise h ..) ..) ..) ..)

theorem Keeps.passLate (h : Keeps o s) (e : Nat) : Keeps o (Machine.passLate s e) :=
  .ite (.setDsp (.setTt h ..) ..) (.outcome h ..)

theorem Keeps.tryStore (h : Keeps o s) (e r : Nat) (stored : Bool) (st detail : Nat) : Keeps o (Machine.tryStore s e r stored st
    detail).2.2 :=
  .iteSnd2 (.storeEntry h ..) (.raise h ..)

theorem Keeps.decideLate (h : Keeps o s) (e cls : Nat) (stored : Bool) : Keeps o (Machine.decideLate s e cls stored).2.2 := by
  unfold Machine.decideLate
  split
  exacts [h, (.iteSnd2 h (.passLate h ..)), (.ttTrap h ..), (.iteSnd2 h (.tryStore h ..))]

theorem Keeps.decideIns (h : Keeps o s) (e cls : Nat) (stored : Bool) : Keeps o (Machine.decideIns s e cls stored).2.2 :=
  .iteSnd2 h (.iteSnd2 h (.iteSnd2 h
    (by split; exacts [h, (.iteSnd2 h (.iteSnd2 h (.iteSnd2 (.decideLate h ..) (.iteSnd2 h (.iteSnd2 h (.tryStore h ..))))))])))

theorem Keeps.countIns (h : Keeps o s) (st : Nat) : Keeps o (Machine.countIns s st) := .satInc (.ite (.raiseMerged h ..) h) ..

theorem Keeps.requeueLost (h : Keeps o s) (e : Nat) : Keeps o (Machine.requeueLost s e) := .satInc (.raise h ..) ..

theorem Keeps.decided (h : Keeps o s) (i : Ins) (st detail : Nat) : Keeps o (Machine.decided s i st detail) := by
  unfold Machine.decided
  split
  exacts [(.ite (.countIns h ..) (.requeueLost (.countIns h ..) ..)), (.countIns h ..), (.setTt (.countIns h ..) ..)]

theorem Keeps.acceptIns (h : Keeps o s) (i : Ins) (stored : Bool) : Keeps o (Machine.acceptIns s i stored) :=
  .decided (.decideIns h ..) ..

theorem Keeps.handOver (h : Keeps o s) (i : Ins) : Keeps o (Machine.handOver s i) := .setTt h ..

theorem Keeps.fabCounts (h : Keeps o s) (k : Nat) : Keeps o (Machine.fabCounts s k) := .setFld (.setFld h ..) ..

theorem Keeps.hostCounts (h : Keeps o s) : Keeps o (Machine.hostCounts s) := .setFld (.setFld h ..) ..

theorem Keeps.srcCounts (h : Keeps o s) (x : Src) : Keeps o (Machine.srcCounts s x) := by
  unfold Machine.srcCounts
  split
  exacts [(.fabCounts h ..), (.hostCounts h ..), h]

theorem Keeps.fabricInsert (h : Keeps o s) (k tag e : Nat) : Keeps o (Machine.fabricInsert s k tag e) :=
  .ite (.fabCounts (.handOver h ..) ..) h

theorem Keeps.hostInsertGo (h : Keeps o s) (w : Nat) : Keeps o (Machine.hostInsertGo s w) :=
  .ite (.satInc h ..) (.hostCounts (.handOver h ..) ..)

theorem Keeps.servedIns (h : Keeps o s) (i : Ins) : Keeps o (Machine.servedIns s i) := .setTt h ..

theorem Keeps.insertAcceptance (h : Keeps o s) (stored : Bool) : Keeps o (Machine.insertAcceptance s stored) := by
  unfold Machine.insertAcceptance
  split
  exacts [h, (.srcCounts (.acceptIns (.servedIns h ..) ..) ..)]

theorem Keeps.deliver (h : Keeps o s) (d : Done) : Keeps o (Machine.deliver s d) := by
  unfold Machine.deliver
  split
  exacts [(.setTt h ..), (.setTt h ..), (.setTt (.ite (.pendVec h ..) h) ..), (.answerInsert h ..), h]

theorem Keeps.completionRecord (h : Keeps o s) (k : Nat) : Keeps o (Machine.completionRecord s k) := by
  unfold Machine.completionRecord
  split
  exacts [h, (.srcCounts (.deliver (.setTt h ..) ..) ..)]

theorem Keeps.cqTake (h : Keeps o s) (k : Nat) : Keeps o (Machine.cqTake s k) := .ite (.fabCounts (.setTt h ..) ..) h

theorem Keeps.hcqPop (h : Keeps o s) : Keeps o (Machine.hcqPop s) := .hostCounts (.setTt h ..) ..

theorem Keeps.resetFronts (h : Keeps o s) : Keeps o (Machine.resetFronts s) :=
  .forEach (fun _ _ h1 => (.setFld (.setFld (.setFld h1 ..) ..) ..)) h ..

theorem Keeps.ttEnable (h : Keeps o s) : Keeps o (Machine.ttEnable s) :=
  .ite h (.ite (.setFld h ..) (.ite (.setFld (.raise h ..) ..) (.setFld (.setFld (.setFld (.setFld (.resetFronts (.setTt (.scramble h
    ..) ..) ..) ..) ..) ..) ..)))

theorem Keeps.ttInitDone (h : Keeps o s) : Keeps o (Machine.ttInitDone s) := .ite (.setFld (.raise h ..) ..) h

theorem Keeps.ttDrainEnd (h : Keeps o s) : Keeps o (Machine.ttDrainEnd s) := .ttRelease (.setFld (.setFld h ..) ..) ..

theorem Keeps.ttDisable (h : Keeps o s) : Keeps o (Machine.ttDisable s) := .ite h (.ite (.ttDrainEnd h ..) (.setFld h ..))

theorem Keeps.flushGo (h : Keeps o s) (w : Nat) : Keeps o (Machine.flushGo s w) :=
  .ite (.setFld (.setFld (.setFld h ..) ..) ..) (.setFld (.setFld (.setTt (.setFld (.setFld (.setFld h ..) ..) ..) ..) ..) ..)

theorem Keeps.flushBucket (h : Keeps o s) : Keeps o (Machine.flushBucket s) := by
  unfold Machine.flushBucket
  split
  exacts [h, (.ite (.ttRelease (.setFld (.setTt h ..) ..) ..) (.setFld (.setFld (.setFld (.raise (.ttRelease (.setFld (.setTt h ..) ..)
    ..) ..) ..) ..) ..))]

theorem Keeps.loseSlots (h : Keeps o s) (kind : Nat) (hit : Slot → Bool) : Keeps o (Machine.loseSlots s kind hit) := .setTt h ..

theorem Keeps.loseChains (h : Keeps o s) (hit : Slot → Bool) : Keeps o (Machine.loseChains s hit) := .setTt h ..

theorem Keeps.retire (h : Keeps o s) (l : List Nat) : Keeps o (Machine.retire s l) := .setFld (.setTt h ..) ..

theorem Keeps.partitionError (h : Keeps o s) (off : Nat) : Keeps o (Machine.partitionError s off) :=
  .ite (.retire (.loseSlots h ..) ..) (.loseChains h ..)

theorem Keeps.resetInflight (h : Keeps o s) : Keeps o (Machine.resetInflight s) :=
  .forEach (fun _ _ h1 => (.deliver h1 ..)) (.forEach (fun _ _ h1 => (by split; exacts [(.requeueLost h1 ..), h1, (.deliver h1 ..)]))
    (.setTt h ..) ..) ..

theorem Keeps.ttBlockReset (h : Keeps o s) : Keeps o (Machine.ttBlockReset s) :=
  .hostCounts (.forEach (fun _ _ h1 => (.fabCounts h1 ..)) (.resetBlockRegs (.setTt (.outcomes (.setDsp (.resetInflight h ..) ..) ..)
    ..) ..) ..) ..

theorem Keeps.orphanSources (h : Keeps o s) (mine : Src → Bool) : Keeps o (Machine.orphanSources s mine) := .setTt h ..

/-! ### Modules -/

theorem Keeps.setModule (h : Keeps o s) (p pos : Nat) (m : Module) : Keeps o (Machine.setModule s p pos m) := .other h

theorem Keeps.modSend (h : Keeps o s) (p pos type cidx payload : Nat) : Keeps o (Machine.modSend s p pos type cidx payload) :=
  .send h ..

theorem Keeps.forward (h : Keeps o s) (p pos : Nat) (f : Flit) : Keeps o (Machine.forward s p pos f) := .ite h (.send h ..)

theorem Keeps.forwardIdle (h : Keeps o s) (p pos f : Nat) : Keeps o (Machine.forwardIdle s p pos f) := .forward h ..

theorem Keeps.modAck (h : Keeps o s) (p pos addr seq res : Nat) : Keeps o (Machine.modAck s p pos addr seq res) := .modSend h ..

theorem Keeps.modNak (h : Keeps o s) (p pos reason : Nat) : Keeps o (Machine.modNak s p pos reason) := .modSend h ..

theorem Keeps.ackItem (h : Keeps o s) (p pos f res : Nat) : Keeps o (Machine.ackItem s p pos f res) := .ite (.modAck h ..) h

theorem Keeps.passOn (h : Keeps o s) (p pos : Nat) (f : Flit) : Keeps o (Machine.passOn s p pos f) :=
  .ite (.forward h ..) (.forwardIdle h ..)

theorem Keeps.atModule {take : State → State} (h : Keeps o s) (htake : ∀ s, Keeps o s → Keeps o (take s)) (p pos : Nat) (f : Flit) (type
    : Nat) : Keeps o (Machine.atModule s p pos f type take) :=
  .ite h (.ite (.passOn (htake _ h) ..) (.forward h ..))

theorem Keeps.tookItem (h : Keeps o s) (p pos f : Nat) : Keeps o (Machine.tookItem s p pos f) := .setModule h ..

theorem Keeps.passAll (h : Keeps o s) (p pos : Nat) (l : List Flit) : Keeps o (Machine.passAll s p pos l) :=
  .forEach (fun _ _ h1 => (.passOn h1 ..)) h ..

theorem Keeps.forwardAll (h : Keeps o s) (p pos : Nat) (l : List Flit) : Keeps o (Machine.forwardAll s p pos l) :=
  .forEach (fun _ _ h1 => (.forward h1 ..)) h ..

theorem Keeps.idleAll (h : Keeps o s) (p pos : Nat) (l : List Flit) : Keeps o (Machine.idleAll s p pos l) :=
  .forEach (fun _ _ h1 => (.forwardIdle h1 ..)) h ..

theorem Keeps.takeConsist (h : Keeps o s) (p pos : Nat) (l : List Flit) (it : Held) (f : Nat) : Keeps o (Machine.takeConsist s p pos l
    it f) :=
  .ite (.idleAll (.modNak (.tookItem h ..) ..) ..) (.ite (.passAll (.ackItem (.tookItem h ..) ..) ..) (.ite (.passAll (.ackItem
    (.setModule (.tookItem h ..) ..) ..) ..) (.ite (.idleAll (.modNak (.tookItem h ..) ..) ..) (.passAll (.ackItem (.setModule
    (.tookItem h ..) ..) ..) ..))))

theorem Keeps.consist (h : Keeps o s) (p pos : Nat) (l : List Flit) : Keeps o (Machine.consist s p pos l) :=
  .ite h (.ite (.forwardAll h ..) (.ite (.idleAll (.modNak h ..) ..) (.takeConsist h ..)))

theorem Keeps.consistExecute (h : Keeps o s) (p pos seq : Nat) : Keeps o (Machine.consistExecute s p pos seq) := by
  unfold Machine.consistExecute
  dsimp only
  split
  exacts [h, (.setModule h ..)]

theorem Keeps.stagedStamp (h : Keeps o s) (p pos seq : Nat) : Keeps o (Machine.stagedStamp s p pos seq) := by
  unfold Machine.stagedStamp
  dsimp only
  split
  exacts [h, (.setModule h ..)]

theorem Keeps.fallbackApply (h : Keeps o s) (p pos : Nat) : Keeps o (Machine.fallbackApply s p pos) := .setModule h ..

theorem Keeps.pulseEnd (h : Keeps o s) (p pos c : Nat) : Keeps o (Machine.pulseEnd s p pos c) := .ite (.setModule h ..) h

theorem Keeps.takeRetime (h : Keeps o s) (p pos f : Nat) : Keeps o (Machine.takeRetime s p pos f) :=
  .ackItem (.setModule (.tookItem h ..) ..) ..

theorem Keeps.takeCommit (h : Keeps o s) (p pos f : Nat) : Keeps o (Machine.takeCommit s p pos f) := .ackItem (.setModule h ..) ..

theorem Keeps.takeRevoke (h : Keeps o s) (p pos f : Nat) : Keeps o (Machine.takeRevoke s p pos f) := .ackItem (.setModule h ..) ..

theorem Keeps.stopModule (h : Keeps o s) (p pos : Nat) : Keeps o (Machine.stopModule s p pos) := .setModule h ..

theorem Keeps.takeBstop (h : Keeps o s) (p pos : Nat) : Keeps o (Machine.takeBstop s p pos) := by
  unfold Machine.takeBstop
  dsimp only
  exact .ite (.modAck (.stopModule h ..) ..) (.stopModule h ..)

theorem Keeps.takeResume (h : Keeps o s) (p pos : Nat) : Keeps o (Machine.takeResume s p pos) := .setModule h ..

theorem Keeps.takeSafe (h : Keeps o s) (p pos : Nat) : Keeps o (Machine.takeSafe s p pos) := .setModule h ..

theorem Keeps.takeMissed (h : Keeps o s) (p pos : Nat) : Keeps o (Machine.takeMissed s p pos) := .setModule h ..

theorem Keeps.moduleIdle (h : Keeps o s) (p pos : Nat) (f : Flit) : Keeps o (Machine.moduleIdle s p pos f) :=
  .ite (.modSend h ..) (.send h ..)

theorem Keeps.takeEnum (h : Keeps o s) (p pos f : Nat) : Keeps o (Machine.takeEnum s p pos f) :=
  .ite (.send (.setModule h ..) ..) (.send (.setModule (.drawn h ..) ..) ..)

theorem Keeps.joined (h : Keeps o s) (p pos : Nat) : Keeps o (Machine.joined s p pos) := .setModule h ..

theorem Keeps.moduleEnum (h : Keeps o s) (p pos : Nat) (f : Flit) : Keeps o (Machine.moduleEnum s p pos f) :=
  .ite (.send h ..) (.takeEnum h ..)

theorem Keeps.takeIdRead (h : Keeps o s) (p pos f : Nat) : Keeps o (Machine.takeIdRead s p pos f) := .modSend h ..

theorem Keeps.setHop (h : Keeps o s) (p pos it : Nat) : Keeps o (Machine.setHop s p pos it) :=
  .ite (.setPort (.setModule h ..) ..) (.setModule (.setModule h ..) ..)

theorem Keeps.probe (h : Keeps o s) (p pos : Nat) (down : Bool) (t f : Nat) : Keeps o (Machine.probe s p pos down t f) :=
  .ite (.send h ..) (.ite (.setHop h ..) h)

/-! ### Wengan -/

theorem Keeps.sendCommits (h : Keeps o s) (g : Grp) : Keeps o (Machine.sendCommits s g) :=
  .forEach (fun _ _ h1 => (.queueItem h1 ..)) h ..

theorem Keeps.recordLast (h : Keeps o s) (g : Grp) (m : Memb) : Keeps o (Machine.recordLast s g m) :=
  .forEach (fun _ _ h1 => (.setDsp h1 ..)) h ..

theorem Keeps.commitGroup (h : Keeps o s) (g : Grp) : Keeps o (Machine.commitGroup s g) :=
  .sendCommits (.putGroup (.forEach (fun _ _ h1 => (.recordLast h1 ..)) (.outcomes h ..) ..) ..) ..

theorem Keeps.ackStaged (h : Keeps o s) (p : Nat) (i : Item) : Keeps o (Machine.ackStaged s p i) := by
  unfold Machine.ackStaged
  split
  exacts [h, (.ite (.commitGroup (.putGroup h ..) ..) (.putGroup h ..))]

theorem Keeps.ackCommit (h : Keeps o s) (p : Nat) (i : Item) (res : Nat) : Keeps o (Machine.ackCommit s p i res) := by
  unfold Machine.ackCommit
  split
  exacts [h, (.ite (.loseCommits h ..) (.ite (.endGroup h ..) (.putGroup h ..)))]

theorem Keeps.ackRecord (h : Keeps o s) (p r : Nat) : Keeps o (Machine.ackRecord s p r) :=
  .ite (.bstopCheck (.setDsp h ..) ..)
    (by split; exacts [h, (by split; exacts [(.ite (.ackStaged (.setPort h ..) ..) (.setPort h ..)), (.ackCommit (.setPort h ..) ..), (.setPort h ..)])])

theorem Keeps.ringAck (h : Keeps o s) (p f : Nat) : Keeps o (Machine.ringAck s p f) :=
  .portDrainCheck (.drainPort (.forEach (fun _ _ h1 => (.ackRecord h1 ..)) (.setPort h ..) ..) ..) ..

theorem Keeps.trunkAck (h : Keeps o s) (p f : Nat) : Keeps o (Machine.trunkAck s p f) := .setPort h ..

theorem Keeps.ackFlit (h : Keeps o s) (p pos : Nat) (f : Flit) : Keeps o (Machine.ackFlit s p pos f) :=
  .ite (.send h ..) (.ite (.trunkAck h ..) (.ite (.ringAck h ..) h))

theorem Keeps.countNak (h : Keeps o s) (p : Nat) : Keeps o (Machine.countNak s p) := .satInc (.raiseMerged h ..) ..

theorem Keeps.ringNak (h : Keeps o s) (p f : Nat) : Keeps o (Machine.ringNak s p f) :=
  .startReplay (.ite (.sendPlain (.countNak h ..) ..) (.countNak h ..)) ..

theorem Keeps.trunkNakRx (h : Keeps o s) (p f : Nat) : Keeps o (Machine.trunkNakRx s p f) :=
  .resendTrunk (.setPort (.countNak h ..) ..) ..

theorem Keeps.nakFlit (h : Keeps o s) (p pos : Nat) (f : Flit) : Keeps o (Machine.nakFlit s p pos f) :=
  .ite (.send h ..) (.ite (.trunkNakRx h ..) (.ite (.ringNak h ..) h))

theorem Keeps.ackTimeout (h : Keeps o s) (p seq : Nat) : Keeps o (Machine.ackTimeout s p seq) :=
  .ite (.startReplay (.satInc h ..) ..) h

theorem Keeps.enumReturned (h : Keeps o s) (p f elapsed : Nat) : Keeps o (Machine.enumReturned s p f elapsed) :=
  .enumProgress (.setFld (.setFld (.setFld (.ite (.raise (.setPort h ..) ..) (.setPort h ..)) ..) ..) ..) ..

theorem Keeps.enumFlit (h : Keeps o s) (p pos : Nat) (f : Flit) (elapsed : Nat) (partner : Bool) : Keeps o (Machine.enumFlit s p pos f
    elapsed partner) :=
  .ite (.moduleEnum (.ite (.joined h ..) h) ..) (.ite (.enumReturned h ..) h)

theorem Keeps.enumTimeout (h : Keeps o s) (p : Nat) : Keeps o (Machine.enumTimeout s p) :=
  .ite h (.ite (.sendEnum (.setPort h ..) ..) (.enumEmpty h ..))

theorem Keeps.enumWrite (h : Keeps o s) (p : Nat) : Keeps o (Machine.enumWrite s p) := .ite (.enumStart h ..) h

theorem Keeps.idTake (h : Keeps o s) (p n off data : Nat) : Keeps o (Machine.idTake s p n off data) :=
  .ite (.endModuleChecks (.setInfo h ..) ..) (.ite (.judgeModule (.setInfo h ..) ..) (.idPump (.setInfo h ..) ..))

theorem Keeps.idData (h : Keeps o s) (p f : Nat) : Keeps o (Machine.idData s p f) := .ite (.idTake h ..) h

theorem Keeps.idReadTimeout (h : Keeps o s) (p n off : Nat) : Keeps o (Machine.idReadTimeout s p n off) :=
  .ite h (.ite (.sendIdRead (.setInfo h ..) ..) (.endModuleChecks h ..))

theorem Keeps.portEnable (h : Keeps o s) (p : Nat) : Keeps o (Machine.portEnable s p) :=
  .ite h (.portReady (.setPortState (.setFld (.ite h (.forEach (fun _ _ h1 => (.laneStart h1 ..)) h ..)) ..) ..) ..)

theorem Keeps.portDisable (h : Keeps o s) (p : Nat) : Keeps o (Machine.portDisable s p) :=
  .ite h (.portDrainCheck (.setFld (.dropUnsent h ..) ..) ..)

theorem Keeps.portIdleEnd (h : Keeps o s) (p : Nat) : Keeps o (Machine.portIdleEnd s p) :=
  .ite (.ite (.forEach (fun _ _ h1 => (.laneStart h1 ..)) (.forEach (fun _ _ h1 => (.laneOff h1 ..)) (.setPort h ..) ..) ..) (.forEach
    (fun _ _ h1 => (.laneStart h1 ..)) (.forEach (fun _ _ h1 => (.laneOff h1 ..)) (.setPort h ..) ..) ..)) h

theorem Keeps.recoverTimeout (h : Keeps o s) (p : Nat) : Keeps o (Machine.recoverTimeout s p) :=
  .ite (.portDrainCheck (.setPortState (.missAll h ..) ..) ..) h

theorem Keeps.takeRemote (h : Keeps o s) (p y : Nat) : Keeps o (Machine.takeRemote s p y) :=
  .ite (.answerInsert (.countIns h ..) ..) (.handOver h ..)

theorem Keeps.routed (h : Keeps o s) {mine onward : State → State} (hmine : ∀ s, Keeps o s → Keeps o (mine s))
    (honward : ∀ s, Keeps o s → Keeps o (onward s)) (p : Nat) (f : Flit) (type : Nat) :
    Keeps o (Machine.routed s p f type mine onward) := by
  unfold Machine.routed
  refine .ite (h.hopReceive (fun u hu => ?_) ..) h
  split
  · exact hmine u hu
  · exact honward u hu

theorem Keeps.riGo (h : Keeps o s) (w : Nat) : Keeps o (Machine.riGo s w) := .ite (.satInc h ..) (.routeInsert (.other h) ..)

theorem Keeps.riTimeout (h : Keeps o s) (k : Nat) : Keeps o (Machine.riTimeout s k) := by
  unfold Machine.riTimeout
  split
  exacts [h, (.other h)]

theorem Keeps.riCqPop (h : Keeps o s) : Keeps o (Machine.riCqPop s) := .other h

theorem Keeps.mbTxGo (h : Keeps o s) (w : Nat) : Keeps o (Machine.mbTxGo s w) := .route h ..

theorem Keeps.mbQueue (h : Keeps o s) (y : Nat) : Keeps o (Machine.mbQueue s y) := .ite (.satInc h ..) (.other (.raise h ..))

theorem Keeps.mbRxPop (h : Keeps o s) : Keeps o (Machine.mbRxPop s) := .other h

theorem Keeps.crcError (h : Keeps o s) (p pos : Nat) (fwd : Bool) (f : Nat) : Keeps o (Machine.crcError s p pos fwd f) :=
  .ite (.ite (.modNak (.forwardIdle h ..) ..) (.send h ..)) (.ite (.trunkNak (.satInc h ..) ..) (.satInc h ..))

theorem Keeps.wngReset (h : Keeps o s) : Keeps o (Machine.wngReset s) :=
  .resetOffsets (.forEach (fun _ _ h1 => (.laneOff h1 ..)) (.other (.forEach (fun _ _ h1 => (.dropUnsent (.loseJournal h1 ..) ..)) h
    ..)) ..) ..

/-! ### Lanes -/

theorem Keeps.actTap (h : Keeps o s) (n c i : Nat) : Keeps o (Machine.actTap s n c i) :=
  .ite (.setLane h ..) (.ite h (.setTaps (.setLane h ..) ..))

theorem Keeps.takeControl (h : Keeps o s) (n c : Nat) : Keeps o (Machine.takeControl s n c) :=
  .forEach (fun _ _ h1 => (.actTap h1 ..)) (.ite (.setTaps (.setLane (.ite (.raise h ..) h) ..) ..) (.setLane (.ite (.raise h ..) h)
    ..)) ..

theorem Keeps.laneUp (h : Keeps o s) (n elapsed : Nat) : Keeps o (Machine.laneUp s n elapsed) :=
  .portReady (.setLaneState (.setFld (.setFld (.setFld (.setLane (.raise (.drawn h ..) ..) ..) ..) ..) ..) ..) ..

theorem Keeps.takeStatus (h : Keeps o s) (n st want : Nat) : Keeps o (Machine.takeStatus s n st want) := .setLane h ..

theorem Keeps.trainStep (h : Keeps o s) (n c : Nat) (valid fillErr : Bool) (elapsed : Nat) : Keeps o (Machine.trainStep s n c valid
    fillErr elapsed) :=
  .ite (.ite (.setLane h ..) (.ite (.setLane h ..) (.setLaneState (.setLane h ..) ..))) (.ite (.ite (.setLane h ..) (.ite (.setLane h
    ..) (.setLaneState (.setLane h ..) ..))) (.ite (.setLaneState (.setLane h ..) ..) (.ite (.setLane h ..) (.ite (.setLane h ..)
    (.laneUp h ..)))))

theorem Keeps.trainingFrame (h : Keeps o s) (n c0 st0 : Nat) (inverted fillErr : Bool) (want elapsed : Nat) : Keeps o
    (Machine.trainingFrame s n c0 st0 inverted fillErr want elapsed) :=
  .ite h (.ite (.ite (.laneDown h ..) h) (.ite (.ite (.toDetect (.setTaps h ..) ..) h) (.trainStep (.ite (.takeStatus (.ite
    (.takeControl (.setFld h ..) ..) (.setFld h ..)) ..) (.ite (.takeControl (.setFld h ..) ..) (.setFld h ..))) ..)))

theorem Keeps.trainTimeout (h : Keeps o s) (n : Nat) : Keeps o (Machine.trainTimeout s n) :=
  .ite (.toDetect (.setTaps (.satInc (.raise h ..) ..) ..) ..) h

theorem Keeps.laneTrainWrite (h : Keeps o s) (n : Nat) (on : Bool) : Keeps o (Machine.laneTrainWrite s n on) :=
  .ite (.setFld h ..) (.ite (.laneStart (.setFld h ..) ..) (.laneOff (.setFld h ..) ..))

theorem Keeps.skewDown (h : Keeps o s) (n : Nat) : Keeps o (Machine.skewDown s n) :=
  .ite (.forEach (fun _ _ h1 => (.laneDown h1 ..)) h ..) h

theorem Keeps.markerBad (h : Keeps o s) (n : Nat) : Keeps o (Machine.markerBad s n) :=
  .ite (.setLane h ..) (.laneDown (.setLane h ..) ..)

theorem Keeps.alignMarker (h : Keeps o s) (n m : Nat) (missing skew : Bool) : Keeps o (Machine.alignMarker s n m missing skew) :=
  .ite h (.ite (.skewDown h ..) (.ite (.markerBad h ..) (.ite (.setFld (.ite (.setFld (.setLane h ..) ..) (.setLane h ..)) ..)
    (.markerBad (.satInc h ..) ..))))

theorem Keeps.fecBad (h : Keeps o s) (n : Nat) : Keeps o (Machine.fecBad s n) :=
  .ite (.ite (.trunkNak (.satAdd (.setLane (.satInc (.raiseMerged h ..) ..) ..) ..) ..) (.satAdd (.setLane (.satInc (.raiseMerged h ..)
    ..) ..) ..)) (.laneDown (.ite (.trunkNak (.satAdd (.setLane (.satInc (.raiseMerged h ..) ..) ..) ..) ..) (.satAdd (.setLane (.satInc
    (.raiseMerged h ..) ..) ..) ..)) ..)

theorem Keeps.deviceCodeword (h : Keeps o s) (n cw : Nat) : Keeps o (Machine.deviceCodeword s n cw) :=
  .ite h (by split; exacts [(.fecBad h ..), (.satAdd (.setLane h ..) ..)])

theorem Keeps.moduleCodeword (h : Keeps o s) (n pos : Nat) (fwd : Bool) (cw : Nat) : Keeps o (Machine.moduleCodeword s n pos fwd cw) :=
    by
  unfold Machine.moduleCodeword
  split
  exacts [(.forEach (fun _ _ h1 => (.crcError h1 ..)) h ..), h]

theorem Keeps.fecCodeword (h : Keeps o s) (n pos : Nat) (fwd : Bool) (cw : Nat) : Keeps o (Machine.fecCodeword s n pos fwd cw) :=
  .ite (.deviceCodeword h ..) (.moduleCodeword h ..)

theorem Keeps.wakeTx (h : Keeps o s) (n : Nat) : Keeps o (Machine.wakeTx s n) := .ite (.setFld h ..) h

theorem Keeps.wakeToneEnd (h : Keeps o s) (n : Nat) : Keeps o (Machine.wakeToneEnd s n) :=
  .ite (.laneStart (.setFld h ..) ..) (.setFld h ..)

theorem Keeps.testWrite (h : Keeps o s) (n w : Nat) : Keeps o (Machine.testWrite s n w) :=
  .ite (.setFld (.setFld (.ite (.setFld (.ite (.setFld h ..) (.setLane (.drawn (.setFld h ..) ..) ..)) ..) (.ite (.setFld h ..)
    (.setLane (.drawn (.setFld h ..) ..) ..))) ..) ..) (.ite (.setFld (.ite (.setFld h ..) (.setLane (.drawn (.setFld h ..) ..) ..)) ..)
    (.ite (.setFld h ..) (.setLane (.drawn (.setFld h ..) ..) ..)))

theorem Keeps.chkLock (h : Keeps o s) (n : Nat) (gained : Bool) (errs syms : Nat) : Keeps o (Machine.chkLock s n gained errs syms) :=
  .ite h (.setFld (.ite (.satAdd (.satAdd h ..) ..) h) ..)

theorem Keeps.injectSymbols (h : Keeps o s) (n k : Nat) : Keeps o (Machine.injectSymbols s n k) :=
  .ite (.setLane (.drawn h ..) ..) h

theorem Keeps.injectCrc (h : Keeps o s) (n : Nat) : Keeps o (Machine.injectCrc s n) := .ite (.setLane h ..) h

theorem Keeps.symcntRead (h : Keeps o s) (n : Nat) : Keeps o (Machine.symcntRead s n) := .setFld (.latchUpper h ..) ..

theorem Keeps.wlnReset (h : Keeps o s) : Keeps o (Machine.wlnReset s) :=
  .resetBlockRegs (.other (.forEach (fun _ _ h1 => (.portLaneDown (.rclkLost h1 ..) ..)) h ..)) ..

/-! ### Rail8 -/

theorem Keeps.entryWithdrawn (h : Keeps o s) : Keeps o (Machine.entryWithdrawn s) :=
  .other (.setFld (.setFld (.raise h ..) ..) ..)

theorem Keeps.froStart (h : Keeps o s) : Keeps o (Machine.froStart s) := .setFld (.setFld (.other h) ..) ..

theorem Keeps.wakeStart (h : Keeps o s) : Keeps o (Machine.wakeStart s) := .other (.setFld (.ite (.froStart h ..) h) ..)

theorem Keeps.wakeSource (h : Keeps o s) (src : Nat) : Keeps o (Machine.wakeSource s src) :=
  .ite h (.ite (.ite h (.ite (.entryWithdrawn (.setFld h ..) ..) (.other (.setFld h ..)))) (.ite h (.ite (.setFld h ..) (.wakeStart
    (.setFld h ..) ..))))

theorem Keeps.entryWake (h : Keeps o s) : Keeps o (Machine.entryWake s) :=
  .ite (.ite (.entryWithdrawn (.wakeSource h ..) ..) (.wakeSource h ..)) h

theorem Keeps.r8Over (h : Keeps o s) (kind : Nat) : Keeps o (Machine.r8Over s kind) := .satInc (.raise h ..) ..

theorem Keeps.r8Step (h : Keeps o s) (c : Nat) : Keeps o (Machine.r8Step s c) := .ite (.addStep h ..) h

theorem Keeps.r8Charge (h : Keeps o s) (kind : Nat) : Keeps o (Machine.r8Charge s kind) :=
  .ite (.r8Over (.r8Step h ..) ..) (.r8Step h ..)

theorem Keeps.r8Waiting (h : Keeps o s) : Keeps o (Machine.r8Waiting s) := .setFld h ..

theorem Keeps.r8Request (h : Keeps o s) (r : R8Req) : Keeps o (Machine.r8Request s r) := .ite h (.r8Waiting (.setDsp h ..) ..)

theorem Keeps.r8Withdraw (h : Keeps o s) (c : R8Req → Bool) : Keeps o (Machine.r8Withdraw s c) := .r8Waiting (.setDsp h ..) ..

theorem Keeps.r8Admit (h : Keeps o s) (r : R8Req) : Keeps o (Machine.r8Admit s r) :=
  .ite (.r8Over (.r8Waiting (.r8Step (.setDsp h ..) ..) ..) ..) (.r8Waiting (.r8Step (.setDsp h ..) ..) ..)

/-! ### FabOps -/

theorem Keeps.regionRestart (h : Keeps o s) (r : Nat) : Keeps o (Machine.regionRestart s r) :=
  .ite (.setRegion (.satInc (.setFld (.setFld h ..) ..) ..) ..) (.setFld h ..)

theorem Keeps.regionWake {s0 : State} (h : Keeps o s0) (r : Nat) (charged : Bool) : Keeps o (Machine.regionWake s0 r charged) :=
  .ite (.ite (.entryWake h ..) h) (.ite (.setFld (.setRegion (.ite (.entryWake h ..) h) ..) ..) (.ite (.ite (.setRegion (.wakeSource
    (.ite (.entryWake h ..) h) ..) ..) (.wakeSource (.ite (.entryWake h ..) h) ..)) (.ite (.setFld (.ite (.entryWake h ..) h) ..) (.ite
    (.regionRestart (.r8Charge (.r8Withdraw (.ite (.entryWake h ..) h) ..) ..) ..) (.r8Request (.ite (.entryWake h ..) h) ..)))))

theorem Keeps.setRegState (h : Keeps o s) (r x : Nat) : Keeps o (Machine.setRegState s r x) := .ite h (.setFld (.raise h ..) ..)

theorem Keeps.setPlane (h : Keeps o s) (r k x : Nat) : Keeps o (Machine.setPlane s r k x) := .setFld h ..

theorem Keeps.clearPriv (h : Keeps o s) (r k : Nat) : Keeps o (Machine.clearPriv s r k) := .setRegion h ..

theorem Keeps.setFab (h : Keeps o s) (x : Fabric) : Keeps o (Machine.setFab s x) := .other h

theorem Keeps.putFrame (h : Keeps o s) (kind r k tile v : Nat) : Keeps o (Machine.putFrame s kind r k tile v) := .setFab h ..

theorem Keeps.zeroPlane (h : Keeps o s) (r k : Nat) : Keeps o (Machine.zeroPlane s r k) := .setFab h ..

theorem Keeps.makeClaims (h : Keeps o s) (r k tile f : Nat) : Keeps o (Machine.makeClaims s r k tile f) :=
  .forEach (fun _ _ h1 => (.ite (.setFab h1 ..) h1)) h ..

theorem Keeps.dropClaims (h : Keeps o s) (r k : Nat) : Keeps o (Machine.dropClaims s r k) := .setFab h ..

theorem Keeps.setPciFn (h : Keeps o s) (f : Nat) (x : PciFn) : Keeps o (Machine.setPciFn s f x) := .other h

theorem Keeps.sampleIdents (h : Keeps o s) (r : Nat) : Keeps o (Machine.sampleIdents s r) :=
  .ite h (.forEach (fun _ _ h1 => (.setPciFn h1 ..)) (.drawn h ..) ..)

theorem Keeps.forgetFunc (h : Keeps o s) (f : Nat) : Keeps o (Machine.forgetFunc s f) := .setPciFn h ..

theorem Keeps.dropOwnership (h : Keeps o s) (r : Nat) : Keeps o (Machine.dropOwnership s r) :=
  .forEach (fun _ _ h1 => (.setFld (.setFld h1 ..) ..)) (.forEach (fun _ _ h1 => (.setFld (.setFld (.setFld h1 ..) ..) ..)) h ..) ..

theorem Keeps.takeOwnership (h : Keeps o s) (r f : Nat) : Keeps o (Machine.takeOwnership s r f) :=
  .forEach (fun _ _ h1 => (.forgetFunc h1 ..)) (.forEach (fun _ _ h1 => (.setFld (.setFld h1 ..) ..)) (.forEach (fun _ _ h1 => (.setFld
    (.setFld (.setFld h1 ..) ..) ..)) (.dropOwnership h ..) ..) ..) ..

theorem Keeps.regionEmpty (h : Keeps o s) (r : Nat) : Keeps o (Machine.regionEmpty s r) :=
  .setRegion (.dropOwnership (.setRegState (.forEach (fun _ _ h1 => (.forgetFunc h1 ..)) h ..) ..) ..) ..

theorem Keeps.planeMarks (h : Keeps o s) (r : Nat) : Keeps o (Machine.planeMarks s r) :=
  .ite (.setFld (.ite (.setFld (.setRegion h ..) ..) (.setRegion h ..)) ..) (.ite (.setFld (.setRegion h ..) ..) (.setRegion h ..))

theorem Keeps.setBm (h : Keeps o s) (r i : Nat) (x : Bm) : Keeps o (Machine.setBm s r i x) := .setFab h ..

theorem Keeps.releaseRefused (h : Keeps o s) (r src : Nat) : Keeps o (Machine.releaseRefused s r src) := .satInc (.raise h ..) ..

theorem Keeps.startAdmitted (h : Keeps o s) (r : Nat) : Keeps o (Machine.startAdmitted s r) :=
  .ite (.regionRestart h ..) (.ite (.setFld (.setFld h ..) ..) (.ite h (.setRegion h ..)))

/-! ### FabLogic -/

theorem Keeps.holdCuffsAs {t : State} (h'1 : Keeps o t) (s : State) (r : Nat) : Keeps o (Machine.holdCuffsAs s t r) :=
  .ite (.setRegion h'1 ..) h'1

theorem Keeps.holdCuffs (h : Keeps o s) (r : Nat) : Keeps o (Machine.holdCuffs s r) := .holdCuffsAs h ..

theorem Keeps.keepTracks {t : State} (h'1 : Keeps o t) (s : State) : Keeps o (Machine.keepTracks s t) := .setFab h'1 ..

theorem Keeps.setCtx (h : Keeps o s) (r k : Nat) : Keeps o (Machine.setCtx s r k) := .keepTracks (.setFld h ..) ..

theorem Keeps.writeFrame (h : Keeps o s) (kind r k tile v : Nat) : Keeps o (Machine.writeFrame s kind r k tile v) :=
  .keepTracks (.putFrame h ..) ..

theorem Keeps.emptyPlane (h : Keeps o s) (r k : Nat) : Keeps o (Machine.emptyPlane s r k) :=
  .planeMarks (.clearPriv (.keepTracks (.dropClaims (.setPlane (.zeroPlane h ..) ..) ..) ..) ..) ..

theorem Keeps.initPriv (h : Keeps o s) (r k : Nat) : Keeps o (Machine.initPriv s r k) :=
  .forEach (fun _ _ h1 => (.setRegion h1 ..)) (.clearPriv h ..) ..

theorem Keeps.initShared (h : Keeps o s) (r : Nat) : Keeps o (Machine.initShared s r) := .setRegion h ..

theorem Keeps.takeInit (h : Keeps o s) (r : Nat) : Keeps o (Machine.takeInit s r) :=
  .initShared (.forEach (fun _ _ h1 => (.initPriv h1 ..)) h ..) ..

theorem Keeps.captureRegion {t : State} (h'1 : Keeps o t) (s : State) (r : Nat) (ns : List Nat) : Keeps o (Machine.captureRegion s t r
    ns) :=
  .forEach (fun _ _ h1 => (.setRegion h1 ..)) h'1 ..

theorem Keeps.setMul (h : Keeps o s) (r i : Nat) (x : Mul) : Keeps o (Machine.setMul s r i x) := .setRegion h ..

theorem Keeps.mulEdges (h : Keeps o s) (d r : Nat) (ns : List Nat) : Keeps o (Machine.mulEdges s d r ns) :=
  .forEach (fun _ _ h1 => (.setMul h1 ..)) h ..

theorem Keeps.switchMuls (h : Keeps o s) (r k k' : Nat) : Keeps o (Machine.switchMuls s r k k') :=
  .forEach (fun _ _ h1 => (.setMul h1 ..)) h ..

theorem Keeps.bmEdges (h : Keeps o s) (d r : Nat) (ns : List Nat) : Keeps o (Machine.bmEdges s d r ns) :=
  .forEach (fun _ _ h1 => (.setBm h1 ..)) h ..

theorem Keeps.clearBlocks (h : Keeps o s) (r : Nat) : Keeps o (Machine.clearBlocks s r) := .setFab (.setRegion h ..) ..

theorem Keeps.releaseInit (h : Keeps o s) (r : Nat) : Keeps o (Machine.releaseInit s r) := .clearBlocks (.takeInit h ..) ..

theorem Keeps.releaseRequest (h : Keeps o s) (r : Nat) : Keeps o (Machine.releaseRequest s r) := .r8Request h ..

theorem Keeps.outputsEdge (h : Keeps o s) (r : Nat) (ns : List Nat) : Keeps o (Machine.outputsEdge s r ns) := .setRegion h ..

theorem Keeps.settle (h : Keeps o s) : Keeps o (Machine.settle s) := .forEach (fun _ _ h1 => (.captureRegion h1 ..)) h ..

theorem Keeps.clockEdge {s0 : State} (h : Keeps o s0) (l : List (Nat × List Nat)) : Keeps o (Machine.clockEdge s0 l) :=
  .other (.forEach (fun _ _ h1 => (.outputsEdge (.bmEdges (.mulEdges h1 ..) ..) ..)) (.forEach (fun _ _ h1 => (.captureRegion h1 ..))
    (.settle h ..) ..) ..)

theorem Keeps.clock0Edge (h : Keeps o s) (r : Nat) : Keeps o (Machine.clock0Edge s r) := .clockEdge h ..

theorem Keeps.pulseCount (h : Keeps o s) (r : Nat) : Keeps o (Machine.pulseCount s r) := .ite (.satInc (.other h) ..) h

theorem Keeps.tick (h : Keeps o s) : Keeps o (Machine.tick s) := by
  unfold Machine.tick
  dsimp only
  split
  exacts [h, (.forEach (fun _ _ h1 => (.pulseCount h1 ..)) (.clockEdge (.drawn h ..) ..) ..)]

/-! ### Operands -/

theorem Keeps.setEngine (h : Keeps o s) (n : Nat) (x : Engine) : Keeps o (Machine.setEngine s n x) := .other h

theorem Keeps.setThread (h : Keeps o s) (n t : Nat) (x : Thread) : Keeps o (Machine.setThread s n t x) := .setEngine h ..

theorem Keeps.setThrState (h : Keeps o s) (n t x : Nat) : Keeps o (Machine.setThrState s n t x) := .setFld h ..

theorem Keeps.setG (h : Keeps o s) (n t i : Nat) (v : Word) : Keeps o (Machine.setG s n t i v) := .setThread h ..

theorem Keeps.setA (h : Keeps o s) (n t i : Nat) (v : BitVec 72) : Keeps o (Machine.setA s n t i v) := .setThread h ..

theorem Keeps.setPair (h : Keeps o s) (n t i v : Nat) : Keeps o (Machine.setPair s n t i v) := .setG (.setG h ..) ..

theorem Keeps.setFlg (h : Keeps o s) (n t : Nat) (f : Flg) : Keeps o (Machine.setFlg s n t f) := .setThread h ..

theorem Keeps.setSpWord (h : Keeps o s) (n i v : Nat) : Keeps o (Machine.setSpWord s n i v) := .setEngine h ..

theorem Keeps.setSpPoison (h : Keeps o s) (n i : Nat) (b : Bool) : Keeps o (Machine.setSpPoison s n i b) := .setEngine h ..

theorem Keeps.spUncorr (h : Keeps o s) (n i : Nat) : Keeps o (Machine.spUncorr s n i) :=
  .satInc (.raise (.setSpPoison h ..) ..) ..

theorem Keeps.spCheck (h : Keeps o s) (n i ecc : Nat) : Keeps o (Machine.spCheck s n i ecc) :=
  .ite h (.ite (.satInc h ..) (.ite (.spUncorr h ..) h))

theorem Keeps.spStore (h : Keeps o s) (n a w mode v : Nat) : Keeps o (Machine.spStore s n a w mode v) :=
  .setSpWord (.ite (.setSpPoison h ..) h) ..

/-! ### EngineOps -/

theorem Keeps.setHalted (h : Keeps o s) (n t : Nat) (b : Bool) : Keeps o (Machine.setHalted s n t b) := .setFld h ..

theorem Keeps.setHaltPending (h : Keeps o s) (n t : Nat) (b : Bool) : Keeps o (Machine.setHaltPending s n t b) := .setFld h ..

theorem Keeps.haltOne (h : Keeps o s) (n t cause : Nat) : Keeps o (Machine.haltOne s n t cause) :=
  .raise (.setHaltPending (.setHalted (.setFld (.setThread h ..) ..) ..) ..) ..

theorem Keeps.haltRequest (h : Keeps o s) (n t : Nat) : Keeps o (Machine.haltRequest s n t) :=
  .ite h (.ite (.haltOne h ..) (.setHaltPending h ..))

theorem Keeps.halt (h : Keeps o s) (n t cause : Nat) : Keeps o (Machine.halt s n t cause) :=
  .ite (.forEach (fun _ _ h1 => (.haltRequest h1 ..)) (.haltOne h ..) ..) (.haltOne h ..)

theorem Keeps.watchAccess (h : Keeps o s) (n t a k : Nat) (store : Bool) : Keeps o (Machine.watchAccess s n t a k store) := by
  unfold Machine.watchAccess
  split
  exacts [h, (.setThread (.setFld (.setFld (.setFld h ..) ..) ..) ..)]

theorem Keeps.stopThread (h : Keeps o s) (n t : Nat) : Keeps o (Machine.stopThread s n t) :=
  .setThrState (.setHaltPending (.setHalted (.setThread h ..) ..) ..) ..

theorem Keeps.boundary (h : Keeps o s) (n t : Nat) : Keeps o (Machine.boundary s n t) :=
  .ite (.stopThread h ..) (.ite (.halt h ..) (.ite (.halt h ..) (.ite (.halt h ..) h)))

theorem Keeps.retireAt (h : Keeps o s) (n t pc : Nat) : Keeps o (Machine.retireAt s n t pc) := .boundary (.setThread h ..) ..

theorem Keeps.nextInstr (h : Keeps o s) (n t : Nat) : Keeps o (Machine.nextInstr s n t) := .retireAt h ..

theorem Keeps.faultThread (h : Keeps o s) (n t cause : Nat) : Keeps o (Machine.faultThread s n t cause) :=
  .raise (.setFld (.setFld (.setThrState (.setHaltPending (.setHalted (.setThread h ..) ..) ..) ..) ..) ..) ..

theorem Keeps.issue {k : State → State} (h : Keeps o s) (hk : ∀ s, Keeps o s → Keeps o (k s)) (n t w : Nat) : Keeps o (Machine.issue s n
    t w k) :=
  .ite (.ite (.halt h ..) (hk _ h)) h

theorem Keeps.writeRes (h : Keeps o s) (n t rd : Nat) (f : Bool) (r : Word) (fl : Flg) : Keeps o (Machine.writeRes s n t rd f r fl) :=
  .nextInstr (.ite (.setFlg (.setG h ..) ..) (.setG h ..)) ..

theorem Keeps.writeQ (h : Keeps o s) (n t rd : Nat) (f : Bool) (x : Word × Bool) : Keeps o (Machine.writeQ s n t rd f x) :=
  .writeRes (.ite (.setThread h ..) h) ..

theorem Keeps.setFifo (h : Keeps o s) (n k : Nat) (l : List Nat) : Keeps o (Machine.setFifo s n k l) := .setEngine h ..

theorem Keeps.latchTargets (h : Keeps o s) : Keeps o (Machine.latchTargets s) :=
  .forEach (fun _ _ h1 => (.ite h1 (.setThread h1 ..))) h ..

theorem Keeps.wakeThread (h : Keeps o s) (n t : Nat) : Keeps o (Machine.wakeThread s n t) :=
  .ite (.setThrState h ..) (.boundary (.setThrState h ..) ..)

theorem Keeps.wakeThreads (h : Keeps o s) (n : Nat) : Keeps o (Machine.wakeThreads s n) :=
  .forEach (fun _ _ h1 => (.ite (.wakeThread h1 ..) h1)) h ..

theorem Keeps.engRestart (h : Keeps o s) (n : Nat) : Keeps o (Machine.engRestart s n) :=
  .wakeThreads (.setEngine (.setFld h ..) ..) ..

theorem Keeps.engWake {s0 : State} (h : Keeps o s0) (n : Nat) (charged : Bool) : Keeps o (Machine.engWake s0 n charged) :=
  .ite (.wakeThreads (.setEngine (.entryWake h ..) ..) ..) (.ite (.ite (.setEngine (.wakeSource (.entryWake h ..) ..) ..) (.wakeSource
    (.entryWake h ..) ..)) (.ite (.wakeThreads (.entryWake h ..) ..) (.ite (.engRestart (.r8Charge (.r8Withdraw (.entryWake h ..) ..)
    ..) ..) (.r8Request (.entryWake h ..) ..))))

theorem Keeps.wakeMessage (h : Keeps o s) (n msg : Nat) : Keeps o (Machine.wakeMessage s n msg) :=
  .ite (.raise (.satInc h ..) ..) (.engWake (.setEngine h ..) ..)

theorem Keeps.pumpTtis (h : Keeps o s) (n k : Nat) : Keeps o (Machine.pumpTtis n k s) := by
  induction k generalizing s with
  | zero => exact h
  | succ k ih =>
    unfold Machine.pumpTtis
    split
    · exact h
    · exact .ite h (ih (.nextInstr (.handOver (h.setEngine ..) ..) ..))

theorem Keeps.engPump (h : Keeps o s) (n : Nat) : Keeps o (Machine.engPump s n) := .pumpTtis h ..

theorem Keeps.pumpAll (h : Keeps o s) : Keeps o (Machine.pumpAll s) := .forEach (fun _ _ h1 => (.engPump h1 ..)) h ..

theorem Keeps.presentTti (h : Keeps o s) (n t tag entry : Nat) : Keeps o (Machine.presentTti s n t tag entry) :=
  .ite (.nextInstr (.handOver h ..) ..) (.setThread (.setEngine h ..) ..)

theorem Keeps.endStream (h : Keeps o s) (n t st : Nat) (dest : Option (Nat × Nat)) : Keeps o (Machine.endStream s n t st dest) := by
  unfold Machine.endStream
  split
  exacts [(.nextInstr (.setFlg (.setThread h ..) ..) ..), (.nextInstr (.setPair (.setFlg (.setThread (.setThread h ..) ..) ..) ..) ..)]

theorem Keeps.takeWord (h : Keeps o s) (n t k rd : Nat) : Keeps o (Machine.takeWord s n t k rd) := by
  unfold Machine.takeWord
  split
  exacts [h, (.endStream (.setFifo h ..) ..)]

theorem Keeps.giveWord (h : Keeps o s) (n t k w : Nat) : Keeps o (Machine.giveWord s n t k w) :=
  .regionWake (.endStream (.setFifo h ..) ..) ..

theorem Keeps.failStream (h : Keeps o s) (n t st : Nat) : Keeps o (Machine.failStream s n t st) := by
  unfold Machine.failStream
  split
  exacts [(.endStream h ..), (.endStream h ..), h]

theorem Keeps.serveWaiter (h : Keeps o s) (n k : Nat) : Keeps o (Machine.serveWaiter s n k) := by
  unfold Machine.serveWaiter
  dsimp only
  split
  exacts [h, (by split; exacts [(.ite h (.takeWord (.ite h (.drawn h ..)) ..)), (.ite h (.giveWord (.ite h (.drawn h ..)) ..)), h])]

theorem Keeps.portsOff (h : Keeps o s) (n : Nat) : Keeps o (Machine.portsOff s n) :=
  .forEach (fun _ _ h1 => (.ite h1 (.forEach (fun _ _ h2 => (.failStream h2 ..)) h1 ..))) h ..

theorem Keeps.streamsOff (h : Keeps o s) (n : Nat) : Keeps o (Machine.streamsOff s n) := by
  unfold Machine.streamsOff
  dsimp only
  exact .ite (.forEach (fun _ _ h1 => (.failStream h1 ..)) h ..) (.raise (.satAdd (.forEach (fun _ _ h1 => (.setFifo h1 ..)) (.forEach
    (fun _ _ h1 => (.failStream h1 ..)) h ..) ..) ..) ..)

theorem Keeps.pushWin (h : Keeps o s) (n : Nat) (q : WinReq) : Keeps o (Machine.pushWin s n q) := .setEngine h ..

theorem Keeps.storeError (h : Keeps o s) (n : Nat) (q : WinReq) (st : Nat) : Keeps o (Machine.storeError s n q st) :=
  .ite (.raise h ..) (.setFld (.setFld (.setFld (.setFld (.raise h ..) ..) ..) ..) ..)

theorem Keeps.writeLoad (h : Keeps o s) (n t rd w : Nat) (sgn : Bool) (v : Nat) : Keeps o (Machine.writeLoad s n t rd w sgn v) :=
  .ite (.setPair h ..) (.setG h ..)

theorem Keeps.endWin (h : Keeps o s) (n : Nat) (q : WinReq) (st data : Nat) : Keeps o (Machine.endWin s n q st data) :=
  .ite (.ite (.nextInstr (.ite (.setEngine h ..) (.storeError (.setEngine h ..) ..)) ..) (.ite (.setEngine h ..) (.storeError
    (.setEngine h ..) ..))) (.nextInstr (.writeLoad (.setThread (.setEngine h ..) ..) ..) ..)

theorem Keeps.setNotify (h : Keeps o s) (n v : Nat) : Keeps o (Machine.setNotify s n v) :=
  .forEach (fun _ _ h1 => (.raise h1 ..)) (.setFld h ..) ..

theorem Keeps.engDrainEnd (h : Keeps o s) (n : Nat) : Keeps o (Machine.engDrainEnd s n) := .setFld (.setFld h ..) ..

/-! ### Engines -/

theorem Keeps.startThread (h : Keeps o s) (n t : Nat) : Keeps o (Machine.startThread s n t) :=
  .engWake (.setThrState (.setThread h ..) ..) ..

theorem Keeps.startWanted (h : Keeps o s) (n t : Nat) : Keeps o (Machine.startWanted s n t) := .ite (.startThread h ..) h

theorem Keeps.engEnable (h : Keeps o s) (n : Nat) : Keeps o (Machine.engEnable s n) :=
  .ite h (.forEach (fun _ _ h1 => (.startWanted h1 ..)) (.setFld h ..) ..)

theorem Keeps.stopUnwanted (h : Keeps o s) (n t : Nat) : Keeps o (Machine.stopUnwanted s n t) :=
  .ite h (.ite (.stopThread h ..) h)

theorem Keeps.engStart (h : Keeps o s) (n v : Nat) : Keeps o (Machine.engStart s n v) :=
  .forEach (fun _ _ h1 => (.startWanted h1 ..)) (.forEach (fun _ _ h1 => (.stopUnwanted h1 ..)) (.setFld h ..) ..) ..

theorem Keeps.cancelTti (h : Keeps o s) (n : Nat) (it : HeldTti) : Keeps o (Machine.cancelTti s n it) :=
  .nextInstr (.setTt h ..) ..

theorem Keeps.engDisable (h : Keeps o s) (n : Nat) : Keeps o (Machine.engDisable s n) :=
  .ite h (.ite (.engDrainEnd (.forEach (fun _ _ h1 => (.stopUnwanted h1 ..)) (.forEach (fun _ _ h1 => (.cancelTti h1 ..)) (.setEngine
    (.forEach (fun _ _ h1 => (.failStream h1 ..)) (.setFld h ..) ..) ..) ..) ..) ..) (.forEach (fun _ _ h1 => (.stopUnwanted h1 ..))
    (.forEach (fun _ _ h1 => (.cancelTti h1 ..)) (.setEngine (.forEach (fun _ _ h1 => (.failStream h1 ..)) (.setFld h ..) ..) ..) ..)
    ..))

theorem Keeps.threadWake (h : Keeps o s) (n t : Nat) : Keeps o (Machine.threadWake s n t) :=
  .ite h (.ite (.engWake h ..) (.wakeThread h ..))

theorem Keeps.engineGate (h : Keeps o s) (n : Nat) : Keeps o (Machine.engineGate s n) := .ite (.setEngine h ..) h

theorem Keeps.extWord (h : Keeps o s) (n i : Nat) (write coll engW : Bool) (be v ecc : Nat) : Keeps o (Machine.extWord s n i write coll
    engW be v ecc).2 :=
  .iteSnd h (.iteSnd (.iteSnd h (.iteSnd (.setSpWord (.ite (.setSpPoison h ..) h) ..) (.iteSnd (.satInc (.setSpWord (.ite (.setSpPoison
    h ..) h) ..) ..) (.setSpWord (.ite (.setSpPoison h ..) h) ..)))) (.iteSnd h (.spCheck h ..)))

theorem Keeps.extWords (h : Keeps o s) (n line : Nat) (write : Bool) (be data coll engW ecc eccWord : Nat) :
    Keeps o (Machine.extWords s n line write be data coll engW ecc eccWord).2 := by
  unfold Machine.extWords
  refine foldl_keeps Prod.snd (fun x j hx => ?_) ?_ _
  · exact hx.extWord ..
  · exact h

theorem Keeps.extAccess (h : Keeps o s) (n line : Nat) (write : Bool) (be data coll engW ecc eccWord : Nat) : Keeps o (Machine.extAccess
    s n line write be data coll engW ecc eccWord).2.2 :=
  .iteSnd2 h (.iteSnd2 h (.ite (.drawn (.ite (.satInc (.extWords h ..) ..) (.extWords h ..)) ..) (.ite (.satInc (.extWords h ..) ..)
    (.extWords h ..))))

theorem Keeps.streamTransfer (h : Keeps o s) (n k data : Nat) (last : Bool) : Keeps o (Machine.streamTransfer s n k data last) :=
  .ite h (.ite (.ite h (.serveWaiter (.setFifo h ..) ..)) (.ite h (.serveWaiter (.setFifo h ..) ..)))

theorem Keeps.recordWritten (h : Keeps o s) (k : Nat) : Keeps o (Machine.recordWritten s k) := by
  unfold Machine.recordWritten
  split
  exacts [h, (by split; exacts [(.regionWake (.pumpAll (.completionRecord h ..) ..) ..), (.pumpAll (.completionRecord h ..) ..)])]

theorem Keeps.illegalInstruction (h : Keeps o s) (n t : Nat) : Keeps o (Machine.illegalInstruction s n t) :=
  .ite (.faultThread h ..) h

theorem Keeps.fetchFault (h : Keeps o s) (n t ecc : Nat) : Keeps o (Machine.fetchFault s n t ecc) :=
  .ite h (.ite (.faultThread h ..) (.ite (.faultThread (.spCheck h ..) ..) (.spCheck h ..)))

theorem Keeps.engineReset (h : Keeps o s) (n : Nat) : Keeps o (Machine.engineReset s n) :=
  .ite (.engDrainEnd (.r8Withdraw (.resetOffsets (.setFld (.setFld (.setFld (.setFld (.setFld (.setTt (.orphanSources (.drawn
    (.setEngine h ..) ..) ..) ..) ..) ..) ..) ..) ..) ..) ..) ..) (.r8Withdraw (.resetOffsets (.setFld (.setFld (.setFld (.setFld
    (.setFld (.setTt (.orphanSources (.drawn (.setEngine h ..) ..) ..) ..) ..) ..) ..) ..) ..) ..) ..)

/-! ### Fabric -/

theorem Keeps.strobeInput (h : Keeps o s) (r k : Nat) : Keeps o (Machine.strobeInput s r k) :=
  .ite (.raiseMerged (.satInc h ..) ..) (.ite (.raiseMerged (.satInc h ..) ..) (.setRegion h ..))

theorem Keeps.strobeRegion (h : Keeps o s) (line r : Nat) : Keeps o (Machine.strobeRegion s line r) :=
  .ite (.regionWake (.forEach (fun _ _ h1 => (.strobeInput h1 ..)) h ..) ..) (.forEach (fun _ _ h1 => (.strobeInput h1 ..)) h ..)

theorem Keeps.strobeLine (h : Keeps o s) (line : Nat) : Keeps o (Machine.strobeLine s line) :=
  .forEach (fun _ _ h1 => (.strobeRegion h1 ..)) h ..

theorem Keeps.strobePresent (h : Keeps o s) (r k : Nat) : Keeps o (Machine.strobePresent s r k) := .ite (.setRegion h ..) h

theorem Keeps.regionSleep (h : Keeps o s) (r : Nat) : Keeps o (Machine.regionSleep s r) := .ite (.setRegion h ..) h

theorem Keeps.regionWakeWrite (h : Keeps o s) (r : Nat) : Keeps o (Machine.regionWakeWrite s r) :=
  .ite (.regionWake (.setFld h ..) ..) (.regionWake h ..)

theorem Keeps.fabDrainEnd (h : Keeps o s) : Keeps o (Machine.fabDrainEnd s) := .setFld (.setFld h ..) ..

theorem Keeps.fabDisable (h : Keeps o s) : Keeps o (Machine.fabDisable s) := .ite h (.ite (.fabDrainEnd h ..) (.setFld h ..))

theorem Keeps.bmCount (h : Keeps o s) (r i : Nat) (e : Bool × Bool) : Keeps o (Machine.bmCount s r i e) :=
  .ite (.raise (.satInc h ..) ..) (.ite (.satInc h ..) h)

theorem Keeps.bmAccess (h : Keeps o s) (r i : Nat) (a0 b0 : BmOp) (coll : Bool) (upset : Nat) : Keeps o (Machine.bmAccess s r i a0 b0
    coll upset) :=
  .ite h (.bmCount (.bmCount (.setBm (.ite (.drawn h ..) h) ..) ..) ..)

theorem Keeps.queueErr (h : Keeps o s) (r i n : Nat) : Keeps o (Machine.queueErr s r i n) := .satInc (.setBm h ..) ..

theorem Keeps.queuePop (h : Keeps o s) (r i : Nat) : Keeps o (Machine.queuePop s r i) :=
  .ite h (by split; exacts [(.queueErr h ..), (.setBm h ..)])

theorem Keeps.queuePush (h : Keeps o s) (r i v : Nat) (pop : Bool) : Keeps o (Machine.queuePush s r i v pop) :=
  .ite h (.ite (.queueErr (.ite (.queuePop h ..) h) ..) (.setBm (.drawn (.ite (.queuePop h ..) h) ..) ..))

theorem Keeps.claimUncorr (h : Keeps o s) (k w : Nat) : Keeps o (Machine.claimUncorr s k w) :=
  .satInc (.raise (.keepTracks (.setFab h ..) ..) ..) ..

/-! ### Contexts -/

theorem Keeps.dropStrobes (h : Keeps o s) (r : Nat) : Keeps o (Machine.dropStrobes s r) :=
  .forEach (fun _ _ h1 => (.raiseMerged (.satInc h1 ..) ..)) (.setRegion h ..) ..

theorem Keeps.switchQueues (h : Keeps o s) (r k k' : Nat) : Keeps o (Machine.switchQueues s r k k') :=
  .forEach (fun _ _ h1 => (.ite h1 (.setBm h1 ..))) h ..

theorem Keeps.takeSwitch (h : Keeps o s) (r : Nat) : Keeps o (Machine.takeSwitch s r) := by
  unfold Machine.takeSwitch
  split
  exacts [h, (.satInc (.setFld (.setCtx (.switchMuls (.switchQueues (.setRegion h ..) ..) ..) ..) ..) ..)]

theorem Keeps.closeRegion {s0 : State} (h : Keeps o s0) (r : Nat) : Keeps o (Machine.closeRegion s0 r) :=
  .r8Withdraw (.setFld (.setFld (.setFld (.setFld (.setFld (.setRegion (.dropStrobes (.holdCuffs (.forEach (fun _ _ h1 => (.takeSwitch
    h1 ..)) h ..) ..) ..) ..) ..) ..) ..) ..) ..) ..

theorem Keeps.stopEffect (h : Keeps o s) (r : Nat) : Keeps o (Machine.stopEffect s r) :=
  .forEach (fun _ _ h1 => (.streamsOff h1 ..)) (.ite (.setFld (.setFld (.closeRegion h ..) ..) ..) (.setRegState (.setFld (.closeRegion
    h ..) ..) ..)) ..

theorem Keeps.regionStop (h : Keeps o s) (r : Nat) : Keeps o (Machine.regionStop s r) :=
  .ite h (.ite (.stopEffect h ..) (.setFld h ..))

theorem Keeps.stopEdge (h : Keeps o s) (r : Nat) : Keeps o (Machine.stopEdge s r) :=
  .ite h (.ite (.ite (.stopEffect h ..) h) (.ite (.stopEffect (.clock0Edge h ..) ..) h))

theorem Keeps.regionStart (h : Keeps o s) (r : Nat) : Keeps o (Machine.regionStart s r) :=
  .ite h (.ite (.releaseRefused h ..) (.ite (.releaseRequest (.releaseInit h ..) ..) (.releaseRequest h ..)))

theorem Keeps.releaseEdge (h : Keeps o s) (r : Nat) : Keeps o (Machine.releaseEdge s r) :=
  .ite (.clock0Edge (.setRegion (.ite (.sampleIdents h ..) (.setRegState (.sampleIdents h ..) ..)) ..) ..) h

theorem Keeps.pointsPend (h : Keeps o s) (r src ctx : Nat) : Keeps o (Machine.pointsPend s r src ctx) :=
  .ite (.setRegion h ..) (.raiseMerged (.satInc (.setRegion h ..) ..) ..)

theorem Keeps.pointsWrite (h : Keeps o s) (m : Master) (r ctx : Nat) : Keeps o (Machine.pointsWrite s m r ctx) :=
  .regionWake (.pointsPend h ..) ..

theorem Keeps.ptsReq (h : Keeps o s) (r ctx : Nat) : Keeps o (Machine.ptsReq s r ctx) := .ite (.pointsPend h ..) h

theorem Keeps.pointsEntry (h : Keeps o s) (r ctx : Nat) : Keeps o (Machine.pointsEntry s r ctx) :=
  .regionWake (.pointsPend h ..) ..

theorem Keeps.pointsRefuse {s0 : State} (h : Keeps o s0) (r src ctx reason : Nat) : Keeps o (Machine.pointsRefuse s0 r src ctx reason)
    :=
  .ite (.raise (.satInc (.satInc (.ite (.setRegion h ..) h) ..) ..) ..) (.setFld (.setFld (.setFld (.setFld (.raise (.satInc (.satInc
    (.ite (.setRegion h ..) h) ..) ..) ..) ..) ..) ..) ..)

theorem Keeps.pointsDecide (h : Keeps o s) (r src ctx : Nat) : Keeps o (Machine.pointsDecide s r src ctx) :=
  .ite (.pointsRefuse h ..) (.ite (.pointsRefuse h ..) (.ite (.pointsRefuse h ..) (.ite (.pointsRefuse h ..) (.ite h (.ite (.setFld
    (.setFld (.setRegion h ..) ..) ..) (.setCtx h ..))))))

theorem Keeps.pointsSample (h : Keeps o s) (r : Nat) : Keeps o (Machine.pointsSample s r) :=
  .ite h (by split; exacts [h, (.pointsDecide (.setRegion h ..) ..)])

theorem Keeps.switchInstant (h : Keeps o s) (r : Nat) : Keeps o (Machine.switchInstant s r) :=
  .ite h (.takeSwitch (.clock0Edge h ..) ..)

theorem Keeps.planeClear (h : Keeps o s) (r v : Nat) : Keeps o (Machine.planeClear s r v) := .setRegion h ..

theorem Keeps.emptiedRegion (h : Keeps o s) (r : Nat) : Keeps o (Machine.emptiedRegion s r) :=
  .ite (.regionEmpty (.r8Withdraw (.setRegion h ..) ..) ..) h

theorem Keeps.planeClearDone (h : Keeps o s) (r k : Nat) : Keeps o (Machine.planeClearDone s r k) :=
  .ite (.emptiedRegion (.emptyPlane (.setRegion h ..) ..) ..) h

theorem Keeps.passEnds (h : Keeps o s) (d ms : Nat) : Keeps o (Machine.passEnds s d ms) :=
  .ite h (.ite (.raise (.setFld (.setFab h ..) ..) ..) (.setFld (.setFab h ..) ..))

theorem Keeps.cfgUncorr (h : Keeps o s) (r k kind tile word : Nat) : Keeps o (Machine.cfgUncorr s r k kind tile word) :=
  .ite (.regionStop (.ite (.planeMarks (.setPlane (.setFab (.raise (.satInc h ..) ..) ..) ..) ..) (.setFab (.raise (.satInc h ..) ..)
    ..)) ..) (.ite (.planeMarks (.setPlane (.setFab (.raise (.satInc h ..) ..) ..) ..) ..) (.setFab (.raise (.satInc h ..) ..) ..))

theorem Keeps.scrubWord (h : Keeps o s) (r k kind tile word err ms : Nat) : Keeps o (Machine.scrubWord s r k kind tile word err ms) :=
  .ite h (.passEnds (by split; exacts [h, (.raiseMerged (.satInc h ..) ..), (.cfgUncorr h ..)]) ..)

theorem Keeps.ctxDrainEnd (h : Keeps o s) : Keeps o (Machine.ctxDrainEnd s) := .setFld (.setFld h ..) ..

theorem Keeps.refuseAll (h : Keeps o s) : Keeps o (Machine.refuseAll s) :=
  .forEach (fun _ _ h1 => (.forEach (fun _ _ h2 => (.pointsRefuse (.setRegion h2 ..) ..)) h1 ..)) h ..

theorem Keeps.ctxDisable (h : Keeps o s) : Keeps o (Machine.ctxDisable s) :=
  .ite h (.ite (.ctxDrainEnd (.refuseAll h ..) ..) (.setFld (.refuseAll h ..) ..))

/-! ### Slot -/

theorem Keeps.reportLost (h : Keeps o s) (a rev b : Nat) (gone : List Slot) : Keeps o (Machine.reportLost s a rev b gone) :=
  .ite h (.raise (.satAdd h ..) ..)

theorem Keeps.moveFront (h : Keeps o s) (a rev b : Nat) : Keeps o (Machine.moveFront s a rev b) :=
  .setFld (.setFld (.setFld h ..) ..) ..

theorem Keeps.takeBucket (h : Keeps o s) (a rev b : Nat) : Keeps o (Machine.takeBucket s a rev b) :=
  .ite (.moveFront (.setDsp (.reportLost (.setTt h ..) ..) ..) ..) (.ttRelease (.setFld (.moveFront (.setDsp (.reportLost (.setTt h ..)
    ..) ..) ..) ..) ..)

theorem Keeps.walkAxis (h : Keeps o s) (a n : Nat) : Keeps o (Machine.walkAxis s a n) := by
  induction n generalizing s with
  | zero => exact h
  | succ n ih => exact .ite (ih (h.takeBucket ..)) h

theorem Keeps.walkAll (h : Keeps o s) : Keeps o (Machine.walkAll s) := .forEach (fun _ _ h1 => (.walkAxis h1 ..)) h ..

theorem Keeps.openGroup (h : Keeps o s) (x : Taken) (t own : Nat) : Keeps o (Machine.openGroup s x t own).1 := by
  unfold Machine.openGroup
  split
  exacts [h, (.iteFst (.failGroup (.putGroup (.setDsp h ..) ..) ..) (.setDsp h ..))]

theorem Keeps.groupMemberFails (h : Keeps o s) (x : Taken) (t st reason : Nat) : Keeps o (Machine.groupMemberFails s x t st reason) :=
    by
  unfold Machine.groupMemberFails
  dsimp only
  split
  exacts [(.openGroup (.outcome h ..) ..), (.ite (.failGroup (.putGroup (.openGroup (.outcome h ..) ..) ..) ..) (.openGroup (.outcome h
    ..) ..))]

theorem Keeps.groupStray (h : Keeps o s) (g : Grp) (m : Memb) : Keeps o (Machine.groupStray s g m) :=
  .ite (.chargeFallback (.fallbackTo (.outcome h ..) ..) ..) (.outcome h ..)

theorem Keeps.groupJoin (h : Keeps o s) (g : Grp) (x : Taken) (t : Nat) : Keeps o (Machine.groupJoin s g x t) :=
  .ite (.groupStray h ..) (.ite (.outcome h ..) (.ite (.failGroup (.outcome (.putGroup h ..) ..) ..) (.ite (.failGroup (.putGroup h ..)
    ..) (.putGroup h ..))))

theorem Keeps.groupAdd (h : Keeps o s) (x : Taken) (t : Nat) : Keeps o (Machine.groupAdd s x t) := by
  have hopen : Keeps o (Machine.openGroup s x t 0).1 := h.openGroup ..
  unfold Machine.groupAdd
  split
  next heq =>
    rw [heq] at hopen
    exact hopen.groupJoin ..
  next heq =>
    rw [heq] at hopen
    exact hopen

theorem Keeps.dspTrap (h : Keeps o s) (e : Nat) : Keeps o (Machine.dspTrap s e) :=
  .ite (.satInc (.raise h ..) ..) (.setFld (.setFld (.raise h ..) ..) ..)

theorem Keeps.offer (h : Keeps o s) (x : Taken) (t : Nat) (late : Bool) : Keeps o (Machine.offer s x t late) :=
  .ite (.setDsp h ..) (.setDsp h ..)

theorem Keeps.requeue (h : Keeps o s) (x : Taken) : Keeps o (Machine.requeue s x) :=
  .ite (.setDsp h ..) (.handOver (.outcome h ..) ..)

theorem Keeps.lateEntry (h : Keeps o s) (x : Taken) (t : Nat) : Keeps o (Machine.lateEntry s x t) := by
  unfold Machine.lateEntry
  split
  exacts [(.outcome h ..), (.offer h ..), (.requeue h ..), (.dspTrap (.outcome h ..) ..)]

theorem Keeps.classify (h : Keeps o s) (x : Taken) (t : Nat) : Keeps o (Machine.classify s x t) :=
  .ite (.outcome h ..) (.ite (.outcome h ..) (.ite (.ite (.lateEntry h ..) (.offer h ..)) (.ite (.outcome h ..) (.ite (.ite
    (.groupMemberFails h ..) (.outcome h ..)) (.ite (.ite (.groupMemberFails h ..) (.outcome h ..)) (.ite (.groupAdd h ..) (.ite
    (.lateEntry h ..) (.offer h ..))))))))

theorem Keeps.lateQueueOff (h : Keeps o s) : Keeps o (Machine.lateQueueOff s) := .ite (.outcomes (.setDsp h ..) ..) h

theorem Keeps.classifyDue (h : Keeps o s) : Keeps o (Machine.classifyDue s) :=
  .forEach (fun _ _ h1 => (.classify h1 ..)) (.setDsp (.lateQueueOff h ..) ..) ..

theorem Keeps.actInternal (h : Keeps o s) (e t : Nat) : Keeps o (Machine.actInternal s e t) :=
  .ite (.pointsEntry h ..) (.ite (.wakeMessage h ..) (.ite (.strobeLine h ..) (.raise h ..)))

theorem Keeps.fireInternal (h : Keeps o s) (c : Cand) : Keeps o (Machine.fireInternal s c) := .outcome (.actInternal h ..) ..

theorem Keeps.missedInternals (h : Keeps o s) : Keeps o (Machine.missedInternals s) :=
  .forEach (fun _ _ h1 => (.lateEntry h1 ..)) (.setDsp h ..) ..

theorem Keeps.actInternals (h : Keeps o s) : Keeps o (Machine.actInternals s) :=
  .forEach (fun _ _ h1 => (.fireInternal h1 ..)) (.satAdd (.setDsp h ..) ..) ..

theorem Keeps.overrun (h : Keeps o s) (r : Nat) : Keeps o (Machine.overrun s r) := .raiseMerged (.satInc h ..) ..

theorem Keeps.rationDiscard (h : Keeps o s) (r : Nat) : Keeps o (Machine.rationDiscard s r) :=
  .outcome (.raiseMerged (.satInc h ..) ..) ..

theorem Keeps.deferCand (h : Keeps o s) (c : Cand) : Keeps o (Machine.deferCand s c) := .setDsp (.ite (.satInc h ..) h) ..

theorem Keeps.decideCand {x : State × List Cand} (h : Keeps o x.1) (c : Cand) : Keeps o (Machine.decideCand x c).1 :=
  .iteFst (.charge h ..) (.iteFst (.deferCand h ..) (.iteFst (.overrun (.charge h ..) ..) (.rationDiscard h ..)))

theorem Keeps.rationLoop {x : State × List Cand} (h : Keeps o x.1) (lim n : Nat) : Keeps o (Machine.rationLoop lim n x).1 := by
  induction n generalizing x with
  | zero => exact h
  | succ n ih =>
    unfold Machine.rationLoop
    dsimp only
    refine .iteFst h (ih (foldl_keeps Prod.fst (fun x c hx => ?_) ?_ _))
    · exact hx.decideCand c
    · exact h.setDsp _

theorem Keeps.addUnsent (h : Keeps o s) (l : List Cons) : Keeps o (Machine.addUnsent s l) := .setDsp h ..

theorem Keeps.ration (h : Keeps o s) : Keeps o (Machine.ration s) := .addUnsent (.rationLoop (x := (s, [])) h ..) _

theorem Keeps.sendCons (h : Keeps o s) (c : Cons) : Keeps o (Machine.sendCons s c) :=
  .ite (.expireItem (.setDsp h ..) ..) (.ite (.emitItem (.setDsp h ..) ..) h)

theorem Keeps.sendUnsent (h : Keeps o s) : Keeps o (Machine.sendUnsent s) := .forEach (fun _ _ h1 => (.sendCons h1 ..)) h ..

theorem Keeps.passOutst (h : Keeps o s) (p : Nat) : Keeps o (Machine.passOutst s p) :=
  .ite (.ite h (.setPort h ..)) (.satAdd (.raiseMerged (.ite h (.setPort h ..)) ..) ..)

theorem Keeps.admitMembs (h : Keeps o s) (d : Nat) (res : Bool) (l : List Memb) :
    ∀ u, Machine.admitMembs d res l s = some u → Keeps o u := by
  induction l generalizing s with
  | nil =>
    intro u hu
    cases hu
    exact h
  | cons m l ih =>
    intro u
    unfold Machine.admitMembs
    dsimp only
    split
    · exact ih (h.charge ..) u
    · split
      · exact ih (.overrun (h.charge ..) ..) u
      · exact nofun

theorem Keeps.groupFits (h : Keeps o s) (g : Grp) (n d : Nat) : ∀ x, Machine.groupFits s g n d = some x → Keeps o x.2 := by
  induction n generalizing d with
  | zero =>
    intro x hx
    cases hx
  | succ n ih =>
    intro x
    unfold Machine.groupFits
    split
    next heq =>
      intro hx
      cases hx
      have hadm := h.admitMembs _ _ _ _ heq
      exact hadm
    next => exact ih _ x

theorem Keeps.stageGroup (h : Keeps o s) (g : Grp) (d : Nat) : Keeps o (Machine.stageGroup s g d) :=
  .addUnsent (.putGroup (.ite h (.forEach (fun _ _ h1 => (.satInc h1 ..)) h ..)) ..) ..

theorem Keeps.judgeGroup (h : Keeps o s) (g : Grp) : Keeps o (Machine.judgeGroup s g) := by
  unfold Machine.judgeGroup
  extract_lets sl
  split
  next heq => exact .stageGroup (h.groupFits _ _ _ _ heq) ..
  next => exact .failGroup (.forEach (fun _ _ h1 => h1.raiseMerged ..) h _) ..

theorem Keeps.advanceGroup (h : Keeps o s) (g : Grp) : Keeps o (Machine.advanceGroup s g) :=
  .ite h (.ite h (.ite (.judgeGroup (.putGroup h ..) ..) (.putGroup h ..)))

theorem Keeps.pruneGroups (h : Keeps o s) : Keeps o (Machine.pruneGroups s) := .setDsp h ..

theorem Keeps.advanceGroups (h : Keeps o s) : Keeps o (Machine.advanceGroups s) :=
  .forEach (fun _ _ h1 => (by split; exacts [(.advanceGroup h1 ..), h1])) h ..

theorem Keeps.groupCommitPoint (h : Keeps o s) (a rev group : Nat) : Keeps o (Machine.groupCommitPoint s a rev group) := by
  unfold Machine.groupCommitPoint
  split
  exacts [h, (.ite h (.ite (.failGroup h ..) (.failGroup h ..)))]

theorem Keeps.dispatch (h : Keeps o s) : Keeps o (Machine.dispatch s) :=
  .pruneGroups (.pruneLedger (.forEach (fun _ _ h1 => (.drainPort (.passOutst h1 ..) ..)) (.sendUnsent (.ration (.advanceGroups
    (.actInternals (.missedInternals (.classifyDue (.ite (.walkAll h ..) h) ..) ..) ..) ..) ..) ..) ..) ..) ..

theorem Keeps.dispatchSlot (h : Keeps o s) : Keeps o (Machine.dispatchSlot s) :=
  .ite h (.ite (.latchTargets (.setFld (.forEach (fun _ _ h1 => (.interpolate h1 ..)) h ..) ..) ..) (.dispatch (.latchTargets (.setFld
    (.forEach (fun _ _ h1 => (.interpolate h1 ..)) h ..) ..) ..) ..))

theorem Keeps.bstopReq (h : Keeps o s) : Keeps o (Machine.bstopReq s) := .bstopTrigger (.setFld h ..) ..

theorem Keeps.bstopTimeout (h : Keeps o s) : Keeps o (Machine.bstopTimeout s) := .ite (.setFld h ..) h

theorem Keeps.bstopClear (h : Keeps o s) : Keeps o (Machine.bstopClear s) :=
  .ite h (.sendWhere (.setDsp (.setFld (.setFld (.setFld (.raise h ..) ..) ..) ..) ..) ..)

theorem Keeps.bstopRepeat (h : Keeps o s) : Keeps o (Machine.bstopRepeat s) := .ite h (.sendWhere h ..)

theorem Keeps.dspDrainEnd (h : Keeps o s) : Keeps o (Machine.dspDrainEnd s) := .setFld (.setFld h ..) ..

theorem Keeps.dspDisable (h : Keeps o s) : Keeps o (Machine.dspDisable s) :=
  .ite h (.ite (.dspDrainEnd (.forEach (fun _ _ h1 => (.failGroup h1 ..)) (.outcomes (.setDsp h ..) ..) ..) ..) (.setFld (.forEach (fun
    _ _ h1 => (.failGroup h1 ..)) (.outcomes (.setDsp h ..) ..) ..) ..))

theorem Keeps.resetStops (h : Keeps o s) : Keeps o (Machine.resetStops s) := .ite (.sendWhere (.pendVec (.raise h ..) ..) ..) h

theorem Keeps.dspReset {s0 : State} (h : Keeps o s0) : Keeps o (Machine.dspReset s0) :=
  .r8Waiting (.resetBlockRegs (.setDsp (.emptyJournals (.resetStops h ..) ..) ..) ..) ..

/-! ### CacheOps -/

theorem Keeps.setCache (h : Keeps o s) (x : Cache) : Keeps o (Machine.setCache s x) := .other h

theorem Keeps.setHwn (h : Keeps o s) (x : HostWin) : Keeps o (Machine.setHwn s x) := .other h

theorem Keeps.setSeal (h : Keeps o s) (x : Sealing) : Keeps o (Machine.setSeal s x) := .other h

theorem Keeps.postHost (h : Keeps o s) (addr len data : Nat) : Keeps o (Machine.postHost s addr len data) := .other h

theorem Keeps.postSealed (h : Keeps o s) (key l ctr data : Nat) : Keeps o (Machine.postSealed s key l ctr data) :=
  .postHost (.postHost h ..) ..

theorem Keeps.setOwner (h : Keeps o s) (k v : Nat) : Keeps o (Machine.setOwner s k v) :=
  h.of_mem (setOwner_wf · k v) rfl rfl rfl rfl

theorem Keeps.setOwnerBit (h : Keeps o s) (k b : Nat) (on : Bool) : Keeps o (Machine.setOwnerBit s k b on) := .setOwner h ..

theorem Keeps.putWay (h : Keeps o s) (k : Nat) (w : Way) : Keeps o (Machine.putWay s k w) := .setCache h ..

theorem Keeps.invalidate (h : Keeps o s) (k : Nat) : Keeps o (Machine.invalidate s k) :=
  .setCache (.setPoison (.setOwner h ..) ..) ..

theorem Keeps.setSlotData (h : Keeps o s) (k v : Nat) : Keeps o (Machine.setSlotData s k v) := .setLineBytes h ..

theorem Keeps.writeBack (h : Keeps o s) (k : Nat) : Keeps o (Machine.writeBack s k) :=
  .ite h (.ite (.ite (.setOwnerBit (.putWay (.postSealed (.satInc (.setOwnerBit h ..) ..) ..) ..) ..) (.putWay (.postSealed (.satInc
    (.setOwnerBit h ..) ..) ..) ..)) (.postHost (.satInc (.setOwnerBit h ..) ..) ..))

theorem Keeps.flushWays (h : Keeps o s) (c : Nat → Bool) : Keeps o (Machine.flushWays s c) :=
  .forEach (fun _ _ h1 => (.invalidate (.writeBack h1 ..) ..)) h ..

theorem Keeps.dropWays (h : Keeps o s) (c : Nat → Bool) : Keeps o (Machine.dropWays s c) :=
  .forEach (fun _ _ h1 => (.invalidate h1 ..)) h ..

theorem Keeps.touch (h : Keeps o s) (k : Nat) : Keeps o (Machine.touch s k) := .setCache h ..

theorem Keeps.vacate (h : Keeps o s) (k : Nat) : Keeps o (Machine.vacate s k) := .ite (.invalidate (.writeBack h ..) ..) h

theorem Keeps.install (h : Keeps o s) (k l ctr data st : Nat) : Keeps o (Machine.install s k l ctr data st) :=
  .touch (.setOwner (.setPoison (.setSlotData (.putWay h ..) ..) ..) ..) ..

theorem Keeps.evictPoison (h : Keeps o s) (set : Nat) : Keeps o (Machine.evictPoison s set) :=
  .ite h (by split; exacts [(.satInc (.raise (.invalidate h ..) ..) ..), h])

theorem Keeps.cacheLineError (h : Keeps o s) (k : Nat) : Keeps o (Machine.cacheLineError s k) :=
  .ite h (.ite (.invalidate h ..) (.evictPoison (.satInc (.raise (.putWay (.setCache (.setPoison h ..) ..) ..) ..) ..) ..))

theorem Keeps.dbgEnd (h : Keeps o s) (st data : Nat) : Keeps o (Machine.dbgEnd s st data) := .ite (.other h) h

theorem Keeps.accDone (h : Keeps o s) (a : WinAcc) (st data : Nat) : Keeps o (Machine.accDone s a st data) := by
  unfold Machine.accDone
  split
  exacts [(.ite (.endWin h ..) h), (.setFld (.setFld h ..) ..), (.dbgEnd h ..), h]

theorem Keeps.writeWay (h : Keeps o s) (k : Nat) (a : WinAcc) : Keeps o (Machine.writeWay s k a).2 :=
  .iteSnd (.satInc (.raise h ..) ..) (.iteSnd (.setOwnerBit (.setOwnerBit (.setPoison (.setSlotData h ..) ..) ..) ..) (.iteSnd h
    (.iteSnd h (.setOwnerBit (.setLineBytes h ..) ..))))

theorem Keeps.serveWay (h : Keeps o s) (k : Nat) (a : WinAcc) : Keeps o (Machine.serveWay s k a) :=
  .ite (.accDone (.writeWay (.touch h ..) ..) ..) (.accDone (.touch h ..) ..)

theorem Keeps.missLine (h : Keeps o s) (a : WinAcc) : Keeps o (Machine.missLine s a) :=
  .ite (.accDone h ..)
    (by split; exacts [h, (.ite (.accDone (.install (.ite (.drawn (.vacate h ..) ..) (.vacate h ..)) ..) ..) (.ite h (.satInc (.setCache (.vacate h ..) ..) ..)))])

theorem Keeps.joinFill (h : Keeps o s) (a : WinAcc) : Keeps o (Machine.joinFill s a) := .setCache h ..

theorem Keeps.wayCheck (h : Keeps o s) (k ecc : Nat) : Keeps o (Machine.wayCheck s k ecc) :=
  .ite (.countCorr h ..) (.ite (.cacheLineError h ..) h)

theorem Keeps.wayInternal (h : Keeps o s) (k : Nat) (a : WinAcc) : Keeps o (Machine.wayInternal s k a) :=
  .ite (.serveWay h ..) (.accDone (.satInc (.raise h ..) ..) ..)

theorem Keeps.cacheAccess (h : Keeps o s) (a : WinAcc) (ecc : Nat) : Keeps o (Machine.cacheAccess s a ecc) :=
  .ite (.accDone h ..) (.ite (.ite (.setCache h ..) h) (.ite (.joinFill h ..) (.ite (.accDone h ..) (.ite (.accDone h ..)
    (by split; exacts [(.missLine h ..), (.ite (.missLine (.ite h (.wayCheck h ..)) ..) (.satInc (.ite (.wayInternal (.ite h (.wayCheck h ..)) ..) (.serveWay (.ite h (.wayCheck h ..)) ..)) ..))])))))

theorem Keeps.fillServe (h : Keeps o s) (k : Nat) (l : List WinAcc) : Keeps o (Machine.fillServe s k l) :=
  .forEach (fun _ _ h1 => (.ite (.serveWay h1 ..) (.accDone h1 ..))) h ..

theorem Keeps.fillFail (h : Keeps o s) (f : Fill) (st : Nat) : Keeps o (Machine.fillFail s f st) :=
  .forEach (fun _ _ h1 => (.accDone h1 ..)) (.setCache h ..) ..

theorem Keeps.tagFailed (h : Keeps o s) (l : Nat) : Keeps o (Machine.tagFailed s l) := .satInc (.raise h ..) ..

theorem Keeps.fillDone (h : Keeps o s) (f : Fill) (data ctr tag : Nat) : Keeps o (Machine.fillDone s f data ctr tag) :=
  .ite (.fillServe (.install (.setCache h ..) ..) ..) (.ite (.fillServe (.install (.setCache h ..) ..) ..) (.fillServe (.setPoison
    (.install (.tagFailed (.setCache h ..) ..) ..) ..) ..))

theorem Keeps.resetWindow (h : Keeps o s) : Keeps o (Machine.resetWindow s) :=
  .forEach (fun _ _ h1 => (.forEach (fun _ _ h2 => (.endWin h2 ..)) h1 ..))
    (by split; exacts [(.accDone (.setCache (.forEach (fun _ _ h1 => (.fillFail h1 ..)) h ..) ..) ..), (.forEach (fun _ _ h1 => (.fillFail h1 ..)) h ..)])
    ..

theorem Keeps.inflightReset (h : Keeps o s) (c : Nat → Bool) : Keeps o (Machine.inflightReset s c) := by
  unfold Machine.inflightReset
  dsimp only
  exact .ite (.dbgEnd (.forEach (fun _ _ h1 => (.forEach (fun _ _ h2 => (.endWin h2 ..)) h1 ..)) h ..) ..) (.forEach (fun _ _ h1 =>
    (.forEach (fun _ _ h2 => (.endWin h2 ..)) h1 ..)) h ..)

theorem Keeps.drawKey (h : Keeps o s) : Keeps o (Machine.drawKey s) := .satInc (.raise (.setSeal (.drawn h ..) ..) ..) ..

theorem Keeps.dropRekey (h : Keeps o s) : Keeps o (Machine.dropRekey s) := .setFld (.setFld (.setFld h ..) ..) ..

/-! ### Iob -/

theorem Keeps.setIob (h : Keeps o s) (x : Iob) : Keeps o (Machine.setIob s x) := .other h

theorem Keeps.setPad (h : Keeps o s) (b n : Nat) (x : PadSet) : Keeps o (Machine.setPad s b n x) := .setIob h ..

theorem Keeps.padFail (h : Keeps o s) (b n : Nat) : Keeps o (Machine.padFail s b n) :=
  .ite (.setFld (.raise (.setPad h ..) ..) ..) (.raise (.setPad h ..) ..)

theorem Keeps.samplePad (h : Keeps o s) (x : PadIn) : Keeps o (Machine.samplePad s x) := .setPad h ..

theorem Keeps.judgePad (h : Keeps o s) (x : PadIn) : Keeps o (Machine.judgePad s x) := .ite (.padFail h ..) h

theorem Keeps.samplePads (h : Keeps o s) (r : Nat) (l : List PadIn) : Keeps o (Machine.samplePads s r l) :=
  .forEach (fun _ _ h1 => (.judgePad h1 ..)) (.forEach (fun _ _ h1 => (.samplePad h1 ..)) (.forEach (fun _ _ h1 => (.setFld h1 ..)) h
    ..) ..) ..

theorem Keeps.releaseWith (h : Keeps o s) (r : Nat) (l : List PadIn) : Keeps o (Machine.releaseWith s r l) :=
  .ite (.samplePads (.releaseEdge h ..) ..) (.releaseEdge h ..)

theorem Keeps.bankLock (h : Keeps o s) (b khz : Nat) : Keeps o (Machine.bankLock s b khz) := by
  unfold Machine.bankLock
  split
  exacts [h, (.ite h (.forEach (fun _ _ h1 => (.padFail h1 ..)) (.setFld h ..) ..))]

theorem Keeps.bitslip (h : Keeps o s) (b n : Nat) : Keeps o (Machine.bitslip s b n) := by
  unfold Machine.bitslip
  split
  exacts [h, (.ite (.setPad h ..) h)]

theorem Keeps.judgeVio (h : Keeps o s) (b mv : Nat) : Keeps o (Machine.judgeVio s b mv) :=
  .ite (.ite (.setFld (.raise (.setFld (.setIob h ..) ..) ..) ..) (.setFld (.setIob h ..) ..)) (.ite (.setFld (.raise (.drawn (.setFld
    (.setIob h ..) ..) ..) ..) ..) (.setFld (.setIob h ..) ..))

theorem Keeps.iobReset (h : Keeps o s) : Keeps o (Machine.iobReset s) :=
  .setIob (.forEach (fun _ _ h1 => (.setFld (.setFld h1 ..) ..)) h ..) ..

/-! ### StackOps -/

theorem Keeps.setStk (h : Keeps o s) (x : Stack) : Keeps o (Machine.setStk s x) := .other h

theorem Keeps.setLink (h : Keeps o s) (k : Nat) (x : Link) : Keeps o (Machine.setLink s k x) := .setStk h ..

theorem Keeps.linkCounts (h : Keeps o s) (k : Nat) : Keeps o (Machine.linkCounts s k) := .setFld (.setFld (.setFld h ..) ..) ..

theorem Keeps.setLkState (h : Keeps o s) (k v : Nat) : Keeps o (Machine.setLkState s k v) := .linkCounts (.setFld h ..) ..

theorem Keeps.setSid (h : Keeps o s) (k i st lane : Nat) : Keeps o (Machine.setSid s k i st lane) :=
  .linkCounts (.setFld (.setFld h ..) ..) ..

theorem Keeps.trimLane (h : Keeps o s) (k lane : Nat) : Keeps o (Machine.trimLane s k lane) := .setStk (.drawn h ..) ..

theorem Keeps.trainRec (h : Keeps o s) (k : Nat) : Keeps o (Machine.trainRec s k) := .setFld (.setFld (.drawn h ..) ..) ..

theorem Keeps.loseDie (h : Keeps o s) (t : Nat) : Keeps o (Machine.loseDie s t) :=
  .ite (.retire (.loseSlots (.satAdd (.forEach (fun _ _ h1 => (.invalidate h1 ..)) h ..) ..) ..) ..) (.satAdd (.forEach (fun _ _ h1 =>
    (.invalidate h1 ..)) h ..) ..)

theorem Keeps.updateUnreach (h : Keeps o s) (k : Nat) : Keeps o (Machine.updateUnreach s k) :=
  .forEach (fun _ _ h1 => (.ite (.loseDie (.setFld (.raise h1 ..) ..) ..) h1)) (.forEach (fun _ _ h1 => (.ite (.setFld (.raise h1 ..)
    ..) h1)) h ..) ..

theorem Keeps.dropCarrier (h : Keeps o s) (k : Nat) : Keeps o (Machine.dropCarrier s k) :=
  .setFld (.setFld (by split; exacts [(.ite (.setSid (.setLink h ..) ..) (.setLink h ..)), (.setLink h ..)]) ..) ..

theorem Keeps.fence (h : Keeps o s) (k cause : Nat) : Keeps o (Machine.fence s k cause) :=
  .ite h (.updateUnreach (.raise (.setFld (.setFld (.setLkState (.setLink (.dropCarrier h ..) ..) ..) ..) ..) ..) ..)

theorem Keeps.retrainStart (h : Keeps o s) (k i : Nat) : Keeps o (Machine.retrainStart s k i) :=
  .setLink (.setLkState (.setSid h ..) ..) ..

theorem Keeps.guardOne (h : Keeps o s) (k : Nat) : Keeps o (Machine.guardOne s k) :=
  .ite h (by split; exacts [(.ite (.retrainStart h ..) h), (.ite (.setFld (.raise h ..) ..) h)])

theorem Keeps.guardAll (h : Keeps o s) : Keeps o (Machine.guardAll s) := .forEach (fun _ _ h1 => (.guardOne h1 ..)) h ..

theorem Keeps.linkRetrain (h : Keeps o s) (k : Nat) : Keeps o (Machine.linkRetrain s k) := .ite (.guardOne (.setFld h ..) ..) h

theorem Keeps.lastFail (h : Keeps o s) (k lane cause : Nat) : Keeps o (Machine.lastFail s k lane cause) :=
  .ite h (.setFld (.setFld (.setFld h ..) ..) ..)

theorem Keeps.sidFail (h : Keeps o s) (k i : Nat) : Keeps o (Machine.sidFail s k i) := .raise (.setSid h ..) ..

theorem Keeps.spareLane (h : Keeps o s) (k lane i : Nat) : Keeps o (Machine.spareLane s k lane i) := .raise (.setSid h ..) ..

theorem Keeps.eraseLane (h : Keeps o s) (k lane : Nat) : Keeps o (Machine.eraseLane s k lane) :=
  .ite (.setFld (.setFld (.raise h ..) ..) ..) (.ite (.raise h ..) (.fence h ..))

theorem Keeps.spareNext (h : Keeps o s) (k n : Nat) : Keeps o (Machine.spareNext k n s) := by
  induction n generalizing s with
  | zero => exact h
  | succ n ih =>
    unfold Machine.spareNext
    split
    · split
      · exact h.setLink ..
      · exact ih (.eraseLane (h.setLink ..) ..)
    · exact h

theorem Keeps.laneFail (h : Keeps o s) (k lane cause : Nat) : Keeps o (Machine.laneFail s k lane cause) := by
  unfold Machine.laneFail
  dsimp only
  exact .ite h (.ite h
    (by split; exacts [(.ite (.guardAll (.setLkState (.dropCarrier (.spareLane (by split; exacts [(.sidFail (.lastFail h ..) ..), (.setLink (.lastFail h ..) ..)]) ..) ..) ..) ..) (.guardAll (.spareNext (.setLink (.setLkState (.dropCarrier (by split; exacts [(.sidFail (.lastFail h ..) ..), (.setLink (.lastFail h ..) ..)]) ..) ..) ..) ..) ..)), (.guardAll (.spareNext (.setLink (by split; exacts [(.sidFail (.lastFail h ..) ..), (.setLink (.lastFail h ..) ..)]) ..) ..) ..)]))

theorem Keeps.sidingSwitch (h : Keeps o s) (k : Nat) (ok : Bool) : Keeps o (Machine.sidingSwitch s k ok) := by
  unfold Machine.sidingSwitch
  split
  exacts [h, (.ite (.guardAll (.spareNext (.spareLane (.trimLane (.setLink h ..) ..) ..) ..) ..) (.guardAll (.spareNext (.setLink
    (.sidFail (.lastFail (.setLink h ..) ..) ..) ..) ..) ..))]

theorem Keeps.stkDrainEnd (h : Keeps o s) : Keeps o (Machine.stkDrainEnd s) := .setFld (.setFld h ..) ..

theorem Keeps.retrainEnd (h : Keeps o s) (k i : Nat) : Keeps o (Machine.retrainEnd s k i) :=
  .ite (.retrainStart (.dropCarrier (.trainRec (.satInc h ..) ..) ..) ..) (.guardAll (.raise (.setLkState (.dropCarrier (.trainRec
    (.satInc h ..) ..) ..) ..) ..) ..)

theorem Keeps.retrainStep (h : Keeps o s) (k : Nat) (ok : Bool) : Keeps o (Machine.retrainStep s k ok) := by
  unfold Machine.retrainStep
  dsimp only
  split
  exacts [h, (.ite h (.ite (.ite (.guardAll (.setLkState (.dropCarrier (.sidFail (.lastFail h ..) ..) ..) ..) ..) (.ite (.setLkState
    (.dropCarrier h ..) ..) (.setFld (.setLink (.setSid (.trimLane h ..) ..) ..) ..))) (.ite (.laneFail h ..) (.ite (.setLkState
    (.dropCarrier (.trimLane h ..) ..) ..) (.ite (.setFld (.setLink (.setSid (.trimLane h ..) ..) ..) ..) (.retrainEnd (.trimLane h ..)
    ..))))))]

theorem Keeps.stkDisable (h : Keeps o s) : Keeps o (Machine.stkDisable s) := .ite h (.ite (.stkDrainEnd h ..) (.setFld h ..))

theorem Keeps.fuseSiding (h : Keeps o s) (r : Nat) : Keeps o (Machine.fuseSiding s r) := by
  unfold Machine.fuseSiding
  dsimp only
  split
  exacts [(.setLink (.setFld (.setSid h ..) ..) ..), h]

theorem Keeps.positionFail (h : Keeps o s) (k l cause : Nat) : Keeps o (Machine.positionFail s k l cause) :=
  .ite (.ite h (.laneFail h ..)) (.ite (.laneFail h ..) (.ite (.sidFail (.lastFail h ..) ..) h))

theorem Keeps.trainFail (h : Keeps o s) (x : Fin 43 × Fin 576) : Keeps o (Machine.trainFail s x) := .positionFail h ..

theorem Keeps.trainLink (h : Keeps o s) (k : Nat) : Keeps o (Machine.trainLink s k) := .trainRec (.setLkState h ..) ..

theorem Keeps.trimAll (h : Keeps o s) : Keeps o (Machine.trimAll s) := .setStk (.drawn h ..) ..

theorem Keeps.startupTraining (h : Keeps o s) (fails : List (Fin 43 × Fin 576)) : Keeps o (Machine.startupTraining s fails) :=
  .ite h (.setFld (.forEach (fun _ _ h1 => (.trainFail h1 ..)) (.forEach (fun _ _ h1 => (.trainLink h1 ..)) (.forEach (fun _ _ h1 =>
    (.fuseSiding h1 ..)) (.trimAll h ..) ..) ..) ..) ..)

theorem Keeps.checkLink (h : Keeps o s) (k : Nat) (bad : List Nat) : Keeps o (Machine.checkLink s k bad) :=
  .forEach (fun _ _ h1 => (.positionFail h1 ..)) (.ite (.setLink h ..) (.satInc (.setLink h ..) ..)) ..

theorem Keeps.healthChecks (h : Keeps o s) (fails : List (Fin 43 × Fin 576)) : Keeps o (Machine.healthChecks s fails) :=
  .ite h (.setStk (.forEach (fun _ _ h1 => (.checkLink h1 ..)) h ..) ..)

theorem Keeps.judgeLink (h : Keeps o s) (k : Nat) : Keeps o (Machine.judgeLink s k) := .ite (.setLkState (.raise h ..) ..) h

theorem Keeps.attribLane (h : Keeps o s) (k lane : Nat) : Keeps o (Machine.attribLane s k lane) :=
  .ite h (.ite (.laneFail (.satInc (.setLink h ..) ..) ..) (.satInc (.setLink h ..) ..))

theorem Keeps.stkReset (h : Keeps o s) : Keeps o (Machine.stkReset s) :=
  .forEach (fun _ _ h1 => (.resetOffsets h1 ..)) (.setFld (.resetOffsets (.resetOffsets (.resetOffsets h ..) ..) ..) ..) ..

/-! ### MemDies -/

theorem Keeps.lineLost (h : Keeps o s) (x kind : Nat) : Keeps o (Machine.lineLost s x kind) :=
  .ite (.partitionError (.poisonLine h ..) ..) (by split; exacts [(.cacheLineError (.poisonLine h ..) ..), (.poisonLine h ..)])

theorem Keeps.memDone (h : Keeps o s) (m tag x st data : Nat) : Keeps o (Machine.memDone s m tag x st data) :=
  .respond (.ite (.satInc h ..) (.ite (.satInc (.raise h ..) ..) (.ite (.satInc h ..) h))) ..

theorem Keeps.attribFixes (h : Keeps o s) (k : Option Nat) (fixes : List (Nat × Nat)) : Keeps o (Machine.attribFixes s k fixes) := by
  unfold Machine.attribFixes
  split
  exacts [(.forEach (fun _ _ h1 => (.forEach (fun _ _ h2 => (.attribLane h2 ..)) h1 ..)) h ..), h]

theorem Keeps.markRead (h : Keeps o s) (k : Option Nat) : Keeps o (Machine.markRead s k) := by
  unfold Machine.markRead
  split
  exacts [(.setLink h ..), h]

theorem Keeps.dieDecode (h : Keeps o s) (x e kind : Nat) : Keeps o (Machine.dieDecode s x e kind) := by
  unfold Machine.dieDecode
  split
  exacts [(.ite (.flipLine h ..) (.countCorr (.flipLine h ..) ..)), (.lineLost (.flipLine h ..) ..)]

/-- The list of lines to read again is no part of the canonical form. -/
theorem Keeps.reread (h : Keeps o s) (l : List Nat) : Keeps o { s with mem := { s.mem with reread := l } } :=
  h.of_mem (fun hm => hm) rfl rfl rfl rfl

theorem Keeps.portDecode (h : Keeps o s) (m tag x : Nat) (k : Option Nat) (e : Nat) :
    ∀ u ∈ Machine.portDecode s m tag x k e, Keeps o u := by
  intro u hu
  obtain ⟨r, -, rfl⟩ := Option.map_eq_some_iff.1 hu
  have hfix : Keeps o (Machine.attribFixes s k r.2) := h.attribFixes ..
  exact .memDone (.ite hfix (hfix.reread _)) ..

theorem Keeps.resendRead (h : Keeps o s) (m tag x : Nat) (k : Option Nat) (l : List Nat) :
    Keeps o (Machine.resendRead s m tag x k l) := by
  induction l with
  | nil => exact .ite (h.memDone ..) (.memDone (h.markRead ..) ..)
  | cons e t ih =>
    unfold Machine.resendRead
    cases hd : Machine.portDecode s m tag x k e with
    | none => exact ih
    | some u => exact h.portDecode _ _ _ _ _ u hd

theorem Keeps.memRead (h : Keeps o s) (m a tag flips busy : Nat) (mrq : Bool) (wire : List Nat) :
    Keeps o (Machine.memRead s m a tag flips busy mrq wire) := by
  unfold Machine.memRead
  extract_lets r x d k s1
  have h1 : Keeps o s1 := h.satAdd ..
  refine .ite h (.ite (h.respond ..) (.ite (.memDone (h1.drawn) ..) ?_))
  cases hd : Machine.portDecode s1 m tag x k (flips ^^^ wire.getD 0 0) with
  | none => exact .resendRead (h1.dieDecode ..) ..
  | some u => exact h1.portDecode _ _ _ _ _ u hd

theorem Keeps.memWrite (h : Keeps o s) (m a tag mask data flips : Nat) (wire : List Nat) (busy mrq : Bool) : Keeps o (Machine.memWrite s
    m a tag mask data flips wire busy mrq) := by
  unfold Machine.memWrite
  dsimp only
  exact .ite h (.ite (.respond h ..) (.ite (.memDone h ..)
    (by split; exacts [(.memDone (.markRead h ..) ..), (.ite (.memDone (.ite (.attribFixes h ..) (.dieDecode (.attribFixes h ..) ..)) ..) (.memDone (.mergeLine (.ite (.attribFixes h ..) (.dieDecode (.attribFixes h ..) ..)) ..) ..))])))

theorem Keeps.memReread (h : Keeps o s) (flips : Nat) : Keeps o (Machine.memReread s flips) := by
  unfold Machine.memReread
  split
  · exact h
  · exact .ite (h.reread _) (.dieDecode (h.reread _) ..)

theorem Keeps.patrolPass (h : Keeps o s) (d secs : Nat) : Keeps o (Machine.patrolPass s d secs) :=
  .ite (.raise (.setFld h ..) ..) (.setFld h ..)

theorem Keeps.patrolVisit (h : Keeps o s) (d flips secs : Nat) : Keeps o (Machine.patrolVisit s d flips secs) :=
  .ite h (.ite (.patrolPass (.setFld (.ite h (.dieDecode h ..)) ..) ..) (.setFld (.ite h (.dieDecode h ..)) ..))

theorem Keeps.groupModeWrite (h : Keeps o s) (n mode : Nat) : Keeps o (Machine.groupModeWrite s n mode) :=
  .ite h (.ite (.raise h ..) (.setFld h ..))

theorem Keeps.ownerByte (h : Keeps o s) (n i v : Nat) : Keeps o (Machine.ownerByte s n i v) := .ite h (.setFld h ..)

theorem Keeps.groupOwnerWrite (h : Keeps o s) (n word v : Nat) : Keeps o (Machine.groupOwnerWrite s n word v) :=
  .forEach (fun _ _ h1 => (.ownerByte h1 ..)) h ..

theorem Keeps.memDrainEnd (h : Keeps o s) : Keeps o (Machine.memDrainEnd s) := .setFld (.setFld h ..) ..

theorem Keeps.memDisable (h : Keeps o s) : Keeps o (Machine.memDisable s) := .ite h (.ite (.memDrainEnd h ..) (.setFld h ..))

theorem Keeps.memInflightReset (h : Keeps o s) (c : Nat → Bool) : Keeps o (Machine.memInflightReset s c) := .inflightReset h ..

theorem Keeps.memBlockReset (h : Keeps o s) : Keeps o (Machine.memBlockReset s) :=
  .resetOffsets (.setFld (.resetOffsets (.memInflightReset h ..) ..) ..) ..

/-! ### HostWin -/

theorem Keeps.mapLoad (h : Keeps o s) (p : Nat) : Keeps o (Machine.mapLoad s p) := .setFld h ..

theorem Keeps.unsealPage (h : Keeps o s) (p : Nat) : Keeps o (Machine.unsealPage s p) :=
  .dropWays (.forEach (fun _ _ h1 => (.fillFail h1 ..)) h ..) ..

theorem Keeps.zeroAgain (h : Keeps o s) : Keeps o (Machine.zeroAgain s) := by
  unfold Machine.zeroAgain
  split
  exacts [(.cacheAccess (.setCache h ..) ..), h]

theorem Keeps.mapWrite (h : Keeps o s) (p : Nat) : Keeps o (Machine.mapWrite s p) :=
  .ite h (.ite (.setFld (.raise h ..) ..) (.setFld (.zeroAgain (.ite (.setSeal (.setHwn (.ite (.unsealPage h ..) h) ..) ..) (.setHwn
    (.ite (.unsealPage h ..) h) ..)) ..) ..))

theorem Keeps.pageInitDone (h : Keeps o s) (p : Nat) : Keeps o (Machine.pageInitDone s p) :=
  .ite h (.zeroAgain (.setHwn (.forEach (fun _ _ h1 => (.postSealed h1 ..)) h ..) ..) ..)

theorem Keeps.setOwners (h : Keeps o s) (first count own : Nat) : Keeps o (Machine.setOwners s first count own) := .setHwn h ..

theorem Keeps.ownGive (h : Keeps o s) (first count : Nat) : Keeps o (Machine.ownGive s first count) :=
  .ite h (.ite (.setFld (.setOwners h ..) ..) (.setFld h ..))

theorem Keeps.startReclaim (h : Keeps o s) (first count : Nat) (desc : Option (Nat × Nat)) : Keeps o (Machine.startReclaim s first count
    desc) :=
  .setFld (.setHwn (.setOwners h ..) ..) ..

theorem Keeps.ownReclaim (h : Keeps o s) (first count : Nat) : Keeps o (Machine.ownReclaim s first count) :=
  .ite h (.ite (.setFld (.startReclaim h ..) ..) (.setFld h ..))

theorem Keeps.setRing (h : Keeps o s) (k : Nat) (l : List Desc) : Keeps o (Machine.setRing s k l) := .setFld (.setHwn h ..) ..

theorem Keeps.putDesc (h : Keeps o s) (k : Nat) (d : Desc) : Keeps o (Machine.putDesc s k d) := .setRing h ..

theorem Keeps.endReclaimDesc (h : Keeps o s) (x : Option (Nat × Nat)) : Keeps o (Machine.endReclaimDesc s x) := by
  unfold Machine.endReclaimDesc
  split
  exacts [(by split; exacts [(.putDesc h ..), h]), h]

theorem Keeps.reclaimDone (h : Keeps o s) : Keeps o (Machine.reclaimDone s) := by
  unfold Machine.reclaimDone
  split
  exacts [h, (.ite h (.endReclaimDesc (.setFld (.raise (.setHwn (.setOwners (.flushWays h ..) ..) ..) ..) ..) ..))]

theorem Keeps.hostAccess (h : Keeps o s) (n k ecc : Nat) (store : Bool) : Keeps o (Machine.hostAccess s n k ecc store) := by
  unfold Machine.hostAccess
  split
  exacts [h, (.cacheAccess h ..)]

theorem Keeps.cacheFillDone (h : Keeps o s) (k data ctr tag : Nat) (bad : Bool) : Keeps o (Machine.cacheFillDone s k data ctr tag bad)
    := by
  unfold Machine.cacheFillDone
  split
  exacts [h, (.ite (.fillFail h ..) (.fillDone h ..))]

theorem Keeps.fillTimeout (h : Keeps o s) (k : Nat) : Keeps o (Machine.fillTimeout s k) := by
  unfold Machine.fillTimeout
  split
  exacts [h, (.fillFail (.raiseMerged h ..) ..)]

theorem Keeps.schEnable (h : Keeps o s) : Keeps o (Machine.schEnable s) :=
  .ite h (.ite (.setFld (.raise h ..) ..) (.setFld (.setFld (.dropWays h ..) ..) ..))

theorem Keeps.schFlush (h : Keeps o s) : Keeps o (Machine.schFlush s) := .ite (.flushWays h ..) h

theorem Keeps.schDrainEnd (h : Keeps o s) : Keeps o (Machine.schDrainEnd s) := .setFld (.setFld h ..) ..

theorem Keeps.schDisable (h : Keeps o s) : Keeps o (Machine.schDisable s) :=
  .ite h (.ite (.schDrainEnd (.schFlush (.setFld h ..) ..) ..) (.schFlush (.setFld h ..) ..))

theorem Keeps.schZero (h : Keeps o s) (hi : Nat) : Keeps o (Machine.schZero s hi) :=
  .ite (.cacheAccess (.setFld (.setFld h ..) ..) ..) (.setFld (.setFld (.setFld (.setFld h ..) ..) ..) ..)

theorem Keeps.rekeyGo (h : Keeps o s) : Keeps o (Machine.rekeyGo s) :=
  .ite h (.setFld (.setFld (.setFld (.setSeal (.drawn h ..) ..) ..) ..) ..)

theorem Keeps.rekeyEnd (h : Keeps o s) : Keeps o (Machine.rekeyEnd s) := .dropRekey (.raise (.setSeal h ..) ..) ..

theorem Keeps.rekeyMove (h : Keeps o s) (l : Nat) : Keeps o (Machine.rekeyMove s l) := .ite (.rekeyEnd h ..) (.setFld h ..)

theorem Keeps.rekeyCached (h : Keeps o s) (k l : Nat) : Keeps o (Machine.rekeyCached s k l) :=
  .ite h (.putWay (.setOwnerBit (.setOwnerBit (.postSealed h ..) ..) ..) ..)

theorem Keeps.rekeyUncached (h : Keeps o s) (l data ctr tag : Nat) (ok : Bool) : Keeps o (Machine.rekeyUncached s l data ctr tag ok) :=
  .ite h (.ite (.postSealed h ..) (.tagFailed h ..))

theorem Keeps.rekeyVisit (h : Keeps o s) (data ctr tag : Nat) (ok : Bool) : Keeps o (Machine.rekeyVisit s data ctr tag ok) :=
  .ite h (.ite (.rekeyMove (.ite (.setSeal h ..) h) ..) (.rekeyMove
    (by split; exacts [(.rekeyCached (.setSeal h ..) ..), (.rekeyUncached (.setSeal h ..) ..)]) ..))

theorem Keeps.encDrainEnd (h : Keeps o s) : Keeps o (Machine.encDrainEnd s) := .setFld (.setFld h ..) ..

theorem Keeps.encDisable (h : Keeps o s) : Keeps o (Machine.encDisable s) := .ite h (.ite (.encDrainEnd h ..) (.setFld h ..))

theorem Keeps.ringTail (h : Keeps o s) (k v : Nat) : Keeps o (Machine.ringTail s k v) := .setFld (.setFld h ..) ..

theorem Keeps.descFetch (h : Keeps o s) (k raw : Nat) : Keeps o (Machine.descFetch s k raw) :=
  .ite h (.ite (.setFld h ..) (.setRing (.setFld h ..) ..))

theorem Keeps.copyCollides (h : Keeps o s) (a : Nat) : Keeps o (Machine.copyCollides s a) := .ite (.satAdd (.drawn h ..) ..) h

theorem Keeps.putPiece (h : Keeps o s) (a n v : Nat) : Keeps o (Machine.putPiece s a n v).2 :=
  .iteSnd (.copyCollides (.extAccess h ..) ..) (.memStore h ..)

theorem Keeps.getPiece (h : Keeps o s) (a n : Nat) : Keeps o (Machine.getPiece s a n).2.2 :=
  .iteSnd2 (.copyCollides (.extAccess h ..) ..) h

theorem Keeps.copyIn (h : Keeps o s) (k n : Nat) (d : Desc) (l : List Byte) : Keeps o (Machine.copyIn k n s d l) := by
  induction n generalizing s d l with
  | zero => exact h.putDesc ..
  | succ n ih => exact .ite (h.putDesc ..) (.ite (.putDesc (h.putPiece ..) ..) (ih (h.putPiece ..) _ _))

theorem Keeps.copyOut (h : Keeps o s) (k n : Nat) (d : Desc) (m : Nat) : Keeps o (Machine.copyOut k n s d m) := by
  induction n generalizing s d m with
  | zero => exact h.putDesc ..
  | succ n ih =>
    exact .ite (h.putDesc ..) (.ite (.putDesc (h.getPiece ..) ..) (ih (.postHost (h.getPiece ..) ..) _ _))

theorem Keeps.ringDrainEnd (h : Keeps o s) (k : Nat) : Keeps o (Machine.ringDrainEnd s k) := .setFld (.setFld h ..) ..

theorem Keeps.readEnds (h : Keeps o s) (k i : Nat) : Keeps o (Machine.readEnds s k i) :=
  .ite (.ringDrainEnd (.setRing h ..) ..) (.setRing h ..)

theorem Keeps.withDesc {f : Desc → State} (h : Keeps o s) (hf : ∀ x, Keeps o (f x)) (k i op : Nat) : Keeps o (Machine.withDesc s k i op
    f) := by
  unfold Machine.withDesc
  split
  exacts [h, (.ite h (.ite (.readEnds h ..) (.ite h (hf _))))]

theorem Keeps.toDevice (h : Keeps o s) (k i : Nat) (l : List Byte) (bad : Bool) : Keeps o (Machine.toDevice s k i l bad) :=
  .withDesc h (fun _ => (.ite (.putDesc h ..) (.copyIn h ..))) ..

theorem Keeps.toHost (h : Keeps o s) (k i n : Nat) : Keeps o (Machine.toHost s k i n) :=
  .withDesc h (fun _ => (.ite (.putDesc h ..) (.copyOut h ..))) ..

theorem Keeps.reclaimDesc (h : Keeps o s) (k i : Nat) : Keeps o (Machine.reclaimDesc s k i) :=
  .withDesc h (fun _ => (.ite (.putDesc h ..) (.ite h (.ite (.setFld (.startReclaim (.putDesc h ..) ..) ..) (.setFld (.putDesc (.drawn h
    ..) ..) ..))))) ..

theorem Keeps.writeDesc (h : Keeps o s) (k : Nat) (d : Desc) (st : Nat × Nat) : Keeps o (Machine.writeDesc s k d st) :=
  .postHost (.postHost h ..) ..

theorem Keeps.descComplete (h : Keeps o s) (k i : Nat) : Keeps o (Machine.descComplete s k i) := by
  unfold Machine.descComplete
  dsimp only
  split
  exacts [h,
    (by split; exacts [h, (.ite (.readEnds h ..) (.ite h (.ite (.pendVec (.setRing (.writeDesc h ..) ..) ..) (.setRing (.writeDesc h ..) ..))))])]

theorem Keeps.cplTimeout (h : Keeps o s) (k i : Nat) : Keeps o (Machine.cplTimeout s k i) := by
  unfold Machine.cplTimeout
  split
  exacts [h, (.ite h (.ite (.readEnds (.raiseMerged h ..) ..) (.putDesc (.raiseMerged h ..) ..)))]

theorem Keeps.abortRec (h : Keeps o s) (k i : Nat) : Keeps o (Machine.abortRec s k i) :=
  .ite (.satInc h ..) (.setFld (.setHwn h ..) ..)

theorem Keeps.abortRing (h : Keeps o s) (k : Nat) : Keeps o (Machine.abortRing s k) :=
  .ite h (.ite (.ringDrainEnd (.setFld (.setHwn (.setRing (.forEach (fun _ _ h1 => (.abortRec h1 ..)) (.raise h ..) ..) ..) ..) ..) ..)
    (.setFld (.setHwn (.setRing (.forEach (fun _ _ h1 => (.abortRec h1 ..)) (.raise h ..) ..) ..) ..) ..))

theorem Keeps.bmeClear (h : Keeps o s) : Keeps o (Machine.bmeClear s) :=
  .ite h (.forEach (fun _ _ h1 => (.abortRing h1 ..)) (.setFld h ..) ..)

theorem Keeps.bmeSet (h : Keeps o s) : Keeps o (Machine.bmeSet s) := .ite h (.schFlush (.setFld h ..) ..)

theorem Keeps.hostBme (h : Keeps o s) (b : Bool) : Keeps o (Machine.hostBme s b) :=
  .ite (.bmeSet (.setFld (.setPciFn h ..) ..) ..) (.bmeClear (.setFld (.setPciFn h ..) ..) ..)

theorem Keeps.ringReset (h : Keeps o s) (k : Nat) : Keeps o (Machine.ringReset s k) :=
  .ite h (.setFld (.setFld (.setFld (.setFld h ..) ..) ..) ..)

theorem Keeps.cancelDescs (h : Keeps o s) (k : Nat) : Keeps o (Machine.cancelDescs s k) := .setRing h ..

theorem Keeps.ringDisable (h : Keeps o s) (k : Nat) : Keeps o (Machine.ringDisable s k) :=
  .ite h (.ite (.ringDrainEnd (.cancelDescs h ..) ..) (.setFld (.cancelDescs h ..) ..))

theorem Keeps.hwnDrainEnd (h : Keeps o s) : Keeps o (Machine.hwnDrainEnd s) :=
  .forEach (fun _ _ h1 => (.ringDrainEnd h1 ..)) (.setFld (.setFld h ..) ..) ..

theorem Keeps.hwnDisable (h : Keeps o s) : Keeps o (Machine.hwnDisable s) :=
  .ite h (.ite (.setFld (.setFld (.forEach (fun _ _ h1 => (.ringDisable h1 ..)) h ..) ..) ..) (.setFld (.forEach (fun _ _ h1 =>
    (.ringDisable h1 ..)) h ..) ..))

theorem Keeps.abortPop (h : Keeps o s) : Keeps o (Machine.abortPop s) := .setFld (.setHwn h ..) ..

theorem Keeps.hwnClear (h : Keeps o s) : Keeps o (Machine.hwnClear s) :=
  .forEach (fun _ _ h1 => (.setFld (.setFld (.ringDrainEnd (.setFld h1 ..) ..) ..) ..)) (.setFld (.setFld (.setHwn h ..) ..) ..) ..

theorem Keeps.hostSideReset (h : Keeps o s) : Keeps o (Machine.hostSideReset s) :=
  .drawKey (.dropRekey (.hwnClear (.dropWays (.satAdd (.raise (.resetWindow h ..) ..) ..) ..) ..) ..) ..

theorem Keeps.schReset (h : Keeps o s) : Keeps o (Machine.schReset s) :=
  .resetBlockRegs (.setCache (.dropWays (.resetWindow h ..) ..) ..) ..

theorem Keeps.hwnReset (h : Keeps o s) : Keeps o (Machine.hwnReset s) :=
  .setFld (.resetBlockRegs (.hwnClear (.dropWays (.resetWindow h ..) ..) ..) ..) ..

theorem Keeps.encReset (h : Keeps o s) : Keeps o (Machine.encReset s) :=
  .drawKey (.setFld (.resetBlockRegs (.dropWays (.forEach (fun _ _ h1 => (.fillFail h1 ..)) h ..) ..) ..) ..) ..

/-! ### Thermal -/

theorem Keeps.setThm (h : Keeps o s) (x : Thermal) : Keeps o (Machine.setThm s x) := .other h

theorem Keeps.sensorFail (h : Keeps o s) (n : Nat) : Keeps o (Machine.readSensor.sensorFail s n) :=
  .ite (.setThm h ..) (.setFld (.raise (.setThm h ..) ..) ..)

theorem Keeps.readSensor (h : Keeps o s) (n : Nat) (v : Option (BitVec 16)) : Keeps o (Machine.readSensor s n v) := by
  unfold Machine.readSensor
  split
  exacts [(.ite (.ite (.setFld h ..) (.ite (.setFld (.setThm (.setFld h ..) ..) ..) (.setThm (.setFld h ..) ..))) (.sensorFail h ..)),
    (.sensorFail h ..)]

theorem Keeps.setRate (h : Keeps o s) (n : Nat) : Keeps o (Machine.setRate s n) := .setFld (.drawn h ..) ..

theorem Keeps.countRounds (h : Keeps o s) : Keeps o (Machine.countRounds s) := .setThm h ..

theorem Keeps.judgeThermal (h : Keeps o s) : Keeps o (Machine.judgeThermal s) :=
  .ite (.setFld (.countRounds h ..) ..) (.ite (.raise (.setFld (.countRounds h ..) ..) ..) (.ite (.raise (.setFld (.countRounds h ..)
    ..) ..) (.ite (.bstopTrigger (.raise (.setFld (.countRounds h ..) ..) ..) ..) (.raise (.setFld (.countRounds h ..) ..) ..))))

theorem Keeps.slowdown (h : Keeps o s) : Keeps o (Machine.slowdown s) :=
  .ite (.pendVec (.setFld (.ite (.setFld (.setFld h ..) ..) h) ..) ..) (.setFld (.ite (.setFld (.setFld h ..) ..) h) ..)

theorem Keeps.hottest (h : Keeps o s) : Keeps o (Machine.hottest s) := by
  unfold Machine.hottest
  split
  exacts [h, (.ite (.setFld (.setFld h ..) ..) (.setFld h ..))]

theorem Keeps.recordRound (h : Keeps o s) (x : RoundIn) : Keeps o (Machine.recordRound s x) := .setFld (.setThm h ..) ..

theorem Keeps.remember (h : Keeps o s) : Keeps o (Machine.remember s) := .setThm h ..

theorem Keeps.housekeeping (h : Keeps o s) (x : RoundIn) : Keeps o (Machine.housekeeping s x) :=
  .ite h (.guardAll (.healthChecks (.forEach (fun _ _ h1 => (.judgeLink h1 ..)) (.forEach (fun _ _ h1 => (.judgeVio h1 ..)) (.remember
    (.slowdown (.judgeThermal (.hottest (.forEach (fun _ _ h1 => (.setRate h1 ..)) (.forEach (fun _ _ h1 => (.readSensor h1 ..))
    (.recordRound h ..) ..) ..) ..) ..) ..) ..) ..) ..) ..) ..)

theorem Keeps.thmDisable (h : Keeps o s) : Keeps o (Machine.thmDisable s) := .ite (.setFld h ..) h

/-! ### Bitstream -/

theorem Keeps.setCfg (h : Keeps o s) (x : Session) : Keeps o (Machine.setCfg s x) := .other h

theorem Keeps.credit (h : Keeps o s) (k : Nat) (l : List (Nat × Nat)) (n : Nat) : Keeps o (Machine.credit k s l n).1 := by
  induction l generalizing s n with
  | nil => exact h
  | cons x t ih =>
    obtain ⟨i, m⟩ := x
    unfold Machine.credit
    extract_lets u s1
    have h1 : Keeps o s1 := by
      unfold s1
      split
      · exact h.putDesc ..
      · exact h
    exact .iteFst (ih h1 _) h1

theorem Keeps.takeBytes (h : Keeps o s) (n : Nat) : Keeps o (Machine.takeBytes s n) :=
  .setFld (.setCfg (.iteFst h (.credit h ..)) ..) ..

theorem Keeps.pull (h : Keeps o s) (n : Nat) : Keeps o (Machine.pull n s) := by
  induction n generalizing s with
  | zero => exact h
  | succ n ih =>
    unfold Machine.pull
    split
    · exact .ite h (ih (h.takeBytes ..))
    · exact h

theorem Keeps.feed (h : Keeps o s) : Keeps o (Machine.feed s) := .ite (.pull h ..) h

theorem Keeps.nextCmd (h : Keeps o s) : Keeps o (Machine.nextCmd s) := .feed (.setCfg h ..) ..

theorem Keeps.endSource (h : Keeps o s) : Keeps o (Machine.endSource s) :=
  .ite (.satAdd (.setCfg h ..) ..) (.forEach (fun _ _ h1 => (.satAdd (.putDesc h1 ..) ..)) (.setCfg h ..) ..)

theorem Keeps.sessFail (h : Keeps o s) (result cause off : Nat) : Keeps o (Machine.sessFail s result cause off) :=
  .setCfg (.setFld (.setFld (.r8Withdraw (.endSource h ..) ..) ..) ..) ..

theorem Keeps.rejectFrame (h : Keeps o s) (st a : Nat) : Keeps o (Machine.rejectFrame s st a) :=
  .ite (.setFld (.setFld (.setFld (.ite (.satInc (.raiseMerged (.satInc (.setCfg h ..) ..) ..) ..) (.raiseMerged (.satInc (.setCfg h ..)
    ..) ..)) ..) ..) ..) (.ite (.satInc (.raiseMerged (.satInc (.setCfg h ..) ..) ..) ..) (.raiseMerged (.satInc (.setCfg h ..) ..) ..))

theorem Keeps.regionLoading (h : Keeps o s) (r : Nat) : Keeps o (Machine.regionLoading s r) :=
  .ite (.setCfg h ..) (.setRegState (.setFld (.holdCuffs (.setCfg h ..) ..) ..) ..)

theorem Keeps.planeLoading (h : Keeps o s) (r k : Nat) : Keeps o (Machine.planeLoading s r k) :=
  .ite (.setCfg (.ite h (.planeMarks (.setPlane h ..) ..)) ..) (.r8Request (.setCfg (.ite h (.planeMarks (.setPlane h ..) ..)) ..) ..)

theorem Keeps.bmInit (h : Keeps o s) (r tile part f : Nat) : Keeps o (Machine.bmInit s r tile part f) := .setCfg (.setBm h ..) ..

theorem Keeps.acceptFrame (h : Keeps o s) (a f : Nat) : Keeps o (Machine.acceptFrame s a f) :=
  .ite (.bmInit (.regionLoading (.satInc h ..) ..) ..) (.ite (.setRegion (.regionLoading (.satInc h ..) ..) ..) (.writeFrame
    (.planeLoading (.ite (.makeClaims (.regionLoading (.satInc h ..) ..) ..) (.regionLoading (.satInc h ..) ..)) ..) ..))

theorem Keeps.takeFrame (h : Keeps o s) (crcOk : Bool) (a f : Nat) : Keeps o (Machine.takeFrame s crcOk a f) := by
  unfold Machine.takeFrame
  dsimp only
  split
  exacts [(.setCfg h ..), (.ite (.acceptFrame (.setCfg h ..) ..) (.rejectFrame (.setCfg h ..) ..))]

theorem Keeps.cuffSet (h : Keeps o s) (r mode : Nat) : Keeps o (Machine.cuffSet s r mode) := .setRegion h ..

/-! ### Session -/

theorem Keeps.sessionOpen (h : Keeps o s) (ringSrc : Bool) (k : Nat) : Keeps o (Machine.sessionOpen s ringSrc k) :=
  .ite (.setFld (.setFld h ..) ..) (.setFld (.setCfg (.setFld (.setFld (.setFld (.setFld (.setFld (.setFld (.setFld (.setFld h ..) ..)
    ..) ..) ..) ..) ..) ..) ..) ..)

theorem Keeps.loadWindow (h : Keeps o s) (l : List Byte) : Keeps o (Machine.loadWindow s l) :=
  .ite (.feed (.setCfg h ..) ..) (.satAdd h ..)

theorem Keeps.configDesc (h : Keeps o s) (k i : Nat) (l : List Byte) (bad : Bool) : Keeps o (Machine.configDesc s k i l bad) :=
  .withDesc h (fun _ => (.ite (.putDesc h ..) (.ite (.putDesc h ..) (.ite (.putDesc h ..) (.ite h (.feed (.setCfg (.putDesc h ..) ..)
    ..)))))) ..

theorem Keeps.undoRegion (h : Keeps o s) (r : Nat) : Keeps o (Machine.undoRegion s r) :=
  .ite (.setRegion (.forEach (fun _ _ h1 => (.setBm h1 ..)) (.forEach (fun _ _ h1 => (.emptyPlane h1 ..)) h ..) ..) ..) (.ite
    (.regionEmpty (.setRegion (.forEach (fun _ _ h1 => (.setBm h1 ..)) (.forEach (fun _ _ h1 => (.emptyPlane h1 ..)) h ..) ..) ..) ..)
    (.setRegState (.setRegion (.forEach (fun _ _ h1 => (.setBm h1 ..)) (.forEach (fun _ _ h1 => (.emptyPlane h1 ..)) h ..) ..) ..) ..))

theorem Keeps.sessEnd (h : Keeps o s) (result : Nat) : Keeps o (Machine.sessEnd s result) :=
  .setFld (.setFld (.ite (.setFld (.setCfg h ..) ..) h) ..) ..

theorem Keeps.sessFailed (h : Keeps o s) (result cause : Nat) : Keeps o (Machine.sessFailed s result cause) := .raise h ..

theorem Keeps.failEnd (h : Keeps o s) : Keeps o (Machine.failEnd s) := by
  unfold Machine.failEnd
  split
  exacts [h, (.sessEnd (.sessFailed (.setFld (.setCfg (.forEach (fun _ _ h1 => (.undoRegion h1 ..)) h ..) ..) ..) ..) ..)]

theorem Keeps.planeVerified (h : Keeps o s) (p : Nat) : Keeps o (Machine.planeVerified s p) :=
  .planeMarks (.ite (.setFld (.setCfg (.ite (.initPriv (.setPlane h ..) ..) (.setPlane h ..)) ..) ..) (.setCfg (.ite (.initPriv
    (.setPlane h ..) ..) (.setPlane h ..)) ..)) ..

theorem Keeps.commitCuffs (h : Keeps o s) (r : Nat) : Keeps o (Machine.commitCuffs s r) := by
  unfold Machine.commitCuffs
  dsimp only
  split
  exacts [(.setRegion (.forEach (fun _ _ h1 => (.setFab h1 ..)) h ..) ..), (.takeOwnership (.setRegion (.forEach (fun _ _ h1 => (.setFab
    h1 ..)) h ..) ..) ..)]

theorem Keeps.regionReturn (h : Keeps o s) (r : Nat) : Keeps o (Machine.regionReturn s r) := .ite (.setRegState h ..) h

theorem Keeps.commit (h : Keeps o s) : Keeps o (Machine.commit s) :=
  .sessEnd (.raise (.setCfg (.forEach (fun _ _ h1 => (.regionReturn h1 ..)) (.forEach (fun _ _ h1 => (.releaseRequest h1 ..)) (.forEach
    (fun _ _ h1 => (.releaseInit h1 ..)) (.forEach (fun _ _ h1 => (.releaseRefused h1 ..)) (.forEach (fun _ _ h1 => (.commitCuffs h1
    ..)) (.forEach (fun _ _ h1 => (.planeVerified h1 ..)) (.forEach (fun _ _ h1 => (.undoRegion h1 ..)) h ..) ..) ..) ..) ..) ..) ..)
    ..) ..) ..

theorem Keeps.headFail (h : Keeps o s) (result cause off : Nat) : Keeps o (Machine.headFail s result cause off) :=
  .sessEnd (.ite (.sessFailed (.setFld (.setFld (.endSource h ..) ..) ..) ..) (.ite (.raise (.setFld (.setFld (.endSource h ..) ..) ..)
    ..) (.raise (.setFld (.setFld (.endSource h ..) ..) ..) ..))) ..

theorem Keeps.malformed (h : Keeps o s) (off : Nat) : Keeps o (Machine.malformed s off) := .ite (.headFail h ..) (.sessFail h ..)

theorem Keeps.withCmd {f : List Byte → State} (h : Keeps o s) (hf : ∀ x, Keeps o (f x)) (op : Nat) : Keeps o (Machine.withCmd s op f) :=
  .ite h (by split; exacts [(.malformed h ..), h, (.ite (hf _) h)])

theorem Keeps.bsSync (h : Keeps o s) : Keeps o (Machine.bsSync s) := .withCmd h (fun _ => (.nextCmd (.setCfg h ..) ..)) ..

theorem Keeps.showKeys (h : Keeps o s) : Keeps o (Machine.showKeys s) :=
  .setFld (.setFld (.setFld (.setFld (.setFld h ..) ..) ..) ..) ..

theorem Keeps.bsHeader (h : Keeps o s) : Keeps o (Machine.bsHeader s) :=
  .withCmd h (fun _ => (.ite (.headFail h ..) (.ite (.headFail h ..)
    (by split; exacts [(.headFail h ..), (.nextCmd (.setCfg h ..) ..)])))) ..

theorem Keeps.bsSelect (h : Keeps o s) : Keeps o (Machine.bsSelect s) := .withCmd h (fun _ => (.nextCmd (.setCfg h ..) ..)) ..

theorem Keeps.bsFrame (h : Keeps o s) : Keeps o (Machine.bsFrame s) :=
  .withCmd h (fun _ => (.ite h (.nextCmd (.takeFrame (.setCfg h ..) ..) ..))) ..

theorem Keeps.bsRepeat (h : Keeps o s) : Keeps o (Machine.bsRepeat s) :=
  .withCmd h (fun _ => (.ite h (.nextCmd (.forEach (fun _ _ h2 => (.takeFrame h2 ..)) h ..) ..))) ..

theorem Keeps.bsInitvec (h : Keeps o s) : Keeps o (Machine.bsInitvec s) :=
  .ite (.ite (.nextCmd (.setCfg h ..) ..) (.sessFail h ..)) (.withCmd h (fun _ => (.nextCmd (.setCfg h ..) ..)) ..)

theorem Keeps.bsCuffset (h : Keeps o s) : Keeps o (Machine.bsCuffset s) :=
  .withCmd h (fun _ => (by split; exacts [h, (.ite (.nextCmd (.rejectFrame h ..) ..) (.nextCmd (.cuffSet h ..) ..))])) ..

theorem Keeps.bsRelease (h : Keeps o s) : Keeps o (Machine.bsRelease s) := .withCmd h (fun _ => (.nextCmd (.setCfg h ..) ..)) ..

theorem Keeps.bsEnd (h : Keeps o s) : Keeps o (Machine.bsEnd s) := .withCmd h (fun _ => (.nextCmd (.setCfg h ..) ..)) ..

theorem Keeps.bsSignature (h : Keeps o s) : Keeps o (Machine.bsSignature s) :=
  .withCmd h (fun _ => (.setFld (.endSource h ..) ..)) ..

theorem Keeps.verifyDone (h : Keeps o s) : Keeps o (Machine.verifyDone s) := .ite h (.ite (.commit h ..) (.sessFail h ..))

theorem Keeps.endEarly (h : Keeps o s) (cause : Nat) : Keeps o (Machine.endEarly s cause) := .ite (.sessFail h ..) h

theorem Keeps.idleTimeout (h : Keeps o s) : Keeps o (Machine.idleTimeout s) := by
  unfold Machine.idleTimeout
  split
  exacts [(.ite h (.endEarly h ..)), h]

theorem Keeps.deadlineExpire (h : Keeps o s) : Keeps o (Machine.deadlineExpire s) :=
  .ite h (.ite (.setCfg h ..) (.setFld (.setFld (.pendVec (.raise (.setCfg (.setCfg h ..) ..) ..) ..) ..) ..))

theorem Keeps.reveal (h : Keeps o s) : Keeps o (Machine.reveal s) := .setFld (.setCfg h ..) ..

theorem Keeps.deadlineClear (h : Keeps o s) : Keeps o (Machine.deadlineClear s) :=
  .setFld (.reveal (.setCfg (.setFld (.setFld h ..) ..) ..) ..) ..

theorem Keeps.cfgHostReset (h : Keeps o s) : Keeps o (Machine.cfgHostReset s) := .deadlineClear (.endEarly h ..) ..

theorem Keeps.putReadback (h : Keeps o s) (a : Nat) : Keeps o (Machine.putReadback s a) :=
  .forEach (fun _ _ h1 => (.setFld h1 ..)) h ..

theorem Keeps.readback (h : Keeps o s) : Keeps o (Machine.readback s) :=
  .ite (.setFld h ..) (.setFld (.setFld (.setFld (.ite (.putReadback h ..) h) ..) ..) ..)

theorem Keeps.cfgDisable (h : Keeps o s) : Keeps o (Machine.cfgDisable s) :=
  .ite h (.ite (.setFld h ..) (.setCfg (.setFld (.endEarly h ..) ..) ..))

theorem Keeps.cfgReset (h : Keeps o s) : Keeps o (Machine.cfgReset s) :=
  .showKeys (.setCfg (.setFld (.setFld (.setFld (.setFld (.resetBlockRegs (.ite h (.failEnd (.sessFail h ..) ..)) ..) ..) ..) ..) ..)
    ..) ..

theorem Keeps.r8Effect (h : Keeps o s) (q : R8Req) : Keeps o (Machine.r8Effect s q) := by
  unfold Machine.r8Effect
  split
  exacts [(.startAdmitted h ..), (.setFld (.other h) ..), (.engRestart h ..), (.feed h ..)]

theorem Keeps.rail8Admit (h : Keeps o s) : Keeps o (Machine.rail8Admit s) := by
  unfold Machine.rail8Admit
  split
  exacts [h, (.ite (.r8Effect (.r8Admit h ..) ..) h)]

/-! ### Clocks -/

theorem Keeps.setClk (h : Keeps o s) (x : Clock) : Keeps o (Machine.setClk s x) := .other h

theorem Keeps.raiseNmi (h : Keeps o s) (code : Nat) : Keeps o (Machine.raiseNmi s code) := .other h

theorem Keeps.setWindows (h : Keeps o s) (osc n : Nat) : Keeps o (Machine.setWindows s osc n) :=
  .setFld (.showRef (.setClk h ..) ..) ..

theorem Keeps.froRest (h : Keeps o s) : Keeps o (Machine.froRest s) := .ite h (.setWindows h ..)

theorem Keeps.sysclkRef (h : Keeps o s) : Keeps o (Machine.sysclkRef s) := .froRest (.setFld h ..) ..

theorem Keeps.freezeResume (h : Keeps o s) : Keeps o (Machine.freezeResume s) :=
  .ite (.ite (.setFld (.setFld (.setFld h ..) ..) ..) (.setFld (.setFld h ..) ..)) (.raise (.setFld (.setFld h ..) ..) ..)

theorem Keeps.becomeStable (h : Keeps o s) (osc : Nat) : Keeps o (Machine.becomeStable s osc) :=
  .ite (.sysclkRef (.ite (.setClk (.ite (.setFld h ..) h) ..) (.ite (.setFld h ..) h)) ..) (.ite (.freezeResume (.ite (.setClk (.ite
    (.setFld h ..) h) ..) (.ite (.setFld h ..) h)) ..) (.ite (.setClk (.ite (.setFld h ..) h) ..) (.ite (.setFld h ..) h)))

theorem Keeps.judgeWindow (h : Keeps o s) (osc n : Nat) : Keeps o (Machine.judgeWindow s osc n) :=
  .ite (.setWindows h ..) (.ite (.setWindows h ..) (.ite (.becomeStable (.setWindows h ..) ..) (.setWindows h ..)))

theorem Keeps.monTrip (h : Keeps o s) : Keeps o (Machine.monTrip s) :=
  .ite h (.ite (.setFld (.ite (.setRt (.loseRt (.setClk (.setWindows (.pendVec (.raiseNmi (.satInc (.setFld h ..) ..) ..) ..) ..) ..)
    ..) ..) (.setClk (.setWindows (.pendVec (.raiseNmi (.satInc (.setFld h ..) ..) ..) ..) ..) ..)) ..) (.setFld (.ite (.setWindows
    (.ite (.setRt (.loseRt (.setClk (.setWindows (.pendVec (.raiseNmi (.satInc (.setFld h ..) ..) ..) ..) ..) ..) ..) ..) (.setClk
    (.setWindows (.pendVec (.raiseNmi (.satInc (.setFld h ..) ..) ..) ..) ..) ..)) ..) (.ite (.setRt (.loseRt (.setClk (.setWindows
    (.pendVec (.raiseNmi (.satInc (.setFld h ..) ..) ..) ..) ..) ..) ..) ..) (.setClk (.setWindows (.pendVec (.raiseNmi (.satInc
    (.setFld h ..) ..) ..) ..) ..) ..))) ..))

theorem Keeps.assertFault (h : Keeps o s) (c : Nat) : Keeps o (Machine.assertFault s c) := .setFld (.other h) ..

theorem Keeps.releaseFault (h : Keeps o s) (c : Nat) : Keeps o (Machine.releaseFault s c) := .setFld (.other h) ..

theorem Keeps.freezeTimeout (h : Keeps o s) : Keeps o (Machine.freezeTimeout s) :=
  .ite h (.assertFault (.raise (.setClk (.bstopTrigger h ..) ..) ..) ..)

theorem Keeps.sysclkReturn (h : Keeps o s) : Keeps o (Machine.sysclkReturn s) := .ite (.raise (.sysclkRef (.setClk h ..) ..) ..) h

theorem Keeps.xoFail (h : Keeps o s) : Keeps o (Machine.xoFail s) :=
  .ite h (.setFld (.setFld (.raise (.setWindows h ..) ..) ..) ..)

theorem Keeps.nmiClear (h : Keeps o s) (clkmon xofail again : Bool) : Keeps o (Machine.nmiClear s clkmon xofail again) :=
  .ite (.setFld (.ite (.setFld h ..) h) ..) (.ite (.setFld h ..) h)

theorem Keeps.fpllEnable (h : Keeps o s) (n : Nat) : Keeps o (Machine.fpllEnable s n) :=
  .ite h (.ite (.raise h ..) (.setFld h ..))

theorem Keeps.fpllDisable (h : Keeps o s) (n : Nat) : Keeps o (Machine.fpllDisable s n) := .setFld (.setFld h ..) ..

theorem Keeps.sbxReply (h : Keeps o s) (st det : Nat) (pay : List Byte) : Keeps o (Machine.sbxReply s st det pay) := .other h

theorem Keeps.opEnd (h : Keeps o s) (sbx : Bool) (st : Nat) : Keeps o (Machine.opEnd s sbx st) :=
  .ite (.sbxReply (.ite (.setFld (.setFld (.setFld (.setClk h ..) ..) ..) ..) (.setFld (.setClk h ..) ..)) ..) (.ite (.setFld (.setFld
    (.setFld (.setClk h ..) ..) ..) ..) (.setFld (.setClk h ..) ..))

theorem Keeps.opDone (h : Keeps o s) (x : OpChange) : Keeps o (Machine.opDone s x) := .opEnd (.setFld (.raise h ..) ..) ..

theorem Keeps.opBegin (h : Keeps o s) (t : Nat) (sbx : Bool) : Keeps o (Machine.opBegin s t sbx) := .setFld (.setClk h ..) ..

theorem Keeps.opRequest (h : Keeps o s) (t : Nat) : Keeps o (Machine.opRequest s t) :=
  .ite h (.ite (.satInc h ..) (.ite (.setFld h ..) (.opBegin (.setFld h ..) ..)))

theorem Keeps.avsAck (h : Keeps o s) (mv : Nat) : Keeps o (Machine.avsAck s mv) := by
  unfold Machine.avsAck
  split
  exacts [(.ite (.ite (.setClk (.setFld h ..) ..) (.opDone (.setFld h ..) ..)) h), h]

theorem Keeps.avsTimeout (h : Keeps o s) (mv : Nat) : Keeps o (Machine.avsTimeout s mv) := by
  unfold Machine.avsTimeout
  split
  exacts [(.ite (.opEnd (.ite (.raise (.setFld h ..) ..) (.setFld (.raise (.setFld h ..) ..) ..)) ..) h), h]

theorem Keeps.pllLock (h : Keeps o s) (i : Nat) : Keeps o (Machine.pllLock s i) := by
  unfold Machine.pllLock
  dsimp only
  exact .ite (.ite (.setFld h ..) h)
    (by split; exacts [(.ite (.setClk h ..) (.ite (.opDone (.setClk h ..) ..) (.setClk (.setClk h ..) ..))), (.setClk h ..)])

theorem Keeps.gateAck (h : Keeps o s) (eng : Bool) (i : Nat) : Keeps o (Machine.gateAck s eng i) :=
  .ite h (.ite (.ite (.setFld (.setEngine h ..) ..) h) (.ite (.ite (.setFld (.setRegion h ..) ..) (.setRegion h ..)) h))

theorem Keeps.gateTimeout (h : Keeps o s) (eng : Bool) (i : Nat) : Keeps o (Machine.gateTimeout s eng i) := by
  unfold Machine.gateTimeout
  extract_lets note
  have hnote (u : State) (hu : Keeps o u) : Keeps o (note u) := .raise (hu.satInc _) ..
  exact .ite h (.ite (.ite (hnote _ (h.setEngine ..)) h) (.ite (hnote _ (h.setRegion ..)) h))

theorem Keeps.clkDisable (h : Keeps o s) : Keeps o (Machine.clkDisable s) := .ite h (.ite (.setFld h ..) (.setFld h ..))

theorem Keeps.clkReset (h : Keeps o s) : Keeps o (Machine.clkReset s) :=
  .froRest (.resetOffsets (.resetOffsets (.setFld (.setFld (.setFld (.resetOffsets h ..) ..) ..) ..) ..) ..) ..

/-! ### Bist -/

theorem Keeps.setBst (h : Keeps o s) (x : Bst) : Keeps o (Machine.setBst s x) := .other h

theorem Keeps.setUnit (h : Keeps o s) (u st : Nat) : Keeps o (Machine.setUnit s u st) := .setFld (.setFld (.setFld h ..) ..) ..

theorem Keeps.queueRec (h : Keeps o s) (u r : Nat) : Keeps o (Machine.queueRec s u r) :=
  .ite (.setFld (.setBst (.satInc (.setBst h ..) ..) ..) ..) (.satInc (.satInc (.setBst h ..) ..) ..)

theorem Keeps.failure (h : Keeps o s) (u bank row bit : Nat) (col auto : Bool) :
    Keeps o (Machine.failure s u bank row bit col auto) := by
  unfold Machine.failure
  dsimp only
  exact .ite (h.queueRec ..) (.ite (.queueRec (h.setBst _) ..) (.ite (.queueRec (h.setBst _) ..) (.raise (h.queueRec ..) ..)))

theorem Keeps.bankFailures (h : Keeps o s) (u bank : Nat) (l : List (Nat × Nat)) (auto : Bool) : Keeps o (Machine.bankFailures s u bank
    l auto) :=
  .forEach (fun _ _ h1 => (by split; exacts [(.failure h1 ..), h1])) (.forEach (fun _ _ h1 => (.failure h1 ..)) h ..) ..

/-- A bank's bytes, poison marks, owners and open contents may all be dropped at once: every byte that stays listed stands in another
bank, of which nothing changes. -/
theorem zeroBank_wf {m : Memory} (h : m.wf = true) (k : Nat) : Memory.wf { m with
    cells := smDrop m.cells (64 * (k * 2 ^ 14)) (64 * ((k + 1) * 2 ^ 14))
    poison := smDrop m.poison (k * 2 ^ 14) ((k + 1) * 2 ^ 14)
    owner := smDrop m.owner (k * 2 ^ 14) ((k + 1) * 2 ^ 14)
    scram := smDrop m.scram k (k + 1) } = true := by
  rw [Memory.wf_iff] at h ⊢
  obtain ⟨hrising, hlisted, hpoison, hscram, howner⟩ := h
  refine ⟨smFilter_rising hrising _, fun e he => ?_, smDrop_wf hpoison .., smDrop_wf hscram .., smDrop_wf howner ..⟩
  rw [smDrop, List.mem_filter] at he
  obtain ⟨hmem, hout⟩ := he
  have hother : ¬(k ≤ e.1 / 2 ^ 20 ∧ e.1 / 2 ^ 20 < k + 1) := by
    simp only [Bool.not_eq_true', Bool.and_eq_false_iff, decide_eq_false_iff_not, not_le, not_lt] at hout
    omega
  have hdef := hlisted e hmem
  simp only [cellDef, smGet_smDrop, if_neg hother] at hdef ⊢
  exact hdef

theorem Keeps.zeroBank (h : Keeps o s) (u bank : Nat) : Keeps o (Machine.zeroBank s u bank) := by
  unfold Machine.zeroBank
  extract_lets d
  split
  · exact h.of_mem (zeroBank_wf · _) rfl rfl rfl rfl
  · exact .forEach (fun _ _ h1 => h1.emptyPlane ..) h _
  · exact h.setEngine ..

theorem Keeps.bstDrainEnd (h : Keeps o s) : Keeps o (Machine.bstDrainEnd s) := .setFld (.setFld h ..) ..

theorem Keeps.unitIdle (h : Keeps o s) (u : Nat) : Keeps o (Machine.unitIdle s u) :=
  .ite (.bstDrainEnd (.setUnit (.setBst h ..) ..) ..) (.setUnit (.setBst h ..) ..)

theorem Keeps.unitDone (h : Keeps o s) (u : Nat) : Keeps o (Machine.unitDone s u) := .unitIdle (.raise h ..) ..

theorem Keeps.startBank (h : Keeps o s) (u n b : Nat) : Keeps o (Machine.startBank u n s b) := by
  induction n generalizing s b with
  | zero => exact h.unitDone _
  | succ n ih =>
    exact .ite (h.unitDone _) (.ite (.setUnit (h.setFld ..) ..) (.ite (ih (h.queueRec ..) _) (.setUnit (h.setFld ..) ..)))

theorem Keeps.bstGo (h : Keeps o s) (u : Nat) (alg mode : Bool) (bg first last : Nat) : Keeps o (Machine.bstGo s u alg mode bg first
    last) :=
  .ite (.raise (.setFld h ..) ..) (.startBank (.setBst (.setFld (.setFld (.setFld (.setFld (.setFld h ..) ..) ..) ..) ..) ..) ..)

theorem Keeps.copyDone (h : Keeps o s) (u : Nat) : Keeps o (Machine.copyDone s u) := .ite (.setUnit h ..) h

theorem Keeps.bankDone (h : Keeps o s) (u : Nat) : Keeps o (Machine.bankDone s u) := .ite (.unitIdle h ..) (.startBank h ..)

theorem Keeps.passesDone (h : Keeps o s) (u : Nat) : Keeps o (Machine.passesDone s u) :=
  .ite (.bankDone (.zeroBank h ..) ..) (.setUnit h ..)

theorem Keeps.passFails (h : Keeps o s) (u : Nat) (l : List (BitVec 8 × BitVec 14 × BitVec 15)) : Keeps o (Machine.passFails s u l) :=
  .ite (.forEach (fun _ _ h1 => (.bankFailures h1 ..)) h ..) (.bankFailures h ..)

theorem Keeps.startupCheck (h : Keeps o s) : Keeps o (Machine.startupCheck s) := .ite (.setFld h ..) h

theorem Keeps.startupEnd (h : Keeps o s) (u : Nat) : Keeps o (Machine.startupEnd s u) :=
  .startupCheck (.unitDone (.setBst (.forEach (fun _ _ h1 => (.zeroBank h1 ..)) h ..) ..) ..) ..

theorem Keeps.marchEnd (h : Keeps o s) (u : Nat) : Keeps o (Machine.marchEnd s u) := .ite (.startupEnd h ..) (.passesDone h ..)

theorem Keeps.marchPassEnd (h : Keeps o s) (u : Nat) (l : List (BitVec 8 × BitVec 14 × BitVec 15)) : Keeps o (Machine.marchPassEnd s u
    l) :=
  .ite h (.ite (.setUnit (.passFails h ..) ..) (.marchEnd (.passFails h ..) ..))

theorem Keeps.remarchEnd (h : Keeps o s) (u : Nat) (l : List (BitVec 8 × BitVec 14 × BitVec 15)) : Keeps o (Machine.remarchEnd s u l) :=
  .ite (.marchEnd (.passFails h ..) ..) h

theorem Keeps.restoreDone (h : Keeps o s) (u : Nat) : Keeps o (Machine.restoreDone s u) := .ite (.bankDone h ..) h

theorem Keeps.resultRead (h : Keeps o s) : Keeps o (Machine.resultRead s) := .setFld (.setBst h ..) ..

theorem Keeps.bstDisable (h : Keeps o s) : Keeps o (Machine.bstDisable s) := .ite h (.ite (.setFld h ..) (.setFld h ..))

theorem Keeps.startupStop (h : Keeps o s) (u : Nat) : Keeps o (Machine.startupStop s u) :=
  .startupCheck (.unitIdle (.setBst (.forEach (fun _ _ h1 => (.zeroBank h1 ..)) h ..) ..) ..) ..

theorem Keeps.unitHalt (h : Keeps o s) (u : Nat) : Keeps o (Machine.unitHalt s u) :=
  .ite h (.ite (.startupStop h ..) (.ite (.unitIdle (.forEach (fun _ _ h1 => (.zeroBank h1 ..)) h ..) ..) (.setUnit (.setBst h ..) ..)))

theorem Keeps.bstReset (h : Keeps o s) : Keeps o (Machine.bstReset s) :=
  .setFld (.setBst (.setFld (.setFld (.forEach (fun _ _ h1 => (.setUnit (.setFld h1 ..) ..)) (.resetBlockRegs (.forEach (fun _ _ h1 =>
    (.unitHalt h1 ..)) h ..) ..) ..) ..) ..) ..) ..

theorem Keeps.claimEntries (h : Keeps o s) : Keeps o (Machine.claimEntries s) :=
  .forEach (fun _ _ h1 => (.ite (.satInc (.raise h1 ..) ..) (.setBst h1 ..))) (.setFld (.setFld (.setBst h ..) ..) ..) ..

theorem Keeps.applyEntry (h : Keeps o s) (r : Nat) : Keeps o (Machine.applyEntry s r) := .setBst (.ite (.setBst h ..) h) ..

/-! ### IsaSys -/

theorem Keeps.csrSide (h : Keeps o s) (n t c : Nat) : Keeps o (Machine.csrSide s n t c) := by
  unfold Machine.csrSide
  split
  exacts [(.setEngine h ..), (.setFlg (.setEngine h ..) ..), h]

theorem Keeps.csrSet (h : Keeps o s) (n t c fn v : Nat) : Keeps o (Machine.csrSet s n t c fn v) := by
  unfold Machine.csrSet
  split
  exacts [(.setFlg h ..), (.ite (.setThread h ..) h), (.ite (.setThread h ..) h), (.setFld h ..), (.ite h (.setNotify h ..)),
    (.setThread h ..), (.setThread h ..), (.setThread h ..), (.setThread h ..), (.setThread h ..),
    (by split; exacts [(.setFld h ..), (.setFld h ..), h])]

theorem Keeps.csrRead (h : Keeps o s) (n t rd c : Nat) : Keeps o (Machine.csrRead n t rd c s) :=
  .issue h (fun _ h1 => (.ite (.nextInstr (.setG (.csrSide h1 ..) ..) ..) (.faultThread h1 ..))) ..

theorem Keeps.csrWrite (h : Keeps o s) (n t rd rs1 fn c : Nat) : Keeps o (Machine.csrWrite n t rd rs1 fn c s) :=
  .issue h (fun _ h1 => (.ite (.faultThread h1 ..) (.nextInstr (.csrSet h1 ..) ..))) ..

theorem Keeps.waitFor (h : Keeps o s) (n t mask : Nat) : Keeps o (Machine.waitFor s n t mask) :=
  .ite (.faultThread h ..) (.ite (.nextInstr (.setFld h ..) ..) (.setThrState (.setThread (.setFld h ..) ..) ..))

theorem Keeps.fenceOp (h : Keeps o s) (n t : Nat) : Keeps o (Machine.fenceOp s n t) := .ite (.setThread h ..) (.nextInstr h ..)

theorem Keeps.brkOp (h : Keeps o s) (n t : Nat) : Keeps o (Machine.brkOp s n t) := .ite (.halt h ..) (.faultThread h ..)

theorem Keeps.srdOp (h : Keeps o s) (n t rd k : Nat) : Keeps o (Machine.srdOp s n t rd k) :=
  .ite (.endStream h ..) (.ite (.setThread h ..) (.takeWord h ..))

theorem Keeps.swrOp (h : Keeps o s) (n t k w : Nat) : Keeps o (Machine.swrOp s n t k w) :=
  .ite (.endStream h ..) (.ite (.setThread h ..) (.giveWord h ..))

theorem Keeps.ttcOp (h : Keeps o s) (n t rd : Nat) : Keeps o (Machine.ttcOp s n t rd) :=
  .engPump (.nextInstr (.setFlg (.setG (.setTt h ..) ..) ..) ..) ..

/-! ### SignalBox -/

theorem Keeps.setSbx (h : Keeps o s) (x : Sbx) : Keeps o (Machine.setSbx s x) := .other h

theorem Keeps.putMb (h : Keeps o s) (i v : Nat) : Keeps o (Machine.putMb s i v) := .setFld h ..

theorem Keeps.doorbell (h : Keeps o s) : Keeps o (Machine.doorbell s) := .ite (.satInc h ..) (.setFld h ..)

theorem Keeps.withReq {s f : State} (h : Keeps o s) (h'1 : Keeps o f) (cmd : Nat) : Keeps o (Machine.withReq s cmd f) :=
  .ite h (by split; exacts [(.sbxReply h ..), h'1])

theorem Keeps.getInfo (h : Keeps o s) : Keeps o (Machine.getInfo s) := .withReq h (by split <;> exact (.sbxReply h ..)) ..

theorem Keeps.getSensors (h : Keeps o s) : Keeps o (Machine.getSensors s) := .withReq h (.sbxReply h ..) ..

theorem Keeps.logReply (h : Keeps o s) (first : Nat) (l : List LogRec) (gap : Bool) : Keeps o (Machine.logReply s first l gap) :=
  .sbxReply h ..

theorem Keeps.readSram (h : Keeps o s) (from_ m : Nat) : Keeps o (Machine.readSram s from_ m) := by
  unfold Machine.readSram
  split
  exacts [(.logReply h ..), (.ite (.logReply h ..) (.logReply h ..))]

theorem Keeps.readMirror (h : Keeps o s) (from_ m : Nat) : Keeps o (Machine.readMirror s from_ m) := .logReply h ..

theorem Keeps.readLog (h : Keeps o s) : Keeps o (Machine.readLog s) :=
  .withReq h (.ite (.sbxReply h ..) (.ite (.sbxReply h ..) (.ite (.readSram h ..) (.readMirror h ..)))) ..

theorem Keeps.attest (h : Keeps o s) : Keeps o (Machine.attest s) := .withReq h (.ite (.sbxReply h ..) (.sbxReply h ..)) ..

theorem Keeps.setSlot (h : Keeps o s) (k : Nat) (l : List Byte) : Keeps o (Machine.setSlot s k l) := .setSbx h ..

theorem Keeps.setUpdate (h : Keeps o s) (u : Option Update) : Keeps o (Machine.setUpdate s u) := .setFld (.setSbx h ..) ..

theorem Keeps.updateBegin (h : Keeps o s) : Keeps o (Machine.updateBegin s) :=
  .withReq h (.ite (.sbxReply h ..) (.ite (.sbxReply h ..) (.sbxReply (.setUpdate (.setSlot h ..) ..) ..))) ..

theorem Keeps.updateChunk (h : Keeps o s) (bad : Bool) : Keeps o (Machine.updateChunk s bad) :=
  .withReq h (by split; exacts [(.sbxReply h ..), (.ite (.sbxReply h ..) (.ite (.sbxReply h ..) (.sbxReply (.setUpdate h ..) ..)))]) ..

theorem Keeps.updateCommit (h : Keeps o s) : Keeps o (Machine.updateCommit s) :=
  .withReq h
    (by split; exacts [(.sbxReply h ..), (.ite (.sbxReply h ..) (.ite (.sbxReply (.setUpdate h ..) ..) (.sbxReply (.setSbx (.setUpdate (.setSlot (.raise h ..) ..) ..) ..) ..)))])
    ..

theorem Keeps.setOp (h : Keeps o s) : Keeps o (Machine.setOp s) :=
  .withReq h (.ite (.sbxReply h ..) (.ite (.sbxReply h ..) (.ite (.ite h (.sbxReply h ..)) (.ite (.sbxReply h ..) (.ite (.sbxReply h ..)
    (.opBegin h ..)))))) ..

theorem Keeps.setShadow (h : Keeps o s) (f v : Nat) : Keeps o (Machine.setShadow s f v) := .setSbx h ..

theorem Keeps.burn (h : Keeps o s) (f c v : Nat) (good : Bool) : Keeps o (Machine.burn s f c v good) :=
  .setShadow (.setSbx h ..) ..

theorem Keeps.fieldEffect (h : Keeps o s) (f : Nat) : Keeps o (Machine.fieldEffect s f) :=
  .ite (.setFld (.showKeys h ..) ..) (.showKeys h ..)

theorem Keeps.disarm (h : Keeps o s) : Keeps o (Machine.disarm s) := .setSbx h ..

theorem Keeps.programField (h : Keeps o s) (f v : Nat) (good : Bool) : Keeps o (Machine.programField s f v good) := by
  unfold Machine.programField
  split
  exacts [(.sbxReply h ..), (.ite (.sbxReply (.raise (.fieldEffect (.burn h ..) ..) ..) ..) (.sbxReply (.fieldEffect (.burn h ..) ..)
    ..))]

theorem Keeps.programSvn (h : Keeps o s) (v : Nat) (good : Bool) : Keeps o (Machine.programSvn s v good) :=
  .ite (.sbxReply h ..) (.ite (.sbxReply h ..) (.ite (.sbxReply (.raise (.setSbx h ..) ..) ..) (.sbxReply (.ite h (.setSbx h ..)) ..)))

theorem Keeps.programRepair (h : Keeps o s) (r : Nat) (good : Bool) : Keeps o (Machine.programRepair s r good) :=
  .ite (.sbxReply h ..) (.ite (.sbxReply h ..) (.ite (.sbxReply (.raise (.applyEntry (.setFld (.setSbx h ..) ..) ..) ..) ..) (.sbxReply
    (.setFld (.setSbx h ..) ..) ..)))

theorem Keeps.fuseProgram (h : Keeps o s) (good : Bool) : Keeps o (Machine.fuseProgram s good) :=
  .withReq h (.ite (.sbxReply h ..) (.ite (.sbxReply h ..) (.ite (.sbxReply h ..) (.ite (.sbxReply h ..) (.ite (.programSvn (.disarm h
    ..) ..) (.ite (.programRepair (.disarm h ..) ..) (.programField (.disarm h ..) ..))))))) ..

theorem Keeps.slotChange (h : Keeps o s) (k act f v : Nat) (good : Bool) : Keeps o (Machine.slotChange s k act f v good) := by
  unfold Machine.slotChange
  dsimp only
  split
  exacts [(.sbxReply (.setSbx h ..) ..), (.ite (.sbxReply (.raise (.showKeys (.burn (.setSbx h ..) ..) ..) ..) ..) (.sbxReply (.showKeys
    (.burn (.setSbx h ..) ..) ..) ..))]

theorem Keeps.keyDisarm (h : Keeps o s) : Keeps o (Machine.keySlotReq.keyDisarm s) := .ite h (.disarm h ..)

theorem Keeps.keySlotReq (h : Keeps o s) (act : Nat) (good : Bool) : Keeps o (Machine.keySlotReq s act good) :=
  .withReq h (.ite h (.ite (.sbxReply h ..) (.ite (.sbxReply (.disarm h ..) ..) (.ite (.setSbx h ..) (.ite (.slotChange (.keyDisarm h
    ..) ..) (.slotChange (.keyDisarm h ..) ..)))))) ..

theorem Keeps.fuseArm (h : Keeps o s) (v : Nat) : Keeps o (Machine.fuseArm s v) := .ite (.setSbx h ..) h

theorem Keeps.newNonce (h : Keeps o s) : Keeps o (Machine.newNonce s) := .setSbx (.drawn h ..) ..

theorem Keeps.respond0 (h : Keeps o s) (sel : Bool) (sig pub : Nat) : Keeps o (Machine.respond0 s sel sig pub).2.2 :=
  .iteSnd2 h
    (by split; exacts [(.raise h ..), (by split; exacts [(.iteSnd2 (.setFld (.raise (.setSbx h ..) ..) ..) (.raise (.setSbx h ..) ..)), (.raise (.setSbx h ..) ..)])])

theorem Keeps.unlockNonce (h : Keeps o s) : Keeps o (Machine.unlockNonce s) :=
  .withReq h (.ite h (.sbxReply (.newNonce h ..) ..)) ..

theorem Keeps.unlockRespond (h : Keeps o s) : Keeps o (Machine.unlockRespond s) :=
  .withReq h (.ite h (.sbxReply (.respond0 h ..) ..)) ..

theorem Keeps.mbDone (h : Keeps o s) : Keeps o (Machine.mbDone s) :=
  .setFld (.setFld (.pendVec (.setSbx (.ite (.setFld (.setFld h ..) ..) h) ..) ..) ..) ..

theorem Keeps.writeResp (h : Keeps o s) (r : MbResp) : Keeps o (Machine.writeResp s r) :=
  .foldl (fun _ _ h1 => (.putMb h1 ..)) (.putMb (.putMb (.putMb (.putMb h ..) ..) ..) ..) _

theorem Keeps.startFromRom (h : Keeps o s) : Keeps o (Machine.startFromRom s) :=
  .setFld (.setFld (.setFld (.setUpdate (.setSbx h ..) ..) ..) ..) ..

theorem Keeps.sbxResponse (h : Keeps o s) : Keeps o (Machine.sbxResponse s) :=
  .ite h
    (by split; exacts [(.ite (.startFromRom (.mbDone (.writeResp h ..) ..) ..) (.mbDone (.writeResp h ..) ..)), (by split; exacts [(.mbDone (.writeResp h ..) ..), h])])

theorem Keeps.sbxRestart (h : Keeps o s) : Keeps o (Machine.sbxRestart s) :=
  .startFromRom (.ite (.mbDone (.writeResp h ..) ..) h) ..

theorem Keeps.sbxBlockReset (h : Keeps o s) : Keeps o (Machine.sbxBlockReset s) :=
  .setFld (.setFld (.setFld (.setFld (.setFld (.disarm (.sbxRestart h ..) ..) ..) ..) ..) ..) ..

theorem Keeps.runSlot (h : Keeps o s) (k : Nat) (fallback : Bool) : Keeps o (Machine.runSlot s k fallback) :=
  .setFld (.setFld (.setFld (.raise (.ite (.raise (.setSbx h ..) ..) h) ..) ..) ..) ..

theorem Keeps.sbxBoot (h : Keeps o s) : Keeps o (Machine.sbxBoot s) :=
  .ite h (.ite (.runSlot (.setSbx h ..) ..) (.ite (.runSlot (.setSbx h ..) ..) (.ite (.runSlot (.setSbx h ..) ..) (.setFld (.setFld
    (.setFld (.raise (.setSbx h ..) ..) ..) ..) ..))))

theorem Keeps.trialTimeout (h : Keeps o s) (cleared : Bool) : Keeps o (Machine.trialTimeout s cleared) :=
  .ite h (.ite (.setFld (.setSbx h ..) ..) (.setSbx h ..))

theorem Keeps.fwHang (h : Keeps o s) : Keeps o (Machine.fwHang s) :=
  .ite h (.sbxBlockReset (.raise (.ite (.setSbx h ..) h) ..) ..)

theorem Keeps.mirrorCopy (h : Keeps o s) : Keeps o (Machine.mirrorCopy s) := by
  unfold Machine.mirrorCopy
  refine .ite h ?_
  split
  · exact h
  next r t heq =>
    have ht : Keeps o { s with mirrorQ := t } := by
      refine ⟨h.1, fun ho => ?_⟩
      obtain ⟨hlen, hmirror, hseq⟩ := h.2 ho
      refine ⟨hlen, ?_, hseq⟩
      rw [heq, List.length_cons] at hmirror
      exact Nat.le_of_succ_le hmirror
    exact .ite (.raise (ht.setSbx _) ..) (ht.setSbx _)

theorem Keeps.mergeWindowEnd (h : Keeps o s) (code scope : Nat) : Keeps o (Machine.mergeWindowEnd s code scope) := by
  unfold Machine.mergeWindowEnd
  split
  exacts [h, (.ite (.other h) (.other (.writeEvent h ..)))]

theorem Keeps.sbxDisable (h : Keeps o s) : Keeps o (Machine.sbxDisable s) := .ite h (.ite (.setFld h ..) (.setFld h ..))

theorem Keeps.wdogKick (h : Keeps o s) (v : Nat) : Keeps o (Machine.wdogKick s v) :=
  .ite h (.ite (.setFld (.setSbx h ..) ..) (.satInc h ..))

theorem Keeps.wdogWarn (h : Keeps o s) : Keeps o (Machine.wdogWarn s) := .ite (.setFld (.raise h ..) ..) h

/-! ### Debug -/

theorem Keeps.setDbg (h : Keeps o s) (x : Dbg) : Keeps o (Machine.setDbg s x) := .other h

theorem Keeps.loadIr (h : Keeps o s) (code k : Nat) : Keeps o (Machine.loadIr s code k) :=
  .ite (.raise (.setDbg h ..) ..) (.setDbg h ..)

theorem Keeps.scanBoundary (h : Keeps o s) (data : Nat) : Keeps o (Machine.scanBoundary s data) := .setDbg (.drawn h ..) ..

theorem Keeps.scanBypass (h : Keeps o s) : Keeps o (Machine.scanBypass s) := .setDbg h ..

theorem Keeps.tapReset (h : Keeps o s) : Keeps o (Machine.tapReset s) := .setDbg h ..

theorem Keeps.scanHold (h : Keeps o s) (code k data : Nat) : Keeps o (Machine.scanHold s code k data) :=
  .ite (.scanBypass (.loadIr h ..) ..) (.scanBoundary (.loadIr h ..) ..)

theorem Keeps.dbgAccess (h : Keeps o s) (data addr be : Nat) (write go : Bool) : Keeps o (Machine.dbgAccess s data addr be write go) :=
  .ite (.setDbg (.loadIr h ..) ..) (.ite (.setDbg (.setDbg (.loadIr h ..) ..) ..) (.setDbg (.setDbg (.loadIr h ..) ..) ..))

theorem Keeps.dropDebug (h : Keeps o s) : Keeps o (Machine.dropDebug s) := .other h

theorem Keeps.unlockScan (h : Keeps o s) : Keeps o (Machine.unlockScan s) := .setDbg (.loadIr h ..) ..

theorem Keeps.tapRespond (h : Keeps o s) (sel : Bool) (sig pub : Nat) : Keeps o (Machine.tapRespond s sel sig pub) :=
  .ite (.unlockScan h ..) (.setSbx (.setDbg (.unlockScan h ..) ..) ..)

theorem Keeps.unlockVerified (h : Keeps o s) : Keeps o (Machine.unlockVerified s) := by
  unfold Machine.unlockVerified
  split
  exacts [h, (.setDbg (.setSbx (.respond0 (.setSbx h ..) ..) ..) ..)]

theorem Keeps.resumeThread (h : Keeps o s) (n t : Nat) : Keeps o (Machine.resumeThread s n t) :=
  .ite (.setHalted (.setThread h ..) ..) h

theorem Keeps.stepThread (h : Keeps o s) (n t : Nat) : Keeps o (Machine.stepThread s n t) :=
  .ite (.setHalted (.setThread h ..) ..) h

theorem Keeps.freezeNow (h : Keeps o s) (r : Nat) : Keeps o (Machine.freezeNow s r) := .raise (.setFld h ..) ..

theorem Keeps.dropStart (h : Keeps o s) (r : Nat) : Keeps o (Machine.dropStart s r) := .r8Withdraw h ..

theorem Keeps.freezeAsleep (h : Keeps o s) (r : Nat) : Keeps o (Machine.freezeAsleep s r) :=
  .freezeNow (.dropStart (.setRegion (.setFld (.setFld h ..) ..) ..) ..) ..

theorem Keeps.regionFreeze (h : Keeps o s) (r : Nat) : Keeps o (Machine.regionFreeze s r) :=
  .ite h (.ite (.dropStart (.setFld h ..) ..) (.ite (.freezeAsleep (.setFld h ..) ..) (.setRegion (.setFld h ..) ..)))

theorem Keeps.freezeEdge (h : Keeps o s) (r : Nat) : Keeps o (Machine.freezeEdge s r) :=
  .ite h (.ite (.freezeAsleep h ..) (.ite (.freezeNow (.clock0Edge h ..) ..) h))

theorem Keeps.regionUnfreeze (h : Keeps o s) (r : Nat) : Keeps o (Machine.regionUnfreeze s r) :=
  .ite (.r8Request (.setFld h ..) ..) (.setFld h ..)

theorem Keeps.regionPulse (h : Keeps o s) (r n : Nat) : Keeps o (Machine.regionPulse s r n) := .ite h (.r8Request h ..)

theorem Keeps.edgesDone (h : Keeps o s) (r : Nat) : Keeps o (Machine.edgesDone s r) :=
  .ite (.setDbg (.satAdd (.setFld (.forEach (fun _ _ h1 => (.clock0Edge h1 ..)) h ..) ..) ..) ..) h

theorem Keeps.regionCapture (h : Keeps o s) (r : Nat) : Keeps o (Machine.regionCapture s r) :=
  .ite (.setFld (.setFld h ..) ..) (.setFld h ..)

theorem Keeps.frameWrite (h : Keeps o s) (a f : Nat) : Keeps o (Machine.frameWrite s a f) :=
  .raise (.setFld (.setRegion (.writeFrame (.ite (.makeClaims h ..) h) ..) ..) ..) ..

theorem Keeps.frameEnd (h : Keeps o s) (st fst_ : Nat) : Keeps o (Machine.frameEnd s st fst_) :=
  .setFld (.setFld (.setFld (.setFld h ..) ..) ..) ..

theorem Keeps.frameGo (h : Keeps o s) : Keeps o (Machine.frameGo s) :=
  .ite (.frameEnd h ..) (.ite (.setFld h ..) (.ite (.frameEnd (.ite (.satInc h ..) h) ..) (.frameEnd (.frameWrite h ..) ..)))

theorem Keeps.resumeAll (h : Keeps o s) : Keeps o (Machine.resumeAll s) :=
  .forEach (fun _ _ h1 => (.forEach (fun _ _ h2 => (.setHaltPending (.resumeThread h2 ..) ..)) h1 ..)) h ..

theorem Keeps.unfreezeAll (h : Keeps o s) : Keeps o (Machine.unfreezeAll s) :=
  .forEach (fun _ _ h1 => (.ite (.regionUnfreeze h1 ..) h1)) h ..

theorem Keeps.dbgDrainEnd (h : Keeps o s) : Keeps o (Machine.dbgDrainEnd s) := .setFld (.setFld h ..) ..

theorem Keeps.dbgDisable (h : Keeps o s) : Keeps o (Machine.dbgDisable s) :=
  .ite h (.ite (.dbgDrainEnd (.unfreezeAll (.resumeAll h ..) ..) ..) (.setFld (.unfreezeAll (.resumeAll h ..) ..) ..))

theorem Keeps.dbgReset (h : Keeps o s) : Keeps o (Machine.dbgReset s) :=
  .forEach (fun _ _ h1 => (.setFld (.setFld h1 ..) ..)) (.setFld (.resetBlockRegs (.unfreezeAll (.resumeAll h ..) ..) ..) ..) ..

/-! ### Pcie -/

theorem Keeps.setPci (h : Keeps o s) (x : Pci) : Keeps o (Machine.setPci s x) := .other h

theorem Keeps.complete (h : Keeps o s) (st : CplSt) (ep : Bool) (len data : Nat) : Keeps o (Machine.complete s st ep len data) :=
  .setPci h ..

theorem Keeps.refuse (h : Keeps o s) (st : CplSt) : Keeps o (Machine.refuse s st) := .complete h ..

theorem Keeps.pciLink (h : Keeps o s) (speed width : Nat) : Keeps o (Machine.pciLink s speed width) :=
  .ite h (.ite (.setPci (.setFld (.setFld (.setFld h ..) ..) ..) ..) (.raise (.setPci (.setFld (.setFld (.setFld h ..) ..) ..) ..) ..))

theorem Keeps.l1Entry (h : Keeps o s) : Keeps o (Machine.l1Entry s) := .ite (.setPci h ..) h

theorem Keeps.d3Enter (h : Keeps o s) : Keeps o (Machine.d3Enter s) :=
  .ite h (.bmeClear (.setFld (.setPciFn (.raise h ..) ..) ..) ..)

theorem Keeps.d0Return (h : Keeps o s) : Keeps o (Machine.d0Return s) :=
  .ite h (.ite (.bmeSet (.setFld (.setPciFn h ..) ..) ..) (.setFld (.setPciFn h ..) ..))

theorem Keeps.ctlWrite (h : Keeps o s) (f c v : Nat) : Keeps o (Machine.ctlWrite s f c v) := .setPciFn h ..

theorem Keeps.barWrite (h : Keeps o s) (f k v : Nat) : Keeps o (Machine.barWrite s f k v) := .ite h (.setPciFn h ..)

theorem Keeps.ptmWrite (h : Keeps o s) (b : Bool) : Keeps o (Machine.ptmWrite s b) :=
  .ite (.setPci h ..) (.setFld (.setPci h ..) ..)

theorem Keeps.cfgWrite (h : Keeps o s) (f v : Nat) (x : CfgReg) : Keeps o (Machine.cfgWrite s f v x) := by
  unfold Machine.cfgWrite
  split
  exacts [(.ite (.hostBme (.setPciFn h ..) ..) (.setPciFn (.setPciFn h ..) ..)), (.barWrite h ..), (.setPciFn h ..), (.ite h (.ite
    (.setPciFn h ..) (.ite (.d3Enter h ..) (.d0Return h ..)))), (.ctlWrite h ..), (.ctlWrite h ..), (.ite (.ctlWrite h ..) h), (.ite
    (.ctlWrite h ..) h), (.ite (.ptmWrite h ..) h), (.ite (.setPciFn h ..) h), h]

theorem Keeps.configRequest (h : Keeps o s) (f : Nat) (reg : CfgReg) (write : Bool) (v : Nat) : Keeps o (Machine.configRequest s f reg
    write v) :=
  .ite h (.ite (.refuse h ..) (.ite (.refuse h ..) (.ite (.refuse (.cfgWrite h ..) ..) (.complete h ..))))

theorem Keeps.endpointReady (h : Keeps o s) : Keeps o (Machine.endpointReady s) := .ite h (.setPci h ..)

theorem Keeps.bar2Part (h : Keeps o s) (off n : Nat) (x : BitVec 560 × List (BitVec 560) × Fin 5) : Keeps o (Machine.bar2Part s off n x)
    := by
  unfold Machine.bar2Part
  dsimp only
  split
  exacts [(.memRead h ..), (.complete (.memRead h ..) ..)]

theorem Keeps.bar2Read (h : Keeps o s) (off n : Nat) (xs : List (BitVec 560 × List (BitVec 560) × Fin 5)) : Keeps o (Machine.bar2Read s
    off n xs) :=
  .ite h (.ite (.refuse h ..) (.ite (.refuse h ..) (.ite h (.forEach (fun _ _ h1 => (.bar2Part h1 ..)) h ..))))

theorem Keeps.bar2Err (h : Keeps o s) (off st : Nat) : Keeps o (Machine.bar2Err s off st) :=
  .ite (.raise h ..) (.setFld (.setFld (.setFld (.raise h ..) ..) ..) ..)

theorem Keeps.bar2Store (h : Keeps o s) (off n be data flips : Nat) (wire : List Nat) (busy : Bool) : Keeps o (Machine.bar2Store s off n
    be data flips wire busy).2 :=
  .memWrite h ..

theorem Keeps.bar2Stores (h : Keeps o s) (be data flips : Nat) (wire : List Nat) (busy : Bool) (o0 : Nat) (l : List (Nat × Nat))
    (st : Nat) : Keeps o (Machine.bar2Stores be data flips wire busy o0 l st s).2 := by
  induction l generalizing s st with
  | nil => exact h
  | cons x t ih => exact ih (h.bar2Store ..) _

theorem Keeps.bar2Write (h : Keeps o s) (off n be data : Nat) (ep : Bool) (flips : Nat) (wire : List Nat) (busy : Bool) : Keeps o
    (Machine.bar2Write s off n be data ep flips wire busy) :=
  .ite h (.ite (.setPciFn h ..) (.ite (.bar2Err h ..) (.ite h (.ite (.bar2Stores h ..) (.bar2Err (.bar2Stores h ..) ..)))))

theorem Keeps.ufDisc (h : Keeps o s) : Keeps o (Machine.ufDisc s) := .raiseMerged (.satInc h ..) ..

theorem Keeps.ufRefuse (h : Keeps o s) (write : Bool) (st : CplSt) : Keeps o (Machine.ufRefuse s write st) :=
  .ufDisc (.ite h (.refuse h ..)) ..

theorem Keeps.msixAccess (h : Keeps o s) (f size off n : Nat) (write : Bool) (be data : Nat) : Keeps o (Machine.msixAccess s f size off
    n write be data) :=
  .ite (.setPciFn h ..) (.complete h ..)

theorem Keeps.ufRequest (h : Keeps o s) (f : Nat) (bar2 : Bool) (off n : Nat) (write : Bool) (be data : Nat) : Keeps o
    (Machine.ufRequest s f bar2 off n write be data) :=
  .ite h (.ite (.ite (.ufDisc h ..) (.refuse h ..)) (.ite (.ite h (.refuse h ..)) (.ite (.msixAccess h ..) (.ite (.ufRefuse h ..) (.ite
    h (.ite (.setPci h ..) (by split; exacts [h, (.setPci h ..)])))))))

theorem Keeps.pciDrainEnd (h : Keeps o s) : Keeps o (Machine.pciDrainEnd s) := .setFld (.setFld h ..) ..

theorem Keeps.ufCompletion (h : Keeps o s) (f tag : Nat) (ok : Bool) (data : Nat) : Keeps o (Machine.ufCompletion s f tag ok data) := by
  unfold Machine.ufCompletion
  split
  exacts [h, (.ite h (.ite (.setPci h ..) (.ite (.complete (.setPci h ..) ..) (.refuse (.setPci h ..) ..))))]

theorem Keeps.ufTimeout (h : Keeps o s) (f tag : Nat) : Keeps o (Machine.ufTimeout s f tag) := by
  unfold Machine.ufTimeout
  split
  exacts [h, (.ufDisc (.refuse (.setPci h ..) ..) ..)]

theorem Keeps.ufMsix (h : Keeps o s) (f v : Nat) : Keeps o (Machine.ufMsix s f v) := .ite h (.setPciFn h ..)

theorem Keeps.sendVec0 (h : Keeps o s) (v : Nat) : Keeps o (Machine.sendVec0 s v) := .ite (.postHost (.setFld h ..) ..) h

theorem Keeps.sendVecUf (h : Keeps o s) (f v : Nat) : Keeps o (Machine.sendVecUf s f v) := .ite (.postHost (.setPciFn h ..) ..) h

theorem Keeps.pciDisable (h : Keeps o s) : Keeps o (Machine.pciDisable s) := .ite h (.ite (.pciDrainEnd h ..) (.setFld h ..))

theorem Keeps.pciRegsReset (h : Keeps o s) : Keeps o (Machine.pciRegsReset s) :=
  .setPci (.forEach (fun _ _ h1 => h1.setPciFn ..) (.setFld (.setFld (.setFld (h.resetBlockRegs _) ..) ..) ..) _) _

theorem Keeps.pciReset (h : Keeps o s) : Keeps o (Machine.pciReset s) :=
  .setFld (.setFld (.setFld (.deadlineClear (.pciRegsReset (.bmeClear h))) ..) ..) ..

theorem Keeps.hostReset (h : Keeps o s) (kind : Nat) : Keeps o (Machine.hostReset s kind) :=
  .cfgHostReset (.setFld (.setFld (.setFld (.setFld (.setFld (.hostSideReset (.setPci (.raise (.satInc (.pciRegsReset h ..) ..) ..) ..)
    ..) ..) ..) ..) ..) ..) ..

/-! ### Reset -/

theorem Keeps.setRst (h : Keeps o s) (x : Rst) : Keeps o (Machine.setRst s x) := .other h

theorem Keeps.setCause (h : Keeps o s) (src qual eng : Nat) : Keeps o (Machine.setCause s src qual eng) :=
  .setFld (.setFld (.setFld h ..) ..) ..

theorem Keeps.raiseCause (h : Keeps o s) (src qual eng : Nat) : Keeps o (Machine.raiseCause s src qual eng) := .raise h ..

theorem Keeps.assertCause (h : Keeps o s) (src qual eng : Nat) : Keeps o (Machine.assertCause s src qual eng) :=
  .setCause (.raiseCause h ..) ..

theorem Keeps.serveEngine (h : Keeps o s) (n : Nat) : Keeps o (Machine.serveEngine s n) := .ite h (.engWake (.setEngine h ..) ..)

theorem Keeps.serveRegion (h : Keeps o s) (r : Nat) : Keeps o (Machine.serveRegion s r) :=
  .ite h (.regionWake (.setRegion h ..) ..)

theorem Keeps.wakeDone (h : Keeps o s) : Keeps o (Machine.wakeDone s) :=
  .forEach (fun _ _ h1 => (.serveRegion h1 ..)) (.forEach (fun _ _ h1 => (.serveEngine h1 ..)) (.ite (.setFld (.ite (.raise (.other
    (.setFld (.setFld (.setFld h ..) ..) ..)) ..) (.setThm (.raise (.other (.setFld (.setFld (.setFld h ..) ..) ..)) ..) ..)) ..) (.ite
    (.raise (.other (.setFld (.setFld (.setFld h ..) ..) ..)) ..) (.setThm (.raise (.other (.setFld (.setFld (.setFld h ..) ..) ..)) ..)
    ..))) ..) ..

theorem Keeps.carry {t : State} (h'1 : Keeps o t) (s : State) (fs : List Fld) : Keeps o (Machine.carry s fs t) :=
  .foldl (fun _ _ h1 => (.setFld h1 ..)) h'1 _

theorem Keeps.lockFromFuses (h : Keeps o s) : Keeps o (Machine.lockFromFuses s) := .setFld h ..

/-- Of a reset with the reach of PIN stay the memory and the log. -/
theorem Keeps.pinBase (h : Keeps o s) : Keeps o (Machine.pinBase s) := by
  refine ⟨fun ho => ⟨rfl, rfl, ?_⟩, h.2⟩
  obtain ⟨-, -, hmem⟩ := ((h.reread []).1 ho)
  exact hmem

theorem Keeps.carryTests {t : State} (h'1 : Keeps o t) (s : State) : Keeps o (Machine.carryTests s t) :=
  .forEach (fun _ _ h1 => (.setUnit (.setFld (.setBst h1 ..) ..) ..)) h'1 ..

theorem Keeps.pinReset (h : Keeps o s) : Keeps o (Machine.pinReset s) :=
  .lockFromFuses (.setFld (.showKeys (.carryTests (.carry (.pinBase (.forEach (fun _ _ h1 => (.raise h1 ..)) (.forEach (fun _ _ h1 =>
    (.unitHalt h1 ..)) h ..) ..) ..) ..) ..) ..) ..) ..

theorem Keeps.assertPin (h : Keeps o s) (src : Nat) : Keeps o (Machine.assertPin s src) :=
  .ite h (.setRst (.pinReset (.assertCause h ..) ..) ..)

/-- Memory of which every bank's contents are open. -/
theorem scrambled_wf (d : Nat) : Memory.wf { scram := (List.range 192).map fun k => (k, d + 1) } = true := by
  have hrising (n k : Nat) : smRisingFrom none ((List.range' k n).map fun i => (i, d + 1)) = true := by
    induction n generalizing k with
    | zero => rfl
    | succ n ih =>
      refine smRisingFrom_cons.2 ⟨nofun, ?_⟩
      cases n with
      | zero => rfl
      | succ n => exact smRisingFrom_cons.2 ⟨by simp, (smRisingFrom_cons.1 (ih (k + 1))).2⟩
  have hvalue : ((List.range 192).map fun k => (k, d + 1)).all (fun e => !decide (e.2 = 0)) = true := by simp
  rw [Memory.wf_iff]
  refine ⟨rfl, nofun, rfl, ?_, rfl⟩
  rw [smWf, hvalue, List.range_eq_range', hrising]
  rfl

theorem logHolds_reset : LogHolds State.reset := by
  refine ⟨by decide, by decide, fun i a b ha hb => ?_⟩
  cases i with
  | zero =>
    obtain rfl := Option.some.inj ha
    obtain rfl := Option.some.inj hb
    rfl
  | succ i => simp [State.reset, porLog] at hb

theorem Keeps.porReset (s : State) : Keeps o (Machine.porReset s) :=
  ⟨fun _ => ⟨rfl, rfl, scrambled_wf (s.free + 96)⟩, fun _ => logHolds_reset⟩

theorem Keeps.setStep (h : Keeps o s) (k : Nat) : Keeps o (Machine.setStep s k) := .setRst h ..

theorem Keeps.startTests (h : Keeps o s) (us : List Nat) : Keeps o (Machine.startTests s us) := by
  unfold Machine.startTests
  dsimp only
  exact .forEach (fun _ _ h1 => (.setUnit (.setBst (.other h1) ..) ..)) h ..

theorem Keeps.beginRelease (h : Keeps o s) : Keeps o (Machine.beginRelease s) := .ite (.setStep h ..) (.setStep (.setFld h ..) ..)

theorem Keeps.icTest (h : Keeps o s) (f2f baseif tracks power badReg : Nat) : Keeps o (Machine.icTest s f2f baseif tracks power badReg)
    :=
  .ite (.ite (.setFld (.setFld (.setFld (.setFld h ..) ..) ..) ..) (.setFld (.setFld (.setFld (.setFld (.setFld h ..) ..) ..) ..) ..))
    (.raise (.ite (.setFld (.setFld (.setFld (.setFld h ..) ..) ..) ..) (.setFld (.setFld (.setFld (.setFld (.setFld h ..) ..) ..) ..)
    ..)) ..)

theorem Keeps.releaseMem (h : Keeps o s) : Keeps o (Machine.releaseMem s) := .ite (.setFld h ..) (.startTests h ..)

theorem Keeps.releaseBase (h : Keeps o s) : Keeps o (Machine.releaseBase s) :=
  .drawKey (.startFromRom (.releaseFault (.releaseFault h ..) ..) ..) ..

theorem Keeps.releaseLogic (h : Keeps o s) : Keeps o (Machine.releaseLogic s) := .startupCheck (.startTests h ..) ..

theorem Keeps.releaseStep {ic : State → State} (h : Keeps o s) (hic : ∀ s, Keeps o s → Keeps o (ic s)) : Keeps o (Machine.releaseStep s
    ic) :=
  .ite h
    (by split; exacts [(.ite (.setStep (hic _ h) ..) h), (.ite (.releaseMem (.setStep h ..) ..) h), (.releaseBase (.setStep h ..) ..), (.startTests (.setStep h ..) ..), (.releaseLogic (.setStep h ..) ..), (.ite (.wakeDone (.setStep h ..) ..) (.setStep h ..)), (.ite h (.setStep h ..)), h])

theorem Keeps.releasePin (h : Keeps o s) (src : Nat) : Keeps o (Machine.releasePin s src) :=
  .ite h (.ite (.setRst h ..) (.beginRelease (.setRst h ..) ..))

theorem Keeps.fusesLoaded (h : Keeps o s) : Keeps o (Machine.fusesLoaded s) :=
  .setStep (.lockFromFuses (.setFld (.setFld (.showKeys (.claimEntries (.setSbx (.forEach (fun _ _ h1 => (.setShadow h1 ..)) h ..) ..)
    ..) ..) ..) ..) ..) ..

theorem Keeps.fuseFailed (h : Keeps o s) : Keeps o (Machine.fuseFailed s) :=
  .ite (.raise (.setFld h ..) ..) (.raise (.assertFault (.setFld (.raise (.setFld h ..) ..) ..) ..) ..)

theorem Keeps.ctxReset (h : Keeps o s) : Keeps o (Machine.ctxReset s) :=
  .forEach (fun _ _ h1 => (.resetOffsets h1 ..)) (.resetOffsets (.forEach (fun _ _ h1 => (.setRegion h1 ..)) h ..) ..) ..

theorem Keeps.fabReset (h : Keeps o s) : Keeps o (Machine.fabReset s) :=
  .forEach (fun _ _ h1 => (.regionWake h1 ..)) (.carry (.resetBlockRegs (.forEach (fun _ _ h1 => (.setRegion h1 ..)) h ..) ..) ..) ..

theorem Keeps.engInflightReset (h : Keeps o s) (c : Nat → Bool) : Keeps o (Machine.engInflightReset s c) := .inflightReset h ..

theorem Keeps.enginesReset (h : Keeps o s) (c : Nat → Bool) : Keeps o (Machine.enginesReset s c) :=
  .engInflightReset (.forEach (fun _ _ h1 => (.engineReset h1 ..)) h ..) ..

theorem Keeps.blkInflightReset (h : Keeps o s) (b : Nat) : Keeps o (Machine.blkInflightReset s b) := .inflightReset h ..

theorem Keeps.blockEffect (h : Keeps o s) (b : Nat) : Keeps o (Machine.blockEffect s b) := by
  unfold Machine.blockEffect
  split
  exacts [(.clkReset h ..), (.cfgReset h ..), (.ctxReset h ..), (.fabReset h ..), (.ttBlockReset h ..), (.dspReset h ..), (.wngReset h
    ..), (.wlnReset h ..), (.memBlockReset h ..), (.schReset h ..), (.hwnReset h ..), (.encReset h ..), (.stkReset h ..), (.enginesReset
    h ..), (.sbxBlockReset h ..), (.bstReset h ..), (.dbgReset h ..), (.iobReset h ..), (.pciReset h ..), h]

theorem Keeps.blockAssert (h : Keeps o s) (b : Nat) : Keeps o (Machine.blockAssert s b) :=
  .setFld (.setRst (.raiseCause h ..) ..) ..

theorem Keeps.rstBlockWrite (h : Keeps o s) (mask : Nat) : Keeps o (Machine.rstBlockWrite s mask) := by
  unfold Machine.rstBlockWrite
  dsimp only
  split
  exacts [h, (.setCause (.forEach (fun _ _ h1 => (.blockAssert h1 ..)) h ..) ..)]

theorem Keeps.sbxSreset (h : Keeps o s) : Keeps o (Machine.sbxSreset s) := .ite h (.setRst (.setFld (.assertCause h ..) ..) ..)

theorem Keeps.engSreset (h : Keeps o s) (n : Nat) : Keeps o (Machine.engSreset s n) :=
  .ite h (.setRst (.setFld (.assertCause h ..) ..) ..)

theorem Keeps.regionDieReset {s1 : State} (h : Keeps o s1) (r : Nat) : Keeps o (Machine.regionDieReset s1 r) :=
  .clearBlocks (.other (.r8Withdraw (.setFld (.setFld (.setFld (.setFld (.setFld (.setFld (.setFld (.setRegion (.dropStrobes h ..) ..)
    ..) ..) ..) ..) ..) ..) ..) ..)) ..

theorem Keeps.regionsDieReset (h : Keeps o s) (rs : List Nat) : Keeps o (Machine.regionsDieReset s rs) :=
  .forEach (fun _ _ h1 => (.regionDieReset h1 ..)) (.forEach (fun _ _ h1 => (.holdCuffsAs h1 ..)) h ..) ..

theorem Keeps.portsDieReset (h : Keeps o s) (d : Nat) : Keeps o (Machine.portsDieReset s d) :=
  .forEach (fun _ _ h1 => (.fabCounts h1 ..)) (.setTt (.orphanSources h ..) ..) ..

theorem Keeps.dieEffect (h : Keeps o s) (p : Nat) : Keeps o (Machine.dieEffect s p) := by
  unfold Machine.dieEffect
  split
  exacts [(.unitHalt (.setFld (.memInflightReset h ..) ..) ..), (.unitHalt h ..), (.unitHalt (.portsDieReset (.regionsDieReset
    (.enginesReset h ..) ..) ..) ..)]

theorem Keeps.dieAssert (h : Keeps o s) (p : Nat) : Keeps o (Machine.dieAssert s p) :=
  .ite h (.setRst (.setFld (.assertCause h ..) ..) ..)

theorem Keeps.regionRestarts (h : Keeps o s) (r : Nat) : Keeps o (Machine.regionRestarts s r) :=
  .ite (.releaseRequest (.releaseInit h ..) ..) h

theorem Keeps.dieRelease (h : Keeps o s) (p : Nat) : Keeps o (Machine.dieRelease s p) :=
  .ite (.setRst (.setFld h ..) ..)
    (by split; exacts [(.forEach (fun _ _ h1 => (.regionRestarts h1 ..)) (.setFld (.setRst (.setFld h ..) ..) ..) ..), (.ite (.frameGo (.ite (.readback (.setFld (.setRst (.setFld h ..) ..) ..) ..) (.setFld (.setRst (.setFld h ..) ..) ..)) ..) (.ite (.readback (.setFld (.setRst (.setFld h ..) ..) ..) ..) (.setFld (.setRst (.setFld h ..) ..) ..))), (.setFld (.setRst (.setFld h ..) ..) ..)])

theorem Keeps.force (h : Keeps o s) (u : RstUnit) : Keeps o (Machine.force s u) := by
  unfold Machine.force
  split
  exacts [(.blockEffect (.ite (.setRst h ..) (.blkInflightReset (.setRst h ..) ..)) ..), (.enginesReset (.setRst h ..) ..), (.dieEffect
    (.setFld (.setRst h ..) ..) ..)]

theorem Keeps.pulseOver (h : Keeps o s) (x : PulseSource) : Keeps o (Machine.pulseOver s x) := by
  unfold Machine.pulseOver
  split
  exacts [(.releasePin h ..), (.releasePin h ..), (.releasePin h ..), (.ite (.setFld (.ite (.setFld (.setRst h ..) ..) (.setRst h ..))
    ..) h), (.ite (.setFld (.setRst h ..) ..) h)]

theorem Keeps.resetRelease (h : Keeps o s) (x : RstSource) : Keeps o (Machine.resetRelease s x) := by
  unfold Machine.resetRelease
  split
  exacts [(.releasePin h ..), (.ite (.wakeSource (.other h) ..) h), (.other h), (.dieRelease h ..)]

theorem Keeps.wdogExpire (h : Keeps o s) : Keeps o (Machine.wdogExpire s) :=
  .ite h (.ite (.assertPin (.raise (.satInc h ..) ..) ..) (.ite (.bstopReq (.setFld (.raise (.satInc h ..) ..) ..) ..) (.setFld (.raise
    (.satInc h ..) ..) ..)))

theorem Keeps.mailbox (h : Keeps o s) (p y : Nat) (f : Flit) : Keeps o (Machine.mailbox s p y f) :=
  .routed h (fun _ h1 => (.ite (.assertPin h1 ..) (.mbQueue h1 ..))) (fun _ h1 => (.route h1 ..)) ..

/-! ### Power -/

theorem Keeps.setPwr (h : Keeps o s) (x : Power) : Keeps o (Machine.setPwr s x) := .other h

theorem Keeps.powerEntry (h : Keeps o s) (t : Nat) : Keeps o (Machine.powerEntry s t) :=
  .ite (.setFld h ..) (.ite (.ite (.wakeSource (.setFld h ..) ..) (.setFld h ..)) (.ite (.raise (.setFld (.setFld h ..) ..) ..) (.setPwr
    (.setFld (.setFld (.setFld h ..) ..) ..) ..)))

theorem Keeps.pllsOff (h : Keeps o s) : Keeps o (Machine.pllsOff s) := .forEach (fun _ _ h1 => (.setFld h1 ..)) (.setClk h ..) ..

theorem Keeps.offBase (h : Keeps o s) : Keeps o (Machine.offBase s) := by
  unfold Machine.offBase
  dsimp only
  refine .lockFromFuses (.showKeys (.setFld (.setFld (.setFld (.setFld (.setFld (.setFld ?_ ..) ..) ..) ..) ..) ..))
  exact h.of_mem (fun _ => scrambled_wf s.free) rfl rfl rfl rfl

theorem Keeps.enterOff (h : Keeps o s) : Keeps o (Machine.enterOff s) :=
  .other (.setFld (.setFld (.carry (.offBase (.pinReset h ..) ..) ..) ..) ..)

theorem Keeps.entryEnd (h : Keeps o s) : Keeps o (Machine.entryEnd s) :=
  .ite (.wakeStart (.ite (.setFld (.setFld (.ite (.enterOff (.raise h ..) ..) (.setPwr (.setFld (.setFld (.raise h ..) ..) ..) ..)) ..)
    ..) (.ite (.enterOff (.raise h ..) ..) (.setPwr (.setFld (.setFld (.raise h ..) ..) ..) ..))) ..) (.ite (.setFld (.setFld (.ite
    (.enterOff (.raise h ..) ..) (.setPwr (.setFld (.setFld (.raise h ..) ..) ..) ..)) ..) ..) (.ite (.enterOff (.raise h ..) ..)
    (.setPwr (.setFld (.setFld (.raise h ..) ..) ..) ..)))

theorem Keeps.entryStep (h : Keeps o s) (k : Nat) : Keeps o (Machine.entryStep s k) := .setPwr h ..

theorem Keeps.powerEntryStep (h : Keeps o s) (ok eng : Bool) : Keeps o (Machine.powerEntryStep s ok eng) :=
  .ite h
    (by split; exacts [(.ite (.setPwr h ..) (.entryWithdrawn (.raise (.satInc h ..) ..) ..)), (.ite (.entryEnd (.pllsOff h ..) ..) (.entryStep (.pllsOff h ..) ..)), (.ite h (.ite (.entryEnd (.setClk (.ite h (.raise h ..)) ..) ..) (.entryStep (.setClk (.ite h (.raise h ..)) ..) ..))), (.entryEnd h ..), (.entryEnd h ..), h])

theorem Keeps.pwrDisable (h : Keeps o s) : Keeps o (Machine.pwrDisable s) := .ite h (.ite (.setFld h ..) (.setFld h ..))

theorem Keeps.wakeTone (h : Keeps o s) (n : Nat) : Keeps o (Machine.wakeTone s n) :=
  .ite (.wakeSource (.setFld (.raise h ..) ..) ..) h

theorem Keeps.railOn (h : Keeps o s) (i : Nat) : Keeps o (Machine.railOn s i) := .setFld (.setFld h ..) ..

theorem Keeps.wakeTo (h : Keeps o s) (k : Nat) : Keeps o (Machine.wakeTo s k) := .setPwr h ..

theorem Keeps.wakeStep (h : Keeps o s) : Keeps o (Machine.wakeStep s) :=
  .ite h
    (by split; exacts [(.wakeTo (.railOn h ..) ..), (.wakeTo (.railOn h ..) ..), (.wakeTo (.railOn h ..) ..), (.wakeTo h ..), (.ite (.beginRelease (.wakeTo (.railOn h ..) ..) ..) (.wakeTo (.railOn h ..) ..)), (.wakeTo (.froStart h ..) ..), (.ite (.wakeTo h ..) h), (.ite h (.wakeTo (.ite (.sysclkRef h ..) h) ..)), (.wakeTo h ..), (.ite (.wakeDone h ..) h), h])

theorem Keeps.wakeUndone (h : Keeps o s) : Keeps o (Machine.wakeUndone s) :=
  .setPwr (.setFld (.ite (.pllsOff h ..) (.setWindows (.setClk (.pllsOff h ..) ..) ..)) ..) ..

theorem Keeps.wakeFail (h : Keeps o s) : Keeps o (Machine.wakeFail s) :=
  .ite (.enterOff (.raise (.assertFault (.satInc (.satInc (.setFld (.setFld (.raise h ..) ..) ..) ..) ..) ..) ..) ..) (.ite (.enterOff
    (.satInc (.satInc (.setFld (.setFld (.raise h ..) ..) ..) ..) ..) ..) (.wakeUndone (.satInc (.satInc (.setFld (.setFld (.raise h ..)
    ..) ..) ..) ..) ..))

theorem Keeps.railLost (h : Keeps o s) (i : Nat) : Keeps o (Machine.railLost s i) :=
  .ite h (.enterOff (.assertFault (.raise h ..) ..) ..)

theorem Keeps.assertTherm (h : Keeps o s) : Keeps o (Machine.assertTherm s) := .enterOff (.assertCause h ..) ..

theorem Keeps.sleepTrip (h : Keeps o s) (temps : List (Option (BitVec 16))) : Keeps o (Machine.sleepTrip s temps) :=
  .ite h (.ite (.assertTherm (.raise (.setThm (.forEach (fun _ _ h1 => (.readSensor h1 ..)) h ..) ..) ..) ..) (.setThm (.forEach (fun _
    _ h1 => (.readSensor h1 ..)) h ..) ..))

/-! ### RegViews -/

theorem Keeps.readEffect (h : Keeps o s) (off : Nat) : Keeps o (Machine.readEffect s off) :=
  .ite (.ite (.clearWord (.latchUpper (.ite (.drawn h ..) h) ..) ..) (.latchUpper (.ite (.drawn h ..) h) ..)) (.ite (.ite (.drawn h ..)
    h)
    (by split; exacts [(.hcqPop (.ite (.drawn h ..) h) ..), (.riCqPop (.ite (.drawn h ..) h) ..), (.mbRxPop (.ite (.drawn h ..) h) ..), (.abortPop (.ite (.drawn h ..) h) ..), (.resultRead (.ite (.drawn h ..) h) ..), (.clearWord (.ite (.drawn h ..) h) ..)]))

/-! ### RegWrites -/

theorem Keeps.enableWrite {on : State → State} {off : State → State} (h : Keeps o s) (hon : ∀ s, Keeps o s → Keeps o (on s)) (hoff : ∀
    s, Keeps o s → Keeps o (off s)) (en dr : Fld) (b : Bool) : Keeps o (Machine.enableWrite s en dr b on off) :=
  .ite h (.ite (.ite h (hon _ h)) (.ite (hoff _ h) h))

theorem Keeps.plainEnable {off : State → State} (h : Keeps o s) (hoff : ∀ s, Keeps o s → Keeps o (off s)) (en dr : Fld) (w : Nat) :
    Keeps o (Machine.plainEnable s en dr w off) :=
  .enableWrite h (fun _ h1 => (.setFld h1 ..)) (fun _ h1 => (hoff _ h1)) ..

theorem Keeps.whenBit {f : State → State} (hf : ∀ s, Keeps o s → Keeps o (f s)) (h : Keeps o s) (w i : Nat) : Keeps o (Machine.whenBit w
    i f s) :=
  .ite (hf _ h) h

theorem Keeps.storeWord (h : Keeps o s) (f : Fld) (off w : Nat) : Keeps o (Machine.storeWord s f off w) := .setFld h ..

theorem Keeps.ownGlb (h : Keeps o s) (off w : Nat) : Keeps o (Machine.ownGlb s off w) := by
  unfold Machine.ownGlb
  split
  exacts [(.ite (.assertPin h ..) h), (.ite (.nmiClear (.drawn h ..) ..) (.nmiClear h ..)), h]

theorem Keeps.ownRst (h : Keeps o s) (off w : Nat) : Keeps o (Machine.ownRst s off w) := by
  unfold Machine.ownRst
  split
  exacts [(.forEach (fun _ _ h1 => (.ite (.dieAssert h1 ..) (.ite (.dieRelease h1 ..) h1))) h ..), (.rstBlockWrite h ..),
    (.rstBlockWrite h ..), h]

theorem Keeps.fpllWrite (h : Keeps o s) (n w : Nat) : Keeps o (Machine.fpllWrite s n w) :=
  .ite (.ite h (.fpllDisable h ..)) (.whenBit (fun _ h1 => (.fpllEnable h1 ..)) (.setRanged (.setRanged (.setRanged h ..) ..) ..) ..)

theorem Keeps.ownClk (h : Keeps o s) (off w : Nat) : Keeps o (Machine.ownClk s off w) :=
  .ite (.whenBit (fun _ h1 => (.sysclkReturn h1 ..)) (.froRest (.setFld (.plainEnable h (fun _ h1 => (.clkDisable h1 ..)) ..) ..) ..)
    ..) (.ite (.opRequest h ..) (.ite (.fpllWrite h ..) h))

theorem Keeps.ownPwr (h : Keeps o s) (off w : Nat) : Keeps o (Machine.ownPwr s off w) := by
  unfold Machine.ownPwr
  split
  exacts [(.whenBit (fun _ h1 => (.powerEntry h1 ..)) (.plainEnable h (fun _ h1 => (.pwrDisable h1 ..)) ..) ..), (.setFld h ..), h]

theorem Keeps.ownCfg (h : Keeps o s) (off w : Nat) : Keeps o (Machine.ownCfg s off w) :=
  .ite (.loadWindow h ..)
    (by split; exacts [(.whenBit (fun _ h1 => (.reveal h1 ..)) (.plainEnable h (fun _ h1 => (.cfgDisable h1 ..)) ..) ..), (.whenBit (fun _ h1 => (.endEarly h1 ..)) (.whenBit (fun _ h1 => (.endEarly h1 ..)) (.whenBit (fun _ h1 => (.sessionOpen h1 ..)) h ..) ..) ..), (.ite h (.setFld (.setFld h ..) ..)), (.whenBit (fun _ h1 => (.readback h1 ..)) h ..), h])

theorem Keeps.ownCtx (h : Keeps o s) (m : Master) (off w : Nat) : Keeps o (Machine.ownCtx s m off w) :=
  .ite (.plainEnable h (fun _ h1 => (.ctxDisable h1 ..)) ..) (.ite h (.ite (.pointsWrite h ..) (.ite (.planeClear h ..) h)))

theorem Keeps.ownFab (h : Keeps o s) (off w : Nat) : Keeps o (Machine.ownFab s off w) :=
  .ite (.plainEnable h (fun _ h1 => (.fabDisable h1 ..)) ..) (.ite h (.ite (.ite (.whenBit (fun _ h1 => (.regionWakeWrite h1 ..)) h ..)
    (.whenBit (fun _ h1 => (.regionStart h1 ..)) (.whenBit (fun _ h1 => (.regionStop h1 ..)) (.whenBit (fun _ h1 => (.regionWakeWrite h1
    ..)) h ..) ..) ..)) (.ite (.ite h (.setFld (.setFld (.setFld (.setFld (.setFld h ..) ..) ..) ..) ..)) h)))

theorem Keeps.ownTt (h : Keeps o s) (off w : Nat) : Keeps o (Machine.ownTt s off w) := by
  unfold Machine.ownTt
  split
  exacts [(.enableWrite h (fun _ h1 => (.ttEnable h1 ..)) (fun _ h1 => (.ttDisable h1 ..)) ..), (.ite h (.setFld h ..)), (.storeWord h
    ..), (.storeWord h ..), (.storeWord h ..), (.storeWord h ..), (.hostInsertGo h ..), (.flushGo h ..), h]

theorem Keeps.grpRingWrite (h : Keeps o s) (off w : Nat) : Keeps o (Machine.grpRingWrite s off w) := .ite h (.setFld h ..)

theorem Keeps.ownDsp (h : Keeps o s) (off w : Nat) : Keeps o (Machine.ownDsp s off w) := by
  unfold Machine.ownDsp
  split
  exacts [(.plainEnable h (fun _ h1 => (.dspDisable h1 ..)) ..), (.ite h (.setFld h ..)), (.ite h (.setFld h ..)), (.whenBit (fun _ h1
    => (.bstopClear h1 ..)) (.whenBit (fun _ h1 => (.bstopReq h1 ..)) h ..) ..), (.grpRingWrite h ..), (.grpRingWrite h ..), h]

theorem Keeps.ownAng (h : Keeps o s) (off w : Nat) : Keeps o (Machine.ownAng s off w) :=
  .ite (.enableWrite h (fun _ h1 => (.angEnable h1 ..)) (fun _ h1 => (.angDisable h1 ..)) ..) (.ite (.roleWrite h ..) (.ite (.whenBit
    (fun _ h1 => (.ptmCapture h1 ..)) h ..) (.ite h
    (by split; exacts [(.axisCfgWrite h ..), (.ite (.storeWord h ..) h), (.virtCommit h ..), (.storeWord h ..), h]))))

theorem Keeps.ownWng (h : Keeps o s) (off w : Nat) : Keeps o (Machine.ownWng s off w) :=
  .ite (.whenBit (fun _ h1 => (.enumWrite h1 ..)) (.enableWrite h (fun _ h1 => (.portEnable h1 ..)) (fun _ h1 => (.portDisable h1 ..))
    ..) ..) (.ite (.storeWord h ..) (.ite (.riGo h ..) (.ite (.storeWord h ..) (.ite (.mbTxGo h ..) h))))

theorem Keeps.ownWln (h : Keeps o s) (off w : Nat) : Keeps o (Machine.ownWln s off w) :=
  .ite h
    (by split; exacts [(.whenBit (fun _ h1 => (.wakeTx h1 ..)) (.whenBit (fun _ h1 => (.laneDown h1 ..)) (.ite h (.laneTrainWrite h ..)) ..) ..), (.testWrite h ..), (.whenBit (fun _ h1 => (.injectCrc h1 ..)) (.whenBit (fun _ h1 => (.injectSymbols h1 ..)) (.whenBit (fun _ h1 => (.injectSymbols h1 ..)) h ..) ..) ..), h])

theorem Keeps.ownMem (h : Keeps o s) (off w : Nat) : Keeps o (Machine.ownMem s off w) :=
  .ite (.plainEnable h (fun _ h1 => (.memDisable h1 ..)) ..) (.ite (.ite h (.setFld h ..)) (.ite h
    (by split; exacts [(.groupModeWrite h ..), (.groupOwnerWrite h ..), (.groupOwnerWrite h ..), h])))

theorem Keeps.ownSch (h : Keeps o s) (off w : Nat) : Keeps o (Machine.ownSch s off w) := by
  unfold Machine.ownSch
  split
  exacts [(.enableWrite h (fun _ h1 => (.schEnable h1 ..)) (fun _ h1 => (.schDisable h1 ..)) ..), (.storeWord h ..), (.schZero h ..), h]

theorem Keeps.ownHwn (h : Keeps o s) (off w : Nat) : Keeps o (Machine.ownHwn s off w) := by
  unfold Machine.ownHwn
  split
  exacts [(.plainEnable h (fun _ h1 => (.hwnDisable h1 ..)) ..), (.ite (.mapWrite h ..) (.mapLoad h ..)), (.ownGive h ..), (.ownReclaim
    h ..), (.ite h (.ite (.plainEnable (.whenBit (fun _ h1 => (.ringReset h1 ..)) h ..) (fun _ h1 => (.ringDisable h1 ..)) ..) (.ite
    (.ringTail h ..) h)))]

theorem Keeps.ownEnc (h : Keeps o s) (off w : Nat) : Keeps o (Machine.ownEnc s off w) := by
  unfold Machine.ownEnc
  split
  exacts [(.plainEnable h (fun _ h1 => (.encDisable h1 ..)) ..), (.whenBit (fun _ h1 => (.rekeyGo h1 ..)) h ..), h]

theorem Keeps.ownStk (h : Keeps o s) (off w : Nat) : Keeps o (Machine.ownStk s off w) :=
  .ite (.plainEnable h (fun _ h1 => (.stkDisable h1 ..)) ..) (.ite h (.whenBit (fun _ h1 => (.fence (.setFld h1 ..) ..)) (.whenBit (fun
    _ h1 => (.linkRetrain h1 ..)) h ..) ..))

theorem Keeps.engCtrlWrite (h : Keeps o s) (n w : Nat) : Keeps o (Machine.engCtrlWrite s n w) := by
  unfold Machine.engCtrlWrite
  extract_lets en s1
  have hen (u : State) (hu : Keeps o u) : Keeps o (en u) :=
    .enableWrite hu (fun _ h1 => h1.engEnable _) (fun _ h1 => h1.engDisable _) ..
  have h1 : Keeps o s1 := .ite (hen _ (h.engStart ..)) (.engStart (hen _ h) ..)
  exact .whenBit (fun _ h2 => h2.engSreset _) h1 ..

theorem Keeps.pcWrite (h : Keeps o s) (n t w : Nat) : Keeps o (Machine.pcWrite s n t w) := .ite (.setThread h ..) h

theorem Keeps.ownEng (h : Keeps o s) (off w : Nat) : Keeps o (Machine.ownEng s off w) :=
  .ite h (.ite (.engCtrlWrite h ..) (.ite (.pcWrite h ..) (.ite (.ite (.storeWord (.setFld h ..) ..) (.storeWord h ..)) (.ite (.portsOff
    h ..) (.ite (.setFld h ..) h)))))

theorem Keeps.wdogWrite (h : Keeps o s) (w : Nat) : Keeps o (Machine.wdogWrite s w) :=
  .ite h (.ite (.setFld (.setSbx (.setFld (.setFld (.setFld h ..) ..) ..) ..) ..) (.setFld (.setFld (.setFld h ..) ..) ..))

theorem Keeps.ownSbx (h : Keeps o s) (off w : Nat) : Keeps o (Machine.ownSbx s off w) :=
  .ite (.ite (.setFld h ..) h)
    (by split; exacts [(.whenBit (fun _ h1 => (.sbxSreset h1 ..)) (.plainEnable h (fun _ h1 => (.sbxDisable h1 ..)) ..) ..), (.whenBit (fun _ h1 => (.doorbell h1 ..)) h ..), (.whenBit (fun _ h1 => (.setFld h1 ..)) h ..), (.wdogWrite h ..), (.wdogKick h ..), (.fuseArm h ..), h])

theorem Keeps.ownBst (h : Keeps o s) (off w : Nat) : Keeps o (Machine.ownBst s off w) :=
  .ite (.plainEnable h (fun _ h1 => (.bstDisable h1 ..)) ..) (.ite (.bstGo h ..) h)

theorem Keeps.dbgEngWrite (h : Keeps o s) (n w : Nat) : Keeps o (Machine.dbgEngWrite s n w) :=
  .ite (.setFld (.setFld h ..) ..) (.forEach (fun _ _ h1 => (.whenBit (fun _ h2 => (.stepThread h2 ..)) h1 ..)) (.forEach (fun _ _ h1 =>
    (.whenBit (fun _ h2 => (.resumeThread h2 ..)) h1 ..)) (.forEach (fun _ _ h1 => (.whenBit (fun _ h2 => (.haltRequest h2 ..)) h1 ..))
    (.setFld (.setFld h ..) ..) ..) ..) ..)

theorem Keeps.dbgRegWrite (h : Keeps o s) (r w : Nat) : Keeps o (Machine.dbgRegWrite s r w) :=
  .ite h (.ite (.whenBit (fun _ h1 => (.regionCapture h1 ..)) (.ite (.regionFreeze h ..) (.ite (.regionUnfreeze h ..) h)) ..)
    (.regionPulse (.whenBit (fun _ h1 => (.regionCapture h1 ..)) (.ite (.regionFreeze h ..) (.ite (.regionUnfreeze h ..) h)) ..) ..))

theorem Keeps.ownDbg (h : Keeps o s) (off w : Nat) : Keeps o (Machine.ownDbg s off w) :=
  .ite (.plainEnable h (fun _ h1 => (.dbgDisable h1 ..)) ..) (.ite (.whenBit (fun _ h1 => (.ite (.frameGo h1 ..) h1)) h ..) (.ite
    (.dbgEngWrite h ..) (.ite (.dbgRegWrite h ..) h)))

theorem Keeps.ownIob (h : Keeps o s) (off w : Nat) : Keeps o (Machine.ownIob s off w) := .ite (.setFld h ..) h

theorem Keeps.ownPci (h : Keeps o s) (off w : Nat) : Keeps o (Machine.ownPci s off w) :=
  .ite (.plainEnable h (fun _ h1 => (.pciDisable h1 ..)) ..) (.ite (.setFld h ..) (.ite h
    (by split; exacts [(.storeWord h ..), (.storeWord h ..), (.setFld h ..), h])))

theorem Keeps.ownWrite (h : Keeps o s) (m : Master) (off w : Nat) : Keeps o (Machine.ownWrite s m off w) := by
  unfold Machine.ownWrite
  split
  exacts [(.ownGlb h ..), (.ownRst h ..), (.ownClk h ..), (.ownPwr h ..), (.ite (.plainEnable h (fun _ h1 => (.thmDisable h1 ..)) ..)
    h), (.ownCfg h ..), (.ownCtx h ..), (.ownFab h ..), (.ownTt h ..), (.ownDsp h ..), (.ownAng h ..), (.ownWng h ..), (.ownWln h ..),
    (.ownMem h ..), (.ownSch h ..), (.ownHwn h ..), (.ownEnc h ..), (.ownStk h ..), (.ownEng h ..), (.ownEng h ..), (.ownSbx h ..),
    (.ownBst h ..), (.ownDbg h ..), (.ownIob h ..), (.ownPci h ..), h]

theorem Keeps.regWrite (h : Keeps o s) (m : Master) (off w : Nat) : Keeps o (Machine.regWrite s m off w) :=
  .ite h (.ite (.ownWrite h ..) (.ownWrite (.plainWrite h ..) ..))

theorem Keeps.regRead (h : Keeps o s) (off : Nat) : Keeps o (Machine.regRead s off).2 := .iteSnd h (.readEffect h ..)

/-! ### Bus -/

theorem Keeps.mailboxWrite (h : Keeps o s) (off be w : Nat) : Keeps o (Machine.mailboxWrite s off be w) :=
  .ite h (.forEach (fun _ _ h1 => (.putMb h1 ..)) h ..)

theorem Keeps.partWrite (h : Keeps o s) (m : Master) (off be w : Nat) : Keeps o (Machine.partWrite s m off be w) :=
  .ite h (.ite (.loadWindow h ..) (.ite (.mailboxWrite h ..) (.ite (.regWrite h ..) (.regWrite h ..))))

theorem Keeps.hostWrite (h : Keeps o s) (off be w : Nat) : Keeps o (Machine.hostWrite s off be w) :=
  .ite (.partWrite h ..) (.satInc h ..)

theorem Keeps.registerWrite (h : Keeps o s) (m : Master) (off be w : Nat) : Keeps o (Machine.registerWrite s m off be w) :=
  .ite h (by split; exacts [(.hostWrite h ..), (.partWrite h ..)])

theorem Keeps.readWords (h : Keeps o s) (n off : Nat) : Keeps o (Machine.readWords n off s).2 := by
  induction n generalizing s off with
  | zero => exact h
  | succ n ih => exact ih (h.regRead _) _

theorem Keeps.bar0Read (h : Keeps o s) (off len : Nat) : Keeps o (Machine.bar0Read s off len) :=
  .ite h (.ite (.refuse h ..) (.ite (.refuse h ..) (.ite h (.complete (.readWords h ..) ..))))

theorem Keeps.takeRsp (h : Keeps o s) (a : DevAcc) : KeepsAcc o (Machine.takeRsp a s) := by
  unfold Machine.takeRsp
  split
  · exact .none
  · exact .some h.other _ _

theorem Keeps.memAccess (h : Keeps o s) (a : DevAcc) (x : AccIn) : KeepsAcc o (Machine.memAccess s a x) :=
  .ite .none (.ite (.takeRsp (h.memWrite ..) _) (.takeRsp (h.memRead ..) _))

theorem Keeps.spAccess (h : Keeps o s) (a : DevAcc) (x : AccIn) : KeepsAcc o (Machine.spAccess s a x) :=
  .ite .none (.some (h.extAccess ..) _ _)

theorem Keeps.regAccess (h : Keeps o s) (a : DevAcc) : KeepsAcc o (Machine.regAccess s a) :=
  .ite (.some h _ _) (.ite .none (.ite (.some (.ite (.partWrite (h.partWrite ..) ..) (h.partWrite ..)) _ _) (.some (h.readWords ..) _
    _)))

theorem Keeps.devAccess (h : Keeps o s) (a : DevAcc) (x : AccIn) : KeepsAcc o (Machine.devAccess s a x) :=
  .ite (h.memAccess a x) (.ite (h.regAccess a) (.ite (h.spAccess a x) (.some h _ _)))

theorem Keeps.beforeDisable (h : Keeps o s) {f : State → AccEnd} (hf : ∀ s, Keeps o s → KeepsAcc o (f s)) :
    KeepsAcc o (Machine.beforeDisable s f) := by
  refine .ite (fun x hx => ?_) (hf s h)
  obtain ⟨r, hr, rfl⟩ := Option.map_eq_some_iff.1 hx
  exact (hf _ (h.setFld ..) r hr).setFld ..

theorem Keeps.windowResponse (h : Keeps o s) (n k : Nat) (x : AccIn) : Keeps o (Machine.windowResponse s n k x) := by
  unfold Machine.windowResponse
  split
  · exact h
  · refine .ite (h.endWin ..) (.ite h ?_)
    split
    · exact h
    next heq =>
      have hacc := Keeps.beforeDisable h (fun _ h1 => h1.devAccess _ x) _ heq
      exact .ite hacc (hacc.endWin ..)

theorem Keeps.dbgThreadSide (h : Keeps o s) (n t i : Nat) : Keeps o (Machine.dbgThreadSide s n t i) := .ite (.csrSide h ..) h

theorem Keeps.dbgThreadSet (h : Keeps o s) (n t i v : Nat) : Keeps o (Machine.dbgThreadSet s n t i v) :=
  .ite (.setG h ..) (.ite (.setA h ..) (.ite (.setA h ..) (.ite (.csrSet h ..) (.ite (.setThread h ..) (.csrSet h ..)))))

theorem Keeps.dbgThreadAccess (h : Keeps o s) : Keeps o (Machine.dbgThreadAccess s) :=
  .ite h (.ite (.dbgEnd h ..) (.ite (.dbgEnd (.dbgThreadSet h ..) ..) (.dbgEnd (.dbgThreadSide h ..) ..)))

theorem Keeps.dbgHostAccess (h : Keeps o s) (ecc : Nat) : Keeps o (Machine.dbgHostAccess s ecc) := .ite h (.cacheAccess h ..)

theorem Keeps.dbgAccessDone (h : Keeps o s) (x : AccIn) : Keeps o (Machine.dbgAccessDone s x) := by
  unfold Machine.dbgAccessDone
  extract_lets a
  refine .ite h ?_
  split
  · refine .ite (h.dbgEnd ..) (.ite (h.dbgHostAccess _) ?_)
    split
    · exact h
    next heq =>
      have hacc := Keeps.devAccess h _ x _ heq
      exact .ite hacc (hacc.dbgEnd ..)
  · exact h.dbgThreadAccess
  · exact h.dbgEnd ..

theorem Keeps.endIf {f : State → State} (h : Keeps o s) (hf : ∀ s, Keeps o s → Keeps o (f s)) (dr : Fld) (drained : Bool) : Keeps o
    (Machine.endIf s dr drained f) :=
  .ite (hf _ h) h

theorem Keeps.plainEnd (h : Keeps o s) (en dr : Fld) : Keeps o (Machine.plainEnd en dr s) := .setFld (.setFld h ..) ..

theorem Keeps.drainEnd (h : Keeps o s) (x : DrainUnit) : Keeps o (Machine.drainEnd s x) := by
  unfold Machine.drainEnd
  split
  exacts [(.endIf h (fun _ h1 => (.plainEnd h1 ..)) ..), (.endIf h (fun _ h1 => (.ttDrainEnd h1 ..)) ..), (.endIf h (fun _ h1 =>
    (.dspDrainEnd h1 ..)) ..), (.portDrainCheck h ..), (.endIf h (fun _ h1 => (.engDrainEnd h1 ..)) ..), (.endIf h (fun _ h1 =>
    (.fabDrainEnd h1 ..)) ..), (.endIf h (fun _ h1 => (.ctxDrainEnd h1 ..)) ..), (.endIf h (fun _ h1 => (.memDrainEnd h1 ..)) ..), h,
    (.endIf h (fun _ h1 => (.schDrainEnd h1 ..)) ..), (.endIf h (fun _ h1 => (.hwnDrainEnd h1 ..)) ..), (.endIf h (fun _ h1 =>
    (.ringDrainEnd h1 ..)) ..), (.endIf h (fun _ h1 => (.encDrainEnd h1 ..)) ..), (.endIf h (fun _ h1 => (.stkDrainEnd h1 ..)) ..),
    (.endIf h (fun _ h1 => (.plainEnd (.setCfg h1 ..) ..)) ..), (.endIf h (fun _ h1 => (.pciDrainEnd h1 ..)) ..), (.endIf h (fun _ h1 =>
    (.plainEnd h1 ..)) ..), (.endIf h (fun _ h1 => (.plainEnd h1 ..)) ..), (.endIf h (fun _ h1 => (.plainEnd h1 ..)) ..), h, (.endIf h
    (fun _ h1 => (.bstDrainEnd h1 ..)) ..), (.endIf h (fun _ h1 => (.dbgDrainEnd h1 ..)) ..)]

/-! ### IsaAcc -/

theorem Keeps.accOp (h : Keeps o s) (n t rs1 rs2 acc fn : Nat) (op : BitVec 72 → Word → Word → BitVec 72) : Keeps o (Machine.accOp n t
    rs1 rs2 acc fn op s) :=
  .issue h (fun _ h1 => (.nextInstr (.setA h1 ..) ..)) ..

theorem Keeps.accRead (h : Keeps o s) (n t rd rs1 rs2 acc fn sh : Nat) (op : BitVec 72 → Word × Bool) : Keeps o (Machine.accRead n t rd
    rs1 rs2 acc fn sh op s) :=
  .issue h (fun _ h1 => (.nextInstr (.setG (.ite (.setThread h1 ..) h1) ..) ..)) ..

/-! ### IsaAlu -/

theorem Keeps.alu (h : Keeps o s) (n t rd rs1 rs2 : Nat) (f : Bool) (fn : Nat) (op : Flg → Word → Word → Word × Flg) : Keeps o
    (Machine.alu n t rd rs1 rs2 f fn op s) :=
  .issue h (fun _ h1 => (.writeRes h1 ..)) ..

theorem Keeps.aluFlags (h : Keeps o s) (n t rs1 rs2 : Nat) (f : Bool) (fn : Nat) (op : Flg → Word → Word → Word × Flg) : Keeps o
    (Machine.aluFlags n t rs1 rs2 f fn op s) :=
  .issue h (fun _ h1 => (.nextInstr (.setFlg h1 ..) ..)) ..

theorem Keeps.aluImm (h : Keeps o s) (n t rd rs1 : Nat) (imm : BitVec 18) (major : Nat) (op : Word → BitVec 18 → Word) : Keeps o
    (Machine.aluImm n t rd rs1 imm major op s) :=
  .issue h (fun _ h1 => (.nextInstr (.setG h1 ..) ..)) ..

theorem Keeps.cmpImm (h : Keeps o s) (n t rs1 : Nat) (imm : BitVec 18) : Keeps o (Machine.cmpImm n t rs1 imm s) :=
  .issue h (fun _ h1 => (.nextInstr (.setFlg h1 ..) ..)) ..

theorem Keeps.movHigh (h : Keeps o s) (n t rd : Nat) (imm : BitVec 16) : Keeps o (Machine.movHigh n t rd imm s) :=
  .issue h (fun _ h1 => (.nextInstr (.setG h1 ..) ..)) ..

theorem Keeps.shiftImm (h : Keeps o s) (n t rd rs1 : Nat) (sh : BitVec 5) (f : Bool) (k : Nat) (kind : ShKind) : Keeps o
    (Machine.shiftImm n t rd rs1 sh f k kind s) :=
  .issue h (fun _ h1 => (.writeRes h1 ..)) ..

/-! ### IsaFixed -/

theorem Keeps.qOp (h : Keeps o s) (n t rd rs1 rs2 : Nat) (f : Bool) (fn low : Nat) (op : Word → Word → Word × Bool) : Keeps o
    (Machine.qOp n t rd rs1 rs2 f fn low op s) :=
  .issue h (fun _ h1 => (.writeQ h1 ..)) ..

theorem Keeps.qClamp (h : Keeps o s) (n t rd rs1 rs2 : Nat) (f : Bool) (fn : Nat) (op : Word → Word → Word → Word) : Keeps o
    (Machine.qClamp n t rd rs1 rs2 f fn op s) :=
  .issue h (fun _ h1 => (.writeQ h1 ..)) ..

/-! ### IsaMem -/

theorem Keeps.spLoadOp (h : Keeps o s) (n t rd b w a : Nat) (sgn : Bool) (ecc : Nat) : Keeps o (Machine.spLoadOp s n t rd b w a sgn ecc)
    :=
  .ite (.faultThread (.spCheck h ..) ..) (.nextInstr (.writeLoad (.watchAccess (.spCheck h ..) ..) ..) ..)

theorem Keeps.winLoadOp (h : Keeps o s) (n t rd k off w a : Nat) (sgn : Bool) : Keeps o (Machine.winLoadOp s n t rd k off w a sgn) :=
  .ite h (.setThread (.pushWin (.watchAccess h ..) ..) ..)

theorem Keeps.loadOp (h : Keeps o s) (n t rd base : Nat) (imm : BitVec 18) (major w : Nat) (sgn : Bool) (ecc : Nat) : Keeps o
    (Machine.loadOp n t rd base imm major w sgn ecc s) :=
  .issue h (fun _ h1 => (.ite (.faultThread h1 ..) (by split; exacts [(.faultThread h1 ..), (.spLoadOp h1 ..), (.winLoadOp h1 ..)]))) ..

theorem Keeps.spStoreOp (h : Keeps o s) (n t rs mode b w a ecc : Nat) : Keeps o (Machine.spStoreOp s n t rs mode b w a ecc) :=
  .ite (.faultThread (.ite h (.spCheck h ..)) ..) (.nextInstr (.spStore (.watchAccess (.ite h (.spCheck h ..)) ..) ..) ..)

theorem Keeps.winStoreOp (h : Keeps o s) (n t rs k off w a : Nat) : Keeps o (Machine.winStoreOp s n t rs k off w a) :=
  .ite h (.nextInstr (.pushWin (.watchAccess h ..) ..) ..)

theorem Keeps.storeOp (h : Keeps o s) (n t rs base : Nat) (imm : BitVec 18) (major w ecc : Nat) : Keeps o (Machine.storeOp n t rs base
    imm major w ecc s) :=
  .issue h (fun _ h1 => (.ite (.faultThread h1 ..) (by split; exacts [(.faultThread h1 ..), (.spStoreOp h1 ..), (.winStoreOp h1 ..)])))
    ..

theorem Keeps.branchOp (h : Keeps o s) (n t : Nat) (cond : BitVec 4) (off : BitVec 22) : Keeps o (Machine.branchOp n t cond off s) :=
  .issue h (fun _ h1 => (.ite (.retireAt h1 ..) (.nextInstr h1 ..))) ..

theorem Keeps.linkOp (h : Keeps o s) (n t : Nat) (off : BitVec 26) : Keeps o (Machine.linkOp n t off s) :=
  .issue h (fun _ h1 => (.retireAt (.setG h1 ..) ..)) ..

theorem Keeps.jumpOp (h : Keeps o s) (n t rs1 : Nat) : Keeps o (Machine.jumpOp n t rs1 s) :=
  .issue h (fun _ h1 => (.retireAt h1 ..)) ..

theorem Keeps.jumpLinkOp (h : Keeps o s) (n t rd rs1 : Nat) : Keeps o (Machine.jumpLinkOp n t rd rs1 s) :=
  .issue h (fun _ h1 => (.retireAt (.setG h1 ..) ..)) ..

/-! ### The commands -/

/-- Every command ends in a state that keeps what the one it began in has, and its events are then written. -/
theorem Keeps.exec (h : Keeps o s) : ∀ c : Instr, ∃ t, Machine.exec c s = done t ∧ Keeps o t
  | .registerWrite .. => ⟨_, rfl, .registerWrite h ..⟩
  | .drainEnd .. => ⟨_, rfl, .drainEnd h ..⟩
  | .encCount .. => ⟨_, rfl, .ite (.ite (.encIllegal h ..) (.encEdge h ..)) h⟩
  | .encZEdge .. => ⟨_, rfl, .ite (.zEdge h ..) h⟩
  | .ssiFrame .. => ⟨_, rfl, .ite (.ite (.ssiValid h ..) (.ssiInvalid h ..)) h⟩
  | .virtCommit .. => ⟨_, rfl, .virtCommit h ..⟩
  | .beacon .. => ⟨_, rfl, .ite (.beaconRx h ..) h⟩
  | .axisTimeout .. => ⟨_, rfl, .ite (.toLost h ..) h⟩
  | .axisCfgWrite .. => ⟨_, rfl, .axisCfgWrite h ..⟩
  | .angDisable => ⟨_, rfl, .angDisable h ..⟩
  | .roleWrite .. => ⟨_, rfl, .roleWrite h ..⟩
  | .ringTime .. => ⟨_, rfl, .ite (.ite (.deviceRingTime h ..) (.moduleRingTime h ..)) h⟩
  | .rclkPllLock => ⟨_, rfl, .ite (.toPhase h ..) h⟩
  | .syncTimeout => ⟨_, rfl, .ite (.enterHoldover h ..) h⟩
  | .holdoverExpire => ⟨_, rfl, .ite (.setRt (.loseRt h ..) ..) h⟩
  | .ringTimeSend => ⟨_, rfl, .sendWhere (.sendWhere h ..) ..⟩
  | .ptmCapture => ⟨_, rfl, .ptmCapture h ..⟩
  | .ptmExchangeDone .. => ⟨_, rfl, .ite (.setFld (.setFld (.setFld (.setFld h ..) ..) ..) ..) h⟩
  | .beaconSend => ⟨_, rfl, .forEach (fun _ _ h1 => (.sendWhere h1 ..)) h ..⟩
  | .fabricInsert .. => ⟨_, rfl, .fabricInsert h ..⟩
  | .hostInsertGo .. => ⟨_, rfl, .hostInsertGo h ..⟩
  | .insertAcceptance .. => ⟨_, rfl, .clocked h (.insertAcceptance h ..) ..⟩
  | .completionRecord .. => ⟨_, rfl, .clocked h (.recordWritten h ..) ..⟩
  | .cqRecordTake .. => ⟨_, rfl, .cqTake h ..⟩
  | .ttHcqRead => ⟨_, rfl, .hcqPop h ..⟩
  | .ttEnable => ⟨_, rfl, .ttEnable h ..⟩
  | .ttInitDone => ⟨_, rfl, .clocked h (.ttInitDone h ..) ..⟩
  | .ttDisable => ⟨_, rfl, .ttDisable h ..⟩
  | .ttFlushGo .. => ⟨_, rfl, .flushGo h ..⟩
  | .flushBucket => ⟨_, rfl, .clocked h (.flushBucket h ..) ..⟩
  | .dispatchSlot => ⟨_, rfl, .dispatchSlot h ..⟩
  | .groupCommitPoint .. => ⟨_, rfl, .clocked h (.groupCommitPoint h ..) ..⟩
  | .rail8Admit => ⟨_, rfl, .clocked h (.rail8Admit h ..) ..⟩
  | .ackTimeout .. => ⟨_, rfl, .clocked h (.ackTimeout h ..) ..⟩
  | .bstopReq => ⟨_, rfl, .bstopReq h ..⟩
  | .bstopStoppingTimeout => ⟨_, rfl, .bstopTimeout h ..⟩
  | .bstopClear => ⟨_, rfl, .bstopClear h ..⟩
  | .bstopRepeat => ⟨_, rfl, .clocked h (.bstopRepeat h ..) ..⟩
  | .dspDisable => ⟨_, rfl, .dspDisable h ..⟩
  | .consist .. => ⟨_, rfl, .consist h ..⟩
  | .retime .. => ⟨_, rfl, .atModule h (fun _ h1 => (.takeRetime h1 ..)) ..⟩
  | .commit .. => ⟨_, rfl, .atModule h (fun _ h1 => (.takeCommit h1 ..)) ..⟩
  | .revoke .. => ⟨_, rfl, .atModule h (fun _ h1 => (.takeRevoke h1 ..)) ..⟩
  | .bstop .. => ⟨_, rfl, .atModule h (fun _ h1 => (.takeBstop h1 ..)) ..⟩
  | .resume .. => ⟨_, rfl, .atModule h (fun _ h1 => (.takeResume h1 ..)) ..⟩
  | .safe .. => ⟨_, rfl, .atModule h (fun _ h1 => (.takeSafe h1 ..)) ..⟩
  | .missed .. => ⟨_, rfl, .atModule h (fun _ h1 => (.takeMissed h1 ..)) ..⟩
  | .ack .. => ⟨_, rfl, .ite (.ackFlit h ..) h⟩
  | .nak .. => ⟨_, rfl, .ite (.nakFlit h ..) h⟩
  | .enumFlit .. => ⟨_, rfl, .ite (.enumFlit h ..) h⟩
  | .idRead .. => ⟨_, rfl, .atModule h (fun _ h1 => (.takeIdRead h1 ..)) ..⟩
  | .idData .. => ⟨_, rfl, .ite (.idData h ..) h⟩
  | .mailbox .. => ⟨_, rfl, .mailbox h ..⟩
  | .remoteInsert .. => ⟨_, rfl, .routed h (fun _ h1 => (.takeRemote h1 ..)) (fun _ h1 => (.routeInsert h1 ..)) ..⟩
  | .insertDone .. => ⟨_, rfl, .routed h (fun _ h1 => (.riRecord h1 ..)) (fun _ h1 => (.route h1 ..)) ..⟩
  | .probe .. => ⟨_, rfl, .ite (.probe h ..) h⟩
  | .consistExecute .. => ⟨_, rfl, .consistExecute h ..⟩
  | .stagedStamp .. => ⟨_, rfl, .stagedStamp h ..⟩
  | .moduleSilence .. => ⟨_, rfl, .ite h (.stopModule h ..)⟩
  | .safeRepeat .. => ⟨_, rfl, .ite (.sendSafes h ..) h⟩
  | .probeSend .. => ⟨_, rfl, .ite (.ite h (.sendPlain h ..)) (.forward h ..)⟩
  | .portEnable .. => ⟨_, rfl, .portEnable h ..⟩
  | .enumWrite .. => ⟨_, rfl, .enumWrite h ..⟩
  | .enumTimeout .. => ⟨_, rfl, .enumTimeout h ..⟩
  | .idReadTimeout .. => ⟨_, rfl, .idReadTimeout h ..⟩
  | .recoverTimeout .. => ⟨_, rfl, .recoverTimeout h ..⟩
  | .portDisable .. => ⟨_, rfl, .portDisable h ..⟩
  | .portIdleEnd .. => ⟨_, rfl, .portIdleEnd h ..⟩
  | .trunkAckSend .. => ⟨_, rfl, .ite (.sendPlain h ..) h⟩
  | .wngRiGo .. => ⟨_, rfl, .riGo h ..⟩
  | .riTimeout .. => ⟨_, rfl, .riTimeout h ..⟩
  | .wngRiCqRead => ⟨_, rfl, .riCqPop h ..⟩
  | .wngMbTxGo .. => ⟨_, rfl, .mbTxGo h ..⟩
  | .wngMbRxRead => ⟨_, rfl, .mbRxPop h ..⟩
  | .trainingFrame .. => ⟨_, rfl, .trainingFrame h ..⟩
  | .trainTimeout .. => ⟨_, rfl, .trainTimeout h ..⟩
  | .alignmentMarker .. => ⟨_, rfl, .alignMarker h ..⟩
  | .los .. => ⟨_, rfl, .laneDown h ..⟩
  | .fecCodeword .. => ⟨_, rfl, .fecCodeword h ..⟩
  | .laneRetrain .. => ⟨_, rfl, .laneDown h ..⟩
  | .laneTrainWrite .. => ⟨_, rfl, .laneTrainWrite h ..⟩
  | .wakeTx .. => ⟨_, rfl, .wakeTx h ..⟩
  | .wakeToneEnd .. => ⟨_, rfl, .wakeToneEnd h ..⟩
  | .wakeToneDetect .. => ⟨_, rfl, .wakeTone h ..⟩
  | .testPatternWrite .. => ⟨_, rfl, .testWrite h ..⟩
  | .injectSymbol .. => ⟨_, rfl, .injectSymbols h ..⟩
  | .injectBurst .. => ⟨_, rfl, .injectSymbols h ..⟩
  | .injectCrc .. => ⟨_, rfl, .injectCrc h ..⟩
  | .symcntRead .. => ⟨_, rfl, .symcntRead h ..⟩
  | .engEnable .. => ⟨_, rfl, .engEnable h ..⟩
  | .engStart .. => ⟨_, rfl, .engStart h ..⟩
  | .engDisable .. => ⟨_, rfl, .engDisable h ..⟩
  | .threadWake .. => ⟨_, rfl, .threadWake h ..⟩
  | .engineGate .. => ⟨_, rfl, .engineGate h ..⟩
  | .scratchpadExternal .. => ⟨_, rfl, .respond (.extAccess h ..) ..⟩
  | .streamTransfer .. => ⟨_, rfl, .streamTransfer h ..⟩
  | .streamTimeout .. => ⟨_, rfl, .ite h (.failStream h ..)⟩
  | .windowResponse .. => ⟨_, rfl, .windowResponse h ..⟩
  | .windowTimeout .. => ⟨_, rfl, (by split; exacts [(.endWin h ..), h])⟩
  | .engSignalSet .. => ⟨_, rfl, .setFld h ..⟩
  | .engSreset .. => ⟨_, rfl, .engSreset h ..⟩
  | .iAdd .. => ⟨_, rfl, .alu h ..⟩
  | .iSub .. => ⟨_, rfl, .alu h ..⟩
  | .iAdc .. => ⟨_, rfl, .alu h ..⟩
  | .iSbc .. => ⟨_, rfl, .alu h ..⟩
  | .iAnd .. => ⟨_, rfl, .alu h ..⟩
  | .iOr .. => ⟨_, rfl, .alu h ..⟩
  | .iXor .. => ⟨_, rfl, .alu h ..⟩
  | .iAndn .. => ⟨_, rfl, .alu h ..⟩
  | .iShl .. => ⟨_, rfl, .alu h ..⟩
  | .iShr .. => ⟨_, rfl, .alu h ..⟩
  | .iSar .. => ⟨_, rfl, .alu h ..⟩
  | .iRor .. => ⟨_, rfl, .alu h ..⟩
  | .iMin .. => ⟨_, rfl, .alu h ..⟩
  | .iMax .. => ⟨_, rfl, .alu h ..⟩
  | .iMinu .. => ⟨_, rfl, .alu h ..⟩
  | .iMaxu .. => ⟨_, rfl, .alu h ..⟩
  | .iMul .. => ⟨_, rfl, .alu h ..⟩
  | .iMulh .. => ⟨_, rfl, .alu h ..⟩
  | .iMulhu .. => ⟨_, rfl, .alu h ..⟩
  | .iClz .. => ⟨_, rfl, .alu h ..⟩
  | .iPopc .. => ⟨_, rfl, .alu h ..⟩
  | .iCmp .. => ⟨_, rfl, .aluFlags h ..⟩
  | .iTst .. => ⟨_, rfl, .aluFlags h ..⟩
  | .iAddi .. => ⟨_, rfl, .aluImm h ..⟩
  | .iAndi .. => ⟨_, rfl, .aluImm h ..⟩
  | .iOri .. => ⟨_, rfl, .aluImm h ..⟩
  | .iXori .. => ⟨_, rfl, .aluImm h ..⟩
  | .iCmpi .. => ⟨_, rfl, .cmpImm h ..⟩
  | .iMovi .. => ⟨_, rfl, .aluImm h ..⟩
  | .iMovh .. => ⟨_, rfl, .movHigh h ..⟩
  | .iShli .. => ⟨_, rfl, .shiftImm h ..⟩
  | .iShri .. => ⟨_, rfl, .shiftImm h ..⟩
  | .iSari .. => ⟨_, rfl, .shiftImm h ..⟩
  | .iRori .. => ⟨_, rfl, .shiftImm h ..⟩
  | .iSadd .. => ⟨_, rfl, .qOp h ..⟩
  | .iSsub .. => ⟨_, rfl, .qOp h ..⟩
  | .iSaddh2 .. => ⟨_, rfl, .qOp h ..⟩
  | .iSsubh2 .. => ⟨_, rfl, .qOp h ..⟩
  | .iFmul15 .. => ⟨_, rfl, .qOp h ..⟩
  | .iFmul31 .. => ⟨_, rfl, .qOp h ..⟩
  | .iSneg .. => ⟨_, rfl, .qOp h ..⟩
  | .iSabs .. => ⟨_, rfl, .qOp h ..⟩
  | .iClamp .. => ⟨_, rfl, .qClamp h ..⟩
  | .iClampu .. => ⟨_, rfl, .qClamp h ..⟩
  | .iLims .. => ⟨_, rfl, .qOp h ..⟩
  | .iLimu .. => ⟨_, rfl, .qOp h ..⟩
  | .iMac .. => ⟨_, rfl, .accOp h ..⟩
  | .iMsu .. => ⟨_, rfl, .accOp h ..⟩
  | .iMacu .. => ⟨_, rfl, .accOp h ..⟩
  | .iMz .. => ⟨_, rfl, .accOp h ..⟩
  | .iMac2h .. => ⟨_, rfl, .accOp h ..⟩
  | .iAclr .. => ⟨_, rfl, .accOp h ..⟩
  | .iAwl .. => ⟨_, rfl, .accOp h ..⟩
  | .iAwh .. => ⟨_, rfl, .accOp h ..⟩
  | .iAwg .. => ⟨_, rfl, .accOp h ..⟩
  | .iArd .. => ⟨_, rfl, .accRead h ..⟩
  | .iArdt .. => ⟨_, rfl, .accRead h ..⟩
  | .iArg .. => ⟨_, rfl, .accRead h ..⟩
  | .iLb .. => ⟨_, rfl, .loadOp h ..⟩
  | .iLbu .. => ⟨_, rfl, .loadOp h ..⟩
  | .iLh .. => ⟨_, rfl, .loadOp h ..⟩
  | .iLhu .. => ⟨_, rfl, .loadOp h ..⟩
  | .iLw .. => ⟨_, rfl, .loadOp h ..⟩
  | .iLd .. => ⟨_, rfl, .loadOp h ..⟩
  | .iSb .. => ⟨_, rfl, .storeOp h ..⟩
  | .iSh .. => ⟨_, rfl, .storeOp h ..⟩
  | .iSw .. => ⟨_, rfl, .storeOp h ..⟩
  | .iSd .. => ⟨_, rfl, .storeOp h ..⟩
  | .iB .. => ⟨_, rfl, .branchOp h ..⟩
  | .iBl .. => ⟨_, rfl, .linkOp h ..⟩
  | .iJr .. => ⟨_, rfl, .jumpOp h ..⟩
  | .iJlr .. => ⟨_, rfl, .jumpLinkOp h ..⟩
  | .iCsrr .. => ⟨_, rfl, .csrRead h ..⟩
  | .iCsrw .. => ⟨_, rfl, .csrWrite h ..⟩
  | .iCsrs .. => ⟨_, rfl, .csrWrite h ..⟩
  | .iCsrc .. => ⟨_, rfl, .csrWrite h ..⟩
  | .iNop .. => ⟨_, rfl, .issue h (fun _ h1 => (.nextInstr h1 ..)) ..⟩
  | .iWait .. => ⟨_, rfl, .issue h (fun _ h1 => (.waitFor h1 ..)) ..⟩
  | .iWaiti .. => ⟨_, rfl, .issue h (fun _ h1 => (.waitFor h1 ..)) ..⟩
  | .iFence .. => ⟨_, rfl, .issue h (fun _ h1 => (.fenceOp h1 ..)) ..⟩
  | .iBrk .. => ⟨_, rfl, .issue h (fun _ h1 => (.brkOp h1 ..)) ..⟩
  | .iSrd .. => ⟨_, rfl, .issue h (fun _ h1 => (.srdOp h1 ..)) ..⟩
  | .iSwr .. => ⟨_, rfl, .issue h (fun _ h1 => (.swrOp h1 ..)) ..⟩
  | .iTti .. => ⟨_, rfl, .issue h (fun _ h1 => (.presentTti h1 ..)) ..⟩
  | .iTtir .. => ⟨_, rfl, .issue h (fun _ h1 => (.presentTti h1 ..)) ..⟩
  | .iTtc .. => ⟨_, rfl, .issue h (fun _ h1 => (.ttcOp h1 ..)) ..⟩
  | .strobePresent .. => ⟨_, rfl, .strobePresent h ..⟩
  | .regionSleep .. => ⟨_, rfl, .regionSleep h ..⟩
  | .regionWakeWrite .. => ⟨_, rfl, .regionWakeWrite h ..⟩
  | .bmAccess .. => ⟨_, rfl, .bmAccess h ..⟩
  | .queuePush .. => ⟨_, rfl, .queuePush h ..⟩
  | .queuePop .. => ⟨_, rfl, .queuePop h ..⟩
  | .fabDisable => ⟨_, rfl, .fabDisable h ..⟩
  | .vtClaimUncorr .. => ⟨_, rfl, .claimUncorr h ..⟩
  | .pointsRequestWrite .. => ⟨_, rfl, (by split; exacts [(.ite (.pointsWrite h ..) h), (.pointsWrite h ..)])⟩
  | .ptsReq .. => ⟨_, rfl, .ptsReq h ..⟩
  | .pointsSample .. => ⟨_, rfl, .pointsSample h ..⟩
  | .switchInstant .. => ⟨_, rfl, .switchInstant h ..⟩
  | .planeClear .. => ⟨_, rfl, .planeClear h ..⟩
  | .planeClearDone .. => ⟨_, rfl, .clocked h (.planeClearDone h ..) ..⟩
  | .scrubWord .. => ⟨_, rfl, .clocked h (.scrubWord h ..) ..⟩
  | .ctxDisable => ⟨_, rfl, .ctxDisable h ..⟩
  | .regionStop .. => ⟨_, rfl, .regionStop h ..⟩
  | .stopEdge .. => ⟨_, rfl, .stopEdge h ..⟩
  | .regionStart .. => ⟨_, rfl, .regionStart h ..⟩
  | .releaseEdge .. => ⟨_, rfl, .releaseWith h ..⟩
  | .memRead .. => ⟨_, rfl, .memRead h ..⟩
  | .memWrite .. => ⟨_, rfl, .memWrite h ..⟩
  | .memSetAlias .. => ⟨_, rfl, .memWrite h ..⟩
  | .memClearAlias .. => ⟨_, rfl, .memWrite h ..⟩
  | .memReread .. => ⟨_, rfl, .clocked h (.memReread h ..) ..⟩
  | .patrolVisit .. => ⟨_, rfl, .clocked h (.patrolVisit h ..) ..⟩
  | .memGroupModeWrite .. => ⟨_, rfl, .groupModeWrite h ..⟩
  | .memGroupOwnerWrite .. => ⟨_, rfl, .groupOwnerWrite h ..⟩
  | .memDisable => ⟨_, rfl, .memDisable h ..⟩
  | .patrolDisable => ⟨_, rfl, .setFld h ..⟩
  | .memInitDone => ⟨_, rfl, .ite h (.setFld h ..)⟩
  | .mapLoad .. => ⟨_, rfl, .mapLoad h ..⟩
  | .mapWrite .. => ⟨_, rfl, .mapWrite h ..⟩
  | .sealedPageInitDone .. => ⟨_, rfl, .pageInitDone h ..⟩
  | .hwnOwnGive .. => ⟨_, rfl, .ownGive h ..⟩
  | .hwnOwnReclaim .. => ⟨_, rfl, .ownReclaim h ..⟩
  | .reclaimDone => ⟨_, rfl, .reclaimDone h ..⟩
  | .hostWindowRead .. => ⟨_, rfl, .hostAccess h ..⟩
  | .hostWindowWrite .. => ⟨_, rfl, .hostAccess h ..⟩
  | .cacheFillDone .. => ⟨_, rfl, .cacheFillDone h ..⟩
  | .fillTimeout .. => ⟨_, rfl, .fillTimeout h ..⟩
  | .schEnable => ⟨_, rfl, .schEnable h ..⟩
  | .schDisable => ⟨_, rfl, .schDisable h ..⟩
  | .schZero .. => ⟨_, rfl, .schZero h ..⟩
  | .rekeyGo => ⟨_, rfl, .rekeyGo h ..⟩
  | .rekeyVisit .. => ⟨_, rfl, .rekeyVisit h ..⟩
  | .ringTailWrite .. => ⟨_, rfl, .ringTail h ..⟩
  | .descriptorFetch .. => ⟨_, rfl, .descFetch h ..⟩
  | .toDevice .. => ⟨_, rfl, .toDevice h ..⟩
  | .toHost .. => ⟨_, rfl, .toHost h ..⟩
  | .reclaim .. => ⟨_, rfl, .reclaimDesc h ..⟩
  | .config .. => ⟨_, rfl, .configDesc h ..⟩
  | .descriptorComplete .. => ⟨_, rfl, .descComplete h ..⟩
  | .cplTimeout .. => ⟨_, rfl, .cplTimeout h ..⟩
  | .bmeClear => ⟨_, rfl, .hostBme h ..⟩
  | .bmeSet => ⟨_, rfl, .hostBme h ..⟩
  | .ringReset .. => ⟨_, rfl, .ringReset h ..⟩
  | .ringDisable .. => ⟨_, rfl, .ringDisable h ..⟩
  | .hwnDisable => ⟨_, rfl, .hwnDisable h ..⟩
  | .encDisable => ⟨_, rfl, .encDisable h ..⟩
  | .abortLogRead => ⟨_, rfl, .abortPop h ..⟩
  | .housekeepingRound .. => ⟨_, rfl, .housekeeping h ..⟩
  | .retrainStep .. => ⟨_, rfl, .retrainStep h ..⟩
  | .sidingSwitch .. => ⟨_, rfl, .sidingSwitch h ..⟩
  | .linkFence .. => ⟨_, rfl, .fence (.setFld h ..) ..⟩
  | .linkRetrainWrite .. => ⟨_, rfl, .linkRetrain h ..⟩
  | .startupTrainingDone .. => ⟨_, rfl, .startupTraining h ..⟩
  | .stkDisable => ⟨_, rfl, .stkDisable h ..⟩
  | .sessionOpen .. => ⟨_, rfl, .sessionOpen h ..⟩
  | .loadWindowWrite .. => ⟨_, rfl, .loadWindow h ..⟩
  | .bsSync => ⟨_, rfl, .bsSync h ..⟩
  | .bsHeader => ⟨_, rfl, .bsHeader h ..⟩
  | .bsSelect => ⟨_, rfl, .bsSelect h ..⟩
  | .bsFrame => ⟨_, rfl, .bsFrame h ..⟩
  | .bsRepeat => ⟨_, rfl, .bsRepeat h ..⟩
  | .bsInitvec => ⟨_, rfl, .bsInitvec h ..⟩
  | .bsCuffset => ⟨_, rfl, .bsCuffset h ..⟩
  | .bsRelease => ⟨_, rfl, .bsRelease h ..⟩
  | .bsEnd => ⟨_, rfl, .bsEnd h ..⟩
  | .bsSignature => ⟨_, rfl, .bsSignature h ..⟩
  | .verificationDone => ⟨_, rfl, .verifyDone h ..⟩
  | .failureSequenceEnd => ⟨_, rfl, .ite h (.failEnd h ..)⟩
  | .sessionFinish => ⟨_, rfl, .endEarly h ..⟩
  | .sessionAbort => ⟨_, rfl, .endEarly h ..⟩
  | .sessionIdleTimeout => ⟨_, rfl, .idleTimeout h ..⟩
  | .deadlineExpire => ⟨_, rfl, .deadlineExpire h ..⟩
  | .reveal => ⟨_, rfl, .reveal h ..⟩
  | .readback => ⟨_, rfl, .readback h ..⟩
  | .cfgDisable => ⟨_, rfl, .cfgDisable h ..⟩
  | .linkUp .. => ⟨_, rfl, .pciLink h ..⟩
  | .configRequest .. => ⟨_, rfl, .configRequest h ..⟩
  | .bar0Read .. => ⟨_, rfl, .bar0Read h ..⟩
  | .bar2Read .. => ⟨_, rfl, .bar2Read h ..⟩
  | .bar2Write .. => ⟨_, rfl, .bar2Write h ..⟩
  | .ufRequest .. => ⟨_, rfl, .ufRequest h ..⟩
  | .ufCompletion .. => ⟨_, rfl, .ufCompletion h ..⟩
  | .ufTimeout .. => ⟨_, rfl, .ufTimeout h ..⟩
  | .ufMsixReq .. => ⟨_, rfl, .ufMsix h ..⟩
  | .msixSend .. => ⟨_, rfl, .ite h (.ite (.sendVec0 h ..) (.sendVecUf h ..))⟩
  | .d3hotEnter => ⟨_, rfl, .d3Enter h ..⟩
  | .d0Return => ⟨_, rfl, .d0Return h ..⟩
  | .l1Entry => ⟨_, rfl, .l1Entry h ..⟩
  | .pciDisable => ⟨_, rfl, .pciDisable h ..⟩
  | .sbxDoorbell => ⟨_, rfl, .doorbell h ..⟩
  | .getInfo => ⟨_, rfl, .getInfo h ..⟩
  | .getSensors => ⟨_, rfl, .getSensors h ..⟩
  | .readLog => ⟨_, rfl, .readLog h ..⟩
  | .attest => ⟨_, rfl, .attest h ..⟩
  | .fwUpdateBegin => ⟨_, rfl, .updateBegin h ..⟩
  | .fwUpdateChunk .. => ⟨_, rfl, .updateChunk h ..⟩
  | .fwUpdateCommit => ⟨_, rfl, .updateCommit h ..⟩
  | .setOp => ⟨_, rfl, .setOp h ..⟩
  | .fuseProgram .. => ⟨_, rfl, .fuseProgram h ..⟩
  | .keySlotProgram .. => ⟨_, rfl, .keySlotReq h ..⟩
  | .keySlotRevoke .. => ⟨_, rfl, .keySlotReq h ..⟩
  | .debugUnlockNonce => ⟨_, rfl, .unlockNonce h ..⟩
  | .debugUnlockRespond => ⟨_, rfl, .unlockRespond h ..⟩
  | .sbxResponse => ⟨_, rfl, .sbxResponse h ..⟩
  | .mergeWindowEnd .. => ⟨_, rfl, .mergeWindowEnd h ..⟩
  | .mirrorCopy => ⟨_, rfl, .mirrorCopy h ..⟩
  | .sbxFuseArm .. => ⟨_, rfl, .fuseArm h ..⟩
  | .fuseArmExpire => ⟨_, rfl, .disarm h ..⟩
  | .sbxBoot => ⟨_, rfl, .sbxBoot h ..⟩
  | .trialTimeout .. => ⟨_, rfl, .trialTimeout h ..⟩
  | .fwHang => ⟨_, rfl, .fwHang h ..⟩
  | .wdogKick .. => ⟨_, rfl, .wdogKick h ..⟩
  | .wdogWarn => ⟨_, rfl, .wdogWarn h ..⟩
  | .wdogExpire => ⟨_, rfl, .wdogExpire h ..⟩
  | .nonceExpire => ⟨_, rfl, .setSbx h ..⟩
  | .sbxDisable => ⟨_, rfl, .sbxDisable h ..⟩
  | .sbxSreset => ⟨_, rfl, .sbxSreset h ..⟩
  | .oscJudgeWindow .. => ⟨_, rfl, .judgeWindow h ..⟩
  | .clkMonTrip => ⟨_, rfl, .monTrip h ..⟩
  | .freezeTimeout => ⟨_, rfl, .freezeTimeout h ..⟩
  | .sysclkReturn => ⟨_, rfl, .sysclkReturn h ..⟩
  | .xoFail => ⟨_, rfl, .xoFail h ..⟩
  | .fpllEnable .. => ⟨_, rfl, .fpllEnable h ..⟩
  | .fpllDisable .. => ⟨_, rfl, .fpllDisable h ..⟩
  | .pllLock .. => ⟨_, rfl, .pllLock h ..⟩
  | .opRequest .. => ⟨_, rfl, .opRequest h ..⟩
  | .avsAck .. => ⟨_, rfl, .avsAck h ..⟩
  | .avsTimeout .. => ⟨_, rfl, .avsTimeout h ..⟩
  | .gateAck .. => ⟨_, rfl, .gateAck h ..⟩
  | .gateTimeout .. => ⟨_, rfl, .gateTimeout h ..⟩
  | .nmiClear .. => ⟨_, rfl, .nmiClear h ..⟩
  | .clkDisable => ⟨_, rfl, .clkDisable h ..⟩
  | .por => ⟨_, rfl, .porReset  ..⟩
  | .pin => ⟨_, rfl, .assertPin h ..⟩
  | .swfull .. => ⟨_, rfl, .ite (.assertPin h ..) h⟩
  | .perst => ⟨_, rfl, .ite h (.ite (.other h) (.hostReset (.assertCause (.other h) ..) ..))⟩
  | .hotrst => ⟨_, rfl, .ite h (.hostReset (.assertCause (.other h) ..) ..)⟩
  | .dieReset .. => ⟨_, rfl, .dieAssert h ..⟩
  | .rstBlockWrite .. => ⟨_, rfl, .rstBlockWrite h ..⟩
  | .idleAck .. => ⟨_, rfl, .ite (.force h ..) h⟩
  | .idleTimeout .. => ⟨_, rfl, .ite (.force (.raise (.setFld (.satInc h ..) ..) ..) ..) h⟩
  | .resetPulseEnd .. => ⟨_, rfl, .pulseOver h ..⟩
  | .resetRelease .. => ⟨_, rfl, .resetRelease h ..⟩
  | .releaseStep .. => ⟨_, rfl, .releaseStep h (fun _ h1 => (.icTest h1 ..)) ..⟩
  | .fuseLoadAttemptEnd .. => ⟨_, rfl, .ite h (.ite (.fusesLoaded h ..) (.fuseFailed h ..))⟩
  | .powerEntry .. => ⟨_, rfl, .powerEntry h ..⟩
  | .powerEntryStep .. => ⟨_, rfl, .powerEntryStep h ..⟩
  | .wakeN => ⟨_, rfl, .ite h (.wakeSource h ..)⟩
  | .pcieWake .. => ⟨_, rfl, .ite (.resetRelease h ..) (.wakeSource h ..)⟩
  | .wakeTimer => ⟨_, rfl, .ite h (.wakeSource h ..)⟩
  | .wakeStep => ⟨_, rfl, .wakeStep h ..⟩
  | .wakeStepTimeout => ⟨_, rfl, .ite (.wakeFail h ..) h⟩
  | .railLost .. => ⟨_, rfl, .railLost h ..⟩
  | .wakeRearm => ⟨_, rfl, .ite (.setPwr h ..) h⟩
  | .pwrDisable => ⟨_, rfl, .pwrDisable h ..⟩
  | .tripThermAssert => ⟨_, rfl, .ite (.assertTherm h ..) h⟩
  | .sleepTripCheck .. => ⟨_, rfl, .sleepTrip h ..⟩
  | .thmDisable => ⟨_, rfl, .thmDisable h ..⟩
  | .bstGo .. => ⟨_, rfl, .bstGo h ..⟩
  | .copyDone .. => ⟨_, rfl, .clocked h (.copyDone h ..) ..⟩
  | .marchPassEnd .. => ⟨_, rfl, .clocked h (.marchPassEnd h ..) ..⟩
  | .remarchEnd .. => ⟨_, rfl, .clocked h (.remarchEnd h ..) ..⟩
  | .restoreDone .. => ⟨_, rfl, .clocked h (.restoreDone h ..) ..⟩
  | .bstResultRead => ⟨_, rfl, .resultRead h ..⟩
  | .bstDisable => ⟨_, rfl, .bstDisable h ..⟩
  | .testLogicReset => ⟨_, rfl, .tapReset h ..⟩
  | .extest .. => ⟨_, rfl, .scanBoundary (.loadIr h ..) ..⟩
  | .idcode => ⟨_, rfl, .setDbg (.loadIr h ..) ..⟩
  | .samplePreload .. => ⟨_, rfl, .scanBoundary (.loadIr h ..) ..⟩
  | .jtagClamp .. => ⟨_, rfl, .scanHold h ..⟩
  | .highz .. => ⟨_, rfl, .scanHold h ..⟩
  | .bypass .. => ⟨_, rfl, .scanBypass (.loadIr h ..) ..⟩
  | .dbgSelect .. => ⟨_, rfl, .setDbg (.loadIr h ..) ..⟩
  | .dbgAccess .. => ⟨_, rfl, .dbgAccess h ..⟩
  | .dbgAccessDone .. => ⟨_, rfl, .dbgAccessDone h ..⟩
  | .dbgAccessTimeout => ⟨_, rfl, .ite (.dropDebug (.dbgEnd h ..) ..) h⟩
  | .dbgUnlockNonce => ⟨_, rfl, .newNonce (.unlockScan h ..) ..⟩
  | .dbgUnlockRespond .. => ⟨_, rfl, .tapRespond h ..⟩
  | .unlockVerifyDone => ⟨_, rfl, .unlockVerified h ..⟩
  | .threadHalt .. => ⟨_, rfl, .ite (.haltRequest h ..) h⟩
  | .threadStep .. => ⟨_, rfl, .ite (.stepThread h ..) h⟩
  | .threadResume .. => ⟨_, rfl, .ite (.resumeThread h ..) h⟩
  | .regionFreeze .. => ⟨_, rfl, .ite (.regionFreeze h ..) h⟩
  | .freezeEdge .. => ⟨_, rfl, .freezeEdge h ..⟩
  | .regionUnfreeze .. => ⟨_, rfl, .ite (.regionUnfreeze h ..) h⟩
  | .regionPulse .. => ⟨_, rfl, .ite (.regionPulse h ..) h⟩
  | .pulseEnd .. => ⟨_, rfl, .edgesDone h ..⟩
  | .regionCapture .. => ⟨_, rfl, .ite (.regionCapture h ..) h⟩
  | .dbgFrameGo => ⟨_, rfl, .ite (.frameGo h ..) h⟩
  | .dbgDisable => ⟨_, rfl, .dbgDisable h ..⟩
  | .bankClockLock .. => ⟨_, rfl, .bankLock h ..⟩
  | .bitslip .. => ⟨_, rfl, .bitslip h ..⟩
  | .endModule .. => ⟨_, rfl, .ite h (.setModule h ..)⟩
  | .idle .. => ⟨_, rfl, .ite h (.moduleIdle h ..)⟩
  | .flitCrcError .. => ⟨_, rfl, .ite h (.crcError h ..)⟩
  | .chkLock .. => ⟨_, rfl, .chkLock h ..⟩
  | .fallbackApply .. => ⟨_, rfl, .fallbackApply h ..⟩
  | .modulePulseEnd .. => ⟨_, rfl, .pulseEnd h ..⟩
  | .illegalInstruction .. => ⟨_, rfl, .illegalInstruction h ..⟩
  | .fetchFault .. => ⟨_, rfl, .fetchFault h ..⟩
  | .endpointReady => ⟨_, rfl, .endpointReady h ..⟩

/-! ### The step -/

/-- A command ends with its events written. -/
theorem Keeps.exec_next (h : Keeps o s) {c : Instr} {t : State} (ht : Machine.exec c s = .next t) : Keeps o t ∧ Quiet t := by
  obtain ⟨u, hu, hkeeps⟩ := h.exec c
  have hend : Machine.finish u = t := Host.Outcome.next.inj (hu.symm.trans ht)
  exact ⟨hend ▸ hkeeps.finish, hend ▸ finish_evq u⟩

theorem Keeps.step {s t : State} (ht : Machine.step s = .next t) : Keeps s t := by
  unfold Machine.step at ht
  split at ht
  · exact Host.Outcome.next.inj ht ▸ (Keeps.refl s).tick
  next rest heq => exact ((Keeps.refl s).other.exec_next ht).1

/-! ### A clock of the fabric raises no event -/

theorem forEach_evq {α : Type} {f : State → α → State} (hf : ∀ s x, (f s x).evq = s.evq) (l : List α) (s : State) :
    (forEach l f s).evq = s.evq :=
  forEach_keeps (P := fun u => u.evq = s.evq) (fun u x hu => (hf u x).trans hu) l rfl

theorem captureRegion_evq (s t : State) (r : Nat) (ns : List Nat) : (captureRegion s t r ns).evq = t.evq := by
  refine forEach_evq (fun t tile => ?_) _ _
  rfl

theorem mulEdges_evq (s : State) (d r : Nat) (ns : List Nat) : (mulEdges s d r ns).evq = s.evq := by
  refine forEach_evq (fun s i => ?_) _ _
  rfl

theorem bmEdges_evq (s : State) (d r : Nat) (ns : List Nat) : (bmEdges s d r ns).evq = s.evq := by
  refine forEach_evq (fun s i => ?_) _ _
  rfl

theorem outputsEdge_evq (s : State) (r : Nat) (ns : List Nat) : (outputsEdge s r ns).evq = s.evq := rfl

theorem settle_evq (s : State) : (settle s).evq = s.evq := forEach_evq (fun _ _ => captureRegion_evq ..) ..

theorem pulseCount_evq (s : State) (r : Nat) : (pulseCount s r).evq = s.evq := by
  unfold pulseCount
  split <;> rfl

theorem clockEdge_evq (s : State) (l : List (Nat × List Nat)) : (clockEdge s l).evq = s.evq := by
  unfold clockEdge
  dsimp only
  rw [forEach_evq fun t x => by rw [outputsEdge_evq, bmEdges_evq, mulEdges_evq], forEach_evq fun t x => captureRegion_evq .., settle_evq]

theorem tick_evq (s : State) : (tick s).evq = s.evq := by
  unfold tick
  dsimp only
  split
  · rfl
  · rw [forEach_evq pulseCount_evq, clockEdge_evq, drawn_evq]

end Sys2Proof.Machine
end

section
open Sys2Proof Sys2Proof.Machine

/-- Settles O1: it is how a step is defined. -/
theorem stepRunsTheFrontCommand : Obligations.StepRunsTheFrontCommand := by
  refine ⟨fun c r s h => ?_, fun s h => ?_⟩
  · rw [step, h]
  · rw [step, h]

/-- Settles O2: each arm of `exec` ends in `done`, which writes the events (`Keeps.exec`). -/
theorem everyCommandCompletes : Obligations.EveryCommandCompletes := by
  intro c s
  obtain ⟨t, ht, -⟩ := (Keeps.refl s).exec c
  exact ⟨finish t, ht, finish_evq t⟩

/-- Settles O3: by `Keeps.exec` for a command and by `Keeps.tick` for an edge of a fabric clock; neither leaves an event waiting. -/
theorem everyStepKeepsTheCanonicalForm : Obligations.EveryStepKeepsTheCanonicalForm := by
  intro s t hcanon hquiet ht
  refine ⟨(Keeps.step ht).1 hcanon, ?_⟩
  unfold step at ht
  split at ht
  · rw [← Host.Outcome.next.inj ht, Quiet, tick_evq]
    exact hquiet
  next rest heq => exact ((Keeps.refl _).exec_next ht).2

/-- Settles O4: the log is the other half of what `Keeps` says. -/
theorem everyStepKeepsTheLog : Obligations.EveryStepKeepsTheLog := fun _ _ hlog ht => (Keeps.step ht).2 hlog

/-- Settles O5: nothing is listed in the maps of the state after reset. -/
theorem resetIsCanonical : Obligations.ResetIsCanonical :=
  ⟨⟨rfl, rfl, reset_wf⟩, rfl, logHolds_reset, rfl, rfl, fun _ => rfl, fun _ _ => rfl, fun _ => rfl⟩

end

section
/-! SUPPORT. The integer, logic, move and shift instructions (R176, R177): their results in the terms of the claims, and one rule
for each format. -/
namespace Sys2Proof.Machine

/-! ### Results -/

/-- Signed overflow of a sum, told from the signs. -/
theorem toInt_add_carry_ne_iff (a b r : Word) {c : Nat} (hc : c ≤ 1) (hr : r.toNat = (a.toNat + b.toNat + c) % 2 ^ 32) :
    (a.toInt + b.toInt + (c : Int) ≠ r.toInt) ↔ (a.msb = b.msb ∧ r.msb ≠ a.msb) := by
  have ha := a.isLt
  have hb := b.isLt
  simp only [BitVec.toInt_eq_toNat_cond, BitVec.msb_eq_decide, ne_eq, decide_eq_decide, hr]
  split_ifs <;> omega

/-- Signed overflow of a difference, told from the signs. -/
theorem toInt_sub_borrow_ne_iff (a b r : Word) {c : Nat} (hc : c ≤ 1) (hr : r.toNat = (2 ^ 33 + a.toNat - b.toNat - c) % 2 ^ 32) :
    (a.toInt - b.toInt - (c : Int) ≠ r.toInt) ↔ (a.msb ≠ b.msb ∧ r.msb ≠ a.msb) := by
  have ha := a.isLt
  have hb := b.isLt
  simp only [BitVec.toInt_eq_toNat_cond, BitVec.msb_eq_decide, ne_eq, decide_eq_decide, hr]
  split_ifs <;> omega

theorem addFl_eq (a b : Word) (c : Bool) : addFl a b c = (a + b + (if c then 1 else 0), fl4 (a + b + (if c then 1 else 0))
    (decide (2 ^ 32 ≤ a.toNat + b.toNat + c.toNat)) (a.msb == b.msb && (a + b + (if c then 1 else 0)).msb != a.msb)) := by
  have hr : BitVec.ofNat 32 (a.toNat + b.toNat + c.toNat) = a + b + (if c then 1 else 0) := by
    cases c <;> apply BitVec.eq_of_toNat_eq <;> simp
  have hv : decide (a.toInt + b.toInt + (c.toNat : Int) ≠ (a + b + (if c then 1 else 0)).toInt) =
      (a.msb == b.msb && (a + b + (if c then 1 else 0)).msb != a.msb) := by
    rw [Bool.eq_iff_iff, decide_eq_true_iff, toInt_add_carry_ne_iff a b _ (Bool.toNat_le c) (by rw [← hr]; rfl)]
    simp
  simp only [addFl, hr, hv, fl4]

theorem subFl_eq (a b : Word) (c : Bool) : subFl a b c = (a - b - (if c then 1 else 0), fl4 (a - b - (if c then 1 else 0))
    (decide (a.toNat < b.toNat + c.toNat)) (a.msb != b.msb && (a - b - (if c then 1 else 0)).msb != a.msb)) := by
  have hr : a - b - BitVec.ofNat 32 c.toNat = a - b - (if c then 1 else 0) := by cases c <;> rfl
  have hn : (a - b - BitVec.ofNat 32 c.toNat).toNat = (2 ^ 33 + a.toNat - b.toNat - c.toNat) % 2 ^ 32 := by
    have hc := Bool.toNat_le c
    have ha := a.isLt
    have hb := b.isLt
    simp only [BitVec.toNat_sub, BitVec.toNat_ofNat]
    omega
  have hv : decide (a.toInt - b.toInt - (c.toNat : Int) ≠ (a - b - (if c then 1 else 0)).toInt) =
      (a.msb != b.msb && (a - b - (if c then 1 else 0)).msb != a.msb) := by
    rw [Bool.eq_iff_iff, decide_eq_true_iff, toInt_sub_borrow_ne_iff a b _ (Bool.toNat_le c) (hr ▸ hn)]
    simp
  simp only [subFl, hr, hv, fl4]

theorem ite_toInt_le_left (a b : Word) : (if a.toInt ≤ b.toInt then a else b) = if a.slt b then a else b := by
  simp only [BitVec.slt_iff_toInt_lt]
  split <;> split
  · rfl
  · exact BitVec.eq_of_toInt_eq (by omega)
  · omega
  · rfl

theorem ite_toInt_le_right (a b : Word) : (if a.toInt ≤ b.toInt then b else a) = if a.slt b then b else a := by
  simp only [BitVec.slt_iff_toInt_lt]
  split <;> split
  · rfl
  · exact BitVec.eq_of_toInt_eq (by omega)
  · omega
  · rfl

theorem ite_toNat_le_left (a b : Word) : (if a.toNat ≤ b.toNat then a else b) = if a < b then a else b := by
  simp only [BitVec.lt_def]
  split <;> split
  · rfl
  · exact BitVec.eq_of_toNat_eq (by omega)
  · omega
  · rfl

theorem ite_toNat_le_right (a b : Word) : (if a.toNat ≤ b.toNat then b else a) = if a < b then b else a := by
  simp only [BitVec.lt_def]
  split <;> split
  · rfl
  · exact BitVec.eq_of_toNat_eq (by omega)
  · omega
  · rfl

theorem mulHigh_signed (a b : Word) :
    BitVec.ofInt 32 (a.toInt * b.toInt / 2 ^ 32) = ((a.signExtend 64 * b.signExtend 64) >>> 32).setWidth 32 := by
  have hprod : a.signExtend 64 * b.signExtend 64 = BitVec.ofInt 64 (a.toInt * b.toInt) := (BitVec.ofInt_mul ..).symm
  rw [hprod]
  apply BitVec.eq_of_toNat_eq
  simp only [BitVec.toNat_ofInt, BitVec.toNat_setWidth, BitVec.toNat_ushiftRight, Nat.shiftRight_eq_div_pow]
  omega

theorem mulHigh_unsigned (a b : Word) :
    BitVec.ofNat 32 (a.toNat * b.toNat / 2 ^ 32) = ((a.zeroExtend 64 * b.zeroExtend 64) >>> 32).setWidth 32 := by
  have hlt : a.toNat * b.toNat < 2 ^ 64 := by
    calc a.toNat * b.toNat < 2 ^ 32 * 2 ^ 32 := Nat.mul_lt_mul'' a.isLt b.isLt
      _ = 2 ^ 64 := by norm_num
  apply BitVec.eq_of_toNat_eq
  have ha : a.toNat % 2 ^ 64 = a.toNat := Nat.mod_eq_of_lt (by omega)
  have hb : b.toNat % 2 ^ 64 = b.toNat := Nat.mod_eq_of_lt (by omega)
  simp only [BitVec.toNat_ofNat, BitVec.toNat_setWidth, BitVec.toNat_ushiftRight, BitVec.toNat_mul, Nat.shiftRight_eq_div_pow, ha, hb,
    Nat.mod_eq_of_lt hlt]

/-- A difference without a borrow coming in. -/
theorem subFl_false (a b : Word) : subFl a b false =
    (a - b, fl4 (a - b) (decide (a.toNat < b.toNat)) (a.msb != b.msb && (a - b).msb != a.msb)) := by
  simp [subFl_eq]

theorem leadingZeros_eq_clz (a : Word) : BitVec.ofNat 32 (leadingZeros a) = a.clz := by
  by_cases h : a = 0
  · subst h
    decide
  have hne : a.toNat ≠ 0 := fun e => h (BitVec.eq_of_toNat_eq e)
  have hle := BitVec.two_pow_sub_clz_le_toNat_of_ne_zero (by decide) h
  have hlt := BitVec.toNat_lt_two_pow_sub_clz (x := a)
  have hclz : a.clz.toNat < 32 := BitVec.clz_lt_iff_ne_zero.2 h
  have hlog : Nat.log2 a.toNat = 31 - a.clz.toNat := by
    rw [Nat.log2_eq_iff hne]
    exact ⟨hle, by rwa [show 31 - a.clz.toNat + 1 = 32 - a.clz.toNat by omega]⟩
  rw [leadingZeros, if_neg hne, hlog, show 32 - (31 - a.clz.toNat + 1) = a.clz.toNat by omega, BitVec.ofNat_toNat,
    BitVec.setWidth_eq]

theorem onesIn_eq_countP (a : Word) : onesIn a = (List.finRange 32).countP fun i => a[i] := by
  rw [onesIn, ← List.countP_eq_length_filter, ← List.map_coe_finRange_eq_range, List.countP_map]
  rfl

theorem append_low_half (a : Word) (i : BitVec 16) :
    i ++ a.extractLsb' 0 16 = BitVec.ofNat 32 (i.toNat * 2 ^ 16 + a.toNat % 2 ^ 16) := by
  apply BitVec.eq_of_toNat_eq
  rw [BitVec.toNat_append, ← Nat.shiftLeft_add_eq_or_of_lt (BitVec.isLt _), Nat.shiftLeft_eq]
  simp only [BitVec.extractLsb'_toNat, Nat.shiftRight_zero, BitVec.toNat_ofNat]
  omega

theorem shl_eq_mul (a : Word) (k : Nat) : shiftBy .shl a k = a * BitVec.ofNat 32 (2 ^ k) := by
  apply BitVec.eq_of_toNat_eq
  simp [shiftBy, Nat.shiftLeft_eq, Nat.mul_mod]

theorem shr_eq_div (a : Word) (k : Nat) : shiftBy .shr a k = BitVec.ofNat 32 (a.toNat / 2 ^ k) := by
  apply BitVec.eq_of_toNat_eq
  have hlt : a.toNat / 2 ^ k < 2 ^ 32 := lt_of_le_of_lt (Nat.div_le_self ..) a.isLt
  simp only [shiftBy, BitVec.toNat_ushiftRight, Nat.shiftRight_eq_div_pow, BitVec.toNat_ofNat, Nat.mod_eq_of_lt hlt]

theorem sar_eq_div (a : Word) (k : Nat) : shiftBy .sar a k = BitVec.ofInt 32 (a.toInt / 2 ^ k) := by
  rw [← BitVec.ofInt_toInt (x := shiftBy .sar a k), shiftBy, BitVec.toInt_sshiftRight, Int.shiftRight_eq_div_pow]
  norm_cast

theorem ror_eq_sum (a : Word) {k : Nat} (hk : k < 32) :
    shiftBy .ror a k = BitVec.ofNat 32 (a.toNat / 2 ^ k + a.toNat * 2 ^ (32 - k)) := by
  apply BitVec.eq_of_toNat_eq
  have hlow : a.toNat >>> k < 2 ^ (32 - k) := by
    rw [Nat.shiftRight_eq_div_pow, Nat.div_lt_iff_lt_mul (by positivity), ← pow_add, show 32 - k + k = 32 by omega]
    exact a.isLt
  have hdvd : 2 ^ (32 - k) ∣ (a.toNat <<< (32 - k)) % 2 ^ 32 := by
    rw [Nat.shiftLeft_eq, Nat.dvd_mod_iff (Nat.pow_dvd_pow 2 (by omega))]
    exact Nat.dvd_mul_left ..
  obtain ⟨m, hm⟩ := hdvd
  have hsum : (shiftBy .ror a k).toNat = a.toNat * 2 ^ (32 - k) % 2 ^ 32 + a.toNat / 2 ^ k := by
    rw [shiftBy, BitVec.toNat_rotateRight, Nat.mod_eq_of_lt hk, hm, Nat.or_comm, Nat.mul_comm, ← Nat.shiftLeft_eq,
      ← Nat.shiftLeft_add_eq_or_of_lt hlow, Nat.shiftLeft_eq, Nat.mul_comm m, ← hm, Nat.shiftRight_eq_div_pow, Nat.shiftLeft_eq]
  have hlt := (shiftBy .ror a k).isLt
  rw [hsum] at hlt
  rw [hsum, BitVec.toNat_ofNat]
  generalize a.toNat * 2 ^ (32 - k) = x at *
  generalize a.toNat / 2 ^ k = y at *
  omega

/-! ### One rule for each format -/

theorem flagsZN_eq_fl4 (f : Flg) (r : Word) : flagsZN f r = fl4 r f.c f.v := rfl

/-- A register operation `op` with result `r`, and the C and V it gives. -/
theorem aluRule_of_exec {fn : Nat} {mk : Fin 96 → Fin 4 → Fin 16 → Fin 16 → Fin 16 → Bool → Instr}
    {r : Word → Word → Bool → Word} {c v : Word → Word → Flg → Bool} (op : Flg → Word → Word → Word × Flg)
    (hop : ∀ f a b, op f a b = (r a b f.c, fl4 (r a b f.c) (c a b f) (v a b f)))
    (hexec : ∀ n t rd rs1 rs2 f s, exec (mk n t rd rs1 rs2 f) s = done (alu n t rd rs1 rs2 f fn op s)) :
    AluRule fn mk r c v := by
  intro n t rd rs1 rs2 f s h
  refine completes_thread_of_issues h (hexec n t rd rs1 rs2 f s) ?_ (onlyGs_withReg s n t rd _ rfl rfl)
  simp only [hop]
  exact (keepsGoing_of_issues h).writeRes ..

/-- An operation that leaves C and V. -/
theorem aluRule_of_plainOp {fn : Nat} {mk : Fin 96 → Fin 4 → Fin 16 → Fin 16 → Fin 16 → Bool → Instr}
    {r : Word → Word → Bool → Word} (op : Flg → Word → Word → Word × Flg) (hop : ∀ f a b, op f a b = plainOp f (r a b f.c))
    (hexec : ∀ n t rd rs1 rs2 f s, exec (mk n t rd rs1 rs2 f) s = done (alu n t rd rs1 rs2 f fn op s)) :
    AluRule fn mk r keepC keepV :=
  aluRule_of_exec op hop hexec

theorem unaryRule_of_plainOp {fn : Nat} {mk : Fin 96 → Fin 4 → Fin 16 → Fin 16 → Bool → Instr} {r : Word → Word}
    (op : Flg → Word → Word → Word × Flg) (hop : ∀ f a b, op f a b = plainOp f (r a))
    (hexec : ∀ n t rd rs1 f s, exec (mk n t rd rs1 f) s = done (alu n t rd rs1 0 f fn op s)) : UnaryRule fn mk r := by
  intro n t rd rs1 f s h
  refine completes_thread_of_issues h (hexec n t rd rs1 f s) ?_ (onlyGs_withReg s n t rd _ rfl rfl)
  simp only [hop, plainOp]
  exact (keepsGoing_of_issues h).writeRes ..

/-- An instruction that writes rd and goes on. -/
theorem KeepsGoing.nextInstr_setG {s : State} {n t : Nat} (h : KeepsGoing s n t) (rd : Nat) (r : Word) :
    Machine.nextInstr (setG s n t rd r) n t =
      Machine.setThread s n t (withReg (goesOn (thread s n t) (flg s n t) (pc4 s n t)) t rd r) := by
  simp [setG, h.nextInstr_setThread, withReg, goesOn, flg, pc4, gDef]

theorem completes_writesReg {i : Instr} {s : State} {n t rd w : Nat} {r : State → Word} (h : Issues s n t w)
    (hexec : exec i s = done (issue s n t w fun s => nextInstr (setG s n t rd (r s)) n t)) :
    Completes i s [] (WritesReg n t rd (r s) (flg s n t) s) :=
  completes_thread_of_issues h hexec ((keepsGoing_of_issues h).nextInstr_setG ..) (onlyGs_withReg s n t rd _ rfl rfl)

theorem immRule_of_exec {major : Nat} {mk : Fin 96 → Fin 4 → Fin 16 → Fin 16 → BitVec 18 → Instr} {r : Word → BitVec 18 → Word}
    (hexec : ∀ n t rd rs1 imm s, exec (mk n t rd rs1 imm) s = done (aluImm n t rd rs1 imm major r s)) : ImmRule major mk r :=
  fun n t rd rs1 imm s h => completes_writesReg (r := fun s => r (gReg s n t rs1) imm) h (hexec n t rd rs1 imm s)

/-- An instruction that writes the flags alone and goes on. -/
theorem completes_writesFlags {i : Instr} {s : State} {n t w : Nat} {fl : State → Flg} (h : Issues s n t w)
    (hexec : exec i s = done (issue s n t w fun s => nextInstr (setFlg s n t (fl s)) n t)) :
    Completes i s [] (WritesFlags n t (fl s) s) := by
  refine completes_thread_of_issues h hexec ?_ ⟨onlyThread_setThread .., thread_setThread_same ..⟩
  simp [setFlg, (keepsGoing_of_issues h).nextInstr_setThread, goesOn, pc4]

theorem flagsShift_eq_fl4 (old : Flg) (kind : ShKind) (a : Word) (k : Nat) :
    flagsShift old kind a k = fl4 (shiftBy kind a k) (shiftOut kind a k old.c) old.v := rfl

theorem shiftRule_of_exec {fn k : Nat} (kind : ShKind) {mk : Fin 96 → Fin 4 → Fin 16 → Fin 16 → Fin 16 → Bool → Instr}
    {mkI : Fin 96 → Fin 4 → Fin 16 → Fin 16 → BitVec 5 → Bool → Instr} {r : Word → Nat → Word} {out : Word → Nat → Bool}
    (hr : ∀ (a : Word) (sh : BitVec 5), shiftBy kind a sh.toNat = r a sh.toNat)
    (hout : ∀ (a : Word) (sh : BitVec 5) (c : Bool), shiftOut kind a sh.toNat c = if sh = 0 then c else out a sh.toNat)
    (hexec : ∀ n t rd rs1 rs2 f s, exec (mk n t rd rs1 rs2 f) s = done (alu n t rd rs1 rs2 f fn (opShift kind) s))
    (hexecI : ∀ n t rd rs1 sh f s, exec (mkI n t rd rs1 sh f) s = done (shiftImm n t rd rs1 sh f k kind s)) :
    ShiftRule fn k mk mkI r out := by
  intro n t rd rs1 rs2 sh f s
  refine ⟨fun h hsh => ?_, fun h => ?_⟩
  · refine completes_thread_of_issues h (hexec n t rd rs1 rs2 f s) ?_ (onlyGs_withReg s n t rd _ rfl rfl)
    simp only [opShift, hsh, flagsShift_eq_fl4, hr, hout]
    exact (keepsGoing_of_issues h).writeRes ..
  · refine completes_thread_of_issues h (hexecI n t rd rs1 sh f s) ?_ (onlyGs_withReg s n t rd _ rfl rfl)
    simp only [flagsShift_eq_fl4, hr, hout]
    exact (keepsGoing_of_issues h).writeRes ..

theorem shiftOut_eq (kind : ShKind) (a : Word) (sh : BitVec 5) (c : Bool) :
    shiftOut kind a sh.toNat c = if sh = 0 then c else match kind with
      | .shl => a.getLsbD (32 - sh.toNat)
      | _ => a.getLsbD (sh.toNat - 1) := by
  have h : sh.toNat = 0 ↔ sh = 0 := by rw [← BitVec.toNat_inj]; rfl
  simp only [shiftOut, h] <;> rfl

end Sys2Proof.Machine
end

section
open Sys2Proof Sys2Proof.Machine

/-- Settles O21: each instruction follows the rule of its format, its operation brought to plain arithmetic. -/
theorem integerAndLogicOperations : Obligations.IntegerAndLogicOperations := by
  refine ⟨?add, ?sub, ?adc, ?sbc, ?min, ?max, ?minu, ?maxu, ?mul, ?mulh, ?mulhu, ?clz, ?popc, ?cmp, ?cmpi, ?addi, ?and, ?or, ?xor,
    ?andn, ?tst, ?andi, ?ori, ?xori, ?movi, ?movh, ?shl, ?shr, ?sar, ?ror⟩
  case add => exact aluRule_of_exec opAdd (fun f a b => by simp [opAdd, addFl_eq]) (by intros; rfl)
  case sub => exact aluRule_of_exec opSub (fun f a b => by simp [opSub, subFl_eq]) (by intros; rfl)
  case adc => exact aluRule_of_exec opAdc (fun f a b => addFl_eq a b f.c) (by intros; rfl)
  case sbc => exact aluRule_of_exec opSbc (fun f a b => subFl_eq a b f.c) (by intros; rfl)
  case min => exact aluRule_of_plainOp opMin (fun f a b => by rw [opMin, ite_toInt_le_left]) (by intros; rfl)
  case max => exact aluRule_of_plainOp opMax (fun f a b => by rw [opMax, ite_toInt_le_right]) (by intros; rfl)
  case minu => exact aluRule_of_plainOp opMinu (fun f a b => by rw [opMinu, ite_toNat_le_left]) (by intros; rfl)
  case maxu => exact aluRule_of_plainOp opMaxu (fun f a b => by rw [opMaxu, ite_toNat_le_right]) (by intros; rfl)
  case mul => exact aluRule_of_plainOp opMul (fun f a b => rfl) (by intros; rfl)
  case mulh => exact aluRule_of_plainOp opMulh (fun f a b => by rw [opMulh, mulHigh_signed]) (by intros; rfl)
  case mulhu => exact aluRule_of_plainOp opMulhu (fun f a b => by rw [opMulhu, mulHigh_unsigned]) (by intros; rfl)
  case clz => exact unaryRule_of_plainOp opClz (fun f a b => by rw [opClz, leadingZeros_eq_clz]) (by intros; rfl)
  case popc => exact unaryRule_of_plainOp opPopc (fun f a b => by rw [opPopc, onesIn_eq_countP]) (by intros; rfl)
  case cmp =>
    intro n t rs1 rs2 f s h
    have hc := completes_writesFlags (i := .iCmp n t rs1 rs2 f) (fl := fun s => (subFl (gReg s n t rs1) (gReg s n t rs2) false).2) h rfl
    rwa [subFl_false] at hc
  case cmpi =>
    intro n t rs1 imm s h
    have hc := completes_writesFlags (i := .iCmpi n t rs1 imm) (fl := fun s => (subFl (gReg s n t rs1) (imm.signExtend 32) false).2) h rfl
    have hmsb : (imm.signExtend 32).msb = imm.msb := by simp [BitVec.msb_signExtend]
    rwa [subFl_false, hmsb] at hc
  case addi => exact immRule_of_exec (by intros; rfl)
  case and => exact aluRule_of_plainOp opAnd (fun f a b => rfl) (by intros; rfl)
  case or => exact aluRule_of_plainOp opOr (fun f a b => rfl) (by intros; rfl)
  case xor => exact aluRule_of_plainOp opXor (fun f a b => rfl) (by intros; rfl)
  case andn => exact aluRule_of_plainOp opAndn (fun f a b => rfl) (by intros; rfl)
  case tst => exact fun n t rs1 rs2 f s h =>
    completes_writesFlags (fl := fun s => (opAnd (flg s n t) (gReg s n t rs1) (gReg s n t rs2)).2) h rfl
  case andi => exact immRule_of_exec (by intros; rfl)
  case ori => exact immRule_of_exec (by intros; rfl)
  case xori => exact immRule_of_exec (by intros; rfl)
  case movi => exact fun n t rd imm s h => completes_writesReg (r := fun _ => imm.signExtend 32) h rfl
  case movh =>
    intro n t rd imm s h
    have hc := completes_writesReg (i := .iMovh n t rd imm) (r := fun s => imm ++ (gReg s n t rd).extractLsb' 0 16) h rfl
    rwa [append_low_half] at hc
  case shl => exact shiftRule_of_exec .shl (fun a sh => shl_eq_mul a _) (shiftOut_eq .shl) (by intros; rfl) (by intros; rfl)
  case shr => exact shiftRule_of_exec .shr (fun a sh => shr_eq_div a _) (shiftOut_eq .shr) (by intros; rfl) (by intros; rfl)
  case sar => exact shiftRule_of_exec .sar (fun a sh => sar_eq_div a _) (shiftOut_eq .sar) (by intros; rfl) (by intros; rfl)
  case ror => exact shiftRule_of_exec .ror (fun a sh => ror_eq_sum a sh.isLt) (shiftOut_eq .ror) (by intros; rfl) (by intros; rfl)

end

section
/-! SUPPORT. How a claim is refuted: a command's next state is what its meaning says, so a state that the model computes
contradicts what the claim says of it. -/
namespace Sys2Proof.Machine

/-- Where a command completes without events, what is said of its end is said of the state its meaning ends in. -/
theorem Completes.of_exec {c : Instr} {s w : State} {P : State → Prop} (h : Completes c s [] P) (hc : exec c s = done w) : P (finish w) := by
  obtain ⟨u, ⟨hq, hu⟩, hP⟩ := h
  rw [hc, withEvents] at hu
  have he : { u with evq := [] } = u := hush_quiet hq
  rw [he, finish_quiet hq] at hu
  injection hu with hu
  exact hu ▸ hP

/-- A thread that waits on the stamp of axis 14272, an axis that no device has: the field of that stamp is the mask of the engine's
thread 0 (ENG_0_T0.MASK), so that the mask that WAIT writes is the stamp that the thread waits for. -/
def waitOnOwnMask : State :=
  setEngine ([(F.ENG_n_CTRL_ENABLE 0, 1), (F.ENG_n_CTRL_START 0, 1), (F.ENG_n_STATUS_THREADS 0, 1),
      (F.ANG_AXn_STATUS_STATE 14272, aTRACK)].foldl (fun s e => setFld s e.1 e.2) { State.reset with evq := [] }) 0
    { threads := [(0, { pc := 0x104, g := [(5, 0x400)], axis := 14272, tgtUse := 1 })]
      sp := [(32, encS 0x30 1 5 1 7 * 2 ^ 32)] }

end Sys2Proof.Machine
end

section
open Sys2Proof Sys2Proof.Machine

/-- Refutes O26: where the thread's AXIS is no axis of the device, its stamp field may be the thread's own MASK, so that a WAIT with no
event pending makes one pending and goes on. -/
theorem not_branchesJumpsAndWaits : ¬ Obligations.BranchesJumpsAndWaits := by
  unfold Obligations.BranchesJumpsAndWaits
  intro h
  obtain ⟨-, -, -, -, -, hwait, -, -⟩ := h
  have hissue : Issues waitOnOwnMask 0 0 (encS 0x30 1 5 1 7) := by decide +kernel
  obtain ⟨-, hstate, -⟩ := (hwait 0 0 1 5 7 waitOnOwnMask hissue (by decide +kernel) (by decide +kernel) (by decide +kernel)).of_exec rfl
  exact absurd hstate (by decide +kernel)

end

section
/-! SUPPORT. The log writer: what one record leaves behind (R379, R392, R393, R394, R539). -/
namespace Sys2Proof.Machine

/-! ### The frame of the log writer -/

theorem LogOnly.onlyParts {s t : State} (h : LogOnly s t) : OnlyParts [.regs, .evq, .log, .windows, .mirrorQ, .sbx] s t := by
  intro p hp
  cases p
  case regs | evq | log | windows | mirrorQ | sbx => exact absurd hp (by decide)
  all_goals
    rw [h.parts]
    rfl

theorem LogOnly.only {s t : State} (h : LogOnly s t) :
    Only [.log, .windows, .mirrorQ, .sbx] [F.SBX_MIRROR_LOST, F.PCI_PBA_PENDING] s t := by
  refine ⟨fun p hp => ?_, fun f hf => ?_⟩
  · by_cases he : p = .evq
    · subst he
      exact h.evs
    · exact h.onlyParts p fun hm => hp (by simpa [he] using hm)
  · simp only [List.map_cons, List.map_nil, List.mem_cons, List.not_mem_nil, or_false, not_or] at hf
    exact h.flds f hf.1 hf.2

theorem LogOnly.sbx {s t : State} (h : LogOnly s t) : t.sbx = { s.sbx with lost := t.sbx.lost } := by
  have hp := h.parts
  exact (congrArg State.sbx hp).trans rfl

theorem logOnly_withWindows (s : State) (w : List MergeWin) : LogOnly s { s with windows := w } := ⟨rfl, fun _ _ _ => rfl, id, rfl⟩

/-! ### One record -/

theorem fst_packItems (l : List (Nat × Nat)) : (packItems l).1 = (l.map Prod.fst).sum := by
  induction l with
  | nil => rfl
  | cons p t ih => simp [packItems, ih]

theorem snd_packItems_lt (l : List (Nat × Nat)) : (packItems l).2 < 2 ^ (8 * (packItems l).1) := by
  induction l with
  | nil => decide
  | cons p t ih =>
    have hv : p.2 % 2 ^ (8 * p.1) < 2 ^ (8 * p.1) := Nat.mod_lt _ (by positivity)
    calc p.2 % 2 ^ (8 * p.1) + (packItems t).2 * 2 ^ (8 * p.1) < ((packItems t).2 + 1) * 2 ^ (8 * p.1) := by
          rw [Nat.add_mul]
          omega
      _ ≤ 2 ^ (8 * (packItems t).1) * 2 ^ (8 * p.1) := Nat.mul_le_mul_right _ ih
      _ = 2 ^ (8 * (packItems (p :: t)).1) := by rw [← pow_add, packItems, Nat.mul_add, Nat.add_comm]

/-- Items of at most 16 bytes need one record, which holds them whole. -/
theorem writeEvent_of_short (s : State) (code count time : Nat) {items : List (Nat × Nat)} (h : (items.map Prod.fst).sum ≤ 16) :
    writeEvent s code count time items false = writeRec s code count time (packItems items).2 false false := by
  rw [← fst_packItems] at h
  have hlt : (packItems items).2 < 2 ^ 128 :=
    (snd_packItems_lt items).trans_le (Nat.pow_le_pow_right (by decide) (by omega))
  have hn : ((packItems items).1 - 1) / 16 = 0 := by omega
  simp only [writeEvent, Nat.mod_eq_of_lt hlt, hn, writeCont]

theorem vecRec_log (s : State) (c : Nat) : (vecRec s c).log = s.log := by
  unfold vecRec pendVec
  split_ifs <;> rfl

theorem vecRec_windows (s : State) (c : Nat) : (vecRec s c).windows = s.windows := by
  unfold vecRec pendVec
  split_ifs <;> rfl

theorem vecRec_mirrorQ (s : State) (c : Nat) : (vecRec s c).mirrorQ = s.mirrorQ := by
  unfold vecRec pendVec
  split_ifs <;> rfl

theorem vecRec_sbx (s : State) (c : Nat) : (vecRec s c).sbx = s.sbx := by
  unfold vecRec pendVec
  split_ifs <;> rfl

theorem fld_vecRec_ne (s : State) (c : Nat) {f : Fld} (hf : f.key ≠ F.PCI_PBA_PENDING.key) : fld (vecRec s c) f = fld s f := by
  unfold vecRec pendVec
  split_ifs
  · rfl
  · exact fld_setFld_ne s hf _
  · rfl

theorem fld_vecRec_pending (s : State) (c : Nat) : fld (vecRec s c) F.PCI_PBA_PENDING =
    if bitOf (fld s F.PCI_EVT_EN_BLOCKS) (c / 256) = true ∧ endpointHeld s = false
      then (fld s F.PCI_PBA_PENDING ||| 1) % 2 ^ F.PCI_PBA_PENDING.width else fld s F.PCI_PBA_PENDING := by
  unfold vecRec pendVec
  cases hb : bitOf (fld s F.PCI_EVT_EN_BLOCKS) (c / 256) <;> cases he : endpointHeld s <;> simp [fld_setFld_same]

theorem fld_mirrorRec_ne (s : State) (r : LogRec) {f : Fld} (hf : f.key ≠ F.SBX_MIRROR_LOST.key) :
    fld (mirrorRec s r) f = fld s f := by
  unfold mirrorRec
  split
  · rfl
  · exact fld_satInc_ne _ hf

theorem endpointHeld_mirrorRec (s : State) (r : LogRec) : endpointHeld (mirrorRec s r) = endpointHeld s := by
  unfold mirrorRec
  split <;> rfl

theorem mirrorRec_log (s : State) (r : LogRec) : (mirrorRec s r).log = s.log := by
  unfold mirrorRec
  split <;> rfl

theorem mirrorRec_windows (s : State) (r : LogRec) : (mirrorRec s r).windows = s.windows := by
  unfold mirrorRec
  split <;> rfl

theorem mirrorRec_of_room {s : State} (h : s.mirrorQ.length < 256) (r : LogRec) :
    mirrorRec s r = { s with mirrorQ := s.mirrorQ ++ [r] } := if_pos h

theorem mirrorRec_of_full {s : State} (h : ¬s.mirrorQ.length < 256) (r : LogRec) :
    mirrorRec s r = satInc { s with sbx := { s.sbx with lost := true } } F.SBX_MIRROR_LOST := if_neg h

/-- A record waits for the mirror, or is counted lost. -/
theorem mirrorRec_pushRec (s : State) (r : LogRec) :
    if s.mirrorQ.length < 256 then (mirrorRec (pushRec s r) r).mirrorQ = s.mirrorQ ++ [r]
        ∧ (mirrorRec (pushRec s r) r).sbx = s.sbx
        ∧ fld (mirrorRec (pushRec s r) r) F.SBX_MIRROR_LOST = fld s F.SBX_MIRROR_LOST
    else (mirrorRec (pushRec s r) r).mirrorQ = s.mirrorQ ∧ (mirrorRec (pushRec s r) r).sbx = { s.sbx with lost := true }
        ∧ fld (mirrorRec (pushRec s r) r) F.SBX_MIRROR_LOST
            = min (fld s F.SBX_MIRROR_LOST + 1) (2 ^ F.SBX_MIRROR_LOST.width - 1) := by
  by_cases h : s.mirrorQ.length < 256
  · rw [if_pos h, mirrorRec_of_room (s := pushRec s r) h]
    exact ⟨rfl, rfl, rfl⟩
  · rw [if_neg h, mirrorRec_of_full (s := pushRec s r) h]
    exact ⟨rfl, rfl, fld_satInc_same ..⟩

/-- What one record leaves behind. -/
theorem records_one (s : State) (r : LogRec) : Records r s.windows s (vecRec (mirrorRec (pushRec s r) r) r.code) := by
  refine ⟨by rw [vecRec_log, mirrorRec_log]; rfl, by rw [vecRec_windows, mirrorRec_windows]; rfl, ?_, ?_, ?_⟩
  · rw [vecRec_mirrorQ, vecRec_sbx, Counts, fld_vecRec_ne _ _ (by decide)]
    exact mirrorRec_pushRec s r
  · rw [fld_vecRec_pending, fld_mirrorRec_ne _ _ (by decide), fld_mirrorRec_ne _ _ (by decide), endpointHeld_mirrorRec]
    rfl
  · exact (LogOnly.trans (t := pushRec s r) ⟨rfl, fun _ _ _ => rfl, id, rfl⟩
      ((logOnly_mirrorRec ..).trans (logOnly_vecRec ..))).only

/-- The same, for the record of an occurrence of at most 16 bytes. -/
theorem records_writeEvent (s : State) (code count time : Nat) {items : List (Nat × Nat)} (h : (items.map Prod.fst).sum ≤ 16) :
    Records ⟨nextSeq s, code, b2n (rtValid s), count, time, (packItems items).2⟩ s.windows s
      (writeEvent s code count time items false) := by
  rw [writeEvent_of_short s code count time h]
  exact records_one s _

/-! ### The end of a command with one event or two -/

theorem withEvents_one (e : Ev) {u : State} (h : Quiet u) : withEvents [e] u = logEv u e := by
  have hu : { u with evq := [] } = u := hush_quiet h
  change logEv { u with evq := [] } e = _
  rw [hu]

theorem sortEvs_pair_swap {x y : Ev} (h : y.code < x.code) : sortEvs [x, y] = sortEvs [y, x] := by
  simp [sortEvs, insertEv, h, Nat.lt_asymm h]

theorem Records.with_windows {r : LogRec} {w w' : List MergeWin} {s u : State} (h : Records r w s u) :
    Records r w' s { u with windows := w' } := by
  obtain ⟨hlog, -, hmirror, hpba, hparts, hflds⟩ := h
  refine ⟨hlog, rfl, hmirror, hpba, fun p hp => ?_, hflds⟩
  have hsame := hparts p hp
  cases p
  case windows => exact absurd hp (by decide)
  all_goals exact hsame

theorem beq_code_scope_eq_false {w : MergeWin} {code scope : Nat} (h : ¬(w.code = code ∧ w.scope = scope)) :
    (w.code == code && w.scope == scope) = false := by simpa using h

/-- The windows, with `f` applied to the one of a code and scope. -/
theorem map_windows {code scope : Nat} {a b : List MergeWin} {w : MergeWin} {s : State} (h : WindowAt s code scope a w b)
    (f : MergeWin → MergeWin) :
    (s.windows.map fun v => if v.code == code && v.scope == scope then f v else v) = a ++ f w :: b := by
  obtain ⟨hw, rfl, rfl, hother⟩ := h
  have hid : ∀ l : List MergeWin, (∀ v ∈ l, v ∈ a ++ b) →
      (l.map fun v => if v.code == w.code && v.scope == w.scope then f v else v) = l := fun l hl =>
    List.map_congr_left (g := id) (fun v hv => if_neg (by simpa using hother v (hl v hv))) |>.trans (List.map_id l)
  rw [hw, List.map_append, List.map_cons, hid a (by simp +contextual), hid b (by simp +contextual)]
  simp

/-- A window with one more occurrence counted. -/
def countedOnce (s : State) (items : List (Nat × Nat)) (w : MergeWin) : MergeWin :=
  if w.count = 0 then ⟨w.code, w.scope, 1, logTime s, items⟩ else ⟨w.code, w.scope, min (w.count + 1) 255, w.time, w.items⟩

theorem countWindow_eq {s : State} {code scope : Nat} {a b : List MergeWin} {w : MergeWin} (h : WindowAt s code scope a w b)
    (items : List (Nat × Nat)) : countWindow s code scope items = { s with
      windows := a ++ (if w.count = 0 then ⟨code, scope, 1, logTime s, items⟩
        else ⟨code, scope, min (w.count + 1) 255, w.time, w.items⟩) :: b } := by
  have hmap := map_windows h (countedOnce s items)
  obtain ⟨-, rfl, rfl, -⟩ := h
  rw [countedOnce] at hmap
  rw [← hmap]
  rfl

theorem hasWindow_of_windowAt {s : State} {code scope : Nat} {a b : List MergeWin} {w : MergeWin}
    (h : WindowAt s code scope a w b) : hasWindow s code scope = true := by
  obtain ⟨hw, rfl, rfl, -⟩ := h
  simp [hasWindow, hw]

theorem find_window {s : State} {code scope : Nat} {a b : List MergeWin} {w : MergeWin} (h : WindowAt s code scope a w b) :
    (s.windows.find? fun v => v.code == code && v.scope == scope) = some w := by
  obtain ⟨hw, rfl, rfl, hother⟩ := h
  have ha : (a.find? fun v => v.code == w.code && v.scope == w.scope) = none :=
    List.find?_eq_none.2 fun v hv => by simpa using hother v (List.mem_append_left _ hv)
  simp [hw, List.find?_append, ha]

/-- The windows without the one of a code and scope. -/
theorem filter_windows {s : State} {code scope : Nat} {a b : List MergeWin} {w : MergeWin} (h : WindowAt s code scope a w b) :
    (s.windows.filter fun v => !(v.code == code && v.scope == scope)) = a ++ b := by
  obtain ⟨hw, rfl, rfl, hother⟩ := h
  have hid : ∀ l : List MergeWin, (∀ v ∈ l, v ∈ a ++ b) → (l.filter fun v => !(v.code == w.code && v.scope == w.scope)) = l :=
    fun l hl => List.filter_eq_self.2 fun v hv => by simpa [imp_iff_not_or] using hother v (hl v hv)
  rw [hw, List.filter_append, List.filter_cons_of_neg (by simp), hid a (by simp +contextual), hid b (by simp +contextual)]

end Sys2Proof.Machine
end

section
open Sys2Proof Sys2Proof.Machine

/-- Settles O6: the log writer record by record, and the merge windows as lists. -/
theorem eventsAreRecorded : Obligations.EventsAreRecorded := by
  refine ⟨?plain, ?opens, ?counts, ?closes, ?repeats, fun x y u h => ?order, fun es u => ?frame⟩
  case plain =>
    intro code items u hq hlen
    rw [withEvents_one _ hq]
    exact records_writeEvent u code 1 (logTime u) hlen
  case opens =>
    intro code scope items u hq hlen hnone
    have hw : hasWindow u code scope = false := List.any_eq_false.2 fun w hm => by simpa using hnone w hm
    rw [withEvents_one _ hq]
    simp only [logEv, evMerged, hw, Bool.false_eq_true, if_false]
    have hrec := records_writeEvent u code 1 (logTime u) hlen
    have ⟨_, hwin, _⟩ := hrec
    rw [hwin]
    exact Records.with_windows hrec
  case counts =>
    intro code scope items a b w u hq hat
    rw [withEvents_one _ hq]
    simp only [logEv, evMerged, hasWindow_of_windowAt hat, if_true, countWindow_eq hat]
  case closes =>
    intro code scope a b w s hq hat hcount
    refine completes_quiet (w := mergeWindowEnd s code.toNat scope.toNat) rfl ?_ ?_ <;>
      simp only [mergeWindowEnd, find_window hat, hcount, if_true, filter_windows hat]
    exact hq
  case repeats =>
    intro code scope a b w s hq hat hcount hlen
    have hrec := records_writeEvent s code.toNat w.count w.time hlen
    have ⟨_, hwin, _⟩ := hrec
    have ⟨_, hc, hsc, _⟩ := hat
    have hquiet : (writeEvent s code.toNat w.count w.time w.items false).evq = [] :=
      ((logOnly_writeRec ..).trans (logOnly_writeCont ..)).evs.trans hq
    have hend : mergeWindowEnd s code.toNat scope.toNat = { writeEvent s code.toNat w.count w.time w.items false with
        windows := a ++ ⟨code.toNat, scope.toNat, 0, 0, []⟩ :: b } := by
      have hmap := map_windows hat fun v => { v with count := 0, time := 0, items := [] }
      simp only [mergeWindowEnd, find_window hat, hcount, if_false, hwin, hmap, hc, hsc]
    refine completes_quiet (w := mergeWindowEnd s code.toNat scope.toNat) rfl ?_ ?_ <;> rw [hend]
    · exact hquiet
    · exact Records.with_windows hrec
  case order => exact congrArg (fun l => l.foldl logEv { u with evq := [] }) (sortEvs_pair_swap h)
  case frame =>
    have hlog := logOnly_finish { u with evq := es }
    refine ⟨fun f hf => ?_, ?_, hlog.sbx, finish_evq _⟩
    · simp only [List.map_cons, List.map_nil, List.mem_cons, List.not_mem_nil, or_false, not_or] at hf
      exact hlog.flds f hf.1 hf.2
    · intro p hp
      have h := hlog.onlyParts p hp
      cases p
      case evq => exact absurd hp (by decide)
      all_goals exact h

end

section
/-! SUPPORT. Refuting a claim whose command raises events: the end it speaks of differs from the state the meaning ends in by no more
than the log. -/
namespace Sys2Proof.Machine

/-- The reset state with registers written. -/
def resetWith (l : List (Fld × Nat)) : State := l.foldl (fun s e => setFld s e.1 e.2) State.reset

/-- Of the end that a claim speaks of, every part and register field beside the log is that of the state the meaning ends in. -/
theorem Completes.end_of_exec {c : Instr} {s w : State} {es : List Ev} {P : State → Prop} (h : Completes c s es P)
    (hc : exec c s = done w) : ∃ u, P u ∧ (∀ f : Fld, f.key ≠ F.SBX_MIRROR_LOST.key → f.key ≠ F.PCI_PBA_PENDING.key → fld u f = fld w f)
      ∧ ∀ p, p ∉ [.regs, .evq, .log, .windows, .mirrorQ, .sbx] → samePart w u p := by
  obtain ⟨u, ⟨hq, hu⟩, hP⟩ := h
  rw [hc] at hu
  injection hu with hu
  refine ⟨u, hP, fun f hl hp => ?_, fun p hp => ?_⟩
  · calc fld u f = fld (withEvents es u) f := (fld_finish { u with evq := es } hl hp).symm
      _ = fld w f := by rw [← hu, fld_finish w hl hp]
  · have hw := (logOnly_finish w).onlyParts p hp
    have he := (logOnly_finish { u with evq := es }).onlyParts p hp
    rw [hu] at hw
    cases p
    case regs | evq | log | windows | mirrorQ | sbx => exact absurd hp (by decide)
    all_goals exact he.symm.trans hw

/-- An encoder whose count stands 100 off the grid, on axis 0 alone, which acquires at the Z edge. -/
def zEdgeOffGrid : State :=
  setEnc (resetWith ([(F.IOB_ENC_EN, 1), (F.ANG_ENCk_CFG_ZREQ 0, 1), (F.ANG_ENCk_CPR_CPR 0, 1000), (F.ANG_AXn_STATUS_STATE 0, aACQUIRE)]
    ++ (List.range' 1 15).map fun n => (F.ANG_AXn_CFG_SRC n, 7))) 0 { count := 100 }

end Sys2Proof.Machine
end

section
open Sys2Proof Sys2Proof.Machine

/-- Refutes O7: a Z edge with the count more than 4 off a multiple of CPR is a slip of the axis, which is counted, also where the axis
is in ACQUIRE. -/
theorem not_encoderSamples : ¬ Obligations.EncoderSamples := by
  unfold Obligations.EncoderSamples
  intro h
  obtain ⟨-, -, -, hedge, -⟩ := h
  obtain ⟨u, ⟨-, -, -, -, -, hflds⟩, hend, -⟩ := (hedge 0 0 zEdgeOffGrid (by decide +kernel) (by decide +kernel) (by decide +kernel)
    (by decide +kernel) (by decide +kernel)).end_of_exec rfl
  have hslips := hflds (F.ANG_AXn_STATUS_SLIPS 0) (by decide +kernel)
  rw [hend _ (by decide +kernel) (by decide +kernel)] at hslips
  exact absurd hslips (by decide +kernel)

end

section
/-! SUPPORT. Axes: what is read of an axis after a write of it, and what its changes of state leave alone (R34, R36). -/
namespace Sys2Proof.Machine

/-- A command whose meaning ends in the state `w`, which is `w'` where the claim's hypotheses hold. -/
theorem completes_eq {c : Instr} {s w w' : State} {es : List Ev} {P : State → Prop} (hc : exec c s = done w) (hw : w = w')
    (he : w'.evq = es) (hP : P (hush w')) : Completes c s es P :=
  completes_of hc (hw ▸ he) (hw ▸ hP)

/-- The same, where nothing is raised. -/
theorem completes_eq_quiet {c : Instr} {s w w' : State} {P : State → Prop} (hc : exec c s = done w) (hw : w = w')
    (he : w'.evq = []) (hP : P w') : Completes c s [] P :=
  completes_quiet hc (hw ▸ he) (hw ▸ hP)

/-! ### Parts beside the axes -/

theorem onlyParts_setAxis (s : State) (n : Nat) (x : Axis) : OnlyParts [.axes] s (setAxis s n x) := by
  intro p hp
  cases p
  case axes => exact absurd List.mem_cons_self hp
  all_goals rfl

theorem onlyParts_setEnc (s : State) (n : Nat) (x : Enc) : OnlyParts [.encs] s (setEnc s n x) := by
  intro p hp
  cases p
  case encs => exact absurd List.mem_cons_self hp
  all_goals rfl

section
variable {ps : List Part} {fs : List Fld} {s u : State}

theorem Only.setAxis (h : Only ps fs s u) (he : .axes ∈ ps) (n : Nat) (x : Axis) : Only ps fs s (setAxis u n x) :=
  ⟨h.1.trans ((onlyParts_setAxis u n x).mono (by simp [he])), h.2⟩

theorem Only.setTheta (h : Only ps fs s u) (he : .axes ∈ ps) {n : Nat} (hf : F.ANG_AXn_STAMP_STAMP n ∈ fs) (th : Int) :
    Only ps fs s (setTheta u n th) := (h.setAxis he n _).setFld hf _

theorem Only.enterTrack (h : Only ps fs s u) (he : .evq ∈ ps) (ha : .axes ∈ ps) {n : Nat}
    (hf : [F.ANG_AXn_STATUS_STATE n, F.ANG_AXn_STATUS_REVERSE n, F.ANG_AXn_VEL_VEL n, F.ANG_AXn_STAMP_STAMP n] ⊆ fs)
    (th tm : Nat) (v : Option Nat) : Only ps fs s (enterTrack u n th tm v) :=
  ((((((h.raise he _ _).setAxis ha n _).setFld (hf (by simp)) _).setTheta ha (hf (by simp)) _).setFld (hf (by simp)) _).setFld
    (hf (by simp)) _)

end

/-! ### An axis read after a write -/

@[simp] theorem axis_hush (s : State) (n : Nat) : axis (hush s) n = axis s n := rfl
@[simp] theorem axState_hush (s : State) (n : Nat) : axState (hush s) n = axState s n := rfl
@[simp] theorem vel_hush (s : State) (n : Nat) : vel (hush s) n = vel s n := rfl
@[simp] theorem theta_hush (s : State) (n : Nat) : theta (hush s) n = theta s n := rfl

@[simp] theorem axis_setFld (s : State) (f : Fld) (v n : Nat) : axis (setFld s f v) n = axis s n := rfl
@[simp] theorem axis_raise (s : State) (c : Nat) (l : List (Nat × Nat)) (n : Nat) : axis (raise s c l) n = axis s n := rfl
@[simp] theorem axis_setAxis_same (s : State) (n : Nat) (x : Axis) : axis (setAxis s n x) n = x := smGet_smSet_same ..

section
variable (s : State) (n : Nat)

theorem fld_setTheta_ne {f : Fld} (h : f.key ≠ (F.ANG_AXn_STAMP_STAMP n).key) (th : Int) : fld (setTheta s n th) f = fld s f :=
  fld_setFld_ne _ h _

theorem axis_setTheta (th : Int) : axis (setTheta s n th) n = { axis s n with frac := ofSigned 72 th % 2 ^ 24 } := by
  simp [setTheta]

theorem ofSigned_lt (w : Nat) (x : Int) : ofSigned w x < 2 ^ w := by
  have hp : (0 : Int) < (2 ^ w : Nat) := by positivity
  have h0 := Int.emod_nonneg x hp.ne'
  have h1 := Int.emod_lt_of_pos x hp
  simp only [ofSigned]
  omega

theorem theta_setTheta (th : Int) : theta (setTheta s n th) n = ofSigned 72 th := by
  have hlt := ofSigned_lt 72 th
  rw [theta, axis_setTheta, setTheta, fld_setFld_same]
  change ofSigned 72 th / 2 ^ 24 % 2 ^ 48 * 2 ^ 24 + ofSigned 72 th % 2 ^ 24 = ofSigned 72 th
  omega

/-- STATE, REVERSE, VEL and STAMP of an axis are four fields. -/
theorem axis_keys : (F.ANG_AXn_VEL_VEL n).key ≠ (F.ANG_AXn_STATUS_STATE n).key ∧ (F.ANG_AXn_VEL_VEL n).key ≠ (F.ANG_AXn_STATUS_REVERSE n).key
    ∧ (F.ANG_AXn_VEL_VEL n).key ≠ (F.ANG_AXn_STAMP_STAMP n).key ∧ (F.ANG_AXn_STAMP_STAMP n).key ≠ (F.ANG_AXn_STATUS_STATE n).key
    ∧ (F.ANG_AXn_STAMP_STAMP n).key ≠ (F.ANG_AXn_STATUS_REVERSE n).key := by
  simp [F.ANG_AXn_VEL_VEL, F.ANG_AXn_STATUS_STATE, F.ANG_AXn_STATUS_REVERSE, F.ANG_AXn_STAMP_STAMP]

/-! ### TRACK is entered -/

variable (th tm : Nat) (v : Option Nat)

theorem enterTrack_evq : (enterTrack s n th tm v).evq = s.evq ++ [ev 0x0A01 [(1, n)]] := rfl

theorem axState_enterTrack : axState (enterTrack s n th tm v) n = aTRACK := fld_setFld_same ..

theorem vel_enterTrack : vel (enterTrack s n th tm v) n = v.getD 0 % 2 ^ 32 := by
  obtain ⟨hstate, hrev, hstamp, -⟩ := axis_keys n
  rw [vel, enterTrack, fld_setFld_ne _ hstate, fld_setFld_ne _ hrev, fld_setTheta_ne _ _ hstamp, fld_setFld_same]
  rfl

theorem seed_enterTrack : (axis (enterTrack s n th tm v) n).seed = v.isNone := by
  simp [enterTrack, axis_setTheta]

theorem theta_enterTrack :
    theta (enterTrack s n th tm v) n = ofSigned 72 ((th : Int) * 2 ^ 24 + (v.getD 0 : Int) * ((now s : Int) - tm)) := by
  obtain ⟨-, -, -, hstate, hrev⟩ := axis_keys n
  rw [enterTrack, theta, fld_setFld_ne _ hstate, fld_setFld_ne _ hrev, axis_setFld, axis_setFld, ← theta, theta_setTheta]

end

/-- A stamp in au as a prediction, to the 72 bits it holds. -/
theorem ofSigned_stamp (th : Nat) : ofSigned 72 ((th : Int) * 2 ^ 24) = th * 2 ^ 24 % 2 ^ 72 := by
  simp only [ofSigned]
  omega

/-! ### Samples that carry their velocity -/

theorem carriedSample_enters {s : State} {n need : Nat} (h : axState s n = aACQUIRE) (hn : need ≤ (axis s n).beacons + 1)
    (th tm v : Nat) : carriedSample s n th tm v need = enterTrack s n th tm (some v) := by
  simp [carriedSample, h, hn]

theorem carriedSample_counts {s : State} {n need : Nat} (h : axState s n = aACQUIRE) (hn : ¬need ≤ (axis s n).beacons + 1)
    (th tm v : Nat) : carriedSample s n th tm v need = setAxis s n { axis s n with beacons := (axis s n).beacons + 1 } := by
  simp [carriedSample, h, hn]

theorem ofSigned_of_now (s : State) (th v : Nat) :
    ofSigned 72 ((th : Int) * 2 ^ 24 + (v : Int) * ((now s : Int) - now s)) = th * 2 ^ 24 % 2 ^ 72 := by
  rw [sub_self, mul_zero, add_zero, ofSigned_stamp]

theorem arrived_of {s : State} {f type : Nat} (hf : frozen s = false) (hg : fGood f = true) (ht : fType f = type) :
    arrived s 0 f type = true := by
  simp [arrived, hf, hg, ht]

theorem injectInto_evq (s : State) (p : Nat) (f : Flit) : (injectInto s p f).2.evq = s.evq := by
  unfold injectInto
  split <;> rfl

theorem send_evq (s : State) (p pos : Nat) (f : Flit) : (send s p pos f).evq = s.evq := by
  unfold send
  split_ifs
  · rfl
  · exact injectInto_evq s p f
  · rfl

/-- Sending to one place of several. -/
theorem filter_eq_singleton {n q : Nat} (hq : q < n) {c : Nat → Bool} (hc : c q = true) (hne : ∀ r, r < n → r ≠ q → c r = false) :
    (List.range n).filter c = [q] := by
  have hsub : (List.range n).filter c = (List.range n).filter (· == q) :=
    List.filter_congr fun r hr => by
      by_cases h : r = q
      · simp [h, hc]
      · simp [h, hne r (List.mem_range.1 hr) h]
  rw [hsub, List.filter_beq, List.count_range, if_pos hq]
  rfl

/-! ### The controls of an axis -/

/-- The fields of ANG_AXn_CFG as a write leaves them. -/
def cfgWritten (s : State) (n w : Nat) : State :=
  setFld (setFld (setFld (setFld s (F.ANG_AXn_CFG_ENABLE n) (bits w 0 1)) (F.ANG_AXn_CFG_SRC n) (bits w 1 3))
    (F.ANG_AXn_CFG_BEACON_NODE n) (bits w 4 12)) (F.ANG_AXn_CFG_BEACON_AXIS n) (bits w 16 4)

/-- The fields of ANG_AXn_CFG, and STATE and STAMP, are different ones. -/
theorem cfg_keys (n : Nat) : List.Pairwise (fun a b : Fld => a.key ≠ b.key) [F.ANG_AXn_CFG_ENABLE n, F.ANG_AXn_CFG_SRC n,
    F.ANG_AXn_CFG_BEACON_NODE n, F.ANG_AXn_CFG_BEACON_AXIS n, F.ANG_AXn_STATUS_STATE n, F.ANG_AXn_STAMP_STAMP n] := by
  simp [F.ANG_AXn_CFG_ENABLE, F.ANG_AXn_CFG_SRC, F.ANG_AXn_CFG_BEACON_NODE, F.ANG_AXn_CFG_BEACON_AXIS, F.ANG_AXn_STATUS_STATE,
    F.ANG_AXn_STAMP_STAMP]

theorem bits_lt (x lo w : Nat) : bits x lo w < 2 ^ w := by
  rw [bits_eq_div_mod]
  exact Nat.mod_lt _ (by positivity)

/-- A field written last but for others. -/
theorem fld_cfgWritten (s : State) (n w : Nat) :
    fld (cfgWritten s n w) (F.ANG_AXn_CFG_ENABLE n) = bits w 0 1 ∧ fld (cfgWritten s n w) (F.ANG_AXn_CFG_SRC n) = bits w 1 3
    ∧ fld (cfgWritten s n w) (F.ANG_AXn_CFG_BEACON_NODE n) = bits w 4 12
    ∧ fld (cfgWritten s n w) (F.ANG_AXn_CFG_BEACON_AXIS n) = bits w 16 4 := by
  have hk := cfg_keys n
  simp only [List.pairwise_cons, List.mem_cons, List.not_mem_nil, or_false, forall_eq_or_imp, forall_eq] at hk
  obtain ⟨⟨h01, h02, h03, -⟩, ⟨h12, h13, -⟩, ⟨h23, -⟩, -⟩ := hk
  refine ⟨?_, ?_, ?_, ?_⟩
  · rw [cfgWritten, fld_setFld_ne _ h03, fld_setFld_ne _ h02, fld_setFld_ne _ h01, fld_setFld_same]
    exact Nat.mod_eq_of_lt (bits_lt ..)
  · rw [cfgWritten, fld_setFld_ne _ h13, fld_setFld_ne _ h12, fld_setFld_same]
    exact Nat.mod_eq_of_lt (bits_lt ..)
  · rw [cfgWritten, fld_setFld_ne _ h23, fld_setFld_same]
    exact Nat.mod_eq_of_lt (bits_lt ..)
  · rw [cfgWritten, fld_setFld_same]
    exact Nat.mod_eq_of_lt (bits_lt ..)

theorem only_cfgWritten (s : State) (n w : Nat) : Only [] [F.ANG_AXn_STATUS_STATE n, F.ANG_AXn_CFG_ENABLE n, F.ANG_AXn_CFG_SRC n,
    F.ANG_AXn_CFG_BEACON_NODE n, F.ANG_AXn_CFG_BEACON_AXIS n] s (cfgWritten s n w) :=
  ((((Only.refl _ _ s).setFld (by simp) _).setFld (by simp) _).setFld (by simp) _).setFld (by simp) _

theorem axState_cfgWritten (s : State) (n w : Nat) : axState (cfgWritten s n w) n = axState s n := by
  have hk := cfg_keys n
  simp only [List.pairwise_cons, List.mem_cons, List.not_mem_nil, or_false, forall_eq_or_imp, forall_eq] at hk
  obtain ⟨⟨-, -, -, h0, -⟩, ⟨-, -, h1, -⟩, ⟨-, h2, -⟩, ⟨h3, -⟩, -⟩ := hk
  rw [axState, cfgWritten, fld_setFld_ne _ h3.symm, fld_setFld_ne _ h2.symm, fld_setFld_ne _ h1.symm, fld_setFld_ne _ h0.symm]
  rfl

theorem angOn_cfgWritten (s : State) (n w : Nat) : angOn (cfgWritten s n w) = angOn s := by
  have h : fld (cfgWritten s n w) F.ANG_CTRL_ENABLE = fld s F.ANG_CTRL_ENABLE := by
    refine (only_cfgWritten s n w).2 _ ?_
    simp only [List.map_cons, List.map_nil, List.mem_cons, List.not_mem_nil, or_false, F.ANG_CTRL_ENABLE, F.ANG_AXn_STATUS_STATE,
      F.ANG_AXn_CFG_ENABLE, F.ANG_AXn_CFG_SRC, F.ANG_AXn_CFG_BEACON_NODE, F.ANG_AXn_CFG_BEACON_AXIS]
    omega
  rw [angOn, flag, h]
  rfl

theorem theta_cfgWritten (s : State) (n w : Nat) : theta (cfgWritten s n w) n = theta s n := by
  have h : fld (cfgWritten s n w) (F.ANG_AXn_STAMP_STAMP n) = fld s (F.ANG_AXn_STAMP_STAMP n) := by
    refine (only_cfgWritten s n w).2 _ ?_
    simp [F.ANG_AXn_STAMP_STAMP, F.ANG_AXn_STATUS_STATE, F.ANG_AXn_CFG_ENABLE, F.ANG_AXn_CFG_SRC, F.ANG_AXn_CFG_BEACON_NODE,
      F.ANG_AXn_CFG_BEACON_AXIS]
  rw [theta, h]
  rfl

/-- An enabled axis of a listed source starts to acquire where it was in OFF or its source changed. -/
theorem axisCfgWrite_acquires {s : State} {n w : Nat} (hon : angOn s = true) (hen : bits w 0 1 = 1) (hsrc : bits w 1 3 < 6)
    (h : axState s n = aOFF ∨ bits w 1 3 ≠ axSrc s n) : axisCfgWrite s n w = toAcquire (cfgWritten s n w) n := by
  obtain ⟨henable, hsource, -⟩ := fld_cfgWritten s n w
  change axisEnables (cfgWritten s n w) n _ = _
  have hnot : (!flag (cfgWritten s n w) (F.ANG_AXn_CFG_ENABLE n) || !angOn (cfgWritten s n w) || decide (6 ≤ axSrc (cfgWritten s n w) n))
      = false := by
    simp [flag, henable, hen, angOn_cfgWritten, hon, axSrc, hsource, hsrc]
  rw [axisEnables, hnot, if_neg Bool.false_ne_true, if_pos]
  rw [axState_cfgWritten]
  refine h.imp id fun hne => ?_
  simp [hne]

theorem axisCfgWrite_off {s : State} {n w : Nat} (hen : bits w 0 1 = 0) :
    axisCfgWrite s n w = setFld (cfgWritten s n w) (F.ANG_AXn_STATUS_STATE n) aOFF := by
  obtain ⟨henable, -⟩ := fld_cfgWritten s n w
  change axisEnables (cfgWritten s n w) n _ = _
  rw [axisEnables, if_pos]
  simp [flag, henable, hen]

/-! ### One field of each of several places -/

section
variable {α : Type} (G : α → Fld) (v : Nat)

/-- Writing one field of each place of a list writes no other. -/
theorem onlyRegs_forEach_setFld (l : List α) (s : State) : OnlyRegs (l.map G) s (forEach l (fun s a => setFld s (G a) v) s) := by
  have hstep : ∀ (k : List α) (u : State), k ⊆ l → Only [] (l.map G) s u →
      Only [] (l.map G) s (forEach k (fun s a => setFld s (G a) v) u) := by
    intro k
    induction k with
    | nil => exact fun u _ h => h
    | cons a k ih =>
      intro u hk h
      exact ih _ (List.subset_of_cons_subset hk) (h.setFld (List.mem_map_of_mem (hk List.mem_cons_self)) v)
  exact hstep l s (List.Subset.refl l) (.refl [] _ s)

/-- Each place of the list then reads the value. -/
theorem fld_forEach_setFld {G : α → Fld} (hG : ∀ a b, a ≠ b → (G a).key ≠ (G b).key) {l : List α} {m : α} (hm : m ∈ l) (s : State) :
    fld (forEach l (fun s a => setFld s (G a) v) s) (G m) = v % 2 ^ (G m).width := by
  induction l generalizing s with
  | nil => exact absurd hm List.not_mem_nil
  | cons x t ih =>
    by_cases ht : m ∈ t
    · exact ih ht _
    · obtain rfl : m = x := (List.mem_cons.1 hm).resolve_right ht
      refine ((onlyRegs_forEach_setFld G v t (setFld s (G m) v)).2 (G m) ?_).trans (fld_setFld_same ..)
      simp only [List.map_map, List.mem_map, Function.comp_apply, not_exists, not_and]
      intro a ha
      exact hG a m fun e => ht (e ▸ ha)

end

theorem axState_keys (a b : Nat) (h : a ≠ b) : (F.ANG_AXn_STATUS_STATE a).key ≠ (F.ANG_AXn_STATUS_STATE b).key := by
  simp only [F.ANG_AXn_STATUS_STATE]
  omega

end Sys2Proof.Machine
end

section
open Sys2Proof Sys2Proof.Machine

/-- Settles O8: the samples and the controls of an axis, each by what its operation on the axis does. -/
theorem samplesAndAxisControls : Obligations.SamplesAndAxisControls := by
  refine ⟨?virt, ?virtOff, ?beacon, ?forward, ?timeout, ?encoders, ?cfgOn, ?cfgOff, ?disable⟩
  case virt =>
    intro m n w s hq hon hsrc hst
    have hst' : axState (setFld s (F.ANG_AXn_VIRT_STAMP n) (fld s (F.ANG_AXn_VIRT_STAMP n) % 2 ^ 32 + w.toNat % 2 ^ 16 * 2 ^ 32)) n = aACQUIRE :=
      (fld_setFld_ne _ (by simp [F.ANG_AXn_VIRT_STAMP, F.ANG_AXn_STATUS_STATE]) _).trans hst
    have hnow : now (setFld s (F.ANG_AXn_VIRT_STAMP n) (fld s (F.ANG_AXn_VIRT_STAMP n) % 2 ^ 32 + w.toNat % 2 ^ 16 * 2 ^ 32)) = now s :=
      fld_setFld_ne _ (by simp only [F.ANG_AXn_VIRT_STAMP, F.ANG_RT_TIME]; omega) _
    have hw : virtCommit s n w.toNat = enterTrack (setFld s (F.ANG_AXn_VIRT_STAMP n)
        (fld s (F.ANG_AXn_VIRT_STAMP n) % 2 ^ 32 + w.toNat % 2 ^ 16 * 2 ^ 32)) n
        (fld s (F.ANG_AXn_VIRT_STAMP n) % 2 ^ 32 + w.toNat % 2 ^ 16 * 2 ^ 32) (now s) (some (fld s (F.ANG_AXn_VIRT_VEL_VEL n))) := by
      simp only [virtCommit, hon, hsrc, if_true, carriedSample_enters hst' (Nat.le_add_left 1 _)]
    refine completes_eq (w := virtCommit s n w.toNat) rfl hw ?_ ⟨?_, ?_, ?_, ?_, ?_⟩
    · rw [enterTrack_evq, setFld_evq, hq]
      rfl
    · rw [axState_hush, axState_enterTrack]
    · rw [vel_hush, vel_enterTrack, Option.getD_some]
    · rw [axis_hush, seed_enterTrack, Option.isNone_some]
    · rw [theta_hush, theta_enterTrack, hnow, Option.getD_some, ofSigned_of_now]
    · exact (((Only.refl _ _ s).setFld (by simp) _).enterTrack (by simp) (by simp) (by simp) _ _ _).hush hq
  case virtOff =>
    intro m n w s hq hoff
    exact completes_eq_quiet (w := virtCommit s n w.toNat) rfl (by simp [virtCommit, hoff]) hq rfl
  case beacon =>
    intro p f n s hq hfr hup hgood htype hax hst hroute
    have hexec : exec (.beacon p f) s = done (forEach [n] (fun s n => carriedSample s n (bits (fPayload f.toNat) 16 48)
        (bits (fPayload f.toNat) 96 64) (bits (fPayload f.toNat) 64 32) 3) s) := by
      change done (if upTrunk s p && arrived s 0 f.toNat FT.beacon then beaconRx s p f else s) = _
      rw [hup, arrived_of hfr hgood htype, Bool.and_self, if_pos rfl, beaconRx, hax, if_neg hroute]
    refine ⟨fun hb => ?_, fun hb => ?_⟩
    · have hn : ¬3 ≤ (axis s n).beacons + 1 := by omega
      exact completes_eq_quiet hexec (carriedSample_counts hst hn ..) hq rfl
    · have hn : 3 ≤ (axis s n).beacons + 1 := by omega
      refine completes_eq hexec (carriedSample_enters hst hn ..) ?_ ⟨?_, ?_, ?_, ?_⟩
      · rw [enterTrack_evq, hq]
        rfl
      · rw [axState_hush, axState_enterTrack]
      · rw [vel_hush, vel_enterTrack, Option.getD_some, Nat.mod_eq_of_lt (bits_lt ..)]
      · rw [theta_hush, theta_enterTrack, Option.getD_some]
      · exact ((Only.refl _ _ s).enterTrack (by simp) (by simp) (by simp) _ _ _).hush hq
  case forward =>
    intro p q f s hq hup hgood htype hax hroute hne hupq hothers
    have hq' : q.val ≠ p.val := fun e => hne (Fin.ext e)
    have hports : (allPorts.filter fun r => r != p.val && upTrunk s r) = [q.val] := by
      refine filter_eq_singleton q.isLt (by simp [hq', hupq]) fun r hr hrq => ?_
      by_cases hrp : r = p.val
      · simp [hrp]
      · simp [hothers r hr hrq hrp]
    have hw : (if upTrunk s p && arrived s 0 f.toNat FT.beacon then beaconRx s p f else s) = send s q 0 f := by
      cases hfr : frozen s
      · rw [hup, arrived_of hfr hgood htype, Bool.and_self, if_pos rfl, beaconRx, hax, if_pos hroute]
        change forEach (allPorts.filter fun r => r != p.val && upTrunk s r) _ s = _
        rw [hports]
        rfl
      · simp [arrived, send, hfr]
    exact completes_eq_quiet rfl hw ((send_evq ..).trans hq) rfl
  case timeout =>
    intro n s hq hst hsrc hto hstop
    have hw : (if axState s n = aTRACK ∧ (axSrc s n = 4 ∨ axSrc s n = 5) ∧ fld s (F.ANG_AXn_TIMEOUT_TIMEOUT n) ≠ 0 then toLost s n
        else s) = setFld (raise s 0x0A02 [(1, n)]) (F.ANG_AXn_STATUS_STATE n) aLOST := by
      rw [if_pos ⟨hst, hsrc, hto⟩, toLost, hstop]
      rfl
    refine completes_eq rfl hw ?_ ⟨?_, ?_⟩
    · exact congrArg (· ++ _) hq
    · rw [axState_hush, axState, fld_setFld_same]
      rfl
    · exact (((Only.refl [.evq] _ s).raise (by simp) _ _).setFld (by simp) _).hush hq
  case encoders =>
    intro n s hq hsrc
    have hne : ¬(axSrc s n = 4 ∨ axSrc s n = 5) := by omega
    exact completes_eq_quiet rfl (if_neg fun h => hne h.2.1) hq rfl
  case cfgOn =>
    intro n w s hq hon hen hsrc hst
    obtain ⟨henable, hsource, hnode, haxis⟩ := fld_cfgWritten s n w.toNat
    have hk := cfg_keys n
    simp only [List.pairwise_cons, List.mem_cons, List.not_mem_nil, or_false, forall_eq_or_imp, forall_eq] at hk
    obtain ⟨⟨-, -, -, h0, -⟩, ⟨-, -, h1, -⟩, ⟨-, h2, -⟩, ⟨h3, -⟩, h4⟩ := hk
    refine completes_eq_quiet rfl (axisCfgWrite_acquires hon hen hsrc hst) hq ⟨?_, ?_, ?_, ?_, ?_, ?_, ?_⟩
    · exact fld_setFld_same ..
    · exact (fld_setFld_ne _ h1 _).trans hsource
    · have hf : fld (toAcquire (cfgWritten s n w.toNat) n) (F.ANG_AXn_CFG_ENABLE n) = bits w.toNat 0 1 :=
        (fld_setFld_ne _ h0 _).trans henable
      rw [flag, hf, hen]
      rfl
    · exact (fld_setFld_ne _ h2 _).trans hnode
    · exact (fld_setFld_ne _ h3 _).trans haxis
    · rw [← theta_cfgWritten s n w.toNat, theta, theta, toAcquire, fld_setFld_ne _ h4.1.symm, axis_setFld, axis_setAxis_same]
      rfl
    · have hcfg := only_cfgWritten s n w.toNat
      exact Only.setFld (Only.setAxis ⟨hcfg.1.mono (by simp), hcfg.2⟩ (by simp) _ _) (by simp) _
  case cfgOff =>
    intro n w s hq hen
    obtain ⟨henable, -⟩ := fld_cfgWritten s n w.toNat
    have hk := cfg_keys n
    simp only [List.pairwise_cons, List.mem_cons, List.not_mem_nil, or_false, forall_eq_or_imp, forall_eq] at hk
    obtain ⟨⟨-, -, -, h0, -⟩, -⟩ := hk
    refine completes_eq_quiet rfl (axisCfgWrite_off hen) hq ⟨fld_setFld_same .., ?_, (only_cfgWritten s n w.toNat).setFld (by simp) _⟩
    have hf : fld (setFld (cfgWritten s n w.toNat) (F.ANG_AXn_STATUS_STATE n) aOFF) (F.ANG_AXn_CFG_ENABLE n) = bits w.toNat 0 1 :=
      (fld_setFld_ne _ h0 _).trans henable
    rw [flag, hf, hen]
    rfl
  case disable =>
    intro s hq
    have hoff := onlyRegs_forEach_setFld F.ANG_AXn_STATUS_STATE aOFF allAxes (setFld s F.ANG_CTRL_ENABLE 0)
    have honly : OnlyRegs (F.ANG_CTRL_ENABLE :: allAxes.map F.ANG_AXn_STATUS_STATE) s (angDisable s) :=
      ⟨(onlyParts_setFld s _ _).trans hoff.1, (onlyFlds_setFld s List.mem_cons_self _).trans
        fun f hf => hoff.2 f fun hm => hf (List.mem_cons_of_mem _ hm)⟩
    refine completes_quiet (w := angDisable s) rfl ((honly.1 .evq (by decide)).trans hq) ⟨fun n hn => ?_, ?_, ?_, ?_, honly⟩
    · exact fld_forEach_setFld _ axState_keys (List.mem_range.2 hn) _
    · have hen : fld (angDisable s) F.ANG_CTRL_ENABLE = 0 := (hoff.2 _ (by decide)).trans (fld_setFld_same ..)
      rw [angOn, flag, hen]
      rfl
    · exact honly.2 _ (by decide)
    · have hval : fld (angDisable s) F.ANG_STATUS_RT_VALID = fld s F.ANG_STATUS_RT_VALID := honly.2 _ (by decide)
      rw [rtValid, flag, hval]
      rfl

end

section
/-! SUPPORT. What the Dispatcher's own operations leave alone: groups, the ledger, journals and the buffer stop (R83 to R94). -/
namespace Sys2Proof.Machine

/-! ### Frames -/

section
variable {ps : List Part} {fs : List Fld} {o s t : State}

theorem Only.trans (h : Only ps fs o s) (k : Only ps fs s t) : Only ps fs o t := ⟨h.1.trans k.1, h.2.trans k.2⟩

theorem Only.mono {qs : List Part} {gs : List Fld} (h : Only ps fs o s) (hp : ps ⊆ qs) (hf : fs ⊆ gs) : Only qs gs o s :=
  ⟨h.1.mono fun _ hm => (List.mem_cons.1 hm).elim (fun e => e ▸ List.mem_cons_self) fun hm => List.mem_cons_of_mem _ (hp hm),
    fun f hm => h.2 f fun hn => hm (List.map_subset _ hf hn)⟩

theorem Only.ite {c : Prop} [Decidable c] (h : Only ps fs o s) (k : Only ps fs o t) : Only ps fs o (if c then s else t) := by
  split
  exacts [h, k]

theorem Only.iteSnd {β : Type} {c : Prop} [Decidable c] {x y : β × State} (h : Only ps fs o x.2) (k : Only ps fs o y.2) :
    Only ps fs o (if c then x else y).2 := by
  split
  exacts [h, k]

theorem Only.forEach {α : Type} {f : State → α → State} (hf : ∀ s x, Only ps fs o s → Only ps fs o (f s x)) (h : Only ps fs o s)
    (l : List α) : Only ps fs o (Machine.forEach l f s) := forEach_keeps hf l h

theorem Only.pendVec (h : Only ps fs o s) (hf : F.PCI_PBA_PENDING ∈ fs) (v : Nat) : Only ps fs o (pendVec s v) :=
  h.ite (h.setFld hf _)

theorem Only.satAdd (h : Only ps fs o s) {f : Fld} (hf : f ∈ fs) (n : Nat) : Only ps fs o (satAdd s f n) := h.setFld hf _

theorem Only.satInc (h : Only ps fs o s) {f : Fld} (hf : f ∈ fs) : Only ps fs o (satInc s f) := h.setFld hf _

theorem Only.peak (h : Only ps fs o s) {f : Fld} (hf : f ∈ fs) (v : Nat) : Only ps fs o (peak s f v) := (h.setFld hf _).ite h

theorem Only.setDsp (h : Only ps fs o s) (hp : .dsp ∈ ps) (d : Dispatch) : Only ps fs o (setDsp s d) :=
  ⟨fun p hn => by
    have hs := h.1 p hn
    cases p
    case dsp => exact absurd (List.mem_cons_of_mem _ hp) hn
    all_goals exact hs, h.2⟩

theorem Only.setPort (h : Only ps fs o s) (hp : .ports ∈ ps) (n : Nat) (x : Port) : Only ps fs o (setPort s n x) :=
  ⟨fun p hn => by
    have hs := h.1 p hn
    cases p
    case ports => exact absurd (List.mem_cons_of_mem _ hp) hn
    all_goals exact hs, h.2⟩

theorem Only.setLane (h : Only ps fs o s) (hp : .lanes ∈ ps) (n : Nat) (x : Lane) : Only ps fs o (setLane s n x) :=
  ⟨fun p hn => by
    have hs := h.1 p hn
    cases p
    case lanes => exact absurd (List.mem_cons_of_mem _ hp) hn
    all_goals exact hs, h.2⟩

theorem Only.withWire (h : Only ps fs o s) (hp : .wire ∈ ps) (w : List Sent) : Only ps fs o { s with wire := w } :=
  ⟨fun p hn => by
    have hs := h.1 p hn
    cases p
    case wire => exact absurd (List.mem_cons_of_mem _ hp) hn
    all_goals exact hs, h.2⟩

theorem Only.withMem (h : Only ps fs o s) (hp : .mem ∈ ps) (m : Memory) : Only ps fs o { s with mem := m } :=
  ⟨fun p hn => by
    have hs := h.1 p hn
    cases p
    case mem => exact absurd (List.mem_cons_of_mem _ hp) hn
    all_goals exact hs, h.2⟩

/-! ### What is sent -/

theorem Only.injectInto (h : Only ps fs o s) (hp : .lanes ∈ ps) (p : Nat) (f : Flit) : Only ps fs o (injectInto s p f).2 := by
  unfold Machine.injectInto
  split
  exacts [h.setLane hp _ _, h]

theorem Only.send (h : Only ps fs o s) (hl : .lanes ∈ ps) (hw : .wire ∈ ps) (p pos : Nat) (f : Flit) : Only ps fs o (send s p pos f) :=
  .ite (.ite h ((h.injectInto hl p f).withWire hw _)) (h.withWire hw _)

theorem Only.sendPlain (h : Only ps fs o s) (hl : .lanes ∈ ps) (hw : .wire ∈ ps) (p type addr cidx payload : Nat) :
    Only ps fs o (sendPlain s p type addr cidx payload) := h.send hl hw _ _ _

theorem Only.sendWhere (h : Only ps fs o s) (hl : .lanes ∈ ps) (hw : .wire ∈ ps) (c : State → Nat → Bool) (type addr payload : Nat) :
    Only ps fs o (sendWhere s c type addr payload) :=
  .forEach (fun _ _ k => .ite (k.sendPlain hl hw _ _ _ _ _) k) h _

/-! ### Bytes of the memory dies -/

variable (hm : .mem ∈ ps)
include hm

theorem Only.setLineBytes (h : Only ps fs o s) (l a n mask v : Nat) : Only ps fs o (setLineBytes s l a n mask v) := by
  induction n generalizing s a mask v with
  | zero => exact h
  | succ n ih => exact ih (.ite (h.withMem hm _) h) ..

theorem Only.mergeLine (h : Only ps fs o s) (a n mask v : Nat) : Only ps fs o (mergeLine s a n mask v) :=
  .setLineBytes hm (h.withMem hm _) ..

theorem Only.memStore (h : Only ps fs o s) (m a n mask v : Nat) : Only ps fs o (memStore s m a n mask v).2 :=
  .iteSnd h (.iteSnd h (.mergeLine hm h ..))

theorem Only.memStoreBytes (h : Only ps fs o s) (m a : Nat) (l : List Byte) : Only ps fs o (memStoreBytes s m a l).2 := by
  induction l generalizing s a with
  | nil => exact h
  | cons b t ih => exact .iteSnd h (ih (.memStore hm h ..) _)

end

/-! ### The Dispatcher -/

/-- What the operations on groups, the ledger and the buffer stop may change. -/
def dspParts : List Part := [.evq, .dsp, .ports, .lanes, .wire, .mem]

def dspFlds : List Fld := [F.PCI_PBA_PENDING, F.DSP_CNT_FIRED_COUNT, F.DSP_CNT_LATE_COUNT,
  F.DSP_CNT_DECODE_COUNT, F.DSP_CNT_DENIED_COUNT, F.DSP_CNT_DISABLED_COUNT, F.DSP_CNT_GROUP_FAIL_COUNT, F.DSP_CNT_RATION_COUNT,
  F.DSP_GRP_DROPPED_DROPPED, F.DSP_GRP_WP_WP]

/-- What names a group: its axis, revolution and group index. -/
def grpKey (g : Grp) : Nat × Nat × Nat := (g.axis, g.rev, g.group)

/-- Nothing but what the Dispatcher's own operations may change; of the groups none comes or goes, and in a freeze nothing is sent. -/
structure InDsp (o s : State) : Prop where
  only : Only dspParts dspFlds o s
  keys : s.dsp.groups.map grpKey = o.dsp.groups.map grpKey
  silent : frozen o = true → s.wire = o.wire

theorem InDsp.refl (s : State) : InDsp s s := ⟨.refl _ _ s, rfl, fun _ => rfl⟩

/-- Operations that leave the Dispatcher's own part of the state alone. -/
theorem Only.dsp_eq {ps : List Part} {fs : List Fld} {s t : State} (h : Only ps fs s t) (hn : Part.dsp ∉ ps) : t.dsp = s.dsp :=
  h.1 .dsp (by simpa using hn)

theorem grpKey_eq_of_isGroup {a r n : Nat} {g : Grp} (h : isGroup a r n g = true) : grpKey g = (a, r, n) := by
  simp only [isGroup, Bool.and_eq_true, beq_iff_eq] at h
  obtain ⟨⟨rfl, rfl⟩, rfl⟩ := h
  rfl

section
variable {o s t : State}

theorem InDsp.ite {c : Prop} [Decidable c] (h : InDsp o s) (k : InDsp o t) : InDsp o (if c then s else t) := by
  split
  exacts [h, k]

theorem InDsp.forEach {α : Type} {f : State → α → State} (hf : ∀ s x, InDsp o s → InDsp o (f s x)) (h : InDsp o s) (l : List α) :
    InDsp o (Machine.forEach l f s) := forEach_keeps hf l h

variable (h : InDsp o s)
include h

theorem InDsp.setFld {f : Fld} (hf : f ∈ dspFlds) (v : Nat) : InDsp o (setFld s f v) := ⟨h.only.setFld hf v, h.keys, h.silent⟩
theorem InDsp.raise (c : Nat) (l : List (Nat × Nat)) : InDsp o (raise s c l) := ⟨h.only.raise (by decide) c l, h.keys, h.silent⟩
theorem InDsp.setPort (n : Nat) (x : Port) : InDsp o (setPort s n x) := ⟨h.only.setPort (by decide) n x, h.keys, h.silent⟩

theorem InDsp.setDsp {d : Dispatch} (hd : d.groups.map grpKey = s.dsp.groups.map grpKey) : InDsp o (setDsp s d) :=
  ⟨h.only.setDsp (by decide) d, hd.trans h.keys, h.silent⟩

/-- The freeze outlasts the Dispatcher's operations. -/
theorem InDsp.frozen_eq : frozen s = frozen o := by
  rw [frozen, frozen, flag, flag, h.only.2 F.CLK_STATUS_FROZEN (by decide)]

/-- A step that leaves the Dispatcher's own part of the state alone. -/
theorem InDsp.step {ps : List Part} (k : Only ps dspFlds s t) (hp : ps ⊆ dspParts) (hn : Part.dsp ∉ ps)
    (hw : frozen s = true → t.wire = s.wire) : InDsp o t :=
  ⟨h.only.trans (k.mono hp (List.Subset.refl _)), (congrArg (fun d => d.groups.map grpKey) (k.dsp_eq hn)).trans h.keys,
    fun hf => (hw (h.frozen_eq.trans hf)).trans (h.silent hf)⟩

theorem InDsp.pendVec (v : Nat) : InDsp o (pendVec s v) := by
  have ho : Only [] dspFlds s (Machine.pendVec s v) := (Only.refl [] dspFlds s).pendVec (by decide) v
  exact h.step ho (by simp) (by simp) fun _ => ho.1 .wire (by simp)

theorem InDsp.send (p : Nat) (f : Flit) : InDsp o (send s p 0 f) :=
  h.step ((Only.refl [.lanes, .wire] dspFlds s).send (by decide) (by decide) p 0 f) (by decide) (by decide) fun hf => by
    rw [Machine.send, if_pos rfl, if_pos hf]
theorem InDsp.sendPlain (p type addr cidx payload : Nat) : InDsp o (sendPlain s p type addr cidx payload) := h.send ..

theorem InDsp.sendWhere (c : State → Nat → Bool) (type addr payload : Nat) : InDsp o (sendWhere s c type addr payload) :=
  .forEach (fun _ _ h1 => .ite (h1.sendPlain ..) h1) h _

theorem InDsp.memStoreBytes (m a : Nat) (l : List Byte) : InDsp o (memStoreBytes s m a l).2 := by
  have ho : Only [.mem] dspFlds s (Machine.memStoreBytes s m a l).2 := (Only.refl [.mem] dspFlds s).memStoreBytes (by decide) m a l
  exact h.step ho (by decide) (by decide) fun _ => ho.1 .wire (by decide)

end

section
variable {o s : State}

theorem InDsp.addChange (h : InDsp o s) (c : Change) : InDsp o (Machine.addChange s c) := .setDsp h rfl

theorem InDsp.addStep (h : InDsp o s) (x : StepRec) : InDsp o (Machine.addStep s x) := .setDsp h rfl

theorem InDsp.uncharge (h : InDsp o s) (ords : List Nat) : InDsp o (Machine.uncharge s ords) := .setDsp h rfl

theorem InDsp.chargeKeys (h : InDsp o s) (e ord t : Nat) (l : List Nat) : InDsp o (Machine.chargeKeys s e ord t l) := by
  induction l generalizing s with
  | nil => exact h
  | cons k ks ih => exact ih (.ite (.addChange (.addChange h ..) ..) (.addChange h ..))

theorem InDsp.recordRail (h : InDsp o s) (e : Nat) : InDsp o (Machine.recordRail s e) := .setDsp h rfl

theorem outcomeFld_mem (st : Nat) : outcomeFld st ∈ dspFlds := by
  unfold outcomeFld
  split_ifs <;> decide

theorem InDsp.outcome (h : InDsp o s) (st : Nat) : InDsp o (Machine.outcome s st) :=
  h.setFld (outcomeFld_mem st) _

theorem InDsp.outcomes (h : InDsp o s) (st n : Nat) : InDsp o (Machine.outcomes s st n) :=
  h.setFld (outcomeFld_mem st) _

theorem InDsp.sendAll (h : InDsp o s) (p : Nat) (l : List Flit) : InDsp o (Machine.sendAll s p l) :=
  .forEach (fun _ _ h1 => (.send h1 ..)) h ..

theorem InDsp.numberStaged (h : InDsp o s) (c : Cons) (q : Nat) : InDsp o (Machine.numberStaged s c q) :=
  .setDsp h (by
    simp only [List.map_map]
    exact List.map_congr_left fun g _ => by simp only [Function.comp]; split <;> rfl)

theorem InDsp.emitItem (h : InDsp o s) (p : Nat) (i : Item) : InDsp o (Machine.emitItem s p i) :=
  .sendAll (.setPort (.ite (.numberStaged (.outcomes (.outcomes h ..) ..) ..) (.outcomes (.outcomes h ..) ..)) ..) ..

theorem InDsp.queueItem (h : InDsp o s) (p : Nat) (i : Item) : InDsp o (Machine.queueItem s p i) :=
  .ite (.emitItem h ..) (.setPort h ..)

theorem InDsp.ledgerSet (h : InDsp o s) (key t : Nat) (on : Nat → Nat) : InDsp o (Machine.ledgerSet s key t on) := by
  unfold Machine.ledgerSet
  split
  exacts [h, (.ite (.addChange h ..) h)]

theorem InDsp.ledgerSafe (h : InDsp o s) (p n c t : Nat) : InDsp o (Machine.ledgerSafe s p n c t) := .ledgerSet h ..

theorem InDsp.ledgerSafeModule (h : InDsp o s) (p n t : Nat) : InDsp o (Machine.ledgerSafeModule s p n t) :=
  .forEach (fun _ _ h1 => (.ledgerSafe h1 ..)) h ..

theorem InDsp.ledgerMissed (h : InDsp o s) (p n t : Nat) : InDsp o (Machine.ledgerMissed s p n t) :=
  .forEach (fun _ _ h1 => (by split; exacts [(.ledgerSet h1 ..), (.ledgerSafe h1 ..), h1])) h ..

theorem InDsp.putGroup (h : InDsp o s) (g : Grp) : InDsp o (Machine.putGroup s g) :=
  .setDsp h (by
    simp only [List.map_map]
    refine List.map_congr_left fun x _ => ?_
    simp only [Function.comp]
    split
    · next hx => exact (grpKey_eq_of_isGroup hx).symm
    · rfl)

theorem InDsp.writeGroupRecord (h : InDsp o s) (g : Grp) : InDsp o (Machine.writeGroupRecord s g) :=
  .ite (h.setFld (by decide) _) (.ite (.setFld (.memStoreBytes h ..) (by decide) _) (.setFld (.pendVec (.raise (.setDsp
    (.memStoreBytes h ..) (by rfl)) ..) ..) (by decide) _))

theorem InDsp.sendFallbacks (h : InDsp o s) (g : Grp) (p a t : Nat) (ms : List Memb) : InDsp o (Machine.sendFallbacks s g p a t ms) :=
  .forEach (fun _ _ h1 => (.queueItem h1 ..)) h ..

theorem InDsp.fallbackTo (h : InDsp o s) (g : Grp) (ms : List Memb) : InDsp o (Machine.fallbackTo s g ms) :=
  .forEach (fun _ _ h1 => (.sendFallbacks h1 ..)) h ..

theorem InDsp.chargeRepeat (h : InDsp o s) (e t k : Nat) : InDsp o (Machine.chargeRepeat s e t k) :=
  .chargeKeys (.addStep h ..) ..

theorem InDsp.chargeFallback (h : InDsp o s) (g : Grp) (m : Memb) : InDsp o (Machine.chargeFallback s g m) :=
  .forEach (fun _ _ h1 => (.ite (.ite (.addChange h1 ..) h1) (by split; exacts [h1, (.ite (.chargeRepeat h1 ..) h1)]))) h ..

theorem InDsp.chargeFallbacks (h : InDsp o s) (g : Grp) : InDsp o (Machine.chargeFallbacks s g) :=
  .forEach (fun _ _ h1 => (.chargeFallback h1 ..)) (.uncharge h ..) ..

theorem InDsp.sendRevokes (h : InDsp o s) (g : Grp) : InDsp o (Machine.sendRevokes s g) :=
  .forEach (fun _ _ h1 => (.queueItem h1 ..)) h ..

theorem InDsp.dropStaged (h : InDsp o s) (g : Grp) : InDsp o (Machine.dropStaged s g) :=
  .forEach (fun _ _ h1 => (.setPort h1 ..)) (.setDsp h (by rfl)) ..

theorem InDsp.failGroupCore (h : InDsp o s) (g : Grp) (reason own : Nat) : InDsp o (Machine.failGroupCore s g reason own) :=
  .writeGroupRecord (.putGroup (.ite (.outcomes h ..) (.ite (.chargeFallbacks (.fallbackTo (.dropStaged (.sendRevokes (.outcomes h ..)
    ..) ..) ..) ..) (.chargeFallbacks (.fallbackTo (.outcomes h ..) ..) ..))) ..) ..

theorem InDsp.endGroup (h : InDsp o s) (g : Grp) : InDsp o (Machine.endGroup s g) :=
  .ite (.writeGroupRecord (.putGroup h ..) ..) (.putGroup h ..)

theorem InDsp.loseCommits (h : InDsp o s) (g : Grp) (which : GMod → Bool) : InDsp o (Machine.loseCommits s g which) :=
  .ite h (.ite (.endGroup (.ite h (.raise h ..)) ..) (.putGroup (.ite h (.raise h ..)) ..))

theorem InDsp.emptyJournals (h : InDsp o s) : InDsp o (Machine.emptyJournals s) := .forEach (fun _ _ h1 => (.setPort h1 ..)) h ..

theorem InDsp.stopGroup (h : InDsp o s) (g : Grp) : InDsp o (Machine.stopGroup s g) := by
  unfold Machine.stopGroup
  split
  exacts [(.failGroupCore h ..), (.failGroupCore h ..), (.failGroupCore h ..), (.loseCommits h ..), h]

theorem InDsp.ledgerStop (h : InDsp o s) : InDsp o (Machine.ledgerStop s) :=
  .forEach (fun _ _ h1 => (.forEach (fun _ _ h2 => (.ledgerSafeModule h2 ..)) h1 ..)) (.setDsp h (by rfl)) ..

theorem InDsp.disableWork (h : InDsp o s) : InDsp o (Machine.disableWork s) := .outcomes (.setDsp (.uncharge h ..) (by rfl)) ..

end

/-! ### The trigger of the buffer stop (R94) -/

/-- What a trigger of the buffer stop may change: its own fields too. -/
def bstopFlds : List Fld := F.DSP_STATUS_BSTOP :: F.DSP_BSTOP_CAUSE :: dspFlds

/-- The state that STOPPING is entered in. -/
def stoppingEntered (s : State) (c : Nat) : State :=
  let s2 := pendVec (raise (addCause s c) 0x0908 [(1, fld (addCause s c) F.DSP_BSTOP_CAUSE)]) 5
  setDsp (setFld s2 F.DSP_STATUS_BSTOP bSTOPPING) { s2.dsp with bstopAck := [] }

/-- What a trigger does once STOPPING is entered: BSTOP on every ring port, and the end of the work in hand. -/
def workStopped (s : State) : State :=
  let s4 := sendWhere s liveRing FT.bstop 255 0
  ledgerStop (emptyJournals (forEach s4.dsp.groups stopGroup (disableWork s4)))

theorem bstopTrigger_eq (s : State) (c : Nat) : bstopTrigger s c =
    if bstopState s ≠ bRUN then addCause s c else bstopCheck (workStopped (stoppingEntered s c)) := by
  simp only [bstopTrigger, workStopped, stoppingEntered]

theorem inDsp_workStopped (s : State) : InDsp s (workStopped s) :=
  .ledgerStop (.emptyJournals (.forEach (fun _ _ h1 => .stopGroup h1 ..) (.disableWork (.sendWhere (.refl s) ..)) ..))

theorem bstopState_stoppingEntered (s : State) (c : Nat) : bstopState (stoppingEntered s c) = bSTOPPING :=
  fld_setFld_same _ F.DSP_STATUS_BSTOP bSTOPPING

theorem bstopState_workStopped (s : State) : bstopState (workStopped s) = bstopState s :=
  (inDsp_workStopped s).only.2 F.DSP_STATUS_BSTOP (by decide)

theorem only_stoppingEntered (s : State) (c : Nat) : Only dspParts bstopFlds s (stoppingEntered s c) :=
  (((((Only.refl dspParts bstopFlds s).setFld (by decide) _).raise (by decide) _ _).pendVec (by decide) _).setFld (by decide) _).setDsp
    (by decide) _

theorem Only.bstopCheck {ps : List Part} {fs : List Fld} {o s : State} (h : Only ps fs o s) (hf : F.DSP_STATUS_BSTOP ∈ fs) :
    Only ps fs o (bstopCheck s) := (h.setFld hf _).ite h

/-- A trigger changes nothing beside the Dispatcher, its ports, their wire, memory bytes of group records, and the events. -/
theorem only_bstopTrigger (s : State) (c : Nat) : Only dspParts bstopFlds s (bstopTrigger s c) := by
  rw [bstopTrigger_eq]
  refine .ite ((Only.refl _ _ s).setFld (by decide) _) (Only.bstopCheck ?_ (by decide))
  exact (only_stoppingEntered s c).trans ((inDsp_workStopped _).only.mono (List.Subset.refl _)
    fun f hf => List.mem_cons_of_mem _ (List.mem_cons_of_mem _ hf))

theorem bstopCheck_ne_run {s : State} (h : bstopState s ≠ bRUN) : bstopState (bstopCheck s) ≠ bRUN := by
  unfold bstopCheck
  split
  · rw [bstopState, fld_setFld_same]
    decide
  · exact h

/-- After a trigger the buffer stop is not in RUN. -/
theorem bstopState_bstopTrigger_ne_run (s : State) (c : Nat) : bstopState (bstopTrigger s c) ≠ bRUN := by
  rw [bstopTrigger_eq]
  split
  · next h =>
    have hs : bstopState (addCause s c) = bstopState s := fld_setFld_ne s (by decide) _
    rwa [hs]
  · refine bstopCheck_ne_run ?_
    rw [bstopState_workStopped, bstopState_stoppingEntered]
    decide

end Sys2Proof.Machine
end

section
/-! SUPPORT. Ring time of a follower (R40 to R42). -/
namespace Sys2Proof.Machine

/-! ### Ring time is passed on to no port but another trunk that is up -/

theorem sendWhere_none {s : State} {c : State → Nat → Bool} (h : ∀ q, q < 4 → c s q = false) (type addr payload : Nat) :
    sendWhere s c type addr payload = s := by
  simp [sendWhere, forEach, allPorts, h]

theorem upTrunk_congr {s t : State} {q : Nat} (hm : fld t (F.WNG_Pp_CTRL_MODE q) = fld s (F.WNG_Pp_CTRL_MODE q))
    (hs : fld t (F.WNG_Pp_STATUS_STATE q) = fld s (F.WNG_Pp_STATUS_STATE q)) : upTrunk t q = upTrunk s q := by
  simp only [upTrunk, isTrunk, flag, portState, hm, hs]

/-- A change of nothing but ring-time registers leaves every port as it is. -/
theorem upTrunk_of_rt {s t : State} (h : OnlyFlds [F.ANG_RT_TIME, F.ANG_STATUS_RT_ERR, F.ANG_STATUS_HOPS, F.ANG_STATUS_RT_STATE] s t)
    {q : Nat} (hq : q < 4) : upTrunk t q = upTrunk s q := by
  refine upTrunk_congr (h _ ?_) (h _ ?_) <;> interval_cases q <;> decide

/-! ### A flit on the port that faces the master -/

theorem masterPort_of {s : State} {p : Nat} (hrole : fld s F.ANG_RTM_ROLE_ROLE = 2) (hlane : fld s F.ANG_RTM_ROLE_RCLK_LANE / 2 = p)
    (ht : isTrunk s p = true) : masterPort s p = true := by
  simp [masterPort, hrole, hlane, ht]

/-- What the follower makes of the flit, with the count of hops it carries. -/
def followed (s : State) (p f late : Nat) : State :=
  setFld (followFlit s (rtError s p f late) p f) F.ANG_STATUS_HOPS (bits (fPayload f) 112 8)

section
variable {p : Fin 4} {f : Flit} {late : BitVec 18} {s : State} (hfr : frozen s = false) (hg : fGood f.toNat = true)
  (ht : fType f.toNat = FT.ringTime) (hm : masterPort s p = true)
include hfr hg ht hm

theorem exec_ringTime : exec (.ringTime p 0 f late) s = done (sendWhere (followed s p f.toNat late.toNat)
    (fun s q => q != p.val && upTrunk s q && rtValid s) FT.ringTime 0 (ringTimePayload (followed s p f.toNat late.toNat))) := by
  change done (if arrived s 0 f.toNat FT.ringTime then
    (if (0 : Nat) = 0 then deviceRingTime s p f.toNat late.toNat else moduleRingTime s p 0 f.toNat late.toNat) else s) = _
  rw [arrived_of hfr hg ht, if_pos rfl, if_pos rfl, deviceRingTime, if_pos hm]
  rfl

/-- With no other trunk up the flit ends at the follower. -/
theorem exec_ringTime_alone (hup : ∀ q, q < 4 → q ≠ p.val → upTrunk s q = false)
    (hw : OnlyFlds [F.ANG_RT_TIME, F.ANG_STATUS_RT_ERR, F.ANG_STATUS_HOPS, F.ANG_STATUS_RT_STATE] s (followed s p f.toNat late.toNat)) :
    exec (.ringTime p 0 f late) s = done (followed s p f.toNat late.toNat) := by
  rw [exec_ringTime hfr hg ht hm, sendWhere_none]
  intro q hq
  by_cases h : q = p.val
  · simp [h]
  · simp [upTrunk_of_rt hw hq, hup q hq h]

end

/-! ### What a flit does to ring time -/

section
variable {ps : List Part} {fs : List Fld} {o s : State}

theorem Only.withRt (h : Only ps fs o s) (hp : .rt ∈ ps) (r : RingTime) : Only ps fs o { s with rt := r } :=
  ⟨fun p hn => by
    have hs := h.1 p hn
    cases p
    case rt => exact absurd (List.mem_cons_of_mem _ hp) hn
    all_goals exact hs, h.2⟩

end

section
variable {s : State} {e : Int} {p f : Nat}

/-- The first flit in ACQ_PHASE. -/
theorem followFlit_steps (hst : rtState s = rACQ_PHASE) (hstep : s.rt.stepped = false) : followFlit s e p f =
    setFld { setRtErr s e with rt := { (setRtErr s e).rt with stepped := true, good := 0, bad := 0 } } F.ANG_RT_TIME
      ((bits (fPayload f) 0 64 * 65536 + bits (fPayload f) 64 48 + (port s p).hop) / 65536) := by
  simp only [followFlit, hst, hstep, if_true, Bool.not_false]

theorem within_iff {n : Nat} : within e n = true ↔ e.natAbs ≤ n * 65536 := decide_eq_true_iff

/-- The slew that a small error makes. -/
def slewed (s : State) (e : Int) : State := slewRt { setRtErr s e with rt := { (setRtErr s e).rt with bad := 0 } } e

theorem not_phase (hst : rtState s = rLOCKED ∨ rtState s = rHOLDOVER) : rtState s ≠ rACQ_PHASE := by
  rcases hst with h | h <;> rw [h] <;> decide

theorem followFlit_near (hst : rtState s = rLOCKED ∨ rtState s = rHOLDOVER) (he : e.natAbs ≤ 50 * 65536) : followFlit s e p f =
    if rtState s = rLOCKED then slewed s e else setRt (raise (slewed s e) 0x0A10 []) rLOCKED := by
  simp only [followFlit, if_neg (not_phase hst), if_pos hst, within_iff.2 he, if_true, slewed]

theorem followFlit_far (hst : rtState s = rLOCKED ∨ rtState s = rHOLDOVER) (he : 50 * 65536 < e.natAbs) (hb : s.rt.bad < 3) :
    followFlit s e p f =
    if rtState s = rLOCKED then slewRt { setRtErr s e with rt := { (setRtErr s e).rt with bad := (setRtErr s e).rt.bad + 1 } } e
    else { setRtErr s e with rt := { (setRtErr s e).rt with bad := (setRtErr s e).rt.bad + 1 } } := by
  have hw : ¬within e 50 = true := fun h => by
    have := within_iff.1 h
    omega
  have hbad : (setRtErr s e).rt.bad + 1 < 4 := by
    change s.rt.bad + 1 < 4
    omega
  simp only [followFlit, if_neg (not_phase hst), if_pos hst, if_neg hw, if_pos hbad]

theorem followFlit_lost (hst : rtState s = rLOCKED ∨ rtState s = rHOLDOVER) (he : 50 * 65536 < e.natAbs) (hb : 3 ≤ s.rt.bad) :
    followFlit s e p f = toPhase (loseRt (setRtErr s e)) := by
  have hw : ¬within e 50 = true := fun h => by
    have := within_iff.1 h
    omega
  have hbad : ¬(setRtErr s e).rt.bad + 1 < 4 := by
    change ¬s.rt.bad + 1 < 4
    omega
  simp only [followFlit, if_neg (not_phase hst), if_pos hst, if_neg hw, if_neg hbad]

end

theorem only_slewed (s : State) (e : Int) : Only [.rt] [F.ANG_STATUS_RT_ERR] s (slewed s e) :=
  (((Only.refl _ _ s).setFld (by decide) _).withRt (by decide) _).withRt (by decide) _

theorem only_far (s : State) (e : Int) : Only [.rt] [F.ANG_STATUS_RT_ERR] s
    { setRtErr s e with rt := { (setRtErr s e).rt with bad := (setRtErr s e).rt.bad + 1 } } :=
  ((Only.refl _ _ s).setFld (by decide) _).withRt (by decide) _

/-- A frame of some ring-time fields is one of all of them. -/
theorem OnlyFlds.rt {fs : List Fld} {s t : State} (h : OnlyFlds fs s t)
    (hf : fs ⊆ [F.ANG_RT_TIME, F.ANG_STATUS_RT_ERR, F.ANG_STATUS_HOPS, F.ANG_STATUS_RT_STATE]) :
    OnlyFlds [F.ANG_RT_TIME, F.ANG_STATUS_RT_ERR, F.ANG_STATUS_HOPS, F.ANG_STATUS_RT_STATE] s t :=
  fun f hn => h f fun hm => hn (List.map_subset _ hf hm)

/-- Ring time lost and looked for anew: nothing of it but RT_STATE and RT_VALID. -/
theorem rt_lost (s : State) : rtState (toPhase (loseRt s)) = rACQ_PHASE ∧ rtValid (toPhase (loseRt s)) = false
    ∧ now (toPhase (loseRt s)) = now s := by
  refine ⟨fld_setFld_same .., ?_, ?_⟩
  · have hv : fld (toPhase (loseRt s)) F.ANG_STATUS_RT_VALID = 0 :=
      (fld_setFld_ne _ (by decide) _).trans (fld_setFld_same (bstopTrigger (raise s 0x0A12 []) BC.ringTime) F.ANG_STATUS_RT_VALID 0)
    rw [rtValid, flag, hv]
    rfl
  · have hn : fld (loseRt s) F.ANG_RT_TIME = fld s F.ANG_RT_TIME :=
      (fld_setFld_ne _ (by decide) _).trans ((only_bstopTrigger (raise s 0x0A12 []) BC.ringTime).2 _ (by decide))
    exact (fld_setFld_ne _ (by decide) _).trans hn

/-! ### A ring-time flit at a module -/

/-- The correction of a module's offset. -/
def moduleSlew (s : State) (p pos f late : Nat) : Int :=
  clampInt (-8) 8 (roundDiv ((bits (fPayload f) 0 64 : Int) * 65536
    + ((bits (fPayload f) 64 48 + (smGet s.modules (p * 256 + pos) ({} : Module)).hopUp : Nat) : Int)
    - (((now s : Int) + (smGet s.modules (p * 256 + pos) ({} : Module)).rtOff) * 65536 + late)) 65536)

/-- The module with its offset corrected. -/
def moduleSlewed (s : State) (p pos f late : Nat) : State :=
  let m : Module := smGet s.modules (p * 256 + pos) {}
  { drawn s with modules := smSet s.modules (p * 256 + pos) { m with rtOff := m.rtOff + moduleSlew s p pos f late } {} }

theorem clampInt_natAbs (x : Int) : (clampInt (-8) 8 x).natAbs ≤ 8 := by
  unfold clampInt
  split_ifs <;> omega

theorem send_module (s : State) (p : Nat) {pos : Nat} (hpos : pos ≠ 0) (f : Flit) :
    send s p pos f = { s with wire := ⟨p, pos, f⟩ :: s.wire } := if_neg hpos

/-- A module corrects its offset and, unless it is the last, passes the flit on. -/
theorem moduleRingTime_eq (s : State) (p f late : Nat) {pos : Nat} (hpos : pos ≠ 0) : ∃ g : Flit, moduleRingTime s p pos f late =
    if (smGet s.modules (p * 256 + pos) ({} : Module)).isEnd then moduleSlewed s p pos f late
    else { moduleSlewed s p pos f late with wire := ⟨p, pos, g⟩ :: s.wire } := by
  refine ⟨mkFlit FT.ringTime (fSeq f) (fAddr f) 0 0 (putBits (fPayload f) 64 48
    (bits (fPayload f) 64 48 + (smGet s.modules (p * 256 + pos) ({} : Module)).hopUp + freeOf s % (400 * 65536 + 1))), ?_⟩
  simp only [moduleRingTime, send_module _ _ hpos]
  rfl

theorem moduleRingTime_modules (s : State) (p f late : Nat) {pos : Nat} (hpos : pos ≠ 0) :
    (moduleRingTime s p pos f late).modules = (moduleSlewed s p pos f late).modules := by
  obtain ⟨g, hg⟩ := moduleRingTime_eq s p f late hpos
  rw [hg]
  split_ifs <;> rfl

theorem only_moduleRingTime (s : State) (p f late : Nat) {pos : Nat} (hpos : pos ≠ 0) :
    OnlyParts [.modules, .free, .wire] s (moduleRingTime s p pos f late) := by
  obtain ⟨g, hg⟩ := moduleRingTime_eq s p f late hpos
  rw [hg]
  intro q hq
  split_ifs <;> cases q <;> simp [samePart, moduleSlewed, drawn] at hq ⊢

end Sys2Proof.Machine
end

section
open Sys2Proof Sys2Proof.Machine

/-- Settles O9: each case of a ring-time flit at a follower, by what `followFlit` does in it. -/
theorem followerRingTime : Obligations.FollowerRingTime := by
  refine ⟨?steps, ?near, ?far, ?lost, ?other, ?module⟩
  case steps =>
    intro p f late s hq hfr hg ht hrole hlane htr hup hst hstep
    have hw : followed s p f.toNat late.toNat = setFld (setFld { setRtErr s (rtError s p f.toNat late.toNat) with
        rt := { (setRtErr s (rtError s p f.toNat late.toNat)).rt with stepped := true, good := 0, bad := 0 } } F.ANG_RT_TIME
        ((bits (fPayload f.toNat) 0 64 * 65536 + bits (fPayload f.toNat) 64 48 + (port s p).hop) / 65536))
        F.ANG_STATUS_HOPS (bits (fPayload f.toNat) 112 8) := by
      rw [followed, followFlit_steps hst hstep]
    have honly : Only [.rt] [F.ANG_RT_TIME, F.ANG_STATUS_RT_ERR, F.ANG_STATUS_HOPS] s (followed s p f.toNat late.toNat) := by
      rw [hw]
      exact ((((Only.refl _ _ s).setFld (by decide) _).withRt (by decide) _).setFld (by decide) _).setFld (by decide) _
    refine completes_eq_quiet (exec_ringTime_alone hfr hg ht (masterPort_of hrole hlane htr) hup
      fun f hf => honly.2 f fun hm => hf (by revert hm; simp only [List.map_cons, List.map_nil, List.mem_cons, List.not_mem_nil]; tauto)) rfl
      ((honly.1 .evq (by decide)).trans hq) ⟨?_, (honly.2 F.ANG_STATUS_RT_STATE (by decide)).trans hst, ?_, honly⟩
    · rw [hw, now, fld_setFld_ne _ (by decide), fld_setFld_same]
      rfl
    · rw [hw, fld_setFld_same]
      exact Nat.mod_eq_of_lt (bits_lt ..)
  case near =>
    intro p f late s hq hfr hg ht hrole hlane htr hup hst he
    have hsl := only_slewed s (rtError s p f.toNat late.toNat)
    have hm := masterPort_of hrole hlane htr
    rcases hst with hst | hst
    · have hw : followed s p f.toNat late.toNat = setFld (slewed s (rtError s p f.toNat late.toNat)) F.ANG_STATUS_HOPS
          (bits (fPayload f.toNat) 112 8) := by rw [followed, followFlit_near (.inl hst) he, if_pos hst]
      have honly : Only [.rt] [F.ANG_STATUS_RT_ERR, F.ANG_STATUS_RT_STATE, F.ANG_STATUS_HOPS] s (followed s p f.toNat late.toNat) := by
        rw [hw]
        exact (hsl.mono (List.Subset.refl _) (by simp)).setFld (by decide) _
      have hne : ¬rtState s = rHOLDOVER := by rw [hst]; decide
      rw [if_neg hne]
      refine completes_eq_quiet (exec_ringTime_alone hfr hg ht hm hup (honly.2.rt (by simp))) rfl
        ((honly.1 .evq (by decide)).trans hq) ⟨?_, honly.2 F.ANG_RT_TIME (by decide), ?_, ?_, honly⟩
      · rw [hw]
        exact ((fld_setFld_ne _ (by decide) _).trans (hsl.2 F.ANG_STATUS_RT_STATE (by decide))).trans hst
      · rw [hw]
        rfl
      · rw [hw]
        rfl
    · have hw : followed s p f.toNat late.toNat = setFld (setRt (raise (slewed s (rtError s p f.toNat late.toNat)) 0x0A10 []) rLOCKED)
          F.ANG_STATUS_HOPS (bits (fPayload f.toNat) 112 8) := by
        have hne : ¬rtState s = rLOCKED := by rw [hst]; decide
        rw [followed, followFlit_near (.inr hst) he, if_neg hne]
      have honly : Only [.evq, .rt] [F.ANG_STATUS_RT_ERR, F.ANG_STATUS_RT_STATE, F.ANG_STATUS_HOPS] s
          (followed s p f.toNat late.toNat) := by
        rw [hw]
        exact (((hsl.mono (by simp) (by simp)).raise (by simp) _ _).setFld (by decide) _).setFld (by decide) _
      rw [if_pos hst]
      refine completes_eq (exec_ringTime_alone hfr hg ht hm hup (honly.2.rt (by simp))) rfl ?_ ⟨?_, ?_, ?_, ?_, honly.hush hq⟩
      · rw [hw]
        exact congrArg (· ++ [ev 0x0A10 []]) ((hsl.1 .evq (by decide)).trans hq)
      · rw [hw]
        exact (fld_setFld_ne _ (by decide) _).trans (fld_setFld_same _ F.ANG_STATUS_RT_STATE _)
      · exact honly.2 F.ANG_RT_TIME (by decide)
      · rw [hw]
        rfl
      · rw [hw]
        rfl
  case far =>
    intro p f late s hq hfr hg ht hrole hlane htr hup hst he hb
    have hne : ¬rtState s = rLOCKED := by rw [hst]; decide
    have hfar := only_far s (rtError s p f.toNat late.toNat)
    have hw : followed s p f.toNat late.toNat = setFld { setRtErr s (rtError s p f.toNat late.toNat) with
        rt := { (setRtErr s (rtError s p f.toNat late.toNat)).rt with bad := (setRtErr s (rtError s p f.toNat late.toNat)).rt.bad + 1 } }
        F.ANG_STATUS_HOPS (bits (fPayload f.toNat) 112 8) := by rw [followed, followFlit_far (.inr hst) he hb, if_neg hne]
    have honly : Only [.rt] [F.ANG_STATUS_RT_ERR, F.ANG_STATUS_HOPS] s (followed s p f.toNat late.toNat) := by
      rw [hw]
      exact (hfar.mono (List.Subset.refl _) (by simp)).setFld (by decide) _
    refine completes_eq_quiet (exec_ringTime_alone hfr hg ht (masterPort_of hrole hlane htr) hup (honly.2.rt (by simp))) rfl
      ((honly.1 .evq (by decide)).trans hq)
      ⟨honly.2 F.ANG_RT_TIME (by decide), (honly.2 F.ANG_STATUS_RT_STATE (by decide)).trans hst, ?_, honly⟩
    rw [hw]
    rfl
  case lost =>
    intro p f late s hq hfr hg ht hrole hlane htr hst he hb
    have hexec := exec_ringTime (late := late) hfr hg ht (masterPort_of hrole hlane htr)
    have hw : followed s p f.toNat late.toNat = setFld (toPhase (loseRt (setRtErr s (rtError s p f.toNat late.toNat))))
        F.ANG_STATUS_HOPS (bits (fPayload f.toNat) 112 8) := by rw [followed, followFlit_lost hst he hb]
    have hsend := (Only.refl [.lanes, .wire] [] (followed s p f.toNat late.toNat)).sendWhere (by decide) (by decide)
      (fun s q => q != p.val && upTrunk s q && rtValid s) FT.ringTime 0 (ringTimePayload (followed s p f.toNat late.toNat))
    obtain ⟨hstate, hvalid, hnow⟩ := rt_lost (setRtErr s (rtError s p f.toNat late.toNat))
    refine runs_of hexec ⟨?_, ?_, ?_⟩
    · refine (hsend.2 F.ANG_STATUS_RT_STATE (by decide)).trans ?_
      rw [hw]
      exact (fld_setFld_ne _ (by decide) _).trans hstate
    · have hv : fld (followed s p f.toNat late.toNat) F.ANG_STATUS_RT_VALID
          = fld (toPhase (loseRt (setRtErr s (rtError s p f.toNat late.toNat)))) F.ANG_STATUS_RT_VALID := by
        rw [hw]
        exact fld_setFld_ne _ (by decide) _
      rw [rtValid, flag, fld_hush, hsend.2 F.ANG_STATUS_RT_VALID (by decide), hv]
      exact hvalid
    · refine (hsend.2 F.ANG_RT_TIME (by decide)).trans ?_
      rw [hw]
      exact ((fld_setFld_ne _ (by decide) _).trans hnow).trans (fld_setFld_ne _ (by decide) _)
  case other =>
    intro p f late s hq hne
    have hm : masterPort s p = false := by
      rcases hne with h | h <;> simp [masterPort, h]
    have hw : (if arrived s 0 f.toNat FT.ringTime then
        (if (0 : Nat) = 0 then deviceRingTime s p f.toNat late.toNat else moduleRingTime s p 0 f.toNat late.toNat) else s) = s := by
      simp [deviceRingTime, hm]
    exact completes_eq_quiet rfl hw hq rfl
  case module =>
    intro p pos f late s hq hg ht hpos
    have hne : pos.val ≠ 0 := fun h => hpos (Fin.ext h)
    have hw : (if arrived s pos f.toNat FT.ringTime then
        (if pos.val = 0 then deviceRingTime s p f.toNat late.toNat else moduleRingTime s p pos f.toNat late.toNat) else s)
        = moduleRingTime s p pos f.toNat late.toNat := by
      simp [arrived, hg, ht, hne]
    have honly := only_moduleRingTime s p.val f.toNat late.toNat hne
    have hmod := moduleRingTime_modules s p.val f.toNat late.toNat hne
    refine completes_eq_quiet rfl hw ((honly .evq (by decide)).trans hq) ⟨?_, ?_, ?_, honly⟩
    · intro k hk
      rw [hmod]
      exact smGet_smSet_ne _ hk ..
    · rw [hmod, moduleSlewed, smGet_smSet_same, add_sub_cancel_left]
      exact clampInt_natAbs _
    · intro hend
      obtain ⟨g, hg⟩ := moduleRingTime_eq s p.val f.toNat late.toNat hne
      rw [hg, if_pos hend]
      rfl

end

section
/-! SUPPORT. The role of ring time, and what the device sends of its own accord (R39 to R41, R120, R122). -/
namespace Sys2Proof.Machine

/-! ### A flit of the device on the one port that takes it -/

theorem injectInto_plain {s : State} (h : SendsPlainly s) {p : Nat} (hp : p < 4) (f : Flit) : injectInto s p f = (f, s) := by
  have hl : (portLanes s p).find? (fun n => (lane s n).injCrc) = none := by
    rw [List.find?_eq_none]
    intro n hn
    have h8 : n < 8 := by
      unfold portLanes at hn
      split at hn <;> simp only [List.mem_cons, List.not_mem_nil, or_false] at hn <;> omega
    simp [h.2 ⟨n, h8⟩]
  rw [injectInto, hl]

theorem sendPlain_plain {s : State} (h : SendsPlainly s) {p : Nat} (hp : p < 4) (type addr cidx payload : Nat) :
    sendPlain s p type addr cidx payload
      = { s with wire := ⟨p, 0, mkFlit type (port s p).seq addr cidx 0 payload⟩ :: s.wire } := by
  rw [sendPlain, send, if_pos rfl, if_neg (by simp [h.1]), injectInto_plain h hp]

/-- A flit on every port that meets a condition, where one port does and what stands on the wire is nothing to the condition. -/
theorem sendWhere_one {s : State} {c : State → Nat → Bool} {p : Nat} (h : SendsPlainly s) (hp : p < 4) (hc : c s p = true)
    (hne : ∀ q, q < 4 → q ≠ p → c s q = false) (hw : ∀ w q, c { s with wire := w } q = c s q) (type addr payload : Nat) :
    sendWhere s c type addr payload = { s with wire := ⟨p, 0, mkFlit type (port s p).seq addr 0 0 payload⟩ :: s.wire } := by
  have hsend := sendPlain_plain h hp type addr 0 payload
  have h0 := hne 0
  have h1 := hne 1
  have h2 := hne 2
  have h3 := hne 3
  interval_cases p <;> simp [sendWhere, forEach, allPorts, hc, hsend, hw, h0, h1, h2, h3]

theorem onlyParts_wire (s : State) (w : List Sent) : OnlyParts [.wire] s { s with wire := w } := by
  intro q hq
  cases q <;> simp [samePart] at hq ⊢

/-- A command that does nothing but send one flit. -/
theorem completes_sends {c : Instr} {s w : State} {x : Sent} (hc : exec c s = done w) (hw : w = { s with wire := x :: s.wire })
    (hq : Quiet s) : Completes c s [] fun u => u.wire = x :: s.wire ∧ OnlyParts [.wire] s u :=
  completes_eq_quiet hc hw hq ⟨rfl, onlyParts_wire s _⟩

theorem bitOf_eq_testBit (x i : Nat) : bitOf x i = x.testBit i := by
  simp [bitOf, bits, Nat.testBit_eq_decide_div_mod_eq, Nat.shiftRight_eq_div_pow, beq_eq_decide]

theorem upTrunk_not_liveRing {s : State} {p : Nat} (h : upTrunk s p = true) : liveRing s p = false := by
  simp_all [upTrunk, liveRing]

theorem liveRing_not_upTrunk {s : State} {p : Nat} (h : liveRing s p = true) : upTrunk s p = false := by
  simp_all [upTrunk, liveRing]

/-! ### Ring time set and lost -/

@[simp] theorem rtState_hush (s : State) : rtState (hush s) = rtState s := rfl
@[simp] theorem rtValid_hush (s : State) : rtValid (hush s) = rtValid s := rfl
@[simp] theorem now_hush (s : State) : now (hush s) = now s := rfl
@[simp] theorem bstopState_hush (s : State) : bstopState (hush s) = bstopState s := rfl
@[simp] theorem rtState_setRt_hold (s : State) : rtState (setRt s rHOLDOVER) = rHOLDOVER := fld_setFld_same ..
@[simp] theorem rtState_setRt_freq (s : State) : rtState (setRt s rACQ_FREQ) = rACQ_FREQ := fld_setFld_same ..
@[simp] theorem rtValid_setRt (s : State) (x : Nat) : rtValid (setRt s x) = rtValid s :=
  congrArg (· != 0) (fld_setFld_ne s (by decide) x)
@[simp] theorem now_setRt (s : State) (x : Nat) : now (setRt s x) = now s := fld_setFld_ne s (by decide) x
@[simp] theorem bstopState_setRt (s : State) (x : Nat) : bstopState (setRt s x) = bstopState s := fld_setFld_ne s (by decide) x

theorem rtValid_loseRt (s : State) : rtValid (loseRt s) = false :=
  congrArg (· != 0) (fld_setFld_same (bstopTrigger (raise s 0x0A12 []) BC.ringTime) F.ANG_STATUS_RT_VALID 0)

theorem now_loseRt (s : State) : now (loseRt s) = now s :=
  (fld_setFld_ne _ (by decide) _).trans ((only_bstopTrigger (raise s 0x0A12 []) BC.ringTime).2 _ (by decide))

theorem bstopState_loseRt (s : State) : bstopState (loseRt s) ≠ bRUN := by
  have h : bstopState (loseRt s) = bstopState (bstopTrigger (raise s 0x0A12 []) BC.ringTime) := fld_setFld_ne _ (by decide) _
  exact h ▸ bstopState_bstopTrigger_ne_run _ _

/-! ### A role is taken -/

/-- Ring time that was not valid, stopped on a lane for a role. -/
def roleTaken (s : State) (w r : Nat) : State :=
  showRef (setFld (setRt (setFld s F.ANG_RTM_ROLE_RCLK_LANE (bits w 4 3)) rSTOPPED) F.ANG_RTM_ROLE_ROLE r)

theorem roleWrite_takes {s : State} {w r : Nat} (hlock : flag s F.ANG_CTRL_LOCK = false) (hr : bits w 0 2 = r) (h3 : r ≠ 3)
    (hrole : fld s F.ANG_RTM_ROLE_ROLE = 0) (h0 : r ≠ 0) (hv : rtValid s = false) :
    roleWrite s w = startRole (roleTaken s w r) r := by
  have hv1 : rtValid (setFld s F.ANG_RTM_ROLE_RCLK_LANE (bits w 4 3)) = false :=
    (congrArg (· != 0) (fld_setFld_ne s (by decide) _)).trans hv
  simp only [roleWrite, hlock, hr, hrole, hv1, if_neg Bool.false_ne_true, if_neg (not_or.2 ⟨h3, h0⟩), roleTaken]

theorem only_roleTaken (s : State) (w r : Nat) :
    Only [] [F.ANG_RTM_ROLE_ROLE, F.ANG_RTM_ROLE_RCLK_LANE, F.ANG_STATUS_RT_STATE, F.CLK_STATUS_REF_STABLE] s (roleTaken s w r) :=
  ((((Only.refl _ _ s).setFld (by decide) _).setFld (by decide) _).setFld (by decide) _).setFld (by decide) _

section
variable (s : State) (w r : Nat)

theorem role_roleTaken : fld (roleTaken s w r) F.ANG_RTM_ROLE_ROLE = r % 4 :=
  (fld_setFld_ne _ (by decide) _).trans (fld_setFld_same ..)

theorem lane_roleTaken : fld (roleTaken s w r) F.ANG_RTM_ROLE_RCLK_LANE = bits w 4 3 := by
  rw [roleTaken, showRef, fld_setFld_ne _ (by decide), fld_setFld_ne _ (by decide), setRt, fld_setFld_ne _ (by decide), fld_setFld_same]
  exact Nat.mod_eq_of_lt (bits_lt ..)

theorem refStable_roleTaken :
    flag (roleTaken s w r) F.CLK_STATUS_REF_STABLE = decide ((if r % 4 = 2 then s.clk.rclk else s.clk.xo) = 4) := by
  rw [flag, roleTaken, showRef, fld_setFld_same, fld_setFld_same]
  change (b2n ((if r % 4 = 2 then s.clk.rclk else s.clk.xo) == 4) % 2 ^ 1 != 0) = _
  by_cases h : (if r % 4 = 2 then s.clk.rclk else s.clk.xo) = 4 <;> simp [h, b2n]

/-- A master starts ring time at ANG_RT_SET. -/
theorem startRole_master (s : State) : startRole s 1 = setFld (setRt (setFld (setFld s F.ANG_STATUS_HOPS 0) F.ANG_RT_TIME
    (fld s F.ANG_RT_SET_START)) rFREE) F.ANG_STATUS_RT_VALID 1 := rfl

theorem only_startRole_master (s : State) :
    Only [] [F.ANG_STATUS_HOPS, F.ANG_RT_TIME, F.ANG_STATUS_RT_STATE, F.ANG_STATUS_RT_VALID] s (startRole s 1) :=
  ((((Only.refl [] _ _).setFld (by decide) _).setFld (by decide) _).setFld (by decide) _).setFld (by decide) _

theorem startRole_master_reads (s : State) : rtState (startRole s 1) = rFREE ∧ rtValid (startRole s 1) = true
    ∧ now (startRole s 1) = fld s F.ANG_RT_SET_START % 2 ^ 64 ∧ fld (startRole s 1) F.ANG_STATUS_HOPS = 0 := by
  rw [startRole_master, rtValid, flag, rtState, now]
  refine ⟨?_, ?_, ?_, ?_⟩
  · rw [fld_setFld_ne _ (by decide), setRt, fld_setFld_same]
    rfl
  · rw [fld_setFld_same]
    rfl
  · rw [fld_setFld_ne _ (by decide), setRt, fld_setFld_ne _ (by decide), fld_setFld_same]
    rfl
  · rw [fld_setFld_ne _ (by decide), setRt, fld_setFld_ne _ (by decide), fld_setFld_ne _ (by decide), fld_setFld_same]
    rfl

end

end Sys2Proof.Machine
end

section
open Sys2Proof Sys2Proof.Machine

/-- Settles O10: each command is the operation of its rule, whose registers and flits the lemmas above read. -/
theorem ringTimeStartsTimesOutAndSends : Obligations.RingTimeStartsTimesOutAndSends := by
  refine ⟨?master, ?follower, ?same, ?locked, ?rclk, ?rclkNot, ?sync, ?syncNot, ?expire, ?expireNot, ?capture, ?captureBusy,
    ?exchange, ?silent, ?trunk, ?ring, ?beacon, ?noBeacon⟩
  case master =>
    intro w s hq hlock hr hrole hv
    have htaken := only_roleTaken s w.toNat 1
    have hstart := only_startRole_master (roleTaken s w.toNat 1)
    obtain ⟨hst, hvalid, hnow, hhops⟩ := startRole_master_reads (roleTaken s w.toNat 1)
    have honly : Only [] [F.ANG_RTM_ROLE_ROLE, F.ANG_RTM_ROLE_RCLK_LANE, F.ANG_STATUS_RT_STATE, F.ANG_STATUS_RT_VALID, F.ANG_RT_TIME,
        F.ANG_STATUS_HOPS, F.CLK_STATUS_REF_STABLE] s (startRole (roleTaken s w.toNat 1) 1) :=
      (htaken.mono (List.Subset.refl _) (by simp)).trans (hstart.mono (List.Subset.refl _) (by simp))
    refine completes_eq_quiet rfl (roleWrite_takes hlock hr (by decide) hrole (by decide) hv)      ((honly.1 .evq (by decide)).trans hq) ⟨?_, ?_, hst, hvalid, ?_, hhops, ?_, honly⟩
    · exact (hstart.2 F.ANG_RTM_ROLE_ROLE (by decide)).trans (role_roleTaken ..)
    · exact (hstart.2 F.ANG_RTM_ROLE_RCLK_LANE (by decide)).trans (lane_roleTaken ..)
    · rw [hnow, htaken.2 F.ANG_RT_SET_START (by decide)]
    · exact (congrArg (· != 0) (hstart.2 F.CLK_STATUS_REF_STABLE (by decide))).trans (refStable_roleTaken ..)
  case follower =>
    intro w s hq hlock hr hrole hv
    have htaken := only_roleTaken s w.toNat 2
    have hstart : startRole (roleTaken s w.toNat 2) 2 = setRt (roleTaken s w.toNat 2) rACQ_FREQ := rfl
    have honly := htaken.setFld (f := F.ANG_STATUS_RT_STATE) (by decide) rACQ_FREQ
    refine completes_eq_quiet rfl ((roleWrite_takes hlock hr (by decide) hrole (by decide) hv).trans hstart)
      ((honly.1 .evq (by decide)).trans hq) ⟨?_, rtState_setRt_freq _, ?_, ?_, ?_, honly⟩
    · exact (fld_setFld_ne _ (by decide) _).trans (role_roleTaken ..)
    · exact ((rtValid_setRt ..).trans (congrArg (· != 0) (htaken.2 F.ANG_STATUS_RT_VALID (by decide)))).trans hv
    · exact (now_setRt ..).trans (htaken.2 F.ANG_RT_TIME (by decide))
    · exact (congrArg (· != 0) (fld_setFld_ne _ (by decide) _)).trans (refStable_roleTaken ..)
  case same =>
    intro w s hq hlock hr
    have hw : roleWrite s w.toNat = setFld s F.ANG_RTM_ROLE_RCLK_LANE (bits w.toNat 4 3) := by
      rw [roleWrite, hlock, if_neg Bool.false_ne_true]
      exact if_pos hr
    exact completes_eq_quiet rfl hw hq ⟨(fld_setFld_same ..).trans (Nat.mod_eq_of_lt (bits_lt ..)),
      (Only.refl [] [F.ANG_RTM_ROLE_RCLK_LANE] s).setFld (by decide) _⟩
  case locked =>
    intro w s hq hlock
    exact completes_eq_quiet rfl (by rw [roleWrite, if_pos hlock]) hq rfl
  case rclk =>
    intro s hq hst hl
    exact completes_eq_quiet rfl (if_pos ⟨hst, hl⟩) hq ⟨fld_setFld_same .., fld_setFld_ne _ (by decide) _, rfl,
      ((Only.refl [.rt] [F.ANG_STATUS_RT_STATE] s).withRt (by decide) _).setFld (by decide) _⟩
  case rclkNot =>
    intro s hq hne
    exact completes_eq_quiet rfl (if_neg fun h => hne.elim (· h.1) (· h.2)) hq rfl
  case sync =>
    intro s hq hst hxo
    have hw : enterHoldover s = setRt (raise { s with rt := { s.rt with bad := 0 } } 0x0A11 []) rHOLDOVER := by
      rw [enterHoldover, hxo, if_neg Bool.false_ne_true]
    refine completes_eq rfl ((if_pos hst).trans hw) (congrArg (· ++ [ev 0x0A11 []]) hq) ⟨by simp, ?_, ?_, ?_⟩
    · rw [rtValid_hush, rtValid_setRt]
      rfl
    · rw [now_hush, now_setRt]
      rfl
    · exact ((((Only.refl [.evq, .rt] [F.ANG_STATUS_RT_STATE] s).withRt (by decide) _).raise (by decide) _ _).setFld (by decide) _).hush hq
  case syncNot =>
    intro s hq hne
    exact completes_eq_quiet rfl (if_neg hne) hq rfl
  case expire =>
    intro s hq hst
    have hw : (if rtState s = rHOLDOVER then setRt (loseRt s) rACQ_FREQ else s) = setRt (loseRt s) rACQ_FREQ := if_pos hst
    exact runs_of (w := setRt (loseRt s) rACQ_FREQ) (congrArg done hw) (by simp [rtValid_loseRt, now_loseRt, bstopState_loseRt])
  case expireNot =>
    intro s hq hne
    exact completes_eq_quiet rfl (if_neg hne) hq rfl
  case capture =>
    intro s hq hptm
    by_cases hc : flag s F.ANG_PTM_CTRL_CAPTURE = true
    · exact completes_eq_quiet rfl (by rw [ptmCapture, hc, Bool.true_or, if_pos rfl]) hq ⟨hc, Only.refl [] _ s⟩
    · refine completes_eq_quiet rfl (if_neg (by simp [hc, hptm])) hq ⟨?_, (Only.refl [] _ s).setFld (by decide) _⟩
      rw [flag, fld_setFld_same]
      rfl
  case captureBusy =>
    intro s hq hc
    exact completes_eq_quiet rfl (by rw [ptmCapture, hc, Bool.true_or, if_pos rfl]) hq rfl
  case exchange =>
    intro t s hq hc
    refine completes_eq_quiet rfl (if_pos hc) hq ⟨?_, ?_, ?_, ?_, ?_⟩
    · rw [fld_setFld_ne _ (by decide), fld_setFld_ne _ (by decide), fld_setFld_ne _ (by decide), fld_setFld_same]
      exact Nat.mod_eq_of_lt t.isLt
    · rw [fld_setFld_ne _ (by decide), fld_setFld_ne _ (by decide), fld_setFld_same]
      rfl
    · rw [flag, fld_setFld_ne _ (by decide), fld_setFld_same]
      rfl
    · rw [flag, fld_setFld_same]
      rfl
    · exact ((((Only.refl [] _ s).setFld (by decide) _).setFld (by decide) _).setFld (by decide) _).setFld (by decide) _
  case silent =>
    intro s hq hv hrole
    have hp : ∀ q, rtPort s q = false := fun q => by simp [rtPort, masterPort, hv, hrole]
    have hr : ∀ q, (liveRing s q && rtValid s) = false := fun q => by simp [hv]
    refine completes_eq_quiet (w' := s) rfl ?_ hq rfl
    rw [sendWhere_none fun q _ => hp q, sendWhere_none fun q _ => hr q]
  case trunk =>
    intro p s hq hv hup hothers hplain
    refine completes_sends rfl ?_ hq
    rw [sendWhere_one hplain p.isLt (by simp [rtPort, hup, hv]) (fun q hlt hne => by simp [rtPort, (hothers q hlt hne).1])
      fun _ _ => rfl]
    refine sendWhere_none (fun q hlt => ?_) ..
    have hl : liveRing s q = false := by
      by_cases hqp : q = p.val
      · exact hqp ▸ upTrunk_not_liveRing hup
      · exact (hothers q hlt hqp).2
    exact congrArg (· && rtValid s) hl
  case ring =>
    intro p s hq hv hlive hothers hplain
    have hno : ∀ q, q < 4 → rtPort s q = false := by
      intro q hlt
      have hu : upTrunk s q = false := by
        by_cases hqp : q = p.val
        · exact hqp ▸ liveRing_not_upTrunk hlive
        · exact (hothers q hlt hqp).1
      simp [rtPort, hu]
    refine completes_sends rfl ?_ hq
    rw [sendWhere_none hno, sendWhere_one hplain p.isLt (by simp [hlive, hv]) (fun q hlt hne => by simp [(hothers q hlt hne).2])
      fun _ _ => rfl]
  case beacon =>
    intro p n s hq hax hup hothers hplain
    have hone : allAxes.filter (fun m => bitOf (fld s F.WNG_BEACON_EN_AXES) m) = [n.val] :=
      filter_eq_singleton n.isLt (by rw [hax, bitOf_eq_testBit, Nat.testBit_two_pow_self]) fun r _ hne => by
        rw [hax, bitOf_eq_testBit, Nat.testBit_two_pow_of_ne (Ne.symm hne)]
    refine completes_sends rfl ?_ hq
    rw [hone]
    exact sendWhere_one hplain p.isLt hup hothers (fun _ _ => rfl) ..
  case noBeacon =>
    intro s hq hax
    have hnone : allAxes.filter (fun m => bitOf (fld s F.WNG_BEACON_EN_AXES) m) = [] :=
      List.filter_eq_nil_iff.2 fun m _ => by simp [hax, bitOf_eq_testBit]
    refine completes_eq_quiet (w' := s) rfl ?_ hq rfl
    rw [hnone]
    rfl

end

section
/-! SUPPORT. Bytes of a storage line after a write of some of them (R266, R280). -/
namespace Sys2Proof.Machine

section
variable (s : State) (l : Nat)

theorem cell_setCell (l' o : Nat) (v : Byte) {o' : Nat} (h : o < 64) (h' : o' < 64) :
    cell (setCell s l o v) l' o' = if l' = l ∧ o' = o then v else cell s l' o' := by
  split
  · next he => exact he.1 ▸ he.2 ▸ cell_setCell_same ..
  · next hne => exact cell_setCell_ne s (fun he => hne (by omega)) v

/-- A byte that a write covers, where its mask has a 1, takes the value's byte; every other byte stays. -/
theorem cell_setLineBytes (j o n mask v : Nat) {p : Nat} (hp : p < 64) (hn : o + n ≤ 64) :
    cell (setLineBytes s l o n mask v) j p
      = if j = l ∧ o ≤ p ∧ p < o + n ∧ mask.testBit (p - o) then BitVec.ofNat 8 (v / 256 ^ (p - o)) else cell s j p := by
  induction n generalizing s o mask v with
  | zero =>
    rw [if_neg (by omega)]
    rfl
  | succ n ih =>
    have hfirst : cell (if mask % 2 = 1 then setCell s l o (BitVec.ofNat 8 v) else s) j p
        = if mask % 2 = 1 ∧ j = l ∧ p = o then BitVec.ofNat 8 v else cell s j p := by
      by_cases hm : mask % 2 = 1
      · simp only [hm, if_true, true_and, cell_setCell s l j o _ (by omega) hp]
      · simp only [hm, false_and, if_false]
    rw [setLineBytes, ih _ _ _ _ (by omega), hfirst]
    rcases Nat.lt_trichotomy p o with hlt | rfl | hgt
    · rw [if_neg (by omega), if_neg (by omega), if_neg (by omega)]
    · have hz : mask.testBit 0 = decide (mask % 2 = 1) := Nat.testBit_zero mask
      rw [if_neg (by omega), Nat.sub_self, hz]
      by_cases hm : mask % 2 = 1 <;> by_cases hj : j = l <;> simp [hm, hj]
    · obtain ⟨k, rfl⟩ := Nat.exists_eq_add_of_lt hgt
      have hk : o + k + 1 - (o + 1) = k := by omega
      have hk' : o + k + 1 - o = k + 1 := by omega
      have hne : ¬(mask % 2 = 1 ∧ j = l ∧ o + k + 1 = o) := by omega
      rw [hk, hk', Nat.testBit_succ, Nat.pow_succ', Nat.div_div_eq_div_mul, if_neg hne]
      refine if_congr ?_ rfl rfl
      constructor <;> rintro ⟨a, b, c, d⟩ <;> exact ⟨a, by omega, by omega, d⟩

/-- The bytes of a line depend on its cells alone. -/
theorem lineBytes_congr {s t : State} {l j : Nat} {o n : Nat} (h : ∀ p, o ≤ p → p < o + n → cell t j p = cell s l p) :
    lineBytes t j o n = lineBytes s l o n := by
  induction n generalizing o with
  | zero => rfl
  | succ n ih => rw [lineBytes, lineBytes, h o (by omega) (by omega), ih fun p h1 h2 => h p (by omega) (by omega)]

/-- Bytes that are those of a value. -/
theorem lineBytes_eq {s : State} {l : Nat} (o n v : Nat) (h : ∀ i, i < n → cell s l (o + i) = BitVec.ofNat 8 (v / 256 ^ i)) :
    lineBytes s l o n = v % 256 ^ n := by
  induction n generalizing o v with
  | zero => simp [lineBytes, Nat.mod_one]
  | succ n ih =>
    have h0 : cell s l o = BitVec.ofNat 8 v := by simpa using h 0 (by omega)
    have ht := ih (o + 1) (v / 256) fun i hi => by
      rw [Nat.div_div_eq_div_mul, ← Nat.pow_succ', ← h (i + 1) (by omega), Nat.add_right_comm, Nat.add_assoc]
    rw [lineBytes, h0, ht, BitVec.toNat_ofNat, pow_succ' 256 n, Nat.mod_mul, Nat.mul_comm]

/-- What a write with every mask bit set leaves to be read. -/
theorem lineBytes_setLineBytes (o n v : Nat) (hn : o + n ≤ 64) :
    lineBytes (setLineBytes s l o n (2 ^ n - 1) v) l o n = v % 256 ^ n :=
  lineBytes_eq o n v fun i hi => by
    rw [cell_setLineBytes s l l o n _ v (by omega) hn, Nat.add_sub_cancel_left,
      if_pos ⟨rfl, by omega, by omega, by rw [Nat.testBit_two_pow_sub_one]; exact decide_eq_true hi⟩]

/-- A write of bytes changes nothing of the memory but its bytes. -/
theorem mem_setLineBytes (o n mask v : Nat) :
    (setLineBytes s l o n mask v).mem = { s.mem with cells := (setLineBytes s l o n mask v).mem.cells } := by
  induction n generalizing s o mask v with
  | zero => rfl
  | succ n ih =>
    rw [setLineBytes, ih]
    split <;> rfl

end

end Sys2Proof.Machine
end

section
/-! SUPPORT. Decided insertions and the slot that a stored entry takes (R51, R57 to R61). -/
namespace Sys2Proof.Machine

/-! ### Frames of any part -/

section
variable {ps qs : List Part} {fs : List Fld} {o s t : State}

/-- A change beside the registers. -/
theorem Only.parts (h : Only ps fs o s) (hq : qs ⊆ ps) (k : OnlyParts qs s t) (hr : t.regs = s.regs) : Only ps fs o t :=
  h.trans ⟨k.mono fun _ hm => List.mem_cons_of_mem _ (hq hm), fun f _ => congrArg (fun r => smGet r f.key f.reset % 2 ^ f.width) hr⟩

theorem Only.raiseMerged (h : Only ps fs o s) (hp : .evq ∈ ps) (code scope : Nat) (items : List (Nat × Nat)) :
    Only ps fs o (raiseMerged s code scope items) :=
  h.parts (qs := [.evq]) (by simpa using hp) (fun q hq => by cases q <;> simp [samePart, Machine.raiseMerged] at hq ⊢) rfl

theorem Only.setTt (h : Only ps fs o s) (hp : .tt ∈ ps) (x : Timetable) : Only ps fs o (setTt s x) :=
  h.parts (qs := [.tt]) (by simpa using hp) (fun q hq => by cases q <;> simp [samePart, Machine.setTt] at hq ⊢) rfl

end

/-! ### The free slot -/

/-- A search from `k` finds a free slot, or every slot it tries on the way round is busy. -/
theorem nextSlot_or (busy : List Nat) (size n k : Nat) (hk : k < size) :
    nextSlot busy size n k ∉ busy ∨ ∀ i, i ≤ n → (k + i) % size ∈ busy := by
  induction n generalizing k with
  | zero =>
    refine or_iff_not_imp_left.2 fun hm i hi => ?_
    rw [Nat.le_zero.1 hi, Nat.add_zero, Nat.mod_eq_of_lt hk]
    exact not_not.1 hm
  | succ n ih =>
    rw [nextSlot]
    split
    · next hb =>
      refine (ih ((k + 1) % size) (Nat.mod_lt _ (by omega))).imp_right fun h i hi => ?_
      cases i with
      | zero => simpa [Nat.mod_eq_of_lt hk] using hb
      | succ i =>
        have hi' := h i (by omega)
        rwa [Nat.mod_add_mod, Nat.add_right_comm, Nat.add_assoc] at hi'
    · next hb => exact .inl (by simpa using hb)

/-- Fewer busy slots than slots, and one try more than busy slots: a free one is found. -/
theorem nextSlot_free (busy : List Nat) (size k : Nat) (hk : k < size) (hlt : busy.length < size) :
    nextSlot busy size busy.length k ∉ busy := by
  refine (nextSlot_or busy size busy.length k hk).resolve_right fun h => ?_
  have hinj : Set.InjOn (fun i => (k + i) % size) (Finset.range (busy.length + 1)) := by
    intro i hi j hj he
    simp only [Finset.coe_range, Set.mem_Iio] at hi hj
    exact (Nat.ModEq.add_left_cancel' k he).eq_of_lt_of_lt (by omega) (by omega)
  have hcard := Finset.card_le_card_of_injOn (t := busy.toFinset) _
    (fun i hi => List.mem_toFinset.2 (h i (Nat.lt_succ_iff.1 (Finset.mem_range.1 hi)))) hinj
  rw [Finset.card_range] at hcard
  have := busy.toFinset_card_le
  omega

theorem usedSlots_length (s : State) : (usedSlots s).length = usedCount s := by
  simp [usedSlots, usedCount, List.length_flatMap]

theorem freeSlot_free {s : State} (h : ttFull s = false) : freeSlot s ∉ usedSlots s := by
  have hlt : (usedSlots s ++ s.tt.retired).length < ttSlots s := by
    rw [List.length_append, usedSlots_length]
    simpa [ttFull] using h
  exact fun hm => nextSlot_free _ _ (freeOf s % ttSlots s) (Nat.mod_lt _ (by omega)) hlt (List.mem_append_left _ hm)

/-! ### An entry in its slot -/

/-- The state that a stored entry's bytes are written in. -/
def entryListed (s : State) (e r : Nat) : State :=
  setTt (drawn s) { s.tt with
    buckets := smSet s.tt.buckets (bucketKey (eAxis e) r (eBucket e)) (bucketAt s (bucketKey (eAxis e) r (eBucket e)) ++
      [⟨e, freeSlot s, s.tt.ord, 0⟩]) []
    ord := s.tt.ord + 1 }

theorem storeEntry_eq (s : State) (e r : Nat) : storeEntry s e r = countUsed (setLineBytes (entryListed s e r)
    (storLine s (newSlotAt s)) (newSlotAt s % 64) 16 (2 ^ 16 - 1) e) := rfl

theorem only_storeEntry (s : State) (e r : Nat) : Only [.tt, .free, .mem] [F.TT_USED_USED, F.TT_PEAK_PEAK] s (storeEntry s e r) := by
  have h : Only [.tt, .free, .mem] [F.TT_USED_USED, F.TT_PEAK_PEAK] s (entryListed s e r) :=
    (Only.refl _ _ s).parts (List.Subset.refl _) (fun q hq => by cases q <;> simp [samePart, entryListed, setTt, drawn] at hq ⊢) rfl
  rw [storeEntry_eq]
  exact ((h.setLineBytes (by decide) ..).setFld (by decide) _).peak (by decide) _

/-- The slots lie within their lines. -/
theorem newSlotAt_mod (s : State) : newSlotAt s % 64 + 16 ≤ 64 := by
  have h : ttBase s % 64 = 0 := by
    unfold ttBase
    split <;> rfl
  unfold newSlotAt
  omega

theorem mem_countUsed (s : State) : (countUsed s).mem = s.mem := by
  unfold countUsed peak
  split <;> rfl

theorem cell_countUsed (s : State) (j o : Nat) : cell (countUsed s) j o = cell s j o := by
  simp only [cell, mem_countUsed]

theorem tt_countUsed (s : State) : (countUsed s).tt = s.tt := by
  unfold countUsed peak
  split <;> rfl

theorem tt_setLineBytes (s : State) (l o n mask v : Nat) : (setLineBytes s l o n mask v).tt = s.tt :=
  ((Only.refl [.mem] [] s).setLineBytes (by decide) l o n mask v).1 .tt (by decide)

section
variable (s : State) (e r : Nat)

theorem lineBytes_storeEntry : lineBytes (storeEntry s e r) (storLine s (newSlotAt s)) (newSlotAt s % 64) 16 = e % 2 ^ 128 := by
  rw [storeEntry_eq, lineBytes_congr fun p _ _ => cell_countUsed ..]
  exact lineBytes_setLineBytes (entryListed s e r) _ _ _ _ (newSlotAt_mod s)

theorem cell_storeEntry {j o : Nat} (ho : o < 64)
    (h : j ≠ storLine s (newSlotAt s) ∨ o < newSlotAt s % 64 ∨ newSlotAt s % 64 + 16 ≤ o) : cell (storeEntry s e r) j o = cell s j o := by
  rw [storeEntry_eq, cell_countUsed]
  exact (cell_setLineBytes _ _ _ _ _ _ _ ho (newSlotAt_mod s)).trans (if_neg fun ⟨a, b, c, _⟩ => by omega)

theorem mem_storeEntry : (storeEntry s e r).mem = { s.mem with cells := (storeEntry s e r).mem.cells } := by
  rw [storeEntry_eq, mem_countUsed]
  exact mem_setLineBytes ..

theorem tt_storeEntry : (storeEntry s e r).tt = (entryListed s e r).tt := by
  rw [storeEntry_eq, tt_countUsed, tt_setLineBytes]

end

/-! ### A decided insertion of the host -/

section
variable {s : State} {i : Ins}

/-- The host's insertion in the state that has served it: counted, its record waiting. -/
def hostDecided (t : State) (i : Ins) (st detail : Nat) : State :=
  hostCounts (setTt (countIns t st) { t.tt with done := t.tt.done ++ [⟨.host, insRecord i.tag st detail i.entry⟩] })

theorem exec_acceptance (hsys : sysClocks s = true) (hn : nextAccepted s = some i) (hsrc : i.src = .host) {st detail : Nat}
    {t : State} (hd : decideIns (servedIns s i) i.entry 2 true = (st, detail, t)) :
    exec (.insertAcceptance true) s = done (hostDecided t i st detail) := by
  have htt : (countIns t st).tt = t.tt := by
    unfold countIns
    split <;> rfl
  have hw : clocked s (insertAcceptance s true) = hostDecided t i st detail := by
    rw [clocked, if_pos hsys, insertAcceptance, hn]
    simp only [hsrc, acceptIns, srcClass, hd, decided, srcCounts, hostDecided, htt]
  exact congrArg done hw

section
variable {t : State} {e : Nat} {stored : Bool} (hshut : blkShut t 8 = false) (hon : ttOn t = true)
  (hready : flag t F.TT_STATUS_READY = true) (hen : bitOf (fld t F.TT_CTRL_SRC_EN) 2 = true)

include hshut hon hready hen

theorem decideIns_decode {k : Nat} (hc : insCheck e = some k) : decideIns t e 2 stored = (ST.decode, k, t) := by
  simp [decideIns, hshut, hon, hready, hen, hc]

/-- An entry that passes the checks is late, or finds room, or does not. -/
theorem decideIns_checked (hc : insCheck e = none) : decideIns t e 2 stored =
    if insLate t e then decideLate t e 2 stored
    else if ttFull t then (ST.full, 1, t)
    else if (bucketAt t (bucketKey (eAxis e) ((frontRev t (eAxis e) + revAhead t e) % 2 ^ 24) (eBucket e))).length = 1024 then
      (ST.full, 0, t)
    else tryStore t e ((frontRev t (eAxis e) + revAhead t e) % 2 ^ 24) stored ST.ok 0 := by
  simp [decideIns, hshut, hon, hready, hen, hc]

end

theorem mem_hostDecided (t : State) (i : Ins) (st detail : Nat) : (hostDecided t i st detail).mem = t.mem := by
  change (countIns t st).mem = t.mem
  unfold countIns
  split <;> rfl

theorem cell_hostDecided (t : State) (i : Ins) (st detail j o : Nat) : cell (hostDecided t i st detail) j o = cell t j o := by
  simp only [cell, mem_hostDecided]

theorem newSlotAt_servedIns (s : State) (i : Ins) : newSlotAt (servedIns s i) = newSlotAt s := rfl

theorem storLine_servedIns (s : State) (i : Ins) (x : Nat) : storLine (servedIns s i) x = storLine s x := rfl

theorem only_servedIns (s : State) (i : Ins) : Only [.tt] [] s (servedIns s i) := (Only.refl _ _ s).setTt (by decide) _

theorem Only.hostCounts {ps : List Part} {fs : List Fld} {o s : State} (h : Only ps fs o s)
    (hf : [F.TT_HCQ_STATUS_CREDITS, F.TT_HCQ_STATUS_COUNT] ⊆ fs) : Only ps fs o (hostCounts s) :=
  (h.setFld (hf (by simp)) _).setFld (hf (by simp)) _

/-- What a status that raises nothing leaves. -/
theorem hostDecided_spec {o t : State} {ps : List Part} {fs : List Fld} (h : Only ps fs o t) (htt : .tt ∈ ps) {st : Nat}
    (hst : st ≠ ST.full) (hf : [insCounter st, F.TT_HCQ_STATUS_CREDITS, F.TT_HCQ_STATUS_COUNT] ⊆ fs) (i : Ins) (detail : Nat) :
    (hostDecided t i st detail).tt.done = t.tt.done ++ [⟨.host, insRecord i.tag st detail i.entry⟩]
    ∧ (hostDecided t i st detail).tt.inflight = t.tt.inflight ∧ (hostDecided t i st detail).tt.buckets = t.tt.buckets
    ∧ Only ps fs o (hostDecided t i st detail) := by
  have hc : countIns t st = satInc t (insCounter st) := by rw [countIns, if_neg hst]
  refine ⟨rfl, rfl, rfl, ?_⟩
  rw [hostDecided, hc]
  exact ((h.satInc (hf (by simp))).setTt htt _).hostCounts fun f hm => hf (List.mem_cons_of_mem _ hm)

theorem fld_hostDecided_ok (t : State) (i : Ins) (detail : Nat) :
    fld (hostDecided t i ST.ok detail) F.TT_CNT_OK_COUNT = min (fld t F.TT_CNT_OK_COUNT + 1) (2 ^ 32 - 1) :=
  (fld_setFld_ne _ (by decide) _).trans ((fld_setFld_ne _ (by decide) _).trans (fld_satInc_same t F.TT_CNT_OK_COUNT))

end

end Sys2Proof.Machine
end

section
open Sys2Proof Sys2Proof.Machine

/-- Settles O11: each decision by the checks that come before it, the stored entry by what a write of its slot's bytes leaves. -/
theorem insertionsAreDecided : Obligations.InsertionsAreDecided := by
  refine ⟨?fabric, ?fabricHeld, ?go, ?goDropped, ?off, ?srcOff, ?decode, ?late, ?full, ?stored, ?none⟩
  case fabric =>
    intro k tag e s hq hc hh
    refine completes_eq_quiet rfl (if_pos (by simp [hc, hh])) hq ⟨rfl, ?_⟩
    exact (((Only.refl [.tt] _ s).setTt (by decide) _).setFld (by simp) _).setFld (by simp) _
  case fabricHeld =>
    intro k tag e s hq h
    exact completes_eq_quiet rfl (if_neg (by rcases h with h | h <;> simp [h])) hq rfl
  case go =>
    intro w s hq hc
    exact completes_eq_quiet rfl (if_neg hc) hq ⟨rfl, ((Only.refl [.tt] _ s).setTt (by decide) _).hostCounts (List.Subset.refl _)⟩
  case goDropped =>
    intro w s hq hc
    exact completes_eq_quiet rfl (if_pos hc) hq ⟨fld_satInc_same .., (Only.refl [] _ s).satInc (by decide)⟩
  case off =>
    intro i s hq hsys hn hsrc hshut hoff
    have hd : decideIns (servedIns s i) i.entry 2 true = (ST.disabled, 0, servedIns s i) := by
      have h1 : blkShut (servedIns s i) 8 = false := hshut
      have h2 : ttOn (servedIns s i) = false := hoff
      simp [decideIns, h1, h2]
    obtain ⟨hdone, hinflight, hbuckets, honly⟩ := hostDecided_spec ((only_servedIns s i).mono (List.Subset.refl _) (by simp)) (by decide)
      (st := ST.disabled) (by decide) (List.Subset.refl _) i 0
    exact completes_eq_quiet (exec_acceptance hsys hn hsrc hd) rfl ((honly.1 .evq (by decide)).trans hq)
      ⟨hdone, hinflight, hbuckets, honly⟩
  case srcOff =>
    intro i s hq hsys hn hsrc hshut hon hready hen
    have hd : decideIns (servedIns s i) i.entry 2 true = (ST.disabled, 1, servedIns s i) := by
      have h1 : blkShut (servedIns s i) 8 = false := hshut
      have h2 : ttOn (servedIns s i) = true := hon
      have h3 : flag (servedIns s i) F.TT_STATUS_READY = true := hready
      have h4 : bitOf (fld (servedIns s i) F.TT_CTRL_SRC_EN) 2 = false := hen
      simp [decideIns, h1, h2, h3, h4]
    obtain ⟨hdone, hinflight, hbuckets, honly⟩ := hostDecided_spec ((only_servedIns s i).mono (List.Subset.refl _) (by simp)) (by decide)
      (st := ST.disabled) (by decide) (List.Subset.refl _) i 1
    exact completes_eq_quiet (exec_acceptance hsys hn hsrc hd) rfl ((honly.1 .evq (by decide)).trans hq)
      ⟨hdone, hbuckets, honly⟩
  case decode =>
    intro i k s hq hsys hn hsrc hshut hon hready hen hc
    have hd : decideIns (servedIns s i) i.entry 2 true = (ST.decode, k, servedIns s i) := decideIns_decode (t := servedIns s i) hshut hon hready hen hc
    obtain ⟨hdone, hinflight, hbuckets, honly⟩ := hostDecided_spec ((only_servedIns s i).mono (List.Subset.refl _) (by simp)) (by decide)
      (st := ST.decode) (by decide) (List.Subset.refl _) i k
    exact completes_eq_quiet (exec_acceptance hsys hn hsrc hd) rfl ((honly.1 .evq (by decide)).trans hq) ⟨hdone, hbuckets, honly⟩
  case late =>
    intro i s hq hsys hn hsrc hshut hon hready hen hc hlate hreject
    have hlate' : insLate (servedIns s i) i.entry = true := hlate
    have hd : decideIns (servedIns s i) i.entry 2 true = (ST.late, 0, servedIns s i) := by
      rw [decideIns_checked (t := servedIns s i) hshut hon hready hen hc, if_pos hlate', decideLate, hreject]
      rfl
    obtain ⟨hdone, hinflight, hbuckets, honly⟩ := hostDecided_spec ((only_servedIns s i).mono (List.Subset.refl _) (by simp)) (by decide)
      (st := ST.late) (by decide) (List.Subset.refl _) i 0
    exact completes_eq_quiet (exec_acceptance hsys hn hsrc hd) rfl ((honly.1 .evq (by decide)).trans hq) ⟨hdone, hbuckets, honly⟩
  case full =>
    intro i s hq hsys hn hsrc hshut hon hready hen hc hlate hfull
    have hlate' : ¬insLate (servedIns s i) i.entry = true := Bool.eq_false_iff.1 hlate
    have hfull' : ttFull (servedIns s i) = true := hfull
    have hd : decideIns (servedIns s i) i.entry 2 true = (ST.full, 1, servedIns s i) := by
      rw [decideIns_checked (t := servedIns s i) hshut hon hready hen hc, if_neg hlate', if_pos hfull']
    refine completes_eq (exec_acceptance hsys hn hsrc hd) rfl (congrArg (· ++ [evMerged 0x0802 0 []]) hq) ⟨rfl, rfl, Only.hush ?_ hq⟩
    have hserved : Only [.evq, .tt] [F.TT_CNT_FULL_COUNT, F.TT_HCQ_STATUS_CREDITS, F.TT_HCQ_STATUS_COUNT] s (servedIns s i) :=
      (only_servedIns s i).mono (by simp) (by simp)
    exact (((hserved.raiseMerged (by decide) _ _ _).satInc (by decide)).setTt (by decide) _).hostCounts (by simp)
  case stored =>
    intro i s hq hsys hn hsrc hshut hon hready hen hc hlate hroom hbucket
    have hlate' : ¬insLate (servedIns s i) i.entry = true := Bool.eq_false_iff.1 hlate
    have hroom' : ¬ttFull (servedIns s i) = true := Bool.eq_false_iff.1 hroom
    have hd : decideIns (servedIns s i) i.entry 2 true = (ST.ok, 0, storeEntry (servedIns s i) i.entry
        ((frontRev s (eAxis i.entry) + revAhead s i.entry) % 2 ^ 24)) := by
      rw [decideIns_checked (t := servedIns s i) hshut hon hready hen hc, if_neg hlate', if_neg hroom']
      exact if_neg hbucket
    have hstore := only_storeEntry (servedIns s i) i.entry ((frontRev s (eAxis i.entry) + revAhead s i.entry) % 2 ^ 24)
    have h : Only [.tt, .free, .mem] [F.TT_CNT_OK_COUNT, F.TT_USED_USED, F.TT_PEAK_PEAK, F.TT_HCQ_STATUS_CREDITS, F.TT_HCQ_STATUS_COUNT] s
        (storeEntry (servedIns s i) i.entry ((frontRev s (eAxis i.entry) + revAhead s i.entry) % 2 ^ 24)) :=
      ((only_servedIns s i).mono (by simp) (by simp)).trans (hstore.mono (List.Subset.refl _) (by simp))
    obtain ⟨hdone, hinflight, hbuckets, honly⟩ := hostDecided_spec h (by decide) (st := ST.ok) (by decide) (by simp [insCounter]) i 0
    have htt := tt_storeEntry (servedIns s i) i.entry ((frontRev s (eAxis i.entry) + revAhead s i.entry) % 2 ^ 24)
    refine completes_eq_quiet (exec_acceptance hsys hn hsrc hd) rfl ((honly.1 .evq (by decide)).trans hq)
      ⟨?_, ?_, ?_, freeSlot_free hroom, ?_, ?_, ?_, honly⟩
    · rw [hdone, htt]
      rfl
    · rw [bucketAt, hbuckets, htt]
      refine (congrArg (List.map _) (smGet_smSet_same ..)).trans (List.map_append ..)
    · have hcnt := hstore.2 F.TT_CNT_OK_COUNT (by decide)
      rw [fld_hostDecided_ok, hcnt]
      rfl
    · rw [lineBytes_congr fun p _ _ => cell_hostDecided .., ← newSlotAt_servedIns s i, ← storLine_servedIns s i]
      exact lineBytes_storeEntry ..
    · intro j o ho hne
      rw [← newSlotAt_servedIns s i, ← storLine_servedIns s i] at hne
      exact (cell_hostDecided ..).trans (cell_storeEntry (servedIns s i) _ _ ho hne)
    · rw [mem_hostDecided]
      exact mem_storeEntry (servedIns s i) _ _
  case none =>
    intro b s hq hl
    have hn : nextAccepted s = none := by simp [nextAccepted, nextClass, hl, sortBy]
    refine completes_eq_quiet (w' := s) rfl ?_ hq rfl
    rw [clocked, insertAcceptance, hn, ite_self]

end

section
/-! SUPPORT. A state against the claim of O12: an engine 96 with a TTI that is held. -/
namespace Sys2Proof.Machine

/-- A record of engine 0 waits, and beside the 96 engines of the device the list of engines holds one numbered 96 with a TTI. -/
def heldTtiBeyondEngines : State :=
  setEngine (setTt State.reset { State.reset.tt with done := [⟨.engine 0, 0⟩] }) 96 { ttis := [⟨0, 0, 0⟩] }

end Sys2Proof.Machine
end

section
open Sys2Proof Sys2Proof.Machine

/-- Refutes O12: a record that is written lets the held TTIs of every engine in the list go on, also those of an engine of which the
claim's condition on engines 0 to 95 says nothing. -/
theorem not_recordsAndTimetableControls : ¬ Obligations.RecordsAndTimetableControls := by
  unfold Obligations.RecordsAndTimetableControls
  intro h
  obtain ⟨-, hengine, -⟩ := h
  obtain ⟨-, -, hparts⟩ := (hengine 0 0 0 heldTtiBeyondEngines (by decide +kernel) (by decide +kernel) (by decide +kernel)
    (by decide +kernel)).of_exec rfl
  have hkept := congrArg (fun l => (smGet l 96 ({} : Engine)).ttis.length) (hparts .engines (by decide))
  exact absurd hkept (by decide +kernel)

end

section
/-! SUPPORT. A state against the claim of O13: the commit that an acknowledgement brings about comes too late to be sent. -/
namespace Sys2Proof.Machine

/-- A staged consist of a group whose only member is at 10^12 ns, its module's own stamp being 0. -/
def lateCommitItem : Item := ⟨0, .consist, 5, 0, ⟨0, 5, 0, 0, 0, 1, 0, 0, 0, [], [], 0⟩, 0⟩
def lateCommitGroup : Grp := ⟨0, 0, 0, .staged, 0, [⟨0, 1, 10 ^ 12⟩], [⟨0, 5, 0, 0, [], false, false, false⟩], 0⟩

/-- Every sequence value, held. -/
def allHeld : List Outst := (List.range 4096).map fun q => ⟨q, 0, 0, 0, 0⟩

/-- Port 0 is UP with every sequence value held by an outstanding consist, so that no item can be sent. -/
def allSeqsHeld : State :=
  setPort (setDsp (resetWith [(F.WNG_Pp_CTRL_ENABLE 0, 1), (F.WNG_Pp_STATUS_STATE 0, pUP)]) { groups := [lateCommitGroup] }) 0
    { journal := [lateCommitItem], outst := allHeld }

/-- The acknowledgement of the consist. -/
def lateAck : Flit := mkFlit FT.ack 0 0 0 1 5

theorem freeSeq_none {x : Port} (h : ∀ v, v < 4096 → seqHeld x v = true) (n q : Nat) : freeSeq x n q = none := by
  induction n generalizing q with
  | zero => rfl
  | succ n ih => rw [freeSeq, if_pos (h _ (Nat.mod_lt _ (by decide))), ih]

/-- A port whose outstanding consists hold every sequence value has no room. -/
theorem hasRoom_of_all_held {s : State} {p : Nat} (h : (port s p).outst = allHeld) (b : Bool) :
    hasRoom s p b = false := by
  have hheld : ∀ v, v < 4096 → seqHeld (port s p) v = true := fun v hv => by
    simp only [seqHeld, h, allHeld, Bool.or_eq_true, List.any_eq_true, List.mem_map, List.mem_range]
    exact .inr ⟨_, ⟨v, hv, rfl⟩, by simp⟩
  simp [hasRoom, freeSeq_none hheld]

theorem queueItem_waits {s : State} {p : Nat} (h : ∀ b, hasRoom s p b = false) (i : Item) :
    queueItem s p i = setPort s p { port s p with waiting := (port s p).waiting ++ [i] } := by
  simp [queueItem, h]

/-- The states in which the acknowledged consist leaves the journal, its group has every acknowledgement, and its COMMIT is due. -/
def consistAcked : State :=
  let s := setPort allSeqsHeld 0 { port allSeqsHeld 0 with replays := 0 }
  setPort s 0 { port s 0 with journal := (port s 0).journal.erase lateCommitItem }

def ackedGroup : Grp := { lateCommitGroup with mods := [⟨0, 5, 0, 0, [], true, false, false⟩] }

section
variable {s : State} {p : Nat}

theorem ackFlit_ring {f : Flit} (hup : upTrunk s p = false) (hlive : liveRing s p = true) (hc : fCidx f.toNat = 0) :
    ackFlit s p 0 f = portDrainCheck (drainPort (ackRecord (setPort s p { port s p with replays := 0 }) p
      (bits (fPayload f.toNat) 0 24)) p) p := by
  simp [ackFlit, ringAck, ackRecords, hup, hlive, hc, forEach]

theorem ackRecord_staged {r : Nat} {i : Item} (ha : bits r 0 8 ≠ 255)
    (hf : (port s p).journal.find? (fun i => i.seq == bits r 8 12 && (i.addr == bits r 0 8 || i.addr == 255)) = some i)
    (hk : i.kind = .consist) (hc : i.cons.kind = 1) :
    ackRecord s p r = ackStaged (setPort s p { port s p with journal := (port s p).journal.erase i }) p i := by
  rw [ackRecord, if_neg fun h => ha h.1, hf]
  simp only [hk, hc, if_true]

theorem drainPort_late {i : Item} (hw : (port s p).waiting = [i]) (hl : itemLate s p i = true) :
    drainPort s p = expireItem (setPort s p { port s p with waiting := [] }) p i := by
  simp [drainPort, hw, drainWaiting, hl]

theorem ackStaged_commits {i : Item} {g g' : Grp} (hf : s.dsp.groups.find? (fun g => isStagedOf g i.cons && g.st == GrpSt.staged) = some g)
    (hg : { g with mods := g.mods.map fun m => if m.port = p ∧ m.seq = i.seq then { m with acked := true } else m } = g')
    (hall : g'.mods.all (·.acked) = true) (hnow : now s < commitPoint s g') : ackStaged s p i = commitGroup (putGroup s g') g' := by
  subst hg
  simp only [ackStaged, hf]
  rw [if_pos (by rw [hall, decide_eq_true hnow]; rfl)]

/-- The state in which the COMMITs of a group are due. -/
def commitsDue (s : State) (g : Grp) : State :=
  putGroup (forEach g.membs (fun s m => recordLast s g m) (outcomes s ST.ok g.membs.length)) { g with st := .committed }

theorem port_recordLast (s : State) (g : Grp) (m : Memb) (p : Nat) : port (recordLast s g m) p = port s p :=
  forEach_keeps (P := fun t => port t p = port s p) (fun _ _ h => by exact h) _ rfl

theorem port_putGroup (s : State) (g : Grp) (p : Nat) : port (putGroup s g) p = port s p := rfl

theorem port_commitsDue (s : State) (g : Grp) (p : Nat) : port (commitsDue s g) p = port s p :=
  forEach_keeps (P := fun t => port t p = port s p) (fun t m h => (port_recordLast t g m p).trans h) _ rfl

theorem commitGroup_one {g : Grp} {m : GMod} (h : g.mods = [m]) : commitGroup s g =
    queueItem (commitsDue s g) m.port ⟨0, .commit, m.addr, m.stamp, noCons, groupPayload g⟩ := by
  simp [commitGroup, sendCommits, commitsDue, h, forEach, minOf, List.eraseDups_cons]

end



theorem consistAcked_commits : ackStaged consistAcked 0 lateCommitItem
    = queueItem (commitsDue (putGroup consistAcked ackedGroup) ackedGroup) 0 ⟨0, .commit, 5, 0, noCons, 0⟩ := by
  have hfind : consistAcked.dsp.groups.find? (fun g => isStagedOf g lateCommitItem.cons && g.st == GrpSt.staged) = some lateCommitGroup := by
    decide +kernel
  have hnow : now consistAcked < commitPoint consistAcked ackedGroup := by decide +kernel
  calc ackStaged consistAcked 0 lateCommitItem
      = commitGroup (putGroup consistAcked ackedGroup) ackedGroup := ackStaged_commits hfind (by decide +kernel) (by decide +kernel) hnow
    _ = _ := commitGroup_one (m := ⟨0, 5, 0, 0, [], true, false, false⟩) (by rw [ackedGroup])

theorem port_setPort_same (s : State) (p : Nat) (x : Port) : port (setPort s p x) p = x := smGet_smSet_same ..

/-- The state in which the COMMIT waits for a sequence value. -/
def commitWaits : State :=
  let s := commitsDue (putGroup consistAcked ackedGroup) ackedGroup
  setPort s 0 { port s 0 with waiting := [⟨0, .commit, 5, 0, noCons, 0⟩] }

theorem consistAcked_waits : ackStaged consistAcked 0 lateCommitItem = commitWaits := by
  have hport : port (commitsDue (putGroup consistAcked ackedGroup) ackedGroup) 0 = port consistAcked 0 := by
    rw [port_commitsDue, port_putGroup]
  have hwait : (port consistAcked 0).waiting = [] := by decide +kernel
  have houtst : (port consistAcked 0).outst = allHeld := by
    rw [consistAcked, port_setPort_same, port_setPort_same, allSeqsHeld, port_setPort_same]
  rw [consistAcked_commits, queueItem_waits fun b => hasRoom_of_all_held (by rw [hport]; exact houtst) b]
  simp only [commitWaits, hport, hwait, List.nil_append]

theorem exec_lateAck : exec (.ack 0 0 lateAck) allSeqsHeld = done (portDrainCheck
    (expireItem (setPort commitWaits 0 { port commitWaits 0 with waiting := [] }) 0 ⟨0, .commit, 5, 0, noCons, 0⟩) 0) := by
  have harr : arrived allSeqsHeld 0 lateAck.toNat FT.ack = true := by decide +kernel
  have hflit : ackFlit allSeqsHeld 0 0 lateAck = portDrainCheck (drainPort commitWaits 0) 0 := by
    rw [ackFlit_ring (by decide +kernel) (by decide +kernel) (by decide +kernel),
      ackRecord_staged (i := lateCommitItem) (by decide +kernel) (by decide +kernel) rfl rfl, ← consistAcked_waits]
    rfl
  have hdrain := drainPort_late (s := commitWaits) (p := 0) (i := ⟨0, .commit, 5, 0, noCons, 0⟩)
    (by rw [commitWaits, port_setPort_same]) (by decide +kernel)
  rw [← hdrain, ← hflit]
  exact congrArg done (if_pos harr)

end Sys2Proof.Machine
end

section
open Sys2Proof Sys2Proof.Machine

/-- Refutes O13: a COMMIT whose module stamp has passed and for which the port has no sequence value left is lost at once, which ends the
group. -/
theorem not_groupsAndRailEight : ¬ Obligations.GroupsAndRailEight := by
  unfold Obligations.GroupsAndRailEight
  intro h
  obtain ⟨-, -, hack, -⟩ := h
  obtain ⟨es, u, ⟨hst, -, -⟩, -, hparts⟩ := (hack 0 lateAck lateCommitItem lateCommitGroup ⟨0, 5, 0, 0, [], false, false, false⟩ allSeqsHeld
    (by decide +kernel) (by decide +kernel) (by decide +kernel) (by decide +kernel) (by decide +kernel) (by decide +kernel)
    (by decide +kernel) (by decide +kernel) (by decide +kernel) (by decide +kernel) (by decide +kernel) (by decide +kernel)
    (by decide +kernel) (by decide +kernel) (by decide +kernel) (by decide +kernel) (by decide +kernel) (by decide +kernel)
    (by decide +kernel) (by decide +kernel) (by decide +kernel)).imp fun es h => h.end_of_exec exec_lateAck
  have hdsp := hparts .dsp (by decide)
  rw [samePart] at hdsp
  rw [findGroup, hdsp] at hst
  exact absurd hst (by decide +kernel)

end

section
/-! SUPPORT. A state against the claim of O14: a target committed by an engine's thread, not yet in use. -/
namespace Sys2Proof.Machine

/-- Ring time runs without being valid, and thread 0 of engine 0 has committed a target that is to be compared from the next slot on. -/
def committedTarget : State :=
  setEngine (resetWith [(F.ANG_STATUS_RT_STATE, rFREE)]) 0 { threads := [(0, { tgt := 1 })] }

end Sys2Proof.Machine
end

section
open Sys2Proof Sys2Proof.Machine

/-- Refutes O14: a slot in which nothing is dispatched still brings the committed targets of the engines into use (R188), so that more
than the axes changes. -/
theorem not_slotsAndBufferStop : ¬ Obligations.SlotsAndBufferStop := by
  unfold Obligations.SlotsAndBufferStop
  intro h
  obtain ⟨-, hslot, -⟩ := h
  obtain ⟨-, -, -, hparts, -⟩ := (hslot committedTarget (by decide +kernel) (by decide +kernel) (by decide +kernel)).of_exec rfl
  have hkept := congrArg (fun l => (smGet (smGet l 0 ({} : Engine)).threads 0 ({} : Thread)).tgtUse) (hparts .engines (by decide))
  exact absurd hkept (by decide +kernel)

end

section
/-! SUPPORT. A state against the claim of O15: an item to be replayed while the device sleeps. -/
namespace Sys2Proof.Machine

/-- A RETIME in the journal, in time for a replay. -/
def journaledRetime : Item := ⟨0, .retime, 1, 1000, noCons, 0⟩

/-- The device is in SLEEP with port 0 still UP and the item in its journal. -/
def asleepWithItem : State :=
  setPort (resetWith [(F.PWR_STATUS_STATE, 2), (F.WNG_Pp_STATUS_STATE 0, pUP)]) 0 { journal := [journaledRetime] }

end Sys2Proof.Machine
end

section
open Sys2Proof Sys2Proof.Machine

/-- Refutes O15: while the system clocks do not run, here in SLEEP, no item times out and nothing is replayed. -/
theorem not_dispatcherDisablesAndReplays : ¬ Obligations.DispatcherDisablesAndReplays := by
  unfold Obligations.DispatcherDisablesAndReplays
  intro h
  obtain ⟨-, -, -, hreplay⟩ := h
  obtain ⟨-, hcount, -⟩ := (hreplay 0 0 journaledRetime asleepWithItem (by decide +kernel) (by decide +kernel) (by decide +kernel)
    (by decide +kernel) (by decide +kernel) (by decide +kernel) (by decide +kernel)
    ⟨by decide +kernel, by decide +kernel⟩).of_exec rfl
  exact absurd hcount (by decide +kernel)

end

section
/-! SUPPORT. A state against the claim of O16: a RETIME that comes after the stamp of the consist it names. -/
namespace Sys2Proof.Machine

/-- Module 1 of port 0 holds a consist at stamp 0. -/
def heldPastStamp : State :=
  setModule State.reset 0 1 { pos := 1, held := [⟨0, 0, 0, 0, 0, 0, 0, 0, []⟩] }

/-- A RETIME of its axis and epoch from T_A = 1,000 ns on. -/
def laterRetime : Flit := mkFlit FT.retime 0 1 0 1 1000

end Sys2Proof.Machine
end

section
open Sys2Proof Sys2Proof.Machine

/-- Refutes O16: a consist that stands before T_A is not moved, and the RETIME that names no other is answered with RESULT 10. -/
theorem not_modulesStoreAndAct : ¬ Obligations.ModulesStoreAndAct := by
  unfold Obligations.ModulesStoreAndAct
  intro h
  obtain ⟨-, -, -, -, -, hretime, -⟩ := h
  obtain ⟨-, -, hwire, -⟩ := (hretime 0 1 laterRetime ⟨0, 0, 0, 0, 0, 0, 0, 0, []⟩ heldPastStamp (by decide +kernel) (by decide +kernel)
    (by decide +kernel) (by decide +kernel)).of_exec rfl
  exact absurd hwire (by decide +kernel)

end

section
/-! SUPPORT. The fields of a flit that is made, and a module that takes one (R99 to R102, R106). -/
namespace Sys2Proof.Machine

/-! ### The fields of a flit -/

section
variable (type seq addr cidx last payload : Nat)

/-- The 224 bits of a flit below its CRC. -/
def flitBody : Nat := type % 32 + (seq % 4096) * 2 ^ 5 + (addr % 256) * 2 ^ 17 + (cidx % 16) * 2 ^ 25 + (last % 2) * 2 ^ 29
  + (payload % 2 ^ 192) * 2 ^ 32

theorem mkFlit_mod : (mkFlit type seq addr cidx last payload).toNat % 2 ^ 224 = flitBody type seq addr cidx last payload := by
  have hlt : flitBody type seq addr cidx last payload < 2 ^ 224 := by
    unfold flitBody
    omega
  change (BitVec.ofNat 256 (flitBody type seq addr cidx last payload + _ * 2 ^ 224)).toNat % 2 ^ 224 = _
  rw [BitVec.toNat_ofNat, Nat.mod_mod_of_dvd _ (pow_dvd_pow 2 (by decide)), Nat.add_mul_mod_self_right, Nat.mod_eq_of_lt hlt]

theorem fPayload_mkFlit : fPayload (mkFlit type seq addr cidx last payload).toNat = payload % 2 ^ 192 := by
  have h := mkFlit_mod type seq addr cidx last payload
  simp only [flitBody] at h
  rw [fPayload, bits_eq_div_mod]
  omega

theorem fType_mkFlit : fType (mkFlit type seq addr cidx last payload).toNat = type % 32 := by
  have h := mkFlit_mod type seq addr cidx last payload
  simp only [flitBody] at h
  rw [fType, bits_eq_div_mod]
  omega

end

/-! ### A module set, and what it sends -/

section
variable {s : State} {p pos : Nat}

@[simp] theorem module_setModule_same (m : Module) : module (setModule s p pos m) p pos = m := smGet_smSet_same ..

theorem moduleTurns_setModule (s : State) (p pos : Nat) (m : Module) : ModuleTurns p pos m [] s (setModule s p pos m) :=
  ⟨module_setModule_same m, fun _ hk => smGet_smSet_ne _ hk .., rfl, fun q hq => by cases q <;> simp [samePart, setModule] at hq ⊢⟩

theorem setModule_quiet (hq : Quiet s) (m : Module) : (setModule s p pos m).evq = [] := hq

/-- What leaves a module that stays as it is. -/
theorem moduleTurns_wire (s : State) (p pos : Nat) (fs : List Flit) :
    ModuleTurns p pos (module s p pos) fs s { s with wire := (fs.map fun f => (⟨p, pos, f⟩ : Sent)) ++ s.wire } :=
  ⟨rfl, fun _ _ => rfl, rfl, fun q hq => by cases q <;> simp [samePart] at hq ⊢⟩

theorem forward_end (h : (module s p pos).isEnd = true) (f : Flit) : forward s p pos f = s := if_pos h

theorem forward_sends (hpos : pos ≠ 0) (h : (module s p pos).isEnd = false) (f : Flit) :
    forward s p pos f = { s with wire := ⟨p, pos, f⟩ :: s.wire } := by
  rw [forward, if_neg (by simp [h]), send_module _ _ hpos]

/-- A module puts IDLE in the place of a flit. -/
theorem forwardIdle_eq (hpos : pos ≠ 0) (f : Nat) :
    forwardIdle s p pos f = { s with wire := ((idleFor (module s p pos) f).map fun f => (⟨p, pos, f⟩ : Sent)) ++ s.wire } := by
  rw [forwardIdle, idleFor]
  cases h : (module s p pos).isEnd
  · rw [forward_sends hpos h]
    rfl
  · rw [forward_end h]
    rfl

theorem modNak_eq (hpos : pos ≠ 0) (reason : Nat) :
    modNak s p pos reason = { s with wire := ⟨p, pos, nakOf (module s p pos) reason⟩ :: s.wire } := send_module _ _ hpos _

end

/-! ### What acts on a channel -/

@[simp] theorem chan_setChan_same (m : Module) (c : Nat) (x : Chan) : chan (setChan m c x) c = x := smGet_smSet_same ..

theorem chan_setChan_ne (m : Module) {c j : Nat} (h : j ≠ c) (x : Chan) : chan (setChan m c x) j = chan m j := smGet_smSet_ne _ h ..

/-- The module `m'` is `m` but for the channel `c`. -/
def OnlyChan (c : Nat) (m m' : Module) : Prop := (∀ j, j ≠ c → chan m' j = chan m j) ∧ m' = { m with chans := m'.chans }

theorem OnlyChan.refl (c : Nat) (m : Module) : OnlyChan c m m := ⟨fun _ _ => rfl, rfl⟩

theorem onlyChan_setChan (m : Module) (c : Nat) (x : Chan) : OnlyChan c m (setChan m c x) :=
  ⟨fun _ h => chan_setChan_ne m h x, rfl⟩

theorem onlyChan_applyUpd (m : Module) (u t : Nat) : OnlyChan (uChan u) m (applyUpd m u t) := by
  unfold applyUpd
  split
  exacts [onlyChan_setChan .., .refl ..]

theorem applySafe_eq {m : Module} {c : Nat} (h : c < idChannels m.ident) (t : Nat) :
    applySafe m c t = setChan m c (chanAfter (idSafe m.ident c).1 (idSafe m.ident c).2 t) := if_pos h

/-- A module whose held consists and waiting fallbacks are gone and whose channel `c` may have acted. -/
theorem moduleTurns_onlyChan {s : State} {p pos c : Nat} {m0 m' : Module} (h : OnlyChan c m0 m') :
    (∀ j, j ≠ c → chan (module (setModule s p pos m') p pos) j = chan m0 j)
    ∧ ModuleTurns p pos { m0 with chans := (module (setModule s p pos m') p pos).chans } [] s (setModule s p pos m') := by
  rw [module_setModule_same]
  exact ⟨h.1, h.2 ▸ moduleTurns_setModule s p pos m'⟩

/-- The safe frame is a matter of channels alone. -/
theorem held_safeFrame (m : Module) (t : Nat) : (safeFrame m t).held = m.held := by
  have hstep : ∀ m c, (applySafe m c t).held = m.held := fun m c => by
    unfold applySafe
    split <;> simp only [setChan]
  have hfold : ∀ (l : List Nat) (m : Module), (l.foldl (fun m c => applySafe m c t) m).held = m.held := fun l => by
    induction l with
    | nil => simp
    | cons c l ih => simp [ih, hstep]
  exact hfold _ m

/-! ### ENUM -/

/-- The payload of the ENUM that a module sends on. -/
def enumOn (y acc closed : Nat) : Nat := putBits (putBits y 0 8 (bits y 0 8 + 1)) 8 32 acc ||| closed

theorem bits_enumOn {y : Nat} (hn : bits y 0 8 ≠ 255) (acc : Nat) {closed : Nat} (hc : closed % 2 ^ 8 = 0) :
    bits (enumOn y acc closed % 2 ^ 192) 0 8 = bits y 0 8 + 1 := by
  have hlow : putBits (putBits y 0 8 (bits y 0 8 + 1)) 8 32 acc % 2 ^ 8 = bits y 0 8 + 1 := by
    simp only [putBits, bits_eq_div_mod] at hn ⊢
    omega
  rw [bits_eq_div_mod, Nat.pow_zero, Nat.div_one, Nat.mod_mod_of_dvd _ (pow_dvd_pow 2 (by decide)), enumOn, Nat.or_mod_two_pow, hlow, hc,
    Nat.or_zero]

theorem testBit_enumOn {y : Nat} (hy : y.testBit 40 = false) (acc closed : Nat) :
    (enumOn y acc closed % 2 ^ 192).testBit 40 = closed.testBit 40 := by
  have hz : (putBits (putBits y 0 8 (bits y 0 8 + 1)) 8 32 acc).testBit 40 = false := by
    rw [Nat.testBit_eq_decide_div_mod_eq] at hy ⊢
    simp only [putBits, bits_eq_div_mod, decide_eq_false_iff_not] at hy ⊢
    omega
  rw [enumOn, Nat.testBit_mod_two_pow, Nat.testBit_or, hz]
  simp

/-- The module as ENUM finds it: a partner on its downstream face makes it the end module no more. -/
def enumMet (s : State) (p pos : Nat) (partner : Bool) : Module :=
  if partner then { module s p pos with isEnd := false } else module s p pos

/-- What ENUM makes of the module. -/
def enumNumbered (m : Module) (n t : Nat) : Module :=
  { safeFrame { m with held := [], pendFb := [] } t with stopped := false, pos := n }

/-- The state that a place given by ENUM leaves, its delays and its time as they are. -/
def enumSent (s : State) (p pos : Nat) (f : Flit) (partner : Bool) (acc t : Nat) : State :=
  { s with
    free := s.free + 1
    modules := smSet (if partner then joined s p pos else s).modules (p * 256 + pos)
      (enumNumbered (enumMet s p pos partner) (bits (fPayload f.toNat) 0 8) t) {}
    wire := ⟨p, pos, mkFlit FT.enum (fSeq f.toNat) 255 0 0 (enumOn (fPayload f.toNat) acc
      (if (enumMet s p pos partner).isEnd then 2 ^ 40 else 0))⟩ :: s.wire }

theorem module_enumSent (s : State) (p pos : Nat) (f : Flit) (partner : Bool) (acc t : Nat) :
    module (enumSent s p pos f partner acc t) p pos = enumNumbered (enumMet s p pos partner) (bits (fPayload f.toNat) 0 8) t := by
  simp only [module, enumSent, smGet_smSet_same]

theorem onlyParts_enumSent (s : State) (p pos : Nat) (f : Flit) (partner : Bool) (acc t : Nat) :
    OnlyParts [.modules, .wire, .free] s (enumSent s p pos f partner acc t) := by
  intro q hq
  cases q <;> simp [samePart, enumSent] at hq ⊢

/-- ENUM on the forward path with a place to give: the module takes it and sends ENUM on. -/
theorem enumFlit_numbers (s : State) {p pos : Nat} (hpos : pos ≠ 0) (f : Flit) (elapsed : Nat) (partner : Bool)
    (hf : (fPayload f.toNat).testBit 40 = false) (hn : bits (fPayload f.toNat) 0 8 ≠ 255) : ∃ acc t,
    enumFlit s p pos f elapsed partner = enumSent s p pos f partner acc t := by
  refine ⟨bits (fPayload f.toNat) 8 32 + freeOf s % 1601 + hopQuarters (enumMet s p pos partner).hop,
    modTime s (enumMet s p pos partner), ?_⟩
  have hmet : module (if partner then joined s p pos else s) p pos = enumMet s p pos partner := by
    cases partner
    · rfl
    · exact module_setModule_same _
  have htime : ∀ m, modTime (if partner then joined s p pos else s) m = modTime s m := by cases partner <;> exact fun _ => rfl
  have hfree : freeOf (if partner then joined s p pos else s) = freeOf s := by cases partner <;> rfl
  have hpath : ¬bitOf (fPayload f.toNat) 40 = true := by simp [bitOf_eq_testBit, hf]
  simp only [enumFlit, if_pos hpos, moduleEnum, if_neg hpath, takeEnum, hmet, htime, hfree, if_neg hn, send_module _ _ hpos]
  cases partner <;> simp only [enumSent, setModule, drawn, joined, enumOn, enumNumbered, if_true, if_false, Bool.false_eq_true]

end Sys2Proof.Machine
end

section
open Sys2Proof Sys2Proof.Machine

/-- Settles O17: each command is a write of one module, or the sending of a flit, or both. -/
theorem modulesActAlone : Obligations.ModulesActAlone := by
  refine ⟨?execute, ?notDue, ?staged, ?fallback, ?pulse, ?silence, ?endModule, ?idle, ?idleEnd, ?idleBad, ?idleDevice, ?enum, ?enumBack,
    ?probe, ?probeEcho, ?crcError, ?probeSend⟩
  case execute =>
    intro p pos seq h u0 s hq hheld hseq hkind hstamp hupds
    have hw : consistExecute s p pos seq.toNat
        = setModule s p pos (applyUpd { module s p pos with held := [] } u0 h.stamp) := by
      simp [consistExecute, hheld, hseq, hkind, hstamp, hupds, applyUpds]
    obtain ⟨hothers, hturns⟩ := moduleTurns_onlyChan (s := s) (p := p) (pos := pos)
      (onlyChan_applyUpd { module s p pos with held := [] } u0 h.stamp)
    refine completes_eq_quiet rfl hw (setModule_quiet hq _) ⟨fun hc hop => ?_, hothers, hturns⟩
    rw [module_setModule_same, applyUpd, if_pos (by simp [updSuits, hc, hop]), chan_setChan_same]
  case notDue =>
    intro p pos seq s hq hnot
    have hnone : (module s p pos).held.find? (fun h => h.seq == seq.toNat && h.kind == 0 && decide (h.stamp ≤ modTime s (module s p pos)))
        = none := List.find?_eq_none.2 fun h hm hc => by
      simp only [Bool.and_eq_true, beq_iff_eq, decide_eq_true_eq] at hc
      exact absurd hc.2 (Nat.not_le.2 (hnot h hm hc.1.1))
    exact completes_eq_quiet rfl (by simp only [consistExecute, hnone]) hq rfl
  case staged =>
    intro p pos seq h u0 s hq hheld hseq hkind hfb hstamp hupds hc
    have hw : stagedStamp s p pos seq.toNat = setModule s p pos (setChan { module s p pos with held := [] } (uChan u0)
        (chanAfter (idSafe (module s p pos).ident (uChan u0)).1 (idSafe (module s p pos).ident (uChan u0)).2 h.stamp)) := by
      simp [stagedStamp, hheld, hseq, hkind, hstamp, hupds, hfb, applyFb, applySafe, hc]
    obtain ⟨hothers, hturns⟩ := moduleTurns_onlyChan (s := s) (p := p) (pos := pos) (onlyChan_setChan _ (uChan u0) _)
    refine completes_eq_quiet rfl hw hq ⟨?_, hothers, hturns⟩
    rw [module_setModule_same, chan_setChan_same]
  case fallback =>
    intro p pos x c0 s hq hheld hpend hstamp hfb hchans hc
    have hw : fallbackApply s p pos = setModule s p pos (setChan { module s p pos with pendFb := [] } c0
        (chanAfter (idSafe (module s p pos).ident c0).1 (idSafe (module s p pos).ident c0).2 x.stamp)) := by
      simp [fallbackApply, hheld, hpend, hstamp, hfb, hchans, applyFb, applySafe, hc, sortBy, insertBy]
    obtain ⟨hothers, hturns⟩ := moduleTurns_onlyChan (s := s) (p := p) (pos := pos) (onlyChan_setChan _ c0 _)
    refine completes_eq_quiet rfl hw hq ⟨?_, hothers, hturns⟩
    rw [module_setModule_same, chan_setChan_same]
  case pulse =>
    intro p pos c s hq hop huntil
    obtain ⟨hothers, hturns⟩ := moduleTurns_onlyChan (s := s) (p := p) (pos := pos) (onlyChan_setChan (module s p pos) c.toNat {})
    refine completes_eq_quiet rfl (if_pos ⟨hop, huntil⟩) (setModule_quiet hq _) ⟨?_, hothers, hturns⟩
    rw [module_setModule_same, chan_setChan_same]
  case silence =>
    intro p pos s hq hpos
    exact completes_eq_quiet rfl (if_neg fun h => hpos (Fin.ext h)) (setModule_quiet hq _) (moduleTurns_setModule ..)
  case endModule =>
    intro p pos s hq hpos
    exact completes_eq_quiet rfl (if_neg fun h => hpos (Fin.ext h)) hq (moduleTurns_setModule ..)
  case idle =>
    intro p pos f s hq hpos hg ht hend
    have hne : pos.val ≠ 0 := fun h => hpos (Fin.ext h)
    refine completes_eq_quiet (w' := { s with wire := ⟨p, pos, f⟩ :: s.wire }) rfl ?_ hq rfl
    rw [if_neg (by simp [hne, hg, ht]), moduleIdle, if_neg (by simp [hend]), send_module _ _ hne]
  case idleEnd =>
    intro p pos f s hq hpos hg ht hend
    have hne : pos.val ≠ 0 := fun h => hpos (Fin.ext h)
    refine completes_eq_quiet rfl ((if_neg (by simp [hne, hg, ht])).trans ((if_pos hend).trans (send_module _ _ hne _))) hq ⟨?_, rfl, onlyParts_wire s _⟩
    exact ⟨_, List.mem_singleton_self _, rfl, fType_mkFlit ..⟩
  case idleBad =>
    intro p pos f s hq hg
    exact completes_eq_quiet rfl (if_pos (by simp [hg])) hq rfl
  case idleDevice =>
    intro p f s hq
    exact completes_eq_quiet rfl (if_pos (by simp)) hq rfl
  case enum =>
    intro p pos f el s hq hpos hg ht hback hn
    have hne : pos.val ≠ 0 := fun h => hpos (Fin.ext h)
    have harr : arrived s pos f.toNat FT.enum = true := by simp [arrived, hg, ht, hne]
    obtain ⟨acc, t, hw⟩ := enumFlit_numbers s (p := p) hne f el.1.toNat el.2 hback hn
    have honly := onlyParts_enumSent s p pos f el.2 acc t
    refine completes_eq_quiet rfl ((if_pos harr).trans hw) ((honly .evq (by decide)).trans hq) ⟨?_, ?_, ?_, ?_, rfl, honly⟩
    · rw [module_enumSent, enumNumbered]
    · simp only [module_enumSent, enumNumbered, held_safeFrame]
    · rw [module_enumSent, enumNumbered]
    · refine ⟨_, List.mem_singleton_self _, ?_, ?_⟩
      · rw [fPayload_mkFlit, bits_enumOn hn _ (by split <;> decide)]
      · rw [fPayload_mkFlit, testBit_enumOn hback]
        have hbit : (2 ^ 40 : Nat).testBit 40 = true := Nat.testBit_two_pow_self
        cases el.2
        · cases hend : (module s p pos).isEnd <;> simp only [enumMet, hend, if_true, if_false, Bool.false_eq_true, hbit, Nat.zero_testBit,
            Bool.not_false, Bool.and_true]
        · simp only [enumMet, if_true, if_false, Bool.false_eq_true, Nat.zero_testBit, Bool.not_true, Bool.and_false]
  case enumBack =>
    intro p pos f el s hq hpos hg ht hback hel
    have hne : pos.val ≠ 0 := fun h => hpos (Fin.ext h)
    have harr : arrived s pos f.toNat FT.enum = true := by simp [arrived, hg, ht, hne]
    refine completes_eq_quiet (w' := { s with wire := ⟨p, pos, f⟩ :: s.wire }) rfl ?_ hq rfl
    rw [if_pos harr, enumFlit, if_pos hne, hel, if_neg Bool.false_ne_true, moduleEnum, bitOf_eq_testBit, if_pos hback, send_module _ _ hne]
  case probe =>
    intro p pos down t f s hq hpos hg ht hy
    have hne : pos.val ≠ 0 := fun h => hpos (Fin.ext h)
    refine completes_eq_quiet rfl (w' := { s with wire := _ :: s.wire }) ?_ hq rfl
    rw [if_pos (by simp [hg, ht]), probe, if_pos hy, send_module _ _ hne, Nat.mod_eq_of_lt t.isLt]
  case probeEcho =>
    intro p t f s hq hg ht hy
    have hw : (if fGood f.toNat && fType f.toNat == FT.probe then probe s p 0 true t.toNat f.toNat else s)
        = setHop s p 0 (hopOf t.toNat (bits (fPayload f.toNat) 64 64)) := by
      rw [if_pos (by simp [hg, ht]), probe, if_neg hy, if_pos rfl]
    refine completes_eq_quiet rfl hw hq ⟨?_, ?_, ?_⟩
    · exact congrArg Port.hop (smGet_smSet_same ..)
    · exact congrArg Module.hopUp (smGet_smSet_same ..)
    · intro q hq
      cases q <;> simp [samePart, setHop, setPort, setModule] at hq ⊢
  case crcError =>
    intro p pos f s hq hpos hg
    have hne : pos.val ≠ 0 := fun h => hpos (Fin.ext h)
    have hw : crcError s p pos true f.toNat = { s with wire := ((nakOf (module s p pos) 0 :: idleFor (module s p pos) f.toNat).map
        fun f => (⟨p, pos, f⟩ : Sent)) ++ s.wire } := by
      rw [crcError, if_pos hne, if_pos rfl, forwardIdle_eq hne, modNak_eq hne]
      rfl
    exact completes_eq_quiet rfl ((if_neg (by simp [hg])).trans hw) hq (moduleTurns_wire ..)
  case probeSend =>
    intro p pos t s hq hpos hend
    have hne : pos.val ≠ 0 := fun h => hpos (Fin.ext h)
    exact completes_eq_quiet rfl ((if_neg hne).trans (forward_sends hne hend _)) hq rfl

end

section
/-! SUPPORT. A state against the claim of O20: a trunk whose receiver waits for SEQ 1. -/
namespace Sys2Proof.Machine

/-- Port 0 is a trunk that is UP, on which a flit has failed before any was taken. -/
def trunkHolds : State :=
  setPort (resetWith [(F.WNG_Pp_CTRL_MODE 0, 1), (F.WNG_Pp_STATUS_STATE 0, pUP)]) 0 { rxHold := true }

/-- A remote insert from node 0 to node 0 under SEQ 5. -/
def insertUnderSeq5 : Flit := mkFlit FT.remoteInsert 5 0 0 0 0

end Sys2Proof.Machine
end

section
open Sys2Proof Sys2Proof.Machine

/-- Refutes O20: a receiver that has not yet synchronised, but has seen a flit fail, takes only SEQ 1 (log entry 134). -/
theorem not_trunksCarryInsertsAndMessages : ¬ Obligations.TrunksCarryInsertsAndMessages := by
  unfold Obligations.TrunksCarryInsertsAndMessages
  intro h
  obtain ⟨hinsert, -⟩ := h
  obtain ⟨htt, -⟩ := (hinsert 0 insertUnderSeq5 0 0 trunkHolds (by decide +kernel) (by decide +kernel) (by decide +kernel)).of_exec rfl
  exact absurd (congrArg (fun t => t.inflight.length) htt) (by decide +kernel)

end

section
/-! SUPPORT. A state against the claim of O24: an access through a window that is not valid. -/
namespace Sys2Proof.Machine

/-- Thread 0 of engine 0 is about to load the byte at offset 4 of its window 0, whose VALID is 0. -/
def loadsThroughInvalidWindow : State :=
  setEngine (resetWith [(F.ENG_n_CTRL_ENABLE 0, 1), (F.ENG_n_CTRL_START 0, 1), (F.ENG_n_STATUS_THREADS 0, 1)]) 0
    { threads := [(0, { pc := 0x100, g := [(1, 0x80000004)] })], sp := [(32, encI 16 4 1 0)] }

end Sys2Proof.Machine
end

section
open Sys2Proof Sys2Proof.Machine

/-- Refutes O24: an access through a window that is not VALID keeps the device address 0, whatever the window's BASE and offset. -/
theorem not_loadsAndStores : ¬ Obligations.LoadsAndStores := by
  unfold Obligations.LoadsAndStores
  intro h
  obtain ⟨-, -, -, -, -, -, -, -, -, hwindow, -⟩ := h
  obtain ⟨hsmall, -⟩ := hwindow 0 0 0 4 1 0 0 0 4 loadsThroughInvalidWindow (by decide +kernel) (by decide +kernel)
    (by decide +kernel) (by decide +kernel)
  obtain ⟨hwin, -⟩ := (hsmall (by decide +kernel)).of_exec rfl
  exact absurd hwin (by decide +kernel)

end

section
/-! SUPPORT. A state against the claim of O28: an inbound port whose region has stopped while words wait. -/
namespace Sys2Proof.Machine

/-- Thread 0 of engine 0 is about to read port 4, which is enabled and holds the word 5, but whose region is not RELEASED. -/
def readsPortOfStoppedRegion : State :=
  setEngine (resetWith [(F.ENG_n_CTRL_ENABLE 0, 1), (F.ENG_n_CTRL_START 0, 1), (F.ENG_n_STATUS_THREADS 0, 1),
      (F.ENG_n_SPORT_EN 0, 0x10)]) 0
    { threads := [(0, { pc := 0x100 })], sp := [(32, encS 0x31 2 0 0 4)], fifos := [(4, [5])] }

end Sys2Proof.Machine
end

section
open Sys2Proof Sys2Proof.Machine

/-- Refutes O28: an enabled inbound port whose region is not RELEASED still gives the words that wait in it. -/
theorem not_streamsAndInsertion : ¬ Obligations.StreamsAndInsertion := by
  unfold Obligations.StreamsAndInsertion
  intro h
  obtain ⟨-, -, hoff, -⟩ := h
  obtain ⟨hrd, -⟩ := (hoff 0 0 2 0 0 readsPortOfStoppedRegion (by decide +kernel) (by decide +kernel)).of_exec rfl
  exact absurd hrd (by decide +kernel)

end

section
/-! SUPPORT. A state against the claim of O30: a scratchpad word wider than its 64 bits. -/
namespace Sys2Proof.Machine

/-- Word 0 of the scratchpad of engine 0 is listed with a value of more than 64 bits. -/
def scratchpadWordTooWide : State := setEngine (resetWith []) 0 { sp := [(0, 2 ^ 64)] }

end Sys2Proof.Machine
end

section
open Sys2Proof Sys2Proof.Machine

/-- Refutes O30: no field of a response holds a scratchpad word of more than 64 bits, and the claim does not bound the words. -/
theorem not_enginePorts : ¬ Obligations.EnginePorts := by
  unfold Obligations.EnginePorts
  intro h
  obtain ⟨hread, -⟩ := h
  obtain ⟨⟨r, hr, -, hdata⟩, -⟩ :=
    (hread 0 0 0 0 0 scratchpadWordTooWide (by decide +kernel) (by decide +kernel) (by decide +kernel)).of_exec rfl
  have hword : bits r.data 0 64 = 2 ^ 64 := (hdata 0 (by decide)).trans (by decide +kernel)
  have hnarrow : bits r.data 0 64 < 2 ^ 64 := bits_lt ..
  omega

end

section
/-! SUPPORT. A state against the claim of O31: the lane that carries RCLK goes down after XO has failed. -/
namespace Sys2Proof.Machine

/-- Lane 0 is in LINKUP and carries RCLK for a follower in LOCKED whose XO has failed. -/
def rclkLaneWithoutXo : State :=
  resetWith [(F.WLN_LANEn_STATUS_STATE 0, lnLINKUP), (F.ANG_STATUS_RT_VALID, 1), (F.ANG_RTM_ROLE_ROLE, 2), (F.ANG_STATUS_RT_STATE, rLOCKED),
    (F.CLK_STATUS_XO_FAIL, 1)]

end Sys2Proof.Machine
end

section
open Sys2Proof Sys2Proof.Machine

/-- Refutes O31: a follower whose XO has failed does not go to HOLDOVER as its RCLK lane goes down, but loses ring time (R418). -/
theorem not_laneStateMachine : ¬ Obligations.LaneStateMachine := by
  unfold Obligations.LaneStateMachine
  intro h
  obtain ⟨-, -, -, -, -, -, -, -, -, -, hrclk, -⟩ := h
  obtain ⟨es, hes⟩ := hrclk 0 rclkLaneWithoutXo (by decide +kernel) (by decide +kernel) (by decide +kernel) (by decide +kernel)
    (by decide +kernel) (by decide +kernel) (by decide +kernel)
  obtain ⟨u, ⟨-, hrt⟩, hend, -⟩ := hes.end_of_exec rfl
  rw [rtState, hend _ (by decide +kernel) (by decide +kernel)] at hrt
  exact absurd hrt (by decide +kernel)

end

section
/-! SUPPORT. A state against the claim of O32: TRAIN is cleared on the lane that carries RCLK. -/
namespace Sys2Proof.Machine

/-- Lane 0 of the disabled port 0 is in LINKUP and carries RCLK for a follower in LOCKED. -/
def rclkLaneOfDisabledPort : State :=
  resetWith [(F.WLN_LANEn_STATUS_STATE 0, lnLINKUP), (F.ANG_RTM_ROLE_ROLE, 2), (F.ANG_STATUS_RT_STATE, rLOCKED)]

end Sys2Proof.Machine
end

section
open Sys2Proof Sys2Proof.Machine

/-- Refutes O32: clearing TRAIN of the lane that carries RCLK takes a follower in LOCKED to HOLDOVER (R41). -/
theorem not_laneTests : ¬ Obligations.LaneTests := by
  unfold Obligations.LaneTests
  intro h
  obtain ⟨-, hclear, -⟩ := h
  obtain ⟨-, -, -, hflds⟩ := (hclear 0 rclkLaneOfDisabledPort (by decide +kernel) (by decide +kernel) (by decide +kernel)).of_exec rfl
  exact absurd (hflds F.ANG_STATUS_RT_STATE (by decide +kernel)) (by decide +kernel)

end

section
/-! SUPPORT. A state against the claim of O35: a flip-flop word listed above the tiles of its region. -/
namespace Sys2Proof.Machine

/-- Flip-flop 0 of a frame: PRIVATE, on region clock 0, and with a DSEL that names no input. -/
def privateFlipFlop : Nat := (3 + 2 ^ 11) * 2 ^ 116

/-- Region 0 switches to context 1 and lists, in context 0, the flip-flops of a tile 800, whose place is that of tile 0 in context 1. -/
def flipFlopsBeyondRegion : State :=
  let s := setRegion (resetWith [(F.FAB_REGr_STATUS_STATE 0, gRELEASED), (F.FAB_REGr_CLK_EN 0, 1), (F.CLK_FPLLn_EN 0, 1),
      (F.CLK_FPLLn_LOCKED 0, 1), (F.CTX_REGr_ACTIVE_SWITCHING 0, 1)]) 0
    { run := true, switches := [1], shared := [(800, 1)], priv := [(800, 1)] }
  setFab s { s.fab with frames := [(frameKey kLOGIC 0 0 800, privateFlipFlop)] }

end Sys2Proof.Machine
end

section
open Sys2Proof Sys2Proof.Machine

/-- Refutes O35: the edge of a switch instant captures every listed flip-flop word, also one beyond the 800 tiles, whose PRIVATE copy lies
among those of the next context. -/
theorem not_pointsAndPlanes : ¬ Obligations.PointsAndPlanes := by
  unfold Obligations.PointsAndPlanes
  intro h
  obtain ⟨-, -, -, -, -, -, hinstant, -⟩ := h
  obtain ⟨-, -, -, -, hpriv, -⟩ := (hinstant 0 1 flipFlopsBeyondRegion (by decide +kernel) (by decide +kernel) (by decide +kernel)
    (by decide +kernel)).of_exec rfl
  exact absurd (hpriv 800 (by decide +kernel)) (by decide +kernel)

end

section
/-! SUPPORT. The end of draining: a unit that is not draining keeps all, one that has drained reads ENABLE and DRAINING 0 (R13). -/
namespace Sys2Proof.Machine

variable {s : State} {b : DrainUnit} {en dr : Fld} {f : State → State} {drained : Bool}

theorem endIf_of_idle (h : flag s dr = false) : endIf s dr drained f = s := by
  simp [endIf, h]

theorem endIf_of_busy (h : drained = false) : endIf s dr drained f = s := by
  simp [endIf, h]

theorem endIf_of_drained (h : flag s dr = true) (hd : drained = true) : endIf s dr drained f = f s := by
  simp [endIf, h, hd]

theorem drainEnd_keeps (hq : Quiet s) (h : drainEnd s b = s) : Completes (.drainEnd b) s [] fun u => u = s :=
  completes_eq_quiet rfl h hq rfl

theorem onlyRegs_plainEnd (s : State) (en dr : Fld) : OnlyRegs [en, dr] s (plainEnd en dr s) :=
  ((Only.refl [] [en, dr] s).setFld (by simp) 0).setFld (by simp) 0

theorem flag_plainEnd_enable (s : State) (h : en.key ≠ dr.key) : flag (plainEnd en dr s) en = false := by
  rw [flag, plainEnd, fld_setFld_ne _ h, fld_setFld_same]
  simp

theorem flag_plainEnd_draining (s : State) (en dr : Fld) : flag (plainEnd en dr s) dr = false := by
  rw [flag, plainEnd, fld_setFld_same]
  simp

theorem drains_of (hq : Quiet s) (hne : en.key ≠ dr.key) (h : drainEnd s b = plainEnd en dr s) : Drains b en dr s :=
  completes_eq_quiet rfl h hq ⟨flag_plainEnd_enable s hne, flag_plainEnd_draining s en dr, onlyRegs_plainEnd s en dr⟩

theorem drainEnd_engine (s : State) (n : Fin 96) :
    drainEnd s (.engine n) = endIf s (F.ENG_n_STATUS_DRAINING n) (engDrained s n) fun s => engDrainEnd s n := rfl

theorem drainEnd_ring (s : State) (k : Fin 16) :
    drainEnd s (.ring k) = endIf s (F.HWN_RINGk_STATUS_DRAINING k) (ringDrained s k) fun s => ringDrainEnd s k := rfl

theorem drainEnd_cfg (s : State) :
    drainEnd s .cfg = endIf s F.CFG_STATUS_DRAINING (cfgDrained s)
      fun s => plainEnd F.CFG_CTRL_ENABLE F.CFG_STATUS_DRAINING (setCfg s { s.cfg with off := false }) := rfl

/-- A unit that is not draining keeps all. -/
theorem drainEnd_of_idle (h : ((drainFld b).map (flag s)).getD false = false) : drainEnd s b = s := by
  cases b
  case port p =>
    have hf : flag s (F.WNG_Pp_STATUS_DRAINING p) = false := h
    simp [drainEnd, portDrainCheck, hf]
  case patrol | thm => rfl
  case engine n => exact (drainEnd_engine s n).trans (endIf_of_idle h)
  case ring k => exact (drainEnd_ring s k).trans (endIf_of_idle h)
  case cfg => exact (drainEnd_cfg s).trans (endIf_of_idle h)
  all_goals exact endIf_of_idle h

/-! ### Several units at once, and the units that do more -/

theorem fld_setFld_zero {f g : Fld} (hr : g.reset = f.reset) (h : fld s g = 0) : fld (setFld s f 0) g = 0 := by
  by_cases hk : g.key = f.key
  · simp [fld, setFld, hk, hr, smGet_smSet_same]
  · rw [fld_setFld_ne _ hk, h]

theorem fld_setFld_zero_same (s : State) (f : Fld) : fld (setFld s f 0) f = 0 := by
  rw [fld_setFld_same, Nat.zero_mod]

theorem fld_ringDrainEnd_zero {g : Fld} (hr : g.reset = 0) (h : fld s g = 0) (k : Nat) : fld (ringDrainEnd s k) g = 0 :=
  fld_setFld_zero hr (fld_setFld_zero hr h)

theorem forEach_mem_keeps {α : Type} {P : State → Prop} {step : State → α → State} {l : List α} (hstep : ∀ s, ∀ x ∈ l, P s → P (step s x))
    {s : State} (h : P s) : P (forEach l step s) := by
  induction l generalizing s with
  | nil => exact h
  | cons x xs ih => exact ih (fun t y hy => hstep t y (List.mem_cons_of_mem _ hy)) (hstep s x List.mem_cons_self h)

/-- What one step of a loop brings about and no step undoes holds after the loop. -/
theorem forEach_reaches {α : Type} {P : State → Prop} {step : State → α → State} {a : α} (hstep : ∀ s, P (step s a))
    (hkeep : ∀ s x, P s → P (step s x)) {l : List α} (ha : a ∈ l) (s : State) : P (forEach l step s) := by
  induction l generalizing s with
  | nil => cases ha
  | cons x xs ih =>
    rcases List.mem_cons.1 ha with rfl | hm
    · exact forEach_keeps hkeep xs (hstep s)
    · exact ih hm _

/-- The fields in which the draining of the host window ends. -/
def hwnDrainFlds : List Fld :=
  F.HWN_CTRL_ENABLE :: F.HWN_STATUS_DRAINING :: (List.range 16).map F.HWN_RINGk_CTRL_ENABLE
    ++ (List.range 16).map F.HWN_RINGk_STATUS_DRAINING

theorem onlyRegs_hwnDrainEnd (s : State) : OnlyRegs hwnDrainFlds s (hwnDrainEnd s) := by
  have hbase : Only [] hwnDrainFlds s (plainEnd F.HWN_CTRL_ENABLE F.HWN_STATUS_DRAINING s) :=
    Only.mono (onlyRegs_plainEnd s F.HWN_CTRL_ENABLE F.HWN_STATUS_DRAINING) (List.Subset.refl _) (by simp [hwnDrainFlds])
  refine forEach_mem_keeps (P := Only [] hwnDrainFlds s) (fun t k hk h => ?_) hbase
  have hen : F.HWN_RINGk_CTRL_ENABLE k ∈ hwnDrainFlds := by
    simp only [hwnDrainFlds, List.cons_append, List.mem_cons, List.mem_append]
    exact .inr (.inr (.inl (List.mem_map_of_mem hk)))
  have hdr : F.HWN_RINGk_STATUS_DRAINING k ∈ hwnDrainFlds := by
    simp only [hwnDrainFlds, List.cons_append, List.mem_cons, List.mem_append]
    exact .inr (.inr (.inr (List.mem_map_of_mem hk)))
  exact (h.setFld hen 0).setFld hdr 0

theorem flag_of_fld {g : Fld} (h : fld s g = 0) : flag s g = false := by
  rw [flag, h]
  rfl

theorem flag_hwnDrainEnd {g : Fld} (hr : g.reset = 0) (h : fld (plainEnd F.HWN_CTRL_ENABLE F.HWN_STATUS_DRAINING s) g = 0) :
    flag (hwnDrainEnd s) g = false :=
  flag_of_fld (forEach_keeps (P := fun t => fld t g = 0) (fun _ k hs => fld_ringDrainEnd_zero hr hs k) _ h)

theorem flags_ringDrainEnd (s : State) (k : Nat) :
    fld (ringDrainEnd s k) (F.HWN_RINGk_CTRL_ENABLE k) = 0 ∧ fld (ringDrainEnd s k) (F.HWN_RINGk_STATUS_DRAINING k) = 0 :=
  ⟨fld_setFld_zero rfl (fld_setFld_zero_same s _), fld_setFld_zero_same _ _⟩

theorem rings_hwnDrainEnd (s : State) (k : Fin 16) :
    flag (hwnDrainEnd s) (F.HWN_RINGk_CTRL_ENABLE k) = false ∧ flag (hwnDrainEnd s) (F.HWN_RINGk_STATUS_DRAINING k) = false := by
  have h := forEach_reaches (l := List.range 16) (a := k.val)
    (P := fun t => fld t (F.HWN_RINGk_CTRL_ENABLE k) = 0 ∧ fld t (F.HWN_RINGk_STATUS_DRAINING k) = 0) (fun t => flags_ringDrainEnd t k)
    (fun t j h => ⟨fld_ringDrainEnd_zero rfl h.1 j, fld_ringDrainEnd_zero rfl h.2 j⟩) (by simp)
    (plainEnd F.HWN_CTRL_ENABLE F.HWN_STATUS_DRAINING s)
  exact ⟨flag_of_fld h.1, flag_of_fld h.2⟩

theorem hwnDrained_of (hring : ∀ k : Fin 16, ring s k = []) (hrec : s.hwn.reclaims = []) : hwnDrained s = true := by
  simpa [hwnDrained, hrec, List.all_eq_true] using fun k hk => hring ⟨k, hk⟩

theorem flags_hwnDrainEnd (s : State) :
    flag (hwnDrainEnd s) F.HWN_CTRL_ENABLE = false ∧ flag (hwnDrainEnd s) F.HWN_STATUS_DRAINING = false :=
  ⟨flag_hwnDrainEnd (by rfl) (fld_setFld_zero (by rfl) (fld_setFld_zero_same s _)), flag_hwnDrainEnd (by rfl) (fld_setFld_zero_same _ _)⟩

/-! #### The loader -/

theorem only_setCfg (s : State) (c : Session) (fs : List Fld) : Only [.cfg] fs s (setCfg s c) := by
  refine ⟨fun p hp => ?_, fun _ _ => rfl⟩
  cases p <;> simp [samePart, setCfg] at hp ⊢

theorem only_plainEnd_setCfg (s : State) (c : Session) (en dr : Fld) : Only [.cfg] [en, dr] s (plainEnd en dr (setCfg s c)) :=
  ((only_setCfg s c [en, dr]).setFld (by simp) 0).setFld (by simp) 0

theorem cfg_plainEnd_setCfg (s : State) (c : Session) (en dr : Fld) : (plainEnd en dr (setCfg s c)).cfg = c := rfl

/-! #### The Timetable -/

/-- The Timetable with its draining ended and its reservation as it was. -/
def ttStopped (s : State) : State := plainEnd F.TT_CTRL_ENABLE F.TT_STATUS_DRAINING s



theorem ttRelease_keeps (h : usedCount s ≠ 0) : ttRelease s = s := by
  simp [ttRelease, h]

theorem only_ttRelease (s : State) : Only [] [F.TT_STATUS_READY, F.TT_STATUS_RESERVED] s (ttRelease s) :=
  .ite (((Only.refl _ _ s).setFld (by simp) 0).setFld (by simp) 0) (.refl ..)

theorem reserved_ttRelease (hen : flag s F.TT_CTRL_ENABLE = false) (h : usedCount s = 0) :
    flag (ttRelease s) F.TT_STATUS_RESERVED = false := by
  by_cases hres : flag s F.TT_STATUS_RESERVED = true
  · rw [ttRelease, if_pos (by simp [hen, hres, h])]
    exact flag_of_fld (fld_setFld_zero_same _ _)
  · rw [ttRelease, if_neg (by simp [hres])]
    simpa using hres

theorem only_ttDrainEnd (s : State) :
    Only [] [F.TT_CTRL_ENABLE, F.TT_STATUS_DRAINING, F.TT_STATUS_READY, F.TT_STATUS_RESERVED] s (ttDrainEnd s) :=
  have h : Only [] [F.TT_CTRL_ENABLE, F.TT_STATUS_DRAINING, F.TT_STATUS_READY, F.TT_STATUS_RESERVED] s (ttStopped s) :=
    ((Only.refl _ _ s).setFld (by simp) 0).setFld (by simp) 0
  h.trans ((only_ttRelease (ttStopped s)).mono (List.Subset.refl _) (by simp))

/-! #### A port -/

/-- Port p after its draining: disabled, with IDLE on its wire. -/
def portIdles (s : State) (p : Fin 4) : State :=
  setPortState (setPort (plainEnd (F.WNG_Pp_CTRL_ENABLE p) (F.WNG_Pp_STATUS_DRAINING p)
    { s with wire := ownFlit s p FT.idle 0 0 :: s.wire }) p { port s p with idling := true, enumTries := 0 }) p pDISABLED

theorem portDrained_plain (h : SendsPlainly s) (p : Fin 4) :
    portDrained s p = portIdles s p := by
  rw [portDrained, sendPlain_plain h p.isLt]
  rfl

theorem port_portIdles (s : State) (p : Fin 4) (q : Nat) :
    port (portIdles s p) q = if q = p then { port s p with idling := true, enumTries := 0 } else port s q := by
  split_ifs with h
  · subst h
    exact smGet_smSet_same ..
  · exact smGet_smSet_ne _ h ..

theorem only_portIdles (s : State) (p : Fin 4) : Only [.ports, .wire]
    [F.WNG_Pp_CTRL_ENABLE p, F.WNG_Pp_STATUS_DRAINING p, F.WNG_Pp_STATUS_STATE p] s (portIdles s p) :=
  (((((Only.refl _ _ s).withWire (by decide) _).setFld (by simp) 0).setFld (by simp) 0).setPort (by decide) p _).setFld (by simp) pDISABLED

theorem port_keys (p : Nat) : (F.WNG_Pp_CTRL_ENABLE p).key ≠ (F.WNG_Pp_STATUS_DRAINING p).key
    ∧ (F.WNG_Pp_CTRL_ENABLE p).key ≠ (F.WNG_Pp_STATUS_STATE p).key
    ∧ (F.WNG_Pp_STATUS_DRAINING p).key ≠ (F.WNG_Pp_STATUS_STATE p).key := by
  simp [F.WNG_Pp_CTRL_ENABLE, F.WNG_Pp_STATUS_DRAINING, F.WNG_Pp_STATUS_STATE]

theorem flags_portIdles (s : State) (p : Fin 4) : flag (portIdles s p) (F.WNG_Pp_CTRL_ENABLE p) = false
    ∧ flag (portIdles s p) (F.WNG_Pp_STATUS_DRAINING p) = false ∧ portState (portIdles s p) p = pDISABLED := by
  have ⟨hed, hes, hds⟩ := port_keys p
  refine ⟨?_, ?_, fld_setFld_same ..⟩
  · exact (congrArg (· != 0) (fld_setFld_ne _ hes _)).trans
      (flag_plainEnd_enable { s with wire := ownFlit s p FT.idle 0 0 :: s.wire } hed)
  · exact (congrArg (· != 0) (fld_setFld_ne _ hds _)).trans
      (flag_plainEnd_draining { s with wire := ownFlit s p FT.idle 0 0 :: s.wire } (F.WNG_Pp_CTRL_ENABLE p) (F.WNG_Pp_STATUS_DRAINING p))

/-- What the claim says of a port whose draining has ended. -/
theorem portIdles_spec (s : State) (p : Fin 4) :
    flag (portIdles s p) (F.WNG_Pp_CTRL_ENABLE p) = false ∧ flag (portIdles s p) (F.WNG_Pp_STATUS_DRAINING p) = false
      ∧ portState (portIdles s p) p = pDISABLED ∧ port (portIdles s p) p = { port s p with idling := true, enumTries := 0 }
      ∧ (∀ q, q ≠ p.val → port (portIdles s p) q = port s q) ∧ (portIdles s p).wire = ownFlit s p FT.idle 0 0 :: s.wire
      ∧ Only [.ports, .wire] [F.WNG_Pp_CTRL_ENABLE p, F.WNG_Pp_STATUS_DRAINING p, F.WNG_Pp_STATUS_STATE p] s (portIdles s p) := by
  obtain ⟨hen, hdr, hst⟩ := flags_portIdles s p
  exact ⟨hen, hdr, hst, (port_portIdles s p p).trans (if_pos rfl), fun q h => (port_portIdles s p q).trans (if_neg h), rfl,
    only_portIdles s p⟩

end Sys2Proof.Machine
end

section
open Sys2Proof Sys2Proof.Machine

/-- Settles O60, unit by unit. -/
theorem drainingEnds : Obligations.DrainingEnds := by
  unfold Obligations.DrainingEnds
  refine ⟨?idle, ?sbxBusy, ?clkBusy, ?engBusy, ?ringBusy, ?portBusy, ?ang, ?dsp, ?fab, ?ctx, ?mem, ?sch, ?enc, ?stk, ?pci, ?sbx, ?clk,
    ?pwr, ?bst, ?dbg, ?cfg, ?engine, ?ring, ?hwn, ?tt, ?port⟩
  case idle => exact fun b s hq h => drainEnd_keeps hq (drainEnd_of_idle h)
  case sbxBusy => exact fun s hq h => drainEnd_keeps hq (endIf_of_busy (by rw [h]; rfl))
  case clkBusy => exact fun s hq h => drainEnd_keeps hq (endIf_of_busy (by simpa [Option.isSome_iff_ne_none] using h))
  case engBusy =>
    exact fun n s hq h => drainEnd_keeps hq ((drainEnd_engine s n).trans (endIf_of_busy (by simp [engDrained, h])))
  case ringBusy =>
    refine fun k s hq h => ⟨drainEnd_keeps hq ((drainEnd_ring s k).trans (endIf_of_busy (by simp [ringDrained, h]))),
      drainEnd_keeps hq (endIf_of_busy ?_)⟩
    have hall : (List.range 16).all (fun k => (Machine.ring s k).isEmpty) = false := by
      rw [List.all_eq_false]
      exact ⟨k, by simp, by simpa using h⟩
    rw [hwnDrained, hall]
    rfl
  case portBusy => exact fun p s hq h => drainEnd_keeps hq (by simp [drainEnd, portDrainCheck, h])
  case ang => exact fun s hq h => drains_of hq (by decide) (endIf_of_drained h rfl)
  case dsp => exact fun s hq h hd => drains_of hq (by decide) (endIf_of_drained h hd)
  case fab => exact fun s hq h hd => drains_of hq (by decide) (endIf_of_drained h hd)
  case ctx =>
    refine fun s hq h hd => drains_of hq (by decide) (endIf_of_drained h ?_)
    simpa [ctxDrained, List.all_eq_true] using fun r hr => hd ⟨r, hr⟩
  case mem => exact fun s hq h hd => drains_of hq (by decide) (endIf_of_drained h hd)
  case sch => exact fun s hq h hw hf hr => drains_of hq (by decide) (endIf_of_drained h (by simp [schDrained, hw, hf, hr]))
  case enc => exact fun s hq h hd => drains_of hq (by decide) (endIf_of_drained h (by simp [encDrained, hd]))
  case stk => exact fun s hq h hd => drains_of hq (by decide) (endIf_of_drained h (by simp [stkDrained, hd]))
  case pci => exact fun s hq h hd => drains_of hq (by decide) (endIf_of_drained h (by simpa [pciDrained] using hd))
  case sbx => exact fun s hq h hd => drains_of hq (by decide) (endIf_of_drained h (by simp [hd]))
  case clk => exact fun s hq h hd => drains_of hq (by decide) (endIf_of_drained h (by simp [hd]))
  case pwr => exact fun s hq h hd => drains_of hq (by decide) (endIf_of_drained h (by simpa [pwrPhase] using hd))
  case bst =>
    refine fun s hq h hd => drains_of hq (by decide) (endIf_of_drained h ?_)
    simpa [bstDrained, uIDLE, List.all_eq_true] using fun u hu => hd ⟨u, hu⟩
  case dbg =>
    refine fun s hq h hb hd => drains_of hq (by decide) (endIf_of_drained h ?_)
    simpa [dbgDrained, hb, List.all_eq_true] using fun r hr => hd ⟨r, hr⟩
  case cfg =>
    intro s hq h hopen hver hfail
    refine completes_eq_quiet rfl ((drainEnd_cfg s).trans (endIf_of_drained h ?_)) hq ?_
    · simp [cfgDrained, sOPEN, sVERIFYING, hopen, hver, hfail]
    · exact ⟨flag_plainEnd_enable _ (by decide), flag_plainEnd_draining .., cfg_plainEnd_setCfg .., only_plainEnd_setCfg ..⟩
  case engine =>
    intro n s hq h hwin hsrc
    exact drains_of hq (by simp [F.ENG_n_CTRL_ENABLE, F.ENG_n_STATUS_DRAINING])
      ((drainEnd_engine s n).trans (endIf_of_drained h (by simp [engDrained, hwin, hsrc])))
  case ring =>
    intro k s hq h hring
    exact drains_of hq (by simp [F.HWN_RINGk_CTRL_ENABLE, F.HWN_RINGk_STATUS_DRAINING])
      ((drainEnd_ring s k).trans (endIf_of_drained h (by simp [ringDrained, hring])))
  case hwn =>
    intro s hq h hring hrec
    have hend : drainEnd s .hwn = hwnDrainEnd s := endIf_of_drained h (hwnDrained_of hring hrec)
    have ⟨hen, hdr⟩ := flags_hwnDrainEnd s
    have honly := onlyRegs_hwnDrainEnd s
    exact completes_eq_quiet rfl hend ((honly.1 .evq (by decide)).trans hq) ⟨hen, hdr, rings_hwnDrainEnd s, honly⟩
  case tt =>
    intro s hq h hdone
    have hen : flag (ttStopped s) F.TT_CTRL_ENABLE = false := flag_plainEnd_enable s (by decide)
    have hdr : flag (ttStopped s) F.TT_STATUS_DRAINING = false := flag_plainEnd_draining ..
    have honly := only_ttRelease (ttStopped s)
    have hend : drainEnd s .tt = ttRelease (ttStopped s) := endIf_of_drained h (by simp [ttDrained, hdone])
    have hall := only_ttDrainEnd s
    refine completes_eq_quiet rfl hend ((hall.1 .evq (by decide)).trans hq) ⟨?_, ?_, ?_, ?_, hall⟩
    · exact (congrArg (· != 0) (honly.2 F.TT_CTRL_ENABLE (by decide))).trans hen
    · exact (congrArg (· != 0) (honly.2 F.TT_STATUS_DRAINING (by decide))).trans hdr
    · exact reserved_ttRelease hen
    · intro hu
      rw [ttRelease_keeps (s := ttStopped s) hu]
      exact (onlyRegs_plainEnd ..).2 _ (by decide)
  case port =>
    intro p s hq hplain h hjournal
    have hend : drainEnd s (.port p) = portDrained s p := if_pos (by simp [h, hjournal])
    exact completes_eq_quiet rfl (hend.trans (portDrained_plain hplain p)) hq (portIdles_spec s p)

end

section
/-! SUPPORT. The reset with the reach of PIN while every self-test unit is idle, and the entry to OFF (R427, R449). -/
namespace Sys2Proof.Machine

/-! ### Loops and fields carried over -/

theorem forEach_fixed {α : Type} {f : State → α → State} {s : State} {l : List α} (h : ∀ x ∈ l, f s x = s) : forEach l f s = s := by
  induction l with
  | nil => rfl
  | cons x xs ih =>
    refine Eq.trans (congrArg (forEach xs f) (h x List.mem_cons_self)) (ih fun y hy => h y (List.mem_cons_of_mem _ hy))

theorem flag_eq_of_fld {s t : State} {f : Fld} (h : fld t f = fld s f) : flag t f = flag s f :=
  congrArg (· != 0) h

theorem onlyRegs_carry (s t : State) (fs : List Fld) : Only [] fs t (carry s fs t) := by
  have hstep : ∀ (l : List Fld) (u : State), l ⊆ fs → Only [] fs t u → Only [] fs t (carry s l u) := by
    intro l
    induction l with
    | nil => exact fun u _ h => h
    | cons f l ih => exact fun u hl h => ih _ (List.subset_of_cons_subset hl) (h.setFld (hl List.mem_cons_self) _)
  exact hstep fs t (List.Subset.refl fs) (.refl ..)

/-- A field carried over reads as in the state it comes from. -/
theorem fld_carry {s t : State} {f : Fld} {fs : List Fld} (hf : f ∈ fs) (hk : ∀ g ∈ fs, g.key = f.key → g = f) :
    fld (carry s fs t) f = fld s f := by
  induction fs generalizing t with
  | nil => cases hf
  | cons g l ih =>
    by_cases hm : f ∈ l
    · exact ih hm fun x hx => hk x (List.mem_cons_of_mem _ hx)
    · obtain rfl : f = g := (List.mem_cons.1 hf).resolve_right hm
      refine ((onlyRegs_carry s (setFld t f (fld s f)) l).2 f ?_).trans ?_
      · simp only [List.mem_map, not_exists, not_and]
        intro x hx hxk
        exact hm (hk x (List.mem_cons_of_mem _ hx) hxk ▸ hx)
      · rw [fld_setFld_same, Nat.mod_eq_of_lt (fld_lt s f)]

/-! ### The reach of PIN -/

/-- The state of which a reset with the reach of PIN keeps parts: event 0x0701 of each region is raised. -/
def withRegionsGone (s : State) : State := { s with evq := s.evq ++ regionGone s }

theorem forEach_raise (l : List Nat) (g : State → Nat → List (Nat × Nat)) (hg : ∀ (s : State) q, g { s with evq := q } = g s) (s : State)
    (c : Nat) : forEach l (fun s r => raise s c (g s r)) s = { s with evq := s.evq ++ l.map fun r => ev c (g s r) } := by
  induction l generalizing s with
  | nil => simp [forEach]
  | cons r l ih =>
    refine (ih (raise s c (g s r))).trans ?_
    simp [raise, ev, hg]

theorem unitHalts_idle {s : State} (h : UnitsIdle s) (p : Nat → Bool) : forEach ([0, 1, 2, 6, 7, 8].filter p) unitHalt s = s := by
  refine forEach_fixed fun u hu => if_pos ?_
  have hlt : u < 9 := by
    have hm := List.mem_of_mem_filter hu
    simp only [List.mem_cons, List.not_mem_nil, or_false] at hm
    omega
  exact h ⟨u, hlt⟩

theorem carryTests_idle {s : State} (h : UnitsIdle s) (t : State) : carryTests s t = t := by
  have hnone : [0, 1, 2, 6, 7, 8].filter (fun u => unitState s u == uRESTORE && !s.bst.startup.contains u) = [] := by
    refine List.filter_eq_nil_iff.2 fun u hu => ?_
    have hlt : u < 9 := by
      simp only [List.mem_cons, List.not_mem_nil, or_false] at hu
      omega
    simp [show unitState s u = 0 from h ⟨u, hlt⟩, uRESTORE]
  rw [carryTests, hnone]
  rfl

/-- The state at the reach of PIN, before the key slots and the lock state are shown. -/
def pinCarried (s : State) : State := carry s porFields (pinBase (withRegionsGone s))

theorem pinReset_idle {s : State} (h : UnitsIdle s) :
    pinReset s = lockFromFuses (setFld (showKeys (pinCarried s)) F.GLB_NMI_STATUS_FAULT (b2n ((pinCarried s).rst.fault.contains 1))) := by
  have hgone : forEach ((List.range 72).filter fun r => regState s r != gEMPTY)
      (fun s r => raise s 0x0701 [(1, r), (1, regState s r), (1, gEMPTY)]) s = withRegionsGone s :=
    forEach_raise _ (fun s r => [(1, r), (1, regState s r), (1, gEMPTY)]) (fun _ _ => rfl) s 0x0701
  simp only [pinReset, unitHalts_idle h, carryTests_idle h, hgone]
  rfl

/-- The register fields that show what the fuse shadows hold. -/
def shadowFlds : List Fld := F.DBG_STATUS_LOCKSTATE :: keyFlds

theorem only_showKeys {ps : List Part} {fs : List Fld} {o s : State} (h : Only ps fs o s) (hf : keyFlds ⊆ fs) : Only ps fs o (showKeys s) :=
  ((((h.setFld (hf (by simp [keyFlds])) _).setFld (hf (by simp [keyFlds])) _).setFld (hf (by simp [keyFlds])) _).setFld
    (hf (by simp [keyFlds])) _).setFld (hf (by simp [keyFlds])) _

theorem only_pinReset {s : State} (h : UnitsIdle s) : Only [] (F.GLB_NMI_STATUS_FAULT :: shadowFlds) (pinCarried s) (pinReset s) := by
  rw [pinReset_idle h]
  exact ((only_showKeys (.refl ..) (by simp [shadowFlds])).setFld (by simp) _).setFld (by simp [shadowFlds]) _

theorem only_pinCarried (s : State) : Only [] porFields (pinBase (withRegionsGone s)) (pinCarried s) := onlyRegs_carry ..

theorem evq_pinReset {s : State} (h : UnitsIdle s) : (pinReset s).evq = s.evq ++ regionGone s :=
  ((only_pinReset h).1 .evq (by decide)).trans ((only_pinCarried s).1 .evq (by decide))

theorem regions_pinReset {s : State} (h : UnitsIdle s) : (pinReset s).regions = [] :=
  ((only_pinReset h).1 .regions (by decide)).trans ((only_pinCarried s).1 .regions (by decide))

/-- A field that nothing keeps reads its reset value. -/
theorem fld_pinReset_zero {s : State} (h : UnitsIdle s) {f : Fld} (hf : f.key ∉ (F.GLB_NMI_STATUS_FAULT :: shadowFlds).map Fld.key)
    (hp : f.key ∉ porFields.map Fld.key) : fld (pinReset s) f = f.reset % 2 ^ f.width :=
  ((only_pinReset h).2 f hf).trans ((only_pinCarried s).2 f hp)

theorem fld_pinReset_kept {s : State} (h : UnitsIdle s) {f : Fld} (hf : f.key ∉ (F.GLB_NMI_STATUS_FAULT :: shadowFlds).map Fld.key)
    (hp : f ∈ porFields) (hk : ∀ g ∈ porFields, g.key = f.key → g = f) : fld (pinReset s) f = fld s f :=
  ((only_pinReset h).2 f hf).trans (fld_carry hp hk)

/-! ### OFF -/

/-- The register fields that the entry to OFF changes beside the reach of PIN. -/
def offFlds : List Fld := [F.RST_STATUS_FUSE_DONE, F.GLB_ID_GRADE, F.PWR_RAILS_EN, F.PWR_RAILS_PGOOD, F.BST_FUSE_USED, F.BST_FUSE_BAD]

/-- What OFF loses beside register fields. -/
def offParts (s : State) : State :=
  { s with
    mem := { scram := (List.range 192).map fun k => (k, s.free + 1) }
    free := s.free + 97
    engines := s.engines.map fun e => (e.1, { e.2 with sp := [], spPoison := [], spDraw := s.free + 2 + e.1 })
    sbx := { s.sbx with shadow := [], shSvn := 0 }
    bst := { s.bst with fused := [] } }

theorem only_offBase (s : State) : Only [] (offFlds ++ shadowFlds) (offParts s) (offBase s) := by
  have h : Only [] (offFlds ++ shadowFlds) (offParts s) (offParts s) := .refl ..
  exact (only_showKeys ((((((h.setFld (by simp [offFlds]) 0).setFld (by simp [offFlds]) 0).setFld (by simp [offFlds]) 0).setFld
    (by simp [offFlds]) 0).setFld (by simp [offFlds]) 0).setFld (by simp [offFlds]) 0) (by simp [shadowFlds])).setFld (by simp [shadowFlds]) _

/-- The registers of OFF, before the key slots and the lock state are shown. -/
def offZeroed (s : State) : State :=
  let s1 := setFld (setFld (setFld (offParts s) F.RST_STATUS_FUSE_DONE 0) F.GLB_ID_GRADE 0) F.PWR_RAILS_EN 0
  setFld (setFld (setFld s1 F.PWR_RAILS_PGOOD 0) F.BST_FUSE_USED 0) F.BST_FUSE_BAD 0

theorem fld_offZeroed (s : State) : fld (offZeroed s) F.RST_STATUS_FUSE_DONE = 0 ∧ fld (offZeroed s) F.PWR_RAILS_EN = 0
    ∧ fld (offZeroed s) F.PWR_RAILS_PGOOD = 0 := by
  refine ⟨?_, ?_, ?_⟩
  · exact fld_setFld_zero rfl (fld_setFld_zero rfl (fld_setFld_zero rfl (fld_setFld_zero rfl (fld_setFld_zero rfl (fld_setFld_zero_same ..)))))
  · exact fld_setFld_zero rfl (fld_setFld_zero rfl (fld_setFld_zero rfl (fld_setFld_zero_same ..)))
  · exact fld_setFld_zero rfl (fld_setFld_zero rfl (fld_setFld_zero_same ..))

theorem only_offBase_offZeroed (s : State) : Only [] shadowFlds (offZeroed s) (offBase s) :=
  (only_showKeys (.refl ..) (by simp [shadowFlds])).setFld (by simp [shadowFlds]) _

/-- The fields that the entry to OFF sets after what OFF loses. -/
def offShown : List Fld := [F.PWR_WAKE_FAIL_CAUSE, F.PWR_WAKE_FAIL_RAIL, F.PWR_STATUS_STATE, F.GLB_NMI_STATUS_FAULT]

/-- A state taken to OFF, with the causes that hold FAULT_N. -/
def offHeld (fault : List Nat) (t : State) : State :=
  { setFld (setFld t F.PWR_STATUS_STATE wOFF) F.GLB_NMI_STATUS_FAULT (b2n (!fault.isEmpty)) with
    pwr := {}
    rst := { t.rst with srcs := [], fault := fault } }

section
variable (fault : List Nat) (t : State)

theorem fld_offHeld {f : Fld} (h : f.key ≠ F.PWR_STATUS_STATE.key) (h' : f.key ≠ F.GLB_NMI_STATUS_FAULT.key) :
    fld (offHeld fault t) f = fld t f :=
  (fld_setFld_ne (setFld t F.PWR_STATUS_STATE wOFF) h' _).trans (fld_setFld_ne t h _)

theorem state_offHeld : fld (offHeld fault t) F.PWR_STATUS_STATE = 4 :=
  (fld_setFld_ne (setFld t F.PWR_STATUS_STATE wOFF) (by decide) _).trans (fld_setFld_same t _ _)

theorem fault_offHeld : flag (offHeld fault t) F.GLB_NMI_STATUS_FAULT = !fault.isEmpty := by
  have h : fld (offHeld fault t) F.GLB_NMI_STATUS_FAULT = b2n (!fault.isEmpty) % 2 :=
    fld_setFld_same (setFld t F.PWR_STATUS_STATE wOFF) _ _
  rw [flag, h]
  cases fault.isEmpty <;> rfl

theorem only_offHeld : Only [.pwr, .rst] [F.PWR_STATUS_STATE, F.GLB_NMI_STATUS_FAULT] t (offHeld fault t) := by
  have hset : Only [.pwr, .rst] [F.PWR_STATUS_STATE, F.GLB_NMI_STATUS_FAULT] t
      (setFld (setFld t F.PWR_STATUS_STATE wOFF) F.GLB_NMI_STATUS_FAULT (b2n (!fault.isEmpty))) :=
    ((Only.refl _ _ t).setFld (by simp) _).setFld (by simp) _
  refine hset.trans ⟨fun p hp => ?_, fun _ _ => rfl⟩
  cases p <;> simp [samePart, offHeld] at hp ⊢

theorem controllers_offHeld : (offHeld fault t).pwr = {} ∧ (offHeld fault t).rst.srcs = [] ∧ (offHeld fault t).rst.fault = fault :=
  ⟨rfl, rfl, rfl⟩

theorem lost_offParts : (offParts t).mem = { scram := (List.range 192).map fun k => (k, t.free + 1) }
    ∧ (offParts t).engines = t.engines.map (fun e => (e.1, { e.2 with sp := [], spPoison := [], spDraw := t.free + 2 + e.1 }))
    ∧ (offParts t).sbx.shadow = [] ∧ (offParts t).evq = t.evq ∧ (offParts t).regions = t.regions := ⟨rfl, rfl, rfl, rfl, rfl⟩

theorem only_offBase_fld {f : Fld} (h : f.key ∉ (offFlds ++ shadowFlds).map Fld.key) : fld (offBase t) f = fld t f :=
  (only_offBase t).2 f h

end

/-- The state in OFF before the power and reset controllers are set. -/
def offCarried (s t : State) : State := carry s [F.PWR_WAKE_FAIL_CAUSE, F.PWR_WAKE_FAIL_RAIL] (offBase t)

theorem enterOff_eq (s : State) : enterOff s = offHeld (s.rst.fault.filter (· != 0)) (offCarried s (pinReset s)) := rfl

theorem only_offCarried (s t : State) : Only [] [F.PWR_WAKE_FAIL_CAUSE, F.PWR_WAKE_FAIL_RAIL] (offBase t) (offCarried s t) := onlyRegs_carry ..

theorem only_off (fault : List Nat) (s t : State) : Only [.pwr, .rst] offShown (offBase t) (offHeld fault (offCarried s t)) :=
  ((only_offCarried s t).mono (by simp) (by simp [offShown])).trans ((only_offHeld fault _).mono (by simp) (by simp [offShown]))

theorem wakeFail_off (fault : List Nat) (s t : State) :
    fld (offHeld fault (offCarried s t)) F.PWR_WAKE_FAIL_CAUSE = fld s F.PWR_WAKE_FAIL_CAUSE
    ∧ fld (offHeld fault (offCarried s t)) F.PWR_WAKE_FAIL_RAIL = fld s F.PWR_WAKE_FAIL_RAIL :=
  ⟨(fld_offHeld _ _ (by decide) (by decide)).trans (fld_carry (by simp) (by decide)),
    (fld_offHeld _ _ (by decide) (by decide)).trans (fld_carry (by simp) (by decide))⟩

/-- A field that the entry to OFF does not touch reads what the reach of PIN leaves of it. -/
theorem fld_off (fault : List Nat) (s t : State) {f : Fld} (h : f.key ∉ (offShown ++ offFlds ++ shadowFlds).map Fld.key) :
    fld (offHeld fault (offCarried s t)) f = fld t f := by
  simp only [List.map_append, List.mem_append, not_or] at h
  obtain ⟨⟨hshown, hoff⟩, hshadow⟩ := h
  refine ((only_off fault s t).2 f hshown).trans (only_offBase_fld t ?_)
  simpa only [List.map_append, List.mem_append, not_or] using ⟨hoff, hshadow⟩

theorem part_off (fault : List Nat) (s t : State) {p : Part} (h : p ∉ [Part.regs, .pwr, .rst]) :
    samePart (offParts t) (offHeld fault (offCarried s t)) p :=
  OnlyParts.trans ((only_offBase t).1.mono (by simp)) (only_off fault s t).1 p h

theorem smGet_map_pair {α : Type} (l : List Nat) (v d : α) {k : Nat} (h : k ∈ l) : smGet (l.map fun k => (k, v)) k d = v := by
  induction l with
  | nil => cases h
  | cons a l ih =>
    rw [List.map_cons, smGet]
    split_ifs with hk
    · rfl
    · exact ih ((List.mem_cons.1 h).resolve_left hk)

theorem sp_lost (m : SMap Engine) (x : Nat) (n : Nat) :
    (smGet (m.map fun e : Nat × Engine => (e.1, { e.2 with sp := [], spPoison := [], spDraw := x + 2 + e.1 })) n {}).sp = [] := by
  induction m with
  | nil => rfl
  | cons a l ih =>
    rw [List.map_cons, smGet]
    split_ifs
    · rfl
    · exact ih

theorem regionGone_congr {s t : State} (h : ∀ r, regState t r = regState s r) : regionGone t = regionGone s := by
  simp only [regionGone, h]

theorem evq_enterOff {s : State} (h : UnitsIdle s) : (enterOff s).evq = s.evq ++ regionGone s := by
  have hpart : (offHeld _ (offCarried s (pinReset s))).evq = (offParts (pinReset s)).evq :=
    part_off (s.rst.fault.filter (· != 0)) s (pinReset s) (p := .evq) (by decide)
  rw [enterOff_eq, hpart, (lost_offParts _).2.2.2.1, evq_pinReset h]

theorem consec_enterOff {s : State} (h : UnitsIdle s) : fld (enterOff s) F.PWR_WAKE_FAIL_CONSEC = fld s F.PWR_WAKE_FAIL_CONSEC := by
  rw [enterOff_eq, fld_off _ _ _ (by decide), fld_pinReset_kept h (by decide) (by simp [porFields]) (by decide)]

theorem wakeFail_enterOff (s : State) : fld (enterOff s) F.PWR_WAKE_FAIL_CAUSE = fld s F.PWR_WAKE_FAIL_CAUSE
    ∧ fld (enterOff s) F.PWR_WAKE_FAIL_RAIL = fld s F.PWR_WAKE_FAIL_RAIL := by
  rw [enterOff_eq]
  exact wakeFail_off ..

/-- The device in OFF, where the reach of PIN has left PHASE 0 and no region. -/
theorem inOff_offHeld (fault : List Nat) (s t : State) (hphase : fld t F.PWR_STATUS_PHASE = 0) (hregions : t.regions = []) :
    InOff fault (offHeld fault (offCarried s t)) := by
  have hpart := fun p h => part_off fault s t (p := p) h
  have hmem := hpart .mem (by decide)
  have heng := hpart .engines (by decide)
  have hsbx := hpart .sbx (by decide)
  have hreg := hpart .regions (by decide)
  obtain ⟨hm, he, hs, -, hr⟩ := lost_offParts t
  have hfld := fun f h h' => ((only_off fault s t).2 f h).trans ((only_offBase_offZeroed t).2 f h')
  obtain ⟨hfuse, hen, hgood⟩ := fld_offZeroed t
  obtain ⟨hpwr, hsrcs, hfault⟩ := controllers_offHeld fault (offCarried s t)
  refine ⟨state_offHeld .., (fld_off _ _ _ (by decide)).trans hphase, hpwr, (hfld _ (by decide) (by decide)).trans hen,
    (hfld _ (by decide) (by decide)).trans hgood, flag_of_fld ((hfld _ (by decide) (by decide)).trans hfuse),
    (congrArg Sbx.shadow hsbx).trans hs, congrArg Memory.cells (Eq.trans hmem hm), fun k => ?_, fun n => ?_,
    Eq.trans hreg (hr.trans hregions), hsrcs, hfault, fault_offHeld ..⟩
  · rw [congrArg Memory.scram (Eq.trans hmem hm), smGet_map_pair _ _ _ (List.mem_range.2 k.isLt)]
    omega
  · rw [engine, Eq.trans heng he, sp_lost]

theorem inOff_enterOff {s : State} (h : UnitsIdle s) : InOff (s.rst.fault.filter (· != 0)) (enterOff s) := by
  rw [enterOff_eq]
  exact inOff_offHeld _ _ _ (fld_pinReset_zero h (by decide) (by decide)) (regions_pinReset h)

end Sys2Proof.Machine
end

section
/-! SUPPORT. Entries and wakes of power states: the refusals, the steps of an entry, and how a wake begins (R443, R444, R446). -/
namespace Sys2Proof.Machine

variable {s : State}

theorem only_setPwr {ps : List Part} {fs : List Fld} {o s : State} (h : Only ps fs o s) (hp : .pwr ∈ ps) (x : Power) :
    Only ps fs o (setPwr s x) :=
  ⟨fun p hn => by
    have hs := h.1 p hn
    cases p
    case pwr => exact absurd (List.mem_cons_of_mem _ hp) hn
    all_goals exact hs, h.2⟩

theorem only_setClk {ps : List Part} {fs : List Fld} {o s : State} (h : Only ps fs o s) (hp : .clk ∈ ps) (x : Clock) :
    Only ps fs o (setClk s x) :=
  ⟨fun p hn => by
    have hs := h.1 p hn
    cases p
    case clk => exact absurd (List.mem_cons_of_mem _ hp) hn
    all_goals exact hs, h.2⟩

/-! ### Refusals -/

/-- The state of a refused entry. -/
def entryDenied (s : State) (t r : Nat) : State := setFld (setFld s F.PWR_CTRL_TARGET t) F.PWR_STATUS_REFUSE r

theorem powerEntry_refused {t r : Nat} (h1 : 1 ≤ t) (h4 : t ≤ 4) (hr : entryRefusal s t = r) (h0 : r ≠ 0) :
    powerEntry s t = raise (entryDenied s t r) 0x0302 [(1, r)] := by
  rw [powerEntry, hr, if_neg (by simp only [wOFF]; omega), if_neg (by simp only [wRUN]; omega), if_pos h0]
  rfl

theorem entryRefused_of {t : BitVec 3} {r : Nat} (hq : Quiet s) (h1 : 1 ≤ t.toNat) (h4 : t.toNat ≤ 4) (hr : entryRefusal s t.toNat = r)
    (h0 : r ≠ 0) (h16 : r < 16) : EntryRefused t r s := by
  refine completes_eq rfl (powerEntry_refused h1 h4 hr h0) (by simp [raise, entryDenied, setFld, ev, show s.evq = [] from hq]) ?_
  have honly : Only [.evq] [F.PWR_STATUS_REFUSE, F.PWR_CTRL_TARGET] s (raise (entryDenied s t.toNat r) 0x0302 [(1, r)]) :=
    (((Only.refl _ _ s).setFld (by simp) _).setFld (by simp) _).raise (by simp) _ _
  refine ⟨?_, ?_, honly.hush hq⟩
  · exact (fld_setFld_same (setFld s F.PWR_CTRL_TARGET t.toNat) _ r).trans (Nat.mod_eq_of_lt h16)
  · exact (fld_setFld_ne (setFld s F.PWR_CTRL_TARGET t.toNat) (by decide) r).trans
      ((fld_setFld_same s _ _).trans (Nat.mod_eq_of_lt t.isLt))

/-- What refuses a rest of SLEEP or deeper, once the controller takes requests and the device is in RUN. -/
theorem entryRefusal_rest {t : Nat} (hen : flag s F.PWR_CTRL_ENABLE = true) (hdr : flag s F.PWR_STATUS_DRAINING = false)
    (hstate : fld s F.PWR_STATUS_STATE = 0) (hphase : fld s F.PWR_STATUS_PHASE = 0) (hstep : s.pwr.step = 0) (h2 : 2 ≤ t) :
    entryRefusal s t =
      if flag s F.DSP_CTRL_ENABLE || flag s F.DSP_STATUS_DRAINING then 3
      else if flag s F.ANG_CTRL_ENABLE || fld s F.ANG_STATUS_RT_STATE != rSTOPPED then 4
      else if allPorts.any fun p => portState s p != pDISABLED then 5
      else if hostBusy s then 6
      else if t ≠ wOFF ∧ ((List.range 43).any fun k => lkState s k == kRETRAIN) = true then 7
      else 0 := by
  rw [entryRefusal, if_neg (by simp [hen, hdr]), if_neg (by simp [pwrPhase, pwrState, hphase, hstep, hstate, wRUN]),
    if_neg (by simp only [wSLEEP]; omega)]

theorem ports_disabled (h : ∀ p : Fin 4, fld s (F.WNG_Pp_STATUS_STATE p) = 0) :
    (allPorts.any fun p => portState s p != pDISABLED) = false := by
  refine List.any_eq_false.2 fun p hp => ?_
  have hlt : p < 4 := by
    simp only [allPorts, List.mem_cons, List.not_mem_nil, or_false] at hp
    omega
  simp [portState, h ⟨p, hlt⟩, pDISABLED]

theorem entryRefusal_mayRest {t : Nat} (hen : flag s F.PWR_CTRL_ENABLE = true) (hdr : flag s F.PWR_STATUS_DRAINING = false)
    (hstate : fld s F.PWR_STATUS_STATE = 0) (hphase : fld s F.PWR_STATUS_PHASE = 0) (hstep : s.pwr.step = 0) (h2 : 2 ≤ t)
    (h : MayRest s) : entryRefusal s t = 0 := by
  obtain ⟨hdsp, hddr, hang, hrt, hports, hrings, hrec, hrekey, hopen, hver, hlinks⟩ := h
  have hbusy : hostBusy s = false := by
    have hany : ((List.range 16).any fun k => flag s (F.HWN_RINGk_CTRL_ENABLE k)) = false :=
      List.any_eq_false.2 fun k hk => by simp [hrings ⟨k, List.mem_range.1 hk⟩]
    simp [hostBusy, hany, hrec, rekeying, hrekey, slotsHeld, sOPEN, sVERIFYING, hopen, hver]
  have hlink : ((List.range 43).any fun k => lkState s k == kRETRAIN) = false :=
    List.any_eq_false.2 fun k hk => by simpa [lkState, kRETRAIN] using hlinks ⟨k, List.mem_range.1 hk⟩
  rw [entryRefusal_rest hen hdr hstate hphase hstep h2, if_neg (by simp [hdsp, hddr]), if_neg (by simp [hang, hrt, rSTOPPED]),
    if_neg (by simp [ports_disabled hports]), if_neg (by simp [hbusy]), if_neg (by simp [hlink])]

/-- The state at the beginning of an entry. -/
def entryBegun (s : State) (t : Nat) : State :=
  setPwr (setFld (setFld (setFld s F.PWR_CTRL_TARGET t) F.PWR_STATUS_REFUSE 0) F.PWR_STATUS_PHASE 1) { step := 1, target := t }

theorem entryBegun_spec (s : State) (t : Nat) : fld (entryBegun s t) F.PWR_STATUS_PHASE = 1 ∧ fld (entryBegun s t) F.PWR_STATUS_REFUSE = 0
    ∧ fld (entryBegun s t) F.PWR_CTRL_TARGET = t % 8 ∧ (entryBegun s t).pwr = { step := 1, target := t }
    ∧ Only [.pwr] [F.PWR_STATUS_PHASE, F.PWR_STATUS_REFUSE, F.PWR_CTRL_TARGET] s (entryBegun s t) := by
  have hphase : ∀ r : State, fld (setPwr (setFld r F.PWR_STATUS_PHASE 1) { step := 1, target := t }) F.PWR_STATUS_PHASE = 1 := fun r =>
    fld_setFld_same r F.PWR_STATUS_PHASE 1
  have hrest : ∀ (r : State) (f : Fld), f.key ≠ F.PWR_STATUS_PHASE.key →
      fld (setPwr (setFld r F.PWR_STATUS_PHASE 1) { step := 1, target := t }) f = fld r f := fun r f h => fld_setFld_ne r h 1
  refine ⟨hphase _, (hrest _ _ (by decide)).trans (fld_setFld_zero_same _ _), (hrest _ _ (by decide)).trans ?_, rfl, ?_⟩
  · exact (fld_setFld_ne _ (by decide) 0).trans (fld_setFld_same s F.PWR_CTRL_TARGET t)
  · exact only_setPwr ((((Only.refl _ _ s).setFld (by simp) _).setFld (by simp) _).setFld (by simp) _) (by simp) _

theorem entryBegins_of {t : BitVec 3} (hq : Quiet s) (h1 : 1 ≤ t.toNat) (h4 : t.toNat ≤ 4) (hr : entryRefusal s t.toNat = 0) :
    EntryBegins t s := by
  obtain ⟨hphase, hrefuse, htarget, hpwr, honly⟩ := entryBegun_spec s t.toNat
  have hbegin : powerEntry s t.toNat = entryBegun s t.toNat := by
    rw [powerEntry, hr, if_neg (by simp only [wOFF]; omega), if_neg (by simp only [wRUN]; omega), if_neg (by simp)]
    rfl
  exact completes_eq_quiet rfl hbegin ((honly.1 .evq (by decide)).trans hq)
    ⟨hphase, hrefuse, htarget.trans (Nat.mod_eq_of_lt t.isLt), hpwr, honly⟩

/-! ### How a wake begins -/

/-- The state with a wake source recorded. -/
def wakeCaused (s : State) (src : Nat) : State := setFld s F.PWR_WAKE_CAUSE_CAUSE (fld s F.PWR_WAKE_CAUSE_CAUSE ||| 2 ^ src)

theorem wakeSource_starts {src : Nat} (hen : bitOf (fld s F.PWR_WAKE_EN_SOURCES) src = true ∨ src = 0) (hphase : pwrPhase s = 0)
    (hlisten : sourceListens (pwrState s) src = true) : wakeSource s src = wakeStart (wakeCaused s src) := by
  have hwake : ¬(bitOf (fld s F.PWR_WAKE_EN_SOURCES) src = false ∧ src ≠ 0) := by
    rintro ⟨hoff, hne⟩
    rcases hen with h | h <;> simp_all
  rw [wakeSource, if_neg hwake, if_neg (by omega), if_neg (by simp [hlisten]), if_neg (by omega)]
  rfl

/-- The state in which the clocks of a wake run: FRO starts where the device leaves SLEEP. -/
def wakeClocks (s : State) : State := if pwrState s = wSLEEP then froStart s else s

theorem wakeStart_eq (s : State) :
    wakeStart s = setPwr (setFld (wakeClocks s) F.PWR_STATUS_PHASE 2) { left := pwrState s, step := firstWakeStep (pwrState s) } := rfl

theorem only_froStart {ps : List Part} {fs : List Fld} {o s : State} (h : Only ps fs o s) (hp : .clk ∈ ps) (hf : froFlds ⊆ fs) :
    Only ps fs o (froStart s) :=
  ((only_setClk h hp _).setFld (hf (by simp [froFlds])) _).setFld (hf (by simp [froFlds])) _

/-- The parts in which a wake begins. -/
abbrev wakeParts (left : Nat) : List Part := [.pwr] ++ if left = 2 then [.clk] else []

theorem only_wakeClocks {left : Nat} {fs : List Fld} {o s : State} (hleft : pwrState s = left) (hfro : left = 2 → froFlds ⊆ fs)
    (h : Only (wakeParts left) fs o s) : Only (wakeParts left) fs o (wakeClocks s) := by
  unfold wakeClocks
  split
  · have h2 : left = 2 := hleft.symm.trans ‹_›
    exact only_froStart h (by simp [wakeParts, h2]) (hfro h2)
  · exact h

theorem fld_wakeClocks (s : State) {f : Fld} (h : f.key ∉ froFlds.map Fld.key) : fld (wakeClocks s) f = fld s f := by
  unfold wakeClocks
  split
  · exact (only_froStart (ps := [.clk]) (.refl ..) (by simp) (List.Subset.refl _)).2 f h
  · rfl

theorem evq_wakeStart (s : State) : (wakeStart s).evq = s.evq := by
  rw [wakeStart_eq]
  unfold wakeClocks
  split <;> rfl

/-- A wake begins in a state that has recorded its source. -/
theorem wakeBegins_wakeStart {o t : State} {src left : Nat} {fs : List Fld} (hleft : pwrState t = left)
    (hcause : fld t F.PWR_WAKE_CAUSE_CAUSE = (fld o F.PWR_WAKE_CAUSE_CAUSE ||| 2 ^ src) % 64)
    (h : Only [] (F.PWR_WAKE_CAUSE_CAUSE :: fs) o t) (hfro : left = 2 → froFlds ⊆ fs) :
    WakeBegins src left (firstWakeStep left) fs o (wakeStart t) := by
  have honly : Only (wakeParts left) ([F.PWR_STATUS_PHASE, F.PWR_WAKE_CAUSE_CAUSE] ++ fs) o (setFld (wakeClocks t) F.PWR_STATUS_PHASE 2) :=
    (only_wakeClocks hleft (fun h2 => List.Subset.trans (hfro h2) (by simp)) (h.mono (by simp) (by simp))).setFld (by simp) 2
  rw [wakeStart_eq, hleft]
  refine ⟨fld_setFld_same (wakeClocks t) F.PWR_STATUS_PHASE 2, rfl, ?_, only_setPwr honly (by simp) _⟩
  exact (fld_setFld_ne (wakeClocks t) (g := F.PWR_WAKE_CAUSE_CAUSE) (f := F.PWR_STATUS_PHASE) (by decide) 2).trans ((fld_wakeClocks t (by decide)).trans hcause)

theorem wakeStart_deep {t : State} (h : fld t F.PWR_STATUS_STATE = 3) : fld (wakeStart t) F.PWR_STATUS_STATE = 3
    ∧ fld (wakeStart t) F.PWR_STATUS_PHASE = 2 ∧ (wakeStart t).pwr = { left := 3, step := 7 } := by
  have hleft : pwrState t = 3 := h
  have hclocks : wakeClocks t = t := if_neg (by rw [hleft]; decide)
  rw [wakeStart_eq, hclocks, hleft]
  exact ⟨(fld_setFld_ne t (g := F.PWR_STATUS_STATE) (f := F.PWR_STATUS_PHASE) (by decide) 2).trans h,
    fld_setFld_same t F.PWR_STATUS_PHASE 2, rfl⟩

theorem wakeBegins_caused {src left : Nat} {fs : List Fld} (hleft : pwrState s = left) (hfro : left = 2 → froFlds ⊆ fs) :
    WakeBegins src left (firstWakeStep left) fs s (wakeStart (wakeCaused s src)) :=
  wakeBegins_wakeStart ((fld_setFld_ne s (by decide) _).trans hleft) (fld_setFld_same s _ _) ((Only.refl _ _ s).setFld (by simp) _) hfro

/-! ### The steps of an entry -/

theorem powerEntryStep_noEntry (h : pwrPhase s ≠ 1) (ok eng : Bool) : powerEntryStep s ok eng = s := if_pos h

section
variable (h : pwrPhase s = 1) (ok eng : Bool)
include h

theorem powerEntryStep_gates (hk : s.pwr.step = 1) : powerEntryStep s ok eng =
    if ok then setPwr s { s.pwr with step := 2, closed := true }
    else entryWithdrawn (raise (satInc s F.CLK_GATE_TO_COUNT) 0x0205 [(1, if eng then 0x18 else 7)]) := by
  rw [powerEntryStep, if_neg (by simp [h])]
  simp only [hk]

theorem powerEntryStep_plls (hk : s.pwr.step = 2) :
    powerEntryStep s ok eng = if s.pwr.target = wIDLE then entryEnd (pllsOff s) else entryStep (pllsOff s) 3 := by
  rw [powerEntryStep, if_neg (by simp [h])]
  simp only [hk]

/-- The state of step 3 with the event of a voltage that does not answer. -/
def voltageAsked (s : State) (ok : Bool) : State := if ok then s else raise s 0x0206 []

/-- SYSPLL0 stops too. -/
def syspllsOff (s : State) : State := setClk s { s.clk with plls := [] }

theorem powerEntryStep_voltage (hk : s.pwr.step = 3) : powerEntryStep s ok eng =
    if !mayStop s then s
    else if s.pwr.target = wSLEEP then entryEnd (syspllsOff (voltageAsked s ok))
    else entryStep (syspllsOff (voltageAsked s ok)) (if s.pwr.target = wDEEP then 4 else 5) := by
  rw [powerEntryStep, if_neg (by simp [h])]
  simp only [hk]
  rfl

theorem powerEntryStep_end (hk : s.pwr.step = 4 ∨ s.pwr.step = 5) : powerEntryStep s ok eng = entryEnd s := by
  rw [powerEntryStep, if_neg (by simp [h])]
  rcases hk with hk | hk <;> simp only [hk]

end

theorem entryWithdrawn_spec (t : State) : fld (entryWithdrawn t) F.PWR_STATUS_REFUSE = 8 ∧ fld (entryWithdrawn t) F.PWR_STATUS_PHASE = 0
    ∧ (entryWithdrawn t).pwr = { t.pwr with step := 0, closed := false }
    ∧ (entryWithdrawn t).evq = t.evq ++ [ev 0x0302 [(1, 8)]]
    ∧ Only [.evq, .pwr] [F.PWR_STATUS_REFUSE, F.PWR_STATUS_PHASE] t (entryWithdrawn t) := by
  have hphase : ∀ r : State, fld (setPwr (setFld r F.PWR_STATUS_PHASE 0) { t.pwr with step := 0, closed := false }) F.PWR_STATUS_PHASE = 0 :=
    fun r => fld_setFld_zero_same r F.PWR_STATUS_PHASE
  have hrefuse : ∀ r : State, fld (setPwr (setFld (setFld r F.PWR_STATUS_REFUSE 8) F.PWR_STATUS_PHASE 0)
      { t.pwr with step := 0, closed := false }) F.PWR_STATUS_REFUSE = 8 :=
    fun r => (fld_setFld_ne (setFld r F.PWR_STATUS_REFUSE 8) (g := F.PWR_STATUS_REFUSE) (f := F.PWR_STATUS_PHASE) (by decide) 0).trans
      (fld_setFld_same r _ 8)
  exact ⟨hrefuse _, hphase _, rfl, rfl,
    only_setPwr ((((Only.refl _ _ t).raise (by simp) _ _).setFld (by simp) _).setFld (by simp) _) (by simp) _⟩

/-- An entry to a state above OFF ends, with no wake source waiting. -/
def entryEnded (s : State) : State :=
  setPwr (setFld (setFld (raise s 0x0301 [(1, wRUN), (1, s.pwr.target)]) F.PWR_STATUS_STATE s.pwr.target) F.PWR_STATUS_PHASE 0) {}

theorem entryEnd_quiet (ht : s.pwr.target ≠ wOFF) (hl : s.pwr.late = false) (hd : flag s F.PWR_STATUS_DRAINING = false) :
    entryEnd s = entryEnded s := by
  simp [entryEnd, entryEnded, ht, hl, hd]

theorem entryEnd_draining (ht : s.pwr.target ≠ wOFF) (hl : s.pwr.late = false) (hd : flag s F.PWR_STATUS_DRAINING = true) :
    entryEnd s = plainEnd F.PWR_CTRL_ENABLE F.PWR_STATUS_DRAINING (entryEnded s) := by
  simp [entryEnd, entryEnded, plainEnd, ht, hl, hd]

theorem entryEnd_late (ht : s.pwr.target ≠ wOFF) (hl : s.pwr.late = true) (hd : flag s F.PWR_STATUS_DRAINING = false) :
    entryEnd s = wakeStart (entryEnded s) := by
  simp [entryEnd, entryEnded, ht, hl, hd]

theorem entryEnd_off (ht : s.pwr.target = wOFF) (hl : s.pwr.late = false) :
    entryEnd s = enterOff (raise s 0x0301 [(1, wRUN), (1, wOFF)]) := by
  simp [entryEnd, ht, hl]

theorem only_entryEnded {ps : List Part} {fs : List Fld} {o s : State} (h : Only ps fs o s) (he : .evq ∈ ps) (hp : .pwr ∈ ps)
    (hs : F.PWR_STATUS_STATE ∈ fs) (hf : F.PWR_STATUS_PHASE ∈ fs) : Only ps fs o (entryEnded s) :=
  only_setPwr (((h.raise he _ _).setFld hs _).setFld hf _) hp _

theorem entryEnded_spec (s : State) (h : s.pwr.target < 8) : fld (entryEnded s) F.PWR_STATUS_STATE = s.pwr.target
    ∧ fld (entryEnded s) F.PWR_STATUS_PHASE = 0 ∧ (entryEnded s).pwr = {} ∧ (entryEnded s).clk = s.clk
    ∧ (entryEnded s).evq = s.evq ++ [ev 0x0301 [(1, wRUN), (1, s.pwr.target)]] := by
  have hstate : ∀ t : State, fld (setPwr (setFld (setFld t F.PWR_STATUS_STATE s.pwr.target) F.PWR_STATUS_PHASE 0) {}) F.PWR_STATUS_STATE
      = s.pwr.target := fun t =>
    (fld_setFld_ne (setFld t F.PWR_STATUS_STATE s.pwr.target) (g := F.PWR_STATUS_STATE) (f := F.PWR_STATUS_PHASE) (by decide) 0).trans
      ((fld_setFld_same t _ _).trans (Nat.mod_eq_of_lt h))
  have hphase : ∀ t : State, fld (setPwr (setFld t F.PWR_STATUS_PHASE 0) {}) F.PWR_STATUS_PHASE = 0 := fun t =>
    fld_setFld_same t F.PWR_STATUS_PHASE 0
  exact ⟨hstate _, hphase _, rfl, rfl, rfl⟩

/-- Fabric PLLs lose their lock. -/
def locksLost (l : List Nat) (s : State) : State := forEach l (fun s n => setFld s (F.CLK_FPLLn_LOCKED n) 0) s

theorem pllsOff_eq (s : State) : pllsOff s = locksLost (List.range 24) (setClk s { s.clk with plls := s.clk.plls.filter (· != 1) }) := rfl

section
variable (l : List Nat) (s : State)

theorem only_locksLost : Only [] (l.map F.CLK_FPLLn_LOCKED) s (locksLost l s) := onlyRegs_forEach_setFld F.CLK_FPLLn_LOCKED 0 l s

theorem fld_locksLost {n : Nat} (h : n ∈ l) : fld (locksLost l s) (F.CLK_FPLLn_LOCKED n) = 0 :=
  forEach_reaches (P := fun t => fld t (F.CLK_FPLLn_LOCKED n) = 0) (step := fun s n => setFld s (F.CLK_FPLLn_LOCKED n) 0)
    (fun t => fld_setFld_zero_same t _) (fun _ m ht => fld_setFld_zero (f := F.CLK_FPLLn_LOCKED m) rfl ht) h s

end

theorem only_pllsOff {ps : List Part} {fs : List Fld} {o s : State} (h : Only ps fs o s) (hc : .clk ∈ ps) (hf : lockFlds ⊆ fs) :
    Only ps fs o (pllsOff s) := by
  rw [pllsOff_eq]
  exact (only_setClk h hc _).trans ((only_locksLost ..).mono (by simp) hf)

theorem locks_pllsOff (s : State) : ∀ f ∈ lockFlds, flag (pllsOff s) f = false := by
  intro f hf
  obtain ⟨n, hn, rfl⟩ := List.mem_map.1 hf
  rw [pllsOff_eq]
  exact flag_of_fld (fld_locksLost _ _ hn)

theorem clk_pllsOff (s : State) : (pllsOff s).clk = { s.clk with plls := s.clk.plls.filter (· != 1) } := by
  rw [pllsOff_eq]
  exact (only_locksLost ..).1 .clk (by simp)

theorem lock_not_state {f : Fld} (h : f ∈ lockFlds) : f.key ∉ [F.PWR_STATUS_STATE, F.PWR_STATUS_PHASE].map Fld.key := by
  obtain ⟨n, hn, rfl⟩ := List.mem_map.1 h
  have hlt : (F.CLK_FPLLn_LOCKED n).key < 1572897 := by
    have hn := List.mem_range.1 hn
    change 1050625 + 32 * n < 1572897
    omega
  intro hm
  simp only [List.map_cons, List.map_nil, List.mem_cons, List.not_mem_nil, or_false] at hm
  rcases hm with h | h <;> simp [h, F.PWR_STATUS_STATE, F.PWR_STATUS_PHASE] at hlt

theorem inOff_hush {fault : List Nat} {u : State} (h : InOff fault u) : InOff fault (hush u) := h

/-- A device that enters OFF, with what held FAULT_N before. -/
theorem inOff_hush_enterOff {fault : List Nat} {t : State} (h : UnitsIdle t) (hf : t.rst.fault = fault) :
    InOff (fault.filter (· != 0)) (hush (enterOff t)) := by
  subst hf
  exact inOff_hush (inOff_enterOff h)

theorem parts_syspllsOff (s : State) (ok : Bool) : OnlyParts [.evq, .clk] s (syspllsOff (voltageAsked s ok)) := by
  cases ok <;> (intro p hp; cases p <;> simp [samePart, syspllsOff, voltageAsked, setClk, raise] at hp ⊢)

theorem syspllsOff_spec (s : State) (ok : Bool) : (syspllsOff (voltageAsked s ok)).pwr = s.pwr
    ∧ (syspllsOff (voltageAsked s ok)).evq = s.evq ++ (if ok then [] else [ev 0x0206 []])
    ∧ flag (syspllsOff (voltageAsked s ok)) F.PWR_STATUS_DRAINING = flag s F.PWR_STATUS_DRAINING
    ∧ (syspllsOff (voltageAsked s ok)).clk = { s.clk with plls := [] } := by
  cases ok
  · exact ⟨rfl, rfl, rfl, rfl⟩
  · exact ⟨rfl, (List.append_nil _).symm, rfl, rfl⟩

theorem only_syspllsOff {ps : List Part} {fs : List Fld} {o s : State} (h : Only ps fs o s) (he : .evq ∈ ps) (hc : .clk ∈ ps) (ok : Bool) :
    Only ps fs o (syspllsOff (voltageAsked s ok)) :=
  only_setClk (.ite h (h.raise he _ _)) hc _

theorem rest_pllsOff (s : State) : (pllsOff s).pwr = s.pwr ∧ (pllsOff s).evq = s.evq
    ∧ flag (pllsOff s) F.PWR_STATUS_DRAINING = flag s F.PWR_STATUS_DRAINING := by
  have h := only_pllsOff (Only.refl [.clk] lockFlds s) (by simp) (List.Subset.refl _)
  exact ⟨h.1 .pwr (by decide), h.1 .evq (by decide), flag_eq_of_fld (h.2 _ (by decide))⟩

end Sys2Proof.Machine
end

section
open Sys2Proof Sys2Proof.Machine

/-- Settles O53, request by request and step by step. -/
theorem powerStatesAreEntered : Obligations.PowerStatesAreEntered := by
  unfold Obligations.PowerStatesAreEntered
  refine ⟨?disabled, ?busy, ?dispatcher, ?angle, ?ports, ?host, ?idle, ?deeper, ?run, ?software, ?noEntry, ?gates, ?toIdle, ?pllsStop,
    ?toSleep, ?waits, ?pllStops, ?toDeep, ?toOff, ?late, ?disable, ?disableLater⟩
  case disabled =>
    intro t s hq h1 h4 hoff
    exact entryRefused_of hq h1 h4 (by simp [entryRefusal, hoff]) (by decide) (by decide)
  case busy =>
    intro t s hq h1 h4 hen hdr hbusy
    refine entryRefused_of hq h1 h4 ?_ (by decide) (by decide)
    have hor : pwrPhase s ≠ 0 ∨ s.pwr.step ≠ 0 ∨ pwrState s ≠ wRUN := hbusy.elim (fun h => .inr (.inr h)) .inl
    simp [entryRefusal, hen, hdr, hor]
  case dispatcher =>
    rintro t s ⟨hq, hstate, hphase, hstep⟩ h2 h4 hen hdr hdsp
    exact entryRefused_of hq (by omega) h4
      (by rw [entryRefusal_rest hen hdr hstate hphase hstep h2, if_pos (by simpa using hdsp)]) (by decide) (by decide)
  case angle =>
    rintro t s ⟨hq, hstate, hphase, hstep⟩ h2 h4 hen hdr hdsp hddr hang
    exact entryRefused_of hq (by omega) h4
      (by rw [entryRefusal_rest hen hdr hstate hphase hstep h2, if_neg (by simp [hdsp, hddr]), if_pos (by simpa [rSTOPPED] using hang)])
      (by decide) (by decide)
  case ports =>
    rintro t p s ⟨hq, hstate, hphase, hstep⟩ h2 h4 hen hdr hdsp hddr hang hrt hport
    have hany : (allPorts.any fun p => portState s p != pDISABLED) = true :=
      List.any_eq_true.2 ⟨p, by fin_cases p <;> simp [allPorts], by simpa [pDISABLED, portState] using hport⟩
    exact entryRefused_of hq (by omega) h4
      (by rw [entryRefusal_rest hen hdr hstate hphase hstep h2, if_neg (by simp [hdsp, hddr]), if_neg (by simp [hang, hrt, rSTOPPED]),
        if_pos hany]) (by decide) (by decide)
  case host =>
    rintro t k s ⟨hq, hstate, hphase, hstep⟩ h2 h4 hen hdr hdsp hddr hang hrt hports hring
    have hany : ((List.range 16).any fun k => flag s (F.HWN_RINGk_CTRL_ENABLE k)) = true :=
      List.any_eq_true.2 ⟨k, by simp, hring⟩
    exact entryRefused_of hq (by omega) h4
      (by rw [entryRefusal_rest hen hdr hstate hphase hstep h2, if_neg (by simp [hdsp, hddr]), if_neg (by simp [hang, hrt, rSTOPPED]),
        if_neg (by simp [ports_disabled hports]), if_pos (by simp [hostBusy, hany])]) (by decide) (by decide)
  case idle =>
    rintro s ⟨hq, hstate, hphase, hstep⟩ hen hdr
    exact entryBegins_of hq (by decide) (by decide) (by
      simp [entryRefusal, hen, hdr, pwrPhase, pwrState, hphase, hstep, hstate, wRUN, wSLEEP])
  case deeper =>
    rintro t s ⟨hq, hstate, hphase, hstep⟩ h2 h4 hen hdr hrest
    exact entryBegins_of hq (by omega) h4 (entryRefusal_mayRest hen hdr hstate hphase hstep h2 hrest)
  case run =>
    rintro s ⟨hq, hstate, hphase, hstep⟩
    refine completes_eq_quiet (w' := setFld s F.PWR_CTRL_TARGET 0) rfl ?_ hq
      ⟨fld_setFld_same s _ 0, (Only.refl [] _ s).setFld (by simp) 0⟩
    change powerEntry s 0 = _
    simp [powerEntry, wOFF, wRUN, wIDLE, pwrState, hstate]
  case software =>
    rintro s ⟨hq, hstate, hphase, hstep⟩ hen
    have hstart : powerEntry s 0 = wakeStart (wakeCaused (setFld s F.PWR_CTRL_TARGET 0) 5) := by
      have hfld := fun (f : Fld) (h : f.key ≠ F.PWR_CTRL_TARGET.key) => fld_setFld_ne s h 0
      rw [powerEntry, if_neg (by decide), if_pos (by decide), if_pos (by rw [pwrState, hstate]; rfl)]
      refine wakeSource_starts (.inl ?_) ?_ ?_
      · rw [hfld _ (by decide), hen]
      · exact (hfld _ (by decide)).trans hphase
      · rw [pwrState, hfld _ (by decide), hstate]
        decide
    refine completes_eq_quiet rfl hstart ((evq_wakeStart _).trans hq) (wakeBegins_wakeStart ?_ ?_ ?_ (by simp))
    · exact (fld_setFld_ne _ (by decide) _).trans ((fld_setFld_ne s (by decide) _).trans hstate)
    · exact (fld_setFld_same _ _ _).trans (by rw [fld_setFld_ne s (by decide)]; rfl)
    · exact ((Only.refl _ _ s).setFld (by simp) _).setFld (by simp) _
  case noEntry => exact fun ok eng s hq h => completes_eq_quiet rfl (powerEntryStep_noEntry h ok eng) hq rfl
  case gates =>
    rintro t eng s ⟨hq, hphase, -, hstep, -⟩
    obtain ⟨hrefuse, hsteady, hpwr, hevq, honly⟩ := entryWithdrawn_spec (raise (satInc s F.CLK_GATE_TO_COUNT) 0x0205 [(1, if eng then 0x18 else 7)])
    refine ⟨completes_eq_quiet rfl (powerEntryStep_gates hphase true eng hstep) hq rfl,
      completes_eq rfl (powerEntryStep_gates hphase false eng hstep) (hevq.trans ?_) ⟨hrefuse, hsteady, ?_, hpwr, ?_⟩⟩
    · simp [raise, satInc, satAdd, setFld, ev, show s.evq = [] from hq]
    · exact (honly.2 _ (by decide)).trans (fld_satInc_same s _)
    · have hbase : Only [.evq, .pwr] [F.PWR_STATUS_REFUSE, F.PWR_STATUS_PHASE, F.CLK_GATE_TO_COUNT] s
          (raise (satInc s F.CLK_GATE_TO_COUNT) 0x0205 [(1, if eng then 0x18 else 7)]) :=
        ((Only.refl _ _ s).satInc (by simp)).raise (by simp) _ _
      exact (hbase.trans (honly.mono (by simp) (by simp))).hush hq
  case toIdle =>
    rintro ok eng s ⟨hq, hphase, htarget, hstep, hlate⟩ hdr
    obtain ⟨hpwr, hevq, hflag⟩ := rest_pllsOff s
    have hlocks := locks_pllsOff s
    have hpclk := clk_pllsOff s
    have hplls : Only [.evq, .pwr, .clk] ([F.PWR_STATUS_STATE, F.PWR_STATUS_PHASE] ++ lockFlds) s (pllsOff s) :=
      only_pllsOff (.refl ..) (by simp) (by simp)
    have hend : powerEntryStep s ok eng = entryEnded (pllsOff s) := by
      rw [powerEntryStep_plls hphase ok eng hstep, if_pos (by rw [htarget]; rfl),
        entryEnd_quiet (by rw [hpwr, htarget]; decide) (by rw [hpwr, hlate]) (by rw [hflag, hdr])]
    generalize pllsOff s = t at *
    obtain ⟨hst, hph, hclear, hclk, hev⟩ := entryEnded_spec t (by rw [hpwr, htarget]; decide)
    have honly := only_entryEnded hplls (by simp) (by simp) (by simp) (by simp)
    rw [hpwr, htarget] at hst hev
    refine completes_eq rfl hend (hev.trans (by simp [hevq, show s.evq = [] from hq, wRUN])) ⟨hst, hph, hclear, ?_, fun f hf => ?_, ?_, honly.hush hq⟩
    · change 1 ∉ (entryEnded t).clk.plls
      simp [hclk, hpclk]
    · exact (flag_eq_of_fld ((only_entryEnded (ps := [.evq, .pwr]) (.refl ..) (by simp) (by simp) (by simp) (by simp)).2 f
        (lock_not_state hf))).trans (hlocks f hf)
    · change (entryEnded t).clk = { s.clk with plls := (entryEnded t).clk.plls }
      rw [hclk, hpclk]
  case pllsStop =>
    rintro ok eng t s ⟨hq, hphase, htarget, hstep, -⟩ h2
    obtain ⟨hpwr, hevq, -⟩ := rest_pllsOff s
    have hlocks := locks_pllsOff s
    have hpclk := clk_pllsOff s
    have hplls : Only [.pwr, .clk] lockFlds s (pllsOff s) := only_pllsOff (.refl ..) (by simp) (by simp)
    have hend : powerEntryStep s ok eng = setPwr (pllsOff s) { s.pwr with step := 3 } := by
      rw [powerEntryStep_plls hphase ok eng hstep, if_neg (by rw [htarget, wIDLE]; omega), entryStep, hpwr]
    generalize pllsOff s = p at *
    refine completes_eq_quiet rfl hend (hevq.trans hq) ⟨rfl, ?_, hlocks, only_setPwr hplls (by simp) _⟩
    change 1 ∉ p.clk.plls
    simp [hpclk]
  case toSleep =>
    rintro ok eng s ⟨hq, hphase, htarget, hstep, hlate⟩ hdr hmay
    obtain ⟨hpwr, hevq, hflag, hclk⟩ := syspllsOff_spec s ok
    have hsys : Only [.evq, .pwr, .clk] [F.PWR_STATUS_STATE, F.PWR_STATUS_PHASE] s (syspllsOff (voltageAsked s ok)) :=
      only_syspllsOff (.refl ..) (by simp) (by simp) ok
    have hend : powerEntryStep s ok eng = entryEnded (syspllsOff (voltageAsked s ok)) := by
      rw [powerEntryStep_voltage hphase ok eng hstep, if_neg (by simp [hmay]), if_pos (by rw [htarget]; rfl),
        entryEnd_quiet (by rw [hpwr, htarget]; decide) (by rw [hpwr, hlate]) (by rw [hflag, hdr])]
    generalize syspllsOff (voltageAsked s ok) = t at *
    obtain ⟨hst, hph, hclear, hclk', hev⟩ := entryEnded_spec t (by rw [hpwr, htarget]; decide)
    have honly := only_entryEnded hsys (by simp) (by simp) (by simp) (by simp)
    rw [hpwr, htarget] at hst hev
    refine completes_eq rfl hend (hev.trans (by rw [hevq, show s.evq = [] from hq]; cases ok <;> rfl)) ⟨hst, hph, hclear, ?_, honly.hush hq⟩
    exact hclk'.trans hclk
  case waits =>
    rintro ok eng t s ⟨hq, hphase, -, hstep, -⟩ hmay
    refine completes_eq_quiet rfl ((powerEntryStep_voltage hphase ok eng hstep).trans ?_) hq rfl
    rw [if_pos (by simp [hmay])]
  case pllStops =>
    rintro ok eng t s ⟨hq, hphase, htarget, hstep, -⟩ h34 hmay
    obtain ⟨hpwr, hevq, -, hclk⟩ := syspllsOff_spec s ok
    have hsys := parts_syspllsOff s ok
    have hend : powerEntryStep s ok eng = setPwr (syspllsOff (voltageAsked s ok)) { s.pwr with step := if t = 3 then 4 else 5 } := by
      rw [powerEntryStep_voltage hphase ok eng hstep, if_neg (by simp [hmay]), if_neg (by rw [htarget, wSLEEP]; omega), entryStep, hpwr,
        htarget]
      rfl
    generalize syspllsOff (voltageAsked s ok) = p at *
    refine completes_eq rfl hend (hevq.trans (by rw [show s.evq = [] from hq, List.nil_append]))
      ⟨rfl, hclk, fun q hm => ?_⟩
    have honly : Only [.pwr, .clk] [] s (hush (setPwr p { s.pwr with step := if t = 3 then 4 else 5 })) :=
      (only_setPwr ⟨hsys.mono (by simp), fun _ _ => congrArg (fun r => smGet r _ _ % _) (hsys .regs (by decide))⟩ (by simp) _).hush hq
    by_cases hregs : q = .regs
    · subst hregs
      exact hsys .regs (by decide)
    · exact honly.1 q (by simpa [hregs] using hm)
  case toDeep =>
    rintro ok eng s ⟨hq, hphase, htarget, hstep, hlate⟩ hdr
    have hend : powerEntryStep s ok eng = plainEnd F.PWR_CTRL_ENABLE F.PWR_STATUS_DRAINING (entryEnded s) := by
      rw [powerEntryStep_end hphase ok eng (.inl hstep), entryEnd_draining (by rw [htarget]; decide) hlate hdr]
    obtain ⟨hst, hph, hclear, -, hev⟩ := entryEnded_spec s (by rw [htarget]; decide)
    have honly : Only [.evq, .pwr] [F.PWR_STATUS_STATE, F.PWR_STATUS_PHASE, F.PWR_CTRL_ENABLE, F.PWR_STATUS_DRAINING] s (entryEnded s) :=
      only_entryEnded (.refl ..) (by simp) (by simp) (by simp) (by simp)
    rw [htarget] at hst hev
    generalize entryEnded s = t at *
    have hkeep := fun f h => (onlyRegs_plainEnd t F.PWR_CTRL_ENABLE F.PWR_STATUS_DRAINING).2 f h
    have hen := flag_plainEnd_enable (en := F.PWR_CTRL_ENABLE) (dr := F.PWR_STATUS_DRAINING) t (by decide)
    have hoff := flag_plainEnd_draining t F.PWR_CTRL_ENABLE F.PWR_STATUS_DRAINING
    refine completes_eq rfl hend (hev.trans (by rw [show s.evq = [] from hq]; rfl)) ⟨(hkeep _ (by decide)).trans hst,
      (hkeep _ (by decide)).trans hph, hclear, hen, hoff, ?_⟩
    exact ((honly.setFld (by simp) 0).setFld (by simp) 0).hush hq
  case toOff =>
    rintro ok eng s ⟨hq, hphase, htarget, hstep, hlate⟩ hidle
    have hend : powerEntryStep s ok eng = enterOff (raise s 0x0301 [(1, wRUN), (1, wOFF)]) := by
      rw [powerEntryStep_end hphase ok eng (.inr hstep), entryEnd_off (by rw [htarget]; rfl) hlate]
    have hraised : UnitsIdle (raise s 0x0301 [(1, wRUN), (1, wOFF)]) := hidle
    refine completes_eq rfl hend ((evq_enterOff hraised).trans ?_) (inOff_hush_enterOff hraised rfl)
    rw [raise, show s.evq = [] from hq]
    rfl
  case late =>
    intro ok eng s hq hphase hpwr hdr
    have hend : powerEntryStep s ok eng = wakeStart (entryEnded s) := by
      rw [powerEntryStep_end hphase ok eng (.inl (by rw [hpwr])), entryEnd_late (by rw [hpwr]; decide) (by rw [hpwr]) hdr]
    obtain ⟨hst, -, -, -, hev⟩ := entryEnded_spec s (by rw [hpwr]; decide)
    rw [hpwr] at hst hev
    generalize entryEnded s = t at *
    obtain ⟨hwst, hwph, hwpwr⟩ := wakeStart_deep hst
    exact completes_eq rfl hend ((evq_wakeStart t).trans (hev.trans (by rw [show s.evq = [] from hq]; rfl))) ⟨hwst, hwph, hwpwr⟩
  case disable =>
    intro s hq hen hphase
    refine completes_eq_quiet (w' := setFld s F.PWR_CTRL_ENABLE 0) rfl ?_ hq
      ⟨flag_of_fld (fld_setFld_zero_same _ _), (Only.refl [] _ s).setFld (by simp) 0⟩
    simp [pwrDisable, hen, pwrPhase, hphase]
  case disableLater =>
    intro s hq hen hphase
    refine completes_eq_quiet (w' := setFld s F.PWR_STATUS_DRAINING 1) rfl ?_ hq
      ⟨congrArg (· != 0) (fld_setFld_same s F.PWR_STATUS_DRAINING 1), (Only.refl [] _ s).setFld (by simp) 1⟩
    simp [pwrDisable, hen, pwrPhase, hphase]

end

section
/-! SUPPORT. Wakes: their sources, their steps and how they fail (R446 to R449, R451). -/
namespace Sys2Proof.Machine

variable {s : State}

/-! ### Sources -/

theorem execWakeN_of (h : ¬(isOff s = true ∧ s.pwr.armed = false)) : exec .wakeN s = done (wakeSource s 0) := by
  have hcond : (isOff s && !s.pwr.armed) = false := by
    cases hi : isOff s <;> cases ha : s.pwr.armed <;> simp_all
  change done (if isOff s && !s.pwr.armed then s else wakeSource s 0) = _
  rw [hcond]
  rfl

theorem not_isOff_of (h : fld s F.PWR_STATUS_STATE ≠ 4) : isOff s = false := by
  simp [isOff, pwrState, wOFF, h]

theorem execWakeN_not_off (h : fld s F.PWR_STATUS_STATE ≠ 4) : exec .wakeN s = done (wakeSource s 0) :=
  execWakeN_of fun ho => by simp [not_isOff_of h] at ho

theorem wakeSource_deaf {src : Nat} (hphase : pwrPhase s = 0) (hlisten : sourceListens (pwrState s) src = false) : wakeSource s src = s := by
  unfold wakeSource
  split_ifs with h1 h2
  · rfl
  · omega
  · omega
  · omega
  · rfl

theorem wakeSource_masked {src : Nat} (h : bitOf (fld s F.PWR_WAKE_EN_SOURCES) src = false) (h0 : src ≠ 0) : wakeSource s src = s :=
  if_pos ⟨h, h0⟩

/-- A further source during a wake is only recorded. -/
theorem wakeSource_records (hphase : pwrPhase s = 2) (hlisten : sourceListens (pwrState s) 0 = true) :
    wakeSource s 0 = wakeCaused s 0 := by
  rw [wakeSource, if_neg (by simp), if_neg (by omega), if_neg (by simp [hlisten]), if_pos hphase]
  rfl

/-- During step 1 of an entry a source withdraws the entry. -/
theorem wakeSource_withdraws (hphase : pwrPhase s = 1) (hlisten : sourceListens s.pwr.target 0 = true) (hstep : s.pwr.step = 1) :
    wakeSource s 0 = entryWithdrawn (wakeCaused s 0) := by
  rw [wakeSource, if_neg (by simp), if_pos hphase, if_neg (by simp [hlisten]), if_pos hstep]
  rfl

/-- PERST_N has risen. -/
def perstHigh (s : State) : State := { s with pci := { s.pci with perst := false } }

theorem only_perstHigh (s : State) {ps : List Part} {fs : List Fld} : Only (.pci :: ps) fs s (perstHigh s) := by
  refine ⟨fun p hp => ?_, fun _ _ => rfl⟩
  cases p <;> simp [samePart, perstHigh] at hp ⊢

/-- A fuse load begins. -/
def fuseLoadBegun (s : State) : State := setStep (setFld s F.RST_STATUS_FUSE_TRIES 0) 2

theorem beginRelease_unloaded (h : flag s F.RST_STATUS_FUSE_DONE = false) : beginRelease s = fuseLoadBegun s := if_neg (by simp [h])

theorem only_fuseLoadBegun {ps : List Part} {fs : List Fld} {o s : State} (h : Only ps fs o s) (hp : .rst ∈ ps)
    (hf : F.RST_STATUS_FUSE_TRIES ∈ fs) : Only ps fs o (fuseLoadBegun s) :=
  ⟨fun p hn => by
    have hs := (h.setFld hf 0).1 p hn
    cases p
    case rst => exact absurd (List.mem_cons_of_mem _ hp) hn
    all_goals exact hs, (h.setFld hf 0).2⟩

/-- A source that the steady device listens to begins a wake. -/
theorem completes_wake {c : Instr} {src left : Nat} {fs : List Fld} (hexec : exec c s = done (wakeSource s src)) (hs : Steady s left)
    (hen : bitOf (fld s F.PWR_WAKE_EN_SOURCES) src = true ∨ src = 0) (hlisten : sourceListens left src = true) (hfro : left = 2 → froFlds ⊆ fs) :
    Completes c s [] (WakeBegins src left (firstWakeStep left) fs s) := by
  obtain ⟨hq, hstate, hphase, -⟩ := hs
  have hstart := wakeSource_starts hen hphase (by rwa [pwrState, hstate])
  exact completes_eq_quiet hexec hstart ((evq_wakeStart _).trans hq) (wakeBegins_caused hstate hfro)

/-! ### The steps of a wake -/

section
variable (h : pwrPhase s = 2)
include h

theorem wakeStep_rail {k : Nat} (hk : s.pwr.step = k + 1) (h3 : k < 3) : wakeStep s = wakeTo (railOn s k) (k + 2) := by
  rw [wakeStep, if_neg (by omega)]
  interval_cases k <;> simp only [hk]

theorem wakeStep_avs (hk : s.pwr.step = 4) : wakeStep s = wakeTo s 5 := by
  rw [wakeStep, if_neg (by omega)]
  simp only [hk]

theorem wakeStep_lastRail (hk : s.pwr.step = 5) :
    wakeStep s = if s.rst.srcs.isEmpty then beginRelease (wakeTo (railOn s 3) 6) else wakeTo (railOn s 3) 6 := by
  rw [wakeStep, if_neg (by omega)]
  simp only [hk]
  rfl

theorem wakeStep_fro (hk : s.pwr.step = 7) : wakeStep s = wakeTo (froStart s) 8 := by
  rw [wakeStep, if_neg (by omega)]
  simp only [hk]

theorem wakeStep_froStable (hk : s.pwr.step = 8) : wakeStep s = if flag s F.CLK_STATUS_FRO_STABLE then wakeTo s 9 else s := by
  rw [wakeStep, if_neg (by omega)]
  simp only [hk]

theorem wakeStep_pll0 (hk : s.pwr.step = 9) (h0 : 0 ∈ s.clk.plls) :
    wakeStep s = wakeTo (if flag s F.CLK_STATUS_REF_STABLE && !s.clk.trip then sysclkRef s else s) 10 := by
  rw [wakeStep, if_neg (by omega)]
  simp [hk, h0]

theorem wakeStep_voltage (hk : s.pwr.step = 10) : wakeStep s = wakeTo s 11 := by
  rw [wakeStep, if_neg (by omega)]
  simp only [hk]

theorem wakeStep_plls (hk : s.pwr.step = 11) (hl : pllsLocked s = true) : wakeStep s = wakeDone s := by
  rw [wakeStep, if_neg (by omega)]
  simp [hk, hl]

end

/-- Only the power controller's step changes. -/
theorem wakeTo_pwr (s : State) (k : Nat) : (wakeTo s k).pwr = { s.pwr with step := k } ∧ (wakeTo s k).evq = s.evq
    ∧ (wakeTo s k).clk = s.clk ∧ (wakeTo s k).rst = s.rst ∧ ∀ f, fld (wakeTo s k) f = fld s f := ⟨rfl, rfl, rfl, rfl, fun _ => rfl⟩

theorem only_wakeTo {ps : List Part} {fs : List Fld} {o s : State} (h : Only ps fs o s) (hp : .pwr ∈ ps) (k : Nat) :
    Only ps fs o (wakeTo s k) := only_setPwr h hp _

/-- A rail that comes on shows in both fields. -/
theorem railOn_spec (s : State) {i : Nat} (hi : i < 4) : (∀ j : Fin 4,
      bitOf (fld (railOn s i) F.PWR_RAILS_EN) j = (bitOf (fld s F.PWR_RAILS_EN) j || j.val == i)
      ∧ bitOf (fld (railOn s i) F.PWR_RAILS_PGOOD) j = (bitOf (fld s F.PWR_RAILS_PGOOD) j || j.val == i))
    ∧ Only [] [F.PWR_RAILS_EN, F.PWR_RAILS_PGOOD] s (railOn s i) := by
  have hbit : ∀ (x : Nat) (j : Fin 4), bitOf (putBits x i 1 1 % 2 ^ 4) j = (bitOf x j || j.val == i) := by
    intro x j
    by_cases hj : j.val = i
    · rw [hj, bitOf_putBits_same hi]
      simp
    · rw [bitOf_putBits_other j.isLt hj]
      simp [hj]
  have hen : fld (railOn s i) F.PWR_RAILS_EN = putBits (fld s F.PWR_RAILS_EN) i 1 1 % 2 ^ 4 :=
    (fld_setFld_ne (setFld s F.PWR_RAILS_EN (putBits (fld s F.PWR_RAILS_EN) i 1 1)) (by decide) _).trans (fld_setFld_same s _ _)
  have hgood : fld (railOn s i) F.PWR_RAILS_PGOOD = putBits (fld s F.PWR_RAILS_PGOOD) i 1 1 % 2 ^ 4 :=
    fld_setFld_same (setFld s F.PWR_RAILS_EN (putBits (fld s F.PWR_RAILS_EN) i 1 1)) _ _
  refine ⟨fun j => ?_, ((Only.refl _ _ s).setFld (by simp) _).setFld (by simp) _⟩
  rw [hen, hgood]
  exact ⟨hbit _ j, hbit _ j⟩

/-- FRO takes over the system clock. -/
theorem froStart_spec (s : State) : (froStart s).clk = { s.clk with fro := 0 } ∧ flag (froStart s) F.CLK_STATUS_SYSCLK = true
    ∧ flag (froStart s) F.CLK_STATUS_FRO_STABLE = false ∧ (froStart s).pwr = s.pwr ∧ (froStart s).evq = s.evq := by
  have hstable : ∀ t : State, fld (setFld (setFld t F.CLK_STATUS_FRO_STABLE 0) F.CLK_STATUS_SYSCLK 1) F.CLK_STATUS_FRO_STABLE = 0 := fun t =>
    (fld_setFld_ne (setFld t F.CLK_STATUS_FRO_STABLE 0) (by decide) 1).trans (fld_setFld_zero_same t _)
  have hsys : ∀ t : State, fld (setFld t F.CLK_STATUS_SYSCLK 1) F.CLK_STATUS_SYSCLK = 1 := fun t => fld_setFld_same t _ 1
  exact ⟨rfl, congrArg (· != 0) (hsys _), flag_of_fld (hstable _), rfl, rfl⟩

/-- The system clock goes to SYSREF, and FRO rests where nothing else keeps it running. -/
theorem sysclkRef_spec (s : State) : flag (sysclkRef s) F.CLK_STATUS_SYSCLK = false
    ∧ (sysclkRef s).clk = { s.clk with fro := (sysclkRef s).clk.fro } ∧ (sysclkRef s).pwr = s.pwr ∧ (sysclkRef s).evq = s.evq
    ∧ Only [.clk] (F.CLK_STATUS_REF_STABLE :: froFlds) s (sysclkRef s) := by
  have hoff : ∀ t : State, fld t F.CLK_STATUS_SYSCLK = 0 → fld (setWindows t 2 0) F.CLK_STATUS_SYSCLK = 0 := fun t h =>
    (fld_setFld_ne (showRef (setClk t { t.clk with fro := 0 })) (by decide) _).trans
      ((fld_setFld_ne (setClk t { t.clk with fro := 0 }) (by decide) _).trans h)
  have hbase : Only [.clk] (F.CLK_STATUS_REF_STABLE :: froFlds) s (setFld s F.CLK_STATUS_SYSCLK 0) :=
    (Only.refl _ _ s).setFld (by simp [froFlds]) 0
  have hwin : ∀ t : State, Only [.clk] (F.CLK_STATUS_REF_STABLE :: froFlds) s t →
      Only [.clk] (F.CLK_STATUS_REF_STABLE :: froFlds) s (setWindows t 2 0) := fun t h =>
    ((only_setClk h (by simp) _).setFld (by simp) _).setFld (by simp [froFlds]) _
  by_cases hruns : froRuns (setFld s F.CLK_STATUS_SYSCLK 0) = true
  · have heq : sysclkRef s = setFld s F.CLK_STATUS_SYSCLK 0 := if_pos hruns
    rw [heq]
    exact ⟨flag_of_fld (fld_setFld_zero_same s _), rfl, rfl, rfl, hbase⟩
  · have heq : sysclkRef s = setWindows (setFld s F.CLK_STATUS_SYSCLK 0) 2 0 := if_neg hruns
    rw [heq]
    exact ⟨flag_of_fld (hoff _ (fld_setFld_zero_same s _)), rfl, rfl, rfl, hwin _ hbase⟩

/-! ### The end of a wake -/

/-- RUN with event 0x0303. -/
def wakeRun (s : State) : State :=
  raise (setPwr (setFld (setFld (setFld s F.PWR_STATUS_STATE wRUN) F.PWR_STATUS_PHASE 0) F.PWR_WAKE_FAIL_CONSEC 0) {}) 0x0303
    [(1, fld s F.PWR_WAKE_CAUSE_CAUSE)]

/-- What a return from SLEEP or deeper resets beside the power state: the readings' history, and the watchdog's count. -/
def wakeFresh (s t : State) : State :=
  let t1 := if s.pwr.left < wSLEEP then t else setThm t { t.thm with hist := [] }
  if wSLEEP ≤ s.pwr.left ∧ flag s F.SBX_WDOG_CFG_ENABLE = true then setFld t1 F.SBX_WDOG_STATUS_REMAIN (wdogPeriod s) else t1

/-- RUN, before engines and regions are served what the wake owes them. -/
def wakeOver (s : State) : State := wakeFresh s (wakeRun s)

theorem wakeDone_eq (s : State) : wakeDone s =
    forEach ((wakeOver s).regions.map (·.1)) serveRegion (forEach ((wakeOver s).engines.map (·.1)) serveEngine (wakeOver s)) := rfl

theorem only_setThm {ps : List Part} {fs : List Fld} {o s : State} (h : Only ps fs o s) (hp : .thm ∈ ps) (x : Thermal) :
    Only ps fs o (setThm s x) :=
  ⟨fun p hn => by
    have hs := h.1 p hn
    cases p
    case thm => exact absurd (List.mem_cons_of_mem _ hp) hn
    all_goals exact hs, h.2⟩

theorem only_wakeFresh (s t : State) : Only [.thm] [F.SBX_WDOG_STATUS_REMAIN] t (wakeFresh s t) := by
  have h : Only [.thm] [F.SBX_WDOG_STATUS_REMAIN] t (if s.pwr.left < wSLEEP then t else setThm t { t.thm with hist := [] }) :=
    .ite (.refl ..) (only_setThm (.refl ..) (by simp) _)
  exact .ite (h.setFld (by simp) _) h

/-- The fields in which a wake ends. -/
def wakeOverFlds : List Fld := [F.PWR_STATUS_STATE, F.PWR_STATUS_PHASE, F.PWR_WAKE_FAIL_CONSEC, F.SBX_WDOG_STATUS_REMAIN]

theorem only_wakeRun (s : State) : Only [.evq, .pwr, .thm] wakeOverFlds s (wakeRun s) :=
  (only_setPwr ((((Only.refl _ _ s).setFld (by simp [wakeOverFlds]) _).setFld (by simp [wakeOverFlds]) _).setFld (by simp [wakeOverFlds]) _)
    (by simp) _).raise (by simp) _ _

theorem only_wakeOver (s : State) : Only [.evq, .pwr, .thm] wakeOverFlds s (wakeOver s) :=
  (only_wakeRun s).trans ((only_wakeFresh s _).mono (by simp) (by simp [wakeOverFlds]))

theorem wakeRun_spec (s : State) : fld (wakeRun s) F.PWR_STATUS_STATE = 0 ∧ fld (wakeRun s) F.PWR_STATUS_PHASE = 0
    ∧ fld (wakeRun s) F.PWR_WAKE_FAIL_CONSEC = 0 ∧ (wakeRun s).pwr = {}
    ∧ (wakeRun s).evq = s.evq ++ [ev 0x0303 [(1, fld s F.PWR_WAKE_CAUSE_CAUSE)]] := by
  have hstate : fld (setFld (setFld (setFld s F.PWR_STATUS_STATE wRUN) F.PWR_STATUS_PHASE 0) F.PWR_WAKE_FAIL_CONSEC 0) F.PWR_STATUS_STATE = 0 :=
    fld_setFld_zero rfl (fld_setFld_zero rfl (fld_setFld_zero_same s _))
  have hphase : fld (setFld (setFld (setFld s F.PWR_STATUS_STATE wRUN) F.PWR_STATUS_PHASE 0) F.PWR_WAKE_FAIL_CONSEC 0) F.PWR_STATUS_PHASE = 0 :=
    fld_setFld_zero rfl (fld_setFld_zero_same _ _)
  have hconsec : fld (setFld (setFld (setFld s F.PWR_STATUS_STATE wRUN) F.PWR_STATUS_PHASE 0) F.PWR_WAKE_FAIL_CONSEC 0)
      F.PWR_WAKE_FAIL_CONSEC = 0 := fld_setFld_zero_same _ _
  exact ⟨hstate, hphase, hconsec, rfl, rfl⟩

theorem wakeOver_spec (s : State) : fld (wakeOver s) F.PWR_STATUS_STATE = 0 ∧ fld (wakeOver s) F.PWR_STATUS_PHASE = 0
    ∧ fld (wakeOver s) F.PWR_WAKE_FAIL_CONSEC = 0 ∧ (wakeOver s).pwr = {}
    ∧ (wakeOver s).evq = s.evq ++ [ev 0x0303 [(1, fld s F.PWR_WAKE_CAUSE_CAUSE)]] := by
  obtain ⟨hstate, hphase, hconsec, hpwr, hevq⟩ := wakeRun_spec s
  have h := only_wakeFresh s (wakeRun s)
  exact ⟨(h.2 _ (by decide)).trans hstate, (h.2 _ (by decide)).trans hphase, (h.2 _ (by decide)).trans hconsec,
    Eq.trans (h.1 .pwr (by decide)) hpwr, Eq.trans (h.1 .evq (by decide)) hevq⟩

theorem wakeDone_of_none (he : s.engines = []) (hr : s.regions = []) : wakeDone s = wakeOver s := by
  have honly := (only_wakeOver s).1
  have hengines : (wakeOver s).engines = [] := (honly .engines (by decide)).trans he
  have hregions : (wakeOver s).regions = [] := (honly .regions (by decide)).trans hr
  rw [wakeDone_eq, hengines, hregions]
  rfl

/-! ### Failures -/

/-- A wake's failure recorded. -/
def wakeMissed (s : State) : State :=
  satInc (satInc (setFld (setFld (raise s 0x0304 []) F.PWR_WAKE_FAIL_CAUSE (failCause s.pwr.step).1) F.PWR_WAKE_FAIL_RAIL
    (failCause s.pwr.step).2) F.PWR_WAKE_FAIL_CONSEC) F.PWR_WAKE_FAIL_TOTAL

theorem wakeFail_eq (s : State) : wakeFail s =
    if fld (wakeMissed s) F.PWR_WAKE_FAIL_CONSEC = 3 then enterOff (raise (assertFault (wakeMissed s) 2) 0x0305 [])
    else if s.pwr.left = wOFF then enterOff (wakeMissed s)
    else wakeUndone (wakeMissed s) := rfl

/-- The fields of a wake's failure. -/
def wakeFailFlds : List Fld := [F.PWR_WAKE_FAIL_CAUSE, F.PWR_WAKE_FAIL_RAIL, F.PWR_WAKE_FAIL_CONSEC, F.PWR_WAKE_FAIL_TOTAL]

theorem only_wakeMissed (s : State) : Only [.evq] wakeFailFlds s (wakeMissed s) :=
  (((((Only.refl _ _ s).raise (by simp) _ _).setFld (by simp [wakeFailFlds]) _).setFld (by simp [wakeFailFlds]) _).satInc
    (by simp [wakeFailFlds])).satInc (by simp [wakeFailFlds])

theorem wakeMissed_spec (s : State) : fld (wakeMissed s) F.PWR_WAKE_FAIL_CAUSE = (failCause s.pwr.step).1 % 8
    ∧ fld (wakeMissed s) F.PWR_WAKE_FAIL_RAIL = (failCause s.pwr.step).2 % 4
    ∧ fld (wakeMissed s) F.PWR_WAKE_FAIL_CONSEC = min (fld s F.PWR_WAKE_FAIL_CONSEC + 1) 3
    ∧ fld (wakeMissed s) F.PWR_WAKE_FAIL_TOTAL = min (fld s F.PWR_WAKE_FAIL_TOTAL + 1) 255
    ∧ (wakeMissed s).evq = s.evq ++ [ev 0x0304 []] := by
  have hbase : Only [.evq] [F.PWR_WAKE_FAIL_CAUSE, F.PWR_WAKE_FAIL_RAIL] s (setFld (setFld (raise s 0x0304 []) F.PWR_WAKE_FAIL_CAUSE
      (failCause s.pwr.step).1) F.PWR_WAKE_FAIL_RAIL (failCause s.pwr.step).2) :=
    (((Only.refl _ _ s).raise (by simp) _ _).setFld (by simp) _).setFld (by simp) _
  rw [wakeMissed]
  refine ⟨?_, ?_, ?_, ?_, rfl⟩
  · rw [fld_satInc_ne _ (by decide), fld_satInc_ne _ (by decide), fld_setFld_ne _ (by decide), fld_setFld_same]
    rfl
  · rw [fld_satInc_ne _ (by decide), fld_satInc_ne _ (by decide), fld_setFld_same]
    rfl
  · rw [fld_satInc_ne _ (by decide), fld_satInc_same, hbase.2 _ (by decide)]
    rfl
  · rw [fld_satInc_same, fld_satInc_ne _ (by decide), hbase.2 _ (by decide)]
    rfl

/-- A wake from IDLE that fails leaves SYSPLL0 running. -/
theorem wakeUndone_idle (h : s.pwr.left = 1) : wakeUndone s = setPwr (setFld (pllsOff s) F.PWR_STATUS_PHASE 0) {} := by
  simp only [wakeUndone, h, wIDLE, if_true]

/-! ### FAULT_N -/

theorem assertFault_spec (s : State) (c : Nat) : (assertFault s c).evq = s.evq
    ∧ (assertFault s c).rst.fault = (if s.rst.fault.contains c then s.rst.fault else s.rst.fault ++ [c])
    ∧ Only [.rst] [F.GLB_NMI_STATUS_FAULT] s (assertFault s c) := by
  refine ⟨rfl, rfl, fun p hp => ?_, fun f hf => ?_⟩
  · cases p <;> simp [samePart, assertFault, setFld] at hp ⊢
  · exact fld_setFld_ne { s with rst := { s.rst with fault := if s.rst.fault.contains c then s.rst.fault else s.rst.fault ++ [c] } }
      (by simpa using hf) 1

/-- Fields of the blocks below FAB are no states of regions or of self-test units. -/
theorem key_not_mem {fs : List Fld} {k : Nat} (hf : ∀ g ∈ fs, g.key < 3702784) (hk : 3702784 ≤ k) : k ∉ fs.map Fld.key := by
  simp only [List.mem_map, not_exists, not_and]
  intro g hg hgk
  have := hf g hg
  omega

theorem unitsIdle_of {fs : List Fld} {ps : List Part} {t : State} (h : Only ps fs s t) (hi : UnitsIdle s)
    (hf : ∀ g ∈ fs, g.key < 3702784) : UnitsIdle t := fun u =>
  (h.2 _ (key_not_mem hf (by simp only [F.BST_Uu_STATUS_STATE]; omega))).trans (hi u)

theorem regionGone_of {fs : List Fld} {ps : List Part} {t : State} (h : Only ps fs s t)
    (hf : ∀ g ∈ fs, g.key < 3702784) : regionGone t = regionGone s :=
  regionGone_congr fun r => h.2 _ (key_not_mem hf (by simp only [F.FAB_REGr_STATUS_STATE]; omega))

end Sys2Proof.Machine
end

section
open Sys2Proof Sys2Proof.Machine

/-- Settles O54, source by source and step by step. -/
theorem wakesRunAndFail : Obligations.WakesRunAndFail := by
  unfold Obligations.WakesRunAndFail
  refine ⟨?idle, ?sleep, ?deep, ?off, ?unarmed, ?rearm, ?noRearm, ?run, ?pcie, ?perst, ?timer, ?noTimer, ?second, ?withdrawn, ?rail, ?avs,
    ?lastRail, ?fro, ?froStable, ?pll0, ?voltage, ?done, ?railFails, ?pllFails, ?third, ?lost, ?notLost⟩
  case idle =>
    intro s hs
    exact completes_wake (execWakeN_not_off (by rw [hs.2.1]; decide)) hs (.inr rfl) (by decide) (by simp)
  case sleep =>
    intro s hs
    exact completes_wake (execWakeN_not_off (by rw [hs.2.1]; decide)) hs (.inr rfl) (by decide) fun _ => List.Subset.refl _
  case deep =>
    intro s hs
    exact completes_wake (execWakeN_not_off (by rw [hs.2.1]; decide)) hs (.inr rfl) (by decide) (by simp)
  case off =>
    intro s hs harmed
    exact completes_wake (execWakeN_of (by simp [harmed])) hs (.inr rfl) (by decide) (by simp)
  case unarmed =>
    rintro s ⟨hq, hstate, hphase, -⟩ harmed
    refine completes_eq_quiet (w' := s) rfl ?_ hq rfl
    simp [isOff, pwrState, pwrPhase, hstate, hphase, harmed, wOFF]
  case rearm =>
    rintro s ⟨hq, hstate, hphase, -⟩
    refine completes_eq_quiet (w' := setPwr s { s.pwr with armed := true }) rfl ?_ hq rfl
    simp [isOff, pwrState, pwrPhase, hstate, hphase, wOFF]
  case noRearm =>
    intro s hq hstate
    refine completes_eq_quiet (w' := s) rfl ?_ hq rfl
    rw [not_isOff_of hstate]
    rfl
  case run =>
    rintro s ⟨hq, hstate, hphase, -⟩
    have hdeaf : ∀ src, wakeSource s src = s := fun src => wakeSource_deaf hphase (by simp [sourceListens, pwrState, hstate, wRUN])
    refine ⟨completes_eq_quiet (execWakeN_not_off (by rw [hstate]; decide)) (hdeaf 0) hq rfl, completes_eq_quiet rfl (hdeaf 2) hq rfl,
      completes_eq_quiet (w' := s) rfl ?_ hq rfl⟩
    rw [hdeaf, ite_self]
  case pcie =>
    intro s hs hen
    exact completes_wake rfl hs (.inl hen) (by decide) (by simp)
  case perst =>
    intro s hs hen hperst
    have hst : Steady (perstHigh s) 3 := hs
    have hlisten : sourceListens (pwrState (perstHigh s)) 2 = true := by
      rw [pwrState, hst.2.1]
      decide
    have hstart : resetRelease s .perst = wakeStart (wakeCaused (perstHigh s) 2) :=
      (if_pos hperst).trans (wakeSource_starts (s := perstHigh s) (.inl hen) hst.2.2.1 hlisten)
    obtain ⟨hphase, hpwr, -, honly⟩ := wakeBegins_caused (s := perstHigh s) (src := 2) (fs := []) hst.2.1 (by simp)
    have hpci : (wakeStart (wakeCaused (perstHigh s) 2)).pci = { s.pci with perst := false } := honly.1 .pci (by decide)
    have hevq := evq_wakeStart (wakeCaused (perstHigh s) 2)
    have hall : Only [.pci, .pwr] [F.PWR_STATUS_PHASE, F.PWR_WAKE_CAUSE_CAUSE] s (wakeStart (wakeCaused (perstHigh s) 2)) :=
      (only_perstHigh s).trans (honly.mono (by simp) (by simp))
    generalize wakeStart (wakeCaused (perstHigh s) 2) = t at *
    exact ⟨completes_eq_quiet rfl hstart (hevq.trans hs.1) ⟨hpci, hphase, hpwr, hall⟩,
      completes_eq_quiet rfl hstart (hevq.trans hs.1) ⟨hpci, hphase⟩⟩
  case timer =>
    intro s hs hen hper
    exact completes_wake (show done (if fld s F.PWR_WAKE_TIMER_PERIODS = 0 then s else wakeSource s 3) = _ by rw [if_neg hper]) hs
      (.inl hen) (by decide) (by simp)
  case noTimer =>
    intro s hq h
    refine completes_eq_quiet (w' := s) rfl ?_ hq rfl
    rcases h with h | h
    · exact if_pos h
    · rw [wakeSource_masked h (by decide), ite_self]
  case second =>
    rintro left k s ⟨hq, hphase, -, -⟩ h1 h3 hstate
    have hlisten : sourceListens (pwrState s) 0 = true := by
      rw [pwrState, hstate]
      interval_cases left <;> decide
    exact completes_eq_quiet (execWakeN_not_off (by rw [hstate]; omega)) (wakeSource_records hphase hlisten) hq
      ⟨fld_setFld_same s _ _, (Only.refl [] _ s).setFld (by simp) _⟩
  case withdrawn =>
    rintro t s ⟨hq, hphase, htarget, hstep, -⟩ h1 h4 hstate
    have hlisten : sourceListens s.pwr.target 0 = true := by
      rw [htarget]
      interval_cases t <;> decide
    obtain ⟨hrefuse, hsteady, hpwr, hevq, honly⟩ := entryWithdrawn_spec (wakeCaused s 0)
    have hbase : Only [.evq, .pwr] [F.PWR_STATUS_REFUSE, F.PWR_STATUS_PHASE, F.PWR_WAKE_CAUSE_CAUSE] s (wakeCaused s 0) :=
      (Only.refl _ _ s).setFld (by simp) _
    exact completes_eq (execWakeN_not_off (by rw [hstate]; decide)) (wakeSource_withdraws hphase hlisten hstep)
      (hevq.trans (by simp [wakeCaused, setFld, show s.evq = [] from hq])) ⟨hrefuse, hsteady, hpwr,
        (hbase.trans (honly.mono (by simp) (by simp))).hush hq⟩
  case rail =>
    rintro k s ⟨hq, hphase, -, hstep⟩
    obtain ⟨hbits, honly⟩ := railOn_spec s (i := k.val) (by omega)
    obtain ⟨-, -, -, -, hfld⟩ := wakeTo_pwr (railOn s k) (k + 2)
    refine completes_eq_quiet rfl (wakeStep_rail hphase hstep k.isLt) hq
      ⟨rfl, fun i => ?_, only_wakeTo (honly.mono (by simp) (by simp)) (by simp) _⟩
    rw [hfld, hfld]
    exact hbits i
  case avs =>
    rintro s ⟨hq, hphase, -, hstep⟩
    exact completes_eq_quiet rfl (wakeStep_avs hphase hstep) hq rfl
  case lastRail =>
    rintro s ⟨hq, hphase, -, hstep⟩ hsrcs hfuse
    obtain ⟨hbits, honly⟩ := railOn_spec s (i := 3) (by decide)
    have hend : wakeStep s = fuseLoadBegun (wakeTo (railOn s 3) 6) := by
      rw [wakeStep_lastRail hphase hstep, if_pos (by simp [hsrcs])]
      refine beginRelease_unloaded ((flag_eq_of_fld ?_).trans hfuse)
      rw [(wakeTo_pwr _ _).2.2.2.2]
      exact honly.2 F.RST_STATUS_FUSE_DONE (by decide)
    have hto : Only [.pwr, .rst] [F.PWR_RAILS_EN, F.PWR_RAILS_PGOOD, F.RST_STATUS_FUSE_TRIES] s (wakeTo (railOn s 3) 6) :=
      only_wakeTo (honly.mono (by simp) (by simp)) (by simp) 6
    have hpwr : (wakeTo (railOn s 3) 6).pwr = { s.pwr with step := 6 } := rfl
    have hrst : (wakeTo (railOn s 3) 6).rst = s.rst := rfl
    have hen : bitOf (fld (wakeTo (railOn s 3) 6) F.PWR_RAILS_EN) 3 = true := by
      rw [(wakeTo_pwr _ _).2.2.2.2]
      simpa using (hbits ⟨3, by decide⟩).1
    have hevq : (wakeTo (railOn s 3) 6).evq = [] := hq
    generalize wakeTo (railOn s 3) 6 = t at *
    have hbegun : Only [.rst] [F.RST_STATUS_FUSE_TRIES] t (fuseLoadBegun t) := only_fuseLoadBegun (.refl ..) (by simp) (by simp)
    exact completes_eq_quiet rfl hend hevq ⟨hpwr, by rw [← hrst]; rfl,
      (congrArg (bitOf · 3) (hbegun.2 F.PWR_RAILS_EN (by decide))).trans hen, only_fuseLoadBegun hto (by simp) (by simp)⟩
  case fro =>
    rintro s ⟨hq, hphase, -, hstep⟩
    obtain ⟨hclk, hsys, hstable, hpwr, hevq⟩ := froStart_spec s
    exact completes_eq_quiet rfl (wakeStep_fro hphase hstep) hq
      ⟨rfl, hclk, hsys, hstable, only_wakeTo (only_froStart (.refl ..) (by simp) (List.Subset.refl _)) (by simp) 8⟩
  case froStable =>
    rintro left s ⟨hq, hphase, -, hstep⟩
    refine completes_eq_quiet rfl (wakeStep_froStable hphase hstep) ?_ rfl
    split_ifs
    exacts [hq, hq]
  case pll0 =>
    rintro left s ⟨hq, hphase, -, hstep⟩ h0
    have hend := wakeStep_pll0 hphase hstep h0
    by_cases hgo : flag s F.CLK_STATUS_REF_STABLE = true ∧ s.clk.trip = false
    · obtain ⟨hsys, hclk, hpwr, hevq, honly⟩ := sysclkRef_spec s
      rw [if_pos (by simp [hgo])] at hend
      generalize sysclkRef s = t at *
      refine completes_eq_quiet rfl hend (hevq.trans hq) ⟨?_, ?_, hclk, only_wakeTo (honly.mono (by simp) (List.Subset.refl _)) (by simp) 10⟩
      · rw [(wakeTo_pwr t 10).1, hpwr]
      · rw [if_pos hgo]
        exact hsys
    · rw [if_neg (by simpa using hgo)] at hend
      refine completes_eq_quiet rfl hend hq ⟨rfl, ?_, rfl, only_wakeTo (.refl ..) (by simp) 10⟩
      rw [if_neg hgo]
      rfl
  case voltage =>
    rintro left s ⟨hq, hphase, -, hstep⟩
    exact completes_eq_quiet rfl (wakeStep_voltage hphase hstep) hq rfl
  case done =>
    rintro left s ⟨hq, hphase, -, hstep⟩ h1 hlocks he hr
    have hlocked : pllsLocked s = true := by
      simp only [pllsLocked, List.contains_iff_mem, h1, List.all_eq_true, List.mem_range, Bool.and_eq_true, true_and]
      intro n hn
      have hl := hlocks ⟨n, hn⟩
      cases hen : flag s (F.CLK_FPLLn_EN n) <;> simp_all
    obtain ⟨hst, hph, hcon, hpwr, hevq⟩ := wakeOver_spec s
    have honly := only_wakeOver s
    have hend : wakeStep s = wakeOver s := (wakeStep_plls hphase hstep hlocked).trans (wakeDone_of_none he hr)
    generalize wakeOver s = t at *
    exact completes_eq rfl hend (hevq.trans (by rw [show s.evq = [] from hq]; rfl)) ⟨hst, hph, hcon, hpwr, honly.hush hq⟩
  case railFails =>
    rintro k s ⟨hq, hphase, hleft, hstep⟩ hidle hcon
    have hfails : stepFails s = true := by
      fin_cases k <;> simp [stepFails, pwrPhase, hphase, hstep]
    have hcause : failCause s.pwr.step = (0, k.val) := by
      rw [hstep]
      fin_cases k <;> rfl
    obtain ⟨hc, hr, hn, -, hevq⟩ := wakeMissed_spec s
    have hsame := only_wakeMissed s
    have hidle' := unitsIdle_of hsame hidle (by decide)
    have hgone := regionGone_of hsame (by decide)
    have hend : wakeFail s = enterOff (wakeMissed s) := by
      rw [wakeFail_eq, if_neg (by omega), if_pos (by rw [hleft]; rfl)]
    have hfault : (wakeMissed s).rst.fault = s.rst.fault := congrArg Rst.fault (hsame.1 .rst (by decide))
    rw [hcause] at hc hr
    generalize wakeMissed s = t at *
    obtain ⟨hoc, hor⟩ := wakeFail_enterOff t
    have hon := consec_enterOff hidle'
    refine completes_eq rfl (show (if stepFails s then wakeFail s else s) = enterOff t by rw [if_pos hfails, hend])
      ((evq_enterOff hidle').trans (by rw [hevq, hgone, show s.evq = [] from hq]; rfl)) ?_
    have hoff := inOff_hush_enterOff hidle' hfault
    generalize enterOff t = u at *
    exact ⟨hoc.trans hc, hor.trans (hr.trans (Nat.mod_eq_of_lt (by omega))), hon.trans (by omega), hoff⟩
  case pllFails =>
    rintro s ⟨hq, hphase, hleft, hstep⟩ h1 hcon
    have hfails : stepFails s = true := by
      simp [stepFails, pwrPhase, hphase, hstep, pllsLocked, h1]
    have hcause : failCause s.pwr.step = (3, 0) := by
      rw [hstep]
      rfl
    obtain ⟨hc, hr, hn, htotal, hevq⟩ := wakeMissed_spec s
    have hsame := only_wakeMissed s
    have hpwr : (wakeMissed s).pwr = s.pwr := hsame.1 .pwr (by decide)
    have hend : wakeFail s = setPwr (setFld (pllsOff (wakeMissed s)) F.PWR_STATUS_PHASE 0) {} := by
      rw [wakeFail_eq, if_neg (by omega), if_neg (by rw [hleft]; decide), wakeUndone_idle (by rw [hpwr, hleft])]
    rw [hcause] at hc
    generalize wakeMissed s = t at *
    have hplls : Only [.clk] lockFlds t (pllsOff t) := only_pllsOff (.refl ..) (by simp) (List.Subset.refl _)
    generalize pllsOff t = p at *
    have hfld := fun (f : Fld) (h : f.key ∉ lockFlds.map Fld.key) (h' : f.key ≠ F.PWR_STATUS_PHASE.key) =>
      (fld_setFld_ne p h' 0).trans (hplls.2 f h)
    have hbase : Only [.evq, .pwr, .clk] ([F.PWR_STATUS_PHASE, F.PWR_WAKE_FAIL_CAUSE, F.PWR_WAKE_FAIL_RAIL, F.PWR_WAKE_FAIL_CONSEC,
        F.PWR_WAKE_FAIL_TOTAL] ++ lockFlds) s p :=
      (hsame.mono (by simp) (by simp [wakeFailFlds])).trans (hplls.mono (by simp) (List.subset_append_right _ _))
    have hp : p.evq = t.evq := hplls.1 .evq (by decide)
    have honly := (only_setPwr (hbase.setFld (f := F.PWR_STATUS_PHASE) (by simp) 0) (by simp) {}).hush hq
    have hsteady := fld_setFld_zero_same p F.PWR_STATUS_PHASE
    refine completes_eq (w' := setPwr (setFld p F.PWR_STATUS_PHASE 0) {}) rfl
      (show (if stepFails s then wakeFail s else s) = _ by rw [if_pos hfails, hend])
      (hp.trans (by rw [hevq, show s.evq = [] from hq]; rfl)) ⟨?_, hsteady, rfl, ?_, ?_, ?_, honly⟩
    · exact (hfld F.PWR_STATUS_STATE (by decide) (by decide)).trans (hsame.2 _ (by decide))
    · exact (hfld F.PWR_WAKE_FAIL_CAUSE (by decide) (by decide)).trans hc
    · exact (hfld F.PWR_WAKE_FAIL_CONSEC (by decide) (by decide)).trans (hn.trans (by omega))
    · exact (hfld F.PWR_WAKE_FAIL_TOTAL (by decide) (by decide)).trans htotal
  case third =>
    rintro left s ⟨hq, hphase, hleft, hstep⟩ hstable hcon hidle hstate
    have hfails : stepFails s = true := by
      simp [stepFails, pwrPhase, hphase, hstep, hstable]
    have hcause : failCause s.pwr.step = (2, 0) := by
      rw [hstep]
      rfl
    obtain ⟨hc, -, hn, -, hevq⟩ := wakeMissed_spec s
    have hsame := only_wakeMissed s
    have hend : wakeFail s = enterOff (raise (assertFault (wakeMissed s) 2) 0x0305 []) := by
      rw [wakeFail_eq, if_pos (by omega)]
    have hrst : (wakeMissed s).rst = s.rst := hsame.1 .rst (by decide)
    rw [hcause] at hc
    generalize wakeMissed s = t at *
    obtain ⟨hfe, hff, hfo⟩ := assertFault_spec t 2
    have hfault : Only [.evq, .rst] (F.GLB_NMI_STATUS_FAULT :: wakeFailFlds) s (raise (assertFault t 2) 0x0305 []) :=
      ((hsame.mono (by simp) (by simp)).trans (hfo.mono (by simp) (by simp))).raise (by simp) _ _
    have hidle' := unitsIdle_of hfault hidle (by decide)
    have hgone := regionGone_of hfault (by decide)
    have hcause' := (hfo.2 F.PWR_WAKE_FAIL_CAUSE (by decide)).trans hc
    have hconsec' := (hfo.2 F.PWR_WAKE_FAIL_CONSEC (by decide)).trans hn
    have hevq' : (raise (assertFault t 2) 0x0305 []).evq = [ev 0x0304 [], ev 0x0305 []] := by
      rw [raise, hfe, hevq, show s.evq = [] from hq]
      rfl
    have hfault' : (raise (assertFault t 2) 0x0305 []).rst.fault = if s.rst.fault.contains 2 then s.rst.fault else s.rst.fault ++ [2] := by
      rw [← hrst]
      exact hff
    have hc' : fld (raise (assertFault t 2) 0x0305 []) F.PWR_WAKE_FAIL_CAUSE = 2 := hcause'
    have hn' : fld (raise (assertFault t 2) 0x0305 []) F.PWR_WAKE_FAIL_CONSEC = 3 := hconsec'.trans (by omega)
    generalize raise (assertFault t 2) 0x0305 [] = v at *
    obtain ⟨hoc, -⟩ := wakeFail_enterOff v
    have hon := consec_enterOff hidle'
    refine completes_eq rfl (show (if stepFails s then wakeFail s else s) = enterOff v by rw [if_pos hfails, hend])
      ((evq_enterOff hidle').trans (by rw [hevq', hgone])) ?_
    have hoff := inOff_hush_enterOff hidle' hfault'
    generalize enterOff v = u at *
    exact ⟨hoff, hoc.trans hc', hon.trans hn'⟩
  case lost =>
    intro i s hq hstate hen hidle
    obtain ⟨hevq, hfault, honly⟩ := assertFault_spec (raise s 0x0306 [(1, i)]) 3
    have hend : railLost s i = enterOff (assertFault (raise s 0x0306 [(1, i)]) 3) := if_neg (by simp [pwrState, wOFF, hstate, hen])
    have hsame : Only [.evq, .rst] [F.GLB_NMI_STATUS_FAULT] s (assertFault (raise s 0x0306 [(1, i)]) 3) :=
      ((Only.refl _ _ s).raise (by simp) _ _).trans (honly.mono (by simp) (by simp))
    have hidle' := unitsIdle_of hsame hidle (by decide)
    have hgone := regionGone_of hsame (by decide)
    generalize assertFault (raise s 0x0306 [(1, i)]) 3 = t at *
    refine completes_eq rfl hend ((evq_enterOff hidle').trans ?_) (inOff_hush_enterOff hidle' hfault)
    rw [hevq, hgone, raise, show s.evq = [] from hq]
    rfl
  case notLost =>
    intro i s hq h
    refine completes_eq_quiet (w' := s) rfl (if_pos ?_) hq rfl
    simpa [pwrState, wOFF] using h

end


section
/-! The housekeeping round and the trip checks (chapter 23): what the judgements of links and VIO leave, and what a round of good readings
brings about. -/
namespace Sys2Proof.Machine

variable {s o : State}

/-! ### The links and VIO at the end of a round -/

/-- Only the links of the stack and the banks' VIO differ. -/
def LinksOnly (o s : State) : Prop :=
  OnlyParts [.regs, .evq, .stk, .iob, .free] o s
  ∧ ∀ f : Fld, f.key < 10518528 → f.key ≠ F.STK_STATUS_RETRAINING.key → fld s f = fld o f

theorem LinksOnly.refl (s : State) : LinksOnly s s := ⟨.refl _ _, fun _ _ _ => rfl⟩

theorem LinksOnly.setFld (h : LinksOnly o s) {f : Fld} (hf : 10518528 ≤ f.key ∨ f.key = F.STK_STATUS_RETRAINING.key) (v : Nat) :
    LinksOnly o (setFld s f v) :=
  ⟨h.1.trans ((onlyParts_setFld s f v).mono (by simp)), fun g hg hr =>
    (fld_setFld_ne (g := g) s (by rcases hf with hf | hf <;> omega) v).trans (h.2 g hg hr)⟩

theorem LinksOnly.parts {t : State} {qs : List Part} (h : LinksOnly o s) (hq : qs ⊆ [.evq, .stk, .iob, .free]) (k : OnlyParts qs s t)
    (hr : t.regs = s.regs) : LinksOnly o t :=
  ⟨h.1.trans (k.mono fun _ hp => List.mem_cons_of_mem _ (hq hp)), fun g hg hk => by
    rw [show fld t g = fld s g by rw [fld, fld, hr], h.2 g hg hk]⟩

theorem LinksOnly.raise (h : LinksOnly o s) (c : Nat) (l : List (Nat × Nat)) : LinksOnly o (raise s c l) :=
  h.parts (by simp) (onlyParts_raise s c l) rfl

theorem onlyParts_setStk (s : State) (x : Stack) : OnlyParts [.stk] s (setStk s x) := by
  intro p hp
  cases p
  case stk => exact absurd hp (by decide)
  all_goals rfl

theorem onlyParts_setIob (s : State) (x : Iob) : OnlyParts [.iob] s (setIob s x) := by
  intro p hp
  cases p
  case iob => exact absurd hp (by decide)
  all_goals rfl

theorem onlyParts_drawn (s : State) : OnlyParts [.free] s (drawn s) := by
  intro p hp
  cases p
  case free => exact absurd hp (by decide)
  all_goals rfl

theorem LinksOnly.setStk (h : LinksOnly o s) (x : Stack) : LinksOnly o (setStk s x) := h.parts (by simp) (onlyParts_setStk s x) rfl

theorem LinksOnly.setIob (h : LinksOnly o s) (x : Iob) : LinksOnly o (setIob s x) := h.parts (by simp) (onlyParts_setIob s x) rfl

theorem LinksOnly.drawn (h : LinksOnly o s) : LinksOnly o (drawn s) := h.parts (by simp) (onlyParts_drawn s) rfl

theorem LinksOnly.ite {t : State} {c : Prop} [Decidable c] (h : LinksOnly o s) (k : LinksOnly o t) : LinksOnly o (if c then s else t) := by
  split
  exacts [h, k]

theorem LinksOnly.setLink (h : LinksOnly o s) (k : Nat) (x : Link) : LinksOnly o (setLink s k x) := h.setStk _

theorem LinksOnly.linkCounts (h : LinksOnly o s) (k : Nat) : LinksOnly o (linkCounts s k) :=
  ((h.setFld (.inl (by simp only [F.STK_Lk_STATUS_FREE]; omega)) _).setFld (.inl (by simp only [F.STK_Lk_STATUS_GUARD]; omega)) _).setFld
    (.inr rfl) _

theorem LinksOnly.setLkState (h : LinksOnly o s) (k v : Nat) : LinksOnly o (setLkState s k v) :=
  (h.setFld (.inl (by simp only [F.STK_Lk_STATUS_STATE]; omega)) _).linkCounts k

theorem LinksOnly.setSid (h : LinksOnly o s) (k i st lane : Nat) : LinksOnly o (setSid s k i st lane) :=
  ((h.setFld (.inl (by simp only [F.STK_Lk_SIDs_STATE]; omega)) _).setFld (.inl (by simp only [F.STK_Lk_SIDs_LANE]; omega)) _).linkCounts k

theorem LinksOnly.judgeLink (h : LinksOnly o s) (k : Nat) : LinksOnly o (judgeLink s k) :=
  .ite ((h.raise _ _).setLkState k _) h

theorem LinksOnly.guardOne (h : LinksOnly o s) (k : Nat) : LinksOnly o (guardOne s k) := by
  refine .ite h ?_
  split
  · exact (((h.setSid ..).setLkState ..).setLink ..).ite h
  · exact ((h.raise _ _).setFld (.inl (by simp only [F.STK_Lk_STATUS_GUARD_PERM]; omega)) _).ite h

theorem LinksOnly.judgeVio (h : LinksOnly o s) (b mv : Nat) : LinksOnly o (judgeVio s b mv) := by
  have hmeas := fun x => (h.setIob x).setFld (f := F.IOB_BANKb_STATUS_VMEAS b) (.inl (by simp only [F.IOB_BANKb_STATUS_VMEAS]; omega)) mv
  have hfault : 10518528 ≤ (F.IOB_BANKb_STATUS_VIO_FAULT b).key := by
    simp only [F.IOB_BANKb_STATUS_VIO_FAULT]
    omega
  exact ((((hmeas _).raise _ _).setFld (.inl hfault) _).ite (hmeas _)).ite
    ((((hmeas _).drawn.raise _ _).setFld (.inl hfault) _).ite (hmeas _))

/-- Health checks of a round in which no lane mismatches. -/
theorem LinksOnly.healthChecks (h : LinksOnly o s) : LinksOnly o (healthChecks s []) := by
  refine h.ite (LinksOnly.setStk (forEach_keeps (P := LinksOnly o) (fun t k ht => ?_) _ h) _)
  simp only [List.filter_nil, List.map_nil, checkLink, List.isEmpty_nil, if_true]
  exact ht.setLink ..

theorem LinksOnly.forEach {α : Type} {f : State → α → State} {l : List α} (hf : ∀ t x, LinksOnly o t → LinksOnly o (f t x))
    (h : LinksOnly o s) : LinksOnly o (forEach l f s) := forEach_keeps hf l h

/-- What follows in a round when its readings have been remembered. -/
def roundEnds (vio : List (BitVec 12)) (s : State) : State :=
  guardAll (healthChecks (forEach (List.range 43) judgeLink
    (forEach (List.range 8) (fun s b => judgeVio s b (vio.getD b 0).toNat) s)) [])

theorem linksOnly_roundEnds (vio : List (BitVec 12)) (s : State) : LinksOnly s (roundEnds vio s) :=
  .forEach (fun _ k ht => ht.guardOne k) <| LinksOnly.healthChecks <| .forEach (fun _ k ht => ht.judgeLink k) <|
    .forEach (fun _ _ ht => ht.judgeVio _ _) (.refl s)

/-! ### The readings of a round -/

/-- The readings of a sensor that has not failed, within −55 to 150 °C, only enter its register. -/
theorem readSensor_good {n : Nat} {t : BitVec 16} (h : sensorBad s n = false) (hl : -880 ≤ t.toInt) (hh : t.toInt ≤ 2400) :
    readSensor s n (some t) = setFld s (F.THM_Sn_TEMP n) t.toNat := by
  have ht : ofSigned 16 t.toInt = t.toNat := by
    have hlt := t.isLt
    rw [ofSigned, BitVec.toInt_eq_toNat_cond]
    split <;> omega
  simp only [readSensor, Option.map_some, if_pos (show -880 ≤ t.toInt ∧ t.toInt ≤ 2400 from ⟨hl, hh⟩), h, ht, Bool.not_false, if_true]

/-- The registers of the readings, and of the rates of rise. -/
def tempFlds : List Fld := (List.range 20).map F.THM_Sn_TEMP
def rateFlds : List Fld := (List.range 20).map F.THM_Sn_RATE

/-- Loops whose steps agree where an invariant holds end alike. -/
theorem forEach_congr {α : Type} {P : State → Prop} {f g : State → α → State} {l : List α} (heq : ∀ u, ∀ x ∈ l, P u → f u x = g u x)
    (hkeep : ∀ u, ∀ x ∈ l, P u → P (g u x)) (h : P s) : forEach l f s = forEach l g s := by
  induction l generalizing s with
  | nil => rfl
  | cons x xs ih =>
    have hstep := heq s x List.mem_cons_self h
    change forEach xs f (f s x) = forEach xs g (g s x)
    rw [hstep]
    exact ih (fun u y hy => heq u y (List.mem_cons_of_mem _ hy)) (fun u y hy => hkeep u y (List.mem_cons_of_mem _ hy))
      (hkeep s x List.mem_cons_self h)

/-- A loop that writes a value of its own to each place's field. -/
theorem fld_forEach_write {α : Type} {G : α → Fld} {v : α → Nat} (hG : ∀ a b, a ≠ b → (G a).key ≠ (G b).key) {l : List α} {m : α} (hm : m ∈ l)
    (s : State) : fld (forEach l (fun s a => setFld s (G a) (v a)) s) (G m) = v m % 2 ^ (G m).width := by
  induction l generalizing s with
  | nil => exact absurd hm List.not_mem_nil
  | cons x t ih =>
    by_cases ht : m ∈ t
    · exact ih ht _
    · obtain rfl : m = x := (List.mem_cons.1 hm).resolve_right ht
      exact (forEach_mem_keeps (P := fun u => fld u (G m) = v m % 2 ^ (G m).width) (fun u y hy hu =>
        (fld_setFld_ne u (hG m y fun e => ht (e ▸ hy)) _).trans hu) (fld_setFld_same ..))

/-- The readings of a round in which every sensor converts. -/
def readings (t : Fin 20 → BitVec 16) : List (Option (BitVec 16)) := (List.finRange 20).map fun n => some (t n)

theorem readings_getD (t : Fin 20 → BitVec 16) {n : Nat} (h : n < 20) : (readings t).getD n none = some (t ⟨n, h⟩) := by
  simp [readings, h]

/-- The readings entered. -/
def sensorsRead (t : Fin 20 → BitVec 16) (s : State) : State :=
  forEach (List.range 20) (fun s n => readSensor s n ((readings t).getD n none)) s

theorem sensorsRead_eq {t : Fin 20 → BitVec 16} (h : GoodSensors t s) : sensorsRead t s =
    forEach (List.range 20) (fun s n => setFld s (F.THM_Sn_TEMP n) (((readings t).getD n none).getD 0).toNat) s := by
  refine forEach_congr (P := fun u => ∀ n < 20, sensorBad u n = false) (fun u n hn hu => ?_) (fun u n hn hu k hk => ?_)
    fun n hn => h.2 ⟨n, hn⟩
  · have hn20 := List.mem_range.1 hn
    obtain ⟨hlo, hhi⟩ := h.1 ⟨n, hn20⟩
    rw [readings_getD t hn20]
    exact readSensor_good (hu n hn20) hlo hhi
  · have hkey : (F.THM_Sn_FAIL k).key ≠ (F.THM_Sn_TEMP n).key := by
      simp only [F.THM_Sn_FAIL, F.THM_Sn_TEMP]
      omega
    exact (flag_eq_of_fld (fld_setFld_ne u hkey _)).trans (hu k hk)

theorem only_sensorsRead {t : Fin 20 → BitVec 16} (h : GoodSensors t s) : Only [] tempFlds s (sensorsRead t s) := by
  rw [sensorsRead_eq h]
  exact forEach_mem_keeps (P := Only [] tempFlds s) (fun _ _ hn hu => hu.setFld (List.mem_map_of_mem hn) _) (.refl ..)

theorem fld_sensorsRead {t : Fin 20 → BitVec 16} (h : GoodSensors t s) (n : Fin 20) : fld (sensorsRead t s) (F.THM_Sn_TEMP n) = (t n).toNat := by
  have hG : ∀ a b : Nat, a ≠ b → (F.THM_Sn_TEMP a).key ≠ (F.THM_Sn_TEMP b).key := by
    intro a b hab
    simp only [F.THM_Sn_TEMP]
    omega
  rw [sensorsRead_eq h, fld_forEach_write (G := F.THM_Sn_TEMP) hG (List.mem_range.2 n.isLt), readings_getD t n.isLt]
  exact Nat.mod_eq_of_lt (t n).isLt

/-- What the judgements of a round rest on: the sensors show the readings, and none has failed. -/
structure Reads (t : Fin 20 → BitVec 16) (s : State) : Prop where
  temp : ∀ n : Fin 20, fld s (F.THM_Sn_TEMP n) = (t n).toNat
  good : ∀ n : Fin 20, flag s (F.THM_Sn_FAIL n) = false

theorem Reads.of_flds {t : Fin 20 → BitVec 16} {u : State} (h : Reads t s) (hf : ∀ n : Fin 20,
    fld u (F.THM_Sn_TEMP n) = fld s (F.THM_Sn_TEMP n) ∧ fld u (F.THM_Sn_FAIL n) = fld s (F.THM_Sn_FAIL n)) : Reads t u :=
  ⟨fun n => (hf n).1.trans (h.temp n), fun n => (flag_eq_of_fld (hf n).2).trans (h.good n)⟩

theorem Reads.of_only {t : Fin 20 → BitVec 16} {ps : List Part} {fs : List Fld} {u : State} (h : Reads t s) (ho : Only ps fs s u)
    (hf : ∀ n : Fin 20, (F.THM_Sn_TEMP n).key ∉ fs.map Fld.key ∧ (F.THM_Sn_FAIL n).key ∉ fs.map Fld.key) : Reads t u :=
  h.of_flds fun n => ⟨ho.2 _ (hf n).1, ho.2 _ (hf n).2⟩

theorem reads_sensorsRead {t : Fin 20 → BitVec 16} (h : GoodSensors t s) : Reads t (sensorsRead t s) := by
  refine ⟨fld_sensorsRead h, fun n => (flag_eq_of_fld ((only_sensorsRead h).2 _ ?_)).trans (h.2 n)⟩
  revert n
  decide

section
variable {t : Fin 20 → BitVec 16} (h : Reads t s)
include h

theorem Reads.sensor (n : Fin 20) : sensor s n = (t n).toInt := by
  have hlt := (t n).isLt
  rw [Machine.sensor, h.temp n, toSigned, BitVec.toInt_eq_toNat_cond, Nat.mod_eq_of_lt hlt]
  split <;> split <;> omega

theorem Reads.sensor_lt {n : Nat} (hn : n < 20) : Machine.sensor s n = (t ⟨n, hn⟩).toInt := h.sensor ⟨n, hn⟩

theorem Reads.goodSensors : goodSensors s = List.range 20 :=
  List.filter_eq_self.2 fun n hn => by
    have := h.good ⟨n, List.mem_range.1 hn⟩
    simp [sensorBad, this]

theorem Reads.anyHot_some {l : Int} (k : Fin 20) (hk : 16 * l ≤ (t k).toInt) : (anyHot s l).isSome = true := by
  rw [anyHot, h.goodSensors, List.find?_isSome]
  exact ⟨k, List.mem_range.2 k.isLt, by rw [h.sensor]; exact decide_eq_true hk⟩

theorem Reads.anyHot_none {l : Int} (hl : ∀ n : Fin 20, (t n).toInt < 16 * l) : anyHot s l = none := by
  rw [anyHot, h.goodSensors, List.find?_eq_none]
  intro n hn
  have := hl ⟨n, List.mem_range.1 hn⟩
  rw [h.sensor_lt (List.mem_range.1 hn)]
  simpa using this

theorem Reads.blindDie_none : blindDie s = none := by
  rw [blindDie, List.find?_eq_none]
  intro p hp
  have hlt := List.mem_range.1 hp
  have := h.good ⟨2 * p, by omega⟩
  simp [sensorBad, this]

end

/-- Without a round 256 rounds earlier no sensor rises. -/
theorem anyFast_none {r : Int} (hh : s.thm.hist.length < 256) (hr : 0 < r) : anyFast s r = none := by
  rw [anyFast, List.find?_eq_none]
  intro n _
  rw [rise, List.getElem?_eq_none (by omega)]
  simp
  omega

/-! ### The judgement of a round -/

/-- The readings of a round entered, with the rates, the hottest sensor and the peak. -/
def roundMeasured (t : Fin 20 → BitVec 16) (x : RoundIn) (s : State) : State :=
  hottest (forEach (List.range 20) setRate (sensorsRead t (recordRound s x)))

def measuredFlds : List Fld := F.THM_STATUS_HOTTEST :: F.THM_PEAK_TEMP :: rateFlds

theorem only_recordRound (s : State) (x : RoundIn) : Only [.thm] [F.STK_IVCORE_CURRENT] s (recordRound s x) :=
  (only_setThm (.refl ..) (by simp) _).setFld (by simp) _

theorem only_hottest {ps : List Part} {fs : List Fld} (h : Only ps fs o s) (hh : F.THM_STATUS_HOTTEST ∈ fs) (hp : F.THM_PEAK_TEMP ∈ fs) :
    Only ps fs o (hottest s) := by
  unfold hottest
  split
  · exact h
  · exact ((h.setFld hh _).setFld hp _).ite (h.setFld hh _)

theorem only_rates {ps : List Part} {fs : List Fld} (h : Only ps fs o s) (hf : .free ∈ ps) (hr : rateFlds ⊆ fs) :
    Only ps fs o (forEach (List.range 20) setRate s) :=
  forEach_mem_keeps (fun _ _ hn hu => (hu.parts (by simpa using hf) (onlyParts_drawn _) rfl).setFld
    (hr (List.mem_map_of_mem hn)) _) h

theorem goodSensors_recordRound {t : Fin 20 → BitVec 16} {x : RoundIn} (h : GoodSensors t s) : GoodSensors t (recordRound s x) :=
  ⟨h.1, fun n => (flag_eq_of_fld ((only_recordRound s x).2 _ (by revert n; decide))).trans (h.2 n)⟩

theorem only_roundMeasured_sensorsRead (t : Fin 20 → BitVec 16) (x : RoundIn) (s : State) :
    Only [.free] measuredFlds (sensorsRead t (recordRound s x)) (roundMeasured t x s) :=
  only_hottest (only_rates (fs := measuredFlds) (.refl ..) (by simp) fun _ h => List.mem_cons_of_mem _ (List.mem_cons_of_mem _ h))
    (by simp [measuredFlds]) (by simp [measuredFlds])

section
variable {t : Fin 20 → BitVec 16} {x : RoundIn} (h : GoodSensors t s)
include h

theorem reads_roundMeasured : Reads t (roundMeasured t x s) :=
  (reads_sensorsRead (goodSensors_recordRound h)).of_only (only_roundMeasured_sensorsRead t x s) (by decide)

theorem only_roundMeasured : Only [.thm, .free] (F.STK_IVCORE_CURRENT :: (measuredFlds ++ tempFlds)) s (roundMeasured t x s) :=
  ((((only_recordRound s x).mono (by simp) (by simp [measuredFlds])).trans
    ((only_sensorsRead (goodSensors_recordRound h)).mono (by simp) (by simp))).trans
    ((only_roundMeasured_sensorsRead t x s).mono (by simp) (by simp)))

theorem thm_roundMeasured : (roundMeasured t x s).thm = { s.thm with round := (s.thm.round + 1) % 2 ^ 32, volts := x.volts.map (·.toNat) } :=
  ((only_roundMeasured_sensorsRead t x s).1 .thm (by decide)).trans ((only_sensorsRead (goodSensors_recordRound h)).1 .thm (by decide))

theorem ivcore_roundMeasured : fld (roundMeasured t x s) F.STK_IVCORE_CURRENT = x.ivcore.toNat := by
  have hsensors := (only_sensorsRead (goodSensors_recordRound (x := x) h)).2 F.STK_IVCORE_CURRENT (by decide)
  rw [(only_roundMeasured_sensorsRead t x s).2 _ (by decide), hsensors, recordRound, fld_setFld_same]
  exact Nat.mod_eq_of_lt x.ivcore.isLt

end

/-- The register fields that the judgement of the thermal state may change. -/
def judgedFlds : List Fld := F.THM_STATUS_STATE :: bstopFlds

theorem only_countRounds (s : State) : Only [.thm] [] s (countRounds s) := only_setThm (.refl ..) (by simp) _

/-- The thermal state entered, before its events. -/
def thermalEntered (s : State) : State := setFld (countRounds s) F.THM_STATUS_STATE (nextThermal (countRounds s))

theorem nextThermal_lt (s : State) : nextThermal s < 4 := by
  unfold nextThermal
  dsimp only
  split
  · decide
  · split
    · decide
    · split <;> decide

theorem only_judgeThermal_entered (s : State) : Only dspParts bstopFlds (thermalEntered s) (judgeThermal s) := by
  have hraise := fun c l => (Only.refl dspParts bstopFlds (thermalEntered s)).raise (by decide) c l
  unfold judgeThermal
  exact .ite (.refl ..) (.ite (hraise _ _) (.ite (hraise _ _) (.ite ((hraise _ _).trans (only_bstopTrigger _ _)) (hraise _ _))))

theorem only_judgeThermal (s : State) : Only (.thm :: dspParts) judgedFlds s (judgeThermal s) :=
  (((only_countRounds s).mono (by simp) (by simp)).setFld (by simp [judgedFlds]) _).trans
    ((only_judgeThermal_entered s).mono (by simp) (by simp [judgedFlds]))

theorem state_judgeThermal (s : State) : fld (judgeThermal s) F.THM_STATUS_STATE = nextThermal (countRounds s) := by
  rw [(only_judgeThermal_entered s).2 _ (by decide), thermalEntered, fld_setFld_same]
  exact Nat.mod_eq_of_lt (nextThermal_lt _)

theorem thm_judgeThermal (s : State) : (judgeThermal s).thm = (countRounds s).thm := (only_judgeThermal_entered s).1 .thm (by decide)

/-- Entering TRIP leaves RUN. -/
theorem judgeThermal_trips (h : nextThermal (countRounds s) = tTRIP) (hs : fld s F.THM_STATUS_STATE ≠ tTRIP) :
    fld (judgeThermal s) F.DSP_STATUS_BSTOP ≠ 0 := by
  have hold : fld (countRounds s) F.THM_STATUS_STATE = fld s F.THM_STATUS_STATE := (only_countRounds s).2 _ (by decide)
  have htrip : judgeThermal s = bstopTrigger (raise (thermalEntered s) 0x0404 []) BC.therm := by
    simp only [judgeThermal, thermalEntered, h, hold]
    rw [if_neg (Ne.symm hs), if_neg (by decide), if_neg (by decide), if_pos trivial]
  rw [htrip]
  exact bstopState_bstopTrigger_ne_run _ _

def slowedFlds : List Fld := [F.THM_CTRL_ENABLE, F.THM_STATUS_DRAINING, F.THM_STATUS_SLOWDOWN, F.PCI_PBA_PENDING]

/-- The end of throttling where its enable was cleared. -/
def throttleEnded (s : State) : State :=
  if flag s F.THM_STATUS_DRAINING then setFld (setFld s F.THM_CTRL_ENABLE 0) F.THM_STATUS_DRAINING 0 else s

/-- SLOWDOWN as throttling and the thermal state say. -/
def slows (s : State) : Bool := flag (throttleEnded s) F.THM_CTRL_ENABLE && decide (tCRITICAL ≤ fld (throttleEnded s) F.THM_STATUS_STATE)

theorem only_throttleEnded (s : State) : Only [] [F.THM_CTRL_ENABLE, F.THM_STATUS_DRAINING] s (throttleEnded s) :=
  .ite (((Only.refl ..).setFld (by simp) _).setFld (by simp) _) (.refl ..)

theorem only_slowdown_throttleEnded (s : State) :
    Only [] [F.PCI_PBA_PENDING] (setFld (throttleEnded s) F.THM_STATUS_SLOWDOWN (b2n (slows s))) (slowdown s) :=
  .ite ((Only.refl ..).pendVec (by simp) _) (.refl ..)

theorem only_slowdown (s : State) : Only [] slowedFlds s (slowdown s) :=
  ((only_throttleEnded s).mono (by simp) (by simp [slowedFlds])).setFld (by simp [slowedFlds]) _ |>.trans
    ((only_slowdown_throttleEnded s).mono (by simp) (by simp [slowedFlds]))

theorem flag_b2n (s : State) (f : Fld) (hw : f.width = 1) (b : Bool) : flag (setFld s f (b2n b)) f = b := by
  rw [flag, fld_setFld_same, hw]
  cases b <;> rfl

theorem slowdown_slowdown (s : State) : flag (slowdown s) F.THM_STATUS_SLOWDOWN = slows s :=
  (flag_eq_of_fld ((only_slowdown_throttleEnded s).2 _ (by decide))).trans (flag_b2n _ _ rfl _)

/-- Throttling that is not being disabled goes on. -/
theorem slows_of_not_draining (h : flag s F.THM_STATUS_DRAINING = false) :
    slows s = (flag s F.THM_CTRL_ENABLE && decide (tCRITICAL ≤ fld s F.THM_STATUS_STATE)) := by
  simp only [slows, throttleEnded, h]
  rfl

theorem slows_of_calm (h : fld s F.THM_STATUS_STATE < tCRITICAL) : slows s = false := by
  have hstate : fld (throttleEnded s) F.THM_STATUS_STATE = fld s F.THM_STATUS_STATE := (only_throttleEnded s).2 _ (by decide)
  rw [slows, hstate, decide_eq_false (Nat.not_le.2 h), Bool.and_false]

/-- A round ends the draining of the thermal block. -/
theorem slowdown_drained (h : flag s F.THM_STATUS_DRAINING = true) : flag (slowdown s) F.THM_CTRL_ENABLE = false
    ∧ flag (slowdown s) F.THM_STATUS_DRAINING = false ∧ flag (slowdown s) F.THM_STATUS_SLOWDOWN = false := by
  have hended : throttleEnded s = setFld (setFld s F.THM_CTRL_ENABLE 0) F.THM_STATUS_DRAINING 0 := if_pos h
  have hen : flag (throttleEnded s) F.THM_CTRL_ENABLE = false := by
    rw [hended]
    exact flag_of_fld ((fld_setFld_ne _ (by decide) _).trans (fld_setFld_same ..))
  have hdr : flag (throttleEnded s) F.THM_STATUS_DRAINING = false := by
    rw [hended]
    exact flag_of_fld (fld_setFld_same ..)
  have hkept := fun (f : Fld) hf (hs : f.key ≠ _) =>
    ((only_slowdown_throttleEnded s).2 f hf).trans (fld_setFld_ne (g := f) (f := F.THM_STATUS_SLOWDOWN) _ hs _)
  exact ⟨(flag_eq_of_fld (hkept _ (by decide) (by decide))).trans hen, (flag_eq_of_fld (hkept _ (by decide) (by decide))).trans hdr, by
    rw [slowdown_slowdown, slows, hen, Bool.false_and]⟩

/-! ### Readings of any kind -/

def failFlds : List Fld := (List.range 20).map F.THM_Sn_FAIL

/-- Whatever a sensor delivers, only its own registers and its count of good readings follow. -/
theorem only_readSensor {fs : List Fld} {n : Nat} (h : Only [.thm, .evq] fs o s) (ht : F.THM_Sn_TEMP n ∈ fs) (hf : F.THM_Sn_FAIL n ∈ fs)
    (v : Option (BitVec 16)) : Only [.thm, .evq] fs o (readSensor s n v) := by
  have hfail : Only [.thm, .evq] fs o (readSensor.sensorFail s n) :=
    .ite (only_setThm h (by simp) _) (((only_setThm h (by simp) _).raise (by simp) _ _).setFld hf _)
  unfold readSensor
  split
  · exact .ite (.ite (h.setFld ht _) (.ite ((only_setThm (h.setFld ht _) (by simp) _).setFld hf _) (only_setThm (h.setFld ht _) (by simp) _))) hfail
  · exact hfail

theorem only_roundMeasured_any (t : Fin 20 → BitVec 16) (x : RoundIn) (s : State) :
    Only [.thm, .evq, .free] (F.STK_IVCORE_CURRENT :: (measuredFlds ++ (tempFlds ++ failFlds))) s (roundMeasured t x s) := by
  have hread : Only [.thm, .evq] (tempFlds ++ failFlds) (recordRound s x) (sensorsRead t (recordRound s x)) :=
    forEach_mem_keeps (P := Only [.thm, .evq] (tempFlds ++ failFlds) (recordRound s x)) (fun _ n hn hu => only_readSensor hu
      (List.mem_append_left _ (List.mem_map_of_mem hn)) (List.mem_append_right _ (List.mem_map_of_mem hn)) _) (.refl ..)
  exact (((only_recordRound s x).mono (by simp) (by simp)).trans (hread.mono (by simp) (by simp))).trans
    ((only_roundMeasured_sensorsRead t x s).mono (by simp) (by simp))

/-! ### A whole round -/

/-- A round up to its judgement and SLOWDOWN. -/
def roundJudged (t : Fin 20 → BitVec 16) (x : RoundIn) (s : State) : State := slowdown (judgeThermal (roundMeasured t x s))

section
variable {t : Fin 20 → BitVec 16} {x : RoundIn}

theorem housekeeping_of {iv : BitVec 9} {v : List (BitVec 16)} {vio : List (BitVec 12)} (h : RoundsRun s) :
    exec (.housekeepingRound (roundOf t iv v vio)) s = done (roundEnds vio (remember (roundJudged t (roundOf t iv v vio) s))) := by
  obtain ⟨-, hstate, hfrozen⟩ := h
  have hrun : roundsRun s = true := by
    have : fld s F.PWR_STATUS_STATE = 0 ∨ fld s F.PWR_STATUS_STATE = 1 := by omega
    rcases this with h | h <;> simp [roundsRun, pwrState, wRUN, wIDLE, h, hfrozen]
  change done (housekeeping s _) = _
  rw [housekeeping, hrun]
  rfl

theorem only_roundJudged_measured (t : Fin 20 → BitVec 16) (x : RoundIn) (s : State) :
    Only (.thm :: dspParts) (judgedFlds ++ slowedFlds) (roundMeasured t x s) (roundJudged t x s) :=
  ((only_judgeThermal _).mono (by simp) (by simp)).trans ((only_slowdown _).mono (by simp) (by simp))

/-- The registers below the links read what they read after the judgement. -/
theorem fld_roundEnds (vio : List (BitVec 12)) (s : State) {f : Fld} (h : f.key < 10518528) (hr : f.key ≠ F.STK_STATUS_RETRAINING.key) :
    fld (roundEnds vio (remember s)) f = fld s f :=
  ((linksOnly_roundEnds vio (remember s)).2 f h hr).trans ((only_setThm (s := s) (.refl [.thm] [] s) (by simp) _).2 f (by simp))

theorem thm_roundEnds (vio : List (BitVec 12)) (s : State) : (roundEnds vio (remember s)).thm =
    { s.thm with hist := (((List.range 20).map (sensor s)) :: s.thm.hist).take 256 } :=
  (linksOnly_roundEnds vio (remember s)).1 .thm (by decide)

variable (h : GoodSensors t s)
include h

theorem reads_roundJudged : Reads t (roundJudged t x s) :=
  (reads_roundMeasured h).of_only (only_roundJudged_measured t x s) (by decide)

/-- A register that the readings do not write reads before the judgement what it read before the round. -/
theorem fld_roundMeasured {f : Fld} (hf : f.key ∉ (F.STK_IVCORE_CURRENT :: (measuredFlds ++ tempFlds)).map Fld.key) :
    fld (roundMeasured t x s) f = fld s f := (only_roundMeasured h).2 f hf

end

section
variable {t : Fin 20 → BitVec 16} {x : RoundIn}

omit t x in
theorem thm_countRounds (s : State) : (countRounds s).thm.round = s.thm.round ∧ (countRounds s).thm.volts = s.thm.volts
    ∧ (countRounds s).thm.hist = s.thm.hist := ⟨rfl, rfl, rfl⟩

/-- The judgement leaves the count of rounds, the voltages and the history to their writers. -/
theorem thm_roundJudged (h : GoodSensors t s) : (roundJudged t x s).thm.round = (s.thm.round + 1) % 2 ^ 32
    ∧ (roundJudged t x s).thm.volts = x.volts.map (·.toNat) ∧ (roundJudged t x s).thm.hist = s.thm.hist := by
  have hj : (roundJudged t x s).thm = (judgeThermal (roundMeasured t x s)).thm := (only_slowdown _).1 .thm (by decide)
  have hm := thm_roundMeasured (x := x) h
  obtain ⟨hround, hvolts, hhist⟩ := thm_countRounds (roundMeasured t x s)
  rw [hm] at hround hvolts hhist
  rw [hj, thm_judgeThermal]
  exact ⟨hround, hvolts, hhist⟩

theorem onlyParts_hush (s : State) {ps : List Part} (h : Part.evq ∈ ps) : OnlyParts ps s (hush s) := by
  intro p hp
  cases p
  case evq => exact absurd h hp
  all_goals rfl

/-- The parts that a round may touch. -/
theorem parts_roundEnds (vio : List (BitVec 12)) {j : State} (h : OnlyParts (.regs :: .thm :: .free :: dspParts) s j) :
    OnlyParts [.regs, .evq, .thm, .stk, .iob, .free, .wire, .mem, .cache, .lanes, .dsp, .ports, .tt] s
      (hush (roundEnds vio (remember j))) := by
  have hr : OnlyParts [.regs, .thm] j (remember j) := (only_setThm (.refl [.thm] [] j) (by simp) _).1
  have hl := (linksOnly_roundEnds vio (remember j)).1
  refine OnlyParts.trans (OnlyParts.trans (h.mono ?_) (hr.mono ?_)) (OnlyParts.trans (hl.mono ?_) (onlyParts_hush _ ?_))
  all_goals decide

/-- What a round shows once its readings are taken. -/
theorem roundEnds_judged (vio : List (BitVec 12)) (m : State) :
    fld (hush (roundEnds vio (remember (slowdown (judgeThermal m))))) F.THM_STATUS_STATE = nextThermal (countRounds m)
    ∧ flag (hush (roundEnds vio (remember (slowdown (judgeThermal m))))) F.THM_STATUS_SLOWDOWN = slows (judgeThermal m)
    ∧ (hush (roundEnds vio (remember (slowdown (judgeThermal m))))).thm.hot = (countRounds m).thm.hot := by
  have hfld := fun (f : Fld) => fld_roundEnds vio (slowdown (judgeThermal m)) (f := f)
  have hend := congrArg Thermal.hot (thm_roundEnds vio (slowdown (judgeThermal m)))
  have hslow := only_slowdown (judgeThermal m)
  have hthm : (slowdown (judgeThermal m)).thm = (judgeThermal m).thm := hslow.1 .thm (by decide)
  generalize hw : roundEnds vio (remember (slowdown (judgeThermal m))) = w at *
  refine ⟨?_, ?_, ?_⟩
  · exact (hfld _ (by decide) (by decide)).trans ((hslow.2 _ (by decide)).trans (state_judgeThermal m))
  · exact (flag_eq_of_fld (hfld _ (by decide) (by decide))).trans (slowdown_slowdown _)
  · rw [← thm_judgeThermal, ← hthm]
    exact hend

theorem Reads.sensors (h : Reads t s) :
    (List.range 20).map (Machine.sensor s) = (List.range 20).map fun n => if h : n < 20 then (t ⟨n, h⟩).toInt else 0 := by
  refine List.map_congr_left fun n hn => ?_
  rw [h.sensor_lt (List.mem_range.1 hn), dif_pos (List.mem_range.1 hn)]

end

/-! ### The thermal state of a round -/

section
variable {t : Fin 20 → BitVec 16} (h : Reads t s)
include h

theorem reads_countRounds : Reads t (countRounds s) := h.of_only (only_countRounds s) fun _ => by simp

omit h in
theorem fld_countRounds (s : State) (f : Fld) : fld (countRounds s) f = fld s f := (only_countRounds s).2 f (by simp)

theorem hot_countRounds_below (hl : ∀ n : Fin 20, (t n).toInt < 16 * limTrip s) : (countRounds s).thm.hot = 0 := by
  change (if (anyHot s (limTrip s)).isSome then _ else 0) = 0
  rw [h.anyHot_none hl]
  rfl

theorem hot_countRounds_above (k : Fin 20) (hk : 16 * limTrip s ≤ (t k).toInt) : (countRounds s).thm.hot = min (s.thm.hot + 1) 2 := by
  change (if (anyHot s (limTrip s)).isSome then _ else 0) = _
  rw [h.anyHot_some k hk]
  rfl

/-- A sensor at the limit, none at TRIP: CRITICAL. -/
theorem nextThermal_critical (k : Fin 20) (hk : 16 * limCrit s ≤ (t k).toInt) (hs : fld s F.THM_STATUS_STATE ≠ 3) (hh : s.thm.hot = 0) :
    nextThermal s = 2 := by
  have hcrit : (critCause s).isSome = true := by
    have hhot := h.anyHot_some k hk
    rw [critCause]
    generalize anyHot s (limCrit s) = a at hhot
    cases a with
    | none => cases hhot
    | some n => rfl
  rw [nextThermal]
  rw [if_neg (by simp [tTRIP, hs, hh]), hcrit, Bool.true_or, if_pos rfl]
  rfl

/-- Every sensor below WARN, and no rate known: NORMAL stays. -/
theorem nextThermal_normal (hw : ∀ n : Fin 20, (t n).toInt < 16 * limWarn s) (hc : ∀ n : Fin 20, (t n).toInt < 16 * limCrit s)
    (hn : s.thm.hist.length < 256) (hrw : 0 < fld s F.THM_RATE_RWARN) (hrc : 0 < fld s F.THM_RATE_RCRIT)
    (hs : fld s F.THM_STATUS_STATE = 0) (hh : s.thm.hot = 0) : nextThermal s = 0 := by
  have hcrit : critCause s = none := by
    rw [critCause, h.anyHot_none hc, anyFast_none hn (by exact_mod_cast hrc), h.blindDie_none]
  rw [nextThermal]
  rw [hs, hh, hcrit, h.anyHot_none hw, anyFast_none hn (by exact_mod_cast hrw)]
  rfl

end

theorem nextThermal_trip (hh : s.thm.hot = 2) : nextThermal s = tTRIP := by
  rw [nextThermal]
  exact if_pos (.inr hh.ge)

/-! ### THERM -/

/-- The event and the recorded cause of THERM. -/
def thermCaused (s : State) : State := assertCause s cTHERM 0 0

theorem only_thermCaused (s : State) : Only [.evq] [F.GLB_RST_CAUSE_SOURCE, F.GLB_RST_CAUSE_QUAL, F.GLB_RST_CAUSE_ENGINE] s (thermCaused s) :=
  ((((Only.refl ..).raise (by simp) _ _).setFld (by simp) _).setFld (by simp) _).setFld (by simp) _

theorem cause_thermCaused (s : State) : CauseIs 5 0 0 (thermCaused s) := by
  refine ⟨?_, ?_, ?_⟩
  · exact (fld_setFld_ne _ (by decide) _).trans ((fld_setFld_ne _ (by decide) _).trans (fld_setFld_same ..))
  · exact (fld_setFld_ne _ (by decide) _).trans (fld_setFld_same ..)
  · exact fld_setFld_same ..

theorem unitsIdle_thermCaused (h : UnitsIdle s) : UnitsIdle (thermCaused s) := unitsIdle_of (only_thermCaused s) h (by decide)

/-- The recorded cause outlives the entry to OFF. -/
theorem causeIs_enterOff {src qual eng : Nat} (h : UnitsIdle s) (hc : CauseIs src qual eng s) : CauseIs src qual eng (enterOff s) := by
  have hkept : ∀ f ∈ [F.GLB_RST_CAUSE_SOURCE, F.GLB_RST_CAUSE_QUAL, F.GLB_RST_CAUSE_ENGINE], fld (enterOff s) f = fld s f := by
    intro f hf
    rw [enterOff_eq, fld_off _ _ _ (by revert f; decide), fld_pinReset_kept h (by revert f; decide) (by revert f; decide) (by revert f; decide)]
  obtain ⟨hsrc, hqual, heng⟩ := hc
  exact ⟨(hkept _ (by simp)).trans hsrc, (hkept _ (by simp)).trans hqual, (hkept _ (by simp)).trans heng⟩

theorem causeIs_hush {src qual eng : Nat} (h : CauseIs src qual eng s) : CauseIs src qual eng (hush s) := h

theorem assertTherm_eq (s : State) : assertTherm s = enterOff (thermCaused s) := rfl

/-- What THERM leaves, and what it raises. -/
theorem assertTherm_spec (h : UnitsIdle s) : (assertTherm s).evq = s.evq ++ (ev 0x0101 [(1, 5), (1, 0), (1, 0)] :: regionGone s)
    ∧ CauseIs 5 0 0 (hush (assertTherm s)) ∧ InOff (s.rst.fault.filter (· != 0)) (hush (assertTherm s)) := by
  have hidle := unitsIdle_thermCaused h
  have hevq : (thermCaused s).evq = s.evq ++ [ev 0x0101 [(1, 5), (1, 0), (1, 0)]] := rfl
  have hgone : regionGone (thermCaused s) = regionGone s := regionGone_of (only_thermCaused s) (by decide)
  have hrst : (thermCaused s).rst = s.rst := (only_thermCaused s).1 .rst (by decide)
  have hcause := causeIs_enterOff hidle (cause_thermCaused s)
  have hin := inOff_hush_enterOff hidle (by rw [hrst])
  have hend := evq_enterOff hidle
  rw [hevq, hgone, List.append_assoc] at hend
  rw [assertTherm_eq]
  exact ⟨hend, causeIs_hush hcause, hin⟩

/-! ### The trip checks of SLEEP and DEEP SLEEP -/

/-- The readings of a trip check, with the checks in a row at TRIP. -/
def tripChecked (t : Fin 20 → BitVec 16) (s : State) : State :=
  let s1 := sensorsRead t s
  setThm s1 { s1.thm with hot := if (anyHot s1 (limTrip s1)).isSome then min (s1.thm.hot + 1) 2 else 0 }

theorem only_tripChecked {t : Fin 20 → BitVec 16} (h : GoodSensors t s) : Only [.thm] tempFlds s (tripChecked t s) :=
  only_setThm ((only_sensorsRead h).mono (by simp) (by simp)) (by simp) _

theorem thm_tripChecked {t : Fin 20 → BitVec 16} (h : GoodSensors t s) (k : Fin 20) (hk : 16 * limTrip s ≤ (t k).toInt) :
    (tripChecked t s).thm = { s.thm with hot := min (s.thm.hot + 1) 2 } := by
  have hlim : limTrip (sensorsRead t s) = limTrip s := by
    rw [limTrip, limTrip, (only_sensorsRead h).2 _ (by decide)]
  have hthm : (sensorsRead t s).thm = s.thm := (only_sensorsRead h).1 .thm (by decide)
  have hhot := (reads_sensorsRead h).anyHot_some k (l := limTrip (sensorsRead t s)) (by rwa [hlim])
  simp only [tripChecked, setThm, hhot, hthm, if_true]

theorem sleepTripCheck_of (t : Fin 20 → BitVec 16) (h : fld s F.PWR_STATUS_STATE = 2 ∨ fld s F.PWR_STATUS_STATE = 3) :
    exec (.sleepTripCheck (readings t)) s = done (if (tripChecked t s).thm.hot = 2 then assertTherm (raise (tripChecked t s) 0x0404 [])
      else tripChecked t s) := by
  change done (sleepTrip s (readings t)) = _
  rw [sleepTrip, if_neg (by simp only [pwrState, wSLEEP, wDEEP]; omega)]
  rfl

end Sys2Proof.Machine
end

section
open Sys2Proof Sys2Proof.Machine

/-- Settles O55: a round's readings, its judgement and SLOWDOWN in turn; the links and VIO after them touch none of these. -/
theorem thermalRoundsAndTrips : Obligations.ThermalRoundsAndTrips := by
  unfold Obligations.ThermalRoundsAndTrips
  refine ⟨?records, ?critical, ?normal, ?trips, ?rests, ?disable, ?drained, ?therm, ?noTherm, ?awake, ?first, ?second⟩
  case records =>
    intro t iv v vio s hs hg
    have hr := reads_roundJudged (x := roundOf t iv v vio) hg
    have hj := only_roundJudged_measured t (roundOf t iv v vio) s
    have hm := only_roundMeasured (x := roundOf t iv v vio) hg
    have hthm := thm_roundJudged (x := roundOf t iv v vio) hg
    have hiv := (hj.2 F.STK_IVCORE_CURRENT (by decide)).trans (ivcore_roundMeasured (x := roundOf t iv v vio) hg)
    refine runs_of (housekeeping_of hs) ?_
    have hparts := parts_roundEnds vio ((hm.1.mono (by decide)).trans (hj.1.mono (by decide)))
    generalize roundJudged t (roundOf t iv v vio) s = j at *
    obtain ⟨hround, hvolts, hhist⟩ := hthm
    have hend := thm_roundEnds vio j
    have hfld := fun (f : Fld) => fld_roundEnds vio j (f := f)
    generalize roundEnds vio (remember j) = w at *
    refine ⟨fun n => ⟨?_, ?_⟩, ?_, ?_, ?_, ?_, hparts⟩
    · exact (hfld _ (by simp only [F.THM_Sn_TEMP]; omega) (by simp only [F.THM_Sn_TEMP, F.STK_STATUS_RETRAINING]; omega)).trans (hr.temp n)
    · exact (flag_eq_of_fld (hfld _ (by simp only [F.THM_Sn_FAIL]; omega)
        (by simp only [F.THM_Sn_FAIL, F.STK_STATUS_RETRAINING]; omega))).trans (hr.good n)
    · exact (congrArg Thermal.round hend).trans hround
    · exact (congrArg Thermal.volts hend).trans hvolts
    · exact (hfld F.STK_IVCORE_CURRENT (by decide) (by decide)).trans hiv
    · refine (congrArg Thermal.hist hend).trans ?_
      simp only [hhist, hr.sensors]
  case critical =>
    intro t k iv v vio s hs hg hn hk hbelow hst hdr
    refine runs_of (housekeeping_of hs) ?_
    have hlim := fun (f : Fld) hf => fld_roundMeasured (x := roundOf t iv v vio) hg (f := f) hf
    have hr := reads_countRounds (reads_roundMeasured (x := roundOf t iv v vio) hg)
    have hm := reads_roundMeasured (x := roundOf t iv v vio) hg
    have hj : roundJudged t (roundOf t iv v vio) s = slowdown (judgeThermal (roundMeasured t (roundOf t iv v vio) s)) := rfl
    rw [hj]
    have htrip := hlim F.THM_LIMITS_TRIP (by decide)
    have hcrit := hlim F.THM_LIMITS_CRIT (by decide)
    have hstate := hlim F.THM_STATUS_STATE (by decide)
    have hdrain := hlim F.THM_STATUS_DRAINING (by decide)
    have hen := hlim F.THM_CTRL_ENABLE (by decide)
    generalize roundMeasured t (roundOf t iv v vio) s = m at *
    have hhot := hot_countRounds_below hm (by rw [limTrip, htrip]; exact hbelow)
    have hnext := nextThermal_critical hr k (by rw [limCrit, fld_countRounds, hcrit]; omega) (by rw [fld_countRounds, hstate]; exact hst) hhot
    obtain ⟨hstate2, hslow, hhot2⟩ := roundEnds_judged vio m
    rw [hnext] at hstate2
    refine ⟨hstate2, ?_, hhot2.trans hhot⟩
    have hkept := fun f (hf : f.key ∉ judgedFlds.map Fld.key) => (only_judgeThermal m).2 f hf
    rw [hslow, slows_of_not_draining ((flag_eq_of_fld ((hkept _ (by decide)).trans hdrain)).trans hdr), state_judgeThermal, hnext,
      flag_eq_of_fld ((hkept F.THM_CTRL_ENABLE (by decide)).trans hen)]
    exact Bool.and_true _
  case normal =>
    intro t iv v vio s hs hg hn hbelow hst hhot0
    refine runs_of (housekeeping_of hs) ?_
    obtain ⟨hlen, hrw, hrc⟩ := hn
    have hlim := fun (f : Fld) hf => fld_roundMeasured (x := roundOf t iv v vio) hg (f := f) hf
    have hm := reads_roundMeasured (x := roundOf t iv v vio) hg
    have hthm := congrArg Thermal.hist (thm_roundMeasured (x := roundOf t iv v vio) hg)
    have hj : roundJudged t (roundOf t iv v vio) s = slowdown (judgeThermal (roundMeasured t (roundOf t iv v vio) s)) := rfl
    rw [hj]
    have htrip := hlim F.THM_LIMITS_TRIP (by decide)
    have hcrit := hlim F.THM_LIMITS_CRIT (by decide)
    have hwarn := hlim F.THM_LIMITS_WARN (by decide)
    have hrwarn := hlim F.THM_RATE_RWARN (by decide)
    have hrcrit := hlim F.THM_RATE_RCRIT (by decide)
    have hstate := hlim F.THM_STATUS_STATE (by decide)
    generalize roundMeasured t (roundOf t iv v vio) s = m at *
    obtain ⟨-, -, hhist⟩ := thm_countRounds m
    have hhot := hot_countRounds_below hm (by rw [limTrip, htrip]; exact fun n => (hbelow n).2.2)
    have hnext := nextThermal_normal (reads_countRounds hm) (by rw [limWarn, fld_countRounds, hwarn]; exact fun n => (hbelow n).1)
      (by rw [limCrit, fld_countRounds, hcrit]; exact fun n => (hbelow n).2.1) (by rw [hhist, hthm]; exact hlen)
      (by rw [fld_countRounds, hrwarn]; exact hrw) (by rw [fld_countRounds, hrcrit]; exact hrc)
      (by rw [fld_countRounds, hstate]; exact hst) hhot
    obtain ⟨hstate2, hslow, -⟩ := roundEnds_judged vio m
    refine ⟨hstate2.trans hnext, hslow.trans (slows_of_calm ?_)⟩
    rw [state_judgeThermal, hnext]
    decide
  case trips =>
    intro t k iv v vio s hs hg hk hhot0 hst hbstop
    refine runs_of (housekeeping_of hs) ?_
    have hlim := fun (f : Fld) hf => fld_roundMeasured (x := roundOf t iv v vio) hg (f := f) hf
    have hm := reads_roundMeasured (x := roundOf t iv v vio) hg
    have hthm : (roundMeasured t (roundOf t iv v vio) s).thm.hot = s.thm.hot := by
      rw [thm_roundMeasured hg]
    have hj : roundJudged t (roundOf t iv v vio) s = slowdown (judgeThermal (roundMeasured t (roundOf t iv v vio) s)) := rfl
    rw [hj]
    have htrip := hlim F.THM_LIMITS_TRIP (by decide)
    have hstate := hlim F.THM_STATUS_STATE (by decide)
    generalize roundMeasured t (roundOf t iv v vio) s = m at *
    have hhot : (countRounds m).thm.hot = 2 := by
      rw [hot_countRounds_above hm k (by rw [limTrip, htrip]; exact hk), hthm]
      omega
    have hnext := nextThermal_trip hhot
    have hstop := judgeThermal_trips hnext (by rw [hstate]; exact hst)
    have hbs := (fld_roundEnds vio (slowdown (judgeThermal m)) (f := F.DSP_STATUS_BSTOP) (by decide) (by decide)).trans
      ((only_slowdown (judgeThermal m)).2 _ (by decide))
    obtain ⟨hstate2, -, -⟩ := roundEnds_judged vio m
    generalize roundEnds vio (remember (slowdown (judgeThermal m))) = w at *
    exact ⟨hstate2.trans hnext, fun h0 => hstop (hbs.symm.trans h0)⟩
  case rests =>
    intro x s hq h
    refine completes_eq_quiet rfl (w' := s) ?_ hq rfl
    refine if_pos ?_
    rcases h with h | h
    · simp [roundsRun, pwrState, wRUN, wIDLE, show fld s F.PWR_STATUS_STATE ≠ 0 by omega, show fld s F.PWR_STATUS_STATE ≠ 1 by omega]
    · simp [roundsRun, h]
  case disable =>
    intro s hq hen
    refine completes_eq_quiet rfl (if_pos hen) hq ⟨?_, (Only.refl [] _ s).setFld (by simp) _⟩
    exact flag_b2n s F.THM_STATUS_DRAINING rfl true
  case drained =>
    intro t iv v vio s hs hdr
    refine runs_of (housekeeping_of hs) ?_
    have hj : roundJudged t (roundOf t iv v vio) s = slowdown (judgeThermal (roundMeasured t (roundOf t iv v vio) s)) := rfl
    rw [hj]
    have hdrain := (only_roundMeasured_any t (roundOf t iv v vio) s).2 F.THM_STATUS_DRAINING (by decide)
    generalize roundMeasured t (roundOf t iv v vio) s = m at *
    have hdrain2 := (only_judgeThermal m).2 F.THM_STATUS_DRAINING (by decide)
    obtain ⟨hen, hdone, hslow⟩ := slowdown_drained ((flag_eq_of_fld (hdrain2.trans hdrain)).trans hdr)
    have hfld := fun (f : Fld) => fld_roundEnds vio (slowdown (judgeThermal m)) (f := f)
    generalize roundEnds vio (remember (slowdown (judgeThermal m))) = w at *
    exact ⟨(flag_eq_of_fld (hfld _ (by decide) (by decide))).trans hen, (flag_eq_of_fld (hfld _ (by decide) (by decide))).trans hdone,
      (flag_eq_of_fld (hfld _ (by decide) (by decide))).trans hslow⟩
  case therm =>
    intro s hq hi hs hoff
    obtain ⟨hevq, hcause, hin⟩ := assertTherm_spec hi
    refine completes_eq rfl (if_pos ⟨hs, not_isOff_of hoff⟩) ?_ ⟨hcause, hin⟩
    rw [hevq, hq]
    rfl
  case noTherm =>
    intro s hq hs
    exact completes_eq_quiet rfl (if_neg fun h => hs h.1) hq rfl
  case awake =>
    intro l s hq h2 h3
    exact completes_eq_quiet rfl (if_pos ⟨h2, h3⟩) hq rfl
  case first =>
    intro t k s hq hs hg hk hh
    have hthm := thm_tripChecked hg k hk
    have ho := only_tripChecked hg
    have hfld := fld_sensorsRead hg
    refine completes_eq_quiet (sleepTripCheck_of t hs) (if_neg (by simp [hthm, hh])) ((ho.1 .evq (by decide)).trans hq) ⟨?_, hfld, ho⟩
    rw [hthm, hh]
    rfl
  case second =>
    intro t k s hq hi hs hg hk hh
    have hthm := thm_tripChecked hg k hk
    have ho : Only [.thm, .evq] tempFlds s (raise (tripChecked t s) 0x0404 []) :=
      ((only_tripChecked hg).mono (by simp) (by simp)).raise (by simp) _ _
    have hevq0 : (tripChecked t s).evq = [] := ((only_tripChecked hg).1 .evq (by decide)).trans hq
    have hidle := unitsIdle_of ho hi (by decide)
    have hgone := regionGone_of ho (by decide)
    have hrst : (raise (tripChecked t s) 0x0404 []).rst = s.rst := ho.1 .rst (by decide)
    obtain ⟨hevq, hcause, hin⟩ := assertTherm_spec hidle
    rw [hrst] at hin
    refine completes_eq (sleepTripCheck_of t hs) (if_pos (by simp [hthm]; omega)) ?_ ⟨hcause, hin⟩
    rw [hevq, hgone, raise, hevq0]
    rfl

end

section
/-! SUPPORT. A state against the claim of O37: a correction that costs a link its last lane. -/
namespace Sys2Proof.Machine

/-- The spine link of memory die 2, link 41, has no siding left, byte 1 erased, and a threshold that the first corrected bit reaches;
the stack cache holds a way in the die. -/
def lastLaneOfSpine : State :=
  setCache (resetWith ([(F.MEM_STATUS_INIT_DONE, 1), (F.STK_STATUS_TRAINED, 1), (F.MEM_GRPn_CFG_MODE 8, 2), (F.STK_THRESH_COUNT, 1),
      (F.STK_Lk_STATUS_ERASED 41, 1), (F.STK_Lk_STATUS_ERASED_BYTE 41, 1)]
    ++ (List.range 16).map fun i => (F.STK_Lk_SIDs_STATE 41 i, sFAILED)))
    { ways := [(0, {})] }

end Sys2Proof.Machine
end

section
open Sys2Proof Sys2Proof.Machine

/-- Refutes O37: a read corrected at the port counts against its lane (R322), and where that fences the last link to its die, the stack
cache loses its ways there. -/
theorem not_memoryReadsAndWrites : ¬ Obligations.MemoryReadsAndWrites := by
  unfold Obligations.MemoryReadsAndWrites
  intro h
  obtain ⟨-, hcorrected, -⟩ := h
  obtain ⟨es, hes⟩ := hcorrected 0xC1 0x4000840 0 1 0 0 false lastLaneOfSpine (by decide +kernel) (by decide +kernel) (by decide)
    (by decide +kernel)
  obtain ⟨u, ⟨-, -, -, hparts⟩, -, hend⟩ := hes.end_of_exec rfl
  have hkept := congrArg (fun c => c.ways.length) (hparts .cache (by decide))
  have hlost := congrArg (fun c => c.ways.length) (hend .cache (by decide))
  exact absurd (hkept.symm.trans hlost) (by decide +kernel)

end

section
/-! SUPPORT. A state against the claim of O39: a map write while a SCH_ZERO waits for its page. -/
namespace Sys2Proof.Machine

/-- The host window is on, the stack cache is off, and a SCH_ZERO of line 0 waits. -/
def zeroWaits : State :=
  setCache (resetWith [(F.HWN_CTRL_ENABLE, 1)]) { zero := some ⟨.zero, 0, 0, 64, true, true, 2 ^ 64 - 1, 0⟩ }

end Sys2Proof.Machine
end

section
open Sys2Proof Sys2Proof.Machine

/-- Refutes O39: a map write lets a waiting SCH_ZERO go on, whose end SCH_ZERO_RESULT shows. -/
theorem not_pagesAndOwnership : ¬ Obligations.PagesAndOwnership := by
  unfold Obligations.PagesAndOwnership
  intro h
  obtain ⟨-, hmap, -⟩ := h
  obtain ⟨-, -, -, -, -, -, -, hflds⟩ := (hmap 0 0 zeroWaits (by decide +kernel) (by decide +kernel) (by decide +kernel) (by decide +kernel)
    (by decide +kernel) (by decide +kernel)).of_exec rfl
  exact absurd (hflds F.SCH_ZERO_RESULT_DONE (by decide +kernel)) (by decide +kernel)

end

section
/-! SUPPORT. A state against the claim of O40: two fills alike, and the second one completes. -/
namespace Sys2Proof.Machine

/-- A load of thread 0 of engine 0 from line 0 of the host window. -/
def hostLoad : WinReq := ⟨0, false, 0, 0, 0x100000000000, 0, 4, false, 3, 0⟩

/-- The fill that this load waits for. -/
def hostLoadFill : Fill := ⟨0, 0, [⟨.engine 0 hostLoad, 0, 0, 4, false, false, 2 ^ 4 - 1, 0⟩]⟩

/-- The load is outstanding, its fill is listed twice, and another fill stands between the two. -/
def fillsAlike : State :=
  setCache (setEngine (resetWith [(F.ENG_n_CTRL_ENABLE 0, 1), (F.ENG_n_CTRL_START 0, 1)]) 0 { win := [hostLoad] })
    { fills := [hostLoadFill, ⟨1, 1, []⟩, hostLoadFill] }

end Sys2Proof.Machine
end

section
open Sys2Proof Sys2Proof.Machine

/-- Refutes O40: the completion of a fill removes the first one like it, which is not the one it names where two are alike. -/
theorem not_stackCacheServesAndStops : ¬ Obligations.StackCacheServesAndStops := by
  unfold Obligations.StackCacheServesAndStops
  intro h
  obtain ⟨-, -, -, -, -, -, -, -, hfill, -⟩ := h
  obtain ⟨-, -, -, -, -, -, -, -, hfills, -⟩ := (hfill 2 0 0 0 0 hostLoad 0 0 fillsAlike (by decide +kernel) (by decide +kernel)
    (by decide +kernel) (by decide +kernel) (by decide +kernel) (by decide +kernel) (by decide +kernel) (by decide +kernel)
    (by decide +kernel) (by decide +kernel)).of_exec rfl
  exact absurd hfills (by decide +kernel)

end

section
/-! SUPPORT. A state against the claim of O41: a CONFIG descriptor of no bytes, with no session open. -/
namespace Sys2Proof.Machine

/-- A CONFIG descriptor whose LEN is 0. -/
def emptyConfig : Desc := ⟨0, 0x10 * 2 ^ 8, false, 0, none⟩

/-- It is in flight in ring 0 while bus mastering is on. -/
def emptyConfigInFlight : State := setHwn (resetWith [(F.HWN_STATUS_BME, 1)]) { rings := [(0, [emptyConfig])] }

end Sys2Proof.Machine
end

section
open Sys2Proof Sys2Proof.Machine

/-- Refutes O41: a CONFIG descriptor of no bytes ends DECODE, although no session is open. -/
theorem not_ringsAndBusMastering : ¬ Obligations.RingsAndBusMastering := by
  unfold Obligations.RingsAndBusMastering
  intro h
  obtain ⟨-, -, -, -, -, -, -, -, -, hconfig, -⟩ := h
  obtain ⟨⟨hring, -⟩, -⟩ := (hconfig 0 0 [] false emptyConfig emptyConfigInFlight (by decide +kernel) (by decide +kernel)
    (by decide +kernel) (by decide +kernel)).of_exec rfl
  exact absurd hring (by decide +kernel)

end

section
/-! SUPPORT. A state against the claim of O43: bytes of the load window reach a session that still lists parts of a ring's bytes. -/
namespace Sys2Proof.Machine

/-- An open session of the load window behind the header's command word, with a part of a descriptor still listed. -/
def headerWithSegs : State :=
  setCfg (resetWith [(F.CFG_STATUS_RESULT, 1)])
    { phase := 1, start := 4, taken := [0x5A, 0xC3, 0x3C, 0xA5, 1, 0x80, 0, 0], segs := [(0, 1)] }

end Sys2Proof.Machine
end

section
open Sys2Proof Sys2Proof.Machine

/-- Refutes O43: a session of the load window that takes bytes forgets the parts of descriptors that it lists. -/
theorem not_sessionsTakeStreams : ¬ Obligations.SessionsTakeStreams := by
  unfold Obligations.SessionsTakeStreams
  intro h
  obtain ⟨-, -, hwindow, -⟩ := h
  obtain ⟨hcfg, -⟩ := (hwindow [0] headerWithSegs (by decide +kernel) (by decide +kernel) (by decide +kernel) (by decide +kernel)
    (by decide +kernel) (by decide +kernel) (by decide +kernel) (by decide +kernel) (by decide +kernel) (by decide +kernel)
    (by decide +kernel) (by decide +kernel)).of_exec rfl
  exact absurd (congrArg Session.segs hcfg) (by decide +kernel)

end

section
/-! SUPPORT. A state against the claim of O44: a frame of more than 16,384 bits is read back. -/
namespace Sys2Proof.Machine

/-- What stands behind the bytes of a CRC does not change it. -/
theorem crc32cFrom_add_mul (n c x y : Nat) : crc32cFrom n c (x + y * 2 ^ (8 * n)) = crc32cFrom n c x := by
  induction n generalizing c x with
  | zero => rfl
  | succ n ih =>
    have hsplit : y * 2 ^ (8 * (n + 1)) = 256 * (y * 2 ^ (8 * n)) := by rw [Nat.mul_add, Nat.pow_add]; ring
    simp only [crc32cFrom, hsplit, Nat.add_mul_mod_self_left, Nat.add_mul_div_left _ _ (Nat.zero_lt_succ 255), ih]

/-- The word just behind a number. -/
theorem bits_add_mul {x m : Nat} (y w : Nat) (hx : x < 2 ^ m) : bits (x + y * 2 ^ m) m w = y % 2 ^ w := by
  rw [bits_eq_div_mod, Nat.add_mul_div_right _ _ (Nat.two_pow_pos m), Nat.div_eq_of_lt hx, Nat.zero_add]

/-- A number with one bit too many, and its CRC behind it. -/
theorem bits_crc_long {n a k p m lo : Nat} (ha : a < 2 ^ k) (hk : k ≤ m) (hm : m = 8 * n) (hp : p + 32 = m) (hlo : lo = m) :
    bits (a + 2 ^ p * 2 ^ 32 + crc32c n (a + 2 ^ p * 2 ^ 32) * 2 ^ m) lo 32 = (1 + crc32c n a) % 2 ^ 32 := by
  have hlong : 2 ^ p * 2 ^ 32 = 1 * 2 ^ m := by rw [← Nat.pow_add, hp, Nat.one_mul]
  subst hm hlo
  rw [hlong, crc32c, crc32cFrom_add_mul, ← crc32c, Nat.add_assoc, ← Nat.add_mul,
    bits_add_mul _ _ (ha.trans_le (Nat.pow_le_pow_right Nat.two_pos hk))]

/-- The last word of the buffer is the last part of the frame with its address and CRC. -/
theorem fld_putReadback_last (s : State) (a : Nat) :
    fld (putReadback s a) (F.CFG_RB_DATAi_WORD 513)
      = bits (a + frameRead s a * 2 ^ 32 + crc32c 2052 (a + frameRead s a * 2 ^ 32) * 2 ^ 16416) (32 * 513) 32 % 2 ^ 32 := by
  unfold putReadback forEach
  rw [show List.range 514 = List.range 513 ++ [513] from List.range_succ, List.foldl_append]
  exact fld_setFld_same ..

/-- GO, DONE and STATUS do not show in the buffer. -/
theorem fld_readbackDone (t : State) :
    fld (setFld (setFld (setFld t F.CFG_RB_CTRL_GO 0) F.CFG_RB_CTRL_DONE 1) F.CFG_RB_CTRL_STATUS ST.ok) (F.CFG_RB_DATAi_WORD 513)
      = fld t (F.CFG_RB_DATAi_WORD 513) :=
  ((fld_setFld_ne _ (by decide) _).trans (fld_setFld_ne _ (by decide) _)).trans (fld_setFld_ne _ (by decide) _)

/-- A readback leaves its last word as the frame gives it. -/
theorem fld_readback_last {s : State} {a : Nat} (ha : fld s F.CFG_RB_ADDR_ADDRESS = a) (hok : readbackStatus s a = ST.ok)
    (hdie : dieInReset s (confPos (fDie a)) = false) :
    fld (readback s) (F.CFG_RB_DATAi_WORD 513) = fld (putReadback s a) (F.CFG_RB_DATAi_WORD 513) := by
  simp only [readback, ha, hok, hdie, Bool.false_eq_true, and_false, if_false, true_or, if_true]
  exact fld_readbackDone (putReadback s a)

/-- The first frame of region 0 holds one bit too many, and a readback may read it. -/
def longFrame : State :=
  setFab (resetWith [(F.CFG_CTRL_ENABLE, 1), (F.CFG_CTRL_READBACK_EN, 1), (F.CFG_RB_ADDR_ADDRESS, 1)])
    { frames := [(frameKey kLOGIC 0 0 0, 2 ^ 16384)] }

end Sys2Proof.Machine
end

section
open Sys2Proof Sys2Proof.Machine

/-- Refutes O44: the bit that a frame holds too many is added to the CRC behind it. -/
theorem not_sessionsEndAndReadBack : ¬ Obligations.SessionsEndAndReadBack := by
  unfold Obligations.SessionsEndAndReadBack
  intro h
  obtain ⟨-, -, -, -, -, -, -, -, -, hread, -⟩ := h
  obtain ⟨-, -, -, -, hlast, -⟩ := (hread 1 longFrame (by decide +kernel) (by decide +kernel) (by decide +kernel) (by decide +kernel)
    (by decide +kernel) (by decide +kernel) (by decide +kernel) (by decide +kernel) (by decide +kernel) (by decide +kernel)
    (by decide)).of_exec rfl
  have hframe : frameRead longFrame 1 = 2 ^ 16384 := by decide +kernel
  have hlow : bits (frameAt longFrame kLOGIC (fRegion 1) (fCtx 1) (fTile 1)) 0 16384 = 0 := by decide +kernel
  rw [fld_finish _ (by decide) (by decide), fld_readback_last (a := 1) (by decide +kernel) (by decide +kernel) (by decide +kernel),
    fld_putReadback_last, hframe, hlow, bits_crc_long (k := 1) (by decide) (by decide) (by decide) (by decide) (by decide)] at hlast
  rw [Nat.zero_mul, Nat.add_zero] at hlast
  omega

end

section
/-! SUPPORT. A state against the claim of O46: a user function that is listed twice requests a vector that pends. -/
namespace Sys2Proof.Machine

/-- A user function with vector 0 pending. -/
def pendingFn : PciFn := { pend := [0], ident := some ⟨0, 0, 0, 0, 0, false, false⟩ }

/-- User function 1 is owned by the running region 0 and listed twice. -/
def fnListedTwice : State :=
  let s := setRegion (resetWith [(F.FAB_REGr_STATUS_STATE 0, gRELEASED), (F.FAB_REGr_CLK_EN 0, 1), (F.CLK_FPLLn_EN 0, 1),
      (F.CLK_FPLLn_LOCKED 0, 1), (F.FAB_FUNCf_OWN_VALID 1, 1)]) 0 { run := true }
  setPci s { s.pci with fns := [(1, pendingFn), (1, pendingFn)] }

end Sys2Proof.Machine
end

section
open Sys2Proof Sys2Proof.Machine

/-- Refutes O46: a request of a vector that pends already leaves both entries of the function, where the claim writes one. -/
theorem not_userFunctionsAndVectors : ¬ Obligations.UserFunctionsAndVectors := by
  unfold Obligations.UserFunctionsAndVectors
  intro h
  obtain ⟨-, -, -, -, -, -, -, -, -, hvec, -⟩ := h
  obtain ⟨hpci, -⟩ := (hvec 0 0 fnListedTwice (by decide +kernel) (by decide +kernel) (by decide +kernel) (by decide +kernel)).of_exec rfl
  exact absurd (congrArg (fun p => p.fns.length) hpci) (by decide +kernel)

end

section
/-! SUPPORT. A state against the claim of O47: SET_OP of a target that does not exist, while clock changes are disabled. -/
namespace Sys2Proof.Machine

/-- A SET_OP request of target 4 waits; CLK_CTRL.ENABLE reads 0. -/
def setOpWhileDisabled : State :=
  resetWith [(F.SBX_MB_STATUS_BUSY, 1), (F.SBX_STATUS_RECOVERY, 0), (F.CLK_CTRL_ENABLE, 0), (F.SBX_MAILBOXi_WORD 0, 0x20 + 4 * 2 ^ 16),
    (F.SBX_MAILBOXi_WORD 4, 4)]

end Sys2Proof.Machine
end

section
open Sys2Proof Sys2Proof.Machine

/-- Refutes O47: SET_OP of a target above 3 completes DISABLED, not DECODE, while clock changes are disabled. -/
theorem not_mailboxServesRequests : ¬ Obligations.MailboxServesRequests := by
  unfold Obligations.MailboxServesRequests
  intro h
  obtain ⟨-, -, -, -, -, -, -, -, hsetOp, -⟩ := h
  obtain ⟨hreply, -⟩ := (hsetOp 4 setOpWhileDisabled (by decide +kernel) (by decide +kernel)).of_exec rfl
  exact absurd (congrArg Sbx.resp hreply) (by decide +kernel)

end

section
/-! SUPPORT. A state against the claim of O48: an update of no bytes begins on a device without flash. -/
namespace Sys2Proof.Machine

/-- A BEGIN request of length 0 waits; there is no flash. -/
def beginWithoutFlash : State :=
  let s := resetWith [(F.SBX_MB_STATUS_BUSY, 1), (F.SBX_STATUS_RECOVERY, 0), (F.SBX_MAILBOXi_WORD 0, 0x10 + 4 * 2 ^ 16)]
  setSbx s { s.sbx with flash := false }

end Sys2Proof.Machine
end

section
open Sys2Proof Sys2Proof.Machine

/-- Refutes O48: BEGIN with a length out of range completes DISABLED, not DECODE, where there is no flash. -/
theorem not_firmwareFusesAndWatchdog : ¬ Obligations.FirmwareFusesAndWatchdog := by
  unfold Obligations.FirmwareFusesAndWatchdog
  intro h
  obtain ⟨-, hbegin, -⟩ := h
  obtain ⟨hreply, -⟩ := (hbegin 0 beginWithoutFlash (by decide +kernel) (by decide +kernel)).of_exec rfl
  exact absurd (congrArg Sbx.resp hreply) (by decide +kernel)

end

section
/-! SUPPORT. A state against the claim of O51: a block memory that is listed twice. -/
namespace Sys2Proof.Machine

/-- Power is up; block memory 0 of region 0 is listed empty, and behind that with contents. -/
def blockListedTwice : State := setFab { resetWith [] with pwr := {} } { bms := [(0, {}), (0, { mem := 5 })] }

end Sys2Proof.Machine
end

section
open Sys2Proof Sys2Proof.Machine

/-- Refutes O51: a reset with the reach of PIN drops the empty entry of a block memory, so that the one behind it is read. -/
theorem not_resetSourcesReach : ¬ Obligations.ResetSourcesReach := by
  unfold Obligations.ResetSourcesReach
  intro h
  obtain ⟨-, hpin, -⟩ := h
  obtain ⟨u, hu, -, hend⟩ := (hpin blockListedTwice (by decide +kernel) (by decide +kernel) (by decide +kernel) (by decide +kernel)).end_of_exec rfl
  obtain ⟨-, -, -, -, -, -, -, -, -, hbms, -⟩ := hu
  have hkept := congrArg Bm.mem (hbms 0 0)
  have hend := congrArg (fun x : Fabric => (smGet x.bms 0 {}).mem) (hend .fab (by decide))
  exact absurd (hkept.symm.trans hend) (by decide +kernel)

end

section
/-! SUPPORT. A state against the claim of O52: a readback waits for the configuration die that leaves its reset. -/
namespace Sys2Proof.Machine

/-- The configuration die at position 2 is in reset, and a readback waits for it. -/
def readbackWaitsForDie : State := resetWith [(F.RST_DIE_IN_RESET, 2), (F.CFG_RB_CTRL_GO, 1)]

end Sys2Proof.Machine
end

section
open Sys2Proof Sys2Proof.Machine

/-- Refutes O52: the end of a configuration die's reset lets the readback go on, which sets its DONE. -/
theorem not_releaseFollowsItsOrder : ¬ Obligations.ReleaseFollowsItsOrder := by
  unfold Obligations.ReleaseFollowsItsOrder
  intro h
  obtain ⟨-, -, -, -, -, -, hdie, -⟩ := h
  obtain ⟨-, -, -, hflds⟩ := (hdie 1 readbackWaitsForDie (by decide +kernel) (by decide +kernel) (by decide)).of_exec rfl
  exact absurd (hflds F.CFG_RB_CTRL_DONE (by decide +kernel)) (by decide +kernel)

end

section
/-! SUPPORT. A state against the claim of O58: a flip-flop word listed above the tiles of a region that freezes. -/
namespace Sys2Proof.Machine

/-- Region 0 runs and is asked to freeze; it lists, in context 0, the flip-flops of a tile 800, whose place is that of tile 0 in context 1. -/
def freezeBeyondRegion : State :=
  let s := setRegion (resetWith [(F.FAB_REGr_STATUS_STATE 0, gRELEASED), (F.FAB_REGr_CLK_EN 0, 1), (F.CLK_FPLLn_EN 0, 1),
      (F.CLK_FPLLn_LOCKED 0, 1), (F.DBG_REGr_CTRL_FREEZE 0, 1)]) 0
    { run := true, shared := [(800, 1)], priv := [(800, 1)] }
  setFab s { s.fab with frames := [(frameKey kLOGIC 0 0 800, privateFlipFlop)] }

end Sys2Proof.Machine
end

section
open Sys2Proof Sys2Proof.Machine

/-- Refutes O58: the freeze edge captures every listed flip-flop word, also one beyond the 800 tiles, whose PRIVATE copy lies among those
of the next context. -/
theorem not_debuggerControlsTargets : ¬ Obligations.DebuggerControlsTargets := by
  unfold Obligations.DebuggerControlsTargets
  intro h
  obtain ⟨-, -, -, -, -, -, -, -, -, -, hfreeze, -⟩ := h
  obtain ⟨u, ⟨-, -, hpriv, -⟩, -, hend⟩ := (hfreeze 0 freezeBeyondRegion (by decide +kernel) (by decide +kernel) (by decide +kernel)
    (by decide +kernel) (by decide +kernel)).end_of_exec rfl
  have hend := congrArg (fun x => smGet (smGet x 0 {}).priv 800 0) (hend .regions (by decide))
  exact absurd ((hpriv 800 (by decide +kernel)).symm.trans hend) (by decide +kernel)

end

section
/-! SUPPORT. A state against the claim of O59: the bit FULL of GLB_RESET listed as 1, with the link up. -/
namespace Sys2Proof.Machine

/-- The host reads registers of a device in which GLB_RESET.FULL reads 1. -/
def resetBitSet : State :=
  { resetWith [(F.PCI_STATUS_LINK_UP, 1), (F.GLB_RESET_FULL, 1)] with
    pwr := {}
    rst := {} }

end Sys2Proof.Machine
end

section
open Sys2Proof Sys2Proof.Machine

/-- Refutes O59: GLB_RESET has a bit that is not write-only, and a read of the register shows it where it is set. -/
theorem not_registersReadAndWrite : ¬ Obligations.RegistersReadAndWrite := by
  unfold Obligations.RegistersReadAndWrite
  intro h
  obtain ⟨-, -, -, -, -, -, -, -, -, -, -, -, -, -, hzero, -⟩ := h
  obtain ⟨hpci, -⟩ := (hzero resetBitSet (by decide +kernel)).1.of_exec rfl
  have hpci := congrArg (fun x => x.cpls.head?.map (·.data)) hpci
  exact absurd hpci (by decide +kernel)

end

section
/-! SUPPORT. The line of a lane: words with their checks, markers, precoding and scrambling (R128, R130, R131, R134). -/
namespace Sys2Proof.Machine

/-! ### Words with their check -/

theorem crc16Bits_lt (n : Nat) {c : Nat} (h : c < 2 ^ 16) : crc16Bits n c < 2 ^ 16 := by
  induction n generalizing c with
  | zero => exact h
  | succ n ih =>
    refine ih ?_
    have hshift : c * 2 % 65536 < 2 ^ 16 := Nat.mod_lt _ (by decide)
    split
    · exact Nat.xor_lt_two_pow hshift (by decide)
    · exact hshift

theorem crc16From_lt (n : Nat) {c : Nat} (h : c < 2 ^ 16) (x : Nat) : crc16From n c x < 2 ^ 16 := by
  induction n generalizing c x with
  | zero => exact h
  | succ n ih => exact ih (crc16Bits_lt 8 (Nat.xor_lt_two_pow h (by omega))) _

/-- The check covers the low bytes only. -/
theorem crc16From_mod (n c x : Nat) : crc16From n c (x % 2 ^ (8 * n)) = crc16From n c x := by
  induction n generalizing c x with
  | zero => rfl
  | succ n ih =>
    have hlow : x % 2 ^ (8 * (n + 1)) % 256 = x % 256 :=
      Nat.mod_mod_of_dvd x (pow_dvd_pow 2 (show 8 ≤ 8 * (n + 1) by omega))
    have hrest : x % 2 ^ (8 * (n + 1)) / 256 = x / 256 % 2 ^ (8 * n) := by
      rw [show 8 * (n + 1) = 8 + 8 * n by omega, pow_add]
      exact Nat.mod_mul_right_div_self x 256 (2 ^ (8 * n))
    rw [crc16From, crc16From, hlow, hrest, ih]

theorem withCheck_mod (w : Nat) : withCheck w % 2 ^ 48 = w % 2 ^ 48 := by
  simp [withCheck]

theorem wordOk_withCheck (w : Nat) : wordOk (withCheck w) = true := by
  have hcrc : crc16From 6 0xFFFF (withCheck w) = crc16From 6 0xFFFF w := by
    rw [← crc16From_mod 6, ← crc16From_mod 6 _ w]
    exact congrArg _ (withCheck_mod w)
  have hlt : crc16From 6 0xFFFF w < 2 ^ 16 := crc16From_lt 6 (by decide) w
  rw [wordOk, hcrc, withCheck, bits_add_mul _ _ (Nat.mod_lt _ (by positivity)), Nat.mod_eq_of_lt hlt, beq_self_eq_true]

/-- Below its check a word reads what it was made of. -/
theorem testBit_withCheck {i : Nat} (h : i < 48) (w : Nat) : (withCheck w).testBit i = w.testBit i := by
  have hbit := congrArg (Nat.testBit · i) (withCheck_mod w)
  rwa [Nat.testBit_mod_two_pow, Nat.testBit_mod_two_pow, decide_eq_true h, Bool.true_and, Bool.true_and] at hbit

theorem bits_withCheck {lo k : Nat} (h : lo + k ≤ 48) (w : Nat) : bits (withCheck w) lo k = bits w lo k := by
  refine Nat.eq_of_testBit_eq fun i => ?_
  rw [testBit_bits, testBit_bits]
  by_cases hi : i < k
  · rw [testBit_withCheck (by omega)]
  · simp [hi]



theorem ownControl_spec (s : State) (n : Nat) : bits (ownControl s n) 8 2 = fld s (F.WLN_LANEn_CFG_RATE n)
    ∧ (ownControl s n).testBit 7 = decide (3 ≤ laneState s n) := by
  have hreq := bits_lt (lane s n).req 0 7
  have hrate := fld_lt s (F.WLN_LANEn_CFG_RATE n)
  have hready : b2n (decide (lnREADY_WAIT ≤ laneState s n)) = if 3 ≤ laneState s n then 1 else 0 := by
    by_cases h : 3 ≤ laneState s n <;> simp [h, b2n, lnREADY_WAIT]
  change _ < 4 at hrate
  rw [ownControl, bits_withCheck (by decide), testBit_withCheck (by decide), hready]
  generalize bits (lane s n).req 0 7 = q at hreq ⊢
  constructor
  · rw [bits_eq_div_mod]
    split <;> omega
  · rw [Nat.testBit_eq_decide_div_mod_eq, decide_eq_decide]
    split <;> omega

theorem ownStatus_spec (s : State) (n : Nat) : bits (ownStatus s n) 6 4 = fld s (F.WLN_LANEn_STATUS_PRE n)
    ∧ bits (ownStatus s n) 10 4 = fld s (F.WLN_LANEn_STATUS_MAIN n) ∧ bits (ownStatus s n) 14 4 = fld s (F.WLN_LANEn_STATUS_POST n) := by
  have hsts := bits_lt (lane s n).sts 0 6
  have hpre := fld_lt s (F.WLN_LANEn_STATUS_PRE n)
  have hmain := fld_lt s (F.WLN_LANEn_STATUS_MAIN n)
  have hpost := fld_lt s (F.WLN_LANEn_STATUS_POST n)
  change _ < 16 at hpre hmain hpost
  simp only [ownStatus, taps]
  rw [bits_withCheck (by decide), bits_withCheck (by decide), bits_withCheck (by decide)]
  generalize bits (lane s n).sts 0 6 = q at hsts ⊢
  rw [bits_eq_div_mod, bits_eq_div_mod, bits_eq_div_mod]
  omega

/-! ### Level indices -/

/-- The level indices of the low bits of a number, two bits each. -/
theorem getElem?_grayAll_bitsUp (k x i : Nat) (h : i < k) :
    (grayAll (bitsUp (2 * k) x))[i]? = some (grayLevel (bits x (2 * i) 1) (bits x (2 * i + 1) 1)) := by
  induction k generalizing x i with
  | zero => omega
  | succ k ih =>
    have hcons : grayAll (bitsUp (2 * (k + 1)) x) = grayLevel (x % 2) (x / 2 % 2) :: grayAll (bitsUp (2 * k) (x / 2 / 2)) := rfl
    rw [hcons]
    cases i with
    | zero => simp [bits_eq_div_mod]
    | succ i =>
      rw [List.getElem?_cons_succ, ih _ i (by omega)]
      have heven : 2 * 2 * 2 ^ (2 * i) = 2 ^ (2 * (i + 1)) := by ring
      have hodd : 2 * 2 * 2 ^ (2 * i + 1) = 2 ^ (2 * (i + 1) + 1) := by ring
      simp only [bits_eq_div_mod, Nat.div_div_eq_div_mul, heven, hodd]

theorem length_grayAll_bitsUp (k x : Nat) : (grayAll (bitsUp (2 * k) x)).length = k := by
  induction k generalizing x with
  | zero => rfl
  | succ k ih => exact congrArg (· + 1) (ih (x / 2 / 2))

/-- The line of a lane begins with its first marker. -/
theorem getElem?_trafficLine (s : State) (n : Nat) {i : Nat} (h : i < 128) :
    (trafficLine s n)[i]? = some (grayLevel (bits (markerOf s n 0 (lane s n).seed) (2 * i) 1)
      (bits (markerOf s n 0 (lane s n).seed) (2 * i + 1) 1)) := by
  have hlen : i < (grayAll (bitsUp 256 (markerOf s n 0 (lane s n).seed))).length := by
    rwa [length_grayAll_bitsUp 128]
  rw [trafficLine, lineSections, List.append_assoc, List.getElem?_append_left hlen]
  exact getElem?_grayAll_bitsUp 128 _ i h

theorem unprecode_precode {g : Nat} (h : g < 4) (prev : Nat) : unprecode (precode g prev) prev = g := by
  rw [unprecode, precode]
  omega

theorem unprecodeAll_precodeAll {l : List Nat} (h : ∀ g ∈ l, g < 4) (prev : Nat) : unprecodeAll prev (precodeAll prev l) = l := by
  induction l generalizing prev with
  | nil => rfl
  | cons g t ih =>
    rw [precodeAll, unprecodeAll, unprecode_precode (h g List.mem_cons_self), ih fun x hx => h x (List.mem_cons_of_mem _ hx)]

theorem scrambleBits_twice {l : List Nat} (h : ∀ b ∈ l, b < 2) (st : Nat) : (scrambleBits st (scrambleBits st l).1).1 = l := by
  induction l generalizing st with
  | nil => rfl
  | cons b t ih =>
    have hb : ((b + (scramblerStep st).1) % 2 + (scramblerStep st).1) % 2 = b := by
      have := h b List.mem_cons_self
      omega
    rw [scrambleBits, scrambleBits, ih fun x hx => h x (List.mem_cons_of_mem _ hx), hb]

/-! ### What a lane sends in each state -/

theorem laneOut_training {s : State} {n : Nat} (h1 : 1 ≤ laneState s n) (h3 : laneState s n ≤ 3) (rx : Nat → Nat) (j : Nat) :
    laneOut s n rx j = some (trainingSymbol s n j) := by
  rw [laneOut, if_neg (by simp only [lnOFF]; omega), if_neg (by simp only [lnLOOPBACK]; omega), if_neg (by simp only [lnLINKUP]; omega)]

theorem laneOut_pattern {s : State} {n v : Nat} (h : laneState s n = 4) (hv : fld s (F.WLN_LANEn_TEST_GEN n) = v) (hon : patternOff v = false)
    (rx : Nat → Nat) (j : Nat) : laneOut s n rx j = some (injected s n j (patternSymbol s n v j)) := by
  have hp : patternOn s n = true := by simp [patternOn, h, hv, hon, lnLINKUP]
  simp [laneOut, h, hp, hv, lnOFF, lnLOOPBACK, lnLINKUP]

theorem laneOut_traffic {s : State} {n : Nat} (h : laneState s n = 4) (hoff : patternOn s n = false) (rx : Nat → Nat) (j : Nat) :
    laneOut s n rx j = (linkSymbol s n j).map (injected s n j) := by
  simp [laneOut, h, hoff, lnOFF, lnLOOPBACK, lnLINKUP]

theorem injected_none {s : State} {n : Nat} (h : (lane s n).inj = []) (j g : Nat) : injected s n j g = g := by
  simp [injected, h]

theorem injected_one {s : State} {n a k : Nat} (h : (lane s n).inj = [(a, k)]) (j g : Nat) :
    injected s n j g = if a ≤ j ∧ j < a + k then g ^^^ 1 else g := by
  by_cases hj : a ≤ j ∧ j < a + k <;> simp [injected, h, hj]

theorem three_mul_bits (x i : Nat) : 3 * bits x i 1 = if x.testBit i then 3 else 0 := by
  rw [bits_eq_div_mod, Nat.testBit_eq_decide_div_mod_eq]
  rcases Nat.mod_two_eq_zero_or_one (x / 2 ^ i) with h | h <;> simp [h]

end Sys2Proof.Machine
end

section
open Sys2Proof Sys2Proof.Machine

/-- Settles O33, by the state of the lane. -/
theorem laneLineCarries : Obligations.LaneLineCarries := by
  unfold Obligations.LaneLineCarries
  refine ⟨?off, ?training, ?words, ?marker, ?user, ?square, ?loopback, fun l prev h _ => unprecodeAll_precodeAll h prev,
    fun l st h => scrambleBits_twice h st⟩
  case off =>
    intro n rx j s h
    exact if_pos h
  case training =>
    intro n rx k i s h1 h3
    have hi : (1024 * k + i.val) % 1024 = i.val := by omega
    rw [laneOut_training h1 h3, trainingSymbol, hi, if_pos (c := i.val < 160) i.isLt, three_mul_bits, three_mul_bits]
  case words =>
    intro n s
    obtain ⟨hrate, hready⟩ := ownControl_spec s n
    exact ⟨wordOk_withCheck _, wordOk_withCheck _, hrate, hready, ownStatus_spec s n⟩
  case marker =>
    intro n rx i s h hoff hinj
    have hlate : ¬8192 + i.val < lastFrames := by simp [lastFrames]
    have hplace : 8192 + i.val - lastFrames = i.val := by simp [lastFrames]
    rw [laneOut_traffic h hoff, linkSymbol, if_neg hlate, hplace, getElem?_trafficLine s n i.isLt, Option.map_some, injected_none hinj]
  case user =>
    intro n rx j s h hv
    exact laneOut_pattern h hv (by decide) rx j
  case square =>
    intro n rx j s h hv
    exact laneOut_pattern h hv (by decide) rx j
  case loopback =>
    intro n rx j a k s h hinj
    rw [laneOut, if_neg (by simp [h, lnOFF]), if_pos (by simp [h, lnLOOPBACK]), injected_one hinj]

end


section
/-! The TAP (chapter 25): its scans, its accesses and the unlocking. -/
namespace Sys2Proof.Machine

variable {s o : State}

/-! ### Scans -/

theorem only_setDbg {ps : List Part} {fs : List Fld} (h : Only ps fs o s) (hp : .dbg ∈ ps) (x : Dbg) : Only ps fs o (setDbg s x) := by
  refine ⟨fun p hn => ?_, h.2⟩
  have hs := h.1 p hn
  cases p
  case dbg => exact absurd (List.mem_cons_of_mem _ hp) hn
  all_goals exact hs

theorem onlyParts_setDbg (s : State) (x : Dbg) : OnlyParts [.dbg] s (setDbg s x) := by
  intro p hp
  cases p
  case dbg => exact absurd hp (by decide)
  all_goals rfl

theorem onlyParts_scanned (s : State) (x : Dbg) : OnlyParts [.dbg, .free] s (setDbg (drawn s) x) :=
  ((onlyParts_drawn s).mono (by simp)).trans ((onlyParts_setDbg (drawn s) x).mono (by simp))

/-- The port after a scan of an instruction register, with the scan instruction in force. -/
def irLoaded (s : State) (code k : Nat) : Dbg := { s.dbg with irOut := irCapture s, ir := code, scan := k }

/-- An instruction that is no scan instruction is only loaded. -/
theorem loadIr_plain (s : State) (code : Nat) : loadIr s code 0 = setDbg s (irLoaded s code 0) := by
  simp only [loadIr, irLoaded, ite_self, ne_eq, not_true, false_and, if_false]

/-- A scan instruction takes effect while the buffer stop holds. -/
theorem loadIr_allowed (h : scanAllowed s = true) (code k : Nat) : loadIr s code k = setDbg s (irLoaded s code k) := by
  simp only [loadIr, irLoaded, h, if_true, Bool.true_eq_false, and_false, if_false]

/-- Otherwise it only raises event 0x1E04. -/
theorem loadIr_denied (h : scanAllowed s = false) {k : Nat} (hk : k ≠ 0) (code : Nat) :
    loadIr s code k = raise (setDbg s (irLoaded s code 0)) 0x1E04 [] := by
  simp only [loadIr, irLoaded, h, hk, ne_eq, not_false_eq_true, and_self, if_true, Bool.false_eq_true, if_false]

theorem scanAllowed_of (h : MayScan s) : scanAllowed s = true := by
  simp only [scanAllowed, bstopState, h]
  rfl

theorem scanAllowed_of_not (h : ¬ MayScan s) : scanAllowed s = false := by
  simpa [scanAllowed, bstopState, bSTOPPED] using h

/-- No scan instruction holds the pins where none is in force. -/
theorem scanPin_free (h : s.dbg.scan = 0) (b n : Nat) : scanPin s b n = none := by
  simp only [scanPin, h, ite_self]

theorem scanPin_highz (hscan : s.dbg.scan = 3) (h : scanAllowed s = true) (b n : Nat) : scanPin s b n = some (false, false) := by
  simp only [scanPin, hscan, h]
  rfl

/-- The port after a boundary scan. -/
def boundaryScanned (s : State) (x : Dbg) (d : BitVec 898) : State :=
  setDbg (drawn s) { x with tdo := Config.freeNat s.free % 2 ^ 898, bsr := d.toNat }

theorem scanBoundary_setDbg (s : State) (x : Dbg) (d : BitVec 898) : scanBoundary (setDbg s x) d.toNat = boundaryScanned s x d := by
  rw [scanBoundary, Nat.mod_eq_of_lt d.isLt]
  rfl

theorem scanHold_allowed (h : scanAllowed s = true) (code k d : Nat) :
    scanHold s code k d = setDbg s { irLoaded s code k with tdo := 0 } := by
  rw [scanHold, loadIr_allowed h, h]
  rfl

/-- A boundary scan behind event 0x1E04. -/
theorem scanBoundary_denied (h : scanAllowed s = false) {k : Nat} (hk : k ≠ 0) (code : Nat) (d : BitVec 898) :
    scanBoundary (loadIr s code k) d.toNat = raise (boundaryScanned s (irLoaded s code 0) d) 0x1E04 [] := by
  rw [loadIr_denied h hk, scanBoundary, Nat.mod_eq_of_lt d.isLt]
  rfl

theorem scanHold_denied (h : scanAllowed s = false) {k : Nat} (hk : k ≠ 0) (code : Nat) (d : BitVec 898) :
    scanHold s code k d.toNat = raise (boundaryScanned s (irLoaded s code 0) d) 0x1E04 [] := by
  rw [← scanBoundary_denied h hk, scanHold, h]
  rfl

/-- A boundary scan that is denied completes with event 0x1E04, and only captures and shifts in. -/
theorem completes_denied {c : Instr} {code : Nat} {d : BitVec 898} {w : State} (hc : exec c s = done w)
    (hw : w = raise (boundaryScanned s (irLoaded s code 0) d) 0x1E04 []) (hq : Quiet s) : Completes c s [ev 0x1E04 []] fun u =>
      u.dbg = { s.dbg with ir := code, irOut := irBits s, scan := 0, tdo := Config.freeNat s.free % 2 ^ 898, bsr := d.toNat }
        ∧ OnlyParts [.dbg, .free] s u := by
  have hquiet : (boundaryScanned s (irLoaded s code 0) d).evq = [] := hq
  have hparts := ((onlyParts_scanned s _).mono (ps := [.dbg, .free]) (qs := [.evq, .dbg, .free]) (by simp)).trans
    ((onlyParts_raise (boundaryScanned s (irLoaded s code 0) d) 0x1E04 []).mono (by simp))
  refine completes_eq hc hw ?_ ⟨rfl, hparts.hush hq⟩
  rw [raise, hquiet]
  rfl

/-! ### Accesses -/

/-- An access of DBG_ACCESS at its end. -/
def accEnded (a : DbgAcc) (st data : Nat) : DbgAcc :=
  { a with st := st, data := if a.write then a.data else data % 2 ^ 64, done := true, busy := false }

theorem dbgEnd_busy (h : s.dbg.acc.busy = true) (st data : Nat) :
    dbgEnd s st data = setDbg s { s.dbg with acc := accEnded s.dbg.acc st data } := if_pos h

/-- An access to thread space names its engine, its thread and its register. -/
theorem selects_of (n : Fin 96) (t : Fin 4) (h : s.dbg.sel = 1 + 4 * n + 512 * t) :
    selSpace s = 1 ∧ selEngine s = n ∧ selThread s = t := by
  simp only [selSpace, selEngine, selThread, h, bits_eq_div_mod]
  omega

/-- A general register of a thread that has not halted is denied, that of one that has halted is served. -/
theorem dbgThreadStatus_g (n : Fin 96) (t : Fin 4) (i : Fin 16) (w : Bool) (h : engineShut s n = false) :
    dbgThreadStatus s n t i w = if halted s n t then ST.ok else ST.denied := by
  have hn : ¬ 96 ≤ n.val := by omega
  have hget : dbgThreadGet s n t i = some (gReg s n t i).toNat := if_pos i.isLt
  have hi : decide (0x800 ≤ i.val) = false := by simp; omega
  rw [dbgThreadStatus, if_neg hn, h, hget, hi]
  cases halted s n t <;> simp

/-- An access to a general register, once the status is known. -/
theorem dbgAccessDone_g (x : AccIn) (n : Fin 96) (t : Fin 4) (i : Fin 16) (hb : s.dbg.acc.busy = true) (hsel : s.dbg.sel = 1 + 4 * n + 512 * t)
    (hi : s.dbg.acc.addr % 2 ^ 12 = i) (hs : engineShut s n = false) (hc : sysClocks s = true) : dbgAccessDone s x =
      if halted s n t = false then dbgEnd s ST.denied 0
      else if s.dbg.acc.write then dbgEnd (setG s n t i (BitVec.ofNat 32 s.dbg.acc.data)) ST.ok 0 else dbgEnd s ST.ok (gReg s n t i).toNat := by
  obtain ⟨hspace, heng, hthr⟩ := selects_of n t hsel
  have hdone : dbgAccessDone s x = dbgThreadAccess s := by
    simp only [dbgAccessDone, hb, hspace]
    rfl
  have hget : dbgThreadGet s n t i = some (gReg s n t i).toNat := if_pos i.isLt
  have hset : dbgThreadSet s n t i s.dbg.acc.data = setG s n t i (BitVec.ofNat 32 s.dbg.acc.data) := if_pos i.isLt
  have hside : dbgThreadSide s n t i = s := if_neg (by omega)
  rw [hdone]
  simp only [dbgThreadAccess, heng, hthr, hi, dbgThreadStatus_g n t i _ hs, hc, hget, hset, hside]
  cases halted s n t <;> rfl

theorem gReg_setG_same (s : State) (n t i : Nat) (v : Word) : gReg (setG s n t i v) n t i = v := by
  rw [setG, gReg_setThread]
  exact smGet_smSet_same ..

theorem gReg_setG_ne (s : State) (n t : Nat) {i j : Nat} (h : j ≠ i) (v : Word) : gReg (setG s n t i v) n t j = gReg s n t j := by
  rw [setG, gReg_setThread]
  exact smGet_smSet_ne _ h ..

theorem onlyParts_setG (s : State) (n t i : Nat) (v : Word) : OnlyParts [.engines] s (setG s n t i v) := onlyParts_setEngine s n _

/-- A scan of DBG_ACCESS that captures v, before its GO acts. -/
def accScanned (s : State) (v : Nat) : State := setDbg s { irLoaded s 0x11 0 with tdo := v }

/-- A scan of DBG_ACCESS whose GO starts an access with a status, at once DONE or in progress. -/
def accStarted (s : State) (v : Nat) (a : DbgAcc) : State := setDbg (accScanned s v) { (accScanned s v).dbg with acc := a }

theorem dbgAccess_eq {v : Nat} (hv : accCapture s.dbg.acc = v) (data addr be : Nat) (write go : Bool) : dbgAccess s data addr be write go =
    if !go || s.dbg.acc.busy || !dbgOn s then accScanned s v
    else if lockState s = 1 then accStarted s v ⟨addr, be, write, data, ST.denied, true, false⟩
    else accStarted s v ⟨addr, be, write, data, 0, false, true⟩ := by
  rw [dbgAccess, loadIr_plain, hv]
  rfl

theorem accCapture_idle {a : DbgAcc} (h : a.busy = false) :
    accCapture a = a.data + a.addr * 2 ^ 64 + a.st * 2 ^ 112 + b2n a.done * 2 ^ 116 := by
  rw [accCapture, h, show b2n false = 0 from rfl, Nat.zero_mul, Nat.add_zero]

theorem dbgOn_of (hen : flag s F.DBG_CTRL_ENABLE = true) (hdr : flag s F.DBG_STATUS_DRAINING = false) : dbgOn s = true := by
  rw [dbgOn, hen, hdr]
  rfl

/-! ### Unlocking -/

/-- A scan of DBG_UNLOCK up to its capture. -/
theorem unlockScan_eq (s : State) : unlockScan s = setDbg s { irLoaded s 0x12 0 with tdo := unlockCapture s } := by
  rw [unlockScan, loadIr_plain]
  rfl

/-- The verification of a RESPOND has ended with a verdict. -/
def respondJudged (s : State) (detail : Nat) : State := setDbg s { s.dbg with respond := none, detail := detail }

theorem parts_respondJudged (s : State) (detail c : Nat) (hq : Quiet s) : OnlyParts [.dbg] s (hush (raise (respondJudged s detail) c [])) :=
  OnlyParts.hush (((onlyParts_setDbg s _).mono (by simp)).trans ((onlyParts_raise (respondJudged s detail) c []).mono (by simp))) hq

theorem evq_respondJudged (detail c : Nat) (hq : Quiet s) : (raise (respondJudged s detail) c []).evq = [ev c []] := by
  rw [raise, show (respondJudged s detail).evq = [] from hq]
  rfl

theorem only_respondJudged (s : State) (detail c : Nat) : Only [.evq, .dbg] [F.DBG_STATUS_LOCKSTATE] s (raise (respondJudged s detail) c []) :=
  (only_setDbg (.refl ..) (by simp) _).raise (by simp) _ _

/-- A RESPOND without a nonce is denied. -/
theorem respond0_stale {m : Option Nat} (hlock : ¬ lockState (setSbx s { s.sbx with nonce := m }) = 0) (hn : m = none) (sel : Bool)
    (sig pub : Nat) : respond0 (setSbx s { s.sbx with nonce := m }) sel sig pub =
      (ST.denied, 1, raise (setSbx s { s.sbx with nonce := m }) 0x1E05 []) := by
  subst hn
  rw [respond0, if_neg hlock]
  rfl

/-- A RESPOND under the ROM's key is judged by its signature over the nonce and the serial number. -/
theorem respond0_romKey {m : Option Nat} {n : Nat} (hlock : ¬ lockState (setSbx s { s.sbx with nonce := m }) = 0) (hn : m = some n)
    (sig pub : Nat) : respond0 (setSbx s { s.sbx with nonce := m }) false sig pub =
      if ed25519 Config.debugKey (bytesOf 32 n ++ bytesOf 8 serial) (bytesOf 64 sig) then
        (ST.ok, 0, setFld (raise (setSbx s { s.sbx with nonce := none }) 0x1C09 []) F.DBG_STATUS_LOCKSTATE 2)
      else (ST.denied, 2, raise (setSbx s { s.sbx with nonce := none }) 0x1E05 []) := by
  rw [respond0, if_neg hlock]
  simp only [setSbx, hn]
  rfl

theorem unlockVerified_eq {x : Respond} (h : s.dbg.respond = some x) : unlockVerified s =
    (let r := respond0 (setSbx s { s.sbx with nonce := x.nonce }) x.sel x.sig x.pub
     let s1 := setSbx r.2.2 { r.2.2.sbx with nonce := s.sbx.nonce }
     setDbg s1 { s1.dbg with respond := none, detail := r.2.1 }) := by
  simp only [unlockVerified, h]

end Sys2Proof.Machine
end

section
open Sys2Proof Sys2Proof.Machine

/-- Settles O57, scan by scan and access by access. -/
theorem tapScansAndAccesses : Obligations.TapScansAndAccesses := by
  unfold Obligations.TapScansAndAccesses
  refine ⟨?reset, ?idcode, ?sample, ?scans, ?denied, ?bypass, ?select, ?starts, ?locked, ?idle, ?misaligned, ?readsG, ?writesG, ?running,
    ?noAccess, ?timeout, ?nonce, ?respond, ?opened, ?stale, ?verified⟩
  case reset =>
    intro s hq
    exact completes_eq_quiet rfl rfl hq ⟨rfl, fun b n => scanPin_free rfl b n, onlyParts_setDbg s _⟩
  case idcode =>
    intro s hq
    exact completes_eq_quiet rfl (congrArg (fun u => setDbg u { u.dbg with tdo := 0x23960E65 }) (loadIr_plain s 1)) hq
      ⟨rfl, onlyParts_setDbg s _⟩
  case sample =>
    intro d s hq
    exact completes_eq_quiet rfl ((congrArg (scanBoundary · d.toNat) (loadIr_plain s 2)).trans (scanBoundary_setDbg ..)) hq
      ⟨rfl, rfl, onlyParts_scanned s _⟩
  case scans =>
    intro d s hq hm
    have ha := scanAllowed_of hm
    refine ⟨?_, ?_, ?_⟩
    · exact completes_eq_quiet rfl ((congrArg (scanBoundary · d.toNat) (loadIr_allowed ha 0 1)).trans (scanBoundary_setDbg ..)) hq
        ⟨rfl, onlyParts_scanned s _⟩
    · exact completes_eq_quiet rfl (scanHold_allowed ha 3 2 _) hq ⟨rfl, onlyParts_setDbg s _⟩
    · exact completes_eq_quiet rfl (scanHold_allowed ha 4 3 _) hq ⟨rfl, fun b n => scanPin_highz (s := setDbg s { irLoaded s 4 3 with tdo := 0 }) rfl ha b n, onlyParts_setDbg s _⟩
  case denied =>
    intro d s hq hm
    have ha := scanAllowed_of_not hm
    exact ⟨completes_denied rfl (scanBoundary_denied ha (by decide) 0 d) hq, completes_denied rfl (scanHold_denied ha (by decide) 3 d) hq,
      completes_denied rfl (scanHold_denied ha (by decide) 4 d) hq⟩
  case bypass =>
    intro c s hq hc
    have hcode : (if tapCodes.contains c.toNat then 0xFF else c.toNat) = c.toNat := by
      rw [if_neg]
      simpa [tapCodes] using hc
    refine completes_eq_quiet rfl (w' := setDbg s { irLoaded s c.toNat 0 with tdo := 0 }) ?_ hq ⟨rfl, onlyParts_setDbg s _⟩
    rw [hcode, loadIr_plain]
    rfl
  case select =>
    intro v s hq
    exact completes_eq_quiet rfl (congrArg (fun u => setDbg u { u.dbg with tdo := s.dbg.sel, sel := v.toNat % 2 ^ 11 }) (loadIr_plain s 0x10)) hq
      ⟨rfl, onlyParts_setDbg s _⟩
  case starts =>
    intro d a be w s ⟨hq, hen, hdr, hlock⟩ hb
    rw [← accCapture_idle hb]
    generalize hv : accCapture s.dbg.acc = v
    refine completes_eq_quiet rfl ((dbgAccess_eq hv ..).trans ?_) (w' := accStarted s v ⟨a.toNat, be.toNat, w, d.toNat, 0, false, true⟩) hq
      ⟨rfl, rfl, onlyParts_setDbg s _⟩
    rw [hb, dbgOn_of hen hdr, if_neg (by decide)]
    exact if_neg hlock
  case locked =>
    intro d a be w s hq hen hdr hlock hb
    refine completes_eq_quiet rfl ((dbgAccess_eq rfl ..).trans ?_) (w' := accStarted s (accCapture s.dbg.acc) ⟨a.toNat, be.toNat, w, d.toNat, ST.denied, true, false⟩) hq
      ⟨rfl, onlyParts_setDbg s _⟩
    rw [hb, dbgOn_of hen hdr, if_neg (by decide)]
    exact if_pos hlock
  case idle =>
    intro d a be w go s hq hno
    refine completes_eq_quiet rfl ((dbgAccess_eq rfl ..).trans (if_pos ?_)) hq ⟨rfl, rfl, onlyParts_setDbg s _⟩
    rcases hno with h | h | h <;> simp [h, dbgOn]
  case misaligned =>
    intro x s hq hb hsel haddr
    have hspace : selSpace s = 0 := by rw [selSpace, bits_eq_div_mod]; omega
    refine completes_eq_quiet rfl (w' := dbgEnd s ST.decode 0) ?_ ?_ ?_
    · simp only [dbgAccessDone, hb, hspace, haddr, ne_eq, not_false_eq_true, true_or, if_true]
      rfl
    · rw [dbgEnd_busy hb]
      exact hq
    · rw [dbgEnd_busy hb]
      exact ⟨rfl, rfl, rfl, onlyParts_setDbg s _⟩
  case readsG =>
    intro x n t i s hq hb hw hsel hi hh hs hc
    have hdata : (gReg s n t i).toNat % 2 ^ 64 = (gReg s n t i).toNat := Nat.mod_eq_of_lt ((gReg s n t i).isLt.trans (by decide))
    refine completes_eq_quiet rfl (w' := setDbg s { s.dbg with acc := accEnded s.dbg.acc ST.ok (gReg s n t i).toNat }) ?_ hq ⟨?_, onlyParts_setDbg s _⟩
    · rw [dbgAccessDone_g x n t i hb hsel hi hs hc, if_neg (by simp [hh]), hw, if_neg (by decide), dbgEnd_busy hb]
    · change accEnded s.dbg.acc ST.ok (gReg s n t i).toNat = _
      simp only [accEnded, hw, hdata]
      rfl
  case writesG =>
    intro x n t i s hq hb hw hsel hi hh hs hc
    have hbusy : (setG s n t i (BitVec.ofNat 32 s.dbg.acc.data)).dbg.acc.busy = true := hb
    have hdata : accEnded s.dbg.acc ST.ok 0 = { s.dbg.acc with st := ST.ok, done := true, busy := false } := by
      simp only [accEnded, hw, if_true]
    have hend : dbgAccessDone s x = setDbg (setG s n t i (BitVec.ofNat 32 s.dbg.acc.data)) { s.dbg with acc := accEnded s.dbg.acc ST.ok 0 } := by
      rw [dbgAccessDone_g x n t i hb hsel hi hs hc, if_neg (by simp [hh]), hw, if_pos rfl, dbgEnd_busy hbusy]
      rfl
    have hsame := gReg_setG_same s n t i (BitVec.ofNat 32 s.dbg.acc.data)
    have hother := fun j (hj : j ≠ i.val) => gReg_setG_ne s n t hj (BitVec.ofNat 32 s.dbg.acc.data)
    refine completes_eq_quiet rfl hend hq ⟨hdata, hsame, hother, fun m hm => ?_, ?_⟩
    · exact engine_setThread_ne s (fun h => hm (Fin.ext h)) t _
    · exact ((onlyParts_setG s n t i _).mono (by simp)).trans ((onlyParts_setDbg _ _).mono (by simp))
  case running =>
    intro x n t i s hq hb hsel hi hh hs hc
    refine completes_eq_quiet rfl (w' := setDbg s { s.dbg with acc := accEnded s.dbg.acc ST.denied 0 }) ?_ hq
      ⟨rfl, rfl, rfl, onlyParts_setDbg s _⟩
    rw [dbgAccessDone_g x n t i hb hsel hi hs hc, if_pos hh, dbgEnd_busy hb]
  case noAccess =>
    intro x s hq hb
    exact ⟨completes_eq_quiet rfl (if_pos (by simp [hb])) hq rfl, completes_eq_quiet rfl (if_neg (by simp [hb])) hq rfl⟩
  case timeout =>
    intro s hq hb
    refine completes_eq_quiet rfl (w' := dropDebug (setDbg s { s.dbg with acc := accEnded s.dbg.acc ST.timeout 0 })) ?_ hq ⟨rfl, rfl, rfl, ?_⟩
    · rw [if_pos hb, dbgEnd_busy hb]
    · intro p hp
      cases p <;> simp [samePart, dropDebug, setDbg] at hp ⊢
  case nonce =>
    intro s hq
    refine completes_eq_quiet rfl (w' := newNonce (setDbg s { irLoaded s 0x12 0 with tdo := unlockCapture s })) ?_ hq ⟨rfl, rfl, rfl, rfl, ?_⟩
    · rw [unlockScan_eq]
    · intro p hp
      cases p <;> simp [samePart, newNonce, setSbx, drawn, setDbg] at hp ⊢
  case respond =>
    intro k g p s hq hr
    refine completes_eq_quiet rfl (w' := setSbx
      (setDbg s { irLoaded s 0x12 0 with tdo := unlockCapture s, respond := some ⟨k, g.toNat, p.toNat, s.sbx.nonce⟩ })
      { s.sbx with nonce := if lockState s = 0 then s.sbx.nonce else none }) ?_ hq ⟨rfl, rfl, ?_⟩
    · simp only [tapRespond, hr, unlockScan_eq]
      rfl
    · intro q hp
      cases q <;> simp [samePart, setSbx, setDbg] at hp ⊢
  case opened =>
    intro x s hq hx hl
    refine completes_eq_quiet rfl (w' := setDbg s { s.dbg with respond := none, detail := 0 }) ?_ hq ⟨rfl, onlyParts_setDbg s _⟩
    have hopen : respond0 (setSbx s { s.sbx with nonce := x.nonce }) x.sel x.sig x.pub =
      (ST.ok, 0, setSbx s { s.sbx with nonce := x.nonce }) := if_pos hl
    rw [unlockVerified_eq hx, hopen]
    rfl
  case stale =>
    intro x s hq hx hl hn
    have hden : respond0 (setSbx s { s.sbx with nonce := x.nonce }) x.sel x.sig x.pub =
        (ST.denied, 1, raise (setSbx s { s.sbx with nonce := x.nonce }) 0x1E05 []) := by
      exact respond0_stale (m := x.nonce) hl hn x.sel x.sig x.pub
    refine completes_eq rfl (w' := raise (respondJudged s 1) 0x1E05 []) ?_ (evq_respondJudged 1 _ hq) ⟨rfl, parts_respondJudged s 1 _ hq⟩
    rw [unlockVerified_eq hx, hden]
    rfl
  case verified =>
    intro x n s hq hx hl hn hsel
    have hlock : ¬ lockState (setSbx s { s.sbx with nonce := x.nonce }) = 0 := by
      change ¬ fld s F.DBG_STATUS_LOCKSTATE = 0
      omega
    have hres := respond0_romKey hlock hn x.sig x.pub
    rw [← hsel] at hres
    by_cases hsig : ed25519 Config.debugKey (bytesOf 32 n ++ bytesOf 8 serial) (bytesOf 64 x.sig) = true
    · rw [if_pos hsig] at hres ⊢
      simp only [hsig, if_true]
      refine completes_eq rfl (w' := setFld (raise (respondJudged s 0) 0x1C09 []) F.DBG_STATUS_LOCKSTATE 2) ?_ (evq_respondJudged 0 _ hq)
        ⟨⟨(fld_setFld_same _ F.DBG_STATUS_LOCKSTATE 2 :), rfl⟩, ((only_respondJudged s 0 _).setFld (by simp) 2).hush hq⟩
      rw [unlockVerified_eq hx, hres]
      rfl
    · rw [if_neg hsig] at hres ⊢
      simp only [hsig]
      refine completes_eq rfl (w' := raise (respondJudged s 2) 0x1E05 []) ?_ (evq_respondJudged 2 _ hq)
        ⟨⟨hl, rfl⟩, (only_respondJudged s 2 _).hush hq⟩
      rw [unlockVerified_eq hx, hres]
      rfl

end


section
/-! Clocks (chapter 20): the judgement of oscillators, trips and freezes, operating points and gates. -/
namespace Sys2Proof.Machine

variable {s o : State} {ps : List Part} {fs : List Fld}

/-! ### The judgement of oscillators -/

theorem Only.setWindows (h : Only ps fs o s) (hp : .clk ∈ ps) (hf : judgeFlds ⊆ fs) (osc n : Nat) : Only ps fs o (setWindows s osc n) :=
  ((only_setClk h hp _).setFld (hf (by simp [judgeFlds])) _).setFld (hf (by simp [judgeFlds])) _

theorem clk_setWindows_xo (s : State) (n : Nat) : (setWindows s 0 n).clk = { s.clk with xo := n } := rfl
theorem clk_setWindows_rclk (s : State) (n : Nat) : (setWindows s 1 n).clk = { s.clk with rclk := n } := rfl
theorem clk_setWindows_fro (s : State) (n : Nat) : (setWindows s 2 n).clk = { s.clk with fro := n } := rfl

theorem evq_setWindows (s : State) (osc n : Nat) : (setWindows s osc n).evq = s.evq := rfl

/-- Only the oscillator's own count of good windows is set. -/
theorem goodWindows_setWindows (s : State) (osc : Fin 3) (n : Nat) : goodWindows (setWindows s osc n) osc = n
    ∧ ∀ j, j < 3 → j ≠ osc.val → goodWindows (setWindows s osc n) j = goodWindows s j := by
  match osc with
  | 0 => exact ⟨rfl, fun j hj hne => by
      have : j = 1 ∨ j = 2 := by change j ≠ 0 at hne; omega
      rcases this with rfl | rfl <;> rfl⟩
  | 1 => exact ⟨rfl, fun j hj hne => by
      have : j = 0 ∨ j = 2 := by change j ≠ 1 at hne; omega
      rcases this with rfl | rfl <;> rfl⟩
  | 2 => exact ⟨rfl, fun j hj hne => by
      have : j = 0 ∨ j = 1 := by change j ≠ 2 at hne; omega
      rcases this with rfl | rfl <;> rfl⟩

/-- REF_STABLE as the judgement of SYSREF says. -/
def refStable (s : State) : Bool := (if fld s F.ANG_RTM_ROLE_ROLE = 2 then s.clk.rclk else s.clk.xo) == 4

theorem ref_setWindows (s : State) (osc n : Nat) : flag (setWindows s osc n) F.CLK_STATUS_REF_STABLE = refStable (setWindows s osc n) := by
  have hrole : fld (setWindows s osc n) F.ANG_RTM_ROLE_ROLE = fld s F.ANG_RTM_ROLE_ROLE :=
    (Only.setWindows (.refl [.clk] judgeFlds s) (by simp) (List.Subset.refl _) osc n).2 _ (by decide)
  rw [refStable, hrole]
  refine (flag_eq_of_fld (fld_setFld_ne _ (by decide) _)).trans ?_
  exact flag_b2n _ F.CLK_STATUS_REF_STABLE rfl _

theorem fro_setWindows (s : State) (osc n : Nat) : flag (setWindows s osc n) F.CLK_STATUS_FRO_STABLE = ((setWindows s osc n).clk.fro == 4) :=
  flag_b2n _ F.CLK_STATUS_FRO_STABLE rfl _

theorem windowGood_iff (s : State) (osc : Fin 3) (n : Nat) : windowGood s osc n = true ↔ InTolerance s osc n := by
  match osc with
  | 0 =>
    simp only [windowGood, Bool.and_eq_true, decide_eq_true_eq, InTolerance, if_true, Fin.val_zero]
    omega
  | 1 =>
    simp only [windowGood, Bool.and_eq_true, decide_eq_true_eq, InTolerance, Fin.val_one, Nat.one_ne_zero, if_false, if_true]
    omega
  | 2 =>
    have hx : xoGood s = true ↔ s.clk.xo = 4 ∧ flag s F.CLK_STATUS_XO_FAIL = false := by simp [xoGood]
    simp only [windowGood, InTolerance, show ((2 : Fin 3) : Nat) = 2 from rfl, OfNat.ofNat_ne_zero, OfNat.ofNat_ne_one, if_false, ← hx]
    split
    · simp only [Bool.and_eq_true, decide_eq_true_eq]
    · simp only [Bool.and_eq_true, decide_eq_true_eq]
      omega

/-- An oscillator that runs is judged by its window. -/
theorem judgeWindow_good {osc : Fin 3} {n : Nat} (hrun : osc = 2 → froRuns s = true) (h : InTolerance s osc n) (hlt : goodWindows s osc < 3) :
    judgeWindow s osc n = setWindows s osc (goodWindows s osc + 1) := by
  rw [judgeWindow, if_neg (fun hc => by simp [hrun (Fin.ext hc.1)] at hc), (windowGood_iff s osc n).2 h, if_neg (by decide), if_neg (by omega),
    Nat.min_eq_right (by omega)]

theorem judgeWindow_bad {osc : Fin 3} {n : Nat} (hrun : osc = 2 → froRuns s = true) (h : ¬ InTolerance s osc n) :
    judgeWindow s osc n = setWindows s osc 0 := by
  have hbad : windowGood s osc n = false := Bool.eq_false_iff.2 fun hg => h ((windowGood_iff s osc n).1 hg)
  rw [judgeWindow, if_neg (fun hc => by simp [hrun (Fin.ext hc.1)] at hc), hbad]
  exact if_pos rfl

theorem judgeWindow_stable {osc : Fin 3} {n : Nat} (hrun : osc = 2 → froRuns s = true) (h : InTolerance s osc n) (h3 : goodWindows s osc = 3) :
    judgeWindow s osc n = becomeStable (setWindows s osc 4) osc := by
  rw [judgeWindow, if_neg (fun hc => by simp [hrun (Fin.ext hc.1)] at hc), (windowGood_iff s osc n).2 h, if_neg (by decide), if_pos h3]

theorem froRuns_of_on (h : flag s F.CLK_CTRL_FRO_ON = true) : froRuns s = true := by rw [froRuns, h, Bool.true_or, Bool.true_or]

/-! ### The return to SYSREF -/

/-- FRO keeps its judgement only while it runs; the rest of the state follows REF_STABLE as before. -/
theorem froRest_spec (s : State) (hsys : flag s F.CLK_STATUS_SYSCLK = false) (hfr : flag s F.CLK_STATUS_FROZEN = false) :
    (froRest s).clk = { s.clk with fro := if flag s F.CLK_CTRL_FRO_ON then s.clk.fro else 0 }
    ∧ (flag s F.CLK_STATUS_REF_STABLE = refStable s → flag (froRest s) F.CLK_STATUS_REF_STABLE = refStable s) ∧ (froRest s).evq = s.evq ∧ Only [.clk] judgeFlds s (froRest s) := by
  by_cases hon : flag s F.CLK_CTRL_FRO_ON = true
  · rw [froRest, if_pos (froRuns_of_on hon), if_pos hon]
    exact ⟨rfl, id, rfl, .refl ..⟩
  · have hoff : froRuns s = false := by simp [froRuns, hon, hsys, hfr]
    have ho := Only.setWindows (.refl [.clk] judgeFlds s) (by simp) (List.Subset.refl _) 2 0
    have hrole : refStable (setWindows s 2 0) = refStable s := by
      rw [refStable, refStable, ho.2 _ (by decide), clk_setWindows_fro]
    rw [froRest, hoff, if_neg (by decide), if_neg hon]
    exact ⟨rfl, fun _ => (ref_setWindows s 2 0).trans hrole, rfl, ho⟩

end Sys2Proof.Machine
end

section
namespace Sys2Proof.Machine

variable {s o : State} {ps : List Part} {fs : List Fld}

/-! ### An oscillator that becomes stable -/

/-- XO judged stable moves a start-up to SYSREF. -/
def xoJudged (s : State) : State :=
  let s1 := setFld (setWindows s 0 4) F.CLK_STATUS_XO_FAIL 0
  setFld (setClk s1 { s1.clk with since := true }) F.CLK_STATUS_SYSCLK 0

theorem becomeStable_xo (hfol : isFollower s = false) (htrip : s.clk.trip = false) (hsys : flag s F.CLK_STATUS_SYSCLK = true) :
    becomeStable (setWindows s 0 4) 0 = froRest (xoJudged s) := by
  have ho := Only.setWindows (.refl [.clk] judgeFlds s) (by simp) (List.Subset.refl _) 0 4
  have hf : isFollower (setWindows s 0 4) = false := by
    rw [isFollower, ho.2 _ (by decide)]
    exact hfol
  have hs : flag (setFld (setWindows s 0 4) F.CLK_STATUS_XO_FAIL 0) F.CLK_STATUS_SYSCLK = true :=
    (flag_eq_of_fld ((fld_setFld_ne _ (by decide) _).trans (ho.2 _ (by decide)))).trans hsys
  rw [becomeStable, hf]
  have ht : (setWindows s 0 4).clk.trip = false := htrip
  exact if_pos (Bool.and_eq_true_iff.2 ⟨congrArg (!·) ht, hs⟩)

theorem xoJudged_spec (s : State) (hfol : isFollower s = false) :
    Only [.clk] ([F.CLK_STATUS_SYSCLK, F.CLK_STATUS_XO_FAIL] ++ judgeFlds) s (xoJudged s)
    ∧ flag (xoJudged s) F.CLK_STATUS_SYSCLK = false ∧ flag (xoJudged s) F.CLK_STATUS_XO_FAIL = false
    ∧ flag (xoJudged s) F.CLK_STATUS_FROZEN = flag s F.CLK_STATUS_FROZEN
    ∧ flag (xoJudged s) F.CLK_STATUS_REF_STABLE = refStable (xoJudged s) ∧ refStable (xoJudged s) = true := by
  have hw := Only.setWindows (.refl [.clk] ([F.CLK_STATUS_SYSCLK, F.CLK_STATUS_XO_FAIL] ++ judgeFlds) s) (by simp) (by simp) 0 4
  have ho : Only [.clk] ([F.CLK_STATUS_SYSCLK, F.CLK_STATUS_XO_FAIL] ++ judgeFlds) s (xoJudged s) :=
    (only_setClk (hw.setFld (by simp) 0) (by simp) _).setFld (by simp) 0
  have hrs : refStable (xoJudged s) = true := by
    have hrole : fld s F.ANG_RTM_ROLE_ROLE ≠ 2 := by simpa [isFollower] using hfol
    rw [refStable, ho.2 _ (by decide), if_neg hrole]
    rfl
  have hws : refStable (setWindows s 0 4) = true := by
    have hrole : fld s F.ANG_RTM_ROLE_ROLE ≠ 2 := by simpa [isFollower] using hfol
    rw [refStable, hw.2 _ (by decide), if_neg hrole]
    rfl
  refine ⟨ho, flag_of_fld (fld_setFld_same ..), ?_, flag_eq_of_fld (ho.2 _ (by decide)), ?_, hrs⟩
  · refine flag_of_fld ((fld_setFld_ne (f := F.CLK_STATUS_SYSCLK) _ (by decide) _).trans ?_)
    exact fld_setFld_same (setWindows s 0 4) F.CLK_STATUS_XO_FAIL 0
  · rw [hrs, ← hws, ← ref_setWindows]
    refine flag_eq_of_fld ((fld_setFld_ne (f := F.CLK_STATUS_SYSCLK) _ (by decide) _).trans ?_)
    exact fld_setFld_ne (setWindows s 0 4) (f := F.CLK_STATUS_XO_FAIL) (g := F.CLK_STATUS_REF_STABLE) (by decide) 0

/-- FRO judged stable within 50 µs of a freeze ends it with event 0x0202. -/
def freezeEnded (s : State) : State :=
  raise (setFld (setFld (setWindows s 2 4) F.CLK_STATUS_SYSCLK 1) F.CLK_STATUS_FROZEN 0) 0x0202 []

theorem freezeEnded_spec (s : State) : (freezeEnded s).clk = { s.clk with fro := 4 } ∧ flag (freezeEnded s) F.CLK_STATUS_FROZEN = false
    ∧ flag (freezeEnded s) F.CLK_STATUS_SYSCLK = true ∧ (freezeEnded s).evq = s.evq ++ [ev 0x0202 []]
    ∧ Only [.evq, .clk] ([F.CLK_STATUS_SYSCLK, F.CLK_STATUS_FROZEN] ++ judgeFlds) s (freezeEnded s) := by
  have hw := Only.setWindows (.refl [.evq, .clk] ([F.CLK_STATUS_SYSCLK, F.CLK_STATUS_FROZEN] ++ judgeFlds) s) (by simp) (by simp) 2 4
  refine ⟨rfl, ?_, ?_, rfl, ((hw.setFld (by simp) 1).setFld (by simp) 0).raise (by simp) _ _⟩
  · exact flag_of_fld (fld_setFld_same (setFld (setWindows s 2 4) F.CLK_STATUS_SYSCLK 1) F.CLK_STATUS_FROZEN 0)
  · have hkept : fld (freezeEnded s) F.CLK_STATUS_SYSCLK = fld (setFld (setWindows s 2 4) F.CLK_STATUS_SYSCLK 1) F.CLK_STATUS_SYSCLK :=
      fld_setFld_ne (setFld (setWindows s 2 4) F.CLK_STATUS_SYSCLK 1) (f := F.CLK_STATUS_FROZEN) (g := F.CLK_STATUS_SYSCLK) (by decide) 0
    exact (flag_eq_of_fld hkept).trans (flag_b2n _ F.CLK_STATUS_SYSCLK rfl true)

theorem becomeStable_fro (hfr : flag s F.CLK_STATUS_FROZEN = true) (h50 : s.clk.frozen50 = false) :
    becomeStable (setWindows s 2 4) 2 = freezeEnded s := by
  have ho := Only.setWindows (.refl [.clk] judgeFlds s) (by simp) (List.Subset.refl _) 2 4
  have hf : flag (setWindows s 2 4) F.CLK_STATUS_FROZEN = true := (flag_eq_of_fld (ho.2 _ (by decide))).trans hfr
  have hres : freezeResume (setWindows s 2 4) = freezeEnded s := by
    rw [freezeResume, if_neg (by rw [clk_setWindows_fro]; simp [h50])]
    rfl
  rw [becomeStable]
  cases isFollower (setWindows s 2 4)
  · exact (if_neg (by simp)).trans ((if_pos ⟨rfl, hf⟩).trans hres)
  · exact (if_neg (by simp)).trans ((if_pos ⟨rfl, hf⟩).trans hres)

/-! ### The trip of SYSREF -/

/-- What a trip of XO leaves before the system clock is settled. -/
def xoTripped (s : State) : State :=
  let s1 := raiseNmi (satInc (setFld s F.GLB_NMI_STATUS_CLKMON 1) F.CLK_MON_TRIPS_COUNT) 0x0201
  let s2 := setWindows (pendVec s1 1) 0 0
  setClk s2 { s2.clk with trip := true, since := false, frozen50 := false }

/-- The fields that record a trip. -/
def tripFlds : List Fld := [F.GLB_NMI_STATUS_CLKMON, F.PCI_PBA_PENDING, F.CLK_MON_TRIPS_COUNT]

theorem Only.raiseNmi (h : Only ps fs o s) (he : .evq ∈ ps) (c : Nat) : Only ps fs o (Machine.raiseNmi s c) := by
  refine ⟨fun p hn => ?_, h.2⟩
  have hs := h.1 p hn
  cases p
  case evq => exact absurd (List.mem_cons_of_mem _ he) hn
  all_goals exact hs

/-- A trip before its judgement is withdrawn: recorded, counted and pending on vector 1. -/
def tripRecorded (s : State) : State := pendVec (raiseNmi (satInc (setFld s F.GLB_NMI_STATUS_CLKMON 1) F.CLK_MON_TRIPS_COUNT) 0x0201) 1

theorem only_tripRecorded (s : State) : Only [.evq, .clk] tripFlds s (tripRecorded s) :=
  ((((Only.refl ..).setFld (by simp [tripFlds]) _).satInc (by simp [tripFlds])).raiseNmi (by simp) _).pendVec (by simp [tripFlds]) _

theorem only_xoTripped_recorded (s : State) : Only [.evq, .clk] judgeFlds (tripRecorded s) (xoTripped s) :=
  only_setClk (Only.setWindows (.refl ..) (by simp) (List.Subset.refl _) 0 0) (by simp) _

theorem only_xoTripped (s : State) : Only [.evq, .clk] (tripFlds ++ judgeFlds) s (xoTripped s) :=
  ((only_tripRecorded s).mono (List.Subset.refl _) (List.subset_append_left ..)).trans
    ((only_xoTripped_recorded s).mono (List.Subset.refl _) (List.subset_append_right ..))

theorem tripRecorded_spec (h : endpointHeld s = false) : flag (tripRecorded s) F.GLB_NMI_STATUS_CLKMON = true
    ∧ bitOf (fld (tripRecorded s) F.PCI_PBA_PENDING) 1 = true ∧ Counts F.CLK_MON_TRIPS_COUNT 1 s (tripRecorded s)
    ∧ (tripRecorded s).evq = s.evq ++ [⟨0x0201, none, true, []⟩] ∧ (tripRecorded s).clk = s.clk := by
  have hpend : tripRecorded s = setFld (raiseNmi (satInc (setFld s F.GLB_NMI_STATUS_CLKMON 1) F.CLK_MON_TRIPS_COUNT) 0x0201) F.PCI_PBA_PENDING
      (fld (raiseNmi (satInc (setFld s F.GLB_NMI_STATUS_CLKMON 1) F.CLK_MON_TRIPS_COUNT) 0x0201) F.PCI_PBA_PENDING ||| 2 ^ 1) :=
    if_neg (ne_true_of_eq_false h)
  rw [hpend]
  refine ⟨?_, ?_, ?_, rfl, rfl⟩
  · refine (flag_eq_of_fld ((fld_setFld_ne _ (by decide) _).trans (fld_satInc_ne _ (by decide)))).trans ?_
    exact flag_b2n s F.GLB_NMI_STATUS_CLKMON rfl true
  · rw [fld_setFld_same, bitOf_eq_testBit, Nat.testBit_mod_two_pow, Nat.testBit_or]
    simp only [F.PCI_PBA_PENDING, Nat.reduceLT, decide_true, Bool.true_and, Bool.or_eq_true]
    exact .inr (by decide)
  · refine (fld_setFld_ne _ (by decide) _).trans ((fld_satInc_same _ _).trans ?_)
    rw [fld_setFld_ne _ (by decide)]

theorem clk_xoTripped (h : endpointHeld s = false) : (xoTripped s).clk = { s.clk with xo := 0, trip := true, since := false, frozen50 := false } := by
  have hclk := (tripRecorded_spec h).2.2.2.2
  rw [← hclk]
  rfl

theorem fro_xoTripped (h : endpointHeld s = false) : flag (xoTripped s) F.CLK_STATUS_FRO_STABLE = (s.clk.fro == 4) := by
  have hclk := (tripRecorded_spec h).2.2.2.2
  refine (fro_setWindows (tripRecorded s) 0 0).trans ?_
  rw [clk_setWindows_xo, hclk]

/-- A trip of XO with XO_FAIL clear: to FRO where it is stable, else a freeze. -/
theorem monTrip_eq (hsys : flag s F.CLK_STATUS_SYSCLK = false) (hfr : flag s F.CLK_STATUS_FROZEN = false)
    (hrt : fld s F.ANG_STATUS_RT_STATE ≠ 1) (hfol : isFollower s = false) (hxo : flag s F.CLK_STATUS_XO_FAIL = false) :
    monTrip s = if flag (xoTripped s) F.CLK_STATUS_FRO_STABLE then setFld (xoTripped s) F.CLK_STATUS_SYSCLK 1
      else setFld (xoTripped s) F.CLK_STATUS_FROZEN 1 := by
  simp only [monTrip, hsys, hfr, hfol, hxo, Bool.or_self, Bool.false_eq_true, if_false, rFREE, hrt, Bool.and_false,
    Bool.not_false, Bool.and_true]
  rfl

/-! ### Freezes -/

/-- In a freeze the trigger of the buffer stop sends nothing. -/
theorem wire_bstopTrigger (h : frozen s = true) (c : Nat) : (bstopTrigger s c).wire = s.wire := by
  rw [bstopTrigger_eq]
  split
  · rfl
  · have hent : frozen (stoppingEntered s c) = true :=
      (flag_eq_of_fld ((only_stoppingEntered s c).2 F.CLK_STATUS_FROZEN (by decide))).trans h
    have hwork := (inDsp_workStopped (stoppingEntered s c)).silent hent
    have hst : (stoppingEntered s c).wire = s.wire := by
      rw [stoppingEntered]
      dsimp only [pendVec]
      split <;> rfl
    have hcheck : ∀ t : State, (bstopCheck t).wire = t.wire := fun t => by
      unfold bstopCheck
      split <;> rfl
    exact (hcheck _).trans (hwork.trans hst)

/-- A freeze of 50 µs. -/
def freezeTimedOut (s : State) : State :=
  let s1 := bstopTrigger s BC.freeze
  assertFault (raise (setClk s1 { s1.clk with frozen50 := true }) 0x0203 []) 0

theorem freezeTimedOut_spec (s : State) (hfr : flag s F.CLK_STATUS_FROZEN = true) : (freezeTimedOut s).clk.frozen50 = true
    ∧ flag (freezeTimedOut s) F.GLB_NMI_STATUS_FAULT = true ∧ 0 ∈ (freezeTimedOut s).rst.fault ∧ (freezeTimedOut s).wire = s.wire
    ∧ flag (freezeTimedOut s) F.CLK_STATUS_FROZEN = true ∧ fld (freezeTimedOut s) F.DSP_STATUS_BSTOP ≠ 0
    ∧ OnlyParts [.regs, .clk, .rst, .dsp, .evq, .ports, .lanes, .mem] s (freezeTimedOut s) := by
  have htrig := only_bstopTrigger s BC.freeze
  have hwire := wire_bstopTrigger hfr BC.freeze
  have hstop := bstopState_bstopTrigger_ne_run s BC.freeze
  rw [freezeTimedOut]
  generalize bstopTrigger s BC.freeze = t at *
  have hr : Only [.evq, .clk] [] t (raise (setClk t { t.clk with frozen50 := true }) 0x0203 []) :=
    (only_setClk (.refl ..) (by simp) _).raise (by simp) _ _
  obtain ⟨-, hrst, ha⟩ := assertFault_spec (raise (setClk t { t.clk with frozen50 := true }) 0x0203 []) 0
  have hrest := ((hr.mono (qs := [.evq, .clk, .rst]) (gs := [F.GLB_NMI_STATUS_FAULT]) (by simp) (by simp)).trans (ha.mono (by simp) (by simp)))
  have hf0 : 0 ∈ (assertFault (raise (setClk t { t.clk with frozen50 := true }) 0x0203 []) 0).rst.fault := by
    rw [hrst]
    split
    · next h => simpa using h
    · simp
  refine ⟨?_, ?_, hf0, (hrest.1 .wire (by decide)).trans hwire, ?_, ?_, fun p hp => ?_⟩
  · rfl
  · exact flag_b2n _ F.GLB_NMI_STATUS_FAULT rfl true
  · exact (flag_eq_of_fld ((hrest.2 F.CLK_STATUS_FROZEN (by decide)).trans (htrig.2 _ (by decide)))).trans hfr
  · rw [hrest.2 _ (by decide)]
    exact hstop
  · by_cases hw : p = .wire
    · subst hw
      exact (hrest.1 .wire (by decide)).trans hwire
    · exact OnlyParts.trans (ps := .wire :: [.regs, .clk, .rst, .dsp, .evq, .ports, .lanes, .mem]) (htrig.1.mono (by decide)) (hrest.1.mono (by decide))
        p (by simpa [hw] using hp)

/-! ### The return to SYSREF, and a failure of XO on a follower -/

def returned (s : State) : State := raise (sysclkRef (setClk s { s.clk with trip := false })) 0x0208 []

theorem returned_spec (s : State) (hfr : flag s F.CLK_STATUS_FROZEN = false) :
    (returned s).clk = { s.clk with trip := false, fro := if flag s F.CLK_CTRL_FRO_ON then s.clk.fro else 0 }
    ∧ flag (returned s) F.CLK_STATUS_SYSCLK = false ∧ (returned s).evq = s.evq ++ [ev 0x0208 []]
    ∧ Only [.evq, .clk] (F.CLK_STATUS_SYSCLK :: judgeFlds) s (returned s) := by
  have hb : Only [.evq, .clk] (F.CLK_STATUS_SYSCLK :: judgeFlds) s (setFld (setClk s { s.clk with trip := false }) F.CLK_STATUS_SYSCLK 0) :=
    (only_setClk (.refl ..) (by simp) _).setFld (by simp) 0
  have hsys : flag (setFld (setClk s { s.clk with trip := false }) F.CLK_STATUS_SYSCLK 0) F.CLK_STATUS_SYSCLK = false :=
    flag_of_fld (fld_setFld_same ..)
  obtain ⟨hclk, -, hevq, ho⟩ := froRest_spec _ hsys ((flag_eq_of_fld (hb.2 _ (by decide))).trans hfr)
  have hon : flag (setFld (setClk s { s.clk with trip := false }) F.CLK_STATUS_SYSCLK 0) F.CLK_CTRL_FRO_ON = flag s F.CLK_CTRL_FRO_ON :=
    flag_eq_of_fld (hb.2 _ (by decide))
  rw [hon] at hclk
  have hsys' := (flag_eq_of_fld (ho.2 F.CLK_STATUS_SYSCLK (by decide))).trans hsys
  rw [returned, sysclkRef]
  generalize froRest _ = t at *
  exact ⟨hclk, hsys', congrArg (· ++ [ev 0x0208 []]) hevq, (hb.trans (ho.mono (by simp) (by simp))).raise (by simp) _ _⟩

def xoFailed (s : State) : State := setFld (setFld (raise (setWindows s 0 0) 0x0207 []) F.CLK_STATUS_XO_FAIL 1) F.GLB_NMI_STATUS_XOFAIL 1

theorem xoFailed_spec (s : State) : (xoFailed s).clk = { s.clk with xo := 0 } ∧ flag (xoFailed s) F.CLK_STATUS_XO_FAIL = true
    ∧ flag (xoFailed s) F.GLB_NMI_STATUS_XOFAIL = true ∧ (xoFailed s).evq = s.evq ++ [ev 0x0207 []]
    ∧ Only [.evq, .clk] ([F.CLK_STATUS_XO_FAIL, F.GLB_NMI_STATUS_XOFAIL] ++ judgeFlds) s (xoFailed s) := by
  have hw := Only.setWindows (.refl [.evq, .clk] ([F.CLK_STATUS_XO_FAIL, F.GLB_NMI_STATUS_XOFAIL] ++ judgeFlds) s) (by simp) (by simp) 0 0
  have hkept : fld (xoFailed s) F.CLK_STATUS_XO_FAIL = fld (setFld (raise (setWindows s 0 0) 0x0207 []) F.CLK_STATUS_XO_FAIL 1) F.CLK_STATUS_XO_FAIL :=
    fld_setFld_ne (setFld (raise (setWindows s 0 0) 0x0207 []) F.CLK_STATUS_XO_FAIL 1) (f := F.GLB_NMI_STATUS_XOFAIL) (g := F.CLK_STATUS_XO_FAIL)
      (by decide) 1
  exact ⟨rfl, (flag_eq_of_fld hkept).trans (flag_b2n _ F.CLK_STATUS_XO_FAIL rfl true), flag_b2n _ F.GLB_NMI_STATUS_XOFAIL rfl true, rfl,
    ((hw.raise (by simp) _ _).setFld (by simp) 1).setFld (by simp) 1⟩

/-! ### Operating points -/

/-- A change that no SET_OP asked for ends; a disable that waited for it ends too. -/
theorem opEnd_quiet (s : State) (st : Nat) : opEnd s false st =
    (let s1 := setFld (setClk s { s.clk with op := none, engGate := [] }) F.CLK_STATUS_OP_BUSY 0
     if flag s F.CLK_STATUS_DRAINING then setFld (setFld s1 F.CLK_CTRL_ENABLE 0) F.CLK_STATUS_DRAINING 0 else s1) := by
  have hdr : flag (setFld (setClk s { s.clk with op := none, engGate := [] }) F.CLK_STATUS_OP_BUSY 0) F.CLK_STATUS_DRAINING
      = flag s F.CLK_STATUS_DRAINING := flag_eq_of_fld (fld_setFld_ne (setClk s _) (by decide) _)
  simp only [opEnd, hdr, Bool.false_eq_true, if_false]

theorem opEnd_undrained (h : flag s F.CLK_STATUS_DRAINING = false) (st : Nat) :
    opEnd s false st = setFld (setClk s { s.clk with op := none, engGate := [] }) F.CLK_STATUS_OP_BUSY 0 := by
  rw [opEnd_quiet, h]
  rfl

/-- A bit cleared where a condition holds. -/
def clearedIf (s : State) (f : Fld) (c : Bool) : State := if c then setFld s f 0 else s

theorem Only.clearedIf (h : Only ps fs o s) {f : Fld} (hf : f ∈ fs) (c : Bool) : Only ps fs o (clearedIf s f c) := .ite (h.setFld hf 0) h

theorem evq_clearedIf (s : State) (f : Fld) (c : Bool) : (clearedIf s f c).evq = s.evq := by cases c <;> rfl

theorem flag_clearedIf (s : State) (f : Fld) (c : Bool) : flag (clearedIf s f c) f = (flag s f && !c) := by
  cases c
  · exact (Bool.and_true _).symm
  · exact (flag_of_fld (fld_setFld_zero_same s f)).trans (Bool.and_false _).symm

theorem flag_clearedIf_ne (s : State) {f g : Fld} (h : g.key ≠ f.key) (c : Bool) : flag (clearedIf s f c) g = flag s g := by
  cases c
  · rfl
  · exact flag_eq_of_fld (fld_setFld_ne s h 0)

/-- A system PLL among those that are locked. -/
def lockedPll (s : State) (i : Nat) : State :=
  setClk s { s.clk with plls := if s.clk.plls.contains i then s.clk.plls else s.clk.plls ++ [i] }

theorem mem_lockedPll (s : State) (i : Nat) : i ∈ (lockedPll s i).clk.plls := by
  change i ∈ if s.clk.plls.contains i then s.clk.plls else s.clk.plls ++ [i]
  split
  · next h => simpa using h
  · simp

theorem clk_setClk (s : State) (x : Clock) : (setClk s x).clk = x := rfl

theorem onlyParts_setClk (s : State) (x : Clock) : OnlyParts [.clk] s (setClk s x) := by
  intro p hp
  cases p
  case clk => exact absurd hp (by decide)
  all_goals rfl

/-- A change to an operating point begun. -/
def opBegun (s : State) (t : Nat) : State :=
  let up := decide (fld s F.CLK_OP_CURRENT < t)
  setFld (setClk (setFld s F.CLK_OP_TARGET t) { s.clk with op := some ⟨t, up, up, false⟩, engGate := if up then [] else [1, 2, 3] })
    F.CLK_STATUS_OP_BUSY 1

theorem opBegun_spec (s : State) {t : Nat} (ht : t < 4) : fld (opBegun s t) F.CLK_OP_TARGET = t ∧ flag (opBegun s t) F.CLK_STATUS_OP_BUSY = true
    ∧ (opBegun s t).clk = { s.clk with
        op := some ⟨t, decide (fld s F.CLK_OP_CURRENT < t), decide (fld s F.CLK_OP_CURRENT < t), false⟩
        engGate := if fld s F.CLK_OP_CURRENT < t then [] else [1, 2, 3] }
    ∧ Only [.clk] [F.CLK_OP_TARGET, F.CLK_STATUS_OP_BUSY] s (opBegun s t) := by
  refine ⟨?_, flag_b2n _ F.CLK_STATUS_OP_BUSY rfl true, ?_, (only_setClk ((Only.refl ..).setFld (by simp) _) (by simp) _).setFld (by simp) 1⟩
  · refine (fld_setFld_ne (f := F.CLK_STATUS_OP_BUSY) _ (by decide) 1).trans ?_
    exact (fld_setFld_same s F.CLK_OP_TARGET t).trans (Nat.mod_eq_of_lt ht)
  · simp only [opBegun, setClk, setFld, decide_eq_true_eq]

/-- A change over, with its point in force. -/
def opEnded (s : State) (t : Nat) : State :=
  setFld (setClk (setFld s F.CLK_OP_CURRENT t) { s.clk with op := none, engGate := [] }) F.CLK_STATUS_OP_BUSY 0

theorem opEnded_spec (s : State) {t : Nat} (ht : t < 4) : fld (opEnded s t) F.CLK_OP_CURRENT = t ∧ flag (opEnded s t) F.CLK_STATUS_OP_BUSY = false
    ∧ (opEnded s t).clk.op = none ∧ (opEnded s t).clk.engGate = []
    ∧ Only [.clk] [F.CLK_OP_CURRENT, F.CLK_STATUS_OP_BUSY] s (opEnded s t) := by
  refine ⟨?_, flag_of_fld (fld_setFld_zero_same ..), rfl, rfl, (only_setClk ((Only.refl ..).setFld (by simp) _) (by simp) _).setFld (by simp) 0⟩
  refine (fld_setFld_ne (f := F.CLK_STATUS_OP_BUSY) _ (by decide) 0).trans ?_
  exact (fld_setFld_same s F.CLK_OP_CURRENT t).trans (Nat.mod_eq_of_lt ht)

theorem opDone_undrained (h : flag s F.CLK_STATUS_DRAINING = false) (t : Nat) (up avs : Bool) :
    opDone s ⟨t, up, avs, false⟩ = opEnded (raise s 0x0204 []) t := by
  have hdr : flag (setFld (raise s 0x0204 []) F.CLK_OP_CURRENT t) F.CLK_STATUS_DRAINING = false :=
    (flag_eq_of_fld (fld_setFld_ne (raise s 0x0204 []) (by decide) t)).trans h
  exact opEnd_undrained hdr 0

/-- A disable that waited for a change ends. -/
def changeOver (s : State) (drains : Bool) : State := if drains then setFld (setFld s F.CLK_CTRL_ENABLE 0) F.CLK_STATUS_DRAINING 0 else s

theorem only_changeOver (s : State) (d : Bool) : Only [] [F.CLK_CTRL_ENABLE, F.CLK_STATUS_DRAINING] s (changeOver s d) :=
  .ite (((Only.refl ..).setFld (by simp) 0).setFld (by simp) 0) (.refl ..)

theorem evq_changeOver (s : State) (d : Bool) : (changeOver s d).evq = s.evq := by cases d <;> rfl
theorem clk_changeOver (s : State) (d : Bool) : (changeOver s d).clk = s.clk := by cases d <;> rfl

theorem flag_changeOver (s : State) : flag (changeOver s true) F.CLK_CTRL_ENABLE = false :=
  flag_of_fld ((fld_setFld_ne (setFld s F.CLK_CTRL_ENABLE 0) (f := F.CLK_STATUS_DRAINING) (g := F.CLK_CTRL_ENABLE) (by decide) 0).trans
    (fld_setFld_zero_same s F.CLK_CTRL_ENABLE))

/-- A voltage step downward or upward that timed out: the change ends with the old point, or the new one. -/
def stepLost (s : State) (up : Bool) (t : Nat) : State :=
  opEnd (if up then s else setFld s F.CLK_OP_CURRENT t) false ST.timeout

theorem stepLost_spec {t : Nat} (ht : t < 4) (hdr : flag s F.CLK_STATUS_DRAINING = false) (up : Bool) :
    fld (stepLost s up t) F.CLK_OP_CURRENT = (if up then fld s F.CLK_OP_CURRENT else t) ∧ (stepLost s up t).clk.op = none
    ∧ (stepLost s up t).evq = s.evq ∧ Only [.clk] [F.CLK_OP_CURRENT, F.CLK_STATUS_OP_BUSY] s (stepLost s up t) := by
  cases up
  · have heq : stepLost s false t = opEnded s t :=
      opEnd_undrained ((flag_eq_of_fld (fld_setFld_ne s (f := F.CLK_OP_CURRENT) (by decide) t)).trans hdr) _
    obtain ⟨hcur, -, hop, -, ho⟩ := opEnded_spec s ht
    rw [heq]
    exact ⟨hcur, hop, rfl, ho⟩
  · have heq : stepLost s true t = setFld (setClk s { s.clk with op := none, engGate := [] }) F.CLK_STATUS_OP_BUSY 0 := opEnd_undrained hdr _
    rw [heq]
    exact ⟨fld_setFld_ne (setClk s _) (by decide) 0, rfl, rfl, (only_setClk (.refl ..) (by simp) _).setFld (by simp) 0⟩

/-! ### Gates -/

/-- A gate that was not acknowledged, counted with its block code. -/
def gateNoted (s : State) (code : Nat) : State := raise (satInc s F.CLK_GATE_TO_COUNT) 0x0205 [(1, code)]

theorem gateNoted_spec (s : State) (code : Nat) : (gateNoted s code).evq = s.evq ++ [ev 0x0205 [(1, code)]]
    ∧ Counts F.CLK_GATE_TO_COUNT 1 s (gateNoted s code) ∧ (∀ j, engine (gateNoted s code) j = engine s j)
    ∧ Only [.evq] [F.CLK_GATE_TO_COUNT] s (gateNoted s code) :=
  ⟨rfl, fld_satInc_same .., fun _ => rfl, ((Only.refl ..).satInc (by simp)).raise (by simp) _ _⟩

/-- The gate request of an engine is over. -/
def ungated (s : State) (i : Nat) : State := setEngine s i { engine s i with gateReq := false }

/-- The gate request of a region is over. -/
def regionUngated (s : State) (i : Nat) : State := setRegion s i { region s i with gateReq := false }

theorem onlyParts_setRegion (s : State) (r : Nat) (x : Region) : OnlyParts [.regions] s (setRegion s r x) := by
  intro p hp
  cases p
  case regions => exact absurd hp (by decide)
  all_goals rfl

theorem region_setRegion_same (s : State) (r : Nat) (x : Region) : region (setRegion s r x) r = x := smGet_smSet_same ..

theorem region_setRegion_ne (s : State) {r q : Nat} (h : q ≠ r) (x : Region) : region (setRegion s r x) q = region s q := smGet_smSet_ne _ h ..

end Sys2Proof.Machine
end

section
open Sys2Proof Sys2Proof.Machine

/-- Settles O50, command by command; in a freeze the Dispatcher's own sends are silent. -/
theorem clocksAreJudgedAndChanged : Obligations.ClocksAreJudgedAndChanged := by
  unfold Obligations.ClocksAreJudgedAndChanged
  refine ⟨?good, ?bad, ?xoStable, ?froStable, ?trip, ?noTrip, ?freeze, ?noFreeze, ?returns, ?noReturn, ?xoFails, ?xoMaster, ?nmi, ?pllStart,
    ?pllRefused, ?pllStop, ?fpllLock, ?sysLock, ?opStart, ?opRefused, ?opOff, ?upVolt, ?upDone, ?downPll, ?downDone, ?avsTimeout, ?noChange,
    ?engGate, ?regGate, ?frozenGate, ?disable, ?disabled⟩
  case good =>
    intro osc n s hq hin hlt hon
    obtain ⟨hsame, hother⟩ := goodWindows_setWindows s osc (goodWindows s osc + 1)
    exact completes_eq_quiet rfl (judgeWindow_good (fun h => froRuns_of_on (hon h)) hin hlt) hq
      ⟨hsame, hother, Only.setWindows (.refl ..) (by simp) (List.Subset.refl _) _ _⟩
  case bad =>
    intro osc n s hq hin hon
    obtain ⟨hsame, -⟩ := goodWindows_setWindows s osc 0
    refine completes_eq_quiet rfl (judgeWindow_bad (fun h => froRuns_of_on (hon h)) hin) hq
      ⟨hsame, fun h => ?_, Only.setWindows (.refl ..) (by simp) (List.Subset.refl _) _ _⟩
    subst h
    exact fro_setWindows s 2 0
  case xoStable =>
    intro n s hq hin h3 hfol htrip hfr hsys
    have hend : judgeWindow s 0 n.toNat = froRest (xoJudged s) :=
      (judgeWindow_stable (osc := 0) (fun h => by cases h) hin h3).trans (becomeStable_xo hfol htrip hsys)
    obtain ⟨hj, hsys', hfail, hfr', href, hrs⟩ := xoJudged_spec s hfol
    obtain ⟨hclk, href', hevq, ho⟩ := froRest_spec (xoJudged s) hsys' (hfr'.trans hfr)
    have hon : flag (xoJudged s) F.CLK_CTRL_FRO_ON = flag s F.CLK_CTRL_FRO_ON := flag_eq_of_fld (hj.2 _ (by decide))
    have hjclk : (xoJudged s).clk = { s.clk with xo := 4, since := true } := rfl
    have hjevq : (xoJudged s).evq = s.evq := rfl
    rw [hon, hjclk] at hclk
    generalize xoJudged s = j at *
    refine completes_eq_quiet rfl hend (hevq.trans (hjevq.trans hq)) ⟨hclk, (href' href).trans hrs, ?_, ?_,
      hj.trans (ho.mono (List.Subset.refl _) (by simp))⟩
    · exact (flag_eq_of_fld (ho.2 _ (by decide))).trans hsys'
    · exact (flag_eq_of_fld (ho.2 _ (by decide))).trans hfail
  case froStable =>
    intro n s hq hin h3 hfr h50 hsys
    have hrun : froRuns s = true := by simp [froRuns, hfr]
    have hend : judgeWindow s 2 n.toNat = freezeEnded s :=
      (judgeWindow_stable (osc := 2) (fun _ => hrun) hin h3).trans (becomeStable_fro hfr h50)
    obtain ⟨hclk, hfrozen, hsys', hevq, ho⟩ := freezeEnded_spec s
    rw [hq] at hevq
    generalize freezeEnded s = w at *
    exact completes_eq rfl hend hevq ⟨hclk, hfrozen, hsys', ho.hush hq⟩
  case trip =>
    intro s hq hsys hfr hrt hfol hheld hxo
    have hend := monTrip_eq hsys hfr hrt hfol hxo
    obtain ⟨hmon, hpend, hcount, hevq, -⟩ := tripRecorded_spec hheld
    have hrec := only_xoTripped_recorded s
    have ho := only_xoTripped s
    have hclk := clk_xoTripped hheld
    have hfro := fro_xoTripped hheld
    have hq' : (xoTripped s).evq = [⟨0x0201, none, true, []⟩] := hevq.trans (by rw [hq]; rfl)
    have hsys' := (flag_eq_of_fld (ho.2 F.CLK_STATUS_SYSCLK (by decide))).trans hsys
    have hfr' := (flag_eq_of_fld (ho.2 F.CLK_STATUS_FROZEN (by decide))).trans hfr
    have hmon' := (flag_eq_of_fld (hrec.2 F.GLB_NMI_STATUS_CLKMON (by decide))).trans hmon
    have hpend' : bitOf (fld (xoTripped s) F.PCI_PBA_PENDING) 1 = true := by rw [hrec.2 _ (by decide), hpend]
    have hcount' : Counts F.CLK_MON_TRIPS_COUNT 1 s (xoTripped s) := (hrec.2 _ (by decide)).trans hcount
    have ho' : ∀ f ∈ [F.CLK_STATUS_SYSCLK, F.CLK_STATUS_FROZEN], Only [.evq, .clk] ([F.GLB_NMI_STATUS_CLKMON, F.PCI_PBA_PENDING,
        F.CLK_MON_TRIPS_COUNT, F.CLK_STATUS_SYSCLK, F.CLK_STATUS_FROZEN] ++ judgeFlds) s (setFld (xoTripped s) f 1) := fun f hf =>
      (ho.mono (List.Subset.refl _) (by simp [tripFlds, judgeFlds])).setFld (List.mem_append_left _ (by simp at hf ⊢; tauto)) 1
    rw [hfro] at hend
    generalize xoTripped s = t at *
    by_cases h4 : s.clk.fro = 4
    · refine completes_eq rfl (hend.trans (if_pos (by simp [h4]))) hq' ⟨?_, ?_, ?_, ?_, hclk, (ho' _ (by simp)).hush hq⟩
      · exact (flag_eq_of_fld (fld_setFld_ne (f := F.CLK_STATUS_SYSCLK) t (by decide) 1)).trans hmon'
      · exact (congrArg (bitOf · 1) (fld_setFld_ne (f := F.CLK_STATUS_SYSCLK) t (by decide) 1)).trans hpend'
      · exact (fld_setFld_ne (f := F.CLK_STATUS_SYSCLK) t (by decide) 1).trans hcount'
      · rw [if_pos h4]
        exact ⟨flag_b2n t F.CLK_STATUS_SYSCLK rfl true, (flag_eq_of_fld (fld_setFld_ne (f := F.CLK_STATUS_SYSCLK) t (by decide) 1)).trans hfr'⟩
    · refine completes_eq rfl (hend.trans (if_neg (by simp [h4]))) hq' ⟨?_, ?_, ?_, ?_, hclk, (ho' _ (by simp)).hush hq⟩
      · exact (flag_eq_of_fld (fld_setFld_ne (f := F.CLK_STATUS_FROZEN) t (by decide) 1)).trans hmon'
      · exact (congrArg (bitOf · 1) (fld_setFld_ne (f := F.CLK_STATUS_FROZEN) t (by decide) 1)).trans hpend'
      · exact (fld_setFld_ne (f := F.CLK_STATUS_FROZEN) t (by decide) 1).trans hcount'
      · rw [if_neg h4]
        exact ⟨(flag_eq_of_fld (fld_setFld_ne (f := F.CLK_STATUS_FROZEN) t (by decide) 1)).trans hsys', flag_b2n t F.CLK_STATUS_FROZEN rfl true⟩
  case noTrip =>
    intro s hq h
    refine completes_eq_quiet rfl (if_pos ?_) hq rfl
    rcases h with h | h <;> simp [h]
  case freeze =>
    intro s hq hfr h50
    obtain ⟨hclk, hfault, hin, hwire, hfrozen, hstop, hparts⟩ := freezeTimedOut_spec s hfr
    have hend : freezeTimeout s = freezeTimedOut s := if_neg (by simp [hfr, h50])
    generalize freezeTimedOut s = w at *
    exact runs_of (congrArg done hend) ⟨hclk, hfault, hin, hwire, hfrozen, hstop, hparts.trans (onlyParts_hush w (by simp))⟩
  case noFreeze =>
    intro s hq h
    refine completes_eq_quiet rfl (if_pos ?_) hq rfl
    rcases h with h | h <;> simp [h]
  case returns =>
    intro s hq hsys htrip hsince href hfr
    obtain ⟨hclk, hsys', hevq, ho⟩ := returned_spec s hfr
    have hend : sysclkReturn s = returned s := if_pos (by simp [hsys, htrip, hsince, href])
    rw [hq] at hevq
    generalize returned s = w at *
    exact completes_eq rfl hend hevq ⟨hsys', hclk, ho.hush hq⟩
  case noReturn =>
    intro s hq h
    refine completes_eq_quiet rfl (if_neg ?_) hq rfl
    rcases h with h | h <;> simp [h]
  case xoFails =>
    intro s hq hfol hsys hxo
    obtain ⟨hclk, hfail, hnmi, hevq, ho⟩ := xoFailed_spec s
    have hend : xoFail s = xoFailed s := if_neg (by simp [hfol, hsys, hxo])
    have hsys' := (flag_eq_of_fld (ho.2 F.CLK_STATUS_SYSCLK (by decide))).trans hsys
    rw [hq] at hevq
    generalize xoFailed s = w at *
    exact completes_eq rfl hend hevq ⟨hfail, hnmi, hclk, hsys', ho.hush hq⟩
  case xoMaster =>
    intro s hq hfol
    exact completes_eq_quiet rfl (if_pos (by simp [hfol])) hq rfl
  case nmi =>
    intro a b again s hq
    refine completes_eq_quiet rfl (w' := clearedIf (clearedIf s F.GLB_NMI_STATUS_CLKMON (a && !again)) F.GLB_NMI_STATUS_XOFAIL
      (b && !flag s F.CLK_STATUS_XO_FAIL)) rfl ((evq_clearedIf ..).trans ((evq_clearedIf ..).trans hq)) ⟨?_, ?_, ?_⟩
    · rw [flag_clearedIf_ne _ (by decide), flag_clearedIf]
    · rw [flag_clearedIf, flag_clearedIf_ne _ (by decide)]
    · exact ((Only.refl [] _ s).clearedIf (by simp) _).clearedIf (by simp) _
  case pllStart =>
    intro n s hq hen hab
    refine completes_eq_quiet rfl (w' := setFld s (F.CLK_FPLLn_EN n) 1) ?_ hq ⟨flag_b2n s (F.CLK_FPLLn_EN n) rfl true, (Only.refl [] _ s).setFld (by simp) _⟩
    rw [fpllEnable, if_neg (by simp [hen]), if_neg (by simp [hab])]
  case pllRefused =>
    intro n s hq hen hop hlt
    have hab : pllAbove s n (fld s F.CLK_OP_CURRENT) = true := by
      have hmax : fabricMax s 0 = 200 := by
        rw [fabricMax]
        split <;> rfl
      simp only [pllAbove, hop, hmax, Bool.or_eq_true, decide_eq_true_eq]
      exact .inl hlt
    refine completes_eq rfl (w' := raise s 0x0209 []) ?_ ?_ (hush_quiet hq)
    · rw [fpllEnable, if_neg (by simp [hen]), if_pos hab]
    · rw [raise, hq]
      rfl
  case pllStop =>
    intro n s hq
    refine completes_eq_quiet rfl rfl hq ⟨?_, flag_of_fld (fld_setFld_same ..), ((Only.refl [] _ s).setFld (by simp) _).setFld (by simp) _⟩
    have hkey : (F.CLK_FPLLn_EN n).key ≠ (F.CLK_FPLLn_LOCKED n).key := by
      simp only [F.CLK_FPLLn_EN, F.CLK_FPLLn_LOCKED]
      omega
    exact flag_of_fld ((fld_setFld_ne _ hkey _).trans (fld_setFld_same ..))
  case fpllLock =>
    intro n i s hq hi hen
    refine completes_eq_quiet rfl (w' := setFld s (F.CLK_FPLLn_LOCKED n) 1) ?_ hq
      ⟨flag_b2n s (F.CLK_FPLLn_LOCKED n) rfl true, (Only.refl [] _ s).setFld (by simp) _⟩
    have hsub : i.val - 4 = n.val := by omega
    rw [pllLock, if_pos (by omega), hsub, if_pos hen]
  case sysLock =>
    intro i s hq hi hop
    refine completes_eq_quiet rfl (w' := lockedPll s i) ?_ hq ⟨?_, rfl, onlyParts_setClk s _⟩
    · rw [pllLock, if_neg (by omega)]
      simp only [lockedPll, clk_setClk, hop]
    · exact mem_lockedPll s i
  case opStart =>
    intro t s hq hen hdr hop hpb hne
    have hcur : fld (setFld s F.CLK_OP_TARGET t.toNat) F.CLK_OP_CURRENT = fld s F.CLK_OP_CURRENT := fld_setFld_ne s (by decide) _
    have hend : opRequest s t.toNat = opBegun s t.toNat := by
      rw [opRequest, if_neg (by simp [hen, hdr]), if_neg (by simp [hop, hpb]), if_neg hne, opBegin, hcur]
      rfl
    obtain ⟨htgt, hbusy, hclk, ho⟩ := opBegun_spec s (t := t.toNat) t.isLt
    have hcur' := ho.2 F.CLK_OP_CURRENT (by decide)
    have hevq : (opBegun s t.toNat).evq = s.evq := rfl
    generalize opBegun s t.toNat = w at *
    exact completes_eq_quiet rfl hend (hevq.trans hq) ⟨htgt, hbusy, hcur', hclk, ho⟩
  case opRefused =>
    intro t s hq hen hdr h
    refine completes_eq_quiet rfl (w' := satInc s F.CLK_OP_REFUSED) ?_ hq ⟨fld_satInc_same .., (Only.refl [] _ s).satInc (by simp)⟩
    rw [opRequest, if_neg (by simp [hen, hdr]), if_pos]
    rcases h with h | h
    · simp [Option.isSome_iff_ne_none.2 h]
    · simp [h]
  case opOff =>
    intro t s hq hen
    exact completes_eq_quiet rfl (if_pos (by simp [hen])) hq rfl
  case upVolt =>
    intro mv t s hq hop
    refine completes_eq_quiet rfl (w' := setClk (setFld s F.CLK_AVS_VREAD mv.toNat) { s.clk with op := some ⟨t, true, false, false⟩, engGate := [1, 2, 3] })
      ?_ hq ⟨?_, rfl, only_setClk ((Only.refl ..).setFld (by simp) _) (by simp) _⟩
    · simp only [avsAck, hop]
      rfl
    · exact (fld_setFld_same s F.CLK_AVS_VREAD mv.toNat).trans (Nat.mod_eq_of_lt mv.isLt)
  case upDone =>
    intro t s hq hop ht hdr
    have hend : pllLock s 1 = opEnded (raise (lockedPll s 1) 0x0204 []) t := by
      rw [pllLock, if_neg (by decide)]
      simp only [clk_setClk, hop]
      exact opDone_undrained (s := lockedPll s 1) hdr t true false
    obtain ⟨hcur, hbusy, hop', hgate, ho⟩ := opEnded_spec (raise (lockedPll s 1) 0x0204 []) ht
    have hbase : Only [.evq, .clk] [F.CLK_OP_CURRENT, F.CLK_STATUS_OP_BUSY] s (raise (lockedPll s 1) 0x0204 []) :=
      (only_setClk (.refl ..) (by simp) _).raise (by simp) _ _
    have hevq : (opEnded (raise (lockedPll s 1) 0x0204 []) t).evq = [ev 0x0204 []] := (congrArg (· ++ [ev 0x0204 []]) hq :)
    generalize opEnded (raise (lockedPll s 1) 0x0204 []) t = w at *
    exact completes_eq rfl hend hevq ⟨hcur, hbusy, hop', hgate, (hbase.trans (ho.mono (by simp) (by simp))).hush hq⟩
  case downPll =>
    intro t s hq hop
    refine completes_eq_quiet rfl (w' := setClk (lockedPll s 1) { (lockedPll s 1).clk with op := some ⟨t, false, true, false⟩, engGate := [] }) ?_ hq
      ⟨rfl, rfl, (onlyParts_setClk s _).trans (onlyParts_setClk _ _)⟩
    rw [pllLock, if_neg (by decide)]
    simp only [clk_setClk, hop]
    rfl
  case downDone =>
    intro mv t s hq hop ht
    have hdrain : flag (setFld (raise (setFld s F.CLK_AVS_VREAD mv.toNat) 0x0204 []) F.CLK_OP_CURRENT t) F.CLK_STATUS_DRAINING
        = flag s F.CLK_STATUS_DRAINING :=
      flag_eq_of_fld ((fld_setFld_ne (raise (setFld s F.CLK_AVS_VREAD mv.toNat) 0x0204 []) (by decide) t).trans (fld_setFld_ne s (by decide) _))
    have hend : avsAck s mv.toNat = changeOver (opEnded (raise (setFld s F.CLK_AVS_VREAD mv.toNat) 0x0204 []) t) (flag s F.CLK_STATUS_DRAINING) := by
      simp only [avsAck, hop]
      refine (opEnd_quiet (setFld (raise (setFld s F.CLK_AVS_VREAD mv.toNat) 0x0204 []) F.CLK_OP_CURRENT t) 0).trans ?_
      rw [hdrain]
      rfl
    obtain ⟨hcur, hbusy, hop', -, ho⟩ := opEnded_spec (raise (setFld s F.CLK_AVS_VREAD mv.toNat) 0x0204 []) ht
    have hread : fld (raise (setFld s F.CLK_AVS_VREAD mv.toNat) 0x0204 []) F.CLK_AVS_VREAD = mv.toNat :=
      (fld_setFld_same s F.CLK_AVS_VREAD mv.toNat).trans (Nat.mod_eq_of_lt mv.isLt)
    have hread' := (ho.2 F.CLK_AVS_VREAD (by decide)).trans hread
    have hbase : Only [.evq, .clk] [F.CLK_OP_CURRENT, F.CLK_AVS_VREAD, F.CLK_STATUS_OP_BUSY, F.CLK_CTRL_ENABLE, F.CLK_STATUS_DRAINING] s
        (raise (setFld s F.CLK_AVS_VREAD mv.toNat) 0x0204 []) := ((Only.refl ..).setFld (by simp) _).raise (by simp) _ _
    have hevq : (opEnded (raise (setFld s F.CLK_AVS_VREAD mv.toNat) 0x0204 []) t).evq = [ev 0x0204 []] := (congrArg (· ++ [ev 0x0204 []]) hq :)
    have hall := hbase.trans (ho.mono (by simp) (by simp))
    generalize opEnded (raise (setFld s F.CLK_AVS_VREAD mv.toNat) 0x0204 []) t = w at *
    have hkept := fun f hf => (only_changeOver w (flag s F.CLK_STATUS_DRAINING)).2 f hf
    refine completes_eq rfl hend ((evq_changeOver ..).trans hevq) ⟨(hkept _ (by decide)).trans hcur, (hkept _ (by decide)).trans hread',
      (flag_eq_of_fld (hkept _ (by decide))).trans hbusy, (clk_changeOver w _).symm ▸ hop', fun hdr => ?_,
      (hall.trans ((only_changeOver w _).mono (by simp) (by simp))).hush hq⟩
    rw [hdr]
    exact flag_changeOver w
  case avsTimeout =>
    intro mv t up s hq hop ht hdr
    have hbase : Only [.evq, .clk] [F.CLK_OP_CURRENT, F.CLK_AVS_VREAD, F.CLK_STATUS_OP_BUSY] s
        (raise (setFld s F.CLK_AVS_VREAD mv.toNat) 0x0206 []) := ((Only.refl ..).setFld (by simp) _).raise (by simp) _ _
    have hread : fld (raise (setFld s F.CLK_AVS_VREAD mv.toNat) 0x0206 []) F.CLK_AVS_VREAD = mv.toNat :=
      (fld_setFld_same s F.CLK_AVS_VREAD mv.toNat).trans (Nat.mod_eq_of_lt mv.isLt)
    have hevq : (raise (setFld s F.CLK_AVS_VREAD mv.toNat) 0x0206 []).evq = [ev 0x0206 []] := (congrArg (· ++ [ev 0x0206 []]) hq :)
    have hend : Machine.avsTimeout s mv.toNat = stepLost (raise (setFld s F.CLK_AVS_VREAD mv.toNat) 0x0206 []) up t := by
      simp only [Machine.avsTimeout, hop]
      rfl
    have hdr' := (flag_eq_of_fld (hbase.2 F.CLK_STATUS_DRAINING (by decide))).trans hdr
    have hcur : fld (raise (setFld s F.CLK_AVS_VREAD mv.toNat) 0x0206 []) F.CLK_OP_CURRENT = fld s F.CLK_OP_CURRENT :=
      fld_setFld_ne s (by decide) _
    obtain ⟨hcur', hop', hevq', ho⟩ := stepLost_spec ht hdr' up
    rw [hcur] at hcur'
    have hread' := (ho.2 F.CLK_AVS_VREAD (by decide)).trans hread
    have hall := hbase.trans (ho.mono (by simp) (by simp))
    generalize stepLost (raise (setFld s F.CLK_AVS_VREAD mv.toNat) 0x0206 []) up t = w at *
    exact completes_eq rfl hend (hevq'.trans hevq) ⟨hcur', hread', hop', hall.hush hq⟩
  case noChange =>
    intro mv s hq hop
    refine ⟨completes_eq_quiet rfl (w' := s) ?_ hq rfl, completes_eq_quiet rfl (w' := s) ?_ hq rfl⟩
    · simp only [Machine.avsTimeout, hop]
    · simp only [avsAck, hop]
  case engGate =>
    intro i s hq hfr hg
    have hkeep : ∀ j, j ≠ i.val → engine (ungated s i) j = engine s j := fun j hj => engine_setEngine_ne s hj _
    have hown : engine (ungated s i) i = { engine s i with gateReq := false } := engine_setEngine_same ..
    have ho : ∀ ps fs, Part.engines ∈ ps → Only ps fs s (ungated s i) := fun ps fs hp => (Only.refl ..).setEngine hp _ _
    have hack : gateAck s true i = setFld (ungated s i) (F.ENG_n_STATUS_GATED i) 1 := by
      rw [gateAck, if_neg (by simp [hfr]), if_pos rfl, if_pos hg]
      rfl
    have htime : gateTimeout s true i = gateNoted (ungated s i) 0x18 := by
      rw [gateTimeout, if_neg (by simp [hfr])]
      exact if_pos hg
    have hq' : (ungated s i).evq = [] := hq
    generalize ungated s i = t at *
    obtain ⟨hevq, hcount, hkeeps, hnote⟩ := gateNoted_spec t 0x18
    refine ⟨completes_eq_quiet rfl hack hq' ⟨flag_b2n t (F.ENG_n_STATUS_GATED i) rfl true, hown, hkeep,
      (ho _ _ (by simp)).setFld (by simp) 1⟩, completes_eq rfl htime (hevq.trans (by rw [hq']; rfl)) ⟨?_, hown, hkeep,
      ((ho _ _ (by simp)).trans (hnote.mono (by simp) (by simp))).hush hq⟩⟩
    exact hcount.trans (by rw [(ho [.engines] [] (by simp)).2 _ (by simp)])
  case regGate =>
    intro i s hq hfr hi hg
    have hkeep : ∀ j, j ≠ i.val → region (regionUngated s i) j = region s j := fun j hj => region_setRegion_ne s hj _
    have hown : region (regionUngated s i) i = { region s i with gateReq := false } := region_setRegion_same ..
    have ho : ∀ ps fs, Part.regions ∈ ps → Only ps fs s (regionUngated s i) := fun ps fs hp =>
      (Only.refl ps fs s).parts (by simpa using hp) (onlyParts_setRegion s i _) rfl
    have hack : gateAck s false i = if regState s i = gRELEASED then setFld (regionUngated s i) (F.FAB_REGr_STATUS_SLEEPING i) 1
        else regionUngated s i := by
      rw [gateAck, if_neg (by simp [hfr]), if_neg (by decide), if_pos ⟨hi, hg⟩]
      rfl
    have htime : gateTimeout s false i = gateNoted (regionUngated s i) 7 := by
      rw [gateTimeout, if_neg (by simp [hfr])]
      exact (if_neg (by decide)).trans (if_pos ⟨hi, hg⟩)
    have hq' : (regionUngated s i).evq = [] := hq
    generalize regionUngated s i = t at *
    obtain ⟨hevq, hcount, hkeeps, hnote⟩ := gateNoted_spec t 7
    refine ⟨?_, completes_eq rfl htime (hevq.trans (by rw [hq']; rfl)) ⟨?_, hown, hkeep,
      ((ho _ _ (by simp)).trans (hnote.mono (by simp) (by simp))).hush hq⟩⟩
    · by_cases hrel : regState s i = 3
      · refine completes_eq_quiet rfl (hack.trans (if_pos hrel)) hq' ⟨?_, hown, hkeep, (ho _ _ (by simp)).setFld (by simp) 1⟩
        rw [hrel]
        exact flag_b2n t (F.FAB_REGr_STATUS_SLEEPING i) rfl true
      · refine completes_eq_quiet rfl (hack.trans (if_neg hrel)) hq' ⟨?_, hown, hkeep, ho _ _ (by simp)⟩
        rw [flag_eq_of_fld ((ho [.regions] [] (by simp)).2 _ (by simp)), beq_eq_false_iff_ne.2 hrel, Bool.false_or]
    · exact hcount.trans (by rw [(ho [.regions] [] (by simp)).2 _ (by simp)])
  case frozenGate =>
    intro e i s hq hfr
    exact ⟨completes_eq_quiet rfl (if_pos hfr) hq rfl, completes_eq_quiet rfl (if_pos hfr) hq rfl⟩
  case disable =>
    intro s hq hen
    by_cases hop : s.clk.op = none
    · refine completes_eq_quiet rfl (w' := setFld s F.CLK_CTRL_ENABLE 0) ?_ hq ⟨?_, (Only.refl [] _ s).setFld (by simp) _⟩
      · rw [clkDisable, if_neg (by simp [hen]), if_neg (by simp [hop])]
      · rw [if_pos hop]
        exact flag_of_fld (fld_setFld_zero_same ..)
    · refine completes_eq_quiet rfl (w' := setFld s F.CLK_STATUS_DRAINING 1) ?_ hq ⟨?_, (Only.refl [] _ s).setFld (by simp) _⟩
      · rw [clkDisable, if_neg (by simp [hen]), if_pos (Option.isSome_iff_ne_none.2 hop)]
      · rw [if_neg hop]
        exact ⟨flag_b2n s F.CLK_STATUS_DRAINING rfl true, rfl⟩
  case disabled =>
    intro s hq hen
    exact completes_eq_quiet rfl (if_pos (by simp [hen])) hq rfl

end


section
/-! Self-test (chapter 24): a unit's start, its banks, its verdicts and its records. -/
namespace Sys2Proof.Machine

variable {s o : State} {ps : List Part} {fs : List Fld} {u : Nat}

/-! ### Units -/

theorem only_setBst (h : Only ps fs o s) (hp : .bst ∈ ps) (x : Bst) : Only ps fs o (setBst s x) := by
  refine ⟨fun p hn => ?_, h.2⟩
  have hs := h.1 p hn
  cases p
  case bst => exact absurd (List.mem_cons_of_mem _ hp) hn
  all_goals exact hs

/-- The fields that follow a unit's state. -/
def runFlds (u : Nat) : List Fld := [F.BST_Uu_CMD_GO u, F.BST_Uu_STATUS_STATE u, F.BST_STATUS_RUNNING]

theorem Only.setUnit (h : Only ps fs o s) (hf : runFlds u ⊆ fs) (st : Nat) : Only ps fs o (setUnit s u st) :=
  ((h.setFld (hf (by simp [runFlds])) _).setFld (hf (by simp [runFlds])) _).setFld (hf (by simp [runFlds])) _

theorem unitIn_setUnit (s : State) (u : Fin 9) {st : Nat} (h : st < 8) : UnitIn u st (setUnit s u st) := by
  have hgo : (F.BST_Uu_CMD_GO u).key ≠ (F.BST_Uu_STATUS_STATE u).key := by
    simp only [F.BST_Uu_CMD_GO, F.BST_Uu_STATUS_STATE]
    omega
  have hgo' : (F.BST_Uu_CMD_GO u).key ≠ F.BST_STATUS_RUNNING.key := by
    simp only [F.BST_Uu_CMD_GO, F.BST_STATUS_RUNNING]
    omega
  have hrun : F.BST_STATUS_RUNNING.key ≠ (F.BST_Uu_STATUS_STATE u).key := by
    simp only [F.BST_STATUS_RUNNING, F.BST_Uu_STATUS_STATE]
    omega
  refine ⟨(fld_setFld_same ..).trans (Nat.mod_eq_of_lt h), ?_, ?_⟩
  · refine (flag_eq_of_fld ((fld_setFld_ne _ hgo _).trans (fld_setFld_ne _ hgo' _))).trans ?_
    exact flag_b2n s (F.BST_Uu_CMD_GO u) rfl _
  · have hbit : bitOf (putBits (fld s F.BST_STATUS_RUNNING) u 1 (b2n (st != uIDLE)) % 2 ^ 9) u = (st != 0) := by
      rw [bitOf_putBits_same u.isLt]
      change (b2n (st != 0) % 2 == 1) = (st != 0)
      cases (st != 0) <;> rfl
    rw [setUnit, fld_setFld_ne _ hrun, fld_setFld_same]
    exact hbit

/-- MODE and LAST of the test in hand, as GO put them together. -/
theorem cmd_fields {first last : Nat} {mode : Bool} (h : smGet s.bst.cmd u 0 = b2n mode + 2 * first + 512 * last) (hf : first < 256)
    (hl : last < 256) : tstMode s u = mode ∧ tstLast s u = last := by
  rw [tstMode, tstLast, bitOf, h, bits_eq_div_mod, bits_eq_div_mod]
  cases mode
  · rw [show b2n false = 0 from rfl]
    exact ⟨beq_eq_false_iff_ne.2 (by omega), by omega⟩
  · rw [show b2n true = 1 from rfl]
    exact ⟨beq_iff_eq.2 (by omega), by omega⟩

/-! ### The turn from bank to bank -/

/-- The unit gone IDLE, with no disable that waits for it. -/
def unitIdled (s : State) (u : Nat) : State := setUnit (setBst s { s.bst with halted := s.bst.halted.filter (· != u) }) u uIDLE

theorem only_unitIdled (s : State) (u : Nat) : Only [.bst] (runFlds u) s (unitIdled s u) :=
  Only.setUnit (only_setBst (.refl ..) (by simp) _) (List.Subset.refl _) _

theorem unitIdle_eq (hdr : flag s F.BST_STATUS_DRAINING = false) (u : Fin 9) : unitIdle s u = unitIdled s u := by
  have hkept : flag (unitIdled s u) F.BST_STATUS_DRAINING = false := by
    refine (flag_eq_of_fld ((only_unitIdled s u).2 _ ?_)).trans hdr
    revert u
    decide
  change (if flag (unitIdled s u) F.BST_STATUS_DRAINING && bstDrained (unitIdled s u) then bstDrainEnd (unitIdled s u) else unitIdled s u) = _
  rw [hkept]
  rfl

/-- The unit after its last bank. -/
def testEnded (s : State) (u : Nat) : State :=
  unitIdled (raise s 0x1D01 [(1, u), (2, smGet s.bst.fails u 0), (2, smGet s.bst.repairs u 0)]) u

theorem only_testEnded (s : State) (u : Nat) : Only [.evq, .bst] (runFlds u) s (testEnded s u) :=
  ((Only.refl ..).raise (by simp) _ _).trans ((only_unitIdled _ u).mono (by simp) (List.Subset.refl _))

theorem unitDone_eq (hdr : flag s F.BST_STATUS_DRAINING = false) (u : Fin 9) : unitDone s u = testEnded s u :=
  unitIdle_eq (s := raise s 0x1D01 [(1, u), (2, smGet s.bst.fails u 0), (2, smGet s.bst.repairs u 0)]) hdr u

theorem evq_testEnded (hq : Quiet s) (u : Nat) :
    (testEnded s u).evq = [ev 0x1D01 [(1, u), (2, smGet s.bst.fails u 0), (2, smGet s.bst.repairs u 0)]] := by
  change (raise s 0x1D01 _).evq = _
  rw [raise, hq]
  rfl

theorem unitIn_testEnded (s : State) (u : Fin 9) : UnitIn u 0 (hush (testEnded s u)) :=
  unitIn_setUnit _ u (st := 0) (by decide)

/-- Nothing stops a unit whose block is on, outside an entry to SLEEP or deeper. -/
theorem unitStops_of (hdr : flag s F.BST_STATUS_DRAINING = false) (hh : u ∉ s.bst.halted) (hp : fld s F.PWR_STATUS_PHASE ≠ 1) :
    unitStops s u = false := by
  simp [unitStops, hdr, hh, pwrPhase, hp]

theorem startBank_over {b : Nat} (h : tstLast s u < b) : startBank u 257 s b = unitDone s u := by
  rw [startBank, if_pos h]

theorem startBank_march {b : Nat} (h : b ≤ tstLast s u) (hm : tstMode s u = true) :
    startBank u 257 s b = setUnit (setFld s (F.BST_Uu_STATUS_BANK u) b) u uMARCH := by
  rw [startBank, if_neg (by omega), if_pos hm]

theorem startBank_copy {b : Nat} (h : b ≤ tstLast s u) (hm : tstMode s u = false) (hk : u / 3 ≠ 1) :
    startBank u 257 s b = setUnit (setFld s (F.BST_Uu_STATUS_BANK u) b) u uCOPY := by
  rw [startBank, if_neg (by omega), if_neg (by simp [hm]), if_neg (by simp [unitKind, hk])]

/-- What a command does while the clocks run, and where it does nothing. -/
theorem clocked_of (hpwr : fld s F.PWR_STATUS_STATE ≤ 1) (hfr : flag s F.CLK_STATUS_FROZEN = false) (t : State) : clocked s t = t := by
  refine if_pos ?_
  rw [sysClocks, hfr, decide_eq_true hpwr]
  rfl

theorem clocked_same {t : State} (h : t = s) : clocked s t = s := by
  rw [h, clocked, ite_self]

/-! ### GO -/

/-- GO of a test: its fields, its counts, and what the test in hand is. -/
def goGiven (s : State) (u : Nat) (alg mode : Bool) (bg first last : Nat) : State :=
  let s1 := setFld (setFld (setFld s (F.BST_Uu_CMD_ALG u) (b2n alg)) (F.BST_Uu_CMD_MODE u) (b2n mode)) (F.BST_Uu_CMD_BG u) bg
  let s2 := setFld (setFld s1 (F.BST_Uu_CMD_FIRST u) first) (F.BST_Uu_CMD_LAST u) last
  setBst s2 { s2.bst with
    fails := smSet s2.bst.fails u 0 0
    repairs := smSet s2.bst.repairs u 0 0
    cmd := smSet s2.bst.cmd u (b2n mode + 2 * first + 512 * last) 0 }

/-- The reasons to refuse GO, in their order, but for the conditions on the banks themselves. -/
theorem goRefused_eq {r : Nat} (u : Fin 9) (mode : Bool) (first last : Nat)
    (hr : r = (if flag s F.BST_CTRL_ENABLE = false ∨ flag s F.BST_STATUS_DRAINING = true then 1
      else if unitState s u ≠ 0 then 2 else if flag s F.BST_STATUS_STARTUP_DONE = false then 3
      else if last < first ∨ [64, 64, 64, 24, 24, 24, 256, 256, 256][u] ≤ last then 4 else 0)) (h0 : r ≠ 0) : goRefused s u mode first last = r := by
  have hbanks : ∀ u : Fin 9, unitBanks u = [64, 64, 64, 24, 24, 24, 256, 256, 256][u] := by decide
  rw [← hbanks] at hr
  have hoff : (!flag s F.BST_CTRL_ENABLE || flag s F.BST_STATUS_DRAINING) = true ↔ flag s F.BST_CTRL_ENABLE = false ∨ flag s F.BST_STATUS_DRAINING = true := by
    simp
  have hdone : (!flag s F.BST_STATUS_STARTUP_DONE) = true ↔ flag s F.BST_STATUS_STARTUP_DONE = false := by simp
  simp only [goRefused, hoff, hdone, uIDLE]
  rw [hr] at h0 ⊢
  split_ifs at h0 ⊢ <;> first | rfl | exact absurd rfl h0

theorem sixtyFour_le_unitBanks : ∀ u : Fin 9, u.val / 3 ≠ 1 → 64 ≤ unitBanks u := by decide

theorem goRefused_rest {mode : Bool} {first last : Nat} (hen : flag s F.BST_CTRL_ENABLE = true) (hdr : flag s F.BST_STATUS_DRAINING = false)
    (hst : unitState s u = 0) (hdone : flag s F.BST_STATUS_STARTUP_DONE = true) (hle : first ≤ last) (hb : last < unitBanks u) :
    goRefused s u mode first last = if mode && ((List.range (last + 1 - first)).any fun i => inUse s u (first + i)) then 5 else 0 := by
  rw [goRefused, hen, hdr, if_neg (by decide), if_neg (by rw [hst]; decide), hdone, if_neg (by decide), if_neg (by omega)]

theorem bstGo_refused {alg mode : Bool} {bg first last r : Nat} (h : goRefused s u mode first last = r) (hr : r ≠ 0) :
    bstGo s u alg mode bg first last = raise (setFld s (F.BST_Uu_STATUS_REFUSE u) r) 0x1D03 [] := by
  rw [bstGo, h]
  exact if_pos hr

theorem bstGo_started {alg mode : Bool} {bg first last : Nat} (h : goRefused s u mode first last = 0) :
    bstGo s u alg mode bg first last = startBank u 257 (goGiven s u alg mode bg first last) first := by
  rw [bstGo, h]
  exact if_neg (by decide)

/-- A refused GO completes with its reason and event 0x1D03. -/
theorem completes_goRefused {u : Fin 9} {alg mode : Bool} {bg : BitVec 2} {first last : BitVec 8} {r : Nat} (hq : Quiet s)
    (h : goRefused s u mode first.toNat last.toNat = r) (hr : r ≠ 0) (h8 : r < 8) : Completes (.bstGo u alg mode bg first last) s [ev 0x1D03 []] fun t =>
      fld t (F.BST_Uu_STATUS_REFUSE u) = r ∧ OnlyRegs [F.BST_Uu_STATUS_REFUSE u] s t := by
  refine completes_eq rfl (bstGo_refused h hr) ?_ ⟨(fld_setFld_same s (F.BST_Uu_STATUS_REFUSE u) r).trans (Nat.mod_eq_of_lt h8),
    (((Only.refl [.evq] _ s).setFld (by simp) r).raise (by simp) _ _).hush hq⟩
  rw [raise, show (setFld s _ r).evq = [] from hq]
  rfl

theorem only_goGiven (s : State) (u : Nat) (alg mode : Bool) (bg first last : Nat) :
    Only [.bst] (unitFlds u) s (goGiven s u alg mode bg first last) :=
  only_setBst ((((((Only.refl ..).setFld (by simp [unitFlds]) _).setFld (by simp [unitFlds]) _).setFld (by simp [unitFlds]) _).setFld
    (by simp [unitFlds]) _).setFld (by simp [unitFlds]) _) (by simp) _

theorem kept_runFlds : ∀ u : Fin 9, ∀ f ∈ [F.BST_Uu_STATUS_BANK u, F.BST_Uu_CMD_FIRST u, F.BST_Uu_CMD_LAST u, F.BST_Uu_CMD_ALG u,
    F.BST_Uu_CMD_MODE u, F.BST_Uu_CMD_BG u], f.key ∉ (runFlds u).map Fld.key := by
  decide

/-- The unit whose test GO started in its first bank. -/
def goStarted (s : State) (u st : Nat) (alg mode : Bool) (bg first last : Nat) : State :=
  setUnit (setFld (goGiven s u alg mode bg first last) (F.BST_Uu_STATUS_BANK u) first) u st

theorem goGiven_cmd {first last : Nat} (alg mode : Bool) (bg : Nat) (hf : first < 256) (hl : last < 256) :
    tstMode (goGiven s u alg mode bg first last) u = mode ∧ tstLast (goGiven s u alg mode bg first last) u = last :=
  cmd_fields (smGet_smSet_same ..) hf hl

theorem goStarted_spec (s : State) (u : Fin 9) {st first last bg : Nat} (alg mode : Bool) (hst : st < 8) (hf : first < 256) (hl : last < 256)
    (hb : bg < 4) : UnitIn u st (goStarted s u st alg mode bg first last)
    ∧ fld (goStarted s u st alg mode bg first last) (F.BST_Uu_STATUS_BANK u) = first
    ∧ fld (goStarted s u st alg mode bg first last) (F.BST_Uu_CMD_FIRST u) = first
    ∧ fld (goStarted s u st alg mode bg first last) (F.BST_Uu_CMD_LAST u) = last
    ∧ flag (goStarted s u st alg mode bg first last) (F.BST_Uu_CMD_ALG u) = alg
    ∧ flag (goStarted s u st alg mode bg first last) (F.BST_Uu_CMD_MODE u) = mode
    ∧ fld (goStarted s u st alg mode bg first last) (F.BST_Uu_CMD_BG u) = bg
    ∧ smGet (goStarted s u st alg mode bg first last).bst.fails u 0 = 0 ∧ smGet (goStarted s u st alg mode bg first last).bst.repairs u 0 = 0
    ∧ Only [.bst] (unitFlds u) s (goStarted s u st alg mode bg first last) := by
  have hkept : ∀ f : Fld, f.key ∉ (runFlds u).map Fld.key → fld (goStarted s u st alg mode bg first last) f =
      fld (setFld (goGiven s u alg mode bg first last) (F.BST_Uu_STATUS_BANK u) first) f := fun f hf =>
    (Only.setUnit (.refl [] _ _) (List.Subset.refl _) st).2 f hf
  have hcmd := kept_runFlds u
  have hfails : smGet (goGiven s u alg mode bg first last).bst.fails u 0 = 0 := smGet_smSet_same s.bst.fails u 0 0
  have hrepairs : smGet (goGiven s u alg mode bg first last).bst.repairs u 0 = 0 := smGet_smSet_same s.bst.repairs u 0 0
  refine ⟨unitIn_setUnit _ u hst, ?_, ?_, ?_, ?_, ?_, ?_, hfails, hrepairs,
    Only.setUnit ((only_goGiven ..).setFld (by simp [unitFlds]) _) (by simp [runFlds, unitFlds]) _⟩
  · rw [hkept _ (hcmd _ (by simp)), fld_setFld_same]
    exact Nat.mod_eq_of_lt hf
  · rw [hkept _ (hcmd _ (by simp))]
    simp [goGiven, setBst, fld, setFld, smGet_smSet, F.BST_Uu_STATUS_BANK, F.BST_Uu_CMD_FIRST, F.BST_Uu_CMD_LAST]
    omega
  · rw [hkept _ (hcmd _ (by simp))]
    simp [goGiven, setBst, fld, setFld, smGet_smSet, F.BST_Uu_STATUS_BANK, F.BST_Uu_CMD_LAST]
    omega
  · rw [flag, hkept _ (hcmd _ (by simp))]
    cases alg <;> simp [goGiven, setBst, fld, setFld, smGet_smSet, F.BST_Uu_STATUS_BANK, F.BST_Uu_CMD_FIRST, F.BST_Uu_CMD_LAST, F.BST_Uu_CMD_BG,
      F.BST_Uu_CMD_MODE, F.BST_Uu_CMD_ALG, b2n]
  · rw [flag, hkept _ (hcmd _ (by simp))]
    cases mode <;> simp [goGiven, setBst, fld, setFld, smGet_smSet, F.BST_Uu_STATUS_BANK, F.BST_Uu_CMD_FIRST, F.BST_Uu_CMD_LAST, F.BST_Uu_CMD_BG,
      F.BST_Uu_CMD_MODE, b2n]
  · rw [hkept _ (hcmd _ (by simp))]
    simp [goGiven, setBst, fld, setFld, smGet_smSet, F.BST_Uu_STATUS_BANK, F.BST_Uu_CMD_FIRST, F.BST_Uu_CMD_LAST, F.BST_Uu_CMD_BG]
    omega

/-! ### The march, its failures and the zero writes -/

/-- A pass without failures leaves the state alone. -/
theorem bankFailures_nil (s : State) (u bank : Nat) (auto : Bool) : bankFailures s u bank [] auto = s := rfl

theorem passFails_nil (h : u ∉ s.bst.startup) : passFails s u [] = s := by
  rw [passFails]
  simp only [List.contains_iff_mem, h, if_false, List.filter_nil, List.map_nil, bankFailures_nil]

/-- One failing bit is no failing column: its row is the failure. -/
theorem bankFailures_one (s : State) (u bank row bit : Nat) (auto : Bool) :
    bankFailures s u bank [(row, bit)] auto = failure s u bank row bit false auto := by
  have hone : ∀ x : Nat, [x].eraseDups = [x] := fun _ => rfl
  simp [bankFailures, forEach, hone]

theorem passFails_one {k : BitVec 8} (h : u ∉ s.bst.startup) (hk : fld s (F.BST_Uu_STATUS_BANK u) = k.toNat) (row : BitVec 14) (bit : BitVec 15) :
    passFails s u [(k, row, bit)] = failure s u k.toNat row.toNat bit.toNat false (flag s F.BST_CTRL_AUTO_REPAIR) := by
  rw [passFails]
  simp [h, hk, bankFailures_one]

theorem marchPassEnd_of (hst : unitState s u = 2) (l : List (BitVec 8 × BitVec 14 × BitVec 15)) : marchPassEnd s u l =
    if smGet s.bst.repairs u 0 < smGet (passFails s u l).bst.repairs u 0 then setUnit (passFails s u l) u uREMARCH
    else marchEnd (passFails s u l) u := if_neg (by rw [hst]; decide)

theorem marchEnd_of (h : u ∉ s.bst.startup) (hm : tstMode s u = false) : marchEnd s u = setUnit s u uRESTORE := by
  rw [marchEnd, if_neg (by simpa using h), passesDone, hm]
  rfl

/-- A record that the queue has room for. -/
def recQueued (s : State) (u r : Nat) : State :=
  let s1 := satInc (setBst s { s.bst with fails := smSet s.bst.fails u (smGet s.bst.fails u 0 + 1) 0 }) (F.BST_Uu_STATUS_FAILS u)
  setFld (setBst s1 { s1.bst with queue := s1.bst.queue ++ [r] }) F.BST_RESULT_COUNT_COUNT (s1.bst.queue.length + 1)

theorem queueRec_room (h : s.bst.queue.length < 256) (u r : Nat) : queueRec s u r = recQueued s u r := if_pos h

theorem kept_recFlds : ∀ u : Fin 9, ∀ f ∈ [F.BST_Uu_STATUS_FAILS u, F.BST_RESULT_COUNT_COUNT], f.key ∉ (runFlds u).map Fld.key := by
  decide

theorem recQueued_spec (s : State) (u : Fin 9) (r : Nat) : (recQueued s u r).bst.queue = s.bst.queue ++ [r]
    ∧ fld (recQueued s u r) F.BST_RESULT_COUNT_COUNT = (s.bst.queue.length + 1) % 2 ^ F.BST_RESULT_COUNT_COUNT.width
    ∧ Counts (F.BST_Uu_STATUS_FAILS u) 1 s (recQueued s u r) ∧ smGet (recQueued s u r).bst.fails u 0 = smGet s.bst.fails u 0 + 1
    ∧ (recQueued s u r).bst.soft = s.bst.soft ∧ Only [.bst] [F.BST_Uu_STATUS_FAILS u, F.BST_RESULT_COUNT_COUNT] s (recQueued s u r) := by
  have hkey : (F.BST_Uu_STATUS_FAILS u).key ≠ F.BST_RESULT_COUNT_COUNT.key := by revert u; decide
  refine ⟨rfl, fld_setFld_same .., ?_, smGet_smSet_same s.bst.fails u (smGet s.bst.fails u 0 + 1) 0, rfl,
    (only_setBst ((only_setBst (.refl ..) (by simp) _).satInc (by simp)) (by simp) _).setFld (by simp) _⟩
  exact (fld_setFld_ne _ hkey _).trans (fld_satInc_same (setBst s { s.bst with fails := smSet s.bst.fails u (smGet s.bst.fails u 0 + 1) 0 }) _)

/-- A repair by a spare row: it is in force, and counted. -/
def repairMade (s : State) (u r : Nat) : State :=
  setBst s { s.bst with soft := s.bst.soft ++ [r], repairs := smSet s.bst.repairs u (smGet s.bst.repairs u 0 + 1) 0 }

theorem mkRec_eq (u bank row bit outcome : Nat) : mkRec u bank row bit outcome 0 =
    u / 3 + (u % 3 + 1) * 8 + bank * 2 ^ 10 + row * 2 ^ 18 + bit * 2 ^ 32 + outcome * 2 ^ 47 := by
  rw [mkRec, Nat.zero_mul, Nat.add_zero]
  rfl

/-- While no spare of the bank is in use, a failing row is repaired. -/
theorem failure_repaired (hsoft : s.bst.soft = []) (hfused : s.bst.fused = []) (u bank row bit : Nat) :
    Machine.failure s u bank row bit false true = queueRec (repairMade s u (mkRec u bank row bit 1 0)) u (mkRec u bank row bit 1 0) := by
  have hfree : 0 < rowsFree s (unitKind u) (unitDie u) bank := by
    have hnone : repairsAt s (unitKind u) (unitDie u) bank 1 = [] := by simp [repairsAt, hsoft, hfused]
    have hspare : ∀ k, 0 < spareRows k := fun k => by
      unfold spareRows
      split <;> decide
    rw [rowsFree, hnone]
    exact hspare _
  exact if_pos (by rw [decide_eq_true hfree]; rfl)

/-- A bank of a memory die written with zeros. -/
def memZeroed (m : Memory) (k : Nat) : Memory :=
  { m with
    cells := smDrop m.cells (64 * (k * 2 ^ 14)) (64 * ((k + 1) * 2 ^ 14))
    poison := smDrop m.poison (k * 2 ^ 14) ((k + 1) * 2 ^ 14)
    owner := smDrop m.owner (k * 2 ^ 14) ((k + 1) * 2 ^ 14)
    scram := smDrop m.scram k (k + 1) }

def bankZeroed (s : State) (k : Nat) : State := { s with mem := memZeroed s.mem k }

theorem cell_bankZeroed (s : State) {k o : Nat} {l : Nat} (hl : k * 2 ^ 14 ≤ l) (hh : l < (k + 1) * 2 ^ 14) (ho : o < 64) :
    cell (bankZeroed s k) l o = 0 := by
  have hin : 64 * (k * 2 ^ 14) ≤ 64 * l + o ∧ 64 * l + o < 64 * ((k + 1) * 2 ^ 14) := by omega
  have hbank : k ≤ (64 * l + o) / 2 ^ 20 ∧ (64 * l + o) / 2 ^ 20 < k + 1 := by omega
  have hdef : cellDef (bankZeroed s k).mem (64 * l + o) = 0 := by
    change (match smGet (smDrop s.mem.scram k (k + 1)) ((64 * l + o) / 2 ^ 20) 0 with | 0 => 0 | j + 1 => Config.freeByte j (64 * l + o)) = _
    rw [smGet_smDrop, if_pos hbank]
  change smGet (smDrop s.mem.cells _ _) _ (cellDef (bankZeroed s k).mem (64 * l + o)) = 0
  rw [smGet_smDrop, if_pos hin, hdef]

theorem cell_congr {t : State} (h : t.mem = s.mem) (l o : Nat) : cell t l o = cell s l o := by rw [cell, cell, h]

theorem poisoned_bankZeroed (s : State) (k : Nat) : poisoned (bankZeroed s k) (k * 2 ^ 14) = false := by
  rw [poisoned]
  change (smGet (smDrop s.mem.poison _ _) _ 0 == 1) = false
  rw [smGet_smDrop, if_pos ⟨le_rfl, by omega⟩]
  rfl

theorem zeroBank_mem (s : State) {u : Nat} (hu : u < 3) (b : Nat) : zeroBank s u b = bankZeroed s (64 * u + b) := by
  have hk : unitKind u = 0 := by rw [unitKind]; omega
  have hd : (unitDie u - 1) * 64 + b = 64 * u + b := by rw [unitDie]; omega
  simp only [zeroBank, hk, hd]
  rfl

end Sys2Proof.Machine
end

section
open Sys2Proof Sys2Proof.Machine

/-- Settles O56, from GO to the last bank, by the commands that end each step. -/
theorem selfTestsRun : Obligations.SelfTestsRun := by
  unfold Obligations.SelfTestsRun
  refine ⟨?refused, ?inUse, ?copies, ?marches, ?copied, ?passed, ?zeroed, ?recorded, ?repaired, ?remarched, ?nextBank, ?ended, ?idle, ?read,
    ?disable⟩
  case refused =>
    intro u alg mode bg first last r s hq hr h0
    have hgo := goRefused_eq u mode first.toNat last.toNat hr h0
    refine completes_goRefused hq hgo h0 ?_
    rw [hr]
    split_ifs <;> decide
  case inUse =>
    intro u e alg bg s hq hu hen hdr hst hdone heng
    refine completes_goRefused hq ?_ (by decide) (by decide)
    have hbanks : unitBanks u = 256 := by
      rw [unitBanks, unitKind, show u.val / 3 = 2 by omega]
      rfl
    have hkind : unitKind u = 2 := by rw [unitKind]; omega
    have hdie : 32 * (unitDie u - 1) + 8 * e.val / 8 = 32 * (u.val - 6) + e.val := by rw [unitDie]; omega
    have huse : inUse s u (8 * e.val) = true := by
      simp only [inUse, hkind, hdie, heng, Bool.true_or]
    have hany : (List.range (255 + 1 - 0)).any (fun i => inUse s u (0 + i)) = true :=
      List.any_eq_true.2 ⟨8 * e.val, List.mem_range.2 (by omega), by rw [Nat.zero_add]; exact huse⟩
    rw [goRefused_rest hen hdr hst hdone (by decide) (by rw [hbanks]; decide)]
    exact if_pos (by rw [Bool.true_and]; exact hany)
  case copies =>
    intro u alg bg first last s hq hk hen hdr hst hdone hle hlt
    have hbanks := sixtyFour_le_unitBanks u hk
    have hgo : goRefused s u false first.toNat last.toNat = 0 := by
      rw [goRefused_rest hen hdr hst hdone hle (by omega)]
      rfl
    obtain ⟨hmode, hlast⟩ := goGiven_cmd (s := s) (u := u) alg false bg.toNat first.isLt last.isLt
    have hend := (bstGo_started (alg := alg) (bg := bg.toNat) hgo).trans (startBank_copy (by rw [hlast]; exact hle) hmode hk)
    exact completes_eq_quiet rfl hend hq (goStarted_spec s u alg false (by decide) first.isLt last.isLt bg.isLt)
  case marches =>
    intro u alg bg b s hq hk hen hdr hst hdone hb hreg
    have hkind : unitKind u = 1 := hk
    have hdie : 24 * (unitDie u - 1) + b.toNat = 24 * (u.val - 3) + b.toNat := by rw [unitDie]; omega
    have huse : inUse s u b.toNat = false := by
      simp only [inUse, hkind, hdie, regState, hreg]
      rfl
    have hgo : goRefused s u true b.toNat b.toNat = 0 := by
      rw [goRefused_rest hen hdr hst hdone le_rfl (by rw [unitBanks, hkind]; exact hb), show b.toNat + 1 - b.toNat = 1 by omega]
      exact if_neg (by simp [huse])
    obtain ⟨hmode, hlast⟩ := goGiven_cmd (s := s) (u := u) alg true bg.toNat b.isLt b.isLt
    have hend := (bstGo_started (alg := alg) (bg := bg.toNat) hgo).trans (startBank_march (by rw [hlast]) hmode)
    obtain ⟨hin, hbank, -, -, -, hm, -, -, -, ho⟩ := goStarted_spec s u alg true (by decide : 2 < 8) b.isLt b.isLt bg.isLt
    exact completes_eq_quiet rfl hend hq ⟨hin, hbank, hm, ho⟩
  case copied =>
    intro u mode a b s ht
    obtain ⟨hq, hst, -, -, -, -, -, -, -, hpwr, hfr⟩ := ht
    refine completes_eq_quiet rfl ((clocked_of hpwr hfr _).trans (if_pos hst)) hq
      ⟨unitIn_setUnit s u (by decide), Only.setUnit (.refl [] _ s) (List.Subset.refl _) _⟩
  case passed =>
    intro u a b s ht
    obtain ⟨hq, hst, hstart, hcmd, ha, hb, -, -, -, hpwr, hfr⟩ := ht
    have hend : marchPassEnd s u [] = setUnit s u uRESTORE := by
      rw [marchPassEnd_of hst, passFails_nil hstart, if_neg (Nat.lt_irrefl _), marchEnd_of hstart (cmd_fields hcmd ha hb).1]
    exact completes_eq_quiet rfl ((clocked_of hpwr hfr _).trans hend) hq
      ⟨unitIn_setUnit s u (by decide), Only.setUnit (.refl [] _ s) (List.Subset.refl _) _⟩
  case zeroed =>
    intro u a b s ht hu hb hbank
    obtain ⟨hq, hst, hstart, hcmd, ha, hb', hdr, hhalt, hphase, hpwr, hfr⟩ := ht
    obtain ⟨hmode, hlast⟩ := cmd_fields hcmd ha hb'
    have hz : zeroBank s u (fld s (F.BST_Uu_STATUS_BANK u)) = bankZeroed s (64 * u + b) := by rw [hbank, zeroBank_mem s hu]
    have hend : marchPassEnd s u [] = testEnded (bankZeroed s (64 * u + b)) u := by
      rw [marchPassEnd_of hst, passFails_nil hstart, if_neg (Nat.lt_irrefl _), marchEnd, if_neg (by simpa using hstart), passesDone, hmode,
        if_pos rfl, hz, bankDone, unitStops_of (s := bankZeroed s _) hdr hhalt hphase, if_neg (by decide)]
      refine (startBank_over ?_).trans (unitDone_eq (s := bankZeroed s _) hdr u)
      exact (show tstLast s u < fld s (F.BST_Uu_STATUS_BANK u) + 1 by omega)
    have hcells := fun (l : Nat) (o : Fin 64) h h' => cell_bankZeroed s (k := 64 * u + b) (l := l) h h' o.isLt
    have hpoison := poisoned_bankZeroed s (64 * u + b)
    have hzo : Only [.mem] [] s (bankZeroed s (64 * u + b)) := (Only.refl ..).withMem (by simp) _
    have ho := only_testEnded (bankZeroed s (64 * u + b)) u
    have hmem : (testEnded (bankZeroed s (64 * u + b)) u).mem = (bankZeroed s (64 * u + b)).mem := ho.1 .mem (by simp)
    have hall := (hzo.mono (qs := [.evq, .mem, .bst]) (gs := runFlds u) (by simp) (by simp)).trans (ho.mono (by simp) (List.Subset.refl _))
    have hevq := evq_testEnded (s := bankZeroed s (64 * u + b)) hq u
    have hin := unitIn_testEnded (bankZeroed s (64 * u + b)) u
    generalize testEnded (bankZeroed s (64 * u + b)) u = w at *
    refine completes_eq rfl ((clocked_of hpwr hfr _).trans hend) hevq ⟨hin, fun o => ⟨?_, ?_⟩, ?_, hall.hush hq⟩
    · exact (cell_congr hmem _ _).trans (hcells _ o le_rfl (by omega))
    · exact (cell_congr hmem _ _).trans (hcells _ o (by omega) (by omega))
    · exact (congrArg (fun m : Memory => smGet m.poison ((64 * u.val + b) * 2 ^ 14) 0 == 1) hmem).trans hpoison
  case recorded =>
    intro u k row bit a b s ht hbank hauto hlen
    obtain ⟨hq, hst, hstart, hcmd, ha, hb, hdr, -, -, hpwr, hfr⟩ := ht
    have hfail : passFails s u [(k, row, bit)] = recQueued s u (mkRec u k.toNat row.toNat bit.toNat 3 0) := by
      rw [passFails_one hstart hbank, hauto]
      exact queueRec_room hlen ..
    have hend : marchPassEnd s u [(k, row, bit)] = setUnit (recQueued s u (mkRec u k.toNat row.toNat bit.toNat 3 0)) u uRESTORE := by
      rw [marchPassEnd_of hst, hfail]
      refine (if_neg (Nat.lt_irrefl (smGet s.bst.repairs u 0))).trans ?_
      exact marchEnd_of (s := recQueued s u _) hstart (cmd_fields (s := recQueued s u _) hcmd ha hb).1
    obtain ⟨hqueue, hcount, hfails, hnum, hsoft, ho⟩ := recQueued_spec s u (mkRec u k.toNat row.toNat bit.toNat 3 0)
    rw [← mkRec_eq]
    have hkept := kept_recFlds u
    have hq' : (recQueued s u (mkRec u k.toNat row.toNat bit.toNat 3 0)).evq = [] := hq
    generalize recQueued s u (mkRec u k.toNat row.toNat bit.toNat 3 0) = t at *
    have hrun : Only [] (runFlds u) t (setUnit t u uRESTORE) := Only.setUnit (.refl ..) (List.Subset.refl _) _
    refine completes_eq_quiet rfl ((clocked_of hpwr hfr _).trans hend) hq' ⟨unitIn_setUnit t u (by decide), hqueue, ?_, ?_, hnum, hsoft,
      (ho.mono (by simp) (by simp)).trans (hrun.mono (by simp) (by simp [runFlds]))⟩
    · exact (hrun.2 _ (hkept _ (by simp))).trans hcount
    · exact (hrun.2 _ (hkept _ (by simp))).trans hfails
  case repaired =>
    intro u k row bit a b s ht hbank hauto hlen hsoft hfused
    obtain ⟨hq, hst, hstart, hcmd, ha, hb, hdr, -, -, hpwr, hfr⟩ := ht
    have hfail : passFails s u [(k, row, bit)] = recQueued (repairMade s u (mkRec u k.toNat row.toNat bit.toNat 1 0)) u
        (mkRec u k.toNat row.toNat bit.toNat 1 0) := by
      rw [passFails_one hstart hbank, hauto]
      exact (failure_repaired hsoft hfused ..).trans (queueRec_room (s := repairMade s u _) hlen ..)
    obtain ⟨hqueue, -, -, -, hsoft', -⟩ := recQueued_spec (repairMade s u (mkRec u k.toNat row.toNat bit.toNat 1 0)) u
      (mkRec u k.toNat row.toNat bit.toNat 1 0)
    have hrep : smGet (recQueued (repairMade s u (mkRec u k.toNat row.toNat bit.toNat 1 0)) u (mkRec u k.toNat row.toNat bit.toNat 1 0)).bst.repairs u 0
        = smGet s.bst.repairs u 0 + 1 := smGet_smSet_same s.bst.repairs u (smGet s.bst.repairs u 0 + 1) 0
    have hmade : (repairMade s u (mkRec u k.toNat row.toNat bit.toNat 1 0)).bst.soft = [mkRec u k.toNat row.toNat bit.toNat 1 0] := by
      change s.bst.soft ++ _ = _
      rw [hsoft]
      rfl
    have hold : (repairMade s u (mkRec u k.toNat row.toNat bit.toNat 1 0)).bst.queue = s.bst.queue := rfl
    have hend : marchPassEnd s u [(k, row, bit)] = setUnit (recQueued (repairMade s u (mkRec u k.toNat row.toNat bit.toNat 1 0)) u
        (mkRec u k.toNat row.toNat bit.toNat 1 0)) u uREMARCH := by
      rw [marchPassEnd_of hst, hfail, hrep, if_pos (Nat.lt_succ_self _)]
    rw [hold] at hqueue
    rw [hmade] at hsoft'
    rw [← mkRec_eq]
    have hq' : (recQueued (repairMade s u (mkRec u k.toNat row.toNat bit.toNat 1 0)) u (mkRec u k.toNat row.toNat bit.toNat 1 0)).evq = [] := hq
    generalize recQueued (repairMade s u (mkRec u k.toNat row.toNat bit.toNat 1 0)) u (mkRec u k.toNat row.toNat bit.toNat 1 0) = t at *
    refine completes_eq_quiet rfl ((clocked_of hpwr hfr _).trans hend) hq' ⟨unitIn_setUnit t u (by decide), hsoft', ?_, hrep⟩
    exact hqueue.trans (congrArg (s.bst.queue ++ ·) hsoft'.symm)
  case remarched =>
    intro u a b s ht
    obtain ⟨hq, hst, hstart, hcmd, ha, hb, -, -, -, hpwr, hfr⟩ := ht
    have hend : remarchEnd s u [] = setUnit s u uRESTORE := by
      refine (if_pos hst).trans ?_
      rw [passFails_nil hstart, marchEnd_of hstart (cmd_fields hcmd ha hb).1]
    exact completes_eq_quiet rfl ((clocked_of hpwr hfr _).trans hend) hq
      ⟨unitIn_setUnit s u (by decide), Only.setUnit (.refl [] _ s) (List.Subset.refl _) _⟩
  case nextBank =>
    intro u a b s ht hk hlt hdie
    obtain ⟨hq, hst, hstart, hcmd, ha, hb, hdr, hhalt, hphase, hpwr, hfr⟩ := ht
    obtain ⟨hmode, hlast⟩ := cmd_fields hcmd ha hb
    have hend : restoreDone s u = setUnit (setFld s (F.BST_Uu_STATUS_BANK u) (fld s (F.BST_Uu_STATUS_BANK u) + 1)) u uCOPY := by
      rw [restoreDone, if_pos ⟨hst, hdie⟩, bankDone, unitStops_of hdr hhalt hphase, if_neg (by decide)]
      exact startBank_copy (by omega) hmode hk
    refine completes_eq_quiet rfl ((clocked_of hpwr hfr _).trans hend) hq ⟨unitIn_setUnit _ u (by decide), ?_,
      Only.setUnit ((Only.refl [] _ s).setFld (by simp) _) (by simp [runFlds]) _⟩
    rw [(Only.setUnit (.refl [] _ _) (List.Subset.refl _) uCOPY).2 _ (kept_runFlds u _ (by simp)), fld_setFld_same]
    exact Nat.mod_eq_of_lt (lt_of_le_of_lt hlt hb)
  case ended =>
    intro u a b s ht hbank hdie
    obtain ⟨hq, hst, hstart, hcmd, ha, hb, hdr, hhalt, hphase, hpwr, hfr⟩ := ht
    obtain ⟨hmode, hlast⟩ := cmd_fields hcmd ha hb
    have hend : restoreDone s u = testEnded s u := by
      rw [restoreDone, if_pos ⟨hst, hdie⟩, bankDone, unitStops_of hdr hhalt hphase, if_neg (by decide), startBank_over (by omega), unitDone_eq hdr]
    refine completes_eq rfl ((clocked_of hpwr hfr _).trans hend) (evq_testEnded hq u) ⟨unitIn_testEnded s u, (only_testEnded s u).hush hq⟩
  case idle =>
    intro u l s hq hst
    refine ⟨?_, ?_, ?_, ?_⟩
    · exact completes_eq_quiet rfl (clocked_same (if_neg (by rw [hst]; decide))) hq rfl
    · exact completes_eq_quiet rfl (clocked_same (if_pos (by rw [hst]; decide))) hq rfl
    · exact completes_eq_quiet rfl (clocked_same (if_neg (by rw [hst]; decide))) hq rfl
    · exact completes_eq_quiet rfl (clocked_same (if_neg fun h => by rw [hst] at h; exact absurd h.1 (by decide))) hq rfl
  case read =>
    intro s hq hlen
    refine completes_eq_quiet rfl rfl hq ⟨rfl, ?_, (only_setBst (.refl ..) (by simp) _).setFld (by simp) _⟩
    refine (fld_setFld_same ..).trans ?_
    rw [List.length_tail]
  case disable =>
    intro s hq hen
    refine ⟨fun hidle => ?_, fun ⟨u, hu⟩ => ?_⟩
    · have hdr : bstDrained s = true := by
        rw [bstDrained, List.all_eq_true]
        intro u hu
        exact beq_iff_eq.2 (hidle ⟨u, List.mem_range.1 hu⟩)
      refine completes_eq_quiet rfl (w' := setFld s F.BST_CTRL_ENABLE 0) ?_ hq ⟨flag_of_fld (fld_setFld_zero_same ..), (Only.refl [] _ s).setFld (by simp) _⟩
      rw [bstDisable, if_neg (by simp [hen]), if_pos hdr]
    · have hdr : ¬ bstDrained s = true := by
        rw [bstDrained, List.all_eq_true]
        exact fun hall => hu (beq_iff_eq.1 (hall u (List.mem_range.2 u.isLt)))
      refine completes_eq_quiet rfl (w' := setFld s F.BST_STATUS_DRAINING 1) ?_ hq
        ⟨flag_b2n s F.BST_STATUS_DRAINING rfl true, (Only.refl [] _ s).setFld (by simp) _⟩
      rw [bstDisable, if_neg (by simp [hen]), if_neg hdr]

end

section
/-! SUPPORT. The control-register instructions (R187, R188): the ones that act on their thread alone, the ones that write a field of the
engine, and the ones that fault. -/
namespace Sys2Proof.Machine

theorem Completes.imp {i : Instr} {s : State} {es : List Ev} {P Q : State → Prop} (h : Completes i s es P) (hPQ : ∀ u, P u → Q u) :
    Completes i s es Q :=
  have ⟨u, hu, hP⟩ := h
  ⟨u, hu, hPQ u hP⟩

/-! ### An instruction that writes beside its thread -/

/-- An instruction that leaves the state `w` and then goes on. -/
theorem completes_goesOn {i : Instr} {s w : State} {n t c : Nat} {k : State → State} {es : List Ev} {P : State → Prop} (h : Issues s n t c)
    (hexec : exec i s = done (issue s n t c k)) (hk : k s = nextInstr w n t) (hw : KeepsGoing w n t) (he : w.evq = es)
    (hP : P (hush (setThread w n t (goesOn (thread w n t) (flg w n t) (pc4 w n t))))) : Completes i s es P := by
  refine completes_of_issues h hexec ?_ ?_
  · rw [hk, hw.nextInstr]
    exact he
  · rw [hk, hw.nextInstr]
    exact hP

/-- What an instruction that writes a field of its engine leaves: its thread goes on, and nothing changes but that field. -/
theorem completes_writesField {i : Instr} {s w : State} {n t c : Nat} {k : State → State} {f : Fld} {es : List Ev} {v : Nat} (h : Issues s n t c)
    (hexec : exec i s = done (issue s n t c k)) (hk : k s = nextInstr w n t) (he : w.evq = es) (hen : w.engines = s.engines)
    (ho : Only [.evq] [f] s w)
    (hf : ∀ g ∈ [F.ENG_n_CTRL_ENABLE n, F.ENG_n_STATUS_DRAINING n, F.ENG_n_CTRL_START n, F.DBG_ENGn_STATUS_PENDING n],
      g.key ∉ [f].map Fld.key)
    (hv : fld w f = v) :
    Completes i s es fun u => fld u f = v ∧ thread u n t = goesOn (thread s n t) (flg s n t) (pc4 s n t)
      ∧ (∀ j, j ≠ t → thread u n j = thread s n j) ∧ Only [.engines] [f] s u := by
  have hth : ∀ j, thread w n j = thread s n j := fun j => by simp only [thread, engine, hen]
  have hgo : KeepsGoing w n t := (keepsGoing_of_issues h).congr (hth t) fun g hg => ho.2 g (hf g hg)
  have how : Only [.evq, .engines] [f] s w := ho.mono (by simp) (by simp)
  refine completes_goesOn h hexec hk hgo he ⟨?_, ?_, fun j hj => ?_, (how.setThread (by simp) n t _).hush h.1⟩
  · rw [fld_hush, fld_setThread, hv]
  · rw [thread_hush, thread_setThread_same, flg, pc4, hth]
    rfl
  · rw [thread_hush, thread_setThread_ne _ _ hj, hth]

/-! ### An instruction that writes its thread, and its engine beside the threads -/

section
variable {s : State} {n t : Nat}

theorem thread_setEngine {e : Engine} (he : e.threads = (engine s n).threads) (j : Nat) : thread (setEngine s n e) n j = thread s n j := by
  simp [thread, he]

theorem KeepsGoing.setEngine (h : KeepsGoing s n t) {e : Engine} (he : e.threads = (engine s n).threads) :
    KeepsGoing (Machine.setEngine s n e) n t := h.congr (thread_setEngine he t) fun _ _ => rfl

theorem KeepsGoing.nextInstr_setG_setEngine (h : KeepsGoing s n t) {e : Engine} (he : e.threads = (engine s n).threads) (rd : Nat) (r : Word) :
    Machine.nextInstr (setG (Machine.setEngine s n e) n t rd r) n t =
      Machine.setThread (Machine.setEngine s n e) n t (withReg (goesOn (thread s n t) (flg s n t) (pc4 s n t)) t rd r) := by
  rw [(h.setEngine he).nextInstr_setG, flg, pc4, thread_setEngine he]
  rfl

theorem KeepsGoing.nextInstr_setG_setFlg (h : KeepsGoing s n t) {e : Engine} (he : e.threads = (engine s n).threads) (fl : Flg) (rd : Nat)
    (r : Word) : Machine.nextInstr (setG (setFlg (Machine.setEngine s n e) n t fl) n t rd r) n t =
      Machine.setThread (Machine.setEngine s n e) n t (withReg (goesOn (thread s n t) fl (pc4 s n t)) t rd r) := by
  simp [setG, setFlg, (h.setEngine he).nextInstr_setThread, thread_setEngine he, withReg, goesOn, pc4, gDef]

theorem KeepsGoing.nextInstr_setTarget (h : KeepsGoing s n t) (v : Nat) :
    Machine.nextInstr (Machine.setThread s n t { thread s n t with tgt := v }) n t =
      Machine.setThread s n t { goesOn (thread s n t) (flg s n t) (pc4 s n t) with tgt := v } := by
  simp [h.nextInstr_setThread, goesOn, flg, pc4]

theorem KeepsGoing.nextInstr_setStaged (h : KeepsGoing s n t) (v : Nat) :
    Machine.nextInstr (Machine.setThread s n t { thread s n t with tgtLo := v }) n t =
      Machine.setThread s n t { goesOn (thread s n t) (flg s n t) (pc4 s n t) with tgtLo := v } := by
  simp [h.nextInstr_setThread, goesOn, flg, pc4]

/-- What an instruction that writes register rd of its thread, and its engine beside the threads, leaves. -/
def WritesRegIn (n t rd : Nat) (r : Word) (x : Thread) (e : Engine) (s u : State) : Prop :=
  gReg u n t rd = r ∧ (∀ i, i ≠ rd → gReg u n t i = gReg s n t i) ∧ thread u n t = { x with g := (thread u n t).g }
    ∧ engine u n = { e with threads := (engine u n).threads } ∧ OnlyParts [.engines] s u

theorem completes_writesRegIn {i : Instr} {c : Nat} {k : State → State} (h : Issues s n t c) (hexec : exec i s = done (issue s n t c k))
    {e : Engine} (he : e.threads = (engine s n).threads) {x : Thread} (hg : x.g = (thread s n t).g) (hu : x.und = (thread s n t).und)
    {rd : Nat} {r : Word} (hk : k s = Machine.setThread (Machine.setEngine s n e) n t (withReg x t rd r)) :
    Completes i s [] (WritesRegIn n t rd r x e s) := by
  have hquiet : (Machine.setThread (Machine.setEngine s n e) n t (withReg x t rd r)).evq = [] := h.1
  have hth := thread_setEngine he t
  obtain ⟨hsame, ⟨-, -, heng, -⟩, hthread, hother⟩ := onlyGs_withReg (Machine.setEngine s n e) n t rd r (hg.trans (by rw [hth])) (hu.trans (by rw [hth]))
  refine completes_of_issues h hexec (hk ▸ hquiet) ?_
  rw [hk, hush_quiet hquiet]
  refine ⟨hsame, fun i hi => ?_, hthread, ?_, OnlyParts.trans (onlyParts_setEngine _ _ _) (onlyParts_setEngine _ _ _)⟩
  · rw [hother i (by simpa using hi), gReg, gReg, hth]
  · rw [heng, engine_setEngine_same]

end

/-! ### The notification register -/

/-- The bits of NOTIFY that a write of 1s raises, each with its event. -/
theorem setNotify_eq (s : State) (n v : Nat) : setNotify s n v = { setFld s (F.ENG_n_NOTIFY_NOTIFY n) (fld s (F.ENG_n_NOTIFY_NOTIFY n) ||| v) with
    evq := s.evq ++ ((List.range 16).filter fun i => bitOf v i && !bitOf (fld s (F.ENG_n_NOTIFY_NOTIFY n)) i).map
      fun i => ev 0x1805 [(1, n), (1, i)] } :=
  forEach_raise _ (fun _ i => [(1, n), (1, i)]) (fun _ _ => rfl) _ 0x1805

theorem only_setNotify (s : State) (n v : Nat) : Only [.evq] [F.ENG_n_NOTIFY_NOTIFY n] s (setNotify s n v) := by
  unfold setNotify
  exact Only.forEach (fun s i h => h.raise (by simp) _ _) ((Only.refl ..).setFld (by simp) _) _

theorem engines_setNotify (s : State) (n v : Nat) : (setNotify s n v).engines = s.engines := by rw [setNotify_eq]; rfl

theorem fld_setNotify (s : State) (n v : Nat) :
    fld (setNotify s n v) (F.ENG_n_NOTIFY_NOTIFY n) = (fld s (F.ENG_n_NOTIFY_NOTIFY n) ||| v) % 2 ^ 16 := by
  rw [setNotify_eq]
  exact fld_setFld_same ..

/-- The low 16 bits of a value set in a register of 16 bits. -/
theorem or_mod_mod (a b : Nat) : (a ||| b % 2 ^ 16) % 2 ^ 16 = (a ||| b) % 2 ^ 16 := by
  apply Nat.eq_of_testBit_eq
  intro i
  simp only [Nat.testBit_mod_two_pow, Nat.testBit_or]
  by_cases h : i < 16 <;> simp [h]

/-- Bits that are cleared by a subtraction of those that were set. -/
theorem testBit_sub_and (a b i : Nat) : (a - (a &&& b)).testBit i = (a.testBit i && !b.testBit i) := by
  have hle : a &&& b ≤ a := Nat.and_le_left
  have hodd : (a &&& b) % 2 = 1 ↔ a % 2 = 1 ∧ b % 2 = 1 := Nat.and_mod_two_eq_one
  induction i generalizing a b with
  | zero =>
    rw [Bool.eq_iff_iff]
    simp only [Nat.testBit_zero, decide_eq_true_eq, Bool.and_eq_true, Bool.not_eq_true', decide_eq_false_iff_not]
    omega
  | succ i ih =>
    have hhalf : (a - (a &&& b)) / 2 = a / 2 - (a / 2 &&& b / 2) := by
      rw [← Nat.and_div_two]
      omega
    rw [Nat.testBit_succ, hhalf, ih (a / 2) (b / 2) Nat.and_le_left Nat.and_mod_two_eq_one, Nat.testBit_succ, Nat.testBit_succ]

/-! ### Which CSRs are listed -/

theorem csrListed_of_not_mem {c : Nat} (h : c ∉ [0x000, 0x001, 0x004, 0x005, 0x008, 0x009, 0x00A, 0x010, 0x011, 0x018, 0x019, 0x020, 0x021,
    0x022, 0x024, 0x025, 0x028]) (hw : c < 0x030 ∨ 0x040 ≤ c) : csrListed c = false := by
  have hwin : csrWin c = none := by
    rw [csrWin, if_neg (by omega)]
  rw [csrListed, hwin, Option.isSome_none, Bool.or_false, ← Bool.not_eq_true, List.contains_iff_mem]
  exact h

/-! ### The instructions -/

/-- The engine with the upper word of ring time latched. -/
def engineLatched (s : State) (n : Nat) : Engine := { engine s n with rtHi := if rtValid s then now s / 2 ^ 32 else 0 }

theorem csrSide_rtLo (s : State) (n t : Nat) : csrSide s n t 0x004 = setEngine s n (engineLatched s n) := rfl

theorem KeepsGoing.nextInstr_rtLo {s : State} {n t : Nat} (h : KeepsGoing s n t) (rd : Nat) (r : Word) :
    Machine.nextInstr (setG (csrSide s n t 0x004) n t rd r) n t =
      Machine.setThread (Machine.setEngine s n (engineLatched s n)) n t (withReg (goesOn (thread s n t) (flg s n t) (pc4 s n t)) t rd r) := by
  rw [csrSide_rtLo]
  exact h.nextInstr_setG_setEngine (e := engineLatched s n) rfl rd r

theorem rtLo_eq (s : State) (n t : Nat) : BitVec.ofNat 32 (csrGet s n t 0x004) = BitVec.ofNat 32 (if rtValid s then now s else 0) := by
  simp only [csrGet]
  apply BitVec.eq_of_toNat_eq
  split <;> simp

theorem csrSet_target (s : State) (n t v : Nat) : csrSet s n t 0x022 1 v =
    setThread s n t { thread s n t with tgt := v % 2 ^ 16 * 2 ^ 32 + (thread s n t).tgtLo } := rfl

theorem csrSet_staged (s : State) (n t v : Nat) : csrSet s n t 0x021 1 v = setThread s n t { thread s n t with tgtLo := v % 2 ^ 32 } := rfl

theorem csrSet_flags (s : State) (n t v : Nat) : csrSet s n t 0x000 1 v = setFlg s n t ⟨bitOf v 0, bitOf v 1, bitOf v 2, bitOf v 3⟩ := rfl

theorem csrSet_signal (s : State) (n t v : Nat) : csrSet s n t 0x018 2 v =
    setFld s (F.ENG_n_SIGNAL_SIGNAL n) (fld s (F.ENG_n_SIGNAL_SIGNAL n) ||| v) := rfl

theorem csrSet_signal_clear (s : State) (n t v : Nat) : csrSet s n t 0x018 3 v =
    setFld s (F.ENG_n_SIGNAL_SIGNAL n) (fld s (F.ENG_n_SIGNAL_SIGNAL n) - (fld s (F.ENG_n_SIGNAL_SIGNAL n) &&& v)) := rfl

theorem csrSet_notify (s : State) (n t v : Nat) : csrSet s n t 0x019 2 v = setNotify s n (v % 2 ^ 16) := rfl

/-- The CSR of the base of window w. -/
theorem csrSet_base (s : State) (n t v : Nat) {w : Nat} (hw : w < 8) : csrSet s n t (0x030 + 2 * w) 1 v = setFld s (F.ENG_n_WINw_BASE n w) v := by
  interval_cases w <;> rfl

theorem bitOf_toNat (a : Word) (i : Nat) : bitOf a.toNat i = a.getLsbD i := by rw [bitOf_eq_testBit]; rfl

theorem csrWrite_good {c fn : Nat} (hc : csrWriteBad c fn = false) (n t rd rs1 : Nat) (s : State) : csrWrite n t rd rs1 fn c s =
    issue s n t (encC rd rs1 fn c) fun s => nextInstr (csrSet s n t c fn (gReg s n t rs1).toNat) n t := by
  simp only [csrWrite, hc, Bool.false_eq_true, if_false]

section
variable (n : Fin 96) (t : Fin 4) (rd rs1 : Fin 16) (s : State)

theorem exec_iCsrr {cv : BitVec 12} {c : Nat} (hcv : cv.toNat = c) (hc : csrListed c = true) : exec (.iCsrr n t rd cv) s =
    done (issue s n t (encC rd 0 0 c) fun s => nextInstr (setG (csrSide s n t c) n t rd (BitVec.ofNat 32 (csrGet s n t c))) n t) := by
  have hread : exec (.iCsrr n t rd cv) s = done (csrRead n t rd c s) := hcv ▸ rfl
  simp only [hread, csrRead, hc, if_true]

theorem exec_iCsrw {c : BitVec 12} (hc : csrWriteBad c.toNat 1 = false) : exec (.iCsrw n t rs1 c) s =
    done (issue s n t (encC 0 rs1 1 c.toNat) fun s => nextInstr (csrSet s n t c.toNat 1 (gReg s n t rs1).toNat) n t) :=
  congrArg done (csrWrite_good hc n t 0 rs1 s)

theorem exec_iCsrs {c : BitVec 12} (hc : csrWriteBad c.toNat 2 = false) : exec (.iCsrs n t rd rs1 c) s =
    done (issue s n t (encC rd rs1 2 c.toNat) fun s => nextInstr (csrSet s n t c.toNat 2 (gReg s n t rs1).toNat) n t) :=
  congrArg done (csrWrite_good hc n t rd rs1 s)

theorem exec_iCsrc {c : BitVec 12} (hc : csrWriteBad c.toNat 3 = false) : exec (.iCsrc n t rd rs1 c) s =
    done (issue s n t (encC rd rs1 3 c.toNat) fun s => nextInstr (csrSet s n t c.toNat 3 (gReg s n t rs1).toNat) n t) :=
  congrArg done (csrWrite_good hc n t rd rs1 s)

end

end Sys2Proof.Machine
end

section
open Sys2Proof Sys2Proof.Machine

/-- Settles O25: an instruction that acts on its thread alone by `completes_thread_of_issues`, one that writes a field of the engine by
`completes_writesField`, and the rest fault. -/
theorem controlRegisters : Obligations.ControlRegisters := by
  unfold Obligations.ControlRegisters
  refine ⟨?hartid, ?flags, ?rtlo, ?message, ?noMessage, ?unlisted, ?target, ?staged, ?setFlags, ?base, ?signal, ?notify, ?clear, ?badClear, ?ro⟩
  case hartid => exact fun n t rd s h => completes_writesReg (r := fun _ => BitVec.ofNat 32 (t.val + 4 * n.val)) h rfl
  case flags =>
    intro n t rd s h
    have hc := completes_writesReg (i := .iCsrr n t rd 0x000) (r := fun s => BitVec.ofNat 32 (csrGet s n t 0x000)) h rfl
    have hv : BitVec.ofNat 32 (csrGet s n t 0x000) = (BitVec.ofBool (flg s n t).v ++ BitVec.ofBool (flg s n t).c
      ++ BitVec.ofBool (flg s n t).n ++ BitVec.ofBool (flg s n t).z).setWidth 32 := by
      simp only [csrGet, flg]
      generalize (thread s n t).z = z, (thread s n t).n = m, (thread s n t).c = c, (thread s n t).v = v
      revert z m c v
      decide
    rwa [hv] at hc
  case rtlo =>
    intro n t rd s h
    refine (completes_writesRegIn h (exec_iCsrr n t rd s (c := 0x004) rfl rfl) (e := engineLatched s n) rfl
      (x := goesOn (thread s n t) (flg s n t) (pc4 s n t)) rfl rfl (rd := rd) (r := BitVec.ofNat 32 (csrGet s n t 0x004)) ?_).imp fun u => ?_
    · exact (keepsGoing_of_issues h).nextInstr_rtLo rd _
    · rintro ⟨hsame, hother, hthread, heng, ho⟩
      refine ⟨hsame.trans (rtLo_eq s n t), by rw [heng]; rfl, hother, hthread, ?_, ho⟩
      rw [heng]
      rfl
  case message =>
    intro n t rd m q s h hq
    have hside : csrSide s n t 0x010 = setFlg (setEngine s n { engine s n with wakeq := q }) n t { flg s n t with z := false } := by
      simp only [csrSide, hq, List.isEmpty_cons, List.tail_cons]
    refine (completes_writesRegIn h (exec_iCsrr n t rd s (c := 0x010) rfl rfl) (e := { engine s n with wakeq := q }) rfl
      (x := goesOn (thread s n t) { flg s n t with z := false } (pc4 s n t)) rfl rfl (rd := rd) (r := BitVec.ofNat 32 (csrGet s n t 0x010)) ?_).imp fun u => ?_
    · refine (congrArg (fun w => nextInstr (setG w n t rd _) n t) hside).trans ?_
      exact (keepsGoing_of_issues h).nextInstr_setG_setFlg (e := { engine s n with wakeq := q }) rfl _ _ _
    · rintro ⟨hsame, hother, hthread, heng, ho⟩
      refine ⟨hsame.trans ?_, by rw [heng], ?_, heng, ho⟩
      · exact congrArg (fun l : List Nat => BitVec.ofNat 32 (l.headD 0)) hq
      · rw [flg, hthread]
        rfl
  case noMessage =>
    intro n t rd s h hq
    have hside : csrSide s n t 0x010 = setFlg (setEngine s n (engine s n)) n t { flg s n t with z := true } := by
      simp only [csrSide, hq, List.isEmpty_nil, List.tail_nil]
      rw [← hq]
    have hget : BitVec.ofNat 32 (csrGet s n t 0x010) = 0 := congrArg (fun l : List Nat => BitVec.ofNat 32 (l.headD 0)) hq
    refine completes_thread_of_issues h (exec_iCsrr n t rd s (c := 0x010) rfl rfl) ?_ (onlyGs_withReg s n t rd _ rfl rfl)
    rw [← hget]
    refine (congrArg (fun w => nextInstr (setG w n t rd _) n t) hside).trans ?_
    refine ((keepsGoing_of_issues h).nextInstr_setG_setFlg rfl _ _ _).trans ?_
    simp [Machine.setThread]
  case unlisted =>
    intro n t rd c s h hc hw
    refine faults_of_issues t.isLt (by decide) h rfl ?_
    rw [csrListed_of_not_mem hc hw, if_neg Bool.false_ne_true]
    rfl
  case target =>
    intro n t rs1 s h
    refine completes_thread_of_issues h (exec_iCsrw n t rs1 s rfl) ?_ ⟨onlyThread_setThread .., thread_setThread_same ..⟩
    exact (congrArg (fun w => nextInstr w n t) (csrSet_target ..)).trans ((keepsGoing_of_issues h).nextInstr_setTarget _)
  case staged =>
    intro n t rs1 s h
    refine completes_thread_of_issues h (exec_iCsrw n t rs1 s rfl) ?_ ⟨onlyThread_setThread .., thread_setThread_same ..⟩
    refine (congrArg (fun w => nextInstr w n t) (csrSet_staged ..)).trans (((keepsGoing_of_issues h).nextInstr_setStaged _).trans ?_)
    rw [Nat.mod_eq_of_lt (gReg s n t rs1).isLt]
  case setFlags =>
    intro n t rs1 s h
    have hset : (fun s => nextInstr (csrSet s n t 0x000 1 (gReg s n t rs1).toNat) n t) = fun s => nextInstr (setFlg s n t
        ⟨(gReg s n t rs1)[0], (gReg s n t rs1)[1], (gReg s n t rs1)[2], (gReg s n t rs1)[3]⟩) n t := by
      funext s
      rw [csrSet_flags]
      simp only [bitOf_toNat]
      rfl
    exact completes_writesFlags h ((exec_iCsrw (c := 0x000) n t rs1 s rfl).trans (congrArg (fun k => done (issue s n t (encC 0 rs1 1 0x000) k)) hset))
  case base =>
    intro n t rs1 w s h
    have hcsr : (BitVec.ofNat 12 (0x030 + 2 * w)).toNat = 0x030 + 2 * w.val := by
      rw [BitVec.toNat_ofNat]
      omega
    have hgood : ∀ w : Fin 8, csrWriteBad (BitVec.ofNat 12 (0x030 + 2 * w)).toNat 1 = false := by decide
    have hset : csrSet s n t (BitVec.ofNat 12 (0x030 + 2 * w)).toNat 1 (gReg s n t rs1).toNat = _ := hcsr ▸ csrSet_base s n t _ w.isLt
    refine completes_writesField (hcsr.symm ▸ h) (exec_iCsrw n t rs1 s (hgood w)) (congrArg (fun w => nextInstr w n t) hset) h.1 rfl
      ((Only.refl ..).setFld (by simp) _) ?_ ?_
    · simp [F.ENG_n_CTRL_ENABLE, F.ENG_n_STATUS_DRAINING, F.ENG_n_CTRL_START, F.DBG_ENGn_STATUS_PENDING, F.ENG_n_WINw_BASE]
      omega
    · rw [fld_setFld_same]
      exact Nat.mod_eq_of_lt (gReg s n t rs1).isLt
  case signal =>
    intro n t rd rs1 s h
    refine completes_writesField h (exec_iCsrs n t rd rs1 s rfl) (congrArg (fun w => nextInstr w n t) (csrSet_signal ..)) h.1 rfl
      ((Only.refl ..).setFld (by simp) _) ?_ (fld_setFld_same ..)
    simp [F.ENG_n_CTRL_ENABLE, F.ENG_n_STATUS_DRAINING, F.ENG_n_CTRL_START, F.DBG_ENGn_STATUS_PENDING, F.ENG_n_SIGNAL_SIGNAL]
    omega
  case notify =>
    intro n t rd rs1 s h
    refine completes_writesField h (exec_iCsrs n t rd rs1 s rfl) (congrArg (fun w => nextInstr w n t) (csrSet_notify ..)) ?_
      (engines_setNotify ..) (only_setNotify ..) ?_ ?_
    · have hquiet : s.evq = [] := h.1
      rw [setNotify_eq]
      simp only [hquiet, List.nil_append]
      congr 1
      apply List.filter_congr
      intro i hi
      have hi' : i < 16 := List.mem_range.1 hi
      simp only [bitOf_eq_testBit, Nat.testBit_mod_two_pow, hi', decide_true, Bool.true_and]
      rfl
    · simp [F.ENG_n_CTRL_ENABLE, F.ENG_n_STATUS_DRAINING, F.ENG_n_CTRL_START, F.DBG_ENGn_STATUS_PENDING, F.ENG_n_NOTIFY_NOTIFY]
      omega
    · rw [fld_setNotify, or_mod_mod]
  case clear =>
    intro n t rd rs1 s h
    refine (completes_writesField h (exec_iCsrc (c := 0x018) n t rd rs1 s rfl) (congrArg (fun w => nextInstr w n t) (csrSet_signal_clear ..))
      h.1 rfl ((Only.refl ..).setFld (by simp) _) ?_ (fld_setFld_same ..)).imp fun u => ?_
    · simp [F.ENG_n_CTRL_ENABLE, F.ENG_n_STATUS_DRAINING, F.ENG_n_CTRL_START, F.DBG_ENGn_STATUS_PENDING, F.ENG_n_SIGNAL_SIGNAL]
      omega
    · rintro ⟨hval, hrest⟩
      refine ⟨fun i hi => ?_, hrest⟩
      rw [hval]
      refine (Nat.testBit_mod_two_pow ..).trans ?_
      rw [testBit_sub_and, decide_eq_true (show i < (F.ENG_n_SIGNAL_SIGNAL n).width from hi), Bool.true_and]
      rfl
  case badClear =>
    intro n t rd rs1 c s h hc
    have hbad : ∀ c ∈ [0x001, 0x004, 0x005, 0x009, 0x010, 0x011, 0x028], csrWriteBad c 3 = true := by decide
    refine faults_of_issues t.isLt (by decide) h rfl ?_
    rw [hbad _ hc, if_pos rfl]
    rfl
  case ro =>
    intro n t rs1 c s h hc
    have hbad : ∀ c ∈ [0x001, 0x004, 0x005, 0x009, 0x011, 0x028], csrWriteBad c 1 = true := by decide
    refine faults_of_issues t.isLt (by decide) h rfl ?_
    rw [hbad _ hc, if_pos rfl]
    rfl

end

section
/-! SUPPORT. The links of the stack (chapter 15): what each operation on a link's state, its sidings and its carrier leaves, and what
it leaves alone. -/
namespace Sys2Proof.Machine

variable {s o u : State} {ps : List Part} {fs : List Fld} {k i : Nat}

/-! ### The parts and fields that an operation writes -/

theorem Only.setStk (h : Only ps fs o s) (hp : .stk ∈ ps) (x : Stack) : Only ps fs o (setStk s x) :=
  ⟨h.1.trans ((onlyParts_setStk s x).mono (by simp [hp])), h.2⟩

theorem Only.setLink (h : Only ps fs o s) (hp : .stk ∈ ps) (k : Nat) (x : Link) : Only ps fs o (setLink s k x) := h.setStk hp _

theorem Only.drawn (h : Only ps fs o s) (hp : .free ∈ ps) : Only ps fs o (drawn s) :=
  ⟨h.1.trans ((onlyParts_drawn s).mono (by simp [hp])), h.2⟩

theorem Only.trimLane (h : Only ps fs o s) (hp : .stk ∈ ps) (hd : .free ∈ ps) (k lane : Nat) : Only ps fs o (trimLane s k lane) :=
  (h.drawn hd).setStk hp _

theorem Only.evq (h : Only ps fs o s) (hp : .evq ∉ ps) : s.evq = o.evq := h.1 .evq (by simp [hp])

/-- The fields of a link that follow its state and its sidings. -/
def countFlds (k : Nat) : List Fld := [F.STK_Lk_STATUS_FREE k, F.STK_Lk_STATUS_GUARD k, F.STK_STATUS_RETRAINING]

theorem Only.linkCounts (h : Only ps fs o s) (hf : countFlds k ⊆ fs) : Only ps fs o (linkCounts s k) :=
  ((h.setFld (hf (by simp [countFlds])) _).setFld (hf (by simp [countFlds])) _).setFld (hf (by simp [countFlds])) _

theorem Only.setLkState (h : Only ps fs o s) (hf : F.STK_Lk_STATUS_STATE k :: countFlds k ⊆ fs) (v : Nat) : Only ps fs o (setLkState s k v) :=
  (h.setFld (hf (by simp)) _).linkCounts (fun _ hm => hf (List.mem_cons_of_mem _ hm))

theorem Only.setSid (h : Only ps fs o s) (hf : countFlds k ++ sidFlds k i ⊆ fs) (st lane : Nat) : Only ps fs o (setSid s k i st lane) :=
  ((h.setFld (hf (by simp [sidFlds])) _).setFld (hf (by simp [sidFlds])) _).linkCounts (fun _ hm => hf (List.mem_append_left _ hm))

theorem Only.lastFail (h : Only ps fs o s) (hf : [F.STK_Lk_LASTFAIL_LANE k, F.STK_Lk_LASTFAIL_CAUSE k, F.STK_Lk_LASTFAIL_VALID k] ⊆ fs)
    (lane cause : Nat) : Only ps fs o (lastFail s k lane cause) :=
  h.ite (((h.setFld (hf (by simp)) _).setFld (hf (by simp)) _).setFld (hf (by simp)) _)

theorem Only.trainRec (h : Only ps fs o s) (hd : .free ∈ ps) (hf : [F.STK_Lk_TRAINREC_IVCORE k, F.STK_Lk_TRAINREC_TEMP k] ⊆ fs) :
    Only ps fs o (trainRec s k) :=
  ((h.drawn hd).setFld (hf (by simp)) _).setFld (hf (by simp)) _

/-! ### The link of each state -/

@[simp] theorem link_setLink_same (s : State) (k : Nat) (x : Link) : link (setLink s k x) k = x := smGet_smSet_same ..

theorem link_setLink_ne (s : State) {k j : Nat} (h : j ≠ k) (x : Link) : link (setLink s k x) j = link s j := smGet_smSet_ne _ h ..

theorem link_congr (h : u.stk = s.stk) (j : Nat) : link u j = link s j := by rw [link, link, h]

@[simp] theorem link_setFld (s : State) (f : Fld) (v j : Nat) : link (setFld s f v) j = link s j := link_congr rfl j
@[simp] theorem link_raise (s : State) (c : Nat) (l : List (Nat × Nat)) (j : Nat) : link (raise s c l) j = link s j := link_congr rfl j
@[simp] theorem link_setSid (s : State) (k i st lane j : Nat) : link (setSid s k i st lane) j = link s j :=
  link_congr (((Only.refl [] _ s).setSid (k := k) (i := i) (List.Subset.refl _) st lane).1 .stk (by decide)) j
@[simp] theorem link_setLkState (s : State) (k v j : Nat) : link (setLkState s k v) j = link s j :=
  link_congr (((Only.refl [] _ s).setLkState (k := k) (List.Subset.refl _) v).1 .stk (by decide)) j
@[simp] theorem link_trimLane (s : State) (k lane j : Nat) : link (trimLane s k lane) j = link s j := link_congr rfl j
@[simp] theorem link_trainRec (s : State) (k j : Nat) : link (trainRec s k) j = link s j := link_congr rfl j
@[simp] theorem link_hush (s : State) (j : Nat) : link (hush s) j = link s j := link_congr rfl j

@[simp] theorem link_lastFail (s : State) (k lane cause j : Nat) : link (lastFail s k lane cause) j = link s j := by
  unfold lastFail
  split <;> rfl

theorem fld_congr (h : u.regs = s.regs) (f : Fld) : fld u f = fld s f := by rw [fld, fld, h]

@[simp] theorem fld_setLink (s : State) (k : Nat) (x : Link) (f : Fld) : fld (setLink s k x) f = fld s f := fld_congr rfl f
@[simp] theorem fld_trimLane (s : State) (k lane : Nat) (f : Fld) : fld (trimLane s k lane) f = fld s f := fld_congr rfl f

/-! ### What a field reads through the counts -/

theorem fld_linkCounts_ne (s : State) (k : Nat) {f : Fld} (h : f.key ∉ (countFlds k).map Fld.key) : fld (linkCounts s k) f = fld s f :=
  ((Only.refl [] _ s).linkCounts (k := k) (List.Subset.refl _)).2 f h

/-- GUARD reads 1 in the states GUARD, RETRAIN and FENCED. -/
theorem guard_linkCounts (s : State) (k : Nat) : flag (linkCounts s k) (F.STK_Lk_STATUS_GUARD k) =
    (lkState s k == kGUARD || lkState s k == kRETRAIN || lkState s k == kFENCED) := by
  have hne : F.STK_STATUS_RETRAINING.key ≠ (F.STK_Lk_STATUS_GUARD k).key := by
    simp only [F.STK_STATUS_RETRAINING, F.STK_Lk_STATUS_GUARD]
    omega
  rw [linkCounts, flag, fld_setFld_ne _ hne.symm]
  exact flag_b2n _ _ rfl _

theorem free_linkCounts (s : State) (k : Nat) : fld (linkCounts s k) (F.STK_Lk_STATUS_FREE k) =
    ((List.range 16).filter fun i => sidState s k i == sFREE).length := by
  have hr : (F.STK_Lk_STATUS_FREE k).key ≠ F.STK_STATUS_RETRAINING.key := by
    simp only [F.STK_STATUS_RETRAINING, F.STK_Lk_STATUS_FREE]
    omega
  have hg : (F.STK_Lk_STATUS_FREE k).key ≠ (F.STK_Lk_STATUS_GUARD k).key := by
    simp only [F.STK_Lk_STATUS_GUARD, F.STK_Lk_STATUS_FREE]
    omega
  have hlen : ((List.range 16).filter fun i => sidState s k i == sFREE).length ≤ 16 := (List.length_filter_le _ _).trans (by simp)
  rw [linkCounts, fld_setFld_ne _ hr, fld_setFld_ne _ hg, fld_setFld_same]
  exact Nat.mod_eq_of_lt (Nat.lt_of_le_of_lt hlen (show 16 < 2 ^ 5 by decide))

theorem lkState_linkCounts (s : State) (k j : Nat) : lkState (linkCounts s k) j = lkState s j := by
  refine fld_linkCounts_ne s k ?_
  simp [countFlds, F.STK_Lk_STATUS_STATE, F.STK_Lk_STATUS_FREE, F.STK_Lk_STATUS_GUARD, F.STK_STATUS_RETRAINING]
  omega

theorem sidState_linkCounts (s : State) (k j i : Nat) : sidState (linkCounts s k) j i = sidState s j i := by
  refine fld_linkCounts_ne s k ?_
  simp [countFlds, F.STK_Lk_SIDs_STATE, F.STK_Lk_STATUS_FREE, F.STK_Lk_STATUS_GUARD, F.STK_STATUS_RETRAINING]
  omega

/-! ### A link's state set -/

theorem lkState_setLkState_same (s : State) (k v : Nat) : lkState (setLkState s k v) k = v % 8 :=
  (lkState_linkCounts ..).trans (fld_setFld_same ..)

theorem guard_setLkState (s : State) (k v : Nat) : flag (setLkState s k v) (F.STK_Lk_STATUS_GUARD k) =
    (v % 8 == kGUARD || v % 8 == kRETRAIN || v % 8 == kFENCED) := by
  rw [setLkState, guard_linkCounts, show lkState (setFld s (F.STK_Lk_STATUS_STATE k) v) k = v % 8 from fld_setFld_same ..]

theorem sidState_setLkState (s : State) (k v j : Nat) : sidState (setLkState s k v) j i = sidState s j i := by
  refine (sidState_linkCounts _ k j i).trans (fld_setFld_ne _ ?_ _)
  simp only [F.STK_Lk_SIDs_STATE, F.STK_Lk_STATUS_STATE]
  omega

/-! ### A siding set -/

section
variable (s k) (hi : i < 16) (st lane : Nat)
include hi

theorem lkState_setSid (j : Nat) : lkState (setSid s k i st lane) j = lkState s j := by
  refine (lkState_linkCounts ..).trans ?_
  rw [lkState, fld_setFld_ne _ (by simp only [F.STK_Lk_SIDs_LANE, F.STK_Lk_STATUS_STATE]; omega),
    fld_setFld_ne _ (by simp only [F.STK_Lk_SIDs_STATE, F.STK_Lk_STATUS_STATE]; omega), lkState]

omit hi in
theorem sidState_setSid_same : sidState (setSid s k i st lane) k i = st % 4 := by
  refine (sidState_linkCounts _ k k i).trans ?_
  rw [sidState, fld_setFld_ne _ (by simp only [F.STK_Lk_SIDs_LANE, F.STK_Lk_SIDs_STATE]; omega)]
  exact fld_setFld_same ..

omit hi in
theorem sidState_setSid_ne {j : Nat} (h : j ≠ i) : sidState (setSid s k i st lane) k j = sidState s k j := by
  refine (sidState_linkCounts _ k k j).trans ?_
  rw [sidState, fld_setFld_ne _ (by simp only [F.STK_Lk_SIDs_LANE, F.STK_Lk_SIDs_STATE]; omega),
    fld_setFld_ne _ (by simp only [F.STK_Lk_SIDs_STATE]; omega), sidState]

omit hi in
theorem sidLane_setSid_same : fld (setSid s k i st lane) (F.STK_Lk_SIDs_LANE k i) = lane % 1024 := by
  refine (fld_linkCounts_ne _ k ?_).trans (fld_setFld_same ..)
  simp [countFlds, F.STK_Lk_SIDs_LANE, F.STK_Lk_STATUS_FREE, F.STK_Lk_STATUS_GUARD, F.STK_STATUS_RETRAINING]
  omega

end

/-! ### Links that wait -/

/-- A link that is neither in GUARD nor asked to retrain does not enter RETRAIN. -/
theorem guardOne_of_idle {j : Nat} (hl : lkState s j ≠ kGUARD) (hr : flag s (F.STK_Lk_CTRL_RETRAIN j) = false) : guardOne s j = s := by
  have hwaits : (lkState s j == kGUARD || lkState s j == kUP && flag s (F.STK_Lk_CTRL_RETRAIN j)) = false := by
    rw [beq_false_of_ne hl, hr, Bool.and_false, Bool.or_false]
  simp only [guardOne, hwaits, Bool.not_false, Bool.true_or, if_true]

theorem guardAll_of_noneWaits (h : NoneWaits s) : guardAll s = s :=
  forEach_fixed fun j hj => guardOne_of_idle (h j (List.mem_range.1 hj)).1 (h j (List.mem_range.1 hj)).2

theorem NoneWaits.congr (h : NoneWaits s) (hl : ∀ j, lkState u j = lkState s j)
    (hr : ∀ j, fld u (F.STK_Lk_CTRL_RETRAIN j) = fld s (F.STK_Lk_CTRL_RETRAIN j)) : NoneWaits u := fun j hj => by
  rw [hl, flag_eq_of_fld (hr j)]
  exact h j hj

/-! ### A retrain begun and ended -/

section
variable (s k)

/-- A link in RETRAIN with siding i as its carrier. -/
def carrying (s : State) (k i : Nat) : State := setLkState (setSid s k i sCARRIER 0) k kRETRAIN

theorem retrainStart_eq : retrainStart s k i = setLink (carrying s k i) k { link s k with
    carrier := some i
    stage := 0
    startI := fld s F.STK_IVCORE_CURRENT
    startT := linkTemp s k } := by
  simp only [retrainStart, carrying, link_setLkState, link_setSid]

/-- A retrain begins on siding i, at its first step. -/
theorem retrainStart_spec : lkState (retrainStart s k i) k = 3 ∧ sidState (retrainStart s k i) k i = 3
    ∧ flag (retrainStart s k i) (F.STK_Lk_STATUS_GUARD k) = true
    ∧ link (retrainStart s k i) k = { link s k with
        carrier := some i
        stage := 0
        startI := fld s F.STK_IVCORE_CURRENT
        startT := linkTemp s k }
    ∧ (∀ j, j ≠ k → link (retrainStart s k i) j = link s j)
    ∧ Only [.stk] (F.STK_Lk_STATUS_STATE k :: (countFlds k ++ sidFlds k i)) s (retrainStart s k i) := by
  have hl : lkState (carrying s k i) k = 3 := lkState_setLkState_same ..
  have hs : sidState (carrying s k i) k i = 3 := (sidState_setLkState _ k _ k).trans (sidState_setSid_same ..)
  have hg : flag (carrying s k i) (F.STK_Lk_STATUS_GUARD k) = true := guard_setLkState ..
  have ho : Only [.stk] (F.STK_Lk_STATUS_STATE k :: (countFlds k ++ sidFlds k i)) s (carrying s k i) :=
    ((Only.refl ..).setSid (by simp) _ _).setLkState (by simp) _
  have hlink : ∀ j, link (carrying s k i) j = link s j := fun j => by rw [carrying, link_setLkState, link_setSid]
  rw [retrainStart_eq]
  generalize carrying s k i = w at *
  exact ⟨hl, hs, hg, link_setLink_same .., fun j hj => (link_setLink_ne _ hj _).trans (hlink j), ho.setLink (by simp) _ _⟩

variable (hi : i < 16)
include hi

/-- A retrain ends: its carrier is FREE again unless it was given a lane. -/
theorem dropCarrier_spec (hc : (link s k).carrier = some i) : (∀ j, lkState (dropCarrier s k) j = lkState s j)
    ∧ sidState (dropCarrier s k) k i = (if sidState s k i = 3 then 0 else sidState s k i)
    ∧ flag (dropCarrier s k) (F.STK_Lk_CTRL_RETRAIN k) = false ∧ link (dropCarrier s k) k = { link s k with carrier := none, stage := 0 }
    ∧ (∀ j, j ≠ k → link (dropCarrier s k) j = link s j)
    ∧ Only [.stk] (F.STK_Lk_CTRL_RETRAIN k :: F.STK_Lk_STATUS_RETRAIN_LANE k :: (countFlds k ++ sidFlds k i)) s (dropCarrier s k) := by
  obtain ⟨w, hw⟩ : ∃ w, w = (if sidState s k i = sCARRIER then setSid (setLink s k { link s k with carrier := none, stage := 0 }) k i sFREE 0
    else setLink s k { link s k with carrier := none, stage := 0 }) := ⟨_, rfl⟩
  have hdrop : dropCarrier s k = setFld (setFld w (F.STK_Lk_CTRL_RETRAIN k) 0) (F.STK_Lk_STATUS_RETRAIN_LANE k) 0 := by
    simp only [dropCarrier, hc, hw]
    rfl
  have hread : ∀ f : Fld, f.key ≠ (F.STK_Lk_STATUS_RETRAIN_LANE k).key → f.key ≠ (F.STK_Lk_CTRL_RETRAIN k).key →
      fld (dropCarrier s k) f = fld w f := fun f hl hr => by rw [hdrop, fld_setFld_ne _ hl, fld_setFld_ne _ hr]
  have hlk : ∀ j, lkState w j = lkState s j := fun j => by
    rw [hw]
    split
    · rw [lkState_setSid _ _ hi]
      rfl
    · rfl
  have hsid : sidState w k i = if sidState s k i = 3 then 0 else sidState s k i := by
    rw [hw]
    split <;> rename_i h
    · exact (sidState_setSid_same ..).trans (if_pos h).symm
    · exact (if_neg h).symm
  have hlink : ∀ j, link w j = link (setLink s k { link s k with carrier := none, stage := 0 }) j := fun j => by
    rw [hw]
    split <;> rfl
  have ho : Only [.stk] (F.STK_Lk_CTRL_RETRAIN k :: F.STK_Lk_STATUS_RETRAIN_LANE k :: (countFlds k ++ sidFlds k i)) s w := by
    have hset := (Only.refl [.stk] (F.STK_Lk_CTRL_RETRAIN k :: F.STK_Lk_STATUS_RETRAIN_LANE k :: (countFlds k ++ sidFlds k i)) s).setLink (by simp) k
      { link s k with carrier := none, stage := 0 }
    rw [hw]
    exact (hset.setSid (by simp) _ _).ite hset
  refine ⟨fun j => ?_, ?_, ?_, ?_, fun j hj => ?_, ?_⟩
  · exact (hread _ (by simp only [F.STK_Lk_STATUS_STATE, F.STK_Lk_STATUS_RETRAIN_LANE]; omega)
      (by simp only [F.STK_Lk_STATUS_STATE, F.STK_Lk_CTRL_RETRAIN]; omega)).trans (hlk j)
  · exact (hread _ (by simp only [F.STK_Lk_SIDs_STATE, F.STK_Lk_STATUS_RETRAIN_LANE]; omega)
      (by simp only [F.STK_Lk_SIDs_STATE, F.STK_Lk_CTRL_RETRAIN]; omega)).trans hsid
  · rw [hdrop, flag, fld_setFld_ne _ (by simp only [F.STK_Lk_CTRL_RETRAIN, F.STK_Lk_STATUS_RETRAIN_LANE]; omega), fld_setFld_same]
    rfl
  · rw [hdrop, link_setFld, link_setFld, hlink, link_setLink_same]
  · rw [hdrop, link_setFld, link_setFld, hlink, link_setLink_ne _ hj]
  · rw [hdrop]
    exact (ho.setFld (by simp) _).setFld (by simp) _

end

/-! ### Reads through a whole command -/

/-- The fields that a command of link k with siding i writes. -/
def stkFlds (k i : Nat) : List Fld :=
  linkFlds k ++ sidFlds k i ++ [F.STK_Lk_RETRAINS_RETRAINS k, F.STK_Lk_TRAINREC_IVCORE k, F.STK_Lk_TRAINREC_TEMP k, F.STK_Lk_LASTFAIL_LANE k,
    F.STK_Lk_LASTFAIL_CAUSE k, F.STK_Lk_LASTFAIL_VALID k, F.STK_Lk_STATUS_ERASED k, F.STK_Lk_STATUS_ERASED_BYTE k]

theorem key_stkFlds {f : Fld} (hf : f ∈ stkFlds k i) (hi : i < 16) :
    f.key = F.STK_STATUS_RETRAINING.key ∨ 10518528 + 512 * k ≤ f.key ∧ f.key < 10518528 + 512 * (k + 1) := by
  simp only [stkFlds, linkFlds, sidFlds, List.cons_append, List.nil_append, List.mem_cons, List.not_mem_nil, or_false] at hf
  rcases hf with h | h | h | h | h | h | h | h | h | h | h | h | h | h | h | h <;> subst h <;>
    simp [F.STK_Lk_STATUS_STATE, F.STK_Lk_STATUS_FREE, F.STK_Lk_STATUS_GUARD, F.STK_STATUS_RETRAINING, F.STK_Lk_CTRL_RETRAIN,
      F.STK_Lk_STATUS_RETRAIN_LANE, F.STK_Lk_SIDs_STATE, F.STK_Lk_SIDs_LANE, F.STK_Lk_RETRAINS_RETRAINS, F.STK_Lk_TRAINREC_IVCORE,
      F.STK_Lk_TRAINREC_TEMP, F.STK_Lk_LASTFAIL_LANE, F.STK_Lk_LASTFAIL_CAUSE, F.STK_Lk_LASTFAIL_VALID, F.STK_Lk_STATUS_ERASED,
      F.STK_Lk_STATUS_ERASED_BYTE] <;> omega

theorem linkDies_le {j : Nat} (hj : j < 43) : (linkDies j).1 ≤ 9 ∧ (linkDies j).2 ≤ 9 := by
  revert j
  decide

section
variable (ho : Only ps (stkFlds k i) o s) (hi : i < 16)
include ho hi

/-- A field beside those of link k, and beside the count of links in RETRAIN. -/
theorem fld_of_stkFlds {f : Fld} (hr : f.key ≠ F.STK_STATUS_RETRAINING.key) (hk : f.key < 10518528 + 512 * k ∨ 10518528 + 512 * (k + 1) ≤ f.key) :
    fld s f = fld o f := by
  refine ho.2 f fun hm => ?_
  obtain ⟨g, hg, hkey⟩ := List.mem_map.1 hm
  have := key_stkFlds hg hi
  omega

theorem lkState_of_stkFlds {j : Nat} (hj : j ≠ k) : lkState s j = lkState o j :=
  fld_of_stkFlds ho hi (by simp only [F.STK_Lk_STATUS_STATE, F.STK_STATUS_RETRAINING]; omega) (by simp only [F.STK_Lk_STATUS_STATE]; omega)

theorem retrain_of_stkFlds {j : Nat} (hj : j ≠ k) : flag s (F.STK_Lk_CTRL_RETRAIN j) = flag o (F.STK_Lk_CTRL_RETRAIN j) :=
  flag_eq_of_fld (fld_of_stkFlds ho hi (by simp only [F.STK_Lk_CTRL_RETRAIN, F.STK_STATUS_RETRAINING]; omega)
    (by simp only [F.STK_Lk_CTRL_RETRAIN]; omega))

theorem stkOn_of_stkFlds : stkOn s = stkOn o := by
  rw [stkOn, stkOn, flag_eq_of_fld (fld_of_stkFlds ho hi (f := F.STK_CTRL_ENABLE) (by decide) (by simp only [F.STK_CTRL_ENABLE]; omega)),
    flag_eq_of_fld (fld_of_stkFlds ho hi (f := F.STK_STATUS_DRAINING) (by decide) (by simp only [F.STK_STATUS_DRAINING]; omega))]

theorem ivcore_of_stkFlds : fld s F.STK_IVCORE_CURRENT = fld o F.STK_IVCORE_CURRENT :=
  fld_of_stkFlds ho hi (by decide) (by simp only [F.STK_IVCORE_CURRENT]; omega)

theorem linkDieReset_of_stkFlds (j : Nat) : linkDieReset s j = linkDieReset o j := by
  have hr : fld s F.RST_DIE_IN_RESET = fld o F.RST_DIE_IN_RESET :=
    fld_of_stkFlds ho hi (by decide) (by simp only [F.RST_DIE_IN_RESET]; omega)
  simp only [linkDieReset, dieInReset, hr]

theorem linkTemp_of_stkFlds {j : Nat} (hj : j < 43) : linkTemp s j = linkTemp o j := by
  have hsens : ∀ n < 20, sensor s n = sensor o n := fun n hn => by
    rw [sensor, sensor, fld_of_stkFlds ho hi (f := F.THM_Sn_TEMP n) (by simp only [F.THM_Sn_TEMP, F.STK_STATUS_RETRAINING]; omega)
      (by simp only [F.THM_Sn_TEMP]; omega)]
  obtain ⟨hlo, hhi⟩ := linkDies_le hj
  simp only [linkTemp]
  rw [hsens _ (by omega), hsens _ (by omega), hsens _ (by omega), hsens _ (by omega)]

end

end Sys2Proof.Machine
end

section
/-! SUPPORT. Retrains of a link (R318 to R320): what each step leaves. -/
namespace Sys2Proof.Machine

variable {s o u : State} {k i n : Nat}

/-! ### A step that ends well -/

/-- The carrier stands at a position, and the next step is the one behind it. -/
def stepped (s : State) (k i n : Nat) : State :=
  setFld (setLink (setSid s k i sCARRIER n) k { link s k with stage := n + 1 }) (F.STK_Lk_STATUS_RETRAIN_LANE k) n

theorem stepped_spec (hn : n < 1024) : link (stepped s k i n) k = { link s k with stage := n + 1 }
    ∧ (∀ j, j ≠ k → link (stepped s k i n) j = link s j) ∧ fld (stepped s k i n) (F.STK_Lk_STATUS_RETRAIN_LANE k) = n
    ∧ fld (stepped s k i n) (F.STK_Lk_SIDs_LANE k i) = n ∧ sidState (stepped s k i n) k i = 3
    ∧ Only [.stk] (linkFlds k ++ sidFlds k i) s (stepped s k i n) := by
  have hlane := sidLane_setSid_same (i := i) s k sCARRIER n
  have hsid := sidState_setSid_same (i := i) s k sCARRIER n
  have hlink : ∀ j, link (setSid s k i sCARRIER n) j = link s j := fun j => link_setSid ..
  have ho : Only [.stk] (linkFlds k ++ sidFlds k i) s (setSid s k i sCARRIER n) :=
    (Only.refl ..).setSid (by simp [countFlds, linkFlds, sidFlds]) _ _
  unfold stepped
  generalize setSid s k i sCARRIER n = w at *
  refine ⟨?_, fun j hj => ?_, ?_, ?_, ?_, (ho.setLink (by simp) _ _).setFld (by simp [linkFlds]) _⟩
  · rw [link_setFld, link_setLink_same]
  · rw [link_setFld, link_setLink_ne _ hj, hlink]
  · exact (fld_setFld_same ..).trans (Nat.mod_eq_of_lt hn)
  · rw [fld_setFld_ne _ (by simp only [F.STK_Lk_SIDs_LANE, F.STK_Lk_STATUS_RETRAIN_LANE]; omega), fld_setLink, hlane, Nat.mod_eq_of_lt hn]
  · rw [sidState, fld_setFld_ne _ (by simp only [F.STK_Lk_SIDs_STATE, F.STK_Lk_STATUS_RETRAIN_LANE]; omega), fld_setLink]
    exact hsid

/-- The state with the lane of the step trimmed: the carrier's own at the first step. -/
def trimmed (s : State) (k i n : Nat) : State :=
  trimLane s k (if n = 0 then 560 + i else (carrierOf s k (n - 1)).elim (n - 1) (560 + ·))

theorem only_trimmed (s : State) (k i n : Nat) : Only [.stk, .free] [] s (trimmed s k i n) := (Only.refl ..).trimLane (by simp) (by simp) _ _

theorem link_trimmed (s : State) (k i n j : Nat) : link (trimmed s k i n) j = link s j := link_trimLane ..

section
variable (h : Retrains s k i n)
include h

theorem retrains_goesOn : ¬(lkState s k ≠ kRETRAIN ∨ linkDieReset s k = true) := by
  obtain ⟨-, hl, -, -, hd, -⟩ := h
  simp [hl, hd, kRETRAIN]

/-- The carrier's own training ends well. -/
theorem retrainStep_first (hn : n = 0) (hon : stkOn s = true) : retrainStep s k true = stepped (trimmed s k i 0) k i 0 := by
  obtain ⟨-, -, hc, hstage, -⟩ := id h
  unfold retrainStep
  simp only [hc]
  refine (if_neg (retrains_goesOn h)).trans ((if_pos (hstage.trans hn)).trans ((if_neg (by decide)).trans ((if_neg (by rw [hon]; decide)).trans ?_)))
  simp only [stepped, trimmed, if_true]

/-- A position's training ends well, and it is not the last one. -/
theorem retrainStep_position (hn : 0 < n) (hl : n < 560) (hon : stkOn s = true) : retrainStep s k true = stepped (trimmed s k i n) k i n := by
  obtain ⟨-, -, hc, hstage, -⟩ := id h
  unfold retrainStep
  simp only [hc]
  refine (if_neg (retrains_goesOn h)).trans ((if_neg (by omega)).trans ((if_neg (by decide)).trans ((if_neg (by rw [hon]; decide)).trans
    ((if_pos (by omega)).trans ?_))))
  simp only [hstage, stepped, trimmed, if_neg (show n ≠ 0 by omega)]
  cases carrierOf s k (n - 1) <;> rfl

/-- The last position's training ends well. -/
theorem retrainStep_last (hn : n = 560) (hon : stkOn s = true) : retrainStep s k true = retrainEnd (trimmed s k i n) k i := by
  obtain ⟨-, -, hc, hstage, -⟩ := id h
  unfold retrainStep
  simp only [hc]
  refine (if_neg (retrains_goesOn h)).trans ((if_neg (by omega)).trans ((if_neg (by decide)).trans ((if_neg (by rw [hon]; decide)).trans
    ((if_neg (by omega)).trans ?_))))
  simp only [hstage, trimmed, if_neg (show n ≠ 0 by omega)]
  cases carrierOf s k (n - 1) <;> rfl

/-- A step of a controller that is being disabled is the last. -/
theorem retrainStep_stopped (hoff : stkOn s = false) :
    retrainStep s k true = setLkState (dropCarrier (if n = 0 then s else trimmed s k i n) k) k kGUARD := by
  obtain ⟨-, -, hc, hstage, -⟩ := id h
  unfold retrainStep
  simp only [hc]
  refine (if_neg (retrains_goesOn h)).trans ?_
  by_cases hn : n = 0
  · rw [if_pos hn]
    exact (if_pos (hstage.trans hn)).trans ((if_neg (by decide)).trans (if_pos hoff))
  · rw [if_neg hn]
    refine (if_neg (by omega)).trans ((if_neg (by decide)).trans ((if_pos hoff).trans ?_))
    simp only [hstage, trimmed, if_neg hn]
    cases carrierOf s k (n - 1) <;> rfl

/-- A position's training fails. -/
theorem retrainStep_fails (hn : n ≠ 0) : retrainStep s k false = laneFail s k (n - 1) 0 := by
  obtain ⟨-, -, hc, hstage, -⟩ := id h
  unfold retrainStep
  simp only [hc]
  refine (if_neg (retrains_goesOn h)).trans ((if_neg (by omega)).trans ((if_pos (by decide)).trans ?_))
  rw [hstage]

end

/-! ### A retrain given up or ended -/

/-- The carrier is given up, and the link is left in a state. -/
theorem dropped_spec (hi : i < 16) (hc : (link s k).carrier = some i) (v : Nat) : lkState (setLkState (dropCarrier s k) k v) k = v % 8
    ∧ sidState (setLkState (dropCarrier s k) k v) k i = (if sidState s k i = 3 then 0 else sidState s k i)
    ∧ flag (setLkState (dropCarrier s k) k v) (F.STK_Lk_CTRL_RETRAIN k) = false
    ∧ flag (setLkState (dropCarrier s k) k v) (F.STK_Lk_STATUS_GUARD k) = (v % 8 == kGUARD || v % 8 == kRETRAIN || v % 8 == kFENCED)
    ∧ link (setLkState (dropCarrier s k) k v) k = { link s k with carrier := none, stage := 0 }
    ∧ (∀ j, j ≠ k → link (setLkState (dropCarrier s k) k v) j = link s j)
    ∧ Only [.stk] (linkFlds k ++ sidFlds k i) s (setLkState (dropCarrier s k) k v) := by
  obtain ⟨-, hsid, hretrain, hlink, hother, ho⟩ := dropCarrier_spec s k hi hc
  have hset : Only [] (F.STK_Lk_STATUS_STATE k :: countFlds k) (dropCarrier s k) (setLkState (dropCarrier s k) k v) :=
    (Only.refl ..).setLkState (List.Subset.refl _) v
  generalize dropCarrier s k = w at *
  refine ⟨lkState_setLkState_same .., (sidState_setLkState ..).trans hsid, ?_, guard_setLkState .., (link_setLkState ..).trans hlink,
    fun j hj => (link_setLkState ..).trans (hother j hj), (ho.mono (by simp) ?_).trans (hset.mono (by simp) ?_)⟩
  · refine (flag_eq_of_fld (hset.2 _ ?_)).trans hretrain
    simp [countFlds, F.STK_Lk_STATUS_STATE, F.STK_Lk_STATUS_FREE, F.STK_Lk_STATUS_GUARD, F.STK_STATUS_RETRAINING, F.STK_Lk_CTRL_RETRAIN]
    omega
  · simp [linkFlds, countFlds, sidFlds]
  · simp [linkFlds, countFlds]

/-- The state in which the conditions at the end of a retrain are recorded. -/
def retrainCounted (s : State) (k : Nat) : State := trainRec (satInc s (F.STK_Lk_RETRAINS_RETRAINS k)) k

def recordFlds (k : Nat) : List Fld := [F.STK_Lk_RETRAINS_RETRAINS k, F.STK_Lk_TRAINREC_IVCORE k, F.STK_Lk_TRAINREC_TEMP k]

theorem retrainCounted_spec (s : State) (k : Nat) : Counts (F.STK_Lk_RETRAINS_RETRAINS k) 1 s (retrainCounted s k)
    ∧ fld (retrainCounted s k) (F.STK_Lk_TRAINREC_IVCORE k) = fld s F.STK_IVCORE_CURRENT
    ∧ (∀ j, link (retrainCounted s k) j = link s j) ∧ Only [.free] (recordFlds k) s (retrainCounted s k) := by
  have hcur : fld (satInc s (F.STK_Lk_RETRAINS_RETRAINS k)) F.STK_IVCORE_CURRENT = fld s F.STK_IVCORE_CURRENT := by
    refine fld_satInc_ne _ ?_
    simp only [F.STK_IVCORE_CURRENT, F.STK_Lk_RETRAINS_RETRAINS]
    omega
  have hlt : fld s F.STK_IVCORE_CURRENT < 2 ^ 9 := Nat.mod_lt _ (by decide)
  refine ⟨?_, ?_, fun j => ?_, ?_⟩
  · rw [Counts, retrainCounted, trainRec, fld_setFld_ne _ (by simp only [F.STK_Lk_RETRAINS_RETRAINS, F.STK_Lk_TRAINREC_TEMP]; omega),
      fld_setFld_ne _ (by simp only [F.STK_Lk_RETRAINS_RETRAINS, F.STK_Lk_TRAINREC_IVCORE]; omega)]
    exact fld_satInc_same ..
  · rw [retrainCounted, trainRec, fld_setFld_ne _ (by simp only [F.STK_Lk_TRAINREC_IVCORE, F.STK_Lk_TRAINREC_TEMP]; omega), fld_setFld_same]
    exact (congrArg (· % 2 ^ 9) hcur).trans (Nat.mod_eq_of_lt hlt)
  · rw [retrainCounted, link_trainRec, satInc, satAdd, link_setFld]
  · exact ((Only.refl ..).satInc (by simp [recordFlds])).trainRec (by simp) (by simp [recordFlds])

end Sys2Proof.Machine
end

section
/-! SUPPORT. Lanes and sidings that fail or take over (R323 to R327), fences (R327, R328) and the start-up training (R317). -/
namespace Sys2Proof.Machine

variable {s o u : State} {k i n : Nat}

/-! ### Failing lanes that wait -/

theorem spareNext_of_empty (hs : (link s k).spare = none) (hq : (link s k).queue = []) (m : Nat) : spareNext k m s = s := by
  cases m with
  | zero => rfl
  | succ m =>
    rw [spareNext]
    simp only [hs, hq]

theorem spareNext_trains {lane j : Nat} {t : List Nat} (hs : (link s k).spare = none) (hq : (link s k).queue = lane :: t)
    (hf : freeSiding s k = some j) (m : Nat) : spareNext k (m + 1) s = setLink s k { link s k with queue := t, spare := some (lane, j) } := by
  rw [spareNext]
  simp only [hs, hq, hf]

theorem spareNext_erases {lane : Nat} {t : List Nat} (hs : (link s k).spare = none) (hq : (link s k).queue = lane :: t)
    (hf : freeSiding s k = none) (m : Nat) :
    spareNext k (m + 1) s = spareNext k m (eraseLane (setLink s k { link s k with queue := t }) k lane) := by
  rw [spareNext]
  simp only [hs, hq, hf]

/-- The lowest-numbered FREE siding of a link that trains none. -/
theorem freeSiding_eq_some {j : Nat} (hs : (link s k).spare = none) (hj : j < 16) (hf : sidState s k j = 0)
    (hlow : ∀ m, m < 16 → sidState s k m = 0 → j ≤ m) : freeSiding s k = some j := by
  rw [freeSiding, List.find?_range_eq_some]
  refine ⟨by simp [sidFree, sFREE, hf, hs], List.mem_range.2 hj, fun m hm => ?_⟩
  have hne : sidState s k m ≠ 0 := fun h => absurd (hlow m (by omega) h) (by omega)
  simp [sidFree, sFREE, hne]

theorem freeSiding_eq_none (hf : ∀ m, m < 16 → sidState s k m ≠ 0) : freeSiding s k = none := by
  rw [freeSiding, List.find?_eq_none]
  intro m hm
  simp [sidFree, sFREE, hf m (List.mem_range.1 hm)]

theorem freeSiding_congr (hs : ∀ m, m < 16 → sidState u k m = sidState s k m) (hl : (link u k).spare = (link s k).spare) :
    freeSiding u k = freeSiding s k := by
  unfold freeSiding
  refine List.find?_congr fun m hm => ?_
  simp only [sidFree, hs m (List.mem_range.1 hm), hl]

theorem freeSiding_lt (h : freeSiding s k = some i) : i < 16 := List.mem_range.1 (List.mem_of_find?_eq_some h)

/-! ### Conditions and the host's request -/

theorem condOut_of_stkFlds {ps : List Part} (ho : Only ps (stkFlds k i) o s) (hi : i < 16) {j : Nat} (hj : j < 43) (i0 : Nat) (t0 : Int) :
    condOut s j i0 t0 = condOut o j i0 t0 := by
  rw [condOut, condOut, ivcore_of_stkFlds ho hi, linkTemp_of_stkFlds ho hi hj]

/-- A link that may retrain enters RETRAIN at the host's request. -/
theorem linkRetrain_eq (hstate : lkState s k = 1 ∨ lkState s k = 2) (hfree : freeSiding s k = some i) (hon : stkOn s = true)
    (hcount : fld s F.STK_STATUS_RETRAINING < 4) (hspare : (link s k).spare = none) (hdie : linkDieReset s k = false) :
    linkRetrain s k = retrainStart (setFld s (F.STK_Lk_CTRL_RETRAIN k) 1) k i := by
  obtain ⟨w, hw⟩ : ∃ w, w = setFld s (F.STK_Lk_CTRL_RETRAIN k) 1 := ⟨_, rfl⟩
  have hi := freeSiding_lt hfree
  have ho : Only [] (stkFlds k i) s w := hw ▸ (Only.refl ..).setFld (by simp [stkFlds, linkFlds]) _
  have hkeep : ∀ f : Fld, f.key ≠ (F.STK_Lk_CTRL_RETRAIN k).key → fld w f = fld s f := fun f hf => by rw [hw, fld_setFld_ne _ hf]
  have hl : lkState w k = lkState s k := hkeep _ (by simp only [F.STK_Lk_STATUS_STATE, F.STK_Lk_CTRL_RETRAIN]; omega)
  have hr : flag w (F.STK_Lk_CTRL_RETRAIN k) = true := hw ▸ flag_b2n s (F.STK_Lk_CTRL_RETRAIN k) rfl true
  have hlink : link w k = link s k := link_congr (ho.1 .stk (by decide)) k
  have hf : freeSiding w k = some i := (freeSiding_congr (fun m _ => hkeep _ (by
    simp only [F.STK_Lk_SIDs_STATE, F.STK_Lk_CTRL_RETRAIN]; omega)) (by rw [hlink])).trans hfree
  have hwaits : ((lkState w k == kGUARD || lkState w k == kUP && flag w (F.STK_Lk_CTRL_RETRAIN k))) = true := by
    rw [hl, hr]
    rcases hstate with h | h <;> rw [h] <;> rfl
  have hmay : (stkOn w && decide (fld w F.STK_STATUS_RETRAINING < 4) && (link w k).spare.isNone) = true := by
    rw [stkOn_of_stkFlds ho hi, hon, hlink, hspare, hkeep _ (by simp only [F.STK_STATUS_RETRAINING, F.STK_Lk_CTRL_RETRAIN]; omega),
      decide_eq_true hcount]
    rfl
  refine (if_pos ⟨hstate, by rw [hfree]; rfl, hon⟩).trans ?_
  rw [← hw]
  unfold guardOne
  rw [hwaits, linkDieReset_of_stkFlds ho hi, hdie, if_neg (by decide)]
  simp only [hf, hmay, if_true]

/-! ### The end of a retrain -/

theorem retrainEnd_eq (s : State) (k i : Nat) : retrainEnd s k i = if condOut s k (link s k).startI (link s k).startT then
      retrainStart (dropCarrier (retrainCounted s k) k) k i
    else guardAll (raise (setLkState (dropCarrier (retrainCounted s k) k) k kUP) 0x1405 [(1, k)]) := rfl

section
variable (h : Retrains s k i 560)
include h

/-- What the last position leaves before the carrier is given up. -/
theorem retrainLast_spec : Counts (F.STK_Lk_RETRAINS_RETRAINS k) 1 s (retrainCounted (trimmed s k i 560) k)
    ∧ fld (retrainCounted (trimmed s k i 560) k) (F.STK_Lk_TRAINREC_IVCORE k) = fld s F.STK_IVCORE_CURRENT
    ∧ (∀ j, link (retrainCounted (trimmed s k i 560) k) j = link s j) ∧ sidState (retrainCounted (trimmed s k i 560) k) k i = 3
    ∧ Only [.stk, .free] (recordFlds k) s (retrainCounted (trimmed s k i 560) k) := by
  obtain ⟨-, -, -, -, -, hi, hsid⟩ := h
  have how := only_trimmed s k i 560
  obtain ⟨hcount, hcur, hlink, ho⟩ := retrainCounted_spec (trimmed s k i 560) k
  have hf : ∀ f, fld (trimmed s k i 560) f = fld s f := fun f => how.2 f (by simp)
  refine ⟨hcount.trans (by rw [hf]), hcur.trans (hf _), fun j => (hlink j).trans (link_trimmed ..), ?_,
    (how.mono (by simp) (by simp)).trans (ho.mono (by simp) (List.Subset.refl _))⟩
  refine ((ho.2 _ ?_).trans (hf _)).trans hsid
  simp [recordFlds, F.STK_Lk_SIDs_STATE, F.STK_Lk_RETRAINS_RETRAINS, F.STK_Lk_TRAINREC_IVCORE, F.STK_Lk_TRAINREC_TEMP]
  omega

theorem condOut_trimmed (hk : k < 43) : condOut (trimmed s k i 560) k (link (trimmed s k i 560) k).startI (link (trimmed s k i 560) k).startT =
    condOut s k (link s k).startI (link s k).startT := by
  obtain ⟨-, -, -, -, -, hi, -⟩ := h
  rw [condOut_of_stkFlds (i := i) (k := k) ((only_trimmed s k i 560).mono (List.Subset.refl _) (by simp)) hi hk, link_trimmed]

end

/-- The fields that the end of a retrain writes. -/
def endFlds (k i : Nat) : List Fld := linkFlds k ++ sidFlds k i ++ recordFlds k

theorem endFlds_subset (k i : Nat) : endFlds k i ⊆ stkFlds k i := by
  intro f hf
  simp only [endFlds, stkFlds, recordFlds, List.mem_append, List.mem_cons, List.not_mem_nil, or_false] at hf ⊢
  tauto

/-- Where the other links do not wait, neither does any, once link k is UP and not asked to retrain. -/
theorem noneWaits_of_others {ps : List Part} (ho : Only ps (stkFlds k i) o s) (hi : i < 16)
    (hothers : ∀ j, j < 43 → j ≠ k → lkState o j ≠ 2 ∧ flag o (F.STK_Lk_CTRL_RETRAIN j) = false)
    (hl : lkState s k ≠ 2) (hr : flag s (F.STK_Lk_CTRL_RETRAIN k) = false) : NoneWaits s := fun j hj => by
  by_cases h : j = k
  · exact h ▸ ⟨hl, hr⟩
  · rw [lkState_of_stkFlds ho hi h, retrain_of_stkFlds ho hi h]
    exact hothers j hj h

/-! ### The first failed lane -/

def lastFlds (k : Nat) : List Fld := [F.STK_Lk_LASTFAIL_LANE k, F.STK_Lk_LASTFAIL_CAUSE k, F.STK_Lk_LASTFAIL_VALID k]

theorem only_lastFail (s : State) (k lane cause : Nat) : Only [] (lastFlds k) s (lastFail s k lane cause) :=
  (Only.refl ..).lastFail (List.Subset.refl _) _ _

theorem lastFail_first {lane cause : Nat} (hv : flag s (F.STK_Lk_LASTFAIL_VALID k) = false) (hl : lane < 1024) (hc : cause < 8) :
    fld (lastFail s k lane cause) (F.STK_Lk_LASTFAIL_LANE k) = lane ∧ fld (lastFail s k lane cause) (F.STK_Lk_LASTFAIL_CAUSE k) = cause := by
  have hne : ¬ flag s (F.STK_Lk_LASTFAIL_VALID k) = true := by rw [hv]; decide
  rw [lastFail, if_neg hne]
  constructor
  · rw [fld_setFld_ne _ (by simp only [F.STK_Lk_LASTFAIL_LANE, F.STK_Lk_LASTFAIL_VALID]; omega),
      fld_setFld_ne _ (by simp only [F.STK_Lk_LASTFAIL_LANE, F.STK_Lk_LASTFAIL_CAUSE]; omega), fld_setFld_same]
    exact Nat.mod_eq_of_lt hl
  · rw [fld_setFld_ne _ (by simp only [F.STK_Lk_LASTFAIL_CAUSE, F.STK_Lk_LASTFAIL_VALID]; omega), fld_setFld_same]
    exact Nat.mod_eq_of_lt hc

/-- Setting a siding leaves the first failed lane. -/
theorem fld_setSid_lastFlds (s : State) (st lane : Nat) (hi : i < 16) {f : Fld} (hf : f ∈ lastFlds k) : fld (setSid s k i st lane) f = fld s f := by
  refine ((Only.refl [] (countFlds k ++ sidFlds k i) s).setSid (List.Subset.refl _) st lane).2 f ?_
  simp only [lastFlds, List.mem_cons, List.not_mem_nil, or_false] at hf
  rcases hf with h | h | h <;> subst h <;>
    simp [countFlds, sidFlds, F.STK_Lk_STATUS_FREE, F.STK_Lk_STATUS_GUARD, F.STK_STATUS_RETRAINING, F.STK_Lk_SIDs_STATE,
      F.STK_Lk_SIDs_LANE, F.STK_Lk_LASTFAIL_LANE, F.STK_Lk_LASTFAIL_CAUSE, F.STK_Lk_LASTFAIL_VALID] <;> omega

/-! ### A carrier that is given up without becoming FREE -/

theorem dropCarrier_plain (hc : ∀ i, (link s k).carrier = some i → sidState s k i ≠ 3) : dropCarrier s k =
    setFld (setFld (setLink s k { link s k with carrier := none, stage := 0 }) (F.STK_Lk_CTRL_RETRAIN k) 0) (F.STK_Lk_STATUS_RETRAIN_LANE k) 0 := by
  unfold dropCarrier
  cases hi : (link s k).carrier with
  | none => simp only [hi]
  | some i =>
    have hne : ¬ sidState (setLink s k { link s k with carrier := none, stage := 0 }) k i = sCARRIER := hc i hi
    simp only [hi, if_neg hne]

theorem droppedPlain_spec (hc : ∀ i, (link s k).carrier = some i → sidState s k i ≠ 3) :
    (∀ j, lkState (dropCarrier s k) j = lkState s j) ∧ flag (dropCarrier s k) (F.STK_Lk_CTRL_RETRAIN k) = false
    ∧ link (dropCarrier s k) k = { link s k with carrier := none, stage := 0 } ∧ (∀ j, j ≠ k → link (dropCarrier s k) j = link s j)
    ∧ Only [.stk] [F.STK_Lk_CTRL_RETRAIN k, F.STK_Lk_STATUS_RETRAIN_LANE k] s (dropCarrier s k) := by
  rw [dropCarrier_plain hc]
  refine ⟨fun j => ?_, ?_, ?_, fun j hj => ?_, (((Only.refl ..).setLink (by simp) _ _).setFld (by simp) _).setFld (by simp) _⟩
  · rw [lkState, fld_setFld_ne _ (by simp only [F.STK_Lk_STATUS_STATE, F.STK_Lk_STATUS_RETRAIN_LANE]; omega),
      fld_setFld_ne _ (by simp only [F.STK_Lk_STATUS_STATE, F.STK_Lk_CTRL_RETRAIN]; omega), fld_setLink, lkState]
  · rw [flag, fld_setFld_ne _ (by simp only [F.STK_Lk_CTRL_RETRAIN, F.STK_Lk_STATUS_RETRAIN_LANE]; omega), fld_setFld_same]
    rfl
  · rw [link_setFld, link_setFld, link_setLink_same]
  · rw [link_setFld, link_setFld, link_setLink_ne _ hj]

/-! ### A lane that fails in the carrier's hand -/

/-- A failed lane is recorded, and siding i carries it for good. -/
def laneGiven (s : State) (k i n : Nat) : State :=
  spareLane (setLink (lastFail s k n 0) k { link (lastFail s k n 0) k with
    failed := (link s k).failed ++ [n]
    missed := (link s k).missed.filter (· != n) }) k n i

theorem laneFail_kept (hl : lkState s k = 3) (hcar : carrierOf s k n = none) (hfresh : (link s k).failed.contains n = false)
    (hc : (link s k).carrier = some i) (hstage : (link s k).stage = n + 1) :
    laneFail s k n 0 = guardAll (setLkState (dropCarrier (laneGiven s k i n) k) k kGUARD) := by
  unfold laneFail
  rw [if_neg (by rw [hl]; decide)]
  simp only [hcar, hfresh, Option.isNone_none, Bool.and_false, Bool.false_eq_true, if_false]
  rw [if_pos (show lkState s k = kRETRAIN from hl)]
  simp only [hc, hstage, if_true, laneGiven]

theorem laneGiven_spec (s : State) (k i n : Nat) (hi : i < 16) : (∀ j, lkState (laneGiven s k i n) j = lkState s j)
    ∧ sidState (laneGiven s k i n) k i = 1 ∧ fld (laneGiven s k i n) (F.STK_Lk_SIDs_LANE k i) = n % 1024
    ∧ (∀ j, j < 16 → j ≠ i → sidState (laneGiven s k i n) k j = sidState s k j)
    ∧ link (laneGiven s k i n) k = { link s k with
        failed := (link s k).failed ++ [n]
        missed := (link s k).missed.filter (· != n) }
    ∧ (∀ j, j ≠ k → link (laneGiven s k i n) j = link s j)
    ∧ (flag s (F.STK_Lk_LASTFAIL_VALID k) = false → n < 1024 → fld (laneGiven s k i n) (F.STK_Lk_LASTFAIL_LANE k) = n
        ∧ fld (laneGiven s k i n) (F.STK_Lk_LASTFAIL_CAUSE k) = 0)
    ∧ (laneGiven s k i n).evq = s.evq ++ [ev 0x1401 [(1, k), (2, n), (1, i)]]
    ∧ Only [.stk, .evq] (countFlds k ++ sidFlds k i ++ lastFlds k) s (laneGiven s k i n) := by
  obtain ⟨x, hx⟩ : ∃ x, x = setLink (lastFail s k n 0) k { link (lastFail s k n 0) k with
    failed := (link s k).failed ++ [n]
    missed := (link s k).missed.filter (· != n) } := ⟨_, rfl⟩
  have hgiven : laneGiven s k i n = raise (setSid x k i sIN_USE n) 0x1401 [(1, k), (2, n), (1, i)] := by rw [laneGiven, ← hx, spareLane]
  have hox : Only [.stk] (lastFlds k) s x := hx ▸ ((only_lastFail ..).mono (by simp) (List.Subset.refl _)).setLink (by simp) _ _
  have hos : Only [] (countFlds k ++ sidFlds k i) x (setSid x k i sIN_USE n) := (Only.refl ..).setSid (List.Subset.refl _) _ _
  have hlast : ∀ f, fld x f = fld (lastFail s k n 0) f := fun f => by rw [hx, fld_setLink]
  have hkeep : ∀ f : Fld, f.key ∉ (lastFlds k).map Fld.key → fld x f = fld s f := hox.2
  have hall := (hox.mono (qs := [.stk]) (gs := countFlds k ++ sidFlds k i ++ lastFlds k) (by simp) (by simp)).trans (hos.mono (by simp) (by simp))
  rw [hgiven]
  refine ⟨fun j => ?_, ?_, ?_, fun j hj hne => ?_, ?_, fun j hj => ?_, fun hv hn => ?_, ?_,
    (hall.mono (by simp) (List.Subset.refl _)).raise (by simp) _ _⟩
  · refine (lkState_setSid x k hi ..).trans (hkeep _ ?_)
    simp [lastFlds, F.STK_Lk_STATUS_STATE, F.STK_Lk_LASTFAIL_LANE, F.STK_Lk_LASTFAIL_CAUSE, F.STK_Lk_LASTFAIL_VALID]
    omega
  · exact sidState_setSid_same ..
  · exact sidLane_setSid_same ..
  · refine (sidState_setSid_ne x k _ _ hne).trans (hkeep _ ?_)
    simp [lastFlds, F.STK_Lk_SIDs_STATE, F.STK_Lk_LASTFAIL_LANE, F.STK_Lk_LASTFAIL_CAUSE, F.STK_Lk_LASTFAIL_VALID]
    omega
  · rw [link_raise, link_setSid, hx, link_setLink_same, link_lastFail]
  · rw [link_raise, link_setSid, hx, link_setLink_ne _ hj, link_lastFail]
  · obtain ⟨hlane, hcause⟩ := lastFail_first (k := k) hv hn (show 0 < 8 by decide)
    have hthrough : ∀ f ∈ lastFlds k, fld (setSid x k i sIN_USE n) f = fld (lastFail s k n 0) f := fun f hf =>
      (fld_setSid_lastFlds x sIN_USE n hi hf).trans (hlast f)
    exact ⟨(hthrough _ (by simp [lastFlds])).trans hlane, (hthrough _ (by simp [lastFlds])).trans hcause⟩
  · exact congrArg (· ++ [ev 0x1401 [(1, k), (2, n), (1, i)]]) (hall.evq (by decide))

theorem givenFlds_subset (k i : Nat) : countFlds k ++ sidFlds k i ++ lastFlds k ⊆ linkFlds k ++ sidFlds k i ++ lastFlds k := by
  intro f hf
  simp only [countFlds, linkFlds, List.mem_append, List.mem_cons, List.not_mem_nil, or_false] at hf ⊢
  tauto

theorem keptFlds_subset (k i : Nat) : linkFlds k ++ sidFlds k i ++ lastFlds k ⊆ stkFlds k i := by
  intro f hf
  simp only [stkFlds, lastFlds, List.mem_append, List.mem_cons, List.not_mem_nil, or_false] at hf ⊢
  tauto

/-- The fields of a siding and of the first failed lane are none of the link's state. -/
theorem not_linkFld (hi : i < 16) {f : Fld} (hf : f ∈ sidFlds k i ++ lastFlds k) : f.key ∉ (linkFlds k).map Fld.key := by
  simp only [sidFlds, lastFlds, List.cons_append, List.nil_append, List.mem_cons, List.not_mem_nil, or_false] at hf
  rcases hf with h | h | h | h | h <;> subst h <;>
    simp [linkFlds, F.STK_Lk_STATUS_STATE, F.STK_Lk_STATUS_FREE, F.STK_Lk_STATUS_GUARD, F.STK_STATUS_RETRAINING, F.STK_Lk_CTRL_RETRAIN,
      F.STK_Lk_STATUS_RETRAIN_LANE, F.STK_Lk_SIDs_STATE, F.STK_Lk_SIDs_LANE, F.STK_Lk_LASTFAIL_LANE, F.STK_Lk_LASTFAIL_CAUSE,
      F.STK_Lk_LASTFAIL_VALID] <;> omega

/-- A link in GUARD stays there while the controller is off, where a siding is FREE. -/
theorem guardOne_of_off (hoff : stkOn s = false) (hf : (freeSiding s k).isSome = true) : guardOne s k = s := by
  obtain ⟨i, hi⟩ := Option.isSome_iff_exists.1 hf
  unfold guardOne
  simp only [hi, hoff, Bool.false_and, Bool.false_eq_true, if_false, ite_self]

theorem evq_setLink (s : State) (k : Nat) (x : Link) : (setLink s k x).evq = s.evq :=
  ((Only.refl [.stk] [] s).setLink (by simp) k x).evq (by decide)

/-! ### A siding that takes a lane over, or fails its training -/

/-- The fields that a siding and the first failed lane share with the counts of the link. -/
def sparedFlds (k i : Nat) : List Fld := countFlds k ++ lastFlds k ++ sidFlds k i

/-- No link's state, and no request for a retrain, is among those fields. -/
theorem waits_of_sparedFlds {ps : List Part} (ho : Only ps (sparedFlds k i) s u) (hi : i < 16) (h : NoneWaits s) : NoneWaits u := by
  refine NoneWaits.congr h (fun j => ho.2 _ ?_) fun j => ho.2 _ ?_ <;>
  · simp [sparedFlds, countFlds, lastFlds, sidFlds, F.STK_Lk_STATUS_STATE, F.STK_Lk_CTRL_RETRAIN, F.STK_Lk_STATUS_FREE, F.STK_Lk_STATUS_GUARD,
      F.STK_STATUS_RETRAINING, F.STK_Lk_SIDs_STATE, F.STK_Lk_SIDs_LANE, F.STK_Lk_LASTFAIL_LANE, F.STK_Lk_LASTFAIL_CAUSE,
      F.STK_Lk_LASTFAIL_VALID]
    omega

section
variable {lane : Nat} (hs : (link s k).spare = some (lane, i))
include hs

theorem sidingSwitch_taken : sidingSwitch s k true = guardAll (spareNext k 600
    (spareLane (trimLane (setLink s k { link s k with spare := none }) k (560 + i)) k lane i)) := by
  unfold sidingSwitch
  simp only [hs, if_true]

end

/-- A siding has failed its training for a lane, which waits again. -/
def sidingFailed (s : State) (k i lane : Nat) : State :=
  setLink (sidFail (lastFail (setLink s k { link s k with spare := none }) k (560 + i) 3) k i) k
    { link s k with spare := none, queue := lane :: (link s k).queue }

theorem sidingSwitch_failed {lane : Nat} (hs : (link s k).spare = some (lane, i)) :
    sidingSwitch s k false = guardAll (spareNext k 600 (sidingFailed s k i lane)) := by
  unfold sidingSwitch
  simp only [hs, Bool.false_eq_true, if_false, sidingFailed, sidFail, link_raise, link_setSid, link_lastFail, link_setLink_same]

theorem sidingFailed_spec (s : State) (k lane : Nat) (hi : i < 16) : sidState (sidingFailed s k i lane) k i = 2
    ∧ (∀ j, j < 16 → j ≠ i → sidState (sidingFailed s k i lane) k j = sidState s k j)
    ∧ link (sidingFailed s k i lane) k = { link s k with spare := none, queue := lane :: (link s k).queue }
    ∧ (flag s (F.STK_Lk_LASTFAIL_VALID k) = false → fld (sidingFailed s k i lane) (F.STK_Lk_LASTFAIL_LANE k) = 560 + i
        ∧ fld (sidingFailed s k i lane) (F.STK_Lk_LASTFAIL_CAUSE k) = 3)
    ∧ (sidingFailed s k i lane).evq = s.evq ++ [ev 0x1407 [(1, k)]]
    ∧ Only [.stk, .evq] (sparedFlds k i) s (sidingFailed s k i lane) := by
  obtain ⟨x, hx⟩ : ∃ x, x = lastFail (setLink s k { link s k with spare := none }) k (560 + i) 3 := ⟨_, rfl⟩
  have hfailed : sidingFailed s k i lane = setLink (raise (setSid x k i sFAILED 0) 0x1407 [(1, k)]) k
      { link s k with spare := none, queue := lane :: (link s k).queue } := by rw [sidingFailed, ← hx, sidFail]
  have hox : Only [.stk] (lastFlds k) s x := hx ▸ (((Only.refl ..).setLink (by simp) _ _).trans ((only_lastFail ..).mono (by simp) (List.Subset.refl _)))
  have hos : Only [] (countFlds k ++ sidFlds k i) x (setSid x k i sFAILED 0) := (Only.refl ..).setSid (List.Subset.refl _) _ _
  have hall := (hox.mono (qs := [.stk]) (gs := sparedFlds k i) (by simp) (by simp [sparedFlds])).trans (hos.mono (by simp) (by simp [sparedFlds]))
  rw [hfailed]
  refine ⟨?_, fun j hj hne => ?_, link_setLink_same .., fun hv => ?_, ?_, ((hall.mono (by simp) (List.Subset.refl _)).raise (by simp) _ _).setLink (by simp) _ _⟩
  · exact ((fld_setLink ..).trans (fld_raise ..)).trans (sidState_setSid_same ..)
  · refine ((fld_setLink ..).trans (fld_raise ..)).trans ((sidState_setSid_ne x k _ _ hne).trans (hox.2 _ ?_))
    simp [lastFlds, F.STK_Lk_SIDs_STATE, F.STK_Lk_LASTFAIL_LANE, F.STK_Lk_LASTFAIL_CAUSE, F.STK_Lk_LASTFAIL_VALID]
    omega
  · obtain ⟨hlane, hcause⟩ := lastFail_first (k := k) (s := setLink s k { link s k with spare := none }) hv (show 560 + i < 1024 by omega)
      (show 3 < 8 by decide)
    rw [← hx] at hlane hcause
    rw [fld_setLink, fld_raise, fld_setLink, fld_raise, fld_setSid_lastFlds x sFAILED 0 hi (by simp [lastFlds]),
      fld_setSid_lastFlds x sFAILED 0 hi (by simp [lastFlds])]
    exact ⟨hlane, hcause⟩
  · have hev := hall.evq (by decide)
    generalize setSid x k i sFAILED 0 = z at *
    exact (evq_setLink ..).trans (congrArg (· ++ [ev 0x1407 [(1, k)]]) hev)

/-! ### A lane whose byte is erased -/

def erasedFlds (k : Nat) : List Fld := [F.STK_Lk_STATUS_ERASED k, F.STK_Lk_STATUS_ERASED_BYTE k]

theorem eraseLane_eq {lane : Nat} (he : flag s (F.STK_Lk_STATUS_ERASED k) = false) : eraseLane s k lane =
    setFld (setFld (raise s 0x1402 [(1, k), (2, lane)]) (F.STK_Lk_STATUS_ERASED k) 1) (F.STK_Lk_STATUS_ERASED_BYTE k) (lane / 8) := by
  unfold eraseLane
  rw [he]
  rfl

theorem eraseLane_spec {lane : Nat} (he : flag s (F.STK_Lk_STATUS_ERASED k) = false) (hl : lane < 1024) :
    flag (eraseLane s k lane) (F.STK_Lk_STATUS_ERASED k) = true ∧ fld (eraseLane s k lane) (F.STK_Lk_STATUS_ERASED_BYTE k) = lane / 8
    ∧ (∀ j, link (eraseLane s k lane) j = link s j) ∧ (eraseLane s k lane).evq = s.evq ++ [ev 0x1402 [(1, k), (2, lane)]]
    ∧ Only [.evq] (erasedFlds k) s (eraseLane s k lane) := by
  rw [eraseLane_eq he]
  refine ⟨?_, ?_, fun j => ?_, rfl, (((Only.refl ..).raise (by simp) _ _).setFld (by simp [erasedFlds]) _).setFld (by simp [erasedFlds]) _⟩
  · refine (flag_eq_of_fld (fld_setFld_ne _ ?_ _)).trans (flag_b2n _ (F.STK_Lk_STATUS_ERASED k) rfl true)
    simp only [F.STK_Lk_STATUS_ERASED, F.STK_Lk_STATUS_ERASED_BYTE]
    omega
  · exact (fld_setFld_same ..).trans (Nat.mod_eq_of_lt (show lane / 8 < 2 ^ 7 by omega))
  · rw [link_setFld, link_setFld, link_raise]

end Sys2Proof.Machine
end

section
/-! SUPPORT. Fences of the stack's links (R327, R328) and the start-up training (R317). -/
namespace Sys2Proof.Machine

variable {s o u : State} {k i n : Nat}

theorem erasingFlds_subset (k i : Nat) : sparedFlds k i ++ erasedFlds k ⊆ [F.STK_Lk_STATUS_FREE k, F.STK_Lk_STATUS_GUARD k,
    F.STK_STATUS_RETRAINING, F.STK_Lk_LASTFAIL_LANE k, F.STK_Lk_LASTFAIL_CAUSE k, F.STK_Lk_LASTFAIL_VALID k, F.STK_Lk_STATUS_ERASED k,
    F.STK_Lk_STATUS_ERASED_BYTE k] ++ sidFlds k i := by
  intro f hf
  simp only [sparedFlds, erasedFlds, countFlds, lastFlds, List.mem_append, List.mem_cons, List.not_mem_nil, or_false] at hf ⊢
  tauto

theorem noneWaits_of_fields {ps : List Part} (ho : Only ps (sparedFlds k i ++ erasedFlds k) s u) (hi : i < 16) (h : NoneWaits s) : NoneWaits u := by
  refine NoneWaits.congr h (fun j => ho.2 _ ?_) fun j => ho.2 _ ?_ <;>
  · simp [sparedFlds, erasedFlds, countFlds, lastFlds, sidFlds, F.STK_Lk_STATUS_STATE, F.STK_Lk_CTRL_RETRAIN, F.STK_Lk_STATUS_FREE,
      F.STK_Lk_STATUS_GUARD, F.STK_STATUS_RETRAINING, F.STK_Lk_SIDs_STATE, F.STK_Lk_SIDs_LANE, F.STK_Lk_LASTFAIL_LANE,
      F.STK_Lk_LASTFAIL_CAUSE, F.STK_Lk_LASTFAIL_VALID, F.STK_Lk_STATUS_ERASED, F.STK_Lk_STATUS_ERASED_BYTE]
    omega

/-! ### A fence of a link that carries nothing -/

/-- Link k is FENCED, with its retrain and its waiting lanes given up. -/
def fencedLink (s : State) (k : Nat) : State :=
  setFld (setLkState (setLink (dropCarrier s k) k { link (dropCarrier s k) k with queue := [], spare := none }) k kFENCED) F.STK_FENCED_LINKS
    (fld s F.STK_FENCED_LINKS ||| 2 ^ k)

/-- The same, with the fenced links counted. -/
def fencedCounted (s : State) (k : Nat) : State :=
  setFld (fencedLink s k) F.STK_STATUS_FENCED ((List.range 43).filter fun j => linkFenced (fencedLink s k) j).length

theorem fence_eq (h : lkState s k ≠ 4) (cause : Nat) :
    fence s k cause = updateUnreach (raise (fencedCounted s k) 0x1403 [(1, k), (1, cause)]) k := if_neg h

theorem bitOf_two_pow (k j : Nat) : bitOf (2 ^ k) j = decide (k = j) := by
  rw [bitOf_eq_testBit, Nat.testBit_two_pow]

section
variable (hk : k < 43) (hf : fld s F.STK_FENCED_LINKS = 0) (hc : (link s k).carrier = none)
include hk hf hc

theorem fencedLink_spec : lkState (fencedLink s k) k = 4 ∧ fld (fencedLink s k) F.STK_FENCED_LINKS = 2 ^ k
    ∧ link (fencedLink s k) k = { link s k with carrier := none, stage := 0, queue := [], spare := none }
    ∧ (∀ j, j ≠ k → link (fencedLink s k) j = link s j)
    ∧ Only [.stk] (F.STK_FENCED_LINKS :: linkFlds k) s (fencedLink s k) := by
  obtain ⟨-, -, hlink, hother, ho⟩ := droppedPlain_spec (s := s) (k := k) fun i hi => by
    rw [hc] at hi
    exact absurd hi (by simp)
  unfold fencedLink
  generalize dropCarrier s k = w at *
  have hlk := link_setLkState (setLink w k { link w k with queue := [], spare := none }) k kFENCED
  have hl : lkState (setLkState (setLink w k { link w k with queue := [], spare := none }) k kFENCED) k = 4 := lkState_setLkState_same ..
  have hall : Only [.stk] (F.STK_FENCED_LINKS :: linkFlds k) s (setLkState (setLink w k { link w k with queue := [], spare := none }) k kFENCED) :=
    ((ho.mono (List.Subset.refl _) (by simp [linkFlds])).setLink (by simp) _ _).setLkState (by simp [linkFlds, countFlds]) _
  generalize setLkState (setLink w k { link w k with queue := [], spare := none }) k kFENCED = v at *
  refine ⟨?_, ?_, ?_, fun j hj => ?_, hall.setFld (by simp) _⟩
  · rw [lkState, fld_setFld_ne _ (by simp only [F.STK_Lk_STATUS_STATE, F.STK_FENCED_LINKS]; omega)]
    exact hl
  · rw [fld_setFld_same, hf, Nat.zero_or]
    exact Nat.mod_eq_of_lt (Nat.pow_lt_pow_right (by decide) hk)
  · rw [link_setFld, hlk, link_setLink_same, hlink]
  · rw [link_setFld, hlk, link_setLink_ne _ hj, hother j hj]

theorem fencedCounted_spec : lkState (fencedCounted s k) k = 4 ∧ fld (fencedCounted s k) F.STK_FENCED_LINKS = 2 ^ k
    ∧ fld (fencedCounted s k) F.STK_STATUS_FENCED = 1
    ∧ link (fencedCounted s k) k = { link s k with carrier := none, stage := 0, queue := [], spare := none }
    ∧ (∀ j, j ≠ k → link (fencedCounted s k) j = link s j)
    ∧ Only [.stk] (F.STK_FENCED_LINKS :: F.STK_STATUS_FENCED :: linkFlds k) s (fencedCounted s k) := by
  obtain ⟨hl, hfenced, hlink, hother, ho⟩ := fencedLink_spec hk hf hc
  have hone : ((List.range 43).filter fun j => linkFenced (fencedLink s k) j) = [k] := by
    refine filter_eq_singleton hk ?_ fun j _ hne => ?_ <;> rw [linkFenced, hfenced, bitOf_two_pow]
    · exact decide_eq_true rfl
    · exact decide_eq_false (Ne.symm hne)
  unfold fencedCounted
  rw [hone]
  generalize fencedLink s k = w at *
  refine ⟨?_, ?_, ?_, hlink, hother, (ho.mono (List.Subset.refl _) (by simp)).setFld (by simp) _⟩
  · rw [lkState, fld_setFld_ne _ (by simp only [F.STK_Lk_STATUS_STATE, F.STK_STATUS_FENCED]; omega)]
    exact hl
  · rw [fld_setFld_ne _ (by decide)]
    exact hfenced
  · rw [fld_setFld_same]
    rfl

end

/-! ### The paths that a fence takes away -/

theorem linkFenced_of (h : fld s F.STK_FENCED_LINKS = 2 ^ k) : linkFenced s = fun j => decide (k = j) := by
  funext j
  rw [linkFenced, h, bitOf_two_pow]

/-- Without a link of the bands every path of a band keeps an alternative. -/
theorem not_bandLost (h : fld s F.STK_FENCED_LINKS = 2 ^ k) (hk : k < 40) {d b t : Nat} (hd : d ∈ [1, 2, 3]) (hb : b < 8) (ht : t ∈ [1, 2, 3]) :
    bandLost s d b t = false := by
  simp only [List.mem_cons, List.not_mem_nil, or_false] at hd ht
  rcases hd with rfl | rfl | rfl <;> rcases ht with rfl | rfl | rfl <;>
    simp [bandLost, bandPaths, bandLink, spineOf, linkFenced_of h] <;> omega

theorem not_baseLost (h : fld s F.STK_FENCED_LINKS = 2 ^ k) {t : Nat} (hk : k ≠ 39 + t) : baseLost s t = false := by
  simp [baseLost, basePaths, spineOf, linkFenced_of h, hk]

/-- The bit of STK_UNREACH for a band of a die. -/
def bandStep (k : Nat) (s : State) (x : Nat × Nat) : State :=
  if !bitOf (fld s F.STK_UNREACH_BANDS) (8 * (x.1 - 1) + x.2) && [1, 2, 3].any (bandLost s x.1 x.2) then
    setFld (raise s 0x1406 [(1, k)]) F.STK_UNREACH_BANDS (fld s F.STK_UNREACH_BANDS ||| 2 ^ (8 * (x.1 - 1) + x.2))
  else s

/-- The bit of STK_UNREACH for a memory die. -/
def dieStep (k : Nat) (s : State) (t : Nat) : State :=
  if !bitOf (fld s F.STK_UNREACH_DIES) (t - 1) && baseLost s t then
    loseDie (setFld (raise s 0x1406 [(1, k)]) F.STK_UNREACH_DIES (fld s F.STK_UNREACH_DIES ||| 2 ^ (t - 1))) t
  else s

theorem updateUnreach_eq (s : State) (k : Nat) : updateUnreach s k = forEach [1, 2, 3] (dieStep k)
    (forEach ([1, 2, 3].flatMap fun d => (List.range 8).map fun b => (d, b)) (bandStep k) s) := rfl

theorem bandStep_of_not_lost {x : Nat × Nat} (h : ∀ t ∈ [1, 2, 3], bandLost s x.1 x.2 t = false) : bandStep k s x = s := by
  have hany : [1, 2, 3].any (bandLost s x.1 x.2) = false := List.any_eq_false.2 fun t ht => by rw [h t ht]; decide
  unfold bandStep
  rw [hany, Bool.and_false, if_neg (by decide)]

theorem dieStep_of_not_lost {t : Nat} (h : baseLost s t = false) : dieStep k s t = s := by
  unfold dieStep
  rw [h, Bool.and_false, if_neg (by decide)]

/-- Fencing a link of the bands loses no path. -/
theorem updateUnreach_of_band (h : fld s F.STK_FENCED_LINKS = 2 ^ k) (hk : k < 40) (j : Nat) : updateUnreach s j = s := by
  have hbands : forEach ([1, 2, 3].flatMap fun d => (List.range 8).map fun b => (d, b)) (bandStep j) s = s := forEach_fixed fun x hx => by
    obtain ⟨d, hd, hm⟩ := List.mem_flatMap.1 hx
    obtain ⟨b, hb, rfl⟩ := List.mem_map.1 hm
    exact bandStep_of_not_lost fun t ht => not_bandLost h hk hd (List.mem_range.1 hb) ht
  rw [updateUnreach_eq, hbands]
  refine forEach_fixed fun t ht => dieStep_of_not_lost (not_baseLost h ?_)
  simp only [List.mem_cons, List.not_mem_nil, or_false] at ht
  omega

/-! ### A fence of the spine to M2 -/

section
variable (h : fld s F.STK_FENCED_LINKS = 2 ^ 41)
include h

theorem bandLost_of_spine (b : Nat) : bandLost s 1 b 2 = true := by
  simp [bandLost, bandPaths, bandLink, spineOf, linkFenced_of h]

theorem not_bandLost_of_spine {d b t : Nat} (hd : d ∈ [2, 3]) (hb : b < 8) (ht : t ∈ [1, 2, 3]) : bandLost s d b t = false := by
  simp only [List.mem_cons, List.not_mem_nil, or_false] at hd ht
  rcases hd with rfl | rfl <;> rcases ht with rfl | rfl | rfl <;>
    simp [bandLost, bandPaths, bandLink, spineOf, linkFenced_of h] <;> omega

theorem baseLost_of_spine : baseLost s 2 = true := by simp [baseLost, basePaths, spineOf, linkFenced_of h]

/-- Each band of L1 loses its path to M2. -/
theorem bands_of_spine (hb : fld s F.STK_UNREACH_BANDS = 0) (m : Nat) (hm : m ≤ 8) :
    fld (forEach ((List.range m).map fun b => (1, b)) (bandStep 41) s) F.STK_UNREACH_BANDS = 2 ^ m - 1
    ∧ (forEach ((List.range m).map fun b => (1, b)) (bandStep 41) s).evq = s.evq ++ List.replicate m (ev 0x1406 [(1, 41)])
    ∧ Only [.evq] [F.STK_UNREACH_BANDS] s (forEach ((List.range m).map fun b => (1, b)) (bandStep 41) s) := by
  induction m with
  | zero => exact ⟨hb, (List.append_nil _).symm, .refl ..⟩
  | succ m ih =>
    obtain ⟨hbits, hev, ho⟩ := ih (by omega)
    have hsucc : forEach ((List.range (m + 1)).map fun b => (1, b)) (bandStep 41) s =
        bandStep 41 (forEach ((List.range m).map fun b => (1, b)) (bandStep 41) s) (1, m) := by
      rw [List.range_succ, List.map_append, forEach, List.foldl_append]
      rfl
    rw [hsucc]
    generalize forEach ((List.range m).map fun b => (1, b)) (bandStep 41) s = v at *
    have hfv : fld v F.STK_FENCED_LINKS = 2 ^ 41 := (ho.2 _ (by decide)).trans h
    have hstep : bandStep 41 v (1, m) = setFld (raise v 0x1406 [(1, 41)]) F.STK_UNREACH_BANDS (2 ^ m - 1 ||| 2 ^ m) := by
      have hclear : bitOf (2 ^ m - 1) m = false := by rw [bitOf_eq_testBit, Nat.testBit_two_pow_sub_one, decide_eq_false (lt_irrefl m)]
      have hlost : [1, 2, 3].any (bandLost v 1 m) = true := List.any_eq_true.2 ⟨2, by decide, bandLost_of_spine hfv m⟩
      unfold bandStep
      rw [hbits, hlost]
      simp [hclear]
    rw [hstep]
    refine ⟨?_, ?_, (ho.raise (by simp) _ _).setFld (by simp) _⟩
    · rw [fld_setFld_same]
      have hm' : m < 8 := hm
      interval_cases m <;> rfl
    · show v.evq ++ [ev 0x1406 [(1, 41)]] = _
      rw [hev, List.replicate_succ', List.append_assoc]

end

/-- With no way of the stack cache and a die other than M1, a lost die loses nothing else. -/
theorem loseDie_of_empty (hw : s.cache.ways = []) : loseDie s 2 = satAdd s F.SCH_LOST_LOST 0 := by
  unfold loseDie
  simp only [hw]
  rfl

/-- What a fence of the spine to M2 leaves. -/
theorem updateUnreach_of_spine (h : fld s F.STK_FENCED_LINKS = 2 ^ 41) (hb : fld s F.STK_UNREACH_BANDS = 0) (hd : fld s F.STK_UNREACH_DIES = 0)
    (hw : s.cache.ways = []) : fld (updateUnreach s 41) F.STK_UNREACH_BANDS = 0xFF ∧ fld (updateUnreach s 41) F.STK_UNREACH_DIES = 2
    ∧ (updateUnreach s 41).evq = s.evq ++ List.replicate 9 (ev 0x1406 [(1, 41)])
    ∧ Only [.evq] [F.STK_UNREACH_BANDS, F.STK_UNREACH_DIES, F.SCH_LOST_LOST] s (updateUnreach s 41) := by
  obtain ⟨hbits, hev, ho⟩ := bands_of_spine h hb 8 (le_refl 8)
  have hbands : forEach ([1, 2, 3].flatMap fun d => (List.range 8).map fun b => (d, b)) (bandStep 41) s =
      forEach ((List.range 8).map fun b => (1, b)) (bandStep 41) s := by
    have hrest : ∀ x ∈ [2, 3].flatMap fun d => (List.range 8).map fun b => (d, b),
        bandStep 41 (forEach ((List.range 8).map fun b => (1, b)) (bandStep 41) s) x =
          forEach ((List.range 8).map fun b => (1, b)) (bandStep 41) s := fun x hx => by
      obtain ⟨d, hd, hm⟩ := List.mem_flatMap.1 hx
      obtain ⟨b, hb, rfl⟩ := List.mem_map.1 hm
      exact bandStep_of_not_lost fun t ht => not_bandLost_of_spine ((ho.2 _ (by decide)).trans h) hd (List.mem_range.1 hb) ht
    rw [List.flatMap_cons, forEach, List.foldl_append]
    exact forEach_fixed hrest
  rw [updateUnreach_eq, hbands]
  generalize forEach ((List.range 8).map fun b => (1, b)) (bandStep 41) s = v at *
  have hfv : fld v F.STK_FENCED_LINKS = 2 ^ 41 := (ho.2 _ (by decide)).trans h
  have hdv : fld v F.STK_UNREACH_DIES = 0 := (ho.2 _ (by decide)).trans hd
  have hwv : v.cache.ways = [] := (congrArg Cache.ways (ho.1 .cache (by decide))).trans hw
  obtain ⟨y, hy⟩ : ∃ y, y = satAdd (setFld (raise v 0x1406 [(1, 41)]) F.STK_UNREACH_DIES 2) F.SCH_LOST_LOST 0 := ⟨_, rfl⟩
  have hoy : Only [.evq] [F.STK_UNREACH_BANDS, F.STK_UNREACH_DIES, F.SCH_LOST_LOST] s y :=
    hy ▸ (((ho.mono (List.Subset.refl _) (by simp)).raise (by simp) _ _).setFld (by simp) _).satAdd (by simp) _
  have hfy : fld y F.STK_FENCED_LINKS = 2 ^ 41 := (hoy.2 _ (by decide)).trans h
  have hdies : forEach [1, 2, 3] (dieStep 41) v = y := by
    have h1 : dieStep 41 v 1 = v := dieStep_of_not_lost (not_baseLost hfv (by decide))
    have h2 : dieStep 41 v 2 = y := by
      unfold dieStep
      rw [hdv, baseLost_of_spine hfv, if_pos (by decide), hy]
      exact loseDie_of_empty hwv
    have h3 : dieStep 41 y 3 = y := dieStep_of_not_lost (not_baseLost hfy (by decide))
    show dieStep 41 (dieStep 41 (dieStep 41 v 1) 2) 3 = y
    rw [h1, h2, h3]
  rw [hdies]
  refine ⟨?_, ?_, ?_, hoy⟩
  · rw [hy, fld_satAdd_ne _ (by decide), fld_setFld_ne _ (by decide), fld_raise, hbits]
    rfl
  · rw [hy, fld_satAdd_ne _ (by decide), fld_setFld_same]
    rfl
  · rw [hy]
    show v.evq ++ [ev 0x1406 [(1, 41)]] = _
    rw [hev, List.append_assoc, ← List.replicate_succ']

/-- A master of the base die has no path to M2 but the spine. -/
theorem pathStatus_of_spine (h : fld s F.STK_FENCED_LINKS = 2 ^ 41) {m : Nat} (hm : 0xA7 < m) : pathStatus s m 0x04000000 false = ST.decode := by
  have hband : masterBand m false = none := by
    rw [masterBand, if_neg (by omega), if_neg (by omega)]
  have hopen : openPaths s m 0x04000000 false = [] := by
    simp [openPaths, hband, basePaths, dieOfByte, spineOf, linkFenced_of h]
  simp only [pathStatus, hopen, List.isEmpty_nil, if_true]

/-! ### Start-up training -/

theorem trainLink_spec (s : State) (k : Nat) : lkState (trainLink s k) k = 1 ∧ flag (trainLink s k) (F.STK_Lk_STATUS_GUARD k) = false
    ∧ ((∀ i, i < 16 → sidState s k i = 0) → fld (trainLink s k) (F.STK_Lk_STATUS_FREE k) = 16)
    ∧ fld (trainLink s k) (F.STK_Lk_TRAINREC_IVCORE k) = fld s F.STK_IVCORE_CURRENT
    ∧ (∀ j, link (trainLink s k) j = link s j)
    ∧ Only [.free] (F.STK_Lk_STATUS_STATE k :: (countFlds k ++ [F.STK_Lk_TRAINREC_IVCORE k, F.STK_Lk_TRAINREC_TEMP k])) s (trainLink s k) := by
  have hl : lkState (setLkState s k kUP) k = 1 := lkState_setLkState_same ..
  have hg : flag (setLkState s k kUP) (F.STK_Lk_STATUS_GUARD k) = false := guard_setLkState ..
  have hfree : (∀ i, i < 16 → sidState s k i = 0) → fld (setLkState s k kUP) (F.STK_Lk_STATUS_FREE k) = 16 := fun h => by
    rw [setLkState, free_linkCounts]
    have hall : ((List.range 16).filter fun i => sidState (setFld s (F.STK_Lk_STATUS_STATE k) kUP) k i == sFREE) = List.range 16 :=
      List.filter_eq_self.2 fun i hi => by
        have hi' := List.mem_range.1 hi
        rw [sidState, fld_setFld_ne _ (by simp only [F.STK_Lk_SIDs_STATE, F.STK_Lk_STATUS_STATE]; omega)]
        exact beq_iff_eq.2 (h i hi')
    rw [hall]
    rfl
  have hlink : ∀ j, link (setLkState s k kUP) j = link s j := fun j => link_setLkState ..
  have ho : Only [] (F.STK_Lk_STATUS_STATE k :: countFlds k) s (setLkState s k kUP) := (Only.refl ..).setLkState (List.Subset.refl _) _
  have hcur : fld (setLkState s k kUP) F.STK_IVCORE_CURRENT = fld s F.STK_IVCORE_CURRENT := ho.2 _ (by
    simp [countFlds, F.STK_IVCORE_CURRENT, F.STK_Lk_STATUS_STATE, F.STK_Lk_STATUS_FREE, F.STK_Lk_STATUS_GUARD, F.STK_STATUS_RETRAINING]
    omega)
  have hor : Only [.free] [F.STK_Lk_TRAINREC_IVCORE k, F.STK_Lk_TRAINREC_TEMP k] (setLkState s k kUP) (trainRec (setLkState s k kUP) k) :=
    (Only.refl ..).trainRec (by simp) (List.Subset.refl _)
  have hlr : ∀ j, link (trainRec (setLkState s k kUP) k) j = link (setLkState s k kUP) j := fun j => link_trainRec ..
  have hiv : fld (trainRec (setLkState s k kUP) k) (F.STK_Lk_TRAINREC_IVCORE k) = fld (setLkState s k kUP) F.STK_IVCORE_CURRENT := by
    rw [trainRec, fld_setFld_ne _ (by simp only [F.STK_Lk_TRAINREC_IVCORE, F.STK_Lk_TRAINREC_TEMP]; omega), fld_setFld_same]
    exact Nat.mod_eq_of_lt (Nat.mod_lt _ (by decide))
  rw [show trainLink s k = trainRec (setLkState s k kUP) k from rfl]
  generalize setLkState s k kUP = w at *
  generalize trainRec w k = v at *
  have hkeep : ∀ f : Fld, f.key ≠ (F.STK_Lk_TRAINREC_IVCORE k).key → f.key ≠ (F.STK_Lk_TRAINREC_TEMP k).key → fld v f = fld w f :=
    fun f h1 h2 => hor.2 f (by simp [h1, h2])
  refine ⟨?_, ?_, fun h => ?_, hiv.trans hcur, fun j => (hlr j).trans (hlink j), ?_⟩
  · exact (hkeep _ (by simp only [F.STK_Lk_STATUS_STATE, F.STK_Lk_TRAINREC_IVCORE]; omega)
      (by simp only [F.STK_Lk_STATUS_STATE, F.STK_Lk_TRAINREC_TEMP]; omega)).trans hl
  · exact (flag_eq_of_fld (hkeep _ (by simp only [F.STK_Lk_STATUS_GUARD, F.STK_Lk_TRAINREC_IVCORE]; omega)
      (by simp only [F.STK_Lk_STATUS_GUARD, F.STK_Lk_TRAINREC_TEMP]; omega))).trans hg
  · exact (hkeep _ (by simp only [F.STK_Lk_STATUS_FREE, F.STK_Lk_TRAINREC_IVCORE]; omega)
      (by simp only [F.STK_Lk_STATUS_FREE, F.STK_Lk_TRAINREC_TEMP]; omega)).trans (hfree h)
  · exact (ho.mono (by simp) (by simp)).trans (hor.mono (List.Subset.refl _) (by simp))

theorem forEach_nil {α : Type} (f : State → α → State) (s : State) : forEach [] f s = s := rfl

/-- Link k is UP with every siding FREE and its conditions recorded. -/
def Trained (cur : Nat) (s : State) (k : Nat) : Prop :=
  lkState s k = 1 ∧ fld s (F.STK_Lk_STATUS_FREE k) = 16 ∧ flag s (F.STK_Lk_STATUS_GUARD k) = false ∧ fld s (F.STK_Lk_TRAINREC_IVCORE k) = cur

theorem Trained.congr {cur : Nat} (h : Trained cur s k) (hf : ∀ f ∈ [F.STK_Lk_STATUS_STATE k, F.STK_Lk_STATUS_FREE k, F.STK_Lk_STATUS_GUARD k,
    F.STK_Lk_TRAINREC_IVCORE k], fld u f = fld s f) : Trained cur u k := by
  simp only [List.forall_mem_cons] at hf
  obtain ⟨hl, hfree, hg, hiv, -⟩ := hf
  obtain ⟨h1, h2, h3, h4⟩ := h
  exact ⟨hl.trans h1, hfree.trans h2, (flag_eq_of_fld hg).trans h3, hiv.trans h4⟩

theorem trainLinks_spec (hsid : ∀ k, k < 43 → ∀ i, i < 16 → sidState s k i = 0) (m : Nat) (hm : m ≤ 43) :
    (∀ k, k < m → Trained (fld s F.STK_IVCORE_CURRENT) (forEach (List.range m) trainLink s) k)
    ∧ (∀ k, k < 43 → ∀ i, i < 16 → sidState (forEach (List.range m) trainLink s) k i = 0)
    ∧ fld (forEach (List.range m) trainLink s) F.STK_IVCORE_CURRENT = fld s F.STK_IVCORE_CURRENT
    ∧ (∀ j, link (forEach (List.range m) trainLink s) j = link s j)
    ∧ OnlyParts [.regs, .free] s (forEach (List.range m) trainLink s) := by
  induction m with
  | zero => exact ⟨fun k hk => absurd hk (Nat.not_lt_zero k), hsid, rfl, fun _ => rfl, OnlyParts.refl _ _⟩
  | succ m ih =>
    obtain ⟨htr, hs, hcur, hlink, ho⟩ := ih (by omega)
    have hsucc : forEach (List.range (m + 1)) trainLink s = trainLink (forEach (List.range m) trainLink s) m := by
      rw [List.range_succ, forEach, List.foldl_append]
      rfl
    rw [hsucc]
    generalize forEach (List.range m) trainLink s = w at *
    obtain ⟨hl, hg, hfree, hiv, hlk, how⟩ := trainLink_spec w m
    generalize trainLink w m = v at *
    have hstk : Only [.free] (stkFlds m 0) w v := how.mono (List.Subset.refl _) (by
      intro f hf
      simp only [countFlds, stkFlds, linkFlds, List.mem_append, List.mem_cons, List.not_mem_nil, or_false] at hf ⊢
      tauto)
    have hsidv : ∀ k, k < 43 → ∀ i, i < 16 → sidState v k i = 0 := fun k hk i hi => (how.2 _ (by
      simp [countFlds, F.STK_Lk_SIDs_STATE, F.STK_Lk_STATUS_STATE, F.STK_Lk_STATUS_FREE, F.STK_Lk_STATUS_GUARD, F.STK_STATUS_RETRAINING,
        F.STK_Lk_TRAINREC_IVCORE, F.STK_Lk_TRAINREC_TEMP]
      omega)).trans (hs k hk i hi)
    refine ⟨fun k hk => ?_, hsidv, (ivcore_of_stkFlds hstk (by decide)).trans hcur, fun j => (hlk j).trans (hlink j), ho.trans (how.1.mono (by simp))⟩
    by_cases hkm : k = m
    · subst hkm
      exact ⟨hl, hfree (hs k (by omega)), hg, hiv.trans hcur⟩
    · refine (htr k (by omega)).congr fun f hf => fld_of_stkFlds hstk (by decide) ?_ ?_ <;>
        simp only [List.mem_cons, List.not_mem_nil, or_false] at hf <;> rcases hf with h | h | h | h <;> subst h <;>
        simp only [F.STK_Lk_STATUS_STATE, F.STK_Lk_STATUS_FREE, F.STK_Lk_STATUS_GUARD, F.STK_Lk_TRAINREC_IVCORE, F.STK_STATUS_RETRAINING] <;> omega

end Sys2Proof.Machine
end

section
open Sys2Proof Sys2Proof.Machine

/-- Settles O42: a retrain's steps by `stepped_spec`, `dropped_spec` and `retrainStart_spec`, sidings by `sidingFailed_spec`, fences by
`fencedCounted_spec`, and the start-up training link by link. -/
theorem linksTrainAndFence : Obligations.LinksTrainAndFence := by
  unfold Obligations.LinksTrainAndFence
  refine ⟨?trained, ?again, ?begins, ?refused, ?first, ?position, ?ends, ?anew, ?stopped, ?kept, ?notRetraining, ?takes, ?tries, ?erases, ?noSiding,
    ?fence, ?spine, ?fenced, ?disable, ?disabled⟩
  case trained =>
    intro s hq ht hfused hsid
    have htrim : ∀ f, fld (trimAll s) f = fld s f := fld_congr rfl
    have hlinks : ∀ j, link (trimAll s) j = link s j := fun j => rfl
    have hot : OnlyParts [.stk, .free] s (trimAll s) :=
      OnlyParts.trans ((onlyParts_drawn s).mono (by simp)) ((onlyParts_setStk (drawn s) _).mono (by simp))
    have hnofuse : forEach (s.bst.fused.filter fun r => bits r 0 3 == 3) fuseSiding (trimAll s) = trimAll s := by
      rw [hfused, List.filter_nil, forEach_nil]
    have hend : startupTraining s [] = setFld (forEach (List.range 43) trainLink (trimAll s)) F.STK_STATUS_TRAINED 1 := by
      refine (if_neg (by rw [ht]; decide)).trans ?_
      rw [hnofuse]
      simp only [forEach_nil]
    obtain ⟨htr, -, -, hlk, ho⟩ := trainLinks_spec (s := trimAll s) (fun k hk i hi => (htrim _).trans (hsid k hk i hi)) 43 (le_refl 43)
    rw [htrim] at htr
    generalize trimAll s = t at *
    generalize forEach (List.range 43) trainLink t = w at *
    have hall : OnlyParts [.regs, .stk, .free] s (setFld w F.STK_STATUS_TRAINED 1) :=
      (hot.mono (by simp)).trans ((ho.mono (by simp)).trans ((onlyParts_setFld w F.STK_STATUS_TRAINED 1).mono (by simp)))
    refine completes_eq_quiet rfl hend ((hall .evq (by decide)).trans hq) ⟨flag_b2n w F.STK_STATUS_TRAINED rfl true, fun k hk => ?_, hall⟩
    obtain ⟨h1, h2, h3, h4⟩ := (htr k hk).congr (u := setFld w F.STK_STATUS_TRAINED 1) fun f hf => fld_setFld_ne _ (by
      simp only [List.mem_cons, List.not_mem_nil, or_false] at hf
      rcases hf with h | h | h | h <;> subst h <;>
        simp only [F.STK_Lk_STATUS_STATE, F.STK_Lk_STATUS_FREE, F.STK_Lk_STATUS_GUARD, F.STK_Lk_TRAINREC_IVCORE, F.STK_STATUS_TRAINED] <;> omega) _
    exact ⟨h1, h2, h3, h4, (link_setFld ..).trans ((hlk k).trans (hlinks k))⟩
  case again => exact fun f s hq ht => completes_eq_quiet rfl (if_pos ht) hq rfl
  case begins =>
    intro k i s hq hstate hfree hon hcount hspare hdie
    have hi := freeSiding_lt hfree
    have hset : Only [.stk] (linkFlds k ++ sidFlds k i) s (setFld s (F.STK_Lk_CTRL_RETRAIN k) 1) := (Only.refl ..).setFld (by simp [linkFlds]) _
    have hr : flag (setFld s (F.STK_Lk_CTRL_RETRAIN k) 1) (F.STK_Lk_CTRL_RETRAIN k) = true := flag_b2n s (F.STK_Lk_CTRL_RETRAIN k) rfl true
    obtain ⟨hl, hsid, hguard, hlink, hother, ho⟩ := retrainStart_spec (i := i) (setFld s (F.STK_Lk_CTRL_RETRAIN k) 1) k
    have hkeep : fld (retrainStart (setFld s (F.STK_Lk_CTRL_RETRAIN k) 1) k i) (F.STK_Lk_CTRL_RETRAIN k) = _ := ho.2 _ (by
      simp [countFlds, sidFlds, F.STK_Lk_STATUS_STATE, F.STK_Lk_STATUS_FREE, F.STK_Lk_STATUS_GUARD, F.STK_STATUS_RETRAINING,
        F.STK_Lk_CTRL_RETRAIN, F.STK_Lk_SIDs_STATE, F.STK_Lk_SIDs_LANE]
      omega)
    have hall := hset.trans (ho.mono (qs := [.stk]) (gs := linkFlds k ++ sidFlds k i) (by simp) (by simp [linkFlds, countFlds, sidFlds]))
    have hsub : Only [.stk] (stkFlds k i) s (setFld s (F.STK_Lk_CTRL_RETRAIN k) 1) := hset.mono (by simp) (by simp [stkFlds])
    rw [ivcore_of_stkFlds hsub hi, linkTemp_of_stkFlds hsub hi k.isLt] at hlink
    exact completes_eq_quiet rfl (linkRetrain_eq hstate hfree hon hcount hspare hdie) ((hall.evq (by decide)).trans hq)
      ⟨hl, hsid, hguard, (flag_eq_of_fld hkeep).trans hr, hlink, hother, hall⟩
  case refused =>
    intro k s hq h
    have hno : ¬((lkState s k = kUP ∨ lkState s k = kGUARD) ∧ (freeSiding s k).isSome = true ∧ stkOn s = true) := by
      rintro ⟨hl, hf, hon⟩
      rcases h with h | h | ⟨h1, h2⟩
      · rw [h] at hf
        exact absurd hf (by decide)
      · rw [h] at hon
        exact absurd hon (by decide)
      · exact hl.elim h1 h2
    exact completes_eq_quiet rfl (if_neg hno) hq rfl
  case first =>
    intro k i s h hon
    obtain ⟨hq, -, -, -, -, hi, -⟩ := id h
    obtain ⟨hlink, hother, hlane, -, hsid, ho⟩ := stepped_spec (s := trimmed s k i 0) (k := k) (i := i) (n := 0) (by decide)
    have hall := ((only_trimmed s k i 0).mono (by simp) (by simp)).trans (ho.mono (qs := [.stk, .free]) (by simp) (List.Subset.refl _))
    have hev := hall.evq (by decide)
    rw [link_trimmed] at hlink
    refine completes_eq_quiet rfl (retrainStep_first h rfl hon) (hev.trans hq) ⟨hlink, fun j hj => (hother j hj).trans (link_trimmed ..), hlane, hsid, hall⟩
  case position =>
    intro k i n s h hon hpos hlast
    obtain ⟨hq, -, -, -, -, hi, -⟩ := id h
    obtain ⟨hlink, hother, hlane, hsl, hsid, ho⟩ := stepped_spec (s := trimmed s k i n) (k := k) (i := i) (n := n) (by omega)
    have hall := ((only_trimmed s k i n).mono (by simp) (by simp)).trans (ho.mono (qs := [.stk, .free]) (by simp) (List.Subset.refl _))
    have hev := hall.evq (by decide)
    rw [link_trimmed] at hlink
    refine completes_eq_quiet rfl (retrainStep_position h hpos hlast hon) (hev.trans hq)
      ⟨hlink, fun j hj => (hother j hj).trans (link_trimmed ..), hlane, hsl, hsid, hall⟩
  case ends =>
    intro k i s h hon hcond hothers
    obtain ⟨hq, -, hc, -, -, hi, -⟩ := id h
    obtain ⟨hcount, hcur, hlink, hsid, hox⟩ := retrainLast_spec h
    have hend := (retrainStep_last h rfl hon).trans (retrainEnd_eq ..)
    rw [condOut_trimmed h k.isLt, hcond, if_neg (by decide)] at hend
    generalize retrainCounted (trimmed s k i 560) k = x at *
    obtain ⟨hl, hs, hr, hg, hlk, -, ho⟩ := dropped_spec hi (show (link x k).carrier = some i from (hlink k) ▸ hc) kUP
    have hall : Only [.stk, .free] (endFlds k i) s (setLkState (dropCarrier x k) k kUP) :=
      (hox.mono (List.Subset.refl _) (by simp [endFlds])).trans (ho.mono (by simp) (by simp [endFlds]))
    have hkeep : ∀ f : Fld, f ∈ recordFlds k → fld (setLkState (dropCarrier x k) k kUP) f = fld x f := fun f hf => ho.2 f (by
      simp only [recordFlds, List.mem_cons, List.not_mem_nil, or_false] at hf
      rcases hf with h | h | h <;> subst h <;>
        simp [linkFlds, sidFlds, F.STK_Lk_STATUS_STATE, F.STK_Lk_STATUS_FREE, F.STK_Lk_STATUS_GUARD, F.STK_STATUS_RETRAINING,
          F.STK_Lk_CTRL_RETRAIN, F.STK_Lk_STATUS_RETRAIN_LANE, F.STK_Lk_SIDs_STATE, F.STK_Lk_SIDs_LANE, F.STK_Lk_RETRAINS_RETRAINS,
          F.STK_Lk_TRAINREC_IVCORE, F.STK_Lk_TRAINREC_TEMP] <;> omega)
    generalize setLkState (dropCarrier x k) k kUP = v at *
    have hnone : NoneWaits (raise v 0x1405 [(1, k)]) := noneWaits_of_others (ps := [.stk, .free, .evq])
      ((hall.mono (by simp) (endFlds_subset _ _)).raise (by simp) _ _) hi hothers (ne_of_eq_of_ne hl (by decide)) hr
    refine completes_eq rfl (hend.trans (guardAll_of_noneWaits hnone)) ?_ ⟨hl, hs.trans (if_pos hsid), hg, hr, ?_, ?_, ?_, ?_⟩
    · exact congrArg (· ++ [ev 0x1405 [(1, k)]]) ((hall.evq (by decide)).trans hq)
    · exact (congrArg Link.carrier hlk :)
    · exact (hkeep _ (by simp [recordFlds])).trans hcount
    · exact (hkeep _ (by simp [recordFlds])).trans hcur
    · exact ((hall.mono (qs := [.evq, .stk, .free]) (by simp) (List.Subset.refl _)).raise (by simp) _ _).hush hq
  case anew =>
    intro k i s h hon hcond
    obtain ⟨hq, -, hc, -, -, hi, -⟩ := id h
    obtain ⟨hcount, -, hlink, -, hox⟩ := retrainLast_spec h
    have hend := (retrainStep_last h rfl hon).trans (retrainEnd_eq ..)
    rw [condOut_trimmed h k.isLt, hcond, if_pos rfl] at hend
    generalize retrainCounted (trimmed s k i 560) k = x at *
    obtain ⟨-, -, -, -, -, ho⟩ := dropCarrier_spec x k hi (show (link x k).carrier = some i from (hlink k) ▸ hc)
    have hoe : Only [.stk, .free] (endFlds k i) s (dropCarrier x k) :=
      (hox.mono (List.Subset.refl _) (by simp [endFlds])).trans (ho.mono (by simp) (by simp [endFlds, linkFlds, countFlds, sidFlds]))
    have hkeep : fld (dropCarrier x k) (F.STK_Lk_RETRAINS_RETRAINS k) = fld x (F.STK_Lk_RETRAINS_RETRAINS k) := ho.2 _ (by
      simp [countFlds, sidFlds, F.STK_Lk_STATUS_FREE, F.STK_Lk_STATUS_GUARD, F.STK_STATUS_RETRAINING,
          F.STK_Lk_CTRL_RETRAIN, F.STK_Lk_STATUS_RETRAIN_LANE, F.STK_Lk_SIDs_STATE, F.STK_Lk_SIDs_LANE, F.STK_Lk_RETRAINS_RETRAINS]
      omega)
    generalize dropCarrier x k = y at *
    obtain ⟨hl, hs, -, hlk, -, hor⟩ := retrainStart_spec (i := i) y k
    have hkeep' : fld (retrainStart y k i) (F.STK_Lk_RETRAINS_RETRAINS k) = fld y (F.STK_Lk_RETRAINS_RETRAINS k) := hor.2 _ (by
      simp [countFlds, sidFlds, F.STK_Lk_STATUS_STATE, F.STK_Lk_STATUS_FREE, F.STK_Lk_STATUS_GUARD, F.STK_STATUS_RETRAINING,
          F.STK_Lk_SIDs_STATE, F.STK_Lk_SIDs_LANE, F.STK_Lk_RETRAINS_RETRAINS]
      omega)
    have hall : Only [.stk, .free] (endFlds k i) s (retrainStart y k i) :=
      hoe.trans (hor.mono (by simp) (by simp [endFlds, linkFlds, countFlds, sidFlds]))
    generalize retrainStart y k i = v at *
    refine completes_eq_quiet rfl hend ((hall.evq (by decide)).trans hq) ⟨hl, hs, ?_, ?_, ?_, ?_, hall⟩
    · exact (congrArg Link.carrier hlk :)
    · exact (congrArg Link.stage hlk :)
    · exact (congrArg Link.startI hlk).trans (ivcore_of_stkFlds (hoe.mono (List.Subset.refl _) (endFlds_subset _ _)) hi)
    · exact (hkeep'.trans hkeep).trans hcount
  case stopped =>
    intro k i n s h hoff hn hlast
    obtain ⟨hq, -, hc, -, -, hi, hsid⟩ := id h
    obtain ⟨w, hw, how, hlink⟩ : ∃ w, w = (if n = 0 then s else trimmed s k i n) ∧ Only [.stk, .free] [] s w ∧ link w k = link s k := by
      refine ⟨_, rfl, (Only.refl ..).ite (only_trimmed ..), ?_⟩
      split
      exacts [rfl, link_trimmed ..]
    have hend := retrainStep_stopped h hoff
    rw [← hw] at hend
    have hsw : sidState w k i = 3 := (how.2 _ (by simp)).trans hsid
    obtain ⟨hl, hs, -, -, hlk, -, ho⟩ := dropped_spec hi (show (link w k).carrier = some i from hlink ▸ hc) kGUARD
    have hall := (how.mono (by simp) (by simp)).trans (ho.mono (qs := [.stk, .free]) (by simp) (List.Subset.refl _))
    refine completes_eq_quiet rfl hend ((hall.evq (by decide)).trans hq) ⟨hl, hs.trans (if_pos hsw), by rw [hlk], hall⟩
  case kept =>
    intro k i j n s h hn hoff hcar hfresh hj hne hfree hothers
    obtain ⟨hq, hl, hc, hstage, -, hi, -⟩ := id h
    have hfail := laneFail_kept (s := s) (k := k) (i := i) (n := n) hl hcar hfresh hc hstage
    have hend := (retrainStep_fails h (by omega)).trans hfail
    obtain ⟨-, hsid, hlane, hsids, hlink, hother, hlast, hev, hox⟩ := laneGiven_spec s k i n hi
    generalize laneGiven s k i n = y at *
    have hplain : ∀ m, (link y k).carrier = some m → sidState y k m ≠ 3 := fun m hm => by
      have hmi : m = i := Option.some.inj ((hm.symm.trans (by rw [hlink])).trans hc)
      rw [hmi, hsid]
      decide
    obtain ⟨-, hr, hlk, hothers', hod⟩ := droppedPlain_spec hplain
    have hset : Only [] (F.STK_Lk_STATUS_STATE k :: countFlds k) (dropCarrier y k) (setLkState (dropCarrier y k) k kGUARD) :=
      (Only.refl ..).setLkState (List.Subset.refl _) _
    have hlv : lkState (setLkState (dropCarrier y k) k kGUARD) k = 2 := lkState_setLkState_same ..
    have hlkv := (link_setLkState (dropCarrier y k) k kGUARD k).trans hlk
    have hov : Only [.stk] (linkFlds k) y (setLkState (dropCarrier y k) k kGUARD) :=
      (hod.mono (List.Subset.refl _) (by simp [linkFlds])).trans (hset.mono (by simp) (by simp [linkFlds, countFlds]))
    generalize setLkState (dropCarrier y k) k kGUARD = v at *
    have hall : Only [.evq, .stk] (linkFlds k ++ sidFlds k i ++ lastFlds k) s v :=
      (hox.mono (by simp) (givenFlds_subset ..)).trans (hov.mono (by simp) (by simp))
    have hsub : Only [.evq, .stk] (stkFlds k i) s v := hall.mono (List.Subset.refl _) (keptFlds_subset ..)
    have hkeep : ∀ f ∈ sidFlds k i ++ lastFlds k, fld v f = fld y f := fun f hf => hov.2 f (not_linkFld hi hf)
    have hsidsv : ∀ m, m < 16 → sidState v k m = sidState y k m := fun m hm =>
      hov.2 _ (not_linkFld (i := m) hm (by simp [sidFlds]))
    have hsome : (freeSiding v k).isSome = true := by
      refine List.find?_isSome.2 ⟨j, List.mem_range.2 hj, ?_⟩
      have hspare : (link v k).spare = (link s k).spare := by simp only [hlkv, hlink]
      rw [sidFree, hsidsv j hj, hsids j hj hne, hspare]
      exact hfree
    have hidle : guardAll v = v := forEach_fixed fun m hm => by
      by_cases hmk : m = k.val
      · rw [hmk]
        exact guardOne_of_off ((stkOn_of_stkFlds hsub hi).trans hoff) hsome
      · obtain ⟨h1, h2⟩ := hothers m (List.mem_range.1 hm) hmk
        exact guardOne_of_idle (by rw [lkState_of_stkFlds hsub hi hmk]; exact h1) ((retrain_of_stkFlds hsub hi hmk).trans h2)
    have hevv : v.evq = [ev 0x1401 [(1, k), (2, n), (1, i)]] := by rw [hov.evq (by decide), hev, hq, List.nil_append]
    refine completes_eq rfl (hend.trans hidle) hevv ⟨hlv, ?_, ?_, ?_, ?_, fun hv => ⟨?_, ?_⟩, hall.hush hq⟩
    · exact (hsidsv i hi).trans hsid
    · exact (hkeep _ (by simp [sidFlds])).trans (hlane.trans (Nat.mod_eq_of_lt (by omega)))
    · simp only [link_hush, hlkv, hlink]
    · exact (congrArg Link.carrier hlkv :)
    · exact (hkeep _ (by simp [lastFlds])).trans (hlast hv (by omega)).1
    · exact (hkeep _ (by simp [lastFlds])).trans (hlast hv (by omega)).2
  case notRetraining =>
    intro k ok s hq hc
    refine completes_eq_quiet rfl ?_ hq rfl
    unfold retrainStep
    simp only [hc]
  case takes =>
    intro k lane i s hq hnone hs hqueue hlane hi
    have hw : Only [.stk, .free] [] s (trimLane (setLink s k { link s k with spare := none }) k (560 + i)) :=
      ((Only.refl ..).setLink (by simp) _ _).trimLane (by simp) (by simp) _ _
    have hlk : ∀ j, link (trimLane (setLink s k { link s k with spare := none }) k (560 + i)) j =
        link (setLink s k { link s k with spare := none }) j := fun j => link_trimLane ..
    have hend := sidingSwitch_taken hs
    generalize trimLane (setLink s k { link s k with spare := none }) k (560 + i) = w at *
    have hsid : sidState (setSid w k i sIN_USE lane) k i = 1 := sidState_setSid_same ..
    have hsl := sidLane_setSid_same (i := i) w k sIN_USE lane
    have hlz : ∀ j, link (setSid w k i sIN_USE lane) j = link w j := fun j => link_setSid ..
    have hall : Only [.stk, .free] (countFlds k ++ sidFlds k i) s (setSid w k i sIN_USE lane) :=
      (hw.mono (List.Subset.refl _) (by simp)).trans ((Only.refl ..).setSid (List.Subset.refl _) _ _)
    rw [spareLane] at hend
    generalize setSid w k i sIN_USE lane = z at *
    have hlink : link (raise z 0x1401 [(1, k), (2, lane), (1, i)]) k = { link s k with spare := none } := by
      rw [link_raise, hlz, hlk, link_setLink_same]
    rw [spareNext_of_empty (by rw [hlink]) (by rw [hlink]; exact hqueue), guardAll_of_noneWaits] at hend
    · refine completes_eq rfl hend ?_ ⟨hsid, hsl.trans (Nat.mod_eq_of_lt (by omega)), hlink, fun j hj => ?_, ?_⟩
      · exact congrArg (· ++ [ev 0x1401 [(1, k), (2, lane), (1, i)]]) ((hall.evq (by decide)).trans hq)
      · exact (hlz j).trans ((hlk j).trans (link_setLink_ne _ hj _))
      · exact ((hall.mono (qs := [.evq, .stk, .free]) (by simp) (List.Subset.refl _)).raise (by simp) _ _).hush hq
    · exact waits_of_sparedFlds (k := k) (ps := [.evq, .stk, .free]) ((hall.mono (by simp) (by simp [sparedFlds])).raise (by simp) _ _) hi hnone
  case tries =>
    intro k lane i j s hq hnone hs hi hlow hj hne hjlt
    obtain ⟨hsid, hsids, hlink, hlast, hev, ho⟩ := sidingFailed_spec s k lane hi
    have hend := sidingSwitch_failed hs
    generalize sidingFailed s k i lane = y at *
    have hfree : freeSiding y k = some j := freeSiding_eq_some (by rw [hlink]) hjlt ((hsids j hjlt hne).trans hj) fun m hm h0 => by
      have hmi : m ≠ i := fun h => by
        rw [h, hsid] at h0
        exact absurd h0 (by decide)
      exact (hlow m hm) ⟨(hsids m hm hmi).symm.trans h0, hmi⟩
    rw [spareNext_trains (by rw [hlink]) (by rw [hlink]) hfree, guardAll_of_noneWaits] at hend
    · refine completes_eq rfl hend (hev.trans (by rw [hq]; rfl)) ⟨hsid, ?_, ?_, hlast, ?_⟩
      · rw [link_hush, link_setLink_same]
      · rw [link_hush, link_setLink_same]
      · exact ((ho.mono (qs := [.evq, .stk]) (by simp) (List.Subset.refl _)).setLink (by simp) _ _).hush hq
    · exact waits_of_sparedFlds (k := k) (ho.setLink (by simp) _ _) hi hnone
  case erases =>
    intro k lane i s hq hnone hs hqueue hi hlane hnosid hera
    obtain ⟨hsid, hsids, hlink, -, hev, ho⟩ := sidingFailed_spec s k lane hi
    have hend := sidingSwitch_failed hs
    generalize sidingFailed s k i lane = y at *
    have hfree : freeSiding y k = none := freeSiding_eq_none fun m hm => by
      by_cases hmi : m = i
      · rw [hmi, hsid]
        decide
      · rw [hsids m hm hmi]
        exact hnosid m hm hmi
    rw [spareNext_erases (by rw [hlink]) (by rw [hlink]) hfree] at hend
    have how : Only [.stk, .evq] (sparedFlds k i) s (setLink y k { link y k with queue := (link s k).queue }) := ho.setLink (by simp) _ _
    have hlw : link (setLink y k { link y k with queue := (link s k).queue }) k = { link y k with queue := (link s k).queue } := link_setLink_same ..
    have hevw := (evq_setLink y k { link y k with queue := (link s k).queue }).trans hev
    have hsw : sidState (setLink y k { link y k with queue := (link s k).queue }) k i = 2 := (fld_setLink ..).trans hsid
    generalize setLink y k { link y k with queue := (link s k).queue } = w at *
    have hew : flag w (F.STK_Lk_STATUS_ERASED k) = false := (flag_eq_of_fld (how.2 _ (by
      simp [sparedFlds, countFlds, lastFlds, sidFlds, F.STK_Lk_STATUS_ERASED, F.STK_Lk_STATUS_FREE, F.STK_Lk_STATUS_GUARD,
        F.STK_STATUS_RETRAINING, F.STK_Lk_SIDs_STATE, F.STK_Lk_SIDs_LANE, F.STK_Lk_LASTFAIL_LANE, F.STK_Lk_LASTFAIL_CAUSE,
        F.STK_Lk_LASTFAIL_VALID]
      omega))).trans hera
    obtain ⟨her, hbyte, hle, heve, hoe⟩ := eraseLane_spec (lane := lane) hew (by omega)
    generalize eraseLane w k lane = z at *
    have hlz : link z k = { link s k with spare := none, queue := [] } := by
      rw [hle, hlw, hlink, hqueue]
    have hall : Only [.stk, .evq] (sparedFlds k i ++ erasedFlds k) s z :=
      (how.mono (List.Subset.refl _) (by simp)).trans (hoe.mono (by simp) (by simp))
    rw [spareNext_of_empty (by rw [hlz]) (by rw [hlz]), guardAll_of_noneWaits] at hend
    · refine completes_eq rfl hend (by rw [heve, hevw, hq]; rfl) ⟨?_, ?_, her, hbyte, ?_⟩
      · refine ((fld_hush ..).trans (hoe.2 _ ?_)).trans hsw
        simp [erasedFlds, F.STK_Lk_STATUS_ERASED, F.STK_Lk_STATUS_ERASED_BYTE, F.STK_Lk_SIDs_STATE]
        omega
      · rw [link_hush, hlz]
      · exact (hall.mono (qs := [.evq, .stk]) (by simp) (erasingFlds_subset ..)).hush hq
    · refine noneWaits_of_fields hall hi hnone
  case noSiding =>
    intro k ok s hq hs
    refine completes_eq_quiet rfl ?_ hq rfl
    simp only [sidingSwitch, hs]
  case fence =>
    intro k s hq hk hl hf hc
    have hset : Only [.stk] (F.STK_Lk_CTRL_FENCE k :: F.STK_FENCED_LINKS :: F.STK_STATUS_FENCED :: linkFlds k) s (setFld s (F.STK_Lk_CTRL_FENCE k) 1) :=
      (Only.refl ..).setFld (by simp) _
    have hflag : flag (setFld s (F.STK_Lk_CTRL_FENCE k) 1) (F.STK_Lk_CTRL_FENCE k) = true := flag_b2n s (F.STK_Lk_CTRL_FENCE k) rfl true
    have hread : ∀ f : Fld, f.key ≠ (F.STK_Lk_CTRL_FENCE k).key → fld (setFld s (F.STK_Lk_CTRL_FENCE k) 1) f = fld s f :=
      fun f hf => fld_setFld_ne _ hf _
    have hlt : link (setFld s (F.STK_Lk_CTRL_FENCE k) 1) = link s := funext fun j => link_setFld ..
    have hend : exec (.linkFence k) s = done (fence (setFld s (F.STK_Lk_CTRL_FENCE k) 1) k 1) := rfl
    generalize setFld s (F.STK_Lk_CTRL_FENCE k) 1 = t at *
    have hlk : lkState t k ≠ 4 := by
      rw [lkState, hread _ (by simp only [F.STK_Lk_STATUS_STATE, F.STK_Lk_CTRL_FENCE]; omega)]
      exact hl
    obtain ⟨hlw, hfw, hnw, hlinkw, hotherw, how⟩ := fencedCounted_spec (s := t) k.isLt
      ((hread _ (by simp only [F.STK_FENCED_LINKS, F.STK_Lk_CTRL_FENCE]; omega)).trans hf) (by rw [hlt]; exact hc)
    have hall := hset.trans (how.mono (List.Subset.refl _) (by simp))
    have hkeep : fld (fencedCounted t k) (F.STK_Lk_CTRL_FENCE k) = fld t (F.STK_Lk_CTRL_FENCE k) := how.2 _ (by
      simp [linkFlds, F.STK_FENCED_LINKS, F.STK_STATUS_FENCED, F.STK_Lk_CTRL_FENCE, F.STK_Lk_STATUS_STATE, F.STK_Lk_STATUS_FREE, F.STK_Lk_STATUS_GUARD,
        F.STK_STATUS_RETRAINING, F.STK_Lk_CTRL_RETRAIN, F.STK_Lk_STATUS_RETRAIN_LANE]
      omega)
    rw [fence_eq hlk] at hend
    generalize fencedCounted t k = w at *
    rw [updateUnreach_of_band (s := raise w 0x1403 [(1, k), (1, 1)]) (k := k) hfw hk] at hend
    refine completes_eq hend rfl ?_ ⟨hlw, hfw, hnw, (flag_eq_of_fld hkeep).trans hflag, ?_, ?_, fun j hj => ?_, ?_⟩
    · exact congrArg (· ++ [ev 0x1403 [(1, k), (1, 1)]]) ((hall.evq (by decide)).trans hq)
    · rw [link_hush, link_raise, hlinkw]
    · rw [link_hush, link_raise, hlinkw]
    · rw [link_hush, link_raise, hotherw j hj, hlt]
    · exact ((hall.mono (qs := [.evq, .stk]) (by simp) (by simp)).raise (by simp) _ _).hush hq
  case spine =>
    intro s hq hl hf hc hw hb hd
    have hset : Only [] [F.STK_Lk_CTRL_FENCE 41] s (setFld s (F.STK_Lk_CTRL_FENCE 41) 1) := (Only.refl ..).setFld (by simp) _
    have hlt : link (setFld s (F.STK_Lk_CTRL_FENCE 41) 1) 41 = link s 41 := link_setFld ..
    have hend : exec (.linkFence 41) s = done (fence (setFld s (F.STK_Lk_CTRL_FENCE 41) 1) 41 1) := rfl
    generalize setFld s (F.STK_Lk_CTRL_FENCE 41) 1 = t at *
    obtain ⟨hlw, hfw, -, -, -, how⟩ := fencedCounted_spec (s := t) (k := 41) (by decide) ((hset.2 _ (by decide)).trans hf) (by rw [hlt]; exact hc)
    rw [fence_eq (show lkState t 41 ≠ 4 by rw [lkState, hset.2 _ (by decide)]; exact hl)] at hend
    generalize fencedCounted t 41 = w at *
    have hsw := (hset.mono (qs := [.stk, .evq]) (gs := F.STK_Lk_CTRL_FENCE 41 :: F.STK_FENCED_LINKS :: F.STK_STATUS_FENCED :: linkFlds 41)
      (by simp) (by simp)).trans (how.mono (by simp) (by simp))
    have hsz := hsw.raise (by simp) 0x1403 [(1, 41), (1, 1)]
    have hlz : lkState (raise w 0x1403 [(1, 41), (1, 1)]) 41 = 4 := hlw
    have hfz : fld (raise w 0x1403 [(1, 41), (1, 1)]) F.STK_FENCED_LINKS = 2 ^ 41 := hfw
    have hez : (raise w 0x1403 [(1, 41), (1, 1)]).evq = [ev 0x1403 [(1, 41), (1, 1)]] :=
      congrArg (· ++ [ev 0x1403 [(1, 41), (1, 1)]]) ((how.evq (by decide)).trans ((hset.evq (by decide)).trans hq))
    generalize raise w 0x1403 [(1, 41), (1, 1)] = z at *
    obtain ⟨hbu, hdu, heu, hou⟩ := updateUnreach_of_spine hfz ((hsz.2 _ (by decide)).trans hb) ((hsz.2 _ (by decide)).trans hd)
      ((congrArg Cache.ways (hsz.1 .cache (by decide))).trans hw)
    generalize updateUnreach z 41 = u at *
    have hall : OnlyParts [.evq, .stk, .regs] s u := (hsz.1.mono (by simp)).trans (hou.1.mono (by simp))
    refine completes_eq hend rfl (by rw [heu, hez]; rfl) ⟨?_, hbu, hdu, fun m _ _ _ hm => ?_, hall.hush hq⟩
    · exact (hou.2 _ (by decide)).trans hlz
    · exact pathStatus_of_spine ((fld_hush ..).trans ((hou.2 _ (by decide)).trans hfz)) hm
  case fenced =>
    intro k s hq hl
    have hset : Only [] [F.STK_Lk_CTRL_FENCE k] s (setFld s (F.STK_Lk_CTRL_FENCE k) 1) := (Only.refl ..).setFld (by simp) _
    have hl' : lkState (setFld s (F.STK_Lk_CTRL_FENCE k) 1) k = kFENCED := (hset.2 _ (by
      simp only [F.STK_Lk_STATUS_STATE, F.STK_Lk_CTRL_FENCE, List.map_cons, List.map_nil, List.mem_singleton]
      omega)).trans hl
    exact completes_eq_quiet rfl (if_pos hl') hq ⟨flag_b2n s (F.STK_Lk_CTRL_FENCE k) rfl true, hset.1, hset.2⟩
  case disable =>
    intro s hq hen
    have hon : ¬ (!flag s F.STK_CTRL_ENABLE) = true := by rw [hen]; decide
    by_cases hr : fld s F.STK_STATUS_RETRAINING = 0
    · have hdrained : stkDrained s = true := beq_iff_eq.2 hr
      have hoff : flag (stkDrainEnd s) F.STK_CTRL_ENABLE = false :=
        (flag_eq_of_fld (fld_setFld_ne _ (by decide) _)).trans (flag_b2n s F.STK_CTRL_ENABLE rfl false)
      have ho : Only [] [F.STK_CTRL_ENABLE, F.STK_STATUS_DRAINING] s (stkDrainEnd s) := ((Only.refl ..).setFld (by simp) _).setFld (by simp) _
      refine completes_eq_quiet rfl ((if_neg hon).trans (if_pos hdrained)) hq ⟨?_, ?_, ho⟩
      · rw [stkOn, hoff, Bool.false_and]
      · rw [hoff, hr]
        rfl
    · have hdrained : ¬ stkDrained s = true := fun h => hr (beq_iff_eq.1 h)
      have hdr : flag (setFld s F.STK_STATUS_DRAINING 1) F.STK_STATUS_DRAINING = true := flag_b2n s F.STK_STATUS_DRAINING rfl true
      have ho : Only [] [F.STK_CTRL_ENABLE, F.STK_STATUS_DRAINING] s (setFld s F.STK_STATUS_DRAINING 1) := (Only.refl ..).setFld (by simp) _
      refine completes_eq_quiet rfl ((if_neg hon).trans (if_neg hdrained)) hq ⟨?_, ?_, ho⟩
      · rw [stkOn, hdr, Bool.not_true, Bool.and_false]
      · rw [flag_eq_of_fld (fld_setFld_ne _ (by decide) _), hen, decide_eq_true hr]
  case disabled =>
    intro s hq h
    refine completes_eq_quiet rfl (if_pos ?_) hq rfl
    rw [h]
    rfl

end


section
/-! SUPPORT. The threads of an engine: how each starts, stops and wakes, a loop over the four of them, and faults at the fetch
(R153, R154, R156, R160, R169, R175). -/
namespace Sys2Proof.Machine

theorem Only.setRst {ps : List Part} {fs : List Fld} {s u : State} (h : Only ps fs s u) (hp : .rst ∈ ps) (x : Rst) :
    Only ps fs s (setRst u x) := by
  refine ⟨fun q hq => ?_, h.2⟩
  have hsame := h.1 q hq
  cases q
  case rst => exact absurd (List.mem_cons_of_mem _ hp) hq
  all_goals exact hsame

/-- A loop over the four threads of an engine, each step of which writes the state of its own thread only. -/
theorem forEach_threads {s : State} {n : Nat} {P : State → Prop} {target : Nat → Nat} {step : State → Nat → State} (hs : P s)
    (hstep : ∀ u t, t < 4 → P u → thrState u n t = thrState s n t → P (step u t) ∧ thrState (step u t) n t = target t
      ∧ ∀ j, j < 4 → j ≠ t → thrState (step u t) n j = thrState u n j) :
    P (forEach [0, 1, 2, 3] step s) ∧ ∀ t, t < 4 → thrState (forEach [0, 1, 2, 3] step s) n t = target t := by
  obtain ⟨p0, t0, o0⟩ := hstep s 0 (by omega) hs rfl
  obtain ⟨p1, t1, o1⟩ := hstep _ 1 (by omega) p0 (o0 1 (by omega) (by omega))
  obtain ⟨p2, t2, o2⟩ := hstep _ 2 (by omega) p1 ((o1 2 (by omega) (by omega)).trans (o0 2 (by omega) (by omega)))
  obtain ⟨p3, t3, o3⟩ := hstep _ 3 (by omega) p2
    (((o2 3 (by omega) (by omega)).trans (o1 3 (by omega) (by omega))).trans (o0 3 (by omega) (by omega)))
  refine ⟨p3, fun t ht => ?_⟩
  have hcases : t = 0 ∨ t = 1 ∨ t = 2 ∨ t = 3 := by omega
  obtain rfl | rfl | rfl | rfl := hcases
  · exact (((o3 0 ht (by omega)).trans (o2 0 ht (by omega))).trans (o1 0 ht (by omega))).trans t0
  · exact ((o3 1 ht (by omega)).trans (o2 1 ht (by omega))).trans t1
  · exact (o3 2 ht (by omega)).trans t2
  · exact t3

/-- Of engine n only fields of its threads that are no register, flag or PC differ, and of the block's registers those in `fs`. -/
structure EngKept (n : Nat) (fs : List Fld) (s u : State) : Prop where
  only : Only [.engines] fs s u
  queues : (engine u n).win = (engine s n).win ∧ (engine u n).wakeq = (engine s n).wakeq ∧ (engine u n).fifos = (engine s n).fifos
    ∧ (engine u n).ttis = (engine s n).ttis ∧ (engine u n).gateReq = (engine s n).gateReq
  regs : ∀ t i, gReg u n t i = gReg s n t i

section
variable {n t : Nat} {fs : List Fld} {s u : State}

theorem EngKept.refl (n : Nat) (fs : List Fld) (s : State) : EngKept n fs s s :=
  ⟨Only.refl _ _ s, ⟨rfl, rfl, rfl, rfl, rfl⟩, fun _ _ => rfl⟩

theorem EngKept.setFld (h : EngKept n fs s u) {f : Fld} (hf : f ∈ fs) (v : Nat) : EngKept n fs s (setFld u f v) :=
  ⟨h.only.setFld hf v, h.queues, h.regs⟩

/-- A thread is written whose general registers are as before. -/
theorem EngKept.setThread (h : EngKept n fs s u) (t : Nat) {x : Thread} (hg : x.g = (thread u n t).g) (hu : x.und = (thread u n t).und) :
    EngKept n fs s (setThread u n t x) := by
  refine ⟨h.only.setThread (by decide) n t x, ?_, fun j i => ?_⟩
  · rw [engine_setThread_same]
    exact h.queues
  · rw [← h.regs j i]
    by_cases hj : j = t
    · subst hj
      rw [gReg_setThread, gReg, gDef, hg, hu]
      rfl
    · rw [gReg, gReg, thread_setThread_ne _ _ hj]

theorem EngKept.trans {u' : State} (h : EngKept n fs s u) (k : EngKept n fs u u') : EngKept n fs s u' :=
  ⟨h.only.trans k.only, ⟨k.queues.1.trans h.queues.1, k.queues.2.1.trans h.queues.2.1, k.queues.2.2.1.trans h.queues.2.2.1,
    k.queues.2.2.2.1.trans h.queues.2.2.2.1, k.queues.2.2.2.2.trans h.queues.2.2.2.2⟩, fun t i => (k.regs t i).trans (h.regs t i)⟩

theorem EngKept.mono {gs : List Fld} (h : EngKept n fs s u) (hf : fs ⊆ gs) : EngKept n gs s u :=
  ⟨h.only.mono (List.Subset.refl _) hf, h.queues, h.regs⟩

theorem EngKept.evq (h : EngKept n fs s u) : u.evq = s.evq := h.only.evq (by decide)

end

/-! ### Stopping -/

section
variable {n t j : Nat} {s : State}

/-- A stop writes the state of its own thread only. -/
theorem thrState_stopThread (ht : t < 4) (hj : j < 4) :
    thrState (stopThread s n t) n j = if j = t then tSTOPPED else thrState s n j := by
  have hpend : (F.ENG_n_STATUS_THREADS n).key ≠ (F.DBG_ENGn_STATUS_PENDING n).key := by
    simp only [F.ENG_n_STATUS_THREADS, F.DBG_ENGn_STATUS_PENDING]
    omega
  have hhalt : (F.ENG_n_STATUS_THREADS n).key ≠ (F.DBG_ENGn_STATUS_HALTED n).key := by
    simp only [F.ENG_n_STATUS_THREADS, F.DBG_ENGn_STATUS_HALTED]
    omega
  rw [stopThread]
  by_cases h : j = t
  · rw [if_pos h, h, thrState_setThrState_same _ n ht]
    rfl
  · rw [if_neg h, thrState_setThrState_other _ n hj h, setHaltPending, thrState_setFld_ne _ n hpend, setHalted,
      thrState_setFld_ne _ n hhalt, thrState_setThread]

theorem engKept_stopThread (n t : Nat) (s : State) :
    EngKept n [F.ENG_n_STATUS_THREADS n, F.DBG_ENGn_STATUS_HALTED n, F.DBG_ENGn_STATUS_PENDING n] s (stopThread s n t) :=
  ((((EngKept.refl n [F.ENG_n_STATUS_THREADS n, F.DBG_ENGn_STATUS_HALTED n, F.DBG_ENGn_STATUS_PENDING n] s).setThread t
    (x := { thread s n t with blk := .free, go := false, step := false, watch := false }) rfl rfl).setFld (by simp) _).setFld
    (by simp) _).setFld (by simp) _

theorem thread_stopThread_same (s : State) (n t : Nat) : thread (stopThread s n t) n t =
    { thread s n t with blk := .free, go := false, step := false, watch := false } := thread_setThread_same s n t _

theorem thread_stopThread_ne (s : State) (n : Nat) (h : j ≠ t) : thread (stopThread s n t) n j = thread s n j :=
  thread_setThread_ne s n h _

/-- No thread of the engine waits for anything. -/
abbrev AllFree (s : State) (n : Nat) : Prop := ∀ t, t < 4 → (thread s n t).blk = Blk.free

theorem allFree_stopThread (h : AllFree s n) (t : Nat) : AllFree (stopThread s n t) n := by
  intro j hj
  by_cases hjt : j = t
  · rw [hjt, thread_stopThread_same]
  · rw [thread_stopThread_ne s n hjt, h j hj]

theorem pc_stopThread (s : State) (n t j : Nat) : (thread (stopThread s n t) n j).pc = (thread s n j).pc := by
  by_cases hjt : j = t
  · rw [hjt, thread_stopThread_same]
  · rw [thread_stopThread_ne s n hjt]

/-- What a thread's state becomes when the engine stops what is not wanted. -/
def stoppedState (w : Bool) (x : Nat) : Nat := if w = false ∧ (x = tWAIT ∨ x = tRUN) then tSTOPPED else x

/-- A thread between instructions or in WAIT stops unless it is wanted (R153). -/
theorem stopUnwanted_of_free (h : AllFree s n) (ht : t < 4) :
    stopUnwanted s n t = if thrWanted s n t = false ∧ (thrState s n t = tWAIT ∨ thrState s n t = tRUN) then stopThread s n t else s := by
  unfold stopUnwanted
  by_cases hw : thrWanted s n t = true
  · simp [hw]
  · simp [hw, h t ht]

end

/-- The engine's threads are wanted as before where only what a stop writes has changed. -/
theorem thrWanted_of_kept {n : Nat} {fs : List Fld} {s u : State} (h : EngKept n fs s u)
    (hfs : fs ⊆ [F.ENG_n_STATUS_THREADS n, F.DBG_ENGn_STATUS_HALTED n, F.DBG_ENGn_STATUS_PENDING n]) (t : Nat) :
    thrWanted u n t = thrWanted s n t := by
  have hflds := (h.mono hfs).only.2
  have hen : fld u (F.ENG_n_CTRL_ENABLE n) = fld s (F.ENG_n_CTRL_ENABLE n) := hflds _ (by
    simp [F.ENG_n_CTRL_ENABLE, F.ENG_n_STATUS_THREADS, F.DBG_ENGn_STATUS_HALTED, F.DBG_ENGn_STATUS_PENDING]; omega)
  have hdr : fld u (F.ENG_n_STATUS_DRAINING n) = fld s (F.ENG_n_STATUS_DRAINING n) := hflds _ (by
    simp [F.ENG_n_STATUS_DRAINING, F.ENG_n_STATUS_THREADS, F.DBG_ENGn_STATUS_HALTED, F.DBG_ENGn_STATUS_PENDING]; omega)
  have hst : fld u (F.ENG_n_CTRL_START n) = fld s (F.ENG_n_CTRL_START n) := hflds _ (by
    simp [F.ENG_n_CTRL_START, F.ENG_n_STATUS_THREADS, F.DBG_ENGn_STATUS_HALTED, F.DBG_ENGn_STATUS_PENDING]; omega)
  simp only [thrWanted, engOn, flag, hen, hdr, hst]

/-- The four threads of an engine whose threads wait for nothing: each that is not wanted stops, its PC and registers kept. -/
theorem stopAll_spec {n : Nat} {s : State} (h : AllFree s n) :
    (EngKept n [F.ENG_n_STATUS_THREADS n, F.DBG_ENGn_STATUS_HALTED n, F.DBG_ENGn_STATUS_PENDING n] s
        (forEach [0, 1, 2, 3] (fun s t => stopUnwanted s n t) s)
      ∧ AllFree (forEach [0, 1, 2, 3] (fun s t => stopUnwanted s n t) s) n
      ∧ ∀ t, (thread (forEach [0, 1, 2, 3] (fun s t => stopUnwanted s n t) s) n t).pc = (thread s n t).pc)
    ∧ ∀ t, t < 4 → thrState (forEach [0, 1, 2, 3] (fun s t => stopUnwanted s n t) s) n t
        = stoppedState (thrWanted s n t) (thrState s n t) := by
  refine forEach_threads (P := fun u => EngKept n [F.ENG_n_STATUS_THREADS n, F.DBG_ENGn_STATUS_HALTED n,
    F.DBG_ENGn_STATUS_PENDING n] s u ∧ AllFree u n ∧ ∀ t, (thread u n t).pc = (thread s n t).pc)
    (target := fun t => stoppedState (thrWanted s n t) (thrState s n t)) ⟨EngKept.refl n _ s, h, fun _ => rfl⟩ ?_
  rintro u t ht ⟨hk, hfree, hpc⟩ hst
  rw [stopUnwanted_of_free hfree ht, thrWanted_of_kept hk (List.Subset.refl _), hst, stoppedState]
  split
  · refine ⟨⟨hk.trans (engKept_stopThread n t u), allFree_stopThread hfree t, fun j => (pc_stopThread u n t j).trans (hpc j)⟩, ?_,
      fun j hj hne => ?_⟩
    · rw [thrState_stopThread ht ht, if_pos rfl]
    · rw [thrState_stopThread ht hj, if_neg hne]
  · exact ⟨⟨hk, hfree, hpc⟩, hst, fun _ _ _ => rfl⟩

/-! ### Starting and waking -/

section
variable {n t j : Nat} {s u : State}

/-- No thread of the engine is in WAIT. -/
abbrev NoWait (s : State) (n : Nat) : Prop := ∀ t, t < 4 → thrState s n t ≠ tWAIT

theorem wakeThreads_of_noWait (h : NoWait s n) : wakeThreads s n = s := by
  refine forEach_fixed fun t ht => if_neg ?_
  have ht4 : t < 4 := by simp at ht; omega
  simp [wakeable, h t ht4]

theorem entryWake_of_steady (h : PowerSteady s) : entryWake s = s := by
  obtain ⟨hphase, -, -⟩ := h
  simp [entryWake, hphase]

/-- An engine that is not gated, with no thread in WAIT, needs no restart. -/
theorem engWake_of_running (hp : PowerSteady s) (hgated : flag s (F.ENG_n_STATUS_GATED n) = false)
    (hreq : (engine s n).gateReq = false) (hw : NoWait s n) : engWake s n false = s := by
  obtain ⟨-, hstate, hclosed⟩ := id hp
  have hopen : pwrClosed s = false := by simp [pwrClosed, hstate, hclosed, wRUN]
  simp [engWake, entryWake_of_steady hp, hreq, hopen, hgated, wakeThreads_of_noWait hw]

/-- The state with thread t of engine n in RUN from its PC. -/
def threadRuns (s : State) (n t : Nat) : State :=
  setThrState (setThread s n t { thread s n t with pc := (thread s n t).pc % 2 ^ 16, go := false }) n t tRUN

theorem engKept_threadRuns (s : State) (n t : Nat) : EngKept n [F.ENG_n_STATUS_THREADS n] s (threadRuns s n t) :=
  ((EngKept.refl n [F.ENG_n_STATUS_THREADS n] s).setThread t
    (x := { thread s n t with pc := (thread s n t).pc % 2 ^ 16, go := false }) rfl rfl).setFld (by simp) _

theorem thrState_threadRuns (ht : t < 4) (hj : j < 4) : thrState (threadRuns s n t) n j = if j = t then tRUN else thrState s n j := by
  rw [threadRuns]
  by_cases h : j = t
  · rw [if_pos h, h, thrState_setThrState_same _ n ht]
    rfl
  · rw [if_neg h, thrState_setThrState_other _ n hj h, thrState_setThread]

/-- The engine's clock runs and no power entry or wake is in progress. -/
abbrev EngAwake (s : State) (n : Nat) : Prop :=
  PowerSteady s ∧ flag s (F.ENG_n_STATUS_GATED n) = false ∧ (engine s n).gateReq = false

theorem engAwake_of_kept {fs : List Fld} (h : EngKept n fs s u) (hfs : fs ⊆ [F.ENG_n_CTRL_ENABLE n, F.ENG_n_CTRL_START n, F.ENG_n_STATUS_THREADS n])
    (ha : EngAwake s n) : EngAwake u n := by
  obtain ⟨⟨hphase, hstate, hclosed⟩, hgated, hreq⟩ := ha
  have hflds := (h.mono hfs).only.2
  have hpwr : u.pwr = s.pwr := h.only.1 .pwr (by decide)
  refine ⟨⟨(hflds _ ?_).trans hphase, (hflds _ ?_).trans hstate, by rw [hpwr, hclosed]⟩, ?_, h.queues.2.2.2.2.trans hreq⟩
  · simp [F.PWR_STATUS_PHASE, F.ENG_n_CTRL_ENABLE, F.ENG_n_CTRL_START, F.ENG_n_STATUS_THREADS]; omega
  · simp [F.PWR_STATUS_STATE, F.ENG_n_CTRL_ENABLE, F.ENG_n_CTRL_START, F.ENG_n_STATUS_THREADS]; omega
  · exact (flag_eq_of_fld (hflds _ (by simp [F.ENG_n_STATUS_GATED, F.ENG_n_CTRL_ENABLE, F.ENG_n_CTRL_START, F.ENG_n_STATUS_THREADS]))).trans hgated

theorem startThread_of_awake (ha : EngAwake s n) (hw : NoWait s n) (ht : t < 4) : startThread s n t = threadRuns s n t := by
  obtain ⟨hp, hgated, hreq⟩ := engAwake_of_kept (engKept_threadRuns s n t) (by simp) ha
  refine engWake_of_running (s := threadRuns s n t) hp hgated hreq fun j hj => ?_
  rw [thrState_threadRuns ht hj]
  split
  · decide
  · exact hw j hj

/-- What a thread's state becomes when the engine starts what is wanted. -/
def startedState (w : Bool) (x : Nat) : Nat := if w = true ∧ (x = tSTOPPED ∨ x = tFAULT) then tRUN else x

/-- The threads that `p` names, of an engine whose clock runs and none of whose threads waits: each that is wanted starts. -/
theorem startAll_spec (ha : EngAwake s n) (hw : NoWait s n) (p : Nat → Bool) :
    (EngKept n [F.ENG_n_STATUS_THREADS n] s (forEach ([0, 1, 2, 3].filter p) (fun s t => startWanted s n t) s)
      ∧ NoWait (forEach ([0, 1, 2, 3].filter p) (fun s t => startWanted s n t) s) n)
    ∧ ∀ t, t < 4 → thrState (forEach ([0, 1, 2, 3].filter p) (fun s t => startWanted s n t) s) n t
        = startedState (p t && thrWanted s n t) (thrState s n t) := by
  have hfilter : forEach ([0, 1, 2, 3].filter p) (fun s t => startWanted s n t) s
      = forEach [0, 1, 2, 3] (fun s t => if p t then startWanted s n t else s) s := List.foldl_filter ..
  rw [hfilter]
  refine forEach_threads (P := fun u => EngKept n [F.ENG_n_STATUS_THREADS n] s u ∧ NoWait u n)
    (target := fun t => startedState (p t && thrWanted s n t) (thrState s n t)) ⟨EngKept.refl n _ s, hw⟩ ?_
  rintro u t ht ⟨hk, hwait⟩ hst
  have hkeep : (EngKept n [F.ENG_n_STATUS_THREADS n] s u ∧ NoWait u n) ∧ thrState u n t = thrState s n t
      ∧ ∀ j, j < 4 → j ≠ t → thrState u n j = thrState u n j := ⟨⟨hk, hwait⟩, hst, fun _ _ _ => rfl⟩
  have hwanted : thrWanted u n t = thrWanted s n t := thrWanted_of_kept hk (by simp) t
  have hrun := startThread_of_awake (t := t) (engAwake_of_kept hk (by simp) ha) hwait ht
  by_cases hgo : (p t && thrWanted s n t) = true ∧ (thrState s n t = tSTOPPED ∨ thrState s n t = tFAULT)
  · obtain ⟨hpw, hstate⟩ := id hgo
    obtain ⟨hpt, hwt⟩ := (Bool.and_eq_true ..).mp hpw
    have hstep : (if p t then startWanted u n t else u) = threadRuns u n t := by
      rw [if_pos hpt, startWanted, if_pos, hrun]
      simpa [hwanted, hwt, hst] using hstate
    rw [hstep, startedState, if_pos hgo]
    refine ⟨⟨hk.trans (engKept_threadRuns u n t), fun j hj => ?_⟩, ?_, fun j hj hne => ?_⟩
    · rw [thrState_threadRuns ht hj]
      split
      · decide
      · exact hwait j hj
    · rw [thrState_threadRuns ht ht, if_pos rfl]
    · rw [thrState_threadRuns ht hj, if_neg hne]
  · have hstep : (if p t then startWanted u n t else u) = u := by
      by_cases hpt : p t = true
      · rw [if_pos hpt, startWanted, if_neg]
        simpa [hpt, hwanted, hst] using hgo
      · rw [if_neg hpt]
    rw [hstep, startedState, if_neg hgo]
    exact hkeep

end
/-! ### The fields of ENABLE, START, DRAINING and GATED beside one another -/

section
variable {n t : Nat} {s u : State}

theorem thrState_of_zero (h : fld s (F.ENG_n_STATUS_THREADS n) = 0) (t : Nat) : thrState s n t = tSTOPPED := by
  rw [thrState, h, bits_eq_div_mod, Nat.zero_div, Nat.zero_mod]
  rfl

theorem engOn_iff : engOn s n = true ↔ flag s (F.ENG_n_CTRL_ENABLE n) = true ∧ flag s (F.ENG_n_STATUS_DRAINING n) = false := by
  simp [engOn]

/-- Neither the register nor the part of the state that `EngKept` lets alone has changed after a write of ENABLE or START. -/
theorem engAwake_setFld {f : Fld} (h : f = F.ENG_n_CTRL_ENABLE n ∨ f = F.ENG_n_CTRL_START n) (ha : EngAwake s n) (v : Nat) :
    EngAwake (setFld s f v) n :=
  engAwake_of_kept ((EngKept.refl n [f] s).setFld List.mem_cons_self v) (by simp; tauto) ha

end

/-- The START field after a write of it. -/
theorem start_written (n : Nat) (v : BitVec 4) (s : State) : fld (setFld s (F.ENG_n_CTRL_START n) v.toNat) (F.ENG_n_CTRL_START n) = v.toNat :=
  (fld_setFld_same ..).trans (Nat.mod_eq_of_lt v.isLt)

theorem flag_enable_written (s : State) (n : Nat) : flag (setFld s (F.ENG_n_CTRL_ENABLE n) 1) (F.ENG_n_CTRL_ENABLE n) = true := by
  rw [flag, fld_setFld_same]
  rfl

theorem flag_reset_written (s : State) (n : Nat) : flag (setFld s (F.ENG_n_CTRL_SRESET n) 1) (F.ENG_n_CTRL_SRESET n) = true := by
  rw [flag, fld_setFld_same]
  rfl

/-- The threads that a write of START wants in an engine that is on. -/
theorem thrWanted_start_written {n : Nat} {s : State} (hon : engOn s n = true) {v : BitVec 4} {t : Nat} :
    thrWanted (setFld s (F.ENG_n_CTRL_START n) v.toNat) n t = bitOf v.toNat t := by
  have hon' : engOn (setFld s (F.ENG_n_CTRL_START n) v.toNat) n = true := by
    rw [← hon]
    simp only [engOn, flag]
    rw [fld_setFld_ne s (by simp [F.ENG_n_CTRL_ENABLE, F.ENG_n_CTRL_START]),
      fld_setFld_ne s (by simp [F.ENG_n_STATUS_DRAINING, F.ENG_n_CTRL_START])]
  rw [thrWanted, hon', start_written]
  rfl

theorem thrState_of_all_run {n t : Nat} {s : State} (h : fld s (F.ENG_n_STATUS_THREADS n) = 0x55) (ht : t < 4) : thrState s n t = tRUN := by
  rw [thrState, h]
  have hall : ∀ t : Fin 4, bits 0x55 (2 * t.val) 2 = tRUN := by decide
  exact hall ⟨t, ht⟩

/-! ### A disable -/

/-- The state in which an engine that holds no TTI begins to drain. -/
def drainingEngine (s : State) (n : Nat) : State := setEngine (setFld s (F.ENG_n_STATUS_DRAINING n) 1) n { engine s n with ttis := [] }

/-- The same once its threads have stopped. -/
def stoppedEngine (s : State) (n : Nat) : State := forEach [0, 1, 2, 3] (fun s t => stopUnwanted s n t) (drainingEngine s n)

/-- The registers that a disable may write. -/
abbrev disableFlds (n : Nat) : List Fld := [F.ENG_n_CTRL_ENABLE n, F.ENG_n_STATUS_DRAINING n, F.ENG_n_STATUS_THREADS n,
  F.DBG_ENGn_STATUS_HALTED n, F.DBG_ENGn_STATUS_PENDING n]

section
variable {n t : Nat} {s u : State}

theorem engine_drainingEngine (s : State) (n : Nat) : engine (drainingEngine s n) n = { engine s n with ttis := [] } :=
  engine_setEngine_same ..

theorem thread_drainingEngine (s : State) (n t : Nat) : thread (drainingEngine s n) n t = thread s n t := by
  rw [thread, engine_drainingEngine]
  rfl

theorem allFree_drainingEngine (h : AllFree s n) : AllFree (drainingEngine s n) n := fun t ht => by
  rw [thread_drainingEngine, h t ht]

theorem thrState_drainingEngine (s : State) (n t : Nat) : thrState (drainingEngine s n) n t = thrState s n t :=
  thrState_setFld_ne (f := F.ENG_n_STATUS_DRAINING n) s n (by simp [F.ENG_n_STATUS_THREADS, F.ENG_n_STATUS_DRAINING]) 1

theorem flag_draining_written (s : State) (n : Nat) : flag (drainingEngine s n) (F.ENG_n_STATUS_DRAINING n) = true := by
  rw [flag, drainingEngine, fld_setEngine, fld_setFld_same]
  rfl

theorem thrWanted_drainingEngine (s : State) (n t : Nat) : thrWanted (drainingEngine s n) n t = false := by
  simp [thrWanted, engOn, flag_draining_written]

theorem engKept_drainingEngine (httis : (engine s n).ttis = []) : EngKept n (disableFlds n) s (drainingEngine s n) := by
  refine ⟨((Only.refl _ _ s).setFld (by simp) 1).setEngine (by decide) n _, ?_, fun t i => ?_⟩
  · rw [engine_drainingEngine]
    exact ⟨rfl, rfl, rfl, httis.symm, rfl⟩
  · rw [gReg, thread_drainingEngine]
    rfl

theorem engKept_stoppedEngine (httis : (engine s n).ttis = []) (hfree : AllFree s n) :
    EngKept n (disableFlds n) s (stoppedEngine s n) :=
  (engKept_drainingEngine httis).trans ((stopAll_spec (allFree_drainingEngine hfree)).1.1.mono (by simp))

theorem flags_stoppedEngine (hfree : AllFree s n) :
    flag (stoppedEngine s n) (F.ENG_n_CTRL_ENABLE n) = flag s (F.ENG_n_CTRL_ENABLE n)
    ∧ flag (stoppedEngine s n) (F.ENG_n_STATUS_DRAINING n) = true := by
  have hflds := (stopAll_spec (allFree_drainingEngine hfree)).1.1.only.2
  constructor
  · refine (flag_eq_of_fld (hflds _ ?_)).trans (flag_eq_of_fld (s := s) (fld_setFld_ne (f := F.ENG_n_STATUS_DRAINING n) s ?_ 1))
    · simp [F.ENG_n_CTRL_ENABLE, F.ENG_n_STATUS_THREADS, F.DBG_ENGn_STATUS_HALTED, F.DBG_ENGn_STATUS_PENDING]; omega
    · simp [F.ENG_n_CTRL_ENABLE, F.ENG_n_STATUS_DRAINING]
  · refine (flag_eq_of_fld (hflds _ ?_)).trans (flag_draining_written s n)
    simp [F.ENG_n_STATUS_DRAINING, F.ENG_n_STATUS_THREADS, F.DBG_ENGn_STATUS_HALTED, F.DBG_ENGn_STATUS_PENDING]; omega

theorem engDrained_of_kept {fs : List Fld} (h : EngKept n fs s u) : engDrained u n = engDrained s n := by
  have htt : u.tt = s.tt := h.only.1 .tt (by decide)
  rw [engDrained, engDrained, h.queues.1, srcInFlight, srcInFlight, htt]

theorem stoppedState_unwanted {x : Nat} (h : x < 4) : stoppedState false x = if x = tFAULT then tFAULT else tSTOPPED := by
  have hall : ∀ x : Fin 4, stoppedState false x.val = if x.val = tFAULT then tFAULT else tSTOPPED := by decide
  exact hall ⟨x, h⟩

theorem thrState_lt (s : State) (n t : Nat) : thrState s n t < 4 := bits_lt ..

end

/-! ### Faults -/

/-- A command whose effect is a fault of its calm thread faults in the terms of the claims. -/
theorem faults_of_calm {c : Instr} {s : State} {n t cause : Nat} (ht : t < 4) (hcause : cause < 16) (h : Calm s n t)
    (hblk : (thread s n t).blk = Blk.free) (hc : exec c s = done (faultThread s n t cause)) : Faults c n t cause s := by
  obtain ⟨hquiet, -, hwatch, hstep, -⟩ := h
  have honly := (only_faultThread s n t cause).hush hquiet
  have hengines := (hush_engines (faultThread s n t cause)).trans (faultThread_engines s n cause)
  obtain ⟨-, -, hengine, hothers⟩ := onlyThread_of_engines (s := { s with regs := (hush (faultThread s n t cause)).regs })
    hengines honly.1.with_regs
  refine completes_eq hc rfl (by rw [faultThread_evq, hquiet, List.nil_append]) ?_
  refine ⟨?_, (fld_hush ..).trans (fld_faultThread_cause s n hcause), ?_, ?_, hengine, hothers, fun j hj hne => ⟨?_, ?_⟩, honly⟩
  · rw [thrState_hush, thrState_faultThread s n ht ht, if_pos rfl]
  · rw [fld_hush, start_faultThread s n ht ht, if_pos rfl]
  · rw [thread_of_engines hengines, thread_setThread_same]
    simp [hwatch, hstep, hblk]
  · rw [thrState_hush, thrState_faultThread s n hj ht, if_neg hne]
  · rw [fld_hush, start_faultThread s n hj ht, if_neg hne]

theorem blk_of_thrReady {s : State} {n t : Nat} (h : thrReady s n t = true) : (thread s n t).blk = Blk.free := by
  simp only [thrReady, Bool.and_eq_true, beq_iff_eq] at h
  exact h.1.1.2

theorem pcOk_of {s : State} {n t : Nat} (hlt : (thread s n t).pc < 0x10000) (hmod : (thread s n t).pc % 4 = 0) : pcOk s n t = true := by
  simp [pcOk, hlt, hmod]

/-- A word once poisoned is read as poisoned. -/
theorem spPoisoned_setSpPoison (s : State) (n i : Nat) : spPoisoned (setSpPoison s n i true) n i = true := by
  rw [spPoisoned, setSpPoison, engine_setEngine_same, smGet_smSet_same]
  rfl

end Sys2Proof.Machine
end

section
open Sys2Proof Sys2Proof.Machine

/-- Settles O29: the loops over the four threads by `startAll_spec` and `stopAll_spec`, the faults by `faults_of_calm`. -/
theorem enginesStartStopAndFetch : Obligations.EnginesStartStopAndFetch := by
  refine ⟨?enable, ?draining, ?start, ?stop, ?disable, ?wake, ?asleep, ?gated, ?gate, ?busy, ?signal, ?reset, ?pc, ?poisoned, ?corr,
    ?uncorr, ?illegal, ?legal⟩
  case enable =>
    intro n s hq hp hthr hgated hreq hdr hmay
    have hawake : EngAwake (setFld s (F.ENG_n_CTRL_ENABLE n) 1) n := engAwake_setFld (.inl rfl) ⟨hp, hgated, hreq⟩ 1
    have hstates : ∀ t, thrState (setFld s (F.ENG_n_CTRL_ENABLE n) 1) n t = tSTOPPED := fun t =>
      (thrState_setFld_ne s n (by simp [F.ENG_n_STATUS_THREADS, F.ENG_n_CTRL_ENABLE]) 1).trans (thrState_of_zero hthr t)
    obtain ⟨⟨hkept, -⟩, hstarted⟩ := startAll_spec hawake (fun t _ => by rw [hstates t]; decide) fun _ => true
    have hall := ((EngKept.refl n [F.ENG_n_CTRL_ENABLE n, F.ENG_n_STATUS_THREADS n] s).setFld (by simp) 1).trans
      (hkept.mono (by simp))
    refine completes_eq_quiet rfl ?_ (hall.evq.trans hq) ⟨?_, fun t ht => ?_, hall.regs, hall.only⟩
    · exact if_neg (by simp [hdr, hmay])
    · exact (flag_eq_of_fld (hkept.only.2 _ (by simp [F.ENG_n_STATUS_THREADS, F.ENG_n_CTRL_ENABLE]))).trans
        (flag_enable_written s n)
    · have hwanted : thrWanted (setFld s (F.ENG_n_CTRL_ENABLE n) 1) n t = bitOf (fld s (F.ENG_n_CTRL_START n)) t := by
        have hon : flag (setFld s (F.ENG_n_CTRL_ENABLE n) 1) (F.ENG_n_CTRL_ENABLE n) = true := flag_enable_written s n
        have hdr' : flag (setFld s (F.ENG_n_CTRL_ENABLE n) 1) (F.ENG_n_STATUS_DRAINING n) = false :=
          (flag_eq_of_fld (fld_setFld_ne s (by simp [F.ENG_n_STATUS_DRAINING, F.ENG_n_CTRL_ENABLE]) 1)).trans hdr
        rw [thrWanted, engOn, hon, hdr', fld_setFld_ne s (by simp [F.ENG_n_CTRL_START, F.ENG_n_CTRL_ENABLE])]
        rfl
      rw [hstarted t ht, hstates t, hwanted]
      simp [startedState]
  case draining =>
    intro n s hq hdr
    refine completes_eq_quiet rfl ?_ hq rfl
    simp [engEnable, hdr]
  case start =>
    intro n v s hq hp hthr hon hgated hreq
    have hawake : EngAwake (setFld s (F.ENG_n_CTRL_START n) v.toNat) n := engAwake_setFld (.inr rfl) ⟨hp, hgated, hreq⟩ _
    have hstates : ∀ t, thrState (setFld s (F.ENG_n_CTRL_START n) v.toNat) n t = tSTOPPED := fun t =>
      (thrState_setFld_ne s n (by simp [F.ENG_n_STATUS_THREADS, F.ENG_n_CTRL_START]) _).trans (thrState_of_zero hthr t)
    obtain ⟨⟨hkept, -⟩, hstarted⟩ := startAll_spec hawake (fun t _ => by rw [hstates t]; decide) (bitOf v.toNat)
    have hstops : forEach [0, 1, 2, 3] (fun s t => stopUnwanted s n t) (setFld s (F.ENG_n_CTRL_START n) v.toNat)
        = setFld s (F.ENG_n_CTRL_START n) v.toNat := forEach_fixed fun t _ => by simp [stopUnwanted, hstates t, tSTOPPED, tWAIT, tRUN]
    have hall := ((EngKept.refl n [F.ENG_n_CTRL_START n, F.ENG_n_STATUS_THREADS n] s).setFld (by simp) v.toNat).trans
      (hkept.mono (by simp))
    have hexec : engStart s n v.toNat = forEach ([0, 1, 2, 3].filter (bitOf v.toNat)) (fun s t => startWanted s n t)
        (setFld s (F.ENG_n_CTRL_START n) v.toNat) := by rw [engStart, hstops]
    refine completes_eq_quiet rfl hexec (hall.evq.trans hq) ⟨?_, fun t ht => ?_, hall.regs, hall.only⟩
    · rw [hkept.only.2 _ (by simp [F.ENG_n_STATUS_THREADS, F.ENG_n_CTRL_START])]
      exact start_written n v s
    · rw [hstarted t ht, hstates t, thrWanted_start_written hon]
      simp [startedState]
  case stop =>
    intro n v s hq hthr hon hfree
    have hstates : ∀ t, t < 4 → thrState (setFld s (F.ENG_n_CTRL_START n) v.toNat) n t = tRUN := fun t ht => by
      rw [thrState_setFld_ne s n (by simp [F.ENG_n_STATUS_THREADS, F.ENG_n_CTRL_START]), thrState_of_all_run hthr ht]
    obtain ⟨⟨hkept, -, hpc⟩, hstopped⟩ := stopAll_spec (s := setFld s (F.ENG_n_CTRL_START n) v.toNat) (n := n) hfree
    simp only [thrWanted_start_written hon] at hstopped
    generalize hu : forEach [0, 1, 2, 3] (fun s t => stopUnwanted s n t) (setFld s (F.ENG_n_CTRL_START n) v.toNat) = u
      at hkept hpc hstopped
    have hexec : engStart s n v.toNat = u := by
      rw [engStart, hu]
      refine forEach_fixed fun t ht => if_neg ?_
      obtain ⟨hmem, hbit⟩ := List.mem_filter.1 ht
      have ht4 : t < 4 := by simp at hmem; omega
      have hrun : thrState u n t = tRUN := by rw [hstopped t ht4, hstates t ht4, hbit]; rfl
      simp [hrun, tRUN, tSTOPPED, tFAULT]
    have hall := ((EngKept.refl n [F.ENG_n_CTRL_START n, F.ENG_n_STATUS_THREADS n, F.DBG_ENGn_STATUS_HALTED n,
      F.DBG_ENGn_STATUS_PENDING n] s).setFld (by simp) v.toNat).trans (hkept.mono (by simp))
    refine completes_eq_quiet rfl hexec (hall.evq.trans hq) ⟨?_, fun t ht => ?_, hall.regs, hpc, hall.only⟩
    · rw [hkept.only.2 _ (by simp [F.ENG_n_STATUS_THREADS, F.ENG_n_CTRL_START, F.DBG_ENGn_STATUS_HALTED, F.DBG_ENGn_STATUS_PENDING]; omega)]
      exact start_written n v s
    · rw [hstopped t ht, hstates t ht]
      cases bitOf v.toNat t <;> simp [stoppedState, tRUN]
  case disable =>
    intro n s hq hon hfree httis
    obtain ⟨hen, hdr⟩ := engOn_iff.1 hon
    have hfail : forEach [0, 1, 2, 3] (fun s t => failStream s n t ST.disabled) (setFld s (F.ENG_n_STATUS_DRAINING n) 1)
        = setFld s (F.ENG_n_STATUS_DRAINING n) 1 := forEach_fixed fun t ht => by
      have hblk : (thread (setFld s (F.ENG_n_STATUS_DRAINING n) 1) n t).blk = Blk.free := hfree t (by simp at ht; omega)
      rw [failStream, hblk]
    have hnone : (engine (setFld s (F.ENG_n_STATUS_DRAINING n) 1) n).ttis = [] := httis
    obtain ⟨⟨hkept, -, hpc⟩, hstates⟩ := stopAll_spec (allFree_drainingEngine hfree)
    have hhead : engDisable s n = if engDrained (stoppedEngine s n) n then engDrainEnd (stoppedEngine s n) n
        else stoppedEngine s n := by
      unfold engDisable
      rw [if_neg (by simp [hen, hdr])]
      simp only [hfail, hnone]
      rfl
    have hdrained := engDrained_of_kept (engKept_stoppedEngine httis hfree)
    rw [hdrained] at hhead
    have hall := engKept_stoppedEngine httis hfree
    have hthr : ∀ t, t < 4 → thrState (stoppedEngine s n) n t = if thrState s n t = tFAULT then tFAULT else tSTOPPED := by
      intro t ht
      rw [stoppedEngine, hstates t ht, thrWanted_drainingEngine, thrState_drainingEngine]
      exact stoppedState_unwanted (thrState_lt s n t)
    have hpcs : ∀ t, (thread (stoppedEngine s n) n t).pc = (thread s n t).pc := fun t =>
      (hpc t).trans (congrArg Thread.pc (thread_drainingEngine s n t))
    obtain ⟨hen', hdr'⟩ := flags_stoppedEngine hfree
    generalize stoppedEngine s n = u at *
    obtain ⟨hwin, hwake, hfifo, -, -⟩ := id hall.queues
    by_cases hd : engDrained s n = true
    · rw [if_pos hd] at hhead
      have hend : EngKept n _ s (engDrainEnd u n) := (hall.setFld (by simp) 0).setFld (by simp) 0
      refine completes_eq_quiet rfl hhead (hend.evq.trans hq) ⟨fun t ht => ?_, ?_, ?_, hend.regs, hpcs, hwin, hwake, hfifo, hend.only⟩
      · rw [← hthr t ht]
        exact (thrState_setFld_ne _ n (by simp [F.ENG_n_STATUS_THREADS, F.ENG_n_STATUS_DRAINING]) 0).trans
          (thrState_setFld_ne _ n (by simp [F.ENG_n_STATUS_THREADS, F.ENG_n_CTRL_ENABLE]) 0)
      · rw [hd]
        exact flag_of_fld ((fld_setFld_ne _ (by simp [F.ENG_n_CTRL_ENABLE, F.ENG_n_STATUS_DRAINING]) 0).trans ((fld_setFld_same ..).trans (Nat.zero_mod _)))
      · rw [hd]
        exact flag_of_fld ((fld_setFld_same ..).trans (Nat.zero_mod _))
    · rw [if_neg hd] at hhead
      rw [Bool.not_eq_true] at hd
      refine completes_eq_quiet rfl hhead (hall.evq.trans hq) ⟨hthr, ?_, ?_, hall.regs, hpcs, hwin, hwake, hfifo, hall.only⟩
      · rw [hen', hd, hen]
        rfl
      · rw [hdr', hd]
        rfl
  case wake =>
    intro n t s hcalm hst hev hclk hreq hh
    obtain ⟨hq, hwanted, hwatch, hstep, hpend⟩ := hcalm
    have hwake : wakeable s n t = true := by simpa [wakeable, hst, waitMask] using hev
    have hgated : flag s (F.ENG_n_STATUS_GATED n) = false := by
      simp only [engClock, Bool.and_eq_true, Bool.not_eq_true'] at hclk
      exact hclk.1.1.1
    have hsame : thrWanted (setThrState s n t tRUN) n t = true := by
      rw [← hwanted]
      exact thrWanted_of_kept ((EngKept.refl n [F.ENG_n_STATUS_THREADS n] s).setFld (by simp) _) (by simp) t
    have hpend' : haltPending (setThrState s n t tRUN) n t = false := by
      rw [← hpend]
      exact congrArg (bitOf · _) (fld_setFld_ne s (by simp only [F.ENG_n_STATUS_THREADS, F.DBG_ENGn_STATUS_PENDING]; omega) _)
    have hboundary : boundary (setThrState s n t tRUN) n t = setThrState s n t tRUN := by
      unfold boundary
      rw [if_neg (by simp [hsame])]
      exact (if_neg (by simp [show (thread (setThrState s n t tRUN) n t).watch = false from hwatch])).trans
        ((if_neg (by simp [show (thread (setThrState s n t tRUN) n t).step = false from hstep])).trans (if_neg (by simp [hpend'])))
    refine completes_eq_quiet (w' := setThrState s n t tRUN) rfl ?_ hq ⟨?_, rfl, fun j hj hne => ?_, ?_⟩
    · simp [threadWake, hwake, hgated, hreq, hclk, wakeThread, hh, hboundary]
    · rw [thrState_setThrState_same _ _ t.isLt]
      rfl
    · exact thrState_setThrState_other _ _ hj hne _
    · exact (Only.refl [] [F.ENG_n_STATUS_THREADS n] s).setFld (by simp) _
  case asleep =>
    intro n t s hq h
    refine completes_eq_quiet rfl ?_ hq rfl
    have hwake : wakeable s n t = false := by
      rcases h with h | h
      · simp [wakeable, h]
      · simp [wakeable, waitMask, h]
    simp [threadWake, hwake]
  case gated =>
    intro n t s hq hp hst hev hgated hreq hmem
    obtain ⟨-, hstate, hclosed⟩ := id hp
    have hopen : pwrClosed s = false := by simp [pwrClosed, hstate, hclosed, wRUN]
    have hwake : wakeable s n t = true := by simpa [wakeable, hst, waitMask] using hev
    have hask : threadWake s n t = r8Request s (.engineWake n) := by
      simp [threadWake, hwake, hgated, engWake, entryWake_of_steady hp, hreq, hopen]
    have hput : r8Request s (.engineWake n) = r8Waiting (setDsp s { s.dsp with r8queue := s.dsp.r8queue ++ [.engineWake n] }) := by
      simp [r8Request, hmem]
    refine completes_eq_quiet rfl (hask.trans hput) hq ⟨rfl, ?_, ?_⟩
    · exact (thrState_setFld_ne (setDsp s _) n (by simp only [F.ENG_n_STATUS_THREADS, F.DSP_RAIL8_STATUS_WAITING]; omega) _).trans hst
    · exact (Only.setDsp (Only.refl _ _ s) (by decide) _).setFld (by simp) _
  case gate =>
    intro n s hq hen hclk hwin hthr
    have hgo : mayGate s n = true := by
      have hall : ∀ t, t < 4 → (thrState s n t != tRUN && !wakeable s n t) = true := by
        intro t ht
        obtain ⟨hrun, hwait⟩ := hthr t ht
        by_cases h : thrState s n t = tWAIT
        · simp [wakeable, waitMask, hwait h, hrun]
        · simp [wakeable, h, hrun]
      simp [mayGate, hen, hclk, hwin, hall]
    exact completes_eq_quiet rfl (if_pos hgo) hq rfl
  case busy =>
    intro n t s hq hst
    refine completes_eq_quiet rfl ?_ hq rfl
    refine if_neg fun hgo => ?_
    simp only [mayGate, Bool.and_eq_true, List.all_eq_true] at hgo
    have hrun := hgo.2 t.val (by have := t.isLt; simp; omega)
    simp [hst] at hrun
  case signal =>
    intro n b s hq
    refine completes_eq_quiet rfl rfl hq ⟨?_, (Only.refl [] [F.ENG_n_SIGNAL_SIGNAL n] s).setFld (by simp) _⟩
    rw [fld_setFld_same]
    exact Nat.mod_eq_of_lt (Nat.or_lt_two_pow (fld_lt s _) b.isLt)
  case reset =>
    intro n s hq hwait hon
    have hexec : engSreset s n = setRst (setFld (assertCause s cBLOCK 0x18 n) (F.ENG_n_CTRL_SRESET n) 1)
        { s.rst with engWait := s.rst.engWait ++ [n.val] } := by
      exact if_neg (by simp [hwait, hon])
    refine ⟨_, completes_eq rfl hexec rfl ⟨rfl, ?_, ?_⟩⟩
    · exact flag_reset_written _ n
    · have hcause : Only [.evq] [F.ENG_n_CTRL_SRESET n, F.GLB_RST_CAUSE_SOURCE, F.GLB_RST_CAUSE_QUAL, F.GLB_RST_CAUSE_ENGINE] s
          (setFld (assertCause s cBLOCK 0x18 n) (F.ENG_n_CTRL_SRESET n) 1) :=
        ((((Only.raise (Only.refl _ _ s) (by decide) 0x0101 _).setFld (by simp) cBLOCK).setFld (by simp) 0x18).setFld
          (by simp) n.val).setFld (by simp) 1
      exact Only.hush ((hcause.mono (by simp) (List.Subset.refl _)).setRst (by simp) _) hq
  case pc =>
    intro n t ecc s hcalm hready hpc
    refine faults_of_calm t.isLt (by decide) hcalm (blk_of_thrReady hready) (congrArg done ?_)
    have hbad : pcOk s n t = false := by
      rw [pcOk]
      rcases hpc with h | h
      · simp [h]
      · simp [h]
    simp [fetchFault, hready, hbad, FC.fetch]
  case poisoned =>
    intro n t ecc s hcalm hready hlt hmod hpois
    refine faults_of_calm t.isLt (by decide) hcalm (blk_of_thrReady hready) (congrArg done ?_)
    simp [fetchFault, hready, pcOk_of hlt hmod, spCheck, hpois, FC.poison]
  case corr =>
    intro n t s hcalm hready hlt hmod hpois
    have hstep : fetchFault s n t 1 = satInc s (F.ENG_n_SPERR_CORR n) := by
      have hsame : spPoisoned (satInc s (F.ENG_n_SPERR_CORR n)) n ((thread s n t).pc / 8) = false := hpois
      simp [fetchFault, hready, pcOk_of hlt hmod, spCheck, hpois, hsame]
    exact completes_eq_quiet rfl hstep hcalm.1 ⟨fld_satInc_same .., (Only.refl [] [F.ENG_n_SPERR_CORR n] s).setFld (by simp) _⟩
  case uncorr =>
    intro n t s hcalm hready hlt hmod hpois
    have hstep : fetchFault s n t 2 = faultThread (spUncorr s n ((thread s n t).pc / 8)) n t 4 := by
      have hthen : spPoisoned (spUncorr s n ((thread s n t).pc / 8)) n ((thread s n t).pc / 8) = true := spPoisoned_setSpPoison ..
      simp [fetchFault, hready, pcOk_of hlt hmod, spCheck, hpois, hthen, FC.poison]
    have hparts : OnlyParts [.engines, .regs, .evq] s (faultThread (spUncorr s n ((thread s n t).pc / 8)) n t 4) :=
      OnlyParts.trans (((onlyParts_setEngine s n _).mono (by simp)).trans (OnlyParts.trans ((onlyParts_raise _ _ _).mono (by simp))
        ((onlyParts_setFld _ _ _).mono (by simp)))) ((only_faultThread _ n t 4).1.mono (by simp))
    refine completes_eq rfl hstep ?_ ⟨?_, ?_, ?_, ?_⟩
    · rw [faultThread_evq]
      change (s.evq ++ _) ++ _ = _
      rw [hcalm.1]
      rfl
    · rw [fld_hush, (only_faultThread _ n t 4).2 (F.ENG_n_SPERR_UNCORR n) (by
        simp [F.ENG_n_SPERR_UNCORR, F.ENG_n_STATUS_THREADS, F.ENG_n_Tt_FAULT_CAUSE, F.ENG_n_CTRL_START, F.DBG_ENGn_STATUS_HALTED,
          F.DBG_ENGn_STATUS_PENDING]; omega)]
      exact fld_satInc_same ..
    · rw [thrState_hush, thrState_faultThread _ n t.isLt t.isLt, if_pos rfl]
    · have hsp : (engine (faultThread (spUncorr s n ((thread s n t).pc / 8)) n t 4) n).spPoison
          = (engine (spUncorr s n ((thread s n t).pc / 8)) n).spPoison := by
        rw [engine_of_engines (faultThread_engines _ n 4), engine_setThread_same]
      have hpois' := spPoisoned_setSpPoison s n ((thread s n t).pc / 8)
      exact (congrArg (fun m => smGet m ((thread s n t).pc / 8) 0 == 1) hsp).trans hpois'
    · exact OnlyParts.hush (hparts.mono (by simp)) hcalm.1
  case illegal =>
    intro n t s hcalm hready hlt hmod hpois hleg
    refine faults_of_calm t.isLt (by decide) hcalm (blk_of_thrReady hready) (congrArg done ?_)
    simp [illegalInstruction, hready, pcOk_of hlt hmod, hpois, hleg, FC.illegal]
  case legal =>
    intro n t s hq hleg
    refine completes_eq_quiet rfl ?_ hq rfl
    simp [illegalInstruction, hleg]

end


section
/-! SUPPORT. A state whose register map lists a value that its field cannot hold, in which a write of nothing is not nothing (R125). -/
namespace Sys2Proof.Machine

/-- Port 0 is enabled, and the count of DISABLED entries is listed with a value of more than its 32 bits. -/
def overfullCount : State :=
  { State.reset with
    evq := []
    regs := [((F.WNG_Pp_CTRL_ENABLE 0).key, 1), (F.DSP_CNT_DISABLED_COUNT.key, 2 ^ 40)]
    lanes := []
    ports := []
    dsp := {} }

/-- The place of the count, read as a field of 64 bits. -/
def wideCount : Fld := ⟨F.DSP_CNT_DISABLED_COUNT.key, 64, 0⟩

end Sys2Proof.Machine
end

section
open Sys2Proof Sys2Proof.Machine

/-- Refutes O19: a port that has nothing to send counts 0 entries as DISABLED, which cuts a count that the map lists too large. -/
theorem not_portsEnableAndDisable : ¬ Obligations.PortsEnableAndDisable := by
  rintro ⟨-, -, hdisable, -⟩
  obtain ⟨-, -, -, -, -, -, hflds⟩ := (hdisable 0 overfullCount rfl (by decide) (by decide) (by decide) (by decide)
    ⟨by decide, by decide⟩).of_exec rfl
  have hkept : fld (portDisable overfullCount 0) wideCount = fld overfullCount wideCount := hflds wideCount (by decide)
  exact absurd hkept (by decide)

end


section
/-! SUPPORT. The line code on a codeword without flips, a stored line that takes flips, and the poisoning of a line (R272, R280 to
R284). -/
namespace Sys2Proof.Machine

/-! ### The line code -/

theorem RS.mulBits_zero (n b : Nat) : RS.mulBits n 0 b = 0 := by
  induction n generalizing b with
  | zero => rfl
  | succ n ih =>
    have hx : RS.xtime 0 = 0 := rfl
    rw [RS.mulBits, hx, ih]
    simp

theorem RS.eval_replicate_zero (n x : Nat) : RS.eval (List.replicate n 0) x = 0 := by
  induction n with
  | zero => rfl
  | succ n ih =>
    have hstep : RS.mul 0 x ^^^ 0 = 0 := by rw [RS.mul, RS.mulBits_zero]; rfl
    rw [RS.eval, List.replicate_succ, List.foldl_cons, hstep]
    exact ih

theorem RS.symbols_zero (n : Nat) : RS.symbols n 0 = List.replicate n 0 := by
  induction n with
  | zero => rfl
  | succ n ih => rw [RS.symbols, Nat.zero_div, ih, List.replicate_succ]

theorem RS.number_replicate_zero (n : Nat) : RS.number (List.replicate n 0) = 0 := by
  induction n with
  | zero => rfl
  | succ n ih => rw [RS.number, List.replicate_succ, List.foldr_cons, ← RS.number, ih]

/-- A codeword without flips decodes to itself, whatever bytes are declared erased. -/
theorem lineDecode_zero (er : List Nat) : lineDecode er 0 = some (0, []) := by
  have hsyn : (RS.syndromes 5 (RS.symbols 70 0)).all (· == 0) = true := by
    rw [RS.syndromes, RS.symbols_zero, List.all_map, List.all_eq_true]
    intro j _
    exact beq_iff_eq.2 (RS.eval_replicate_zero 70 _)
  rw [lineDecode, RS.decode, if_pos hsyn, RS.symbols_zero, Option.map_some, RS.number_replicate_zero]

/-- A decoder that corrects a codeword wholly leaves no flip of it. -/
theorem corrects_iff {er : List Nat} {e : Nat} : Corrects er e ↔ ∃ fixes, lineDecode er e = some (0, fixes) ∧ fixes.isEmpty = false := by
  rw [Corrects]
  cases h : lineDecode er e with
  | none => simp
  | some r =>
    obtain ⟨left, fixes⟩ := r
    simp

/-! ### A stored line that takes flips -/

section
variable (s : State) (l : Nat)

theorem flipLine_zero : flipLine s l 0 = s := if_pos rfl

theorem ofNat_lineBytes_div (o n : Nat) {i : Nat} (hi : i < n) : BitVec.ofNat 8 (lineBytes s l o n / 256 ^ i) = cell s l (o + i) := by
  induction n generalizing o i with
  | zero => omega
  | succ n ih =>
    have hb := (cell s l o).isLt
    cases i with
    | zero =>
      rw [lineBytes, Nat.pow_zero, Nat.div_one]
      apply BitVec.eq_of_toNat_eq
      simp only [BitVec.toNat_ofNat, Nat.add_zero]
      omega
    | succ i =>
      have hdiv : lineBytes s l o (n + 1) / 256 = lineBytes s l (o + 1) n := by
        rw [lineBytes]
        omega
      rw [Nat.pow_succ', ← Nat.div_div_eq_div_mul, hdiv, ih (o + 1) (by omega), Nat.add_right_comm, Nat.add_assoc]

theorem bits_above {k lo : Nat} {e : Nat} (he : e < 2 ^ k) (h : k ≤ lo) (w : Nat) : bits e lo w = 0 := by
  rw [bits_eq_div_mod, Nat.div_eq_of_lt (he.trans_le (Nat.pow_le_pow_right (by omega) h)), Nat.zero_mod]

theorem flipLine_of_data {e : Nat} (he : e < 2 ^ 512) (h0 : e ≠ 0) :
    flipLine s l e = setLineBytes s l 0 64 (2 ^ 64 - 1) (lineBytes s l 0 64 ^^^ e) := by
  have hpoison : bitOf e 512 = false := by rw [bitOf_eq_testBit, Nat.testBit_lt_two_pow he]
  have howner : bits e 514 6 = 0 := bits_above he (by omega) 6
  unfold flipLine
  rw [if_neg h0, Nat.mod_eq_of_lt he]
  simp only [hpoison, howner, Bool.false_eq_true, if_false, if_true]

/-- A stored line whose data has flips `e` of its bits. -/
theorem cell_flipLine {e : Nat} (he : e < 2 ^ 512) (j : Nat) {p : Nat} (hp : p < 64) :
    cell (flipLine s l e) j p = if j = l then cell s j p ^^^ BitVec.ofNat 8 (bits e (8 * p) 8) else cell s j p := by
  by_cases h0 : e = 0
  · subst h0
    have hz : bits 0 (8 * p) 8 = 0 := by rw [bits_eq_div_mod, Nat.zero_div, Nat.zero_mod]
    simp [flipLine_zero, hz]
  · rw [flipLine_of_data s l he h0, cell_setLineBytes s l j 0 64 _ _ hp (by omega)]
    by_cases hj : j = l
    · subst hj
      have hmask : (2 ^ 64 - 1).testBit (p - 0) = true := by
        rw [Nat.testBit_two_pow_sub_one]
        exact decide_eq_true (by omega)
      have hpow : 256 ^ (p - 0) = 2 ^ (8 * p) := by rw [Nat.sub_zero, Nat.pow_mul]
      rw [if_pos ⟨rfl, by omega, by omega, hmask⟩, if_pos rfl, hpow, Nat.xor_div_two_pow, BitVec.ofNat_xor, ← hpow, Nat.sub_zero,
        ofNat_lineBytes_div s j 0 64 (by omega), Nat.zero_add, bits_eq_div_mod, Nat.pow_mul]
      congr 1
      apply BitVec.eq_of_toNat_eq
      simp
    · rw [if_neg (fun h => hj h.1), if_neg hj]

theorem mem_flipLine {e : Nat} (he : e < 2 ^ 512) : (flipLine s l e).mem = { s.mem with cells := (flipLine s l e).mem.cells } := by
  by_cases h0 : e = 0
  · subst h0
    rw [flipLine_zero]
  · rw [flipLine_of_data s l he h0]
    exact mem_setLineBytes ..

theorem only_flipLine (e : Nat) : Only [.mem] [] s (flipLine s l e) := by
  have hbytes : Only [.mem] [] s (setLineBytes s l 0 64 (2 ^ 64 - 1) (lineBytes s l 0 64 ^^^ e % 2 ^ 512)) :=
    (Only.refl _ _ s).setLineBytes (by decide) _ _ _ _ _
  exact .ite (Only.refl _ _ s) (.ite (.ite (hbytes.withMem (by decide) _) hbytes)
    ((Only.ite (hbytes.withMem (by decide) _) hbytes).withMem (by decide) _))

end

/-! ### The poisoning of a line -/

section
variable (s : State) (d l kind n : Nat)

theorem mem_poisonLine : (poisonLine s d l kind n).mem = { s.mem with poison := smSet s.mem.poison l 1 0 } := by
  unfold poisonLine
  dsimp only
  split <;> rfl

theorem evq_poisonLine : (poisonLine s d l kind n).evq = s.evq ++ [ev 0x1002 [(1, d), (4, n)]] := by
  unfold poisonLine
  dsimp only
  split <;> rfl

theorem only_poisonLine : Only [.mem, .evq] (poisonFlds d) s (poisonLine s d l kind n) := by
  have hcounted : Only [.mem, .evq] (poisonFlds d) s
      (raise (satInc (setPoison s l true) (F.MEM_Md_UNCORR_UNCORR d)) 0x1002 [(1, d), (4, n)]) :=
    (((Only.refl _ _ s).withMem (by decide) _).satInc (by simp [poisonFlds])).raise (by decide) _ _
  exact .ite hcounted (((hcounted.setFld (by simp [poisonFlds]) _).setFld (by simp [poisonFlds]) _).setFld (by simp [poisonFlds]) _)

/-- The state with a line poisoned, counted and reported, before its record. -/
def poisonCounted : State := raise (satInc (setPoison s l true) (F.MEM_Md_UNCORR_UNCORR d)) 0x1002 [(1, d), (4, n)]

theorem fld_poisonCounted_ne {f : Fld} (h : f.key ≠ (F.MEM_Md_UNCORR_UNCORR d).key) : fld (poisonCounted s d l n) f = fld s f :=
  fld_satInc_ne (setPoison s l true) h

theorem poisonLine_recorded (h : flag s (F.MEM_Md_LASTERR_VALID d) = true) : poisonLine s d l kind n = poisonCounted s d l n := by
  refine if_pos ?_
  rw [← h]
  exact flag_eq_of_fld (fld_poisonCounted_ne s d l n (by simp [F.MEM_Md_LASTERR_VALID, F.MEM_Md_UNCORR_UNCORR]))

theorem poisonLine_records (h : flag s (F.MEM_Md_LASTERR_VALID d) = false) : poisonLine s d l kind n
    = setFld (setFld (setFld (poisonCounted s d l n) (F.MEM_Md_LASTERR_KIND d) kind) (F.MEM_Md_LASTERR_LINE d) n)
        (F.MEM_Md_LASTERR_VALID d) 1 := by
  refine if_neg (ne_true_of_eq_false ?_)
  rw [← h]
  exact flag_eq_of_fld (fld_poisonCounted_ne s d l n (by simp [F.MEM_Md_LASTERR_VALID, F.MEM_Md_UNCORR_UNCORR]))

theorem counts_poisonLine : Counts (F.MEM_Md_UNCORR_UNCORR d) 1 s (poisonLine s d l kind n) := by
  have hcount : fld (poisonCounted s d l n) (F.MEM_Md_UNCORR_UNCORR d) = min (fld s (F.MEM_Md_UNCORR_UNCORR d) + 1)
      (2 ^ (F.MEM_Md_UNCORR_UNCORR d).width - 1) := fld_satInc_same (setPoison s l true) (F.MEM_Md_UNCORR_UNCORR d)
  cases h : flag s (F.MEM_Md_LASTERR_VALID d) with
  | true => rwa [poisonLine_recorded s d l kind n h]
  | false =>
    rw [poisonLine_records s d l kind n h, Counts,
      fld_setFld_ne _ (by simp [F.MEM_Md_LASTERR_VALID, F.MEM_Md_UNCORR_UNCORR]),
      fld_setFld_ne _ (by simp [F.MEM_Md_LASTERR_LINE, F.MEM_Md_UNCORR_UNCORR]),
      fld_setFld_ne _ (by simp [F.MEM_Md_LASTERR_KIND, F.MEM_Md_UNCORR_UNCORR]), hcount]

theorem valid_poisonLine : flag (poisonLine s d l kind n) (F.MEM_Md_LASTERR_VALID d) = true := by
  cases h : flag s (F.MEM_Md_LASTERR_VALID d) with
  | true =>
    rw [poisonLine_recorded s d l kind n h, ← h]
    exact flag_eq_of_fld (fld_poisonCounted_ne s d l n (by simp [F.MEM_Md_LASTERR_VALID, F.MEM_Md_UNCORR_UNCORR]))
  | false =>
    rw [poisonLine_records s d l kind n h, flag, fld_setFld_same]
    rfl

theorem record_poisonLine (h : flag s (F.MEM_Md_LASTERR_VALID d) = false) :
    fld (poisonLine s d l kind n) (F.MEM_Md_LASTERR_KIND d) = kind % 2
    ∧ fld (poisonLine s d l kind n) (F.MEM_Md_LASTERR_LINE d) = n % 2 ^ 20 := by
  rw [poisonLine_records s d l kind n h]
  constructor
  · rw [fld_setFld_ne _ (by simp [F.MEM_Md_LASTERR_VALID, F.MEM_Md_LASTERR_KIND]),
      fld_setFld_ne _ (by simp [F.MEM_Md_LASTERR_LINE, F.MEM_Md_LASTERR_KIND]), fld_setFld_same]
    rfl
  · rw [fld_setFld_ne _ (by simp [F.MEM_Md_LASTERR_VALID, F.MEM_Md_LASTERR_LINE]), fld_setFld_same]
    rfl

theorem record_kept (h : flag s (F.MEM_Md_LASTERR_VALID d) = true) :
    fld (poisonLine s d l kind n) (F.MEM_Md_LASTERR_KIND d) = fld s (F.MEM_Md_LASTERR_KIND d)
    ∧ fld (poisonLine s d l kind n) (F.MEM_Md_LASTERR_LINE d) = fld s (F.MEM_Md_LASTERR_LINE d) := by
  rw [poisonLine_recorded s d l kind n h]
  exact ⟨fld_poisonCounted_ne s d l n (by simp [F.MEM_Md_LASTERR_KIND, F.MEM_Md_UNCORR_UNCORR]),
    fld_poisonCounted_ne s d l n (by simp [F.MEM_Md_LASTERR_LINE, F.MEM_Md_UNCORR_UNCORR])⟩

end

/-! ### What a die finds in a stored line -/

section
variable {s : State} {x e kind : Nat}

/-- A corrected line is only counted. -/
theorem dieDecode_corrects (h : Corrects [] e) : dieDecode s x e kind = countCorr s (dieOfByte x) := by
  obtain ⟨fixes, hdec, hfix⟩ := corrects_iff.1 h
  simp [dieDecode, hdec, hfix, flipLine_zero]

theorem dieDecode_zero : dieDecode s x 0 kind = s := by
  simp [dieDecode, lineDecode_zero, flipLine_zero]

/-- The state with the line of byte x lost to its flips. -/
def lineSpoilt (s : State) (x e kind : Nat) : State :=
  poisonLine (flipLine s (storLine s x) (e % 2 ^ 512)) (dieOfByte x) (storLine s x) kind (x % 0x04000000 / 64)

theorem only_lineSpoilt (s : State) (x e kind : Nat) : Only [.mem, .evq] (poisonFlds (dieOfByte x)) s (lineSpoilt s x e kind) :=
  ((only_flipLine s (storLine s x) _).mono (by simp) (by simp)).trans (only_poisonLine ..)

/-- The registers that say where a byte lies: the Timetable's partition and the modes of the groups. -/
abbrev placeFlds : List Fld := F.TT_STATUS_RESERVED :: F.TT_SIZE_ENTRIES :: (List.range 24).map F.MEM_GRPn_CFG_MODE

section
variable {ps : List Part} {fs : List Fld} {u : State}

theorem inPartition_of_only (h : Only ps fs s u) (hfs : ∀ f ∈ placeFlds, f.key ∉ fs.map Fld.key) (x : Nat) :
    inPartition u x = inPartition s x := by
  rw [inPartition, inPartition, ttReserved, ttReserved, ttBase, ttBase, flag_eq_of_fld (h.2 _ (hfs F.TT_STATUS_RESERVED (by simp))),
    h.2 _ (hfs F.TT_SIZE_ENTRIES (by simp))]

theorem groupMode_of_only (h : Only ps fs s u) (hfs : ∀ f ∈ placeFlds, f.key ∉ fs.map Fld.key) {n : Nat} (hn : n < 24) :
    groupMode u n = groupMode s n := by
  have hmode : fld u (F.MEM_GRPn_CFG_MODE n) = fld s (F.MEM_GRPn_CFG_MODE n) :=
    h.2 _ (hfs _ (List.mem_cons_of_mem _ (List.mem_cons_of_mem _ (List.mem_map_of_mem (List.mem_range.2 hn)))))
  rw [groupMode, groupMode, groupHasTt, groupHasTt, ttReserved, ttReserved, ttBase, ttBase,
    flag_eq_of_fld (h.2 _ (hfs F.TT_STATUS_RESERVED (by simp))), h.2 _ (hfs F.TT_SIZE_ENTRIES (by simp)), hmode]

theorem slotOfByte_of_only (h : Only ps fs s u) (hfs : ∀ f ∈ placeFlds, f.key ∉ fs.map Fld.key) (x : Nat) :
    slotOfByte u x = slotOfByte s x := by
  have hgroups : cacheGroups u = cacheGroups s :=
    List.filter_congr fun n hn => by rw [groupMode_of_only h hfs (List.mem_range.1 hn)]
  rw [slotOfByte, slotOfByte, hgroups]

theorem storLine_of_only (h : Only ps fs s u) (hfs : ∀ f ∈ placeFlds, f.key ∉ fs.map Fld.key) {x : Nat} (hx : x < 0x0C000000) :
    storLine u x = storLine s x := by
  have hmode := groupMode_of_only h hfs (n := groupOf x) (by rw [groupOf]; omega)
  rw [storLine, storLine, bankOf, bankOf, rowOf, rowOf, hmode]

end

/-- A line that belongs to neither the Timetable nor the stack cache is only poisoned. -/
theorem dieDecode_lost (h : lineDecode [] e = none) (hpart : inPartition s x = false) (hslot : slotOfByte s x = none)
    (hx : x < 0x0C000000) : dieDecode s x e kind = lineSpoilt s x e kind := by
  have hflip := only_flipLine s (storLine s x) (e % 2 ^ 512)
  have hpoison : ∀ f ∈ placeFlds, f.key ∉ (poisonFlds (dieOfByte x)).map Fld.key := by
    intro f hf
    simp only [placeFlds, List.mem_cons, List.mem_map, List.mem_range] at hf
    rcases hf with rfl | rfl | ⟨n, hn, rfl⟩ <;>
    simp [poisonFlds, F.TT_STATUS_RESERVED, F.TT_SIZE_ENTRIES, F.MEM_GRPn_CFG_MODE, F.MEM_Md_UNCORR_UNCORR, F.MEM_Md_LASTERR_VALID,
      F.MEM_Md_LASTERR_KIND, F.MEM_Md_LASTERR_LINE, dieOfByte] <;> omega
  have hline : storLine (flipLine s (storLine s x) (e % 2 ^ 512)) x = storLine s x := storLine_of_only hflip (by simp) hx
  have hslot' : slotOfByte (lineSpoilt s x e kind) x = none := (slotOfByte_of_only (only_lineSpoilt s x e kind) hpoison x).trans hslot
  simp only [dieDecode, h, lineLost, hline, inPartition_of_only hflip (by simp) x, hpart, Bool.false_eq_true, if_false]
  change (match slotOfByte (lineSpoilt s x e kind) x with
    | some k => cacheLineError (lineSpoilt s x e kind) k
    | none => lineSpoilt s x e kind) = _
  rw [hslot']

end

/-! ### What the claims say of a poisoned line -/

section
variable {s u u' : State} {a e kind : Nat}

/-- The claim about a poisoned line speaks of the memory dies and of the four registers of its die. -/
theorem poisons_congr (h : Poisons s u a e kind) (hmem : u'.mem = u.mem) (hflds : ∀ f ∈ poisonFlds (dieAt a), fld u' f = fld u f) :
    Poisons s u' a e kind := by
  obtain ⟨hline, hothers, hcells, hcells', hparts, hcount, hvalid, hnew, hold⟩ := h
  have hpois : ∀ k, poisoned u' k = poisoned u k := fun k => by rw [poisoned, poisoned, hmem]
  have hkind := hflds (F.MEM_Md_LASTERR_KIND (dieAt a)) (by simp [poisonFlds])
  have hrow := hflds (F.MEM_Md_LASTERR_LINE (dieAt a)) (by simp [poisonFlds])
  refine ⟨(hpois _).trans hline, fun k hk => (hpois k).trans (hothers k hk), fun i hi => (cell_congr hmem _ _).trans (hcells i hi),
    fun k o ho hk => (cell_congr hmem _ _).trans (hcells' k o ho hk), by rw [hmem]; exact hparts,
    (hflds _ (by simp [poisonFlds])).trans hcount, (flag_eq_of_fld (hflds _ (by simp [poisonFlds]))).trans hvalid, fun h => ?_, fun h => ?_⟩
  · exact ⟨hkind.trans (hnew h).1, hrow.trans (hnew h).2⟩
  · exact ⟨hkind.trans (hold h).1, hrow.trans (hold h).2⟩

theorem poisons_lineSpoilt (s : State) {x : Nat} (hx : memByte (a / 64 * 64) = x) (e : Nat) (hkind : kind < 2) :
    Poisons s (lineSpoilt s x e kind) a e kind := by
  have hdie : dieAt a = dieOfByte x := by rw [dieAt, hx]
  have hline : lineAt s a = storLine s x := by rw [lineAt, hx]
  have he : e % 2 ^ 512 < 2 ^ 512 := Nat.mod_lt e (Nat.two_pow_pos 512)
  have hmem := mem_poisonLine (flipLine s (storLine s x) (e % 2 ^ 512)) (dieOfByte x) (storLine s x) kind (x % 0x04000000 / 64)
  have hflip := mem_flipLine s (storLine s x) he
  have hcell : ∀ k o, o < 64 → cell (lineSpoilt s x e kind) k o = cell (flipLine s (storLine s x) (e % 2 ^ 512)) k o := fun k o _ => by
    rw [cell, cell, lineSpoilt, hmem]
    rfl
  have hpois : ∀ k, poisoned (lineSpoilt s x e kind) k = (smGet (smSet s.mem.poison (storLine s x) 1 0) k 0 == 1) := fun k => by
    rw [poisoned, lineSpoilt, hmem, hflip]
  have hflds : ∀ f ∈ poisonFlds (dieOfByte x), fld (flipLine s (storLine s x) (e % 2 ^ 512)) f = fld s f := fun f _ =>
    (only_flipLine s (storLine s x) _).2 f (by simp)
  have hbits : ∀ i, i < 64 → bits (e % 2 ^ 512) (8 * i) 8 = bits e (8 * i) 8 := fun i hi => by
    apply Nat.eq_of_testBit_eq
    intro j
    rw [testBit_bits, testBit_bits, Nat.testBit_mod_two_pow]
    by_cases hj : j < 8
    · rw [decide_eq_true (by omega : 8 * i + j < 512), Bool.true_and]
    · simp [hj]
  have hsmall : x % 0x04000000 / 64 % 2 ^ 20 = x % 0x04000000 / 64 := by omega
  rw [Poisons, hdie, hline, hx]
  refine ⟨?_, fun k hk => ?_, fun i hi => ?_, fun k o ho hk => ?_, ?_, ?_, valid_poisonLine .., fun h => ?_, fun h => ?_⟩
  · rw [hpois, smGet_smSet_same]
    rfl
  · rw [hpois, smGet_smSet_ne _ hk, poisoned]
  · rw [hcell _ _ hi, cell_flipLine s _ he _ hi, if_pos rfl, hbits i hi]
  · rw [hcell _ _ ho, cell_flipLine s _ he _ ho, if_neg hk]
  · rw [lineSpoilt, hmem, hflip]
  · rw [Counts, ← hflds (F.MEM_Md_UNCORR_UNCORR (dieOfByte x)) (by simp [poisonFlds])]
    exact counts_poisonLine ..
  · rw [← flag_eq_of_fld (hflds (F.MEM_Md_LASTERR_VALID (dieOfByte x)) (by simp [poisonFlds]))] at h
    obtain ⟨hk, hl⟩ := record_poisonLine _ (dieOfByte x) (storLine s x) kind (x % 0x04000000 / 64) h
    exact ⟨hk.trans (Nat.mod_eq_of_lt hkind), hl.trans hsmall⟩
  · rw [← hflds (F.MEM_Md_LASTERR_KIND (dieOfByte x)) (by simp [poisonFlds]),
      ← hflds (F.MEM_Md_LASTERR_LINE (dieOfByte x)) (by simp [poisonFlds])]
    rw [← flag_eq_of_fld (hflds (F.MEM_Md_LASTERR_VALID (dieOfByte x)) (by simp [poisonFlds]))] at h
    exact record_kept _ (dieOfByte x) (storLine s x) kind (x % 0x04000000 / 64) h

end

end Sys2Proof.Machine
end


section
/-! SUPPORT. The patrol's visits, re-reads, and the modes and owners of groups (R268 to R270, R281, R284). -/
namespace Sys2Proof.Machine

variable {s u : State} {d : Fin 3}

/-! ### The patrol -/

theorem noFlips : (0 : BitVec 560).toNat = 0 := by simp

/-- The byte that the patrol of die d + 1 visits. -/
def patrolByte (s : State) (d : Fin 3) : Nat := d * 0x04000000 + 64 * fld s (F.MEM_Md_PATROL_LINE (d + 1))

theorem patrolByte_lt (s : State) (d : Fin 3) : patrolByte s d < (d + 1) * 0x04000000 := by
  have hline : fld s (F.MEM_Md_PATROL_LINE (d + 1)) < 2 ^ 20 := fld_lt ..
  rw [patrolByte]
  omega

theorem memByte_patrolByte (s : State) (d : Fin 3) : memByte (patrolByte s d / 64 * 64) = patrolByte s d := by
  have hlt := patrolByte_lt s d
  have hd := d.isLt
  have hround : patrolByte s d / 64 * 64 = patrolByte s d := by
    rw [patrolByte]
    omega
  rw [hround, memByte, memWay, if_pos (by omega)]

theorem dieOfByte_patrolByte (s : State) (d : Fin 3) : dieOfByte (patrolByte s d) = d + 1 := by
  have hlt := patrolByte_lt s d
  rw [dieOfByte]
  rw [patrolByte] at hlt ⊢
  omega

/-- A visit before the last line of a pass: the line is decoded, and the next one is due. -/
theorem patrolVisit_next (hen : flag s F.MEM_PATROL_ENABLE = true) (hrst : dieInReset s (memPos (d + 1)) = false)
    (hline : fld s (F.MEM_Md_PATROL_LINE (d + 1)) ≠ 2 ^ 20 - 1) (e secs : Nat) : patrolVisit s (d + 1) e secs
      = setFld (if poisoned s (lineAt s (patrolByte s d)) then s else dieDecode s (patrolByte s d) e 0) (F.MEM_Md_PATROL_LINE (d + 1))
        (fld s (F.MEM_Md_PATROL_LINE (d + 1)) + 1) := by
  have hlt : fld s (F.MEM_Md_PATROL_LINE (d + 1)) < 2 ^ 20 := fld_lt ..
  have hbyte : (d.val + 1 - 1) * 0x04000000 + fld s (F.MEM_Md_PATROL_LINE (d + 1)) * 64 = patrolByte s d := by
    rw [patrolByte, Nat.add_sub_cancel, Nat.mul_comm 64]
  have hnext : (fld s (F.MEM_Md_PATROL_LINE (d + 1)) + 1) % 2 ^ 20 = fld s (F.MEM_Md_PATROL_LINE (d + 1)) + 1 :=
    Nat.mod_eq_of_lt (by omega)
  rw [lineAt, memByte_patrolByte]
  unfold patrolVisit
  rw [if_neg (by simp [hen, hrst])]
  simp only [hbyte, hnext]
  exact if_neg hline

theorem fld_patrolled (hline : fld s (F.MEM_Md_PATROL_LINE (d + 1)) ≠ 2 ^ 20 - 1) (w : State) :
    fld (setFld w (F.MEM_Md_PATROL_LINE (d + 1)) (fld s (F.MEM_Md_PATROL_LINE (d + 1)) + 1)) (F.MEM_Md_PATROL_LINE (d + 1))
      = fld s (F.MEM_Md_PATROL_LINE (d + 1)) + 1 := by
  have hlt : fld s (F.MEM_Md_PATROL_LINE (d + 1)) < 2 ^ 20 := fld_lt ..
  exact (fld_setFld_same ..).trans (Nat.mod_eq_of_lt (show _ < 2 ^ 20 by omega))

theorem fld_patrolPass_ne (w : State) (d secs : Nat) {f : Fld} (h : f.key ≠ (F.MEM_Md_PATROL_LAST_PASS d).key) :
    fld (patrolPass w d secs) f = fld w f := by
  unfold patrolPass
  split <;> exact fld_setFld_ne w h _

theorem fld_patrolPass_same (w : State) (d secs : Nat) :
    fld (patrolPass w d secs) (F.MEM_Md_PATROL_LAST_PASS d) = min (secs / 60) 4095 := by
  have hlt : min (secs / 60) 4095 < 2 ^ 12 := by omega
  unfold patrolPass
  split <;> exact (fld_setFld_same w _ _).trans (Nat.mod_eq_of_lt hlt)

/-! ### Re-reads -/

/-- The state in which `rest` waits to be read again. -/
def rereadLeft (s : State) (rest : List Nat) : State := { s with mem := { s.mem with reread := rest } }

theorem onlyParts_rereadLeft (s : State) (rest : List Nat) : OnlyParts [.mem] s (rereadLeft s rest) := by
  intro q hq
  cases q
  case mem => exact absurd hq (by decide)
  all_goals rfl

theorem memReread_cons {l : Nat} {rest : List Nat} (h : s.mem.reread = l :: rest) (e : Nat) : memReread s e
    = if poisoned s l then rereadLeft s rest else dieDecode (rereadLeft s rest) (byteOfLine s l) e 1 := by
  rw [memReread, h]
  rfl

/-- The first byte of a storage line lies in the line's die. -/
theorem dieOfByte_byteOfLine (s : State) (l : Nat) : dieOfByte (byteOfLine s l) = l / 2 ^ 20 + 1 := by
  unfold dieOfByte byteOfLine
  simp only
  split <;> omega

/-! ### Owners -/

/-- The byte of a write is a listed code, for a bank outside the partition. -/
def ownerTaken (s : State) (n word v i : Nat) : Bool := codeKnown (bits v (8 * i) 8) && !bankIsTt s n (4 * word + i)

/-- The owner bytes that a write of one word can take. -/
abbrev ownerFlds (n word : Nat) : List Fld := (List.range 4).map fun i => F.MEM_GRPn_OWNER_OWNERi n (4 * word + i)

theorem ownerFlds_keys (n word a b : Nat) (h : a ≠ b) :
    (F.MEM_GRPn_OWNER_OWNERi n (4 * word + a)).key ≠ (F.MEM_GRPn_OWNER_OWNERi n (4 * word + b)).key := by
  simp only [F.MEM_GRPn_OWNER_OWNERi]
  omega

theorem ownerTaken_of_only {n word : Nat} (h : Only [] (ownerFlds n word) s u) (v i : Nat) :
    ownerTaken u n word v i = ownerTaken s n word v i := by
  have hfld : ∀ f : Fld, f.key < 8421408 → fld u f = fld s f := fun f hf => h.2 f fun hin => by
    obtain ⟨g, hg, hkey⟩ := List.mem_map.1 hin
    obtain ⟨j, -, rfl⟩ := List.mem_map.1 hg
    have hlow : 8421408 ≤ (F.MEM_GRPn_OWNER_OWNERi n (4 * word + j)).key := by
      simp only [F.MEM_GRPn_OWNER_OWNERi]
      omega
    omega
  rw [ownerTaken, ownerTaken, bankIsTt, bankIsTt, ttReserved, ttReserved, ttBase, ttBase,
    flag_eq_of_fld (hfld F.TT_STATUS_RESERVED (by decide)), hfld F.TT_SIZE_ENTRIES (by decide)]

/-- A write of a word of owners is one write for each byte that is taken. -/
theorem groupOwnerWrite_eq (s : State) (n word v : Nat) : groupOwnerWrite s n word v
    = forEach ((List.range 4).filter (ownerTaken s n word v))
        (fun s i => setFld s (F.MEM_GRPn_OWNER_OWNERi n (4 * word + i)) (bits v (8 * i) 8)) s := by
  have hloop : groupOwnerWrite s n word v = forEach (List.range 4) (fun u i => if ownerTaken s n word v i
      then setFld u (F.MEM_GRPn_OWNER_OWNERi n (4 * word + i)) (bits v (8 * i) 8) else u) s := by
    refine forEach_congr (P := Only [] (ownerFlds n word) s) (fun u i _ hu => ?_) (fun u i hi hu => ?_) (Only.refl _ _ s)
    · rw [← ownerTaken_of_only hu, ownerTaken, ownerByte]
      cases codeKnown (bits v (8 * i) 8) <;> cases bankIsTt u n (4 * word + i) <;> rfl
    · exact .ite (hu.setFld (List.mem_map_of_mem hi) _) hu
  rw [hloop]
  exact List.foldl_filter.symm

theorem groupOwnerWrite_spec (s : State) (n word v : Nat) :
    (∀ i, i < 4 → ownerTaken s n word v i = false → fld (groupOwnerWrite s n word v) (F.MEM_GRPn_OWNER_OWNERi n (4 * word + i))
      = fld s (F.MEM_GRPn_OWNER_OWNERi n (4 * word + i)))
    ∧ (∀ i, i < 4 → ownerTaken s n word v i = true → fld (groupOwnerWrite s n word v) (F.MEM_GRPn_OWNER_OWNERi n (4 * word + i))
      = bits v (8 * i) 8)
    ∧ Only [] (ownerFlds n word) s (groupOwnerWrite s n word v) := by
  rw [groupOwnerWrite_eq]
  refine ⟨fun i hi hno => ?_, fun i hi hyes => ?_, ?_⟩
  · refine forEach_mem_keeps (P := fun u => fld u (F.MEM_GRPn_OWNER_OWNERi n (4 * word + i))
      = fld s (F.MEM_GRPn_OWNER_OWNERi n (4 * word + i))) (fun u j hj hu => ?_) rfl
    have hne : i ≠ j := fun h => by
      rw [h, (List.mem_filter.1 hj).2] at hno
      cases hno
    exact (fld_setFld_ne u (ownerFlds_keys n word i j hne) _).trans hu
  · exact (fld_forEach_write (G := fun i => F.MEM_GRPn_OWNER_OWNERi n (4 * word + i)) (v := fun i => bits v (8 * i) 8)
      (ownerFlds_keys n word) (List.mem_filter.2 ⟨List.mem_range.2 hi, hyes⟩) s).trans (Nat.mod_eq_of_lt (bits_lt ..))
  · exact forEach_mem_keeps (P := Only [] (ownerFlds n word) s)
      (fun u j hj hu => hu.setFld (List.mem_map_of_mem (List.mem_filter.1 hj).1) _) (Only.refl _ _ s)

end Sys2Proof.Machine
end

section
open Sys2Proof Sys2Proof.Machine

/-- Settles O38: a visit and a re-read by `dieDecode_corrects` and `dieDecode_lost`. -/
theorem patrolModesAndOwners : Obligations.PatrolModesAndOwners := by
  refine ⟨?visit, ?pass, ?corrects, ?poisons, ?off, ?reread, ?none, ?mode, ?refused, ?reserved, ?owner, ?disable, ?disabled, ?patrolOff,
    ?initDone, ?initOwed⟩
  case visit =>
    intro d secs s hq hclk hen hrst hline
    have hexec := patrolVisit_next hen hrst hline (0 : BitVec 560).toNat secs.toNat
    rw [noFlips, dieDecode_zero, ite_self, ← noFlips] at hexec
    exact completes_eq_quiet rfl ((if_pos hclk).trans hexec) hq
      ⟨fld_patrolled hline s, (Only.refl [] [F.MEM_Md_PATROL_LINE (d + 1)] s).setFld (by simp) _⟩
  case pass =>
    intro d secs s hq hclk hen hrst hline
    have hexec : patrolVisit s (d + 1) (0 : BitVec 560).toNat secs.toNat = patrolPass (setFld s (F.MEM_Md_PATROL_LINE (d + 1)) 0) (d + 1) secs.toNat := by
      unfold patrolVisit
      rw [noFlips, if_neg (by simp [hen, hrst])]
      simp only [dieDecode_zero, ite_self, hline, if_true]
      rfl
    have hstep : sysClocks s = true := hclk
    have honly : Only [.evq] [F.MEM_Md_PATROL_LINE (d + 1), F.MEM_Md_PATROL_LAST_PASS (d + 1)] s
        (patrolPass (setFld s (F.MEM_Md_PATROL_LINE (d + 1)) 0) (d + 1) secs.toNat) :=
      .ite ((((Only.refl _ _ s).setFld (by simp) 0).setFld (by simp) _).raise (by decide) _ _)
        (((Only.refl _ _ s).setFld (by simp) 0).setFld (by simp) _)
    have hevq : (patrolPass (setFld s (F.MEM_Md_PATROL_LINE (d + 1)) 0) (d + 1) secs.toNat).evq
        = if 86400 < secs.toNat then [ev 0x1004 []] else [] := by
      unfold patrolPass
      split
      · exact congrArg (· ++ _) hq
      · exact hq
    refine completes_eq rfl ((if_pos hstep).trans hexec) hevq ⟨?_, ?_, honly.hush hq⟩
    · rw [fld_hush, fld_patrolPass_ne _ _ _ (by simp [F.MEM_Md_PATROL_LINE, F.MEM_Md_PATROL_LAST_PASS])]
      exact fld_setFld_zero_same ..
    · rw [fld_hush, fld_patrolPass_same]
  case corrects =>
    intro d e secs s hq hclk hen hrst hline hpois hcorr
    have hexec := patrolVisit_next hen hrst hline e.toNat secs.toNat
    rw [dieDecode_corrects hcorr, dieOfByte_patrolByte, if_neg (by rw [patrolByte, hpois]; decide)] at hexec
    refine completes_eq rfl ((if_pos hclk).trans hexec) (congrArg (· ++ _) hq) ⟨fld_patrolled hline _, ?_, ?_⟩
    · rw [Counts, fld_hush, fld_setFld_ne _ (by simp [F.MEM_Md_PATROL_LINE, F.MEM_Md_CORR_CORR])]
      exact fld_satInc_same ..
    · exact Only.hush (((Only.raiseMerged ((Only.refl _ _ s).satInc (by simp)) (by decide) _ _ _).setFld (by simp) _)) hq
  case poisons =>
    intro d e secs s hq hclk hen hrst hline hdec hpois hplain
    obtain ⟨hpart, hslot⟩ := hplain
    rw [← patrolByte, memByte_patrolByte] at hpart hslot
    rw [← patrolByte] at hpois ⊢
    have hexec := patrolVisit_next hen hrst hline e.toNat secs.toNat
    have hlow : patrolByte s d < 0x0C000000 := by
      have := patrolByte_lt s d
      have := d.isLt
      omega
    rw [dieDecode_lost hdec hpart hslot hlow, if_neg (by rw [hpois]; decide)] at hexec
    have hspoilt := only_lineSpoilt s (patrolByte s d) e.toNat 0
    have hdie := dieOfByte_patrolByte s d
    have hdieAt : dieAt (patrolByte s d) = d + 1 := by rw [dieAt, memByte_patrolByte, hdie]
    refine completes_eq rfl ((if_pos hclk).trans hexec) ?_ ⟨fld_patrolled hline _, ?_, ?_⟩
    · have hevq := evq_poisonLine (flipLine s (storLine s (patrolByte s d)) (e.toNat % 2 ^ 512)) (dieOfByte (patrolByte s d))
        (storLine s (patrolByte s d)) 0 (patrolByte s d % 0x04000000 / 64)
      rw [(only_flipLine s _ _).evq (by decide), hq, List.nil_append] at hevq
      rw [poisonEv, hdieAt, ← hdie, memByte_patrolByte]
      exact hevq
    · refine poisons_congr (poisons_lineSpoilt s (memByte_patrolByte s d) e.toNat (by omega)) rfl fun f hf => ?_
      rw [hdieAt] at hf
      refine fld_setFld_ne _ ?_ _
      simp only [poisonFlds, List.mem_cons, List.not_mem_nil, or_false] at hf
      rcases hf with rfl | rfl | rfl | rfl <;>
      simp [F.MEM_Md_PATROL_LINE, F.MEM_Md_UNCORR_UNCORR, F.MEM_Md_LASTERR_VALID, F.MEM_Md_LASTERR_KIND, F.MEM_Md_LASTERR_LINE]
    · rw [hdie] at hspoilt
      exact Only.hush (((hspoilt.mono (by simp) (List.subset_cons_self _ _)).setFld (by simp) _)) hq
  case off =>
    intro d k secs s hq hoff
    exact completes_eq_quiet rfl (clocked_same (by simp [patrolVisit, hoff])) hq rfl
  case reread =>
    intro l rest e s hq hclk hlist
    have honly := onlyParts_rereadLeft s rest
    have hexec := memReread_cons hlist
    refine ⟨?_, fun hp => ?_, fun hp hcorr => ?_⟩
    · refine completes_eq_quiet (w' := rereadLeft s rest) rfl ((if_pos hclk).trans ((hexec _).trans ?_)) hq ⟨rfl, honly⟩
      rw [noFlips, dieDecode_zero, ite_self]
    · exact completes_eq_quiet rfl ((if_pos hclk).trans ((hexec _).trans (if_pos hp))) hq ⟨rfl, honly⟩
    · have hstep := (hexec e.toNat).trans (if_neg (by rw [hp]; decide))
      rw [dieDecode_corrects hcorr, dieOfByte_byteOfLine] at hstep
      have hframe : Only [.mem] [F.MEM_Md_CORR_CORR (l / 2 ^ 20 + 1)] s (rereadLeft s rest) :=
        ⟨honly.mono (by simp), fun _ _ => rfl⟩
      refine completes_eq rfl ((if_pos hclk).trans hstep) (congrArg (· ++ _) hq) ⟨rfl, fld_satInc_same (rereadLeft s rest) _, ?_⟩
      exact Only.hush (((hframe.mono (by simp) (List.Subset.refl _)).satInc (by simp)).raiseMerged (by simp) _ _ _) hq
  case none =>
    intro k s hq hnone
    exact completes_eq_quiet rfl (clocked_same (by simp [memReread, hnone])) hq rfl
  case mode =>
    intro n mode s hq hlt hgrp hsch hcache
    have hne : mode.toNat ≠ 3 := by omega
    have hgrp' : (groupHasTt s n && mode.toNat != 1) = false := by
      cases h : groupHasTt s n with
      | false => rfl
      | true => rw [hgrp h]; rfl
    have htwo : mode = 2 ↔ mode.toNat = 2 := ⟨fun h => by rw [h]; rfl, fun h => BitVec.eq_of_toNat_eq h⟩
    have hok : modeRefused s n mode.toNat = false := by
      unfold modeRefused
      simp only [hgrp', decide_eq_false (by omega : ¬12 ≤ (cacheGroups s).length), Bool.and_false, Bool.or_false, Bool.false_or]
      cases h : flag s F.SCH_CTRL_ENABLE with
      | false => rw [Bool.and_false]
      | true =>
        have hsame := htwo.symm.trans (hsch h)
        by_cases h2 : mode.toNat = 2
        · simp [h2, hsame.1 h2]
        · simp [h2, mt hsame.2 h2]
    have hexec : groupModeWrite s n mode.toNat = setFld s (F.MEM_GRPn_CFG_MODE n) mode.toNat := by
      simp [groupModeWrite, hne, hok]
    exact completes_eq_quiet rfl hexec hq
      ⟨(fld_setFld_same ..).trans (Nat.mod_eq_of_lt mode.isLt), (Only.refl [] [F.MEM_GRPn_CFG_MODE n] s).setFld (by simp) _⟩
  case refused =>
    intro n mode s hq hne hwhy
    have hne' : mode.toNat ≠ 3 := fun h => hne (BitVec.eq_of_toNat_eq h)
    have htwo : mode = 2 ↔ mode.toNat = 2 := ⟨fun h => by rw [h]; rfl, fun h => BitVec.eq_of_toNat_eq h⟩
    have hone : mode ≠ 1 → mode.toNat ≠ 1 := fun h h1 => h (BitVec.eq_of_toNat_eq h1)
    have hbad : modeRefused s n mode.toNat = true := by
      rcases hwhy with ⟨htt, hmode⟩ | ⟨hen, hchange⟩ | ⟨hmode, hold, hfull⟩
      · simp [modeRefused, htt, hone hmode]
      · rw [htwo] at hchange
        by_cases h2 : mode.toNat = 2
        · simp [modeRefused, hen, h2, hchange.1 h2]
        · have hold : groupMode s n = 2 := Classical.not_not.1 (mt hchange.2 h2)
          have hdiff : (2 : Nat) ≠ mode.toNat := fun h => h2 h.symm
          simp [modeRefused, hen, hold, hdiff]
      · simp [modeRefused, htwo.1 hmode, hold, hfull]
    have hexec : groupModeWrite s n mode.toNat = raise s 0x1005 [(1, n.val)] := by
      simp [groupModeWrite, hne', hbad]
    exact completes_eq rfl hexec (congrArg (· ++ _) hq) (hush_quiet hq)
  case reserved =>
    intro n s hq
    exact completes_eq_quiet rfl (by rfl) hq rfl
  case owner =>
    intro n upper v s hq
    obtain ⟨hkept, hwritten, honly⟩ := groupOwnerWrite_spec s n (b2n upper) v.toNat
    have hword : (if upper then 1 else 0) = b2n upper := by cases upper <;> rfl
    rw [hword]
    refine completes_eq_quiet rfl rfl ((honly.evq (by decide)).trans hq) ⟨fun i hi => ?_, honly⟩
    split
    · next h => exact hwritten i hi (by simpa [ownerTaken] using h)
    · next h => exact hkept i hi (by simpa [ownerTaken] using h)
  case disable =>
    intro s hq hen
    have hexec : memDisable s = if memDrained s then memDrainEnd s else setFld s F.MEM_STATUS_DRAINING 1 := if_neg (by simp [hen])
    cases hd : memDrained s with
    | true =>
      rw [hd, if_pos rfl] at hexec
      have hen' : flag (memDrainEnd s) F.MEM_CTRL_ENABLE = false := flag_plainEnd_enable s (by decide)
      exact completes_eq_quiet rfl hexec hq ⟨by rw [memEnabled, hen']; rfl, hen', onlyRegs_plainEnd ..⟩
    | false =>
      rw [hd, if_neg (by decide)] at hexec
      have hdr : flag (setFld s F.MEM_STATUS_DRAINING 1) F.MEM_STATUS_DRAINING = true := flag_b2n s F.MEM_STATUS_DRAINING rfl true
      refine completes_eq_quiet rfl hexec hq ⟨?_, ?_, (Only.refl [] _ s).setFld (by simp) 1⟩
      · rw [memEnabled, hdr, Bool.not_true, Bool.and_false]
      · exact (flag_eq_of_fld (fld_setFld_ne s (by decide) 1)).trans hen
  case disabled =>
    intro s hq hoff
    exact completes_eq_quiet rfl (by simp [memDisable, hoff]) hq rfl
  case patrolOff =>
    intro s hq
    exact completes_eq_quiet rfl rfl hq ⟨flag_of_fld (fld_setFld_zero_same ..), (Only.refl [] [F.MEM_PATROL_ENABLE] s).setFld (by simp) 0⟩
  case initDone =>
    intro s hq hst
    exact completes_eq_quiet rfl (if_neg (by simp [hst])) hq
      ⟨(flag_b2n s F.MEM_STATUS_INIT_DONE rfl true), (Only.refl [] [F.MEM_STATUS_INIT_DONE] s).setFld (by simp) 1⟩
  case initOwed =>
    intro s hq hst
    exact completes_eq_quiet rfl (if_pos hst) hq rfl

end


section
/-! SUPPORT. A served line of the memory dies without an error is read and written over BAR2, and what the endpoint's own commands
write (R370, R374, R381). -/
namespace Sys2Proof.Machine

/-! ### A served access to a line without flips -/

section
variable {s : State} {m a : Nat}

theorem memByte_lt (a : Nat) : memByte a < 0x0C000000 := by
  unfold memByte
  split
  · next w x h =>
    unfold memWay at h
    split_ifs at h <;> cases h <;> omega
  · omega

theorem roundTwice (a : Nat) : a / 64 * 64 / 64 * 64 = a / 64 * 64 := by omega

theorem attribFixes_nil (s : State) (k : Option Nat) : attribFixes s k [] = s := by
  cases k <;> rfl

/-- A transmission without flips completes with the line's bytes, POISON where the line is poisoned. -/
theorem portDecode_zero (s : State) (m tag x : Nat) (k : Option Nat) : portDecode s m tag x k 0
    = some (memDone s m tag x (if poisoned s (storLine s x) then ST.poison else ST.ok) (lineBytes s (storLine s x) 0 64)) := by
  have hbit : bitOf 0 512 = false := by rw [bitOf_eq_testBit, Nat.zero_testBit]
  rw [portDecode, lineDecode_zero, Option.map_some]
  simp only [attribFixes_nil, hbit]
  cases poisoned s (storLine s x) <;> simp

/-- The state with the repeated attempts of a read counted. -/
def repeatsCounted (s : State) (x b : Nat) : State := satAdd s (F.MEM_Md_BUSY_REPEATS (dieOfByte x)) (min b 3)

theorem only_repeatsCounted (s : State) (x b : Nat) : Only [] [F.MEM_Md_BUSY_REPEATS (dieOfByte x)] s (repeatsCounted s x b) :=
  (Only.refl _ _ s).setFld (by simp) _

theorem storLine_repeatsCounted (s : State) (x b : Nat) (hx : x < 0x0C000000) : storLine (repeatsCounted s x b) x = storLine s x := by
  refine storLine_of_only (only_repeatsCounted s x b) (fun f hf => ?_) hx
  simp only [placeFlds, List.mem_cons, List.mem_map, List.mem_range] at hf
  rcases hf with rfl | rfl | ⟨n, hn, rfl⟩ <;>
  simp [F.TT_STATUS_RESERVED, F.TT_SIZE_ENTRIES, F.MEM_GRPn_CFG_MODE, F.MEM_Md_BUSY_REPEATS, dieOfByte] <;> omega

/-- A served read of a line without flips completes with its bytes, as long as one of its four attempts gets through. -/
theorem memRead_served (hmay : mayIssue s m = true) (hok : memRefusalAt s m a false = 0) {b : Nat}
    (hb : b < 4 ∨ poisoned s (storLine s (memByte a)) = true) (tag : Nat) : memRead s m a tag 0 b false []
    = memDone (repeatsCounted s (memByte a) b) m tag (memByte a)
        (if poisoned s (storLine s (memByte a)) then ST.poison else ST.ok) (lineBytes s (storLine s (memByte a)) 0 64) := by
  have hline := storLine_repeatsCounted s (memByte a) b (memByte_lt a)
  have hpois : ∀ l, poisoned (repeatsCounted s (memByte a) b) l = poisoned s l := fun _ => rfl
  have hbytes : ∀ l, lineBytes (repeatsCounted s (memByte a) b) l 0 64 = lineBytes s l 0 64 := fun l => lineBytes_congr fun _ _ _ => rfl
  have hbusy : ¬(b = 4 ∧ poisoned s (storLine s (memByte a)) = false) := by
    rintro ⟨rfl, hp⟩
    rcases hb with h | h
    · omega
    · rw [h] at hp
      cases hp
  have hdec := portDecode_zero (repeatsCounted s (memByte a) b) m tag (memByte a) (pathOf s m (memByte a) false).head?
  rw [hline] at hdec
  unfold memRead
  simp only [hmay, hok, Bool.not_true, Bool.false_eq_true, if_false, ne_eq, not_true_eq_false, List.getD_nil, Nat.xor_self]
  rw [if_neg hbusy]
  change (portDecode (repeatsCounted s (memByte a) b) m tag (memByte a) (pathOf s m (memByte a) false).head? 0).getD _ = _
  rw [hdec, Option.getD_some, hpois, hbytes]

theorem memDone_ok (s : State) (m tag x data : Nat) : memDone s m tag x ST.ok data = respond s m tag ST.ok data := rfl

/-- A write whose codeword arrives without flips, to a good line of the plain range, stores its bytes. -/
theorem memWrite_served (hmay : mayIssue s m = true) (hok : memRefusalAt s m a false = 0) (hpois : poisoned s (storLine s (memByte a)) = false)
    (tag mask data : Nat) : memWrite s m a tag mask data 0 [] false false = respond (mergeLine s a 64 mask data) m tag ST.ok 0 := by
  have harrives : arrives (erasedOn s (pathOf s m (memByte a) false).getLast?) [] = some (0, []) := by
    rw [arrives, List.getD_nil, List.findSome?_cons, lineDecode_zero]
  have hnone : ∀ n, data ^^^ 0 % n = data := fun n => by rw [Nat.zero_mod, Nat.xor_zero]
  unfold memWrite
  simp only [hmay, hok, hpois, harrives, attribFixes_nil, dieDecode_zero, ite_self, hnone, Bool.not_true, Bool.and_false, Bool.false_eq_true,
    if_false, ne_eq, not_true_eq_false]
  exact memDone_ok ..

end

/-! ### BAR2 -/

section
variable {s : State} {o n : Nat}

/-- A request within a line is one part. -/
theorem lineParts_within (fuel : Nat) (hn : 0 < n) (h : o % 64 + n ≤ 64) : lineParts (fuel + 2) o n = [(o, n)] := by
  have hmin : min n (64 - o % 64) = n := by omega
  rw [lineParts, if_neg (by omega)]
  simp only [hmin, Nat.sub_self]
  rw [lineParts, if_pos rfl]

theorem bar2Ready_of (hup : linkUp s = true) (hmay : mayIssue s 0xC0 = true) (hpwr : fld s F.PWR_STATUS_STATE < 2) : bar2Ready s = true := by
  have hidle : pwrState s ≤ wIDLE := by
    have : wIDLE = 1 := rfl
    rw [pwrState]
    omega
  simp [bar2Ready, hup, mBAR2, hmay, hidle]

theorem rsps_memDone (s : State) (m tag x st data : Nat) : (memDone s m tag x st data).rsps = ⟨m, tag, st, data⟩ :: s.rsps := by
  unfold memDone
  dsimp only
  split_ifs <;> rfl

/-- What a good line answers over BAR2: the bytes asked for, with the attempts counted. -/
def bar2Good (s : State) (o n b : Nat) : State :=
  complete (respond (repeatsCounted s (memByte (o / 64 * 64)) b) 0xC0 0 ST.ok (lineNum s (lineAt s o))) .sc false n
    (bits (lineNum s (lineAt s o)) (8 * (o % 64)) (8 * n))

/-- What a poisoned line answers over BAR2: the same with EP, and counted. -/
def bar2Poisoned (s : State) (o n b : Nat) : State :=
  complete (respond (satInc (repeatsCounted s (memByte (o / 64 * 64)) b) (F.MEM_Md_POISON_RD_POISON (dieAt o))) 0xC0 0 ST.poison
    (lineNum s (lineAt s o))) .sc true n (bits (lineNum s (lineAt s o)) (8 * (o % 64)) (8 * n))

section
variable (hup : linkUp s = true) (hd3 : (pciFn s 0).d3 = false) (hon : pciOn s = true) (hpwr : fld s F.PWR_STATUS_STATE < 2)
  (hmay : mayIssue s 0xC0 = true) (hok : memRefusalAt s 0xC0 (o / 64 * 64) false = 0) (hn : 0 < n) (hin : o % 64 + n ≤ 64)
include hup hd3 hon hpwr hmay hok hn hin

/-- A BAR2 read within a line is answered by the line. -/
theorem bar2Read_within (b : Fin 5) (hb : b.val < 4 ∨ poisoned s (lineAt s o) = true) : bar2Read s o n [(0, [], b)]
    = if poisoned s (lineAt s o) then bar2Poisoned s o n b else bar2Good s o n b := by
  have hread := memRead_served hmay hok hb 0
  unfold bar2Read
  rw [lineParts_within 64 hn hin]
  simp only [hup, hd3, hon, bar2Ready_of hup hmay hpwr, Bool.not_true, Bool.false_eq_true, if_false]
  change bar2Part s o n (0, [], b) = _
  unfold bar2Part
  simp only [noFlips, List.map_nil]
  rw [show mBAR2 = 0xC0 from rfl, hread]
  simp only [rsps_memDone]
  cases hp : poisoned s (lineAt s o) <;> rw [lineAt] at hp <;> simp only [hp, Bool.false_eq_true, if_false, if_true] <;> rfl

/-- A BAR2 write within a good line merges its bytes. -/
theorem bar2Write_within (hpois : poisoned s (lineAt s o) = false) (be data : Nat) : bar2Write s o n be data false 0 [] false
    = respond (mergeLine s (o / 64 * 64) 64 ((be % 2 ^ n) * 2 ^ (o % 64)) ((data % 2 ^ (8 * n)) * 2 ^ (8 * (o % 64)))) 0xC0 0 ST.ok 0 := by
  have hwrite := memWrite_served hmay hok hpois 0 ((be % 2 ^ n) * 2 ^ (o % 64)) ((data % 2 ^ (8 * n)) * 2 ^ (8 * (o % 64)))
  unfold bar2Write
  rw [lineParts_within 8 hn hin]
  simp only [hup, hd3, hon, bar2Ready_of hup hmay hpwr, Bool.not_true, Bool.or_self, Bool.false_eq_true, if_false, bar2Stores, bar2Store,
    Nat.sub_self, Nat.mul_zero, Nat.shiftRight_zero, if_true]
  rw [show mBAR2 = 0xC0 from rfl, hwrite]
  rfl

end

end

/-! ### What an answer changes -/

section
variable {ps : List Part} {fs : List Fld} {o s : State}

theorem Only.setPci (h : Only ps fs o s) (hp : .pci ∈ ps) (x : Pci) : Only ps fs o (setPci s x) :=
  ⟨fun p hn => by
    have hs := h.1 p hn
    cases p
    case pci => exact absurd (List.mem_cons_of_mem _ hp) hn
    all_goals exact hs, h.2⟩

theorem Only.respond (h : Only ps fs o s) (hp : .rsps ∈ ps) (m tag status data : Nat) : Only ps fs o (respond s m tag status data) :=
  ⟨fun p hn => by
    have hs := h.1 p hn
    cases p
    case rsps => exact absurd (List.mem_cons_of_mem _ hp) hn
    all_goals exact hs, h.2⟩

end

theorem onlyParts_setPci (s : State) (x : Pci) : OnlyParts [.pci] s (setPci s x) := by
  intro q hq
  cases q
  case pci => exact absurd hq (by decide)
  all_goals rfl

section
variable (s : State) (o n b : Nat)

theorem only_bar2Good : Only [.pci, .rsps] [F.MEM_Md_BUSY_REPEATS (dieAt o)] s (bar2Good s o n b) :=
  (((only_repeatsCounted s (memByte (o / 64 * 64)) b).mono (by simp) (List.Subset.refl _)).respond (by decide) _ _ _ _).setPci (by decide) _

theorem only_bar2Poisoned : Only [.pci, .rsps] [F.MEM_Md_BUSY_REPEATS (dieAt o), F.MEM_Md_POISON_RD_POISON (dieAt o)] s (bar2Poisoned s o n b) :=
  ((((only_repeatsCounted s (memByte (o / 64 * 64)) b).mono (by simp) (by simp [dieAt])).satInc (by simp)).respond (by decide) _ _ _ _).setPci
    (by decide) _

theorem counts_bar2Poisoned : Counts (F.MEM_Md_POISON_RD_POISON (dieAt o)) 1 s (bar2Poisoned s o n b) := by
  have hrep : fld (repeatsCounted s (memByte (o / 64 * 64)) b) (F.MEM_Md_POISON_RD_POISON (dieAt o)) = fld s (F.MEM_Md_POISON_RD_POISON (dieAt o)) :=
    (only_repeatsCounted s _ b).2 _ (by simp [F.MEM_Md_POISON_RD_POISON, F.MEM_Md_BUSY_REPEATS, dieAt])
  rw [Counts, ← hrep]
  exact fld_satInc_same (repeatsCounted s (memByte (o / 64 * 64)) b) _

end

/-! ### Bytes of a BAR2 write -/

/-- A byte of data that is shifted to its place in a line. -/
theorem ofNat_shifted_byte (v n d p : Nat) (hd : d ≤ p) (hp : p < d + n) :
    BitVec.ofNat 8 (v % 2 ^ (8 * n) * 2 ^ (8 * d) / 256 ^ p) = BitVec.ofNat 8 (bits v (8 * (p - d)) 8) := by
  have hpow : 256 ^ p = 2 ^ (8 * p) := by rw [Nat.pow_mul]
  apply BitVec.eq_of_getLsbD_eq
  intro i hi
  have h1 : 8 * d ≤ 8 * p + i := by omega
  have h2 : 8 * p + i - 8 * d = 8 * (p - d) + i := by omega
  have h3 : 8 * (p - d) + i < 8 * n := by omega
  simp only [BitVec.getLsbD_ofNat, hpow, Nat.testBit_div_two_pow, Nat.testBit_mul_two_pow, Nat.testBit_mod_two_pow, testBit_bits, hi, h1, h3,
    decide_true, Bool.true_and, Nat.add_comm i (8 * p), h2]

/-- The byte enables of a write, shifted to its place in a line. -/
theorem testBit_shifted_mask (be n d p : Nat) :
    ((be % 2 ^ n) * 2 ^ d).testBit p = true ↔ d ≤ p ∧ p < d + n ∧ be.testBit (p - d) = true := by
  rw [Nat.testBit_mul_two_pow, Nat.testBit_mod_two_pow]
  simp only [Bool.and_eq_true, decide_eq_true_eq]
  constructor
  · rintro ⟨a, b, c⟩
    exact ⟨a, by omega, c⟩
  · rintro ⟨a, b, c⟩
    exact ⟨a, by omega, c⟩

/-- The memory serves a line of the plain range alone. -/
theorem memWay_of_served {s : State} {m a : Nat} (ha : a < 0x10000000) (hok : memRefusalAt s m a false = 0) : memWay a = some (.plain, a) := by
  by_cases hlow : a < 0x0C000000
  · rw [memWay, if_pos hlow]
  · have hnone : memWay a = none := by rw [memWay, if_neg hlow, if_neg (by omega), if_neg (by omega)]
    rw [memRefusalAt, hnone] at hok
    dsimp only at hok
    split at hok <;> exact absurd hok (by decide)

section
variable (s : State) {o n : Nat} (ho : o < 0x10000000) (hok : memRefusalAt s 0xC0 (o / 64 * 64) false = 0)
include ho hok

/-- The bytes of a line after the merge of a write over BAR2. -/
theorem cell_bar2Merged (be data j : Nat) {p : Nat} (hp : p < 64) :
    cell (mergeLine s (o / 64 * 64) 64 ((be % 2 ^ n) * 2 ^ (o % 64)) ((data % 2 ^ (8 * n)) * 2 ^ (8 * (o % 64)))) j p
      = if j = lineAt s o ∧ o % 64 ≤ p ∧ p < o % 64 + n ∧ be.testBit (p - o % 64) then BitVec.ofNat 8 (bits data (8 * (p - o % 64)) 8)
        else cell s j p := by
  have hzero : o / 64 * 64 % 64 = 0 := by omega
  unfold mergeLine
  rw [memWay_of_served (by omega) hok]
  dsimp only [mergeBytes]
  rw [hzero, ← lineAt, cell_setLineBytes _ _ j 0 64 _ _ hp (by omega), Nat.sub_zero]
  simp only [testBit_shifted_mask, Nat.zero_le, Nat.zero_add, hp, true_and]
  split
  · next h => exact ofNat_shifted_byte data n (o % 64) p h.2.1 h.2.2.1
  · rfl

end

/-! ### Configuration requests, the power states and the end of service -/

section
variable {s : State} {f v : Nat} {reg : CfgReg}

theorem complete_completed (s : State) (c : Cpl) : Completed c s (complete s c.st c.ep c.len c.data) := rfl

/-- A configuration request that the endpoint serves. -/
theorem configRequest_served (hup : linkUp s = true) (hready : s.pci.ready = true) (hvis : f = 0 ∨ ufVisible s f = true)
    (hpwr : fld s F.PWR_STATUS_STATE < 2) (w : Bool) : configRequest s f reg w v
      = if w then refuse (cfgWrite s f v reg) .sc else complete s .sc false 4 (cfgRead s f reg) := by
  have hawake : ¬ wSLEEP ≤ pwrState s := by
    have : wSLEEP = 2 := rfl
    rw [pwrState]
    omega
  have hshown : ¬(f ≠ 0 ∧ ufShown s f = false) := by
    rintro ⟨hf, hs⟩
    rcases hvis with h | h
    · exact hf h
    · simp [ufShown, hready, h] at hs
  rw [configRequest, if_neg (by simp [hup]), if_neg (by simp [hready, hawake]), if_neg hshown]

theorem cfgWrite_command (hf : f ≠ 0) : cfgWrite s f v .command
    = setPci s (withFn s f { pciFn s f with mem := v.testBit 1, bme := v.testBit 2 }) := by
  have hkept : pciFn (setPciFn s f { pciFn s f with mem := v.testBit 1 }) f = { pciFn s f with mem := v.testBit 1 } := smGet_smSet_same ..
  simp only [cfgWrite, if_neg hf, bitOf_eq_testBit]
  rw [hkept, setPciFn, setPciFn, withFn, setPci]
  dsimp only
  rw [smSet_smSet]

end

/-- What a disabled BAR2 write leaves recorded. -/
def bar2Recorded (s : State) (o st : Nat) : State :=
  setFld (setFld (setFld s F.PCI_BAR2_WERR_STATUS st) F.PCI_BAR2_WERR_OFF_OFFSET o) F.PCI_BAR2_WERR_VALID 1

theorem bar2Err_eq (s : State) (o st : Nat) :
    bar2Err s o st = raise (if flag s F.PCI_BAR2_WERR_VALID then s else bar2Recorded s o st) 0x2003 [] := by
  unfold bar2Err
  cases flag s F.PCI_BAR2_WERR_VALID <;> rfl

end Sys2Proof.Machine
end

section
open Sys2Proof Sys2Proof.Machine

/-- Settles O45: requests are answered by one completion each, and a line without flips serves a read or takes a write within it. -/
theorem endpointServesHost : Obligations.EndpointServesHost := by
  refine ⟨?linkUp, ?linkReset, ?ready, ?notReady, ?retried, ?hidden, ?read, ?userRead, ?msix, ?d3, ?d0, ?inD3, ?inD0, ?l1, ?noL1, ?bar2Read,
    ?bar2Poison, ?bar2Refused, ?bar2Write, ?bar2Aer, ?bar2Error, ?disable, ?disabled⟩
  case linkUp =>
    intro speed width s hq hp hh hdiff
    have hwidth : (2 : Nat) ^ width.val < 2 ^ 3 := Nat.pow_lt_pow_right (by omega) width.isLt
    have hspeed : speed.val + 1 < 2 ^ 3 := by omega
    have hsame : (Machine.linkUp s && !s.pci.l1 && fld s F.PCI_STATUS_SPEED == speed.val + 1 && fld s F.PCI_STATUS_WIDTH == 2 ^ width.val) = false := by
      rcases hdiff with h | h | h | h <;> simp [h]
    have hexec : pciLink s (speed.val + 1) (2 ^ width.val) = raise (setPci (setFld (setFld (setFld s F.PCI_STATUS_LINK_UP 1)
        F.PCI_STATUS_SPEED (speed.val + 1)) F.PCI_STATUS_WIDTH (2 ^ width.val)) { s.pci with l1 := false }) 0x2001 [] := by
      unfold pciLink
      rw [if_neg (by simp [hp, hh])]
      simp only [hsame, Bool.false_eq_true, if_false]
      rfl
    refine completes_eq rfl hexec (congrArg (· ++ _) hq) ⟨?_, ?_, ?_, rfl, ?_⟩
    · rw [Machine.linkUp, flag, fld_hush, fld_raise, fld_setPci, fld_setFld_ne _ (by decide), fld_setFld_ne _ (by decide), fld_setFld_same]
      rfl
    · rw [fld_hush, fld_raise, fld_setPci, fld_setFld_ne _ (by decide), fld_setFld_same]
      exact Nat.mod_eq_of_lt hspeed
    · rw [fld_hush, fld_raise, fld_setPci, fld_setFld_same]
      exact Nat.mod_eq_of_lt hwidth
    · exact Only.hush ((((((Only.refl _ _ s).setFld (by simp) _).setFld (by simp) _).setFld (by simp) _).setPci (by decide) _).raise (by decide) _ _) hq
  case linkReset =>
    intro speed width s hq hrst
    exact completes_eq_quiet rfl (if_pos (by simpa using hrst)) hq rfl
  case ready =>
    intro s hq hp hh hstep
    exact completes_eq_quiet rfl (if_neg (by simp [hp, hh, hstep])) hq rfl
  case notReady =>
    intro s hq h
    exact completes_eq_quiet rfl (if_pos (by simpa [or_assoc] using h)) hq rfl
  case retried =>
    intro reg w v s hq hup hready
    exact completes_eq_quiet rfl ((if_neg (by simp [hup])).trans (if_pos (.inl ⟨rfl, hready⟩))) hq ⟨rfl, onlyParts_setPci _ _⟩
  case hidden =>
    intro f reg w v s hq hup hf hhid hpwr
    have hf' : f.val ≠ 0 := fun h => hf (Fin.ext h)
    have hawake : ¬ wSLEEP ≤ pwrState s := by
      have : wSLEEP = 2 := rfl
      rw [pwrState]
      omega
    refine completes_eq_quiet rfl ((if_neg (by simp [hup])).trans ((if_neg (by simp [hf', hawake])).trans (if_pos ⟨hf', ?_⟩))) hq
      ⟨rfl, onlyParts_setPci _ _⟩
    simp [ufShown, hhid]
  case read =>
    intro v s hq hup hready hpwr
    have hread := fun reg => configRequest_served (v := v.toNat) (reg := reg) hup hready (.inl rfl) hpwr false
    have hparts : ∀ reg, OnlyParts [.pci] s (complete s .sc false 4 (cfgRead s 0 reg)) := fun reg => onlyParts_setPci _ _
    refine ⟨completes_eq_quiet rfl (hread .vendorDevice) hq ⟨?_, hparts _⟩, completes_eq_quiet rfl (hread .revisionClass) hq ⟨?_, hparts _⟩,
      completes_eq_quiet rfl (hread (.bar 4)) hq ⟨?_, hparts _⟩, completes_eq_quiet rfl (hread .headerType) hq ⟨?_, hparts _⟩,
      completes_eq_quiet rfl (hread .msixControl) hq ⟨?_, hparts _⟩⟩
    case refine_5 =>
      cases hm : (pciFn s 0).fmask <;> cases hx : (pciFn s 0).msix <;> simp [Completed, complete, cfgRead, setPci, hm, hx, lastVec, b2n]
    all_goals simp [Completed, complete, cfgRead, setPci, barRead]
  case userRead =>
    intro f v s hq hup hready hf hvis hpwr
    have hf' : f.val ≠ 0 := fun h => hf (Fin.ext h)
    refine ⟨completes_eq_quiet rfl (configRequest_served hup hready (.inr hvis) hpwr false) hq ⟨?_, onlyParts_setPci _ _⟩,
      completes_eq_quiet rfl ((configRequest_served hup hready (.inr hvis) hpwr true).trans (congrArg (refuse · .sc) (cfgWrite_command hf'))) hq
        ⟨rfl, onlyParts_setPci _ _⟩⟩
    simp [Completed, complete, cfgRead, setPci, hf']
  case msix =>
    intro f v s hq hup hready hvis hpwr
    have hvis' : f.val = 0 ∨ ufVisible s f = true := hvis.imp_left fun h => congrArg Fin.val h
    refine completes_eq_quiet rfl (configRequest_served hup hready hvis' hpwr true) hq ⟨?_, onlyParts_setPci _ _⟩
    simp only [if_true, refuse, complete, setPci, cfgWrite, setPciFn, withFn, bitOf_eq_testBit]
  case d3 =>
    intro s hq hd0 hbme
    have hoff : bme (setFld (setPciFn (raise s 0x2005 []) 0 { pciFn s 0 with d3 := true }) F.PCI_STATUS_D3HOT 1) = false :=
      (flag_eq_of_fld (fld_setFld_ne _ (by decide) _)).trans hbme
    refine completes_eq rfl ((if_neg (by simp [hd0])).trans (if_pos (by simp [hoff]))) (congrArg (· ++ _) hq) ⟨rfl, ?_, ?_⟩
    · rw [flag, fld_hush, fld_setFld_same]
      rfl
    · exact Only.hush ((((Only.refl _ _ s).raise (by decide) _ _).setPci (by decide) _).setFld (by simp) _) hq
  case d0 =>
    intro s hq hd3 hbme
    refine completes_eq_quiet rfl ((if_neg (by simp [hd3])).trans (if_neg (by simp [hbme]))) hq ⟨rfl, ?_, ?_⟩
    · rw [flag, fld_setFld_same]
      rfl
    · exact ((Only.refl _ _ s).setPci (by decide) _).setFld (by simp) _
  case inD3 =>
    intro s hq hd3
    exact completes_eq_quiet rfl (if_pos hd3) hq rfl
  case inD0 =>
    intro s hq hd0
    exact completes_eq_quiet rfl (if_pos (by simp [hd0])) hq rfl
  case l1 =>
    intro s hq hup hfills hrings haspm
    have hidle : hostIdle s = true := by
      rw [hostIdle, hfills, List.isEmpty_nil, Bool.true_and, List.all_eq_true]
      intro k hk
      rw [hrings k (List.mem_range.1 hk), List.all_nil]
    exact completes_eq_quiet rfl (if_pos (by simp [hup, hidle, haspm])) hq rfl
  case noL1 =>
    intro s hq h
    refine completes_eq_quiet rfl (if_neg ?_) hq rfl
    rcases h with h | h <;> simp [h, hostIdle]
  case bar2Read =>
    intro off len b s hq hup hd3 hon hpwr hn hin hserved hgood hb
    obtain ⟨-, hmay, hok⟩ := hserved
    rw [roundTwice] at hok
    have hread := bar2Read_within hup hd3 hon hpwr hmay hok hn hin b (.inl hb)
    rw [hgood, if_neg (by decide)] at hread
    exact completes_eq_quiet rfl hread (((only_bar2Good ..).evq (by decide)).trans hq) ⟨rfl, only_bar2Good ..⟩
  case bar2Poison =>
    intro off len b s hq hup hd3 hon hpwr hn hin hserved hpois
    obtain ⟨-, hmay, hok⟩ := hserved
    rw [roundTwice] at hok
    have hread := bar2Read_within hup hd3 hon hpwr hmay hok hn hin b (.inr hpois)
    rw [if_pos hpois] at hread
    exact completes_eq_quiet rfl hread (((only_bar2Poisoned ..).evq (by decide)).trans hq) ⟨rfl, counts_bar2Poisoned .., only_bar2Poisoned ..⟩
  case bar2Refused =>
    intro off len xs s hq hup h
    refine completes_eq_quiet (w' := refuse s (if (pciFn s 0).d3 then .ur else .ca)) rfl ?_ hq ⟨rfl, onlyParts_setPci _ _⟩
    refine (if_neg (by simp [hup])).trans ?_
    cases hd3 : (pciFn s 0).d3 with
    | true => exact if_pos rfl
    | false =>
      have hoff : pciOn s = false := h.resolve_left (by simp [hd3])
      exact (if_neg (by simp)).trans (if_pos (by simp [hoff]))
  case bar2Write =>
    intro off len be data s hq hup hd3 hon hpwr hn hin hserved hgood
    obtain ⟨-, hmay, hok⟩ := hserved
    rw [roundTwice] at hok
    have hoff : off.toNat < 0x10000000 := off.isLt
    have hwrite := bar2Write_within hup hd3 hon hpwr hmay hok hn hin hgood be.toNat data.toNat
    have honly := (((Only.refl [.mem, .rsps] [] s).mergeLine (by decide) (off.toNat / 64 * 64) 64
      ((be.toNat % 2 ^ len.val) * 2 ^ (off.toNat % 64)) ((data.toNat % 2 ^ (8 * len.val)) * 2 ^ (8 * (off.toNat % 64)))).respond
      (by decide) 0xC0 0 ST.ok 0)
    have hcell := fun j {p} => cell_bar2Merged s (n := len.val) hoff hok be.toNat data.toNat j (p := p)
    refine completes_eq_quiet (congrArg done ?_) hwrite ((honly.evq (by decide)).trans hq) ⟨fun i hi => (hcell _ hi).trans ?_,
      fun k o ho hk => (hcell k ho).trans (if_neg fun h => hk h.1), honly.1 .pci (by decide), honly.1.mono (by simp)⟩
    · rw [← noFlips]
      rfl
    · simp only [true_and]
  case bar2Aer =>
    intro off len be data st ws b s hq hup hd3
    exact completes_eq_quiet rfl ((if_neg (by simp [hup, hd3])).trans (if_pos rfl)) hq ⟨rfl, onlyParts_setPci _ _⟩
  case bar2Error =>
    intro off len be data st ws b s hq hup hd3 hoff
    have hexec : Machine.bar2Write s off.toNat len be.toNat data.toNat false st.toNat (ws.map (·.toNat)) b = bar2Err s off.toNat ST.disabled :=
      (if_neg (by simp [hup, hd3])).trans ((if_neg (by simp)).trans (if_pos (by simp [hoff])))
    rw [bar2Err_eq] at hexec
    cases hvalid : flag s F.PCI_BAR2_WERR_VALID with
    | true =>
      rw [hvalid, if_pos rfl] at hexec
      exact completes_eq rfl hexec (congrArg (· ++ _) hq) ⟨hvalid, fun h => absurd h (by simp), fun _ => hush_quiet hq,
        (Only.hush ((Only.refl _ _ s).raise (by decide) _ _) hq)⟩
    | false =>
      rw [hvalid, if_neg (by decide)] at hexec
      refine completes_eq rfl hexec (congrArg (· ++ _) hq) ⟨?_, fun _ => ⟨?_, ?_⟩, fun h => absurd h (by simp),
        Only.hush ((((((Only.refl _ _ s).setFld (by simp) _).setFld (by simp) _).setFld (by simp) _).raise (by decide) _ _)) hq⟩
      · rw [flag, fld_hush, fld_raise, bar2Recorded, fld_setFld_same]
        rfl
      · rw [fld_hush, fld_raise, bar2Recorded, fld_setFld_ne _ (by decide), fld_setFld_ne _ (by decide), fld_setFld_same]
        rfl
      · rw [fld_hush, fld_raise, bar2Recorded, fld_setFld_ne _ (by decide), fld_setFld_same]
        exact Nat.mod_eq_of_lt off.isLt
  case disable =>
    intro s hq hon
    have hclear : flag (pciDrainEnd s) F.PCI_CTRL_ENABLE = false := by
      rw [flag, pciDrainEnd, fld_setFld_ne _ (by decide), fld_setFld_same]
      rfl
    have hdrain : flag (setFld s F.PCI_STATUS_DRAINING 1) F.PCI_STATUS_DRAINING = true := by
      rw [flag, fld_setFld_same]
      rfl
    by_cases hdrained : pciDrained s = true
    · refine completes_eq_quiet rfl ((if_neg (by simp [hon])).trans (if_pos hdrained)) hq ⟨?_, fun _ => ⟨?_, ?_⟩, fun h => ?_,
        ((Only.refl [] _ s).setFld (by simp) _).setFld (by simp) _⟩
      · rw [pciOn, hclear]
        rfl
      · exact hclear
      · rw [flag, pciDrainEnd, fld_setFld_same]
        rfl
      · rw [List.any_eq_true] at h
        obtain ⟨x, hx, hlive⟩ := h
        have hdead := List.all_eq_true.1 hdrained x hx
        simp [hdead] at hlive
    · refine completes_eq_quiet rfl ((if_neg (by simp [hon])).trans (if_neg hdrained)) hq ⟨?_, fun h => ?_, fun _ => hdrain, (Only.refl [] _ s).setFld (by simp) _⟩
      · rw [pciOn, hdrain]
        simp
      · exact absurd (by rw [pciDrained, h, List.all_nil]) hdrained
  case disabled =>
    intro s hq hoff
    exact completes_eq_quiet rfl (if_pos (by simp [hoff])) hq rfl

end


section
/-! SUPPORT. The device's acknowledgements and its enumeration of a ring (R87, R108, R116, R117). -/
namespace Sys2Proof.Machine

variable {s : State} {p : Nat}

theorem bits_bits (x lo w : Nat) {lo' w' : Nat} (h : lo' + w' ≤ w) : bits (bits x lo w) lo' w' = bits x (lo + lo') w' := by
  apply Nat.eq_of_testBit_eq
  intro i
  rw [testBit_bits, testBit_bits, testBit_bits]
  by_cases hi : i < w'
  · rw [decide_eq_true hi, decide_eq_true (by omega : lo' + i < w), Bool.true_and, Nat.add_assoc]
  · simp [hi]

theorem ceilDiv_succ (a b : Nat) : ceilDiv a (b + 1) = (a + b) / (b + 1) := by
  rw [ceilDiv, if_neg (Nat.succ_ne_zero b), ← Nat.add_assoc, Nat.add_sub_cancel]

theorem hopQuarters_eq (h : Nat) : hopQuarters h = (h + 16383) / 16384 := ceilDiv_succ h 16383

theorem setPort_setPort (s : State) (p : Nat) (x y : Port) : setPort (setPort s p x) p y = setPort s p y := by
  rw [setPort, setPort, setPort, smSet_smSet]

theorem port_setPort_ne (s : State) {p q : Nat} (h : q ≠ p) (x : Port) : port (setPort s p x) q = port s q := smGet_smSet_ne _ h ..

theorem onlyParts_setPort (s : State) (p : Nat) (x : Port) : OnlyParts [.ports] s (setPort s p x) := by
  intro q hq
  cases q
  case ports => exact absurd hq (by decide)
  all_goals rfl

/-- A port replaced and a flit sent. -/
theorem onlyParts_setPort_wire (s : State) (p : Nat) (x : Port) (w : List Sent) :
    OnlyParts [.ports, .wire] s { setPort s p x with wire := w } := by
  intro q hq
  cases q
  case ports => exact absurd hq (by decide)
  case wire => exact absurd hq (by decide)
  all_goals rfl

theorem drainPort_nil (h : (port s p).waiting = []) : drainPort s p = s := by rw [drainPort, h]; rfl

theorem portDrainCheck_of_not (h : flag s (F.WNG_Pp_STATUS_DRAINING p) = false) : portDrainCheck s p = s := by
  rw [portDrainCheck, h, Bool.false_and, if_neg (by decide)]

theorem bstopCheck_of_run (h : bstopState s = bRUN) : bstopCheck s = s := by
  rw [bstopCheck, h]
  exact if_neg fun hs => absurd hs.1 (by decide)

/-- The state in which a port's acknowledgement of the buffer stop is recorded. -/
def stopAcked (s : State) (p : Nat) : State :=
  setDsp (setPort s p { port s p with replays := 0 }) { s.dsp with bstopAck := (s.dsp.bstopAck.filter (· != p)) ++ [p] }

theorem onlyParts_stopAcked (s : State) (p : Nat) : OnlyParts [.ports, .dsp] s (stopAcked s p) := by
  intro q hq
  cases q
  case ports => exact absurd hq (by decide)
  case dsp => exact absurd hq (by decide)
  all_goals rfl

theorem not_upTrunk_of_live (h : liveRing s p = true) : upTrunk s p = false := by
  simp only [liveRing, Bool.and_eq_true, Bool.not_eq_true'] at h
  simp [upTrunk, h.1]

/-! ### Enumeration's end -/

/-- The state in which enumeration of a port has ended with nothing to send. -/
def enumEnded (s : State) (p : Nat) : State :=
  setPortState (raise (setFld (setPort s p { port s p with enumTries := 0 }) (F.WNG_Pp_STATUS_QUARANTINED p) 0) 0x0C05
    [(1, p), (1, fld s (F.WNG_Pp_STATUS_MODULES p))]) p pUP

theorem only_enumEnded (s : State) (p : Nat) :
    Only [.ports, .evq] [F.WNG_Pp_STATUS_STATE p, F.WNG_Pp_STATUS_QUARANTINED p] s (enumEnded s p) :=
  ((((Only.refl _ _ s).setPort (by decide) _ _).setFld (by simp) _).raise (by decide) _ _).setFld (by simp) _

theorem modState_enumEnded (s : State) (p n : Nat) : modState (enumEnded s p) p n = modState s p n :=
  (only_enumEnded s p).2 _ (by
    simp [F.WNG_Pp_STATUS_STATE, F.WNG_Pp_STATUS_QUARANTINED, F.WNG_Pp_MODn_STATE]
    omega)

theorem modules_enumEnded (s : State) (p : Nat) : fld (enumEnded s p) (F.WNG_Pp_STATUS_MODULES p) = fld s (F.WNG_Pp_STATUS_MODULES p) :=
  (only_enumEnded s p).2 _ (by simp [F.WNG_Pp_STATUS_STATE, F.WNG_Pp_STATUS_QUARANTINED, F.WNG_Pp_STATUS_MODULES])

/-- Enumeration of a port with nothing held back and no quarantined module, in RUN, ends without a flit. -/
theorem enumDone_eq (hw : (port s p).waiting = []) (hb : bstopState s = bRUN) (hnone : ∀ n ∈ positions s p, modState s p n ≠ 2) :
    enumDone s p = enumEnded s p := by
  have hquar : (positions s p).filter (fun n => modState s p n == 2) = [] := by
    rw [List.filter_eq_nil_iff]
    intro n hn
    simpa using hnone n hn
  have hmods : fld (setFld (setPort s p { port s p with enumTries := 0 }) (F.WNG_Pp_STATUS_QUARANTINED p) 0) (F.WNG_Pp_STATUS_MODULES p)
      = fld s (F.WNG_Pp_STATUS_MODULES p) :=
    fld_setFld_ne _ (by simp [F.WNG_Pp_STATUS_QUARANTINED, F.WNG_Pp_STATUS_MODULES]) _
  have hsafe : sendSafes (enumEnded s p) p = enumEnded s p := by
    have hpos : positions (enumEnded s p) p = positions s p := by rw [positions, modules_enumEnded, positions]
    have hstate : (fun n => modState (enumEnded s p) p n == 2) = fun n => modState s p n == 2 :=
      funext fun n => by rw [modState_enumEnded]
    rw [sendSafes, hpos, hstate, hquar]
    rfl
  have hrun : bstopState (enumEnded s p) = bRUN :=
    ((only_enumEnded s p).2 F.DSP_STATUS_BSTOP (by
      simp [F.WNG_Pp_STATUS_STATE, F.WNG_Pp_STATUS_QUARANTINED, F.DSP_STATUS_BSTOP]; omega)).trans hb
  have hwait : (port (enumEnded s p) p).waiting = [] := by
    have hport : port (enumEnded s p) p = { port s p with enumTries := 0 } := smGet_smSet_same ..
    rw [hport, hw]
  have hended : setPortState (raise (setFld (setPort s p { port s p with enumTries := 0 }) (F.WNG_Pp_STATUS_QUARANTINED p)
      ((positions s p).filter fun n => modState s p n == 2).length) 0x0C05 [(1, p), (1, fld (setFld (setPort s p { port s p with enumTries := 0 })
        (F.WNG_Pp_STATUS_QUARANTINED p) ((positions s p).filter fun n => modState s p n == 2).length) (F.WNG_Pp_STATUS_MODULES p))]) p pUP
      = enumEnded s p := by
    rw [hquar, List.length_nil, hmods, enumEnded]
  calc enumDone s p
      = drainPort (if bstopState (sendSafes (enumEnded s p) p) ≠ bRUN then sendPlain (sendSafes (enumEnded s p) p) p FT.bstop 255 0 0
          else sendSafes (enumEnded s p) p) p := by rw [← hended]; rfl
    _ = enumEnded s p := by rw [hsafe, if_neg (not_not.2 hrun), drainPort_nil hwait]

theorem positions_zero (h : fld s (F.WNG_Pp_STATUS_MODULES p) = 0) : positions s p = [] := by rw [positions, h]; rfl

theorem positions_one (h : fld s (F.WNG_Pp_STATUS_MODULES p) = 1) : positions s p = [1] := by rw [positions, h]; rfl

/-- With no modules enumeration ends at once. -/
theorem enumProgress_none (hw : (port s p).waiting = []) (hb : bstopState s = bRUN) (h : fld s (F.WNG_Pp_STATUS_MODULES p) = 0) :
    enumProgress s p = enumEnded s p := by
  rw [enumProgress, positions_zero h, List.all_nil, if_pos rfl, enumDone_eq hw hb (by simp [positions_zero h])]

/-- The state in which enumeration has found no module, with latency and round trip. -/
def enumNone (s : State) (p lat rtt : Nat) : State :=
  enumEnded (setFld (setFld (setFld s (F.DSP_PORTp_LAT_LAT p) lat) (F.DSP_PORTp_RTT_RTT p) rtt) (F.WNG_Pp_STATUS_MODULES p) 0) p

section
variable (s : State) (p : Nat) (lat rtt : Nat)

theorem only_enumNone : Only [.ports, .evq] [F.WNG_Pp_STATUS_STATE p, F.WNG_Pp_STATUS_MODULES p, F.WNG_Pp_STATUS_QUARANTINED p,
    F.DSP_PORTp_LAT_LAT p, F.DSP_PORTp_RTT_RTT p] s (enumNone s p lat rtt) :=
  ((((Only.refl _ _ s).setFld (by simp) _).setFld (by simp) _).setFld (by simp) _).trans
    ((only_enumEnded _ p).mono (List.Subset.refl _) (by simp))

theorem modules_enumNone : fld (enumNone s p lat rtt) (F.WNG_Pp_STATUS_MODULES p) = 0 :=
  (modules_enumEnded _ p).trans (fld_setFld_same ..)

theorem portState_enumEnded : portState (enumEnded s p) p = pUP := fld_setFld_same ..

theorem fld_enumNone (f : Fld) (hf : f = F.DSP_PORTp_LAT_LAT p ∨ f = F.DSP_PORTp_RTT_RTT p) (hp : p < 4) :
    fld (enumNone s p lat rtt) f = fld (setFld (setFld s (F.DSP_PORTp_LAT_LAT p) lat) (F.DSP_PORTp_RTT_RTT p) rtt) f := by
  have hkey : f.key ≠ (F.WNG_Pp_STATUS_MODULES p).key ∧ f.key ∉ [F.WNG_Pp_STATUS_STATE p, F.WNG_Pp_STATUS_QUARANTINED p].map Fld.key := by
    rcases hf with rfl | rfl <;>
    simp [F.WNG_Pp_STATUS_STATE, F.WNG_Pp_STATUS_QUARANTINED, F.WNG_Pp_STATUS_MODULES, F.DSP_PORTp_LAT_LAT, F.DSP_PORTp_RTT_RTT] <;> omega
  rw [enumNone, (only_enumEnded _ p).2 f hkey.2, fld_setFld_ne _ hkey.1]

theorem lat_enumNone (hp : p < 4) : fld (enumNone s p lat rtt) (F.DSP_PORTp_LAT_LAT p) = lat % 2 ^ 20 := by
  rw [fld_enumNone s p lat rtt _ (.inl rfl) hp, fld_setFld_ne _ (by simp [F.DSP_PORTp_LAT_LAT, F.DSP_PORTp_RTT_RTT]), fld_setFld_same]
  rfl

theorem rtt_enumNone (hp : p < 4) : fld (enumNone s p lat rtt) (F.DSP_PORTp_RTT_RTT p) = rtt % 2 ^ 20 := by
  rw [fld_enumNone s p lat rtt _ (.inr rfl) hp, fld_setFld_same]
  rfl

theorem evq_enumNone : (enumNone s p lat rtt).evq = s.evq ++ [ev 0x0C05 [(1, p), (1, 0)]] := by
  have hzero : fld (setFld (setFld (setFld s (F.DSP_PORTp_LAT_LAT p) lat) (F.DSP_PORTp_RTT_RTT p) rtt) (F.WNG_Pp_STATUS_MODULES p) 0)
      (F.WNG_Pp_STATUS_MODULES p) = 0 := fld_setFld_same ..
  rw [enumNone, enumEnded, hzero]
  rfl

section
variable (hw : (port s p).waiting = []) (hb : bstopState s = bRUN) (hp : p < 4)
include hb hp

theorem bstop_counted : bstopState (setFld (setFld (setFld s (F.DSP_PORTp_LAT_LAT p) lat) (F.DSP_PORTp_RTT_RTT p) rtt)
    (F.WNG_Pp_STATUS_MODULES p) 0) = bRUN := by
  refine Eq.trans ?_ hb
  refine (fld_setFld_ne _ ?_ _).trans ((fld_setFld_ne _ ?_ _).trans (fld_setFld_ne _ ?_ _)) <;>
  simp [F.DSP_STATUS_BSTOP, F.WNG_Pp_STATUS_MODULES, F.DSP_PORTp_LAT_LAT, F.DSP_PORTp_RTT_RTT] <;> omega

include hw

/-- Where nothing is held back and the buffer stop is in RUN, a port without modules is UP. -/
theorem enumProgress_returned :
    enumProgress (setFld (setFld (setFld s (F.DSP_PORTp_LAT_LAT p) lat) (F.DSP_PORTp_RTT_RTT p) rtt) (F.WNG_Pp_STATUS_MODULES p) 0) p
      = enumNone s p lat rtt :=
  enumProgress_none hw (bstop_counted s p lat rtt hb hp) (fld_setFld_same ..)

theorem enumEmpty_eq : enumEmpty s p = enumNone s p 0 0 := by
  refine enumDone_eq hw (bstop_counted s p 0 0 hb hp) fun n hn => ?_
  rw [positions_zero (fld_setFld_same ..)] at hn
  cases hn

end

end

/-! ### Identity reads -/

theorem smGet_storeId_below (m : SMap Byte) (off n v : Nat) {j : Nat} (hj : j < off) : smGet (storeId m off n v) j 0 = smGet m j 0 := by
  induction n generalizing m off v with
  | zero => rfl
  | succ n ih => rw [storeId, ih _ _ _ (by omega), smGet_smSet_ne _ (by omega)]

/-- The bytes that an answer brings. -/
theorem smGet_storeId (m : SMap Byte) (off n v : Nat) {j : Nat} (hj : j < n) :
    smGet (storeId m off n v) (off + j) 0 = BitVec.ofNat 8 (v / 256 ^ j) := by
  induction n generalizing m off v j with
  | zero => omega
  | succ n ih =>
    cases j with
    | zero =>
      rw [storeId, smGet_storeId_below _ _ _ _ (by omega), Nat.pow_zero, Nat.div_one]
      exact smGet_smSet_same ..
    | succ j =>
      rw [storeId, Nat.add_comm j 1, ← Nat.add_assoc, ih _ _ _ (by omega), Nat.div_div_eq_div_mul, Nat.add_comm 1 j, Nat.pow_succ']

theorem ofNat_byte_bits (v lo w j : Nat) (hj : 8 * j + 8 ≤ w) : BitVec.ofNat 8 (bits v lo w / 256 ^ j) = BitVec.ofNat 8 (bits v (lo + 8 * j) 8) := by
  have hpow : 256 ^ j = 2 ^ (8 * j) := by rw [Nat.pow_mul]
  apply BitVec.eq_of_getLsbD_eq
  intro i hi
  have hlt : 8 * j + i < w := by omega
  simp only [BitVec.getLsbD_ofNat, hpow, Nat.testBit_div_two_pow, testBit_bits, hi, hlt, decide_true, Bool.true_and, Nat.add_comm i (8 * j),
    Nat.add_assoc]

/-- Two bytes in a row are a half word. -/
theorem two_bytes (y : Nat) : bits y (16 + 8 * 2) 8 % 2 ^ 8 + (bits y (16 + 8 * 3) 8 % 2 ^ 8 + 0 * 256) * 256 = bits y 32 16 := by
  have hdiv : y / 2 ^ (16 + 8 * 3) = y / 2 ^ 32 / 256 := (Nat.div_div_eq_div_mul y (2 ^ 32) 256).symm
  rw [bits_eq_div_mod, bits_eq_div_mod, bits_eq_div_mod, hdiv]
  omega

theorem modInfo_setInfo (s : State) (p n : Nat) (x : ModInfo) : modInfo (setInfo s p n x) p n = x := by
  rw [modInfo, setInfo, port_setPort_same, smGet_smSet_same]

section
variable {x : ModInfo}

/-- A request leaves for the next offset of a lone module. -/
theorem idPump_asks {o fuel : Nat} (hplain : SendsPlainly s) (hp : p < 4) (hpos : positions s p = [1]) (hx : modInfo s p 1 = x)
    (hasked : x.asked.length < 8) (ho : nextOff x = some o) : idPump s p (fuel + 1)
      = idPump { setInfo s p 1 { x with asked := x.asked ++ [o] } with
          wire := ⟨p, 0, mkFlit FT.idRead (port s p).seq 1 0 0 o⟩ :: s.wire } p fuel := by
  have hcount : ¬ 8 ≤ asksOf s p := by
    rw [asksOf, hpos, List.map_singleton, List.sum_singleton, hx]
    omega
  have hseq : (port (setInfo s p 1 { x with asked := x.asked ++ [o] }) p).seq = (port s p).seq := by rw [setInfo, port_setPort_same]
  rw [idPump, if_neg hcount, hpos, List.find?_singleton, hx, ho]
  simp only [Option.isSome_some, if_true, hx, ho, Option.getD_some, sendIdRead]
  rw [sendPlain_plain (s := setInfo s p 1 _) hplain hp, hseq]
  rfl

/-- No request leaves where every block of a lone module is asked for. -/
theorem idPump_stops {fuel : Nat} (hpos : positions s p = [1]) (hx : modInfo s p 1 = x) (ho : nextOff x = none) : idPump s p fuel = s := by
  cases fuel with
  | zero => rfl
  | succ fuel =>
    rw [idPump, hpos, List.find?_singleton, hx, ho]
    exact ite_self _

end

theorem setInfo_setInfo (s : State) (p n : Nat) (x y : ModInfo) : setInfo (setInfo s p n x) p n y = setInfo s p n y := by
  unfold setInfo
  rw [port_setPort_same, setPort_setPort]
  dsimp only
  rw [smSet_smSet]

/-- A further request of a lone module leaves. -/
theorem idPump_asks_again {x : ModInfo} {o fuel : Nat} (l : List Sent) (hplain : SendsPlainly s) (hp : p < 4) (hpos : positions s p = [1])
    (hasked : x.asked.length < 8) (ho : nextOff x = some o) : idPump { setInfo s p 1 x with wire := l } p (fuel + 1)
      = idPump { setInfo s p 1 { x with asked := x.asked ++ [o] } with
          wire := ⟨p, 0, mkFlit FT.idRead (port s p).seq 1 0 0 o⟩ :: l } p fuel := by
  have hseq : (port (setInfo s p 1 x) p).seq = (port s p).seq := by rw [setInfo, port_setPort_same]
  have hinfo : setInfo { setInfo s p 1 x with wire := l } p 1 { x with asked := x.asked ++ [o] }
      = { setInfo s p 1 { x with asked := x.asked ++ [o] } with wire := l } :=
    congrArg (fun w : State => { w with wire := l }) (setInfo_setInfo s p 1 x { x with asked := x.asked ++ [o] })
  rw [idPump_asks (s := { setInfo s p 1 x with wire := l }) hplain hp hpos (modInfo_setInfo s p 1 x) hasked ho, hinfo, ← hseq]
  rfl

/-- A module of 40 bytes whose first block is read: the offsets that are left, but those asked for. -/
theorem nextOff_first {x : ModInfo} (hended : x.ended = false) (hgot : x.got = [0]) (hlen : idLength x.bytes = 40) :
    nextOff x = [0, 16, 32].find? fun o => !(x.asked.contains o) && !([0].contains o) := by
  have hblocks : idBlocks x = [0, 16, 32] := by
    rw [idBlocks, hlen]
    rfl
  rw [nextOff, hended, if_neg (by decide), hgot, if_neg (by decide), hblocks]

/-- What is known of a module after the answer for an offset. -/
def readInfo (x : ModInfo) (off data : Nat) : ModInfo :=
  { x with bytes := storeId x.bytes off 16 data, asked := x.asked.filter (· != off), got := x.got ++ [off] }

/-- What is known of the lone module of a port after its first 16 bytes. -/
def firstRead (s : State) (p data : Nat) : ModInfo := { modInfo s p 1 with bytes := storeId [] 0 16 data, asked := [], got := [0] }

/-- The first 16 bytes of the lone module of a port are stored, and the two blocks that follow asked for. -/
def firstTaken (s : State) (p data : Nat) : State :=
  { setInfo s p 1 { firstRead s p data with asked := [16, 32] } with
    wire := ⟨p, 0, mkFlit FT.idRead (port s p).seq 1 0 0 32⟩ :: ⟨p, 0, mkFlit FT.idRead (port s p).seq 1 0 0 16⟩ :: s.wire }

theorem idTake_eq {n off data : Nat} {y : ModInfo} (hy : readInfo (modInfo s p n) off data = y) : idTake s p n off data
    = if off = 0 ∧ (idLength y.bytes < 8 ∨ 2048 < idLength y.bytes) then endModuleChecks (setInfo s p n y) p n 3 2 0
      else if idComplete y then judgeModule (setInfo s p n y) p n else idPump (setInfo s p n y) p 8 := by
  subst hy
  rfl

theorem idTake_first {data : Nat} (hplain : SendsPlainly s) (hp : p < 4) (hmods : fld s (F.WNG_Pp_STATUS_MODULES p) = 1)
    (hasked : (modInfo s p 1).asked = [0]) (hended : (modInfo s p 1).ended = false) (hgot : (modInfo s p 1).got = [])
    (hbytes : (modInfo s p 1).bytes = []) (hlen : idLength (storeId [] 0 16 data) = 40) : idTake s p 1 0 data = firstTaken s p data := by
  have hnext := fun l => nextOff_first (x := { firstRead s p data with asked := l }) hended rfl hlen
  have hpos := positions_one hmods
  have hincomplete : idComplete (firstRead s p data) = false := by
    have hblocks : idBlocks (firstRead s p data) = [0, 16, 32] := by
      rw [idBlocks, firstRead, hlen]
      rfl
    rw [idComplete, hblocks]
    rfl
  have hread := idTake_eq (s := s) (p := p) (n := 1) (off := 0) (data := data) (y := firstRead s p data)
    (by rw [readInfo, hasked, hgot, hbytes, firstRead]; rfl)
  have hlong : ¬(0 = 0 ∧ (idLength (firstRead s p data).bytes < 8 ∨ 2048 < idLength (firstRead s p data).bytes)) := by
    rw [firstRead, hlen]
    omega
  rw [hread, if_neg hlong, hincomplete, if_neg (by decide)]
  calc idPump (setInfo s p 1 (firstRead s p data)) p 8
      = idPump { setInfo s p 1 { firstRead s p data with asked := [16] } with
          wire := ⟨p, 0, mkFlit FT.idRead (port s p).seq 1 0 0 16⟩ :: s.wire } p 7 :=
        idPump_asks_again s.wire hplain hp hpos (show 0 < 8 by decide) (hnext [])
    _ = idPump (firstTaken s p data) p 6 :=
        idPump_asks_again (x := { firstRead s p data with asked := [16] }) _ hplain hp hpos (by simp) (hnext [16])
    _ = firstTaken s p data := idPump_stops hpos (modInfo_setInfo s p 1 { firstRead s p data with asked := [16, 32] }) (hnext [16, 32])

/-! ### A module that does not answer, and a new start -/

/-- The lone module of a port has failed with no answer. -/
def moduleFailed (s : State) (p : Nat) : State :=
  raise (setFld (setFld (setFld (setInfo s p 1 { modInfo s p 1 with ended := true, asked := [] }) (F.WNG_Pp_MODn_MAKER p 1) 0)
    (F.WNG_Pp_MODn_REASON p 1) 1) (F.WNG_Pp_MODn_STATE p 1) 3) 0x0C04 [(1, p), (1, 1)]

theorem only_moduleFailed (s : State) (p : Nat) :
    Only [.ports, .evq] [F.WNG_Pp_MODn_STATE p 1, F.WNG_Pp_MODn_REASON p 1, F.WNG_Pp_MODn_MAKER p 1] s (moduleFailed s p) :=
  (((((Only.refl _ _ s).setPort (by decide) _ _).setFld (by simp) _).setFld (by simp) _).setFld (by simp) _).raise (by decide) _ _

/-- Enumeration of a port ends with the failure of its lone module. -/
theorem moduleFailed_spec (hw : (port s p).waiting = []) (hrun : bstopState s = bRUN) (hmods : fld s (F.WNG_Pp_STATUS_MODULES p) = 1)
    (hp : p < 4) : endModuleChecks s p 1 3 1 0 = enumEnded (moduleFailed s p) p
    ∧ (enumEnded (moduleFailed s p) p).evq = s.evq ++ [ev 0x0C04 [(1, p), (1, 1)], ev 0x0C05 [(1, p), (1, 1)]]
    ∧ fld (enumEnded (moduleFailed s p) p) (F.WNG_Pp_MODn_STATE p 1) = 3 ∧ fld (enumEnded (moduleFailed s p) p) (F.WNG_Pp_MODn_REASON p 1) = 1
    ∧ Only [.evq, .ports] [F.WNG_Pp_MODn_STATE p 1, F.WNG_Pp_MODn_REASON p 1, F.WNG_Pp_MODn_MAKER p 1, F.WNG_Pp_STATUS_STATE p,
        F.WNG_Pp_STATUS_QUARANTINED p] s (enumEnded (moduleFailed s p) p) := by
  have hmods' : fld (moduleFailed s p) (F.WNG_Pp_STATUS_MODULES p) = 1 :=
    ((only_moduleFailed s p).2 _ (by
      simp [F.WNG_Pp_STATUS_MODULES, F.WNG_Pp_MODn_STATE, F.WNG_Pp_MODn_REASON, F.WNG_Pp_MODn_MAKER]; omega)).trans hmods
  have hrun' : bstopState (moduleFailed s p) = bRUN :=
    ((only_moduleFailed s p).2 _ (by
      simp [F.DSP_STATUS_BSTOP, F.WNG_Pp_MODn_STATE, F.WNG_Pp_MODn_REASON, F.WNG_Pp_MODn_MAKER]; omega)).trans hrun
  have hwait : (port (moduleFailed s p) p).waiting = [] := by
    change (port (setInfo s p 1 _) p).waiting = []
    rw [setInfo, port_setPort_same, hw]
  have hfailed : fld (moduleFailed s p) (F.WNG_Pp_MODn_STATE p 1) = 3 := by
    rw [moduleFailed, fld_raise, fld_setFld_same]
    rfl
  have hreason : fld (moduleFailed s p) (F.WNG_Pp_MODn_REASON p 1) = 1 := by
    rw [moduleFailed, fld_raise, fld_setFld_ne _ (by simp [F.WNG_Pp_MODn_STATE, F.WNG_Pp_MODn_REASON]), fld_setFld_same]
    rfl
  have hinfo : (modInfo (moduleFailed s p) p 1).ended = true := by
    change (modInfo (setInfo s p 1 _) p 1).ended = true
    rw [modInfo_setInfo]
  have hended := only_enumEnded (moduleFailed s p) p
  have hkeys : (F.WNG_Pp_MODn_STATE p 1).key ∉ [F.WNG_Pp_STATUS_STATE p, F.WNG_Pp_STATUS_QUARANTINED p].map Fld.key
      ∧ (F.WNG_Pp_MODn_REASON p 1).key ∉ [F.WNG_Pp_STATUS_STATE p, F.WNG_Pp_STATUS_QUARANTINED p].map Fld.key := by
    constructor <;> simp [F.WNG_Pp_MODn_STATE, F.WNG_Pp_MODn_REASON, F.WNG_Pp_STATUS_STATE, F.WNG_Pp_STATUS_QUARANTINED] <;> omega
  refine ⟨?_, ?_, (hended.2 _ hkeys.1).trans hfailed, (hended.2 _ hkeys.2).trans hreason,
    ((only_moduleFailed s p).mono (by simp) (by simp)).trans (hended.mono (by simp) (by simp))⟩
  · change enumProgress (moduleFailed s p) p = _
    rw [enumProgress, positions_one hmods', if_pos (by simp [hinfo]), enumDone_eq hwait hrun']
    intro n hn
    rw [positions_one hmods', List.mem_singleton] at hn
    rw [hn, modState, hfailed]
    decide
  · rw [enumEnded, hmods']
    exact List.append_assoc s.evq _ _

/-- The registers of a port's modules read at their reset value, and the ledger forgets their rails. -/
def cleared (s : State) (p : Nat) : State := forgetRails (clearMods s p) p

/-- The state in which enumeration of a port has begun. -/
def enumBegun (s : State) (p : Nat) : State :=
  setPortState { setPort (cleared s p) p { port s p with enumTries := 1, count := 0, infos := [] } with
    wire := ⟨p, 0, mkFlit FT.enum (port s p).seq 255 0 0 (1 + ((port s p).hop + 16383) / 16384 % 2 ^ 32 * 2 ^ 8)⟩ :: s.wire } p pENUMERATING

theorem onlyParts_enumBegun (s : State) (p : Nat) : OnlyParts [.regs, .ports, .wire, .dsp] s (enumBegun s p) := by
  intro q hq
  cases q
  case regs => exact absurd hq (by decide)
  case ports => exact absurd hq (by decide)
  case wire => exact absurd hq (by decide)
  case dsp => exact absurd hq (by decide)
  all_goals rfl

/-- A new enumeration of a port makes its modules ABSENT and sends ENUM. -/
theorem enumStart_spec (hplain : SendsPlainly s) (hp : p < 4) : enumStart s p = enumBegun s p
    ∧ (∀ n, 1 ≤ n → n < 255 → fld (enumBegun s p) (F.WNG_Pp_MODn_STATE p n) = 0)
    ∧ OnlyParts [.regs, .ports, .wire, .dsp] s (enumBegun s p) := by
  have hfrozen : fld (cleared s p) F.CLK_STATUS_FROZEN = fld s F.CLK_STATUS_FROZEN := by
    rw [cleared, forgetRails, fld_setDsp, clearMods, fld_setFld_ne _ (by simp [F.CLK_STATUS_FROZEN, F.WNG_Pp_STATUS_QUARANTINED]; omega), fld_resetOffsets, if_neg]
    simp only [F.CLK_STATUS_FROZEN]
    omega
  have hplain' : SendsPlainly (cleared s p) := ⟨(flag_eq_of_fld hfrozen).trans hplain.1, hplain.2⟩
  refine ⟨?_, fun n h1 h2 => ?_, onlyParts_enumBegun s p⟩
  · have hport : port (cleared s p) p = port s p := rfl
    unfold enumStart
    dsimp only
    rw [← cleared, hport, sendEnum, sendPlain_plain (s := setPort (cleared s p) p _) hplain' hp, port_setPort_same, hopQuarters_eq]
    rfl
  · rw [enumBegun, setPortState, fld_setFld_ne _ (by simp [F.WNG_Pp_MODn_STATE, F.WNG_Pp_STATUS_STATE]; omega)]
    change fld (cleared s p) (F.WNG_Pp_MODn_STATE p n) = 0
    rw [cleared, forgetRails, fld_setDsp, clearMods,
      fld_setFld_ne _ (by simp [F.WNG_Pp_MODn_STATE, F.WNG_Pp_STATUS_QUARANTINED]; omega), fld_resetOffsets, if_pos]
    · rfl
    · simp only [F.WNG_Pp_MODn_STATE]
      omega

/-! ### Commands that reach the device -/

section
variable {p : Fin 4} {f : Flit}

theorem exec_ack_live (h : Arrives s f FT.ack) (hlive : liveRing s p = true) : exec (.ack p 0 f) s = done (ringAck s p f.toNat) := by
  obtain ⟨-, hfr, hg, ht⟩ := h
  change done (if arrived s 0 f.toNat FT.ack then ackFlit s p 0 f else s) = _
  rw [arrived_of hfr hg ht, if_pos rfl, ackFlit, if_neg (not_not.2 rfl), if_neg (by simp [not_upTrunk_of_live hlive]), if_pos hlive]

theorem exec_nak_live (h : Arrives s f FT.nak) (hlive : liveRing s p = true) : exec (.nak p 0 f) s = done (ringNak s p f.toNat) := by
  obtain ⟨-, hfr, hg, ht⟩ := h
  change done (if arrived s 0 f.toNat FT.nak then nakFlit s p 0 f else s) = _
  rw [arrived_of hfr hg ht, if_pos rfl, nakFlit, if_neg (not_not.2 rfl), if_neg (by simp [not_upTrunk_of_live hlive]), if_pos hlive]

theorem exec_enumFlit_device (h : Arrives s f FT.enum) (el : BitVec 20 × Bool) : exec (.enumFlit p 0 f el) s
    = done (if portState s p = pENUMERATING ∧ (port s p).enumTries ≠ 0 ∧ bitOf (fPayload f.toNat) 40 = true
        then enumReturned s p f.toNat el.1.toNat else s) := by
  obtain ⟨-, hfr, hg, ht⟩ := h
  change done (if arrived s 0 f.toNat FT.enum then enumFlit s p 0 f el.1.toNat el.2 else s) = _
  rw [arrived_of hfr hg ht, if_pos rfl, enumFlit, if_neg (not_not.2 rfl)]

theorem exec_idData_device (h : Arrives s f FT.idData) : exec (.idData p f) s = done (idData s p f.toNat) := by
  obtain ⟨-, hfr, hg, ht⟩ := h
  change done (if arrived s 0 f.toNat FT.idData then idData s p f.toNat else s) = _
  rw [arrived_of hfr hg ht, if_pos rfl]

/-- One record of an ACK. -/
theorem ringAck_one (hc : fCidx f.toNat = 0) (p : Nat) : ringAck s p f.toNat = portDrainCheck
    (drainPort (ackRecord (setPort s p { port s p with replays := 0 }) p (bits (fPayload f.toNat) 0 24)) p) p := by
  have hrec : ackRecords f.toNat = [bits (fPayload f.toNat) 0 24] := by rw [ackRecords, hc]; rfl
  rw [ringAck, hrec]
  rfl

end

end Sys2Proof.Machine
end

section
open Sys2Proof Sys2Proof.Machine

/-- Settles O18: each command of the device's side writes one state, whose port, wire and registers are read off it. -/
theorem deviceEnumeratesAndAcknowledges : Obligations.DeviceEnumeratesAndAcknowledges := by
  refine ⟨?retime, ?stopAck, ?ackOn, ?nak, ?nakOn, ?returned, ?stray, ?again, ?empty, ?idData, ?unasked, ?idAgain, ?noAnswer, ?enumWrite,
    ?notWritten, ?safe, ?probe, ?noProbe, ?crc⟩
  case retime =>
    intro p f i s harr hlive hc hj hkind hw hseq haddr hne hdrain
    have hrec : bits (bits (fPayload f.toNat) 0 24) 0 8 = i.addr ∧ bits (bits (fPayload f.toNat) 0 24) 8 12 = i.seq :=
      ⟨(bits_bits _ 0 24 (by omega)).trans haddr, (bits_bits _ 0 24 (by omega)).trans hseq⟩
    have hstep : ackRecord (setPort s p { port s p with replays := 0 }) p (bits (fPayload f.toNat) 0 24)
        = setPort s p { port s p with journal := [], replays := 0 } := by
      rw [ackRecord, hrec.1, hrec.2, if_neg (fun h => hne h.1), port_setPort_same]
      simp [hj, hkind, setPort_setPort]
    have hw' : (port (setPort s p { port s p with journal := [], replays := 0 }) p).waiting = [] := by rw [port_setPort_same, hw]
    have hend : ringAck s p f.toNat = setPort s p { port s p with journal := [], replays := 0 } := by
      rw [ringAck_one hc, hstep, drainPort_nil hw']
      exact portDrainCheck_of_not hdrain
    exact completes_eq_quiet (exec_ack_live harr hlive) hend harr.1
      ⟨port_setPort_same .., fun q hq => port_setPort_ne s hq _, onlyParts_setPort _ _ _⟩
  case stopAck =>
    intro p f s harr hlive hc hj hw hpay hrun hdrain
    have hlow : ∀ lo w, lo + w ≤ 20 → bits (bits (fPayload f.toNat) 0 24) lo w = bits (255 + 0xFFF * 256) lo w := fun lo w h => by
      rw [← hpay, bits_bits _ 0 24 (by omega), bits_bits _ 0 20 h]
    have haddr : bits (bits (fPayload f.toNat) 0 24) 0 8 = 255 := (hlow 0 8 (by omega)).trans (by norm_num [bits_eq_div_mod])
    have hseq : bits (bits (fPayload f.toNat) 0 24) 8 12 = 0xFFF := (hlow 8 12 (by omega)).trans (by norm_num [bits_eq_div_mod])
    have hend : ringAck s p f.toNat = stopAcked s p := by
      have hw' : (port (stopAcked s p) p).waiting = [] := by
        change (port (setPort s p { port s p with replays := 0 }) p).waiting = []
        rw [port_setPort_same, hw]
      have hstep : ackRecord (setPort s p { port s p with replays := 0 }) p (bits (fPayload f.toNat) 0 24) = stopAcked s p :=
        (if_pos ⟨haddr, hseq⟩).trans (bstopCheck_of_run (s := stopAcked s p) hrun)
      rw [ringAck_one hc, hstep, drainPort_nil hw']
      exact portDrainCheck_of_not hdrain
    refine completes_eq_quiet (exec_ack_live harr hlive) hend harr.1 ⟨List.mem_append_right _ (List.mem_singleton.2 rfl), ?_⟩
    exact onlyParts_stopAcked s p
  case ackOn =>
    intro p pos f s hq hg ht hpos
    have hpos' : pos.val ≠ 0 := fun h => hpos (Fin.ext h)
    have harr : arrived s pos f.toNat FT.ack = true := by simp [arrived, hg, ht, hpos']
    exact completes_eq_quiet rfl ((if_pos harr).trans ((if_pos hpos').trans (send_module s p hpos' f))) hq rfl
  case nak =>
    intro p f s harr hlive hst hreason hrun hplain
    have hkey : F.DSP_STATUS_BSTOP.key ≠ (F.WNG_Pp_CNT_NAK_NAK p).key ∧ (F.WNG_Pp_STATUS_STATE p).key ≠ (F.WNG_Pp_CNT_NAK_NAK p).key
        ∧ F.CLK_STATUS_FROZEN.key ≠ (F.WNG_Pp_CNT_NAK_NAK p).key := by
      simp [F.DSP_STATUS_BSTOP, F.WNG_Pp_CNT_NAK_NAK, F.WNG_Pp_STATUS_STATE, F.CLK_STATUS_FROZEN]
      omega
    have hplain' : SendsPlainly (countNak s p) := ⟨(flag_eq_of_fld (fld_satInc_ne _ hkey.2.2)).trans hplain.1, hplain.2⟩
    have hrun' : bstopState (countNak s p) = bRUN := (fld_satInc_ne _ hkey.1).trans hrun
    have hst' : portState { countNak s p with wire := ownFlit s p FT.resume 255 0 :: s.wire } p ≠ pUP := by
      have : portState (countNak s p) p = pENUMERATING := (fld_satInc_ne _ hkey.2.1).trans hst
      change portState (countNak s p) p ≠ pUP
      rw [this]
      decide
    have hend : ringNak s p f.toNat = { countNak s p with wire := ownFlit s p FT.resume 255 0 :: s.wire } := by
      rw [ringNak, if_pos ⟨hreason, hrun'⟩, sendPlain_plain hplain' p.isLt]
      exact if_pos (.inl hst')
    refine completes_eq (exec_nak_live harr hlive) hend (congrArg (· ++ _) harr.1) ⟨fld_satInc_same (raiseMerged s 0x0C09 p _) _, rfl, ?_⟩
    exact Only.hush ((((Only.refl _ _ s).raiseMerged (by decide) _ _ _).satInc (by simp)).withWire (by decide) _) harr.1
  case nakOn =>
    intro p pos f s hq hg ht hpos
    have hpos' : pos.val ≠ 0 := fun h => hpos (Fin.ext h)
    have harr : arrived s pos f.toNat FT.nak = true := by simp [arrived, hg, ht, hpos']
    exact completes_eq_quiet rfl ((if_pos harr).trans ((if_pos hpos').trans (send_module s p hpos' f))) hq rfl
  case returned =>
    intro p f el s harr hst htries hclosed hover hpos hw hrun
    rw [← bitOf_eq_testBit] at hclosed hover
    have hport : (port (setPort s p { port s p with enumTries := 0, count := 0 }) p).waiting = [] := by rw [port_setPort_same, hw]
    have hend : enumReturned s p f.toNat el.1.toNat = enumNone (setPort s p { port s p with enumTries := 0, count := 0 }) p
        (ceilDiv (bits (fPayload f.toNat) 8 32) 4 + 400) el.1.toNat := by
      rw [← enumProgress_returned _ p _ _ hport hrun p.isLt, enumReturned]
      simp only [hpos, hover, Bool.false_eq_true, if_false]
      rfl
    refine completes_eq (exec_enumFlit_device harr el) ((if_pos ⟨hst, htries, hclosed⟩).trans hend)
      ((evq_enumNone ..).trans (congrArg (· ++ _) harr.1)) ⟨portState_enumEnded _ p, modules_enumNone .., ?_, ?_, ?_⟩
    · rw [fld_hush, lat_enumNone _ p _ _ p.isLt, ceilDiv_succ _ 3]
    · rw [fld_hush, rtt_enumNone _ p _ _ p.isLt]
      exact Nat.mod_eq_of_lt el.1.isLt
    · exact Only.hush ((((Only.refl _ _ s).setPort (by decide) _ _).trans (only_enumNone ..)).mono (by simp) (List.Subset.refl _)) harr.1
  case stray =>
    intro p f el s harr h
    refine completes_eq_quiet (exec_enumFlit_device harr el) (if_neg ?_) harr.1 rfl
    rintro ⟨h1, h2, -⟩
    exact h.elim (fun h => h h1) fun h => h2 h
  case again =>
    intro p s hq hst h0 h4 hplain
    have hend : enumTimeout s p = { setPort s p { port s p with enumTries := (port s p).enumTries + 1 } with
        wire := ownFlit s p FT.enum 255 (1 + ((port s p).hop + 16383) / 16384 % 2 ^ 32 * 2 ^ 8) :: s.wire } := by
      unfold enumTimeout
      rw [if_neg (by simp [hst]; omega), if_pos h4, sendEnum,
        sendPlain_plain (s := setPort s p { port s p with enumTries := (port s p).enumTries + 1 }) hplain p.isLt, port_setPort_same, hopQuarters_eq]
      rfl
    exact completes_eq_quiet rfl hend hq ⟨port_setPort_same .., rfl, onlyParts_setPort_wire _ _ _ _⟩
  case empty =>
    intro p s hq hst h4 hw hrun hcount
    have hend : enumTimeout s p = enumNone s p 0 0 := by
      unfold enumTimeout
      rw [if_neg (by simp [hst]; omega), if_neg (by omega), enumEmpty_eq s p hw hrun p.isLt]
    refine completes_eq rfl hend ((evq_enumNone ..).trans (congrArg (· ++ _) hq)) ⟨portState_enumEnded _ p, modules_enumNone .., ?_, ?_,
      Only.hush ((only_enumNone s p 0 0).mono (by simp) (List.Subset.refl _)) hq⟩
    · exact lat_enumNone _ p _ _ p.isLt
    · exact rtt_enumNone _ p _ _ p.isLt
  case idData =>
    intro p f n s harr hst haddr hasked hoff hended hgot hbytes hlen hmods hn hplain
    subst hn
    have hbyte : ∀ j, j < 16 → smGet (storeId [] 0 16 (bits (fPayload f.toNat) 16 128)) j 0
        = BitVec.ofNat 8 (bits (fPayload f.toNat) (16 + 8 * j) 8) := fun j hj => by
      have h := smGet_storeId [] 0 16 (bits (fPayload f.toNat) 16 128) hj
      rw [Nat.zero_add] at h
      rw [h, ofNat_byte_bits _ 16 128 j (by omega)]
    have hlength : idLength (storeId [] 0 16 (bits (fPayload f.toNat) 16 128)) = 40 := by
      rw [idLength, idNat, idNat, idNat, idByte, idByte, hbyte 2 (by omega), hbyte 3 (by omega), BitVec.toNat_ofNat, BitVec.toNat_ofNat, ← hlen,
        two_bytes]
    have hend : Machine.idData s p f.toNat = firstTaken s p (bits (fPayload f.toNat) 16 128) := by
      unfold Machine.idData
      rw [haddr, hoff, if_pos ⟨hst, by rw [hasked]; rfl, hended⟩,
        idTake_first hplain p.isLt hmods hasked hended hgot hbytes hlength]
    have hinfo : modInfo (firstTaken s p (bits (fPayload f.toNat) 16 128)) p 1
        = { firstRead s p (bits (fPayload f.toNat) 16 128) with asked := [16, 32] } := modInfo_setInfo s p 1 _
    refine completes_eq_quiet (exec_idData_device harr) hend harr.1 ⟨fun j hj => ?_, ?_, ?_, rfl, onlyParts_setPort_wire _ _ _ _⟩
    · rw [hinfo]
      exact hbyte j hj
    · rw [hinfo]
      rfl
    · rw [hinfo]
  case unasked =>
    intro p f s harr h
    exact completes_eq_quiet (exec_idData_device harr) (if_neg (by simp [h])) harr.1 rfl
  case idAgain =>
    intro p n off s hq hst hasked hended htries hplain
    have hend : idReadTimeout s p n off.toNat = { setInfo s p n { modInfo s p n with
        tries := smSet (modInfo s p n).tries off.toNat (smGet (modInfo s p n).tries off.toNat 0 + 1) 0 } with
          wire := ownFlit s p FT.idRead n off.toNat :: s.wire } := by
      unfold idReadTimeout
      rw [if_neg (by simp [hst, hasked, hended]), if_pos htries, sendIdRead, sendPlain_plain (s := setInfo s p n _) hplain p.isLt, setInfo,
        port_setPort_same]
      rfl
    refine completes_eq_quiet rfl hend hq ⟨?_, rfl, onlyParts_setPort_wire _ _ _ _⟩
    change smGet (modInfo (setInfo s p n _) p n).tries off.toNat 0 = _
    rw [modInfo_setInfo]
    simp only [smGet_smSet_same]
  case noAnswer =>
    intro p off s hq hst hasked hended htries hw hrun hmods
    have hfailed := moduleFailed_spec hw hrun hmods p.isLt
    obtain ⟨hend, hevq, hstate, hreason, honly⟩ := hfailed
    have hexec : idReadTimeout s p 1 off.toNat = endModuleChecks s p 1 3 1 0 := by
      unfold idReadTimeout
      rw [if_neg (by simp [hst, hasked, hended]), if_neg (by omega)]
    exact completes_eq rfl (hexec.trans hend) (hevq.trans (congrArg (· ++ _) hq)) ⟨hstate, hreason, portState_enumEnded _ p, honly.hush hq⟩
  case enumWrite =>
    intro p s hq hup hen hj hplain
    obtain ⟨hstart, hstate, hparts⟩ := enumStart_spec hplain p.isLt
    refine completes_eq_quiet rfl ((if_pos (by simp [hup, hen, hj])).trans hstart) hq ⟨fld_setFld_same .., hstate, port_setPort_same .., rfl, hparts⟩
  case notWritten =>
    intro p s hq h
    refine completes_eq_quiet rfl (if_neg ?_) hq rfl
    rcases h with h | h | h <;> simp [h]
  case safe =>
    intro p s hq hup hstate hmods hplain
    have hsafe : sendSafes s p = { s with wire := ownFlit s p FT.safe 1 0 :: s.wire } := by
      have hquar : (positions s p).filter (fun n => modState s p n == 2) = [1] := by
        rw [positions_one hmods, List.filter_singleton, modState, hstate]
        rfl
      rw [sendSafes, hquar]
      exact sendPlain_plain hplain p.isLt ..
    exact completes_eq_quiet rfl ((if_pos hup).trans hsafe) hq rfl
  case probe =>
    intro p t s hq hst hready hplain
    exact completes_eq_quiet rfl ((if_pos rfl).trans ((if_neg (by simp [hst, hready])).trans (sendPlain_plain hplain p.isLt ..))) hq rfl
  case noProbe =>
    intro p t s hq h
    exact completes_eq_quiet rfl ((if_pos rfl).trans (if_pos h)) hq rfl
  case crc =>
    intro p fwd f s hq hbad htrunk
    have htrunk' : upTrunk (satInc s (F.WNG_Pp_CNT_CRC_CRC p)) p = false := by
      rw [← htrunk]
      refine upTrunk_congr (fld_satInc_ne s ?_) (fld_satInc_ne s ?_) <;>
      simp [F.WNG_Pp_CNT_CRC_CRC, F.WNG_Pp_CTRL_MODE, F.WNG_Pp_STATUS_STATE]
    have hend : crcError s p 0 fwd f.toNat = satInc s (F.WNG_Pp_CNT_CRC_CRC p) := by
      rw [crcError, if_neg (not_not.2 rfl)]
      exact if_neg (by simp [htrunk'])
    exact completes_eq_quiet rfl ((if_neg (by simp [hbad])).trans hend) hq ⟨fld_satInc_same .., (Only.refl [] _ s).satInc (by simp)⟩

end


section
/-! SUPPORT. Block memories and their queues, the claims of a lost claim-map word, and a region's wake (R202 to R207, R210, R224, R231). -/
namespace Sys2Proof.Machine

/-! ### Lists and maps -/

section
variable {α : Type} (key : α → Nat)

theorem mem_insertBy {x y : α} {l : List α} : y ∈ insertBy key x l ↔ y = x ∨ y ∈ l := by
  induction l with
  | nil => simp [insertBy]
  | cons z t ih =>
    rw [insertBy]
    split
    · simp
    · rw [List.mem_cons, ih, List.mem_cons]
      tauto

theorem mem_sortBy {l : List α} {y : α} : y ∈ sortBy key l ↔ y ∈ l := by
  suffices h : ∀ acc : List α, y ∈ l.foldl (fun acc x => insertBy key x acc) acc ↔ y ∈ acc ∨ y ∈ l by
    exact (h []).trans (by simp)
  induction l with
  | nil => simp
  | cons x t ih =>
    intro acc
    rw [List.foldl_cons, ih, mem_insertBy, List.mem_cons]
    tauto

theorem pairwise_insertBy {x : α} {l : List α} (h : l.Pairwise fun a b => key a ≤ key b) :
    (insertBy key x l).Pairwise fun a b => key a ≤ key b := by
  induction l with
  | nil => simp [insertBy]
  | cons z t ih =>
    obtain ⟨hz, ht⟩ := List.pairwise_cons.1 h
    rw [insertBy]
    split
    · next hlt =>
      refine List.pairwise_cons.2 ⟨fun y hy => ?_, h⟩
      rcases List.mem_cons.1 hy with rfl | hy
      · exact hlt.le
      · exact hlt.le.trans (hz y hy)
    · next hge =>
      refine List.pairwise_cons.2 ⟨fun y hy => ?_, ih ht⟩
      rcases (mem_insertBy key).1 hy with rfl | hy
      · omega
      · exact hz y hy

theorem pairwise_sortBy (l : List α) : (sortBy key l).Pairwise fun a b => key a ≤ key b := by
  suffices h : ∀ acc : List α, (acc.Pairwise fun a b => key a ≤ key b) →
      (l.foldl (fun acc x => insertBy key x acc) acc).Pairwise fun a b => key a ≤ key b from h [] .nil
  induction l with
  | nil => exact fun _ h => h
  | cons x t ih => exact fun acc h => ih _ (pairwise_insertBy key h)

/-- The first element of a sorted list that is not empty is one with the smallest key. -/
theorem head?_sortBy {l : List α} (h : l ≠ []) : ∃ x, (sortBy key l).head? = some x ∧ x ∈ l ∧ ∀ y ∈ l, key x ≤ key y := by
  cases hs : sortBy key l with
  | nil =>
    obtain ⟨y, hy⟩ := List.exists_mem_of_ne_nil l h
    have := (mem_sortBy key).2 hy
    rw [hs] at this
    cases this
  | cons x t =>
    have hp := pairwise_sortBy key l
    rw [hs] at hp
    refine ⟨x, rfl, (mem_sortBy key).1 (hs ▸ List.mem_cons_self), fun y hy => ?_⟩
    have hy' := (mem_sortBy key).2 hy
    rw [hs] at hy'
    rcases List.mem_cons.1 hy' with rfl | hy'
    · exact le_refl _
    · exact (List.pairwise_cons.1 hp).1 y hy'

end

theorem exists_mem_of_smGet {α : Type} {m : SMap α} {k : Nat} {d : α} (h : smGet m k d ≠ d) : ∃ c ∈ m, c.1 = k := by
  induction m with
  | nil => exact absurd rfl h
  | cons c t ih =>
    by_cases hk : k = c.1
    · exact ⟨c, List.mem_cons_self, hk.symm⟩
    · obtain ⟨c', hc, hk'⟩ := ih (by rwa [smGet, if_neg hk] at h)
      exact ⟨c', List.mem_cons_of_mem _ hc, hk'⟩

/-- A map into which values are written for the elements of a list holds one of them where an element names the key. -/
theorem smGet_foldl_smSet {α : Type} (l : List α) (f : α → Nat) (P : Nat → Prop) [DecidablePred P] (g : Nat → Nat) {t : Nat} (hP : P t)
    (m : SMap Nat) (h : (∃ c ∈ l, f c = t) ∨ smGet m t 0 = g t) :
    smGet (l.foldl (fun m c => if P (f c) then smSet m (f c) (g (f c)) 0 else m) m) t 0 = g t := by
  induction l generalizing m with
  | nil => simpa using h
  | cons c l ih =>
    rw [List.foldl_cons]
    refine ih _ ?_
    by_cases hc : f c = t
    · rw [hc, if_pos hP]
      exact .inr (smGet_smSet_same ..)
    · rcases h with ⟨d, hd, hdt⟩ | hm
      · rcases List.mem_cons.1 hd with rfl | hd
        · exact absurd hdt hc
        · exact .inl ⟨d, hd, hdt⟩
      · right
        split
        · rw [smGet_smSet_ne _ (Ne.symm hc), hm]
        · exact hm

/-! ### Fields of a number -/

theorem bits_putBits_eq (x lo w v : Nat) : bits (putBits x lo w v) lo w = v % 2 ^ w := by
  apply Nat.eq_of_testBit_eq
  intro i
  rw [testBit_bits, testBit_putBits, Nat.testBit_mod_two_pow]
  by_cases hi : i < w
  · rw [if_pos (by omega), Nat.add_sub_cancel_left]
  · simp [hi]

theorem bits_putBits_ne {x lo w v lo' w' : Nat} (h : lo' + w' ≤ lo ∨ lo + w ≤ lo') : bits (putBits x lo w v) lo' w' = bits x lo' w' := by
  apply Nat.eq_of_testBit_eq
  intro i
  rw [testBit_bits, testBit_bits, testBit_putBits]
  by_cases hi : i < w'
  · rw [if_neg (by omega)]
  · simp [hi]

theorem putBits_bits (x lo w : Nat) : putBits x lo w (bits x lo w) = x := by
  apply Nat.eq_of_testBit_eq
  intro i
  rw [testBit_putBits]
  split
  · next h => rw [testBit_bits, decide_eq_true (by omega), Bool.true_and, Nat.add_sub_cancel' h.1]
  · rfl

/-! ### The fabric and block memories -/

section
variable {s : State}

theorem onlyParts_setFab (s : State) (x : Fabric) : OnlyParts [.fab] s (setFab s x) := by
  intro q hq
  cases q
  case fab => exact absurd hq (by decide)
  all_goals rfl

theorem onlyParts_setBm (s : State) (r i : Nat) (x : Bm) : OnlyParts [.fab] s (setBm s r i x) := onlyParts_setFab s _

theorem bm_setBm_same (s : State) (r i : Nat) (x : Bm) : bm (setBm s r i x) r i = x := smGet_smSet_same ..

theorem bms_setBm_ne (s : State) (r i : Nat) (x : Bm) {k : Nat} (h : k ≠ r * 50 + i) :
    smGet (setBm s r i x).fab.bms k ({} : Bm) = smGet s.fab.bms k {} := smGet_smSet_ne _ h ..

theorem bmFlip_zero (x : Bm) (m : Nat) (op : BmOp) : bmFlip x m op 0 = x := by
  unfold bmFlip
  split
  · rw [Nat.xor_zero, bmPut, bmWord, putBits_bits]
  · rfl

/-- A block memory of words of 72 bits without a check byte. -/
structure Plain72 (m : Nat) : Prop where
  ram : bmQmode m = 0
  wide : bits m 3 3 = 3

section
variable {m : Nat} (h : Plain72 m)
include h

theorem Plain72.not_queue : isQueue m = false := by rw [isQueue, h.ram]; rfl

theorem Plain72.width : bmWidth m = 72 := by rw [bmWidth, h.wide]; rfl

theorem Plain72.depth : bmDepth m = 512 := by rw [bmDepth, h.width]

theorem Plain72.ecc : bmEcc m = false := by rw [bmEcc, h.wide]; rfl

theorem Plain72.word (x : Bm) (a : Nat) : bmWord x m a = bits x.mem (72 * (a % 512)) 72 := by rw [bmWord, h.width, h.depth]

theorem Plain72.stored (v : Nat) : bmStored m v = v % 2 ^ 72 := by rw [bmStored, h.ecc, if_neg (by decide), h.width]

theorem Plain72.shown (w : Nat) : bmShown m w = w := by rw [bmShown, h.ecc, if_neg (by decide)]

end

theorem bits_zero_val (lo w : Nat) : bits 0 lo w = 0 := by rw [bits_eq_div_mod, Nat.zero_div, Nat.zero_mod]

/-- A block memory after operations of which neither collides nor finds an error. -/
def bmServed (x : Bm) (m : Nat) (a b : BmOp) : Bm :=
  { bmApply (bmApply x m a) m b with
    outA := bmOut x m (bits m 6 2) x.outA a, outB := bmOut x m (bits m 8 2) x.outB b, collA := false, collB := false, sbe := false, dbe := false }

section
variable {r : Fin 72} {i : Fin 50} (hticks : regTicks s r = true) (h : Plain72 (Modes s r i))
include hticks h

theorem bmAccess_served {a b : BmOp} (hcoll : ∀ near, bmCollide (Modes s r i) (portOp s r (bmClkA (Modes s r i)) a)
    (portOp s r (bmClkB (Modes s r i)) b) near = false) : bmAccess s r i a b false 0
      = setBm s r i (bmServed (bm s r i) (Modes s r i) (portOp s r (bmClkA (Modes s r i)) a) (portOp s r (bmClkB (Modes s r i)) b)) := by
  have herrs : ∀ x op, bmErrs x (Modes s r i) op = (false, false) := fun x op => by
    cases op <;> simp [bmErrs, h.ecc]
  unfold bmAccess
  simp only [hticks, h.not_queue, bits_zero_val, bmFlip_zero, hcoll, herrs, bmCount, Bool.not_true, Bool.or_self, Bool.false_and,
    Bool.false_eq_true, if_false]
  rfl

/-- A write of port A alone. -/
theorem bmAccess_write (hclk : regClkEn s r (bmClkA (Modes s r i)) = true) (a : BitVec 12) (d : BitVec 72) :
    bmAccess s r i (.write a d) .idle false 0 = setBm s r i (bmServed (bm s r i) (Modes s r i) (.write a d) .idle) := by
  rw [bmAccess_served hticks h (fun near => by simp [portOp, hclk, bmCollide, bmOpAt]), portOp, if_pos hclk, portOp, ite_self]

/-- A read of port B alone. -/
theorem bmAccess_read (hclk : regClkEn s r (bmClkB (Modes s r i)) = true) (a : BitVec 12) :
    bmAccess s r i .idle (.read a) false 0 = setBm s r i (bmServed (bm s r i) (Modes s r i) .idle (.read a)) := by
  rw [bmAccess_served hticks h (fun near => by simp [portOp, bmCollide, bmOpAt]), portOp, ite_self, portOp, if_pos hclk]

end

theorem mem_bmServed_write {m : Nat} (h : Plain72 m) (x : Bm) (a : BitVec 12) (d : BitVec 72) :
    (bmServed x m (.write a d) .idle).mem = putBits x.mem (72 * (a.toNat % 512)) 72 d.toNat := by
  have hmode : ¬ 5 ≤ bmQmode m := by rw [h.ram]; omega
  simp only [bmServed, bmApply, hmode, if_false, bmPut, h.stored, h.width, h.depth, Nat.mod_eq_of_lt d.isLt]

end

/-! ### Queues -/

section
variable {s : State} {r : Fin 72} {i : Fin 50}

theorem queueErr_spec (s : State) (r : Fin 72) (i : Fin 50) (n : Nat) : (bm (queueErr s r i n) r i = { bm s r i with err := n + 1 })
    ∧ Counts (F.FAB_REGr_QERR_QERR r) 1 s (queueErr s r i n) ∧ Only [.fab] [F.FAB_REGr_QERR_QERR r] s (queueErr s r i n) :=
  ⟨bm_setBm_same .., fld_satInc_same (setBm s r i _) _,
    (Only.parts (Only.refl _ _ s) (List.Subset.refl _) (onlyParts_setBm s r i _) rfl).satInc (by simp)⟩

section
variable (hticks : regTicks s r = true) (hqueue : isQueue (Modes s r i) = true) (hclk : regClkEn s r (popClk (Modes s r i)) = true)
include hticks hqueue hclk

theorem queuePop_takes {x : Nat} (hx : queueShown (Modes s r i) (bm s r i) = some x) :
    queuePop s r i = setBm s r i (popWord (Modes s r i) (bm s r i) x) := by
  unfold queuePop
  simp only [hticks, hqueue, hclk, Bool.not_true, Bool.or_self, Bool.false_eq_true, if_false, hx]

theorem queuePop_empty (hx : queueEmpty (bm s r i) = true) : queuePop s r i = queueErr s r i (popClk (Modes s r i)) := by
  have hnone : queueShown (Modes s r i) (bm s r i) = none := if_pos hx
  unfold queuePop
  simp only [hticks, hqueue, hclk, Bool.not_true, Bool.or_self, Bool.false_eq_true, if_false, hnone]

end

section
variable (hticks : regTicks s r = true) (hqueue : isQueue (Modes s r i) = true) (hclk : regClkEn s r (bmClkA (Modes s r i)) = true)
include hticks hqueue hclk

/-- A PUSH, after the POP on its edge. -/
theorem queuePush_eq (v : Nat) (pop : Bool) : queuePush s r i v pop
    = if queueFull (Modes s r i) (bm (if pop then queuePop s r i else s) r i) then
        queueErr (if pop then queuePop s r i else s) r i (bmClkA (Modes s r i))
      else setBm (drawn (if pop then queuePop s r i else s)) r i
        (pushWord (Modes s r i) (bm (if pop then queuePop s r i else s) r i) v (freeOf (if pop then queuePop s r i else s))) := by
  unfold queuePush
  simp only [hticks, hqueue, hclk, Bool.not_true, Bool.or_self, Bool.false_eq_true, if_false]

end

theorem onlyParts_pushed (s : State) (r i : Nat) (x : Bm) : OnlyParts [.fab, .free] s (setBm (drawn s) r i x) := by
  intro q hq
  cases q
  case fab => exact absurd hq (by decide)
  case free => exact absurd hq (by decide)
  all_goals rfl

theorem queueShown_fifo {m : Nat} {x : Bm} (h : bmQmode m ≠ 3) (he : queueEmpty x = false) : queueShown m x = x.q.head? := by
  rw [queueShown, he, if_neg (by decide), queueHead, if_neg h]

theorem queueShown_pqueue {m : Nat} {x : Bm} (h : bmQmode m = 3) (he : queueEmpty x = false) :
    ∃ e, queueShown m x = some e ∧ e ∈ x.q ∧ ∀ y ∈ x.q, qKey m e ≤ qKey m y := by
  have hne : x.q ≠ [] := by
    rintro hnil
    simp [queueEmpty, popCount, hnil] at he
  obtain ⟨e, hhead, hmem, hleast⟩ := head?_sortBy (qKey m) hne
  exact ⟨e, by rw [queueShown, he, if_neg (by decide), queueHead, if_pos h, hhead], hmem, hleast⟩

end

/-! ### Lost claims -/

section
variable (s : State) (k w : Nat)

/-- The fabric without the claims of a word, those lost marked. -/
def claimsLost : Fabric :=
  { s.fab with
    claims := s.fab.claims.filter fun c => !(c.1 % 4 == k && c.1 / 4 / 32 == w)
    lost := (s.fab.claims.filter fun c => c.1 % 4 == k && c.1 / 4 / 32 == w).foldl (fun m c => smSet m c.1 3 0) s.fab.lost }

/-- The keepers after the loss. -/
def keptTracks : SMap Nat := (keepTracks s (setFab s (claimsLost s k w))).fab.keep

theorem claimUncorr_eq : claimUncorr s k w = satInc (raise (setFab s { claimsLost s k w with keep := keptTracks s k w }) 0x0520
    ((List.range 32).map (fun t => (4, 32 * w + t)) ++ [(1, k)])) F.CFG_VT_STATS_UNCORR := by
  rw [claimUncorr, List.map_map]
  rfl

theorem lost_claimsLost {t : Nat} (hk : k < 4) (ht : t / 32 = w) (hc : claimOf s t k ≠ 0) : smGet (claimsLost s k w).lost (4 * t + k) 0 = 3 := by
  obtain ⟨c, hc, hkey⟩ := exists_mem_of_smGet hc
  have hgone : c ∈ s.fab.claims.filter fun c => c.1 % 4 == k && c.1 / 4 / 32 == w := by
    rw [List.mem_filter, Bool.and_eq_true, beq_iff_eq, beq_iff_eq, hkey]
    exact ⟨hc, by omega, by omega⟩
  have h := smGet_foldl_smSet (s.fab.claims.filter fun c => c.1 % 4 == k && c.1 / 4 / 32 == w) (·.1) (fun _ => True) (fun _ => 3) (t := 4 * t + k)
    trivial s.fab.lost (.inl ⟨c, hgone, hkey⟩)
  simp only [if_true] at h
  exact h

theorem driverOf_congr {u v : State} {t : Nat} (hframes : v.fab.frames = u.fab.frames) (hclaims : v.fab.claims = u.fab.claims)
    (hctx : ∀ q, fld v (F.CTX_REGr_ACTIVE_CTX q) = fld u (F.CTX_REGr_ACTIVE_CTX q)) : driverOf v t = driverOf u t := by
  have hk : ctxOf v (homeRegion t) = ctxOf u (homeRegion t) := hctx _
  rw [driverOf, driverOf]
  simp only [hk, claimOf, frameAt, hframes, hclaims]
  rfl

theorem trackValue_undriven {u : State} {t : Nat} (h : driverOf u t = 0) : trackValue u t = b2n (smGet u.fab.keep t 0 == 1) := by
  obtain ⟨n, hn⟩ : ∃ n, signalSteps = n + 1 := ⟨2 ^ 27 - 1, rfl⟩
  rw [trackValue, signal, hn, signalIn, signalOf, h]
  rfl

theorem trackValue_lt (s : State) (t : Nat) : trackValue s t < 2 := b2n_lt_two _

/-- A track whose driver turns off keeps its value. -/
theorem keep_keptTracks {t : Nat} (hs : driverOf s t ≠ 0) (hu : driverOf (setFab s (claimsLost s k w)) t = 0) :
    smGet (keptTracks s k w) t 0 = trackValue s t := by
  have hclaim : claimOf s t (ctxOf s (homeRegion t)) ≠ 0 := by
    intro h0
    rw [driverOf, h0] at hs
    exact hs (if_neg fun h => h.1 rfl)
  obtain ⟨c, hc, hkey⟩ := exists_mem_of_smGet hclaim
  have hctx : ctxOf s (homeRegion t) < 4 := fld_lt ..
  exact smGet_foldl_smSet s.fab.claims (fun c => c.1 / 4)
    (fun n => driverOf s n ≠ 0 ∧ driverOf (setFab s (claimsLost s k w)) n = 0) (trackValue s) ⟨hs, hu⟩ s.fab.keep (.inl ⟨c, hc, by rw [hkey]; omega⟩)

end

/-! ### A region's wake -/

/-- The state in which a region asks rail 8 for its restart. -/
def wakeAsked (s : State) (r : Nat) : State :=
  r8Waiting (setDsp (setFld s (F.FAB_REGr_CTRL_WAKE r) 1) { s.dsp with r8queue := s.dsp.r8queue ++ [.regionStart r] })

theorem only_wakeAsked (s : State) (r : Nat) : Only [.dsp] [F.FAB_REGr_CTRL_WAKE r, F.DSP_RAIL8_STATUS_WAITING] s (wakeAsked s r) :=
  (((Only.refl _ _ s).setFld (by simp) _).setDsp (by decide) _).setFld (by simp) _

theorem regionWakeWrite_asks {s : State} {r : Nat} (hphase : pwrPhase s = 0) (hrun : pwrState s = 0) (hopen : s.pwr.closed = false)
    (hruns : regRuns s r = true) (hasleep : regAsleep s r = true) (hgate : (region s r).gateReq = false)
    (hnew : R8Req.regionStart r ∉ s.dsp.r8queue) (hr : r < 72) : regionWakeWrite s r = wakeAsked s r := by
  have hkeep : ∀ f : Fld, f.key ≠ (F.FAB_REGr_CTRL_WAKE r).key → fld (setFld s (F.FAB_REGr_CTRL_WAKE r) 1) f = fld s f := fun f h =>
    fld_setFld_ne s h 1
  have hphase' : pwrPhase (setFld s (F.FAB_REGr_CTRL_WAKE r) 1) = 0 :=
    (hkeep _ (by simp only [F.PWR_STATUS_PHASE, F.FAB_REGr_CTRL_WAKE]; omega)).trans hphase
  have hrun' : pwrState (setFld s (F.FAB_REGr_CTRL_WAKE r) 1) = 0 :=
    (hkeep _ (by simp only [F.PWR_STATUS_STATE, F.FAB_REGr_CTRL_WAKE]; omega)).trans hrun
  have hentry : entryWake (setFld s (F.FAB_REGr_CTRL_WAKE r) 1) = setFld s (F.FAB_REGr_CTRL_WAKE r) 1 :=
    if_neg fun h => absurd (hphase'.symm.trans h.1) (by decide)
  have hruns' : regRuns (setFld s (F.FAB_REGr_CTRL_WAKE r) 1) r = true := by
    rw [← hruns, regRuns, regRuns, regState, regState, hkeep _ (by simp only [F.FAB_REGr_STATUS_STATE, F.FAB_REGr_CTRL_WAKE]; omega)]
    rfl
  have hasleep' : regAsleep (setFld s (F.FAB_REGr_CTRL_WAKE r) 1) r = true := by
    rw [← hasleep, regAsleep, regAsleep, flag_eq_of_fld (hkeep _ (by simp only [F.FAB_REGr_STATUS_SLEEPING, F.FAB_REGr_CTRL_WAKE]; omega))]
  have hopen' : pwrClosed (setFld s (F.FAB_REGr_CTRL_WAKE r) 1) = false := by
    rw [pwrClosed, hrun']
    exact hopen
  have hgate' : (region (setFld s (F.FAB_REGr_CTRL_WAKE r) 1) r).gateReq = false := hgate
  have hnew' : (setFld s (F.FAB_REGr_CTRL_WAKE r) 1).dsp.r8queue.contains (R8Req.regionStart r) = false := by
    simpa using hnew
  rw [regionWakeWrite, if_pos (by simp [hasleep, hruns]), regionWake]
  simp only [hruns', hentry, hgate', hopen', hasleep', if_true, Bool.not_true, Bool.false_eq_true, if_false]
  rw [r8Request, hnew', if_neg (by decide)]
  rfl

end Sys2Proof.Machine
end

section
open Sys2Proof Sys2Proof.Machine

/-- Settles O34: each command replaces one region, one block memory or the claims of one word. -/
theorem strobesSleepAndBlockMemories : Obligations.StrobesSleepAndBlockMemories := by
  refine ⟨?strobe, ?noStrobe, ?sleep, ?noSleep, ?wake, ?write, ?read, ?push, ?pushFull, ?pushPop, ?pop, ?popKey, ?popEmpty, ?disable, ?claims⟩
  case strobe =>
    intro r k s hticks hclk hk
    obtain ⟨hq, hticks⟩ := hticks
    refine completes_eq_quiet rfl (if_pos (by simp [hticks, hclk, hk])) hq ⟨?_, fun j hj => ?_, ⟨?_, fun q hne => region_setRegion_ne s hne _⟩,
      onlyParts_setRegion _ _ _⟩
    · rw [region_setRegion_same]
      simp
    · rw [region_setRegion_same]
      simp [hj]
    · rw [region_setRegion_same]
  case noStrobe =>
    intro r k s hq h
    refine completes_eq_quiet rfl (if_neg ?_) hq rfl
    rcases h with h | h <;> simp [h]
  case sleep =>
    intro r s hticks hst hauto hclk hfrozen
    obtain ⟨hq, hticks⟩ := hticks
    exact completes_eq_quiet rfl (if_pos (by simp [hst, hauto, hticks, hclk, hfrozen, gRELEASED])) hq
      ⟨⟨region_setRegion_same .., fun q hne => region_setRegion_ne s hne _⟩, onlyParts_setRegion _ _ _⟩
  case noSleep =>
    intro r s hq hauto
    exact completes_eq_quiet rfl (if_neg (by simp [hauto])) hq rfl
  case wake =>
    intro r s hq hphase hrun hopen hruns hasleep hgate hnew
    refine completes_eq_quiet rfl (regionWakeWrite_asks hphase hrun hopen hruns hasleep hgate hnew r.isLt) hq ⟨?_, rfl, only_wakeAsked s r⟩
    rw [wakeAsked, r8Waiting, flag, fld_setFld_ne _ (by simp only [F.DSP_RAIL8_STATUS_WAITING, F.FAB_REGr_CTRL_WAKE]; omega), fld_setDsp,
      fld_setFld_same]
    rfl
  case write =>
    intro r i a d s hticks hmode hwide hclk
    obtain ⟨hq, hticks⟩ := hticks
    have h72 : Plain72 (Modes s r i) := ⟨hmode, hwide⟩
    refine completes_eq_quiet rfl (bmAccess_write hticks h72 hclk a d) hq
      ⟨fun w hw => ?_, fun k hk => bms_setBm_ne s r i _ hk, onlyParts_setBm _ _ _ _⟩
    rw [bm_setBm_same, mem_bmServed_write h72]
    split
    · next he => rw [he, bits_putBits_eq, Nat.mod_eq_of_lt d.isLt]
    · next hne => exact bits_putBits_ne (by omega)
  case read =>
    intro r i a s hticks hmode hwide hclk
    obtain ⟨hq, hticks⟩ := hticks
    have h72 : Plain72 (Modes s r i) := ⟨hmode, hwide⟩
    refine completes_eq_quiet rfl (bmAccess_read hticks h72 hclk a) hq ⟨?_, ?_, onlyParts_setBm _ _ _ _⟩
    · rw [bm_setBm_same]
      change bmShown (Modes s r i) (bmWord (bm s r i) (Modes s r i) a.toNat) = _
      rw [h72.shown, h72.word]
    · rw [bm_setBm_same]
      rfl
  case push =>
    intro r i d s hticks hqueue hclk hfull
    obtain ⟨hq, hticks⟩ := hticks
    refine completes_eq_quiet rfl ((queuePush_eq hticks hqueue hclk _ false).trans (if_neg (by simp [hfull]))) hq
      ⟨?_, fun k hk => bms_setBm_ne (drawn s) r i _ hk, onlyParts_pushed _ _ _ _⟩
    rw [bm_setBm_same]
    rfl
  case pushFull =>
    intro r i d s hticks hqueue hclk hfull
    obtain ⟨hq, hticks⟩ := hticks
    exact completes_eq_quiet rfl ((queuePush_eq hticks hqueue hclk _ false).trans (if_pos hfull)) hq (queueErr_spec s r i _)
  case pushPop =>
    intro r i d x q s hticks hmode hclk hlist hW hR hroom
    obtain ⟨hq, hticks⟩ := hticks
    have hqueue : isQueue (Modes s r i) = true := by rw [isQueue, hmode]; rfl
    have hdual : dualQueue (Modes s r i) = false := by rw [dualQueue, hmode]; rfl
    have hpop : popClk (Modes s r i) = bmClkA (Modes s r i) := by rw [popClk, hdual, if_neg (by decide)]
    have hne : queueEmpty (bm s r i) = false := by simp [queueEmpty, popCount, hlist, hW]
    have hpopped := queuePop_takes hticks hqueue (hpop ▸ hclk)
      ((queueShown_fifo (by rw [hmode]; decide) hne).trans (by rw [hlist, List.head?_cons]))
    have hbm : bm (queuePop s r i) r i = { bm s r i with q := q, pops := (bm s r i).pops ++ [(x, 2)] } := by
      rw [hpopped, bm_setBm_same, popWord, hlist, hdual]
      simp
    have hfull : queueFull (Modes s r i) (bm (queuePop s r i) r i) = false := by
      rw [queueFull, hbm, pushCount, hR]
      simpa using hroom
    have hmode2 : bmQmode (Modes s r i) ≠ 2 := by rw [hmode]; decide
    have hnot2 : ¬ bmQmode (Modes s r i) = 2 := by rw [hmode]; decide
    have hpush := (queuePush_eq hticks hqueue hclk d.toNat true).trans (if_neg (by simp [hfull]))
    simp only [if_true, hbm] at hpush
    rw [hpopped] at hpush
    refine completes_eq_quiet rfl hpush hq ⟨?_, ?_, ?_, ?_⟩
    · rw [bm_setBm_same]
      rfl
    · rw [bm_setBm_same]
      rfl
    · rw [bm_setBm_same]
      rfl
    · exact OnlyParts.trans ((onlyParts_setBm _ _ _ _).mono (by simp)) (onlyParts_pushed _ _ _ _)
  case pop =>
    intro r i x q s hticks hqueue hclk hmode hlist hne
    obtain ⟨hq, hticks⟩ := hticks
    refine completes_eq_quiet rfl (queuePop_takes hticks hqueue hclk ((queueShown_fifo hmode hne).trans (by rw [hlist, List.head?_cons]))) hq
      ⟨?_, onlyParts_setBm _ _ _ _⟩
    rw [bm_setBm_same, popWord, hlist, List.erase_cons_head]
  case popKey =>
    intro r i s hticks hmode hclk hne
    obtain ⟨hq, hticks⟩ := hticks
    have hqueue : isQueue (Modes s r i) = true := by rw [isQueue, hmode]; rfl
    have hpop : popClk (Modes s r i) = bmClkA (Modes s r i) := by rw [popClk, dualQueue, hmode]; rfl
    obtain ⟨x, hx, hmem, hleast⟩ := queueShown_pqueue hmode hne
    refine completes_eq_quiet rfl (queuePop_takes hticks hqueue (hpop ▸ hclk) hx) hq ⟨x, hmem, hleast, ?_, ?_, onlyParts_setBm _ _ _ _⟩
    · rw [bm_setBm_same, popWord]
    · rw [bm_setBm_same, popWord]
  case popEmpty =>
    intro r i s hticks hqueue hclk hempty
    obtain ⟨hq, hticks⟩ := hticks
    exact completes_eq_quiet rfl (queuePop_empty hticks hqueue hclk hempty) hq (queueErr_spec s r i _)
  case disable =>
    intro s hq hon
    have hclear : flag (fabDrainEnd s) F.FAB_CTRL_ENABLE = false := by
      rw [flag, fabDrainEnd, fld_setFld_ne _ (by decide), fld_setFld_same]
      rfl
    by_cases hdrained : fabDrained s = true
    · refine completes_eq_quiet rfl ((if_neg (by simp [hon])).trans (if_pos hdrained)) hq ⟨fun _ => ⟨hclear, ?_⟩, fun h => ?_,
        ((Only.refl [] _ s).setFld (by simp) _).setFld (by simp) _⟩
      · rw [flag, fabDrainEnd, fld_setFld_same]
        rfl
      · rw [hdrained] at h
        cases h
    · refine completes_eq_quiet rfl ((if_neg (by simp [hon])).trans (if_neg hdrained)) hq ⟨fun h => absurd h hdrained, fun _ => ⟨?_, ?_⟩,
        (Only.refl [] _ s).setFld (by simp) _⟩
      · rw [← hon]
        exact flag_eq_of_fld (fld_setFld_ne _ (by decide) _)
      · rw [flag, fld_setFld_same]
        rfl
  case claims =>
    intro k w s hq
    refine completes_eq rfl (claimUncorr_eq s k w) (congrArg (· ++ _) hq) ⟨rfl, fun t ht hc => lost_claimsLost s k w k.isLt ht hc,
      fun t hs hu => ?_, fld_satInc_same (raise _ 0x0520 _) _, ?_⟩
    · have hctx : ∀ q, fld (claimUncorr s k w) (F.CTX_REGr_ACTIVE_CTX q) = fld s (F.CTX_REGr_ACTIVE_CTX q) := fun q =>
        fld_setFld_ne _ (by simp only [F.CTX_REGr_ACTIVE_CTX, F.CFG_VT_STATS_UNCORR]; omega) _
      have hu' : driverOf (setFab s (claimsLost s k w)) t = 0 := by
        rw [← claimUncorr_eq] at hu
        rw [← hu]
        exact driverOf_congr (u := hush (claimUncorr s k w)) rfl rfl fun q => (hctx q).symm
      have hkeep := keep_keptTracks s k w hs hu'
      have hlt := trackValue_lt s t
      refine (trackValue_undriven hu).trans ?_
      change b2n (smGet (keptTracks s k w) t 0 == 1) = _
      rw [hkeep]
      interval_cases trackValue s t <;> rfl
    · exact Only.hush ((((Only.parts (Only.refl [.evq, .fab] [F.CFG_VT_STATS_UNCORR] s) (by decide) (onlyParts_setFab s { claimsLost s k w with keep := keptTracks s k w }) rfl).raise (by decide) _ _).satInc (by simp))) hq

end


section
/-! SUPPORT. What an edge of region clock 0 leaves as it is, and the end of a region's clocks (R197, R240, R255 to R258). -/
namespace Sys2Proof.Machine

/-! ### An edge of a region's clocks -/

/-- A region beside what its flip-flops hold. -/
def restOf (x : Region) : Region := { x with shared := [], priv := [] }

/-- A region beside what its elements hold and show. -/
def stillOf (x : Region) : Region := { x with shared := [], priv := [], muls := [], stbOut := [], refusedOut := false }

theorem eq_of_restOf {x y : Region} (h : restOf x = restOf y) : x = { y with shared := x.shared, priv := x.priv } := by
  cases x
  cases y
  simp only [restOf, Region.mk.injEq] at h ⊢
  simp only [h, and_self]

theorem stillOf_of_restOf {x y : Region} (h : restOf x = restOf y) : stillOf x = stillOf y := by
  rw [eq_of_restOf h]
  rfl

/-- What an edge of region r's clocks keeps: of the other regions everything but what their flip-flops hold, of region r everything but
its elements, and of the fabric the words of the block memories, in their memory and their queues. -/
structure EdgeKept (r : Nat) (s u : State) : Prop where
  parts : OnlyParts [.regions, .fab, .free] s u
  others : ∀ q, q ≠ r → restOf (region u q) = restOf (region s q)
  own : stillOf (region u r) = stillOf (region s r)
  fab : u.fab = { s.fab with bms := u.fab.bms }
  words : ∀ k, (smGet u.fab.bms k ({} : Bm)).mem = (smGet s.fab.bms k {}).mem ∧ (smGet u.fab.bms k ({} : Bm)).q = (smGet s.fab.bms k {}).q

section
variable {r : Nat} {s t u : State}

theorem EdgeKept.refl (r : Nat) (s : State) : EdgeKept r s s := ⟨OnlyParts.refl _ _, fun _ _ => rfl, rfl, rfl, fun _ => ⟨rfl, rfl⟩⟩

theorem EdgeKept.trans (h : EdgeKept r s t) (k : EdgeKept r t u) : EdgeKept r s u where
  parts := h.parts.trans k.parts
  others q hq := (k.others q hq).trans (h.others q hq)
  own := k.own.trans h.own
  fab := by rw [k.fab, h.fab]
  words q := ⟨(k.words q).1.trans (h.words q).1, (k.words q).2.trans (h.words q).2⟩

theorem edgeKept_setRegion (t : State) (q : Nat) {x : Region} (hx : stillOf x = stillOf (region t q))
    (hne : q ≠ r → restOf x = restOf (region t q)) : EdgeKept r t (setRegion t q x) where
  parts := (onlyParts_setRegion t q x).mono (by simp)
  others j hj := by
    by_cases h : j = q
    · rw [h, region_setRegion_same, hne (h ▸ hj)]
    · rw [region_setRegion_ne t h]
  own := by
    by_cases h : r = q
    · rw [h, region_setRegion_same, hx]
    · rw [region_setRegion_ne t h]
  fab := rfl
  words _ := ⟨rfl, rfl⟩

theorem EdgeKept.forEach {α : Type} {l : List α} {f : State → α → State} (h : EdgeKept r s t) (hf : ∀ w x, EdgeKept r w (f w x)) :
    EdgeKept r s (Machine.forEach l f t) :=
  forEach_keeps (P := EdgeKept r s) (fun w x hw => hw.trans (hf w x)) l h

theorem edgeKept_captureRegion (s t : State) (q : Nat) (ns : List Nat) : EdgeKept r t (captureRegion s t q ns) :=
  (EdgeKept.refl r t).forEach fun w _ => edgeKept_setRegion w q rfl fun _ => rfl

theorem edgeKept_settle (s : State) : EdgeKept r s (settle s) := (EdgeKept.refl r s).forEach fun w q => edgeKept_captureRegion s w q []

theorem edgeKept_setMul (t : State) (i : Nat) (x : Mul) : EdgeKept r t (setMul t r i x) :=
  edgeKept_setRegion t r rfl fun h => absurd rfl h

theorem edgeKept_mulEdges (t : State) (d : Nat) (ns : List Nat) : EdgeKept r t (mulEdges t d r ns) :=
  (EdgeKept.refl r t).forEach fun w _ => edgeKept_setMul w _ _

theorem edgeKept_outputsEdge (t : State) (ns : List Nat) : EdgeKept r t (outputsEdge t r ns) :=
  edgeKept_setRegion t r rfl fun h => absurd rfl h

theorem bmEdge_words (m : Nat) (ns : List Nat) (a b : Bool) (x : Bm) : (bmEdge m ns a b x).mem = x.mem ∧ (bmEdge m ns a b x).q = x.q := by
  unfold bmEdge
  dsimp only
  split <;> exact ⟨rfl, rfl⟩

theorem edgeKept_setBm (t : State) (q i : Nat) {x : Bm} (hx : x.mem = (bm t q i).mem ∧ x.q = (bm t q i).q) : EdgeKept r t (setBm t q i x) where
  parts := (onlyParts_setBm t q i x).mono (by simp)
  others _ _ := rfl
  own := rfl
  fab := rfl
  words k := by
    by_cases h : k = q * 50 + i
    · subst h
      have hk : smGet (setBm t q i x).fab.bms (q * 50 + i) ({} : Bm) = x := bm_setBm_same t q i x
      rw [hk]
      exact hx
    · rw [bms_setBm_ne t q i x h]
      exact ⟨rfl, rfl⟩

theorem edgeKept_bmEdges (t : State) (d : Nat) (ns : List Nat) : EdgeKept r t (bmEdges t d r ns) :=
  (EdgeKept.refl r t).forEach fun w _ => edgeKept_setBm w r _ (bmEdge_words ..)

theorem edgeKept_withFree (t : State) (n : Nat) : EdgeKept r t { t with free := n } where
  parts q hq := by
    cases q
    case free => exact absurd hq (by decide)
    all_goals rfl
  others _ _ := rfl
  own := rfl
  fab := rfl
  words _ := ⟨rfl, rfl⟩

/-- An edge of region clock 0. -/
theorem edgeKept_clock0Edge (s : State) (r : Nat) : EdgeKept r s (clock0Edge s r) :=
  (((((edgeKept_settle s).trans (edgeKept_captureRegion (settle s) (settle s) r [0])).trans (edgeKept_mulEdges _ (s.free + 1) [0])).trans
    (edgeKept_bmEdges _ (s.free + 2) [0])).trans (edgeKept_outputsEdge _ [0])).trans (edgeKept_withFree _ (s.free + 3))

theorem EdgeKept.othersKeep (h : EdgeKept r s u) : OthersKeep r s u := fun q hq => eq_of_restOf (h.others q hq)

theorem EdgeKept.evq (h : EdgeKept r s u) : u.evq = s.evq := h.parts .evq (by decide)

theorem EdgeKept.regs (h : EdgeKept r s u) : u.regs = s.regs := h.parts .regs (by decide)

theorem EdgeKept.dsp (h : EdgeKept r s u) : u.dsp = s.dsp := h.parts .dsp (by decide)

end

/-! ### The clocks of a region close -/

section
variable {s : State} {r : Nat}

/-- The registers that the end of a region's clocks writes. -/
def shutFlds (r : Nat) : List Fld := [F.FAB_REGr_STATUS_SLEEPING r, F.FAB_REGr_CTRL_WAKE r, F.DBG_REGr_STATUS_FROZEN r, F.DBG_REGr_STATUS_PULSING r,
  F.DBG_REGr_CTRL_FREEZE r, F.DSP_RAIL8_STATUS_WAITING]

theorem holdCuffs_eq (s : State) (r : Nat) : ∃ m, region (holdCuffs s r) r = { region s r with hold := m }
    ∧ (∀ q, q ≠ r → region (holdCuffs s r) q = region s q) ∧ (holdCuffs s r).fab = s.fab ∧ (holdCuffs s r).dsp = s.dsp
    ∧ ∀ fs, Only [.regions, .dsp] fs s (holdCuffs s r) := by
  rw [holdCuffs, holdCuffsAs]
  split
  · exact ⟨_, region_setRegion_same .., fun q hq => region_setRegion_ne s hq _, rfl, rfl, fun fs =>
      (Only.refl _ fs s).parts (List.Subset.refl _) ((onlyParts_setRegion s r _).mono (by simp)) rfl⟩
  · exact ⟨(region s r).hold, rfl, fun _ _ => rfl, rfl, rfl, fun fs => Only.refl _ fs s⟩

/-- What the end of a region's clocks leaves, where no switch is sampled and no strobe latched. -/
structure Shut (r : Nat) (s u : State) : Prop where
  own : ∃ m, region u r = { region s r with
    hold := m, stb := [], run := false, gateReq := false, owed := 0, starting := false, stbOut := [], refusedOut := false }
  others : ∀ q, q ≠ r → region u q = region s q
  fab : u.fab = s.fab
  withdrawn : R8Req.regionStart r ∉ u.dsp.r8queue
  only : Only [.regions, .dsp] (shutFlds r) s u

/-- A region whose clocks have closed. -/
def shutRegion (t : State) (r : Nat) : State :=
  setRegion t r { region t r with run := false, gateReq := false, owed := 0, starting := false, stbOut := [], refusedOut := false }

/-- The registers of a region whose clocks have closed. -/
def shutRegs (t : State) (r : Nat) : State :=
  setFld (setFld (setFld (setFld (setFld t (F.FAB_REGr_STATUS_SLEEPING r) 0) (F.FAB_REGr_CTRL_WAKE r) 0) (F.DBG_REGr_STATUS_FROZEN r) 0)
    (F.DBG_REGr_STATUS_PULSING r) 0) (F.DBG_REGr_CTRL_FREEZE r) 0

/-- A request of rail 8 for this region's clocks. -/
def startsRegion (r : Nat) : R8Req → Bool
  | .regionStart q => q == r
  | .regionPulse q _ => q == r
  | _ => false

theorem only_shutRegs (t : State) (r : Nat) : Only [.regions, .dsp] (shutFlds r) t (shutRegs t r) :=
  (((((Only.refl _ _ t).setFld (by simp [shutFlds]) _).setFld (by simp [shutFlds]) _).setFld (by simp [shutFlds]) _).setFld
    (by simp [shutFlds]) _).setFld (by simp [shutFlds]) _

theorem Only.r8Withdrawn {ps : List Part} {fs : List Fld} {o s : State} (h : Only ps fs o s) (hp : .dsp ∈ ps)
    (hf : F.DSP_RAIL8_STATUS_WAITING ∈ fs) (c : R8Req → Bool) : Only ps fs o (r8Withdraw s c) := (h.setDsp hp _).setFld hf _

theorem closeRegion_eq (hsw : (region s r).switches = []) :
    closeRegion s r = r8Withdraw (shutRegs (shutRegion (dropStrobes (holdCuffs s r) r) r) r) (startsRegion r) := by
  have hmatch : (fun x => match x with | .regionStart q => q == r | .regionPulse q _ => q == r | _ => false) = startsRegion r := by
    funext x
    cases x <;> rfl
  unfold closeRegion
  rw [hsw, ← hmatch]
  rfl

theorem closeRegion_shut (hsw : (region s r).switches = []) (hstb : (region s r).stb = []) : Shut r s (closeRegion s r) := by
  obtain ⟨m, hown, hothers, hfab, hdsp, honly⟩ := holdCuffs_eq s r
  have hdrop : dropStrobes (holdCuffs s r) r = setRegion (holdCuffs s r) r { region (holdCuffs s r) r with stb := [] } := by
    rw [dropStrobes, hown, hstb]
    rfl
  have hshut := only_shutRegs (shutRegion (dropStrobes (holdCuffs s r) r) r) r
  rw [closeRegion_eq hsw]
  rw [hdrop] at hshut ⊢
  refine ⟨⟨m, ?_⟩, fun q hq => ?_, hfab, ?_, ?_⟩
  · change region (shutRegion (setRegion (holdCuffs s r) r { region (holdCuffs s r) r with stb := [] }) r) r = _
    rw [shutRegion, region_setRegion_same, region_setRegion_same, hown]
  · change region (shutRegion (setRegion (holdCuffs s r) r { region (holdCuffs s r) r with stb := [] }) r) q = _
    rw [shutRegion, region_setRegion_ne _ hq, region_setRegion_ne _ hq, hothers q hq]
  · intro hmem
    obtain ⟨-, hkeep⟩ := List.mem_filter.1 hmem
    simp [startsRegion] at hkeep
  · have hregion : Only [.regions, .dsp] (shutFlds r) s
        (shutRegion (setRegion (holdCuffs s r) r { region (holdCuffs s r) r with stb := [] }) r) :=
      ((honly _).parts (by simp) (onlyParts_setRegion _ r _) rfl).parts (by simp) (onlyParts_setRegion _ r _) rfl
    exact Only.r8Withdrawn (hregion.trans hshut) (by decide) (by simp [shutFlds]) _

/-- A register that the end of the clocks leaves. -/
theorem Shut.fld {u : State} (h : Shut r s u) {f : Fld} (hf : f.key ∉ (shutFlds r).map Fld.key) : fld u f = fld s f := h.only.2 f hf

/-- A region that has stopped. -/
def stopped (s : State) (r : Nat) : State :=
  setFld (raise (setFld (closeRegion s r) (F.FAB_REGr_CTRL_STOP r) 0) 0x0701 [(1, r), (1, 3), (1, 4)]) (F.FAB_REGr_STATUS_STATE r) 4

theorem shut_keeps_state (r : Nat) (hr : r < 72) : (F.FAB_REGr_STATUS_STATE r).key ∉ (shutFlds r).map Fld.key := by
  simp [shutFlds, F.FAB_REGr_STATUS_STATE, F.FAB_REGr_STATUS_SLEEPING, F.FAB_REGr_CTRL_WAKE, F.DBG_REGr_STATUS_FROZEN,
    F.DBG_REGr_STATUS_PULSING, F.DBG_REGr_CTRL_FREEZE, F.DSP_RAIL8_STATUS_WAITING]
  omega

theorem stopEffect_eq (hsw : (region s r).switches = []) (hstb : (region s r).stb = []) (hst : regState s r = 3) (hr : r < 72)
    (hport : 4 ≤ r % 24) : stopEffect s r = stopped s r := by
  have hshut := closeRegion_shut hsw hstb
  have hst' : regState (setFld (closeRegion s r) (F.FAB_REGr_CTRL_STOP r) 0) r = 3 := by
    rw [regState, fld_setFld_ne _ (by simp [F.FAB_REGr_STATUS_STATE, F.FAB_REGr_CTRL_STOP]), hshut.fld (shut_keeps_state r hr)]
    exact hst
  have hengines : regionEngines r = [] := if_neg (by omega)
  unfold stopEffect
  dsimp only
  rw [hengines, if_neg (by rw [hst]; decide), setRegState, hst', if_neg (by decide)]
  rfl

/-- What a stop leaves. -/
theorem stopped_spec (hsw : (region s r).switches = []) (hstb : (region s r).stb = []) :
    regState (stopped s r) r = 4 ∧ flag (stopped s r) (F.FAB_REGr_CTRL_STOP r) = false
    ∧ (stopped s r).evq = s.evq ++ [ev 0x0701 [(1, r), (1, 3), (1, 4)]]
    ∧ Only [.evq, .regions, .dsp] (shutFlds r ++ [F.FAB_REGr_CTRL_STOP r, F.FAB_REGr_STATUS_STATE r]) s (stopped s r) := by
  have hshut := closeRegion_shut hsw hstb
  unfold stopped
  generalize closeRegion s r = w at hshut ⊢
  refine ⟨fld_setFld_same .., ?_, ?_, ?_⟩
  · rw [flag, fld_setFld_ne _ (by simp [F.FAB_REGr_STATUS_STATE, F.FAB_REGr_CTRL_STOP]), fld_raise, fld_setFld_same]
    rfl
  · exact congrArg (· ++ [ev 0x0701 [(1, r), (1, 3), (1, 4)]]) (hshut.only.evq (by decide))
  · exact (((hshut.only.mono (by simp) (by simp)).setFld (by simp) _).raise (by decide) _ _).setFld (by simp) _

end

/-! ### A region's release -/

section
variable {s : State} {r : Nat}

theorem onlyParts_forEach {α : Type} {ps : List Part} {l : List α} {f : State → α → State} {t : State} (h : OnlyParts ps s t)
    (hf : ∀ w x, OnlyParts ps w (f w x)) : OnlyParts ps s (Machine.forEach l f t) :=
  forEach_keeps (P := OnlyParts ps s) (fun w x hw => hw.trans (hf w x)) l h

theorem onlyParts_takeInit (s : State) (r : Nat) : OnlyParts [.regions] s (takeInit s r) :=
  (onlyParts_forEach (OnlyParts.refl _ s) fun w _ => onlyParts_forEach (onlyParts_setRegion w r _) fun v _ => onlyParts_setRegion v r _).trans
    (onlyParts_setRegion _ r _)

/-- Block memories of region r with their queues emptied. -/
def emptiedQueues (r : Nat) (m : SMap Bm) : SMap Bm :=
  m.map fun e => if e.1 / 50 = r then (e.1, { e.2 with q := [], pops := [], newW := [], newR := [] }) else e

theorem mem_emptiedQueues (r : Nat) (m : SMap Bm) (k : Nat) : (smGet (emptiedQueues r m) k {}).mem = (smGet m k {}).mem := by
  induction m with
  | nil => rfl
  | cons e t ih =>
    have hcons : emptiedQueues r (e :: t)
        = (if e.1 / 50 = r then (e.1, { e.2 with q := [], pops := [], newW := [], newR := [] }) else e) :: emptiedQueues r t := rfl
    rw [hcons]
    by_cases hr : e.1 / 50 = r <;> by_cases hk : k = e.1 <;> simp [smGet, hr, hk, ih]

/-- The registers' own steps of a release: INIT, queue pointers and P registers cleared. -/
theorem releaseInit_spec (s : State) (r : Nat) : OnlyParts [.regions, .fab] s (releaseInit s r)
    ∧ ∀ k, (smGet (releaseInit s r).fab.bms k ({} : Bm)).mem = (smGet s.fab.bms k {}).mem := by
  have hinit := onlyParts_takeInit s r
  refine ⟨?_, fun k => ?_⟩
  · exact (hinit.mono (by simp)).trans (((onlyParts_setRegion _ r _).mono (by simp)).trans ((onlyParts_setFab _ _).mono (by simp)))
  · have hfab : (takeInit s r).fab = s.fab := hinit .fab (by decide)
    rw [← hfab]
    exact mem_emptiedQueues r (takeInit s r).fab.bms k

theorem releaseRequest_eq (hnew : R8Req.regionStart r ∉ s.dsp.r8queue) :
    releaseRequest s r = r8Waiting (setDsp s { s.dsp with r8queue := s.dsp.r8queue ++ [.regionStart r] }) := by
  rw [releaseRequest, r8Request, if_neg (by simpa using hnew)]

theorem only_r8Asked (s : State) (q : List R8Req) : Only [.dsp] [F.DSP_RAIL8_STATUS_WAITING] s (r8Waiting (setDsp s { s.dsp with r8queue := q })) :=
  ((Only.refl _ _ s).setDsp (by decide) _).setFld (by simp) _

/-- A region as it is on its release edge. -/
def releasing (s : State) (r : Nat) : State :=
  setRegion (setFld (raise s 0x0701 [(1, r), (1, regState s r), (1, 3)]) (F.FAB_REGr_STATUS_STATE r) 3) r
    { region s r with run := true, starting := false, released := true }

theorem sampleIdents_none (h : ∀ f, f ∈ [1, 2, 3] → ownsFunc s r f = false) : sampleIdents s r = s := by
  have hnone : ([1, 2, 3].filter fun f => ownsFunc s r f && (!(region s r).released || (pciFn s f).ident.isNone)) = [] := by
    rw [List.filter_eq_nil_iff]
    intro f hf
    simp [h f hf]
  unfold sampleIdents
  dsimp only
  rw [hnone]
  rfl

theorem releaseEdge_eq (hstart : (region s r).starting = true) (hclk : regClkEn s r 0 = true) (hon : clocksOn s = true)
    (hdie : dieInReset s (logicPos (regDie r)) = false) (hst : regState s r = 2 ∨ regState s r = 4)
    (hfunc : ∀ f, f ∈ [1, 2, 3] → ownsFunc s r f = false) : releaseEdge s r = clock0Edge (releasing s r) r := by
  have hloading : ¬(regState s r = gLOADING ∧ fld s (F.FAB_REGr_RC_RETURN r) = gRELEASED) := by
    rintro ⟨h, -⟩
    rcases hst with h2 | h2 <;> rw [h2] at h <;> exact absurd h (by decide)
  have hnot : ¬ regState s r = gRELEASED := by
    intro h
    rcases hst with h2 | h2 <;> rw [h2] at h <;> exact absurd h (by decide)
  unfold releaseEdge
  rw [if_pos (by simp [hstart, hclk, hon, hdie])]
  dsimp only
  rw [sampleIdents_none hfunc, if_neg hloading, setRegState, if_neg hnot]
  rfl

theorem samplePads_none (h : ∀ b, b < 10 → ownsBank s r b = false) : samplePads s r [] = s := by
  have hnone : (List.range 10).filter (ownsBank s r) = [] := by
    rw [List.filter_eq_nil_iff]
    intro b hb
    rw [h b (List.mem_range.1 hb)]
    decide
  unfold samplePads
  dsimp only
  rw [hnone]
  rfl

end

end Sys2Proof.Machine
end


section
/-! SUPPORT. The bank clock and the pins of the banks, and the grid of balls (R263, R497 to R505). -/
namespace Sys2Proof.Machine

/-! ### Banks -/

section
variable {s : State} {b r : Nat}

theorem pad_setPad_same (s : State) (b n : Nat) (x : PadSet) : pad (setPad s b n x) b n = x := smGet_smSet_same ..

theorem pad_setPad_ne (s : State) {b n c m : Nat} (h : c * 32 + m ≠ b * 32 + n) (x : PadSet) : pad (setPad s b n x) c m = pad s c m :=
  smGet_smSet_ne _ h ..

theorem onlyParts_setPad (s : State) (b n : Nat) (x : PadSet) : OnlyParts [.iob] s (setPad s b n x) := onlyParts_setIob _ _

/-- A pin that is no half of a pair rules itself. -/
theorem ruling_self {n : Nat} (h : (pad s b (n / 2 * 2)).mode = 0) : ruling s b n = n := by
  rw [ruling, h, if_neg (by decide)]

/-- The pins of a bank that fail when its clock locks. -/
def tooFast (s : State) (b khz : Nat) : List Nat :=
  (List.range 30).filter fun n =>
    !(pad s b (ruling s b n)).bad && decide ((if (pad s b (ruling s b n)).mode = 1 then 1600000 else 400000) < 2 ^ (pad s b (ruling s b n)).ser * khz)

theorem bankLock_eq {khz : Nat} (hown : bankRegion s b = some r) (hrun : clock3Runs s r = true) :
    bankLock s b khz = forEach (tooFast s b khz) (fun s n => padFail s b n) (setFld s (F.IOB_BANKb_STATUS_LOCKED b) 1) := by
  unfold bankLock
  simp only [hown, hrun, Bool.not_true, Bool.false_eq_true, if_false]
  rfl

/-- With single-ended pins, those are too fast whose own ratio makes them so. -/
theorem mem_tooFast {khz n : Nat} (hpads : ∀ n, n < 30 → (pad s b n).mode = 0) (hn : n < 30) :
    n ∈ tooFast s b khz ↔ (pad s b n).bad = false ∧ 400000 < 2 ^ (pad s b n).ser * khz := by
  rw [tooFast, List.mem_filter, ruling_self (hpads _ (by omega)), hpads n hn, if_neg (by decide)]
  simp [hn]

theorem tooFast_lt {khz n : Nat} (h : n ∈ tooFast s b khz) : n < 30 := List.mem_range.1 (List.mem_filter.1 h).1

end

/-! ### A stopped region -/

section
variable (s : State) (r q : Nat)

theorem region_hush : region (hush s) q = region s q := rfl

theorem fab_hush : (hush s).fab = s.fab := rfl

theorem dsp_hush : (hush s).dsp = s.dsp := rfl

theorem region_stopped : region (stopped s r) q = region (closeRegion s r) q := by
  unfold stopped
  generalize closeRegion s r = w
  rfl

theorem fab_stopped : (stopped s r).fab = (closeRegion s r).fab := by
  unfold stopped
  generalize closeRegion s r = w
  rfl

theorem dsp_stopped : (stopped s r).dsp = (closeRegion s r).dsp := by
  unfold stopped
  generalize closeRegion s r = w
  rfl

end

/-! ### A stop edge -/

section
variable {s w : State} {r : Nat}

/-- The stop edge of a region whose clocks run is an edge of them, and then the end of its clocks. -/
theorem stopEdge_ticking (hticks : regTicks s r = true) (hclk : regClkEn s r 0 = true) (hstop : flag s (F.FAB_REGr_CTRL_STOP r) = true)
    (hsw : switching s r = false) (hlist : (region s r).switches = []) (hst : regState s r = 3) (hstb : (region s r).stb = []) (hr : r < 72)
    (hport : 4 ≤ r % 24) :
    ∃ w, stopEdge s r = stopped w r ∧ EdgeKept r s w ∧ (region w r).switches = [] ∧ (region w r).stb = [] := by
  have hawake : regAsleep s r = false := by
    cases h : regAsleep s r
    · rfl
    · simp [regTicks, h] at hticks
  have hexec : stopEdge s r = stopEffect (clock0Edge s r) r := by
    rw [stopEdge, if_neg (by simp [hstop, hsw]), if_neg (by simp [hawake]), if_pos (by simp [hticks, hclk])]
  have hedge := edgeKept_clock0Edge s r
  generalize clock0Edge s r = w at hexec hedge
  have hlist' : (region w r).switches = [] := (congrArg Region.switches hedge.own).trans hlist
  have hstb' : (region w r).stb = [] := (congrArg Region.stb hedge.own).trans hstb
  have hst' : regState w r = 3 := (fld_congr hedge.regs _).trans hst
  exact ⟨w, hexec.trans (stopEffect_eq hlist' hstb' hst' hr hport), hedge, hlist', hstb'⟩

theorem stopEdge_asleep (hclk : sysClocks s = true) (hstop : flag s (F.FAB_REGr_CTRL_STOP r) = true) (hsw : switching s r = false)
    (hlist : (region s r).switches = []) (hst : regState s r = 3) (hasleep : regAsleep s r = true) (hstb : (region s r).stb = []) (hr : r < 72)
    (hport : 4 ≤ r % 24) : stopEdge s r = stopped s r := by
  rw [stopEdge, if_neg (by simp [hstop, hsw]), if_pos hasleep, if_pos hclk, stopEffect_eq hlist hstb hst hr hport]

/-- What a stopped region and the rest of the device are, after an edge of its clocks that led from s to w. -/
structure StoppedAfter (r : Nat) (s w u : State) : Prop where
  state : regState u r = 4
  stop : flag u (F.FAB_REGr_CTRL_STOP r) = false
  evq : u.evq = s.evq ++ [ev 0x0701 [(1, r), (1, 3), (1, 4)]]
  own : ∃ m, region u r = { region w r with
    hold := m, stb := [], run := false, gateReq := false, owed := 0, starting := false, stbOut := [], refusedOut := false }
  others : ∀ q, q ≠ r → region u q = region w q
  fab : u.fab = w.fab
  withdrawn : R8Req.regionStart r ∉ u.dsp.r8queue
  only : Only [.evq, .regions, .fab, .dsp, .free] (shutFlds r ++ [F.FAB_REGr_CTRL_STOP r, F.FAB_REGr_STATUS_STATE r]) s u

theorem stoppedAfter (hedge : EdgeKept r s w) (hlist : (region w r).switches = []) (hstb : (region w r).stb = []) :
    StoppedAfter r s w (stopped w r) := by
  obtain ⟨hstate, hflag, hevq, honly⟩ := stopped_spec hlist hstb
  have hshut := closeRegion_shut hlist hstb
  obtain ⟨m, hown⟩ := hshut.own
  have hstart : Only [.evq, .regions, .fab, .dsp, .free] (shutFlds r ++ [F.FAB_REGr_CTRL_STOP r, F.FAB_REGr_STATUS_STATE r]) s w :=
    (Only.refl _ _ s).parts (by simp) hedge.parts hedge.regs
  exact ⟨hstate, hflag, hevq.trans (congrArg (· ++ _) hedge.evq), ⟨m, (region_stopped w r r).trans hown⟩,
    fun q hq => (region_stopped w r q).trans (hshut.others q hq), (fab_stopped w r).trans hshut.fab,
    by rw [dsp_stopped]; exact hshut.withdrawn, hstart.trans (honly.mono (by simp) (List.Subset.refl _))⟩

end

/-! ### Pins and balls -/

/-- A pin of a user bank whose region has been released, without a fault, and with its serialiser's clock. -/
theorem pinState_user {s : State} {b n r : Nat} (hb : b < 8) (henc : encoderPin s b n = false) (hown : bankRegion s b = some r)
    (hrel : (region s r).released = true) (hgood : (pad s b (ruling s b n)).bad = false) (hvio : flag s (F.IOB_BANKb_STATUS_VIO_FAULT b) = false)
    (hlock : (pad s b (ruling s b n)).ser = 0 ∨ flag s (F.IOB_BANKb_STATUS_LOCKED b) = true) : pinState s b n
      = if regRuns s r = true ∧ (region s r).run = true ∧ dieInReset s (logicPos (regDie r)) = false then .driven
        else if flag s (F.FAB_BANKb_OWN_PADSTOP b) then .held else .preconf := by
  have hclock : ¬(b < 8 ∧ (pad s b (ruling s b n)).ser ≠ 0 ∧ flag s (F.IOB_BANKb_STATUS_LOCKED b) = false) := by
    rintro ⟨-, h1, h2⟩
    rcases hlock with h | h
    · exact h1 h
    · rw [h] at h2
      cases h2
  rw [pinState, if_neg (by simp [henc]), hown]
  dsimp only
  rw [if_neg (by simp [hrel, hgood, hvio]), if_neg (by omega), if_neg hclock]

/-- The block of the Wengan lanes. -/
theorem ball_wengan {i j : Nat} (hi : 6 ≤ i) (hi' : i ≤ 24) (hj : 1 ≤ j ∧ j ≤ 4) : ball i j
    = some (if (i - 6) % 5 = 4 then (if j = 2 then .rail .vwng085 else if j = 4 then .rail .vwng12 else .vss)
        else if j = 1 ∨ j = 3 then .wengan (2 * ((i - 6) / 5) + (i - 6) % 5 / 2) (j == 1) ((i - 6) % 5 % 2 == 0) else .vss) := by
  rw [ball, if_neg (by omega), if_neg (by omega), if_neg (by omega), if_neg (by omega), if_pos hj.2, if_pos (by omega), wenganBall]
  by_cases h : (i - 6) % 5 = 4
  · rw [if_pos (by omega), if_pos h]
  · rw [if_neg (by omega), if_neg h]

end Sys2Proof.Machine
end

section
open Sys2Proof Sys2Proof.Machine

/-- Settles O36: a stop edge is an edge of the region's clocks and then the end of its clocks; the pins and balls are read off their
definitions. -/
theorem regionsStopAndStart : Obligations.RegionsStopAndStart := by
  refine ⟨?stop, ?stopIdle, ?edge, ?asleep, ?noEdge, ?startLoaded, ?startStopped, ?refused, ?noStart, ?release, ?noRelease, ?lock, ?fails,
    ?bitslip, ?unowned, ?noClock, ?encoder, ?free, ?preconf, ?driven, ?held, ?user, ?legacy, ?wengan, ?pcie, ?core, ?power, ?off⟩
  case stop =>
    intro r s hq hrun hfrozen
    cases hstop : flag s (F.FAB_REGr_CTRL_STOP r) with
    | true => exact completes_eq_quiet rfl (if_pos (by simp [hstop])) hq ⟨hstop, Only.refl [] _ s⟩
    | false =>
      refine completes_eq_quiet rfl ((if_neg (by simp [hrun, hstop])).trans (if_neg (by simp [hfrozen]))) hq
        ⟨?_, (Only.refl [] _ s).setFld (by simp) _⟩
      rw [flag, fld_setFld_same]
      rfl
  case stopIdle =>
    intro r s hq hrun
    exact completes_eq_quiet rfl (if_pos (by simp [hrun])) hq rfl
  case edge =>
    intro r s hticks hclk hstop hsw hlist hst hstb hport
    obtain ⟨hq, hticks⟩ := hticks
    obtain ⟨w, hexec, hedge, hlist', hstb'⟩ := stopEdge_ticking hticks hclk hstop hsw hlist hst hstb r.isLt hport
    have hstopped := stoppedAfter hedge hlist' hstb'
    generalize stopped w r = x at hexec hstopped
    obtain ⟨hstate, hflag, hevq, ⟨m, hown⟩, hothers, hfab, hwithdrawn, honly⟩ := hstopped
    have hframe : x.fab = { s.fab with bms := w.fab.bms } := hfab.trans hedge.fab
    have hidle : regRuns x r = false := by rw [regRuns, hstate]; rfl
    refine completes_eq rfl hexec (hevq.trans (congrArg (· ++ _) hq)) ⟨hstate, congrArg Region.run hown, hflag, hidle, hwithdrawn,
      fun q hne => ?_, (congrArg Fabric.frames hframe :), (congrArg Fabric.cuffs hframe :),
      (congrArg Fabric.claims hframe :), fun i _ => ?_, ?_⟩
    · rw [region_hush, hothers q hne]
      exact hedge.othersKeep q hne
    · rw [bm, fab_hush, hframe]
      exact hedge.words _
    · exact Only.hush (honly.mono (List.Subset.refl _) (by simp [shutFlds])) hq
  case asleep =>
    intro r s hq hclk hstop hsw hlist hst hasleep hstb hport
    have hexec := stopEdge_asleep hclk hstop hsw hlist hst hasleep hstb r.isLt hport
    have hstopped := stoppedAfter (EdgeKept.refl r s) hlist hstb
    generalize stopped s r = x at hexec hstopped
    obtain ⟨m, hown⟩ := hstopped.own
    exact completes_eq rfl hexec (hstopped.evq.trans (congrArg (· ++ _) hq)) ⟨hstopped.state, (congrArg Region.shared hown :),
      (congrArg Region.priv hown :), hstopped.fab, hstopped.others⟩
  case noEdge =>
    intro r s hq h
    refine completes_eq_quiet rfl (if_pos ?_) hq rfl
    rcases h with h | h <;> simp [h]
  case startLoaded =>
    intro r s hq hst hready hnew
    obtain ⟨hparts, hwords⟩ := releaseInit_spec s r
    have hdsp : (releaseInit s r).dsp = s.dsp := hparts .dsp (by decide)
    have hregs : (releaseInit s r).regs = s.regs := hparts .regs (by decide)
    have hrequest := releaseRequest_eq (s := releaseInit s r) (r := r) (by rw [hdsp]; exact hnew)
    have hinit : Only [.dsp, .regions, .fab] [F.DSP_RAIL8_STATUS_WAITING] s (releaseInit s r) :=
      (Only.refl _ _ s).parts (by simp) hparts hregs
    have honly := hinit.trans ((only_r8Asked (releaseInit s r) ((releaseInit s r).dsp.r8queue ++ [R8Req.regionStart r])).mono (by simp)
      (List.Subset.refl _))
    refine completes_eq_quiet rfl ((if_neg (by simp [hst, gLOADED, gSTOPPED])).trans ((if_neg (by simp [hready])).trans
      ((if_pos hst).trans hrequest))) ((honly.evq (by decide)).trans hq) ⟨?_, ?_, fun i _ => hwords _, honly⟩
    · change { (releaseInit s r).dsp with r8queue := (releaseInit s r).dsp.r8queue ++ [R8Req.regionStart r] } = _
      rw [hdsp]
    · exact (honly.2 (F.FAB_REGr_STATUS_STATE r) (by simp [F.FAB_REGr_STATUS_STATE, F.DSP_RAIL8_STATUS_WAITING]; omega)).trans hst
  case startStopped =>
    intro r s hq hst hready hnew
    refine completes_eq_quiet rfl ((if_neg (by simp [hst, gLOADED, gSTOPPED])).trans ((if_neg (by simp [hready])).trans
      ((if_neg (by simp [hst, gLOADED])).trans (releaseRequest_eq hnew)))) hq ⟨rfl, only_r8Asked s _⟩
  case refused =>
    intro r s hq hst hready
    refine completes_eq rfl ((if_neg ?_).trans (if_pos (by simp [hready]))) (congrArg (· ++ _) hq)
      ⟨fld_satInc_same (raise s 0x0705 _) _, Only.hush (((Only.refl _ _ s).raise (by decide) _ _).satInc (by simp)) hq⟩
    rcases hst with h | h <;> simp [h, gLOADED, gSTOPPED]
  case noStart =>
    intro r s hq h2 h4
    exact completes_eq_quiet rfl (if_pos ⟨h2, h4⟩) hq rfl
  case release =>
    intro r s hq hstart hclk hon hdie hst hfunc hbank
    have hedge := edgeKept_clock0Edge (releasing s r) r
    have hexec' := releaseEdge_eq hstart hclk hon hdie hst hfunc
    generalize clock0Edge (releasing s r) r = w at hedge hexec'
    have hown : ∀ b, b < 10 → ownsBank w r b = false := fun b hb => by
      have hkey : (F.FAB_BANKb_OWN_VALID b).key ≠ (F.FAB_REGr_STATUS_STATE r).key ∧ (F.FAB_BANKb_OWN_REGION b).key ≠ (F.FAB_REGr_STATUS_STATE r).key := by
        simp [F.FAB_BANKb_OWN_VALID, F.FAB_BANKb_OWN_REGION, F.FAB_REGr_STATUS_STATE]
        omega
      have hvalid : flag w (F.FAB_BANKb_OWN_VALID b) = flag s (F.FAB_BANKb_OWN_VALID b) :=
        flag_eq_of_fld ((fld_congr hedge.regs _).trans (fld_setFld_ne (raise s 0x0701 _) hkey.1 3))
      have hregion : fld w (F.FAB_BANKb_OWN_REGION b) = fld s (F.FAB_BANKb_OWN_REGION b) :=
        (fld_congr hedge.regs _).trans (fld_setFld_ne (raise s 0x0701 _) hkey.2 3)
      rw [← hbank b hb, ownsBank, ownsBank, hvalid, hregion]
    have hexec : releaseWith s r [] = w := by
      unfold releaseWith
      dsimp only
      rw [hexec', samplePads_none hown, ite_self]
    have hother : ∀ q, q ≠ r.val → region (releasing s r) q = region s q := fun q hne => region_setRegion_ne _ hne _
    have hrel : region (releasing s r) r = { region s r with run := true, starting := false, released := true } := region_setRegion_same ..
    have hfab : w.fab = { s.fab with bms := w.fab.bms } := hedge.fab
    refine completes_eq rfl hexec (hedge.evq.trans (congrArg (· ++ _) hq)) ⟨?_, ?_, ?_, ?_, fun q hne => ?_, fun i _ => (hedge.words _).1, ?_, ?_, ?_⟩
    · exact (fld_congr hedge.regs _).trans (fld_setFld_same (raise s 0x0701 [(1, r), (1, regState s r), (1, 3)]) (F.FAB_REGr_STATUS_STATE r) 3)
    · exact (congrArg Region.run hedge.own).trans (congrArg Region.run hrel)
    · exact (congrArg Region.starting hedge.own).trans (congrArg Region.starting hrel)
    · exact (congrArg Region.released hedge.own).trans (congrArg Region.released hrel)
    · exact (hedge.othersKeep q hne).trans (by rw [hother q hne]; rfl)
    · rw [fab_hush, hfab]
    · rw [fab_hush, hfab]
    · have hreleasing : Only [.evq, .regions, .fab, .free] [F.FAB_REGr_STATUS_STATE r] s (releasing s r) :=
        (((Only.refl _ _ s).raise (by decide) _ _).setFld (by simp) _).parts (by simp) (onlyParts_setRegion _ r _) rfl
      exact Only.hush (hreleasing.parts (by simp) hedge.parts hedge.regs) hq
  case noRelease =>
    intro r l s hq hstart
    have hedge : releaseEdge s r = s := if_neg (by simp [hstart])
    refine completes_eq_quiet rfl ?_ hq rfl
    unfold releaseWith
    rw [hedge]
    exact if_neg (by simp [hstart])
  case lock =>
    intro b khz r s hq hown hrun hpads hslow
    have hnone : tooFast s b khz.toNat = [] := by
      rw [List.eq_nil_iff_forall_not_mem]
      intro n hn
      have hlt := tooFast_lt hn
      have hfast := ((mem_tooFast (fun n h => (hpads n h).1) hlt).1 hn).2
      rw [(hpads n hlt).2] at hfast
      omega
    have hlock := bankLock_eq (khz := khz.toNat) hown hrun
    rw [hnone] at hlock
    refine completes_eq_quiet rfl hlock hq ⟨?_, (Only.refl [] _ s).setFld (by simp) _⟩
    rw [forEach_nil, flag, fld_setFld_same]
    rfl
  case fails =>
    intro b khz r n0 s hq hown hrun hpads hgood hslow hfast
    have hone : tooFast s b khz.toNat = [n0.val] := by
      have hruling : ∀ n, n < 30 → ruling s b n = n := fun n h => ruling_self (hpads _ (by omega)).1
      refine filter_eq_singleton n0.isLt ?_ fun n hn hne => ?_
      · simp only [hruling n0 n0.isLt, hpads n0 n0.isLt, hgood]
        simp
        omega
      · simp only [hruling n hn, hpads n hn, if_neg hne]
        simp
        omega
    have hlock := bankLock_eq (khz := khz.toNat) hown hrun
    rw [hone] at hlock
    have hfail : forEach [n0.val] (fun s n => padFail s b n) (setFld s (F.IOB_BANKb_STATUS_LOCKED b) 1)
        = setFld (raise (setPad (setFld s (F.IOB_BANKb_STATUS_LOCKED b) 1) b n0 { pad s b n0 with bad := true }) 0x1F01 [(1, b), (1, n0), (1, 0)])
          (F.IOB_BANKb_STATUS_PAD_FAULT b) 1 := if_pos b.isLt
    refine completes_eq rfl (hlock.trans hfail) (congrArg (· ++ _) hq) ⟨?_, ?_, pad_setPad_same .., fun n hn hne => ?_, ?_⟩
    · rw [flag, fld_hush, fld_setFld_ne _ (by simp [F.IOB_BANKb_STATUS_LOCKED, F.IOB_BANKb_STATUS_PAD_FAULT]), fld_raise]
      exact congrArg (· != 0) (fld_setFld_same s (F.IOB_BANKb_STATUS_LOCKED b) 1)
    · rw [flag, fld_hush, fld_setFld_same]
      rfl
    · exact pad_setPad_ne (setFld s _ 1) (by omega) _
    · have honly : Only [.evq, .iob] [F.IOB_BANKb_STATUS_LOCKED b, F.IOB_BANKb_STATUS_PAD_FAULT b] s (setFld s (F.IOB_BANKb_STATUS_LOCKED b) 1) :=
        (Only.refl _ _ s).setFld (by simp) 1
      exact Only.hush (((honly.parts (by simp) (onlyParts_setPad _ b n0 _) rfl).raise (by simp) _ _).setFld (by simp) _) hq
  case bitslip =>
    intro b n r s hq hown hticks hclk
    have hexec : Machine.bitslip s b n = setPad s b n { pad s b n with slip := ((pad s b n).slip + 1) % 2 ^ (pad s b n).ser } := by
      unfold Machine.bitslip
      simp only [hown, hticks, hclk, Bool.and_self, if_true]
    exact completes_eq_quiet rfl hexec hq ⟨pad_setPad_same .., fun c m _ h => pad_setPad_ne s h _, onlyParts_setIob _ _⟩
  case unowned =>
    intro b n khz s hq hown
    have hslip : Machine.bitslip s b n = s := by
      unfold Machine.bitslip
      simp only [hown]
    have hlock : bankLock s b khz.toNat = s := by
      unfold bankLock
      simp only [hown]
    exact ⟨completes_eq_quiet rfl hslip hq rfl, completes_eq_quiet rfl hlock hq rfl⟩
  case noClock =>
    intro b r khz s hq hown hrun
    have hlock : bankLock s b khz.toNat = s := by
      unfold bankLock
      simp only [hown, hrun, Bool.not_false, if_true]
    exact completes_eq_quiet rfl hlock hq rfl
  case encoder =>
    intro b n s h
    rw [pinState, if_pos h]
  case free =>
    intro b n s henc hown
    rw [pinState, if_neg (by simp [henc]), hown]
  case preconf =>
    intro b n r s henc hown h
    rw [pinState, if_neg (by simp [henc]), hown]
    dsimp only
    rcases h with h | h | ⟨hb, h⟩ | ⟨hb, h⟩
    · rw [if_pos (by simp [h])]
    · rw [if_pos (by simp [h])]
    · rw [if_pos (by simp [hb, h])]
    · split
      · rfl
      · rw [if_pos ⟨hb, h⟩]
  case driven =>
    intro b n r s hb henc hown hrel hgood hvio hlock hrun hrun' hdie
    rw [pinState_user hb henc hown hrel hgood hvio hlock, if_pos ⟨hrun, hrun', hdie⟩]
  case held =>
    intro b n r s hb henc hown hrel hgood hvio hlock hst
    have hidle : regRuns s r = false := by simp [regRuns, hst, gSTOPPED, gRELEASED, gLOADING]
    rw [pinState_user hb henc hown hrel hgood hvio hlock, if_neg (by simp [hidle])]
  case user =>
    intro b n hb hn
    have hcol : (11 * b + 1 + n % 10 - 1) / 11 = b ∧ (11 * b + 1 + n % 10 - 1) % 11 = n % 10 := by omega
    have hball : ∀ c, userBall c (n / 10) (n % 10) = .user c n := fun c => by
      rw [userBall, if_neg (by omega), if_neg (by omega)]
      congr 1
      omega
    constructor
    · have hrow : 1 + n / 10 - 1 = n / 10 := by omega
      rw [ball, if_neg (by omega), if_pos (by omega), hcol.1, hcol.2, hrow, hball]
    · have hrow : 44 - (44 - n / 10) = n / 10 := by omega
      rw [ball, if_neg (by omega), if_neg (by omega), if_pos (by omega), hcol.1, hcol.2, hrow, hball]
  case legacy =>
    intro b n hb hn
    have hrow : (19 + 11 * b + n / 3 - 19) / 11 = b ∧ (19 + 11 * b + n / 3 - 19) % 11 = n / 3 := by omega
    rw [ball, if_neg (by omega), if_neg (by omega), if_neg (by omega), if_neg (by omega), if_neg (by omega), if_neg (by omega), hrow.1, hrow.2,
      legacyBall, if_neg (by omega), if_pos (by omega)]
    congr 2
    omega
  case wengan =>
    intro p h hp hh
    have hrow : (6 + 5 * p + 2 * h - 6) / 5 = p ∧ (6 + 5 * p + 2 * h - 6) % 5 = 2 * h := by omega
    have hrow' : (7 + 5 * p + 2 * h - 6) / 5 = p ∧ (7 + 5 * p + 2 * h - 6) % 5 = 2 * h + 1 := by omega
    have hhalf : 2 * h / 2 = h ∧ (2 * h + 1) / 2 = h ∧ 2 * h % 2 = 0 ∧ (2 * h + 1) % 2 = 1 := by omega
    obtain ⟨h1, h2, h3, h4⟩ := hhalf
    refine ⟨?_, ?_, ?_, ?_⟩
    · rw [ball_wengan (by omega) (by omega) (by omega), hrow.1, hrow.2, if_neg (by omega), if_pos (by omega), h1, h3]
      rfl
    · rw [ball_wengan (by omega) (by omega) (by omega), hrow'.1, hrow'.2, if_neg (by omega), if_pos (by omega), h2, h4]
      rfl
    · rw [ball_wengan (by omega) (by omega) (by omega), hrow.1, hrow.2, if_neg (by omega), if_pos (by omega), h1, h3]
      rfl
    · rw [ball_wengan (by omega) (by omega) (by omega), hrow'.1, hrow'.2, if_neg (by omega), if_pos (by omega), h2, h4]
      rfl
  case pcie =>
    intro n hn
    interval_cases n <;> exact ⟨rfl, rfl, rfl, rfl⟩
  case core =>
    intro i j hi hi' hj hj'
    rw [ball, if_neg (by omega), if_neg (by omega), if_neg (by omega), if_pos ⟨hj, hj'⟩, coreBall]
    split
    · rfl
    · split
      · rfl
      · split
        · rw [if_neg (by omega)]
        · rw [if_pos (by omega)]
  case power =>
    intro k s
    rfl
  case off =>
    intro s hoff hfault
    have hqspi : qspiServed s = false := by simp [qspiServed, hoff]
    have havs : avsDriven s = false := by simp [avsDriven, hoff]
    simp [dedState, hoff, hfault, hqspi, havs]

end
